-- ==== Sys2Proof/Word.lean ====
section
/-! DEFINITION. Word.lean: the word types. A register, a descriptor word and a queue word are 32 bits; memories are
counted in bytes (R4). -/

namespace Sys2Proof

/-- A 32-bit register or descriptor word. -/
abbrev Word := BitVec 32

/-- A byte of a memory. -/
abbrev Byte := BitVec 8

end Sys2Proof
end

