-- ==== Sys2Proof/Syntax.lean ====
section
/-! DEFINITION. Syntax.lean: the commands of the block, one constructor for each row of spec/opcode_table.json, and the data
that their operands carry. -/

namespace Sys2Proof

/-- What the checks of one core found at an operation's verdict. -/
structure CheckResult where
  core : Nat
  rows : List Nat
  cols : List Nat
  corner : Bool
  shadow : Bool
  parity : Option Nat
  deriving DecidableEq, Repr

/-- What a sector read met in the memory (R221). -/
inductive SectorRead where
  | clean | eccRetried | eccFail | integRetried | integFail
  deriving DecidableEq, Repr

/-- A sequence header as a bitstream claims it (R305): dimensions, bit depth, and whether codec, profile and tools are
those of R301. -/
structure SeqHdr where
  w : Nat
  h : Nat
  bits : Nat
  ok : Bool
  deriving DecidableEq, Repr

/-- What the parse of an access unit finds: a sequence header, whether it begins a random-access point, and the order in
which pictures still waiting are output before a DISCONT entry. -/
structure AuInfo where
  hdr : Option SeqHdr
  rap : Bool
  order : List Nat
  deriving DecidableEq, Repr

/-- What the bitstream decides at the end of a picture: the SCLK cycles of its last part, the pictures it is predicted
from, whether a reference is missing, unfilled units if its data ended early, whether it is for display, the pictures
kept as references, and the pictures that the output process now gives, in order. -/
structure PicInfo where
  cycles : Nat
  preds : List Nat
  missing : Bool
  trunc : Option Nat
  display : Bool
  keep : List Nat
  bump : List Nat
  deriving DecidableEq, Repr

/-- How a CSI-2 packet header meets its ECC (R274). -/
inductive CsiHdr where
  | good | corrected | bad
  deriving DecidableEq, Repr

/-- An error that the PCI Express link partner causes (R325, R345). -/
inductive PcieErr where
  | correctable | nonFatal | fatal | replay | unexpected
  deriving DecidableEq, Repr

/-- Who makes a DA access (R231): a DMA channel its next request, an engine for a context, or a control core or the
security engine; `data` is what a write carries. -/
inductive DaReq where
  | chan (core ch : Nat)
  | engine (ctx da : Nat) (data : Option (List Byte))
  | control (iid da : Nat) (data : Option (List Byte))
  deriving DecidableEq, Repr

/-- What a link partner states in a topology exchange (R382): its coordinate, its extents and the direction of its port. -/
structure LinkInfo where
  x : Nat
  y : Nat
  z : Nat
  dx : Nat
  dy : Nat
  dz : Nat
  dir : Nat
  deriving DecidableEq, Repr

/-- A Ploem flit as R378 lays it out; `dest` is bits [14:0] of bytes 6 and 7, `payload` bytes 12 to 251, `link` what a
LINK flit of SUBTYPE 0 states. -/
structure Flit where
  typ : Nat
  vc : Nat
  seq : Nat
  ack : Nat
  nak : Bool
  creditVc : Nat
  credit : Nat
  dest : Nat
  tenant : Nat
  ctag : Nat
  chunk : Nat
  payload : List Byte
  link : Option LinkInfo
  deriving DecidableEq, Repr

/-- What a boot finds (R440, R485): the identity key reconstructed, then the checks of steps 2 to 6 passed (anti-rollback
copies, boot pointer, configuration record, board record, the image of either slot); repair lanes and row resources left of
stack 0, stack 1 and tier 1, redundant die-to-die lanes, SPEED and WIDTH of the links (R345), the level of MUTE_N and
whether PERST_N is still low. -/
structure BootOutcome where
  idOk : Bool
  rollbackOk : Bool
  pointerOk : Bool
  cfgOk : Bool
  brdOk : Bool
  img0Ok : Bool
  img1Ok : Bool
  mem : List (Nat × Nat)
  d2dLeft : Nat
  links : List (Nat × Nat)
  muteLow : Bool
  perstLow : Bool
  deriving DecidableEq, Repr

/-- The commands of the OZ7: one constructor for each row of the opcode table, with the row's operands (log entry 1). -/
inductive Instr where
  /-- R47: A write to a register field that has no row of its own, checked against the page's access table; `addr` is
  the BAR0 offset, `be` the byte enables. -/
  | regWrite (iid : Fin 24) (addr : Nat) (be : BitVec 4) (val : Word)
  /-- R50: TXN_CTRL BEGIN opens a transaction on a page, latches the tag and records the owner; `page` is the page
  number in BAR0, `val` gives the other fields of the word. -/
  | txnBegin (iid : Fin 24) (page : Fin 16384) (val : Word)
  /-- R52: TXN_CTRL COMMIT closes the open transaction and queues it with its apply point; `val` gives APPLY,
  APPLY_SEL and GROUP. -/
  | txnCommit (iid : Fin 24) (page : Fin 16384) (val : Word)
  /-- R57: TXN_CTRL ROLLBACK discards the open transaction or withdraws the newest ungrouped pending commit; `val`
  gives the other fields of the word. -/
  | txnRollback (iid : Fin 24) (page : Fin 16384) (val : Word)
  /-- R55: A pending commit reaches its apply point and its marked fields take their shadow values; pending commit
  `k` of the page, oldest first. -/
  | commitApply (page : Fin 16384) (k : Fin 4)
  /-- R60: MGT_TXG_CTRL FIRE sets a transaction group's apply point and fixes its fired set; `val` gives APPLY and
  APPLY_SEL. -/
  | groupFire (iid : Fin 24) (g : Fin 16) (val : Word)
  /-- R60: MGT_TXG_CTRL WITHDRAW discards every member of a group not yet released; `val` gives APPLY and APPLY_SEL.
  -/
  | groupWithdraw (iid : Fin 24) (g : Fin 16) (val : Word)
  /-- R60: A fired group's apply point arrives and every member of the fired set is released. -/
  | groupRelease (g : Fin 16)
  /-- R43: A W1C write to ERR_STAT clears bits and releases ERR_FIRST once all are clear. -/
  | errStatClear (iid : Fin 24) (page : Fin 16384) (val : Word)
  /-- R42: A write to ERR_EN, raising the page interrupt when it enables a bit already set. -/
  | errEnWrite (iid : Fin 24) (page : Fin 16384) (val : Word)
  /-- R42: ERR_INJ with FIRE sets the chosen ERR_STAT bit as if the event had occurred; `val` gives BIT. -/
  | errInj (iid : Fin 24) (page : Fin 16384) (val : Word)
  /-- R63: A write of 1 to MGT_SNAP.REQ requests a snapshot tick. -/
  | snapReq (iid : Fin 24)
  /-- R64: A requested or deferred snapshot tick copies every counter into its shadow and increments SNAP_GEN. -/
  | snapshotTick
  /-- R31: FAB_WALK.GO starts the walking test on both directions of a fabric link; `val` gives LINK. -/
  | fabWalkGo (iid : Fin 24) (val : Word)
  /-- R497: A fabric walking test ends and FAB_WALK_STATUS reports passed or failed. -/
  | walkTestDone (pass : Bool)
  /-- R31: FAB_CRC_INJ.FIRE corrupts the CRC of the next data beat in one direction of a link; `val` gives LINK and
  DIR. -/
  | fabCrcInj (iid : Fin 24) (val : Word)
  /-- R403: A data beat arrives at its destination and its CRC-16 is checked before use; `bad` transmissions in a row
  fail their CRC; `row` is the scratchpad row it is for, if it is for one. -/
  | fabricBeat (link : Fin 31) (dir : Fin 2) (bad : Nat) (row : Option (Fin 18 × Fin 65536))
  /-- R32: FAB_D2D_CTRL.RETRAIN retrains the die-to-die link, holding traffic that crosses. -/
  | d2dRetrain (iid : Fin 24)
  /-- R29: A die-to-die retrain completes and held crossing traffic resumes. -/
  | d2dRetrainDone
  /-- R29: A die-to-die lane fails and is repaired from a redundant lane, or R415 applies; `training` says that the
  lane failed at training. -/
  | d2dLaneFail (training : Bool)
  /-- R77: A GEMM descriptor is issued to the array, checked and run; `cfgBad` says that a configuration register the
  operation uses fails its parity (R404). -/
  | gemm (n : Fin 18) (cfgBad : Bool)
  /-- R157: A direct convolution descriptor is issued and run as a GEMM through the window walker. -/
  | conv2d (n : Fin 18) (cfgBad : Bool)
  /-- R161: A frequency-domain convolution descriptor, phase 0 or 1, is issued and run. -/
  | fftconv (n : Fin 18) (cfgBad : Bool)
  /-- R166: A pooling descriptor is issued and run in the vector pipeline. -/
  | pool (n : Fin 18) (cfgBad : Bool)
  /-- R169: A box-crop descriptor is issued and each box is resampled bilinearly. -/
  | boxcrop (n : Fin 18) (cfgBad : Bool)
  /-- R76: An elementwise descriptor is issued to the vector pipeline. -/
  | eltwise (n : Fin 18) (cfgBad : Bool)
  /-- R183: A SQUALL KIND 0 operation attends query rows over a span and writes states or output. -/
  | squallForward (n : Fin 18) (cfgBad : Bool)
  /-- R186: A SQUALL KIND 1 operation merges up to 16 partial states. -/
  | squallMerge (n : Fin 18) (cfgBad : Bool)
  /-- R188: A SQUALL KIND 2 operation recomputes scores and produces gradients of Q, K and V. -/
  | squallBackward (n : Fin 18) (cfgBad : Bool)
  /-- R178: A SQUALL KIND 3 transfer is posted to move KV pages named by a page table into a region. -/
  | pageFetch (n : Fin 18)
  /-- R178: A SQUALL KIND 4 transfer is posted to write the rows of one page image back to DA. -/
  | pageStore (n : Fin 18)
  /-- R202: An ISSUE of SCAN posts a chunk to the core's scan queue. -/
  | scan (n : Fin 18)
  /-- R387: A COLLECTIVE KIND 0 is posted to the collective engine queue. -/
  | allReduce (n : Fin 18)
  /-- R387: A COLLECTIVE KIND 1 is posted to the collective engine queue. -/
  | reduceScatter (n : Fin 18)
  /-- R387: A COLLECTIVE KIND 2 is posted to the collective engine queue. -/
  | allGather (n : Fin 18)
  /-- R387: A COLLECTIVE KIND 3 is posted to the collective engine queue. -/
  | broadcast (n : Fin 18)
  /-- R139: A DMA descriptor of DIR 0x0 is posted to a channel queue. -/
  | dmaDaToRegion (n : Fin 18)
  /-- R139: A DMA descriptor of DIR 0x1 is posted to a channel queue. -/
  | dmaRegionToDa (n : Fin 18)
  /-- R139: A DMA descriptor of DIR 0x2 is posted to a channel queue. -/
  | dmaRegionToRegion (n : Fin 18)
  /-- R143: A DMA descriptor of DIR 0x3 is posted to load instruction memory. -/
  | dmaDaToImem (n : Fin 18)
  /-- R143: A DMA descriptor of DIR 0x4 is posted to write a region of another core. -/
  | dmaRegionToCore (n : Fin 18)
  /-- R143: A DMA descriptor of DIR 0x5 is posted to fill region rows with a pattern. -/
  | dmaFill (n : Fin 18)
  /-- R79: The sequencer waits until a semaphore holds a count. -/
  | waitsem (n : Fin 18)
  /-- R79: A waited semaphore reaches its count, which is subtracted, and the sequencer goes on. -/
  | waitsemRelease (n : Fin 18)
  /-- R79: The sequencer adds a count to a semaphore. -/
  | signal (n : Fin 18)
  /-- R79: The sequencer waits until a region holds a number of committed rows. -/
  | waitrows (n : Fin 18)
  /-- R79: A waited region reaches its committed rows and the sequencer goes on. -/
  | waitrowsRelease (n : Fin 18)
  /-- R79: The sequencer waits until a region has a number of free rows. -/
  | waitroom (n : Fin 18)
  /-- R79: A waited region reaches its free rows and the sequencer goes on. -/
  | waitroomRelease (n : Fin 18)
  /-- R79: The sequencer runs a loop body a given number of times. -/
  | loop (n : Fin 18)
  /-- R79: The sequencer jumps to a target slot. -/
  | branch (n : Fin 18)
  /-- R91: The sequencer drains, loads a model's region image and continues at its entry slot. -/
  | switch (n : Fin 18)
  /-- R79: The sequencer waits until no operation is in flight. -/
  | drain (n : Fin 18)
  /-- R79: The last operation in flight commits and a waiting DRAIN goes on. -/
  | drainRelease (n : Fin 18)
  /-- R473: The core drains and enters the low-power state that its domain's mode selects. -/
  | seqWait (n : Fin 18)
  /-- R74: A gang member arrives at the gang barrier without an operation. -/
  | barrier (n : Fin 18)
  /-- R74: The last gang member arrives and the barrier releases all members 4 cycles later. -/
  | barrierRelease (n : Fin 18)
  /-- R74: The last member's ISSUE arrives and the gang operation starts on every member; `n` is a member of the
  gang. -/
  | issueBarrierRelease (n : Fin 18) (cfgBad : Bool)
  /-- R79: The sequencer waits until all its operations and posted transfers have completed. -/
  | done (n : Fin 18)
  /-- R79: A waiting DONE finds nothing outstanding, signals completion to firmware and halts. -/
  | doneComplete (n : Fin 18)
  /-- R83: An operation's verification completes and its verdict passes or fails; `res` is what the checks found, by
  member core. -/
  | verdict (n : Fin 18) (res : List CheckResult)
  /-- R89: A spare swap completes and the operation runs a fourth time. -/
  | spareSwapDone (n : Fin 18)
  /-- R90: At the next drained boundary after a wear threshold, the spare replaces the worn row or column. -/
  | wearSwap (n : Fin 18)
  /-- R93: A run exceeds ARR_WDOG and the context faults with WATCHDOG. -/
  | arrWdogTimeout (n : Fin 18)
  /-- R75: A member waits at a barrier longer than ARR_BARRIER_LIMIT and the context faults. -/
  | barrierTimeout (n : Fin 18)
  /-- R528: A write to ARR_FAULT_INJ arms corruption of one cell's accumulators. -/
  | arrFaultInj (iid : Fin 24) (n : Fin 18) (val : Word)
  /-- R118: A write to ARR_STAT_CLR_LO or HI clears the selected statistics slots; `hi` selects ARR_STAT_CLR_HI. -/
  | arrStatClr (iid : Fin 24) (n : Fin 18) (hi : Bool) (val : Word)
  /-- R96: SEQ_CTRL.START starts a halted sequencer at SEQ_ENTRY; `val` gives DRAIN_REQ. -/
  | seqStart (iid : Fin 24) (n : Fin 18) (val : Word)
  /-- R96: SEQ_CTRL.DRAIN_REQ stops issuing at the next operation boundary and holds at the drained boundary; `on` is
  the value written to DRAIN_REQ. -/
  | drainReq (iid : Fin 24) (n : Fin 18) (on : Bool)
  /-- R140: A DMA channel starts its next queued descriptor and checks it; `par` is a parity error that the reads of
  source rows meet: its bank, and whether it persists. -/
  | channelStart (n : Fin 18) (ch : Fin 4) (par : Option (Fin 100 × Bool)) (cfgBad : Bool)
  /-- R142: A channel waiting for room finds a free destination row and writes on. -/
  | dmaRoomAvailable (n : Fin 18) (ch : Fin 4)
  /-- R142: A channel's wait exceeds SPD_DMA_WAIT_LIMIT and the context faults with WATCHDOG. -/
  | dmaWaitTimeout (n : Fin 18) (ch : Fin 4)
  /-- R149: A write to SPD_DMA_CTRL.HOLD stops a channel starting further descriptors. -/
  | spdDmaHold (iid : Fin 24) (n : Fin 18) (ch : Fin 4) (val : Word)
  /-- R149: A write of word 15 of SPD_DMA_SUBMIT posts the descriptor to the channel for a chosen context; `val` is
  word 15. -/
  | spdDmaSubmit (iid : Fin 24) (n : Fin 18) (ch : Fin 4) (val : Word)
  /-- R151: A write to SPD_RELEASE moves a region's TAIL forward. -/
  | spdRelease (iid : Fin 24) (n : Fin 18) (val : Word)
  /-- R147: SPD_BANK_SWAP.GO starts a swap of a logical bank onto a free spare bank; `val` gives LOGICAL. -/
  | spdBankSwap (iid : Fin 24) (n : Fin 18) (val : Word)
  /-- R128: In reserve mode a bank past its parity threshold is swapped at the next drained boundary. -/
  | bankSwap (n : Fin 18)
  /-- R128: A bank swap completes and SPD_BANK_MAP points at the spare; `badLines` are the lines whose three reads
  all failed. -/
  | bankSwapDone (n : Fin 18) (badLines : List (Fin 512))
  /-- R203: A stream swap-in completes, LOC becomes resident and waiting chunks become eligible; `e` is the table
  entry. -/
  | swapInDone (e : Fin 4096)
  /-- R202: The scan unit starts the oldest eligible chunk when the array and vector pipeline are free. -/
  | scanChunkStart (n : Fin 18) (cfgBad : Bool)
  /-- R203: A chunk waits longer than VEC_SCAN_WAIT_LIMIT and the context faults; `k` is the place in the scan queue.
  -/
  | scanWaitTimeout (n : Fin 18) (k : Fin 16)
  /-- R208: STR_CMD WRITE copies the staging words into a stream-table entry. -/
  | strWrite (iid : Fin 24)
  /-- R208: STR_CMD READ copies a stream-table entry into the staging words. -/
  | strRead (iid : Fin 24)
  /-- R204: STR_CMD SWAP_OUT requests that a resident stream's state be moved to DA. -/
  | strSwapOut (iid : Fin 24)
  /-- R204: A pending swap-out begins once no chunk of the stream is queued or running. -/
  | swapOutStart (e : Fin 4096)
  /-- R204: A swap-out write completes and the stream becomes swapped. -/
  | swapOutDone (e : Fin 4096)
  /-- R204: STR_CMD SWAP_IN moves a swapped stream's state back without a chunk. -/
  | strSwapIn (iid : Fin 24)
  /-- R211: STR_CMD SET_RESET marks a stream so its next chunk starts from the initial state. -/
  | strSetReset (iid : Fin 24)
  /-- R208: STR_CMD INVALIDATE clears a stream-table entry. -/
  | strInvalidate (iid : Fin 24)
  /-- R208: A write to STR_PART is dropped if it would make partitions overlap; `k` is the context. -/
  | strPartWrite (iid : Fin 24) (k : Fin 128) (val : Word)
  /-- R27: A DA access reaches the tier controller and passes the stages of the access pipeline. -/
  | tierAccess (req : DaReq) (cfgBad : Bool)
  /-- R220: A sector read returns, is verified and is delivered with its poison indication; `k` is the place among
  outstanding accesses. -/
  | tierReadDeliver (k : Nat) (out : SectorRead)
  /-- R531: A sector write, or a read-modify-write, lands its data and tag in memory. -/
  | tierWriteDone (k : Nat)
  /-- R224: An access gets no response within 65,536 FCLK cycles and completes without data. -/
  | tierTimeout (k : Nat)
  /-- R215: MT_PG_CMD ALLOC gives an unowned page to a tenant and places it in a free frame; MT_PG_SEL names the
  page. -/
  | alloc (iid : Fin 24) (owner : Fin 16) (place : Fin 3)
  /-- R215: MT_PG_CMD FREE removes a page's owner and frees its frame. -/
  | free (iid : Fin 24)
  /-- R236: A FREE completes once no access to the page remains past stage 1. -/
  | freeComplete (page : Fin 131072)
  /-- R230: MT_PG_CMD SET_PLACE changes a page's placement, subject to the pin quota. -/
  | setPlace (iid : Fin 24) (place : Fin 3)
  /-- R236: MT_PG_CMD READ fills MT_PG_INFO0 and INFO1 for a page. -/
  | pageRead (iid : Fin 24)
  /-- R227: The idle migration engine chooses its next fill, demotion or promotion. -/
  | migrationChoice
  /-- R228: A page move or fill completes, the placement switches and stalled accesses continue; `bad` are the
  sectors whose source reads failed. -/
  | moveSwitch (bad : List (Fin 4096))
  /-- R226: At each decay tick every page's age shifts right by one. -/
  | decayTick
  /-- R408: The patrol read visits frames of both tiers and counts uncorrected errors; `rows` are the DRAM rows of
  the frame that yield uncorrected errors. -/
  | patrolRead (rows : List Nat)
  /-- R242: At each sample-period boundary the 32 ring channels are written to the history ring; `vals` are what the
  sources of the 32 ring channels deliver, `sat` the channels that saturated. -/
  | sampleWrite (vals : List (BitVec 16)) (sat : BitVec 32)
  /-- R239: A TDM frame arrives; a missing or early sync zeros its samples and flags TDM_LOSS; `ok`: the frame sync
  came in time. -/
  | tdmFrameSync (p : Fin 4) (ok : Bool)
  /-- R244: MUTE_N falls and the device cuts microphone power and clocks and writes zeros to the ring. -/
  | muteNFall
  /-- R246: MUTE_N rises and the release qualification count starts. -/
  | muteNRise
  /-- R245: MUTE_N has stayed high for 1 ms and microphones are restored, with settle zeros. -/
  | releaseQualified
  /-- R245: The unmute settle count expires and live samples resume. -/
  | settleEnd
  /-- R256: A model's hop end is written and the sequencer runs the models whose hops end there. -/
  | hopEnd
  /-- R257: A Breeze model's run ends with its output and the sequencer decides whether to wake; the run's output;
  `fails` runs failed their checks, with `parity` parity errors. -/
  | breezeRunEnd (conf : BitVec 16) (startOff : Nat) (endOff : Nat) (fails : Fin 3) (parity : Nat)
  /-- R261: BRZ reads a Gust handover descriptor after its semaphore signal, validates it and queues it. -/
  | gustPost
  /-- R267: Firmware advances the wake queue's RD; a write beyond WR is dropped. -/
  | wqRdWrite (iid : Fin 24) (val : Word)
  /-- R251: BRZ_AG_CMD ACTIVATE makes an audio group active at the newest index plus one. -/
  | agActivate (iid : Fin 24) (g : Fin 16)
  /-- R251: BRZ_AG_CMD STOP makes an audio group idle at the end of any block in flight. -/
  | agStop (iid : Fin 24) (g : Fin 16)
  /-- R251: BRZ_AG_CMD SEEK sets a group's cursor to BRZ_AG_SEEK and makes it active. -/
  | agSeek (iid : Fin 24) (g : Fin 16)
  /-- R252: An active group delivers its next block once its samples are written and the region has room. -/
  | audioBlockDeliver (g : Fin 16)
  /-- R268: An access to BRZ_SPM_DATA reads or writes a Breeze scratchpad word and advances the address; `some`
  writes the word. -/
  | brzSpmData (iid : Fin 24) (w : Option Word)
  /-- R248: A read of BRZ_IDX_LO latches the high bits of the newest index. -/
  | brzIdxLoRead (iid : Fin 24)
  /-- R269: A read of BRZ_AG_CUR_LO latches the high bits of the group cursor. -/
  | agCurLoRead (iid : Fin 24) (g : Fin 16)
  /-- R275: A camera's frame-start packet passes ECC and the device latches DTIME, sample index and frame number;
  `num` is the CSI-2 frame number, `hdr` how the header meets its ECC. -/
  | frameStart (p : Fin 8) (vc : Fin 4) (num : BitVec 16) (hdr : CsiHdr)
  /-- R274: A CSI-2 long packet arrives and enters the camera's line ring, or is lost; `dt` is the data type, `px`
  the pixel codes, `sclk` the SCLK cycle of the last pixel. -/
  | lineReceive (p : Fin 8) (vc : Fin 4) (dt : Fin 64) (hdr : CsiHdr) (crcOk : Bool) (px : List Nat) (sclk : Nat)
  /-- R273: A frame-end packet arrives and a short frame's missing lines are marked lost. -/
  | frameEnd (p : Fin 8) (vc : Fin 4) (hdr : CsiHdr)
  /-- R278: The free image pipeline grants a stripe to the ready camera with the smallest key. -/
  | stripeGrant
  /-- R287: A frame's processing ends and its frame record is written to the record ring. -/
  | frameDone (cam : Fin 16)
  /-- R290: ISP_CC_POST queues a packet of sensor writes with a settings ID. -/
  | ccPost (iid : Fin 24) (b : Fin 4) (val : Word)
  /-- R292: A camera-control packet completes or is abandoned and its settings ID is assigned to frames; `writes`
  sensor writes were acknowledged and `retries` repeated; `ok`: complete, else abandoned. -/
  | ccPacketDone (b : Fin 4) (writes : Nat) (retries : Nat) (ok : Bool)
  /-- R293: A camera-control bus stays stuck for 1 ms and is reset. -/
  | ccBusTimeout (b : Fin 4)
  /-- R299: An access to ISP_CC_MEM_DATA reads or writes command memory and advances the address; `some` writes the
  word. -/
  | ccMemData (iid : Fin 24) (b : Fin 4) (w : Option Word)
  /-- R282: An access to ISP_LUT_DATA writes an inactive LUT bank word and advances the index; `some` writes the
  word. -/
  | lutData (iid : Fin 24) (w : Option Word)
  /-- R286: A write to ISP_OUT_REL releases a DA output buffer; output `o` of camera `cam`. -/
  | ispOutRel (iid : Fin 24) (cam : Fin 16) (o : Fin 3) (val : Word)
  /-- R302: The runtime advances DEC_AU_PTR.WR to hand AU entries to a decode context; `cx` is the decode context. -/
  | decAuPtrWr (iid : Fin 24) (cx : Fin 32) (val : Word)
  /-- R304: A decode context fetches its next AU entry when not paused. -/
  | auFetch (cx : Fin 32)
  /-- R308: A free decode engine starts the picture longest in its ready queue; `e` is the engine. -/
  | decodeStart (e : Fin 4) (info : AuInfo)
  /-- R309: A picture over budget reaches a slice or tile boundary and is pre-empted if another waits; `cycles` SCLK
  cycles since the last boundary, `unfilled` units not decoded yet, `keep` the references kept. -/
  | sliceBoundary (e : Fin 4) (cycles : Nat) (unfilled : Nat) (keep : List Nat)
  /-- R309: A picture's used time reaches 32 times its budget and it is abandoned. -/
  | decodeAbandon (e : Fin 4) (unfilled : Nat) (keep : List Nat)
  /-- R304: A picture's decoding ends and it waits in the pool for output. -/
  | decodeDone (e : Fin 4) (info : PicInfo)
  /-- R316: The transform engine starts the oldest ready picture once its destination has room. -/
  | xfmStart
  /-- R313: A transform completes, its tensor commits and its picture record is written. -/
  | xfmDone
  /-- R313: A write to XFM_REL releases a transform DA buffer. -/
  | xfmRel (iid : Fin 24) (cx : Fin 32) (val : Word)
  /-- R330: A host writes a submission-queue doorbell with a new tail; queue `q` of context `slot` of function `f`.
  -/
  | sqDoorbell (f : Fin 16) (slot : Fin 8) (q : Fin 4) (val : Word)
  /-- R330: A host writes a completion-ring doorbell with a new head. -/
  | cqDoorbell (f : Fin 16) (slot : Fin 8) (val : Word)
  /-- R334: Firmware fetches a submission entry when a completion slot is free and checks it; by control core `cc`.
  -/
  | sqFetch (cc : Fin 4)
  /-- R355: A JOB entry becomes runnable for the scheduler; `aclk` is the ACLK cycle of the scheduling point. -/
  | job (id : Nat) (aclk : Nat)
  /-- R333: A DMA entry is posted to SPD_DMA_SUBMIT of its core; `id` is the entry in the order of fetch. -/
  | dmaEntry (id : Nat)
  /-- R333: A FENCE entry completes when every earlier entry of its queue has completed. -/
  | fence (id : Nat)
  /-- R358: CONTROL STREAM_WRITE writes a stream-table entry for the context. -/
  | streamWrite (id : Nat)
  /-- R358: CONTROL STREAM_OP issues a swap, reset or invalidate on a stream. -/
  | streamOp (id : Nat)
  /-- R358: CONTROL REGION commits a region descriptor on a context core. -/
  | region (id : Nat)
  /-- R358: CONTROL MODEL commits a SEQ_MODEL entry on a context core. -/
  | model (id : Nat)
  /-- R358: CONTROL SHARE sets the context's scheduling share. -/
  | share (id : Nat)
  /-- R358: CONTROL ACCOUNT writes the context's class counters and DTIME to DA. -/
  | account (id : Nat)
  /-- R336: An entry's completion is written to the completion ring in fetch order. -/
  | completionWrite (x : Fin 128) (q : Fin 4)
  /-- R339: Firmware samples a tenant's HEARTBEAT words and declares it lost if unchanged for TIMEOUT. -/
  | heartbeatSample (f : Fin 16)
  /-- R341: HIF_FN_CTRL.RESUME returns a HOST_LOST function to READY and writes held completions. -/
  | resume (iid : Fin 24) (f : Fin 16)
  /-- R327: A host read through BAR2 accesses DA under the function's range set; `fails`: the tier gives no response.
  -/
  | bar2Read (f : Fin 16) (off : Nat) (len : Nat) (fails : Bool)
  /-- R327: A host write through BAR2 writes DA under the function's range set; `ep`: the TLP carries EP. -/
  | bar2Write (f : Fin 16) (off : Nat) (bytes : List Byte) (ep : Bool) (fails : Bool)
  /-- R343: An FLR, VF disable, hot reset or link down puts a function into SCRUBBING. -/
  | functionLevelReset (f : Fin 16)
  /-- R342: VF Enable brings a disabled virtual function through SCRUBBING; VF Enable set or cleared. -/
  | vfEnable (f : Fin 16) (on : Bool)
  /-- R514: PE1_PERST_N low in split mode acts as a link down of link 1. -/
  | pe1PerstN
  /-- R457: Once no access to the tenant's pages remains, its key slots are erased, pages freed and the function
  returned. -/
  | scrubKeyErase (f : Fin 16)
  /-- R351: CTL_MB_CMD CREATE places a new context on cores and writes its status block; tenant and context slot. -/
  | create (iid : Fin 24) (t : Fin 16) (slot : Fin 8)
  /-- R371: CTL_MB_CMD DESTROY tears a context down and frees its blocks. -/
  | destroy (iid : Fin 24) (t : Fin 16) (slot : Fin 8)
  /-- R360: A job's slice expires, a scheduling point. -/
  | sliceEnd (id : Nat) (aclk : Nat)
  /-- R362: At the outgoing job's drained boundary firmware saves and restores context state. -/
  | contextSwitch (n : Fin 18) (aclk : Nat)
  /-- R357: Every core of a job has halted on DONE with channels idle, and the job completes. -/
  | jobDone (id : Nat) (aclk : Nat)
  /-- R357: A job's running time reaches LIMIT and its context faults with WATCHDOG. -/
  | jobLimit (id : Nat) (aclk : Nat)
  /-- R364: Firmware moves a context from a drained core to a replacement in service; context `x` from core `a` to
  core `b`. -/
  | rotationExchange (x : Fin 128) (a : Fin 18) (b : Fin 18) (aclk : Nat)
  /-- R371: A write to CTL_XCOPY copies instruction-memory slots between cores. -/
  | ctlXcopy (iid : Fin 24) (val : Word)
  /-- R365: The owning control core tears down a faulted context. -/
  | teardown (x : Fin 128) (aclk : Nat)
  /-- R366: CTL_UPD_CMD STAGE copies and verifies a firmware image into the inactive slot; `keyOk` and `sigOk`: the
  digest of PUBKEY and SIG verify. -/
  | stage (iid : Fin 24) (keyOk : Bool) (sigOk : Bool)
  /-- R367: CTL_UPD_CMD ACTIVATE starts the core-by-core handover to a staged image. -/
  | activate (iid : Fin 24)
  /-- R373: CTL_UPD_CMD CANCEL abandons an update before its first handover. -/
  | cancel (iid : Fin 24)
  /-- R367: With no job running for its contexts, a control core hands its contexts to the loader. -/
  | updHandover
  /-- R367: A handover waits longer than CTL_UPD_WAIT and its held starts are released. -/
  | updWaitExpiry
  /-- R350: A control core's watchdog expires without a kernel tick; of control core `k`. -/
  | ccWatchdog (k : Fin 4)
  /-- R350: A double-bit error is read from control-complex SRAM. -/
  | sramDoubleBit (k : Fin 4)
  /-- R368: A kernel assertion fails on a control core. -/
  | kernelAssertion (k : Fin 4)
  /-- R412: A failed control core's contexts and roles move to the spare; `bist`: it failed its built-in test at
  boot. -/
  | controlCoreFail (k : Fin 4) (bist : Bool)
  /-- R373: A read of CTL_DUMP_AON_DATA returns a word of the always-on dump copy and advances the address. -/
  | dumpAonRead (iid : Fin 24)
  /-- R379: A Ploem flit arrives, is checked and accepted, forwarded or discarded with NAK; `corr` symbols were
  corrected; `testBad`: a test flit whose body mismatches. -/
  | flitReceive (p : Fin 6) (flit : Flit) (crcOk : Bool) (fecOk : Bool) (corr : Nat) (testBad : Bool)
  /-- R379: No ACK advances within 1,024 FCLK cycles and the transmitter replays. -/
  | replayTimeout (p : Fin 6)
  /-- R377: A Ploem lane fails training or its FEC count and the port degrades or fails. -/
  | laneFail (p : Fin 6) (lane : Fin 2)
  /-- R382: A port's training ends and its topology exchange decides ACTIVE or FAILED; `l0` and `l1`: the lanes pass.
  -/
  | portTrainingDone (p : Fin 6) (l0 : Bool) (l1 : Bool) (partner : LinkInfo)
  /-- R386: Every member has posted a collective and the engine checks and starts it; `fails` attempts of on-die work
  fail their check. -/
  | collectiveStart (n : Fin 18) (fails : Nat) (par : Option (Fin 100 × Bool))
  /-- R390: A chunk and its digest arrive and pass the transport and compute checks; the ring schedule's part of a
  chunk: `row` it goes to, whether it is added, final, and sent onward; `sumBad`: this device's own arithmetic fails
  its check. -/
  | chunkReceive (p : Fin 6) (tenant : Fin 16) (ctag : BitVec 12) (chunk : Nat) (row : Nat) (add : Bool) (last : Bool) (onward : Bool) (sumBad : Bool)
  /-- R394: Every output chunk has been checked and written and the collective commits. -/
  | collectiveComplete (n : Fin 18) (fails : Nat)
  /-- R392: A collective waits longer than PLM_COLL_WAIT and the context faults with WATCHDOG. -/
  | collWaitTimeout (x : Fin 128)
  /-- R405: After a vector-lane fault firmware runs a lane test at the core's next drained boundary; `fails`: some
  vector lane fails. -/
  | laneTest (n : Fin 18) (fails : Bool)
  /-- R411: A core that has lost its spares is drained and retired; `pass`: the spare core that takes its place
  passes its test. -/
  | coreRetire (n : Fin 18) (pass : Bool) (aclk : Nat)
  /-- R414: In rotation mode each core is drained for its built-in test every ROTATE_H hours. -/
  | maintenanceDrain (n : Fin 18) (pass : Bool) (aclk : Nat)
  /-- R409: A new spare policy takes effect when no job runs. -/
  | policyChange (aclk : Nat)
  /-- R418: The error-log staging buffer is flushed to flash every 1 ms. -/
  | logFlush
  /-- R417: A 1,000 ms window ends and merged partner violations are logged; `k` is the place among open windows. -/
  | partnerWindowEnd (k : Nat)
  /-- R422: Firmware writes a core's wear counts to the log every 24 h. -/
  | wearSnapshot (n : Fin 18)
  /-- R423: PWR_FAIL_N falls and the device refuses flash writes and flushes the log. -/
  | pwrFailNFall
  /-- R424: PWR_FAIL_N stays high for 10 ms and flash writes resume. -/
  | pwrFailNRise
  /-- R428: A W1S write to REL_SVC sets a reason bit and asserts SVC_REQ_N. -/
  | relSvcWrite (iid : Fin 24) (val : Word)
  /-- R485: Rails reach their limits and the device powers up, releases the Breeze domain and boots. -/
  | coldReset (out : BootOutcome)
  /-- R487: PERST_N low takes every domain except Breeze and the control complex to off. -/
  | warmReset
  /-- R487: PERST_N rises and the boot chain runs again from step 2. -/
  | perstNRise (out : BootOutcome)
  /-- R517: A monitored rail falls below its minimum; `k` is the rail in the order of R515. -/
  | railUndervoltage (k : Fin 11)
  /-- R444: SEC_REC_CMD WRITE_CONFIG verifies and writes a configuration record. -/
  | writeConfig (iid : Fin 24) (keyOk : Bool) (sigOk : Bool)
  /-- R444: SEC_REC_CMD WRITE_BOARD verifies and writes a board record. -/
  | writeBoard (iid : Fin 24) (keyOk : Bool) (sigOk : Bool)
  /-- R443: Firmware in service raises the anti-rollback counters to the records' FLOOR; `revoke`: the REVOKED bits
  that the revision requests. -/
  | arRaise (revoke : Fin 16)
  /-- R445: The security engine generates the identity key and writes the identity record. -/
  | provision
  /-- R446: SEC_ATT_CMD.GO starts signing an attestation report over the nonce. -/
  | attGo (iid : Fin 24)
  /-- R446: An attestation report is signed and becomes readable. -/
  | attSignDone
  /-- R462: A read of SEC_ATT_DATA returns a report word and advances the address. -/
  | secAttDataRead (iid : Fin 24)
  /-- R460: A read of SEC_ID_DATA returns an identity word and advances the address. -/
  | secIdDataRead (iid : Fin 24)
  /-- R452: SEC_ROT_CMD.GO requests a key rotation for a tenant. -/
  | rotateGo (iid : Fin 24) (t : Fin 16)
  /-- R453: The key walk locks a granule and re-encrypts it under the new epoch; `late`: its last sector would come
  too late; `outs`: what its reads meet. -/
  | walkGranule (late : Bool) (outs : List SectorRead)
  /-- R454: Old-epoch reads have drained and the old key slot is overwritten. -/
  | rotationRetire (t : Fin 16)
  /-- R456: SEC_CONF_CMD SET places a tenant in confidential mode. -/
  | confSet (iid : Fin 24) (t : Fin 16)
  /-- R456: SEC_CONF_CMD CLEAR requests a function-level reset to clear confidential mode. -/
  | confClear (iid : Fin 24) (t : Fin 16)
  /-- R467: The thermal sensors are sampled and throttling is entered or left; `temps` of the eight sensors, `none`
  where one is invalid. -/
  | thermalSample (temps : List (Option (BitVec 8)))
  /-- R469: The root PLL loses lock and every derived clock stops. -/
  | pllUnlock
  /-- R469: The root PLL relocks and derived clocks restart with forced reruns. -/
  | pllRelock
  /-- R475: PWR_DOM_CTRL MODE 0b00 selects off for a domain's wait, or is refused. -/
  | domModeOff (iid : Fin 24) (d : Fin 31)
  /-- R473: PWR_DOM_CTRL MODE 0b01 selects retention for a domain's wait. -/
  | domModeRetention (iid : Fin 24) (d : Fin 31)
  /-- R473: PWR_DOM_CTRL MODE 0b10 keeps a domain on or starts its exit. -/
  | domModeOn (iid : Fin 24) (d : Fin 31)
  /-- R473: A domain reaches its wait and begins entry to retention or off. -/
  | domainEntry (d : Fin 31)
  /-- R477: A domain's entry sequence completes. -/
  | domainEntryDone (d : Fin 31)
  /-- R478: A domain completes its exit, applies held commits and accepts work; `ok`: what R478 and R484 test on the
  way passes. -/
  | domainExitDone (d : Fin 31) (ok : Bool)
  /-- R488: DTIME reaches PWR_WAKE and the control complex is woken. -/
  | timerWake
  /-- R471: A read of CLK_DTIME_LO latches the high bits of DTIME. -/
  | clkDtimeLoRead (iid : Fin 24)
  /-- R504: The power controller updates the power estimate every 1 ms. -/
  | powerEstimate
  /-- R504: A read of MGT_TEL_POWER returns and clears PEAK. -/
  | telPowerRead (iid : Fin 24)
  /-- R493: TST_LANE_CFG.INJ inverts one transmitted bit of a lane test; `val` gives the other fields; `back`: the
  far end loops the lane back. -/
  | laneInj (iid : Fin 24) (p : Fin 6) (lane : Fin 2) (back : Bool) (val : Word)
  /-- R494: After GAP flit slots the generator sends a test LINK flit. -/
  | testFlitSend (p : Fin 6)
  /-- R496: TST_MEM_CFG.GO starts the memory pattern engine on a range of frames; `val` gives TIER and ALG. -/
  | memTestGo (iid : Fin 24) (val : Word)
  /-- R496: The memory pattern test ends and reports passed or failed; the first failing frame and the sectors that
  failed. -/
  | memTestDone (fail : Option (Fin 131072 × Nat))
  /-- R499: JTAG EXTEST drives and samples the boundary-scan cells; `pins` are the levels captured, `load` the value
  shifted in. -/
  | extest (pins : Nat) (load : Nat)
  /-- R499: JTAG SAMPLE/PRELOAD samples or loads the boundary-scan register. -/
  | samplePreload (pins : Nat) (load : Nat)
  /-- R499: JTAG IDCODE selects the identification register. -/
  | idcode
  /-- R499: JTAG CLAMP holds the boundary outputs with bypass selected. -/
  | clamp
  /-- R499: JTAG HIGHZ places the outputs in high impedance. -/
  | highz
  /-- R499: JTAG EXTEST_PULSE tests AC-coupled lanes under IEEE 1149.6. -/
  | extestPulse (pins : Nat) (load : Nat)
  /-- R499: JTAG EXTEST_TRAIN tests AC-coupled lanes with pulse trains. -/
  | extestTrain (pins : Nat) (load : Nat)
  /-- R499: JTAG TEST_ENTER destroys the keys, halts the control complex and enters production test. -/
  | testEnter
  /-- R499: JTAG BYPASS selects the one-bit bypass register. -/
  | bypass
  /-- R502: A DBG_ACCESS read fetches a register, DA or scratchpad word under IID 21; `out`: what a DA read meets,
  `none` a tier that does not respond; `parity`: a scratchpad read fails its check. -/
  | dbgRead (space : Fin 4) (addr : BitVec 48) (out : Option SectorRead) (parity : Bool)
  /-- R502: A DBG_ACCESS write stores a register or DA word under IID 21. -/
  | dbgWrite (space : Fin 4) (addr : BitVec 48) (val : Word) (out : Option SectorRead)
  /-- R503: The sideband target takes a dynamic address from SETDASA. -/
  | setdasa (addr : BitVec 7)
  /-- R503: The sideband target takes part in dynamic address assignment; `addr` is the address that the controller
  assigns. -/
  | entdaa (addr : BitVec 7)
  /-- R503: A 4-byte private write sets the sideband's BAR0 pointer. -/
  | sbPointerWrite (ptr : Word)
  /-- R503: A sideband private read returns consecutive register words as IID 20; `cnt` words. -/
  | sbPrivateRead (cnt : Nat)
  /-- R503: A sideband private write stores register words as IID 20. -/
  | sbPrivateWrite (ptr : Word) (words : List Word)
  /-- R47: A register read is checked against the page's access table; a refused read returns zero and sets ACC_DENY,
  and a read of a reserved page or offset sets UNMAPPED and is captured; `addr` is the BAR0 offset; the word read
  goes to `rdata`. -/
  | regRead (iid : Fin 24) (addr : Nat)
  /-- R285: The image pipeline finishes a 32-line stripe, commits it to every machine-vision region in one SCLK cycle
  and becomes free. -/
  | stripeEnd
  /-- R350: A single-bit error in control-complex SRAM is corrected and counted, and enough of them within 24 h fail
  the control core. -/
  | sramSingleBit (k : Fin 4)
  /-- R418: A boot-flash sector erase ahead of the log's write point completes, and a periodic flush that was waiting
  for it runs. -/
  | eraseDone
  /-- R418: A boot-flash page program completes, advancing a log flush, staging or record write, and resuming a
  suspended erase; `log`: a page of a log flush, else a staging or record write. -/
  | flashProgramDone (log : Bool)
  /-- R416: A boot-flash program that has not completed within 5 ms is retried once, and then fails with flash-write
  RESULT 4. -/
  | flashProgramTimeout (log : Bool)
  /-- R493: A lane-test PRBS checker locks after 128 correctly predicted bits and starts counting errors. -/
  | checkerLock (p : Fin 6) (lane : Fin 2)
  /-- R493: A locked lane-test checker sees 16 mismatches within 128 bits, counts the loss, sets LOCK_LOST and
  reseeds. -/
  | checkerLockLoss (p : Fin 6) (lane : Fin 2)
  /-- R499: The JTAG TAP enters Test-Logic-Reset, through TRST_N or TMS, and IDCODE is selected. -/
  | testLogicReset
  /-- R331: A host write to the MSI-X table or mask in BAR4 unmasks a vector whose pending bit is set, and the
  message is sent; `w` is the word of the table. -/
  | msiXTableWrite (f : Fin 16) (w : Fin 4096) (val : Word)
  /-- R345: The PCIe link partner causes a correctable, non-fatal or fatal error, which is logged under AER, counted,
  and sets the AER bits of HIF page 0. -/
  | pcieLinkError (kind : PcieErr)
  deriving DecidableEq, Repr

end Sys2Proof
end

