-- ==== Sys2Proof/Config.lean ====
section
/-! DEFINITION. Config.lean: the free values. Each is a constant with no body, so no proof can know a value of it, and a
statement about it holds for every value. They stand where the manual leaves a value open while the machine goes on. -/

namespace Sys2Proof.Config

/-- A free number, indexed by the state's counter of free values (log entry 3). -/
opaque freeNat : Nat → Nat

/-- A free integer, indexed as `freeNat` (log entry 3). -/
opaque freeInt : Nat → Int

/-- The vector pipeline's activation functions on FP32 encodings, by ACT code (log entry 20). -/
opaque actFn : Nat → Word → Word

/-- Whether the generator of R112 shifts towards its least significant bit (log entry 46). -/
opaque lfsrRight : Bool

end Sys2Proof.Config
end

