-- ==== Sys2Proof/Machine/Bits.lean ====
section
/-! DEFINITION. Machine/Bits.lean: bit fields of words, sign extension, little-endian bytes, and the tables (lists of
key and value) that hold sparse state. -/

namespace Sys2Proof.Machine

/-- A field of a register or descriptor word: bits `hi` down to `lo` (R4). -/
structure Fld where
  hi : Nat
  lo : Nat
  deriving DecidableEq, Repr

/-- Bits `hi..lo` of a number. -/
def bitsOf (w hi lo : Nat) : Nat := w / 2 ^ lo % 2 ^ (hi + 1 - lo)

/-- Bit `k` of a number. -/
def bitOf (w k : Nat) : Bool := w / 2 ^ k % 2 == 1

/-- `w` with bits `hi..lo` replaced by `v` (its excess bits dropped). -/
def putBits (w hi lo v : Nat) : Nat :=
  w - bitsOf w hi lo * 2 ^ lo + (v % 2 ^ (hi + 1 - lo)) * 2 ^ lo

/-- The field `f` of a word. -/
def wordFld (w : Word) (f : Fld) : Nat := bitsOf w.toNat f.hi f.lo

/-- The word with field `f` set to `v`. -/
def wordSet (w : Word) (f : Fld) (v : Nat) : Word := BitVec.ofNat 32 (putBits w.toNat f.hi f.lo v)

/-- The word whose ones are the bits `hi..lo`. -/
def maskOf (hi lo : Nat) : Word := BitVec.ofNat 32 ((2 ^ (hi + 1 - lo) - 1) * 2 ^ lo)

/-- The word with one bit set. -/
def bit32 (k : Nat) : Word := BitVec.ofNat 32 (2 ^ k)

/-- A `w`-bit two's-complement number as an integer. -/
def sext (w n : Nat) : Int := if n < 2 ^ (w - 1) then (n : Int) else (n : Int) - (2 ^ w : Nat)

/-- An integer as a `w`-bit two's-complement number (wrapping modulo 2^w). -/
def wrapInt (w : Nat) (i : Int) : Nat := (i % ((2 ^ w : Nat) : Int)).toNat

/-- The nonempty quotient rounded up. -/
def ceilDiv (a b : Nat) : Nat := (a + b - 1) / b

/-- `n` bytes of a number, least significant first (R4: multi-byte fields are little-endian). -/
def leBytes : Nat → Nat → List Byte
  | 0, _ => []
  | n + 1, v => BitVec.ofNat 8 v :: leBytes n (v / 256)

/-- The number that bytes spell, least significant first. -/
def ofLeBytes : List Byte → Nat
  | [] => 0
  | b :: bs => b.toNat + 256 * ofLeBytes bs

/-- The entry of key `k` in a table. -/
def Tab.find {β : Type} : List (Nat × β) → Nat → Option β
  | [], _ => none
  | (i, v) :: t, k => if i = k then some v else Tab.find t k

/-- The entry of key `k`, or `d` where the table has none. -/
def Tab.get {β : Type} (t : List (Nat × β)) (d : β) (k : Nat) : β := (Tab.find t k).getD d

/-- The table with key `k` holding `v`. -/
def Tab.set {β : Type} : List (Nat × β) → Nat → β → List (Nat × β)
  | [], k, v => [(k, v)]
  | (i, w) :: t, k, v => if i = k then (k, v) :: t else (i, w) :: Tab.set t k v

/-- The table without key `k`. -/
def Tab.del {β : Type} : List (Nat × β) → Nat → List (Nat × β)
  | [], _ => []
  | (i, w) :: t, k => if i = k then Tab.del t k else (i, w) :: Tab.del t k

/-- `f` applied for 0, 1, …, n − 1 in order. -/
def iter {σ : Type} : Nat → (Nat → σ → σ) → σ → σ
  | 0, _, s => s
  | n + 1, f, s => f n (iter n f s)

/-- Whether `p` holds of some number below `n`. -/
def anyBelow : Nat → (Nat → Bool) → Bool
  | 0, _ => false
  | n + 1, p => anyBelow n p || p n

/-- The least number below `n` that satisfies `p`. -/
def leastBelow : Nat → (Nat → Bool) → Option Nat
  | 0, _ => none
  | n + 1, p =>
    match leastBelow n p with
    | some k => some k
    | none => if p n then some n else none

/-- The sum of `f` over the numbers below `n`. -/
def sumBelow : Nat → (Nat → Int) → Int
  | 0, _ => 0
  | n + 1, f => sumBelow n f + f n

/-- How many numbers below `n` satisfy `p`. -/
def countBelow : Nat → (Nat → Bool) → Nat
  | 0, _ => 0
  | n + 1, p => countBelow n p + if p n then 1 else 0

/-- A list with position `k` changed by `f`. -/
def modNth {β : Type} : List β → Nat → (β → β) → List β
  | [], _, _ => []
  | x :: xs, 0, f => f x :: xs
  | x :: xs, k + 1, f => x :: modNth xs k f

/-- A list without its position `k`. -/
def dropNth {β : Type} : List β → Nat → List β
  | [], _ => []
  | _ :: xs, 0 => xs
  | x :: xs, k + 1 => x :: dropNth xs k

/-- An IEEE-style saturating increment of a counter field of `w` bits. -/
def satAdd (w a b : Nat) : Nat := min (a + b) (2 ^ w - 1)

end Sys2Proof.Machine
end

