-- ==== Sys2Proof/Machine/Names.lean ====
section
/-! DEFINITION. Machine/Names.lean: the addresses of the register pages (Pg), of the block registers (R) and the bit
positions of their fields (F) and of the ERR_STAT block bits (E), under the manual's own names. -/

namespace Sys2Proof.Machine

def Pg.mgt0 : Nat := 0x0
def Pg.mgtSnap : Nat := 0x1000
def Pg.mgtTel : Nat := 0x2000
def Pg.tstMode : Nat := 0x3000
def Pg.tstLane (n : Nat) : Nat := 0x4000 + 0x1000 * n
def Pg.tstMem : Nat := 0xa000
def Pg.tstCsi : Nat := 0xb000
def Pg.tstD2d : Nat := 0xc000
def Pg.tstDbg : Nat := 0xd000
def Pg.pwr : Nat := 0x10000
def Pg.clk : Nat := 0x11000
def Pg.secBoot : Nat := 0x20000
def Pg.secKey : Nat := 0x21000
def Pg.secAtt : Nat := 0x22000
def Pg.secConf : Nat := 0x23000
def Pg.secRec : Nat := 0x24000
def Pg.rel0 : Nat := 0x30000
def Pg.rel1 : Nat := 0x31000
def Pg.rel2 : Nat := 0x32000
def Pg.rel3 : Nat := 0x33000
def Pg.ctl0 : Nat := 0x40000
def Pg.ctlMb : Nat := 0x41000
def Pg.ctlShare : Nat := 0x42000
def Pg.ctlAcc (n : Nat) : Nat := 0x44000 + 0x1000 * n
def Pg.ctlUpd : Nat := 0x49000
def Pg.ctlDump : Nat := 0x4a000
def Pg.ctlStr : Nat := 0x4f000
def Pg.arr0 (n : Nat) : Nat := 0x100000 + 0x10000 * n
def Pg.vec (n : Nat) : Nat := 0x101000 + 0x10000 * n
def Pg.seq (n : Nat) : Nat := 0x102000 + 0x10000 * n
def Pg.spd3 (n : Nat) : Nat := 0x103000 + 0x10000 * n
def Pg.spd4 (n : Nat) : Nat := 0x104000 + 0x10000 * n
def Pg.spd5 (n : Nat) : Nat := 0x105000 + 0x10000 * n
def Pg.arr6 (n : Nat) : Nat := 0x106000 + 0x10000 * n
def Pg.arr7 (n : Nat) : Nat := 0x107000 + 0x10000 * n
def Pg.mt0 : Nat := 0x300000
def Pg.mt1 : Nat := 0x301000
def Pg.mt2 : Nat := 0x302000
def Pg.mtCtrl (n : Nat) : Nat := 0x304000 + 0x1000 * n
def Pg.mtRng (n : Nat) : Nat := 0x310000 + 0x1000 * n
def Pg.fab0 : Nat := 0x380000
def Pg.fab1 : Nat := 0x381000
def Pg.fab2 : Nat := 0x382000
def Pg.hif0 : Nat := 0x400000
def Pg.hifFn (n : Nat) : Nat := 0x410000 + 0x1000 * n
def Pg.plm0 : Nat := 0x480000
def Pg.plmPort (n : Nat) : Nat := 0x481000 + 0x1000 * n
def Pg.plmComm : Nat := 0x488000
def Pg.isp0 : Nat := 0x500000
def Pg.ispPort (n : Nat) : Nat := 0x501000 + 0x1000 * n
def Pg.ispCam (n : Nat) : Nat := 0x510000 + 0x1000 * n
def Pg.ispPipe (n : Nat) : Nat := 0x520000 + 0x1000 * n
def Pg.ispBus (n : Nat) : Nat := 0x540000 + 0x1000 * n
def Pg.dec0 : Nat := 0x580000
def Pg.dec1 : Nat := 0x581000
def Pg.decEng (n : Nat) : Nat := 0x588000 + 0x1000 * n
def Pg.decCtx (n : Nat) : Nat := 0x590000 + 0x1000 * n
def Pg.xfm (n : Nat) : Nat := 0x5c0000 + 0x1000 * n
def Pg.brz0 : Nat := 0x600000
def Pg.brz1 : Nat := 0x601000
def Pg.brz2 : Nat := 0x602000
def Pg.brz4 : Nat := 0x604000
def Pg.brzAg (n : Nat) : Nat := 0x610000 + 0x1000 * n

-- mgt0: 02_register_pages.md R59
def R.MGT_TXG_CTRL (k : Nat) : Nat := Pg.mgt0 + 0x200 + 0x10 * k
def F.MGT_TXG_CTRL_CMD : Fld := ⟨1, 0⟩
def F.MGT_TXG_CTRL_APPLY : Fld := ⟨4, 2⟩
def F.MGT_TXG_CTRL_APPLY_SEL : Fld := ⟨15, 8⟩
def R.MGT_TXG_DTIME_LO (k : Nat) : Nat := Pg.mgt0 + 0x204 + 0x10 * k
def F.MGT_TXG_DTIME_LO_DTIME_LO : Fld := ⟨31, 0⟩
def R.MGT_TXG_DTIME_HI (k : Nat) : Nat := Pg.mgt0 + 0x208 + 0x10 * k
def F.MGT_TXG_DTIME_HI_DTIME_HI : Fld := ⟨31, 0⟩
def R.MGT_TXG_STATUS (k : Nat) : Nat := Pg.mgt0 + 0x20c + 0x10 * k
def F.MGT_TXG_STATUS_MEMBERS : Fld := ⟨6, 0⟩
def F.MGT_TXG_STATUS_STATE : Fld := ⟨8, 7⟩
def F.MGT_TXG_STATUS_LATE : Fld := ⟨9, 9⟩
-- mgtSnap: 02_register_pages.md R63
def R.MGT_SNAP : Nat := Pg.mgtSnap + 0x100
def F.MGT_SNAP_REQ : Fld := ⟨0, 0⟩
def R.MGT_SNAP_DTIME_LO : Nat := Pg.mgtSnap + 0x108
def F.MGT_SNAP_DTIME_LO_DTIME : Fld := ⟨31, 0⟩
def R.MGT_SNAP_DTIME_HI : Nat := Pg.mgtSnap + 0x10c
def F.MGT_SNAP_DTIME_HI_DTIME : Fld := ⟨31, 0⟩
-- mgtTel: 19_test_debug.md R504
def R.MGT_TEL_TEMP : Nat := Pg.mgtTel + 0x100
def F.MGT_TEL_TEMP_MAX_CD : Fld := ⟨7, 0⟩
def F.MGT_TEL_TEMP_MAX_ID : Fld := ⟨15, 8⟩
def F.MGT_TEL_TEMP_THROTTLE : Fld := ⟨16, 16⟩
def F.MGT_TEL_TEMP_TRIP : Fld := ⟨17, 17⟩
def R.MGT_TEL_DOM_ON : Nat := Pg.mgtTel + 0x104
def F.MGT_TEL_DOM_ON_ON : Fld := ⟨30, 0⟩
def R.MGT_TEL_DOM_RET : Nat := Pg.mgtTel + 0x108
def F.MGT_TEL_DOM_RET_RET : Fld := ⟨30, 0⟩
def R.MGT_TEL_POWER : Nat := Pg.mgtTel + 0x10c
def F.MGT_TEL_POWER_EST : Fld := ⟨15, 0⟩
def F.MGT_TEL_POWER_PEAK : Fld := ⟨31, 16⟩
def R.MGT_TEL_IBI_EN : Nat := Pg.mgtTel + 0x110
def F.MGT_TEL_IBI_EN_EN : Fld := ⟨5, 0⟩
-- tstMode: 19_test_debug.md R498
def R.TST_MODE : Nat := Pg.tstMode + 0x100
def F.TST_MODE_PROD : Fld := ⟨0, 0⟩
def F.TST_MODE_DEBUG_OPEN : Fld := ⟨1, 1⟩
-- tstLane: 19_test_debug.md R498
def R.TST_LANE_CFG (n k : Nat) : Nat := Pg.tstLane n + 0x100 + 0x4 * k
def F.TST_LANE_CFG_PATTERN : Fld := ⟨1, 0⟩
def F.TST_LANE_CFG_GEN : Fld := ⟨2, 2⟩
def F.TST_LANE_CFG_CHK : Fld := ⟨3, 3⟩
def F.TST_LANE_CFG_INVERT : Fld := ⟨4, 4⟩
def F.TST_LANE_CFG_LOOP : Fld := ⟨6, 5⟩
def F.TST_LANE_CFG_INJ : Fld := ⟨7, 7⟩
def R.TST_LANE_STAT (n k : Nat) : Nat := Pg.tstLane n + 0x108 + 0x4 * k
def F.TST_LANE_STAT_LOCK : Fld := ⟨0, 0⟩
def F.TST_LANE_STAT_LOSSES : Fld := ⟨15, 8⟩
def R.TST_LANE_ERR_LO (n k : Nat) : Nat := Pg.tstLane n + 0x110 + 0x8 * k
def F.TST_LANE_ERR_LO_ERR : Fld := ⟨31, 0⟩
def R.TST_LANE_ERR_HI (n k : Nat) : Nat := Pg.tstLane n + 0x114 + 0x8 * k
def F.TST_LANE_ERR_HI_ERR : Fld := ⟨31, 0⟩
def R.TST_LANE_BITS_LO (n k : Nat) : Nat := Pg.tstLane n + 0x120 + 0x8 * k
def F.TST_LANE_BITS_LO_BITS : Fld := ⟨31, 0⟩
def R.TST_LANE_BITS_HI (n k : Nat) : Nat := Pg.tstLane n + 0x124 + 0x8 * k
def F.TST_LANE_BITS_HI_BITS : Fld := ⟨31, 0⟩
def R.TST_FLIT_CFG (n : Nat) : Nat := Pg.tstLane n + 0x140
def F.TST_FLIT_CFG_GEN : Fld := ⟨0, 0⟩
def F.TST_FLIT_CFG_CHK : Fld := ⟨1, 1⟩
def F.TST_FLIT_CFG_DEST : Fld := ⟨16, 2⟩
def F.TST_FLIT_CFG_GAP : Fld := ⟨31, 24⟩
def E.tstLane_LOCK_LOST : Nat := 16
def E.tstLane_FLIT_ERR : Nat := 17
def E.tstLane_TEST_BUSY : Nat := 18
-- tstMem: 19_test_debug.md R498
def R.TST_MEM_CFG : Nat := Pg.tstMem + 0x100
def F.TST_MEM_CFG_TIER : Fld := ⟨1, 0⟩
def F.TST_MEM_CFG_ALG : Fld := ⟨3, 2⟩
def F.TST_MEM_CFG_GO : Fld := ⟨4, 4⟩
def R.TST_MEM_FIRST : Nat := Pg.tstMem + 0x104
def F.TST_MEM_FIRST_FRAME : Fld := ⟨16, 0⟩
def R.TST_MEM_COUNT : Nat := Pg.tstMem + 0x108
def F.TST_MEM_COUNT_FRAME : Fld := ⟨16, 0⟩
def R.TST_MEM_STATUS : Nat := Pg.tstMem + 0x10c
def F.TST_MEM_STATUS_STATE : Fld := ⟨1, 0⟩
def F.TST_MEM_STATUS_RESULT : Fld := ⟨4, 2⟩
def F.TST_MEM_STATUS_FAIL_FRAME : Fld := ⟨28, 12⟩
def E.tstMem_MEM_FAIL : Nat := 16
-- tstCsi: 19_test_debug.md R498
def R.TST_CSI_CFG (k : Nat) : Nat := Pg.tstCsi + 0x100 + 0x4 * k
def F.TST_CSI_CFG_PATTERN : Fld := ⟨1, 0⟩
def F.TST_CSI_CFG_VALUE : Fld := ⟨17, 2⟩
def R.TST_CSI_ERR (k : Nat) : Nat := Pg.tstCsi + 0x140 + 0x4 * k
def F.TST_CSI_ERR_LINES : Fld := ⟨31, 0⟩
-- tstD2d: 19_test_debug.md R498
-- tstDbg: 19_test_debug.md R498
-- pwr: 18_clocks_power.md R488
def R.PWR_DOM_CTRL (k : Nat) : Nat := Pg.pwr + 0x100 + 0x4 * k
def F.PWR_DOM_CTRL_MODE : Fld := ⟨1, 0⟩
def R.PWR_DOM_STATUS (k : Nat) : Nat := Pg.pwr + 0x200 + 0x4 * k
def F.PWR_DOM_STATUS_STATE : Fld := ⟨1, 0⟩
def F.PWR_DOM_STATUS_PHASE : Fld := ⟨3, 2⟩
def F.PWR_DOM_STATUS_WAKE_HELD : Fld := ⟨4, 4⟩
def F.PWR_DOM_STATUS_REFUSE : Fld := ⟨7, 5⟩
def R.PWR_WAKE_LO : Nat := Pg.pwr + 0x300
def F.PWR_WAKE_LO_DTIME : Fld := ⟨31, 0⟩
def R.PWR_WAKE_HI : Nat := Pg.pwr + 0x304
def F.PWR_WAKE_HI_DTIME : Fld := ⟨31, 0⟩
def R.PWR_WAKE_CTRL : Nat := Pg.pwr + 0x308
def F.PWR_WAKE_CTRL_EN : Fld := ⟨0, 0⟩
def E.pwr_MODE_REFUSED : Nat := 16
def E.pwr_UNPLANNED : Nat := 17
-- clk: 18_clocks_power.md R489
def R.CLK_STATUS : Nat := Pg.clk + 0x100
def F.CLK_STATUS_PLL_LOCK : Fld := ⟨0, 0⟩
def F.CLK_STATUS_PLL_ON : Fld := ⟨1, 1⟩
def F.CLK_STATUS_THROTTLE : Fld := ⟨2, 2⟩
def F.CLK_STATUS_TRIP : Fld := ⟨3, 3⟩
def R.CLK_DTIME_LO : Nat := Pg.clk + 0x104
def F.CLK_DTIME_LO_DTIME : Fld := ⟨31, 0⟩
def R.CLK_DTIME_HI : Nat := Pg.clk + 0x108
def F.CLK_DTIME_HI_DTIME : Fld := ⟨31, 0⟩
def R.CLK_TSENSE (k : Nat) : Nat := Pg.clk + 0x140 + 0x4 * k
def F.CLK_TSENSE_TEMP : Fld := ⟨7, 0⟩
def F.CLK_TSENSE_VALID : Fld := ⟨8, 8⟩
def E.clk_PLL_UNLOCK : Nat := 16
def E.clk_THROTTLE : Nat := 17
def E.clk_SENSOR_FAULT : Nat := 18
-- secBoot: 17_security.md R460
def R.SEC_BOOT : Nat := Pg.secBoot + 0x100
def F.SEC_BOOT_STAGE : Fld := ⟨2, 0⟩
def F.SEC_BOOT_RESULT : Fld := ⟨6, 3⟩
def F.SEC_BOOT_SLOT : Fld := ⟨7, 7⟩
def F.SEC_BOOT_FALLBACK : Fld := ⟨8, 8⟩
def F.SEC_BOOT_ID_VALID : Fld := ⟨9, 9⟩
def F.SEC_BOOT_BOOTS : Fld := ⟨31, 16⟩
def R.SEC_AR : Nat := Pg.secBoot + 0x104
def F.SEC_AR_AR_FW : Fld := ⟨7, 0⟩
def F.SEC_AR_AR_CFG : Fld := ⟨15, 8⟩
def F.SEC_AR_AR_BRD : Fld := ⟨23, 16⟩
def F.SEC_AR_REVOKED : Fld := ⟨27, 24⟩
def R.SEC_DEVID (k : Nat) : Nat := Pg.secBoot + 0x110 + 0x4 * k
def F.SEC_DEVID_ID : Fld := ⟨31, 0⟩
def R.SEC_ID_ADDR : Nat := Pg.secBoot + 0x140
def F.SEC_ID_ADDR_WORD : Fld := ⟨10, 0⟩
def R.SEC_ID_DATA : Nat := Pg.secBoot + 0x144
def F.SEC_ID_DATA_DATA : Fld := ⟨31, 0⟩
def E.secBoot_FALLBACK : Nat := 16
def E.secBoot_REC_REFUSED : Nat := 17
-- secKey: 17_security.md R461
def R.SEC_KEY (k : Nat) : Nat := Pg.secKey + 0x100 + 0x4 * k
def F.SEC_KEY_STATE : Fld := ⟨2, 0⟩
def F.SEC_KEY_CUR : Fld := ⟨3, 3⟩
def F.SEC_KEY_QUEUED : Fld := ⟨4, 4⟩
def F.SEC_KEY_ROTS : Fld := ⟨31, 16⟩
def R.SEC_ROT_CMD : Nat := Pg.secKey + 0x140
def F.SEC_ROT_CMD_TENANT : Fld := ⟨3, 0⟩
def F.SEC_ROT_CMD_GO : Fld := ⟨4, 4⟩
def R.SEC_ROT_STATUS : Nat := Pg.secKey + 0x144
def F.SEC_ROT_STATUS_RESULT : Fld := ⟨2, 0⟩
def F.SEC_ROT_STATUS_WALKING : Fld := ⟨3, 3⟩
def F.SEC_ROT_STATUS_TENANT : Fld := ⟨7, 4⟩
def R.SEC_ROT_PROG : Nat := Pg.secKey + 0x148
def F.SEC_ROT_PROG_PAGE : Fld := ⟨16, 0⟩
def F.SEC_ROT_PROG_GRANULE : Fld := ⟨25, 17⟩
def R.SEC_ROT_PACE : Nat := Pg.secKey + 0x14c
def F.SEC_ROT_PACE_PACE : Fld := ⟨15, 0⟩
def E.secKey_ROT_BUSY : Nat := 16
def E.secKey_ROT_DONE : Nat := 17
-- secAtt: 17_security.md R462
def R.SEC_ATT_NONCE (k : Nat) : Nat := Pg.secAtt + 0x100 + 0x4 * k
def F.SEC_ATT_NONCE_NONCE : Fld := ⟨31, 0⟩
def R.SEC_ATT_CMD : Nat := Pg.secAtt + 0x120
def F.SEC_ATT_CMD_GO : Fld := ⟨0, 0⟩
def R.SEC_ATT_STATUS : Nat := Pg.secAtt + 0x124
def F.SEC_ATT_STATUS_STATE : Fld := ⟨1, 0⟩
def F.SEC_ATT_STATUS_REQ_IID : Fld := ⟨6, 2⟩
def R.SEC_ATT_ADDR : Nat := Pg.secAtt + 0x128
def F.SEC_ATT_ADDR_WORD : Fld := ⟨9, 0⟩
def R.SEC_ATT_DATA : Nat := Pg.secAtt + 0x12c
def F.SEC_ATT_DATA_DATA : Fld := ⟨31, 0⟩
-- secConf: 17_security.md R463
def R.SEC_CONF : Nat := Pg.secConf + 0x100
def F.SEC_CONF_MASK : Fld := ⟨15, 0⟩
def F.SEC_CONF_CLEAR_PEND : Fld := ⟨31, 16⟩
def R.SEC_CONF_CMD : Nat := Pg.secConf + 0x104
def F.SEC_CONF_CMD_TENANT : Fld := ⟨3, 0⟩
def F.SEC_CONF_CMD_CMD : Fld := ⟨5, 4⟩
def R.SEC_SCRUB : Nat := Pg.secConf + 0x108
def F.SEC_SCRUB_ACTIVE : Fld := ⟨15, 0⟩
def E.secConf_DBG_DENY : Nat := 16
-- secRec: 17_security.md R463
def R.SEC_REC_DA_LO : Nat := Pg.secRec + 0x100
def F.SEC_REC_DA_LO_DA : Fld := ⟨31, 9⟩
def R.SEC_REC_DA_HI : Nat := Pg.secRec + 0x104
def F.SEC_REC_DA_HI_DA : Fld := ⟨15, 0⟩
def R.SEC_REC_LEN : Nat := Pg.secRec + 0x108
def F.SEC_REC_LEN_BYTES : Fld := ⟨23, 0⟩
def R.SEC_REC_CMD : Nat := Pg.secRec + 0x10c
def F.SEC_REC_CMD_CMD : Fld := ⟨1, 0⟩
def R.SEC_REC_STATUS : Nat := Pg.secRec + 0x110
def F.SEC_REC_STATUS_STATE : Fld := ⟨1, 0⟩
def F.SEC_REC_STATUS_RESULT : Fld := ⟨5, 2⟩
def E.secRec_REC_FAIL : Nat := 16
-- rel0: 16_reliability.md R428
def R.REL_SVC : Nat := Pg.rel0 + 0x100
def F.REL_SVC_CORE : Fld := ⟨0, 0⟩
def F.REL_SVC_CCORE : Fld := ⟨1, 1⟩
def F.REL_SVC_TIER0 : Fld := ⟨2, 2⟩
def F.REL_SVC_TIER1 : Fld := ⟨3, 3⟩
def F.REL_SVC_PLOEM : Fld := ⟨4, 4⟩
def F.REL_SVC_D2D : Fld := ⟨5, 5⟩
def F.REL_SVC_OTHER : Fld := ⟨6, 6⟩
def F.REL_SVC_ASSERTED : Fld := ⟨31, 31⟩
def R.REL_THR : Nat := Pg.rel0 + 0x104
def F.REL_THR_CC_CORR_THR : Fld := ⟨7, 0⟩
def F.REL_THR_PPR_THR : Fld := ⟨11, 8⟩
def F.REL_THR_PATROL_H : Fld := ⟨23, 16⟩
def F.REL_THR_ROTATE_H : Fld := ⟨31, 24⟩
def R.REL_INV : Nat := Pg.rel0 + 0x108
def F.REL_INV_CORES : Fld := ⟨4, 0⟩
def F.REL_INV_CORE_SPARES : Fld := ⟨6, 5⟩
def F.REL_INV_CCORES : Fld := ⟨9, 7⟩
def F.REL_INV_CC_SPARE : Fld := ⟨10, 10⟩
def F.REL_INV_T0_RETIRED : Fld := ⟨22, 16⟩
def F.REL_INV_T1_RETIRED : Fld := ⟨29, 23⟩
def E.rel0_SVC : Nat := 16
def E.rel0_RETIRE : Nat := 17
def E.rel0_SPARE_USED : Nat := 18
def E.rel0_POLICY : Nat := 19
def E.rel0_SUSPECT : Nat := 20
-- rel1: 16_reliability.md R429
def R.REL_CORE (k : Nat) : Nat := Pg.rel1 + 0x100 + 0x4 * k
def F.REL_CORE_STATE : Fld := ⟨1, 0⟩
def F.REL_CORE_ROW_USED : Fld := ⟨2, 2⟩
def F.REL_CORE_COL_USED : Fld := ⟨3, 3⟩
def F.REL_CORE_BANKS_FREE : Fld := ⟨6, 4⟩
def F.REL_CORE_REASON : Fld := ⟨10, 8⟩
def R.REL_CCORE (k : Nat) : Nat := Pg.rel1 + 0x180 + 0x4 * k
def F.REL_CCORE_STATE : Fld := ⟨1, 0⟩
def F.REL_CCORE_CRASHES : Fld := ⟨5, 2⟩
def F.REL_CCORE_CORR : Fld := ⟨15, 8⟩
def R.REL_MEM (k : Nat) : Nat := Pg.rel1 + 0x1a0 + 0x4 * k
def F.REL_MEM_LANES_LEFT : Fld := ⟨7, 0⟩
def F.REL_MEM_PPR_LEFT : Fld := ⟨15, 8⟩
def F.REL_MEM_FAILED : Fld := ⟨16, 16⟩
def R.REL_MEM_FAIL (k : Nat) : Nat := Pg.rel1 + 0x1b0 + 0x4 * k
def F.REL_MEM_FAIL_MASK : Fld := ⟨31, 0⟩
def R.REL_D2D : Nat := Pg.rel1 + 0x1c0
def F.REL_D2D_REPAIRED : Fld := ⟨7, 0⟩
def F.REL_D2D_LEFT : Fld := ⟨15, 8⟩
def E.rel1_PATROL_ERR : Nat := 16
def E.rel1_REPAIR : Nat := 17
-- rel2: 16_reliability.md R430
def R.REL_LOG_SEQ : Nat := Pg.rel2 + 0x100
def F.REL_LOG_SEQ_NEXT : Fld := ⟨31, 0⟩
def R.REL_LOG_SEL : Nat := Pg.rel2 + 0x104
def F.REL_LOG_SEL_SLOT : Fld := ⟨11, 0⟩
def R.REL_LOG_DATA (k : Nat) : Nat := Pg.rel2 + 0x140 + 0x4 * k
def F.REL_LOG_DATA_WORD : Fld := ⟨31, 0⟩
def R.REL_LOG_STATUS : Nat := Pg.rel2 + 0x180
def F.REL_LOG_STATUS_PENDING : Fld := ⟨6, 0⟩
def F.REL_LOG_STATUS_FLUSHING : Fld := ⟨7, 7⟩
def F.REL_LOG_STATUS_PF : Fld := ⟨8, 8⟩
def F.REL_LOG_STATUS_DROPPED : Fld := ⟨31, 16⟩
def E.rel2_LOG_DROP : Nat := 16
def E.rel2_LOG_CRC : Nat := 17
def E.rel2_PWR_FAIL : Nat := 18
-- rel3: 16_reliability.md R431
def R.REL_FAULT_LO (k : Nat) : Nat := Pg.rel3 + 0x108 + 0x8 * k
def F.REL_FAULT_LO_COUNT : Fld := ⟨31, 0⟩
def R.REL_FAULT_HI (k : Nat) : Nat := Pg.rel3 + 0x10c + 0x8 * k
def F.REL_FAULT_HI_COUNT : Fld := ⟨31, 0⟩
-- ctl0: 14_control_scheduling.md R371
def R.CTL_STATUS : Nat := Pg.ctl0 + 0x100
def F.CTL_STATUS_ACTIVE : Fld := ⟨3, 0⟩
def F.CTL_STATUS_SCHED : Fld := ⟨5, 4⟩
def F.CTL_STATUS_DEVICE : Fld := ⟨7, 6⟩
def F.CTL_STATUS_BOOT_SLOT : Fld := ⟨8, 8⟩
def F.CTL_STATUS_FW_VER : Fld := ⟨31, 16⟩
def R.CTL_XCOPY : Nat := Pg.ctl0 + 0x104
def F.CTL_XCOPY_SRC_CORE : Fld := ⟨4, 0⟩
def F.CTL_XCOPY_DST_CORE : Fld := ⟨9, 5⟩
def F.CTL_XCOPY_FIRST : Fld := ⟨23, 10⟩
def F.CTL_XCOPY_COUNT : Fld := ⟨31, 24⟩
def E.ctl0_SECDED_CORR : Nat := 16
def E.ctl0_CRASH : Nat := 17
def E.ctl0_XCOPY_BAD : Nat := 18
-- ctlMb: 14_control_scheduling.md R371
def R.CTL_MB_CMD : Nat := Pg.ctlMb + 0x100
def F.CTL_MB_CMD_CMD : Fld := ⟨1, 0⟩
def F.CTL_MB_CMD_TENANT : Fld := ⟨5, 2⟩
def F.CTL_MB_CMD_SLOT : Fld := ⟨8, 6⟩
def R.CTL_MB_ARG0 : Nat := Pg.ctlMb + 0x104
def F.CTL_MB_ARG0_CORES : Fld := ⟨4, 0⟩
def F.CTL_MB_ARG0_ROWS : Fld := ⟨11, 5⟩
def F.CTL_MB_ARG0_REGIONS : Fld := ⟨18, 12⟩
def F.CTL_MB_ARG0_IMEM : Fld := ⟨25, 19⟩
def R.CTL_MB_ARG1 : Nat := Pg.ctlMb + 0x108
def F.CTL_MB_ARG1_STREAMS : Fld := ⟨12, 0⟩
def F.CTL_MB_ARG1_SHARE : Fld := ⟨25, 16⟩
def R.CTL_MB_DA_LO : Nat := Pg.ctlMb + 0x10c
def F.CTL_MB_DA_LO_STATUS_DA : Fld := ⟨31, 9⟩
def R.CTL_MB_DA_HI : Nat := Pg.ctlMb + 0x110
def F.CTL_MB_DA_HI_STATUS_DA : Fld := ⟨15, 0⟩
def R.CTL_MB_STATUS : Nat := Pg.ctlMb + 0x114
def F.CTL_MB_STATUS_BUSY : Fld := ⟨0, 0⟩
def F.CTL_MB_STATUS_RESULT : Fld := ⟨3, 1⟩
def R.CTL_CX_INFO (k : Nat) : Nat := Pg.ctlMb + 0x200 + 0x4 * k
def F.CTL_CX_INFO_EXISTS : Fld := ⟨0, 0⟩
def F.CTL_CX_INFO_FAULTED : Fld := ⟨1, 1⟩
def F.CTL_CX_INFO_OWNER : Fld := ⟨3, 2⟩
def F.CTL_CX_INFO_CORES : Fld := ⟨8, 4⟩
def E.ctlMb_MB_REFUSED : Nat := 16
-- ctlShare: 14_control_scheduling.md R372
def R.CTL_TSLICE : Nat := Pg.ctlShare + 0x100
def F.CTL_TSLICE_SLICE : Fld := ⟨13, 0⟩
def R.CTL_TEN_SHARE (k : Nat) : Nat := Pg.ctlShare + 0x200 + 0x4 * k
def F.CTL_TEN_SHARE_SHARE : Fld := ⟨9, 0⟩
def R.CTL_CX_SHARE (k : Nat) : Nat := Pg.ctlShare + 0x300 + 0x4 * k
def F.CTL_CX_SHARE_SHARE : Fld := ⟨9, 0⟩
-- ctlAcc: 14_control_scheduling.md R372
def R.CTL_ACC_LO (n k : Nat) : Nat := Pg.ctlAcc n + 0x100 + 0x8 * k
def F.CTL_ACC_LO_COUNT : Fld := ⟨31, 0⟩
def R.CTL_ACC_HI (n k : Nat) : Nat := Pg.ctlAcc n + 0x104 + 0x8 * k
def F.CTL_ACC_HI_COUNT : Fld := ⟨31, 0⟩
def R.CTL_ACC_T_LO (n k : Nat) : Nat := Pg.ctlAcc n + 0x500 + 0x8 * k
def F.CTL_ACC_T_LO_COUNT : Fld := ⟨31, 0⟩
def R.CTL_ACC_T_HI (n k : Nat) : Nat := Pg.ctlAcc n + 0x504 + 0x8 * k
def F.CTL_ACC_T_HI_COUNT : Fld := ⟨31, 0⟩
-- ctlUpd: 14_control_scheduling.md R373
def R.CTL_UPD_DA_LO : Nat := Pg.ctlUpd + 0x100
def F.CTL_UPD_DA_LO_DA : Fld := ⟨31, 9⟩
def R.CTL_UPD_DA_HI : Nat := Pg.ctlUpd + 0x104
def F.CTL_UPD_DA_HI_DA : Fld := ⟨15, 0⟩
def R.CTL_UPD_LEN : Nat := Pg.ctlUpd + 0x108
def F.CTL_UPD_LEN_BYTES : Fld := ⟨23, 0⟩
def R.CTL_UPD_CMD : Nat := Pg.ctlUpd + 0x10c
def F.CTL_UPD_CMD_CMD : Fld := ⟨1, 0⟩
def R.CTL_UPD_WAIT : Nat := Pg.ctlUpd + 0x110
def F.CTL_UPD_WAIT_MS : Fld := ⟨15, 0⟩
def R.CTL_UPD_STATUS : Nat := Pg.ctlUpd + 0x114
def F.CTL_UPD_STATUS_STATE : Fld := ⟨2, 0⟩
def F.CTL_UPD_STATUS_RESULT : Fld := ⟨6, 3⟩
def F.CTL_UPD_STATUS_HANDED : Fld := ⟨9, 7⟩
def E.ctlUpd_UPD_DONE : Nat := 16
def E.ctlUpd_UPD_FAIL : Nat := 17
-- ctlDump: 14_control_scheduling.md R373
def R.CTL_DUMP_LO : Nat := Pg.ctlDump + 0x100
def F.CTL_DUMP_LO_DA : Fld := ⟨31, 9⟩
def R.CTL_DUMP_HI : Nat := Pg.ctlDump + 0x104
def F.CTL_DUMP_HI_DA : Fld := ⟨15, 0⟩
def R.CTL_DUMP_STATUS : Nat := Pg.ctlDump + 0x108
def F.CTL_DUMP_STATUS_VALID : Fld := ⟨0, 0⟩
def F.CTL_DUMP_STATUS_REASON : Fld := ⟨2, 1⟩
def F.CTL_DUMP_STATUS_COUNT : Fld := ⟨31, 16⟩
def R.CTL_DUMP_AON_ADDR : Nat := Pg.ctlDump + 0x10c
def F.CTL_DUMP_AON_ADDR_WORD : Fld := ⟨9, 0⟩
def R.CTL_DUMP_AON_DATA : Nat := Pg.ctlDump + 0x110
def F.CTL_DUMP_AON_DATA_DATA : Fld := ⟨31, 0⟩
def E.ctlDump_DUMP_TAKEN : Nat := 16
-- ctlStr: 08_sequence_streams.md R208
def R.STR_SEL : Nat := Pg.ctlStr + 0x100
def F.STR_SEL_INDEX : Fld := ⟨11, 0⟩
def R.STR_STAGE (k : Nat) : Nat := Pg.ctlStr + 0x110 + 0x4 * k
def F.STR_STAGE_WORD : Fld := ⟨31, 0⟩
def R.STR_CMD : Nat := Pg.ctlStr + 0x120
def F.STR_CMD_CMD : Fld := ⟨2, 0⟩
def R.STR_STATUS : Nat := Pg.ctlStr + 0x124
def F.STR_STATUS_BUSY : Fld := ⟨0, 0⟩
def F.STR_STATUS_RESULT : Fld := ⟨3, 1⟩
def R.STR_PART (k : Nat) : Nat := Pg.ctlStr + 0x400 + 0x4 * k
def F.STR_PART_BASE : Fld := ⟨11, 0⟩
def F.STR_PART_COUNT : Fld := ⟨24, 12⟩
def F.STR_PART_SWAP_CHAN : Fld := ⟨26, 25⟩
def E.ctlStr_STR_REFUSED : Nat := 16
def E.ctlStr_STR_PART : Nat := 17
-- arr0: 03_gale_array.md R93
def R.ARR_GANG (n : Nat) : Nat := Pg.arr0 n + 0x100
def F.ARR_GANG_GANG_ID : Fld := ⟨3, 0⟩
def F.ARR_GANG_SIZE_LOG2 : Fld := ⟨6, 4⟩
def F.ARR_GANG_POS_ROW : Fld := ⟨9, 8⟩
def F.ARR_GANG_POS_COL : Fld := ⟨11, 10⟩
def R.ARR_OUT_CFG (n : Nat) : Nat := Pg.arr0 n + 0x104
def F.ARR_OUT_CFG_SHIFT_ADJ : Fld := ⟨5, 0⟩
def R.ARR_WDOG (n : Nat) : Nat := Pg.arr0 n + 0x108
def F.ARR_WDOG_LIMIT : Fld := ⟨23, 0⟩
def R.ARR_BARRIER_LIMIT (n : Nat) : Nat := Pg.arr0 n + 0x10c
def F.ARR_BARRIER_LIMIT_LIMIT : Fld := ⟨23, 0⟩
def R.ARR_STATUS (n : Nat) : Nat := Pg.arr0 n + 0x110
def F.ARR_STATUS_STATE : Fld := ⟨2, 0⟩
def F.ARR_STATUS_RUN : Fld := ⟨5, 3⟩
def F.ARR_STATUS_OP_TAG : Fld := ⟨31, 16⟩
def R.ARR_CHK_LOG (n : Nat) : Nat := Pg.arr0 n + 0x114
def F.ARR_CHK_LOG_ROW : Fld := ⟨4, 0⟩
def F.ARR_CHK_LOG_COL : Fld := ⟨9, 5⟩
def F.ARR_CHK_LOG_KIND : Fld := ⟨11, 10⟩
def F.ARR_CHK_LOG_SCATTERED : Fld := ⟨12, 12⟩
def F.ARR_CHK_LOG_RUN : Fld := ⟨15, 13⟩
def F.ARR_CHK_LOG_OP_TAG : Fld := ⟨31, 16⟩
def R.ARR_FAULT_INJ (n : Nat) : Nat := Pg.arr0 n + 0x118
def F.ARR_FAULT_INJ_ROW : Fld := ⟨4, 0⟩
def F.ARR_FAULT_INJ_COL : Fld := ⟨9, 5⟩
def F.ARR_FAULT_INJ_MODE : Fld := ⟨11, 10⟩
def E.arr0_CHK_MISMATCH : Nat := 16
def E.arr0_CHK_PERSIST : Nat := 17
def E.arr0_SWAP_DONE : Nat := 18
def E.arr0_SPARE_EXHAUSTED : Nat := 19
def E.arr0_WDOG : Nat := 20
def E.arr0_BARRIER_TIMEOUT : Nat := 21
def E.arr0_WEAR_THR : Nat := 22
-- vec: 08_sequence_streams.md R210
def R.VEC_SCAN_STATUS (n : Nat) : Nat := Pg.vec n + 0x100
def F.VEC_SCAN_STATUS_QUEUED : Fld := ⟨4, 0⟩
def F.VEC_SCAN_STATUS_WAITING : Fld := ⟨9, 5⟩
def F.VEC_SCAN_STATUS_RUNNING : Fld := ⟨10, 10⟩
def F.VEC_SCAN_STATUS_STREAM : Fld := ⟨23, 12⟩
def R.VEC_SCAN_WAIT_LIMIT (n : Nat) : Nat := Pg.vec n + 0x104
def F.VEC_SCAN_WAIT_LIMIT_LIMIT : Fld := ⟨31, 0⟩
def E.vec_SCAN_WAIT : Nat := 16
-- seq: 03_gale_array.md R96
def R.SEQ_CTRL (n : Nat) : Nat := Pg.seq n + 0x100
def F.SEQ_CTRL_START : Fld := ⟨0, 0⟩
def F.SEQ_CTRL_DRAIN_REQ : Fld := ⟨1, 1⟩
def R.SEQ_ENTRY (n : Nat) : Nat := Pg.seq n + 0x104
def F.SEQ_ENTRY_SLOT : Fld := ⟨13, 0⟩
def R.SEQ_STATUS (n : Nat) : Nat := Pg.seq n + 0x108
def F.SEQ_STATUS_PC : Fld := ⟨13, 0⟩
def F.SEQ_STATUS_STATE : Fld := ⟨18, 16⟩
def F.SEQ_STATUS_IDLE : Fld := ⟨24, 24⟩
def R.SEQ_SEM (n k : Nat) : Nat := Pg.seq n + 0x200 + 0x4 * k
def F.SEQ_SEM_COUNT : Fld := ⟨15, 0⟩
def F.SEQ_SEM_OVF : Fld := ⟨16, 16⟩
def R.SEQ_MODEL (n k : Nat) : Nat := Pg.seq n + 0x300 + 0x4 * k
def F.SEQ_MODEL_ENTRY : Fld := ⟨13, 0⟩
def F.SEQ_MODEL_IMAGE : Fld := ⟨29, 16⟩
def F.SEQ_MODEL_VALID : Fld := ⟨31, 31⟩
-- spd3: 05_scratchpads.md R147
def R.SPD_PAR_THR (n : Nat) : Nat := Pg.spd3 n + 0x100
def F.SPD_PAR_THR_THR : Fld := ⟨15, 0⟩
def R.SPD_BANK_SWAP (n : Nat) : Nat := Pg.spd3 n + 0x104
def F.SPD_BANK_SWAP_LOGICAL : Fld := ⟨6, 0⟩
def F.SPD_BANK_SWAP_GO : Fld := ⟨31, 31⟩
def R.SPD_RET_MASK (n : Nat) : Nat := Pg.spd3 n + 0x110
def F.SPD_RET_MASK_GROUPS : Fld := ⟨23, 0⟩
def R.SPD_BANK_MAP (n k : Nat) : Nat := Pg.spd3 n + 0x200 + 0x4 * k
def F.SPD_BANK_MAP_PHYS : Fld := ⟨6, 0⟩
def R.SPD_PAR_CNT (n k : Nat) : Nat := Pg.spd3 n + 0x400 + 0x4 * k
def F.SPD_PAR_CNT_COUNT : Fld := ⟨15, 0⟩
def R.SPD_RANGE_LO (n k : Nat) : Nat := Pg.spd3 n + 0x600 + 0x8 * k
def F.SPD_RANGE_LO_BASE : Fld := ⟨15, 0⟩
def F.SPD_RANGE_LO_LIMIT : Fld := ⟨31, 16⟩
def R.SPD_RANGE_HI (n k : Nat) : Nat := Pg.spd3 n + 0x604 + 0x8 * k
def F.SPD_RANGE_HI_CTX : Fld := ⟨6, 0⟩
def F.SPD_RANGE_HI_VALID : Fld := ⟨7, 7⟩
def E.spd3_PAR_ERR : Nat := 16
def E.spd3_PAR_PERSIST : Nat := 17
def E.spd3_BANK_SWAP_DONE : Nat := 18
def E.spd3_BANK_SPARE_EXHAUSTED : Nat := 19
def E.spd3_PAR_THR : Nat := 20
def E.spd3_RET_OVER : Nat := 21
def E.spd3_SWAP_REFUSED : Nat := 22
-- spd4: 05_scratchpads.md R149
def R.SPD_DMA_CTRL (n k : Nat) : Nat := Pg.spd4 n + 0x100 + 0x80 * k
def F.SPD_DMA_CTRL_HOLD : Fld := ⟨0, 0⟩
def R.SPD_DMA_STATUS (n k : Nat) : Nat := Pg.spd4 n + 0x104 + 0x80 * k
def F.SPD_DMA_STATUS_STATE : Fld := ⟨1, 0⟩
def F.SPD_DMA_STATUS_QUEUED : Fld := ⟨5, 2⟩
def F.SPD_DMA_STATUS_WAIT_CAUSE : Fld := ⟨10, 8⟩
def F.SPD_DMA_STATUS_OP_TAG : Fld := ⟨31, 16⟩
def R.SPD_DMA_ROWS (n k : Nat) : Nat := Pg.spd4 n + 0x108 + 0x80 * k
def F.SPD_DMA_ROWS_DONE : Fld := ⟨15, 0⟩
def R.SPD_DMA_SUBMIT_CTX (n k : Nat) : Nat := Pg.spd4 n + 0x10c + 0x80 * k
def F.SPD_DMA_SUBMIT_CTX_CTX : Fld := ⟨6, 0⟩
def R.SPD_DMA_SUBMIT (n k j : Nat) : Nat := Pg.spd4 n + 0x140 + 0x80 * k + 0x4 * j
def F.SPD_DMA_SUBMIT_WORD : Fld := ⟨31, 0⟩
def R.SPD_DMA_WAIT_LIMIT (n : Nat) : Nat := Pg.spd4 n + 0x300
def F.SPD_DMA_WAIT_LIMIT_LIMIT : Fld := ⟨31, 0⟩
def E.spd4_DMA_FAULT : Nat := 16
def E.spd4_QUEUE_FULL : Nat := 17
def E.spd4_POISON_IN : Nat := 18
-- spd5: 05_scratchpads.md R151
def R.SPD_REGION_GEOM (n k : Nat) : Nat := Pg.spd5 n + 0x100 + 0x10 * k
def F.SPD_REGION_GEOM_BASE : Fld := ⟨15, 0⟩
def F.SPD_REGION_GEOM_SIZE : Fld := ⟨31, 16⟩
def R.SPD_REGION_OWNER (n k : Nat) : Nat := Pg.spd5 n + 0x104 + 0x10 * k
def F.SPD_REGION_OWNER_CTX : Fld := ⟨6, 0⟩
def F.SPD_REGION_OWNER_EN : Fld := ⟨7, 7⟩
def F.SPD_REGION_OWNER_MODE : Fld := ⟨9, 8⟩
def F.SPD_REGION_OWNER_PROD_KIND : Fld := ⟨13, 10⟩
def F.SPD_REGION_OWNER_PROD_ID : Fld := ⟨21, 14⟩
def R.SPD_REGION_HEAD (n k : Nat) : Nat := Pg.spd5 n + 0x108 + 0x10 * k
def F.SPD_REGION_HEAD_HEAD : Fld := ⟨15, 0⟩
def F.SPD_REGION_HEAD_HEAD_WRAP : Fld := ⟨16, 16⟩
def R.SPD_REGION_TAIL (n k : Nat) : Nat := Pg.spd5 n + 0x10c + 0x10 * k
def F.SPD_REGION_TAIL_TAIL : Fld := ⟨15, 0⟩
def F.SPD_REGION_TAIL_TAIL_WRAP : Fld := ⟨16, 16⟩
def R.SPD_REGION_FILL (n k : Nat) : Nat := Pg.spd5 n + 0x500 + 0x4 * k
def F.SPD_REGION_FILL_COMMITTED : Fld := ⟨15, 0⟩
def F.SPD_REGION_FILL_EMPTY : Fld := ⟨16, 16⟩
def F.SPD_REGION_FILL_FULL : Fld := ⟨17, 17⟩
def R.SPD_RELEASE (n : Nat) : Nat := Pg.spd5 n + 0x600
def F.SPD_RELEASE_REGION : Fld := ⟨5, 0⟩
def F.SPD_RELEASE_ROWS : Fld := ⟨31, 16⟩
def E.spd5_OVERRUN : Nat := 16
def E.spd5_RGN_LIVE : Nat := 17
def E.spd5_RANGE_FAIL : Nat := 18
-- arr6: 04_number_formats.md R118
def R.ARR_STAT_MAX (n k : Nat) : Nat := Pg.arr6 n + 0x100 + 0x8 * k
def F.ARR_STAT_MAX_MAXABS : Fld := ⟨31, 0⟩
def R.ARR_STAT_INFO (n k : Nat) : Nat := Pg.arr6 n + 0x104 + 0x8 * k
def F.ARR_STAT_INFO_COUNT : Fld := ⟨23, 0⟩
def F.ARR_STAT_INFO_NAN_SEEN : Fld := ⟨24, 24⟩
def R.ARR_STAT_CLR_LO (n : Nat) : Nat := Pg.arr6 n + 0x300
def F.ARR_STAT_CLR_LO_CLR : Fld := ⟨31, 0⟩
def R.ARR_STAT_CLR_HI (n : Nat) : Nat := Pg.arr6 n + 0x304
def F.ARR_STAT_CLR_HI_CLR : Fld := ⟨31, 0⟩
def R.ARR_SR_SEED (n : Nat) : Nat := Pg.arr6 n + 0x308
def F.ARR_SR_SEED_SEED : Fld := ⟨31, 0⟩
def E.arr6_STAT_NAN : Nat := 16
-- arr7: 03_gale_array.md R95
def R.ARR_SPARE_MAP (n : Nat) : Nat := Pg.arr7 n + 0x100
def F.ARR_SPARE_MAP_ROW_REPLACED : Fld := ⟨4, 0⟩
def F.ARR_SPARE_MAP_COL_REPLACED : Fld := ⟨9, 5⟩
def R.ARR_WEAR_THR (n : Nat) : Nat := Pg.arr7 n + 0x104
def F.ARR_WEAR_THR_THR : Fld := ⟨15, 0⟩
def R.ARR_WEAR_ROW (n k : Nat) : Nat := Pg.arr7 n + 0x200 + 0x4 * k
def F.ARR_WEAR_ROW_COUNT : Fld := ⟨15, 0⟩
def R.ARR_WEAR_COL (n k : Nat) : Nat := Pg.arr7 n + 0x280 + 0x4 * k
def F.ARR_WEAR_COL_COUNT : Fld := ⟨15, 0⟩
-- mt0: 09_memory_tiers.md R234
def R.MT_CAP : Nat := Pg.mt0 + 0x100
def F.MT_CAP_T0_PAGES : Fld := ⟨14, 0⟩
def F.MT_CAP_T1_PAGES : Fld := ⟨31, 15⟩
def R.MT_AGE_CFG : Nat := Pg.mt0 + 0x104
def F.MT_AGE_CFG_INC : Fld := ⟨7, 0⟩
def F.MT_AGE_CFG_PROMOTE_THR : Fld := ⟨15, 8⟩
def F.MT_AGE_CFG_HYST : Fld := ⟨23, 16⟩
def F.MT_AGE_CFG_TICK : Fld := ⟨31, 24⟩
def R.MT_MIG_CTRL : Nat := Pg.mt0 + 0x108
def F.MT_MIG_CTRL_EN : Fld := ⟨0, 0⟩
def F.MT_MIG_CTRL_RATE : Fld := ⟨15, 8⟩
def F.MT_MIG_CTRL_FREE_MIN : Fld := ⟨27, 16⟩
def R.MT_FREE : Nat := Pg.mt0 + 0x10c
def F.MT_FREE_FREE : Fld := ⟨14, 0⟩
def F.MT_FREE_QUEUED : Fld := ⟨22, 16⟩
def R.MT_PIN_QUOTA (k : Nat) : Nat := Pg.mt0 + 0x200 + 0x4 * k
def F.MT_PIN_QUOTA_PAGES : Fld := ⟨16, 0⟩
def R.MT_PIN_USED (k : Nat) : Nat := Pg.mt0 + 0x240 + 0x4 * k
def F.MT_PIN_USED_PAGES : Fld := ⟨16, 0⟩
def E.mt0_QUOTA_SUM : Nat := 16
def E.mt0_PIN_REFUSED : Nat := 17
def E.mt0_PROMOTE_BLOCKED : Nat := 18
def E.mt0_QUOTA_LOW : Nat := 19
-- mt1: 09_memory_tiers.md R235
def R.MT_TSTALL_LO (k : Nat) : Nat := Pg.mt1 + 0x100 + 0x8 * k
def F.MT_TSTALL_LO_COUNT : Fld := ⟨31, 0⟩
def R.MT_TSTALL_HI (k : Nat) : Nat := Pg.mt1 + 0x104 + 0x8 * k
def F.MT_TSTALL_HI_COUNT : Fld := ⟨31, 0⟩
def E.mt1_POISON_MADE : Nat := 16
def E.mt1_TIER_FAIL : Nat := 17
def E.mt1_INTEG_FAIL : Nat := 18
-- mt2: 09_memory_tiers.md R236
def R.MT_PG_SEL : Nat := Pg.mt2 + 0x100
def F.MT_PG_SEL_PAGE : Fld := ⟨16, 0⟩
def R.MT_PG_CMD : Nat := Pg.mt2 + 0x104
def F.MT_PG_CMD_CMD : Fld := ⟨2, 0⟩
def F.MT_PG_CMD_OWNER : Fld := ⟨7, 4⟩
def F.MT_PG_CMD_PLACE : Fld := ⟨9, 8⟩
def R.MT_PG_STATUS : Nat := Pg.mt2 + 0x108
def F.MT_PG_STATUS_BUSY : Fld := ⟨0, 0⟩
def F.MT_PG_STATUS_RESULT : Fld := ⟨3, 1⟩
def R.MT_PG_INFO0 : Nat := Pg.mt2 + 0x10c
def F.MT_PG_INFO0_OWNER : Fld := ⟨4, 0⟩
def F.MT_PG_INFO0_TIER : Fld := ⟨5, 5⟩
def F.MT_PG_INFO0_PLACE : Fld := ⟨7, 6⟩
def F.MT_PG_INFO0_AGE : Fld := ⟨15, 8⟩
def F.MT_PG_INFO0_MOVING : Fld := ⟨16, 16⟩
def F.MT_PG_INFO0_QUEUED : Fld := ⟨17, 17⟩
def R.MT_PG_INFO1 : Nat := Pg.mt2 + 0x110
def F.MT_PG_INFO1_FRAME : Fld := ⟨16, 0⟩
-- mtCtrl: 09_memory_tiers.md R234
-- mtRng: 09_memory_tiers.md R233
def R.MT_RNG_BASE_LO (n k j : Nat) : Nat := Pg.mtRng n + 0x100 + 0x100 * k + 0x10 * j
def F.MT_RNG_BASE_LO_VALID : Fld := ⟨0, 0⟩
def F.MT_RNG_BASE_LO_R : Fld := ⟨1, 1⟩
def F.MT_RNG_BASE_LO_W : Fld := ⟨2, 2⟩
def F.MT_RNG_BASE_LO_BASE_LO : Fld := ⟨31, 12⟩
def R.MT_RNG_BASE_HI (n k j : Nat) : Nat := Pg.mtRng n + 0x104 + 0x100 * k + 0x10 * j
def F.MT_RNG_BASE_HI_BASE_HI : Fld := ⟨15, 0⟩
def R.MT_RNG_LIMIT_LO (n k j : Nat) : Nat := Pg.mtRng n + 0x108 + 0x100 * k + 0x10 * j
def F.MT_RNG_LIMIT_LO_LIMIT_LO : Fld := ⟨31, 12⟩
def R.MT_RNG_LIMIT_HI (n k j : Nat) : Nat := Pg.mtRng n + 0x10c + 0x100 * k + 0x10 * j
def F.MT_RNG_LIMIT_HI_LIMIT_HI : Fld := ⟨15, 0⟩
def E.mtRng_RANGE_BAD : Nat := 16
-- fab0: 01_architecture.md R31
def R.FAB_WALK : Nat := Pg.fab0 + 0x100
def F.FAB_WALK_LINK : Fld := ⟨4, 0⟩
def F.FAB_WALK_GO : Fld := ⟨5, 5⟩
def R.FAB_WALK_STATUS : Nat := Pg.fab0 + 0x104
def F.FAB_WALK_STATUS_STATE : Fld := ⟨1, 0⟩
def F.FAB_WALK_STATUS_LINK : Fld := ⟨6, 2⟩
def R.FAB_CRC_INJ : Nat := Pg.fab0 + 0x108
def F.FAB_CRC_INJ_LINK : Fld := ⟨4, 0⟩
def F.FAB_CRC_INJ_DIR : Fld := ⟨5, 5⟩
def F.FAB_CRC_INJ_FIRE : Fld := ⟨6, 6⟩
def E.fab0_CRC_RESEND : Nat := 16
def E.fab0_BEAT_POISON : Nat := 17
def E.fab0_NOT_ON : Nat := 18
def E.fab0_WALK_FAIL : Nat := 19
def E.fab0_WALK_REFUSED : Nat := 20
def E.fab0_D2D_RETRAIN : Nat := 21
-- fab1: 01_architecture.md R32
def R.FAB_LINK_STAT (k : Nat) : Nat := Pg.fab1 + 0x100 + 0x4 * k
def F.FAB_LINK_STAT_RESENDS : Fld := ⟨15, 0⟩
def F.FAB_LINK_STAT_WALK_FAIL : Fld := ⟨16, 16⟩
def F.FAB_LINK_STAT_NOT_ON : Fld := ⟨17, 17⟩
-- fab2: 01_architecture.md R32
def R.FAB_D2D_STATUS : Nat := Pg.fab2 + 0x100
def F.FAB_D2D_STATUS_UP : Fld := ⟨0, 0⟩
def F.FAB_D2D_STATUS_RETRAINING : Fld := ⟨1, 1⟩
def F.FAB_D2D_STATUS_REPAIRED : Fld := ⟨9, 2⟩
def F.FAB_D2D_STATUS_LEFT : Fld := ⟨17, 10⟩
def R.FAB_D2D_CTRL : Nat := Pg.fab2 + 0x104
def F.FAB_D2D_CTRL_RETRAIN : Fld := ⟨0, 0⟩
-- hif0: 13_host_interface.md R345
def R.HIF_LINK_CFG : Nat := Pg.hif0 + 0x100
def F.HIF_LINK_CFG_SPLIT : Fld := ⟨0, 0⟩
def R.HIF_LINK_STATUS (k : Nat) : Nat := Pg.hif0 + 0x110 + 0x4 * k
def F.HIF_LINK_STATUS_UP : Fld := ⟨0, 0⟩
def F.HIF_LINK_STATUS_SPEED : Fld := ⟨3, 1⟩
def F.HIF_LINK_STATUS_WIDTH : Fld := ⟨7, 4⟩
def F.HIF_LINK_STATUS_L1 : Fld := ⟨8, 8⟩
def E.hif0_AER_CORR : Nat := 16
def E.hif0_AER_NONFATAL : Nat := 17
def E.hif0_AER_FATAL : Nat := 18
def E.hif0_LINK_DOWN : Nat := 19
-- hifFn: 13_host_interface.md R346
def R.HIF_FN_STATE (n : Nat) : Nat := Pg.hifFn n + 0x100
def F.HIF_FN_STATE_STATE : Fld := ⟨1, 0⟩
def F.HIF_FN_STATE_CTX_READY : Fld := ⟨15, 8⟩
def R.HIF_FN_CTRL (n : Nat) : Nat := Pg.hifFn n + 0x104
def F.HIF_FN_CTRL_RESUME : Fld := ⟨0, 0⟩
def R.HIF_HB_CFG (n : Nat) : Nat := Pg.hifFn n + 0x108
def F.HIF_HB_CFG_TIMEOUT : Fld := ⟨13, 0⟩
def R.HIF_VIOL_LIMIT (n : Nat) : Nat := Pg.hifFn n + 0x10c
def F.HIF_VIOL_LIMIT_LIMIT : Fld := ⟨7, 0⟩
def R.HIF_VEC (n : Nat) : Nat := Pg.hifFn n + 0x110
def F.HIF_VEC_FAULT : Fld := ⟨5, 0⟩
def F.HIF_VEC_FEED : Fld := ⟨13, 8⟩
def F.HIF_VEC_ERR : Fld := ⟨21, 16⟩
def R.HIF_FEED_PEND_LO (n : Nat) : Nat := Pg.hifFn n + 0x114
def F.HIF_FEED_PEND_LO_PEND : Fld := ⟨31, 0⟩
def R.HIF_FEED_PEND_HI (n : Nat) : Nat := Pg.hifFn n + 0x118
def F.HIF_FEED_PEND_HI_PEND : Fld := ⟨15, 0⟩
def R.HIF_BAR2_BASE_LO (n : Nat) : Nat := Pg.hifFn n + 0x120
def F.HIF_BAR2_BASE_LO_BASE : Fld := ⟨31, 21⟩
def R.HIF_BAR2_BASE_HI (n : Nat) : Nat := Pg.hifFn n + 0x124
def F.HIF_BAR2_BASE_HI_BASE : Fld := ⟨15, 0⟩
def R.HIF_SQ_BASE_LO (n k j : Nat) : Nat := Pg.hifFn n + 0x200 + 0x40 * k + 0x10 * j
def F.HIF_SQ_BASE_LO_BASE : Fld := ⟨31, 9⟩
def R.HIF_SQ_BASE_HI (n k j : Nat) : Nat := Pg.hifFn n + 0x204 + 0x40 * k + 0x10 * j
def F.HIF_SQ_BASE_HI_BASE : Fld := ⟨15, 0⟩
def R.HIF_SQ_CFG (n k j : Nat) : Nat := Pg.hifFn n + 0x208 + 0x40 * k + 0x10 * j
def F.HIF_SQ_CFG_EN : Fld := ⟨0, 0⟩
def F.HIF_SQ_CFG_SLOTS : Fld := ⟨28, 16⟩
def R.HIF_SQ_STATUS (n k j : Nat) : Nat := Pg.hifFn n + 0x20c + 0x40 * k + 0x10 * j
def F.HIF_SQ_STATUS_FETCH : Fld := ⟨12, 0⟩
def F.HIF_SQ_STATUS_TAIL : Fld := ⟨28, 16⟩
def R.HIF_CQ_BASE_LO (n k : Nat) : Nat := Pg.hifFn n + 0x400 + 0x10 * k
def F.HIF_CQ_BASE_LO_BASE : Fld := ⟨31, 9⟩
def R.HIF_CQ_BASE_HI (n k : Nat) : Nat := Pg.hifFn n + 0x404 + 0x10 * k
def F.HIF_CQ_BASE_HI_BASE : Fld := ⟨15, 0⟩
def R.HIF_CQ_CFG (n k : Nat) : Nat := Pg.hifFn n + 0x408 + 0x10 * k
def F.HIF_CQ_CFG_EN : Fld := ⟨0, 0⟩
def F.HIF_CQ_CFG_VEC : Fld := ⟨13, 8⟩
def F.HIF_CQ_CFG_SLOTS : Fld := ⟨28, 16⟩
def R.HIF_CQ_STATUS (n k : Nat) : Nat := Pg.hifFn n + 0x40c + 0x10 * k
def F.HIF_CQ_STATUS_WR : Fld := ⟨12, 0⟩
def F.HIF_CQ_STATUS_HEAD : Fld := ⟨28, 16⟩
def E.hifFn_Q_BAD : Nat := 16
def E.hifFn_RESUME_BAD : Nat := 17
def E.hifFn_DB_BAD : Nat := 18
def E.hifFn_REJECT : Nat := 19
def E.hifFn_HB_LOST : Nat := 20
def E.hifFn_BAR2_DENY : Nat := 21
-- plm0: 15_ploem_links.md R396
def R.PLM_TOPO : Nat := Pg.plm0 + 0x100
def F.PLM_TOPO_KIND : Fld := ⟨1, 0⟩
def F.PLM_TOPO_DX : Fld := ⟨7, 2⟩
def F.PLM_TOPO_DY : Fld := ⟨13, 8⟩
def F.PLM_TOPO_DZ : Fld := ⟨19, 14⟩
def R.PLM_COORD : Nat := Pg.plm0 + 0x104
def F.PLM_COORD_X : Fld := ⟨4, 0⟩
def F.PLM_COORD_Y : Fld := ⟨9, 5⟩
def F.PLM_COORD_Z : Fld := ⟨14, 10⟩
def R.PLM_COLL_WAIT : Nat := Pg.plm0 + 0x108
def F.PLM_COLL_WAIT_LIMIT : Fld := ⟨31, 0⟩
def R.PLM_COLL_STATUS : Nat := Pg.plm0 + 0x10c
def F.PLM_COLL_STATUS_QUEUED : Fld := ⟨6, 0⟩
def F.PLM_COLL_STATUS_ACTIVE : Fld := ⟨10, 8⟩
def E.plm0_DIGEST_RETRY : Nat := 16
def E.plm0_DIGEST_FAIL : Nat := 17
def E.plm0_COLL_WAIT : Nat := 18
def E.plm0_TENANT_MISMATCH : Nat := 19
-- plmPort: 15_ploem_links.md R396
def R.PLM_PORT_MAP (n : Nat) : Nat := Pg.plmPort n + 0x100
def F.PLM_PORT_MAP_DIR : Fld := ⟨2, 0⟩
def R.PLM_PORT_CTRL (n : Nat) : Nat := Pg.plmPort n + 0x104
def F.PLM_PORT_CTRL_EN : Fld := ⟨0, 0⟩
def F.PLM_PORT_CTRL_ONE_LANE : Fld := ⟨1, 1⟩
def F.PLM_PORT_CTRL_LANE : Fld := ⟨2, 2⟩
def R.PLM_PORT_STATUS (n : Nat) : Nat := Pg.plmPort n + 0x108
def F.PLM_PORT_STATUS_STATE : Fld := ⟨2, 0⟩
def F.PLM_PORT_STATUS_LANE : Fld := ⟨3, 3⟩
def R.PLM_RETRY_CFG (n : Nat) : Nat := Pg.plmPort n + 0x10c
def F.PLM_RETRY_CFG_RETRY_THR : Fld := ⟨7, 0⟩
def F.PLM_RETRY_CFG_RETRAIN_MAX : Fld := ⟨15, 8⟩
def E.plmPort_CRC : Nat := 16
def E.plmPort_FEC_UNCORR : Nat := 17
def E.plmPort_CREDIT_OVF : Nat := 18
def E.plmPort_RETRAIN : Nat := 19
def E.plmPort_DEGRADED : Nat := 20
def E.plmPort_FAILED : Nat := 21
def E.plmPort_TOPO_BAD : Nat := 22
-- plmComm: 15_ploem_links.md R396
def R.PLM_COMM (k : Nat) : Nat := Pg.plmComm + 0x100 + 0x4 * k
def F.PLM_COMM_VALID : Fld := ⟨0, 0⟩
def F.PLM_COMM_DIMS : Fld := ⟨3, 1⟩
def F.PLM_COMM_TENANT : Fld := ⟨7, 4⟩
-- isp0: 11_camera_isp.md R295
def R.ISP_SCHED : Nat := Pg.isp0 + 0x100
def F.ISP_SCHED_LOAD_MAX : Fld := ⟨10, 0⟩
def R.ISP_LOAD : Nat := Pg.isp0 + 0x104
def F.ISP_LOAD_LOAD : Fld := ⟨15, 0⟩
def R.ISP_LUT_SEL : Nat := Pg.isp0 + 0x108
def F.ISP_LUT_SEL_CAMERA : Fld := ⟨3, 0⟩
def F.ISP_LUT_SEL_BANK : Fld := ⟨4, 4⟩
def F.ISP_LUT_SEL_TABLE : Fld := ⟨5, 5⟩
def F.ISP_LUT_SEL_INDEX : Fld := ⟨18, 8⟩
def R.ISP_LUT_DATA : Nat := Pg.isp0 + 0x10c
def F.ISP_LUT_DATA_WORD : Fld := ⟨31, 0⟩
def E.isp0_LUT_ACTIVE : Nat := 16
def E.isp0_SHED : Nat := 17
-- ispPort: 11_camera_isp.md R296
def R.ISP_PORT_CFG (n : Nat) : Nat := Pg.ispPort n + 0x100
def F.ISP_PORT_CFG_EN : Fld := ⟨0, 0⟩
def F.ISP_PORT_CFG_PHY : Fld := ⟨1, 1⟩
def F.ISP_PORT_CFG_WIDTH : Fld := ⟨3, 2⟩
def F.ISP_PORT_CFG_RATE : Fld := ⟨17, 8⟩
def E.ispPort_ECC_CORR : Nat := 16
def E.ispPort_ECC_UNCORR : Nat := 17
def E.ispPort_CRC : Nat := 18
def E.ispPort_DISCARD : Nat := 19
def E.ispPort_LB_OVF : Nat := 20
def E.ispPort_PORT_LIVE : Nat := 21
-- ispCam: 11_camera_isp.md R297
def R.ISP_CAM_CFG (n : Nat) : Nat := Pg.ispCam n + 0x100
def F.ISP_CAM_CFG_EN : Fld := ⟨0, 0⟩
def F.ISP_CAM_CFG_PORT : Fld := ⟨3, 1⟩
def F.ISP_CAM_CFG_VC : Fld := ⟨5, 4⟩
def F.ISP_CAM_CFG_DT : Fld := ⟨11, 6⟩
def F.ISP_CAM_CFG_STORED : Fld := ⟨12, 12⟩
def F.ISP_CAM_CFG_PRIO : Fld := ⟨16, 13⟩
def F.ISP_CAM_CFG_CFA : Fld := ⟨18, 17⟩
def F.ISP_CAM_CFG_MONO : Fld := ⟨19, 19⟩
def F.ISP_CAM_CFG_SENS_DELAY : Fld := ⟨21, 20⟩
def F.ISP_CAM_CFG_BUS : Fld := ⟨23, 22⟩
def F.ISP_CAM_CFG_ADDR : Fld := ⟨30, 24⟩
def R.ISP_CAM_GEOM (n : Nat) : Nat := Pg.ispCam n + 0x104
def F.ISP_CAM_GEOM_WIDTH : Fld := ⟨13, 0⟩
def F.ISP_CAM_GEOM_HEIGHT : Fld := ⟨29, 16⟩
def R.ISP_CAM_TIMING (n : Nat) : Nat := Pg.ispCam n + 0x108
def F.ISP_CAM_TIMING_LINE_TIME : Fld := ⟨23, 0⟩
def R.ISP_CAM_LB (n : Nat) : Nat := Pg.ispCam n + 0x10c
def F.ISP_CAM_LB_READY_LINES : Fld := ⟨6, 0⟩
def F.ISP_CAM_LB_LB_LINES : Fld := ⟨15, 8⟩
def F.ISP_CAM_LB_LB_BASE : Fld := ⟨27, 16⟩
def R.ISP_CAM_OWN (n : Nat) : Nat := Pg.ispCam n + 0x110
def F.ISP_CAM_OWN_CTX : Fld := ⟨6, 0⟩
def R.ISP_CAM_RAW_LO (n : Nat) : Nat := Pg.ispCam n + 0x114
def F.ISP_CAM_RAW_LO_RAW_DA : Fld := ⟨31, 0⟩
def R.ISP_CAM_RAW_HI (n : Nat) : Nat := Pg.ispCam n + 0x118
def F.ISP_CAM_RAW_HI_RAW_DA : Fld := ⟨15, 0⟩
def R.ISP_CAM_RAW_STRIDE (n : Nat) : Nat := Pg.ispCam n + 0x11c
def F.ISP_CAM_RAW_STRIDE_RAW_STRIDE : Fld := ⟨31, 0⟩
def R.ISP_OUT_CFG (n k : Nat) : Nat := Pg.ispCam n + 0x140 + 0x20 * k
def F.ISP_OUT_CFG_EN : Fld := ⟨0, 0⟩
def F.ISP_OUT_CFG_FMT : Fld := ⟨3, 1⟩
def F.ISP_OUT_CFG_DEST : Fld := ⟨4, 4⟩
def F.ISP_OUT_CFG_CSC : Fld := ⟨6, 5⟩
def F.ISP_OUT_CFG_NBUF : Fld := ⟨10, 7⟩
def F.ISP_OUT_CFG_CORE : Fld := ⟨15, 11⟩
def F.ISP_OUT_CFG_REGION : Fld := ⟨21, 16⟩
def R.ISP_OUT_CROP (n k j : Nat) : Nat := Pg.ispCam n + 0x144 + 0x20 * k + 0x4 * j
def F.ISP_OUT_CROP_A : Fld := ⟨13, 0⟩
def F.ISP_OUT_CROP_B : Fld := ⟨29, 16⟩
def R.ISP_OUT_SIZE (n k : Nat) : Nat := Pg.ispCam n + 0x14c + 0x20 * k
def F.ISP_OUT_SIZE_OW : Fld := ⟨13, 0⟩
def F.ISP_OUT_SIZE_OH : Fld := ⟨29, 16⟩
def R.ISP_OUT_DA_LO (n k : Nat) : Nat := Pg.ispCam n + 0x150 + 0x20 * k
def F.ISP_OUT_DA_LO_DA_BASE : Fld := ⟨31, 0⟩
def R.ISP_OUT_DA_HI (n k : Nat) : Nat := Pg.ispCam n + 0x154 + 0x20 * k
def F.ISP_OUT_DA_HI_DA_BASE : Fld := ⟨15, 0⟩
def R.ISP_OUT_PITCH (n k : Nat) : Nat := Pg.ispCam n + 0x158 + 0x20 * k
def F.ISP_OUT_PITCH_PITCH : Fld := ⟨15, 0⟩
def F.ISP_OUT_PITCH_BUF_STRIDE : Fld := ⟨31, 16⟩
def R.ISP_OUT_REL (n k : Nat) : Nat := Pg.ispCam n + 0x15c + 0x20 * k
def F.ISP_OUT_REL_INDEX : Fld := ⟨3, 0⟩
def R.ISP_MV_GAIN (n : Nat) : Nat := Pg.ispCam n + 0x1a0
def F.ISP_MV_GAIN_GAIN : Fld := ⟨31, 0⟩
def R.ISP_MV_OFF (n : Nat) : Nat := Pg.ispCam n + 0x1a4
def F.ISP_MV_OFF_OFF : Fld := ⟨31, 0⟩
def R.ISP_STAT_CFG (n : Nat) : Nat := Pg.ispCam n + 0x1b0
def F.ISP_STAT_CFG_PRES_EN : Fld := ⟨0, 0⟩
def F.ISP_STAT_CFG_PRES_THR : Fld := ⟨11, 1⟩
def F.ISP_STAT_CFG_PRES_DELTA : Fld := ⟨19, 12⟩
def F.ISP_STAT_CFG_PRES_HOLD : Fld := ⟨23, 20⟩
def R.ISP_REC_LO (n : Nat) : Nat := Pg.ispCam n + 0x1b4
def F.ISP_REC_LO_REC_DA : Fld := ⟨31, 0⟩
def R.ISP_REC_HI (n : Nat) : Nat := Pg.ispCam n + 0x1b8
def F.ISP_REC_HI_REC_DA : Fld := ⟨15, 0⟩
def R.ISP_REC_PTR (n : Nat) : Nat := Pg.ispCam n + 0x1bc
def F.ISP_REC_PTR_WR : Fld := ⟨8, 0⟩
def F.ISP_REC_PTR_RD : Fld := ⟨24, 16⟩
def F.ISP_REC_PTR_SLOTS : Fld := ⟨31, 25⟩
def E.ispCam_CAM_BAD : Nat := 16
def E.ispCam_OUT_BAD : Nat := 17
def E.ispCam_DA_DENY : Nat := 18
def E.ispCam_REC_LOST : Nat := 19
-- ispPipe: 11_camera_isp.md R298
def R.ISP_BLC (n k : Nat) : Nat := Pg.ispPipe n + 0x100 + 0x4 * k
def F.ISP_BLC_LO : Fld := ⟨15, 0⟩
def F.ISP_BLC_HI : Fld := ⟨31, 16⟩
def R.ISP_DPC (n : Nat) : Nat := Pg.ispPipe n + 0x108
def F.ISP_DPC_DPC_EN : Fld := ⟨0, 0⟩
def F.ISP_DPC_DPC_THR : Fld := ⟨31, 16⟩
def R.ISP_LSC (n : Nat) : Nat := Pg.ispPipe n + 0x10c
def F.ISP_LSC_LSC_EN : Fld := ⟨0, 0⟩
def F.ISP_LSC_LSC_BANK : Fld := ⟨1, 1⟩
def R.ISP_WB (n : Nat) : Nat := Pg.ispPipe n + 0x110
def F.ISP_WB_GAIN_R : Fld := ⟨15, 0⟩
def F.ISP_WB_GAIN_G : Fld := ⟨31, 16⟩
def R.ISP_WB_B (n : Nat) : Nat := Pg.ispPipe n + 0x114
def F.ISP_WB_B_GAIN_B : Fld := ⟨15, 0⟩
def R.ISP_CCM_0 (n : Nat) : Nat := Pg.ispPipe n + 0x120
def F.ISP_CCM_0_LO : Fld := ⟨15, 0⟩
def F.ISP_CCM_0_HI : Fld := ⟨31, 16⟩
def R.ISP_CCM_1 (n : Nat) : Nat := Pg.ispPipe n + 0x124
def F.ISP_CCM_1_LO : Fld := ⟨15, 0⟩
def F.ISP_CCM_1_HI : Fld := ⟨31, 16⟩
def R.ISP_CCM_2 (n : Nat) : Nat := Pg.ispPipe n + 0x128
def F.ISP_CCM_2_LO : Fld := ⟨15, 0⟩
def F.ISP_CCM_2_HI : Fld := ⟨31, 16⟩
def R.ISP_CCM_3 (n : Nat) : Nat := Pg.ispPipe n + 0x12c
def F.ISP_CCM_3_LO : Fld := ⟨15, 0⟩
def F.ISP_CCM_3_HI : Fld := ⟨31, 16⟩
def R.ISP_CCM_4 (n : Nat) : Nat := Pg.ispPipe n + 0x130
def F.ISP_CCM_4_LO : Fld := ⟨15, 0⟩
def R.ISP_CCM_OFF (n : Nat) : Nat := Pg.ispPipe n + 0x134
def F.ISP_CCM_OFF_OFF_0 : Fld := ⟨15, 0⟩
def F.ISP_CCM_OFF_OFF_1 : Fld := ⟨31, 16⟩
def R.ISP_CCM_OFF2 (n : Nat) : Nat := Pg.ispPipe n + 0x138
def F.ISP_CCM_OFF2_OFF_2 : Fld := ⟨15, 0⟩
def R.ISP_TONE (n : Nat) : Nat := Pg.ispPipe n + 0x13c
def F.ISP_TONE_TONE_EN : Fld := ⟨0, 0⟩
def F.ISP_TONE_TONE_BANK : Fld := ⟨1, 1⟩
-- ispBus: 11_camera_isp.md R299
def R.ISP_CC_CFG (n : Nat) : Nat := Pg.ispBus n + 0x100
def F.ISP_CC_CFG_EN : Fld := ⟨0, 0⟩
def F.ISP_CC_CFG_MODE : Fld := ⟨1, 1⟩
def R.ISP_CC_MEM_ADDR (n : Nat) : Nat := Pg.ispBus n + 0x104
def F.ISP_CC_MEM_ADDR_ADDR : Fld := ⟨9, 0⟩
def R.ISP_CC_MEM_DATA (n : Nat) : Nat := Pg.ispBus n + 0x108
def F.ISP_CC_MEM_DATA_WORD : Fld := ⟨31, 0⟩
def R.ISP_CC_ID (n : Nat) : Nat := Pg.ispBus n + 0x10c
def F.ISP_CC_ID_ID : Fld := ⟨15, 0⟩
def R.ISP_CC_POST (n : Nat) : Nat := Pg.ispBus n + 0x110
def F.ISP_CC_POST_CAMERA : Fld := ⟨3, 0⟩
def F.ISP_CC_POST_COUNT : Fld := ⟨11, 4⟩
def F.ISP_CC_POST_FIRST : Fld := ⟨20, 12⟩
def R.ISP_CC_STATUS (n : Nat) : Nat := Pg.ispBus n + 0x114
def F.ISP_CC_STATUS_QUEUED : Fld := ⟨4, 0⟩
def F.ISP_CC_STATUS_SENDING : Fld := ⟨5, 5⟩
def E.ispBus_NAK_FAIL : Nat := 16
def E.ispBus_BUS_RESET : Nat := 17
def E.ispBus_POST_FULL : Nat := 18
def E.ispBus_MEM_BUSY : Nat := 19
def E.ispBus_SET_LATE : Nat := 20
-- dec0: 12_video_input.md R319
-- dec1: 12_video_input.md R320
def R.FEED_MAX_AGE (k : Nat) : Nat := Pg.dec1 + 0x100 + 0x4 * k
def F.FEED_MAX_AGE_TICKS : Fld := ⟨31, 0⟩
def R.FEED_STALE_CNT_LO (k : Nat) : Nat := Pg.dec1 + 0x200 + 0x8 * k
def F.FEED_STALE_CNT_LO_COUNT : Fld := ⟨31, 0⟩
def R.FEED_STALE_CNT_HI (k : Nat) : Nat := Pg.dec1 + 0x204 + 0x8 * k
def F.FEED_STALE_CNT_HI_COUNT : Fld := ⟨31, 0⟩
-- decEng: 12_video_input.md R319
-- decCtx: 12_video_input.md R321
def R.DEC_CTX_CFG (n : Nat) : Nat := Pg.decCtx n + 0x100
def F.DEC_CTX_CFG_EN : Fld := ⟨0, 0⟩
def F.DEC_CTX_CFG_CODEC : Fld := ⟨2, 1⟩
def F.DEC_CTX_CFG_MAX_BITS : Fld := ⟨3, 3⟩
def F.DEC_CTX_CFG_CTX : Fld := ⟨10, 4⟩
def R.DEC_CTX_MAX (n : Nat) : Nat := Pg.decCtx n + 0x104
def F.DEC_CTX_MAX_MAX_W : Fld := ⟨13, 0⟩
def F.DEC_CTX_MAX_MAX_H : Fld := ⟨29, 16⟩
def R.DEC_CTX_BUDGET (n : Nat) : Nat := Pg.decCtx n + 0x108
def F.DEC_CTX_BUDGET_BUDGET : Fld := ⟨19, 0⟩
def R.DEC_POOL_LO (n : Nat) : Nat := Pg.decCtx n + 0x10c
def F.DEC_POOL_LO_POOL_DA : Fld := ⟨31, 0⟩
def R.DEC_POOL_HI (n : Nat) : Nat := Pg.decCtx n + 0x110
def F.DEC_POOL_HI_POOL_DA : Fld := ⟨15, 0⟩
def R.DEC_POOL_SIZE (n : Nat) : Nat := Pg.decCtx n + 0x114
def F.DEC_POOL_SIZE_POOL_BYTES : Fld := ⟨15, 0⟩
def R.DEC_AU_LO (n : Nat) : Nat := Pg.decCtx n + 0x118
def F.DEC_AU_LO_AU_DA : Fld := ⟨31, 0⟩
def R.DEC_AU_HI (n : Nat) : Nat := Pg.decCtx n + 0x11c
def F.DEC_AU_HI_AU_DA : Fld := ⟨15, 0⟩
def R.DEC_AU_PTR (n : Nat) : Nat := Pg.decCtx n + 0x120
def F.DEC_AU_PTR_WR : Fld := ⟨12, 0⟩
def F.DEC_AU_PTR_RD : Fld := ⟨28, 16⟩
def R.DEC_AU_SLOTS (n : Nat) : Nat := Pg.decCtx n + 0x124
def F.DEC_AU_SLOTS_SLOTS : Fld := ⟨12, 0⟩
def R.DEC_REC_LO (n : Nat) : Nat := Pg.decCtx n + 0x128
def F.DEC_REC_LO_REC_DA : Fld := ⟨31, 0⟩
def R.DEC_REC_HI (n : Nat) : Nat := Pg.decCtx n + 0x12c
def F.DEC_REC_HI_REC_DA : Fld := ⟨15, 0⟩
def R.DEC_REC_PTR (n : Nat) : Nat := Pg.decCtx n + 0x130
def F.DEC_REC_PTR_WR : Fld := ⟨12, 0⟩
def F.DEC_REC_PTR_RD : Fld := ⟨28, 16⟩
def R.DEC_REC_SLOTS (n : Nat) : Nat := Pg.decCtx n + 0x134
def F.DEC_REC_SLOTS_SLOTS : Fld := ⟨12, 0⟩
def R.DEC_CACHE_LO (n : Nat) : Nat := Pg.decCtx n + 0x138
def F.DEC_CACHE_LO_CACHE_DA : Fld := ⟨31, 0⟩
def R.DEC_CACHE_HI (n : Nat) : Nat := Pg.decCtx n + 0x13c
def F.DEC_CACHE_HI_CACHE_DA : Fld := ⟨15, 0⟩
def R.DEC_CACHE_GEOM (n : Nat) : Nat := Pg.decCtx n + 0x140
def F.DEC_CACHE_GEOM_SETS : Fld := ⟨15, 0⟩
def F.DEC_CACHE_GEOM_WAYS : Fld := ⟨19, 16⟩
def F.DEC_CACHE_GEOM_ENTRY_ROWS : Fld := ⟨31, 20⟩
def R.DEC_CTX_STATUS (n : Nat) : Nat := Pg.decCtx n + 0x144
def F.DEC_CTX_STATUS_STATE : Fld := ⟨2, 0⟩
def E.decCtx_CTX_LIVE : Nat := 16
def E.decCtx_POOL_SMALL : Nat := 17
def E.decCtx_AU_DENY : Nat := 18
def E.decCtx_REC_LOST : Nat := 19
-- xfm: 12_video_input.md R322
def R.XFM_CFG (n : Nat) : Nat := Pg.xfm n + 0x100
def F.XFM_CFG_EN : Fld := ⟨0, 0⟩
def F.XFM_CFG_DEST : Fld := ⟨1, 1⟩
def F.XFM_CFG_FILTER : Fld := ⟨2, 2⟩
def F.XFM_CFG_ROT90 : Fld := ⟨4, 3⟩
def F.XFM_CFG_FLIP_H : Fld := ⟨5, 5⟩
def F.XFM_CFG_FLIP_V : Fld := ⟨6, 6⟩
def F.XFM_CFG_CHAN : Fld := ⟨8, 7⟩
def F.XFM_CFG_CSC : Fld := ⟨11, 9⟩
def F.XFM_CFG_FMT : Fld := ⟨15, 12⟩
def F.XFM_CFG_CORE : Fld := ⟨20, 16⟩
def F.XFM_CFG_REGION : Fld := ⟨26, 21⟩
def F.XFM_CFG_NBUF : Fld := ⟨30, 27⟩
def R.XFM_CROP (n k : Nat) : Nat := Pg.xfm n + 0x104 + 0x4 * k
def F.XFM_CROP_A : Fld := ⟨13, 0⟩
def F.XFM_CROP_B : Fld := ⟨29, 16⟩
def R.XFM_SIZE (n : Nat) : Nat := Pg.xfm n + 0x10c
def F.XFM_SIZE_OW : Fld := ⟨13, 0⟩
def F.XFM_SIZE_OH : Fld := ⟨29, 16⟩
def R.XFM_ANGLE (n : Nat) : Nat := Pg.xfm n + 0x110
def F.XFM_ANGLE_ANGLE : Fld := ⟨31, 0⟩
def R.XFM_FILL (n : Nat) : Nat := Pg.xfm n + 0x114
def F.XFM_FILL_FILL : Fld := ⟨31, 0⟩
def R.XFM_MEAN (n k : Nat) : Nat := Pg.xfm n + 0x118 + 0x4 * k
def F.XFM_MEAN_MEAN : Fld := ⟨31, 0⟩
def R.XFM_ISTD (n k : Nat) : Nat := Pg.xfm n + 0x124 + 0x4 * k
def F.XFM_ISTD_ISTD : Fld := ⟨31, 0⟩
def R.XFM_SCALE (n : Nat) : Nat := Pg.xfm n + 0x130
def F.XFM_SCALE_S : Fld := ⟨31, 0⟩
def R.XFM_LINE (n : Nat) : Nat := Pg.xfm n + 0x134
def F.XFM_LINE_LINE_BYTES : Fld := ⟨15, 0⟩
def F.XFM_LINE_PLANE_ROWS : Fld := ⟨31, 16⟩
def R.XFM_DA_LO (n : Nat) : Nat := Pg.xfm n + 0x138
def F.XFM_DA_LO_DA_BASE : Fld := ⟨31, 0⟩
def R.XFM_DA_HI (n : Nat) : Nat := Pg.xfm n + 0x13c
def F.XFM_DA_HI_DA_BASE : Fld := ⟨15, 0⟩
def R.XFM_BUF_STRIDE (n : Nat) : Nat := Pg.xfm n + 0x140
def F.XFM_BUF_STRIDE_STRIDE : Fld := ⟨31, 0⟩
def R.XFM_REL (n : Nat) : Nat := Pg.xfm n + 0x144
def F.XFM_REL_INDEX : Fld := ⟨3, 0⟩
def E.xfm_XFM_BAD : Nat := 16
def E.xfm_DA_DENY : Nat := 17
def E.xfm_SIZE_CACHE : Nat := 18
-- brz0: 10_breeze_tier.md R265
def R.BRZ_FE_CFG : Nat := Pg.brz0 + 0x100
def F.BRZ_FE_CFG_PDM_EN : Fld := ⟨15, 0⟩
def F.BRZ_FE_CFG_LP : Fld := ⟨16, 16⟩
def F.BRZ_FE_CFG_TDM0_EN : Fld := ⟨17, 17⟩
def F.BRZ_FE_CFG_TDM1_EN : Fld := ⟨18, 18⟩
def R.BRZ_MUTE : Nat := Pg.brz0 + 0x104
def F.BRZ_MUTE_MUTED : Fld := ⟨0, 0⟩
def F.BRZ_MUTE_PIN : Fld := ⟨1, 1⟩
def F.BRZ_MUTE_SETTLING : Fld := ⟨2, 2⟩
def R.BRZ_UNMUTE_SETTLE : Nat := Pg.brz0 + 0x108
def F.BRZ_UNMUTE_SETTLE_SAMPLES : Fld := ⟨15, 0⟩
def R.BRZ_IDX_LO : Nat := Pg.brz0 + 0x10c
def F.BRZ_IDX_LO_IDX : Fld := ⟨31, 0⟩
def R.BRZ_IDX_HI : Nat := Pg.brz0 + 0x110
def F.BRZ_IDX_HI_IDX : Fld := ⟨15, 0⟩
def R.BRZ_TDM_CFG (k : Nat) : Nat := Pg.brz0 + 0x120 + 0x4 * k
def F.BRZ_TDM_CFG_RATE : Fld := ⟨0, 0⟩
def F.BRZ_TDM_CFG_SENSOR : Fld := ⟨15, 8⟩
def R.BRZ_RING_MAP (k : Nat) : Nat := Pg.brz0 + 0x200 + 0x4 * k
def F.BRZ_RING_MAP_SRC : Fld := ⟨7, 0⟩
def F.BRZ_RING_MAP_DELAY : Fld := ⟨14, 8⟩
def E.brz0_OVL : Nat := 16
def E.brz0_TDM_LOSS : Nat := 17
def E.brz0_MUTE_CHG : Nat := 18
-- brz1: 10_breeze_tier.md R266
def R.BRZ_MODEL_LOC (k : Nat) : Nat := Pg.brz1 + 0x100 + 0x20 * k
def F.BRZ_MODEL_LOC_BASE : Fld := ⟨9, 0⟩
def F.BRZ_MODEL_LOC_ROWS : Fld := ⟨26, 16⟩
def F.BRZ_MODEL_LOC_ARM : Fld := ⟨31, 31⟩
def R.BRZ_MODEL_CFG (k : Nat) : Nat := Pg.brz1 + 0x104 + 0x20 * k
def F.BRZ_MODEL_CFG_EVENT : Fld := ⟨7, 0⟩
def F.BRZ_MODEL_CFG_HOP : Fld := ⟨18, 8⟩
def F.BRZ_MODEL_CFG_GUST_MODEL : Fld := ⟨23, 19⟩
def F.BRZ_MODEL_CFG_GUST_EN : Fld := ⟨24, 24⟩
def F.BRZ_MODEL_CFG_AG : Fld := ⟨28, 25⟩
def F.BRZ_MODEL_CFG_AG_EN : Fld := ⟨29, 29⟩
def R.BRZ_MODEL_THR (k : Nat) : Nat := Pg.brz1 + 0x108 + 0x20 * k
def F.BRZ_MODEL_THR_THR : Fld := ⟨15, 0⟩
def F.BRZ_MODEL_THR_HOLDOFF : Fld := ⟨31, 16⟩
def R.BRZ_MODEL_IN (k : Nat) : Nat := Pg.brz1 + 0x10c + 0x20 * k
def F.BRZ_MODEL_IN_CHMASK : Fld := ⟨31, 0⟩
def R.BRZ_MODEL_PRE (k : Nat) : Nat := Pg.brz1 + 0x110 + 0x20 * k
def F.BRZ_MODEL_PRE_PREROLL : Fld := ⟨14, 0⟩
def R.BRZ_MODEL_STAT (k : Nat) : Nat := Pg.brz1 + 0x114 + 0x20 * k
def F.BRZ_MODEL_STAT_FAULTED : Fld := ⟨0, 0⟩
def F.BRZ_MODEL_STAT_LOAD : Fld := ⟨31, 16⟩
def R.BRZ_LOAD : Nat := Pg.brz1 + 0x300
def F.BRZ_LOAD_SUM : Fld := ⟨15, 0⟩
def R.BRZ_LOAD_MAX : Nat := Pg.brz1 + 0x304
def F.BRZ_LOAD_MAX_MAX : Fld := ⟨15, 0⟩
def E.brz1_ARM_REFUSED : Nat := 16
def E.brz1_MODEL_FAULT : Nat := 17
def E.brz1_HOP_SKIP : Nat := 18
def E.brz1_OUT_BAD : Nat := 19
-- brz2: 10_breeze_tier.md R267
def R.BRZ_GUST : Nat := Pg.brz2 + 0x100
def F.BRZ_GUST_CORE : Fld := ⟨4, 0⟩
def F.BRZ_GUST_AUTO : Fld := ⟨5, 5⟩
def F.BRZ_GUST_POST_SEM : Fld := ⟨11, 6⟩
def F.BRZ_GUST_POST_REGION : Fld := ⟨17, 12⟩
def F.BRZ_GUST_POST_EN : Fld := ⟨18, 18⟩
def R.BRZ_VWAKE : Nat := Pg.brz2 + 0x104
def F.BRZ_VWAKE_EN : Fld := ⟨0, 0⟩
def F.BRZ_VWAKE_CAMERA : Fld := ⟨4, 1⟩
def F.BRZ_VWAKE_GUST_MODEL : Fld := ⟨9, 5⟩
def F.BRZ_VWAKE_GUST_EN : Fld := ⟨10, 10⟩
def F.BRZ_VWAKE_AG : Fld := ⟨14, 11⟩
def F.BRZ_VWAKE_AG_EN : Fld := ⟨15, 15⟩
def F.BRZ_VWAKE_PREROLL : Fld := ⟨30, 16⟩
def R.BRZ_WQ_PTR : Nat := Pg.brz2 + 0x110
def F.BRZ_WQ_PTR_WR : Fld := ⟨6, 0⟩
def F.BRZ_WQ_PTR_RD : Fld := ⟨14, 8⟩
def R.BRZ_WQ_SEQ : Nat := Pg.brz2 + 0x114
def F.BRZ_WQ_SEQ_NEXT : Fld := ⟨15, 0⟩
def R.BRZ_WQ (k j : Nat) : Nat := Pg.brz2 + 0x400 + 0x20 * k + 0x4 * j
def F.BRZ_WQ_WORD : Fld := ⟨31, 0⟩
def E.brz2_WQ_OVF : Nat := 16
def E.brz2_POST_BAD : Nat := 17
def E.brz2_WAKE : Nat := 18
def E.brz2_START_SKIPPED : Nat := 19
-- brz4: 10_breeze_tier.md R268
def R.BRZ_SPM_ADDR : Nat := Pg.brz4 + 0x100
def F.BRZ_SPM_ADDR_ADDR : Fld := ⟨16, 0⟩
def R.BRZ_SPM_DATA : Nat := Pg.brz4 + 0x104
def F.BRZ_SPM_DATA_WORD : Fld := ⟨31, 0⟩
def E.brz4_LOAD_ARMED : Nat := 16
-- brzAg: 10_breeze_tier.md R269
def R.BRZ_AG_CFG (n : Nat) : Nat := Pg.brzAg n + 0x100
def F.BRZ_AG_CFG_EN : Fld := ⟨0, 0⟩
def F.BRZ_AG_CFG_FMT : Fld := ⟨2, 1⟩
def F.BRZ_AG_CFG_BLOCK : Fld := ⟨10, 4⟩
def F.BRZ_AG_CFG_CORE : Fld := ⟨15, 11⟩
def F.BRZ_AG_CFG_REGION : Fld := ⟨21, 16⟩
def R.BRZ_AG_CH (n : Nat) : Nat := Pg.brzAg n + 0x104
def F.BRZ_AG_CH_CHMASK : Fld := ⟨31, 0⟩
def R.BRZ_AG_CMD (n : Nat) : Nat := Pg.brzAg n + 0x108
def F.BRZ_AG_CMD_CMD : Fld := ⟨1, 0⟩
def R.BRZ_AG_SEEK_LO (n : Nat) : Nat := Pg.brzAg n + 0x10c
def F.BRZ_AG_SEEK_LO_IDX : Fld := ⟨31, 0⟩
def R.BRZ_AG_SEEK_HI (n : Nat) : Nat := Pg.brzAg n + 0x110
def F.BRZ_AG_SEEK_HI_IDX : Fld := ⟨15, 0⟩
def R.BRZ_AG_STATUS (n : Nat) : Nat := Pg.brzAg n + 0x114
def F.BRZ_AG_STATUS_ACTIVE : Fld := ⟨0, 0⟩
def F.BRZ_AG_STATUS_WAITING : Fld := ⟨1, 1⟩
def F.BRZ_AG_STATUS_FEED_ERR : Fld := ⟨15, 8⟩
def R.BRZ_AG_CUR_LO (n : Nat) : Nat := Pg.brzAg n + 0x118
def F.BRZ_AG_CUR_LO_IDX : Fld := ⟨31, 0⟩
def R.BRZ_AG_CUR_HI (n : Nat) : Nat := Pg.brzAg n + 0x11c
def F.BRZ_AG_CUR_HI_IDX : Fld := ⟨15, 0⟩
def E.brzAg_JUMP : Nat := 16
def E.brzAg_CLIPPED : Nat := 17

end Sys2Proof.Machine
end

