-- ==== Sys2Proof/Machine/RegMap.lean ====
section
/-! DEFINITION. Machine/RegMap.lean: the register pages of BAR0 (R33, R34) and, for each kind of page, its block
registers: offset, array strides, fields, access codes (R7), reset values and listed encodings (R6), as the register
tables of the chapters of spec/ state them. The data is transcribed from those tables. -/

namespace Sys2Proof.Machine

/-- The access codes of R7. -/
inductive Acc where
  | rw | ro | wo | w1c | w1s | rc | rwt | rws
  deriving DecidableEq, Repr

/-- Who may write a register beyond the page's write right: anyone who holds it, holders of the debug right (R45),
control cores only ("IIDs 16 to 19 only"), or control cores and the security engine. -/
inductive WriteBy where
  | any | debug | ctl | ctlSec
  deriving DecidableEq, Repr

/-- One field: bits `hi..lo`, its access code, its reset value (plus `idx` times the array index), and the ranges of
encodings the manual lists (`[]`: every encoding). -/
structure FldDef where
  hi : Nat
  lo : Nat
  acc : Acc
  rst : Nat
  idx : Nat
  legal : List (Nat × Nat)
  deriving DecidableEq, Repr

/-- One register or array of registers of a page: instance `(i, j)` lies at `off + i*st + j*st2`. -/
structure RegDef where
  off : Nat
  cnt : Nat
  st : Nat
  cnt2 : Nat
  st2 : Nat
  by' : WriteBy
  flds : List FldDef
  deriving DecidableEq, Repr

/-- When a page can change (R54, R55). -/
inductive Bound where
  | cycle | operation | frame
  deriving DecidableEq, Repr

/-- The kinds of register page that are present (R33, R34 and the page lists of the chapters). -/
inductive PageKind where
  /-- 02_register_pages.md R59 -/
  | mgt0
  /-- 02_register_pages.md R63 -/
  | mgtSnap
  /-- 19_test_debug.md R504 -/
  | mgtTel
  /-- 19_test_debug.md R498 -/
  | tstMode
  /-- 19_test_debug.md R498 -/
  | tstLane
  /-- 19_test_debug.md R498 -/
  | tstMem
  /-- 19_test_debug.md R498 -/
  | tstCsi
  /-- 19_test_debug.md R498 -/
  | tstD2d
  /-- 19_test_debug.md R498 -/
  | tstDbg
  /-- 18_clocks_power.md R488 -/
  | pwr
  /-- 18_clocks_power.md R489 -/
  | clk
  /-- 17_security.md R460 -/
  | secBoot
  /-- 17_security.md R461 -/
  | secKey
  /-- 17_security.md R462 -/
  | secAtt
  /-- 17_security.md R463 -/
  | secConf
  /-- 17_security.md R463 -/
  | secRec
  /-- 16_reliability.md R428 -/
  | rel0
  /-- 16_reliability.md R429 -/
  | rel1
  /-- 16_reliability.md R430 -/
  | rel2
  /-- 16_reliability.md R431 -/
  | rel3
  /-- 14_control_scheduling.md R371 -/
  | ctl0
  /-- 14_control_scheduling.md R371 -/
  | ctlMb
  /-- 14_control_scheduling.md R372 -/
  | ctlShare
  /-- 14_control_scheduling.md R372 -/
  | ctlAcc
  /-- 14_control_scheduling.md R373 -/
  | ctlUpd
  /-- 14_control_scheduling.md R373 -/
  | ctlDump
  /-- 08_sequence_streams.md R208 -/
  | ctlStr
  /-- 03_gale_array.md R93 -/
  | arr0
  /-- 08_sequence_streams.md R210 -/
  | vec
  /-- 03_gale_array.md R96 -/
  | seq
  /-- 05_scratchpads.md R147 -/
  | spd3
  /-- 05_scratchpads.md R149 -/
  | spd4
  /-- 05_scratchpads.md R151 -/
  | spd5
  /-- 04_number_formats.md R118 -/
  | arr6
  /-- 03_gale_array.md R95 -/
  | arr7
  /-- 09_memory_tiers.md R234 -/
  | mt0
  /-- 09_memory_tiers.md R235 -/
  | mt1
  /-- 09_memory_tiers.md R236 -/
  | mt2
  /-- 09_memory_tiers.md R234 -/
  | mtCtrl
  /-- 09_memory_tiers.md R233 -/
  | mtRng
  /-- 01_architecture.md R31 -/
  | fab0
  /-- 01_architecture.md R32 -/
  | fab1
  /-- 01_architecture.md R32 -/
  | fab2
  /-- 13_host_interface.md R345 -/
  | hif0
  /-- 13_host_interface.md R346 -/
  | hifFn
  /-- 15_ploem_links.md R396 -/
  | plm0
  /-- 15_ploem_links.md R396 -/
  | plmPort
  /-- 15_ploem_links.md R396 -/
  | plmComm
  /-- 11_camera_isp.md R295 -/
  | isp0
  /-- 11_camera_isp.md R296 -/
  | ispPort
  /-- 11_camera_isp.md R297 -/
  | ispCam
  /-- 11_camera_isp.md R298 -/
  | ispPipe
  /-- 11_camera_isp.md R299 -/
  | ispBus
  /-- 12_video_input.md R319 -/
  | dec0
  /-- 12_video_input.md R320 -/
  | dec1
  /-- 12_video_input.md R319 -/
  | decEng
  /-- 12_video_input.md R321 -/
  | decCtx
  /-- 12_video_input.md R322 -/
  | xfm
  /-- 10_breeze_tier.md R265 -/
  | brz0
  /-- 10_breeze_tier.md R266 -/
  | brz1
  /-- 10_breeze_tier.md R267 -/
  | brz2
  /-- 10_breeze_tier.md R268 -/
  | brz4
  /-- 10_breeze_tier.md R269 -/
  | brzAg
  deriving DecidableEq, Repr

/-- Where the pages of a kind lie: first page number (BAR0 offset / 4096), count, step, PG_ID block type (R38), when
they change (R54), how many header counters they name (R65), the defined block bits of ERR_STAT (R42). -/
structure PageRow where
  kind : PageKind
  first : Nat
  cnt : Nat
  step : Nat
  blockType : Nat
  bound : Bound
  counters : Nat
  errBits : Nat
  deriving DecidableEq, Repr

/-- Every page that is present. -/
def pageRows : List PageRow := [
  ⟨.mgt0, 0x0, 1, 1, 0x1, .cycle, 0, 0⟩,
  ⟨.mgtSnap, 0x1, 1, 1, 0x1, .cycle, 0, 0⟩,
  ⟨.mgtTel, 0x2, 1, 1, 0x1, .cycle, 4, 0⟩,
  ⟨.tstMode, 0x3, 1, 1, 0x2, .cycle, 0, 0⟩,
  ⟨.tstLane, 0x4, 6, 1, 0x2, .cycle, 4, 3⟩,
  ⟨.tstMem, 0xa, 1, 1, 0x2, .cycle, 2, 1⟩,
  ⟨.tstCsi, 0xb, 1, 1, 0x2, .cycle, 3, 0⟩,
  ⟨.tstD2d, 0xc, 1, 1, 0x2, .cycle, 3, 0⟩,
  ⟨.tstDbg, 0xd, 1, 1, 0x2, .cycle, 3, 0⟩,
  ⟨.pwr, 0x10, 1, 1, 0x3, .cycle, 6, 2⟩,
  ⟨.clk, 0x11, 1, 1, 0x4, .cycle, 4, 3⟩,
  ⟨.secBoot, 0x20, 1, 1, 0x5, .cycle, 4, 2⟩,
  ⟨.secKey, 0x21, 1, 1, 0x5, .cycle, 5, 2⟩,
  ⟨.secAtt, 0x22, 1, 1, 0x5, .cycle, 2, 0⟩,
  ⟨.secConf, 0x23, 1, 1, 0x5, .cycle, 4, 1⟩,
  ⟨.secRec, 0x24, 1, 1, 0x5, .cycle, 0, 1⟩,
  ⟨.rel0, 0x30, 1, 1, 0x6, .cycle, 5, 5⟩,
  ⟨.rel1, 0x31, 1, 1, 0x6, .cycle, 5, 2⟩,
  ⟨.rel2, 0x32, 1, 1, 0x6, .cycle, 4, 3⟩,
  ⟨.rel3, 0x33, 1, 1, 0x6, .cycle, 6, 0⟩,
  ⟨.ctl0, 0x40, 1, 1, 0x7, .cycle, 7, 3⟩,
  ⟨.ctlMb, 0x41, 1, 1, 0x7, .cycle, 0, 1⟩,
  ⟨.ctlShare, 0x42, 1, 1, 0x7, .cycle, 0, 0⟩,
  ⟨.ctlAcc, 0x44, 5, 1, 0x7, .cycle, 0, 0⟩,
  ⟨.ctlUpd, 0x49, 1, 1, 0x7, .cycle, 0, 2⟩,
  ⟨.ctlDump, 0x4a, 1, 1, 0x7, .cycle, 0, 1⟩,
  ⟨.ctlStr, 0x4f, 1, 1, 0x7, .cycle, 3, 2⟩,
  ⟨.arr0, 0x100, 18, 16, 0x10, .operation, 8, 7⟩,
  ⟨.vec, 0x101, 18, 16, 0x11, .operation, 4, 1⟩,
  ⟨.seq, 0x102, 18, 16, 0x12, .operation, 0, 0⟩,
  ⟨.spd3, 0x103, 18, 16, 0x13, .operation, 6, 7⟩,
  ⟨.spd4, 0x104, 18, 16, 0x13, .operation, 7, 3⟩,
  ⟨.spd5, 0x105, 18, 16, 0x13, .operation, 4, 3⟩,
  ⟨.arr6, 0x106, 18, 16, 0x10, .operation, 4, 1⟩,
  ⟨.arr7, 0x107, 18, 16, 0x10, .operation, 0, 0⟩,
  ⟨.mt0, 0x300, 1, 1, 0x20, .cycle, 5, 4⟩,
  ⟨.mt1, 0x301, 1, 1, 0x20, .cycle, 8, 3⟩,
  ⟨.mt2, 0x302, 1, 1, 0x20, .cycle, 0, 0⟩,
  ⟨.mtCtrl, 0x304, 3, 1, 0x20, .cycle, 0, 0⟩,
  ⟨.mtRng, 0x310, 18, 1, 0x20, .cycle, 0, 1⟩,
  ⟨.fab0, 0x380, 1, 1, 0x21, .cycle, 7, 6⟩,
  ⟨.fab1, 0x381, 1, 1, 0x21, .cycle, 0, 0⟩,
  ⟨.fab2, 0x382, 1, 1, 0x21, .cycle, 0, 0⟩,
  ⟨.hif0, 0x400, 1, 1, 0x22, .cycle, 6, 4⟩,
  ⟨.hifFn, 0x410, 16, 1, 0x22, .cycle, 8, 6⟩,
  ⟨.plm0, 0x480, 1, 1, 0x23, .cycle, 8, 4⟩,
  ⟨.plmPort, 0x481, 6, 1, 0x23, .cycle, 8, 7⟩,
  ⟨.plmComm, 0x488, 1, 1, 0x23, .cycle, 0, 0⟩,
  ⟨.isp0, 0x500, 1, 1, 0x24, .cycle, 6, 2⟩,
  ⟨.ispPort, 0x501, 8, 1, 0x24, .cycle, 6, 6⟩,
  ⟨.ispCam, 0x510, 16, 1, 0x24, .frame, 8, 4⟩,
  ⟨.ispPipe, 0x520, 16, 1, 0x24, .frame, 0, 0⟩,
  ⟨.ispBus, 0x540, 4, 1, 0x24, .cycle, 5, 5⟩,
  ⟨.dec0, 0x580, 1, 1, 0x25, .cycle, 8, 0⟩,
  ⟨.dec1, 0x581, 1, 1, 0x25, .cycle, 0, 0⟩,
  ⟨.decEng, 0x588, 4, 1, 0x25, .cycle, 5, 0⟩,
  ⟨.decCtx, 0x590, 32, 1, 0x25, .frame, 8, 4⟩,
  ⟨.xfm, 0x5c0, 32, 1, 0x26, .frame, 7, 3⟩,
  ⟨.brz0, 0x600, 1, 1, 0x27, .cycle, 5, 3⟩,
  ⟨.brz1, 0x601, 1, 1, 0x27, .cycle, 8, 4⟩,
  ⟨.brz2, 0x602, 1, 1, 0x27, .cycle, 5, 4⟩,
  ⟨.brz4, 0x604, 1, 1, 0x27, .cycle, 0, 1⟩,
  ⟨.brzAg, 0x610, 16, 1, 0x27, .frame, 4, 2⟩]

/-- Block registers of a mgt0 page (02_register_pages.md R59). -/
def regsMgt0 : List RegDef := [
  -- MGT_TXG_CTRL
  ⟨0x200, 16, 0x10, 1, 0x0, .any, [⟨1, 0, .wo, 0, 0, [(0, 2)]⟩, ⟨4, 2, .rw, 0, 0, [(0, 3)]⟩, ⟨15, 8, .rw, 0, 0, []⟩]⟩,
  -- MGT_TXG_DTIME_LO
  ⟨0x204, 16, 0x10, 1, 0x0, .any, [⟨31, 0, .rw, 0, 0, []⟩]⟩,
  -- MGT_TXG_DTIME_HI
  ⟨0x208, 16, 0x10, 1, 0x0, .any, [⟨31, 0, .rw, 0, 0, []⟩]⟩,
  -- MGT_TXG_STATUS
  ⟨0x20c, 16, 0x10, 1, 0x0, .any, [⟨6, 0, .ro, 0, 0, []⟩, ⟨8, 7, .ro, 0, 0, []⟩, ⟨9, 9, .ro, 0, 0, []⟩]⟩]

/-- Block registers of a mgtSnap page (02_register_pages.md R63). -/
def regsMgtSnap : List RegDef := [
  -- MGT_SNAP
  ⟨0x100, 1, 0x0, 1, 0x0, .any, [⟨0, 0, .wo, 0, 0, []⟩]⟩,
  -- MGT_SNAP_DTIME_LO
  ⟨0x108, 1, 0x0, 1, 0x0, .any, [⟨31, 0, .ro, 0, 0, []⟩]⟩,
  -- MGT_SNAP_DTIME_HI
  ⟨0x10c, 1, 0x0, 1, 0x0, .any, [⟨31, 0, .ro, 0, 0, []⟩]⟩]

/-- Block registers of a mgtTel page (19_test_debug.md R504). -/
def regsMgtTel : List RegDef := [
  -- MGT_TEL_TEMP
  ⟨0x100, 1, 0x0, 1, 0x0, .any, [⟨7, 0, .ro, 0, 0, []⟩, ⟨15, 8, .ro, 0, 0, []⟩, ⟨16, 16, .ro, 0, 0, []⟩, ⟨17, 17, .ro, 0, 0, []⟩]⟩,
  -- MGT_TEL_DOM_ON
  ⟨0x104, 1, 0x0, 1, 0x0, .any, [⟨30, 0, .ro, 0x40000000, 0, []⟩]⟩,
  -- MGT_TEL_DOM_RET
  ⟨0x108, 1, 0x0, 1, 0x0, .any, [⟨30, 0, .ro, 0, 0, []⟩]⟩,
  -- MGT_TEL_POWER
  ⟨0x10c, 1, 0x0, 1, 0x0, .any, [⟨15, 0, .ro, 0, 0, []⟩, ⟨31, 16, .rc, 0, 0, []⟩]⟩,
  -- MGT_TEL_IBI_EN
  ⟨0x110, 1, 0x0, 1, 0x0, .any, [⟨5, 0, .rw, 0, 0, []⟩]⟩]

/-- Block registers of a tstMode page (19_test_debug.md R498). -/
def regsTstMode : List RegDef := [
  -- TST_MODE
  ⟨0x100, 1, 0x0, 1, 0x0, .any, [⟨0, 0, .ro, 0, 0, []⟩, ⟨1, 1, .ro, 0, 0, []⟩]⟩]

/-- Block registers of a tstLane page (19_test_debug.md R498). -/
def regsTstLane : List RegDef := [
  -- TST_LANE_CFG
  ⟨0x100, 2, 0x4, 1, 0x0, .any, [⟨1, 0, .rwt, 0, 0, []⟩, ⟨2, 2, .rwt, 0, 0, []⟩, ⟨3, 3, .rwt, 0, 0, []⟩, ⟨4, 4, .rwt, 0, 0, []⟩, ⟨6, 5, .rwt, 0, 0, [(0, 2)]⟩, ⟨7, 7, .wo, 0, 0, []⟩]⟩,
  -- TST_LANE_STAT
  ⟨0x108, 2, 0x4, 1, 0x0, .any, [⟨0, 0, .ro, 0, 0, []⟩, ⟨15, 8, .ro, 0, 0, []⟩]⟩,
  -- TST_LANE_ERR_LO
  ⟨0x110, 2, 0x8, 1, 0x0, .any, [⟨31, 0, .ro, 0, 0, []⟩]⟩,
  -- TST_LANE_ERR_HI
  ⟨0x114, 2, 0x8, 1, 0x0, .any, [⟨31, 0, .ro, 0, 0, []⟩]⟩,
  -- TST_LANE_BITS_LO
  ⟨0x120, 2, 0x8, 1, 0x0, .any, [⟨31, 0, .ro, 0, 0, []⟩]⟩,
  -- TST_LANE_BITS_HI
  ⟨0x124, 2, 0x8, 1, 0x0, .any, [⟨31, 0, .ro, 0, 0, []⟩]⟩,
  -- TST_FLIT_CFG
  ⟨0x140, 1, 0x0, 1, 0x0, .any, [⟨0, 0, .rwt, 0, 0, []⟩, ⟨1, 1, .rwt, 0, 0, []⟩, ⟨16, 2, .rwt, 0, 0, []⟩, ⟨31, 24, .rwt, 0x10, 0, [(1, 255)]⟩]⟩]

/-- Block registers of a tstMem page (19_test_debug.md R498). -/
def regsTstMem : List RegDef := [
  -- TST_MEM_CFG
  ⟨0x100, 1, 0x0, 1, 0x0, .any, [⟨1, 0, .rwt, 0, 0, [(0, 2)]⟩, ⟨3, 2, .rwt, 0, 0, []⟩, ⟨4, 4, .wo, 0, 0, []⟩]⟩,
  -- TST_MEM_FIRST
  ⟨0x104, 1, 0x0, 1, 0x0, .any, [⟨16, 0, .rwt, 0, 0, []⟩]⟩,
  -- TST_MEM_COUNT
  ⟨0x108, 1, 0x0, 1, 0x0, .any, [⟨16, 0, .rwt, 0, 0, []⟩]⟩,
  -- TST_MEM_STATUS
  ⟨0x10c, 1, 0x0, 1, 0x0, .any, [⟨1, 0, .ro, 0, 0, []⟩, ⟨4, 2, .ro, 0, 0, []⟩, ⟨28, 12, .ro, 0, 0, []⟩]⟩]

/-- Block registers of a tstCsi page (19_test_debug.md R498). -/
def regsTstCsi : List RegDef := [
  -- TST_CSI_CFG
  ⟨0x100, 16, 0x4, 1, 0x0, .any, [⟨1, 0, .rwt, 0, 0, [(0, 2)]⟩, ⟨17, 2, .rwt, 0, 0, []⟩]⟩,
  -- TST_CSI_ERR
  ⟨0x140, 16, 0x4, 1, 0x0, .any, [⟨31, 0, .ro, 0, 0, []⟩]⟩]

/-- Block registers of a pwr page (18_clocks_power.md R488). -/
def regsPwr : List RegDef := [
  -- PWR_DOM_CTRL
  ⟨0x100, 31, 0x4, 1, 0x0, .any, [⟨1, 0, .rw, 2, 0, [(0, 2)]⟩]⟩,
  -- PWR_DOM_STATUS
  ⟨0x200, 31, 0x4, 1, 0x0, .any, [⟨1, 0, .ro, 0, 0, []⟩, ⟨3, 2, .ro, 0, 0, []⟩, ⟨4, 4, .ro, 0, 0, []⟩, ⟨7, 5, .ro, 0, 0, []⟩]⟩,
  -- PWR_WAKE_LO
  ⟨0x300, 1, 0x0, 1, 0x0, .any, [⟨31, 0, .rw, 0, 0, []⟩]⟩,
  -- PWR_WAKE_HI
  ⟨0x304, 1, 0x0, 1, 0x0, .any, [⟨31, 0, .rw, 0, 0, []⟩]⟩,
  -- PWR_WAKE_CTRL
  ⟨0x308, 1, 0x0, 1, 0x0, .any, [⟨0, 0, .rw, 0, 0, []⟩]⟩]

/-- Block registers of a clk page (18_clocks_power.md R489). -/
def regsClk : List RegDef := [
  -- CLK_STATUS
  ⟨0x100, 1, 0x0, 1, 0x0, .any, [⟨0, 0, .ro, 0, 0, []⟩, ⟨1, 1, .ro, 0, 0, []⟩, ⟨2, 2, .ro, 0, 0, []⟩, ⟨3, 3, .ro, 0, 0, []⟩]⟩,
  -- CLK_DTIME_LO
  ⟨0x104, 1, 0x0, 1, 0x0, .any, [⟨31, 0, .ro, 0, 0, []⟩]⟩,
  -- CLK_DTIME_HI
  ⟨0x108, 1, 0x0, 1, 0x0, .any, [⟨31, 0, .ro, 0, 0, []⟩]⟩,
  -- CLK_TSENSE
  ⟨0x140, 8, 0x4, 1, 0x0, .any, [⟨7, 0, .ro, 0, 0, []⟩, ⟨8, 8, .ro, 0, 0, []⟩]⟩]

/-- Block registers of a secBoot page (17_security.md R460). -/
def regsSecBoot : List RegDef := [
  -- SEC_BOOT
  ⟨0x100, 1, 0x0, 1, 0x0, .any, [⟨2, 0, .ro, 0, 0, []⟩, ⟨6, 3, .ro, 0, 0, []⟩, ⟨7, 7, .ro, 0, 0, []⟩, ⟨8, 8, .ro, 0, 0, []⟩, ⟨9, 9, .ro, 0, 0, []⟩, ⟨31, 16, .ro, 0, 0, []⟩]⟩,
  -- SEC_AR
  ⟨0x104, 1, 0x0, 1, 0x0, .any, [⟨7, 0, .ro, 0, 0, []⟩, ⟨15, 8, .ro, 0, 0, []⟩, ⟨23, 16, .ro, 0, 0, []⟩, ⟨27, 24, .ro, 0, 0, []⟩]⟩,
  -- SEC_DEVID
  ⟨0x110, 8, 0x4, 1, 0x0, .any, [⟨31, 0, .ro, 0, 0, []⟩]⟩,
  -- SEC_ID_ADDR
  ⟨0x140, 1, 0x0, 1, 0x0, .any, [⟨10, 0, .rw, 0, 0, [(0, 1315)]⟩]⟩,
  -- SEC_ID_DATA
  ⟨0x144, 1, 0x0, 1, 0x0, .any, [⟨31, 0, .ro, 0, 0, []⟩]⟩]

/-- Block registers of a secKey page (17_security.md R461). -/
def regsSecKey : List RegDef := [
  -- SEC_KEY
  ⟨0x100, 16, 0x4, 1, 0x0, .any, [⟨2, 0, .ro, 1, 0, []⟩, ⟨3, 3, .ro, 0, 0, []⟩, ⟨4, 4, .ro, 0, 0, []⟩, ⟨31, 16, .ro, 0, 0, []⟩]⟩,
  -- SEC_ROT_CMD
  ⟨0x140, 1, 0x0, 1, 0x0, .any, [⟨3, 0, .wo, 0, 0, []⟩, ⟨4, 4, .wo, 0, 0, []⟩]⟩,
  -- SEC_ROT_STATUS
  ⟨0x144, 1, 0x0, 1, 0x0, .any, [⟨2, 0, .ro, 0, 0, []⟩, ⟨3, 3, .ro, 0, 0, []⟩, ⟨7, 4, .ro, 0, 0, []⟩]⟩,
  -- SEC_ROT_PROG
  ⟨0x148, 1, 0x0, 1, 0x0, .any, [⟨16, 0, .ro, 0, 0, []⟩, ⟨25, 17, .ro, 0, 0, []⟩]⟩,
  -- SEC_ROT_PACE
  ⟨0x14c, 1, 0x0, 1, 0x0, .any, [⟨15, 0, .rwt, 0x400, 0, [(256, 65535)]⟩]⟩]

/-- Block registers of a secAtt page (17_security.md R462). -/
def regsSecAtt : List RegDef := [
  -- SEC_ATT_NONCE
  ⟨0x100, 8, 0x4, 1, 0x0, .any, [⟨31, 0, .rw, 0, 0, []⟩]⟩,
  -- SEC_ATT_CMD
  ⟨0x120, 1, 0x0, 1, 0x0, .any, [⟨0, 0, .wo, 0, 0, []⟩]⟩,
  -- SEC_ATT_STATUS
  ⟨0x124, 1, 0x0, 1, 0x0, .any, [⟨1, 0, .ro, 0, 0, []⟩, ⟨6, 2, .ro, 0, 0, []⟩]⟩,
  -- SEC_ATT_ADDR
  ⟨0x128, 1, 0x0, 1, 0x0, .any, [⟨9, 0, .rw, 0, 0, []⟩]⟩,
  -- SEC_ATT_DATA
  ⟨0x12c, 1, 0x0, 1, 0x0, .any, [⟨31, 0, .ro, 0, 0, []⟩]⟩]

/-- Block registers of a secConf page (17_security.md R463). -/
def regsSecConf : List RegDef := [
  -- SEC_CONF
  ⟨0x100, 1, 0x0, 1, 0x0, .any, [⟨15, 0, .ro, 0, 0, []⟩, ⟨31, 16, .ro, 0, 0, []⟩]⟩,
  -- SEC_CONF_CMD
  ⟨0x104, 1, 0x0, 1, 0x0, .any, [⟨3, 0, .wo, 0, 0, []⟩, ⟨5, 4, .wo, 0, 0, [(1, 2)]⟩]⟩,
  -- SEC_SCRUB
  ⟨0x108, 1, 0x0, 1, 0x0, .any, [⟨15, 0, .ro, 0, 0, []⟩]⟩]

/-- Block registers of a secRec page (17_security.md R463). -/
def regsSecRec : List RegDef := [
  -- SEC_REC_DA_LO
  ⟨0x100, 1, 0x0, 1, 0x0, .any, [⟨31, 9, .rw, 0, 0, []⟩]⟩,
  -- SEC_REC_DA_HI
  ⟨0x104, 1, 0x0, 1, 0x0, .any, [⟨15, 0, .rw, 0, 0, []⟩]⟩,
  -- SEC_REC_LEN
  ⟨0x108, 1, 0x0, 1, 0x0, .any, [⟨23, 0, .rw, 0, 0, []⟩]⟩,
  -- SEC_REC_CMD
  ⟨0x10c, 1, 0x0, 1, 0x0, .any, [⟨1, 0, .wo, 0, 0, [(1, 2)]⟩]⟩,
  -- SEC_REC_STATUS
  ⟨0x110, 1, 0x0, 1, 0x0, .any, [⟨1, 0, .ro, 0, 0, []⟩, ⟨5, 2, .ro, 0, 0, []⟩]⟩]

/-- Block registers of a rel0 page (16_reliability.md R428). -/
def regsRel0 : List RegDef := [
  -- REL_SVC
  ⟨0x100, 1, 0x0, 1, 0x0, .any, [⟨0, 0, .w1s, 0, 0, []⟩, ⟨1, 1, .w1s, 0, 0, []⟩, ⟨2, 2, .w1s, 0, 0, []⟩, ⟨3, 3, .w1s, 0, 0, []⟩, ⟨4, 4, .w1s, 0, 0, []⟩, ⟨5, 5, .w1s, 0, 0, []⟩, ⟨6, 6, .w1s, 0, 0, []⟩, ⟨31, 31, .ro, 0, 0, []⟩]⟩,
  -- REL_THR
  ⟨0x104, 1, 0x0, 1, 0x0, .any, [⟨7, 0, .rw, 0x40, 0, []⟩, ⟨11, 8, .rw, 2, 0, [(1, 15)]⟩, ⟨23, 16, .rw, 0x18, 0, []⟩, ⟨31, 24, .rw, 0xa8, 0, []⟩]⟩,
  -- REL_INV
  ⟨0x108, 1, 0x0, 1, 0x0, .any, [⟨4, 0, .ro, 0x10, 0, []⟩, ⟨6, 5, .ro, 2, 0, []⟩, ⟨9, 7, .ro, 3, 0, []⟩, ⟨10, 10, .ro, 1, 0, []⟩, ⟨22, 16, .ro, 0, 0, []⟩, ⟨29, 23, .ro, 0, 0, []⟩]⟩]

/-- Block registers of a rel1 page (16_reliability.md R429). -/
def regsRel1 : List RegDef := [
  -- REL_CORE
  ⟨0x100, 18, 0x4, 1, 0x0, .any, [⟨1, 0, .ro, 0, 0, []⟩, ⟨2, 2, .ro, 0, 0, []⟩, ⟨3, 3, .ro, 0, 0, []⟩, ⟨6, 4, .ro, 4, 0, []⟩, ⟨10, 8, .ro, 0, 0, []⟩]⟩,
  -- REL_CCORE
  ⟨0x180, 4, 0x4, 1, 0x0, .any, [⟨1, 0, .ro, 0, 0, []⟩, ⟨5, 2, .ro, 0, 0, []⟩, ⟨15, 8, .ro, 0, 0, []⟩]⟩,
  -- REL_MEM
  ⟨0x1a0, 3, 0x4, 1, 0x0, .any, [⟨7, 0, .ro, 0, 0, []⟩, ⟨15, 8, .ro, 0, 0, []⟩, ⟨16, 16, .ro, 0, 0, []⟩]⟩,
  -- REL_MEM_FAIL
  ⟨0x1b0, 3, 0x4, 1, 0x0, .any, [⟨31, 0, .ro, 0, 0, []⟩]⟩,
  -- REL_D2D
  ⟨0x1c0, 1, 0x0, 1, 0x0, .any, [⟨7, 0, .ro, 0, 0, []⟩, ⟨15, 8, .ro, 0, 0, []⟩]⟩]

/-- Block registers of a rel2 page (16_reliability.md R430). -/
def regsRel2 : List RegDef := [
  -- REL_LOG_SEQ
  ⟨0x100, 1, 0x0, 1, 0x0, .any, [⟨31, 0, .ro, 0, 0, []⟩]⟩,
  -- REL_LOG_SEL
  ⟨0x104, 1, 0x0, 1, 0x0, .any, [⟨11, 0, .rw, 0, 0, []⟩]⟩,
  -- REL_LOG_DATA
  ⟨0x140, 16, 0x4, 1, 0x0, .any, [⟨31, 0, .ro, 0, 0, []⟩]⟩,
  -- REL_LOG_STATUS
  ⟨0x180, 1, 0x0, 1, 0x0, .any, [⟨6, 0, .ro, 0, 0, []⟩, ⟨7, 7, .ro, 0, 0, []⟩, ⟨8, 8, .ro, 0, 0, []⟩, ⟨31, 16, .ro, 0, 0, []⟩]⟩]

/-- Block registers of a rel3 page (16_reliability.md R431). -/
def regsRel3 : List RegDef := [
  -- REL_FAULT_LO
  ⟨0x108, 13, 0x8, 1, 0x0, .any, [⟨31, 0, .ro, 0, 0, []⟩]⟩,
  -- REL_FAULT_HI
  ⟨0x10c, 13, 0x8, 1, 0x0, .any, [⟨31, 0, .ro, 0, 0, []⟩]⟩]

/-- Block registers of a ctl0 page (14_control_scheduling.md R371). -/
def regsCtl0 : List RegDef := [
  -- CTL_STATUS
  ⟨0x100, 1, 0x0, 1, 0x0, .any, [⟨3, 0, .ro, 0, 0, []⟩, ⟨5, 4, .ro, 0, 0, []⟩, ⟨7, 6, .ro, 1, 0, []⟩, ⟨8, 8, .ro, 0, 0, []⟩, ⟨31, 16, .ro, 0, 0, []⟩]⟩,
  -- CTL_XCOPY
  ⟨0x104, 1, 0x0, 1, 0x0, .ctl, [⟨4, 0, .wo, 0, 0, [(0, 17)]⟩, ⟨9, 5, .wo, 0, 0, [(0, 17)]⟩, ⟨23, 10, .wo, 0, 0, []⟩, ⟨31, 24, .wo, 0, 0, []⟩]⟩]

/-- Block registers of a ctlMb page (14_control_scheduling.md R371). -/
def regsCtlMb : List RegDef := [
  -- CTL_MB_CMD
  ⟨0x100, 1, 0x0, 1, 0x0, .any, [⟨1, 0, .wo, 0, 0, [(1, 2)]⟩, ⟨5, 2, .wo, 0, 0, []⟩, ⟨8, 6, .wo, 0, 0, []⟩]⟩,
  -- CTL_MB_ARG0
  ⟨0x104, 1, 0x0, 1, 0x0, .any, [⟨4, 0, .rw, 1, 0, [(1, 16)]⟩, ⟨11, 5, .rw, 1, 0, [(1, 48)]⟩, ⟨18, 12, .rw, 1, 0, [(1, 64)]⟩, ⟨25, 19, .rw, 1, 0, [(1, 64)]⟩]⟩,
  -- CTL_MB_ARG1
  ⟨0x108, 1, 0x0, 1, 0x0, .any, [⟨12, 0, .rw, 0, 0, [(0, 4096)]⟩, ⟨25, 16, .rw, 0x64, 0, [(1, 1000)]⟩]⟩,
  -- CTL_MB_DA_LO
  ⟨0x10c, 1, 0x0, 1, 0x0, .any, [⟨31, 9, .rw, 0, 0, []⟩]⟩,
  -- CTL_MB_DA_HI
  ⟨0x110, 1, 0x0, 1, 0x0, .any, [⟨15, 0, .rw, 0, 0, []⟩]⟩,
  -- CTL_MB_STATUS
  ⟨0x114, 1, 0x0, 1, 0x0, .any, [⟨0, 0, .ro, 0, 0, []⟩, ⟨3, 1, .ro, 0, 0, []⟩]⟩,
  -- CTL_CX_INFO
  ⟨0x200, 128, 0x4, 1, 0x0, .any, [⟨0, 0, .ro, 0, 0, []⟩, ⟨1, 1, .ro, 0, 0, []⟩, ⟨3, 2, .ro, 0, 0, []⟩, ⟨8, 4, .ro, 0, 0, []⟩]⟩]

/-- Block registers of a ctlShare page (14_control_scheduling.md R372). -/
def regsCtlShare : List RegDef := [
  -- CTL_TSLICE
  ⟨0x100, 1, 0x0, 1, 0x0, .any, [⟨13, 0, .rw, 0x64, 0, [(10, 10000)]⟩]⟩,
  -- CTL_TEN_SHARE
  ⟨0x200, 16, 0x4, 1, 0x0, .any, [⟨9, 0, .rwt, 0x64, 0, [(1, 1000)]⟩]⟩,
  -- CTL_CX_SHARE
  ⟨0x300, 128, 0x4, 1, 0x0, .any, [⟨9, 0, .ro, 0x64, 0, []⟩]⟩]

/-- Block registers of a ctlAcc page (14_control_scheduling.md R372). -/
def regsCtlAcc : List RegDef := [
  -- CTL_ACC_LO
  ⟨0x100, 128, 0x8, 1, 0x0, .any, [⟨31, 0, .ro, 0, 0, []⟩]⟩,
  -- CTL_ACC_HI
  ⟨0x104, 128, 0x8, 1, 0x0, .any, [⟨31, 0, .ro, 0, 0, []⟩]⟩,
  -- CTL_ACC_T_LO
  ⟨0x500, 16, 0x8, 1, 0x0, .any, [⟨31, 0, .ro, 0, 0, []⟩]⟩,
  -- CTL_ACC_T_HI
  ⟨0x504, 16, 0x8, 1, 0x0, .any, [⟨31, 0, .ro, 0, 0, []⟩]⟩]

/-- Block registers of a ctlUpd page (14_control_scheduling.md R373). -/
def regsCtlUpd : List RegDef := [
  -- CTL_UPD_DA_LO
  ⟨0x100, 1, 0x0, 1, 0x0, .any, [⟨31, 9, .rw, 0, 0, []⟩]⟩,
  -- CTL_UPD_DA_HI
  ⟨0x104, 1, 0x0, 1, 0x0, .any, [⟨15, 0, .rw, 0, 0, []⟩]⟩,
  -- CTL_UPD_LEN
  ⟨0x108, 1, 0x0, 1, 0x0, .any, [⟨23, 0, .rw, 0, 0, []⟩]⟩,
  -- CTL_UPD_CMD
  ⟨0x10c, 1, 0x0, 1, 0x0, .any, [⟨1, 0, .wo, 0, 0, [(1, 3)]⟩]⟩,
  -- CTL_UPD_WAIT
  ⟨0x110, 1, 0x0, 1, 0x0, .any, [⟨15, 0, .rw, 0x3e8, 0, []⟩]⟩,
  -- CTL_UPD_STATUS
  ⟨0x114, 1, 0x0, 1, 0x0, .any, [⟨2, 0, .ro, 0, 0, []⟩, ⟨6, 3, .ro, 0, 0, []⟩, ⟨9, 7, .ro, 0, 0, []⟩]⟩]

/-- Block registers of a ctlDump page (14_control_scheduling.md R373). -/
def regsCtlDump : List RegDef := [
  -- CTL_DUMP_LO
  ⟨0x100, 1, 0x0, 1, 0x0, .any, [⟨31, 9, .rw, 0, 0, []⟩]⟩,
  -- CTL_DUMP_HI
  ⟨0x104, 1, 0x0, 1, 0x0, .any, [⟨15, 0, .rw, 0, 0, []⟩]⟩,
  -- CTL_DUMP_STATUS
  ⟨0x108, 1, 0x0, 1, 0x0, .any, [⟨0, 0, .rws, 0, 0, []⟩, ⟨2, 1, .rws, 0, 0, []⟩, ⟨31, 16, .rws, 0, 0, []⟩]⟩,
  -- CTL_DUMP_AON_ADDR
  ⟨0x10c, 1, 0x0, 1, 0x0, .any, [⟨9, 0, .rw, 0, 0, []⟩]⟩,
  -- CTL_DUMP_AON_DATA
  ⟨0x110, 1, 0x0, 1, 0x0, .any, [⟨31, 0, .ro, 0, 0, []⟩]⟩]

/-- Block registers of a ctlStr page (08_sequence_streams.md R208). -/
def regsCtlStr : List RegDef := [
  -- STR_SEL
  ⟨0x100, 1, 0x0, 1, 0x0, .any, [⟨11, 0, .rw, 0, 0, []⟩]⟩,
  -- STR_STAGE
  ⟨0x110, 4, 0x4, 1, 0x0, .any, [⟨31, 0, .rw, 0, 0, []⟩]⟩,
  -- STR_CMD
  ⟨0x120, 1, 0x0, 1, 0x0, .any, [⟨2, 0, .wo, 0, 0, [(1, 6)]⟩]⟩,
  -- STR_STATUS
  ⟨0x124, 1, 0x0, 1, 0x0, .any, [⟨0, 0, .ro, 0, 0, []⟩, ⟨3, 1, .ro, 0, 0, []⟩]⟩,
  -- STR_PART
  ⟨0x400, 128, 0x4, 1, 0x0, .any, [⟨11, 0, .rw, 0, 0, []⟩, ⟨24, 12, .rw, 0, 0, [(0, 4096)]⟩, ⟨26, 25, .rw, 3, 0, []⟩]⟩]

/-- Block registers of a arr0 page (03_gale_array.md R93). -/
def regsArr0 : List RegDef := [
  -- ARR_GANG
  ⟨0x100, 1, 0x0, 1, 0x0, .any, [⟨3, 0, .rwt, 0, 0, []⟩, ⟨6, 4, .rwt, 0, 0, [(0, 4)]⟩, ⟨9, 8, .rwt, 0, 0, []⟩, ⟨11, 10, .rwt, 0, 0, []⟩]⟩,
  -- ARR_OUT_CFG
  ⟨0x104, 1, 0x0, 1, 0x0, .any, [⟨5, 0, .rwt, 0, 0, []⟩]⟩,
  -- ARR_WDOG
  ⟨0x108, 1, 0x0, 1, 0x0, .any, [⟨23, 0, .rwt, 0x19000, 0, []⟩]⟩,
  -- ARR_BARRIER_LIMIT
  ⟨0x10c, 1, 0x0, 1, 0x0, .any, [⟨23, 0, .rwt, 0x19000, 0, []⟩]⟩,
  -- ARR_STATUS
  ⟨0x110, 1, 0x0, 1, 0x0, .any, [⟨2, 0, .ro, 0, 0, []⟩, ⟨5, 3, .ro, 0, 0, []⟩, ⟨31, 16, .ro, 0, 0, []⟩]⟩,
  -- ARR_CHK_LOG
  ⟨0x114, 1, 0x0, 1, 0x0, .any, [⟨4, 0, .ro, 0x1f, 0, []⟩, ⟨9, 5, .ro, 0x1f, 0, []⟩, ⟨11, 10, .ro, 0, 0, []⟩, ⟨12, 12, .ro, 0, 0, []⟩, ⟨15, 13, .ro, 0, 0, []⟩, ⟨31, 16, .ro, 0, 0, []⟩]⟩,
  -- ARR_FAULT_INJ
  ⟨0x118, 1, 0x0, 1, 0x0, .debug, [⟨4, 0, .wo, 0, 0, [(0, 17)]⟩, ⟨9, 5, .wo, 0, 0, [(0, 17)]⟩, ⟨11, 10, .wo, 0, 0, [(0, 2)]⟩]⟩]

/-- Block registers of a vec page (08_sequence_streams.md R210). -/
def regsVec : List RegDef := [
  -- VEC_SCAN_STATUS
  ⟨0x100, 1, 0x0, 1, 0x0, .any, [⟨4, 0, .ro, 0, 0, []⟩, ⟨9, 5, .ro, 0, 0, []⟩, ⟨10, 10, .ro, 0, 0, []⟩, ⟨23, 12, .ro, 0, 0, []⟩]⟩,
  -- VEC_SCAN_WAIT_LIMIT
  ⟨0x104, 1, 0x0, 1, 0x0, .any, [⟨31, 0, .rwt, 0x1000000, 0, []⟩]⟩]

/-- Block registers of a seq page (03_gale_array.md R96). -/
def regsSeq : List RegDef := [
  -- SEQ_CTRL
  ⟨0x100, 1, 0x0, 1, 0x0, .any, [⟨0, 0, .wo, 0, 0, []⟩, ⟨1, 1, .rw, 0, 0, []⟩]⟩,
  -- SEQ_ENTRY
  ⟨0x104, 1, 0x0, 1, 0x0, .any, [⟨13, 0, .rwt, 0, 0, []⟩]⟩,
  -- SEQ_STATUS
  ⟨0x108, 1, 0x0, 1, 0x0, .any, [⟨13, 0, .ro, 0, 0, []⟩, ⟨18, 16, .ro, 0, 0, []⟩, ⟨24, 24, .ro, 1, 0, []⟩]⟩,
  -- SEQ_SEM
  ⟨0x200, 64, 0x4, 1, 0x0, .any, [⟨15, 0, .rw, 0, 0, []⟩, ⟨16, 16, .w1c, 0, 0, []⟩]⟩,
  -- SEQ_MODEL
  ⟨0x300, 32, 0x4, 1, 0x0, .any, [⟨13, 0, .rwt, 0, 0, []⟩, ⟨29, 16, .rwt, 0, 0, []⟩, ⟨31, 31, .rwt, 0, 0, []⟩]⟩]

/-- Block registers of a spd3 page (05_scratchpads.md R147). -/
def regsSpd3 : List RegDef := [
  -- SPD_PAR_THR
  ⟨0x100, 1, 0x0, 1, 0x0, .any, [⟨15, 0, .rwt, 8, 0, []⟩]⟩,
  -- SPD_BANK_SWAP
  ⟨0x104, 1, 0x0, 1, 0x0, .any, [⟨6, 0, .wo, 0, 0, [(0, 95)]⟩, ⟨31, 31, .wo, 0, 0, []⟩]⟩,
  -- SPD_RET_MASK
  ⟨0x110, 1, 0x0, 1, 0x0, .any, [⟨23, 0, .rwt, 0, 0, []⟩]⟩,
  -- SPD_BANK_MAP
  ⟨0x200, 96, 0x4, 1, 0x0, .any, [⟨6, 0, .rwt, 0, 1, [(0, 99)]⟩]⟩,
  -- SPD_PAR_CNT
  ⟨0x400, 100, 0x4, 1, 0x0, .any, [⟨15, 0, .rws, 0, 0, []⟩]⟩,
  -- SPD_RANGE_LO
  ⟨0x600, 16, 0x8, 1, 0x0, .any, [⟨15, 0, .rwt, 0, 0, []⟩, ⟨31, 16, .rwt, 0, 0, []⟩]⟩,
  -- SPD_RANGE_HI
  ⟨0x604, 16, 0x8, 1, 0x0, .any, [⟨6, 0, .rwt, 0, 0, []⟩, ⟨7, 7, .rwt, 0, 0, []⟩]⟩]

/-- Block registers of a spd4 page (05_scratchpads.md R149). -/
def regsSpd4 : List RegDef := [
  -- SPD_DMA_CTRL
  ⟨0x100, 4, 0x80, 1, 0x0, .any, [⟨0, 0, .rw, 0, 0, []⟩]⟩,
  -- SPD_DMA_STATUS
  ⟨0x104, 4, 0x80, 1, 0x0, .any, [⟨1, 0, .ro, 0, 0, []⟩, ⟨5, 2, .ro, 0, 0, []⟩, ⟨10, 8, .ro, 0, 0, []⟩, ⟨31, 16, .ro, 0, 0, []⟩]⟩,
  -- SPD_DMA_ROWS
  ⟨0x108, 4, 0x80, 1, 0x0, .any, [⟨15, 0, .ro, 0, 0, []⟩]⟩,
  -- SPD_DMA_SUBMIT_CTX
  ⟨0x10c, 4, 0x80, 1, 0x0, .ctl, [⟨6, 0, .rw, 0, 0, []⟩]⟩,
  -- SPD_DMA_SUBMIT
  ⟨0x140, 4, 0x80, 16, 0x4, .ctl, [⟨31, 0, .wo, 0, 0, []⟩]⟩,
  -- SPD_DMA_WAIT_LIMIT
  ⟨0x300, 1, 0x0, 1, 0x0, .any, [⟨31, 0, .rwt, 0x1000000, 0, []⟩]⟩]

/-- Block registers of a spd5 page (05_scratchpads.md R151). -/
def regsSpd5 : List RegDef := [
  -- SPD_REGION_GEOM
  ⟨0x100, 64, 0x10, 1, 0x0, .any, [⟨15, 0, .rwt, 0, 0, []⟩, ⟨31, 16, .rwt, 1, 0, [(1, 49152)]⟩]⟩,
  -- SPD_REGION_OWNER
  ⟨0x104, 64, 0x10, 1, 0x0, .any, [⟨6, 0, .rwt, 0, 0, []⟩, ⟨7, 7, .rwt, 0, 0, []⟩, ⟨9, 8, .rwt, 0, 0, [(0, 2)]⟩, ⟨13, 10, .rwt, 0, 0, [(0, 6)]⟩, ⟨21, 14, .rwt, 0, 0, []⟩]⟩,
  -- SPD_REGION_HEAD
  ⟨0x108, 64, 0x10, 1, 0x0, .any, [⟨15, 0, .rwt, 0, 0, []⟩, ⟨16, 16, .rwt, 0, 0, []⟩]⟩,
  -- SPD_REGION_TAIL
  ⟨0x10c, 64, 0x10, 1, 0x0, .any, [⟨15, 0, .rwt, 0, 0, []⟩, ⟨16, 16, .rwt, 0, 0, []⟩]⟩,
  -- SPD_REGION_FILL
  ⟨0x500, 64, 0x4, 1, 0x0, .any, [⟨15, 0, .ro, 0, 0, []⟩, ⟨16, 16, .ro, 1, 0, []⟩, ⟨17, 17, .ro, 0, 0, []⟩]⟩,
  -- SPD_RELEASE
  ⟨0x600, 1, 0x0, 1, 0x0, .ctl, [⟨5, 0, .wo, 0, 0, []⟩, ⟨31, 16, .wo, 0, 0, []⟩]⟩]

/-- Block registers of a arr6 page (04_number_formats.md R118). -/
def regsArr6 : List RegDef := [
  -- ARR_STAT_MAX
  ⟨0x100, 64, 0x8, 1, 0x0, .any, [⟨31, 0, .ro, 0, 0, []⟩]⟩,
  -- ARR_STAT_INFO
  ⟨0x104, 64, 0x8, 1, 0x0, .any, [⟨23, 0, .ro, 0, 0, []⟩, ⟨24, 24, .ro, 0, 0, []⟩]⟩,
  -- ARR_STAT_CLR_LO
  ⟨0x300, 1, 0x0, 1, 0x0, .any, [⟨31, 0, .wo, 0, 0, []⟩]⟩,
  -- ARR_STAT_CLR_HI
  ⟨0x304, 1, 0x0, 1, 0x0, .any, [⟨31, 0, .wo, 0, 0, []⟩]⟩,
  -- ARR_SR_SEED
  ⟨0x308, 1, 0x0, 1, 0x0, .any, [⟨31, 0, .rwt, 1, 0, []⟩]⟩]

/-- Block registers of a arr7 page (03_gale_array.md R95). -/
def regsArr7 : List RegDef := [
  -- ARR_SPARE_MAP
  ⟨0x100, 1, 0x0, 1, 0x0, .any, [⟨4, 0, .rwt, 0x1f, 0, [(0, 16), (31, 31)]⟩, ⟨9, 5, .rwt, 0x1f, 0, [(0, 16), (31, 31)]⟩]⟩,
  -- ARR_WEAR_THR
  ⟨0x104, 1, 0x0, 1, 0x0, .any, [⟨15, 0, .rwt, 0x10, 0, []⟩]⟩,
  -- ARR_WEAR_ROW
  ⟨0x200, 18, 0x4, 1, 0x0, .any, [⟨15, 0, .rws, 0, 0, []⟩]⟩,
  -- ARR_WEAR_COL
  ⟨0x280, 18, 0x4, 1, 0x0, .any, [⟨15, 0, .rws, 0, 0, []⟩]⟩]

/-- Block registers of a mt0 page (09_memory_tiers.md R234). -/
def regsMt0 : List RegDef := [
  -- MT_CAP
  ⟨0x100, 1, 0x0, 1, 0x0, .any, [⟨14, 0, .ro, 0, 0, []⟩, ⟨31, 15, .ro, 0, 0, []⟩]⟩,
  -- MT_AGE_CFG
  ⟨0x104, 1, 0x0, 1, 0x0, .any, [⟨7, 0, .rwt, 0x20, 0, []⟩, ⟨15, 8, .rwt, 0x60, 0, []⟩, ⟨23, 16, .rwt, 0x20, 0, []⟩, ⟨31, 24, .rwt, 6, 0, []⟩]⟩,
  -- MT_MIG_CTRL
  ⟨0x108, 1, 0x0, 1, 0x0, .any, [⟨0, 0, .rwt, 1, 0, []⟩, ⟨15, 8, .rwt, 0x80, 0, [(16, 255)]⟩, ⟨27, 16, .rwt, 0x10, 0, []⟩]⟩,
  -- MT_FREE
  ⟨0x10c, 1, 0x0, 1, 0x0, .any, [⟨14, 0, .ro, 0, 0, []⟩, ⟨22, 16, .ro, 0, 0, []⟩]⟩,
  -- MT_PIN_QUOTA
  ⟨0x200, 16, 0x4, 1, 0x0, .any, [⟨16, 0, .rwt, 0, 0, []⟩]⟩,
  -- MT_PIN_USED
  ⟨0x240, 16, 0x4, 1, 0x0, .any, [⟨16, 0, .ro, 0, 0, []⟩]⟩]

/-- Block registers of a mt1 page (09_memory_tiers.md R235). -/
def regsMt1 : List RegDef := [
  -- MT_TSTALL_LO
  ⟨0x100, 16, 0x8, 1, 0x0, .any, [⟨31, 0, .ro, 0, 0, []⟩]⟩,
  -- MT_TSTALL_HI
  ⟨0x104, 16, 0x8, 1, 0x0, .any, [⟨31, 0, .ro, 0, 0, []⟩]⟩]

/-- Block registers of a mt2 page (09_memory_tiers.md R236). -/
def regsMt2 : List RegDef := [
  -- MT_PG_SEL
  ⟨0x100, 1, 0x0, 1, 0x0, .any, [⟨16, 0, .rw, 0, 0, []⟩]⟩,
  -- MT_PG_CMD
  ⟨0x104, 1, 0x0, 1, 0x0, .any, [⟨2, 0, .wo, 0, 0, [(1, 4)]⟩, ⟨7, 4, .wo, 0, 0, []⟩, ⟨9, 8, .wo, 0, 0, [(0, 2)]⟩]⟩,
  -- MT_PG_STATUS
  ⟨0x108, 1, 0x0, 1, 0x0, .any, [⟨0, 0, .ro, 0, 0, []⟩, ⟨3, 1, .ro, 0, 0, []⟩]⟩,
  -- MT_PG_INFO0
  ⟨0x10c, 1, 0x0, 1, 0x0, .any, [⟨4, 0, .ro, 0x1f, 0, []⟩, ⟨5, 5, .ro, 0, 0, []⟩, ⟨7, 6, .ro, 0, 0, []⟩, ⟨15, 8, .ro, 0, 0, []⟩, ⟨16, 16, .ro, 0, 0, []⟩, ⟨17, 17, .ro, 0, 0, []⟩]⟩,
  -- MT_PG_INFO1
  ⟨0x110, 1, 0x0, 1, 0x0, .any, [⟨16, 0, .ro, 0, 0, []⟩]⟩]

/-- Block registers of a mtRng page (09_memory_tiers.md R233). -/
def regsMtRng : List RegDef := [
  -- MT_RNG_BASE_LO
  ⟨0x100, 8, 0x100, 16, 0x10, .any, [⟨0, 0, .rwt, 0, 0, []⟩, ⟨1, 1, .rwt, 0, 0, []⟩, ⟨2, 2, .rwt, 0, 0, []⟩, ⟨31, 12, .rwt, 0, 0, []⟩]⟩,
  -- MT_RNG_BASE_HI
  ⟨0x104, 8, 0x100, 16, 0x10, .any, [⟨15, 0, .rwt, 0, 0, []⟩]⟩,
  -- MT_RNG_LIMIT_LO
  ⟨0x108, 8, 0x100, 16, 0x10, .any, [⟨31, 12, .rwt, 0, 0, []⟩]⟩,
  -- MT_RNG_LIMIT_HI
  ⟨0x10c, 8, 0x100, 16, 0x10, .any, [⟨15, 0, .rwt, 0, 0, []⟩]⟩]

/-- Block registers of a fab0 page (01_architecture.md R31). -/
def regsFab0 : List RegDef := [
  -- FAB_WALK
  ⟨0x100, 1, 0x0, 1, 0x0, .any, [⟨4, 0, .wo, 0, 0, [(0, 30)]⟩, ⟨5, 5, .wo, 0, 0, []⟩]⟩,
  -- FAB_WALK_STATUS
  ⟨0x104, 1, 0x0, 1, 0x0, .any, [⟨1, 0, .ro, 0, 0, []⟩, ⟨6, 2, .ro, 0, 0, []⟩]⟩,
  -- FAB_CRC_INJ
  ⟨0x108, 1, 0x0, 1, 0x0, .debug, [⟨4, 0, .wo, 0, 0, [(0, 30)]⟩, ⟨5, 5, .wo, 0, 0, []⟩, ⟨6, 6, .wo, 0, 0, []⟩]⟩]

/-- Block registers of a fab1 page (01_architecture.md R32). -/
def regsFab1 : List RegDef := [
  -- FAB_LINK_STAT
  ⟨0x100, 32, 0x4, 1, 0x0, .any, [⟨15, 0, .ro, 0, 0, []⟩, ⟨16, 16, .ro, 0, 0, []⟩, ⟨17, 17, .ro, 0, 0, []⟩]⟩]

/-- Block registers of a fab2 page (01_architecture.md R32). -/
def regsFab2 : List RegDef := [
  -- FAB_D2D_STATUS
  ⟨0x100, 1, 0x0, 1, 0x0, .any, [⟨0, 0, .ro, 0, 0, []⟩, ⟨1, 1, .ro, 0, 0, []⟩, ⟨9, 2, .ro, 0, 0, []⟩, ⟨17, 10, .ro, 0, 0, []⟩]⟩,
  -- FAB_D2D_CTRL
  ⟨0x104, 1, 0x0, 1, 0x0, .any, [⟨0, 0, .wo, 0, 0, []⟩]⟩]

/-- Block registers of a hif0 page (13_host_interface.md R345). -/
def regsHif0 : List RegDef := [
  -- HIF_LINK_CFG
  ⟨0x100, 1, 0x0, 1, 0x0, .any, [⟨0, 0, .ro, 0, 0, []⟩]⟩,
  -- HIF_LINK_STATUS
  ⟨0x110, 2, 0x4, 1, 0x0, .any, [⟨0, 0, .ro, 0, 0, []⟩, ⟨3, 1, .ro, 0, 0, []⟩, ⟨7, 4, .ro, 0, 0, []⟩, ⟨8, 8, .ro, 0, 0, []⟩]⟩]

/-- Block registers of a hifFn page (13_host_interface.md R346). -/
def regsHifFn : List RegDef := [
  -- HIF_FN_STATE
  ⟨0x100, 1, 0x0, 1, 0x0, .any, [⟨1, 0, .ro, 0, 0, []⟩, ⟨15, 8, .ro, 0, 0, []⟩]⟩,
  -- HIF_FN_CTRL
  ⟨0x104, 1, 0x0, 1, 0x0, .any, [⟨0, 0, .wo, 0, 0, []⟩]⟩,
  -- HIF_HB_CFG
  ⟨0x108, 1, 0x0, 1, 0x0, .any, [⟨13, 0, .rw, 0x3e8, 0, [(10, 10000)]⟩]⟩,
  -- HIF_VIOL_LIMIT
  ⟨0x10c, 1, 0x0, 1, 0x0, .any, [⟨7, 0, .rw, 0x10, 0, []⟩]⟩,
  -- HIF_VEC
  ⟨0x110, 1, 0x0, 1, 0x0, .any, [⟨5, 0, .rw, 0, 0, []⟩, ⟨13, 8, .rw, 0, 0, []⟩, ⟨21, 16, .rw, 0, 0, []⟩]⟩,
  -- HIF_FEED_PEND_LO
  ⟨0x114, 1, 0x0, 1, 0x0, .any, [⟨31, 0, .w1c, 0, 0, []⟩]⟩,
  -- HIF_FEED_PEND_HI
  ⟨0x118, 1, 0x0, 1, 0x0, .any, [⟨15, 0, .w1c, 0, 0, []⟩]⟩,
  -- HIF_BAR2_BASE_LO
  ⟨0x120, 1, 0x0, 1, 0x0, .ctlSec, [⟨31, 21, .rwt, 0, 0, []⟩]⟩,
  -- HIF_BAR2_BASE_HI
  ⟨0x124, 1, 0x0, 1, 0x0, .ctlSec, [⟨15, 0, .rwt, 0, 0, []⟩]⟩,
  -- HIF_SQ_BASE_LO
  ⟨0x200, 8, 0x40, 4, 0x10, .any, [⟨31, 9, .rwt, 0, 0, []⟩]⟩,
  -- HIF_SQ_BASE_HI
  ⟨0x204, 8, 0x40, 4, 0x10, .any, [⟨15, 0, .rwt, 0, 0, []⟩]⟩,
  -- HIF_SQ_CFG
  ⟨0x208, 8, 0x40, 4, 0x10, .any, [⟨0, 0, .rwt, 0, 0, []⟩, ⟨28, 16, .rwt, 0x10, 0, []⟩]⟩,
  -- HIF_SQ_STATUS
  ⟨0x20c, 8, 0x40, 4, 0x10, .any, [⟨12, 0, .ro, 0, 0, []⟩, ⟨28, 16, .ro, 0, 0, []⟩]⟩,
  -- HIF_CQ_BASE_LO
  ⟨0x400, 8, 0x10, 1, 0x0, .any, [⟨31, 9, .rwt, 0, 0, []⟩]⟩,
  -- HIF_CQ_BASE_HI
  ⟨0x404, 8, 0x10, 1, 0x0, .any, [⟨15, 0, .rwt, 0, 0, []⟩]⟩,
  -- HIF_CQ_CFG
  ⟨0x408, 8, 0x10, 1, 0x0, .any, [⟨0, 0, .rwt, 0, 0, []⟩, ⟨13, 8, .rwt, 0, 0, []⟩, ⟨28, 16, .rwt, 0x10, 0, []⟩]⟩,
  -- HIF_CQ_STATUS
  ⟨0x40c, 8, 0x10, 1, 0x0, .any, [⟨12, 0, .ro, 0, 0, []⟩, ⟨28, 16, .ro, 0, 0, []⟩]⟩]

/-- Block registers of a plm0 page (15_ploem_links.md R396). -/
def regsPlm0 : List RegDef := [
  -- PLM_TOPO
  ⟨0x100, 1, 0x0, 1, 0x0, .any, [⟨1, 0, .ro, 0, 0, []⟩, ⟨7, 2, .ro, 0, 0, []⟩, ⟨13, 8, .ro, 0, 0, []⟩, ⟨19, 14, .ro, 0, 0, []⟩]⟩,
  -- PLM_COORD
  ⟨0x104, 1, 0x0, 1, 0x0, .any, [⟨4, 0, .ro, 0, 0, []⟩, ⟨9, 5, .ro, 0, 0, []⟩, ⟨14, 10, .ro, 0, 0, []⟩]⟩,
  -- PLM_COLL_WAIT
  ⟨0x108, 1, 0x0, 1, 0x0, .any, [⟨31, 0, .rwt, 0x1000000, 0, []⟩]⟩,
  -- PLM_COLL_STATUS
  ⟨0x10c, 1, 0x0, 1, 0x0, .any, [⟨6, 0, .ro, 0, 0, []⟩, ⟨10, 8, .ro, 0, 0, []⟩]⟩]

/-- Block registers of a plmPort page (15_ploem_links.md R396). -/
def regsPlmPort : List RegDef := [
  -- PLM_PORT_MAP
  ⟨0x100, 1, 0x0, 1, 0x0, .any, [⟨2, 0, .ro, 7, 0, []⟩]⟩,
  -- PLM_PORT_CTRL
  ⟨0x104, 1, 0x0, 1, 0x0, .any, [⟨0, 0, .rwt, 0, 0, []⟩, ⟨1, 1, .rwt, 0, 0, []⟩, ⟨2, 2, .rwt, 0, 0, []⟩]⟩,
  -- PLM_PORT_STATUS
  ⟨0x108, 1, 0x0, 1, 0x0, .any, [⟨2, 0, .ro, 0, 0, []⟩, ⟨3, 3, .ro, 0, 0, []⟩]⟩,
  -- PLM_RETRY_CFG
  ⟨0x10c, 1, 0x0, 1, 0x0, .any, [⟨7, 0, .rwt, 0x40, 0, []⟩, ⟨15, 8, .rwt, 4, 0, []⟩]⟩]

/-- Block registers of a plmComm page (15_ploem_links.md R396). -/
def regsPlmComm : List RegDef := [
  -- PLM_COMM
  ⟨0x100, 64, 0x4, 1, 0x0, .any, [⟨0, 0, .rwt, 0, 0, []⟩, ⟨3, 1, .rwt, 0, 0, []⟩, ⟨7, 4, .rwt, 0, 0, []⟩]⟩]

/-- Block registers of a isp0 page (11_camera_isp.md R295). -/
def regsIsp0 : List RegDef := [
  -- ISP_SCHED
  ⟨0x100, 1, 0x0, 1, 0x0, .any, [⟨10, 0, .rwt, 0x380, 0, [(0, 1024)]⟩]⟩,
  -- ISP_LOAD
  ⟨0x104, 1, 0x0, 1, 0x0, .any, [⟨15, 0, .ro, 0, 0, []⟩]⟩,
  -- ISP_LUT_SEL
  ⟨0x108, 1, 0x0, 1, 0x0, .any, [⟨3, 0, .rw, 0, 0, []⟩, ⟨4, 4, .rw, 0, 0, []⟩, ⟨5, 5, .rw, 0, 0, []⟩, ⟨18, 8, .rw, 0, 0, []⟩]⟩,
  -- ISP_LUT_DATA
  ⟨0x10c, 1, 0x0, 1, 0x0, .any, [⟨31, 0, .rw, 0, 0, []⟩]⟩]

/-- Block registers of a ispPort page (11_camera_isp.md R296). -/
def regsIspPort : List RegDef := [
  -- ISP_PORT_CFG
  ⟨0x100, 1, 0x0, 1, 0x0, .any, [⟨0, 0, .rwt, 0, 0, []⟩, ⟨1, 1, .rwt, 0, 0, []⟩, ⟨3, 2, .rwt, 2, 0, [(0, 2)]⟩, ⟨17, 8, .rwt, 0x1c2, 0, [(8, 450)]⟩]⟩]

/-- Block registers of a ispCam page (11_camera_isp.md R297). -/
def regsIspCam : List RegDef := [
  -- ISP_CAM_CFG
  ⟨0x100, 1, 0x0, 1, 0x0, .any, [⟨0, 0, .rwt, 0, 0, []⟩, ⟨3, 1, .rwt, 0, 0, []⟩, ⟨5, 4, .rwt, 0, 0, []⟩, ⟨11, 6, .rwt, 0x2b, 0, []⟩, ⟨12, 12, .rwt, 0, 0, []⟩, ⟨16, 13, .rwt, 0, 0, []⟩, ⟨18, 17, .rwt, 0, 0, []⟩, ⟨19, 19, .rwt, 0, 0, []⟩, ⟨21, 20, .rwt, 1, 0, [(1, 3)]⟩, ⟨23, 22, .rwt, 0, 0, []⟩, ⟨30, 24, .rwt, 0, 0, []⟩]⟩,
  -- ISP_CAM_GEOM
  ⟨0x104, 1, 0x0, 1, 0x0, .any, [⟨13, 0, .rwt, 0xf00, 0, [(16, 8192)]⟩, ⟨29, 16, .rwt, 0x870, 0, [(16, 8192)]⟩]⟩,
  -- ISP_CAM_TIMING
  ⟨0x108, 1, 0x0, 1, 0x0, .any, [⟨23, 0, .rwt, 0x2c71, 0, []⟩]⟩,
  -- ISP_CAM_LB
  ⟨0x10c, 1, 0x0, 1, 0x0, .any, [⟨6, 0, .rwt, 0x10, 0, [(1, 64)]⟩, ⟨15, 8, .rwt, 0x20, 0, []⟩, ⟨27, 16, .rwt, 0, 0, []⟩]⟩,
  -- ISP_CAM_OWN
  ⟨0x110, 1, 0x0, 1, 0x0, .any, [⟨6, 0, .rwt, 0, 0, []⟩]⟩,
  -- ISP_CAM_RAW_LO
  ⟨0x114, 1, 0x0, 1, 0x0, .any, [⟨31, 0, .rwt, 0, 0, []⟩]⟩,
  -- ISP_CAM_RAW_HI
  ⟨0x118, 1, 0x0, 1, 0x0, .any, [⟨15, 0, .rwt, 0, 0, []⟩]⟩,
  -- ISP_CAM_RAW_STRIDE
  ⟨0x11c, 1, 0x0, 1, 0x0, .any, [⟨31, 0, .rwt, 0, 0, []⟩]⟩,
  -- ISP_OUT_CFG
  ⟨0x140, 3, 0x20, 1, 0x0, .any, [⟨0, 0, .rwt, 0, 0, []⟩, ⟨3, 1, .rwt, 0, 0, []⟩, ⟨4, 4, .rwt, 0, 0, []⟩, ⟨6, 5, .rwt, 3, 0, []⟩, ⟨10, 7, .rwt, 1, 0, [(1, 15)]⟩, ⟨15, 11, .rwt, 0, 0, []⟩, ⟨21, 16, .rwt, 0, 0, []⟩]⟩,
  -- ISP_OUT_CROP
  ⟨0x144, 3, 0x20, 2, 0x4, .any, [⟨13, 0, .rwt, 0, 0, []⟩, ⟨29, 16, .rwt, 0, 0, []⟩]⟩,
  -- ISP_OUT_SIZE
  ⟨0x14c, 3, 0x20, 1, 0x0, .any, [⟨13, 0, .rwt, 0, 0, []⟩, ⟨29, 16, .rwt, 0, 0, []⟩]⟩,
  -- ISP_OUT_DA_LO
  ⟨0x150, 3, 0x20, 1, 0x0, .any, [⟨31, 0, .rwt, 0, 0, []⟩]⟩,
  -- ISP_OUT_DA_HI
  ⟨0x154, 3, 0x20, 1, 0x0, .any, [⟨15, 0, .rwt, 0, 0, []⟩]⟩,
  -- ISP_OUT_PITCH
  ⟨0x158, 3, 0x20, 1, 0x0, .any, [⟨15, 0, .rwt, 0, 0, []⟩, ⟨31, 16, .rwt, 0, 0, []⟩]⟩,
  -- ISP_OUT_REL
  ⟨0x15c, 3, 0x20, 1, 0x0, .any, [⟨3, 0, .wo, 0, 0, []⟩]⟩,
  -- ISP_MV_GAIN
  ⟨0x1a0, 1, 0x0, 1, 0x0, .any, [⟨31, 0, .rwt, 0x3f800000, 0, []⟩]⟩,
  -- ISP_MV_OFF
  ⟨0x1a4, 1, 0x0, 1, 0x0, .any, [⟨31, 0, .rwt, 0, 0, []⟩]⟩,
  -- ISP_STAT_CFG
  ⟨0x1b0, 1, 0x0, 1, 0x0, .any, [⟨0, 0, .rwt, 0, 0, []⟩, ⟨11, 1, .rwt, 0x40, 0, [(0, 1024)]⟩, ⟨19, 12, .rwt, 0x10, 0, []⟩, ⟨23, 20, .rwt, 0, 0, []⟩]⟩,
  -- ISP_REC_LO
  ⟨0x1b4, 1, 0x0, 1, 0x0, .any, [⟨31, 0, .rwt, 0, 0, []⟩]⟩,
  -- ISP_REC_HI
  ⟨0x1b8, 1, 0x0, 1, 0x0, .any, [⟨15, 0, .rwt, 0, 0, []⟩]⟩,
  -- ISP_REC_PTR
  ⟨0x1bc, 1, 0x0, 1, 0x0, .any, [⟨8, 0, .ro, 0, 0, []⟩, ⟨24, 16, .rw, 0, 0, []⟩, ⟨31, 25, .rwt, 4, 0, [(2, 127)]⟩]⟩]

/-- Block registers of a ispPipe page (11_camera_isp.md R298). -/
def regsIspPipe : List RegDef := [
  -- ISP_BLC
  ⟨0x100, 2, 0x4, 1, 0x0, .any, [⟨15, 0, .rwt, 0, 0, []⟩, ⟨31, 16, .rwt, 0, 0, []⟩]⟩,
  -- ISP_DPC
  ⟨0x108, 1, 0x0, 1, 0x0, .any, [⟨0, 0, .rwt, 0, 0, []⟩, ⟨31, 16, .rwt, 0x800, 0, []⟩]⟩,
  -- ISP_LSC
  ⟨0x10c, 1, 0x0, 1, 0x0, .any, [⟨0, 0, .rwt, 0, 0, []⟩, ⟨1, 1, .rwt, 0, 0, []⟩]⟩,
  -- ISP_WB
  ⟨0x110, 1, 0x0, 1, 0x0, .any, [⟨15, 0, .rwt, 0x1000, 0, []⟩, ⟨31, 16, .rwt, 0x1000, 0, []⟩]⟩,
  -- ISP_WB_B
  ⟨0x114, 1, 0x0, 1, 0x0, .any, [⟨15, 0, .rwt, 0x1000, 0, []⟩]⟩,
  -- ISP_CCM_0
  ⟨0x120, 1, 0x0, 1, 0x0, .any, [⟨15, 0, .rwt, 0x1000, 0, []⟩, ⟨31, 16, .rwt, 0, 0, []⟩]⟩,
  -- ISP_CCM_1
  ⟨0x124, 1, 0x0, 1, 0x0, .any, [⟨15, 0, .rwt, 0, 0, []⟩, ⟨31, 16, .rwt, 0, 0, []⟩]⟩,
  -- ISP_CCM_2
  ⟨0x128, 1, 0x0, 1, 0x0, .any, [⟨15, 0, .rwt, 0x1000, 0, []⟩, ⟨31, 16, .rwt, 0, 0, []⟩]⟩,
  -- ISP_CCM_3
  ⟨0x12c, 1, 0x0, 1, 0x0, .any, [⟨15, 0, .rwt, 0, 0, []⟩, ⟨31, 16, .rwt, 0, 0, []⟩]⟩,
  -- ISP_CCM_4
  ⟨0x130, 1, 0x0, 1, 0x0, .any, [⟨15, 0, .rwt, 0x1000, 0, []⟩]⟩,
  -- ISP_CCM_OFF
  ⟨0x134, 1, 0x0, 1, 0x0, .any, [⟨15, 0, .rwt, 0, 0, []⟩, ⟨31, 16, .rwt, 0, 0, []⟩]⟩,
  -- ISP_CCM_OFF2
  ⟨0x138, 1, 0x0, 1, 0x0, .any, [⟨15, 0, .rwt, 0, 0, []⟩]⟩,
  -- ISP_TONE
  ⟨0x13c, 1, 0x0, 1, 0x0, .any, [⟨0, 0, .rwt, 0, 0, []⟩, ⟨1, 1, .rwt, 0, 0, []⟩]⟩]

/-- Block registers of a ispBus page (11_camera_isp.md R299). -/
def regsIspBus : List RegDef := [
  -- ISP_CC_CFG
  ⟨0x100, 1, 0x0, 1, 0x0, .any, [⟨0, 0, .rwt, 0, 0, []⟩, ⟨1, 1, .rwt, 0, 0, []⟩]⟩,
  -- ISP_CC_MEM_ADDR
  ⟨0x104, 1, 0x0, 1, 0x0, .any, [⟨9, 0, .rw, 0, 0, []⟩]⟩,
  -- ISP_CC_MEM_DATA
  ⟨0x108, 1, 0x0, 1, 0x0, .any, [⟨31, 0, .rw, 0, 0, []⟩]⟩,
  -- ISP_CC_ID
  ⟨0x10c, 1, 0x0, 1, 0x0, .any, [⟨15, 0, .rw, 0, 0, []⟩]⟩,
  -- ISP_CC_POST
  ⟨0x110, 1, 0x0, 1, 0x0, .any, [⟨3, 0, .wo, 0, 0, []⟩, ⟨11, 4, .wo, 0, 0, [(1, 255)]⟩, ⟨20, 12, .wo, 0, 0, []⟩]⟩,
  -- ISP_CC_STATUS
  ⟨0x114, 1, 0x0, 1, 0x0, .any, [⟨4, 0, .ro, 0, 0, []⟩, ⟨5, 5, .ro, 0, 0, []⟩]⟩]

/-- Block registers of a dec1 page (12_video_input.md R320). -/
def regsDec1 : List RegDef := [
  -- FEED_MAX_AGE
  ⟨0x100, 48, 0x4, 1, 0x0, .any, [⟨31, 0, .rw, 0, 0, []⟩]⟩,
  -- FEED_STALE_CNT_LO
  ⟨0x200, 48, 0x8, 1, 0x0, .any, [⟨31, 0, .ro, 0, 0, []⟩]⟩,
  -- FEED_STALE_CNT_HI
  ⟨0x204, 48, 0x8, 1, 0x0, .any, [⟨31, 0, .ro, 0, 0, []⟩]⟩]

/-- Block registers of a decCtx page (12_video_input.md R321). -/
def regsDecCtx : List RegDef := [
  -- DEC_CTX_CFG
  ⟨0x100, 1, 0x0, 1, 0x0, .any, [⟨0, 0, .rwt, 0, 0, []⟩, ⟨2, 1, .rwt, 1, 0, [(0, 2)]⟩, ⟨3, 3, .rwt, 0, 0, []⟩, ⟨10, 4, .rwt, 0, 0, []⟩]⟩,
  -- DEC_CTX_MAX
  ⟨0x104, 1, 0x0, 1, 0x0, .any, [⟨13, 0, .rwt, 0x780, 0, []⟩, ⟨29, 16, .rwt, 0x440, 0, []⟩]⟩,
  -- DEC_CTX_BUDGET
  ⟨0x108, 1, 0x0, 1, 0x0, .any, [⟨19, 0, .rwt, 0x30d4, 0, []⟩]⟩,
  -- DEC_POOL_LO
  ⟨0x10c, 1, 0x0, 1, 0x0, .any, [⟨31, 0, .rwt, 0, 0, []⟩]⟩,
  -- DEC_POOL_HI
  ⟨0x110, 1, 0x0, 1, 0x0, .any, [⟨15, 0, .rwt, 0, 0, []⟩]⟩,
  -- DEC_POOL_SIZE
  ⟨0x114, 1, 0x0, 1, 0x0, .any, [⟨15, 0, .rwt, 0, 0, []⟩]⟩,
  -- DEC_AU_LO
  ⟨0x118, 1, 0x0, 1, 0x0, .any, [⟨31, 0, .rwt, 0, 0, []⟩]⟩,
  -- DEC_AU_HI
  ⟨0x11c, 1, 0x0, 1, 0x0, .any, [⟨15, 0, .rwt, 0, 0, []⟩]⟩,
  -- DEC_AU_PTR
  ⟨0x120, 1, 0x0, 1, 0x0, .any, [⟨12, 0, .rw, 0, 0, []⟩, ⟨28, 16, .ro, 0, 0, []⟩]⟩,
  -- DEC_AU_SLOTS
  ⟨0x124, 1, 0x0, 1, 0x0, .any, [⟨12, 0, .rwt, 0x10, 0, [(2, 4096)]⟩]⟩,
  -- DEC_REC_LO
  ⟨0x128, 1, 0x0, 1, 0x0, .any, [⟨31, 0, .rwt, 0, 0, []⟩]⟩,
  -- DEC_REC_HI
  ⟨0x12c, 1, 0x0, 1, 0x0, .any, [⟨15, 0, .rwt, 0, 0, []⟩]⟩,
  -- DEC_REC_PTR
  ⟨0x130, 1, 0x0, 1, 0x0, .any, [⟨12, 0, .ro, 0, 0, []⟩, ⟨28, 16, .rw, 0, 0, []⟩]⟩,
  -- DEC_REC_SLOTS
  ⟨0x134, 1, 0x0, 1, 0x0, .any, [⟨12, 0, .rwt, 0x10, 0, [(2, 4096)]⟩]⟩,
  -- DEC_CACHE_LO
  ⟨0x138, 1, 0x0, 1, 0x0, .any, [⟨31, 0, .rwt, 0, 0, []⟩]⟩,
  -- DEC_CACHE_HI
  ⟨0x13c, 1, 0x0, 1, 0x0, .any, [⟨15, 0, .rwt, 0, 0, []⟩]⟩,
  -- DEC_CACHE_GEOM
  ⟨0x140, 1, 0x0, 1, 0x0, .any, [⟨15, 0, .rwt, 0, 0, []⟩, ⟨19, 16, .rwt, 1, 0, [(1, 8)]⟩, ⟨31, 20, .rwt, 2, 0, [(2, 4095)]⟩]⟩,
  -- DEC_CTX_STATUS
  ⟨0x144, 1, 0x0, 1, 0x0, .any, [⟨2, 0, .ro, 0, 0, []⟩]⟩]

/-- Block registers of a xfm page (12_video_input.md R322). -/
def regsXfm : List RegDef := [
  -- XFM_CFG
  ⟨0x100, 1, 0x0, 1, 0x0, .any, [⟨0, 0, .rwt, 0, 0, []⟩, ⟨1, 1, .rwt, 0, 0, []⟩, ⟨2, 2, .rwt, 0, 0, []⟩, ⟨4, 3, .rwt, 0, 0, []⟩, ⟨5, 5, .rwt, 0, 0, []⟩, ⟨6, 6, .rwt, 0, 0, []⟩, ⟨8, 7, .rwt, 0, 0, []⟩, ⟨11, 9, .rwt, 0, 0, []⟩, ⟨15, 12, .rwt, 5, 0, []⟩, ⟨20, 16, .rwt, 0, 0, []⟩, ⟨26, 21, .rwt, 0, 0, []⟩, ⟨30, 27, .rwt, 2, 0, []⟩]⟩,
  -- XFM_CROP
  ⟨0x104, 2, 0x4, 1, 0x0, .any, [⟨13, 0, .rwt, 0, 0, []⟩, ⟨29, 16, .rwt, 0, 0, []⟩]⟩,
  -- XFM_SIZE
  ⟨0x10c, 1, 0x0, 1, 0x0, .any, [⟨13, 0, .rwt, 0, 0, []⟩, ⟨29, 16, .rwt, 0, 0, []⟩]⟩,
  -- XFM_ANGLE
  ⟨0x110, 1, 0x0, 1, 0x0, .any, [⟨31, 0, .rwt, 0, 0, []⟩]⟩,
  -- XFM_FILL
  ⟨0x114, 1, 0x0, 1, 0x0, .any, [⟨31, 0, .rwt, 0, 0, []⟩]⟩,
  -- XFM_MEAN
  ⟨0x118, 3, 0x4, 1, 0x0, .any, [⟨31, 0, .rwt, 0, 0, []⟩]⟩,
  -- XFM_ISTD
  ⟨0x124, 3, 0x4, 1, 0x0, .any, [⟨31, 0, .rwt, 0x3f800000, 0, []⟩]⟩,
  -- XFM_SCALE
  ⟨0x130, 1, 0x0, 1, 0x0, .any, [⟨31, 0, .rwt, 0x3f800000, 0, []⟩]⟩,
  -- XFM_LINE
  ⟨0x134, 1, 0x0, 1, 0x0, .any, [⟨15, 0, .rwt, 0, 0, []⟩, ⟨31, 16, .rwt, 0, 0, []⟩]⟩,
  -- XFM_DA_LO
  ⟨0x138, 1, 0x0, 1, 0x0, .any, [⟨31, 0, .rwt, 0, 0, []⟩]⟩,
  -- XFM_DA_HI
  ⟨0x13c, 1, 0x0, 1, 0x0, .any, [⟨15, 0, .rwt, 0, 0, []⟩]⟩,
  -- XFM_BUF_STRIDE
  ⟨0x140, 1, 0x0, 1, 0x0, .any, [⟨31, 0, .rwt, 0, 0, []⟩]⟩,
  -- XFM_REL
  ⟨0x144, 1, 0x0, 1, 0x0, .any, [⟨3, 0, .wo, 0, 0, []⟩]⟩]

/-- Block registers of a brz0 page (10_breeze_tier.md R265). -/
def regsBrz0 : List RegDef := [
  -- BRZ_FE_CFG
  ⟨0x100, 1, 0x0, 1, 0x0, .any, [⟨15, 0, .rwt, 0, 0, []⟩, ⟨16, 16, .rwt, 0, 0, []⟩, ⟨17, 17, .rwt, 0, 0, []⟩, ⟨18, 18, .rwt, 0, 0, []⟩]⟩,
  -- BRZ_MUTE
  ⟨0x104, 1, 0x0, 1, 0x0, .any, [⟨0, 0, .ro, 0, 0, []⟩, ⟨1, 1, .ro, 1, 0, []⟩, ⟨2, 2, .ro, 0, 0, []⟩]⟩,
  -- BRZ_UNMUTE_SETTLE
  ⟨0x108, 1, 0x0, 1, 0x0, .any, [⟨15, 0, .rwt, 0x320, 0, []⟩]⟩,
  -- BRZ_IDX_LO
  ⟨0x10c, 1, 0x0, 1, 0x0, .any, [⟨31, 0, .ro, 0, 0, []⟩]⟩,
  -- BRZ_IDX_HI
  ⟨0x110, 1, 0x0, 1, 0x0, .any, [⟨15, 0, .ro, 0, 0, []⟩]⟩,
  -- BRZ_TDM_CFG
  ⟨0x120, 2, 0x4, 1, 0x0, .any, [⟨0, 0, .rwt, 0, 0, []⟩, ⟨15, 8, .rwt, 0, 0, []⟩]⟩,
  -- BRZ_RING_MAP
  ⟨0x200, 32, 0x4, 1, 0x0, .any, [⟨7, 0, .rwt, 0, 1, []⟩, ⟨14, 8, .rwt, 0, 0, [(0, 64)]⟩]⟩]

/-- Block registers of a brz1 page (10_breeze_tier.md R266). -/
def regsBrz1 : List RegDef := [
  -- BRZ_MODEL_LOC
  ⟨0x100, 16, 0x20, 1, 0x0, .any, [⟨9, 0, .rwt, 0, 0, []⟩, ⟨26, 16, .rwt, 1, 0, [(1, 1024)]⟩, ⟨31, 31, .rwt, 0, 0, []⟩]⟩,
  -- BRZ_MODEL_CFG
  ⟨0x104, 16, 0x20, 1, 0x0, .any, [⟨7, 0, .rwt, 1, 0, [(1, 63)]⟩, ⟨18, 8, .rwt, 0xa0, 0, [(16, 1024)]⟩, ⟨23, 19, .rwt, 0, 0, []⟩, ⟨24, 24, .rwt, 0, 0, []⟩, ⟨28, 25, .rwt, 0, 0, []⟩, ⟨29, 29, .rwt, 0, 0, []⟩]⟩,
  -- BRZ_MODEL_THR
  ⟨0x108, 16, 0x20, 1, 0x0, .any, [⟨15, 0, .rwt, 0x3c00, 0, []⟩, ⟨31, 16, .rwt, 0, 0, []⟩]⟩,
  -- BRZ_MODEL_IN
  ⟨0x10c, 16, 0x20, 1, 0x0, .any, [⟨31, 0, .rwt, 0, 0, []⟩]⟩,
  -- BRZ_MODEL_PRE
  ⟨0x110, 16, 0x20, 1, 0x0, .any, [⟨14, 0, .rwt, 0, 0, []⟩]⟩,
  -- BRZ_MODEL_STAT
  ⟨0x114, 16, 0x20, 1, 0x0, .any, [⟨0, 0, .ro, 0, 0, []⟩, ⟨31, 16, .ro, 0, 0, []⟩]⟩,
  -- BRZ_LOAD
  ⟨0x300, 1, 0x0, 1, 0x0, .any, [⟨15, 0, .ro, 0, 0, []⟩]⟩,
  -- BRZ_LOAD_MAX
  ⟨0x304, 1, 0x0, 1, 0x0, .any, [⟨15, 0, .rwt, 0x1800, 0, [(0, 24576)]⟩]⟩]

/-- Block registers of a brz2 page (10_breeze_tier.md R267). -/
def regsBrz2 : List RegDef := [
  -- BRZ_GUST
  ⟨0x100, 1, 0x0, 1, 0x0, .ctl, [⟨4, 0, .rwt, 0, 0, [(0, 17)]⟩, ⟨5, 5, .rwt, 0, 0, []⟩, ⟨11, 6, .rwt, 0x3f, 0, []⟩, ⟨17, 12, .rwt, 0, 0, []⟩, ⟨18, 18, .rwt, 0, 0, []⟩]⟩,
  -- BRZ_VWAKE
  ⟨0x104, 1, 0x0, 1, 0x0, .ctl, [⟨0, 0, .rwt, 0, 0, []⟩, ⟨4, 1, .rwt, 0, 0, []⟩, ⟨9, 5, .rwt, 0, 0, []⟩, ⟨10, 10, .rwt, 0, 0, []⟩, ⟨14, 11, .rwt, 0, 0, []⟩, ⟨15, 15, .rwt, 0, 0, []⟩, ⟨30, 16, .rwt, 0, 0, []⟩]⟩,
  -- BRZ_WQ_PTR
  ⟨0x110, 1, 0x0, 1, 0x0, .ctl, [⟨6, 0, .ro, 0, 0, []⟩, ⟨14, 8, .rw, 0, 0, []⟩]⟩,
  -- BRZ_WQ_SEQ
  ⟨0x114, 1, 0x0, 1, 0x0, .any, [⟨15, 0, .ro, 0, 0, []⟩]⟩,
  -- BRZ_WQ
  ⟨0x400, 64, 0x20, 8, 0x4, .any, [⟨31, 0, .ro, 0, 0, []⟩]⟩]

/-- Block registers of a brz4 page (10_breeze_tier.md R268). -/
def regsBrz4 : List RegDef := [
  -- BRZ_SPM_ADDR
  ⟨0x100, 1, 0x0, 1, 0x0, .any, [⟨16, 0, .rw, 0, 0, []⟩]⟩,
  -- BRZ_SPM_DATA
  ⟨0x104, 1, 0x0, 1, 0x0, .any, [⟨31, 0, .rw, 0, 0, []⟩]⟩]

/-- Block registers of a brzAg page (10_breeze_tier.md R269). -/
def regsBrzAg : List RegDef := [
  -- BRZ_AG_CFG
  ⟨0x100, 1, 0x0, 1, 0x0, .any, [⟨0, 0, .rwt, 0, 0, []⟩, ⟨2, 1, .rwt, 0, 0, []⟩, ⟨10, 4, .rwt, 4, 0, [(1, 64)]⟩, ⟨15, 11, .rwt, 0, 0, []⟩, ⟨21, 16, .rwt, 0, 0, []⟩]⟩,
  -- BRZ_AG_CH
  ⟨0x104, 1, 0x0, 1, 0x0, .any, [⟨31, 0, .rwt, 0, 0, []⟩]⟩,
  -- BRZ_AG_CMD
  ⟨0x108, 1, 0x0, 1, 0x0, .any, [⟨1, 0, .wo, 0, 0, []⟩]⟩,
  -- BRZ_AG_SEEK_LO
  ⟨0x10c, 1, 0x0, 1, 0x0, .any, [⟨31, 0, .rw, 0, 0, []⟩]⟩,
  -- BRZ_AG_SEEK_HI
  ⟨0x110, 1, 0x0, 1, 0x0, .any, [⟨15, 0, .rw, 0, 0, []⟩]⟩,
  -- BRZ_AG_STATUS
  ⟨0x114, 1, 0x0, 1, 0x0, .any, [⟨0, 0, .ro, 0, 0, []⟩, ⟨1, 1, .ro, 0, 0, []⟩, ⟨15, 8, .ro, 0, 0, []⟩]⟩,
  -- BRZ_AG_CUR_LO
  ⟨0x118, 1, 0x0, 1, 0x0, .any, [⟨31, 0, .ro, 0, 0, []⟩]⟩,
  -- BRZ_AG_CUR_HI
  ⟨0x11c, 1, 0x0, 1, 0x0, .any, [⟨15, 0, .ro, 0, 0, []⟩]⟩]

/-- The block registers of each kind of page. -/
def regsOf : PageKind → List RegDef
  | .mgt0 => regsMgt0
  | .mgtSnap => regsMgtSnap
  | .mgtTel => regsMgtTel
  | .tstMode => regsTstMode
  | .tstLane => regsTstLane
  | .tstMem => regsTstMem
  | .tstCsi => regsTstCsi
  | .tstD2d => []
  | .tstDbg => []
  | .pwr => regsPwr
  | .clk => regsClk
  | .secBoot => regsSecBoot
  | .secKey => regsSecKey
  | .secAtt => regsSecAtt
  | .secConf => regsSecConf
  | .secRec => regsSecRec
  | .rel0 => regsRel0
  | .rel1 => regsRel1
  | .rel2 => regsRel2
  | .rel3 => regsRel3
  | .ctl0 => regsCtl0
  | .ctlMb => regsCtlMb
  | .ctlShare => regsCtlShare
  | .ctlAcc => regsCtlAcc
  | .ctlUpd => regsCtlUpd
  | .ctlDump => regsCtlDump
  | .ctlStr => regsCtlStr
  | .arr0 => regsArr0
  | .vec => regsVec
  | .seq => regsSeq
  | .spd3 => regsSpd3
  | .spd4 => regsSpd4
  | .spd5 => regsSpd5
  | .arr6 => regsArr6
  | .arr7 => regsArr7
  | .mt0 => regsMt0
  | .mt1 => regsMt1
  | .mt2 => regsMt2
  | .mtCtrl => []
  | .mtRng => regsMtRng
  | .fab0 => regsFab0
  | .fab1 => regsFab1
  | .fab2 => regsFab2
  | .hif0 => regsHif0
  | .hifFn => regsHifFn
  | .plm0 => regsPlm0
  | .plmPort => regsPlmPort
  | .plmComm => regsPlmComm
  | .isp0 => regsIsp0
  | .ispPort => regsIspPort
  | .ispCam => regsIspCam
  | .ispPipe => regsIspPipe
  | .ispBus => regsIspBus
  | .dec0 => []
  | .dec1 => regsDec1
  | .decEng => []
  | .decCtx => regsDecCtx
  | .xfm => regsXfm
  | .brz0 => regsBrz0
  | .brz1 => regsBrz1
  | .brz2 => regsBrz2
  | .brz4 => regsBrz4
  | .brzAg => regsBrzAg

/-- The page row and instance of a page number, if the page is present. -/
def findPage (pg : Nat) : List PageRow → Option (PageRow × Nat)
  | [] => none
  | r :: rs =>
    if r.first ≤ pg ∧ pg < r.first + r.cnt * r.step ∧ (pg - r.first) % r.step = 0 then
      some (r, (pg - r.first) / r.step)
    else findPage pg rs

/-- The page of a page number. -/
def pageAt (pg : Nat) : Option (PageRow × Nat) := findPage pg pageRows

/-- Whether page offset `o` is an instance of register `r`, and which. -/
def RegDef.index (r : RegDef) (o : Nat) : Option (Nat × Nat) :=
  if o < r.off then none
  else
    let d := o - r.off
    let i := if r.st = 0 then 0 else min (d / r.st) (r.cnt - 1)
    let d2 := d - i * r.st
    let j := if r.st2 = 0 then 0 else d2 / r.st2
    if i < r.cnt ∧ j < r.cnt2 ∧ r.off + i * r.st + j * r.st2 = o then some (i, j) else none

/-- The block register at page offset `o`, with its array indices. -/
def findReg (o : Nat) : List RegDef → Option (RegDef × Nat × Nat)
  | [] => none
  | r :: rs =>
    match r.index o with
    | some (i, j) => some (r, i, j)
    | none => findReg o rs

/-- The block register at BAR0 byte offset `a`. -/
def regAt (a : Nat) : Option (RegDef × Nat × Nat) :=
  match pageAt (a / 4096) with
  | some (r, _) => findReg (a % 4096) (regsOf r.kind)
  | none => none

/-- The reset word made of the fields' reset values; `i` is the array index. -/
def fieldsReset (i : Nat) : List FldDef → Nat
  | [] => 0
  | f :: fs => ((f.rst + f.idx * i) % 2 ^ (f.hi + 1 - f.lo)) * 2 ^ f.lo + fieldsReset i fs

/-- Access table words at a cold reset (R48). -/
def accReset (k : PageKind) (j : Nat) : Nat :=
  if j = 2 then
    match k with
    | .mgt0 | .mgtSnap | .mgtTel | .tstMode | .tstLane | .tstMem | .tstCsi | .tstD2d | .tstDbg
    | .rel0 | .rel1 | .rel2 | .rel3 => 0x07917777
    | .pwr | .clk => 0x37917777
    | .brz0 | .brz1 | .brz2 | .brz4 | .brzAg => 0x37907777
    | _ => 0x07907777
  else 0

/-- What the word at BAR0 byte offset `a` holds at a cold reset. -/
def regReset (a : Nat) : Word :=
  match pageAt (a / 4096) with
  | none => 0
  | some (r, _) =>
    let o := a % 4096
    if o < 0x100 then
      if 0x80 ≤ o ∧ o < 0x90 then BitVec.ofNat 32 (accReset r.kind ((o - 0x80) / 4)) else 0
    else
      match findReg o (regsOf r.kind) with
      | some (d, i, _) => BitVec.ofNat 32 (fieldsReset i d.flds)
      | none => 0

end Sys2Proof.Machine
end

