-- ==== Sys2Proof/Machine/State.lean ====
section
/-! DEFINITION. Machine/State.lean: the state of the OZ7 as plain data, the reasons for a stop, and the state after
reset. Every register of BAR0 has its home in `regs` (a table of words by BAR0 byte offset, where an absent entry holds
the reset value of RegMap); what the manual gives the machine besides registers has a field of its own. -/

namespace Sys2Proof.Machine

/-- A masked word write to a BAR0 offset, as a transaction shadow holds it (R51, R52). -/
structure RWrite where
  addr : Nat
  mask : Word
  val : Word
  deriving DecidableEq, Repr

/-- An open transaction (R50). -/
structure Txn where
  owner : Nat
  tag : Nat
  shadow : List RWrite
  deriving DecidableEq, Repr

/-- A pending commit (R52). `apply` is the APPLY code; `reached` says its apply point has come, `late` that it will be
reported late (R56), `fired` that it is in its group's fired set and `released` that the group released it (R60); `host` names the CONTROL entry
that firmware commits for (R358). -/
structure PendCommit where
  owner : Nat
  tag : Nat
  writes : List RWrite
  apply : Nat
  sel : Nat
  group : Option Nat
  dtime : Nat
  reached : Bool
  late : Bool
  fired : Bool
  released : Bool
  host : Option Nat := none
  deriving DecidableEq, Repr

/-- What the header store keeps of a page's transactions (R36, R49). -/
structure PageTxn where
  openTxn : Option Txn := none
  pend : List PendCommit := []
  lastResult : Nat := 0
  lastTag : Nat := 0
  deriving DecidableEq, Repr

/-- A transaction group (R59, R60). -/
structure Group where
  fired : Bool := false
  arrived : Bool := false
  late : Bool := false
  apply : Nat := 0
  sel : Nat := 0
  dtime : Nat := 0
  deriving DecidableEq, Repr

/-- Snapshot requests (R63, R64): when the requested tick is due, for whom, the deferred requests (IID and due time),
when each tenant's last tick was taken, how many ticks were taken and which domains were not on at the last. -/
structure Snap where
  due : Option Nat := none
  who : List Nat := []
  deferred : List (Nat × Nat) := []
  last : List (Nat × Nat) := []
  count : Nat := 0
  offDoms : List Nat := []
  deriving DecidableEq, Repr

/-! ### Cores (03_gale_array.md, 05_scratchpads.md, 08_sequence_streams.md) -/

/-- A region descriptor as an operation latches it or as its four words hold it (R129, R151). -/
structure Rgn where
  base : Nat
  size : Nat
  ctx : Nat
  en : Bool
  mode : Nat
  kind : Nat
  id : Nat
  head : Nat
  headWrap : Bool
  tail : Nat
  tailWrap : Bool
  deriving DecidableEq, Repr

/-- The operations that reach the array or the vector pipeline (R76, R175). -/
inductive OpKind where
  | gemm | conv2d | fftconv | pool | boxcrop | eltwise | squallForward | squallMerge | squallBackward | scan
  deriving DecidableEq, Repr

/-- Where a failing verdict was localised (R529): KIND, physical row and column (0x1F where not localised). -/
structure Loc where
  kind : Nat
  row : Nat
  col : Nat
  deriving DecidableEq, Repr

/-- An operation in flight, with what it latched at issue (R81, R84, R88, R90, R114). `gang` lists the member cores in
position order (one core alone: itself), `pos` this member's linear position. `rgns` holds the region descriptors as they were at issue, by
region number, `outs` the rows of uncommitted output by region; `run` 0 marks a squashed successor that is issued again
after the failing operation commits (R88). `inj` is
the physical cell that a fault injection corrupts in this run (R528). `shadow` says that the vector pipeline's shadow lane covers it. -/
structure OpFlight where
  kind : OpKind
  desc : List Word
  ctx : Nat
  tag : Nat
  run : Nat
  gang : List Nat
  pos : Nat
  posRow : Nat
  posCol : Nat
  shiftAdj : Nat
  lfsr : Word
  inj : Option (Nat × Nat)
  failRows : List Nat
  failCols : List Nat
  loc : Loc
  parity : Option Nat
  shadow : Bool
  swapping : Bool
  forced : Bool
  entry : Nat
  resetMark : Bool
  rgns : List (Nat × Rgn)
  outs : List (Nat × Nat)
  deriving DecidableEq, Repr

/-- A chunk in a core's scan queue (R202): its descriptor, context and the table entry that the lookup named. -/
structure ScanChunk where
  desc : List Word
  ctx : Nat
  entry : Nat
  posted : Nat
  running : Bool
  deriving DecidableEq, Repr

/-- What a descriptor in a DMA channel does: a DMA descriptor (R139), a SQUALL transfer (R178) or a stream swap. -/
inductive DmaKind where
  | dma
  | pageFetch
  | pageStore
  | swapIn (entry : Nat)
  | swapOut (entry : Nat)
  deriving DecidableEq, Repr

/-- A descriptor posted to a DMA channel, for a context; `host` names the queue entry that firmware posted it for. -/
structure DmaDesc where
  kind : DmaKind
  desc : List Word
  ctx : Nat
  fromSeq : Bool
  host : Option Nat
  deriving DecidableEq, Repr

/-- One DMA channel (R138, R140, R142): the queue, the running descriptor, how many rows it has requested and moved,
the page of a page fetch or store it is on, the room wait, and its source region as it stood at the start. -/
structure Chan where
  queue : List DmaDesc := []
  cur : Option DmaDesc := none
  requested : Nat := 0
  moved : Nat := 0
  page : Nat := 0
  refused : Bool := false
  room : Bool := false
  src : Option Rgn := none
  deriving DecidableEq, Repr

/-- What a sequencer waits for. -/
inductive SeqWait where
  | none
  | sem (k count : Nat)
  | rows (r count : Nat)
  | room (r count : Nat)
  | drain
  | switch (m : Nat)
  | lowPower
  | barrier
  | issueBarrier (slot : Nat)
  | done
  deriving DecidableEq, Repr

/-- A LOOP in progress (R79): first and last slot of the body and the runs left, this one included. -/
structure LoopFrame where
  first : Nat
  last : Nat
  left : Nat
  deriving DecidableEq, Repr

/-- A bank swap in progress (R128). -/
structure BankSwapRun where
  logical : Nat
  phys : Nat
  deriving DecidableEq, Repr

/-- One core: what the manual gives it beside its register pages and scratchpad. `vecOps` is the history of R405 (context
and OP_TAG of the last 128 vector-using operations that committed), `laneTest` that a lane test is due, `spareDue` the rows (true) and columns
that a spare is due for (R89, R90), `retireWhy` the REASON of a retirement that is due (R411), `bankDue` the physical banks whose swap is due (R128). -/
structure Core where
  ctx : Option Nat := none
  ops : List OpFlight := []
  wait : SeqWait := .none
  loops : List LoopFrame := []
  doneSig : Bool := false
  chan0 : Chan := {}
  chan1 : Chan := {}
  chan2 : Chan := {}
  chan3 : Chan := {}
  submit : List (Nat × Word) := []
  scanQ : List ScanChunk := []
  lfsr : Word := 1
  injMode : Nat := 0
  injRow : Nat := 0
  injCol : Nat := 0
  spareDue : List (Nat × Bool) := []
  retireWhy : Nat := 0
  bankDue : List Nat := []
  bankSwap : Option BankSwapRun := none
  bankGone : List Nat := []
  laneTest : Bool := false
  vecOps : List (Nat × Nat) := []
  deriving DecidableEq, Repr

/-! ### The memory tiers (09_memory_tiers.md) -/

/-- What a sector's tag proves and carries (R217, R219): the tenant, epoch and key generation it was made under, and the
poison source of its variant (0 clean). -/
structure SecTag where
  owner : Nat
  epoch : Nat
  gen : Nat
  poison : Nat
  deriving DecidableEq, Repr

/-- A backed page of DA (R214, R215, R226, R229). `fill` is the tag of every sector that has no tag of its own. -/
structure PageRec where
  owner : Option Nat := none
  tier : Nat := 0
  frame : Nat := 0
  place : Nat := 0
  age : Nat := 0
  epoch : Nat := 0
  moving : Bool := false
  queued : Bool := false
  lastInc : Option Nat := none
  fill : Option SecTag := none
  deriving DecidableEq, Repr

/-- Who made a DA access (R231). -/
inductive TierAgent where
  | chan (core ch : Nat)
  | engine (ctx : Nat)
  | control (iid : Nat)
  | gone
  deriving DecidableEq, Repr

/-- A DA access past stage 1: the page's owner, the sector, the row of the transfer it serves, the row to write and its poison source, and
whether its read has returned: data and poison source, where 4 stands for an integrity failure met just now. -/
structure TierAcc where
  agent : TierAgent
  owner : Nat
  da : Nat
  row : Nat
  write : Option (List Byte)
  poison : Nat
  result : Option (List Byte × Nat)
  deriving DecidableEq, Repr

/-- What the migration engine is doing (R227, R228). -/
inductive MigJob where
  | fill (page : Nat)
  | move (page tier frame : Nat)
  deriving DecidableEq, Repr

/-- The MT subsystem: page records, sector tags by DA / 512 (over a page's `fill`), retired frames (tier, frame), accesses
past stage 1 in their order, the engine's job, waiting fills, the promotion queue, FREEs that wait, frames whose
retirement is due, and the frames under memory test (tier, first, last). -/
structure Mt where
  pages : List (Nat × PageRec) := []
  tags : List (Nat × SecTag) := []
  retired : List (Nat × Nat) := []
  accs : List TierAcc := []
  job : Option MigJob := none
  fills : List Nat := []
  promo : List Nat := []
  frees : List Nat := []
  retireDue : List (Nat × Nat) := []
  testing : Option (Nat × Nat × Nat) := none
  deriving DecidableEq, Repr

/-! ### Power domains and clocks (18_clocks_power.md) -/

/-- A domain's transition: the state it enters on entry (0 off, 1 retention), whether it left off or retention on exit,
and a wake that waits for the phase to end (R24, R473). -/
structure Dom where
  target : Nat := 0
  exitFrom : Nat := 0
  wakeHeld : Bool := false
  unplanned : Bool := false
  deriving DecidableEq, Repr

/-- The DTIME of recent lock losses of the root PLL, since when the sensors are cool, and the wake timer's interrupts to the
device core. -/
structure Clk where
  losses : List Nat := []
  coolSince : Option Nat := none
  timerIrqs : Nat := 0
  deriving DecidableEq, Repr
/-! ### Contexts (14_control_scheduling.md) and the error log (16_reliability.md) -/

/-- The fault of a context (R8, R9, R352). -/
structure FaultRec where
  code : Nat
  sub : Nat
  core : Nat
  tag : Nat
  opTag : Nat
  dtime : Nat
  deriving DecidableEq, Repr

/-- The blocks reserved for a context on one of its cores (R351, R352); slots in units of one; `range` is the SPD_RANGE
entry. -/
structure Place where
  rowBase : Nat
  rows : Nat
  regBase : Nat
  regCount : Nat
  imemBase : Nat
  imemCount : Nat
  range : Nat
  deriving DecidableEq, Repr

/-- What a context switch saves of a core (R362), with the sequencer's state, its loops in progress and its DONE signal. -/
structure SavedCore where
  core : Nat
  pc : Nat
  st : Nat := 0
  loops : List LoopFrame := []
  doneSig : Bool := false
  sems : List Word
  models : List Word
  gang : Word
  outCfg : Word
  deriving DecidableEq, Repr

/-- A context beside its CTL_CX_INFO word: the core map (R353), placement, stream partition, status block, virtual time
(R361), consecutive rejections (R338), saved images, whether its teardown has begun (R365) and whether it ends with it (R371). -/
structure CtxRec where
  fault : Option FaultRec := none
  cores : List Nat := []
  place : List Place := []
  strBase : Nat := 0
  strCount : Nat := 0
  statusDa : Nat := 0
  vt : Nat := 0
  viol : Nat := 0
  saved : List SavedCore := []
  tear : Bool := false
  ends : Bool := false
  deriving DecidableEq, Repr

/-- An entry of the error log (R420). `arg` holds bytes 32 to 59 as words. -/
structure LogEntry where
  seq : Nat := 0
  dtime : Nat := 0
  cls : Nat
  kind : Nat := 0
  unit : Nat := 0
  subunit : Nat := 0xFFFF
  ctx : Nat := 0xFF
  code : Nat := 0
  sub : Nat := 0
  count : Nat := 1
  boot : Nat := 0
  arg0 : Nat := 0
  arg : List Word := []
  deriving DecidableEq, Repr

/-- A partner's violations in the open window of R417: page, ERR_STAT bit, DTIME of the first, merged count. -/
structure PartnerWin where
  page : Nat
  bit : Nat
  kind : Nat
  unit : Nat
  since : Nat
  merged : Nat
  deriving DecidableEq, Repr

/-- The page program of a log flush, and the entries that it writes (R418). -/
inductive FlashJob where
  | log (entries : Nat)
  deriving DecidableEq, Repr

/-- The error log, patrol and power-failure state of REL. `patrolTier` and `patrolFrame` say where the patrol read is,
`rowErrs` counts distinct patrol passes with an error per DRAM row (tier, row). -/
structure Rel where
  staging : List LogEntry := []
  flash : List (Nat × LogEntry) := []
  lost : Nat := 0
  program : Option FlashJob := none
  retried : Bool := false
  flushGoal : Nat := 0
  erasing : Bool := false
  suspended : Bool := false
  flushWaits : Bool := false
  windows : List PartnerWin := []
  patrolTier : Nat := 0
  patrolFrame : Nat := 0
  rowErrs : List (Nat × Nat) := []
  pfSince : Option Nat := none
  crashes : List (Nat × Nat) := []
  corr : List (Nat × Nat) := []
  rotated : List (Nat × Nat) := []
  wearAt : List (Nat × Nat) := []
  holdStarts : Bool := false
  deriving DecidableEq, Repr

/-! ### Boot records (17_security.md) -/

/-- What the records in force state (R39, R409, R434). -/
structure Recs where
  /-- reserve mode, else rotation mode -/
  reserve : Bool := true
  /-- bit n: core n enabled by the part -/
  coreEn : Nat := 0x3FFFF
  /-- usable frames of tier 0 and tier 1, and HBM3 stacks (R213) -/
  t0 : Nat := 24192
  t1 : Nat := 64512
  stackCnt : Nat := 2
  /-- as PG_CAP.VARIANT -/
  variant : Nat := 1
  /-- SVN of the running image, of the configuration and of the board record -/
  svns : List Nat := [0, 0, 0]
  /-- FLOOR of the same records (R443) -/
  floors : List Nat := [0, 0, 0]
  /-- the first of the free values that the measurements of configuration and board record are (R436) -/
  meas : Nat := 0
  /-- the first of those that the running image's measurement is -/
  measFw : Nat := 0
  deriving DecidableEq, Repr

/-! ### The sequence-stream table (08_sequence_streams.md) -/

/-- A pending swap-out (R204) or swap-in that waits for a channel place (R203), by table entry. -/
structure StreamReq where
  entry : Nat
  out : Bool
  chunk : Bool
  deriving DecidableEq, Repr

/-! ### Host rings (13_host_interface.md) -/

/-- Where a fetched submission entry stands (R334, R336): fetched, started, or complete with STATUS, CODE, SUBCODE and
DTIME. -/
inductive EntSt where
  | fetched
  | started
  | done (status code sub dtime : Nat)
  deriving DecidableEq, Repr

/-- A submission entry fetched and not yet reported (R333): `id` is the order of fetch, `body` its bytes 16 to 63 as
words. -/
structure Entry where
  id : Nat
  ctx : Nat
  queue : Nat
  opcode : Nat
  flags : Nat
  seq : Nat
  tag : Nat
  core : Nat
  body : List Word
  st : EntSt
  deriving DecidableEq, Repr

/-- A function of the host interface: the HEARTBEAT words last sampled (by queue), when one last changed, whether one
has changed, its MSI-X table words and pending bits, and the messages sent by vector. -/
structure Fn where
  beats : List (Nat × Word) := []
  lastChange : Nat := 0
  changed : Bool := false
  msix : List (Nat × Word) := []
  pend : List Nat := []
  sent : List (Nat × Nat) := []
  scrubTo : Nat := 1
  deriving DecidableEq, Repr

/-- What a host read or a debug read last returned: bytes, the EP bit, and whether it completed with Completer Abort (R327). -/
structure Resp where
  data : List Byte := []
  ep : Bool := false
  abort : Bool := false
  deriving DecidableEq, Repr

/-- The host interface: entries in the order of fetch, fetch counts and completion counts by ring. -/
structure Hif where
  entries : List Entry := []
  nextId : Nat := 0
  fetchCnt : List (Nat × Nat) := []
  fns : List (Nat × Fn) := []
  rotor : List (Nat × Nat) := []
  resp : Resp := {}
  deriving DecidableEq, Repr


/-! ### Keys (17_security.md) -/

/-- The security engine: the generation of each key slot's key (R449), the tenants whose rotation waits or walks, in
order, the walk's page and granule (R451, R452), and the last attestation report: its words before the signature, and the
first of the free values that the signature is (R446, R447). -/
structure Sec where
  gens : List (Nat × Nat) := []
  lastGen : Nat := 0
  walkQ : List Nat := []
  walkPage : Option Nat := none
  walkGran : Nat := 0
  report : List Word := []
  reportSig : Nat := 0
  deriving DecidableEq, Repr

/-! ### The Breeze tier (10_breeze_tier.md) -/

/-- A hop of a model that runs or waits for its run (R256), with the model's registers as the run's start latched them. -/
structure BrzRun where
  model : Nat
  last : Nat
  loc : Word
  cfg : Word
  thr : Word
  pre : Word
  deriving DecidableEq, Repr

/-- What R257 keeps of a model: the end index of its last wake and the hops that have ended since. -/
structure BrzModel where
  lastEnd : Option Nat := none
  hops : Nat := 0
  deriving DecidableEq, Repr

/-- An audio group beside its page (R251, R252): cursor, whether its next read is the first after activation, whether the
index that it should start at was below zero, and the wake descriptor that its next block carries. -/
structure AudioGroup where
  cursor : Nat := 0
  fresh : Bool := false
  below : Bool := false
  desc : List Word := []
  deriving DecidableEq, Repr

/-- The Breeze domain: ring bytes (R247), flags of ring blocks by number, indices written, muted index ranges, release
and settle counts, TDM ports out of step, the settings that the last sample was written under, the Breeze scratchpad
(R253), the hops that wait and the one that runs, the models, the groups and a Gust start that waits for its core. -/
structure Brz where
  ring : List Host.Cell := []
  flags : List (Nat × Nat) := []
  written : Nat := 0
  muted : List (Nat × Nat) := []
  riseAt : Option Nat := none
  settleLeft : Nat := 0
  chSettle : List (Nat × Nat) := []
  tdmLost : List Nat := []
  usedLp : Nat := 0
  usedRate : List (Nat × Nat) := []
  usedMap : List (Nat × Word) := []
  spm : List Host.Cell := []
  hopAt : Option Nat := none
  hops : List (Nat × Nat) := []
  run : Option BrzRun := none
  models : List (Nat × BrzModel) := []
  groups : List (Nat × AudioGroup) := []
  gust : Option (Nat × Nat) := none
  deriving DecidableEq, Repr

/-! ### The image pipeline (11_camera_isp.md) -/

/-- A line of a frame: its pixel codes, and whether it is good, else a replacement (R274). -/
structure IspLine where
  px : List Nat
  good : Bool
  deriving DecidableEq, Repr

/-- A frame of a camera (R275, R279, R287): count, CSI-2 number, capture time, newest sample, the latched words of the
camera and stage pages with the tag of the stage page, whether it is dropped, long packets seen, lines, lost lines, record
flags, whether its end came, lines that the pipeline has finished, whether a stripe was granted, buffers taken (display,
coding, machine vision), output lines written, whether the machine-vision output stopped, order of start, raw buffer,
and the first index of the free values that the frame uses. -/
structure IspFrame where
  count : Nat
  num : Nat
  dtime : Nat
  sample : Nat
  copy : List (Nat × Word)
  tag : Nat
  dropped : Bool
  rx : Nat := 0
  lines : List IspLine := []
  lost : Nat := 0
  flags : Nat := 0
  ended : Bool := false
  fin : Nat := 0
  begun : Bool := false
  buf0 : Option Nat := none
  buf1 : Option Nat := none
  buf2 : Option Nat := none
  out0 : Nat := 0
  out1 : Nat := 0
  out2 : Nat := 0
  mvOff : Bool := false
  order : Nat := 0
  rawBuf : Nat := 0
  free0 : Nat := 0
  deriving DecidableEq, Repr

/-- The effect of a camera-control packet on records (R292): from frame `frame` on the settings ID `id` holds, and that
frame alone carries the flags. -/
structure SensEvt where
  frame : Nat
  id : Option Nat
  unsure : Bool
  fail : Bool
  deriving DecidableEq, Repr

/-- A camera beside its pages: the frame count, the frames whose processing has not ended (the last may be receiving),
the SCLK cycle of the newest line, for each output the buffers held and the next one (R286), settings events, and the
presence state of R289: background, previous score, count of the frame that last crossed. -/
structure IspCam where
  count : Nat := 0
  frames : List IspFrame := []
  tLast : Nat := 0
  held : List (Nat × Nat) := []
  next : List (Nat × Nat) := []
  sens : List SensEvt := []
  bg : List Nat := []
  score : Option Nat := none
  crossed : Option Nat := none
  rawNext : Nat := 0
  deriving DecidableEq, Repr

/-- A packet of sensor writes (R290): camera, settings ID, entries, order of posting, and the frame whose start released
it. -/
structure CcPacket where
  cam : Nat
  id : Nat
  first : Nat
  cnt : Nat
  post : Nat
  frame : Nat
  deriving DecidableEq, Repr

/-- A camera-control bus: command memory words, packets posted, packets due in the order in which they became due. -/
structure CcBus where
  mem : List (Nat × Word) := []
  posted : List CcPacket := []
  due : List CcPacket := []
  deriving DecidableEq, Repr

/-- The image pipeline: cameras, the stripe being processed (camera), the camera last served, the lookup tables (word w
of table t, bank b, camera n at ((n × 2 + b) × 2 + t) × 2048 + w), the buses, counts of posts and frame starts. -/
structure Isp where
  cams : List (Nat × IspCam) := []
  stripe : Option Nat := none
  served : Option Nat := none
  lut : List (Nat × Word) := []
  buses : List (Nat × CcBus) := []
  posts : Nat := 0
  starts : Nat := 0
  deriving DecidableEq, Repr

/-! ### Video decode and transforms (12_video_input.md) -/

/-- A picture of a decode context: order of fetch, the AU entry's fields (R302), FLAGS and FEED_ERR of its record, used
cycles, unfilled units, dimensions, when decoding ended, its pool slot, its output count, the order in which it became
ready for output, whether it is decoded, and whether a cache lookup of it has missed. -/
structure DecPic where
  id : Nat
  da : Nat
  auFlags : Nat
  bytes : Nat
  tag : Nat
  capture : Nat
  source : Nat
  frame : Nat
  used : Nat := 0
  flags : Nat := 0
  err : Nat := 0
  unfilled : Nat := 0
  w : Nat := 0
  h : Nat := 0
  done : Nat := 0
  slot : Option Nat := none
  count : Nat := 0
  stamp : Nat := 0
  decoded : Bool := false
  missed : Bool := false
  shown : Bool := true
  regs : List (Nat × Word) := []
  deriving DecidableEq, Repr

/-- A decode context beside its pages: the picture that is fetched and not yet decoded, decoded pictures that wait for
their turn in the output order, output pictures that wait for the transform engine, references held (picture and slot),
damaged references, whether it discards (R305), counts, and the dimensions of the sequence. -/
structure DecCtx where
  cur : Option DecPic := none
  waiting : List DecPic := []
  out : List DecPic := []
  refs : List (Nat × Nat) := []
  damaged : List Nat := []
  discard : Bool := false
  nextId : Nat := 0
  count : Nat := 0
  w : Nat := 0
  h : Nat := 0
  deriving DecidableEq, Repr

/-- A decode engine: its ready queue (contexts 0 to 31), the context it decodes for, and the one it decoded for last. -/
structure DecEng where
  ready : List Nat := []
  run : Option Nat := none
  last : Option Nat := none
  deriving DecidableEq, Repr

/-- A transform in progress: context, picture, latched words of its XFM page, the cache entry that it copies (DA and tag
sector), the DA buffer that it took. -/
structure XfmRun where
  c : Nat
  pic : DecPic
  copy : List (Nat × Word)
  hit : Option (Nat × List Byte)
  buf : Option Nat
  deriving DecidableEq, Repr

/-- Decode contexts 0 to 31 (feed minus 16), engines, the transform engine with the buffers held and next by context, and
the count of pictures that became ready. -/
structure Video where
  ctxs : List (Nat × DecCtx) := []
  engs : List (Nat × DecEng) := []
  run : Option XfmRun := none
  held : List (Nat × Nat) := []
  next : List (Nat × Nat) := []
  stamps : Nat := 0
  deriving DecidableEq, Repr
/-! ### The scheduler and the control cores (14_control_scheduling.md) -/

/-- Where a job stands (R359 to R362): runnable (not started, or switched out), chosen and waiting for its cores, holding
its cores, or asked to drain. -/
inductive JobSt where
  | runnable | starting | running | draining
  deriving DecidableEq, Repr

/-- A job: its entry, context, context cores, gang size, entry slot, BATCH, semaphore and LIMIT (R355); whether it has
started; the physical cores it holds; the ACLK cycle of its last charge, of its slice's start, the slice's length and
the cycles it has run. -/
structure Job where
  id : Nat
  ctx : Nat
  cores : List Nat
  gang : Nat
  slot : Nat
  batch : Nat
  sem : Nat
  limit : Nat
  st : JobSt := .runnable
  begun : Bool := false
  held : List Nat := []
  mark : Nat := 0
  slice : Nat := 0
  len : Nat := 0
  ran : Nat := 0
  deriving DecidableEq, Repr

/-- An update (R366, R367): the loader, the cores that have loaded the new image or are loading it, the core whose job
starts are held and since when, and the core whose handover is tried again at DTIME `again`. -/
structure Upd where
  loader : Option Nat := none
  done : List Nat := []
  holding : Option Nat := none
  since : Nat := 0
  retry : Option Nat := none
  again : Nat := 0
  deriving DecidableEq, Repr

/-- The control complex: jobs, virtual times of tenants, the last ACLK cycle that a scheduling point named, the update,
and the always-on dump copy. -/
structure Ctl where
  jobs : List Job := []
  vtT : List (Nat × Nat) := []
  aclk : Nat := 0
  upd : Upd := {}
  aon : List Word := []
  deriving DecidableEq, Repr

/-! ### The boot flash (17_security.md, 16_reliability.md) -/

/-- A configuration record (R437), with the SVN and FLOOR of its header (R435). -/
structure CfgRec where
  variant : Nat := 1
  policy : Nat := 0
  stackCnt : Nat := 2
  debug : Nat := 0
  coreEn : Nat := 0x3FFFF
  bar2 : Nat := 30
  operator : Nat := 0
  pf0 : Nat := 0
  pf8 : Nat := 0
  comm : List Word := []
  svn : Nat := 0
  floor : Nat := 0
  deriving DecidableEq, Repr

/-- A board record (R439): `dims` holds DX, DY, DZ, X, Y, Z. -/
structure BrdRec where
  lp5 : Nat := 3
  split : Nat := 0
  led : Nat := 0
  kind : Nat := 0
  dims : List Nat := [1, 1, 1, 0, 0, 0]
  dirs : List Nat := []
  tdm : List Nat := []
  cam : List Nat := []
  logBase : Nat := 0
  rails : List Nat := []
  svn : Nat := 0
  floor : Nat := 0
  deriving DecidableEq, Repr

/-- What the machine uses of a firmware image's header (R435). -/
structure FwImg where
  version : Nat
  stateVer : Nat
  svn : Nat
  floor : Nat
  deriving DecidableEq, Repr

/-- What is being written to the flash; `badImage`: a staged image that failed to verify, with its RESULT (R373). -/
inductive FlashRec where
  | none
  | cfg (r : CfgRec)
  | brd (r : BrdRec)
  | image (i : FwImg)
  | badImage (result : Nat)
  | pointer (slot : Nat)
  deriving DecidableEq, Repr

/-- The boot flash beside the error log (R425, R440 to R445): the valid copies of the records, the image of each slot, the
slot that the boot pointer names, the anti-rollback record, the first of the free values that the identity record holds,
and what is being written, with whether its program was tried again. -/
structure Flash where
  cfg : CfgRec := {}
  brd : BrdRec := {}
  img0 : Option FwImg := some ⟨0, 0, 0, 0⟩
  img1 : Option FwImg := none
  slot : Nat := 0
  arFw : Nat := 0
  arCfg : Nat := 0
  arBrd : Nat := 0
  revoked : Nat := 0
  ident : Option Nat := some 0
  next : FlashRec := .none
  retried : Bool := false
  boots : Nat := 0
  deriving DecidableEq, Repr

/-! ### Pins, sideband, test access (19_test_debug.md, 20_package_pins.md) -/

/-- Levels of the reset pins, in-band interrupts sent (R504), the sideband's dynamic address, pointer and words last read (R503), the TAP's
instruction (R499), the boundary-scan register as loaded and as captured (R500), and the last debug operation's status
and data (R501). -/
structure Pins where
  perstLow : Bool := true
  pe1Low : Bool := false
  ibis : List Nat := []
  sbAddr : Option Nat := none
  sbPtr : Nat := 0
  sbData : List Word := []
  ir : Nat := 2
  bsr : Nat := 0
  captured : Nat := 0
  dbgStatus : Nat := 0
  dbgData : Word := 0
  deriving DecidableEq, Repr


/-! ### Ploem links and collectives (15_ploem_links.md) -/

/-- A COLLECTIVE descriptor in the engine's queue (R386): core, context, descriptor, the members of its gang in position
order and this member's place among them. -/
structure CollPost where
  core : Nat
  ctx : Nat
  desc : List Word
  gang : List Nat
  pos : Nat
  deriving DecidableEq, Repr

/-- A row of a collective's workspace in FMT_WIRE: bytes, poison, and whether it holds its final value (R387). -/
structure CollRow where
  bytes : List Byte
  poison : Bool := false
  final : Bool := false
  deriving DecidableEq, Repr

/-- A collective that runs (R386, R394): the members' posts in position order, their input regions at the start, the rank
of the first member, the number of members, the workspace by row, and failed attempts by chunk row: transport, compute. -/
structure CollRun where
  posts : List CollPost
  ins : List Rgn
  tenant : Nat
  rank0 : Nat
  members : Nat
  rows : List (Nat × CollRow)
  sentTries : List (Nat × Nat) := []
  sumTries : List (Nat × Nat) := []
  deriving DecidableEq, Repr

/-- A chunk that arrives on a port (R389): whose it is, its DATA bytes and its DIGEST bytes so far. -/
structure ChunkIn where
  tenant : Nat
  ctag : Nat
  chunk : Nat
  data : List Byte := []
  dig : List Byte := []
  deriving DecidableEq, Repr

/-- A port beside its page (R379 to R381): the next SEQ expected, whether a NAK is out, the SEQ of the next flit sent and
how many are unacknowledged, credits held by virtual channel, flits that wait to be forwarded (virtual channel here, port
and virtual channel there), DTIME of recent replays and retrains, lanes out of use, chunks arriving, and the TEST_SEQ of
the generator and of the last test flit received. -/
structure PlmPort where
  expect : Nat := 0
  nakOut : Bool := false
  next : Nat := 0
  unacked : Nat := 0
  cred : List (Nat × Nat) := []
  fwd : List (Nat × Nat × Nat) := []
  replays : List Nat := []
  retrains : List Nat := []
  badLanes : Nat := 0
  ins : List ChunkIn := []
  testNext : Nat := 0
  testLast : Option Nat := none
  deriving DecidableEq, Repr

/-- The ports, and the collective engine's queue and running collectives. -/
structure Ploem where
  ports : List (Nat × PlmPort) := []
  queue : List CollPost := []
  runs : List CollRun := []
  deriving DecidableEq, Repr


/-! ### The machine -/

/-- The state of the OZ7. -/
structure State where
  /-- the commands that wait, first in first out -/
  pending : List Instr := []
  /-- DTIME (R470) -/
  dtime : Nat := 0
  /-- every register of BAR0, by byte offset; absent: the reset value of RegMap -/
  regs : List (Nat × Word) := []
  /-- the header store's transactions, by page number (R36) -/
  txns : List (Nat × PageTxn) := []
  /-- transaction groups 0 to 15 (R59) -/
  groups : List (Nat × Group) := []
  /-- live counters by the BAR0 offset of their shadow's low word (R63, R65) -/
  cnt : List (Nat × Nat) := []
  /-- counter shadows, keyed as `cnt` (R65) -/
  shadow : List (Nat × Nat) := []
  /-- snapshot requests and ticks (R63, R64, R66) -/
  snap : Snap := {}
  /-- error interrupts raised to the control complex, by page number (R42) -/
  errIrqs : List (Nat × Nat) := []
  /-- the word the last register read returned to its initiator (the model's own port) -/
  rdata : Word := 0
  /-- the counter of free values drawn (the model's own field) -/
  free : Nat := 0
  /-- the cores -/
  cores : List (Nat × Core) := []
  /-- instruction memories: slot i of core n at key 16384 n + i (R79) -/
  imem : List (Nat × BitVec 64) := []
  /-- scratchpads: byte b of row r of core n at n × 2^25 + 512 r + b (R120) -/
  spad : List Host.Cell := []
  /-- row poison sources by 2^16 n + r; absent: clean (R127) -/
  rowPoison : List (Nat × Nat) := []
  /-- the sequence-stream table: word w of entry i at key 4 i + w (R196) -/
  streams : List (Nat × Word) := []
  /-- swaps of streams that are accepted and wait (R203, R204) -/
  swapReqs : List StreamReq := []
  /-- the memory tiers (R212 to R237) -/
  mt : Mt := {}
  /-- the bytes of DA as their owners read them (R214, R216) -/
  da : List Host.Cell := []
  /-- power domains by number (R472) -/
  doms : List (Nat × Dom) := []
  /-- contexts CX0 to CX127 (R351) -/
  ctxs : List (Nat × CtxRec) := []
  /-- the host interface (R324 to R347) -/
  hif : Hif := {}
  /-- jobs, updates and the dump copy (R348 to R374) -/
  ctl : Ctl := {}
  /-- keys and rotation (R449 to R454) -/
  sec : Sec := {}
  /-- the error log and REL's own state (R418) -/
  rel : Rel := {}
  /-- the Breeze tier (R238 to R270) -/
  brz : Brz := {}
  /-- the image pipeline (R271 to R300) -/
  isp : Isp := {}
  /-- video decode and transforms (R301 to R323) -/
  video : Video := {}
  /-- Ploem links and collectives (R375 to R397) -/
  plm : Ploem := {}
  /-- fabric links and directions whose next beat loses its CRC (R31) -/
  fabInj : List (Nat × Nat) := []
  /-- the records in force -/
  recs : Recs := {}
  /-- the boot flash -/
  flash : Flash := {}
  /-- pins, sideband and test access -/
  pins : Pins := {}
  /-- clocks and sensors -/
  clk : Clk := {}
  deriving DecidableEq, Repr

/-- The reasons for which the machine stops with a fault. -/
inductive Fault where
  /-- Kept for the interface: no command raises it, since the manual gives every command an effect (safe). -/
  | none
  deriving DecidableEq, Repr

/-- The reasons for which a command has no meaning. -/
inductive Refusal where
  /-- A command that the model has not reached yet; raised by no arm of `exec` (safe). -/
  | notModelled (mnemonic : String)
  deriving DecidableEq, Repr

/-- What a command or a step answers. -/
abbrev Out := Host.Outcome State Fault Refusal

/-- The machine right after a cold reset has reached step 3 of R485: the Breeze domain released, DTIME and the sample
index at zero, every other domain off, every register at its reset value. The boot flash of a provisioned OZ7-1648 in
reserve mode holds the first 1,324 free values as its identity (log entry 41). -/
def State.reset : State := { regs := [(0x10278, 2#32)], free := 1324 }

end Sys2Proof.Machine
end

