-- ==== Sys2Proof/Machine/Ops.lean ====
section
/-! DEFINITION. Machine/Ops.lean: the named operations over registers, page headers, counters, memories and free
values that every command is written with. -/

namespace Sys2Proof.Machine

/-! ### Register words and fields -/

/-- The word at a BAR0 offset. -/
def State.reg (s : State) (a : Nat) : Word :=
  match Tab.find s.regs a with
  | some w => w
  | none => regReset a

/-- The state with a register word replaced. -/
def State.setReg (s : State) (a : Nat) (w : Word) : State := { s with regs := Tab.set s.regs a w }

/-- A field of a register. -/
def State.fld (s : State) (a : Nat) (f : Fld) : Nat := wordFld (s.reg a) f

/-- The state with a field of a register replaced. -/
def State.setFld (s : State) (a : Nat) (f : Fld) (v : Nat) : State := s.setReg a (wordSet (s.reg a) f v)

/-- Whether a one-bit field is 1. -/
def State.flag (s : State) (a : Nat) (f : Fld) : Bool := s.fld a f == 1

/-- A 48-bit or 64-bit value held in a low and a high register. -/
def State.pair (s : State) (lo hi : Nat) : Nat := (s.reg lo).toNat + 2 ^ 32 * (s.reg hi).toNat

/-! ### Records of tables -/

def State.txn (s : State) (pg : Nat) : PageTxn := Tab.get s.txns {} pg
def State.setTxn (s : State) (pg : Nat) (t : PageTxn) : State := { s with txns := Tab.set s.txns pg t }
def State.group (s : State) (g : Nat) : Group := Tab.get s.groups {} g
def State.setGroup (s : State) (g : Nat) (x : Group) : State := { s with groups := Tab.set s.groups g x }
def State.core (s : State) (n : Nat) : Core := Tab.get s.cores {} n
def State.setCore (s : State) (n : Nat) (c : Core) : State := { s with cores := Tab.set s.cores n c }
def State.modCore (s : State) (n : Nat) (f : Core → Core) : State := s.setCore n (f (s.core n))
def State.dom (s : State) (d : Nat) : Dom := Tab.get s.doms {} d
def State.setDom (s : State) (d : Nat) (x : Dom) : State := { s with doms := Tab.set s.doms d x }

/-! ### Free values -/

/-- A free number, and the state that has drawn it. -/
def State.draw (s : State) : Nat × State := (Config.freeNat s.free, { s with free := s.free + 1 })

/-- The state with `k` free values drawn: values `s.free` to `s.free + k − 1` of the opaque constants. -/
def State.drew (s : State) (k : Nat) : State := { s with free := s.free + k }

/-! ### Answers -/

/-- The state with the word that a read returns to its initiator. -/
def State.answers (s : State) (w : Word) : State := { s with rdata := w }

/-! ### Time -/

/-- DTIME carried forward to `t`, never back (log entry 5). -/
def State.at (s : State) (t : Nat) : State := { s with dtime := max s.dtime t }

/-! ### Counters -/

/-- The key of header counter `i` of the page at `base`: the offset of its shadow's low word (R65). -/
def cntKey (base i : Nat) : Nat := base + 0x40 + 8 * i

/-- A live counter (64 bits). -/
def State.counter (s : State) (key : Nat) : Nat := Tab.get s.cnt 0 key

/-- A live counter raised by `k`, modulo 2^64 (R65). -/
def State.addCnt (s : State) (key k : Nat) : State :=
  { s with cnt := Tab.set s.cnt key ((s.counter key + k) % 2 ^ 64) }

/-- Header counter `i` of the page at `base` raised by `k`. -/
def State.count (s : State) (base i k : Nat) : State := s.addCnt (cntKey base i) k

/-- A register field raised by `k`, saturating at its width. -/
def State.satFld (s : State) (a : Nat) (f : Fld) (k : Nat) : State :=
  s.setFld a f (satAdd (f.hi + 1 - f.lo) (s.fld a f) k)

/-! ### Page headers (R36 to R43) -/

namespace Hdr
def txnCtrl : Nat := 0x10
def txnTag : Nat := 0x14
def errStat : Nat := 0x20
def errEn : Nat := 0x24
def errFirst : Nat := 0x28
def errInj : Nat := 0x2C
def dtimeLo : Nat := 0x34
def dtimeHi : Nat := 0x38
def accTbl : Nat := 0x80
/-- TXN_CTRL.APPLY, APPLY_SEL and GROUP (R49). -/
def apply : Fld := ⟨4, 2⟩
def applySel : Fld := ⟨15, 8⟩
def group : Fld := ⟨19, 16⟩
end Hdr

-- The bits of ERR_STAT that every page has (R42).
namespace Err
def txnReq : Nat := 0
def txnBusy : Nat := 1
def txnOwner : Nat := 2
def txnFull : Nat := 3
def txnState : Nat := 4
def encRsvd : Nat := 5
def accDeny : Nat := 6
def domainOff : Nat := 7
def applyLate : Nat := 8
def unmapped : Nat := 9
end Err

/-- The initiator that an error without a register access is captured with (R43). -/
def iidNone : Nat := 0x1F

/-- The four rights of an initiator in the access table of the page at `base` (R45). -/
def State.rights (s : State) (base iid : Nat) : Nat :=
  bitsOf (s.reg (base + Hdr.accTbl + 4 * (iid / 8))).toNat (4 * (iid % 8) + 3) (4 * (iid % 8))

def State.fn (s : State) (f : Nat) : Fn := Tab.get s.hif.fns {} f
def State.setFn (s : State) (f : Nat) (x : Fn) : State := { s with hif := { s.hif with fns := Tab.set s.hif.fns f x } }
def State.modFn (s : State) (f : Nat) (g : Fn → Fn) : State := s.setFn f (g (s.fn f))

/-- Vector `v` of function `f` is signalled (R331): a masked vector sets its pending bit, and a vector control word that
nothing has written is masked (log entry 14). A DISABLED function sends nothing. -/
def msixSend (f v : Nat) (s : State) : State :=
  if s.fld (R.HIF_FN_STATE f) F.HIF_FN_STATE_STATE = 0 then s
  else
    s.modFn f (fun x =>
      if bitOf (Tab.get x.msix 1#32 (4 * v + 3)).toNat 0 then
        (if x.pend.contains v then x else { x with pend := x.pend ++ [v] })
      else { x with sent := Tab.set x.sent v (Tab.get x.sent 0 v + 1) })

/-- The error interrupt of the page at `base` (R42): counted for the control complex, and signalled to every function
that may read the page (R331). -/
def errIrq (base : Nat) (s : State) : State :=
  (List.range 16).foldl (fun t f =>
      if bitOf (t.rights base f) 0 then msixSend f (t.fld (R.HIF_VEC f) F.HIF_VEC_ERR) t else t)
    { s with errIrqs := Tab.set s.errIrqs (base / 4096) (Tab.get s.errIrqs 0 (base / 4096) + 1) }

/-- ERR_STAT bit `bit` of the page at `base` is set by an access of `iid` at page offset `off`: the first error after
ERR_STAT was all zeros is captured, and a bit that becomes set and enabled raises the page's interrupt (R42, R43). -/
def raiseErr (base bit iid off : Nat) (s : State) : State :=
  let st := (s.reg (base + Hdr.errStat)).toNat
  if bitOf st bit then s
  else
    let s1 := s.setReg (base + Hdr.errStat) (s.reg (base + Hdr.errStat) ||| bit32 bit)
    let s2 :=
      if st = 0 then
        s1.setReg (base + Hdr.errFirst) (BitVec.ofNat 32 (bit + 32 * iid + 1024 * off + 2 ^ 31))
      else s1
    if bitOf (s.reg (base + Hdr.errEn)).toNat bit then errIrq base s2 else s2

/-- ERR_STAT bit `bit` of the page at `base` is set by an event of the block. -/
def errEvent (base bit : Nat) (s : State) : State := raiseErr base bit iidNone 0 s

/-- `errEvent` where a condition holds. -/
def errIf (c : Bool) (base bit : Nat) (s : State) : State := if c then errEvent base bit s else s

/-! ### Power state of a page (R37, R41, R472) -/

/-- STATE of a domain as PG_STATE.POWER codes it: 0 off, 1 retention, 2 on, 3 in transition. -/
def State.domState (s : State) (d : Nat) : Nat := s.fld (R.PWR_DOM_STATUS d) F.PWR_DOM_STATUS_STATE

/-- Whether the derived clocks run: the root PLL is locked and no thermal trip has stopped them (R468, R469). -/
def State.clocks (s : State) : Bool := s.fld R.CLK_STATUS F.CLK_STATUS_PLL_LOCK == 1 && s.fld R.CLK_STATUS F.CLK_STATUS_TRIP == 0

/-- Whether a domain is on and its clocks run, so that it takes accesses and operations. The Breeze domain runs on BCLK. -/
def State.domOn (s : State) (d : Nat) : Bool := s.domState d == 2 && (d == 30 || s.clocks)

/-- Whether the record leaves a domain disabled: a core, or the second stack (R1, R472). -/
def State.disabled (s : State) (d : Nat) : Bool :=
  (decide (d < 18) && !bitOf s.recs.coreEn d) || (d == 19 && s.recs.stackCnt == 1)

/-- Whether the boot chain has completed, so that the control complex runs (R440); production test halts it (R499). -/
def State.booted (s : State) : Bool := s.fld R.SEC_BOOT F.SEC_BOOT_STAGE == 7 && s.fld R.TST_MODE F.TST_MODE_PROD == 0

/-- STATE and PHASE of a domain set: stable 0, entering 1, exiting 2 (R488). -/
def setDomState (d st ph : Nat) (s : State) : State :=
  (s.setFld (R.PWR_DOM_STATUS d) F.PWR_DOM_STATUS_STATE st).setFld (R.PWR_DOM_STATUS d) F.PWR_DOM_STATUS_PHASE ph

/-- A domain in retention or off begins its exit (R473, R478); the root PLL is enabled for it (R466). Nothing begins after
a thermal trip (R468), or before the boot chain has completed (R441). -/
def startExit (d : Nat) (s : State) : State :=
  if s.flag R.CLK_STATUS F.CLK_STATUS_TRIP ∨ s.disabled d ∨ !s.booted then s
  else
    let x := s.dom d
    let s1 := setDomState d 3 2 (s.setDom d { x with exitFrom := s.domState d, wakeHeld := false, unplanned := false })
    let s2 := (s1.setFld (R.PWR_DOM_STATUS d) F.PWR_DOM_STATUS_WAKE_HELD 0).setFld R.CLK_STATUS F.CLK_STATUS_PLL_ON 1
    let s3 := if x.wakeHeld then s2.count Pg.pwr 3 1 else s2
    if x.unplanned then errEvent Pg.pwr E.pwr_UNPLANNED (s3.count Pg.pwr 4 1) else s3

/-- A wake of domain `d` (R19, R24, R474): it waits for an entry to end, joins an exit under way, and starts the exit of a
domain in retention or off. `unplanned`: a core DMA's access to a tier caused it. -/
def wakeDom (d : Nat) (unplanned : Bool) (s : State) : State :=
  match s.domState d with
  | 2 => s
  | 3 =>
    if s.fld (R.PWR_DOM_STATUS d) F.PWR_DOM_STATUS_PHASE = 1 then
      (s.setDom d { s.dom d with wakeHeld := true, unplanned := (s.dom d).unplanned || unplanned }).setFld
        (R.PWR_DOM_STATUS d) F.PWR_DOM_STATUS_WAKE_HELD 1
    else s.count Pg.pwr 3 1
  | _ => startExit d (s.setDom d { s.dom d with wakeHeld := false, unplanned := unplanned })

/-- The power domain that holds the block registers of a page (R37, R472). -/
def pageDomain (k : PageKind) (inst : Nat) : Nat :=
  match k with
  | .mgt0 | .mgtSnap | .mgtTel | .tstMode | .tstLane | .tstMem | .tstCsi | .tstD2d | .tstDbg
  | .pwr | .clk | .rel0 | .rel1 | .rel2 | .rel3
  | .brz0 | .brz1 | .brz2 | .brz4 | .brzAg => 30
  | .arr0 | .vec | .seq | .spd3 | .spd4 | .spd5 | .arr6 | .arr7 => inst
  | .mtCtrl => 18 + inst
  | .plmPort => 21 + inst
  | .isp0 | .ispPort | .ispCam | .ispPipe | .ispBus => 27
  | .dec0 | .dec1 | .decEng | .decCtx | .xfm => 28
  | _ => 29

/-- Whether the domain of the page at page number `pg` is on; an absent page has none. -/
def State.pageOn (s : State) (pg : Nat) : Bool :=
  match pageAt pg with
  | some (r, i) => s.domOn (pageDomain r.kind i)
  | none => true

/-! ### Bytes of memories (R120, R216) -/

/-- A list of cells in canonical form: addresses strictly rising, no cell equal to what an unlisted address reads as
(zero, log entry 6). -/
def Memory.wf : List Host.Cell → Bool
  | [] => true
  | [(_, b)] => b != 0
  | (a, b) :: (a', b') :: m => b != 0 && decide (a < a') && Memory.wf ((a', b') :: m)

/-- The byte at an address; an unlisted address reads as zero. -/
def Memory.read : List Host.Cell → Nat → Byte
  | [], _ => 0
  | (i, b) :: m, a => if i = a then b else Memory.read m a

/-- The cell of `a` and `b` in front, unless it would equal what an unlisted address reads as. -/
def Memory.cons (a : Nat) (b : Byte) (m : List Host.Cell) : List Host.Cell := if b = 0 then m else (a, b) :: m

/-- A byte written, keeping the canonical form. -/
def Memory.write : List Host.Cell → Nat → Byte → List Host.Cell
  | [], a, b => Memory.cons a b []
  | (i, x) :: m, a, b =>
    if i < a then (i, x) :: Memory.write m a b
    else if i = a then Memory.cons a b m
    else Memory.cons a b ((i, x) :: m)

/-- Bytes written from address `a` upward. -/
def Memory.writeList : List Host.Cell → Nat → List Byte → List Host.Cell
  | m, _, [] => m
  | m, a, b :: bs => Memory.writeList (Memory.write m a b) (a + 1) bs

/-- `n` bytes read from address `a` upward. -/
def Memory.readList (m : List Host.Cell) (a : Nat) : Nat → List Byte
  | 0 => []
  | n + 1 => Memory.read m a :: Memory.readList m (a + 1) n

/-- The cells outside the addresses from `lo` up to `hi`, which then read as zero. -/
def Memory.zero (m : List Host.Cell) (lo hi : Nat) : List Host.Cell :=
  m.filter (fun c => decide (c.1 < lo ∨ hi ≤ c.1))

/-! ### Scratchpad rows (R120, R127) -/

/-- The address in `spad` of byte 0 of row `r` of core `n`. -/
def rowAddr (n r : Nat) : Nat := n * 2 ^ 25 + r * 512

def State.rowBytes (s : State) (n r : Nat) : List Byte := Memory.readList s.spad (rowAddr n r) 512

def State.rowByte (s : State) (n r b : Nat) : Byte := Memory.read s.spad (rowAddr n r + b)

/-- The poison source of a row: 0 clean, 1 tier ECC, 2 integrity tag, 3 collective (R127). -/
def State.rowTag (s : State) (n r : Nat) : Nat := Tab.get s.rowPoison 0 (n * 65536 + r)

def State.setRowTag (s : State) (n r src : Nat) : State :=
  { s with rowPoison := if src = 0 then Tab.del s.rowPoison (n * 65536 + r) else Tab.set s.rowPoison (n * 65536 + r) src }

/-- A whole row written, its tag set from the data (R127). -/
def State.writeRow (s : State) (n r : Nat) (bs : List Byte) (src : Nat) : State :=
  ({ s with spad := Memory.writeList s.spad (rowAddr n r) (bs.take 512) }).setRowTag n r src

/-! ### Instruction memory (R79) -/

def State.slot (s : State) (n i : Nat) : BitVec 64 := Tab.get s.imem 0 (n * 16384 + i)

def State.setSlot (s : State) (n i : Nat) (w : BitVec 64) : State :=
  { s with imem := Tab.set s.imem (n * 16384 + i) w }

end Sys2Proof.Machine
end

