-- ==== Sys2Proof/Machine/RegBus.lean ====
section
/-! DEFINITION. Machine/RegBus.lean: the register bus: which access is refused, unmapped or dropped (R35, R37, R44 to
R47), how a write meets the fields of a word (R5 to R7), the page header's registers, transactions and groups (R49 to
R61) and snapshots (R63 to R66). -/

namespace Sys2Proof.Machine

/-! ### The check of an access (R45 to R47) -/

/-- IIDs 16 to 19 and 22, which alone write ACC_TBL (R46). -/
def privileged (iid : Nat) : Bool := (16 ≤ iid && iid ≤ 19) || iid == 22

/-- IIDs 16 to 19: the control cores. -/
def isControlCore (iid : Nat) : Bool := 16 ≤ iid && iid ≤ 19

/-- Whether page offset `o` of a page of kind `k` is assigned to a register. -/
def assigned (k : PageKind) (o : Nat) : Bool :=
  if o < 0x100 then
    !(o == 0x1C || o == 0x3C || decide (0x90 ≤ o))
  else (findReg o (regsOf k)).isSome

/-- Whether a write of page offset `o` needs the transaction right (R45, R59). -/
def needsTxnRight (k : PageKind) (o : Nat) : Bool :=
  o == Hdr.txnCtrl || o == Hdr.txnTag || o == Hdr.dtimeLo || o == Hdr.dtimeHi
    || (k == .mgt0 && decide (0x200 ≤ o) && decide (o < 0x300))

/-- The initiators that hold the write right of a page, whatever its access table grants others (R30, R208, R236, R268,
R395, R488). -/
def mayHoldWrite (k : PageKind) (iid : Nat) : Bool :=
  match k with
  | .fab0 | .fab1 | .fab2 | .plm0 | .plmPort | .plmComm | .mt2 => privileged iid
  | .pwr => privileged iid || iid == 23
  | .ctlStr | .brz4 => isControlCore iid
  | _ => true

/-- Whether an initiator may write page offset `o` (R45, R46, and the registers that a chapter leaves to control cores
or marks debug). SEC_ROT_CMD takes IIDs 16 to 19 and 22 and the holders of an OPERATOR grant, which are the others with the
write right of SEC page 2 (R437, R461). -/
def State.mayWrite (s : State) (k : PageKind) (base o iid : Nat) : Bool :=
  let r := s.rights base iid
  let w := bitOf r 1 && mayHoldWrite k iid
  if 0x80 ≤ o ∧ o < 0x90 then privileged iid
  else if needsTxnRight k o then bitOf r 2
  else if o = Hdr.errInj then bitOf r 3
  else if k = .secKey ∧ o = 0x140 then (if privileged iid then w else bitOf (s.rights Pg.secAtt iid) 1)
  else
    match findReg o (regsOf k) with
    | some (d, _, _) =>
      match d.by' with
      | .any => w
      | .debug => bitOf r 3
      | .ctl => w && isControlCore iid
      | .ctlSec => w && privileged iid
    | none => w

/-- What the check of a register access finds (R35, R47). -/
inductive Gate where
  | unmapped
  | denied
  | ok (kind : PageKind) (inst : Nat)
  deriving DecidableEq, Repr

/-- The check of an access to BAR0 offset `a`. -/
def State.gate (s : State) (iid a : Nat) (write : Bool) : Gate :=
  match pageAt (a / 4096) with
  | none => .unmapped
  | some (r, i) =>
    let base := a - a % 4096
    let o := a % 4096
    if (if write then s.mayWrite r.kind base o iid else bitOf (s.rights base iid) 0) then
      (if assigned r.kind o then .ok r.kind i else .unmapped)
    else .denied

/-- An access that holds its right and meets a reserved page, range or offset (R35). -/
def unmappedAccess (iid a : Nat) (s : State) : State := raiseErr Pg.mgt0 Err.unmapped iid (a % 4096) s

/-- A refused access (R47). -/
def deniedAccess (iid a : Nat) (s : State) : State := raiseErr (a - a % 4096) Err.accDeny iid (a % 4096) s

/-- `f` where an access of `iid` to `a` is permitted; otherwise what R35 or R47 does. The register bus lies in the control
complex: while that is not on, an access from the host, the sideband or the debug port wakes it and is taken once it is
presented again (R37, R474; log entry 10), and the Breeze sequencer reaches its own pages. Before the boot chain has
completed only the sideband reaches SEC page 0 (R441), and in production test only the debug port (R499). After a thermal
trip the sideband goes on, within the pages of R503. -/
def withGate (iid a : Nat) (write : Bool) (s : State) (f : PageKind → Nat → State → State) : State :=
  if !s.booted && iid != 23 && !(iid == 20 && a / 4096 == Pg.secBoot / 4096)
      && !(iid == 21 && s.fld R.TST_MODE F.TST_MODE_PROD == 1) then s
  else if !s.domOn 29 && iid != 23 && !(iid == 20 && s.flag R.CLK_STATUS F.CLK_STATUS_TRIP) then
    if iid < 16 ∨ iid = 20 ∨ iid = 21 then wakeDom 29 false s else s
  else
    match s.gate iid a write with
    | .unmapped => unmappedAccess iid a s
    | .denied => deniedAccess iid a s
    | .ok k i => f k i s

/-! ### Fields of a write (R5 to R7) -/

/-- Whether a field's encoding is one the manual lists (R6); a hop is also a multiple of 16 (R266). -/
def FldDef.ok (f : FldDef) (v : Nat) : Bool := f.legal.isEmpty || f.legal.any (fun r => r.1 ≤ v && v ≤ r.2)

/-- The listed-value rules that depend on the register's place: BRZ_MODEL_CFG.HOP is a multiple of 16 (R266),
ISP_OUT_CFG.FMT lists the formats of its own output (R283), and MAX_W and MAX_H of DEC_CTX_MAX lie within R301 (R321). -/
def extraOk (a : Nat) (f : FldDef) (v : Nat) : Bool :=
  if a / 4096 = Pg.brz1 / 4096 ∧ a % 0x20 = 4 ∧ f.lo = 8 ∧ a % 4096 < 0x300 then v % 16 == 0
  else if 0x510 ≤ a / 4096 ∧ a / 4096 < 0x520 ∧ f.hi = 3 ∧ f.lo = 1 then
    (if a % 4096 = 0x180 then decide (v ≤ 5) else if a % 4096 = 0x140 ∨ a % 4096 = 0x160 then decide (v ≤ 1) else true)
  else if 0x590 ≤ a / 4096 ∧ a / 4096 < 0x5B0 ∧ a % 4096 = 0x104 then
    v % 2 == 0 && decide (16 ≤ v ∧ v ≤ if f.lo = 0 then 8192 else 4352)
  else true

/-- The value that open shadows leave in a word for the owner's next write (R51). -/
def shadowWord (live : Word) (a : Nat) : List RWrite → Word
  | [] => live
  | w :: ws => shadowWord (if w.addr = a then (live &&& ~~~w.mask) ||| (w.val &&& w.mask) else live) a ws

/-- A masked RWT write of `iid` to BAR0 offset `a` (R7, R51). -/
def rwtWrite (iid a : Nat) (m v : Word) (s : State) : State :=
  let base := a - a % 4096
  let t := s.txn (a / 4096)
  match t.openTxn with
  | none => raiseErr base Err.txnReq iid (a % 4096) s
  | some x =>
    if x.owner = iid then
      s.setTxn (a / 4096) { t with openTxn := some { x with shadow := x.shadow ++ [⟨a, m, v &&& m⟩] } }
    else raiseErr base Err.txnOwner iid (a % 4096) s

/-- One field of the word at BAR0 offset `a` meets a write of `v` under byte mask `bm`. -/
def fieldWrite (iid a : Nat) (bm v : Word) (s : State) (f : FldDef) : State :=
  let m := maskOf f.hi f.lo &&& bm
  if m = 0 then s
  else
    let base := a - a % 4096
    let old := s.reg a
    let nv := (old &&& ~~~m) ||| (v &&& m)
    let ok := f.ok (bitsOf nv.toNat f.hi f.lo) && extraOk a f (bitsOf nv.toNat f.hi f.lo)
    match f.acc with
    | .ro => s
    | .rc => s
    | .w1c => s.setReg a (old &&& ~~~(v &&& m))
    | .w1s => s.setReg a (old ||| (v &&& m))
    | .wo => if ok then s else raiseErr base Err.encRsvd iid (a % 4096) s
    | .rw => if ok then s.setReg a nv else raiseErr base Err.encRsvd iid (a % 4096) s
    | .rws => if ok then s.setReg a nv else raiseErr base Err.encRsvd iid (a % 4096) s
    | .rwt =>
      match (s.txn (a / 4096)).openTxn with
      | some x =>
        let sv := shadowWord old a x.shadow
        let nv' := (sv &&& ~~~m) ||| (v &&& m)
        if f.ok (bitsOf nv'.toNat f.hi f.lo) && extraOk a f (bitsOf nv'.toNat f.hi f.lo) then rwtWrite iid a m v s
        else raiseErr base Err.encRsvd iid (a % 4096) s
      | none => rwtWrite iid a m v s

/-- Every field of a word meets a write. -/
def fieldsWrite (iid a : Nat) (bm v : Word) : List FldDef → State → State
  | [], s => s
  | f :: fs, s => fieldsWrite iid a bm v fs (fieldWrite iid a bm v s f)

/-- Whether every write-only field of a register carries a listed encoding, so that its command is taken (R6). -/
def commandOk (flds : List FldDef) (bm v : Word) : Bool :=
  flds.all fun f => f.acc != .wo || (maskOf f.hi f.lo &&& bm) == 0 || f.ok (bitsOf (v &&& bm).toNat f.hi f.lo)

/-- The byte mask of four byte enables. -/
def byteMask (be : BitVec 4) : Word :=
  (if be.getLsbD 0 then 0x000000FF#32 else 0) ||| (if be.getLsbD 1 then 0x0000FF00#32 else 0)
    ||| (if be.getLsbD 2 then 0x00FF0000#32 else 0) ||| (if be.getLsbD 3 then 0xFF000000#32 else 0)

/-- A write of the fields of a block register (R37: a block whose domain is not on drops it, but for RWT fields inside
an open transaction, which go to the shadows). -/
def blockFields (iid a : Nat) (bm v : Word) (d : RegDef) (on : Bool) (s : State) : State :=
  if on then fieldsWrite iid a bm v d.flds s
  else
    let rwt := d.flds.filter (fun f => f.acc == .rwt)
    let others := d.flds.any (fun f => f.acc != .rwt && (maskOf f.hi f.lo &&& bm) != 0)
    if (s.txn (a / 4096)).openTxn.isSome && !rwt.isEmpty then
      let s1 := fieldsWrite iid a bm v rwt s
      if others then raiseErr (a - a % 4096) Err.domainOff iid (a % 4096) s1 else s1
    else raiseErr (a - a % 4096) Err.domainOff iid (a % 4096) s

/-! ### Transactions (R50 to R57) -/

/-- The RW fields of a TXN_CTRL write (R49): APPLY 5 to 7 is a reserved encoding, which leaves APPLY unchanged (R6). -/
def txnCtrlFields (iid base : Nat) (bm v : Word) (s : State) : State :=
  fieldsWrite iid (base + Hdr.txnCtrl) bm v
    [⟨4, 2, .rw, 0, 0, [(0, 4)]⟩, ⟨15, 8, .rw, 0, 0, []⟩, ⟨19, 16, .rw, 0, 0, []⟩] s

/-- BEGIN by `iid` on the page at `base` (R50). -/
def beginTxn (iid base : Nat) (s : State) : State :=
  let pg := base / 4096
  let t := s.txn pg
  match t.openTxn with
  | some _ => raiseErr base Err.txnBusy iid Hdr.txnCtrl s
  | none =>
    s.setTxn pg { t with openTxn := some ⟨iid, bitsOf (s.reg (base + Hdr.txnTag)).toNat 15 0, []⟩ }

/-- APPLY_SEL as COMMIT and FIRE check it (R54). -/
def applySelOk (corePage : Bool) (apply sel : Nat) : Bool :=
  if apply = 1 ∧ !corePage then sel ≤ 17 else if apply = 2 then sel ≤ 63 else true

/-- The pending members of group `g` over all pages (R60). -/
def State.members (s : State) (g : Nat) : List PendCommit :=
  s.txns.flatMap (fun p => p.2.pend.filter (fun c => c.group == some g))

/-- Whether the page at `base` lies in a core window. -/
def inCoreWindow (base : Nat) : Bool := decide (0x100000 ≤ base) && decide (base < 0x220000)

/-- COMMIT by `iid` on the page at `base` (R52, R54, R60). -/
def commitTxn (iid base : Nat) (s : State) : State :=
  let pg := base / 4096
  let t := s.txn pg
  match t.openTxn with
  | none => raiseErr base Err.txnState iid Hdr.txnCtrl s
  | some x =>
    if x.owner ≠ iid then raiseErr base Err.txnOwner iid Hdr.txnCtrl s
    else
      let apply := s.fld (base + Hdr.txnCtrl) Hdr.apply
      let sel := s.fld (base + Hdr.txnCtrl) Hdr.applySel
      let g := s.fld (base + Hdr.txnCtrl) Hdr.group
      let dt := s.pair (base + Hdr.dtimeLo) (base + Hdr.dtimeHi)
      if t.pend.length ≥ 4 ∨ (apply = 4 ∧ (s.members g).length ≥ 64) then
        raiseErr base Err.txnFull iid Hdr.txnCtrl s
      else if !applySelOk (inCoreWindow base) apply sel then raiseErr base Err.encRsvd iid Hdr.txnCtrl s
      else
        s.setTxn pg { t with
          openTxn := none
          pend := t.pend ++ [{ owner := iid, tag := x.tag, writes := x.shadow, apply := apply, sel := sel,
                               group := if apply = 4 then some g else none, dtime := dt, reached := false,
                               late := apply == 3 && decide (dt ≤ s.dtime), fired := false, released := false }] }

/-- ROLLBACK by `iid` on the page at `base` (R57). -/
def rollbackTxn (iid base : Nat) (s : State) : State :=
  let pg := base / 4096
  let t := s.txn pg
  match t.openTxn with
  | some x =>
    if x.owner ≠ iid then raiseErr base Err.txnOwner iid Hdr.txnCtrl s
    else s.setTxn pg { t with openTxn := none, lastResult := 3, lastTag := x.tag }
  | none =>
    match t.pend.getLast? with
    | none => raiseErr base Err.txnState iid Hdr.txnCtrl s
    | some c =>
      if c.reached ∨ c.group.isSome then raiseErr base Err.txnState iid Hdr.txnCtrl s
      else s.setTxn pg { t with pend := t.pend.dropLast, lastResult := 3, lastTag := c.tag }

/-- A TXN_CTRL write: its RW fields, then its command (R49). -/
def txnCtrlWrite (iid base : Nat) (bm v : Word) (s : State) : State :=
  let s1 := txnCtrlFields iid base bm v s
  match bitsOf (v &&& bm).toNat 1 0 with
  | 1 => beginTxn iid base s1
  | 2 => commitTxn iid base s1
  | 3 => rollbackTxn iid base s1
  | _ => s1

/-! ### Transaction groups (R59 to R61) -/

/-- `f` applied to every pending commit of every page. -/
def State.mapPend (s : State) (f : PendCommit → PendCommit) : State :=
  { s with txns := s.txns.map (fun p => (p.1, { p.2 with pend := p.2.pend.map f })) }

/-- The pages' pending commits that satisfy `p` discarded, each page reporting result `res` (R57, R60, R62). -/
def State.dropPend (s : State) (p : PendCommit → Bool) (res : Nat) : State :=
  { s with txns := s.txns.map (fun q =>
      match (q.2.pend.filter p).getLast? with
      | some c => (q.1, { q.2 with pend := q.2.pend.filter (fun x => !p x), lastResult := res, lastTag := c.tag })
      | none => q) }

/-- FIRE of group `g` (R60). -/
def fireGroup (iid g : Nat) (s : State) : State :=
  let x := s.group g
  let off := R.MGT_TXG_CTRL g
  let apply := s.fld off F.MGT_TXG_CTRL_APPLY
  let sel := s.fld off F.MGT_TXG_CTRL_APPLY_SEL
  let dt := s.pair (R.MGT_TXG_DTIME_LO g) (R.MGT_TXG_DTIME_HI g)
  if x.fired ∨ (s.members g).isEmpty then raiseErr Pg.mgt0 Err.txnState iid off s
  else if !applySelOk false apply sel then raiseErr Pg.mgt0 Err.encRsvd iid off s
  else
    let past := apply == 3 && decide (dt ≤ s.dtime)
    let s1 := s.setGroup g { fired := true, arrived := false, late := false, apply := apply, sel := sel, dtime := dt }
    s1.mapPend (fun c => if c.group == some g then { c with fired := true, late := past } else c)

/-- WITHDRAW of group `g` (R60): every member that has not been released. -/
def withdrawGroup (iid g : Nat) (s : State) : State :=
  let x := s.group g
  let drop : PendCommit → Bool := fun c => c.group == some g && !c.released
  if ((s.members g).filter drop).isEmpty then raiseErr Pg.mgt0 Err.txnState iid (R.MGT_TXG_CTRL g) s
  else
    let s1 := s.dropPend drop 3
    if x.fired ∧ x.arrived then s1 else s1.setGroup g { x with fired := false }

/-- The apply point of fired group `g` arrives (R60): the members of the fired set are released. -/
def releaseGroup (g : Nat) (s : State) : State :=
  let x := s.group g
  if x.fired ∧ !x.arrived then
    let s0 := if x.apply = 3 then s.at x.dtime else s
    let s1 := s0.setGroup g { x with arrived := true }
    s1.mapPend (fun c => if c.group == some g && c.fired then { c with released := true, reached := true } else c)
  else s

/-- After a member took effect: the group leaves fired once every member of the fired set has (R60). -/
def settleGroup (g : Nat) (late : Bool) (s : State) : State :=
  let x := s.group g
  let x1 := if late then { x with late := true } else x
  if (s.members g).any (fun c => c.fired) then s.setGroup g x1
  else s.setGroup g { x1 with fired := false, arrived := false }

/-! ### Header registers other than TXN_CTRL -/

/-- The defined bits of ERR_STAT of a page (R42). -/
def errMask (r : PageRow) : Nat :=
  0x1FF + (if r.kind = .mgt0 then 0x200 else 0) + (2 ^ r.errBits - 1) * 2 ^ 16

/-- A W1C write to ERR_STAT (R43): once every bit is clear, ERR_FIRST.VALID returns to 0; the captured fields stay. -/
def errStatWrite (base : Nat) (v : Word) (s : State) : State :=
  let s1 := s.setReg (base + Hdr.errStat) (s.reg (base + Hdr.errStat) &&& ~~~v)
  if s1.reg (base + Hdr.errStat) = 0 then
    s1.setReg (base + Hdr.errFirst) (s1.reg (base + Hdr.errFirst) &&& ~~~(bit32 31))
  else s1

/-- A write to ERR_EN (R42): enabling a bit already set raises the interrupt. -/
def errEnWrite (base : Nat) (bm v : Word) (s : State) : State :=
  let old := s.reg (base + Hdr.errEn)
  let nv := (old &&& ~~~bm) ||| (v &&& bm)
  let s1 := s.setReg (base + Hdr.errEn) nv
  if nv &&& ~~~old &&& s.reg (base + Hdr.errStat) = 0 then s1
  else errIrq base s1

/-- A write to ERR_INJ (R42, R43): FIRE sets the bit as if its event had occurred; a reserved bit of ERR_STAT has no event
and stays zero (R5). -/
def errInjWrite (iid : Nat) (r : PageRow) (base : Nat) (v : Word) (s : State) : State :=
  let b := bitsOf v.toNat 4 0
  if bitOf v.toNat 5 && bitOf (errMask r) b then raiseErr base b iid Hdr.errInj s else s

/-- A write to a header register of the page at `base`. -/
def headerWrite (iid base o : Nat) (bm v : Word) (s : State) : State :=
  match pageAt (base / 4096) with
  | none => s
  | some (r, _) =>
    if o = Hdr.txnCtrl then txnCtrlWrite iid base bm v s
    else if o = Hdr.txnTag then fieldsWrite iid (base + o) bm v [⟨15, 0, .rw, 0, 0, []⟩] s
    else if o = Hdr.errStat then errStatWrite base (v &&& bm) s
    else if o = Hdr.errEn then errEnWrite base bm v s
    else if o = Hdr.errInj then errInjWrite iid r base (v &&& bm) s
    else if o = Hdr.dtimeLo ∨ o = Hdr.dtimeHi then
      s.setReg (base + o) ((s.reg (base + o) &&& ~~~bm) ||| (v &&& bm))
    else if 0x80 ≤ o ∧ o < 0x8C then rwtWrite iid (base + o) bm v s
    else if o = 0x8C then rwtWrite iid (base + o) 0 v s
    else s

/-! ### Snapshots (R63 to R66) -/

/-- The interval between two ticks for one tenant (R64). -/
def snapInterval : Nat := 24576

/-- A snapshot request of `iid` (R63, R64). -/
def snapRequest (iid : Nat) (s : State) : State :=
  let sn := s.snap
  match sn.due with
  | some _ => { s with snap := { sn with who := sn.who ++ [iid] } }
  | none =>
    match Tab.find sn.last iid with
    | some t =>
      if iid < 16 ∧ s.dtime < t + snapInterval then
        if sn.deferred.any (fun d => d.1 == iid) then s
        else { s with snap := { sn with deferred := sn.deferred ++ [(iid, t + snapInterval)] } }
      else { s with snap := { sn with due := some (s.dtime + 2), who := [iid] } }
    | none => { s with snap := { sn with due := some (s.dtime + 2), who := [iid] } }

/-- The time of the next tick: the requested one, or the earliest deferred one. -/
def Snap.next (sn : Snap) : Option Nat :=
  match sn.due with
  | some t => some t
  | none => sn.deferred.foldl (fun m d => match m with | some t => some (min t d.2) | none => some d.2) none

/-- A snapshot tick (R63 to R66): counters of pages whose domain is on are copied into their shadows. -/
def takeSnapshot (s : State) : State :=
  match s.snap.next with
  | none => s
  | some t =>
    let s1 := s.at t
    let now := s1.dtime
    let served := (s.snap.who ++ s.snap.deferred.map (·.1)).filter (fun i => decide (i < 16))
    let sh := s1.cnt.foldl (fun m c => if s1.pageOn (c.1 / 4096) then Tab.set m c.1 c.2 else m) s1.shadow
    let offs := (List.range 31).filter (fun d => !s1.domOn d)
    { s1 with
      shadow := sh
      snap := { due := none, who := [], deferred := [],
                last := served.foldl (fun m i => Tab.set m i now) s.snap.last,
                count := s.snap.count + 1, offDoms := offs }
      regs := Tab.set (Tab.set s1.regs R.MGT_SNAP_DTIME_LO (BitVec.ofNat 32 now)) R.MGT_SNAP_DTIME_HI
        (BitVec.ofNat 32 (now / 2 ^ 32)) }

/-! ### What the header and the further shadows read as -/

/-- The pages with snapshot shadows among their block registers (R235, R320, R363, R431, R498). -/
def hasFurtherShadows (k : PageKind) : Bool :=
  k == .mt1 || k == .dec1 || k == .ctlAcc || k == .rel3 || k == .tstLane

/-- PG_CAP bits [2:0] (R39). -/
def pgCap (r : PageRow) : Nat :=
  (if (regsOf r.kind).any (fun d => d.flds.any (fun f => f.acc == .rwt)) then 1 else 0)
    + (if r.counters = 0 && !hasFurtherShadows r.kind then 0 else 2)
    + (match r.bound with | .operation => 4 | _ => 0)

/-- PG_STATE of a page (R41). -/
def State.pgState (s : State) (r : PageRow) (inst pg : Nat) : Nat :=
  let d := pageDomain r.kind inst
  let core := match r.bound with | .operation => true | _ => false
  let disabled := core && s.disabled inst
  s.domState d + 4 * (if core then s.fld (R.REL_CORE inst) F.REL_CORE_STATE else 0)
    + (if disabled then 16 else 0) + (if (s.txn pg).pend.isEmpty then 0 else 32)

/-- TXN_STATUS of a page (R49). -/
def PageTxn.status (t : PageTxn) : Nat :=
  (if t.openTxn.isSome then 1 else 0) + 4 * t.pend.length + 32 * t.lastResult
    + 256 * (match t.openTxn with | some x => x.owner | none => 0) + 65536 * t.lastTag

/-- Half of a 64-bit shadow. -/
def State.shadowWord (s : State) (key : Nat) (hi : Bool) : Word :=
  let v := Tab.get s.shadow 0 key
  BitVec.ofNat 32 (if hi then v / 2 ^ 32 else v)

/-- What header offset `o` of a page reads as (R36 to R43, R49, R65, R66). -/
def State.headerRead (s : State) (r : PageRow) (inst base o : Nat) : Word :=
  let pg := base / 4096
  if o = 0 then BitVec.ofNat 32 (r.blockType * 2 ^ 24 + (match r.bound with | .operation => inst | _ => 0) * 2 ^ 16
    + (pg % (if base < 0x300000 then 16 else 128)) * 2 ^ 8)
  else if o = 4 then 0x00000100#32
  else if o = 8 then BitVec.ofNat 32 (pgCap r) ||| (s.reg (base + 8))
  else if o = 0xC then BitVec.ofNat 32 (s.pgState r inst pg)
  else if o = Hdr.txnCtrl then s.reg (base + o)
  else if o = 0x18 then BitVec.ofNat 32 (s.txn pg).status
  else if o = Hdr.errInj then 0
  else if o = 0x30 then
    BitVec.ofNat 32 (s.snap.count % 2 ^ 31 + if s.snap.offDoms.contains (pageDomain r.kind inst) then 2 ^ 31 else 0)
  else if 0x40 ≤ o ∧ o < 0x80 then
    if (o - 0x40) / 8 < r.counters then s.shadowWord (base + o - o % 8) (o % 8 == 4) else 0
  else s.reg (base + o)

end Sys2Proof.Machine
end

