-- ==== Sys2Proof/Machine/Fault.lean ====
section
/-! DEFINITION. Machine/Fault.lean: entries of the error log (R417, R418, R420), service requests (R415) and context
faults (R8, R9, R97, R144). -/

namespace Sys2Proof.Machine

/-! ### The error log -/

/-- The classes of R421. -/
def LogCls.boot : Nat := 0x01
def LogCls.contextFault : Nat := 0x02
def LogCls.spareSwap : Nat := 0x03
def LogCls.threshold : Nat := 0x04
def LogCls.retire : Nat := 0x05
def LogCls.svc : Nat := 0x06
def LogCls.poisonMade : Nat := 0x07
def LogCls.suspect : Nat := 0x08
def LogCls.partner : Nat := 0x09
def LogCls.wear : Nat := 0x0A
def LogCls.powerFail : Nat := 0x0B
def LogCls.logDrop : Nat := 0x0C
def LogCls.crash : Nat := 0x0D
def LogCls.repair : Nat := 0x0E

/-- The kinds of unit of R420. -/
def LogKind.core : Nat := 0x01
def LogKind.row : Nat := 0x02
def LogKind.col : Nat := 0x03
def LogKind.bank : Nat := 0x04
def LogKind.ccore : Nat := 0x05
def LogKind.hbm : Nat := 0x06
def LogKind.tier1 : Nat := 0x07
def LogKind.ploem : Nat := 0x08
def LogKind.d2d : Nat := 0x09
def LogKind.fabric : Nat := 0x0A
def LogKind.pcie : Nat := 0x0B
def LogKind.csi : Nat := 0x0C
def LogKind.ccBus : Nat := 0x0D
def LogKind.tdm : Nat := 0x0E
def LogKind.sideband : Nat := 0x0F
def LogKind.flash : Nat := 0x10
def LogKind.breeze : Nat := 0x11

/-- The staging buffer holds 64 entries and forces a flush at 32 (R418). -/
def stagingSize : Nat := 64
def stagingFull : Nat := 32

/-- Entries that fill one 512-byte page (R418, R419). -/
def logPage : Nat := 8

/-- A flush of the staging buffer begins, unless one is already writing: an erase in progress is suspended (R418). -/
def startFlush (s : State) : State :=
  if s.rel.staging.isEmpty ∨ s.rel.program.isSome then
    { s with rel := { s.rel with flushGoal := max s.rel.flushGoal s.rel.staging.length } }
  else
    let r := s.rel
    ({ s with rel := { r with program := some (.log (min logPage r.staging.length)), retried := false,
                              flushGoal := r.staging.length, flushWaits := false,
                              suspended := r.erasing } }).setFld R.REL_LOG_STATUS F.REL_LOG_STATUS_FLUSHING 1

/-- One entry put into the staging buffer with the next SEQ, the time and the boot count. -/
def stageEntry (e : LogEntry) (s : State) : State :=
  let q := (s.reg R.REL_LOG_SEQ).toNat
  let e' := { e with seq := q, dtime := if e.dtime = 0 then s.dtime else e.dtime,
                     boot := s.fld R.SEC_BOOT F.SEC_BOOT_BOOTS }
  let s1 := (s.setReg R.REL_LOG_SEQ (BitVec.ofNat 32 (q + 1))).count Pg.rel2 0 1
  { s1 with rel := { s1.rel with staging := s1.rel.staging ++ [e'] } }

/-- An entry is logged (R418): a full staging buffer drops it, and the next entry written records the loss. -/
def logEntry (e : LogEntry) (s : State) : State :=
  if s.rel.staging.length ≥ stagingSize then
    let s1 := ((s.satFld R.REL_LOG_STATUS F.REL_LOG_STATUS_DROPPED 1).count Pg.rel2 2 1)
    let s2 := errEvent Pg.rel2 E.rel2_LOG_DROP s1
    { s2 with rel := { s2.rel with lost := s2.rel.lost + 1 } }
  else
    let s1 :=
      if s.rel.lost = 0 then s
      else
        let t := stageEntry { cls := LogCls.logDrop, arg0 := s.rel.lost } s
        { t with rel := { t.rel with lost := 0 } }
    let s2 :=
      if s1.rel.staging.length ≥ stagingSize then
        { s1 with rel := { s1.rel with lost := 1 } }
      else stageEntry e s1
    if s2.rel.staging.length ≥ stagingFull then startFlush s2 else s2

/-- A partner's violation that set ERR_STAT bit `bit` of the page at `base` (R417): the first in a window is logged at
once, further ones in it are merged. -/
def logPartner (base bit kind unit : Nat) (s : State) : State :=
  let pg := base / 4096
  if s.rel.windows.any (fun (w : PartnerWin) => w.page == pg && w.bit == bit) then
    ({ s with rel := { s.rel with windows := s.rel.windows.map (fun (w : PartnerWin) =>
        if w.page == pg && w.bit == bit then { w with merged := w.merged + 1 } else w) } }).count Pg.rel3 5 1
  else
    let s1 := logEntry { cls := LogCls.partner, kind := kind, unit := unit, code := bit } s
    ({ s1 with rel := { s1.rel with windows := s1.rel.windows ++ [(⟨pg, bit, kind, unit, s1.dtime, 0⟩ : PartnerWin)] } }).count
      Pg.rel3 4 1

/-! ### Service requests -/

/-- In-band interrupt `k` of the sideband where its enable is set (R504). -/
def sendIbi (k : Nat) (s : State) : State :=
  if bitOf (s.reg R.MGT_TEL_IBI_EN).toNat (k - 1) then
    { s with pins := { s.pins with ibis := s.pins.ibis ++ [k] } }.count Pg.mgtTel 0 1
  else s

/-- An event that sets reason bit `bit` of REL_SVC (R415, R428, R432): SVC_REQ_N falls and stays low. -/
def svcEvent (bit : Nat) (s0 : State) : State :=
  let s := if s0.flag R.REL_SVC F.REL_SVC_ASSERTED then s0 else sendIbi 1 s0
  let s1 := s.setReg R.REL_SVC (s.reg R.REL_SVC ||| bit32 bit ||| bit32 31)
  let s2 := (errEvent Pg.rel0 E.rel0_SVC s1).count Pg.rel0 2 1
  logEntry { cls := LogCls.svc, arg0 := (s2.reg R.REL_SVC).toNat } s2

/-! ### Contexts -/

def State.ctx (s : State) (x : Nat) : CtxRec := Tab.get s.ctxs {} x
def State.setCtx (s : State) (x : Nat) (c : CtxRec) : State := { s with ctxs := Tab.set s.ctxs x c }

/-- The tenant of a context (R329). -/
def tenantOf (x : Nat) : Nat := x / 8

/-- The context core number of physical core `n` in context `x`; 0xFF where it is none (R352, R353). -/
def State.ctxCoreOf (s : State) (x n : Nat) : Nat :=
  match leastBelow (s.ctx x).cores.length (fun i => (s.ctx x).cores.getD i 99 == n) with
  | some i => i
  | none => 0xFF

/-- The fault codes of R8. -/
def Flt.poison : Nat := 0x01
def Flt.checksum : Nat := 0x02
def Flt.parity : Nat := 0x03
def Flt.denied : Nat := 0x04
def Flt.overrun : Nat := 0x05
def Flt.malformed : Nat := 0x06
def Flt.illegal : Nat := 0x07
def Flt.missing : Nat := 0x08
def Flt.tierFail : Nat := 0x09
def Flt.integrity : Nat := 0x0A
def Flt.watchdog : Nat := 0x0B
def Flt.collective : Nat := 0x0C
def Flt.hostLost : Nat := 0x0D

/-! ### The sequencer's and the array's status words -/

def State.seqState (s : State) (n : Nat) : Nat := s.fld (R.SEQ_STATUS n) F.SEQ_STATUS_STATE
def State.setSeqState (s : State) (n v : Nat) : State := s.setFld (R.SEQ_STATUS n) F.SEQ_STATUS_STATE v
def State.pc (s : State) (n : Nat) : Nat := s.fld (R.SEQ_STATUS n) F.SEQ_STATUS_PC
def State.setPc (s : State) (n v : Nat) : State := s.setFld (R.SEQ_STATUS n) F.SEQ_STATUS_PC v
def State.arrState (s : State) (n v : Nat) : State := s.setFld (R.ARR_STATUS n) F.ARR_STATUS_STATE v

/-- Sequencer states (R96). -/
def Seq.halted : Nat := 0
def Seq.running : Nat := 1
def Seq.waiting : Nat := 2
def Seq.drained : Nat := 3
def Seq.lowPower : Nat := 4
def Seq.faulted : Nat := 5

def Core.chan (c : Core) (k : Nat) : Chan :=
  match k with
  | 0 => c.chan0
  | 1 => c.chan1
  | 2 => c.chan2
  | _ => c.chan3

def Core.setChan (c : Core) (k : Nat) (h : Chan) : Core :=
  match k with
  | 0 => { c with chan0 := h }
  | 1 => { c with chan1 := h }
  | 2 => { c with chan2 := h }
  | _ => { c with chan3 := h }

def State.chan (s : State) (n k : Nat) : Chan := (s.core n).chan k
def State.setChan (s : State) (n k : Nat) (h : Chan) : State := s.modCore n (fun c => c.setChan k h)

/-- SPD_DMA_STATUS of a channel follows its queue and its running descriptor (R149); `cause` is WAIT_CAUSE. -/
def chanStatus (n k cause : Nat) (s : State) : State :=
  let h := s.chan n k
  let held := s.flag (R.SPD_DMA_CTRL n k) F.SPD_DMA_CTRL_HOLD
  let st := match h.cur with
    | some _ => if cause = 0 then 1 else 2
    | none => if held then 3 else 0
  let tag := match h.cur with
    | some d => bitsOf (d.desc.getD 1 0).toNat 31 16
    | none => 0
  ((s.setReg (R.SPD_DMA_STATUS n k)
    (BitVec.ofNat 32 (st + 4 * h.queue.length + 256 * cause + 65536 * tag)))).setReg (R.SPD_DMA_ROWS n k)
    (BitVec.ofNat 32 (h.moved % 65536))

/-- A context's transfers on channel `k` of core `n` stop at the next row, and its queued descriptors are dropped
(R144); DA accesses still on their way land nowhere. -/
def stopChan (x n k : Nat) (s : State) : State :=
  let h := s.chan n k
  let mine : DmaDesc → Bool := fun d => d.ctx == x
  let running := match h.cur with
    | some d => mine d
    | none => false
  let h1 := { h with queue := h.queue.filter (fun (d : DmaDesc) => !mine d) }
  let h2 := if running then { h1 with cur := none, requested := 0, moved := 0, page := 0, refused := false, room := false }
    else h1
  let s1 := s.setChan n k h2
  let s2 := if running then
      { s1 with mt := { s1.mt with accs := s1.mt.accs.map (fun (a : TierAcc) =>
          if a.agent == .chan n k then { a with agent := .gone } else a) } }
    else s1
  chanStatus n k (if running then 0 else s.fld (R.SPD_DMA_STATUS n k) F.SPD_DMA_STATUS_WAIT_CAUSE) s2

/-- Every channel of the listed cores stopped for a context. -/
def stopChans (x : Nat) : List Nat → State → State
  | [], s => s
  | n :: ns, s => stopChans x ns (stopChan x n 3 (stopChan x n 2 (stopChan x n 1 (stopChan x n 0 s))))

/-- Core `n` stops for context `x` (R97): the sequencer stops, operations in flight and queued chunks of the context go,
and its uncommitted rows are discarded by leaving HEAD as it is. -/
def stopCore (x n : Nat) (s : State) : State :=
  let c := s.core n
  let s0 := s.setCore n { c with scanQ := c.scanQ.filter (fun (q : ScanChunk) => q.ctx != x) }
  if c.ctx = some x then
    let s1 := s0.modCore n (fun c => { c with ops := [], wait := .none, loops := [] })
    ((s1.setSeqState n Seq.faulted).arrState n 6).setFld (R.SEQ_STATUS n) F.SEQ_STATUS_IDLE 1
  else s0

def stopCores (x : Nat) : List Nat → State → State
  | [], s => s
  | n :: ns, s => stopCores x ns (stopCore x n s)

/-- PLM_COLL_STATUS follows the engine's queue and the collectives that run (R396). -/
def collStatus (s : State) : State :=
  (s.setFld R.PLM_COLL_STATUS F.PLM_COLL_STATUS_QUEUED s.plm.queue.length).setFld R.PLM_COLL_STATUS
    F.PLM_COLL_STATUS_ACTIVE s.plm.runs.length

/-- Whether a collective that core `n` posted for context `x` is queued or runs. -/
def State.collPending (s : State) (n x : Nat) : Bool :=
  let p : CollPost → Bool := fun p => p.core == n && p.ctx == x
  s.plm.queue.any p || s.plm.runs.any (fun r => r.posts.any p)

/-- The collectives of context `x` end without completion, queued or running (R392, R393). -/
def dropColl (x : Nat) (s : State) : State :=
  collStatus { s with plm := { s.plm with
    queue := s.plm.queue.filter (fun (p : CollPost) => p.ctx != x)
    runs := s.plm.runs.filter (fun (r : CollRun) => r.posts.all (fun (p : CollPost) => p.ctx != x)) } }

/-- A fault of code `code` counted in REL page 3 (R431). -/
def countFault (code : Nat) (s : State) : State :=
  if 1 ≤ code ∧ code ≤ 13 then s.addCnt (R.REL_FAULT_LO (code - 1)) 1 else s

/-- Context `x` faults (R8, R9). `n` is the core on which the fault arose, if any; `gang` the cores stopped with it. Only
the first fault is reported; a later one is counted (R9, R431). -/
def ctxFault (x : Nat) (n : Option Nat) (gang : List Nat) (code sub opTag : Nat) (s : State) : State :=
  let s0 := countFault code s
  let c := s0.ctx x
  match c.fault with
  | some _ => s0.count Pg.rel3 3 1
  | none =>
    let fcore := match n with
      | some k => s0.ctxCoreOf x k
      | none => 0xFF
    let s1 := s0.setCtx x { c with fault := some ⟨code, sub, fcore, 0, opTag, s0.dtime⟩ }
    let s2 := stopCores x (match n with | some k => k :: gang | none => gang) s1
    let s3 := dropColl x (stopChans x (List.range 18) s2)
    let s4 := logEntry { cls := LogCls.contextFault, kind := (if n.isSome then LogKind.core else 0), unit := n.getD 0,
                         ctx := x, code := code, sub := sub, arg0 := opTag } s3
    match n with
    | some k =>
      if code = Flt.checksum ∧ sub = 2 then s4.modCore k (fun c => { c with laneTest := true }) else s4
    | none => s4

/-- Conditions detected in the same cycle (R9, R78): the lowest code is reported and the others are counted. The list
holds code and subcode. -/
def lowestFault : List (Nat × Nat) → Option (Nat × Nat)
  | [] => none
  | f :: fs =>
    match lowestFault fs with
    | none => some f
    | some g => if g.1 < f.1 ∨ (g.1 = f.1 ∧ g.2 < f.2) then some g else some f

/-- The codes of a list other than the reported one, each once. -/
def otherCodes (code : Nat) (fs : List (Nat × Nat)) : List Nat :=
  ((fs.map (·.1)).eraseDups).filter (fun c => c != code)

/-- `ctxFault` for conditions found together. -/
def ctxFaults (x : Nat) (n : Option Nat) (gang : List Nat) (opTag : Nat) (fs : List (Nat × Nat)) (s : State) : State :=
  match lowestFault fs with
  | none => s
  | some (code, sub) =>
    let s1 := ctxFault x n gang code sub opTag s
    (otherCodes code fs).foldl (fun t c => (countFault c t).count Pg.rel3 3 1) s1

end Sys2Proof.Machine
end

