-- ==== Sys2Proof/Machine/Num.lean ====
section
/-! DEFINITION. Machine/Num.lean: the number formats of 04_number_formats.md: encodings (R99 to R101), KR4 (R102 to
R105), conversions (R106, R115), the output stage's rounding and saturation (R108 to R110) and stochastic rounding
(R112, R113). Finite values are exact dyadic numbers, so every rounding is made once, from the exact value. -/

namespace Sys2Proof.Machine

/-- The formats by their codes of R77. -/
inductive NumFmt where
  | fp32 | bf16 | fp16 | e4m3 | e5m2 | int8 | int4 | kr4
  deriving DecidableEq, Repr

/-- Format of a code of R77; codes 8 to 15 are reserved. -/
def NumFmt.ofCode : Nat → Option NumFmt
  | 0 => some .fp32 | 1 => some .bf16 | 2 => some .fp16 | 3 => some .e4m3
  | 4 => some .e5m2 | 5 => some .int8 | 6 => some .int4 | 7 => some .kr4
  | _ => none

/-- Bits of one element. -/
def NumFmt.bits : NumFmt → Nat
  | .fp32 => 32 | .bf16 | .fp16 => 16 | .e4m3 | .e5m2 | .int8 => 8 | .int4 | .kr4 => 4

/-- Whether the format is one of the five of R99. -/
def NumFmt.isFloat : NumFmt → Bool
  | .fp32 | .bf16 | .fp16 | .e4m3 | .e5m2 => true
  | _ => false

/-- A value read from or written to a floating-point format: finite values are (−1)^neg × m × 2^e. -/
inductive Fv where
  | nan
  | inf (neg : Bool)
  | fin (neg : Bool) (m : Nat) (e : Int)
  deriving DecidableEq, Repr

/-- An exact dyadic number m × 2^e. -/
structure Dy where
  m : Int
  e : Int
  deriving DecidableEq, Repr

def Dy.zero : Dy := ⟨0, 0⟩
def Dy.ofInt (i : Int) : Dy := ⟨i, 0⟩

/-- The mantissa of `x` at exponent `e`, where `e` is at most `x.e`. -/
def Dy.at (x : Dy) (e : Int) : Int := x.m * ((2 ^ (x.e - e).toNat : Nat) : Int)

def Dy.add (x y : Dy) : Dy := let e := min x.e y.e; ⟨x.at e + y.at e, e⟩
def Dy.neg (x : Dy) : Dy := ⟨-x.m, x.e⟩
def Dy.sub (x y : Dy) : Dy := x.add y.neg
def Dy.mul (x y : Dy) : Dy := ⟨x.m * y.m, x.e + y.e⟩
def Dy.abs (x : Dy) : Dy := ⟨x.m.natAbs, x.e⟩
def Dy.scale (x : Dy) (k : Int) : Dy := ⟨x.m, x.e + k⟩
def Dy.le (x y : Dy) : Bool := let e := min x.e y.e; decide (x.at e ≤ y.at e)
def Dy.lt (x y : Dy) : Bool := ! y.le x
def Dy.max (x y : Dy) : Dy := if x.le y then y else x

/-- `c` moved into the closed interval of radius `r` about zero: itself where it lies inside, else zero. -/
def Dy.within (r c : Dy) : Dy := if c.abs.le r then c else .zero

def Fv.toDy : Fv → Option Dy
  | .fin neg m e => some ⟨if neg then -(m : Int) else m, e⟩
  | _ => none

/-- The finite value of a dyadic number; zero is +0 (R109). -/
def Fv.ofDy (x : Dy) : Fv := .fin (decide (x.m < 0)) x.m.natAbs x.e

/-- Exponent bits, fraction bits and bias of R99. -/
def NumFmt.shape : NumFmt → Nat × Nat × Nat
  | .fp32 => (8, 23, 127)
  | .bf16 => (8, 7, 127)
  | .fp16 => (5, 10, 15)
  | .e4m3 => (4, 3, 7)
  | .e5m2 => (5, 2, 15)
  | _ => (0, 0, 0)

/-- Canonical NaN of R99. -/
def NumFmt.nanBits : NumFmt → Nat
  | .fp32 => 0x7FC00000 | .bf16 => 0x7FC0 | .fp16 => 0x7E00 | .e4m3 => 0x7F | .e5m2 => 0x7E | _ => 0

/-- Largest finite encoding of R99. -/
def NumFmt.maxBits : NumFmt → Nat
  | .fp32 => 0x7F7FFFFF | .bf16 => 0x7F7F | .fp16 => 0x7BFF | .e4m3 => 0x7E | .e5m2 => 0x7B | _ => 0

/-- Positive infinity; FP8-E4M3 has none (R99). -/
def NumFmt.infBits : NumFmt → Option Nat
  | .fp32 => some 0x7F800000 | .bf16 => some 0x7F80 | .fp16 => some 0x7C00 | .e5m2 => some 0x7C | _ => none

/-- Read a floating-point encoding (R99, R100: subnormals at their value, −0 as zero, any NaN as NaN). -/
def NumFmt.decode (f : NumFmt) (w : Nat) : Fv :=
  let (eb, mb, bias) := f.shape
  let frac := bitsOf w (mb - 1) 0
  let ex := bitsOf w (mb + eb - 1) mb
  let neg := bitOf w (mb + eb)
  if f = .e4m3 ∧ ex = 15 ∧ frac = 7 then .nan
  else if f ≠ .e4m3 ∧ ex = 2 ^ eb - 1 then (if frac = 0 then .inf neg else .nan)
  else if ex = 0 then .fin (neg && frac != 0) frac (1 - (bias : Int) - mb)
  else .fin neg (2 ^ mb + frac) ((ex : Int) - bias - mb)

/-- `m` shifted right by `k` with round-to-nearest-even. -/
def rneShr (m k : Nat) : Nat :=
  let q := m / 2 ^ k
  let r := m % 2 ^ k
  if 2 * r > 2 ^ k ∨ (2 * r = 2 ^ k ∧ q % 2 = 1 ∧ k ≠ 0) then q + 1 else q

/-- The quotient `a / b` rounded to the nearest integer, ties to even. -/
def rneDiv (a b : Nat) : Nat :=
  if b = 0 then 0
  else
    let q := a / b
    let r := a % b
    if 2 * r > b ∨ (2 * r = b ∧ q % 2 = 1) then q + 1 else q

/-- How `quantize` rounds: to nearest even, or up in magnitude. -/
inductive RoundMode where
  | nearest | away
  deriving DecidableEq, Repr

/-- m × 2^e rounded to `p` significant bits, with exponents not below `emin`: (n, q) with value n × 2^q. -/
def quantize (md : RoundMode) (p : Nat) (emin : Int) (m : Nat) (e : Int) : Nat × Int :=
  if m = 0 then (0, emin - ((p : Int) - 1))
  else
    let q := max (e + Nat.log2 m - ((p : Int) - 1)) (emin - ((p : Int) - 1))
    if q ≤ e then (m * 2 ^ (e - q).toNat, q)
    else
      let k := (q - e).toNat
      let n := match md with
        | .nearest => rneShr m k
        | .away => ceilDiv m (2 ^ k)
      if n = 2 ^ p then (2 ^ (p - 1), q + 1) else (n, q)

/-- The magnitude bits of n × 2^q in format `f`, or `none` past its largest finite value. -/
def NumFmt.magBits (f : NumFmt) (n : Nat) (q : Int) : Option Nat :=
  let (_, mb, bias) := f.shape
  let b := if n < 2 ^ mb then n else ((q + mb + bias).toNat) * 2 ^ mb + (n - 2 ^ mb)
  if b ≤ f.maxBits then some b else none

/-- The sign bit of format `f`. -/
def NumFmt.signBit (f : NumFmt) (neg : Bool) : Nat := if neg then 2 ^ (f.bits - 1) else 0

/-- The magnitude of a finite value rounded to format `f`. -/
def NumFmt.roundMag (f : NumFmt) (md : RoundMode) (m : Nat) (e : Int) : Option Nat :=
  let (_, mb, bias) := f.shape
  let (n, q) := quantize md (mb + 1) (1 - (bias : Int)) m e
  f.magBits n q

/-- What one conversion wrote and what the unit counts for it. -/
structure Conv where
  bits : Nat
  saturated : Bool
  nonFinite : Bool
  deriving DecidableEq, Repr

/-- A value rounded once to float format `f`, with the saturation and non-finite rules of R110. -/
def NumFmt.encode (f : NumFmt) : Fv → Conv
  | .nan => ⟨f.nanBits, false, true⟩
  | .inf neg =>
    match f.infBits with
    | some b => ⟨f.signBit neg + b, false, true⟩
    | none => ⟨f.nanBits, false, true⟩
  | .fin neg m e =>
    match f.roundMag .nearest m e with
    | some b => ⟨f.signBit (neg && m != 0) + b, false, false⟩
    | none => ⟨f.signBit neg + f.maxBits, true, false⟩

/-- A value rounded to FP32 where magnitudes beyond FP32 become infinity (step 1 of R108). -/
def toFp32Inf : Fv → Fv
  | .fin neg m e =>
    match NumFmt.fp32.roundMag .nearest m e with
    | some b => NumFmt.fp32.decode (NumFmt.fp32.signBit (neg && b != 0) + b)
    | none => .inf neg
  | v => v

/-- The smallest FP32 encoding whose value is not less than a magnitude (R116); past FP32 it is infinity. -/
def fp32Up (x : Dy) : Nat :=
  match NumFmt.fp32.roundMag .away x.m.natAbs x.e with
  | some b => b
  | none => 0x7F800000

/-- Level of a KR4 code (R102); code 8 is the marker. -/
def kr4Level (c : Nat) : Int :=
  let mag : Int := match c % 8 with
    | 1 => 23 | 2 => 48 | 3 => 73 | 4 => 102 | 5 => 135 | 6 => 179 | 7 => 256 | _ => 0
  if c ≥ 8 then -mag else mag

/-- The KR4 marker code (R102). -/
def kr4Marker : Nat := 8

/-- A quotient of two finite values, x / y with y nonzero, rounded to FP32 (magnitudes beyond FP32 become infinity). -/
def divFp32 (x y : Dy) : Fv :=
  if y.m = 0 then .fin false 0 0
  else
    let a := x.m.natAbs
    let b := y.m.natAbs
    let k := 30 + Nat.log2 b
    let q := (a * 2 ^ k) / b
    let st := if (a * 2 ^ k) % b = 0 then 0 else 1
    toFp32Inf (.fin (decide (x.m < 0) != decide (y.m < 0)) (2 * q + st) (x.e - y.e - k - 1))

/-- The magnitude code of R105 for |t|: boundaries take the smaller level. Boundaries are in halves. -/
def kr4Mag (t : Dy) : Nat :=
  let le2 (b : Int) : Bool := t.abs.le ⟨b, -1⟩
  if le2 23 then 0 else if le2 71 then 1 else if le2 121 then 2 else if le2 175 then 3
  else if le2 237 then 4 else if le2 314 then 5 else if le2 435 then 6 else 7

/-- Encode a value into KR4 with scale `s` (R105). -/
def kr4Encode (x : Fv) (s : Dy) : Conv :=
  match x with
  | .nan => ⟨kr4Marker, false, true⟩
  | .inf neg => ⟨if neg then 15 else 7, true, false⟩
  | .fin neg m e =>
    if s.m = 0 then ⟨0, false, false⟩
    else
      match divFp32 ⟨if neg then -(m : Int) else m, e + 8⟩ s with
      | .fin tn tm te =>
        let t : Dy := ⟨tm, te⟩
        let c := kr4Mag t
        ⟨if c = 0 then 0 else if tn then c + 8 else c, Dy.lt ⟨256, 0⟩ t, false⟩
      | .inf tn => ⟨if tn then 15 else 7, true, false⟩
      | .nan => ⟨kr4Marker, false, true⟩

/-- Saturation of an integer to `w` bits: the value and whether it saturated. -/
def satInt (w : Nat) (i : Int) : Int × Bool :=
  let hi : Int := (2 ^ (w - 1) : Nat) - 1
  let lo : Int := -((2 ^ (w - 1) : Nat) : Int)
  if i > hi then (hi, true) else if i < lo then (lo, true) else (i, false)

/-- Arithmetic right shift by `n` with round-to-nearest-even on the bits shifted out (R108 step 3). -/
def intShr (i : Int) (n : Nat) : Int :=
  let q := i / ((2 ^ n : Nat) : Int)
  let r := i % ((2 ^ n : Nat) : Int)
  if 2 * r > ((2 ^ n : Nat) : Int) ∨ (2 * r = ((2 ^ n : Nat) : Int) ∧ q % 2 = 1 ∧ n ≠ 0) then q + 1 else q

/-- The output stage for an integer accumulator after ACT (R108 steps 3 and 4). -/
def outInt (f : NumFmt) (acc : Int) (n : Nat) : Conv :=
  match f with
  | .int8 => let (v, sat) := satInt 8 (intShr acc n); ⟨wrapInt 8 v, sat, false⟩
  | .int4 => let (v, sat) := satInt 4 (intShr acc n); ⟨wrapInt 4 v, sat, false⟩
  | _ => NumFmt.fp32.encode (Fv.ofDy ⟨acc, -(n : Int)⟩)

/-- A value × 2^−n. -/
def Fv.shr (v : Fv) (n : Nat) : Fv :=
  match v with
  | .fin s m e => .fin s m (e - n)
  | w => w

/-- Stochastic rounding to BF16 with the 16 random bits `r` (R113). -/
def stochBf16 (v : Fv) (r : Nat) : Conv :=
  match v with
  | .fin neg m e =>
    match NumFmt.fp32.roundMag .nearest m e with
    | none => ⟨NumFmt.bf16.signBit neg + 0x7F7F, true, false⟩
    | some b =>
      let t := (b + r) / 2 ^ 16
      if t ≥ 0x7F80 then ⟨NumFmt.bf16.signBit neg + 0x7F7F, true, false⟩
      else ⟨NumFmt.bf16.signBit (neg && m != 0) + t, false, false⟩
  | w => NumFmt.bf16.encode w

/-- A float quantised to an integer format of `w` bits with scale `s`: x × top / s, rounded once and saturated; NaN
gives 0 and is counted non-finite (R106, R115). -/
def quantInt (w top : Nat) (x : Fv) (s : Dy) : Conv :=
  match x with
  | .nan => ⟨0, false, true⟩
  | .inf neg => ⟨wrapInt w (if neg then -((2 ^ (w - 1) : Nat) : Int) else (2 ^ (w - 1) : Nat) - 1), true, false⟩
  | .fin neg m e =>
    if s.m = 0 then ⟨0, false, false⟩
    else
      let d := e - s.e
      let num := m * top * 2 ^ d.toNat
      let den := s.m.natAbs * 2 ^ (-d).toNat
      let q := rneDiv num den
      let (v, sat) := satInt w (if neg then -(q : Int) else q)
      ⟨wrapInt w v, sat, false⟩

/-- A float converted to a scaled FP8 format: x × top / s rounded once, then R110 (R115). -/
def quantFp8 (f : NumFmt) (top : Nat) (x : Fv) (s : Dy) : Conv :=
  match x with
  | .fin neg m e =>
    if s.m = 0 then ⟨0, false, false⟩
    else
      let b := s.m.natAbs
      let k := 30 + Nat.log2 b
      let a := m * top * 2 ^ k
      let st := if a % b = 0 then 0 else 1
      f.encode (.fin neg (2 * (a / b) + st) (e - s.e - k - 1))
  | w => f.encode w

/-- A float value written in format `f` with scale `s`, by the conversion rules of R115 (R106 for scaled formats). -/
def NumFmt.quant (f : NumFmt) (x : Fv) (s : Dy) : Conv :=
  match f with
  | .int8 => quantInt 8 127 x s
  | .int4 => quantInt 4 7 x s
  | .kr4 => kr4Encode x s
  | .e4m3 => quantFp8 .e4m3 448 x s
  | .e5m2 => quantFp8 .e5m2 57344 x s
  | g => g.encode x

/-- One step of the generator of R112, the Galois register of x^32 + x^22 + x^2 + x + 1; the manual does not say which
way it shifts (log entry 46). -/
def lfsrStep (s : Word) : Word :=
  if Config.lfsrRight then (if s.getLsbD 0 then (s >>> 1) ^^^ 0x80200003#32 else s >>> 1)
  else if s.msb then (s <<< 1) ^^^ 0x00400007#32 else s <<< 1

/-- Unpack element `k` of a packed run of bytes (R101: little-endian, four-bit elements low nibble first). -/
def NumFmt.elem (f : NumFmt) (byteAt : Nat → Byte) (k : Nat) : Nat :=
  match f.bits with
  | 4 => let b := (byteAt (k / 2)).toNat; if k % 2 = 0 then b % 16 else b / 16
  | 8 => (byteAt k).toNat
  | 16 => (byteAt (2 * k)).toNat + 256 * (byteAt (2 * k + 1)).toNat
  | _ => (byteAt (4 * k)).toNat + 256 * (byteAt (4 * k + 1)).toNat + 65536 * (byteAt (4 * k + 2)).toNat
      + 16777216 * (byteAt (4 * k + 3)).toNat

/-- Bytes that `n` packed elements take. -/
def NumFmt.rowBytes (f : NumFmt) (n : Nat) : Nat := ceilDiv (n * f.bits) 8

/-- Pack element encodings into bytes (R101); an odd 4-bit element leaves its high nibble zero. -/
def packElems (f : NumFmt) : List Nat → List Byte
  | [] => []
  | x :: xs =>
    match f.bits with
    | 4 =>
      match xs with
      | [] => [BitVec.ofNat 8 (x % 16)]
      | y :: ys => BitVec.ofNat 8 (x % 16 + 16 * (y % 16)) :: packElems f ys
    | 8 => BitVec.ofNat 8 x :: packElems f xs
    | 16 => leBytes 2 x ++ packElems f xs
    | _ => leBytes 4 x ++ packElems f xs

/-- The real value of one element of an operand (INT and KR4 codes at their integer level, R68, R103). -/
def NumFmt.value (f : NumFmt) (w : Nat) : Fv :=
  match f with
  | .int8 => Fv.ofDy (.ofInt (sext 8 w))
  | .int4 => Fv.ofDy (.ofInt (sext 4 w))
  | .kr4 => Fv.ofDy (.ofInt (kr4Level w))
  | g => g.decode w

end Sys2Proof.Machine
end

