-- ==== Sys2Proof/Machine/Operands.lean ====
section
/-! DEFINITION. Machine/Operands.lean: the operand forms: descriptor words and their fields (R76), format pairs (R68),
regions, their rows and the checks of an access (R129 to R137), and the bytes that an operand of a region yields. -/

namespace Sys2Proof.Machine

/-! ### Descriptor words -/

/-- Word `i` of a descriptor. -/
def dw (d : List Word) (i : Nat) : Nat := (d.getD i 0).toNat

/-- Field `hi..lo` of word `i` of a descriptor. -/
def df (d : List Word) (i hi lo : Nat) : Nat := bitsOf (dw d i) hi lo

/-- The common words 0 and 1 (R76). -/
def Op.opcode (d : List Word) : Nat := df d 0 3 0
def Op.gangLog2 (d : List Word) : Nat := df d 0 6 4
def Op.accum (d : List Word) : Bool := bitOf (dw d 0) 8
def Op.relA (d : List Word) : Bool := bitOf (dw d 0) 9
def Op.relB (d : List Word) : Bool := bitOf (dw d 0) 10
def Op.act (d : List Word) : Nat := df d 0 15 12
def Op.statOut (d : List Word) : Nat := df d 0 21 16
def Op.statOutEn (d : List Word) : Bool := bitOf (dw d 0) 22
def Op.statInEn (d : List Word) : Bool := bitOf (dw d 0) 23
def Op.statIn (d : List Word) : Nat := df d 0 29 24
def Op.sigSem (d : List Word) : Nat := df d 1 5 0
def Op.sigEn (d : List Word) : Bool := bitOf (dw d 1) 6
def Op.tag (d : List Word) : Nat := df d 1 31 16

/-- Fields 15 to 24 where an operation uses them (R77, R154, R179, R198). -/
def Op.fmtA (d : List Word) : Nat := df d 2 3 0
def Op.fmtB (d : List Word) : Nat := df d 2 7 4
def Op.fmtC (d : List Word) : Nat := df d 2 11 8
def Op.fmtOut (d : List Word) : Nat := df d 2 15 12
def Op.outShift (d : List Word) : Nat := df d 2 20 16
def Op.round (d : List Word) : Nat := df d 2 22 21
def Op.regA (d : List Word) : Nat := df d 3 5 0
def Op.regB (d : List Word) : Nat := df d 3 11 6
def Op.regC (d : List Word) : Nat := df d 3 17 12
def Op.regOut (d : List Word) : Nat := df d 3 23 18
def Op.regAux (d : List Word) : Nat := df d 3 29 24

/-- The opcodes of R76. -/
def OpCode.gemm : Nat := 1
def OpCode.conv2d : Nat := 2
def OpCode.fftconv : Nat := 3
def OpCode.pool : Nat := 4
def OpCode.boxcrop : Nat := 5
def OpCode.squall : Nat := 6
def OpCode.scan : Nat := 7
def OpCode.eltwise : Nat := 8
def OpCode.collective : Nat := 9
def OpCode.dma : Nat := 10

/-- A field number among the failing ones where a condition holds. -/
def bad (c : Bool) (no : Nat) : List Nat := if c then [no] else []

/-- Reserved bits set in word `i` (subcode 0xFF, R76). -/
def rsvd (d : List Word) (i : Nat) (mask : Nat) : List Nat := bad (dw d i &&& mask != 0) 0xFF

/-- The checks of words 0 and 1 that every opcode shares (R76): reserved bits, GANG_LOG2, ACT. -/
def commonBad (d : List Word) : List Nat :=
  bad (decide (5 ≤ Op.gangLog2 d)) 2 ++ bad (decide (7 ≤ Op.act d)) 7 ++ rsvd d 0 0xC0000880 ++ rsvd d 1 0x0000FF80

/-! ### Format pairs (R68, R72) -/

/-- Whether a pair of formats is accepted (A × B). -/
def pairOk (a b : NumFmt) : Bool :=
  match a, b with
  | .int8, .int8 | .int8, .int4 | .int8, .kr4 | .int4, .int4 => true
  | .e4m3, .e4m3 | .e4m3, .e5m2 | .e5m2, .e4m3 | .e5m2, .e5m2 => true
  | .bf16, .bf16 | .fp16, .fp16 | .fp32, .fp32 => true
  | _, _ => false

/-- Whether the pair accumulates in INT32. -/
def pairInt (a : NumFmt) : Bool := a == .int8 || a == .int4

/-- K per ACLK cycle of a pair (R68); FP32 takes two cycles for each step of depth 1. -/
def pairDepth (a b : NumFmt) : Nat :=
  match a, b with
  | .int8, .int8 => 4
  | .int8, _ => 8
  | .int4, _ => 8
  | .e4m3, _ | .e5m2, _ => 4
  | .fp32, _ => 1
  | _, _ => 2

/-- Accumulator updates per output element without C (L of R72). -/
def pairSteps (a b : NumFmt) (k : Nat) : Nat := if a = .fp32 then 2 * k else ceilDiv k (pairDepth a b)

/-- Scratchpad rows that a run of bytes touches from the start of a row. -/
def rowsOf (bytes : Nat) : Nat := ceilDiv bytes 512

/-! ### Regions (R129 to R131) -/

/-- Region `r` of core `n` as its words hold it. -/
def State.rgn (s : State) (n r : Nat) : Rgn :=
  let g := s.reg (R.SPD_REGION_GEOM n r)
  let o := s.reg (R.SPD_REGION_OWNER n r)
  let h := s.reg (R.SPD_REGION_HEAD n r)
  let t := s.reg (R.SPD_REGION_TAIL n r)
  { base := wordFld g F.SPD_REGION_GEOM_BASE, size := wordFld g F.SPD_REGION_GEOM_SIZE,
    ctx := wordFld o F.SPD_REGION_OWNER_CTX, en := wordFld o F.SPD_REGION_OWNER_EN == 1,
    mode := wordFld o F.SPD_REGION_OWNER_MODE, kind := wordFld o F.SPD_REGION_OWNER_PROD_KIND,
    id := wordFld o F.SPD_REGION_OWNER_PROD_ID, head := wordFld h F.SPD_REGION_HEAD_HEAD,
    headWrap := wordFld h F.SPD_REGION_HEAD_HEAD_WRAP == 1, tail := wordFld t F.SPD_REGION_TAIL_TAIL,
    tailWrap := wordFld t F.SPD_REGION_TAIL_TAIL_WRAP == 1 }

def Rgn.raw (g : Rgn) : Bool := g.mode != 0

/-- Committed rows (R129, R131). -/
def Rgn.committed (g : Rgn) : Nat :=
  if g.raw then g.size
  else if g.head = g.tail then (if g.headWrap = g.tailWrap then 0 else g.size)
  else (g.head + g.size - g.tail) % g.size

/-- Free rows (R129). -/
def Rgn.free (g : Rgn) : Nat := g.size - g.committed

/-- The logical row of offset `k` from TAIL (ring) or BASE (raw). -/
def Rgn.row (g : Rgn) (k : Nat) : Nat := if g.raw then g.base + k % g.size else g.base + (g.tail + k) % g.size

/-- The logical row of offset `k` from HEAD. -/
def Rgn.rowHead (g : Rgn) (k : Nat) : Nat := g.base + (g.head + k) % g.size

/-- A pointer and its wrap bit moved forward by `k` rows of a region of `size` rows. -/
def movePtr (size p : Nat) (w : Bool) (k : Nat) : Nat × Bool :=
  if size = 0 then (p, w) else ((p + k) % size, if (p + k) / size % 2 = 1 then !w else w)

def ptrWord (p : Nat × Bool) : Word := BitVec.ofNat 32 (p.1 + if p.2 then 65536 else 0)

/-- HEAD of a ring region advances over `k` rows that a producer committed (R130). -/
def advanceHead (n r k : Nat) (s : State) : State :=
  let g := s.rgn n r
  if g.raw ∨ k = 0 then s
  else (s.setReg (R.SPD_REGION_HEAD n r) (ptrWord (movePtr g.size g.head g.headWrap k))).count (Pg.spd5 n) 0 k

/-- TAIL of a ring region moves forward by `k` rows, at most to HEAD (R130). -/
def releaseRows (n r k : Nat) (s : State) : State :=
  let g := s.rgn n r
  let m := min k g.committed
  if g.raw ∨ m = 0 then s
  else (s.setReg (R.SPD_REGION_TAIL n r) (ptrWord (movePtr g.size g.tail g.tailWrap m))).count (Pg.spd5 n) 1 m

/-- Position of TAIL in two turns of a region, so that a wrap is seen. -/
def Rgn.tailPos (g : Rgn) : Nat := g.tail + if g.tailWrap then g.size else 0

/-- TAIL moves to `k` rows after where TAIL stood in `g0`, if that is ahead of it (R130). -/
def releaseTo (n r : Nat) (g0 : Rgn) (k : Nat) (s : State) : State :=
  let g := s.rgn n r
  let gone := if g.size = 0 then 0 else (g.tailPos + 2 * g.size - g0.tailPos) % (2 * g.size)
  releaseRows n r (k - gone) s

/-! ### The checks of an access (R132) -/

/-- Whether rows `lo` to `hi` lie in one valid SPD_RANGE entry of context `x` on core `n`. -/
def State.inRange (s : State) (n x lo hi : Nat) : Bool :=
  anyBelow 16 fun k =>
    let l := s.reg (R.SPD_RANGE_LO n k)
    let h := s.reg (R.SPD_RANGE_HI n k)
    wordFld h F.SPD_RANGE_HI_VALID == 1 && wordFld h F.SPD_RANGE_HI_CTX == x
      && decide (wordFld l F.SPD_RANGE_LO_BASE ≤ lo) && decide (hi ≤ wordFld l F.SPD_RANGE_LO_LIMIT)

/-- Who writes a region: the code of PROD_KIND and the instance (R132, R151). -/
structure Writer where
  kind : Nat
  id : Nat
  deriving DecidableEq, Repr

/-- Operations of the core itself. -/
def Writer.ops : Writer := ⟨0, 0⟩

/-- Whether PROD_KIND and PROD_ID name a writer; for operations the instance does not matter. -/
def Writer.named (w : Writer) (g : Rgn) : Bool := g.kind == w.kind && (w.kind == 0 || w.kind == 6 || g.id == w.id)

/-- The checks of R132 on an access to region `r` of core `n` made for context `x`; `w` is the writer of a write. -/
def State.accessOk (s : State) (n x r : Nat) (w : Option Writer) : Bool :=
  let g := s.rgn n r
  g.en && g.ctx == x && s.inRange n x g.base (g.base + g.size - 1)
    && (match w with
        | none => true
        | some v => if g.raw then g.mode != 2 else v.named g)

/-- An access that failed R132 (R152). -/
def countRange (n : Nat) (s : State) : State :=
  (errEvent (Pg.spd5 n) E.spd5_RANGE_FAIL s).count (Pg.spd5 n) 3 1

/-- A region overrun (R137, R152). -/
def countOverrun (n : Nat) (s : State) : State :=
  (errEvent (Pg.spd5 n) E.spd5_OVERRUN s).count (Pg.spd5 n) 2 1

/-! ### Bytes of operands -/

/-- The bytes of the rows of a latched region from offset `k`, byte `b` counted from the first of them. -/
def State.rgnByte (s : State) (n : Nat) (g : Rgn) (k b : Nat) : Byte :=
  s.rowByte n (g.row (k + b / 512)) (b % 512)

/-- The poison source of the first poisoned row among `cnt` rows of a latched region from offset `k` (R127). -/
def State.rgnPoison (s : State) (n : Nat) (g : Rgn) (k cnt : Nat) : Nat :=
  match leastBelow cnt (fun i => s.rowTag n (g.row (k + i)) != 0) with
  | some i => s.rowTag n (g.row (k + i))
  | none => 0

/-- The subcode of POISON_CONSUMED for a row's source (R127). -/
def poisonSub (src : Nat) : Nat := if src = 3 then 4 else src

/-- A whole row of bytes from a function of the byte index. -/
def mkRow (f : Nat → Byte) : List Byte := (List.range 512).map f

/-- A little-endian FP32 or 32-bit word at byte `b` of a byte function. -/
def word32 (f : Nat → Byte) (b : Nat) : Nat :=
  (f b).toNat + 256 * (f (b + 1)).toNat + 65536 * (f (b + 2)).toNat + 16777216 * (f (b + 3)).toNat

end Sys2Proof.Machine
end

