-- ==== Sys2Proof/Machine/Checks.lean ====
section
/-! DEFINITION. Machine/Checks.lean: the checks that a core makes on an operation descriptor at issue (R78, R173, R192),
opcode by opcode: failing field numbers, refused regions and regions without room; and the rows that each operation
reads and writes. -/

namespace Sys2Proof.Machine

/-- What the checks of one descriptor found. `over` lists the regions without room. -/
structure Chk where
  fields : List Nat := []
  denied : Bool := false
  overrun : List Nat := []
  deriving DecidableEq, Repr

def Chk.add (a b : Chk) : Chk := ⟨a.fields ++ b.fields, a.denied || b.denied, a.overrun ++ b.overrun⟩

/-- The faults of R78 that a check result stands for: code and subcode, one per fault code. -/
def Chk.faults (k : Chk) : List (Nat × Nat) :=
  (if k.denied then [(Flt.denied, 0)] else [])
    ++ (match k.overrun with | [] => [] | r :: _ => [(Flt.overrun, r)])
    ++ (if k.fields.isEmpty then [] else [(Flt.malformed, k.fields.foldl min 0xFF)])

/-- Where an operation stands: core, context, gang arrangement r × c and position (p, q) (R15, R73). -/
structure Site where
  n : Nat
  x : Nat
  r : Nat
  c : Nat
  p : Nat
  q : Nat
  deriving DecidableEq, Repr

/-- The arrangement of a gang of 2^n members (R15). -/
def gangDims : Nat → Nat × Nat
  | 1 => (1, 2)
  | 2 => (2, 2)
  | 3 => (2, 4)
  | 4 => (4, 4)
  | _ => (1, 1)

/-- How many of `t` items whose index is in block i/64 fall to position `p` of `r` (R15). -/
def share64 (t r p : Nat) : Nat := (t / 64 + r - 1 - p) / r * 64 + if t / 64 % r = p then t % 64 else 0

/-- How many of `t` items fall to position `p` of `r` one by one. -/
def share1 (t r p : Nat) : Nat := (t + r - 1 - p) / r

/-- Rows that operations in flight hold beyond HEAD of region `r` of core `n` (R78). -/
def State.held (s : State) (n r : Nat) : Nat :=
  ((s.core n).ops.map (fun o => if o.run = 0 then 0 else Tab.get o.outs 0 r)).foldl (· + ·) 0

/-- A region read from offset `off` over `ext` rows; `no` is the offset's field number. -/
def readChk (s : State) (t : Site) (r off ext no : Nat) : Chk :=
  { fields := bad (decide (ext ≠ 0 ∧ (s.rgn t.n r).committed < off + ext)) no,
    denied := !s.accessOk t.n t.x r none }

/-- A region that receives `need` rows of output; `no` is the field number for a raw region (R131). -/
def writeChk (s : State) (t : Site) (r need no : Nat) : Chk :=
  let g := s.rgn t.n r
  { fields := bad g.raw no,
    denied := !s.accessOk t.n t.x r (some .ops),
    overrun := if g.raw then [] else bad (decide (g.free < s.held t.n r + need)) r }

/-- A format code that is one of `fs`. -/
def fmtIn (code : Nat) (fs : List NumFmt) : Bool :=
  match NumFmt.ofCode code with
  | some f => fs.contains f
  | none => false

def floats : List NumFmt := [.fp32, .bf16, .fp16, .e4m3, .e5m2]

/-- A value outside `lo` to `hi`. -/
def outside (v lo hi : Nat) : Bool := decide (v < lo ∨ hi < v)

/-- The formats of an array operation (fields 15 to 20, R77). -/
def pairBad (d : List Word) : List Nat :=
  match NumFmt.ofCode (Op.fmtA d), NumFmt.ofCode (Op.fmtB d) with
  | some a, some b =>
    let int := pairInt a
    bad (a == .kr4) 15 ++ bad (a != .kr4 && !pairOk a b) 16
      ++ bad (Op.accum d && Op.fmtC d != (if int then 5 else 0)) 17
      ++ bad (!fmtIn (Op.fmtOut d) (if int then [.int8, .int4, .fp32] else floats)) 18
      ++ bad (decide (2 ≤ Op.round d) || (Op.round d == 1 && (int || Op.fmtOut d != 1))) 20
      ++ bad (int && decide (2 ≤ Op.act d)) 7
  | a, b => bad a.isNone 15 ++ bad b.isNone 16 ++ bad (decide (8 ≤ Op.fmtOut d)) 18 ++ bad (decide (2 ≤ Op.round d)) 20

/-- Bits of an element of format code `c`. -/
def codeBits (c : Nat) : Nat := match NumFmt.ofCode c with | some f => f.bits | none => 8

/-- Bytes of `k` packed elements of format code `c`. -/
def codeBytes (c k : Nat) : Nat := ceilDiv (k * codeBits c) 8

/-! ### GEMM (R77, R78) -/

def Gemm.offA (d : List Word) : Nat := df d 4 15 0
def Gemm.offB (d : List Word) : Nat := df d 4 31 16
def Gemm.offC (d : List Word) : Nat := df d 5 15 0
def Gemm.m (d : List Word) : Nat := df d 6 15 0
def Gemm.n (d : List Word) : Nat := df d 6 31 16
def Gemm.k (d : List Word) : Nat := df d 7 23 0
def Gemm.strideA (d : List Word) : Nat := df d 8 12 0
def Gemm.strideB (d : List Word) : Nat := df d 8 28 16
def Gemm.strideC (d : List Word) : Nat := df d 9 12 0
def Gemm.strideOut (d : List Word) : Nat := df d 9 28 16

/-- A member's own output rows and columns. -/
def Gemm.rows (d : List Word) (t : Site) : Nat := share64 (Gemm.m d) t.r t.p
def Gemm.cols (d : List Word) (t : Site) : Nat := share64 (Gemm.n d) t.c t.q

/-- Rows from an operand's first to its last, for `lines` lines of `bytes` bytes at a stride. -/
def extent (lines stride bytes : Nat) : Nat := if lines = 0 then 0 else (lines - 1) * stride + rowsOf bytes

def strideBad (v bytes no : Nat) : List Nat := bad (outside v 1 4096 || decide (v * 512 < bytes)) no

def gemmChk (s : State) (t : Site) (d : List Word) : Chk :=
  let la := codeBytes (Op.fmtA d) (Gemm.k d)
  let lb := codeBytes (Op.fmtB d) (Gemm.k d)
  let no := Gemm.cols d t
  let mo := Gemm.rows d t
  let fs : List Nat :=
    commonBad d ++ pairBad d
      ++ bad (Op.regOut d == Op.regA d || Op.regOut d == Op.regB d || (Op.accum d && Op.regOut d == Op.regC d)) 24
      ++ bad (Gemm.m d == 0) 28 ++ bad (Gemm.n d == 0) 29 ++ bad (outside (Gemm.k d) 1 1048576) 30
      ++ strideBad (Gemm.strideA d) la 31 ++ strideBad (Gemm.strideB d) lb 32
      ++ (if Op.accum d then strideBad (Gemm.strideC d) (4 * no) 33 else [])
      ++ strideBad (Gemm.strideOut d) (codeBytes (Op.fmtOut d) no) 34
      ++ rsvd d 2 0xFF800000 ++ rsvd d 3 0xFF000000 ++ rsvd d 5 0xFFFF0000 ++ rsvd d 7 0xFF000000
      ++ rsvd d 8 0xE000E000 ++ rsvd d 9 0xE000E000
      ++ ([10, 11, 12, 13, 14, 15].map (fun i => rsvd d i 0xFFFFFFFF)).flatten
  let base : Chk := { fields := fs }
  let a := readChk s t (Op.regA d) (Gemm.offA d) (extent mo (Gemm.strideA d) la) 25
  let b := readChk s t (Op.regB d) (Gemm.offB d) (extent no (Gemm.strideB d) lb) 26
  let c := if Op.accum d then readChk s t (Op.regC d) (Gemm.offC d) (extent mo (Gemm.strideC d) (4 * no)) 27 else {}
  base.add (a.add (b.add (c.add (writeChk s t (Op.regOut d) (mo * Gemm.strideOut d) 24))))

/-! ### Window operations (R154 to R173) -/

def Win.hIn (d : List Word) : Nat := df d 6 12 0
def Win.wIn (d : List Word) : Nat := df d 6 28 16
def Win.cin (d : List Word) : Nat := df d 7 15 0
def Win.cout (d : List Word) : Nat := df d 7 31 16
def Win.padT (d : List Word) : Nat := df d 9 7 0
def Win.padB (d : List Word) : Nat := df d 9 15 8
def Win.padL (d : List Word) : Nat := df d 9 23 16
def Win.padR (d : List Word) : Nat := df d 9 31 24
def Win.nImg (d : List Word) : Nat := df d 10 7 0
def Win.groups (d : List Word) : Nat := df d 10 23 8
def Win.prIn (d : List Word) : Nat := df d 11 15 0
def Win.lbIn (d : List Word) : Nat := df d 11 31 16
def Win.prOut (d : List Word) : Nat := df d 12 15 0
def Win.lbOut (d : List Word) : Nat := df d 12 31 16

/-- The window of an operation: filter size, strides and dilations, whose places differ by opcode. -/
structure Window where
  kh : Nat
  kw : Nat
  sy : Nat
  sx : Nat
  dy : Nat
  dx : Nat
  deriving DecidableEq, Repr

def convWindow (d : List Word) : Window :=
  ⟨df d 8 3 0, df d 8 7 4, df d 8 11 8, df d 8 15 12, df d 8 19 16, df d 8 23 20⟩

def fftWindow (d : List Word) : Window :=
  ⟨df d 8 5 0, df d 8 13 8, df d 8 19 16, df d 8 23 20, df d 8 27 24, df d 8 31 28⟩

def Window.ey (w : Window) : Nat := (w.kh - 1) * w.dy + 1
def Window.ex (w : Window) : Nat := (w.kw - 1) * w.dx + 1

/-- Output lines and elements per line (R155); 0 where the window does not fit. -/
def Window.hOut (w : Window) (d : List Word) : Nat :=
  let h := Win.hIn d + Win.padT d + Win.padB d
  if h < w.ey ∨ w.sy = 0 then 0 else (h - w.ey) / w.sy + 1

def Window.wOut (w : Window) (d : List Word) : Nat :=
  let h := Win.wIn d + Win.padL d + Win.padR d
  if h < w.ex ∨ w.sx = 0 then 0 else (h - w.ex) / w.sx + 1

/-- Ranges of a window's fields (32 to 37). -/
def Window.bad (w : Window) (kmax : Nat) : List Nat :=
  Machine.bad (outside w.kh 1 kmax) 32 ++ Machine.bad (outside w.kw 1 kmax) 33 ++ Machine.bad (outside w.sy 1 8) 34
    ++ Machine.bad (outside w.sx 1 8) 35 ++ Machine.bad (outside w.dy 1 8) 36 ++ Machine.bad (outside w.dx 1 8) 37

/-- Ranges of the input's fields (28 to 30, 42, 44, 45). -/
def winInBad (d : List Word) : List Nat :=
  bad (outside (Win.hIn d) 1 8192) 28 ++ bad (outside (Win.wIn d) 1 8192) 29 ++ bad (Win.cin d == 0) 30
    ++ bad (Win.nImg d == 0) 42

def planeInBad (d : List Word) (bits : Nat) : List Nat :=
  bad (Win.lbIn d % 4 != 0 || decide (Win.lbIn d < ceilDiv (Win.wIn d * bits) 8)) 45
    ++ bad (decide (Win.prIn d * 512 < Win.hIn d * Win.lbIn d)) 44

def planeOutBad (d : List Word) (h lineBytes : Nat) : List Nat :=
  bad (Win.lbOut d % 4 != 0 || decide (Win.lbOut d < lineBytes)) 47
    ++ bad (decide (Win.prOut d * 512 < h * Win.lbOut d)) 46

def groupsBad (d : List Word) : List Nat :=
  bad (Win.groups d == 0 || Win.cin d % Win.groups d != 0 || Win.cout d % Win.groups d != 0) 43
    ++ bad (Win.cout d == 0) 31

/-- Regions that must differ (field 24). -/
def outDiffers (d : List Word) (usesB : Bool) : List Nat :=
  bad (Op.regOut d == Op.regA d || (usesB && Op.regOut d == Op.regB d) || (Op.accum d && Op.regOut d == Op.regC d)) 24

/-- A gang member's images, groups, input channels and output channels (R159). -/
def Conv.imgs (d : List Word) (t : Site) : Nat := share1 (Win.nImg d) t.r t.p
def Conv.grps (d : List Word) (t : Site) : Nat := if Win.groups d = 1 then 1 else share1 (Win.groups d) t.c t.q
def Conv.cin (d : List Word) (t : Site) : Nat :=
  if Win.groups d ≤ 1 then Win.cin d else Conv.grps d t * (Win.cin d / Win.groups d)
def Conv.cout (d : List Word) (t : Site) : Nat :=
  if Win.groups d ≤ 1 then share64 (Win.cout d) t.c t.q else Conv.grps d t * (Win.cout d / Win.groups d)
def Conv.k (d : List Word) (w : Window) : Nat := (if Win.groups d = 0 then 0 else Win.cin d / Win.groups d) * w.kh * w.kw
def Conv.strideB (d : List Word) : Nat := df d 13 12 0
def Conv.outRows (d : List Word) (t : Site) : Nat :=
  if Conv.cout d t = 0 then 0 else Conv.imgs d t * Conv.cout d t * Win.prOut d

def convChk (s : State) (t : Site) (d : List Word) : Chk :=
  let w := convWindow d
  let k := Conv.k d w
  let lb := codeBytes (Op.fmtB d) k
  let line := max (codeBytes (Op.fmtOut d) (w.wOut d)) (if Op.accum d then 4 * w.wOut d else 0)
  let no := Conv.cout d t
  let imgs := if no = 0 then 0 else Conv.imgs d t
  let fs : List Nat :=
    commonBad d ++ pairBad d ++ winInBad d ++ w.bad 11 ++ groupsBad d ++ outDiffers d true
      ++ bad (w.hOut d == 0) 28 ++ bad (w.wOut d == 0) 29 ++ bad (decide (1048576 < k)) 30
      ++ planeInBad d (codeBits (Op.fmtA d)) ++ planeOutBad d (w.hOut d) line ++ strideBad (Conv.strideB d) lb 48
      ++ rsvd d 2 0xFF800000 ++ rsvd d 3 0xFF000000 ++ rsvd d 5 0xFFFF0000 ++ rsvd d 6 0xE000E000
      ++ rsvd d 8 0xFF000000 ++ rsvd d 10 0xFF000000 ++ rsvd d 13 0xFFFFE000 ++ rsvd d 14 0xFFFFFFFF
      ++ rsvd d 15 0xFFFFFFFF
  let base : Chk := { fields := fs }
  let a := readChk s t (Op.regA d) (Gemm.offA d) (imgs * Conv.cin d t * Win.prIn d) 25
  let b := readChk s t (Op.regB d) (Gemm.offB d) (extent no (Conv.strideB d) lb) 26
  let c := if Op.accum d then readChk s t (Op.regC d) (Gemm.offC d) (Conv.outRows d t) 27 else {}
  base.add (a.add (b.add (c.add (writeChk s t (Op.regOut d) (Conv.outRows d t) 24))))

def Fft.phase1 (d : List Word) : Bool := bitOf (dw d 13) 16
def Fft.pyLog2 (d : List Word) : Nat := df d 13 23 20
def Fft.pxLog2 (d : List Word) : Nat := df d 13 27 24
def Fft.batch (d : List Word) : Nat := df d 14 6 0
def Fft.specBytes (d : List Word) : Nat := df d 14 31 16
/-- Bins of one transform (R161). -/
def Fft.bins (d : List Word) : Nat := 2 ^ Fft.pyLog2 d * (2 ^ Fft.pxLog2 d / 2 + 1)
/-- Rows of the workspace (R163). -/
def Fft.auxRows (d : List Word) : Nat :=
  Fft.batch d * (Win.cin d + Win.cout d) * rowsOf (Fft.bins d * 2 * (codeBits (Op.fmtB d) / 8))
def Fft.specRows (d : List Word) : Nat := rowsOf (Fft.bins d * Fft.specBytes d)

/-- A workspace or status region: a ring region of this core with enough free rows. -/
def auxChk (s : State) (t : Site) (r need : Nat) (others : List Nat) : Chk :=
  (writeChk s t r need 62).add { fields := bad (others.contains r) 62 }

def fftChk (s : State) (t : Site) (d : List Word) : Chk :=
  let w := fftWindow d
  let ph1 := Fft.phase1 d
  let e := (if ph1 then codeBits (Op.fmtB d) else codeBits (Op.fmtOut d)) / 8
  let need := if Win.groups d = 0 then 0 else 2 * Win.cin d * Win.cout d / Win.groups d * e
  let line := max (codeBytes (Op.fmtOut d) (w.wOut d)) (if Op.accum d then 4 * w.wOut d else 0)
  let kb := codeBytes (Op.fmtB d) (Conv.k d w)
  let fmts :=
    if ph1 then
      bad (!fmtIn (Op.fmtA d) [.fp32, .bf16, .fp16]) 15 ++ bad (!fmtIn (Op.fmtB d) [.fp32, .bf16]) 16
        ++ bad (Op.accum d && Op.fmtC d != 0) 17 ++ bad (!fmtIn (Op.fmtOut d) floats) 18
    else
      bad (decide (8 ≤ Op.fmtA d)) 15 ++ bad (!fmtIn (Op.fmtB d) [.fp32, .bf16, .fp16]) 16
        ++ bad (!fmtIn (Op.fmtOut d) [.fp32, .bf16]) 18 ++ bad (Op.act d != 0) 7
  let fs : List Nat :=
    commonBad d ++ fmts ++ bad (decide (2 ≤ Op.round d) || (Op.round d == 1 && Op.fmtOut d != 1)) 20
      ++ winInBad d ++ w.bad 63 ++ groupsBad d ++ outDiffers d true
      ++ bad (Fft.pyLog2 d != 0 && outside (Fft.pyLog2 d) 6 12) 58 ++ bad (outside (Fft.pxLog2 d) 6 12) 59
      ++ bad (if Fft.pyLog2 d = 0 then w.ey != 1 else decide (2 ^ Fft.pyLog2 d ≤ w.ey)) 58
      ++ bad (decide (2 ^ Fft.pxLog2 d ≤ w.ex)) 59
      ++ bad (ph1 && outside (Fft.batch d) 1 64) 60
      ++ bad (Fft.specBytes d % 32 != 0 || decide (Fft.specBytes d < need) || Fft.specBytes d == 0) 61
      ++ (if ph1 then
            bad (w.hOut d == 0) 28 ++ bad (w.wOut d == 0) 29 ++ planeInBad d (codeBits (Op.fmtA d))
              ++ planeOutBad d (w.hOut d) line
          else strideBad (Conv.strideB d) kb 48)
      ++ rsvd d 2 0xFF800000 ++ rsvd d 3 0xC0000000 ++ rsvd d 5 0xFFFF0000 ++ rsvd d 6 0xE000E000
      ++ rsvd d 8 0x0000C0C0 ++ rsvd d 10 0xFF000000 ++ rsvd d 13 0xF00EE000 ++ rsvd d 14 0x0000FF80
      ++ rsvd d 15 0xFFFFFFFF
  let base : Chk := { fields := fs }
  if ph1 then
    let a := readChk s t (Op.regA d) (Gemm.offA d) (Conv.imgs d t * Conv.cin d t * Win.prIn d) 25
    let b := readChk s t (Op.regB d) (Gemm.offB d) (Fft.specRows d) 26
    let c := if Op.accum d then readChk s t (Op.regC d) (Gemm.offC d) (Conv.outRows d t) 27 else {}
    let others := [Op.regA d, Op.regB d, Op.regOut d] ++ if Op.accum d then [Op.regC d] else []
    base.add (a.add (b.add (c.add ((writeChk s t (Op.regOut d) (Conv.outRows d t) 24).add
      (auxChk s t (Op.regAux d) (Fft.auxRows d) others)))))
  else
    let b := readChk s t (Op.regB d) (Gemm.offB d) (extent (Win.cout d) (Conv.strideB d) kb) 26
    base.add (b.add (writeChk s t (Op.regOut d) (Fft.specRows d) 24))

def Pool.avg (d : List Word) : Bool := bitOf (dw d 8) 24
def Pool.countPad (d : List Word) : Bool := bitOf (dw d 8) 25
def Pool.global (d : List Word) : Bool := bitOf (dw d 8) 26
def Pool.hOut (d : List Word) : Nat := if Pool.global d then 1 else (convWindow d).hOut d
def Pool.wOut (d : List Word) : Nat := if Pool.global d then 1 else (convWindow d).wOut d
def Pool.outRows (d : List Word) : Nat := Win.nImg d * Win.cin d * Win.prOut d

def poolChk (s : State) (t : Site) (d : List Word) : Chk :=
  let fs : List Nat :=
    commonBad d ++ bad (Op.gangLog2 d != 0) 2 ++ bad (Op.act d != 0) 7 ++ bad (Op.outShift d != 0) 19
      ++ (if Pool.avg d then
            bad (!fmtIn (Op.fmtA d) (.int8 :: floats)) 15
              ++ bad (if Op.fmtA d = 5 then Op.fmtOut d != 5 else !fmtIn (Op.fmtOut d) floats) 18
          else bad (!fmtIn (Op.fmtA d) (.int8 :: floats)) 15 ++ bad (Op.fmtOut d != Op.fmtA d) 18)
      ++ winInBad d ++ bad (Op.regOut d == Op.regA d) 24
      ++ (if Pool.global d then [] else
            (convWindow d).bad 15 ++ bad ((convWindow d).hOut d == 0) 28 ++ bad ((convWindow d).wOut d == 0) 29)
      ++ planeInBad d (codeBits (Op.fmtA d)) ++ planeOutBad d (Pool.hOut d) (codeBytes (Op.fmtOut d) (Pool.wOut d))
      ++ rsvd d 2 0xFFE00FF0 ++ rsvd d 3 0xFF03FFC0 ++ rsvd d 4 0xFFFF0000 ++ rsvd d 5 0xFFFFFFFF
      ++ rsvd d 6 0xE000E000 ++ rsvd d 7 0xFFFF0000 ++ rsvd d 8 0xF8000000 ++ rsvd d 10 0xFFFFFF00
      ++ rsvd d 13 0xFFFFFFFF ++ rsvd d 14 0xFFFFFFFF ++ rsvd d 15 0xFFFFFFFF
  let base : Chk := { fields := fs }
  base.add ((readChk s t (Op.regA d) (Gemm.offA d) (Win.nImg d * Win.cin d * Win.prIn d) 25).add
    (writeChk s t (Op.regOut d) (Pool.outRows d) 24))

def Box.cropH (d : List Word) : Nat := df d 8 6 0
def Box.cropW (d : List Word) : Nat := df d 8 14 8
def Box.boxes (d : List Word) : Nat := df d 8 28 16
def Box.statEn (d : List Word) : Bool := bitOf (dw d 8) 29
def Box.extrap (d : List Word) : Nat := dw d 9
def Box.outRows (d : List Word) : Nat := Box.boxes d * Win.cin d * Win.prOut d

def boxChk (s : State) (t : Site) (d : List Word) : Chk :=
  let fs : List Nat :=
    commonBad d ++ bad (Op.gangLog2 d != 0) 2 ++ bad (Op.act d != 0) 7 ++ bad (Op.outShift d != 0) 19
      ++ bad (!Op.sigEn d) 13 ++ bad (!fmtIn (Op.fmtA d) (.int8 :: floats)) 15
      ++ bad (!fmtIn (Op.fmtOut d) (.int8 :: floats)) 18 ++ winInBad d
      ++ bad (Op.regOut d == Op.regA d || Op.regOut d == Op.regB d) 24
      ++ bad (outside (Box.cropH d) 1 64) 53 ++ bad (outside (Box.cropW d) 1 64) 54 ++ bad (outside (Box.boxes d) 1 4096) 55
      ++ planeInBad d (codeBits (Op.fmtA d)) ++ planeOutBad d (Box.cropH d) (codeBytes (Op.fmtOut d) (Box.cropW d))
      ++ rsvd d 2 0xFFE00FF0 ++ rsvd d 3 0xC003F000 ++ rsvd d 5 0xFFFFFFFF ++ rsvd d 6 0xE000E000
      ++ rsvd d 7 0xFFFF0000 ++ rsvd d 8 0xC0008080 ++ rsvd d 10 0xFFFFFF00 ++ rsvd d 13 0xFFFFFFFF
      ++ rsvd d 14 0xFFFFFFFF ++ rsvd d 15 0xFFFFFFFF
  let base : Chk := { fields := fs }
  let a := readChk s t (Op.regA d) (Gemm.offA d) (Win.nImg d * Win.cin d * Win.prIn d) 25
  let b := readChk s t (Op.regB d) (Gemm.offB d) (rowsOf (32 * Box.boxes d)) 26
  let aux := if Box.statEn d then auxChk s t (Op.regAux d) (rowsOf (Box.boxes d)) [Op.regA d, Op.regB d, Op.regOut d] else {}
  base.add (a.add (b.add ((writeChk s t (Op.regOut d) (Box.outRows d) 24).add aux)))

/-- An elementwise operation: words 0 and 1 alone have a stated layout (R76; log entry 21). -/
def eltwiseChk (d : List Word) : Chk := { fields := commonBad d }

/-! ### SQUALL (R179, R180, R187, R192) -/

def Sq.kind (d : List Word) : Nat := df d 2 25 23
def Sq.mask (d : List Word) : Nat := df d 2 27 26
def Sq.stateIn (d : List Word) : Bool := bitOf (dw d 2) 28
def Sq.final (d : List Word) : Bool := bitOf (dw d 2) 29
def Sq.saveLse (d : List Word) : Bool := bitOf (dw d 2) 30
def Sq.relC (d : List Word) : Bool := bitOf (dw d 2) 31
def Sq.offAux (d : List Word) : Nat := df d 5 31 16
def Sq.hd (d : List Word) : Nat := df d 6 8 0
def Sq.gq (d : List Word) : Nat := df d 6 20 16
def Sq.qrows (d : List Word) : Nat := df d 7 12 0
def Sq.qPos0 (d : List Word) : Nat := df d 9 19 0
def Sq.kvPos0 (d : List Word) : Nat := df d 10 19 0
def Sq.span (d : List Word) : Nat := df d 11 16 0
def Sq.seqLen (d : List Word) : Nat := df d 12 20 0
def Sq.window (d : List Word) : Nat := df d 13 19 0
def Sq.regDo (d : List Word) : Nat := df d 14 5 0
def Sq.regO (d : List Word) : Nat := df d 14 11 6
def Sq.regGin (d : List Word) : Nat := df d 14 17 12
def Sq.regGout (d : List Word) : Nat := df d 14 23 18
def Sq.gIn (d : List Word) : Bool := bitOf (dw d 14) 24
def Sq.npart (d : List Word) : Nat := df d 14 29 25
def Sq.regPt (d : List Word) : Nat := df d 15 5 0
def Sq.chan (d : List Word) : Nat := df d 15 7 6
def Sq.npages (d : List Word) : Nat := df d 15 16 8
def Sq.page0 (d : List Word) : Nat := df d 15 28 17

/-- Stacked query rows M (R180). -/
def Sq.m (d : List Word) : Nat := Sq.qrows d * Sq.gq d
/-- Rows of one page image (R176): HD × e. -/
def Sq.pr (d : List Word) : Nat := Sq.hd d * (codeBits (Op.fmtB d) / 8)
def Sq.stateRows (d : List Word) : Nat := rowsOf (Sq.m d * (Sq.hd d * 4 + 32))
def Sq.dqRows (d : List Word) : Nat := rowsOf (Sq.m d * (Sq.hd d * 4))
def Sq.lseRows (d : List Word) : Nat := rowsOf (Sq.m d * 8)
def Sq.outRowRows (d : List Word) : Nat := rowsOf (codeBytes (Op.fmtOut d) (Sq.hd d))
def Sq.gradRows (d : List Word) : Nat := 2 * rowsOf (Sq.span d * Sq.hd d * 4)
/-- A member's pages of the span: the first and how many (R187). -/
def Sq.pages (d : List Word) (t : Site) : Nat × Nat :=
  let p := ceilDiv (Sq.span d) 256
  let sh := ceilDiv p (t.r * t.c)
  let u := t.p * t.c + t.q
  (u * sh, min ((u + 1) * sh) p - min (u * sh) p)

/-- Rows written to REG_OUT by kinds 0 to 2 (R180, R185). -/
def Sq.outRows (d : List Word) : Nat :=
  if Sq.kind d = 2 then Sq.dqRows d else if Sq.final d then Sq.m d * Sq.outRowRows d else Sq.stateRows d

/-- The numbered fields of the body that not every kind uses: number, word, bits, and the kinds that use it. -/
def Sq.uses : List (Nat × Nat × Nat × Nat × List Nat) := [
  (15, 2, 3, 0, [0, 2]), (16, 2, 7, 4, [0, 2, 3, 4]), (18, 2, 15, 12, [0, 1]), (20, 2, 22, 21, [0, 1]),
  (26, 2, 27, 26, [0, 2]), (27, 2, 28, 28, [0, 2]), (28, 2, 29, 29, [0, 1]), (29, 2, 30, 30, [0, 1]),
  (30, 2, 31, 31, [0, 1, 2]), (21, 3, 5, 0, [0, 2, 4]), (22, 3, 11, 6, [0, 2, 3]), (23, 3, 17, 12, [0, 1, 2]),
  (24, 3, 23, 18, [0, 1, 2]), (31, 3, 29, 24, [0, 1, 2]), (32, 4, 15, 0, [0, 2, 4]), (33, 4, 31, 16, [0, 2]),
  (34, 5, 15, 0, [0, 2]), (35, 5, 31, 16, [2]), (37, 6, 20, 16, [0, 1, 2]), (38, 7, 12, 0, [0, 1, 2]),
  (39, 8, 31, 0, [0, 2]), (40, 9, 19, 0, [0, 2]), (41, 10, 19, 0, [0, 2, 3, 4]), (42, 11, 16, 0, [0, 2, 4]),
  (43, 12, 20, 0, [0, 2]), (44, 13, 19, 0, [0, 2]), (45, 14, 5, 0, [2]), (46, 14, 11, 6, [2]), (47, 14, 17, 12, [2]),
  (48, 14, 23, 18, [2]), (49, 14, 24, 24, [2]), (50, 14, 29, 25, [1]), (51, 15, 5, 0, [3, 4]), (52, 15, 7, 6, [3, 4]),
  (53, 15, 16, 8, [3]), (54, 15, 28, 17, [3, 4])]

/-- Fields that the kind does not use and that are not zero (R179). -/
def Sq.unused (d : List Word) : List Nat :=
  (Sq.uses.filter (fun u => !u.2.2.2.2.contains (Sq.kind d) && df d u.2.1 u.2.2.1 u.2.2.2.1 != 0)).map (·.1)

/-- Whether SCALE is finite and positive. -/
def Sq.scaleOk (d : List Word) : Bool := decide (0 < dw d 8 ∧ dw d 8 < 0x7F800000)

/-- The checks of the body's values that every kind shares. -/
def Sq.rsvdBad (d : List Word) : List Nat :=
  rsvd d 3 0xC0000000 ++ rsvd d 6 0xFFE0FE00 ++ rsvd d 7 0xFFFFE000 ++ rsvd d 9 0xFFF00000 ++ rsvd d 10 0xFFF00000
    ++ rsvd d 11 0xFFFE0000 ++ rsvd d 12 0xFFE00000 ++ rsvd d 13 0xFFF00000 ++ rsvd d 14 0xC0000000 ++ rsvd d 15 0xE0000000

def Sq.hdBad (d : List Word) : List Nat := bad (outside (Sq.hd d) 16 256 || Sq.hd d % 16 != 0) 36

def Sq.fieldsBad (d : List Word) : List Nat :=
  let k := Sq.kind d
  let pair := match NumFmt.ofCode (Op.fmtA d), NumFmt.ofCode (Op.fmtB d) with
    | some a, some b => pairOk a b
    | _, _ => false
  commonBad d ++ bad (decide (5 ≤ k)) 25 ++ bad (decide (2 ≤ Op.round d)) 20
    ++ bad (Op.round d == 1 && !(Sq.final d && Op.fmtOut d == 1)) 20 ++ Sq.unused d
    ++ bad (k != 1 && !fmtIn (Op.fmtA d) [.bf16, .fp16, .e4m3, .e5m2]) 15
    ++ bad (k != 1 && (!pair || (k == 2 && (Op.fmtA d != Op.fmtB d || !fmtIn (Op.fmtA d) [.bf16, .fp16])))) 16
    ++ bad (Op.fmtC d != 0) 17
    ++ bad (if Sq.final d then !fmtIn (Op.fmtOut d) floats else Op.fmtOut d != 0) 18
    ++ bad (Op.outShift d != 0) 19 ++ bad (Op.accum d) 3 ++ bad (Op.act d != 0) 7 ++ Sq.hdBad d
    ++ bad (outside (Sq.gq d) 1 16) 37 ++ bad (outside (Sq.qrows d) 1 4096) 38 ++ bad (k == 2 && decide (4096 < Sq.m d)) 38
    ++ bad (k != 1 && !Sq.scaleOk d) 39 ++ bad (k != 1 && decide (1048575 < Sq.qPos0 d + Sq.qrows d - 1)) 40
    ++ bad (k != 1 && Sq.kvPos0 d % 256 != 0) 41
    ++ bad (k != 1 && outside (Sq.span d) 1 (if k = 2 then 1024 else 65536)) 42
    ++ bad (k != 1 && outside (Sq.seqLen d) 1 1048576) 43
    ++ bad (k != 1 && decide (2 ≤ Sq.mask d) && Sq.window d == 0) 44
    ++ bad (k != 0 && Op.gangLog2 d != 0) 2 ++ bad (Op.gangLog2 d != 0 && Sq.final d) 28
    ++ bad (Sq.saveLse d && !Sq.final d) 29
    ++ bad (k == 1 && (outside (Sq.npart d) 2 16 || decide (63 < Op.regC d + Sq.npart d - 1))) 50
    ++ bad (Op.statOutEn d && !Sq.final d) 9 ++ Sq.rsvdBad d

/-- The regions that kinds 0 to 2 read. -/
def Sq.inputs (d : List Word) (t : Site) : List Nat :=
  match Sq.kind d with
  | 0 => [Op.regA d, Op.regB d] ++ if Sq.stateIn d && t.p == 0 && t.q == 0 then [Op.regC d] else []
  | 1 => (List.range (Sq.npart d)).map (fun i => Op.regC d + i)
  | _ => [Op.regA d, Op.regB d, Op.regAux d, Sq.regDo d, Sq.regO d] ++ (if Sq.stateIn d then [Op.regC d] else [])
      ++ if Sq.gIn d then [Sq.regGin d] else []

def Sq.regionsBad (d : List Word) (t : Site) : List Nat :=
  bad ((Sq.inputs d t).contains (Op.regOut d)) 24
    ++ (if Sq.kind d = 2 then bad (((Sq.inputs d t) ++ [Op.regOut d]).contains (Sq.regGout d)) 48
          ++ bad (((Sq.inputs d t).filter (· == Op.regAux d)).length != 1) 31
        else if Sq.saveLse d then bad (((Sq.inputs d t) ++ [Op.regOut d]).contains (Op.regAux d)) 31
        else [])

def Sq.reads (s : State) (t : Site) (d : List Word) : Chk :=
  match Sq.kind d with
  | 0 =>
    let q := readChk s t (Op.regA d) (Gemm.offA d) (Sq.m d) 32
    let p := readChk s t (Op.regB d) (Gemm.offB d) ((Sq.pages d t).2 * Sq.pr d) 33
    let c := if Sq.stateIn d && t.p == 0 && t.q == 0 then readChk s t (Op.regC d) (Gemm.offC d) (Sq.stateRows d) 34 else {}
    q.add (p.add c)
  | 1 => ((List.range (Sq.npart d)).map (fun i => readChk s t (Op.regC d + i) 0 (Sq.stateRows d) 34)).foldl Chk.add {}
  | _ =>
    let q := [Op.regA d, Sq.regDo d, Sq.regO d].map (fun r => readChk s t r (Gemm.offA d) (Sq.m d) 32)
    let p := readChk s t (Op.regB d) (Gemm.offB d) (ceilDiv (Sq.span d) 256 * Sq.pr d) 33
    let l := readChk s t (Op.regAux d) (Sq.offAux d) (Sq.lseRows d) 35
    let c := if Sq.stateIn d then readChk s t (Op.regC d) (Gemm.offC d) (Sq.dqRows d) 34 else {}
    let g := if Sq.gIn d then readChk s t (Sq.regGin d) 0 (Sq.gradRows d) 34 else {}
    (q.foldl Chk.add {}).add (p.add (l.add (c.add g)))

def squallChk (s : State) (t : Site) (d : List Word) : Chk :=
  let base : Chk := { fields := Sq.fieldsBad d ++ Sq.regionsBad d t }
  let out := writeChk s t (Op.regOut d) (Sq.outRows d) 24
  let aux := if Sq.kind d ≠ 2 ∧ Sq.saveLse d then writeChk s t (Op.regAux d) (Sq.lseRows d) 31 else {}
  let gout := if Sq.kind d = 2 then writeChk s t (Sq.regGout d) (Sq.gradRows d) 48 else {}
  base.add ((Sq.reads s t d).add (out.add (aux.add gout)))

/-! ### What an operation does to regions -/

/-- The kind of operation that a descriptor of an operation opcode states. -/
def opKind (d : List Word) : Option OpKind :=
  match Op.opcode d with
  | 1 => some .gemm
  | 2 => some .conv2d
  | 3 => some .fftconv
  | 4 => some .pool
  | 5 => some .boxcrop
  | 6 => match Sq.kind d with
    | 0 => some .squallForward
    | 1 => some .squallMerge
    | 2 => some .squallBackward
    | _ => none
  | 8 => some .eltwise
  | _ => none

/-- The checks of an operation at issue. -/
def opChk (s : State) (t : Site) (d : List Word) : OpKind → Chk
  | .gemm => gemmChk s t d
  | .conv2d => convChk s t d
  | .fftconv => fftChk s t d
  | .pool => poolChk s t d
  | .boxcrop => boxChk s t d
  | .eltwise => eltwiseChk d
  | .squallForward | .squallMerge | .squallBackward => squallChk s t d
  | .scan => {}

/-- The rows of uncommitted output that an operation holds, by region. -/
def opOuts (t : Site) (d : List Word) : OpKind → List (Nat × Nat)
  | .gemm => [(Op.regOut d, Gemm.rows d t * Gemm.strideOut d)]
  | .conv2d => [(Op.regOut d, Conv.outRows d t)]
  | .fftconv => [(Op.regOut d, if Fft.phase1 d then Conv.outRows d t else Fft.specRows d)]
  | .pool => [(Op.regOut d, Pool.outRows d)]
  | .boxcrop => (Op.regOut d, Box.outRows d) :: if Box.statEn d then [(Op.regAux d, rowsOf (Box.boxes d))] else []
  | .squallForward | .squallMerge =>
    (Op.regOut d, Sq.outRows d) :: if Sq.saveLse d then [(Op.regAux d, Sq.lseRows d)] else []
  | .squallBackward => [(Op.regOut d, Sq.outRows d), (Sq.regGout d, Sq.gradRows d)]
  | .eltwise | .scan => []

/-- The regions and row ranges that an operation reads: region, offset, rows (R98, R127). -/
def opReads (t : Site) (d : List Word) : OpKind → List (Nat × Nat × Nat)
  | .gemm =>
    let a := (Op.regA d, Gemm.offA d, extent (Gemm.rows d t) (Gemm.strideA d) (codeBytes (Op.fmtA d) (Gemm.k d)))
    let b := (Op.regB d, Gemm.offB d, extent (Gemm.cols d t) (Gemm.strideB d) (codeBytes (Op.fmtB d) (Gemm.k d)))
    a :: b :: if Op.accum d then
      [(Op.regC d, Gemm.offC d, extent (Gemm.rows d t) (Gemm.strideC d) (4 * Gemm.cols d t))] else []
  | .conv2d =>
    let kb := codeBytes (Op.fmtB d) (Conv.k d (convWindow d))
    if Conv.outRows d t = 0 then [] else
      (Op.regA d, Gemm.offA d, Conv.imgs d t * Conv.cin d t * Win.prIn d)
        :: (Op.regB d, Gemm.offB d, extent (Conv.cout d t) (Conv.strideB d) kb)
        :: if Op.accum d then [(Op.regC d, Gemm.offC d, Conv.outRows d t)] else []
  | .fftconv =>
    if Fft.phase1 d then
      (Op.regA d, Gemm.offA d, Conv.imgs d t * Conv.cin d t * Win.prIn d) :: (Op.regB d, Gemm.offB d, Fft.specRows d)
        :: if Op.accum d then [(Op.regC d, Gemm.offC d, Conv.outRows d t)] else []
    else [(Op.regB d, Gemm.offB d,
      extent (Win.cout d) (Conv.strideB d) (codeBytes (Op.fmtB d) (Conv.k d (fftWindow d))))]
  | .pool => [(Op.regA d, Gemm.offA d, Win.nImg d * Win.cin d * Win.prIn d)]
  | .boxcrop => [(Op.regA d, Gemm.offA d, Win.nImg d * Win.cin d * Win.prIn d),
      (Op.regB d, Gemm.offB d, rowsOf (32 * Box.boxes d))]
  | .squallForward =>
    (Op.regA d, Gemm.offA d, Sq.m d) :: (Op.regB d, Gemm.offB d, (Sq.pages d t).2 * Sq.pr d)
      :: if Sq.stateIn d && t.p == 0 && t.q == 0 then [(Op.regC d, Gemm.offC d, Sq.stateRows d)] else []
  | .squallMerge => (List.range (Sq.npart d)).map (fun i => (Op.regC d + i, 0, Sq.stateRows d))
  | .squallBackward =>
    [(Op.regA d, Gemm.offA d, Sq.m d), (Sq.regDo d, Gemm.offA d, Sq.m d), (Sq.regO d, Gemm.offA d, Sq.m d),
      (Op.regB d, Gemm.offB d, ceilDiv (Sq.span d) 256 * Sq.pr d), (Op.regAux d, Sq.offAux d, Sq.lseRows d)]
      ++ (if Sq.stateIn d then [(Op.regC d, Gemm.offC d, Sq.dqRows d)] else [])
      ++ if Sq.gIn d then [(Sq.regGin d, 0, Sq.gradRows d)] else []
  | .eltwise | .scan => []

/-- The releases of an operation at its commit: region and rows after the TAIL at issue (R78, R191). -/
def opReleases (t : Site) (d : List Word) (k : OpKind) : List (Nat × Nat) :=
  let ends : List (Nat × Nat × Nat) → List Nat → List (Nat × Nat) := fun rs keep =>
    (rs.filter (fun r => keep.contains r.1)).map (fun r => (r.1, r.2.1 + r.2.2))
  let rs := opReads t d k
  let a := if Op.relA d then ends rs (match k with
    | .squallBackward => [Op.regA d, Sq.regDo d, Sq.regO d]
    | .squallMerge => []
    | _ => [Op.regA d]) else []
  let b := if Op.relB d then ends rs (match k with | .squallMerge | .pool => [] | _ => [Op.regB d]) else []
  let c := match k with
    | .squallForward => if Sq.relC d then ends rs [Op.regC d] else []
    | .squallMerge => if Sq.relC d then ends rs ((List.range (Sq.npart d)).map (Op.regC d + ·)) else []
    | .squallBackward => if Sq.relC d then ends rs [Op.regC d, Sq.regGin d, Op.regAux d] else []
    | _ => []
  a ++ b ++ c

/-- Whether an operation passes the vector pipeline's shadow lane (R87, R172, R191). -/
def usesVector (d : List Word) : OpKind → Bool
  | .gemm | .conv2d => Op.act d != 0
  | _ => true

/-- Whether an operation multiplies in the array, so that checksum cells check it (R164, R191). -/
def usesArray (d : List Word) : OpKind → Bool
  | .gemm | .conv2d | .squallForward | .squallBackward => true
  | .fftconv => Fft.phase1 d
  | _ => false

end Sys2Proof.Machine
end

