-- ==== Sys2Proof/Machine/Flags.lean ====
section
/-! DEFINITION. Machine/Flags.lean: what an operation's checks and outputs tell: the checksum comparison (R85, R86), the
class of a failing tile (R529), the counts of saturated and non-finite outputs (R110, R111) and the statistics slots
(R116 to R119). -/

namespace Sys2Proof.Machine

/-! ### Checksum verdicts -/

/-- The factor of the float bounds of R85, before × 2^−24 × M. -/
def sumFactor (fp32 : Bool) (l : Nat) : Nat := if fp32 then 3 * l + 20 else 2 * l + 20

/-- The tolerance of a float comparison (R85). -/
def sumBound (fp32 : Bool) (l : Nat) (m : Dy) : Dy := (Dy.ofInt (sumFactor fp32 l)).mul (m.scale (-24))

/-- An integer comparison (R85): D = S modulo 2^32. -/
def sumPassesInt (d s : Int) : Bool := (d - s) % (2 ^ 32 : Nat) == 0

/-- The class of a failing tile (R529): KIND, ROW and COL of ARR_CHK_LOG; KIND 0 is scattered. `csRow` and `csCol` are the
indices that serve as checksum row and column. -/
def classify (rows cols : List Nat) (corner : Bool) (csRow csCol : Nat) : Loc :=
  match rows.eraseDups, cols.eraseDups with
  | [i], [j] => ⟨1, i, j⟩
  | [i], [] => if corner then ⟨1, i, csCol⟩ else ⟨2, i, 0x1F⟩
  | [], [j] => if corner then ⟨1, csRow, j⟩ else ⟨3, 0x1F, j⟩
  | [], [] => if corner then ⟨1, csRow, csCol⟩ else ⟨0, 0x1F, 0x1F⟩
  | [i], _ => ⟨2, i, 0x1F⟩
  | _, [j] => ⟨3, 0x1F, j⟩
  | _, _ => ⟨0, 0x1F, 0x1F⟩

def noLoc : Loc := ⟨0, 0x1F, 0x1F⟩

/-- The physical index that serves logical row or column `i` of 0 to 16 under a spare map field (R70, R529). -/
def servedBy (replaced i : Nat) : Nat := if replaced = i then 17 else i

/-- The logical index that physical index `p` serves, if any: a cold spare and a replaced one serve none (R528). -/
def serves (replaced p : Nat) : Option Nat :=
  if p = 17 then (if replaced ≤ 16 then some replaced else none) else if p = replaced then none else some p

/-! ### What an operation's outputs count -/

/-- Counts gathered over an operation's output elements: saturated (R111), non-finite (R111, R119), stochastic draws
(R119), the largest magnitude and whether a NaN was left out (R116). -/
structure Tally where
  saturated : Nat := 0
  nonFinite : Nat := 0
  draws : Nat := 0
  maxAbs : Nat := 0
  nan : Bool := false
  deriving DecidableEq, Repr

def Tally.add (a b : Tally) : Tally :=
  ⟨a.saturated + b.saturated, a.nonFinite + b.nonFinite, a.draws + b.draws, max a.maxAbs b.maxAbs, a.nan || b.nan⟩

/-- The FP32 encoding of a magnitude as a slot stores it (R116), and whether the value is a NaN. -/
def magBits (v : Fv) : Nat × Bool :=
  match v with
  | .nan => (0, true)
  | .inf _ => (0x7F800000, false)
  | .fin _ m e => (fp32Up ⟨m, e⟩, false)

/-- One element's contribution to the statistics (R116). -/
def Tally.stat (v : Fv) : Tally := let (b, n) := magBits v; { maxAbs := b, nan := n }

/-- A conversion's counts (R110, R111). -/
def Tally.conv (c : Conv) : Tally :=
  { saturated := if c.saturated then 1 else 0, nonFinite := if c.nonFinite then 1 else 0 }

/-- Contributions of one commit to slot `k` of core `n` (R116, R117): non-negative FP32 encodings compare as numbers. -/
def statSlot (n k maxAbs : Nat) (nan : Bool) (s : State) : State :=
  let cur := (s.reg (R.ARR_STAT_MAX n k)).toNat
  let s1 := s.setReg (R.ARR_STAT_MAX n k) (BitVec.ofNat 32 (max cur maxAbs))
  let s2 := s1.satFld (R.ARR_STAT_INFO n k) F.ARR_STAT_INFO_COUNT 1
  let s3 :=
    if nan && !s2.flag (R.ARR_STAT_INFO n k) F.ARR_STAT_INFO_NAN_SEEN then
      errEvent (Pg.arr6 n) E.arr6_STAT_NAN (s2.setFld (R.ARR_STAT_INFO n k) F.ARR_STAT_INFO_NAN_SEEN 1)
    else s2
  s3.count (Pg.arr6 n) 0 1

/-- The statistics of a committing operation (R116, R117): one update where STAT_IN and STAT_OUT name the same slot. -/
def statCommit (n : Nat) (d : List Word) (inp out : Tally) (s : State) : State :=
  let o := Op.statOutEn d
  let i := Op.statInEn d
  if o && i && Op.statOut d == Op.statIn d then
    statSlot n (Op.statOut d) (max inp.maxAbs out.maxAbs) (inp.nan || out.nan) s
  else
    let s1 := if o then statSlot n (Op.statOut d) out.maxAbs out.nan s else s
    if i then statSlot n (Op.statIn d) inp.maxAbs inp.nan s1 else s1

/-- The counters of saturated and non-finite outputs and of generator draws (R111, R119). -/
def countOutputs (n : Nat) (t : Tally) (s : State) : State :=
  ((s.count (Pg.arr0 n) 6 t.saturated).count (Pg.arr6 n) 2 t.nonFinite).count (Pg.arr6 n) 1 t.draws

/-- Statistics slots cleared by a write to ARR_STAT_CLR (R118, R119): bit k clears slot `base + k`. -/
def statClear (n base : Nat) (v : Word) (s : State) : State :=
  iter 32 (fun k t =>
    if v.getLsbD k then
      ((t.setReg (R.ARR_STAT_MAX n (base + k)) 0).setReg (R.ARR_STAT_INFO n (base + k)) 0).count (Pg.arr6 n) 3 1
    else t) s

end Sys2Proof.Machine
end

