-- ==== Sys2Proof/Machine/Results.lean ====
section
/-! DEFINITION. Machine/Results.lean: what operations compute: accumulators (R69, R71, R77, R157), the output stage (R108
to R115), pooling (R166), box crops (R168 to R170), attention (R183 to R188), and the rows that an operation writes.
Values that the manual leaves open are free values drawn from Config by index (log entries 3 and 20). -/

namespace Sys2Proof.Machine

/-! ### Accumulators -/

/-- A float accumulation: what non-finite terms entered, the exact sum and the magnitude sum of the finite ones (R69,
R70). -/
structure FAcc where
  nan : Bool := false
  pinf : Bool := false
  ninf : Bool := false
  sum : Dy := .zero
  mag : Dy := .zero
  deriving DecidableEq, Repr

/-- One term added. -/
def FAcc.push (a : FAcc) (v : Fv) : FAcc :=
  match v with
  | .nan => { a with nan := true }
  | .inf neg => if neg then { a with ninf := true } else { a with pinf := true }
  | .fin neg m e =>
    let d : Dy := ⟨if neg then -(m : Int) else m, e⟩
    { a with sum := a.sum.add d, mag := a.mag.add d.abs }

/-- An exact product of two values. -/
def Fv.mul (a b : Fv) : Fv :=
  match a, b with
  | .nan, _ => .nan
  | _, .nan => .nan
  | .inf n, .inf k => .inf (n != k)
  | .inf n, .fin k m _ => if m = 0 then .nan else .inf (n != k)
  | .fin k m _, .inf n => if m = 0 then .nan else .inf (n != k)
  | .fin n m e, .fin k m' e' => .fin (n != k) (m * m') (e + e')

/-- The accumulator's value: the exact sum plus an error that R85 bounds (R107), free values `i` and `i + 1`. -/
def FAcc.value (a : FAcc) (fp32 : Bool) (l i : Nat) : Fv :=
  if a.nan || (a.pinf && a.ninf) then .nan
  else if a.pinf then .inf false
  else if a.ninf then .inf true
  else if a.mag.m = 0 then .fin false 0 0
  else
    let err := Dy.within (sumBound fp32 l a.mag) ⟨Config.freeInt i, Config.freeInt (i + 1)⟩
    Fv.ofDy (a.sum.add err)

/-- `f` folded over 0, 1, …, n − 1. -/
def foldTo {σ : Type} : Nat → (σ → Nat → σ) → σ → σ
  | 0, _, a => a
  | n + 1, f, a => f (foldTo n f a) n

/-- An accumulator's value before the output stage. -/
inductive AccV where
  | int (i : Int)
  | flt (v : Fv)
  deriving DecidableEq, Repr

/-- The accumulator of a dot product of `k` terms with an added C element (R69, R77): `av` and `bv` give the operands'
codes, `c` the C word, `i` the index of its free values. -/
def dotAcc (fa fb : NumFmt) (k : Nat) (av bv : Nat → Nat) (c : Option Nat) (i : Nat) : AccV :=
  if pairInt fa then
    let code (f : NumFmt) (w : Nat) : Int :=
      match f with | .int8 => sext 8 w | .int4 => sext 4 w | _ => kr4Level w
    let s := sumBelow k (fun t => code fa (av t) * code fb (bv t)) + (match c with | some w => sext 32 w | none => 0)
    .int (sext 32 (wrapInt 32 s))
  else
    let a0 : FAcc := match c with | some w => FAcc.push {} (NumFmt.fp32.decode w) | none => {}
    let a := foldTo k (fun a t => a.push ((fa.decode (av t)).mul (fb.decode (bv t)))) a0
    .flt (a.value (fa == .fp32) (pairSteps fa fb k + (if c.isSome then 1 else 0)) i)

/-! ### The vector stage (R194) -/

/-- The FP32 encoding of a value; magnitudes beyond FP32 are infinite. -/
def enc32 (v : Fv) : Nat := (NumFmt.fp32.encode (toFp32Inf v)).bits

/-- The function ACT of an FP32 value (R194). The finite cases of 0x2 to 0x6 are free within the manual's bound, which
the model leaves out (log entry 20). -/
def actFp32 (act : Nat) (v : Fv) : Fv :=
  match v with
  | .nan => .nan
  | .inf neg =>
    if act = 2 then (if neg then .fin false 0 0 else .fin false 1 0)
    else if act = 3 then .fin neg 1 0
    else if neg then .fin false 0 0 else .inf false
  | .fin neg m e =>
    if act = 1 then (if neg then .fin false 0 0 else v)
    else if act = 6 ∧ Dy.lt ⟨20, 0⟩ ⟨if neg then -(m : Int) else m, e⟩ then v
    else NumFmt.fp32.decode (Config.actFn act (BitVec.ofNat 32 (enc32 v))).toNat

/-! ### The output stage (R108) -/

/-- The settings of an output stage: FMT_OUT, the shift n, ACT, stochastic rounding. -/
structure OutCfg where
  fmt : NumFmt
  shift : Nat
  act : Nat
  stoch : Bool
  deriving DecidableEq, Repr

/-- One element through the output stage: its code and counts. `i` is the free value that a stochastic rounding takes
its 16 bits from, since the order of the draws is open (R112). -/
def outElem (g : OutCfg) (a : AccV) (i : Nat) : Nat × Tally :=
  match a with
  | .int v =>
    let v1 := if g.act = 1 then max v 0 else v
    let c := outInt g.fmt v1 g.shift
    (c.bits, (Tally.stat (Fv.ofDy (.ofInt v1))).add (Tally.conv c))
  | .flt v =>
    let v1 := if g.act = 0 then v else actFp32 g.act (toFp32Inf v)
    let v2 := v1.shr g.shift
    let draws := g.stoch && (match v2 with | .fin _ _ _ => true | _ => false)
    let c := if draws then stochBf16 v2 (Config.freeNat i % 65536) else g.fmt.encode v2
    (c.bits, ((Tally.stat v1).add (Tally.conv c)).add { draws := if draws then 1 else 0 })

/-- The shift of R108: OUT_SHIFT plus the latched SHIFT_ADJ, clamped to 0 to 31 (R93). -/
def outShiftOf (d : List Word) (adj : Nat) : Nat :=
  let n := (Op.outShift d : Int) + sext 6 adj
  if n < 0 then 0 else if n > 31 then 31 else n.toNat

def outCfgOf (d : List Word) (adj : Nat) : OutCfg :=
  ⟨(NumFmt.ofCode (Op.fmtOut d)).getD .fp32, outShiftOf d adj, Op.act d, Op.round d == 1⟩

/-! ### Lines and planes -/

/-- Byte `o` of a line of `w` packed elements (R101). -/
def lineByte (bits w : Nat) (code : Nat → Nat) (o : Nat) : Byte :=
  if bits = 4 then
    let lo := if 2 * o < w then code (2 * o) % 16 else 0
    let hi := if 2 * o + 1 < w then code (2 * o + 1) % 16 else 0
    BitVec.ofNat 8 (lo + 16 * hi)
  else
    let e := bits / 8
    if o / e < w then BitVec.ofNat 8 (code (o / e) / 256 ^ (o % e)) else 0

/-- The rows of one output: `k` rows from offset `off` whose bytes `f` gives. -/
def rowsFrom (off k : Nat) (f : Nat → Byte) : List (Nat × List Byte) :=
  (List.range k).map (fun i => (off + i, mkRow (fun b => f (512 * i + b))))

/-- The rows of a plane of `h` lines of `w` elements in the layout of R153. -/
def planeRows (off pr lb bits h w : Nat) (code : Nat → Nat → Nat) : List (Nat × List Byte) :=
  rowsFrom off pr fun b =>
    let y := if lb = 0 then 0 else b / lb
    if y < h ∧ b % lb < lb then lineByte bits w (code y) (b % lb) else 0

/-- What a run leaves to its commit: rows by region (offset from HEAD), how far each HEAD advances, the counts of its
inputs and outputs, and how many free values it drew. -/
structure OpResult where
  outs : List (Nat × Nat × List (Nat × List Byte)) := []
  inp : Tally := {}
  out : Tally := {}
  drew : Nat := 0
  deriving DecidableEq, Repr

/-- An element of a latched region that starts at row offset `k`: element `i` of format `f`. -/
def State.elemAt (s : State) (n : Nat) (g : Rgn) (k : Nat) (f : NumFmt) (i : Nat) : Nat :=
  f.elem (fun b => s.rgnByte n g k b) i

/-- The region of a number as an operation latched it. -/
def OpFlight.rgn (o : OpFlight) (r : Nat) : Rgn :=
  Tab.get o.rgns ⟨0, 1, 0, false, 0, 0, 0, 0, false, 0, false⟩ r

/-- Where an operation's member stands. -/
def OpFlight.site (o : OpFlight) (n : Nat) : Site :=
  let g := gangDims (Op.gangLog2 o.desc)
  ⟨n, o.ctx, g.1, g.2, o.posRow, o.posCol⟩

/-- Whether a KR4 operand holds a marker among `k` elements from row offset `off` (R104). -/
def State.hasMarker (s : State) (n : Nat) (g : Rgn) (off k : Nat) : Bool :=
  anyBelow k (fun i => s.elemAt n g off .kr4 i == kr4Marker)

/-! ### GEMM -/

/-- The accumulator of local row `i` and local column `j`. -/
def gemmAcc (s : State) (n : Nat) (o : OpFlight) (i j idx : Nat) : AccV :=
  let d := o.desc
  let fa := (NumFmt.ofCode (Op.fmtA d)).getD .int8
  let fb := (NumFmt.ofCode (Op.fmtB d)).getD .int8
  let ga := o.rgn (Op.regA d)
  let gb := o.rgn (Op.regB d)
  let c := if Op.accum d then
      some (s.elemAt n (o.rgn (Op.regC d)) (Gemm.offC d + i * Gemm.strideC d) .fp32 j) else none
  dotAcc fa fb (Gemm.k d) (s.elemAt n ga (Gemm.offA d + i * Gemm.strideA d) fa)
    (s.elemAt n gb (Gemm.offB d + j * Gemm.strideB d) fb) c idx

/-- The largest magnitude of A (R116). -/
def tallyOver (k : Nat) (f : Nat → Fv) : Tally := foldTo k (fun t i => t.add (Tally.stat (f i))) {}

/-- The logical cell that an operation's injection corrupts, if the physical cell feeds the results (R528). -/
def injCell (s : State) (n : Nat) (o : OpFlight) : Option (Nat × Nat) :=
  match o.inj with
  | none => none
  | some (r, c) =>
    match serves (s.fld (R.ARR_SPARE_MAP n) F.ARR_SPARE_MAP_ROW_REPLACED) r,
        serves (s.fld (R.ARR_SPARE_MAP n) F.ARR_SPARE_MAP_COL_REPLACED) c with
    | some a, some b => some (a, b)
    | _, _ => none

/-- Bit 20 of an INT32 accumulator inverted (R528). -/
def flip20 (i : Int) : Int :=
  let w := wrapInt 32 i
  sext 32 (if bitOf w 20 then w - 2 ^ 20 else w + 2 ^ 20)

/-- The accumulator of output row `i` and column `j` of a run that an injection corrupts, where it is an integer. -/
def hitAcc (cell : Option (Nat × Nat)) (i j : Nat) (v : AccV) : AccV :=
  match cell, v with
  | some (r, c), .int x => if i % 64 / 4 = r ∧ j % 64 / 4 = c then .int (flip20 x) else v
  | _, _ => v

def gemmResult (s : State) (n : Nat) (o : OpFlight) : OpResult :=
  let d := o.desc
  let t := o.site n
  let mo := Gemm.rows d t
  let no := Gemm.cols d t
  let g := outCfgOf d o.shiftAdj
  let i0 := s.free
  let cell := injCell s n o
  let elem : Nat → Nat → Nat × Tally := fun i j =>
    let e := i0 + 3 * (i * no + j)
    outElem g (hitAcc cell i j (gemmAcc s n o i j e)) (e + 2)
  let nr := rowsOf (codeBytes (Op.fmtOut d) no)
  let rows := if no = 0 then [] else
    (List.range mo).flatMap (fun i =>
      rowsFrom (i * Gemm.strideOut d) nr (fun b => lineByte g.fmt.bits no (fun j => (elem i j).1) b))
  let fa := (NumFmt.ofCode (Op.fmtA d)).getD .int8
  let inp := if Op.statInEn d then
      foldTo mo (fun t i => t.add (tallyOver (Gemm.k d) (fun k =>
        fa.value (s.elemAt n (o.rgn (Op.regA d)) (Gemm.offA d + i * Gemm.strideA d) fa k)))) {} else {}
  { outs := [(Op.regOut d, mo * Gemm.strideOut d, rows)], inp := inp,
    out := foldTo mo (fun t i => foldTo no (fun u j => u.add (elem i j).2) t) {}, drew := 3 * mo * no }

/-! ### CONV2D -/

/-- A planar element (R153). -/
def State.planar (s : State) (n : Nat) (g : Rgn) (off pr lb : Nat) (f : NumFmt) (plane y x : Nat) : Nat :=
  let at' : Nat → Byte := fun b => s.rgnByte n g (off + plane * pr) (y * lb + b)
  f.elem at' x

/-- The source line of output line `y` under tap `k`, if it lies inside the input (R155). -/
def tapAt (y stride pad k dil size : Nat) : Option Nat :=
  let v := y * stride + k * dil
  if v < pad then none else if v - pad < size then some (v - pad) else none

/-- The accumulator of one output element: image, local output channel, line, element (R157). -/
def convAcc (s : State) (n : Nat) (o : OpFlight) (img co y x idx : Nat) : AccV :=
  let d := o.desc
  let t := o.site n
  let w := convWindow d
  let fa := (NumFmt.ofCode (Op.fmtA d)).getD .int8
  let fb := (NumFmt.ofCode (Op.fmtB d)).getD .int8
  let gpc := if Win.groups d = 0 then 1 else Win.cout d / Win.groups d
  let gci := if Win.groups d = 0 then 0 else Win.cin d / Win.groups d
  let ci0 := if Win.groups d ≤ 1 ∨ gpc = 0 then 0 else co / gpc * gci
  let av : Nat → Nat := fun k =>
    let kx := k % w.kw
    let ky := k / w.kw % w.kh
    let ci := k / (w.kw * w.kh)
    match tapAt y w.sy (Win.padT d) ky w.dy (Win.hIn d), tapAt x w.sx (Win.padL d) kx w.dx (Win.wIn d) with
    | some yy, some xx =>
      s.planar n (o.rgn (Op.regA d)) (Gemm.offA d) (Win.prIn d) (Win.lbIn d) fa (img * Conv.cin d t + ci0 + ci) yy xx
    | _, _ => 0
  let pads : Nat → Bool := fun k =>
    (tapAt y w.sy (Win.padT d) (k / w.kw % w.kh) w.dy (Win.hIn d)).isNone
      || (tapAt x w.sx (Win.padL d) (k % w.kw) w.dx (Win.wIn d)).isNone
  let bv : Nat → Nat := fun k =>
    if pads k then 0 else s.elemAt n (o.rgn (Op.regB d)) (Gemm.offB d + co * Conv.strideB d) fb k
  let c := if Op.accum d then
      some (s.planar n (o.rgn (Op.regC d)) (Gemm.offC d) (Win.prOut d) (Win.lbOut d) .fp32
        (img * Conv.cout d t + co) y x) else none
  dotAcc fa fb (Conv.k d w) av bv c idx

def convResult (s : State) (n : Nat) (o : OpFlight) : OpResult :=
  let d := o.desc
  let t := o.site n
  let w := convWindow d
  let g := outCfgOf d o.shiftAdj
  let h := w.hOut d
  let wd := w.wOut d
  let co := Conv.cout d t
  let imgs := if co = 0 then 0 else Conv.imgs d t
  let i0 := s.free
  let elem : Nat → Nat → Nat → Nat × Tally := fun pl y x =>
    let e := i0 + 3 * ((pl * h + y) * wd + x)
    outElem g (convAcc s n o (pl / co) (pl % co) y x e) (e + 2)
  let rows := (List.range (imgs * co)).flatMap (fun pl =>
    planeRows (pl * Win.prOut d) (Win.prOut d) (Win.lbOut d) g.fmt.bits h wd (fun y x => (elem pl y x).1))
  let fa := (NumFmt.ofCode (Op.fmtA d)).getD .int8
  let inp := if Op.statInEn d then
      foldTo (imgs * Conv.cin d t) (fun t pl => foldTo (Win.hIn d) (fun u y => u.add (tallyOver (Win.wIn d) (fun x =>
        fa.value (s.planar n (o.rgn (Op.regA d)) (Gemm.offA d) (Win.prIn d) (Win.lbIn d) fa pl y x)))) t) {} else {}
  { outs := [(Op.regOut d, Conv.outRows d t, rows)], inp := inp,
    out := foldTo (imgs * co) (fun t pl => foldTo h (fun u y => foldTo wd (fun v x => v.add (elem pl y x).2) u) t) {},
    drew := 3 * (imgs * co * h * wd) }

/-! ### FP32 arithmetic with round-to-nearest-even -/

def fp32 (w : Nat) : Fv := NumFmt.fp32.decode w
def fpInt (i : Nat) : Nat := enc32 (Fv.ofDy (.ofInt i))

def fpAdd (a b : Nat) : Nat :=
  match fp32 a, fp32 b with
  | .nan, _ => NumFmt.fp32.nanBits
  | _, .nan => NumFmt.fp32.nanBits
  | .inf n, .inf k => if n = k then enc32 (.inf n) else NumFmt.fp32.nanBits
  | .inf n, _ => enc32 (.inf n)
  | _, .inf n => enc32 (.inf n)
  | x, y =>
    match x.toDy, y.toDy with
    | some p, some q => enc32 (Fv.ofDy (p.add q))
    | _, _ => NumFmt.fp32.nanBits

def fpNeg (a : Nat) : Nat := if bitOf a 31 then a - 2 ^ 31 else a + 2 ^ 31
def fpSub (a b : Nat) : Nat := fpAdd a (fpNeg b)
def fpMul (a b : Nat) : Nat := enc32 ((fp32 a).mul (fp32 b))

def fpDiv (a b : Nat) : Nat :=
  match fp32 a, fp32 b with
  | .nan, _ => NumFmt.fp32.nanBits
  | _, .nan => NumFmt.fp32.nanBits
  | .inf _, .inf _ => NumFmt.fp32.nanBits
  | .inf n, .fin k _ _ => enc32 (.inf (n != k))
  | .fin _ _ _, .inf _ => 0
  | .fin n m e, .fin k m' e' =>
    if m' = 0 then (if m = 0 then NumFmt.fp32.nanBits else enc32 (.inf (n != k)))
    else enc32 (divFp32 ⟨if n then -(m : Int) else m, e⟩ ⟨if k then -(m' : Int) else m', e'⟩)

/-! ### POOL (R165, R166) -/

/-- An encoding's place in the order of R166: +0 above −0. -/
def fmtKey (f : NumFmt) (w : Nat) : Int :=
  if f = .int8 then sext 8 w
  else
    let sb := 2 ^ (f.bits - 1)
    if w ≥ sb then -1 - ((w - sb : Nat) : Int) else w

/-- The larger of two taps; any NaN gives the canonical NaN. -/
def maxTap (f : NumFmt) (a b : Nat) : Nat :=
  if f.isFloat && (f.decode a == .nan || f.decode b == .nan) then f.nanBits
  else if fmtKey f a < fmtKey f b then b else a

/-- The in-input taps of one output, in the order ky, kx (R166). -/
def poolTaps (s : State) (n : Nat) (o : OpFlight) (f : NumFmt) (pl y x : Nat) : List Nat :=
  let d := o.desc
  let w := convWindow d
  let g := o.rgn (Op.regA d)
  let kh := if Pool.global d then Win.hIn d else w.kh
  let kw := if Pool.global d then Win.wIn d else w.kw
  (List.range (kh * kw)).filterMap fun k =>
    let ky := k / kw
    let kx := k % kw
    let yy := if Pool.global d then some ky else tapAt y w.sy (Win.padT d) ky w.dy (Win.hIn d)
    let xx := if Pool.global d then some kx else tapAt x w.sx (Win.padL d) kx w.dx (Win.wIn d)
    match yy, xx with
    | some a, some b => some (s.planar n g (Gemm.offA d) (Win.prIn d) (Win.lbIn d) f pl a b)
    | _, _ => none

/-- The integer nearest to a / b, ties to even (R166). -/
def rneDivInt (a : Int) (b : Nat) : Int :=
  if a < 0 then -(rneDiv a.natAbs b : Int) else rneDiv a.natAbs b

/-- One output of POOL and its counts (R166). The reciprocal of the count and the product are each rounded to FP32 (log
entry 22). -/
def poolElem (s : State) (n : Nat) (o : OpFlight) (pl y x : Nat) : Nat × Tally :=
  let d := o.desc
  let fa := (NumFmt.ofCode (Op.fmtA d)).getD .int8
  let fo := (NumFmt.ofCode (Op.fmtOut d)).getD .int8
  let taps := poolTaps s n o fa pl y x
  let cnt := if Pool.global d then Win.hIn d * Win.wIn d
    else if Pool.countPad d then (convWindow d).kh * (convWindow d).kw else taps.length
  match taps with
  | [] => (0, Tally.stat (Fv.fin false 0 0))
  | t0 :: ts =>
    if Pool.avg d then
      if fa = .int8 then
        let v := (satInt 8 (rneDivInt (taps.foldl (fun a w => a + sext 8 w) 0) cnt)).1
        (wrapInt 8 v, Tally.stat (Fv.ofDy (.ofInt v)))
      else
        let sum := ts.foldl (fun a w => fpAdd a (enc32 (fa.decode w))) (enc32 (fa.decode t0))
        let v := fp32 (fpMul sum (fpDiv (fpInt 1) (fpInt cnt)))
        let c := fo.encode v
        (c.bits, (Tally.stat v).add (Tally.conv c))
    else
      let m := ts.foldl (maxTap fa) (if fa.isFloat && fa.decode t0 == .nan then fa.nanBits else t0)
      (m, (Tally.stat (fa.value m)).add { nonFinite := if fa.isFloat && (fa.decode m).toDy.isNone then 1 else 0 })

def poolResult (s : State) (n : Nat) (o : OpFlight) : OpResult :=
  let d := o.desc
  let h := Pool.hOut d
  let wd := Pool.wOut d
  let planes := Win.nImg d * Win.cin d
  let bits := codeBits (Op.fmtOut d)
  let rows := (List.range planes).flatMap (fun pl =>
    planeRows (pl * Win.prOut d) (Win.prOut d) (Win.lbOut d) bits h wd (fun y x => (poolElem s n o pl y x).1))
  let fa := (NumFmt.ofCode (Op.fmtA d)).getD .int8
  let inp := if Op.statInEn d then
      foldTo planes (fun t pl => foldTo (Win.hIn d) (fun u y => u.add (tallyOver (Win.wIn d) (fun x =>
        fa.value (s.planar n (o.rgn (Op.regA d)) (Gemm.offA d) (Win.prIn d) (Win.lbIn d) fa pl y x)))) t) {} else {}
  { outs := [(Op.regOut d, Pool.outRows d, rows)], inp := inp,
    out := foldTo planes (fun t pl => foldTo h (fun u y => foldTo wd (fun v x => v.add (poolElem s n o pl y x).2) u) t) {} }

/-! ### BOXCROP (R168 to R170) -/

/-- A coordinate along one axis for output index `i` of `c`: FP32, left to right as written (R169). -/
def boxCoord (a b size c i : Nat) : Nat :=
  let m := fpInt (size - 1)
  if c > 1 then
    fpAdd (fpMul a m) (fpDiv (fpMul (fpMul (fpInt i) (fpSub b a)) m) (fpInt (c - 1)))
  else fpDiv (fpMul (fpAdd a b) m) (fpInt 2)

/-- The integer part of a non-negative FP32 value. -/
def fpFloor (a : Nat) : Nat :=
  match (fp32 a).toDy with
  | some x => (if x.e ≥ 0 then x.m * ((2 ^ x.e.toNat : Nat) : Int) else x.m / ((2 ^ (-x.e).toNat : Nat) : Int)).toNat
  | none => 0

/-- Whether an FP32 value lies in [0, size − 1]. -/
def boxInside (a size : Nat) : Bool :=
  match (fp32 a).toDy with
  | some x => Dy.zero.le x && x.le (.ofInt ((size - 1 : Nat) : Int))
  | none => false

/-- A box's coordinates Y1, X1, Y2, X2 and its image (R168). -/
structure BoxRec where
  y1 : Nat
  x1 : Nat
  y2 : Nat
  x2 : Nat
  img : Nat
  deriving DecidableEq, Repr

def boxRec (s : State) (n : Nat) (o : OpFlight) (k : Nat) : BoxRec :=
  let f : Nat → Byte := s.rgnByte n (o.rgn (Op.regB o.desc)) (Gemm.offB o.desc)
  ⟨word32 f (32 * k), word32 f (32 * k + 4), word32 f (32 * k + 8), word32 f (32 * k + 12), (f (32 * k + 16)).toNat⟩

def BoxRec.finite (b : BoxRec) : Bool :=
  [b.y1, b.x1, b.y2, b.x2].all (fun w => (fp32 w).toDy.isSome)

/-- A sample of a box: its FP32 value, and whether it took EXTRAP. -/
def boxSample (s : State) (n : Nat) (o : OpFlight) (b : BoxRec) (c i j : Nat) : Nat × Bool :=
  let d := o.desc
  let fa := (NumFmt.ofCode (Op.fmtA d)).getD .int8
  let ys := boxCoord b.y1 b.y2 (Win.hIn d) (Box.cropH d) i
  let xs := boxCoord b.x1 b.x2 (Win.wIn d) (Box.cropW d) j
  if !b.finite || decide (Win.nImg d ≤ b.img) || !boxInside ys (Win.hIn d) || !boxInside xs (Win.wIn d) then
    (Box.extrap d, true)
  else
    let y0 := fpFloor ys
    let x0 := fpFloor xs
    let y1 := min (y0 + 1) (Win.hIn d - 1)
    let x1 := min (x0 + 1) (Win.wIn d - 1)
    let fy := fpSub ys (fpInt y0)
    let fx := fpSub xs (fpInt x0)
    let p : Nat → Nat → Nat := fun y x =>
      enc32 (fa.value (s.planar n (o.rgn (Op.regA d)) (Gemm.offA d) (Win.prIn d) (Win.lbIn d) fa
        (b.img * Win.cin d + c) y x))
    let lerp : Nat → Nat → Nat := fun u v => fpAdd (fpMul (fpSub (fpInt 1) fx) u) (fpMul fx v)
    (fpAdd (fpMul (fpSub (fpInt 1) fy) (lerp (p y0 x0) (p y0 x1))) (fpMul fy (lerp (p y1 x0) (p y1 x1))), false)

/-- The status byte of a box (R170). -/
def boxStatus (s : State) (n : Nat) (o : OpFlight) (k : Nat) : Nat :=
  let d := o.desc
  let b := boxRec s n o k
  if !b.finite then 3
  else if Win.nImg d ≤ b.img then 4
  else
    let total := Box.cropH d * Box.cropW d
    let ex := countBelow total (fun e => (boxSample s n o b 0 (e / Box.cropW d) (e % Box.cropW d)).2)
    if ex = 0 then 0 else if ex = total then 2 else 1

def boxElem (s : State) (n : Nat) (o : OpFlight) (pl i j : Nat) : Nat × Tally :=
  let d := o.desc
  let fo := (NumFmt.ofCode (Op.fmtOut d)).getD .int8
  let v := fp32 (boxSample s n o (boxRec s n o (pl / Win.cin d)) (pl % Win.cin d) i j).1
  let c := if fo = .int8 then quantInt 8 1 v ⟨1, 0⟩ else fo.encode v
  (c.bits, (Tally.stat v).add (Tally.conv c))

def boxResult (s : State) (n : Nat) (o : OpFlight) : OpResult :=
  let d := o.desc
  let planes := Box.boxes d * Win.cin d
  let bits := codeBits (Op.fmtOut d)
  let rows := (List.range planes).flatMap (fun pl =>
    planeRows (pl * Win.prOut d) (Win.prOut d) (Win.lbOut d) bits (Box.cropH d) (Box.cropW d)
      (fun y x => (boxElem s n o pl y x).1))
  let stat := if Box.statEn d then
      [(Op.regAux d, rowsOf (Box.boxes d), rowsFrom 0 (rowsOf (Box.boxes d)) (fun b =>
        if b < Box.boxes d then BitVec.ofNat 8 (boxStatus s n o b) else 0))] else []
  let fa := (NumFmt.ofCode (Op.fmtA d)).getD .int8
  let inp := if Op.statInEn d then
      foldTo (Win.nImg d * Win.cin d) (fun t pl => foldTo (Win.hIn d) (fun u y => u.add (tallyOver (Win.wIn d) (fun x =>
        fa.value (s.planar n (o.rgn (Op.regA d)) (Gemm.offA d) (Win.prIn d) (Win.lbIn d) fa pl y x)))) t) {} else {}
  { outs := (Op.regOut d, Box.outRows d, rows) :: stat, inp := inp,
    out := foldTo planes (fun t pl => foldTo (Box.cropH d) (fun u y =>
      foldTo (Box.cropW d) (fun v x => v.add (boxElem s n o pl y x).2) u) t) {} }

/-! ### FFTCONV and SQUALL: layouts with free elements -/

/-- `k` whole rows of a region whose element codes are free (R107 promises no exact result). -/
def freeRows (i0 k : Nat) : List (Nat × List Byte) :=
  rowsFrom 0 k (fun b => BitVec.ofNat 8 (Config.freeNat (i0 + b)))

/-- Counts that depend on free elements are free, at most one per element. -/
def freeTally (i0 elems : Nat) (fmtOut : Bool) : Tally :=
  if fmtOut then
    { saturated := Config.freeNat i0 % (elems + 1), nonFinite := Config.freeNat (i0 + 1) % (elems + 1),
      maxAbs := Config.freeNat (i0 + 2) % 0x7F800001, nan := Config.freeNat (i0 + 3) % 2 == 1 }
  else {}

def fftResult (s : State) (n : Nat) (o : OpFlight) : OpResult :=
  let d := o.desc
  let t := o.site n
  let i0 := s.free + 4
  if Fft.phase1 d then
    let w := fftWindow d
    let bits := codeBits (Op.fmtOut d)
    let h := w.hOut d
    let wd := w.wOut d
    let planes := if Conv.cout d t = 0 then 0 else Conv.imgs d t * Conv.cout d t
    let rows := (List.range planes).flatMap (fun pl =>
      planeRows (pl * Win.prOut d) (Win.prOut d) (Win.lbOut d) bits h wd (fun y x =>
        Config.freeNat (i0 + (pl * h + y) * wd + x) % 2 ^ bits))
    { outs := [(Op.regOut d, Conv.outRows d t, rows)], out := freeTally s.free (planes * h * wd) true,
      inp := freeTally s.free 0 (Op.statInEn d), drew := 4 + planes * h * wd }
  else
    let k := Fft.specRows d
    { outs := [(Op.regOut d, k, freeRows i0 k)], out := freeTally s.free (Fft.bins d) true, drew := 4 + 512 * k }

/-- Whether query row `r` admits key position `k` (R182). -/
def Sq.admits (d : List Word) (r k : Nat) : Bool :=
  let p := Sq.qPos0 d + r / Sq.gq d
  decide (k < Sq.seqLen d) &&
    match Sq.mask d with
    | 0 => true
    | 1 => decide (k ≤ p)
    | 2 => decide (k ≤ p ∧ p < k + Sq.window d)
    | _ => decide (p < k + Sq.window d ∧ k < p + Sq.window d)

/-- Whether a row admits some position of a member's share of the span. -/
def Sq.anyKey (d : List Word) (t : Site) (r : Nat) : Bool :=
  let sh := Sq.pages d t
  let lo := Sq.kvPos0 d + 256 * sh.1
  let hi := min (Sq.kvPos0 d + 256 * (sh.1 + sh.2)) (Sq.kvPos0 d + Sq.span d)
  anyBelow (hi - lo) (fun i => Sq.admits d r (lo + i))

/-- −infinity in FP32 (R181). -/
def negInf32 : Nat := 0xFF800000

/-- A state record's byte `b` of an empty state (R181). -/
def emptyState (hd b : Nat) : Byte :=
  if 4 * hd ≤ b ∧ b < 4 * hd + 4 then BitVec.ofNat 8 (negInf32 / 256 ^ (b - 4 * hd)) else 0

/-- A state record's byte whose sums are free: the reserved bytes are zero (R181). -/
def freeState (hd i0 b : Nat) : Byte := if b < 4 * hd + 8 then BitVec.ofNat 8 (Config.freeNat (i0 + b)) else 0

/-- Records packed from the first row (R180). -/
def recordRows (size m k : Nat) (f : Nat → Nat → Byte) : List (Nat × List Byte) :=
  rowsFrom 0 k (fun b => if b / size < m then f (b / size) (b % size) else 0)

/-- The output of rows that end with `empty r`, or that are free: FINAL output and statistics, or state records (R185). -/
def Sq.finish (d : List Word) (i0 : Nat) (empty : Nat → Bool) (maxOf : Nat → Option Nat) : OpResult :=
  let m := Sq.m d
  let hd := Sq.hd d
  if Sq.final d then
    let bits := codeBits (Op.fmtOut d)
    let nr := Sq.outRowRows d
    let rows := (List.range m).flatMap (fun r => rowsFrom (r * nr) nr (fun b =>
      lineByte bits hd (fun j => if empty r then 0 else Config.freeNat (i0 + r * hd + j) % 2 ^ bits) b))
    let i1 := i0 + m * hd
    let lse := if Sq.saveLse d then
        [(Op.regAux d, Sq.lseRows d, recordRows 8 m (Sq.lseRows d) (fun r b =>
          if empty r then BitVec.ofNat 8 (negInf32 / 256 ^ (b % 4))
          else match maxOf r with
            | some w => if b < 4 then BitVec.ofNat 8 (w / 256 ^ b) else BitVec.ofNat 8 (Config.freeNat (i1 + 8 * r + b))
            | none => BitVec.ofNat 8 (Config.freeNat (i1 + 8 * r + b))))] else []
    let empties := if Sq.saveLse d then countBelow m empty else 0
    { outs := (Op.regOut d, m * nr, rows) :: lse,
      out := (freeTally (i1 + 8 * m) (m * hd) true).add { nonFinite := empties, draws := if Op.round d = 1 then m * hd else 0 },
      drew := m * hd + 8 * m + 4 }
  else
    let size := 4 * hd + 32
    { outs := [(Op.regOut d, Sq.stateRows d, recordRows size m (Sq.stateRows d) (fun r b =>
        if empty r then emptyState hd b
        else match maxOf r with
          | some w => if 4 * hd ≤ b ∧ b < 4 * hd + 4 then BitVec.ofNat 8 (w / 256 ^ (b - 4 * hd)) else freeState hd (i0 + size * r) b
          | none => freeState hd (i0 + size * r) b))],
      drew := size * m }

/-- The max-abs of the Q rows (STAT_IN_EN, R179). -/
def Sq.inTally (s : State) (n : Nat) (o : OpFlight) : Tally :=
  let d := o.desc
  let fa := (NumFmt.ofCode (Op.fmtA d)).getD .bf16
  if Op.statInEn d then
    foldTo (Sq.m d) (fun t r => t.add (tallyOver (Sq.hd d) (fun j =>
      fa.value (s.elemAt n (o.rgn (Op.regA d)) (Gemm.offA d + r) fa j)))) {}
  else {}

def sqForwardResult (s : State) (n : Nat) (o : OpFlight) : OpResult :=
  let d := o.desc
  let t := o.site n
  let lead := t.p == 0 && t.q == 0
  { Sq.finish d s.free (fun r => !(Sq.stateIn d && lead) && !Sq.anyKey d t r) (fun _ => none) with
    inp := Sq.inTally s n o }

/-- The MAX of record `r` of part `i` (R186). -/
def Sq.partMax (s : State) (n : Nat) (o : OpFlight) (i r : Nat) : Nat :=
  word32 (s.rgnByte n (o.rgn (Op.regC o.desc + i)) 0) (r * (4 * Sq.hd o.desc + 32) + 4 * Sq.hd o.desc)

/-- The largest of the parts' maxima, taken as FP32 numbers (R186). -/
def Sq.mergeMax (s : State) (n : Nat) (o : OpFlight) (r : Nat) : Nat :=
  foldTo (Sq.npart o.desc) (fun m i => maxTap .fp32 m (Sq.partMax s n o i r)) negInf32

def sqMergeResult (s : State) (n : Nat) (o : OpFlight) : OpResult :=
  let d := o.desc
  let empty : Nat → Bool := fun r =>
    !anyBelow (Sq.npart d) (fun i => (fp32 (Sq.partMax s n o i r)).toDy.isSome)
  Sq.finish d s.free (fun r => empty r && Sq.mergeMax s n o r == negInf32) (fun r => some (Sq.mergeMax s n o r))

def sqBackwardResult (s : State) (n : Nat) (o : OpFlight) : OpResult :=
  let d := o.desc
  let i1 := s.free + 512 * Sq.dqRows d
  { outs := [(Op.regOut d, Sq.dqRows d, freeRows s.free (Sq.dqRows d)),
             (Sq.regGout d, Sq.gradRows d, freeRows i1 (Sq.gradRows d))],
    inp := Sq.inTally s n o, drew := 512 * Sq.dqRows d + 512 * Sq.gradRows d }

/-- The result of an operation's passing run. A scan chunk's result is stated with the streams. -/
def opResult (s : State) (n : Nat) (o : OpFlight) : OpResult :=
  match o.kind with
  | .gemm => gemmResult s n o
  | .conv2d => convResult s n o
  | .fftconv => fftResult s n o
  | .pool => poolResult s n o
  | .boxcrop => boxResult s n o
  | .squallForward => sqForwardResult s n o
  | .squallMerge => sqMergeResult s n o
  | .squallBackward => sqBackwardResult s n o
  | .eltwise | .scan => {}

/-! ### Active array cycles of a GEMM (R72, R94) -/

/-- The array cycles of a GEMM: the steps of every tile of the member's share (R71, R72). -/
def gemmCycles (d : List Word) : Nat :=
  let g := gangDims (Op.gangLog2 d)
  match NumFmt.ofCode (Op.fmtA d), NumFmt.ofCode (Op.fmtB d) with
  | some a, some b =>
    ceilDiv (Gemm.m d) (64 * g.1) * ceilDiv (Gemm.n d) (64 * g.2)
      * (pairSteps a b (Gemm.k d) + if Op.accum d then 1 else 0)
  | _, _ => 0

end Sys2Proof.Machine
end

