-- ==== Sys2Proof/Machine/Seq.lean ====
section
/-! DEFINITION. Machine/Seq.lean: a core's sequencer (R79 to R81, R91, R96), the issue of an operation (R78, R84) and the
gang barrier (R73 to R75). -/

namespace Sys2Proof.Machine

/-! ### Small operations -/

/-- A counter raised by a free number: what it counts depends on cycles that the model does not hold (log entry 7). -/
def countFree (key : Nat) (s : State) : State := (s.addCnt key (Config.freeNat s.free)).drew 1

/-- Whether operations or scan chunks of core `n` are in flight (R81, R202). -/
def Core.busy (c : Core) : Bool := !c.ops.isEmpty || !c.scanQ.isEmpty

def State.busy (s : State) (n : Nat) : Bool := (s.core n).busy

/-- ARR_STATUS and SEQ_STATUS.IDLE follow the operations in flight (R93, R96). -/
def coreStatus (n : Nat) (s : State) : State :=
  let c := s.core n
  let st := match c.ops with
    | [] => if s.seqState n = Seq.faulted then 6 else
        match c.wait with
        | .barrier => 5
        | .issueBarrier _ => 5
        | _ => 0
    | [o] => if o.swapping then 4 else if o.run > 1 then 3 else 1
    | o :: _ => if o.swapping then 4 else if o.run > 1 then 3 else 2
  let (run, tag) := match c.ops with
    | [] => (0, 0)
    | o :: _ => (o.run, o.tag)
  (s.setReg (R.ARR_STATUS n) (BitVec.ofNat 32 (st + 8 * run + 65536 * tag))).setFld (R.SEQ_STATUS n)
    F.SEQ_STATUS_IDLE (if c.busy then 0 else 1)

/-- A count added to semaphore `k` of core `n` for context `x` (R79, R362): saturating, and added to the saved image of a
context that is not resident. -/
def semAdd (n x k v : Nat) (s : State) : State :=
  if (s.core n).ctx = some x then
    let a := R.SEQ_SEM n k
    let cur := s.fld a F.SEQ_SEM_COUNT
    let s1 := s.setFld a F.SEQ_SEM_COUNT (satAdd 16 cur v)
    if cur + v > 65535 then s1.setFld a F.SEQ_SEM_OVF 1 else s1
  else
    let c := s.ctx x
    s.setCtx x { c with saved := c.saved.map (fun (i : SavedCore) =>
      if i.core = n then
        let w := i.sems.getD k 0
        let cur := wordFld w F.SEQ_SEM_COUNT
        let w1 := wordSet w F.SEQ_SEM_COUNT (satAdd 16 cur v)
        { i with sems := modNth i.sems k (fun _ => if cur + v > 65535 then wordSet w1 F.SEQ_SEM_OVF 1 else w1) }
      else i) }

/-! ### Fetching and advancing -/

/-- The opcode of an instruction (R79). -/
def insOp (w : Nat) : Nat := bitsOf w 63 58

/-- The sixteen descriptor words in eight slots from `slot` (R76). -/
def State.descAt (s : State) (n slot : Nat) : List Word :=
  (List.range 16).map (fun w => BitVec.ofNat 32 ((s.slot n (slot + w / 2)).toNat / 2 ^ (32 * (w % 2))))

/-- The context that core `n`'s sequencer runs instructions for, if it does. -/
def State.running (s : State) (n : Nat) : Option Nat :=
  if s.domOn n && s.seqState n == Seq.running then (s.core n).ctx else none

/-- SEQ_ILLEGAL on core `n` (R79). -/
def seqIllegal (n x : Nat) (s : State) : State := ctxFault x (some n) [] Flt.illegal 0 0 s

/-- Where execution goes after slot `p` completes: at the last slot of a loop body the loop runs again or ends (R79). -/
def loopStep : List LoopFrame → Nat → List LoopFrame × Nat
  | [], p => ([], p + 1)
  | f :: fs, p =>
    if p = f.last then
      if f.left > 1 then ({ f with left := f.left - 1 } :: fs, f.first) else loopStep fs p
    else (f :: fs, p + 1)

/-- The sequencer goes on after slot `p`. -/
def seqNext (n x p : Nat) (s : State) : State :=
  let (fr, q) := loopStep (s.core n).loops p
  if 16383 < q then seqIllegal n x s
  else ((s.modCore n (fun c => { c with loops := fr, wait := .none })).setPc n q).setSeqState n Seq.running

/-- The sequencer waits at its instruction. -/
def seqWait (n : Nat) (w : SeqWait) (s : State) : State :=
  coreStatus n ((s.modCore n (fun c => { c with wait := w })).setSeqState n Seq.waiting)

/-- The instruction at the PC of core `n` where its opcode is `op`: `f` gets the context, the slot and the word. An
unlisted opcode faults; any other instruction is not this command's (log entry 4). -/
def seqInstr (n op : Nat) (f : Nat → Nat → Nat → State → State) (s : State) : State :=
  match s.running n with
  | none => s
  | some x =>
    let p := s.pc n
    let w := (s.slot n p).toNat
    if insOp w = 0 ∨ 12 < insOp w then seqIllegal n x s
    else if insOp w = op then f x p w s
    else s

/-- Whether the instruction at a slot is an ISSUE of an operation, so that the cycle before it is an operation boundary
(R81, R138). -/
def State.atBoundary (s : State) (n : Nat) : Bool :=
  let w := (s.slot n (s.pc n)).toNat
  let d := s.descAt n (bitsOf w 13 0)
  insOp w == 1 && ((opKind d).isSome || Op.opcode d == OpCode.scan)

/-! ### SWITCH (R91, R145) -/

/-- Entry `i` of a model image: the GEOM and OWNER words. -/
def State.imageEntry (s : State) (n slot : Nat) : Word × Word :=
  let w := (s.slot n slot).toNat
  (BitVec.ofNat 32 w, BitVec.ofNat 32 (w / 2 ^ 32))

/-- The image's entries from `i`, `k` of them, written to the regions that they name (R145). -/
def loadImage (n x slot : Nat) : Nat → State → Option State
  | 0, s => some s
  | k + 1, s =>
    let (g, o) := s.imageEntry n slot
    if wordFld o F.SPD_REGION_OWNER_CTX ≠ x then none
    else
      let r := bitsOf o.toNat 27 22
      let o' := o &&& 0x003FFFFF#32
      let s1 := (s.setReg (R.SPD_REGION_GEOM n r) g).setReg (R.SPD_REGION_OWNER n r) o'
      let s2 := if wordFld o F.SPD_REGION_OWNER_MODE = 0 then
          (s1.setReg (R.SPD_REGION_HEAD n r) 0).setReg (R.SPD_REGION_TAIL n r) 0 else s1
      loadImage n x (slot + 1) k s2

/-- A SWITCH at its drained boundary. -/
def doSwitch (n x m : Nat) (s : State) : State :=
  let img := s.fld (R.SEQ_MODEL n m) F.SEQ_MODEL_IMAGE
  if 16383 < img + 15 then seqIllegal n x s
  else
    match loadImage n x img 16 s with
    | none => seqIllegal n x s
    | some s1 =>
      coreStatus n (((s1.modCore n (fun c => { c with wait := .none, loops := [] })).setPc n
        (s1.fld (R.SEQ_MODEL n m) F.SEQ_MODEL_ENTRY)).setSeqState n Seq.running)

/-- What follows when nothing is in flight any more: a waiting SWITCH runs, a SEQ_WAIT enters low power, a drain request
holds the core at its drained boundary (R81, R91, R96, R98). A sequencer that waits on a condition stands at one, and an
arrival at a barrier that has not released is withdrawn (log entry 8). -/
def settleCore (n : Nat) (s : State) : State :=
  if s.busy n then coreStatus n s
  else
    let c := s.core n
    match c.wait, c.ctx with
    | .switch m, some x => doSwitch n x m s
    | .lowPower, _ => coreStatus n (s.setSeqState n (if s.fld (R.PWR_DOM_CTRL n) F.PWR_DOM_CTRL_MODE = 2 then Seq.halted else Seq.lowPower))
    | w, _ =>
      let st := s.seqState n
      let waits := st == Seq.waiting && (match w with
        | .sem _ _ => true
        | .rows _ _ => true
        | .room _ _ => true
        | .barrier => true
        | .issueBarrier _ => true
        | _ => false)
      if s.flag (R.SEQ_CTRL n) F.SEQ_CTRL_DRAIN_REQ && (waits || (st == Seq.running && s.atBoundary n)) then
        coreStatus n ((s.modCore n (fun c => { c with wait := .none })).setSeqState n Seq.drained)
      else coreStatus n s

/-! ### Issue (R78, R81, R84) -/

/-- The regions of a descriptor latched at issue. -/
def latchRgns (s : State) (t : Site) (d : List Word) (k : OpKind) : List (Nat × Rgn) :=
  (((opReads t d k).map (·.1)) ++ ((opOuts t d k).map (·.1))).eraseDups.map (fun r => (r, s.rgn t.n r))

/-- A member's site for a descriptor: alone, or at its position in the gang (R73, R76). -/
def State.siteOf (s : State) (n x : Nat) (d : List Word) : Site :=
  if Op.gangLog2 d = 0 then ⟨n, x, 1, 1, 0, 0⟩
  else
    let g := gangDims (Op.gangLog2 d)
    ⟨n, x, g.1, g.2, s.fld (R.ARR_GANG n) F.ARR_GANG_POS_ROW, s.fld (R.ARR_GANG n) F.ARR_GANG_POS_COL⟩

/-- The cell that an armed injection corrupts in a run that starts now (R528): operations that multiply in the array. -/
def armed (s : State) (n : Nat) (d : List Word) (k : OpKind) : Option (Nat × Nat) :=
  let c := s.core n
  if c.injMode ≠ 0 ∧ (usesArray d k ∨ (k = .scan ∧ bitOf (dw d 2) 26)) then some (c.injRow, c.injCol) else none

/-- MODE 1 covers the next run only (R93). -/
def disarm (n : Nat) (o : OpFlight) (s : State) : State :=
  if o.inj.isSome ∧ (s.core n).injMode = 1 then s.modCore n (fun c => { c with injMode := 0 }) else s

/-- An operation latched at issue. -/
def mkOp (s : State) (t : Site) (d : List Word) (k : OpKind) (gang : List Nat) : OpFlight :=
  { kind := k, desc := d, ctx := t.x, tag := Op.tag d, run := 1, gang := gang, pos := t.p * t.c + t.q, posRow := t.p,
    posCol := t.q, shiftAdj := s.fld (R.ARR_OUT_CFG t.n) F.ARR_OUT_CFG_SHIFT_ADJ, lfsr := (s.core t.n).lfsr, inj := armed s t.n d k,
    failRows := [], failCols := [], loc := noLoc, parity := none, shadow := usesVector d k, swapping := false,
    forced := false, entry := 0, resetMark := false, rgns := latchRgns s t d k, outs := opOuts t d k }

/-- The operation put in flight on one core, whose sequencer goes on. -/
def startOp (t : Site) (d : List Word) (k : OpKind) (gang : List Nat) (p : Nat) (s : State) : State :=
  let o := mkOp s t d k gang
  let s1 := disarm t.n o (s.modCore t.n (fun c => { c with ops := c.ops ++ [o] }))
  coreStatus t.n (seqNext t.n t.x p s1)

/-- What a failing check counts: refused accesses, and an overrun where it is the fault reported (R78, R137, R152). -/
def countChk (n : Nat) (k : Chk) (s : State) : State :=
  let s1 := if k.denied then countRange n s else s
  match lowestFault k.faults with
  | some (c, _) => if c = Flt.overrun then countOverrun n s1 else s1
  | none => s1

/-- A configuration word failed its parity check at use for context `x` (R404). -/
def cfgFault (n x tag : Nat) (s : State) : State :=
  ctxFault x (some n) [] Flt.parity 0xFE tag (s.count Pg.rel3 2 1)

/-- An ISSUE of an operation of kind `k` reaches its operation boundary (R78, R84, R96, R171, R202). `cfgBad`: a
configuration word that the issue uses fails its parity check. -/
def issueOp (n : Nat) (k : OpKind) (cfgBad : Bool) (x p : Nat) (d : List Word) (s : State) : State :=
  let c := s.core n
  if c.bankSwap.isSome then s
  else if s.flag (R.SEQ_CTRL n) F.SEQ_CTRL_DRAIN_REQ then settleCore n s
  else if !c.scanQ.isEmpty || c.ops.any (fun o => o.kind == .boxcrop) then seqIllegal n x s
  else if 2 ≤ c.ops.length then s
  else if cfgBad then cfgFault n x (Op.tag d) s
  else
    let t := s.siteOf n x d
    let size := s.fld (R.ARR_GANG n) F.ARR_GANG_SIZE_LOG2
    if Op.gangLog2 d ≠ 0 ∧ Op.gangLog2 d = size ∧ size ≤ 4 then
      seqWait n (.issueBarrier (bitsOf (s.slot n p).toNat 13 0)) s
    else
      let gb : Chk := { fields := bad (Op.gangLog2 d != 0) 2 }
      let chk := gb.add (opChk s t d k)
      match chk.faults with
      | [] => startOp t d k [n] p s
      | fs => ctxFaults x (some n) [] (Op.tag d) fs (countChk n chk s)

/-- An ISSUE at the PC whose descriptor `sel` accepts. A descriptor beyond the last slot is illegal; a reserved OPCODE or
KIND is malformed whatever command meets it (R76, R79, R192). -/
def issueInstr (n : Nat) (sel : List Word → Bool) (f : Nat → Nat → List Word → State → State) (s : State) : State :=
  seqInstr n 1 (fun x p w s =>
    let slot := bitsOf w 13 0
    if 16383 < slot + 7 then seqIllegal n x s
    else
      let d := s.descAt n slot
      if Op.opcode d = 0 ∨ 10 < Op.opcode d then ctxFault x (some n) [] Flt.malformed 1 (Op.tag d) s
      else if Op.opcode d = 6 ∧ 5 ≤ Sq.kind d then
        ctxFault x (some n) [] Flt.malformed ((Sq.fieldsBad d).foldl min 0xFF) (Op.tag d) s
      else if sel d then f x p d s
      else s) s

/-- An ISSUE of an operation of one kind. -/
def issueKind (n : Nat) (k : OpKind) (cfgBad : Bool) (s : State) : State :=
  issueInstr n (fun d => opKind d == some k) (fun x p d => issueOp n k cfgBad x p d) s

/-! ### The gang barrier (R73 to R75) -/

/-- The members of the gang of core `n`: the cores that carry its GANG_ID and run its context. -/
def State.gangOf (s : State) (n : Nat) : List Nat :=
  (List.range 18).filter fun m =>
    s.fld (R.ARR_GANG m) F.ARR_GANG_SIZE_LOG2 != 0
      && s.fld (R.ARR_GANG m) F.ARR_GANG_GANG_ID == s.fld (R.ARR_GANG n) F.ARR_GANG_GANG_ID
      && (s.core m).ctx == (s.core n).ctx

/-- The position of a core in its gang, as a number (R15). -/
def State.gangPos (s : State) (n : Nat) : Nat :=
  let g := gangDims (s.fld (R.ARR_GANG n) F.ARR_GANG_SIZE_LOG2)
  let p := s.fld (R.ARR_GANG n) F.ARR_GANG_POS_ROW
  let q := s.fld (R.ARR_GANG n) F.ARR_GANG_POS_COL
  if p < g.1 ∧ q < g.2 then p * g.2 + q else 99

/-- The members in the order of their positions. -/
def State.gangOrder (s : State) (g : List Nat) : List Nat :=
  (List.range 16).flatMap (fun i => g.filter (fun m => s.gangPos m == i))

/-- Whether a gang's membership is wrong: a position presented twice or out of range, or a wrong number (R75). -/
def State.gangWrong (s : State) (g : List Nat) : Bool :=
  g.any (fun m => s.gangPos m == 99 || decide (2 ^ s.fld (R.ARR_GANG m) F.ARR_GANG_SIZE_LOG2 ≠ g.length))
    || (g.map s.gangPos).eraseDups.length != g.length

/-- The slot of the descriptor with which a core waits at the issue barrier. -/
def Core.arrival (c : Core) : Option Nat :=
  match c.wait with
  | .issueBarrier s => some s
  | _ => none

/-- A gang operation started on every member (R74). -/
def startGang (g : List Nat) (x : Nat) (d : List Word) (k : OpKind) : List Nat → State → State
  | [], s => s
  | m :: ms, s => startGang g x d k ms (startOp (s.siteOf m x d) d k g (s.pc m) s)

/-- The counts of members' failing checks. -/
def countChks (x : Nat) (d : List Word) (k : OpKind) : List Nat → State → State
  | [], s => s
  | m :: ms, s => countChks x d k ms (countChk m (opChk s (s.siteOf m x d) d k) s)

/-- The last member's ISSUE has arrived at the barrier of core `n`'s gang (R74, R75, R78). -/
def issueBarrier (n : Nat) (cfgBad : Bool) (s : State) : State :=
  match (s.core n).ctx, (s.core n).arrival with
  | some x, some slot =>
    let g := s.gangOf n
    if g.all (fun m => (s.core m).arrival.isSome && s.seqState m == Seq.waiting) then
      let ds := g.map (fun m => s.descAt m ((s.core m).arrival.getD 0))
      let d := s.descAt n slot
      let differ := ds.any (fun e => Op.tag e != Op.tag d || Op.opcode e != Op.opcode d)
      let fs := (if differ then [(Flt.malformed, 14)] else []) ++ if s.gangWrong g then [(Flt.illegal, 0)] else []
      let s0 := g.foldl (fun t m => countFree (cntKey (Pg.arr0 m) 7) t) s
      if !fs.isEmpty then ctxFaults x (some n) g (Op.tag d) fs s0
      else if cfgBad then ctxFault x (some n) g Flt.parity 0xFE (Op.tag d) (s0.count Pg.rel3 2 1)
      else
        match opKind d with
        | none => ctxFault x (some n) g Flt.malformed 25 (Op.tag d) s0
        | some k =>
          let all := g.flatMap (fun m => (opChk s0 (s0.siteOf m x d) d k).faults)
          if all.isEmpty then startGang (s0.gangOrder g) x d k (s0.gangOrder g) s0
          else ctxFaults x (some n) g (Op.tag d) all (countChks x d k g s0)
    else s
  | _, _ => s

/-- A BARRIER instruction's arrival (R74): a core in no gang passes alone. -/
def barrierArrive (n x p : Nat) (s : State) : State :=
  if s.fld (R.ARR_GANG n) F.ARR_GANG_SIZE_LOG2 = 0 then seqNext n x p s else seqWait n .barrier s

/-- The last member has arrived at a BARRIER (R74, R75). -/
def barrierRelease (n : Nat) (s : State) : State :=
  match (s.core n).ctx with
  | none => s
  | some x =>
    let g := s.gangOf n
    if (s.core n).wait = .barrier ∧ g.all (fun m => (s.core m).wait == .barrier) then
      let s0 := g.foldl (fun t m => countFree (cntKey (Pg.arr0 m) 7) t) s
      if s.gangWrong g then ctxFault x (some n) g Flt.illegal 0 0 s0
      else g.foldl (fun t m => settleCore m (seqNext m x (t.pc m) t)) s0
    else s

/-- A member waits at a barrier longer than ARR_BARRIER_LIMIT (R75). -/
def barrierTimeout (n : Nat) (s : State) : State :=
  match (s.core n).ctx, (s.core n).wait with
  | some x, .barrier | some x, .issueBarrier _ =>
    ctxFault x (some n) (s.gangOf n) Flt.watchdog 0 0 (errEvent (Pg.arr0 n) E.arr0_BARRIER_TIMEOUT s)
  | _, _ => s

/-! ### Instructions other than ISSUE (R79) -/

def semHas (s : State) (n k v : Nat) : Bool := decide (v ≤ s.fld (R.SEQ_SEM n k) F.SEQ_SEM_COUNT)

/-- A semaphore's count subtracted and the sequencer past its WAITSEM. -/
def semTake (n x p k v : Nat) (s : State) : State :=
  settleCore n (seqNext n x p (s.setFld (R.SEQ_SEM n k) F.SEQ_SEM_COUNT (s.fld (R.SEQ_SEM n k) F.SEQ_SEM_COUNT - v)))

def waitSem (n : Nat) (s : State) : State :=
  seqInstr n 2 (fun x p w s =>
    let k := bitsOf w 5 0
    let v := bitsOf w 31 16
    if semHas s n k v then semTake n x p k v s else settleCore n (seqWait n (.sem k v) s)) s

/-- The sequencer of core `n` where it waits for `w`. -/
def State.waitingFor (s : State) (n : Nat) : Option (Nat × SeqWait) :=
  if s.seqState n = Seq.waiting then (s.core n).ctx.map (fun x => (x, (s.core n).wait)) else none

def waitSemRelease (n : Nat) (s : State) : State :=
  match s.waitingFor n with
  | some (x, .sem k v) => if semHas s n k v then semTake n x (s.pc n) k v s else s
  | _ => s

def signal (n : Nat) (s : State) : State :=
  seqInstr n 3 (fun x p w s => settleCore n (seqNext n x p (semAdd n x (bitsOf w 5 0) (bitsOf w 31 16) s))) s

def waitRows (n : Nat) (s : State) : State :=
  seqInstr n 4 (fun x p w s =>
    let r := bitsOf w 5 0
    let v := bitsOf w 31 16
    if v ≤ (s.rgn n r).committed then settleCore n (seqNext n x p s) else settleCore n (seqWait n (.rows r v) s)) s

def waitRowsRelease (n : Nat) (s : State) : State :=
  match s.waitingFor n with
  | some (x, .rows r v) => if v ≤ (s.rgn n r).committed then settleCore n (seqNext n x (s.pc n) s) else s
  | _ => s

def waitRoom (n : Nat) (s : State) : State :=
  seqInstr n 5 (fun x p w s =>
    let r := bitsOf w 5 0
    let v := bitsOf w 31 16
    if v ≤ (s.rgn n r).free then settleCore n (seqNext n x p s) else settleCore n (seqWait n (.room r v) s)) s

def waitRoomRelease (n : Nat) (s : State) : State :=
  match s.waitingFor n with
  | some (x, .room r v) => if v ≤ (s.rgn n r).free then settleCore n (seqNext n x (s.pc n) s) else s
  | _ => s

def seqLoop (n : Nat) (s : State) : State :=
  seqInstr n 6 (fun x p w s =>
    let cnt := bitsOf w 15 0
    let last := bitsOf w 29 16
    if last ≤ p ∨ 4 ≤ (s.core n).loops.length then seqIllegal n x s
    else if cnt = 0 then settleCore n (seqNext n x last s)
    else
      let s1 := s.modCore n (fun c => { c with loops := ⟨p + 1, last, cnt⟩ :: c.loops })
      settleCore n (s1.setPc n (p + 1))) s

def seqBranch (n : Nat) (s : State) : State :=
  seqInstr n 7 (fun _ _ w s => settleCore n (s.setPc n (bitsOf w 13 0))) s

def seqSwitch (n : Nat) (s : State) : State :=
  seqInstr n 8 (fun x _ w s =>
    let m := bitsOf w 4 0
    if !s.flag (R.SEQ_MODEL n m) F.SEQ_MODEL_VALID then seqIllegal n x s
    else settleCore n (seqWait n (.switch m) s)) s

def seqDrain (n : Nat) (s : State) : State :=
  seqInstr n 9 (fun x p _ s => if s.busy n then seqWait n .drain s else settleCore n (seqNext n x p s)) s

def drainRelease (n : Nat) (s : State) : State :=
  match s.waitingFor n with
  | some (x, .drain) => if s.busy n then s else settleCore n (seqNext n x (s.pc n) s)
  | _ => s

/-- SEQ_WAIT: the core drains, then enters low power; execution goes on after it (R79, R98, R473). -/
def seqLowPower (n : Nat) (s : State) : State :=
  seqInstr n 10 (fun x p _ s =>
    let s1 := seqNext n x p s
    if s1.seqState n = Seq.faulted then s1 else settleCore n (seqWait n .lowPower s1)) s

def seqBarrier (n : Nat) (s : State) : State :=
  seqInstr n 11 (fun x p _ s => settleCore n (barrierArrive n x p s)) s

/-- Whether channel `k` of core `n` still holds something that the sequencer posted for context `x`. -/
def Chan.holds (h : Chan) (x : Nat) : Bool :=
  h.queue.any (fun d => d.fromSeq && d.ctx == x) || (match h.cur with | some d => d.fromSeq && d.ctx == x | none => false)

/-- SEQ_CTRL.START (R96): a halted sequencer starts at SEQ_ENTRY; a core that firmware has given no context acts for
CX0 (log entry 9). -/
def seqStart (n : Nat) (s : State) : State :=
  if s.seqState n = Seq.halted then
    settleCore n (((s.modCore n (fun c => { c with ctx := some (c.ctx.getD 0), wait := .none, loops := [], doneSig := false })).setPc n
      (s.fld (R.SEQ_ENTRY n) F.SEQ_ENTRY_SLOT)).setSeqState n Seq.running)
  else s

/-- A drained core whose DRAIN_REQ is cleared goes on; a set one takes effect at the next boundary (R96). -/
def drainChanged (n : Nat) (s : State) : State :=
  if s.flag (R.SEQ_CTRL n) F.SEQ_CTRL_DRAIN_REQ then settleCore n s
  else if s.seqState n = Seq.drained then coreStatus n (s.setSeqState n Seq.running)
  else s

/-- A SEQ_CTRL write's command (R96): START after the fields. -/
def seqCtrlWrite (n : Nat) (v : Word) (s : State) : State :=
  let s1 := drainChanged n s
  if v.getLsbD 0 then seqStart n s1 else s1

end Sys2Proof.Machine
end

