-- ==== Sys2Proof/Machine/Dma.lean ====
section
/-! DEFINITION. Machine/Dma.lean: core DMA: posting descriptors (R138, R149, R175), the checks at channel start (R140,
R192), rows landing and leaving (R127, R130, R142, R143) and the end of a transfer. -/

namespace Sys2Proof.Machine

/-! ### The DMA body (R139) -/

def Dma.dir (d : List Word) : Nat := df d 2 3 0
def Dma.chan (d : List Word) : Nat := df d 2 5 4
def Dma.waitRoom (d : List Word) : Bool := bitOf (dw d 2) 6
def Dma.relSrc (d : List Word) : Bool := bitOf (dw d 2) 7
def Dma.regSrc (d : List Word) : Nat := df d 2 13 8
def Dma.regDst (d : List Word) : Nat := df d 2 19 14
def Dma.dstCore (d : List Word) : Nat := df d 2 24 20
def Dma.da (d : List Word) : Nat := dw d 3 + 2 ^ 32 * df d 4 15 0
def Dma.offSrc (d : List Word) : Nat := df d 5 15 0
def Dma.offDst (d : List Word) : Nat := df d 5 31 16
def Dma.rows (d : List Word) : Nat := df d 6 15 0
def Dma.commitRows (d : List Word) : Nat := df d 6 31 16
def Dma.imemSlot (d : List Word) : Nat := df d 7 13 0
def Dma.blockRows (d : List Word) : Nat := df d 8 15 0
def Dma.stride (d : List Word) : Nat := dw d 9
def Dma.fill (d : List Word) : Nat := dw d 10

/-- The fields of words 0 and 1 that a transfer must leave zero (R139, R175). -/
def dmaZero (d : List Word) : List Nat :=
  bad (Op.gangLog2 d != 0) 2 ++ bad (Op.accum d) 3 ++ bad (Op.relA d) 4 ++ bad (Op.relB d) 5 ++ bad (Op.act d != 0) 7
    ++ bad (Op.statOutEn d) 9 ++ bad (Op.statInEn d) 10 ++ rsvd d 0 0xC0000880 ++ rsvd d 1 0x0000FF80

/-- DA of row `i` of a DA transfer (BLOCK_ROWS, DA_STRIDE; R139). -/
def Dma.rowDa (d : List Word) (i : Nat) : Nat :=
  if Dma.blockRows d = 0 then Dma.da d + 512 * i
  else (Dma.da d + i / Dma.blockRows d * Dma.stride d + i % Dma.blockRows d * 512) % 2 ^ 48

/-- Whether a core is in service for a context: active, and placed or resident there (R140). -/
def State.runsOn (s : State) (x n : Nat) : Bool :=
  s.fld (R.REL_CORE n) F.REL_CORE_STATE == 0 && ((s.core n).ctx == some x || (s.ctx x).cores.contains n)

/-- The destination core of a transfer. -/
def Dma.target (n : Nat) (d : List Word) : Nat := if Dma.dir d = 4 then Dma.dstCore d else n

/-- The writer that a transfer is to its destination region (R132, R143). -/
def Dma.writer (n c : Nat) (d : List Word) : Writer := if Dma.dir d = 4 then ⟨2, n⟩ else ⟨1, c⟩

/-- The checks of a DMA descriptor at channel start (R140): failing fields, refusal, regions without room. -/
def dmaChk (s : State) (n c x : Nat) (d : List Word) : Chk :=
  let dir := Dma.dir d
  let dst := decide (dir = 0 ∨ dir = 2 ∨ dir = 5) || (dir == 4 && decide (Dma.dstCore d ≤ 17))
  let src := decide (dir = 1 ∨ dir = 2 ∨ dir = 4)
  let m := Dma.target n d
  let g := s.rgn m (Dma.regDst d)
  let fs := dmaZero d ++ bad (decide (5 < dir)) 15 ++ bad (dir == 4 && decide (17 < Dma.dstCore d)) 21
    ++ bad (decide (dir = 0 ∨ dir = 1 ∨ dir = 3) && df d 3 8 0 != 0) 22
    ++ bad (src && decide ((s.rgn n (Dma.regSrc d)).committed < Dma.offSrc d + Dma.rows d)) 24
    ++ bad (dst && !g.raw && Dma.offDst d != 0) 25
    ++ bad (outside (Dma.rows d) 1 49152) 26
    ++ bad (dst && !g.raw && (decide (g.size < Dma.commitRows d)
        || (Dma.waitRoom d && decide (g.size < Dma.rows d) && Dma.commitRows d == 0))) 27
    ++ bad (dir == 3 && decide (16384 < Dma.imemSlot d + 64 * Dma.rows d)) 28
    ++ bad (decide (49152 < Dma.blockRows d)) 29 ++ bad (Dma.stride d % 512 != 0) 30
    ++ rsvd d 2 0xFE000000 ++ rsvd d 4 0xFFFF0000 ++ rsvd d 7 0xFFFFC000 ++ rsvd d 8 0xFFFF0000
    ++ ([11, 12, 13, 14, 15].map (fun i => rsvd d i 0xFFFFFFFF)).flatten
  { fields := fs,
    denied := (src && !s.accessOk n x (Dma.regSrc d) none)
      || (dst && !s.accessOk m x (Dma.regDst d) (some (Dma.writer n c d))) || (dir == 4 && !s.runsOn x m),
    overrun := bad (dst && !g.raw && !Dma.waitRoom d && (!s.domOn m || decide (g.free < Dma.rows d))) (Dma.regDst d) }

/-- A page-table entry (R177): VALID and the DA of the page. -/
def State.ptEntry (s : State) (n r e : Nat) : Bool × Nat :=
  let v := ofLeBytes ((List.range 8).map (fun b => s.rgnByte n (s.rgn n r) 0 (8 * e + b)))
  (bitOf v 0, bitsOf v 47 9 * 512)

/-- Position of the first token of a page store within its page, and the last (R178). -/
def Sq.t0 (d : List Word) : Nat := Sq.kvPos0 d % 256
def Sq.t1 (d : List Word) : Nat := Sq.t0 d + Sq.span d - 1
/-- Bytes of one token in a part of the page. -/
def Sq.tokBytes (d : List Word) : Nat := Sq.hd d * (codeBits (Op.fmtB d) / 8)
/-- Rows of each part that a page store writes: the first and how many (R178). -/
def Sq.storeRows (d : List Word) : Nat × Nat :=
  let a := Sq.t0 d * Sq.tokBytes d / 512
  let b := Sq.t1 d * Sq.tokBytes d / 512
  (a, b - a + 1)

/-- The checks of a SQUALL transfer at channel start (R178, R192). -/
def pageChk (s : State) (n c x : Nat) (d : List Word) : Chk :=
  let fetch := Sq.kind d == 3
  let pt := s.rgn n (Sq.regPt d)
  let gb := s.rgn n (Op.regB d)
  let last := Sq.page0 d + (if fetch then Sq.npages d else 1)
  let fs := dmaZero d ++ Sq.unused d ++ bad (!fmtIn (Op.fmtB d) [.bf16, .fp16, .e4m3, .e5m2]) 16 ++ Sq.hdBad d
    ++ bad (Op.fmtC d != 0) 17 ++ bad (Op.outShift d != 0) 19
    ++ bad (fetch && Sq.kvPos0 d % 256 != 0) 41 ++ bad (!fetch && outside (Sq.span d) 1 65536) 42
    ++ bad (!fetch && decide (255 < Sq.t1 d)) 42 ++ bad (fetch && outside (Sq.npages d) 1 256) 53
    ++ bad (decide (4096 < last) || decide (pt.size * 64 < last)) 54 ++ bad (!pt.raw) 51
    ++ bad (fetch && (gb.raw || decide (gb.size < Sq.pr d))) 22
    ++ bad (!fetch && decide ((s.rgn n (Op.regA d)).committed < Gemm.offA d + Sq.pr d)) 32 ++ Sq.rsvdBad d
  { fields := fs,
    denied := !s.accessOk n x (Sq.regPt d) none
      || (if fetch then !s.accessOk n x (Op.regB d) (some ⟨1, c⟩) else !s.accessOk n x (Op.regA d) none) }

/-- The transfers of sequence streams carry an ordinary DMA descriptor whose region is the state slots' own (R203). -/
def descChk (s : State) (n c : Nat) (t : DmaDesc) : Chk :=
  match t.kind with
  | .dma => dmaChk s n c t.ctx t.desc
  | .pageFetch | .pageStore => pageChk s n c t.ctx t.desc
  | .swapIn _ | .swapOut _ => {}

/-! ### Posting -/

/-- A descriptor appended to a channel's queue of eight (R138). -/
def enqueue (n c : Nat) (t : DmaDesc) (s : State) : State :=
  chanStatus n c (s.fld (R.SPD_DMA_STATUS n c) F.SPD_DMA_STATUS_WAIT_CAUSE)
    (s.setChan n c { s.chan n c with queue := (s.chan n c).queue ++ [t] })

def Chan.full (h : Chan) : Bool := decide (8 ≤ h.queue.length)

/-- An ISSUE of a transfer posts it in one cycle, and the sequencer goes on (R138, R175). -/
def postXfer (n : Nat) (k : DmaKind) (c : List Word → Nat) (x p : Nat) (d : List Word) (s : State) : State :=
  if (s.chan n (c d)).full then seqIllegal n x s
  else settleCore n (seqNext n x p (enqueue n (c d) ⟨k, d, x, true, none⟩ s))

/-- An ISSUE of a DMA descriptor of one direction; a reserved DIR is posted too and fails when its channel starts it. -/
def issueDma (n dir : Nat) (s : State) : State :=
  issueInstr n (fun d => Op.opcode d == OpCode.dma && (Dma.dir d == dir || decide (5 < Dma.dir d)))
    (fun x p d => postXfer n .dma Dma.chan x p d) s

def issuePage (n kind : Nat) (s : State) : State :=
  issueInstr n (fun d => Op.opcode d == OpCode.squall && Sq.kind d == kind)
    (fun x p d => postXfer n (if kind = 3 then .pageFetch else .pageStore) Sq.chan x p d) s

/-- Firmware posts a descriptor to a channel for a context (R149): a full queue drops it. -/
def fwPost (n c x : Nat) (d : List Word) (host : Option Nat) (s : State) : State :=
  if (s.chan n c).full then errEvent (Pg.spd4 n) E.spd4_QUEUE_FULL s
  else enqueue n c ⟨if Op.opcode d = 6 ∧ Sq.kind d = 3 then .pageFetch else if Op.opcode d = 6 then .pageStore else .dma,
    d, x, false, host⟩ s

/-- Word `w` of SPD_DMA_SUBMIT of channel `c`; word 15 posts the descriptor (R149). -/
def submitWord (n c w : Nat) (v : Word) (s : State) : State :=
  let s1 := s.modCore n (fun k => { k with submit := Tab.set k.submit (16 * c + w) v })
  if w = 15 then
    let d := (List.range 16).map (fun i => Tab.get (s1.core n).submit 0 (16 * c + i))
    fwPost n c (s1.fld (R.SPD_DMA_SUBMIT_CTX n c) F.SPD_DMA_SUBMIT_CTX_CTX) d none s1
  else s1

/-! ### Rows of a running transfer -/

/-- The counts of a parity error in physical bank `p` of core `n` met by a reader (R126, R128). -/
def parityError (n p : Nat) (s : State) : State :=
  let a := R.SPD_PAR_CNT n p
  let s1 := ((errEvent (Pg.spd3 n) E.spd3_PAR_ERR s).satFld a F.SPD_PAR_CNT_COUNT 1).count (Pg.spd3 n) 2 1
  let thr := s1.fld (R.SPD_PAR_THR n) F.SPD_PAR_THR_THR
  if thr ≠ 0 ∧ thr ≤ s1.fld a F.SPD_PAR_CNT_COUNT then
    let s2 := (fun t => if t.fld a F.SPD_PAR_CNT_COUNT = thr then
      logEntry { cls := LogCls.threshold, kind := LogKind.bank, unit := n, subunit := p, arg0 := thr } t else t)
      (errEvent (Pg.spd3 n) E.spd3_PAR_THR s1)
    if s2.recs.reserve then
      s2.modCore n (fun c => if c.bankDue.contains p then c else { c with bankDue := c.bankDue ++ [p] }) else s2
  else s1

/-- PARITY_PERSIST on physical bank `p` (R126, R128, R148). -/
def parityPersist (n x p tag : Nat) (gang : List Nat) (s : State) : State :=
  let s1 := errEvent (Pg.spd3 n) E.spd3_PAR_PERSIST s
  let s2 := if s1.recs.reserve then
      s1.modCore n (fun c => if c.bankDue.contains p then c else { c with bankDue := c.bankDue ++ [p] }) else s1
  ctxFault x (some n) gang Flt.parity p tag s2

/-- A transfer that faults its context (R150). -/
def dmaFault (n x code sub tag : Nat) (s : State) : State :=
  ctxFault x (some n) [] code sub tag (errEvent (Pg.spd4 n) E.spd4_DMA_FAULT s)

/-- An amount charged in class `k` of R363 to a context, whose number has seven bits, and to its tenant. -/
def chargeAcc (k x v : Nat) (s : State) : State :=
  (s.addCnt (R.CTL_ACC_LO k (x % 128)) v).addCnt (R.CTL_ACC_T_LO k (tenantOf (x % 128))) v

/-- Rows that a channel moved, and bytes charged to the context (R150, R363). -/
def countRow (n x : Nat) (into : Bool) (s : State) : State :=
  chargeAcc 4 x 512 (s.count (Pg.spd4 n) (if into then 0 else 1) 1)

/-- A whole row written into core `m` by a transfer, with its poison (R127, R148, R150). -/
def landBytes (m row : Nat) (bs : List Byte) (src : Nat) (s : State) : State :=
  let s1 := (s.writeRow m row bs src).count (Pg.spd3 m) 1 1
  if src = 0 then s1 else errEvent (Pg.spd4 m) E.spd4_POISON_IN (s1.count (Pg.spd3 m) 5 1)

/-- Rows that a transfer moves in all. -/
def DmaDesc.total (t : DmaDesc) : Nat :=
  match t.kind with
  | .dma => Dma.rows t.desc
  | .pageFetch => Sq.npages t.desc * Sq.pr t.desc
  | .pageStore => 2 * (Sq.storeRows t.desc).2
  | .swapIn _ | .swapOut _ => Dma.rows t.desc

/-- Whether a transfer fills a region's rows, moves data to DA, or loads instruction memory. -/
def DmaDesc.fills (t : DmaDesc) : Bool :=
  match t.kind with
  | .dma => decide (Dma.dir t.desc = 0 ∨ Dma.dir t.desc = 2 ∨ Dma.dir t.desc = 4 ∨ Dma.dir t.desc = 5)
  | .pageFetch => true
  | .swapIn _ => true
  | _ => false

def DmaDesc.toDa (t : DmaDesc) : Bool :=
  match t.kind with
  | .dma => Dma.dir t.desc == 1
  | .pageStore => true
  | .swapOut _ => true
  | _ => false

def DmaDesc.toImem (t : DmaDesc) : Bool :=
  match t.kind with
  | .dma => Dma.dir t.desc == 3
  | _ => false

/-- The destination region of a transfer that fills one: core and region. -/
def DmaDesc.dst (n : Nat) (t : DmaDesc) : Nat × Nat :=
  match t.kind with
  | .pageFetch => (n, Op.regB t.desc)
  | _ => (Dma.target n t.desc, Dma.regDst t.desc)

/-- The step in which HEAD of the destination advances; 0 at the end only (R130, R139, R178). -/
def DmaDesc.step (t : DmaDesc) : Nat :=
  match t.kind with
  | .pageFetch => Sq.pr t.desc
  | _ => Dma.commitRows t.desc

/-- Rows landed beyond the last advance of HEAD. -/
def DmaDesc.ahead (t : DmaDesc) (moved : Nat) : Nat := if t.step = 0 then moved else moved % t.step

/-- Whether a destination takes its next row now: always for a raw region or a stream slot; otherwise a free row beyond
those landed already (R142). -/
def State.hasRoom (s : State) (n : Nat) (t : DmaDesc) (moved : Nat) : Bool :=
  match t.kind with
  | .swapIn _ => true
  | _ =>
    let (m, r) := t.dst n
    let g := s.rgn m r
    s.domOn m && (g.raw || decide (t.ahead moved < g.free))

/-- The row of core `m` that row `i` of a transfer goes to. -/
def State.dstRow (s : State) (n : Nat) (t : DmaDesc) (i : Nat) : Nat :=
  match t.kind with
  | .swapIn _ => Dma.offDst t.desc + i
  | _ =>
    let (m, r) := t.dst n
    let g := s.rgn m r
    if g.raw then g.row (Dma.offDst t.desc + i) else g.rowHead (t.ahead i)

/-- Whether the regions of a running transfer still pass R132 (R133). -/
def State.stillOk (s : State) (n c : Nat) (t : DmaDesc) : Bool :=
  match t.kind with
  | .swapIn _ | .swapOut _ => true
  | .pageFetch => s.accessOk n t.ctx (Op.regB t.desc) (some ⟨1, c⟩) && s.accessOk n t.ctx (Sq.regPt t.desc) none
  | .pageStore => s.accessOk n t.ctx (Op.regA t.desc) none && s.accessOk n t.ctx (Sq.regPt t.desc) none
  | .dma =>
    let dir := Dma.dir t.desc
    (!decide (dir = 1 ∨ dir = 2 ∨ dir = 4) || s.accessOk n t.ctx (Dma.regSrc t.desc) none)
      && (!t.fills || s.accessOk (t.dst n).1 t.ctx (t.dst n).2 (some (Dma.writer n c t.desc)))

/-- The scratchpad row that row `i` of a transfer reads, counted from where the source stood at the start. -/
def State.srcRow (s : State) (n : Nat) (h : Chan) (t : DmaDesc) (i : Nat) : Nat :=
  match t.kind with
  | .swapOut _ => Dma.offSrc t.desc + i
  | .pageStore =>
    let sr := Sq.storeRows t.desc
    let half := Sq.pr t.desc / 2
    let k := if i < sr.2 then sr.1 + i else half + sr.1 + (i - sr.2)
    (h.src.getD (s.rgn n (Op.regA t.desc))).row (Gemm.offA t.desc + k)
  | _ => (h.src.getD (s.rgn n (Dma.regSrc t.desc))).row (Dma.offSrc t.desc + i)

/-- A host entry completes with STATUS DONE (R333, R336). -/
def entryDone (id status code sub : Nat) (s : State) : State :=
  { s with hif := { s.hif with entries := s.hif.entries.map (fun (e : Entry) =>
      if e.id = id then
        match e.st with
        | .done _ _ _ _ => e
        | _ => { e with st := .done status code sub s.dtime }
      else e) } }

/-- A transfer's end (R130, R138, R150): HEAD takes the remaining rows, REL_SRC releases the source, SIG_SEM is
signalled and the channel is free. -/
def finishXfer (n c : Nat) (s : State) : State :=
  let h := s.chan n c
  match h.cur with
  | none => s
  | some t =>
    let s1 := match t.kind with
      | .swapIn _ => s
      | _ => if t.fills then advanceHead (t.dst n).1 (t.dst n).2 (t.ahead h.moved) s else s
    let s2 := match t.kind, h.src with
      | .dma, some g => if Dma.relSrc t.desc then releaseTo n (Dma.regSrc t.desc) g (Dma.offSrc t.desc + Dma.rows t.desc) s1 else s1
      | _, _ => s1
    let s3 := s2.setChan n c { h with cur := none, requested := 0, moved := 0, page := 0, refused := false, room := false,
                                      src := none }
    let s4 := if Op.sigEn t.desc then semAdd n t.ctx (Op.sigSem t.desc) 1 s3 else s3
    let s5 := (chanStatus n c 0 s4).count (Pg.spd4 n) 2 1
    match t.host with
    | some id => entryDone id 0 0 0 s5
    | none => s5

/-- One more row of a transfer has moved: HEAD advances at each step, and the last row ends the transfer. A stream's
transfer ends with its own event. -/
def rowMoved (n c : Nat) (s : State) : State :=
  let h := s.chan n c
  match h.cur with
  | none => s
  | some t =>
    let m := h.moved + 1
    let s1 := chanStatus n c 0 (s.setChan n c { h with moved := m, room := false })
    let s2 := if t.fills ∧ t.step ≠ 0 ∧ m % t.step = 0 then advanceHead (t.dst n).1 (t.dst n).2 t.step s1 else s1
    match t.kind with
    | .swapIn _ => s2
    | .swapOut _ => s2
    | _ => if m = t.total then finishXfer n c s2 else s2

/-- The channel waits for room (R142). -/
def waitForRoom (n c : Nat) (s : State) : State :=
  chanStatus n c 2 (s.setChan n c { s.chan n c with room := true })

/-- A row arrives for a transfer that fills a region: it lands, or the channel waits for room (R142). -/
def landRow (n c : Nat) (bs : List Byte) (src : Nat) (s : State) : State :=
  let h := s.chan n c
  match h.cur with
  | none => s
  | some t =>
    let m := (t.dst n).1
    let s1 := landBytes (match t.kind with | .swapIn _ => n | _ => m) (s.dstRow n t h.moved) bs src s
    rowMoved n c (countRow n t.ctx (m == n) (if m = n then s1 else s1.count (Pg.spd4 m) 0 1))

/-- The bytes and poison of the next row of a transfer that fills a region from this core's own data. -/
def State.localRow (s : State) (n : Nat) (h : Chan) (t : DmaDesc) : List Byte × Nat :=
  if Dma.dir t.desc = 5 then ((leBytes 4 (Dma.fill t.desc) |> List.replicate 128).flatten, 0)
  else
    let r := s.srcRow n h t h.moved
    (s.rowBytes n r, s.rowTag n r)

/-- Up to `k` rows moved inside the scratchpads, until room or the transfer ends (R142, R143). -/
def moveRows (n c : Nat) : Nat → State → State
  | 0, s => s
  | k + 1, s =>
    let h := s.chan n c
    match h.cur with
    | none => s
    | some t =>
      if !t.fills || decide (Dma.dir t.desc = 0 ∧ t.kind = .dma) || t.kind != .dma then s
      else if !s.stillOk n c t then
        dmaFault n t.ctx Flt.denied 0 (Op.tag t.desc) (countRange n s)
      else if s.hasRoom n t h.moved then
        let (bs, src) := s.localRow n h t
        let s1 := if Dma.dir t.desc = 5 then s else s.count (Pg.spd3 n) 0 1
        moveRows n c k (landRow n c bs src s1)
      else waitForRoom n c s

/-! ### Channel start (R138, R140) -/

/-- The source region of a transfer as it stands at the start. -/
def startSrc (s : State) (n : Nat) (t : DmaDesc) : Option Rgn :=
  match t.kind with
  | .dma => if Dma.dir t.desc = 1 ∨ Dma.dir t.desc = 2 ∨ Dma.dir t.desc = 4 then some (s.rgn n (Dma.regSrc t.desc)) else none
  | .pageStore => some (s.rgn n (Op.regA t.desc))
  | _ => none

/-- What a parity error on a transfer's source rows does (R126): the bank, and whether the three reads all fail. -/
def dmaParity (n x tag : Nat) (par : Option (Nat × Bool)) (go : State → State) (s : State) : State :=
  match par with
  | none => go s
  | some (p, persists) =>
    if persists then
      parityPersist n x p tag [] (errEvent (Pg.spd4 n) E.spd4_DMA_FAULT
        (((parityError n p (parityError n p (parityError n p s)))).count (Pg.spd4 n) 6 2))
    else go ((parityError n p s).count (Pg.spd4 n) 6 1)

/-- Channel `c` of core `n` starts its next queued descriptor (R138, R140). `par` is a parity error that its reads meet;
`cfgBad` a configuration word that fails its check (R404). -/
def channelStart (n c : Nat) (par : Option (Nat × Bool)) (cfgBad : Bool) (s : State) : State :=
  let h := s.chan n c
  match h.cur, h.queue with
  | none, t :: ts =>
    if s.flag (R.SPD_DMA_CTRL n c) F.SPD_DMA_CTRL_HOLD || !s.domOn n then s
    else
      let tag := Op.tag t.desc
      let s0 := chanStatus n c 0 (s.setChan n c { h with queue := ts })
      if cfgBad then cfgFault n t.ctx tag (errEvent (Pg.spd4 n) E.spd4_DMA_FAULT s0)
      else
        let chk := descChk s0 n c t
        match chk.faults with
        | [] =>
          let s1 := s0.setChan n c { queue := ts, cur := some t, src := startSrc s0 n t }
          let missing := t.kind == .pageStore && !(s1.ptEntry n (Sq.regPt t.desc) (Sq.page0 t.desc)).1
          if missing then dmaFault n t.ctx Flt.missing 0 tag s1
          else dmaParity n t.ctx tag par (fun u => moveRows n c (t.total + 1) (chanStatus n c 0 u)) s1
        | fs =>
          ctxFaults t.ctx (some n) [] tag fs
            (countChk (Dma.target n t.desc) chk (errEvent (Pg.spd4 n) E.spd4_DMA_FAULT s0))
  | _, _ => s

/-- HOLD of a channel changed (R149). -/
def holdChanged (n c : Nat) (s : State) : State :=
  chanStatus n c (s.fld (R.SPD_DMA_STATUS n c) F.SPD_DMA_STATUS_WAIT_CAUSE) s

/-- A channel's wait exceeds SPD_DMA_WAIT_LIMIT (R142). -/
def dmaWaitTimeout (n c : Nat) (s : State) : State :=
  let h := s.chan n c
  match h.cur with
  | some t =>
    if h.room && (s.reg (R.SPD_DMA_WAIT_LIMIT n)) != 0 then dmaFault n t.ctx Flt.watchdog 0 (Op.tag t.desc) s else s
  | none => s

/-! ### DONE (R79) -/

/-- Whether the sequencer's DONE finds nothing outstanding. -/
def State.seqQuiet (s : State) (n x : Nat) : Bool :=
  !s.busy n && !((s.chan n 0).holds x || (s.chan n 1).holds x || (s.chan n 2).holds x || (s.chan n 3).holds x)
    && !s.collPending n x

/-- The sequencer halts on DONE and signals completion to firmware. -/
def seqHalt (n : Nat) (s : State) : State :=
  coreStatus n ((s.modCore n (fun c => { c with wait := .none, loops := [], doneSig := true })).setSeqState n Seq.halted)

/-- DONE (R79). -/
def seqDone (n : Nat) (s : State) : State :=
  seqInstr n 12 (fun x _ _ s => if s.seqQuiet n x then seqHalt n s else seqWait n .done s) s

/-- A waiting DONE finds nothing outstanding. -/
def doneComplete (n : Nat) (s : State) : State :=
  match s.waitingFor n with
  | some (x, .done) => if s.seqQuiet n x then seqHalt n s else s
  | _ => s

end Sys2Proof.Machine
end

