-- ==== Sys2Proof/Machine/Streams.lean ====
section
/-! DEFINITION. Machine/Streams.lean: sequence streams (R195 to R211): the stream table and its commands, the scan queue,
swaps, the checks of a chunk at its start and what a chunk's commit writes. -/

namespace Sys2Proof.Machine

/-! ### The table (R196) -/

/-- Word `w` of table entry `e`. -/
def State.str (s : State) (e w : Nat) : Word := Tab.get s.streams 0 (4 * e + w)
def State.setStr (s : State) (e w : Nat) (v : Word) : State := { s with streams := Tab.set s.streams (4 * e + w) v }

/-- A field of word 0 of an entry. -/
def State.strFld (s : State) (e hi lo : Nat) : Nat := bitsOf (s.str e 0).toNat hi lo
def State.setStrFld (s : State) (e hi lo v : Nat) : State := s.setStr e 0 (wordSet (s.str e 0) ⟨hi, lo⟩ v)

def State.strValid (s : State) (e : Nat) : Bool := s.strFld e 0 0 == 1
def State.strCtx (s : State) (e : Nat) : Nat := s.strFld e 7 1
def State.strCore (s : State) (e : Nat) : Nat := s.strFld e 12 8
/-- LOC: 0 resident, 1 swapping out, 2 swapped, 3 swapping in. -/
def State.strLoc (s : State) (e : Nat) : Nat := s.strFld e 14 13
def State.setStrLoc (s : State) (e v : Nat) : State := s.setStrFld e 14 13 v
def State.strReset (s : State) (e : Nat) : Bool := s.strFld e 15 15 == 1
def State.strInitZero (s : State) (e : Nat) : Bool := s.strFld e 16 16 == 1
def State.strRows (s : State) (e : Nat) : Nat := s.strFld e 22 17
def State.strCur (s : State) (e : Nat) : Nat := s.strFld e 23 23
def State.strStateRow (s : State) (e : Nat) : Nat := bitsOf (s.str e 1).toNat 15 0
def State.strInitRow (s : State) (e : Nat) : Nat := bitsOf (s.str e 1).toNat 31 16
def State.strDa (s : State) (e : Nat) : Nat := ((s.str e 2).toNat + 2 ^ 32 * bitsOf (s.str e 3).toNat 6 0) * 512

/-- First row of slot `k` of a stream. -/
def State.strSlot (s : State) (e k : Nat) : Nat := s.strStateRow e + k * s.strRows e

/-- The table entry that local ID `id` of context `x` names. -/
def State.strEntry (s : State) (x id : Nat) : Option Nat :=
  if id < s.fld (R.STR_PART x) F.STR_PART_COUNT then some ((s.fld (R.STR_PART x) F.STR_PART_BASE + id) % 4096) else none

/-- Whether an entry lies in some context's partition (R208). -/
def State.strOwned (s : State) (e : Nat) : Bool :=
  anyBelow 128 fun x =>
    let b := s.fld (R.STR_PART x) F.STR_PART_BASE
    decide (b ≤ e ∧ e < b + s.fld (R.STR_PART x) F.STR_PART_COUNT)

/-! ### The SCAN body (R198, R199) -/

def Scan.mode (d : List Word) : Nat := df d 2 24 23
def Scan.bSel (d : List Word) : Bool := bitOf (dw d 2) 25
def Scan.fuse (d : List Word) : Bool := bitOf (dw d 2) 26
def Scan.rstEn (d : List Word) : Bool := bitOf (dw d 2) 27
def Scan.outEn (d : List Word) : Bool := bitOf (dw d 2) 28
def Scan.stream (d : List Word) : Nat := df d 6 11 0
def Scan.steps (d : List Word) : Nat := df d 6 28 16
def Scan.ch (d : List Word) : Nat := df d 7 12 0
def Scan.k (d : List Word) : Nat := df d 7 31 16
def Scan.strideA (d : List Word) : Nat := df d 8 12 0
def Scan.strideB (d : List Word) : Nat := df d 8 28 16
def Scan.prIn (d : List Word) : Nat := df d 9 15 0
def Scan.prOut (d : List Word) : Nat := df d 9 31 16

/-- Inputs per channel and step: x, then z, then w (R199). -/
def Scan.inputs (d : List Word) : Nat := if Scan.mode d = 1 then (if Scan.bSel d then 3 else 2) else 1

/-- Bytes of the state of all channels (R195, R196). -/
def Scan.stateBytes (d : List Word) : Nat := Scan.ch d * if Scan.mode d = 2 then 16 else 4

def Scan.outRows (d : List Word) : Nat := if Scan.outEn d then Scan.ch d * Scan.prOut d else 0

/-- The operand ranges of a chunk: region, offset, rows (R199). -/
def scanReads (d : List Word) : List (Nat × Nat × Nat) :=
  let a := if Scan.fuse d then extent (Scan.steps d) (Scan.strideA d) (codeBytes (Op.fmtA d) (Scan.k d))
    else extent (Scan.inputs d * Scan.ch d) (Scan.prIn d) (codeBytes (Op.fmtA d) (Scan.steps d))
  let b := if Scan.fuse d then extent (Scan.inputs d * Scan.ch d) (Scan.strideB d) (codeBytes (Op.fmtB d) (Scan.k d))
    else if Scan.mode d = 0 then rowsOf (8 * Scan.ch d)
    else if Scan.mode d = 2 then rowsOf (32 * Scan.ch d) else 0
  (Op.regA d, Gemm.offA d, a) :: (if b = 0 then [] else [(Op.regB d, Gemm.offB d, b)])
    ++ if Scan.rstEn d then [(Op.regC d, Gemm.offC d, 1)] else []

/-- The releases of a chunk at its commit (R207). -/
def scanReleases (d : List Word) : List (Nat × Nat) :=
  ((scanReads d).filter (fun r => (Op.relA d && r.1 == Op.regA d) || (Op.relB d && r.1 == Op.regB d))).map
    (fun r => (r.1, r.2.1 + r.2.2))

/-- The field checks of a SCAN descriptor (R198). -/
def scanFields (d : List Word) : List Nat :=
  let inBytes := codeBytes (Op.fmtA d) (Scan.steps d)
  bad (Op.gangLog2 d != 0) 2 ++ bad (Op.accum d) 3 ++ bad (Op.act d != 0) 7 ++ bad (!Op.sigEn d) 13
    ++ rsvd d 0 0xC0000880 ++ rsvd d 1 0x0000FF80
    ++ (if Scan.fuse d then
          bad (!fmtIn (Op.fmtA d) floats) 15 ++ bad (!(match NumFmt.ofCode (Op.fmtA d), NumFmt.ofCode (Op.fmtB d) with
            | some a, some b => pairOk a b
            | _, _ => false)) 16
        else bad (!fmtIn (Op.fmtA d) [.fp32, .bf16, .fp16]) 15 ++ bad (Op.fmtB d != 0) 16)
    ++ bad (Op.fmtC d != 0) 17 ++ bad (!fmtIn (Op.fmtOut d) floats) 18 ++ bad (Op.outShift d != 0) 19
    ++ bad (decide (2 ≤ Op.round d) || (Op.round d == 1 && Op.fmtOut d != 1)) 20
    ++ bad (Scan.mode d == 3) 25 ++ bad (Scan.bSel d && Scan.mode d != 1) 26 ++ bad (Scan.fuse d && Scan.mode d != 1) 27
    ++ bad (outside (Scan.steps d) 1 4096) 34 ++ bad (outside (Scan.ch d) 1 4096) 35
    ++ (if Scan.fuse d then
          bad (Scan.k d == 0) 36 ++ bad (decide (Scan.strideA d * 512 < codeBytes (Op.fmtA d) (Scan.k d))) 37
            ++ bad (decide (Scan.strideB d * 512 < codeBytes (Op.fmtB d) (Scan.k d))) 38
        else bad (decide (Scan.prIn d * 512 < inBytes)) 39)
    ++ bad (Scan.outEn d && decide (Scan.prOut d * 512 < codeBytes (Op.fmtOut d) (Scan.steps d))) 40
    ++ rsvd d 2 0xE0000000 ++ rsvd d 3 0xFF000000 ++ rsvd d 5 0xFFFF0000 ++ rsvd d 6 0xE000F000
    ++ rsvd d 7 0x0000E000 ++ rsvd d 8 0xE000E000
    ++ ([10, 11, 12, 13, 14, 15].map (fun i => rsvd d i 0xFFFFFFFF)).flatten

/-- Whether the slots and the initial block of an entry lie in one raw region of MODE 0b01 that passes R132 (R197). -/
def State.strPlaced (s : State) (n x e : Nat) : Bool :=
  anyBelow 64 fun r =>
    let g := s.rgn n r
    let inside : Nat → Nat → Bool := fun lo k => decide (g.base ≤ lo ∧ lo + k ≤ g.base + g.size)
    g.mode == 1 && s.accessOk n x r (some .ops) && inside (s.strStateRow e) (2 * s.strRows e)
      && (s.strInitZero e || inside (s.strInitRow e) (s.strRows e))

/-- The faults of a chunk at its start (R205, R78). -/
def scanFaults (s : State) (n x : Nat) (d : List Word) : Chk × List (Nat × Nat) :=
  let t : Site := ⟨n, x, 1, 1, 0, 0⟩
  let offNo : Nat → Nat := fun i => 30 + i
  let reads := (scanReads d).foldl (fun k r => k.add (readChk s t r.1 r.2.1 r.2.2
    (if r.1 = Op.regA d ∧ r.2.1 = Gemm.offA d then offNo 0
     else if r.1 = Op.regB d ∧ r.2.1 = Gemm.offB d then offNo 1 else offNo 2))) ({} : Chk)
  let g := s.rgn n (Op.regOut d)
  let out : Chk := if Scan.outEn d then
      { fields := bad g.raw 24, denied := !s.accessOk n x (Op.regOut d) (some .ops),
        overrun := if g.raw then [] else bad (decide (g.free < s.held n (Op.regOut d) + Scan.outRows d)) 24 } else {}
  let base : Chk := { fields := scanFields d }
  match s.strEntry x (Scan.stream d) with
  | none =>
    let k := (base.add reads).add out
    let k' := k.add { fields := [33] }
    (k', k'.faults)
  | some e =>
    if !s.strValid e then
      let k := (base.add reads).add out
      (k, k.faults ++ [(Flt.missing, 0)])
    else
      let k := ((base.add reads).add out).add
        { fields := bad (decide (s.strRows e * 512 < Scan.stateBytes d)) 35,
          denied := s.strCtx e != x || s.strCore e != n || !s.strPlaced n x e }
      (k, k.faults)

/-! ### Swaps (R203, R204) -/

/-- The descriptor that moves a stream's state: the absolute scratchpad row of slot CUR stands in the offset field of its
side. -/
def swapDesc (s : State) (e : Nat) (out : Bool) : List Word :=
  let row := s.strSlot e (s.strCur e)
  let w : Nat → Word := fun v => BitVec.ofNat 32 v
  let da := s.strDa e
  [w 10, 0, w (if out then 1 else 0), w da, w (da / 2 ^ 32), w (if out then row % 65536 else row % 65536 * 65536),
   w (s.strRows e), 0, 0, 0, 0, 0, 0, 0, 0, 0]

/-- The channel that swaps of a stream use: home core and SWAP_CHAN of its context. -/
def State.swapChan (s : State) (e : Nat) : Nat × Nat :=
  (s.strCore e, s.fld (R.STR_PART (s.strCtx e)) F.STR_PART_SWAP_CHAN)

/-- A swap posted to its channel, or left waiting for a place in its queue (R203). -/
def postSwap (e : Nat) (out : Bool) (s : State) : State :=
  let (n, c) := s.swapChan e
  if (s.chan n c).full then { s with swapReqs := s.swapReqs ++ [⟨e, out, false⟩] }
  else enqueue n c ⟨if out then .swapOut e else .swapIn e, swapDesc s e out, s.strCtx e, false, none⟩ s

/-- Swaps that wait for a place in a channel's queue take it once there is one (R203). -/
def pumpSwaps (s : State) : State :=
  s.swapReqs.foldl (fun t q =>
    if t.strLoc q.entry = (if q.out then 1 else 3) then
      let (n, c) := t.swapChan q.entry
      if (t.chan n c).full then t
      else postSwap q.entry q.out { t with swapReqs := t.swapReqs.filter (fun (r : StreamReq) => r != q) }
    else t) s

/-- A swapped stream's state is brought in (R203). -/
def startSwapIn (e : Nat) (byChunk : Bool) (s : State) : State :=
  let s1 := (s.setStrLoc e 3).count Pg.ctlStr 0 1
  postSwap e false (if byChunk then s1.count Pg.ctlStr 2 1 else s1)

/-- Whether a chunk of the stream is queued or running on some core. -/
def State.strBusy (s : State) (e : Nat) : Bool :=
  anyBelow 18 (fun n => (s.core n).scanQ.any (fun q => q.entry == e))

/-- The stream unit's lookup of a posted chunk (R202, R203). -/
def strLookup (e : Nat) (s : State) : State :=
  if s.strValid e && decide (s.strCore e ≤ 17) && s.strLoc e == 2 then startSwapIn e true s else s

/-! ### The scan queue (R202, R203) -/

/-- An entry number that names no entry of the table: the lookup found none. -/
def noEntry : Nat := 4096

/-- An ISSUE of SCAN posts its chunk (R202). The sequencer holds at it under a drain request as at an operation. -/
def postScan (n : Nat) (s : State) : State :=
  issueInstr n (fun d => Op.opcode d == OpCode.scan) (fun x p d s =>
    if s.flag (R.SEQ_CTRL n) F.SEQ_CTRL_DRAIN_REQ then settleCore n s
    else if 16 ≤ (s.core n).scanQ.length then seqIllegal n x s
    else
      let e := (s.strEntry x (Scan.stream d)).getD noEntry
      let s1 := s.modCore n (fun c => { c with scanQ := c.scanQ ++ [⟨d, x, e, s.dtime, false⟩] })
      coreStatus n (seqNext n x p (strLookup e s1))) s

/-- Whether chunk `k` of a queue may start: its stream is resident and no older chunk names it (R202). A chunk that names
no stream starts too, and fails its checks. -/
def State.eligible (s : State) (n k : Nat) : Bool :=
  let q := (s.core n).scanQ
  match q[k]? with
  | none => false
  | some c => !c.running && (!s.strValid c.entry || s.strLoc c.entry == 0)
      && !(q.take k).any (fun b => b.entry == c.entry && b.entry != noEntry)

/-- The queue without its chunk at position `k`. -/
def dropChunk (n k : Nat) (s : State) : State := s.modCore n (fun c => { c with scanQ := dropNth c.scanQ k })

/-- The scan unit starts the oldest eligible chunk (R202, R205). -/
def scanStart (n : Nat) (cfgBad : Bool) (s : State) : State :=
  let c := s.core n
  if !c.ops.isEmpty || !s.domOn n then s
  else
    match leastBelow c.scanQ.length (fun k => s.eligible n k) with
    | none => s
    | some k =>
      match c.scanQ[k]? with
      | none => s
      | some q =>
        let tag := Op.tag q.desc
        if cfgBad then cfgFault n q.ctx tag (dropChunk n k s)
        else
          let f := scanFaults s n q.ctx q.desc
          match f.2 with
          | [] =>
            let t : Site := ⟨n, q.ctx, 1, 1, 0, 0⟩
            let rg := ((scanReads q.desc).map (·.1) ++ [Op.regOut q.desc]).eraseDups.map (fun r => (r, s.rgn n r))
            let o : OpFlight := { mkOp s t q.desc .scan [n] with
              shadow := true, entry := q.entry, resetMark := s.strReset q.entry, rgns := rg,
              outs := if Scan.outEn q.desc then [(Op.regOut q.desc, Scan.outRows q.desc)] else [] }
            coreStatus n ((disarm n o s).modCore n (fun c => { c with
              ops := [o], scanQ := modNth c.scanQ k (fun q => { q with running := true }) }))
          | fs => ctxFaults q.ctx (some n) [] tag fs (countChk n f.1 (dropChunk n k s))

/-- Chunk `k` of a core has waited longer than VEC_SCAN_WAIT_LIMIT (R203, R210). -/
def scanTimeout (n k : Nat) (s : State) : State :=
  match (s.core n).scanQ[k]? with
  | none => s
  | some q =>
    if q.running || s.eligible n k || s.reg (R.VEC_SCAN_WAIT_LIMIT n) == 0 then s
    else ctxFault q.ctx (some n) [] Flt.watchdog 0 (Op.tag q.desc) (errEvent (Pg.vec n) E.vec_SCAN_WAIT s)

/-- The running swap of an entry at its last row: the channel that carries it. -/
def State.swapEnds (s : State) (e : Nat) (k : DmaKind) : Option (Nat × Nat) :=
  let (n, c) := s.swapChan e
  match (s.chan n c).cur with
  | some t => if t.kind = k ∧ (s.chan n c).moved = t.total then some (n, c) else none
  | none => none

/-- A stream's swap-in completes (R203): its waiting chunks become eligible, and their stall cycles are counted. -/
def swapInDone (e : Nat) (s : State) : State :=
  match s.swapEnds e (.swapIn e) with
  | none => s
  | some (n, c) =>
    let s1 := finishXfer n c (s.setStrLoc e 0)
    if (s1.core n).scanQ.any (fun q => q.entry == e) then countFree (cntKey (Pg.vec n) 1) s1 else s1

/-- A pending swap-out begins (R204). -/
def swapOutStart (e : Nat) (s : State) : State :=
  if s.swapReqs.any (fun q => q.entry == e && q.out) && s.strLoc e == 0 && !s.strBusy e then
    let s1 := { s with swapReqs := s.swapReqs.filter (fun (q : StreamReq) => q.entry != e) }
    postSwap e true (s1.setStrLoc e 1)
  else s

/-- A swap-out's write completes (R204); a chunk that waits is followed by a swap-in (R203). -/
def swapOutDone (e : Nat) (s : State) : State :=
  match s.swapEnds e (.swapOut e) with
  | none => s
  | some (n, c) =>
    let s1 := (finishXfer n c (s.setStrLoc e 2)).count Pg.ctlStr 1 1
    if s1.strBusy e then startSwapIn e true s1 else s1

/-! ### Commands on the table (R208) -/

/-- The result of a command. -/
def strResult (r : Nat) (s : State) : State :=
  let s1 := s.setReg R.STR_STATUS (BitVec.ofNat 32 (2 * r))
  if r = 0 then s1 else errEvent Pg.ctlStr E.ctlStr_STR_REFUSED s1

/-- Whether a stream's swap is under way or pending, or chunks of it are queued. -/
def State.strHeld (s : State) (e : Nat) : Bool :=
  s.strBusy e || (s.strValid e && (s.strLoc e == 1 || s.strLoc e == 3)) || s.swapReqs.any (fun q => q.entry == e)

/-- Command `cmd` of STR_CMD on entry `e` (R204, R208, R211). -/
def strCmd (cmd e : Nat) (s : State) : State :=
  if !s.strOwned e then strResult 2 s
  else
    let loc := s.strLoc e
    match cmd with
    | 1 =>
      if s.strHeld e then strResult 1 s
      else strResult 0 (iter 4 (fun w t => t.setStr e w (t.reg (R.STR_STAGE w))) s)
    | 2 => strResult 0 (iter 4 (fun w t => t.setReg (R.STR_STAGE w) (t.str e w)) s)
    | 3 =>
      if !s.strValid e ∨ loc = 2 then strResult 3 s
      else if loc = 1 ∨ (loc = 3 ∧ !s.strBusy e) then strResult 1 s
      else if s.swapReqs.any (fun q => q.entry == e && q.out) then strResult 0 s
      else strResult 0 { s with swapReqs := s.swapReqs ++ [⟨e, true, false⟩] }
    | 4 =>
      if !s.strValid e ∨ loc = 0 then strResult 3 s
      else if loc ≠ 2 then strResult 1 s
      else strResult 0 (startSwapIn e false s)
    | 5 => strResult 0 (s.setStrFld e 15 15 1)
    | 6 =>
      if s.strHeld e then strResult 1 s
      else strResult 0 (iter 4 (fun w t => t.setStr e w 0) s)
    | _ => s

/-- A write to STR_CMD: the encodings that are not commands are reserved (R6, R208). -/
def strCmdWrite (iid : Nat) (v : Word) (s : State) : State :=
  let cmd := bitsOf v.toNat 2 0
  if cmd = 0 ∨ cmd = 7 then raiseErr Pg.ctlStr Err.encRsvd iid (R.STR_CMD % 4096) s
  else strCmd cmd (s.fld R.STR_SEL F.STR_SEL_INDEX) s

/-- Whether partition `k` with word `w` overlaps another (R208). -/
def State.partOverlaps (s : State) (k : Nat) (w : Word) : Bool :=
  let b := wordFld w F.STR_PART_BASE
  let c := wordFld w F.STR_PART_COUNT
  anyBelow 128 fun j =>
    let b' := s.fld (R.STR_PART j) F.STR_PART_BASE
    let c' := s.fld (R.STR_PART j) F.STR_PART_COUNT
    j != k && decide (c ≠ 0 ∧ c' ≠ 0 ∧ b < b' + c' ∧ b' < b + c)

/-- After a write to STR_PART that took the word from `old`: an overlap drops it (R208). -/
def strPartCheck (k : Nat) (old : Word) (s : State) : State :=
  let w := s.reg (R.STR_PART k)
  if s.partOverlaps k w then errEvent Pg.ctlStr E.ctlStr_STR_PART (s.setReg (R.STR_PART k) old) else s

/-! ### A chunk's operands and result (R199, R200, R207) -/

/-- Steps of a chunk that carry a reset mark. -/
def State.scanMark (s : State) (n : Nat) (o : OpFlight) (t : Nat) : Bool :=
  (t == 0 && o.resetMark)
    || (Scan.rstEn o.desc && bitOf (s.rgnByte n (o.rgn (Op.regC o.desc)) (Gemm.offC o.desc) (t / 8)).toNat (t % 8))

def State.scanMarks (s : State) (n : Nat) (o : OpFlight) : Nat := countBelow (Scan.steps o.desc) (s.scanMark n o)

/-- The poison source of the state rows that a chunk reads: slot CUR, and the initial block where a mark uses it. -/
def State.scanStatePoison (s : State) (n : Nat) (o : OpFlight) : Nat :=
  let k := rowsOf (Scan.stateBytes o.desc)
  let of' : Nat → Nat := fun lo =>
    match leastBelow k (fun i => s.rowTag n (lo + i) != 0) with
    | some i => s.rowTag n (lo + i)
    | none => 0
  let a := of' (s.strSlot o.entry (s.strCur o.entry))
  if a ≠ 0 then a
  else if !s.strInitZero o.entry && decide (s.scanMarks n o ≠ 0) then of' (s.strInitRow o.entry) else 0

/-- The output sequence and statistics of a chunk; the recurrence's values are free within what R107 and R201 promise
(log entry 23). -/
def scanResult (s : State) (n : Nat) (o : OpFlight) : OpResult :=
  let d := o.desc
  let k := Scan.outRows d
  let fa := (NumFmt.ofCode (Op.fmtA d)).getD .fp32
  let g := o.rgn (Op.regA d)
  let planes := (List.range (Scan.ch d)).flatMap (fun c =>
    let r := rowsOf (codeBytes (Op.fmtOut d) (Scan.steps d))
    rowsFrom (c * Scan.prOut d) r (fun b => BitVec.ofNat 8 (Config.freeNat (s.free + (c * r) * 512 + b))))
  let i1 := s.free + 512 * k
  let inp := if !Op.statInEn d then {} else if Scan.fuse d then freeTally i1 0 true else
      foldTo (Scan.ch d) (fun t c => t.add (tallyOver (Scan.steps d) (fun i =>
        fa.value (s.elemAt n g (Gemm.offA d + c * Scan.prIn d) fa i)))) {}
  { outs := if Scan.outEn d then [(Op.regOut d, k, planes)] else [],
    inp := { inp with saturated := 0, nonFinite := 0 },
    out := if Scan.outEn d then (freeTally (i1 + 4) (Scan.ch d * Scan.steps d) true).add
        { draws := if Op.round d = 1 then Scan.ch d * Scan.steps d else 0 } else {},
    drew := 512 * k + 8 }

/-- What a chunk's commit writes to its stream (R200, R207): the new state, CUR, and RESET where it was latched. -/
def scanCommit (n : Nat) (o : OpFlight) (s : State) : State :=
  let e := o.entry
  let cur := s.strCur e
  let k := rowsOf (Scan.stateBytes o.desc)
  let row := s.strSlot e (1 - cur)
  let marks := s.scanMarks n o
  let s1 := (iter k (fun i t => t.writeRow n (row + i) (mkRow (fun b =>
    BitVec.ofNat 8 (Config.freeNat (s.free + 512 * i + b)))) 0) s).drew (512 * k)
  let s2 := s1.setStrFld e 23 23 (1 - cur)
  let s3 := if o.resetMark then s2.setStrFld e 15 15 0 else s2
  let s4 := s3.modCore n (fun c => { c with scanQ := c.scanQ.filter (fun q => !q.running) })
  (s4.count (Pg.vec n) 0 1).count (Pg.vec n) 2 marks

/-- VEC_SCAN_STATUS of a core (R210). -/
def State.scanStatus (s : State) (n : Nat) : Word :=
  let q := (s.core n).scanQ
  let wait := countBelow q.length (fun k => !((q[k]?.map (·.running)).getD false) && !s.eligible n k)
  let run := q.find? (·.running)
  BitVec.ofNat 32 (q.length + 32 * wait + (if run.isSome then 1024 else 0)
    + 4096 * (match run with | some c => Scan.stream c.desc | none => 0))

end Sys2Proof.Machine
end

