-- ==== Sys2Proof/Machine/Verdict.lean ====
section
/-! DEFINITION. Machine/Verdict.lean: verification and what follows it: localisation, rerun, squash, commit, spare swap,
wear, bank swaps (R81 to R90, R93 to R98, R126 to R128, R528, R529) and the remaining commands of a core's pages. -/

namespace Sys2Proof

/-- Whether an array check failed. -/
def CheckResult.array (r : CheckResult) : Bool := !r.rows.isEmpty || !r.cols.isEmpty || r.corner

/-- Whether any check failed. -/
def CheckResult.fails (r : CheckResult) : Bool := r.array || r.shadow || r.parity.isSome

end Sys2Proof

namespace Sys2Proof.Machine

/-! ### Poison (R98, R104, R127) -/

/-- Whether operand B of an operation is decoded with a KR4 marker among its elements (R104). -/
def State.readsMarker (s : State) (n : Nat) (o : OpFlight) : Bool :=
  let d := o.desc
  let g := o.rgn (Op.regB d)
  NumFmt.ofCode (Op.fmtB d) == some .kr4 &&
    match o.kind with
    | .gemm => anyBelow (Gemm.cols d (o.site n)) (fun j => s.hasMarker n g (Gemm.offB d + j * Gemm.strideB d) (Gemm.k d))
    | .conv2d => anyBelow (Conv.cout d (o.site n)) (fun j =>
        s.hasMarker n g (Gemm.offB d + j * Conv.strideB d) (Conv.k d (convWindow d)))
    | _ => false

/-- The subcode of POISON_CONSUMED that an operation's operands raise on core `n`; 0 where none is poisoned. -/
def State.opPoison (s : State) (n : Nat) (o : OpFlight) : Nat :=
  let reads := if o.kind = .scan then scanReads o.desc else opReads (o.site n) o.desc o.kind
  let src := reads.foldl (fun p r => if p ≠ 0 then p else s.rgnPoison n (o.rgn r.1) r.2.1 r.2.2) 0
  let src := if src = 0 ∧ o.kind = .scan then s.scanStatePoison n o else src
  if src ≠ 0 then poisonSub src else if s.readsMarker n o then 3 else 0

/-! ### Checks of a run -/

/-- A core's check result among those that a verdict brings; none named: every check passes. -/
def resultOf (res : List CheckResult) (n : Nat) : CheckResult :=
  (res.find? (·.core == n)).getD ⟨n, [], [], false, false, none⟩

/-- Whether an operation's injected outcome follows from its operands exactly: GEMM with integer accumulators. -/
def exactInj (o : OpFlight) : Bool :=
  o.kind == .gemm && (match NumFmt.ofCode (Op.fmtA o.desc) with | some f => pairInt f | none => false)

/-- The INT32 accumulator at local row `i` and column `j` of a member; 0 outside its outputs. -/
def gemmInt (s : State) (n : Nat) (o : OpFlight) (i j : Nat) : Int :=
  if i < Gemm.rows o.desc (o.site n) ∧ j < Gemm.cols o.desc (o.site n) then
    match gemmAcc s n o i j 0 with
    | .int x => x
    | .flt _ => 0
  else 0

/-- The change that inverting bit 20 makes. -/
def flipDelta (i : Int) : Int := flip20 i - i

/-- The failing checks of tile `(ti, tj)` of an integer GEMM whose logical cell `(r, c)` is corrupted (R528, R529): row
checks, column checks, corner. -/
def tileHit (s : State) (n : Nat) (o : OpFlight) (r c ti tj : Nat) : Bool × Bool × Bool :=
  let v : Nat → Nat → Int := fun i j => gemmInt s n o (64 * ti + i) (64 * tj + j)
  let rowSum : Nat → Int := fun i => sumBelow 64 (fun j => v i j)
  let colSum : Nat → Int := fun j => sumBelow 64 (fun i => v i j)
  let off : Int → Bool := fun d => !sumPassesInt d 0
  if r < 16 ∧ c < 16 then
    (anyBelow 4 (fun i => off (sumBelow 4 (fun j => flipDelta (v (4 * r + i) (4 * c + j))))),
     anyBelow 4 (fun j => off (sumBelow 4 (fun i => flipDelta (v (4 * r + i) (4 * c + j))))), false)
  else if r < 16 then
    (true, false, off (sumBelow 4 (fun i => flipDelta (rowSum (4 * r + i)))))
  else if c < 16 then
    (false, true, off (sumBelow 4 (fun j => flipDelta (colSum (4 * c + j)))))
  else (false, false, true)

/-- The check result that an injection adds to a run (R528): the first failing tile ends the run (R83). -/
def injResult (s : State) (n : Nat) (o : OpFlight) : CheckResult :=
  let none' : CheckResult := ⟨n, [], [], false, false, none⟩
  match o.inj, injCell s n o with
  | some (pr, pc), some (r, c) =>
    if !exactInj o then none'
    else
      let tj := ceilDiv (Gemm.cols o.desc (o.site n)) 64
      let ti := ceilDiv (Gemm.rows o.desc (o.site n)) 64
      let hit : Nat → Bool × Bool × Bool := fun t => tileHit s n o r c (t / tj) (t % tj)
      match leastBelow (ti * tj) (fun t => (hit t).1 || (hit t).2.1 || (hit t).2.2) with
      | none => none'
      | some t => ⟨n, if (hit t).1 then [pr] else [], if (hit t).2.1 then [pc] else [], (hit t).2.2, false, none⟩
  | _, _ => none'

/-- All that a core's checks found: what the verdict brings and what an injection causes. -/
def State.checkOf (s : State) (res : List CheckResult) (n : Nat) (o : OpFlight) : CheckResult :=
  let a := resultOf res n
  let b := injResult s n o
  { a with rows := a.rows ++ b.rows, cols := a.cols ++ b.cols, corner := a.corner || b.corner }

/-- The class of a member's failing tile (R529). -/
def State.locOf (s : State) (n : Nat) (r : CheckResult) : Loc :=
  classify r.rows r.cols r.corner (servedBy (s.fld (R.ARR_SPARE_MAP n) F.ARR_SPARE_MAP_ROW_REPLACED) 16)
    (servedBy (s.fld (R.ARR_SPARE_MAP n) F.ARR_SPARE_MAP_COL_REPLACED) 16)

/-! ### Spares (R89, R90, R95) -/

def State.rowSpareFree (s : State) (n : Nat) : Bool := s.fld (R.ARR_SPARE_MAP n) F.ARR_SPARE_MAP_ROW_REPLACED == 0x1F
def State.colSpareFree (s : State) (n : Nat) : Bool := s.fld (R.ARR_SPARE_MAP n) F.ARR_SPARE_MAP_COL_REPLACED == 0x1F

/-- The spare that covers a localised failure (R89): the row (true) or column and its physical index. -/
def State.spareFor (s : State) (n : Nat) (l : Loc) : Option (Nat × Bool) :=
  match l.kind with
  | 1 => if s.rowSpareFree n then some (l.row, true) else if s.colSpareFree n then some (l.col, false) else none
  | 2 => if s.rowSpareFree n then some (l.row, true) else none
  | 3 => if s.colSpareFree n then some (l.col, false) else none
  | _ => none

/-- A spare swap of any kind reported by REL (R421, R428). -/
def relSpare (kind n sub arg : Nat) (s : State) : State :=
  logEntry { cls := LogCls.spareSwap, kind := kind, unit := n, subunit := sub, arg0 := arg }
    (errEvent Pg.rel0 E.rel0_SPARE_USED (s.count Pg.rel0 0 1))

/-- The spare row or column brought in for a physical index (R89, R95). -/
def bringSpare (n : Nat) (q : Nat × Bool) (s : State) : State :=
  let f := if q.2 then F.ARR_SPARE_MAP_ROW_REPLACED else F.ARR_SPARE_MAP_COL_REPLACED
  let s1 := errEvent (Pg.arr0 n) E.arr0_SWAP_DONE ((s.setFld (R.ARR_SPARE_MAP n) f q.1).count (Pg.arr0 n) 5 1)
  relSpare (if q.2 then LogKind.row else LogKind.col) n q.1 (q.1 + 17 * 2 ^ 32)
    (s1.setFld (R.REL_CORE n) (if q.2 then F.REL_CORE_ROW_USED else F.REL_CORE_COL_USED) 1)

/-- The non-zero wear counts of a core as words of a log entry (R421): the count below, the index above it, rows from 0 and
columns from 32 (log entry 37). -/
def State.wearWords (s : State) (n : Nat) : List Word :=
  let word : Nat → Nat → List Word := fun a i =>
    let c := s.fld a F.ARR_WEAR_ROW_COUNT
    if c = 0 then [] else [BitVec.ofNat 32 (c + 65536 * i)]
  (List.range 18).flatMap (fun i => word (R.ARR_WEAR_ROW n i) i)
    ++ (List.range 18).flatMap (fun i => word (R.ARR_WEAR_COL n i) (32 + i))

def wearSnapshotEntry (n : Nat) (s : State) : State :=
  logEntry { cls := LogCls.wear, kind := LogKind.core, unit := n, arg := s.wearWords n } s

/-- One wear count raised by one; at the threshold the spare becomes due in reserve mode (R90). -/
def wearOne (n : Nat) (q : Nat × Bool) (s : State) : State :=
  let a := if q.2 then R.ARR_WEAR_ROW n q.1 else R.ARR_WEAR_COL n q.1
  let s1 := s.satFld a ⟨15, 0⟩ 1
  let thr := s1.fld (R.ARR_WEAR_THR n) F.ARR_WEAR_THR_THR
  if s1.recs.reserve ∧ thr ≠ 0 ∧ s1.fld a ⟨15, 0⟩ = thr then
    let s2 := errEvent (Pg.arr0 n) E.arr0_WEAR_THR s1
    let s3 := logEntry { cls := LogCls.threshold, kind := if q.2 then LogKind.row else LogKind.col, unit := n,
                         subunit := q.1, arg0 := thr } s2
    (wearSnapshotEntry n s3).modCore n (fun c => { c with spareDue := c.spareDue ++ [q] })
  else s1

/-- A spare that is due is brought in at a drained boundary, if it is unused and the row or column not replaced (R90). -/
def wearSwap (n : Nat) (s : State) : State :=
  if s.busy n ∨ !s.domOn n then s
  else
    match (s.core n).spareDue with
    | [] => s
    | q :: qs =>
      let s1 := s.modCore n (fun c => { c with spareDue := qs })
      if q.1 ≤ 16 ∧ (if q.2 then s.rowSpareFree n else s.colSpareFree n) then bringSpare n q s1 else s1

/-! ### Commit (R82, R84) -/

/-- The result of a passing run on one core. A run that an injection corrupts without failing its checks leaves free
outputs, but for integer GEMMs, whose corrupted outputs are computed (R528). -/
def memberResult (s : State) (n : Nat) (o : OpFlight) : OpResult :=
  let r := if o.kind = .scan then scanResult s n o else opResult s n o
  if (injCell s n o).isSome && !exactInj o then
    { r with outs := r.outs.map (fun q => (q.1, q.2.1, q.2.2.map (fun w =>
        (w.1, mkRow (fun b => BitVec.ofNat 8 (Config.freeNat (s.free + r.drew + 512 * w.1 + b))))))),
             drew := r.drew + 512 * ((r.outs.map (·.2.1)).foldl (· + ·) 0) }
  else r

/-- The rows of one output region written after HEAD, and HEAD advanced over them (R78, R130). -/
def commitOut (n : Nat) (q : Nat × Nat × List (Nat × List Byte)) (s : State) : State :=
  let g := s.rgn n q.1
  advanceHead n q.1 q.2.1 (q.2.2.foldl (fun t w => t.writeRow n (g.rowHead w.1) w.2 0) s)

/-- The history of R405: the last 128 vector-using operations that committed. -/
def pushVec (x tag : Nat) (l : List (Nat × Nat)) : List (Nat × Nat) := (l ++ [(x, tag)]).drop (l.length + 1 - 128)

/-- Free amounts charged to a context and its tenant in class `k` of R363. -/
def chargeFree (k x : Nat) (s : State) : State :=
  let v := Config.freeNat s.free
  (chargeAcc (4 + k) x v s).drew 1

/-- One member's operation commits. -/
def commitMember (n : Nat) (s : State) : State :=
  match (s.core n).ops with
  | [] => s
  | o :: rest =>
    let d := o.desc
    let r := memberResult s n o
    let s1 := (r.outs.foldl (fun t q => commitOut n q t) s).drew r.drew
    let rel := if o.kind = .scan then scanReleases d else opReleases (o.site n) d o.kind
    let s2 := rel.foldl (fun t q => releaseTo n q.1 (o.rgn q.1) q.2 t) s1
    let s3 := countOutputs n r.out (statCommit n d r.inp r.out s2)
    let s4 := s3.modCore n (fun c => { c with
      ops := rest, lfsr := iter r.out.draws (fun _ w => lfsrStep w) c.lfsr,
      vecOps := if usesVector d o.kind then pushVec o.ctx o.tag c.vecOps else c.vecOps })
    let s5 := s4.count (Pg.arr0 n) 0 1
    let s6 := if o.kind = .gemm ∧ o.run = 1 then s5.count (Pg.arr0 n) 1 (gemmCycles d) else countFree (cntKey (Pg.arr0 n) 1) s5
    let s7 := countFree (cntKey (Pg.spd3 n) 1) (countFree (cntKey (Pg.spd3 n) 0) s6)
    let s8 := chargeFree 0 o.ctx s7
    let s9 := if usesVector d o.kind then chargeFree 1 o.ctx s8 else s8
    let s10 := if o.kind = .scan then scanCommit n o s9 else s9
    let s11 := (o.failRows.eraseDups.map (fun i => (i, true)) ++ o.failCols.eraseDups.map (fun j => (j, false))).foldl
      (fun t q => wearOne n q t) s10
    if Op.sigEn d then semAdd n o.ctx (Op.sigSem d) 1 s11 else s11

/-- The operation at the head of a core's operations in flight. -/
def State.headOp (s : State) (n : Nat) : Option OpFlight := (s.core n).ops.head?

/-- The state with the head operation of a core changed. -/
def modHead (n : Nat) (f : OpFlight → OpFlight) (s : State) : State :=
  s.modCore n (fun c => { c with ops := modNth c.ops 0 f })

/-- Whether every member has a run of this operation at its head. -/
def State.together (s : State) (o : OpFlight) (p : OpFlight → Bool) : Bool :=
  o.gang.all (fun m => match s.headOp m with
    | some q => q.gang == o.gang && q.tag == o.tag && q.kind == o.kind && p q
    | none => false)

/-- A squashed successor at the head of every member is issued again: checked and latched afresh (R88). -/
def reissue (n : Nat) (s : State) : State :=
  match s.headOp n with
  | none => s
  | some o =>
    if o.run = 0 ∧ s.together o (fun q => q.run == 0) then
      let chk : Nat → Chk := fun m => opChk s (s.siteOf m o.ctx o.desc) o.desc o.kind
      match o.gang.flatMap (fun m => (chk m).faults) with
      | [] => o.gang.foldl (fun t m =>
          let q := mkOp t (t.siteOf m o.ctx o.desc) o.desc o.kind o.gang
          coreStatus m (disarm m q (modHead m (fun _ => q) t))) s
      | fs => ctxFaults o.ctx (some n) o.gang o.tag fs (o.gang.foldl (fun t m => countChk m (chk m) t) s)
    else s

/-- The operation commits on every member in one cycle (R16, R82), after which squashed successors are issued again. -/
def commitGang (g : List Nat) (s : State) : State :=
  let s1 := g.foldl (fun t m => commitMember m t) s
  let s2 := g.foldl (fun t m => reissue m t) s1
  g.foldl (fun t m => settleCore m t) s2

/-! ### A failing verdict (R88, R89) -/

/-- The successors of members abandoned (R88), on every member of their own gangs. -/
def squashAfter (g : List Nat) (s : State) : State :=
  g.foldl (fun t m =>
    match (t.core m).ops.drop 1 with
    | o :: _ =>
      if o.run = 0 then t
      else o.gang.foldl (fun u k =>
        if (u.core k).ops.any (fun q => q.gang == o.gang && q.tag == o.tag && q.run != 0) then
          (u.modCore k (fun c => { c with ops := c.ops.map (fun q =>
            if q.gang == o.gang && q.tag == o.tag then { q with run := 0 } else q) })).count (Pg.arr0 k) 4 1
        else u) t
    | [] => t) s

/-- What one member's failing checks record. -/
def recordFail (n : Nat) (r : CheckResult) (s : State) : State :=
  match s.headOp n with
  | none => s
  | some o =>
    let l := if r.array then s.locOf n r else noLoc
    let s1 := errEvent (Pg.arr0 n) E.arr0_CHK_MISMATCH s
    let s2 := if r.array then
        s1.setReg (R.ARR_CHK_LOG n) (BitVec.ofNat 32 (l.row + 32 * l.col + 1024 * l.kind
          + (if l.kind = 0 then 4096 else 0) + 8192 * o.run + 65536 * o.tag))
      else s1
    let s3 := if r.shadow then s2.count (Pg.vec n) 3 1 else s2
    let s4 := match r.parity with
      | some p => parityError n p s3
      | none => s3
    modHead n (fun q => { q with
      loc := l, parity := r.parity, shadow := r.shadow,
      failRows := if l.kind = 1 ∨ l.kind = 2 then q.failRows ++ [l.row] else q.failRows,
      failCols := if l.kind = 1 ∨ l.kind = 3 then q.failCols ++ [l.col] else q.failCols }) s4

/-- The next run of an operation starts on every member (R88). -/
def rerunAll (g : List Nat) (run : Nat) (s : State) : State :=
  g.foldl (fun t m =>
    match t.headOp m with
    | none => t
    | some o =>
      let q := { o with run := run, swapping := false, forced := false, inj := armed t m o.desc o.kind }
      coreStatus m (disarm m q (modHead m (fun _ => q) t))) s

/-- CHECKSUM_PERSIST (R89, R94). -/
def checksumPersist (n : Nat) (o : OpFlight) (sub : Nat) (s : State) : State :=
  ctxFault o.ctx (some n) o.gang Flt.checksum sub o.tag (errEvent (Pg.arr0 n) E.arr0_CHK_PERSIST s)

/-- A third failing run that no swap mends on core `n` (R89). -/
def persist (n : Nat) (o : OpFlight) (r : CheckResult) (l : Loc) (s : State) : State :=
  let due := s.spareFor n l
  let exhausted := s.recs.reserve && r.array && l.kind != 0 && due.isNone
  let s1 := if exhausted then
      (errEvent (Pg.arr0 n) E.arr0_SPARE_EXHAUSTED s).modCore n (fun c => { c with retireWhy := 1 }) else s
  let s2 := match r.parity with
    | some p => parityPersist n o.ctx p o.tag o.gang s1
    | none => checksumPersist n o 1 s1
  match due with
  | some q => if !s.recs.reserve then s2.modCore n (fun c => { c with spareDue := c.spareDue ++ [q] }) else s2
  | none => s2

/-- A run that a lock loss forces to fail is run again without counting (R469). -/
def forcedRerun (o : OpFlight) (s : State) : State :=
  rerunAll o.gang o.run (squashAfter o.gang (o.gang.foldl (fun t m =>
    (errEvent (Pg.arr0 m) E.arr0_CHK_MISMATCH t)) (s.count Pg.clk 3 1)))

/-- A verdict fails on the members `bads` (R88, R89). -/
def failVerdict (o : OpFlight) (bads : List (Nat × CheckResult)) (s : State) : State :=
  let s1 := squashAfter o.gang (bads.foldl (fun t b => recordFail b.1 b.2 t) s)
  if o.run < 3 then
    let s2 := bads.foldl (fun t b =>
      let t1 := if b.2.array || b.2.shadow then t.count (Pg.arr0 b.1) 2 1 else t
      if b.2.parity.isSome then t1.count (Pg.arr0 b.1) 3 1 else t1) s1
    rerunAll o.gang (o.run + 1) s2
  else
    match bads with
    | [] => s1
    | (m, _) :: _ =>
      if o.run ≠ 3 then checksumPersist m o 1 s1
      else
        match bads.find? (fun b => b.2.shadow) with
        | some (k, _) => checksumPersist k o 2 s1
        | none =>
          let stuck : Nat × CheckResult → Bool := fun b =>
            !s1.recs.reserve || !b.2.array || (s1.spareFor b.1 (s1.locOf b.1 b.2)).isNone
          match bads.find? stuck with
          | some (k, r) => persist k o r (s1.locOf k r) s1
          | none => bads.foldl (fun t b => coreStatus b.1 (modHead b.1 (fun q => { q with swapping := true }) t)) s1

/-- An operation's verdict (R83, R85 to R90, R98). Core `n` is a member; `res` brings the results of the members' checks,
each member that it does not name passing them. -/
def verdict (n : Nat) (res : List CheckResult) (s : State) : State :=
  match s.headOp n with
  | none => s
  | some o =>
    if !s.together o (fun q => q.run != 0 && q.run == o.run) || o.gang.any (fun m =>
        ((s.headOp m).map (·.swapping)).getD false) then s
    else
      match o.gang.find? (fun m => match s.headOp m with | some q => s.opPoison m q != 0 | none => false) with
      | some m => ctxFault o.ctx (some m) o.gang Flt.poison (s.opPoison m ((s.headOp m).getD o)) o.tag s
      | none =>
        if o.gang.any (fun m => ((s.headOp m).map (·.forced)).getD false) then forcedRerun o s
        else
          let bads := (o.gang.map (fun m => (m, s.checkOf res m ((s.headOp m).getD o)))).filter (fun b => b.2.fails)
          match bads with
          | [] => commitGang o.gang s
          | bs => failVerdict o bs s

/-- A spare swap completes on core `n` (R89); once none of the gang swaps any more, every member runs a fourth time. -/
def spareSwapDone (n : Nat) (s : State) : State :=
  match s.headOp n with
  | none => s
  | some o =>
    if !o.swapping then s
    else
      let s1 := match s.spareFor n o.loc with
        | some q => bringSpare n q s
        | none => s
      let s2 := coreStatus n (modHead n (fun q => { q with swapping := false }) s1)
      if o.gang.any (fun m => ((s2.headOp m).map (·.swapping)).getD false) then s2 else rerunAll o.gang 4 s2

/-- A run exceeds ARR_WDOG on core `n` (R93, R98). Swaps are excluded. -/
def arrWatchdog (n : Nat) (s : State) : State :=
  match (s.core n).ops.find? (fun o => o.run != 0 && !o.swapping) with
  | none => s
  | some o =>
    if s.fld (R.ARR_WDOG n) F.ARR_WDOG_LIMIT = 0 then s
    else ctxFault o.ctx (some n) o.gang Flt.watchdog 0 o.tag (errEvent (Pg.arr0 n) E.arr0_WDOG s)

/-! ### Bank swaps (R121, R126, R128, R147) -/

/-- The logical bank that a physical bank serves. -/
def State.logicalOf (s : State) (n p : Nat) : Option Nat :=
  leastBelow 96 (fun b => s.fld (R.SPD_BANK_MAP n b) F.SPD_BANK_MAP_PHYS == p)

/-- The lowest free spare physical bank: none that serves a logical bank and none retired. -/
def State.freeBank (s : State) (n : Nat) : Option Nat :=
  leastBelow 100 (fun p => (s.logicalOf n p).isNone && !(s.core n).bankGone.contains p)

/-- A core with nothing in flight whose sequencer stands still. -/
def State.drainedCore (s : State) (n : Nat) : Bool :=
  !s.busy n && s.seqState n != Seq.running && s.seqState n != Seq.waiting

/-- In reserve mode a bank that is due is swapped at the next drained boundary (R128). -/
def bankSwap (n : Nat) (s : State) : State :=
  let c := s.core n
  if !s.recs.reserve ∨ s.busy n ∨ !s.domOn n ∨ c.bankSwap.isSome then s
  else
    match c.bankDue with
    | [] => s
    | p :: ps =>
      let s1 := s.modCore n (fun c => { c with bankDue := ps })
      match s.logicalOf n p with
      | none => s1
      | some b =>
        match s.freeBank n with
        | none => (errEvent (Pg.spd3 n) E.spd3_BANK_SPARE_EXHAUSTED s1).modCore n (fun c => { c with retireWhy := 2 })
        | some q => s1.modCore n (fun c => { c with bankSwap := some ⟨b, q⟩ })

/-- SPD_BANK_SWAP.GO (R128, R147). -/
def bankSwapGo (n b : Nat) (s : State) : State :=
  if !s.drainedCore n ∨ (s.core n).bankSwap.isSome then errEvent (Pg.spd3 n) E.spd3_SWAP_REFUSED s
  else
    match s.freeBank n with
    | none => errEvent (Pg.spd3 n) E.spd3_SWAP_REFUSED s
    | some q => s.modCore n (fun c => { c with bankSwap := some ⟨b, q⟩ })

/-- The logical row of line `l` of logical bank `b` (R121). -/
def lineRow (b l : Nat) : Nat := b / 4 * 2048 + 4 * l + b % 4

/-- A line whose three reads all failed during the copy (R126): its region's owner faults, and a line in no region reads
as zeros. -/
def badLine (n b p l : Nat) (s : State) : State :=
  let row := lineRow b l
  let s1 := iter 3 (fun _ t => parityError n p t) s
  let own := leastBelow 64 (fun r => (s.rgn n r).en && decide ((s.rgn n r).base ≤ row ∧ row < (s.rgn n r).base + (s.rgn n r).size))
  match own with
  | some r => parityPersist n (s.rgn n r).ctx p 0 [] s1
  | none => s1.writeRow n row (List.replicate 512 0) 0

/-- A bank swap completes (R128). -/
def bankSwapDone (n : Nat) (badLines : List Nat) (s : State) : State :=
  match (s.core n).bankSwap with
  | none => s
  | some w =>
    let p := s.fld (R.SPD_BANK_MAP n w.logical) F.SPD_BANK_MAP_PHYS
    let s1 := badLines.eraseDups.foldl (fun t l => badLine n w.logical p l t) s
    let s2 := s1.setFld (R.SPD_BANK_MAP n w.logical) F.SPD_BANK_MAP_PHYS w.phys
    let s3 := s2.modCore n (fun c => { c with bankSwap := none, bankGone := c.bankGone ++ [p],
                                              bankDue := c.bankDue.filter (fun q => q != p) })
    let s4 := errEvent (Pg.spd3 n) E.spd3_BANK_SWAP_DONE (s3.count (Pg.spd3 n) 3 1)
    let s5 := s4.setFld (R.REL_CORE n) F.REL_CORE_BANKS_FREE (s4.fld (R.REL_CORE n) F.REL_CORE_BANKS_FREE - 1)
    settleCore n (relSpare LogKind.bank n p (p + w.phys * 2 ^ 32) s5)

/-! ### Commands of a core's pages -/

/-- ARR_FAULT_INJ (R93, R528). -/
def armInjection (n : Nat) (v : Word) (s : State) : State :=
  s.modCore n (fun c => { c with injRow := wordFld v F.ARR_FAULT_INJ_ROW, injCol := wordFld v F.ARR_FAULT_INJ_COL,
                                 injMode := wordFld v F.ARR_FAULT_INJ_MODE })

/-- SPD_RELEASE (R130, R151). -/
def spdRelease (n : Nat) (v : Word) (s : State) : State :=
  releaseRows n (wordFld v F.SPD_RELEASE_REGION) (wordFld v F.SPD_RELEASE_ROWS) s

/-- SPD_BANK_SWAP (R147). -/
def spdBankSwap (n : Nat) (v : Word) (s : State) : State :=
  if wordFld v F.SPD_BANK_SWAP_GO = 1 then bankSwapGo n (wordFld v F.SPD_BANK_SWAP_LOGICAL) s else s

/-- A free destination row for a channel that waits (R142). -/
def roomAvailable (n c : Nat) (s : State) : State :=
  let h := s.chan n c
  match h.cur with
  | none => s
  | some t =>
    if h.room && s.hasRoom n t h.moved then
      let s1 := countFree (cntKey (Pg.spd4 n) 4) (chanStatus n c 0 (s.setChan n c { h with room := false }))
      moveRows n c (t.total + 1) s1
    else s

end Sys2Proof.Machine
end

