-- ==== Sys2Proof/Machine/Tiers.lean ====
section
/-! DEFINITION. Machine/Tiers.lean: DA accesses, sector tags and poison, pages, migration and patrol (R27, R212 to R237,
R407, R408, R413, R530, R531). -/

namespace Sys2Proof.Machine

/-! ### Pages and keys -/

def State.page (s : State) (p : Nat) : PageRec := Tab.get s.mt.pages {} p
def State.setPage (s : State) (p : Nat) (r : PageRec) : State := { s with mt := { s.mt with pages := Tab.set s.mt.pages p r } }
def State.modMt (s : State) (f : Mt → Mt) : State := { s with mt := f s.mt }

/-- P: pages below it are backed (R214). -/
def State.backed (s : State) (p : Nat) : Bool := decide (p < s.recs.t0 + s.recs.t1)

def pageOf (da : Nat) : Nat := da / 2 ^ 21
def granuleOf (da : Nat) : Nat := da / 4096

/-- CUR of a tenant's keys (R449). -/
def State.curEpoch (s : State) (t : Nat) : Nat := s.fld (R.SEC_KEY t) F.SEC_KEY_CUR

/-- The epoch of the granule of a DA (R451). -/
def State.granuleEpoch (s : State) (da : Nat) : Nat :=
  let p := pageOf da
  let r := s.page p
  if s.sec.walkPage = some p ∧ granuleOf da % 512 < s.sec.walkGran then s.curEpoch (r.owner.getD 0) else r.epoch

/-- The generation of the key in a slot. -/
def State.keyGen (s : State) (slot : Nat) : Nat := Tab.get s.sec.gens 0 slot

/-- The clean tag of a sector written now for an owner (R216, R217). -/
def State.tagNow (s : State) (owner da : Nat) : SecTag :=
  let e := s.granuleEpoch da
  ⟨owner, e, s.keyGen (2 * owner + e), 0⟩

/-- The tag that a sector holds. -/
def State.tagAt (s : State) (da : Nat) : Option SecTag :=
  match Tab.find s.mt.tags (da / 512) with
  | some t => some t
  | none => (s.page (pageOf da)).fill

/-- The power domain that a sector's memory lies in (R212, R472). -/
def State.sectorDomain (s : State) (da : Nat) : Nat :=
  if (s.page (pageOf da)).tier = 1 then 20 else 18 + da / 512 % (32 * s.recs.stackCnt) / 32

/-! ### Stage 1 (R231 to R233) -/

/-- Whether an entry of a range set covers the bytes `da` to `da + n − 1` with the right. -/
def State.rangeEntry (s : State) (set e da n : Nat) (write : Bool) : Bool :=
  let b := s.reg (R.MT_RNG_BASE_LO (set / 8) (set % 8) e)
  let lo := wordFld b F.MT_RNG_BASE_LO_BASE_LO * 4096
    + s.fld (R.MT_RNG_BASE_HI (set / 8) (set % 8) e) F.MT_RNG_BASE_HI_BASE_HI * 2 ^ 32
  let hi := s.fld (R.MT_RNG_LIMIT_LO (set / 8) (set % 8) e) F.MT_RNG_LIMIT_LO_LIMIT_LO * 4096
    + s.fld (R.MT_RNG_LIMIT_HI (set / 8) (set % 8) e) F.MT_RNG_LIMIT_HI_LIMIT_HI * 2 ^ 32 + 4095
  wordFld b F.MT_RNG_BASE_LO_VALID == 1
    && wordFld b (if write then F.MT_RNG_BASE_LO_W else F.MT_RNG_BASE_LO_R) == 1 && decide (lo ≤ da ∧ da + n ≤ hi + 1)

/-- Stage 1 for a range set and its tenant (R232). -/
def State.stage1 (s : State) (set tenant da n : Nat) (write : Bool) : Bool :=
  anyBelow 16 (fun e => s.rangeEntry set e da n write) && s.backed (pageOf da)
    && (s.page (pageOf da)).owner == some tenant

/-- A refusal at stage 1 (R232, R235). -/
def countRefusal (s : State) : State := s.count Pg.mt1 7 1

/-! ### Age (R226, R227) -/

/-- DTIME ticks between two increments of a page's age: 1,024 FCLK cycles rounded up (log entry 11). -/
def ageGap : Nat := 25

/-- An access counts towards its page's age, and may queue the page for promotion. -/
def touchPage (p : Nat) (s : State) : State :=
  let r := s.page p
  let due := match r.lastInc with
    | none => true
    | some t => decide (t + ageGap ≤ s.dtime)
  if !due then s
  else
    let age := min 255 (r.age + s.fld R.MT_AGE_CFG F.MT_AGE_CFG_INC)
    let rises := decide (r.age < age)
    let join := rises && r.tier == 1 && r.place == 0 && decide (s.fld R.MT_AGE_CFG F.MT_AGE_CFG_PROMOTE_THR ≤ age)
      && !r.queued && decide (s.mt.promo.length < 64)
    let s1 := s.setPage p { r with age := age, lastInc := some s.dtime, queued := r.queued || join }
    if join then s1.modMt (fun m => { m with promo := m.promo ++ [p] }) else s1

/-! ### Sectors -/

/-- A sector delivered or written poisoned (R235, R407, R421). -/
def poisonMade (da owner src : Nat) (s : State) : State :=
  logEntry { cls := LogCls.poisonMade, arg0 := da, arg := [BitVec.ofNat 32 owner, BitVec.ofNat 32 src] }
    (errEvent Pg.mt1 E.mt1_POISON_MADE s)

/-- A whole sector written under the current epoch, with the variant of a poison source (R219, R223). -/
def storeSector (owner da src : Nat) (bs : List Byte) (s : State) : State :=
  let base := da / 512 * 512
  let s1 := { s with da := Memory.writeList s.da base (bs.take 512) }
  let s2 := s1.modMt (fun m => { m with tags := Tab.set m.tags (base / 512) { s.tagNow owner base with poison := src } })
  if src = 0 then s2 else poisonMade base owner src s2

/-- What a sector read delivers for an owner (R219, R221): the bytes, the poison source (4: an integrity failure met now)
and the state. Bytes of a failed read are free. -/
def readSector (owner da : Nat) (o : SectorRead) (s : State) : List Byte × Nat × State :=
  let base := da / 512 * 512
  let good := match s.tagAt base with
    | some t => t.owner == owner && t.epoch == s.granuleEpoch base && t.gen == s.keyGen (2 * owner + t.epoch)
    | none => false
  let variant := match s.tagAt base with | some t => t.poison | none => 0
  let tier := (s.page (pageOf base)).tier
  let free := (List.range 512).map (fun b => BitVec.ofNat 8 (Config.freeNat (s.free + b)))
  let ecc := cntKey Pg.mt1 2
  let integ := cntKey Pg.mt1 3
  let fails (src : Nat) (t : State) : List Byte × Nat × State :=
    (free, src, poisonMade base owner (if src = 4 then 2 else src) ((t.drew 512).count Pg.mt1 5 1))
  match o with
  | .eccFail => if tier = 0 then fails 1 (countFree ecc s) else fails 4 (countFree integ s)
  | .integFail => fails 4 (countFree integ s)
  | o =>
    let s1 := match o with
      | .eccRetried => if tier = 0 then countFree ecc s else s
      | .integRetried => countFree integ s
      | _ => s
    if !good then fails 4 (countFree integ s1)
    else
      let bs := Memory.readList s.da base 512
      if variant = 0 then (bs, 0, s1) else (bs, variant, poisonMade base owner variant (s1.count Pg.mt1 5 1))

/-- The row poison source of a delivery (R222). -/
def rowSrc (src : Nat) : Nat := if src = 4 then 2 else src

/-! ### Runs of bytes, for agents whose accesses the model makes in one step (log entry 12) -/

/-- Bytes merged into a sector from address `da` on. -/
def mergeSector (old : List Byte) (base da : Nat) (bs : List Byte) : List Byte :=
  (List.range 512).map (fun b =>
    if da ≤ base + b ∧ base + b < da + bs.length then bs.getD (base + b - da) 0 else old.getD b 0)

/-- Sectors of a run of `k` sectors from `base` written for a set and tenant, up to the first that stage 1 refuses. -/
def writeRun (set tenant da src : Nat) (bs : List Byte) : Nat → Nat → State → Bool × State
  | 0, _, s => (true, s)
  | k + 1, base, s =>
    if !s.stage1 set tenant base 512 true then (false, countRefusal s)
    else
      let old := Memory.readList s.da base 512
      let s1 := touchPage (pageOf base) s
      writeRun set tenant da src bs k (base + 512) (storeSector tenant base src (mergeSector old base da bs) s1)

/-- Bytes written to DA by an engine that acts for a context (R223, R231): whether no sector was refused. -/
def daWrite (x da src : Nat) (bs : List Byte) (s : State) : Bool × State :=
  writeRun x (tenantOf x) da src bs (ceilDiv (da % 512 + bs.length) 512) (da / 512 * 512) s

/-- Sectors read for a set and tenant: bytes, first poison source, whether none was refused. -/
def readRun (set tenant : Nat) : Nat → Nat → State → List Byte × Nat × Bool × State
  | 0, _, s => ([], 0, true, s)
  | k + 1, base, s =>
    if !s.stage1 set tenant base 512 false then ([], 0, false, countRefusal s)
    else
      let q := readSector tenant base .clean (touchPage (pageOf base) s)
      let r := readRun set tenant k (base + 512) q.2.2
      (q.1 ++ r.1, if q.2.1 ≠ 0 then rowSrc q.2.1 else r.2.1, r.2.2.1, r.2.2.2)

/-- `n` bytes of DA read by an engine for a context. -/
def daRead (x da n : Nat) (s : State) : List Byte × Nat × Bool × State :=
  let r := readRun x (tenantOf x) (ceilDiv (da % 512 + n) 512) (da / 512 * 512) s
  ((r.1.drop (da % 512)).take n, r.2)

/-- Bytes written by firmware or the security engine under the page owner's key (R231); an unowned page refuses them. -/
def fwWrite : Nat → List Byte → Nat → State → Bool × State
  | _, _, 0, s => (true, s)
  | da, bs, k + 1, s =>
    let base := da / 512 * 512
    match (s.page (pageOf base)).owner with
    | none => (false, countRefusal s)
    | some t =>
      let n := min bs.length (512 - da % 512)
      let old := Memory.readList s.da base 512
      fwWrite (base + 512) (bs.drop n) k
        (storeSector t base 0 (mergeSector old base da (bs.take n)) (touchPage (pageOf base) s))

/-- Words written by firmware from a DA on. -/
def fwWords (da : Nat) (ws : List Word) (s : State) : Bool × State :=
  let bs := ws.flatMap (fun w => leBytes 4 w.toNat)
  fwWrite da bs (ceilDiv (da % 512 + bs.length) 512) s

/-- Sectors read by firmware under the owners' keys. -/
def fwReadRun : Nat → Nat → State → List Byte × Nat × Bool × State
  | 0, _, s => ([], 0, true, s)
  | k + 1, base, s =>
    match (s.page (pageOf base)).owner with
    | none => ([], 0, false, countRefusal s)
    | some t =>
      let q := readSector t base .clean (touchPage (pageOf base) s)
      let r := fwReadRun k (base + 512) q.2.2
      (q.1 ++ r.1, if q.2.1 ≠ 0 then rowSrc q.2.1 else r.2.1, r.2.2.1, r.2.2.2)

/-- `n` bytes read by firmware. -/
def fwRead (da n : Nat) (s : State) : List Byte × Nat × Bool × State :=
  let r := fwReadRun (ceilDiv (da % 512 + n) 512) (da / 512 * 512) s
  ((r.1.drop (da % 512)).take n, r.2)

/-! ### Accesses in flight (R220, R223, R224, R530) -/

/-- An access waits for nothing but its memory: its page is in place, its domain on, and no earlier access to its
sector is outstanding. -/
def State.accReady (s : State) (k : Nat) : Bool :=
  match s.mt.accs[k]? with
  | none => false
  | some a => !(s.page (pageOf a.da)).moving && s.domOn (s.sectorDomain a.da)
      && !(s.mt.accs.take k).any (fun b => b.da / 512 == a.da / 512 && b.result.isNone)

/-- An access that passed stage 1 joins the others; its tier's domain is woken where it is not on (R19). -/
def joinAcc (a : TierAcc) (s : State) : State :=
  let s1 := (touchPage (pageOf a.da) s).modMt (fun m => { m with accs := m.accs ++ [a] })
  let d := s1.sectorDomain a.da
  if s1.domOn d then s1 else wakeDom d (match a.agent with | .chan _ _ => true | _ => false) s1

/-- The DA of row `i` of a transfer; none where its page-table entry is invalid. -/
def State.xferDa (s : State) (n : Nat) (t : DmaDesc) (i : Nat) : Option Nat :=
  match t.kind with
  | .pageFetch =>
    let e := s.ptEntry n (Sq.regPt t.desc) (Sq.page0 t.desc + i / Sq.pr t.desc)
    if e.1 then some (e.2 + 512 * (i % Sq.pr t.desc)) else none
  | .pageStore =>
    let e := s.ptEntry n (Sq.regPt t.desc) (Sq.page0 t.desc)
    let sr := Sq.storeRows t.desc
    let half := Sq.pr t.desc / 2
    if e.1 then some (e.2 + 512 * (if i < sr.2 then sr.1 + i else half + sr.1 + (i - sr.2))) else none
  | _ => some (Dma.rowDa t.desc i)

/-- Whether a page-table row that row `i` of a transfer needs is poisoned. -/
def State.ptPoison (s : State) (n : Nat) (t : DmaDesc) (i : Nat) : Nat :=
  match t.kind with
  | .pageFetch => s.rgnPoison n (s.rgn n (Sq.regPt t.desc)) ((Sq.page0 t.desc + i / Sq.pr t.desc) / 64) 1
  | .pageStore => s.rgnPoison n (s.rgn n (Sq.regPt t.desc)) (Sq.page0 t.desc / 64) 1
  | _ => 0

/-- Whether a transfer reads DA. -/
def DmaDesc.fromDa (t : DmaDesc) : Bool :=
  match t.kind with
  | .dma => Dma.dir t.desc == 0 || Dma.dir t.desc == 3
  | .pageFetch | .swapIn _ => true
  | _ => false

/-- An access of channel `c` of core `n` waits for a tier whose domain is not on: the channel stalls until it is (R19). -/
def State.tierStalled (s : State) (n c : Nat) : Bool :=
  s.mt.accs.any (fun a => a.agent == .chan n c && a.result.isNone && !s.domOn (s.sectorDomain a.da))

/-- The next request of channel `c` of core `n` reaches the tier controller (R27, R141, R530). -/
def chanAccess (n c : Nat) (s : State) : State :=
  let h := s.chan n c
  match h.cur with
  | none => s
  | some t =>
    let out := (s.mt.accs.filter (fun a => a.agent == .chan n c)).length
    if !(t.fromDa || t.toDa) || h.refused || decide (t.total ≤ h.requested) || decide (32 ≤ out) || !s.domOn n || s.tierStalled n c then s
    else if !s.stillOk n c t then dmaFault n t.ctx Flt.denied 0 (Op.tag t.desc) (countRange n s)
    else
      let i := h.requested
      if s.ptPoison n t i ≠ 0 then dmaFault n t.ctx Flt.poison (poisonSub (s.ptPoison n t i)) (Op.tag t.desc) s
      else
        match s.xferDa n t i with
        | none => dmaFault n t.ctx Flt.missing 0 (Op.tag t.desc) s
        | some da =>
          if !s.stage1 t.ctx (tenantOf t.ctx) da 512 t.toDa then
            dmaFault n t.ctx Flt.denied 0 (Op.tag t.desc) (countRefusal s)
          else
            let row := s.srcRow n h t i
            let a : TierAcc := { agent := .chan n c, owner := tenantOf t.ctx, da := da, row := i,
                                 write := if t.toDa then some (s.rowBytes n row) else none,
                                 poison := if t.toDa then s.rowTag n row else 0, result := none }
            let s1 := if t.toDa then s.count (Pg.spd3 n) 0 1 else s
            joinAcc a (s1.setChan n c { h with requested := i + 1 })

/-- A DA access reaches the tier controller (R27, R231). -/
def tierAccess (r : DaReq) (s : State) : State :=
  match r with
  | .chan n c => chanAccess n c s
  | .engine x da data =>
    if s.stage1 x (tenantOf x) da 512 data.isSome then
      joinAcc { agent := .engine x, owner := tenantOf x, da := da, row := 0, write := data, poison := 0, result := none } s
    else ctxFault x none [] Flt.denied 0 0 (countRefusal s)
  | .control iid da data =>
    match (s.page (pageOf da)).owner with
    | some t => joinAcc { agent := .control iid, owner := t, da := da, row := 0, write := data, poison := 0, result := none } s
    | none => countRefusal s

/-- A configuration word that stage 1 uses fails its parity check (R404). -/
def tierCfgFault (r : DaReq) (s : State) : State :=
  match r with
  | .chan n c =>
    match (s.chan n c).cur with
    | some t => cfgFault n t.ctx (Op.tag t.desc) s
    | none => s
  | .engine x _ _ => ctxFault x none [] Flt.parity 0xFE 0 (s.count Pg.rel3 2 1)
  | .control _ _ _ => logEntry { cls := LogCls.threshold, code := Flt.parity, sub := 0xFE } (s.count Pg.rel3 2 1)

/-! ### Landing (R130, R138, R141, R143) -/

/-- A row of a DIR 0x3 transfer written to instruction memory, 64 slots from IMEM_SLOT on. -/
def landImem (n : Nat) (t : DmaDesc) (i : Nat) (bs : List Byte) (s : State) : State :=
  iter 64 (fun k u => u.setSlot n (Dma.imemSlot t.desc + 64 * i + k)
    (BitVec.ofNat 64 (ofLeBytes ((bs.drop (8 * k)).take 8)))) s

/-- The delivered rows of a channel land in ascending order, as far as room allows (R142, R530). -/
def landReady (n c : Nat) : Nat → State → State
  | 0, s => s
  | k + 1, s =>
    let h := s.chan n c
    match h.cur, s.mt.accs.find? (fun a => a.agent == .chan n c && a.write.isNone && a.row == h.moved) with
    | some t, some a =>
      match a.result with
      | none => s
      | some (bs, src) =>
        let s0 := s.modMt (fun m => { m with accs := m.accs.filter (fun b => b != a) })
        if t.toImem then
          if src ≠ 0 then
            let code := if src = 4 then Flt.integrity else Flt.poison
            let s1 := if src = 4 then errEvent Pg.mt1 E.mt1_INTEG_FAIL s0 else s0
            dmaFault n t.ctx code (if src = 4 then 0 else poisonSub src) (Op.tag t.desc) s1
          else landReady n c k (rowMoved n c (countRow n t.ctx true (landImem n t a.row bs s0)))
        else if !s.stillOk n c t then dmaFault n t.ctx Flt.denied 0 (Op.tag t.desc) (countRange n s)
        else if s.hasRoom n t h.moved then landReady n c k (landRow n c bs (rowSrc src) s0)
        else waitForRoom n c s
    | _, _ => s

/-- The stall cycles of an access are not held in the model: what the counters of R225 gain is free (log entry 7). -/
def countStall (cause owner : Nat) (s : State) : State :=
  let v := Config.freeNat s.free
  ((s.count Pg.mt1 cause v).addCnt (R.MT_TSTALL_LO (owner % 16)) v).drew 1

/-- Access `k` returns its sector (R220, R221, R222). -/
def readDeliver (k : Nat) (o : SectorRead) (s : State) : State :=
  match s.mt.accs[k]? with
  | none => s
  | some a =>
    if a.write.isSome || a.result.isSome || !s.accReady k then s
    else
      let q := readSector a.owner a.da o s
      let drop : State → State := fun t => t.modMt (fun m => { m with accs := dropNth m.accs k })
      match a.agent with
      | .chan n c =>
        landReady n c 33 (q.2.2.modMt (fun m => { m with accs := modNth m.accs k (fun b => { b with result := some (q.1, q.2.1) }) }))
      | .engine _ => drop q.2.2
      | .control _ => drop (q.2.2.answers (BitVec.ofNat 32 (ofLeBytes (q.1.take 4))))
      | .gone => drop q.2.2

/-- Access `k`, a write, reaches the memory (R223, R531). -/
def writeDone (k : Nat) (s : State) : State :=
  match s.mt.accs[k]? with
  | none => s
  | some a =>
    match a.write with
    | none => s
    | some bs =>
      if !s.accReady k then s
      else
        let s1 := (storeSector a.owner a.da a.poison bs s).modMt (fun m => { m with accs := dropNth m.accs k })
        match a.agent with
        | .chan n c =>
          match (s1.chan n c).cur with
          | some t => rowMoved n c (countRow n t.ctx false s1)
          | none => s1
        | _ => s1

/-- Access `k` gets no response, or its channel has failed (R224). -/
def accTimeout (k : Nat) (s : State) : State :=
  match s.mt.accs[k]? with
  | none => s
  | some a =>
    let tier := (s.page (pageOf a.da)).tier
    let s1 := (errEvent Pg.mt1 E.mt1_TIER_FAIL (s.count Pg.mt1 6 1)).modMt (fun m => { m with accs := dropNth m.accs k })
    match a.agent with
    | .chan n c =>
      match (s1.chan n c).cur with
      | some t => dmaFault n t.ctx Flt.tierFail tier (Op.tag t.desc) s1
      | none => s1
    | .engine x => ctxFault x none [] Flt.tierFail tier 0 s1
    | _ => s1

/-- A free row for a waiting channel: delivered rows land, and rows from the scratchpads move (R142). -/
def dmaRoom (n c : Nat) (s : State) : State :=
  let s1 := roomAvailable n c s
  landReady n c 33 s1

/-! ### Page commands (R215, R229, R230, R236) -/

/-- Whether a frame of a tier holds a page, is retired or is due to be, or is to be left by a move under way. -/
def State.frameUsed (s : State) (tier f : Nat) : Bool :=
  s.mt.pages.any (fun p => p.2.tier == tier && p.2.frame == f && (p.2.owner.isSome || s.mt.frees.contains p.1))
    || s.mt.retired.contains (tier, f) || s.mt.retireDue.contains (tier, f)
    || (match s.mt.job with | some (.move _ t g) => t == tier && g == f | _ => false)

/-- Whether a frame is under memory test (R496). -/
def State.frameTested (s : State) (tier f : Nat) : Bool :=
  match s.mt.testing with
  | some (t, lo, hi) => t == tier && decide (lo ≤ f ∧ f ≤ hi)
  | none => false

def State.frames (s : State) (tier : Nat) : Nat := if tier = 0 then s.recs.t0 else s.recs.t1

/-- Free frames of a tier (R214), apart from those under memory test. -/
def State.freeCount (s : State) (tier : Nat) : Nat :=
  countBelow (s.frames tier) (fun f => !s.frameUsed tier f && !s.frameTested tier f)

/-- The free frame that an allocation or a move takes: the manual does not say which (a free choice). -/
def State.pickFrame (s : State) (tier : Nat) : Option Nat :=
  let c := s.freeCount tier
  if c = 0 then none
  else
    let k := Config.freeNat s.free % c
    leastBelow (s.frames tier) (fun f => !s.frameUsed tier f && !s.frameTested tier f
      && countBelow f (fun g => !s.frameUsed tier g && !s.frameTested tier g) == k)

/-- Pinned pages of a tenant (R230, R234). -/
def State.pinned (s : State) (t : Nat) : Nat :=
  (s.mt.pages.filter (fun p => p.2.owner == some t && p.2.place == 1)).length

/-- The result of a page command (R236). -/
def pgResult (r : Nat) (s : State) : State := s.setReg R.MT_PG_STATUS (BitVec.ofNat 32 (2 * r))

/-- A pin refused by the quota (R230). -/
def pinRefused (s : State) : State := pgResult 2 (errEvent Pg.mt0 E.mt0_PIN_REFUSED (s.count Pg.mt0 3 1))

/-- The tiers that ALLOC tries, in order, for a placement (R215). -/
def State.allocTiers (s : State) (place : Nat) : List Nat :=
  match place with
  | 2 => [1, 0]
  | 1 => [0, 1]
  | _ => if s.fld R.MT_MIG_CTRL F.MT_MIG_CTRL_FREE_MIN < s.freeCount 0 then [0, 1] else [1, 0]

/-- Whether frames that are free but under memory test are all that an ALLOC lacks. -/
def State.testedFree (s : State) : Bool :=
  [0, 1].any (fun t => anyBelow (s.frames t) (fun f => !s.frameUsed t f && s.frameTested t f))

/-- ALLOC (R215, R236). -/
def pgAlloc (p owner place : Nat) (s : State) : State :=
  let r := s.page p
  if !s.backed p ∨ r.owner.isSome ∨ s.mt.frees.contains p then pgResult 3 s
  else if place = 1 ∧ s.fld (R.MT_PIN_QUOTA owner) F.MT_PIN_QUOTA_PAGES ≤ s.pinned owner then pinRefused s
  else
    match (s.allocTiers place).find? (fun t => s.freeCount t != 0) with
    | none => pgResult (if s.testedFree then 4 else 5) s
    | some t =>
      let f := (s.pickFrame t).getD 0
      let s1 := (s.drew 1).setPage p { owner := some owner, tier := t, frame := f, place := place, age := 0,
                                       epoch := s.curEpoch owner, moving := true }
      pgResult 0 (s1.modMt (fun m => { m with fills := m.fills ++ [p] }))

/-- FREE (R215, R236): the owner goes at once, and the command completes with FREE_COMPLETE. -/
def pgFree (p : Nat) (s : State) : State :=
  let r := s.page p
  if !s.backed p ∨ r.owner.isNone then pgResult 3 s
  else if r.moving then pgResult 1 s
  else
    let s1 := (s.setPage p { r with owner := none, place := 0, queued := false }).modMt (fun m =>
      { m with frees := m.frees ++ [p], promo := m.promo.filter (fun q => q != p) })
    s1.setReg R.MT_PG_STATUS 1

/-- A FREE completes: no access to the page remains past stage 1. -/
def freeComplete (p : Nat) (s : State) : State :=
  if s.mt.frees.contains p && !s.mt.accs.any (fun a => pageOf a.da == p) then
    let s1 := s.modMt (fun m => { m with frees := m.frees.filter (fun q => q != p), pages := Tab.del m.pages p,
                                         tags := m.tags.filter (fun t => t.1 / 4096 != p) })
    if s1.mt.frees.isEmpty then pgResult 0 s1 else s1
  else s

/-- SET_PLACE (R229, R230, R237). -/
def pgPlace (p place : Nat) (s : State) : State :=
  let r := s.page p
  match r.owner with
  | none => pgResult 3 s
  | some t =>
    if !s.backed p then pgResult 3 s
    else if r.moving then pgResult 1 s
    else if place = 1 ∧ r.place ≠ 1 ∧ s.fld (R.MT_PIN_QUOTA t) F.MT_PIN_QUOTA_PAGES ≤ s.pinned t then pinRefused s
    else pgResult 0 (s.setPage p { r with place := place })

/-- READ (R236). -/
def pgRead (p : Nat) (s : State) : State :=
  let r := s.page p
  let w := (r.owner.getD 0x1F) + 32 * r.tier + 64 * r.place + 256 * r.age + (if r.moving then 65536 else 0)
    + (if r.queued then 131072 else 0)
  pgResult 0 ((s.setReg R.MT_PG_INFO0 (BitVec.ofNat 32 w)).setReg R.MT_PG_INFO1 (BitVec.ofNat 32 r.frame))

/-- A write of MT_PG_CMD (R236): dropped while a command is in progress; the encodings that are not commands are
reserved. -/
def pgCmd (iid : Nat) (v : Word) (s : State) : State :=
  let p := s.fld R.MT_PG_SEL F.MT_PG_SEL_PAGE
  let place := wordFld v F.MT_PG_CMD_PLACE
  if s.flag R.MT_PG_STATUS F.MT_PG_STATUS_BUSY then s
  else
    match wordFld v F.MT_PG_CMD_CMD with
    | 1 => pgAlloc p (wordFld v F.MT_PG_CMD_OWNER) place s
    | 2 => pgFree p s
    | 3 => pgPlace p place s
    | 4 => pgRead p s
    | _ => raiseErr Pg.mt2 Err.encRsvd iid (R.MT_PG_CMD % 4096) s

/-! ### Migration (R226 to R228) -/

/-- The pages that satisfy a condition, least page number first. -/
def State.pagesWith (s : State) (f : Nat → PageRec → Bool) : List Nat :=
  (s.mt.pages.filter (fun p => p.2.owner.isSome && f p.1 p.2)).map (·.1) |>.mergeSort (fun a b => decide (a ≤ b))

/-- The coldest evictable page, lowest page number on ties (R227). -/
def State.coldest (s : State) : Option Nat :=
  (s.pagesWith (fun _ r => r.tier == 0 && r.place == 0 && !r.moving)).foldl (fun m p =>
    match m with
    | none => some p
    | some q => if (s.page p).age < (s.page q).age then some p else some q) none

/-- A move of a page to a free frame of the other tier begins (R228); both tiers' domains must be on (R237). -/
def startMove (p : Nat) (s : State) : State :=
  let dest := 1 - (s.page p).tier
  let on0 := (List.range s.recs.stackCnt).all (fun k => s.domOn (18 + k))
  if !on0 ∨ !s.domOn 20 ∨ (s.page p).moving then s
  else
    match s.pickFrame dest with
    | none => s
    | some f =>
      ((s.drew 1).setPage p { s.page p with moving := true }).modMt (fun m => { m with job := some (.move p dest f) })

/-- A page leaves the promotion queue. -/
def unqueue (p : Nat) (s : State) : State :=
  (s.setPage p { s.page p with queued := false }).modMt (fun m => { m with promo := m.promo.filter (fun q => q != p) })

/-- The promotion queue's turn (R227). -/
def promoteTurn (s : State) : State :=
  match s.mt.promo with
  | [] => s
  | c :: _ =>
    let r := s.page c
    if r.place ≠ 0 ∨ r.tier = 0 ∨ r.age < s.fld R.MT_AGE_CFG F.MT_AGE_CFG_PROMOTE_THR then unqueue c s
    else if s.freeCount 0 ≠ 0 then startMove c (unqueue c s)
    else
      let ok := match s.coldest with
        | some v => decide ((s.page v).age + s.fld R.MT_AGE_CFG F.MT_AGE_CFG_HYST ≤ r.age ∧ s.freeCount 1 ≠ 0)
        | none => false
      if ok then startMove (s.coldest.getD 0) s
      else errEvent Pg.mt0 E.mt0_PROMOTE_BLOCKED ((unqueue c s).count Pg.mt0 4 1)

/-- The idle engine's next choice (R227). A frame whose retirement is due gives up its page first (R413). -/
def migrationChoice (s : State) : State :=
  match s.mt.job with
  | some _ => s
  | none =>
    match s.mt.fills with
    | p :: ps => s.modMt (fun m => { m with fills := ps, job := some (.fill p) })
    | [] =>
      let t1 := s.freeCount 1
      let t0 := s.freeCount 0
      let held := s.pagesWith (fun _ r => r.place == 2 && r.tier == 0 && !r.moving)
      let pins := s.pagesWith (fun _ r => r.place == 1 && r.tier == 1 && !r.moving)
      let retire := s.pagesWith (fun _ r => s.mt.retireDue.contains (r.tier, r.frame) && !r.moving
        && s.freeCount (1 - r.tier) != 0)
      match retire with
      | p :: _ => startMove p s
      | [] =>
        if !s.flag R.MT_MIG_CTRL F.MT_MIG_CTRL_EN then s
        else if t1 ≠ 0 ∧ !held.isEmpty then startMove (held.headD 0) s
        else if t1 ≠ 0 ∧ t0 < s.fld R.MT_MIG_CTRL F.MT_MIG_CTRL_FREE_MIN ∧ s.coldest.isSome then
          startMove (s.coldest.getD 0) s
        else if !pins.isEmpty ∧ (t0 ≠ 0 ∨ (t1 ≠ 0 ∧ s.coldest.isSome)) then
          startMove (if t0 = 0 then s.coldest.getD 0 else pins.headD 0) s
        else promoteTurn s

/-! ### Frame retirement (R413, R415, R428) -/

/-- A frame that holds no page leaves use for good. -/
def retireFrame (tier f : Nat) (s : State) : State :=
  let s1 := (s.modMt (fun m => { m with retired := m.retired ++ [(tier, f)],
                                        retireDue := m.retireDue.filter (fun q => q != (tier, f)) })).count Pg.rel1 4 1
  let n := (s1.mt.retired.filter (fun q => q.1 == tier)).length
  let s2 := s1.setFld R.REL_INV (if tier = 0 then F.REL_INV_T0_RETIRED else F.REL_INV_T1_RETIRED) (min n 127)
  let s3 := logEntry { cls := LogCls.retire, kind := if tier = 0 then LogKind.hbm else LogKind.tier1, arg0 := f } s2
  if n = 64 then svcEvent (if tier = 0 then 2 else 3) s3 else s3

/-- Frames whose retirement is due and that hold no page are retired. -/
def retireEmpty (s : State) : State :=
  s.mt.retireDue.foldl (fun t q =>
    if t.mt.pages.any (fun p => p.2.tier == q.1 && p.2.frame == q.2) then t else retireFrame q.1 q.2 t) s

/-- A sector that a move could not read: it is written with the tier-ECC variant (R228); its bytes are free. -/
def moveBad (p : Nat) (s : State) (k : Nat) : State :=
  let da := p * 2 ^ 21 + k % 4096 * 512
  storeSector ((s.page p).owner.getD 0) da 1
    ((List.range 512).map (fun b => BitVec.ofNat 8 (Config.freeNat (s.free + b)))) (s.drew 512)

/-- A fill or a move completes (R215, R228): `bad` lists the sectors whose source reads failed. -/
def moveSwitch (bad : List Nat) (s : State) : State :=
  match s.mt.job with
  | none => s
  | some (.fill p) =>
    let r := s.page p
    if !s.domOn (s.sectorDomain (p * 2 ^ 21)) then s
    else
      let tag := s.tagNow (r.owner.getD 0) (p * 2 ^ 21)
      let s1 := { s with da := Memory.zero s.da (p * 2 ^ 21) ((p + 1) * 2 ^ 21) }
      let s2 := (s1.setPage p { r with moving := false, fill := some tag }).modMt (fun m =>
        { m with job := none, tags := m.tags.filter (fun t => t.1 / 4096 != p) })
      let s3 := s2.count Pg.mt0 2 1
      if s.mt.accs.any (fun a => pageOf a.da == p) then countStall 0 (r.owner.getD 0) s3 else s3
  | some (.move p tier f) =>
    let r := s.page p
    let s1 := (bad.foldl (moveBad p) s)
    let s2 := (s1.setPage p { r with moving := false, tier := tier, frame := f }).modMt (fun m => { m with job := none })
    let s3 := s2.count Pg.mt0 (if tier = 0 then 0 else 1) 1
    let s4 := if s.mt.accs.any (fun a => pageOf a.da == p) then countStall 0 (r.owner.getD 0) s3 else s3
    retireEmpty s4

/-- A decay tick (R226): at the next multiple of 4,096 × TICK. -/
def decayTick (s : State) : State :=
  let k := 4096 * s.fld R.MT_AGE_CFG F.MT_AGE_CFG_TICK
  if k = 0 then s
  else
    let s1 := s.at ((s.dtime / k + 1) * k)
    s1.modMt (fun m => { m with pages := m.pages.map (fun p => (p.1, { p.2 with age := p.2.age / 2 })) })

/-! ### Patrol (R408, R413) -/

/-- The patrol's next frame, tier 0 before tier 1. -/
def State.patrolNext (s : State) : Nat × Nat :=
  let f := s.rel.patrolFrame + 1
  if f < s.frames s.rel.patrolTier then (s.rel.patrolTier, f) else (1 - s.rel.patrolTier, 0)

/-- The patrol read visits its frame: `rows` lists the DRAM rows of the frame that yield uncorrected errors in this pass
(each at most once a pass). -/
def patrolRead (rows : List Nat) (s : State) : State :=
  if s.fld R.REL_THR F.REL_THR_PATROL_H = 0 then s
  else
    let tier := s.rel.patrolTier
    let f := s.rel.patrolFrame
    let nx := s.patrolNext
    let s0 := { s with rel := { s.rel with patrolTier := nx.1, patrolFrame := nx.2 } }
    let held := s.mt.pages.find? (fun p => p.2.tier == tier && p.2.frame == f && p.2.owner.isSome)
    let skip : Bool := match held with | some p => p.2.moving | none => false
    if skip || s.frameTested tier f then s0
    else
      let rs := rows.eraseDups
      let s1 := (s0.count Pg.rel1 0 4096).count Pg.rel1 1 rs.length
      let s2 := if rs.isEmpty then s1 else errEvent Pg.rel1 E.rel1_PATROL_ERR s1
      let key : Nat → Nat := fun r => (tier * 2 ^ 32 + r)
      let errs := rs.foldl (fun t r => Tab.set t (key r) (Tab.get t 0 (key r) + 1)) s2.rel.rowErrs
      let s3 := { s2 with rel := { s2.rel with rowErrs := errs } }
      let hit := rs.any (fun r => decide (s3.fld R.REL_THR F.REL_THR_PPR_THR ≤ Tab.get s3.rel.rowErrs 0 (key r)))
      if hit ∧ !s3.mt.retired.contains (tier, f) ∧ !s3.mt.retireDue.contains (tier, f) then
        retireEmpty (s3.modMt (fun m => { m with retireDue := m.retireDue ++ [(tier, f)] }))
      else s3

end Sys2Proof.Machine
end

