-- ==== Sys2Proof/Machine/Breeze.lean ====
section
/-! DEFINITION. Machine/Breeze.lean: the Breeze tier: inputs and mute (R238 to R246), the history ring (R247, R248), audio
groups (R249 to R252), Breeze models (R253 to R257), wakes (R258 to R262) and the Breeze commands (R264 to R270). -/

namespace Sys2Proof.Machine

def State.modBrz (s : State) (f : Brz → Brz) : State := { s with brz := f s.brz }

/-! ### The ring (R21, R242, R247) -/

def ringSlots : Nat := 32768

/-- The newest index (R242); 0 before the first sample. -/
def State.newest (s : State) : Nat := s.brz.written - 1

/-- The oldest retained index (R247). -/
def State.oldest (s : State) : Nat := s.brz.written - ringSlots

/-- The INT16 code of a ring channel at an index. -/
def State.sample (s : State) (i c : Nat) : Nat :=
  let a := i % ringSlots * 64 + 2 * c
  (Memory.read s.brz.ring a).toNat + 256 * (Memory.read s.brz.ring (a + 1)).toNat

/-- Flags of a ring block: MUTE 1, SETTLE 2, OVL 4, TDM_LOSS 8. -/
def State.blockFlags (s : State) (i : Nat) : Nat := Tab.get s.brz.flags 0 (i % ringSlots / 64)

/-- The flags that ring blocks from index `i` over `k` samples carry together. -/
def State.flagsOver (s : State) (i k : Nat) : Nat :=
  (List.range ((i + k - 1) / 64 - i / 64 + 1)).foldl (fun f b => f ||| s.blockFlags (i / 64 * 64 + 64 * b)) 0

/-! ### Sources (R238 to R243) -/

/-- Whether a source is a PDM microphone, or the TDM port that it names. -/
def srcPdm (src : Nat) : Bool := decide (src < 0x20)
def srcPort (src : Nat) : Option Nat := if 0x20 ≤ src ∧ src < 0x30 then some ((src - 0x20) / 8) else none

/-- Whether a channel's source yields samples: an enabled pin, or a running port in step. -/
def State.srcLive (s : State) (src : Nat) : Bool :=
  if srcPdm src then bitOf (s.reg R.BRZ_FE_CFG).toNat (src / 2)
  else match srcPort src with
    | some p => bitOf (s.reg R.BRZ_FE_CFG).toNat (17 + p) && !s.brz.tdmLost.contains p
    | none => false

/-- Sample periods that a path takes to refill (R241, R243). -/
def State.refill (s : State) (src delay : Nat) : Nat :=
  match srcPort src with
  | some p =>
    let cfg := s.reg (R.BRZ_TDM_CFG p)
    (if wordFld cfg F.BRZ_TDM_CFG_RATE = 1 then 8 else 0)
      + (if bitOf (wordFld cfg F.BRZ_TDM_CFG_SENSOR) (src % 8) then 4 else 0) + delay
  | none => 24

/-- Ring channel `c`'s settle count for the sample that is written now: a changed setting restarts it (R243). -/
def State.settleOf (s : State) (c : Nat) : Nat :=
  let w := s.reg (R.BRZ_RING_MAP c)
  let old := Tab.get s.brz.usedMap (regReset (R.BRZ_RING_MAP c)) c
  let src := wordFld w F.BRZ_RING_MAP_SRC
  let delay := wordFld w F.BRZ_RING_MAP_DELAY
  let changed :=
    if srcPdm src then
      decide (src ≠ wordFld old F.BRZ_RING_MAP_SRC ∨ s.fld R.BRZ_FE_CFG F.BRZ_FE_CFG_LP ≠ s.brz.usedLp)
    else match srcPort src with
      | some p => w != old || s.fld (R.BRZ_TDM_CFG p) F.BRZ_TDM_CFG_RATE != Tab.get s.brz.usedRate 0 p
      | none => false
  if changed then s.refill src delay else Tab.get s.brz.chSettle 0 c

def State.muted (s : State) : Bool := s.flag R.BRZ_MUTE F.BRZ_MUTE_MUTED

/-- The code that ring channel `c` is written with (R238 to R245). -/
def State.channelCode (s : State) (c : Nat) (v : BitVec 16) : Nat :=
  let src := s.fld (R.BRZ_RING_MAP c) F.BRZ_RING_MAP_SRC
  if s.muted || decide (0 < s.brz.settleLeft) || decide (0 < s.settleOf c) || !s.srcLive src then 0 else v.toNat

/-- An index added to the muted ranges. -/
def addMuted (i : Nat) : List (Nat × Nat) → List (Nat × Nat)
  | [] => [(i, i)]
  | [(a, b)] => if b + 1 = i then [(a, i)] else [(a, b), (i, i)]
  | r :: rs => r :: addMuted i rs

/-- A sample period's 32 channels are written to the ring (R242, R243, R244, R265): `vals` are the paths' outputs and
`sat` the channels whose filter saturated. -/
def sampleWrite (vals : List (BitVec 16)) (sat : BitVec 32) (s : State) : State :=
  let i := s.brz.written
  let s := s.at (1536 * (i + 1) + 2)
  let settles := (List.range 32).map s.settleOf
  let bytes := (List.range 32).flatMap (fun c => leBytes 2 (s.channelCode c (vals.getD c 0)))
  let mut' := s.muted
  let live : Nat → Bool := fun c =>
    !mut' && s.srcLive (s.fld (R.BRZ_RING_MAP c) F.BRZ_RING_MAP_SRC)
  let ovl := countBelow 32 (fun c => sat.getLsbD c && live c)
  let settling := !mut' && (decide (0 < s.brz.settleLeft) || settles.any (fun k => decide (0 < k)))
  let loss := anyBelow 32 (fun c => match srcPort (s.fld (R.BRZ_RING_MAP c) F.BRZ_RING_MAP_SRC) with
    | some p => s.brz.tdmLost.contains p
    | none => false)
  let fl := (if mut' then 1 else 0) + (if settling then 2 else 0) + (if ovl = 0 then 0 else 4) + (if loss then 8 else 0)
  let b := i % ringSlots / 64
  let old := if i % 64 = 0 then 0 else Tab.get s.brz.flags 0 b
  let s1 := s.modBrz (fun z => { z with
    ring := Memory.writeList z.ring (i % ringSlots * 64) bytes, flags := Tab.set z.flags b (old ||| fl), written := i + 1,
    muted := if mut' then addMuted i z.muted else z.muted, settleLeft := z.settleLeft - 1,
    chSettle := (List.range 32).map (fun c => (c, settles.getD c 0 - 1)),
    usedLp := s.fld R.BRZ_FE_CFG F.BRZ_FE_CFG_LP,
    usedRate := [0, 1].map (fun p => (p, s.fld (R.BRZ_TDM_CFG p) F.BRZ_TDM_CFG_RATE)),
    usedMap := (List.range 32).map (fun c => (c, s.reg (R.BRZ_RING_MAP c))) })
  let s2 := (s1.count Pg.brz0 0 1).count Pg.brz0 1 ovl
  errIf (ovl != 0) Pg.brz0 E.brz0_OVL (if mut' then s2.count Pg.brz0 2 1 else s2)

/-- A TDM frame sync of port `p`: in step, or missing or early (R239, R416). -/
def tdmSync (p : Nat) (ok : Bool) (s : State) : State :=
  if !bitOf (s.reg R.BRZ_FE_CFG).toNat (17 + p) then s
  else if ok then s.modBrz (fun z => { z with tdmLost := z.tdmLost.filter (fun q => q != p) })
  else
    let s1 := s.modBrz (fun z => { z with tdmLost := if z.tdmLost.contains p then z.tdmLost else z.tdmLost ++ [p] })
    logPartner Pg.brz0 E.brz0_TDM_LOSS LogKind.tdm p (errEvent Pg.brz0 E.brz0_TDM_LOSS (s1.count Pg.brz0 3 1))

/-! ### The mute (R244 to R246) -/

/-- MUTE_N falls: a release under way is abandoned. -/
def muteFall (s : State) : State :=
  let s1 := (s.modBrz (fun z => { z with riseAt := none, settleLeft := 0 })).setReg R.BRZ_MUTE 1
  if s.muted then s1 else errEvent Pg.brz0 E.brz0_MUTE_CHG s1

/-- MUTE_N rises: the release count starts. -/
def muteRise (s : State) : State :=
  if s.flag R.BRZ_MUTE F.BRZ_MUTE_PIN then s
  else (s.modBrz (fun z => { z with riseAt := some s.dtime })).setFld R.BRZ_MUTE F.BRZ_MUTE_PIN 1

/-- MUTE_N has been high for 24,576 cycles, recognised 2 cycles later: microphones return, and zeros settle. -/
def muteRelease (s : State) : State :=
  match s.brz.riseAt with
  | none => s
  | some u =>
    let k := s.fld R.BRZ_UNMUTE_SETTLE F.BRZ_UNMUTE_SETTLE_SAMPLES
    ((s.at (u + 24578)).modBrz (fun z => { z with riseAt := none, settleLeft := k })).setReg R.BRZ_MUTE 6

/-- The settle count has run out: live samples resume. -/
def settleEnd (s : State) : State :=
  if s.brz.settleLeft = 0 then s.setFld R.BRZ_MUTE F.BRZ_MUTE_SETTLING 0 else s

/-! ### Audio groups (R249 to R252) -/

def State.ag (s : State) (g : Nat) : AudioGroup := Tab.get s.brz.groups {} g
def State.setAg (s : State) (g : Nat) (a : AudioGroup) : State := s.modBrz (fun z => { z with groups := Tab.set z.groups g a })

/-- The cursor registers follow the cursor. -/
def moveCursor (g i : Nat) (s : State) : State :=
  (s.setAg g { s.ag g with cursor := i % 2 ^ 48 }).setReg (R.BRZ_AG_CUR_LO g) (BitVec.ofNat 32 i)

def State.agActive (s : State) (g : Nat) : Bool := s.flag (R.BRZ_AG_STATUS g) F.BRZ_AG_STATUS_ACTIVE

/-- A group made active at an index (R251). -/
def activate (g i : Nat) (below : Bool) (s : State) : State :=
  let s1 := moveCursor g i s
  ((s1.setAg g { s1.ag g with fresh := true, below := below }).setFld (R.BRZ_AG_STATUS g) F.BRZ_AG_STATUS_ACTIVE 1)

/-- STOP (R251, R270). -/
def stopGroup (g : Nat) (s : State) : State :=
  (s.setFld (R.BRZ_AG_STATUS g) F.BRZ_AG_STATUS_ACTIVE 0).setFld (R.BRZ_AG_STATUS g) F.BRZ_AG_STATUS_WAITING 0

/-- BRZ_AG_CMD (R251, R269). -/
def agCmd (g cmd : Nat) (s : State) : State :=
  match cmd with
  | 1 => activate g s.brz.written false s
  | 2 => stopGroup g s
  | 3 => activate g (s.pair (R.BRZ_AG_SEEK_LO g) (R.BRZ_AG_SEEK_HI g) % 2 ^ 48) false s
  | _ => s

/-- A wake bound to a group (R251, R259): an idle group starts before the wake's start; its next block carries the
descriptor. -/
def bindGroup (g start pre : Nat) (desc : List Word) (s : State) : State :=
  let s1 := if s.agActive g then s else activate g (start - pre) (decide (start < pre)) s
  s1.setAg g { s1.ag g with desc := desc }

/-- Element format and bytes of a group. -/
def agFmt (code : Nat) : Option NumFmt :=
  match code with
  | 1 => some .fp16
  | 2 => some .bf16
  | 3 => some .fp32
  | _ => none

def agElemBytes (code : Nat) : Nat := if code = 3 then 4 else 2

/-- A ring sample as an element of a block (R249): the code itself, or q × 2^−15 rounded. -/
def agElem (code q : Nat) : Nat :=
  match agFmt code with
  | none => q
  | some f => (f.encode (Fv.ofDy ⟨sext 16 q, -15⟩)).bits

/-- The channels of a mask, ascending. -/
def maskBits (m : Nat) : List Nat := (List.range 32).filter (bitOf m)

/-- The header row of a block (R250). -/
def agHeader (first k mask fmt flags feed skipped : Nat) (desc : List Word) : List Byte :=
  leBytes 6 first ++ leBytes 2 k ++ leBytes 4 mask ++ leBytes 1 fmt ++ leBytes 1 flags ++ leBytes 1 feed ++ leBytes 1 0
    ++ leBytes 8 skipped ++ leBytes 8 0
    ++ ((List.range 8).flatMap (fun w => leBytes 4 (desc.getD w 0).toNat)) ++ List.replicate 448 0

/-- A plane's rows: the elements packed from byte 0; bytes beyond the block's last sample are free (log entry 13). -/
def agPlane (s : State) (first k code c row b i0 : Nat) : Byte :=
  let e := agElemBytes code
  let o := row * 512 + b
  if o / e < k then BitVec.ofNat 8 (agElem code (s.sample (first + o / e) c) / 256 ^ (o % e))
  else BitVec.ofNat 8 (Config.freeNat (i0 + o))

/-- An active group delivers its next block (R249 to R252, R23, R26). -/
def deliverBlock (g : Nat) (s : State) : State :=
  let a := s.ag g
  let cfg := s.reg (R.BRZ_AG_CFG g)
  let k := 64 * wordFld cfg F.BRZ_AG_CFG_BLOCK
  let first := max a.cursor s.oldest
  let n := wordFld cfg F.BRZ_AG_CFG_CORE
  let r := wordFld cfg F.BRZ_AG_CFG_REGION
  let code := wordFld cfg F.BRZ_AG_CFG_FMT
  if !s.agActive g || wordFld cfg F.BRZ_AG_CFG_EN == 0 || decide (s.brz.written < first + k) then s
  else if !s.domOn n then s.setFld (R.BRZ_AG_STATUS g) F.BRZ_AG_STATUS_WAITING 1
  else
    let x := (s.rgn n r).ctx
    let chans := maskBits (s.reg (R.BRZ_AG_CH g)).toNat
    let pr := ceilDiv (k * agElemBytes code) 512
    let rows := 1 + chans.length * pr
    let wait : State → State := fun t => t.setFld (R.BRZ_AG_STATUS g) F.BRZ_AG_STATUS_WAITING 1
    if !s.accessOk n x r (some ⟨5, g⟩) || (s.rgn n r).raw then wait (countOverrun n s)
    else if (s.rgn n r).free < rows then wait s
    else
      let late := decide (a.cursor < s.oldest)
      let clipped := a.fresh && (late || a.below)
      let jump := !a.fresh && late
      let skipped := if jump then s.oldest - a.cursor else 0
      let fl := s.flagsOver first k
      let muted := bitOf fl 0
      let flags := fl + (if jump then 16 else 0) + (if clipped then 32 else 0) + (if a.desc.isEmpty then 0 else 64)
      let feed := if muted then 0x25 else 0
      let head := agHeader first k (s.reg (R.BRZ_AG_CH g)).toNat code flags feed skipped a.desc
      let gr := s.rgn n r
      let s1 := s.writeRow n (gr.rowHead 0) head 0
      let s2 := chans.zipIdx.foldl (fun t q =>
        iter pr (fun j u => u.writeRow n (gr.rowHead (1 + q.2 * pr + j))
          (mkRow (fun b => agPlane s first k code q.1 j b (s.free + 512 * pr * q.2))) 0) t) s1
      let s3 := (advanceHead n r rows (s2.drew (512 * pr * chans.length))).count (Pg.spd3 n) 1 rows
      let s4 := moveCursor g (first + k) s3
      let s5 := s4.setAg g { s4.ag g with fresh := false, below := false, desc := [] }
      let s6 := (s5.setFld (R.BRZ_AG_STATUS g) F.BRZ_AG_STATUS_WAITING 0).count (Pg.brzAg g) 0 1
      let s7 := if s.flag (R.BRZ_AG_STATUS g) F.BRZ_AG_STATUS_WAITING then countFree (cntKey (Pg.brzAg g) 2) s6 else s6
      let s8 := if muted then (s7.setFld (R.BRZ_AG_STATUS g) F.BRZ_AG_STATUS_FEED_ERR feed).count (Pg.brzAg g) 3 1 else s7
      let s9 := if clipped then errEvent (Pg.brzAg g) E.brzAg_CLIPPED (s8.count Pg.brz0 4 1) else s8
      if jump then errEvent (Pg.brzAg g) E.brzAg_JUMP (s9.count (Pg.brzAg g) 1 skipped) else s9

/-! ### Wakes (R258 to R262) -/

/-- Whether some sample from `a` to `b` was muted. -/
def State.mutedIn (s : State) (a b : Nat) : Bool := s.brz.muted.any (fun r => decide (r.1 ≤ b ∧ a ≤ r.2))

/-- The words of a descriptor (R258). -/
def wakeWords (event model origin : Nat) (muted : Bool) (conf seq start stop dtime : Nat) : List Word :=
  let w : Nat → Word := fun v => BitVec.ofNat 32 v
  [w (event + 256 * model + 65536 * (origin + if muted then 4 else 0)), w (conf + 65536 * seq), w start,
   w (start / 2 ^ 32 % 65536), w stop, w (stop / 2 ^ 32 % 65536), w dtime, w (dtime / 2 ^ 32)]

/-- Descriptors in the queue. -/
def State.wqUsed (s : State) : Nat :=
  (s.fld R.BRZ_WQ_PTR F.BRZ_WQ_PTR_WR + 128 - s.fld R.BRZ_WQ_PTR F.BRZ_WQ_PTR_RD) % 128

/-- A descriptor written to the queue; a full queue counts an overflow (R262). The sequence number is taken either way.
ERR_STAT.WAKE wakes the control complex (R474). -/
def queueWake (ctr : Nat) (ws : List Word) (s : State) : State :=
  let s0 := s.setFld R.BRZ_WQ_SEQ F.BRZ_WQ_SEQ_NEXT (s.fld R.BRZ_WQ_SEQ F.BRZ_WQ_SEQ_NEXT + 1)
  let s1 :=
    if 64 ≤ s.wqUsed then errEvent Pg.brz2 E.brz2_WQ_OVF (s0.count Pg.brz2 3 1)
    else
      let wr := s.fld R.BRZ_WQ_PTR F.BRZ_WQ_PTR_WR
      let t := ws.zipIdx.foldl (fun t q => t.setReg (R.BRZ_WQ (wr % 64) q.2) q.1) s0
      (t.setFld R.BRZ_WQ_PTR F.BRZ_WQ_PTR_WR (wr + 1)).count Pg.brz2 ctr 1
  wakeDom 29 false (errEvent Pg.brz2 E.brz2_WAKE s1)

/-- The Gust core enters a model as SWITCH does from the halted state (R259, R145). -/
def enterModel (n m : Nat) (s : State) : State :=
  if !s.flag (R.SEQ_MODEL n m) F.SEQ_MODEL_VALID then errEvent Pg.brz2 E.brz2_START_SKIPPED s
  else
    let x := (s.core n).ctx.getD 0
    doSwitch n x m (s.modCore n (fun c => { c with ctx := some x, doneSig := false }))

/-- A start of the Gust core at a model is requested (R259). -/
def gustStart (m : Nat) (s : State) : State :=
  let n := s.fld R.BRZ_GUST F.BRZ_GUST_CORE
  if s.domOn n then
    if s.seqState n = Seq.halted ∨ s.seqState n = Seq.lowPower then enterModel n m s
    else errEvent Pg.brz2 E.brz2_START_SKIPPED s
  else if s.flag R.BRZ_GUST F.BRZ_GUST_AUTO then
    (wakeDom 29 false (wakeDom n false (s.modBrz (fun z => { z with gust := some (n, m) })))).count Pg.brz2 4 1
  else errEvent Pg.brz2 E.brz2_START_SKIPPED s

/-- The actions of R259 on a wake: queue, bound group, Gust start. -/
def raiseWake (ctr : Nat) (ws : List Word) (start : Nat) (ag : Option (Nat × Nat)) (gust : Option Nat) (s : State) : State :=
  let s1 := queueWake ctr ws s
  let s2 := match ag with
    | some (g, pre) => bindGroup g start pre ws s1
    | none => s1
  match gust with
  | some m => gustStart m s2
  | none => s2

/-- A vision wake of camera `cam` (R260): `idx` is the newest index at the frame's start. -/
def visionWake (cam score idx : Nat) (s : State) : State :=
  let v := s.reg R.BRZ_VWAKE
  let ws := wakeWords 0x40 cam 1 (s.mutedIn idx idx) score (s.fld R.BRZ_WQ_SEQ F.BRZ_WQ_SEQ_NEXT) idx idx s.dtime
  raiseWake 1 ws idx
    (if wordFld v F.BRZ_VWAKE_AG_EN = 1 then some (wordFld v F.BRZ_VWAKE_AG, wordFld v F.BRZ_VWAKE_PREROLL) else none)
    (if wordFld v F.BRZ_VWAKE_GUST_EN = 1 then some (wordFld v F.BRZ_VWAKE_GUST_MODEL) else none) s

/-! ### Models (R253 to R257) -/

def State.brzModel (s : State) (m : Nat) : BrzModel := Tab.get s.brz.models {} m
def State.setBrzModel (s : State) (m : Nat) (x : BrzModel) : State := s.modBrz (fun z => { z with models := Tab.set z.models m x })
def State.armedModel (s : State) (m : Nat) : Bool := s.flag (R.BRZ_MODEL_LOC m) F.BRZ_MODEL_LOC_ARM

/-- A word of the Breeze scratchpad. -/
def State.spmWord (s : State) (w : Nat) : Nat := ofLeBytes (Memory.readList s.brz.spm (4 * w) 4)

/-- The fields of an image header at a row (R254): MAGIC, IMG_VER, ROWS, LOAD, RUN_CYCLES, HOP, NCH. -/
structure ImgHeader where
  magic : Nat
  ver : Nat
  rows : Nat
  load : Nat
  cycles : Nat
  hop : Nat
  nch : Nat
  deriving DecidableEq, Repr

def State.imgHeader (s : State) (base : Nat) : ImgHeader :=
  let w : Nat → Nat := fun i => s.spmWord (128 * base + i)
  ⟨bitsOf (w 0) 15 0, bitsOf (w 0) 31 16, bitsOf (w 1) 15 0, bitsOf (w 1) 31 16, w 2, bitsOf (w 3) 15 0, bitsOf (w 3) 31 16⟩

/-- LOAD of an armed model. -/
def State.armedLoad (s : State) (m : Nat) : Nat :=
  if s.armedModel m then s.fld (R.BRZ_MODEL_STAT m) F.BRZ_MODEL_STAT_LOAD else 0

/-- BRZ_LOAD.SUM follows the armed models (R266). -/
def sumLoads (s : State) : State :=
  s.setReg R.BRZ_LOAD (BitVec.ofNat 32 (((List.range 16).map s.armedLoad).foldl (· + ·) 0))

/-- Whether model `m`, with the registers that the state holds for it, passes the checks of R255. -/
def State.armOk (s : State) (m : Nat) : Bool :=
  let loc := s.reg (R.BRZ_MODEL_LOC m)
  let base := wordFld loc F.BRZ_MODEL_LOC_BASE
  let rows := wordFld loc F.BRZ_MODEL_LOC_ROWS
  let h := s.imgHeader base
  let hop := s.fld (R.BRZ_MODEL_CFG m) F.BRZ_MODEL_CFG_HOP
  let others := (List.range 16).filter (fun j => j != m && s.armedModel j)
  h.magic == 0xB7EE && h.ver == 1 && decide (h.rows ≤ rows) && h.hop == hop
    && h.nch == (maskBits (s.reg (R.BRZ_MODEL_IN m)).toNat).length && decide (h.cycles ≤ 1536 * hop)
    && others.all (fun j =>
        let b := s.fld (R.BRZ_MODEL_LOC j) F.BRZ_MODEL_LOC_BASE
        let k := s.fld (R.BRZ_MODEL_LOC j) F.BRZ_MODEL_LOC_ROWS
        decide (base + rows ≤ b ∨ b + k ≤ base))
    && decide ((others.map s.armedLoad).foldl (· + ·) 0 + h.load ≤ s.fld R.BRZ_LOAD_MAX F.BRZ_LOAD_MAX_MAX)

/-- The next waiting hop's run starts, if none runs (R256): it latches the model's registers. -/
def startRun (s : State) : State :=
  match s.brz.run, s.brz.hops with
  | none, (m, l) :: hs =>
    (s.modBrz (fun z => { z with hops := hs, run := some ⟨m, l, s.reg (R.BRZ_MODEL_LOC m), s.reg (R.BRZ_MODEL_CFG m),
      s.reg (R.BRZ_MODEL_THR m), s.reg (R.BRZ_MODEL_PRE m)⟩ })).count Pg.brz1 0 1
  | _, _ => s

/-- One armed model's hop ends at index `l`: a hop of it that still waits is skipped (R256). -/
def hopOf (l : Nat) (s : State) (m : Nat) : State :=
  let hop := s.fld (R.BRZ_MODEL_CFG m) F.BRZ_MODEL_CFG_HOP
  if s.armedModel m && hop != 0 && (l + 1) % hop == 0 then
    let late := s.brz.hops.any (fun h => h.1 == m)
    let s1 := if late then errEvent Pg.brz1 E.brz1_HOP_SKIP (s.count Pg.brz1 4 1) else s
    let x := s1.brzModel m
    (s1.setBrzModel m { x with hops := x.hops + 1 }).modBrz (fun z =>
      { z with hops := z.hops.filter (fun h => h.1 != m) ++ [(m, l)] })
  else s

/-- The newest index ends hops (R256). -/
def hopEnd (s : State) : State :=
  let l := s.newest
  if s.brz.written = 0 ∨ s.brz.hopAt = some l then s
  else startRun ((List.range 16).foldl (hopOf l) (s.modBrz (fun z => { z with hopAt := some l })))

/-- C ≥ THR for FP16 encodings, C finite (R257). -/
def confAtLeast (c thr : Nat) : Bool :=
  match NumFmt.fp16.decode c, NumFmt.fp16.decode thr with
  | .fin n m e, .fin n' m' e' => Dy.le ⟨if n' then -(m' : Int) else m', e'⟩ ⟨if n then -(m : Int) else m, e⟩
  | .fin _ _ _, .inf neg => neg
  | _, _ => false

/-- A model's run has ended and passed its checks, with its output (R257). -/
def modelOutput (q : BrzRun) (conf startOff endOff : Nat) (s : State) : State :=
  let m := q.model
  let x := s.brzModel m
  let hit := s.armedModel m && confAtLeast conf (wordFld q.thr F.BRZ_MODEL_THR_THR)
  let offOk := decide (endOff ≤ startOff ∧ startOff ≤ 32767)
  let s1 := if hit then s.count Pg.brz1 1 1 else s
  let s2 := if offOk then s1 else errEvent Pg.brz1 E.brz1_OUT_BAD (s1.count Pg.brz1 5 1)
  if !(hit && offOk) then s2
  else
    let start := if startOff ≤ q.last then q.last - startOff else Config.freeNat s2.free % 2 ^ 48
    let stop := if endOff ≤ q.last then q.last - endOff else Config.freeNat (s2.free + 1) % 2 ^ 48
    let s3 := s2.drew 2
    let after := match x.lastEnd with | some e => decide (e < start) | none => true
    let held := match x.lastEnd with | some _ => decide (x.hops < wordFld q.thr F.BRZ_MODEL_THR_HOLDOFF) | none => false
    if !after || held then s3.count Pg.brz1 7 1
    else
      let ws := wakeWords (wordFld q.cfg F.BRZ_MODEL_CFG_EVENT) m 0 (s3.mutedIn start stop) conf
        (s3.fld R.BRZ_WQ_SEQ F.BRZ_WQ_SEQ_NEXT) start stop (s3.dtime + 1)
      let s4 := (s3.setBrzModel m ⟨some stop, 0⟩).count Pg.brz1 2 1
      raiseWake 0 ws start
        (if wordFld q.cfg F.BRZ_MODEL_CFG_AG_EN = 1 then
          some (wordFld q.cfg F.BRZ_MODEL_CFG_AG, wordFld q.pre F.BRZ_MODEL_PRE_PREROLL) else none)
        (if wordFld q.cfg F.BRZ_MODEL_CFG_GUST_EN = 1 then some (wordFld q.cfg F.BRZ_MODEL_CFG_GUST_MODEL) else none) s4

/-- A run ends (R253, R257): `fails` of its at most two runs failed their checks, with `parity` parity errors met. -/
def runEnd (conf startOff endOff fails parity : Nat) (s : State) : State :=
  match s.brz.run with
  | none => s
  | some q =>
    let s0 := (s.modBrz (fun z => { z with run := none })).count Pg.brz1 6 parity
    let s1 := if fails = 0 then s0 else s0.count Pg.brz1 3 1
    let s2 :=
      if 2 ≤ fails then
        let t := (s1.setFld (R.BRZ_MODEL_LOC q.model) F.BRZ_MODEL_LOC_ARM 0).setFld (R.BRZ_MODEL_STAT q.model)
          F.BRZ_MODEL_STAT_FAULTED 1
        let t1 := t.modBrz (fun z => { z with hops := z.hops.filter (fun h => h.1 != q.model) })
        errEvent Pg.brz1 E.brz1_MODEL_FAULT (sumLoads (t1.setFld (R.BRZ_MODEL_STAT q.model) F.BRZ_MODEL_STAT_LOAD 0))
      else modelOutput q conf startOff endOff s1
    startRun s2

/-! ### Gust posts (R261) -/

/-- BRZ takes a post of the Gust core after its semaphore signal. -/
def gustPost (s : State) : State :=
  let g := s.reg R.BRZ_GUST
  let n := wordFld g F.BRZ_GUST_CORE
  let k := wordFld g F.BRZ_GUST_POST_SEM
  let cnt := s.fld (R.SEQ_SEM n k) F.SEQ_SEM_COUNT
  if wordFld g F.BRZ_GUST_POST_EN = 0 ∨ cnt = 0 ∨ !s.domOn n then s
  else
    let row := (s.rgn n (wordFld g F.BRZ_GUST_POST_REGION)).row 0
    let ws := (List.range 8).map (fun w => BitVec.ofNat 32 (word32 (fun b => s.rowByte n row b) (4 * w)))
    let s1 := s.setFld (R.SEQ_SEM n k) F.SEQ_SEM_COUNT (cnt - 1)
    let w : Nat → Nat := fun i => (ws.getD i 0).toNat
    let event := bitsOf (w 0) 7 0
    let start := w 2 + 2 ^ 32 * bitsOf (w 3) 15 0
    let stop := w 4 + 2 ^ 32 * bitsOf (w 5) 15 0
    if event < 0x41 ∨ 0x7F < event ∨ s.newest < start ∨ s.newest < stop ∨ stop < start then
      errEvent Pg.brz2 E.brz2_POST_BAD s1
    else
      let seq := s.fld R.BRZ_WQ_SEQ F.BRZ_WQ_SEQ_NEXT
      let ws' := [BitVec.ofNat 32 (putBits (w 0) 17 16 2), BitVec.ofNat 32 (putBits (w 1) 31 16 seq), ws.getD 2 0,
        ws.getD 3 0, ws.getD 4 0, ws.getD 5 0, BitVec.ofNat 32 s.dtime, BitVec.ofNat 32 (s.dtime / 2 ^ 32)]
      queueWake 2 ws' s1

/-! ### Register commands (R248, R267 to R269) -/

/-- A write of RD of the wake queue (R267): one beyond WR is dropped. -/
def wqRdWrite (v : Word) (s : State) : State :=
  let old := s.fld R.BRZ_WQ_PTR F.BRZ_WQ_PTR_RD
  let new := wordFld v F.BRZ_WQ_PTR_RD
  let wr := s.fld R.BRZ_WQ_PTR F.BRZ_WQ_PTR_WR
  if (new + 128 - old) % 128 ≤ (wr + 128 - old) % 128 then s.setFld R.BRZ_WQ_PTR F.BRZ_WQ_PTR_RD new else s

/-- BRZ_SPM_ADDR after an access (R268). -/
def spmStep (s : State) : State :=
  s.setReg R.BRZ_SPM_ADDR (BitVec.ofNat 32 ((s.fld R.BRZ_SPM_ADDR F.BRZ_SPM_ADDR_ADDR + 1) % 131072))

/-- A read through BRZ_SPM_DATA: the word, and the state after it. -/
def spmRead (s : State) : State :=
  spmStep (s.answers (BitVec.ofNat 32 (s.spmWord (s.fld R.BRZ_SPM_ADDR F.BRZ_SPM_ADDR_ADDR))))

/-- A write through BRZ_SPM_DATA: dropped inside an armed model's extent. -/
def spmWrite (v : Word) (s : State) : State :=
  let a := s.fld R.BRZ_SPM_ADDR F.BRZ_SPM_ADDR_ADDR
  let inside := anyBelow 16 (fun m => s.armedModel m && decide (s.fld (R.BRZ_MODEL_LOC m) F.BRZ_MODEL_LOC_BASE ≤ a / 128
    ∧ a / 128 < s.fld (R.BRZ_MODEL_LOC m) F.BRZ_MODEL_LOC_BASE + s.fld (R.BRZ_MODEL_LOC m) F.BRZ_MODEL_LOC_ROWS))
  if inside then spmStep (errEvent Pg.brz4 E.brz4_LOAD_ARMED s)
  else spmStep (s.modBrz (fun z => { z with spm := Memory.writeList z.spm (4 * a) (leBytes 4 v.toNat) }))

/-- A read of BRZ_IDX_LO (R248). -/
def idxLoRead (s : State) : State :=
  ((s.setReg R.BRZ_IDX_HI (BitVec.ofNat 32 (s.newest / 2 ^ 32 % 65536))).answers (BitVec.ofNat 32 s.newest))

/-- A read of BRZ_AG_CUR_LO (R269). -/
def agCurLoRead (g : Nat) (s : State) : State :=
  { s.setReg (R.BRZ_AG_CUR_HI g) (BitVec.ofNat 32 ((s.ag g).cursor / 2 ^ 32 % 65536)) with
    rdata := BitVec.ofNat 32 (s.ag g).cursor }

end Sys2Proof.Machine
end

