-- ==== Sys2Proof/Machine/IspPixels.lean ====
section
/-! DEFINITION. Machine/IspPixels.lean: the stages of the image pipeline on a frame's pixels, the statistics and the
output lines (R273, R281 to R285, R288), as functions of the frame and the lookup tables. -/

namespace Sys2Proof.Machine

/-! ### A frame and what its stages read -/

/-- A frame of camera `n` with the lookup tables. -/
structure IspView where
  n : Nat
  f : IspFrame
  lut : List (Nat × Word)

/-- A register of the copy that the frame is processed under (R279). -/
def IspFrame.reg (f : IspFrame) (a : Nat) : Word :=
  match Tab.find f.copy a with
  | some w => w
  | none => regReset a

def IspFrame.fld (f : IspFrame) (a : Nat) (g : Fld) : Nat := wordFld (f.reg a) g

namespace IspView

def fld (v : IspView) (a : Nat) (g : Fld) : Nat := v.f.fld a g
def w (v : IspView) : Nat := v.fld (R.ISP_CAM_GEOM v.n) F.ISP_CAM_GEOM_WIDTH
def h (v : IspView) : Nat := v.fld (R.ISP_CAM_GEOM v.n) F.ISP_CAM_GEOM_HEIGHT
def mono (v : IspView) : Bool := v.fld (R.ISP_CAM_CFG v.n) F.ISP_CAM_CFG_MONO == 1

/-- Bits of a pixel code, by data type (R273); 8 for YUV422. -/
def dtBits (dt : Nat) : Nat :=
  match dt with
  | 0x2B => 10
  | 0x2C => 12
  | 0x2D => 14
  | 0x2E => 16
  | _ => 8

def dt (v : IspView) : Nat := v.fld (R.ISP_CAM_CFG v.n) F.ISP_CAM_CFG_DT
def yuv (v : IspView) : Bool := v.dt == 0x1E

/-- The frame's free value number `k`. -/
def free (v : IspView) (k : Nat) : Nat := Config.freeNat (v.f.free0 + k)

/-! ### Stages 1 to 3 (R281) -/

def phase (y x : Nat) : Nat := y % 2 * 2 + x % 2

/-- The colour of a site: 0 red, 1 green, 2 blue (CFA of R297). -/
def colour (v : IspView) (y x : Nat) : Nat :=
  (([[0, 1, 1, 2], [1, 0, 2, 1], [1, 2, 0, 1], [2, 1, 1, 0]] : List (List Nat)).getD
    (v.fld (R.ISP_CAM_CFG v.n) F.ISP_CAM_CFG_CFA) []).getD (phase y x) 0

/-- Stage 1: the code moved to 16 bits, less the black level of its phase. -/
def black (v : IspView) (y x : Nat) : Nat :=
  let c := ((v.f.lines.getD y ⟨[], false⟩).px).getD x 0
  let p := phase y x
  let b := v.fld (R.ISP_BLC v.n (p / 2)) (if p % 2 = 0 then F.ISP_BLC_LO else F.ISP_BLC_HI)
  c * 2 ^ (16 - dtBits v.dt) % 65536 - b

/-- A neighbour for stage 2; the manual gives no value to one beyond the frame (log entry 24). -/
def near (v : IspView) (y x : Int) : Nat :=
  if 0 ≤ y ∧ y < v.h ∧ 0 ≤ x ∧ x < v.w then v.black y.toNat x.toNat
  else v.free (((y + 2) * (v.w + 4) + x + 2).toNat) % 65536

/-- The eight nearest neighbours of the same colour in the 5×5 window, and the four left, right, above and below. -/
def ring (v : IspView) (y x : Nat) : List (Int × Int) :=
  if v.mono then [(-1, -1), (-1, 0), (-1, 1), (0, -1), (0, 1), (1, -1), (1, 0), (1, 1)]
  else if v.colour y x = 1 then [(-1, -1), (-1, 1), (1, -1), (1, 1), (-2, 0), (2, 0), (0, -2), (0, 2)]
  else [(-2, -2), (-2, 0), (-2, 2), (0, -2), (0, 2), (2, -2), (2, 0), (2, 2)]

def cross (v : IspView) : List (Int × Int) := if v.mono then [(0, -1), (0, 1), (-1, 0), (1, 0)] else [(0, -2), (0, 2), (-2, 0), (2, 0)]

def valuesAt (v : IspView) (y x : Nat) (l : List (Int × Int)) : List Nat := l.map (fun d => v.near ((y : Int) + d.1) ((x : Int) + d.2))

def maxOf (l : List Nat) : Nat := l.foldl max 0
def minOf (l : List Nat) : Nat := l.foldl min 65535

/-- Whether stage 2 replaces a pixel. -/
def defect (v : IspView) (y x : Nat) : Bool :=
  let thr := v.fld (R.ISP_DPC v.n) F.ISP_DPC_DPC_THR
  let l := v.valuesAt y x (v.ring y x)
  let p := v.black y x
  v.fld (R.ISP_DPC v.n) F.ISP_DPC_DPC_EN == 1 && decide (maxOf l + thr < p ∨ p + thr < minOf l)

/-- Stage 2: a defect becomes the mean of the two middle values of four neighbours, rounded down. -/
def fixed (v : IspView) (y x : Nat) : Nat :=
  if v.defect y x then
    let l := v.valuesAt y x v.cross
    (l.foldl (· + ·) 0 - maxOf l - minOf l) / 2
  else v.black y x

/-- An entry of a lookup table: table 0 tone, 1 lens shading. -/
def entry (v : IspView) (bank table e : Nat) : Nat :=
  let w := (Tab.get v.lut 0 (((v.n * 2 + bank) * 2 + table) * 2048 + e / 2)).toNat
  if e % 2 = 0 then w % 65536 else w / 65536

/-- The cell of the 17-point grid that line or column `k` of `size` lies in. -/
def gridCell (size k : Nat) : Nat := (List.range 16).foldl (fun m i => if i * (size - 1) / 16 ≤ k then i else m) 0

/-- Stage 3: v × g / 4,096 rounded, with g interpolated without rounding of its own (log entry 25). -/
def shaded (v : IspView) (y x : Nat) : Nat :=
  let p := v.fixed y x
  if v.fld (R.ISP_LSC v.n) F.ISP_LSC_LSC_EN = 0 then p
  else
    let bank := v.fld (R.ISP_LSC v.n) F.ISP_LSC_LSC_BANK
    let i := gridCell v.h y
    let j := gridCell v.w x
    let y0 := i * (v.h - 1) / 16
    let x0 := j * (v.w - 1) / 16
    let dy := max 1 ((i + 1) * (v.h - 1) / 16 - y0)
    let dx := max 1 ((j + 1) * (v.w - 1) / 16 - x0)
    let t : Nat → Nat → Nat := fun a b => v.entry bank 1 (((i + a) * 17 + j + b) * 4 + phase y x)
    let fy := min dy (y - y0)
    let fx := min dx (x - x0)
    let g := (dy - fy) * ((dx - fx) * t 0 0 + fx * t 0 1) + fy * ((dx - fx) * t 1 0 + fx * t 1 1)
    min 65535 (rneDiv (p * g) (4096 * dy * dx))

/-! ### Stage 4: demosaic -/

/-- A coordinate beyond the edge replicates the edge. -/
def clampTo (size : Nat) (k : Int) : Nat := if k < 0 then 0 else min k.toNat (size - 1)

def site (v : IspView) (y x : Int) : Nat := v.shaded (clampTo v.h y) (clampTo v.w x)

def absDiff (a b : Nat) : Nat := ((a : Int) - b).natAbs

/-- Twice the gradient |G1 − G2| + |2v − v1 − v2| / 2 of an axis. -/
def gradient (p g1 g2 v1 v2 : Nat) : Nat := 2 * absDiff g1 g2 + ((2 * p : Int) - v1 - v2).natAbs

/-- Green at a site. -/
def green (v : IspView) (y x : Nat) : Nat :=
  let a : Int := y
  let b : Int := x
  if v.colour y x = 1 then v.site a b
  else
    let p := v.site a b
    let l := v.site a (b - 1)
    let r := v.site a (b + 1)
    let u := v.site (a - 1) b
    let d := v.site (a + 1) b
    let gh := gradient p l r (v.site a (b - 2)) (v.site a (b + 2))
    let gv := gradient p u d (v.site (a - 2) b) (v.site (a + 2) b)
    if gh < gv then rneDiv (l + r) 2 else if gv < gh then rneDiv (u + d) 2 else rneDiv (l + r + u + d) 4

def greenAt (v : IspView) (y x : Int) : Nat := v.green (clampTo v.h y) (clampTo v.w x)

def clamp16 (i : Int) : Nat := if i < 0 then 0 else min i.toNat 65535

/-- Red (0) or blue (2) from the neighbours of that colour: their mean plus the green here less the mean green there. -/
def fromSites (v : IspView) (y x : Nat) (l : List (Int × Int)) : Nat :=
  let q : List (Int × Int) := l.map (fun d => ((y : Int) + d.1, (x : Int) + d.2))
  let m := rneDiv ((q.map (fun d => v.site d.1 d.2)).foldl (· + ·) 0) l.length
  let g := rneDiv ((q.map (fun d => v.greenAt d.1 d.2)).foldl (· + ·) 0) l.length
  clamp16 ((m : Int) + v.green y x - g)

def chan (v : IspView) (c y x : Nat) : Nat :=
  if c = 1 then v.green y x
  else if v.colour y x = c then v.site y x
  else if v.colour y x = 1 then
    (if v.colour y (x + 1) = c then v.fromSites y x [(0, -1), (0, 1)] else v.fromSites y x [(-1, 0), (1, 0)])
  else v.fromSites y x [(-1, -1), (-1, 1), (1, -1), (1, 1)]

/-- The channels after stage 4; those of a YUV422 line, converted with a matrix that the manual only names, are free
(log entry 26). -/
def rgb4 (v : IspView) (y x c : Nat) : Nat :=
  if v.yuv then v.free (2 ^ 28 + (y * 8192 + x) * 4 + c) % 65536
  else if v.mono then v.shaded y x
  else v.chan c y x

/-! ### Stages 5 to 7 -/

def gain (v : IspView) (c : Nat) : Nat :=
  match c with
  | 0 => v.fld (R.ISP_WB v.n) F.ISP_WB_GAIN_R
  | 1 => v.fld (R.ISP_WB v.n) F.ISP_WB_GAIN_G
  | _ => v.fld (R.ISP_WB_B v.n) F.ISP_WB_B_GAIN_B

def rgb5 (v : IspView) (y x c : Nat) : Nat :=
  if v.yuv then v.rgb4 y x c else min 65535 (rneDiv (v.rgb4 y x c * v.gain c) 4096)

/-- Entry `k` of the colour matrix, row-major, signed 3.12. -/
def ccm (v : IspView) (k : Nat) : Int :=
  let w := (v.f.reg (R.ISP_CCM_0 v.n + 4 * (k / 2))).toNat
  sext 16 (if k % 2 = 0 then w % 65536 else w / 65536)

def offset (v : IspView) (c : Nat) : Int :=
  sext 16 (match c with
    | 0 => v.fld (R.ISP_CCM_OFF v.n) F.ISP_CCM_OFF_OFF_0
    | 1 => v.fld (R.ISP_CCM_OFF v.n) F.ISP_CCM_OFF_OFF_1
    | _ => v.fld (R.ISP_CCM_OFF2 v.n) F.ISP_CCM_OFF2_OFF_2)

def rgb6 (v : IspView) (y x c : Nat) : Nat :=
  clamp16 (rneDivInt (v.ccm (3 * c) * v.rgb5 y x 0 + v.ccm (3 * c + 1) * v.rgb5 y x 1 + v.ccm (3 * c + 2) * v.rgb5 y x 2) 4096
    + v.offset c)

/-- A tone curve of 1,024 points. -/
def curve (v : IspView) (bank k p : Nat) : Nat :=
  let i := p / 64
  let t : Nat → Nat := fun j => v.entry bank 0 (1024 * k + min j 1023)
  clamp16 ((t i : Int) + (((t (i + 1) : Int) - t i) * (p % 64 : Nat) + 32) / 64)

def rgb7 (v : IspView) (y x c : Nat) : Nat :=
  if v.fld (R.ISP_TONE v.n) F.ISP_TONE_TONE_EN = 0 then v.rgb6 y x c
  else
    let bank := v.fld (R.ISP_TONE v.n) F.ISP_TONE_TONE_BANK
    v.curve bank 3 (v.curve bank c (v.rgb6 y x c))

/-! ### Statistics (R287 to R289) -/

/-- Every site of the frame, line by line. -/
def sites (v : IspView) : List (Nat × Nat) := (List.range v.h).flatMap (fun y => (List.range v.w).map (fun x => (y, x)))

/-- The defect replacements of the frame. -/
def defects (v : IspView) : Nat := if v.yuv then 0 else (v.sites.filter (fun p => v.defect p.1 p.2)).length

/-- HIST: luma after stage 6. -/
def hist (v : IspView) : List Nat :=
  v.sites.foldl (fun t p =>
      modNth t (((v.rgb6 p.1 p.2 0 + 2 * v.rgb6 p.1 p.2 1 + v.rgb6 p.1 p.2 2 + 2) / 4) / 256) (· + 1)) (List.replicate 256 0)

/-- The mean of `sum` over `k` pixels; a mean over none is a free value (log entry 27). -/
def mean (v : IspView) (sum k idx : Nat) : Nat :=
  if k = 0 then v.free (2 ^ 30 + idx) % 65536 else rneDiv sum k

/-- Cell (i, j) of GRID: mean R, G, B and counted pixels. -/
def cell (v : IspView) (i j : Nat) : List Nat :=
  let l := v.sites.filter (fun p =>
    decide (i * v.h / 32 ≤ p.1 ∧ p.1 < (i + 1) * v.h / 32 ∧ j * v.w / 32 ≤ p.2 ∧ p.2 < (j + 1) * v.w / 32)
      && decide (v.rgb4 p.1 p.2 0 < 0xF000) && decide (v.rgb4 p.1 p.2 1 < 0xF000) && decide (v.rgb4 p.1 p.2 2 < 0xF000))
  let m : Nat → Nat := fun c => v.mean ((l.map (fun p => v.rgb4 p.1 p.2 c)).foldl (· + ·) 0) l.length ((i * 32 + j) * 4 + c)
  [m 0, m 1, m 2, l.length % 65536]

def grid (v : IspView) : List (List Nat) := (List.range 1024).map (fun k => v.cell (k / 32) (k % 32))

/-! ### Output lines (R283, R284) -/

def outFld (v : IspView) (o : Nat) (g : Fld) : Nat := v.fld (R.ISP_OUT_CFG v.n o) g
def outFmt (v : IspView) (o : Nat) : Nat := v.outFld o F.ISP_OUT_CFG_FMT
def ow (v : IspView) (o : Nat) : Nat := v.fld (R.ISP_OUT_SIZE v.n o) F.ISP_OUT_SIZE_OW
def oh (v : IspView) (o : Nat) : Nat := v.fld (R.ISP_OUT_SIZE v.n o) F.ISP_OUT_SIZE_OH
def x0 (v : IspView) (o : Nat) : Nat := v.fld (R.ISP_OUT_CROP v.n o 0) F.ISP_OUT_CROP_A
def y0 (v : IspView) (o : Nat) : Nat := v.fld (R.ISP_OUT_CROP v.n o 0) F.ISP_OUT_CROP_B
def cw (v : IspView) (o : Nat) : Nat := v.fld (R.ISP_OUT_CROP v.n o 1) F.ISP_OUT_CROP_A
def ch (v : IspView) (o : Nat) : Nat := v.fld (R.ISP_OUT_CROP v.n o 1) F.ISP_OUT_CROP_B
def pitch (v : IspView) (o : Nat) : Nat := v.fld (R.ISP_OUT_PITCH v.n o) F.ISP_OUT_PITCH_PITCH

/-- A 16-bit RGB value of the scaled window: the pixel itself where the scale is one, else free, since the manual does not
place the filter's phases (log entry 28). -/
def scaled (v : IspView) (o y x c : Nat) : Nat :=
  if v.ow o = v.cw o ∧ v.oh o = v.ch o then v.rgb7 (v.y0 o + y) (v.x0 o + x) c
  else v.free (2 ^ 31 + ((o * 8192 + y) * 8192 + x) * 4 + c) % 65536

/-- A free luma or chroma sample of an output: the manual only names the matrices (log entry 26). -/
def ycc (v : IspView) (o k : Nat) : Nat := v.free (2 ^ 33 + o * 2 ^ 30 + k)

/-- Samples as bytes, or as 10-bit values in bits [15:6] of 16-bit words. -/
def samples (wide : Bool) (l : List Nat) : List Byte :=
  if wide then l.flatMap (fun q => leBytes 2 (q % 1024 * 64)) else l.map (fun q => BitVec.ofNat 8 q)

/-- Line `y` of the display output. -/
def dispLine (v : IspView) (y : Nat) : List Byte :=
  if v.outFmt 0 = 0 then
    (List.range (v.ow 0)).flatMap (fun x => (List.range 3).map (fun c => BitVec.ofNat 8 (rneDiv (v.scaled 0 y x c * 255) 65535)))
  else samples true ((List.range (2 * v.ow 0)).map (fun k => v.ycc 0 (y * 16384 + k)))

/-- Line `y` of the luma plane (0) or chroma plane (1) of the coding output. -/
def codeLine (v : IspView) (plane y : Nat) : List Byte :=
  samples (v.outFmt 1 == 1) ((List.range (v.ow 1)).map (fun k => v.ycc 1 ((plane * 8192 + y) * 8192 + k)))

/-- Planes of the machine-vision output. -/
def mvPlanes (v : IspView) : Nat := if v.outFmt 2 < 3 then 3 else 1

/-- A machine-vision value (v / 65,535 − MV_OFF) × MV_GAIN in FP32, converted to FMT (R283). -/
def mvConv (v : IspView) (p : Nat) : Conv :=
  let x := fp32 (fpMul (fpSub (fpDiv (fpInt p) (fpInt 65535)) (v.f.reg (R.ISP_MV_OFF v.n)).toNat) (v.f.reg (R.ISP_MV_GAIN v.n)).toNat)
  match v.outFmt 2 % 3 with
  | 0 => quantInt 8 1 x ⟨1, 0⟩
  | 1 => NumFmt.fp16.encode x
  | _ => NumFmt.bf16.encode x

def mvBytes (v : IspView) : Nat := if v.outFmt 2 % 3 = 0 then 1 else 2

/-- One element of plane `c`: a Y output's luma is free. -/
def mvElem (v : IspView) (c y x : Nat) : Conv :=
  if v.outFmt 2 < 3 then v.mvConv (v.scaled 2 y x c) else v.mvConv (v.ycc 2 (y * 8192 + x) % 65536)

def mvLine (v : IspView) (c y : Nat) : List Byte :=
  (List.range (v.ow 2)).flatMap (fun x => leBytes v.mvBytes (v.mvElem c y x).bits)

/-- Saturations in line `y` over the planes. -/
def mvSat (v : IspView) (y : Nat) : Nat :=
  ((List.range v.mvPlanes).flatMap (fun c => (List.range (v.ow 2)).filter (fun x => (v.mvElem c y x).saturated))).length

/-- Output lines that a frame of which `fin` lines are finished has completed: all at the end, else those whose filter and
stages read no later line (log entry 29). -/
def linesOut (v : IspView) (o : Nat) : Nat :=
  if v.h ≤ v.f.fin then v.oh o
  else countBelow (v.oh o) (fun y => decide (v.y0 o + ceilDiv ((y + 1) * v.ch o) (v.oh o) + 6 ≤ v.f.fin))

end IspView

end Sys2Proof.Machine
end

