-- ==== Sys2Proof/Machine/Isp.lean ====
section
/-! DEFINITION. Machine/Isp.lean: cameras (R271 to R300): frame starts, lines, the stripe scheduler, outputs, frame records,
presence, the lookup-table port and camera control. -/

namespace Sys2Proof.Machine

def State.modIsp (s : State) (f : Isp → Isp) : State := { s with isp := f s.isp }
def State.cam (s : State) (n : Nat) : IspCam := Tab.get s.isp.cams {} n
def State.setCam (s : State) (n : Nat) (c : IspCam) : State := s.modIsp (fun z => { z with cams := Tab.set z.cams n c })
def State.ccBus (s : State) (b : Nat) : CcBus := Tab.get s.isp.buses {} b

/-- ISP_CC_STATUS follows the bus's packets. -/
def State.setCcBus (s : State) (b : Nat) (x : CcBus) : State :=
  (s.modIsp (fun z => { z with buses := Tab.set z.buses b x })).setReg (R.ISP_CC_STATUS b)
    (BitVec.ofNat 32 (x.posted.length + x.due.length + if x.due.isEmpty then 0 else 32))

def State.view (s : State) (n : Nat) (f : IspFrame) : IspView := ⟨n, f, s.isp.lut⟩

/-- A live field of a camera's page. -/
def State.camFld (s : State) (n : Nat) (g : Fld) : Nat := s.fld (R.ISP_CAM_CFG n) g

/-! ### Feeds -/

/-- A record ring of feed `feed`, whose context is `x`, advanced (R331). -/
def feedSignal (feed x : Nat) (s : State) : State :=
  let f := tenantOf x
  let a := if feed < 32 then R.HIF_FEED_PEND_LO f else R.HIF_FEED_PEND_HI f
  let s1 := s.setReg a (s.reg a ||| bit32 (feed % 32))
  msixSend f (s1.fld (R.HIF_VEC f) F.HIF_VEC_FEED) s1

/-- A ring pointer of slot and wrap bit moved by one in a ring of `slots`, the wrap bit being bit `wb`. -/
def ringNext (wb slots p : Nat) : Nat :=
  let k := p % 2 ^ wb + 1
  let w := p / 2 ^ wb % 2
  if k < slots then k + w * 2 ^ wb else (1 - w) * 2 ^ wb

/-- Whether a ring is full: same slot, other turn. -/
def ringFull (wb wr rd : Nat) : Bool := wr % 2 ^ wb == rd % 2 ^ wb && wr / 2 ^ wb % 2 != rd / 2 ^ wb % 2

/-- A unit of feed `feed` captured at `t` is older than the feed's maximum age (R316). -/
def State.stale (s : State) (feed t : Nat) : Bool :=
  let m := s.fld (R.FEED_MAX_AGE feed) F.FEED_MAX_AGE_TICKS
  m != 0 && decide (m < s.dtime - t)

/-- A stale unit is counted (R316, R319, R320). -/
def countStale (feed : Nat) (s : State) : State := (s.addCnt (R.FEED_STALE_CNT_LO feed) 1).count Pg.dec0 5 1

/-! ### Frame records (R287) -/

/-- The settings ID and flags of the frame with count `k` (R292). -/
def IspCam.sensOf (c : IspCam) (k : Nat) : Nat × Bool × Bool :=
  c.sens.foldl (fun r e =>
    (match e.id with
      | some i => if e.frame ≤ k then i else r.1
      | none => r.1,
     r.2.1 || (e.unsure && e.frame == k), r.2.2 || (e.fail && e.frame == k))) (0, false, false)

/-- The first 64 bytes of a frame's record. -/
def recordHead (c : IspCam) (f : IspFrame) (err pres : Nat) : List Byte :=
  let q := c.sensOf f.count
  leBytes 4 f.count ++ leBytes 2 f.num ++ leBytes 2 q.1 ++ leBytes 2 f.tag ++ leBytes 1 err
    ++ leBytes 1 (f.flags + (if q.2.1 then 8 else 0) + (if q.2.2 then 16 else 0)) ++ leBytes 2 f.lost
    ++ leBytes 1 (f.buf0.getD 255) ++ leBytes 1 (f.buf1.getD 255) ++ leBytes 8 f.dtime ++ leBytes 6 f.sample
    ++ leBytes 2 pres ++ List.replicate 32 0

/-- The record of a frame without statistics. -/
def emptyRecord (c : IspCam) (f : IspFrame) (err : Nat) : List Byte := recordHead c f err 0 ++ List.replicate 12224 0

/-- A frame record goes to the next slot of camera `n`'s ring (R287). A refused write is discarded and WR stays (log entry 31). -/
def writeRecord (n : Nat) (f : IspFrame) (bs : List Byte) (s : State) : State :=
  let wr := s.fld (R.ISP_REC_PTR n) F.ISP_REC_PTR_WR
  let x := f.fld (R.ISP_CAM_OWN n) F.ISP_CAM_OWN_CTX
  if ringFull 8 wr (s.fld (R.ISP_REC_PTR n) F.ISP_REC_PTR_RD) then
    errEvent (Pg.ispCam n) E.ispCam_REC_LOST (s.count (Pg.ispCam n) 7 1)
  else
    let da := (f.reg (R.ISP_REC_LO n)).toNat + 2 ^ 32 * f.fld (R.ISP_REC_HI n) F.ISP_REC_HI_REC_DA
    let r := daWrite x (da + 12288 * (wr % 256)) 0 bs s
    if r.1 then
      feedSignal n x (r.2.setFld (R.ISP_REC_PTR n) F.ISP_REC_PTR_WR
        (ringNext 8 (f.fld (R.ISP_REC_PTR n) F.ISP_REC_PTR_SLOTS) wr))
    else errEvent (Pg.ispCam n) E.ispCam_DA_DENY r.2

/-! ### Packets and lines (R272 to R274) -/

/-- A violation by the partner at port `p` (R274, R416). -/
def csiErr (p bit ctr : Nat) (s : State) : State :=
  logPartner (Pg.ispPort p) bit LogKind.csi p (errEvent (Pg.ispPort p) bit (s.count (Pg.ispPort p) ctr 1))

def csiDiscard (p : Nat) (s : State) : State := csiErr p E.ispPort_DISCARD 5 s

/-- The enabled camera that names a port and virtual channel (R272). -/
def State.bound (s : State) (p vc : Nat) : Option Nat :=
  leastBelow 16 (fun n => s.camFld n F.ISP_CAM_CFG_EN == 1 && s.camFld n F.ISP_CAM_CFG_PORT == p && s.camFld n F.ISP_CAM_CFG_VC == vc)

/-- Whether a port receives: it is on, and its domain is on or draining towards an entry (R300). -/
def State.receives (s : State) (p : Nat) : Bool :=
  s.flag (R.ISP_PORT_CFG p) F.ISP_PORT_CFG_EN && (s.domOn 27 || s.domState 27 == 3)

/-- A packet header meets its ECC; `f` runs for a good or corrected one. -/
def csiHeader (p : Nat) (h : CsiHdr) (lost f : State → State) (s : State) : State :=
  match h with
  | .good => f s
  | .corrected => f (csiErr p E.ispPort_ECC_CORR 1 s)
  | .bad => lost (csiErr p E.ispPort_ECC_UNCORR 2 s)

/-- The last frame of a camera, if it is being received. -/
def IspCam.receiving (c : IspCam) : Option IspFrame :=
  match c.frames.getLast? with
  | some f => if f.ended then none else some f
  | none => none

def IspCam.setLast (c : IspCam) (f : IspFrame) : IspCam := { c with frames := c.frames.dropLast ++ [f] }

/-- The line that stands for a lost one (R274): the one before it of the same colour phase, or zeros. -/
def IspView.lostLine (v : IspView) : IspLine :=
  let k := v.f.lines.length
  let d := if v.mono || v.yuv then 1 else 2
  ⟨if d ≤ k then (v.f.lines.getD (k - d) ⟨[], false⟩).px else List.replicate v.w 0, false⟩

/-- `k` lines lost at the place that the frame has reached; `flag` is added to its record flags. -/
def loseLines (n k flag : Nat) (f : IspFrame) : IspFrame :=
  let g := iter k (fun _ g => { g with lines := g.lines ++ [(⟨n, g, []⟩ : IspView).lostLine], lost := g.lost + 1 }) f
  { g with flags := g.flags ||| flag }

/-- Lost lines counted (R296, R297). -/
def countLost (n p k : Nat) (s : State) : State := (s.count (Pg.ispPort p) 4 k).count (Pg.ispCam n) 2 k

/-- The line of camera `n` that is due is lost. -/
def lineLost (n p : Nat) (s : State) : State :=
  let c := s.cam n
  match c.receiving with
  | none => s
  | some f =>
    let g := { f with rx := f.rx + 1 }
    if f.dropped then s.setCam n (c.setLast g)
    else if (s.view n f).h ≤ f.lines.length then csiDiscard p (s.setCam n (c.setLast g))
    else countLost n p 1 (s.setCam n (c.setLast (loseLines n 1 1 g)))

/-- Slots of camera `n`'s line ring in use (R276). -/
def State.slots (s : State) (n : Nat) : Nat :=
  ((s.cam n).frames.map (fun f =>
    if f.dropped || decide ((s.view n f).h ≤ f.fin) || f.fld (R.ISP_CAM_CFG n) F.ISP_CAM_CFG_STORED == 1 then 0
    else ((f.lines.drop (f.fin - 4)).filter (·.good)).length)).foldl (· + ·) 0

/-- Bytes of a raw line in DA (log entry 30). -/
def IspView.rawBytes (v : IspView) : Nat := ceilDiv (v.w * IspView.dtBits v.dt) 8

/-- DA of line `y` of a stored frame (R280). -/
def IspView.rawDa (v : IspView) (y : Nat) : Nat :=
  (v.f.reg (R.ISP_CAM_RAW_LO v.n)).toNat + 2 ^ 32 * v.fld (R.ISP_CAM_RAW_HI v.n) F.ISP_CAM_RAW_HI_RAW_DA
    + v.f.rawBuf * (v.f.reg (R.ISP_CAM_RAW_STRIDE v.n)).toNat + y * v.rawBytes

/-- The bytes that DA holds for a stored line: the manual gives raw frames no layout, so they are free (log entry 30). -/
def IspView.rawLine (v : IspView) (y : Nat) : List Byte :=
  (List.range v.rawBytes).map (fun b => BitVec.ofNat 8 (v.free (2 ^ 35 + y * 2 ^ 16 + b)))

/-- The pattern code that the checker of a camera expects (R495). -/
def State.csiPattern (s : State) (n bits y x : Nat) : Nat :=
  if s.fld (R.TST_CSI_CFG n) F.TST_CSI_CFG_PATTERN = 1 then (x + y + (s.cam n).count) % 2 ^ bits
  else s.fld (R.TST_CSI_CFG n) F.TST_CSI_CFG_VALUE

/-- The checker compares a line that passed its header ECC and CRC checks. -/
def csiCheck (n : Nat) (f : IspFrame) (px : List Nat) (s : State) : State :=
  let bits := IspView.dtBits (s.view n f).dt
  if s.fld (R.TST_CSI_CFG n) F.TST_CSI_CFG_PATTERN = 0 then s
  else if (px.zipIdx.any (fun q => q.1 != s.csiPattern n bits f.rx q.2)) then s.satFld (R.TST_CSI_ERR n) F.TST_CSI_ERR_LINES 1
  else s

/-- A good line of camera `n` arrives at SCLK cycle `sclk`. -/
def lineArrive (n p : Nat) (px : List Nat) (sclk : Nat) (s : State) : State :=
  match (s.cam n).receiving with
  | none => csiDiscard p s
  | some f =>
    let s1 := csiCheck n f px s
    let c := s1.cam n
    let g := { f with rx := f.rx + 1 }
    let v := s1.view n f
    if f.dropped then s1.setCam n (c.setLast g)
    else if v.h ≤ f.lines.length then csiDiscard p (s1.setCam n (c.setLast g))
    else if !s1.domOn 27 then countLost n p 1 (s1.setCam n (c.setLast (loseLines n 1 1 g)))
    else
      let put : State → State := fun t =>
        t.setCam n { c.setLast { g with lines := g.lines ++ [⟨px, true⟩] } with tLast := sclk }
      if f.fld (R.ISP_CAM_CFG n) F.ISP_CAM_CFG_STORED = 1 then
        let r := daWrite (f.fld (R.ISP_CAM_OWN n) F.ISP_CAM_OWN_CTX) (v.rawDa f.lines.length) 0 (v.rawLine f.lines.length) s1
        if r.1 then put r.2
        else errEvent (Pg.ispCam n) E.ispCam_DA_DENY (countLost n p 1 (r.2.setCam n (c.setLast (loseLines n 1 1 g))))
      else if f.fld (R.ISP_CAM_LB n) F.ISP_CAM_LB_LB_LINES ≤ s1.slots n then
        csiErr p E.ispPort_LB_OVF 4 ((s1.setCam n (c.setLast (loseLines n 1 1 g))).count (Pg.ispCam n) 2 1)
      else put s1

/-- The data types of long packets (R273). -/
def longType (dt : Nat) : Bool := (decide (0x2A ≤ dt) && decide (dt ≤ 0x2E)) || dt == 0x1E

/-- SCLK runs at 125/4 of DTIME. -/
def dtimeOfSclk (k : Nat) : Nat := k * 4 / 125

/-- A long packet (R273, R274). -/
def lineReceive (p vc dt : Nat) (h : CsiHdr) (crcOk : Bool) (px : List Nat) (sclk : Nat) (s : State) : State :=
  if !s.receives p then s
  else
    let s0 := (s.at (dtimeOfSclk sclk)).count (Pg.ispPort p) 0 1
    let cam := match s0.bound p vc with
      | some n => if s0.camFld n F.ISP_CAM_CFG_DT == dt && longType dt then some n else none
      | none => none
    csiHeader p h
      (fun t => match cam with | some n => lineLost n p t | none => t)
      (fun t => match cam with
        | none => csiDiscard p t
        | some n =>
          if !crcOk then lineLost n p (csiErr p E.ispPort_CRC 3 t)
          else if px.length != (match (t.cam n).receiving with
              | some f => (t.view n f).w
              | none => px.length) then lineLost n p (csiErr p E.ispPort_CRC 3 t)
          else lineArrive n p px sclk t) s0

/-- The reception of a camera's frame ends; its missing lines are lost (R274). -/
def closeFrame (n p flag : Nat) (s : State) : State :=
  let c := s.cam n
  match c.receiving with
  | none => s
  | some f =>
    if f.dropped then s.setCam n { c with frames := c.frames.dropLast }
    else
      let miss := (s.view n f).h - f.lines.length
      let g := { f with ended := true, flags := f.flags ||| flag }
      countLost n p miss (s.setCam n (c.setLast (if miss = 0 then g else loseLines n miss 2 g)))

/-- A frame-end packet (R273). -/
def frameEnd (p vc : Nat) (h : CsiHdr) (s : State) : State :=
  if !s.receives p then s
  else
    csiHeader p h id (fun t => match t.bound p vc with
      | none => csiDiscard p t
      | some n => if (t.cam n).receiving.isSome then closeFrame n p 0 t else csiDiscard p t) s

/-! ### Frame starts (R275, R277, R279, R280, R286, R291) -/

def camCost (w : Nat) : Nat := ceilDiv w 4 + 11

/-- The declared load of a camera (R276). -/
def State.camLoad (s : State) (m : Nat) : Nat :=
  let t := s.fld (R.ISP_CAM_TIMING m) F.ISP_CAM_TIMING_LINE_TIME
  if t = 0 then 0 else ceilDiv (1024 * camCost (s.fld (R.ISP_CAM_GEOM m) F.ISP_CAM_GEOM_WIDTH)) t

def State.liveCam (s : State) (m : Nat) : Bool := s.camFld m F.ISP_CAM_CFG_EN == 1 && s.camFld m F.ISP_CAM_CFG_STORED == 0

/-- ISP_LOAD (R295). -/
def State.ispLoad (s : State) : Nat := (((List.range 16).filter s.liveCam).map s.camLoad).foldl (· + ·) 0

/-- The load of the cameras that come no later than `n` in the order of R277. -/
def State.loadTo (s : State) (n : Nat) : Nat :=
  let pr : Nat → Nat := fun m => s.camFld m F.ISP_CAM_CFG_PRIO
  (((List.range 16).filter (fun m => s.liveCam m && decide (pr n < pr m ∨ (pr m = pr n ∧ m ≤ n)))).map s.camLoad).foldl (· + ·) 0

/-- Whether machine vision goes to a scratchpad. -/
def IspView.mvPad (v : IspView) : Bool := v.outFld 2 F.ISP_OUT_CFG_EN == 1 && v.outFld 2 F.ISP_OUT_CFG_DEST == 0

/-- Rows of a plane of the machine-vision output up to line `y`. -/
def IspView.planeRows (v : IspView) (y : Nat) : Nat := ceilDiv (y * v.pitch 2) 512

/-- The machine-vision regions: core, and the first region. -/
def IspView.mvCore (v : IspView) : Nat := v.outFld 2 F.ISP_OUT_CFG_CORE
def IspView.mvRgn (v : IspView) : Nat := v.outFld 2 F.ISP_OUT_CFG_REGION
def IspView.ctx (v : IspView) : Nat := v.fld (R.ISP_CAM_OWN v.n) F.ISP_CAM_OWN_CTX

/-- Whether every machine-vision region may be written by the camera (R132). -/
def State.mvAllowed (s : State) (v : IspView) : Bool :=
  s.domOn v.mvCore && decide (v.mvCore < 18)
    && (List.range v.mvPlanes).all (fun c => s.accessOk v.mvCore v.ctx (v.mvRgn + c) (some ⟨3, v.n⟩) && !(s.rgn v.mvCore (v.mvRgn + c)).raw)

/-- Whether each has room for `rows`, the first for one more with `head`. -/
def State.mvRoom (s : State) (v : IspView) (rows : Nat) (head : Bool) : Bool :=
  (List.range v.mvPlanes).all (fun c =>
    decide (rows + (if c = 0 ∧ head then 1 else 0) ≤ (s.rgn v.mvCore (v.mvRgn + c)).free))

/-- Whether an output takes DA buffers. -/
def IspView.daOut (v : IspView) (o : Nat) : Bool :=
  v.outFld o F.ISP_OUT_CFG_EN == 1 && (o != 2 || v.outFld 2 F.ISP_OUT_CFG_DEST == 1)

def IspFrame.setBuf (f : IspFrame) (o : Nat) (b : Option Nat) : IspFrame :=
  match o with
  | 0 => { f with buf0 := b }
  | 1 => { f with buf1 := b }
  | _ => { f with buf2 := b }

def IspFrame.buf (f : IspFrame) (o : Nat) : Option Nat :=
  match o with
  | 0 => f.buf0
  | 1 => f.buf1
  | _ => f.buf2

/-- Output `o` of a starting frame takes its next buffer, or skips the frame (R286). -/
def takeBuf (n o : Nat) (q : IspFrame × State) : IspFrame × State :=
  let v := q.2.view n q.1
  let c := q.2.cam n
  if !v.daOut o then q
  else
    let k := Tab.get c.next 0 o
    if c.held.contains (o, k) then ({ q.1 with flags := q.1.flags ||| 2 ^ (5 + o) }, q.2.count (Pg.ispCam n) 3 1)
    else (q.1.setBuf o (some k), q.2.setCam n { c with
      held := c.held ++ [(o, k)], next := Tab.set c.next o ((k + 1) % (v.outFld o F.ISP_OUT_CFG_NBUF + 1)) })

/-- The waiting packet of camera `n` that was posted first goes out from this frame start (R291). -/
def releasePacket (n frame : Nat) (s : State) : State :=
  let all := (List.range 4).flatMap (fun b => ((s.ccBus b).posted.filter (fun q => q.cam == n)).map (fun q => (b, q)))
  match all.foldl (fun (m : Option (Nat × CcPacket)) q => match m with
      | none => some q
      | some r => if q.2.post < r.2.post then some q else some r) none with
  | none => s
  | some (b, q) =>
    let x := s.ccBus b
    s.setCcBus b { x with posted := x.posted.filter (fun r => r.post != q.post), due := x.due ++ [{ q with frame := frame }] }

/-- The frame of camera `n` is dropped at its start (R277, R287). -/
def dropAtStart (n : Nat) (f : IspFrame) (s : State) : State :=
  let c := s.cam n
  let g := { f with dropped := true }
  let s1 := s.setCam n { c with frames := c.frames ++ [g] }
  writeRecord n g (emptyRecord c g 0x24) ((s1.count (Pg.ispCam n) 1 1).count Pg.isp0 1 1)

/-- Raw buffers of a stored camera that hold unprocessed frames. -/
def IspCam.rawHeld (c : IspCam) : List Nat := (c.frames.filter (fun f => !f.dropped)).map (·.rawBuf)

/-- A frame-start packet of camera `n` (R275). -/
def camFrameStart (n p num : Nat) (s : State) : State :=
  let s0 := closeFrame n p 4 s
  let c0 := s0.cam n
  let k := (c0.count + 1) % 2 ^ 32
  let copy := s0.regs.filter (fun r => r.1 / 4096 == 0x510 + n || r.1 / 4096 == 0x520 + n)
  let f : IspFrame := { count := k, num := num, dtime := s0.dtime, sample := s0.newest, copy := copy,
                        tag := (s0.txn (0x520 + n)).lastTag, dropped := false, order := s0.isp.starts, free0 := s0.free }
  let s1 := ((s0.setCam n { c0 with count := k }).drew (2 ^ 36)).count (Pg.ispCam n) 0 1
  let s2 := releasePacket n k (s1.modIsp (fun z => { z with starts := z.starts + 1 }))
  let v := s2.view n f
  if s2.camFld n F.ISP_CAM_CFG_STORED = 1 then
    if 2 ≤ (s2.cam n).rawHeld.length then dropAtStart n f s2
    else
      let b := if (s2.cam n).rawHeld.contains (s2.cam n).rawNext then 1 - (s2.cam n).rawNext else (s2.cam n).rawNext
      let q := takeBuf n 2 (takeBuf n 1 (takeBuf n 0 ({ f with rawBuf := b }, s2)))
      q.2.setCam n { q.2.cam n with frames := (q.2.cam n).frames ++ [q.1], rawNext := 1 - b }
  else if v.mvPad && !s2.mvAllowed v then dropAtStart n f (countOverrun v.mvCore s2)
  else if v.mvPad && !s2.mvRoom v (v.planeRows (v.oh 2)) true then dropAtStart n f s2
  else if s2.fld R.ISP_SCHED F.ISP_SCHED_LOAD_MAX < s2.loadTo n then
    dropAtStart n f (errEvent Pg.isp0 E.isp0_SHED (s2.count Pg.isp0 2 1))
  else
    let q := takeBuf n 2 (takeBuf n 1 (takeBuf n 0 (f, s2)))
    q.2.setCam n { q.2.cam n with frames := (q.2.cam n).frames ++ [q.1] }

/-- A frame-start packet on a port and virtual channel. -/
def frameStart (p vc num : Nat) (h : CsiHdr) (s : State) : State :=
  if !s.receives p || !s.domOn 27 then s
  else
    csiHeader p h id (fun t => match t.bound p vc with
      | none => csiDiscard p t
      | some n => camFrameStart n p num t) s

/-! ### Stripes (R278 to R280) -/

/-- The oldest frame of camera `n` that the pipeline has still to finish. -/
def IspCam.head (c : IspCam) : Option IspFrame := (c.frames.filter (fun f => !f.dropped)).head?

/-- Changes the oldest frame that is not dropped. -/
def IspCam.setHead (c : IspCam) (g : IspFrame) : IspCam :=
  { c with frames := c.frames.map (fun f => if f.order == g.order then g else f) }

def IspCam.dropHead (c : IspCam) (g : IspFrame) : IspCam := { c with frames := c.frames.filter (fun f => f.order != g.order) }

/-- Whether a live camera is ready (R278). -/
def State.camReady (s : State) (n : Nat) : Bool :=
  match (s.cam n).head with
  | none => false
  | some f =>
    let w := f.lines.length - f.fin
    f.fld (R.ISP_CAM_CFG n) F.ISP_CAM_CFG_STORED == 0
      && (decide (f.fld (R.ISP_CAM_LB n) F.ISP_CAM_LB_READY_LINES ≤ w) || (f.ended && decide (1 ≤ w)))

/-- The key of a ready camera. -/
def State.camKey (s : State) (n : Nat) : Int :=
  match (s.cam n).head with
  | none => 0
  | some f =>
    ((s.cam n).tLast : Int)
      + ((f.fld (R.ISP_CAM_LB n) F.ISP_CAM_LB_LB_LINES : Int) - s.slots n) * f.fld (R.ISP_CAM_TIMING n) F.ISP_CAM_TIMING_LINE_TIME
      - f.fld (R.ISP_CAM_CFG n) F.ISP_CAM_CFG_PRIO * 256

/-- A stored frame that waits whole. -/
def State.storedReady (s : State) (n : Nat) : Option Nat :=
  match (s.cam n).head with
  | none => none
  | some f =>
    if f.fld (R.ISP_CAM_CFG n) F.ISP_CAM_CFG_STORED = 1 ∧ f.ended ∧ f.fin < f.lines.length then some f.order else none

/-- The stored camera that is served: the one whose frame has begun, else the oldest frame start. -/
def State.storedNext (s : State) : Option Nat :=
  match leastBelow 16 (fun n => (s.storedReady n).isSome && (match (s.cam n).head with | some f => f.begun | none => false)) with
  | some n => some n
  | none =>
    ((List.range 16).foldl (fun (m : Option (Nat × Nat)) n => match s.storedReady n, m with
      | some o, none => some (o, n)
      | some o, some q => if o < q.1 then some (o, n) else some q
      | none, m => m) none).map (·.2)

/-- The camera that the free pipeline serves next. -/
def State.nextCam (s : State) : Option Nat :=
  match (List.range 16).foldl (fun (m : Option Nat) n =>
      if s.camReady n then
        (match m with
          | none => some n
          | some k => if s.camKey n < s.camKey k then some n else some k)
      else m) none with
  | some n => some n
  | none => s.storedNext

/-- A frame dropped as stale before its first stripe (R316): it takes no buffer, and the rest of it is discarded. -/
def dropStale (n : Nat) (f : IspFrame) (s : State) : State :=
  let c := s.cam n
  let mine : List (Nat × Nat) := (List.range 3).filterMap (fun o => (f.buf o).map (fun k => (o, k)))
  let g := { f with dropped := true, buf0 := none, buf1 := none, buf2 := none }
  let c1 : IspCam := { c with held := c.held.filter (fun q => !mine.contains q),
                              next := mine.foldl (fun t q => Tab.set t q.1 q.2) c.next }
  let c2 := if f.ended then c1.dropHead f else c1.setHead g
  writeRecord n g (emptyRecord c g 0x23) (countStale n (s.setCam n c2))

/-- The free pipeline grants a stripe (R278, R279, R316). -/
def stripeGrant (s : State) : State :=
  if s.isp.stripe.isSome || s.domState 27 == 0 || s.domState 27 == 1 then s
  else
    match s.nextCam with
    | none => s
    | some n =>
      match (s.cam n).head with
      | none => s
      | some f =>
        if !f.begun && s.stale n f.dtime then dropStale n f s
        else
          let s1 := s.setCam n ((s.cam n).setHead { f with begun := true })
          let s2 := if s.isp.served = some n then s1 else s1.count Pg.isp0 3 1
          s2.modIsp (fun z => { z with stripe := some n, served := some n })

/-! ### Outputs of a stripe (R283 to R286) -/

/-- The DA of a buffer of an output. -/
def IspView.bufDa (v : IspView) (o k : Nat) : Nat :=
  (v.f.reg (R.ISP_OUT_DA_LO v.n o)).toNat + 2 ^ 32 * v.fld (R.ISP_OUT_DA_HI v.n o) F.ISP_OUT_DA_HI_DA_BASE
    + k * v.fld (R.ISP_OUT_PITCH v.n o) F.ISP_OUT_PITCH_BUF_STRIDE * 65536

/-- The runs of bytes that line `y` of an output writes in its buffer. -/
def IspView.pieces (v : IspView) (o y : Nat) : List (Nat × List Byte) :=
  let p := v.pitch o
  match o with
  | 0 => [(y * p, v.dispLine y)]
  | 1 => (y * p, v.codeLine 0 y) :: (if y % 2 = 0 then [(p * v.oh 1 + y / 2 * p, v.codeLine 1 (y / 2))] else [])
  | _ => (List.range v.mvPlanes).map (fun c => (c * p * v.oh 2 + y * p, v.mvLine c y))

def writePieces (x base : Nat) : List (Nat × List Byte) → State → Bool × State
  | [], s => (true, s)
  | q :: qs, s =>
    let r := daWrite x (base + q.1) 0 q.2 s
    if r.1 then writePieces x base qs r.2 else (false, r.2)

def IspFrame.out (f : IspFrame) (o : Nat) : Nat :=
  match o with
  | 0 => f.out0
  | 1 => f.out1
  | _ => f.out2

def IspFrame.setOut (f : IspFrame) (o y : Nat) : IspFrame :=
  match o with
  | 0 => { f with out0 := y }
  | 1 => { f with out1 := y }
  | _ => { f with out2 := y }

/-- The lines that DA output `o` has completed are written to its buffer; a refused write skips the rest (R286). -/
def daOutput (o : Nat) (v : IspView) (s : State) : IspFrame × State :=
  match v.f.buf o with
  | none => (v.f, s)
  | some k =>
    if v.f.flags / 2 ^ (5 + o) % 2 = 1 then (v.f, s)
    else
      let y0 := v.f.out o
      let y1 := v.linesOut o
      let r := writePieces v.ctx (v.bufDa o k) ((List.range (y1 - y0)).flatMap (fun i => v.pieces o (y0 + i))) s
      let s1 := if o = 2 then r.2.count (Pg.ispCam v.n) 4 (((List.range (y1 - y0)).map (fun i => v.mvSat (y0 + i))).foldl (· + ·) 0)
        else r.2
      if r.1 then (v.f.setOut o y1, s1)
      else ({ v.f with flags := v.f.flags ||| 2 ^ (5 + o) },
        errEvent (Pg.ispCam v.n) E.ispCam_DA_DENY (s1.count (Pg.ispCam v.n) 3 1))

/-- Byte `b` of plane `c`; bytes that hold no element are free. -/
def IspView.planeByte (v : IspView) (c b : Nat) : Byte :=
  let lb := v.pitch 2
  let y := b / lb
  let o := b % lb
  if y < v.oh 2 ∧ o < v.ow 2 * v.mvBytes then
    BitVec.ofNat 8 ((v.mvElem c y (o / v.mvBytes)).bits / 256 ^ (o % v.mvBytes))
  else BitVec.ofNat 8 (v.free (2 ^ 34 + c * 2 ^ 30 + b))

/-- The header row of a machine-vision frame (R285): the record as it stands, with the score still free and the rest of
the row free (log entry 32). -/
def mvHeader (c : IspCam) (v : IspView) : List Byte :=
  recordHead c v.f 0 (v.free (2 ^ 29) % 1025) ++ (List.range 448).map (fun b => BitVec.ofNat 8 (v.free (2 ^ 29 + 1 + b)))

/-- The completed stripes of a scratchpad output are committed to every region at once (R285). -/
def padOutput (v : IspView) (s : State) : IspFrame × State :=
  let y0 := v.f.out2
  let done := v.linesOut 2
  let y1 := if done = v.oh 2 then done else done / 32 * 32
  if !v.mvPad || v.f.mvOff || decide (y1 ≤ y0) then (v.f, s)
  else
    let r0 := v.planeRows y0
    let rows := v.planeRows y1 - r0
    let head := y0 == 0
    let n := v.mvCore
    if !s.mvAllowed v || !s.mvRoom v rows head then
      ({ v.f with mvOff := true, flags := v.f.flags ||| 128 }, countOverrun n (s.count (Pg.ispCam v.n) 3 1))
    else
      let s1 := if head then s.writeRow n ((s.rgn n v.mvRgn).rowHead 0) (mvHeader (s.cam v.n) v) 0 else s
      let s2 := (List.range v.mvPlanes).foldl (fun t c =>
          let h := if c = 0 ∧ head then 1 else 0
          let t1 := iter rows (fun j u => u.writeRow n ((s.rgn n (v.mvRgn + c)).rowHead (h + j))
            (mkRow (fun b => v.planeByte c ((r0 + j) * 512 + b))) 0) t
          advanceHead n (v.mvRgn + c) (rows + h) t1) s1
      let s3 := s2.count (Pg.spd3 n) 1 (rows * v.mvPlanes + if head then 1 else 0)
      ({ v.f with out2 := y1 },
        s3.count (Pg.ispCam v.n) 4 (((List.range (y1 - y0)).map (fun i => v.mvSat (y0 + i))).foldl (· + ·) 0))

/-- Line `y` of a stored frame as it comes back from DA (R280): poisoned or refused it is lost, and what something else
has written since is free. -/
def rawBack (y : Nat) (q : IspFrame × State) (n : Nat) : IspFrame × State :=
  let v := q.2.view n q.1
  let l := q.1.lines.getD y ⟨[], false⟩
  if !l.good then q
  else
    let r := daRead v.ctx (v.rawDa y) v.rawBytes q.2
    let d := if v.mono || v.yuv then 1 else 2
    if r.2.1 ≠ 0 ∨ !r.2.2.1 then
      let lostPx := if d ≤ y then (q.1.lines.getD (y - d) ⟨[], false⟩).px else List.replicate v.w 0
      ({ q.1 with lines := modNth q.1.lines y (fun _ => ⟨lostPx, false⟩), lost := q.1.lost + 1, flags := q.1.flags ||| 1 },
        r.2.2.2.count (Pg.ispCam n) 2 1)
    else if r.1 = v.rawLine y then (q.1, r.2.2.2)
    else
      ({ q.1 with lines := modNth q.1.lines y (fun _ =>
          ⟨(List.range v.w).map (fun x => v.free (2 ^ 35 + 2 ^ 34 + y * 8192 + x) % 2 ^ IspView.dtBits v.dt), true⟩) }, r.2.2.2)

/-- The stripe in the pipeline ends: up to 32 lines are finished, outputs take what is complete, and the pipeline is free
(R278, R285). -/
def stripeEnd (s : State) : State :=
  match s.isp.stripe with
  | none => s
  | some n =>
    match (s.cam n).head with
    | none => s.modIsp (fun z => { z with stripe := none })
    | some f =>
      let k := min 32 (f.lines.length - f.fin)
      let q := if f.fld (R.ISP_CAM_CFG n) F.ISP_CAM_CFG_STORED = 1 then iter k (fun i q => rawBack (f.fin + i) q n) (f, s) else (f, s)
      let g := { q.1 with fin := f.fin + k }
      let q0 := daOutput 0 (q.2.view n g) q.2
      let q1 := daOutput 1 (q0.2.view n q0.1) q0.2
      let q2 := daOutput 2 (q1.2.view n q1.1) q1.2
      let q3 := padOutput (q2.2.view n q2.1) q2.2
      let s1 := q3.2.setCam n ((q3.2.cam n).setHead q3.1)
      countFree (cntKey Pg.isp0 4) (s1.modIsp (fun z => { z with stripe := none }))

/-! ### The end of a frame (R287 to R289) -/

/-- The luma of a cell: ((R̄ + 2Ḡ + B̄ + 2) >> 2) >> 8. -/
def cellLuma (c : List Nat) : Nat := (c.getD 0 0 + 2 * c.getD 1 0 + c.getD 2 0 + 2) / 4 / 256

/-- The presence score of a frame's grid against the background, and the background after it (R289). -/
def presScore (delta : Nat) (bg : List Nat) (grid : List (List Nat)) : Nat × List Nat :=
  let l := grid.map cellLuma
  if bg.isEmpty then (0, l)
  else
    (((List.range 1024).filter (fun k => decide (delta < IspView.absDiff (l.getD k 0) (bg.getD k 0)))).length,
      (List.range 1024).map (fun k => ((bg.getD k 0 : Int) + ((l.getD k 0 : Int) - bg.getD k 0) / 16).toNat))

/-- Presence after a frame: the score, the camera's new state, and whether the score crosses. -/
def presence (c : IspCam) (v : IspView) (grid : List (List Nat)) : Nat × IspCam × Bool :=
  let a := R.ISP_STAT_CFG v.n
  if v.fld a F.ISP_STAT_CFG_PRES_EN = 0 then (0, { c with bg := [], score := none }, false)
  else
    let thr := v.fld a F.ISP_STAT_CFG_PRES_THR
    let p := presScore (v.fld a F.ISP_STAT_CFG_PRES_DELTA) c.bg grid
    let below := match c.score with | some q => decide (q < thr) | none => false
    let held := match c.crossed with | some q => decide (q + v.fld a F.ISP_STAT_CFG_PRES_HOLD ≤ v.f.count) | none => true
    let cross := decide (thr ≤ p.1) && below && held
    (p.1, { c with bg := p.2, score := some p.1, crossed := if cross then some v.f.count else c.crossed }, cross)

/-- A frame's processing ends (R287, R289, R260). -/
def frameDone (n : Nat) (s : State) : State :=
  match (s.cam n).head with
  | none => s
  | some f =>
    let v := s.view n f
    if !f.ended || decide (f.fin < v.h) || s.isp.stripe == some n then s
    else
      let grid := v.grid
      let p := presence (s.cam n) v grid
      let bs := recordHead (s.cam n) f 0 p.1 ++ v.hist.flatMap (leBytes 4) ++ grid.flatMap (fun c => c.flatMap (leBytes 2))
        ++ List.replicate 3008 0
      let s1 := (s.setCam n (p.2.1.dropHead f)).count Pg.isp0 0 1
      let s2 := if f.fld (R.ISP_CAM_CFG n) F.ISP_CAM_CFG_STORED = 1 then s1.count Pg.isp0 5 1 else s1
      let s3 := writeRecord n f bs (s2.count (Pg.ispCam n) 5 v.defects)
      if p.2.2 then
        let s4 := s3.count (Pg.ispCam n) 6 1
        if s4.flag R.BRZ_VWAKE F.BRZ_VWAKE_EN ∧ s4.fld R.BRZ_VWAKE F.BRZ_VWAKE_CAMERA = n then
          visionWake n (NumFmt.fp16.encode (Fv.ofDy ⟨(p.1 : Nat), -10⟩)).bits f.sample s4
        else s4
      else s3

/-- A write to ISP_OUT_REL (R286). -/
def ispOutRel (n o : Nat) (v : Word) (s : State) : State :=
  let c := s.cam n
  s.setCam n { c with held := c.held.filter (fun q => q != (o, v.toNat % 16)) }

/-! ### The lookup-table port (R282) -/

/-- Whether a bank of a camera's table is active, or a pending commit names it. -/
def State.bankBusy (s : State) (n table bank : Nat) : Bool :=
  let a := if table = 0 then R.ISP_TONE n else R.ISP_LSC n
  bitsOf (s.reg a).toNat 1 1 == bank
    || (s.txn (0x520 + n)).pend.any (fun c => c.writes.any (fun w =>
        w.addr == a && bitOf w.mask.toNat 1 && bitsOf w.val.toNat 1 1 == bank))

def lutKey (n bank table idx : Nat) : Nat := ((n * 2 + bank) * 2 + table) * 2048 + idx

/-- An access to ISP_LUT_DATA: `some` writes the word. -/
def lutData (w : Option Word) (s : State) : State :=
  let n := s.fld R.ISP_LUT_SEL F.ISP_LUT_SEL_CAMERA
  let bank := s.fld R.ISP_LUT_SEL F.ISP_LUT_SEL_BANK
  let table := s.fld R.ISP_LUT_SEL F.ISP_LUT_SEL_TABLE
  let idx := s.fld R.ISP_LUT_SEL F.ISP_LUT_SEL_INDEX
  let k := lutKey n bank table idx
  let s1 := s.setFld R.ISP_LUT_SEL F.ISP_LUT_SEL_INDEX (idx + 1)
  match w with
  | none => (s1.answers (Tab.get s.isp.lut 0 k))
  | some v =>
    if s.bankBusy n table bank then errEvent Pg.isp0 E.isp0_LUT_ACTIVE s1
    else s1.modIsp (fun z => { z with lut := Tab.set z.lut k v })

/-! ### Camera control (R290 to R293) -/

/-- A write to ISP_CC_POST. -/
def ccPost (b : Nat) (v : Word) (s : State) : State :=
  let x := s.ccBus b
  if 16 ≤ x.posted.length + x.due.length then errEvent (Pg.ispBus b) E.ispBus_POST_FULL s
  else
    let q : CcPacket := ⟨wordFld v F.ISP_CC_POST_CAMERA, s.fld (R.ISP_CC_ID b) F.ISP_CC_ID_ID, wordFld v F.ISP_CC_POST_FIRST,
      wordFld v F.ISP_CC_POST_COUNT, s.isp.posts, 0⟩
    (s.modIsp (fun z => { z with posts := z.posts + 1 })).setCcBus b { x with posted := x.posted ++ [q] }

/-- Whether an entry of command memory belongs to a queued or sending packet. -/
def CcBus.entryBusy (x : CcBus) (e : Nat) : Bool :=
  (x.posted ++ x.due).any (fun q => decide ((e + 512 - q.first) % 512 < q.cnt))

/-- An access to ISP_CC_MEM_DATA: `some` writes the word. -/
def ccMemData (b : Nat) (w : Option Word) (s : State) : State :=
  let a := s.fld (R.ISP_CC_MEM_ADDR b) F.ISP_CC_MEM_ADDR_ADDR
  let x := s.ccBus b
  let s1 := s.setFld (R.ISP_CC_MEM_ADDR b) F.ISP_CC_MEM_ADDR_ADDR (a + 1)
  match w with
  | none => (s1.answers (Tab.get x.mem 0 a))
  | some v =>
    if x.entryBusy (a / 2) then errEvent (Pg.ispBus b) E.ispBus_MEM_BUSY s1
    else s1.setCcBus b { x with mem := Tab.set x.mem a v }

/-- A settings event recorded for a camera (R292). -/
def addSens (n : Nat) (e : SensEvt) (s : State) : State := s.setCam n { s.cam n with sens := (s.cam n).sens ++ [e] }

/-- The packet on the bus leaves it: `ok` complete, else abandoned (R292, R293). -/
def packetOut (b : Nat) (q : CcPacket) (ok : Bool) (s : State) : State :=
  let x := s.ccBus b
  let s1 := s.setCcBus b { x with due := x.due.drop 1 }
  let d := s.camFld q.cam F.ISP_CAM_CFG_SENS_DELAY
  if !ok then addSens q.cam ⟨q.frame + d, none, false, true⟩ (s1.count (Pg.ispBus b) 3 1)
  else if (s.cam q.cam).count = q.frame then addSens q.cam ⟨q.frame + d, some q.id, false, false⟩ s1
  else
    addSens q.cam ⟨q.frame + d, some q.id, true, false⟩
      (errEvent (Pg.ispBus b) E.ispBus_SET_LATE (s1.count (Pg.ispBus b) 4 1))

/-- The packet on bus `b` completes, or is abandoned after a NAK persisted, with its writes and retries counted. -/
def ccPacketDone (b writes retries : Nat) (ok : Bool) (s : State) : State :=
  match (s.ccBus b).due with
  | [] => s
  | q :: _ =>
    if !s.flag (R.ISP_CC_CFG b) F.ISP_CC_CFG_EN || !s.domOn 27 then s
    else
      let s1 := (s.count (Pg.ispBus b) 0 (if ok then q.cnt else writes)).count (Pg.ispBus b) 1 retries
      let s2 := if ok then s1
        else logPartner (Pg.ispBus b) E.ispBus_NAK_FAIL LogKind.ccBus b (errEvent (Pg.ispBus b) E.ispBus_NAK_FAIL s1)
      packetOut b q ok s2

/-- A bus stays stuck for 1 ms and is reset (R293). -/
def ccBusTimeout (b : Nat) (s : State) : State :=
  if !s.flag (R.ISP_CC_CFG b) F.ISP_CC_CFG_EN || !s.domOn 27 then s
  else
    let s1 := logPartner (Pg.ispBus b) E.ispBus_BUS_RESET LogKind.ccBus b
      (errEvent (Pg.ispBus b) E.ispBus_BUS_RESET (s.count (Pg.ispBus b) 2 1))
    match (s1.ccBus b).due with
    | [] => s1
    | q :: _ => packetOut b q false s1

end Sys2Proof.Machine
end

