-- ==== Sys2Proof/Machine/Video.lean ====
section
/-! DEFINITION. Machine/Video.lean: decode contexts, engines and the transform engine (R301 to R323). What a bitstream
says is an operand, since the manual only names the codecs; the samples of decoded pictures are free values. -/

namespace Sys2Proof.Machine

def State.modVid (s : State) (f : Video → Video) : State := { s with video := f s.video }
def State.dec (s : State) (c : Nat) : DecCtx := Tab.get s.video.ctxs {} c
def State.eng (s : State) (e : Nat) : DecEng := Tab.get s.video.engs {} e
def State.setEng (s : State) (e : Nat) (x : DecEng) : State := s.modVid (fun z => { z with engs := Tab.set z.engs e x })

/-- Context `c` of the 32 is feed 16 + c. -/
def decFeed (c : Nat) : Nat := 16 + c

/-- Output slots of a context's pool: what references leave of 20 (R303). -/
def DecCtx.outSlots (x : DecCtx) : Nat := 20 - x.refs.length

/-- Whether every output slot waits for the transform engine (R304). -/
def DecCtx.paused (x : DecCtx) : Bool := decide (x.outSlots ≤ x.out.length)

/-- STATE of R321. -/
def State.decState (s : State) (c : Nat) (x : DecCtx) : Nat :=
  match x.cur with
  | some _ =>
    if (s.eng (c / 8)).run == some c then 3 else 2
  | none =>
    if !s.flag (R.DEC_CTX_CFG c) F.DEC_CTX_CFG_EN then 0
    else if x.paused then 4 else if x.discard then 5 else 1

/-- DEC_CTX_STATUS follows the context. -/
def decStatus (c : Nat) (s : State) : State :=
  s.setFld (R.DEC_CTX_STATUS c) F.DEC_CTX_STATUS_STATE (s.decState c (s.dec c))

/-- The state of a context replaced; paused cycles are counted when it leaves the pause (R304). -/
def State.setDec (s : State) (c : Nat) (x : DecCtx) : State :=
  let was := (s.dec c).paused
  let s1 := decStatus c (s.modVid (fun z => { z with ctxs := Tab.set z.ctxs c x }))
  if was && !x.paused then countFree (cntKey (Pg.decCtx c) 6) s1 else s1

/-- Whether the decode group is on, or draining towards an entry (R323). -/
def State.decAwake (s : State) : Bool := s.domOn 28 || s.domState 28 == 3

def State.decCtx (s : State) (c : Nat) : Nat := s.fld (R.DEC_CTX_CFG c) F.DEC_CTX_CFG_CTX

/-! ### Records (R315) -/

/-- The 64 bytes of a picture record. -/
def picRecord (p : DecPic) (err flags kr4s buf : Nat) : List Byte :=
  leBytes 4 p.count ++ leBytes 4 p.tag ++ leBytes 1 err ++ leBytes 1 flags ++ leBytes 2 p.unfilled
    ++ leBytes 2 (min p.w 65535) ++ leBytes 2 (min p.h 65535) ++ leBytes 8 p.capture ++ leBytes 8 p.done
    ++ leBytes 4 (p.used / 256) ++ leBytes 4 kr4s ++ leBytes 4 p.source ++ leBytes 4 p.frame ++ leBytes 1 buf
    ++ List.replicate 15 0

/-- A record goes to the next slot of a context's ring; a refused write is discarded and WR stays (log entry 31). -/
def writePicRecord (c : Nat) (bs : List Byte) (s : State) : State :=
  let wr := s.fld (R.DEC_REC_PTR c) F.DEC_REC_PTR_WR
  let x := s.decCtx c
  if ringFull 12 wr (s.fld (R.DEC_REC_PTR c) F.DEC_REC_PTR_RD) then
    errEvent (Pg.decCtx c) E.decCtx_REC_LOST (s.count (Pg.decCtx c) 7 1)
  else
    let da := s.pair (R.DEC_REC_LO c) (R.DEC_REC_HI c)
    let r := daWrite x (da + 64 * (wr % 4096)) 0 bs s
    if r.1 then
      feedSignal (decFeed c) x (r.2.setFld (R.DEC_REC_PTR c) F.DEC_REC_PTR_WR
        (ringNext 12 (s.fld (R.DEC_REC_SLOTS c) F.DEC_REC_SLOTS_SLOTS) wr))
    else r.2

/-! ### Fetching (R302, R304) -/

/-- Pictures that still wait become output pictures in the order given, the others after them (R304). -/
def flushOut (c : Nat) (order : List Nat) (s : State) : State :=
  let x := s.dec c
  let named := order.filterMap (fun i => x.waiting.find? (fun p => p.id == i))
  let rest := x.waiting.filter (fun p => !order.contains p.id)
  let q := (named.eraseDups ++ rest).zipIdx.map (fun p =>
    { p.1 with stamp := s.video.stamps + p.2, count := (x.count + p.2 + 1) % 2 ^ 32 })
  (s.modVid (fun z => { z with stamps := z.stamps + q.length })).setDec c
    { x with waiting := [], out := x.out ++ q, count := (x.count + q.length) % 2 ^ 32 }

/-- A little-endian field of a byte list. -/
def leAt (bs : List Byte) (off n : Nat) : Nat := ofLeBytes ((bs.drop off).take n)

/-- A context joins its engine's ready queue (R308). -/
def joinReady (c : Nat) (s : State) : State :=
  let e := s.eng (c / 8)
  decStatus c (s.setEng (c / 8) { e with ready := e.ready ++ [c] })

/-- The entry's picture waits for the cache lookup before it is decoded (R318). -/
def DecPic.lookFirst (p : DecPic) (sets : Nat) : Bool :=
  bitOf p.auFlags 1 && bitOf p.auFlags 2 && !bitOf p.auFlags 4 && sets != 0 && !p.missed

/-- A context fetches its next AU entry (R302, R304). A refused or poisoned entry is passed over (log entry 33). -/
def auFetch (c : Nat) (s : State) : State :=
  let x := s.dec c
  let wr := s.fld (R.DEC_AU_PTR c) F.DEC_AU_PTR_WR
  let rd := s.fld (R.DEC_AU_PTR c) F.DEC_AU_PTR_RD
  if !s.flag (R.DEC_CTX_CFG c) F.DEC_CTX_CFG_EN || x.paused || x.cur.isSome || wr == rd || !s.domOn 28 then s
  else
    let r := daRead (s.decCtx c) (s.pair (R.DEC_AU_LO c) (R.DEC_AU_HI c) + 32 * (rd % 4096)) 32 s
    let s1 := (r.2.2.2.setFld (R.DEC_AU_PTR c) F.DEC_AU_PTR_RD
      (ringNext 12 (s.fld (R.DEC_AU_SLOTS c) F.DEC_AU_SLOTS_SLOTS) rd)).count (Pg.decCtx c) 0 1
    if !r.2.2.1 then errEvent (Pg.decCtx c) E.decCtx_AU_DENY s1
    else if r.2.1 ≠ 0 then s1
    else
      let bs := r.1
      let fl := leAt bs 6 1
      let p : DecPic := { id := x.nextId, da := leAt bs 0 6, auFlags := fl, bytes := leAt bs 8 4, tag := leAt bs 12 4,
                          capture := if bitOf fl 0 then leAt bs 16 8 else s.dtime, source := leAt bs 24 4, frame := leAt bs 28 4 }
      if p.lookFirst (s.fld (R.DEC_CACHE_GEOM c) F.DEC_CACHE_GEOM_SETS) then
        let q := { p with stamp := s.video.stamps, count := (x.count + 1) % 2 ^ 32 }
        (s1.modVid (fun z => { z with stamps := z.stamps + 1 })).setDec c
          { x with cur := some p, nextId := x.nextId + 1, out := x.out ++ [q], count := (x.count + 1) % 2 ^ 32 }
      else joinReady c (s1.setDec c { x with cur := some p, nextId := x.nextId + 1 })

/-- A write to DEC_AU_PTR has moved WR. -/
def auPtrMoved (c : Nat) (s : State) : State := decStatus c s

/-! ### Decoding (R305 to R309) -/

/-- Whether a sequence header passes the checks of R305. -/
def State.hdrOk (s : State) (c : Nat) (h : SeqHdr) : Bool :=
  h.ok && decide (h.w ≤ s.fld (R.DEC_CTX_MAX c) F.DEC_CTX_MAX_MAX_W) && decide (h.h ≤ s.fld (R.DEC_CTX_MAX c) F.DEC_CTX_MAX_MAX_H)
    && decide (h.bits ≤ if s.flag (R.DEC_CTX_CFG c) F.DEC_CTX_CFG_MAX_BITS then 10 else 8)

/-- The engine leaves the context's picture. -/
def engFree (e : Nat) (s : State) : State := s.setEng e { s.eng e with run := none }

/-- The free engine starts the picture longest in its ready queue (R305, R308). `info` is what a first parse finds. -/
def decodeStart (e : Nat) (info : AuInfo) (s : State) : State :=
  let g := s.eng e
  match g.run, g.ready with
  | none, c :: rest =>
    match (s.dec c).cur with
    | none => s.setEng e { g with ready := rest }
    | some p =>
      if !s.domOn 28 then s
      else
        let s0 := s.setEng e { run := none, ready := rest, last := some c }
        let s1 := if g.last = some c ∨ g.last = none then s0 else s0.count (Pg.decEng e) 3 1
        let go : State → State := fun t => decStatus c (t.setEng e { t.eng e with run := some c })
        if p.used ≠ 0 then go s1
        else
          let pass := match info.hdr with | some h => s.hdrOk c h | none => true
          let x := s1.dec c
          if !pass then
            let q := { p with w := (info.hdr.getD ⟨0, 0, 0, true⟩).w, h := (info.hdr.getD ⟨0, 0, 0, true⟩).h, done := s.dtime, count := x.count }
            writePicRecord c (picRecord q 0x20 q.flags 0 255)
              (((s1.setDec c { x with cur := none, discard := true }).count (Pg.decCtx c) 2 1).count Pg.dec0 2 1)
          else if x.discard && !(info.hdr.isSome && info.rap) then s1.setDec c { x with cur := none }
          else
            let s2 := if bitOf p.auFlags 3 then flushOut c info.order s1 else s1
            let y := s2.dec c
            let w := match info.hdr with | some h => h.w | none => y.w
            let h := match info.hdr with | some h => h.h | none => y.h
            let y1 : DecCtx := { y with discard := false, w := w, h := h,
                                        refs := if bitOf p.auFlags 3 then [] else y.refs,
                                        damaged := if info.rap || bitOf p.auFlags 3 then [] else y.damaged,
                                        cur := some { p with w := w, h := h, regs := s.regs.filter (fun r => r.1 / 4096 == 0x590 + c) } }
            go (s2.setDec c y1)
  | _, _ => s

/-- A register of the context page as a picture latched it (R319). -/
def DecPic.fld (p : DecPic) (a : Nat) (g : Fld) : Nat :=
  wordFld (match Tab.find p.regs a with | some w => w | none => regReset a) g

/-- The budget of a picture in SCLK cycles (R309). -/
def DecPic.budget (p : DecPic) (c : Nat) : Nat := p.fld (R.DEC_CTX_BUDGET c) F.DEC_CTX_BUDGET_BUDGET * 256

/-- A slot of the pool that nothing holds. -/
def DecCtx.freeSlot (x : DecCtx) : Nat :=
  (leastBelow 20 (fun k => !x.refs.any (fun r => r.2 == k) && !(x.waiting ++ x.out).any (fun p => p.slot == some k))).getD 0

/-- Bytes of a picture's pool slot (R303). -/
def DecPic.slotBytes (p : DecPic) (c : Nat) : Nat :=
  ceilDiv p.w 64 * ceilDiv p.h 64 * 6144 * (1 + p.fld (R.DEC_CTX_CFG c) F.DEC_CTX_CFG_MAX_BITS)

/-- DA of a pool slot, slots being as large as the context's maxima need. -/
def DecPic.slotDa (p : DecPic) (c k : Nat) : Nat :=
  (p.fld (R.DEC_POOL_LO c) F.DEC_POOL_LO_POOL_DA + 2 ^ 32 * p.fld (R.DEC_POOL_HI c) F.DEC_POOL_HI_POOL_DA)
    + k * (ceilDiv (p.fld (R.DEC_CTX_MAX c) F.DEC_CTX_MAX_MAX_W) 64 * ceilDiv (p.fld (R.DEC_CTX_MAX c) F.DEC_CTX_MAX_MAX_H) 64
      * 6144 * (1 + p.fld (R.DEC_CTX_CFG c) F.DEC_CTX_CFG_MAX_BITS))

/-- The picture's samples are written into slot `k`: free bytes. -/
def fillSlot (c k : Nat) (p : DecPic) (s : State) : Bool × State :=
  let n := p.slotBytes c
  daWrite (s.decCtx c) (p.slotDa c k) 0 ((List.range n).map (fun b => BitVec.ofNat 8 (Config.freeNat (s.free + b)))) (s.drew n)

/-- The references that a context keeps after a picture: pictures that hold a slot. -/
def DecCtx.keepRefs (x : DecCtx) (keep : List Nat) (id slot : Nat) : List (Nat × Nat) :=
  ((x.refs ++ [(id, slot)]).filter (fun r => keep.contains r.1)).take 16

/-- Output pictures of the next turns: `bump` names waiting pictures in order (R304). -/
def bumpOut (c : Nat) (bump : List Nat) (s : State) : State :=
  let x := s.dec c
  let q := ((bump.filterMap (fun i => x.waiting.find? (fun p => p.id == i))).eraseDups).zipIdx.map (fun p =>
    { p.1 with stamp := s.video.stamps + p.2, count := (x.count + p.2 + 1) % 2 ^ 32 })
  (s.modVid (fun z => { z with stamps := z.stamps + q.length })).setDec c
    { x with waiting := x.waiting.filter (fun p => !bump.contains p.id), out := x.out ++ q, count := (x.count + q.length) % 2 ^ 32 }

/-- A picture's decoding ends (R304, R306, R307). -/
def decodeDone (e : Nat) (info : PicInfo) (s : State) : State :=
  let g := s.eng e
  match g.run with
  | none => s
  | some c =>
    let x := s.dec c
    match x.cur with
    | none => engFree e s
    | some p =>
      if !s.decAwake then s
      else
        let r := daRead (s.decCtx c) p.da p.bytes s
        let pool := x.refs.filter (fun q => info.preds.contains q.1)
        let t := pool.foldl (fun (a : Bool × Bool × State) q =>
          let b := daRead (a.2.2.decCtx c) (p.slotDa c q.2) (p.slotBytes c) a.2.2
          (a.1 || !b.2.2.1, a.2.1 || b.2.1 != 0, b.2.2.2)) (!r.2.2.1, r.2.1 != 0, r.2.2.2)
        let k := x.freeSlot
        let f := fillSlot c k p t.2.2
        let denied := t.1 || !f.1
        let trunc := info.trunc.isSome || denied || t.2.1
        let damaged := info.missing || info.preds.any (fun i => x.damaged.contains i)
        let q : DecPic := { p with
          used := p.used + info.cycles
          done := s.dtime
          decoded := true
          slot := some k
          unfilled := if trunc then info.trunc.getD (Config.freeNat f.2.free % 65536) else 0
          err := if trunc then 0x21 else 0
          flags := p.flags ||| (if damaged then 1 else 0) ||| (if t.2.1 then 2 else 0) ||| (if denied then 4 else 0)
          shown := info.display && !bitOf p.auFlags 4 }
        let s1 := ((f.2.drew 1).count Pg.dec0 0 1).count (Pg.decEng e) 1 1
        let s2 := (countFree (cntKey (Pg.decEng e) 4) s1).count (Pg.decEng e) 0 info.cycles
        let s3 := if trunc then (s2.count (Pg.decCtx c) 3 1).count Pg.dec0 3 1 else s2
        let s4 := if damaged then s3.count (Pg.decCtx c) 5 1 else s3
        let y : DecCtx := { x with
          cur := none
          refs := x.keepRefs info.keep p.id k
          damaged := if trunc || damaged then x.damaged ++ [p.id] else x.damaged
          waiting := if q.shown then x.waiting ++ [q] else x.waiting }
        bumpOut c info.bump (engFree e (s4.setDec c y))

/-- A picture's used time reaches 32 times its budget (R309). -/
def abandon (e c unfilled : Nat) (keep : List Nat) (p : DecPic) (s : State) : State :=
  let x := s.dec c
  let k := x.freeSlot
  let q := { p with done := s.dtime, unfilled := unfilled, count := x.count }
  let f := fillSlot c k q s
  let y : DecCtx := { x with cur := none, refs := x.keepRefs keep p.id k, damaged := x.damaged ++ [p.id] }
  writePicRecord c (picRecord q 0x22 q.flags 0 255)
    ((engFree e ((f.2.setDec c y).count (Pg.decCtx c) 4 1)).count Pg.dec0 4 1)

/-- The used time of the picture on engine `e` reaches the limit of R309 at any point. -/
def decodeAbandon (e unfilled : Nat) (keep : List Nat) (s : State) : State :=
  match (s.eng e).run with
  | none => s
  | some c =>
    match (s.dec c).cur with
    | none => s
    | some p =>
      let b := p.budget c
      if b = 0 ∨ !s.decAwake then s
      else abandon e c unfilled keep { p with used := 32 * b } (s.count (Pg.decEng e) 0 (32 * b - p.used))

/-- A slice or tile boundary after `cycles` more engine cycles: a picture over budget gives way to one that waits, and at
the limit it is abandoned instead (R309, R323). -/
def sliceBoundary (e cycles unfilled : Nat) (keep : List Nat) (s : State) : State :=
  let g := s.eng e
  match g.run with
  | none => s
  | some c =>
    match (s.dec c).cur with
    | none => s
    | some p =>
      if !s.decAwake then s
      else
        let b := p.budget c
        let u := p.used + cycles
        let s1 := s.count (Pg.decEng e) 0 cycles
        if b ≠ 0 ∧ 32 * b ≤ u then abandon e c unfilled keep { p with used := 32 * b } s1
        else if b ≠ 0 ∧ b < u ∧ g.ready ≠ [] then
          let s2 := s1.setEng e { g with run := none, ready := g.ready ++ [c] }
          (s2.setDec c { s2.dec c with cur := some { p with used := u, flags := p.flags ||| 16 } }).count (Pg.decEng e) 2 1
        else s1.setDec c { s1.dec c with cur := some { p with used := u } }

/-! ### The transform engine (R310 to R318) -/

/-- A run's latched XFM word and field. -/
def XfmRun.reg (r : XfmRun) (a : Nat) : Word :=
  match Tab.find r.copy a with
  | some w => w
  | none => regReset a

def XfmRun.fld (r : XfmRun) (a : Nat) (g : Fld) : Nat := wordFld (r.reg a) g
def XfmRun.cfg (r : XfmRun) (g : Fld) : Nat := r.fld (R.XFM_CFG r.c) g

/-- NCH of R312. -/
def nchOf (chan : Nat) : Nat := if chan = 2 then 1 else 3

/-- Rows of a context's tensor: a header row and its planes. -/
def State.xfmRows (s : State) (c : Nat) : Nat :=
  nchOf (s.fld (R.XFM_CFG c) F.XFM_CFG_CHAN) * s.fld (R.XFM_LINE c) F.XFM_LINE_PLANE_ROWS

def crcStep (c : Nat) : Nat := if c % 2 = 1 then (c / 2) ^^^ 0xEDB88320 else c / 2

/-- The CRC-32 of IEEE 802.3 over bytes. -/
def crc32 (bs : List Byte) : Nat :=
  (bs.foldl (fun c b => iter 8 (fun _ x => crcStep x) (c ^^^ b.toNat)) 0xFFFFFFFF) ^^^ 0xFFFFFFFF

/-- XKEY of R317. -/
def State.xkey (s : State) (c : Nat) : Nat :=
  crc32 (leBytes 4 ((s.reg (R.XFM_CFG c)).toNat % 65536 / 4 * 4)
    ++ (List.range 12).flatMap (fun k => leBytes 4 (s.reg (R.XFM_CROP c 0 + 4 * k)).toNat))

/-- The set that a picture's key selects. -/
def cacheSet (sets source frame : Nat) : Nat := (source ^^^ (frame * 0x9E3779B1 % 2 ^ 32)) % sets

/-- DA of a way of a picture's set (log entry 34). -/
def State.wayDa (s : State) (c : Nat) (p : DecPic) (way : Nat) : Nat :=
  let geo := R.DEC_CACHE_GEOM c
  s.pair (R.DEC_CACHE_LO c) (R.DEC_CACHE_HI c)
    + (cacheSet (s.fld geo F.DEC_CACHE_GEOM_SETS) p.source p.frame * s.fld geo F.DEC_CACHE_GEOM_WAYS + way)
      * s.fld geo F.DEC_CACHE_GEOM_ENTRY_ROWS * 512

/-- Whether a tag sector is valid and holds the key. -/
def tagMatches (t : List Byte) (p : DecPic) (xkey : Nat) : Bool :=
  leAt t 0 1 != 0 && leAt t 4 4 == p.source && leAt t 8 4 == p.frame && leAt t 12 4 == xkey

/-- The lookup of R318: the matching way with its tag, reading every way's tag; a poisoned tag misses. -/
def cacheLook (c : Nat) (p : DecPic) (s : State) : Option (Nat × List Byte) × State :=
  let key := s.xkey c
  (List.range (s.fld (R.DEC_CACHE_GEOM c) F.DEC_CACHE_GEOM_WAYS)).foldl (fun q w =>
    let r := daRead (s.decCtx c) (s.wayDa c p w) 512 q.2
    (if q.1.isNone && r.2.2.1 && r.2.1 == 0 && tagMatches r.1 p key then some (s.wayDa c p w, r.1) else q.1, r.2.2.2)) (none, s)

/-- Whether a destination of context `c` can take a picture: its region with room, or its next buffer (R313). -/
def State.xfmRoom (s : State) (c : Nat) : Bool :=
  if s.fld (R.XFM_CFG c) F.XFM_CFG_DEST = 0 then
    decide (1 + s.xfmRows c ≤ (s.rgn (s.fld (R.XFM_CFG c) F.XFM_CFG_CORE) (s.fld (R.XFM_CFG c) F.XFM_CFG_REGION)).free)
  else !s.video.held.contains (c, Tab.get s.video.next 0 c)

/-- Whether the region may be written by the feed (R132). -/
def State.xfmAllowed (s : State) (c : Nat) : Bool :=
  let n := s.fld (R.XFM_CFG c) F.XFM_CFG_CORE
  let g := s.fld (R.XFM_CFG c) F.XFM_CFG_REGION
  s.fld (R.XFM_CFG c) F.XFM_CFG_DEST == 1
    || (decide (n < 18) && s.domOn n && s.accessOk n (s.decCtx c) g (some ⟨4, decFeed c⟩) && !(s.rgn n g).raw)

/-- The contexts whose next output picture is ready, the oldest first (R316 names it the first of each feed). -/
def State.xfmNext (s : State) (p : Nat → Bool) : Option Nat :=
  ((List.range 32).foldl (fun (m : Option (Nat × Nat)) c =>
    match (s.dec c).out with
    | [] => m
    | q :: _ =>
      if s.flag (R.XFM_CFG c) F.XFM_CFG_EN && p c then
        (match m with
          | none => some (q.stamp, c)
          | some r => if q.stamp < r.1 then some (q.stamp, c) else some r)
      else m) none).map (·.2)

/-- The first output picture of a context leaves its queue. -/
def popOut (c : Nat) (s : State) : State := let x := s.dec c; s.setDec c { x with out := x.out.drop 1 }

/-- A picture dropped as stale (R316). One that is not decoded yet is decoded for its references only. -/
def dropStalePic (c : Nat) (p : DecPic) (s : State) : State :=
  let s1 := (countStale (decFeed c) (popOut c s)).count (Pg.xfm c) 3 1
  let s2 := if p.decoded then s1
    else
      let x := s1.dec c
      joinReady c (s1.setDec c { x with cur := x.cur.map (fun q => { q with auFlags := q.auFlags ||| 16, missed := true }) })
  writePicRecord c (picRecord p 0x23 p.flags 0 255) s2

/-- The picture is taken by the transform engine, with its buffer if it goes to DA. -/
def takeXfm (c : Nat) (p : DecPic) (hit : Option (Nat × List Byte)) (s : State) : State :=
  let toDa := s.fld (R.XFM_CFG c) F.XFM_CFG_DEST == 1
  let k := Tab.get s.video.next 0 c
  let s1 := popOut c s
  let s2 := s1.modVid (fun z => { z with
    run := some ⟨c, p, s.regs.filter (fun r => r.1 / 4096 == 0x5C0 + c), hit, if toDa then some k else none⟩
    held := if toDa then z.held ++ [(c, k)] else z.held
    next := if toDa then Tab.set z.next c ((k + 1) % max 1 (s.fld (R.XFM_CFG c) F.XFM_CFG_NBUF)) else z.next })
  countFree (cntKey (Pg.xfm c) 6) s2

/-- The transform engine starts the oldest ready picture whose destination has room (R316 to R318). -/
def xfmStart (s : State) : State :=
  if s.video.run.isSome || !s.domOn 28 then s
  else
    match s.xfmNext (fun c => s.xfmAllowed c && s.xfmRoom c) with
    | none =>
      match s.xfmNext (fun c => !s.xfmAllowed c) with
      | some c => countOverrun (s.fld (R.XFM_CFG c) F.XFM_CFG_CORE) s
      | none => s
    | some c =>
      match (s.dec c).out with
      | [] => s
      | p :: _ =>
        if s.stale (decFeed c) p.capture then dropStalePic c p s
        else if bitOf p.auFlags 1 && !p.missed && s.fld (R.DEC_CACHE_GEOM c) F.DEC_CACHE_GEOM_SETS != 0 then
          let q := cacheLook c p s
          match q.1 with
          | some h =>
            let s1 := if p.decoded then q.2 else q.2.setDec c { q.2.dec c with cur := none }
            takeXfm c p (some h) s1
          | none =>
            let s1 := q.2.count (Pg.xfm c) 5 1
            if p.decoded then takeXfm c { p with missed := true } none s1
            else
              let x := s1.dec c
              joinReady c (s1.setDec c { x with cur := x.cur.map (fun q => { q with missed := true }),
                                                out := x.out.filter (fun o => o.id != p.id), count := x.count - 1 })
        else takeXfm c p none s

/-! #### The elements of a transform (R310, R311) -/

/-- 0.5 and 1 as FP32 encodings. -/
def fpHalf : Nat := 0x3F000000
def fpOne : Nat := 0x3F800000

/-- The crop window, a zero size standing for the whole picture (R310). -/
def XfmRun.cw (r : XfmRun) : Nat := let k := r.fld (R.XFM_CROP r.c 1) F.XFM_CROP_A; if k = 0 then r.pic.w else k
def XfmRun.ch (r : XfmRun) : Nat := let k := r.fld (R.XFM_CROP r.c 1) F.XFM_CROP_B; if k = 0 then r.pic.h else k

/-- The source point (sx, sy) of output element (x, y), as FP32 encodings. The sine and cosine of an angle other than
zero, whose rounding the manual does not give, are the free values `i0` and `i0` + 1 (log entry 35). -/
def XfmRun.source (r : XfmRun) (i0 x y : Nat) : Nat × Nat :=
  let k := r.cfg F.XFM_CFG_ROT90
  let w' := fpInt (if k % 2 = 0 then r.cw else r.ch)
  let h' := fpInt (if k % 2 = 0 then r.ch else r.cw)
  let ow := fpInt (r.fld (R.XFM_SIZE r.c) F.XFM_SIZE_OW)
  let oh := fpInt (r.fld (R.XFM_SIZE r.c) F.XFM_SIZE_OH)
  let ang := (r.reg (R.XFM_ANGLE r.c)).toNat % 2 ^ 31
  let co := if ang = 0 then fpOne else Config.freeNat i0 % 2 ^ 32
  let si := if ang = 0 then 0 else Config.freeNat (i0 + 1) % 2 ^ 32
  let two := fpInt 2
  let dx := fpSub (fpDiv (fpMul (fpAdd (fpInt x) fpHalf) w') ow) (fpDiv w' two)
  let dy := fpSub (fpDiv (fpMul (fpAdd (fpInt y) fpHalf) h') oh) (fpDiv h' two)
  let a0 := fpAdd (fpAdd (fpMul dx co) (fpMul dy si)) (fpDiv w' two)
  let b0 := fpAdd (fpAdd (fpMul (fpNeg dx) si) (fpMul dy co)) (fpDiv h' two)
  let a := if r.cfg F.XFM_CFG_FLIP_H = 1 then fpSub w' a0 else a0
  let b := if r.cfg F.XFM_CFG_FLIP_V = 1 then fpSub h' b0 else b0
  let cw := fpInt r.cw
  let ch := fpInt r.ch
  let pq : Nat × Nat := match k with
    | 0 => (a, b)
    | 1 => (b, fpSub ch a)
    | 2 => (fpSub cw a, fpSub ch b)
    | _ => (fpSub cw b, a)
  (fpSub (fpAdd (fpInt (r.fld (R.XFM_CROP r.c 0) F.XFM_CROP_A)) pq.1) fpHalf,
   fpSub (fpAdd (fpInt (r.fld (R.XFM_CROP r.c 0) F.XFM_CROP_B)) pq.2) fpHalf)

/-- Whether a coordinate lies in [−0.5, size − 0.5]. -/
def coordIn (v size : Nat) : Bool :=
  match (fp32 v).toDy with
  | some d => Dy.le ⟨-1, -1⟩ d && Dy.le d ⟨2 * (size : Int) - 1, -1⟩
  | none => false

/-- The code of element (c, y, x): FILL where its point lies outside the picture, else free, since decoded samples are. -/
def XfmRun.elem (r : XfmRun) (i0 : Nat) (f : NumFmt) (s : Dy) (c y x : Nat) : Nat :=
  let q := r.source i0 x y
  if coordIn q.1 r.pic.w && coordIn q.2 r.pic.h then Config.freeNat (i0 + 2 + (c * 8192 + y) * 8192 + x) % 2 ^ f.bits
  else (f.quant (fp32 (r.reg (R.XFM_FILL r.c)).toNat) s).bits

/-- The scale of the output: XFM_SCALE, or for KR4 the tensor's max-abs, which is free as the samples are. -/
def XfmRun.scale (r : XfmRun) (i0 : Nat) (f : NumFmt) : Nat :=
  if f = .kr4 then Config.freeNat (i0 + 2 ^ 30) % 2 ^ 32 else (r.reg (R.XFM_SCALE r.c)).toNat

/-- The plane rows of a transform. -/
def XfmRun.planes (r : XfmRun) (i0 : Nat) : List (List Byte) :=
  let f := (NumFmt.ofCode (r.cfg F.XFM_CFG_FMT)).getD .fp32
  let s := ((fp32 (r.scale i0 f)).toDy).getD Dy.zero
  let pr := r.fld (R.XFM_LINE r.c) F.XFM_LINE_PLANE_ROWS
  (List.range (nchOf (r.cfg F.XFM_CFG_CHAN))).flatMap (fun c =>
    (planeRows 0 pr (r.fld (R.XFM_LINE r.c) F.XFM_LINE_LINE_BYTES) f.bits (r.fld (R.XFM_SIZE r.c) F.XFM_SIZE_OH)
      (r.fld (R.XFM_SIZE r.c) F.XFM_SIZE_OW) (r.elem i0 f s c)).map (·.2))

/-- SCLK cycles of a transform without tier stalls (R312). -/
def XfmRun.cycles (r : XfmRun) : Nat :=
  let one := 64 + ceilDiv (r.fld (R.XFM_SIZE r.c) F.XFM_SIZE_OW * r.fld (R.XFM_SIZE r.c) F.XFM_SIZE_OH * nchOf (r.cfg F.XFM_CFG_CHAN))
    (if r.cfg F.XFM_CFG_FILTER = 0 then 4 else 2)
  if NumFmt.ofCode (r.cfg F.XFM_CFG_FMT) = some .kr4 then 2 * one else one

/-- The entry to fill on a miss: an invalid way, or the one with the lowest FILL_SEQ (R318). -/
def fillWay (c : Nat) (p : DecPic) (s : State) : Nat × State :=
  let q := (List.range (s.fld (R.DEC_CACHE_GEOM c) F.DEC_CACHE_GEOM_WAYS)).foldl (fun (q : Option (Nat × Nat) × State) w =>
    let r := daRead (s.decCtx c) (s.wayDa c p w) 512 q.2
    let key := if leAt r.1 0 1 = 0 then 0 else 1 + leAt r.1 16 4
    (match q.1 with
      | none => some (key, w)
      | some m => if key < m.1 then some (key, w) else some m, r.2.2.2)) ((none : Option (Nat × Nat)), s)
  ((q.1.map (·.2)).getD 0, q.2)

/-- The tensor is stored in the cache (R318): VALID cleared, the data, then the tag, whose FILL_SEQ is a free value. -/
def cacheFill (r : XfmRun) (rows : List (List Byte)) (kr4s : Nat) (s : State) : State :=
  let w := fillWay r.c r.pic s
  let s1 := w.2
  let x := s1.decCtx r.c
  let da := s1.wayDa r.c r.pic w.1
  let a := daWrite x da 0 [0] s1
  let b := daWrite x (da + 512) 0 rows.flatten a.2
  let tag := leBytes 4 1 ++ leBytes 4 r.pic.source ++ leBytes 4 r.pic.frame ++ leBytes 4 (s1.xkey r.c)
    ++ leBytes 4 (Config.freeNat b.2.free) ++ leBytes 4 kr4s ++ List.replicate 488 0
  let t := daWrite x da 0 tag (b.2.drew 1)
  t.2.count (Pg.xfm r.c) 4 1

/-- The tensor lands in its region: header row and planes commit at once (R313). Each row of a poisoned source carries the
source or not, as its elements depend on it, which is left free (R314, log entry 36). -/
def landPad (r : XfmRun) (head : List Byte) (rows : List (List Byte)) (src : Nat) (s : State) : State :=
  let n := r.cfg F.XFM_CFG_CORE
  let g := r.cfg F.XFM_CFG_REGION
  let q := s.rgn n g
  let s1 := s.writeRow n (q.rowHead 0) head 0
  let s2 := rows.zipIdx.foldl (fun t p =>
    t.writeRow n (q.rowHead (1 + p.2)) p.1 (if src ≠ 0 ∧ Config.freeNat (s.free + p.2) % 2 = 1 then src else 0)) s1
  (advanceHead n g (1 + rows.length) (s2.drew rows.length)).count (Pg.spd3 n) 1 (1 + rows.length)

/-- The transform ends (R313 to R315, R318). -/
def xfmDone (s : State) : State :=
  match s.video.run with
  | none => s
  | some r =>
    let c := r.c
    let i0 := s.free
    let s0 := (s.modVid (fun z => { z with run := none })).drew (2 ^ 31)
    let n := nchOf (r.cfg F.XFM_CFG_CHAN) * r.fld (R.XFM_LINE c) F.XFM_LINE_PLANE_ROWS
    -- a hit copies the entry and reads the tag again
    let look : Option (List (List Byte) × Nat) × State := match r.hit with
      | none => (none, s0)
      | some h =>
        let a := daRead (s0.decCtx c) (h.1 + 512) (512 * n) s0
        let b := daRead (s0.decCtx c) h.1 512 a.2.2.2
        (if a.2.2.1 && a.2.1 == 0 && b.2.2.1 && b.2.1 == 0 && b.1 == h.2 then
          some ((List.range n).map (fun k => (a.1.drop (512 * k)).take 512), leAt h.2 20 4) else none, b.2.2.2)
    let hit := look.1.isSome
    let s1 := look.2
    if r.hit.isSome && !hit && !r.pic.decoded then
      -- the picture is decoded after all
      let x := s1.dec c
      let s2 := s1.modVid (fun z => { z with held := match r.buf with | some k => z.held.filter (fun q => q != (c, k)) | none => z.held
                                             next := match r.buf with | some k => Tab.set z.next c k | none => z.next })
      joinReady c ((s2.setDec c { x with cur := some { r.pic with missed := true } }).count (Pg.xfm c) 5 1)
    else
      let s2 := if r.hit.isSome && !hit then s1.count (Pg.xfm c) 5 1 else s1
      let f := (NumFmt.ofCode (r.cfg F.XFM_CFG_FMT)).getD .fp32
      let pool := match r.pic.slot with
        | some k => if hit then ([], 0, true, s2) else daRead (s2.decCtx c) (r.pic.slotDa c k) (r.pic.slotBytes c) s2
        | none => ([], 0, true, s2)
      let src := pool.2.1
      let s3 := pool.2.2.2
      let rows := match look.1 with | some q => q.1 | none => r.planes i0
      let kr4s := if f ≠ .kr4 then 0 else match look.1 with | some q => q.2 | none => r.scale i0 f
      let want := bitOf r.pic.auFlags 1 && s.fld (R.DEC_CACHE_GEOM c) F.DEC_CACHE_GEOM_SETS != 0 && !hit
      let bigger := decide (s.fld (R.DEC_CACHE_GEOM c) F.DEC_CACHE_GEOM_ENTRY_ROWS - 1 < n)
      let poison := decide (src ≠ 0)
      let keep := want && !bigger && !(r.pic.err != 0 || bitOf r.pic.flags 0 || bitOf r.pic.flags 1 || poison)
      let flags := r.pic.flags ||| (if poison then 2 else 0) ||| (if hit then 8 else 0) ||| (if want && !keep then 32 else 0)
      let s4 := if want && bigger then errEvent (Pg.xfm c) E.xfm_SIZE_CACHE s3 else s3
      let s5 := countFree (cntKey (Pg.xfm c) 2) (countFree (cntKey Pg.dec0 6) (countFree (cntKey (Pg.xfm c) 1)
        ((s4.count (Pg.xfm c) 1 r.cycles).count Pg.dec0 6 r.cycles)))
      let rec64 : Nat → List Byte := fun fl => picRecord r.pic r.pic.err fl kr4s (r.buf.getD 255)
      let head := rec64 flags ++ List.replicate 448 0
      let landed : Bool × State := match r.buf with
        | none => (true, landPad r head rows src s5)
        | some k =>
          let da := (r.reg (R.XFM_DA_LO c)).toNat + 2 ^ 32 * r.fld (R.XFM_DA_HI c) F.XFM_DA_HI_DA_BASE
            + k * (r.reg (R.XFM_BUF_STRIDE c)).toNat
          daWrite (s5.decCtx c) da src (head ++ rows.flatten) s5
      if !landed.1 then
        writePicRecord c (rec64 (flags ||| 4)) (errEvent (Pg.xfm c) E.xfm_DA_DENY landed.2)
      else
        let s6 := ((landed.2.count (Pg.xfm c) 0 1).count (Pg.decCtx c) 1 1).count Pg.dec0 1 1
        let s7 := if hit then s6.count Pg.dec0 7 1 else s6
        let s8 := if keep then cacheFill r rows kr4s s7 else s7
        writePicRecord c (rec64 flags) s8

/-- A write to XFM_REL (R313). -/
def xfmRel (c : Nat) (v : Word) (s : State) : State :=
  s.modVid (fun z => { z with held := z.held.filter (fun q => q != (c, v.toNat % 16)) })

end Sys2Proof.Machine
end

