-- ==== Sys2Proof/Machine/Hif.lean ====
section
/-! DEFINITION. Machine/Hif.lean: the host interface (R324 to R347): doorbells, the BAR2 window, MSI-X, the fetch and the
checks of submission entries, completions, heartbeats and PCI Express errors. -/

namespace Sys2Proof.Machine

/-! ### Functions and rings -/

/-- STATE of a function (R342). -/
def State.fnState (s : State) (f : Nat) : Nat := s.fld (R.HIF_FN_STATE f) F.HIF_FN_STATE_STATE
def fnDisabled : Nat := 0
def fnReady : Nat := 1
def fnLost : Nat := 2
def fnScrub : Nat := 3
def setFnState (f v : Nat) (s : State) : State := s.setFld (R.HIF_FN_STATE f) F.HIF_FN_STATE_STATE v

/-- Whether context `x` exists. -/
def State.exists' (s : State) (x : Nat) : Bool := s.flag (R.CTL_CX_INFO x) F.CTL_CX_INFO_EXISTS

/-- A host TLP (R474): it waits in the receive buffer while the control complex is not on, which it wakes, and is taken
once it is presented again (log entry 10). -/
def hostTlp (f : State → State) (s : State) : State :=
  if !s.booted then s else if s.domOn 29 then f s else wakeDom 29 false s

/-- A ring pointer (slot with wrap) as a position in two turns of a ring of `n` slots. -/
def ringLin (n p : Nat) : Nat := p % 4096 + p / 4096 % 2 * n

/-- How far pointer `a` lies ahead of pointer `b`. -/
def ringAhead (n a b : Nat) : Nat := (ringLin n a + 2 * n - ringLin n b) % (2 * n)

/-- The pointer after `p`. -/
def ringStep (n p : Nat) : Nat :=
  if p % 4096 + 1 = n then (if p / 4096 % 2 = 1 then 0 else 4096) else p + 1

def State.sqEn (s : State) (x q : Nat) : Bool := s.flag (R.HIF_SQ_CFG (x / 8) (x % 8) q) F.HIF_SQ_CFG_EN
def State.sqSlots (s : State) (x q : Nat) : Nat := s.fld (R.HIF_SQ_CFG (x / 8) (x % 8) q) F.HIF_SQ_CFG_SLOTS
def State.sqFetch (s : State) (x q : Nat) : Nat := s.fld (R.HIF_SQ_STATUS (x / 8) (x % 8) q) F.HIF_SQ_STATUS_FETCH
def State.sqTail (s : State) (x q : Nat) : Nat := s.fld (R.HIF_SQ_STATUS (x / 8) (x % 8) q) F.HIF_SQ_STATUS_TAIL
def State.sqBase (s : State) (x q : Nat) : Nat :=
  s.fld (R.HIF_SQ_BASE_LO (x / 8) (x % 8) q) F.HIF_SQ_BASE_LO_BASE * 512
    + s.fld (R.HIF_SQ_BASE_HI (x / 8) (x % 8) q) F.HIF_SQ_BASE_HI_BASE * 2 ^ 32
def State.cqEn (s : State) (x : Nat) : Bool := s.flag (R.HIF_CQ_CFG (x / 8) (x % 8)) F.HIF_CQ_CFG_EN
def State.cqSlots (s : State) (x : Nat) : Nat := s.fld (R.HIF_CQ_CFG (x / 8) (x % 8)) F.HIF_CQ_CFG_SLOTS
def State.cqWr (s : State) (x : Nat) : Nat := s.fld (R.HIF_CQ_STATUS (x / 8) (x % 8)) F.HIF_CQ_STATUS_WR
def State.cqHead (s : State) (x : Nat) : Nat := s.fld (R.HIF_CQ_STATUS (x / 8) (x % 8)) F.HIF_CQ_STATUS_HEAD
def State.cqBase (s : State) (x : Nat) : Nat :=
  s.fld (R.HIF_CQ_BASE_LO (x / 8) (x % 8)) F.HIF_CQ_BASE_LO_BASE * 512
    + s.fld (R.HIF_CQ_BASE_HI (x / 8) (x % 8)) F.HIF_CQ_BASE_HI_BASE * 2 ^ 32

/-! ### Doorbells (R329, R330) -/

/-- A doorbell that is not accepted. -/
def badDoorbell (f : Nat) (s : State) : State := errEvent (Pg.hifFn f) E.hifFn_DB_BAD (s.count (Pg.hifFn f) 3 1)

/-- The domains that a context's queue needs, raised (R19, R330): its cores, and the tiers that hold pages of its tenant. -/
def wakeContext (x : Nat) (s : State) : State :=
  let tiers := s.mt.pages.filterMap (fun p => if p.2.owner = some (tenantOf x) then some p.2.tier else none)
  let doms := (s.ctx x).cores ++ (if tiers.contains 0 then (List.range s.recs.stackCnt).map (18 + ·) else [])
    ++ (if tiers.contains 1 then [20] else [])
  doms.foldl (fun t d => wakeDom d false t) s

/-- Doorbell of queue `q` of slot `k` of function `f` with tail `v` (R330). -/
def sqDoorbell (f k q : Nat) (v : Word) (s : State) : State :=
  let x := 8 * f + k
  let tail := bitsOf v.toNat 12 0
  let n := s.sqSlots x q
  let ahead := ringAhead n tail (s.sqFetch x q)
  let ok := decide (s.fnState f = fnReady ∨ s.fnState f = fnLost) && s.sqEn x q && decide (tail % 4096 < n)
    && decide (ahead ≤ n ∧ ringAhead n (s.sqTail x q) (s.sqFetch x q) ≤ ahead)
  if ok then wakeContext x (s.setFld (R.HIF_SQ_STATUS f k q) F.HIF_SQ_STATUS_TAIL tail) else badDoorbell f s

/-- Doorbell of the completion ring of slot `k` of function `f` with head `v` (R330). -/
def cqDoorbell (f k : Nat) (v : Word) (s : State) : State :=
  let x := 8 * f + k
  let head := bitsOf v.toNat 12 0
  let n := s.cqSlots x
  let ok := decide (s.fnState f = fnReady ∨ s.fnState f = fnLost) && s.cqEn x && decide (head % 4096 < n)
    && decide (ringAhead n head (s.cqHead x) ≤ ringAhead n (s.cqWr x) (s.cqHead x))
  if ok then s.setFld (R.HIF_CQ_STATUS f k) F.HIF_CQ_STATUS_HEAD head else badDoorbell f s

/-! ### MSI-X (R329, R331) -/

/-- A write of word `w` of the MSI-X table of function `f`: clearing a vector's mask sends a message that is pending. -/
def msixWrite (f w : Nat) (v : Word) (s : State) : State :=
  if s.fnState f = fnDisabled then s
  else
    let s1 := s.modFn f (fun x => { x with msix := Tab.set x.msix w v })
    let e := w / 4
    if w % 4 = 3 ∧ !bitOf v.toNat 0 ∧ (s1.fn f).pend.contains e then
      s1.modFn f (fun x => { x with pend := x.pend.filter (· != e), sent := Tab.set x.sent e (Tab.get x.sent 0 e + 1) })
    else s1

/-! ### PCI Express errors (R325, R345, R416) -/

/-- What the link partner causes: a correctable error, an uncorrectable one (non-fatal or fatal), a replay, an unexpected
completion. -/
def pcieError (kind : PcieErr) (s : State) : State :=
  let log (bit : Nat) (t : State) : State := logPartner Pg.hif0 bit LogKind.pcie 0 (errEvent Pg.hif0 bit t)
  match kind with
  | .correctable => log E.hif0_AER_CORR (s.count Pg.hif0 0 1)
  | .replay => log E.hif0_AER_CORR (s.count Pg.hif0 2 1)
  | .unexpected => log E.hif0_AER_NONFATAL (s.count Pg.hif0 4 1)
  | .nonFatal => log E.hif0_AER_NONFATAL (s.count Pg.hif0 1 1)
  | .fatal => log E.hif0_AER_FATAL (s.count Pg.hif0 1 1)

/-- An error of the device's own that AER logs: Completer Abort (R327). -/
def aerNonFatal (s : State) : State := errEvent Pg.hif0 E.hif0_AER_NONFATAL (s.count Pg.hif0 1 1)

/-! ### BAR2 (R327) -/

def State.bar2Base (s : State) (f : Nat) : Nat :=
  s.fld (R.HIF_BAR2_BASE_LO f) F.HIF_BAR2_BASE_LO_BASE * 2 ^ 21
    + s.fld (R.HIF_BAR2_BASE_HI f) F.HIF_BAR2_BASE_HI_BASE * 2 ^ 32

/-- Sectors of an access of `n` bytes at `da` that stage 1 refuses for function `f`. -/
def State.bar2Refused (s : State) (f da n : Nat) (write : Bool) : Nat :=
  let k := if n = 0 then 0 else (da + n - 1) / 512 + 1 - da / 512
  countBelow k (fun i => decide (2 ^ 48 ≤ (da / 512 + i) * 512)
    || !s.stage1 (128 + f) f ((da / 512 + i) * 512) 512 write)

/-- Refusals of a BAR2 access counted: in the tenant's page, and each sector at stage 1. -/
def bar2Denied (f k : Nat) (s : State) : State :=
  errEvent (Pg.hifFn f) E.hifFn_BAR2_DENY ((s.count (Pg.hifFn f) 6 1).count Pg.mt1 7 k)

/-- The answer to a read. -/
def respond (r : Resp) (s : State) : State := { s with hif := { s.hif with resp := r } }

/-- A host read of `n` bytes at offset `o` of the window of function `f`; `fails`: the tier gives no response (R224). -/
def bar2Read (f o n : Nat) (fails : Bool) (s : State) : State :=
  let ones : Resp := { data := List.replicate n 0xFF#8 }
  if s.fnState f = fnDisabled then s
  else if s.fnState f = fnScrub then respond ones (s.count (Pg.hifFn f) 4 1)
  else
    let da := s.bar2Base f + o
    let s1 := s.count (Pg.hifFn f) 4 1
    let k := s1.bar2Refused f da n false
    if k ≠ 0 then respond ones (bar2Denied f k s1)
    else if fails then respond { abort := true } (aerNonFatal s1)
    else
      let r := readRun (128 + f) f (ceilDiv (da % 512 + n) 512) (da / 512 * 512) s1
      if r.2.1 ≠ 0 then respond { data := List.replicate n 0, ep := true } (r.2.2.2.count Pg.hif0 5 1)
      else respond { data := (r.1.drop (da % 512)).take n } r.2.2.2

/-- Sectors of a host write, each merged under R223: a poisoned sector stays poisoned where a part of it is written. -/
def bar2Sectors (f da : Nat) (bs : List Byte) : Nat → Nat → State → State
  | 0, _, s => s
  | k + 1, base, s =>
    let t := touchPage (pageOf base) s
    let whole := decide (da ≤ base ∧ base + 512 ≤ da + bs.length)
    let old := if whole then ([], 0, t) else readSector f base .clean t
    bar2Sectors f da bs k (base + 512)
      (storeSector f base (if whole then 0 else rowSrc old.2.1) (mergeSector old.1 base da bs) old.2.2)

/-- A host write at offset `o` of the window of function `f`; `ep`: the TLP carries EP; `fails`: the tier fails (R224). -/
def bar2Write (f o : Nat) (bs : List Byte) (ep fails : Bool) (s : State) : State :=
  if s.fnState f = fnDisabled then s
  else
    let s1 := s.count (Pg.hifFn f) 5 1
    if s.fnState f = fnScrub then s1
    else if ep then pcieError .nonFatal s1
    else
      let da := s.bar2Base f + o
      let k := s1.bar2Refused f da bs.length true
      if k ≠ 0 then bar2Denied f k s1
      else if fails then aerNonFatal s1
      else bar2Sectors f da bs (ceilDiv (da % 512 + bs.length) 512) (da / 512 * 512) s1

/-! ### Entries -/

def State.entry (s : State) (id : Nat) : Option Entry := s.hif.entries.find? (fun e => e.id == id)

/-- The entries of a queue fetched before an entry and not yet reported. -/
def State.earlier (s : State) (e : Entry) : List Entry :=
  s.hif.entries.filter (fun b => b.ctx == e.ctx && b.queue == e.queue && decide (b.id < e.id))

def Entry.isDone (e : Entry) : Bool :=
  match e.st with
  | .done _ _ _ _ => true
  | _ => false

def Entry.order (e : Entry) : Bool := bitOf e.flags 1

/-- Whether an entry may start (R333, R359): it has not started, every earlier entry of its queue has, and with ORDER
every earlier one has completed; its context and its function run. -/
def State.canStart (s : State) (e : Entry) : Bool :=
  e.st == .fetched && (s.earlier e).all (fun b => b.st != .fetched) && (!e.order || (s.earlier e).all Entry.isDone)
    && s.fnState (tenantOf e.ctx) == fnReady && (s.ctx e.ctx).fault.isNone && !(s.ctx e.ctx).tear

/-- An entry marked started. -/
def entryStart (id : Nat) (s : State) : State :=
  { s with hif := { s.hif with entries := s.hif.entries.map (fun (e : Entry) =>
      if e.id = id ∧ e.st = .fetched then { e with st := .started } else e) } }

/-- `f` on an entry of opcode `op` that may start. -/
def withEntry (id op : Nat) (f : Entry → State → State) (s : State) : State :=
  match s.entry id with
  | some e => if e.opcode = op ∧ s.canStart e then f e s else s
  | none => s

/-! ### The checks of an entry (R337, R353, R355, R358) -/

/-- Word `i` of an entry's body, and a field of it. -/
def Entry.w (e : Entry) (i : Nat) : Nat := (e.body.getD i 0).toNat
def Entry.f (e : Entry) (i hi lo : Nat) : Nat := bitsOf (e.w i) hi lo

-- The JOB body (R355).
def Job'.mask (e : Entry) : Nat := e.f 0 15 0
def Job'.gang (e : Entry) : Nat := e.f 0 18 16
def Job'.slot (e : Entry) : Nat := e.f 1 13 0
def Job'.batch (e : Entry) : Nat := e.f 2 15 0
def Job'.sem (e : Entry) : Nat := e.f 2 21 16
def Job'.limit (e : Entry) : Nat := e.f 3 15 0

-- The CONTROL body (R358).
def Con.cmd (e : Entry) : Nat := e.f 0 7 0
def Con.core (e : Entry) : Nat := e.f 0 15 8
def Con.index (e : Entry) : Nat := e.f 0 31 16
def Con.data (e : Entry) (i : Nat) : Word := e.body.getD (1 + i) 0
def Con.da (e : Entry) : Nat := e.w 5 + 2 ^ 32 * e.f 6 15 0

/-- The context cores of a mask, in ascending number. -/
def maskCores (m : Nat) : List Nat := (List.range 16).filter (bitOf m)

/-- The placement of a context on its context core `c`. -/
def State.placeOf (s : State) (x c : Nat) : Place := (s.ctx x).place.getD c ⟨0, 0, 0, 0, 0, 0, 0⟩

/-- The descriptor that a DMA entry becomes (R139, R333): words 0 and 1 as R139 requires, DST_CORE mapped (R353). -/
def dmaWords (s : State) (e : Entry) : List Word :=
  let d := [10#32, BitVec.ofNat 32 (e.tag % 65536 * 65536)] ++ e.body ++ [0, 0]
  if Dma.dir d = 4 then
    modNth d 2 (fun w => BitVec.ofNat 32 (putBits w.toNat 24 20 ((s.ctx e.ctx).cores.getD (bitsOf w.toNat 24 20) 31)))
  else d

/-- Reserved bits set in an entry, or a core number out of range (reason 0x03). -/
def State.reservedSet (s : State) (e : Entry) (rest : Nat) : Bool :=
  let n := (s.ctx e.ctx).cores.length
  let zeroFrom : Nat → Bool := fun k => (e.body.drop k).all (· == 0)
  decide (8 ≤ e.flags) || rest != 0 || (e.opcode != 2 && e.core != 0)
    || (match e.opcode with
        | 1 => e.f 0 31 19 != 0 || e.f 1 31 14 != 0 || e.f 2 31 22 != 0 || e.f 3 31 16 != 0 || !zeroFrom 4
            || (maskCores (Job'.mask e)).any (fun c => decide (n ≤ c))
        | 2 => decide (n ≤ e.core) || e.f 0 31 25 != 0 || e.f 2 31 16 != 0 || e.f 5 31 14 != 0 || e.f 6 31 16 != 0
            || !zeroFrom 9 || (e.f 0 3 0 == 4 && decide (n ≤ e.f 0 24 20))
        | 3 => !zeroFrom 0
        | _ => decide (n ≤ Con.core e) || e.f 6 31 16 != 0 || !zeroFrom 7)

/-- The body fields of an entry that fail (reason 0x04). -/
def State.bodyBad (s : State) (e : Entry) : List Nat :=
  match e.opcode with
  | 1 =>
    let cs := maskCores (Job'.mask e)
    bad cs.isEmpty 15 ++ bad (decide (4 < Job'.gang e) || cs.length % 2 ^ Job'.gang e != 0) 16
      ++ bad (cs.any (fun c => decide ((s.placeOf e.ctx c).imemCount ≤ Job'.slot e))) 17
      ++ bad (Job'.batch e == 0) 18
  | 2 =>
    let d := dmaWords s e
    bad (decide (5 < Dma.dir d)) 15
      ++ bad (decide (Dma.dir d = 0 ∨ Dma.dir d = 1 ∨ Dma.dir d = 3) && df d 3 8 0 != 0) 22
      ++ bad (outside (Dma.rows d) 1 49152) 26
      ++ bad (Dma.dir d == 3 && decide (16384 < Dma.imemSlot d + 64 * Dma.rows d)) 28
      ++ bad (decide (49152 < Dma.blockRows d)) 29 ++ bad (Dma.stride d % 512 != 0) 30
  | 4 =>
    let p := s.placeOf e.ctx (Con.core e)
    let strBad := bad (s.strEntry e.ctx (Con.index e)).isNone 17
    match Con.cmd e with
    | 1 => strBad
    | 2 => strBad ++ bad (outside (bitsOf (Con.data e 0).toNat 7 0) 3 6) 18
    | 3 =>
      let b := wordFld (Con.data e 0) F.SPD_REGION_GEOM_BASE
      let z := wordFld (Con.data e 0) F.SPD_REGION_GEOM_SIZE
      bad (decide (Con.index e < p.regBase ∨ p.regBase + p.regCount ≤ Con.index e)) 17
        ++ bad (decide (b < p.rowBase ∨ p.rowBase + p.rows < b + z)) 18
    | 4 =>
      bad (decide (32 ≤ Con.index e)) 17
        ++ bad (decide (p.imemCount ≤ wordFld (Con.data e 0) F.SEQ_MODEL_ENTRY)
            || decide (p.imemCount < wordFld (Con.data e 0) F.SEQ_MODEL_IMAGE + 16)) 18
    | 5 => bad (outside (bitsOf (Con.data e 0).toNat 9 0) 1 1000) 18
    | 6 => bad (Con.da e % 512 != 0) 19
    | _ => [15]
  | _ => []

/-- The reason and the subcode for which a fetched entry is rejected, if any (R337): poison first, then the lowest
reason. `rest` holds bytes 9 to 15, `cnt` the fetch count at the entry. -/
def State.rejectWhy (s : State) (e : Entry) (rest cnt : Nat) (poisoned : Bool) : Option (Nat × Nat) :=
  if poisoned then some (5, 0)
  else if e.opcode = 0 ∨ 4 < e.opcode then some (1, 0)
  else if e.seq ≠ cnt % 65536 then some (2, 0)
  else if s.reservedSet e rest then some (3, 0)
  else
    match s.bodyBad e with
    | [] => none
    | f :: fs => some (4, fs.foldl min f)

/-- An entry rejected (R337, R338). -/
def rejectEntry (e : Entry) (reason sub : Nat) (s : State) : State :=
  let f := tenantOf e.ctx
  let s1 := entryDone e.id 1 reason sub (errEvent (Pg.hifFn f) E.hifFn_REJECT (s.count (Pg.hifFn f) 2 1))
  let s2 := logPartner (Pg.hifFn f) E.hifFn_REJECT LogKind.pcie f s1
  let c := s2.ctx e.ctx
  let s3 := s2.setCtx e.ctx { c with viol := c.viol + 1 }
  let lim := s3.fld (R.HIF_VIOL_LIMIT f) F.HIF_VIOL_LIMIT_LIMIT
  if lim ≠ 0 ∧ lim ≤ c.viol + 1 then ctxFault e.ctx none (s3.ctx e.ctx).cores Flt.malformed 0xFE 0 s3 else s3

/-! ### Fetch (R330, R332, R334, R347) -/

/-- Entries of context `x` that hold a completion slot. -/
def State.reservedSlots (s : State) (x : Nat) : Nat := (s.hif.entries.filter (fun e => e.ctx == x)).length

/-- Whether a control core may fetch from queue `q` of context `x`: a torn-down context's entries are fetched to be
flushed (R365), otherwise the function is READY and the context runs. -/
def State.mayFetch (s : State) (cc x q : Nat) : Bool :=
  let c := s.ctx x
  let f := tenantOf x
  s.exists' x && s.fld (R.CTL_CX_INFO x) F.CTL_CX_INFO_OWNER == cc
    && (if c.tear then decide (s.fnState f = fnReady ∨ s.fnState f = fnLost) && !c.ends
        else s.fnState f == fnReady && c.fault.isNone)
    && s.sqEn x q && s.cqEn x && s.sqFetch x q != s.sqTail x q
    && decide (ringAhead (s.cqSlots x) (s.cqWr x) (s.cqHead x) + s.reservedSlots x < s.cqSlots x)

/-- The next queue that control core `cc` fetches from: contexts and their queues in turn (R359). -/
def State.nextQueue (s : State) (cc : Nat) : Option Nat :=
  let at' := Tab.get s.hif.rotor 511 cc
  (leastBelow 512 (fun i =>
    let k := (at' + 1 + i) % 512
    s.mayFetch cc (k / 4) (k % 4))).map (fun i => (at' + 1 + i) % 512)

/-- The code and subcode with which a torn-down context's entries complete. -/
def State.faultOf (s : State) (x : Nat) : Nat × Nat :=
  match (s.ctx x).fault with
  | some r => (r.code, r.sub)
  | none => (0, 0)

/-- Control core `cc` fetches its next entry and checks it. -/
def sqFetch (cc : Nat) (s : State) : State :=
  match s.nextQueue cc with
  | none => s
  | some k =>
    let x := k / 4
    let q := k % 4
    let f := tenantOf x
    let s0 := { s with hif := { s.hif with rotor := Tab.set s.hif.rotor cc k } }
    let p := s.sqFetch x q
    let da := s.sqBase x q + 64 + 64 * (p % 4096)
    let r := readRun (128 + f) f 1 (da / 512 * 512) s0
    if !r.2.2.1 then
      errEvent (Pg.hifFn f) E.hifFn_Q_BAD (r.2.2.2.setFld (R.HIF_SQ_CFG f (x % 8) q) F.HIF_SQ_CFG_EN 0)
    else
      let b := (r.1.drop (da % 512)).take 64
      let num : Nat → Nat → Nat := fun i n => ofLeBytes ((b.drop i).take n)
      let cnt := Tab.get s.hif.fetchCnt 0 k
      let e : Entry := { id := s.hif.nextId, ctx := x, queue := q, opcode := num 0 1, flags := num 1 1, seq := num 2 2,
                         tag := num 4 4, core := num 8 1,
                         body := (List.range 12).map (fun i => BitVec.ofNat 32 (num (16 + 4 * i) 4)), st := .fetched }
      let t := r.2.2.2
      let s1 := { t with hif := { t.hif with entries := t.hif.entries ++ [e], nextId := t.hif.nextId + 1,
                                             fetchCnt := Tab.set t.hif.fetchCnt k (cnt + 1) } }
      let s2 := (s1.setFld (R.HIF_SQ_STATUS f (x % 8) q) F.HIF_SQ_STATUS_FETCH (ringStep (s.sqSlots x q) p)).count
        (Pg.hifFn f) 0 1
      let s3 := (writeRun (128 + f) f (s.sqBase x q + 4) 0 (leBytes 4 (cnt + 1)) 1 (s.sqBase x q) s2).2
      if (s.ctx x).tear then entryDone e.id 3 (s.faultOf x).1 (s.faultOf x).2 s3
      else
        let s4 := s3.setFld (R.CTL_CX_INFO x) F.CTL_CX_INFO_FAULTED 0
        match s4.rejectWhy e (num 9 7) cnt (r.2.1 != 0) with
        | some (reason, sub) => rejectEntry e reason sub s4
        | none => s4.setCtx x { s4.ctx x with viol := 0 }

/-! ### Completions (R335, R336, R331) -/

/-- The entry whose completion a queue writes next. -/
def State.oldestEntry (s : State) (x q : Nat) : Option Entry := s.hif.entries.find? (fun e => e.ctx == x && e.queue == q)

/-- The bytes of a completion entry. -/
def completionBytes (e : Entry) (phase status code sub dtime : Nat) : List Byte :=
  leBytes 4 e.tag ++ leBytes 2 e.seq ++ leBytes 1 status ++ leBytes 1 (phase + 2 * e.queue) ++ leBytes 1 code
    ++ leBytes 1 sub ++ leBytes 2 0 ++ leBytes 4 dtime

/-- The completion of the oldest entry of queue `q` of context `x` is written, or suppressed by QUIET (R333, R336). -/
def completionWrite (x q : Nat) (s : State) : State :=
  let f := tenantOf x
  if s.fnState f ≠ fnReady then s
  else
    match s.oldestEntry x q with
    | none => s
    | some e =>
      match e.st with
      | .done status code sub dtime =>
        let s1 := { s with hif := { s.hif with entries := s.hif.entries.filter (fun b => b.id != e.id) } }
        if bitOf e.flags 2 ∧ status = 0 then s1
        else
          let p := s.cqWr x
          let bs := completionBytes e (1 - p / 4096 % 2) status code sub dtime
          let da := s.cqBase x + 16 * (p % 4096)
          let s2 := (writeRun (128 + f) f da 0 bs 1 (da / 512 * 512) s1).2
          let s3 := (s2.setFld (R.HIF_CQ_STATUS f (x % 8)) F.HIF_CQ_STATUS_WR (ringStep (s.cqSlots x) p)).count
            (Pg.hifFn f) 1 1
          if bitOf e.flags 0 ∨ status ≠ 0 then
            msixSend f (s3.fld (R.HIF_CQ_CFG f (x % 8)) F.HIF_CQ_CFG_VEC) s3
          else s3
      | _ => s

/-! ### FENCE (R333) -/

/-- A FENCE entry completes. -/
def fence (id : Nat) (s : State) : State :=
  withEntry id 3 (fun e s => if (s.earlier e).all Entry.isDone then entryDone id 0 0 0 s else s) s

/-! ### DMA entries (R333, R353, R359) -/

/-- A DMA entry is posted to its core's channel. -/
def dmaEntry (id : Nat) (s : State) : State :=
  withEntry id 2 (fun e s =>
    let n := (s.ctx e.ctx).cores.getD e.core 31
    let d := dmaWords s e
    if !s.domOn n ∨ (s.chan n (Dma.chan d)).full then s
    else fwPost n (Dma.chan d) e.ctx d (some id) (entryStart id s)) s

/-! ### The heartbeat (R339 to R341) -/

/-- BCLK ticks of a millisecond. -/
def msTicks : Nat := 24576

/-- The enabled submission rings of a tenant, as 4 × context + queue. -/
def State.ringsOf (s : State) (f : Nat) : List Nat :=
  ((List.range 32).map (fun k => 32 * f + k)).filter (fun k => s.sqEn (k / 4) (k % 4))

/-- The HEARTBEAT word of a ring; none where it is refused or poisoned. -/
def readBeat (f k : Nat) (s : State) : Option Word × State :=
  let r := readRun (128 + f) f 1 (s.sqBase (k / 4) (k % 4)) s
  (if r.2.2.1 ∧ r.2.1 = 0 then some (BitVec.ofNat 32 (ofLeBytes (r.1.take 4))) else none, r.2.2.2)

/-- The words of the rings sampled; whether one changed since it was last sampled. A ring's first sample is a change. -/
def sampleBeats (f : Nat) : List Nat → State → Bool × State
  | [], s => (false, s)
  | k :: ks, s =>
    let b := readBeat f k s
    match b.1 with
    | none => sampleBeats f ks b.2
    | some w =>
      let r := sampleBeats f ks (b.2.modFn f (fun x => { x with beats := Tab.set x.beats k w }))
      (r.1 || Tab.find (s.fn f).beats k != some w, r.2)

/-- The jobs of a tenant that hold cores are asked to drain: each reaches its commit and nothing more issues (R340). -/
def drainTenant (f : Nat) (s : State) : State :=
  let held := (s.ctl.jobs.filter (fun j => tenantOf j.ctx == f)).flatMap (·.held)
  let s1 := { s with ctl := { s.ctl with jobs := s.ctl.jobs.map (fun (j : Job) =>
    if tenantOf j.ctx = f then
      match j.st with
      | .running => { j with st := .draining }
      | .starting => { j with st := .runnable }
      | _ => j
    else j) } }
  held.foldl (fun t n => settleCore n (t.setFld (R.SEQ_CTRL n) F.SEQ_CTRL_DRAIN_REQ 1)) s1

/-- A tenant is lost (R340). -/
def hostLost (f : Nat) (s : State) : State :=
  let s1 := (errEvent (Pg.hifFn f) E.hifFn_HB_LOST (setFnState f fnLost s)).count (Pg.hifFn f) 7 1
  let s2 := s1.modFn f (fun x => { x with changed := false })
  drainTenant f (msixSend f (s2.fld (R.HIF_VEC f) F.HIF_VEC_FAULT) s2)

/-- Firmware samples the HEARTBEAT words of tenant `f` (R339). -/
def heartbeatSample (f : Nat) (s : State) : State :=
  let ks := s.ringsOf f
  if ks.isEmpty then s.modFn f (fun x => { x with beats := [], lastChange := s.dtime })
  else
    let s0 := s.modFn f (fun x => { x with beats := x.beats.filter (fun b => ks.contains b.1) })
    let r := sampleBeats f ks s0
    match s.fnState f with
    | 1 =>
      if r.1 then r.2.modFn f (fun x => { x with lastChange := s.dtime })
      else if s.fld (R.HIF_HB_CFG f) F.HIF_HB_CFG_TIMEOUT * msTicks ≤ s.dtime - (s.fn f).lastChange then hostLost f r.2
      else r.2
    | 2 => if r.1 then r.2.modFn f (fun x => { x with changed := true, lastChange := s.dtime }) else r.2
    | _ => s

end Sys2Proof.Machine
end

