-- ==== Sys2Proof/Machine/Ctl.lean ====
section
/-! DEFINITION. Machine/Ctl.lean: contexts and their placement (R349 to R353), jobs and the scheduler (R355 to R362),
CONTROL entries (R358), rotation exchange (R364), teardown (R365). -/

namespace Sys2Proof.Machine

def State.modCtl (s : State) (f : Ctl → Ctl) : State := { s with ctl := f s.ctl }
def State.modCtx (s : State) (x : Nat) (f : CtxRec → CtxRec) : State := s.setCtx x (f (s.ctx x))

/-- Contexts that exist. -/
def State.contexts (s : State) : List Nat := (List.range 128).filter s.exists'

/-- Whether core `n` is in service (R410). -/
def State.inService (s : State) (n : Nat) : Bool := !s.disabled n && s.fld (R.REL_CORE n) F.REL_CORE_STATE == 0

/-! ### Placement (R351, R352) -/

/-- Whether a block lies clear of the listed blocks (base and length). -/
def blockFree (used : List (Nat × Nat)) (b len : Nat) : Bool :=
  used.all (fun u => decide (b + len ≤ u.1 ∨ u.1 + u.2 ≤ b))

/-- The lowest base, a multiple of `unit`, of a free block below `total`. -/
def firstFit (used : List (Nat × Nat)) (unit len total : Nat) : Option Nat :=
  (leastBelow (total / unit) (fun i => decide (i * unit + len ≤ total) && blockFree used (i * unit) len)).map (· * unit)

/-- The placements that contexts have on core `n`. -/
def State.placesOn (s : State) (n : Nat) : List Place :=
  s.contexts.flatMap (fun x => (List.range 16).filterMap (fun i =>
    if (s.ctx x).cores[i]? = some n then (s.ctx x).place[i]? else none))

/-- A place on core `n` for a context's blocks (R351). -/
def State.findPlace (s : State) (n rows regs imem : Nat) : Option Place :=
  let ps := s.placesOn n
  match firstFit (ps.map (fun p => (p.rowBase, p.rows))) 1024 rows 49152,
        firstFit (ps.map (fun p => (p.regBase, p.regCount))) 1 regs 64,
        firstFit (ps.map (fun p => (p.imemBase, p.imemCount))) 256 imem 16384,
        leastBelow 16 (fun k => s.fld (R.SPD_RANGE_HI n k) F.SPD_RANGE_HI_VALID == 0) with
  | some r, some g, some i, some k => some ⟨r, rows, g, regs, i, imem, k⟩
  | _, _, _, _ => none

/-- A stream partition of `n` entries clear of the others. -/
def State.findPart (s : State) (n : Nat) : Option Nat :=
  firstFit ((List.range 128).filterMap (fun x =>
    let c := s.fld (R.STR_PART x) F.STR_PART_COUNT
    if c = 0 then none else some (s.fld (R.STR_PART x) F.STR_PART_BASE, c))) 1 n 4096

/-- An SPD_RANGE entry written. -/
def setRange (n k x lo hi : Nat) (s : State) : State :=
  (s.setReg (R.SPD_RANGE_LO n k) (BitVec.ofNat 32 (lo + 65536 * hi))).setReg (R.SPD_RANGE_HI n k)
    (BitVec.ofNat 32 (x + 128))

/-- An SPD_RANGE entry cleared. -/
def clearRange (n k : Nat) (s : State) : State := (s.setReg (R.SPD_RANGE_LO n k) 0).setReg (R.SPD_RANGE_HI n k) 0

/-- The status block's bytes (R352). -/
def statusBytes (s : State) (x state : Nat) (r : FaultRec) (clean : Bool) : List Byte :=
  let c := s.ctx x
  let slot : Nat → List Byte := fun i =>
    match c.place[i]? with
    | some p => leBytes 2 p.rowBase ++ leBytes 2 p.rows ++ leBytes 1 p.regBase ++ leBytes 1 p.regCount
        ++ leBytes 2 (p.imemBase / 64)
    | none => leBytes 8 0
  (leBytes 1 state ++ leBytes 1 r.code ++ leBytes 1 r.sub ++ leBytes 1 (if clean then 0xFF else r.core)
    ++ leBytes 4 r.tag ++ leBytes 2 r.opTag ++ leBytes 6 0 ++ leBytes 8 r.dtime ++ leBytes 4 c.strBase
    ++ leBytes 4 c.strCount ++ (List.range 16).flatMap slot) ++ List.replicate 352 0

/-- The status block written under the tenant's key. -/
def writeStatus (x state : Nat) (r : FaultRec) (clean : Bool) (s : State) : State :=
  let da := (s.ctx x).statusDa
  if (s.page (pageOf da)).owner = some (tenantOf x) then
    (fwWrite da (statusBytes s x state r clean) 1 s).2
  else s

/-- A record of no fault. -/
def noFault : FaultRec := ⟨0, 0, 0, 0, 0, 0⟩

/-- A saved image as CREATE leaves it. -/
def freshImage (n : Nat) : SavedCore :=
  { core := n, pc := 0, sems := List.replicate 64 0, models := List.replicate 32 0, gang := 0, outCfg := 0 }

/-- The result of a mailbox command (R371). -/
def mbResult (r : Nat) (s : State) : State :=
  let s1 := s.setFld R.CTL_MB_STATUS F.CTL_MB_STATUS_RESULT r
  if r = 0 then s1 else errEvent Pg.ctlMb E.ctlMb_MB_REFUSED s1

/-- The active control core that owns the fewest contexts (R349). -/
def State.newOwner (s : State) : Nat :=
  let act := (List.range 4).filter (fun k => bitOf (s.fld R.CTL_STATUS F.CTL_STATUS_ACTIVE) k)
  let load : Nat → Nat := fun k => (s.contexts.filter (fun x => s.fld (R.CTL_CX_INFO x) F.CTL_CX_INFO_OWNER == k)).length
  act.foldl (fun b k => if load k < load b then k else b) (act.headD 0)

/-- CREATE of context slot `k` of tenant `t` (R351, R371). -/
def cxCreate (t k : Nat) (s : State) : State :=
  let x := 8 * t + k
  let a0 := s.reg R.CTL_MB_ARG0
  let a1 := s.reg R.CTL_MB_ARG1
  let n := wordFld a0 F.CTL_MB_ARG0_CORES
  let rows := wordFld a0 F.CTL_MB_ARG0_ROWS
  let regs := wordFld a0 F.CTL_MB_ARG0_REGIONS
  let imem := wordFld a0 F.CTL_MB_ARG0_IMEM
  let str := wordFld a1 F.CTL_MB_ARG1_STREAMS
  let share := wordFld a1 F.CTL_MB_ARG1_SHARE
  let da := s.fld R.CTL_MB_DA_LO F.CTL_MB_DA_LO_STATUS_DA * 512 + s.fld R.CTL_MB_DA_HI F.CTL_MB_DA_HI_STATUS_DA * 2 ^ 32
  if s.exists' x then mbResult 1 s
  else if outside n 1 16 || outside rows 1 48 || outside regs 1 64 || outside imem 1 64 || decide (4096 < str)
      || outside share 1 1000 || (s.page (pageOf da)).owner != some t then mbResult 3 s
  else if s.fnState t ≠ fnReady then mbResult 4 s
  else
    let room := (List.range 18).filterMap (fun m =>
      if s.inService m then (s.findPlace m (rows * 1024) regs (imem * 256)).map (fun p => (m, p)) else none)
    match (if room.length < n then none else some (room.take n)), (if str = 0 then some 0 else s.findPart str) with
    | some ps, some sb =>
      let c : CtxRec := { cores := ps.map (·.1), place := ps.map (·.2), strBase := sb, strCount := str, statusDa := da,
                          saved := ps.map (fun p => freshImage p.1) }
      let s1 := s.setCtx x c
      let s2 := ps.foldl (fun t p => setRange p.1 p.2.range x p.2.rowBase (p.2.rowBase + p.2.rows - 1) t) s1
      let s3 := (s2.setFld (R.STR_PART x) F.STR_PART_BASE sb).setFld (R.STR_PART x) F.STR_PART_COUNT str
      let s4 := s3.setReg (R.CTL_CX_INFO x) (BitVec.ofNat 32 (1 + 4 * s.newOwner + 16 * n))
      let s5 := s4.setFld (R.CTL_CX_SHARE x) F.CTL_CX_SHARE_SHARE share
      let s6 := writeStatus x 1 noFault true s5
      mbResult 0 (s6.setReg (R.HIF_FN_STATE t) (s6.reg (R.HIF_FN_STATE t) ||| bit32 (8 + k)))
    | _, _ => mbResult 2 s

/-! ### Context images (R362) -/

/-- What a core holds of its resident context, saved; the core then runs no context. -/
def switchOut (n : Nat) (s : State) : State :=
  let c := s.core n
  match c.ctx with
  | none => s
  | some x =>
    let img : SavedCore :=
      { core := n, pc := s.pc n, st := s.seqState n, loops := c.loops, doneSig := c.doneSig,
        sems := (List.range 64).map (fun k => s.reg (R.SEQ_SEM n k)),
        models := (List.range 32).map (fun m => s.reg (R.SEQ_MODEL n m)),
        gang := s.reg (R.ARR_GANG n), outCfg := s.reg (R.ARR_OUT_CFG n) }
    let s1 := s.modCtx x (fun k => { k with saved := k.saved.filter (fun (i : SavedCore) => i.core != n) ++ [img] })
    s1.modCore n (fun c => { c with ctx := none, wait := .none, loops := [], doneSig := false })

/-- A context's image restored on a core: a drained sequencer goes on, a halted one stays halted. -/
def switchIn (n x : Nat) (s : State) : State :=
  let img := ((s.ctx x).saved.find? (fun i => i.core == n)).getD (freshImage n)
  let s1 := s.modCtx x (fun k => { k with saved := k.saved.filter (fun (i : SavedCore) => i.core != n) })
  let s2 := s1.modCore n (fun c => { c with ctx := some x, wait := .none, loops := img.loops, doneSig := img.doneSig })
  let s3 := (s2.setPc n img.pc).setSeqState n (if img.st = Seq.drained then Seq.running else img.st)
  let s4 := iter 64 (fun k t => t.setReg (R.SEQ_SEM n k) (img.sems.getD k 0)) s3
  let s5 := iter 32 (fun m t => t.setReg (R.SEQ_MODEL n m) (img.models.getD m 0)) s4
  coreStatus n ((s5.setReg (R.ARR_GANG n) img.gang).setReg (R.ARR_OUT_CFG n) img.outCfg)

/-- Core `n` runs context `x` from now on. A drain request for the outgoing job ends. -/
def switchCore (n x : Nat) (s : State) : State :=
  let s1 := s.setFld (R.SEQ_CTRL n) F.SEQ_CTRL_DRAIN_REQ 0
  if (s.core n).ctx = some x then
    if s.seqState n = Seq.drained then coreStatus n (s1.setSeqState n Seq.running) else s1
  else (switchIn n x (switchOut n s1)).count Pg.ctl0 2 1

/-! ### Jobs (R355, R356, R359) -/

/-- The physical cores of a job. -/
def State.jobCores (s : State) (j : Job) : List Nat := j.cores.map (fun c => (s.ctx j.ctx).cores.getD c 31)

def State.setJob (s : State) (j : Job) : State :=
  s.modCtl (fun c => { c with jobs := c.jobs.map (fun (b : Job) => if b.id = j.id then j else b) })

def State.job (s : State) (id : Nat) : Option Job := s.ctl.jobs.find? (fun j => j.id == id)

def State.vtTen (s : State) (t : Nat) : Nat := Tab.get s.ctl.vtT 0 t
def setVtTen (t v : Nat) (s : State) : State := s.modCtl (fun c => { c with vtT := Tab.set c.vtT t (v % 2 ^ 64) })
def setVtCtx (x v : Nat) (s : State) : State := s.modCtx x (fun c => { c with vt := v % 2 ^ 64 })

/-- A job charged up to ACLK cycle `aclk` (R361). -/
def chargeJob (aclk : Nat) (s : State) (j : Job) : State :=
  if j.held.isEmpty then s
  else
    let c := aclk - j.mark
    let use := c * j.held.length * 1000
    let t := tenantOf j.ctx
    let s1 := setVtCtx j.ctx ((s.ctx j.ctx).vt + use / s.fld (R.CTL_CX_SHARE j.ctx) F.CTL_CX_SHARE_SHARE) s
    let s2 := setVtTen t (s1.vtTen t + use / s.fld (R.CTL_TEN_SHARE t) F.CTL_TEN_SHARE_SHARE) s1
    s2.setJob { j with mark := max j.mark aclk, ran := j.ran + c }

/-- Every job that holds cores charged; ACLK has reached `aclk`. -/
def chargeAll (aclk : Nat) (s : State) : State :=
  s.ctl.jobs.foldl (chargeJob aclk) (s.modCtl (fun c => { c with aclk := max c.aclk aclk }))

/-- Whether a slice has ended. -/
def Job.sliceOver (j : Job) (aclk : Nat) : Bool := decide (j.slice + j.len ≤ aclk)

/-- A new slice (R360, R372). -/
def newSlice (j : Job) (aclk : Nat) (s : State) : State :=
  s.setJob { j with slice := aclk, len := s.fld R.CTL_TSLICE F.CTL_TSLICE_SLICE * 2048 }

/-- Whether a job may be chosen: its function is READY, its context runs, its cores are in service, no earlier job of its
context overlaps it (R359), and its start is not held for an update or a policy change (R367, R409). -/
def State.jobReady (s : State) (j : Job) : Bool :=
  let cs := s.jobCores j
  s.fnState (tenantOf j.ctx) == fnReady && (s.ctx j.ctx).fault.isNone && !(s.ctx j.ctx).tear
    && cs.all s.inService
    && !s.ctl.jobs.any (fun k => k.ctx == j.ctx && decide (k.id < j.id) && (s.jobCores k).any (fun c => cs.contains c))
    && (j.begun || (!s.rel.holdStarts && s.ctl.upd.holding != some (s.fld (R.CTL_CX_INFO j.ctx) F.CTL_CX_INFO_OWNER)))

/-- The jobs that R361 considers. -/
def State.candidates (s : State) (aclk : Nat) : List Job :=
  s.ctl.jobs.filter (fun j =>
    match j.st with
    | .runnable => s.jobReady j
    | .running => j.sliceOver aclk && s.fnState (tenantOf j.ctx) == fnReady
    | _ => false)

/-- Whether core `n` is idle, or runs a job whose slice has ended or that drains. -/
def State.coreFree (s : State) (aclk n : Nat) : Bool :=
  s.ctl.jobs.all (fun j => !j.held.contains n || j.st == .draining || j.sliceOver aclk)

/-- The candidate that R361 takes next. -/
def State.choose (s : State) : List Job → Option Job
  | [] => none
  | j :: js =>
    match s.choose js with
    | none => some j
    | some k =>
      let a := (s.vtTen (tenantOf j.ctx), tenantOf j.ctx, (s.ctx j.ctx).vt, j.ctx, j.id)
      let b := (s.vtTen (tenantOf k.ctx), tenantOf k.ctx, (s.ctx k.ctx).vt, k.ctx, k.id)
      let lt : Bool :=
        if a.1 ≠ b.1 then decide (a.1 < b.1) else if a.2.1 ≠ b.2.1 then decide (a.2.1 < b.2.1)
        else if a.2.2.1 ≠ b.2.2.1 then decide (a.2.2.1 < b.2.2.1)
        else if a.2.2.2.1 ≠ b.2.2.2.1 then decide (a.2.2.2.1 < b.2.2.2.1) else decide (a.2.2.2.2 < b.2.2.2.2)
      if lt then some j else some k

/-- Jobs that hold a core of `cs` are pre-empted (R360): every core that they hold receives DRAIN_REQ. -/
def preempt (cs : List Nat) (s : State) : State :=
  s.ctl.jobs.foldl (fun t (j : Job) =>
    if j.st = .running ∧ j.held.any (fun n => cs.contains n) then
      j.held.foldl (fun u n => settleCore n (u.setFld (R.SEQ_CTRL n) F.SEQ_CTRL_DRAIN_REQ 1))
        ((t.setJob { j with st := .draining }).count Pg.ctl0 3 1)
    else t) s

/-- The decision of R361 over at most `fuel` candidates. -/
def decideLoop (aclk : Nat) : Nat → List Job → List Nat → State → State
  | 0, _, _, s => s
  | fuel + 1, cand, reserved, s =>
    match s.choose cand with
    | none => s
    | some j =>
      let rest := cand.filter (fun k => k.id != j.id)
      let cs := s.jobCores j
      if cs.any (fun n => reserved.contains n) then decideLoop aclk fuel rest reserved s
      else
        let s1 :=
          if j.st = .running then newSlice j aclk s
          else if cs.all (s.coreFree aclk) then (preempt cs s).setJob { j with st := .starting }
          else s
        decideLoop aclk fuel rest (cs ++ reserved) s1

/-- The GANG_ID of a gang that forms: the lowest that no core and no saved image carries. -/
def State.freshGang (s : State) : Nat :=
  (leastBelow 16 (fun g =>
    (List.range 18).all (fun n =>
        s.fld (R.ARR_GANG n) F.ARR_GANG_SIZE_LOG2 == 0 || s.fld (R.ARR_GANG n) F.ARR_GANG_GANG_ID != g)
      && s.contexts.all (fun x => (s.ctx x).saved.all (fun i =>
          wordFld i.gang F.ARR_GANG_SIZE_LOG2 == 0 || wordFld i.gang F.ARR_GANG_GANG_ID != g)))).getD 0

/-- ARR_GANG of the `i`-th member of a gang of `2^g` (R15, R356). -/
def gangWord (id g i : Nat) : Word :=
  let d := gangDims g
  BitVec.ofNat 32 (id + 16 * g + 256 * (i / d.2) + 1024 * (i % d.2))

/-- Gangs set up on the cores of a job, `2^g` consecutive members each. -/
def setGangs (g : Nat) : Nat → List Nat → State → State
  | 0, _, s => s
  | fuel + 1, cs, s =>
    match cs with
    | [] => s
    | _ =>
      let k := 2 ^ g
      let id := if g = 0 then 0 else s.freshGang
      let members := cs.take k
      setGangs g fuel (cs.drop k) ((List.range members.length).foldl (fun t i =>
        t.setReg (R.ARR_GANG (members.getD i 31)) (if g = 0 then 0 else gangWord id g i)) s)

/-- A core of a job that starts (R356): its semaphores, SEQ_ENTRY, START. -/
def startCore (j : Job) (s : State) (n : Nat) : State :=
  let c := ((s.ctx j.ctx).cores.findIdx? (· == n)).getD 0
  let s1 := iter 64 (fun k t => t.setReg (R.SEQ_SEM n k) (if k = j.sem then BitVec.ofNat 32 j.batch else 0)) s
  let s2 := s1.setFld (R.SEQ_ENTRY n) F.SEQ_ENTRY_SLOT ((s.placeOf j.ctx c).imemBase + j.slot)
  seqStart n (s2.setSeqState n Seq.halted)

/-- A job whose cores are free is started, or goes on (R356, R362). -/
def runJob (aclk : Nat) (j : Job) (s : State) : State :=
  let cs := s.jobCores j
  let s1 := cs.foldl (fun t n => switchCore n j.ctx t) s
  let s2 :=
    if j.begun then s1
    else
      let t0 := cs.foldl (fun t n => t.setReg (R.ARR_GANG n) 0) s1
      (cs.foldl (startCore j) (setGangs j.gang 16 cs t0)).count Pg.ctl0 0 1
  let s3 := entryStart j.id s2
  newSlice { j with st := .running, begun := true, held := cs, mark := aclk } aclk s3

/-- Chosen jobs whose cores no other job holds start; a core that is not on is raised first. -/
def pumpJobs (aclk : Nat) (s : State) : State :=
  s.ctl.jobs.foldl (fun t (j : Job) =>
    if j.st = .starting then
      let cs := t.jobCores j
      if t.ctl.jobs.any (fun k => k.held.any (fun n => cs.contains n)) then t
      else if cs.all t.domOn then runJob aclk j t
      else cs.foldl (fun u n => wakeDom n false u) t
    else t) s

/-- A scheduling point at ACLK cycle `aclk` (R360, R361). -/
def schedule (aclk : Nat) (s : State) : State :=
  let s1 := chargeAll aclk s
  let reserved := (s1.ctl.jobs.filter (fun j => j.st == .starting)).flatMap s1.jobCores
  pumpJobs aclk (decideLoop aclk (s1.ctl.jobs.length + 1) (s1.candidates aclk) reserved s1)

/-- The least of a list, or a value over an empty one. -/
def leastOf (d : Nat) : List Nat → Nat
  | [] => d
  | v :: vs => vs.foldl min v

/-- Context `x` gets a runnable job while it has none (R361). -/
def wakeVt (x : Nat) (s : State) : State :=
  if s.ctl.jobs.any (fun j => j.ctx == x) then s
  else
    let t := tenantOf x
    let s1 := setVtTen t (max (s.vtTen t) (leastOf 0 (s.ctl.jobs.map (fun j => s.vtTen (tenantOf j.ctx))))) s
    setVtCtx x (max (s.ctx x).vt (leastOf 0 ((s.ctl.jobs.filter (fun j => tenantOf j.ctx == t)).map
      (fun j => (s.ctx j.ctx).vt)))) s1

/-- A JOB entry becomes runnable (R359, R360). -/
def jobEntry (id aclk : Nat) (s : State) : State :=
  withEntry id 1 (fun e s =>
    if (s.job id).isSome then s
    else
      let j : Job := { id := id, ctx := e.ctx, cores := maskCores (Job'.mask e), gang := Job'.gang e, slot := Job'.slot e,
                       batch := Job'.batch e, sem := Job'.sem e, limit := Job'.limit e }
      schedule aclk ((wakeVt e.ctx (chargeAll aclk s)).modCtl (fun c => { c with jobs := c.jobs ++ [j] }))) s

/-- A job's slice expires (R360). -/
def sliceEnd (id aclk : Nat) (s : State) : State :=
  match s.job id with
  | some j => if j.st = .running ∧ j.sliceOver aclk then schedule aclk s else s
  | none => s

/-- Whether core `n` stands at a drained boundary or has halted (R81). -/
def State.atRest (s : State) (n : Nat) : Bool :=
  let st := s.seqState n
  !s.busy n && (st == Seq.drained || st == Seq.halted || st == Seq.lowPower)

/-- The outgoing job of core `n` reaches its drained boundary: the core is free for the job that was chosen (R360,
R362). -/
def contextSwitch (n aclk : Nat) (s : State) : State :=
  match s.ctl.jobs.find? (fun j => j.st == .draining && j.held.contains n) with
  | none => pumpJobs aclk s
  | some j =>
    if !s.atRest n then s
    else
      let s1 := chargeJob aclk (s.modCtl (fun c => { c with aclk := max c.aclk aclk })) j
      match s1.job j.id with
      | none => s1
      | some k =>
        let h := k.held.filter (· != n)
        pumpJobs aclk (s1.setJob { k with held := h, st := if h.isEmpty then .runnable else .draining })

/-- Whether nothing of context `x` is left on core `n`'s channels and scan queue (R357). -/
def State.quiet (s : State) (n x : Nat) : Bool :=
  (List.range 4).all (fun c => !(s.chan n c).queue.any (fun d => d.ctx == x)
      && (match (s.chan n c).cur with | some d => d.ctx != x | none => true))
    && !(s.core n).scanQ.any (fun q => q.ctx == x) && !s.collPending n x

/-- A job leaves the scheduler; drain requests made for it end. -/
def dropJob (j : Job) (s : State) : State :=
  let s1 := s.modCtl (fun c => { c with jobs := c.jobs.filter (fun (b : Job) => b.id != j.id) })
  if j.st = .draining then j.held.foldl (fun t n => t.setFld (R.SEQ_CTRL n) F.SEQ_CTRL_DRAIN_REQ 0) s1 else s1

/-- Every core of a job has halted on DONE (R357, R374). -/
def jobDone (id aclk : Nat) (s : State) : State :=
  match s.job id with
  | none => s
  | some j =>
    let cs := s.jobCores j
    if (j.st = .running ∨ j.st = .draining) ∧ cs.all (fun n => j.held.contains n && s.seqState n == Seq.halted
        && (s.core n).doneSig && s.quiet n j.ctx) then
      let s1 := chargeAll aclk s
      schedule aclk ((entryDone id 0 0 0 (dropJob j s1)).count Pg.ctl0 1 1)
    else s

/-- A job's running time reaches LIMIT (R357, R374). -/
def jobLimit (id aclk : Nat) (s : State) : State :=
  match s.job id with
  | none => s
  | some j =>
    if !j.held.isEmpty ∧ j.limit ≠ 0 ∧ j.limit * 2048000 ≤ j.ran + (aclk - j.mark) ∧ (s.ctx j.ctx).fault.isNone then
      let s1 := ctxFault j.ctx none (s.ctx j.ctx).cores Flt.watchdog 0 0 (chargeAll aclk s)
      let tag := ((s.entry id).map (·.tag)).getD 0
      s1.modCtx j.ctx (fun c => { c with fault := c.fault.map (fun r => { r with tag := tag }) })
    else s

/-! ### CONTROL entries (R358) -/

/-- `f` on a CONTROL entry of command `cmd` that may start. -/
def withControl (id cmd : Nat) (f : Entry → State → State) (s : State) : State :=
  withEntry id 4 (fun e s => if Con.cmd e = cmd then f e s else s) s

/-- STREAM_WRITE. -/
def streamWrite (id : Nat) (s : State) : State :=
  withControl id 1 (fun e s =>
    match s.strEntry e.ctx (Con.index e) with
    | none => entryDone id 1 4 17 s
    | some k =>
      if s.strHeld k then s
      else
        let n := (s.ctx e.ctx).cores.getD (Con.core e) 31
        let w0 := putBits (putBits (Con.data e 0).toNat 7 1 e.ctx) 12 8 n
        let ws := [BitVec.ofNat 32 w0, Con.data e 1, Con.data e 2, Con.data e 3]
        let t := iter 4 (fun w t => t.setStr k w (ws.getD w 0)) s
        if !t.strPlaced n e.ctx k then entryDone id 1 4 18 s
        else
          let s1 := iter 4 (fun w t => t.setReg (R.STR_STAGE w) (ws.getD w 0)) (s.setReg R.STR_SEL (BitVec.ofNat 32 k))
          entryDone id 0 0 0 (strCmd 1 k s1)) s

/-- STREAM_OP: a command that R208 refuses for chunks queued or a swap in progress waits. -/
def streamOp (id : Nat) (s : State) : State :=
  withControl id 2 (fun e s =>
    match s.strEntry e.ctx (Con.index e) with
    | none => entryDone id 1 4 17 s
    | some k =>
      let t := strCmd (bitsOf (Con.data e 0).toNat 7 0) k (s.setReg R.STR_SEL (BitVec.ofNat 32 k))
      match bitsOf (t.reg R.STR_STATUS).toNat 3 1 with
      | 0 => entryDone id 0 0 0 t
      | 1 => s
      | _ => entryDone id 1 4 18 t) s

/-- A commit that firmware makes for an entry at core `n`'s next operation boundary; it waits while the page's header is
taken. -/
def hostCommit (e : Entry) (base : Nat) (ws : List RWrite) (s : State) : State :=
  let t := s.txn (base / 4096)
  if t.openTxn.isSome ∨ 4 ≤ t.pend.length then s
  else
    (entryStart e.id s).setTxn (base / 4096) { t with pend := t.pend ++ [{
      owner := 16 + s.fld (R.CTL_CX_INFO e.ctx) F.CTL_CX_INFO_OWNER, tag := e.tag % 65536, writes := ws, apply := 1,
      sel := 0, group := none, dtime := 0, reached := false, late := false, fired := false, released := false,
      host := some e.id }] }

/-- REGION. -/
def regionEntry (id : Nat) (s : State) : State :=
  withControl id 3 (fun e s =>
    let n := (s.ctx e.ctx).cores.getD (Con.core e) 31
    let r := Con.index e
    let own := BitVec.ofNat 32 (putBits (Con.data e 1).toNat F.SPD_REGION_OWNER_CTX.hi F.SPD_REGION_OWNER_CTX.lo e.ctx)
    hostCommit e (Pg.spd5 n)
      [⟨R.SPD_REGION_GEOM n r, 0xFFFFFFFF#32, Con.data e 0⟩, ⟨R.SPD_REGION_OWNER n r, 0x003FFFFF#32, own &&& 0x003FFFFF#32⟩,
       ⟨R.SPD_REGION_HEAD n r, 0x0001FFFF#32, Con.data e 2 &&& 0x0001FFFF#32⟩,
       ⟨R.SPD_REGION_TAIL n r, 0x0001FFFF#32, Con.data e 3 &&& 0x0001FFFF#32⟩] s) s

/-- MODEL: a context that is not resident takes the entry in its saved image (R362). -/
def modelEntry (id : Nat) (s : State) : State :=
  withControl id 4 (fun e s =>
    let n := (s.ctx e.ctx).cores.getD (Con.core e) 31
    let p := s.placeOf e.ctx (Con.core e)
    let w := Con.data e 0
    let v := BitVec.ofNat 32 (wordFld w F.SEQ_MODEL_ENTRY + p.imemBase + 65536 * (wordFld w F.SEQ_MODEL_IMAGE + p.imemBase)
      + 2 ^ 31 * wordFld w F.SEQ_MODEL_VALID)
    if (s.core n).ctx = some e.ctx then
      hostCommit e (Pg.seq n) [⟨R.SEQ_MODEL n (Con.index e), 0xBFFF3FFF#32, v &&& 0xBFFF3FFF#32⟩] s
    else
      entryDone id 0 0 0 (s.modCtx e.ctx (fun c => { c with saved := c.saved.map (fun (i : SavedCore) =>
        if i.core = n then { i with models := modNth i.models (Con.index e) (fun _ => v) } else i) }))) s

/-- SHARE. -/
def shareEntry (id : Nat) (s : State) : State :=
  withControl id 5 (fun e s =>
    entryDone id 0 0 0 (s.setFld (R.CTL_CX_SHARE e.ctx) F.CTL_CX_SHARE_SHARE (bitsOf (Con.data e 0).toNat 9 0))) s

/-- ACCOUNT: refused where the page is not the tenant's own. -/
def accountEntry (id : Nat) (s : State) : State :=
  withControl id 6 (fun e s =>
    let da := Con.da e
    if (s.page (pageOf da)).owner = some (tenantOf e.ctx) then
      let bs := (List.range 5).flatMap (fun k => leBytes 8 (s.counter (R.CTL_ACC_LO k e.ctx))) ++ leBytes 8 s.dtime
        ++ leBytes 16 0
      entryDone id 0 0 0 (fwWrite da bs 1 s).2
    else entryDone id 1 4 19 s) s

/-! ### Teardown (R365) -/

/-- Blocks of a context zeroed, its semaphores and saved images cleared, its streams invalidated (step 4). -/
def clearBlocks (x : Nat) (s : State) : State :=
  let c := s.ctx x
  let s1 := (List.range c.cores.length).foldl (fun t i =>
    let n := c.cores.getD i 31
    let p := c.place.getD i ⟨0, 0, 0, 0, 0, 0, 0⟩
    let t1 := { t with
      spad := Memory.zero t.spad (rowAddr n p.rowBase) (rowAddr n (p.rowBase + p.rows))
      rowPoison := t.rowPoison.filter (fun r => decide (r.1 < n * 65536 + p.rowBase ∨ n * 65536 + p.rowBase + p.rows ≤ r.1)) }
    if (t.core n).ctx = some x then
      let t2 := iter 64 (fun k u => u.setReg (R.SEQ_SEM n k) 0) t1
      coreStatus n ((t2.modCore n (fun c => { c with ctx := none, wait := .none, loops := [], doneSig := false })).setSeqState
        n Seq.halted)
    else t1) s
  let s2 := s1.modCtx x (fun c => { c with saved := c.cores.map freshImage })
  let mine : Nat → Bool := fun e => decide (c.strBase ≤ e ∧ e < c.strBase + c.strCount)
  { s2 with streams := s2.streams.filter (fun w => !mine (w.1 / 4)),
            swapReqs := s2.swapReqs.filter (fun q => !mine q.entry) }

/-- Every core, channel and scan queue of a context stopped (steps 1 and 2), its jobs dropped and its commits withdrawn. -/
def stopContext (x : Nat) (s : State) : State :=
  let s1 := dropColl x (stopChans x (List.range 18) (stopCores x (s.ctx x).cores s))
  let s2 := (s1.ctl.jobs.filter (fun j => j.ctx == x)).foldl (fun t j => dropJob j t) s1
  let ids := (s2.hif.entries.filter (fun e => e.ctx == x)).map (·.id)
  { s2 with txns := s2.txns.map (fun p => (p.1, { p.2 with pend := p.2.pend.filter (fun (c : PendCommit) =>
      match c.host with
      | some id => !ids.contains id
      | none => true) })) }

/-- Submission queues of a context disabled. -/
def disableQueues (x : Nat) (s : State) : State :=
  iter 4 (fun q t => t.setFld (R.HIF_SQ_CFG (x / 8) (x % 8) q) F.HIF_SQ_CFG_EN 0) s

/-- The entries of a faulted context complete FAULTED where they had started and FLUSHED where not (R336). -/
def failEntries (x code sub : Nat) (s : State) : State :=
  (s.hif.entries.filter (fun e => e.ctx == x)).foldl (fun t e =>
    entryDone e.id (if e.st = .started then 2 else 3) code sub t) s

/-- TAG of the entry that was running where a context faulted (R352). -/
def State.runningTag (s : State) (x fcore : Nat) : Nat :=
  match s.ctl.jobs.find? (fun j => j.ctx == x && !j.held.isEmpty && j.cores.contains fcore) with
  | some j => ((s.entry j.id).map (·.tag)).getD 0
  | none => 0

/-- The end of a teardown: step 4, the record in the status block, the FAULT vector. -/
def finishTeardown (x : Nat) (signal : Bool) (s : State) : State :=
  let r := (s.ctx x).fault.getD noFault
  let s1 := clearBlocks x (disableQueues x s)
  let s2 := writeStatus x 2 r false s1
  let s3 := s2.setFld (R.CTL_CX_INFO x) F.CTL_CX_INFO_FAULTED 1
  let s4 := s3.modCtx x (fun c => { c with fault := none, tear := false, ends := false, viol := 0 })
  if signal then msixSend (tenantOf x) (s4.fld (R.HIF_VEC (tenantOf x)) F.HIF_VEC_FAULT) s4 else s4

/-- Whether every entry up to each queue's last accepted tail has its completion, written or held (R340, R365). -/
def State.flushed (s : State) (x : Nat) : Bool :=
  (List.range 4).all (fun q => !s.sqEn x q || s.sqFetch x q == s.sqTail x q)
    && (s.fnState (tenantOf x) == fnLost || s.reservedSlots x == 0)

/-- The owning control core tears context `x` down: first its cores, channels and entries (steps 1 to 3), a scheduling
point; then, once its completions are out, its blocks and its record (steps 3 to 5). -/
def teardown (x aclk : Nat) (s : State) : State :=
  let c := s.ctx x
  match c.fault with
  | none => s
  | some r =>
    if !s.exists' x then s
    else if c.tear then
      if s.flushed x then finishTeardown x true s else s
    else
      let tag := if r.tag = 0 then s.runningTag x r.core else r.tag
      let s0 := (chargeAll aclk s).modCtx x (fun c => { c with tear := true, fault := some { r with tag := tag } })
      let s1 := failEntries x r.code r.sub s0
      schedule aclk ((stopContext x s1).count Pg.ctl0 4 1)

/-- A context torn down at once without completions, its record carrying `code` (R343, R371). -/
def tearSilent (x code : Nat) (s : State) : State :=
  let c := s.ctx x
  let r : FaultRec := match c.fault with
    | some r => { r with code := code, sub := 0 }
    | none => ⟨code, 0, 0xFF, 0, 0, s.dtime⟩
  let s1 := stopContext x (s.modCtx x (fun c => { c with fault := some r }))
  let s2 := { s1 with hif := { s1.hif with entries := s1.hif.entries.filter (fun e => e.ctx != x) } }
  finishTeardown x false (s2.count Pg.ctl0 4 1)

/-- The blocks of a context freed and its slot cleared. -/
def freeContext (x : Nat) (s : State) : State :=
  let c := s.ctx x
  let s1 := (List.range c.cores.length).foldl (fun t i =>
    match c.cores[i]?, c.place[i]? with
    | some n, some p => clearRange n p.range t
    | _, _ => t) s
  let s2 := (s1.setFld (R.STR_PART x) F.STR_PART_COUNT 0).setReg (R.CTL_CX_INFO x) 0
  let f := tenantOf x
  let s3 := s2.setReg (R.HIF_FN_STATE f) (s2.reg (R.HIF_FN_STATE f) &&& ~~~(bit32 (8 + x % 8)))
  { s3 with ctxs := Tab.del s3.ctxs x }

/-- DESTROY of context slot `k` of tenant `t` (R371, R374). -/
def cxDestroy (t k : Nat) (s : State) : State :=
  let x := 8 * t + k
  if !s.exists' x then mbResult 1 s
  else mbResult 0 (schedule s.ctl.aclk (freeContext x (tearSilent x 0 s)))

/-! ### RESUME (R341) -/

/-- A write of 1 to HIF_FN_CTRL.RESUME. -/
def resume (f : Nat) (s : State) : State :=
  let now := (s.ringsOf f).any (fun k =>
    match (readBeat f k s).1 with
    | some w => Tab.find (s.fn f).beats k != some w
    | none => false)
  if s.fnState f = fnLost ∧ ((s.fn f).changed ∨ now) then
    let s1 := (setFnState f fnReady s).modFn f (fun x => { x with changed := false, lastChange := s.dtime })
    let taken := (s1.ctl.jobs.filter (fun j => j.st == .starting)).flatMap s1.jobCores
    let s2 := s1.ctl.jobs.foldl (fun t (j : Job) =>
      if tenantOf j.ctx == f && j.st == .draining && t.jobCores j == j.held && !j.held.any (fun n => taken.contains n) then
        j.held.foldl (fun u n => drainChanged n (u.setFld (R.SEQ_CTRL n) F.SEQ_CTRL_DRAIN_REQ 0))
          (t.setJob { j with st := .running })
      else t) s1
    schedule s2.ctl.aclk s2
  else errEvent (Pg.hifFn f) E.hifFn_RESUME_BAD s

/-! ### Instruction-memory copy and rotation exchange (R364) -/

/-- Slots copied between cores. -/
def copySlots (a b first k : Nat) (s : State) : State :=
  iter k (fun i t => t.setSlot b (first + i) (s.slot a (first + i))) s

/-- CTL_XCOPY: a copy that names no core or runs past the last slot is refused with XCOPY_BAD. -/
def xcopy (v : Word) (s : State) : State :=
  let a := wordFld v F.CTL_XCOPY_SRC_CORE
  let b := wordFld v F.CTL_XCOPY_DST_CORE
  let first := wordFld v F.CTL_XCOPY_FIRST
  let k := 64 * wordFld v F.CTL_XCOPY_COUNT
  if 17 < a ∨ 17 < b ∨ 16384 < first + k ∨ !s.domOn a ∨ !s.domOn b then errEvent Pg.ctl0 E.ctl0_XCOPY_BAD s
  else copySlots a b first k s

/-- Rows and their tags copied between cores. -/
def copyRows (a b first k : Nat) (s : State) : State :=
  iter k (fun i t => t.writeRow b (first + i) (s.rowBytes a (first + i)) (s.rowTag a (first + i))) s

/-- Region descriptors copied between cores. -/
def copyRegions (a b first k : Nat) (s : State) : State :=
  iter k (fun i t =>
    (((t.setReg (R.SPD_REGION_GEOM b (first + i)) (s.reg (R.SPD_REGION_GEOM a (first + i)))).setReg
      (R.SPD_REGION_OWNER b (first + i)) (s.reg (R.SPD_REGION_OWNER a (first + i)))).setReg
      (R.SPD_REGION_HEAD b (first + i)) (s.reg (R.SPD_REGION_HEAD a (first + i)))).setReg
      (R.SPD_REGION_TAIL b (first + i)) (s.reg (R.SPD_REGION_TAIL a (first + i)))) s

/-- The SPD_RANGE entry that core `m` has for a context's block at the bases of `p`, if those are free there. -/
def State.samePlace (s : State) (m : Nat) (p : Place) : Option Nat :=
  let ps := s.placesOn m
  if blockFree (ps.map (fun q => (q.rowBase, q.rows))) p.rowBase p.rows
      && blockFree (ps.map (fun q => (q.regBase, q.regCount))) p.regBase p.regCount
      && blockFree (ps.map (fun q => (q.imemBase, q.imemCount))) p.imemBase p.imemCount then
    leastBelow 16 (fun k => s.fld (R.SPD_RANGE_HI m k) F.SPD_RANGE_HI_VALID == 0)
  else none

/-- Context `x` moved from core `a` to core `b` (R364): its blocks copied, the gang position with the image, the core map
changed. -/
def moveContext (x a b aclk : Nat) (s : State) : State :=
  let c := s.ctx x
  match c.cores.findIdx? (· == a) with
  | none => s
  | some i =>
    let p := c.place.getD i ⟨0, 0, 0, 0, 0, 0, 0⟩
    match s.samePlace b p with
    | none => s
    | some k =>
      let s0 := if (s.core a).ctx = some x then switchOut a s else s
      let s1 := copyRows a b p.rowBase p.rows (copyRegions a b p.regBase p.regCount (copySlots a b p.imemBase p.imemCount s0))
      let s2 := setRange b k x p.rowBase (p.rowBase + p.rows - 1) (clearRange a p.range s1)
      let s3 := s2.modCtx x (fun c => { c with
        cores := modNth c.cores i (fun _ => b)
        place := modNth c.place i (fun p => { p with range := k })
        saved := c.saved.map (fun (j : SavedCore) => if j.core = a then { j with core := b } else j) })
      let s4 := s3.modCtl (fun z => { z with jobs := z.jobs.map (fun (j : Job) =>
        if j.ctx = x ∧ j.held.contains a then { j with held := [], st := .starting, mark := aclk } else j) })
      pumpJobs aclk (s4.count Pg.ctl0 5 1)

/-- Whether nothing of context `x` moves on core `a`, whose job stands at a drained boundary (R364, R374). -/
def State.exchangeable (s : State) (x a : Nat) : Bool :=
  s.quiet a x && s.domOn a
    && ((s.core a).ctx != some x || s.atRest a)
    && s.ctl.jobs.all (fun j => j.ctx != x || !j.held.contains a || j.held.all s.atRest)

/-- Firmware moves a context from a core that it drains to a replacement in service (R364). -/
def rotationExchange (x a b aclk : Nat) (s : State) : State :=
  if s.exists' x && s.inService b && s.domOn b && a != b && s.exchangeable x a && (s.ctx x).cores.contains a
      && !(s.ctx x).cores.contains b && (s.ctx x).fault.isNone then
    moveContext x a b aclk (chargeAll aclk s)
  else s

end Sys2Proof.Machine
end

