-- ==== Sys2Proof/Machine/Rel.lean ====
section
/-! DEFINITION. Machine/Rel.lean: REL (R405, R409 to R432): the flash's error log, power failure, retirement of cores and
control cores, maintenance drains, the spare policy and the replay of the log at boot. -/

namespace Sys2Proof.Machine

def State.modRel (s : State) (f : Rel → Rel) : State := { s with rel := f s.rel }
def State.modFlash (s : State) (f : Flash → Flash) : State := { s with flash := f s.flash }

/-- BCLK ticks of an hour (R465). -/
def hourTicks : Nat := 3600 * 1000 * msTicks

/-! ### The error log in flash (R418, R423, R424) -/

/-- Log slots, and slots of one 64 KiB sector. -/
def logSlots : Nat := 4096
def logSector : Nat := 1024

/-- SEQ of the oldest entry in staging, which the next flush writes first. -/
def State.logPoint (s : State) : Nat := (s.reg R.REL_LOG_SEQ).toNat - s.rel.staging.length

/-- Entries written to their slots; a sector that lies two ahead of a sector just entered begins its erase. -/
def programEntries (k : Nat) (s : State) : State :=
  let es := s.rel.staging.take k
  let p := s.logPoint
  let s1 := s.modRel (fun r => { r with
    flash := es.foldl (fun t e => Tab.set t (e.seq % logSlots) e) r.flash
    staging := r.staging.drop k })
  let enters := (p + k) / logSector != p / logSector
  (if enters then s1.modRel (fun r => { r with erasing := true }) else s1).count Pg.rel2 1 es.length

/-- A page program of the log completes: the flush goes on to its goal, then an erase resumes. -/
def logPageDone (k : Nat) (s : State) : State :=
  let s1 := programEntries k s
  let goal := s.rel.flushGoal - k
  if goal ≠ 0 ∧ !s1.rel.staging.isEmpty then
    s1.modRel (fun r => { r with program := some (.log (min logPage (min goal r.staging.length))), retried := false, flushGoal := goal })
  else
    let s2 := s1.modRel (fun r => { r with program := none, retried := false, flushGoal := 0, suspended := false })
    let s3 := s2.setFld R.REL_LOG_STATUS F.REL_LOG_STATUS_FLUSHING 0
    if s3.rel.staging.length ≥ stagingFull then startFlush s3 else s3

/-- Whether flash programs and erases other than the log flush are refused (R423). -/
def State.pfRefuses (s : State) : Bool := s.flag R.REL_LOG_STATUS F.REL_LOG_STATUS_PF

/-- The periodic flush of 1 ms (R418): it waits for an erase to end. -/
def logFlush (s : State) : State :=
  if s.rel.staging.isEmpty then s
  else if s.rel.erasing && !s.rel.suspended && !s.pfRefuses then s.modRel (fun r => { r with flushWaits := true })
  else startFlush s

/-- The erase ahead of the write point completes (R418); a power failure leaves it suspended (R423). -/
def eraseDone (s : State) : State :=
  if !s.rel.erasing ∨ s.rel.suspended ∨ s.pfRefuses then s
  else
    let sec := (s.logPoint / logSector + 2) % 4
    let s1 := s.modRel (fun r => { r with erasing := false, flash := r.flash.filter (fun e => e.1 / logSector != sec) })
    if s1.rel.flushWaits then startFlush s1 else s1

/-! ### Records in flash (R366, R409, R425, R443, R444) -/

/-- The result of a record command (R463). -/
def recResult (state result : Nat) (s : State) : State :=
  let s1 := s.setReg R.SEC_REC_STATUS (BitVec.ofNat 32 (state + 4 * result))
  if result = 0 then s1 else (errEvent Pg.secRec E.secRec_REC_FAIL s1)

/-- The state and result of an update (R373). -/
def updResult (state result : Nat) (s : State) : State :=
  let s1 := (s.setFld R.CTL_UPD_STATUS F.CTL_UPD_STATUS_STATE state).setFld R.CTL_UPD_STATUS F.CTL_UPD_STATUS_RESULT result
  if state = 5 then errEvent Pg.ctlUpd E.ctlUpd_UPD_FAIL s1 else s1

/-- The flash slot that does not hold the active image. -/
def State.idleSlot (s : State) : Nat := 1 - s.fld R.CTL_STATUS F.CTL_STATUS_BOOT_SLOT

/-- The boot pointer names the new image: it is the active one, and the update is done (R367). -/
def updDone (s : State) : State :=
  let img := (if s.flash.slot = 0 then s.flash.img0 else s.flash.img1).getD ⟨0, 0, 0, 0⟩
  let s1 := (s.setFld R.CTL_STATUS F.CTL_STATUS_BOOT_SLOT s.flash.slot).setFld R.CTL_STATUS F.CTL_STATUS_FW_VER img.version
  let r := s1.recs
  let s2 := ({ s1 with recs := { r with svns := img.svn :: r.svns.drop 1, floors := img.floor :: r.floors.drop 1,
                                        measFw := s1.free } }).drew 16
  errEvent Pg.ctlUpd E.ctlUpd_UPD_DONE (updResult 4 0 s2)

/-- What is being written becomes the valid copy; a change of policy waits for the instant of R409. -/
def recordWritten (s : State) : State :=
  let done (s : State) : State := s.modFlash (fun f => { f with next := .none, retried := false })
  match s.flash.next with
  | .none => s
  | .cfg r =>
    let s1 := recResult 3 0 (done (s.modFlash (fun f => { f with cfg := r })))
    if (r.policy = 0) ≠ s.recs.reserve then s1.modRel (fun x => { x with holdStarts := true }) else s1
  | .brd r => recResult 3 0 (done (s.modFlash (fun f => { f with brd := r })))
  | .image i =>
    let slot := s.idleSlot
    updResult 2 0 (done (s.modFlash (fun f => if slot = 0 then { f with img0 := some i } else { f with img1 := some i })))
  | .badImage r => updResult 5 r (done s)
  | .pointer p => updDone (done (s.modFlash (fun f => { f with slot := p })))

/-- A record write fails with flash-write RESULT 4: the previous copy stays in force (R416, R423, R425). -/
def recordFailed (s : State) : State :=
  let done (s : State) : State := s.modFlash (fun f => { f with next := .none, retried := false })
  match s.flash.next with
  | .none => s
  | .cfg _ | .brd _ => recResult 3 4 (done s)
  | .image _ | .badImage _ => updResult 5 4 (done s)
  | .pointer _ => updResult 5 4 (done s)

/-- A flash program completes: a page of a log flush, or a staging or record write. -/
def flashDone (log : Bool) (s : State) : State :=
  if log then
    match s.rel.program with
    | some (.log k) => logPageDone k s
    | _ => s
  else recordWritten s

/-- A flash program has not completed within 5 ms (R416): retried once, and then it fails. A log flush that fails leaves
its entries in staging. -/
def flashTimeout (log : Bool) (s : State) : State :=
  if log then
    match s.rel.program with
    | some (.log _) =>
      if !s.rel.retried then s.modRel (fun r => { r with retried := true })
      else (s.modRel (fun r => { r with program := none, retried := false, flushGoal := 0, suspended := false })).setFld
        R.REL_LOG_STATUS F.REL_LOG_STATUS_FLUSHING 0
    | _ => s
  else if s.flash.next = .none then s
  else if !s.flash.retried then s.modFlash (fun f => { f with retried := true })
  else
    match s.flash.next with
    | .image _ | .badImage _ | .pointer _ => logPartner Pg.ctlUpd E.ctlUpd_UPD_FAIL LogKind.flash 0 (recordFailed s)
    | _ => logPartner Pg.secRec E.secRec_REC_FAIL LogKind.flash 0 (recordFailed s)

/-! ### Power failure (R423, R424, R517) -/

/-- The actions of R423; `rail` names the rail where a monitor caused them (R517). -/
def powerFail (rail : Option Nat) (s : State) : State :=
  let s1 := match s.flash.next with
    | .none => s
    | .image _ | .badImage _ => recordFailed s
    | _ => s
  let s2 := errEvent Pg.rel2 E.rel2_PWR_FAIL ((s1.setFld R.REL_LOG_STATUS F.REL_LOG_STATUS_PF 1).count Pg.rel2 3 1)
  let s3 := logEntry { cls := LogCls.powerFail, arg0 := s2.rel.staging.length,
                       arg := match rail with | some k => [BitVec.ofNat 32 (k + 1)] | none => [] } s2
  startFlush s3

/-- PWR_FAIL_N has been low for 2 BCLK cycles. -/
def pwrFailFall (s : State) : State :=
  if s.rel.pfSince.isSome then s
  else powerFail none (s.modRel (fun r => { r with pfSince := some s.dtime }))

/-- PWR_FAIL_N has stayed high for 10 ms (R424). -/
def pwrFailRise (s : State) : State :=
  if s.pfRefuses then
    (s.modRel (fun r => { r with pfSince := none })).setFld R.REL_LOG_STATUS F.REL_LOG_STATUS_PF 0
  else s

/-! ### Windows, snapshots and service (R417, R422, R428) -/

/-- The window at position `k` has lasted 1,000 ms (R417): its merged violations are logged. -/
def windowEnd (k : Nat) (s : State) : State :=
  match s.rel.windows[k]? with
  | none => s
  | some w =>
    if s.dtime < w.since + 1000 * msTicks then s
    else
      let s1 := s.modRel (fun r => { r with windows := dropNth r.windows k })
      if w.merged = 0 then s1
      else logEntry { cls := LogCls.partner, kind := w.kind, unit := w.unit, code := w.bit, count := min 255 w.merged,
                      arg0 := w.since } s1

/-- Firmware writes a core's wear counts every 24 h (R422). -/
def wearSnapshot (n : Nat) (s : State) : State :=
  if s.dtime < Tab.get s.rel.wearAt 0 n + 24 * hourTicks then s
  else wearSnapshotEntry n (s.modRel (fun r => { r with wearAt := Tab.set r.wearAt n s.dtime }))

/-- A W1S write to REL_SVC: an event for every reason bit that it sets (R415, R428, R432). -/
def svcWrite (v : Word) (s : State) : State :=
  (List.range 7).foldl (fun t k => if bitOf v.toNat k then svcEvent k t else t) s

/-! ### Lane test (R405) -/

/-- The lane test of core `n` at its drained boundary; `fails`: some lane fails. -/
def laneTest (n : Nat) (fails : Bool) (s : State) : State :=
  let c := s.core n
  if !c.laneTest ∨ s.busy n ∨ !s.domOn n then s
  else if !fails then s.setCore n { c with laneTest := false }
  else
    let s1 := s.setCore n { c with laneTest := false, retireWhy := 3 }
    c.vecOps.foldl (fun t o =>
      logEntry { cls := LogCls.suspect, kind := LogKind.core, unit := n, ctx := o.1, arg0 := o.2 }
        (errEvent Pg.rel0 E.rel0_SUSPECT (t.count Pg.rel0 3 1))) s1

/-! ### Cores (R409 to R411, R414, R432) -/

/-- Cores in service, and the active count of R2. -/
def State.coresInService (s : State) : Nat := countBelow 18 s.inService
def activeCount (variant : Nat) : Nat := match variant with | 1 => 16 | 2 => 8 | _ => 4

/-- Cold spare cores. -/
def State.coldSpare (s : State) (n : Nat) : Bool := !s.disabled n && s.fld (R.REL_CORE n) F.REL_CORE_STATE == 1

/-- The contexts with a block on core `n`. -/
def State.ctxsOn (s : State) (n : Nat) : List Nat := s.contexts.filter (fun x => (s.ctx x).cores.contains n)

/-- Whether core `n` and its gang stand at a drained boundary and nothing of its contexts moves. -/
def State.retirable (s : State) (n : Nat) : Bool :=
  s.atRest n && (s.core n).bankSwap.isNone && (s.ctxsOn n).all (fun x => s.exchangeable x n)

/-- A core leaves service for good. -/
def markRetired (n why : Nat) (s : State) : State :=
  let s1 := (s.setFld (R.REL_CORE n) F.REL_CORE_STATE 3).setFld (R.REL_CORE n) F.REL_CORE_REASON why
  logEntry { cls := LogCls.retire, kind := LogKind.core, unit := n, arg0 := why }
    (errEvent Pg.rel0 E.rel0_RETIRE ((s1.modCore n (fun c => { c with retireWhy := 0 })).count Pg.rel0 1 1))

/-- SVC_REQ_N where the cores in service fall below the active count (R415). -/
def svcCores (s : State) : State := if s.coresInService < activeCount s.recs.variant then svcEvent 0 s else s

/-- Each context of core `n` moves to a core in service that has room (R411); one that finds none keeps its state. -/
def spreadContexts (n aclk : Nat) (s : State) : State :=
  (s.ctxsOn n).foldl (fun t x =>
    match leastBelow 18 (fun m => t.inService m && t.domOn m && !(t.ctx x).cores.contains m
        && (match (t.ctx x).cores.findIdx? (· == n) with
            | some i => (t.samePlace m (t.placeOf x i)).isSome
            | none => false)) with
    | some m => moveContext x n m aclk t
    | none => t) s

/-- A core whose retirement is due is drained, then retired; `pass`: the spare passes its built-in test. Of two that stand at
their drained boundary the lower-numbered goes first (R432). -/
def coreRetire (n : Nat) (pass : Bool) (aclk : Nat) (s : State) : State :=
  let why := (s.core n).retireWhy
  if why = 0 ∨ s.fld (R.REL_CORE n) F.REL_CORE_STATE = 3 then s
  else if !s.retirable n then preempt [n] (chargeAll aclk s)
  else if anyBelow n (fun m => (s.core m).retireWhy != 0 && s.fld (R.REL_CORE m) F.REL_CORE_STATE != 3 && s.retirable m) then s
  else if !s.recs.reserve then svcCores (spreadContexts n aclk (markRetired n why s))
  else
    match leastBelow 18 s.coldSpare with
    | none => svcEvent 0 (markRetired n why s)
    | some k =>
      if !s.domOn k then wakeDom k false s
      else if !pass then markRetired k 4 s
      else
        let s1 := (markRetired n why s).setFld (R.REL_CORE k) F.REL_CORE_STATE 0
        let s2 := relSpare LogKind.core n 0xFFFF (n + k * 2 ^ 32) s1
        (s.ctxsOn n).foldl (fun t x => moveContext x n k aclk t) s2

/-- A core is drained for its built-in test once per ROTATE_H hours, one at a time (R414), and returns to service or is
retired; `pass` is the test's result. -/
def maintDrain (n : Nat) (pass : Bool) (aclk : Nat) (s : State) : State :=
  let st := s.fld (R.REL_CORE n) F.REL_CORE_STATE
  let h := s.fld R.REL_THR F.REL_THR_ROTATE_H
  if s.recs.reserve ∨ s.disabled n then s
  else if st = 0 then
    if h = 0 ∨ s.dtime < Tab.get s.rel.rotated 0 n + h * hourTicks
        ∨ anyBelow 18 (fun m => s.fld (R.REL_CORE m) F.REL_CORE_STATE == 2) then s
    else preempt [n] ((chargeAll aclk s).setFld (R.REL_CORE n) F.REL_CORE_STATE 2)
  else if st = 2 then
    if !(s.ctxsOn n).isEmpty ∨ !s.atRest n then s
    else
      let s1 := s.modRel (fun r => { r with rotated := Tab.set r.rotated n s.dtime })
      if pass then
        let s2 := (s.core n).spareDue.foldl (fun t q => bringSpare n q t) s1
        (s2.modCore n (fun c => { c with spareDue := [] })).setFld (R.REL_CORE n) F.REL_CORE_STATE 0
      else s1.modCore n (fun c => { c with retireWhy := 5 })
  else s

/-- The variant fields of PG_CAP of MGT page 0, of the records in force (R39, R434). -/
def capWord (s : State) : Word :=
  BitVec.ofNat 32 (256 * s.recs.variant
    + 4096 * (if s.recs.reserve then activeCount s.recs.variant else countBelow 18 (bitOf s.recs.coreEn))
    + 2 ^ 17 * s.recs.stackCnt + (if s.recs.reserve then 0 else 2 ^ 19))

/-- The enabled cores from the highest number. -/
def highCores (p : Nat → Bool) : List Nat := ((List.range 18).filter p).reverse

/-- A new spare policy takes effect at an instant at which no job runs (R409, R432). -/
def policyChange (aclk : Nat) (s : State) : State :=
  let reserve := s.flash.cfg.policy == 0
  let busy := s.ctl.jobs.any (fun j => !j.held.isEmpty)
    || anyBelow 18 (fun n => (s.core n).retireWhy != 0 || (s.core n).bankSwap.isSome || (s.core n).ops.any (·.swapping))
  if reserve == s.recs.reserve || busy then s
  else
    let s1 := { s with recs := { s.recs with reserve := reserve } }
    let s2 :=
      if reserve then
        let out := (highCores s1.inService).take 2
        out.foldl (fun t n => (spreadContexts n aclk (t.setFld (R.REL_CORE n) F.REL_CORE_STATE 1))) s1
      else
        (List.range 18).foldl (fun t n => if s.coldSpare n then t.setFld (R.REL_CORE n) F.REL_CORE_STATE 0 else t) s1
    let s3 := errEvent Pg.rel0 E.rel0_POLICY (s2.count Pg.rel0 4 1)
    schedule aclk ((s3.setReg (Pg.mgt0 + 8) (capWord s3)).modRel (fun r => { r with holdStarts := false }))

/-! ### Control cores (R412) -/

/-- Events of control core `k` in the last 24 h, from a list of core and DTIME. -/
def State.lastDay (s : State) (l : List (Nat × Nat)) (k : Nat) : Nat :=
  (l.filter (fun e => e.1 == k && decide (s.dtime < e.2 + 24 * hourTicks))).length

/-- REL_CCORE of control core `k` follows its events. -/
def ccoreCounts (k : Nat) (s : State) : State :=
  (s.setFld (R.REL_CCORE k) F.REL_CCORE_CRASHES (min 15 (s.lastDay s.rel.crashes k))).setFld (R.REL_CCORE k)
    F.REL_CCORE_CORR (min 255 (s.lastDay s.rel.corr k))

/-- Whether control core `k` fails: two dumps name it, or its corrected errors exceed the threshold (R412). -/
def State.ccoreFails (s : State) (k : Nat) : Bool :=
  decide (2 ≤ s.lastDay s.rel.crashes k) || decide (s.fld R.REL_THR F.REL_THR_CC_CORR_THR < s.lastDay s.rel.corr k)

/-- A single-bit error in the SRAM partition of control core `k` (R350, R412). -/
def sramSingle (k : Nat) (s : State) : State :=
  let s1 := errEvent Pg.ctl0 E.ctl0_SECDED_CORR (s.count Pg.ctl0 6 1)
  let s2 := ccoreCounts k (s1.modRel (fun r => { r with corr := r.corr ++ [(k, s.dtime)] }))
  let thr := s2.fld R.REL_THR F.REL_THR_CC_CORR_THR
  if s2.lastDay s2.rel.corr k = thr + 1 then
    logEntry { cls := LogCls.threshold, kind := LogKind.ccore, unit := k, arg0 := thr + 1 } s2
  else s2

/-- Contexts owned by control core `k` given away by `f`, which names each one's new owner. -/
def reassign (k : Nat) (f : State → Nat) (s : State) : State :=
  s.contexts.foldl (fun t x =>
    if t.fld (R.CTL_CX_INFO x) F.CTL_CX_INFO_OWNER = k then t.setFld (R.CTL_CX_INFO x) F.CTL_CX_INFO_OWNER (f t) else t) s

/-- The roles of control core `k` given to core `m`. -/
def giveRoles (k m : Nat) (s : State) : State :=
  let s1 := if s.fld R.CTL_STATUS F.CTL_STATUS_SCHED = k then s.setFld R.CTL_STATUS F.CTL_STATUS_SCHED m else s
  if s.fld R.CTL_STATUS F.CTL_STATUS_DEVICE = k then s1.setFld R.CTL_STATUS F.CTL_STATUS_DEVICE m else s1

/-- ACTIVE with bit `k` set or cleared. -/
def setActive (k : Nat) (on : Bool) (s : State) : State :=
  let a := s.fld R.CTL_STATUS F.CTL_STATUS_ACTIVE
  s.setFld R.CTL_STATUS F.CTL_STATUS_ACTIVE (putBits a k k (if on then 1 else 0))

/-- Control cores in service. -/
def State.ccores (s : State) : Nat := countBelow 4 (bitOf (s.fld R.CTL_STATUS F.CTL_STATUS_ACTIVE))

/-- Control core `k` fails (R412): its contexts and roles move to the spare, or to the cores that remain. `bist`: it failed
its built-in test at boot. -/
def ccoreFail (k : Nat) (bist : Bool) (s : State) : State :=
  if s.fld (R.REL_CCORE k) F.REL_CCORE_STATE = 3 ∨ !(bist || s.ccoreFails k) then s
  else
    let s1 := setActive k false (s.setFld (R.REL_CCORE k) F.REL_CCORE_STATE 3)
    match leastBelow 4 (fun m => m != k && s.fld (R.REL_CCORE m) F.REL_CCORE_STATE == 1) with
    | some m =>
      let s2 := setActive m true (s1.setFld (R.REL_CCORE m) F.REL_CCORE_STATE 0)
      relSpare LogKind.ccore k 0xFFFF (k + m * 2 ^ 32) (giveRoles k m (reassign k (fun _ => m) s2))
    | none =>
      let m := (leastBelow 4 (bitOf (s1.fld R.CTL_STATUS F.CTL_STATUS_ACTIVE))).getD 0
      let s2 := giveRoles k m (reassign k State.newOwner s1)
      if s2.ccores < 3 then svcEvent 1 s2 else s2

/-! ### Replay at boot (R422) -/

/-- An entry put into a list in the order of SEQ. -/
def insertEntry (e : LogEntry) : List LogEntry → List LogEntry
  | [] => [e]
  | f :: fs => if e.seq ≤ f.seq then e :: f :: fs else f :: insertEntry e fs

/-- One entry of the log restores what it records; one that names no core restores nothing. -/
def replayEntry (s : State) (e : LogEntry) : State :=
  if 18 ≤ e.unit then s
  else if e.cls = LogCls.spareSwap then
    if e.kind = LogKind.row then
      (s.setFld (R.ARR_SPARE_MAP e.unit) F.ARR_SPARE_MAP_ROW_REPLACED e.subunit).setFld (R.REL_CORE e.unit) F.REL_CORE_ROW_USED 1
    else if e.kind = LogKind.col then
      (s.setFld (R.ARR_SPARE_MAP e.unit) F.ARR_SPARE_MAP_COL_REPLACED e.subunit).setFld (R.REL_CORE e.unit) F.REL_CORE_COL_USED 1
    else if e.kind = LogKind.bank then
      match leastBelow 96 (fun l => s.fld (R.SPD_BANK_MAP e.unit l) F.SPD_BANK_MAP_PHYS == e.subunit) with
      | some l =>
        let s1 := s.setFld (R.SPD_BANK_MAP e.unit l) F.SPD_BANK_MAP_PHYS (e.arg0 / 2 ^ 32)
        (s1.modCore e.unit (fun c => { c with bankGone := c.bankGone ++ [e.subunit] })).setFld (R.REL_CORE e.unit)
          F.REL_CORE_BANKS_FREE (s1.fld (R.REL_CORE e.unit) F.REL_CORE_BANKS_FREE - 1)
      | none => s
    else if e.kind = LogKind.core ∧ e.arg0 / 2 ^ 32 < 18 then s.setFld (R.REL_CORE (e.arg0 / 2 ^ 32)) F.REL_CORE_STATE 0
    else s
  else if e.cls = LogCls.retire then
    if e.kind = LogKind.core then
      (s.setFld (R.REL_CORE e.unit) F.REL_CORE_STATE 3).setFld (R.REL_CORE e.unit) F.REL_CORE_REASON e.arg0
    else
      let tier := if e.kind = LogKind.hbm then 0 else 1
      let s1 := s.modMt (fun m => { m with retired := m.retired ++ [(tier, e.arg0)] })
      s1.setFld R.REL_INV (if tier = 0 then F.REL_INV_T0_RETIRED else F.REL_INV_T1_RETIRED)
        (min 127 (s1.mt.retired.filter (fun q => q.1 == tier)).length)
  else if e.cls = LogCls.svc then s.setReg R.REL_SVC (s.reg R.REL_SVC ||| BitVec.ofNat 32 e.arg0)
  else if e.cls = LogCls.wear then
    let s1 := iter 18 (fun i t => (t.setReg (R.ARR_WEAR_ROW e.unit i) 0).setReg (R.ARR_WEAR_COL e.unit i) 0) s
    e.arg.foldl (fun t w =>
      let i := bitsOf w.toNat 31 16
      if 18 ≤ i % 32 ∨ 64 ≤ i then t
      else t.setFld (if i < 32 then R.ARR_WEAR_ROW e.unit i else R.ARR_WEAR_COL e.unit (i - 32)) F.ARR_WEAR_ROW_COUNT
        (bitsOf w.toNat 15 0)) s1
  else s

/-- Firmware replays the log: the maps of R95 and R121, retirements, wear counts and the state of R415. -/
def replayLog (s : State) : State :=
  ((s.rel.flash.map (·.2)).foldr insertEntry []).foldl replayEntry s

end Sys2Proof.Machine
end

