-- ==== Sys2Proof/Machine/Ploem.lean ====
section
/-! DEFINITION. Machine/Ploem.lean: Ploem ports (R375 to R383), the collective engine (R384 to R394, R397) and the test
flits of R494. -/

namespace Sys2Proof.Machine

def State.port (s : State) (p : Nat) : PlmPort := Tab.get s.plm.ports {} p
def State.setPort (s : State) (p : Nat) (x : PlmPort) : State := { s with plm := { s.plm with ports := Tab.set s.plm.ports p x } }
def State.modPort (s : State) (p : Nat) (f : PlmPort → PlmPort) : State := s.setPort p (f (s.port p))

-- The states of a port (R376).
def Port.down : Nat := 0
def Port.training : Nat := 1
def Port.active : Nat := 2
def Port.degraded : Nat := 3
def Port.failed : Nat := 4
def Port.drained : Nat := 5

def State.portState (s : State) (p : Nat) : Nat := s.fld (R.PLM_PORT_STATUS p) F.PLM_PORT_STATUS_STATE
def setPortState (p v : Nat) (s : State) : State := s.setFld (R.PLM_PORT_STATUS p) F.PLM_PORT_STATUS_STATE v

/-- Whether a port carries flits. -/
def State.portUp (s : State) (p : Nat) : Bool :=
  s.domOn (21 + p) && (s.portState p == Port.active || s.portState p == Port.degraded)

/-! ### Topology and routing (R382, R383) -/

/-- Extent and coordinate of dimension 0 (X), 1 (Y) or 2 (Z). -/
def State.extentOf (s : State) (d : Nat) : Nat :=
  s.fld R.PLM_TOPO (match d with | 0 => F.PLM_TOPO_DX | 1 => F.PLM_TOPO_DY | _ => F.PLM_TOPO_DZ)
def State.coordOf (s : State) (d : Nat) : Nat :=
  s.fld R.PLM_COORD (match d with | 0 => F.PLM_COORD_X | 1 => F.PLM_COORD_Y | _ => F.PLM_COORD_Z)
def State.portDir (s : State) (p : Nat) : Nat := s.fld (R.PLM_PORT_MAP p) F.PLM_PORT_MAP_DIR

/-- The dimension that a direction lies in. -/
def dirDim (dir : Nat) : Nat := dir / 2

/-- The coordinate one step from `c` along direction `dir` in a dimension of extent `n`. -/
def dirStep (dir n c : Nat) : Nat := if n = 0 then c else if dir % 2 = 0 then (c + 1) % n else (c + n - 1) % n

/-- Whether a partner is what R382 expects at port `p`. -/
def State.partnerOk (s : State) (p : Nat) (l : LinkInfo) : Bool :=
  let dir := s.portDir p
  let at' : Nat → Nat := fun d => if d = dirDim dir then dirStep dir (s.extentOf d) (s.coordOf d) else s.coordOf d
  decide (dir < 6) && decide (l.dx = s.extentOf 0 ∧ l.dy = s.extentOf 1 ∧ l.dz = s.extentOf 2)
    && decide (l.x = at' 0 ∧ l.y = at' 1 ∧ l.z = at' 2)
    && decide (l.dir = if dir % 2 = 0 then dir + 1 else dir - 1)

/-- Coordinate of dimension `d` in a flit's DEST (R378). -/
def destOf (dest d : Nat) : Nat := bitsOf dest (5 * d + 4) (5 * d)

/-- The direction in which a flit for `dest` leaves, by dimension order and the shorter way round; none where it has
arrived. -/
def State.route (s : State) (dest : Nat) : Option Nat :=
  match leastBelow 3 (fun d => destOf dest d != s.coordOf d) with
  | none => none
  | some d =>
    let n := s.extentOf d
    let plus := (destOf dest d + n - s.coordOf d) % n
    some (2 * d + if plus ≤ n - plus then 0 else 1)

/-- The port that faces a direction. -/
def State.portFor (s : State) (dir : Nat) : Option Nat := leastBelow 6 (fun p => s.portDir p == dir)

/-- The virtual channel of a flit of class `cls` that leaves in direction `dir`, having come in dimension `from'` with the
dateline bit `line` (R380, R383). -/
def State.leaveVc (s : State) (cls dir : Nat) (from' : Option Nat) (line : Nat) : Nat :=
  let d := dirDim dir
  let c := s.coordOf d
  let crosses := if dir % 2 = 0 then c + 1 == s.extentOf d else c == 0
  2 * cls + if crosses ∨ (from' = some d ∧ line = 1) then 1 else 0

/-! ### Sending -/

/-- Flits that a replay buffer holds, and buffers per virtual channel (R379, R380). -/
def replaySize : Nat := 512
def vcBuffers : Nat := 64

/-- `k` flits sent on port `p`. -/
def sendFlits (p k : Nat) (s : State) : State :=
  (s.modPort p (fun x => { x with next := (x.next + k) % 4096, unacked := min replaySize (x.unacked + k) })).count
    (Pg.plmPort p) 0 k

/-- Whether port `p` may send a flit on virtual channel `v` now. -/
def State.maySend (s : State) (p v : Nat) : Bool :=
  s.portUp p && decide (0 < Tab.get (s.port p).cred 0 v) && decide ((s.port p).unacked < replaySize)

/-- One flit sent on a virtual channel, which spends a credit. -/
def sendOne (p v : Nat) (s : State) : State :=
  sendFlits p 1 (s.modPort p (fun x => { x with cred := Tab.set x.cred v (Tab.get x.cred 0 v - 1) }))

/-- The flits that wait on port `p` to be forwarded go out in their order, as far as credits reach. -/
def pumpFwd (p : Nat) : List (Nat × Nat × Nat) → State → State
  | [], s => s.modPort p (fun x => { x with fwd := [] })
  | f :: fs, s =>
    if s.maySend f.2.1 f.2.2 then pumpFwd p fs (sendOne f.2.1 f.2.2 s)
    else s.modPort p (fun x => { x with fwd := f :: fs })

def pumpAll (s : State) : State := (List.range 6).foldl (fun t p => pumpFwd p (t.port p).fwd t) s

/-! ### Lanes and retraining (R377, R381) -/

/-- A port enters FAILED (R377, R415). -/
def failPort (p : Nat) (s : State) : State :=
  svcEvent 4 (errEvent (Pg.plmPort p) E.plmPort_FAILED (setPortState p Port.failed s))

/-- A port retrains. -/
def retrain (p : Nat) (s : State) : State :=
  let s1 := (s.count (Pg.plmPort p) 6 1).modPort p (fun x => { x with
    nakOut := false, retrains := x.retrains.filter (fun t => decide (s.dtime < t + 1000 * msTicks)) ++ [s.dtime] })
  let s2 := errEvent (Pg.plmPort p) E.plmPort_RETRAIN s1
  let many := decide (s.fld (R.PLM_RETRY_CFG p) F.PLM_RETRY_CFG_RETRAIN_MAX < (s2.port p).retrains.length)
  if many ∧ s.portState p = Port.degraded then failPort p s2
  else
    let lane := if (s2.port p).badLanes = 0 then 1 else (s2.port p).badLanes
    setPortState p (if many ∧ !s.recs.reserve then Port.drained else Port.training)
      (if many then s2.modPort p (fun x => { x with badLanes := lane }) else s2)

/-- A replay on port `p` (R379); too many in 1 ms make it retrain. -/
def replay (p : Nat) (s : State) : State :=
  let s1 := (s.count (Pg.plmPort p) 3 1).modPort p (fun x => { x with
    replays := x.replays.filter (fun t => decide (s.dtime < t + msTicks)) ++ [s.dtime] })
  if s.fld (R.PLM_RETRY_CFG p) F.PLM_RETRY_CFG_RETRY_THR < (s1.port p).replays.length then
    retrain p (logPartner (Pg.plmPort p) E.plmPort_RETRAIN LogKind.ploem p (s1.modPort p (fun x => { x with replays := [] })))
  else s1

/-- No ACK has advanced in time while flits are unacknowledged. -/
def replayTimeout (p : Nat) (s : State) : State :=
  if s.portUp p ∧ (s.port p).unacked ≠ 0 then replay p s else s

/-- Lane `l` of port `p` fails (R377): the port trains on the other lane, or fails with it. -/
def laneFail (p l : Nat) (s : State) : State :=
  let st := s.portState p
  let x := s.port p
  if !s.domOn (21 + p) ∨ st = Port.down ∨ st = Port.failed ∨ bitOf x.badLanes l then s
  else if st = Port.degraded ∧ s.fld (R.PLM_PORT_STATUS p) F.PLM_PORT_STATUS_LANE ≠ l then s
  else
    let s1 := s.setPort p { x with badLanes := putBits x.badLanes l l 1 }
    if (s1.port p).badLanes = 3 ∨ st = Port.degraded then failPort p s1
    else if st = Port.training then s1
    else setPortState p (if s.recs.reserve then Port.training else Port.drained) s1

/-- The lane that a failed training has a port run on alone, from which lanes pass. -/
def oneLane (l0 l1 : Bool) : Option Nat := if l0 && !l1 then some 0 else if l1 && !l0 then some 1 else none

/-- The training of port `p` ends: which lanes pass, and what the partner states (R376, R377, R382). In rotation mode a
drained port trains both lanes again. -/
def trainingDone (p : Nat) (l0 l1 : Bool) (partner : LinkInfo) (s : State) : State :=
  let st := s.portState p
  if !s.domOn (21 + p) ∨ !s.flag (R.PLM_PORT_CTRL p) F.PLM_PORT_CTRL_EN ∨ (st ≠ Port.training ∧ st ≠ Port.drained) then s
  else
    let x := s.port p
    let one := s.flag (R.PLM_PORT_CTRL p) F.PLM_PORT_CTRL_ONE_LANE
    let only := s.fld (R.PLM_PORT_CTRL p) F.PLM_PORT_CTRL_LANE
    let skip : Nat → Bool := fun l => st == Port.training && bitOf x.badLanes l
    let a := l0 && !skip 0 && !(one && only == 1)
    let b := l1 && !skip 1 && !(one && only == 0)
    let s1 := s.setPort p { x with
      cred := [(0, vcBuffers), (1, vcBuffers), (2, vcBuffers), (3, vcBuffers)], replays := [],
      badLanes := if st = Port.drained then (if a then 0 else 1) + (if b then 0 else 2) else x.badLanes }
    if !a && !b then failPort p s1
    else if !s.partnerOk p partner then
      errEvent (Pg.plmPort p) E.plmPort_TOPO_BAD (failPort p s1)
    else
      match oneLane a b with
      | none => pumpAll ((setPortState p Port.active s1).setFld (R.PLM_PORT_STATUS p) F.PLM_PORT_STATUS_LANE 0)
      | some l =>
        let s2 := (setPortState p Port.degraded s1).setFld (R.PLM_PORT_STATUS p) F.PLM_PORT_STATUS_LANE l
        let s3 := if one then s2
          else
            let t := errEvent (Pg.plmPort p) E.plmPort_DEGRADED (s2.modPort p (fun y => { y with badLanes := 2 - l }))
            if s.recs.reserve then relSpare LogKind.ploem p (1 - l) ((1 - l) + l * 2 ^ 32) t else t
        pumpAll s3

/-- PLM_PORT_CTRL of a port changed (R376, R506): an enabled port trains, and a lane test on it stops; a disabled one is
DOWN. -/
def portCtrlChanged (p : Nat) (s : State) : State :=
  if !s.domOn (21 + p) then s
  else if s.flag (R.PLM_PORT_CTRL p) F.PLM_PORT_CTRL_EN then
    let s1 := (List.range 2).foldl (fun t l => t.setFld (R.TST_LANE_STAT p l) F.TST_LANE_STAT_LOCK 0) s
    let x := s.port p
    setPortState p Port.training (if s.portState p = Port.down then
      s1.setPort p { testNext := x.testNext, testLast := x.testLast } else s1)
  else (setPortState p Port.down s).modPort p (fun x => { x with fwd := [], unacked := 0 })

/-! ### Test flits (R494) -/

/-- A test flit addressed to this device. -/
def testArrives (p seq : Nat) (differs : Bool) (s : State) : State :=
  if s.flag (R.TST_FLIT_CFG p) F.TST_FLIT_CFG_CHK then
    let s1 := s.count (Pg.tstLane p) 1 1
    let s2 := if differs then errEvent (Pg.tstLane p) E.tstLane_FLIT_ERR (s1.count (Pg.tstLane p) 2 1) else s1
    let gap := match (s.port p).testLast with
      | some k => (k + 1) % 2 ^ 32 != seq
      | none => false
    let s3 := if gap then errEvent (Pg.tstLane p) E.tstLane_FLIT_ERR (s2.count (Pg.tstLane p) 3 1) else s2
    s3.modPort p (fun x => { x with testLast := some seq })
  else s.count Pg.plm0 7 1

/-- The generator of port `p` sends a test flit to DEST. -/
def testFlitSend (p : Nat) (s : State) : State :=
  if !s.flag (R.TST_FLIT_CFG p) F.TST_FLIT_CFG_GEN ∨ !s.portUp p then s
  else
    let q := (s.port p).testNext
    let s1 := (s.modPort p (fun x => { x with testNext := (q + 1) % 2 ^ 32 })).count (Pg.tstLane p) 0 1
    match s.route (s.fld (R.TST_FLIT_CFG p) F.TST_FLIT_CFG_DEST) with
    | none => testArrives p q false s1
    | some dir =>
      match s.portFor dir with
      | none => s1
      | some o =>
        let v := s.leaveVc 1 dir none 0
        if s1.maySend o v then sendOne o v s1 else s1.modPort p (fun x => { x with fwd := x.fwd ++ [(v, o, v)] })

/-! ### Communicators (R384) -/

def State.commDims (s : State) (k : Nat) : Nat := s.fld (R.PLM_COMM k) F.PLM_COMM_DIMS

/-- Extent and coordinate of a dimension inside a communicator. -/
def State.commN (s : State) (k d : Nat) : Nat := if bitOf (s.commDims k) d then s.extentOf d else 1
def State.commC (s : State) (k d : Nat) : Nat := if bitOf (s.commDims k) d then s.coordOf d else 0

/-- Devices of a communicator, and the rank of this one. -/
def State.commSize (s : State) (k : Nat) : Nat := s.commN k 0 * s.commN k 1 * s.commN k 2
def State.commRank (s : State) (k : Nat) : Nat := (s.commC k 0 * s.commN k 1 + s.commC k 1) * s.commN k 2 + s.commC k 2

/-! ### The descriptor (R385, R386) -/

namespace Coll
def fmtIn (d : List Word) : Nat := df d 2 3 0
def fmtWire (d : List Word) : Nat := df d 2 7 4
def kind (d : List Word) : Nat := df d 2 25 23
def comm (d : List Word) : Nat := df d 3 29 24
def offA (d : List Word) : Nat := df d 4 15 0
def rows (d : List Word) : Nat := df d 6 15 0
def ctag (d : List Word) : Nat := df d 7 11 0
def root (d : List Word) : Nat := df d 8 19 0

/-- Whether the values are INT32. -/
def isInt (d : List Word) : Bool := fmtIn d == 5

/-- The format of a code, INT32 aside. -/
def fmt (c : Nat) : NumFmt := (NumFmt.ofCode c).getD .fp32

/-- Bytes of an element of a format code; code 5 stands for INT32. -/
def size (c : Nat) : Nat := if c = 5 then 4 else (fmt c).bits / 8

/-- Whether rows keep their elements through the formats of input, wire and output: where element sizes differ, the manual
does not state which elements a row holds (log entry 38). -/
def sameSize (d : List Word) : Bool := size (fmtIn d) == size (fmtWire d) && size (fmtWire d) == size (Op.fmtOut d)

/-- Output rows of one member, and the free rows that a collective of `n` members needs (R387). -/
def outRows (d : List Word) (n : Nat) : Nat :=
  match kind d with
  | 1 => rows d / n
  | 2 => n * rows d
  | _ => rows d
def need (d : List Word) (n : Nat) : Nat := if kind d = 2 then n * rows d else rows d

/-- The failing fields of a descriptor among `n` members. -/
def fieldsBad (s : State) (t : Nat) (d : List Word) (n : Nat) : List Nat :=
  let isF : Nat → Bool := fun c => Machine.fmtIn c floats
  commonBad d ++ bad (Op.accum d) 3 ++ bad (Op.relB d) 5 ++ bad (Op.act d != 0) 7 ++ bad (Op.statOutEn d) 9
    ++ bad (Op.statInEn d) 10 ++ bad (!Op.sigEn d) 13
    ++ bad (Op.gangLog2 d != 0 && Op.gangLog2 d != s.fld (R.ARR_GANG t) F.ARR_GANG_SIZE_LOG2) 2
    ++ bad (! [0, 1, 2, 5].contains (fmtIn d)) 15
    ++ bad (if isInt d then fmtWire d != 5 else decide (1 < fmtWire d)) 16
    ++ bad (if isInt d then Op.fmtOut d != 5 else !isF (Op.fmtOut d)) 18
    ++ bad (decide (2 ≤ Op.round d) || (Op.round d == 1 && Op.fmtOut d != 1)) 20
    ++ bad (decide (4 ≤ kind d)) 25
    ++ bad (outside (rows d) 1 49152 || (kind d == 1 && rows d % n != 0)) 28
    ++ bad (kind d == 3 && decide (n ≤ root d)) 30
    ++ rsvd d 2 0xFC1F0F00 ++ rsvd d 3 0xC003FFC0 ++ rsvd d 4 0xFFFF0000 ++ rsvd d 5 0xFFFFFFFF ++ rsvd d 6 0xFFFF0000
    ++ rsvd d 7 0xFFFFF000 ++ rsvd d 8 0xFFF00000
    ++ (List.range 7).flatMap (fun i => rsvd d (9 + i) 0xFFFFFFFF)

/-- The checks at the start for one member (R386). -/
def chk (s : State) (p : CollPost) (n : Nat) : Chk :=
  let d := p.desc
  let c := comm d
  let out := s.rgn p.core (Op.regOut d)
  { fields := fieldsBad s p.core d n
      ++ bad (decide ((s.rgn p.core (Op.regA d)).committed < offA d + rows d)) 27
      ++ bad (out.raw || out.kind != 6) 24
    denied := !s.flag (R.PLM_COMM c) F.PLM_COMM_VALID || s.fld (R.PLM_COMM c) F.PLM_COMM_TENANT != tenantOf p.ctx
      || !s.accessOk p.core p.ctx (Op.regA d) none || !s.accessOk p.core p.ctx (Op.regOut d) (some ⟨6, 0⟩)
    overrun := if decide (out.free < s.held p.core (Op.regOut d) + need d n) then [24] else [] }

end Coll

/-- An ISSUE of a COLLECTIVE of one kind posts its descriptor to the engine's queue (R386). -/
def issueColl (n kind : Nat) (s : State) : State :=
  issueInstr n (fun d => Op.opcode d == OpCode.collective && (if kind = 0 then decide (Coll.kind d = 0 ∨ 4 ≤ Coll.kind d)
      else Coll.kind d == kind)) (fun x p d s =>
    if s.plm.queue.length ≥ 64 then seqIllegal n x s
    else
      let g := if Op.gangLog2 d = 0 then [n] else s.gangOrder (s.gangOf n)
      let pos := (g.findIdx? (· == n)).getD 0
      settleCore n (seqNext n x p (collStatus { s with plm := { s.plm with
        queue := s.plm.queue ++ [⟨n, x, d, g, pos⟩] } }))) s

/-! ### Rows of the workspace -/

/-- A row of free bytes, from free value `i` on. -/
def freeRow (i : Nat) : List Byte := mkRow (fun b => BitVec.ofNat 8 (Config.freeNat (i + b)))

/-- Element `k` of a row in the format of a code. -/
def rowElem (c : Nat) (bs : List Byte) (k : Nat) : Nat := ofLeBytes ((bs.drop (k * Coll.size c)).take (Coll.size c))

/-- A row from its elements. -/
def elemRow (c : Nat) (f : Nat → Nat) : List Byte :=
  (List.range (512 / Coll.size c)).flatMap (fun k => leBytes (Coll.size c) (f k))

/-- A row of format `a` written in format `b` of the same element size (R115, R388). -/
def convRow (a b : Nat) (bs : List Byte) : List Byte :=
  if a = b then bs else elemRow b (fun k => ((Coll.fmt b).encode ((Coll.fmt a).decode (rowElem a bs k))).bits)

/-- The sum of two wire elements (R388). -/
def wireAdd (c a b : Nat) : Nat :=
  if c = 5 then (a + b) % 2 ^ 32
  else ((Coll.fmt c).encode (fp32 (fpAdd (enc32 ((Coll.fmt c).decode a)) (enc32 ((Coll.fmt c).decode b))))).bits

def addRows (c : Nat) (a b : List Byte) : List Byte := elemRow c (fun k => wireAdd c (rowElem c a k) (rowElem c b k))

/-! ### Digests (R389) -/

/-- A wire element as a digest sums it, and its magnitude. -/
def digElem (c : Nat) (bs : List Byte) (k : Nat) : Nat :=
  if c = 5 then rowElem c bs k else enc32 ((Coll.fmt c).decode (rowElem c bs k))
def digMag (c w : Nat) : Nat := if c = 5 then 0 else if bitOf w 31 then w - 2 ^ 31 else w
def digAdd (c a b : Nat) : Nat := if c = 5 then (a + b) % 2 ^ 32 else fpAdd a b

/-- The sums of a chunk's rows, element by element through `f`: by row, and by column of 64. -/
def digSums (c : Nat) (f : Nat → Nat) (rows : List (List Byte)) : List Nat × List Nat :=
  let elems : List Byte → List Nat := fun r => (List.range (512 / Coll.size c)).map (fun k => f (digElem c r k))
  let rs := rows.map (fun r => (elems r).foldl (digAdd c) 0)
  let cs := (List.range 64).map (fun j =>
    rows.foldl (fun a r => (((elems r).zipIdx.filter (fun e => e.2 % 64 == j)).map (·.1)).foldl (digAdd c) a) 0)
  (rs ++ List.replicate (64 - rows.length) 0, cs)

/-- The four arrays of a digest as 256 words: RS, CS, RM, CM. -/
def digest (c : Nat) (rows : List (List Byte)) : List Nat :=
  let v := digSums c id rows
  let m := digSums c (digMag c) rows
  v.1 ++ v.2 ++ m.1 ++ m.2

/-- DATA flits of a chunk of `h` rows (R389). -/
def chunkFlits (h : Nat) : Nat := ceilDiv (h * 512) 240 + 5

/-! ### Collectives -/

def State.setRuns (s : State) (l : List CollRun) : State := collStatus { s with plm := { s.plm with runs := l } }

def CollRun.desc (r : CollRun) : List Word := match r.posts with | p :: _ => p.desc | [] => []
def CollRun.ctx (r : CollRun) : Nat := match r.posts with | p :: _ => p.ctx | [] => 0
def CollRun.core (r : CollRun) : Nat := match r.posts with | p :: _ => p.core | [] => 31
def CollRun.cores (r : CollRun) : List Nat := r.posts.map (·.core)

/-- The first post of each of the cores of a gang, in position order; none while one is missing. -/
def State.gangPosts (s : State) (g : List Nat) : Option (List CollPost) :=
  let ps := g.map (fun m => s.plm.queue.find? (fun (p : CollPost) => p.core == m))
  if ps.all Option.isSome then some (ps.filterMap id) else none

/-- Posts without their SIG_SEM (R386). -/
def CollPost.shape (p : CollPost) : List Word := modNth p.desc 1 (fun w => BitVec.ofNat 32 (putBits w.toNat 5 0 0))

/-- An attempt that failed a check: counted, reported, and after the third the context faults (R391). -/
def digestFail (r : CollRun) (cnt attempts sub : Nat) (s : State) : State :=
  let s1 := errEvent Pg.plm0 E.plm0_DIGEST_RETRY (s.count Pg.plm0 cnt 1)
  if attempts < 3 then s1
  else
    ctxFault r.ctx (some r.core) r.cores Flt.collective sub (Op.tag r.desc)
      (errEvent Pg.plm0 E.plm0_DIGEST_FAIL (s1.count Pg.plm0 4 1))

/-- `k` failed attempts on the die, each counted; `go` where an attempt passed. -/
def dieAttempts (r : CollRun) (k : Nat) (go : State → State) (s : State) : State :=
  let t := iter (min k 3) (fun i t => digestFail r 3 (i + 1) 0xFF t) s
  if 3 ≤ k then t else go t

/-- Input row `i` of a member. -/
def State.collIn (s : State) (p : CollPost) (g : Rgn) (i : Nat) : List Byte × Bool :=
  let q := g.row (Coll.offA p.desc + i)
  (s.rowBytes p.core q, s.rowTag p.core q != 0)

/-- The on-die sum of input row `i` over the members in ascending position (R387, R388). -/
def State.dieSum (s : State) (d : List Word) (i : Nat) : List (CollPost × Rgn) → CollRow
  | [] => ⟨[], false, false⟩
  | [m] => let v := s.collIn m.1 m.2 i; ⟨convRow (Coll.fmtIn d) (Coll.fmtWire d) v.1, v.2, false⟩
  | m :: ms =>
    ms.foldl (fun (a : CollRow) (q : CollPost × Rgn) =>
        let v := s.collIn q.1 q.2 i
        ⟨addRows (Coll.fmtWire d) a.bytes (convRow (Coll.fmtIn d) (Coll.fmtWire d) v.1), a.poison || v.2, false⟩)
      (let v := s.collIn m.1 m.2 i; ⟨convRow (Coll.fmtIn d) (Coll.fmtWire d) v.1, v.2, false⟩)

/-- The workspace at the start (R387): the on-die sum, each member's own rows, or the root's. -/
def CollRun.startRows (s : State) (r : CollRun) : List (Nat × CollRow) :=
  let d := r.desc
  let ms := r.posts.zip r.ins
  let alone := decide (r.members = r.posts.length)
  let free (i : Nat) (c : CollRow) : CollRow := if Coll.sameSize d then c else { c with bytes := freeRow (s.free + 512 * i) }
  let rows := List.range (Coll.rows d)
  match Coll.kind d with
  | 0 | 1 => rows.map (fun i => (i, { free i (s.dieSum d i ms) with final := alone }))
  | 2 => (ms.zipIdx).flatMap (fun m => rows.map (fun i =>
      ((r.rank0 + m.2) * Coll.rows d + i, { free (m.2 * Coll.rows d + i) (s.dieSum d i [m.1]) with final := true })))
  | _ => (ms.zipIdx).flatMap (fun m =>
      if r.rank0 + m.2 = Coll.root d then rows.map (fun i => (i, { free i (s.dieSum d i [m.1]) with final := true })) else [])

/-- Ports that face a dimension of a communicator and carry flits. -/
def State.commPorts (s : State) (k : Nat) : List Nat :=
  (List.range 6).filter (fun p => s.portUp p && bitOf (s.commDims k) (dirDim (s.portDir p)))

/-- The engine starts the oldest collective of core `n` once every member of its gang has posted it (R386, R394). `fails`
counts attempts of on-die work that fail their check, `par` is a parity error that the reads of inputs meet. The flits of
the first chunks are counted as a free number (log entry 39). -/
def collStart (n fails : Nat) (par : Option (Nat × Bool)) (s : State) : State :=
  match s.plm.queue.find? (fun (p : CollPost) => p.core == n) with
  | none => s
  | some p =>
    match s.gangPosts p.gang with
    | none => s
    | some ps =>
      let k := Coll.comm p.desc
      let busy := s.plm.runs.any (fun r => Coll.comm r.desc == k)
        || (s.plm.queue.takeWhile (fun (q : CollPost) => !ps.contains q)).any (fun q => Coll.comm q.desc == k)
      if busy ∨ 4 ≤ s.plm.runs.length then s
      else
        let s0 := { s with plm := { s.plm with queue := ps.foldl (fun l q => l.erase q) s.plm.queue } }
        let members := s.commSize k * ps.length
        let differ := bad (ps.any (fun q => q.shape != p.shape || q.ctx != p.ctx)) 14
        let fs := ((ps.map (fun q => Coll.chk s q members)).foldl Chk.add { fields := differ }).faults
        if !fs.isEmpty then ctxFaults p.ctx (some n) p.gang (Op.tag p.desc) fs
          (ps.foldl (fun t q => countChk q.core (Coll.chk s q members) t) (collStatus s0))
        else
          let r : CollRun := { posts := ps, ins := ps.map (fun q => s.rgn q.core (Op.regA q.desc)),
                               tenant := tenantOf p.ctx, rank0 := s.commRank k * ps.length, members := members, rows := [] }
          dmaParity n p.ctx (Op.tag p.desc) par (dieAttempts r fails (fun t =>
            let rows := r.startRows t
            let t1 := if Coll.sameSize p.desc then t else t.drew (512 * rows.length)
            let poisoned := (rows.filter (fun q => q.1 % 64 == 0
              && anyBelow 64 (fun i => (rows.find? (fun e => e.1 == q.1 + i)).any (fun e => e.2.poison)))).length
            let t2 := (t1.count Pg.plm0 5 poisoned).setRuns (t1.plm.runs ++ [{ r with rows := rows }])
            (t2.commPorts k).foldl (fun u q => (sendFlits q (Config.freeNat u.free) u).drew 1) t2)) (collStatus s0)

/-- The run that a chunk belongs to. -/
def State.collFor (s : State) (tenant ctag : Nat) : Option CollRun :=
  s.plm.runs.find? (fun r => r.tenant == tenant && Coll.ctag r.desc == ctag)

def State.setRun (s : State) (r : CollRun) : State :=
  s.setRuns (s.plm.runs.map (fun (q : CollRun) => if q.cores = r.cores ∧ q.ctx = r.ctx then r else q))

/-- The fields of the DIGEST record (R389). -/
def ChunkIn.byte (c : ChunkIn) (i : Nat) : Nat := (c.dig.getD i 0).toNat
def ChunkIn.h (c : ChunkIn) : Nat := c.byte 2
def ChunkIn.words (c : ChunkIn) : List Nat := (List.range 256).map (fun i => ofLeBytes ((c.dig.drop (16 + 4 * i)).take 4))
def ChunkIn.rows (c : ChunkIn) : List (List Byte) := (List.range c.h).map (fun i => (c.data.drop (512 * i)).take 512)

/-- Whether a chunk and its digest have arrived whole. -/
def ChunkIn.whole (c : ChunkIn) : Bool := decide (1200 ≤ c.dig.length) && decide (c.h * 512 ≤ c.data.length)

/-- Fields of a record that differ from the collective's own (R390). -/
def ChunkIn.differs (c : ChunkIn) (d : List Word) : List Nat :=
  bad (c.byte 1 / 16 != Coll.fmtWire d) 16 ++ bad (c.byte 1 % 16 != Coll.kind d) 25
    ++ bad (c.byte 4 + 256 * c.byte 5 != Coll.rows d) 28

/-- Port `p` forgets an arrived chunk. -/
def forgetChunk (p : Nat) (c : ChunkIn) (s : State) : State := s.modPort p (fun x => { x with ins := x.ins.erase c })

/-- Rows of the workspace after a chunk at `row` (R387, R388, R392). -/
def CollRun.land (r : CollRun) (row : Nat) (add last poison : Bool) (rows : List (List Byte)) : CollRun :=
  { r with rows := (rows.zipIdx).foldl (fun t e =>
      let old := Tab.find t (row + e.2)
      let bs := match add, old with
        | true, some o => addRows (Coll.fmtWire r.desc) e.1 o.bytes
        | _, _ => e.1
      let was := add && (old.map (·.poison)).getD false
      Tab.set t (row + e.2) ⟨bs, poison || was, last⟩) r.rows }

/-- A chunk has arrived on port `p` with its digest, and is checked, added or taken, and sent on (R390 to R392, R397). The
ring's schedule, which the manual leaves to the engine, comes as operands (log entry 39): the chunk's first row in the
vector, whether it is added or taken, whether its rows are then complete, and whether it goes on; `sumBad` says that the
addition failed its check. -/
def chunkReceive (p tenant ctag chunk row : Nat) (add last onward sumBad : Bool) (s : State) : State :=
  match (s.port p).ins.find? (fun c => c.tenant == tenant && c.ctag == ctag && c.chunk == chunk), s.collFor tenant ctag with
  | some c, some r =>
    let d := r.desc
    let total := Coll.need d r.members
    if !c.whole then s
    else
      match c.differs d with
      | f :: fs => ctxFault r.ctx (some r.core) r.cores Flt.malformed (fs.foldl min f) (Op.tag d) (forgetChunk p c s)
      | [] =>
        let key := row * 8 + p
        if c.h = 0 ∨ 64 < c.h ∨ total < row + c.h ∨ digest (Coll.fmtWire d) c.rows ≠ c.words then
          let k := Tab.get r.sentTries 0 key + 1
          let s1 := digestFail r 2 k p ((forgetChunk p c s).setRun { r with sentTries := Tab.set r.sentTries key k })
          if k < 3 then sendFlits p 1 s1 else s1
        else if add && sumBad then
          let k := Tab.get r.sumTries 0 key + 1
          digestFail r 3 k 0xFF (s.setRun { r with sumTries := Tab.set r.sumTries key k })
        else
          let poison := bitOf (c.byte 3) 0
          let r1 := { r.land row add last poison c.rows with
            sentTries := Tab.del r.sentTries key, sumTries := Tab.del r.sumTries key }
          let bad := poison || (List.range c.h).any (fun i => ((Tab.find r1.rows (row + i)).map (·.poison)).getD false)
          let s1 := ((forgetChunk p c s).setRun r1).count Pg.plm0 1 1
          let s2 := if bad then s1.count Pg.plm0 5 1 else s1
          let dir := s.portDir p
          match if onward then s.portFor (if dir % 2 = 0 then dir + 1 else dir - 1) else none with
          | some o => sendFlits o (chunkFlits c.h) s2
          | none => s2
  | _, _ => s

/-- The workspace rows that member `u` of a run outputs, in order. -/
def CollRun.outs (r : CollRun) (u : Nat) : List Nat :=
  let d := r.desc
  let first := if Coll.kind d = 1 then (r.rank0 + u) * (Coll.rows d / r.members) else 0
  (List.range (Coll.outRows d r.members)).map (first + ·)

/-- Whether every row that a run's members output is complete. -/
def CollRun.complete (r : CollRun) : Bool :=
  (List.range r.posts.length).all (fun u => (r.outs u).all (fun i => ((Tab.find r.rows i).map (·.final)).getD false))

/-- The outputs of member `u` written and committed, its inputs released and its semaphore signalled (R394). -/
def collOut (r : CollRun) (s : State) (m : (CollPost × Rgn) × Nat) : State :=
  let p := m.1.1
  let d := p.desc
  let o := Op.regOut d
  let g := s.rgn p.core o
  let rows := r.outs m.2
  let s1 := (rows.zipIdx).foldl (fun t e =>
    match Tab.find r.rows e.1 with
    | some c =>
      let bs := if Coll.sameSize d then convRow (Coll.fmtWire d) (Op.fmtOut d) c.bytes else freeRow t.free
      (t.writeRow p.core (g.rowHead e.2) bs (if c.poison then 3 else 0)).drew (if Coll.sameSize d then 0 else 512)
    | none => t) s
  let s2 := advanceHead p.core o rows.length s1
  let s3 := if Op.relA d then releaseTo p.core (Op.regA d) m.1.2 (Coll.offA d + Coll.rows d) s2 else s2
  semAdd p.core p.ctx (Op.sigSem d) 1 s3

/-- The collective that core `n` takes part in completes once every output chunk has passed its checks (R394). -/
def collComplete (n fails : Nat) (s : State) : State :=
  match s.plm.runs.find? (fun r => r.cores.contains n && r.complete) with
  | none => s
  | some r =>
    dieAttempts r fails (fun t =>
      let t1 := ((r.posts.zip r.ins).zipIdx).foldl (collOut r) t
      (t1.setRuns (t1.plm.runs.filter (· != r))).count Pg.plm0 0 1) s

/-- A collective of context `x`, running or waiting for a member's post, has waited longer than PLM_COLL_WAIT (R392). -/
def collTimeout (x : Nat) (s : State) : State :=
  let lim := (s.reg R.PLM_COLL_WAIT).toNat
  let waiting := (s.plm.runs.find? (fun r => r.ctx == x)).map (fun r => (r.cores, Op.tag r.desc))
  let posted := (s.plm.queue.find? (fun (p : CollPost) => p.ctx == x)).map (fun p => (p.gang, Op.tag p.desc))
  match waiting, posted with
  | none, none => s
  | w, q =>
    let v := w.getD (q.getD ([], 0))
    if lim = 0 then s
    else ctxFault x (v.1.head?) v.1 Flt.watchdog 0 v.2 (errEvent Pg.plm0 E.plm0_COLL_WAIT (s.count Pg.plm0 6 lim))

/-! ### Receiving a flit (R379 to R383, R393, R494) -/

/-- A flit discarded with NAK: the violation is logged, and the partner replays. -/
def nakFlit (p : Nat) (s : State) : State :=
  (logPartner (Pg.plmPort p) E.plmPort_CRC LogKind.ploem p s).modPort p (fun x => { x with nakOut := true })

/-- What every flit carries: ACK, NAK and CREDIT. -/
def flitLink (p : Nat) (f : Flit) (s : State) : State :=
  let x := s.port p
  let left := (x.next + 4096 - 1 - f.ack % 4096) % 4096
  let s1 := s.setPort p { x with
    unacked := if left ≤ x.unacked then left else x.unacked
    cred := Tab.set x.cred (f.creditVc % 4) (min vcBuffers (Tab.get x.cred 0 (f.creditVc % 4) + f.credit)) }
  pumpAll (if f.nak then replay p s1 else s1)

/-- Whether a communicator that reaches across port `p` has a collective, queued or running, of this tag and tenant. -/
def State.expects (s : State) (p tenant ctag : Nat) : Bool :=
  let dim := dirDim (s.portDir p)
  let fits : List Word → Nat → Bool := fun d t => t == tenant && Coll.ctag d == ctag && bitOf (s.commDims (Coll.comm d)) dim
  s.plm.runs.any (fun r => fits r.desc r.tenant) || s.plm.queue.any (fun (q : CollPost) => fits q.desc (tenantOf q.ctx))

/-- A DATA or DIGEST flit for this device. -/
def chunkFlit (p : Nat) (f : Flit) (s : State) : State :=
  if s.fnState f.tenant = fnScrub then s.count Pg.plm0 7 1
  else if !s.expects p f.tenant f.ctag then
    logPartner Pg.plm0 E.plm0_TENANT_MISMATCH LogKind.ploem p
      (errEvent Pg.plm0 E.plm0_TENANT_MISMATCH (s.count Pg.plm0 7 1))
  else if f.typ = 2 ∧ f.payload.head? = some 1#8 then
    sendFlits p ((s.collFor f.tenant f.ctag).elim 0 (fun r => chunkFlits (min 64 (Coll.rows r.desc)))) s
  else
    let add : ChunkIn → ChunkIn := fun c =>
      if f.typ = 1 then { c with data := c.data ++ f.payload } else { c with dig := c.dig ++ f.payload }
    let is : ChunkIn → Bool := fun c => c.tenant == f.tenant && c.ctag == f.ctag && c.chunk == f.chunk
    s.modPort p (fun x => { x with
      ins := if x.ins.any is then x.ins.map (fun c => if is c then add c else c)
             else x.ins ++ [add { tenant := f.tenant, ctag := f.ctag, chunk := f.chunk }] })

/-- A flit accepted in order. `testBad`: the body of a test flit differs from its PRBS31 output (log entry 40). -/
def flitAccept (p : Nat) (f : Flit) (testBad : Bool) (s : State) : State :=
  match f.typ, f.link with
  | 3, some l =>
    if s.partnerOk p l then s
    else
      logPartner (Pg.plmPort p) E.plmPort_TOPO_BAD LogKind.ploem p
        (errEvent (Pg.plmPort p) E.plmPort_TOPO_BAD (failPort p s))
  | _, _ =>
    match s.route f.dest with
    | some dir =>
      match s.portFor dir with
      | some o =>
        let v := s.leaveVc (f.vc / 2) dir (some (dirDim (s.portDir p))) (f.vc % 2)
        if (s.port p).fwd.isEmpty && s.maySend o v then sendOne o v s
        else s.modPort p (fun x => { x with fwd := x.fwd ++ [(f.vc, o, v)] })
      | none => s.count Pg.plm0 7 1
    | none =>
      if f.typ = 3 then testArrives p (ofLeBytes ((f.payload.drop 1).take 4)) testBad s
      else chunkFlit p f s

/-- A flit arrives on port `p`; `crcOk` and `fecOk` are its checks, `corr` the FEC symbols corrected in it. -/
def flitReceive (p : Nat) (f : Flit) (crcOk fecOk : Bool) (corr : Nat) (testBad : Bool) (s : State) : State :=
  if !(s.portUp p || (s.domOn (21 + p) && s.portState p == Port.drained)) then s
  else
    let s1 := (s.count (Pg.plmPort p) 1 1).count (Pg.plmPort p) 4 corr
    if !fecOk then nakFlit p (errEvent (Pg.plmPort p) E.plmPort_FEC_UNCORR (s1.count (Pg.plmPort p) 5 1))
    else if !crcOk then nakFlit p (errEvent (Pg.plmPort p) E.plmPort_CRC (s1.count (Pg.plmPort p) 2 1))
    else
      let x := s1.port p
      if 3 < f.typ then nakFlit p s1
      else
        let s2 := flitLink p f s1
        if f.typ = 0 then s2
        else if f.seq ≠ x.expect then (if x.nakOut then s2 else nakFlit p s2)
        else if vcBuffers ≤ (x.fwd.filter (fun q => q.1 == f.vc)).length then
          retrain p (logPartner (Pg.plmPort p) E.plmPort_CREDIT_OVF LogKind.ploem p
            (errEvent (Pg.plmPort p) E.plmPort_CREDIT_OVF (s2.count Pg.plm0 7 1)))
        else
          flitAccept p f testBad (s2.modPort p (fun y => { y with expect := (y.expect + 1) % 4096, nakOut := false }))

end Sys2Proof.Machine
end

