-- ==== Sys2Proof/Machine/Fabric.lean ====
section
/-! DEFINITION. Machine/Fabric.lean: the fabric links, their CRC and walking tests, and the die-to-die link (R28 to R32,
R403, R480, R497). -/

namespace Sys2Proof.Machine

/-- Whether the domain of the endpoint of link `k` is on (R28, R472, R480). -/
def State.linkOn (s : State) (k : Nat) : Bool :=
  if k < 20 then s.domOn k
  else if k = 24 then s.domOn 20
  else if k = 26 then anyBelow 6 (fun p => s.domOn (21 + p))
  else if k = 27 ∨ k = 28 then s.domOn k
  else if k = 29 then s.domOn 30
  else s.domOn 29

/-- Whether the endpoint of link `k` is drained or idle. -/
def State.linkIdle (s : State) (k : Nat) : Bool :=
  if k < 18 then
    !s.busy k && (List.range 4).all (fun c => (s.chan k c).cur.isNone)
  else if k < 20 ∨ k = 24 then !s.mt.accs.any (fun a => s.sectorDomain a.da == if k = 24 then 20 else k)
  else if k = 20 ∨ k = 26 then s.plm.runs.isEmpty
  else if k = 27 then s.isp.cams.all (fun c => c.2.frames.isEmpty)
  else if k = 28 then s.video.run.isNone && s.video.engs.all (fun e => e.2.run.isNone)
  else true

/-- FAB_WALK (R31): a walking test starts, or is refused. One test runs at a time. -/
def walkGo (v : Word) (s : State) : State :=
  let k := wordFld v F.FAB_WALK_LINK
  if !v.getLsbD 5 then s
  else if k = 31 ∨ !s.linkOn k ∨ !s.linkIdle k ∨ s.fld R.FAB_WALK_STATUS F.FAB_WALK_STATUS_STATE = 1 then
    errEvent Pg.fab0 E.fab0_WALK_REFUSED s
  else (s.setReg R.FAB_WALK_STATUS (BitVec.ofNat 32 (1 + 4 * k))).count Pg.fab0 4 1

/-- A walking test ends (R497). -/
def walkDone (pass : Bool) (s : State) : State :=
  if s.fld R.FAB_WALK_STATUS F.FAB_WALK_STATUS_STATE ≠ 1 then s
  else
    let k := s.fld R.FAB_WALK_STATUS F.FAB_WALK_STATUS_LINK
    let s1 := (s.setFld R.FAB_WALK_STATUS F.FAB_WALK_STATUS_STATE (if pass then 2 else 3)).setFld (R.FAB_LINK_STAT k)
      F.FAB_LINK_STAT_WALK_FAIL (if pass then 0 else 1)
    if pass then s1 else errEvent Pg.fab0 E.fab0_WALK_FAIL (s1.count Pg.fab0 5 1)

/-- FAB_CRC_INJ (R31): the next data beat of a link and direction loses its CRC. -/
def crcInj (v : Word) (s : State) : State :=
  let k := (wordFld v F.FAB_CRC_INJ_LINK, wordFld v F.FAB_CRC_INJ_DIR)
  if !v.getLsbD 6 ∨ k.1 = 31 ∨ s.fabInj.contains k then s else { s with fabInj := s.fabInj ++ [k] }

/-- A data beat on link `k`, direction `dir`, of which `bad` transmissions in a row fail their CRC (R403); an armed
injection makes the first fail. `row` is the scratchpad row that the beat goes to, if it goes to one. -/
def fabricBeat (k dir bad : Nat) (row : Option (Nat × Nat)) (s : State) : State :=
  let hit := s.fabInj.contains (k, dir)
  let fails := if hit then max bad 1 else bad
  let resends := min fails 3
  let s1 := ({ s with fabInj := s.fabInj.filter (· != (k, dir)) }).count Pg.fab0 0 1
  if resends = 0 then s1
  else
    let s2 := ((s1.count Pg.fab0 1 resends).count Pg.rel3 0 resends).satFld (R.FAB_LINK_STAT k) F.FAB_LINK_STAT_RESENDS resends
    let s3 := errEvent Pg.fab0 E.fab0_CRC_RESEND s2
    if fails ≤ 3 then s3
    else
      let s4 := errEvent Pg.fab0 E.fab0_BEAT_POISON ((s3.count Pg.fab0 2 1).count Pg.rel3 1 1)
      match row with
      | some q => s4.setRowTag q.1 q.2 2
      | none => s4

/-- FAB_D2D_CTRL (R29, R32): a retrain holds the traffic that crosses. -/
def d2dRetrain (v : Word) (s : State) : State :=
  if !v.getLsbD 0 ∨ s.flag R.FAB_D2D_STATUS F.FAB_D2D_STATUS_RETRAINING then s
  else
    errEvent Pg.fab0 E.fab0_D2D_RETRAIN
      (((s.setFld R.FAB_D2D_STATUS F.FAB_D2D_STATUS_RETRAINING 1).count Pg.fab0 6 1).count Pg.tstD2d 1 1)

/-- A die-to-die retrain completes (R29). -/
def d2dDone (s : State) : State :=
  if s.flag R.FAB_D2D_STATUS F.FAB_D2D_STATUS_RETRAINING then
    s.setFld R.FAB_D2D_STATUS F.FAB_D2D_STATUS_RETRAINING 0
  else s

/-- A die-to-die lane fails (R29, R410, R415): a redundant lane repairs it while one is left. `training`: it failed at
training. -/
def d2dLaneFail (training : Bool) (s : State) : State :=
  let left := s.fld R.REL_D2D F.REL_D2D_LEFT
  let s0 := if training then s.count Pg.tstD2d 2 1 else s
  if left = 0 then svcEvent 5 s0
  else
    let k := min 255 (s.fld R.REL_D2D F.REL_D2D_REPAIRED + 1)
    let s1 := (s0.setFld R.REL_D2D F.REL_D2D_LEFT (left - 1)).setFld R.REL_D2D F.REL_D2D_REPAIRED k
    let s2 := (s1.setFld R.FAB_D2D_STATUS F.FAB_D2D_STATUS_LEFT (left - 1)).setFld R.FAB_D2D_STATUS F.FAB_D2D_STATUS_REPAIRED k
    logEntry { cls := LogCls.repair, kind := LogKind.d2d, arg0 := k } (errEvent Pg.rel1 E.rel1_REPAIR (s2.count Pg.rel1 3 1))

end Sys2Proof.Machine
end

