-- ==== Sys2Proof/Machine/Sec.lean ====
section
/-! DEFINITION. Machine/Sec.lean: records and anti-rollback (R433 to R444), identity and attestation (R445 to R447), memory
keys and their rotation (R449 to R454), confidential mode (R455, R456) and the scrub between users (R342, R343, R457). -/

namespace Sys2Proof.Machine

def State.modSec (s : State) (f : Sec → Sec) : State := { s with sec := f s.sec }

/-! ### Records (R435 to R439, R444) -/

/-- `n` bytes from `o` as a little-endian number. -/
def recNum (b : List Byte) (o n : Nat) : Nat := ofLeBytes ((b.drop o).take n)

/-- Enabled cores and HBM3 stacks of a variant (R2). -/
def variantCores : Nat → Nat
  | 1 => 18
  | 2 => 10
  | 3 => 6
  | _ => 0
def variantStacks : Nat → Nat
  | 1 => 2
  | _ => 1

/-- A configuration record's bytes (R435, R437). -/
def parseCfg (b : List Byte) : CfgRec :=
  { variant := recNum b 64 1, policy := recNum b 65 1, stackCnt := recNum b 66 1, debug := recNum b 67 1,
    coreEn := recNum b 68 4, bar2 := recNum b 72 1, operator := recNum b 73 1, pf0 := recNum b 112 8, pf8 := recNum b 120 8,
    comm := (List.range 64).map (fun k => BitVec.ofNat 32 (recNum b (128 + 4 * k) 4)), svn := recNum b 6 1, floor := recNum b 7 1 }

/-- A board record's bytes (R435, R439). -/
def parseBrd (b : List Byte) : BrdRec :=
  let byte : Nat → Nat := fun k => recNum b (64 + k) 1
  { lp5 := byte 0, split := byte 1, led := byte 2, kind := byte 3, dims := (List.range 6).map (fun k => byte (4 + k)),
    dirs := (List.range 6).map (fun k => byte (10 + k)), tdm := (List.range 16).map (fun k => recNum b (80 + 2 * k) 2),
    cam := (List.range 16).map (fun k => byte (48 + k)), logBase := recNum b 128 4,
    rails := (List.range 16).map (fun k => byte (68 + k)), svn := recNum b 6 1, floor := recNum b 7 1 }

/-- What a configuration record must state to verify (R437, R438). -/
def CfgRec.valid (c : CfgRec) : Bool :=
  decide (1 ≤ c.variant ∧ c.variant ≤ 3) && countBelow 32 (bitOf c.coreEn) == variantCores c.variant
    && decide (c.coreEn < 2 ^ 18) && c.stackCnt == variantStacks c.variant
    && bitsOf c.pf0 63 60 == 0 && bitsOf c.pf8 63 60 == 0

/-- Whether the header of `b` is of type `t`, within `n` bytes (R435). -/
def headerOk (b : List Byte) (t n : Nat) : Bool :=
  recNum b 0 4 == 0x5EC00D07 && recNum b 4 1 == t && recNum b 5 1 == 1 && recNum b 7 1 ≤ recNum b 6 1
    && n == 64 + recNum b 8 4 + 1952 + 3309

/-- Whether DEVICE is zero or this device (R436). -/
def State.deviceOk (s : State) (b : List Byte) : Bool :=
  recNum b 16 32 == 0
    || (List.range 8).all (fun w => recNum b (16 + 4 * w) 4 == (s.reg (R.SEC_DEVID w)).toNat)

/-- A record refused (R460, R463). -/
def refuseRecord (result : Nat) (s : State) : State :=
  recResult 3 result (errEvent Pg.secBoot E.secBoot_REC_REFUSED (s.count Pg.secBoot 2 1))

/-- The RESULT with which a record of type 2 (configuration) or 3 (board) fails to verify, if any (R436). `keyOk` and
`sigOk` are what the digest of PUBKEY and SIG show. -/
def State.recordBad (s : State) (t : Nat) (b : List Byte) (n : Nat) (poison : Bool) (keyOk sigOk : Bool) : Option Nat :=
  let floor := s.fld R.SEC_AR (if t = 2 then F.SEC_AR_AR_CFG else F.SEC_AR_AR_BRD)
  if poison || !headerOk b t n then some 1
  else if t = 2 && (!keyOk || bitOf (s.fld R.SEC_AR F.SEC_AR_REVOKED) (recNum b 56 1 % 4) || decide (3 < recNum b 56 1)
      || !(parseCfg b).valid) then some 1
  else if t = 3 && !keyOk then some 5
  else if !sigOk then some 1
  else if !s.deviceOk b || (t = 2 && recNum b 16 32 == 0) then some 3
  else if recNum b 6 1 < floor then some 2
  else none

/-- WRITE_CONFIG (type 2) and WRITE_BOARD (type 3): the record is read from T0's pages, verified and written (R444). One
record is written at a time. -/
def writeRecord' (t : Nat) (keyOk sigOk : Bool) (s : State) : State :=
  let da := s.fld R.SEC_REC_DA_LO F.SEC_REC_DA_LO_DA * 512 + s.fld R.SEC_REC_DA_HI F.SEC_REC_DA_HI_DA * 2 ^ 32
  let n := s.fld R.SEC_REC_LEN F.SEC_REC_LEN_BYTES
  if s.flash.next ≠ .none then s
  else if (List.range ((da + n - 1) / 2 ^ 21 + 1 - da / 2 ^ 21)).any (fun k => (s.page (da / 2 ^ 21 + k)).owner != some 0) then
    refuseRecord 1 s
  else
    let r := fwRead da n s
    let s1 := r.2.2.2
    match s1.recordBad t r.1 n (r.2.1 != 0 || !r.2.2.1) keyOk sigOk with
    | some k => refuseRecord k s1
    | none =>
      if s1.pfRefuses then recResult 3 4 s1
      else recResult 2 0 (s1.modFlash (fun f => { f with
        next := if t = 2 then .cfg (parseCfg r.1) else .brd (parseBrd r.1), retried := false }))

/-! ### Anti-rollback (R442, R443) -/

/-- The counters of SEC_AR follow the record in flash. -/
def arRegs (s : State) : State :=
  let f := s.flash
  s.setReg R.SEC_AR (BitVec.ofNat 32 (f.arFw % 256 + f.arCfg % 256 * 2 ^ 8 + f.arBrd % 256 * 2 ^ 16 + f.revoked % 16 * 2 ^ 24))

/-- Firmware in service raises each counter to the FLOOR of the record in force and sets the REVOKED bits `revoke`; each
raise is one update, and firmware logs it. -/
def arRaise (revoke : Nat) (s : State) : State :=
  if !s.booted ∨ s.pfRefuses then s
  else
    let f := s.flash
    let fl : Nat → Nat := fun k => s.recs.floors.getD k 0
    let g : Flash := { f with arFw := max f.arFw (fl 0), arCfg := max f.arCfg (fl 1), arBrd := max f.arBrd (fl 2),
                              revoked := f.revoked ||| revoke % 16 }
    let k := (if g.arFw = f.arFw then 0 else 1) + (if g.arCfg = f.arCfg then 0 else 1) + (if g.arBrd = f.arBrd then 0 else 1)
      + (if g.revoked = f.revoked then 0 else 1)
    let bootArg := s.fld R.CTL_STATUS F.CTL_STATUS_FW_VER + s.fld R.SEC_BOOT F.SEC_BOOT_SLOT * 2 ^ 32
    iter k (fun _ t => logEntry { cls := LogCls.boot, arg0 := bootArg } t)
      ((arRegs { s with flash := g }).count Pg.secBoot 3 k)

/-! ### Identity and attestation (R445 to R447) -/

/-- Words of the identity public key and its signature, after the 8 of DEVICE_ID, among the free values of an identity. -/
def idWords : Nat := 1316

/-- ID_VALID and SEC_DEVID follow the identity record. -/
def idRegs (s : State) : State :=
  match s.flash.ident with
  | none => s.setFld R.SEC_BOOT F.SEC_BOOT_ID_VALID 0
  | some b =>
    iter 8 (fun w t => t.setReg (R.SEC_DEVID w) (BitVec.ofNat 32 (Config.freeNat (b + w))))
      (s.setFld R.SEC_BOOT F.SEC_BOOT_ID_VALID 1)

/-- PROVISION: accepted only while no valid identity record exists. -/
def provision (s : State) : State :=
  if s.flash.ident.isSome then s
  else idRegs ((s.modFlash (fun f => { f with ident := some s.free })).drew (8 + idWords))

/-- The words of an attestation report before its signature (R447), for a GO of `iid`. -/
def reportWords (iid : Nat) (s : State) : List Word :=
  let w : Nat → Word := fun n => BitVec.ofNat 32 n
  let key : Nat → Nat := fun t => s.fld (R.SEC_KEY t) F.SEC_KEY_STATE + 8 * s.fld (R.SEC_KEY t) F.SEC_KEY_CUR
  let meas : Nat → Nat → List Word := fun k n => (List.range n).map (fun i => w (Config.freeNat (k + i)))
  let tail := [s.fld R.CTL_STATUS F.CTL_STATUS_FW_VER,
               s.recs.svns.getD 0 0 + 2 ^ 8 * s.recs.svns.getD 1 0 + 2 ^ 16 * s.recs.svns.getD 2 0 + 2 ^ 24 * key 0]
    ++ (List.range 3).map (fun k => key (4 * k + 1) + 2 ^ 8 * key (4 * k + 2) + 2 ^ 16 * key (4 * k + 3) + 2 ^ 24 * key (4 * k + 4))
    ++ [key 13 + 2 ^ 8 * key 14 + 2 ^ 16 * key 15]
  [w (0xA7E5 + 2 ^ 16)] ++ (List.range 8).map (fun k => s.reg (R.SEC_ATT_NONCE k)) ++ [0#32]
    ++ [w s.dtime, w (s.dtime / 2 ^ 32), w s.flash.boots]
    ++ [w (s.recs.variant + (if s.recs.reserve then 0 else 256) + 2 ^ 16 * s.fld R.SEC_BOOT F.SEC_BOOT_SLOT
          + 2 ^ 17 * s.fld R.SEC_BOOT F.SEC_BOOT_FALLBACK + 2 ^ 24 * iid)]
    ++ [s.reg R.SEC_AR]
    ++ [w (s.fld R.SEC_CONF F.SEC_CONF_MASK + 2 ^ 16 * s.fld R.SEC_SCRUB F.SEC_SCRUB_ACTIVE)]
    ++ (List.range 8).map (fun k => s.reg (R.SEC_DEVID k)) ++ meas s.recs.measFw 16 ++ meas s.recs.meas 32 ++ tail.map w ++ List.replicate 50 0#32

/-- SEC_ATT_CMD.GO of `iid` (R446): the report is latched and signed, or the GO is refused. -/
def attGo (iid : Nat) (v : Word) (s : State) : State :=
  if !v.getLsbD 0 then s
  else
    let s1 := s.setFld R.SEC_ATT_STATUS F.SEC_ATT_STATUS_REQ_IID iid
    if s.sec.reportSig = 0 ∧ !s.sec.report.isEmpty ∨ !s.flag R.SEC_BOOT F.SEC_BOOT_ID_VALID then
      (s1.setFld R.SEC_ATT_STATUS F.SEC_ATT_STATUS_STATE 3).count Pg.secAtt 1 1
    else (s1.setFld R.SEC_ATT_STATUS F.SEC_ATT_STATUS_STATE 1).modSec (fun k => { k with report := reportWords iid s, reportSig := 0 })

/-- The signature of a report is done; its words are free values. -/
def attDone (s : State) : State :=
  if s.sec.report.isEmpty ∨ s.sec.reportSig ≠ 0 then s
  else
    (((s.setFld R.SEC_ATT_STATUS F.SEC_ATT_STATUS_STATE 2).modSec (fun k => { k with reportSig := s.free + 1 })).drew 829).count
      Pg.secAtt 0 1

/-- Word `k` of the report (R447). Before a report exists the word is free. -/
def State.reportWord (s : State) (k : Nat) : Word :=
  if s.sec.reportSig = 0 then BitVec.ofNat 32 (Config.freeNat s.free)
  else if k < 128 then s.sec.report.getD k 0
  else if k < 955 then BitVec.ofNat 32 (Config.freeNat (s.sec.reportSig + k - 128))
  else if k = 955 then BitVec.ofNat 32 (Config.freeNat (s.sec.reportSig + k - 128) % 256)
  else 0

/-- A read of SEC_ATT_DATA: the addressed word, and WORD advances (R462). -/
def attRead (s : State) : State :=
  let k := s.fld R.SEC_ATT_ADDR F.SEC_ATT_ADDR_WORD
  ((s.answers (s.reportWord k)).setFld R.SEC_ATT_ADDR F.SEC_ATT_ADDR_WORD ((k + 1) % 1024)).drew
    (if s.sec.reportSig = 0 then 1 else 0)

/-- A read of SEC_ID_DATA: a word of the identity public key and its signature, and WORD advances (R460); free without an
identity or beyond the last word. -/
def idRead (s : State) : State :=
  let k := s.fld R.SEC_ID_ADDR F.SEC_ID_ADDR_WORD
  let i := match s.flash.ident with
    | some b => if k < idWords then b + 8 + k else s.free
    | none => s.free
  ((s.answers (BitVec.ofNat 32 (Config.freeNat i))).setFld R.SEC_ID_ADDR F.SEC_ID_ADDR_WORD ((k + 1) % 2048)).drew 1

/-! ### Keys (R449, R450) -/

def keyActive : Nat := 1
def keyRotating : Nat := 2
def keyRetiring : Nat := 3
def keyDestroying : Nat := 4
def State.keyState (s : State) (t : Nat) : Nat := s.fld (R.SEC_KEY t) F.SEC_KEY_STATE
def setKeyState (t v : Nat) (s : State) : State := s.setFld (R.SEC_KEY t) F.SEC_KEY_STATE v

/-- A slot filled from the DRBG: a key that no slot has held. -/
def fillKey (slot : Nat) (s : State) : State :=
  s.modSec (fun k => { k with lastGen := k.lastGen + 1, gens := Tab.set k.gens slot (k.lastGen + 1) })

/-- A slot overwritten: no sector's tag passes under it any more. -/
def eraseKey (slot : Nat) (s : State) : State :=
  s.modSec (fun k => { k with lastGen := k.lastGen + 1, gens := Tab.set k.gens slot (k.lastGen + 1) })

/-! ### The walk (R451 to R454) -/

/-- The first page from `p` on that the walk of tenant `t` visits: owned, and not yet of the current epoch. -/
def State.walkNext (s : State) (t p : Nat) : Option Nat :=
  (s.mt.pages.filter (fun q => decide (p ≤ q.1) && q.2.owner == some t && q.2.epoch != s.curEpoch t)).foldl
    (fun m q => match m with | some k => some (min k q.1) | none => some q.1) none

def walkProg (p g : Nat) (s : State) : State :=
  (s.setReg R.SEC_ROT_PROG (BitVec.ofNat 32 (p % 2 ^ 17 + g % 512 * 2 ^ 17))).modSec (fun k => { k with walkPage := some p, walkGran := g })

/-- The walk goes to the next page of tenant `t` from page `p` on; with none left the tenant is RETIRING, and the next
tenant in the queue is walked. -/
def walkFrom (t p : Nat) : Nat → State → State
  | 0, s => s
  | fuel + 1, s =>
    match s.walkNext t p with
    | some q => walkProg q 0 s
    | none =>
      let s1 := (setKeyState t keyRetiring s).modSec (fun k => { k with walkPage := none, walkGran := 0 })
      match s1.sec.walkQ with
      | [] => s1.setFld R.SEC_ROT_STATUS F.SEC_ROT_STATUS_WALKING 0
      | u :: us =>
        walkFrom u 0 fuel (((s1.modSec (fun k => { k with walkQ := us })).setFld (R.SEC_KEY u) F.SEC_KEY_QUEUED 0).setFld
          R.SEC_ROT_STATUS F.SEC_ROT_STATUS_TENANT u)

/-- The walk engine, if idle, takes the next tenant. -/
def walkStart (s : State) : State :=
  match s.sec.walkQ with
  | [] => s
  | t :: ts =>
    if s.flag R.SEC_ROT_STATUS F.SEC_ROT_STATUS_WALKING then s
    else
      walkFrom t 0 17 ((((s.modSec (fun k => { k with walkQ := ts })).setFld (R.SEC_KEY t) F.SEC_KEY_QUEUED 0).setFld
        R.SEC_ROT_STATUS F.SEC_ROT_STATUS_WALKING 1).setFld R.SEC_ROT_STATUS F.SEC_ROT_STATUS_TENANT t)

/-- SEC_ROT_CMD.GO (R452). -/
def rotateGo (v : Word) (s : State) : State :=
  let t := wordFld v F.SEC_ROT_CMD_TENANT
  if !v.getLsbD 4 then s
  else if s.keyState t = keyRotating ∨ s.keyState t = keyRetiring then
    (errEvent Pg.secKey E.secKey_ROT_BUSY (s.count Pg.secKey 3 1)).setFld R.SEC_ROT_STATUS F.SEC_ROT_STATUS_RESULT 1
  else if s.keyState t ≠ keyActive then (s.count Pg.secKey 3 1).setFld R.SEC_ROT_STATUS F.SEC_ROT_STATUS_RESULT 2
  else
    let e := 1 - s.curEpoch t
    let s1 := setKeyState t keyRotating ((fillKey (2 * t + e) s).setFld (R.SEC_KEY t) F.SEC_KEY_CUR e)
    let s2 := (s1.setFld (R.SEC_KEY t) F.SEC_KEY_QUEUED 1).setFld R.SEC_ROT_STATUS F.SEC_ROT_STATUS_RESULT 0
    walkStart (s2.modSec (fun k => { k with walkQ := k.walkQ ++ [t] }))

/-- The eight sectors of a granule read under the old epoch, each with what its read meets (R453). -/
def walkRead (t : Nat) : Nat → Nat → List SectorRead → State → List (List Byte × Nat) × State
  | 0, _, _, s => ([], s)
  | k + 1, da, os, s =>
    let q := readSector t da (os.headD .clean) s
    let r := walkRead t k (da + 512) os.tail q.2.2
    ((q.1, rowSrc q.2.1) :: r.1, r.2)

/-- A sector re-encrypted and re-tagged: its bytes and poison source stay. -/
def walkStore (t da : Nat) (q : List Byte × Nat) (s : State) : State :=
  let s1 := { s with da := Memory.writeList s.da da (q.1.take 512) }
  let s2 := s1.modMt (fun m => { m with tags := Tab.set m.tags (da / 512) { s.tagNow t da with poison := q.2 } })
  if q.2 = 0 then s2 else s2.count Pg.secKey 4 1

def walkStores (t : Nat) : Nat → List (List Byte × Nat) → State → State
  | _, [], s => s
  | da, q :: qs, s => walkStores t (da + 512) qs (walkStore t da q s)

/-- One granule of the walk (R452, R453, R464). `late`: its last sector would come too late, so the engine tries again;
`outs` is what the reads of its sectors meet. It waits while the page moves, while its tier is not on, and while an access
to the granule is outstanding. -/
def walkGranule (late : Bool) (outs : List SectorRead) (s : State) : State :=
  match s.sec.walkPage with
  | none => s
  | some p =>
    let t := s.fld R.SEC_ROT_STATUS F.SEC_ROT_STATUS_TENANT
    let r := s.page p
    let da := p * 2 ^ 21 + s.sec.walkGran * 4096
    if r.owner ≠ some t ∨ r.epoch = s.curEpoch t then walkFrom t (p + 1) 17 s
    else if r.moving ∨ !(List.range 8).all (fun k => s.domOn (s.sectorDomain (da + 512 * k)))
        ∨ s.mt.accs.any (fun a => granuleOf a.da == granuleOf da) then s
    else if late then s.count Pg.secKey 2 1
    else
      let q := walkRead t 8 da outs s
      let g := s.sec.walkGran + 1
      if g = 512 then
        let s1 := walkStores t da q.1 (q.2.setPage p { q.2.page p with epoch := q.2.curEpoch t })
        walkFrom t (p + 1) 17 (s1.count Pg.secKey 1 1)
      else (walkStores t da q.1 (walkProg p g q.2)).count Pg.secKey 1 1

/-- The old slot of a RETIRING tenant is overwritten once every access under the old epoch has been delivered (R454). -/
def rotationRetire (t : Nat) (s : State) : State :=
  if s.keyState t ≠ keyRetiring ∨ s.mt.accs.any (fun a => a.owner == t) then s
  else
    let s1 := setKeyState t keyActive (eraseKey (2 * t + (1 - s.curEpoch t)) s)
    let s2 := s1.setFld (R.SEC_KEY t) F.SEC_KEY_ROTS ((s.fld (R.SEC_KEY t) F.SEC_KEY_ROTS + 1) % 65536)
    errEvent Pg.secKey E.secKey_ROT_DONE (s2.count Pg.secKey 0 1)

/-- A tenant's walk or queued rotation abandoned (R457). -/
def walkAbandon (t : Nat) (s : State) : State :=
  let s1 := (s.modSec (fun k => { k with walkQ := k.walkQ.filter (· != t) })).setFld (R.SEC_KEY t) F.SEC_KEY_QUEUED 0
  if s1.flag R.SEC_ROT_STATUS F.SEC_ROT_STATUS_WALKING ∧ s1.fld R.SEC_ROT_STATUS F.SEC_ROT_STATUS_TENANT = t then
    walkStart ((s1.modSec (fun k => { k with walkPage := none, walkGran := 0 })).setFld R.SEC_ROT_STATUS F.SEC_ROT_STATUS_WALKING 0)
  else s1

/-! ### Confidential mode (R455, R505) -/

def State.confidential (s : State) (t : Nat) : Bool := bitOf (s.fld R.SEC_CONF F.SEC_CONF_MASK) t

/-- Whether a confidential tenant's context is resident on core `n` now. -/
def State.confResident (s : State) (n : Nat) : Bool :=
  match (s.core n).ctx with
  | some x => s.confidential (tenantOf x)
  | none => false

/-- A debug access refused for a confidential tenant (R463). -/
def dbgDeny (s : State) : State := errEvent Pg.secConf E.secConf_DBG_DENY (s.count Pg.secConf 3 1)

/-! ### The scrub (R342, R343, R457) -/

/-- Camera `n` stops at once and its line ring is empty. -/
def stopCamera (n : Nat) (s : State) : State :=
  let s1 := s.setFld (R.ISP_CAM_CFG n) F.ISP_CAM_CFG_EN 0
  (s1.setCam n { s1.cam n with frames := [] }).modIsp (fun z => { z with stripe := if z.stripe = some n then none else z.stripe })

/-- Decode context `c` stops at once. -/
def stopDecode (c : Nat) (s : State) : State :=
  let s1 := (s.setFld (R.DEC_CTX_CFG c) F.DEC_CTX_CFG_EN 0).modVid (fun z => { z with
    engs := z.engs.map (fun e => (e.1, { e.2 with ready := e.2.ready.filter (· != c), run := if e.2.run = some c then none else e.2.run }))
    run := match z.run with | some r => if r.c = c then none else some r | none => none })
  s1.setDec c { s1.dec c with cur := none, waiting := [], out := [] }

/-- Feeds of a tenant stopped: its cameras and decode contexts, and the audio groups that deliver to its regions. -/
def stopFeeds (f : Nat) (s : State) : State :=
  let s1 := (List.range 16).foldl (fun t n =>
    if tenantOf (t.fld (R.ISP_CAM_OWN n) F.ISP_CAM_OWN_CTX) = f ∧ t.camFld n F.ISP_CAM_CFG_EN = 1 then stopCamera n t else t) s
  let s2 := (List.range 32).foldl (fun t c =>
    if tenantOf (t.decCtx c) = f ∧ t.fld (R.DEC_CTX_CFG c) F.DEC_CTX_CFG_EN = 1 then stopDecode c t else t) s1
  (List.range 16).foldl (fun t g =>
    let cfg := t.reg (R.BRZ_AG_CFG g)
    let r := t.rgn (wordFld cfg F.BRZ_AG_CFG_CORE) (wordFld cfg F.BRZ_AG_CFG_REGION)
    if t.agActive g && r.en && tenantOf r.ctx == f then stopGroup g t else t) s2

/-- The entries of range set `set` made invalid. -/
def clearSet (set : Nat) (s : State) : State :=
  iter 16 (fun e t => t.setFld (R.MT_RNG_BASE_LO (set / 8) (set % 8) e) F.MT_RNG_BASE_LO_VALID 0) s

/-- Transactions of IID `f` discarded (R62). -/
def dropTxns (f : Nat) (s : State) : State :=
  let s1 := { s with txns := s.txns.map (fun (q : Nat × PageTxn) =>
    match q.2.openTxn with
    | some x => if x.owner = f then (q.1, { q.2 with openTxn := none, lastResult := 4, lastTag := x.tag }) else q
    | none => q) }
  s1.dropPend (fun c => c.owner == f) 4

/-- Registers, counters and shadows of the page at `base` from page offset `lo` on at their reset values. -/
def resetPage (base lo : Nat) (s : State) : State :=
  let out : Nat → Bool := fun a => decide (a < base + lo ∨ base + 4096 ≤ a)
  let other : Nat → Bool := fun a => decide (a < base ∨ base + 4096 ≤ a)
  { s with regs := s.regs.filter (fun r => out r.1), cnt := s.cnt.filter (fun r => other r.1),
           shadow := s.shadow.filter (fun r => other r.1) }

/-- A function-level reset of function `f`, which ends in state `to` (R343, R457, steps 1 to 3). -/
def functionReset (f dest : Nat) (s : State) : State :=
  if s.fnState f = fnScrub then s.modFn f (fun x => { x with scrubTo := dest })
  else
    let code := if s.fnState f = fnLost then 0x0D else 0
    let s1 := (setFnState f fnScrub s).modFn f (fun x => { x with scrubTo := dest })
    let s2 := s1.setFld R.SEC_SCRUB F.SEC_SCRUB_ACTIVE (putBits (s1.fld R.SEC_SCRUB F.SEC_SCRUB_ACTIVE) f f 1)
    let s3 := walkAbandon f (setKeyState f keyDestroying s2)
    let xs := (List.range 8).map (8 * f + ·)
    let s4 := xs.foldl (fun t x => clearSet x t) (clearSet (128 + f) s3)
    let s5 := stopFeeds f (xs.foldl (fun t x => dropColl x t) s4)
    let s6 := xs.foldl (fun t x => if t.exists' x then freeContext x (tearSilent x code t) else t) s5
    let s7 := { s6 with plm := { s6.plm with ports := s6.plm.ports.map (fun p =>
      (p.1, { p.2 with ins := p.2.ins.filter (fun c => c.tenant != f) })) } }
    dropTxns f (schedule s7.ctl.aclk s7)

/-- Steps 4 to 7 of a scrub, once no access to the tenant's pages remains past stage 1. -/
def scrubErase (f : Nat) (s : State) : State :=
  if s.fnState f ≠ fnScrub ∨ s.mt.accs.any (fun a => a.owner == f) then s
  else
    let s1 := eraseKey (2 * f + 1) (eraseKey (2 * f) s)
    let mine := s1.pagesWith (fun _ r => r.owner == some f)
    let s2 := s1.modMt (fun m => { m with
      pages := m.pages.filter (fun q => !mine.contains q.1), tags := m.tags.filter (fun t => !mine.contains (t.1 / 4096))
      fills := m.fills.filter (fun p => !mine.contains p), promo := m.promo.filter (fun p => !mine.contains p)
      frees := m.frees.filter (fun p => !mine.contains p)
      job := match m.job with
        | some (.fill p) => if mine.contains p then none else m.job
        | some (.move p _ _) => if mine.contains p then none else m.job
        | none => none })
    let s3 := setKeyState f keyActive ((fillKey (2 * f) s2).setFld (R.SEC_KEY f) F.SEC_KEY_CUR 0)
    let pend := bitOf (s3.fld R.SEC_CONF F.SEC_CONF_CLEAR_PEND) f
    let s4 := if pend then
        let m := s3.setFld R.SEC_CONF F.SEC_CONF_CLEAR_PEND (putBits (s3.fld R.SEC_CONF F.SEC_CONF_CLEAR_PEND) f f 0)
        m.setFld R.SEC_CONF F.SEC_CONF_MASK (putBits (m.fld R.SEC_CONF F.SEC_CONF_MASK) f f 0)
      else s3
    let dest := (s4.fn f).scrubTo
    let s5 := (resetPage (Pg.hifFn f) 0x100 s4).setFn f { lastChange := s.dtime }
    let s6 := [Hdr.txnCtrl, Hdr.txnTag, Hdr.errStat, Hdr.errEn, Hdr.errFirst, Hdr.dtimeLo, Hdr.dtimeHi].foldl
      (fun t o => t.setReg (Pg.hifFn f + o) 0) s5
    let s7 := { s6 with hif := { s6.hif with fetchCnt := s6.hif.fetchCnt.filter (fun q => q.1 / 32 != f) } }
    (setFnState f dest (s7.setFld R.SEC_SCRUB F.SEC_SCRUB_ACTIVE (putBits (s7.fld R.SEC_SCRUB F.SEC_SCRUB_ACTIVE) f f 0))).count
      Pg.secConf 0 1

/-- An FLR of function `f`; a disabled function has none. -/
def functionLevelReset (f : Nat) (s : State) : State :=
  if s.fnState f = fnDisabled then s else functionReset f fnReady s

/-- VF Enable of virtual function `f` set or cleared (R342, R343): enabling passes through a scrub. -/
def vfEnable (f : Nat) (on : Bool) (s : State) : State :=
  if f = 0 ∨ (f = 8 ∧ s.flag R.HIF_LINK_CFG F.HIF_LINK_CFG_SPLIT) then s
  else if on then (if s.fnState f = fnDisabled then functionReset f fnReady s else s)
  else if s.fnState f = fnDisabled then s
  else functionReset f fnDisabled s

/-- Link `l` goes down (R343, R345): the functions that it carries are reset; virtual functions lose their enable. -/
def linkDown (l : Nat) (s : State) : State :=
  let split := s.flag R.HIF_LINK_CFG F.HIF_LINK_CFG_SPLIT
  let fs := (List.range 16).filter (fun f => if split then f / 8 == l else l == 0)
  let s1 := errEvent Pg.hif0 E.hif0_LINK_DOWN ((s.setReg (R.HIF_LINK_STATUS l) 0).count Pg.hif0 3 1)
  fs.foldl (fun t f =>
    if t.fnState f = fnDisabled then t
    else functionReset f (if f = 0 ∨ (split ∧ f = 8) then fnReady else fnDisabled) t) s1

/-- PE1_PERST_N falls: in split mode link 1 and its functions are reset (R347). -/
def pe1Fall (s : State) : State :=
  let s1 := { s with pins := { s.pins with pe1Low := true } }
  if s.flag R.HIF_LINK_CFG F.HIF_LINK_CFG_SPLIT ∧ s.booted then linkDown 1 s1 else s1

/-- SEC_CONF_CMD (R456, R464): SET acts at once; CLEAR asks for a function-level reset, or is met by the one under way. -/
def confSet (t : Nat) (s : State) : State :=
  (s.setFld R.SEC_CONF F.SEC_CONF_MASK (putBits (s.fld R.SEC_CONF F.SEC_CONF_MASK) t t 1)).count Pg.secConf 1 1

def confClear (t : Nat) (s : State) : State :=
  let s1 := (s.setFld R.SEC_CONF F.SEC_CONF_CLEAR_PEND (putBits (s.fld R.SEC_CONF F.SEC_CONF_CLEAR_PEND) t t 1)).count Pg.secConf 2 1
  functionReset t (if s.fnState t = fnDisabled then fnDisabled else fnReady) s1

end Sys2Proof.Machine
end

