-- ==== Sys2Proof/Machine/CommitApply.lean ====
section
/-! DEFINITION. Machine/CommitApply.lean: a pending commit takes effect (R53 to R56, R60), with the checks that a page makes
of it at its apply point. -/

namespace Sys2Proof.Machine

/-- Masked writes to registers. -/
def applyWrites (ws : List RWrite) (s : State) : State :=
  ws.foldl (fun t w => t.setReg w.addr ((t.reg w.addr &&& ~~~w.mask) ||| (w.val &&& w.mask))) s

/-- Registers from `a` up to `b`, in words. -/
def wordsFrom (a b : Nat) : List Nat := (List.range ((b - a) / 4)).map (fun k => a + 4 * k)

/-- `t` with the listed registers as they are in `s`. -/
def revert (as : List Nat) (s t : State) : State := as.foldl (fun u a => u.setReg a (s.reg a)) t

/-- `t` with a field as it is in `s`. -/
def revertFld (a : Nat) (f : Fld) (s t : State) : State := t.setFld a f (s.fld a f)

def wrote (ws : List RWrite) (a : Nat) : Bool := ws.any (fun w => w.addr == a && w.mask != 0)

/-! ### Checks by page: `s` before the writes, `t` after them -/

/-- Region descriptors of core `n` (R133). The second result says that some region was refused. -/
def hookRegions (n : Nat) (s t : State) : State × Bool :=
  let live : Nat → Bool := fun r =>
    let en : State → Bool := fun u => u.flag (R.SPD_REGION_OWNER n r) F.SPD_REGION_OWNER_EN
    let as := wordsFrom (R.SPD_REGION_GEOM n r) (R.SPD_REGION_GEOM n r + 16)
    en s && en t && as.any (fun a => s.reg a != t.reg a)
  let l := (List.range 64).filter live
  (errIf (!l.isEmpty) (Pg.spd5 n) E.spd5_RGN_LIVE
    (l.foldl (fun u r => revert (wordsFrom (R.SPD_REGION_GEOM n r) (R.SPD_REGION_GEOM n r + 16)) s u) t), !l.isEmpty)

/-- SPD_RET_MASK of core `n` (R147). -/
def hookRetMask (n : Nat) (ws : List RWrite) (t : State) : State :=
  errIf (wrote ws (R.SPD_RET_MASK n) && decide (2 < countBelow 24 (bitOf (t.fld (R.SPD_RET_MASK n) F.SPD_RET_MASK_GROUPS))))
    (Pg.spd3 n) E.spd3_RET_OVER t

/-- MT_PIN_QUOTA (R230). -/
def hookQuota (s t : State) : State :=
  let q : Nat → Nat := fun k => t.fld (R.MT_PIN_QUOTA k) F.MT_PIN_QUOTA_PAGES
  let sum := ((List.range 16).map q).foldl (· + ·) 0
  let excess := decide (t.recs.t0 < sum + 256) && anyBelow 16 (fun k => s.reg (R.MT_PIN_QUOTA k) != t.reg (R.MT_PIN_QUOTA k))
  let low := anyBelow 16 (fun k => decide (q k < t.pinned k))
  if excess || low then
    errIf low Pg.mt0 E.mt0_QUOTA_LOW (errIf excess Pg.mt0 E.mt0_QUOTA_SUM (revert ((List.range 16).map R.MT_PIN_QUOTA) s t))
  else t

/-- Range entries of page `j` (R233). -/
def hookRange (j : Nat) (s t : State) : State :=
  let words : Nat → List Nat := fun k => wordsFrom (R.MT_RNG_BASE_LO j (k / 16) (k % 16)) (R.MT_RNG_BASE_LO j (k / 16) (k % 16) + 16)
  let bad : Nat → Bool := fun k =>
    let base := t.fld (R.MT_RNG_BASE_LO j (k / 16) (k % 16)) F.MT_RNG_BASE_LO_BASE_LO
      + 2 ^ 20 * t.fld (R.MT_RNG_BASE_HI j (k / 16) (k % 16)) F.MT_RNG_BASE_HI_BASE_HI
    let lim := t.fld (R.MT_RNG_LIMIT_LO j (k / 16) (k % 16)) F.MT_RNG_LIMIT_LO_LIMIT_LO
      + 2 ^ 20 * t.fld (R.MT_RNG_LIMIT_HI j (k / 16) (k % 16)) F.MT_RNG_LIMIT_HI_LIMIT_HI
    (words k).any (fun a => s.reg a != t.reg a)
      && t.flag (R.MT_RNG_BASE_LO j (k / 16) (k % 16)) F.MT_RNG_BASE_LO_VALID
      && (decide (lim < base) || !t.backed (lim / 512))
  let l := (List.range 128).filter bad
  errIf (!l.isEmpty) (Pg.mtRng j) E.mtRng_RANGE_BAD (l.foldl (fun u k => revert (words k) s u) t)

/-- ISP_PORT_CFG (R296). -/
def hookPort (p : Nat) (s t : State) : State :=
  let a := R.ISP_PORT_CFG p
  let fs := [F.ISP_PORT_CFG_PHY, F.ISP_PORT_CFG_WIDTH, F.ISP_PORT_CFG_RATE]
  if s.flag a F.ISP_PORT_CFG_EN && t.flag a F.ISP_PORT_CFG_EN && fs.any (fun f => s.fld a f != t.fld a f) then
    errEvent (Pg.ispPort p) E.ispPort_PORT_LIVE (fs.foldl (fun u f => revertFld a f s u) t)
  else t

/-- Whether two rings of units overlap. -/
def ringsMeet (t : State) (n m : Nat) : Bool :=
  let b : Nat → Nat := fun k => t.fld (R.ISP_CAM_LB k) F.ISP_CAM_LB_LB_BASE
  let l : Nat → Nat := fun k => t.fld (R.ISP_CAM_LB k) F.ISP_CAM_LB_LB_LINES * ceilDiv (t.fld (R.ISP_CAM_GEOM k) F.ISP_CAM_GEOM_WIDTH) 64
  decide (b n < b m + l m ∧ b m < b n + l n)

/-- Whether an output of camera `n` breaks R284 or R285. -/
def outBad (t : State) (n o : Nat) : Bool :=
  let f : Nat → Fld → Nat := fun a g => t.fld a g
  let w := f (R.ISP_CAM_GEOM n) F.ISP_CAM_GEOM_WIDTH
  let h := f (R.ISP_CAM_GEOM n) F.ISP_CAM_GEOM_HEIGHT
  let x0 := f (R.ISP_OUT_CROP n o 0) F.ISP_OUT_CROP_A
  let y0 := f (R.ISP_OUT_CROP n o 0) F.ISP_OUT_CROP_B
  let cw := f (R.ISP_OUT_CROP n o 1) F.ISP_OUT_CROP_A
  let ch := f (R.ISP_OUT_CROP n o 1) F.ISP_OUT_CROP_B
  let ow := f (R.ISP_OUT_SIZE n o) F.ISP_OUT_SIZE_OW
  let oh := f (R.ISP_OUT_SIZE n o) F.ISP_OUT_SIZE_OH
  let fmt := f (R.ISP_OUT_CFG n o) F.ISP_OUT_CFG_FMT
  decide (w < x0 + cw ∨ h < y0 + ch ∨ cw < ow ∨ ch < oh ∨ 16 * ow < cw ∨ 16 * oh < ch ∨ ow < 16 ∨ oh < 16)
    || (o = 0 && fmt = 1 && ow % 2 = 1) || (o = 1 && (ow % 2 = 1 || oh % 2 = 1))
    || (o = 2 && f (R.ISP_OUT_CFG n o) F.ISP_OUT_CFG_DEST = 0 && f (R.ISP_OUT_PITCH n o) F.ISP_OUT_PITCH_PITCH % 16 != 0)

/-- A camera page (R272, R276, R284). -/
def hookCam (n : Nat) (s t : State) : State :=
  let en : Nat → Bool := fun m => t.camFld m F.ISP_CAM_CFG_EN == 1
  let port : Nat → Nat := fun m => t.camFld m F.ISP_CAM_CFG_PORT
  let lines := t.fld (R.ISP_CAM_LB n) F.ISP_CAM_LB_LB_LINES
  let width := t.fld (R.ISP_CAM_GEOM n) F.ISP_CAM_GEOM_WIDTH
  let own := decide (lines < 20 ∨ lines < t.fld (R.ISP_CAM_LB n) F.ISP_CAM_LB_READY_LINES + 12)
    || decide (4096 < t.fld (R.ISP_CAM_LB n) F.ISP_CAM_LB_LB_BASE + lines * ceilDiv width 64)
    || decide (t.fld (R.ISP_CAM_TIMING n) F.ISP_CAM_TIMING_LINE_TIME < camCost width)
    || (en n && anyBelow 16 (fun m => m != n && en m && port m == port n && ringsMeet t n m))
  let t1 := if own then errEvent (Pg.ispCam n) E.ispCam_CAM_BAD (revert (wordsFrom (Pg.ispCam n + 0x100) (Pg.ispCam n + 0x140)) s t) else t
  let pair := en n && !own && anyBelow 16 (fun m => m != n && en m && port m == port n
    && t.camFld m F.ISP_CAM_CFG_VC == t.camFld n F.ISP_CAM_CFG_VC)
  let t2 := if pair then errEvent (Pg.ispCam n) E.ispCam_CAM_BAD (revertFld (R.ISP_CAM_CFG n) F.ISP_CAM_CFG_EN s t1) else t1
  (List.range 3).foldl (fun u o =>
    if u.flag (R.ISP_OUT_CFG n o) F.ISP_OUT_CFG_EN && outBad u n o then
      errEvent (Pg.ispCam n) E.ispCam_OUT_BAD (revert (wordsFrom (R.ISP_OUT_CFG n o) (R.ISP_OUT_CFG n o + 0x20)) s u)
    else u) t2

/-- A decode-context page (R303, R321). -/
def hookDec (c : Nat) (s t : State) : State :=
  let cfg := R.DEC_CTX_CFG c
  let en : State → Bool := fun u => u.flag cfg F.DEC_CTX_CFG_EN
  let fs := [F.DEC_CTX_CFG_CODEC, F.DEC_CTX_CFG_MAX_BITS, F.DEC_CTX_CFG_CTX]
  let as := [R.DEC_CTX_MAX c, R.DEC_POOL_LO c, R.DEC_POOL_HI c, R.DEC_POOL_SIZE c, R.DEC_CACHE_LO c, R.DEC_CACHE_HI c,
             R.DEC_CACHE_GEOM c]
  let live := en s && en t && (fs.any (fun f => s.fld cfg f != t.fld cfg f) || as.any (fun a => s.reg a != t.reg a))
  let t1 := if live then errEvent (Pg.decCtx c) E.decCtx_CTX_LIVE (fs.foldl (fun u f => revertFld cfg f s u) (revert as s t)) else t
  let need := 20 * ceilDiv (t1.fld (R.DEC_CTX_MAX c) F.DEC_CTX_MAX_MAX_W) 64 * ceilDiv (t1.fld (R.DEC_CTX_MAX c) F.DEC_CTX_MAX_MAX_H) 64
    * 6144 * (1 + t1.fld cfg F.DEC_CTX_CFG_MAX_BITS)
  let small := !en s && en t1 && decide (t1.fld (R.DEC_POOL_SIZE c) F.DEC_POOL_SIZE_POOL_BYTES * 2 ^ 20 < need)
  decStatus c (if small then errEvent (Pg.decCtx c) E.decCtx_POOL_SMALL (revertFld cfg F.DEC_CTX_CFG_EN s t1) else t1)

/-- Whether an FP32 word is neither infinite nor NaN. -/
def finite32 (w : Nat) : Bool := bitsOf w 30 23 != 255

/-- A transform page (R310 to R313, R322): a condition is tested where the commit writes a word that it concerns, and all of
them while EN is 1. -/
def hookXfm (c : Nat) (ws : List RWrite) (s t : State) : State :=
  let en := t.flag (R.XFM_CFG c) F.XFM_CFG_EN
  let w : List Nat → Bool := fun as => en || as.any (wrote ws)
  let g : Fld → Nat := fun f => t.fld (R.XFM_CFG c) f
  let ow := t.fld (R.XFM_SIZE c) F.XFM_SIZE_OW
  let oh := t.fld (R.XFM_SIZE c) F.XFM_SIZE_OH
  let cw := t.fld (R.XFM_CROP c 1) F.XFM_CROP_A
  let ch := t.fld (R.XFM_CROP c 1) F.XFM_CROP_B
  let odd := g F.XFM_CFG_ROT90 % 2 = 1
  let far : Nat → Nat → Bool := fun a b => a != 0 && b != 0 && decide (16 * a < b ∨ 16 * b < a)
  let fmt := NumFmt.ofCode (g F.XFM_CFG_FMT)
  let scale := (t.reg (R.XFM_SCALE c)).toNat
  let angle := (t.reg (R.XFM_ANGLE c)).toNat
  let lb := t.fld (R.XFM_LINE c) F.XFM_LINE_LINE_BYTES
  let pr := t.fld (R.XFM_LINE c) F.XFM_LINE_PLANE_ROWS
  let means := [R.XFM_MEAN c 0, R.XFM_MEAN c 1, R.XFM_MEAN c 2, R.XFM_ISTD c 0, R.XFM_ISTD c 1, R.XFM_ISTD c 2]
  let bad :=
    (w [R.XFM_CFG c] && (decide (4 < g F.XFM_CFG_CSC ∨ g F.XFM_CFG_NBUF < 2) || fmt.isNone))
    || (w [R.XFM_SIZE c] && decide (ow = 0 ∨ 8192 < ow ∨ oh = 0 ∨ 8192 < oh))
    || (w [R.XFM_SIZE c, R.XFM_CROP c 1, R.XFM_CFG c] && (far (if odd then ch else cw) ow || far (if odd then cw else ch) oh))
    || (w [R.XFM_ANGLE c] && (!finite32 angle || decide (0x42340000 < angle % 2 ^ 31)))
    || means.any (fun a => w [a] && !finite32 (t.reg a).toNat)
    || (w [R.XFM_SCALE c, R.XFM_CFG c] && (match fmt with
          | some .int8 | some .int4 | some .e4m3 | some .e5m2 => !finite32 scale || decide (2 ^ 31 ≤ scale ∨ scale = 0)
          | _ => false))
    || (w [R.XFM_LINE c, R.XFM_SIZE c, R.XFM_CFG c] && (lb % 16 != 0
          || decide (lb < ceilDiv ((match fmt with | some f => f.bits | none => 8) * ow) 8) || decide (pr * 512 < oh * lb)))
  if bad then errEvent (Pg.xfm c) E.xfm_XFM_BAD (revert (wordsFrom (Pg.xfm c + 0x100) (Pg.xfm c + 0x144)) s t) else t

/-- Whether bytes lie in an entry of tenant `f`'s BAR2 set with both rights (R346). -/
def State.ringIn (t : State) (f da n : Nat) : Bool :=
  anyBelow 16 (fun e => t.rangeEntry (128 + f) e da n false && t.rangeEntry (128 + f) e da n true)

/-- The queues of function `f` (R346): a commit that a queue refuses leaves every field unchanged. -/
def hookQueues (f : Nat) (s t : State) : State :=
  let xs := (List.range 8).map (8 * f + ·)
  let ready : Nat → Bool := fun x => bitOf (t.fld (R.HIF_FN_STATE f) F.HIF_FN_STATE_CTX_READY) (x % 8)
  let range : Nat → Bool := fun n => decide (n < 2 ∨ 4096 < n)
  let badSq : Nat → Nat → Bool := fun x q =>
    let on := t.sqEn x q
    let kept := s.sqEn x q && on
    (on && !s.sqEn x q && (!ready x || !t.cqEn x)) || (on && (!t.ringIn f (t.sqBase x q) (64 + 64 * t.sqSlots x q) || range (t.sqSlots x q)))
      || (kept && (s.sqBase x q != t.sqBase x q || s.sqSlots x q != t.sqSlots x q))
  let badCq : Nat → Bool := fun x =>
    let on := t.cqEn x
    (on && !s.cqEn x && !ready x) || (on && (!t.ringIn f (t.cqBase x) (16 * t.cqSlots x) || range (t.cqSlots x)))
      || (s.cqEn x && on && (s.cqBase x != t.cqBase x || s.cqSlots x != t.cqSlots x))
      || (s.cqEn x && !on && anyBelow 4 (fun q => t.sqEn x q))
  if xs.any (fun x => badCq x || anyBelow 4 (fun q => badSq x q)) then
    errEvent (Pg.hifFn f) E.hifFn_Q_BAD (revert (wordsFrom (Pg.hifFn f + 0x100) (Pg.hifFn f + 0x480)) s t)
  else
    xs.foldl (fun u x =>
      let u1 := if !s.cqEn x && u.cqEn x then u.setReg (R.HIF_CQ_STATUS f (x % 8)) 0 else u
      (List.range 4).foldl (fun v q =>
        if !s.sqEn x q && v.sqEn x q then
          { v.setReg (R.HIF_SQ_STATUS f (x % 8) q) 0 with
            hif := { v.hif with fetchCnt := Tab.del v.hif.fetchCnt (4 * x + q) } }
        else v) u1) t

/-- BRZ page 1 (R255, R266). -/
def hookModels (ws : List RWrite) (s t : State) : State :=
  sumLoads ((List.range 16).foldl (fun u m =>
    let loc := R.BRZ_MODEL_LOC m
    if u.armedModel m then
      if ws.any (fun w => w.addr == loc && bitOf w.mask.toNat 31) then
        if u.armOk m && decide (u.fld loc F.BRZ_MODEL_LOC_BASE + u.fld loc F.BRZ_MODEL_LOC_ROWS ≤ 1024) then
          let u1 := u.setReg (R.BRZ_MODEL_STAT m) (BitVec.ofNat 32 ((u.imgHeader (u.fld loc F.BRZ_MODEL_LOC_BASE)).load * 2 ^ 16))
          if s.armedModel m then u1 else u1.setBrzModel m {}
        else errEvent Pg.brz1 E.brz1_ARM_REFUSED (revert (wordsFrom loc (loc + 0x14)) s u)
      else u
    else u.setFld (R.BRZ_MODEL_STAT m) F.BRZ_MODEL_STAT_LOAD 0) t)

/-- TST_LANE_CFG of port `p` (R493, R506). -/
def hookLanes (p : Nat) (s t : State) : State :=
  let up : Fld → Nat → Bool := fun f l => !s.flag (R.TST_LANE_CFG p l) f && t.flag (R.TST_LANE_CFG p l) f
  let rises : Nat → Bool := fun l => up F.TST_LANE_CFG_GEN l || up F.TST_LANE_CFG_CHK l
  if anyBelow 2 rises && !(t.portState p == Port.down || t.portState p == Port.drained) then
    errEvent (Pg.tstLane p) E.tstLane_TEST_BUSY (revert [R.TST_LANE_CFG p 0, R.TST_LANE_CFG p 1] s t)
  else
    (List.range 2).foldl (fun u l =>
      if up F.TST_LANE_CFG_CHK l then
        { u.setFld (R.TST_LANE_STAT p l) F.TST_LANE_STAT_LOCK 0 with
          cnt := Tab.set (Tab.set u.cnt (R.TST_LANE_ERR_LO p l) 0) (R.TST_LANE_BITS_LO p l) 0 }
      else u) t

/-- ARR_SR_SEED of core `n` (R112, R118). -/
def hookSeed (n : Nat) (ws : List RWrite) (t : State) : State :=
  if wrote ws (R.ARR_SR_SEED n) then
    let w := t.reg (R.ARR_SR_SEED n)
    t.modCore n (fun c => { c with lfsr := if w = 0 then 1 else w })
  else t

/-- What a page does with the writes of a commit; the second result says that R133 refused some. -/
def pageHook (k : PageKind) (i : Nat) (ws : List RWrite) (s t : State) : State × Bool :=
  match k with
  | .spd5 => hookRegions i s t
  | .spd3 => (hookRetMask i ws t, false)
  | .arr6 => (hookSeed i ws t, false)
  | .mt0 => (hookQuota s t, false)
  | .mtRng => (hookRange i s t, false)
  | .ispPort => (hookPort i s t, false)
  | .ispCam => (hookCam i s t, false)
  | .decCtx => (hookDec i s t, false)
  | .xfm => (hookXfm i ws s t, false)
  | .hifFn => (hookQueues i s t, false)
  | .brz1 => (hookModels ws s t, false)
  | .tstLane => (hookLanes i s t, false)
  | .plmPort => (if s.reg (R.PLM_PORT_CTRL i) = t.reg (R.PLM_PORT_CTRL i) then t else portCtrlChanged i t, false)
  | _ => (t, false)

/-- Whether a page can change now: PLM_COMM waits for collectives of the communicators that the commit changes (R396), and
ARR_GANG changes only while its core is drained (R73, R81). -/
def State.canChange (s : State) (k : PageKind) (i : Nat) (ws : List RWrite) : Bool :=
  match k with
  | .plmComm => !(s.plm.queue ++ s.plm.runs.flatMap (·.posts)).any (fun p => wrote ws (R.PLM_COMM (Coll.comm p.desc)))
  | .arr0 => !(wrote ws (R.ARR_GANG i) && s.busy i)
  | _ => true

/-! ### Taking effect -/

/-- The oldest pending commit of page `pg` takes effect. -/
def applyHead (pg : Nat) (s : State) : State :=
  let p := s.txn pg
  match p.pend with
  | [] => s
  | c :: cs =>
    let s1 := s.setTxn pg { p with pend := cs, lastResult := if c.late then 2 else 1, lastTag := c.tag }
    let s2 := applyWrites c.writes s1
    let r := match pageAt pg with
      | some (row, i) => pageHook row.kind i c.writes s1 s2
      | none => (s2, false)
    let s3 := errIf c.late (4096 * pg) Err.applyLate r.1
    let s4 := match c.group with
      | some g => settleGroup g c.late s3
      | none => s3
    match c.host with
    | some id => if r.2 then entryDone id 1 4 18 s4 else entryDone id 0 0 0 s4
    | none => s4

/-- Whether the oldest commit of a page has reached its apply point and its page can change. -/
def State.headReady (s : State) (pg : Nat) : Bool :=
  match (s.txn pg).pend.head?, pageAt pg with
  | some c, some (row, i) => c.reached && s.domOn (pageDomain row.kind i) && s.canChange row.kind i c.writes
  | _, _ => false

/-- Commits that have reached their apply points take effect in commit order (R53); a page holds at most four. -/
def applyReached (pg : Nat) : Nat → State → State
  | 0, s => s
  | fuel + 1, s => if s.headReady pg then applyReached pg fuel (applyHead pg s) else s

/-- The apply point of pending commit `k` of page `pg` comes (R53 to R56). A member of a group waits for its release
(R60); a page whose domain is not on, or an earlier pending commit, makes it late; a core that has been disabled or
retired, or is idle, makes "next operation boundary" immediate. -/
def commitApply (pg k : Nat) (s : State) : State :=
  let p := s.txn pg
  match p.pend[k]? with
  | none => s
  | some c =>
    if c.group.isSome ∧ !c.released then s
    else
      let held := k != 0 || !s.pageOn pg
      let s1 := if c.group.isNone ∧ c.apply = 3 then s.at c.dtime else s
      let s2 := s1.setTxn pg { p with pend := modNth p.pend k (fun c => { c with reached := true, late := c.late || held }) }
      applyReached pg 4 s2

/-- Held commits of the pages of domain `d`, in commit order on each page, as it reaches on (R25, R56). -/
def applyHeld (d : Nat) (s : State) : State :=
  s.txns.foldl (fun t q =>
    match pageAt q.1 with
    | some (row, i) =>
      if pageDomain row.kind i = d ∧ d ≠ 30 then
        applyReached q.1 4 (t.setTxn q.1 { t.txn q.1 with pend := (t.txn q.1).pend.map (fun c => if c.reached then { c with late := true } else c) })
      else t
    | none => t) s

end Sys2Proof.Machine
end

