-- ==== Sys2Proof/Machine/Power.lean ====
section
/-! DEFINITION. Machine/Power.lean: the power controller, clocks, device time and thermal limits (R465 to R484, R488 to R490)
and the telemetry that follows them (R504). -/

namespace Sys2Proof.Machine

def State.modClk (s : State) (f : Clk → Clk) : State := { s with clk := f s.clk }

def State.tripped (s : State) : Bool := s.flag R.CLK_STATUS F.CLK_STATUS_TRIP

/-! ### Low-power modes (R473, R475) -/

def State.domMode (s : State) (d : Nat) : Nat := s.fld (R.PWR_DOM_CTRL d) F.PWR_DOM_CTRL_MODE

/-- Whether an owned page lies in a frame of the tier of domain `d`: tier 0 for the stacks, over both of which its frames
are interleaved, tier 1 for LPDDR5X. -/
def State.ownedIn (s : State) (d : Nat) : Bool :=
  s.mt.pages.any (fun q => q.2.owner.isSome && (if d = 20 then q.2.tier == 1 else q.2.tier == 0))

/-- The reason, as PWR_DOM_STATUS.REFUSE codes it, for which MODE `m` of domain `d` is refused; 0: accepted (R475). -/
def State.modeRefuse (s : State) (d m : Nat) : Nat :=
  if s.disabled d then (if m = 0 then 0 else 4)
  else if d = 30 then (if m = 2 then 0 else 3)
  else if d = 29 ∧ m = 0 then 2
  else if 18 ≤ d ∧ d ≤ 20 ∧ m = 0 ∧ s.ownedIn d then 1
  else 0

/-- A refusal of domain `d` for `why`. -/
def modeRefused (d why : Nat) (s : State) : State :=
  errEvent Pg.pwr E.pwr_MODE_REFUSED ((s.setFld (R.PWR_DOM_STATUS d) F.PWR_DOM_STATUS_REFUSE why).count Pg.pwr 5 1)

/-- MODE of domain `d` has been written over `old` (R473, R475). -/
def modeWritten (d old : Nat) (s : State) : State :=
  let why := s.modeRefuse d (s.domMode d)
  if why ≠ 0 then modeRefused d why (s.setFld (R.PWR_DOM_CTRL d) F.PWR_DOM_CTRL_MODE old)
  else if s.domMode d = 2 && s.fld (R.PWR_DOM_STATUS d) F.PWR_DOM_STATUS_PHASE != 2 then wakeDom d false s
  else s

/-! ### Entry (R472, R473, R477) -/

/-- Whether a transfer from another core, or a collective, still has rows to land on core `d`. -/
def State.incoming (s : State) (d : Nat) : Bool :=
  anyBelow 18 (fun n => anyBelow 4 (fun c =>
    match (s.chan n c).cur with
    | some t => t.kind == .dma && Dma.dir t.desc == 4 && Dma.dstCore t.desc == d
    | none => false))
  || s.plm.runs.any (fun r => r.posts.any (fun p => p.core == d))

/-- Whether domain `d` stands at its wait (R472). For the control complex, WFI on its cores is the environment's. -/
def State.atWait (s : State) (d : Nat) : Bool :=
  if d < 18 then
    (s.core d).wait == .lowPower && !s.busy d && (s.core d).scanQ.isEmpty && (s.core d).bankSwap.isNone && !s.incoming d
      && (List.range 4).all (fun c => (s.chan d c).cur.isNone && (s.chan d c).queue.isEmpty)
  else if d ≤ 20 then
    !s.mt.accs.any (fun a => s.sectorDomain a.da == d) && s.mt.job.isNone && s.mt.testing.isNone
  else if d ≤ 26 then
    (s.port (d - 21)).unacked == 0 && s.plm.runs.all (fun r => !(s.commPorts (Coll.comm r.desc)).contains (d - 21))
  else if d = 27 then
    s.isp.stripe.isNone && (List.range 16).all (fun n => (s.cam n).frames.isEmpty)
      && (List.range 4).all (fun b => (s.ccBus b).posted.isEmpty && (s.ccBus b).due.isEmpty)
  else if d = 28 then s.video.run.isNone && (List.range 4).all (fun e => (s.eng e).run.isNone)
  else decide (d = 29)

/-- Domain `d` begins its entry at its wait (R473): into the state of MODE, but for a tier that has come to hold an owned
page, which keeps its contents (R475). A domain in retention goes on to off where MODE selects it (R476). -/
def domainEntry (d : Nat) (s : State) : State :=
  let m := s.domMode d
  let owned := s.modeRefuse d 0 == 1
  if s.tripped ∨ 2 ≤ m ∨ !s.atWait d then s
  else if s.domState d = 2 then
    let s1 := if m = 0 ∧ owned then modeRefused d 1 s else s
    setDomState d 3 1 (s1.setDom d { s1.dom d with target := if owned then 1 else m })
  else if s.domState d = 1 ∧ m = 0 ∧ !owned then setDomState d 3 1 (s.setDom d { s.dom d with target := 0 })
  else s

/-- The root PLL stops once no domain but Breeze is on or in transition (R466). -/
def pllIdle (s : State) : State :=
  if anyBelow 30 (fun d => decide (2 ≤ s.domState d)) then s
  else (s.setFld R.CLK_STATUS F.CLK_STATUS_PLL_ON 0).setFld R.CLK_STATUS F.CLK_STATUS_PLL_LOCK 0

/-- An entry ends; a wake that came meanwhile starts the exit (R24). -/
def domainEntryDone (d : Nat) (s : State) : State :=
  if s.domState d ≠ 3 ∨ s.fld (R.PWR_DOM_STATUS d) F.PWR_DOM_STATUS_PHASE ≠ 1 ∨ s.tripped then s
  else
    let x := s.dom d
    let s1 := (setDomState d x.target 0 s).count Pg.pwr (if x.target = 1 then 0 else 1) 1
    pllIdle (if x.wakeHeld then startExit d s1 else s1)

/-! ### Exit (R146, R478, R481, R484) -/

/-- Whether a register keeps its value while its domain is off: RWS fields, what comes from the records, and the maps that
firmware restores (R62, R478). -/
def keptReg (k : PageKind) (o : Nat) : Bool :=
  match k, findReg o (regsOf k) with
  | .plmPort, some (d, _, _) => d.off == 0x100
  | .arr7, some (d, _, _) => d.off == 0x100 || d.flds.any (fun f => f.acc == .rws)
  | .spd3, some (d, _, _) => d.off == 0x200 || d.flds.any (fun f => f.acc == .rws)
  | _, some (d, _, _) => d.flds.any (fun f => f.acc == .rws)
  | _, none => true

/-- The block registers and live counters of domain `d` at their reset values, but for what is kept. -/
def resetDomain (d : Nat) (s : State) : State :=
  let mine : Nat → Bool := fun a =>
    match pageAt (a / 4096) with
    | some (r, i) => pageDomain r.kind i == d
    | none => false
  let keep : Nat → Bool := fun a =>
    match pageAt (a / 4096) with
    | some (r, _) => decide (a % 4096 < 0x100) || keptReg r.kind (a % 4096)
    | none => true
  { s with regs := s.regs.filter (fun q => !mine q.1 || keep q.1), cnt := s.cnt.filter (fun q => !mine q.1) }

/-- Rows of core `n` from `lo` up to `hi` written as zeros with clear tags. -/
def zeroRows (n lo hi : Nat) (s : State) : State :=
  { s with spad := Memory.zero s.spad (rowAddr n lo) (rowAddr n hi)
           rowPoison := s.rowPoison.filter (fun q => decide (q.1 < 65536 * n + lo ∨ 65536 * n + hi ≤ q.1)) }

/-- The bank groups of core `n` that stay powered in retention (R146, R147): those of the two lowest bits of SPD_RET_MASK. -/
def State.keptGroups (s : State) (n : Nat) : List Nat :=
  if s.recs.variant = 1 ∨ s.fld R.BRZ_GUST F.BRZ_GUST_CORE = n then
    ((List.range 24).filter (bitOf (s.fld (R.SPD_RET_MASK n) F.SPD_RET_MASK_GROUPS))).take 2
  else []

/-- A core comes back from retention: banks that were not kept are zeroed. -/
def coreFromRetention (n : Nat) (s : State) : State :=
  (List.range 24).foldl (fun t g => if (s.keptGroups n).contains g then t else zeroRows n (2048 * g) (2048 * g + 2048) t) s

/-- A core comes back from off (R62, R146, R478): reset values, a zeroed scratchpad and an empty instruction memory; what
firmware restores and what is due for the core stay. -/
def coreFromOff (n : Nat) (s : State) : State :=
  let c := s.core n
  let s1 := zeroRows n 0 49152 (resetDomain n s)
  { s1.setCore n { spareDue := c.spareDue, retireWhy := c.retireWhy, bankDue := c.bankDue, bankGone := c.bankGone } with
    imem := s1.imem.filter (fun q => q.1 / 16384 != n) }

/-- What domain `d` finds as it leaves off or retention. -/
def restoreDomain (d : Nat) (ok : Bool) (s : State) : State :=
  let off := (s.dom d).exitFrom = 0
  if d < 18 then
    let s1 := if off then coreFromOff d s else coreFromRetention d s
    let s2 := (s1.modCore d (fun c => { c with wait := .none })).setSeqState d Seq.halted
    if off ∧ !ok then s2.modCore d (fun c => { c with retireWhy := 4 }) else s2
  else if off then
    let s1 := resetDomain d s
    if 21 ≤ d ∧ d ≤ 26 then s1.setPort (d - 21) {}
    else if d = 27 then s1.modIsp (fun z => { posts := z.posts, starts := z.starts })
    else if d = 28 then s1.modVid (fun z => { stamps := z.stamps })
    else s1
  else if 21 ≤ d ∧ d ≤ 26 then
    if ok then s
    else if s.flag (R.PLM_PORT_CTRL (d - 21)) F.PLM_PORT_CTRL_EN then setPortState (d - 21) Port.training s
    else setPortState (d - 21) Port.down s
  else s

/-- Domain `d` has left off or retention (R25, R478). `ok` is what its exit finds: the built-in test of a core passes; a
Ploem port in retention and its partner resume together (R477). Held commits apply before anything else; then a Gust
start that waited, and jobs that wait for their cores, go on. -/
def domainExitDone (d : Nat) (ok : Bool) (s : State) : State :=
  if s.domState d ≠ 3 ∨ s.fld (R.PWR_DOM_STATUS d) F.PWR_DOM_STATUS_PHASE ≠ 2 ∨ s.tripped then s
  else
    let s1 := restoreDomain d ok (setDomState d 2 0 (s.setFld R.CLK_STATUS F.CLK_STATUS_PLL_LOCK 1))
    let s2 := applyHeld d (s1.count Pg.pwr 2 1)
    let s3 :=
      match s2.brz.gust with
      | some (n, m) => if n = d then enterModel n m (s2.modBrz (fun z => { z with gust := none })) else s2
      | none => s2
    if d < 18 then pumpJobs s3.ctl.aclk s3 else s3

/-! ### The root PLL (R469) -/

/-- The root PLL loses lock: every operation in flight is forced to fail its verdict, and a third loss within 1,000 ms is a
persistent failure. -/
def pllUnlock (s : State) : State :=
  if !s.clocks then s
  else
    let s1 := (s.setFld R.CLK_STATUS F.CLK_STATUS_PLL_LOCK 0).count Pg.clk 0 1
    let recent := (s1.clk.losses.filter (fun t => decide (s1.dtime < t + 1000 * msTicks))) ++ [s1.dtime]
    let s2 := s1.modClk (fun c => { c with losses := recent })
    let s3 := { s2 with cores := s2.cores.map (fun q => (q.1, { q.2 with ops := q.2.ops.map (fun o => { o with forced := true }) })) }
    let s4 := logEntry { cls := LogCls.threshold, arg0 := s3.counter (cntKey Pg.clk 0) } (errEvent Pg.clk E.clk_PLL_UNLOCK s3)
    if 3 ≤ recent.length then svcEvent 6 (s4.modClk (fun c => { c with losses := [] })) else s4

/-- The root PLL locks again, and every derived clock restarts. -/
def pllRelock (s : State) : State :=
  if s.flag R.CLK_STATUS F.CLK_STATUS_PLL_ON then s.setFld R.CLK_STATUS F.CLK_STATUS_PLL_LOCK 1 else s

/-! ### Thermal limits (R467, R468) -/

/-- The hottest valid sensor of a list, 100 °C where none is valid. -/
def hottest (l : List (Option (BitVec 8))) : Int :=
  match l.filterMap id with
  | [] => 100
  | v :: vs => vs.foldl (fun m w => max m w.toInt) v.toInt

/-- One sensor's register: an invalid sensor keeps the last temperature that it gave. -/
def senseReg (k : Nat) (v : Option (BitVec 8)) (s : State) : State :=
  match v with
  | some w => s.setReg (R.CLK_TSENSE k) (BitVec.ofNat 32 (w.toNat + 256))
  | none => s.setFld (R.CLK_TSENSE k) F.CLK_TSENSE_VALID 0

/-- Throttling entered or left. -/
def setThrottle (on : Bool) (s : State) : State :=
  let v := if on then 1 else 0
  let s1 := (s.setFld R.CLK_STATUS F.CLK_STATUS_THROTTLE v).setFld R.MGT_TEL_TEMP F.MGT_TEL_TEMP_THROTTLE v
  if on then sendIbi 2 (errEvent Pg.clk E.clk_THROTTLE (s1.count Pg.clk 2 1))
  else sendIbi 3 (s1.modClk (fun c => { c with coolSince := none }))

/-- THERM_TRIP_N is driven low, and every derived clock stops; a memory test that runs fails (R506). -/
def trip (s : State) : State :=
  let s1 := (s.setFld R.CLK_STATUS F.CLK_STATUS_TRIP 1).setFld R.MGT_TEL_TEMP F.MGT_TEL_TEMP_TRIP 1
  let s2 := if s1.mt.testing.isSome then
      (s1.setFld R.TST_MEM_STATUS F.TST_MEM_STATUS_STATE 3).modMt (fun m => { m with testing := none })
    else s1
  sendIbi 4 (if s2.fld R.FAB_WALK_STATUS F.FAB_WALK_STATUS_STATE = 1 then walkDone false s2 else s2)

/-- The eight sensors are sampled (R467), every 1,024 BCLK cycles from DTIME 0. Throttled BCLK cycles are counted as a free
number (log entry 7). -/
def thermalSample (temps : List (Option (BitVec 8))) (s0 : State) : State :=
  let s := s0.at (ceilDiv s0.dtime 1024 * 1024)
  let at' : Nat → Option (BitVec 8) := fun k => temps.getD k none
  let cd := (List.range 6).map at'
  let iod := [at' 6, at' 7]
  let hot := max (hottest cd) (hottest iod)
  let valid := (cd ++ iod).filterMap id
  let s1 := iter 8 (fun k t => senseReg k (at' k) t) s
  let s2 := (s1.setFld R.MGT_TEL_TEMP F.MGT_TEL_TEMP_MAX_CD (wrapInt 8 (hottest cd))).setFld R.MGT_TEL_TEMP
    F.MGT_TEL_TEMP_MAX_ID (wrapInt 8 (hottest iod))
  let s3 := errIf (decide (valid.length < 8)) Pg.clk E.clk_SENSOR_FAULT s2
  let throttled := s3.flag R.CLK_STATUS F.CLK_STATUS_THROTTLE
  let s4 := if throttled then countFree (cntKey Pg.clk 1) s3 else s3
  let s5 :=
    if 100 ≤ hot then
      if throttled then s4.modClk (fun c => { c with coolSince := none }) else setThrottle true s4
    else if !throttled then s4
    else if 95 < hot then s4.modClk (fun c => { c with coolSince := none })
    else
      match s4.clk.coolSince with
      | none => s4.modClk (fun c => { c with coolSince := some s4.dtime })
      | some t => if t + 24576 ≤ s4.dtime then setThrottle false s4 else s4
  if valid.any (fun v => decide (110 ≤ v.toInt)) ∧ !s5.tripped then trip s5 else s5

/-! ### Timer wake, device time and the power estimate (R471, R488, R504) -/

/-- DTIME reaches PWR_WAKE: the control complex is woken and the device core interrupted. -/
def timerWake (s : State) : State :=
  if s.flag R.PWR_WAKE_CTRL F.PWR_WAKE_CTRL_EN then
    let s1 := (s.at (s.pair R.PWR_WAKE_LO R.PWR_WAKE_HI)).setFld R.PWR_WAKE_CTRL F.PWR_WAKE_CTRL_EN 0
    wakeDom 29 false (s1.modClk (fun c => { c with timerIrqs := c.timerIrqs + 1 }))
  else s

/-- A read of CLK_DTIME_LO latches the high word (R471). -/
def dtimeLoRead (s : State) : State :=
  ((s.setReg R.CLK_DTIME_HI (BitVec.ofNat 32 (s.dtime / 2 ^ 32))).answers (BitVec.ofNat 32 s.dtime))

/-- The power controller updates its estimate every 24,576 BCLK cycles: a free value of units of 10 mW (R504). -/
def powerEstimate (s : State) : State :=
  let q := (s.at (ceilDiv s.dtime msTicks * msTicks)).draw
  let est := q.1 % 65536
  (q.2.setFld R.MGT_TEL_POWER F.MGT_TEL_POWER_EST est).setFld R.MGT_TEL_POWER F.MGT_TEL_POWER_PEAK
    (max est (q.2.fld R.MGT_TEL_POWER F.MGT_TEL_POWER_PEAK))

/-- A read of MGT_TEL_POWER returns PEAK and clears it (R504). -/
def telPowerRead (s : State) : State :=
  ((s.setFld R.MGT_TEL_POWER F.MGT_TEL_POWER_PEAK 0).answers (s.reg R.MGT_TEL_POWER))

end Sys2Proof.Machine
end

