-- ==== Sys2Proof/Machine/Boot.lean ====
section
/-! DEFINITION. Machine/Boot.lean: resets and the boot chain (R62, R440, R441, R485 to R487, R514, R517), and what the records
set at boot (R434, R437 to R439). -/

namespace Sys2Proof.Machine

/-! ### Access tables (R48, R437, R438) -/

/-- The nibble of initiator `iid` in the access table of the page at `base` set. -/
def setRights (base iid v : Nat) (s : State) : State :=
  let a := base + Hdr.accTbl + 4 * (iid / 8)
  s.setReg a (wordSet (s.reg a) ⟨4 * (iid % 8) + 3, 4 * (iid % 8)⟩ v)

/-- The window of R438 that a page lies in, and the rights that no rule bars a tenant from there (R30, R344, R354, R395,
R427, R459, R488): 0 none, 1 read, 7 read, write and transaction. -/
def windowOf (k : PageKind) : Nat × Nat :=
  match k with
  | .mgt0 | .mgtSnap | .mgtTel | .tstMode | .tstLane | .tstMem | .tstCsi | .tstD2d | .tstDbg => (0, 7)
  | .pwr | .clk => (1, 1)
  | .ctlMb | .ctlShare | .ctlUpd | .ctlDump => (4, 7)
  | .mtCtrl => (23, 7)
  | .mtRng => (23, 1)
  | .plm0 | .plmPort | .plmComm => (26, 1)
  | .isp0 | .ispPort | .ispCam | .ispPipe | .ispBus => (27, 7)
  | .dec0 | .dec1 | .decEng | .decCtx | .xfm => (28, 7)
  | .brz0 | .brz1 | .brz2 | .brz4 | .brzAg => (29, 7)
  | _ => (0, 0)

/-- Every page's byte offset, with its row. -/
def allPages : List (Nat × PageRow) :=
  pageRows.flatMap (fun r => (List.range r.cnt).map (fun i => (4096 * (r.first + i * r.step), r)))

/-- The rights of physical function `iid` from its PF_RIGHTS value. -/
def grantPf (iid pf : Nat) (s : State) : State :=
  allPages.foldl (fun t p =>
    let w := windowOf p.2.kind
    let g := match bitsOf pf (2 * w.1 + 1) (2 * w.1) with | 0 => 0 | 1 => 1 | 2 => 3 | _ => 7
    if g &&& w.2 = 0 then t else setRights p.1 iid (g &&& w.2) t) s

/-- The write right of `iid` on SEC pages 2 to 4 (R437). -/
def grantOperator (iid : Nat) (s : State) : State :=
  [Pg.secAtt, Pg.secConf, Pg.secRec].foldl (fun t b => setRights b iid (t.rights b iid ||| 2) t) s

/-- The grants that firmware makes at boot. -/
def grantAll (s : State) : State :=
  let c := s.flash.cfg
  let split := s.flash.brd.split = 1
  let s1 := grantPf 0 c.pf0 s
  let s2 := if split then grantPf 8 c.pf8 s1 else s1
  let s3 := iter 16 (fun t u => setRights (Pg.hifFn t) t 7 u) s2
  let s4 := if bitOf c.operator 0 then grantOperator 0 s3 else s3
  let s5 := if bitOf c.operator 1 then grantOperator 20 s4 else s4
  if bitOf c.operator 2 ∧ split then grantOperator 8 s5 else s5

/-! ### Records in force -/

/-- Usable frames (R213). -/
def tier0Frames : Nat → Nat
  | 1 => 24192
  | 2 => 12096
  | _ => 6048
def tier1Frames : Nat → Nat
  | 0 => 16128
  | 1 => 32256
  | 2 => 48384
  | _ => 64512

/-- The records in force after a boot of image `i`. -/
def recsOf (f : Flash) (i : FwImg) (meas : Nat) : Recs :=
  { reserve := f.cfg.policy == 0, coreEn := f.cfg.coreEn, t0 := tier0Frames f.cfg.variant, t1 := tier1Frames f.brd.lp5,
    stackCnt := f.cfg.stackCnt, variant := f.cfg.variant, svns := [i.svn, f.cfg.svn, f.brd.svn],
    floors := [i.floor, f.cfg.floor, f.brd.floor], meas := meas, measFw := meas + 32 }

/-- Currents in A that the rails of R515 need, by variant, and the hold-up in 0.1 ms (R516). -/
def railNeeds : Nat → List Nat
  | 1 => [130, 32, 25, 2, 1, 32, 36, 2, 8, 12, 4, 10]
  | 2 => [75, 18, 25, 2, 1, 16, 18, 1, 8, 12, 4, 10]
  | _ => [45, 10, 25, 2, 1, 16, 18, 1, 8, 12, 4, 10]

/-- The first value of RAILS that falls short (R516). -/
def railShort (s : State) : Option Nat :=
  leastBelow 12 (fun k => decide (s.flash.brd.rails.getD k 0 < (railNeeds s.recs.variant).getD k 0))

/-- Registers that the configuration record sets (R39, R410, R434, R437, R481). -/
def cfgRegs (s : State) : State :=
  let enabled := (List.range 18).filter (fun n => !s.disabled n)
  let spares := if s.recs.reserve then enabled.reverse.take 2 else []
  let s1 := (s.setReg (Pg.mgt0 + 8) (capWord s)).setReg (Pg.pwr + 8) (if s.recs.variant = 1 then 0 else 256)
  let s2 := iter 20 (fun d t => if t.disabled d then t.setFld (R.PWR_DOM_CTRL d) F.PWR_DOM_CTRL_MODE 0 else t) s1
  let s3 := spares.foldl (fun t n => t.setFld (R.REL_CORE n) F.REL_CORE_STATE 1) s2
  let s4 := if s.recs.reserve then s3.setFld (R.REL_CCORE 3) F.REL_CCORE_STATE 1 else s3
  let s5 := s4.setFld R.CTL_STATUS F.CTL_STATUS_ACTIVE (if s.recs.reserve then 7 else 15)
  let s6 := iter 64 (fun k t => t.setReg (R.PLM_COMM k) (s.flash.cfg.comm.getD k 0 &&& 0xFF#32)) s5
  s6.setFld R.TST_MODE F.TST_MODE_DEBUG_OPEN s.flash.cfg.debug

/-- Registers that the board record sets (R324, R382, R396). -/
def brdRegs (s : State) : State :=
  let b := s.flash.brd
  let d : Nat → Nat := fun k => b.dims.getD k 0
  let s1 := s.setFld R.HIF_LINK_CFG F.HIF_LINK_CFG_SPLIT b.split
  let s2 := s1.setReg R.PLM_TOPO (BitVec.ofNat 32 (b.kind % 4 + d 0 % 64 * 2 ^ 2 + d 1 % 64 * 2 ^ 8 + d 2 % 64 * 2 ^ 14))
  let s3 := s2.setReg R.PLM_COORD (BitVec.ofNat 32 (d 3 % 32 + d 4 % 32 * 2 ^ 5 + d 5 % 32 * 2 ^ 10))
  iter 6 (fun p t => t.setFld (R.PLM_PORT_MAP p) F.PLM_PORT_MAP_DIR (b.dirs.getD p 7)) s3

/-- What training at boot finds (R29, R429). -/
def trainRegs (o : BootOutcome) (s : State) : State :=
  let s1 := iter 3 (fun t u =>
    let q := o.mem.getD t (0, 0)
    (u.setFld (R.REL_MEM t) F.REL_MEM_LANES_LEFT q.1).setFld (R.REL_MEM t) F.REL_MEM_PPR_LEFT q.2) s
  let s2 := (s1.setFld R.FAB_D2D_STATUS F.FAB_D2D_STATUS_UP 1).setFld R.FAB_D2D_STATUS F.FAB_D2D_STATUS_LEFT o.d2dLeft
  (s2.setFld R.REL_D2D F.REL_D2D_LEFT o.d2dLeft).count Pg.tstD2d 0 1

/-- PCI Express links that train at the given SPEED and WIDTH (R324, R486): link 1 in split mode only. -/
def linksUp (links : List (Nat × Nat)) (s : State) : State :=
  iter 2 (fun l t =>
    let q := links.getD l (0, 0)
    if q.2 = 0 ∨ (l = 1 ∧ (!t.flag R.HIF_LINK_CFG F.HIF_LINK_CFG_SPLIT ∨ t.pins.pe1Low)) then t
    else t.setReg (R.HIF_LINK_STATUS l) (BitVec.ofNat 32 (1 + 2 * (q.1 % 8) + 16 * (q.2 % 16)))) s

/-! ### The boot chain (R440, R441) -/

/-- The RESULT of the chain: 0 where every step passes. Which of 3 and 4 a configuration record gets is left open, and is
a free value. -/
def bootResult (o : BootOutcome) (idOk : Bool) (s : State) : Nat :=
  let f := s.flash
  let img : Option FwImg → Bool → Bool := fun i ok => match i with | some x => ok && decide (f.arFw ≤ x.svn) | none => false
  if !idOk || !o.rollbackOk then 1
  else if !o.pointerOk then 2
  else if !o.cfgOk || decide (f.cfg.svn < f.arCfg) || !f.cfg.valid then 3 + Config.freeNat s.free % 2
  else if !o.brdOk || decide (f.brd.svn < f.arBrd) then 5
  else if !img f.img0 o.img0Ok && !img f.img1 o.img1Ok then 6
  else 0

/-- The slot that step 6 boots. -/
def bootSlot (o : BootOutcome) (s : State) : Nat :=
  let f := s.flash
  let ok : Nat → Bool := fun k =>
    match (if k = 0 then f.img0 else f.img1) with
    | some x => (if k = 0 then o.img0Ok else o.img1Ok) && decide (f.arFw ≤ x.svn)
    | none => false
  if ok f.slot then f.slot else 1 - f.slot

/-- STAGE where the chain halts with a RESULT. -/
def haltStage : Nat → Nat
  | 1 => 1
  | 2 => 2
  | 5 => 4
  | 6 => 5
  | _ => 3

/-- The chain halts: the sideband answers with SEC page 0 only, and SVC_REQ_N is asserted (R441). -/
def bootHalt (result : Nat) (s : State) : State :=
  let s1 := ((s.drew 1).setFld R.SEC_BOOT F.SEC_BOOT_STAGE (haltStage result)).setFld R.SEC_BOOT F.SEC_BOOT_RESULT result
  sendIbi 5 (svcEvent 6 s1)

/-- Every key slot filled afresh, CUR 0 (R449). -/
def bootKeys (s : State) : State :=
  iter 16 (fun t u => (setKeyState t keyActive (fillKey (2 * t) (eraseKey (2 * t + 1) u))).setFld (R.SEC_KEY t) F.SEC_KEY_CUR 0) s

/-- Firmware reaches service (step 8 of R485, R342, R422, R443, R504). -/
def bootService (s : State) : State :=
  let split := s.flash.brd.split = 1
  let s1 := setFnState 0 fnReady s
  let s2 := if split then setFnState 8 fnReady s1 else s1
  let s3 := replayLog (iter 4 ccoreCounts (grantAll (bootKeys (arRegs s2))))
  let s4 := match railShort s3 with
    | some k => logEntry { cls := LogCls.boot, arg0 := s3.fld R.CTL_STATUS F.CTL_STATUS_FW_VER
                                                        + s3.fld R.SEC_BOOT F.SEC_BOOT_SLOT * 2 ^ 32,
                           arg := [BitVec.ofNat 32 (k + 1)] } s3
    | none => s3
  sendIbi 6 s4

/-- The chain runs to its end (R440); `idOk` says that the identity key is there. The records come into force, the control
complex is released, and firmware reaches service. -/
def bootChain (o : BootOutcome) (idOk : Bool) (s : State) : State :=
  let s0 := (setDomState 29 2 0 s).setReg R.CLK_STATUS (s.reg R.CLK_STATUS ||| 3#32)
  let s1 := if idOk then idRegs s0 else s0.setFld R.SEC_BOOT F.SEC_BOOT_ID_VALID 0
  let r := bootResult o idOk s1
  if r ≠ 0 then bootHalt r s1
  else
    let slot := bootSlot o s1
    let img := ((if slot = 0 then s1.flash.img0 else s1.flash.img1).getD ⟨0, 0, 0, 0⟩)
    let back := slot ≠ s1.flash.slot
    let n := s1.flash.boots + 1
    let s2 := ({ s1 with recs := recsOf s1.flash img s1.free, flash := { s1.flash with boots := n } }).drew 48
    let s3 := s2.setReg R.SEC_BOOT (BitVec.ofNat 32 (7 + slot * 2 ^ 7 + (if back then 2 ^ 8 else 0) + 2 ^ 9 + n % 65536 * 2 ^ 16))
    let s4 := trainRegs o (brdRegs (cfgRegs s3))
    let s5 := ((s4.setFld R.CTL_STATUS F.CTL_STATUS_BOOT_SLOT slot).setFld R.CTL_STATUS F.CTL_STATUS_FW_VER img.version).count
      Pg.secBoot 0 1
    let s6 :=
      if back then
        logEntry { cls := LogCls.boot, arg0 := img.version % 65536 + slot * 2 ^ 32 }
          (errEvent Pg.secBoot E.secBoot_FALLBACK (s5.count Pg.secBoot 1 1))
      else s5
    let s7 := bootService s6
    if s7.pins.perstLow then s7 else linksUp o.links s7

/-! ### Cold reset (R62, R426, R485) -/

/-- What power-up finds: reset values, but for the boot flash. A program that was not complete is torn (R425). The model's
own queue and its counter of free values go on. -/
def powerUp (s : State) : State :=
  let next := s.rel.flash.foldl (fun m e => max m (e.2.seq + 1)) 0
  { State.reset with
    pending := s.pending
    free := s.free
    flash := { s.flash with next := .none, retried := false }
    rel := { flash := s.rel.flash }
    regs := Tab.set State.reset.regs R.REL_LOG_SEQ (BitVec.ofNat 32 next) }

/-- COLD_RESET. -/
def coldReset (o : BootOutcome) (s : State) : State :=
  let s1 := powerUp s
  let s2 := { s1 with pins := { s1.pins with perstLow := o.perstLow } }
  let s3 := if o.muteLow then s2.setReg R.BRZ_MUTE 1#32 else s2
  bootChain o (o.idOk && s3.flash.ident.isSome) s3

/-! ### Warm reset (R62, R487) -/

/-- Whether a register outside the BRZ window survives a warm reset: RWS fields, what only a cold reset clears, and what
shows the state of the always-on domain. -/
def warmKept (a : Nat) : Bool :=
  match pageAt (a / 4096) with
  | some (r, _) =>
    match findReg (a % 4096) (regsOf r.kind) with
    | some (d, _, _) =>
      d.flds.any (fun f => f.acc == .rws)
        || [R.REL_SVC, R.REL_LOG_SEQ, R.REL_LOG_STATUS, R.CLK_STATUS, R.TST_MODE].contains a
        || (r.kind == .pwr && decide (0x200 ≤ a % 4096) && decide (a % 4096 < 0x300))
    | none => false
  | none => false

/-- Whether a BAR0 offset lies in the BRZ window. -/
def inBrz (a : Nat) : Bool := decide (0x600000 ≤ a) && decide (a < 0x680000)

/-- WARM_RESET: PERST_N has been low for 2 BCLK cycles. Every domain but Breeze and the control complex goes to off, and
the control complex is held in reset. -/
def warmReset (s : State) : State :=
  if s.pins.perstLow then s
  else
    let id := s.fld R.SEC_BOOT F.SEC_BOOT_ID_VALID
    let prev := s.reg R.SEC_BOOT
    let s1 : State := { s with
      regs := s.regs.filter (fun q => inBrz q.1 || warmKept q.1)
      cnt := s.cnt.filter (fun q => inBrz q.1)
      shadow := s.shadow.filter (fun q => inBrz q.1)
      txns := s.txns.map (fun q => (q.1, { openTxn := none, pend := [], lastResult := 4, lastTag :=
        (match q.2.pend.getLast?, q.2.openTxn with | _, some x => x.tag | some c, none => c.tag | none, none => q.2.lastTag) }))
      groups := []
      snap := {}
      cores := []
      imem := []
      spad := []
      rowPoison := []
      streams := []
      swapReqs := []
      mt := {}
      doms := []
      ctxs := []
      hif := {}
      ctl := { aon := s.ctl.aon }
      sec := { gens := s.sec.gens, lastGen := s.sec.lastGen }
      rel := { s.rel with holdStarts := false }
      brz := { s.brz with gust := none }
      isp := {}
      video := {}
      plm := {}
      fabInj := []
      pins := { s.pins with perstLow := true } }
    let s2 := iter 29 (fun d t => setDomState d 0 0 t) s1
    let s3 := (setDomState 29 2 0 s2).setReg R.SEC_BOOT (BitVec.ofNat 32 (1 + id * 2 ^ 9 + bitsOf prev.toNat 31 16 * 2 ^ 16))
    arRegs (if id = 1 then idRegs s3 else s3)

/-- PERST_N rises (R486, R487): after a warm reset the boot chain runs again from step 2, K_P having been held; after a cold
one the links train. -/
def perstRise (o : BootOutcome) (s : State) : State :=
  if !s.pins.perstLow then s
  else
    let s1 := { s with pins := { s.pins with perstLow := false } }
    if s1.booted then linksUp o.links s1
    else if s1.fld R.SEC_BOOT F.SEC_BOOT_STAGE = 1 ∧ s1.fld R.SEC_BOOT F.SEC_BOOT_RESULT = 0
        ∧ s1.fld R.TST_MODE F.TST_MODE_PROD = 0 then
      bootChain o (s1.flag R.SEC_BOOT F.SEC_BOOT_ID_VALID) s1
    else s1

/-! ### Rails (R515, R517) -/

/-- Rail `k` of R515 falls below its minimum: VDD_AON (3) and VDD_IO (4) reset the part, any other rail acts as
PWR_FAIL_N. -/
def railLow (k : Nat) (s : State) : State :=
  if k = 3 ∨ k = 4 then powerUp s
  else if s.rel.pfSince.isSome then s
  else powerFail (some k) (s.modRel (fun r => { r with pfSince := some s.dtime }))

end Sys2Proof.Machine
end

