-- ==== Sys2Proof/Machine/Update.lean ====
section
/-! DEFINITION. Machine/Update.lean: firmware update (R366, R367, R373, R374) and crash dumps (R350, R368, R369, R483). -/

namespace Sys2Proof.Machine

def State.modUpd (s : State) (f : Upd → Upd) : State := s.modCtl (fun c => { c with upd := f c.upd })

/-! ### Staging (R366, R435, R436, R443) -/

/-- What the machine uses of an image's header. -/
def parseImg (b : List Byte) : FwImg :=
  { version := recNum b 48 8, stateVer := recNum b 12 4, svn := recNum b 6 1, floor := recNum b 7 1 }

/-- The image in the active slot. -/
def State.activeImg (s : State) : FwImg :=
  (if s.fld R.CTL_STATUS F.CTL_STATUS_BOOT_SLOT = 0 then s.flash.img0 else s.flash.img1).getD ⟨0, 0, 0, 0⟩

/-- The RESULT of R373 with which an image fails to verify, 0 where it verifies. `keyOk` and `sigOk` are what the digest of
PUBKEY and SIG show. -/
def State.imageBad (s : State) (b : List Byte) (n : Nat) (bad keyOk sigOk : Bool) : Nat :=
  if bad || !headerOk b 1 n || !keyOk || !sigOk || decide (3 < recNum b 56 1)
      || bitOf (s.fld R.SEC_AR F.SEC_AR_REVOKED) (recNum b 56 1 % 4) || !s.deviceOk b then 1
  else if recNum b 6 1 < s.fld R.SEC_AR F.SEC_AR_AR_FW then 2
  else if recNum b 12 4 ≠ s.activeImg.stateVer then 3
  else 0

/-- The update's STATE. -/
def State.updState (s : State) : Nat := s.fld R.CTL_UPD_STATUS F.CTL_UPD_STATUS_STATE

/-- STAGE: the image is copied into the inactive slot, which holds no image until it verifies. While a staging, an
activation or a record write is under way the command has no effect (log entry 42). -/
def stage (keyOk sigOk : Bool) (s : State) : State :=
  let da := s.fld R.CTL_UPD_DA_LO F.CTL_UPD_DA_LO_DA * 512 + s.fld R.CTL_UPD_DA_HI F.CTL_UPD_DA_HI_DA * 2 ^ 32
  let n := s.fld R.CTL_UPD_LEN F.CTL_UPD_LEN_BYTES
  if s.updState = 1 ∨ s.updState = 3 ∨ s.flash.next ≠ .none then s
  else if s.pfRefuses then updResult 5 4 s
  else
    let alien := (List.range ((da + n - 1) / 2 ^ 21 + 1 - da / 2 ^ 21)).any
      (fun k => (s.page (da / 2 ^ 21 + k)).owner != some 0)
    let r := fwRead da n s
    let s1 := if alien then s else r.2.2.2
    let k := s1.imageBad r.1 n (alien || r.2.1 != 0 || !r.2.2.1) keyOk sigOk
    (updResult 1 0 (s1.setFld R.CTL_UPD_STATUS F.CTL_UPD_STATUS_HANDED 0)).modFlash (fun f =>
      let f1 := if s.idleSlot = 0 then { f with img0 := none } else { f with img1 := none }
      { f1 with next := if k = 0 then .image (parseImg r.1) else .badImage k, retried := false })

/-! ### Activation (R367, R374, R432) -/

/-- Whether control core `k` can load the new image: the spare, or a core that firmware drained. -/
def State.canLoad (s : State) (k : Nat) : Bool :=
  s.fld (R.REL_CCORE k) F.REL_CCORE_STATE == 1 || s.fld (R.REL_CCORE k) F.REL_CCORE_STATE == 2

/-- A control core with its contexts and roles moved to the others. -/
def drainCcore (k : Nat) (s : State) : State :=
  let s1 := (setActive k false s).setFld (R.REL_CCORE k) F.REL_CCORE_STATE 2
  giveRoles k ((leastBelow 4 (bitOf (s1.fld R.CTL_STATUS F.CTL_STATUS_ACTIVE))).getD 0) (reassign k State.newOwner s1)

/-- The loader of step 1: the spare, or else a core that firmware drains first, here the highest-numbered active one that
runs the old image (log entry 43). -/
def takeLoader (s : State) : State :=
  let old : Nat → Bool := fun k => bitOf (s.fld R.CTL_STATUS F.CTL_STATUS_ACTIVE) k && !s.ctl.upd.done.contains k
  let take (k : Nat) (t : State) : State := t.modUpd (fun u => { u with loader := some k, done := u.done ++ [k] })
  match leastBelow 4 (fun k => s.fld (R.REL_CCORE k) F.REL_CCORE_STATE == 1) with
  | some k => take k s
  | none =>
    match leastBelow 4 (fun i => old (3 - i)) with
    | some i => take (3 - i) (drainCcore (3 - i) s)
    | none => s.modUpd (fun u => { u with loader := none })

/-- The next core to hand over: the lowest active one that runs the old image. -/
def State.updNext (s : State) : Option Nat :=
  leastBelow 4 (fun k => bitOf (s.fld R.CTL_STATUS F.CTL_STATUS_ACTIVE) k && !s.ctl.upd.done.contains k)

/-- The core left over: the spare in reserve mode while three are in service, else it returns to service. -/
def placeLeft (s : State) : State :=
  match s.ctl.upd.loader with
  | none => s
  | some k =>
    if !s.canLoad k then s
    else if s.recs.reserve && decide (3 ≤ s.ccores) then s.setFld (R.REL_CCORE k) F.REL_CCORE_STATE 1
    else setActive k true (s.setFld (R.REL_CCORE k) F.REL_CCORE_STATE 0)

/-- Step 4: the boot pointer is switched in one flash write. -/
def pointerWrite (s : State) : State :=
  let s1 := (placeLeft s).modUpd (fun _ => {})
  if s1.pfRefuses then updResult 5 4 s1
  else s1.modFlash (fun f => { f with next := .pointer s.idleSlot, retried := false })

/-- The job starts of the next core's contexts are held, or after the last handover the pointer is written. -/
def holdNext (s : State) : State :=
  match s.updNext with
  | some c => s.modUpd (fun u => { u with holding := some c, retry := none, since := s.dtime })
  | none => pointerWrite s

/-- ACTIVATE, on a staged image. -/
def activate' (s : State) : State :=
  if s.updState ≠ 2 ∨ s.flash.next ≠ .none then s
  else holdNext (takeLoader ((updResult 3 0 (s.setFld R.CTL_UPD_STATUS F.CTL_UPD_STATUS_HANDED 0)).modUpd (fun _ => {})))

/-- CANCEL, before the first handover. -/
def cancel (s : State) : State :=
  if (s.updState = 1 ∨ s.updState = 2 ∨ s.updState = 3) ∧ s.fld R.CTL_UPD_STATUS F.CTL_UPD_STATUS_HANDED = 0 then
    let s1 := match s.flash.next with
      | .image _ | .badImage _ => s.modFlash (fun f => { f with next := .none, retried := false })
      | _ => s
    let s2 := (placeLeft s1).modUpd (fun _ => {})
    match s.flash.next with
    | .pointer _ => s
    | _ => schedule s2.ctl.aclk (updResult 0 0 s2)
  else s

/-- Whether something keeps core `c` from handing over: a job of its contexts that has begun, or a teardown (R374). -/
def State.handoverWaits (s : State) (c : Nat) : Bool :=
  s.ctl.jobs.any (fun j => s.fld (R.CTL_CX_INFO j.ctx) F.CTL_CX_INFO_OWNER == c && j.begun)
    || s.contexts.any (fun x => s.fld (R.CTL_CX_INFO x) F.CTL_CX_INFO_OWNER == c && (s.ctx x).tear)

/-- Core `c` hands its contexts and roles to loader `m`, which releases the held starts; `c` loads the image in turn. -/
def handOver (c m : Nat) (s : State) : State :=
  let s1 := setActive m true (s.setFld (R.REL_CCORE m) F.REL_CCORE_STATE 0)
  let s2 := giveRoles c m (reassign c (fun _ => m) s1)
  let s3 := (setActive c false s2).setFld (R.REL_CCORE c) F.REL_CCORE_STATE 2
  let s4 := s3.setFld R.CTL_UPD_STATUS F.CTL_UPD_STATUS_HANDED (s3.fld R.CTL_UPD_STATUS F.CTL_UPD_STATUS_HANDED + 1)
  let s5 := holdNext ((s4.setFld R.CTL_UPD_STATUS F.CTL_UPD_STATUS_RESULT 0).modUpd (fun u =>
    { u with loader := some c, done := u.done ++ [c], holding := none, retry := none }))
  schedule s5.ctl.aclk s5

/-- UPD_HANDOVER: the handover under way, or the one that is tried again, which first holds the starts anew. A core that
has failed meanwhile is passed over, and a loader that has failed is replaced (R432). -/
def updHandover (s : State) : State :=
  if s.updState ≠ 3 ∨ s.flash.next ≠ .none then s
  else
    let s1 := match s.ctl.upd.loader with
      | some m => if s.canLoad m then s else takeLoader s
      | none => takeLoader s
    let s2 := match s1.ctl.upd.holding, s1.ctl.upd.retry with
      | none, some c => (s1.at s1.ctl.upd.again).modUpd (fun u =>
          { u with holding := some c, retry := none, since := max s1.dtime s1.ctl.upd.again })
      | _, _ => s1
    match s2.ctl.upd.holding, s2.ctl.upd.loader with
    | some c, some m =>
      if !bitOf (s2.fld R.CTL_STATUS F.CTL_STATUS_ACTIVE) c || c == m then holdNext s2
      else if s2.handoverWaits c then s2
      else handOver c m s2
    | _, _ => holdNext s2

/-- CTL_UPD_WAIT in BCLK ticks. -/
def State.updWait (s : State) : Nat := s.fld R.CTL_UPD_WAIT F.CTL_UPD_WAIT_MS * msTicks

/-- UPD_WAIT_EXPIRY: the held starts are released, and the handover is tried again after a further CTL_UPD_WAIT. The
starts that a change of policy holds are released too (R409). -/
def updWaitExpiry (s : State) : State :=
  match s.ctl.upd.holding with
  | some c =>
    if s.updState = 3 ∧ s.handoverWaits c then
      let s1 := s.at (s.ctl.upd.since + s.updWait)
      let s2 := (s1.setFld R.CTL_UPD_STATUS F.CTL_UPD_STATUS_RESULT 5).modUpd (fun u =>
        { u with holding := none, retry := some c, again := s1.dtime + s1.updWait })
      schedule s2.ctl.aclk s2
    else s
  | none =>
    if s.rel.holdStarts then schedule s.ctl.aclk (s.modRel (fun r => { r with holdStarts := false })) else s

/-! ### Crash dumps (R350, R368, R369) -/

/-- The bytes of a log entry (R420). -/
def LogEntry.bytes (e : LogEntry) : List Byte :=
  let b := leBytes 4 e.seq ++ leBytes 8 e.dtime ++ leBytes 1 e.cls ++ leBytes 1 e.kind ++ leBytes 2 e.unit
    ++ leBytes 2 e.subunit ++ leBytes 1 e.ctx ++ leBytes 1 e.code ++ leBytes 1 e.sub ++ leBytes 1 e.count
    ++ leBytes 2 e.boot ++ leBytes 8 e.arg0
    ++ ((List.range 7).flatMap (fun k => leBytes 4 (e.arg.getD k 0).toNat))
  b ++ leBytes 4 (crc32 b)

/-- A log entry as 16 words. -/
def LogEntry.words (e : LogEntry) : List Word :=
  (List.range 16).map (fun k => BitVec.ofNat 32 (ofLeBytes ((e.bytes.drop (4 * k)).take 4)))

/-- The log's entries, newest first: staging, then flash. -/
def State.newestLog (s : State) : List LogEntry :=
  s.rel.staging.reverse ++ ((s.rel.flash.map (·.2)).foldr insertEntry []).reverse

/-- The always-on copy of a dump: header, registers of the control cores, which are free values, and 44 log entries.
ASSERT_ID is a free value. -/
def aonWords (reason k : Nat) (s : State) : List Word :=
  let w : Nat → Word := fun n => BitVec.ofNat 32 n
  let free : Nat → Word := fun i => w (Config.freeNat (s.free + i))
  let st := s.reg R.CTL_STATUS
  [w (0xD0C7 + 2 ^ 16), w (reason + 2 ^ 8 * k), w s.dtime, w (s.dtime / 2 ^ 32), w (wordFld st F.CTL_STATUS_FW_VER),
    w (wordFld st F.CTL_STATUS_BOOT_SLOT), w (s.fld R.CTL_DUMP_STATUS F.CTL_DUMP_STATUS_COUNT + 1), free 144]
    ++ List.replicate 56 0#32
    ++ (List.range 4).flatMap (fun c => (List.range 36).map (fun i => free (36 * c + i)) ++ List.replicate 28 0#32)
    ++ (((s.newestLog.take 44).flatMap LogEntry.words) ++ List.replicate 704 0#32).take 704

/-- Words of a dump beyond the always-on copy: kernel tables, stacks and heap, whose layout the manual leaves open. -/
def dumpRest : Nat := 64512

/-- The dump to DA under T0's key, where CTL_DUMP_DA is set and its pages are T0's. -/
def dumpToDa (ws : List Word) (s : State) : State :=
  let da := s.fld R.CTL_DUMP_LO F.CTL_DUMP_LO_DA * 512 + s.fld R.CTL_DUMP_HI F.CTL_DUMP_HI_DA * 2 ^ 32
  if da = 0 ∨ (s.page (pageOf da)).owner ≠ some 0 ∨ (s.page (pageOf (da + 2 ^ 18 - 1))).owner ≠ some 0 then s
  else
    let rest := (List.range dumpRest).map (fun i => BitVec.ofNat 32 (Config.freeNat (s.free + i)))
    ((fwWords da (ws ++ rest) s).2).drew dumpRest

/-- What the restart leaves of an update: the boot pointer is unchanged, and a staging or an activation has failed. -/
def updRestart (s : State) : State :=
  let s1 := match s.flash.next with
    | .image _ | .badImage _ | .pointer _ => s.modFlash (fun f => { f with next := .none, retried := false })
    | _ => s
  if s1.updState = 1 ∨ s1.updState = 3 then updResult 5 0 ((placeLeft s1).modUpd (fun _ => {})) else s1

/-- A crash of control core `k` for `reason`: the dump, and a fault of every context, each of which is torn down once the
complex has restarted. -/
def crash (reason k : Nat) (s : State) : State :=
  if !s.booted || !s.domOn 29 || !bitOf (s.fld R.CTL_STATUS F.CTL_STATUS_ACTIVE) k then s
  else
    let aon := aonWords reason k s
    let s1 := dumpToDa aon (s.drew 145)
    let s2 := s1.modCtl (fun c => { c with aon := aon })
    let n := s2.fld R.CTL_DUMP_STATUS F.CTL_DUMP_STATUS_COUNT
    let s3 := s2.setReg R.CTL_DUMP_STATUS (BitVec.ofNat 32 (1 + 2 * reason + 2 ^ 16 * ((n + 1) % 65536)))
    let s4 := errEvent Pg.ctlDump E.ctlDump_DUMP_TAKEN (errEvent Pg.ctl0 E.ctl0_CRASH s3)
    let s5 := logEntry { cls := LogCls.crash, kind := LogKind.ccore, unit := k, arg0 := reason + k * 2 ^ 32 } s4
    let s6 := ccoreCounts k (s5.modRel (fun r => { r with crashes := r.crashes ++ [(k, s5.dtime)] }))
    let live := s6.contexts.filter (fun x => !s6.flag (R.CTL_CX_INFO x) F.CTL_CX_INFO_FAULTED)
    let s7 := live.foldl (fun t x => ctxFault x none [] Flt.watchdog 0 0 t) s6
    updRestart s7

/-- A read of CTL_DUMP_AON_DATA: the addressed word, and WORD advances. Before a dump the word is free. -/
def aonRead (s : State) : State :=
  let k := s.fld R.CTL_DUMP_AON_ADDR F.CTL_DUMP_AON_ADDR_WORD
  let v : Word := match s.ctl.aon[k]? with
    | some w => w
    | none => BitVec.ofNat 32 (Config.freeNat s.free)
  ((s.answers v).setFld R.CTL_DUMP_AON_ADDR F.CTL_DUMP_AON_ADDR_WORD ((k + 1) % 1024)).drew
    (if s.ctl.aon.isEmpty then 1 else 0)

end Sys2Proof.Machine
end

