-- ==== Sys2Proof/Machine/Test.lean ====
section
/-! DEFINITION. Machine/Test.lean: lane tests (R493), the memory pattern engine (R496), and the test access port with its
boundary-scan register (R499, R500, R506). -/

namespace Sys2Proof.Machine

/-! ### Lane tests (R492, R493) -/

/-- Whether the checker of lane `l` of port `p` runs: CHK is set and the port is DOWN or DRAINED. -/
def State.checking (s : State) (p l : Nat) : Bool :=
  s.flag (R.TST_LANE_CFG p l) F.TST_LANE_CFG_CHK && s.domOn (21 + p)
    && (s.portState p == Port.down || s.portState p == Port.drained)

def State.laneLocked (s : State) (p l : Nat) : Bool := s.flag (R.TST_LANE_STAT p l) F.TST_LANE_STAT_LOCK

/-- Bits compared by a locked checker since its last count: a free number, of which `err` and a free number more mismatched
(log entry 7). -/
def laneCount (p l err : Nat) (more : Bool) (s : State) : State :=
  let e := err + (if more then Config.freeNat s.free else 0)
  ((s.addCnt (R.TST_LANE_ERR_LO p l) e).addCnt (R.TST_LANE_BITS_LO p l) (e + Config.freeNat (s.free + 1))).drew 2

/-- A checker has predicted 128 consecutive bits. -/
def checkerLock (p l : Nat) (s : State) : State :=
  if !s.checking p l ∨ s.laneLocked p l then s else s.setFld (R.TST_LANE_STAT p l) F.TST_LANE_STAT_LOCK 1

/-- A locked checker has met 16 mismatches within 128 bits. -/
def checkerLoss (p l : Nat) (s : State) : State :=
  if !s.checking p l ∨ !s.laneLocked p l then s
  else
    let s1 := laneCount p l 16 true s
    let s2 := (s1.setFld (R.TST_LANE_STAT p l) F.TST_LANE_STAT_LOCK 0).satFld (R.TST_LANE_STAT p l) F.TST_LANE_STAT_LOSSES 1
    errEvent (Pg.tstLane p) E.tstLane_LOCK_LOST s2

/-- TST_LANE_CFG.INJ: one transmitted bit inverted. The mismatch is counted here where the lane loops back to its own
checker, through near-end loopback or, with `back`, at the far end. -/
def laneInject (p l : Nat) (back : Bool) (v : Word) (s : State) : State :=
  if wordFld v F.TST_LANE_CFG_INJ = 1 ∧ s.flag (R.TST_LANE_CFG p l) F.TST_LANE_CFG_GEN ∧ s.checking p l ∧ s.laneLocked p l
      ∧ (back ∨ s.fld (R.TST_LANE_CFG p l) F.TST_LANE_CFG_LOOP = 1) then
    laneCount p l 1 false s
  else s

/-- Every locked checker counts what it has compared, as a snapshot finds it (R65). -/
def lanesCount (s : State) : State :=
  iter 12 (fun k t => if t.checking (k / 2) (k % 2) && t.laneLocked (k / 2) (k % 2) then laneCount (k / 2) (k % 2) 0 true t else t) s

/-! ### The memory pattern engine (R496) -/

/-- The tier and frames that TST_MEM_CFG, FIRST and COUNT name: a frame of tier 0 lies in both stacks. -/
def State.testRange (s : State) : Nat × Nat × Nat :=
  let first := s.fld R.TST_MEM_FIRST F.TST_MEM_FIRST_FRAME
  (if s.fld R.TST_MEM_CFG F.TST_MEM_CFG_TIER = 2 then 1 else 0, first, first + s.fld R.TST_MEM_COUNT F.TST_MEM_COUNT_FRAME)

/-- Whether a page that has an owner lies in the frames of a test. -/
def State.testOwned (s : State) : Bool :=
  let r := s.testRange
  s.mt.pages.any (fun q => q.2.owner.isSome && q.2.tier == r.1 && decide (r.2.1 ≤ q.2.frame ∧ q.2.frame < r.2.2))

/-- Whether a page is moving into or out of the frames of a test. -/
def State.testMoving (s : State) : Bool :=
  let r := s.testRange
  let within : Nat → Nat → Bool := fun t f => t == r.1 && decide (r.2.1 ≤ f ∧ f < r.2.2)
  s.mt.pages.any (fun q => q.2.moving && within q.2.tier q.2.frame)
    || (match s.mt.job with | some (.move _ t f) => within t f | _ => false)

/-- TST_MEM_CFG.GO. A GO while a test runs has no effect (log entry 44). -/
def memTestGo (v : Word) (s : State) : State :=
  let result (k : Nat) (t : State) : State := t.setFld R.TST_MEM_STATUS F.TST_MEM_STATUS_RESULT k
  if wordFld v F.TST_MEM_CFG_GO = 0 ∨ s.mt.testing.isSome then s
  else if s.testOwned then result 1 s
  else if s.testMoving then result 2 s
  else if !s.domOn (18 + s.fld R.TST_MEM_CFG F.TST_MEM_CFG_TIER % 3) then result 3 s
  else
    let r := s.testRange
    (s.setReg R.TST_MEM_STATUS 1#32).modMt (fun m => { m with testing := some (r.1, r.2.1, r.2.2 - 1) })

/-- The pattern test ends. `fail`: the first failing frame and the sectors that failed. Sectors tested are counted as a free
number, since the tag sectors of a frame are not numbered (log entry 7). -/
def memTestDone (fail : Option (Nat × Nat)) (s : State) : State :=
  if s.mt.testing.isNone then s
  else
    let s1 := countFree (cntKey Pg.tstMem 0) (s.modMt (fun m => { m with testing := none }))
    match fail with
    | none => s1.setFld R.TST_MEM_STATUS F.TST_MEM_STATUS_STATE 2
    | some q =>
      let s2 := (s1.setFld R.TST_MEM_STATUS F.TST_MEM_STATUS_STATE 3).setFld R.TST_MEM_STATUS F.TST_MEM_STATUS_FAIL_FRAME q.1
      errEvent Pg.tstMem E.tstMem_MEM_FAIL (s2.count Pg.tstMem 1 q.2)

/-! ### The test access port (R499, R500) -/

/-- The instruction codes of R499. -/
def Jtag.extest : Nat := 0x00
def Jtag.sample : Nat := 0x01
def Jtag.idcode : Nat := 0x02
def Jtag.clamp : Nat := 0x03
def Jtag.highz : Nat := 0x04
def Jtag.pulse : Nat := 0x08
def Jtag.train : Nat := 0x09
def Jtag.dbg : Nat := 0x20
def Jtag.enter : Nat := 0x30
def Jtag.bypass : Nat := 0xFF

/-- The IDCODE of R499. -/
def idcode : Word := 0x10C07697#32

def State.modPins (s : State) (f : Pins → Pins) : State := { s with pins := f s.pins }

/-- An instruction without a data register of its own is selected. -/
def jtagSelect (ir : Nat) (s : State) : State := s.modPins (fun p => { p with ir := ir })

/-- An instruction that requires PERST_N low; otherwise it acts as BYPASS. -/
def jtagReset (ir : Nat) (s : State) : State := jtagSelect (if s.pins.perstLow then ir else Jtag.bypass) s

/-- A scan of the boundary register: the cells capture the pins, and the shifted-in value is loaded. -/
def bsrScan (pins load : Nat) (s : State) : State := s.modPins (fun p => { p with captured := pins, bsr := load })

/-- EXTEST, EXTEST_PULSE and EXTEST_TRAIN. -/
def jtagExtest (ir pins load : Nat) (s : State) : State :=
  if s.pins.perstLow then bsrScan pins load (jtagSelect ir s) else jtagSelect Jtag.bypass s

/-- SAMPLE/PRELOAD. -/
def jtagSample (pins load : Nat) (s : State) : State := bsrScan pins load (jtagSelect Jtag.sample s)

/-- What is in flight is lost when the keys go (R506). -/
def dropInFlight (s : State) : State :=
  ({ s with
    cores := s.cores.map (fun (q : Nat × Core) => (q.1, { q.2 with ops := [], scanQ := [], chan0 := {}, chan1 := {}, chan2 := {}, chan3 := {} }))
    plm := { s.plm with queue := [], runs := [] } }).modMt (fun m => { m with accs := [], job := none })

/-- TEST_ENTER: without a valid identity record, or with DEBUG 1. -/
def testEnter (s : State) : State :=
  if s.flag R.SEC_BOOT F.SEC_BOOT_ID_VALID ∧ !s.flag R.TST_MODE F.TST_MODE_DEBUG_OPEN then jtagSelect Jtag.bypass s
  else
    let s1 := dropInFlight (iter 32 eraseKey (jtagSelect Jtag.enter s))
    (s1.setFld R.SEC_BOOT F.SEC_BOOT_ID_VALID 0).setFld R.TST_MODE F.TST_MODE_PROD 1

/-- The microphone balls of R500, as the first cells of the boundary register (log entry 45): MIC_PWR_EN, PDM_CLK[0],
PDM_CLK[1], MUTE_LED. -/
def micCells : Nat := 4

/-- Whether the boundary register, and not the device, drives the ball of cell `k`: under EXTEST, CLAMP, HIGHZ, EXTEST_PULSE
and EXTEST_TRAIN, but never a microphone ball while MUTE_N is low (R500). -/
def State.cellDrives (s : State) (k : Nat) : Bool :=
  [Jtag.extest, Jtag.clamp, Jtag.highz, Jtag.pulse, Jtag.train].contains s.pins.ir
    && !(decide (k < micCells) && s.flag R.BRZ_MUTE F.BRZ_MUTE_PIN)

/-- The level of the ball of cell `k`, where `dev` is what the device drives: none in high impedance. -/
def State.ball (s : State) (k : Nat) (dev : Bool) : Option Bool :=
  if s.cellDrives k then (if s.pins.ir = Jtag.highz then none else some (bitOf s.pins.bsr k)) else some dev

end Sys2Proof.Machine
end

