-- ==== Sys2Proof/Machine/Bus.lean ====
section
/-! DEFINITION. Machine/Bus.lean: a register write or read that has passed its checks reaches its register: the effects
that writes have beyond their fields, and what registers that show other state read as. -/

namespace Sys2Proof.Machine

/-! ### Confidential tenants (R455, R505) -/

/-- Whether another confidential tenant's context resides on core `n`, as seen by `iid`. -/
def State.confOther (s : State) (iid n : Nat) : Bool :=
  s.contexts.any (fun x => (s.ctx x).cores.contains n && s.confidential (tenantOf x) && tenantOf x != iid)

/-- The pages of a core window (R34). -/
def isCorePage : PageKind → Bool
  | .arr0 | .vec | .seq | .spd3 | .spd4 | .spd5 | .arr6 | .arr7 => true
  | _ => false

/-- Whether R455 refuses an access that the access table permits: debug writes and ERR_INJ on the pages of a core where a
context of a confidential tenant resides, and the debug port on the tenant's own HIF page. -/
def State.confRefuses (s : State) (iid : Nat) (k : PageKind) (i o : Nat) (write : Bool) : Bool :=
  let marked := match findReg o (regsOf k) with | some (d, _, _) => d.by' == .debug | none => false
  if privileged iid then false
  else if k = .hifFn then iid == 21 && s.confidential i
  else if isCorePage k && write && (iid == 21 || o == Hdr.errInj || marked) then s.confOther iid i
  else false

/-- The refusal of R455: ACC_DENY, and for the debug port DBG_DENY. -/
def confDenied (iid a : Nat) (s : State) : State := deniedAccess iid a (if iid = 21 then dbgDeny s else s)

/-- Whether a count of tenant `t` is kept from `iid` (R455, R66). -/
def State.countHidden (s : State) (iid t : Nat) : Bool := s.confidential t && !privileged iid && iid != t

/-! ### Writes -/

/-- A word with the enabled bytes replaced. -/
def mergeWord (old bm v : Word) : Word := (old &&& ~~~bm) ||| (v &&& bm)

/-- Whether a register is a window onto a memory, whose accesses have no field of their own (R268, R282, R299). -/
def isPort (k : PageKind) (o : Nat) : Bool :=
  (k == .brz4 && o == 0x104) || (k == .isp0 && o == 0x10C) || (k == .ispBus && o == 0x108)

/-- An access to a window register: `some` writes the enabled bytes. -/
def portAccess (k : PageKind) (i : Nat) (w : Option (Word × Word)) (s : State) : State :=
  match k, w with
  | .brz4, none => spmRead s
  | .brz4, some (bm, v) => spmWrite (mergeWord (BitVec.ofNat 32 (s.spmWord (s.fld R.BRZ_SPM_ADDR F.BRZ_SPM_ADDR_ADDR))) bm v) s
  | .isp0, none => lutData none s
  | .isp0, some (bm, v) => lutData (some (mergeWord (lutData none s).rdata bm v)) s
  | .ispBus, none => ccMemData i none s
  | .ispBus, some (bm, v) => ccMemData i (some (mergeWord (ccMemData i none s).rdata bm v)) s
  | _, _ => s

/-- A mailbox command (R351, R371). -/
def mailbox (v : Word) (s : State) : State :=
  let t := wordFld v F.CTL_MB_CMD_TENANT
  let k := wordFld v F.CTL_MB_CMD_SLOT
  match wordFld v F.CTL_MB_CMD_CMD with
  | 1 => cxCreate t k s
  | 2 => cxDestroy t k s
  | _ => s

/-- A confidential-mode command (R456). -/
def confCmd (v : Word) (s : State) : State :=
  match wordFld v F.SEC_CONF_CMD_CMD with
  | 1 => confSet (wordFld v F.SEC_CONF_CMD_TENANT) s
  | 2 => confClear (wordFld v F.SEC_CONF_CMD_TENANT) s
  | _ => s

/-- An update command; `keyOk` and `sigOk` are what the verification of a staged image finds (R373). -/
def updCmd (v : Word) (keyOk sigOk : Bool) (s : State) : State :=
  match wordFld v F.CTL_UPD_CMD_CMD with
  | 1 => stage keyOk sigOk s
  | 2 => activate' s
  | 3 => cancel s
  | _ => s

/-- A record command (R444). -/
def recCmd (v : Word) (keyOk sigOk : Bool) (s : State) : State :=
  match wordFld v F.SEC_REC_CMD_CMD with
  | 1 => writeRecord' 2 keyOk sigOk s
  | 2 => writeRecord' 3 keyOk sigOk s
  | _ => s

/-- A group command (R59). -/
def groupCmd (iid g : Nat) (v : Word) (s : State) : State :=
  match wordFld v F.MGT_TXG_CTRL_CMD with
  | 1 => fireGroup iid g s
  | 2 => withdrawGroup iid g s
  | _ => s

/-- What a write's outcome needs beyond its data: the checks of a record or image, and whether an inverted test bit comes
back to this port's checker. -/
structure WriteOutcome where
  keyOk : Bool
  sigOk : Bool
  back : Bool
  deriving DecidableEq, Repr

/-- The outcome of a write that names none: free values. -/
def State.anyOutcome (s : State) : WriteOutcome :=
  ⟨Config.freeNat s.free % 2 == 1, Config.freeNat (s.free + 1) % 2 == 1, Config.freeNat (s.free + 2) % 2 == 1⟩

/-- What a write of `v` under byte mask `bm` to block register `o` of instance `i` of a page does once its fields have
taken it; `old` is the state before. -/
def writeEffect (q : WriteOutcome) (iid : Nat) (k : PageKind) (i o : Nat) (bm v : Word) (old s : State) : State :=
  let low := bm.getLsbD 0
  match k with
  | .mgt0 => if o % 16 = 0 then groupCmd iid ((o - 0x200) / 16) v s else s
  | .mgtSnap => if o = 0x100 ∧ v.getLsbD 0 then snapRequest iid s else s
  | .tstLane => if o = 0x100 ∨ o = 0x104 then laneInject i ((o - 0x100) / 4) q.back v s else s
  | .tstMem => if o = 0x100 then memTestGo v s else s
  | .pwr => if 0x100 ≤ o ∧ o < 0x17C ∧ low then modeWritten ((o - 0x100) / 4) (old.domMode ((o - 0x100) / 4)) s else s
  | .secKey => if o = 0x140 then rotateGo v s else s
  | .secAtt => if o = 0x120 then attGo iid v s else s
  | .secConf => if o = 0x104 then confCmd v s else s
  | .secRec => if o = 0x10C then recCmd v q.keyOk q.sigOk s else s
  | .rel0 => if o = 0x100 then svcWrite v s else s
  | .ctl0 => if o = 0x104 then xcopy v s else s
  | .ctlMb => if o = 0x100 then mailbox v s else s
  | .ctlUpd => if o = 0x10C then updCmd v q.keyOk q.sigOk s else s
  | .ctlDump =>
    if o = 0x108 ∧ low then
      s.setFld R.CTL_DUMP_STATUS F.CTL_DUMP_STATUS_VALID
        (if v.getLsbD 0 then 0 else old.fld R.CTL_DUMP_STATUS F.CTL_DUMP_STATUS_VALID)
    else s
  | .ctlStr =>
    if o = 0x120 ∧ low then strCmdWrite iid v s
    else if 0x400 ≤ o then strPartCheck ((o - 0x400) / 4) (old.reg (R.STR_PART ((o - 0x400) / 4))) s
    else s
  | .arr0 => if o = 0x118 ∧ low then armInjection i v s else s
  | .arr6 => if o = 0x300 then statClear i 0 v s else if o = 0x304 then statClear i 32 v s else s
  | .seq => if o = 0x100 ∧ low then seqCtrlWrite i v s else s
  | .spd3 => if o = 0x104 then spdBankSwap i v s else s
  | .spd4 =>
    if o % 0x80 = 0 ∧ o < 0x300 then holdChanged i ((o - 0x100) / 0x80) s
    else if 0x40 ≤ o % 0x80 then submitWord i ((o - 0x100) / 0x80) ((o % 0x80 - 0x40) / 4) v s
    else s
  | .spd5 => if o = 0x600 ∧ low then spdRelease i v s else s
  | .mt2 => if o = 0x104 ∧ low then pgCmd iid v s else s
  | .fab0 => if o = 0x100 then walkGo v s else if o = 0x108 then crcInj v s else s
  | .fab2 => if o = 0x104 then d2dRetrain v s else s
  | .hifFn => if o = 0x104 ∧ v.getLsbD 0 then resume i s else s
  | .ispCam => if (o = 0x15C ∨ o = 0x17C ∨ o = 0x19C) ∧ low then ispOutRel i ((o - 0x15C) / 0x20) v s else s
  | .ispBus => if o = 0x110 ∧ low then ccPost i v s else s
  | .decCtx => if o = 0x120 then auPtrMoved i s else s
  | .xfm => if o = 0x144 ∧ low then xfmRel i v s else s
  | .brz2 => if o = 0x110 ∧ low then wqRdWrite v old else s
  | .brzAg => if o = 0x108 ∧ low then agCmd i (bitsOf v.toNat 1 0) s else s
  | _ => s

/-- An error that a register access itself raised in its page is captured with the access's IID and OFFSET (R43); `old` is
the state before the access. -/
def attributeErr (iid a : Nat) (old s : State) : State :=
  let base := a - a % 4096
  if old.reg (base + Hdr.errStat) = 0 && s.reg (base + Hdr.errStat) != 0
      && wordFld (s.reg (base + Hdr.errFirst)) ⟨9, 5⟩ == iidNone then
    s.setReg (base + Hdr.errFirst) (wordSet (wordSet (s.reg (base + Hdr.errFirst)) ⟨9, 5⟩ iid) ⟨21, 10⟩ (a % 4096))
  else s

/-- A write of `iid` to BAR0 offset `a` (R5 to R7, R35 to R37, R45 to R47), with the outcome `q` where it needs one. -/
def busWriteWith (q : WriteOutcome) (iid a : Nat) (bm v : Word) (s : State) : State :=
  withGate iid a true s (fun k i s =>
    let o := a % 4096
    if s.confRefuses iid k i o true then confDenied iid a s
    else if o < 0x100 then headerWrite iid (a - o) o bm v s
    else
      match findReg o (regsOf k) with
      | none => s
      | some (d, _, _) =>
        let on := s.domOn (pageDomain k i)
        if isPort k o then
          (if on then attributeErr iid a s (portAccess k i (some (bm, v)) s) else raiseErr (a - o) Err.domainOff iid o s)
        else
          let s1 := blockFields iid a bm v d on s
          if on && commandOk d.flds bm v then attributeErr iid a s1 (writeEffect q iid k i o bm (v &&& bm) s s1) else s1)

/-- The registers whose write has an outcome to name: record and update commands, and test lanes. -/
def needsOutcome (a : Nat) : Bool :=
  a == R.SEC_REC_CMD || a == R.CTL_UPD_CMD
    || (decide (Pg.tstLane 0 ≤ a) && decide (a < Pg.tstLane 6) && (a % 4096 == 0x100 || a % 4096 == 0x104))

/-- A register write whose outcome nothing names. -/
def busWrite (iid a : Nat) (bm v : Word) (s : State) : State :=
  if needsOutcome a then busWriteWith s.anyOutcome iid a bm v (s.drew 3) else busWriteWith ⟨false, false, false⟩ iid a bm v s

/-- A write of a whole word. -/
def wordWrite (iid a : Nat) (v : Word) (s : State) : State := busWrite iid a 0xFFFFFFFF#32 v s

/-! ### Reads -/

/-- MGT_TXG_STATUS of group `g` (R59). -/
def State.groupStatus (s : State) (g : Nat) : Word :=
  let x := s.group g
  let m := (s.members g).length
  BitVec.ofNat 32 (m % 128 + (if x.fired then 2 else if m = 0 then 0 else 1) * 2 ^ 7 + (if x.late then 2 ^ 9 else 0))

/-- A mask of the domains in a state (R504). -/
def State.domMask (s : State) (st : Nat) : Word :=
  BitVec.ofNat 32 ((List.range 31).foldl (fun m d => if s.domState d = st then m + 2 ^ d else m) 0)

/-- REL_INV (R428). -/
def State.inventory (s : State) : Word :=
  let w := wordSet (wordSet (s.reg R.REL_INV) F.REL_INV_CORES s.coresInService) F.REL_INV_CORE_SPARES
    (min 3 (countBelow 18 s.coldSpare))
  wordSet (wordSet w F.REL_INV_CCORES s.ccores) F.REL_INV_CC_SPARE
    (if anyBelow 4 (fun k => s.fld (R.REL_CCORE k) F.REL_CCORE_STATE == 1) then 1 else 0)

/-- Word `w` of the selected log entry (R430); of an empty slot it is free. ARG0 and ARG of a confidential tenant's entry
are kept from the sideband and the debug port (R505). -/
def State.logWord (s : State) (iid w : Nat) : Word :=
  match Tab.find s.rel.flash (s.fld R.REL_LOG_SEL F.REL_LOG_SEL_SLOT) with
  | none => BitVec.ofNat 32 (Config.freeNat s.free)
  | some e =>
    if (iid = 20 ∨ iid = 21) ∧ e.ctx < 128 ∧ s.confidential (tenantOf e.ctx) ∧ 6 ≤ w ∧ w < 15 then 0
    else e.words.getD w 0

/-- SPD_REGION_FILL (R151). -/
def State.regionFill (s : State) (n r : Nat) : Word :=
  let g := s.rgn n r
  let k := g.committed
  BitVec.ofNat 32 (k % 65536 + (if k = 0 then 2 ^ 16 else 0) + (if k = g.size then 2 ^ 17 else 0))

/-- A 64-bit shadow among block registers, by its half. -/
def State.shadowAt (s : State) (a : Nat) : Word := s.shadowWord (a - a % 8) (a % 8 == 4)

/-- What block register `o` of instance `i` of a page reads as for `iid`, where that is not what it was last set to. -/
def State.regView (s : State) (iid : Nat) (k : PageKind) (i o a : Nat) : Word :=
  let w := s.reg a
  let hide := (iid == 20 || iid == 21) && s.confResident i
  match k with
  | .mgt0 => if o % 16 = 12 then s.groupStatus ((o - 0x200) / 16) else w
  | .mgtTel => if o = 0x104 then s.domMask 2 else if o = 0x108 then s.domMask 1 else w
  | .tstLane => if 0x110 ≤ o ∧ o < 0x130 then s.shadowAt a else w
  | .rel0 => if o = 0x108 then s.inventory else w
  | .rel2 =>
    if 0x140 ≤ o ∧ o < 0x180 then s.logWord iid ((o - 0x140) / 4)
    else if o = 0x180 then wordSet w F.REL_LOG_STATUS_PENDING s.rel.staging.length
    else w
  | .rel3 => s.shadowAt a
  | .ctlAcc => if o < 0x500 ∧ s.countHidden iid ((o - 0x100) / 64) then 0 else s.shadowAt a
  | .arr0 => if hide ∧ (o = 0x110 ∨ o = 0x114) then wordSet w F.ARR_STATUS_OP_TAG 0 else w
  | .vec =>
    if o = 0x100 then (if hide then wordSet (s.scanStatus i) F.VEC_SCAN_STATUS_STREAM 0 else s.scanStatus i) else w
  | .seq =>
    if hide ∧ o = 0x108 then wordSet w F.SEQ_STATUS_PC 0
    else if hide ∧ 0x200 ≤ o ∧ o < 0x300 then 0
    else w
  | .spd4 => if hide ∧ o % 0x80 = 4 then wordSet w F.SPD_DMA_STATUS_OP_TAG 0 else w
  | .spd5 =>
    if 0x500 ≤ o ∧ o < 0x600 then s.regionFill i ((o - 0x500) / 4)
    else if (iid = 20 ∨ iid = 21) ∧ 0x100 ≤ o ∧ o < 0x500 ∧ 8 ≤ o % 16
        ∧ s.confidential (tenantOf (s.rgn i ((o - 0x100) / 16)).ctx) then 0
    else w
  | .mt0 =>
    if o = 0x100 then BitVec.ofNat 32 (s.recs.t0 + 2 ^ 15 * s.recs.t1)
    else if o = 0x10C then BitVec.ofNat 32 (s.freeCount 0 + 2 ^ 16 * s.mt.promo.length)
    else if 0x240 ≤ o then BitVec.ofNat 32 (s.pinned ((o - 0x240) / 4))
    else w
  | .mt1 => s.shadowAt a
  | .fab1 =>
    if o < 0x180 then wordSet w F.FAB_LINK_STAT_NOT_ON (if (o - 0x100) / 4 < 31 ∧ !s.linkOn ((o - 0x100) / 4) then 1 else 0)
    else w
  | .isp0 => if o = 0x104 then BitVec.ofNat 32 (s.ispLoad % 65536) else w
  | .dec1 => if 0x200 ≤ o then s.shadowAt a else w
  | _ => w

/-- A read of a block register whose domain is on: its side effects, and its word in `rdata`. -/
def blockRead (iid : Nat) (k : PageKind) (i o a : Nat) (s : State) : State :=
  match k with
  | .mgtTel => if o = 0x10C then telPowerRead s else s.answers (s.regView iid k i o a)
  | .clk => if o = 0x104 then dtimeLoRead s else s.answers (s.regView iid k i o a)
  | .secBoot => if o = 0x144 then idRead s else s.answers (s.regView iid k i o a)
  | .secAtt => if o = 0x12C then attRead s else s.answers (s.regView iid k i o a)
  | .ctlDump => if o = 0x110 then aonRead s else s.answers (s.regView iid k i o a)
  | .rel2 => (s.answers (s.regView iid k i o a)).drew 1
  | .brz0 => if o = 0x10C then idxLoRead s else s.answers (s.regView iid k i o a)
  | .brzAg => if o = 0x118 then agCurLoRead i s else s.answers (s.regView iid k i o a)
  | .brz4 | .isp0 | .ispBus =>
    if isPort k o then portAccess k i none s else s.answers (s.regView iid k i o a)
  | k => s.answers (s.regView iid k i o a)

/-- A read of BAR0 offset `a` by `iid` (R35, R37, R45 to R47); a refused or unmapped read returns zero. -/
def busRead (iid a : Nat) (s : State) : State :=
  withGate iid a false (s.answers 0) (fun k i s =>
    let o := a % 4096
    if s.confRefuses iid k i o false then confDenied iid a s
    else if o < 0x100 then
      match pageAt (a / 4096) with
      | none => s
      | some (r, _) =>
        if k = .hifFn ∧ 0x40 ≤ o ∧ o < 0x80 ∧ s.countHidden iid i then s
        else s.answers (s.headerRead r i (a - o) o)
    else if s.domOn (pageDomain k i) then attributeErr iid a s (blockRead iid k i o a s)
    else s)

end Sys2Proof.Machine
end

