-- ==== Sys2Proof/Machine/Debug.lean ====
section
/-! DEFINITION. Machine/Debug.lean: the debug port (R501, R502) and the management sideband (R503, R504). -/

namespace Sys2Proof.Machine

/-! ### The debug port -/

/-- The last operation's STATUS and DATA. -/
def dbgAnswer (status : Nat) (data : Word) (s : State) : State :=
  s.modPins (fun p => { p with ir := Jtag.dbg, dbgStatus := status, dbgData := data })

/-- A refused operation; `conf`: for a confidential tenant. -/
def dbgRefused (conf : Bool) (s : State) : State :=
  dbgAnswer 2 0 ((if conf then dbgDeny s else s).count Pg.tstDbg 2 1)

/-- Whether DEBUG is 1. -/
def State.debugOpen (s : State) : Bool := s.flag R.TST_MODE F.TST_MODE_DEBUG_OPEN

/-- An operation that finds the control complex asleep wakes it and is busy until it is presented again (log entry 10). -/
def dbgAwake (s : State) (f : State → State) : State :=
  if s.booted ∧ !s.domOn 29 then dbgAnswer 1 0 (wakeDom 29 false s) else f s

/-- Whether the debug port may make a register access. -/
def State.dbgMay (s : State) (a : Nat) (write : Bool) : Bool :=
  match s.gate 21 a write with
  | .ok _ _ => (s.booted || s.flag R.TST_MODE F.TST_MODE_PROD) && s.domOn 29
  | _ => false

/-- Whether R455 refuses a register access of the debug port. -/
def State.dbgConf (s : State) (a : Nat) (write : Bool) : Bool :=
  match s.gate 21 a write with
  | .ok k i => s.confRefuses 21 k i (a % 4096) write
  | _ => false

/-- A register read under IID 21. -/
def dbgRegRead (a : Nat) (s : State) : State :=
  let t := busRead 21 a s
  if !s.dbgMay a false || s.dbgConf a false then dbgAnswer 2 0 (t.count Pg.tstDbg 2 1) else dbgAnswer 0 t.rdata t

/-- A register write under IID 21. -/
def dbgRegWrite (a : Nat) (v : Word) (s : State) : State :=
  let t := busWrite 21 a 0xFFFFFFFF#32 v s
  if !s.dbgMay a true || s.dbgConf a true then dbgAnswer 2 0 (t.count Pg.tstDbg 2 1) else dbgAnswer 0 0 t

/-- The owner of the page of a DA that the debug port may reach. -/
def State.dbgOwner (s : State) (da : Nat) : Option Nat :=
  if !s.debugOpen then none
  else
    match (s.page (pageOf da)).owner with
    | some t => if s.confidential t || decide (2 ^ 48 ≤ da) then none else some t
    | none => none

/-- Whether the page of a DA belongs to a confidential tenant. -/
def State.daConf (s : State) (da : Nat) : Bool :=
  match (s.page (pageOf da)).owner with
  | some t => s.confidential t
  | none => false

/-- A DA read under the owner's key. `o` is what the sector's read meets, `none` a tier that does not respond. -/
def dbgDaRead (da : Nat) (o : Option SectorRead) (s : State) : State :=
  match s.dbgOwner da, o with
  | none, _ => dbgRefused (s.daConf da) s
  | some _, none => dbgAnswer 4 0 s
  | some t, some o =>
    let r := readSector t da o (touchPage (pageOf da) s)
    if r.2.1 ≠ 0 then dbgAnswer 3 0 r.2.2
    else dbgAnswer 0 (BitVec.ofNat 32 (ofLeBytes ((r.1.drop (da % 512)).take 4))) r.2.2

/-- A DA write, a read-modify-write of its sector (R223). -/
def dbgDaWrite (da : Nat) (v : Word) (o : Option SectorRead) (s : State) : State :=
  match s.dbgOwner da, o with
  | none, _ => dbgRefused (s.daConf da) s
  | some _, none => dbgAnswer 4 0 s
  | some t, some o =>
    let r := readSector t da o (touchPage (pageOf da) s)
    let bs := mergeSector r.1 (da / 512 * 512) da (leBytes 4 v.toNat)
    dbgAnswer (if r.2.1 = 0 then 0 else 3) 0 (storeSector t da (rowSrc r.2.1) bs r.2.2)

/-- The contexts whose valid SPD_RANGE entry on core `n` holds row `r`. -/
def State.rangeCtxs (s : State) (n r : Nat) : List Nat :=
  ((List.range 16).filter (fun k => s.flag (R.SPD_RANGE_HI n k) F.SPD_RANGE_HI_VALID
      && decide (s.fld (R.SPD_RANGE_LO n k) F.SPD_RANGE_LO_BASE ≤ r ∧ r ≤ s.fld (R.SPD_RANGE_LO n k) F.SPD_RANGE_LO_LIMIT))).map
    (fun k => s.fld (R.SPD_RANGE_HI n k) F.SPD_RANGE_HI_CTX)

/-- A scratchpad read; `parity`: its one check fails. -/
def dbgSpdRead (addr : Nat) (parity : Bool) (s : State) : State :=
  let n := bitsOf addr 27 23
  let r := bitsOf addr 22 7
  let xs := s.rangeCtxs n r
  if !s.debugOpen || decide (17 < n) || !s.domOn n || xs.isEmpty then dbgRefused false s
  else if xs.any (fun x => s.confidential (tenantOf x)) then dbgRefused true s
  else if parity then
    let l := 4 * (r / 2048) + r % 4
    dbgAnswer 5 (BitVec.ofNat 32 (Config.freeNat s.free)) ((parityError n (s.fld (R.SPD_BANK_MAP n l) F.SPD_BANK_MAP_PHYS) s).drew 1)
  else
    dbgAnswer (if s.rowTag n r = 0 then 0 else 3)
      (BitVec.ofNat 32 (ofLeBytes (Memory.readList s.spad (rowAddr n r + 4 * bitsOf addr 6 0) 4))) s

/-- A read operation of DBG_ACCESS: SPACE 0 registers, 1 DA, 2 scratchpad; the reserved space is refused. -/
def dbgRead (space addr : Nat) (o : Option SectorRead) (parity : Bool) (s0 : State) : State :=
  let s := s0.count Pg.tstDbg 0 1
  match space with
  | 0 => dbgAwake s (dbgRegRead (addr / 4 * 4))
  | 1 => dbgAwake s (dbgDaRead (addr / 4 * 4) o)
  | 2 => dbgSpdRead addr parity s
  | _ => dbgRefused false s

/-- A write operation of DBG_ACCESS: the scratchpad is read-only. -/
def dbgWrite (space addr : Nat) (v : Word) (o : Option SectorRead) (s0 : State) : State :=
  let s := s0.count Pg.tstDbg 1 1
  match space with
  | 0 => dbgAwake s (dbgRegWrite (addr / 4 * 4) v)
  | 1 => dbgAwake s (dbgDaWrite (addr / 4 * 4) v o)
  | _ => dbgRefused false s

/-! ### The sideband -/

/-- A dynamic address is assigned, by SETDASA or ENTDAA, to a target that has none. -/
def sbAssign (addr : Nat) (s : State) : State :=
  if s.pins.sbAddr.isSome then s else s.modPins (fun p => { p with sbAddr := some addr })

/-- Whether the sideband answers at BAR0 offset `a` at all: before the boot chain has completed SEC page 0 only (R441), after
a thermal trip MGT page 2 and the PWR window only. -/
def State.sbAnswers (s : State) (a : Nat) : Bool :=
  if s.tripped then a / 4096 == Pg.mgtTel / 4096 || (decide (Pg.pwr ≤ a) && decide (a < 0x20000))
  else s.booted || a / 4096 == Pg.secBoot / 4096

/-- Whether an access of the sideband meets no register, and is NACKed (R416). -/
def State.sbUnmapped (s : State) (a : Nat) (write : Bool) : Bool :=
  match s.gate 20 a write with
  | .unmapped => true
  | _ => false

/-- A NACK, which is a partner's violation (R416, R417). -/
def sbNack (s : State) : State := logPartner Pg.mgt0 Err.unmapped LogKind.sideband 0 (s.count Pg.mgtTel 3 1)

/-- `n` words read from the pointer on; the first that meets no register ends the transfer. -/
def sbReadWords : Nat → State → State
  | 0, s => s
  | n + 1, s =>
    let a := s.pins.sbPtr
    let next (w : Word) (t : State) : State := t.modPins (fun p => { p with sbPtr := (a + 4) % 2 ^ 32, sbData := p.sbData ++ [w] })
    if !s.sbAnswers a then sbReadWords n (next 0 s)
    else if s.sbUnmapped a false then sbNack (busRead 20 a s)
    else
      let t := busRead 20 a s
      sbReadWords n (next t.rdata t)

/-- Words written from the pointer on. -/
def sbWriteWords : List Word → State → State
  | [], s => s
  | v :: vs, s =>
    let a := s.pins.sbPtr
    let next (t : State) : State := t.modPins (fun p => { p with sbPtr := (a + 4) % 2 ^ 32 })
    if !s.sbAnswers a then sbWriteWords vs (next s)
    else if s.sbUnmapped a true then sbNack (busWrite 20 a 0xFFFFFFFF#32 v s)
    else sbWriteWords vs (next (busWrite 20 a 0xFFFFFFFF#32 v s))

/-- A private transfer that finds the control complex asleep wakes it and is made when it is presented again (log entry
10); after a trip, and before the boot chain has completed, nothing is woken. -/
def sbAwake (s : State) (f : State → State) : State :=
  if s.booted ∧ !s.tripped ∧ !s.domOn 29 then wakeDom 29 false s else f s

/-- The pointer set. -/
def sbPointer (a : Nat) (s : State) : State := s.modPins (fun p => { p with sbPtr := a % 2 ^ 32 })

/-- A private read of `n` words. -/
def sbRead (n : Nat) (s : State) : State :=
  sbAwake s (fun s => sbReadWords n ((s.count Pg.mgtTel 1 1).modPins (fun p => { p with sbData := [] })))

/-- A private write of an address and words. -/
def sbWrite (a : Nat) (vs : List Word) (s : State) : State :=
  sbAwake s (fun s => sbWriteWords vs (sbPointer a (s.count Pg.mgtTel 2 1)))

end Sys2Proof.Machine
end

