-- ==== Sys2Proof/Machine/CmdArray.lean ====
section
/-! DEFINITION. Machine/CmdArray.lean: the meanings of the operations of the array and the vector pipeline, and what
follows them (03_gale_array.md, 04_number_formats.md, 06_window_operators.md, 07_squall_attention.md). Each is one
definition over the operations of the modules before it. -/

namespace Sys2Proof.Machine

/-- GEMM (R77). -/
def execGemm (n : Fin 18) (cfgBad : Bool) (s : State) : Out :=
  .next (issueKind n .gemm cfgBad s)

/-- CONV2D (R157). -/
def execConv2d (n : Fin 18) (cfgBad : Bool) (s : State) : Out :=
  .next (issueKind n .conv2d cfgBad s)

/-- FFTCONV (R161). -/
def execFftconv (n : Fin 18) (cfgBad : Bool) (s : State) : Out :=
  .next (issueKind n .fftconv cfgBad s)

/-- POOL (R166). -/
def execPool (n : Fin 18) (cfgBad : Bool) (s : State) : Out :=
  .next (issueKind n .pool cfgBad s)

/-- BOXCROP (R169). -/
def execBoxcrop (n : Fin 18) (cfgBad : Bool) (s : State) : Out :=
  .next (issueKind n .boxcrop cfgBad s)

/-- ELTWISE (R76). -/
def execEltwise (n : Fin 18) (cfgBad : Bool) (s : State) : Out :=
  .next (issueKind n .eltwise cfgBad s)

/-- SQUALL_FORWARD (R183). -/
def execSquallForward (n : Fin 18) (cfgBad : Bool) (s : State) : Out :=
  .next (issueKind n .squallForward cfgBad s)

/-- SQUALL_MERGE (R186). -/
def execSquallMerge (n : Fin 18) (cfgBad : Bool) (s : State) : Out :=
  .next (issueKind n .squallMerge cfgBad s)

/-- SQUALL_BACKWARD (R188). -/
def execSquallBackward (n : Fin 18) (cfgBad : Bool) (s : State) : Out :=
  .next (issueKind n .squallBackward cfgBad s)

/-- PAGE_FETCH (R178). -/
def execPageFetch (n : Fin 18) (s : State) : Out :=
  .next (issuePage n 3 s)

/-- PAGE_STORE (R178). -/
def execPageStore (n : Fin 18) (s : State) : Out :=
  .next (issuePage n 4 s)

/-- VERDICT (R83). -/
def execVerdict (n : Fin 18) (res : List CheckResult) (s : State) : Out :=
  .next (Sys2Proof.Machine.verdict n res s)

/-- SPARE_SWAP_DONE (R89). -/
def execSpareSwapDone (n : Fin 18) (s : State) : Out :=
  .next (Sys2Proof.Machine.spareSwapDone n s)

/-- WEAR_SWAP (R90). -/
def execWearSwap (n : Fin 18) (s : State) : Out :=
  .next (Sys2Proof.Machine.wearSwap n s)

/-- ARR_WDOG_TIMEOUT (R93). -/
def execArrWdogTimeout (n : Fin 18) (s : State) : Out :=
  .next (arrWatchdog n s)

/-- ARR_FAULT_INJ (R528). -/
def execArrFaultInj (iid : Fin 24) (n : Fin 18) (val : Word) (s : State) : Out :=
  .next (wordWrite iid (R.ARR_FAULT_INJ n) val s)

/-- ARR_STAT_CLR (R118). -/
def execArrStatClr (iid : Fin 24) (n : Fin 18) (hi : Bool) (val : Word) (s : State) : Out :=
  .next (wordWrite iid (if hi then R.ARR_STAT_CLR_HI n else R.ARR_STAT_CLR_LO n) val s)

end Sys2Proof.Machine
end

