-- ==== Sys2Proof/Machine/CmdBreeze.lean ====
section
/-! DEFINITION. Machine/CmdBreeze.lean: the meanings of the Breeze tier (10_breeze_tier.md). Each is one definition
over the operations of the modules before it. -/

namespace Sys2Proof.Machine

/-- SAMPLE_WRITE (R242). -/
def execSampleWrite (vals : List (BitVec 16)) (sat : BitVec 32) (s : State) : Out :=
  .next (Sys2Proof.Machine.sampleWrite vals sat s)

/-- TDM_FRAME_SYNC (R239). -/
def execTdmFrameSync (p : Fin 4) (ok : Bool) (s : State) : Out :=
  .next (tdmSync p ok s)

/-- MUTE_N_FALL (R244). -/
def execMuteNFall (s : State) : Out :=
  .next (muteFall s)

/-- MUTE_N_RISE (R246). -/
def execMuteNRise (s : State) : Out :=
  .next (muteRise s)

/-- RELEASE_QUALIFIED (R245). -/
def execReleaseQualified (s : State) : Out :=
  .next (muteRelease s)

/-- SETTLE_END (R245). -/
def execSettleEnd (s : State) : Out :=
  .next (Sys2Proof.Machine.settleEnd s)

/-- HOP_END (R256). -/
def execHopEnd (s : State) : Out :=
  .next (Sys2Proof.Machine.hopEnd s)

/-- BREEZE_RUN_END (R257). -/
def execBreezeRunEnd (conf : BitVec 16) (startOff : Nat) (endOff : Nat) (fails : Fin 3) (parity : Nat) (s : State) : Out :=
  .next (runEnd conf.toNat startOff endOff fails parity s)

/-- GUST_POST (R261). -/
def execGustPost (s : State) : Out :=
  .next (Sys2Proof.Machine.gustPost s)

/-- WQ_RD_WRITE (R267). -/
def execWqRdWrite (iid : Fin 24) (val : Word) (s : State) : Out :=
  .next (wordWrite iid R.BRZ_WQ_PTR val s)

/-- AG_ACTIVATE (R251). -/
def execAgActivate (iid : Fin 24) (g : Fin 16) (s : State) : Out :=
  .next (wordWrite iid (R.BRZ_AG_CMD g) 1#32 s)

/-- AG_STOP (R251). -/
def execAgStop (iid : Fin 24) (g : Fin 16) (s : State) : Out :=
  .next (wordWrite iid (R.BRZ_AG_CMD g) 2#32 s)

/-- AG_SEEK (R251). -/
def execAgSeek (iid : Fin 24) (g : Fin 16) (s : State) : Out :=
  .next (wordWrite iid (R.BRZ_AG_CMD g) 3#32 s)

/-- AUDIO_BLOCK_DELIVER (R252). -/
def execAudioBlockDeliver (g : Fin 16) (s : State) : Out :=
  .next (deliverBlock g s)

/-- BRZ_SPM_DATA (R268). -/
def execBrzSpmData (iid : Fin 24) (w : Option Word) (s : State) : Out :=
  .next (match w with
    | some v => wordWrite iid R.BRZ_SPM_DATA v s
    | none => busRead iid R.BRZ_SPM_DATA s)

/-- BRZ_IDX_LO_READ (R248). -/
def execBrzIdxLoRead (iid : Fin 24) (s : State) : Out :=
  .next (busRead iid R.BRZ_IDX_LO s)

/-- AG_CUR_LO_READ (R269). -/
def execAgCurLoRead (iid : Fin 24) (g : Fin 16) (s : State) : Out :=
  .next (busRead iid (R.BRZ_AG_CUR_LO g) s)

end Sys2Proof.Machine
end

