-- ==== Sys2Proof/Machine/CmdCamera.lean ====
section
/-! DEFINITION. Machine/CmdCamera.lean: the meanings of cameras and the image pipeline (11_camera_isp.md). Each is
one definition over the operations of the modules before it. -/

namespace Sys2Proof.Machine

/-- FRAME_START (R275). -/
def execFrameStart (p : Fin 8) (vc : Fin 4) (num : BitVec 16) (hdr : CsiHdr) (s : State) : Out :=
  .next (Sys2Proof.Machine.frameStart p vc num.toNat hdr s)

/-- LINE_RECEIVE (R274). -/
def execLineReceive (p : Fin 8) (vc : Fin 4) (dt : Fin 64) (hdr : CsiHdr) (crcOk : Bool) (px : List Nat) (sclk : Nat) (s : State) : Out :=
  .next (Sys2Proof.Machine.lineReceive p vc dt hdr crcOk px sclk s)

/-- FRAME_END (R273). -/
def execFrameEnd (p : Fin 8) (vc : Fin 4) (hdr : CsiHdr) (s : State) : Out :=
  .next (Sys2Proof.Machine.frameEnd p vc hdr s)

/-- STRIPE_GRANT (R278). -/
def execStripeGrant (s : State) : Out :=
  .next (Sys2Proof.Machine.stripeGrant s)

/-- STRIPE_END (R285). -/
def execStripeEnd (s : State) : Out :=
  .next (Sys2Proof.Machine.stripeEnd s)

/-- FRAME_DONE (R287). -/
def execFrameDone (cam : Fin 16) (s : State) : Out :=
  .next (Sys2Proof.Machine.frameDone cam s)

/-- CC_POST (R290). -/
def execCcPost (iid : Fin 24) (b : Fin 4) (val : Word) (s : State) : Out :=
  .next (wordWrite iid (R.ISP_CC_POST b) val s)

/-- CC_PACKET_DONE (R292). -/
def execCcPacketDone (b : Fin 4) (writes : Nat) (retries : Nat) (ok : Bool) (s : State) : Out :=
  .next (Sys2Proof.Machine.ccPacketDone b writes retries ok s)

/-- CC_BUS_TIMEOUT (R293). -/
def execCcBusTimeout (b : Fin 4) (s : State) : Out :=
  .next (Sys2Proof.Machine.ccBusTimeout b s)

/-- CC_MEM_DATA (R299). -/
def execCcMemData (iid : Fin 24) (b : Fin 4) (w : Option Word) (s : State) : Out :=
  .next (match w with
    | some v => wordWrite iid (R.ISP_CC_MEM_DATA b) v s
    | none => busRead iid (R.ISP_CC_MEM_DATA b) s)

/-- LUT_DATA (R282). -/
def execLutData (iid : Fin 24) (w : Option Word) (s : State) : Out :=
  .next (match w with
    | some v => wordWrite iid R.ISP_LUT_DATA v s
    | none => busRead iid R.ISP_LUT_DATA s)

/-- ISP_OUT_REL (R286). -/
def execIspOutRel (iid : Fin 24) (cam : Fin 16) (o : Fin 3) (val : Word) (s : State) : Out :=
  .next (wordWrite iid (R.ISP_OUT_REL cam o) val s)

end Sys2Proof.Machine
end

