-- ==== Sys2Proof/Machine/CmdControl.lean ====
section
/-! DEFINITION. Machine/CmdControl.lean: the meanings of the control complex: contexts, jobs, updates, crashes
(14_control_scheduling.md). Each is one definition over the operations of the modules before it. -/

namespace Sys2Proof.Machine

/-- JOB (R355). -/
def execJob (id : Nat) (aclk : Nat) (s : State) : Out :=
  .next (jobEntry id aclk s)

/-- STREAM_WRITE (R358). -/
def execStreamWrite (id : Nat) (s : State) : Out :=
  .next (Sys2Proof.Machine.streamWrite id s)

/-- STREAM_OP (R358). -/
def execStreamOp (id : Nat) (s : State) : Out :=
  .next (Sys2Proof.Machine.streamOp id s)

/-- REGION (R358). -/
def execRegion (id : Nat) (s : State) : Out :=
  .next (regionEntry id s)

/-- MODEL (R358). -/
def execModel (id : Nat) (s : State) : Out :=
  .next (modelEntry id s)

/-- SHARE (R358). -/
def execShare (id : Nat) (s : State) : Out :=
  .next (shareEntry id s)

/-- ACCOUNT (R358). -/
def execAccount (id : Nat) (s : State) : Out :=
  .next (accountEntry id s)

/-- CREATE (R351). -/
def execCreate (iid : Fin 24) (t : Fin 16) (slot : Fin 8) (s : State) : Out :=
  .next (wordWrite iid R.CTL_MB_CMD (BitVec.ofNat 32 (1 + t.val * 4 + slot.val * 64)) s)

/-- DESTROY (R371). -/
def execDestroy (iid : Fin 24) (t : Fin 16) (slot : Fin 8) (s : State) : Out :=
  .next (wordWrite iid R.CTL_MB_CMD (BitVec.ofNat 32 (2 + t.val * 4 + slot.val * 64)) s)

/-- SLICE_END (R360). -/
def execSliceEnd (id : Nat) (aclk : Nat) (s : State) : Out :=
  .next (Sys2Proof.Machine.sliceEnd id aclk s)

/-- CONTEXT_SWITCH (R362). -/
def execContextSwitch (n : Fin 18) (aclk : Nat) (s : State) : Out :=
  .next (Sys2Proof.Machine.contextSwitch n aclk s)

/-- JOB_DONE (R357). -/
def execJobDone (id : Nat) (aclk : Nat) (s : State) : Out :=
  .next (Sys2Proof.Machine.jobDone id aclk s)

/-- JOB_LIMIT (R357). -/
def execJobLimit (id : Nat) (aclk : Nat) (s : State) : Out :=
  .next (Sys2Proof.Machine.jobLimit id aclk s)

/-- ROTATION_EXCHANGE (R364). -/
def execRotationExchange (x : Fin 128) (a : Fin 18) (b : Fin 18) (aclk : Nat) (s : State) : Out :=
  .next (Sys2Proof.Machine.rotationExchange x a b aclk s)

/-- CTL_XCOPY (R371). -/
def execCtlXcopy (iid : Fin 24) (val : Word) (s : State) : Out :=
  .next (wordWrite iid R.CTL_XCOPY val s)

/-- TEARDOWN (R365). -/
def execTeardown (x : Fin 128) (aclk : Nat) (s : State) : Out :=
  .next (Sys2Proof.Machine.teardown x aclk s)

/-- STAGE (R366). -/
def execStage (iid : Fin 24) (keyOk : Bool) (sigOk : Bool) (s : State) : Out :=
  .next (busWriteWith ⟨keyOk, sigOk, false⟩ iid R.CTL_UPD_CMD 0xFFFFFFFF#32 1#32 s)

/-- ACTIVATE (R367). -/
def execActivate (iid : Fin 24) (s : State) : Out :=
  .next (busWriteWith ⟨false, false, false⟩ iid R.CTL_UPD_CMD 0xFFFFFFFF#32 2#32 s)

/-- CANCEL (R373). -/
def execCancel (iid : Fin 24) (s : State) : Out :=
  .next (busWriteWith ⟨false, false, false⟩ iid R.CTL_UPD_CMD 0xFFFFFFFF#32 3#32 s)

/-- UPD_HANDOVER (R367). -/
def execUpdHandover (s : State) : Out :=
  .next (Sys2Proof.Machine.updHandover s)

/-- UPD_WAIT_EXPIRY (R367). -/
def execUpdWaitExpiry (s : State) : Out :=
  .next (Sys2Proof.Machine.updWaitExpiry s)

/-- CC_WATCHDOG (R350). -/
def execCcWatchdog (k : Fin 4) (s : State) : Out :=
  .next (crash 3 k s)

/-- SRAM_DOUBLE_BIT (R350). -/
def execSramDoubleBit (k : Fin 4) (s : State) : Out :=
  .next (crash 1 k s)

/-- KERNEL_ASSERTION (R368). -/
def execKernelAssertion (k : Fin 4) (s : State) : Out :=
  .next (crash 2 k s)

/-- SRAM_SINGLE_BIT (R350). -/
def execSramSingleBit (k : Fin 4) (s : State) : Out :=
  .next (sramSingle k s)

/-- CONTROL_CORE_FAIL (R412). -/
def execControlCoreFail (k : Fin 4) (bist : Bool) (s : State) : Out :=
  .next (ccoreFail k bist s)

/-- DUMP_AON_READ (R373). -/
def execDumpAonRead (iid : Fin 24) (s : State) : Out :=
  .next (busRead iid R.CTL_DUMP_AON_DATA s)

end Sys2Proof.Machine
end

