-- ==== Sys2Proof/Machine/CmdFabric.lean ====
section
/-! DEFINITION. Machine/CmdFabric.lean: the meanings of the fabric and the die-to-die link (01_architecture.md,
16_reliability.md R403, 19_test_debug.md R497). Each is one definition over the operations of the modules before it.
-/

namespace Sys2Proof.Machine

/-- FAB_WALK_GO (R31). -/
def execFabWalkGo (iid : Fin 24) (val : Word) (s : State) : Out :=
  .next (wordWrite iid R.FAB_WALK (wordSet val F.FAB_WALK_GO 1) s)

/-- WALK_TEST_DONE (R497). -/
def execWalkTestDone (pass : Bool) (s : State) : Out :=
  .next (walkDone pass s)

/-- FAB_CRC_INJ (R31). -/
def execFabCrcInj (iid : Fin 24) (val : Word) (s : State) : Out :=
  .next (wordWrite iid R.FAB_CRC_INJ (wordSet val F.FAB_CRC_INJ_FIRE 1) s)

/-- FABRIC_BEAT (R403). -/
def execFabricBeat (link : Fin 31) (dir : Fin 2) (bad : Nat) (row : Option (Fin 18 × Fin 65536)) (s : State) : Out :=
  .next (Sys2Proof.Machine.fabricBeat link dir bad (row.map (fun q => (q.1.val, q.2.val))) s)

/-- D2D_RETRAIN (R32). -/
def execD2dRetrain (iid : Fin 24) (s : State) : Out :=
  .next (wordWrite iid R.FAB_D2D_CTRL 1#32 s)

/-- D2D_RETRAIN_DONE (R29). -/
def execD2dRetrainDone (s : State) : Out :=
  .next (d2dDone s)

/-- D2D_LANE_FAIL (R29). -/
def execD2dLaneFail (training : Bool) (s : State) : Out :=
  .next (Sys2Proof.Machine.d2dLaneFail training s)

end Sys2Proof.Machine
end

