-- ==== Sys2Proof/Machine/CmdHost.lean ====
section
/-! DEFINITION. Machine/CmdHost.lean: the meanings of the host interface (13_host_interface.md, 17_security.md R457,
20_package_pins.md R514). Each is one definition over the operations of the modules before it. -/

namespace Sys2Proof.Machine

/-- SQ_DOORBELL (R330). -/
def execSqDoorbell (f : Fin 16) (slot : Fin 8) (q : Fin 4) (val : Word) (s : State) : Out :=
  .next (hostTlp (Sys2Proof.Machine.sqDoorbell f slot q val) s)

/-- CQ_DOORBELL (R330). -/
def execCqDoorbell (f : Fin 16) (slot : Fin 8) (val : Word) (s : State) : Out :=
  .next (hostTlp (Sys2Proof.Machine.cqDoorbell f slot val) s)

/-- MSI_X_TABLE_WRITE (R331). -/
def execMsiXTableWrite (f : Fin 16) (w : Fin 4096) (val : Word) (s : State) : Out :=
  .next (hostTlp (msixWrite f w val) s)

/-- SQ_FETCH (R334). -/
def execSqFetch (cc : Fin 4) (s : State) : Out :=
  .next (Sys2Proof.Machine.sqFetch cc s)

/-- DMA (R333). -/
def execDmaEntry (id : Nat) (s : State) : Out :=
  .next (Sys2Proof.Machine.dmaEntry id s)

/-- FENCE (R333). -/
def execFence (id : Nat) (s : State) : Out :=
  .next (Sys2Proof.Machine.fence id s)

/-- COMPLETION_WRITE (R336). -/
def execCompletionWrite (x : Fin 128) (q : Fin 4) (s : State) : Out :=
  .next (Sys2Proof.Machine.completionWrite x q s)

/-- HEARTBEAT_SAMPLE (R339). -/
def execHeartbeatSample (f : Fin 16) (s : State) : Out :=
  .next (Sys2Proof.Machine.heartbeatSample f s)

/-- RESUME (R341). -/
def execResume (iid : Fin 24) (f : Fin 16) (s : State) : Out :=
  .next (wordWrite iid (R.HIF_FN_CTRL f) 1#32 s)

/-- BAR2_READ (R327). -/
def execBar2Read (f : Fin 16) (off : Nat) (len : Nat) (fails : Bool) (s : State) : Out :=
  .next (hostTlp (Sys2Proof.Machine.bar2Read f off len fails) s)

/-- BAR2_WRITE (R327). -/
def execBar2Write (f : Fin 16) (off : Nat) (bytes : List Byte) (ep : Bool) (fails : Bool) (s : State) : Out :=
  .next (hostTlp (Sys2Proof.Machine.bar2Write f off bytes ep fails) s)

/-- FUNCTION_LEVEL_RESET (R343). -/
def execFunctionLevelReset (f : Fin 16) (s : State) : Out :=
  .next (hostTlp (Sys2Proof.Machine.functionLevelReset f) s)

/-- VF_ENABLE (R342). -/
def execVfEnable (f : Fin 16) (on : Bool) (s : State) : Out :=
  .next (hostTlp (Sys2Proof.Machine.vfEnable f on) s)

/-- PE1_PERST_N (R514). -/
def execPe1PerstN (s : State) : Out :=
  .next (pe1Fall s)

/-- SCRUB_KEY_ERASE (R457). -/
def execScrubKeyErase (f : Fin 16) (s : State) : Out :=
  .next (scrubErase f s)

/-- PCIE_LINK_ERROR (R345). -/
def execPcieLinkError (kind : PcieErr) (s : State) : Out :=
  .next (pcieError kind s)

end Sys2Proof.Machine
end

