-- ==== Sys2Proof/Machine/CmdPloem.lean ====
section
/-! DEFINITION. Machine/CmdPloem.lean: the meanings of Ploem links and collectives (15_ploem_links.md). Each is one
definition over the operations of the modules before it. -/

namespace Sys2Proof.Machine

/-- ALL_REDUCE (R387). -/
def execAllReduce (n : Fin 18) (s : State) : Out :=
  .next (issueColl n 0 s)

/-- REDUCE_SCATTER (R387). -/
def execReduceScatter (n : Fin 18) (s : State) : Out :=
  .next (issueColl n 1 s)

/-- ALL_GATHER (R387). -/
def execAllGather (n : Fin 18) (s : State) : Out :=
  .next (issueColl n 2 s)

/-- BROADCAST (R387). -/
def execBroadcast (n : Fin 18) (s : State) : Out :=
  .next (issueColl n 3 s)

/-- FLIT_RECEIVE (R379). -/
def execFlitReceive (p : Fin 6) (flit : Flit) (crcOk : Bool) (fecOk : Bool) (corr : Nat) (testBad : Bool) (s : State) : Out :=
  .next (Sys2Proof.Machine.flitReceive p flit crcOk fecOk corr testBad s)

/-- REPLAY_TIMEOUT (R379). -/
def execReplayTimeout (p : Fin 6) (s : State) : Out :=
  .next (Sys2Proof.Machine.replayTimeout p s)

/-- LANE_FAIL (R377). -/
def execLaneFail (p : Fin 6) (lane : Fin 2) (s : State) : Out :=
  .next (Sys2Proof.Machine.laneFail p lane s)

/-- PORT_TRAINING_DONE (R382). -/
def execPortTrainingDone (p : Fin 6) (l0 : Bool) (l1 : Bool) (partner : LinkInfo) (s : State) : Out :=
  .next (trainingDone p l0 l1 partner s)

/-- COLLECTIVE_START (R386). -/
def execCollectiveStart (n : Fin 18) (fails : Nat) (par : Option (Fin 100 × Bool)) (s : State) : Out :=
  .next (collStart n fails (par.map (fun q => (q.1.val, q.2))) s)

/-- CHUNK_RECEIVE (R390). -/
def execChunkReceive (p : Fin 6) (tenant : Fin 16) (ctag : BitVec 12) (chunk : Nat) (row : Nat) (add : Bool) (last : Bool) (onward : Bool) (sumBad : Bool) (s : State) : Out :=
  .next (Sys2Proof.Machine.chunkReceive p tenant ctag.toNat chunk row add last onward sumBad s)

/-- COLLECTIVE_COMPLETE (R394). -/
def execCollectiveComplete (n : Fin 18) (fails : Nat) (s : State) : Out :=
  .next (collComplete n fails s)

/-- COLL_WAIT_TIMEOUT (R392). -/
def execCollWaitTimeout (x : Fin 128) (s : State) : Out :=
  .next (collTimeout x s)

end Sys2Proof.Machine
end

