-- ==== Sys2Proof/Machine/CmdPower.lean ====
section
/-! DEFINITION. Machine/CmdPower.lean: the meanings of resets, clocks and power domains (18_clocks_power.md,
20_package_pins.md R517). Each is one definition over the operations of the modules before it. -/

namespace Sys2Proof.Machine

/-- COLD_RESET (R485). -/
def execColdReset (out : BootOutcome) (s : State) : Out :=
  .next (Sys2Proof.Machine.coldReset out s)

/-- WARM_RESET (R487). -/
def execWarmReset (s : State) : Out :=
  .next (Sys2Proof.Machine.warmReset s)

/-- PERST_N_RISE (R487). -/
def execPerstNRise (out : BootOutcome) (s : State) : Out :=
  .next (perstRise out s)

/-- RAIL_UNDERVOLTAGE (R517). -/
def execRailUndervoltage (k : Fin 11) (s : State) : Out :=
  .next (railLow k s)

/-- THERMAL_SAMPLE (R467). -/
def execThermalSample (temps : List (Option (BitVec 8))) (s : State) : Out :=
  .next (Sys2Proof.Machine.thermalSample temps s)

/-- PLL_UNLOCK (R469). -/
def execPllUnlock (s : State) : Out :=
  .next (Sys2Proof.Machine.pllUnlock s)

/-- PLL_RELOCK (R469). -/
def execPllRelock (s : State) : Out :=
  .next (Sys2Proof.Machine.pllRelock s)

/-- DOM_MODE_OFF (R475). -/
def execDomModeOff (iid : Fin 24) (d : Fin 31) (s : State) : Out :=
  .next (wordWrite iid (R.PWR_DOM_CTRL d) 0#32 s)

/-- DOM_MODE_RETENTION (R473). -/
def execDomModeRetention (iid : Fin 24) (d : Fin 31) (s : State) : Out :=
  .next (wordWrite iid (R.PWR_DOM_CTRL d) 1#32 s)

/-- DOM_MODE_ON (R473). -/
def execDomModeOn (iid : Fin 24) (d : Fin 31) (s : State) : Out :=
  .next (wordWrite iid (R.PWR_DOM_CTRL d) 2#32 s)

/-- DOMAIN_ENTRY (R473). -/
def execDomainEntry (d : Fin 31) (s : State) : Out :=
  .next (Sys2Proof.Machine.domainEntry d s)

/-- DOMAIN_ENTRY_DONE (R477). -/
def execDomainEntryDone (d : Fin 31) (s : State) : Out :=
  .next (Sys2Proof.Machine.domainEntryDone d s)

/-- DOMAIN_EXIT_DONE (R478). -/
def execDomainExitDone (d : Fin 31) (ok : Bool) (s : State) : Out :=
  .next (Sys2Proof.Machine.domainExitDone d ok s)

/-- TIMER_WAKE (R488). -/
def execTimerWake (s : State) : Out :=
  .next (Sys2Proof.Machine.timerWake s)

/-- CLK_DTIME_LO_READ (R471). -/
def execClkDtimeLoRead (iid : Fin 24) (s : State) : Out :=
  .next (busRead iid R.CLK_DTIME_LO s)

/-- POWER_ESTIMATE (R504). -/
def execPowerEstimate (s : State) : Out :=
  .next (Sys2Proof.Machine.powerEstimate s)

/-- TEL_POWER_READ (R504). -/
def execTelPowerRead (iid : Fin 24) (s : State) : Out :=
  .next (busRead iid R.MGT_TEL_POWER s)

end Sys2Proof.Machine
end

