-- ==== Sys2Proof/Machine/CmdRegs.lean ====
section
/-! DEFINITION. Machine/CmdRegs.lean: the meanings of register accesses, transactions, groups, error registers and
snapshots (02_register_pages.md). Each is one definition over the operations of the modules before it. -/

namespace Sys2Proof.Machine

/-- REG_WRITE (R47). -/
def execRegWrite (iid : Fin 24) (addr : Nat) (be : BitVec 4) (val : Word) (s : State) : Out :=
  .next (busWrite iid addr (byteMask be) val s)

/-- REG_READ (R47). -/
def execRegRead (iid : Fin 24) (addr : Nat) (s : State) : Out :=
  .next (busRead iid addr s)

/-- BEGIN (R50). -/
def execTxnBegin (iid : Fin 24) (page : Fin 16384) (val : Word) (s : State) : Out :=
  .next (wordWrite iid (4096 * page.val + Hdr.txnCtrl) (wordSet val ⟨1, 0⟩ 1) s)

/-- COMMIT (R52). -/
def execTxnCommit (iid : Fin 24) (page : Fin 16384) (val : Word) (s : State) : Out :=
  .next (wordWrite iid (4096 * page.val + Hdr.txnCtrl) (wordSet val ⟨1, 0⟩ 2) s)

/-- ROLLBACK (R57). -/
def execTxnRollback (iid : Fin 24) (page : Fin 16384) (val : Word) (s : State) : Out :=
  .next (wordWrite iid (4096 * page.val + Hdr.txnCtrl) (wordSet val ⟨1, 0⟩ 3) s)

/-- COMMIT_APPLY (R55). -/
def execCommitApply (page : Fin 16384) (k : Fin 4) (s : State) : Out :=
  .next (Sys2Proof.Machine.commitApply page k s)

/-- FIRE (R60). -/
def execGroupFire (iid : Fin 24) (g : Fin 16) (val : Word) (s : State) : Out :=
  .next (wordWrite iid (R.MGT_TXG_CTRL g) (wordSet val ⟨1, 0⟩ 1) s)

/-- WITHDRAW (R60). -/
def execGroupWithdraw (iid : Fin 24) (g : Fin 16) (val : Word) (s : State) : Out :=
  .next (wordWrite iid (R.MGT_TXG_CTRL g) (wordSet val ⟨1, 0⟩ 2) s)

/-- GROUP_RELEASE (R60). -/
def execGroupRelease (g : Fin 16) (s : State) : Out :=
  .next (releaseGroup g s)

/-- ERR_STAT_CLEAR (R43). -/
def execErrStatClear (iid : Fin 24) (page : Fin 16384) (val : Word) (s : State) : Out :=
  .next (wordWrite iid (4096 * page.val + Hdr.errStat) val s)

/-- ERR_EN_WRITE (R42). -/
def execErrEnWrite (iid : Fin 24) (page : Fin 16384) (val : Word) (s : State) : Out :=
  .next (wordWrite iid (4096 * page.val + Hdr.errEn) val s)

/-- ERR_INJ (R42). -/
def execErrInj (iid : Fin 24) (page : Fin 16384) (val : Word) (s : State) : Out :=
  .next (wordWrite iid (4096 * page.val + Hdr.errInj) (wordSet val ⟨5, 5⟩ 1) s)

/-- SNAP_REQ (R63). -/
def execSnapReq (iid : Fin 24) (s : State) : Out :=
  .next (wordWrite iid R.MGT_SNAP 1#32 s)

/-- SNAPSHOT_TICK (R64). -/
def execSnapshotTick (s : State) : Out :=
  .next (if s.snap.next.isNone then s else takeSnapshot (lanesCount s))

end Sys2Proof.Machine
end

