-- ==== Sys2Proof/Machine/CmdRel.lean ====
section
/-! DEFINITION. Machine/CmdRel.lean: the meanings of reliability, the error log and the boot flash
(16_reliability.md). Each is one definition over the operations of the modules before it. -/

namespace Sys2Proof.Machine

/-- LANE_TEST (R405). -/
def execLaneTest (n : Fin 18) (fails : Bool) (s : State) : Out :=
  .next (Sys2Proof.Machine.laneTest n fails s)

/-- CORE_RETIRE (R411). -/
def execCoreRetire (n : Fin 18) (pass : Bool) (aclk : Nat) (s : State) : Out :=
  .next (Sys2Proof.Machine.coreRetire n pass aclk s)

/-- MAINTENANCE_DRAIN (R414). -/
def execMaintenanceDrain (n : Fin 18) (pass : Bool) (aclk : Nat) (s : State) : Out :=
  .next (maintDrain n pass aclk s)

/-- POLICY_CHANGE (R409). -/
def execPolicyChange (aclk : Nat) (s : State) : Out :=
  .next (Sys2Proof.Machine.policyChange aclk s)

/-- LOG_FLUSH (R418). -/
def execLogFlush (s : State) : Out :=
  .next (Sys2Proof.Machine.logFlush s)

/-- PARTNER_WINDOW_END (R417). -/
def execPartnerWindowEnd (k : Nat) (s : State) : Out :=
  .next (windowEnd k s)

/-- WEAR_SNAPSHOT (R422). -/
def execWearSnapshot (n : Fin 18) (s : State) : Out :=
  .next (Sys2Proof.Machine.wearSnapshot n s)

/-- PWR_FAIL_N_FALL (R423). -/
def execPwrFailNFall (s : State) : Out :=
  .next (pwrFailFall s)

/-- PWR_FAIL_N_RISE (R424). -/
def execPwrFailNRise (s : State) : Out :=
  .next (pwrFailRise s)

/-- REL_SVC_WRITE (R428). -/
def execRelSvcWrite (iid : Fin 24) (val : Word) (s : State) : Out :=
  .next (wordWrite iid R.REL_SVC val s)

/-- ERASE_DONE (R418). -/
def execEraseDone (s : State) : Out :=
  .next (Sys2Proof.Machine.eraseDone s)

/-- FLASH_PROGRAM_DONE (R418). -/
def execFlashProgramDone (log : Bool) (s : State) : Out :=
  .next (flashDone log s)

/-- FLASH_PROGRAM_TIMEOUT (R416). -/
def execFlashProgramTimeout (log : Bool) (s : State) : Out :=
  .next (flashTimeout log s)

end Sys2Proof.Machine
end

