-- ==== Sys2Proof/Machine/CmdSec.lean ====
section
/-! DEFINITION. Machine/CmdSec.lean: the meanings of records, identity, keys and confidential mode (17_security.md).
Each is one definition over the operations of the modules before it. -/

namespace Sys2Proof.Machine

/-- WRITE_CONFIG (R444). -/
def execWriteConfig (iid : Fin 24) (keyOk : Bool) (sigOk : Bool) (s : State) : Out :=
  .next (busWriteWith ⟨keyOk, sigOk, false⟩ iid R.SEC_REC_CMD 0xFFFFFFFF#32 1#32 s)

/-- WRITE_BOARD (R444). -/
def execWriteBoard (iid : Fin 24) (keyOk : Bool) (sigOk : Bool) (s : State) : Out :=
  .next (busWriteWith ⟨keyOk, sigOk, false⟩ iid R.SEC_REC_CMD 0xFFFFFFFF#32 2#32 s)

/-- AR_RAISE (R443). -/
def execArRaise (revoke : Fin 16) (s : State) : Out :=
  .next (Sys2Proof.Machine.arRaise revoke s)

/-- PROVISION (R445). -/
def execProvision (s : State) : Out :=
  .next (Sys2Proof.Machine.provision s)

/-- ATT_GO (R446). -/
def execAttGo (iid : Fin 24) (s : State) : Out :=
  .next (wordWrite iid R.SEC_ATT_CMD 1#32 s)

/-- ATT_SIGN_DONE (R446). -/
def execAttSignDone (s : State) : Out :=
  .next (attDone s)

/-- SEC_ATT_DATA_READ (R462). -/
def execSecAttDataRead (iid : Fin 24) (s : State) : Out :=
  .next (busRead iid R.SEC_ATT_DATA s)

/-- SEC_ID_DATA_READ (R460). -/
def execSecIdDataRead (iid : Fin 24) (s : State) : Out :=
  .next (busRead iid R.SEC_ID_DATA s)

/-- ROTATE_GO (R452). -/
def execRotateGo (iid : Fin 24) (t : Fin 16) (s : State) : Out :=
  .next (wordWrite iid R.SEC_ROT_CMD (BitVec.ofNat 32 (16 + t.val)) s)

/-- WALK_GRANULE (R453). -/
def execWalkGranule (late : Bool) (outs : List SectorRead) (s : State) : Out :=
  .next (Sys2Proof.Machine.walkGranule late outs s)

/-- ROTATION_RETIRE (R454). -/
def execRotationRetire (t : Fin 16) (s : State) : Out :=
  .next (Sys2Proof.Machine.rotationRetire t s)

/-- CONF_SET (R456). -/
def execConfSet (iid : Fin 24) (t : Fin 16) (s : State) : Out :=
  .next (wordWrite iid R.SEC_CONF_CMD (BitVec.ofNat 32 (16 + t.val)) s)

/-- CONF_CLEAR (R456). -/
def execConfClear (iid : Fin 24) (t : Fin 16) (s : State) : Out :=
  .next (wordWrite iid R.SEC_CONF_CMD (BitVec.ofNat 32 (32 + t.val)) s)

end Sys2Proof.Machine
end

