-- ==== Sys2Proof/Machine/CmdSeq.lean ====
section
/-! DEFINITION. Machine/CmdSeq.lean: the meanings of sequencer instructions and gang barriers (03_gale_array.md).
Each is one definition over the operations of the modules before it. -/

namespace Sys2Proof.Machine

/-- WAITSEM (R79). -/
def execWaitsem (n : Fin 18) (s : State) : Out :=
  .next (waitSem n s)

/-- WAITSEM_RELEASE (R79). -/
def execWaitsemRelease (n : Fin 18) (s : State) : Out :=
  .next (waitSemRelease n s)

/-- SIGNAL (R79). -/
def execSignal (n : Fin 18) (s : State) : Out :=
  .next (Sys2Proof.Machine.signal n s)

/-- WAITROWS (R79). -/
def execWaitrows (n : Fin 18) (s : State) : Out :=
  .next (waitRows n s)

/-- WAITROWS_RELEASE (R79). -/
def execWaitrowsRelease (n : Fin 18) (s : State) : Out :=
  .next (waitRowsRelease n s)

/-- WAITROOM (R79). -/
def execWaitroom (n : Fin 18) (s : State) : Out :=
  .next (waitRoom n s)

/-- WAITROOM_RELEASE (R79). -/
def execWaitroomRelease (n : Fin 18) (s : State) : Out :=
  .next (waitRoomRelease n s)

/-- LOOP (R79). -/
def execLoop (n : Fin 18) (s : State) : Out :=
  .next (seqLoop n s)

/-- BRANCH (R79). -/
def execBranch (n : Fin 18) (s : State) : Out :=
  .next (seqBranch n s)

/-- SWITCH (R91). -/
def execSwitch (n : Fin 18) (s : State) : Out :=
  .next (seqSwitch n s)

/-- DRAIN (R79). -/
def execDrain (n : Fin 18) (s : State) : Out :=
  .next (seqDrain n s)

/-- DRAIN_RELEASE (R79). -/
def execDrainRelease (n : Fin 18) (s : State) : Out :=
  .next (Sys2Proof.Machine.drainRelease n s)

/-- SEQ_WAIT (R473). -/
def execSeqWait (n : Fin 18) (s : State) : Out :=
  .next (seqLowPower n s)

/-- BARRIER (R74). -/
def execBarrier (n : Fin 18) (s : State) : Out :=
  .next (Sys2Proof.Machine.seqBarrier n s)

/-- BARRIER_RELEASE (R74). -/
def execBarrierRelease (n : Fin 18) (s : State) : Out :=
  .next (Sys2Proof.Machine.barrierRelease n s)

/-- ISSUE_BARRIER_RELEASE (R74). -/
def execIssueBarrierRelease (n : Fin 18) (cfgBad : Bool) (s : State) : Out :=
  .next (issueBarrier n cfgBad s)

/-- DONE (R79). -/
def execDone (n : Fin 18) (s : State) : Out :=
  .next (seqDone n s)

/-- DONE_COMPLETE (R79). -/
def execDoneComplete (n : Fin 18) (s : State) : Out :=
  .next (Sys2Proof.Machine.doneComplete n s)

/-- BARRIER_TIMEOUT (R75). -/
def execBarrierTimeout (n : Fin 18) (s : State) : Out :=
  .next (Sys2Proof.Machine.barrierTimeout n s)

/-- SEQ_START (R96). -/
def execSeqStart (iid : Fin 24) (n : Fin 18) (val : Word) (s : State) : Out :=
  .next (wordWrite iid (R.SEQ_CTRL n) (wordSet val F.SEQ_CTRL_START 1) s)

/-- DRAIN_REQ (R96). -/
def execDrainReq (iid : Fin 24) (n : Fin 18) (on : Bool) (s : State) : Out :=
  .next (wordWrite iid (R.SEQ_CTRL n) (if on then 2#32 else 0#32) s)

end Sys2Proof.Machine
end

