-- ==== Sys2Proof/Machine/CmdSpad.lean ====
section
/-! DEFINITION. Machine/CmdSpad.lean: the meanings of core DMA and scratchpad banks (05_scratchpads.md). Each is one
definition over the operations of the modules before it. -/

namespace Sys2Proof.Machine

/-- DMA_DA_TO_REGION (R139). -/
def execDmaDaToRegion (n : Fin 18) (s : State) : Out :=
  .next (issueDma n 0 s)

/-- DMA_REGION_TO_DA (R139). -/
def execDmaRegionToDa (n : Fin 18) (s : State) : Out :=
  .next (issueDma n 1 s)

/-- DMA_REGION_TO_REGION (R139). -/
def execDmaRegionToRegion (n : Fin 18) (s : State) : Out :=
  .next (issueDma n 2 s)

/-- DMA_DA_TO_IMEM (R143). -/
def execDmaDaToImem (n : Fin 18) (s : State) : Out :=
  .next (issueDma n 3 s)

/-- DMA_REGION_TO_CORE (R143). -/
def execDmaRegionToCore (n : Fin 18) (s : State) : Out :=
  .next (issueDma n 4 s)

/-- DMA_FILL (R143). -/
def execDmaFill (n : Fin 18) (s : State) : Out :=
  .next (issueDma n 5 s)

/-- CHANNEL_START (R140). -/
def execChannelStart (n : Fin 18) (ch : Fin 4) (par : Option (Fin 100 × Bool)) (cfgBad : Bool) (s : State) : Out :=
  .next (pumpSwaps (Sys2Proof.Machine.channelStart n ch (par.map (fun q => (q.1.val, q.2))) cfgBad (pumpSwaps s)))

/-- DMA_ROOM_AVAILABLE (R142). -/
def execDmaRoomAvailable (n : Fin 18) (ch : Fin 4) (s : State) : Out :=
  .next (dmaRoom n ch s)

/-- DMA_WAIT_TIMEOUT (R142). -/
def execDmaWaitTimeout (n : Fin 18) (ch : Fin 4) (s : State) : Out :=
  .next (Sys2Proof.Machine.dmaWaitTimeout n ch s)

/-- SPD_DMA_HOLD (R149). -/
def execSpdDmaHold (iid : Fin 24) (n : Fin 18) (ch : Fin 4) (val : Word) (s : State) : Out :=
  .next (wordWrite iid (R.SPD_DMA_CTRL n ch) val s)

/-- SPD_DMA_SUBMIT (R149). -/
def execSpdDmaSubmit (iid : Fin 24) (n : Fin 18) (ch : Fin 4) (val : Word) (s : State) : Out :=
  .next (wordWrite iid (R.SPD_DMA_SUBMIT n ch 15) val s)

/-- SPD_RELEASE (R151). -/
def execSpdRelease (iid : Fin 24) (n : Fin 18) (val : Word) (s : State) : Out :=
  .next (wordWrite iid (R.SPD_RELEASE n) val s)

/-- SPD_BANK_SWAP (R147). -/
def execSpdBankSwap (iid : Fin 24) (n : Fin 18) (val : Word) (s : State) : Out :=
  .next (wordWrite iid (R.SPD_BANK_SWAP n) (wordSet val F.SPD_BANK_SWAP_GO 1) s)

/-- BANK_SWAP (R128). -/
def execBankSwap (n : Fin 18) (s : State) : Out :=
  .next (Sys2Proof.Machine.bankSwap n s)

/-- BANK_SWAP_DONE (R128). -/
def execBankSwapDone (n : Fin 18) (badLines : List (Fin 512)) (s : State) : Out :=
  .next (Sys2Proof.Machine.bankSwapDone n (badLines.map (·.val)) s)

end Sys2Proof.Machine
end

