-- ==== Sys2Proof/Machine/CmdStream.lean ====
section
/-! DEFINITION. Machine/CmdStream.lean: the meanings of sequence streams (08_sequence_streams.md). Each is one
definition over the operations of the modules before it. -/

namespace Sys2Proof.Machine

/-- SCAN (R202). -/
def execScan (n : Fin 18) (s : State) : Out :=
  .next (postScan n s)

/-- SWAP_IN_DONE (R203). -/
def execSwapInDone (e : Fin 4096) (s : State) : Out :=
  .next (Sys2Proof.Machine.swapInDone e s)

/-- SCAN_CHUNK_START (R202). -/
def execScanChunkStart (n : Fin 18) (cfgBad : Bool) (s : State) : Out :=
  .next (scanStart n cfgBad s)

/-- SCAN_WAIT_TIMEOUT (R203). -/
def execScanWaitTimeout (n : Fin 18) (k : Fin 16) (s : State) : Out :=
  .next (scanTimeout n k s)

/-- STR_WRITE (R208). -/
def execStrWrite (iid : Fin 24) (s : State) : Out :=
  .next (wordWrite iid R.STR_CMD 1#32 s)

/-- STR_READ (R208). -/
def execStrRead (iid : Fin 24) (s : State) : Out :=
  .next (wordWrite iid R.STR_CMD 2#32 s)

/-- STR_SWAP_OUT (R204). -/
def execStrSwapOut (iid : Fin 24) (s : State) : Out :=
  .next (wordWrite iid R.STR_CMD 3#32 s)

/-- STR_SWAP_IN (R204). -/
def execStrSwapIn (iid : Fin 24) (s : State) : Out :=
  .next (wordWrite iid R.STR_CMD 4#32 s)

/-- STR_SET_RESET (R211). -/
def execStrSetReset (iid : Fin 24) (s : State) : Out :=
  .next (wordWrite iid R.STR_CMD 5#32 s)

/-- STR_INVALIDATE (R208). -/
def execStrInvalidate (iid : Fin 24) (s : State) : Out :=
  .next (wordWrite iid R.STR_CMD 6#32 s)

/-- SWAP_OUT_START (R204). -/
def execSwapOutStart (e : Fin 4096) (s : State) : Out :=
  .next (Sys2Proof.Machine.swapOutStart e s)

/-- SWAP_OUT_DONE (R204). -/
def execSwapOutDone (e : Fin 4096) (s : State) : Out :=
  .next (Sys2Proof.Machine.swapOutDone e s)

/-- STR_PART_WRITE (R208). -/
def execStrPartWrite (iid : Fin 24) (k : Fin 128) (val : Word) (s : State) : Out :=
  .next (wordWrite iid (R.STR_PART k) val s)

end Sys2Proof.Machine
end

