-- ==== Sys2Proof/Machine/CmdTest.lean ====
section
/-! DEFINITION. Machine/CmdTest.lean: the meanings of tests, JTAG, the debug port and the sideband
(19_test_debug.md). Each is one definition over the operations of the modules before it. -/

namespace Sys2Proof.Machine

/-- LANE_INJ (R493). -/
def execLaneInj (iid : Fin 24) (p : Fin 6) (lane : Fin 2) (back : Bool) (val : Word) (s : State) : Out :=
  .next (busWriteWith ⟨false, false, back⟩ iid (R.TST_LANE_CFG p lane) 0xFFFFFFFF#32 (wordSet val F.TST_LANE_CFG_INJ 1) s)

/-- TEST_FLIT_SEND (R494). -/
def execTestFlitSend (p : Fin 6) (s : State) : Out :=
  .next (Sys2Proof.Machine.testFlitSend p s)

/-- MEM_TEST_GO (R496). -/
def execMemTestGo (iid : Fin 24) (val : Word) (s : State) : Out :=
  .next (wordWrite iid R.TST_MEM_CFG (wordSet val F.TST_MEM_CFG_GO 1) s)

/-- MEM_TEST_DONE (R496). -/
def execMemTestDone (fail : Option (Fin 131072 × Nat)) (s : State) : Out :=
  .next (Sys2Proof.Machine.memTestDone (fail.map (fun q => (q.1.val, q.2))) s)

/-- CHECKER_LOCK (R493). -/
def execCheckerLock (p : Fin 6) (lane : Fin 2) (s : State) : Out :=
  .next (Sys2Proof.Machine.checkerLock p lane s)

/-- CHECKER_LOCK_LOSS (R493). -/
def execCheckerLockLoss (p : Fin 6) (lane : Fin 2) (s : State) : Out :=
  .next (checkerLoss p lane s)

/-- EXTEST (R499). -/
def execExtest (pins : Nat) (load : Nat) (s : State) : Out :=
  .next (jtagExtest Jtag.extest pins load s)

/-- SAMPLE_PRELOAD (R499). -/
def execSamplePreload (pins : Nat) (load : Nat) (s : State) : Out :=
  .next (jtagSample pins load s)

/-- IDCODE (R499). -/
def execIdcode (s : State) : Out :=
  .next (jtagSelect Jtag.idcode s)

/-- CLAMP (R499). -/
def execClamp (s : State) : Out :=
  .next (jtagReset Jtag.clamp s)

/-- HIGHZ (R499). -/
def execHighz (s : State) : Out :=
  .next (jtagReset Jtag.highz s)

/-- EXTEST_PULSE (R499). -/
def execExtestPulse (pins : Nat) (load : Nat) (s : State) : Out :=
  .next (jtagExtest Jtag.pulse pins load s)

/-- EXTEST_TRAIN (R499). -/
def execExtestTrain (pins : Nat) (load : Nat) (s : State) : Out :=
  .next (jtagExtest Jtag.train pins load s)

/-- TEST_ENTER (R499). -/
def execTestEnter (s : State) : Out :=
  .next (Sys2Proof.Machine.testEnter s)

/-- BYPASS (R499). -/
def execBypass (s : State) : Out :=
  .next (jtagSelect Jtag.bypass s)

/-- TEST_LOGIC_RESET (R499). -/
def execTestLogicReset (s : State) : Out :=
  .next (jtagSelect Jtag.idcode s)

/-- DBG_READ (R502). -/
def execDbgRead (space : Fin 4) (addr : BitVec 48) (out : Option SectorRead) (parity : Bool) (s : State) : Out :=
  .next (Sys2Proof.Machine.dbgRead space addr.toNat out parity s)

/-- DBG_WRITE (R502). -/
def execDbgWrite (space : Fin 4) (addr : BitVec 48) (val : Word) (out : Option SectorRead) (s : State) : Out :=
  .next (Sys2Proof.Machine.dbgWrite space addr.toNat val out s)

/-- SETDASA (R503). -/
def execSetdasa (addr : BitVec 7) (s : State) : Out :=
  .next (sbAssign addr.toNat s)

/-- ENTDAA (R503). -/
def execEntdaa (addr : BitVec 7) (s : State) : Out :=
  .next (sbAssign addr.toNat s)

/-- SB_POINTER_WRITE (R503). -/
def execSbPointerWrite (ptr : Word) (s : State) : Out :=
  .next (sbPointer ptr.toNat s)

/-- SB_PRIVATE_READ (R503). -/
def execSbPrivateRead (cnt : Nat) (s : State) : Out :=
  .next (sbRead cnt s)

/-- SB_PRIVATE_WRITE (R503). -/
def execSbPrivateWrite (ptr : Word) (words : List Word) (s : State) : Out :=
  .next (sbWrite ptr.toNat words s)

end Sys2Proof.Machine
end

