-- ==== Sys2Proof/Machine/CmdTier.lean ====
section
/-! DEFINITION. Machine/CmdTier.lean: the meanings of the memory tiers (09_memory_tiers.md, 16_reliability.md R408).
Each is one definition over the operations of the modules before it. -/

namespace Sys2Proof.Machine

/-- TIER_ACCESS (R27). -/
def execTierAccess (req : DaReq) (cfgBad : Bool) (s : State) : Out :=
  .next (if cfgBad then tierCfgFault req s else Sys2Proof.Machine.tierAccess req s)

/-- TIER_READ_DELIVER (R220). -/
def execTierReadDeliver (k : Nat) (out : SectorRead) (s : State) : Out :=
  .next (readDeliver k out s)

/-- TIER_WRITE_DONE (R531). -/
def execTierWriteDone (k : Nat) (s : State) : Out :=
  .next (writeDone k s)

/-- TIER_TIMEOUT (R224). -/
def execTierTimeout (k : Nat) (s : State) : Out :=
  .next (accTimeout k s)

/-- ALLOC (R215). -/
def execAlloc (iid : Fin 24) (owner : Fin 16) (place : Fin 3) (s : State) : Out :=
  .next (wordWrite iid R.MT_PG_CMD (BitVec.ofNat 32 (1 + owner.val * 16 + place.val * 256)) s)

/-- FREE (R215). -/
def execFree (iid : Fin 24) (s : State) : Out :=
  .next (wordWrite iid R.MT_PG_CMD 2#32 s)

/-- SET_PLACE (R230). -/
def execSetPlace (iid : Fin 24) (place : Fin 3) (s : State) : Out :=
  .next (wordWrite iid R.MT_PG_CMD (BitVec.ofNat 32 (3 + place.val * 256)) s)

/-- PAGE_READ (R236). -/
def execPageRead (iid : Fin 24) (s : State) : Out :=
  .next (wordWrite iid R.MT_PG_CMD 4#32 s)

/-- FREE_COMPLETE (R236). -/
def execFreeComplete (page : Fin 131072) (s : State) : Out :=
  .next (Sys2Proof.Machine.freeComplete page s)

/-- MIGRATION_CHOICE (R227). -/
def execMigrationChoice (s : State) : Out :=
  .next (Sys2Proof.Machine.migrationChoice s)

/-- MOVE_SWITCH (R228). -/
def execMoveSwitch (bad : List (Fin 4096)) (s : State) : Out :=
  .next (Sys2Proof.Machine.moveSwitch (bad.map (·.val)) s)

/-- DECAY_TICK (R226). -/
def execDecayTick (s : State) : Out :=
  .next (Sys2Proof.Machine.decayTick s)

/-- PATROL_READ (R408). -/
def execPatrolRead (rows : List Nat) (s : State) : Out :=
  .next (Sys2Proof.Machine.patrolRead rows s)

end Sys2Proof.Machine
end

