-- ==== Sys2Proof/Machine/CmdVideo.lean ====
section
/-! DEFINITION. Machine/CmdVideo.lean: the meanings of video decode and input transforms (12_video_input.md). Each is
one definition over the operations of the modules before it. -/

namespace Sys2Proof.Machine

/-- DEC_AU_PTR_WR (R302). -/
def execDecAuPtrWr (iid : Fin 24) (cx : Fin 32) (val : Word) (s : State) : Out :=
  .next (wordWrite iid (R.DEC_AU_PTR cx) val s)

/-- AU_FETCH (R304). -/
def execAuFetch (cx : Fin 32) (s : State) : Out :=
  .next (Sys2Proof.Machine.auFetch cx s)

/-- DECODE_START (R308). -/
def execDecodeStart (e : Fin 4) (info : AuInfo) (s : State) : Out :=
  .next (Sys2Proof.Machine.decodeStart e info s)

/-- SLICE_BOUNDARY (R309). -/
def execSliceBoundary (e : Fin 4) (cycles : Nat) (unfilled : Nat) (keep : List Nat) (s : State) : Out :=
  .next (Sys2Proof.Machine.sliceBoundary e cycles unfilled keep s)

/-- DECODE_ABANDON (R309). -/
def execDecodeAbandon (e : Fin 4) (unfilled : Nat) (keep : List Nat) (s : State) : Out :=
  .next (Sys2Proof.Machine.decodeAbandon e unfilled keep s)

/-- DECODE_DONE (R304). -/
def execDecodeDone (e : Fin 4) (info : PicInfo) (s : State) : Out :=
  .next (Sys2Proof.Machine.decodeDone e info s)

/-- XFM_START (R316). -/
def execXfmStart (s : State) : Out :=
  .next (Sys2Proof.Machine.xfmStart s)

/-- XFM_DONE (R313). -/
def execXfmDone (s : State) : Out :=
  .next (Sys2Proof.Machine.xfmDone s)

/-- XFM_REL (R313). -/
def execXfmRel (iid : Fin 24) (cx : Fin 32) (val : Word) (s : State) : Out :=
  .next (wordWrite iid (R.XFM_REL cx) val s)

end Sys2Proof.Machine
end

