-- ==== Sys2Proof/Machine/Dispatch.lean ====
section
/-! DEFINITION. Machine/Dispatch.lean: the meaning of every command, one arm each. -/

namespace Sys2Proof.Machine

/-- The effect of a command on everything but the queue. -/
def exec (i : Instr) (s : State) : Host.Outcome State Fault Refusal :=
  match i with
  | .regWrite iid addr be val => Sys2Proof.Machine.execRegWrite iid addr be val s
  | .txnBegin iid page val => Sys2Proof.Machine.execTxnBegin iid page val s
  | .txnCommit iid page val => Sys2Proof.Machine.execTxnCommit iid page val s
  | .txnRollback iid page val => Sys2Proof.Machine.execTxnRollback iid page val s
  | .commitApply page k => Sys2Proof.Machine.execCommitApply page k s
  | .groupFire iid g val => Sys2Proof.Machine.execGroupFire iid g val s
  | .groupWithdraw iid g val => Sys2Proof.Machine.execGroupWithdraw iid g val s
  | .groupRelease g => Sys2Proof.Machine.execGroupRelease g s
  | .errStatClear iid page val => Sys2Proof.Machine.execErrStatClear iid page val s
  | .errEnWrite iid page val => Sys2Proof.Machine.execErrEnWrite iid page val s
  | .errInj iid page val => Sys2Proof.Machine.execErrInj iid page val s
  | .snapReq iid => Sys2Proof.Machine.execSnapReq iid s
  | .snapshotTick => Sys2Proof.Machine.execSnapshotTick s
  | .fabWalkGo iid val => Sys2Proof.Machine.execFabWalkGo iid val s
  | .walkTestDone pass => Sys2Proof.Machine.execWalkTestDone pass s
  | .fabCrcInj iid val => Sys2Proof.Machine.execFabCrcInj iid val s
  | .fabricBeat link dir bad row => Sys2Proof.Machine.execFabricBeat link dir bad row s
  | .d2dRetrain iid => Sys2Proof.Machine.execD2dRetrain iid s
  | .d2dRetrainDone => Sys2Proof.Machine.execD2dRetrainDone s
  | .d2dLaneFail training => Sys2Proof.Machine.execD2dLaneFail training s
  | .gemm n cfgBad => Sys2Proof.Machine.execGemm n cfgBad s
  | .conv2d n cfgBad => Sys2Proof.Machine.execConv2d n cfgBad s
  | .fftconv n cfgBad => Sys2Proof.Machine.execFftconv n cfgBad s
  | .pool n cfgBad => Sys2Proof.Machine.execPool n cfgBad s
  | .boxcrop n cfgBad => Sys2Proof.Machine.execBoxcrop n cfgBad s
  | .eltwise n cfgBad => Sys2Proof.Machine.execEltwise n cfgBad s
  | .squallForward n cfgBad => Sys2Proof.Machine.execSquallForward n cfgBad s
  | .squallMerge n cfgBad => Sys2Proof.Machine.execSquallMerge n cfgBad s
  | .squallBackward n cfgBad => Sys2Proof.Machine.execSquallBackward n cfgBad s
  | .pageFetch n => Sys2Proof.Machine.execPageFetch n s
  | .pageStore n => Sys2Proof.Machine.execPageStore n s
  | .scan n => Sys2Proof.Machine.execScan n s
  | .allReduce n => Sys2Proof.Machine.execAllReduce n s
  | .reduceScatter n => Sys2Proof.Machine.execReduceScatter n s
  | .allGather n => Sys2Proof.Machine.execAllGather n s
  | .broadcast n => Sys2Proof.Machine.execBroadcast n s
  | .dmaDaToRegion n => Sys2Proof.Machine.execDmaDaToRegion n s
  | .dmaRegionToDa n => Sys2Proof.Machine.execDmaRegionToDa n s
  | .dmaRegionToRegion n => Sys2Proof.Machine.execDmaRegionToRegion n s
  | .dmaDaToImem n => Sys2Proof.Machine.execDmaDaToImem n s
  | .dmaRegionToCore n => Sys2Proof.Machine.execDmaRegionToCore n s
  | .dmaFill n => Sys2Proof.Machine.execDmaFill n s
  | .waitsem n => Sys2Proof.Machine.execWaitsem n s
  | .waitsemRelease n => Sys2Proof.Machine.execWaitsemRelease n s
  | .signal n => Sys2Proof.Machine.execSignal n s
  | .waitrows n => Sys2Proof.Machine.execWaitrows n s
  | .waitrowsRelease n => Sys2Proof.Machine.execWaitrowsRelease n s
  | .waitroom n => Sys2Proof.Machine.execWaitroom n s
  | .waitroomRelease n => Sys2Proof.Machine.execWaitroomRelease n s
  | .loop n => Sys2Proof.Machine.execLoop n s
  | .branch n => Sys2Proof.Machine.execBranch n s
  | .switch n => Sys2Proof.Machine.execSwitch n s
  | .drain n => Sys2Proof.Machine.execDrain n s
  | .drainRelease n => Sys2Proof.Machine.execDrainRelease n s
  | .seqWait n => Sys2Proof.Machine.execSeqWait n s
  | .barrier n => Sys2Proof.Machine.execBarrier n s
  | .barrierRelease n => Sys2Proof.Machine.execBarrierRelease n s
  | .issueBarrierRelease n cfgBad => Sys2Proof.Machine.execIssueBarrierRelease n cfgBad s
  | .done n => Sys2Proof.Machine.execDone n s
  | .doneComplete n => Sys2Proof.Machine.execDoneComplete n s
  | .verdict n res => Sys2Proof.Machine.execVerdict n res s
  | .spareSwapDone n => Sys2Proof.Machine.execSpareSwapDone n s
  | .wearSwap n => Sys2Proof.Machine.execWearSwap n s
  | .arrWdogTimeout n => Sys2Proof.Machine.execArrWdogTimeout n s
  | .barrierTimeout n => Sys2Proof.Machine.execBarrierTimeout n s
  | .arrFaultInj iid n val => Sys2Proof.Machine.execArrFaultInj iid n val s
  | .arrStatClr iid n hi val => Sys2Proof.Machine.execArrStatClr iid n hi val s
  | .seqStart iid n val => Sys2Proof.Machine.execSeqStart iid n val s
  | .drainReq iid n on => Sys2Proof.Machine.execDrainReq iid n on s
  | .channelStart n ch par cfgBad => Sys2Proof.Machine.execChannelStart n ch par cfgBad s
  | .dmaRoomAvailable n ch => Sys2Proof.Machine.execDmaRoomAvailable n ch s
  | .dmaWaitTimeout n ch => Sys2Proof.Machine.execDmaWaitTimeout n ch s
  | .spdDmaHold iid n ch val => Sys2Proof.Machine.execSpdDmaHold iid n ch val s
  | .spdDmaSubmit iid n ch val => Sys2Proof.Machine.execSpdDmaSubmit iid n ch val s
  | .spdRelease iid n val => Sys2Proof.Machine.execSpdRelease iid n val s
  | .spdBankSwap iid n val => Sys2Proof.Machine.execSpdBankSwap iid n val s
  | .bankSwap n => Sys2Proof.Machine.execBankSwap n s
  | .bankSwapDone n badLines => Sys2Proof.Machine.execBankSwapDone n badLines s
  | .swapInDone e => Sys2Proof.Machine.execSwapInDone e s
  | .scanChunkStart n cfgBad => Sys2Proof.Machine.execScanChunkStart n cfgBad s
  | .scanWaitTimeout n k => Sys2Proof.Machine.execScanWaitTimeout n k s
  | .strWrite iid => Sys2Proof.Machine.execStrWrite iid s
  | .strRead iid => Sys2Proof.Machine.execStrRead iid s
  | .strSwapOut iid => Sys2Proof.Machine.execStrSwapOut iid s
  | .swapOutStart e => Sys2Proof.Machine.execSwapOutStart e s
  | .swapOutDone e => Sys2Proof.Machine.execSwapOutDone e s
  | .strSwapIn iid => Sys2Proof.Machine.execStrSwapIn iid s
  | .strSetReset iid => Sys2Proof.Machine.execStrSetReset iid s
  | .strInvalidate iid => Sys2Proof.Machine.execStrInvalidate iid s
  | .strPartWrite iid k val => Sys2Proof.Machine.execStrPartWrite iid k val s
  | .tierAccess req cfgBad => Sys2Proof.Machine.execTierAccess req cfgBad s
  | .tierReadDeliver k out => Sys2Proof.Machine.execTierReadDeliver k out s
  | .tierWriteDone k => Sys2Proof.Machine.execTierWriteDone k s
  | .tierTimeout k => Sys2Proof.Machine.execTierTimeout k s
  | .alloc iid owner place => Sys2Proof.Machine.execAlloc iid owner place s
  | .free iid => Sys2Proof.Machine.execFree iid s
  | .freeComplete page => Sys2Proof.Machine.execFreeComplete page s
  | .setPlace iid place => Sys2Proof.Machine.execSetPlace iid place s
  | .pageRead iid => Sys2Proof.Machine.execPageRead iid s
  | .migrationChoice => Sys2Proof.Machine.execMigrationChoice s
  | .moveSwitch bad => Sys2Proof.Machine.execMoveSwitch bad s
  | .decayTick => Sys2Proof.Machine.execDecayTick s
  | .patrolRead rows => Sys2Proof.Machine.execPatrolRead rows s
  | .sampleWrite vals sat => Sys2Proof.Machine.execSampleWrite vals sat s
  | .tdmFrameSync p ok => Sys2Proof.Machine.execTdmFrameSync p ok s
  | .muteNFall => Sys2Proof.Machine.execMuteNFall s
  | .muteNRise => Sys2Proof.Machine.execMuteNRise s
  | .releaseQualified => Sys2Proof.Machine.execReleaseQualified s
  | .settleEnd => Sys2Proof.Machine.execSettleEnd s
  | .hopEnd => Sys2Proof.Machine.execHopEnd s
  | .breezeRunEnd conf startOff endOff fails parity => Sys2Proof.Machine.execBreezeRunEnd conf startOff endOff fails parity s
  | .gustPost => Sys2Proof.Machine.execGustPost s
  | .wqRdWrite iid val => Sys2Proof.Machine.execWqRdWrite iid val s
  | .agActivate iid g => Sys2Proof.Machine.execAgActivate iid g s
  | .agStop iid g => Sys2Proof.Machine.execAgStop iid g s
  | .agSeek iid g => Sys2Proof.Machine.execAgSeek iid g s
  | .audioBlockDeliver g => Sys2Proof.Machine.execAudioBlockDeliver g s
  | .brzSpmData iid w => Sys2Proof.Machine.execBrzSpmData iid w s
  | .brzIdxLoRead iid => Sys2Proof.Machine.execBrzIdxLoRead iid s
  | .agCurLoRead iid g => Sys2Proof.Machine.execAgCurLoRead iid g s
  | .frameStart p vc num hdr => Sys2Proof.Machine.execFrameStart p vc num hdr s
  | .lineReceive p vc dt hdr crcOk px sclk => Sys2Proof.Machine.execLineReceive p vc dt hdr crcOk px sclk s
  | .frameEnd p vc hdr => Sys2Proof.Machine.execFrameEnd p vc hdr s
  | .stripeGrant => Sys2Proof.Machine.execStripeGrant s
  | .frameDone cam => Sys2Proof.Machine.execFrameDone cam s
  | .ccPost iid b val => Sys2Proof.Machine.execCcPost iid b val s
  | .ccPacketDone b writes retries ok => Sys2Proof.Machine.execCcPacketDone b writes retries ok s
  | .ccBusTimeout b => Sys2Proof.Machine.execCcBusTimeout b s
  | .ccMemData iid b w => Sys2Proof.Machine.execCcMemData iid b w s
  | .lutData iid w => Sys2Proof.Machine.execLutData iid w s
  | .ispOutRel iid cam o val => Sys2Proof.Machine.execIspOutRel iid cam o val s
  | .decAuPtrWr iid cx val => Sys2Proof.Machine.execDecAuPtrWr iid cx val s
  | .auFetch cx => Sys2Proof.Machine.execAuFetch cx s
  | .decodeStart e info => Sys2Proof.Machine.execDecodeStart e info s
  | .sliceBoundary e cycles unfilled keep => Sys2Proof.Machine.execSliceBoundary e cycles unfilled keep s
  | .decodeAbandon e unfilled keep => Sys2Proof.Machine.execDecodeAbandon e unfilled keep s
  | .decodeDone e info => Sys2Proof.Machine.execDecodeDone e info s
  | .xfmStart => Sys2Proof.Machine.execXfmStart s
  | .xfmDone => Sys2Proof.Machine.execXfmDone s
  | .xfmRel iid cx val => Sys2Proof.Machine.execXfmRel iid cx val s
  | .sqDoorbell f slot q val => Sys2Proof.Machine.execSqDoorbell f slot q val s
  | .cqDoorbell f slot val => Sys2Proof.Machine.execCqDoorbell f slot val s
  | .sqFetch cc => Sys2Proof.Machine.execSqFetch cc s
  | .job id aclk => Sys2Proof.Machine.execJob id aclk s
  | .dmaEntry id => Sys2Proof.Machine.execDmaEntry id s
  | .fence id => Sys2Proof.Machine.execFence id s
  | .streamWrite id => Sys2Proof.Machine.execStreamWrite id s
  | .streamOp id => Sys2Proof.Machine.execStreamOp id s
  | .region id => Sys2Proof.Machine.execRegion id s
  | .model id => Sys2Proof.Machine.execModel id s
  | .share id => Sys2Proof.Machine.execShare id s
  | .account id => Sys2Proof.Machine.execAccount id s
  | .completionWrite x q => Sys2Proof.Machine.execCompletionWrite x q s
  | .heartbeatSample f => Sys2Proof.Machine.execHeartbeatSample f s
  | .resume iid f => Sys2Proof.Machine.execResume iid f s
  | .bar2Read f off len fails => Sys2Proof.Machine.execBar2Read f off len fails s
  | .bar2Write f off bytes ep fails => Sys2Proof.Machine.execBar2Write f off bytes ep fails s
  | .functionLevelReset f => Sys2Proof.Machine.execFunctionLevelReset f s
  | .vfEnable f on => Sys2Proof.Machine.execVfEnable f on s
  | .pe1PerstN => Sys2Proof.Machine.execPe1PerstN s
  | .scrubKeyErase f => Sys2Proof.Machine.execScrubKeyErase f s
  | .create iid t slot => Sys2Proof.Machine.execCreate iid t slot s
  | .destroy iid t slot => Sys2Proof.Machine.execDestroy iid t slot s
  | .sliceEnd id aclk => Sys2Proof.Machine.execSliceEnd id aclk s
  | .contextSwitch n aclk => Sys2Proof.Machine.execContextSwitch n aclk s
  | .jobDone id aclk => Sys2Proof.Machine.execJobDone id aclk s
  | .jobLimit id aclk => Sys2Proof.Machine.execJobLimit id aclk s
  | .rotationExchange x a b aclk => Sys2Proof.Machine.execRotationExchange x a b aclk s
  | .ctlXcopy iid val => Sys2Proof.Machine.execCtlXcopy iid val s
  | .teardown x aclk => Sys2Proof.Machine.execTeardown x aclk s
  | .stage iid keyOk sigOk => Sys2Proof.Machine.execStage iid keyOk sigOk s
  | .activate iid => Sys2Proof.Machine.execActivate iid s
  | .cancel iid => Sys2Proof.Machine.execCancel iid s
  | .updHandover => Sys2Proof.Machine.execUpdHandover s
  | .updWaitExpiry => Sys2Proof.Machine.execUpdWaitExpiry s
  | .ccWatchdog k => Sys2Proof.Machine.execCcWatchdog k s
  | .sramDoubleBit k => Sys2Proof.Machine.execSramDoubleBit k s
  | .kernelAssertion k => Sys2Proof.Machine.execKernelAssertion k s
  | .controlCoreFail k bist => Sys2Proof.Machine.execControlCoreFail k bist s
  | .dumpAonRead iid => Sys2Proof.Machine.execDumpAonRead iid s
  | .flitReceive p flit crcOk fecOk corr testBad => Sys2Proof.Machine.execFlitReceive p flit crcOk fecOk corr testBad s
  | .replayTimeout p => Sys2Proof.Machine.execReplayTimeout p s
  | .laneFail p lane => Sys2Proof.Machine.execLaneFail p lane s
  | .portTrainingDone p l0 l1 partner => Sys2Proof.Machine.execPortTrainingDone p l0 l1 partner s
  | .collectiveStart n fails par => Sys2Proof.Machine.execCollectiveStart n fails par s
  | .chunkReceive p tenant ctag chunk row add last onward sumBad => Sys2Proof.Machine.execChunkReceive p tenant ctag chunk row add last onward sumBad s
  | .collectiveComplete n fails => Sys2Proof.Machine.execCollectiveComplete n fails s
  | .collWaitTimeout x => Sys2Proof.Machine.execCollWaitTimeout x s
  | .laneTest n fails => Sys2Proof.Machine.execLaneTest n fails s
  | .coreRetire n pass aclk => Sys2Proof.Machine.execCoreRetire n pass aclk s
  | .maintenanceDrain n pass aclk => Sys2Proof.Machine.execMaintenanceDrain n pass aclk s
  | .policyChange aclk => Sys2Proof.Machine.execPolicyChange aclk s
  | .logFlush => Sys2Proof.Machine.execLogFlush s
  | .partnerWindowEnd k => Sys2Proof.Machine.execPartnerWindowEnd k s
  | .wearSnapshot n => Sys2Proof.Machine.execWearSnapshot n s
  | .pwrFailNFall => Sys2Proof.Machine.execPwrFailNFall s
  | .pwrFailNRise => Sys2Proof.Machine.execPwrFailNRise s
  | .relSvcWrite iid val => Sys2Proof.Machine.execRelSvcWrite iid val s
  | .coldReset out => Sys2Proof.Machine.execColdReset out s
  | .warmReset => Sys2Proof.Machine.execWarmReset s
  | .perstNRise out => Sys2Proof.Machine.execPerstNRise out s
  | .railUndervoltage k => Sys2Proof.Machine.execRailUndervoltage k s
  | .writeConfig iid keyOk sigOk => Sys2Proof.Machine.execWriteConfig iid keyOk sigOk s
  | .writeBoard iid keyOk sigOk => Sys2Proof.Machine.execWriteBoard iid keyOk sigOk s
  | .arRaise revoke => Sys2Proof.Machine.execArRaise revoke s
  | .provision => Sys2Proof.Machine.execProvision s
  | .attGo iid => Sys2Proof.Machine.execAttGo iid s
  | .attSignDone => Sys2Proof.Machine.execAttSignDone s
  | .secAttDataRead iid => Sys2Proof.Machine.execSecAttDataRead iid s
  | .secIdDataRead iid => Sys2Proof.Machine.execSecIdDataRead iid s
  | .rotateGo iid t => Sys2Proof.Machine.execRotateGo iid t s
  | .walkGranule late outs => Sys2Proof.Machine.execWalkGranule late outs s
  | .rotationRetire t => Sys2Proof.Machine.execRotationRetire t s
  | .confSet iid t => Sys2Proof.Machine.execConfSet iid t s
  | .confClear iid t => Sys2Proof.Machine.execConfClear iid t s
  | .thermalSample temps => Sys2Proof.Machine.execThermalSample temps s
  | .pllUnlock => Sys2Proof.Machine.execPllUnlock s
  | .pllRelock => Sys2Proof.Machine.execPllRelock s
  | .domModeOff iid d => Sys2Proof.Machine.execDomModeOff iid d s
  | .domModeRetention iid d => Sys2Proof.Machine.execDomModeRetention iid d s
  | .domModeOn iid d => Sys2Proof.Machine.execDomModeOn iid d s
  | .domainEntry d => Sys2Proof.Machine.execDomainEntry d s
  | .domainEntryDone d => Sys2Proof.Machine.execDomainEntryDone d s
  | .domainExitDone d ok => Sys2Proof.Machine.execDomainExitDone d ok s
  | .timerWake => Sys2Proof.Machine.execTimerWake s
  | .clkDtimeLoRead iid => Sys2Proof.Machine.execClkDtimeLoRead iid s
  | .powerEstimate => Sys2Proof.Machine.execPowerEstimate s
  | .telPowerRead iid => Sys2Proof.Machine.execTelPowerRead iid s
  | .laneInj iid p lane back val => Sys2Proof.Machine.execLaneInj iid p lane back val s
  | .testFlitSend p => Sys2Proof.Machine.execTestFlitSend p s
  | .memTestGo iid val => Sys2Proof.Machine.execMemTestGo iid val s
  | .memTestDone fail => Sys2Proof.Machine.execMemTestDone fail s
  | .extest pins load => Sys2Proof.Machine.execExtest pins load s
  | .samplePreload pins load => Sys2Proof.Machine.execSamplePreload pins load s
  | .idcode => Sys2Proof.Machine.execIdcode s
  | .clamp => Sys2Proof.Machine.execClamp s
  | .highz => Sys2Proof.Machine.execHighz s
  | .extestPulse pins load => Sys2Proof.Machine.execExtestPulse pins load s
  | .extestTrain pins load => Sys2Proof.Machine.execExtestTrain pins load s
  | .testEnter => Sys2Proof.Machine.execTestEnter s
  | .bypass => Sys2Proof.Machine.execBypass s
  | .dbgRead space addr out parity => Sys2Proof.Machine.execDbgRead space addr out parity s
  | .dbgWrite space addr val out => Sys2Proof.Machine.execDbgWrite space addr val out s
  | .setdasa addr => Sys2Proof.Machine.execSetdasa addr s
  | .entdaa addr => Sys2Proof.Machine.execEntdaa addr s
  | .sbPointerWrite ptr => Sys2Proof.Machine.execSbPointerWrite ptr s
  | .sbPrivateRead cnt => Sys2Proof.Machine.execSbPrivateRead cnt s
  | .sbPrivateWrite ptr words => Sys2Proof.Machine.execSbPrivateWrite ptr words s
  | .regRead iid addr => Sys2Proof.Machine.execRegRead iid addr s
  | .stripeEnd => Sys2Proof.Machine.execStripeEnd s
  | .sramSingleBit k => Sys2Proof.Machine.execSramSingleBit k s
  | .eraseDone => Sys2Proof.Machine.execEraseDone s
  | .flashProgramDone log => Sys2Proof.Machine.execFlashProgramDone log s
  | .flashProgramTimeout log => Sys2Proof.Machine.execFlashProgramTimeout log s
  | .checkerLock p lane => Sys2Proof.Machine.execCheckerLock p lane s
  | .checkerLockLoss p lane => Sys2Proof.Machine.execCheckerLockLoss p lane s
  | .testLogicReset => Sys2Proof.Machine.execTestLogicReset s
  | .msiXTableWrite f w val => Sys2Proof.Machine.execMsiXTableWrite f w val s
  | .pcieLinkError kind => Sys2Proof.Machine.execPcieLinkError kind s

end Sys2Proof.Machine
end

