-- ==== Sys2Proof/Laws/Words.lean ====
section
/-! SUPPORT. Laws/Words.lean: what reading and replacing bit fields of words does, and the tables that hold sparse state. -/

namespace Sys2Proof.Machine

/-! ### Bit fields -/

theorem testBit_bitsOf (w hi lo j : Nat) :
    (bitsOf w hi lo).testBit j = (decide (j < hi + 1 - lo) && w.testBit (lo + j)) := by
  simp [bitsOf, Nat.testBit_mod_two_pow, Nat.testBit_div_two_pow, Nat.add_comm]

/-- A number cut at a field: what lies above it, the field, and what lies below it. -/
theorem split_at_field (w hi lo : Nat) :
    w = 2 ^ lo * (2 ^ (hi + 1 - lo) * (w / 2 ^ lo / 2 ^ (hi + 1 - lo)) + bitsOf w hi lo) + w % 2 ^ lo := by
  unfold bitsOf
  rw [Nat.div_add_mod, Nat.div_add_mod]

theorem putBits_eq (w hi lo v : Nat) :
    putBits w hi lo v = 2 ^ lo * (2 ^ (hi + 1 - lo) * (w / 2 ^ lo / 2 ^ (hi + 1 - lo)) + v % 2 ^ (hi + 1 - lo)) + w % 2 ^ lo := by
  unfold putBits
  have h := split_at_field w hi lo
  generalize bitsOf w hi lo = b at h ⊢
  generalize w / 2 ^ lo / 2 ^ (hi + 1 - lo) = q at h ⊢
  generalize v % 2 ^ (hi + 1 - lo) = u
  generalize 2 ^ (hi + 1 - lo) = K at h ⊢
  generalize w % 2 ^ lo = r at h ⊢
  generalize 2 ^ lo = P at h ⊢
  rw [h, Nat.mul_add, Nat.mul_add, Nat.mul_comm b P, Nat.mul_comm u P]
  omega

theorem testBit_putBits (w hi lo v j : Nat) :
    (putBits w hi lo v).testBit j =
      if lo ≤ j ∧ j < lo + (hi + 1 - lo) then v.testBit (j - lo) else w.testBit j := by
  rw [putBits_eq, Nat.testBit_two_pow_mul_add _ (Nat.mod_lt _ (Nat.two_pow_pos lo))]
  by_cases h1 : j < lo
  · rw [if_pos h1, if_neg (by omega), Nat.testBit_mod_two_pow]
    simp [h1]
  · rw [if_neg h1, Nat.testBit_two_pow_mul_add _ (Nat.mod_lt _ (Nat.two_pow_pos _))]
    by_cases h2 : j - lo < hi + 1 - lo
    · rw [if_pos h2, if_pos (by omega), Nat.testBit_mod_two_pow]
      simp [h2]
    · rw [if_neg h2, if_neg (by omega), Nat.testBit_div_two_pow, Nat.testBit_div_two_pow]
      congr 1
      omega

theorem wordSet_toNat (w : Word) (f : Fld) (v : Nat) (h : f.hi < 32) :
    (wordSet w f v).toNat = putBits w.toNat f.hi f.lo v := by
  unfold wordSet
  rw [BitVec.toNat_ofNat]
  apply Nat.mod_eq_of_lt
  apply Nat.lt_pow_two_of_testBit
  intro j hj
  rw [testBit_putBits]
  split
  · omega
  · exact Nat.testBit_lt_two_pow (Nat.lt_of_lt_of_le w.isLt (Nat.pow_le_pow_right (by decide) hj))

/-- A field reads as what it was set to, its excess bits dropped. -/
theorem wordFld_wordSet (w : Word) (f : Fld) (v : Nat) (h : f.hi < 32) :
    wordFld (wordSet w f v) f = v % 2 ^ (f.hi + 1 - f.lo) := by
  unfold wordFld
  rw [wordSet_toNat w f v h]
  apply Nat.eq_of_testBit_eq
  intro j
  rw [testBit_bitsOf, testBit_putBits, Nat.testBit_mod_two_pow]
  by_cases hj : j < f.hi + 1 - f.lo
  · simp [hj]
  · simp [hj]

/-- A field apart from the one that is set keeps its value. -/
theorem wordFld_wordSet_ne (w : Word) (f g : Fld) (v : Nat) (h : f.hi < 32) (hd : g.hi < f.lo ∨ f.hi < g.lo) :
    wordFld (wordSet w f v) g = wordFld w g := by
  unfold wordFld
  rw [wordSet_toNat w f v h]
  apply Nat.eq_of_testBit_eq
  intro j
  rw [testBit_bitsOf, testBit_bitsOf, testBit_putBits]
  by_cases hj : j < g.hi + 1 - g.lo
  · rw [if_neg (by omega)]
  · simp [hj]

theorem wordFld_lt (w : Word) (f : Fld) : wordFld w f < 2 ^ (f.hi + 1 - f.lo) := Nat.mod_lt _ (Nat.two_pow_pos _)

/-! ### Tables -/

theorem Tab.find_set {β : Type} (t : List (Nat × β)) (k : Nat) (v : β) (i : Nat) :
    Tab.find (Tab.set t k v) i = if i = k then some v else Tab.find t i := by
  induction t with
  | nil =>
    simp only [Tab.set, Tab.find]
    split <;> split <;> simp_all
  | cons p t ih =>
    obtain ⟨a, w⟩ := p
    simp only [Tab.set]
    by_cases hak : a = k
    · subst hak
      simp only [if_true, Tab.find]
      by_cases h : a = i
      · simp [h]
      · rw [if_neg h, if_neg h, if_neg (fun e => h e.symm)]
    · rw [if_neg hak]
      simp only [Tab.find]
      by_cases h : a = i
      · subst h
        simp [hak]
      · rw [if_neg h, if_neg h, ih]

theorem Tab.get_set_same {β : Type} (t : List (Nat × β)) (d : β) (k : Nat) (v : β) : Tab.get (Tab.set t k v) d k = v := by
  simp [Tab.get, Tab.find_set]

theorem Tab.get_set_ne {β : Type} (t : List (Nat × β)) (d : β) (k : Nat) (v : β) (i : Nat) (h : i ≠ k) :
    Tab.get (Tab.set t k v) d i = Tab.get t d i := by
  simp [Tab.get, Tab.find_set, h]

theorem Tab.find_del {β : Type} (t : List (Nat × β)) (k i : Nat) :
    Tab.find (Tab.del t k) i = if i = k then none else Tab.find t i := by
  induction t with
  | nil => simp [Tab.del, Tab.find]
  | cons p t ih =>
    obtain ⟨a, w⟩ := p
    simp only [Tab.del]
    by_cases hak : a = k
    · subst hak
      rw [if_pos rfl, ih]
      by_cases h : i = a
      · simp [h]
      · simp [Tab.find, h, Ne.symm h]
    · rw [if_neg hak]
      simp only [Tab.find]
      by_cases h : a = i
      · subst h; simp [hak]
      · rw [if_neg h, if_neg h, ih]

/-- The later of two entries under one key stands. -/
theorem Tab.set_set {β : Type} (t : List (Nat × β)) (k : Nat) (v w : β) : Tab.set (Tab.set t k v) k w = Tab.set t k w := by
  induction t with
  | nil => simp [Tab.set]
  | cons p t ih =>
    obtain ⟨i, x⟩ := p
    by_cases h : i = k <;> simp [Tab.set, h, ih]

/-! ### Repeated application -/

/-- What every application keeps, all of them keep. -/
theorem iter_keeps {σ α : Type} (p : σ → α) (f : Nat → σ → σ) (h : ∀ k s, p (f k s) = p s) (n : Nat) (s : σ) :
    p (iter n f s) = p s := by
  induction n with
  | zero => rfl
  | succ n ih => rw [iter, h, ih]

theorem foldl_keeps {σ α β : Type} (p : σ → α) (f : σ → β → σ) (h : ∀ s x, p (f s x) = p s) (l : List β) (s : σ) :
    p (l.foldl f s) = p s := by
  induction l generalizing s with
  | nil => rfl
  | cons x xs ih => rw [List.foldl_cons, ih, h]

end Sys2Proof.Machine
end

