-- ==== Sys2Proof/Laws/State.lean ====
section
/-! SUPPORT. Laws/State.lean: what each update of the state leaves in each of its fields, and what the readers of registers,
counters and records read after it. -/

namespace Sys2Proof.Machine

variable (s : State)

/-! ### State.setReg -/

@[simp] theorem State.setReg_pending (a w) : (s.setReg a w).pending = s.pending := rfl
@[simp] theorem State.setReg_dtime (a w) : (s.setReg a w).dtime = s.dtime := rfl
@[simp] theorem State.setReg_txns (a w) : (s.setReg a w).txns = s.txns := rfl
@[simp] theorem State.setReg_groups (a w) : (s.setReg a w).groups = s.groups := rfl
@[simp] theorem State.setReg_cnt (a w) : (s.setReg a w).cnt = s.cnt := rfl
@[simp] theorem State.setReg_shadow (a w) : (s.setReg a w).shadow = s.shadow := rfl
@[simp] theorem State.setReg_snap (a w) : (s.setReg a w).snap = s.snap := rfl
@[simp] theorem State.setReg_errIrqs (a w) : (s.setReg a w).errIrqs = s.errIrqs := rfl
@[simp] theorem State.setReg_rdata (a w) : (s.setReg a w).rdata = s.rdata := rfl
@[simp] theorem State.setReg_free (a w) : (s.setReg a w).free = s.free := rfl
@[simp] theorem State.setReg_cores (a w) : (s.setReg a w).cores = s.cores := rfl
@[simp] theorem State.setReg_imem (a w) : (s.setReg a w).imem = s.imem := rfl
@[simp] theorem State.setReg_spad (a w) : (s.setReg a w).spad = s.spad := rfl
@[simp] theorem State.setReg_rowPoison (a w) : (s.setReg a w).rowPoison = s.rowPoison := rfl
@[simp] theorem State.setReg_streams (a w) : (s.setReg a w).streams = s.streams := rfl
@[simp] theorem State.setReg_swapReqs (a w) : (s.setReg a w).swapReqs = s.swapReqs := rfl
@[simp] theorem State.setReg_mt (a w) : (s.setReg a w).mt = s.mt := rfl
@[simp] theorem State.setReg_da (a w) : (s.setReg a w).da = s.da := rfl
@[simp] theorem State.setReg_doms (a w) : (s.setReg a w).doms = s.doms := rfl
@[simp] theorem State.setReg_ctxs (a w) : (s.setReg a w).ctxs = s.ctxs := rfl
@[simp] theorem State.setReg_hif (a w) : (s.setReg a w).hif = s.hif := rfl
@[simp] theorem State.setReg_ctl (a w) : (s.setReg a w).ctl = s.ctl := rfl
@[simp] theorem State.setReg_sec (a w) : (s.setReg a w).sec = s.sec := rfl
@[simp] theorem State.setReg_rel (a w) : (s.setReg a w).rel = s.rel := rfl
@[simp] theorem State.setReg_brz (a w) : (s.setReg a w).brz = s.brz := rfl
@[simp] theorem State.setReg_isp (a w) : (s.setReg a w).isp = s.isp := rfl
@[simp] theorem State.setReg_video (a w) : (s.setReg a w).video = s.video := rfl
@[simp] theorem State.setReg_plm (a w) : (s.setReg a w).plm = s.plm := rfl
@[simp] theorem State.setReg_fabInj (a w) : (s.setReg a w).fabInj = s.fabInj := rfl
@[simp] theorem State.setReg_recs (a w) : (s.setReg a w).recs = s.recs := rfl
@[simp] theorem State.setReg_flash (a w) : (s.setReg a w).flash = s.flash := rfl
@[simp] theorem State.setReg_pins (a w) : (s.setReg a w).pins = s.pins := rfl
@[simp] theorem State.setReg_clk (a w) : (s.setReg a w).clk = s.clk := rfl
@[simp] theorem State.setReg_counter (a w) (j : Nat) : (s.setReg a w).counter j = s.counter j := rfl
@[simp] theorem State.setReg_core (a w) (j : Nat) : (s.setReg a w).core j = s.core j := rfl
@[simp] theorem State.setReg_txn (a w) (j : Nat) : (s.setReg a w).txn j = s.txn j := rfl
@[simp] theorem State.setReg_group (a w) (j : Nat) : (s.setReg a w).group j = s.group j := rfl
@[simp] theorem State.setReg_dom (a w) (j : Nat) : (s.setReg a w).dom j = s.dom j := rfl
@[simp] theorem State.setReg_ctx (a w) (j : Nat) : (s.setReg a w).ctx j = s.ctx j := rfl

/-! ### State.setFld -/

@[simp] theorem State.setFld_pending (a f v) : (s.setFld a f v).pending = s.pending := rfl
@[simp] theorem State.setFld_dtime (a f v) : (s.setFld a f v).dtime = s.dtime := rfl
@[simp] theorem State.setFld_txns (a f v) : (s.setFld a f v).txns = s.txns := rfl
@[simp] theorem State.setFld_groups (a f v) : (s.setFld a f v).groups = s.groups := rfl
@[simp] theorem State.setFld_cnt (a f v) : (s.setFld a f v).cnt = s.cnt := rfl
@[simp] theorem State.setFld_shadow (a f v) : (s.setFld a f v).shadow = s.shadow := rfl
@[simp] theorem State.setFld_snap (a f v) : (s.setFld a f v).snap = s.snap := rfl
@[simp] theorem State.setFld_errIrqs (a f v) : (s.setFld a f v).errIrqs = s.errIrqs := rfl
@[simp] theorem State.setFld_rdata (a f v) : (s.setFld a f v).rdata = s.rdata := rfl
@[simp] theorem State.setFld_free (a f v) : (s.setFld a f v).free = s.free := rfl
@[simp] theorem State.setFld_cores (a f v) : (s.setFld a f v).cores = s.cores := rfl
@[simp] theorem State.setFld_imem (a f v) : (s.setFld a f v).imem = s.imem := rfl
@[simp] theorem State.setFld_spad (a f v) : (s.setFld a f v).spad = s.spad := rfl
@[simp] theorem State.setFld_rowPoison (a f v) : (s.setFld a f v).rowPoison = s.rowPoison := rfl
@[simp] theorem State.setFld_streams (a f v) : (s.setFld a f v).streams = s.streams := rfl
@[simp] theorem State.setFld_swapReqs (a f v) : (s.setFld a f v).swapReqs = s.swapReqs := rfl
@[simp] theorem State.setFld_mt (a f v) : (s.setFld a f v).mt = s.mt := rfl
@[simp] theorem State.setFld_da (a f v) : (s.setFld a f v).da = s.da := rfl
@[simp] theorem State.setFld_doms (a f v) : (s.setFld a f v).doms = s.doms := rfl
@[simp] theorem State.setFld_ctxs (a f v) : (s.setFld a f v).ctxs = s.ctxs := rfl
@[simp] theorem State.setFld_hif (a f v) : (s.setFld a f v).hif = s.hif := rfl
@[simp] theorem State.setFld_ctl (a f v) : (s.setFld a f v).ctl = s.ctl := rfl
@[simp] theorem State.setFld_sec (a f v) : (s.setFld a f v).sec = s.sec := rfl
@[simp] theorem State.setFld_rel (a f v) : (s.setFld a f v).rel = s.rel := rfl
@[simp] theorem State.setFld_brz (a f v) : (s.setFld a f v).brz = s.brz := rfl
@[simp] theorem State.setFld_isp (a f v) : (s.setFld a f v).isp = s.isp := rfl
@[simp] theorem State.setFld_video (a f v) : (s.setFld a f v).video = s.video := rfl
@[simp] theorem State.setFld_plm (a f v) : (s.setFld a f v).plm = s.plm := rfl
@[simp] theorem State.setFld_fabInj (a f v) : (s.setFld a f v).fabInj = s.fabInj := rfl
@[simp] theorem State.setFld_recs (a f v) : (s.setFld a f v).recs = s.recs := rfl
@[simp] theorem State.setFld_flash (a f v) : (s.setFld a f v).flash = s.flash := rfl
@[simp] theorem State.setFld_pins (a f v) : (s.setFld a f v).pins = s.pins := rfl
@[simp] theorem State.setFld_clk (a f v) : (s.setFld a f v).clk = s.clk := rfl
@[simp] theorem State.setFld_counter (a f v) (j : Nat) : (s.setFld a f v).counter j = s.counter j := rfl
@[simp] theorem State.setFld_core (a f v) (j : Nat) : (s.setFld a f v).core j = s.core j := rfl
@[simp] theorem State.setFld_txn (a f v) (j : Nat) : (s.setFld a f v).txn j = s.txn j := rfl
@[simp] theorem State.setFld_group (a f v) (j : Nat) : (s.setFld a f v).group j = s.group j := rfl
@[simp] theorem State.setFld_dom (a f v) (j : Nat) : (s.setFld a f v).dom j = s.dom j := rfl
@[simp] theorem State.setFld_ctx (a f v) (j : Nat) : (s.setFld a f v).ctx j = s.ctx j := rfl

/-! ### State.satFld -/

@[simp] theorem State.satFld_pending (a f k) : (s.satFld a f k).pending = s.pending := rfl
@[simp] theorem State.satFld_dtime (a f k) : (s.satFld a f k).dtime = s.dtime := rfl
@[simp] theorem State.satFld_txns (a f k) : (s.satFld a f k).txns = s.txns := rfl
@[simp] theorem State.satFld_groups (a f k) : (s.satFld a f k).groups = s.groups := rfl
@[simp] theorem State.satFld_cnt (a f k) : (s.satFld a f k).cnt = s.cnt := rfl
@[simp] theorem State.satFld_shadow (a f k) : (s.satFld a f k).shadow = s.shadow := rfl
@[simp] theorem State.satFld_snap (a f k) : (s.satFld a f k).snap = s.snap := rfl
@[simp] theorem State.satFld_errIrqs (a f k) : (s.satFld a f k).errIrqs = s.errIrqs := rfl
@[simp] theorem State.satFld_rdata (a f k) : (s.satFld a f k).rdata = s.rdata := rfl
@[simp] theorem State.satFld_free (a f k) : (s.satFld a f k).free = s.free := rfl
@[simp] theorem State.satFld_cores (a f k) : (s.satFld a f k).cores = s.cores := rfl
@[simp] theorem State.satFld_imem (a f k) : (s.satFld a f k).imem = s.imem := rfl
@[simp] theorem State.satFld_spad (a f k) : (s.satFld a f k).spad = s.spad := rfl
@[simp] theorem State.satFld_rowPoison (a f k) : (s.satFld a f k).rowPoison = s.rowPoison := rfl
@[simp] theorem State.satFld_streams (a f k) : (s.satFld a f k).streams = s.streams := rfl
@[simp] theorem State.satFld_swapReqs (a f k) : (s.satFld a f k).swapReqs = s.swapReqs := rfl
@[simp] theorem State.satFld_mt (a f k) : (s.satFld a f k).mt = s.mt := rfl
@[simp] theorem State.satFld_da (a f k) : (s.satFld a f k).da = s.da := rfl
@[simp] theorem State.satFld_doms (a f k) : (s.satFld a f k).doms = s.doms := rfl
@[simp] theorem State.satFld_ctxs (a f k) : (s.satFld a f k).ctxs = s.ctxs := rfl
@[simp] theorem State.satFld_hif (a f k) : (s.satFld a f k).hif = s.hif := rfl
@[simp] theorem State.satFld_ctl (a f k) : (s.satFld a f k).ctl = s.ctl := rfl
@[simp] theorem State.satFld_sec (a f k) : (s.satFld a f k).sec = s.sec := rfl
@[simp] theorem State.satFld_rel (a f k) : (s.satFld a f k).rel = s.rel := rfl
@[simp] theorem State.satFld_brz (a f k) : (s.satFld a f k).brz = s.brz := rfl
@[simp] theorem State.satFld_isp (a f k) : (s.satFld a f k).isp = s.isp := rfl
@[simp] theorem State.satFld_video (a f k) : (s.satFld a f k).video = s.video := rfl
@[simp] theorem State.satFld_plm (a f k) : (s.satFld a f k).plm = s.plm := rfl
@[simp] theorem State.satFld_fabInj (a f k) : (s.satFld a f k).fabInj = s.fabInj := rfl
@[simp] theorem State.satFld_recs (a f k) : (s.satFld a f k).recs = s.recs := rfl
@[simp] theorem State.satFld_flash (a f k) : (s.satFld a f k).flash = s.flash := rfl
@[simp] theorem State.satFld_pins (a f k) : (s.satFld a f k).pins = s.pins := rfl
@[simp] theorem State.satFld_clk (a f k) : (s.satFld a f k).clk = s.clk := rfl
@[simp] theorem State.satFld_counter (a f k) (j : Nat) : (s.satFld a f k).counter j = s.counter j := rfl
@[simp] theorem State.satFld_core (a f k) (j : Nat) : (s.satFld a f k).core j = s.core j := rfl
@[simp] theorem State.satFld_txn (a f k) (j : Nat) : (s.satFld a f k).txn j = s.txn j := rfl
@[simp] theorem State.satFld_group (a f k) (j : Nat) : (s.satFld a f k).group j = s.group j := rfl
@[simp] theorem State.satFld_dom (a f k) (j : Nat) : (s.satFld a f k).dom j = s.dom j := rfl
@[simp] theorem State.satFld_ctx (a f k) (j : Nat) : (s.satFld a f k).ctx j = s.ctx j := rfl

/-! ### State.setTxn -/

@[simp] theorem State.setTxn_pending (pg t) : (s.setTxn pg t).pending = s.pending := rfl
@[simp] theorem State.setTxn_dtime (pg t) : (s.setTxn pg t).dtime = s.dtime := rfl
@[simp] theorem State.setTxn_regs (pg t) : (s.setTxn pg t).regs = s.regs := rfl
@[simp] theorem State.setTxn_groups (pg t) : (s.setTxn pg t).groups = s.groups := rfl
@[simp] theorem State.setTxn_cnt (pg t) : (s.setTxn pg t).cnt = s.cnt := rfl
@[simp] theorem State.setTxn_shadow (pg t) : (s.setTxn pg t).shadow = s.shadow := rfl
@[simp] theorem State.setTxn_snap (pg t) : (s.setTxn pg t).snap = s.snap := rfl
@[simp] theorem State.setTxn_errIrqs (pg t) : (s.setTxn pg t).errIrqs = s.errIrqs := rfl
@[simp] theorem State.setTxn_rdata (pg t) : (s.setTxn pg t).rdata = s.rdata := rfl
@[simp] theorem State.setTxn_free (pg t) : (s.setTxn pg t).free = s.free := rfl
@[simp] theorem State.setTxn_cores (pg t) : (s.setTxn pg t).cores = s.cores := rfl
@[simp] theorem State.setTxn_imem (pg t) : (s.setTxn pg t).imem = s.imem := rfl
@[simp] theorem State.setTxn_spad (pg t) : (s.setTxn pg t).spad = s.spad := rfl
@[simp] theorem State.setTxn_rowPoison (pg t) : (s.setTxn pg t).rowPoison = s.rowPoison := rfl
@[simp] theorem State.setTxn_streams (pg t) : (s.setTxn pg t).streams = s.streams := rfl
@[simp] theorem State.setTxn_swapReqs (pg t) : (s.setTxn pg t).swapReqs = s.swapReqs := rfl
@[simp] theorem State.setTxn_mt (pg t) : (s.setTxn pg t).mt = s.mt := rfl
@[simp] theorem State.setTxn_da (pg t) : (s.setTxn pg t).da = s.da := rfl
@[simp] theorem State.setTxn_doms (pg t) : (s.setTxn pg t).doms = s.doms := rfl
@[simp] theorem State.setTxn_ctxs (pg t) : (s.setTxn pg t).ctxs = s.ctxs := rfl
@[simp] theorem State.setTxn_hif (pg t) : (s.setTxn pg t).hif = s.hif := rfl
@[simp] theorem State.setTxn_ctl (pg t) : (s.setTxn pg t).ctl = s.ctl := rfl
@[simp] theorem State.setTxn_sec (pg t) : (s.setTxn pg t).sec = s.sec := rfl
@[simp] theorem State.setTxn_rel (pg t) : (s.setTxn pg t).rel = s.rel := rfl
@[simp] theorem State.setTxn_brz (pg t) : (s.setTxn pg t).brz = s.brz := rfl
@[simp] theorem State.setTxn_isp (pg t) : (s.setTxn pg t).isp = s.isp := rfl
@[simp] theorem State.setTxn_video (pg t) : (s.setTxn pg t).video = s.video := rfl
@[simp] theorem State.setTxn_plm (pg t) : (s.setTxn pg t).plm = s.plm := rfl
@[simp] theorem State.setTxn_fabInj (pg t) : (s.setTxn pg t).fabInj = s.fabInj := rfl
@[simp] theorem State.setTxn_recs (pg t) : (s.setTxn pg t).recs = s.recs := rfl
@[simp] theorem State.setTxn_flash (pg t) : (s.setTxn pg t).flash = s.flash := rfl
@[simp] theorem State.setTxn_pins (pg t) : (s.setTxn pg t).pins = s.pins := rfl
@[simp] theorem State.setTxn_clk (pg t) : (s.setTxn pg t).clk = s.clk := rfl
@[simp] theorem State.setTxn_reg (pg t) (j : Nat) : (s.setTxn pg t).reg j = s.reg j := rfl
@[simp] theorem State.setTxn_fld (pg t) (j : Nat) (fl : Fld) : (s.setTxn pg t).fld j fl = s.fld j fl := rfl
@[simp] theorem State.setTxn_counter (pg t) (j : Nat) : (s.setTxn pg t).counter j = s.counter j := rfl
@[simp] theorem State.setTxn_core (pg t) (j : Nat) : (s.setTxn pg t).core j = s.core j := rfl
@[simp] theorem State.setTxn_group (pg t) (j : Nat) : (s.setTxn pg t).group j = s.group j := rfl
@[simp] theorem State.setTxn_dom (pg t) (j : Nat) : (s.setTxn pg t).dom j = s.dom j := rfl
@[simp] theorem State.setTxn_ctx (pg t) (j : Nat) : (s.setTxn pg t).ctx j = s.ctx j := rfl

/-! ### State.setGroup -/

@[simp] theorem State.setGroup_pending (g x) : (s.setGroup g x).pending = s.pending := rfl
@[simp] theorem State.setGroup_dtime (g x) : (s.setGroup g x).dtime = s.dtime := rfl
@[simp] theorem State.setGroup_regs (g x) : (s.setGroup g x).regs = s.regs := rfl
@[simp] theorem State.setGroup_txns (g x) : (s.setGroup g x).txns = s.txns := rfl
@[simp] theorem State.setGroup_cnt (g x) : (s.setGroup g x).cnt = s.cnt := rfl
@[simp] theorem State.setGroup_shadow (g x) : (s.setGroup g x).shadow = s.shadow := rfl
@[simp] theorem State.setGroup_snap (g x) : (s.setGroup g x).snap = s.snap := rfl
@[simp] theorem State.setGroup_errIrqs (g x) : (s.setGroup g x).errIrqs = s.errIrqs := rfl
@[simp] theorem State.setGroup_rdata (g x) : (s.setGroup g x).rdata = s.rdata := rfl
@[simp] theorem State.setGroup_free (g x) : (s.setGroup g x).free = s.free := rfl
@[simp] theorem State.setGroup_cores (g x) : (s.setGroup g x).cores = s.cores := rfl
@[simp] theorem State.setGroup_imem (g x) : (s.setGroup g x).imem = s.imem := rfl
@[simp] theorem State.setGroup_spad (g x) : (s.setGroup g x).spad = s.spad := rfl
@[simp] theorem State.setGroup_rowPoison (g x) : (s.setGroup g x).rowPoison = s.rowPoison := rfl
@[simp] theorem State.setGroup_streams (g x) : (s.setGroup g x).streams = s.streams := rfl
@[simp] theorem State.setGroup_swapReqs (g x) : (s.setGroup g x).swapReqs = s.swapReqs := rfl
@[simp] theorem State.setGroup_mt (g x) : (s.setGroup g x).mt = s.mt := rfl
@[simp] theorem State.setGroup_da (g x) : (s.setGroup g x).da = s.da := rfl
@[simp] theorem State.setGroup_doms (g x) : (s.setGroup g x).doms = s.doms := rfl
@[simp] theorem State.setGroup_ctxs (g x) : (s.setGroup g x).ctxs = s.ctxs := rfl
@[simp] theorem State.setGroup_hif (g x) : (s.setGroup g x).hif = s.hif := rfl
@[simp] theorem State.setGroup_ctl (g x) : (s.setGroup g x).ctl = s.ctl := rfl
@[simp] theorem State.setGroup_sec (g x) : (s.setGroup g x).sec = s.sec := rfl
@[simp] theorem State.setGroup_rel (g x) : (s.setGroup g x).rel = s.rel := rfl
@[simp] theorem State.setGroup_brz (g x) : (s.setGroup g x).brz = s.brz := rfl
@[simp] theorem State.setGroup_isp (g x) : (s.setGroup g x).isp = s.isp := rfl
@[simp] theorem State.setGroup_video (g x) : (s.setGroup g x).video = s.video := rfl
@[simp] theorem State.setGroup_plm (g x) : (s.setGroup g x).plm = s.plm := rfl
@[simp] theorem State.setGroup_fabInj (g x) : (s.setGroup g x).fabInj = s.fabInj := rfl
@[simp] theorem State.setGroup_recs (g x) : (s.setGroup g x).recs = s.recs := rfl
@[simp] theorem State.setGroup_flash (g x) : (s.setGroup g x).flash = s.flash := rfl
@[simp] theorem State.setGroup_pins (g x) : (s.setGroup g x).pins = s.pins := rfl
@[simp] theorem State.setGroup_clk (g x) : (s.setGroup g x).clk = s.clk := rfl
@[simp] theorem State.setGroup_reg (g x) (j : Nat) : (s.setGroup g x).reg j = s.reg j := rfl
@[simp] theorem State.setGroup_fld (g x) (j : Nat) (fl : Fld) : (s.setGroup g x).fld j fl = s.fld j fl := rfl
@[simp] theorem State.setGroup_counter (g x) (j : Nat) : (s.setGroup g x).counter j = s.counter j := rfl
@[simp] theorem State.setGroup_core (g x) (j : Nat) : (s.setGroup g x).core j = s.core j := rfl
@[simp] theorem State.setGroup_txn (g x) (j : Nat) : (s.setGroup g x).txn j = s.txn j := rfl
@[simp] theorem State.setGroup_dom (g x) (j : Nat) : (s.setGroup g x).dom j = s.dom j := rfl
@[simp] theorem State.setGroup_ctx (g x) (j : Nat) : (s.setGroup g x).ctx j = s.ctx j := rfl

/-! ### State.setCore -/

@[simp] theorem State.setCore_pending (n c) : (s.setCore n c).pending = s.pending := rfl
@[simp] theorem State.setCore_dtime (n c) : (s.setCore n c).dtime = s.dtime := rfl
@[simp] theorem State.setCore_regs (n c) : (s.setCore n c).regs = s.regs := rfl
@[simp] theorem State.setCore_txns (n c) : (s.setCore n c).txns = s.txns := rfl
@[simp] theorem State.setCore_groups (n c) : (s.setCore n c).groups = s.groups := rfl
@[simp] theorem State.setCore_cnt (n c) : (s.setCore n c).cnt = s.cnt := rfl
@[simp] theorem State.setCore_shadow (n c) : (s.setCore n c).shadow = s.shadow := rfl
@[simp] theorem State.setCore_snap (n c) : (s.setCore n c).snap = s.snap := rfl
@[simp] theorem State.setCore_errIrqs (n c) : (s.setCore n c).errIrqs = s.errIrqs := rfl
@[simp] theorem State.setCore_rdata (n c) : (s.setCore n c).rdata = s.rdata := rfl
@[simp] theorem State.setCore_free (n c) : (s.setCore n c).free = s.free := rfl
@[simp] theorem State.setCore_imem (n c) : (s.setCore n c).imem = s.imem := rfl
@[simp] theorem State.setCore_spad (n c) : (s.setCore n c).spad = s.spad := rfl
@[simp] theorem State.setCore_rowPoison (n c) : (s.setCore n c).rowPoison = s.rowPoison := rfl
@[simp] theorem State.setCore_streams (n c) : (s.setCore n c).streams = s.streams := rfl
@[simp] theorem State.setCore_swapReqs (n c) : (s.setCore n c).swapReqs = s.swapReqs := rfl
@[simp] theorem State.setCore_mt (n c) : (s.setCore n c).mt = s.mt := rfl
@[simp] theorem State.setCore_da (n c) : (s.setCore n c).da = s.da := rfl
@[simp] theorem State.setCore_doms (n c) : (s.setCore n c).doms = s.doms := rfl
@[simp] theorem State.setCore_ctxs (n c) : (s.setCore n c).ctxs = s.ctxs := rfl
@[simp] theorem State.setCore_hif (n c) : (s.setCore n c).hif = s.hif := rfl
@[simp] theorem State.setCore_ctl (n c) : (s.setCore n c).ctl = s.ctl := rfl
@[simp] theorem State.setCore_sec (n c) : (s.setCore n c).sec = s.sec := rfl
@[simp] theorem State.setCore_rel (n c) : (s.setCore n c).rel = s.rel := rfl
@[simp] theorem State.setCore_brz (n c) : (s.setCore n c).brz = s.brz := rfl
@[simp] theorem State.setCore_isp (n c) : (s.setCore n c).isp = s.isp := rfl
@[simp] theorem State.setCore_video (n c) : (s.setCore n c).video = s.video := rfl
@[simp] theorem State.setCore_plm (n c) : (s.setCore n c).plm = s.plm := rfl
@[simp] theorem State.setCore_fabInj (n c) : (s.setCore n c).fabInj = s.fabInj := rfl
@[simp] theorem State.setCore_recs (n c) : (s.setCore n c).recs = s.recs := rfl
@[simp] theorem State.setCore_flash (n c) : (s.setCore n c).flash = s.flash := rfl
@[simp] theorem State.setCore_pins (n c) : (s.setCore n c).pins = s.pins := rfl
@[simp] theorem State.setCore_clk (n c) : (s.setCore n c).clk = s.clk := rfl
@[simp] theorem State.setCore_reg (n c) (j : Nat) : (s.setCore n c).reg j = s.reg j := rfl
@[simp] theorem State.setCore_fld (n c) (j : Nat) (fl : Fld) : (s.setCore n c).fld j fl = s.fld j fl := rfl
@[simp] theorem State.setCore_counter (n c) (j : Nat) : (s.setCore n c).counter j = s.counter j := rfl
@[simp] theorem State.setCore_txn (n c) (j : Nat) : (s.setCore n c).txn j = s.txn j := rfl
@[simp] theorem State.setCore_group (n c) (j : Nat) : (s.setCore n c).group j = s.group j := rfl
@[simp] theorem State.setCore_dom (n c) (j : Nat) : (s.setCore n c).dom j = s.dom j := rfl
@[simp] theorem State.setCore_ctx (n c) (j : Nat) : (s.setCore n c).ctx j = s.ctx j := rfl

/-! ### State.modCore -/

@[simp] theorem State.modCore_pending (n f) : (s.modCore n f).pending = s.pending := rfl
@[simp] theorem State.modCore_dtime (n f) : (s.modCore n f).dtime = s.dtime := rfl
@[simp] theorem State.modCore_regs (n f) : (s.modCore n f).regs = s.regs := rfl
@[simp] theorem State.modCore_txns (n f) : (s.modCore n f).txns = s.txns := rfl
@[simp] theorem State.modCore_groups (n f) : (s.modCore n f).groups = s.groups := rfl
@[simp] theorem State.modCore_cnt (n f) : (s.modCore n f).cnt = s.cnt := rfl
@[simp] theorem State.modCore_shadow (n f) : (s.modCore n f).shadow = s.shadow := rfl
@[simp] theorem State.modCore_snap (n f) : (s.modCore n f).snap = s.snap := rfl
@[simp] theorem State.modCore_errIrqs (n f) : (s.modCore n f).errIrqs = s.errIrqs := rfl
@[simp] theorem State.modCore_rdata (n f) : (s.modCore n f).rdata = s.rdata := rfl
@[simp] theorem State.modCore_free (n f) : (s.modCore n f).free = s.free := rfl
@[simp] theorem State.modCore_imem (n f) : (s.modCore n f).imem = s.imem := rfl
@[simp] theorem State.modCore_spad (n f) : (s.modCore n f).spad = s.spad := rfl
@[simp] theorem State.modCore_rowPoison (n f) : (s.modCore n f).rowPoison = s.rowPoison := rfl
@[simp] theorem State.modCore_streams (n f) : (s.modCore n f).streams = s.streams := rfl
@[simp] theorem State.modCore_swapReqs (n f) : (s.modCore n f).swapReqs = s.swapReqs := rfl
@[simp] theorem State.modCore_mt (n f) : (s.modCore n f).mt = s.mt := rfl
@[simp] theorem State.modCore_da (n f) : (s.modCore n f).da = s.da := rfl
@[simp] theorem State.modCore_doms (n f) : (s.modCore n f).doms = s.doms := rfl
@[simp] theorem State.modCore_ctxs (n f) : (s.modCore n f).ctxs = s.ctxs := rfl
@[simp] theorem State.modCore_hif (n f) : (s.modCore n f).hif = s.hif := rfl
@[simp] theorem State.modCore_ctl (n f) : (s.modCore n f).ctl = s.ctl := rfl
@[simp] theorem State.modCore_sec (n f) : (s.modCore n f).sec = s.sec := rfl
@[simp] theorem State.modCore_rel (n f) : (s.modCore n f).rel = s.rel := rfl
@[simp] theorem State.modCore_brz (n f) : (s.modCore n f).brz = s.brz := rfl
@[simp] theorem State.modCore_isp (n f) : (s.modCore n f).isp = s.isp := rfl
@[simp] theorem State.modCore_video (n f) : (s.modCore n f).video = s.video := rfl
@[simp] theorem State.modCore_plm (n f) : (s.modCore n f).plm = s.plm := rfl
@[simp] theorem State.modCore_fabInj (n f) : (s.modCore n f).fabInj = s.fabInj := rfl
@[simp] theorem State.modCore_recs (n f) : (s.modCore n f).recs = s.recs := rfl
@[simp] theorem State.modCore_flash (n f) : (s.modCore n f).flash = s.flash := rfl
@[simp] theorem State.modCore_pins (n f) : (s.modCore n f).pins = s.pins := rfl
@[simp] theorem State.modCore_clk (n f) : (s.modCore n f).clk = s.clk := rfl
@[simp] theorem State.modCore_reg (n f) (j : Nat) : (s.modCore n f).reg j = s.reg j := rfl
@[simp] theorem State.modCore_fld (n f) (j : Nat) (fl : Fld) : (s.modCore n f).fld j fl = s.fld j fl := rfl
@[simp] theorem State.modCore_counter (n f) (j : Nat) : (s.modCore n f).counter j = s.counter j := rfl
@[simp] theorem State.modCore_txn (n f) (j : Nat) : (s.modCore n f).txn j = s.txn j := rfl
@[simp] theorem State.modCore_group (n f) (j : Nat) : (s.modCore n f).group j = s.group j := rfl
@[simp] theorem State.modCore_dom (n f) (j : Nat) : (s.modCore n f).dom j = s.dom j := rfl
@[simp] theorem State.modCore_ctx (n f) (j : Nat) : (s.modCore n f).ctx j = s.ctx j := rfl

/-! ### State.setChan -/

@[simp] theorem State.setChan_pending (n k h) : (s.setChan n k h).pending = s.pending := rfl
@[simp] theorem State.setChan_dtime (n k h) : (s.setChan n k h).dtime = s.dtime := rfl
@[simp] theorem State.setChan_regs (n k h) : (s.setChan n k h).regs = s.regs := rfl
@[simp] theorem State.setChan_txns (n k h) : (s.setChan n k h).txns = s.txns := rfl
@[simp] theorem State.setChan_groups (n k h) : (s.setChan n k h).groups = s.groups := rfl
@[simp] theorem State.setChan_cnt (n k h) : (s.setChan n k h).cnt = s.cnt := rfl
@[simp] theorem State.setChan_shadow (n k h) : (s.setChan n k h).shadow = s.shadow := rfl
@[simp] theorem State.setChan_snap (n k h) : (s.setChan n k h).snap = s.snap := rfl
@[simp] theorem State.setChan_errIrqs (n k h) : (s.setChan n k h).errIrqs = s.errIrqs := rfl
@[simp] theorem State.setChan_rdata (n k h) : (s.setChan n k h).rdata = s.rdata := rfl
@[simp] theorem State.setChan_free (n k h) : (s.setChan n k h).free = s.free := rfl
@[simp] theorem State.setChan_imem (n k h) : (s.setChan n k h).imem = s.imem := rfl
@[simp] theorem State.setChan_spad (n k h) : (s.setChan n k h).spad = s.spad := rfl
@[simp] theorem State.setChan_rowPoison (n k h) : (s.setChan n k h).rowPoison = s.rowPoison := rfl
@[simp] theorem State.setChan_streams (n k h) : (s.setChan n k h).streams = s.streams := rfl
@[simp] theorem State.setChan_swapReqs (n k h) : (s.setChan n k h).swapReqs = s.swapReqs := rfl
@[simp] theorem State.setChan_mt (n k h) : (s.setChan n k h).mt = s.mt := rfl
@[simp] theorem State.setChan_da (n k h) : (s.setChan n k h).da = s.da := rfl
@[simp] theorem State.setChan_doms (n k h) : (s.setChan n k h).doms = s.doms := rfl
@[simp] theorem State.setChan_ctxs (n k h) : (s.setChan n k h).ctxs = s.ctxs := rfl
@[simp] theorem State.setChan_hif (n k h) : (s.setChan n k h).hif = s.hif := rfl
@[simp] theorem State.setChan_ctl (n k h) : (s.setChan n k h).ctl = s.ctl := rfl
@[simp] theorem State.setChan_sec (n k h) : (s.setChan n k h).sec = s.sec := rfl
@[simp] theorem State.setChan_rel (n k h) : (s.setChan n k h).rel = s.rel := rfl
@[simp] theorem State.setChan_brz (n k h) : (s.setChan n k h).brz = s.brz := rfl
@[simp] theorem State.setChan_isp (n k h) : (s.setChan n k h).isp = s.isp := rfl
@[simp] theorem State.setChan_video (n k h) : (s.setChan n k h).video = s.video := rfl
@[simp] theorem State.setChan_plm (n k h) : (s.setChan n k h).plm = s.plm := rfl
@[simp] theorem State.setChan_fabInj (n k h) : (s.setChan n k h).fabInj = s.fabInj := rfl
@[simp] theorem State.setChan_recs (n k h) : (s.setChan n k h).recs = s.recs := rfl
@[simp] theorem State.setChan_flash (n k h) : (s.setChan n k h).flash = s.flash := rfl
@[simp] theorem State.setChan_pins (n k h) : (s.setChan n k h).pins = s.pins := rfl
@[simp] theorem State.setChan_clk (n k h) : (s.setChan n k h).clk = s.clk := rfl
@[simp] theorem State.setChan_reg (n k h) (j : Nat) : (s.setChan n k h).reg j = s.reg j := rfl
@[simp] theorem State.setChan_fld (n k h) (j : Nat) (fl : Fld) : (s.setChan n k h).fld j fl = s.fld j fl := rfl
@[simp] theorem State.setChan_counter (n k h) (j : Nat) : (s.setChan n k h).counter j = s.counter j := rfl
@[simp] theorem State.setChan_txn (n k h) (j : Nat) : (s.setChan n k h).txn j = s.txn j := rfl
@[simp] theorem State.setChan_group (n k h) (j : Nat) : (s.setChan n k h).group j = s.group j := rfl
@[simp] theorem State.setChan_dom (n k h) (j : Nat) : (s.setChan n k h).dom j = s.dom j := rfl
@[simp] theorem State.setChan_ctx (n k h) (j : Nat) : (s.setChan n k h).ctx j = s.ctx j := rfl

/-! ### State.setDom -/

@[simp] theorem State.setDom_pending (d x) : (s.setDom d x).pending = s.pending := rfl
@[simp] theorem State.setDom_dtime (d x) : (s.setDom d x).dtime = s.dtime := rfl
@[simp] theorem State.setDom_regs (d x) : (s.setDom d x).regs = s.regs := rfl
@[simp] theorem State.setDom_txns (d x) : (s.setDom d x).txns = s.txns := rfl
@[simp] theorem State.setDom_groups (d x) : (s.setDom d x).groups = s.groups := rfl
@[simp] theorem State.setDom_cnt (d x) : (s.setDom d x).cnt = s.cnt := rfl
@[simp] theorem State.setDom_shadow (d x) : (s.setDom d x).shadow = s.shadow := rfl
@[simp] theorem State.setDom_snap (d x) : (s.setDom d x).snap = s.snap := rfl
@[simp] theorem State.setDom_errIrqs (d x) : (s.setDom d x).errIrqs = s.errIrqs := rfl
@[simp] theorem State.setDom_rdata (d x) : (s.setDom d x).rdata = s.rdata := rfl
@[simp] theorem State.setDom_free (d x) : (s.setDom d x).free = s.free := rfl
@[simp] theorem State.setDom_cores (d x) : (s.setDom d x).cores = s.cores := rfl
@[simp] theorem State.setDom_imem (d x) : (s.setDom d x).imem = s.imem := rfl
@[simp] theorem State.setDom_spad (d x) : (s.setDom d x).spad = s.spad := rfl
@[simp] theorem State.setDom_rowPoison (d x) : (s.setDom d x).rowPoison = s.rowPoison := rfl
@[simp] theorem State.setDom_streams (d x) : (s.setDom d x).streams = s.streams := rfl
@[simp] theorem State.setDom_swapReqs (d x) : (s.setDom d x).swapReqs = s.swapReqs := rfl
@[simp] theorem State.setDom_mt (d x) : (s.setDom d x).mt = s.mt := rfl
@[simp] theorem State.setDom_da (d x) : (s.setDom d x).da = s.da := rfl
@[simp] theorem State.setDom_ctxs (d x) : (s.setDom d x).ctxs = s.ctxs := rfl
@[simp] theorem State.setDom_hif (d x) : (s.setDom d x).hif = s.hif := rfl
@[simp] theorem State.setDom_ctl (d x) : (s.setDom d x).ctl = s.ctl := rfl
@[simp] theorem State.setDom_sec (d x) : (s.setDom d x).sec = s.sec := rfl
@[simp] theorem State.setDom_rel (d x) : (s.setDom d x).rel = s.rel := rfl
@[simp] theorem State.setDom_brz (d x) : (s.setDom d x).brz = s.brz := rfl
@[simp] theorem State.setDom_isp (d x) : (s.setDom d x).isp = s.isp := rfl
@[simp] theorem State.setDom_video (d x) : (s.setDom d x).video = s.video := rfl
@[simp] theorem State.setDom_plm (d x) : (s.setDom d x).plm = s.plm := rfl
@[simp] theorem State.setDom_fabInj (d x) : (s.setDom d x).fabInj = s.fabInj := rfl
@[simp] theorem State.setDom_recs (d x) : (s.setDom d x).recs = s.recs := rfl
@[simp] theorem State.setDom_flash (d x) : (s.setDom d x).flash = s.flash := rfl
@[simp] theorem State.setDom_pins (d x) : (s.setDom d x).pins = s.pins := rfl
@[simp] theorem State.setDom_clk (d x) : (s.setDom d x).clk = s.clk := rfl
@[simp] theorem State.setDom_reg (d x) (j : Nat) : (s.setDom d x).reg j = s.reg j := rfl
@[simp] theorem State.setDom_fld (d x) (j : Nat) (fl : Fld) : (s.setDom d x).fld j fl = s.fld j fl := rfl
@[simp] theorem State.setDom_counter (d x) (j : Nat) : (s.setDom d x).counter j = s.counter j := rfl
@[simp] theorem State.setDom_core (d x) (j : Nat) : (s.setDom d x).core j = s.core j := rfl
@[simp] theorem State.setDom_txn (d x) (j : Nat) : (s.setDom d x).txn j = s.txn j := rfl
@[simp] theorem State.setDom_group (d x) (j : Nat) : (s.setDom d x).group j = s.group j := rfl
@[simp] theorem State.setDom_ctx (d x) (j : Nat) : (s.setDom d x).ctx j = s.ctx j := rfl

/-! ### State.answers -/

@[simp] theorem State.answers_pending (w) : (s.answers w).pending = s.pending := rfl
@[simp] theorem State.answers_dtime (w) : (s.answers w).dtime = s.dtime := rfl
@[simp] theorem State.answers_regs (w) : (s.answers w).regs = s.regs := rfl
@[simp] theorem State.answers_txns (w) : (s.answers w).txns = s.txns := rfl
@[simp] theorem State.answers_groups (w) : (s.answers w).groups = s.groups := rfl
@[simp] theorem State.answers_cnt (w) : (s.answers w).cnt = s.cnt := rfl
@[simp] theorem State.answers_shadow (w) : (s.answers w).shadow = s.shadow := rfl
@[simp] theorem State.answers_snap (w) : (s.answers w).snap = s.snap := rfl
@[simp] theorem State.answers_errIrqs (w) : (s.answers w).errIrqs = s.errIrqs := rfl
@[simp] theorem State.answers_free (w) : (s.answers w).free = s.free := rfl
@[simp] theorem State.answers_cores (w) : (s.answers w).cores = s.cores := rfl
@[simp] theorem State.answers_imem (w) : (s.answers w).imem = s.imem := rfl
@[simp] theorem State.answers_spad (w) : (s.answers w).spad = s.spad := rfl
@[simp] theorem State.answers_rowPoison (w) : (s.answers w).rowPoison = s.rowPoison := rfl
@[simp] theorem State.answers_streams (w) : (s.answers w).streams = s.streams := rfl
@[simp] theorem State.answers_swapReqs (w) : (s.answers w).swapReqs = s.swapReqs := rfl
@[simp] theorem State.answers_mt (w) : (s.answers w).mt = s.mt := rfl
@[simp] theorem State.answers_da (w) : (s.answers w).da = s.da := rfl
@[simp] theorem State.answers_doms (w) : (s.answers w).doms = s.doms := rfl
@[simp] theorem State.answers_ctxs (w) : (s.answers w).ctxs = s.ctxs := rfl
@[simp] theorem State.answers_hif (w) : (s.answers w).hif = s.hif := rfl
@[simp] theorem State.answers_ctl (w) : (s.answers w).ctl = s.ctl := rfl
@[simp] theorem State.answers_sec (w) : (s.answers w).sec = s.sec := rfl
@[simp] theorem State.answers_rel (w) : (s.answers w).rel = s.rel := rfl
@[simp] theorem State.answers_brz (w) : (s.answers w).brz = s.brz := rfl
@[simp] theorem State.answers_isp (w) : (s.answers w).isp = s.isp := rfl
@[simp] theorem State.answers_video (w) : (s.answers w).video = s.video := rfl
@[simp] theorem State.answers_plm (w) : (s.answers w).plm = s.plm := rfl
@[simp] theorem State.answers_fabInj (w) : (s.answers w).fabInj = s.fabInj := rfl
@[simp] theorem State.answers_recs (w) : (s.answers w).recs = s.recs := rfl
@[simp] theorem State.answers_flash (w) : (s.answers w).flash = s.flash := rfl
@[simp] theorem State.answers_pins (w) : (s.answers w).pins = s.pins := rfl
@[simp] theorem State.answers_clk (w) : (s.answers w).clk = s.clk := rfl
@[simp] theorem State.answers_reg (w) (j : Nat) : (s.answers w).reg j = s.reg j := rfl
@[simp] theorem State.answers_fld (w) (j : Nat) (fl : Fld) : (s.answers w).fld j fl = s.fld j fl := rfl
@[simp] theorem State.answers_counter (w) (j : Nat) : (s.answers w).counter j = s.counter j := rfl
@[simp] theorem State.answers_core (w) (j : Nat) : (s.answers w).core j = s.core j := rfl
@[simp] theorem State.answers_txn (w) (j : Nat) : (s.answers w).txn j = s.txn j := rfl
@[simp] theorem State.answers_group (w) (j : Nat) : (s.answers w).group j = s.group j := rfl
@[simp] theorem State.answers_dom (w) (j : Nat) : (s.answers w).dom j = s.dom j := rfl
@[simp] theorem State.answers_ctx (w) (j : Nat) : (s.answers w).ctx j = s.ctx j := rfl

/-! ### State.drew -/

@[simp] theorem State.drew_pending (k) : (s.drew k).pending = s.pending := rfl
@[simp] theorem State.drew_dtime (k) : (s.drew k).dtime = s.dtime := rfl
@[simp] theorem State.drew_regs (k) : (s.drew k).regs = s.regs := rfl
@[simp] theorem State.drew_txns (k) : (s.drew k).txns = s.txns := rfl
@[simp] theorem State.drew_groups (k) : (s.drew k).groups = s.groups := rfl
@[simp] theorem State.drew_cnt (k) : (s.drew k).cnt = s.cnt := rfl
@[simp] theorem State.drew_shadow (k) : (s.drew k).shadow = s.shadow := rfl
@[simp] theorem State.drew_snap (k) : (s.drew k).snap = s.snap := rfl
@[simp] theorem State.drew_errIrqs (k) : (s.drew k).errIrqs = s.errIrqs := rfl
@[simp] theorem State.drew_rdata (k) : (s.drew k).rdata = s.rdata := rfl
@[simp] theorem State.drew_cores (k) : (s.drew k).cores = s.cores := rfl
@[simp] theorem State.drew_imem (k) : (s.drew k).imem = s.imem := rfl
@[simp] theorem State.drew_spad (k) : (s.drew k).spad = s.spad := rfl
@[simp] theorem State.drew_rowPoison (k) : (s.drew k).rowPoison = s.rowPoison := rfl
@[simp] theorem State.drew_streams (k) : (s.drew k).streams = s.streams := rfl
@[simp] theorem State.drew_swapReqs (k) : (s.drew k).swapReqs = s.swapReqs := rfl
@[simp] theorem State.drew_mt (k) : (s.drew k).mt = s.mt := rfl
@[simp] theorem State.drew_da (k) : (s.drew k).da = s.da := rfl
@[simp] theorem State.drew_doms (k) : (s.drew k).doms = s.doms := rfl
@[simp] theorem State.drew_ctxs (k) : (s.drew k).ctxs = s.ctxs := rfl
@[simp] theorem State.drew_hif (k) : (s.drew k).hif = s.hif := rfl
@[simp] theorem State.drew_ctl (k) : (s.drew k).ctl = s.ctl := rfl
@[simp] theorem State.drew_sec (k) : (s.drew k).sec = s.sec := rfl
@[simp] theorem State.drew_rel (k) : (s.drew k).rel = s.rel := rfl
@[simp] theorem State.drew_brz (k) : (s.drew k).brz = s.brz := rfl
@[simp] theorem State.drew_isp (k) : (s.drew k).isp = s.isp := rfl
@[simp] theorem State.drew_video (k) : (s.drew k).video = s.video := rfl
@[simp] theorem State.drew_plm (k) : (s.drew k).plm = s.plm := rfl
@[simp] theorem State.drew_fabInj (k) : (s.drew k).fabInj = s.fabInj := rfl
@[simp] theorem State.drew_recs (k) : (s.drew k).recs = s.recs := rfl
@[simp] theorem State.drew_flash (k) : (s.drew k).flash = s.flash := rfl
@[simp] theorem State.drew_pins (k) : (s.drew k).pins = s.pins := rfl
@[simp] theorem State.drew_clk (k) : (s.drew k).clk = s.clk := rfl
@[simp] theorem State.drew_reg (k) (j : Nat) : (s.drew k).reg j = s.reg j := rfl
@[simp] theorem State.drew_fld (k) (j : Nat) (fl : Fld) : (s.drew k).fld j fl = s.fld j fl := rfl
@[simp] theorem State.drew_counter (k) (j : Nat) : (s.drew k).counter j = s.counter j := rfl
@[simp] theorem State.drew_core (k) (j : Nat) : (s.drew k).core j = s.core j := rfl
@[simp] theorem State.drew_txn (k) (j : Nat) : (s.drew k).txn j = s.txn j := rfl
@[simp] theorem State.drew_group (k) (j : Nat) : (s.drew k).group j = s.group j := rfl
@[simp] theorem State.drew_dom (k) (j : Nat) : (s.drew k).dom j = s.dom j := rfl
@[simp] theorem State.drew_ctx (k) (j : Nat) : (s.drew k).ctx j = s.ctx j := rfl

/-! ### State.at -/

@[simp] theorem State.at_pending (t) : (s.at t).pending = s.pending := rfl
@[simp] theorem State.at_regs (t) : (s.at t).regs = s.regs := rfl
@[simp] theorem State.at_txns (t) : (s.at t).txns = s.txns := rfl
@[simp] theorem State.at_groups (t) : (s.at t).groups = s.groups := rfl
@[simp] theorem State.at_cnt (t) : (s.at t).cnt = s.cnt := rfl
@[simp] theorem State.at_shadow (t) : (s.at t).shadow = s.shadow := rfl
@[simp] theorem State.at_snap (t) : (s.at t).snap = s.snap := rfl
@[simp] theorem State.at_errIrqs (t) : (s.at t).errIrqs = s.errIrqs := rfl
@[simp] theorem State.at_rdata (t) : (s.at t).rdata = s.rdata := rfl
@[simp] theorem State.at_free (t) : (s.at t).free = s.free := rfl
@[simp] theorem State.at_cores (t) : (s.at t).cores = s.cores := rfl
@[simp] theorem State.at_imem (t) : (s.at t).imem = s.imem := rfl
@[simp] theorem State.at_spad (t) : (s.at t).spad = s.spad := rfl
@[simp] theorem State.at_rowPoison (t) : (s.at t).rowPoison = s.rowPoison := rfl
@[simp] theorem State.at_streams (t) : (s.at t).streams = s.streams := rfl
@[simp] theorem State.at_swapReqs (t) : (s.at t).swapReqs = s.swapReqs := rfl
@[simp] theorem State.at_mt (t) : (s.at t).mt = s.mt := rfl
@[simp] theorem State.at_da (t) : (s.at t).da = s.da := rfl
@[simp] theorem State.at_doms (t) : (s.at t).doms = s.doms := rfl
@[simp] theorem State.at_ctxs (t) : (s.at t).ctxs = s.ctxs := rfl
@[simp] theorem State.at_hif (t) : (s.at t).hif = s.hif := rfl
@[simp] theorem State.at_ctl (t) : (s.at t).ctl = s.ctl := rfl
@[simp] theorem State.at_sec (t) : (s.at t).sec = s.sec := rfl
@[simp] theorem State.at_rel (t) : (s.at t).rel = s.rel := rfl
@[simp] theorem State.at_brz (t) : (s.at t).brz = s.brz := rfl
@[simp] theorem State.at_isp (t) : (s.at t).isp = s.isp := rfl
@[simp] theorem State.at_video (t) : (s.at t).video = s.video := rfl
@[simp] theorem State.at_plm (t) : (s.at t).plm = s.plm := rfl
@[simp] theorem State.at_fabInj (t) : (s.at t).fabInj = s.fabInj := rfl
@[simp] theorem State.at_recs (t) : (s.at t).recs = s.recs := rfl
@[simp] theorem State.at_flash (t) : (s.at t).flash = s.flash := rfl
@[simp] theorem State.at_pins (t) : (s.at t).pins = s.pins := rfl
@[simp] theorem State.at_clk (t) : (s.at t).clk = s.clk := rfl
@[simp] theorem State.at_reg (t) (j : Nat) : (s.at t).reg j = s.reg j := rfl
@[simp] theorem State.at_fld (t) (j : Nat) (fl : Fld) : (s.at t).fld j fl = s.fld j fl := rfl
@[simp] theorem State.at_counter (t) (j : Nat) : (s.at t).counter j = s.counter j := rfl
@[simp] theorem State.at_core (t) (j : Nat) : (s.at t).core j = s.core j := rfl
@[simp] theorem State.at_txn (t) (j : Nat) : (s.at t).txn j = s.txn j := rfl
@[simp] theorem State.at_group (t) (j : Nat) : (s.at t).group j = s.group j := rfl
@[simp] theorem State.at_dom (t) (j : Nat) : (s.at t).dom j = s.dom j := rfl
@[simp] theorem State.at_ctx (t) (j : Nat) : (s.at t).ctx j = s.ctx j := rfl

/-! ### State.addCnt -/

@[simp] theorem State.addCnt_pending (key k) : (s.addCnt key k).pending = s.pending := rfl
@[simp] theorem State.addCnt_dtime (key k) : (s.addCnt key k).dtime = s.dtime := rfl
@[simp] theorem State.addCnt_regs (key k) : (s.addCnt key k).regs = s.regs := rfl
@[simp] theorem State.addCnt_txns (key k) : (s.addCnt key k).txns = s.txns := rfl
@[simp] theorem State.addCnt_groups (key k) : (s.addCnt key k).groups = s.groups := rfl
@[simp] theorem State.addCnt_shadow (key k) : (s.addCnt key k).shadow = s.shadow := rfl
@[simp] theorem State.addCnt_snap (key k) : (s.addCnt key k).snap = s.snap := rfl
@[simp] theorem State.addCnt_errIrqs (key k) : (s.addCnt key k).errIrqs = s.errIrqs := rfl
@[simp] theorem State.addCnt_rdata (key k) : (s.addCnt key k).rdata = s.rdata := rfl
@[simp] theorem State.addCnt_free (key k) : (s.addCnt key k).free = s.free := rfl
@[simp] theorem State.addCnt_cores (key k) : (s.addCnt key k).cores = s.cores := rfl
@[simp] theorem State.addCnt_imem (key k) : (s.addCnt key k).imem = s.imem := rfl
@[simp] theorem State.addCnt_spad (key k) : (s.addCnt key k).spad = s.spad := rfl
@[simp] theorem State.addCnt_rowPoison (key k) : (s.addCnt key k).rowPoison = s.rowPoison := rfl
@[simp] theorem State.addCnt_streams (key k) : (s.addCnt key k).streams = s.streams := rfl
@[simp] theorem State.addCnt_swapReqs (key k) : (s.addCnt key k).swapReqs = s.swapReqs := rfl
@[simp] theorem State.addCnt_mt (key k) : (s.addCnt key k).mt = s.mt := rfl
@[simp] theorem State.addCnt_da (key k) : (s.addCnt key k).da = s.da := rfl
@[simp] theorem State.addCnt_doms (key k) : (s.addCnt key k).doms = s.doms := rfl
@[simp] theorem State.addCnt_ctxs (key k) : (s.addCnt key k).ctxs = s.ctxs := rfl
@[simp] theorem State.addCnt_hif (key k) : (s.addCnt key k).hif = s.hif := rfl
@[simp] theorem State.addCnt_ctl (key k) : (s.addCnt key k).ctl = s.ctl := rfl
@[simp] theorem State.addCnt_sec (key k) : (s.addCnt key k).sec = s.sec := rfl
@[simp] theorem State.addCnt_rel (key k) : (s.addCnt key k).rel = s.rel := rfl
@[simp] theorem State.addCnt_brz (key k) : (s.addCnt key k).brz = s.brz := rfl
@[simp] theorem State.addCnt_isp (key k) : (s.addCnt key k).isp = s.isp := rfl
@[simp] theorem State.addCnt_video (key k) : (s.addCnt key k).video = s.video := rfl
@[simp] theorem State.addCnt_plm (key k) : (s.addCnt key k).plm = s.plm := rfl
@[simp] theorem State.addCnt_fabInj (key k) : (s.addCnt key k).fabInj = s.fabInj := rfl
@[simp] theorem State.addCnt_recs (key k) : (s.addCnt key k).recs = s.recs := rfl
@[simp] theorem State.addCnt_flash (key k) : (s.addCnt key k).flash = s.flash := rfl
@[simp] theorem State.addCnt_pins (key k) : (s.addCnt key k).pins = s.pins := rfl
@[simp] theorem State.addCnt_clk (key k) : (s.addCnt key k).clk = s.clk := rfl
@[simp] theorem State.addCnt_reg (key k) (j : Nat) : (s.addCnt key k).reg j = s.reg j := rfl
@[simp] theorem State.addCnt_fld (key k) (j : Nat) (fl : Fld) : (s.addCnt key k).fld j fl = s.fld j fl := rfl
@[simp] theorem State.addCnt_core (key k) (j : Nat) : (s.addCnt key k).core j = s.core j := rfl
@[simp] theorem State.addCnt_txn (key k) (j : Nat) : (s.addCnt key k).txn j = s.txn j := rfl
@[simp] theorem State.addCnt_group (key k) (j : Nat) : (s.addCnt key k).group j = s.group j := rfl
@[simp] theorem State.addCnt_dom (key k) (j : Nat) : (s.addCnt key k).dom j = s.dom j := rfl
@[simp] theorem State.addCnt_ctx (key k) (j : Nat) : (s.addCnt key k).ctx j = s.ctx j := rfl

/-! ### State.count -/

@[simp] theorem State.count_pending (base i k) : (s.count base i k).pending = s.pending := rfl
@[simp] theorem State.count_dtime (base i k) : (s.count base i k).dtime = s.dtime := rfl
@[simp] theorem State.count_regs (base i k) : (s.count base i k).regs = s.regs := rfl
@[simp] theorem State.count_txns (base i k) : (s.count base i k).txns = s.txns := rfl
@[simp] theorem State.count_groups (base i k) : (s.count base i k).groups = s.groups := rfl
@[simp] theorem State.count_shadow (base i k) : (s.count base i k).shadow = s.shadow := rfl
@[simp] theorem State.count_snap (base i k) : (s.count base i k).snap = s.snap := rfl
@[simp] theorem State.count_errIrqs (base i k) : (s.count base i k).errIrqs = s.errIrqs := rfl
@[simp] theorem State.count_rdata (base i k) : (s.count base i k).rdata = s.rdata := rfl
@[simp] theorem State.count_free (base i k) : (s.count base i k).free = s.free := rfl
@[simp] theorem State.count_cores (base i k) : (s.count base i k).cores = s.cores := rfl
@[simp] theorem State.count_imem (base i k) : (s.count base i k).imem = s.imem := rfl
@[simp] theorem State.count_spad (base i k) : (s.count base i k).spad = s.spad := rfl
@[simp] theorem State.count_rowPoison (base i k) : (s.count base i k).rowPoison = s.rowPoison := rfl
@[simp] theorem State.count_streams (base i k) : (s.count base i k).streams = s.streams := rfl
@[simp] theorem State.count_swapReqs (base i k) : (s.count base i k).swapReqs = s.swapReqs := rfl
@[simp] theorem State.count_mt (base i k) : (s.count base i k).mt = s.mt := rfl
@[simp] theorem State.count_da (base i k) : (s.count base i k).da = s.da := rfl
@[simp] theorem State.count_doms (base i k) : (s.count base i k).doms = s.doms := rfl
@[simp] theorem State.count_ctxs (base i k) : (s.count base i k).ctxs = s.ctxs := rfl
@[simp] theorem State.count_hif (base i k) : (s.count base i k).hif = s.hif := rfl
@[simp] theorem State.count_ctl (base i k) : (s.count base i k).ctl = s.ctl := rfl
@[simp] theorem State.count_sec (base i k) : (s.count base i k).sec = s.sec := rfl
@[simp] theorem State.count_rel (base i k) : (s.count base i k).rel = s.rel := rfl
@[simp] theorem State.count_brz (base i k) : (s.count base i k).brz = s.brz := rfl
@[simp] theorem State.count_isp (base i k) : (s.count base i k).isp = s.isp := rfl
@[simp] theorem State.count_video (base i k) : (s.count base i k).video = s.video := rfl
@[simp] theorem State.count_plm (base i k) : (s.count base i k).plm = s.plm := rfl
@[simp] theorem State.count_fabInj (base i k) : (s.count base i k).fabInj = s.fabInj := rfl
@[simp] theorem State.count_recs (base i k) : (s.count base i k).recs = s.recs := rfl
@[simp] theorem State.count_flash (base i k) : (s.count base i k).flash = s.flash := rfl
@[simp] theorem State.count_pins (base i k) : (s.count base i k).pins = s.pins := rfl
@[simp] theorem State.count_clk (base i k) : (s.count base i k).clk = s.clk := rfl
@[simp] theorem State.count_reg (base i k) (j : Nat) : (s.count base i k).reg j = s.reg j := rfl
@[simp] theorem State.count_fld (base i k) (j : Nat) (fl : Fld) : (s.count base i k).fld j fl = s.fld j fl := rfl
@[simp] theorem State.count_core (base i k) (j : Nat) : (s.count base i k).core j = s.core j := rfl
@[simp] theorem State.count_txn (base i k) (j : Nat) : (s.count base i k).txn j = s.txn j := rfl
@[simp] theorem State.count_group (base i k) (j : Nat) : (s.count base i k).group j = s.group j := rfl
@[simp] theorem State.count_dom (base i k) (j : Nat) : (s.count base i k).dom j = s.dom j := rfl
@[simp] theorem State.count_ctx (base i k) (j : Nat) : (s.count base i k).ctx j = s.ctx j := rfl

/-! ### State.setFn -/

@[simp] theorem State.setFn_pending (f x) : (s.setFn f x).pending = s.pending := rfl
@[simp] theorem State.setFn_dtime (f x) : (s.setFn f x).dtime = s.dtime := rfl
@[simp] theorem State.setFn_regs (f x) : (s.setFn f x).regs = s.regs := rfl
@[simp] theorem State.setFn_txns (f x) : (s.setFn f x).txns = s.txns := rfl
@[simp] theorem State.setFn_groups (f x) : (s.setFn f x).groups = s.groups := rfl
@[simp] theorem State.setFn_cnt (f x) : (s.setFn f x).cnt = s.cnt := rfl
@[simp] theorem State.setFn_shadow (f x) : (s.setFn f x).shadow = s.shadow := rfl
@[simp] theorem State.setFn_snap (f x) : (s.setFn f x).snap = s.snap := rfl
@[simp] theorem State.setFn_errIrqs (f x) : (s.setFn f x).errIrqs = s.errIrqs := rfl
@[simp] theorem State.setFn_rdata (f x) : (s.setFn f x).rdata = s.rdata := rfl
@[simp] theorem State.setFn_free (f x) : (s.setFn f x).free = s.free := rfl
@[simp] theorem State.setFn_cores (f x) : (s.setFn f x).cores = s.cores := rfl
@[simp] theorem State.setFn_imem (f x) : (s.setFn f x).imem = s.imem := rfl
@[simp] theorem State.setFn_spad (f x) : (s.setFn f x).spad = s.spad := rfl
@[simp] theorem State.setFn_rowPoison (f x) : (s.setFn f x).rowPoison = s.rowPoison := rfl
@[simp] theorem State.setFn_streams (f x) : (s.setFn f x).streams = s.streams := rfl
@[simp] theorem State.setFn_swapReqs (f x) : (s.setFn f x).swapReqs = s.swapReqs := rfl
@[simp] theorem State.setFn_mt (f x) : (s.setFn f x).mt = s.mt := rfl
@[simp] theorem State.setFn_da (f x) : (s.setFn f x).da = s.da := rfl
@[simp] theorem State.setFn_doms (f x) : (s.setFn f x).doms = s.doms := rfl
@[simp] theorem State.setFn_ctxs (f x) : (s.setFn f x).ctxs = s.ctxs := rfl
@[simp] theorem State.setFn_ctl (f x) : (s.setFn f x).ctl = s.ctl := rfl
@[simp] theorem State.setFn_sec (f x) : (s.setFn f x).sec = s.sec := rfl
@[simp] theorem State.setFn_rel (f x) : (s.setFn f x).rel = s.rel := rfl
@[simp] theorem State.setFn_brz (f x) : (s.setFn f x).brz = s.brz := rfl
@[simp] theorem State.setFn_isp (f x) : (s.setFn f x).isp = s.isp := rfl
@[simp] theorem State.setFn_video (f x) : (s.setFn f x).video = s.video := rfl
@[simp] theorem State.setFn_plm (f x) : (s.setFn f x).plm = s.plm := rfl
@[simp] theorem State.setFn_fabInj (f x) : (s.setFn f x).fabInj = s.fabInj := rfl
@[simp] theorem State.setFn_recs (f x) : (s.setFn f x).recs = s.recs := rfl
@[simp] theorem State.setFn_flash (f x) : (s.setFn f x).flash = s.flash := rfl
@[simp] theorem State.setFn_pins (f x) : (s.setFn f x).pins = s.pins := rfl
@[simp] theorem State.setFn_clk (f x) : (s.setFn f x).clk = s.clk := rfl
@[simp] theorem State.setFn_reg (f x) (j : Nat) : (s.setFn f x).reg j = s.reg j := rfl
@[simp] theorem State.setFn_fld (f x) (j : Nat) (fl : Fld) : (s.setFn f x).fld j fl = s.fld j fl := rfl
@[simp] theorem State.setFn_counter (f x) (j : Nat) : (s.setFn f x).counter j = s.counter j := rfl
@[simp] theorem State.setFn_core (f x) (j : Nat) : (s.setFn f x).core j = s.core j := rfl
@[simp] theorem State.setFn_txn (f x) (j : Nat) : (s.setFn f x).txn j = s.txn j := rfl
@[simp] theorem State.setFn_group (f x) (j : Nat) : (s.setFn f x).group j = s.group j := rfl
@[simp] theorem State.setFn_dom (f x) (j : Nat) : (s.setFn f x).dom j = s.dom j := rfl
@[simp] theorem State.setFn_ctx (f x) (j : Nat) : (s.setFn f x).ctx j = s.ctx j := rfl

/-! ### State.modFn -/

@[simp] theorem State.modFn_pending (f g) : (s.modFn f g).pending = s.pending := rfl
@[simp] theorem State.modFn_dtime (f g) : (s.modFn f g).dtime = s.dtime := rfl
@[simp] theorem State.modFn_regs (f g) : (s.modFn f g).regs = s.regs := rfl
@[simp] theorem State.modFn_txns (f g) : (s.modFn f g).txns = s.txns := rfl
@[simp] theorem State.modFn_groups (f g) : (s.modFn f g).groups = s.groups := rfl
@[simp] theorem State.modFn_cnt (f g) : (s.modFn f g).cnt = s.cnt := rfl
@[simp] theorem State.modFn_shadow (f g) : (s.modFn f g).shadow = s.shadow := rfl
@[simp] theorem State.modFn_snap (f g) : (s.modFn f g).snap = s.snap := rfl
@[simp] theorem State.modFn_errIrqs (f g) : (s.modFn f g).errIrqs = s.errIrqs := rfl
@[simp] theorem State.modFn_rdata (f g) : (s.modFn f g).rdata = s.rdata := rfl
@[simp] theorem State.modFn_free (f g) : (s.modFn f g).free = s.free := rfl
@[simp] theorem State.modFn_cores (f g) : (s.modFn f g).cores = s.cores := rfl
@[simp] theorem State.modFn_imem (f g) : (s.modFn f g).imem = s.imem := rfl
@[simp] theorem State.modFn_spad (f g) : (s.modFn f g).spad = s.spad := rfl
@[simp] theorem State.modFn_rowPoison (f g) : (s.modFn f g).rowPoison = s.rowPoison := rfl
@[simp] theorem State.modFn_streams (f g) : (s.modFn f g).streams = s.streams := rfl
@[simp] theorem State.modFn_swapReqs (f g) : (s.modFn f g).swapReqs = s.swapReqs := rfl
@[simp] theorem State.modFn_mt (f g) : (s.modFn f g).mt = s.mt := rfl
@[simp] theorem State.modFn_da (f g) : (s.modFn f g).da = s.da := rfl
@[simp] theorem State.modFn_doms (f g) : (s.modFn f g).doms = s.doms := rfl
@[simp] theorem State.modFn_ctxs (f g) : (s.modFn f g).ctxs = s.ctxs := rfl
@[simp] theorem State.modFn_ctl (f g) : (s.modFn f g).ctl = s.ctl := rfl
@[simp] theorem State.modFn_sec (f g) : (s.modFn f g).sec = s.sec := rfl
@[simp] theorem State.modFn_rel (f g) : (s.modFn f g).rel = s.rel := rfl
@[simp] theorem State.modFn_brz (f g) : (s.modFn f g).brz = s.brz := rfl
@[simp] theorem State.modFn_isp (f g) : (s.modFn f g).isp = s.isp := rfl
@[simp] theorem State.modFn_video (f g) : (s.modFn f g).video = s.video := rfl
@[simp] theorem State.modFn_plm (f g) : (s.modFn f g).plm = s.plm := rfl
@[simp] theorem State.modFn_fabInj (f g) : (s.modFn f g).fabInj = s.fabInj := rfl
@[simp] theorem State.modFn_recs (f g) : (s.modFn f g).recs = s.recs := rfl
@[simp] theorem State.modFn_flash (f g) : (s.modFn f g).flash = s.flash := rfl
@[simp] theorem State.modFn_pins (f g) : (s.modFn f g).pins = s.pins := rfl
@[simp] theorem State.modFn_clk (f g) : (s.modFn f g).clk = s.clk := rfl
@[simp] theorem State.modFn_reg (f g) (j : Nat) : (s.modFn f g).reg j = s.reg j := rfl
@[simp] theorem State.modFn_fld (f g) (j : Nat) (fl : Fld) : (s.modFn f g).fld j fl = s.fld j fl := rfl
@[simp] theorem State.modFn_counter (f g) (j : Nat) : (s.modFn f g).counter j = s.counter j := rfl
@[simp] theorem State.modFn_core (f g) (j : Nat) : (s.modFn f g).core j = s.core j := rfl
@[simp] theorem State.modFn_txn (f g) (j : Nat) : (s.modFn f g).txn j = s.txn j := rfl
@[simp] theorem State.modFn_group (f g) (j : Nat) : (s.modFn f g).group j = s.group j := rfl
@[simp] theorem State.modFn_dom (f g) (j : Nat) : (s.modFn f g).dom j = s.dom j := rfl
@[simp] theorem State.modFn_ctx (f g) (j : Nat) : (s.modFn f g).ctx j = s.ctx j := rfl

/-! ### State.setRowTag -/

@[simp] theorem State.setRowTag_pending (n r src) : (s.setRowTag n r src).pending = s.pending := rfl
@[simp] theorem State.setRowTag_dtime (n r src) : (s.setRowTag n r src).dtime = s.dtime := rfl
@[simp] theorem State.setRowTag_regs (n r src) : (s.setRowTag n r src).regs = s.regs := rfl
@[simp] theorem State.setRowTag_txns (n r src) : (s.setRowTag n r src).txns = s.txns := rfl
@[simp] theorem State.setRowTag_groups (n r src) : (s.setRowTag n r src).groups = s.groups := rfl
@[simp] theorem State.setRowTag_cnt (n r src) : (s.setRowTag n r src).cnt = s.cnt := rfl
@[simp] theorem State.setRowTag_shadow (n r src) : (s.setRowTag n r src).shadow = s.shadow := rfl
@[simp] theorem State.setRowTag_snap (n r src) : (s.setRowTag n r src).snap = s.snap := rfl
@[simp] theorem State.setRowTag_errIrqs (n r src) : (s.setRowTag n r src).errIrqs = s.errIrqs := rfl
@[simp] theorem State.setRowTag_rdata (n r src) : (s.setRowTag n r src).rdata = s.rdata := rfl
@[simp] theorem State.setRowTag_free (n r src) : (s.setRowTag n r src).free = s.free := rfl
@[simp] theorem State.setRowTag_cores (n r src) : (s.setRowTag n r src).cores = s.cores := rfl
@[simp] theorem State.setRowTag_imem (n r src) : (s.setRowTag n r src).imem = s.imem := rfl
@[simp] theorem State.setRowTag_spad (n r src) : (s.setRowTag n r src).spad = s.spad := rfl
@[simp] theorem State.setRowTag_streams (n r src) : (s.setRowTag n r src).streams = s.streams := rfl
@[simp] theorem State.setRowTag_swapReqs (n r src) : (s.setRowTag n r src).swapReqs = s.swapReqs := rfl
@[simp] theorem State.setRowTag_mt (n r src) : (s.setRowTag n r src).mt = s.mt := rfl
@[simp] theorem State.setRowTag_da (n r src) : (s.setRowTag n r src).da = s.da := rfl
@[simp] theorem State.setRowTag_doms (n r src) : (s.setRowTag n r src).doms = s.doms := rfl
@[simp] theorem State.setRowTag_ctxs (n r src) : (s.setRowTag n r src).ctxs = s.ctxs := rfl
@[simp] theorem State.setRowTag_hif (n r src) : (s.setRowTag n r src).hif = s.hif := rfl
@[simp] theorem State.setRowTag_ctl (n r src) : (s.setRowTag n r src).ctl = s.ctl := rfl
@[simp] theorem State.setRowTag_sec (n r src) : (s.setRowTag n r src).sec = s.sec := rfl
@[simp] theorem State.setRowTag_rel (n r src) : (s.setRowTag n r src).rel = s.rel := rfl
@[simp] theorem State.setRowTag_brz (n r src) : (s.setRowTag n r src).brz = s.brz := rfl
@[simp] theorem State.setRowTag_isp (n r src) : (s.setRowTag n r src).isp = s.isp := rfl
@[simp] theorem State.setRowTag_video (n r src) : (s.setRowTag n r src).video = s.video := rfl
@[simp] theorem State.setRowTag_plm (n r src) : (s.setRowTag n r src).plm = s.plm := rfl
@[simp] theorem State.setRowTag_fabInj (n r src) : (s.setRowTag n r src).fabInj = s.fabInj := rfl
@[simp] theorem State.setRowTag_recs (n r src) : (s.setRowTag n r src).recs = s.recs := rfl
@[simp] theorem State.setRowTag_flash (n r src) : (s.setRowTag n r src).flash = s.flash := rfl
@[simp] theorem State.setRowTag_pins (n r src) : (s.setRowTag n r src).pins = s.pins := rfl
@[simp] theorem State.setRowTag_clk (n r src) : (s.setRowTag n r src).clk = s.clk := rfl
@[simp] theorem State.setRowTag_reg (n r src) (j : Nat) : (s.setRowTag n r src).reg j = s.reg j := rfl
@[simp] theorem State.setRowTag_fld (n r src) (j : Nat) (fl : Fld) : (s.setRowTag n r src).fld j fl = s.fld j fl := rfl
@[simp] theorem State.setRowTag_counter (n r src) (j : Nat) : (s.setRowTag n r src).counter j = s.counter j := rfl
@[simp] theorem State.setRowTag_core (n r src) (j : Nat) : (s.setRowTag n r src).core j = s.core j := rfl
@[simp] theorem State.setRowTag_txn (n r src) (j : Nat) : (s.setRowTag n r src).txn j = s.txn j := rfl
@[simp] theorem State.setRowTag_group (n r src) (j : Nat) : (s.setRowTag n r src).group j = s.group j := rfl
@[simp] theorem State.setRowTag_dom (n r src) (j : Nat) : (s.setRowTag n r src).dom j = s.dom j := rfl
@[simp] theorem State.setRowTag_ctx (n r src) (j : Nat) : (s.setRowTag n r src).ctx j = s.ctx j := rfl

/-! ### State.writeRow -/

@[simp] theorem State.writeRow_pending (n r bs src) : (s.writeRow n r bs src).pending = s.pending := rfl
@[simp] theorem State.writeRow_dtime (n r bs src) : (s.writeRow n r bs src).dtime = s.dtime := rfl
@[simp] theorem State.writeRow_regs (n r bs src) : (s.writeRow n r bs src).regs = s.regs := rfl
@[simp] theorem State.writeRow_txns (n r bs src) : (s.writeRow n r bs src).txns = s.txns := rfl
@[simp] theorem State.writeRow_groups (n r bs src) : (s.writeRow n r bs src).groups = s.groups := rfl
@[simp] theorem State.writeRow_cnt (n r bs src) : (s.writeRow n r bs src).cnt = s.cnt := rfl
@[simp] theorem State.writeRow_shadow (n r bs src) : (s.writeRow n r bs src).shadow = s.shadow := rfl
@[simp] theorem State.writeRow_snap (n r bs src) : (s.writeRow n r bs src).snap = s.snap := rfl
@[simp] theorem State.writeRow_errIrqs (n r bs src) : (s.writeRow n r bs src).errIrqs = s.errIrqs := rfl
@[simp] theorem State.writeRow_rdata (n r bs src) : (s.writeRow n r bs src).rdata = s.rdata := rfl
@[simp] theorem State.writeRow_free (n r bs src) : (s.writeRow n r bs src).free = s.free := rfl
@[simp] theorem State.writeRow_cores (n r bs src) : (s.writeRow n r bs src).cores = s.cores := rfl
@[simp] theorem State.writeRow_imem (n r bs src) : (s.writeRow n r bs src).imem = s.imem := rfl
@[simp] theorem State.writeRow_streams (n r bs src) : (s.writeRow n r bs src).streams = s.streams := rfl
@[simp] theorem State.writeRow_swapReqs (n r bs src) : (s.writeRow n r bs src).swapReqs = s.swapReqs := rfl
@[simp] theorem State.writeRow_mt (n r bs src) : (s.writeRow n r bs src).mt = s.mt := rfl
@[simp] theorem State.writeRow_da (n r bs src) : (s.writeRow n r bs src).da = s.da := rfl
@[simp] theorem State.writeRow_doms (n r bs src) : (s.writeRow n r bs src).doms = s.doms := rfl
@[simp] theorem State.writeRow_ctxs (n r bs src) : (s.writeRow n r bs src).ctxs = s.ctxs := rfl
@[simp] theorem State.writeRow_hif (n r bs src) : (s.writeRow n r bs src).hif = s.hif := rfl
@[simp] theorem State.writeRow_ctl (n r bs src) : (s.writeRow n r bs src).ctl = s.ctl := rfl
@[simp] theorem State.writeRow_sec (n r bs src) : (s.writeRow n r bs src).sec = s.sec := rfl
@[simp] theorem State.writeRow_rel (n r bs src) : (s.writeRow n r bs src).rel = s.rel := rfl
@[simp] theorem State.writeRow_brz (n r bs src) : (s.writeRow n r bs src).brz = s.brz := rfl
@[simp] theorem State.writeRow_isp (n r bs src) : (s.writeRow n r bs src).isp = s.isp := rfl
@[simp] theorem State.writeRow_video (n r bs src) : (s.writeRow n r bs src).video = s.video := rfl
@[simp] theorem State.writeRow_plm (n r bs src) : (s.writeRow n r bs src).plm = s.plm := rfl
@[simp] theorem State.writeRow_fabInj (n r bs src) : (s.writeRow n r bs src).fabInj = s.fabInj := rfl
@[simp] theorem State.writeRow_recs (n r bs src) : (s.writeRow n r bs src).recs = s.recs := rfl
@[simp] theorem State.writeRow_flash (n r bs src) : (s.writeRow n r bs src).flash = s.flash := rfl
@[simp] theorem State.writeRow_pins (n r bs src) : (s.writeRow n r bs src).pins = s.pins := rfl
@[simp] theorem State.writeRow_clk (n r bs src) : (s.writeRow n r bs src).clk = s.clk := rfl
@[simp] theorem State.writeRow_reg (n r bs src) (j : Nat) : (s.writeRow n r bs src).reg j = s.reg j := rfl
@[simp] theorem State.writeRow_fld (n r bs src) (j : Nat) (fl : Fld) : (s.writeRow n r bs src).fld j fl = s.fld j fl := rfl
@[simp] theorem State.writeRow_counter (n r bs src) (j : Nat) : (s.writeRow n r bs src).counter j = s.counter j := rfl
@[simp] theorem State.writeRow_core (n r bs src) (j : Nat) : (s.writeRow n r bs src).core j = s.core j := rfl
@[simp] theorem State.writeRow_txn (n r bs src) (j : Nat) : (s.writeRow n r bs src).txn j = s.txn j := rfl
@[simp] theorem State.writeRow_group (n r bs src) (j : Nat) : (s.writeRow n r bs src).group j = s.group j := rfl
@[simp] theorem State.writeRow_dom (n r bs src) (j : Nat) : (s.writeRow n r bs src).dom j = s.dom j := rfl
@[simp] theorem State.writeRow_ctx (n r bs src) (j : Nat) : (s.writeRow n r bs src).ctx j = s.ctx j := rfl

/-! ### State.setSlot -/

@[simp] theorem State.setSlot_pending (n i w) : (s.setSlot n i w).pending = s.pending := rfl
@[simp] theorem State.setSlot_dtime (n i w) : (s.setSlot n i w).dtime = s.dtime := rfl
@[simp] theorem State.setSlot_regs (n i w) : (s.setSlot n i w).regs = s.regs := rfl
@[simp] theorem State.setSlot_txns (n i w) : (s.setSlot n i w).txns = s.txns := rfl
@[simp] theorem State.setSlot_groups (n i w) : (s.setSlot n i w).groups = s.groups := rfl
@[simp] theorem State.setSlot_cnt (n i w) : (s.setSlot n i w).cnt = s.cnt := rfl
@[simp] theorem State.setSlot_shadow (n i w) : (s.setSlot n i w).shadow = s.shadow := rfl
@[simp] theorem State.setSlot_snap (n i w) : (s.setSlot n i w).snap = s.snap := rfl
@[simp] theorem State.setSlot_errIrqs (n i w) : (s.setSlot n i w).errIrqs = s.errIrqs := rfl
@[simp] theorem State.setSlot_rdata (n i w) : (s.setSlot n i w).rdata = s.rdata := rfl
@[simp] theorem State.setSlot_free (n i w) : (s.setSlot n i w).free = s.free := rfl
@[simp] theorem State.setSlot_cores (n i w) : (s.setSlot n i w).cores = s.cores := rfl
@[simp] theorem State.setSlot_spad (n i w) : (s.setSlot n i w).spad = s.spad := rfl
@[simp] theorem State.setSlot_rowPoison (n i w) : (s.setSlot n i w).rowPoison = s.rowPoison := rfl
@[simp] theorem State.setSlot_streams (n i w) : (s.setSlot n i w).streams = s.streams := rfl
@[simp] theorem State.setSlot_swapReqs (n i w) : (s.setSlot n i w).swapReqs = s.swapReqs := rfl
@[simp] theorem State.setSlot_mt (n i w) : (s.setSlot n i w).mt = s.mt := rfl
@[simp] theorem State.setSlot_da (n i w) : (s.setSlot n i w).da = s.da := rfl
@[simp] theorem State.setSlot_doms (n i w) : (s.setSlot n i w).doms = s.doms := rfl
@[simp] theorem State.setSlot_ctxs (n i w) : (s.setSlot n i w).ctxs = s.ctxs := rfl
@[simp] theorem State.setSlot_hif (n i w) : (s.setSlot n i w).hif = s.hif := rfl
@[simp] theorem State.setSlot_ctl (n i w) : (s.setSlot n i w).ctl = s.ctl := rfl
@[simp] theorem State.setSlot_sec (n i w) : (s.setSlot n i w).sec = s.sec := rfl
@[simp] theorem State.setSlot_rel (n i w) : (s.setSlot n i w).rel = s.rel := rfl
@[simp] theorem State.setSlot_brz (n i w) : (s.setSlot n i w).brz = s.brz := rfl
@[simp] theorem State.setSlot_isp (n i w) : (s.setSlot n i w).isp = s.isp := rfl
@[simp] theorem State.setSlot_video (n i w) : (s.setSlot n i w).video = s.video := rfl
@[simp] theorem State.setSlot_plm (n i w) : (s.setSlot n i w).plm = s.plm := rfl
@[simp] theorem State.setSlot_fabInj (n i w) : (s.setSlot n i w).fabInj = s.fabInj := rfl
@[simp] theorem State.setSlot_recs (n i w) : (s.setSlot n i w).recs = s.recs := rfl
@[simp] theorem State.setSlot_flash (n i w) : (s.setSlot n i w).flash = s.flash := rfl
@[simp] theorem State.setSlot_pins (n i w) : (s.setSlot n i w).pins = s.pins := rfl
@[simp] theorem State.setSlot_clk (n i w) : (s.setSlot n i w).clk = s.clk := rfl
@[simp] theorem State.setSlot_reg (n i w) (j : Nat) : (s.setSlot n i w).reg j = s.reg j := rfl
@[simp] theorem State.setSlot_fld (n i w) (j : Nat) (fl : Fld) : (s.setSlot n i w).fld j fl = s.fld j fl := rfl
@[simp] theorem State.setSlot_counter (n i w) (j : Nat) : (s.setSlot n i w).counter j = s.counter j := rfl
@[simp] theorem State.setSlot_core (n i w) (j : Nat) : (s.setSlot n i w).core j = s.core j := rfl
@[simp] theorem State.setSlot_txn (n i w) (j : Nat) : (s.setSlot n i w).txn j = s.txn j := rfl
@[simp] theorem State.setSlot_group (n i w) (j : Nat) : (s.setSlot n i w).group j = s.group j := rfl
@[simp] theorem State.setSlot_dom (n i w) (j : Nat) : (s.setSlot n i w).dom j = s.dom j := rfl
@[simp] theorem State.setSlot_ctx (n i w) (j : Nat) : (s.setSlot n i w).ctx j = s.ctx j := rfl

/-! ### State.setStr -/

@[simp] theorem State.setStr_pending (e w v) : (s.setStr e w v).pending = s.pending := rfl
@[simp] theorem State.setStr_dtime (e w v) : (s.setStr e w v).dtime = s.dtime := rfl
@[simp] theorem State.setStr_regs (e w v) : (s.setStr e w v).regs = s.regs := rfl
@[simp] theorem State.setStr_txns (e w v) : (s.setStr e w v).txns = s.txns := rfl
@[simp] theorem State.setStr_groups (e w v) : (s.setStr e w v).groups = s.groups := rfl
@[simp] theorem State.setStr_cnt (e w v) : (s.setStr e w v).cnt = s.cnt := rfl
@[simp] theorem State.setStr_shadow (e w v) : (s.setStr e w v).shadow = s.shadow := rfl
@[simp] theorem State.setStr_snap (e w v) : (s.setStr e w v).snap = s.snap := rfl
@[simp] theorem State.setStr_errIrqs (e w v) : (s.setStr e w v).errIrqs = s.errIrqs := rfl
@[simp] theorem State.setStr_rdata (e w v) : (s.setStr e w v).rdata = s.rdata := rfl
@[simp] theorem State.setStr_free (e w v) : (s.setStr e w v).free = s.free := rfl
@[simp] theorem State.setStr_cores (e w v) : (s.setStr e w v).cores = s.cores := rfl
@[simp] theorem State.setStr_imem (e w v) : (s.setStr e w v).imem = s.imem := rfl
@[simp] theorem State.setStr_spad (e w v) : (s.setStr e w v).spad = s.spad := rfl
@[simp] theorem State.setStr_rowPoison (e w v) : (s.setStr e w v).rowPoison = s.rowPoison := rfl
@[simp] theorem State.setStr_swapReqs (e w v) : (s.setStr e w v).swapReqs = s.swapReqs := rfl
@[simp] theorem State.setStr_mt (e w v) : (s.setStr e w v).mt = s.mt := rfl
@[simp] theorem State.setStr_da (e w v) : (s.setStr e w v).da = s.da := rfl
@[simp] theorem State.setStr_doms (e w v) : (s.setStr e w v).doms = s.doms := rfl
@[simp] theorem State.setStr_ctxs (e w v) : (s.setStr e w v).ctxs = s.ctxs := rfl
@[simp] theorem State.setStr_hif (e w v) : (s.setStr e w v).hif = s.hif := rfl
@[simp] theorem State.setStr_ctl (e w v) : (s.setStr e w v).ctl = s.ctl := rfl
@[simp] theorem State.setStr_sec (e w v) : (s.setStr e w v).sec = s.sec := rfl
@[simp] theorem State.setStr_rel (e w v) : (s.setStr e w v).rel = s.rel := rfl
@[simp] theorem State.setStr_brz (e w v) : (s.setStr e w v).brz = s.brz := rfl
@[simp] theorem State.setStr_isp (e w v) : (s.setStr e w v).isp = s.isp := rfl
@[simp] theorem State.setStr_video (e w v) : (s.setStr e w v).video = s.video := rfl
@[simp] theorem State.setStr_plm (e w v) : (s.setStr e w v).plm = s.plm := rfl
@[simp] theorem State.setStr_fabInj (e w v) : (s.setStr e w v).fabInj = s.fabInj := rfl
@[simp] theorem State.setStr_recs (e w v) : (s.setStr e w v).recs = s.recs := rfl
@[simp] theorem State.setStr_flash (e w v) : (s.setStr e w v).flash = s.flash := rfl
@[simp] theorem State.setStr_pins (e w v) : (s.setStr e w v).pins = s.pins := rfl
@[simp] theorem State.setStr_clk (e w v) : (s.setStr e w v).clk = s.clk := rfl
@[simp] theorem State.setStr_reg (e w v) (j : Nat) : (s.setStr e w v).reg j = s.reg j := rfl
@[simp] theorem State.setStr_fld (e w v) (j : Nat) (fl : Fld) : (s.setStr e w v).fld j fl = s.fld j fl := rfl
@[simp] theorem State.setStr_counter (e w v) (j : Nat) : (s.setStr e w v).counter j = s.counter j := rfl
@[simp] theorem State.setStr_core (e w v) (j : Nat) : (s.setStr e w v).core j = s.core j := rfl
@[simp] theorem State.setStr_txn (e w v) (j : Nat) : (s.setStr e w v).txn j = s.txn j := rfl
@[simp] theorem State.setStr_group (e w v) (j : Nat) : (s.setStr e w v).group j = s.group j := rfl
@[simp] theorem State.setStr_dom (e w v) (j : Nat) : (s.setStr e w v).dom j = s.dom j := rfl
@[simp] theorem State.setStr_ctx (e w v) (j : Nat) : (s.setStr e w v).ctx j = s.ctx j := rfl

/-! ### State.setPage -/

@[simp] theorem State.setPage_pending (p r) : (s.setPage p r).pending = s.pending := rfl
@[simp] theorem State.setPage_dtime (p r) : (s.setPage p r).dtime = s.dtime := rfl
@[simp] theorem State.setPage_regs (p r) : (s.setPage p r).regs = s.regs := rfl
@[simp] theorem State.setPage_txns (p r) : (s.setPage p r).txns = s.txns := rfl
@[simp] theorem State.setPage_groups (p r) : (s.setPage p r).groups = s.groups := rfl
@[simp] theorem State.setPage_cnt (p r) : (s.setPage p r).cnt = s.cnt := rfl
@[simp] theorem State.setPage_shadow (p r) : (s.setPage p r).shadow = s.shadow := rfl
@[simp] theorem State.setPage_snap (p r) : (s.setPage p r).snap = s.snap := rfl
@[simp] theorem State.setPage_errIrqs (p r) : (s.setPage p r).errIrqs = s.errIrqs := rfl
@[simp] theorem State.setPage_rdata (p r) : (s.setPage p r).rdata = s.rdata := rfl
@[simp] theorem State.setPage_free (p r) : (s.setPage p r).free = s.free := rfl
@[simp] theorem State.setPage_cores (p r) : (s.setPage p r).cores = s.cores := rfl
@[simp] theorem State.setPage_imem (p r) : (s.setPage p r).imem = s.imem := rfl
@[simp] theorem State.setPage_spad (p r) : (s.setPage p r).spad = s.spad := rfl
@[simp] theorem State.setPage_rowPoison (p r) : (s.setPage p r).rowPoison = s.rowPoison := rfl
@[simp] theorem State.setPage_streams (p r) : (s.setPage p r).streams = s.streams := rfl
@[simp] theorem State.setPage_swapReqs (p r) : (s.setPage p r).swapReqs = s.swapReqs := rfl
@[simp] theorem State.setPage_da (p r) : (s.setPage p r).da = s.da := rfl
@[simp] theorem State.setPage_doms (p r) : (s.setPage p r).doms = s.doms := rfl
@[simp] theorem State.setPage_ctxs (p r) : (s.setPage p r).ctxs = s.ctxs := rfl
@[simp] theorem State.setPage_hif (p r) : (s.setPage p r).hif = s.hif := rfl
@[simp] theorem State.setPage_ctl (p r) : (s.setPage p r).ctl = s.ctl := rfl
@[simp] theorem State.setPage_sec (p r) : (s.setPage p r).sec = s.sec := rfl
@[simp] theorem State.setPage_rel (p r) : (s.setPage p r).rel = s.rel := rfl
@[simp] theorem State.setPage_brz (p r) : (s.setPage p r).brz = s.brz := rfl
@[simp] theorem State.setPage_isp (p r) : (s.setPage p r).isp = s.isp := rfl
@[simp] theorem State.setPage_video (p r) : (s.setPage p r).video = s.video := rfl
@[simp] theorem State.setPage_plm (p r) : (s.setPage p r).plm = s.plm := rfl
@[simp] theorem State.setPage_fabInj (p r) : (s.setPage p r).fabInj = s.fabInj := rfl
@[simp] theorem State.setPage_recs (p r) : (s.setPage p r).recs = s.recs := rfl
@[simp] theorem State.setPage_flash (p r) : (s.setPage p r).flash = s.flash := rfl
@[simp] theorem State.setPage_pins (p r) : (s.setPage p r).pins = s.pins := rfl
@[simp] theorem State.setPage_clk (p r) : (s.setPage p r).clk = s.clk := rfl
@[simp] theorem State.setPage_reg (p r) (j : Nat) : (s.setPage p r).reg j = s.reg j := rfl
@[simp] theorem State.setPage_fld (p r) (j : Nat) (fl : Fld) : (s.setPage p r).fld j fl = s.fld j fl := rfl
@[simp] theorem State.setPage_counter (p r) (j : Nat) : (s.setPage p r).counter j = s.counter j := rfl
@[simp] theorem State.setPage_core (p r) (j : Nat) : (s.setPage p r).core j = s.core j := rfl
@[simp] theorem State.setPage_txn (p r) (j : Nat) : (s.setPage p r).txn j = s.txn j := rfl
@[simp] theorem State.setPage_group (p r) (j : Nat) : (s.setPage p r).group j = s.group j := rfl
@[simp] theorem State.setPage_dom (p r) (j : Nat) : (s.setPage p r).dom j = s.dom j := rfl
@[simp] theorem State.setPage_ctx (p r) (j : Nat) : (s.setPage p r).ctx j = s.ctx j := rfl

/-! ### State.setCtx -/

@[simp] theorem State.setCtx_pending (x c) : (s.setCtx x c).pending = s.pending := rfl
@[simp] theorem State.setCtx_dtime (x c) : (s.setCtx x c).dtime = s.dtime := rfl
@[simp] theorem State.setCtx_regs (x c) : (s.setCtx x c).regs = s.regs := rfl
@[simp] theorem State.setCtx_txns (x c) : (s.setCtx x c).txns = s.txns := rfl
@[simp] theorem State.setCtx_groups (x c) : (s.setCtx x c).groups = s.groups := rfl
@[simp] theorem State.setCtx_cnt (x c) : (s.setCtx x c).cnt = s.cnt := rfl
@[simp] theorem State.setCtx_shadow (x c) : (s.setCtx x c).shadow = s.shadow := rfl
@[simp] theorem State.setCtx_snap (x c) : (s.setCtx x c).snap = s.snap := rfl
@[simp] theorem State.setCtx_errIrqs (x c) : (s.setCtx x c).errIrqs = s.errIrqs := rfl
@[simp] theorem State.setCtx_rdata (x c) : (s.setCtx x c).rdata = s.rdata := rfl
@[simp] theorem State.setCtx_free (x c) : (s.setCtx x c).free = s.free := rfl
@[simp] theorem State.setCtx_cores (x c) : (s.setCtx x c).cores = s.cores := rfl
@[simp] theorem State.setCtx_imem (x c) : (s.setCtx x c).imem = s.imem := rfl
@[simp] theorem State.setCtx_spad (x c) : (s.setCtx x c).spad = s.spad := rfl
@[simp] theorem State.setCtx_rowPoison (x c) : (s.setCtx x c).rowPoison = s.rowPoison := rfl
@[simp] theorem State.setCtx_streams (x c) : (s.setCtx x c).streams = s.streams := rfl
@[simp] theorem State.setCtx_swapReqs (x c) : (s.setCtx x c).swapReqs = s.swapReqs := rfl
@[simp] theorem State.setCtx_mt (x c) : (s.setCtx x c).mt = s.mt := rfl
@[simp] theorem State.setCtx_da (x c) : (s.setCtx x c).da = s.da := rfl
@[simp] theorem State.setCtx_doms (x c) : (s.setCtx x c).doms = s.doms := rfl
@[simp] theorem State.setCtx_hif (x c) : (s.setCtx x c).hif = s.hif := rfl
@[simp] theorem State.setCtx_ctl (x c) : (s.setCtx x c).ctl = s.ctl := rfl
@[simp] theorem State.setCtx_sec (x c) : (s.setCtx x c).sec = s.sec := rfl
@[simp] theorem State.setCtx_rel (x c) : (s.setCtx x c).rel = s.rel := rfl
@[simp] theorem State.setCtx_brz (x c) : (s.setCtx x c).brz = s.brz := rfl
@[simp] theorem State.setCtx_isp (x c) : (s.setCtx x c).isp = s.isp := rfl
@[simp] theorem State.setCtx_video (x c) : (s.setCtx x c).video = s.video := rfl
@[simp] theorem State.setCtx_plm (x c) : (s.setCtx x c).plm = s.plm := rfl
@[simp] theorem State.setCtx_fabInj (x c) : (s.setCtx x c).fabInj = s.fabInj := rfl
@[simp] theorem State.setCtx_recs (x c) : (s.setCtx x c).recs = s.recs := rfl
@[simp] theorem State.setCtx_flash (x c) : (s.setCtx x c).flash = s.flash := rfl
@[simp] theorem State.setCtx_pins (x c) : (s.setCtx x c).pins = s.pins := rfl
@[simp] theorem State.setCtx_clk (x c) : (s.setCtx x c).clk = s.clk := rfl
@[simp] theorem State.setCtx_reg (x c) (j : Nat) : (s.setCtx x c).reg j = s.reg j := rfl
@[simp] theorem State.setCtx_fld (x c) (j : Nat) (fl : Fld) : (s.setCtx x c).fld j fl = s.fld j fl := rfl
@[simp] theorem State.setCtx_counter (x c) (j : Nat) : (s.setCtx x c).counter j = s.counter j := rfl
@[simp] theorem State.setCtx_core (x c) (j : Nat) : (s.setCtx x c).core j = s.core j := rfl
@[simp] theorem State.setCtx_txn (x c) (j : Nat) : (s.setCtx x c).txn j = s.txn j := rfl
@[simp] theorem State.setCtx_group (x c) (j : Nat) : (s.setCtx x c).group j = s.group j := rfl
@[simp] theorem State.setCtx_dom (x c) (j : Nat) : (s.setCtx x c).dom j = s.dom j := rfl

/-! ### State.modCtx -/

@[simp] theorem State.modCtx_pending (x f) : (s.modCtx x f).pending = s.pending := rfl
@[simp] theorem State.modCtx_dtime (x f) : (s.modCtx x f).dtime = s.dtime := rfl
@[simp] theorem State.modCtx_regs (x f) : (s.modCtx x f).regs = s.regs := rfl
@[simp] theorem State.modCtx_txns (x f) : (s.modCtx x f).txns = s.txns := rfl
@[simp] theorem State.modCtx_groups (x f) : (s.modCtx x f).groups = s.groups := rfl
@[simp] theorem State.modCtx_cnt (x f) : (s.modCtx x f).cnt = s.cnt := rfl
@[simp] theorem State.modCtx_shadow (x f) : (s.modCtx x f).shadow = s.shadow := rfl
@[simp] theorem State.modCtx_snap (x f) : (s.modCtx x f).snap = s.snap := rfl
@[simp] theorem State.modCtx_errIrqs (x f) : (s.modCtx x f).errIrqs = s.errIrqs := rfl
@[simp] theorem State.modCtx_rdata (x f) : (s.modCtx x f).rdata = s.rdata := rfl
@[simp] theorem State.modCtx_free (x f) : (s.modCtx x f).free = s.free := rfl
@[simp] theorem State.modCtx_cores (x f) : (s.modCtx x f).cores = s.cores := rfl
@[simp] theorem State.modCtx_imem (x f) : (s.modCtx x f).imem = s.imem := rfl
@[simp] theorem State.modCtx_spad (x f) : (s.modCtx x f).spad = s.spad := rfl
@[simp] theorem State.modCtx_rowPoison (x f) : (s.modCtx x f).rowPoison = s.rowPoison := rfl
@[simp] theorem State.modCtx_streams (x f) : (s.modCtx x f).streams = s.streams := rfl
@[simp] theorem State.modCtx_swapReqs (x f) : (s.modCtx x f).swapReqs = s.swapReqs := rfl
@[simp] theorem State.modCtx_mt (x f) : (s.modCtx x f).mt = s.mt := rfl
@[simp] theorem State.modCtx_da (x f) : (s.modCtx x f).da = s.da := rfl
@[simp] theorem State.modCtx_doms (x f) : (s.modCtx x f).doms = s.doms := rfl
@[simp] theorem State.modCtx_hif (x f) : (s.modCtx x f).hif = s.hif := rfl
@[simp] theorem State.modCtx_ctl (x f) : (s.modCtx x f).ctl = s.ctl := rfl
@[simp] theorem State.modCtx_sec (x f) : (s.modCtx x f).sec = s.sec := rfl
@[simp] theorem State.modCtx_rel (x f) : (s.modCtx x f).rel = s.rel := rfl
@[simp] theorem State.modCtx_brz (x f) : (s.modCtx x f).brz = s.brz := rfl
@[simp] theorem State.modCtx_isp (x f) : (s.modCtx x f).isp = s.isp := rfl
@[simp] theorem State.modCtx_video (x f) : (s.modCtx x f).video = s.video := rfl
@[simp] theorem State.modCtx_plm (x f) : (s.modCtx x f).plm = s.plm := rfl
@[simp] theorem State.modCtx_fabInj (x f) : (s.modCtx x f).fabInj = s.fabInj := rfl
@[simp] theorem State.modCtx_recs (x f) : (s.modCtx x f).recs = s.recs := rfl
@[simp] theorem State.modCtx_flash (x f) : (s.modCtx x f).flash = s.flash := rfl
@[simp] theorem State.modCtx_pins (x f) : (s.modCtx x f).pins = s.pins := rfl
@[simp] theorem State.modCtx_clk (x f) : (s.modCtx x f).clk = s.clk := rfl
@[simp] theorem State.modCtx_reg (x f) (j : Nat) : (s.modCtx x f).reg j = s.reg j := rfl
@[simp] theorem State.modCtx_fld (x f) (j : Nat) (fl : Fld) : (s.modCtx x f).fld j fl = s.fld j fl := rfl
@[simp] theorem State.modCtx_counter (x f) (j : Nat) : (s.modCtx x f).counter j = s.counter j := rfl
@[simp] theorem State.modCtx_core (x f) (j : Nat) : (s.modCtx x f).core j = s.core j := rfl
@[simp] theorem State.modCtx_txn (x f) (j : Nat) : (s.modCtx x f).txn j = s.txn j := rfl
@[simp] theorem State.modCtx_group (x f) (j : Nat) : (s.modCtx x f).group j = s.group j := rfl
@[simp] theorem State.modCtx_dom (x f) (j : Nat) : (s.modCtx x f).dom j = s.dom j := rfl

/-! ### State.setPort -/

@[simp] theorem State.setPort_pending (p x) : (s.setPort p x).pending = s.pending := rfl
@[simp] theorem State.setPort_dtime (p x) : (s.setPort p x).dtime = s.dtime := rfl
@[simp] theorem State.setPort_regs (p x) : (s.setPort p x).regs = s.regs := rfl
@[simp] theorem State.setPort_txns (p x) : (s.setPort p x).txns = s.txns := rfl
@[simp] theorem State.setPort_groups (p x) : (s.setPort p x).groups = s.groups := rfl
@[simp] theorem State.setPort_cnt (p x) : (s.setPort p x).cnt = s.cnt := rfl
@[simp] theorem State.setPort_shadow (p x) : (s.setPort p x).shadow = s.shadow := rfl
@[simp] theorem State.setPort_snap (p x) : (s.setPort p x).snap = s.snap := rfl
@[simp] theorem State.setPort_errIrqs (p x) : (s.setPort p x).errIrqs = s.errIrqs := rfl
@[simp] theorem State.setPort_rdata (p x) : (s.setPort p x).rdata = s.rdata := rfl
@[simp] theorem State.setPort_free (p x) : (s.setPort p x).free = s.free := rfl
@[simp] theorem State.setPort_cores (p x) : (s.setPort p x).cores = s.cores := rfl
@[simp] theorem State.setPort_imem (p x) : (s.setPort p x).imem = s.imem := rfl
@[simp] theorem State.setPort_spad (p x) : (s.setPort p x).spad = s.spad := rfl
@[simp] theorem State.setPort_rowPoison (p x) : (s.setPort p x).rowPoison = s.rowPoison := rfl
@[simp] theorem State.setPort_streams (p x) : (s.setPort p x).streams = s.streams := rfl
@[simp] theorem State.setPort_swapReqs (p x) : (s.setPort p x).swapReqs = s.swapReqs := rfl
@[simp] theorem State.setPort_mt (p x) : (s.setPort p x).mt = s.mt := rfl
@[simp] theorem State.setPort_da (p x) : (s.setPort p x).da = s.da := rfl
@[simp] theorem State.setPort_doms (p x) : (s.setPort p x).doms = s.doms := rfl
@[simp] theorem State.setPort_ctxs (p x) : (s.setPort p x).ctxs = s.ctxs := rfl
@[simp] theorem State.setPort_hif (p x) : (s.setPort p x).hif = s.hif := rfl
@[simp] theorem State.setPort_ctl (p x) : (s.setPort p x).ctl = s.ctl := rfl
@[simp] theorem State.setPort_sec (p x) : (s.setPort p x).sec = s.sec := rfl
@[simp] theorem State.setPort_rel (p x) : (s.setPort p x).rel = s.rel := rfl
@[simp] theorem State.setPort_brz (p x) : (s.setPort p x).brz = s.brz := rfl
@[simp] theorem State.setPort_isp (p x) : (s.setPort p x).isp = s.isp := rfl
@[simp] theorem State.setPort_video (p x) : (s.setPort p x).video = s.video := rfl
@[simp] theorem State.setPort_fabInj (p x) : (s.setPort p x).fabInj = s.fabInj := rfl
@[simp] theorem State.setPort_recs (p x) : (s.setPort p x).recs = s.recs := rfl
@[simp] theorem State.setPort_flash (p x) : (s.setPort p x).flash = s.flash := rfl
@[simp] theorem State.setPort_pins (p x) : (s.setPort p x).pins = s.pins := rfl
@[simp] theorem State.setPort_clk (p x) : (s.setPort p x).clk = s.clk := rfl
@[simp] theorem State.setPort_reg (p x) (j : Nat) : (s.setPort p x).reg j = s.reg j := rfl
@[simp] theorem State.setPort_fld (p x) (j : Nat) (fl : Fld) : (s.setPort p x).fld j fl = s.fld j fl := rfl
@[simp] theorem State.setPort_counter (p x) (j : Nat) : (s.setPort p x).counter j = s.counter j := rfl
@[simp] theorem State.setPort_core (p x) (j : Nat) : (s.setPort p x).core j = s.core j := rfl
@[simp] theorem State.setPort_txn (p x) (j : Nat) : (s.setPort p x).txn j = s.txn j := rfl
@[simp] theorem State.setPort_group (p x) (j : Nat) : (s.setPort p x).group j = s.group j := rfl
@[simp] theorem State.setPort_dom (p x) (j : Nat) : (s.setPort p x).dom j = s.dom j := rfl
@[simp] theorem State.setPort_ctx (p x) (j : Nat) : (s.setPort p x).ctx j = s.ctx j := rfl

/-! ### State.modPort -/

@[simp] theorem State.modPort_pending (p f) : (s.modPort p f).pending = s.pending := rfl
@[simp] theorem State.modPort_dtime (p f) : (s.modPort p f).dtime = s.dtime := rfl
@[simp] theorem State.modPort_regs (p f) : (s.modPort p f).regs = s.regs := rfl
@[simp] theorem State.modPort_txns (p f) : (s.modPort p f).txns = s.txns := rfl
@[simp] theorem State.modPort_groups (p f) : (s.modPort p f).groups = s.groups := rfl
@[simp] theorem State.modPort_cnt (p f) : (s.modPort p f).cnt = s.cnt := rfl
@[simp] theorem State.modPort_shadow (p f) : (s.modPort p f).shadow = s.shadow := rfl
@[simp] theorem State.modPort_snap (p f) : (s.modPort p f).snap = s.snap := rfl
@[simp] theorem State.modPort_errIrqs (p f) : (s.modPort p f).errIrqs = s.errIrqs := rfl
@[simp] theorem State.modPort_rdata (p f) : (s.modPort p f).rdata = s.rdata := rfl
@[simp] theorem State.modPort_free (p f) : (s.modPort p f).free = s.free := rfl
@[simp] theorem State.modPort_cores (p f) : (s.modPort p f).cores = s.cores := rfl
@[simp] theorem State.modPort_imem (p f) : (s.modPort p f).imem = s.imem := rfl
@[simp] theorem State.modPort_spad (p f) : (s.modPort p f).spad = s.spad := rfl
@[simp] theorem State.modPort_rowPoison (p f) : (s.modPort p f).rowPoison = s.rowPoison := rfl
@[simp] theorem State.modPort_streams (p f) : (s.modPort p f).streams = s.streams := rfl
@[simp] theorem State.modPort_swapReqs (p f) : (s.modPort p f).swapReqs = s.swapReqs := rfl
@[simp] theorem State.modPort_mt (p f) : (s.modPort p f).mt = s.mt := rfl
@[simp] theorem State.modPort_da (p f) : (s.modPort p f).da = s.da := rfl
@[simp] theorem State.modPort_doms (p f) : (s.modPort p f).doms = s.doms := rfl
@[simp] theorem State.modPort_ctxs (p f) : (s.modPort p f).ctxs = s.ctxs := rfl
@[simp] theorem State.modPort_hif (p f) : (s.modPort p f).hif = s.hif := rfl
@[simp] theorem State.modPort_ctl (p f) : (s.modPort p f).ctl = s.ctl := rfl
@[simp] theorem State.modPort_sec (p f) : (s.modPort p f).sec = s.sec := rfl
@[simp] theorem State.modPort_rel (p f) : (s.modPort p f).rel = s.rel := rfl
@[simp] theorem State.modPort_brz (p f) : (s.modPort p f).brz = s.brz := rfl
@[simp] theorem State.modPort_isp (p f) : (s.modPort p f).isp = s.isp := rfl
@[simp] theorem State.modPort_video (p f) : (s.modPort p f).video = s.video := rfl
@[simp] theorem State.modPort_fabInj (p f) : (s.modPort p f).fabInj = s.fabInj := rfl
@[simp] theorem State.modPort_recs (p f) : (s.modPort p f).recs = s.recs := rfl
@[simp] theorem State.modPort_flash (p f) : (s.modPort p f).flash = s.flash := rfl
@[simp] theorem State.modPort_pins (p f) : (s.modPort p f).pins = s.pins := rfl
@[simp] theorem State.modPort_clk (p f) : (s.modPort p f).clk = s.clk := rfl
@[simp] theorem State.modPort_reg (p f) (j : Nat) : (s.modPort p f).reg j = s.reg j := rfl
@[simp] theorem State.modPort_fld (p f) (j : Nat) (fl : Fld) : (s.modPort p f).fld j fl = s.fld j fl := rfl
@[simp] theorem State.modPort_counter (p f) (j : Nat) : (s.modPort p f).counter j = s.counter j := rfl
@[simp] theorem State.modPort_core (p f) (j : Nat) : (s.modPort p f).core j = s.core j := rfl
@[simp] theorem State.modPort_txn (p f) (j : Nat) : (s.modPort p f).txn j = s.txn j := rfl
@[simp] theorem State.modPort_group (p f) (j : Nat) : (s.modPort p f).group j = s.group j := rfl
@[simp] theorem State.modPort_dom (p f) (j : Nat) : (s.modPort p f).dom j = s.dom j := rfl
@[simp] theorem State.modPort_ctx (p f) (j : Nat) : (s.modPort p f).ctx j = s.ctx j := rfl

/-! ### State.modMt -/

@[simp] theorem State.modMt_pending (f) : (s.modMt f).pending = s.pending := rfl
@[simp] theorem State.modMt_dtime (f) : (s.modMt f).dtime = s.dtime := rfl
@[simp] theorem State.modMt_regs (f) : (s.modMt f).regs = s.regs := rfl
@[simp] theorem State.modMt_txns (f) : (s.modMt f).txns = s.txns := rfl
@[simp] theorem State.modMt_groups (f) : (s.modMt f).groups = s.groups := rfl
@[simp] theorem State.modMt_cnt (f) : (s.modMt f).cnt = s.cnt := rfl
@[simp] theorem State.modMt_shadow (f) : (s.modMt f).shadow = s.shadow := rfl
@[simp] theorem State.modMt_snap (f) : (s.modMt f).snap = s.snap := rfl
@[simp] theorem State.modMt_errIrqs (f) : (s.modMt f).errIrqs = s.errIrqs := rfl
@[simp] theorem State.modMt_rdata (f) : (s.modMt f).rdata = s.rdata := rfl
@[simp] theorem State.modMt_free (f) : (s.modMt f).free = s.free := rfl
@[simp] theorem State.modMt_cores (f) : (s.modMt f).cores = s.cores := rfl
@[simp] theorem State.modMt_imem (f) : (s.modMt f).imem = s.imem := rfl
@[simp] theorem State.modMt_spad (f) : (s.modMt f).spad = s.spad := rfl
@[simp] theorem State.modMt_rowPoison (f) : (s.modMt f).rowPoison = s.rowPoison := rfl
@[simp] theorem State.modMt_streams (f) : (s.modMt f).streams = s.streams := rfl
@[simp] theorem State.modMt_swapReqs (f) : (s.modMt f).swapReqs = s.swapReqs := rfl
@[simp] theorem State.modMt_da (f) : (s.modMt f).da = s.da := rfl
@[simp] theorem State.modMt_doms (f) : (s.modMt f).doms = s.doms := rfl
@[simp] theorem State.modMt_ctxs (f) : (s.modMt f).ctxs = s.ctxs := rfl
@[simp] theorem State.modMt_hif (f) : (s.modMt f).hif = s.hif := rfl
@[simp] theorem State.modMt_ctl (f) : (s.modMt f).ctl = s.ctl := rfl
@[simp] theorem State.modMt_sec (f) : (s.modMt f).sec = s.sec := rfl
@[simp] theorem State.modMt_rel (f) : (s.modMt f).rel = s.rel := rfl
@[simp] theorem State.modMt_brz (f) : (s.modMt f).brz = s.brz := rfl
@[simp] theorem State.modMt_isp (f) : (s.modMt f).isp = s.isp := rfl
@[simp] theorem State.modMt_video (f) : (s.modMt f).video = s.video := rfl
@[simp] theorem State.modMt_plm (f) : (s.modMt f).plm = s.plm := rfl
@[simp] theorem State.modMt_fabInj (f) : (s.modMt f).fabInj = s.fabInj := rfl
@[simp] theorem State.modMt_recs (f) : (s.modMt f).recs = s.recs := rfl
@[simp] theorem State.modMt_flash (f) : (s.modMt f).flash = s.flash := rfl
@[simp] theorem State.modMt_pins (f) : (s.modMt f).pins = s.pins := rfl
@[simp] theorem State.modMt_clk (f) : (s.modMt f).clk = s.clk := rfl
@[simp] theorem State.modMt_reg (f) (j : Nat) : (s.modMt f).reg j = s.reg j := rfl
@[simp] theorem State.modMt_fld (f) (j : Nat) (fl : Fld) : (s.modMt f).fld j fl = s.fld j fl := rfl
@[simp] theorem State.modMt_counter (f) (j : Nat) : (s.modMt f).counter j = s.counter j := rfl
@[simp] theorem State.modMt_core (f) (j : Nat) : (s.modMt f).core j = s.core j := rfl
@[simp] theorem State.modMt_txn (f) (j : Nat) : (s.modMt f).txn j = s.txn j := rfl
@[simp] theorem State.modMt_group (f) (j : Nat) : (s.modMt f).group j = s.group j := rfl
@[simp] theorem State.modMt_dom (f) (j : Nat) : (s.modMt f).dom j = s.dom j := rfl
@[simp] theorem State.modMt_ctx (f) (j : Nat) : (s.modMt f).ctx j = s.ctx j := rfl

/-! ### State.modBrz -/

@[simp] theorem State.modBrz_pending (f) : (s.modBrz f).pending = s.pending := rfl
@[simp] theorem State.modBrz_dtime (f) : (s.modBrz f).dtime = s.dtime := rfl
@[simp] theorem State.modBrz_regs (f) : (s.modBrz f).regs = s.regs := rfl
@[simp] theorem State.modBrz_txns (f) : (s.modBrz f).txns = s.txns := rfl
@[simp] theorem State.modBrz_groups (f) : (s.modBrz f).groups = s.groups := rfl
@[simp] theorem State.modBrz_cnt (f) : (s.modBrz f).cnt = s.cnt := rfl
@[simp] theorem State.modBrz_shadow (f) : (s.modBrz f).shadow = s.shadow := rfl
@[simp] theorem State.modBrz_snap (f) : (s.modBrz f).snap = s.snap := rfl
@[simp] theorem State.modBrz_errIrqs (f) : (s.modBrz f).errIrqs = s.errIrqs := rfl
@[simp] theorem State.modBrz_rdata (f) : (s.modBrz f).rdata = s.rdata := rfl
@[simp] theorem State.modBrz_free (f) : (s.modBrz f).free = s.free := rfl
@[simp] theorem State.modBrz_cores (f) : (s.modBrz f).cores = s.cores := rfl
@[simp] theorem State.modBrz_imem (f) : (s.modBrz f).imem = s.imem := rfl
@[simp] theorem State.modBrz_spad (f) : (s.modBrz f).spad = s.spad := rfl
@[simp] theorem State.modBrz_rowPoison (f) : (s.modBrz f).rowPoison = s.rowPoison := rfl
@[simp] theorem State.modBrz_streams (f) : (s.modBrz f).streams = s.streams := rfl
@[simp] theorem State.modBrz_swapReqs (f) : (s.modBrz f).swapReqs = s.swapReqs := rfl
@[simp] theorem State.modBrz_mt (f) : (s.modBrz f).mt = s.mt := rfl
@[simp] theorem State.modBrz_da (f) : (s.modBrz f).da = s.da := rfl
@[simp] theorem State.modBrz_doms (f) : (s.modBrz f).doms = s.doms := rfl
@[simp] theorem State.modBrz_ctxs (f) : (s.modBrz f).ctxs = s.ctxs := rfl
@[simp] theorem State.modBrz_hif (f) : (s.modBrz f).hif = s.hif := rfl
@[simp] theorem State.modBrz_ctl (f) : (s.modBrz f).ctl = s.ctl := rfl
@[simp] theorem State.modBrz_sec (f) : (s.modBrz f).sec = s.sec := rfl
@[simp] theorem State.modBrz_rel (f) : (s.modBrz f).rel = s.rel := rfl
@[simp] theorem State.modBrz_isp (f) : (s.modBrz f).isp = s.isp := rfl
@[simp] theorem State.modBrz_video (f) : (s.modBrz f).video = s.video := rfl
@[simp] theorem State.modBrz_plm (f) : (s.modBrz f).plm = s.plm := rfl
@[simp] theorem State.modBrz_fabInj (f) : (s.modBrz f).fabInj = s.fabInj := rfl
@[simp] theorem State.modBrz_recs (f) : (s.modBrz f).recs = s.recs := rfl
@[simp] theorem State.modBrz_flash (f) : (s.modBrz f).flash = s.flash := rfl
@[simp] theorem State.modBrz_pins (f) : (s.modBrz f).pins = s.pins := rfl
@[simp] theorem State.modBrz_clk (f) : (s.modBrz f).clk = s.clk := rfl
@[simp] theorem State.modBrz_reg (f) (j : Nat) : (s.modBrz f).reg j = s.reg j := rfl
@[simp] theorem State.modBrz_fld (f) (j : Nat) (fl : Fld) : (s.modBrz f).fld j fl = s.fld j fl := rfl
@[simp] theorem State.modBrz_counter (f) (j : Nat) : (s.modBrz f).counter j = s.counter j := rfl
@[simp] theorem State.modBrz_core (f) (j : Nat) : (s.modBrz f).core j = s.core j := rfl
@[simp] theorem State.modBrz_txn (f) (j : Nat) : (s.modBrz f).txn j = s.txn j := rfl
@[simp] theorem State.modBrz_group (f) (j : Nat) : (s.modBrz f).group j = s.group j := rfl
@[simp] theorem State.modBrz_dom (f) (j : Nat) : (s.modBrz f).dom j = s.dom j := rfl
@[simp] theorem State.modBrz_ctx (f) (j : Nat) : (s.modBrz f).ctx j = s.ctx j := rfl

/-! ### State.modIsp -/

@[simp] theorem State.modIsp_pending (f) : (s.modIsp f).pending = s.pending := rfl
@[simp] theorem State.modIsp_dtime (f) : (s.modIsp f).dtime = s.dtime := rfl
@[simp] theorem State.modIsp_regs (f) : (s.modIsp f).regs = s.regs := rfl
@[simp] theorem State.modIsp_txns (f) : (s.modIsp f).txns = s.txns := rfl
@[simp] theorem State.modIsp_groups (f) : (s.modIsp f).groups = s.groups := rfl
@[simp] theorem State.modIsp_cnt (f) : (s.modIsp f).cnt = s.cnt := rfl
@[simp] theorem State.modIsp_shadow (f) : (s.modIsp f).shadow = s.shadow := rfl
@[simp] theorem State.modIsp_snap (f) : (s.modIsp f).snap = s.snap := rfl
@[simp] theorem State.modIsp_errIrqs (f) : (s.modIsp f).errIrqs = s.errIrqs := rfl
@[simp] theorem State.modIsp_rdata (f) : (s.modIsp f).rdata = s.rdata := rfl
@[simp] theorem State.modIsp_free (f) : (s.modIsp f).free = s.free := rfl
@[simp] theorem State.modIsp_cores (f) : (s.modIsp f).cores = s.cores := rfl
@[simp] theorem State.modIsp_imem (f) : (s.modIsp f).imem = s.imem := rfl
@[simp] theorem State.modIsp_spad (f) : (s.modIsp f).spad = s.spad := rfl
@[simp] theorem State.modIsp_rowPoison (f) : (s.modIsp f).rowPoison = s.rowPoison := rfl
@[simp] theorem State.modIsp_streams (f) : (s.modIsp f).streams = s.streams := rfl
@[simp] theorem State.modIsp_swapReqs (f) : (s.modIsp f).swapReqs = s.swapReqs := rfl
@[simp] theorem State.modIsp_mt (f) : (s.modIsp f).mt = s.mt := rfl
@[simp] theorem State.modIsp_da (f) : (s.modIsp f).da = s.da := rfl
@[simp] theorem State.modIsp_doms (f) : (s.modIsp f).doms = s.doms := rfl
@[simp] theorem State.modIsp_ctxs (f) : (s.modIsp f).ctxs = s.ctxs := rfl
@[simp] theorem State.modIsp_hif (f) : (s.modIsp f).hif = s.hif := rfl
@[simp] theorem State.modIsp_ctl (f) : (s.modIsp f).ctl = s.ctl := rfl
@[simp] theorem State.modIsp_sec (f) : (s.modIsp f).sec = s.sec := rfl
@[simp] theorem State.modIsp_rel (f) : (s.modIsp f).rel = s.rel := rfl
@[simp] theorem State.modIsp_brz (f) : (s.modIsp f).brz = s.brz := rfl
@[simp] theorem State.modIsp_video (f) : (s.modIsp f).video = s.video := rfl
@[simp] theorem State.modIsp_plm (f) : (s.modIsp f).plm = s.plm := rfl
@[simp] theorem State.modIsp_fabInj (f) : (s.modIsp f).fabInj = s.fabInj := rfl
@[simp] theorem State.modIsp_recs (f) : (s.modIsp f).recs = s.recs := rfl
@[simp] theorem State.modIsp_flash (f) : (s.modIsp f).flash = s.flash := rfl
@[simp] theorem State.modIsp_pins (f) : (s.modIsp f).pins = s.pins := rfl
@[simp] theorem State.modIsp_clk (f) : (s.modIsp f).clk = s.clk := rfl
@[simp] theorem State.modIsp_reg (f) (j : Nat) : (s.modIsp f).reg j = s.reg j := rfl
@[simp] theorem State.modIsp_fld (f) (j : Nat) (fl : Fld) : (s.modIsp f).fld j fl = s.fld j fl := rfl
@[simp] theorem State.modIsp_counter (f) (j : Nat) : (s.modIsp f).counter j = s.counter j := rfl
@[simp] theorem State.modIsp_core (f) (j : Nat) : (s.modIsp f).core j = s.core j := rfl
@[simp] theorem State.modIsp_txn (f) (j : Nat) : (s.modIsp f).txn j = s.txn j := rfl
@[simp] theorem State.modIsp_group (f) (j : Nat) : (s.modIsp f).group j = s.group j := rfl
@[simp] theorem State.modIsp_dom (f) (j : Nat) : (s.modIsp f).dom j = s.dom j := rfl
@[simp] theorem State.modIsp_ctx (f) (j : Nat) : (s.modIsp f).ctx j = s.ctx j := rfl

/-! ### State.modVid -/

@[simp] theorem State.modVid_pending (f) : (s.modVid f).pending = s.pending := rfl
@[simp] theorem State.modVid_dtime (f) : (s.modVid f).dtime = s.dtime := rfl
@[simp] theorem State.modVid_regs (f) : (s.modVid f).regs = s.regs := rfl
@[simp] theorem State.modVid_txns (f) : (s.modVid f).txns = s.txns := rfl
@[simp] theorem State.modVid_groups (f) : (s.modVid f).groups = s.groups := rfl
@[simp] theorem State.modVid_cnt (f) : (s.modVid f).cnt = s.cnt := rfl
@[simp] theorem State.modVid_shadow (f) : (s.modVid f).shadow = s.shadow := rfl
@[simp] theorem State.modVid_snap (f) : (s.modVid f).snap = s.snap := rfl
@[simp] theorem State.modVid_errIrqs (f) : (s.modVid f).errIrqs = s.errIrqs := rfl
@[simp] theorem State.modVid_rdata (f) : (s.modVid f).rdata = s.rdata := rfl
@[simp] theorem State.modVid_free (f) : (s.modVid f).free = s.free := rfl
@[simp] theorem State.modVid_cores (f) : (s.modVid f).cores = s.cores := rfl
@[simp] theorem State.modVid_imem (f) : (s.modVid f).imem = s.imem := rfl
@[simp] theorem State.modVid_spad (f) : (s.modVid f).spad = s.spad := rfl
@[simp] theorem State.modVid_rowPoison (f) : (s.modVid f).rowPoison = s.rowPoison := rfl
@[simp] theorem State.modVid_streams (f) : (s.modVid f).streams = s.streams := rfl
@[simp] theorem State.modVid_swapReqs (f) : (s.modVid f).swapReqs = s.swapReqs := rfl
@[simp] theorem State.modVid_mt (f) : (s.modVid f).mt = s.mt := rfl
@[simp] theorem State.modVid_da (f) : (s.modVid f).da = s.da := rfl
@[simp] theorem State.modVid_doms (f) : (s.modVid f).doms = s.doms := rfl
@[simp] theorem State.modVid_ctxs (f) : (s.modVid f).ctxs = s.ctxs := rfl
@[simp] theorem State.modVid_hif (f) : (s.modVid f).hif = s.hif := rfl
@[simp] theorem State.modVid_ctl (f) : (s.modVid f).ctl = s.ctl := rfl
@[simp] theorem State.modVid_sec (f) : (s.modVid f).sec = s.sec := rfl
@[simp] theorem State.modVid_rel (f) : (s.modVid f).rel = s.rel := rfl
@[simp] theorem State.modVid_brz (f) : (s.modVid f).brz = s.brz := rfl
@[simp] theorem State.modVid_isp (f) : (s.modVid f).isp = s.isp := rfl
@[simp] theorem State.modVid_plm (f) : (s.modVid f).plm = s.plm := rfl
@[simp] theorem State.modVid_fabInj (f) : (s.modVid f).fabInj = s.fabInj := rfl
@[simp] theorem State.modVid_recs (f) : (s.modVid f).recs = s.recs := rfl
@[simp] theorem State.modVid_flash (f) : (s.modVid f).flash = s.flash := rfl
@[simp] theorem State.modVid_pins (f) : (s.modVid f).pins = s.pins := rfl
@[simp] theorem State.modVid_clk (f) : (s.modVid f).clk = s.clk := rfl
@[simp] theorem State.modVid_reg (f) (j : Nat) : (s.modVid f).reg j = s.reg j := rfl
@[simp] theorem State.modVid_fld (f) (j : Nat) (fl : Fld) : (s.modVid f).fld j fl = s.fld j fl := rfl
@[simp] theorem State.modVid_counter (f) (j : Nat) : (s.modVid f).counter j = s.counter j := rfl
@[simp] theorem State.modVid_core (f) (j : Nat) : (s.modVid f).core j = s.core j := rfl
@[simp] theorem State.modVid_txn (f) (j : Nat) : (s.modVid f).txn j = s.txn j := rfl
@[simp] theorem State.modVid_group (f) (j : Nat) : (s.modVid f).group j = s.group j := rfl
@[simp] theorem State.modVid_dom (f) (j : Nat) : (s.modVid f).dom j = s.dom j := rfl
@[simp] theorem State.modVid_ctx (f) (j : Nat) : (s.modVid f).ctx j = s.ctx j := rfl

/-! ### State.modCtl -/

@[simp] theorem State.modCtl_pending (f) : (s.modCtl f).pending = s.pending := rfl
@[simp] theorem State.modCtl_dtime (f) : (s.modCtl f).dtime = s.dtime := rfl
@[simp] theorem State.modCtl_regs (f) : (s.modCtl f).regs = s.regs := rfl
@[simp] theorem State.modCtl_txns (f) : (s.modCtl f).txns = s.txns := rfl
@[simp] theorem State.modCtl_groups (f) : (s.modCtl f).groups = s.groups := rfl
@[simp] theorem State.modCtl_cnt (f) : (s.modCtl f).cnt = s.cnt := rfl
@[simp] theorem State.modCtl_shadow (f) : (s.modCtl f).shadow = s.shadow := rfl
@[simp] theorem State.modCtl_snap (f) : (s.modCtl f).snap = s.snap := rfl
@[simp] theorem State.modCtl_errIrqs (f) : (s.modCtl f).errIrqs = s.errIrqs := rfl
@[simp] theorem State.modCtl_rdata (f) : (s.modCtl f).rdata = s.rdata := rfl
@[simp] theorem State.modCtl_free (f) : (s.modCtl f).free = s.free := rfl
@[simp] theorem State.modCtl_cores (f) : (s.modCtl f).cores = s.cores := rfl
@[simp] theorem State.modCtl_imem (f) : (s.modCtl f).imem = s.imem := rfl
@[simp] theorem State.modCtl_spad (f) : (s.modCtl f).spad = s.spad := rfl
@[simp] theorem State.modCtl_rowPoison (f) : (s.modCtl f).rowPoison = s.rowPoison := rfl
@[simp] theorem State.modCtl_streams (f) : (s.modCtl f).streams = s.streams := rfl
@[simp] theorem State.modCtl_swapReqs (f) : (s.modCtl f).swapReqs = s.swapReqs := rfl
@[simp] theorem State.modCtl_mt (f) : (s.modCtl f).mt = s.mt := rfl
@[simp] theorem State.modCtl_da (f) : (s.modCtl f).da = s.da := rfl
@[simp] theorem State.modCtl_doms (f) : (s.modCtl f).doms = s.doms := rfl
@[simp] theorem State.modCtl_ctxs (f) : (s.modCtl f).ctxs = s.ctxs := rfl
@[simp] theorem State.modCtl_hif (f) : (s.modCtl f).hif = s.hif := rfl
@[simp] theorem State.modCtl_sec (f) : (s.modCtl f).sec = s.sec := rfl
@[simp] theorem State.modCtl_rel (f) : (s.modCtl f).rel = s.rel := rfl
@[simp] theorem State.modCtl_brz (f) : (s.modCtl f).brz = s.brz := rfl
@[simp] theorem State.modCtl_isp (f) : (s.modCtl f).isp = s.isp := rfl
@[simp] theorem State.modCtl_video (f) : (s.modCtl f).video = s.video := rfl
@[simp] theorem State.modCtl_plm (f) : (s.modCtl f).plm = s.plm := rfl
@[simp] theorem State.modCtl_fabInj (f) : (s.modCtl f).fabInj = s.fabInj := rfl
@[simp] theorem State.modCtl_recs (f) : (s.modCtl f).recs = s.recs := rfl
@[simp] theorem State.modCtl_flash (f) : (s.modCtl f).flash = s.flash := rfl
@[simp] theorem State.modCtl_pins (f) : (s.modCtl f).pins = s.pins := rfl
@[simp] theorem State.modCtl_clk (f) : (s.modCtl f).clk = s.clk := rfl
@[simp] theorem State.modCtl_reg (f) (j : Nat) : (s.modCtl f).reg j = s.reg j := rfl
@[simp] theorem State.modCtl_fld (f) (j : Nat) (fl : Fld) : (s.modCtl f).fld j fl = s.fld j fl := rfl
@[simp] theorem State.modCtl_counter (f) (j : Nat) : (s.modCtl f).counter j = s.counter j := rfl
@[simp] theorem State.modCtl_core (f) (j : Nat) : (s.modCtl f).core j = s.core j := rfl
@[simp] theorem State.modCtl_txn (f) (j : Nat) : (s.modCtl f).txn j = s.txn j := rfl
@[simp] theorem State.modCtl_group (f) (j : Nat) : (s.modCtl f).group j = s.group j := rfl
@[simp] theorem State.modCtl_dom (f) (j : Nat) : (s.modCtl f).dom j = s.dom j := rfl
@[simp] theorem State.modCtl_ctx (f) (j : Nat) : (s.modCtl f).ctx j = s.ctx j := rfl

/-! ### State.modRel -/

@[simp] theorem State.modRel_pending (f) : (s.modRel f).pending = s.pending := rfl
@[simp] theorem State.modRel_dtime (f) : (s.modRel f).dtime = s.dtime := rfl
@[simp] theorem State.modRel_regs (f) : (s.modRel f).regs = s.regs := rfl
@[simp] theorem State.modRel_txns (f) : (s.modRel f).txns = s.txns := rfl
@[simp] theorem State.modRel_groups (f) : (s.modRel f).groups = s.groups := rfl
@[simp] theorem State.modRel_cnt (f) : (s.modRel f).cnt = s.cnt := rfl
@[simp] theorem State.modRel_shadow (f) : (s.modRel f).shadow = s.shadow := rfl
@[simp] theorem State.modRel_snap (f) : (s.modRel f).snap = s.snap := rfl
@[simp] theorem State.modRel_errIrqs (f) : (s.modRel f).errIrqs = s.errIrqs := rfl
@[simp] theorem State.modRel_rdata (f) : (s.modRel f).rdata = s.rdata := rfl
@[simp] theorem State.modRel_free (f) : (s.modRel f).free = s.free := rfl
@[simp] theorem State.modRel_cores (f) : (s.modRel f).cores = s.cores := rfl
@[simp] theorem State.modRel_imem (f) : (s.modRel f).imem = s.imem := rfl
@[simp] theorem State.modRel_spad (f) : (s.modRel f).spad = s.spad := rfl
@[simp] theorem State.modRel_rowPoison (f) : (s.modRel f).rowPoison = s.rowPoison := rfl
@[simp] theorem State.modRel_streams (f) : (s.modRel f).streams = s.streams := rfl
@[simp] theorem State.modRel_swapReqs (f) : (s.modRel f).swapReqs = s.swapReqs := rfl
@[simp] theorem State.modRel_mt (f) : (s.modRel f).mt = s.mt := rfl
@[simp] theorem State.modRel_da (f) : (s.modRel f).da = s.da := rfl
@[simp] theorem State.modRel_doms (f) : (s.modRel f).doms = s.doms := rfl
@[simp] theorem State.modRel_ctxs (f) : (s.modRel f).ctxs = s.ctxs := rfl
@[simp] theorem State.modRel_hif (f) : (s.modRel f).hif = s.hif := rfl
@[simp] theorem State.modRel_ctl (f) : (s.modRel f).ctl = s.ctl := rfl
@[simp] theorem State.modRel_sec (f) : (s.modRel f).sec = s.sec := rfl
@[simp] theorem State.modRel_brz (f) : (s.modRel f).brz = s.brz := rfl
@[simp] theorem State.modRel_isp (f) : (s.modRel f).isp = s.isp := rfl
@[simp] theorem State.modRel_video (f) : (s.modRel f).video = s.video := rfl
@[simp] theorem State.modRel_plm (f) : (s.modRel f).plm = s.plm := rfl
@[simp] theorem State.modRel_fabInj (f) : (s.modRel f).fabInj = s.fabInj := rfl
@[simp] theorem State.modRel_recs (f) : (s.modRel f).recs = s.recs := rfl
@[simp] theorem State.modRel_flash (f) : (s.modRel f).flash = s.flash := rfl
@[simp] theorem State.modRel_pins (f) : (s.modRel f).pins = s.pins := rfl
@[simp] theorem State.modRel_clk (f) : (s.modRel f).clk = s.clk := rfl
@[simp] theorem State.modRel_reg (f) (j : Nat) : (s.modRel f).reg j = s.reg j := rfl
@[simp] theorem State.modRel_fld (f) (j : Nat) (fl : Fld) : (s.modRel f).fld j fl = s.fld j fl := rfl
@[simp] theorem State.modRel_counter (f) (j : Nat) : (s.modRel f).counter j = s.counter j := rfl
@[simp] theorem State.modRel_core (f) (j : Nat) : (s.modRel f).core j = s.core j := rfl
@[simp] theorem State.modRel_txn (f) (j : Nat) : (s.modRel f).txn j = s.txn j := rfl
@[simp] theorem State.modRel_group (f) (j : Nat) : (s.modRel f).group j = s.group j := rfl
@[simp] theorem State.modRel_dom (f) (j : Nat) : (s.modRel f).dom j = s.dom j := rfl
@[simp] theorem State.modRel_ctx (f) (j : Nat) : (s.modRel f).ctx j = s.ctx j := rfl

/-! ### State.modFlash -/

@[simp] theorem State.modFlash_pending (f) : (s.modFlash f).pending = s.pending := rfl
@[simp] theorem State.modFlash_dtime (f) : (s.modFlash f).dtime = s.dtime := rfl
@[simp] theorem State.modFlash_regs (f) : (s.modFlash f).regs = s.regs := rfl
@[simp] theorem State.modFlash_txns (f) : (s.modFlash f).txns = s.txns := rfl
@[simp] theorem State.modFlash_groups (f) : (s.modFlash f).groups = s.groups := rfl
@[simp] theorem State.modFlash_cnt (f) : (s.modFlash f).cnt = s.cnt := rfl
@[simp] theorem State.modFlash_shadow (f) : (s.modFlash f).shadow = s.shadow := rfl
@[simp] theorem State.modFlash_snap (f) : (s.modFlash f).snap = s.snap := rfl
@[simp] theorem State.modFlash_errIrqs (f) : (s.modFlash f).errIrqs = s.errIrqs := rfl
@[simp] theorem State.modFlash_rdata (f) : (s.modFlash f).rdata = s.rdata := rfl
@[simp] theorem State.modFlash_free (f) : (s.modFlash f).free = s.free := rfl
@[simp] theorem State.modFlash_cores (f) : (s.modFlash f).cores = s.cores := rfl
@[simp] theorem State.modFlash_imem (f) : (s.modFlash f).imem = s.imem := rfl
@[simp] theorem State.modFlash_spad (f) : (s.modFlash f).spad = s.spad := rfl
@[simp] theorem State.modFlash_rowPoison (f) : (s.modFlash f).rowPoison = s.rowPoison := rfl
@[simp] theorem State.modFlash_streams (f) : (s.modFlash f).streams = s.streams := rfl
@[simp] theorem State.modFlash_swapReqs (f) : (s.modFlash f).swapReqs = s.swapReqs := rfl
@[simp] theorem State.modFlash_mt (f) : (s.modFlash f).mt = s.mt := rfl
@[simp] theorem State.modFlash_da (f) : (s.modFlash f).da = s.da := rfl
@[simp] theorem State.modFlash_doms (f) : (s.modFlash f).doms = s.doms := rfl
@[simp] theorem State.modFlash_ctxs (f) : (s.modFlash f).ctxs = s.ctxs := rfl
@[simp] theorem State.modFlash_hif (f) : (s.modFlash f).hif = s.hif := rfl
@[simp] theorem State.modFlash_ctl (f) : (s.modFlash f).ctl = s.ctl := rfl
@[simp] theorem State.modFlash_sec (f) : (s.modFlash f).sec = s.sec := rfl
@[simp] theorem State.modFlash_rel (f) : (s.modFlash f).rel = s.rel := rfl
@[simp] theorem State.modFlash_brz (f) : (s.modFlash f).brz = s.brz := rfl
@[simp] theorem State.modFlash_isp (f) : (s.modFlash f).isp = s.isp := rfl
@[simp] theorem State.modFlash_video (f) : (s.modFlash f).video = s.video := rfl
@[simp] theorem State.modFlash_plm (f) : (s.modFlash f).plm = s.plm := rfl
@[simp] theorem State.modFlash_fabInj (f) : (s.modFlash f).fabInj = s.fabInj := rfl
@[simp] theorem State.modFlash_recs (f) : (s.modFlash f).recs = s.recs := rfl
@[simp] theorem State.modFlash_pins (f) : (s.modFlash f).pins = s.pins := rfl
@[simp] theorem State.modFlash_clk (f) : (s.modFlash f).clk = s.clk := rfl
@[simp] theorem State.modFlash_reg (f) (j : Nat) : (s.modFlash f).reg j = s.reg j := rfl
@[simp] theorem State.modFlash_fld (f) (j : Nat) (fl : Fld) : (s.modFlash f).fld j fl = s.fld j fl := rfl
@[simp] theorem State.modFlash_counter (f) (j : Nat) : (s.modFlash f).counter j = s.counter j := rfl
@[simp] theorem State.modFlash_core (f) (j : Nat) : (s.modFlash f).core j = s.core j := rfl
@[simp] theorem State.modFlash_txn (f) (j : Nat) : (s.modFlash f).txn j = s.txn j := rfl
@[simp] theorem State.modFlash_group (f) (j : Nat) : (s.modFlash f).group j = s.group j := rfl
@[simp] theorem State.modFlash_dom (f) (j : Nat) : (s.modFlash f).dom j = s.dom j := rfl
@[simp] theorem State.modFlash_ctx (f) (j : Nat) : (s.modFlash f).ctx j = s.ctx j := rfl

/-! ### State.modSec -/

@[simp] theorem State.modSec_pending (f) : (s.modSec f).pending = s.pending := rfl
@[simp] theorem State.modSec_dtime (f) : (s.modSec f).dtime = s.dtime := rfl
@[simp] theorem State.modSec_regs (f) : (s.modSec f).regs = s.regs := rfl
@[simp] theorem State.modSec_txns (f) : (s.modSec f).txns = s.txns := rfl
@[simp] theorem State.modSec_groups (f) : (s.modSec f).groups = s.groups := rfl
@[simp] theorem State.modSec_cnt (f) : (s.modSec f).cnt = s.cnt := rfl
@[simp] theorem State.modSec_shadow (f) : (s.modSec f).shadow = s.shadow := rfl
@[simp] theorem State.modSec_snap (f) : (s.modSec f).snap = s.snap := rfl
@[simp] theorem State.modSec_errIrqs (f) : (s.modSec f).errIrqs = s.errIrqs := rfl
@[simp] theorem State.modSec_rdata (f) : (s.modSec f).rdata = s.rdata := rfl
@[simp] theorem State.modSec_free (f) : (s.modSec f).free = s.free := rfl
@[simp] theorem State.modSec_cores (f) : (s.modSec f).cores = s.cores := rfl
@[simp] theorem State.modSec_imem (f) : (s.modSec f).imem = s.imem := rfl
@[simp] theorem State.modSec_spad (f) : (s.modSec f).spad = s.spad := rfl
@[simp] theorem State.modSec_rowPoison (f) : (s.modSec f).rowPoison = s.rowPoison := rfl
@[simp] theorem State.modSec_streams (f) : (s.modSec f).streams = s.streams := rfl
@[simp] theorem State.modSec_swapReqs (f) : (s.modSec f).swapReqs = s.swapReqs := rfl
@[simp] theorem State.modSec_mt (f) : (s.modSec f).mt = s.mt := rfl
@[simp] theorem State.modSec_da (f) : (s.modSec f).da = s.da := rfl
@[simp] theorem State.modSec_doms (f) : (s.modSec f).doms = s.doms := rfl
@[simp] theorem State.modSec_ctxs (f) : (s.modSec f).ctxs = s.ctxs := rfl
@[simp] theorem State.modSec_hif (f) : (s.modSec f).hif = s.hif := rfl
@[simp] theorem State.modSec_ctl (f) : (s.modSec f).ctl = s.ctl := rfl
@[simp] theorem State.modSec_rel (f) : (s.modSec f).rel = s.rel := rfl
@[simp] theorem State.modSec_brz (f) : (s.modSec f).brz = s.brz := rfl
@[simp] theorem State.modSec_isp (f) : (s.modSec f).isp = s.isp := rfl
@[simp] theorem State.modSec_video (f) : (s.modSec f).video = s.video := rfl
@[simp] theorem State.modSec_plm (f) : (s.modSec f).plm = s.plm := rfl
@[simp] theorem State.modSec_fabInj (f) : (s.modSec f).fabInj = s.fabInj := rfl
@[simp] theorem State.modSec_recs (f) : (s.modSec f).recs = s.recs := rfl
@[simp] theorem State.modSec_flash (f) : (s.modSec f).flash = s.flash := rfl
@[simp] theorem State.modSec_pins (f) : (s.modSec f).pins = s.pins := rfl
@[simp] theorem State.modSec_clk (f) : (s.modSec f).clk = s.clk := rfl
@[simp] theorem State.modSec_reg (f) (j : Nat) : (s.modSec f).reg j = s.reg j := rfl
@[simp] theorem State.modSec_fld (f) (j : Nat) (fl : Fld) : (s.modSec f).fld j fl = s.fld j fl := rfl
@[simp] theorem State.modSec_counter (f) (j : Nat) : (s.modSec f).counter j = s.counter j := rfl
@[simp] theorem State.modSec_core (f) (j : Nat) : (s.modSec f).core j = s.core j := rfl
@[simp] theorem State.modSec_txn (f) (j : Nat) : (s.modSec f).txn j = s.txn j := rfl
@[simp] theorem State.modSec_group (f) (j : Nat) : (s.modSec f).group j = s.group j := rfl
@[simp] theorem State.modSec_dom (f) (j : Nat) : (s.modSec f).dom j = s.dom j := rfl
@[simp] theorem State.modSec_ctx (f) (j : Nat) : (s.modSec f).ctx j = s.ctx j := rfl

/-! ### State.modClk -/

@[simp] theorem State.modClk_pending (f) : (s.modClk f).pending = s.pending := rfl
@[simp] theorem State.modClk_dtime (f) : (s.modClk f).dtime = s.dtime := rfl
@[simp] theorem State.modClk_regs (f) : (s.modClk f).regs = s.regs := rfl
@[simp] theorem State.modClk_txns (f) : (s.modClk f).txns = s.txns := rfl
@[simp] theorem State.modClk_groups (f) : (s.modClk f).groups = s.groups := rfl
@[simp] theorem State.modClk_cnt (f) : (s.modClk f).cnt = s.cnt := rfl
@[simp] theorem State.modClk_shadow (f) : (s.modClk f).shadow = s.shadow := rfl
@[simp] theorem State.modClk_snap (f) : (s.modClk f).snap = s.snap := rfl
@[simp] theorem State.modClk_errIrqs (f) : (s.modClk f).errIrqs = s.errIrqs := rfl
@[simp] theorem State.modClk_rdata (f) : (s.modClk f).rdata = s.rdata := rfl
@[simp] theorem State.modClk_free (f) : (s.modClk f).free = s.free := rfl
@[simp] theorem State.modClk_cores (f) : (s.modClk f).cores = s.cores := rfl
@[simp] theorem State.modClk_imem (f) : (s.modClk f).imem = s.imem := rfl
@[simp] theorem State.modClk_spad (f) : (s.modClk f).spad = s.spad := rfl
@[simp] theorem State.modClk_rowPoison (f) : (s.modClk f).rowPoison = s.rowPoison := rfl
@[simp] theorem State.modClk_streams (f) : (s.modClk f).streams = s.streams := rfl
@[simp] theorem State.modClk_swapReqs (f) : (s.modClk f).swapReqs = s.swapReqs := rfl
@[simp] theorem State.modClk_mt (f) : (s.modClk f).mt = s.mt := rfl
@[simp] theorem State.modClk_da (f) : (s.modClk f).da = s.da := rfl
@[simp] theorem State.modClk_doms (f) : (s.modClk f).doms = s.doms := rfl
@[simp] theorem State.modClk_ctxs (f) : (s.modClk f).ctxs = s.ctxs := rfl
@[simp] theorem State.modClk_hif (f) : (s.modClk f).hif = s.hif := rfl
@[simp] theorem State.modClk_ctl (f) : (s.modClk f).ctl = s.ctl := rfl
@[simp] theorem State.modClk_sec (f) : (s.modClk f).sec = s.sec := rfl
@[simp] theorem State.modClk_rel (f) : (s.modClk f).rel = s.rel := rfl
@[simp] theorem State.modClk_brz (f) : (s.modClk f).brz = s.brz := rfl
@[simp] theorem State.modClk_isp (f) : (s.modClk f).isp = s.isp := rfl
@[simp] theorem State.modClk_video (f) : (s.modClk f).video = s.video := rfl
@[simp] theorem State.modClk_plm (f) : (s.modClk f).plm = s.plm := rfl
@[simp] theorem State.modClk_fabInj (f) : (s.modClk f).fabInj = s.fabInj := rfl
@[simp] theorem State.modClk_recs (f) : (s.modClk f).recs = s.recs := rfl
@[simp] theorem State.modClk_flash (f) : (s.modClk f).flash = s.flash := rfl
@[simp] theorem State.modClk_pins (f) : (s.modClk f).pins = s.pins := rfl
@[simp] theorem State.modClk_reg (f) (j : Nat) : (s.modClk f).reg j = s.reg j := rfl
@[simp] theorem State.modClk_fld (f) (j : Nat) (fl : Fld) : (s.modClk f).fld j fl = s.fld j fl := rfl
@[simp] theorem State.modClk_counter (f) (j : Nat) : (s.modClk f).counter j = s.counter j := rfl
@[simp] theorem State.modClk_core (f) (j : Nat) : (s.modClk f).core j = s.core j := rfl
@[simp] theorem State.modClk_txn (f) (j : Nat) : (s.modClk f).txn j = s.txn j := rfl
@[simp] theorem State.modClk_group (f) (j : Nat) : (s.modClk f).group j = s.group j := rfl
@[simp] theorem State.modClk_dom (f) (j : Nat) : (s.modClk f).dom j = s.dom j := rfl
@[simp] theorem State.modClk_ctx (f) (j : Nat) : (s.modClk f).ctx j = s.ctx j := rfl

/-! ### State.modPins -/

@[simp] theorem State.modPins_pending (f) : (s.modPins f).pending = s.pending := rfl
@[simp] theorem State.modPins_dtime (f) : (s.modPins f).dtime = s.dtime := rfl
@[simp] theorem State.modPins_regs (f) : (s.modPins f).regs = s.regs := rfl
@[simp] theorem State.modPins_txns (f) : (s.modPins f).txns = s.txns := rfl
@[simp] theorem State.modPins_groups (f) : (s.modPins f).groups = s.groups := rfl
@[simp] theorem State.modPins_cnt (f) : (s.modPins f).cnt = s.cnt := rfl
@[simp] theorem State.modPins_shadow (f) : (s.modPins f).shadow = s.shadow := rfl
@[simp] theorem State.modPins_snap (f) : (s.modPins f).snap = s.snap := rfl
@[simp] theorem State.modPins_errIrqs (f) : (s.modPins f).errIrqs = s.errIrqs := rfl
@[simp] theorem State.modPins_rdata (f) : (s.modPins f).rdata = s.rdata := rfl
@[simp] theorem State.modPins_free (f) : (s.modPins f).free = s.free := rfl
@[simp] theorem State.modPins_cores (f) : (s.modPins f).cores = s.cores := rfl
@[simp] theorem State.modPins_imem (f) : (s.modPins f).imem = s.imem := rfl
@[simp] theorem State.modPins_spad (f) : (s.modPins f).spad = s.spad := rfl
@[simp] theorem State.modPins_rowPoison (f) : (s.modPins f).rowPoison = s.rowPoison := rfl
@[simp] theorem State.modPins_streams (f) : (s.modPins f).streams = s.streams := rfl
@[simp] theorem State.modPins_swapReqs (f) : (s.modPins f).swapReqs = s.swapReqs := rfl
@[simp] theorem State.modPins_mt (f) : (s.modPins f).mt = s.mt := rfl
@[simp] theorem State.modPins_da (f) : (s.modPins f).da = s.da := rfl
@[simp] theorem State.modPins_doms (f) : (s.modPins f).doms = s.doms := rfl
@[simp] theorem State.modPins_ctxs (f) : (s.modPins f).ctxs = s.ctxs := rfl
@[simp] theorem State.modPins_hif (f) : (s.modPins f).hif = s.hif := rfl
@[simp] theorem State.modPins_ctl (f) : (s.modPins f).ctl = s.ctl := rfl
@[simp] theorem State.modPins_sec (f) : (s.modPins f).sec = s.sec := rfl
@[simp] theorem State.modPins_rel (f) : (s.modPins f).rel = s.rel := rfl
@[simp] theorem State.modPins_brz (f) : (s.modPins f).brz = s.brz := rfl
@[simp] theorem State.modPins_isp (f) : (s.modPins f).isp = s.isp := rfl
@[simp] theorem State.modPins_video (f) : (s.modPins f).video = s.video := rfl
@[simp] theorem State.modPins_plm (f) : (s.modPins f).plm = s.plm := rfl
@[simp] theorem State.modPins_fabInj (f) : (s.modPins f).fabInj = s.fabInj := rfl
@[simp] theorem State.modPins_recs (f) : (s.modPins f).recs = s.recs := rfl
@[simp] theorem State.modPins_flash (f) : (s.modPins f).flash = s.flash := rfl
@[simp] theorem State.modPins_clk (f) : (s.modPins f).clk = s.clk := rfl
@[simp] theorem State.modPins_reg (f) (j : Nat) : (s.modPins f).reg j = s.reg j := rfl
@[simp] theorem State.modPins_fld (f) (j : Nat) (fl : Fld) : (s.modPins f).fld j fl = s.fld j fl := rfl
@[simp] theorem State.modPins_counter (f) (j : Nat) : (s.modPins f).counter j = s.counter j := rfl
@[simp] theorem State.modPins_core (f) (j : Nat) : (s.modPins f).core j = s.core j := rfl
@[simp] theorem State.modPins_txn (f) (j : Nat) : (s.modPins f).txn j = s.txn j := rfl
@[simp] theorem State.modPins_group (f) (j : Nat) : (s.modPins f).group j = s.group j := rfl
@[simp] theorem State.modPins_dom (f) (j : Nat) : (s.modPins f).dom j = s.dom j := rfl
@[simp] theorem State.modPins_ctx (f) (j : Nat) : (s.modPins f).ctx j = s.ctx j := rfl

/-! ### Reads after the update of the same part -/

theorem State.reg_setReg_same (a : Nat) (w : Word) : (s.setReg a w).reg a = w := by
  simp [State.reg, State.setReg, Tab.find_set]

theorem State.reg_setReg_ne (a : Nat) (w : Word) (b : Nat) (h : b ≠ a) : (s.setReg a w).reg b = s.reg b := by
  simp [State.reg, State.setReg, Tab.find_set, h]

theorem State.reg_setReg (a : Nat) (w : Word) (b : Nat) : (s.setReg a w).reg b = if b = a then w else s.reg b := by
  split
  · rename_i h
    rw [h, State.reg_setReg_same]
  · rename_i h
    exact State.reg_setReg_ne s a w b h

theorem State.reg_setFld_same (a : Nat) (f : Fld) (v : Nat) : (s.setFld a f v).reg a = wordSet (s.reg a) f v :=
  State.reg_setReg_same s a _

theorem State.reg_setFld_ne (a : Nat) (f : Fld) (v b : Nat) (h : b ≠ a) : (s.setFld a f v).reg b = s.reg b :=
  State.reg_setReg_ne s a _ b h

theorem State.fld_setReg_same (a : Nat) (w : Word) (f : Fld) : (s.setReg a w).fld a f = wordFld w f := by
  rw [State.fld, State.reg_setReg_same]

theorem State.fld_setReg_ne (a : Nat) (w : Word) (b : Nat) (f : Fld) (h : b ≠ a) : (s.setReg a w).fld b f = s.fld b f := by
  rw [State.fld, State.reg_setReg_ne s a w b h, State.fld]

/-- A field reads as what it was set to, its excess bits dropped. -/
theorem State.fld_setFld_same (a : Nat) (f : Fld) (v : Nat) (h : f.hi < 32) :
    (s.setFld a f v).fld a f = v % 2 ^ (f.hi + 1 - f.lo) := by
  rw [State.fld, State.reg_setFld_same, wordFld_wordSet _ f v h]

/-- Another field of the same register keeps its value. -/
theorem State.fld_setFld_other (a : Nat) (f g : Fld) (v : Nat) (h : f.hi < 32) (hd : g.hi < f.lo ∨ f.hi < g.lo) :
    (s.setFld a f v).fld a g = s.fld a g := by
  rw [State.fld, State.reg_setFld_same, wordFld_wordSet_ne _ f g v h hd, State.fld]

theorem State.fld_setFld_ne (a : Nat) (f : Fld) (v b : Nat) (g : Fld) (h : b ≠ a) :
    (s.setFld a f v).fld b g = s.fld b g := by
  rw [State.fld, State.reg_setFld_ne s a f v b h, State.fld]

theorem State.counter_addCnt_same (key k : Nat) : (s.addCnt key k).counter key = (s.counter key + k) % 2 ^ 64 :=
  Tab.get_set_same _ _ _ _

theorem State.counter_addCnt_ne (key k i : Nat) (h : i ≠ key) : (s.addCnt key k).counter i = s.counter i :=
  Tab.get_set_ne _ _ _ _ _ h

theorem State.counter_count_same (base i k : Nat) :
    (s.count base i k).counter (cntKey base i) = (s.counter (cntKey base i) + k) % 2 ^ 64 :=
  State.counter_addCnt_same s _ k

theorem State.counter_count_ne (base i k c : Nat) (h : c ≠ cntKey base i) : (s.count base i k).counter c = s.counter c :=
  State.counter_addCnt_ne s _ k c h

theorem State.core_setCore_same (n : Nat) (c : Core) : (s.setCore n c).core n = c := Tab.get_set_same _ _ _ _

theorem State.core_setCore_ne (n : Nat) (c : Core) (m : Nat) (h : m ≠ n) : (s.setCore n c).core m = s.core m :=
  Tab.get_set_ne _ _ _ _ _ h

theorem State.core_modCore_same (n : Nat) (f : Core → Core) : (s.modCore n f).core n = f (s.core n) :=
  Tab.get_set_same _ _ _ _

theorem State.core_modCore_ne (n : Nat) (f : Core → Core) (m : Nat) (h : m ≠ n) : (s.modCore n f).core m = s.core m :=
  Tab.get_set_ne _ _ _ _ _ h

theorem State.txn_setTxn_same (pg : Nat) (t : PageTxn) : (s.setTxn pg t).txn pg = t := Tab.get_set_same _ _ _ _

theorem State.txn_setTxn_ne (pg : Nat) (t : PageTxn) (q : Nat) (h : q ≠ pg) : (s.setTxn pg t).txn q = s.txn q :=
  Tab.get_set_ne _ _ _ _ _ h

theorem State.group_setGroup_same (g : Nat) (x : Group) : (s.setGroup g x).group g = x := Tab.get_set_same _ _ _ _

theorem State.dom_setDom_same (d : Nat) (x : Dom) : (s.setDom d x).dom d = x := Tab.get_set_same _ _ _ _

theorem State.dom_setDom_ne (d : Nat) (x : Dom) (e : Nat) (h : e ≠ d) : (s.setDom d x).dom e = s.dom e :=
  Tab.get_set_ne _ _ _ _ _ h

theorem State.ctx_setCtx_same (x : Nat) (c : CtxRec) : (s.setCtx x c).ctx x = c := Tab.get_set_same _ _ _ _

theorem State.ctx_setCtx_ne (x : Nat) (c : CtxRec) (y : Nat) (h : y ≠ x) : (s.setCtx x c).ctx y = s.ctx y :=
  Tab.get_set_ne _ _ _ _ _ h

end Sys2Proof.Machine
end

