-- ==== Sys2Proof/Safety.lean ====
section
/-! DEFINITION. Safety.lean: what claims about a run are stated in terms of: a step that completes, memories in canonical
form, and the root of trust that no command may move back. -/

namespace Sys2Proof.Machine

/-- Whether a step answers a next state. -/
def Out.completes : Out → Bool
  | .next _ => true
  | _ => false

/-- The access of `iid` to BAR0 offset `a` passes every check: the boot chain has completed, the control complex is on, the
page and offset are assigned, the access table grants the right, and confidential mode does not narrow it (R35, R45 to R47,
R440, R455). It reaches instance `i` of a page of kind `k`. -/
def State.Permits (s : State) (iid a : Nat) (write : Bool) (k : PageKind) (i : Nat) : Prop :=
  s.booted = true ∧ s.domOn 29 = true ∧ s.gate iid a write = .ok k i ∧ s.confRefuses iid k i (a % 4096) write = false

/-- A permitted write to a register of a block whose domain is on, so that it is not dropped (R37). -/
def State.Admits (s : State) (iid a : Nat) (k : PageKind) (i : Nat) : Prop :=
  s.Permits iid a true k i ∧ s.domOn (pageDomain k i) = true

/-- The pages whose chapters make no check of a commit and take no further effect of it. -/
def plainPage : PageKind → Bool
  | .spd5 | .spd3 | .arr0 | .arr6 | .mt0 | .mtRng | .ispPort | .ispCam | .decCtx | .xfm | .hifFn | .brz1 | .tstLane | .plmPort
  | .plmComm => false
  | _ => true

/-! ### What a command leaves unchanged -/

/-- Nothing but register words at the offsets of `l` differs. -/
def OnlyRegs (l : List Nat) (s t : State) : Prop := t = { s with regs := t.regs } ∧ ∀ a, a ∉ l → t.reg a = s.reg a

/-- Nothing but register words at the offsets of `l` and the counters of `c` differs. -/
def OnlyRegsCnt (l c : List Nat) (s t : State) : Prop :=
  t = { s with regs := t.regs, cnt := t.cnt } ∧ (∀ a, a ∉ l → t.reg a = s.reg a) ∧ ∀ k, k ∉ c → t.counter k = s.counter k

/-- In `t` the sequencer of core `n` is in state `st` at slot `p`. Beyond its own status words and record, only register words
at the offsets of `l` differ from `s`, and no operation in flight does. -/
def SeqAt (n p st : Nat) (l : List Nat) (s t : State) : Prop :=
  t.pc n = p ∧ t.seqState n = st ∧ (t.core n).ops = (s.core n).ops ∧ (t.core n).scanQ = (s.core n).scanQ
    ∧ (∀ m, m ≠ n → t.core m = s.core m)
    ∧ (∀ a, a ≠ R.ARR_STATUS n → a ≠ R.SEQ_STATUS n → a ∉ l → t.reg a = s.reg a)
    ∧ t = { s with regs := t.regs, cores := t.cores }

/-- Core `n` is at instruction opcode `op` for context `x`, outside a drain request and with nothing withdrawn. -/
def State.AtInstr (s : State) (n x op : Nat) : Prop :=
  s.running n = some x ∧ insOp (s.slot n (s.pc n)).toNat = op ∧ s.flag (R.SEQ_CTRL n) F.SEQ_CTRL_DRAIN_REQ = false
    ∧ (s.core n).wait = .none

/-- Every byte of every memory, and every instruction slot and row tag, is as before. -/
def SameMemory (s t : State) : Prop :=
  t.spad = s.spad ∧ t.da = s.da ∧ t.brz.ring = s.brz.ring ∧ t.brz.spm = s.brz.spm ∧ t.imem = s.imem ∧ t.rowPoison = s.rowPoison

/-- Every memory of the state is in canonical form. -/
def State.memoriesWf (s : State) : Bool :=
  Memory.wf s.spad && Memory.wf s.da && Memory.wf s.brz.ring && Memory.wf s.brz.spm

/-- What contexts, jobs and a firmware update name lies on the chip: cores within the core pages of BAR0, SPD_RANGE entries
and region descriptors within a core's own, control cores among the four. -/
def State.PlacesNamed (s : State) : Prop :=
  (∀ x n, n ∈ (s.ctx x).cores → n < 32)
    ∧ (∀ x p, p ∈ (s.ctx x).place → p.range < 16 ∧ p.regBase + p.regCount ≤ 64)
    ∧ (∀ j ∈ s.ctl.jobs, ∀ n ∈ j.held, n < 32)
    ∧ ∀ k, s.ctl.upd.loader = some k ∨ s.ctl.upd.holding = some k ∨ s.ctl.upd.retry = some k → k < 4

/-- The root of trust in the boot flash that `s` has and `t` keeps: an identity record is never replaced (R445), and
anti-rollback counters and REVOKED bits never fall back (R442, R443). -/
def RootKept (s t : State) : Prop :=
  (∀ b, s.flash.ident = some b → t.flash.ident = some b)
    ∧ s.flash.arFw ≤ t.flash.arFw ∧ s.flash.arCfg ≤ t.flash.arCfg ∧ s.flash.arBrd ≤ t.flash.arBrd
    ∧ s.flash.revoked ||| t.flash.revoked = t.flash.revoked

end Sys2Proof.Machine
end

