-- ==== Sys2Proof/Laws/Bus.lean ====
section
/-! SUPPORT. Laws/Bus.lean: what a register access does once its checks have passed: the word that a masked write leaves,
the fields it changes, and the one equation by which a permitted access reaches its register's effect. -/

namespace Sys2Proof.Machine

/-! ### Masked words -/

theorem maskOf_getLsbD (hi lo j : Nat) (h : hi < 32) :
    (maskOf hi lo).getLsbD j = decide (lo ≤ j ∧ j ≤ hi) := by
  unfold maskOf
  rw [BitVec.getLsbD_ofNat, Nat.mul_comm, Nat.testBit_two_pow_mul, Nat.testBit_two_pow_sub_one]
  by_cases h1 : lo ≤ j ∧ j ≤ hi
  · have h2 : j < 32 := by omega
    have h3 : j - lo < hi + 1 - lo := by omega
    simp [h2, h3, h1.1, h1.2]
  · by_cases h2 : lo ≤ j
    · have h3 : ¬ j - lo < hi + 1 - lo := by omega
      simp [h1, h3]
    · simp [h2]

theorem testBit_wordFld (w : Word) (f : Fld) (j : Nat) :
    (wordFld w f).testBit j = (decide (j < f.hi + 1 - f.lo) && w.getLsbD (f.lo + j)) := by
  unfold wordFld
  rw [testBit_bitsOf, BitVec.testBit_toNat]

/-- The word that a write under mask `m` leaves. -/
theorem wordFld_mergeWord_in (old m v : Word) (f : Fld) (h : ∀ j, f.lo ≤ j → j ≤ f.hi → m.getLsbD j = true) :
    wordFld (mergeWord old m v) f = wordFld v f := by
  apply Nat.eq_of_testBit_eq
  intro j
  rw [testBit_wordFld, testBit_wordFld]
  by_cases hj : j < f.hi + 1 - f.lo
  · have hm := h (f.lo + j) (by omega) (by omega)
    simp [mergeWord, hm, hj]
  · simp [hj]

theorem wordFld_mergeWord_out (old m v : Word) (f : Fld) (h : ∀ j, f.lo ≤ j → j ≤ f.hi → m.getLsbD j = false) :
    wordFld (mergeWord old m v) f = wordFld old f := by
  apply Nat.eq_of_testBit_eq
  intro j
  rw [testBit_wordFld, testBit_wordFld]
  by_cases hj : j < f.hi + 1 - f.lo
  · have hm := h (f.lo + j) (by omega) (by omega)
    by_cases h32 : f.lo + j < 32
    · simp only [mergeWord, BitVec.getLsbD_or, BitVec.getLsbD_and, BitVec.getLsbD_not, hm, h32, decide_true, Bool.not_false,
        Bool.and_true, Bool.and_false, Bool.or_false]
    · rw [BitVec.getLsbD_of_ge _ _ (Nat.le_of_not_lt h32), BitVec.getLsbD_of_ge _ _ (Nat.le_of_not_lt h32)]
  · simp [hj]

theorem getLsbD_full (j : Nat) (h : j < 32) : (0xFFFFFFFF#32).getLsbD j = true := by
  have : (0xFFFFFFFF#32) = BitVec.allOnes 32 := by decide
  rw [this, BitVec.getLsbD_allOnes]
  simpa using h

/-- A whole-word write takes a field's bits from the data. -/
theorem wordFld_merge_full (old v : Word) (hi lo : Nat) (h : hi < 32) :
    bitsOf ((old &&& ~~~(maskOf hi lo &&& 0xFFFFFFFF#32)) ||| (v &&& (maskOf hi lo &&& 0xFFFFFFFF#32))).toNat hi lo
      = bitsOf v.toNat hi lo := by
  refine wordFld_mergeWord_in old (maskOf hi lo &&& 0xFFFFFFFF#32) v ⟨hi, lo⟩ (fun j h1 h2 => ?_)
  rw [BitVec.getLsbD_and, maskOf_getLsbD hi lo j h, getLsbD_full j (Nat.lt_of_le_of_lt h2 h)]
  have h3 : lo ≤ j := h1
  have h4 : j ≤ hi := h2
  simp [h3, h4]

theorem and_full (v : Word) : v &&& 0xFFFFFFFF#32 = v := by
  have : (0xFFFFFFFF#32) = BitVec.allOnes 32 := by decide
  rw [this, BitVec.and_allOnes]

/-! ### The fields of a write -/

/-- The listed-value rules of R266, R283 and R321 say nothing of a register. -/
def PlainFields (a : Nat) (flds : List FldDef) : Prop := ∀ f ∈ flds, f.hi < 32 ∧ ∀ n, extraOk a f n = true

/-- A whole-word write of a listed encoding to a read-write field stores it and nothing else. -/
theorem fieldWrite_store (iid a : Nat) (v : Word) (f : FldDef) (s : State) (hacc : f.acc = .rw ∨ f.acc = .rws) (h32 : f.hi < 32)
    (hm : maskOf f.hi f.lo ≠ 0) (hok : f.ok (bitsOf v.toNat f.hi f.lo) = true)
    (hx : extraOk a f (bitsOf v.toNat f.hi f.lo) = true) :
    fieldWrite iid a 0xFFFFFFFF#32 v s f = s.setReg a (mergeWord (s.reg a) (maskOf f.hi f.lo) v) := by
  have h1 : maskOf f.hi f.lo &&& 0xFFFFFFFF#32 ≠ 0 := by rw [and_full]; exact hm
  unfold fieldWrite
  rcases hacc with h | h <;>
    (simp only [h1, if_false, h, wordFld_merge_full _ v f.hi f.lo h32, hok, hx, Bool.and_self, if_true]
     simp only [and_full, mergeWord])

/-- A whole-word write of listed encodings to a register of write-only fields stores nothing. -/
theorem fieldsWrite_command (iid a : Nat) (v : Word) (flds : List FldDef) (s : State) (hp : PlainFields a flds)
    (hw : flds.all (fun f => f.acc == .wo) = true) (hc : commandOk flds 0xFFFFFFFF#32 v = true) :
    fieldsWrite iid a 0xFFFFFFFF#32 v flds s = s := by
  induction flds with
  | nil => rfl
  | cons f fs ih =>
    simp only [List.all_cons, Bool.and_eq_true, beq_iff_eq] at hw
    simp only [commandOk, List.all_cons, Bool.and_eq_true] at hc
    have hf : fieldWrite iid a 0xFFFFFFFF#32 v s f = s := by
      by_cases hm : maskOf f.hi f.lo &&& 0xFFFFFFFF#32 = 0
      · simp only [fieldWrite, hm, if_true]
      · have h1 := hc.1
        rw [hw.1, and_full v] at h1
        have h2 : f.ok (bitsOf v.toNat f.hi f.lo) = true := by
          have h3 : maskOf f.hi f.lo &&& 0xFFFFFFFF#32 = 0#32 ∨ f.ok (bitsOf v.toNat f.hi f.lo) = true := by simpa using h1
          exact h3.resolve_left hm
        have hq := hp f (List.mem_cons_self ..)
        simp only [fieldWrite, hm, if_false, hw.1, wordFld_merge_full _ v f.hi f.lo hq.1, h2, hq.2, Bool.and_self, if_true]
    simp only [fieldsWrite, hf]
    exact ih (fun g hg => hp g (List.mem_cons_of_mem _ hg)) hw.2 (by simpa [commandOk] using hc.2)

/-- What the checks before the access table let through is decided by the table (R35, R45 to R47). -/
theorem withGate_open (iid a : Nat) (w : Bool) (s : State) (f : PageKind → Nat → State → State) (hb : s.booted = true)
    (h : s.domOn 29 = true) :
    withGate iid a w s f = match s.gate iid a w with
      | .unmapped => unmappedAccess iid a s
      | .denied => deniedAccess iid a s
      | .ok k i => f k i s := by
  unfold withGate
  exact (if_neg (by simp [hb])).trans (if_neg (by simp [h]))

/-- A permitted command: a whole-word write of listed encodings to a register of write-only fields is exactly the
register's effect, with its errors attributed to the access (R6, R43). -/
theorem busWriteWith_command (q : WriteOutcome) (iid a : Nat) (v : Word) (s : State) (k : PageKind) (i : Nat) (d : RegDef)
    (x y : Nat) (h : s.Admits iid a k i) (ho : 0x100 ≤ a % 4096) (hf : findReg (a % 4096) (regsOf k) = some (d, x, y))
    (hport : isPort k (a % 4096) = false) (hp : PlainFields a d.flds) (hw : d.flds.all (fun f => f.acc == .wo) = true)
    (hc : commandOk d.flds 0xFFFFFFFF#32 v = true) :
    busWriteWith q iid a 0xFFFFFFFF#32 v s = attributeErr iid a s (writeEffect q iid k i (a % 4096) 0xFFFFFFFF#32 v s s) := by
  obtain ⟨⟨hb, h29, hg, hconf⟩, hon⟩ := h
  unfold busWriteWith withGate
  rw [if_neg (by simp [hb]), if_neg (by simp [h29]), hg]
  simp only [hconf, Bool.false_eq_true, if_false]
  rw [if_neg (by omega), hf]
  simp only [hon, hport, Bool.false_eq_true, if_false, hc, Bool.and_self, if_true, blockFields]
  rw [fieldsWrite_command iid a v d.flds s hp hw hc, and_full]

theorem busWrite_command (iid a : Nat) (v : Word) (s : State) (k : PageKind) (i : Nat) (d : RegDef)
    (x y : Nat) (h : s.Admits iid a k i) (hn : needsOutcome a = false) (ho : 0x100 ≤ a % 4096)
    (hf : findReg (a % 4096) (regsOf k) = some (d, x, y))
    (hport : isPort k (a % 4096) = false) (hp : PlainFields a d.flds) (hw : d.flds.all (fun f => f.acc == .wo) = true)
    (hc : commandOk d.flds 0xFFFFFFFF#32 v = true) :
    wordWrite iid a v s
      = attributeErr iid a s (writeEffect ⟨false, false, false⟩ iid k i (a % 4096) 0xFFFFFFFF#32 v s s) := by
  unfold wordWrite busWrite
  rw [hn]
  exact busWriteWith_command _ iid a v s k i d x y h ho hf hport hp hw hc

/-- A permitted write of a header register (R36): the header lies in the control complex, whatever the page's domain. -/
theorem busWriteWith_header (q : WriteOutcome) (iid a : Nat) (bm v : Word) (s : State) (k : PageKind) (i : Nat)
    (h : s.Permits iid a true k i) (ho : a % 4096 < 0x100) :
    busWriteWith q iid a bm v s = headerWrite iid (a - a % 4096) (a % 4096) bm v s := by
  obtain ⟨hb, h29, hg, hconf⟩ := h
  unfold busWriteWith withGate
  rw [if_neg (by simp [hb]), if_neg (by simp [h29]), hg]
  simp only [hconf, Bool.false_eq_true, if_false]
  rw [if_pos ho]

theorem needsOutcome_header (a : Nat) (ho : a % 4096 < 0x100) : needsOutcome a = false := by
  have h1 : a ≠ R.SEC_REC_CMD := fun e => absurd (e ▸ ho : R.SEC_REC_CMD % 4096 < 0x100) (by decide)
  have h2 : a ≠ R.CTL_UPD_CMD := fun e => absurd (e ▸ ho : R.CTL_UPD_CMD % 4096 < 0x100) (by decide)
  have h3 : a % 4096 ≠ 0x100 := by omega
  have h4 : a % 4096 ≠ 0x104 := by omega
  simp [needsOutcome, h1, h2, h3, h4]

theorem busWrite_header (iid a : Nat) (bm v : Word) (s : State) (k : PageKind) (i : Nat)
    (h : s.Permits iid a true k i) (ho : a % 4096 < 0x100) :
    busWrite iid a bm v s = headerWrite iid (a - a % 4096) (a % 4096) bm v s := by
  unfold busWrite
  rw [needsOutcome_header a ho]
  exact busWriteWith_header _ iid a bm v s k i h ho

theorem wordWrite_header (iid a : Nat) (v : Word) (s : State) (k : PageKind) (i : Nat)
    (h : s.Permits iid a true k i) (ho : a % 4096 < 0x100) :
    wordWrite iid a v s = headerWrite iid (a - a % 4096) (a % 4096) 0xFFFFFFFF#32 v s :=
  busWrite_header iid a _ v s k i h ho

/-- What a permitted access knows of its page. -/
theorem pageAt_of_gate (s : State) (iid a : Nat) (w : Bool) (k : PageKind) (i : Nat) (h : s.gate iid a w = .ok k i) :
    ∃ r, pageAt (a / 4096) = some (r, i) ∧ r.kind = k := by
  unfold State.gate at h
  split at h
  · exact absurd h (by simp)
  · rename_i r j hp
    refine ⟨r, ?_⟩
    dsimp only at h
    repeat' split at h
    all_goals first
      | (injection h with h1 h2; subst h1; subst h2; exact ⟨hp, rfl⟩)
      | cases h

/-- A permitted read of a block register whose domain is on (R47). -/
theorem busRead_block (iid a : Nat) (s : State) (k : PageKind) (i : Nat) (h : s.Permits iid a false k i)
    (hon : s.domOn (pageDomain k i) = true) (ho : 0x100 ≤ a % 4096) :
    busRead iid a s = attributeErr iid a (s.answers 0) (blockRead iid k i (a % 4096) a (s.answers 0)) := by
  obtain ⟨hb, h29, hg, hconf⟩ := h
  unfold busRead
  rw [withGate_open iid a false (s.answers 0) _ hb h29]
  have e : (s.answers 0).gate iid a false = .ok k i := hg
  have e1 : (s.answers 0).confRefuses iid k i (a % 4096) false = false := hconf
  have e2 : (s.answers 0).domOn (pageDomain k i) = true := hon
  rw [e]
  simp only [e1, Bool.false_eq_true, if_false, e2, if_true]
  rw [if_neg (by omega)]

/-- A permitted write of listed encodings to a block register whose domain is on: its fields take it, then its effect
acts. -/
theorem busWriteWith_block (q : WriteOutcome) (iid a : Nat) (v : Word) (s : State) (k : PageKind) (i : Nat) (d : RegDef)
    (x y : Nat) (h : s.Admits iid a k i) (ho : 0x100 ≤ a % 4096) (hf : findReg (a % 4096) (regsOf k) = some (d, x, y))
    (hport : isPort k (a % 4096) = false) (hc : commandOk d.flds 0xFFFFFFFF#32 v = true) :
    busWriteWith q iid a 0xFFFFFFFF#32 v s =
      attributeErr iid a (fieldsWrite iid a 0xFFFFFFFF#32 v d.flds s)
        (writeEffect q iid k i (a % 4096) 0xFFFFFFFF#32 v s (fieldsWrite iid a 0xFFFFFFFF#32 v d.flds s)) := by
  obtain ⟨⟨hb, h29, hg, hconf⟩, hon⟩ := h
  unfold busWriteWith
  rw [withGate_open _ _ _ _ _ hb h29, hg]
  simp only [hconf, Bool.false_eq_true, if_false]
  rw [if_neg (by omega), hf]
  simp only [hon, hport, Bool.false_eq_true, if_false, hc, Bool.and_self, if_true, blockFields, and_full]

theorem wordWrite_block (iid a : Nat) (v : Word) (s : State) (k : PageKind) (i : Nat) (d : RegDef)
    (x y : Nat) (h : s.Admits iid a k i) (hn : needsOutcome a = false) (ho : 0x100 ≤ a % 4096)
    (hf : findReg (a % 4096) (regsOf k) = some (d, x, y))
    (hport : isPort k (a % 4096) = false) (hc : commandOk d.flds 0xFFFFFFFF#32 v = true) :
    wordWrite iid a v s =
      attributeErr iid a (fieldsWrite iid a 0xFFFFFFFF#32 v d.flds s)
        (writeEffect ⟨false, false, false⟩ iid k i (a % 4096) 0xFFFFFFFF#32 v s (fieldsWrite iid a 0xFFFFFFFF#32 v d.flds s)) := by
  unfold wordWrite busWrite
  rw [hn]
  exact busWriteWith_block _ iid a v s k i d x y h ho hf hport hc

/-- An access that raises no error in its page leaves ERR_FIRST alone (R43). -/
theorem attributeErr_quiet (iid a : Nat) (old s : State)
    (h : s.reg (a - a % 4096 + Hdr.errStat) = old.reg (a - a % 4096 + Hdr.errStat)) : attributeErr iid a old s = s := by
  unfold attributeErr
  simp only [h]
  split
  · rename_i hc
    simp only [Bool.and_eq_true, beq_iff_eq, bne_iff_ne, decide_eq_true_eq] at hc
    exact absurd hc.1.1 hc.1.2
  · rfl

/-! ### Errors of an access -/

theorem State.setReg_setReg (s : State) (a : Nat) (v w : Word) : (s.setReg a v).setReg a w = s.setReg a w := by
  simp [State.setReg, Tab.set_set]

theorem msixSend_setReg (s : State) (f v a : Nat) (w : Word) (h : a ≠ R.HIF_FN_STATE f) :
    msixSend f v (s.setReg a w) = (msixSend f v s).setReg a w := by
  unfold msixSend
  have e : (s.setReg a w).fld (R.HIF_FN_STATE f) F.HIF_FN_STATE_STATE = s.fld (R.HIF_FN_STATE f) F.HIF_FN_STATE_STATE := by
    unfold State.fld; rw [State.reg_setReg_ne _ _ _ _ (Ne.symm h)]
  rw [e]
  split <;> rfl

/-- An error interrupt neither reads nor writes ERR_FIRST. -/
theorem errIrq_setFirst (s : State) (p q : Nat) (w : Word) :
    errIrq (4096 * p) (s.setReg (4096 * q + Hdr.errFirst) w) = (errIrq (4096 * p) s).setReg (4096 * q + Hdr.errFirst) w := by
  have key : ∀ (l : List Nat) (t : State), (∀ f ∈ l, f < 16) →
      l.foldl (fun t f => if bitOf (t.rights (4096 * p) f) 0 then msixSend f (t.fld (R.HIF_VEC f) F.HIF_VEC_ERR) t else t)
        (t.setReg (4096 * q + Hdr.errFirst) w)
      = (l.foldl (fun t f => if bitOf (t.rights (4096 * p) f) 0 then msixSend f (t.fld (R.HIF_VEC f) F.HIF_VEC_ERR) t else t)
        t).setReg (4096 * q + Hdr.errFirst) w := by
    intro l
    induction l with
    | nil => intro t _; rfl
    | cons f l ih =>
      intro t hl
      have hf := hl f (List.mem_cons_self ..)
      simp only [List.foldl_cons]
      have e1 : (t.setReg (4096 * q + Hdr.errFirst) w).rights (4096 * p) f = t.rights (4096 * p) f := by
        unfold State.rights
        rw [State.reg_setReg_ne]
        simp only [Hdr.accTbl, Hdr.errFirst]; omega
      have e2 : (t.setReg (4096 * q + Hdr.errFirst) w).fld (R.HIF_VEC f) F.HIF_VEC_ERR = t.fld (R.HIF_VEC f) F.HIF_VEC_ERR := by
        unfold State.fld
        rw [State.reg_setReg_ne]
        simp only [R.HIF_VEC, Pg.hifFn, Hdr.errFirst]; omega
      rw [e1, e2]
      split
      · rw [msixSend_setReg, ih _ (fun g hg => hl g (List.mem_cons_of_mem _ hg))]
        simp only [R.HIF_FN_STATE, Pg.hifFn, Hdr.errFirst]; omega
      · exact ih _ (fun g hg => hl g (List.mem_cons_of_mem _ hg))
  exact key (List.range 16) { s with errIrqs := Tab.set s.errIrqs (4096 * p / 4096) (Tab.get s.errIrqs 0 (4096 * p / 4096) + 1) }
    (fun f hf => List.mem_range.mp hf)

theorem errIrq_regs (base : Nat) (s : State) : (errIrq base s).regs = s.regs := by
  unfold errIrq
  exact foldl_keeps (σ := State) State.regs _ (fun t f => by
   split
   · unfold msixSend; split <;> rfl
   · rfl) _ _

theorem errIrq_reg (base : Nat) (s : State) (a : Nat) : (errIrq base s).reg a = s.reg a := by
  unfold State.reg; rw [errIrq_regs]

theorem capture_word (b iid off : Nat) (hb : b < 32) (hi : iid < 32) (ho : off < 4096) :
    wordSet (wordSet (BitVec.ofNat 32 (b + 32 * iidNone + 1024 * 0 + 2 ^ 31)) ⟨9, 5⟩ iid) ⟨21, 10⟩ off
      = BitVec.ofNat 32 (b + 32 * iid + 1024 * off + 2 ^ 31) := by
  apply BitVec.eq_of_toNat_eq
  rw [wordSet_toNat _ _ _ (by decide), wordSet_toNat _ _ _ (by decide), putBits_eq, putBits_eq]
  simp only [BitVec.toNat_ofNat, iidNone]
  omega

theorem bitOf_zero (k : Nat) : bitOf 0 k = false := by simp [bitOf]

/-- The first error of a page (R43). -/
theorem raiseErr_first (base bit iid off : Nat) (s : State) (h : s.reg (base + Hdr.errStat) = 0#32) :
    raiseErr base bit iid off s =
      (if bitOf (s.reg (base + Hdr.errEn)).toNat bit then errIrq base else id)
        ((s.setReg (base + Hdr.errStat) (bit32 bit)).setReg (base + Hdr.errFirst)
          (BitVec.ofNat 32 (bit + 32 * iid + 1024 * off + 2 ^ 31))) := by
  unfold raiseErr
  have z : (s.reg (base + Hdr.errStat)).toNat = 0 := by rw [h]; rfl
  have o : s.reg (base + Hdr.errStat) ||| bit32 bit = bit32 bit := by rw [h]; exact BitVec.zero_or
  simp only [z, o, bitOf_zero, Bool.false_eq_true, if_false, if_true]
  split <;> rfl

/-- An event that an access raises in its own page is the page's error with the access's IID and OFFSET (R43). -/
theorem attributeErr_errEvent (iid a bit : Nat) (s : State) (hb : bit < 32) (hi : iid < 32) :
    attributeErr iid a s (errEvent (a - a % 4096) bit s) = raiseErr (a - a % 4096) bit iid (a % 4096) s := by
  have hbase : a - a % 4096 = 4096 * (a / 4096) := by omega
  generalize hp : a / 4096 = p at hbase
  unfold attributeErr errEvent
  rw [hbase]
  dsimp only
  by_cases h0 : s.reg (4096 * p + Hdr.errStat) = 0#32
  · have hne : 4096 * p + Hdr.errStat ≠ 4096 * p + Hdr.errFirst := by simp [Hdr.errFirst, Hdr.errStat]
    have hz : bit32 bit ≠ 0#32 := by
      intro h
      have h1 := congrArg BitVec.toNat h
      have h2 : 2 ^ bit < 2 ^ 32 := Nat.pow_lt_pow_right (by decide) hb
      have h3 := Nat.two_pow_pos bit
      simp only [bit32, BitVec.toNat_ofNat, Nat.mod_eq_of_lt h2] at h1
      exact absurd h1 (by simp)
    have ew : wordFld (BitVec.ofNat 32 (bit + 32 * iidNone + 1024 * 0 + 2 ^ 31)) ⟨9, 5⟩ = iidNone := by
      simp only [wordFld, bitsOf, BitVec.toNat_ofNat, iidNone]; omega
    have ec := capture_word bit iid (a % 4096) hb hi (Nat.mod_lt _ (by decide))
    rw [raiseErr_first _ _ _ _ _ h0, raiseErr_first _ _ _ _ _ h0, h0]
    split
    · simp only [errIrq_reg, State.reg_setReg_same, State.reg_setReg_ne _ _ _ _ hne]
      rw [if_pos (by rw [ew]; simp [hz]), ec, ← errIrq_setFirst, State.setReg_setReg]
    · simp only [id, State.reg_setReg_same, State.reg_setReg_ne _ _ _ _ hne]
      rw [if_pos (by rw [ew]; simp [hz]), ec, State.setReg_setReg]
  · have hz : ¬ (s.reg (4096 * p + Hdr.errStat)).toNat = 0 := fun h => h0 (BitVec.eq_of_toNat_eq h)
    rw [if_neg (by simp [h0])]
    unfold raiseErr
    simp only [hz, if_false]

end Sys2Proof.Machine
end

