-- ==== Sys2Proof/Certificates/Slice0/Obligations.lean ====
section
/-! DEFINITION. Certificates/Slice0/Obligations.lean: the statements for the provers, family by family of the command table.
A statement about a command names the next state that `exec` answers by the named operations over registers, counters and
records (`setReg`, `setFld`, `count`, `setTxn` and their like), so that everything it does not name is unchanged. -/

open Sys2Proof Sys2Proof.Machine

/-! ### The block as a whole -/

/-- One step takes the command at the front of the queue and runs it on the state with the queue's rest; on an empty queue
one BCLK tick of DTIME passes and nothing else (log entry 2, the model's choice). -/
def Obligations.StepRunsTheFrontCommand : Prop :=
  (∀ (s : State) (c : Instr) (cs : List Instr), s.pending = c :: cs → step s = exec c { s with pending := cs })
    ∧ ∀ s : State, s.pending = [] → step s = .next { s with dtime := s.dtime + 1 }

/-! ### Register pages and transactions (R35 to R66) -/

/-- A refused access sets ACC_DENY in the target page, an access to an unassigned offset is captured in MGT page 0, and
either reads as zero and writes nothing (R35, R47). Rests on the model's choices of log entry 53 (free outcomes are
drawn). -/
def Obligations.RefusedAccessesOnlyRaiseErrors : Prop :=
  ∀ (s : State) (iid : Fin 24) (a : Nat) (be : BitVec 4) (v : Word), s.booted = true → s.domOn 29 = true →
    let s' := if needsOutcome a then s.drew 3 else s
    (s.gate iid a true = .denied →
        exec (.regWrite iid a be v) s = .next (raiseErr (a - a % 4096) Err.accDeny iid (a % 4096) s'))
      ∧ (s.gate iid a true = .unmapped →
        exec (.regWrite iid a be v) s = .next (raiseErr Pg.mgt0 Err.unmapped iid (a % 4096) s'))
      ∧ (s.gate iid a false = .denied →
        exec (.regRead iid a) s = .next (raiseErr (a - a % 4096) Err.accDeny iid (a % 4096) (s.answers 0)))
      ∧ (s.gate iid a false = .unmapped →
        exec (.regRead iid a) s = .next (raiseErr Pg.mgt0 Err.unmapped iid (a % 4096) (s.answers 0)))

/-- A permitted write of MT_PG_SEL stores the PAGE field, leaves the reserved bits and everything else, and a read returns
the register's word (R5, R7, R236). ACC_TBL takes writes only from IIDs 16 to 19 and 22 and only inside the writer's own
transaction, where they go to the shadow; a write outside a transaction sets TXN_REQ, one inside another's sets
TXN_OWNER (R7, R46, R51). -/
def Obligations.RegisterAndAccessTableWrites : Prop :=
  (∀ (s : State) (iid : Fin 24) (v : Word),
      (s.Admits iid R.MT_PG_SEL .mt2 0 →
        ∃ w, exec (.regWrite iid R.MT_PG_SEL 15 v) s = .next (s.setReg R.MT_PG_SEL w)
          ∧ wordFld w F.MT_PG_SEL_PAGE = wordFld v F.MT_PG_SEL_PAGE
          ∧ ∀ g : Fld, F.MT_PG_SEL_PAGE.hi < g.lo → wordFld w g = wordFld (s.reg R.MT_PG_SEL) g)
        ∧ (s.Permits iid R.MT_PG_SEL false .mt2 0 → s.domOn 29 = true →
          exec (.regRead iid R.MT_PG_SEL) s = .next (s.answers (s.reg R.MT_PG_SEL))))
    ∧ ∀ (s : State) (iid : Fin 24) (p : Nat) (j : Fin 3) (be : BitVec 4) (v : Word),
        (pageAt p).isSome = true → s.booted = true → s.domOn 29 = true →
        let a := 4096 * p + (0x80 + 4 * j.val)
        (privileged iid = false →
            exec (.regWrite iid a be v) s = .next (raiseErr (4096 * p) Err.accDeny iid (0x80 + 4 * j.val) s))
          ∧ (privileged iid = true → (s.txn p).openTxn = none →
            exec (.regWrite iid a be v) s = .next (raiseErr (4096 * p) Err.txnReq iid (0x80 + 4 * j.val) s))
          ∧ (∀ x, privileged iid = true → (s.txn p).openTxn = some x → x.owner ≠ iid →
            exec (.regWrite iid a be v) s = .next (raiseErr (4096 * p) Err.txnOwner iid (0x80 + 4 * j.val) s))
          ∧ (∀ x, privileged iid = true → (s.txn p).openTxn = some x → x.owner = iid →
            exec (.regWrite iid a be v) s = .next (s.setTxn p { s.txn p with
              openTxn := some { x with shadow := x.shadow ++ [⟨a, byteMask be, v &&& byteMask be⟩] } }))

/-- BEGIN opens a transaction with the writer as owner and TXN_TAG latched, and is refused with TXN_BUSY while one is open;
COMMIT queues the shadows with the apply point in force and is refused with TXN_OWNER, TXN_FULL or TXN_STATE; ROLLBACK
discards the open transaction (R50, R52, R57). `s1` is the state once the RW fields of the same write are stored. -/
def Obligations.TransactionsOpenCommitAndRollBack : Prop :=
  ∀ (s : State) (iid : Fin 24) (p : Fin 16384) (val : Word) (k : PageKind) (i : Nat),
    s.Permits iid (4096 * p.val + Hdr.txnCtrl) true k i →
    let base := 4096 * p.val
    let s1 : Nat → State := fun cmd => txnCtrlFields iid base 0xFFFFFFFF#32 (wordSet val ⟨1, 0⟩ cmd) s
    let t := s.txn p
    (t.openTxn = none → exec (.txnBegin iid p val) s
        = .next ((s1 1).setTxn p { t with openTxn := some ⟨iid, bitsOf ((s1 1).reg (base + Hdr.txnTag)).toNat 15 0, []⟩ }))
      ∧ (t.openTxn.isSome = true → exec (.txnBegin iid p val) s = .next (raiseErr base Err.txnBusy iid Hdr.txnCtrl (s1 1)))
      ∧ (t.openTxn = none → exec (.txnCommit iid p val) s = .next (raiseErr base Err.txnState iid Hdr.txnCtrl (s1 2)))
      ∧ (∀ x, t.openTxn = some x → x.owner ≠ iid →
        exec (.txnCommit iid p val) s = .next (raiseErr base Err.txnOwner iid Hdr.txnCtrl (s1 2)))
      ∧ (∀ x, t.openTxn = some x → x.owner = iid → t.pend.length ≥ 4 →
        exec (.txnCommit iid p val) s = .next (raiseErr base Err.txnFull iid Hdr.txnCtrl (s1 2)))
      ∧ (∀ x, t.openTxn = some x → x.owner = iid → t.pend.length < 4 →
        let apply := (s1 2).fld (base + Hdr.txnCtrl) Hdr.apply
        let sel := (s1 2).fld (base + Hdr.txnCtrl) Hdr.applySel
        let due := (s1 2).pair (base + Hdr.dtimeLo) (base + Hdr.dtimeHi)
        apply ≠ 4 → applySelOk (inCoreWindow base) apply sel = true →
        ∃ late, exec (.txnCommit iid p val) s = .next ((s1 2).setTxn p { t with
            openTxn := none
            pend := t.pend ++ [⟨iid, x.tag, x.shadow, apply, sel, none, due, false, late, false, false, none⟩] })
          ∧ (apply ≠ 3 ∨ s.dtime < due → late = false) ∧ (apply = 3 → due < s.dtime → late = true))
      ∧ (∀ x, t.openTxn = some x → x.owner = iid → exec (.txnRollback iid p val) s
        = .next ((s1 3).setTxn p { t with openTxn := none, lastResult := 3, lastTag := x.tag }))

/-- At its apply point every marked field of the only pending commit takes its shadow value, every unmarked field keeps its
live one, and TXN_STATUS reports the commit and its tag, late or not (R52, R55, R56). FIRE of a collecting group sets
its apply point and fires its members; its apply point releases every fired member at once; WITHDRAW of a collecting
group discards every member with result 3 (R60). Rests on the model's choices of log entries 18 and 57 (a DTIME equal to
the present tick has passed). -/
def Obligations.CommitsAndGroupsTakeEffect : Prop :=
  (∀ (s : State) (p : Fin 16384) (c : PendCommit) (row : PageRow) (i : Nat),
      pageAt p = some (row, i) → s.domOn (pageDomain row.kind i) = true → plainPage row.kind = true →
      (s.txn p).pend = [c] → c.group = none → c.apply ≠ 3 → c.host = none →
      exec (.commitApply p 0) s = .next (errIf c.late (4096 * p.val) Err.applyLate
        (applyWrites c.writes (s.setTxn p { s.txn p with
          pend := [], lastResult := if c.late then 2 else 1, lastTag := c.tag }))))
    ∧ ∀ (s : State) (iid : Fin 24) (g : Fin 16) (val : Word),
        (s.Admits iid (R.MGT_TXG_CTRL g) .mgt0 0 → (s.group g).fired = false → s.members g ≠ [] →
          wordFld val F.MGT_TXG_CTRL_APPLY < 4 →
          applySelOk false (wordFld val F.MGT_TXG_CTRL_APPLY) (wordFld val F.MGT_TXG_CTRL_APPLY_SEL) = true →
          ∃ t, exec (.groupFire iid g val) s = .next t
            ∧ t.group g = ⟨true, false, false, wordFld val F.MGT_TXG_CTRL_APPLY, wordFld val F.MGT_TXG_CTRL_APPLY_SEL,
                s.pair (R.MGT_TXG_DTIME_LO g) (R.MGT_TXG_DTIME_HI g)⟩
            ∧ t.members g = (s.members g).map (fun c => { c with
                fired := true
                late := wordFld val F.MGT_TXG_CTRL_APPLY == 3
                  && decide (s.pair (R.MGT_TXG_DTIME_LO g) (R.MGT_TXG_DTIME_HI g) ≤ s.dtime) })
            ∧ (∀ a, a ≠ R.MGT_TXG_CTRL g → t.reg a = s.reg a)
            ∧ t = { s with regs := t.regs, txns := t.txns, groups := t.groups })
          ∧ ((s.group g).fired = true → (s.group g).arrived = false → (s.group g).apply ≠ 3 →
            exec (.groupRelease g) s = .next ((s.setGroup g { s.group g with arrived := true }).mapPend (fun c =>
              if c.group == some g.val && c.fired then { c with released := true, reached := true } else c)))
          ∧ (s.Admits iid (R.MGT_TXG_CTRL g) .mgt0 0 → (s.group g).fired = false →
            s.members g ≠ [] → (∀ c ∈ s.members g, c.released = false) →
            wordFld val F.MGT_TXG_CTRL_APPLY < 4 →
            ∃ t, exec (.groupWithdraw iid g val) s = .next t ∧ t.members g = []
              ∧ (∀ a, a ≠ R.MGT_TXG_CTRL g → t.reg a = s.reg a)
              ∧ t = { s with regs := t.regs, txns := t.txns, groups := t.groups })

/-- ERR_STAT is cleared by ones and ERR_FIRST gives up its capture when the last bit clears; ERR_EN stores the enables and
interrupts for a set bit that it newly enables; ERR_INJ sets a defined bit as its event would (R42, R43). An event that
finds ERR_STAT clear sets its bit and is captured in ERR_FIRST with its initiator and offset; one that finds another bit
set leaves the capture; one that finds its own bit set does nothing (R42, R43). Rests on the model's choices of log
entry 47 (the captured fields stay). -/
def Obligations.ErrorRegistersAndFirstError : Prop :=
  (∀ (s : State) (iid : Fin 24) (p : Fin 16384) (val : Word) (row : PageRow) (i : Nat), pageAt p = some (row, i) →
      let base := 4096 * p.val
      let st := s.reg (base + Hdr.errStat)
      let en := s.reg (base + Hdr.errEn)
      (s.Permits iid (base + Hdr.errStat) true row.kind i → exec (.errStatClear iid p val) s = .next (
          let s1 := s.setReg (base + Hdr.errStat) (st &&& ~~~val)
          if st &&& ~~~val = 0 then s1.setReg (base + Hdr.errFirst) (s.reg (base + Hdr.errFirst) &&& ~~~(bit32 31)) else s1))
        ∧ (s.Permits iid (base + Hdr.errEn) true row.kind i → exec (.errEnWrite iid p val) s = .next (
          let s1 := s.setReg (base + Hdr.errEn) val
          if val &&& ~~~en &&& st = 0 then s1 else errIrq base s1))
        ∧ (s.Permits iid (base + Hdr.errInj) true row.kind i → bitOf (errMask row) (wordFld val ⟨4, 0⟩) = true →
          exec (.errInj iid p val) s = .next (raiseErr base (wordFld val ⟨4, 0⟩) iid Hdr.errInj s)))
    ∧ ∀ (s : State) (base bit iid off : Nat), bit < 32 → iid < 32 → off < 4096 →
        let t := raiseErr base bit iid off s
        let st := s.reg (base + Hdr.errStat)
        (st = 0 → t.reg (base + Hdr.errStat) = bit32 bit
            ∧ wordFld (t.reg (base + Hdr.errFirst)) ⟨4, 0⟩ = bit ∧ wordFld (t.reg (base + Hdr.errFirst)) ⟨9, 5⟩ = iid
            ∧ wordFld (t.reg (base + Hdr.errFirst)) ⟨21, 10⟩ = off ∧ wordFld (t.reg (base + Hdr.errFirst)) ⟨31, 31⟩ = 1)
          ∧ (st ≠ 0 → t.reg (base + Hdr.errFirst) = s.reg (base + Hdr.errFirst)
            ∧ t.reg (base + Hdr.errStat) = st ||| bit32 bit)
          ∧ (st.getLsbD bit = true → t = s)
          ∧ t = { s with regs := t.regs, errIrqs := t.errIrqs, hif := t.hif }
          ∧ ∀ a, a ≠ base + Hdr.errStat → a ≠ base + Hdr.errFirst → t.reg a = s.reg a

/-- A snapshot request is due two BCLK ticks later; the tick copies every live counter of a page whose domain is on into its
shadow, raises SNAP_GEN and records DTIME (R63 to R66). Rests on the model's choices of log entry 5 (when the tick
comes). -/
def Obligations.SnapshotsCopyCounters : Prop :=
  ∀ s : State,
    (∀ iid : Fin 24, s.Admits iid R.MGT_SNAP .mgtSnap 0 → s.snap.due = none → 16 ≤ iid.val → Tab.find s.snap.last iid = none →
      exec (.snapReq iid) s = .next { s with snap := { s.snap with due := some (s.dtime + 2), who := [iid.val] } })
      ∧ (∀ due, s.snap.due = some due → s.dtime ≤ due → s.booted = true →
        ∃ t, exec .snapshotTick s = .next t ∧ t.dtime = due ∧ t.snap.count = s.snap.count + 1 ∧ t.snap.due = none
          ∧ t.reg R.MGT_SNAP_DTIME_LO = BitVec.ofNat 32 due ∧ t.reg R.MGT_SNAP_DTIME_HI = BitVec.ofNat 32 (due / 2 ^ 32)
          ∧ SameMemory s t ∧ t.cores = s.cores ∧ t.txns = s.txns)

/-! ### The fabric and the die-to-die link (R29 to R32, R403, R480, R497) -/

/-- A walking test starts on a link whose domain is on and which is idle, is refused with WALK_REFUSED otherwise, and its
end sets STATE and the link's WALK_FAIL bit (R31, R480, R497). An injection arms one data beat of a link and direction.
A beat that fails its CRC is resent at most three times; with the third resend failing too it is passed on poisoned, as
the row it goes to then is (R31, R403). A retrain of the die-to-die link lasts from its command to its completion; a
lane that fails is repaired from the redundant lanes while one is left, and asks for service once none is (R29, R32,
R410, R415). Rests on the model's choices of log entries 97 and 98. -/
def Obligations.FabricLinksResendRetrainAndTest : Prop :=
  (∀ (s : State) (iid : Fin 24) (val : Word),
      let k := wordFld val F.FAB_WALK_LINK
      let ready := s.linkOn k && s.linkIdle k && s.fld R.FAB_WALK_STATUS F.FAB_WALK_STATUS_STATE != 1
      (s.Admits iid R.FAB_WALK .fab0 0 → k < 31 → ready = true →
          exec (.fabWalkGo iid val) s
            = .next ((s.setReg R.FAB_WALK_STATUS (BitVec.ofNat 32 (1 + 4 * k))).count Pg.fab0 4 1))
        ∧ (s.Admits iid R.FAB_WALK .fab0 0 → k < 31 → ready = false →
          exec (.fabWalkGo iid val) s = .next (raiseErr Pg.fab0 E.fab0_WALK_REFUSED iid 0x100 s))
        ∧ (∀ link : Fin 31, s.fld R.FAB_WALK_STATUS F.FAB_WALK_STATUS_STATE = 1 →
          s.fld R.FAB_WALK_STATUS F.FAB_WALK_STATUS_LINK = link.val →
          exec (.walkTestDone true) s = .next
              ((s.setFld R.FAB_WALK_STATUS F.FAB_WALK_STATUS_STATE 2).setFld (R.FAB_LINK_STAT link) F.FAB_LINK_STAT_WALK_FAIL 0)
            ∧ exec (.walkTestDone false) s = .next (errEvent Pg.fab0 E.fab0_WALK_FAIL
              (((s.setFld R.FAB_WALK_STATUS F.FAB_WALK_STATUS_STATE 3).setFld (R.FAB_LINK_STAT link)
                F.FAB_LINK_STAT_WALK_FAIL 1).count Pg.fab0 5 1))))
    ∧ (∀ (s : State) (iid : Fin 24) (val : Word) (link : Fin 31) (dir : Fin 2) (bad : Nat) (row : Option (Fin 18 × Fin 65536)),
        let k := (wordFld val F.FAB_CRC_INJ_LINK, wordFld val F.FAB_CRC_INJ_DIR)
        let fails := if s.fabInj.contains (link.val, dir.val) then max bad 1 else bad
        (s.Admits iid R.FAB_CRC_INJ .fab0 0 → k.1 < 31 → s.fabInj.contains k = false →
            exec (.fabCrcInj iid val) s = .next { s with fabInj := s.fabInj ++ [k] })
          ∧ ∃ t, exec (.fabricBeat link dir bad row) s = .next t
            ∧ t.fabInj = s.fabInj.filter (· != (link.val, dir.val))
            ∧ t.counter (cntKey Pg.fab0 0) = (s.counter (cntKey Pg.fab0 0) + 1) % 2 ^ 64
            ∧ (fails = 0 → t = { s with fabInj := t.fabInj, cnt := t.cnt })
            ∧ (0 < fails → t.counter (cntKey Pg.fab0 1) = (s.counter (cntKey Pg.fab0 1) + min fails 3) % 2 ^ 64
              ∧ t.fld (R.FAB_LINK_STAT link) F.FAB_LINK_STAT_RESENDS
                = min (s.fld (R.FAB_LINK_STAT link) F.FAB_LINK_STAT_RESENDS + min fails 3) 65535
              ∧ bitOf (t.reg (Pg.fab0 + Hdr.errStat)).toNat E.fab0_CRC_RESEND = true)
            ∧ (0 < fails → fails ≤ 3 → t.rowPoison = s.rowPoison)
            ∧ (3 < fails → t.counter (cntKey Pg.fab0 2) = (s.counter (cntKey Pg.fab0 2) + 1) % 2 ^ 64
              ∧ bitOf (t.reg (Pg.fab0 + Hdr.errStat)).toNat E.fab0_BEAT_POISON = true
              ∧ ∀ n r, row = some (n, r) → t.rowTag n r = 2)
            ∧ t = { s with
              regs := t.regs, cnt := t.cnt, fabInj := t.fabInj, rowPoison := t.rowPoison, errIrqs := t.errIrqs, hif := t.hif })
    ∧ ∀ (s : State) (iid : Fin 24) (training : Bool),
        (s.Admits iid R.FAB_D2D_CTRL .fab2 0 → s.flag R.FAB_D2D_STATUS F.FAB_D2D_STATUS_RETRAINING = false →
            exec (.d2dRetrain iid) s = .next (errEvent Pg.fab0 E.fab0_D2D_RETRAIN
              (((s.setFld R.FAB_D2D_STATUS F.FAB_D2D_STATUS_RETRAINING 1).count Pg.fab0 6 1).count Pg.tstD2d 1 1)))
          ∧ (s.flag R.FAB_D2D_STATUS F.FAB_D2D_STATUS_RETRAINING = true →
            exec .d2dRetrainDone s = .next (s.setFld R.FAB_D2D_STATUS F.FAB_D2D_STATUS_RETRAINING 0))
          ∧ ∃ t, exec (.d2dLaneFail training) s = .next t
            ∧ (0 < s.fld R.REL_D2D F.REL_D2D_LEFT →
              t.fld R.REL_D2D F.REL_D2D_LEFT = s.fld R.REL_D2D F.REL_D2D_LEFT - 1
                ∧ t.fld R.REL_D2D F.REL_D2D_REPAIRED = min 255 (s.fld R.REL_D2D F.REL_D2D_REPAIRED + 1)
                ∧ t.fld R.FAB_D2D_STATUS F.FAB_D2D_STATUS_LEFT = t.fld R.REL_D2D F.REL_D2D_LEFT
                ∧ t.fld R.FAB_D2D_STATUS F.FAB_D2D_STATUS_REPAIRED = t.fld R.REL_D2D F.REL_D2D_REPAIRED)
            ∧ (s.fld R.REL_D2D F.REL_D2D_LEFT = 0 →
              t.fld R.REL_D2D F.REL_D2D_REPAIRED = s.fld R.REL_D2D F.REL_D2D_REPAIRED
                ∧ t.flag R.REL_SVC F.REL_SVC_D2D = true ∧ t.flag R.REL_SVC F.REL_SVC_ASSERTED = true)

/-! ### The array and its verification (R76 to R98, R118, R528) -/

/-- An ISSUE whose descriptor passes every check goes in flight alone on a core whose pipeline is free: ARR_STATUS shows run 1
and its tag, and the sequencer goes on to the next slot. One whose checks fail faults the context with the lowest code and
runs nothing (R78, R79, R84, R93, R96). The command names the kind that the descriptor's OPCODE and KIND code (R76). -/
def Obligations.OperationsIssueAfterTheirChecks : Prop :=
  ∀ (s : State) (n : Fin 18) (c : Instr) (k : OpKind) (x : Nat),
    (c, k) ∈ [(Instr.gemm n false, OpKind.gemm), (.conv2d n false, .conv2d), (.fftconv n false, .fftconv),
      (.pool n false, .pool), (.boxcrop n false, .boxcrop), (.eltwise n false, .eltwise),
      (.squallForward n false, .squallForward), (.squallMerge n false, .squallMerge),
      (.squallBackward n false, .squallBackward)] →
    s.running n = some x → insOp (s.slot n (s.pc n)).toNat = 1 → s.pc n < 16383 →
    let slot := bitsOf (s.slot n (s.pc n)).toNat 13 0
    let d := s.descAt n slot
    let t := s.siteOf n x d
    slot + 7 ≤ 16383 → opKind d = some k → Op.gangLog2 d = 0 →
    (s.core n).bankSwap = none → s.flag (R.SEQ_CTRL n) F.SEQ_CTRL_DRAIN_REQ = false → (s.core n).scanQ = [] →
    (s.core n).ops = [] →
    ((opChk s t d k).faults = [] → (s.core n).loops = [] →
        ∃ u, exec c s = .next u ∧ (u.core n).ops = [mkOp s t d k [n]] ∧ u.pc n = s.pc n + 1 ∧ u.seqState n = Seq.running
          ∧ u.reg (R.ARR_STATUS n) = BitVec.ofNat 32 (1 + 8 * 1 + 65536 * Op.tag d)
          ∧ (∀ m, m ≠ n.val → u.core m = s.core m)
          ∧ (∀ a, a ≠ R.ARR_STATUS n → a ≠ R.SEQ_STATUS n → u.reg a = s.reg a)
          ∧ u = { s with regs := u.regs, cores := u.cores })
      ∧ ((opChk s t d k).faults ≠ [] →
        exec c s = .next (ctxFaults x (some n) [] (Op.tag d) (opChk s t d k).faults (countChk n (opChk s t d k) s)))

/-- A verdict that passes on every member commits the operation on all of them; one that fails before the third run writes
no row and starts the next run; the third failing run is final unless a spare covers it (R16, R82, R83, R88, R89). -/
def Obligations.VerdictsCommitOrRerun : Prop :=
  ∀ (s : State) (n : Fin 18) (res : List CheckResult) (o : OpFlight),
    s.headOp n = some o → s.together o (fun q => q.run != 0 && q.run == o.run && !q.swapping && !q.forced) = true →
    (∀ m ∈ o.gang, ∀ q, s.headOp m = some q → s.opPoison m q = 0) →
    let bads := (o.gang.map (fun m => (m, s.checkOf res m ((s.headOp m).getD o)))).filter (fun b => b.2.fails)
    (bads = [] → exec (.verdict n res) s = .next (commitGang o.gang s))
      ∧ (bads ≠ [] → o.run < 3 → o.gang = [n.val] → (s.core n).ops = [o] →
        ∃ t, exec (.verdict n res) s = .next t ∧ t.spad = s.spad ∧ t.da = s.da ∧ t.imem = s.imem
          ∧ (t.headOp n).map (·.run) = some (o.run + 1)
          ∧ (∀ r, r < 64 → t.reg (R.SPD_REGION_HEAD n r) = s.reg (R.SPD_REGION_HEAD n r)
            ∧ t.reg (R.SPD_REGION_TAIL n r) = s.reg (R.SPD_REGION_TAIL n r)))

/-- The commit of an output region writes its rows from HEAD upwards, clean, and advances HEAD over exactly those rows; TAIL
and every other row keep their content (R82, R127, R130). The wrap bits are those of a region whose pointers moved by R130. -/
def Obligations.CommittedRowsAdvanceTheHead : Prop :=
  ∀ (s : State) (n r k : Nat) (rows : List (Nat × List Byte)), r < 64 → n < 18 → Memory.wf s.spad = true →
    let g := s.rgn n r
    g.raw = false → g.base + g.size ≤ 65536 → g.head < g.size → g.tail < g.size →
    (g.headWrap == g.tailWrap) = decide (g.tail ≤ g.head) → 0 < k → k ≤ g.free →
    (∀ w ∈ rows, w.1 < k ∧ w.2.length = 512) → (rows.map (·.1)).Nodup →
    let t := commitOut n (r, k, rows) s
    (t.rgn n r).committed = g.committed + k
      ∧ (t.rgn n r).tail = g.tail
      ∧ (∀ w ∈ rows, t.rowTag n (g.rowHead w.1) = 0 ∧ ∀ b, b < 512 → t.rowByte n (g.rowHead w.1) b = w.2.getD b 0)
      ∧ (∀ m q b, q < 65536 → b < 512 → (m ≠ n ∨ ∀ w ∈ rows, q ≠ g.rowHead w.1) → t.rowByte m q b = s.rowByte m q b)

/-- A swap onto a spare maps the failing row or column to it and runs the operation a fourth time; a spare due to wear is
brought in at a drained boundary (R89, R90, R95). A run beyond ARR_WDOG faults its context with WATCHDOG; a write to
ARR_FAULT_INJ arms a cell; a write to ARR_STAT_CLR clears the selected statistics slots and no other (R93, R98, R118,
R528). -/
def Obligations.SparesWatchdogAndStatistics : Prop :=
  (∀ (s : State) (n : Fin 18) (q : Nat × Bool), q.1 ≤ 16 →
      let f := if q.2 then F.ARR_SPARE_MAP_ROW_REPLACED else F.ARR_SPARE_MAP_COL_REPLACED
      let used := if q.2 then F.REL_CORE_ROW_USED else F.REL_CORE_COL_USED
      (∀ o, s.headOp n = some o → o.swapping = true → o.gang = [n.val] → s.spareFor n o.loc = some q →
          ∃ t, exec (.spareSwapDone n) s = .next t ∧ t.fld (R.ARR_SPARE_MAP n) f = q.1 ∧ t.flag (R.REL_CORE n) used = true
            ∧ (t.headOp n).map (fun h => (h.run, h.swapping)) = some (4, false) ∧ t.spad = s.spad)
        ∧ (∀ qs, s.busy n = false → s.domOn n = true → (s.core n).spareDue = q :: qs →
          (if q.2 then s.rowSpareFree n else s.colSpareFree n) = true →
          ∃ t, exec (.wearSwap n) s = .next t ∧ t.fld (R.ARR_SPARE_MAP n) f = q.1 ∧ t.flag (R.REL_CORE n) used = true
            ∧ (t.core n).spareDue = qs ∧ t.spad = s.spad))
    ∧ ∀ (s : State) (n : Fin 18) (iid : Fin 24) (val : Word),
        (∀ o rest, (s.core n).ops = o :: rest → o.run ≠ 0 → o.swapping = false → s.fld (R.ARR_WDOG n) F.ARR_WDOG_LIMIT ≠ 0 →
            exec (.arrWdogTimeout n) s
              = .next (ctxFault o.ctx (some n) o.gang Flt.watchdog 0 o.tag (errEvent (Pg.arr0 n) E.arr0_WDOG s)))
          ∧ (s.Admits iid (R.ARR_FAULT_INJ n) .arr0 n → wordFld val F.ARR_FAULT_INJ_ROW ≤ 17 →
            wordFld val F.ARR_FAULT_INJ_COL ≤ 17 → wordFld val F.ARR_FAULT_INJ_MODE ≤ 2 →
            exec (.arrFaultInj iid n val) s = .next (s.setCore n { s.core n with
              injRow := wordFld val F.ARR_FAULT_INJ_ROW
              injCol := wordFld val F.ARR_FAULT_INJ_COL
              injMode := wordFld val F.ARR_FAULT_INJ_MODE }))
          ∧ ∀ hi : Bool, s.Admits iid (if hi then R.ARR_STAT_CLR_HI n else R.ARR_STAT_CLR_LO n) .arr6 n →
            ∃ t, exec (.arrStatClr iid n hi val) s = .next t
              ∧ (∀ k : Fin 64, val.getLsbD (k.val % 32) = true → (32 ≤ k.val ↔ hi = true) →
                t.reg (R.ARR_STAT_MAX n k) = 0 ∧ t.reg (R.ARR_STAT_INFO n k) = 0)
              ∧ (∀ a, (∀ k : Fin 64, val.getLsbD (k.val % 32) = true → (32 ≤ k.val ↔ hi = true) →
                  a ≠ R.ARR_STAT_MAX n k ∧ a ≠ R.ARR_STAT_INFO n k) → t.reg a = s.reg a)
              ∧ t = { s with regs := t.regs, cnt := t.cnt }

/-! ### Number formats (R99 to R105) -/

/-- Every code of a float format but −0 is written back as it was read, −0 as zero and any NaN as the canonical NaN; the
sixteen KR4 codes have the levels of R102, bit 3 negates, and each value is encoded by its own code at every scale; packed
elements are read back where they were packed (R99 to R102, R105). -/
def Obligations.NumberFormatsKeepTheirCodes : Prop :=
  (∀ (f : NumFmt) (w : Nat), f.isFloat = true → w < 2 ^ f.bits →
      (f.decode w ≠ .nan → w ≠ 2 ^ (f.bits - 1) → (f.encode (f.decode w)).bits = w)
        ∧ (f.decode w = .nan → f.encode (f.decode w) = ⟨f.nanBits, false, true⟩)
        ∧ (w = 2 ^ (f.bits - 1) → f.encode (f.decode w) = ⟨0, false, false⟩))
    ∧ (List.range 16).map kr4Level = [0, 23, 48, 73, 102, 135, 179, 256, 0, -23, -48, -73, -102, -135, -179, -256]
    ∧ (∀ (c m : Nat) (e : Int), c < 16 → c ≠ kr4Marker → 0 < m →
      kr4Encode (Fv.ofDy ⟨kr4Level c * m, e - 8⟩) ⟨m, e⟩ = ⟨c, false, false⟩)
    ∧ ∀ (f : NumFmt) (l : List Nat), (∀ w ∈ l, w < 2 ^ f.bits) →
      (packElems f l).length = f.rowBytes l.length
        ∧ ∀ k, k < l.length → f.elem (fun i => (packElems f l).getD i 0) k = l.getD k 0

/-! ### The sequencer and the gang barrier (R73 to R75, R79, R91, R96) -/

/-- WAITSEM, WAITROWS, WAITROOM and DRAIN pass at once where their condition holds, a semaphore's count being subtracted,
and otherwise hold the sequencer at their slot until the release that finds the condition holding (R79). `q` is where
the loops send the sequencer after its slot. SIGNAL adds to a semaphore of its context, saturating at 65,535; BRANCH
goes to its target; LOOP opens a frame, or goes past its body for a count of zero, and is illegal beyond four levels or
with its body's end behind it (R79). Rests on the model's choices of log entry 4 (an event whose condition fails changes
nothing). -/
def Obligations.WaitsSignalsBranchesAndLoops : Prop :=
  (∀ (s : State) (n : Fin 18) (x : Nat) (q : List LoopFrame × Nat) (c r : Instr) (op : Nat) (w : SeqWait) (ready : Bool),
      loopStep (s.core n).loops (s.pc n) = q → q.2 ≤ 16383 → s.flag (R.SEQ_CTRL n) F.SEQ_CTRL_DRAIN_REQ = false →
      let word := (s.slot n (s.pc n)).toNat
      let k := bitsOf word 5 0
      let v := bitsOf word 31 16
      let sem := R.SEQ_SEM n k
      (c, r, op, w, ready) ∈ [
        (Instr.waitsem n, Instr.waitsemRelease n, 2, SeqWait.sem k v, decide (v ≤ s.fld sem F.SEQ_SEM_COUNT)),
        (.waitrows n, .waitrowsRelease n, 4, .rows k v, decide (v ≤ (s.rgn n k).committed)),
        (.waitroom n, .waitroomRelease n, 5, .room k v, decide (v ≤ (s.rgn n k).free)),
        (.drain n, .drainRelease n, 9, .drain, !s.busy n)] →
      let past : State → Prop := fun t => SeqAt n q.2 Seq.running (if op = 2 then [sem] else []) s t
        ∧ (t.core n).loops = q.1 ∧ (t.core n).wait = .none
        ∧ t.fld sem F.SEQ_SEM_COUNT = if op = 2 then s.fld sem F.SEQ_SEM_COUNT - v else s.fld sem F.SEQ_SEM_COUNT
      (s.AtInstr n x op → ready = true → ∃ t, exec c s = .next t ∧ past t)
        ∧ (s.AtInstr n x op → ready = false →
          ∃ t, exec c s = .next t ∧ SeqAt n (s.pc n) Seq.waiting [] s t ∧ (t.core n).wait = w)
        ∧ (s.waitingFor n = some (x, w) → ready = true → ∃ t, exec r s = .next t ∧ past t)
        ∧ (s.waitingFor n = some (x, w) → ready = false → exec r s = .next s))
    ∧ ∀ (s : State) (n : Fin 18) (x : Nat),
        let word := (s.slot n (s.pc n)).toNat
        let sem := R.SEQ_SEM n (bitsOf word 5 0)
        let last := bitsOf word 29 16
        (∀ q, loopStep (s.core n).loops (s.pc n) = q → q.2 ≤ 16383 → s.AtInstr n x 3 →
            ∃ t, exec (.signal n) s = .next t ∧ SeqAt n q.2 Seq.running [sem] s t ∧ (t.core n).loops = q.1
              ∧ t.fld sem F.SEQ_SEM_COUNT = min (s.fld sem F.SEQ_SEM_COUNT + bitsOf word 31 16) 65535
              ∧ (65535 < s.fld sem F.SEQ_SEM_COUNT + bitsOf word 31 16 → t.flag sem F.SEQ_SEM_OVF = true))
          ∧ (s.AtInstr n x 7 → ∃ t, exec (.branch n) s = .next t ∧ SeqAt n (bitsOf word 13 0) Seq.running [] s t
            ∧ (t.core n).loops = (s.core n).loops)
          ∧ (s.AtInstr n x 6 → s.pc n < last → (s.core n).loops.length < 4 → 0 < bitsOf word 15 0 →
            ∃ t, exec (.loop n) s = .next t ∧ SeqAt n (s.pc n + 1) Seq.running [] s t
              ∧ (t.core n).loops = ⟨s.pc n + 1, last, bitsOf word 15 0⟩ :: (s.core n).loops)
          ∧ (s.AtInstr n x 6 → s.pc n < last → (s.core n).loops = [] → bitsOf word 15 0 = 0 → last < 16383 →
            ∃ t, exec (.loop n) s = .next t ∧ SeqAt n (last + 1) Seq.running [] s t)
          ∧ (s.AtInstr n x 6 → last ≤ s.pc n ∨ 4 ≤ (s.core n).loops.length →
            exec (.loop n) s = .next (ctxFault x (some n) [] Flt.illegal 0 0 s))

/-- SWITCH loads a model's region image and goes on at its entry slot once the core has drained; SEQ_WAIT stands in low
power after its slot; DONE halts once nothing is outstanding and waits until then (R79, R91, R145, R473). START sends a
halted sequencer to SEQ_ENTRY; a drain request holds a core that stands at an operation boundary with nothing in flight,
and its withdrawal lets the core go on (R81, R96). Rests on the model's choices of log entries 8, 9 and 63. -/
def Obligations.SequencersSwitchStartAndDrain : Prop :=
  (∀ (s : State) (n : Fin 18) (x : Nat),
      let word := (s.slot n (s.pc n)).toNat
      let m := bitsOf word 4 0
      let img := s.fld (R.SEQ_MODEL n m) F.SEQ_MODEL_IMAGE
      (s.AtInstr n x 8 → s.flag (R.SEQ_MODEL n m) F.SEQ_MODEL_VALID = true → s.busy n = true →
          ∃ t, exec (.switch n) s = .next t ∧ SeqAt n (s.pc n) Seq.waiting [] s t ∧ (t.core n).wait = .switch m)
        ∧ (s.AtInstr n x 8 → s.flag (R.SEQ_MODEL n m) F.SEQ_MODEL_VALID = true → s.busy n = false → img + 15 ≤ 16383 →
          (∀ i, i < 16 → wordFld (s.imageEntry n (img + i)).2 F.SPD_REGION_OWNER_CTX = x) →
          ∃ t, exec (.switch n) s = .next t ∧ t.pc n = s.fld (R.SEQ_MODEL n m) F.SEQ_MODEL_ENTRY
            ∧ t.seqState n = Seq.running ∧ (t.core n).loops = []
            ∧ t.reg (R.SPD_REGION_GEOM n (bitsOf (s.imageEntry n (img + 15)).2.toNat 27 22)) = (s.imageEntry n (img + 15)).1
            ∧ (∀ a, (∀ r, r < 64 → a ≠ R.SPD_REGION_GEOM n r ∧ a ≠ R.SPD_REGION_OWNER n r ∧ a ≠ R.SPD_REGION_HEAD n r
                ∧ a ≠ R.SPD_REGION_TAIL n r) → a ≠ R.ARR_STATUS n → a ≠ R.SEQ_STATUS n → t.reg a = s.reg a)
            ∧ t = { s with regs := t.regs, cores := t.cores })
        ∧ (s.AtInstr n x 10 → s.busy n = false → (s.core n).loops = [] → s.pc n < 16383 →
          s.fld (R.PWR_DOM_CTRL n) F.PWR_DOM_CTRL_MODE ≠ 2 →
          ∃ t, exec (.seqWait n) s = .next t ∧ SeqAt n (s.pc n + 1) Seq.lowPower [] s t)
        ∧ (s.AtInstr n x 12 → s.seqQuiet n x = true →
          ∃ t, exec (.done n) s = .next t ∧ SeqAt n (s.pc n) Seq.halted [] s t ∧ (t.core n).doneSig = true)
        ∧ (s.AtInstr n x 12 → s.seqQuiet n x = false →
          ∃ t, exec (.done n) s = .next t ∧ SeqAt n (s.pc n) Seq.waiting [] s t ∧ (t.core n).wait = .done)
        ∧ (s.waitingFor n = some (x, .done) → s.seqQuiet n x = true →
          ∃ t, exec (.doneComplete n) s = .next t ∧ SeqAt n (s.pc n) Seq.halted [] s t ∧ (t.core n).doneSig = true))
    ∧ ∀ (s : State) (iid : Fin 24) (n : Fin 18) (val : Word), s.Admits iid (R.SEQ_CTRL n) .seq n →
        let ctl := R.SEQ_CTRL n
        (s.seqState n = Seq.halted → wordFld val F.SEQ_CTRL_DRAIN_REQ = 0 →
            ∃ t, exec (.seqStart iid n val) s = .next t
              ∧ SeqAt n (s.fld (R.SEQ_ENTRY n) F.SEQ_ENTRY_SLOT) Seq.running [ctl] s t
              ∧ (t.core n).ctx = some ((s.core n).ctx.getD 0) ∧ (t.core n).loops = [] ∧ (t.core n).wait = .none)
          ∧ (s.seqState n = Seq.running → s.busy n = false → s.atBoundary n = true → (s.core n).wait = .none →
            ∃ t, exec (.drainReq iid n true) s = .next t ∧ SeqAt n (s.pc n) Seq.drained [ctl] s t
              ∧ t.flag ctl F.SEQ_CTRL_DRAIN_REQ = true)
          ∧ (s.seqState n = Seq.running → s.busy n = true →
            ∃ t, exec (.drainReq iid n true) s = .next t ∧ SeqAt n (s.pc n) Seq.running [ctl] s t
              ∧ t.flag ctl F.SEQ_CTRL_DRAIN_REQ = true)
          ∧ (s.seqState n = Seq.drained →
            ∃ t, exec (.drainReq iid n false) s = .next t ∧ SeqAt n (s.pc n) Seq.running [ctl] s t
              ∧ t.flag ctl F.SEQ_CTRL_DRAIN_REQ = false)

/-- A member of a gang waits at a BARRIER, which a core in no gang passes; the last arrival of a well-formed gang sends
every member on; a member that waits too long faults its context with WATCHDOG (R73 to R75). The last ISSUE to arrive at
the barrier of a gang whose members all pass their checks puts the operation in flight on each of them, and on none
where one of them fails its checks (R74, R75, R78). -/
def Obligations.GangsReleaseAndStartTogether : Prop :=
  (∀ (s : State) (n : Fin 18) (x : Nat),
      (s.AtInstr n x 11 → s.fld (R.ARR_GANG n) F.ARR_GANG_SIZE_LOG2 = 0 → (s.core n).loops = [] → s.pc n < 16383 →
          ∃ t, exec (.barrier n) s = .next t ∧ SeqAt n (s.pc n + 1) Seq.running [] s t)
        ∧ (s.AtInstr n x 11 → s.fld (R.ARR_GANG n) F.ARR_GANG_SIZE_LOG2 ≠ 0 →
          ∃ t, exec (.barrier n) s = .next t ∧ SeqAt n (s.pc n) Seq.waiting [] s t ∧ (t.core n).wait = .barrier)
        ∧ ((s.core n).ctx = some x → (s.core n).wait = .barrier → s.gangWrong (s.gangOf n) = false →
          (∀ m ∈ s.gangOf n, (s.core m).wait = .barrier ∧ (s.core m).loops = [] ∧ s.pc m < 16383
            ∧ s.flag (R.SEQ_CTRL m) F.SEQ_CTRL_DRAIN_REQ = false) →
          ∃ t, exec (.barrierRelease n) s = .next t ∧ t.spad = s.spad
            ∧ ∀ m ∈ s.gangOf n, t.pc m = s.pc m + 1 ∧ t.seqState m = Seq.running ∧ (t.core m).wait = .none)
        ∧ ((s.core n).ctx = some x → (s.core n).wait = .barrier →
          exec (.barrierTimeout n) s = .next (ctxFault x (some n) (s.gangOf n) Flt.watchdog 0 0
            (errEvent (Pg.arr0 n) E.arr0_BARRIER_TIMEOUT s))))
    ∧ ∀ (s : State) (n : Fin 18) (x slot : Nat) (k : OpKind),
        (s.core n).ctx = some x → (s.core n).arrival = some slot → s.gangWrong (s.gangOf n) = false →
        let d := s.descAt n slot
        opKind d = some k →
        (∀ m ∈ s.gangOf n, s.seqState m = Seq.waiting ∧ (s.core m).loops = [] ∧ s.pc m < 16383
          ∧ ∃ q, (s.core m).arrival = some q ∧ Op.tag (s.descAt m q) = Op.tag d ∧ Op.opcode (s.descAt m q) = Op.opcode d) →
        ((∀ m ∈ s.gangOf n, (opChk s (s.siteOf m x d) d k).faults = []) →
            ∃ t, exec (.issueBarrierRelease n false) s = .next t ∧ t.spad = s.spad
              ∧ ∀ m ∈ s.gangOf n, t.seqState m = Seq.running ∧ t.pc m = s.pc m + 1
                ∧ (t.core m).ops.length = (s.core m).ops.length + 1
                ∧ ((t.core m).ops.getLast?.map (fun o => (o.kind, o.desc, o.run, o.gang))) = some (k, d, 1, s.gangOrder (s.gangOf n)))
          ∧ ((∃ m ∈ s.gangOf n, (opChk s (s.siteOf m x d) d k).faults ≠ []) →
            ∃ t, exec (.issueBarrierRelease n false) s = .next t ∧ t.spad = s.spad
              ∧ (∀ m ∈ s.gangOf n, (t.core m).ops.length ≤ (s.core m).ops.length)
              ∧ ((s.ctx x).fault = none → (t.ctx x).fault.isSome = true))

/-! ### Core DMA and the scratchpads (R126 to R152, R178) -/

/-- An ISSUE of a transfer posts its descriptor to the channel that it names and the sequencer goes on; a full queue is
SEQ_ILLEGAL (R138, R139, R143, R178). An idle channel that is not held starts its oldest descriptor once it passes its
checks, and faults the descriptor's context where it does not; a held channel starts nothing (R138, R140, R149, R150).
`s0` is the state once the descriptor has left the queue. Rests on the model's choices of log entry 4 (an event whose
condition fails changes nothing). -/
def Obligations.TransfersPostAndStart : Prop :=
  (∀ (s : State) (n : Fin 18) (x : Nat) (c : Instr) (k : DmaKind) (q : List LoopFrame × Nat),
      s.AtInstr n x 1 → loopStep (s.core n).loops (s.pc n) = q → q.2 ≤ 16383 →
      let slot := bitsOf (s.slot n (s.pc n)).toNat 13 0
      let d := s.descAt n slot
      let ch := if k = .dma then Dma.chan d else Sq.chan d
      slot + 7 ≤ 16383 →
      ((c = .dmaDaToRegion n ∧ Op.opcode d = 10 ∧ Dma.dir d = 0 ∧ k = .dma)
        ∨ (c = .dmaRegionToDa n ∧ Op.opcode d = 10 ∧ Dma.dir d = 1 ∧ k = .dma)
        ∨ (c = .dmaRegionToRegion n ∧ Op.opcode d = 10 ∧ Dma.dir d = 2 ∧ k = .dma)
        ∨ (c = .dmaDaToImem n ∧ Op.opcode d = 10 ∧ Dma.dir d = 3 ∧ k = .dma)
        ∨ (c = .dmaRegionToCore n ∧ Op.opcode d = 10 ∧ Dma.dir d = 4 ∧ k = .dma)
        ∨ (c = .dmaFill n ∧ Op.opcode d = 10 ∧ Dma.dir d = 5 ∧ k = .dma)
        ∨ (c = .pageFetch n ∧ Op.opcode d = 6 ∧ Sq.kind d = 3 ∧ k = .pageFetch)
        ∨ (c = .pageStore n ∧ Op.opcode d = 6 ∧ Sq.kind d = 4 ∧ k = .pageStore)) →
      ((s.chan n ch).queue.length < 8 →
          ∃ t, exec c s = .next t ∧ SeqAt n q.2 Seq.running [R.SPD_DMA_STATUS n ch, R.SPD_DMA_ROWS n ch] s t
            ∧ t.chan n ch = { s.chan n ch with queue := (s.chan n ch).queue ++ [⟨k, d, x, true, none⟩] }
            ∧ (∀ o, o < 4 → o ≠ ch → t.chan n o = s.chan n o)
            ∧ t.fld (R.SPD_DMA_STATUS n ch) F.SPD_DMA_STATUS_QUEUED = (s.chan n ch).queue.length + 1)
        ∧ (8 ≤ (s.chan n ch).queue.length → exec c s = .next (ctxFault x (some n) [] Flt.illegal 0 0 s)))
    ∧ ∀ (s : State) (n : Fin 18) (ch : Fin 4) (t : DmaDesc) (ts : List DmaDesc),
        s.swapReqs = [] → (s.chan n ch).cur = none → (s.chan n ch).queue = t :: ts → s.domOn n = true →
        let held := s.flag (R.SPD_DMA_CTRL n ch) F.SPD_DMA_CTRL_HOLD
        let s0 := chanStatus n ch 0 (s.setChan n ch { s.chan n ch with queue := ts })
        let chk := descChk s0 n ch t
        (held = true → exec (.channelStart n ch none false) s = .next s)
          ∧ (held = false → chk.faults ≠ [] →
            exec (.channelStart n ch none false) s = .next (ctxFaults t.ctx (some n) [] (Op.tag t.desc) chk.faults
              (countChk (Dma.target n t.desc) chk (errEvent (Pg.spd4 n) E.spd4_DMA_FAULT s0))))
          ∧ (held = false → chk.faults = [] → t.kind = .dma → Dma.dir t.desc = 0 ∨ Dma.dir t.desc = 1 ∨ Dma.dir t.desc = 3 →
            ∃ u, exec (.channelStart n ch none false) s = .next u ∧ (u.chan n ch).cur = some t ∧ (u.chan n ch).queue = ts
              ∧ (u.chan n ch).moved = 0 ∧ u.fld (R.SPD_DMA_STATUS n ch) F.SPD_DMA_STATUS_STATE = 1
              ∧ u.fld (R.SPD_DMA_STATUS n ch) F.SPD_DMA_STATUS_OP_TAG = Op.tag t.desc
              ∧ (∀ a, a ≠ R.SPD_DMA_STATUS n ch → a ≠ R.SPD_DMA_ROWS n ch → u.reg a = s.reg a)
              ∧ u = { s with regs := u.regs, cores := u.cores })

/-- The last row of a fill that waited for room lands as the pattern in the row after the rows landed before it, HEAD takes
the rows that it has not taken, and the channel is free; a wait beyond its limit faults with WATCHDOG (R130, R142,
R143). HOLD stores its bit; word 15 of SPD_DMA_SUBMIT posts the sixteen words to its channel for the chosen context, and
a full queue drops them with QUEUE_FULL (R149). -/
def Obligations.TransfersFinishTimeOutAndAreHeld : Prop :=
  (∀ (s : State) (n : Fin 18) (ch : Fin 4) (t : DmaDesc),
      (s.chan n ch).cur = some t → (s.chan n ch).room = true →
      let g := s.rgn n (Dma.regDst t.desc)
      let m := (s.chan n ch).moved
      (t.kind = .dma → Dma.dir t.desc = 5 → Dma.commitRows t.desc = 0 → Op.sigEn t.desc = false → Dma.relSrc t.desc = false →
          t.host = none → Memory.wf s.spad = true → g.raw = false → g.base + g.size ≤ 65536 → m + 1 = Dma.rows t.desc →
          m < g.free → s.domOn n = true →
          s.accessOk n t.ctx (Dma.regDst t.desc) (some ⟨1, ch⟩) = true →
          ∃ u, exec (.dmaRoomAvailable n ch) s = .next u ∧ (u.chan n ch).cur = none
            ∧ (u.chan n ch).queue = (s.chan n ch).queue
            ∧ u.reg (R.SPD_REGION_HEAD n (Dma.regDst t.desc)) = ptrWord (movePtr g.size g.head g.headWrap (m + 1))
            ∧ ∀ b, b < 512 → (u.rowByte n (g.rowHead m) b).toNat = bitsOf (Dma.fill t.desc) (8 * (b % 4) + 7) (8 * (b % 4)))
        ∧ (s.reg (R.SPD_DMA_WAIT_LIMIT n) ≠ 0 → exec (.dmaWaitTimeout n ch) s
          = .next (ctxFault t.ctx (some n) [] Flt.watchdog 0 (Op.tag t.desc) (errEvent (Pg.spd4 n) E.spd4_DMA_FAULT s))))
    ∧ ∀ (s : State) (iid : Fin 24) (n : Fin 18) (ch : Fin 4) (val : Word),
        let x := s.fld (R.SPD_DMA_SUBMIT_CTX n ch) F.SPD_DMA_SUBMIT_CTX_CTX
        let d := (List.range 15).map (fun i => Tab.get (s.core n).submit 0 (16 * ch.val + i)) ++ [val]
        (s.Admits iid (R.SPD_DMA_CTRL n ch) .spd4 n →
            ∃ t, exec (.spdDmaHold iid n ch val) s = .next t
              ∧ t.fld (R.SPD_DMA_CTRL n ch) F.SPD_DMA_CTRL_HOLD = wordFld val F.SPD_DMA_CTRL_HOLD
              ∧ OnlyRegs [R.SPD_DMA_CTRL n ch, R.SPD_DMA_STATUS n ch, R.SPD_DMA_ROWS n ch] s t)
          ∧ (s.Admits iid (R.SPD_DMA_SUBMIT n ch 15) .spd4 n → (s.chan n ch).queue.length < 8 → Op.opcode d = 10 →
            ∃ t, exec (.spdDmaSubmit iid n ch val) s = .next t
              ∧ t.chan n ch = { s.chan n ch with queue := (s.chan n ch).queue ++ [⟨.dma, d, x, false, none⟩] }
              ∧ (t.core n).ops = (s.core n).ops ∧ t = { s with regs := t.regs, cores := t.cores })
          ∧ (s.Admits iid (R.SPD_DMA_SUBMIT n ch 15) .spd4 n → 8 ≤ (s.chan n ch).queue.length →
            ∃ t, exec (.spdDmaSubmit iid n ch val) s = .next t ∧ t.chan n ch = s.chan n ch
              ∧ bitOf (t.reg (Pg.spd4 n + Hdr.errStat)).toNat E.spd4_QUEUE_FULL = true)

/-- SPD_RELEASE moves TAIL forward over the rows that it names, at most over those committed (R130, R151). A bank swap takes
the lowest free spare bank, on command from a drained core and in reserve mode for a bank that is due; without one it is
refused or reported; its end maps the logical bank to the spare (R121, R128, R147). -/
def Obligations.ReleasesAndBankSwaps : Prop :=
  (∀ (s : State) (iid : Fin 24) (n : Fin 18) (val : Word), s.Admits iid (R.SPD_RELEASE n) .spd5 n →
      let r := wordFld val F.SPD_RELEASE_REGION
      let g := s.rgn n r
      let m := min (wordFld val F.SPD_RELEASE_ROWS) g.committed
      g.raw = false → g.head < g.size → g.tail < g.size →
      (g.head = g.tail ∨ (g.headWrap == g.tailWrap) = decide (g.tail ≤ g.head)) →
      ∃ t, exec (.spdRelease iid n val) s = .next t
        ∧ (t.rgn n r).committed = g.committed - m ∧ (t.rgn n r).head = g.head ∧ (t.rgn n r).headWrap = g.headWrap
        ∧ t.counter (cntKey (Pg.spd5 n) 1) = (if m = 0 then s.counter (cntKey (Pg.spd5 n) 1)
            else (s.counter (cntKey (Pg.spd5 n) 1) + m) % 2 ^ 64)
        ∧ OnlyRegsCnt [R.SPD_REGION_TAIL n r] [cntKey (Pg.spd5 n) 1] s t)
    ∧ ∀ (s : State) (iid : Fin 24) (n : Fin 18) (val : Word),
        let b := wordFld val F.SPD_BANK_SWAP_LOGICAL
        let go := s.drainedCore n && (s.core n).bankSwap.isNone && (s.freeBank n).isSome
        (s.Admits iid (R.SPD_BANK_SWAP n) .spd3 n → b ≤ 95 → go = true → ∀ q, s.freeBank n = some q →
            exec (.spdBankSwap iid n val) s = .next (s.setCore n { s.core n with bankSwap := some ⟨b, q⟩ }))
          ∧ (s.Admits iid (R.SPD_BANK_SWAP n) .spd3 n → b ≤ 95 → go = false →
            exec (.spdBankSwap iid n val) s = .next (raiseErr (Pg.spd3 n) E.spd3_SWAP_REFUSED iid 0x104 s))
          ∧ (∀ p ps l, s.recs.reserve = true → s.busy n = false → s.domOn n = true → (s.core n).bankSwap = none →
            (s.core n).bankDue = p :: ps → s.logicalOf n p = some l →
            (∀ q, s.freeBank n = some q → exec (.bankSwap n) s
                = .next (s.setCore n { s.core n with bankDue := ps, bankSwap := some ⟨l, q⟩ }))
              ∧ (s.freeBank n = none → ∃ t, exec (.bankSwap n) s = .next t
                ∧ bitOf (t.reg (Pg.spd3 n + Hdr.errStat)).toNat E.spd3_BANK_SPARE_EXHAUSTED = true
                ∧ (∀ k, k < 96 → t.reg (R.SPD_BANK_MAP n k) = s.reg (R.SPD_BANK_MAP n k))))
          ∧ (∀ w : BankSwapRun, (s.core n).bankSwap = some w → w.logical < 96 → w.phys < 100 →
            0 < s.fld (R.REL_CORE n) F.REL_CORE_BANKS_FREE → (s.core n).wait = .none →
            ∃ t, exec (.bankSwapDone n []) s = .next t
              ∧ t.fld (R.SPD_BANK_MAP n w.logical) F.SPD_BANK_MAP_PHYS = w.phys
              ∧ (∀ k, k < 96 → k ≠ w.logical → t.reg (R.SPD_BANK_MAP n k) = s.reg (R.SPD_BANK_MAP n k))
              ∧ t.fld (R.REL_CORE n) F.REL_CORE_BANKS_FREE = s.fld (R.REL_CORE n) F.REL_CORE_BANKS_FREE - 1
              ∧ (t.core n).bankSwap = none ∧ t.spad = s.spad)

/-! ### Sequence streams (R195 to R211) -/

/-- An ISSUE of SCAN posts its chunk and the sequencer goes on; a chunk whose stream is swapped starts its swap-in; a full
scan queue is SEQ_ILLEGAL (R202, R203). The oldest chunk whose stream is resident starts once the core is free, latching
its stream's RESET, and faults instead where its checks fail; a chunk that waits too long for its stream faults with
WATCHDOG (R202, R203, R205, R211). -/
def Obligations.ScansPostAndStart : Prop :=
  (∀ (s : State) (n : Fin 18) (x : Nat) (q : List LoopFrame × Nat),
      s.AtInstr n x 1 → loopStep (s.core n).loops (s.pc n) = q → q.2 ≤ 16383 →
      let slot := bitsOf (s.slot n (s.pc n)).toNat 13 0
      let d := s.descAt n slot
      slot + 7 ≤ 16383 → Op.opcode d = 7 → ∀ e, s.strEntry x (Scan.stream d) = some e →
      let chunk : ScanChunk := ⟨d, x, e, s.dtime, false⟩
      ((s.core n).scanQ.length < 16 → s.strValid e = true → s.strLoc e = 0 →
          ∃ t, exec (.scan n) s = .next t ∧ t.pc n = q.2 ∧ t.seqState n = Seq.running
            ∧ (t.core n).scanQ = (s.core n).scanQ ++ [chunk] ∧ t = { s with regs := t.regs, cores := t.cores })
        ∧ ((s.core n).scanQ.length < 16 → s.strValid e = true → s.strLoc e = 2 → s.strCore e = n.val →
          (s.chan n (s.swapChan e).2).queue.length < 8 →
          ∃ t, exec (.scan n) s = .next t ∧ t.pc n = q.2 ∧ (t.core n).scanQ = (s.core n).scanQ ++ [chunk]
            ∧ t.strLoc e = 3 ∧ ((t.chan n (s.swapChan e).2).queue.getLast?.map (·.kind)) = some (.swapIn e)
            ∧ t.spad = s.spad ∧ t.da = s.da)
        ∧ (16 ≤ (s.core n).scanQ.length → exec (.scan n) s = .next (ctxFault x (some n) [] Flt.illegal 0 0 s)))
    ∧ ∀ (s : State) (n : Fin 18) (c : ScanChunk) (rest : List ScanChunk), (s.core n).scanQ = c :: rest →
        let f := scanFaults s n c.ctx c.desc
        (s.domOn n = true → (s.core n).ops = [] → c.running = false → s.strValid c.entry = true → s.strLoc c.entry = 0 →
            f.2 = [] →
            ∃ t o, exec (.scanChunkStart n false) s = .next t ∧ (t.core n).ops = [o]
              ∧ o.kind = .scan ∧ o.desc = c.desc ∧ o.ctx = c.ctx ∧ o.entry = c.entry ∧ o.run = 1
              ∧ o.resetMark = s.strReset c.entry ∧ (t.core n).scanQ = { c with running := true } :: rest
              ∧ t = { s with regs := t.regs, cores := t.cores })
          ∧ (s.domOn n = true → (s.core n).ops = [] → c.running = false → s.strValid c.entry = true → s.strLoc c.entry = 0 →
            f.2 ≠ [] →
            exec (.scanChunkStart n false) s = .next (ctxFaults c.ctx (some n) [] (Op.tag c.desc) f.2
              (countChk n f.1 (s.setCore n { s.core n with scanQ := rest }))))
          ∧ (c.running = false → s.strValid c.entry = true → s.strLoc c.entry ≠ 0 → s.reg (R.VEC_SCAN_WAIT_LIMIT n) ≠ 0 →
            exec (.scanWaitTimeout n 0) s = .next (ctxFault c.ctx (some n) [] Flt.watchdog 0 (Op.tag c.desc)
              (errEvent (Pg.vec n) E.vec_SCAN_WAIT s)))

/-- STR_CMD acts on the entry of STR_SEL: WRITE and READ copy the staging words, SET_RESET marks it, INVALIDATE clears it;
an entry outside every partition is refused with RESULT 2, a held one with RESULT 1 (R204, R208, R211). A write of
STR_PART that makes no partitions overlap is stored; one that would is dropped with STR_PART (R208). Rests on the
model's choices of log entry 95. -/
def Obligations.StreamEntriesAndPartitions : Prop :=
  (∀ (s : State) (iid : Fin 24), s.Admits iid R.STR_CMD .ctlStr 0 →
      let e := s.fld R.STR_SEL F.STR_SEL_INDEX
      let done : State → Prop := fun t => t.reg R.STR_STATUS = 0 ∧ t = { s with regs := t.regs, streams := t.streams }
      (s.strOwned e = true → s.strHeld e = false → ∃ t, exec (.strWrite iid) s = .next t ∧ done t
          ∧ (∀ w, w < 4 → t.str e w = s.reg (R.STR_STAGE w)) ∧ ∀ i w, w < 4 → i ≠ e → t.str i w = s.str i w)
        ∧ (s.strOwned e = true → ∃ t, exec (.strRead iid) s = .next t ∧ done t ∧ t.streams = s.streams
          ∧ ∀ w, w < 4 → t.reg (R.STR_STAGE w) = s.str e w)
        ∧ (s.strOwned e = true → ∃ t, exec (.strSetReset iid) s = .next t ∧ done t ∧ t.strReset e = true
          ∧ ∀ i w, w < 4 → i ≠ e → t.str i w = s.str i w)
        ∧ (s.strOwned e = true → s.strHeld e = false → ∃ t, exec (.strInvalidate iid) s = .next t ∧ done t
          ∧ t.strValid e = false ∧ ∀ i w, w < 4 → i ≠ e → t.str i w = s.str i w)
        ∧ (s.strOwned e = true → s.strHeld e = true → ∀ c ∈ [Instr.strWrite iid, .strInvalidate iid],
          ∃ t, exec c s = .next t ∧ t.fld R.STR_STATUS F.STR_STATUS_RESULT = 1 ∧ t.streams = s.streams)
        ∧ (s.strOwned e = false → ∀ c ∈ [Instr.strWrite iid, .strRead iid, .strSwapOut iid, .strSwapIn iid, .strSetReset iid,
            .strInvalidate iid], ∃ t, exec c s = .next t ∧ t.fld R.STR_STATUS F.STR_STATUS_RESULT = 2
          ∧ bitOf (t.reg (Pg.ctlStr + Hdr.errStat)).toNat E.ctlStr_STR_REFUSED = true ∧ t.streams = s.streams))
    ∧ ∀ (s : State) (iid : Fin 24) (k : Fin 128) (val : Word),
        s.Admits iid (R.STR_PART k) .ctlStr 0 → wordFld val F.STR_PART_COUNT ≤ 4096 →
        (s.partOverlaps k val = false → ∃ w, exec (.strPartWrite iid k val) s = .next (s.setReg (R.STR_PART k) w)
            ∧ wordFld w F.STR_PART_BASE = wordFld val F.STR_PART_BASE ∧ wordFld w F.STR_PART_COUNT = wordFld val F.STR_PART_COUNT
            ∧ wordFld w F.STR_PART_SWAP_CHAN = wordFld val F.STR_PART_SWAP_CHAN)
          ∧ (s.partOverlaps k val = true → ∃ t, exec (.strPartWrite iid k val) s = .next t
            ∧ t.reg (R.STR_PART k) = s.reg (R.STR_PART k)
            ∧ bitOf (t.reg (Pg.ctlStr + Hdr.errStat)).toNat E.ctlStr_STR_PART = true)

/-- SWAP_OUT of a resident stream waits until no chunk of it is queued or runs, then moves LOC to swapping out and, when its
write ends, to swapped; SWAP_IN moves a swapped stream to swapping in and then to resident (R203, R204). -/
def Obligations.StreamsSwapOutAndIn : Prop :=
  ∀ (s : State) (iid : Fin 24) (e : Fin 4096), s.strValid e = true → s.strCore e ≤ 17 →
    let n := (s.swapChan e).1
    let ch := (s.swapChan e).2
    (s.Admits iid R.STR_CMD .ctlStr 0 → s.fld R.STR_SEL F.STR_SEL_INDEX = e.val → s.strOwned e = true → s.strLoc e = 0 →
        s.swapReqs.any (fun q => q.entry == e.val && q.out) = false →
        ∃ t, exec (.strSwapOut iid) s = .next t ∧ t.swapReqs = s.swapReqs ++ [⟨e, true, false⟩]
          ∧ t = { s with regs := t.regs, swapReqs := t.swapReqs })
      ∧ (s.strLoc e = 0 → s.strBusy e = false → s.swapReqs.any (fun q => q.entry == e.val && q.out) = true →
        (s.chan n ch).queue.length < 8 →
        ∃ t, exec (.swapOutStart e) s = .next t ∧ t.strLoc e = 1
          ∧ (t.chan n ch).queue = (s.chan n ch).queue ++ [⟨.swapOut e, swapDesc (s.setStrLoc e 1) e true, s.strCtx e, false, none⟩]
          ∧ t.swapReqs = s.swapReqs.filter (fun q => q.entry != e.val))
      ∧ (s.strLoc e = 1 → s.strBusy e = false → s.swapEnds e (.swapOut e) = some (n, ch) →
        ∃ t, exec (.swapOutDone e) s = .next t ∧ t.strLoc e = 2 ∧ (t.chan n ch).cur = none
          ∧ t.counter (cntKey Pg.ctlStr 1) = (s.counter (cntKey Pg.ctlStr 1) + 1) % 2 ^ 64)
      ∧ (s.Admits iid R.STR_CMD .ctlStr 0 → s.fld R.STR_SEL F.STR_SEL_INDEX = e.val → s.strOwned e = true → s.strLoc e = 2 →
        (s.chan n ch).queue.length < 8 →
        ∃ t, exec (.strSwapIn iid) s = .next t ∧ t.strLoc e = 3
          ∧ ((t.chan n ch).queue.getLast?.map (fun q => (q.kind, q.ctx))) = some (.swapIn e, s.strCtx e))
      ∧ (s.strLoc e = 3 → s.swapEnds e (.swapIn e) = some (n, ch) →
        ∃ t, exec (.swapInDone e) s = .next t ∧ t.strLoc e = 0 ∧ (t.chan n ch).cur = none)

/-! ### The memory tiers (R27, R212 to R237, R407, R408, R531) -/

/-- An access that passes stage 1 joins the accesses under way and ages its page; one that fails it is counted and faults
the context with ACCESS_DENIED; a bad configuration word faults it with PARITY_PERSIST, subcode 0xFE (R27, R226, R232,
R404). A read that its engine waits for is delivered and leaves the accesses under way; a write reaches the memory and
no byte outside its sector changes; no response faults the context with TIER_FAIL and the tier (R220, R223, R224, R531).
Rests on the model's choices of log entries 11 and 12. -/
def Obligations.DaAccessesPassStageOneAndComplete : Prop :=
  (∀ (s : State) (x da : Nat) (data : Option (List Byte)),
      let ok := s.stage1 x (tenantOf x) da 512 data.isSome
      let a : TierAcc := ⟨.engine x, tenantOf x, da, 0, data, 0, none⟩
      (ok = true → s.domOn (s.sectorDomain da) = true →
          ∃ t, exec (.tierAccess (.engine x da data) false) s = .next t ∧ t.mt.accs = s.mt.accs ++ [a]
            ∧ ((s.page (pageOf da)).age ≤ 255 →
              (s.page (pageOf da)).age ≤ (t.page (pageOf da)).age ∧ (t.page (pageOf da)).age ≤ 255)
            ∧ (∀ p, p ≠ pageOf da → t.page p = s.page p) ∧ t = { s with mt := t.mt })
        ∧ (ok = false → exec (.tierAccess (.engine x da data) false) s
            = .next (ctxFault x none [] Flt.denied 0 0 (s.count Pg.mt1 7 1)))
        ∧ exec (.tierAccess (.engine x da data) true) s
            = .next (ctxFault x none [] Flt.parity 0xFE 0 (s.count Pg.rel3 2 1)))
    ∧ ∀ (s : State) (k x : Nat) (a : TierAcc), s.mt.accs[k]? = some a → a.agent = .engine x →
        (a.write = none → a.result = none → s.accReady k = true →
            ∃ t, exec (.tierReadDeliver k .clean) s = .next t ∧ t.mt.accs = dropNth s.mt.accs k ∧ t.da = s.da ∧ t.spad = s.spad)
          ∧ (∀ bs, a.write = some bs → s.accReady k = true → Memory.wf s.da = true → bs.length = 512 → a.poison = 0 →
            ∃ t, exec (.tierWriteDone k) s = .next t ∧ t.mt.accs = dropNth s.mt.accs k
              ∧ (∀ b, b < 512 → Memory.read t.da (a.da / 512 * 512 + b) = bs.getD b 0)
              ∧ (∀ p, p < a.da / 512 * 512 ∨ a.da / 512 * 512 + 512 ≤ p → Memory.read t.da p = Memory.read s.da p)
              ∧ t = { s with da := t.da, mt := t.mt })
          ∧ exec (.tierTimeout k) s = .next (ctxFault x none [] Flt.tierFail (s.page (pageOf a.da)).tier 0
              ((errEvent Pg.mt1 E.mt1_TIER_FAIL (s.count Pg.mt1 6 1)).modMt (fun m => { m with accs := dropNth m.accs k })))

/-- A sector read under its owner and key delivers what was last written whole, with the poison that was written with it; a
read for another owner, or under a key replaced since, is an integrity failure (R217, R219, R221). Rests on the model's
choices of log entry 114 (a key is its generation). -/
def Obligations.SectorsReadBackWhatTheirOwnerWrote : Prop :=
  ∀ (s : State) (owner da src : Nat) (bs : List Byte), Memory.wf s.da = true → bs.length = 512 → src ≤ 3 → da % 512 = 0 →
    let t := storeSector owner da src bs s
    ((readSector owner da .clean t).1 = bs ∧ (readSector owner da .clean t).2.1 = src)
      ∧ (src = 0 → (readSector owner da .clean t).2.2 = t)
      ∧ (∀ other, other ≠ owner → (readSector other da .clean t).2.1 = 4)
      ∧ (∀ g slot, slot = 2 * owner + s.granuleEpoch da → g ≠ s.keyGen slot →
        (readSector owner da .clean { t with sec := { t.sec with gens := Tab.set t.sec.gens slot g } }).2.1 = 4)
      ∧ (∀ a, a < da ∨ da + 512 ≤ a → Memory.read t.da a = Memory.read s.da a)

/-- MT_PG_CMD acts on the page of MT_PG_SEL: ALLOC gives an unowned page to a tenant in a free frame and queues its fill,
FREE takes its owner at once and stays busy, SET_PLACE sets its placement within the pin quota, READ shows it (R215,
R230, R236). A page that is being freed leaves the table once no access to it is under way; the idle engine takes a
waiting fill first, whatever EN holds, and the fill leaves the page all zeros under its owner's key; a decay tick halves
every age at the next multiple of its period; the patrol goes on to the next frame (R215, R226, R227, R236, R408). Rests
on the model's choices of log entries 69 and 70. -/
def Obligations.PagesAreAllocatedFilledMovedAndFreed : Prop :=
  (∀ (s : State) (iid : Fin 24) (owner : Fin 16) (place : Fin 3), s.Admits iid R.MT_PG_CMD .mt2 0 →
      s.flag R.MT_PG_STATUS F.MT_PG_STATUS_BUSY = false →
      let p := s.fld R.MT_PG_SEL F.MT_PG_SEL_PAGE
      let r := s.page p
      let spent : Nat → Bool := fun t => decide (s.fld (R.MT_PIN_QUOTA t) F.MT_PIN_QUOTA_PAGES ≤ s.pinned t)
      s.backed p = true →
      (∀ tier, r.owner = none → s.mt.frees.contains p = false → (place.val = 1 → spent owner = false) →
          (s.allocTiers place).find? (fun t => s.freeCount t != 0) = some tier →
          ∃ t f, exec (.alloc iid owner place) s = .next t ∧ t.reg R.MT_PG_STATUS = 0 ∧ t.mt.fills = s.mt.fills ++ [p]
            ∧ t.page p = { owner := some owner.val, tier := tier, frame := f, place := place, age := 0,
                           epoch := s.curEpoch owner, moving := true }
            ∧ f < s.frames tier ∧ s.frameUsed tier f = false ∧ ∀ o, o ≠ p → t.page o = s.page o)
        ∧ (r.owner = none → s.mt.frees.contains p = false → place.val = 1 → spent owner = true →
          exec (.alloc iid owner place) s = .next ((raiseErr Pg.mt0 E.mt0_PIN_REFUSED iidNone 0 (s.count Pg.mt0 3 1)).setReg
            R.MT_PG_STATUS (BitVec.ofNat 32 4)))
        ∧ (∀ t0, r.owner = some t0 → r.moving = false →
          (∃ t, exec (.free iid) s = .next t ∧ t.flag R.MT_PG_STATUS F.MT_PG_STATUS_BUSY = true ∧ (t.page p).owner = none
              ∧ t.mt.frees = s.mt.frees ++ [p] ∧ t.da = s.da)
            ∧ ((place.val = 1 → r.place ≠ 1 → spent t0 = false) → exec (.setPlace iid place) s
              = .next ((s.setPage p { r with place := place }).setReg R.MT_PG_STATUS 0)))
        ∧ ∃ t, exec (.pageRead iid) s = .next t ∧ t.reg R.MT_PG_STATUS = 0
          ∧ OnlyRegs [R.MT_PG_STATUS, R.MT_PG_INFO0, R.MT_PG_INFO1] s t
          ∧ (r.tier < 2 → r.place < 4 → r.age < 256 → (∀ t0, r.owner = some t0 → t0 < 16) →
            t.fld R.MT_PG_INFO0 F.MT_PG_INFO0_OWNER = r.owner.getD 31 ∧ t.fld R.MT_PG_INFO0 F.MT_PG_INFO0_TIER = r.tier
              ∧ t.fld R.MT_PG_INFO0 F.MT_PG_INFO0_AGE = r.age ∧ (t.flag R.MT_PG_INFO0 F.MT_PG_INFO0_MOVING = r.moving)))
    ∧ ∀ (s : State) (p : Fin 131072),
        (s.mt.frees = [p.val] → (∀ a ∈ s.mt.accs, pageOf a.da ≠ p) →
            ∃ t, exec (.freeComplete p) s = .next t ∧ t.reg R.MT_PG_STATUS = 0 ∧ t.mt.frees = [] ∧ t.page p = {}
              ∧ (∀ o, o ≠ p.val → t.page o = s.page o) ∧ t.da = s.da)
          ∧ (∀ ps, s.mt.job = none → s.mt.fills = p.val :: ps → exec .migrationChoice s
            = .next (s.modMt (fun m => { m with fills := ps, job := some (.fill p) })))
          ∧ (s.mt.job = some (.fill p) → s.domOn (s.sectorDomain (p * 2 ^ 21)) = true → Memory.wf s.da = true →
            ∃ t, exec (.moveSwitch []) s = .next t ∧ (t.page p).moving = false ∧ t.mt.job = none
              ∧ (∀ a, a < 2 ^ 21 → Memory.read t.da (p * 2 ^ 21 + a) = 0)
              ∧ (∀ a, a < p * 2 ^ 21 ∨ (p + 1) * 2 ^ 21 ≤ a → Memory.read t.da a = Memory.read s.da a)
              ∧ t.tagAt (p * 2 ^ 21) = some (s.tagNow ((s.page p).owner.getD 0) (p * 2 ^ 21)))
          ∧ (let k := 4096 * s.fld R.MT_AGE_CFG F.MT_AGE_CFG_TICK
            0 < k → ∃ t, exec .decayTick s = .next t ∧ t.dtime = (s.dtime / k + 1) * k
              ∧ (∀ q, (t.page q).age = (s.page q).age / 2) ∧ t.regs = s.regs)
          ∧ (s.fld R.REL_THR F.REL_THR_PATROL_H ≠ 0 → ∃ t, exec (.patrolRead []) s = .next t
            ∧ (t.rel.patrolTier, t.rel.patrolFrame) = s.patrolNext ∧ t.mt = s.mt ∧ t.da = s.da ∧ t.regs = s.regs)

/-! ### The Breeze tier (R238 to R270) -/

/-- A sample period writes its 32 channels at the next index and moves the index on by one; no other retained sample
changes; while muted every channel is zero and the block is flagged MUTE (R21, R242, R244). MUTE_N falling mutes at
once; rising starts a count that a fall abandons; the qualified release starts the settle count, and the end of that
count clears SETTLING (R244 to R246). A TDM port that misses its frame sync is lost, which is counted and flagged, until
a sync is in step again (R239). Rests on the model's choices of log entries 5 and 75. -/
def Obligations.SamplesMuteAndTdm : Prop :=
  (∀ (s : State) (vals : List (BitVec 16)) (sat : BitVec 32), Memory.wf s.brz.ring = true →
      let i := s.brz.written
      ∃ t, exec (.sampleWrite vals sat) s = .next t ∧ t.brz.written = i + 1
        ∧ (∀ c, c < 32 → t.sample i c = s.channelCode c (vals.getD c 0))
        ∧ (∀ j c, c < 32 → i < j + ringSlots → j < i → t.sample j c = s.sample j c)
        ∧ (s.muted = true → (∀ c, c < 32 → t.sample i c = 0) ∧ bitOf (t.blockFlags i) 0 = true)
        ∧ t.counter (cntKey Pg.brz0 0) = (s.counter (cntKey Pg.brz0 0) + 1) % 2 ^ 64
        ∧ t.brz.spm = s.brz.spm ∧ t.spad = s.spad ∧ t.da = s.da)
    ∧ (∀ s : State,
        (∃ t, exec .muteNFall s = .next t ∧ t.reg R.BRZ_MUTE = 1 ∧ t.brz.riseAt = none ∧ t.brz.settleLeft = 0
            ∧ t.brz.ring = s.brz.ring ∧ t.brz.written = s.brz.written
            ∧ (s.muted = false → bitOf (t.reg (Pg.brz0 + Hdr.errStat)).toNat E.brz0_MUTE_CHG = true))
          ∧ (s.flag R.BRZ_MUTE F.BRZ_MUTE_PIN = false → exec .muteNRise s
            = .next ({ s with brz := { s.brz with riseAt := some s.dtime } }.setFld R.BRZ_MUTE F.BRZ_MUTE_PIN 1))
          ∧ (∀ u, s.brz.riseAt = some u → ∃ t, exec .releaseQualified s = .next t ∧ t.reg R.BRZ_MUTE = 6
            ∧ t.dtime = max s.dtime (u + 24578) ∧ t.brz.riseAt = none
            ∧ t.brz.settleLeft = s.fld R.BRZ_UNMUTE_SETTLE F.BRZ_UNMUTE_SETTLE_SAMPLES)
          ∧ (s.brz.settleLeft = 0 → exec .settleEnd s = .next (s.setFld R.BRZ_MUTE F.BRZ_MUTE_SETTLING 0)))
    ∧ ∀ (s : State) (p : Fin 4), bitOf (s.reg R.BRZ_FE_CFG).toNat (17 + p) = true →
        (exec (.tdmFrameSync p true) s
            = .next { s with brz := { s.brz with tdmLost := s.brz.tdmLost.filter (fun q => q != p.val) } })
          ∧ ∃ t, exec (.tdmFrameSync p false) s = .next t ∧ p.val ∈ t.brz.tdmLost
            ∧ t.counter (cntKey Pg.brz0 3) = (s.counter (cntKey Pg.brz0 3) + 1) % 2 ^ 64
            ∧ bitOf (t.reg (Pg.brz0 + Hdr.errStat)).toNat E.brz0_TDM_LOSS = true ∧ t.brz.ring = s.brz.ring

/-- The end of a hop of the only armed model starts its run with the registers of that moment. A run that ends at or above
its threshold raises a wake: a descriptor with the model's event in the queue, WR and SEQ moved on, and WAKE set. A run
that failed twice disarms its model (R253, R256 to R259, R262). A post of the Gust core takes one count of its
semaphore: a well-formed descriptor enters the queue, any other sets POST_BAD; firmware moves RD up to WR and no further
(R261, R262, R267). Rests on the model's choices of log entry 77 (RD beyond WR is ignored). -/
def Obligations.BreezeModelsWakeAndStartTheGust : Prop :=
  (∀ (s : State) (m : Nat), m < 16 →
      let cfg := s.reg (R.BRZ_MODEL_CFG m)
      (s.armedModel m = true → (∀ j, j < 16 → j ≠ m → s.armedModel j = false) → s.brz.written ≠ 0 →
          s.brz.hopAt ≠ some s.newest → 0 < wordFld cfg F.BRZ_MODEL_CFG_HOP →
          (s.newest + 1) % wordFld cfg F.BRZ_MODEL_CFG_HOP = 0 → s.brz.run = none → s.brz.hops = [] →
          ∃ t, exec .hopEnd s = .next t ∧ t.brz.run = some ⟨m, s.newest, s.reg (R.BRZ_MODEL_LOC m), cfg,
              s.reg (R.BRZ_MODEL_THR m), s.reg (R.BRZ_MODEL_PRE m)⟩
            ∧ t.brz.hops = [] ∧ t.brz.hopAt = some s.newest ∧ t.regs = s.regs ∧ t.brz.ring = s.brz.ring)
        ∧ (∀ (q : BrzRun) (conf : BitVec 16) (a b : Nat), s.brz.run = some q → q.model = m → s.armedModel m = true →
          confAtLeast conf.toNat (wordFld q.thr F.BRZ_MODEL_THR_THR) = true → b ≤ a → a ≤ 32767 → a ≤ q.last →
          (s.brzModel m).lastEnd = none → s.wqUsed < 64 → wordFld q.cfg F.BRZ_MODEL_CFG_AG_EN = 0 →
          wordFld q.cfg F.BRZ_MODEL_CFG_GUST_EN = 0 →
          ∃ t, exec (.breezeRunEnd conf a b 0 0) s = .next t
            ∧ bitsOf (t.reg (R.BRZ_WQ (s.fld R.BRZ_WQ_PTR F.BRZ_WQ_PTR_WR % 64) 0)).toNat 15 0
              = wordFld q.cfg F.BRZ_MODEL_CFG_EVENT + 256 * m
            ∧ t.reg (R.BRZ_WQ (s.fld R.BRZ_WQ_PTR F.BRZ_WQ_PTR_WR % 64) 2) = BitVec.ofNat 32 (q.last - a)
            ∧ t.wqUsed = s.wqUsed + 1
            ∧ t.fld R.BRZ_WQ_SEQ F.BRZ_WQ_SEQ_NEXT = (s.fld R.BRZ_WQ_SEQ F.BRZ_WQ_SEQ_NEXT + 1) % 65536
            ∧ bitOf (t.reg (Pg.brz2 + Hdr.errStat)).toNat E.brz2_WAKE = true
            ∧ (t.brzModel m).lastEnd = some (q.last - b))
        ∧ (∀ (q : BrzRun) (conf : BitVec 16) (a b : Nat), s.brz.run = some q → q.model = m →
          ∃ t, exec (.breezeRunEnd conf a b 2 0) s = .next t ∧ t.armedModel m = false
            ∧ t.flag (R.BRZ_MODEL_STAT m) F.BRZ_MODEL_STAT_FAULTED = true
            ∧ bitOf (t.reg (Pg.brz1 + Hdr.errStat)).toNat E.brz1_MODEL_FAULT = true))
    ∧ ∀ (s : State) (iid : Fin 24) (val : Word),
        let n := s.fld R.BRZ_GUST F.BRZ_GUST_CORE
        let sem := R.SEQ_SEM n (s.fld R.BRZ_GUST F.BRZ_GUST_POST_SEM)
        let row := (s.rgn n (s.fld R.BRZ_GUST F.BRZ_GUST_POST_REGION)).row 0
        let w : Nat → Nat := fun i => word32 (fun b => s.rowByte n row b) (4 * i)
        let event := bitsOf (w 0) 7 0
        let start := w 2 + 2 ^ 32 * bitsOf (w 3) 15 0
        let stop := w 4 + 2 ^ 32 * bitsOf (w 5) 15 0
        let good := decide (0x41 ≤ event ∧ event ≤ 0x7F ∧ start ≤ stop ∧ stop ≤ s.newest)
        let old := s.fld R.BRZ_WQ_PTR F.BRZ_WQ_PTR_RD
        let new := wordFld val F.BRZ_WQ_PTR_RD
        (s.fld R.BRZ_GUST F.BRZ_GUST_POST_EN = 1 → n ≤ 17 → 0 < s.fld sem F.SEQ_SEM_COUNT → s.domOn n = true → good = true →
            s.wqUsed < 64 → ∃ t, exec .gustPost s = .next t ∧ t.wqUsed = s.wqUsed + 1
              ∧ t.fld sem F.SEQ_SEM_COUNT = s.fld sem F.SEQ_SEM_COUNT - 1
              ∧ bitsOf (t.reg (R.BRZ_WQ (s.fld R.BRZ_WQ_PTR F.BRZ_WQ_PTR_WR % 64) 0)).toNat 17 16 = 2
              ∧ t.reg (R.BRZ_WQ (s.fld R.BRZ_WQ_PTR F.BRZ_WQ_PTR_WR % 64) 2) = BitVec.ofNat 32 (w 2))
          ∧ (s.fld R.BRZ_GUST F.BRZ_GUST_POST_EN = 1 → n ≤ 17 → 0 < s.fld sem F.SEQ_SEM_COUNT → s.domOn n = true → good = false →
            exec .gustPost s = .next (errEvent Pg.brz2 E.brz2_POST_BAD (s.setFld sem F.SEQ_SEM_COUNT (s.fld sem F.SEQ_SEM_COUNT - 1))))
          ∧ (s.Admits iid R.BRZ_WQ_PTR .brz2 0 → (new + 128 - old) % 128 ≤ s.wqUsed →
            exec (.wqRdWrite iid val) s = .next (s.setFld R.BRZ_WQ_PTR F.BRZ_WQ_PTR_RD new))
          ∧ (s.Admits iid R.BRZ_WQ_PTR .brz2 0 → s.wqUsed < (new + 128 - old) % 128 → exec (.wqRdWrite iid val) s = .next s)

/-- ACTIVATE starts an audio group at the index next written, SEEK at the index given, STOP stops it; a group whose block is
complete commits its header and planes to its region and its cursor goes on past the block (R249 to R252, R269).
BRZ_SPM_DATA writes and reads the word that BRZ_SPM_ADDR selects, which then steps; a write inside an armed model is
dropped. A read of the low half of an index latches its high half (R248, R268, R269). Rests on the model's choices of
log entry 74. -/
def Obligations.AudioGroupsAndBreezeWindows : Prop :=
  (∀ (s : State) (iid : Fin 24) (g : Fin 16),
      let cfg := s.reg (R.BRZ_AG_CFG g)
      let n := wordFld cfg F.BRZ_AG_CFG_CORE
      let r := wordFld cfg F.BRZ_AG_CFG_REGION
      let k := 64 * wordFld cfg F.BRZ_AG_CFG_BLOCK
      let rows := 1 + (maskBits (s.reg (R.BRZ_AG_CH g)).toNat).length
        * ceilDiv (k * agElemBytes (wordFld cfg F.BRZ_AG_CFG_FMT)) 512
      let started : Nat → State → Prop := fun i t => t.agActive g = true ∧ (t.ag g).cursor = i % 2 ^ 48 ∧ (t.ag g).fresh = true
        ∧ t.brz.ring = s.brz.ring ∧ t.spad = s.spad
      (s.Admits iid (R.BRZ_AG_CMD g) .brzAg g →
          (∃ t, exec (.agActivate iid g) s = .next t ∧ started s.brz.written t)
            ∧ (∃ t, exec (.agSeek iid g) s = .next t
              ∧ started (s.pair (R.BRZ_AG_SEEK_LO g) (R.BRZ_AG_SEEK_HI g)) t)
            ∧ ∃ t, exec (.agStop iid g) s = .next t ∧ t.agActive g = false ∧ OnlyRegs [R.BRZ_AG_STATUS g] s t)
        ∧ (s.agActive g = true → wordFld cfg F.BRZ_AG_CFG_EN = 1 → s.oldest ≤ (s.ag g).cursor →
          (s.ag g).cursor + k ≤ s.brz.written → s.domOn n = true → n ≤ 17 → (s.rgn n r).raw = false →
          s.accessOk n (s.rgn n r).ctx r (some ⟨5, g⟩) = true → rows ≤ (s.rgn n r).free → 0 < k →
          ∃ t, exec (.audioBlockDeliver g) s = .next t ∧ (t.ag g).cursor = ((s.ag g).cursor + k) % 2 ^ 48
            ∧ t.reg (R.SPD_REGION_HEAD n r)
              = ptrWord (movePtr (s.rgn n r).size (s.rgn n r).head (s.rgn n r).headWrap rows)
            ∧ t.counter (cntKey (Pg.brzAg g) 0) = (s.counter (cntKey (Pg.brzAg g) 0) + 1) % 2 ^ 64
            ∧ t.brz.ring = s.brz.ring ∧ t.da = s.da))
    ∧ ∀ (s : State) (iid : Fin 24) (g : Fin 16) (val : Word),
        let a := s.fld R.BRZ_SPM_ADDR F.BRZ_SPM_ADDR_ADDR
        let step := BitVec.ofNat 32 ((a + 1) % 131072)
        let armed : Prop := ∃ m, m < 16 ∧ s.armedModel m = true ∧ s.fld (R.BRZ_MODEL_LOC m) F.BRZ_MODEL_LOC_BASE ≤ a / 128
          ∧ a / 128 < s.fld (R.BRZ_MODEL_LOC m) F.BRZ_MODEL_LOC_BASE + s.fld (R.BRZ_MODEL_LOC m) F.BRZ_MODEL_LOC_ROWS
        (s.Admits iid R.BRZ_SPM_DATA .brz4 0 → ¬ armed → Memory.wf s.brz.spm = true →
            ∃ t, exec (.brzSpmData iid (some val)) s = .next t ∧ t.spmWord a = val.toNat ∧ t.reg R.BRZ_SPM_ADDR = step
              ∧ (∀ w, w ≠ a → t.spmWord w = s.spmWord w) ∧ t.brz.ring = s.brz.ring)
          ∧ (s.Admits iid R.BRZ_SPM_DATA .brz4 0 → armed →
            ∃ t, exec (.brzSpmData iid (some val)) s = .next t ∧ t.brz = s.brz ∧ t.reg R.BRZ_SPM_ADDR = step
              ∧ bitOf (t.reg (Pg.brz4 + Hdr.errStat)).toNat E.brz4_LOAD_ARMED = true)
          ∧ (s.Permits iid R.BRZ_SPM_DATA false .brz4 0 → s.domOn 30 = true →
            exec (.brzSpmData iid none) s = .next ((s.answers (BitVec.ofNat 32 (s.spmWord a))).setReg R.BRZ_SPM_ADDR step))
          ∧ (s.Permits iid R.BRZ_IDX_LO false .brz0 0 → s.domOn 30 = true → exec (.brzIdxLoRead iid) s
            = .next ((s.setReg R.BRZ_IDX_HI (BitVec.ofNat 32 (s.newest / 2 ^ 32 % 65536))).answers (BitVec.ofNat 32 s.newest)))
          ∧ (s.Permits iid (R.BRZ_AG_CUR_LO g) false .brzAg g → s.domOn 30 = true → exec (.agCurLoRead iid g) s
            = .next ((s.setReg (R.BRZ_AG_CUR_HI g) (BitVec.ofNat 32 ((s.ag g).cursor / 2 ^ 32 % 65536))).answers
              (BitVec.ofNat 32 (s.ag g).cursor)))

/-- A read of the low half of DTIME, or of the newest sample index, latches its high half, so that a reader that reads LO and
then HI, from whatever state `u` the part has come to meanwhile with the latch as it was, gets one value (R248, R471). -/
def Obligations.LatchedHalvesReadAsOneValue : Prop :=
  ∀ (s u : State) (iid : Fin 24), s.domOn 30 = true → u.domOn 30 = true →
    (s.Permits iid R.CLK_DTIME_LO false .clk 0 → u.Permits iid R.CLK_DTIME_HI false .clk 0 → s.dtime < 2 ^ 64 →
        ∃ t, exec (.clkDtimeLoRead iid) s = .next t ∧ (u.reg R.CLK_DTIME_HI = t.reg R.CLK_DTIME_HI →
          ∃ v, exec (.regRead iid R.CLK_DTIME_HI) u = .next v ∧ t.rdata.toNat + 2 ^ 32 * v.rdata.toNat = s.dtime))
      ∧ (s.Permits iid R.BRZ_IDX_LO false .brz0 0 → u.Permits iid R.BRZ_IDX_HI false .brz0 0 → s.newest < 2 ^ 48 →
        ∃ t, exec (.brzIdxLoRead iid) s = .next t ∧ (u.reg R.BRZ_IDX_HI = t.reg R.BRZ_IDX_HI →
          ∃ v, exec (.regRead iid R.BRZ_IDX_HI) u = .next v ∧ t.rdata.toNat + 2 ^ 32 * v.rdata.toNat = s.newest))

/-! ### Cameras and the image pipeline (R271 to R300) -/

/-- A frame start of a bound live camera opens a frame with the next count, the packet's number and the time of its arrival,
where no frame is being received and the load allows it; a frame end closes a frame whose lines are all there; packets that
no camera is bound to are discarded and counted (R272, R273, R275, R277). -/
def Obligations.FramesOpenAndClose : Prop :=
  ∀ (s : State) (p : Fin 8) (vc : Fin 4) (num : BitVec 16), s.receives p = true → s.domOn 27 = true →
    (s.bound p vc = none → ∀ c ∈ [Instr.frameStart p vc num .good, .frameEnd p vc .good], ∃ t, exec c s = .next t
        ∧ t.counter (cntKey (Pg.ispPort p) 5) = (s.counter (cntKey (Pg.ispPort p) 5) + 1) % 2 ^ 64
        ∧ bitOf (t.reg (Pg.ispPort p + Hdr.errStat)).toNat E.ispPort_DISCARD = true ∧ t.isp = s.isp)
      ∧ ∀ n, s.bound p vc = some n →
        ((s.cam n).receiving = none → s.camFld n F.ISP_CAM_CFG_STORED = 0 →
            s.fld (R.ISP_OUT_CFG n 2) F.ISP_OUT_CFG_EN = 0 → s.loadTo n ≤ s.fld R.ISP_SCHED F.ISP_SCHED_LOAD_MAX →
            ∃ t f, exec (.frameStart p vc num .good) s = .next t ∧ (t.cam n).frames = (s.cam n).frames ++ [f]
              ∧ (t.cam n).count = ((s.cam n).count + 1) % 2 ^ 32 ∧ f.count = (t.cam n).count ∧ f.num = num.toNat
              ∧ f.dtime = s.dtime ∧ f.sample = s.newest ∧ f.dropped = false ∧ f.lines = [] ∧ f.ended = false
              ∧ t.counter (cntKey (Pg.ispCam n) 0) = (s.counter (cntKey (Pg.ispCam n) 0) + 1) % 2 ^ 64)
          ∧ ∀ f, (s.cam n).receiving = some f → f.dropped = false → f.lines.length = (s.view n f).h →
            ∃ t, exec (.frameEnd p vc .good) s = .next t ∧ (t.cam n).receiving = none
              ∧ (t.cam n).frames = (s.cam n).frames.dropLast ++ [{ f with ended := true }] ∧ t.regs = s.regs

/-- A good line of the declared type and width joins its frame while the line ring has a slot; one with a bad CRC, or whose
header cannot be corrected, is replaced and counted as lost (R273, R274, R276). The free pipeline takes the next camera;
its stripe finishes up to 32 lines and frees the pipeline; a frame whose lines are all finished leaves its camera and is
counted (R278, R285, R287). Rests on the model's choices of log entry 5. -/
def Obligations.LinesAndStripesOfAFrame : Prop :=
  (∀ (s : State) (p : Fin 8) (vc : Fin 4) (dt : Fin 64) (px : List Nat) (sclk n : Nat) (f : IspFrame),
      s.receives p = true → s.domOn 27 = true → s.bound p vc = some n → s.camFld n F.ISP_CAM_CFG_DT = dt.val →
      longType dt = true → (s.cam n).receiving = some f → f.dropped = false → f.lines.length < (s.view n f).h →
      (f.fld (R.ISP_CAM_CFG n) F.ISP_CAM_CFG_STORED = 0 → px.length = (s.view n f).w →
          s.fld (R.TST_CSI_CFG n) F.TST_CSI_CFG_PATTERN = 0 → s.slots n < f.fld (R.ISP_CAM_LB n) F.ISP_CAM_LB_LB_LINES →
          ∃ t, exec (.lineReceive p vc dt .good true px sclk) s = .next t ∧ (t.cam n).tLast = sclk
            ∧ (t.cam n).frames = (s.cam n).frames.dropLast ++ [{ f with rx := f.rx + 1, lines := f.lines ++ [⟨px, true⟩] }]
            ∧ t.dtime = max s.dtime (dtimeOfSclk sclk) ∧ t.regs = s.regs)
        ∧ (∃ t, exec (.lineReceive p vc dt .good false px sclk) s = .next t
          ∧ ((t.cam n).receiving.map (fun g => (g.lines.length, g.lost))) = some (f.lines.length + 1, f.lost + 1)
          ∧ bitOf (t.reg (Pg.ispPort p + Hdr.errStat)).toNat E.ispPort_CRC = true
          ∧ t.counter (cntKey (Pg.ispPort p) 3) = (s.counter (cntKey (Pg.ispPort p) 3) + 1) % 2 ^ 64)
        ∧ (∃ t, exec (.lineReceive p vc dt .bad true px sclk) s = .next t
          ∧ ((t.cam n).receiving.map (fun g => (g.lines.length, g.lost))) = some (f.lines.length + 1, f.lost + 1)
          ∧ bitOf (t.reg (Pg.ispPort p + Hdr.errStat)).toNat E.ispPort_ECC_UNCORR = true))
    ∧ ∀ (s : State) (n : Fin 16) (f : IspFrame), (s.cam n).head = some f →
        (s.isp.stripe = none → s.domState 27 = 2 → s.nextCam = some n.val → s.stale n f.dtime = false →
            ∃ t, exec .stripeGrant s = .next t ∧ t.isp.stripe = some n.val ∧ t.isp.served = some n.val
              ∧ (t.cam n).head = some { f with begun := true } ∧ t.regs = s.regs ∧ t.da = s.da ∧ t.spad = s.spad)
          ∧ (s.isp.stripe = some n.val → f.fld (R.ISP_CAM_CFG n) F.ISP_CAM_CFG_STORED = 0 →
            ∃ t, exec .stripeEnd s = .next t ∧ t.isp.stripe = none
              ∧ (t.cam n).head.map (·.fin) = some (f.fin + min 32 (f.lines.length - f.fin)))
          ∧ (f.ended = true → (s.view n f).h ≤ f.fin → s.isp.stripe ≠ some n.val →
            ∃ t, exec (.frameDone n) s = .next t
              ∧ (t.cam n).frames = (s.cam n).frames.filter (fun g => g.order != f.order)
              ∧ t.counter (cntKey Pg.isp0 0) = (s.counter (cntKey Pg.isp0 0) + 1) % 2 ^ 64)

/-- A posted packet queues behind at most 15 others; the packet on the bus leaves it when it is done, its settings standing
for the camera's frames from SENS_DELAY on, and when the bus times out (R290 to R293). The lookup-table and command-
memory windows read and write the word that their index selects and step it; a write of an active bank or of a queued
packet's entry is refused; ISP_OUT_REL releases a buffer (R282, R286, R290, R299). Rests on the model's choices of log
entries 78 and 79. -/
def Obligations.CameraControlAndWindows : Prop :=
  (∀ (s : State) (iid : Fin 24) (b : Fin 4) (val : Word),
      let x := s.ccBus b
      (s.Admits iid (R.ISP_CC_POST b) .ispBus b → 1 ≤ wordFld val F.ISP_CC_POST_COUNT → x.posted.length + x.due.length < 16 →
          ∃ t, exec (.ccPost iid b val) s = .next t ∧ (t.ccBus b).posted = x.posted ++ [⟨wordFld val F.ISP_CC_POST_CAMERA,
              s.fld (R.ISP_CC_ID b) F.ISP_CC_ID_ID, wordFld val F.ISP_CC_POST_FIRST, wordFld val F.ISP_CC_POST_COUNT,
              s.isp.posts, 0⟩]
            ∧ t.fld (R.ISP_CC_STATUS b) F.ISP_CC_STATUS_QUEUED = x.posted.length + x.due.length + 1)
        ∧ (s.Admits iid (R.ISP_CC_POST b) .ispBus b → 1 ≤ wordFld val F.ISP_CC_POST_COUNT →
          16 ≤ x.posted.length + x.due.length →
          exec (.ccPost iid b val) s = .next (raiseErr (Pg.ispBus b) E.ispBus_POST_FULL iid 0x110 s))
        ∧ ∀ q rest, x.due = q :: rest → s.flag (R.ISP_CC_CFG b) F.ISP_CC_CFG_EN = true → s.domOn 27 = true →
          (∀ w r : Nat, (s.cam q.cam).count = q.frame →
            ∃ t, exec (.ccPacketDone b w r true) s = .next t ∧ (t.ccBus b).due = rest
              ∧ (t.cam q.cam).sens = (s.cam q.cam).sens ++ [⟨q.frame + s.camFld q.cam F.ISP_CAM_CFG_SENS_DELAY, some q.id, false,
                  false⟩]
              ∧ t.counter (cntKey (Pg.ispBus b) 0) = (s.counter (cntKey (Pg.ispBus b) 0) + q.cnt) % 2 ^ 64)
            ∧ ∃ t, exec (.ccBusTimeout b) s = .next t ∧ (t.ccBus b).due = rest
              ∧ (t.cam q.cam).sens = (s.cam q.cam).sens ++ [⟨q.frame + s.camFld q.cam F.ISP_CAM_CFG_SENS_DELAY, none, false, true⟩]
              ∧ bitOf (t.reg (Pg.ispBus b + Hdr.errStat)).toNat E.ispBus_BUS_RESET = true)
    ∧ ∀ (s : State) (iid : Fin 24) (b : Fin 4) (cam : Fin 16) (o : Fin 3) (val : Word),
        let sel := s.reg R.ISP_LUT_SEL
        let idx := wordFld sel F.ISP_LUT_SEL_INDEX
        let key := lutKey (wordFld sel F.ISP_LUT_SEL_CAMERA) (wordFld sel F.ISP_LUT_SEL_BANK) (wordFld sel F.ISP_LUT_SEL_TABLE) idx
        let busy := s.bankBusy (wordFld sel F.ISP_LUT_SEL_CAMERA) (wordFld sel F.ISP_LUT_SEL_TABLE) (wordFld sel F.ISP_LUT_SEL_BANK)
        let a := s.fld (R.ISP_CC_MEM_ADDR b) F.ISP_CC_MEM_ADDR_ADDR
        (s.Admits iid R.ISP_LUT_DATA .isp0 0 → busy = false → exec (.lutData iid (some val)) s
            = .next ({ s with isp := { s.isp with lut := Tab.set s.isp.lut key val } }.setFld R.ISP_LUT_SEL F.ISP_LUT_SEL_INDEX (idx + 1)))
          ∧ (s.Admits iid R.ISP_LUT_DATA .isp0 0 → busy = true → ∃ t, exec (.lutData iid (some val)) s = .next t ∧ t.isp = s.isp
            ∧ bitOf (t.reg (Pg.isp0 + Hdr.errStat)).toNat E.isp0_LUT_ACTIVE = true)
          ∧ (s.Permits iid R.ISP_LUT_DATA false .isp0 0 → s.domOn 27 = true → exec (.lutData iid none) s
            = .next ((s.setFld R.ISP_LUT_SEL F.ISP_LUT_SEL_INDEX (idx + 1)).answers (Tab.get s.isp.lut 0 key)))
          ∧ (s.Admits iid (R.ISP_CC_MEM_DATA b) .ispBus b → (s.ccBus b).entryBusy (a / 2) = false →
            ∃ t, exec (.ccMemData iid b (some val)) s = .next t ∧ Tab.get (t.ccBus b).mem 0 a = val
              ∧ (∀ k, k ≠ a → Tab.get (t.ccBus b).mem 0 k = Tab.get (s.ccBus b).mem 0 k)
              ∧ t.fld (R.ISP_CC_MEM_ADDR b) F.ISP_CC_MEM_ADDR_ADDR = (a + 1) % 1024)
          ∧ (s.Permits iid (R.ISP_CC_MEM_DATA b) false .ispBus b → s.domOn 27 = true → exec (.ccMemData iid b none) s
            = .next ((s.setFld (R.ISP_CC_MEM_ADDR b) F.ISP_CC_MEM_ADDR_ADDR (a + 1)).answers (Tab.get (s.ccBus b).mem 0 a)))
          ∧ (s.Admits iid (R.ISP_OUT_REL cam o) .ispCam cam → exec (.ispOutRel iid cam o val) s = .next (s.setCam cam
              { s.cam cam with held := (s.cam cam).held.filter (fun q => q != (o.val, wordFld val F.ISP_OUT_REL_INDEX)) }))

/-! ### Video decode and input transforms (R301 to R323) -/

/-- A context fetches the entry that its ring's RD names and joins its engine's queue; the free engine decodes the picture
longest in its queue, or discards it where its sequence header fails; at a slice boundary a picture over its budget
gives way to one that waits, and at 32 times its budget it is abandoned; a decoded picture leaves its engine (R302,
R304, R305, R308, R309). Rests on the model's choices of log entries 12 and 33. -/
def Obligations.EnginesDecodeAccessUnits : Prop :=
  ∀ (s : State),
    (∀ (iid : Fin 24) (c : Fin 32) (val : Word), s.Admits iid (R.DEC_AU_PTR c) .decCtx c →
        ∃ t, exec (.decAuPtrWr iid c val) s = .next t ∧ t.fld (R.DEC_AU_PTR c) F.DEC_AU_PTR_WR = wordFld val F.DEC_AU_PTR_WR
          ∧ t.fld (R.DEC_AU_PTR c) F.DEC_AU_PTR_RD = s.fld (R.DEC_AU_PTR c) F.DEC_AU_PTR_RD
          ∧ OnlyRegs [R.DEC_AU_PTR c, R.DEC_CTX_STATUS c] s t)
      ∧ (∀ c : Fin 32,
        let rd := s.fld (R.DEC_AU_PTR c) F.DEC_AU_PTR_RD
        let r := daRead (s.decCtx c) (s.pair (R.DEC_AU_LO c) (R.DEC_AU_HI c) + 32 * (rd % 4096)) 32 s
        s.flag (R.DEC_CTX_CFG c) F.DEC_CTX_CFG_EN = true → (s.dec c).paused = false → (s.dec c).cur = none →
        s.fld (R.DEC_AU_PTR c) F.DEC_AU_PTR_WR ≠ rd → s.domOn 28 = true → r.2.2.1 = true → r.2.1 = 0 →
        bitOf (leAt r.1 6 1) 1 = false →
        ∃ t p, exec (.auFetch c) s = .next t ∧ (t.dec c).cur = some p ∧ p.da = leAt r.1 0 6 ∧ p.bytes = leAt r.1 8 4
          ∧ p.tag = leAt r.1 12 4 ∧ p.source = leAt r.1 24 4 ∧ p.frame = leAt r.1 28 4
          ∧ p.capture = (if bitOf (leAt r.1 6 1) 0 then leAt r.1 16 8 else s.dtime)
          ∧ (t.eng (c.val / 8)).ready = (s.eng (c.val / 8)).ready ++ [c.val]
          ∧ t.fld (R.DEC_AU_PTR c) F.DEC_AU_PTR_RD = ringNext 12 (s.fld (R.DEC_AU_SLOTS c) F.DEC_AU_SLOTS_SLOTS) rd % 8192
          ∧ t.counter (cntKey (Pg.decCtx c) 0) = (s.counter (cntKey (Pg.decCtx c) 0) + 1) % 2 ^ 64)
      ∧ (∀ (e : Fin 4) (c : Fin 32) (rest : List Nat) (p : DecPic), (s.eng e).run = none → (s.eng e).ready = c.val :: rest →
        (s.dec c).cur = some p → s.domOn 28 = true → p.used = 0 →
        ((s.dec c).discard = false → bitOf p.auFlags 3 = false →
            ∃ t q, exec (.decodeStart e ⟨none, false, []⟩) s = .next t ∧ t.eng e = ⟨rest, some c.val, some c.val⟩
              ∧ (t.dec c).cur = some q ∧ q.da = p.da ∧ q.used = 0 ∧ q.w = (s.dec c).w ∧ q.h = (s.dec c).h
              ∧ (t.dec c).refs = (s.dec c).refs ∧ t.da = s.da)
          ∧ ∀ h : SeqHdr, s.hdrOk c h = false →
            ∃ t, exec (.decodeStart e ⟨some h, true, []⟩) s = .next t ∧ t.eng e = ⟨rest, none, some c.val⟩
              ∧ (t.dec c).cur = none ∧ (t.dec c).discard = true ∧ (t.dec c).refs = (s.dec c).refs
              ∧ t.counter (cntKey (Pg.decCtx c) 2) = (s.counter (cntKey (Pg.decCtx c) 2) + 1) % 2 ^ 64)
      ∧ ∀ (e : Fin 4) (c : Fin 32) (p : DecPic), (s.eng e).run = some c.val → (s.dec c).cur = some p → s.decAwake = true →
        let b := p.budget c
        let abandoned : State → Prop := fun t => (t.eng e).run = none ∧ (t.dec c).cur = none
          ∧ (t.dec c).damaged = (s.dec c).damaged ++ [p.id] ∧ (t.dec c).out = (s.dec c).out
          ∧ t.counter (cntKey (Pg.decCtx c) 4) = (s.counter (cntKey (Pg.decCtx c) 4) + 1) % 2 ^ 64
        (∀ (cycles unfilled : Nat) (keep : List Nat),
            let u := p.used + cycles
            (b = 0 ∨ u ≤ b ∨ ((s.eng e).ready = [] ∧ u < 32 * b) →
                ∃ t, exec (.sliceBoundary e cycles unfilled keep) s = .next t ∧ (t.dec c).cur = some { p with used := u }
                  ∧ t.eng e = s.eng e)
              ∧ (b < u → u < 32 * b → (s.eng e).ready ≠ [] →
                ∃ t, exec (.sliceBoundary e cycles unfilled keep) s = .next t
                  ∧ (t.dec c).cur = some { p with used := u, flags := p.flags ||| 16 }
                  ∧ (t.eng e).run = none ∧ (t.eng e).ready = (s.eng e).ready ++ [c.val])
              ∧ (0 < b → 32 * b ≤ u → ∃ t, exec (.sliceBoundary e cycles unfilled keep) s = .next t ∧ abandoned t)
              ∧ (0 < b → ∃ t, exec (.decodeAbandon e unfilled keep) s = .next t ∧ abandoned t))
          ∧ ∀ info : PicInfo, ∃ t, exec (.decodeDone e info) s = .next t ∧ (t.eng e).run = none ∧ (t.eng e).ready = (s.eng e).ready
            ∧ (t.dec c).cur = none
            ∧ t.counter (cntKey Pg.dec0 0) = (s.counter (cntKey Pg.dec0 0) + 1) % 2 ^ 64
            ∧ t.counter (cntKey (Pg.decEng e) 1) = (s.counter (cntKey (Pg.decEng e) 1) + 1) % 2 ^ 64

/-- The idle transform engine takes the oldest output picture whose destination has room, unless it is stale; a transform into a
region ends with its picture delivered and counted; XFM_REL releases a buffer (R313, R315, R316, R318). -/
def Obligations.TransformsTakeAndDeliverPictures : Prop :=
  ∀ (s : State),
    (∀ (c : Nat) (p : DecPic) (rest : List DecPic), s.video.run = none → s.domOn 28 = true →
        s.xfmNext (fun c => s.xfmAllowed c && s.xfmRoom c) = some c → (s.dec c).out = p :: rest →
        (s.stale (decFeed c) p.capture = false → bitOf p.auFlags 1 = false →
            ∃ t r, exec .xfmStart s = .next t ∧ t.video.run = some r ∧ r.c = c ∧ r.pic = p ∧ (t.dec c).out = rest
              ∧ (s.fld (R.XFM_CFG c) F.XFM_CFG_DEST = 0 → r.buf = none ∧ t.video.held = s.video.held)
              ∧ (s.fld (R.XFM_CFG c) F.XFM_CFG_DEST = 1 → r.buf = some (Tab.get s.video.next 0 c)
                ∧ t.video.held = s.video.held ++ [(c, Tab.get s.video.next 0 c)])
              ∧ t.da = s.da ∧ t.spad = s.spad)
          ∧ (s.stale (decFeed c) p.capture = true → p.decoded = true →
            ∃ t, exec .xfmStart s = .next t ∧ t.video.run = none ∧ (t.dec c).out = rest ∧ t.video.held = s.video.held
              ∧ t.counter (R.FEED_STALE_CNT_LO (decFeed c)) = (s.counter (R.FEED_STALE_CNT_LO (decFeed c)) + 1) % 2 ^ 64
              ∧ t.spad = s.spad))
      ∧ (∀ r : XfmRun, s.video.run = some r → r.hit = none → r.buf = none → r.c < 32 →
        ∃ t, exec .xfmDone s = .next t ∧ t.video.run = none
          ∧ t.counter (cntKey (Pg.xfm r.c) 0) = (s.counter (cntKey (Pg.xfm r.c) 0) + 1) % 2 ^ 64
          ∧ t.counter (cntKey (Pg.decCtx r.c) 1) = (s.counter (cntKey (Pg.decCtx r.c) 1) + 1) % 2 ^ 64
          ∧ t.counter (cntKey Pg.dec0 1) = (s.counter (cntKey Pg.dec0 1) + 1) % 2 ^ 64)
      ∧ ∀ (iid : Fin 24) (c : Fin 32) (val : Word), s.Admits iid (R.XFM_REL c) .xfm c →
        exec (.xfmRel iid c val) s = .next { s with video := { s.video with
          held := s.video.held.filter (fun q => q != (c.val, wordFld val F.XFM_REL_INDEX)) } }

/-! ### The host interface (R324 to R347, R457, R514) -/

/-- A doorbell inside its ring's bounds, for an enabled ring of a READY or HOST_LOST function, is accepted; any other is
ignored, counted and flagged. An MSI-X table word stores, and clearing a vector's mask sends its pending message. Each
PCI Express error is counted and logged under AER (R329 to R331, R345). Rests on the model's choices of log entries 14
and 92. -/
def Obligations.DoorbellsMessagesAndLinkErrors : Prop :=
  ∀ (s : State) (f : Fin 16), s.booted = true → s.domOn 29 = true →
    (∀ (k : Fin 8) (q : Fin 4) (val : Word),
        let x := 8 * f.val + k.val
        let n := s.sqSlots x q
        let tail := wordFld val ⟨12, 0⟩
        let ok := decide (s.fnState f = fnReady ∨ s.fnState f = fnLost) && s.sqEn x q && decide (tail % 4096 < n)
          && decide (ringAhead n tail (s.sqFetch x q) ≤ n
            ∧ ringAhead n (s.sqTail x q) (s.sqFetch x q) ≤ ringAhead n tail (s.sqFetch x q))
        (ok = true → ∃ t, exec (.sqDoorbell f k q val) s = .next t ∧ t.sqTail x q = tail ∧ t.sqFetch x q = s.sqFetch x q
            ∧ t.hif = s.hif ∧ t.da = s.da ∧ t.spad = s.spad)
          ∧ (ok = false → exec (.sqDoorbell f k q val) s
            = .next (errEvent (Pg.hifFn f) E.hifFn_DB_BAD (s.count (Pg.hifFn f) 3 1))))
      ∧ (∀ (k : Fin 8) (val : Word),
        let x := 8 * f.val + k.val
        let n := s.cqSlots x
        let head := wordFld val ⟨12, 0⟩
        let ok := decide (s.fnState f = fnReady ∨ s.fnState f = fnLost) && s.cqEn x && decide (head % 4096 < n)
          && decide (ringAhead n head (s.cqHead x) ≤ ringAhead n (s.cqWr x) (s.cqHead x))
        (ok = true → exec (.cqDoorbell f k val) s = .next (s.setFld (R.HIF_CQ_STATUS f k) F.HIF_CQ_STATUS_HEAD head))
          ∧ (ok = false → exec (.cqDoorbell f k val) s
            = .next (errEvent (Pg.hifFn f) E.hifFn_DB_BAD (s.count (Pg.hifFn f) 3 1))))
      ∧ (∀ (w : Fin 4096) (val : Word), s.fnState f ≠ fnDisabled →
        ∃ t, exec (.msiXTableWrite f w val) s = .next t ∧ Tab.get (t.fn f).msix 1#32 w = val
          ∧ (∀ i, i ≠ w.val → Tab.get (t.fn f).msix 1#32 i = Tab.get (s.fn f).msix 1#32 i)
          ∧ (w.val % 4 = 3 → val.getLsbD 0 = false → w.val / 4 ∈ (s.fn f).pend →
            w.val / 4 ∉ (t.fn f).pend ∧ Tab.get (t.fn f).sent 0 (w.val / 4) = Tab.get (s.fn f).sent 0 (w.val / 4) + 1)
          ∧ (∀ g : Fin 16, g ≠ f → t.fn g = s.fn g) ∧ t = { s with hif := t.hif })
      ∧ ∀ (kind : PcieErr) (ctr bit : Nat),
        (kind, ctr, bit) ∈ [(PcieErr.correctable, 0, E.hif0_AER_CORR), (.nonFatal, 1, E.hif0_AER_NONFATAL),
          (.fatal, 1, E.hif0_AER_FATAL), (.replay, 2, E.hif0_AER_CORR), (.unexpected, 4, E.hif0_AER_NONFATAL)] →
        ∃ t, exec (.pcieLinkError kind) s = .next t
          ∧ t.counter (cntKey Pg.hif0 ctr) = (s.counter (cntKey Pg.hif0 ctr) + 1) % 2 ^ 64
          ∧ bitOf (t.reg (Pg.hif0 + Hdr.errStat)).toNat bit = true ∧ t.da = s.da ∧ t.spad = s.spad

/-- A fetched entry joins the entries of its queue with a slot of its completion ring; one of a reserved OPCODE completes
REJECTED with reason 1. A DMA entry that may start is posted to its core's channel, a FENCE completes, and a finished
entry's completion is written to the next slot of its context's ring, or suppressed by QUIET (R333 to R337). Rests on
the model's choices of log entries 12, 90 and 93. -/
def Obligations.EntriesAreFetchedAndCompleted : Prop :=
  ∀ (s : State),
    (∀ (cc : Fin 4) (k : Nat), s.nextQueue cc = some k →
        let x := k / 4
        let q := k % 4
        let f := tenantOf x
        let da := s.sqBase x q + 64 + 64 * (s.sqFetch x q % 4096)
        let r := readRun (128 + f) f 1 (da / 512 * 512) { s with hif := { s.hif with rotor := Tab.set s.hif.rotor cc k } }
        let op := ofLeBytes ((((r.1.drop (da % 512)).take 64).drop 0).take 1)
        (r.2.2.1 = false → ∃ t, exec (.sqFetch cc) s = .next t ∧ t.sqEn x q = false ∧ t.hif.entries = s.hif.entries
            ∧ bitOf (t.reg (Pg.hifFn f + Hdr.errStat)).toNat E.hifFn_Q_BAD = true)
          ∧ (r.2.2.1 = true → ∃ t, exec (.sqFetch cc) s = .next t ∧ t.hif.nextId = s.hif.nextId + 1
            ∧ (∃ e ∈ t.hif.entries, e.id = s.hif.nextId ∧ e.ctx = x ∧ e.queue = q ∧ e.opcode = op
              ∧ ((s.ctx x).tear = false → r.2.1 = 0 → op = 0 ∨ 4 < op → e.st = .done 1 1 0 s.dtime))
            ∧ t.sqFetch x q = ringStep (s.sqSlots x q) (s.sqFetch x q) % 8192
            ∧ t.counter (cntKey (Pg.hifFn f) 0) = (s.counter (cntKey (Pg.hifFn f) 0) + 1) % 2 ^ 64))
      ∧ (∀ (id : Nat) (e : Entry), s.entry id = some e → s.canStart e = true →
        (∀ n, e.opcode = 2 → (s.ctx e.ctx).cores[e.core]? = some n → n < 18 → s.domOn n = true →
            let ch := Dma.chan (dmaWords s e)
            (s.chan n ch).queue.length < 8 →
            ∃ t, exec (.dmaEntry id) s = .next t
              ∧ (t.chan n ch).queue = (s.chan n ch).queue ++ [⟨.dma, dmaWords s e, e.ctx, false, some id⟩]
              ∧ (t.entry id).map (·.st) = some .started ∧ t.spad = s.spad ∧ t.da = s.da)
          ∧ (e.opcode = 3 → (s.earlier e).all Entry.isDone = true → exec (.fence id) s = .next (entryDone id 0 0 0 s)))
      ∧ ∀ (x : Fin 128) (q : Fin 4) (e : Entry) (status code sub dt : Nat), s.fnState (tenantOf x) = fnReady →
        s.oldestEntry x q = some e → e.st = .done status code sub dt →
        let s1 := { s with hif := { s.hif with entries := s.hif.entries.filter (fun b => b.id != e.id) } }
        let p := s.cqWr x
        let da := s.cqBase x + 16 * (p % 4096)
        (bitOf e.flags 2 = true → status = 0 → exec (.completionWrite x q) s = .next s1)
          ∧ (bitOf e.flags 2 = false ∨ status ≠ 0 → ∃ t, exec (.completionWrite x q) s = .next t
            ∧ t.hif.entries = s1.hif.entries ∧ t.cqWr x = ringStep (s.cqSlots x) p % 8192
            ∧ t.counter (cntKey (Pg.hifFn (tenantOf x)) 1) = (s.counter (cntKey (Pg.hifFn (tenantOf x)) 1) + 1) % 2 ^ 64
            ∧ t.da = (writeRun (128 + tenantOf x) (tenantOf x) da 0
              (completionBytes e (1 - p / 4096 % 2) status code sub dt) 1 (da / 512 * 512) s1).2.da)

/-- A tenant whose heartbeat has stood still for TIMEOUT is lost; RESUME after a change makes it READY again. A function-
level reset, VF Enable and a reset of link 1 put their functions into SCRUBBING; the scrub's end leaves no page of the
tenant and the function in the state that it was bound for (R339 to R343, R457, R514). Rests on the model's choices of
log entry 86. -/
def Obligations.FunctionsAreLostResumedAndScrubbed : Prop :=
  ∀ (s : State) (f : Fin 16), s.PlacesNamed →
    (s.ringsOf f = [] → exec (.heartbeatSample f) s
        = .next (s.modFn f (fun x => { x with beats := [], lastChange := s.dtime })))
      ∧ (s.fnState f = fnReady → s.ringsOf f ≠ [] →
        let r := sampleBeats f (s.ringsOf f) (s.modFn f (fun x => { x with beats := x.beats.filter (fun b => (s.ringsOf f).contains b.1) }))
        (r.1 = true → ∃ t, exec (.heartbeatSample f) s = .next t ∧ t.fnState f = fnReady ∧ (t.fn f).lastChange = s.dtime)
          ∧ (r.1 = false → s.fld (R.HIF_HB_CFG f) F.HIF_HB_CFG_TIMEOUT * 24576 ≤ s.dtime - (s.fn f).lastChange →
            ∃ t, exec (.heartbeatSample f) s = .next t ∧ t.fnState f = fnLost
              ∧ bitOf (t.reg (Pg.hifFn f + Hdr.errStat)).toNat E.hifFn_HB_LOST = true
              ∧ t.counter (cntKey (Pg.hifFn f) 7) = (s.counter (cntKey (Pg.hifFn f) 7) + 1) % 2 ^ 64))
      ∧ (∀ iid : Fin 24, s.Admits iid (R.HIF_FN_CTRL f) .hifFn f →
        (s.fnState f = fnLost → (s.fn f).changed = true → ∃ t, exec (.resume iid f) s = .next t ∧ t.fnState f = fnReady
            ∧ (t.fn f).changed = false)
          ∧ (s.fnState f ≠ fnLost → exec (.resume iid f) s = .next (raiseErr (Pg.hifFn f) E.hifFn_RESUME_BAD iid 0x104 s)))
      ∧ (let scrubs : Nat → Nat → State → Prop := fun g dest t => t.fnState g = fnScrub ∧ (t.fn g).scrubTo = dest
          ∧ ∀ k, k < 8 → t.exists' (8 * g + k) = false
        (s.booted = true → s.domOn 29 = true → s.fnState f ≠ fnScrub →
            (s.fnState f ≠ fnDisabled → ∃ t, exec (.functionLevelReset f) s = .next t ∧ scrubs f fnReady t
                ∧ ∀ g : Fin 16, g ≠ f → t.fnState g = s.fnState g)
              ∧ (f ≠ 0 → f ≠ 8 → (s.fnState f = fnDisabled → ∃ t, exec (.vfEnable f true) s = .next t ∧ scrubs f fnReady t)
                ∧ (s.fnState f ≠ fnDisabled → ∃ t, exec (.vfEnable f false) s = .next t ∧ scrubs f fnDisabled t)))
          ∧ (s.booted = true → s.flag R.HIF_LINK_CFG F.HIF_LINK_CFG_SPLIT = true →
            ∃ t, exec .pe1PerstN s = .next t ∧ t.pins.pe1Low = true ∧ t.reg (R.HIF_LINK_STATUS 1) = 0
              ∧ (∀ g : Fin 16, 8 ≤ g.val → s.fnState g ≠ fnDisabled → t.fnState g = fnScrub)
              ∧ ∀ g : Fin 16, g.val < 8 ∨ s.fnState g = fnDisabled → t.fnState g = s.fnState g)
          ∧ (s.flag R.HIF_LINK_CFG F.HIF_LINK_CFG_SPLIT = false →
            exec .pe1PerstN s = .next { s with pins := { s.pins with pe1Low := true } }))
      ∧ (s.fnState f = fnScrub → (∀ a ∈ s.mt.accs, a.owner ≠ f.val) →
        ∃ t, exec (.scrubKeyErase f) s = .next t ∧ t.fnState f = (s.fn f).scrubTo % 4
          ∧ (∀ p, (t.page p).owner ≠ some f.val) ∧ t.keyState f = keyActive
          ∧ (∀ k q, k < 8 → q < 4 → t.sqEn (8 * f.val + k) q = false)
          ∧ (bitOf (s.fld R.SEC_CONF F.SEC_CONF_CLEAR_PEND) f = true → t.confidential f = false)
          ∧ (bitOf (s.fld R.SEC_CONF F.SEC_CONF_CLEAR_PEND) f = false → t.confidential f = s.confidential f)
          ∧ t.counter (cntKey Pg.secConf 0) = (s.counter (cntKey Pg.secConf 0) + 1) % 2 ^ 64)

/-- A BAR2 access of a READY or HOST_LOST function passes stage 1 under its range set: a refused read returns all ones and a
refused write is dropped, both counted; a poisoned read carries EP and zeros; a write lands at its DA and nowhere beyond
the sectors that it touches; a scrubbing function reads all ones (R223, R224, R327). Rests on the model's choices of log
entries 12 and 89. -/
def Obligations.Bar2AccessesPassStageOne : Prop :=
  ∀ (s : State) (f : Fin 16) (o n : Nat) (bytes : List Byte), s.booted = true → s.domOn 29 = true →
    let da := s.bar2Base f + o
    let s4 := s.count (Pg.hifFn f) 4 1
    let s5 := s.count (Pg.hifFn f) 5 1
    let ones : Resp := { data := List.replicate n 0xFF#8 }
    let r := readRun (128 + f) f (ceilDiv (da % 512 + n) 512) (da / 512 * 512) s4
    (s.fnState f = fnReady ∨ s.fnState f = fnLost →
        (s4.bar2Refused f da n false ≠ 0 → exec (.bar2Read f o n false) s
            = .next (respond ones (bar2Denied f (s4.bar2Refused f da n false) s4)))
          ∧ (s4.bar2Refused f da n false = 0 →
            (exec (.bar2Read f o n true) s = .next (respond { abort := true } (aerNonFatal s4)))
              ∧ (r.2.1 = 0 → exec (.bar2Read f o n false) s
                = .next (respond { data := (r.1.drop (da % 512)).take n } r.2.2.2))
              ∧ (r.2.1 ≠ 0 → exec (.bar2Read f o n false) s
                = .next (respond { data := List.replicate n 0, ep := true } (r.2.2.2.count Pg.hif0 5 1))))
          ∧ (∃ t, exec (.bar2Write f o bytes true false) s = .next t ∧ t.da = s.da
            ∧ bitOf (t.reg (Pg.hif0 + Hdr.errStat)).toNat E.hif0_AER_NONFATAL = true)
          ∧ (s5.bar2Refused f da bytes.length true ≠ 0 → exec (.bar2Write f o bytes false false) s
            = .next (bar2Denied f (s5.bar2Refused f da bytes.length true) s5))
          ∧ (s5.bar2Refused f da bytes.length true = 0 → Memory.wf s.da = true →
            (exec (.bar2Write f o bytes false true) s = .next (aerNonFatal s5))
              ∧ ∃ t, exec (.bar2Write f o bytes false false) s = .next t
                ∧ (∀ i, i < bytes.length → Memory.read t.da (da + i) = bytes.getD i 0)
                ∧ (∀ a, a < da / 512 * 512 ∨ ceilDiv (da + bytes.length) 512 * 512 ≤ a → Memory.read t.da a = Memory.read s.da a)
                ∧ t.spad = s.spad))
      ∧ (s.fnState f = fnScrub → exec (.bar2Read f o n false) s = .next (respond ones s4)
        ∧ exec (.bar2Write f o bytes false false) s = .next s5)

/-! ### The control complex (R348 to R374, R412) -/

/-- The CONTROL entries that may start: SHARE, ACCOUNT and STREAM_OP complete at once; REGION and MODEL become commits of
the core's next operation boundary, a MODEL of a context that is not resident goes into its saved image; STREAM_WRITE
replaces the entry with CTX and CORE forced, waits while the stream is held, and is rejected where R197 fails (R353,
R358, R362). Rests on the model's choices of log entries 4 (what waits changes nothing) and 91. -/
def Obligations.ControlEntriesAct : Prop :=
  ∀ (s : State) (id : Nat) (e : Entry) (n : Nat), s.entry id = some e → e.opcode = 4 → s.canStart e = true →
    (s.ctx e.ctx).cores[Con.core e]? = some n →
    let i := Con.index e
    let commits : Instr → Nat → List RWrite → Prop := fun c base ws =>
      (s.txn (base / 4096)).openTxn = none → (s.txn (base / 4096)).pend.length < 4 →
      ∃ t p, exec c s = .next t ∧ (t.txn (base / 4096)).pend = (s.txn (base / 4096)).pend ++ [p] ∧ p.writes = ws ∧ p.apply = 1
        ∧ p.host = some id ∧ (t.entry id).map (·.st) = some .started ∧ t.regs = s.regs ∧ t.spad = s.spad
    (Con.cmd e = 5 → exec (.share id) s = .next (entryDone id 0 0 0
        (s.setFld (R.CTL_CX_SHARE e.ctx) F.CTL_CX_SHARE_SHARE (bitsOf (Con.data e 0).toNat 9 0))))
      ∧ (Con.cmd e = 6 →
        ((s.page (pageOf (Con.da e))).owner = some (tenantOf e.ctx) → exec (.account id) s = .next (entryDone id 0 0 0
            (fwWrite (Con.da e) ((List.range 5).flatMap (fun k => leBytes 8 (s.counter (R.CTL_ACC_LO k e.ctx)))
              ++ leBytes 8 s.dtime ++ leBytes 16 0) 1 s).2))
          ∧ ((s.page (pageOf (Con.da e))).owner ≠ some (tenantOf e.ctx) →
            exec (.account id) s = .next (entryDone id 1 4 19 s)))
      ∧ (Con.cmd e = 3 → commits (.region id) (Pg.spd5 n)
        [⟨R.SPD_REGION_GEOM n i, 0xFFFFFFFF#32, Con.data e 0⟩,
          ⟨R.SPD_REGION_OWNER n i, 0x003FFFFF#32, wordSet (Con.data e 1) F.SPD_REGION_OWNER_CTX e.ctx &&& 0x003FFFFF#32⟩,
          ⟨R.SPD_REGION_HEAD n i, 0x0001FFFF#32, Con.data e 2 &&& 0x0001FFFF#32⟩,
          ⟨R.SPD_REGION_TAIL n i, 0x0001FFFF#32, Con.data e 3 &&& 0x0001FFFF#32⟩])
      ∧ (Con.cmd e = 4 →
        let p := s.placeOf e.ctx (Con.core e)
        let v := BitVec.ofNat 32 (wordFld (Con.data e 0) F.SEQ_MODEL_ENTRY + p.imemBase
          + 65536 * (wordFld (Con.data e 0) F.SEQ_MODEL_IMAGE + p.imemBase) + 2 ^ 31 * wordFld (Con.data e 0) F.SEQ_MODEL_VALID)
        ((s.core n).ctx = some e.ctx →
            commits (.model id) (Pg.seq n) [⟨R.SEQ_MODEL n i, 0xBFFF3FFF#32, v &&& 0xBFFF3FFF#32⟩])
          ∧ ((s.core n).ctx ≠ some e.ctx → ∃ t, exec (.model id) s = .next t
            ∧ (t.ctx e.ctx).saved = (s.ctx e.ctx).saved.map (fun j =>
              if j.core = n then { j with models := modNth j.models i (fun _ => v) } else j)
            ∧ (t.entry id).map (·.st) = some (.done 0 0 0 s.dtime) ∧ t.regs = s.regs ∧ t.cores = s.cores))
      ∧ (Con.cmd e = 2 → ∀ k, s.strEntry e.ctx i = some k → s.strOwned k = true →
        (bitsOf (Con.data e 0).toNat 7 0 = 5 → ∃ t, exec (.streamOp id) s = .next t ∧ t.strReset k = true
            ∧ (t.entry id).map (·.st) = some (.done 0 0 0 s.dtime) ∧ t.spad = s.spad)
          ∧ (bitsOf (Con.data e 0).toNat 7 0 = 6 → s.strHeld k = true → exec (.streamOp id) s = .next s))
      ∧ (Con.cmd e = 1 → ∀ k, s.strEntry e.ctx i = some k → s.strOwned k = true →
        let w0 := wordSet (wordSet (Con.data e 0) ⟨7, 1⟩ e.ctx) ⟨12, 8⟩ n
        let ws : Nat → Word := fun w => if w = 0 then w0 else Con.data e w
        let placed := (iter 4 (fun w t => t.setStr k w (ws w)) s).strPlaced n e.ctx k
        (s.strHeld k = true → exec (.streamWrite id) s = .next s)
          ∧ (s.strHeld k = false → placed = false → exec (.streamWrite id) s = .next (entryDone id 1 4 18 s))
          ∧ (s.strHeld k = false → placed = true → ∃ t, exec (.streamWrite id) s = .next t ∧ (∀ w, w < 4 → t.str k w = ws w)
            ∧ (t.entry id).map (·.st) = some (.done 0 0 0 s.dtime) ∧ ∀ o w, o ≠ k → w < 4 → t.str o w = s.str o w))

/-- A JOB entry on an idle block starts its job on its cores with BATCH in its semaphore; the end of the only job's slice
charges its tenant and context by their shares and begins a new slice; a pre-empted job leaves its cores at their
drained boundary; a job whose cores halted on DONE completes; LIMIT faults with WATCHDOG (R355 to R357, R360 to R362).
Rests on the model's choices of log entries 4 (an event whose condition fails changes nothing) and 87. -/
def Obligations.JobsRunUnderTheScheduler : Prop :=
  ∀ (s : State) (id aclk : Nat),
    (∀ e : Entry, s.entry id = some e → e.opcode = 1 → s.canStart e = true → s.ctl.jobs = [] → s.rel.holdStarts = false →
        s.ctl.upd.holding = none →
        let cs := (maskCores (Job'.mask e)).map (fun c => (s.ctx e.ctx).cores.getD c 31)
        (∀ n ∈ cs, n < 18 ∧ s.inService n = true ∧ s.domOn n = true) →
        ∃ t, exec (.job id aclk) s = .next t ∧ t.ctl.jobs.map (fun j => (j.id, j.ctx, j.st, j.held)) = [(id, e.ctx, .running, cs)]
          ∧ (t.entry id).map (·.st) = some .started
          ∧ t.counter (cntKey Pg.ctl0 0) = (s.counter (cntKey Pg.ctl0 0) + 1) % 2 ^ 64
          ∧ ∀ n ∈ cs, ∀ k, k < 64 → t.reg (R.SEQ_SEM n k) = if k = Job'.sem e then BitVec.ofNat 32 (Job'.batch e) else 0)
      ∧ (∀ j : Job, s.ctl.jobs = [j] → j.id = id →
        let t0 := tenantOf j.ctx
        let used := (aclk - j.mark) * j.held.length * 1000
        let charged := { j with mark := max j.mark aclk, ran := j.ran + (aclk - j.mark) }
        let vts : State → Prop := fun t =>
          t.vtTen t0 = (s.vtTen t0 + used / s.fld (R.CTL_TEN_SHARE t0) F.CTL_TEN_SHARE_SHARE) % 2 ^ 64
            ∧ (t.ctx j.ctx).vt = ((s.ctx j.ctx).vt + used / s.fld (R.CTL_CX_SHARE j.ctx) F.CTL_CX_SHARE_SHARE) % 2 ^ 64
        (j.st = .running → j.held ≠ [] → j.sliceOver aclk = true → s.fnState t0 = fnReady →
            ∃ t, exec (.sliceEnd id aclk) s = .next t
              ∧ t.ctl.jobs = [{ charged with slice := aclk, len := s.fld R.CTL_TSLICE F.CTL_TSLICE_SLICE * 2048 }] ∧ vts t
              ∧ t.cores = s.cores)
          ∧ (j.st = .running → j.sliceOver aclk = false → exec (.sliceEnd id aclk) s = .next s)
          ∧ (∀ n : Fin 18, j.st = .draining → j.held = [n.val] →
            (s.atRest n = true → ∃ t, exec (.contextSwitch n aclk) s = .next t
                ∧ t.ctl.jobs = [{ charged with held := [], st := .runnable }] ∧ vts t ∧ t.cores = s.cores)
              ∧ (s.atRest n = false → exec (.contextSwitch n aclk) s = .next s))
          ∧ (∀ e, s.entry id = some e → e.st = .started → j.st = .running →
            (∀ n ∈ s.jobCores j, n ∈ j.held ∧ s.seqState n = Seq.halted ∧ (s.core n).doneSig = true ∧ s.quiet n j.ctx = true) →
            ∃ t, exec (.jobDone id aclk) s = .next t ∧ t.ctl.jobs = []
              ∧ (t.entry id).map (·.st) = some (.done 0 0 0 s.dtime)
              ∧ t.counter (cntKey Pg.ctl0 1) = (s.counter (cntKey Pg.ctl0 1) + 1) % 2 ^ 64)
          ∧ (j.held ≠ [] → 0 < j.limit → j.limit * 2048000 ≤ j.ran + (aclk - j.mark) → (s.ctx j.ctx).fault = none →
            ∃ t, exec (.jobLimit id aclk) s = .next t
              ∧ (t.ctx j.ctx).fault.map (fun r => (r.code, r.tag)) = some (Flt.watchdog, ((s.entry id).map (·.tag)).getD 0)))

/-- CREATE places a context on the lowest-numbered cores with room, DESTROY clears its slot; either reports why it is
refused. Teardown first ends every entry and job of the context, then zeroes its rows and disables its queues. A
rotation exchange carries a context's rows to the replacement and changes its core map; CTL_XCOPY copies instruction
slots (R351, R364, R365, R371). Rests on the model's choices of log entries 85 and 88. -/
def Obligations.ContextsAreCreatedTornDownAndMoved : Prop :=
  ∀ (s : State), s.PlacesNamed →
    (∀ (iid : Fin 24) (t0 : Fin 16) (k : Fin 8), s.Admits iid R.CTL_MB_CMD .ctlMb 0 →
        let x := 8 * t0.val + k.val
        let a0 := s.reg R.CTL_MB_ARG0
        let a1 := s.reg R.CTL_MB_ARG1
        let n := wordFld a0 F.CTL_MB_ARG0_CORES
        let rows := wordFld a0 F.CTL_MB_ARG0_ROWS
        let regs := wordFld a0 F.CTL_MB_ARG0_REGIONS
        let imem := wordFld a0 F.CTL_MB_ARG0_IMEM
        let share := wordFld a1 F.CTL_MB_ARG1_SHARE
        let da := s.fld R.CTL_MB_DA_LO F.CTL_MB_DA_LO_STATUS_DA * 512 + s.fld R.CTL_MB_DA_HI F.CTL_MB_DA_HI_STATUS_DA * 2 ^ 32
        let room := (List.range 18).filterMap (fun m =>
          if s.inService m then (s.findPlace m (rows * 1024) regs (imem * 256)).map (fun p => (m, p)) else none)
        (s.exists' x = false → 1 ≤ n → n ≤ 16 → 1 ≤ rows → rows ≤ 48 → 1 ≤ regs → regs ≤ 64 → 1 ≤ imem → imem ≤ 64 →
            wordFld a1 F.CTL_MB_ARG1_STREAMS = 0 → 1 ≤ share → share ≤ 1000 → (s.page (pageOf da)).owner = some t0.val →
            s.fnState t0 = fnReady →
            (n ≤ room.length → ∃ t, exec (.create iid t0 k) s = .next t ∧ t.exists' x = true
                ∧ (t.ctx x).cores = (room.take n).map (·.1) ∧ (t.ctx x).place = (room.take n).map (·.2)
                ∧ t.fld (R.CTL_CX_INFO x) F.CTL_CX_INFO_CORES = n ∧ t.fld R.CTL_MB_STATUS F.CTL_MB_STATUS_RESULT = 0
                ∧ bitOf (t.reg (R.HIF_FN_STATE t0)).toNat (8 + k.val) = true ∧ ∀ o, o ≠ x → t.ctx o = s.ctx o)
              ∧ (room.length < n → exec (.create iid t0 k) s = .next (raiseErr Pg.ctlMb E.ctlMb_MB_REFUSED iid 0x100
                (s.setFld R.CTL_MB_STATUS F.CTL_MB_STATUS_RESULT 2))))
          ∧ (s.exists' x = true → exec (.create iid t0 k) s = .next (raiseErr Pg.ctlMb E.ctlMb_MB_REFUSED iid 0x100
            (s.setFld R.CTL_MB_STATUS F.CTL_MB_STATUS_RESULT 1)))
          ∧ (s.exists' x = false → exec (.destroy iid t0 k) s = .next (raiseErr Pg.ctlMb E.ctlMb_MB_REFUSED iid 0x100
            (s.setFld R.CTL_MB_STATUS F.CTL_MB_STATUS_RESULT 1)))
          ∧ (s.exists' x = true → ∃ t, exec (.destroy iid t0 k) s = .next t ∧ t.exists' x = false
            ∧ t.fld R.CTL_MB_STATUS F.CTL_MB_STATUS_RESULT = 0
            ∧ bitOf (t.reg (R.HIF_FN_STATE t0)).toNat (8 + k.val) = false))
      ∧ (∀ (x : Fin 128) (aclk : Nat) (r : FaultRec), (s.ctx x).fault = some r → s.exists' x = true →
        ((s.ctx x).tear = false → ∃ t, exec (.teardown x aclk) s = .next t ∧ (t.ctx x).tear = true
            ∧ (∀ e ∈ t.hif.entries, e.ctx = x.val → e.isDone = true) ∧ (∀ j ∈ t.ctl.jobs, j.ctx ≠ x.val)
            ∧ t.counter (cntKey Pg.ctl0 4) = (s.counter (cntKey Pg.ctl0 4) + 1) % 2 ^ 64)
          ∧ ((s.ctx x).tear = true → s.flushed x = true → ∃ t, exec (.teardown x aclk) s = .next t
            ∧ (t.ctx x).fault = none ∧ (t.ctx x).tear = false ∧ (t.ctx x).cores = (s.ctx x).cores
            ∧ (t.ctx x).place = (s.ctx x).place ∧ t.flag (R.CTL_CX_INFO x) F.CTL_CX_INFO_FAULTED = true
            ∧ (∀ q, q < 4 → t.sqEn x q = false)
            ∧ ∀ (i n : Nat) (p : Place) (w b : Nat), (s.ctx x).cores[i]? = some n → (s.ctx x).place[i]? = some p → w < p.rows → b < 512 →
              t.rowByte n (p.rowBase + w) b = 0))
      ∧ (∀ (x : Fin 128) (a b : Fin 18) (aclk i k : Nat) (p : Place), s.exists' x = true → s.inService b = true →
        s.domOn b = true → a ≠ b → s.exchangeable x a = true → b.val ∉ (s.ctx x).cores → (s.ctx x).fault = none →
        (s.ctx x).cores.findIdx? (· == a.val) = some i → (s.ctx x).place[i]? = some p → s.samePlace b p = some k →
        Memory.wf s.spad = true → p.rowBase + p.rows ≤ 65536 →
        ∃ t, exec (.rotationExchange x a b aclk) s = .next t ∧ (t.ctx x).cores = modNth (s.ctx x).cores i (fun _ => b.val)
          ∧ (∀ w c, w < p.rows → c < 512 → t.rowByte b (p.rowBase + w) c = s.rowByte a (p.rowBase + w) c)
          ∧ t.counter (cntKey Pg.ctl0 5) = (s.counter (cntKey Pg.ctl0 5) + 1) % 2 ^ 64)
      ∧ ∀ (iid : Fin 24) (val : Word), s.Admits iid R.CTL_XCOPY .ctl0 0 →
        let a := wordFld val F.CTL_XCOPY_SRC_CORE
        let b := wordFld val F.CTL_XCOPY_DST_CORE
        let first := wordFld val F.CTL_XCOPY_FIRST
        let n := 64 * wordFld val F.CTL_XCOPY_COUNT
        a ≤ 17 → b ≤ 17 →
        (first + n ≤ 16384 → s.domOn a = true → s.domOn b = true → ∃ t, exec (.ctlXcopy iid val) s = .next t
            ∧ (∀ i, i < n → t.slot b (first + i) = s.slot a (first + i))
            ∧ (∀ m i, m < 18 → i < 16384 → (m ≠ b ∨ i < first ∨ first + n ≤ i) → t.slot m i = s.slot m i)
            ∧ t = { s with imem := t.imem })
          ∧ (16384 < first + n → exec (.ctlXcopy iid val) s = .next (raiseErr Pg.ctl0 E.ctl0_XCOPY_BAD iid 0x104 s))

/-- STAGE starts the write of the verified image, or of none, into the inactive slot; ACTIVATE takes the spare as loader and
holds the first core's job starts; each handover moves a core's roles to the loader; an expired wait releases the starts
and is tried again; CANCEL ends an update before its first handover (R366, R367, R373). Rests on the model's choices of
log entries 4 (an event whose condition fails changes nothing), 42 and 43. -/
def Obligations.FirmwareUpdatesByHandover : Prop :=
  ∀ (s : State) (iid : Fin 24), s.PlacesNamed →
    (s.Admits iid R.CTL_UPD_CMD .ctlUpd 0 →
        (∀ keyOk sigOk : Bool,
            (s.updState ≠ 1 → s.updState ≠ 3 → s.flash.next = .none → s.pfRefuses = false →
                ∃ t, exec (.stage iid keyOk sigOk) s = .next t ∧ t.updState = 1
                  ∧ (sigOk = false → t.flash.next = .badImage 1)
                  ∧ ((∃ img, t.flash.next = .image img) ∨ ∃ k, t.flash.next = .badImage k)
                  ∧ (if s.idleSlot = 0 then t.flash.img1 = s.flash.img1 else t.flash.img0 = s.flash.img0)
                  ∧ t.flash.slot = s.flash.slot)
              ∧ (s.updState = 1 ∨ s.updState = 3 ∨ s.flash.next ≠ .none → exec (.stage iid keyOk sigOk) s = .next s))
          ∧ (∀ k c, s.updState = 2 → s.flash.next = .none →
            leastBelow 4 (fun m => s.fld (R.REL_CCORE m) F.REL_CCORE_STATE == 1) = some k →
            leastBelow 4 (fun m => bitOf (s.fld R.CTL_STATUS F.CTL_STATUS_ACTIVE) m && m != k) = some c →
            ∃ t, exec (.activate iid) s = .next t ∧ t.updState = 3 ∧ t.ctl.upd.loader = some k ∧ t.ctl.upd.holding = some c
              ∧ t.fld R.CTL_UPD_STATUS F.CTL_UPD_STATUS_HANDED = 0 ∧ t.flash = s.flash)
          ∧ (s.updState ≠ 2 → exec (.activate iid) s = .next s)
          ∧ (s.updState = 2 → s.fld R.CTL_UPD_STATUS F.CTL_UPD_STATUS_HANDED = 0 → s.flash.next = .none →
            ∃ t, exec (.cancel iid) s = .next t ∧ t.updState = 0 ∧ t.ctl.upd = {} ∧ t.flash = s.flash)
          ∧ (s.updState = 0 → exec (.cancel iid) s = .next s))
      ∧ (∀ (m c : Fin 4), s.updState = 3 → s.flash.next = .none → s.ctl.upd.loader = some m.val → s.canLoad m = true →
        s.ctl.upd.holding = some c.val → bitOf (s.fld R.CTL_STATUS F.CTL_STATUS_ACTIVE) c = true → c ≠ m →
        (s.handoverWaits c = false → ∃ t, exec .updHandover s = .next t
            ∧ bitOf (t.fld R.CTL_STATUS F.CTL_STATUS_ACTIVE) m = true ∧ t.fld (R.REL_CCORE m) F.REL_CCORE_STATE = 0
            ∧ t.fld R.CTL_UPD_STATUS F.CTL_UPD_STATUS_HANDED = (s.fld R.CTL_UPD_STATUS F.CTL_UPD_STATUS_HANDED + 1) % 8
            ∧ (∀ x, x < 128 → s.exists' x = true → t.fld (R.CTL_CX_INFO x) F.CTL_CX_INFO_OWNER
              = if s.fld (R.CTL_CX_INFO x) F.CTL_CX_INFO_OWNER = c.val then m.val
                else s.fld (R.CTL_CX_INFO x) F.CTL_CX_INFO_OWNER))
          ∧ (s.handoverWaits c = true → exec .updHandover s = .next s
            ∧ ∃ t, exec .updWaitExpiry s = .next t ∧ t.fld R.CTL_UPD_STATUS F.CTL_UPD_STATUS_RESULT = 5
              ∧ t.ctl.upd.holding = none ∧ t.ctl.upd.retry = some c.val ∧ t.updState = 3
              ∧ t.dtime = max s.dtime (s.ctl.upd.since + s.updWait)))

/-- A crash leaves the always-on copy and its status, and faults every context that is not torn down; a corrected SRAM error
is counted; a control core that failed its built-in test leaves service, and the spare takes its contexts and roles; the
copy reads word by word (R350, R368, R369, R373, R412). Rests on the model's choices of log entries 4 (an event whose
condition fails changes nothing) and 111. -/
def Obligations.ControlCoresCrashAndFail : Prop :=
  ∀ (s : State) (k : Fin 4), s.PlacesNamed →
    (∀ (c : Instr) (reason : Nat), (c, reason) ∈ [(Instr.ccWatchdog k, 3), (.sramDoubleBit k, 1), (.kernelAssertion k, 2)] →
        s.booted = true → s.domOn 29 = true →
        (bitOf (s.fld R.CTL_STATUS F.CTL_STATUS_ACTIVE) k = true → ∃ t, exec c s = .next t
            ∧ t.flag R.CTL_DUMP_STATUS F.CTL_DUMP_STATUS_VALID = true
            ∧ t.fld R.CTL_DUMP_STATUS F.CTL_DUMP_STATUS_REASON = reason
            ∧ t.fld R.CTL_DUMP_STATUS F.CTL_DUMP_STATUS_COUNT = (s.fld R.CTL_DUMP_STATUS F.CTL_DUMP_STATUS_COUNT + 1) % 65536
            ∧ t.ctl.aon.take 2 = [0x1D0C7#32, BitVec.ofNat 32 (reason + 256 * k.val)] ∧ t.ctl.aon.length = 1024
            ∧ bitOf (t.reg (Pg.ctl0 + Hdr.errStat)).toNat E.ctl0_CRASH = true
            ∧ bitOf (t.reg (Pg.ctlDump + Hdr.errStat)).toNat E.ctlDump_DUMP_TAKEN = true
            ∧ (∀ x, x < 128 → s.exists' x = true → s.flag (R.CTL_CX_INFO x) F.CTL_CX_INFO_FAULTED = false →
              (t.ctx x).fault.isSome = true)
            ∧ t.brz = s.brz ∧ t.dtime = s.dtime)
          ∧ (bitOf (s.fld R.CTL_STATUS F.CTL_STATUS_ACTIVE) k = false → exec c s = .next s))
      ∧ (∃ t, exec (.sramSingleBit k) s = .next t
        ∧ t.counter (cntKey Pg.ctl0 6) = (s.counter (cntKey Pg.ctl0 6) + 1) % 2 ^ 64
        ∧ bitOf (t.reg (Pg.ctl0 + Hdr.errStat)).toNat E.ctl0_SECDED_CORR = true ∧ t.ctl = s.ctl ∧ t.ctxs = s.ctxs)
      ∧ (∀ m : Fin 4, s.fld (R.REL_CCORE k) F.REL_CCORE_STATE ≠ 3 →
        leastBelow 4 (fun m => m != k.val && s.fld (R.REL_CCORE m) F.REL_CCORE_STATE == 1) = some m.val →
        ∃ t, exec (.controlCoreFail k true) s = .next t ∧ t.fld (R.REL_CCORE k) F.REL_CCORE_STATE = 3
          ∧ t.fld (R.REL_CCORE m) F.REL_CCORE_STATE = 0
          ∧ bitOf (t.fld R.CTL_STATUS F.CTL_STATUS_ACTIVE) k = false ∧ bitOf (t.fld R.CTL_STATUS F.CTL_STATUS_ACTIVE) m = true
          ∧ ∀ x, x < 128 → s.exists' x = true → s.fld (R.CTL_CX_INFO x) F.CTL_CX_INFO_OWNER = k.val →
            t.fld (R.CTL_CX_INFO x) F.CTL_CX_INFO_OWNER = m.val)
      ∧ (s.fld (R.REL_CCORE k) F.REL_CCORE_STATE = 3 → ∀ bist, exec (.controlCoreFail k bist) s = .next s)
      ∧ ∀ (iid : Fin 24) (w : Word), s.Permits iid R.CTL_DUMP_AON_DATA false .ctlDump 0 →
        let a := s.fld R.CTL_DUMP_AON_ADDR F.CTL_DUMP_AON_ADDR_WORD
        s.ctl.aon[a]? = some w → exec (.dumpAonRead iid) s
          = .next ((s.setFld R.CTL_DUMP_AON_ADDR F.CTL_DUMP_AON_ADDR_WORD ((a + 1) % 1024)).answers w)

/-! ### Ploem links and collectives (R375 to R394) -/

/-- A flit that fails its check is discarded with NAK; the flit expected next is taken, whatever it carries, and any other
is answered by NAK; a replay timeout replays, and too many replays retrain; a failed lane has its port train again or
wait in rotation mode; training ends ACTIVE, DEGRADED on one lane, or FAILED (R376, R377, R379, R380, R382, R393). Rests
on the model's choices of log entries 4 (an event whose condition fails changes nothing) and 96. -/
def Obligations.PloemPortsReplayRetrainAndDegrade : Prop :=
  ∀ (s : State) (p : Fin 6),
    let cnt : State → Nat → Nat → Prop := fun t i k =>
      t.counter (cntKey (Pg.plmPort p) i) = (s.counter (cntKey (Pg.plmPort p) i) + k) % 2 ^ 64
    let err : State → Nat → Prop := fun t b => bitOf (t.reg (Pg.plmPort p + Hdr.errStat)).toNat b = true
    (∀ (f : Flit) (corr : Nat) (tb : Bool), s.portUp p = true →
        let x := s.port p
        (∃ t, exec (.flitReceive p f true false corr tb) s = .next t ∧ (t.port p).nakOut = true
            ∧ (t.port p).expect = x.expect ∧ cnt t 1 1 ∧ cnt t 5 1 ∧ err t E.plmPort_FEC_UNCORR)
          ∧ (∃ t, exec (.flitReceive p f false true corr tb) s = .next t ∧ (t.port p).nakOut = true
            ∧ (t.port p).expect = x.expect ∧ cnt t 1 1 ∧ cnt t 2 1 ∧ err t E.plmPort_CRC)
          ∧ (1 ≤ f.typ → f.typ ≤ 3 → f.nak = false →
            (f.seq ≠ x.expect → ∃ t, exec (.flitReceive p f true true corr tb) s = .next t ∧ (t.port p).nakOut = true
                ∧ (t.port p).expect = x.expect ∧ (t.port p).ins = x.ins ∧ cnt t 1 1)
              ∧ (f.seq = x.expect → (x.fwd.filter (fun q => q.1 == f.vc)).length < 64 →
                ∃ t, exec (.flitReceive p f true true corr tb) s = .next t ∧ (t.port p).nakOut = false
                  ∧ (t.port p).expect = (x.expect + 1) % 4096 ∧ cnt t 1 1 ∧ cnt t 4 corr
                  ∧ (f.typ = 1 → s.route f.dest = none → s.fnState f.tenant ≠ fnScrub →
                    (s.expects p f.tenant f.ctag = true →
                        (∀ c ∈ x.ins, ¬ (c.tenant = f.tenant ∧ c.ctag = f.ctag ∧ c.chunk = f.chunk)) →
                        (t.port p).ins = x.ins ++ [⟨f.tenant, f.ctag, f.chunk, f.payload, []⟩])
                      ∧ (s.expects p f.tenant f.ctag = false → (t.port p).ins = x.ins
                        ∧ t.counter (cntKey Pg.plm0 7) = (s.counter (cntKey Pg.plm0 7) + 1) % 2 ^ 64
                        ∧ bitOf (t.reg (Pg.plm0 + Hdr.errStat)).toNat E.plm0_TENANT_MISMATCH = true)))))
      ∧ (s.portUp p = true → (s.port p).unacked ≠ 0 →
        let recent := (s.port p).replays.filter (fun t => decide (s.dtime < t + msTicks))
        let thr := s.fld (R.PLM_RETRY_CFG p) F.PLM_RETRY_CFG_RETRY_THR
        (recent.length < thr → exec (.replayTimeout p) s = .next
            ((s.count (Pg.plmPort p) 3 1).modPort p (fun x => { x with replays := recent ++ [s.dtime] })))
          ∧ (thr ≤ recent.length →
            ((s.port p).retrains.filter (fun t => decide (s.dtime < t + 1000 * msTicks))).length
              < s.fld (R.PLM_RETRY_CFG p) F.PLM_RETRY_CFG_RETRAIN_MAX →
            ∃ t, exec (.replayTimeout p) s = .next t ∧ t.portState p = Port.training ∧ cnt t 3 1 ∧ cnt t 6 1
              ∧ err t E.plmPort_RETRAIN ∧ (t.port p).badLanes = (s.port p).badLanes))
      ∧ ((s.port p).unacked = 0 → exec (.replayTimeout p) s = .next s)
      ∧ (∀ l : Fin 2, s.domOn (21 + p) = true →
        (s.portState p = Port.active → (s.port p).badLanes = 0 → exec (.laneFail p l) s = .next
            (setPortState p (if s.recs.reserve then Port.training else Port.drained)
              (s.setPort p { s.port p with badLanes := 2 ^ l.val })))
          ∧ (s.portState p = Port.degraded → bitOf (s.port p).badLanes l = false →
            (s.fld (R.PLM_PORT_STATUS p) F.PLM_PORT_STATUS_LANE = l.val → ∃ t, exec (.laneFail p l) s = .next t
                ∧ t.portState p = Port.failed ∧ err t E.plmPort_FAILED ∧ bitOf (t.reg R.REL_SVC).toNat 4 = true)
              ∧ (s.fld (R.PLM_PORT_STATUS p) F.PLM_PORT_STATUS_LANE ≠ l.val → exec (.laneFail p l) s = .next s))
          ∧ (s.portState p = Port.down ∨ s.portState p = Port.failed → exec (.laneFail p l) s = .next s))
      ∧ ∀ (l0 l1 : Bool) (w : LinkInfo), s.domOn (21 + p) = true →
        (s.flag (R.PLM_PORT_CTRL p) F.PLM_PORT_CTRL_EN = true → s.portState p = Port.training → (s.port p).badLanes = 0 →
            s.flag (R.PLM_PORT_CTRL p) F.PLM_PORT_CTRL_ONE_LANE = false →
            ∃ t, exec (.portTrainingDone p l0 l1 w) s = .next t
              ∧ (l0 = false → l1 = false → t.portState p = Port.failed ∧ err t E.plmPort_FAILED)
              ∧ ((l0 = true ∨ l1 = true) → s.partnerOk p w = false →
                t.portState p = Port.failed ∧ err t E.plmPort_TOPO_BAD)
              ∧ (l0 = true → l1 = true → s.partnerOk p w = true → t.portState p = Port.active
                ∧ ((∀ q, q < 6 → (s.port q).fwd = []) → ∀ v, v < 4 → Tab.get (t.port p).cred 0 v = 64))
              ∧ (∀ l : Fin 2, l0 = (l.val == 0) → l1 = (l.val == 1) → s.partnerOk p w = true → t.portState p = Port.degraded
                ∧ t.fld (R.PLM_PORT_STATUS p) F.PLM_PORT_STATUS_LANE = l.val ∧ err t E.plmPort_DEGRADED))
          ∧ (s.flag (R.PLM_PORT_CTRL p) F.PLM_PORT_CTRL_EN = false → exec (.portTrainingDone p l0 l1 w) s = .next s)

/-- An ISSUE of a collective posts its descriptor; the engine starts it once it passes its checks and faults its context
where it does not; a chunk whose digest holds lands in the workspace, one whose digest does not is sent again and faults
after the third attempt; a complete collective commits its output; PLM_COLL_WAIT bounds the wait (R385 to R387, R389 to
R394). Rests on the model's choices of log entries 4 (an event whose condition fails changes nothing) and 39. -/
def Obligations.CollectivesPostStartLandAndComplete : Prop :=
  ∀ (s : State) (n : Fin 18),
    (∀ (x : Nat) (k : Fin 4) (q : List LoopFrame × Nat), s.AtInstr n x 1 →
        loopStep (s.core n).loops (s.pc n) = q → q.2 ≤ 16383 →
        let slot := bitsOf (s.slot n (s.pc n)).toNat 13 0
        let d := s.descAt n slot
        let c : Instr := match k with
          | 0 => .allReduce n | 1 => .reduceScatter n | 2 => .allGather n | _ => .broadcast n
        slot + 7 ≤ 16383 → Op.opcode d = 9 → Coll.kind d = k.val → Op.gangLog2 d = 0 →
        (s.plm.queue.length < 64 → ∃ t, exec c s = .next t
            ∧ t.plm = { s.plm with queue := s.plm.queue ++ [⟨n, x, d, [n.val], 0⟩] }
            ∧ SeqAt n q.2 Seq.running [R.PLM_COLL_STATUS] { s with plm := t.plm } t
            ∧ t.fld R.PLM_COLL_STATUS F.PLM_COLL_STATUS_QUEUED = s.plm.queue.length + 1)
          ∧ (64 ≤ s.plm.queue.length → exec c s = .next (ctxFault x (some n) [] Flt.illegal 0 0 s)))
      ∧ (∀ (p : CollPost) (rest : List CollPost), s.plm.queue = p :: rest → p.core = n.val → p.gang = [n.val] →
        (∀ r ∈ s.plm.runs, Coll.comm r.desc ≠ Coll.comm p.desc) → s.plm.runs.length < 4 →
        let m := s.commSize (Coll.comm p.desc)
        ((Coll.chk s p m).faults = [] → ∃ t r, exec (.collectiveStart n 0 none) s = .next t
            ∧ t.plm.runs = s.plm.runs ++ [r] ∧ t.plm.queue = rest ∧ r.posts = [p] ∧ r.ins = [s.rgn n (Op.regA p.desc)]
            ∧ r.tenant = tenantOf p.ctx ∧ r.members = m ∧ t.spad = s.spad ∧ t.cores = s.cores
            ∧ (Coll.kind p.desc = 0 → r.rows.map (·.1) = List.range (Coll.rows p.desc)))
          ∧ ((Coll.chk s p m).faults ≠ [] → exec (.collectiveStart n 0 none) s = .next
            (ctxFaults p.ctx (some n) [n.val] (Op.tag p.desc) (Coll.chk s p m).faults
              (countChk n (Coll.chk s p m) (collStatus { s with plm := { s.plm with queue := rest } })))))
      ∧ (∀ (p : Fin 6) (tenant : Fin 16) (tag : BitVec 12) (chunk row : Nat) (add last onward sumBad : Bool) (c : ChunkIn)
          (r : CollRun),
        (s.port p).ins.find? (fun c => c.tenant == tenant.val && c.ctag == tag.toNat && c.chunk == chunk) = some c →
        s.collFor tenant tag.toNat = some r → c.whole = true → c.differs r.desc = [] →
        1 ≤ c.h → c.h ≤ 64 → row + c.h ≤ Coll.need r.desc r.members →
        let good := digest (Coll.fmtWire r.desc) c.rows = c.words
        let tries := Tab.get r.sentTries 0 (row * 8 + p)
        let cnt : State → Nat → Prop := fun t i =>
          t.counter (cntKey Pg.plm0 i) = (s.counter (cntKey Pg.plm0 i) + 1) % 2 ^ 64
        ∃ t, exec (.chunkReceive p tenant tag chunk row add last onward sumBad) s = .next t
          ∧ (good → (add && sumBad) = false → cnt t 1 ∧ (t.port p).ins = (s.port p).ins.erase c ∧ t.ctxs = s.ctxs
            ∧ ∃ u ∈ t.plm.runs, u.posts = r.posts
              ∧ u.rows = (r.land row add last (bitOf (c.byte 3) 0) c.rows).rows)
          ∧ (good → (add && sumBad) = true → cnt t 3 ∧ (t.port p).ins = (s.port p).ins)
          ∧ (¬ good → cnt t 2 ∧ (t.port p).ins = (s.port p).ins.erase c
            ∧ bitOf (t.reg (Pg.plm0 + Hdr.errStat)).toNat E.plm0_DIGEST_RETRY = true
            ∧ (tries < 2 → t.ctxs = s.ctxs
              ∧ t.counter (cntKey (Pg.plmPort p) 0) = (s.counter (cntKey (Pg.plmPort p) 0) + 1) % 2 ^ 64)
            ∧ (2 ≤ tries → cnt t 4 ∧ ((s.ctx r.ctx).fault = none →
              (t.ctx r.ctx).fault.map (fun f => (f.code, f.sub)) = some (Flt.collective, p.val)))))
      ∧ (∀ (r : CollRun) (p : CollPost) (g : Rgn),
        s.plm.runs.find? (fun r => r.cores.contains n.val && r.complete) = some r → r.posts = [p] → r.ins = [g] →
        let o := s.rgn n (Op.regOut p.desc)
        let k := Coll.outRows p.desc r.members
        ∃ t, exec (.collectiveComplete n 0) s = .next t ∧ t.plm.runs = s.plm.runs.filter (· != r)
          ∧ t.plm.queue = s.plm.queue ∧ t.counter (cntKey Pg.plm0 0) = (s.counter (cntKey Pg.plm0 0) + 1) % 2 ^ 64
          ∧ (o.raw = false → 0 < k →
            t.reg (R.SPD_REGION_HEAD n (Op.regOut p.desc)) = ptrWord (movePtr o.size o.head o.headWrap k)))
      ∧ ∀ x : Fin 128,
        let lim := (s.reg R.PLM_COLL_WAIT).toNat
        let late : List Nat → Nat → Out := fun cs tag => .next (ctxFault x cs.head? cs Flt.watchdog 0 tag
          (errEvent Pg.plm0 E.plm0_COLL_WAIT (s.count Pg.plm0 6 lim)))
        (lim = 0 → exec (.collWaitTimeout x) s = .next s)
          ∧ (0 < lim →
            (∀ r, s.plm.runs.find? (fun r => r.ctx == x.val) = some r →
                exec (.collWaitTimeout x) s = late r.cores (Op.tag r.desc))
              ∧ (s.plm.runs.find? (fun r => r.ctx == x.val) = none →
                (∀ p, s.plm.queue.find? (fun p => p.ctx == x.val) = some p →
                    exec (.collWaitTimeout x) s = late p.gang (Op.tag p.desc))
                  ∧ (s.plm.queue.find? (fun p => p.ctx == x.val) = none → exec (.collWaitTimeout x) s = .next s)))

/-! ### The error log, power failure and spares (R405, R409 to R418, R422 to R424, R428) -/

/-- A flush writes the staged entries page by page to their slots; an erase clears the sector ahead; a program that fails is
retried once and then leaves entries and records as they were; a power failure stages its entry, refuses record and
image writes and suspends an erase until PWR_FAIL_N has been high again; a partner's window ends with its merged entry
(R416 to R418, R423 to R425). Rests on the model's choices of log entries 4 (an event whose condition fails changes
nothing) and 106. -/
def Obligations.TheLogIsStagedFlushedAndErased : Prop :=
  ∀ (s : State),
    let pending := s.rel.staging
    let pf := s.flag R.REL_LOG_STATUS F.REL_LOG_STATUS_PF
    let flushing : State → Bool := fun t => t.flag R.REL_LOG_STATUS F.REL_LOG_STATUS_FLUSHING
    (pending = [] → exec .logFlush s = .next s)
      ∧ (pending ≠ [] → s.rel.erasing = true → s.rel.suspended = false → pf = false →
        exec .logFlush s = .next { s with rel := { s.rel with flushWaits := true } })
      ∧ (pending ≠ [] → s.rel.erasing = false → s.rel.program = none → ∃ t, exec .logFlush s = .next t ∧ flushing t = true
        ∧ t.rel = { s.rel with program := some (.log (min 8 pending.length)), retried := false, flushGoal := pending.length,
                               flushWaits := false, suspended := false })
      ∧ (∀ k, s.rel.program = some (.log k) →
        (∃ t, exec (.flashProgramDone true) s = .next t ∧ t.rel.staging = pending.drop k
            ∧ t.counter (cntKey Pg.rel2 1) = (s.counter (cntKey Pg.rel2 1) + min k pending.length) % 2 ^ 64
            ∧ (((pending.take k).map (fun e => e.seq % 4096)).Nodup →
              ∀ e ∈ pending.take k, Tab.find t.rel.flash (e.seq % 4096) = some e)
            ∧ (∀ i, i ∉ (pending.take k).map (fun e => e.seq % 4096) → Tab.find t.rel.flash i = Tab.find s.rel.flash i)
            ∧ (pending.length ≤ k → t.rel.program = none ∧ flushing t = false))
          ∧ (s.rel.retried = false →
            exec (.flashProgramTimeout true) s = .next { s with rel := { s.rel with retried := true } })
          ∧ (s.rel.retried = true → ∃ t, exec (.flashProgramTimeout true) s = .next t ∧ t.rel.staging = pending
            ∧ t.rel.flash = s.rel.flash ∧ t.rel.program = none ∧ flushing t = false))
      ∧ (s.rel.erasing = false → exec .eraseDone s = .next s)
      ∧ (s.rel.erasing = true → s.rel.suspended = false → pf = false → ∃ t, exec .eraseDone s = .next t ∧ t.rel.erasing = false
        ∧ ∀ i, Tab.find t.rel.flash i
          = if i / 1024 = (s.logPoint / 1024 + 2) % 4 then none else Tab.find s.rel.flash i)
      ∧ (s.flash.next = .none → exec (.flashProgramDone false) s = .next s)
      ∧ (∃ t, exec (.flashProgramDone false) s = .next t ∧ t.flash.next = .none
        ∧ (∀ r, s.flash.next = .cfg r → t.flash.cfg = r ∧ t.reg R.SEC_REC_STATUS = 3 ∧ t.recs = s.recs)
        ∧ (∀ r, s.flash.next = .brd r → t.flash.brd = r ∧ t.reg R.SEC_REC_STATUS = 3)
        ∧ (∀ p, s.flash.next = .pointer p → t.flash.slot = p ∧ t.updState = 4
          ∧ t.fld R.CTL_STATUS F.CTL_STATUS_BOOT_SLOT = p % 2)
        ∧ ∀ i, s.flash.next = .image i → t.updState = 2 ∧ t.flash.slot = s.flash.slot
          ∧ (if s.idleSlot = 0 then t.flash.img0 = some i else t.flash.img1 = some i))
      ∧ (s.flash.next ≠ .none →
        (s.flash.retried = false →
            exec (.flashProgramTimeout false) s = .next { s with flash := { s.flash with retried := true } })
          ∧ (s.flash.retried = true → ∃ t, exec (.flashProgramTimeout false) s = .next t
            ∧ t.flash = { s.flash with next := .none, retried := false } ∧ t.recs = s.recs
            ∧ ∀ r, s.flash.next = .cfg r → t.reg R.SEC_REC_STATUS = 19))
      ∧ (s.rel.pfSince.isSome = true → exec .pwrFailNFall s = .next s)
      ∧ (s.rel.pfSince = none → s.rel.lost = 0 → pending.length < 64 →
        ∃ t e, exec .pwrFailNFall s = .next t ∧ t.flag R.REL_LOG_STATUS F.REL_LOG_STATUS_PF = true
          ∧ t.counter (cntKey Pg.rel2 3) = (s.counter (cntKey Pg.rel2 3) + 1) % 2 ^ 64
          ∧ bitOf (t.reg (Pg.rel2 + Hdr.errStat)).toNat E.rel2_PWR_FAIL = true
          ∧ t.rel.staging = pending ++ [e] ∧ e.cls = LogCls.powerFail ∧ e.arg0 = pending.length ∧ e.dtime = s.dtime
          ∧ t.rel.program.isSome = true ∧ (s.rel.program = none → t.rel.suspended = s.rel.erasing)
          ∧ (∀ i, s.flash.next = .image i → t.flash = { s.flash with next := .none, retried := false }
            ∧ t.fld R.CTL_UPD_STATUS F.CTL_UPD_STATUS_RESULT = 4)
          ∧ ∀ r, s.flash.next = .cfg r → t.flash = s.flash)
      ∧ (pf = false → exec .pwrFailNRise s = .next s)
      ∧ (pf = true → ∃ t, exec .pwrFailNRise s = .next t ∧ t.flag R.REL_LOG_STATUS F.REL_LOG_STATUS_PF = false
        ∧ t.rel = { s.rel with pfSince := none } ∧ t.flash = s.flash)
      ∧ ∀ k, (s.rel.windows[k]? = none → exec (.partnerWindowEnd k) s = .next s)
        ∧ ∀ w, s.rel.windows[k]? = some w →
          (s.dtime < w.since + 1000 * msTicks → exec (.partnerWindowEnd k) s = .next s)
            ∧ (w.since + 1000 * msTicks ≤ s.dtime → s.rel.lost = 0 → pending.length < 64 →
              ∃ t, exec (.partnerWindowEnd k) s = .next t ∧ t.rel.windows = dropNth s.rel.windows k
                ∧ (w.merged = 0 → t.rel.staging = pending)
                ∧ (0 < w.merged → ∃ e, t.rel.staging = pending ++ [e] ∧ e.cls = LogCls.partner ∧ e.code = w.bit
                  ∧ e.count = min 255 w.merged ∧ e.arg0 = w.since ∧ e.unit = w.unit))

/-- A lane test that fails makes the core due for retirement; a core at its drained boundary retires and in reserve mode a
cold spare that passes its test takes its place; rotation mode drains one core at a time for its test; a change of
policy waits until nothing runs; wear counts are logged every 24 h; REL_SVC keeps each reason and asserts SVC_REQ_N
(R405, R409 to R411, R414, R415, R422, R428, R432). Rests on the model's choices of log entries 4 (an event whose
condition fails changes nothing), 37 and 107. -/
def Obligations.CoresRetireAndPolicyChanges : Prop :=
  ∀ (s : State) (n : Fin 18) (aclk : Nat), s.PlacesNamed →
    let state : State → Nat → Nat := fun t m => t.fld (R.REL_CORE m) F.REL_CORE_STATE
    (s.domOn n = true → s.busy n = false → (s.core n).laneTest = true →
        exec (.laneTest n false) s = .next (s.setCore n { s.core n with laneTest := false })
          ∧ ∃ t, exec (.laneTest n true) s = .next t ∧ (t.core n).laneTest = false ∧ (t.core n).retireWhy = 3
            ∧ ((s.core n).vecOps ≠ [] → bitOf (t.reg (Pg.rel0 + Hdr.errStat)).toNat E.rel0_SUSPECT = true
              ∧ t.counter (cntKey Pg.rel0 3) = (s.counter (cntKey Pg.rel0 3) + (s.core n).vecOps.length) % 2 ^ 64))
      ∧ ((s.core n).laneTest = false → ∀ b, exec (.laneTest n b) s = .next s)
      ∧ ((s.core n).retireWhy = 0 → ∀ b, exec (.coreRetire n b aclk) s = .next s)
      ∧ (∀ k : Fin 18, k ≠ n → (s.core n).retireWhy ≠ 0 → state s n ≠ 3 → s.retirable n = true →
        (∀ m, m < n.val → (s.core m).retireWhy = 0) → s.recs.reserve = true → leastBelow 18 s.coldSpare = some k.val →
        s.domOn k = true →
        (∃ t, exec (.coreRetire n true aclk) s = .next t ∧ state t n = 3 ∧ state t k = 0
            ∧ t.fld (R.REL_CORE n) F.REL_CORE_REASON = (s.core n).retireWhy % 8
            ∧ t.counter (cntKey Pg.rel0 1) = (s.counter (cntKey Pg.rel0 1) + 1) % 2 ^ 64
            ∧ t.counter (cntKey Pg.rel0 0) = (s.counter (cntKey Pg.rel0 0) + 1) % 2 ^ 64
            ∧ bitOf (t.reg (Pg.rel0 + Hdr.errStat)).toNat E.rel0_RETIRE = true
            ∧ ∀ x i p, s.ctxsOn n = [x] → (s.ctx x).cores.findIdx? (· == n.val) = some i → (s.ctx x).place[i]? = some p →
              (s.samePlace k p).isSome = true → (t.ctx x).cores = modNth (s.ctx x).cores i (fun _ => k.val))
          ∧ ∃ t, exec (.coreRetire n false aclk) s = .next t ∧ state t k = 3 ∧ state t n = state s n
            ∧ t.fld (R.REL_CORE k) F.REL_CORE_REASON = 4 ∧ t.ctxs = s.ctxs)
      ∧ (s.recs.reserve = true → ∀ b, exec (.maintenanceDrain n b aclk) s = .next s)
      ∧ (s.recs.reserve = false → s.disabled n = false →
        let h := s.fld R.REL_THR F.REL_THR_ROTATE_H
        (state s n = 0 → 0 < h → Tab.get s.rel.rotated 0 n + h * (3600 * 1000 * msTicks) ≤ s.dtime →
            (∀ m, m < 18 → state s m ≠ 2) →
            ∀ b, ∃ t, exec (.maintenanceDrain n b aclk) s = .next t ∧ state t n = 2 ∧ ∀ m, m < 18 → m ≠ n.val → state t m = state s m)
          ∧ (state s n = 0 → (∃ m, m < 18 ∧ state s m = 2) → ∀ b, exec (.maintenanceDrain n b aclk) s = .next s)
          ∧ (state s n = 2 → s.ctxsOn n = [] → s.atRest n = true →
            (∃ t, exec (.maintenanceDrain n true aclk) s = .next t ∧ state t n = 0 ∧ (t.core n).spareDue = []
                ∧ Tab.get t.rel.rotated 0 n = s.dtime)
              ∧ exec (.maintenanceDrain n false aclk) s = .next
                (({ s with rel := { s.rel with rotated := Tab.set s.rel.rotated n s.dtime } }).modCore n
                  (fun c => { c with retireWhy := 5 }))))
      ∧ ((s.flash.cfg.policy == 0) = s.recs.reserve → exec (.policyChange aclk) s = .next s)
      ∧ ((s.flash.cfg.policy == 0) ≠ s.recs.reserve → (∀ j ∈ s.ctl.jobs, j.held = []) →
        (∀ m, m < 18 → (s.core m).retireWhy = 0 ∧ (s.core m).bankSwap = none ∧ ∀ o ∈ (s.core m).ops, o.swapping = false) →
        ∃ t, exec (.policyChange aclk) s = .next t ∧ t.recs.reserve = (s.flash.cfg.policy == 0) ∧ t.rel.holdStarts = false
          ∧ t.counter (cntKey Pg.rel0 4) = (s.counter (cntKey Pg.rel0 4) + 1) % 2 ^ 64
          ∧ bitOf (t.reg (Pg.rel0 + Hdr.errStat)).toNat E.rel0_POLICY = true
          ∧ ∀ m, m < 18 → state t m = if s.recs.reserve then (if s.coldSpare m then 0 else state s m)
            else if m ∈ ((List.range 18).filter s.inService).reverse.take 2 then 1 else state s m)
      ∧ ((∃ j ∈ s.ctl.jobs, j.held ≠ []) → exec (.policyChange aclk) s = .next s)
      ∧ (s.dtime < Tab.get s.rel.wearAt 0 n + 24 * (3600 * 1000 * msTicks) → exec (.wearSnapshot n) s = .next s)
      ∧ (Tab.get s.rel.wearAt 0 n + 24 * (3600 * 1000 * msTicks) ≤ s.dtime → s.rel.lost = 0 → s.rel.staging.length < 64 →
        ∃ t e, exec (.wearSnapshot n) s = .next t ∧ Tab.get t.rel.wearAt 0 n = s.dtime
          ∧ t.rel.staging = s.rel.staging ++ [e] ∧ e.cls = LogCls.wear ∧ e.unit = n.val ∧ e.arg = s.wearWords n)
      ∧ ∀ (iid : Fin 24) (val : Word), s.Admits iid R.REL_SVC .rel0 0 →
        ∃ t, exec (.relSvcWrite iid val) s = .next t
          ∧ t.reg R.REL_SVC = (s.reg R.REL_SVC ||| (val &&& 0x7F#32) ||| if val &&& 0x7F#32 = 0 then 0 else 0x80000000#32)
          ∧ (val &&& 0x7F#32 ≠ 0 → bitOf (t.reg (Pg.rel0 + Hdr.errStat)).toNat E.rel0_SVC = true)
          ∧ (val &&& 0x7F#32 = 0 → OnlyRegs [] s t)

/-! ### Power domains, clocks, device time and resets (R440, R441, R465 to R490, R517) -/

/-- A MODE write selects the low-power state of a domain's wait or is refused; MODE 0b10 starts the exit of a domain in
retention or off, or is held while it enters. A domain enters at its wait, keeping a tier that holds owned pages; an
entry ends in its state, or in the exit that a wake asked for; an exit ends on, a core from off with a zeroed scratchpad
(R24, R466, R472 to R476, R478, R484, R488, R490). Rests on the model's choices of log entries 4 (an event whose
condition fails changes nothing), 103 (retention goes on to off) and 110. -/
def Obligations.DomainsEnterAndLeaveLowPower : Prop :=
  ∀ (s : State) (d : Fin 31),
    let st : State → Nat × Nat := fun t => (t.domState d, t.fld (R.PWR_DOM_STATUS d) F.PWR_DOM_STATUS_PHASE)
    let refused : State → Nat → Prop := fun t why => t.domMode d = s.domMode d ∧ st t = st s
      ∧ t.fld (R.PWR_DOM_STATUS d) F.PWR_DOM_STATUS_REFUSE = why
      ∧ t.counter (cntKey Pg.pwr 5) = (s.counter (cntKey Pg.pwr 5) + 1) % 2 ^ 64
      ∧ bitOf (t.reg (Pg.pwr + Hdr.errStat)).toNat E.pwr_MODE_REFUSED = true
    let tier := 18 ≤ d.val ∧ d.val ≤ 20
    (∀ iid : Fin 24, s.Admits iid (R.PWR_DOM_CTRL d) .pwr 0 →
        let sets : Instr → Nat → Prop := fun c m => ∃ t, exec c s = .next t ∧ t.domMode d = m ∧ OnlyRegs [R.PWR_DOM_CTRL d] s t
        (s.disabled d = true → sets (.domModeOff iid d) 0
            ∧ (∃ t, exec (.domModeRetention iid d) s = .next t ∧ refused t 4)
            ∧ ∃ t, exec (.domModeOn iid d) s = .next t ∧ refused t 4)
          ∧ (s.disabled d = false →
            (d.val = 30 → (∃ t, exec (.domModeOff iid d) s = .next t ∧ refused t 3)
                ∧ ∃ t, exec (.domModeRetention iid d) s = .next t ∧ refused t 3)
              ∧ (d.val = 29 → ∃ t, exec (.domModeOff iid d) s = .next t ∧ refused t 2)
              ∧ (tier → s.ownedIn d = true → ∃ t, exec (.domModeOff iid d) s = .next t ∧ refused t 1)
              ∧ (d.val ≠ 30 → sets (.domModeRetention iid d) 1)
              ∧ (d.val < 29 → (tier → s.ownedIn d = false) → sets (.domModeOff iid d) 0)
              ∧ (s.domState d = 2 → sets (.domModeOn iid d) 2)
              ∧ ((st s = (0, 0) ∨ st s = (1, 0)) → s.tripped = false → ∃ t, exec (.domModeOn iid d) s = .next t
                ∧ t.domMode d = 2 ∧ st t = (3, 2) ∧ (t.dom d).exitFrom = s.domState d
                ∧ t.flag R.CLK_STATUS F.CLK_STATUS_PLL_ON = true)
              ∧ (st s = (3, 1) → ∃ t, exec (.domModeOn iid d) s = .next t ∧ t.domMode d = 2 ∧ st t = (3, 1)
                ∧ (t.dom d).wakeHeld = true ∧ t.fld (R.PWR_DOM_STATUS d) F.PWR_DOM_STATUS_WAKE_HELD = 1)))
      ∧ (s.tripped = false →
        (s.atWait d = true →
            (s.domState d = 2 → s.domMode d < 2 →
              (s.modeRefuse d 0 ≠ 1 → exec (.domainEntry d) s
                  = .next (setDomState d 3 1 (s.setDom d { s.dom d with target := s.domMode d })))
                ∧ (s.disabled d = false → tier → s.ownedIn d = true → s.domMode d = 0 →
                  ∃ t, exec (.domainEntry d) s = .next t ∧ st t = (3, 1) ∧ (t.dom d).target = 1 ∧ t.domMode d = 0
                    ∧ t.fld (R.PWR_DOM_STATUS d) F.PWR_DOM_STATUS_REFUSE = 1))
              ∧ (s.domState d = 1 → s.domMode d = 0 → s.modeRefuse d 0 ≠ 1 → exec (.domainEntry d) s
                = .next (setDomState d 3 1 (s.setDom d { s.dom d with target := 0 }))))
          ∧ ((s.atWait d = false ∨ 2 ≤ s.domMode d ∨ s.domState d = 0 ∨ s.domState d = 3) →
            exec (.domainEntry d) s = .next s)
          ∧ (st s = (3, 1) → (s.dom d).target ≤ 1 →
            let i := if (s.dom d).target = 1 then 0 else 1
            ∃ t, exec (.domainEntryDone d) s = .next t
              ∧ t.counter (cntKey Pg.pwr i) = (s.counter (cntKey Pg.pwr i) + 1) % 2 ^ 64
              ∧ ((s.dom d).wakeHeld = false → st t = ((s.dom d).target, 0)
                ∧ ((∀ e, e < 30 → e ≠ d.val → s.domState e < 2) → d.val < 30 → t.flag R.CLK_STATUS F.CLK_STATUS_PLL_ON = false))
              ∧ ((s.dom d).wakeHeld = true → s.booted = true → s.disabled d = false → st t = (3, 2)
                ∧ (t.dom d).exitFrom = (s.dom d).target
                ∧ t.counter (cntKey Pg.pwr 3) = (s.counter (cntKey Pg.pwr 3) + 1) % 2 ^ 64))
          ∧ (st s = (3, 2) → d.val < 30 → (∀ q ∈ s.txns, q.2.pend = []) → s.ctl.jobs = [] → s.brz.gust = none →
            ∀ ok, ∃ t, exec (.domainExitDone d ok) s = .next t ∧ st t = (2, 0)
              ∧ t.counter (cntKey Pg.pwr 2) = (s.counter (cntKey Pg.pwr 2) + 1) % 2 ^ 64
              ∧ (d.val < 18 → t.seqState d = Seq.halted
                ∧ ((s.dom d).exitFrom = 0 →
                  (∀ r b, r < 49152 → b < 512 → t.rowByte d r b = 0 ∧ t.rowTag d r = 0) ∧ (∀ i, i < 16384 → t.slot d i = 0)
                    ∧ (∀ k, k < 64 → t.reg (R.SEQ_SEM d k) = 0)
                    ∧ (t.core d).retireWhy = if ok then (s.core d).retireWhy else 4)
                ∧ ((s.dom d).exitFrom ≠ 0 → (∀ i, i < 16384 → t.slot d i = s.slot d i)
                  ∧ ∀ r b, r < 49152 → b < 512 →
                    t.rowByte d r b = if (s.keptGroups d).contains (r / 2048) then s.rowByte d r b else 0)))
          ∧ (st s ≠ (3, 1) → exec (.domainEntryDone d) s = .next s)
          ∧ (st s ≠ (3, 2) → ∀ ok, exec (.domainExitDone d ok) s = .next s))

/-- A lock loss stops the clocks and forces every operation in flight to run again, a third one in a second asks for
service; eight sensors throttle at 100 °C, end throttling after 1 ms at 95 °C, and trip at 110 °C; the wake timer wakes
the control complex; CLK_DTIME_LO latches the high word; the power estimate keeps its peak until it is read (R467 to
R471, R488, R504). Rests on the model's choices of log entries 4 (an event whose condition fails changes nothing), 5,
104 and 105. -/
def Obligations.ClocksThermalLimitsAndDeviceTime : Prop :=
  ∀ (s : State),
    let lock : State → Bool := fun t => t.flag R.CLK_STATUS F.CLK_STATUS_PLL_LOCK
    (s.clocks = false → exec .pllUnlock s = .next s)
      ∧ (s.clocks = true → ∃ t, exec .pllUnlock s = .next t ∧ lock t = false
        ∧ t.counter (cntKey Pg.clk 0) = (s.counter (cntKey Pg.clk 0) + 1) % 2 ^ 64
        ∧ bitOf (t.reg (Pg.clk + Hdr.errStat)).toNat E.clk_PLL_UNLOCK = true
        ∧ (∀ n, (t.core n).ops = (s.core n).ops.map (fun o => { o with forced := true })) ∧ t.spad = s.spad
        ∧ (2 ≤ (s.clk.losses.filter (fun l => decide (s.dtime < l + 1000 * msTicks))).length →
          bitOf (t.reg R.REL_SVC).toNat 6 = true))
      ∧ (s.flag R.CLK_STATUS F.CLK_STATUS_PLL_ON = true →
        exec .pllRelock s = .next (s.setFld R.CLK_STATUS F.CLK_STATUS_PLL_LOCK 1))
      ∧ (s.flag R.CLK_STATUS F.CLK_STATUS_PLL_ON = false → exec .pllRelock s = .next s)
      ∧ (∀ v : Fin 8 → BitVec 8,
        let hot : Int → Prop := fun x => ∃ k, x ≤ (v k).toInt
        let thr : State → Bool := fun t => t.flag R.CLK_STATUS F.CLK_STATUS_THROTTLE
        ∃ t, exec (.thermalSample ((List.finRange 8).map (fun k => some (v k)))) s = .next t
          ∧ (∀ k : Fin 8, t.reg (R.CLK_TSENSE k) = BitVec.ofNat 32 ((v k).toNat + 256))
          ∧ t.dtime = max s.dtime ((s.dtime + 1023) / 1024 * 1024)
          ∧ (hot 100 → thr t = true)
          ∧ (hot 100 → thr s = false → t.counter (cntKey Pg.clk 2) = (s.counter (cntKey Pg.clk 2) + 1) % 2 ^ 64)
          ∧ (¬ hot 100 → thr s = false → thr t = false)
          ∧ (¬ hot 100 → thr s = true →
            (hot 96 → thr t = true ∧ t.clk.coolSince = none)
              ∧ (¬ hot 96 → s.clk.coolSince = none → thr t = true ∧ t.clk.coolSince = some t.dtime)
              ∧ (¬ hot 96 → ∀ c, s.clk.coolSince = some c → (thr t = false ↔ c + 24576 ≤ t.dtime)))
          ∧ (hot 110 → t.tripped = true) ∧ (¬ hot 110 → t.tripped = s.tripped))
      ∧ (∀ (l : List (Option (BitVec 8))) (k : Fin 8), l.getD k none = none →
        ∃ t, exec (.thermalSample l) s = .next t ∧ t.flag (R.CLK_TSENSE k) F.CLK_TSENSE_VALID = false
          ∧ t.fld (R.CLK_TSENSE k) F.CLK_TSENSE_TEMP = s.fld (R.CLK_TSENSE k) F.CLK_TSENSE_TEMP
          ∧ bitOf (t.reg (Pg.clk + Hdr.errStat)).toNat E.clk_SENSOR_FAULT = true)
      ∧ (s.flag R.PWR_WAKE_CTRL F.PWR_WAKE_CTRL_EN = false → exec .timerWake s = .next s)
      ∧ (s.flag R.PWR_WAKE_CTRL F.PWR_WAKE_CTRL_EN = true → ∃ t, exec .timerWake s = .next t
        ∧ t.flag R.PWR_WAKE_CTRL F.PWR_WAKE_CTRL_EN = false ∧ t.clk.timerIrqs = s.clk.timerIrqs + 1
        ∧ t.dtime = max s.dtime (s.pair R.PWR_WAKE_LO R.PWR_WAKE_HI)
        ∧ (s.domState 29 = 1 → s.booted = true → s.disabled 29 = false → s.tripped = false → t.domState 29 = 3
          ∧ t.fld (R.PWR_DOM_STATUS 29) F.PWR_DOM_STATUS_PHASE = 2))
      ∧ (∀ iid : Fin 24, s.domOn 30 = true →
        (s.Permits iid R.CLK_DTIME_LO false .clk 0 → exec (.clkDtimeLoRead iid) s = .next
            ((s.setReg R.CLK_DTIME_HI (BitVec.ofNat 32 (s.dtime / 2 ^ 32))).answers (BitVec.ofNat 32 s.dtime)))
          ∧ (s.Permits iid R.MGT_TEL_POWER false .mgtTel 0 → exec (.telPowerRead iid) s = .next
            ((s.setFld R.MGT_TEL_POWER F.MGT_TEL_POWER_PEAK 0).answers (s.reg R.MGT_TEL_POWER))))
      ∧ ∃ t, exec .powerEstimate s = .next t ∧ s.dtime ≤ t.dtime ∧ t.dtime < s.dtime + msTicks
        ∧ OnlyRegs [R.MGT_TEL_POWER] { s with dtime := t.dtime, free := t.free } t
        ∧ t.fld R.MGT_TEL_POWER F.MGT_TEL_POWER_PEAK
          = max (t.fld R.MGT_TEL_POWER F.MGT_TEL_POWER_EST) (s.fld R.MGT_TEL_POWER F.MGT_TEL_POWER_PEAK)

/-- A cold reset starts DTIME from zero with every memory but the boot flash lost, and boots the pointer's image, or the
other slot's, or halts with the RESULT of the step that failed and asks for service; a warm reset takes every domain but
the control complex and Breeze to off and keeps Breeze; PERST_N high boots again or trains the links; a rail below its
minimum resets the part or acts as PWR_FAIL_N (R62, R426, R440, R441, R485 to R487, R517). Rests on the model's choices
of log entries 4 (an event whose condition fails changes nothing), 108 and 109. -/
def Obligations.ResetsBootThePart : Prop :=
  ∀ (s : State) (o : BootOutcome),
    let f := s.flash
    let boot : State → Fld → Nat := fun t g => t.fld R.SEC_BOOT g
    let fits : Option FwImg → Bool → Prop := fun i ok => ok = true ∧ ∃ x, i = some x ∧ f.arFw ≤ x.svn
    let ok0 := fits f.img0 o.img0Ok
    let ok1 := fits f.img1 o.img1Ok
    let records := o.rollbackOk = true ∧ o.pointerOk = true ∧ o.cfgOk = true ∧ f.arCfg ≤ f.cfg.svn ∧ f.cfg.valid = true
      ∧ o.brdOk = true ∧ f.arBrd ≤ f.brd.svn
    let up : State → Prop := fun t => t.booted = true ∧ boot t F.SEC_BOOT_RESULT = 0 ∧ boot t F.SEC_BOOT_ID_VALID = 1
      ∧ boot t F.SEC_BOOT_BOOTS = (f.boots + 1) % 65536 ∧ t.recs.variant = f.cfg.variant
    let fresh : State → Prop := fun t => t.dtime = 0 ∧ t.spad = [] ∧ t.da = [] ∧ t.ctxs = [] ∧ t.hif.entries = []
      ∧ t.pending = s.pending ∧ (∀ d, d < 29 → t.domState d = 0) ∧ t.domState 30 = 2
    let halted : State → Nat → Prop := fun t r => t.booted = false ∧ boot t F.SEC_BOOT_RESULT = r
      ∧ bitOf (t.reg R.REL_SVC).toNat 6 = true ∧ t.flag (R.HIF_LINK_STATUS 0) F.HIF_LINK_STATUS_UP = false
    (∃ t, exec (.coldReset o) s = .next t ∧ fresh t
        ∧ (o.idOk = true → f.ident.isSome = true →
          (records → f.slot = 0 ∨ f.slot = 1 →
            ((if f.slot = 0 then ok0 else ok1) → up t ∧ boot t F.SEC_BOOT_SLOT = f.slot ∧ boot t F.SEC_BOOT_FALLBACK = 0
                ∧ t.flash = { f with next := .none, retried := false, boots := f.boots + 1 })
              ∧ (¬ (if f.slot = 0 then ok0 else ok1) → (if f.slot = 0 then ok1 else ok0) →
                up t ∧ boot t F.SEC_BOOT_SLOT = 1 - f.slot ∧ boot t F.SEC_BOOT_FALLBACK = 1 ∧ t.flash.slot = f.slot
                  ∧ bitOf (t.reg (Pg.secBoot + Hdr.errStat)).toNat E.secBoot_FALLBACK = true)
              ∧ (¬ ok0 → ¬ ok1 → halted t 6))
            ∧ (o.rollbackOk = false → halted t 1)
            ∧ (o.rollbackOk = true → o.pointerOk = false → halted t 2)
            ∧ (o.rollbackOk = true → o.pointerOk = true → o.cfgOk = false → halted t 3 ∨ halted t 4)
            ∧ (o.rollbackOk = true → o.pointerOk = true → o.cfgOk = true → f.arCfg ≤ f.cfg.svn → f.cfg.valid = true →
              (o.brdOk = false ∨ f.brd.svn < f.arBrd) → halted t 5))
        ∧ (o.idOk = false ∨ f.ident = none → halted t 1))
      ∧ (s.pins.perstLow = true → exec .warmReset s = .next s)
      ∧ (s.pins.perstLow = false → ∃ t, exec .warmReset s = .next t ∧ t.booted = false ∧ t.pins.perstLow = true
        ∧ (∀ d, d < 29 → t.domState d = 0) ∧ t.domState 29 = 2 ∧ t.ctxs = [] ∧ t.spad = [] ∧ t.hif.entries = []
        ∧ t.flash = f ∧ t.da = s.da ∧ t.dtime = s.dtime ∧ t.brz.ring = s.brz.ring ∧ t.reg R.REL_SVC = s.reg R.REL_SVC
        ∧ t.rel.staging = s.rel.staging ∧ t.ctl.aon = s.ctl.aon)
      ∧ (s.pins.perstLow = false → exec (.perstNRise o) s = .next s)
      ∧ (s.pins.perstLow = true →
        (s.booted = true → ∀ q rest, o.links = q :: rest → q.2 ≠ 0 → ∃ t, exec (.perstNRise o) s = .next t
            ∧ t.pins.perstLow = false ∧ t.reg (R.HIF_LINK_STATUS 0) = BitVec.ofNat 32 (1 + 2 * (q.1 % 8) + 16 * (q.2 % 16))
            ∧ t.spad = s.spad ∧ t.da = s.da)
          ∧ (boot s F.SEC_BOOT_STAGE = 1 → boot s F.SEC_BOOT_RESULT = 0 → boot s F.SEC_BOOT_ID_VALID = 1 →
            s.fld R.TST_MODE F.TST_MODE_PROD = 0 → records → f.slot = 0 → ok0 →
            ∃ t, exec (.perstNRise o) s = .next t ∧ up t ∧ boot t F.SEC_BOOT_SLOT = 0 ∧ t.dtime = s.dtime ∧ t.da = s.da))
      ∧ ∀ k : Fin 11,
        ((k.val = 3 ∨ k.val = 4) → ∃ t, exec (.railUndervoltage k) s = .next t ∧ fresh t ∧ t.booted = false
            ∧ t.flash = { f with next := .none, retried := false })
          ∧ (k.val ≠ 3 → k.val ≠ 4 →
            (s.rel.pfSince.isSome = true → exec (.railUndervoltage k) s = .next s)
              ∧ (s.rel.pfSince = none → s.rel.lost = 0 → s.rel.staging.length < 64 →
                ∃ t e, exec (.railUndervoltage k) s = .next t ∧ t.flag R.REL_LOG_STATUS F.REL_LOG_STATUS_PF = true
                  ∧ t.rel.staging = s.rel.staging ++ [e] ∧ e.cls = LogCls.powerFail
                  ∧ e.arg = [BitVec.ofNat 32 (k.val + 1)] ∧ t.spad = s.spad))

/-! ### Security (R436, R442 to R456, R460 to R464) -/

/-- A record command verifies the record that T0's pages hold and writes it, or names why not; the anti-rollback counters
only rise; an identity is made once; an attestation report carries its nonce and is signed once; reads of the report and
of the identity advance their address (R423, R436, R443 to R447, R460, R462 to R464). Rests on the model's choices of
log entries 4 (an event whose condition fails changes nothing), 94 and 114. -/
def Obligations.RecordsRollbackAndAttestation : Prop :=
  ∀ (s : State) (iid : Fin 24),
    let da := s.fld R.SEC_REC_DA_LO F.SEC_REC_DA_LO_DA * 512 + s.fld R.SEC_REC_DA_HI F.SEC_REC_DA_HI_DA * 2 ^ 32
    let n := s.fld R.SEC_REC_LEN F.SEC_REC_LEN_BYTES
    let r := fwRead da n s
    let owned := ∀ p, da / 2 ^ 21 ≤ p → p ≤ (da + n - 1) / 2 ^ 21 → (s.page p).owner = some 0
    let refused : State → Nat → Prop := fun t k => t.flash = s.flash ∧ t.reg R.SEC_REC_STATUS = BitVec.ofNat 32 (3 + 4 * k)
      ∧ t.counter (cntKey Pg.secBoot 2) = (s.counter (cntKey Pg.secBoot 2) + 1) % 2 ^ 64
      ∧ bitOf (t.reg (Pg.secBoot + Hdr.errStat)).toNat E.secBoot_REC_REFUSED = true
      ∧ bitOf (t.reg (Pg.secRec + Hdr.errStat)).toNat E.secRec_REC_FAIL = true
    let pf := s.flag R.REL_LOG_STATUS F.REL_LOG_STATUS_PF
    (s.Admits iid R.SEC_REC_CMD .secRec 0 → s.flash.next = .none → 0 < n →
        (∀ keyOk sigOk, ∃ t, exec (.writeConfig iid keyOk sigOk) s = .next t
            ∧ (¬ owned → refused t 1)
            ∧ (owned → r.2.1 = 0 → r.2.2.1 = true → headerOk r.1 2 n = true → (parseCfg r.1).valid = true →
              recNum r.1 56 1 ≤ 3 →
              ((keyOk = false ∨ sigOk = false ∨ bitOf (s.fld R.SEC_AR F.SEC_AR_REVOKED) (recNum r.1 56 1) = true) → refused t 1)
                ∧ (keyOk = true → sigOk = true → bitOf (s.fld R.SEC_AR F.SEC_AR_REVOKED) (recNum r.1 56 1) = false →
                  ((recNum r.1 16 32 = 0 ∨ s.deviceOk r.1 = false) → refused t 3)
                    ∧ (recNum r.1 16 32 ≠ 0 → s.deviceOk r.1 = true →
                      (recNum r.1 6 1 < s.fld R.SEC_AR F.SEC_AR_AR_CFG → refused t 2)
                        ∧ (s.fld R.SEC_AR F.SEC_AR_AR_CFG ≤ recNum r.1 6 1 →
                          (pf = true → t.flash = s.flash ∧ t.reg R.SEC_REC_STATUS = 19)
                            ∧ (pf = false → t.flash = { s.flash with next := .cfg (parseCfg r.1), retried := false }
                              ∧ t.reg R.SEC_REC_STATUS = 2))))))
          ∧ ∀ keyOk sigOk, ∃ t, exec (.writeBoard iid keyOk sigOk) s = .next t
            ∧ (¬ owned → refused t 1)
            ∧ (owned → r.2.1 = 0 → r.2.2.1 = true → headerOk r.1 3 n = true →
              (keyOk = false → refused t 5) ∧ (keyOk = true → sigOk = false → refused t 1)
                ∧ (keyOk = true → sigOk = true → s.deviceOk r.1 = true → s.fld R.SEC_AR F.SEC_AR_AR_BRD ≤ recNum r.1 6 1 →
                  pf = false → t.flash = { s.flash with next := .brd (parseBrd r.1), retried := false }
                    ∧ t.reg R.SEC_REC_STATUS = 2)))
      ∧ (∀ revoke : Fin 16,
        ((s.booted = false ∨ pf = true) → exec (.arRaise revoke) s = .next s)
          ∧ (s.booted = true → pf = false → ∃ t, exec (.arRaise revoke) s = .next t
            ∧ t.flash = { s.flash with
                arFw := max s.flash.arFw (s.recs.floors.getD 0 0), arCfg := max s.flash.arCfg (s.recs.floors.getD 1 0)
                arBrd := max s.flash.arBrd (s.recs.floors.getD 2 0), revoked := s.flash.revoked ||| revoke.val }
            ∧ t.fld R.SEC_AR F.SEC_AR_AR_FW = t.flash.arFw % 256 ∧ t.fld R.SEC_AR F.SEC_AR_REVOKED = t.flash.revoked % 16
            ∧ t.recs = s.recs))
      ∧ (s.flash.ident.isSome = true → exec .provision s = .next s)
      ∧ (s.flash.ident = none → ∃ t, exec .provision s = .next t ∧ t.flash = { s.flash with ident := some s.free }
        ∧ t.flag R.SEC_BOOT F.SEC_BOOT_ID_VALID = true ∧ s.free < t.free)
      ∧ (s.Admits iid R.SEC_ATT_CMD .secAtt 0 →
        let st : State → Nat := fun t => t.fld R.SEC_ATT_STATUS F.SEC_ATT_STATUS_STATE
        ∃ t, exec (.attGo iid) s = .next t ∧ t.fld R.SEC_ATT_STATUS F.SEC_ATT_STATUS_REQ_IID = iid.val
          ∧ (((s.sec.reportSig = 0 ∧ s.sec.report ≠ []) ∨ s.flag R.SEC_BOOT F.SEC_BOOT_ID_VALID = false) → st t = 3
            ∧ t.sec = s.sec ∧ t.counter (cntKey Pg.secAtt 1) = (s.counter (cntKey Pg.secAtt 1) + 1) % 2 ^ 64)
          ∧ ((s.sec.reportSig ≠ 0 ∨ s.sec.report = []) → s.flag R.SEC_BOOT F.SEC_BOOT_ID_VALID = true → st t = 1
            ∧ t.sec.reportSig = 0 ∧ t.sec.report.length = 128 ∧ t.sec.report.head? = some 0x1A7E5#32
            ∧ (∀ k, k < 8 → t.sec.report[1 + k]? = some (s.reg (R.SEC_ATT_NONCE k)))
            ∧ ∀ k, k < 8 → t.sec.report[16 + k]? = some (s.reg (R.SEC_DEVID k))))
      ∧ ((s.sec.report = [] ∨ s.sec.reportSig ≠ 0) → exec .attSignDone s = .next s)
      ∧ (s.sec.report ≠ [] → s.sec.reportSig = 0 → ∃ t, exec .attSignDone s = .next t
        ∧ t.fld R.SEC_ATT_STATUS F.SEC_ATT_STATUS_STATE = 2 ∧ t.sec.report = s.sec.report ∧ t.sec.reportSig ≠ 0
        ∧ t.counter (cntKey Pg.secAtt 0) = (s.counter (cntKey Pg.secAtt 0) + 1) % 2 ^ 64)
      ∧ (s.Permits iid R.SEC_ATT_DATA false .secAtt 0 → s.sec.reportSig ≠ 0 →
        let k := s.fld R.SEC_ATT_ADDR F.SEC_ATT_ADDR_WORD
        k < 128 → exec (.secAttDataRead iid) s = .next
          ((s.setFld R.SEC_ATT_ADDR F.SEC_ATT_ADDR_WORD ((k + 1) % 1024)).answers (s.sec.report.getD k 0)))
      ∧ (s.Permits iid R.SEC_ID_DATA false .secBoot 0 → ∀ b, s.flash.ident = some b →
        let k := s.fld R.SEC_ID_ADDR F.SEC_ID_ADDR_WORD
        k < 1316 → ∃ t, exec (.secIdDataRead iid) s = .next t ∧ t.rdata = BitVec.ofNat 32 (Config.freeNat (b + 8 + k))
          ∧ t.fld R.SEC_ID_ADDR F.SEC_ID_ADDR_WORD = (k + 1) % 2048 ∧ t.flash = s.flash)

/-- A rotation request fills the other slot, inverts CUR and queues the walk, or is refused; the walk re-encrypts a granule
at a time, waits for a page that moves, and tries again where it would hold a lock too long; a RETIRING tenant becomes
ACTIVE once its accesses are delivered; SET acts at once, CLEAR through a scrub (R450 to R456, R461, R463, R464). Rests
on the model's choices of log entries 4 (an event whose condition fails changes nothing), 71 and 114. -/
def Obligations.KeysRotateAndModesClear : Prop :=
  ∀ (s : State) (t0 : Fin 16) (iid : Fin 24),
    let cnt : State → Nat → Prop := fun t i =>
      t.counter (cntKey Pg.secKey i) = (s.counter (cntKey Pg.secKey i) + 1) % 2 ^ 64
    let result : State → Nat := fun t => t.fld R.SEC_ROT_STATUS F.SEC_ROT_STATUS_RESULT
    let e := 1 - s.curEpoch t0
    (s.Admits iid R.SEC_ROT_CMD .secKey 0 → ∃ t, exec (.rotateGo iid t0) s = .next t
        ∧ ((s.keyState t0 = keyRotating ∨ s.keyState t0 = keyRetiring) → result t = 1 ∧ cnt t 3 ∧ t.sec = s.sec
          ∧ bitOf (t.reg (Pg.secKey + Hdr.errStat)).toNat E.secKey_ROT_BUSY = true ∧ t.keyState t0 = s.keyState t0)
        ∧ (s.keyState t0 = keyDestroying → result t = 2 ∧ cnt t 3 ∧ t.sec = s.sec ∧ t.keyState t0 = keyDestroying)
        ∧ (s.keyState t0 = keyActive → result t = 0 ∧ t.curEpoch t0 = e
          ∧ Tab.get t.sec.gens 0 (2 * t0 + e) = s.sec.lastGen + 1
          ∧ Tab.get t.sec.gens 0 (2 * t0 + s.curEpoch t0) = Tab.get s.sec.gens 0 (2 * t0 + s.curEpoch t0) ∧ t.da = s.da
          ∧ (s.flag R.SEC_ROT_STATUS F.SEC_ROT_STATUS_WALKING = true → t.keyState t0 = keyRotating
            ∧ t.sec.walkQ = s.sec.walkQ ++ [t0.val] ∧ t.flag (R.SEC_KEY t0) F.SEC_KEY_QUEUED = true)
          ∧ (s.flag R.SEC_ROT_STATUS F.SEC_ROT_STATUS_WALKING = false → s.sec.walkQ = [] →
            ((∃ q ∈ s.mt.pages, q.2.owner = some t0.val ∧ q.2.epoch ≠ e) → t.keyState t0 = keyRotating
                ∧ t.fld R.SEC_ROT_STATUS F.SEC_ROT_STATUS_TENANT = t0.val ∧ t.sec.walkGran = 0
                ∧ ∃ q ∈ s.mt.pages, t.sec.walkPage = some q.1 ∧ q.2.owner = some t0.val ∧ q.2.epoch ≠ e
                  ∧ ∀ o ∈ s.mt.pages, o.2.owner = some t0.val → o.2.epoch ≠ e → q.1 ≤ o.1)
              ∧ ((∀ q ∈ s.mt.pages, q.2.owner = some t0.val → q.2.epoch = e) → t.keyState t0 = keyRetiring
                ∧ t.sec.walkPage = none ∧ t.flag R.SEC_ROT_STATUS F.SEC_ROT_STATUS_WALKING = false))))
      ∧ (s.sec.walkPage = none → ∀ late outs, exec (.walkGranule late outs) s = .next s)
      ∧ (∀ p, s.sec.walkPage = some p → s.fld R.SEC_ROT_STATUS F.SEC_ROT_STATUS_TENANT = t0.val →
        (s.page p).owner = some t0.val → (s.page p).epoch ≠ s.curEpoch t0 →
        let da := p * 2 ^ 21 + s.sec.walkGran * 4096
        let waits := (s.page p).moving = true ∨ (∃ k, k < 8 ∧ s.domOn (s.sectorDomain (da + 512 * k)) = false)
          ∨ ∃ a ∈ s.mt.accs, granuleOf a.da = granuleOf da
        ∀ outs,
          (waits → ∀ late, exec (.walkGranule late outs) s = .next s)
            ∧ (¬ waits → exec (.walkGranule true outs) s = .next (s.count Pg.secKey 2 1)
              ∧ ∃ t, exec (.walkGranule false outs) s = .next t ∧ cnt t 1 ∧ t.spad = s.spad
                ∧ (Memory.wf s.da = true → ∀ a, (a < da ∨ da + 4096 ≤ a) → Memory.read t.da a = Memory.read s.da a)
                ∧ (s.sec.walkGran < 511 → t.sec.walkPage = some p ∧ t.sec.walkGran = s.sec.walkGran + 1
                  ∧ t.page p = s.page p)
                ∧ (s.sec.walkGran = 511 → (t.page p).epoch = s.curEpoch t0)))
      ∧ ((s.keyState t0 ≠ keyRetiring ∨ ∃ a ∈ s.mt.accs, a.owner = t0.val) → exec (.rotationRetire t0) s = .next s)
      ∧ (s.keyState t0 = keyRetiring → (∀ a ∈ s.mt.accs, a.owner ≠ t0.val) → ∃ t, exec (.rotationRetire t0) s = .next t
        ∧ t.keyState t0 = keyActive ∧ t.curEpoch t0 = s.curEpoch t0 ∧ cnt t 0
        ∧ t.fld (R.SEC_KEY t0) F.SEC_KEY_ROTS = (s.fld (R.SEC_KEY t0) F.SEC_KEY_ROTS + 1) % 65536
        ∧ Tab.get t.sec.gens 0 (2 * t0 + s.curEpoch t0) = Tab.get s.sec.gens 0 (2 * t0 + s.curEpoch t0)
        ∧ bitOf (t.reg (Pg.secKey + Hdr.errStat)).toNat E.secKey_ROT_DONE = true)
      ∧ (s.Admits iid R.SEC_CONF_CMD .secConf 0 →
        (∃ t, exec (.confSet iid t0) s = .next t ∧ t.confidential t0 = true
            ∧ (∀ u : Fin 16, u ≠ t0 → t.confidential u = s.confidential u)
            ∧ t.counter (cntKey Pg.secConf 1) = (s.counter (cntKey Pg.secConf 1) + 1) % 2 ^ 64
            ∧ OnlyRegsCnt [R.SEC_CONF] [cntKey Pg.secConf 1] s t)
          ∧ (s.PlacesNamed → ∃ t, exec (.confClear iid t0) s = .next t
            ∧ (∀ u : Fin 16, t.confidential u = s.confidential u)
            ∧ bitOf (t.fld R.SEC_CONF F.SEC_CONF_CLEAR_PEND) t0 = true
            ∧ t.counter (cntKey Pg.secConf 2) = (s.counter (cntKey Pg.secConf 2) + 1) % 2 ^ 64 ∧ t.fnState t0 = fnScrub))

/-! ### Tests, boundary scan, debug port and sideband (R493 to R504, R506) -/

/-- A lane checker locks, counts and loses lock; an inverted bit is counted where it comes back; the generator numbers its
test flits; the pattern engine runs on frames that nobody owns and reports where it failed (R493, R494, R496, R506).
Rests on the model's choices of log entries 4 (an event whose condition fails changes nothing), 44, 97 and 99. -/
def Obligations.LaneFlitAndMemoryTestsRun : Prop :=
  ∀ (s : State) (p : Fin 6) (l : Fin 2),
    let errs : State → Nat := fun t => t.counter (R.TST_LANE_ERR_LO p l)
    let bits : State → Nat := fun t => t.counter (R.TST_LANE_BITS_LO p l)
    let flit : State → Nat → Nat → Prop := fun t i k =>
      t.counter (cntKey (Pg.tstLane p) i) = (s.counter (cntKey (Pg.tstLane p) i) + k) % 2 ^ 64
    let q := (s.port p).testNext
    let cfg : Fld → Bool := fun f => s.flag (R.TST_FLIT_CFG p) f
    (s.checking p l = true → s.laneLocked p l = false →
        exec (.checkerLock p l) s = .next (s.setFld (R.TST_LANE_STAT p l) F.TST_LANE_STAT_LOCK 1))
      ∧ (s.checking p l = false → exec (.checkerLock p l) s = .next s ∧ exec (.checkerLockLoss p l) s = .next s)
      ∧ (s.checking p l = true → s.laneLocked p l = true → ∃ t k m, exec (.checkerLockLoss p l) s = .next t
        ∧ t.laneLocked p l = false ∧ 16 ≤ k ∧ k ≤ m ∧ errs t = (errs s + k) % 2 ^ 64 ∧ bits t = (bits s + m) % 2 ^ 64
        ∧ t.fld (R.TST_LANE_STAT p l) F.TST_LANE_STAT_LOSSES = min 255 (s.fld (R.TST_LANE_STAT p l) F.TST_LANE_STAT_LOSSES + 1)
        ∧ bitOf (t.reg (Pg.tstLane p + Hdr.errStat)).toNat E.tstLane_LOCK_LOST = true)
      ∧ (∀ (iid : Fin 24) (back : Bool) (val : Word), s.Admits iid (R.TST_LANE_CFG p l) .tstLane p →
        let seen := s.flag (R.TST_LANE_CFG p l) F.TST_LANE_CFG_GEN = true ∧ s.checking p l = true ∧ s.laneLocked p l = true
          ∧ (back = true ∨ s.fld (R.TST_LANE_CFG p l) F.TST_LANE_CFG_LOOP = 1)
        ∃ t, exec (.laneInj iid p l back val) s = .next t ∧ t.reg (R.TST_LANE_CFG p l) = s.reg (R.TST_LANE_CFG p l)
          ∧ (seen → errs t = (errs s + 1) % 2 ^ 64) ∧ (¬ seen → t.cnt = s.cnt))
      ∧ ((cfg F.TST_FLIT_CFG_GEN = false ∨ s.portUp p = false) → exec (.testFlitSend p) s = .next s)
      ∧ (cfg F.TST_FLIT_CFG_GEN = true → s.portUp p = true → ∃ t, exec (.testFlitSend p) s = .next t
        ∧ (t.port p).testNext = (q + 1) % 2 ^ 32 ∧ flit t 0 1
        ∧ (s.route (s.fld (R.TST_FLIT_CFG p) F.TST_FLIT_CFG_DEST) = none → cfg F.TST_FLIT_CFG_CHK = true →
          flit t 1 1 ∧ (t.port p).testLast = some q
            ∧ ((s.port p).testLast = none → t.counter (cntKey (Pg.tstLane p) 3) = s.counter (cntKey (Pg.tstLane p) 3))
            ∧ ∀ k, (s.port p).testLast = some k → (k + 1) % 2 ^ 32 ≠ q →
              flit t 3 1 ∧ bitOf (t.reg (Pg.tstLane p + Hdr.errStat)).toNat E.tstLane_FLIT_ERR = true)
        ∧ ∀ d o, s.route (s.fld (R.TST_FLIT_CFG p) F.TST_FLIT_CFG_DEST) = some d → s.portFor d = some o →
          s.maySend o (s.leaveVc 1 d none 0) = true →
          t.counter (cntKey (Pg.plmPort o) 0) = (s.counter (cntKey (Pg.plmPort o) 0) + 1) % 2 ^ 64)
      ∧ (∀ (iid : Fin 24) (val : Word), s.Admits iid R.TST_MEM_CFG .tstMem 0 →
        let result : State → Nat := fun t => t.fld R.TST_MEM_STATUS F.TST_MEM_STATUS_RESULT
        let on := s.domOn (18 + s.fld R.TST_MEM_CFG F.TST_MEM_CFG_TIER % 3)
        ∃ t, exec (.memTestGo iid val) s = .next t ∧ t.da = s.da
          ∧ (s.mt.testing.isSome = true → t.mt = s.mt ∧ t.reg R.TST_MEM_STATUS = s.reg R.TST_MEM_STATUS)
          ∧ (s.mt.testing = none →
            (s.testOwned = true → result t = 1 ∧ t.mt = s.mt)
              ∧ (s.testOwned = false → s.testMoving = true → result t = 2 ∧ t.mt = s.mt)
              ∧ (s.testOwned = false → s.testMoving = false → on = false → result t = 3 ∧ t.mt = s.mt)
              ∧ (s.testOwned = false → s.testMoving = false → on = true → t.reg R.TST_MEM_STATUS = 1
                ∧ t.mt = { s.mt with testing := some (s.testRange.1, s.testRange.2.1, s.testRange.2.2 - 1) })))
      ∧ (s.mt.testing = none → ∀ r, exec (.memTestDone r) s = .next s)
      ∧ (s.mt.testing.isSome = true →
        (∃ t, exec (.memTestDone none) s = .next t ∧ t.mt = { s.mt with testing := none }
            ∧ t.fld R.TST_MEM_STATUS F.TST_MEM_STATUS_STATE = 2)
          ∧ ∀ (f : Fin 131072) (k : Nat), ∃ t, exec (.memTestDone (some (f, k))) s = .next t
            ∧ t.mt = { s.mt with testing := none } ∧ t.fld R.TST_MEM_STATUS F.TST_MEM_STATUS_STATE = 3
            ∧ t.fld R.TST_MEM_STATUS F.TST_MEM_STATUS_FAIL_FRAME = f.val
            ∧ t.counter (cntKey Pg.tstMem 1) = (s.counter (cntKey Pg.tstMem 1) + k) % 2 ^ 64
            ∧ bitOf (t.reg (Pg.tstMem + Hdr.errStat)).toNat E.tstMem_MEM_FAIL = true)

/-- An instruction of the test access port acts where its condition holds and as BYPASS elsewhere, and drives no microphone
ball while MUTE_N is low; TEST_ENTER overwrites every key slot; a debug operation answers with the STATUS of its space;
the sideband moves its pointer over words that IID 20 may reach (R416, R499 to R504). Rests on the model's choices of
log entries 4 (an event whose condition fails changes nothing), 10, 100, 101 and 102. -/
def Obligations.TestPortDebugPortAndSideband : Prop :=
  ∀ (s : State),
    let ir : Nat → Out := fun k => .next { s with pins := { s.pins with ir := k } }
    let low := s.pins.perstLow = true
    let cnt : State → Nat → Nat → Prop := fun t b i => t.counter (cntKey b i) = (s.counter (cntKey b i) + 1) % 2 ^ 64
    let answers : State → Nat → Word → Prop := fun t st d => t.pins.dbgStatus = st ∧ t.pins.dbgData = d
    (∀ (pins load : Nat) (c : Instr) (k : Nat),
        (c, k) ∈ [(Instr.extest pins load, 0x00), (.extestPulse pins load, 0x08), (.extestTrain pins load, 0x09)] →
        (low → exec c s = .next { s with pins := { s.pins with ir := k, captured := pins, bsr := load } })
          ∧ (¬ low → exec c s = ir 0xFF))
      ∧ (∀ pins load, exec (.samplePreload pins load) s
        = .next { s with pins := { s.pins with ir := 0x01, captured := pins, bsr := load } })
      ∧ exec .idcode s = ir 0x02 ∧ exec .testLogicReset s = ir 0x02 ∧ exec .bypass s = ir 0xFF
      ∧ exec .clamp s = ir (if s.pins.perstLow then 0x03 else 0xFF) ∧ exec .highz s = ir (if s.pins.perstLow then 0x04 else 0xFF)
      ∧ (s.flag R.BRZ_MUTE F.BRZ_MUTE_PIN = true → ∀ k dev, k < 4 → s.ball k dev = some dev)
      ∧ (s.flag R.SEC_BOOT F.SEC_BOOT_ID_VALID = true → s.flag R.TST_MODE F.TST_MODE_DEBUG_OPEN = false →
        exec .testEnter s = ir 0xFF)
      ∧ ((s.flag R.SEC_BOOT F.SEC_BOOT_ID_VALID = false ∨ s.flag R.TST_MODE F.TST_MODE_DEBUG_OPEN = true) →
        ∃ t, exec .testEnter s = .next t ∧ t.pins.ir = 0x30 ∧ t.flag R.TST_MODE F.TST_MODE_PROD = true ∧ t.booted = false
          ∧ t.flag R.SEC_BOOT F.SEC_BOOT_ID_VALID = false ∧ (∀ k, k < 32 → s.sec.lastGen < Tab.get t.sec.gens 0 k)
          ∧ t.mt.accs = [] ∧ t.plm.runs = [] ∧ t.flash = s.flash)
      ∧ (∀ (addr : BitVec 48) (val : Word) (o : Option SectorRead) (par : Bool) (w : Fin 4),
        let a := addr.toNat / 4 * 4
        let awake := s.booted = true ∧ s.domOn 29 = true
        let open' := s.flag R.TST_MODE F.TST_MODE_DEBUG_OPEN
        let refused : State → Prop := fun t => answers t 2 0 ∧ cnt t Pg.tstDbg 2
        ∃ t u, exec (.dbgRead w addr o par) s = .next t ∧ exec (.dbgWrite w addr val o) s = .next u
          ∧ (w ≠ 0 → cnt t Pg.tstDbg 0 ∧ cnt u Pg.tstDbg 1)
          ∧ (w = 3 → refused t ∧ refused u) ∧ (w = 2 → refused u)
          ∧ (w.val ≤ 1 → s.booted = true → s.domOn 29 = false → answers t 1 0 ∧ answers u 1 0)
          ∧ (w = 0 → awake →
            ((∃ k i, s.gate 21 a false = .ok k i ∧ s.confRefuses 21 k i (a % 4096) false = false) →
                answers t 0 (busRead 21 a (s.count Pg.tstDbg 0 1)).rdata)
              ∧ ((∀ k i, s.gate 21 a false ≠ .ok k i) → refused t)
              ∧ ((∀ k i, s.gate 21 a true ≠ .ok k i) → refused u ∧ u.mt = s.mt ∧ u.spad = s.spad))
          ∧ (w = 1 → awake → s.dbgOwner a = none → refused t ∧ refused u ∧ t.da = s.da ∧ u.da = s.da
            ∧ (s.daConf a = true → bitOf (t.reg (Pg.secConf + Hdr.errStat)).toNat E.secConf_DBG_DENY = true))
          ∧ (w = 1 → awake → ∀ t0, s.dbgOwner a = some t0 →
            (o = none → answers t 4 0 ∧ answers u 4 0 ∧ u.da = s.da)
              ∧ ∀ g, o = some .clean → s.tagAt (a / 512 * 512) = some g → g.owner = t0 → g.poison = 0 →
                g.epoch = s.granuleEpoch a → g.gen = s.keyGen (2 * t0 + g.epoch) →
                answers t 0 (BitVec.ofNat 32 (ofLeBytes (Memory.readList s.da a 4)))
                  ∧ (Memory.wf s.da = true → u.pins.dbgStatus = 0 ∧ Memory.readList u.da a 4 = leBytes 4 val.toNat))
          ∧ (w = 2 →
            let n := bitsOf addr.toNat 27 23
            let r := bitsOf addr.toNat 22 7
            let xs := s.rangeCtxs n r
            ((open' = false ∨ 17 < n ∨ s.domOn n = false ∨ xs = []) → refused t)
              ∧ (open' = true → n ≤ 17 → s.domOn n = true → xs ≠ [] →
                ((∃ x ∈ xs, s.confidential (tenantOf x) = true) → refused t ∧ cnt t Pg.secConf 3)
                  ∧ ((∀ x ∈ xs, s.confidential (tenantOf x) = false) →
                    (par = true → t.pins.dbgStatus = 5)
                      ∧ (par = false → answers t (if s.rowTag n r = 0 then 0 else 3)
                        (BitVec.ofNat 32 (ofLeBytes (Memory.readList s.spad (rowAddr n r + 4 * bitsOf addr.toNat 6 0) 4))))))))
      ∧ (∀ (a : BitVec 7) (c : Instr), c = .setdasa a ∨ c = .entdaa a →
        (s.pins.sbAddr = none → exec c s = .next { s with pins := { s.pins with sbAddr := some a.toNat } })
          ∧ (s.pins.sbAddr.isSome = true → exec c s = .next s))
      ∧ (∀ ptr : Word, exec (.sbPointerWrite ptr) s = .next { s with pins := { s.pins with sbPtr := ptr.toNat } })
      ∧ (s.booted = true → s.domOn 29 = false → s.tripped = false → ∀ n ptr ws,
        exec (.sbPrivateRead n) s = .next (wakeDom 29 false s) ∧ exec (.sbPrivateWrite ptr ws) s = .next (wakeDom 29 false s))
      ∧ (s.booted = true → s.domOn 29 = true → s.tripped = false → ∀ (ptr val : Word),
        let a := s.pins.sbPtr
        let u := busRead 20 a ((s.count Pg.mgtTel 1 1).modPins (fun q => { q with sbData := [] }))
        let v := busWrite 20 ptr.toNat 0xFFFFFFFF#32 val ((s.count Pg.mgtTel 2 1).modPins (fun q => { q with sbPtr := ptr.toNat }))
        (s.gate 20 a false ≠ .unmapped → exec (.sbPrivateRead 1) s = .next (u.modPins (fun q => { q with
            sbPtr := (a + 4) % 2 ^ 32, sbData := q.sbData ++ [u.rdata] })))
          ∧ (s.gate 20 a false = .unmapped → ∃ t, exec (.sbPrivateRead 1) s = .next t ∧ cnt t Pg.mgtTel 1 ∧ cnt t Pg.mgtTel 3
            ∧ t.pins.sbData = [] ∧ t.pins.sbPtr = a)
          ∧ (s.gate 20 ptr.toNat true ≠ .unmapped → exec (.sbPrivateWrite ptr [val]) s = .next (v.modPins (fun q => { q with
            sbPtr := (ptr.toNat + 4) % 2 ^ 32 })))
          ∧ (s.gate 20 ptr.toNat true = .unmapped → ∃ t, exec (.sbPrivateWrite ptr [val]) s = .next t ∧ cnt t Pg.mgtTel 2
            ∧ cnt t Pg.mgtTel 3 ∧ t.pins.sbPtr = ptr.toNat))
      ∧ (s.tripped = true → s.pins.sbPtr / 4096 ≠ 2 → ¬ (0x10000 ≤ s.pins.sbPtr ∧ s.pins.sbPtr < 0x20000) →
        ∃ t, exec (.sbPrivateRead 1) s = .next t ∧ t.pins.sbData = [0] ∧ t.regs = s.regs)

/-! ### Every step -/

/-- Right after reset the queue is empty, DTIME is zero, the boot chain has not run, only the Breeze domain is on, every
memory is in its canonical form and empty, and no context or job exists (R62, R470, R485). Rests on the model's choices
of log entries 6 and 15. -/
def Obligations.ResetLeavesThePartUnbooted : Prop :=
  let s := State.reset
  s.pending = [] ∧ s.dtime = 0 ∧ s.booted = false ∧ (∀ d, d < 31 → s.domState d = if d = 30 then 2 else 0)
    ∧ s.memoriesWf = true ∧ s.spad = [] ∧ s.da = [] ∧ s.PlacesNamed ∧ s.contexts = [] ∧ s.ctl.jobs = []
    ∧ s.hif.entries = [] ∧ ∀ n, n < 18 → s.seqState n = Seq.halted ∧ s.pc n = 0

/-- Commands leave the queue in their order and no step adds one. -/
def Obligations.CommandsLeaveTheQueueInOrder : Prop :=
  ∀ s t : State, step s = .next t → t.pending = s.pending.tail

/-- No step moves the root of trust back: an identity record is never replaced, no anti-rollback counter falls, no REVOKED bit
clears (R442, R443, R445). -/
def Obligations.NoStepMovesTheRootOfTrustBack : Prop :=
  ∀ s t : State, step s = .next t → RootKept s t

/-- DTIME never goes back but where the part is powered up or a rail resets it (R470, R485, R517). Rests on the model's
choices of log entries 2 and 5. -/
def Obligations.DeviceTimeNeverGoesBack : Prop :=
  ∀ s t : State, step s = .next t →
    (∀ o, s.pending.head? ≠ some (.coldReset o)) → (∀ k, s.pending.head? ≠ some (.railUndervoltage k)) → s.dtime ≤ t.dtime

/-- Every step keeps every memory in its canonical form. -/
def Obligations.EveryStepKeepsMemoriesCanonical : Prop :=
  ∀ s t : State, s.memoriesWf = true → step s = .next t → t.memoriesWf = true

/-- Every step keeps the cores, SPD_RANGE entries and regions that contexts and jobs name, and the control cores that an update
names, on the chip (R351, R364). -/
def Obligations.EveryStepKeepsPlacesOnTheChip : Prop :=
  ∀ s t : State, s.PlacesNamed → step s = .next t → t.PlacesNamed
end

