-- ==== Sys2Proof/Laws/Effects.lean ====
section
/-! SUPPORT. Laws/Effects.lean: one lemma for each shared effect that says once what it can touch: the state after it is the
state before it with the named fields replaced, and nothing else. -/

namespace Sys2Proof.Machine

/-- A fold keeps a relation that each of its steps keeps. -/
theorem foldl_rel {σ β : Type} (R : σ → σ → Prop) (refl : ∀ s, R s s) (trans : ∀ s t u, R s t → R t u → R s u)
    (f : σ → β → σ) (h : ∀ s x, R s (f s x)) (l : List β) (s : σ) : R s (l.foldl f s) := by
  induction l generalizing s with
  | nil => exact refl s
  | cons x l ih => exact trans _ _ _ (h s x) (ih _)

theorem msixSend_frame (f v : Nat) (s : State) : msixSend f v s = { s with hif := (msixSend f v s).hif } := by
  unfold msixSend; split <;> rfl

theorem errIrq_frame (base : Nat) (s : State) :
    errIrq base s = { s with errIrqs := (errIrq base s).errIrqs, hif := (errIrq base s).hif } := by
  have h := foldl_rel (fun (s t : State) => t = { s with hif := t.hif }) (fun _ => rfl)
    (fun s t u h k => by rw [k, h])
    (fun (t : State) f => if bitOf (t.rights base f) 0 then msixSend f (t.fld (R.HIF_VEC f) F.HIF_VEC_ERR) t else t)
    (fun t f => by
      split
      · exact msixSend_frame _ _ _
      · rfl)
    (List.range 16) { s with errIrqs := Tab.set s.errIrqs (base / 4096) (Tab.get s.errIrqs 0 (base / 4096) + 1) }
  unfold errIrq
  rw [h]

theorem raiseErr_frame (base bit iid off : Nat) (s : State) : raiseErr base bit iid off s =
    { s with regs := (raiseErr base bit iid off s).regs, errIrqs := (raiseErr base bit iid off s).errIrqs,
             hif := (raiseErr base bit iid off s).hif } := by
  unfold raiseErr
  dsimp only
  split
  · rfl
  · split
    · rw [errIrq_frame]; split <;> rfl
    · split <;> rfl

theorem errEvent_frame (base bit : Nat) (s : State) : errEvent base bit s =
    { s with regs := (errEvent base bit s).regs, errIrqs := (errEvent base bit s).errIrqs, hif := (errEvent base bit s).hif } :=
  raiseErr_frame _ _ _ _ _

theorem errIf_frame (c : Bool) (base bit : Nat) (s : State) : errIf c base bit s =
    { s with regs := (errIf c base bit s).regs, errIrqs := (errIf c base bit s).errIrqs, hif := (errIf c base bit s).hif } := by
  unfold errIf
  split
  · exact errEvent_frame _ _ _
  · rfl

theorem setDomState_frame (d st ph : Nat) (s : State) : setDomState d st ph s = { s with regs := (setDomState d st ph s).regs } :=
  rfl

theorem startExit_frame (d : Nat) (s : State) : startExit d s =
    { s with regs := (startExit d s).regs, doms := (startExit d s).doms, cnt := (startExit d s).cnt,
             errIrqs := (startExit d s).errIrqs, hif := (startExit d s).hif } := by
  unfold startExit
  dsimp only
  split
  · rfl
  · split
    · rw [errEvent_frame]; split <;> rfl
    · split <;> rfl

theorem wakeDom_frame (d : Nat) (u : Bool) (s : State) : wakeDom d u s =
    { s with regs := (wakeDom d u s).regs, doms := (wakeDom d u s).doms, cnt := (wakeDom d u s).cnt,
             errIrqs := (wakeDom d u s).errIrqs, hif := (wakeDom d u s).hif } := by
  unfold wakeDom
  split
  · rfl
  · split <;> rfl
  · rw [startExit_frame]; rfl

theorem startFlush_frame (s : State) : startFlush s = { s with regs := (startFlush s).regs, rel := (startFlush s).rel } := by
  unfold startFlush; dsimp only; split <;> rfl

theorem stageEntry_frame (e : LogEntry) (s : State) : stageEntry e s =
    { s with regs := (stageEntry e s).regs, cnt := (stageEntry e s).cnt, rel := (stageEntry e s).rel } := rfl

/-- Nothing but the error log, its registers and counters, error status and the interrupts that it sends differs. -/
def LogOnly (s t : State) : Prop :=
  t = { s with regs := t.regs, cnt := t.cnt, rel := t.rel, errIrqs := t.errIrqs, hif := t.hif, pins := t.pins }

theorem LogOnly.trans {s t u : State} (h : LogOnly s t) (k : LogOnly t u) : LogOnly s u := by
  unfold LogOnly at *; rw [k, h]

theorem LogOnly.errEvent (base bit : Nat) (s : State) : LogOnly s (errEvent base bit s) := by
  unfold LogOnly
  generalize hq : Machine.errEvent base bit s = q
  have h := errEvent_frame base bit s
  rw [hq] at h
  rw [h]

theorem LogOnly.startFlush (s : State) : LogOnly s (startFlush s) := by
  unfold LogOnly
  generalize hq : Machine.startFlush s = q
  have h := startFlush_frame s
  rw [hq] at h
  rw [h]

theorem LogOnly.count (s : State) (b i k : Nat) : LogOnly s (s.count b i k) := rfl
theorem LogOnly.setReg (s : State) (a : Nat) (w : Word) : LogOnly s (s.setReg a w) := rfl
theorem LogOnly.satFld (s : State) (a : Nat) (f : Fld) (k : Nat) : LogOnly s (s.satFld a f k) := rfl

/-- Logging an entry touches the log and what a loss reports, and nothing else. -/
theorem logEntry_frame (e : LogEntry) (s : State) : LogOnly s (logEntry e s) := by
  have st : ∀ (e : LogEntry) (s : State), LogOnly s (stageEntry e s) := fun _ _ => rfl
  have rl : ∀ (s : State) (r : Rel), LogOnly s { s with rel := r } := fun _ _ => rfl
  have refl : ∀ s : State, LogOnly s s := fun _ => rfl
  unfold logEntry
  dsimp only
  split
  · exact (((LogOnly.satFld _ _ _ _).trans (LogOnly.count _ _ _ _)).trans (LogOnly.errEvent _ _ _)).trans (rl _ _)
  · have h1 : LogOnly s (if s.rel.lost = 0 then s
        else { stageEntry { cls := LogCls.logDrop, arg0 := s.rel.lost } s with
                rel := { (stageEntry { cls := LogCls.logDrop, arg0 := s.rel.lost } s).rel with lost := 0 } }) := by
      split
      · exact refl _
      · exact (st _ _).trans (rl _ _)
    generalize (if s.rel.lost = 0 then s
        else { stageEntry { cls := LogCls.logDrop, arg0 := s.rel.lost } s with
                rel := { (stageEntry { cls := LogCls.logDrop, arg0 := s.rel.lost } s).rel with lost := 0 } }) = u at *
    have h2 : LogOnly u (if u.rel.staging.length ≥ stagingSize then { u with rel := { u.rel with lost := 1 } }
        else stageEntry e u) := by
      split
      · exact rl _ _
      · exact st _ _
    generalize (if u.rel.staging.length ≥ stagingSize then { u with rel := { u.rel with lost := 1 } }
        else stageEntry e u) = v at *
    split
    · exact (h1.trans h2).trans (LogOnly.startFlush _)
    · exact h1.trans h2

theorem sendIbi_frame (k : Nat) (s : State) : sendIbi k s = { s with cnt := (sendIbi k s).cnt, pins := (sendIbi k s).pins } := by
  unfold sendIbi; split <;> rfl

/-- A service request touches no more than its log entry does, and the sideband's interrupts. -/
theorem svcEvent_frame (bit : Nat) (s : State) : LogOnly s (svcEvent bit s) := by
  have h0 : LogOnly s (if s.flag R.REL_SVC F.REL_SVC_ASSERTED then s else sendIbi 1 s) := by
    split
    · rfl
    · unfold sendIbi; split <;> rfl
  unfold svcEvent
  dsimp only
  generalize (if s.flag R.REL_SVC F.REL_SVC_ASSERTED then s else sendIbi 1 s) = u at *
  exact (((h0.trans (LogOnly.setReg _ _ _)).trans (LogOnly.errEvent _ _ _)).trans (LogOnly.count _ _ _ _)).trans
    (logEntry_frame _ _)

theorem chanStatus_frame (n k cause : Nat) (s : State) : chanStatus n k cause s = { s with regs := (chanStatus n k cause s).regs } :=
  rfl

theorem stopChan_frame (x n k : Nat) (s : State) : stopChan x n k s =
    { s with cores := (stopChan x n k s).cores, mt := (stopChan x n k s).mt, regs := (stopChan x n k s).regs } := by
  unfold stopChan
  dsimp only
  rw [chanStatus_frame]
  split <;> split <;> rfl

/-- Nothing but the records of cores and register words differs. -/
def CoreOnly (s t : State) : Prop := t = { s with cores := t.cores, regs := t.regs }

theorem CoreOnly.trans {s t u : State} (h : CoreOnly s t) (k : CoreOnly t u) : CoreOnly s u := by
  unfold CoreOnly at *; rw [k, h]

theorem CoreOnly.setFld (s : State) (a : Nat) (f : Fld) (v : Nat) : CoreOnly s (s.setFld a f v) := rfl
theorem CoreOnly.modCore (s : State) (n : Nat) (f : Core → Core) : CoreOnly s (s.modCore n f) := rfl
theorem CoreOnly.setCore (s : State) (n : Nat) (c : Core) : CoreOnly s (s.setCore n c) := rfl

/-- Stopping a core touches its record and its status words. -/
theorem stopCore_frame (x n : Nat) (s : State) : CoreOnly s (stopCore x n s) := by
  unfold stopCore
  dsimp only
  split
  · exact (((((CoreOnly.setCore _ _ _).trans (CoreOnly.modCore _ _ _)).trans (CoreOnly.setFld _ _ _ _)).trans
      (CoreOnly.setFld _ _ _ _)).trans (CoreOnly.setFld _ _ _ _))
  · exact CoreOnly.setCore _ _ _

theorem stopCores_frame (x : Nat) (l : List Nat) (s : State) : CoreOnly s (stopCores x l s) := by
  induction l generalizing s with
  | nil => rfl
  | cons n l ih => exact (stopCore_frame x n s).trans (ih _)

theorem dropColl_frame (x : Nat) (s : State) : dropColl x s = { s with plm := (dropColl x s).plm, regs := (dropColl x s).regs } := rfl

theorem advanceHead_frame (n r k : Nat) (s : State) : advanceHead n r k s =
    { s with regs := (advanceHead n r k s).regs, cnt := (advanceHead n r k s).cnt } := by
  unfold advanceHead; dsimp only; split <;> rfl

theorem releaseRows_frame (n r k : Nat) (s : State) : releaseRows n r k s =
    { s with regs := (releaseRows n r k s).regs, cnt := (releaseRows n r k s).cnt } := by
  unfold releaseRows; dsimp only; split <;> rfl

theorem releaseTo_frame (n r : Nat) (g : Rgn) (k : Nat) (s : State) : releaseTo n r g k s =
    { s with regs := (releaseTo n r g k s).regs, cnt := (releaseTo n r g k s).cnt } :=
  releaseRows_frame _ _ _ _

theorem touchPage_frame (p : Nat) (s : State) : touchPage p s = { s with mt := (touchPage p s).mt } := by
  unfold touchPage
  dsimp only
  split
  · split
    · rfl
    · split <;> rfl
  · split
    · rfl
    · split <;> rfl

theorem poisonMade_frame (da owner src : Nat) (s : State) : LogOnly s (poisonMade da owner src s) :=
  (LogOnly.errEvent _ _ _).trans (logEntry_frame _ _)

/-- Storing a sector writes its bytes and its tag; a poisoned one is logged besides. -/
theorem storeSector_frame (owner da src : Nat) (bs : List Byte) (s : State) :
    ∃ d m, LogOnly { s with da := d, mt := m } (storeSector owner da src bs s) := by
  unfold storeSector
  dsimp only
  generalize Memory.writeList s.da (da / 512 * 512) (bs.take 512) = d
  refine ⟨d, { s.mt with tags := Tab.set s.mt.tags (da / 512 * 512 / 512) { s.tagNow owner (da / 512 * 512) with poison := src } }, ?_⟩
  generalize (da / 512 * 512) = b
  by_cases h : src = 0
  · rw [if_pos h]; rfl
  · rw [if_neg h]; exact poisonMade_frame _ _ _ _

end Sys2Proof.Machine
end

