-- ==== Sys2Proof/Laws/Memory.lean ====
section
/-! SUPPORT. Laws/Memory.lean: every memory operation keeps the canonical form, and a byte reads as what was last written
to it. -/

namespace Sys2Proof.Machine

/-- Canonical cells that all lie above `lo`. -/
def Memory.above (lo : Nat) : List Host.Cell → Prop
  | [] => True
  | (a, _) :: _ => lo < a

theorem Memory.wf_cons_iff (a : Nat) (b : Byte) (m : List Host.Cell) :
    Memory.wf ((a, b) :: m) = true ↔ b ≠ 0 ∧ Memory.above a m ∧ Memory.wf m = true := by
  cases m with
  | nil => simp [Memory.wf, Memory.above]
  | cons c m => obtain ⟨i, x⟩ := c; simp [Memory.wf, Memory.above, and_assoc]

theorem Memory.wf_cons (a : Nat) (b : Byte) (m : List Host.Cell) (h : Memory.above a m) (hm : Memory.wf m = true) :
    Memory.wf (Memory.cons a b m) = true := by
  unfold Memory.cons
  split
  · exact hm
  · rename_i hb
    exact (Memory.wf_cons_iff a b m).mpr ⟨hb, h, hm⟩

theorem Memory.above_trans (lo a : Nat) (m : List Host.Cell) (h : lo < a) (hm : Memory.above a m) : Memory.above lo m := by
  cases m with
  | nil => trivial
  | cons c m => exact Nat.lt_trans h hm

theorem Memory.above_write (lo : Nat) (m : List Host.Cell) (a : Nat) (b : Byte) (hm : Memory.above lo m) (ha : lo < a)
    (hw : Memory.wf m = true) : Memory.above lo (Memory.write m a b) := by
  cases m with
  | nil =>
    simp only [Memory.write, Memory.cons]
    split
    · trivial
    · exact ha
  | cons c m =>
    obtain ⟨i, x⟩ := c
    simp only [Memory.write]
    split
    · exact hm
    · split
      · unfold Memory.cons
        split
        · exact Memory.above_trans lo i m hm ((Memory.wf_cons_iff i x m).mp hw).2.1
        · exact ha
      · unfold Memory.cons
        split
        · exact hm
        · exact ha

theorem Memory.wf_tail (c : Host.Cell) (m : List Host.Cell) (h : Memory.wf (c :: m) = true) : Memory.wf m = true :=
  ((Memory.wf_cons_iff c.1 c.2 m).mp h).2.2

/-- A write keeps the canonical form. -/
theorem Memory.wf_write (m : List Host.Cell) (a : Nat) (b : Byte) (h : Memory.wf m = true) :
    Memory.wf (Memory.write m a b) = true := by
  induction m with
  | nil => exact Memory.wf_cons a b [] trivial rfl
  | cons c m ih =>
    obtain ⟨i, x⟩ := c
    have hc := (Memory.wf_cons_iff i x m).mp h
    simp only [Memory.write]
    split
    · rename_i hi
      exact (Memory.wf_cons_iff _ _ _).mpr ⟨hc.1, Memory.above_write i m a b hc.2.1 hi hc.2.2, ih hc.2.2⟩
    · split
      · rename_i _ he
        subst he
        exact Memory.wf_cons _ b m hc.2.1 hc.2.2
      · rename_i h1 h2
        exact Memory.wf_cons a b _ (Nat.lt_of_le_of_ne (Nat.le_of_not_lt h1) (fun e => h2 e.symm)) h

theorem Memory.wf_writeList (bs : List Byte) (m : List Host.Cell) (a : Nat) (h : Memory.wf m = true) :
    Memory.wf (Memory.writeList m a bs) = true := by
  induction bs generalizing m a with
  | nil => exact h
  | cons b bs ih => exact ih _ _ (Memory.wf_write m a b h)

theorem Memory.above_filter (p : Host.Cell → Bool) (lo : Nat) (m : List Host.Cell) (h : Memory.above lo m)
    (hw : Memory.wf m = true) : Memory.above lo (m.filter p) := by
  induction m with
  | nil => trivial
  | cons c m ih =>
    obtain ⟨i, x⟩ := c
    rw [List.filter_cons]
    split
    · exact h
    · have hc := (Memory.wf_cons_iff i x m).mp hw
      exact ih (Memory.above_trans lo i m h hc.2.1) hc.2.2

/-- Clearing a range keeps the canonical form. -/
theorem Memory.wf_filter (p : Host.Cell → Bool) (m : List Host.Cell) (h : Memory.wf m = true) :
    Memory.wf (m.filter p) = true := by
  induction m with
  | nil => rfl
  | cons c m ih =>
    obtain ⟨i, x⟩ := c
    have hc := (Memory.wf_cons_iff i x m).mp h
    rw [List.filter_cons]
    split
    · exact (Memory.wf_cons_iff _ _ _).mpr ⟨hc.1, Memory.above_filter p i m hc.2.1 hc.2.2, ih hc.2.2⟩
    · exact ih hc.2.2

theorem Memory.wf_zero (m : List Host.Cell) (lo hi : Nat) (h : Memory.wf m = true) :
    Memory.wf (Memory.zero m lo hi) = true := Memory.wf_filter _ m h

/-! ### Reads after writes -/

theorem Memory.read_cons (a : Nat) (b : Byte) (m : List Host.Cell) (i : Nat) (h : i = a → b = 0 → Memory.read m a = 0) :
    Memory.read (Memory.cons a b m) i = if i = a then b else Memory.read m i := by
  unfold Memory.cons
  split
  · rename_i hb
    split
    · rename_i hi
      subst hi
      rw [h rfl hb, hb]
    · rfl
  · simp only [Memory.read]
    by_cases he : a = i
    · simp [he]
    · rw [if_neg he, if_neg (fun e => he e.symm)]

theorem Memory.read_above (m : List Host.Cell) (a : Nat) (h : Memory.above a m) (hw : Memory.wf m = true) :
    Memory.read m a = 0 := by
  induction m with
  | nil => rfl
  | cons c m ih =>
    obtain ⟨i, x⟩ := c
    have hc := (Memory.wf_cons_iff i x m).mp hw
    have hi : a < i := h
    simp only [Memory.read]
    rw [if_neg (by omega)]
    exact ih (Memory.above_trans a i m hi hc.2.1) hc.2.2

/-- A byte reads as what was last written to it, and every other byte as before. -/
theorem Memory.read_write (m : List Host.Cell) (a : Nat) (b : Byte) (i : Nat) (h : Memory.wf m = true) :
    Memory.read (Memory.write m a b) i = if i = a then b else Memory.read m i := by
  induction m with
  | nil =>
    simp only [Memory.write]
    exact Memory.read_cons a b [] i (fun _ _ => rfl)
  | cons c m ih =>
    obtain ⟨j, x⟩ := c
    have hc := (Memory.wf_cons_iff j x m).mp h
    simp only [Memory.write]
    split
    · rename_i hj
      simp only [Memory.read]
      rw [ih hc.2.2]
      by_cases h1 : j = i
      · rw [if_pos h1, if_neg (by omega), if_pos h1]
      · rw [if_neg h1, if_neg h1]
    · split
      · rename_i _ he
        subst he
        rw [Memory.read_cons j b m i (fun _ _ => Memory.read_above m j hc.2.1 hc.2.2)]
        by_cases h1 : i = j
        · rw [if_pos h1, if_pos h1]
        · rw [if_neg h1, if_neg h1]
          simp only [Memory.read]
          rw [if_neg (fun e => h1 e.symm)]
      · rename_i h1 h2
        apply Memory.read_cons
        intro _ _
        exact Memory.read_above _ a (Nat.lt_of_le_of_ne (Nat.le_of_not_lt h1) (fun e => h2 e.symm)) h

/-- A run of bytes written from `a` upward. -/
theorem Memory.read_writeList (bs : List Byte) (m : List Host.Cell) (a i : Nat) (h : Memory.wf m = true) :
    Memory.read (Memory.writeList m a bs) i =
      if a ≤ i ∧ i < a + bs.length then bs.getD (i - a) 0 else Memory.read m i := by
  induction bs generalizing m a with
  | nil =>
    rw [if_neg (by simp)]
    rfl
  | cons b bs ih =>
    simp only [Memory.writeList, List.length_cons]
    rw [ih _ _ (Memory.wf_write m a b h)]
    by_cases h1 : a + 1 ≤ i ∧ i < a + 1 + bs.length
    · rw [if_pos h1, if_pos (by omega)]
      have e : i - a = (i - (a + 1)) + 1 := by omega
      rw [e, List.getD_cons_succ]
    · rw [if_neg h1, Memory.read_write m a b i h]
      by_cases h2 : i = a
      · rw [if_pos h2, if_pos (by omega), h2, Nat.sub_self, List.getD_cons_zero]
      · rw [if_neg h2, if_neg (by omega)]

/-- A cleared range reads as zero, and every other byte as before. -/
theorem Memory.read_zero (m : List Host.Cell) (lo hi i : Nat) :
    Memory.read (Memory.zero m lo hi) i = if lo ≤ i ∧ i < hi then 0 else Memory.read m i := by
  induction m with
  | nil => simp [Memory.zero, Memory.read]
  | cons c m ih =>
    obtain ⟨j, x⟩ := c
    unfold Memory.zero at ih ⊢
    rw [List.filter_cons]
    split
    · rename_i hp
      simp only [decide_eq_true_eq] at hp
      simp only [Memory.read]
      by_cases hj : j = i
      · rw [if_pos hj, if_pos hj, if_neg (by omega)]
      · rw [if_neg hj, if_neg hj, ih]
    · rename_i hp
      simp only [decide_eq_true_eq] at hp
      rw [ih]
      split
      · rfl
      · simp only [Memory.read]
        rw [if_neg (by omega)]

theorem Memory.length_readList (n : Nat) (m : List Host.Cell) (a : Nat) : (Memory.readList m a n).length = n := by
  induction n generalizing a with
  | zero => rfl
  | succ n ih => simp [Memory.readList, ih]

theorem Memory.getD_readList (n : Nat) (m : List Host.Cell) (a k : Nat) (h : k < n) :
    (Memory.readList m a n).getD k 0 = Memory.read m (a + k) := by
  induction n generalizing a k with
  | zero => omega
  | succ n ih =>
    cases k with
    | zero => simp [Memory.readList]
    | succ k =>
      rw [Memory.readList, List.getD_cons_succ, ih _ _ (by omega)]
      congr 1
      omega

end Sys2Proof.Machine
end

