-- ==== Sys2Proof/Laws/Places.lean ====
section
/-! SUPPORT. Laws/Places.lean: what contexts, jobs and an update name, read off the lists that hold them. -/

namespace Sys2Proof.Machine

/-- A value found in a table is one of its entries. -/
theorem Tab.mem_of_find {β : Type} (l : List (Nat × β)) (a : Nat) (v : β) (h : Tab.find l a = some v) : (a, v) ∈ l := by
  induction l with
  | nil => simp [Tab.find] at h
  | cons p l ih =>
    rw [Tab.find] at h
    split at h
    · rename_i q
      cases h
      exact List.mem_cons.2 (.inl (Prod.ext q.symm rfl))
    · exact List.mem_cons_of_mem _ (ih h)

/-- `PlacesNamed` from a check of each listed context, each job and the update. -/
theorem State.placesNamed_of (s : State)
    (hc : ∀ e ∈ s.ctxs, (∀ n ∈ e.2.cores, n < 32) ∧ ∀ p ∈ e.2.place, p.range < 16 ∧ p.regBase + p.regCount ≤ 64)
    (hj : ∀ j ∈ s.ctl.jobs, ∀ n ∈ j.held, n < 32)
    (hu : ∀ o ∈ [s.ctl.upd.loader, s.ctl.upd.holding, s.ctl.upd.retry], ∀ k ∈ o, k < 4) : s.PlacesNamed := by
  have hx : ∀ x, s.ctx x = {} ∨ (x, s.ctx x) ∈ s.ctxs := by
    intro x
    simp only [State.ctx, Tab.get]
    cases hf : Tab.find s.ctxs x with
    | none => exact .inl rfl
    | some v => exact .inr (Tab.mem_of_find _ _ _ hf)
  refine ⟨fun x n hn => ?_, fun x p hp => ?_, hj, fun k hk => ?_⟩
  · rcases hx x with h | h
    · rw [h] at hn; cases hn
    · exact (hc _ h).1 n hn
  · rcases hx x with h | h
    · rw [h] at hp; cases hp
    · exact (hc _ h).2 p hp
  · rcases hk with h | h | h
    · exact hu _ (by simp) k h
    · exact hu _ (by simp) k h
    · exact hu _ (by simp) k h

end Sys2Proof.Machine
end

