-- ==== Sys2Proof/WellFormed.lean ====
section
/-! DEFINITION. WellFormed.lean: what an operand must satisfy beyond its type to be a command that can come about. The
meanings are total all the same. -/

namespace Sys2Proof

/-- The size of BAR0 (R33). -/
def bar0Size : Nat := 2 ^ 26

/-- The largest size of a BAR2 window (R326). -/
def bar2Max : Nat := 2 ^ 38

/-- A check's result names one of the 18 cores and rows and columns of an 18 by 18 array (R68, R83). -/
def CheckResult.wf (r : CheckResult) : Bool :=
  decide (r.core < 18) && r.rows.all (fun k => decide (k < 18)) && r.cols.all (fun k => decide (k < 18))
    && (match r.parity with | some p => decide (p < 100) | none => true)

/-- A DA access: 48-bit addresses (R4), the agents of R231, and whole sectors (R223). -/
def DaReq.wf : DaReq → Bool
  | .chan core ch => decide (core < 18 ∧ ch < 4)
  | .engine ctx da data => decide (ctx < 128 ∧ da < 2 ^ 48) && (match data with | some b => decide (b.length = 512) | none => true)
  | .control iid da data =>
    (decide (16 ≤ iid ∧ iid ≤ 19) || iid == 22) && decide (da < 2 ^ 48)
      && (match data with | some b => decide (b.length = 512) | none => true)

/-- What a link partner states fits its fields (R382). -/
def LinkInfo.wf (l : LinkInfo) : Bool :=
  decide (l.x < 32 ∧ l.y < 32 ∧ l.z < 32 ∧ l.dx < 64 ∧ l.dy < 64 ∧ l.dz < 64 ∧ l.dir < 8)

/-- A flit's fields fit their bits (R378). -/
def Flit.wf (f : Flit) : Bool :=
  decide (f.typ < 16 ∧ f.vc < 4 ∧ f.seq < 4096 ∧ f.ack < 4096 ∧ f.creditVc < 4 ∧ f.credit < 64 ∧ f.dest < 2 ^ 15
    ∧ f.tenant < 16 ∧ f.ctag < 4096 ∧ f.chunk < 65536 ∧ f.payload.length = 240)
    && (match f.link with | some l => l.wf | none => true)

/-- A boot names two stacks and tier 1, and at most two links. -/
def BootOutcome.wf (o : BootOutcome) : Bool := decide (o.mem.length = 3 ∧ o.links.length ≤ 2)

/-- Whether a command is well formed. -/
def Instr.wf : Instr → Bool
  | .regWrite _ addr _ _ => decide (addr % 4 = 0 ∧ addr < bar0Size)
  | .txnBegin _ _ _ => true
  | .txnCommit _ _ _ => true
  | .txnRollback _ _ _ => true
  | .commitApply _ _ => true
  | .groupFire _ _ _ => true
  | .groupWithdraw _ _ _ => true
  | .groupRelease _ => true
  | .errStatClear _ _ _ => true
  | .errEnWrite _ _ _ => true
  | .errInj _ _ _ => true
  | .snapReq _ => true
  | .snapshotTick => true
  | .fabWalkGo _ _ => true
  | .walkTestDone _ => true
  | .fabCrcInj _ _ => true
  | .fabricBeat _ _ _ row => match row with | some q => decide (q.2.val < 49152) | none => true
  | .d2dRetrain _ => true
  | .d2dRetrainDone => true
  | .d2dLaneFail _ => true
  | .gemm _ _ => true
  | .conv2d _ _ => true
  | .fftconv _ _ => true
  | .pool _ _ => true
  | .boxcrop _ _ => true
  | .eltwise _ _ => true
  | .squallForward _ _ => true
  | .squallMerge _ _ => true
  | .squallBackward _ _ => true
  | .pageFetch _ => true
  | .pageStore _ => true
  | .scan _ => true
  | .allReduce _ => true
  | .reduceScatter _ => true
  | .allGather _ => true
  | .broadcast _ => true
  | .dmaDaToRegion _ => true
  | .dmaRegionToDa _ => true
  | .dmaRegionToRegion _ => true
  | .dmaDaToImem _ => true
  | .dmaRegionToCore _ => true
  | .dmaFill _ => true
  | .waitsem _ => true
  | .waitsemRelease _ => true
  | .signal _ => true
  | .waitrows _ => true
  | .waitrowsRelease _ => true
  | .waitroom _ => true
  | .waitroomRelease _ => true
  | .loop _ => true
  | .branch _ => true
  | .switch _ => true
  | .drain _ => true
  | .drainRelease _ => true
  | .seqWait _ => true
  | .barrier _ => true
  | .barrierRelease _ => true
  | .issueBarrierRelease _ _ => true
  | .done _ => true
  | .doneComplete _ => true
  | .verdict _ res => res.all CheckResult.wf
  | .spareSwapDone _ => true
  | .wearSwap _ => true
  | .arrWdogTimeout _ => true
  | .barrierTimeout _ => true
  | .arrFaultInj _ _ _ => true
  | .arrStatClr _ _ _ _ => true
  | .seqStart _ _ _ => true
  | .drainReq _ _ _ => true
  | .channelStart _ _ _ _ => true
  | .dmaRoomAvailable _ _ => true
  | .dmaWaitTimeout _ _ => true
  | .spdDmaHold _ _ _ _ => true
  | .spdDmaSubmit _ _ _ _ => true
  | .spdRelease _ _ _ => true
  | .spdBankSwap _ _ _ => true
  | .bankSwap _ => true
  | .bankSwapDone _ _ => true
  | .swapInDone _ => true
  | .scanChunkStart _ _ => true
  | .scanWaitTimeout _ _ => true
  | .strWrite _ => true
  | .strRead _ => true
  | .strSwapOut _ => true
  | .swapOutStart _ => true
  | .swapOutDone _ => true
  | .strSwapIn _ => true
  | .strSetReset _ => true
  | .strInvalidate _ => true
  | .strPartWrite _ _ _ => true
  | .tierAccess req _ => req.wf
  | .tierReadDeliver _ _ => true
  | .tierWriteDone _ => true
  | .tierTimeout _ => true
  | .alloc _ _ _ => true
  | .free _ => true
  | .freeComplete _ => true
  | .setPlace _ _ => true
  | .pageRead _ => true
  | .migrationChoice => true
  | .moveSwitch _ => true
  | .decayTick => true
  | .patrolRead _ => true
  | .sampleWrite vals _ => decide (vals.length = 32)
  | .tdmFrameSync _ _ => true
  | .muteNFall => true
  | .muteNRise => true
  | .releaseQualified => true
  | .settleEnd => true
  | .hopEnd => true
  | .breezeRunEnd _ _ _ _ _ => true
  | .gustPost => true
  | .wqRdWrite _ _ => true
  | .agActivate _ _ => true
  | .agStop _ _ => true
  | .agSeek _ _ => true
  | .audioBlockDeliver _ => true
  | .brzSpmData _ _ => true
  | .brzIdxLoRead _ => true
  | .agCurLoRead _ _ => true
  | .frameStart _ _ _ _ => true
  | .lineReceive _ _ _ _ _ px _ => px.all (fun c => decide (c < 65536))
  | .frameEnd _ _ _ => true
  | .stripeGrant => true
  | .frameDone _ => true
  | .ccPost _ _ _ => true
  | .ccPacketDone _ _ _ _ => true
  | .ccBusTimeout _ => true
  | .ccMemData _ _ _ => true
  | .lutData _ _ => true
  | .ispOutRel _ _ _ _ => true
  | .decAuPtrWr _ _ _ => true
  | .auFetch _ => true
  | .decodeStart _ info => match info.hdr with | some h => decide (h.w < 65536 ∧ h.h < 65536) | none => true
  | .sliceBoundary _ _ _ _ => true
  | .decodeAbandon _ _ _ => true
  | .decodeDone _ _ => true
  | .xfmStart => true
  | .xfmDone => true
  | .xfmRel _ _ _ => true
  | .sqDoorbell _ _ _ _ => true
  | .cqDoorbell _ _ _ => true
  | .sqFetch _ => true
  | .job _ _ => true
  | .dmaEntry _ => true
  | .fence _ => true
  | .streamWrite _ => true
  | .streamOp _ => true
  | .region _ => true
  | .model _ => true
  | .share _ => true
  | .account _ => true
  | .completionWrite _ _ => true
  | .heartbeatSample _ => true
  | .resume _ _ => true
  | .bar2Read _ off len _ => decide (0 < len ∧ off + len ≤ bar2Max)
  | .bar2Write _ off bytes _ _ => decide (bytes ≠ [] ∧ off + bytes.length ≤ bar2Max)
  | .functionLevelReset _ => true
  | .vfEnable _ _ => true
  | .pe1PerstN => true
  | .scrubKeyErase _ => true
  | .create _ _ _ => true
  | .destroy _ _ _ => true
  | .sliceEnd _ _ => true
  | .contextSwitch _ _ => true
  | .jobDone _ _ => true
  | .jobLimit _ _ => true
  | .rotationExchange _ _ _ _ => true
  | .ctlXcopy _ _ => true
  | .teardown _ _ => true
  | .stage _ _ _ => true
  | .activate _ => true
  | .cancel _ => true
  | .updHandover => true
  | .updWaitExpiry => true
  | .ccWatchdog _ => true
  | .sramDoubleBit _ => true
  | .kernelAssertion _ => true
  | .controlCoreFail _ _ => true
  | .dumpAonRead _ => true
  | .flitReceive _ flit _ _ _ _ => flit.wf
  | .replayTimeout _ => true
  | .laneFail _ _ => true
  | .portTrainingDone _ _ _ partner => partner.wf
  | .collectiveStart _ _ _ => true
  | .chunkReceive _ _ _ chunk _ _ _ _ _ => decide (chunk < 65536)
  | .collectiveComplete _ _ => true
  | .collWaitTimeout _ => true
  | .laneTest _ _ => true
  | .coreRetire _ _ _ => true
  | .maintenanceDrain _ _ _ => true
  | .policyChange _ => true
  | .logFlush => true
  | .partnerWindowEnd _ => true
  | .wearSnapshot _ => true
  | .pwrFailNFall => true
  | .pwrFailNRise => true
  | .relSvcWrite _ _ => true
  | .coldReset out => out.wf
  | .warmReset => true
  | .perstNRise out => out.wf
  | .railUndervoltage _ => true
  | .writeConfig _ _ _ => true
  | .writeBoard _ _ _ => true
  | .arRaise _ => true
  | .provision => true
  | .attGo _ => true
  | .attSignDone => true
  | .secAttDataRead _ => true
  | .secIdDataRead _ => true
  | .rotateGo _ _ => true
  | .walkGranule _ outs => decide (outs.length = 8)
  | .rotationRetire _ => true
  | .confSet _ _ => true
  | .confClear _ _ => true
  | .thermalSample temps => decide (temps.length = 8)
  | .pllUnlock => true
  | .pllRelock => true
  | .domModeOff _ _ => true
  | .domModeRetention _ _ => true
  | .domModeOn _ _ => true
  | .domainEntry _ => true
  | .domainEntryDone _ => true
  | .domainExitDone _ _ => true
  | .timerWake => true
  | .clkDtimeLoRead _ => true
  | .powerEstimate => true
  | .telPowerRead _ => true
  | .laneInj _ _ _ _ _ => true
  | .testFlitSend _ => true
  | .memTestGo _ _ => true
  | .memTestDone _ => true
  | .extest _ _ => true
  | .samplePreload _ _ => true
  | .idcode => true
  | .clamp => true
  | .highz => true
  | .extestPulse _ _ => true
  | .extestTrain _ _ => true
  | .testEnter => true
  | .bypass => true
  | .dbgRead space addr _ _ => space.val != 0 && space.val != 1 || addr.toNat % 4 == 0
  | .dbgWrite space addr _ _ => space.val != 0 && space.val != 1 || addr.toNat % 4 == 0
  | .setdasa _ => true
  | .entdaa _ => true
  | .sbPointerWrite _ => true
  | .sbPrivateRead _ => true
  | .sbPrivateWrite _ _ => true
  | .regRead _ addr => decide (addr % 4 = 0 ∧ addr < bar0Size)
  | .stripeEnd => true
  | .sramSingleBit _ => true
  | .eraseDone => true
  | .flashProgramDone _ => true
  | .flashProgramTimeout _ => true
  | .checkerLock _ _ => true
  | .checkerLockLoss _ _ => true
  | .testLogicReset => true
  | .msiXTableWrite _ _ _ => true
  | .pcieLinkError _ => true

end Sys2Proof
end

