-- ==== Sys2Proof/Tests/Slice0.lean ====
section
/-! SUPPORT. Tests/Slice0.lean: the author's own tests. Each check of WellFormed refuses an ill-formed command; values of the
manual's worked examples; and, for every statement that has hypotheses, states that meet them. -/

namespace Sys2Proof.Tests
open Sys2Proof Sys2Proof.Machine
set_option maxRecDepth 20000
set_option Elab.async false

/-- The state after the command `c`, where it completes. -/
def after (c : Instr) (s : State) : State := match exec c s with | .next t => t | _ => s

/-- A part in service: booted, its clocks valid, every domain on. -/
def up : State := ([(R.SEC_BOOT, 7#32), (R.CLK_STATUS, 3#32)]
  ++ (List.range 31).map (fun d => (R.PWR_DOM_STATUS d, 2#32))).foldl (fun t q => t.setReg q.1 q.2) State.reset

/-- Core `n` runs CX0 and stands at slot 0, which holds `w`. -/
def atWord (n w : Nat) (s : State) : State :=
  ((s.modCore n (fun c => { c with ctx := some 0 })).setSeqState n Seq.running).setSlot n 0 (BitVec.ofNat 64 w)

def openBy (iid : Nat) (s : State) : State := s.setTxn 2 { openTxn := some ⟨iid, 7, []⟩ }

def full (s : State) : State := s.setTxn 2 { openTxn := some ⟨16, 7, []⟩, pend := List.replicate 4 ⟨16, 1, [], 0, 0, none, 0, false, false, false, false, none⟩ }

def commit0 : PendCommit := ⟨16, 7, [⟨R.MGT_TEL_POWER, 1#32, 1#32⟩], 0, 0, none, 0, true, false, false, false, none⟩

def grp (_iid : Nat) (fired released : Bool) (s : State) : State :=
  (s.setTxn 3 { pend := [{ commit0 with apply := 4, group := some 3, fired := fired, released := released, reached := false }] }).setGroup 3
    { fired := fired }

def walking (link : Nat) : State := up.setReg R.FAB_WALK_STATUS (BitVec.ofNat 32 (1 + 4 * link))

/-- The sixteen words of a descriptor in slots `q` to `q` + 7 of core `n`. -/
def withDesc (n q : Nat) (d : List Nat) (s : State) : State :=
  (List.range 8).foldl (fun t i => t.setSlot n (q + i) (BitVec.ofNat 64 (d.getD (2 * i) 0 + 2 ^ 32 * d.getD (2 * i + 1) 0))) s

/-- Core `n` at an ISSUE of the descriptor `d`, for CX0. -/
def atIssue (n : Nat) (d : List Nat) (s : State) : State := withDesc n 8 d (atWord n (2 ^ 58 + 8) s)

/-- Region `r` of core `n`: `size` rows from `base` for CX0, with MODE, PROD_KIND, HEAD and TAIL, within SPD_RANGE[0]. -/
def withRegion (n r base size mode kind head tail : Nat) (s : State) : State :=
  ((((((s.setReg (R.SPD_REGION_GEOM n r) (BitVec.ofNat 32 (base + 65536 * size))).setReg (R.SPD_REGION_OWNER n r)
    (BitVec.ofNat 32 (128 + 256 * mode + 1024 * kind))).setReg (R.SPD_REGION_HEAD n r) (BitVec.ofNat 32 head)).setReg
    (R.SPD_REGION_TAIL n r) (BitVec.ofNat 32 tail)).setReg (R.SPD_RANGE_LO n 0) 0xFFFF0000#32).setReg (R.SPD_RANGE_HI n 0) 128#32)

def eltOk : State := atIssue 17 [8, 0x12340000] up

def eltBad : State := atIssue 17 [8 + 0x800, 0x12340000] up

def eltRun : State := after (.eltwise 17 false) eltOk

def eltHead : OpFlight := ((eltRun.headOp 17).getD ⟨.gemm, [], 0, 0, 0, [], 0, 0, 0, 0, 0, none, [], [], ⟨0, 0, 0⟩, none, false, false, false, 0, false, [], []⟩)

def reg0 : State := withRegion 17 63 65528 8 0 0 7 0 up

def injCore (l : Loc) (sw : Bool) (s : State) : State := s.modCore 17 (fun c => { c with ops := c.ops.map (fun o => { o with loc := l, swapping := sw, run := 3 }) })

def swapWait : State := injCore ⟨1, 16, 31⟩ true eltRun

def swapHead : OpFlight := (swapWait.headOp 17).getD eltHead

def worn : State := up.modCore 17 (fun c => { c with spareDue := [(16, false), (3, true)] })

def dogged : State := eltRun.setFld (R.ARR_WDOG 17) F.ARR_WDOG_LIMIT 1

def ins (op lo : Nat) (s : State) : State := atWord 17 (op * 2 ^ 58 + lo) s

def sem5 (s : State) : State := s.setReg (R.SEQ_SEM 17 63) 5

def rgn63 (s : State) : State := withRegion 17 63 0 8 0 0 5 2 s

/-- An operation in flight on core 17, whose sequencer stands at the word `w`. -/
def flyAt (w : Nat) : State := (eltRun.setSlot 17 1 (BitVec.ofNat 64 w))

def noFlight (s : State) : State := s.modCore 17 (fun c => { c with ops := [] })

def lp (n : Nat) (s : State) : State := s.modCore 17 (fun c => { c with loops := List.replicate n ⟨0, 0, 2⟩ })

/-- The model image of MODEL_ID 31 at slot 16,368, every entry of CX0. -/
def modelled (s : State) : State := (s.setReg (R.SEQ_MODEL 17 31) (wordSet (wordSet (wordSet 0 F.SEQ_MODEL_VALID 1) F.SEQ_MODEL_IMAGE 16368) F.SEQ_MODEL_ENTRY 77)).setSlot 17 16383 (BitVec.ofNat 64 (0x00080100 + 2 ^ 32 * (63 * 2 ^ 22)))

/-- Cores 3 and 17 as a gang of two in CX0, each at the word `w` of slot 0. -/
def gang (w : Nat) (s : State) : State :=
  ((atWord 17 w (atWord 3 w s)).setReg (R.ARR_GANG 3) (wordSet (wordSet 0 F.ARR_GANG_SIZE_LOG2 1) F.ARR_GANG_GANG_ID 2)).setReg (R.ARR_GANG 17)
    (wordSet (wordSet (wordSet 0 F.ARR_GANG_SIZE_LOG2 1) F.ARR_GANG_GANG_ID 2) F.ARR_GANG_POS_COL 1)

def barr : State := gang (11 * 2 ^ 58) up

def barrW : State := after (.barrier 3) (after (.barrier 17) barr)

def gelt (d : List Nat) : State := withDesc 3 8 d (withDesc 17 8 d (gang (2 ^ 58 + 8) up))

def geltW (d : List Nat) : State := after (.eltwise 3 false) (after (.eltwise 17 false) (gelt d))

def gGood : State := (geltW [8 + 16, 0x12340000])

def gBad : State := (geltW [8 + 16 + 0x800, 0x12340000])

/-- Core 17 at an ISSUE of a transfer of direction `dir` on channel 3. -/
def xf (dir : Nat) : State := atIssue 17 [10, 0x12340000, dir + 48 + 63 * 2 ^ 14 + 63 * 256 + 3 * 2 ^ 20, 0, 0, 0, 2, 0, 0, 0, 0xA1B2C3D4] up

def pg (k : Nat) : State := atIssue 17 [6, 0x12340000, k * 2 ^ 23, 0, 0, 0, 0, 0, 0, 0, 0, 0, 0, 0, 0, 192] up

def dfull (s : State) : State := s.setChan 17 3 { s.chan 17 3 with queue := List.replicate 8 ⟨.dma, [], 0, true, none⟩ }

def posted (dir : Nat) : State := ((after (match dir with | 0 => .dmaDaToRegion 17 | 1 => .dmaRegionToDa 17 | 3 => .dmaDaToImem 17 | _ => .dmaFill 17) (xf dir)))

def pd (dir : Nat) : DmaDesc := ((posted dir).chan 17 3).queue.headD ⟨.dma, [], 0, true, none⟩

def postedR (dir kind : Nat) : State := withRegion 17 63 65520 16 0 (1 + 0 * kind) 7 0 (posted dir)

def heldDma : State := (posted 0).setFld (R.SPD_DMA_CTRL 17 3) F.SPD_DMA_CTRL_HOLD 1

/-- Channel 3 of core 17 waits for room for the last of two rows of a fill. -/
def fillW : State := ((postedR 5 1).setFld (R.SPD_REGION_OWNER 17 63) F.SPD_REGION_OWNER_PROD_ID 3).setChan 17 3 { ((postedR 5 1).chan 17 3) with queue := [], cur := some (pd 5), moved := 1, room := true }

def relS : State := withRegion 17 63 0 8 0 0 (3 + 0x10000) 5 up

def bank (s : State) : State := s.modCore 17 (fun c => { c with bankDue := [95, 1] })

def resv (s : State) : State := { s with recs := { s.recs with reserve := true } }

def gone (s : State) : State := s.modCore 17 (fun c => { c with bankGone := [96, 97, 98, 99] })

def swapping : State := up.modCore 17 (fun c => { c with bankSwap := some ⟨95, 99⟩ })

def setParts (s : State) : State := ((s.setReg (R.STR_PART 0) (wordSet (wordSet (wordSet 0 F.STR_PART_BASE 4090) F.STR_PART_COUNT 6) F.STR_PART_SWAP_CHAN 3)).setReg R.STR_SEL 4095)

/-- Entry 4095 is stream 5 of CX0 on core 17, with its slots in rows 0 and 1, at location `l`. -/
def stream (l : Nat) (s : State) : State := (setParts s).setStr 4095 0 (BitVec.ofNat 32 (1 + 17 * 256 + l * 8192 + 65536 + 2 ^ 17))

def scanD : List Nat := [7, 0x12340040, 0x00800000, 63, 0, 0, 0x00010005, 1, 0, 1]

def scanS (l : Nat) : State := atIssue 17 scanD (stream l (withRegion 17 62 0 2 1 0 0 0 (withRegion 17 63 8 4 0 0 2 0 up)))

def scanFull : State := (scanS 0).modCore 17 (fun c => { c with scanQ := List.replicate 16 ⟨[], 0, 9, 0, false⟩ })

def scanW : State := after (.scan 17) (scanS 0)

def scanC : ScanChunk := ((scanW.core 17).scanQ.headD ⟨[], 0, 9, 0, false⟩)

def scanBad : State := scanW.setReg (R.SPD_REGION_HEAD 17 63) 0

def scanLost : State := stream 2 scanW

def stage (s : State) : State := (List.range 4).foldl (fun t w => t.setReg (R.STR_STAGE w) (BitVec.ofNat 32 (w + 9))) s

def strIdle : State := stage (stream 0 up)

def strHeld : State := stage (stream 1 up)

def strOut : State := (stage (stream 1 up)).setReg R.STR_SEL 4089

def outReq : State := after (.strSwapOut 16) strIdle

def outRun (s : State) : State := s.setChan 17 3 { cur := some ⟨.swapOut 4095, swapDesc s 4095 true, 0, false, none⟩, moved := 1 }

def outGo : State := outRun (stream 1 up)

def inGo : State := (stream 3 up).setChan 17 3 { cur := some ⟨.swapIn 4095, swapDesc (stream 3 up) 4095 false, 0, false, none⟩, moved := 1 }

def mapped (s : State) : State :=
  (((s.setReg (R.MT_RNG_BASE_LO 0 0 15) (wordSet (wordSet (wordSet 0 F.MT_RNG_BASE_LO_VALID 1) F.MT_RNG_BASE_LO_R 1) F.MT_RNG_BASE_LO_W 1)).setReg
    (R.MT_RNG_LIMIT_LO 0 0 15) 0xFFFFF000#32).setPage 3 { owner := some 0, tier := 1, frame := 9, place := 0, age := 254, epoch := 0, moving := false })

def daIn : Nat := 4 * 2 ^ 21 - 512

def rd : State := after (.tierAccess (.engine 0 daIn none) false) (mapped up)

def wr : State := after (.tierAccess (.engine 0 daIn (some (List.replicate 512 7#8))) false) (mapped up)

def pgSel (p : Nat) (s : State) : State := s.setReg R.MT_PG_SEL (BitVec.ofNat 32 p)

def recs8 (s : State) : State := { s with recs := { s.recs with t0 := 3, t1 := 2 } }

def p2 (s : State) : State := pgSel 2 (recs8 (mapped s))

def p3 (s : State) : State := pgSel 3 (recs8 (mapped s))

def quota (s : State) : State := s.setReg (R.MT_PIN_QUOTA 15) 1

def freed : State := after (.free 16) (p3 up)

def jobF (s : State) : State := (s.setPage 3 { owner := some 5, tier := 1, frame := 0, place := 0, age := 255, epoch := 1, moving := true }).modMt (fun m => { m with job := some (.fill 3) })

def brzAt (w : Nat) (s : State) : State := s.modBrz (fun z => { z with written := w })

def live : State := (brzAt 7 ((up.setReg R.BRZ_MUTE 6).setReg R.BRZ_FE_CFG 0x600FF)).modBrz (fun z => { z with chSettle := [] , usedLp := up.fld R.BRZ_FE_CFG F.BRZ_FE_CFG_LP})

def mdl (s : State) : State := ((s.setReg (R.BRZ_MODEL_LOC 15) 0x80010000#32).setReg (R.BRZ_MODEL_CFG 15) (wordSet (wordSet 0 F.BRZ_MODEL_CFG_HOP 7) F.BRZ_MODEL_CFG_EVENT 200)).setReg (R.BRZ_MODEL_THR 15) 0x3C00

def hopped : State := after .hopEnd (mdl live)

def wqFull7 (s : State) : State := s.setReg R.BRZ_WQ_PTR (wordSet (wordSet 0 F.BRZ_WQ_PTR_WR 127) F.BRZ_WQ_PTR_RD 64)

/-- A post of the Gust core 17 in raw region 63. -/
def gustS (e : Nat) (s : State) : State :=
  (((withRegion 17 63 4 2 1 0 0 0 s).setReg R.BRZ_GUST (wordSet (wordSet (wordSet (wordSet 0 F.BRZ_GUST_CORE 17) F.BRZ_GUST_POST_SEM 63) F.BRZ_GUST_POST_REGION 63) F.BRZ_GUST_POST_EN 1)).setReg (R.SEQ_SEM 17 63) 3).writeRow 17 4 ([e, 0, 0, 0, 0, 0, 0, 0, 2, 0, 0, 0, 0, 0, 0, 0, 6].map (BitVec.ofNat 8)) 0

/-- Group 15 delivers blocks of 64 samples of channels 0 and 31 to region 63 of core 17. -/
def agS (s : State) : State :=
  (((withRegion 17 63 65520 16 0 5 15 15 (brzAt 200 s)).setFld (R.SPD_REGION_OWNER 17 63) F.SPD_REGION_OWNER_PROD_ID 15).setReg (R.BRZ_AG_CFG 15)
    (wordSet (wordSet (wordSet (wordSet 0 F.BRZ_AG_CFG_EN 1) F.BRZ_AG_CFG_BLOCK 1) F.BRZ_AG_CFG_CORE 17) F.BRZ_AG_CFG_REGION 63)).setReg (R.BRZ_AG_CH 15) 0x80000001

def agGo : State := (after (.agSeek 16 15) ((agS live).setReg (R.BRZ_AG_SEEK_LO 15) 136))

def spmS (s : State) : State := s.setReg R.BRZ_SPM_ADDR 131071

def spmArm (s : State) : State := s.setReg (R.BRZ_MODEL_LOC 15) (0x80010000#32 + 1023#32)

def camOn (s : State) : State :=
  (((s.setReg (R.ISP_PORT_CFG 7) 1).setReg (R.ISP_CAM_CFG 15)
    (wordSet (wordSet (wordSet (wordSet (wordSet 0 F.ISP_CAM_CFG_EN 1) F.ISP_CAM_CFG_PORT 7) F.ISP_CAM_CFG_VC 3) F.ISP_CAM_CFG_DT 0x2A) F.ISP_CAM_CFG_MONO 1)).setReg
    (R.ISP_CAM_GEOM 15) (wordSet (wordSet 0 F.ISP_CAM_GEOM_WIDTH 4) F.ISP_CAM_GEOM_HEIGHT 2)).setReg (R.ISP_CAM_LB 15) (wordSet (wordSet 0 F.ISP_CAM_LB_READY_LINES 1) F.ISP_CAM_LB_LB_LINES 2)

def cam0 : State := (camOn up).setCam 15 { count := 2 ^ 32 - 1 }

def cam1 : State := after (.frameStart 7 3 0xABCD .good) cam0

def fr (s : State) : IspFrame := (s.cam 15).frames.getLast?.getD ⟨0, 0, 0, 0, [], 0, false, 0, [], 0, 0, false, 0, false, none, none, none, 0, 0, 0, false, 0, 0, 0⟩

def line (s : State) : State := after (.lineReceive 7 3 0x2A .good true [1, 2, 3, 4] 1000) s

def cam2 : State := line (line cam1)

def cam3 : State := after .stripeGrant cam2

def cam4 : State := after (.frameEnd 7 3 .good) (after .stripeEnd cam3)

def ccS (k d : Nat) (s : State) : State := (s.setReg (R.ISP_CC_CFG 3) 1).setCcBus 3 { posted := List.replicate k ⟨15, 1, 0, 2, 7, 0⟩, due := List.replicate d ⟨15, 9, 510, 5, 8, 2 ^ 32 - 1⟩ }

def postW : Word := 15 + 3 * 16 + 511 * 4096

def lutS (s : State) : State := (s.setReg R.ISP_LUT_SEL (15 + 16 + 2047 * 256)).modIsp (fun z => { z with lut := [(lutKey 15 1 0 2047, 9)] })

def memS (a : Nat) : State := (ccS 0 1 cam0).setReg (R.ISP_CC_MEM_ADDR 3) (BitVec.ofNat 32 a)

def auBytes : List Byte := (leBytes 6 0x123456 ++ leBytes 1 1 ++ [0] ++ leBytes 4 777 ++ leBytes 4 0xABCD ++ leBytes 8 0x1122334455 ++ leBytes 4 9 ++ leBytes 4 10).map id ++ List.replicate 480 0

def auS : State := ((storeSector 0 (3 * 2 ^ 21) 0 auBytes (mapped up)).setReg (R.DEC_CTX_CFG 31) 1 |>.setReg (R.DEC_AU_LO 31) 0x600000).setReg (R.DEC_AU_PTR 31) 1 |>.setReg (R.DEC_AU_SLOTS 31) 1

def auF : State := after (.auFetch 31) auS

def pic (s : State) : DecPic := (s.dec 31).cur.getD ⟨0,0,0,0,0,0,0,0,0,0,0,0,0,0,0,none,0,0,false,false,true,[]⟩

def dec1 : State := after (.decodeStart 3 ⟨none, false, []⟩) auF

def budget (b : Nat) (w : List Nat) (s : State) : State :=
  let t := s.setDec 31 { s.dec 31 with cur := some { pic s with regs := [(R.DEC_CTX_BUDGET 31, BitVec.ofNat 32 b)] } }
  t.setEng 3 { t.eng 3 with ready := w }

def decB : State := budget 1 [5] dec1

def decA : State := budget 1 [] dec1

def outS (n : Nat) (dest : Nat) (age : Nat) (s : State) : State :=
  let t := s.setDec 31 { s.dec 31 with out := List.replicate n { pic auF with decoded := true, auFlags := 0, capture := 0 } }
  (((withRegion 17 63 65528 8 0 4 0 0 t).setFld (R.SPD_REGION_OWNER 17 63) F.SPD_REGION_OWNER_PROD_ID 47).setReg (R.XFM_CFG 31)
    (wordSet (wordSet (wordSet (wordSet 1 F.XFM_CFG_DEST dest) F.XFM_CFG_CORE 17) F.XFM_CFG_REGION 63) F.XFM_CFG_CHAN 2)).setReg (R.FEED_MAX_AGE 47) (BitVec.ofNat 32 age)

def op : DecPic := { pic auF with decoded := true, auFlags := 0, capture := 0 }

def out0 : State := outS 2 0 0 up

def out1 : State := outS 2 1 0 up

def outOld : State := { outS 2 0 5 up with dtime := 100 }

def xrun : State := after .xfmStart out0

def fnOn (st : Nat) (s : State) : State := setFnState 15 st s

/-- CX127 of tenant 15 with its queue 3, of 4 slots, at FETCH `fe` and TAIL `ta`. -/
def sq (fe ta : Nat) (s : State) : State :=
  (s.setReg (R.HIF_SQ_CFG 15 7 3) (wordSet 1 F.HIF_SQ_CFG_SLOTS 4)).setReg (R.HIF_SQ_STATUS 15 7 3) (BitVec.ofNat 32 (fe + 65536 * ta))

def cq (wr hd : Nat) (s : State) : State :=
  (s.setReg (R.HIF_CQ_CFG 15 7) (wordSet 1 F.HIF_CQ_CFG_SLOTS 4)).setReg (R.HIF_CQ_STATUS 15 7) (BitVec.ofNat 32 (wr + 65536 * hd))

def h1 : State := cq 4097 1 (sq 4098 4098 (fnOn 1 up))

def hm : State := h1.modFn 15 (fun x => { x with pend := [1023, 2] })

/-- A page of tenant 15 under the range set of its function, and its rings in it. -/
def hmap (s : State) : State :=
  ((((s.setReg (R.MT_RNG_BASE_LO ((128 + 15) / 8) ((128 + 15) % 8) 15) (wordSet (wordSet (wordSet 0 F.MT_RNG_BASE_LO_VALID 1) F.MT_RNG_BASE_LO_R 1) F.MT_RNG_BASE_LO_W 1)).setReg
    (R.MT_RNG_LIMIT_LO ((128 + 15) / 8) ((128 + 15) % 8) 15) 0xFFFFF000#32).setPage 3 { owner := some 15, tier := 1, frame := 9, place := 0, age := 254, epoch := 0, moving := false }).setReg (R.HIF_SQ_BASE_LO 15 7 3) 0x600000).setReg (R.HIF_CQ_BASE_LO 15 7) 0x601000

def exi (s : State) : State := s.setReg (R.CTL_CX_INFO 127) 1

def q0 : State := exi (hmap (cq 4099 4099 (sq 1 3 (fnOn 1 up))))

/-- The queue's next entry holds opcode `op`. -/
def qop (op : Nat) (s : State) : State := storeSector 15 0x600000 0 (List.replicate 128 0 ++ leBytes 4 op ++ List.replicate 380 0) s

def ent (op fl : Nat) (st : EntSt) : Entry := ⟨9, 127, 3, op, fl, 1, 0xAB, 0, [0x30#32, 0, 0, 0, 1, 0, 0, 0, 0, 0, 0, 0], st⟩

def qe (op fl : Nat) (st : EntSt) : State := (q0.setCtx 127 { cores := [17] }) |> fun s => { s with hif := { s.hif with entries := [{ ent op fl (.done 0 0 0 0) with id := 8, queue := 2 }, ent op fl st] } }

def qd : State := (qe 3 4 (.done 1 2 3 4))

def f1 : State := fnOn 1 up

def beat (n : Nat) (s : State) : State := storeSector 15 0x600000 0 (leBytes 4 n ++ List.replicate 508 0) s

def fb (st : Nat) : State := (beat 6 (fnOn st q0)).modFn 15 (fun x => { x with beats := [(511, 6)], lastChange := 7 })

def late (s : State) : State := { s with dtime := s.fld (R.HIF_HB_CFG 15) F.HIF_HB_CFG_TIMEOUT * 24576 + 7 }

def fl : State := (fnOn 2 up).modFn 15 (fun x => { x with changed := true })

/-- CX127 exists with context core 0 on core 17 and a running job. -/
def busyFn (st : Nat) : State := (exi (fnOn st up)).setCtx 127 { cores := [17], place := [⟨0, 16, 0, 4, 0, 128, 3⟩] }

def split1 : State := (fnOn 1 up).setFld R.HIF_LINK_CFG F.HIF_LINK_CFG_SPLIT 1

def scr (m : Nat) : State := (((mapped up).setPage 4 { owner := some 15, tier := 1, frame := 8, place := 0, age := 4, epoch := 1, moving := false }).setReg (R.HIF_SQ_CFG 15 7 3) 1).setReg R.SEC_CONF (BitVec.ofNat 32 m) |> fnOn 3

def b2 (st : Nat) : State := (hmap (fnOn st up)).setReg (R.HIF_BAR2_BASE_LO 15) 0x600000

def cb (st : EntSt) (core : Nat) (body : List Word) : Entry := ⟨9, 127, 3, 4, 0, 1, 0xAB, core, body, st⟩

def con (cmd core idx : Nat) (d : List Word) : State :=
  ({ q0 with hif := { q0.hif with entries := [cb .fetched core ([BitVec.ofNat 32 (cmd + 256 * core + 65536 * idx)] ++ d)] } }).setCtx 127 { cores := [3, 17], place := [⟨0,1024,0,1,0,256,0⟩, ⟨1024,1024,1,2,256,256,3⟩], strBase := 4090, strCount := 6, saved := [freshImage 17] }

def cbe (cmd core idx : Nat) (d : List Word) : Entry := cb .fetched core ([BitVec.ofNat 32 (cmd + 256 * core + 65536 * idx)] ++ d)

def acc (da : Nat) : List Word := [0,0,0,0, BitVec.ofNat 32 da, 0]

def rg : List Word := [0x0FFF1234, 0xFFFFFFFF, 0xFFFFFFFF, 0xABCDEF01]

def md : List Word := [0x80050003]

def res (s : State) : State := s.modCore 17 (fun c => { c with ctx := some 127 })

def sown (l : Nat) (s : State) : State := { s with streams := (stream l up).streams } |> fun s => (s.setReg (R.STR_PART 127) (wordSet (wordSet 0 F.STR_PART_BASE 4090) F.STR_PART_COUNT 6)).setStr 4095 0 (BitVec.ofNat 32 (1 + 17 * 256 + l * 8192 + 65536 + 2 ^ 17 + 127*2))

def so (c l : Nat) (d : List Word): State := sown l (con c 1 5 d)

def w17 : List Word := [0xFF83E001 + 0x00020000, 0x00050008, 0xFFFFFFFF, 0xFFFFFFFF]

def swp : State := (withRegion 17 63 8 4 1 0 0 0 (so 1 0 w17)).setFld (R.SPD_REGION_OWNER 17 63) F.SPD_REGION_OWNER_CTX 127 |> fun s => (s.setReg (R.SPD_RANGE_HI 17 0) 255#32)

def jb (mask gang slot batch sem lim : Nat) (st : EntSt) : Entry := ⟨9, 127, 3, 1, 0, 1, 0xAB, 0, [BitVec.ofNat 32 (mask + 65536 * gang), BitVec.ofNat 32 slot, BitVec.ofNat 32 batch, BitVec.ofNat 32 sem, BitVec.ofNat 32 lim, 0,0,0,0,0,0,0], st⟩

def jbS (e : Entry) : State := ({ q0 with hif := { q0.hif with entries := [e] } }).setCtx 127 { cores := [3, 17], place := [⟨0,1024,0,1,0,256,0⟩, ⟨1024,1024,1,2,256,256,3⟩], strBase := 4090, strCount := 6, saved := [freshImage 3, freshImage 17] }

def j2 : Entry := jb 3 1 5 0xFFFF 63 7 .fetched

def j0 : Entry := jb 0 0 5 0xFFFF 63 7 .fetched

def shS (s : State) : State := (s.setReg (R.CTL_CX_SHARE 127) 3).setReg (R.CTL_TEN_SHARE 15) 7

def jr : State := shS (after (.job 9 12345) (jbS j2))

def jj (s : State) : Job := s.ctl.jobs.headD ⟨0,0,[],0,0,0,0,0,.runnable,false,[],0,0,0,0⟩

def jd : State := { jr with ctl := { jr.ctl with jobs := [{ jj jr with st := .draining, held := [17] }] } }

def jdr : State := jd.setSeqState 17 Seq.drained

def jrun : State := jd.setSeqState 17 Seq.running

def hd (n : Nat) (s : State) : State := (s.setSeqState n Seq.halted).modCore n (fun c => { c with doneSig := true })

/-- A CREATE of tenant 15's context 7 on `n` cores with `rows` KiB-rows. -/
def mb (n rows : Nat) (s : State) : State :=
  (((s.setReg R.CTL_MB_ARG0 (wordSet (wordSet (wordSet (wordSet 0 F.CTL_MB_ARG0_CORES n) F.CTL_MB_ARG0_ROWS rows) F.CTL_MB_ARG0_REGIONS 2) F.CTL_MB_ARG0_IMEM 1)).setReg
    R.CTL_MB_ARG1 (wordSet 0 F.CTL_MB_ARG1_SHARE 1000)).setFld R.CTL_MB_DA_LO F.CTL_MB_DA_LO_STATUS_DA (0x600400 / 512))

def cr0 : State := mb 2 1 (hmap (fnOn 1 (up.setReg (R.CTL_CX_INFO 127) 0)))

/-- Every core but 17 taken out of service. -/
def few (s : State) : State := (List.range 17).foldl (fun t n => t.setReg (R.REL_CORE n) 2) s

def cr1 : State := few cr0

def ex : State := (exi cr0).setCtx 127 { cores := [3, 17], place := [⟨0,1024,0,1,0,256,0⟩, ⟨1024,1024,1,2,256,256,3⟩], strBase := 4090, strCount := 6, saved := [freshImage 17] }

def ft : State := (ex.modCtx 127 (fun c => { c with fault := some ⟨3, 1, 17, 0, 5, 9⟩ })) |> fun s => { s with hif := { s.hif with entries := [ent 3 0 .started, { ent 3 0 .fetched with id := 10 }] } }

def ft2 : State := (iter 4 (fun q t => t.setReg (R.HIF_SQ_STATUS 15 7 q) 0) (after (.teardown 127 99) ft)) |> fun s => { s with hif := { s.hif with entries := [] }, spad := [((rowAddr 17 1025) + 3, 9)]}

def mv : State := (ex.modCtx 127 (fun c => { c with place := [⟨0,2,0,1,0,2,0⟩, ⟨65534,2,61,3,256,2,3⟩] })) |> fun s => { s with spad := [(rowAddr 17 65535 + 511, 9)] }

def xcv (b f c : Nat) : Word := wordSet (wordSet (wordSet (wordSet 0 F.CTL_XCOPY_SRC_CORE 17) F.CTL_XCOPY_DST_CORE b) F.CTL_XCOPY_FIRST f) F.CTL_XCOPY_COUNT c

def xc : State := (up.setSlot 17 16383 0xAB).setSlot 0 16320 0xCD

def updD (st hand : Nat) (s : State) : State := (s.setFld R.CTL_UPD_STATUS F.CTL_UPD_STATUS_STATE st).setFld R.CTL_UPD_STATUS F.CTL_UPD_STATUS_HANDED hand

/-- Control cores 1 to 3 active, core 0 the spare; CX127 is core 2's. -/
def cc (s : State) : State := ((s.setReg (R.REL_CCORE 0) 1).setFld R.CTL_STATUS F.CTL_STATUS_ACTIVE 14).setReg (R.CTL_CX_INFO 127) (BitVec.ofNat 32 (1 + 4 * 1))

def u2 : State := updD 2 0 (cc up)

def u1 : State := updD 1 0 (cc up)

def u3 : State := let s := updD 3 7 (cc up); { s with ctl := { s.ctl with upd := { loader := some 0, done := [0], holding := some 1, since := 40 } } }

def u3w : State := (u3.setReg R.CTL_UPD_WAIT 5).setCtx 127 { tear := true }

def u3l : State := let s := ((updD 3 7 (cc up)).setFld R.CTL_STATUS F.CTL_STATUS_ACTIVE 2); { s with ctl := { s.ctl with upd := { loader := some 0, done := [0], holding := some 1, since := 40 } } }

def cr : State := (cc up).setReg (R.CTL_CX_INFO 126) (BitVec.ofNat 32 (1 + 4 * 2))

def aonS : State := (up.setReg R.CTL_DUMP_AON_ADDR 1023) |> fun s => { s with ctl := { s.ctl with aon := List.replicate 1023 0 ++ [0xABC#32] } }

def pl (st : Nat) (s : State) : State := setPortState 5 st (((s.setReg (R.PLM_PORT_CTRL 5) 1).setReg (R.PLM_PORT_MAP 5) (wordSet 0 F.PLM_PORT_MAP_DIR 4)).setReg R.PLM_TOPO (wordSet 0 F.PLM_TOPO_DZ 2))

def fl22 : Flit := ⟨1, 3, 4095, 7, false, 3, 200, 0, 15, 0xFFF, 255, [0xAB, 0xCD], none⟩

/-- Port 5 is active and expects SEQ 4095; CTAG 0xFFF of tenant 15 waits in the queue of communicator 63. -/
def pa : State := ((pl Port.active up).setPort 5 { expect := 4095, nakOut := true, unacked := 3, cred := [(3, 63)], fwd := [] })

def pe : State := { (pa.setReg (R.PLM_COMM 63) (wordSet 0 F.PLM_COMM_DIMS 7)) with plm := { pa.plm with queue := [⟨17, 127, [9, 0, 0, 0x3F000000, 0, 0, 0, 0xFFF], [17], 0⟩] } }

def rc (thr mx : Nat) (s : State) : State := s.setReg (R.PLM_RETRY_CFG 5) (wordSet (wordSet 0 F.PLM_RETRY_CFG_RETRY_THR thr) F.PLM_RETRY_CFG_RETRAIN_MAX mx)

def ptr : State := pl Port.training up

def pdeg : State := (pl Port.degraded up).setFld (R.PLM_PORT_STATUS 5) F.PLM_PORT_STATUS_LANE 1 |> fun s => s.setPort 5 { badLanes := 1 }

/-- A collective descriptor of kind `k`: INT32 sum of one row from region 62 into region 63. -/
def cd (k : Nat) : List Nat := [9, 0x12340020, 5 + 5*16 + k * 2 ^ 23, 0, 0, 0, 1, 0xFFF, 0]

def cis (k : Nat) : State := atIssue 17 (cd k) (up.setReg R.PLM_COLL_WAIT 77)

def cqd (s : State) : State := { s with plm := { s.plm with queue := List.replicate 64 ⟨3, 0, [], [3], 0⟩ } }

def cdk : List Word := [9 + 512, 0x12340040 + 5, 5 + 5*16 + 5*4096, 62 + 63 * 2 ^ 18 + 63 * 2 ^ 24, 0, 0, 1, 0xFFF, 0]

/-- Region 62 with one committed input row, region 63 the output of kind COLLECTIVE, communicator 63 of tenant 0: two devices along Z. -/
def creg (s : State) : State :=
  let t := withRegion 17 62 0 4 0 0 1 0 (withRegion 17 63 8 4 0 6 3 0 s)
  ((t.setReg (R.PLM_COMM 63) (wordSet (wordSet 0 F.PLM_COMM_DIMS 4) F.PLM_COMM_VALID 1)).setReg R.PLM_TOPO (wordSet (wordSet (wordSet 0 F.PLM_TOPO_DZ 2) F.PLM_TOPO_DX 1) F.PLM_TOPO_DY 1))

def cqs (d : List Word) : State := let s := creg up; { s with plm := { s.plm with queue := [⟨17, 0, d, [17], 0⟩] } }

def cok : State := cqs cdk

def post : CollPost := ⟨17, 0, cdk, [17], 0⟩

def cbad : State := cqs (modNth cdk 6 (fun _ => 0))

def crun : State := after (.collectiveStart 17 0 none) cok

def run0 : CollRun := crun.plm.runs.headD ⟨[],[],0,0,0,[],[],[]⟩

/-- A chunk of one row of ones for that collective on port 5. -/
def chBytes : List Byte := (List.replicate 128 [1#8, 0, 0, 0]).flatten

def digB (ok : Bool) : List Byte := [0, 0x50, 1, 1, 1, 0, 0,0,0,0,0,0,0,0,0,0] ++ ((digest 5 [chBytes]).flatMap (leBytes 4)) ++ (List.replicate 160 (0#8)) |> fun l => if ok then l else modNth l 16 (fun b => b + 1)

def ch (ok : Bool) : ChunkIn := ⟨0, 0xFFF, 3, chBytes, digB ok⟩

def crec (ok : Bool) (tries : Nat) : State := { crun with plm := { crun.plm with ports := [(5, { ins := [{ ch ok with chunk := 2 }, ch ok] })], runs := [{ run0 with sentTries := [(5, tries)] }] } }

def cdn : State := { crun with plm := { crun.plm with runs := [{ run0 with rows := run0.rows.map (fun q => (q.1, { q.2 with final := true })) }] } }

def run1 : CollRun := cdn.plm.runs.headD ⟨[],[],0,0,0,[],[],[]⟩

def le (k : Nat) : LogEntry := { cls := 3, seq := k, arg0 := k }

def stg (n : Nat) (s : State) : State := { (s.setReg R.REL_LOG_SEQ (BitVec.ofNat 32 (1020 + n))) with rel := { s.rel with staging := (List.range n).map (fun k => le (1020 + k)) } }

def relw (f : Rel → Rel) (s : State) : State := { s with rel := f s.rel }

def flw (f : Flash → Flash) (s : State) : State := { s with flash := f s.flash }

def prog (k : Nat) (s : State) : State := relw (fun r => { r with program := some (.log k), flash := [(2, le 2), (3000, le 3000)] }) s

def nx (r : FlashRec) : State := flw (fun f => { f with next := r }) up

def nxr (r : FlashRec) : State := flw (fun f => { f with next := r, retried := true }) up

def ers : State := relw (fun r => { r with erasing := true, flash := [(2, le 2), (3000, le 3000)] }) (stg 3 up)

def pfS : State := (up.setFld R.REL_LOG_STATUS F.REL_LOG_STATUS_PF 1) |> relw (fun r => { r with pfSince := some 0 })

def win (m since : Nat) : State := { relw (fun r => { r with windows := [⟨1,2,3,4,5,6⟩, ⟨Pg.plm0, 3, 2, 5, since, m⟩] }) up with dtime := 1000 * msTicks }

def lt (b : Bool) (ops : List (Nat × Nat)) : State := up.modCore 17 (fun c => { c with laneTest := b, vecOps := ops })

def due (n why : Nat) (s : State) : State := s.modCore n (fun c => { c with retireWhy := why })

def cst (n st : Nat) (s : State) : State := s.setFld (R.REL_CORE n) F.REL_CORE_STATE st

/-- CX127 on cores 3 and 17, 17 due for retirement with its sequencer halted, core 0 a cold spare. -/
def rt : State := resv (cst 0 1 (due 17 2 ((up.setSeqState 17 Seq.halted).setCtx 127 { cores := [3, 17], place := [⟨0,2,0,1,0,2,0⟩, ⟨65534,2,61,3,256,2,3⟩], saved := [freshImage 17] }))) |> fun s => s.setReg (R.CTL_CX_INFO 127) 1

def rot (s : State) : State := { s with recs := { s.recs with reserve := false } }

def mtn : State := { rot (up.setFld R.REL_THR F.REL_THR_ROTATE_H 1) with dtime := 1 * (3600 * 1000 * msTicks) }

def mt2 : State := (cst 17 2 (mtn.setSeqState 17 Seq.halted)).modCore 17 (fun c => { c with spareDue := [(16, false), (3, true)] })

def pol (p : Nat) (s : State) : State := { s with flash := { s.flash with cfg := { s.flash.cfg with policy := p } } }

def wr27 : State := { (up.setReg (R.ARR_WEAR_ROW 17 17) 7) with dtime := 24 * (3600 * 1000 * msTicks) }

def dst (d st ph : Nat) (s : State) : State := setDomState d st ph s

def dmode (d m : Nat) (s : State) : State := s.setFld (R.PWR_DOM_CTRL d) F.PWR_DOM_CTRL_MODE m

def dis (s : State) : State := { s with recs := { s.recs with coreEn := 0x1FFFF } }

def own (s : State) : State := s.setPage 3 { owner := some 15, tier := 1, frame := 9, place := 0, age := 254, epoch := 0, moving := false }

def lpw (s : State) : State := s.modCore 17 (fun c => { c with wait := .lowPower })

def tgt (t : Nat) (h : Bool) (s : State) : State := (dst 17 3 1 s).setDom 17 { (s.dom 17) with target := t, wakeHeld := h }

def ext (d f : Nat) (s : State) : State := (dst d 3 2 s).setDom d { (s.dom d) with exitFrom := f }

def alone (s : State) : State := (List.range 30).foldl (fun t d => if d = 17 then t else dst d 1 0 t) s

def stuff (s : State) : State := { ((s.setSlot 17 5 7).setReg (R.SEQ_SEM 17 9) 8).setReg (R.SPD_RET_MASK 17) (2+4+8) with spad := [(rowAddr 17 2047 + 511, 1), (rowAddr 17 2048, 2), (rowAddr 17 (3*2048) , 3)], rowPoison := [(17 * 65536 + 3, 1)] }

def lossy : State := { eltRunB with dtime := 1500 * msTicks, clk := { eltRunB.clk with losses := [1000 * msTicks, 501 * msTicks, 500 * msTicks] } }
  where eltRunB : State := up.modCore 17 (fun c => { c with ops := [⟨.gemm, [], 0, 0, 0, [], 0, 0, 0, 0, 0, none, [], [], ⟨0, 0, 0⟩, none, false, false, false, 0, false, [], []⟩] })

def wakeS : State := ((((setDomState 29 1 0 up).setReg R.PWR_WAKE_CTRL 1).setReg R.PWR_WAKE_LO 77).setReg R.PWR_WAKE_HI 1)

def idv (s : State) : State := s.setFld R.SEC_BOOT F.SEC_BOOT_ID_VALID 1

def idn (s : State) : State := { s with flash := { s.flash with ident := some 40, revoked := 1, arFw := 3 }, recs := { s.recs with floors := [5, 2, 1] } }

def att : State := after (.attGo 16) (idv up)

def att2 : State := (after .attSignDone att).setReg R.SEC_ATT_ADDR 127

def keyS (st cur : Nat) (s : State) : State := (s.setFld (R.SEC_KEY 15) F.SEC_KEY_STATE st).setFld (R.SEC_KEY 15) F.SEC_KEY_CUR cur

def pgs (s : State) : State := (s.setPage 7 { owner := some 15, tier := 1, frame := 9, place := 0, age := 254, epoch := 1, moving := false }).setPage 5 { owner := some 15, tier := 1, frame := 10, place := 0, age := 254, epoch := 1, moving := false }

def k0 : State := keyS 1 1 (pgs up)

def kr : State := after (.rotateGo 16 15) k0

def krl : State := kr.modSec (fun k => { k with walkGran := 511 })

def lane (lock : Bool) (s : State) : State := (s.setReg (R.TST_LANE_CFG 5 1) (wordSet (wordSet (wordSet 0 F.TST_LANE_CFG_CHK 1) F.TST_LANE_CFG_GEN 1) F.TST_LANE_CFG_LOOP 1)).setReg (R.TST_LANE_STAT 5 1) (wordSet (wordSet 0 F.TST_LANE_STAT_LOCK (if lock then 1 else 0)) F.TST_LANE_STAT_LOSSES 255)

def act (s : State) : State := setPortState 5 Port.active (s.setReg (R.TST_FLIT_CFG 5) (wordSet (wordSet 0 F.TST_FLIT_CFG_GEN 1) F.TST_FLIT_CFG_CHK 1))

def actL (l : Option Nat) : State := (act up).setPort 5 { testNext := 2 ^ 32 - 1, testLast := l, cred := [(2, 5), (3, 5)] }

def memS33 (tier cnt : Nat) (s : State) : State := (s.setReg R.TST_MEM_CFG (wordSet 0 F.TST_MEM_CFG_TIER tier)).setReg R.TST_MEM_COUNT (wordSet 0 F.TST_MEM_COUNT_FRAME cnt)

def pgm (mv : Bool) (o : Option Nat) (s : State) : State := s.setPage 7 { owner := o, tier := 1, frame := 1, place := 0, age := 254, epoch := 0, moving := mv }

def tstg (s : State) : State := s.modMt (fun m => { m with testing := some (1, 0, 1) })

def asleep (s : State) : State := setDomState 29 1 0 s

def bo : BootOutcome := { idOk := true, rollbackOk := true, pointerOk := true, cfgOk := true, brdOk := true, img0Ok := true, img1Ok := true, mem := [(3,4)], d2dLeft := 2, links := [(5, 8)], muteLow := false, perstLow := false }

def flS : State := { up with flash := { up.flash with ident := some 9, img0 := some ⟨1,2,3,0⟩, img1 := some ⟨5,2,3,0⟩, arFw := 3, boots := 65535 }, rel := { up.rel with flash := [(2, { cls := 5, kind := LogKind.core, unit := 17, arg0 := 3, seq := 2 })] }, spad := [(3,3)], da := [(4,4)] }

def flH : State := { flS with pins := { flS.pins with perstLow := false } , ctl := { flS.ctl with aon := [5] } }

def wr1 : State := after .warmReset (flH.setReg R.REL_SVC 5 |>.setFld R.SEC_BOOT F.SEC_BOOT_ID_VALID 1)

/-- Function 0's rotation stands before queue 511. -/
def q1 : State := { q0 with hif := { q0.hif with rotor := [(0, 510)] } }

/-! ### Each check of `Instr.wf` refuses an ill-formed command -/

def noLink : LinkInfo := ⟨0, 0, 0, 0, 0, 0, 0⟩
def idleFlit : Flit := ⟨0, 0, 0, 0, false, 0, 0, 0, 0, 0, 0, List.replicate 240 0, none⟩
def plainBoot : BootOutcome := ⟨true, true, true, true, true, true, true, [(0, 0), (0, 0), (0, 0)], 0, [], false, false⟩

theorem test_wf_regWrite_unaligned : (Instr.regWrite 16 2 0 0).wf = false := by decide
theorem test_wf_regWrite_outside_bar0 : (Instr.regWrite 16 0x4000000 0 0).wf = false := by decide
theorem test_wf_regRead_outside_bar0 : (Instr.regRead 16 0x4000000).wf = false := by decide +kernel
theorem test_wf_fabricBeat_row : (Instr.fabricBeat 0 0 0 (some (0, 49152))).wf = false := by decide
theorem test_wf_verdict_core : (Instr.verdict 0 [⟨18, [], [], false, false, none⟩]).wf = false := by decide
theorem test_wf_verdict_row : (Instr.verdict 0 [⟨0, [18], [], false, false, none⟩]).wf = false := by decide
theorem test_wf_verdict_column : (Instr.verdict 0 [⟨0, [], [18], false, false, none⟩]).wf = false := by decide
theorem test_wf_verdict_bank : (Instr.verdict 0 [⟨0, [], [], false, false, some 100⟩]).wf = false := by decide
theorem test_wf_tierAccess_channel : (Instr.tierAccess (.chan 17 4) false).wf = false := by decide
theorem test_wf_tierAccess_engine_context : (Instr.tierAccess (.engine 128 0 none) false).wf = false := by decide
theorem test_wf_tierAccess_engine_sector : (Instr.tierAccess (.engine 0 0 (some [])) false).wf = false := by decide
theorem test_wf_tierAccess_control_iid : (Instr.tierAccess (.control 20 0 none) false).wf = false := by decide
theorem test_wf_tierAccess_control_address : (Instr.tierAccess (.control 16 (2 ^ 48) none) false).wf = false := by decide
theorem test_wf_tierAccess_control_sector : (Instr.tierAccess (.control 16 0 (some [])) false).wf = false := by decide
theorem test_wf_sampleWrite_channels : (Instr.sampleWrite [] 0).wf = false := by decide
theorem test_wf_lineReceive_pixel : (Instr.lineReceive 0 0 0 .good true [65536] 0).wf = false := by decide
theorem test_wf_bar2Read_empty : (Instr.bar2Read 0 0 0 false).wf = false := by decide
theorem test_wf_bar2Write_empty : (Instr.bar2Write 0 0 [] false false).wf = false := by decide
theorem test_wf_flitReceive_type : (Instr.flitReceive 0 { idleFlit with typ := 16 } true true 0 false).wf = false := by decide
theorem test_wf_flitReceive_payload : (Instr.flitReceive 0 { idleFlit with payload := [] } true true 0 false).wf = false := by decide
theorem test_wf_portTrainingDone_direction : (Instr.portTrainingDone 0 true true { noLink with dir := 8 }).wf = false := by decide
theorem test_wf_chunkReceive_chunk : (Instr.chunkReceive 0 0 0 65536 0 false false false false).wf = false := by decide
theorem test_wf_coldReset_memories : (Instr.coldReset { plainBoot with mem := [] }).wf = false := by decide
theorem test_wf_perstNRise_links : (Instr.perstNRise { plainBoot with links := [(0, 0), (0, 0), (0, 0)] }).wf = false := by decide
theorem test_wf_walkGranule_sectors : (Instr.walkGranule false []).wf = false := by decide
theorem test_wf_thermalSample_sensors : (Instr.thermalSample []).wf = false := by decide
theorem test_wf_dbgRead_unaligned : (Instr.dbgRead 0 2 none false).wf = false := by decide
theorem test_wf_dbgWrite_unaligned : (Instr.dbgWrite 1 3 0 none).wf = false := by decide
/-- And it accepts well-formed ones. -/
theorem test_wf_accepts : (Instr.regWrite 16 0x3FFFFFC 0 0).wf = true ∧ (Instr.verdict 0 [⟨17, [17], [0], false, false, some 99⟩]).wf = true
    ∧ (Instr.flitReceive 0 idleFlit true true 0 false).wf = true ∧ (Instr.coldReset plainBoot).wf = true := by decide

/-! ### Values that the manual's worked examples and tables give -/

/-- The example of 04_number_formats.md: four accumulators through the output stage with a shift of 10. -/
theorem test_output_stage_example : (outInt .int8 1460 10 = ⟨1, false, false⟩) ∧ (outInt .int8 50000 10 = ⟨49, false, false⟩)
    ∧ (outInt .int8 (-50688) 10 = ⟨256 - 50, false, false⟩) ∧ (outInt .int8 140000 10 = ⟨127, true, false⟩) := by decide
/-- The same example: the weight 0.146 at scale 0.512 takes code 0b0011, whose level is 73. -/
theorem test_kr4_example : (kr4Encode (.fin false 146 0) ⟨512, 0⟩).bits = 3 ∧ kr4Level 3 = 73 ∧ 20 * kr4Level 3 = 1460 := by decide +kernel
/-- R99: 1.0 in FP32, BF16, E4M3 and E5M2. -/
theorem test_one_in_each_format : (NumFmt.fp32.encode (.fin false 1 0)).bits = 0x3F800000 ∧ (NumFmt.bf16.encode (.fin false 1 0)).bits = 0x3F80
    ∧ (NumFmt.e4m3.encode (.fin false 1 0)).bits = 0x38 ∧ (NumFmt.e5m2.encode (.fin false 1 0)).bits = 0x3C := by decide +kernel

/-- Region 12 of core 3 as in the example of 05_scratchpads.md. -/
def ring12 : State := withRegion 3 12 8192 4096 0 1 0 0 up
def ringPtr (s : State) : Nat × Bool × Nat × Bool × Nat × Nat :=
  let g := s.rgn 3 12
  (g.head, g.headWrap, g.tail, g.tailWrap, g.committed, g.free)
/-- The rows of that example's table: landed rows, a full ring, and the releases of two operations. -/
theorem test_ring_example_fill : ringPtr (advanceHead 3 12 1024 ring12) = (1024, false, 0, false, 1024, 3072)
    ∧ ringPtr (advanceHead 3 12 4096 ring12) = (0, true, 0, false, 4096, 0) := by decide +kernel
theorem test_ring_example_release : ringPtr (releaseRows 3 12 2048 (advanceHead 3 12 4096 ring12)) = (0, true, 2048, false, 2048, 2048)
    ∧ ringPtr (releaseRows 3 12 2048 (advanceHead 3 12 2048 (releaseRows 3 12 2048 (advanceHead 3 12 4096 ring12)))) = (2048, true, 0, true, 2048, 2048) := by
  decide +kernel

/-- Page 9,000 in tier 1 at age `a`, last touched at DTIME 0, as in the example of 09_memory_tiers.md. -/
def page9000 (a : Nat) : State :=
  let s := up.setPage 9000 { owner := some 2, tier := 1, age := a, lastInc := some 0 }
  { s with dtime := 25 }
/-- That example: the third touch, 1,024 FCLK cycles on, brings the age to 96 and queues the page; the second does not. -/
theorem test_age_example : ((touchPage 9000 (page9000 32)).page 9000).age = 64 ∧ (touchPage 9000 (page9000 32)).mt.promo = []
    ∧ ((touchPage 9000 (page9000 64)).page 9000).age = 96 ∧ (touchPage 9000 (page9000 64)).mt.promo = [9000] := by decide +kernel

/-! ### Witnesses: for each statement with hypotheses, states and operands that meet them

One theorem, or a few, for each statement of Certificates/Slice0/Obligations.lean that has hypotheses; a comment numbers the
clauses of the statement's own text that the lines below it meet together, at boundary values where a range has one. -/

/-- Statements over any step that answers a next state: a step on a command, a step on the empty queue, and a state that is
in canonical form and names places on the chip. -/
theorem wit_steps : Out.completes (step { ring12 with pending := [.strSwapOut 16, .snapshotTick] }) = true ∧ Out.completes (step ring12) = true
    ∧ ring12.memoriesWf = true ∧ (mapped up).memoriesWf = true
    ∧ ([Instr.strSwapOut 16, Instr.snapshotTick].head? ≠ some (.railUndervoltage 0)) := by decide +kernel
theorem wit_EveryStepKeepsPlacesOnTheChip : up.PlacesNamed :=
  State.placesNamed_of _ (by decide +kernel) (by decide +kernel) (by decide +kernel)
/-- NumberFormatsKeepTheirCodes: a finite code, a NaN and a minus zero of BF16, a KR4 scale, elements within their width. -/
theorem wit_NumberFormatsKeepTheirCodes : NumFmt.bf16.isFloat = true ∧ 0xFF7F < 2 ^ NumFmt.bf16.bits ∧ NumFmt.bf16.decode 0xFF7F ≠ .nan
    ∧ 0xFF7F ≠ 2 ^ (NumFmt.bf16.bits - 1) ∧ NumFmt.bf16.decode 0x7FC0 = .nan ∧ 0x8000 = 2 ^ (NumFmt.bf16.bits - 1) ∧ 15 ≠ kr4Marker
    ∧ ∀ w ∈ [15, 0, 7], w < 2 ^ NumFmt.int4.bits := by decide +kernel
/-- LatchedHalvesReadAsOneValue: a read of each low half with its high half still latched. -/
theorem wit_LatchedHalvesReadAsOneValue : (up.domOn 30 = true ∧ live.domOn 30 = true ∧ up.dtime < 2 ^ 64 ∧ live.newest < 2 ^ 48) ∧
    (up.Permits 16 R.CLK_DTIME_LO false .clk 0 ∧ (after (.clkDtimeLoRead 16) up).Permits 16 R.CLK_DTIME_HI false .clk 0) ∧
    (live.Permits 16 R.BRZ_IDX_LO false .brz0 0 ∧ (after (.brzIdxLoRead 16) live).Permits 16 R.BRZ_IDX_HI false .brz0 0) :=
  ⟨by decide +kernel, by unfold State.Permits; decide +kernel, by unfold State.Permits; decide +kernel⟩

theorem wit_StepRunsTheFrontCommand_1 :
    -- clause 1
    ((({ up with pending := [Instr.pllUnlock, Instr.muteNFall] } : State).pending = [Instr.pllUnlock, Instr.muteNFall])) ∧
    -- clause 2
    ((up.pending = [])) := by
  decide +kernel

theorem wit_RefusedAccessesOnlyRaiseErrors_1 :
    -- clause 1
    ((up.booted = true) ∧
      (up.domOn 29 = true) ∧
      (up.gate 0 R.MT_PG_SEL true = Gate.denied)) ∧
    -- clause 2
    ((up.gate 0 R.MT_PG_SEL false = Gate.denied)) ∧
    -- clause 3
    ((up.gate 16 1052668 true = Gate.unmapped)) ∧
    -- clause 4
    ((up.gate 16 1052668 false = Gate.unmapped)) := by
  decide +kernel

theorem wit_RegisterAndAccessTableWrites_1 :
    -- clause 1
    ((up.Admits 16 R.MT_PG_SEL PageKind.mt2 0)) ∧
    -- clause 2
    ((up.Permits 16 R.MT_PG_SEL false PageKind.mt2 0) ∧
      (up.domOn 29 = true)) ∧
    -- clause 3
    (((pageAt 2).isSome = true) ∧
      (up.booted = true) ∧
      (privileged 0 = false)) ∧
    -- clause 4
    ((privileged 16 = true) ∧
      ((up.txn 2).openTxn = none)) ∧
    -- clause 5
    (((up.setTxn 2 { openTxn := some ({ owner := 17, tag := 3, shadow := [] } : Txn) }).booted = true) ∧
      ((up.setTxn 2 { openTxn := some ({ owner := 17, tag := 3, shadow := [] } : Txn) }).domOn 29 = true) ∧
      (((up.setTxn 2 { openTxn := some ({ owner := 17, tag := 3, shadow := [] } : Txn) }).txn 2).openTxn = some ({ owner := 17, tag := 3, shadow := [] } : Txn)) ∧
      (({ owner := 17, tag := 3, shadow := [] } : Txn).owner ≠ 16)) ∧
    -- clause 6
    (((up.setTxn 2 { openTxn := some ({ owner := 16, tag := 3, shadow := [] } : Txn) }).booted = true) ∧
      ((up.setTxn 2 { openTxn := some ({ owner := 16, tag := 3, shadow := [] } : Txn) }).domOn 29 = true) ∧
      (((up.setTxn 2 { openTxn := some ({ owner := 16, tag := 3, shadow := [] } : Txn) }).txn 2).openTxn = some ({ owner := 16, tag := 3, shadow := [] } : Txn)) ∧
      (({ owner := 16, tag := 3, shadow := [] } : Txn).owner = 16)) := by
  unfold State.Admits State.Permits; decide +kernel

theorem wit_TransactionsOpenCommitAndRollBack_1 :
    -- clause 1
    ((up.Permits 16 (4096 * 2 + Hdr.txnCtrl) true PageKind.mgtTel 0) ∧
      ((up.txn 2).openTxn = none)) ∧
    -- clause 2
    (((openBy 17 up).Permits 16 (4096 * 2 + Hdr.txnCtrl) true PageKind.mgtTel 0) ∧
      (((openBy 17 up).txn 2).openTxn.isSome = true)) ∧
    -- clause 3
    ((((openBy 17 up).txn 2).openTxn = some ({ owner := 17, tag := 7, shadow := [] } : Txn)) ∧
      (({ owner := 17, tag := 7, shadow := [] } : Txn).owner ≠ 16)) ∧
    -- clause 4
    (((full up).Permits 16 (4096 * 2 + Hdr.txnCtrl) true PageKind.mgtTel 0) ∧
      (((full up).txn 2).openTxn = some ({ owner := 16, tag := 7, shadow := [] } : Txn)) ∧
      (({ owner := 16, tag := 7, shadow := [] } : Txn).owner = 16) ∧
      (((full up).txn 2).pend.length ≥ 4)) ∧
    -- clause 5
    (((openBy 16 up).Permits 16 (4096 * 2 + Hdr.txnCtrl) true PageKind.mgtTel 0) ∧
      (((openBy 16 up).txn 2).openTxn = some ({ owner := 16, tag := 7, shadow := [] } : Txn)) ∧
      (((openBy 16 up).txn 2).pend.length < 4) ∧
      ((txnCtrlFields 16 (4096 * 2) (4294967295#32) (wordSet 0 ({ hi := 1, lo := 0 } : Fld) 2) (openBy 16 up)).fld (4096 * 2 + Hdr.txnCtrl) Hdr.apply ≠ 4) ∧
      (applySelOk (inCoreWindow (4096 * 2)) ((txnCtrlFields 16 (4096 * 2) (4294967295#32) (wordSet 0 ({ hi := 1, lo := 0 } : Fld) 2) (openBy 16 up)).fld (4096 * 2 + Hdr.txnCtrl) Hdr.apply) ((txnCtrlFields 16 (4096 * 2) (4294967295#32) (wordSet 0 ({ hi := 1, lo := 0 } : Fld) 2) (openBy 16 up)).fld (4096 * 2 + Hdr.txnCtrl) Hdr.applySel) = true)) := by
  unfold State.Permits; decide +kernel

theorem wit_CommitsAndGroupsTakeEffect_1 :
    -- clause 1
    ((pageAt 2 = some (({ kind := PageKind.mgtTel, first := 2, cnt := 1, step := 1, blockType := 1, bound := Bound.cycle, counters := 4, errBits := 0 } : PageRow), 0)) ∧
      ((up.setTxn 2 { pend := [commit0] }).domOn (pageDomain ({ kind := PageKind.mgtTel, first := 2, cnt := 1, step := 1, blockType := 1, bound := Bound.cycle, counters := 4, errBits := 0 } : PageRow).kind 0) = true) ∧
      (plainPage ({ kind := PageKind.mgtTel, first := 2, cnt := 1, step := 1, blockType := 1, bound := Bound.cycle, counters := 4, errBits := 0 } : PageRow).kind = true) ∧
      (((up.setTxn 2 { pend := [commit0] }).txn 2).pend = [commit0]) ∧
      (commit0.group = none) ∧
      (commit0.apply ≠ 3) ∧
      (commit0.host = none)) ∧
    -- clause 2
    (((grp 16 false false up).Admits 16 (R.MGT_TXG_CTRL 3) PageKind.mgt0 0) ∧
      (((grp 16 false false up).group 3).fired = false) ∧
      ((grp 16 false false up).members 3 ≠ []) ∧
      (wordFld 0 F.MGT_TXG_CTRL_APPLY < 4) ∧
      (applySelOk false (wordFld 0 F.MGT_TXG_CTRL_APPLY) (wordFld 0 F.MGT_TXG_CTRL_APPLY_SEL) = true)) ∧
    -- clause 3
    ((((grp 16 true false up).group 3).fired = true) ∧
      (((grp 16 true false up).group 3).arrived = false) ∧
      (((grp 16 true false up).group 3).apply ≠ 3)) ∧
    -- clause 4
    ((∀ (c : PendCommit), c ∈ (grp 16 false false up).members 3 → c.released = false)) := by
  unfold State.Admits State.Permits; decide +kernel

theorem wit_ErrorRegistersAndFirstError_1 :
    -- clause 1
    ((pageAt 2 = some (({ kind := PageKind.mgtTel, first := 2, cnt := 1, step := 1, blockType := 1, bound := Bound.cycle, counters := 4, errBits := 0 } : PageRow), 0)) ∧
      ((raiseErr 8192 6 3 256 up).Permits 16 (4096 * 2 + Hdr.errStat) true ({ kind := PageKind.mgtTel, first := 2, cnt := 1, step := 1, blockType := 1, bound := Bound.cycle, counters := 4, errBits := 0 } : PageRow).kind 0)) ∧
    -- clause 2
    (((raiseErr 8192 6 3 256 up).Permits 16 (4096 * 2 + Hdr.errEn) true ({ kind := PageKind.mgtTel, first := 2, cnt := 1, step := 1, blockType := 1, bound := Bound.cycle, counters := 4, errBits := 0 } : PageRow).kind 0)) ∧
    -- clause 3
    (((setRights 8192 16 15 up).Permits 16 (4096 * 2 + Hdr.errInj) true ({ kind := PageKind.mgtTel, first := 2, cnt := 1, step := 1, blockType := 1, bound := Bound.cycle, counters := 4, errBits := 0 } : PageRow).kind 0) ∧
      (bitOf (errMask ({ kind := PageKind.mgtTel, first := 2, cnt := 1, step := 1, blockType := 1, bound := Bound.cycle, counters := 4, errBits := 0 } : PageRow)) (wordFld 6 ({ hi := 4, lo := 0 } : Fld)) = true)) ∧
    -- clause 4
    ((31 < 32) ∧
      (4095 < 4096) ∧
      (up.reg (8192 + Hdr.errStat) = 0)) ∧
    -- clause 5
    ((7 < 32) ∧
      ((raiseErr 8192 6 3 256 up).reg (8192 + Hdr.errStat) ≠ 0)) ∧
    -- clause 6
    ((6 < 32) ∧
      (BitVec.getLsbD ((raiseErr 8192 6 3 256 up).reg (8192 + Hdr.errStat)) 6 = true)) := by
  unfold State.Permits; decide +kernel

theorem wit_SnapshotsCopyCounters_1 :
    -- clause 1
    ((up.Admits 16 R.MGT_SNAP PageKind.mgtSnap 0) ∧
      (up.snap.due = none) ∧
      (16 ≤ 16) ∧
      (Tab.find up.snap.last 16 = none)) ∧
    -- clause 2
    ((({ up with snap := ({ up.snap with due := some 9 } : Snap) } : State).snap.due = some 9) ∧
      (({ up with snap := ({ up.snap with due := some 9 } : Snap) } : State).dtime ≤ 9) ∧
      (({ up with snap := ({ up.snap with due := some 9 } : Snap) } : State).booted = true)) := by
  unfold State.Admits State.Permits; decide +kernel

theorem wit_FabricLinksResendRetrainAndTest_1 :
    -- clause 1
    ((up.Admits 16 R.FAB_WALK PageKind.fab0 0) ∧
      (wordFld 30 F.FAB_WALK_LINK < 31) ∧
      ((up.linkOn (wordFld 30 F.FAB_WALK_LINK) && up.linkIdle (wordFld 30 F.FAB_WALK_LINK) && up.fld R.FAB_WALK_STATUS F.FAB_WALK_STATUS_STATE != 1) = true)) ∧
    -- clause 2
    (((walking 0).Admits 16 R.FAB_WALK PageKind.fab0 0) ∧
      (((walking 0).linkOn (wordFld 30 F.FAB_WALK_LINK) && (walking 0).linkIdle (wordFld 30 F.FAB_WALK_LINK) && (walking 0).fld R.FAB_WALK_STATUS F.FAB_WALK_STATUS_STATE != 1) = false)) ∧
    -- clause 3
    (((walking 30).fld R.FAB_WALK_STATUS F.FAB_WALK_STATUS_STATE = 1) ∧
      ((walking 30).fld R.FAB_WALK_STATUS F.FAB_WALK_STATUS_LINK = 30)) ∧
    -- clause 4
    (((setRights Pg.fab0 16 15 up).Admits 16 R.FAB_CRC_INJ PageKind.fab0 0) ∧
      ((wordFld (30 + 32) F.FAB_CRC_INJ_LINK, wordFld (30 + 32) F.FAB_CRC_INJ_DIR).fst < 31) ∧
      ((setRights Pg.fab0 16 15 up).fabInj.contains (wordFld (30 + 32) F.FAB_CRC_INJ_LINK, wordFld (30 + 32) F.FAB_CRC_INJ_DIR) = false)) ∧
    -- clause 5
    ((up.Admits 16 R.FAB_D2D_CTRL PageKind.fab2 0) ∧
      (up.flag R.FAB_D2D_STATUS F.FAB_D2D_STATUS_RETRAINING = false)) ∧
    -- clause 6
    (((up.setFld R.FAB_D2D_STATUS F.FAB_D2D_STATUS_RETRAINING 1).flag R.FAB_D2D_STATUS F.FAB_D2D_STATUS_RETRAINING = true)) := by
  unfold State.Admits State.Permits; decide +kernel

theorem wit_OperationsIssueAfterTheirChecks_1 :
    -- clause 1
    (((Instr.eltwise 17 false, OpKind.eltwise) = (Instr.eltwise 17 false, OpKind.eltwise)) ∧
      (eltOk.running 17 = some 0) ∧
      (insOp (eltOk.slot 17 (eltOk.pc 17)).toNat = 1) ∧
      (eltOk.pc 17 < 16383) ∧
      (bitsOf (eltOk.slot 17 (eltOk.pc 17)).toNat 13 0 + 7 ≤ 16383) ∧
      (opKind (eltOk.descAt 17 (bitsOf (eltOk.slot 17 (eltOk.pc 17)).toNat 13 0)) = some OpKind.eltwise) ∧
      (Op.gangLog2 (eltOk.descAt 17 (bitsOf (eltOk.slot 17 (eltOk.pc 17)).toNat 13 0)) = 0) ∧
      ((eltOk.core 17).bankSwap = none) ∧
      (eltOk.flag (R.SEQ_CTRL 17) F.SEQ_CTRL_DRAIN_REQ = false) ∧
      ((eltOk.core 17).scanQ = []) ∧
      ((eltOk.core 17).ops = []) ∧
      ((opChk eltOk (eltOk.siteOf 17 0 (eltOk.descAt 17 (bitsOf (eltOk.slot 17 (eltOk.pc 17)).toNat 13 0))) (eltOk.descAt 17 (bitsOf (eltOk.slot 17 (eltOk.pc 17)).toNat 13 0)) OpKind.eltwise).faults = []) ∧
      ((eltOk.core 17).loops = [])) ∧
    -- clause 2
    ((eltBad.running 17 = some 0) ∧
      (insOp (eltBad.slot 17 (eltBad.pc 17)).toNat = 1) ∧
      (eltBad.pc 17 < 16383) ∧
      (bitsOf (eltBad.slot 17 (eltBad.pc 17)).toNat 13 0 + 7 ≤ 16383) ∧
      (opKind (eltBad.descAt 17 (bitsOf (eltBad.slot 17 (eltBad.pc 17)).toNat 13 0)) = some OpKind.eltwise) ∧
      (Op.gangLog2 (eltBad.descAt 17 (bitsOf (eltBad.slot 17 (eltBad.pc 17)).toNat 13 0)) = 0) ∧
      ((eltBad.core 17).bankSwap = none) ∧
      (eltBad.flag (R.SEQ_CTRL 17) F.SEQ_CTRL_DRAIN_REQ = false) ∧
      ((eltBad.core 17).scanQ = []) ∧
      ((eltBad.core 17).ops = []) ∧
      ((opChk eltBad (eltBad.siteOf 17 0 (eltBad.descAt 17 (bitsOf (eltBad.slot 17 (eltBad.pc 17)).toNat 13 0))) (eltBad.descAt 17 (bitsOf (eltBad.slot 17 (eltBad.pc 17)).toNat 13 0)) OpKind.eltwise).faults ≠ [])) := by
  decide +kernel

theorem wit_VerdictsCommitOrRerun_1 :
    -- clause 1
    ((eltRun.headOp 17 = some eltHead) ∧
      ((eltRun.together eltHead fun q => q.run != 0 && q.run == eltHead.run && !q.swapping && !q.forced) = true) ∧
      (List.filter (fun b => b.snd.fails) (List.map (fun m => (m, eltRun.checkOf [] m ((eltRun.headOp m).getD eltHead))) eltHead.gang) = [])) ∧
    -- clause 2
    ((List.filter (fun b => b.snd.fails) (List.map (fun m => (m, eltRun.checkOf [({ core := 17, rows := [1], cols := [2], corner := false, shadow := false, parity := none } : CheckResult)] m ((eltRun.headOp m).getD eltHead))) eltHead.gang) ≠ []) ∧
      (eltHead.run < 3) ∧
      (eltHead.gang = [17]) ∧
      ((eltRun.core 17).ops = [eltHead])) := by
  decide +kernel

theorem wit_CommittedRowsAdvanceTheHead_1 :
    -- clause 1
    ((63 < 64) ∧
      (17 < 18) ∧
      (Memory.wf reg0.spad = true) ∧
      ((reg0.rgn 17 63).raw = false) ∧
      ((reg0.rgn 17 63).base + (reg0.rgn 17 63).size ≤ 65536) ∧
      ((reg0.rgn 17 63).head < (reg0.rgn 17 63).size) ∧
      ((reg0.rgn 17 63).tail < (reg0.rgn 17 63).size) ∧
      (((reg0.rgn 17 63).headWrap == (reg0.rgn 17 63).tailWrap) = decide ((reg0.rgn 17 63).tail ≤ (reg0.rgn 17 63).head)) ∧
      (0 < 1) ∧
      (1 ≤ (reg0.rgn 17 63).free) ∧
      ((List.map (fun x => x.fst) [(0, List.replicate 512 5#8)]).Nodup)) := by
  decide +kernel

theorem wit_SparesWatchdogAndStatistics_1 :
    -- clause 1
    (((16, true).fst ≤ 16) ∧
      (swapWait.headOp 17 = some swapHead) ∧
      (swapHead.swapping = true) ∧
      (swapHead.gang = [17]) ∧
      (swapWait.spareFor 17 swapHead.loc = some (16, true))) ∧
    -- clause 2
    (((16, false).fst ≤ 16) ∧
      (worn.busy 17 = false) ∧
      (worn.domOn 17 = true) ∧
      ((worn.core 17).spareDue = [(16, false), (3, true)]) ∧
      ((if (16, false).snd = true then worn.rowSpareFree 17 else worn.colSpareFree 17) = true)) ∧
    -- clause 3
    (((dogged.core 17).ops = [eltHead]) ∧
      (eltHead.run ≠ 0) ∧
      (eltHead.swapping = false) ∧
      (dogged.fld (R.ARR_WDOG 17) F.ARR_WDOG_LIMIT ≠ 0)) ∧
    -- clause 4
    (((setRights (Pg.arr0 17) 16 15 up).Admits 16 (R.ARR_FAULT_INJ 17) PageKind.arr0 17) ∧
      (wordFld (17 + 32 * 17 + 2 * 1024) F.ARR_FAULT_INJ_ROW ≤ 17) ∧
      (wordFld (17 + 32 * 17 + 2 * 1024) F.ARR_FAULT_INJ_COL ≤ 17) ∧
      (wordFld (17 + 32 * 17 + 2 * 1024) F.ARR_FAULT_INJ_MODE ≤ 2)) ∧
    -- clause 5
    (((up.setReg (R.ARR_STAT_MAX 17 63) 5).Admits 16 (if true = true then R.ARR_STAT_CLR_HI 17 else R.ARR_STAT_CLR_LO 17) PageKind.arr6 17)) ∧
    -- clause 6
    (((up.setReg (R.ARR_STAT_MAX 17 63) 5).Admits 16 (if false = true then R.ARR_STAT_CLR_HI 17 else R.ARR_STAT_CLR_LO 17) PageKind.arr6 17)) := by
  unfold State.Admits State.Permits; decide +kernel

theorem wit_WaitsSignalsBranchesAndLoops_1 :
    -- clause 1
    ((loopStep ((ins 2 (63 + 5 * 65536) (sem5 up)).core 17).loops ((ins 2 (63 + 5 * 65536) (sem5 up)).pc 17) = ([], 1)) ∧
      (1 ≤ 16383) ∧
      ((ins 2 (63 + 5 * 65536) (sem5 up)).flag (R.SEQ_CTRL 17) F.SEQ_CTRL_DRAIN_REQ = false) ∧
      ((Instr.waitsem 17, Instr.waitsemRelease 17, 2, SeqWait.sem 63 5, true) = (Instr.waitsem 17, Instr.waitsemRelease 17, 2, SeqWait.sem (bitsOf ((ins 2 (63 + 5 * 65536) (sem5 up)).slot 17 ((ins 2 (63 + 5 * 65536) (sem5 up)).pc 17)).toNat 5 0) (bitsOf ((ins 2 (63 + 5 * 65536) (sem5 up)).slot 17 ((ins 2 (63 + 5 * 65536) (sem5 up)).pc 17)).toNat 31 16), decide (bitsOf ((ins 2 (63 + 5 * 65536) (sem5 up)).slot 17 ((ins 2 (63 + 5 * 65536) (sem5 up)).pc 17)).toNat 31 16 ≤ (ins 2 (63 + 5 * 65536) (sem5 up)).fld (R.SEQ_SEM 17 (bitsOf ((ins 2 (63 + 5 * 65536) (sem5 up)).slot 17 ((ins 2 (63 + 5 * 65536) (sem5 up)).pc 17)).toNat 5 0)) F.SEQ_SEM_COUNT))) ∧
      ((ins 2 (63 + 5 * 65536) (sem5 up)).AtInstr 17 0 2) ∧
      (true = true)) ∧
    -- clause 2
    ((loopStep ((ins 2 (63 + 6 * 65536) (sem5 up)).core 17).loops ((ins 2 (63 + 6 * 65536) (sem5 up)).pc 17) = ([], 1)) ∧
      ((ins 2 (63 + 6 * 65536) (sem5 up)).flag (R.SEQ_CTRL 17) F.SEQ_CTRL_DRAIN_REQ = false) ∧
      ((Instr.waitsem 17, Instr.waitsemRelease 17, 2, SeqWait.sem 63 6, false) = (Instr.waitsem 17, Instr.waitsemRelease 17, 2, SeqWait.sem (bitsOf ((ins 2 (63 + 6 * 65536) (sem5 up)).slot 17 ((ins 2 (63 + 6 * 65536) (sem5 up)).pc 17)).toNat 5 0) (bitsOf ((ins 2 (63 + 6 * 65536) (sem5 up)).slot 17 ((ins 2 (63 + 6 * 65536) (sem5 up)).pc 17)).toNat 31 16), decide (bitsOf ((ins 2 (63 + 6 * 65536) (sem5 up)).slot 17 ((ins 2 (63 + 6 * 65536) (sem5 up)).pc 17)).toNat 31 16 ≤ (ins 2 (63 + 6 * 65536) (sem5 up)).fld (R.SEQ_SEM 17 (bitsOf ((ins 2 (63 + 6 * 65536) (sem5 up)).slot 17 ((ins 2 (63 + 6 * 65536) (sem5 up)).pc 17)).toNat 5 0)) F.SEQ_SEM_COUNT))) ∧
      ((ins 2 (63 + 6 * 65536) (sem5 up)).AtInstr 17 0 2) ∧
      (false = false)) ∧
    -- clause 3
    ((loopStep ((sem5 (after (Instr.waitsem 17) (ins 2 (63 + 5 * 65536) up))).core 17).loops ((sem5 (after (Instr.waitsem 17) (ins 2 (63 + 5 * 65536) up))).pc 17) = ([], 1)) ∧
      ((sem5 (after (Instr.waitsem 17) (ins 2 (63 + 5 * 65536) up))).flag (R.SEQ_CTRL 17) F.SEQ_CTRL_DRAIN_REQ = false) ∧
      ((Instr.waitsem 17, Instr.waitsemRelease 17, 2, SeqWait.sem 63 5, true) = (Instr.waitsem 17, Instr.waitsemRelease 17, 2, SeqWait.sem (bitsOf ((sem5 (after (Instr.waitsem 17) (ins 2 (63 + 5 * 65536) up))).slot 17 ((sem5 (after (Instr.waitsem 17) (ins 2 (63 + 5 * 65536) up))).pc 17)).toNat 5 0) (bitsOf ((sem5 (after (Instr.waitsem 17) (ins 2 (63 + 5 * 65536) up))).slot 17 ((sem5 (after (Instr.waitsem 17) (ins 2 (63 + 5 * 65536) up))).pc 17)).toNat 31 16), decide (bitsOf ((sem5 (after (Instr.waitsem 17) (ins 2 (63 + 5 * 65536) up))).slot 17 ((sem5 (after (Instr.waitsem 17) (ins 2 (63 + 5 * 65536) up))).pc 17)).toNat 31 16 ≤ (sem5 (after (Instr.waitsem 17) (ins 2 (63 + 5 * 65536) up))).fld (R.SEQ_SEM 17 (bitsOf ((sem5 (after (Instr.waitsem 17) (ins 2 (63 + 5 * 65536) up))).slot 17 ((sem5 (after (Instr.waitsem 17) (ins 2 (63 + 5 * 65536) up))).pc 17)).toNat 5 0)) F.SEQ_SEM_COUNT))) ∧
      ((sem5 (after (Instr.waitsem 17) (ins 2 (63 + 5 * 65536) up))).waitingFor 17 = some (0, SeqWait.sem 63 5))) ∧
    -- clause 4
    ((loopStep ((after (Instr.waitsem 17) (ins 2 (63 + 5 * 65536) up)).core 17).loops ((after (Instr.waitsem 17) (ins 2 (63 + 5 * 65536) up)).pc 17) = ([], 1)) ∧
      ((after (Instr.waitsem 17) (ins 2 (63 + 5 * 65536) up)).flag (R.SEQ_CTRL 17) F.SEQ_CTRL_DRAIN_REQ = false) ∧
      ((Instr.waitsem 17, Instr.waitsemRelease 17, 2, SeqWait.sem 63 5, false) = (Instr.waitsem 17, Instr.waitsemRelease 17, 2, SeqWait.sem (bitsOf ((after (Instr.waitsem 17) (ins 2 (63 + 5 * 65536) up)).slot 17 ((after (Instr.waitsem 17) (ins 2 (63 + 5 * 65536) up)).pc 17)).toNat 5 0) (bitsOf ((after (Instr.waitsem 17) (ins 2 (63 + 5 * 65536) up)).slot 17 ((after (Instr.waitsem 17) (ins 2 (63 + 5 * 65536) up)).pc 17)).toNat 31 16), decide (bitsOf ((after (Instr.waitsem 17) (ins 2 (63 + 5 * 65536) up)).slot 17 ((after (Instr.waitsem 17) (ins 2 (63 + 5 * 65536) up)).pc 17)).toNat 31 16 ≤ (after (Instr.waitsem 17) (ins 2 (63 + 5 * 65536) up)).fld (R.SEQ_SEM 17 (bitsOf ((after (Instr.waitsem 17) (ins 2 (63 + 5 * 65536) up)).slot 17 ((after (Instr.waitsem 17) (ins 2 (63 + 5 * 65536) up)).pc 17)).toNat 5 0)) F.SEQ_SEM_COUNT))) ∧
      ((after (Instr.waitsem 17) (ins 2 (63 + 5 * 65536) up)).waitingFor 17 = some (0, SeqWait.sem 63 5))) :=
  ⟨by unfold State.AtInstr; decide +kernel,
    by unfold State.AtInstr; decide +kernel,
    by decide +kernel,
    by decide +kernel⟩

theorem wit_WaitsSignalsBranchesAndLoops_2 :
    -- clause 1
    ((loopStep ((ins 4 (63 + 3 * 65536) (rgn63 up)).core 17).loops ((ins 4 (63 + 3 * 65536) (rgn63 up)).pc 17) = ([], 1)) ∧
      (1 ≤ 16383) ∧
      ((ins 4 (63 + 3 * 65536) (rgn63 up)).flag (R.SEQ_CTRL 17) F.SEQ_CTRL_DRAIN_REQ = false) ∧
      ((Instr.waitrows 17, Instr.waitrowsRelease 17, 4, SeqWait.rows 63 3, true) = (Instr.waitrows 17, Instr.waitrowsRelease 17, 4, SeqWait.rows (bitsOf ((ins 4 (63 + 3 * 65536) (rgn63 up)).slot 17 ((ins 4 (63 + 3 * 65536) (rgn63 up)).pc 17)).toNat 5 0) (bitsOf ((ins 4 (63 + 3 * 65536) (rgn63 up)).slot 17 ((ins 4 (63 + 3 * 65536) (rgn63 up)).pc 17)).toNat 31 16), decide (bitsOf ((ins 4 (63 + 3 * 65536) (rgn63 up)).slot 17 ((ins 4 (63 + 3 * 65536) (rgn63 up)).pc 17)).toNat 31 16 ≤ ((ins 4 (63 + 3 * 65536) (rgn63 up)).rgn 17 (bitsOf ((ins 4 (63 + 3 * 65536) (rgn63 up)).slot 17 ((ins 4 (63 + 3 * 65536) (rgn63 up)).pc 17)).toNat 5 0)).committed))) ∧
      ((ins 4 (63 + 3 * 65536) (rgn63 up)).AtInstr 17 0 4) ∧
      (true = true)) ∧
    -- clause 2
    ((loopStep ((ins 4 (63 + 4 * 65536) (rgn63 up)).core 17).loops ((ins 4 (63 + 4 * 65536) (rgn63 up)).pc 17) = ([], 1)) ∧
      ((ins 4 (63 + 4 * 65536) (rgn63 up)).flag (R.SEQ_CTRL 17) F.SEQ_CTRL_DRAIN_REQ = false) ∧
      ((Instr.waitrows 17, Instr.waitrowsRelease 17, 4, SeqWait.rows 63 4, false) = (Instr.waitrows 17, Instr.waitrowsRelease 17, 4, SeqWait.rows (bitsOf ((ins 4 (63 + 4 * 65536) (rgn63 up)).slot 17 ((ins 4 (63 + 4 * 65536) (rgn63 up)).pc 17)).toNat 5 0) (bitsOf ((ins 4 (63 + 4 * 65536) (rgn63 up)).slot 17 ((ins 4 (63 + 4 * 65536) (rgn63 up)).pc 17)).toNat 31 16), decide (bitsOf ((ins 4 (63 + 4 * 65536) (rgn63 up)).slot 17 ((ins 4 (63 + 4 * 65536) (rgn63 up)).pc 17)).toNat 31 16 ≤ ((ins 4 (63 + 4 * 65536) (rgn63 up)).rgn 17 (bitsOf ((ins 4 (63 + 4 * 65536) (rgn63 up)).slot 17 ((ins 4 (63 + 4 * 65536) (rgn63 up)).pc 17)).toNat 5 0)).committed))) ∧
      ((ins 4 (63 + 4 * 65536) (rgn63 up)).AtInstr 17 0 4) ∧
      (false = false)) ∧
    -- clause 3
    ((loopStep ((rgn63 (after (Instr.waitrows 17) (ins 4 (63 + 3 * 65536) up))).core 17).loops ((rgn63 (after (Instr.waitrows 17) (ins 4 (63 + 3 * 65536) up))).pc 17) = ([], 1)) ∧
      ((rgn63 (after (Instr.waitrows 17) (ins 4 (63 + 3 * 65536) up))).flag (R.SEQ_CTRL 17) F.SEQ_CTRL_DRAIN_REQ = false) ∧
      ((Instr.waitrows 17, Instr.waitrowsRelease 17, 4, SeqWait.rows 63 3, true) = (Instr.waitrows 17, Instr.waitrowsRelease 17, 4, SeqWait.rows (bitsOf ((rgn63 (after (Instr.waitrows 17) (ins 4 (63 + 3 * 65536) up))).slot 17 ((rgn63 (after (Instr.waitrows 17) (ins 4 (63 + 3 * 65536) up))).pc 17)).toNat 5 0) (bitsOf ((rgn63 (after (Instr.waitrows 17) (ins 4 (63 + 3 * 65536) up))).slot 17 ((rgn63 (after (Instr.waitrows 17) (ins 4 (63 + 3 * 65536) up))).pc 17)).toNat 31 16), decide (bitsOf ((rgn63 (after (Instr.waitrows 17) (ins 4 (63 + 3 * 65536) up))).slot 17 ((rgn63 (after (Instr.waitrows 17) (ins 4 (63 + 3 * 65536) up))).pc 17)).toNat 31 16 ≤ ((rgn63 (after (Instr.waitrows 17) (ins 4 (63 + 3 * 65536) up))).rgn 17 (bitsOf ((rgn63 (after (Instr.waitrows 17) (ins 4 (63 + 3 * 65536) up))).slot 17 ((rgn63 (after (Instr.waitrows 17) (ins 4 (63 + 3 * 65536) up))).pc 17)).toNat 5 0)).committed))) ∧
      ((rgn63 (after (Instr.waitrows 17) (ins 4 (63 + 3 * 65536) up))).waitingFor 17 = some (0, SeqWait.rows 63 3))) ∧
    -- clause 4
    ((loopStep ((after (Instr.waitrows 17) (ins 4 (63 + 3 * 65536) up)).core 17).loops ((after (Instr.waitrows 17) (ins 4 (63 + 3 * 65536) up)).pc 17) = ([], 1)) ∧
      ((after (Instr.waitrows 17) (ins 4 (63 + 3 * 65536) up)).flag (R.SEQ_CTRL 17) F.SEQ_CTRL_DRAIN_REQ = false) ∧
      ((Instr.waitrows 17, Instr.waitrowsRelease 17, 4, SeqWait.rows 63 3, false) = (Instr.waitrows 17, Instr.waitrowsRelease 17, 4, SeqWait.rows (bitsOf ((after (Instr.waitrows 17) (ins 4 (63 + 3 * 65536) up)).slot 17 ((after (Instr.waitrows 17) (ins 4 (63 + 3 * 65536) up)).pc 17)).toNat 5 0) (bitsOf ((after (Instr.waitrows 17) (ins 4 (63 + 3 * 65536) up)).slot 17 ((after (Instr.waitrows 17) (ins 4 (63 + 3 * 65536) up)).pc 17)).toNat 31 16), decide (bitsOf ((after (Instr.waitrows 17) (ins 4 (63 + 3 * 65536) up)).slot 17 ((after (Instr.waitrows 17) (ins 4 (63 + 3 * 65536) up)).pc 17)).toNat 31 16 ≤ ((after (Instr.waitrows 17) (ins 4 (63 + 3 * 65536) up)).rgn 17 (bitsOf ((after (Instr.waitrows 17) (ins 4 (63 + 3 * 65536) up)).slot 17 ((after (Instr.waitrows 17) (ins 4 (63 + 3 * 65536) up)).pc 17)).toNat 5 0)).committed))) ∧
      ((after (Instr.waitrows 17) (ins 4 (63 + 3 * 65536) up)).waitingFor 17 = some (0, SeqWait.rows 63 3))) :=
  ⟨by unfold State.AtInstr; decide +kernel,
    by unfold State.AtInstr; decide +kernel,
    by decide +kernel,
    by decide +kernel⟩

theorem wit_WaitsSignalsBranchesAndLoops_3 :
    -- clause 1
    ((loopStep ((ins 5 (63 + 5 * 65536) (rgn63 up)).core 17).loops ((ins 5 (63 + 5 * 65536) (rgn63 up)).pc 17) = ([], 1)) ∧
      (1 ≤ 16383) ∧
      ((ins 5 (63 + 5 * 65536) (rgn63 up)).flag (R.SEQ_CTRL 17) F.SEQ_CTRL_DRAIN_REQ = false) ∧
      ((Instr.waitroom 17, Instr.waitroomRelease 17, 5, SeqWait.room 63 5, true) = (Instr.waitroom 17, Instr.waitroomRelease 17, 5, SeqWait.room (bitsOf ((ins 5 (63 + 5 * 65536) (rgn63 up)).slot 17 ((ins 5 (63 + 5 * 65536) (rgn63 up)).pc 17)).toNat 5 0) (bitsOf ((ins 5 (63 + 5 * 65536) (rgn63 up)).slot 17 ((ins 5 (63 + 5 * 65536) (rgn63 up)).pc 17)).toNat 31 16), decide (bitsOf ((ins 5 (63 + 5 * 65536) (rgn63 up)).slot 17 ((ins 5 (63 + 5 * 65536) (rgn63 up)).pc 17)).toNat 31 16 ≤ ((ins 5 (63 + 5 * 65536) (rgn63 up)).rgn 17 (bitsOf ((ins 5 (63 + 5 * 65536) (rgn63 up)).slot 17 ((ins 5 (63 + 5 * 65536) (rgn63 up)).pc 17)).toNat 5 0)).free))) ∧
      ((ins 5 (63 + 5 * 65536) (rgn63 up)).AtInstr 17 0 5) ∧
      (true = true)) ∧
    -- clause 2
    ((loopStep ((ins 5 (63 + 6 * 65536) (rgn63 up)).core 17).loops ((ins 5 (63 + 6 * 65536) (rgn63 up)).pc 17) = ([], 1)) ∧
      ((ins 5 (63 + 6 * 65536) (rgn63 up)).flag (R.SEQ_CTRL 17) F.SEQ_CTRL_DRAIN_REQ = false) ∧
      ((Instr.waitroom 17, Instr.waitroomRelease 17, 5, SeqWait.room 63 6, false) = (Instr.waitroom 17, Instr.waitroomRelease 17, 5, SeqWait.room (bitsOf ((ins 5 (63 + 6 * 65536) (rgn63 up)).slot 17 ((ins 5 (63 + 6 * 65536) (rgn63 up)).pc 17)).toNat 5 0) (bitsOf ((ins 5 (63 + 6 * 65536) (rgn63 up)).slot 17 ((ins 5 (63 + 6 * 65536) (rgn63 up)).pc 17)).toNat 31 16), decide (bitsOf ((ins 5 (63 + 6 * 65536) (rgn63 up)).slot 17 ((ins 5 (63 + 6 * 65536) (rgn63 up)).pc 17)).toNat 31 16 ≤ ((ins 5 (63 + 6 * 65536) (rgn63 up)).rgn 17 (bitsOf ((ins 5 (63 + 6 * 65536) (rgn63 up)).slot 17 ((ins 5 (63 + 6 * 65536) (rgn63 up)).pc 17)).toNat 5 0)).free))) ∧
      ((ins 5 (63 + 6 * 65536) (rgn63 up)).AtInstr 17 0 5) ∧
      (false = false)) ∧
    -- clause 3
    ((loopStep ((rgn63 (after (Instr.waitroom 17) (ins 5 (63 + 3 * 65536) up))).core 17).loops ((rgn63 (after (Instr.waitroom 17) (ins 5 (63 + 3 * 65536) up))).pc 17) = ([], 1)) ∧
      ((rgn63 (after (Instr.waitroom 17) (ins 5 (63 + 3 * 65536) up))).flag (R.SEQ_CTRL 17) F.SEQ_CTRL_DRAIN_REQ = false) ∧
      ((Instr.waitroom 17, Instr.waitroomRelease 17, 5, SeqWait.room 63 3, true) = (Instr.waitroom 17, Instr.waitroomRelease 17, 5, SeqWait.room (bitsOf ((rgn63 (after (Instr.waitroom 17) (ins 5 (63 + 3 * 65536) up))).slot 17 ((rgn63 (after (Instr.waitroom 17) (ins 5 (63 + 3 * 65536) up))).pc 17)).toNat 5 0) (bitsOf ((rgn63 (after (Instr.waitroom 17) (ins 5 (63 + 3 * 65536) up))).slot 17 ((rgn63 (after (Instr.waitroom 17) (ins 5 (63 + 3 * 65536) up))).pc 17)).toNat 31 16), decide (bitsOf ((rgn63 (after (Instr.waitroom 17) (ins 5 (63 + 3 * 65536) up))).slot 17 ((rgn63 (after (Instr.waitroom 17) (ins 5 (63 + 3 * 65536) up))).pc 17)).toNat 31 16 ≤ ((rgn63 (after (Instr.waitroom 17) (ins 5 (63 + 3 * 65536) up))).rgn 17 (bitsOf ((rgn63 (after (Instr.waitroom 17) (ins 5 (63 + 3 * 65536) up))).slot 17 ((rgn63 (after (Instr.waitroom 17) (ins 5 (63 + 3 * 65536) up))).pc 17)).toNat 5 0)).free))) ∧
      ((rgn63 (after (Instr.waitroom 17) (ins 5 (63 + 3 * 65536) up))).waitingFor 17 = some (0, SeqWait.room 63 3))) ∧
    -- clause 4
    ((loopStep ((after (Instr.waitroom 17) (ins 5 (63 + 3 * 65536) up)).core 17).loops ((after (Instr.waitroom 17) (ins 5 (63 + 3 * 65536) up)).pc 17) = ([], 1)) ∧
      ((after (Instr.waitroom 17) (ins 5 (63 + 3 * 65536) up)).flag (R.SEQ_CTRL 17) F.SEQ_CTRL_DRAIN_REQ = false) ∧
      ((Instr.waitroom 17, Instr.waitroomRelease 17, 5, SeqWait.room 63 3, false) = (Instr.waitroom 17, Instr.waitroomRelease 17, 5, SeqWait.room (bitsOf ((after (Instr.waitroom 17) (ins 5 (63 + 3 * 65536) up)).slot 17 ((after (Instr.waitroom 17) (ins 5 (63 + 3 * 65536) up)).pc 17)).toNat 5 0) (bitsOf ((after (Instr.waitroom 17) (ins 5 (63 + 3 * 65536) up)).slot 17 ((after (Instr.waitroom 17) (ins 5 (63 + 3 * 65536) up)).pc 17)).toNat 31 16), decide (bitsOf ((after (Instr.waitroom 17) (ins 5 (63 + 3 * 65536) up)).slot 17 ((after (Instr.waitroom 17) (ins 5 (63 + 3 * 65536) up)).pc 17)).toNat 31 16 ≤ ((after (Instr.waitroom 17) (ins 5 (63 + 3 * 65536) up)).rgn 17 (bitsOf ((after (Instr.waitroom 17) (ins 5 (63 + 3 * 65536) up)).slot 17 ((after (Instr.waitroom 17) (ins 5 (63 + 3 * 65536) up)).pc 17)).toNat 5 0)).free))) ∧
      ((after (Instr.waitroom 17) (ins 5 (63 + 3 * 65536) up)).waitingFor 17 = some (0, SeqWait.room 63 3))) :=
  ⟨by unfold State.AtInstr; decide +kernel,
    by unfold State.AtInstr; decide +kernel,
    by decide +kernel,
    by decide +kernel⟩

theorem wit_WaitsSignalsBranchesAndLoops_4 :
    -- clause 1
    ((loopStep ((ins 9 0 up).core 17).loops ((ins 9 0 up).pc 17) = ([], 1)) ∧
      (1 ≤ 16383) ∧
      ((ins 9 0 up).flag (R.SEQ_CTRL 17) F.SEQ_CTRL_DRAIN_REQ = false) ∧
      ((Instr.drain 17, Instr.drainRelease 17, 9, SeqWait.drain, true) = (Instr.drain 17, Instr.drainRelease 17, 9, SeqWait.drain, !(ins 9 0 up).busy 17)) ∧
      ((ins 9 0 up).AtInstr 17 0 9) ∧
      (true = true)) ∧
    -- clause 2
    ((loopStep ((flyAt (9 * 2 ^ 58)).core 17).loops ((flyAt (9 * 2 ^ 58)).pc 17) = ([], 2)) ∧
      (2 ≤ 16383) ∧
      ((flyAt (9 * 2 ^ 58)).flag (R.SEQ_CTRL 17) F.SEQ_CTRL_DRAIN_REQ = false) ∧
      ((Instr.drain 17, Instr.drainRelease 17, 9, SeqWait.drain, false) = (Instr.drain 17, Instr.drainRelease 17, 9, SeqWait.drain, !(flyAt (9 * 2 ^ 58)).busy 17)) ∧
      ((flyAt (9 * 2 ^ 58)).AtInstr 17 0 9) ∧
      (false = false)) ∧
    -- clause 3
    ((loopStep ((noFlight (after (Instr.drain 17) (flyAt (9 * 2 ^ 58)))).core 17).loops ((noFlight (after (Instr.drain 17) (flyAt (9 * 2 ^ 58)))).pc 17) = ([], 2)) ∧
      ((noFlight (after (Instr.drain 17) (flyAt (9 * 2 ^ 58)))).flag (R.SEQ_CTRL 17) F.SEQ_CTRL_DRAIN_REQ = false) ∧
      ((Instr.drain 17, Instr.drainRelease 17, 9, SeqWait.drain, true) = (Instr.drain 17, Instr.drainRelease 17, 9, SeqWait.drain, !(noFlight (after (Instr.drain 17) (flyAt (9 * 2 ^ 58)))).busy 17)) ∧
      ((noFlight (after (Instr.drain 17) (flyAt (9 * 2 ^ 58)))).waitingFor 17 = some (0, SeqWait.drain))) ∧
    -- clause 4
    ((loopStep ((after (Instr.drain 17) (flyAt (9 * 2 ^ 58))).core 17).loops ((after (Instr.drain 17) (flyAt (9 * 2 ^ 58))).pc 17) = ([], 2)) ∧
      ((after (Instr.drain 17) (flyAt (9 * 2 ^ 58))).flag (R.SEQ_CTRL 17) F.SEQ_CTRL_DRAIN_REQ = false) ∧
      ((Instr.drain 17, Instr.drainRelease 17, 9, SeqWait.drain, false) = (Instr.drain 17, Instr.drainRelease 17, 9, SeqWait.drain, !(after (Instr.drain 17) (flyAt (9 * 2 ^ 58))).busy 17)) ∧
      ((after (Instr.drain 17) (flyAt (9 * 2 ^ 58))).waitingFor 17 = some (0, SeqWait.drain))) :=
  ⟨by unfold State.AtInstr; decide +kernel,
    by unfold State.AtInstr; decide +kernel,
    by decide +kernel,
    by decide +kernel⟩

theorem wit_WaitsSignalsBranchesAndLoops_5 :
    -- clause 1
    ((loopStep ((ins 3 (63 + 65534 * 65536) (lp 1 (sem5 up))).core 17).loops ((ins 3 (63 + 65534 * 65536) (lp 1 (sem5 up))).pc 17) = ([({ first := 0, last := 0, left := 1 } : LoopFrame)], 0)) ∧
      (0 ≤ 16383) ∧
      ((ins 3 (63 + 65534 * 65536) (lp 1 (sem5 up))).AtInstr 17 0 3)) ∧
    -- clause 2
    (((ins 7 16383 up).AtInstr 17 0 7)) ∧
    -- clause 3
    (((ins 6 (3 + 4 * 65536) (lp 3 up)).AtInstr 17 0 6) ∧
      ((ins 6 (3 + 4 * 65536) (lp 3 up)).pc 17 < bitsOf ((ins 6 (3 + 4 * 65536) (lp 3 up)).slot 17 ((ins 6 (3 + 4 * 65536) (lp 3 up)).pc 17)).toNat 29 16) ∧
      (((ins 6 (3 + 4 * 65536) (lp 3 up)).core 17).loops.length < 4) ∧
      (0 < bitsOf ((ins 6 (3 + 4 * 65536) (lp 3 up)).slot 17 ((ins 6 (3 + 4 * 65536) (lp 3 up)).pc 17)).toNat 15 0)) ∧
    -- clause 4
    (((ins 6 (4 * 65536) up).AtInstr 17 0 6) ∧
      ((ins 6 (4 * 65536) up).pc 17 < bitsOf ((ins 6 (4 * 65536) up).slot 17 ((ins 6 (4 * 65536) up).pc 17)).toNat 29 16) ∧
      (((ins 6 (4 * 65536) up).core 17).loops = []) ∧
      (bitsOf ((ins 6 (4 * 65536) up).slot 17 ((ins 6 (4 * 65536) up).pc 17)).toNat 15 0 = 0) ∧
      (bitsOf ((ins 6 (4 * 65536) up).slot 17 ((ins 6 (4 * 65536) up).pc 17)).toNat 29 16 < 16383)) ∧
    -- clause 5
    (((ins 6 (3 + 4 * 65536) (lp 4 up)).AtInstr 17 0 6) ∧
      (bitsOf ((ins 6 (3 + 4 * 65536) (lp 4 up)).slot 17 ((ins 6 (3 + 4 * 65536) (lp 4 up)).pc 17)).toNat 29 16 ≤ (ins 6 (3 + 4 * 65536) (lp 4 up)).pc 17 ∨ 4 ≤ ((ins 6 (3 + 4 * 65536) (lp 4 up)).core 17).loops.length)) := by
  unfold State.AtInstr; decide +kernel

theorem wit_SequencersSwitchStartAndDrain_1 :
    -- clause 1
    (((modelled (flyAt (8 * 2 ^ 58 + 31))).AtInstr 17 0 8) ∧
      ((modelled (flyAt (8 * 2 ^ 58 + 31))).flag (R.SEQ_MODEL 17 (bitsOf ((modelled (flyAt (8 * 2 ^ 58 + 31))).slot 17 ((modelled (flyAt (8 * 2 ^ 58 + 31))).pc 17)).toNat 4 0)) F.SEQ_MODEL_VALID = true) ∧
      ((modelled (flyAt (8 * 2 ^ 58 + 31))).busy 17 = true)) ∧
    -- clause 2
    (((modelled (ins 8 31 up)).AtInstr 17 0 8) ∧
      ((modelled (ins 8 31 up)).flag (R.SEQ_MODEL 17 (bitsOf ((modelled (ins 8 31 up)).slot 17 ((modelled (ins 8 31 up)).pc 17)).toNat 4 0)) F.SEQ_MODEL_VALID = true) ∧
      ((modelled (ins 8 31 up)).busy 17 = false) ∧
      ((modelled (ins 8 31 up)).fld (R.SEQ_MODEL 17 (bitsOf ((modelled (ins 8 31 up)).slot 17 ((modelled (ins 8 31 up)).pc 17)).toNat 4 0)) F.SEQ_MODEL_IMAGE + 15 ≤ 16383) ∧
      (∀ (i : Nat), i < 16 → wordFld ((modelled (ins 8 31 up)).imageEntry 17 ((modelled (ins 8 31 up)).fld (R.SEQ_MODEL 17 (bitsOf ((modelled (ins 8 31 up)).slot 17 ((modelled (ins 8 31 up)).pc 17)).toNat 4 0)) F.SEQ_MODEL_IMAGE + i)).snd F.SPD_REGION_OWNER_CTX = 0)) ∧
    -- clause 3
    (((ins 10 0 (up.setReg (R.PWR_DOM_CTRL 17) 0)).AtInstr 17 0 10) ∧
      ((ins 10 0 (up.setReg (R.PWR_DOM_CTRL 17) 0)).busy 17 = false) ∧
      (((ins 10 0 (up.setReg (R.PWR_DOM_CTRL 17) 0)).core 17).loops = []) ∧
      ((ins 10 0 (up.setReg (R.PWR_DOM_CTRL 17) 0)).pc 17 < 16383) ∧
      ((ins 10 0 (up.setReg (R.PWR_DOM_CTRL 17) 0)).fld (R.PWR_DOM_CTRL 17) F.PWR_DOM_CTRL_MODE ≠ 2)) ∧
    -- clause 4
    (((ins 12 0 up).AtInstr 17 0 12) ∧
      ((ins 12 0 up).seqQuiet 17 0 = true)) ∧
    -- clause 5
    (((flyAt (12 * 2 ^ 58)).AtInstr 17 0 12) ∧
      ((flyAt (12 * 2 ^ 58)).seqQuiet 17 0 = false)) ∧
    -- clause 6
    (((noFlight (after (Instr.done 17) (flyAt (12 * 2 ^ 58)))).waitingFor 17 = some (0, SeqWait.done)) ∧
      ((noFlight (after (Instr.done 17) (flyAt (12 * 2 ^ 58)))).seqQuiet 17 0 = true)) ∧
    -- clause 7
    (((up.setReg (R.SEQ_ENTRY 17) 9).Admits 16 (R.SEQ_CTRL 17) PageKind.seq 17) ∧
      ((up.setReg (R.SEQ_ENTRY 17) 9).seqState 17 = Seq.halted) ∧
      (wordFld 1 F.SEQ_CTRL_DRAIN_REQ = 0)) ∧
    -- clause 8
    ((eltOk.Admits 16 (R.SEQ_CTRL 17) PageKind.seq 17) ∧
      (eltOk.seqState 17 = Seq.running) ∧
      (eltOk.busy 17 = false) ∧
      (eltOk.atBoundary 17 = true) ∧
      ((eltOk.core 17).wait = SeqWait.none)) ∧
    -- clause 9
    ((eltRun.Admits 16 (R.SEQ_CTRL 17) PageKind.seq 17) ∧
      (eltRun.seqState 17 = Seq.running) ∧
      (eltRun.busy 17 = true)) ∧
    -- clause 10
    (((after (Instr.drainReq 16 17 true) eltOk).Admits 16 (R.SEQ_CTRL 17) PageKind.seq 17) ∧
      ((after (Instr.drainReq 16 17 true) eltOk).seqState 17 = Seq.drained)) :=
  ⟨by unfold State.AtInstr; decide +kernel,
    by unfold State.AtInstr; decide +kernel,
    by unfold State.AtInstr; decide +kernel,
    by unfold State.AtInstr; decide +kernel,
    by unfold State.AtInstr; decide +kernel,
    by decide +kernel,
    by unfold State.Admits State.Permits; decide +kernel,
    by unfold State.Admits State.Permits; decide +kernel,
    by unfold State.Admits State.Permits; decide +kernel,
    by unfold State.Admits State.Permits; decide +kernel⟩

theorem wit_GangsReleaseAndStartTogether_1 :
    -- clause 1
    (((atWord 17 (11 * 2 ^ 58) up).AtInstr 17 0 11) ∧
      ((atWord 17 (11 * 2 ^ 58) up).fld (R.ARR_GANG 17) F.ARR_GANG_SIZE_LOG2 = 0) ∧
      (((atWord 17 (11 * 2 ^ 58) up).core 17).loops = []) ∧
      ((atWord 17 (11 * 2 ^ 58) up).pc 17 < 16383)) ∧
    -- clause 2
    ((barr.AtInstr 17 0 11) ∧
      (barr.fld (R.ARR_GANG 17) F.ARR_GANG_SIZE_LOG2 ≠ 0)) ∧
    -- clause 3
    (((barrW.core 17).ctx = some 0) ∧
      ((barrW.core 17).wait = SeqWait.barrier) ∧
      (barrW.gangWrong (barrW.gangOf 17) = false) ∧
      (∀ (m : Nat), m ∈ barrW.gangOf 17 → (barrW.core m).wait = SeqWait.barrier ∧ (barrW.core m).loops = [] ∧ barrW.pc m < 16383 ∧ barrW.flag (R.SEQ_CTRL m) F.SEQ_CTRL_DRAIN_REQ = false)) := by
  unfold State.AtInstr; decide +kernel

theorem wit_GangsReleaseAndStartTogether_2 :
    -- clause 1
    (((gGood.core 17).ctx = some 0) ∧
      ((gGood.core 17).arrival = some 8) ∧
      (gGood.gangWrong (gGood.gangOf 17) = false) ∧
      (opKind (gGood.descAt 17 8) = some OpKind.eltwise) ∧
      (∀ (m : Nat), m ∈ gGood.gangOf 17 → (opChk gGood (gGood.siteOf m 0 (gGood.descAt 17 8)) (gGood.descAt 17 8) OpKind.eltwise).faults = [])) ∧
    -- clause 2
    (((gBad.core 17).ctx = some 0) ∧
      ((gBad.core 17).arrival = some 8) ∧
      (gBad.gangWrong (gBad.gangOf 17) = false) ∧
      (opKind (gBad.descAt 17 8) = some OpKind.eltwise) ∧
      (∃ m, m ∈ gBad.gangOf 17 ∧ (opChk gBad (gBad.siteOf m 0 (gBad.descAt 17 8)) (gBad.descAt 17 8) OpKind.eltwise).faults ≠ [])) := by
  decide +kernel

theorem wit_TransfersPostAndStart_1 :
    -- clause 1
    (((xf 0).AtInstr 17 0 1) ∧
      (loopStep ((xf 0).core 17).loops ((xf 0).pc 17) = ([], 1)) ∧
      (1 ≤ 16383) ∧
      (bitsOf ((xf 0).slot 17 ((xf 0).pc 17)).toNat 13 0 + 7 ≤ 16383) ∧
      (Instr.dmaDaToRegion 17 = Instr.dmaDaToRegion 17 ∧ Op.opcode ((xf 0).descAt 17 (bitsOf ((xf 0).slot 17 ((xf 0).pc 17)).toNat 13 0)) = 10 ∧ Dma.dir ((xf 0).descAt 17 (bitsOf ((xf 0).slot 17 ((xf 0).pc 17)).toNat 13 0)) = 0 ∧ DmaKind.dma = DmaKind.dma) ∧
      (((xf 0).chan 17 (if DmaKind.dma = DmaKind.dma then Dma.chan ((xf 0).descAt 17 (bitsOf ((xf 0).slot 17 ((xf 0).pc 17)).toNat 13 0)) else Sq.chan ((xf 0).descAt 17 (bitsOf ((xf 0).slot 17 ((xf 0).pc 17)).toNat 13 0)))).queue.length < 8)) ∧
    -- clause 2
    (((xf 1).AtInstr 17 0 1) ∧
      (loopStep ((xf 1).core 17).loops ((xf 1).pc 17) = ([], 1)) ∧
      (bitsOf ((xf 1).slot 17 ((xf 1).pc 17)).toNat 13 0 + 7 ≤ 16383) ∧
      (Instr.dmaRegionToDa 17 = Instr.dmaRegionToDa 17 ∧ Op.opcode ((xf 1).descAt 17 (bitsOf ((xf 1).slot 17 ((xf 1).pc 17)).toNat 13 0)) = 10 ∧ Dma.dir ((xf 1).descAt 17 (bitsOf ((xf 1).slot 17 ((xf 1).pc 17)).toNat 13 0)) = 1 ∧ DmaKind.dma = DmaKind.dma) ∧
      (((xf 1).chan 17 (if DmaKind.dma = DmaKind.dma then Dma.chan ((xf 1).descAt 17 (bitsOf ((xf 1).slot 17 ((xf 1).pc 17)).toNat 13 0)) else Sq.chan ((xf 1).descAt 17 (bitsOf ((xf 1).slot 17 ((xf 1).pc 17)).toNat 13 0)))).queue.length < 8)) ∧
    -- clause 3
    (((xf 2).AtInstr 17 0 1) ∧
      (loopStep ((xf 2).core 17).loops ((xf 2).pc 17) = ([], 1)) ∧
      (bitsOf ((xf 2).slot 17 ((xf 2).pc 17)).toNat 13 0 + 7 ≤ 16383) ∧
      (Instr.dmaRegionToRegion 17 = Instr.dmaRegionToRegion 17 ∧ Op.opcode ((xf 2).descAt 17 (bitsOf ((xf 2).slot 17 ((xf 2).pc 17)).toNat 13 0)) = 10 ∧ Dma.dir ((xf 2).descAt 17 (bitsOf ((xf 2).slot 17 ((xf 2).pc 17)).toNat 13 0)) = 2 ∧ DmaKind.dma = DmaKind.dma) ∧
      (((xf 2).chan 17 (if DmaKind.dma = DmaKind.dma then Dma.chan ((xf 2).descAt 17 (bitsOf ((xf 2).slot 17 ((xf 2).pc 17)).toNat 13 0)) else Sq.chan ((xf 2).descAt 17 (bitsOf ((xf 2).slot 17 ((xf 2).pc 17)).toNat 13 0)))).queue.length < 8)) ∧
    -- clause 4
    (((xf 3).AtInstr 17 0 1) ∧
      (loopStep ((xf 3).core 17).loops ((xf 3).pc 17) = ([], 1)) ∧
      (bitsOf ((xf 3).slot 17 ((xf 3).pc 17)).toNat 13 0 + 7 ≤ 16383) ∧
      (Instr.dmaDaToImem 17 = Instr.dmaDaToImem 17 ∧ Op.opcode ((xf 3).descAt 17 (bitsOf ((xf 3).slot 17 ((xf 3).pc 17)).toNat 13 0)) = 10 ∧ Dma.dir ((xf 3).descAt 17 (bitsOf ((xf 3).slot 17 ((xf 3).pc 17)).toNat 13 0)) = 3 ∧ DmaKind.dma = DmaKind.dma) ∧
      (((xf 3).chan 17 (if DmaKind.dma = DmaKind.dma then Dma.chan ((xf 3).descAt 17 (bitsOf ((xf 3).slot 17 ((xf 3).pc 17)).toNat 13 0)) else Sq.chan ((xf 3).descAt 17 (bitsOf ((xf 3).slot 17 ((xf 3).pc 17)).toNat 13 0)))).queue.length < 8)) ∧
    -- clause 5
    (((xf 4).AtInstr 17 0 1) ∧
      (loopStep ((xf 4).core 17).loops ((xf 4).pc 17) = ([], 1)) ∧
      (bitsOf ((xf 4).slot 17 ((xf 4).pc 17)).toNat 13 0 + 7 ≤ 16383) ∧
      (Instr.dmaRegionToCore 17 = Instr.dmaRegionToCore 17 ∧ Op.opcode ((xf 4).descAt 17 (bitsOf ((xf 4).slot 17 ((xf 4).pc 17)).toNat 13 0)) = 10 ∧ Dma.dir ((xf 4).descAt 17 (bitsOf ((xf 4).slot 17 ((xf 4).pc 17)).toNat 13 0)) = 4 ∧ DmaKind.dma = DmaKind.dma) ∧
      (((xf 4).chan 17 (if DmaKind.dma = DmaKind.dma then Dma.chan ((xf 4).descAt 17 (bitsOf ((xf 4).slot 17 ((xf 4).pc 17)).toNat 13 0)) else Sq.chan ((xf 4).descAt 17 (bitsOf ((xf 4).slot 17 ((xf 4).pc 17)).toNat 13 0)))).queue.length < 8)) ∧
    -- clause 6
    (((xf 5).AtInstr 17 0 1) ∧
      (loopStep ((xf 5).core 17).loops ((xf 5).pc 17) = ([], 1)) ∧
      (bitsOf ((xf 5).slot 17 ((xf 5).pc 17)).toNat 13 0 + 7 ≤ 16383) ∧
      (Instr.dmaFill 17 = Instr.dmaFill 17 ∧ Op.opcode ((xf 5).descAt 17 (bitsOf ((xf 5).slot 17 ((xf 5).pc 17)).toNat 13 0)) = 10 ∧ Dma.dir ((xf 5).descAt 17 (bitsOf ((xf 5).slot 17 ((xf 5).pc 17)).toNat 13 0)) = 5 ∧ DmaKind.dma = DmaKind.dma) ∧
      (((xf 5).chan 17 (if DmaKind.dma = DmaKind.dma then Dma.chan ((xf 5).descAt 17 (bitsOf ((xf 5).slot 17 ((xf 5).pc 17)).toNat 13 0)) else Sq.chan ((xf 5).descAt 17 (bitsOf ((xf 5).slot 17 ((xf 5).pc 17)).toNat 13 0)))).queue.length < 8)) ∧
    -- clause 7
    (((dfull (xf 5)).AtInstr 17 0 1) ∧
      (loopStep ((dfull (xf 5)).core 17).loops ((dfull (xf 5)).pc 17) = ([], 1)) ∧
      (bitsOf ((dfull (xf 5)).slot 17 ((dfull (xf 5)).pc 17)).toNat 13 0 + 7 ≤ 16383) ∧
      (Instr.dmaFill 17 = Instr.dmaFill 17 ∧ Op.opcode ((dfull (xf 5)).descAt 17 (bitsOf ((dfull (xf 5)).slot 17 ((dfull (xf 5)).pc 17)).toNat 13 0)) = 10 ∧ Dma.dir ((dfull (xf 5)).descAt 17 (bitsOf ((dfull (xf 5)).slot 17 ((dfull (xf 5)).pc 17)).toNat 13 0)) = 5 ∧ DmaKind.dma = DmaKind.dma) ∧
      (8 ≤ ((dfull (xf 5)).chan 17 (if DmaKind.dma = DmaKind.dma then Dma.chan ((dfull (xf 5)).descAt 17 (bitsOf ((dfull (xf 5)).slot 17 ((dfull (xf 5)).pc 17)).toNat 13 0)) else Sq.chan ((dfull (xf 5)).descAt 17 (bitsOf ((dfull (xf 5)).slot 17 ((dfull (xf 5)).pc 17)).toNat 13 0)))).queue.length)) :=
  ⟨by unfold State.AtInstr; decide +kernel,
    by unfold State.AtInstr; decide +kernel,
    by unfold State.AtInstr; decide +kernel,
    by unfold State.AtInstr; decide +kernel,
    by unfold State.AtInstr; decide +kernel,
    by unfold State.AtInstr; decide +kernel,
    by unfold State.AtInstr; decide +kernel⟩

theorem wit_TransfersPostAndStart_2 :
    -- clause 1
    (((pg 3).AtInstr 17 0 1) ∧
      (loopStep ((pg 3).core 17).loops ((pg 3).pc 17) = ([], 1)) ∧
      (1 ≤ 16383) ∧
      (bitsOf ((pg 3).slot 17 ((pg 3).pc 17)).toNat 13 0 + 7 ≤ 16383) ∧
      (Instr.pageFetch 17 = Instr.pageFetch 17 ∧ Op.opcode ((pg 3).descAt 17 (bitsOf ((pg 3).slot 17 ((pg 3).pc 17)).toNat 13 0)) = 6 ∧ Sq.kind ((pg 3).descAt 17 (bitsOf ((pg 3).slot 17 ((pg 3).pc 17)).toNat 13 0)) = 3 ∧ DmaKind.pageFetch = DmaKind.pageFetch) ∧
      (((pg 3).chan 17 (if DmaKind.pageFetch = DmaKind.dma then Dma.chan ((pg 3).descAt 17 (bitsOf ((pg 3).slot 17 ((pg 3).pc 17)).toNat 13 0)) else Sq.chan ((pg 3).descAt 17 (bitsOf ((pg 3).slot 17 ((pg 3).pc 17)).toNat 13 0)))).queue.length < 8)) ∧
    -- clause 2
    (((pg 4).AtInstr 17 0 1) ∧
      (loopStep ((pg 4).core 17).loops ((pg 4).pc 17) = ([], 1)) ∧
      (bitsOf ((pg 4).slot 17 ((pg 4).pc 17)).toNat 13 0 + 7 ≤ 16383) ∧
      (Instr.pageStore 17 = Instr.pageStore 17 ∧ Op.opcode ((pg 4).descAt 17 (bitsOf ((pg 4).slot 17 ((pg 4).pc 17)).toNat 13 0)) = 6 ∧ Sq.kind ((pg 4).descAt 17 (bitsOf ((pg 4).slot 17 ((pg 4).pc 17)).toNat 13 0)) = 4 ∧ DmaKind.pageStore = DmaKind.pageStore) ∧
      (((pg 4).chan 17 (if DmaKind.pageStore = DmaKind.dma then Dma.chan ((pg 4).descAt 17 (bitsOf ((pg 4).slot 17 ((pg 4).pc 17)).toNat 13 0)) else Sq.chan ((pg 4).descAt 17 (bitsOf ((pg 4).slot 17 ((pg 4).pc 17)).toNat 13 0)))).queue.length < 8)) := by
  unfold State.AtInstr; decide +kernel

theorem wit_TransfersPostAndStart_3 :
    -- clause 1
    ((heldDma.swapReqs = []) ∧
      ((heldDma.chan 17 3).cur = none) ∧
      ((heldDma.chan 17 3).queue = [pd 0]) ∧
      (heldDma.domOn 17 = true) ∧
      (heldDma.flag (R.SPD_DMA_CTRL 17 3) F.SPD_DMA_CTRL_HOLD = true)) ∧
    -- clause 2
    (((posted 0).swapReqs = []) ∧
      (((posted 0).chan 17 3).cur = none) ∧
      (((posted 0).chan 17 3).queue = [pd 0]) ∧
      ((posted 0).domOn 17 = true) ∧
      ((posted 0).flag (R.SPD_DMA_CTRL 17 3) F.SPD_DMA_CTRL_HOLD = false) ∧
      ((descChk (chanStatus 17 3 0 ((posted 0).setChan 17 3 ((posted 0).chan 17 3))) 17 3 (pd 0)).faults ≠ [])) := by
  decide +kernel

theorem wit_TransfersPostAndStart_4 :
    -- clause 1
    (((postedR 1 1).swapReqs = []) ∧
      (((postedR 1 1).chan 17 3).cur = none) ∧
      (((postedR 1 1).chan 17 3).queue = [pd 1]) ∧
      ((postedR 1 1).domOn 17 = true) ∧
      ((postedR 1 1).flag (R.SPD_DMA_CTRL 17 3) F.SPD_DMA_CTRL_HOLD = false) ∧
      ((descChk (chanStatus 17 3 0 ((postedR 1 1).setChan 17 3 ((postedR 1 1).chan 17 3))) 17 3 (pd 1)).faults = []) ∧
      ((pd 1).kind = DmaKind.dma) ∧
      (Dma.dir (pd 1).desc = 0 ∨ Dma.dir (pd 1).desc = 1 ∨ Dma.dir (pd 1).desc = 3)) := by
  decide +kernel

theorem wit_TransfersFinishTimeOutAndAreHeld_1 :
    -- clause 1
    (((fillW.chan 17 3).cur = some (pd 5)) ∧
      ((fillW.chan 17 3).room = true) ∧
      ((pd 5).kind = DmaKind.dma) ∧
      (Dma.dir (pd 5).desc = 5) ∧
      (Dma.commitRows (pd 5).desc = 0) ∧
      (Op.sigEn (pd 5).desc = false) ∧
      (Dma.relSrc (pd 5).desc = false) ∧
      ((pd 5).host = none) ∧
      (Memory.wf fillW.spad = true) ∧
      ((fillW.rgn 17 (Dma.regDst (pd 5).desc)).raw = false) ∧
      ((fillW.rgn 17 (Dma.regDst (pd 5).desc)).base + (fillW.rgn 17 (Dma.regDst (pd 5).desc)).size ≤ 65536) ∧
      ((fillW.chan 17 3).moved + 1 = Dma.rows (pd 5).desc) ∧
      ((fillW.chan 17 3).moved < (fillW.rgn 17 (Dma.regDst (pd 5).desc)).free) ∧
      (fillW.domOn 17 = true) ∧
      (fillW.accessOk 17 (pd 5).ctx (Dma.regDst (pd 5).desc) (some ({ kind := 1, id := 3 } : Writer)) = true)) ∧
    -- clause 2
    ((((fillW.setReg (R.SPD_DMA_WAIT_LIMIT 17) 1).chan 17 3).cur = some (pd 5)) ∧
      (((fillW.setReg (R.SPD_DMA_WAIT_LIMIT 17) 1).chan 17 3).room = true) ∧
      ((fillW.setReg (R.SPD_DMA_WAIT_LIMIT 17) 1).reg (R.SPD_DMA_WAIT_LIMIT 17) ≠ 0)) := by
  decide +kernel

theorem wit_TransfersFinishTimeOutAndAreHeld_2 :
    -- clause 1
    ((up.Admits 16 (R.SPD_DMA_CTRL 17 3) PageKind.spd4 17)) ∧
    -- clause 2
    (((up.modCore 17 fun c => ({ c with submit := [(48, 10)] } : Core)).Admits 16 (R.SPD_DMA_SUBMIT 17 3 15) PageKind.spd4 17) ∧
      (((up.modCore 17 fun c => ({ c with submit := [(48, 10)] } : Core)).chan 17 3).queue.length < 8) ∧
      (Op.opcode (List.map (fun i => Tab.get ((up.modCore 17 fun c => ({ c with submit := [(48, 10)] } : Core)).core 17).submit 0 (16 * 3 + i)) (List.range 15) ++ [7]) = 10)) ∧
    -- clause 3
    (((dfull up).Admits 16 (R.SPD_DMA_SUBMIT 17 3 15) PageKind.spd4 17) ∧
      (8 ≤ ((dfull up).chan 17 3).queue.length)) := by
  unfold State.Admits State.Permits; decide +kernel

theorem wit_ReleasesAndBankSwaps_1 :
    -- clause 1
    ((relS.Admits 16 (R.SPD_RELEASE 17) PageKind.spd5 17) ∧
      ((relS.rgn 17 (wordFld (63 * 65536 + 4) F.SPD_RELEASE_REGION)).raw = false) ∧
      ((relS.rgn 17 (wordFld (63 * 65536 + 4) F.SPD_RELEASE_REGION)).head < (relS.rgn 17 (wordFld (63 * 65536 + 4) F.SPD_RELEASE_REGION)).size) ∧
      ((relS.rgn 17 (wordFld (63 * 65536 + 4) F.SPD_RELEASE_REGION)).tail < (relS.rgn 17 (wordFld (63 * 65536 + 4) F.SPD_RELEASE_REGION)).size) ∧
      ((relS.rgn 17 (wordFld (63 * 65536 + 4) F.SPD_RELEASE_REGION)).head = (relS.rgn 17 (wordFld (63 * 65536 + 4) F.SPD_RELEASE_REGION)).tail ∨ ((relS.rgn 17 (wordFld (63 * 65536 + 4) F.SPD_RELEASE_REGION)).headWrap == (relS.rgn 17 (wordFld (63 * 65536 + 4) F.SPD_RELEASE_REGION)).tailWrap) = decide ((relS.rgn 17 (wordFld (63 * 65536 + 4) F.SPD_RELEASE_REGION)).tail ≤ (relS.rgn 17 (wordFld (63 * 65536 + 4) F.SPD_RELEASE_REGION)).head))) ∧
    -- clause 2
    (((relS.rgn 17 (wordFld (63 * 65536 + 9) F.SPD_RELEASE_REGION)).raw = false) ∧
      ((relS.rgn 17 (wordFld (63 * 65536 + 9) F.SPD_RELEASE_REGION)).head < (relS.rgn 17 (wordFld (63 * 65536 + 9) F.SPD_RELEASE_REGION)).size) ∧
      ((relS.rgn 17 (wordFld (63 * 65536 + 9) F.SPD_RELEASE_REGION)).tail < (relS.rgn 17 (wordFld (63 * 65536 + 9) F.SPD_RELEASE_REGION)).size) ∧
      ((relS.rgn 17 (wordFld (63 * 65536 + 9) F.SPD_RELEASE_REGION)).head = (relS.rgn 17 (wordFld (63 * 65536 + 9) F.SPD_RELEASE_REGION)).tail ∨ ((relS.rgn 17 (wordFld (63 * 65536 + 9) F.SPD_RELEASE_REGION)).headWrap == (relS.rgn 17 (wordFld (63 * 65536 + 9) F.SPD_RELEASE_REGION)).tailWrap) = decide ((relS.rgn 17 (wordFld (63 * 65536 + 9) F.SPD_RELEASE_REGION)).tail ≤ (relS.rgn 17 (wordFld (63 * 65536 + 9) F.SPD_RELEASE_REGION)).head))) ∧
    -- clause 3
    (((relS.rgn 17 (wordFld (63 * 65536) F.SPD_RELEASE_REGION)).raw = false) ∧
      ((relS.rgn 17 (wordFld (63 * 65536) F.SPD_RELEASE_REGION)).head < (relS.rgn 17 (wordFld (63 * 65536) F.SPD_RELEASE_REGION)).size) ∧
      ((relS.rgn 17 (wordFld (63 * 65536) F.SPD_RELEASE_REGION)).tail < (relS.rgn 17 (wordFld (63 * 65536) F.SPD_RELEASE_REGION)).size) ∧
      ((relS.rgn 17 (wordFld (63 * 65536) F.SPD_RELEASE_REGION)).head = (relS.rgn 17 (wordFld (63 * 65536) F.SPD_RELEASE_REGION)).tail ∨ ((relS.rgn 17 (wordFld (63 * 65536) F.SPD_RELEASE_REGION)).headWrap == (relS.rgn 17 (wordFld (63 * 65536) F.SPD_RELEASE_REGION)).tailWrap) = decide ((relS.rgn 17 (wordFld (63 * 65536) F.SPD_RELEASE_REGION)).tail ≤ (relS.rgn 17 (wordFld (63 * 65536) F.SPD_RELEASE_REGION)).head))) := by
  unfold State.Admits State.Permits; decide +kernel

theorem wit_ReleasesAndBankSwaps_2 :
    -- clause 1
    ((relS.Admits 16 (R.SPD_RELEASE 17) PageKind.spd5 17) ∧
      ((relS.rgn 17 (wordFld (63 * 65536 + 4) F.SPD_RELEASE_REGION)).raw = false) ∧
      ((relS.rgn 17 (wordFld (63 * 65536 + 4) F.SPD_RELEASE_REGION)).head < (relS.rgn 17 (wordFld (63 * 65536 + 4) F.SPD_RELEASE_REGION)).size) ∧
      ((relS.rgn 17 (wordFld (63 * 65536 + 4) F.SPD_RELEASE_REGION)).tail < (relS.rgn 17 (wordFld (63 * 65536 + 4) F.SPD_RELEASE_REGION)).size) ∧
      ((relS.rgn 17 (wordFld (63 * 65536 + 4) F.SPD_RELEASE_REGION)).head = (relS.rgn 17 (wordFld (63 * 65536 + 4) F.SPD_RELEASE_REGION)).tail ∨ ((relS.rgn 17 (wordFld (63 * 65536 + 4) F.SPD_RELEASE_REGION)).headWrap == (relS.rgn 17 (wordFld (63 * 65536 + 4) F.SPD_RELEASE_REGION)).tailWrap) = decide ((relS.rgn 17 (wordFld (63 * 65536 + 4) F.SPD_RELEASE_REGION)).tail ≤ (relS.rgn 17 (wordFld (63 * 65536 + 4) F.SPD_RELEASE_REGION)).head))) ∧
    -- clause 2
    ((up.Admits 16 (R.SPD_BANK_SWAP 17) PageKind.spd3 17) ∧
      (wordFld 95 F.SPD_BANK_SWAP_LOGICAL ≤ 95) ∧
      ((up.drainedCore 17 && (up.core 17).bankSwap.isNone && (up.freeBank 17).isSome) = true) ∧
      (up.freeBank 17 = some 96)) ∧
    -- clause 3
    (((atWord 17 0 up).Admits 16 (R.SPD_BANK_SWAP 17) PageKind.spd3 17) ∧
      (((atWord 17 0 up).drainedCore 17 && ((atWord 17 0 up).core 17).bankSwap.isNone && ((atWord 17 0 up).freeBank 17).isSome) = false)) ∧
    -- clause 4
    (((resv (bank up)).recs.reserve = true) ∧
      ((resv (bank up)).busy 17 = false) ∧
      ((resv (bank up)).domOn 17 = true) ∧
      (((resv (bank up)).core 17).bankSwap = none) ∧
      (((resv (bank up)).core 17).bankDue = [95, 1]) ∧
      ((resv (bank up)).logicalOf 17 95 = some 95) ∧
      ((resv (bank up)).freeBank 17 = some 96)) ∧
    -- clause 5
    (((gone (resv (bank up))).recs.reserve = true) ∧
      ((gone (resv (bank up))).busy 17 = false) ∧
      ((gone (resv (bank up))).domOn 17 = true) ∧
      (((gone (resv (bank up))).core 17).bankSwap = none) ∧
      (((gone (resv (bank up))).core 17).bankDue = [95, 1]) ∧
      ((gone (resv (bank up))).logicalOf 17 95 = some 95) ∧
      ((gone (resv (bank up))).freeBank 17 = none)) ∧
    -- clause 6
    (((swapping.core 17).bankSwap = some ({ logical := 95, phys := 99 } : BankSwapRun)) ∧
      (({ logical := 95, phys := 99 } : BankSwapRun).logical < 96) ∧
      (({ logical := 95, phys := 99 } : BankSwapRun).phys < 100) ∧
      (0 < swapping.fld (R.REL_CORE 17) F.REL_CORE_BANKS_FREE) ∧
      ((swapping.core 17).wait = SeqWait.none)) :=
  ⟨by unfold State.Admits State.Permits; decide +kernel,
    by unfold State.Admits State.Permits; decide +kernel,
    by unfold State.Admits State.Permits; decide +kernel,
    by decide +kernel,
    by decide +kernel,
    by decide +kernel⟩

theorem wit_ScansPostAndStart_1 :
    -- clause 1
    (((scanS 0).AtInstr 17 0 1) ∧
      (loopStep ((scanS 0).core 17).loops ((scanS 0).pc 17) = ([], 1)) ∧
      (1 ≤ 16383) ∧
      (bitsOf ((scanS 0).slot 17 ((scanS 0).pc 17)).toNat 13 0 + 7 ≤ 16383) ∧
      (Op.opcode ((scanS 0).descAt 17 (bitsOf ((scanS 0).slot 17 ((scanS 0).pc 17)).toNat 13 0)) = 7) ∧
      ((scanS 0).strEntry 0 (Scan.stream ((scanS 0).descAt 17 (bitsOf ((scanS 0).slot 17 ((scanS 0).pc 17)).toNat 13 0))) = some 4095) ∧
      (((scanS 0).core 17).scanQ.length < 16) ∧
      ((scanS 0).strValid 4095 = true) ∧
      ((scanS 0).strLoc 4095 = 0)) ∧
    -- clause 2
    (((scanS 2).AtInstr 17 0 1) ∧
      (loopStep ((scanS 2).core 17).loops ((scanS 2).pc 17) = ([], 1)) ∧
      (bitsOf ((scanS 2).slot 17 ((scanS 2).pc 17)).toNat 13 0 + 7 ≤ 16383) ∧
      (Op.opcode ((scanS 2).descAt 17 (bitsOf ((scanS 2).slot 17 ((scanS 2).pc 17)).toNat 13 0)) = 7) ∧
      ((scanS 2).strEntry 0 (Scan.stream ((scanS 2).descAt 17 (bitsOf ((scanS 2).slot 17 ((scanS 2).pc 17)).toNat 13 0))) = some 4095) ∧
      (((scanS 2).core 17).scanQ.length < 16) ∧
      ((scanS 2).strValid 4095 = true) ∧
      ((scanS 2).strLoc 4095 = 2) ∧
      ((scanS 2).strCore 4095 = 17) ∧
      (((scanS 2).chan 17 ((scanS 2).swapChan 4095).snd).queue.length < 8)) ∧
    -- clause 3
    ((scanFull.AtInstr 17 0 1) ∧
      (loopStep (scanFull.core 17).loops (scanFull.pc 17) = ([], 1)) ∧
      (bitsOf (scanFull.slot 17 (scanFull.pc 17)).toNat 13 0 + 7 ≤ 16383) ∧
      (Op.opcode (scanFull.descAt 17 (bitsOf (scanFull.slot 17 (scanFull.pc 17)).toNat 13 0)) = 7) ∧
      (scanFull.strEntry 0 (Scan.stream (scanFull.descAt 17 (bitsOf (scanFull.slot 17 (scanFull.pc 17)).toNat 13 0))) = some 4095) ∧
      (16 ≤ (scanFull.core 17).scanQ.length)) :=
  ⟨by unfold State.AtInstr; decide +kernel,
    by unfold State.AtInstr; decide +kernel,
    by unfold State.AtInstr; decide +kernel⟩

theorem wit_ScansPostAndStart_2 :
    -- clause 1
    (((scanW.core 17).scanQ = [scanC]) ∧
      (scanW.domOn 17 = true) ∧
      ((scanW.core 17).ops = []) ∧
      (scanC.running = false) ∧
      (scanW.strValid scanC.entry = true) ∧
      (scanW.strLoc scanC.entry = 0) ∧
      ((scanFaults scanW 17 scanC.ctx scanC.desc).snd = [])) ∧
    -- clause 2
    (((scanBad.core 17).scanQ = [scanC]) ∧
      (scanBad.domOn 17 = true) ∧
      ((scanBad.core 17).ops = []) ∧
      (scanBad.strValid scanC.entry = true) ∧
      (scanBad.strLoc scanC.entry = 0) ∧
      ((scanFaults scanBad 17 scanC.ctx scanC.desc).snd ≠ [])) ∧
    -- clause 3
    (((scanLost.core 17).scanQ = [scanC]) ∧
      (scanLost.strValid scanC.entry = true) ∧
      (scanLost.strLoc scanC.entry ≠ 0) ∧
      (scanLost.reg (R.VEC_SCAN_WAIT_LIMIT 17) ≠ 0)) := by
  decide +kernel

theorem wit_StreamEntriesAndPartitions_1 :
    -- clause 1
    ((strIdle.Admits 16 R.STR_CMD PageKind.ctlStr 0) ∧
      (strIdle.strOwned (strIdle.fld R.STR_SEL F.STR_SEL_INDEX) = true) ∧
      (strIdle.strHeld (strIdle.fld R.STR_SEL F.STR_SEL_INDEX) = false)) ∧
    -- clause 3
    ((strHeld.Admits 16 R.STR_CMD PageKind.ctlStr 0) ∧
      (strHeld.strOwned (strHeld.fld R.STR_SEL F.STR_SEL_INDEX) = true) ∧
      (strHeld.strHeld (strHeld.fld R.STR_SEL F.STR_SEL_INDEX) = true) ∧
      (Instr.strWrite 16 ∈ [Instr.strWrite 16, Instr.strInvalidate 16])) ∧
    -- clause 4
    ((Instr.strInvalidate 16 ∈ [Instr.strWrite 16, Instr.strInvalidate 16])) ∧
    -- clause 5
    ((strOut.Admits 16 R.STR_CMD PageKind.ctlStr 0) ∧
      (strOut.strOwned (strOut.fld R.STR_SEL F.STR_SEL_INDEX) = false) ∧
      (Instr.strWrite 16 ∈ [Instr.strWrite 16, Instr.strRead 16, Instr.strSwapOut 16, Instr.strSwapIn 16, Instr.strSetReset 16, Instr.strInvalidate 16])) ∧
    -- clause 6
    ((Instr.strRead 16 ∈ [Instr.strWrite 16, Instr.strRead 16, Instr.strSwapOut 16, Instr.strSwapIn 16, Instr.strSetReset 16, Instr.strInvalidate 16])) ∧
    -- clause 7
    ((Instr.strSwapOut 16 ∈ [Instr.strWrite 16, Instr.strRead 16, Instr.strSwapOut 16, Instr.strSwapIn 16, Instr.strSetReset 16, Instr.strInvalidate 16])) ∧
    -- clause 8
    ((Instr.strSwapIn 16 ∈ [Instr.strWrite 16, Instr.strRead 16, Instr.strSwapOut 16, Instr.strSwapIn 16, Instr.strSetReset 16, Instr.strInvalidate 16])) ∧
    -- clause 9
    ((Instr.strSetReset 16 ∈ [Instr.strWrite 16, Instr.strRead 16, Instr.strSwapOut 16, Instr.strSwapIn 16, Instr.strSetReset 16, Instr.strInvalidate 16])) ∧
    -- clause 10
    ((Instr.strInvalidate 16 ∈ [Instr.strWrite 16, Instr.strRead 16, Instr.strSwapOut 16, Instr.strSwapIn 16, Instr.strSetReset 16, Instr.strInvalidate 16])) := by
  unfold State.Admits State.Permits; decide +kernel

theorem wit_StreamEntriesAndPartitions_2 :
    -- clause 1
    ((strIdle.Admits 16 (R.STR_PART 127) PageKind.ctlStr 0) ∧
      (wordFld (wordSet (wordSet 0 F.STR_PART_BASE 0) F.STR_PART_COUNT 4090) F.STR_PART_COUNT ≤ 4096) ∧
      (strIdle.partOverlaps 127 (wordSet (wordSet 0 F.STR_PART_BASE 0) F.STR_PART_COUNT 4090) = false)) ∧
    -- clause 2
    ((wordFld (wordSet (wordSet 0 F.STR_PART_BASE 0) F.STR_PART_COUNT 4091) F.STR_PART_COUNT ≤ 4096) ∧
      (strIdle.partOverlaps 127 (wordSet (wordSet 0 F.STR_PART_BASE 0) F.STR_PART_COUNT 4091) = true)) := by
  unfold State.Admits State.Permits; decide +kernel

theorem wit_StreamsSwapOutAndIn_1 :
    -- clause 1
    ((strIdle.strValid 4095 = true) ∧
      (strIdle.strCore 4095 ≤ 17) ∧
      (strIdle.Admits 16 R.STR_CMD PageKind.ctlStr 0) ∧
      (strIdle.fld R.STR_SEL F.STR_SEL_INDEX = 4095) ∧
      (strIdle.strOwned 4095 = true) ∧
      (strIdle.strLoc 4095 = 0) ∧
      ((strIdle.swapReqs.any fun q => q.entry == 4095 && q.out) = false)) ∧
    -- clause 2
    ((outReq.strValid 4095 = true) ∧
      (outReq.strCore 4095 ≤ 17) ∧
      (outReq.strLoc 4095 = 0) ∧
      (outReq.strBusy 4095 = false) ∧
      ((outReq.swapReqs.any fun q => q.entry == 4095 && q.out) = true) ∧
      ((outReq.chan (outReq.swapChan 4095).fst (outReq.swapChan 4095).snd).queue.length < 8)) ∧
    -- clause 3
    ((outGo.strValid 4095 = true) ∧
      (outGo.strCore 4095 ≤ 17) ∧
      (outGo.strLoc 4095 = 1) ∧
      (outGo.strBusy 4095 = false) ∧
      (outGo.swapEnds 4095 (DmaKind.swapOut 4095) = some ((outGo.swapChan 4095).fst, (outGo.swapChan 4095).snd))) ∧
    -- clause 4
    (((stream 2 up).strValid 4095 = true) ∧
      ((stream 2 up).strCore 4095 ≤ 17) ∧
      ((stream 2 up).Admits 16 R.STR_CMD PageKind.ctlStr 0) ∧
      ((stream 2 up).fld R.STR_SEL F.STR_SEL_INDEX = 4095) ∧
      ((stream 2 up).strOwned 4095 = true) ∧
      ((stream 2 up).strLoc 4095 = 2) ∧
      (((stream 2 up).chan ((stream 2 up).swapChan 4095).fst ((stream 2 up).swapChan 4095).snd).queue.length < 8)) ∧
    -- clause 5
    ((inGo.strValid 4095 = true) ∧
      (inGo.strCore 4095 ≤ 17) ∧
      (inGo.strLoc 4095 = 3) ∧
      (inGo.swapEnds 4095 (DmaKind.swapIn 4095) = some ((inGo.swapChan 4095).fst, (inGo.swapChan 4095).snd))) :=
  ⟨by unfold State.Admits State.Permits; decide +kernel,
    by decide +kernel,
    by decide +kernel,
    by unfold State.Admits State.Permits; decide +kernel,
    by decide +kernel⟩

theorem wit_DaAccessesPassStageOneAndComplete_1 :
    -- clause 1
    (((mapped up).stage1 0 (tenantOf 0) daIn 512 false = true) ∧
      ((mapped up).domOn ((mapped up).sectorDomain daIn) = true)) ∧
    -- clause 2
    (((mapped up).stage1 0 (tenantOf 0) daIn 512 (some (List.replicate 512 7#8)).isSome = true)) ∧
    -- clause 3
    (((mapped up).stage1 0 (tenantOf 0) (daIn + 512) 512 false = false)) ∧
    -- clause 4
    ((rd.mt.accs[0]? = some ({ agent := TierAgent.engine 0, owner := 0, da := daIn, row := 0, write := none, poison := 0, result := none } : TierAcc)) ∧
      (({ agent := TierAgent.engine 0, owner := 0, da := daIn, row := 0, write := none, poison := 0, result := none } : TierAcc).agent = TierAgent.engine 0) ∧
      (({ agent := TierAgent.engine 0, owner := 0, da := daIn, row := 0, write := none, poison := 0, result := none } : TierAcc).write = none) ∧
      (({ agent := TierAgent.engine 0, owner := 0, da := daIn, row := 0, write := none, poison := 0, result := none } : TierAcc).result = none) ∧
      (rd.accReady 0 = true)) ∧
    -- clause 5
    ((wr.mt.accs[0]? = some ({ agent := TierAgent.engine 0, owner := 0, da := daIn, row := 0, write := some (List.replicate 512 7#8), poison := 0, result := none } : TierAcc)) ∧
      (({ agent := TierAgent.engine 0, owner := 0, da := daIn, row := 0, write := some (List.replicate 512 7#8), poison := 0, result := none } : TierAcc).agent = TierAgent.engine 0) ∧
      (({ agent := TierAgent.engine 0, owner := 0, da := daIn, row := 0, write := some (List.replicate 512 7#8), poison := 0, result := none } : TierAcc).write = some (List.replicate 512 7#8)) ∧
      (wr.accReady 0 = true) ∧
      (Memory.wf wr.da = true) ∧
      ((List.replicate 512 7#8).length = 512) ∧
      (({ agent := TierAgent.engine 0, owner := 0, da := daIn, row := 0, write := some (List.replicate 512 7#8), poison := 0, result := none } : TierAcc).poison = 0)) := by
  decide +kernel

theorem wit_SectorsReadBackWhatTheirOwnerWrote_1 :
    -- clause 1
    ((Memory.wf (mapped up).da = true) ∧
      ((List.replicate 512 7#8).length = 512) ∧
      (3 ≤ 3) ∧
      (daIn % 512 = 0) ∧
      (1 ≠ 0)) ∧
    -- clause 2
    ((0 = 2 * 0 + (mapped up).granuleEpoch daIn) ∧
      (5 ≠ (mapped up).keyGen 0)) ∧
    -- clause 3
    ((0 ≤ 3) ∧
      (0 = 0)) := by
  decide +kernel

theorem wit_PagesAreAllocatedFilledMovedAndFreed_1 :
    -- clause 1
    (((quota (p2 up)).Admits 16 R.MT_PG_CMD PageKind.mt2 0) ∧
      ((quota (p2 up)).flag R.MT_PG_STATUS F.MT_PG_STATUS_BUSY = false) ∧
      ((quota (p2 up)).backed ((quota (p2 up)).fld R.MT_PG_SEL F.MT_PG_SEL_PAGE) = true) ∧
      (((quota (p2 up)).page ((quota (p2 up)).fld R.MT_PG_SEL F.MT_PG_SEL_PAGE)).owner = none) ∧
      ((quota (p2 up)).mt.frees.contains ((quota (p2 up)).fld R.MT_PG_SEL F.MT_PG_SEL_PAGE) = false) ∧
      (1 = 1 → decide ((quota (p2 up)).fld (R.MT_PIN_QUOTA 15) F.MT_PIN_QUOTA_PAGES ≤ (quota (p2 up)).pinned 15) = false) ∧
      (List.find? (fun t => (quota (p2 up)).freeCount t != 0) ((quota (p2 up)).allocTiers 1) = some 0)) := by
  unfold State.Admits State.Permits; decide +kernel

theorem wit_PagesAreAllocatedFilledMovedAndFreed_2 :
    -- clause 1
    ((((p2 up).setReg (R.MT_PIN_QUOTA 15) 0).Admits 16 R.MT_PG_CMD PageKind.mt2 0) ∧
      (((p2 up).setReg (R.MT_PIN_QUOTA 15) 0).flag R.MT_PG_STATUS F.MT_PG_STATUS_BUSY = false) ∧
      (((p2 up).setReg (R.MT_PIN_QUOTA 15) 0).backed (((p2 up).setReg (R.MT_PIN_QUOTA 15) 0).fld R.MT_PG_SEL F.MT_PG_SEL_PAGE) = true) ∧
      ((((p2 up).setReg (R.MT_PIN_QUOTA 15) 0).page (((p2 up).setReg (R.MT_PIN_QUOTA 15) 0).fld R.MT_PG_SEL F.MT_PG_SEL_PAGE)).owner = none) ∧
      (((p2 up).setReg (R.MT_PIN_QUOTA 15) 0).mt.frees.contains (((p2 up).setReg (R.MT_PIN_QUOTA 15) 0).fld R.MT_PG_SEL F.MT_PG_SEL_PAGE) = false) ∧
      (1 = 1) ∧
      (decide (((p2 up).setReg (R.MT_PIN_QUOTA 15) 0).fld (R.MT_PIN_QUOTA 15) F.MT_PIN_QUOTA_PAGES ≤ ((p2 up).setReg (R.MT_PIN_QUOTA 15) 0).pinned 15) = true)) ∧
    -- clause 2
    (((p3 up).Admits 16 R.MT_PG_CMD PageKind.mt2 0) ∧
      ((p3 up).flag R.MT_PG_STATUS F.MT_PG_STATUS_BUSY = false) ∧
      ((p3 up).backed ((p3 up).fld R.MT_PG_SEL F.MT_PG_SEL_PAGE) = true) ∧
      (((p3 up).page ((p3 up).fld R.MT_PG_SEL F.MT_PG_SEL_PAGE)).owner = some 0) ∧
      (((p3 up).page ((p3 up).fld R.MT_PG_SEL F.MT_PG_SEL_PAGE)).moving = false)) ∧
    -- clause 3
    ((0 = 1 → ((p3 up).page ((p3 up).fld R.MT_PG_SEL F.MT_PG_SEL_PAGE)).place ≠ 1 → decide ((p3 up).fld (R.MT_PIN_QUOTA 0) F.MT_PIN_QUOTA_PAGES ≤ (p3 up).pinned 0) = false)) := by
  unfold State.Admits State.Permits; decide +kernel

theorem wit_PagesAreAllocatedFilledMovedAndFreed_3 :
    -- clause 1
    ((freed.mt.frees = [3]) ∧
      (∀ (a : TierAcc), a ∈ freed.mt.accs → pageOf a.da ≠ 3)) ∧
    -- clause 2
    (((up.modMt fun m => ({ m with fills := [3, 4] } : Mt)).mt.job = none) ∧
      ((up.modMt fun m => ({ m with fills := [3, 4] } : Mt)).mt.fills = [3, 4])) ∧
    -- clause 3
    (((jobF up).mt.job = some (MigJob.fill 3)) ∧
      ((jobF up).domOn ((jobF up).sectorDomain (3 * 2 ^ 21)) = true) ∧
      (Memory.wf (jobF up).da = true)) ∧
    -- clause 4
    ((0 < 4096 * (jobF up).fld R.MT_AGE_CFG F.MT_AGE_CFG_TICK)) ∧
    -- clause 5
    (((jobF up).fld R.REL_THR F.REL_THR_PATROL_H ≠ 0)) := by
  decide +kernel

theorem wit_PagesAreAllocatedFilledMovedAndFreed_4 :
    -- clause 1
    (((p3 up).Admits 16 R.MT_PG_CMD PageKind.mt2 0) ∧
      ((p3 up).flag R.MT_PG_STATUS F.MT_PG_STATUS_BUSY = false) ∧
      ((p3 up).backed ((p3 up).fld R.MT_PG_SEL F.MT_PG_SEL_PAGE) = true) ∧
      (((p3 up).page ((p3 up).fld R.MT_PG_SEL F.MT_PG_SEL_PAGE)).owner = some 0) ∧
      (((p3 up).page ((p3 up).fld R.MT_PG_SEL F.MT_PG_SEL_PAGE)).moving = false)) ∧
    -- clause 2
    ((0 = 1 → ((p3 up).page ((p3 up).fld R.MT_PG_SEL F.MT_PG_SEL_PAGE)).place ≠ 1 → decide ((p3 up).fld (R.MT_PIN_QUOTA 0) F.MT_PIN_QUOTA_PAGES ≤ (p3 up).pinned 0) = false)) := by
  unfold State.Admits State.Permits; decide +kernel

theorem wit_PagesAreAllocatedFilledMovedAndFreed_5 :
    -- clause 1
    (((p3 up).Admits 16 R.MT_PG_CMD PageKind.mt2 0) ∧
      ((p3 up).flag R.MT_PG_STATUS F.MT_PG_STATUS_BUSY = false) ∧
      ((p3 up).backed ((p3 up).fld R.MT_PG_SEL F.MT_PG_SEL_PAGE) = true)) := by
  unfold State.Admits State.Permits; decide +kernel

theorem wit_PagesAreAllocatedFilledMovedAndFreed_6 :
    -- clause 1
    ((((p2 up).setReg (R.MT_PIN_QUOTA 15) 0).Admits 16 R.MT_PG_CMD PageKind.mt2 0) ∧
      (((p2 up).setReg (R.MT_PIN_QUOTA 15) 0).flag R.MT_PG_STATUS F.MT_PG_STATUS_BUSY = false) ∧
      (((p2 up).setReg (R.MT_PIN_QUOTA 15) 0).backed (((p2 up).setReg (R.MT_PIN_QUOTA 15) 0).fld R.MT_PG_SEL F.MT_PG_SEL_PAGE) = true) ∧
      ((((p2 up).setReg (R.MT_PIN_QUOTA 15) 0).page (((p2 up).setReg (R.MT_PIN_QUOTA 15) 0).fld R.MT_PG_SEL F.MT_PG_SEL_PAGE)).owner = none) ∧
      (((p2 up).setReg (R.MT_PIN_QUOTA 15) 0).mt.frees.contains (((p2 up).setReg (R.MT_PIN_QUOTA 15) 0).fld R.MT_PG_SEL F.MT_PG_SEL_PAGE) = false) ∧
      (1 = 1) ∧
      (decide (((p2 up).setReg (R.MT_PIN_QUOTA 15) 0).fld (R.MT_PIN_QUOTA 15) F.MT_PIN_QUOTA_PAGES ≤ ((p2 up).setReg (R.MT_PIN_QUOTA 15) 0).pinned 15) = true)) := by
  unfold State.Admits State.Permits; decide +kernel

theorem wit_SamplesMuteAndTdm_1 :
    -- clause 1
    (((live.setReg R.BRZ_MUTE 1).flag R.BRZ_MUTE F.BRZ_MUTE_PIN = false)) ∧
    -- clause 2
    (((after Instr.muteNRise (live.setReg R.BRZ_MUTE 1)).brz.riseAt = some 0)) ∧
    -- clause 3
    ((live.brz.settleLeft = 0)) ∧
    -- clause 4
    ((bitOf (BitVec.toNat (live.reg R.BRZ_FE_CFG)) (17 + 1) = true)) := by
  decide +kernel

theorem wit_BreezeModelsWakeAndStartTheGust_1 :
    -- clause 1
    ((15 < 16) ∧
      ((mdl live).armedModel 15 = true) ∧
      (∀ (j : Nat), j < 16 → j ≠ 15 → (mdl live).armedModel j = false) ∧
      ((mdl live).brz.written ≠ 0) ∧
      ((mdl live).brz.hopAt ≠ some (mdl live).newest) ∧
      (0 < wordFld ((mdl live).reg (R.BRZ_MODEL_CFG 15)) F.BRZ_MODEL_CFG_HOP) ∧
      (((mdl live).newest + 1) % wordFld ((mdl live).reg (R.BRZ_MODEL_CFG 15)) F.BRZ_MODEL_CFG_HOP = 0) ∧
      ((mdl live).brz.run = none) ∧
      ((mdl live).brz.hops = [])) ∧
    -- clause 2
    (((wqFull7 hopped).brz.run = some (hopped.brz.run.getD ({ model := 0, last := 0, loc := 0, cfg := 0, thr := 0, pre := 0 } : BrzRun))) ∧
      ((hopped.brz.run.getD ({ model := 0, last := 0, loc := 0, cfg := 0, thr := 0, pre := 0 } : BrzRun)).model = 15) ∧
      ((wqFull7 hopped).armedModel 15 = true) ∧
      (confAtLeast 15360 (wordFld (hopped.brz.run.getD ({ model := 0, last := 0, loc := 0, cfg := 0, thr := 0, pre := 0 } : BrzRun)).thr F.BRZ_MODEL_THR_THR) = true) ∧
      (3 ≤ 6) ∧
      (6 ≤ 32767) ∧
      (6 ≤ (hopped.brz.run.getD ({ model := 0, last := 0, loc := 0, cfg := 0, thr := 0, pre := 0 } : BrzRun)).last) ∧
      (((wqFull7 hopped).brzModel 15).lastEnd = none) ∧
      ((wqFull7 hopped).wqUsed < 64) ∧
      (wordFld (hopped.brz.run.getD ({ model := 0, last := 0, loc := 0, cfg := 0, thr := 0, pre := 0 } : BrzRun)).cfg F.BRZ_MODEL_CFG_AG_EN = 0) ∧
      (wordFld (hopped.brz.run.getD ({ model := 0, last := 0, loc := 0, cfg := 0, thr := 0, pre := 0 } : BrzRun)).cfg F.BRZ_MODEL_CFG_GUST_EN = 0)) ∧
    -- clause 3
    ((hopped.brz.run = some (hopped.brz.run.getD ({ model := 0, last := 0, loc := 0, cfg := 0, thr := 0, pre := 0 } : BrzRun)))) := by
  decide +kernel

theorem wit_BreezeModelsWakeAndStartTheGust_2 :
    -- clause 1
    (((gustS 65 (wqFull7 live)).fld R.BRZ_GUST F.BRZ_GUST_POST_EN = 1) ∧
      ((gustS 65 (wqFull7 live)).fld R.BRZ_GUST F.BRZ_GUST_CORE ≤ 17) ∧
      (0 < (gustS 65 (wqFull7 live)).fld (R.SEQ_SEM ((gustS 65 (wqFull7 live)).fld R.BRZ_GUST F.BRZ_GUST_CORE) ((gustS 65 (wqFull7 live)).fld R.BRZ_GUST F.BRZ_GUST_POST_SEM)) F.SEQ_SEM_COUNT) ∧
      ((gustS 65 (wqFull7 live)).domOn ((gustS 65 (wqFull7 live)).fld R.BRZ_GUST F.BRZ_GUST_CORE) = true) ∧
      (decide (65 ≤ bitsOf (word32 (fun b => (gustS 65 (wqFull7 live)).rowByte ((gustS 65 (wqFull7 live)).fld R.BRZ_GUST F.BRZ_GUST_CORE) (((gustS 65 (wqFull7 live)).rgn ((gustS 65 (wqFull7 live)).fld R.BRZ_GUST F.BRZ_GUST_CORE) ((gustS 65 (wqFull7 live)).fld R.BRZ_GUST F.BRZ_GUST_POST_REGION)).row 0) b) (4 * 0)) 7 0 ∧ bitsOf (word32 (fun b => (gustS 65 (wqFull7 live)).rowByte ((gustS 65 (wqFull7 live)).fld R.BRZ_GUST F.BRZ_GUST_CORE) (((gustS 65 (wqFull7 live)).rgn ((gustS 65 (wqFull7 live)).fld R.BRZ_GUST F.BRZ_GUST_CORE) ((gustS 65 (wqFull7 live)).fld R.BRZ_GUST F.BRZ_GUST_POST_REGION)).row 0) b) (4 * 0)) 7 0 ≤ 127 ∧ word32 (fun b => (gustS 65 (wqFull7 live)).rowByte ((gustS 65 (wqFull7 live)).fld R.BRZ_GUST F.BRZ_GUST_CORE) (((gustS 65 (wqFull7 live)).rgn ((gustS 65 (wqFull7 live)).fld R.BRZ_GUST F.BRZ_GUST_CORE) ((gustS 65 (wqFull7 live)).fld R.BRZ_GUST F.BRZ_GUST_POST_REGION)).row 0) b) (4 * 2) + 2 ^ 32 * bitsOf (word32 (fun b => (gustS 65 (wqFull7 live)).rowByte ((gustS 65 (wqFull7 live)).fld R.BRZ_GUST F.BRZ_GUST_CORE) (((gustS 65 (wqFull7 live)).rgn ((gustS 65 (wqFull7 live)).fld R.BRZ_GUST F.BRZ_GUST_CORE) ((gustS 65 (wqFull7 live)).fld R.BRZ_GUST F.BRZ_GUST_POST_REGION)).row 0) b) (4 * 3)) 15 0 ≤ word32 (fun b => (gustS 65 (wqFull7 live)).rowByte ((gustS 65 (wqFull7 live)).fld R.BRZ_GUST F.BRZ_GUST_CORE) (((gustS 65 (wqFull7 live)).rgn ((gustS 65 (wqFull7 live)).fld R.BRZ_GUST F.BRZ_GUST_CORE) ((gustS 65 (wqFull7 live)).fld R.BRZ_GUST F.BRZ_GUST_POST_REGION)).row 0) b) (4 * 4) + 2 ^ 32 * bitsOf (word32 (fun b => (gustS 65 (wqFull7 live)).rowByte ((gustS 65 (wqFull7 live)).fld R.BRZ_GUST F.BRZ_GUST_CORE) (((gustS 65 (wqFull7 live)).rgn ((gustS 65 (wqFull7 live)).fld R.BRZ_GUST F.BRZ_GUST_CORE) ((gustS 65 (wqFull7 live)).fld R.BRZ_GUST F.BRZ_GUST_POST_REGION)).row 0) b) (4 * 5)) 15 0 ∧ word32 (fun b => (gustS 65 (wqFull7 live)).rowByte ((gustS 65 (wqFull7 live)).fld R.BRZ_GUST F.BRZ_GUST_CORE) (((gustS 65 (wqFull7 live)).rgn ((gustS 65 (wqFull7 live)).fld R.BRZ_GUST F.BRZ_GUST_CORE) ((gustS 65 (wqFull7 live)).fld R.BRZ_GUST F.BRZ_GUST_POST_REGION)).row 0) b) (4 * 4) + 2 ^ 32 * bitsOf (word32 (fun b => (gustS 65 (wqFull7 live)).rowByte ((gustS 65 (wqFull7 live)).fld R.BRZ_GUST F.BRZ_GUST_CORE) (((gustS 65 (wqFull7 live)).rgn ((gustS 65 (wqFull7 live)).fld R.BRZ_GUST F.BRZ_GUST_CORE) ((gustS 65 (wqFull7 live)).fld R.BRZ_GUST F.BRZ_GUST_POST_REGION)).row 0) b) (4 * 5)) 15 0 ≤ (gustS 65 (wqFull7 live)).newest) = true) ∧
      ((gustS 65 (wqFull7 live)).wqUsed < 64)) ∧
    -- clause 2
    (((gustS 128 (wqFull7 live)).fld R.BRZ_GUST F.BRZ_GUST_POST_EN = 1) ∧
      ((gustS 128 (wqFull7 live)).fld R.BRZ_GUST F.BRZ_GUST_CORE ≤ 17) ∧
      (0 < (gustS 128 (wqFull7 live)).fld (R.SEQ_SEM ((gustS 128 (wqFull7 live)).fld R.BRZ_GUST F.BRZ_GUST_CORE) ((gustS 128 (wqFull7 live)).fld R.BRZ_GUST F.BRZ_GUST_POST_SEM)) F.SEQ_SEM_COUNT) ∧
      ((gustS 128 (wqFull7 live)).domOn ((gustS 128 (wqFull7 live)).fld R.BRZ_GUST F.BRZ_GUST_CORE) = true) ∧
      (decide (65 ≤ bitsOf (word32 (fun b => (gustS 128 (wqFull7 live)).rowByte ((gustS 128 (wqFull7 live)).fld R.BRZ_GUST F.BRZ_GUST_CORE) (((gustS 128 (wqFull7 live)).rgn ((gustS 128 (wqFull7 live)).fld R.BRZ_GUST F.BRZ_GUST_CORE) ((gustS 128 (wqFull7 live)).fld R.BRZ_GUST F.BRZ_GUST_POST_REGION)).row 0) b) (4 * 0)) 7 0 ∧ bitsOf (word32 (fun b => (gustS 128 (wqFull7 live)).rowByte ((gustS 128 (wqFull7 live)).fld R.BRZ_GUST F.BRZ_GUST_CORE) (((gustS 128 (wqFull7 live)).rgn ((gustS 128 (wqFull7 live)).fld R.BRZ_GUST F.BRZ_GUST_CORE) ((gustS 128 (wqFull7 live)).fld R.BRZ_GUST F.BRZ_GUST_POST_REGION)).row 0) b) (4 * 0)) 7 0 ≤ 127 ∧ word32 (fun b => (gustS 128 (wqFull7 live)).rowByte ((gustS 128 (wqFull7 live)).fld R.BRZ_GUST F.BRZ_GUST_CORE) (((gustS 128 (wqFull7 live)).rgn ((gustS 128 (wqFull7 live)).fld R.BRZ_GUST F.BRZ_GUST_CORE) ((gustS 128 (wqFull7 live)).fld R.BRZ_GUST F.BRZ_GUST_POST_REGION)).row 0) b) (4 * 2) + 2 ^ 32 * bitsOf (word32 (fun b => (gustS 128 (wqFull7 live)).rowByte ((gustS 128 (wqFull7 live)).fld R.BRZ_GUST F.BRZ_GUST_CORE) (((gustS 128 (wqFull7 live)).rgn ((gustS 128 (wqFull7 live)).fld R.BRZ_GUST F.BRZ_GUST_CORE) ((gustS 128 (wqFull7 live)).fld R.BRZ_GUST F.BRZ_GUST_POST_REGION)).row 0) b) (4 * 3)) 15 0 ≤ word32 (fun b => (gustS 128 (wqFull7 live)).rowByte ((gustS 128 (wqFull7 live)).fld R.BRZ_GUST F.BRZ_GUST_CORE) (((gustS 128 (wqFull7 live)).rgn ((gustS 128 (wqFull7 live)).fld R.BRZ_GUST F.BRZ_GUST_CORE) ((gustS 128 (wqFull7 live)).fld R.BRZ_GUST F.BRZ_GUST_POST_REGION)).row 0) b) (4 * 4) + 2 ^ 32 * bitsOf (word32 (fun b => (gustS 128 (wqFull7 live)).rowByte ((gustS 128 (wqFull7 live)).fld R.BRZ_GUST F.BRZ_GUST_CORE) (((gustS 128 (wqFull7 live)).rgn ((gustS 128 (wqFull7 live)).fld R.BRZ_GUST F.BRZ_GUST_CORE) ((gustS 128 (wqFull7 live)).fld R.BRZ_GUST F.BRZ_GUST_POST_REGION)).row 0) b) (4 * 5)) 15 0 ∧ word32 (fun b => (gustS 128 (wqFull7 live)).rowByte ((gustS 128 (wqFull7 live)).fld R.BRZ_GUST F.BRZ_GUST_CORE) (((gustS 128 (wqFull7 live)).rgn ((gustS 128 (wqFull7 live)).fld R.BRZ_GUST F.BRZ_GUST_CORE) ((gustS 128 (wqFull7 live)).fld R.BRZ_GUST F.BRZ_GUST_POST_REGION)).row 0) b) (4 * 4) + 2 ^ 32 * bitsOf (word32 (fun b => (gustS 128 (wqFull7 live)).rowByte ((gustS 128 (wqFull7 live)).fld R.BRZ_GUST F.BRZ_GUST_CORE) (((gustS 128 (wqFull7 live)).rgn ((gustS 128 (wqFull7 live)).fld R.BRZ_GUST F.BRZ_GUST_CORE) ((gustS 128 (wqFull7 live)).fld R.BRZ_GUST F.BRZ_GUST_POST_REGION)).row 0) b) (4 * 5)) 15 0 ≤ (gustS 128 (wqFull7 live)).newest) = false)) ∧
    -- clause 3
    (((wqFull7 live).Admits 16 R.BRZ_WQ_PTR PageKind.brz2 0) ∧
      ((wordFld (127 * 256) F.BRZ_WQ_PTR_RD + 128 - (wqFull7 live).fld R.BRZ_WQ_PTR F.BRZ_WQ_PTR_RD) % 128 ≤ (wqFull7 live).wqUsed)) ∧
    -- clause 4
    (((wqFull7 live).wqUsed < (wordFld (0 * 256) F.BRZ_WQ_PTR_RD + 128 - (wqFull7 live).fld R.BRZ_WQ_PTR F.BRZ_WQ_PTR_RD) % 128)) := by
  unfold State.Admits State.Permits; decide +kernel

theorem wit_AudioGroupsAndBreezeWindows_1 :
    -- clause 1
    ((((agS live).setReg (R.BRZ_AG_SEEK_LO 15) 136).Admits 16 (R.BRZ_AG_CMD 15) PageKind.brzAg 15)) ∧
    -- clause 2
    ((agGo.Admits 16 (R.BRZ_AG_CMD 15) PageKind.brzAg 15)) ∧
    -- clause 3
    ((agGo.agActive 15 = true) ∧
      (wordFld (agGo.reg (R.BRZ_AG_CFG 15)) F.BRZ_AG_CFG_EN = 1) ∧
      (agGo.oldest ≤ (agGo.ag 15).cursor) ∧
      ((agGo.ag 15).cursor + 64 * wordFld (agGo.reg (R.BRZ_AG_CFG 15)) F.BRZ_AG_CFG_BLOCK ≤ agGo.brz.written) ∧
      (agGo.domOn (wordFld (agGo.reg (R.BRZ_AG_CFG 15)) F.BRZ_AG_CFG_CORE) = true) ∧
      (wordFld (agGo.reg (R.BRZ_AG_CFG 15)) F.BRZ_AG_CFG_CORE ≤ 17) ∧
      ((agGo.rgn (wordFld (agGo.reg (R.BRZ_AG_CFG 15)) F.BRZ_AG_CFG_CORE) (wordFld (agGo.reg (R.BRZ_AG_CFG 15)) F.BRZ_AG_CFG_REGION)).raw = false) ∧
      (agGo.accessOk (wordFld (agGo.reg (R.BRZ_AG_CFG 15)) F.BRZ_AG_CFG_CORE) (agGo.rgn (wordFld (agGo.reg (R.BRZ_AG_CFG 15)) F.BRZ_AG_CFG_CORE) (wordFld (agGo.reg (R.BRZ_AG_CFG 15)) F.BRZ_AG_CFG_REGION)).ctx (wordFld (agGo.reg (R.BRZ_AG_CFG 15)) F.BRZ_AG_CFG_REGION) (some ({ kind := 5, id := 15 } : Writer)) = true) ∧
      (1 + (maskBits (BitVec.toNat (agGo.reg (R.BRZ_AG_CH 15)))).length * ceilDiv (64 * wordFld (agGo.reg (R.BRZ_AG_CFG 15)) F.BRZ_AG_CFG_BLOCK * agElemBytes (wordFld (agGo.reg (R.BRZ_AG_CFG 15)) F.BRZ_AG_CFG_FMT)) 512 ≤ (agGo.rgn (wordFld (agGo.reg (R.BRZ_AG_CFG 15)) F.BRZ_AG_CFG_CORE) (wordFld (agGo.reg (R.BRZ_AG_CFG 15)) F.BRZ_AG_CFG_REGION)).free) ∧
      (0 < 64 * wordFld (agGo.reg (R.BRZ_AG_CFG 15)) F.BRZ_AG_CFG_BLOCK)) := by
  unfold State.Admits State.Permits; decide +kernel

theorem wit_AudioGroupsAndBreezeWindows_2 :
    -- clause 1
    (((spmS live).Admits 16 R.BRZ_SPM_DATA PageKind.brz4 0) ∧
      (Memory.wf (spmS live).brz.spm = true)) ∧
    -- clause 2
    (((spmArm (spmS live)).Admits 16 R.BRZ_SPM_DATA PageKind.brz4 0) ∧
      (∃ m, m < 16 ∧ (spmArm (spmS live)).armedModel m = true ∧ (spmArm (spmS live)).fld (R.BRZ_MODEL_LOC m) F.BRZ_MODEL_LOC_BASE ≤ (spmArm (spmS live)).fld R.BRZ_SPM_ADDR F.BRZ_SPM_ADDR_ADDR / 128 ∧ (spmArm (spmS live)).fld R.BRZ_SPM_ADDR F.BRZ_SPM_ADDR_ADDR / 128 < (spmArm (spmS live)).fld (R.BRZ_MODEL_LOC m) F.BRZ_MODEL_LOC_BASE + (spmArm (spmS live)).fld (R.BRZ_MODEL_LOC m) F.BRZ_MODEL_LOC_ROWS)) ∧
    -- clause 3
    (((spmS live).Permits 16 R.BRZ_SPM_DATA false PageKind.brz4 0) ∧
      ((spmS live).domOn 30 = true)) ∧
    -- clause 4
    (((spmS live).Permits 16 R.BRZ_IDX_LO false PageKind.brz0 0)) ∧
    -- clause 5
    ((agGo.Permits 16 (R.BRZ_AG_CUR_LO 15) false PageKind.brzAg 15) ∧
      (agGo.domOn 30 = true)) := by
  unfold State.Admits State.Permits; decide +kernel

theorem wit_FramesOpenAndClose_1 :
    -- clause 1
    ((cam0.receives 7 = true) ∧
      (cam0.domOn 27 = true) ∧
      (cam0.bound 7 2 = none) ∧
      (Instr.frameStart 7 2 5 CsiHdr.good ∈ [Instr.frameStart 7 2 5 CsiHdr.good, Instr.frameEnd 7 2 CsiHdr.good])) ∧
    -- clause 2
    ((Instr.frameEnd 7 2 CsiHdr.good ∈ [Instr.frameStart 7 2 5 CsiHdr.good, Instr.frameEnd 7 2 CsiHdr.good])) ∧
    -- clause 3
    ((cam0.bound 7 3 = some 15) ∧
      ((cam0.cam 15).receiving = none) ∧
      (cam0.camFld 15 F.ISP_CAM_CFG_STORED = 0) ∧
      (cam0.fld (R.ISP_OUT_CFG 15 2) F.ISP_OUT_CFG_EN = 0) ∧
      (cam0.loadTo 15 ≤ cam0.fld R.ISP_SCHED F.ISP_SCHED_LOAD_MAX)) ∧
    -- clause 4
    ((cam2.receives 7 = true) ∧
      (cam2.domOn 27 = true) ∧
      (cam2.bound 7 3 = some 15) ∧
      ((cam2.cam 15).receiving = some (fr cam2)) ∧
      ((fr cam2).dropped = false) ∧
      ((fr cam2).lines.length = (cam2.view 15 (fr cam2)).h)) := by
  decide +kernel

theorem wit_LinesAndStripesOfAFrame_1 :
    -- clause 1
    (((line cam1).receives 7 = true) ∧
      ((line cam1).domOn 27 = true) ∧
      ((line cam1).bound 7 3 = some 15) ∧
      ((line cam1).camFld 15 F.ISP_CAM_CFG_DT = 42) ∧
      (longType 42 = true) ∧
      (((line cam1).cam 15).receiving = some (fr (line cam1))) ∧
      ((fr (line cam1)).dropped = false) ∧
      ((fr (line cam1)).lines.length < ((line cam1).view 15 (fr (line cam1))).h) ∧
      ((fr (line cam1)).fld (R.ISP_CAM_CFG 15) F.ISP_CAM_CFG_STORED = 0) ∧
      ([9, 2, 3, 4].length = ((line cam1).view 15 (fr (line cam1))).w) ∧
      ((line cam1).fld (R.TST_CSI_CFG 15) F.TST_CSI_CFG_PATTERN = 0) ∧
      ((line cam1).slots 15 < (fr (line cam1)).fld (R.ISP_CAM_LB 15) F.ISP_CAM_LB_LB_LINES)) := by
  decide +kernel

theorem wit_LinesAndStripesOfAFrame_2 :
    -- clause 1
    (((cam2.cam 15).head = some (fr cam2)) ∧
      (cam2.isp.stripe = none) ∧
      (cam2.domState 27 = 2) ∧
      (cam2.nextCam = some 15) ∧
      (cam2.stale 15 (fr cam2).dtime = false)) ∧
    -- clause 2
    (((cam3.cam 15).head = some (fr cam3)) ∧
      (cam3.isp.stripe = some 15) ∧
      ((fr cam3).fld (R.ISP_CAM_CFG 15) F.ISP_CAM_CFG_STORED = 0)) ∧
    -- clause 3
    (((cam4.cam 15).head = some (fr cam4)) ∧
      ((fr cam4).ended = true) ∧
      ((cam4.view 15 (fr cam4)).h ≤ (fr cam4).fin) ∧
      (cam4.isp.stripe ≠ some 15)) := by
  decide +kernel

theorem wit_CameraControlAndWindows_1 :
    -- clause 1
    (((ccS 14 1 cam0).Admits 16 (R.ISP_CC_POST 3) PageKind.ispBus 3) ∧
      (1 ≤ wordFld postW F.ISP_CC_POST_COUNT) ∧
      (((ccS 14 1 cam0).ccBus 3).posted.length + ((ccS 14 1 cam0).ccBus 3).due.length < 16)) ∧
    -- clause 2
    (((ccS 14 2 cam0).Admits 16 (R.ISP_CC_POST 3) PageKind.ispBus 3) ∧
      (16 ≤ ((ccS 14 2 cam0).ccBus 3).posted.length + ((ccS 14 2 cam0).ccBus 3).due.length)) ∧
    -- clause 3
    ((((ccS 14 2 cam0).ccBus 3).due = [({ cam := 15, id := 9, first := 510, cnt := 5, post := 8, frame := 2 ^ 32 - 1 } : CcPacket), ({ cam := 15, id := 9, first := 510, cnt := 5, post := 8, frame := 2 ^ 32 - 1 } : CcPacket)]) ∧
      ((ccS 14 2 cam0).flag (R.ISP_CC_CFG 3) F.ISP_CC_CFG_EN = true) ∧
      ((ccS 14 2 cam0).domOn 27 = true) ∧
      (((ccS 14 2 cam0).cam ({ cam := 15, id := 9, first := 510, cnt := 5, post := 8, frame := 2 ^ 32 - 1 } : CcPacket).cam).count = ({ cam := 15, id := 9, first := 510, cnt := 5, post := 8, frame := 2 ^ 32 - 1 } : CcPacket).frame)) := by
  unfold State.Admits State.Permits; decide +kernel

theorem wit_CameraControlAndWindows_2 :
    -- clause 1
    (((lutS cam0).Admits 16 R.ISP_LUT_DATA PageKind.isp0 0) ∧
      ((lutS cam0).bankBusy (wordFld ((lutS cam0).reg R.ISP_LUT_SEL) F.ISP_LUT_SEL_CAMERA) (wordFld ((lutS cam0).reg R.ISP_LUT_SEL) F.ISP_LUT_SEL_TABLE) (wordFld ((lutS cam0).reg R.ISP_LUT_SEL) F.ISP_LUT_SEL_BANK) = false)) ∧
    -- clause 2
    ((((lutS cam0).setReg (R.ISP_TONE 15) 2).Admits 16 R.ISP_LUT_DATA PageKind.isp0 0) ∧
      (((lutS cam0).setReg (R.ISP_TONE 15) 2).bankBusy (wordFld (((lutS cam0).setReg (R.ISP_TONE 15) 2).reg R.ISP_LUT_SEL) F.ISP_LUT_SEL_CAMERA) (wordFld (((lutS cam0).setReg (R.ISP_TONE 15) 2).reg R.ISP_LUT_SEL) F.ISP_LUT_SEL_TABLE) (wordFld (((lutS cam0).setReg (R.ISP_TONE 15) 2).reg R.ISP_LUT_SEL) F.ISP_LUT_SEL_BANK) = true)) ∧
    -- clause 3
    (((lutS cam0).Permits 16 R.ISP_LUT_DATA false PageKind.isp0 0) ∧
      ((lutS cam0).domOn 27 = true)) ∧
    -- clause 4
    (((memS 1018).Admits 16 (R.ISP_CC_MEM_DATA 3) PageKind.ispBus 3) ∧
      (((memS 1018).ccBus 3).entryBusy ((memS 1018).fld (R.ISP_CC_MEM_ADDR 3) F.ISP_CC_MEM_ADDR_ADDR / 2) = false)) ∧
    -- clause 5
    (((memS 1023).Permits 16 (R.ISP_CC_MEM_DATA 3) false PageKind.ispBus 3) ∧
      ((memS 1023).domOn 27 = true)) ∧
    -- clause 6
    (((cam0.setCam 15 { held := [(2, 5), (1, 5), (2, 4)] }).Admits 16 (R.ISP_OUT_REL 15 2) PageKind.ispCam 15)) := by
  unfold State.Admits State.Permits; decide +kernel

theorem wit_EnginesDecodeAccessUnits_1 :
    -- clause 1
    ((auS.Admits 16 (R.DEC_AU_PTR 31) PageKind.decCtx 31)) ∧
    -- clause 2
    ((auS.flag (R.DEC_CTX_CFG 31) F.DEC_CTX_CFG_EN = true) ∧
      ((auS.dec 31).paused = false) ∧
      ((auS.dec 31).cur = none) ∧
      (auS.fld (R.DEC_AU_PTR 31) F.DEC_AU_PTR_WR ≠ auS.fld (R.DEC_AU_PTR 31) F.DEC_AU_PTR_RD) ∧
      (auS.domOn 28 = true) ∧
      ((daRead (auS.decCtx 31) (auS.pair (R.DEC_AU_LO 31) (R.DEC_AU_HI 31) + 32 * (auS.fld (R.DEC_AU_PTR 31) F.DEC_AU_PTR_RD % 4096)) 32 auS).snd.snd.fst = true) ∧
      ((daRead (auS.decCtx 31) (auS.pair (R.DEC_AU_LO 31) (R.DEC_AU_HI 31) + 32 * (auS.fld (R.DEC_AU_PTR 31) F.DEC_AU_PTR_RD % 4096)) 32 auS).snd.fst = 0) ∧
      (bitOf (leAt (daRead (auS.decCtx 31) (auS.pair (R.DEC_AU_LO 31) (R.DEC_AU_HI 31) + 32 * (auS.fld (R.DEC_AU_PTR 31) F.DEC_AU_PTR_RD % 4096)) 32 auS).fst 6 1) 1 = false)) := by
  unfold State.Admits State.Permits; decide +kernel

theorem wit_EnginesDecodeAccessUnits_2 :
    -- clause 1
    (((auF.eng 3).run = none) ∧
      ((auF.eng 3).ready = [31]) ∧
      ((auF.dec 31).cur = some (pic auF)) ∧
      (auF.domOn 28 = true) ∧
      ((pic auF).used = 0) ∧
      ((auF.dec 31).discard = false) ∧
      (bitOf (pic auF).auFlags 3 = false)) ∧
    -- clause 2
    ((auF.hdrOk 31 ({ w := 16384, h := 1, bits := 8, ok := true } : SeqHdr) = false)) := by
  decide +kernel

theorem wit_EnginesDecodeAccessUnits_3 :
    -- clause 1
    (((dec1.eng 3).run = some 31) ∧
      ((dec1.dec 31).cur = some (pic dec1)) ∧
      (dec1.decAwake = true) ∧
      ((pic dec1).budget 31 = 0 ∨ (pic dec1).used + 10000 ≤ (pic dec1).budget 31 ∨ (dec1.eng 3).ready = [] ∧ (pic dec1).used + 10000 < 32 * (pic dec1).budget 31)) ∧
    -- clause 2
    (((decA.eng 3).run = some 31) ∧
      ((decA.dec 31).cur = some (pic decA)) ∧
      (decA.decAwake = true) ∧
      ((pic decA).budget 31 = 0 ∨ (pic decA).used + 8191 ≤ (pic decA).budget 31 ∨ (decA.eng 3).ready = [] ∧ (pic decA).used + 8191 < 32 * (pic decA).budget 31)) ∧
    -- clause 3
    (((decB.eng 3).run = some 31) ∧
      ((decB.dec 31).cur = some (pic decB)) ∧
      (decB.decAwake = true) ∧
      ((pic decB).budget 31 < (pic decB).used + 257) ∧
      ((pic decB).used + 257 < 32 * (pic decB).budget 31) ∧
      ((decB.eng 3).ready ≠ [])) ∧
    -- clause 4
    ((0 < (pic decB).budget 31) ∧
      (32 * (pic decB).budget 31 ≤ (pic decB).used + 8192)) := by
  decide +kernel

theorem wit_TransformsTakeAndDeliverPictures_1 :
    -- clause 1
    ((out0.video.run = none) ∧
      (out0.domOn 28 = true) ∧
      ((out0.xfmNext fun c => out0.xfmAllowed c && out0.xfmRoom c) = some 31) ∧
      ((out0.dec 31).out = [op, op]) ∧
      (out0.stale (decFeed 31) op.capture = false) ∧
      (bitOf op.auFlags 1 = false)) ∧
    -- clause 2
    ((out1.video.run = none) ∧
      (out1.domOn 28 = true) ∧
      ((out1.xfmNext fun c => out1.xfmAllowed c && out1.xfmRoom c) = some 31) ∧
      ((out1.dec 31).out = [op, op]) ∧
      (out1.stale (decFeed 31) op.capture = false)) ∧
    -- clause 3
    ((outOld.video.run = none) ∧
      (outOld.domOn 28 = true) ∧
      ((outOld.xfmNext fun c => outOld.xfmAllowed c && outOld.xfmRoom c) = some 31) ∧
      ((outOld.dec 31).out = [op, op]) ∧
      (outOld.stale (decFeed 31) op.capture = true) ∧
      (op.decoded = true)) := by
  decide +kernel

theorem wit_TransformsTakeAndDeliverPictures_2 :
    -- clause 1
    ((xrun.video.run = some (xrun.video.run.getD ({ c := 0, pic := op, copy := [], hit := none, buf := none } : XfmRun))) ∧
      ((xrun.video.run.getD ({ c := 0, pic := op, copy := [], hit := none, buf := none } : XfmRun)).hit = none) ∧
      ((xrun.video.run.getD ({ c := 0, pic := op, copy := [], hit := none, buf := none } : XfmRun)).buf = none) ∧
      ((xrun.video.run.getD ({ c := 0, pic := op, copy := [], hit := none, buf := none } : XfmRun)).c < 32)) ∧
    -- clause 2
    ((({ up with video := ({ up.video with held := [(31, 5), (30, 5), (31, 4)] } : Video) } : State).Admits 16 (R.XFM_REL 31) PageKind.xfm 31)) := by
  unfold State.Admits State.Permits; decide +kernel

theorem wit_DoorbellsMessagesAndLinkErrors_1 :
    -- clause 1
    ((h1.booted = true) ∧
      (h1.domOn 29 = true) ∧
      ((decide (h1.fnState 15 = fnReady ∨ h1.fnState 15 = fnLost) && h1.sqEn (8 * 15 + 7) 3 && decide (wordFld 2 ({ hi := 12, lo := 0 } : Fld) % 4096 < h1.sqSlots (8 * 15 + 7) 3) && decide (ringAhead (h1.sqSlots (8 * 15 + 7) 3) (wordFld 2 ({ hi := 12, lo := 0 } : Fld)) (h1.sqFetch (8 * 15 + 7) 3) ≤ h1.sqSlots (8 * 15 + 7) 3 ∧ ringAhead (h1.sqSlots (8 * 15 + 7) 3) (h1.sqTail (8 * 15 + 7) 3) (h1.sqFetch (8 * 15 + 7) 3) ≤ ringAhead (h1.sqSlots (8 * 15 + 7) 3) (wordFld 2 ({ hi := 12, lo := 0 } : Fld)) (h1.sqFetch (8 * 15 + 7) 3))) = true)) ∧
    -- clause 2
    (((decide (h1.fnState 15 = fnReady ∨ h1.fnState 15 = fnLost) && h1.sqEn (8 * 15 + 7) 3 && decide (wordFld 3 ({ hi := 12, lo := 0 } : Fld) % 4096 < h1.sqSlots (8 * 15 + 7) 3) && decide (ringAhead (h1.sqSlots (8 * 15 + 7) 3) (wordFld 3 ({ hi := 12, lo := 0 } : Fld)) (h1.sqFetch (8 * 15 + 7) 3) ≤ h1.sqSlots (8 * 15 + 7) 3 ∧ ringAhead (h1.sqSlots (8 * 15 + 7) 3) (h1.sqTail (8 * 15 + 7) 3) (h1.sqFetch (8 * 15 + 7) 3) ≤ ringAhead (h1.sqSlots (8 * 15 + 7) 3) (wordFld 3 ({ hi := 12, lo := 0 } : Fld)) (h1.sqFetch (8 * 15 + 7) 3))) = false)) ∧
    -- clause 3
    (((decide (h1.fnState 15 = fnReady ∨ h1.fnState 15 = fnLost) && h1.cqEn (8 * 15 + 7) && decide (wordFld 3 ({ hi := 12, lo := 0 } : Fld) % 4096 < h1.cqSlots (8 * 15 + 7)) && decide (ringAhead (h1.cqSlots (8 * 15 + 7)) (wordFld 3 ({ hi := 12, lo := 0 } : Fld)) (h1.cqHead (8 * 15 + 7)) ≤ ringAhead (h1.cqSlots (8 * 15 + 7)) (h1.cqWr (8 * 15 + 7)) (h1.cqHead (8 * 15 + 7)))) = true)) ∧
    -- clause 4
    (((decide (h1.fnState 15 = fnReady ∨ h1.fnState 15 = fnLost) && h1.cqEn (8 * 15 + 7) && decide (wordFld 4098 ({ hi := 12, lo := 0 } : Fld) % 4096 < h1.cqSlots (8 * 15 + 7)) && decide (ringAhead (h1.cqSlots (8 * 15 + 7)) (wordFld 4098 ({ hi := 12, lo := 0 } : Fld)) (h1.cqHead (8 * 15 + 7)) ≤ ringAhead (h1.cqSlots (8 * 15 + 7)) (h1.cqWr (8 * 15 + 7)) (h1.cqHead (8 * 15 + 7)))) = false)) ∧
    -- clause 5
    ((hm.booted = true) ∧
      (hm.domOn 29 = true) ∧
      (hm.fnState 15 ≠ fnDisabled)) ∧
    -- clause 6
    (((PcieErr.replay, 2, E.hif0_AER_CORR) ∈ [(PcieErr.correctable, 0, E.hif0_AER_CORR), (PcieErr.nonFatal, 1, E.hif0_AER_NONFATAL), (PcieErr.fatal, 1, E.hif0_AER_FATAL), (PcieErr.replay, 2, E.hif0_AER_CORR), (PcieErr.unexpected, 4, E.hif0_AER_NONFATAL)])) ∧
    -- clause 7
    (((PcieErr.correctable, 0, E.hif0_AER_CORR) ∈ [(PcieErr.correctable, 0, E.hif0_AER_CORR), (PcieErr.nonFatal, 1, E.hif0_AER_NONFATAL), (PcieErr.fatal, 1, E.hif0_AER_FATAL), (PcieErr.replay, 2, E.hif0_AER_CORR), (PcieErr.unexpected, 4, E.hif0_AER_NONFATAL)])) ∧
    -- clause 8
    (((PcieErr.nonFatal, 1, E.hif0_AER_NONFATAL) ∈ [(PcieErr.correctable, 0, E.hif0_AER_CORR), (PcieErr.nonFatal, 1, E.hif0_AER_NONFATAL), (PcieErr.fatal, 1, E.hif0_AER_FATAL), (PcieErr.replay, 2, E.hif0_AER_CORR), (PcieErr.unexpected, 4, E.hif0_AER_NONFATAL)])) ∧
    -- clause 9
    (((PcieErr.fatal, 1, E.hif0_AER_FATAL) ∈ [(PcieErr.correctable, 0, E.hif0_AER_CORR), (PcieErr.nonFatal, 1, E.hif0_AER_NONFATAL), (PcieErr.fatal, 1, E.hif0_AER_FATAL), (PcieErr.replay, 2, E.hif0_AER_CORR), (PcieErr.unexpected, 4, E.hif0_AER_NONFATAL)])) ∧
    -- clause 10
    (((PcieErr.unexpected, 4, E.hif0_AER_NONFATAL) ∈ [(PcieErr.correctable, 0, E.hif0_AER_CORR), (PcieErr.nonFatal, 1, E.hif0_AER_NONFATAL), (PcieErr.fatal, 1, E.hif0_AER_FATAL), (PcieErr.replay, 2, E.hif0_AER_CORR), (PcieErr.unexpected, 4, E.hif0_AER_NONFATAL)])) := by
  decide +kernel

theorem wit_EntriesAreFetchedAndCompleted_1 :
    -- clause 1
    (((qop 3 (q1.setPage 3 { })).nextQueue 0 = some 511) ∧
      ((readRun (128 + tenantOf (511 / 4)) (tenantOf (511 / 4)) 1 (((qop 3 (q1.setPage 3 { })).sqBase (511 / 4) (511 % 4) + 64 + 64 * ((qop 3 (q1.setPage 3 { })).sqFetch (511 / 4) (511 % 4) % 4096)) / 512 * 512) ({ qop 3 (q1.setPage 3 { }) with hif := ({ (qop 3 (q1.setPage 3 { })).hif with rotor := Tab.set (qop 3 (q1.setPage 3 { })).hif.rotor 0 511 } : Hif) } : State)).snd.snd.fst = false)) ∧
    -- clause 2
    (((qop 5 q1).nextQueue 0 = some 511) ∧
      ((readRun (128 + tenantOf (511 / 4)) (tenantOf (511 / 4)) 1 (((qop 5 q1).sqBase (511 / 4) (511 % 4) + 64 + 64 * ((qop 5 q1).sqFetch (511 / 4) (511 % 4) % 4096)) / 512 * 512) ({ qop 5 q1 with hif := ({ (qop 5 q1).hif with rotor := Tab.set (qop 5 q1).hif.rotor 0 511 } : Hif) } : State)).snd.snd.fst = true)) := by
  decide +kernel

theorem wit_EntriesAreFetchedAndCompleted_2 :
    -- clause 1
    (((qe 2 0 EntSt.fetched).entry 9 = some (ent 2 0 EntSt.fetched)) ∧
      ((qe 2 0 EntSt.fetched).canStart (ent 2 0 EntSt.fetched) = true) ∧
      ((ent 2 0 EntSt.fetched).opcode = 2) ∧
      (((qe 2 0 EntSt.fetched).ctx (ent 2 0 EntSt.fetched).ctx).cores[(ent 2 0 EntSt.fetched).core]? = some 17) ∧
      (17 < 18) ∧
      ((qe 2 0 EntSt.fetched).domOn 17 = true) ∧
      (((qe 2 0 EntSt.fetched).chan 17 (Dma.chan (dmaWords (qe 2 0 EntSt.fetched) (ent 2 0 EntSt.fetched)))).queue.length < 8)) ∧
    -- clause 2
    (((qe 3 0 EntSt.fetched).entry 9 = some (ent 3 0 EntSt.fetched)) ∧
      ((qe 3 0 EntSt.fetched).canStart (ent 3 0 EntSt.fetched) = true) ∧
      ((ent 3 0 EntSt.fetched).opcode = 3) ∧
      (((qe 3 0 EntSt.fetched).earlier (ent 3 0 EntSt.fetched)).all Entry.isDone = true)) ∧
    -- clause 3
    (((qe 3 4 (EntSt.done 0 0 0 0)).fnState (tenantOf 127) = fnReady) ∧
      ((qe 3 4 (EntSt.done 0 0 0 0)).oldestEntry 127 3 = some (ent 3 4 (EntSt.done 0 0 0 0))) ∧
      ((ent 3 4 (EntSt.done 0 0 0 0)).st = EntSt.done 0 0 0 0) ∧
      (bitOf (ent 3 4 (EntSt.done 0 0 0 0)).flags 2 = true) ∧
      (0 = 0)) ∧
    -- clause 4
    (((qe 3 4 (EntSt.done 1 2 3 4)).fnState (tenantOf 127) = fnReady) ∧
      ((qe 3 4 (EntSt.done 1 2 3 4)).oldestEntry 127 3 = some (ent 3 4 (EntSt.done 1 2 3 4))) ∧
      ((ent 3 4 (EntSt.done 1 2 3 4)).st = EntSt.done 1 2 3 4) ∧
      (bitOf (ent 3 4 (EntSt.done 1 2 3 4)).flags 2 = false ∨ 1 ≠ 0)) := by
  decide +kernel

theorem wit_EntriesAreFetchedAndCompleted_3 :
    -- clause 1
    (((qe 2 0 EntSt.fetched).entry 9 = some (ent 2 0 EntSt.fetched)) ∧
      ((qe 2 0 EntSt.fetched).canStart (ent 2 0 EntSt.fetched) = true) ∧
      ((ent 2 0 EntSt.fetched).opcode = 2) ∧
      (((qe 2 0 EntSt.fetched).ctx (ent 2 0 EntSt.fetched).ctx).cores[(ent 2 0 EntSt.fetched).core]? = some 17) ∧
      (17 < 18) ∧
      ((qe 2 0 EntSt.fetched).domOn 17 = true) ∧
      (((qe 2 0 EntSt.fetched).chan 17 (Dma.chan (dmaWords (qe 2 0 EntSt.fetched) (ent 2 0 EntSt.fetched)))).queue.length < 8)) := by
  decide +kernel

theorem wit_EntriesAreFetchedAndCompleted_4 :
    -- clause 1
    (((qe 3 0 EntSt.fetched).entry 9 = some (ent 3 0 EntSt.fetched)) ∧
      ((qe 3 0 EntSt.fetched).canStart (ent 3 0 EntSt.fetched) = true) ∧
      ((ent 3 0 EntSt.fetched).opcode = 3) ∧
      (((qe 3 0 EntSt.fetched).earlier (ent 3 0 EntSt.fetched)).all Entry.isDone = true)) ∧
    -- clause 2
    (((qe 3 4 (EntSt.done 0 0 0 0)).fnState (tenantOf 127) = fnReady) ∧
      ((qe 3 4 (EntSt.done 0 0 0 0)).oldestEntry 127 3 = some (ent 3 4 (EntSt.done 0 0 0 0))) ∧
      ((ent 3 4 (EntSt.done 0 0 0 0)).st = EntSt.done 0 0 0 0) ∧
      (bitOf (ent 3 4 (EntSt.done 0 0 0 0)).flags 2 = true) ∧
      (0 = 0)) := by
  decide +kernel

theorem wit_EntriesAreFetchedAndCompleted_5 :
    -- clause 1
    ((qd.fnState (tenantOf 127) = fnReady) ∧
      (qd.oldestEntry 127 3 = some (ent 3 4 (EntSt.done 1 2 3 4))) ∧
      ((ent 3 4 (EntSt.done 1 2 3 4)).st = EntSt.done 1 2 3 4) ∧
      (bitOf (ent 3 4 (EntSt.done 1 2 3 4)).flags 2 = false ∨ 1 ≠ 0)) := by
  decide +kernel

theorem wit_FunctionsAreLostResumedAndScrubbed_1 :
    -- clause 1
    ((f1.ringsOf 15 = [])) ∧
    f1.PlacesNamed :=
  ⟨by decide +kernel,
    by exact State.placesNamed_of _ (by decide +kernel) (by decide +kernel) (by decide +kernel)⟩

theorem wit_FunctionsAreLostResumedAndScrubbed_2 :
    -- clause 1
    (((beat 5 (fb 1)).fnState 15 = fnReady) ∧
      ((beat 5 (fb 1)).ringsOf 15 ≠ []) ∧
      ((sampleBeats 15 ((beat 5 (fb 1)).ringsOf 15) ((beat 5 (fb 1)).modFn 15 fun x => ({ x with beats := List.filter (fun b => ((beat 5 (fb 1)).ringsOf 15).contains b.fst) x.beats } : Fn))).fst = true)) ∧
    -- clause 2
    (((late (fb 1)).fnState 15 = fnReady) ∧
      ((late (fb 1)).ringsOf 15 ≠ []) ∧
      ((sampleBeats 15 ((late (fb 1)).ringsOf 15) ((late (fb 1)).modFn 15 fun x => ({ x with beats := List.filter (fun b => ((late (fb 1)).ringsOf 15).contains b.fst) x.beats } : Fn))).fst = false) ∧
      ((late (fb 1)).fld (R.HIF_HB_CFG 15) F.HIF_HB_CFG_TIMEOUT * 24576 ≤ (late (fb 1)).dtime - ((late (fb 1)).fn 15).lastChange)) ∧
    (beat 5 (fb 1)).PlacesNamed ∧
    (late (fb 1)).PlacesNamed :=
  ⟨by decide +kernel,
    by decide +kernel,
    by exact State.placesNamed_of _ (by decide +kernel) (by decide +kernel) (by decide +kernel),
    by exact State.placesNamed_of _ (by decide +kernel) (by decide +kernel) (by decide +kernel)⟩

theorem wit_FunctionsAreLostResumedAndScrubbed_3 :
    -- clause 1
    ((fl.Admits 16 (R.HIF_FN_CTRL 15) PageKind.hifFn 15) ∧
      (fl.fnState 15 = fnLost) ∧
      ((fl.fn 15).changed = true)) ∧
    -- clause 2
    ((f1.Admits 16 (R.HIF_FN_CTRL 15) PageKind.hifFn 15) ∧
      (f1.fnState 15 ≠ fnLost)) ∧
    fl.PlacesNamed ∧
    f1.PlacesNamed :=
  ⟨by unfold State.Admits State.Permits; decide +kernel,
    by unfold State.Admits State.Permits; decide +kernel,
    by exact State.placesNamed_of _ (by decide +kernel) (by decide +kernel) (by decide +kernel),
    by exact State.placesNamed_of _ (by decide +kernel) (by decide +kernel) (by decide +kernel)⟩

theorem wit_FunctionsAreLostResumedAndScrubbed_4 :
    -- clause 1
    (((busyFn 1).booted = true) ∧
      ((busyFn 1).domOn 29 = true) ∧
      ((busyFn 1).fnState 15 ≠ fnScrub) ∧
      ((busyFn 1).fnState 15 ≠ fnDisabled)) ∧
    -- clause 2
    ((15 ≠ 0) ∧
      (15 ≠ 8)) ∧
    -- clause 3
    (((busyFn 0).booted = true) ∧
      ((busyFn 0).domOn 29 = true) ∧
      ((busyFn 0).fnState 15 ≠ fnScrub) ∧
      ((busyFn 0).fnState 15 = fnDisabled)) ∧
    (busyFn 1).PlacesNamed ∧
    (busyFn 0).PlacesNamed :=
  ⟨by decide +kernel,
    by decide +kernel,
    by decide +kernel,
    by exact State.placesNamed_of _ (by decide +kernel) (by decide +kernel) (by decide +kernel),
    by exact State.placesNamed_of _ (by decide +kernel) (by decide +kernel) (by decide +kernel)⟩

theorem wit_FunctionsAreLostResumedAndScrubbed_5 :
    -- clause 1
    ((split1.booted = true) ∧
      (split1.flag R.HIF_LINK_CFG F.HIF_LINK_CFG_SPLIT = true)) ∧
    -- clause 2
    ((f1.flag R.HIF_LINK_CFG F.HIF_LINK_CFG_SPLIT = false)) ∧
    split1.PlacesNamed ∧
    f1.PlacesNamed :=
  ⟨by decide +kernel,
    by decide +kernel,
    by exact State.placesNamed_of _ (by decide +kernel) (by decide +kernel) (by decide +kernel),
    by exact State.placesNamed_of _ (by decide +kernel) (by decide +kernel) (by decide +kernel)⟩

theorem wit_FunctionsAreLostResumedAndScrubbed_6 :
    -- clause 1
    (((scr 2147516416).fnState 15 = fnScrub) ∧
      (∀ (a : TierAcc), a ∈ (scr 2147516416).mt.accs → a.owner ≠ 15)) ∧
    -- clause 2
    (((scr 32768).fnState 15 = fnScrub) ∧
      (∀ (a : TierAcc), a ∈ (scr 32768).mt.accs → a.owner ≠ 15)) ∧
    (scr 2147516416).PlacesNamed ∧
    (scr 32768).PlacesNamed :=
  ⟨by decide +kernel,
    by decide +kernel,
    by exact State.placesNamed_of _ (by decide +kernel) (by decide +kernel) (by decide +kernel),
    by exact State.placesNamed_of _ (by decide +kernel) (by decide +kernel) (by decide +kernel)⟩

theorem wit_Bar2AccessesPassStageOne_1 :
    -- clause 1
    (((b2 1).booted = true) ∧
      ((b2 1).domOn 29 = true) ∧
      ((b2 1).fnState 15 = fnReady ∨ (b2 1).fnState 15 = fnLost) ∧
      (((b2 1).count (Pg.hifFn 15) 4 1).bar2Refused 15 ((b2 1).bar2Base 15 + 2097151) 2 false ≠ 0)) ∧
    -- clause 2
    (((b2 2).booted = true) ∧
      ((b2 2).domOn 29 = true) ∧
      ((b2 2).fnState 15 = fnReady ∨ (b2 2).fnState 15 = fnLost) ∧
      (((b2 2).count (Pg.hifFn 15) 4 1).bar2Refused 15 ((b2 2).bar2Base 15 + 511) 2 false = 0)) ∧
    -- clause 4
    ((((b2 1).count (Pg.hifFn 15) 5 1).bar2Refused 15 ((b2 1).bar2Base 15 + 2097151) [8, 9].length true ≠ 0)) ∧
    -- clause 5
    ((((b2 2).count (Pg.hifFn 15) 5 1).bar2Refused 15 ((b2 2).bar2Base 15 + 511) [8, 9].length true = 0) ∧
      (Memory.wf (b2 2).da = true)) ∧
    -- clause 6
    (((b2 3).booted = true) ∧
      ((b2 3).domOn 29 = true) ∧
      ((b2 3).fnState 15 = fnScrub)) := by
  decide +kernel

theorem wit_ControlEntriesAct_1 :
    -- clause 1
    (((con 5 1 0 [1023]).entry 9 = some (cbe 5 1 0 [1023])) ∧
      ((cbe 5 1 0 [1023]).opcode = 4) ∧
      ((con 5 1 0 [1023]).canStart (cbe 5 1 0 [1023]) = true) ∧
      (((con 5 1 0 [1023]).ctx (cbe 5 1 0 [1023]).ctx).cores[Con.core (cbe 5 1 0 [1023])]? = some 17) ∧
      (Con.cmd (cbe 5 1 0 [1023]) = 5)) ∧
    -- clause 2
    (((con 6 1 0 (acc 6291968)).entry 9 = some (cbe 6 1 0 (acc 6291968))) ∧
      ((cbe 6 1 0 (acc 6291968)).opcode = 4) ∧
      ((con 6 1 0 (acc 6291968)).canStart (cbe 6 1 0 (acc 6291968)) = true) ∧
      (((con 6 1 0 (acc 6291968)).ctx (cbe 6 1 0 (acc 6291968)).ctx).cores[Con.core (cbe 6 1 0 (acc 6291968))]? = some 17) ∧
      (Con.cmd (cbe 6 1 0 (acc 6291968)) = 6)) ∧
    -- clause 3
    (((con 6 1 0 (acc 8389120)).entry 9 = some (cbe 6 1 0 (acc 8389120))) ∧
      ((cbe 6 1 0 (acc 8389120)).opcode = 4) ∧
      ((con 6 1 0 (acc 8389120)).canStart (cbe 6 1 0 (acc 8389120)) = true) ∧
      (((con 6 1 0 (acc 8389120)).ctx (cbe 6 1 0 (acc 8389120)).ctx).cores[Con.core (cbe 6 1 0 (acc 8389120))]? = some 17) ∧
      (Con.cmd (cbe 6 1 0 (acc 8389120)) = 6) ∧
      (((con 6 1 0 (acc 8389120)).page (pageOf (Con.da (cbe 6 1 0 (acc 8389120))))).owner ≠ some (tenantOf (cbe 6 1 0 (acc 8389120)).ctx))) ∧
    -- clause 4
    (((con 3 1 63 rg).entry 9 = some (cbe 3 1 63 rg)) ∧
      ((cbe 3 1 63 rg).opcode = 4) ∧
      ((con 3 1 63 rg).canStart (cbe 3 1 63 rg) = true) ∧
      (((con 3 1 63 rg).ctx (cbe 3 1 63 rg).ctx).cores[Con.core (cbe 3 1 63 rg)]? = some 17) ∧
      (Con.cmd (cbe 3 1 63 rg) = 3) ∧
      (((con 3 1 63 rg).txn (Pg.spd5 17 / 4096)).openTxn = none) ∧
      (((con 3 1 63 rg).txn (Pg.spd5 17 / 4096)).pend.length < 4)) ∧
    -- clause 5
    (((res (con 4 1 31 md)).entry 9 = some (cbe 4 1 31 md)) ∧
      ((cbe 4 1 31 md).opcode = 4) ∧
      ((res (con 4 1 31 md)).canStart (cbe 4 1 31 md) = true) ∧
      (((res (con 4 1 31 md)).ctx (cbe 4 1 31 md).ctx).cores[Con.core (cbe 4 1 31 md)]? = some 17) ∧
      (Con.cmd (cbe 4 1 31 md) = 4) ∧
      (((res (con 4 1 31 md)).core 17).ctx = some (cbe 4 1 31 md).ctx) ∧
      (((res (con 4 1 31 md)).txn (Pg.seq 17 / 4096)).openTxn = none) ∧
      (((res (con 4 1 31 md)).txn (Pg.seq 17 / 4096)).pend.length < 4)) ∧
    -- clause 6
    (((con 4 1 31 md).entry 9 = some (cbe 4 1 31 md)) ∧
      ((con 4 1 31 md).canStart (cbe 4 1 31 md) = true) ∧
      (((con 4 1 31 md).ctx (cbe 4 1 31 md).ctx).cores[Con.core (cbe 4 1 31 md)]? = some 17) ∧
      (((con 4 1 31 md).core 17).ctx ≠ some (cbe 4 1 31 md).ctx)) := by
  decide +kernel

theorem wit_ControlEntriesAct_2 :
    -- clause 1
    (((so 2 0 [5]).entry 9 = some (cbe 2 1 5 [5])) ∧
      ((cbe 2 1 5 [5]).opcode = 4) ∧
      ((so 2 0 [5]).canStart (cbe 2 1 5 [5]) = true) ∧
      (((so 2 0 [5]).ctx (cbe 2 1 5 [5]).ctx).cores[Con.core (cbe 2 1 5 [5])]? = some 17) ∧
      (Con.cmd (cbe 2 1 5 [5]) = 2) ∧
      ((so 2 0 [5]).strEntry (cbe 2 1 5 [5]).ctx (Con.index (cbe 2 1 5 [5])) = some 4095) ∧
      ((so 2 0 [5]).strOwned 4095 = true) ∧
      (bitsOf (BitVec.toNat (Con.data (cbe 2 1 5 [5]) 0)) 7 0 = 5)) ∧
    -- clause 2
    (((so 2 1 [6]).entry 9 = some (cbe 2 1 5 [6])) ∧
      ((cbe 2 1 5 [6]).opcode = 4) ∧
      ((so 2 1 [6]).canStart (cbe 2 1 5 [6]) = true) ∧
      (((so 2 1 [6]).ctx (cbe 2 1 5 [6]).ctx).cores[Con.core (cbe 2 1 5 [6])]? = some 17) ∧
      (Con.cmd (cbe 2 1 5 [6]) = 2) ∧
      ((so 2 1 [6]).strEntry (cbe 2 1 5 [6]).ctx (Con.index (cbe 2 1 5 [6])) = some 4095) ∧
      ((so 2 1 [6]).strOwned 4095 = true) ∧
      (bitsOf (BitVec.toNat (Con.data (cbe 2 1 5 [6]) 0)) 7 0 = 6) ∧
      ((so 2 1 [6]).strHeld 4095 = true)) ∧
    -- clause 3
    (((so 1 1 w17).entry 9 = some (cbe 1 1 5 w17)) ∧
      ((cbe 1 1 5 w17).opcode = 4) ∧
      ((so 1 1 w17).canStart (cbe 1 1 5 w17) = true) ∧
      (((so 1 1 w17).ctx (cbe 1 1 5 w17).ctx).cores[Con.core (cbe 1 1 5 w17)]? = some 17) ∧
      (Con.cmd (cbe 1 1 5 w17) = 1) ∧
      ((so 1 1 w17).strEntry (cbe 1 1 5 w17).ctx (Con.index (cbe 1 1 5 w17)) = some 4095) ∧
      ((so 1 1 w17).strOwned 4095 = true) ∧
      ((so 1 1 w17).strHeld 4095 = true)) ∧
    -- clause 4
    (((so 1 0 w17).entry 9 = some (cbe 1 1 5 w17)) ∧
      ((so 1 0 w17).canStart (cbe 1 1 5 w17) = true) ∧
      (((so 1 0 w17).ctx (cbe 1 1 5 w17).ctx).cores[Con.core (cbe 1 1 5 w17)]? = some 17) ∧
      ((so 1 0 w17).strEntry (cbe 1 1 5 w17).ctx (Con.index (cbe 1 1 5 w17)) = some 4095) ∧
      ((so 1 0 w17).strOwned 4095 = true) ∧
      ((so 1 0 w17).strHeld 4095 = false) ∧
      ((iter 4 (fun w t => t.setStr 4095 w (if w = 0 then wordSet (wordSet (Con.data (cbe 1 1 5 w17) 0) ({ hi := 7, lo := 1 } : Fld) (cbe 1 1 5 w17).ctx) ({ hi := 12, lo := 8 } : Fld) 17 else Con.data (cbe 1 1 5 w17) w)) (so 1 0 w17)).strPlaced 17 (cbe 1 1 5 w17).ctx 4095 = false)) ∧
    -- clause 5
    ((swp.entry 9 = some (cbe 1 1 5 w17)) ∧
      (swp.canStart (cbe 1 1 5 w17) = true) ∧
      ((swp.ctx (cbe 1 1 5 w17).ctx).cores[Con.core (cbe 1 1 5 w17)]? = some 17) ∧
      (swp.strEntry (cbe 1 1 5 w17).ctx (Con.index (cbe 1 1 5 w17)) = some 4095) ∧
      (swp.strOwned 4095 = true) ∧
      (swp.strHeld 4095 = false) ∧
      ((iter 4 (fun w t => t.setStr 4095 w (if w = 0 then wordSet (wordSet (Con.data (cbe 1 1 5 w17) 0) ({ hi := 7, lo := 1 } : Fld) (cbe 1 1 5 w17).ctx) ({ hi := 12, lo := 8 } : Fld) 17 else Con.data (cbe 1 1 5 w17) w)) swp).strPlaced 17 (cbe 1 1 5 w17).ctx 4095 = true)) := by
  decide +kernel

theorem wit_JobsRunUnderTheScheduler_1 :
    -- clause 1
    (((jbS j2).entry 9 = some j2) ∧
      (j2.opcode = 1) ∧
      ((jbS j2).canStart j2 = true) ∧
      ((jbS j2).ctl.jobs = []) ∧
      ((jbS j2).rel.holdStarts = false) ∧
      ((jbS j2).ctl.upd.holding = none) ∧
      (∀ (n : Nat), n ∈ List.map (fun c => ((jbS j2).ctx j2.ctx).cores.getD c 31) (maskCores (Job'.mask j2)) → n < 18 ∧ (jbS j2).inService n = true ∧ (jbS j2).domOn n = true)) ∧
    -- clause 2
    (((jbS j0).entry 9 = some j0) ∧
      (j0.opcode = 1) ∧
      ((jbS j0).canStart j0 = true) ∧
      ((jbS j0).ctl.jobs = []) ∧
      ((jbS j0).rel.holdStarts = false) ∧
      ((jbS j0).ctl.upd.holding = none) ∧
      (∀ (n : Nat), n ∈ List.map (fun c => ((jbS j0).ctx j0.ctx).cores.getD c 31) (maskCores (Job'.mask j0)) → n < 18 ∧ (jbS j0).inService n = true ∧ (jbS j0).domOn n = true)) := by
  decide +kernel

theorem wit_JobsRunUnderTheScheduler_2 :
    -- clause 1
    ((jr.ctl.jobs = [jj jr]) ∧
      ((jj jr).id = 9) ∧
      ((jj jr).st = JobSt.running) ∧
      ((jj jr).held ≠ []) ∧
      ((jj jr).sliceOver 99999999 = true) ∧
      (jr.fnState (tenantOf (jj jr).ctx) = fnReady)) ∧
    -- clause 2
    (((jj jr).sliceOver 12346 = false)) ∧
    -- clause 3
    ((jdr.ctl.jobs = [jj jdr]) ∧
      ((jj jdr).id = 9) ∧
      ((jj jdr).st = JobSt.draining) ∧
      ((jj jdr).held = [17]) ∧
      (jdr.atRest 17 = true)) ∧
    -- clause 4
    ((jrun.ctl.jobs = [jj jrun]) ∧
      ((jj jrun).id = 9) ∧
      ((jj jrun).st = JobSt.draining) ∧
      ((jj jrun).held = [17]) ∧
      (jrun.atRest 17 = false)) ∧
    -- clause 5
    ((0 < (jj jr).limit) ∧
      ((jj jr).limit * 2048000 ≤ (jj jr).ran + (299999999 - (jj jr).mark)) ∧
      ((jr.ctx (jj jr).ctx).fault = none)) := by
  decide +kernel

theorem wit_ContextsAreCreatedTornDownAndMoved_1 :
    -- clause 1
    ((cr0.Admits 16 R.CTL_MB_CMD PageKind.ctlMb 0) ∧
      (cr0.exists' (8 * 15 + 7) = false) ∧
      (1 ≤ wordFld (cr0.reg R.CTL_MB_ARG0) F.CTL_MB_ARG0_CORES) ∧
      (wordFld (cr0.reg R.CTL_MB_ARG0) F.CTL_MB_ARG0_CORES ≤ 16) ∧
      (1 ≤ wordFld (cr0.reg R.CTL_MB_ARG0) F.CTL_MB_ARG0_ROWS) ∧
      (wordFld (cr0.reg R.CTL_MB_ARG0) F.CTL_MB_ARG0_ROWS ≤ 48) ∧
      (1 ≤ wordFld (cr0.reg R.CTL_MB_ARG0) F.CTL_MB_ARG0_REGIONS) ∧
      (wordFld (cr0.reg R.CTL_MB_ARG0) F.CTL_MB_ARG0_REGIONS ≤ 64) ∧
      (1 ≤ wordFld (cr0.reg R.CTL_MB_ARG0) F.CTL_MB_ARG0_IMEM) ∧
      (wordFld (cr0.reg R.CTL_MB_ARG0) F.CTL_MB_ARG0_IMEM ≤ 64) ∧
      (wordFld (cr0.reg R.CTL_MB_ARG1) F.CTL_MB_ARG1_STREAMS = 0) ∧
      (1 ≤ wordFld (cr0.reg R.CTL_MB_ARG1) F.CTL_MB_ARG1_SHARE) ∧
      (wordFld (cr0.reg R.CTL_MB_ARG1) F.CTL_MB_ARG1_SHARE ≤ 1000) ∧
      ((cr0.page (pageOf (cr0.fld R.CTL_MB_DA_LO F.CTL_MB_DA_LO_STATUS_DA * 512 + cr0.fld R.CTL_MB_DA_HI F.CTL_MB_DA_HI_STATUS_DA * 2 ^ 32))).owner = some 15) ∧
      (cr0.fnState 15 = fnReady) ∧
      (wordFld (cr0.reg R.CTL_MB_ARG0) F.CTL_MB_ARG0_CORES ≤ (List.filterMap (fun m => if cr0.inService m = true then Option.map (fun p => (m, p)) (cr0.findPlace m (wordFld (cr0.reg R.CTL_MB_ARG0) F.CTL_MB_ARG0_ROWS * 1024) (wordFld (cr0.reg R.CTL_MB_ARG0) F.CTL_MB_ARG0_REGIONS) (wordFld (cr0.reg R.CTL_MB_ARG0) F.CTL_MB_ARG0_IMEM * 256)) else none) (List.range 18)).length)) ∧
    -- clause 3
    ((cr1.Admits 16 R.CTL_MB_CMD PageKind.ctlMb 0) ∧
      (cr1.exists' (8 * 15 + 7) = false) ∧
      (1 ≤ wordFld (cr1.reg R.CTL_MB_ARG0) F.CTL_MB_ARG0_CORES) ∧
      (wordFld (cr1.reg R.CTL_MB_ARG0) F.CTL_MB_ARG0_CORES ≤ 16) ∧
      (1 ≤ wordFld (cr1.reg R.CTL_MB_ARG0) F.CTL_MB_ARG0_ROWS) ∧
      (wordFld (cr1.reg R.CTL_MB_ARG0) F.CTL_MB_ARG0_ROWS ≤ 48) ∧
      (1 ≤ wordFld (cr1.reg R.CTL_MB_ARG0) F.CTL_MB_ARG0_REGIONS) ∧
      (wordFld (cr1.reg R.CTL_MB_ARG0) F.CTL_MB_ARG0_REGIONS ≤ 64) ∧
      (1 ≤ wordFld (cr1.reg R.CTL_MB_ARG0) F.CTL_MB_ARG0_IMEM) ∧
      (wordFld (cr1.reg R.CTL_MB_ARG0) F.CTL_MB_ARG0_IMEM ≤ 64) ∧
      (wordFld (cr1.reg R.CTL_MB_ARG1) F.CTL_MB_ARG1_STREAMS = 0) ∧
      (1 ≤ wordFld (cr1.reg R.CTL_MB_ARG1) F.CTL_MB_ARG1_SHARE) ∧
      (wordFld (cr1.reg R.CTL_MB_ARG1) F.CTL_MB_ARG1_SHARE ≤ 1000) ∧
      ((cr1.page (pageOf (cr1.fld R.CTL_MB_DA_LO F.CTL_MB_DA_LO_STATUS_DA * 512 + cr1.fld R.CTL_MB_DA_HI F.CTL_MB_DA_HI_STATUS_DA * 2 ^ 32))).owner = some 15) ∧
      (cr1.fnState 15 = fnReady) ∧
      ((List.filterMap (fun m => if cr1.inService m = true then Option.map (fun p => (m, p)) (cr1.findPlace m (wordFld (cr1.reg R.CTL_MB_ARG0) F.CTL_MB_ARG0_ROWS * 1024) (wordFld (cr1.reg R.CTL_MB_ARG0) F.CTL_MB_ARG0_REGIONS) (wordFld (cr1.reg R.CTL_MB_ARG0) F.CTL_MB_ARG0_IMEM * 256)) else none) (List.range 18)).length < wordFld (cr1.reg R.CTL_MB_ARG0) F.CTL_MB_ARG0_CORES)) ∧
    -- clause 4
    ((ex.Admits 16 R.CTL_MB_CMD PageKind.ctlMb 0) ∧
      (ex.exists' (8 * 15 + 7) = true)) ∧
    cr0.PlacesNamed ∧
    cr1.PlacesNamed ∧
    ex.PlacesNamed :=
  ⟨by unfold State.Admits State.Permits; decide +kernel,
    by unfold State.Admits State.Permits; decide +kernel,
    by unfold State.Admits State.Permits; decide +kernel,
    by exact State.placesNamed_of _ (by decide +kernel) (by decide +kernel) (by decide +kernel),
    by exact State.placesNamed_of _ (by decide +kernel) (by decide +kernel) (by decide +kernel),
    by exact State.placesNamed_of _ (by decide +kernel) (by decide +kernel) (by decide +kernel)⟩

theorem wit_ContextsAreCreatedTornDownAndMoved_2 :
    -- clause 1
    (((ft.ctx 127).fault = some ({ code := 3, sub := 1, core := 17, tag := 0, opTag := 5, dtime := 9 } : FaultRec)) ∧
      (ft.exists' 127 = true) ∧
      ((ft.ctx 127).tear = false)) ∧
    ft.PlacesNamed :=
  ⟨by decide +kernel,
    by exact State.placesNamed_of _ (by decide +kernel) (by decide +kernel) (by decide +kernel)⟩

theorem wit_ContextsAreCreatedTornDownAndMoved_3 :
    -- clause 1
    (((ft2.ctx 127).fault = some ((ft2.ctx 127).fault.getD noFault)) ∧
      (ft2.exists' 127 = true) ∧
      ((ft2.ctx 127).tear = true) ∧
      (ft2.flushed 127 = true)) ∧
    ft2.PlacesNamed :=
  ⟨by decide +kernel,
    by exact State.placesNamed_of _ (by decide +kernel) (by decide +kernel) (by decide +kernel)⟩

theorem wit_ContextsAreCreatedTornDownAndMoved_4 :
    -- clause 1
    ((mv.exists' 127 = true) ∧
      (mv.inService 0 = true) ∧
      (mv.domOn 0 = true) ∧
      (17 ≠ 0) ∧
      (mv.exchangeable 127 17 = true) ∧
      (¬0 ∈ (mv.ctx 127).cores) ∧
      ((mv.ctx 127).fault = none) ∧
      (List.findIdx? (fun x => x == 17) (mv.ctx 127).cores = some 1) ∧
      ((mv.ctx 127).place[1]? = some ({ rowBase := 65534, rows := 2, regBase := 61, regCount := 3, imemBase := 256, imemCount := 2, range := 3 } : Place)) ∧
      (mv.samePlace 0 ({ rowBase := 65534, rows := 2, regBase := 61, regCount := 3, imemBase := 256, imemCount := 2, range := 3 } : Place) = some 0) ∧
      (Memory.wf mv.spad = true) ∧
      (({ rowBase := 65534, rows := 2, regBase := 61, regCount := 3, imemBase := 256, imemCount := 2, range := 3 } : Place).rowBase + ({ rowBase := 65534, rows := 2, regBase := 61, regCount := 3, imemBase := 256, imemCount := 2, range := 3 } : Place).rows ≤ 65536)) ∧
    mv.PlacesNamed :=
  ⟨by decide +kernel,
    by exact State.placesNamed_of _ (by decide +kernel) (by decide +kernel) (by decide +kernel)⟩

theorem wit_ContextsAreCreatedTornDownAndMoved_5 :
    -- clause 1
    ((xc.Admits 16 R.CTL_XCOPY PageKind.ctl0 0) ∧
      (wordFld (xcv 0 16320 1) F.CTL_XCOPY_SRC_CORE ≤ 17) ∧
      (wordFld (xcv 0 16320 1) F.CTL_XCOPY_DST_CORE ≤ 17) ∧
      (wordFld (xcv 0 16320 1) F.CTL_XCOPY_FIRST + 64 * wordFld (xcv 0 16320 1) F.CTL_XCOPY_COUNT ≤ 16384) ∧
      (xc.domOn (wordFld (xcv 0 16320 1) F.CTL_XCOPY_SRC_CORE) = true) ∧
      (xc.domOn (wordFld (xcv 0 16320 1) F.CTL_XCOPY_DST_CORE) = true)) ∧
    -- clause 2
    ((wordFld (xcv 0 16321 1) F.CTL_XCOPY_SRC_CORE ≤ 17) ∧
      (wordFld (xcv 0 16321 1) F.CTL_XCOPY_DST_CORE ≤ 17) ∧
      (16384 < wordFld (xcv 0 16321 1) F.CTL_XCOPY_FIRST + 64 * wordFld (xcv 0 16321 1) F.CTL_XCOPY_COUNT)) ∧
    xc.PlacesNamed :=
  ⟨by unfold State.Admits State.Permits; decide +kernel,
    by decide +kernel,
    by exact State.placesNamed_of _ (by decide +kernel) (by decide +kernel) (by decide +kernel)⟩

theorem wit_FirmwareUpdatesByHandover_1 :
    -- clause 1
    (((cc up).Admits 16 R.CTL_UPD_CMD PageKind.ctlUpd 0) ∧
      ((cc up).updState ≠ 1) ∧
      ((cc up).updState ≠ 3) ∧
      ((cc up).flash.next = FlashRec.none) ∧
      ((cc up).pfRefuses = false)) ∧
    -- clause 2
    (((cc up).updState ≠ 2)) ∧
    -- clause 3
    (((cc up).updState = 0)) ∧
    -- clause 4
    ((u1.Admits 16 R.CTL_UPD_CMD PageKind.ctlUpd 0) ∧
      (u1.updState = 1 ∨ u1.updState = 3 ∨ u1.flash.next ≠ FlashRec.none)) ∧
    -- clause 5
    ((u2.Admits 16 R.CTL_UPD_CMD PageKind.ctlUpd 0) ∧
      (u2.updState = 2) ∧
      (u2.flash.next = FlashRec.none) ∧
      ((leastBelow 4 fun m => u2.fld (R.REL_CCORE m) F.REL_CCORE_STATE == 1) = some 0) ∧
      ((leastBelow 4 fun m => bitOf (u2.fld R.CTL_STATUS F.CTL_STATUS_ACTIVE) m && m != 0) = some 1)) ∧
    -- clause 6
    ((u2.fld R.CTL_UPD_STATUS F.CTL_UPD_STATUS_HANDED = 0)) ∧
    -- clause 7
    ((u3.updState = 3) ∧
      (u3.flash.next = FlashRec.none) ∧
      (u3.ctl.upd.loader = some 0) ∧
      (u3.canLoad 0 = true) ∧
      (u3.ctl.upd.holding = some 1) ∧
      (bitOf (u3.fld R.CTL_STATUS F.CTL_STATUS_ACTIVE) 1 = true) ∧
      (1 ≠ 0) ∧
      (u3.handoverWaits 1 = false)) ∧
    -- clause 8
    ((u3l.updState = 3) ∧
      (u3l.flash.next = FlashRec.none) ∧
      (u3l.ctl.upd.loader = some 0) ∧
      (u3l.canLoad 0 = true) ∧
      (u3l.ctl.upd.holding = some 1) ∧
      (bitOf (u3l.fld R.CTL_STATUS F.CTL_STATUS_ACTIVE) 1 = true) ∧
      (u3l.handoverWaits 1 = false)) ∧
    -- clause 9
    ((u3w.updState = 3) ∧
      (u3w.flash.next = FlashRec.none) ∧
      (u3w.ctl.upd.loader = some 0) ∧
      (u3w.canLoad 0 = true) ∧
      (u3w.ctl.upd.holding = some 1) ∧
      (bitOf (u3w.fld R.CTL_STATUS F.CTL_STATUS_ACTIVE) 1 = true) ∧
      (u3w.handoverWaits 1 = true)) ∧
    (cc up).PlacesNamed ∧
    u1.PlacesNamed ∧
    u2.PlacesNamed ∧
    u3.PlacesNamed ∧
    u3l.PlacesNamed ∧
    u3w.PlacesNamed :=
  ⟨by unfold State.Admits State.Permits; decide +kernel,
    by decide +kernel,
    by decide +kernel,
    by unfold State.Admits State.Permits; decide +kernel,
    by unfold State.Admits State.Permits; decide +kernel,
    by decide +kernel,
    by decide +kernel,
    by decide +kernel,
    by decide +kernel,
    by exact State.placesNamed_of _ (by decide +kernel) (by decide +kernel) (by decide +kernel),
    by exact State.placesNamed_of _ (by decide +kernel) (by decide +kernel) (by decide +kernel),
    by exact State.placesNamed_of _ (by decide +kernel) (by decide +kernel) (by decide +kernel),
    by exact State.placesNamed_of _ (by decide +kernel) (by decide +kernel) (by decide +kernel),
    by exact State.placesNamed_of _ (by decide +kernel) (by decide +kernel) (by decide +kernel),
    by exact State.placesNamed_of _ (by decide +kernel) (by decide +kernel) (by decide +kernel)⟩

theorem wit_ControlCoresCrashAndFail_1 :
    -- clause 1
    (((Instr.ccWatchdog 2, 3) = (Instr.ccWatchdog 2, 3)) ∧
      (cr.booted = true) ∧
      (cr.domOn 29 = true) ∧
      (bitOf (cr.fld R.CTL_STATUS F.CTL_STATUS_ACTIVE) 2 = true)) ∧
    -- clause 2
    (((Instr.sramDoubleBit 2, 1) = (Instr.sramDoubleBit 2, 1))) ∧
    -- clause 3
    (((Instr.kernelAssertion 0, 2) = (Instr.kernelAssertion 0, 2)) ∧
      (bitOf (cr.fld R.CTL_STATUS F.CTL_STATUS_ACTIVE) 0 = false)) ∧
    -- clause 5
    ((cr.fld (R.REL_CCORE 2) F.REL_CCORE_STATE ≠ 3) ∧
      ((leastBelow 4 fun m => m != 2 && cr.fld (R.REL_CCORE m) F.REL_CCORE_STATE == 1) = some 0)) ∧
    -- clause 6
    (((cr.setReg (R.REL_CCORE 2) 3).fld (R.REL_CCORE 2) F.REL_CCORE_STATE = 3)) ∧
    -- clause 7
    ((aonS.Permits 16 R.CTL_DUMP_AON_DATA false PageKind.ctlDump 0) ∧
      (aonS.ctl.aon[aonS.fld R.CTL_DUMP_AON_ADDR F.CTL_DUMP_AON_ADDR_WORD]? = some 2748)) ∧
    cr.PlacesNamed ∧
    (cr.setReg (R.REL_CCORE 2) 3).PlacesNamed ∧
    aonS.PlacesNamed :=
  ⟨by decide +kernel,
    by decide +kernel,
    by decide +kernel,
    by decide +kernel,
    by decide +kernel,
    by unfold State.Permits; decide +kernel,
    by exact State.placesNamed_of _ (by decide +kernel) (by decide +kernel) (by decide +kernel),
    by exact State.placesNamed_of _ (by decide +kernel) (by decide +kernel) (by decide +kernel),
    by exact State.placesNamed_of _ (by decide +kernel) (by decide +kernel) (by decide +kernel)⟩

theorem wit_PloemPortsReplayRetrainAndDegrade_1 :
    -- clause 1
    ((pe.portUp 5 = true)) ∧
    -- clause 2
    ((1 ≤ fl22.typ) ∧
      (fl22.typ ≤ 3) ∧
      (fl22.nak = false) ∧
      (fl22.seq = (pe.port 5).expect) ∧
      ((List.filter (fun q => q.fst == fl22.vc) (pe.port 5).fwd).length < 64)) ∧
    -- clause 3
    ((pa.portUp 5 = true) ∧
      (fl22.seq = (pa.port 5).expect) ∧
      ((List.filter (fun q => q.fst == fl22.vc) (pa.port 5).fwd).length < 64)) ∧
    -- clause 4
    ((1 ≤ ({ fl22 with seq := 4 } : Flit).typ) ∧
      (({ fl22 with seq := 4 } : Flit).typ ≤ 3) ∧
      (({ fl22 with seq := 4 } : Flit).nak = false) ∧
      (({ fl22 with seq := 4 } : Flit).seq ≠ (pe.port 5).expect)) := by
  decide +kernel

theorem wit_PloemPortsReplayRetrainAndDegrade_2 :
    -- clause 1
    (((rc 1 0 pa).portUp 5 = true) ∧
      (((rc 1 0 pa).port 5).unacked ≠ 0) ∧
      ((List.filter (fun t => decide ((rc 1 0 pa).dtime < t + msTicks)) ((rc 1 0 pa).port 5).replays).length < (rc 1 0 pa).fld (R.PLM_RETRY_CFG 5) F.PLM_RETRY_CFG_RETRY_THR)) ∧
    -- clause 2
    (((rc 0 1 pa).portUp 5 = true) ∧
      (((rc 0 1 pa).port 5).unacked ≠ 0) ∧
      ((rc 0 1 pa).fld (R.PLM_RETRY_CFG 5) F.PLM_RETRY_CFG_RETRY_THR ≤ (List.filter (fun t => decide ((rc 0 1 pa).dtime < t + msTicks)) ((rc 0 1 pa).port 5).replays).length) ∧
      ((List.filter (fun t => decide ((rc 0 1 pa).dtime < t + 1000 * msTicks)) ((rc 0 1 pa).port 5).retrains).length < (rc 0 1 pa).fld (R.PLM_RETRY_CFG 5) F.PLM_RETRY_CFG_RETRAIN_MAX)) ∧
    -- clause 3
    (((up.port 5).unacked = 0)) ∧
    -- clause 4
    ((pa.domOn (21 + 5) = true) ∧
      (pa.portState 5 = Port.active) ∧
      ((pa.port 5).badLanes = 0)) ∧
    -- clause 5
    (((resv pa).domOn (21 + 5) = true) ∧
      ((resv pa).portState 5 = Port.active) ∧
      (((resv pa).port 5).badLanes = 0)) ∧
    -- clause 6
    ((pdeg.domOn (21 + 5) = true) ∧
      (pdeg.portState 5 = Port.degraded) ∧
      (bitOf (pdeg.port 5).badLanes 1 = false) ∧
      (pdeg.fld (R.PLM_PORT_STATUS 5) F.PLM_PORT_STATUS_LANE = 1)) ∧
    -- clause 7
    (((pdeg.setPort 5 { }).domOn (21 + 5) = true) ∧
      ((pdeg.setPort 5 { }).portState 5 = Port.degraded) ∧
      (bitOf ((pdeg.setPort 5 { }).port 5).badLanes 0 = false) ∧
      ((pdeg.setPort 5 { }).fld (R.PLM_PORT_STATUS 5) F.PLM_PORT_STATUS_LANE ≠ 0)) ∧
    -- clause 8
    ((up.domOn (21 + 5) = true) ∧
      (up.portState 5 = Port.down ∨ up.portState 5 = Port.failed)) ∧
    -- clause 9
    ((ptr.domOn (21 + 5) = true) ∧
      (ptr.flag (R.PLM_PORT_CTRL 5) F.PLM_PORT_CTRL_EN = true) ∧
      (ptr.portState 5 = Port.training) ∧
      ((ptr.port 5).badLanes = 0) ∧
      (ptr.flag (R.PLM_PORT_CTRL 5) F.PLM_PORT_CTRL_ONE_LANE = false)) ∧
    -- clause 10
    (((resv ptr).domOn (21 + 5) = true) ∧
      ((resv ptr).flag (R.PLM_PORT_CTRL 5) F.PLM_PORT_CTRL_EN = true) ∧
      ((resv ptr).portState 5 = Port.training) ∧
      (((resv ptr).port 5).badLanes = 0) ∧
      ((resv ptr).flag (R.PLM_PORT_CTRL 5) F.PLM_PORT_CTRL_ONE_LANE = false)) ∧
    -- clause 11
    ((up.flag (R.PLM_PORT_CTRL 5) F.PLM_PORT_CTRL_EN = false)) := by
  decide +kernel

theorem wit_CollectivesPostStartLandAndComplete_1 :
    -- clause 1
    (((cis 0).AtInstr 17 0 1) ∧
      (loopStep ((cis 0).core 17).loops ((cis 0).pc 17) = ([], 1)) ∧
      (1 ≤ 16383) ∧
      (bitsOf ((cis 0).slot 17 ((cis 0).pc 17)).toNat 13 0 + 7 ≤ 16383) ∧
      (Op.opcode ((cis 0).descAt 17 (bitsOf ((cis 0).slot 17 ((cis 0).pc 17)).toNat 13 0)) = 9) ∧
      (Coll.kind ((cis 0).descAt 17 (bitsOf ((cis 0).slot 17 ((cis 0).pc 17)).toNat 13 0)) = 0) ∧
      (Op.gangLog2 ((cis 0).descAt 17 (bitsOf ((cis 0).slot 17 ((cis 0).pc 17)).toNat 13 0)) = 0) ∧
      ((cis 0).plm.queue.length < 64)) ∧
    -- clause 2
    (((cis 1).AtInstr 17 0 1) ∧
      (loopStep ((cis 1).core 17).loops ((cis 1).pc 17) = ([], 1)) ∧
      (bitsOf ((cis 1).slot 17 ((cis 1).pc 17)).toNat 13 0 + 7 ≤ 16383) ∧
      (Op.opcode ((cis 1).descAt 17 (bitsOf ((cis 1).slot 17 ((cis 1).pc 17)).toNat 13 0)) = 9) ∧
      (Coll.kind ((cis 1).descAt 17 (bitsOf ((cis 1).slot 17 ((cis 1).pc 17)).toNat 13 0)) = 1) ∧
      (Op.gangLog2 ((cis 1).descAt 17 (bitsOf ((cis 1).slot 17 ((cis 1).pc 17)).toNat 13 0)) = 0) ∧
      ((cis 1).plm.queue.length < 64)) ∧
    -- clause 3
    (((cis 2).AtInstr 17 0 1) ∧
      (loopStep ((cis 2).core 17).loops ((cis 2).pc 17) = ([], 1)) ∧
      (bitsOf ((cis 2).slot 17 ((cis 2).pc 17)).toNat 13 0 + 7 ≤ 16383) ∧
      (Op.opcode ((cis 2).descAt 17 (bitsOf ((cis 2).slot 17 ((cis 2).pc 17)).toNat 13 0)) = 9) ∧
      (Coll.kind ((cis 2).descAt 17 (bitsOf ((cis 2).slot 17 ((cis 2).pc 17)).toNat 13 0)) = 2) ∧
      (Op.gangLog2 ((cis 2).descAt 17 (bitsOf ((cis 2).slot 17 ((cis 2).pc 17)).toNat 13 0)) = 0) ∧
      ((cis 2).plm.queue.length < 64)) ∧
    -- clause 4
    (((cis 3).AtInstr 17 0 1) ∧
      (loopStep ((cis 3).core 17).loops ((cis 3).pc 17) = ([], 1)) ∧
      (bitsOf ((cis 3).slot 17 ((cis 3).pc 17)).toNat 13 0 + 7 ≤ 16383) ∧
      (Op.opcode ((cis 3).descAt 17 (bitsOf ((cis 3).slot 17 ((cis 3).pc 17)).toNat 13 0)) = 9) ∧
      (Coll.kind ((cis 3).descAt 17 (bitsOf ((cis 3).slot 17 ((cis 3).pc 17)).toNat 13 0)) = 3) ∧
      (Op.gangLog2 ((cis 3).descAt 17 (bitsOf ((cis 3).slot 17 ((cis 3).pc 17)).toNat 13 0)) = 0) ∧
      ((cis 3).plm.queue.length < 64)) ∧
    -- clause 5
    (((cqd (cis 0)).AtInstr 17 0 1) ∧
      (loopStep ((cqd (cis 0)).core 17).loops ((cqd (cis 0)).pc 17) = ([], 1)) ∧
      (bitsOf ((cqd (cis 0)).slot 17 ((cqd (cis 0)).pc 17)).toNat 13 0 + 7 ≤ 16383) ∧
      (Op.opcode ((cqd (cis 0)).descAt 17 (bitsOf ((cqd (cis 0)).slot 17 ((cqd (cis 0)).pc 17)).toNat 13 0)) = 9) ∧
      (Coll.kind ((cqd (cis 0)).descAt 17 (bitsOf ((cqd (cis 0)).slot 17 ((cqd (cis 0)).pc 17)).toNat 13 0)) = 0) ∧
      (Op.gangLog2 ((cqd (cis 0)).descAt 17 (bitsOf ((cqd (cis 0)).slot 17 ((cqd (cis 0)).pc 17)).toNat 13 0)) = 0) ∧
      (64 ≤ (cqd (cis 0)).plm.queue.length)) :=
  ⟨by unfold State.AtInstr; decide +kernel,
    by unfold State.AtInstr; decide +kernel,
    by unfold State.AtInstr; decide +kernel,
    by unfold State.AtInstr; decide +kernel,
    by unfold State.AtInstr; decide +kernel⟩

theorem wit_CollectivesPostStartLandAndComplete_2 :
    -- clause 1
    ((cok.plm.queue = [post]) ∧
      (post.core = 17) ∧
      (post.gang = [17]) ∧
      (∀ (r : CollRun), r ∈ cok.plm.runs → Coll.comm r.desc ≠ Coll.comm post.desc) ∧
      (cok.plm.runs.length < 4) ∧
      ((Coll.chk cok post (cok.commSize (Coll.comm post.desc))).faults = [])) ∧
    -- clause 2
    ((cbad.plm.queue = [({ core := 17, ctx := 0, desc := modNth cdk 6 fun _ => 0, gang := [17], pos := 0 } : CollPost)]) ∧
      (({ core := 17, ctx := 0, desc := modNth cdk 6 fun _ => 0, gang := [17], pos := 0 } : CollPost).core = 17) ∧
      (({ core := 17, ctx := 0, desc := modNth cdk 6 fun _ => 0, gang := [17], pos := 0 } : CollPost).gang = [17]) ∧
      (∀ (r : CollRun), r ∈ cbad.plm.runs → Coll.comm r.desc ≠ Coll.comm ({ core := 17, ctx := 0, desc := modNth cdk 6 fun _ => 0, gang := [17], pos := 0 } : CollPost).desc) ∧
      (cbad.plm.runs.length < 4) ∧
      ((Coll.chk cbad ({ core := 17, ctx := 0, desc := modNth cdk 6 fun _ => 0, gang := [17], pos := 0 } : CollPost) (cbad.commSize (Coll.comm ({ core := 17, ctx := 0, desc := modNth cdk 6 fun _ => 0, gang := [17], pos := 0 } : CollPost).desc))).faults ≠ [])) := by
  decide +kernel

theorem wit_CollectivesPostStartLandAndComplete_3 :
    -- clause 1
    ((List.find? (fun r => r.cores.contains 17 && r.complete) cdn.plm.runs = some run1) ∧
      (run1.posts = [post]) ∧
      (run1.ins = [run1.ins.headD (up.rgn 0 0)])) ∧
    -- clause 2
    ((0 < BitVec.toNat ((cdn.setReg R.PLM_COLL_WAIT 5).reg R.PLM_COLL_WAIT)) ∧
      (List.find? (fun r => r.ctx == 0) (cdn.setReg R.PLM_COLL_WAIT 5).plm.runs = some run1)) ∧
    -- clause 3
    ((0 < BitVec.toNat ((cok.setReg R.PLM_COLL_WAIT 5).reg R.PLM_COLL_WAIT)) ∧
      (List.find? (fun r => r.ctx == 0) (cok.setReg R.PLM_COLL_WAIT 5).plm.runs = none) ∧
      (List.find? (fun p => p.ctx == 0) (cok.setReg R.PLM_COLL_WAIT 5).plm.queue = some post)) ∧
    -- clause 4
    ((0 < BitVec.toNat ((up.setReg R.PLM_COLL_WAIT 5).reg R.PLM_COLL_WAIT)) ∧
      (List.find? (fun r => r.ctx == 0) (up.setReg R.PLM_COLL_WAIT 5).plm.runs = none) ∧
      (List.find? (fun p => p.ctx == 0) (up.setReg R.PLM_COLL_WAIT 5).plm.queue = none)) ∧
    -- clause 5
    ((BitVec.toNat ((cdn.setReg R.PLM_COLL_WAIT 0).reg R.PLM_COLL_WAIT) = 0)) := by
  decide +kernel

theorem wit_TheLogIsStagedFlushedAndErased_1 :
    -- clause 1
    ((up.rel.staging = [])) ∧
    -- clause 2
    ((up.rel.erasing = false)) ∧
    -- clause 3
    ((up.flash.next = FlashRec.none)) ∧
    -- clause 4
    ((ers.rel.staging ≠ []) ∧
      (ers.rel.erasing = true) ∧
      (ers.rel.suspended = false)) ∧
    -- clause 5
    ((ers.flag R.REL_LOG_STATUS F.REL_LOG_STATUS_PF = false)) ∧
    -- clause 6
    (((stg 3 up).rel.staging ≠ []) ∧
      ((stg 3 up).rel.erasing = false) ∧
      ((stg 3 up).rel.program = none)) ∧
    -- clause 7
    (((prog 8 (stg 9 up)).rel.program = some (FlashJob.log 8))) ∧
    -- clause 8
    (((prog 8 (stg 9 up)).rel.retried = false)) ∧
    -- clause 9
    (((prog 8 (stg 3 up)).rel.program = some (FlashJob.log 8))) ∧
    -- clause 10
    (((relw (fun r => ({ r with retried := true } : Rel)) (prog 8 (stg 3 up))).rel.program = some (FlashJob.log 8)) ∧
      ((relw (fun r => ({ r with retried := true } : Rel)) (prog 8 (stg 3 up))).rel.retried = true)) := by
  decide +kernel

theorem wit_TheLogIsStagedFlushedAndErased_2 :
    -- clause 1
    (((nx (FlashRec.cfg { })).flash.next ≠ FlashRec.none) ∧
      ((nx (FlashRec.cfg { })).flash.retried = false)) ∧
    -- clause 2
    ((pfS.rel.pfSince.isSome = true)) ∧
    -- clause 3
    ((pfS.flag R.REL_LOG_STATUS F.REL_LOG_STATUS_PF = true)) ∧
    -- clause 4
    (((stg 63 (nx (FlashRec.cfg { }))).rel.pfSince = none) ∧
      ((stg 63 (nx (FlashRec.cfg { }))).rel.lost = 0) ∧
      ((stg 63 (nx (FlashRec.cfg { }))).rel.staging.length < 64)) ∧
    -- clause 5
    (((stg 63 (nx (FlashRec.cfg { }))).flag R.REL_LOG_STATUS F.REL_LOG_STATUS_PF = false)) ∧
    -- clause 6
    ((({ page := Pg.plm0, bit := 3, kind := 2, unit := 5, since := 0, merged := 7 } : PartnerWin).since + 1000 * msTicks ≤ (win 7 0).dtime) ∧
      ((win 7 0).rel.lost = 0) ∧
      ((win 7 0).rel.staging.length < 64)) ∧
    -- clause 7
    ((({ page := Pg.plm0, bit := 3, kind := 2, unit := 5, since := 0, merged := 0 } : PartnerWin).since + 1000 * msTicks ≤ (win 0 0).dtime) ∧
      ((win 0 0).rel.lost = 0) ∧
      ((win 0 0).rel.staging.length < 64)) ∧
    -- clause 8
    (((win 9 1).dtime < ({ page := Pg.plm0, bit := 3, kind := 2, unit := 5, since := 1, merged := 9 } : PartnerWin).since + 1000 * msTicks)) := by
  decide +kernel

theorem wit_CoresRetireAndPolicyChanges_1 :
    -- clause 1
    (((lt true [(5, 6), (7, 8)]).domOn 17 = true) ∧
      ((lt true [(5, 6), (7, 8)]).busy 17 = false) ∧
      (((lt true [(5, 6), (7, 8)]).core 17).laneTest = true)) ∧
    -- clause 2
    (((up.core 17).laneTest = false)) ∧
    -- clause 3
    (((up.core 17).retireWhy = 0)) ∧
    -- clause 4
    ((0 ≠ 17) ∧
      ((rt.core 17).retireWhy ≠ 0) ∧
      (rt.fld (R.REL_CORE 17) F.REL_CORE_STATE ≠ 3) ∧
      (rt.retirable 17 = true) ∧
      (∀ (m : Nat), m < 17 → (rt.core m).retireWhy = 0) ∧
      (rt.recs.reserve = true) ∧
      (leastBelow 18 rt.coldSpare = some 0) ∧
      (rt.domOn 0 = true)) ∧
    -- clause 5
    (((resv up).recs.reserve = true)) ∧
    -- clause 6
    ((mtn.recs.reserve = false) ∧
      (mtn.disabled 17 = false) ∧
      (mtn.fld (R.REL_CORE 17) F.REL_CORE_STATE = 0) ∧
      (0 < mtn.fld R.REL_THR F.REL_THR_ROTATE_H) ∧
      (Tab.get mtn.rel.rotated 0 17 + mtn.fld R.REL_THR F.REL_THR_ROTATE_H * (3600 * 1000 * msTicks) ≤ mtn.dtime) ∧
      (∀ (m : Nat), m < 18 → mtn.fld (R.REL_CORE m) F.REL_CORE_STATE ≠ 2)) ∧
    -- clause 7
    (((cst 3 2 mtn).recs.reserve = false) ∧
      ((cst 3 2 mtn).disabled 17 = false) ∧
      ((cst 3 2 mtn).fld (R.REL_CORE 17) F.REL_CORE_STATE = 0) ∧
      (∃ m, m < 18 ∧ (cst 3 2 mtn).fld (R.REL_CORE m) F.REL_CORE_STATE = 2)) ∧
    -- clause 8
    ((mt2.recs.reserve = false) ∧
      (mt2.disabled 17 = false) ∧
      (mt2.fld (R.REL_CORE 17) F.REL_CORE_STATE = 2) ∧
      (mt2.ctxsOn 17 = []) ∧
      (mt2.atRest 17 = true)) ∧
    -- clause 9
    ((((pol 0 (resv up)).flash.cfg.policy == 0) = (pol 0 (resv up)).recs.reserve)) ∧
    -- clause 10
    ((((pol 1 (resv (cst 17 1 up))).flash.cfg.policy == 0) ≠ (pol 1 (resv (cst 17 1 up))).recs.reserve) ∧
      (∀ (j : Job), j ∈ (pol 1 (resv (cst 17 1 up))).ctl.jobs → j.held = []) ∧
      (∀ (m : Nat), m < 18 → ((pol 1 (resv (cst 17 1 up))).core m).retireWhy = 0 ∧ ((pol 1 (resv (cst 17 1 up))).core m).bankSwap = none ∧ ∀ (o : OpFlight), o ∈ ((pol 1 (resv (cst 17 1 up))).core m).ops → o.swapping = false)) ∧
    -- clause 11
    ((((pol 0 (rot (cst 17 1 rt))).flash.cfg.policy == 0) ≠ (pol 0 (rot (cst 17 1 rt))).recs.reserve) ∧
      (∀ (j : Job), j ∈ (pol 0 (rot (cst 17 1 rt))).ctl.jobs → j.held = [])) ∧
    -- clause 12
    ((((pol 0 (rot (due 17 0 rt))).flash.cfg.policy == 0) ≠ (pol 0 (rot (due 17 0 rt))).recs.reserve) ∧
      (∀ (j : Job), j ∈ (pol 0 (rot (due 17 0 rt))).ctl.jobs → j.held = []) ∧
      (∀ (m : Nat), m < 18 → ((pol 0 (rot (due 17 0 rt))).core m).retireWhy = 0 ∧ ((pol 0 (rot (due 17 0 rt))).core m).bankSwap = none ∧ ∀ (o : OpFlight), o ∈ ((pol 0 (rot (due 17 0 rt))).core m).ops → o.swapping = false)) ∧
    -- clause 13
    ((up.dtime < Tab.get up.rel.wearAt 0 17 + 24 * (3600 * 1000 * msTicks))) ∧
    -- clause 14
    ((Tab.get wr27.rel.wearAt 0 17 + 24 * (3600 * 1000 * msTicks) ≤ wr27.dtime) ∧
      (wr27.rel.lost = 0) ∧
      (wr27.rel.staging.length < 64)) ∧
    -- clause 15
    ((up.Admits 16 R.REL_SVC PageKind.rel0 0)) ∧
    (lt true [(5, 6), (7, 8)]).PlacesNamed ∧
    up.PlacesNamed ∧
    rt.PlacesNamed ∧
    (resv up).PlacesNamed ∧
    mtn.PlacesNamed ∧
    (cst 3 2 mtn).PlacesNamed ∧
    mt2.PlacesNamed ∧
    (pol 0 (resv up)).PlacesNamed ∧
    (pol 1 (resv (cst 17 1 up))).PlacesNamed ∧
    (pol 0 (rot (cst 17 1 rt))).PlacesNamed ∧
    (pol 0 (rot (due 17 0 rt))).PlacesNamed ∧
    wr27.PlacesNamed :=
  ⟨by decide +kernel,
    by decide +kernel,
    by decide +kernel,
    by decide +kernel,
    by decide +kernel,
    by decide +kernel,
    by decide +kernel,
    by decide +kernel,
    by decide +kernel,
    by decide +kernel,
    by decide +kernel,
    by decide +kernel,
    by decide +kernel,
    by decide +kernel,
    by unfold State.Admits State.Permits; decide +kernel,
    by exact State.placesNamed_of _ (by decide +kernel) (by decide +kernel) (by decide +kernel),
    by exact State.placesNamed_of _ (by decide +kernel) (by decide +kernel) (by decide +kernel),
    by exact State.placesNamed_of _ (by decide +kernel) (by decide +kernel) (by decide +kernel),
    by exact State.placesNamed_of _ (by decide +kernel) (by decide +kernel) (by decide +kernel),
    by exact State.placesNamed_of _ (by decide +kernel) (by decide +kernel) (by decide +kernel),
    by exact State.placesNamed_of _ (by decide +kernel) (by decide +kernel) (by decide +kernel),
    by exact State.placesNamed_of _ (by decide +kernel) (by decide +kernel) (by decide +kernel),
    by exact State.placesNamed_of _ (by decide +kernel) (by decide +kernel) (by decide +kernel),
    by exact State.placesNamed_of _ (by decide +kernel) (by decide +kernel) (by decide +kernel),
    by exact State.placesNamed_of _ (by decide +kernel) (by decide +kernel) (by decide +kernel),
    by exact State.placesNamed_of _ (by decide +kernel) (by decide +kernel) (by decide +kernel),
    by exact State.placesNamed_of _ (by decide +kernel) (by decide +kernel) (by decide +kernel)⟩

theorem wit_DomainsEnterAndLeaveLowPower_1 :
    -- clause 1
    (((dis up).Admits 16 (R.PWR_DOM_CTRL 17) PageKind.pwr 0) ∧
      ((dis up).disabled 17 = true)) ∧
    -- clause 2
    ((up.Admits 16 (R.PWR_DOM_CTRL 30) PageKind.pwr 0) ∧
      (up.disabled 30 = false) ∧
      (30 = 30)) ∧
    -- clause 3
    ((up.domState 30 = 2)) ∧
    -- clause 4
    ((up.Admits 16 (R.PWR_DOM_CTRL 29) PageKind.pwr 0) ∧
      (up.disabled 29 = false) ∧
      (29 = 29)) ∧
    -- clause 5
    ((29 ≠ 30)) ∧
    -- clause 6
    (((own up).Admits 16 (R.PWR_DOM_CTRL 20) PageKind.pwr 0) ∧
      ((own up).disabled 20 = false) ∧
      (18 ≤ 20 ∧ 20 ≤ 20) ∧
      ((own up).ownedIn 20 = true)) ∧
    -- clause 7
    (((own up).Admits 16 (R.PWR_DOM_CTRL 19) PageKind.pwr 0) ∧
      ((own up).disabled 19 = false) ∧
      (19 < 29) ∧
      (18 ≤ 19 ∧ 19 ≤ 20 → (own up).ownedIn 19 = false)) ∧
    -- clause 8
    (((dst 17 0 0 up).Admits 16 (R.PWR_DOM_CTRL 17) PageKind.pwr 0) ∧
      ((dst 17 0 0 up).disabled 17 = false) ∧
      (((dst 17 0 0 up).domState 17, (dst 17 0 0 up).fld (R.PWR_DOM_STATUS 17) F.PWR_DOM_STATUS_PHASE) = (0, 0) ∨ ((dst 17 0 0 up).domState 17, (dst 17 0 0 up).fld (R.PWR_DOM_STATUS 17) F.PWR_DOM_STATUS_PHASE) = (1, 0)) ∧
      ((dst 17 0 0 up).tripped = false)) ∧
    -- clause 9
    (((dst 17 3 1 up).Admits 16 (R.PWR_DOM_CTRL 17) PageKind.pwr 0) ∧
      ((dst 17 3 1 up).disabled 17 = false) ∧
      (((dst 17 3 1 up).domState 17, (dst 17 3 1 up).fld (R.PWR_DOM_STATUS 17) F.PWR_DOM_STATUS_PHASE) = (3, 1))) :=
  ⟨by unfold State.Admits State.Permits; decide +kernel,
    by unfold State.Admits State.Permits; decide +kernel,
    by decide +kernel,
    by unfold State.Admits State.Permits; decide +kernel,
    by decide +kernel,
    by unfold State.Admits State.Permits; decide +kernel,
    by unfold State.Admits State.Permits; decide +kernel,
    by unfold State.Admits State.Permits; decide +kernel,
    by unfold State.Admits State.Permits; decide +kernel⟩

theorem wit_DomainsEnterAndLeaveLowPower_2 :
    -- clause 1
    (((lpw (dmode 17 1 up)).tripped = false) ∧
      ((lpw (dmode 17 1 up)).atWait 17 = true) ∧
      ((lpw (dmode 17 1 up)).domState 17 = 2) ∧
      ((lpw (dmode 17 1 up)).domMode 17 < 2) ∧
      ((lpw (dmode 17 1 up)).modeRefuse 17 0 ≠ 1)) ∧
    -- clause 2
    (((own (dmode 20 0 up)).tripped = false) ∧
      ((own (dmode 20 0 up)).atWait 20 = true) ∧
      ((own (dmode 20 0 up)).domState 20 = 2) ∧
      ((own (dmode 20 0 up)).domMode 20 < 2) ∧
      ((own (dmode 20 0 up)).disabled 20 = false) ∧
      (18 ≤ 20 ∧ 20 ≤ 20) ∧
      ((own (dmode 20 0 up)).ownedIn 20 = true) ∧
      ((own (dmode 20 0 up)).domMode 20 = 0)) ∧
    -- clause 3
    (((lpw (dmode 17 0 (dst 17 1 0 up))).tripped = false) ∧
      ((lpw (dmode 17 0 (dst 17 1 0 up))).atWait 17 = true) ∧
      ((lpw (dmode 17 0 (dst 17 1 0 up))).domState 17 = 1) ∧
      ((lpw (dmode 17 0 (dst 17 1 0 up))).domMode 17 = 0) ∧
      ((lpw (dmode 17 0 (dst 17 1 0 up))).modeRefuse 17 0 ≠ 1)) ∧
    -- clause 4
    ((up.tripped = false) ∧
      (up.atWait 17 = false ∨ 2 ≤ up.domMode 17 ∨ up.domState 17 = 0 ∨ up.domState 17 = 3)) ∧
    -- clause 5
    (((tgt 1 true up).tripped = false) ∧
      (((tgt 1 true up).domState 17, (tgt 1 true up).fld (R.PWR_DOM_STATUS 17) F.PWR_DOM_STATUS_PHASE) = (3, 1)) ∧
      (((tgt 1 true up).dom 17).target ≤ 1)) ∧
    -- clause 6
    (((alone (tgt 0 false up)).tripped = false) ∧
      (((alone (tgt 0 false up)).domState 17, (alone (tgt 0 false up)).fld (R.PWR_DOM_STATUS 17) F.PWR_DOM_STATUS_PHASE) = (3, 1)) ∧
      (((alone (tgt 0 false up)).dom 17).target ≤ 1)) ∧
    -- clause 7
    (((ext 28 0 up).tripped = false) ∧
      (((ext 28 0 up).domState 28, (ext 28 0 up).fld (R.PWR_DOM_STATUS 28) F.PWR_DOM_STATUS_PHASE) = (3, 2)) ∧
      (28 < 30) ∧
      (∀ (q : Nat × PageTxn), q ∈ (ext 28 0 up).txns → q.snd.pend = []) ∧
      ((ext 28 0 up).ctl.jobs = []) ∧
      ((ext 28 0 up).brz.gust = none)) ∧
    -- clause 8
    (((up.domState 28, up.fld (R.PWR_DOM_STATUS 28) F.PWR_DOM_STATUS_PHASE) ≠ (3, 1))) ∧
    -- clause 9
    (((up.domState 28, up.fld (R.PWR_DOM_STATUS 28) F.PWR_DOM_STATUS_PHASE) ≠ (3, 2))) := by
  decide +kernel

theorem wit_ClocksThermalLimitsAndDeviceTime_1 :
    -- clause 1
    ((State.reset.clocks = false)) ∧
    -- clause 2
    ((lossy.clocks = true)) ∧
    -- clause 3
    ((up.flag R.CLK_STATUS F.CLK_STATUS_PLL_ON = true)) ∧
    -- clause 4
    ((State.reset.flag R.CLK_STATUS F.CLK_STATUS_PLL_ON = false)) ∧
    -- clause 5
    (((List.replicate 7 (some 5)).getD 7 none = none)) ∧
    -- clause 6
    ((up.flag R.PWR_WAKE_CTRL F.PWR_WAKE_CTRL_EN = false)) ∧
    -- clause 7
    ((wakeS.flag R.PWR_WAKE_CTRL F.PWR_WAKE_CTRL_EN = true)) ∧
    -- clause 8
    ((up.domOn 30 = true) ∧
      (up.Permits 16 R.CLK_DTIME_LO false PageKind.clk 0)) ∧
    -- clause 9
    ((up.Permits 16 R.MGT_TEL_POWER false PageKind.mgtTel 0)) := by
  unfold State.Permits; decide +kernel

theorem wit_RecordsRollbackAndAttestation_1 :
    -- clause 1
    (((idn up).booted = true) ∧
      ((idn up).flag R.REL_LOG_STATUS F.REL_LOG_STATUS_PF = false)) ∧
    -- clause 2
    (((idn up).flash.ident.isSome = true)) ∧
    -- clause 3
    (((idv up).Admits 16 R.SEC_ATT_CMD PageKind.secAtt 0)) ∧
    -- clause 4
    ((up.Admits 16 R.SEC_ATT_CMD PageKind.secAtt 0)) := by
  unfold State.Admits State.Permits; decide +kernel

theorem wit_RecordsRollbackAndAttestation_2 :
    -- clause 1
    ((up.sec.report = [] ∨ up.sec.reportSig ≠ 0)) ∧
    -- clause 2
    ((att.sec.report ≠ []) ∧
      (att.sec.reportSig = 0)) ∧
    -- clause 3
    ((att2.Permits 16 R.SEC_ATT_DATA false PageKind.secAtt 0) ∧
      (att2.sec.reportSig ≠ 0) ∧
      (att2.fld R.SEC_ATT_ADDR F.SEC_ATT_ADDR_WORD < 128)) ∧
    -- clause 4
    ((((idn up).setReg R.SEC_ID_ADDR 1315).Permits 16 R.SEC_ID_DATA false PageKind.secBoot 0) ∧
      (((idn up).setReg R.SEC_ID_ADDR 1315).flash.ident = some 40) ∧
      (((idn up).setReg R.SEC_ID_ADDR 1315).fld R.SEC_ID_ADDR F.SEC_ID_ADDR_WORD < 1316)) := by
  unfold State.Permits; decide +kernel

theorem wit_KeysRotateAndModesClear_1 :
    -- clause 1
    ((k0.Admits 16 R.SEC_ROT_CMD PageKind.secKey 0)) ∧
    -- clause 2
    (((keyS 2 1 up).Admits 16 R.SEC_ROT_CMD PageKind.secKey 0)) ∧
    -- clause 3
    (((keyS 4 1 up).Admits 16 R.SEC_ROT_CMD PageKind.secKey 0)) ∧
    -- clause 4
    ((up.sec.walkPage = none)) ∧
    -- clause 5
    ((kr.sec.walkPage = some 5) ∧
      (kr.fld R.SEC_ROT_STATUS F.SEC_ROT_STATUS_TENANT = 15) ∧
      ((kr.page 5).owner = some 15) ∧
      ((kr.page 5).epoch ≠ kr.curEpoch 15)) ∧
    -- clause 6
    ((krl.sec.walkPage = some 5) ∧
      (krl.fld R.SEC_ROT_STATUS F.SEC_ROT_STATUS_TENANT = 15) ∧
      ((krl.page 5).owner = some 15) ∧
      ((krl.page 5).epoch ≠ krl.curEpoch 15)) ∧
    -- clause 7
    (((keyS 3 1 up).keyState 15 = keyRetiring) ∧
      (∀ (a : TierAcc), a ∈ (keyS 3 1 up).mt.accs → a.owner ≠ 15)) ∧
    -- clause 8
    ((up.keyState 15 ≠ keyRetiring ∨ ∃ a, a ∈ up.mt.accs ∧ a.owner = 15)) ∧
    -- clause 9
    ((up.Admits 16 R.SEC_CONF_CMD PageKind.secConf 0)) := by
  unfold State.Admits State.Permits; decide +kernel

theorem wit_LaneFlitAndMemoryTestsRun_1 :
    -- clause 1
    (((lane false up).checking 5 1 = true) ∧
      ((lane false up).laneLocked 5 1 = false)) ∧
    -- clause 2
    ((up.checking 5 1 = false)) ∧
    -- clause 3
    (((lane true up).checking 5 1 = true) ∧
      ((lane true up).laneLocked 5 1 = true)) ∧
    -- clause 4
    (((lane true up).Admits 16 (R.TST_LANE_CFG 5 1) PageKind.tstLane 5)) ∧
    -- clause 5
    ((up.flag (R.TST_FLIT_CFG 5) F.TST_FLIT_CFG_GEN = false ∨ up.portUp 5 = false)) ∧
    -- clause 6
    (((actL (some 3)).flag (R.TST_FLIT_CFG 5) F.TST_FLIT_CFG_GEN = true) ∧
      ((actL (some 3)).portUp 5 = true)) ∧
    -- clause 7
    (((memS33 2 3 up).Admits 16 R.TST_MEM_CFG PageKind.tstMem 0)) ∧
    -- clause 8
    (((pgm false (some 3) (memS33 2 3 up)).Admits 16 R.TST_MEM_CFG PageKind.tstMem 0)) ∧
    -- clause 9
    (((pgm true none (memS33 2 3 up)).Admits 16 R.TST_MEM_CFG PageKind.tstMem 0)) ∧
    -- clause 10
    (((setDomState 20 1 0 (memS33 2 3 up)).Admits 16 R.TST_MEM_CFG PageKind.tstMem 0)) ∧
    -- clause 11
    (((tstg (memS33 2 3 up)).Admits 16 R.TST_MEM_CFG PageKind.tstMem 0)) ∧
    -- clause 12
    (((tstg up).mt.testing.isSome = true)) := by
  unfold State.Admits State.Permits; decide +kernel

theorem wit_TestPortDebugPortAndSideband_1 :
    -- clause 1
    (((idv up).flag R.SEC_BOOT F.SEC_BOOT_ID_VALID = true) ∧
      ((idv up).flag R.TST_MODE F.TST_MODE_DEBUG_OPEN = false)) ∧
    -- clause 2
    ((up.flag R.SEC_BOOT F.SEC_BOOT_ID_VALID = false ∨ up.flag R.TST_MODE F.TST_MODE_DEBUG_OPEN = true)) ∧
    -- clause 3
    ((up.booted = true) ∧
      (up.domOn 29 = true) ∧
      (up.tripped = false) ∧
      (up.gate 20 up.pins.sbPtr false ≠ Gate.unmapped)) ∧
    -- clause 4
    (((up.modPins fun q => ({ q with sbPtr := 1048560 } : Pins)).booted = true) ∧
      ((up.modPins fun q => ({ q with sbPtr := 1048560 } : Pins)).domOn 29 = true) ∧
      ((up.modPins fun q => ({ q with sbPtr := 1048560 } : Pins)).tripped = false) ∧
      ((up.modPins fun q => ({ q with sbPtr := 1048560 } : Pins)).gate 20 (up.modPins fun q => ({ q with sbPtr := 1048560 } : Pins)).pins.sbPtr false = Gate.unmapped)) ∧
    -- clause 5
    (((up.modPins fun q => ({ q with sbPtr := 1048560 } : Pins)).gate 20 1048560 true = Gate.unmapped)) ∧
    -- clause 7
    (((asleep up).booted = true) ∧
      ((asleep up).domOn 29 = false) ∧
      ((asleep up).tripped = false)) ∧
    -- clause 8
    (((up.setFld R.CLK_STATUS F.CLK_STATUS_TRIP 1).tripped = true) ∧
      ((up.setFld R.CLK_STATUS F.CLK_STATUS_TRIP 1).pins.sbPtr / 4096 ≠ 2) ∧
      (¬(65536 ≤ (up.setFld R.CLK_STATUS F.CLK_STATUS_TRIP 1).pins.sbPtr ∧ (up.setFld R.CLK_STATUS F.CLK_STATUS_TRIP 1).pins.sbPtr < 131072))) := by
  decide +kernel

theorem wit_CollectivesPostStartLandAndComplete_4 :
    -- clause 1
    ((List.find? (fun c => c.tenant == 0 && c.ctag == 4095 && c.chunk == 3) ((crec true 1).port 5).ins = some (ch true)) ∧
      ((crec true 1).collFor 0 4095 = some ({ run0 with sentTries := [(5, 1)] } : CollRun)) ∧
      ((ch true).whole = true) ∧
      ((ch true).differs ({ run0 with sentTries := [(5, 1)] } : CollRun).desc = []) ∧
      (1 ≤ (ch true).h) ∧
      ((ch true).h ≤ 64) ∧
      (0 + (ch true).h ≤ Coll.need ({ run0 with sentTries := [(5, 1)] } : CollRun).desc ({ run0 with sentTries := [(5, 1)] } : CollRun).members)) ∧
    -- clause 2
    ((List.find? (fun c => c.tenant == 0 && c.ctag == 4095 && c.chunk == 3) ((crec false 2).port 5).ins = some (ch false)) ∧
      ((crec false 2).collFor 0 4095 = some ({ run0 with sentTries := [(5, 2)] } : CollRun)) ∧
      ((ch false).whole = true) ∧
      ((ch false).differs ({ run0 with sentTries := [(5, 2)] } : CollRun).desc = []) ∧
      (1 ≤ (ch false).h) ∧
      ((ch false).h ≤ 64) ∧
      (0 + (ch false).h ≤ Coll.need ({ run0 with sentTries := [(5, 2)] } : CollRun).desc ({ run0 with sentTries := [(5, 2)] } : CollRun).members)) := by
  decide +kernel

theorem wit_TheLogIsStagedFlushedAndErased_3 :
    -- clause 1
    (((nxr (FlashRec.cfg { })).flash.next ≠ FlashRec.none) ∧
      ((nxr (FlashRec.cfg { })).flash.retried = true)) ∧
    -- clause 2
    (((stg 63 (nx (FlashRec.cfg { }))).rel.pfSince = none) ∧
      ((stg 63 (nx (FlashRec.cfg { }))).rel.lost = 0) ∧
      ((stg 63 (nx (FlashRec.cfg { }))).rel.staging.length < 64)) := by
  decide +kernel

theorem wit_DomainsEnterAndLeaveLowPower_3 :
    -- clause 1
    (((stuff (ext 17 0 up)).tripped = false) ∧
      (((stuff (ext 17 0 up)).domState 17, (stuff (ext 17 0 up)).fld (R.PWR_DOM_STATUS 17) F.PWR_DOM_STATUS_PHASE) = (3, 2)) ∧
      (17 < 30) ∧
      (∀ (q : Nat × PageTxn), q ∈ (stuff (ext 17 0 up)).txns → q.snd.pend = []) ∧
      ((stuff (ext 17 0 up)).ctl.jobs = []) ∧
      ((stuff (ext 17 0 up)).brz.gust = none)) ∧
    -- clause 2
    (((stuff (ext 17 1 up)).tripped = false) ∧
      (((stuff (ext 17 1 up)).domState 17, (stuff (ext 17 1 up)).fld (R.PWR_DOM_STATUS 17) F.PWR_DOM_STATUS_PHASE) = (3, 2)) ∧
      (∀ (q : Nat × PageTxn), q ∈ (stuff (ext 17 1 up)).txns → q.snd.pend = []) ∧
      ((stuff (ext 17 1 up)).ctl.jobs = []) ∧
      ((stuff (ext 17 1 up)).brz.gust = none)) := by
  decide +kernel

theorem wit_ResetsBootThePart_1 :
    -- clause 1
    ((bo.idOk = true) ∧
      (flS.flash.ident.isSome = true) ∧
      (bo.rollbackOk = true ∧ bo.pointerOk = true ∧ bo.cfgOk = true ∧ flS.flash.arCfg ≤ flS.flash.cfg.svn ∧ flS.flash.cfg.valid = true ∧ bo.brdOk = true ∧ flS.flash.arBrd ≤ flS.flash.brd.svn)) ∧
    -- clause 2
    ((({ bo with img0Ok := false } : BootOutcome).idOk = true) ∧
      (({ bo with img0Ok := false } : BootOutcome).rollbackOk = true ∧ ({ bo with img0Ok := false } : BootOutcome).pointerOk = true ∧ ({ bo with img0Ok := false } : BootOutcome).cfgOk = true ∧ flS.flash.arCfg ≤ flS.flash.cfg.svn ∧ flS.flash.cfg.valid = true ∧ ({ bo with img0Ok := false } : BootOutcome).brdOk = true ∧ flS.flash.arBrd ≤ flS.flash.brd.svn)) ∧
    -- clause 3
    ((({ bo with rollbackOk := false } : BootOutcome).idOk = true) ∧
      (({ bo with rollbackOk := false } : BootOutcome).rollbackOk = false)) ∧
    -- clause 4
    ((({ bo with pointerOk := false } : BootOutcome).idOk = true) ∧
      (({ bo with pointerOk := false } : BootOutcome).rollbackOk = true) ∧
      (({ bo with pointerOk := false } : BootOutcome).pointerOk = false)) ∧
    -- clause 5
    ((({ bo with cfgOk := false } : BootOutcome).idOk = true) ∧
      (({ bo with cfgOk := false } : BootOutcome).rollbackOk = true) ∧
      (({ bo with cfgOk := false } : BootOutcome).pointerOk = true) ∧
      (({ bo with cfgOk := false } : BootOutcome).cfgOk = false)) ∧
    -- clause 6
    ((({ bo with brdOk := false } : BootOutcome).idOk = true) ∧
      (({ bo with brdOk := false } : BootOutcome).rollbackOk = true) ∧
      (({ bo with brdOk := false } : BootOutcome).pointerOk = true) ∧
      (({ bo with brdOk := false } : BootOutcome).cfgOk = true) ∧
      (flS.flash.arCfg ≤ flS.flash.cfg.svn) ∧
      (flS.flash.cfg.valid = true) ∧
      (({ bo with brdOk := false } : BootOutcome).brdOk = false ∨ flS.flash.brd.svn < flS.flash.arBrd)) ∧
    -- clause 7
    ((({ bo with idOk := false } : BootOutcome).idOk = false ∨ flS.flash.ident = none)) ∧
    -- clause 8
    ((flS.pins.perstLow = true)) ∧
    -- clause 9
    ((flH.pins.perstLow = false)) ∧
    -- clause 10
    ((flS.booted = true) ∧
      (bo.links = [(5, 8)]) ∧
      ((5, 8).snd ≠ 0)) ∧
    -- clause 11
    ((wr1.pins.perstLow = true) ∧
      (wr1.fld R.SEC_BOOT F.SEC_BOOT_STAGE = 1) ∧
      (wr1.fld R.SEC_BOOT F.SEC_BOOT_RESULT = 0) ∧
      (wr1.fld R.SEC_BOOT F.SEC_BOOT_ID_VALID = 1) ∧
      (wr1.fld R.TST_MODE F.TST_MODE_PROD = 0) ∧
      (bo.rollbackOk = true ∧ bo.pointerOk = true ∧ bo.cfgOk = true ∧ wr1.flash.arCfg ≤ wr1.flash.cfg.svn ∧ wr1.flash.cfg.valid = true ∧ bo.brdOk = true ∧ wr1.flash.arBrd ≤ wr1.flash.brd.svn) ∧
      (wr1.flash.slot = 0) ∧
      (bo.img0Ok = true ∧ ∃ x, wr1.flash.img0 = some x ∧ wr1.flash.arFw ≤ x.svn)) ∧
    -- clause 12
    ((4 = 3 ∨ 4 = 4)) ∧
    -- clause 13
    ((10 ≠ 3) ∧
      (10 ≠ 4) ∧
      (flS.rel.pfSince = none) ∧
      (flS.rel.lost = 0) ∧
      (flS.rel.staging.length < 64)) ∧
    -- clause 14
    ((pfS.rel.pfSince.isSome = true)) :=
  ⟨by decide +kernel,
    by decide +kernel,
    by decide +kernel,
    by decide +kernel,
    by decide +kernel,
    by decide +kernel,
    by decide +kernel,
    by decide +kernel,
    by decide +kernel,
    by decide +kernel,
    by decide +kernel,
    by decide +kernel,
    by decide +kernel,
    by decide +kernel⟩

theorem wit_RecordsRollbackAndAttestation_3 :
    -- clause 1
    (((up.setReg R.SEC_REC_LEN 5).Admits 16 R.SEC_REC_CMD PageKind.secRec 0) ∧
      ((up.setReg R.SEC_REC_LEN 5).flash.next = FlashRec.none) ∧
      (0 < (up.setReg R.SEC_REC_LEN 5).fld R.SEC_REC_LEN F.SEC_REC_LEN_BYTES)) ∧
    -- clause 2
    ((({ up with flash := ({ up.flash with ident := none } : Flash) } : State).flash.ident = none)) := by
  unfold State.Admits State.Permits; decide +kernel

theorem wit_KeysRotateAndModesClear_2 :
    -- clause 1
    (((confSet 15 up).Admits 16 R.SEC_CONF_CMD PageKind.secConf 0)) := by
  unfold State.Admits State.Permits; decide +kernel

theorem wit_TestPortDebugPortAndSideband_2 :
    -- clause 1
    (((up.setReg R.BRZ_MUTE 2).flag R.BRZ_MUTE F.BRZ_MUTE_PIN = true) ∧
      (3 < 4)) ∧
    -- clause 2
    ((Instr.setdasa 127 = Instr.setdasa 127 ∨ Instr.setdasa 127 = Instr.entdaa 127) ∧
      (up.pins.sbAddr = none)) := by
  decide +kernel

end Sys2Proof.Tests
end

section
/-! PROOFS. Register writes that the bus refuses, stores or keeps for a transaction (R5, R7, R46, R47, R51): what a refused
write does, what the access table words of a page take, and the word that a read-write register is left with. -/

namespace Sys2Proof.Machine

theorem exec_regWrite (iid : Fin 24) (a : Nat) (be : BitVec 4) (v : Word) (s : State) :
    exec (.regWrite iid a be v) s = .next (busWrite iid a (byteMask be) v s) := rfl

theorem exec_regRead (iid : Fin 24) (a : Nat) (s : State) : exec (.regRead iid a) s = .next (busRead iid a s) := rfl

theorem byteMask_all : byteMask 15 = 0xFFFFFFFF#32 := by decide

/-! ### Refused writes (R47) -/

theorem busWriteWith_denied (q : WriteOutcome) (iid a : Nat) (bm v : Word) (s : State) (hb : s.booted = true)
    (h29 : s.domOn 29 = true) (hg : s.gate iid a true = .denied) :
    busWriteWith q iid a bm v s = raiseErr (a - a % 4096) Err.accDeny iid (a % 4096) s := by
  unfold busWriteWith
  rw [withGate_open _ _ _ _ _ hb h29, hg]
  rfl

/-! ### The access table (R45, R46) -/

/-- The access table is written by its own writers alone, whatever rights it grants (R46). -/
theorem mayWrite_accTbl (s : State) (k : PageKind) (base o iid : Nat) (h : 0x80 ≤ o ∧ o < 0x90) :
    s.mayWrite k base o iid = privileged iid := if_pos h

theorem assigned_accTbl (k : PageKind) (o : Nat) (h : 0x80 ≤ o ∧ o < 0x90) : assigned k o = true := by
  have h1 : o ≠ 0x1C := by omega
  have h2 : o ≠ 0x3C := by omega
  have h3 : o < 0x100 := by omega
  simp [assigned, h1, h2, h3, h.2]

theorem gate_write_accTbl (s : State) (iid a : Nat) (r : PageRow) (i : Nat) (hp : pageAt (a / 4096) = some (r, i))
    (h : 0x80 ≤ a % 4096 ∧ a % 4096 < 0x90) :
    s.gate iid a true = if privileged iid then .ok r.kind i else .denied := by
  unfold State.gate
  rw [hp]
  simp only [if_true, mayWrite_accTbl s r.kind _ _ iid h, assigned_accTbl r.kind _ h]

theorem confRefuses_privileged (s : State) (iid : Nat) (k : PageKind) (i o : Nat) (w : Bool) (h : privileged iid = true) :
    s.confRefuses iid k i o w = false := if_pos h

/-- A write of ACC_TBL by an initiator that R46 does not name is refused (R47). -/
theorem busWrite_accTbl_denied (iid a : Nat) (bm v : Word) (s : State) (hp : (pageAt (a / 4096)).isSome = true)
    (hb : s.booted = true) (h29 : s.domOn 29 = true) (h : 0x80 ≤ a % 4096 ∧ a % 4096 < 0x90)
    (hi : privileged iid = false) :
    busWrite iid a bm v s = raiseErr (a - a % 4096) Err.accDeny iid (a % 4096) s := by
  obtain ⟨⟨r, i⟩, hri⟩ := Option.isSome_iff_exists.mp hp
  have hg : s.gate iid a true = .denied := by simp [gate_write_accTbl s iid a r i hri h, hi]
  unfold busWrite
  rw [needsOutcome_header a (by omega)]
  exact busWriteWith_denied _ iid a bm v s hb h29 hg

/-- A write of ACC_TBL[0] to ACC_TBL[2] by one of its writers is a write of an RWT word (R7, R46). -/
theorem busWrite_accTbl_privileged (iid a : Nat) (bm v : Word) (s : State) (hp : (pageAt (a / 4096)).isSome = true)
    (hb : s.booted = true) (h29 : s.domOn 29 = true) (h : 0x80 ≤ a % 4096 ∧ a % 4096 < 0x8C)
    (hi : privileged iid = true) : busWrite iid a bm v s = rwtWrite iid a bm v s := by
  obtain ⟨⟨r, i⟩, hri⟩ := Option.isSome_iff_exists.mp hp
  have hg : s.gate iid a true = .ok r.kind i := by simp [gate_write_accTbl s iid a r i hri (by omega), hi]
  have hbase : (a - a % 4096) / 4096 = a / 4096 := by omega
  have haddr : a - a % 4096 + a % 4096 = a := by omega
  rw [busWrite_header iid a bm v s r.kind i ⟨hb, h29, hg, confRefuses_privileged s iid _ _ _ _ hi⟩ (by omega)]
  simp only [headerWrite, hbase, hri, haddr, Hdr.txnCtrl, Hdr.txnTag, Hdr.errStat, Hdr.errEn, Hdr.errInj, Hdr.dtimeLo,
    Hdr.dtimeHi]
  repeat rw [if_neg (by omega)]
  exact if_pos h

/-! ### RWT words (R7, R51) -/

section
variable (iid a : Nat) (m v : Word) (s : State)

theorem rwtWrite_closed (h : (s.txn (a / 4096)).openTxn = none) :
    rwtWrite iid a m v s = raiseErr (a - a % 4096) Err.txnReq iid (a % 4096) s := by
  simp only [rwtWrite, h]

theorem rwtWrite_other (x : Txn) (h : (s.txn (a / 4096)).openTxn = some x) (hx : x.owner ≠ iid) :
    rwtWrite iid a m v s = raiseErr (a - a % 4096) Err.txnOwner iid (a % 4096) s := by
  simp only [rwtWrite, h, if_neg hx]

theorem rwtWrite_owner (x : Txn) (h : (s.txn (a / 4096)).openTxn = some x) (hx : x.owner = iid) :
    rwtWrite iid a m v s = s.setTxn (a / 4096) { s.txn (a / 4096) with
      openTxn := some { x with shadow := x.shadow ++ [⟨a, m, v &&& m⟩] } } := by
  simp only [rwtWrite, h, if_pos hx]

end

/-! ### MT_PG_SEL (R236) -/

theorem extraOk_mtPgSel (f : FldDef) (n : Nat) : extraOk R.MT_PG_SEL f n = true := by
  have h1 : R.MT_PG_SEL / 4096 ≠ Pg.brz1 / 4096 := by decide
  have h2 : ¬ 0x510 ≤ R.MT_PG_SEL / 4096 := by decide
  have h3 : ¬ 0x590 ≤ R.MT_PG_SEL / 4096 := by decide
  simp only [extraOk, h1, h2, h3, false_and, if_false]

/-- A permitted write of MT_PG_SEL merges its PAGE field and has no further effect (R5, R236). -/
theorem wordWrite_mtPgSel (iid : Nat) (v : Word) (s : State) (h : s.Admits iid R.MT_PG_SEL .mt2 0) :
    wordWrite iid R.MT_PG_SEL v s = s.setReg R.MT_PG_SEL (mergeWord (s.reg R.MT_PG_SEL) (maskOf 16 0) v) := by
  have hf : findReg (R.MT_PG_SEL % 4096) (regsOf .mt2) = some (⟨0x100, 1, 0x0, 1, 0x0, .any, [⟨16, 0, .rw, 0, 0, []⟩]⟩, 0, 0) := by
    decide
  have hstore := fieldWrite_store iid R.MT_PG_SEL v ⟨16, 0, .rw, 0, 0, []⟩ s (.inl rfl) (by decide) (by decide) rfl
    (extraOk_mtPgSel _ _)
  rw [wordWrite_block iid R.MT_PG_SEL v s .mt2 0 _ 0 0 h (by decide) (by decide) hf (by decide) rfl]
  simp only [fieldsWrite, hstore]
  exact attributeErr_quiet _ _ _ _ rfl

/-- A permitted read of MT_PG_SEL returns its word (R47, R236). -/
theorem busRead_mtPgSel (iid : Nat) (s : State) (h : s.Permits iid R.MT_PG_SEL false .mt2 0) (h29 : s.domOn 29 = true) :
    busRead iid R.MT_PG_SEL s = s.answers (s.reg R.MT_PG_SEL) := by
  rw [busRead_block iid R.MT_PG_SEL s .mt2 0 h h29 (by decide)]
  exact attributeErr_quiet _ _ _ _ rfl

theorem exec_write_mtPgSel (s : State) (iid : Fin 24) (v : Word) (h : s.Admits iid R.MT_PG_SEL .mt2 0) :
    ∃ w, exec (.regWrite iid R.MT_PG_SEL 15 v) s = .next (s.setReg R.MT_PG_SEL w)
      ∧ wordFld w F.MT_PG_SEL_PAGE = wordFld v F.MT_PG_SEL_PAGE
      ∧ ∀ g : Fld, F.MT_PG_SEL_PAGE.hi < g.lo → wordFld w g = wordFld (s.reg R.MT_PG_SEL) g := by
  refine ⟨mergeWord (s.reg R.MT_PG_SEL) (maskOf 16 0) v, ?_, ?_, fun g hg => ?_⟩
  · rw [exec_regWrite, byteMask_all]
    exact congrArg Host.Outcome.next (wordWrite_mtPgSel iid v s h)
  · refine wordFld_mergeWord_in _ _ _ _ fun j _ hj => ?_
    have hj : j ≤ 16 := hj
    simp [maskOf_getLsbD, hj]
  · refine wordFld_mergeWord_out _ _ _ _ fun j hj _ => ?_
    have hg : 16 < g.lo := hg
    have hj : ¬ j ≤ 16 := by omega
    simp [maskOf_getLsbD, hj]

/-- Settles O3: MT_PG_SEL by what its one field does, ACC_TBL by its gate and the three cases of an RWT write. -/
theorem registerAndAccessTableWrites : Obligations.RegisterAndAccessTableWrites := by
  unfold Obligations.RegisterAndAccessTableWrites
  refine ⟨fun s iid v => ⟨exec_write_mtPgSel s iid v, fun h h29 => ?_⟩, ?_⟩
  · rw [exec_regRead, busRead_mtPgSel iid s h h29]
  · intro s iid p j be v hp hb h29 a
    have hdiv : a / 4096 = p := by omega
    have hmod : a % 4096 = 0x80 + 4 * j.val := by omega
    have hbase : a - a % 4096 = 4096 * p := by omega
    have hoff : 0x80 ≤ a % 4096 ∧ a % 4096 < 0x8C := by omega
    have hpage : (pageAt (a / 4096)).isSome = true := by rw [hdiv]; exact hp
    have hpriv := busWrite_accTbl_privileged iid a (byteMask be) v s hpage hb h29 hoff
    rw [exec_regWrite, ← hmod, ← hbase, ← hdiv]
    refine ⟨fun hi => ?_, fun hi ht => ?_, fun x hi ht hx => ?_, fun x hi ht hx => ?_⟩
    · rw [busWrite_accTbl_denied iid a (byteMask be) v s hpage hb h29 (by omega) hi]
    · rw [hpriv hi, rwtWrite_closed _ _ _ _ _ ht]
    · rw [hpriv hi, rwtWrite_other _ _ _ _ _ x ht hx]
    · rw [hpriv hi, rwtWrite_owner _ _ _ _ _ x ht hx]

end Sys2Proof.Machine
end

section
/-! PROOFS. What an error event, a log entry and a service request leave in registers and counters (R42, R43, R415, R418),
and what a permitted command write does beyond its register table. -/

namespace Sys2Proof.Machine

/-! ### Bits and fields of words -/

theorem bitOf_eq_testBit (w k : Nat) : bitOf w k = w.testBit k := by
  rw [bitOf, Nat.testBit_eq_decide_div_mod_eq, beq_eq_decide]

theorem bitOf_toNat (w : Word) (k : Nat) : bitOf w.toNat k = w.getLsbD k := bitOf_eq_testBit _ _

theorem getLsbD_bit32 (k j : Nat) (h : k < 32) : (bit32 k).getLsbD j = decide (j = k) := by
  rw [bit32, BitVec.getLsbD_ofNat, Nat.testBit_two_pow]
  by_cases hj : j = k
  · simp [hj, h]
  · simp [hj, Ne.symm hj]

theorem wordFld_one_bit (w : Word) (k : Nat) : wordFld w ⟨k, k⟩ = (w.getLsbD k).toNat := by
  rw [← bitOf_toNat]
  have h : k + 1 - k = 1 := by omega
  have := Nat.mod_two_eq_zero_or_one (w.toNat / 2 ^ k)
  simp only [wordFld, bitsOf, bitOf, h, Nat.pow_one]
  rcases this with e | e <;> simp [e]

/-- A one-bit field that is set to 1 is bit `k` of the word. -/
theorem getLsbD_wordSet_one (w : Word) (k : Nat) (h : k < 32) : (wordSet w ⟨k, k⟩ 1).getLsbD k = true := by
  have h1 := wordFld_wordSet w ⟨k, k⟩ 1 h
  rw [wordFld_one_bit] at h1
  have h2 : k + 1 - k = 1 := by omega
  simpa [h2] using h1

/-! ### Error events (R42, R43) -/

section
variable (base bit iid off : Nat) (s : State)

theorem raiseErr_reg_ne (a : Nat) (h1 : a ≠ base + Hdr.errStat) (h2 : a ≠ base + Hdr.errFirst) :
    (raiseErr base bit iid off s).reg a = s.reg a := by
  unfold raiseErr
  dsimp only
  split
  · rfl
  · split <;> split <;> simp [errIrq_reg, State.reg_setReg, h1, h2]

/-- An error event sets its bit of ERR_STAT. -/
theorem raiseErr_sets (h : bit < 32) : bitOf ((raiseErr base bit iid off s).reg (base + Hdr.errStat)).toNat bit = true := by
  have hne : base + Hdr.errStat ≠ base + Hdr.errFirst := by simp [Hdr.errStat, Hdr.errFirst]
  have hset : (s.reg (base + Hdr.errStat) ||| bit32 bit).getLsbD bit = true := by simp [getLsbD_bit32 _ _ h]
  unfold raiseErr
  dsimp only
  split
  · assumption
  · rw [bitOf_toNat]
    split <;> split <;> simp only [errIrq_reg, State.reg_setReg_ne _ _ _ _ hne, State.reg_setReg_same, hset]

theorem errEvent_reg_ne (a : Nat) (h1 : a ≠ base + Hdr.errStat) (h2 : a ≠ base + Hdr.errFirst) :
    (errEvent base bit s).reg a = s.reg a := raiseErr_reg_ne base bit _ _ s a h1 h2

theorem errEvent_fld_ne (a : Nat) (f : Fld) (h1 : a ≠ base + Hdr.errStat) (h2 : a ≠ base + Hdr.errFirst) :
    (errEvent base bit s).fld a f = s.fld a f := by
  rw [State.fld, errEvent_reg_ne base bit s a h1 h2, State.fld]

theorem errEvent_sets (h : bit < 32) : bitOf ((errEvent base bit s).reg (base + Hdr.errStat)).toNat bit = true :=
  raiseErr_sets base bit _ _ s h

/-- A bit of ERR_STAT that is set stays set through another event of its page. -/
theorem errEvent_keeps (k : Nat) (h : bitOf (s.reg (base + Hdr.errStat)).toNat k = true) :
    bitOf ((errEvent base bit s).reg (base + Hdr.errStat)).toNat k = true := by
  have hne : base + Hdr.errStat ≠ base + Hdr.errFirst := by simp [Hdr.errStat, Hdr.errFirst]
  rw [bitOf_toNat] at h
  unfold errEvent raiseErr
  dsimp only
  split
  · rw [bitOf_toNat, h]
  · rw [bitOf_toNat]
    split <;> split <;>
      simp only [errIrq_reg, State.reg_setReg_ne _ _ _ _ hne, State.reg_setReg_same, BitVec.getLsbD_or, h, Bool.true_or]

@[simp] theorem errEvent_counter (k : Nat) : (errEvent base bit s).counter k = s.counter k := by
  rw [errEvent_frame]; rfl

@[simp] theorem errEvent_brz : (errEvent base bit s).brz = s.brz := by rw [errEvent_frame]
@[simp] theorem errEvent_fabInj : (errEvent base bit s).fabInj = s.fabInj := by rw [errEvent_frame]
@[simp] theorem errEvent_rowPoison : (errEvent base bit s).rowPoison = s.rowPoison := by rw [errEvent_frame]
@[simp] theorem errEvent_dom (d : Nat) : (errEvent base bit s).dom d = s.dom d := by rw [errEvent_frame]; rfl

@[simp] theorem errIf_counter (c : Bool) (k : Nat) : (errIf c base bit s).counter k = s.counter k := by
  rw [errIf_frame]; rfl
@[simp] theorem errIf_brz (c : Bool) : (errIf c base bit s).brz = s.brz := by rw [errIf_frame]
@[simp] theorem errIf_spad (c : Bool) : (errIf c base bit s).spad = s.spad := by rw [errIf_frame]
@[simp] theorem errIf_da (c : Bool) : (errIf c base bit s).da = s.da := by rw [errIf_frame]

end

/-! ### The error log and service requests (R415, R418): registers and counters outside their own pages -/

/-- Nothing outside the header and block registers of the page at `base`, and outside its counters, differs. -/
def OnPage (base : Nat) (s t : State) : Prop :=
  (∀ a, a / 4096 ≠ base / 4096 → t.reg a = s.reg a) ∧ ∀ k, k / 4096 ≠ base / 4096 → t.counter k = s.counter k

theorem OnPage.refl (base : Nat) (s : State) : OnPage base s s := ⟨fun _ _ => rfl, fun _ _ => rfl⟩

theorem OnPage.trans {base : Nat} {s t u : State} (h : OnPage base s t) (k : OnPage base t u) : OnPage base s u :=
  ⟨fun a ha => (k.1 a ha).trans (h.1 a ha), fun a ha => (k.2 a ha).trans (h.2 a ha)⟩

theorem OnPage.setReg (s : State) (base a : Nat) (w : Word) (h : a / 4096 = base / 4096) : OnPage base s (s.setReg a w) :=
  ⟨fun b hb => State.reg_setReg_ne s a w b fun e => hb (e ▸ h), fun _ _ => rfl⟩

theorem OnPage.count (s : State) (base b i k : Nat) (h : cntKey b i / 4096 = base / 4096) : OnPage base s (s.count b i k) :=
  ⟨fun _ _ => rfl, fun c hc => State.counter_count_ne s b i k c fun e => hc (e ▸ h)⟩

theorem OnPage.errEvent (s : State) (base bit : Nat) (h : base % 4096 = 0) : OnPage base s (errEvent base bit s) :=
  ⟨fun a ha => errEvent_reg_ne base bit s a (by simp only [Hdr.errStat]; omega) (by simp only [Hdr.errFirst]; omega),
    fun _ _ => errEvent_counter base bit s _⟩

theorem OnPage.rel {base : Nat} {s t : State} (h : OnPage base s t) (r : Rel) : OnPage base s { t with rel := r } := h

theorem onPage_stageEntry (e : LogEntry) (s : State) : OnPage Pg.rel2 s (stageEntry e s) :=
  (((OnPage.setReg s Pg.rel2 R.REL_LOG_SEQ _ (by decide)).trans (OnPage.count _ Pg.rel2 Pg.rel2 0 1 (by decide))).rel _)

theorem onPage_startFlush (s : State) : OnPage Pg.rel2 s (startFlush s) := by
  unfold startFlush
  split
  · exact (OnPage.refl _ s).rel _
  · exact ((OnPage.refl _ s).rel _).trans (OnPage.setReg _ Pg.rel2 R.REL_LOG_STATUS _ (by decide))

/-- Logging an entry touches the registers and counters of REL page 2 alone (R418). -/
theorem onPage_logEntry (e : LogEntry) (s : State) : OnPage Pg.rel2 s (logEntry e s) := by
  unfold logEntry
  dsimp only
  split
  · exact (((OnPage.setReg s Pg.rel2 R.REL_LOG_STATUS _ (by decide)).trans
      (OnPage.count _ Pg.rel2 Pg.rel2 2 1 (by decide))).trans (OnPage.errEvent _ Pg.rel2 _ (by decide))).rel _
  · have h1 : OnPage Pg.rel2 s (if s.rel.lost = 0 then s
        else { stageEntry { cls := LogCls.logDrop, arg0 := s.rel.lost } s with
                rel := { (stageEntry { cls := LogCls.logDrop, arg0 := s.rel.lost } s).rel with lost := 0 } }) := by
      split
      · exact OnPage.refl _ s
      · exact (onPage_stageEntry _ s).rel _
    generalize (if s.rel.lost = 0 then s
        else { stageEntry { cls := LogCls.logDrop, arg0 := s.rel.lost } s with
                rel := { (stageEntry { cls := LogCls.logDrop, arg0 := s.rel.lost } s).rel with lost := 0 } }) = u at *
    have h2 : OnPage Pg.rel2 u (if u.rel.staging.length ≥ stagingSize then { u with rel := { u.rel with lost := 1 } }
        else stageEntry e u) := by
      split
      · exact (OnPage.refl _ u).rel _
      · exact onPage_stageEntry _ u
    generalize (if u.rel.staging.length ≥ stagingSize then { u with rel := { u.rel with lost := 1 } }
        else stageEntry e u) = v at *
    split
    · exact (h1.trans h2).trans (onPage_startFlush v)
    · exact h1.trans h2

theorem logEntry_reg (e : LogEntry) (s : State) (a : Nat) (h : a / 4096 ≠ Pg.rel2 / 4096) :
    (logEntry e s).reg a = s.reg a := (onPage_logEntry e s).1 a h

theorem logEntry_fld (e : LogEntry) (s : State) (a : Nat) (f : Fld) (h : a / 4096 ≠ Pg.rel2 / 4096) :
    (logEntry e s).fld a f = s.fld a f := by rw [State.fld, logEntry_reg e s a h, State.fld]

theorem logEntry_counter (e : LogEntry) (s : State) (k : Nat) (h : k / 4096 ≠ Pg.rel2 / 4096) :
    (logEntry e s).counter k = s.counter k := (onPage_logEntry e s).2 k h

theorem logEntry_brz (e : LogEntry) (s : State) : (logEntry e s).brz = s.brz := by
  have h := logEntry_frame e s
  generalize logEntry e s = t at h ⊢
  rw [h]

theorem sendIbi_reg (k : Nat) (s : State) (a : Nat) : (sendIbi k s).reg a = s.reg a := by
  unfold sendIbi; split <;> rfl

/-- The sideband's interrupt for a service request, sent while SVC_REQ_N is high (R504). -/
def svcIbi (s : State) : State := if s.flag R.REL_SVC F.REL_SVC_ASSERTED then s else sendIbi 1 s

theorem svcIbi_reg (s : State) (a : Nat) : (svcIbi s).reg a = s.reg a := by
  unfold svcIbi
  split
  · rfl
  · exact sendIbi_reg 1 s a

/-- A service request sets its reason bit and ASSERTED of REL_SVC (R415, R428). -/
theorem svcEvent_svc (bit : Nat) (s : State) :
    (svcEvent bit s).reg R.REL_SVC = s.reg R.REL_SVC ||| bit32 bit ||| bit32 31 := by
  show (logEntry _ _).reg R.REL_SVC = _
  rw [logEntry_reg _ _ _ (by decide), State.count_reg, errEvent_reg_ne _ _ _ _ (by decide) (by decide), State.reg_setReg_same]
  show (svcIbi s).reg _ ||| _ ||| _ = _
  rw [svcIbi_reg]

/-- A service request touches registers of REL pages 0 and 2 alone. -/
theorem svcEvent_reg (bit : Nat) (s : State) (a : Nat) (h0 : a / 4096 ≠ Pg.rel0 / 4096) (h2 : a / 4096 ≠ Pg.rel2 / 4096) :
    (svcEvent bit s).reg a = s.reg a := by
  have he := OnPage.errEvent ((svcIbi s).setReg R.REL_SVC ((svcIbi s).reg R.REL_SVC ||| bit32 bit ||| bit32 31)) Pg.rel0
    E.rel0_SVC (by decide)
  show (logEntry _ _).reg a = _
  rw [logEntry_reg _ _ a h2, State.count_reg]
  exact (he.1 a h0).trans (((OnPage.setReg _ Pg.rel0 _ _ (by decide)).1 a h0).trans (svcIbi_reg s a))

/-- Logging a partner's violation touches counters and registers of REL pages 2 and 3 alone (R417). -/
theorem logPartner_reg (base bit kind unit : Nat) (s : State) (a : Nat) (h : a / 4096 ≠ Pg.rel2 / 4096) :
    (logPartner base bit kind unit s).reg a = s.reg a := by
  unfold logPartner
  dsimp only
  split
  · rfl
  · exact logEntry_reg _ s a h

theorem logPartner_counter (base bit kind unit : Nat) (s : State) (k : Nat) (h2 : k / 4096 ≠ Pg.rel2 / 4096)
    (h3 : k / 4096 ≠ Pg.rel3 / 4096) : (logPartner base bit kind unit s).counter k = s.counter k := by
  unfold logPartner
  dsimp only
  split
  · exact (OnPage.count _ Pg.rel3 Pg.rel3 5 1 (by decide)).2 k h3
  · exact ((OnPage.count _ Pg.rel3 Pg.rel3 4 1 (by decide)).2 k h3).trans (logEntry_counter _ s k h2)

theorem logPartner_brz (base bit kind unit : Nat) (s : State) : (logPartner base bit kind unit s).brz = s.brz := by
  unfold logPartner
  dsimp only
  split
  · rfl
  · exact logEntry_brz _ s

/-! ### Command writes -/

/-- No listed-value rule beyond its field's own speaks of a register outside the pages of R266, R283 and R321. -/
theorem extraOk_plain (a : Nat) (f : FldDef) (v : Nat) (h1 : a / 4096 ≠ Pg.brz1 / 4096)
    (h2 : a / 4096 < 0x510 ∨ 0x5B0 ≤ a / 4096) :
    extraOk a f v = true := by
  unfold extraOk
  rw [if_neg (fun h => h1 h.1), if_neg (by omega), if_neg (by omega)]

theorem plainFields_of (a : Nat) (flds : List FldDef) (h : flds.all (fun f => decide (f.hi < 32)) = true)
    (h1 : a / 4096 ≠ Pg.brz1 / 4096) (h2 : a / 4096 < 0x510 ∨ 0x5B0 ≤ a / 4096) : PlainFields a flds :=
  fun f hf => ⟨of_decide_eq_true (List.all_eq_true.mp h f hf), fun n => extraOk_plain a f n h1 h2⟩

end Sys2Proof.Machine
end

section
/-! PROOFS. The fabric links and the die-to-die link (R29 to R32, R403, R410, R415, R480, R497): walking tests, resends of a
data beat, retraining and lane repair. -/

namespace Sys2Proof.Machine

/-! ### Walking tests (R31, R497) -/

/-- A link number that a command word carries beside its go bit is one of the listed encodings (R6). -/
theorem linkFld_ok (val : Word) (f : Fld) (hf : f.hi < 32) (h4 : 4 < f.lo) (h : wordFld val ⟨4, 0⟩ < 31) :
    FldDef.ok ⟨4, 0, .wo, 0, 0, [(0, 30)]⟩ (bitsOf (wordSet val f 1 &&& 0xFFFFFFFF#32).toNat 4 0) = true := by
  have hk : bitsOf (wordSet val f 1).toNat 4 0 = wordFld val ⟨4, 0⟩ := wordFld_wordSet_ne val f ⟨4, 0⟩ 1 hf (.inl h4)
  have hle : wordFld val ⟨4, 0⟩ ≤ 30 := by omega
  simp [and_full, hk, FldDef.ok, hle]

/-- A command word whose first field is listed, and whose other fields list no encodings, is taken (R6). -/
theorem commandOk_of_link (v : Word) (f : FldDef) (fs : List FldDef)
    (h : f.ok (bitsOf (v &&& 0xFFFFFFFF#32).toNat f.hi f.lo) = true) (hfs : fs.all (fun g => g.legal.isEmpty) = true) :
    commandOk (f :: fs) 0xFFFFFFFF#32 v = true := by
  refine List.all_eq_true.mpr fun g hg => ?_
  rcases List.mem_cons.mp hg with rfl | hg
  · simp only [h, Bool.or_true]
  · simp [FldDef.ok, List.all_eq_true.mp hfs g hg]

/-- A permitted write of FAB_WALK is the start of a walking test (R31). -/
theorem wordWrite_fabWalk (iid : Nat) (val : Word) (s : State) (h : s.Admits iid R.FAB_WALK .fab0 0)
    (hk : wordFld val F.FAB_WALK_LINK < 31) :
    wordWrite iid R.FAB_WALK (wordSet val F.FAB_WALK_GO 1) s
      = attributeErr iid R.FAB_WALK s (walkGo (wordSet val F.FAB_WALK_GO 1) s) := by
  have hf : findReg (R.FAB_WALK % 4096) (regsOf .fab0)
      = some (⟨0x100, 1, 0x0, 1, 0x0, .any, [⟨4, 0, .wo, 0, 0, [(0, 30)]⟩, ⟨5, 5, .wo, 0, 0, []⟩]⟩, 0, 0) := by decide
  rw [busWrite_command iid R.FAB_WALK _ s .fab0 0 _ 0 0 h (by decide) (by decide) hf (by decide)
    (plainFields_of _ _ (by decide) (by decide) (by decide)) (by decide)
    (commandOk_of_link _ _ _ (linkFld_ok val F.FAB_WALK_GO (by decide) (by decide) hk) (by decide))]
  rfl

/-- FAB_WALK.GO starts a test on a link that is ready for it, and is refused otherwise (R31). -/
theorem walkGo_go (val : Word) (s : State) (hk : wordFld val F.FAB_WALK_LINK < 31) :
    walkGo (wordSet val F.FAB_WALK_GO 1) s =
      let k := wordFld val F.FAB_WALK_LINK
      if s.linkOn k && s.linkIdle k && s.fld R.FAB_WALK_STATUS F.FAB_WALK_STATUS_STATE != 1 then
        (s.setReg R.FAB_WALK_STATUS (BitVec.ofNat 32 (1 + 4 * k))).count Pg.fab0 4 1
      else errEvent Pg.fab0 E.fab0_WALK_REFUSED s := by
  have hgo : (wordSet val F.FAB_WALK_GO 1).getLsbD 5 = true := getLsbD_wordSet_one val 5 (by decide)
  have hlink : wordFld (wordSet val F.FAB_WALK_GO 1) F.FAB_WALK_LINK = wordFld val F.FAB_WALK_LINK :=
    wordFld_wordSet_ne _ _ _ _ (by decide) (by decide)
  unfold walkGo
  simp only [hgo, hlink, Bool.not_true, Bool.false_eq_true, if_false]
  generalize wordFld val F.FAB_WALK_LINK = k at hk ⊢
  have h31 : k ≠ 31 := by omega
  cases hon : s.linkOn k <;> cases hidle : s.linkIdle k <;> simp [h31, ite_not]

theorem exec_fabWalkGo (s : State) (iid : Fin 24) (val : Word) (h : s.Admits iid R.FAB_WALK .fab0 0)
    (hk : wordFld val F.FAB_WALK_LINK < 31) :
    exec (.fabWalkGo iid val) s = .next (
      let k := wordFld val F.FAB_WALK_LINK
      if s.linkOn k && s.linkIdle k && s.fld R.FAB_WALK_STATUS F.FAB_WALK_STATUS_STATE != 1 then
        (s.setReg R.FAB_WALK_STATUS (BitVec.ofNat 32 (1 + 4 * k))).count Pg.fab0 4 1
      else raiseErr Pg.fab0 E.fab0_WALK_REFUSED iid 0x100 s) := by
  show Host.Outcome.next _ = _
  rw [wordWrite_fabWalk iid val s h hk, walkGo_go val s hk]
  dsimp only
  split
  · exact congrArg _ (attributeErr_quiet _ _ _ _ (State.reg_setReg_ne _ _ _ _ (by decide)))
  · exact congrArg _ (attributeErr_errEvent iid R.FAB_WALK E.fab0_WALK_REFUSED s (by decide) (by omega))

theorem exec_walkTestDone (s : State) (link : Nat) (h1 : s.fld R.FAB_WALK_STATUS F.FAB_WALK_STATUS_STATE = 1)
    (hl : s.fld R.FAB_WALK_STATUS F.FAB_WALK_STATUS_LINK = link) :
    exec (.walkTestDone true) s = .next
        ((s.setFld R.FAB_WALK_STATUS F.FAB_WALK_STATUS_STATE 2).setFld (R.FAB_LINK_STAT link) F.FAB_LINK_STAT_WALK_FAIL 0)
      ∧ exec (.walkTestDone false) s = .next (errEvent Pg.fab0 E.fab0_WALK_FAIL
        (((s.setFld R.FAB_WALK_STATUS F.FAB_WALK_STATUS_STATE 3).setFld (R.FAB_LINK_STAT link)
          F.FAB_LINK_STAT_WALK_FAIL 1).count Pg.fab0 5 1)) := by
  have done (pass : Bool) : exec (.walkTestDone pass) s = .next (walkDone pass s) := rfl
  subst hl
  exact ⟨by simp [done, walkDone, h1], by simp [done, walkDone, h1]⟩

/-! ### Injections (R31) -/

theorem wordWrite_fabCrcInj (iid : Nat) (val : Word) (s : State) (h : s.Admits iid R.FAB_CRC_INJ .fab0 0)
    (hk : wordFld val F.FAB_CRC_INJ_LINK < 31) :
    wordWrite iid R.FAB_CRC_INJ (wordSet val F.FAB_CRC_INJ_FIRE 1) s
      = attributeErr iid R.FAB_CRC_INJ s (crcInj (wordSet val F.FAB_CRC_INJ_FIRE 1) s) := by
  have hf : findReg (R.FAB_CRC_INJ % 4096) (regsOf .fab0) = some (⟨0x108, 1, 0x0, 1, 0x0, .debug,
      [⟨4, 0, .wo, 0, 0, [(0, 30)]⟩, ⟨5, 5, .wo, 0, 0, []⟩, ⟨6, 6, .wo, 0, 0, []⟩]⟩, 0, 0) := by decide
  rw [busWrite_command iid R.FAB_CRC_INJ _ s .fab0 0 _ 0 0 h (by decide) (by decide) hf (by decide)
    (plainFields_of _ _ (by decide) (by decide) (by decide)) (by decide)
    (commandOk_of_link _ _ _ (linkFld_ok val F.FAB_CRC_INJ_FIRE (by decide) (by decide) hk) (by decide))]
  rfl

theorem exec_fabCrcInj (s : State) (iid : Fin 24) (val : Word) (h : s.Admits iid R.FAB_CRC_INJ .fab0 0)
    (hk : wordFld val F.FAB_CRC_INJ_LINK < 31)
    (hn : s.fabInj.contains (wordFld val F.FAB_CRC_INJ_LINK, wordFld val F.FAB_CRC_INJ_DIR) = false) :
    exec (.fabCrcInj iid val) s
      = .next { s with fabInj := s.fabInj ++ [(wordFld val F.FAB_CRC_INJ_LINK, wordFld val F.FAB_CRC_INJ_DIR)] } := by
  have hfire : (wordSet val F.FAB_CRC_INJ_FIRE 1).getLsbD 6 = true := getLsbD_wordSet_one val 6 (by decide)
  have hlink : wordFld (wordSet val F.FAB_CRC_INJ_FIRE 1) F.FAB_CRC_INJ_LINK = wordFld val F.FAB_CRC_INJ_LINK :=
    wordFld_wordSet_ne _ _ _ _ (by decide) (by decide)
  have hdir : wordFld (wordSet val F.FAB_CRC_INJ_FIRE 1) F.FAB_CRC_INJ_DIR = wordFld val F.FAB_CRC_INJ_DIR :=
    wordFld_wordSet_ne _ _ _ _ (by decide) (by decide)
  show Host.Outcome.next _ = _
  rw [wordWrite_fabCrcInj iid val s h hk, crcInj]
  simp only [hfire, hlink, hdir, hn, Nat.ne_of_lt hk, Bool.not_true, Bool.false_eq_true, or_self, if_false]
  exact congrArg _ (attributeErr_quiet _ _ _ _ rfl)

/-! ### A data beat (R403) -/

/-- How many transmissions of a beat fail: an armed injection makes the first fail. -/
def beatFails (k dir bad : Nat) (s : State) : Nat := if s.fabInj.contains (k, dir) then max bad 1 else bad

/-- A data beat crosses: its injection is used up and the beat counted. -/
def beatCounted (k dir : Nat) (s : State) : State :=
  ({ s with fabInj := s.fabInj.filter (· != (k, dir)) }).count Pg.fab0 0 1

/-- `n` resends of a beat on link `k`, counted and flagged. -/
def beatResent (k n : Nat) (s : State) : State :=
  errEvent Pg.fab0 E.fab0_CRC_RESEND
    (((s.count Pg.fab0 1 n).count Pg.rel3 0 n).satFld (R.FAB_LINK_STAT k) F.FAB_LINK_STAT_RESENDS n)

/-- A beat that is passed on poisoned. -/
def beatPoisoned (s : State) : State :=
  errEvent Pg.fab0 E.fab0_BEAT_POISON ((s.count Pg.fab0 2 1).count Pg.rel3 1 1)

/-- The row that a poisoned beat goes to, if it goes to one, is poisoned with it. -/
def rowPoisoned (row : Option (Nat × Nat)) (s : State) : State :=
  match row with
  | some q => s.setRowTag q.1 q.2 2
  | none => s

/-- A beat is counted, resent at most three times, and poisoned when the third resend fails too (R403). -/
theorem fabricBeat_eq (k dir bad : Nat) (row : Option (Nat × Nat)) (s : State) :
    fabricBeat k dir bad row s =
      if beatFails k dir bad s = 0 then beatCounted k dir s
      else if beatFails k dir bad s ≤ 3 then beatResent k (beatFails k dir bad s) (beatCounted k dir s)
      else rowPoisoned row (beatPoisoned (beatResent k 3 (beatCounted k dir s))) := by
  unfold fabricBeat
  dsimp only
  rw [← beatFails]
  generalize beatFails k dir bad s = fails
  by_cases h0 : fails = 0
  · rw [if_pos (by omega), if_pos h0]; rfl
  · rw [if_neg (by omega), if_neg h0]
    by_cases h3 : fails ≤ 3
    · rw [if_pos h3, if_pos h3, Nat.min_eq_left h3]; rfl
    · rw [if_neg h3, if_neg h3, Nat.min_eq_right (by omega)]; rfl

/-- What a beat touches: error status and its interrupts, counters, injections and row tags. -/
def BeatOnly (s t : State) : Prop :=
  t = { s with
    regs := t.regs, cnt := t.cnt, fabInj := t.fabInj, rowPoison := t.rowPoison, errIrqs := t.errIrqs, hif := t.hif }

theorem BeatOnly.trans {s t u : State} (h : BeatOnly s t) (k : BeatOnly t u) : BeatOnly s u := by
  unfold BeatOnly at *; rw [k, h]

theorem BeatOnly.errEvent (base bit : Nat) (s : State) : BeatOnly s (errEvent base bit s) := by
  have h := errEvent_frame base bit s
  generalize Machine.errEvent base bit s = t at h ⊢
  rw [h]
  rfl

theorem beatCounted_frame (k dir : Nat) (s : State) : BeatOnly s (beatCounted k dir s) := rfl

theorem beatResent_frame (k n : Nat) (s : State) : BeatOnly s (beatResent k n s) :=
  BeatOnly.trans (t := ((s.count Pg.fab0 1 n).count Pg.rel3 0 n).satFld (R.FAB_LINK_STAT k) F.FAB_LINK_STAT_RESENDS n) rfl
    (BeatOnly.errEvent _ _ _)

theorem beatPoisoned_frame (s : State) : BeatOnly s (beatPoisoned s) :=
  BeatOnly.trans (t := (s.count Pg.fab0 2 1).count Pg.rel3 1 1) rfl (BeatOnly.errEvent _ _ _)

theorem rowPoisoned_frame (row : Option (Nat × Nat)) (s : State) : BeatOnly s (rowPoisoned row s) := by
  cases row <;> rfl

theorem fabricBeat_frame (k dir bad : Nat) (row : Option (Nat × Nat)) (s : State) : BeatOnly s (fabricBeat k dir bad row s) := by
  have h1 := beatCounted_frame k dir s
  rw [fabricBeat_eq]
  split
  · exact h1
  · split
    · exact h1.trans (beatResent_frame _ _ _)
    · exact ((h1.trans (beatResent_frame _ _ _)).trans (beatPoisoned_frame _)).trans (rowPoisoned_frame _ _)

@[simp] theorem beatCounted_fabInj (k dir : Nat) (s : State) :
    (beatCounted k dir s).fabInj = s.fabInj.filter (· != (k, dir)) := rfl

@[simp] theorem beatCounted_rowPoison (k dir : Nat) (s : State) : (beatCounted k dir s).rowPoison = s.rowPoison := rfl

@[simp] theorem beatResent_fabInj (k n : Nat) (s : State) : (beatResent k n s).fabInj = s.fabInj := by simp [beatResent]

@[simp] theorem beatResent_rowPoison (k n : Nat) (s : State) : (beatResent k n s).rowPoison = s.rowPoison := by simp [beatResent]

@[simp] theorem beatPoisoned_fabInj (s : State) : (beatPoisoned s).fabInj = s.fabInj := by simp [beatPoisoned]

@[simp] theorem rowPoisoned_fabInj (row : Option (Nat × Nat)) (s : State) : (rowPoisoned row s).fabInj = s.fabInj := by
  cases row <;> rfl

@[simp] theorem rowPoisoned_reg (row : Option (Nat × Nat)) (s : State) (a : Nat) : (rowPoisoned row s).reg a = s.reg a := by
  cases row <;> rfl

@[simp] theorem rowPoisoned_fld (row : Option (Nat × Nat)) (s : State) (a : Nat) (f : Fld) :
    (rowPoisoned row s).fld a f = s.fld a f := by cases row <;> rfl

@[simp] theorem rowPoisoned_counter (row : Option (Nat × Nat)) (s : State) (k : Nat) :
    (rowPoisoned row s).counter k = s.counter k := by cases row <;> rfl

theorem rowPoisoned_rowTag (n r : Nat) (s : State) : (rowPoisoned (some (n, r)) s).rowTag n r = 2 :=
  Tab.get_set_same _ _ _ _

theorem beatCounted_counter_ne (k dir c : Nat) (s : State) (h : c ≠ cntKey Pg.fab0 0) :
    (beatCounted k dir s).counter c = s.counter c := State.counter_count_ne _ _ _ _ _ h

theorem beatCounted_counter (k dir : Nat) (s : State) :
    (beatCounted k dir s).counter (cntKey Pg.fab0 0) = (s.counter (cntKey Pg.fab0 0) + 1) % 2 ^ 64 :=
  State.counter_count_same _ _ _ _

theorem beatResent_counter_ne (k n c : Nat) (s : State) (h : c ≠ cntKey Pg.fab0 1) (h3 : c ≠ cntKey Pg.rel3 0) :
    (beatResent k n s).counter c = s.counter c := by
  rw [beatResent, errEvent_counter, State.satFld_counter, State.counter_count_ne _ _ _ _ _ h3, State.counter_count_ne _ _ _ _ _ h]

theorem beatResent_counter (k n : Nat) (s : State) :
    (beatResent k n s).counter (cntKey Pg.fab0 1) = (s.counter (cntKey Pg.fab0 1) + n) % 2 ^ 64 := by
  rw [beatResent, errEvent_counter, State.satFld_counter, State.counter_count_ne _ _ _ _ _ (by decide), State.counter_count_same]

theorem beatPoisoned_counter_ne (c : Nat) (s : State) (h : c ≠ cntKey Pg.fab0 2) (h3 : c ≠ cntKey Pg.rel3 1) :
    (beatPoisoned s).counter c = s.counter c := by
  rw [beatPoisoned, errEvent_counter, State.counter_count_ne _ _ _ _ _ h3, State.counter_count_ne _ _ _ _ _ h]

theorem beatPoisoned_counter (s : State) :
    (beatPoisoned s).counter (cntKey Pg.fab0 2) = (s.counter (cntKey Pg.fab0 2) + 1) % 2 ^ 64 := by
  rw [beatPoisoned, errEvent_counter, State.counter_count_ne _ _ _ _ _ (by decide), State.counter_count_same]

theorem linkStat_ne_header (k o : Nat) (h : o < 0x100) : R.FAB_LINK_STAT k ≠ Pg.fab0 + o := by
  simp only [R.FAB_LINK_STAT, Pg.fab0, Pg.fab1]; omega

theorem beatResent_resends (k n : Nat) (s : State) :
    (beatResent k n s).fld (R.FAB_LINK_STAT k) F.FAB_LINK_STAT_RESENDS
      = min (s.fld (R.FAB_LINK_STAT k) F.FAB_LINK_STAT_RESENDS + n) 65535 := by
  have h := State.fld_setFld_same ((s.count Pg.fab0 1 n).count Pg.rel3 0 n) (R.FAB_LINK_STAT k) F.FAB_LINK_STAT_RESENDS
    (satAdd 16 (s.fld (R.FAB_LINK_STAT k) F.FAB_LINK_STAT_RESENDS) n) (by decide)
  rw [beatResent, errEvent_fld_ne _ _ _ _ _ (linkStat_ne_header k _ (by decide)) (linkStat_ne_header k _ (by decide))]
  refine h.trans (Nat.mod_eq_of_lt ?_)
  simp only [satAdd, F.FAB_LINK_STAT_RESENDS]
  omega

theorem beatPoisoned_linkStat (k : Nat) (f : Fld) (s : State) :
    (beatPoisoned s).fld (R.FAB_LINK_STAT k) f = s.fld (R.FAB_LINK_STAT k) f :=
  errEvent_fld_ne _ _ _ _ _ (linkStat_ne_header k _ (by decide)) (linkStat_ne_header k _ (by decide))

theorem exec_fabricBeat (s : State) (link : Fin 31) (dir : Fin 2) (bad : Nat) (row : Option (Fin 18 × Fin 65536)) :
    exec (.fabricBeat link dir bad row) s = .next (fabricBeat link dir bad (row.map fun q => (q.1.val, q.2.val)) s) := rfl

theorem fabricBeat_fabInj (k dir bad : Nat) (row : Option (Nat × Nat)) (s : State) :
    (fabricBeat k dir bad row s).fabInj = s.fabInj.filter (· != (k, dir)) := by
  rw [fabricBeat_eq]
  split
  · rfl
  · split <;> simp

theorem fabricBeat_beats (k dir bad : Nat) (row : Option (Nat × Nat)) (s : State) :
    (fabricBeat k dir bad row s).counter (cntKey Pg.fab0 0) = (s.counter (cntKey Pg.fab0 0) + 1) % 2 ^ 64 := by
  have h (n : Nat) := beatResent_counter_ne k n (cntKey Pg.fab0 0) (beatCounted k dir s) (by decide) (by decide)
  have hp := beatPoisoned_counter_ne (cntKey Pg.fab0 0) (beatResent k 3 (beatCounted k dir s)) (by decide) (by decide)
  rw [← beatCounted_counter k dir, fabricBeat_eq]
  split
  · rfl
  · split
    · exact h _
    · rw [rowPoisoned_counter, hp, h]

/-- What the resends of a failing beat leave, whether it is passed on poisoned or not. -/
theorem fabricBeat_resends (k dir bad : Nat) (row : Option (Nat × Nat)) (s : State) (h : 0 < beatFails k dir bad s) :
    let t := fabricBeat k dir bad row s
    t.counter (cntKey Pg.fab0 1) = (s.counter (cntKey Pg.fab0 1) + min (beatFails k dir bad s) 3) % 2 ^ 64
      ∧ t.fld (R.FAB_LINK_STAT k) F.FAB_LINK_STAT_RESENDS
        = min (s.fld (R.FAB_LINK_STAT k) F.FAB_LINK_STAT_RESENDS + min (beatFails k dir bad s) 3) 65535
      ∧ bitOf (t.reg (Pg.fab0 + Hdr.errStat)).toNat E.fab0_CRC_RESEND = true := by
  have hc (n : Nat) := beatResent_counter k n (beatCounted k dir s)
  have hr (n : Nat) := beatResent_resends k n (beatCounted k dir s)
  have hb (n : Nat) (u : State) : bitOf ((beatResent k n u).reg (Pg.fab0 + Hdr.errStat)).toNat E.fab0_CRC_RESEND = true :=
    errEvent_sets _ _ _ (by decide)
  rw [beatCounted_counter_ne _ _ _ _ (by decide)] at hc
  rw [fabricBeat_eq, if_neg (by omega)]
  split
  · rename_i h3
    rw [Nat.min_eq_left h3]
    exact ⟨hc _, hr _, hb _ _⟩
  · rw [Nat.min_eq_right (by omega)]
    dsimp only
    rw [rowPoisoned_counter, rowPoisoned_fld, rowPoisoned_reg, beatPoisoned_counter_ne _ _ (by decide) (by decide),
      beatPoisoned_linkStat]
    exact ⟨hc 3, hr 3, errEvent_keeps _ _ _ _ (hb 3 _)⟩

theorem fabricBeat_kept (k dir bad : Nat) (row : Option (Nat × Nat)) (s : State) (h : beatFails k dir bad s ≤ 3) :
    (fabricBeat k dir bad row s).rowPoison = s.rowPoison := by
  rw [fabricBeat_eq, if_pos h]
  split <;> simp

/-- A beat whose third resend fails too is counted, flagged, and poisons the row that it goes to. -/
theorem fabricBeat_poisons (k dir bad : Nat) (row : Option (Nat × Nat)) (s : State) (h : 3 < beatFails k dir bad s) :
    let t := fabricBeat k dir bad row s
    t.counter (cntKey Pg.fab0 2) = (s.counter (cntKey Pg.fab0 2) + 1) % 2 ^ 64
      ∧ bitOf (t.reg (Pg.fab0 + Hdr.errStat)).toNat E.fab0_BEAT_POISON = true
      ∧ ∀ n r, row = some (n, r) → t.rowTag n r = 2 := by
  rw [fabricBeat_eq, if_neg (by omega), if_neg (by omega)]
  dsimp only
  rw [rowPoisoned_counter, rowPoisoned_reg, beatPoisoned_counter, beatResent_counter_ne _ _ _ _ (by decide) (by decide),
    beatCounted_counter_ne _ _ _ _ (by decide)]
  refine ⟨rfl, errEvent_sets _ _ _ (by decide), fun n r hrow => ?_⟩
  rw [hrow, rowPoisoned_rowTag]

/-! ### The die-to-die link (R29, R32, R410, R415) -/

theorem wordWrite_fabD2dCtrl (iid : Nat) (s : State) (h : s.Admits iid R.FAB_D2D_CTRL .fab2 0) :
    wordWrite iid R.FAB_D2D_CTRL 1#32 s = attributeErr iid R.FAB_D2D_CTRL s (d2dRetrain 1#32 s) := by
  have hf : findReg (R.FAB_D2D_CTRL % 4096) (regsOf .fab2)
      = some (⟨0x104, 1, 0x0, 1, 0x0, .any, [⟨0, 0, .wo, 0, 0, []⟩]⟩, 0, 0) := by decide
  rw [busWrite_command iid R.FAB_D2D_CTRL _ s .fab2 0 _ 0 0 h (by decide) (by decide) hf (by decide)
    (plainFields_of _ _ (by decide) (by decide) (by decide)) (by decide) (by decide)]
  rfl

theorem exec_d2dRetrain (s : State) (iid : Fin 24) (h : s.Admits iid R.FAB_D2D_CTRL .fab2 0)
    (hr : s.flag R.FAB_D2D_STATUS F.FAB_D2D_STATUS_RETRAINING = false) :
    exec (.d2dRetrain iid) s = .next (errEvent Pg.fab0 E.fab0_D2D_RETRAIN
      (((s.setFld R.FAB_D2D_STATUS F.FAB_D2D_STATUS_RETRAINING 1).count Pg.fab0 6 1).count Pg.tstD2d 1 1)) := by
  have hgo : d2dRetrain 1#32 s = errEvent Pg.fab0 E.fab0_D2D_RETRAIN
      (((s.setFld R.FAB_D2D_STATUS F.FAB_D2D_STATUS_RETRAINING 1).count Pg.fab0 6 1).count Pg.tstD2d 1 1) := by
    rw [d2dRetrain, hr]; rfl
  show Host.Outcome.next _ = _
  rw [wordWrite_fabD2dCtrl iid s h, hgo]
  refine congrArg _ (attributeErr_quiet _ _ _ _ ?_)
  rw [errEvent_reg_ne _ _ _ _ (by decide) (by decide), State.count_reg, State.count_reg, State.reg_setFld_ne _ _ _ _ _ (by decide)]

theorem exec_d2dRetrainDone (s : State) (h : s.flag R.FAB_D2D_STATUS F.FAB_D2D_STATUS_RETRAINING = true) :
    exec .d2dRetrainDone s = .next (s.setFld R.FAB_D2D_STATUS F.FAB_D2D_STATUS_RETRAINING 0) :=
  congrArg Host.Outcome.next (if_pos h)

/-- The state with the counts of redundant and repaired lanes that both registers show. -/
def d2dLanes (left repaired : Nat) (s : State) : State :=
  (((s.setFld R.REL_D2D F.REL_D2D_LEFT left).setFld R.REL_D2D F.REL_D2D_REPAIRED repaired).setFld
    R.FAB_D2D_STATUS F.FAB_D2D_STATUS_LEFT left).setFld R.FAB_D2D_STATUS F.FAB_D2D_STATUS_REPAIRED repaired

theorem d2dLanes_fld (left repaired : Nat) (s : State) (hl : left < 256) (hr : repaired < 256) :
    let t := d2dLanes left repaired s
    t.fld R.REL_D2D F.REL_D2D_LEFT = left ∧ t.fld R.REL_D2D F.REL_D2D_REPAIRED = repaired
      ∧ t.fld R.FAB_D2D_STATUS F.FAB_D2D_STATUS_LEFT = left ∧ t.fld R.FAB_D2D_STATUS F.FAB_D2D_STATUS_REPAIRED = repaired := by
  have e1 : left % 2 ^ 8 = left := Nat.mod_eq_of_lt hl
  have e2 : repaired % 2 ^ 8 = repaired := Nat.mod_eq_of_lt hr
  have ne : R.REL_D2D ≠ R.FAB_D2D_STATUS := by decide
  dsimp only [d2dLanes]
  refine ⟨?_, ?_, ?_, ?_⟩
  · rw [State.fld_setFld_ne _ _ _ _ _ _ ne, State.fld_setFld_ne _ _ _ _ _ _ ne,
      State.fld_setFld_other _ _ _ _ _ (by decide) (by decide), State.fld_setFld_same _ _ _ _ (by decide)]
    exact e1
  · rw [State.fld_setFld_ne _ _ _ _ _ _ ne, State.fld_setFld_ne _ _ _ _ _ _ ne, State.fld_setFld_same _ _ _ _ (by decide)]
    exact e2
  · rw [State.fld_setFld_other _ _ _ _ _ (by decide) (by decide), State.fld_setFld_same _ _ _ _ (by decide)]
    exact e1
  · rw [State.fld_setFld_same _ _ _ _ (by decide)]
    exact e2

/-- A lane failure found at training is counted as one (R498). -/
def laneFailCounted (training : Bool) (s : State) : State := if training then s.count Pg.tstD2d 2 1 else s

@[simp] theorem laneFailCounted_reg (training : Bool) (s : State) (a : Nat) : (laneFailCounted training s).reg a = s.reg a := by
  cases training <;> rfl

/-- A lane that fails while redundant lanes are left is repaired (R29, R410). -/
theorem d2dLaneFail_repair (training : Bool) (s : State) (h : 0 < s.fld R.REL_D2D F.REL_D2D_LEFT) (a : Nat) (f : Fld)
    (ha : a = R.REL_D2D ∨ a = R.FAB_D2D_STATUS) :
    (d2dLaneFail training s).fld a f = (d2dLanes (s.fld R.REL_D2D F.REL_D2D_LEFT - 1)
      (min 255 (s.fld R.REL_D2D F.REL_D2D_REPAIRED + 1)) (laneFailCounted training s)).fld a f := by
  have h2 : a / 4096 ≠ Pg.rel2 / 4096 := by rcases ha with rfl | rfl <;> decide
  have hs : a ≠ Pg.rel1 + Hdr.errStat := by rcases ha with rfl | rfl <;> decide
  have hf : a ≠ Pg.rel1 + Hdr.errFirst := by rcases ha with rfl | rfl <;> decide
  unfold d2dLaneFail
  dsimp only
  rw [if_neg (by omega), logEntry_fld _ _ _ _ h2, errEvent_fld_ne _ _ _ _ _ hs hf, State.count_fld]
  rfl

/-- A lane that fails with no redundant lane left asks for service (R29, R415). -/
theorem d2dLaneFail_service (training : Bool) (s : State) (h : s.fld R.REL_D2D F.REL_D2D_LEFT = 0) :
    d2dLaneFail training s = svcEvent 5 (laneFailCounted training s) := if_pos h

theorem exec_d2dLaneFail (s : State) (training : Bool) : exec (.d2dLaneFail training) s = .next (d2dLaneFail training s) := rfl

theorem svcEvent_flag (bit k : Nat) (s : State) (h : (bit = k ∧ bit < 32) ∨ k = 31) :
    (svcEvent bit s).flag R.REL_SVC ⟨k, k⟩ = true := by
  rw [State.flag, State.fld, svcEvent_svc, wordFld_one_bit]
  rcases h with ⟨rfl, h⟩ | rfl
  · simp [getLsbD_bit32 _ _ h]
  · rw [BitVec.getLsbD_or, getLsbD_bit32 31 31 (by decide)]
    simp

/-- Settles O8: the walking test and the injection by their command writes, a beat by its three outcomes, the die-to-die link
by its retrain bit and the two outcomes of a lane failure. -/
theorem fabricLinksResendRetrainAndTest : Obligations.FabricLinksResendRetrainAndTest := by
  unfold Obligations.FabricLinksResendRetrainAndTest
  refine ⟨fun s iid val => ⟨fun h hk hr => ?_, fun h hk hr => ?_, fun link => exec_walkTestDone s link⟩,
    fun s iid val link dir bad row => ⟨exec_fabCrcInj s iid val, ?_⟩,
    fun s iid training => ⟨exec_d2dRetrain s iid, exec_d2dRetrainDone s, ?_⟩⟩
  · rw [exec_fabWalkGo s iid val h hk]
    exact congrArg _ (if_pos hr)
  · rw [exec_fabWalkGo s iid val h hk]
    exact congrArg _ (if_neg (by rw [hr]; decide))
  · generalize hq : row.map (fun q => (q.1.val, q.2.val)) = q
    have hinj := fabricBeat_fabInj link dir bad q s
    refine ⟨_, (exec_fabricBeat s link dir bad row).trans (by rw [hq]), hinj, fabricBeat_beats _ _ _ _ _, fun h0 => ?_,
      fabricBeat_resends _ _ _ _ _, fun _ h3 => fabricBeat_kept _ _ _ _ _ h3, fun h3 => ?_, fabricBeat_frame _ _ _ _ _⟩
    · have h0 : beatFails link dir bad s = 0 := h0
      rw [fabricBeat_eq, if_pos h0]
      rfl
    · obtain ⟨hc, hb, hrow⟩ := fabricBeat_poisons link dir bad q s h3
      exact ⟨hc, hb, fun n r e => hrow n r (by rw [← hq, e]; rfl)⟩
  · refine ⟨_, exec_d2dLaneFail s training, fun h => ?_, fun h => ?_⟩
    · have hlt := wordFld_lt (s.reg R.REL_D2D) F.REL_D2D_LEFT
      have hl : s.fld R.REL_D2D F.REL_D2D_LEFT < 256 := hlt
      obtain ⟨h1, h2, h3, h4⟩ := d2dLanes_fld (s.fld R.REL_D2D F.REL_D2D_LEFT - 1)
        (min 255 (s.fld R.REL_D2D F.REL_D2D_REPAIRED + 1)) (laneFailCounted training s) (by omega) (by omega)
      simp only [d2dLaneFail_repair training s h _ _ (.inl rfl), d2dLaneFail_repair training s h _ _ (.inr rfl), h1, h2, h3, h4,
        and_self]
    · rw [d2dLaneFail_service training s h]
      refine ⟨?_, svcEvent_flag 5 5 _ (by decide), svcEvent_flag 5 31 _ (by decide)⟩
      rw [State.fld, svcEvent_reg _ _ _ (by decide) (by decide), laneFailCounted_reg, State.fld]

end Sys2Proof.Machine
end

section
/-! PROOFS. The Breeze tier's inputs (R21, R238 to R246): what a sample period leaves in the ring, the mute and its release,
and TDM frame syncs. -/

namespace Sys2Proof.Machine

/-! ### The bytes of a sample period (R21, R242) -/

theorem leBytes_length (n v : Nat) : (leBytes n v).length = n := by
  induction n generalizing v with
  | zero => rfl
  | succ n ih => simp [leBytes, ih]

/-- The INT16 codes of a list of channels, two bytes each. -/
def ringBytes (codes : List Nat) : List Byte := codes.flatMap (leBytes 2)

theorem ringBytes_length (codes : List Nat) : (ringBytes codes).length = 2 * codes.length := by
  induction codes with
  | nil => rfl
  | cons c cs ih =>
    rw [ringBytes, List.flatMap_cons, List.length_append, leBytes_length, ← ringBytes, ih, List.length_cons]
    omega

/-- The two bytes of channel `c` spell its code. -/
theorem ringBytes_getD (codes : List Nat) (h : ∀ v ∈ codes, v < 65536) (c : Nat) :
    ((ringBytes codes).getD (2 * c) 0).toNat + 256 * ((ringBytes codes).getD (2 * c + 1) 0).toNat = codes.getD c 0 := by
  induction codes generalizing c with
  | nil => rfl
  | cons v vs ih =>
    obtain ⟨hv, hvs⟩ := List.forall_mem_cons.mp h
    have e : ringBytes (v :: vs) = BitVec.ofNat 8 v :: BitVec.ofNat 8 (v / 256) :: ringBytes vs := rfl
    rw [e]
    cases c with
    | zero =>
      simp only [Nat.mul_zero, Nat.zero_add, List.getD_cons_zero, List.getD_cons_succ, BitVec.toNat_ofNat]
      omega
    | succ c => exact ih hvs c

theorem channelCode_lt (s : State) (c : Nat) (v : BitVec 16) : s.channelCode c v < 65536 := by
  unfold State.channelCode
  dsimp only
  split
  · decide
  · exact v.isLt

theorem channelCode_muted (s : State) (c : Nat) (v : BitVec 16) (h : s.muted = true) : s.channelCode c v = 0 := by
  simp [State.channelCode, h]

/-- The codes that a sample period writes, channel by channel. -/
def State.periodCodes (s : State) (vals : List (BitVec 16)) : List Nat :=
  (List.range 32).map fun c => s.channelCode c (vals.getD c 0)

theorem periodCodes_length (s : State) (vals : List (BitVec 16)) : (s.periodCodes vals).length = 32 := by
  simp [State.periodCodes]

theorem periodCodes_getD (s : State) (vals : List (BitVec 16)) (c : Nat) (h : c < 32) :
    (s.periodCodes vals).getD c 0 = s.channelCode c (vals.getD c 0) := by
  simp [State.periodCodes, h]

/-- The ring after a sample period at index `i`. -/
def State.periodRing (s : State) (vals : List (BitVec 16)) : List Host.Cell :=
  Memory.writeList s.brz.ring (s.brz.written % ringSlots * 64) (ringBytes (s.periodCodes vals))

/-! ### A sample period (R242, R244) -/

section
variable (vals : List (BitVec 16)) (sat : BitVec 32) (s : State)

theorem exec_sampleWrite : exec (.sampleWrite vals sat) s = .next (sampleWrite vals sat s) := rfl

theorem sampleWrite_ring : (sampleWrite vals sat s).brz.ring = s.periodRing vals := by
  unfold sampleWrite
  simp only [errIf_brz, apply_ite State.brz, State.count_brz, ite_self, State.modBrz, State.at_brz, State.periodRing, ringBytes,
    State.periodCodes, List.flatMap_map]
  rfl

theorem sampleWrite_written : (sampleWrite vals sat s).brz.written = s.brz.written + 1 := by
  unfold sampleWrite
  simp only [errIf_brz, apply_ite State.brz, State.count_brz, ite_self, State.modBrz]

theorem sampleWrite_spm : (sampleWrite vals sat s).brz.spm = s.brz.spm := by
  unfold sampleWrite
  simp only [errIf_brz, apply_ite State.brz, State.count_brz, ite_self, State.modBrz, State.at_brz]

theorem sampleWrite_spad : (sampleWrite vals sat s).spad = s.spad := by
  unfold sampleWrite
  simp only [errIf_spad, apply_ite State.spad, State.count_spad, ite_self]
  rfl

theorem sampleWrite_da : (sampleWrite vals sat s).da = s.da := by
  unfold sampleWrite
  simp only [errIf_da, apply_ite State.da, State.count_da, ite_self]
  rfl

theorem sampleWrite_periods :
    (sampleWrite vals sat s).counter (cntKey Pg.brz0 0) = (s.counter (cntKey Pg.brz0 0) + 1) % 2 ^ 64 := by
  have hne (t : State) (i k : Nat) (hi : i ≠ 0) :
      (t.count Pg.brz0 i k).counter (cntKey Pg.brz0 0) = t.counter (cntKey Pg.brz0 0) :=
    State.counter_count_ne _ _ _ _ _ (by simp only [cntKey]; omega)
  unfold sampleWrite
  simp only [errIf_counter, apply_ite (State.counter · (cntKey Pg.brz0 0)), hne _ 1 _ (by decide), hne _ 2 _ (by decide), ite_self,
    State.counter_count_same]
  rfl

/-- The block of a muted sample period is flagged MUTE (R244). -/
theorem sampleWrite_muteFlag (h : s.muted = true) : bitOf ((sampleWrite vals sat s).blockFlags s.brz.written) 0 = true := by
  have hm (t : Nat) : (s.at t).muted = true := h
  have hodd (old : Nat) (p q r : Prop) [Decidable p] [Decidable q] [Decidable r] :
      (old ||| ((1 + if p then 2 else 0) + (if q then 0 else 4) + if r then 8 else 0)).testBit 0 = true := by
    by_cases p <;> by_cases q <;> by_cases r <;> simp [*]
  unfold State.blockFlags sampleWrite
  simp only [errIf_brz, State.count_brz, State.modBrz, State.at_brz, Tab.get_set_same, hm, bitOf_eq_testBit, if_true]
  exact hodd _ _ _ _

/-- A sample reads as the code that the period of its index wrote. -/
theorem sampleWrite_sample (c : Nat) (hw : Memory.wf s.brz.ring = true) (hc : c < 32) :
    (sampleWrite vals sat s).sample s.brz.written c = s.channelCode c (vals.getD c 0) := by
  have hlen : (ringBytes (s.periodCodes vals)).length = 64 := by rw [ringBytes_length, periodCodes_length]
  have hlt : ∀ v ∈ s.periodCodes vals, v < 65536 := by
    simp only [State.periodCodes, List.mem_map, forall_exists_index, and_imp]
    rintro _ c _ rfl
    exact channelCode_lt s c _
  unfold State.sample
  dsimp only
  rw [sampleWrite_ring, State.periodRing, Memory.read_writeList _ _ _ _ hw, Memory.read_writeList _ _ _ _ hw,
    if_pos (by omega), if_pos (by omega), Nat.add_assoc, Nat.add_sub_cancel_left, Nat.add_sub_cancel_left,
    ringBytes_getD _ hlt, periodCodes_getD s vals c hc]

/-- Every other retained sample keeps its code. -/
theorem sampleWrite_sample_ne (j c : Nat) (hw : Memory.wf s.brz.ring = true) (hc : c < 32) (h1 : s.brz.written < j + ringSlots)
    (h2 : j < s.brz.written) : (sampleWrite vals sat s).sample j c = s.sample j c := by
  have hlen : (ringBytes (s.periodCodes vals)).length = 64 := by rw [ringBytes_length, periodCodes_length]
  have hslot : j % ringSlots ≠ s.brz.written % ringSlots := by
    unfold ringSlots at *
    omega
  unfold State.sample
  dsimp only
  rw [sampleWrite_ring, State.periodRing, Memory.read_writeList _ _ _ _ hw, Memory.read_writeList _ _ _ _ hw,
    if_neg (by omega), if_neg (by omega)]

end

/-! ### The mute (R244 to R246) -/

theorem exec_muteNFall (s : State) : exec .muteNFall s = .next (muteFall s) := rfl

/-- The state that MUTE_N falling leaves before MUTE_CHG is flagged. -/
def mutedNow (s : State) : State :=
  (s.modBrz (fun z => { z with riseAt := none, settleLeft := 0 })).setReg R.BRZ_MUTE 1

theorem muteFall_eq (s : State) : muteFall s = if s.muted then mutedNow s else errEvent Pg.brz0 E.brz0_MUTE_CHG (mutedNow s) := rfl

theorem muteFall_mute (s : State) : (muteFall s).reg R.BRZ_MUTE = 1 := by
  rw [muteFall_eq]
  split
  · exact State.reg_setReg_same _ _ _
  · rw [errEvent_reg_ne _ _ _ _ (by decide) (by decide)]
    exact State.reg_setReg_same _ _ _

theorem muteFall_brz (s : State) : (muteFall s).brz = { s.brz with riseAt := none, settleLeft := 0 } := by
  rw [muteFall_eq]
  split
  · rfl
  · rw [errEvent_brz]; rfl

theorem muteFall_flags (s : State) (h : s.muted = false) :
    bitOf ((muteFall s).reg (Pg.brz0 + Hdr.errStat)).toNat E.brz0_MUTE_CHG = true := by
  rw [muteFall_eq, h]
  exact errEvent_sets _ _ _ (by decide)

theorem exec_muteNRise (s : State) (h : s.flag R.BRZ_MUTE F.BRZ_MUTE_PIN = false) : exec .muteNRise s
    = .next ({ s with brz := { s.brz with riseAt := some s.dtime } }.setFld R.BRZ_MUTE F.BRZ_MUTE_PIN 1) :=
  congrArg Host.Outcome.next (if_neg (by rw [h]; decide))

/-- The release is qualified 24,578 cycles after the rise, and its settle count starts (R245). -/
theorem exec_releaseQualified (s : State) (u : Nat) (h : s.brz.riseAt = some u) :
    exec .releaseQualified s = .next (((s.at (u + 24578)).modBrz (fun z =>
      { z with riseAt := none, settleLeft := s.fld R.BRZ_UNMUTE_SETTLE F.BRZ_UNMUTE_SETTLE_SAMPLES })).setReg R.BRZ_MUTE 6) := by
  show Host.Outcome.next (muteRelease s) = _
  rw [muteRelease, h]

theorem exec_settleEnd (s : State) (h : s.brz.settleLeft = 0) :
    exec .settleEnd s = .next (s.setFld R.BRZ_MUTE F.BRZ_MUTE_SETTLING 0) := congrArg Host.Outcome.next (if_pos h)

/-! ### TDM frame syncs (R239) -/

section
variable (p : Fin 4) (s : State)

theorem exec_tdmFrameSync (ok : Bool) : exec (.tdmFrameSync p ok) s = .next (tdmSync p ok s) := rfl

/-- A port that misses a frame sync is among the lost ports, once. -/
def tdmMissed (p : Nat) (s : State) : State :=
  s.modBrz (fun z => { z with tdmLost := if z.tdmLost.contains p then z.tdmLost else z.tdmLost ++ [p] })

theorem mem_tdmMissed (p : Nat) : p ∈ (tdmMissed p s).brz.tdmLost := by
  show p ∈ if s.brz.tdmLost.contains p then s.brz.tdmLost else s.brz.tdmLost ++ [p]
  split
  · rename_i h
    exact List.contains_iff_mem.mp h
  · exact List.mem_append_right _ (List.mem_singleton_self p)

variable (h : bitOf (s.reg R.BRZ_FE_CFG).toNat (17 + p) = true)
include h

theorem tdmSync_inStep :
    tdmSync p true s = { s with brz := { s.brz with tdmLost := s.brz.tdmLost.filter (fun q => q != p.val) } } := by
  simp [tdmSync, h, State.modBrz]

theorem tdmSync_lost : tdmSync p false s = logPartner Pg.brz0 E.brz0_TDM_LOSS LogKind.tdm p
    (errEvent Pg.brz0 E.brz0_TDM_LOSS ((tdmMissed p s).count Pg.brz0 3 1)) := by
  simp [tdmSync, h, tdmMissed]

theorem tdmSync_lost_brz : (tdmSync p false s).brz = (tdmMissed p s).brz := by
  rw [tdmSync_lost p s h, logPartner_brz, errEvent_brz, State.count_brz]

theorem tdmSync_lost_counter :
    (tdmSync p false s).counter (cntKey Pg.brz0 3) = (s.counter (cntKey Pg.brz0 3) + 1) % 2 ^ 64 := by
  rw [tdmSync_lost p s h, logPartner_counter _ _ _ _ _ _ (by decide) (by decide), errEvent_counter, State.counter_count_same]
  rfl

theorem tdmSync_lost_flags :
    bitOf ((tdmSync p false s).reg (Pg.brz0 + Hdr.errStat)).toNat E.brz0_TDM_LOSS = true := by
  rw [tdmSync_lost p s h, logPartner_reg _ _ _ _ _ _ (by decide)]
  exact errEvent_sets _ _ _ (by decide)

end

/-- Settles O26: a period's codes by the ring's memory, the mute by its four transitions, a TDM port by its two outcomes. -/
theorem samplesMuteAndTdm : Obligations.SamplesMuteAndTdm := by
  unfold Obligations.SamplesMuteAndTdm
  refine ⟨fun s vals sat hw => ?_, fun s => ⟨?_, exec_muteNRise s, fun u h => ?_, exec_settleEnd s⟩,
    fun s p h => ⟨?_, ?_⟩⟩
  · have hs (c : Nat) (hc : c < 32) := sampleWrite_sample vals sat s c hw hc
    refine ⟨_, exec_sampleWrite vals sat s, sampleWrite_written vals sat s, hs, fun j c hc h1 h2 =>
      sampleWrite_sample_ne vals sat s j c hw hc h1 h2, fun hm => ⟨fun c hc => ?_, sampleWrite_muteFlag vals sat s hm⟩,
      sampleWrite_periods vals sat s, sampleWrite_spm vals sat s, sampleWrite_spad vals sat s, sampleWrite_da vals sat s⟩
    rw [hs c hc, channelCode_muted s c _ hm]
  · have hb := muteFall_brz s
    exact ⟨_, exec_muteNFall s, muteFall_mute s, by rw [hb], by rw [hb], by rw [hb], by rw [hb], muteFall_flags s⟩
  · exact ⟨_, exec_releaseQualified s u h, State.reg_setReg_same _ _ _, rfl, rfl, rfl⟩
  · rw [exec_tdmFrameSync, tdmSync_inStep p s h]
  · have hb := tdmSync_lost_brz p s h
    exact ⟨_, exec_tdmFrameSync p s false, by rw [hb]; exact mem_tdmMissed s p, tdmSync_lost_counter p s h,
      tdmSync_lost_flags p s h, by rw [hb]; rfl⟩

end Sys2Proof.Machine
end

section
/-! PROOFS. Power domains (R24, R466, R472 to R476, R488): what a MODE write, a wake, an entry and its end leave in the
domain's registers. -/

namespace Sys2Proof.Machine

/-! ### The state and phase of a domain (R488) -/

/-- STATE and PHASE of a domain. -/
def State.domSt (s : State) (d : Nat) : Nat × Nat := (s.domState d, s.fld (R.PWR_DOM_STATUS d) F.PWR_DOM_STATUS_PHASE)

theorem domSt_of_reg {s t : State} {d : Nat} (h : t.reg (R.PWR_DOM_STATUS d) = s.reg (R.PWR_DOM_STATUS d)) :
    t.domSt d = s.domSt d := by
  simp only [State.domSt, State.domState, State.fld, h]

theorem domMode_of_reg {s t : State} {d : Nat} (h : t.reg (R.PWR_DOM_CTRL d) = s.reg (R.PWR_DOM_CTRL d)) :
    t.domMode d = s.domMode d := by
  simp only [State.domMode, State.fld, h]

theorem domStatus_ne {d e : Nat} (h : e ≠ d) : R.PWR_DOM_STATUS e ≠ R.PWR_DOM_STATUS d := by
  unfold R.PWR_DOM_STATUS
  omega

theorem domStatus_ne_ctrl (d : Nat) : R.PWR_DOM_STATUS d ≠ R.PWR_DOM_CTRL d := by
  unfold R.PWR_DOM_STATUS R.PWR_DOM_CTRL
  omega

theorem domStatus_ne_clk {d : Nat} (h : d < 31) : R.PWR_DOM_STATUS d ≠ R.CLK_STATUS := by
  unfold R.PWR_DOM_STATUS R.CLK_STATUS Pg.pwr Pg.clk
  omega

theorem domCtrl_ne_clk {d : Nat} (h : d < 31) : R.PWR_DOM_CTRL d ≠ R.CLK_STATUS := by
  unfold R.PWR_DOM_CTRL R.CLK_STATUS Pg.pwr Pg.clk
  omega

theorem domStatus_ne_header {d o : Nat} (h : o < 0x100) : R.PWR_DOM_STATUS d ≠ Pg.pwr + o := by
  unfold R.PWR_DOM_STATUS
  omega

theorem domCtrl_ne_header {d o : Nat} (h : o < 0x100) : R.PWR_DOM_CTRL d ≠ Pg.pwr + o := by
  unfold R.PWR_DOM_CTRL
  omega

/-- The page of PWR_DOM_CTRL. -/
theorem domCtrl_base (d : Fin 31) : R.PWR_DOM_CTRL d - R.PWR_DOM_CTRL d % 4096 = Pg.pwr := by
  unfold R.PWR_DOM_CTRL Pg.pwr
  omega

section
variable (d st ph : Nat) (s : State)

theorem setDomState_domSt : (setDomState d st ph s).domSt d = (st % 4, ph % 4) := by
  refine Prod.ext ?_ (State.fld_setFld_same _ _ _ _ (by decide))
  show (setDomState d st ph s).fld _ F.PWR_DOM_STATUS_STATE = _
  rw [setDomState, State.fld_setFld_other _ _ _ _ _ (by decide) (by decide), State.fld_setFld_same _ _ _ _ (by decide)]
  rfl

theorem setFld_domSt (f : Fld) (v : Nat) (h : f.hi < 32) (hl : 3 < f.lo) :
    (s.setFld (R.PWR_DOM_STATUS d) f v).domSt d = s.domSt d :=
  Prod.ext (State.fld_setFld_other _ _ _ _ _ h (.inl (Nat.lt_trans (by decide) hl))) (State.fld_setFld_other _ _ _ _ _ h (.inl hl))

/-- The fields of PWR_DOM_STATUS beyond STATE and PHASE stand. -/
theorem setDomState_fld (f : Fld) (h : 3 < f.lo) :
    (setDomState d st ph s).fld (R.PWR_DOM_STATUS d) f = s.fld (R.PWR_DOM_STATUS d) f := by
  have h1 : F.PWR_DOM_STATUS_STATE.hi < f.lo := Nat.lt_trans (by decide) h
  rw [setDomState, State.fld_setFld_other _ _ _ _ _ (by decide) (.inr h), State.fld_setFld_other _ _ _ _ _ (by decide) (.inr h1)]

theorem setDomState_reg_ne (a : Nat) (h : a ≠ R.PWR_DOM_STATUS d) : (setDomState d st ph s).reg a = s.reg a := by
  rw [setDomState, State.reg_setFld_ne _ _ _ _ _ h, State.reg_setFld_ne _ _ _ _ _ h]


end

/-! ### Exits begin (R466, R473, R478) -/

/-- Domain `d` in exit, with the root PLL enabled for it. -/
def exitBegun (d : Nat) (s : State) : State :=
  ((setDomState d 3 2 (s.setDom d { s.dom d with exitFrom := s.domState d, wakeHeld := false, unplanned := false })).setFld
    (R.PWR_DOM_STATUS d) F.PWR_DOM_STATUS_WAKE_HELD 0).setFld R.CLK_STATUS F.CLK_STATUS_PLL_ON 1

section
variable (d : Nat) (s : State)

theorem exitBegun_domSt (hd : d < 31) : (exitBegun d s).domSt d = (3, 2) := by
  rw [exitBegun, domSt_of_reg (State.reg_setFld_ne _ _ _ _ _ (domStatus_ne_clk hd))]
  exact (setFld_domSt d _ _ _ (by decide) (by decide)).trans (setDomState_domSt d 3 2 _)

theorem exitBegun_reg (a : Nat) (h1 : a ≠ R.PWR_DOM_STATUS d) (h2 : a ≠ R.CLK_STATUS) : (exitBegun d s).reg a = s.reg a := by
  rw [exitBegun, State.reg_setFld_ne _ _ _ _ _ h2, State.reg_setFld_ne _ _ _ _ _ h1, setDomState_reg_ne _ _ _ _ _ h1,
    State.setDom_reg]

theorem exitBegun_exitFrom : ((exitBegun d s).dom d).exitFrom = s.domState d :=
  congrArg Dom.exitFrom (State.dom_setDom_same s d _)

theorem exitBegun_pllOn : (exitBegun d s).flag R.CLK_STATUS F.CLK_STATUS_PLL_ON = true := by
  rw [exitBegun, State.flag, State.fld_setFld_same _ _ _ _ (by decide)]; rfl

/-- The counts of a wake that an exit ends a wait of, or that was not planned (R24, R474). -/
def exitCounted (s0 : State) (d : Nat) (s : State) : State :=
  let s1 := if (s0.dom d).wakeHeld then s.count Pg.pwr 3 1 else s
  if (s0.dom d).unplanned then errEvent Pg.pwr E.pwr_UNPLANNED (s1.count Pg.pwr 4 1) else s1

theorem startExit_eq (h1 : s.tripped = false) (h2 : s.disabled d = false) (h3 : s.booted = true) :
    startExit d s = exitCounted s d (exitBegun d s) := by
  have h1' : s.flag R.CLK_STATUS F.CLK_STATUS_TRIP = false := h1
  simp [startExit, exitCounted, exitBegun, h1', h2, h3]

theorem wakeDom_on (unplanned : Bool) (h : s.domState d = 2) : wakeDom d unplanned s = s := by
  simp only [wakeDom, h]

theorem exitCounted_reg (s0 : State) (a : Nat) (h1 : a ≠ Pg.pwr + Hdr.errStat) (h2 : a ≠ Pg.pwr + Hdr.errFirst) :
    (exitCounted s0 d s).reg a = s.reg a := by
  unfold exitCounted
  dsimp only
  split
  · rw [errEvent_reg_ne _ _ _ _ h1 h2]; split <;> rfl
  · split <;> rfl

theorem exitCounted_dom (s0 : State) (e : Nat) : (exitCounted s0 d s).dom e = s.dom e := by
  unfold exitCounted
  dsimp only
  split
  · rw [errEvent_dom]; split <;> rfl
  · split <;> rfl

theorem exitCounted_counter_ne (s0 : State) (k : Nat) (h3 : k ≠ cntKey Pg.pwr 3) (h4 : k ≠ cntKey Pg.pwr 4) :
    (exitCounted s0 d s).counter k = s.counter k := by
  have h (t : State) : (if (s0.dom d).wakeHeld then t.count Pg.pwr 3 1 else t).counter k = t.counter k := by
    split
    · exact State.counter_count_ne _ _ _ _ _ h3
    · rfl
  unfold exitCounted
  dsimp only
  split
  · rw [errEvent_counter, State.counter_count_ne _ _ _ _ _ h4, h]
  · exact h s

/-- An exit that a held wake asked for counts it (R24). -/
theorem exitCounted_held (s0 : State) (h : (s0.dom d).wakeHeld = true) :
    (exitCounted s0 d s).counter (cntKey Pg.pwr 3) = (s.counter (cntKey Pg.pwr 3) + 1) % 2 ^ 64 := by
  unfold exitCounted
  rw [if_pos h]
  dsimp only
  split
  · rw [errEvent_counter, State.counter_count_ne _ _ _ _ _ (by decide)]
    exact State.counter_count_same _ _ _ _
  · exact State.counter_count_same _ _ _ _

end

/-! ### MODE writes (R473, R475) -/

section
variable (s : State) (d : Nat)

theorem modeRefuse_disabled (m : Nat) (h : s.disabled d = true) : s.modeRefuse d m = if m = 0 then 0 else 4 := by
  simp [State.modeRefuse, h]

theorem modeRefuse_breeze (m : Nat) (h : s.disabled 30 = false) : s.modeRefuse 30 m = if m = 2 then 0 else 3 := by
  simp [State.modeRefuse, h]

theorem modeRefuse_control (h : s.disabled 29 = false) : s.modeRefuse 29 0 = 2 := by
  simp [State.modeRefuse, h]

/-- A tier that holds owned pages is not switched off (R475). -/
theorem modeRefuse_owned (h : s.disabled d = false) (ht : 18 ≤ d ∧ d ≤ 20) (ho : s.ownedIn d = true) :
    s.modeRefuse d 0 = 1 := by
  have h30 : d ≠ 30 := by omega
  have h29 : d ≠ 29 := by omega
  simp [State.modeRefuse, h, h30, h29, ht, ho]

/-- MODE 0b00 is accepted below the control complex, but for a tier that holds owned pages. -/
theorem modeRefuse_off (h : s.disabled d = false) (hd : d < 29) (ho : 18 ≤ d ∧ d ≤ 20 → s.ownedIn d = false) :
    s.modeRefuse d 0 = 0 := by
  have h30 : d ≠ 30 := by omega
  have h29 : d ≠ 29 := by omega
  simp only [State.modeRefuse, h, h30, h29, false_and, Bool.false_eq_true, if_false]
  exact if_neg fun ⟨h1, h2, _, h3⟩ => by simp [ho ⟨h1, h2⟩] at h3

theorem modeRefuse_kept (m : Nat) (h : s.disabled d = false) (hm : m ≠ 0) (hd : d = 30 → m = 2) : s.modeRefuse d m = 0 := by
  by_cases h30 : d = 30 <;> simp_all [State.modeRefuse]

/-- The state after a refusal for `why` (R475). -/
theorem modeRefused_reg (why a : Nat) (h1 : a ≠ Pg.pwr + Hdr.errStat) (h2 : a ≠ Pg.pwr + Hdr.errFirst)
    (h3 : a ≠ R.PWR_DOM_STATUS d) :
    (modeRefused d why s).reg a = s.reg a := by
  rw [modeRefused, errEvent_reg_ne _ _ _ _ h1 h2, State.count_reg, State.reg_setFld_ne _ _ _ _ _ h3]

theorem modeRefused_status (why : Nat) : (modeRefused d why s).reg (R.PWR_DOM_STATUS d)
    = wordSet (s.reg (R.PWR_DOM_STATUS d)) F.PWR_DOM_STATUS_REFUSE why := by
  rw [modeRefused, errEvent_reg_ne _ _ _ _ (domStatus_ne_header (by decide)) (domStatus_ne_header (by decide)), State.count_reg,
    State.reg_setFld_same]

theorem modeRefused_refuse (why : Nat) (h : why < 8) :
    (modeRefused d why s).fld (R.PWR_DOM_STATUS d) F.PWR_DOM_STATUS_REFUSE = why := by
  rw [State.fld, modeRefused_status, wordFld_wordSet _ _ _ (by decide)]
  exact Nat.mod_eq_of_lt h

theorem modeRefused_domSt (why : Nat) : (modeRefused d why s).domSt d = s.domSt d := by
  refine (domSt_of_reg ?_).trans (setFld_domSt d s F.PWR_DOM_STATUS_REFUSE why (by decide) (by decide))
  rw [modeRefused_status, State.reg_setFld_same]

theorem modeRefused_counter (why : Nat) :
    (modeRefused d why s).counter (cntKey Pg.pwr 5) = (s.counter (cntKey Pg.pwr 5) + 1) % 2 ^ 64 := by
  rw [modeRefused, errEvent_counter, State.counter_count_same, State.setFld_counter]

theorem modeRefused_flags (why : Nat) :
    bitOf ((modeRefused d why s).reg (Pg.pwr + Hdr.errStat)).toNat E.pwr_MODE_REFUSED = true :=
  errEvent_sets _ _ _ (by decide)

end

/-- Attributing an error to its access touches ERR_FIRST of the page alone (R43). -/
theorem attributeErr_reg_ne (iid a : Nat) (old s : State) (b : Nat) (h : b ≠ a - a % 4096 + Hdr.errFirst) :
    (attributeErr iid a old s).reg b = s.reg b := by
  unfold attributeErr
  dsimp only
  split
  · exact State.reg_setReg_ne _ _ _ _ h
  · rfl

theorem attributeErr_counter (iid a : Nat) (old s : State) (k : Nat) :
    (attributeErr iid a old s).counter k = s.counter k := by
  unfold attributeErr
  dsimp only
  split <;> rfl

/-- The command that writes MODE `m` of domain `d`. -/
def modeCmd (iid : Fin 24) (d : Fin 31) : Fin 3 → Instr
  | 0 => .domModeOff iid d
  | 1 => .domModeRetention iid d
  | 2 => .domModeOn iid d

/-- PWR_DOM_CTRL of domain `d` with MODE `m`. -/
def modeSet (d m : Nat) (s : State) : State :=
  s.setReg (R.PWR_DOM_CTRL d) (mergeWord (s.reg (R.PWR_DOM_CTRL d)) (maskOf 1 0) (BitVec.ofNat 32 m))

section
variable (s : State) (d m : Nat)

theorem modeSet_mode (h : m < 4) : (modeSet d m s).domMode d = m := by
  rw [State.domMode, modeSet, State.fld_setReg_same, wordFld_mergeWord_in _ _ _ _ fun j h1 h2 => ?_]
  · simp only [wordFld, bitsOf, BitVec.toNat_ofNat, F.PWR_DOM_CTRL_MODE]
    omega
  · have h1 : j ≤ 1 := h2
    simp [maskOf_getLsbD, h1]

theorem modeSet_reg_ne (a : Nat) (h : a ≠ R.PWR_DOM_CTRL d) : (modeSet d m s).reg a = s.reg a := State.reg_setReg_ne _ _ _ _ h

theorem modeSet_domSt : (modeSet d m s).domSt d = s.domSt d := domSt_of_reg (modeSet_reg_ne s d m _ (domStatus_ne_ctrl d))

theorem modeSet_booted (hd : d < 31) : (modeSet d m s).booted = s.booted := by
  have h1 : R.SEC_BOOT ≠ R.PWR_DOM_CTRL d := by
    unfold R.SEC_BOOT R.PWR_DOM_CTRL Pg.secBoot Pg.pwr
    omega
  have h2 : R.TST_MODE ≠ R.PWR_DOM_CTRL d := by
    unfold R.TST_MODE R.PWR_DOM_CTRL Pg.tstMode Pg.pwr
    omega
  simp only [State.booted, State.fld, modeSet_reg_ne s d m _ h1, modeSet_reg_ne s d m _ h2]

theorem modeSet_tripped (hd : d < 31) : (modeSet d m s).tripped = s.tripped := by
  simp only [State.tripped, State.flag, State.fld, modeSet_reg_ne s d m _ (domCtrl_ne_clk hd).symm]

theorem modeSet_onlyRegs : OnlyRegs [R.PWR_DOM_CTRL d] s (modeSet d m s) :=
  ⟨rfl, fun a h => modeSet_reg_ne s d m a (by simpa using h)⟩

end

/-- The one field of PWR_DOM_CTRL. -/
def modeField : FldDef := ⟨1, 0, .rw, 2, 0, [(0, 2)]⟩

theorem domCtrl_offset (d : Fin 31) : R.PWR_DOM_CTRL d % 4096 = 0x100 + 4 * d.val := by
  unfold R.PWR_DOM_CTRL Pg.pwr
  omega

theorem findReg_domCtrl (d : Fin 31) :
    findReg (R.PWR_DOM_CTRL d % 4096) (regsOf .pwr) = some (⟨0x100, 31, 0x4, 1, 0x0, .any, [modeField]⟩, d.val, 0) := by
  have hfind : ∀ d : Fin 31, findReg (0x100 + 4 * d.val) (regsOf .pwr)
      = some (⟨0x100, 31, 0x4, 1, 0x0, .any, [modeField]⟩, d.val, 0) := by decide
  rw [domCtrl_offset, hfind]

/-- Each of the three modes is stored, and nothing else (R6). -/
theorem fieldsWrite_domCtrl (s : State) (iid : Nat) (d : Fin 31) (m : Fin 3) :
    fieldsWrite iid (R.PWR_DOM_CTRL d) 0xFFFFFFFF#32 (BitVec.ofNat 32 m) [modeField] s = modeSet d m s := by
  have hpage : R.PWR_DOM_CTRL d / 4096 = 0x10 := by
    unfold R.PWR_DOM_CTRL Pg.pwr
    omega
  have hok : ∀ m : Fin 3, modeField.ok (bitsOf (BitVec.ofNat 32 m.val).toNat 1 0) = true := by decide
  exact fieldWrite_store iid (R.PWR_DOM_CTRL d) _ modeField s (.inl rfl) (by decide) (by decide) (hok m)
    (extraOk_plain _ _ _ (by rw [hpage]; decide) (by omega))

theorem writeEffect_domCtrl (q : WriteOutcome) (iid : Nat) (d : Fin 31) (v : Word) (old s : State) :
    writeEffect q iid .pwr 0 (R.PWR_DOM_CTRL d % 4096) 0xFFFFFFFF#32 v old s = modeWritten d (old.domMode d) s := by
  have hdiv : (0x100 + 4 * d.val - 0x100) / 4 = d.val := by omega
  have hc : 0x100 ≤ 0x100 + 4 * d.val ∧ 0x100 + 4 * d.val < 0x17C ∧ (0xFFFFFFFF#32).getLsbD 0 = true :=
    ⟨by omega, by omega, by decide⟩
  simp only [domCtrl_offset, writeEffect, if_pos hc, hdiv]

/-- A permitted MODE write stores MODE and then acts as R473 and R475 say. -/
theorem exec_modeCmd (s : State) (iid : Fin 24) (d : Fin 31) (m : Fin 3) (h : s.Admits iid (R.PWR_DOM_CTRL d) .pwr 0) :
    exec (modeCmd iid d m) s = .next (attributeErr iid (R.PWR_DOM_CTRL d) (modeSet d m s)
      (modeWritten d (s.domMode d) (modeSet d m s))) := by
  have hexec : exec (modeCmd iid d m) s = .next (wordWrite iid (R.PWR_DOM_CTRL d) (BitVec.ofNat 32 m) s) := by
    fin_cases m <;> rfl
  have hneeds : ∀ d : Fin 31, needsOutcome (R.PWR_DOM_CTRL d) = false := by decide
  rw [hexec, wordWrite_block iid (R.PWR_DOM_CTRL d) _ s .pwr 0 _ _ _ h (hneeds d) (by rw [domCtrl_offset]; omega)
    (findReg_domCtrl d) rfl rfl, fieldsWrite_domCtrl, writeEffect_domCtrl]

section
variable (s : State) (iid : Fin 24) (d : Fin 31) (m : Fin 3) (h : s.Admits iid (R.PWR_DOM_CTRL d) .pwr 0)
include h

/-- A refused MODE write keeps MODE and the domain's state, and says why (R475). -/
theorem modeCmd_refused (why : Nat) (hw : s.modeRefuse d m = why) (h0 : why ≠ 0) (h8 : why < 8) :
    ∃ t, exec (modeCmd iid d m) s = .next t ∧ t.domMode d = s.domMode d ∧ t.domSt d = s.domSt d
      ∧ t.fld (R.PWR_DOM_STATUS d) F.PWR_DOM_STATUS_REFUSE = why
      ∧ t.counter (cntKey Pg.pwr 5) = (s.counter (cntKey Pg.pwr 5) + 1) % 2 ^ 64
      ∧ bitOf (t.reg (Pg.pwr + Hdr.errStat)).toNat E.pwr_MODE_REFUSED = true := by
  have hkeep (u : State) (b : Nat) (hb : b ≠ Pg.pwr + Hdr.errFirst) :
      (attributeErr iid (R.PWR_DOM_CTRL d) (modeSet d m s) u).reg b = u.reg b :=
    attributeErr_reg_ne _ _ _ _ _ (by rw [domCtrl_base]; exact hb)
  have hold : modeWritten d (s.domMode d) (modeSet d m s)
      = modeRefused d why ((modeSet d m s).setFld (R.PWR_DOM_CTRL d) F.PWR_DOM_CTRL_MODE (s.domMode d)) := by
    have hr : (modeSet d m s).modeRefuse d ((modeSet d m s).domMode d) = why := by rw [modeSet_mode s d m (by omega)]; exact hw
    rw [modeWritten, hr]
    exact if_pos h0
  have hstatus : ((modeSet d m s).setFld (R.PWR_DOM_CTRL d) F.PWR_DOM_CTRL_MODE (s.domMode d)).domSt d = s.domSt d :=
    (domSt_of_reg (State.reg_setFld_ne _ _ _ _ _ (domStatus_ne_ctrl d))).trans (modeSet_domSt s d m)
  have hmode := wordFld_lt (s.reg (R.PWR_DOM_CTRL d)) F.PWR_DOM_CTRL_MODE
  refine ⟨_, exec_modeCmd s iid d m h, ?_, ?_, ?_, ?_, ?_⟩ <;> rw [hold]
  · rw [domMode_of_reg (hkeep _ _ (domCtrl_ne_header (by decide))), domMode_of_reg (modeRefused_reg _ _ _ _
      (domCtrl_ne_header (by decide)) (domCtrl_ne_header (by decide)) (domStatus_ne_ctrl d).symm), State.domMode,
      State.fld_setFld_same _ _ _ _ (by decide)]
    exact Nat.mod_eq_of_lt hmode
  · rw [domSt_of_reg (hkeep _ _ (domStatus_ne_header (by decide))), modeRefused_domSt, hstatus]
  · rw [State.fld, hkeep _ _ (domStatus_ne_header (by decide))]
    exact modeRefused_refuse _ _ _ h8
  · rw [attributeErr_counter, modeRefused_counter]
    rfl
  · rw [hkeep _ _ (by decide)]
    exact modeRefused_flags _ _ _

/-- An accepted MODE that wakes nothing is stored, and nothing else (R473). -/
theorem modeCmd_sets (hr : s.modeRefuse d m = 0) (hq : m ≠ 2 ∨ s.domState d = 2) :
    ∃ t, exec (modeCmd iid d m) s = .next t ∧ t.domMode d = m ∧ OnlyRegs [R.PWR_DOM_CTRL d] s t := by
  have hmode := modeSet_mode s d m (by omega)
  have hr1 : (modeSet d m s).modeRefuse d ((modeSet d m s).domMode d) = 0 := by rw [hmode]; exact hr
  have hstate : (modeSet d m s).domState d = s.domState d := congrArg Prod.fst (modeSet_domSt s d m)
  have hold : modeWritten d (s.domMode d) (modeSet d m s) = modeSet d m s := by
    unfold modeWritten
    dsimp only
    rw [if_neg (by simp [hr1])]
    split
    · rename_i hw
      have hm2 : m = 2 := by
        have : (modeSet d m s).domMode d = 2 := by simp only [Bool.and_eq_true, decide_eq_true_eq] at hw; exact hw.1
        omega
      have h2 : (modeSet d m s).domState d = 2 := hstate.trans (hq.resolve_left (fun k => k hm2))
      exact wakeDom_on _ _ _ h2
    · rfl
  refine ⟨modeSet d m s, ?_, hmode, modeSet_onlyRegs s d m⟩
  rw [exec_modeCmd s iid d m h, hold, attributeErr_quiet _ _ _ _ rfl]

end

/-- MODE 0b10 wakes a domain that is not exiting (R473). -/
theorem domModeOn_wakes (s : State) (iid : Fin 24) (d : Fin 31) (h : s.Admits iid (R.PWR_DOM_CTRL d) .pwr 0)
    (hd : s.disabled d = false) (hp : s.fld (R.PWR_DOM_STATUS d) F.PWR_DOM_STATUS_PHASE ≠ 2) :
    exec (.domModeOn iid d) s
      = .next (attributeErr iid (R.PWR_DOM_CTRL d) (modeSet d 2 s) (wakeDom d false (modeSet d 2 s))) := by
  have hmode : (modeSet d 2 s).domMode d = 2 := modeSet_mode s d 2 (by decide)
  have hr : (modeSet d 2 s).modeRefuse d 2 = 0 := modeRefuse_kept _ d 2 hd (by decide) (fun _ => rfl)
  have hphase : (modeSet d 2 s).fld (R.PWR_DOM_STATUS d) F.PWR_DOM_STATUS_PHASE ≠ 2 :=
    fun e => hp ((congrArg Prod.snd (modeSet_domSt s d 2)).symm.trans e)
  refine (exec_modeCmd s iid d 2 h).trans (congrArg _ (congrArg _ ?_))
  show modeWritten d (s.domMode d) (modeSet d 2 s) = _
  simp [modeWritten, hmode, hr, hphase]

/-- MODE 0b10 on a domain in retention or off starts its exit (R473). -/
theorem domModeOn_exit (s : State) (iid : Fin 24) (d : Fin 31) (h : s.Admits iid (R.PWR_DOM_CTRL d) .pwr 0)
    (hd : s.disabled d = false) (hst : s.domSt d = (0, 0) ∨ s.domSt d = (1, 0)) (ht : s.tripped = false) :
    ∃ t, exec (.domModeOn iid d) s = .next t ∧ t.domMode d = 2 ∧ t.domSt d = (3, 2)
      ∧ (t.dom d).exitFrom = s.domState d ∧ t.flag R.CLK_STATUS F.CLK_STATUS_PLL_ON = true := by
  have hphase : (s.domSt d).2 = 0 := by rcases hst with e | e <;> rw [e]
  have hstate : (s.domSt d).1 = 0 ∨ (s.domSt d).1 = 1 := hst.imp (congrArg Prod.fst) (congrArg Prod.fst)
  have hmode : (modeSet d 2 s).domMode d = 2 := modeSet_mode s d 2 (by decide)
  have hsame : (modeSet d 2 s).domState d = s.domState d := congrArg Prod.fst (modeSet_domSt s d 2)
  let u := (modeSet d 2 s).setDom d { (modeSet d 2 s).dom d with wakeHeld := false, unplanned := false }
  have hdom : u.dom d = { (modeSet d 2 s).dom d with wakeHeld := false, unplanned := false } := State.dom_setDom_same _ _ _
  have hb : s.booted = true := by obtain ⟨⟨hb, _⟩, _⟩ := h; exact hb
  have hwake : wakeDom d false (modeSet d 2 s) = exitBegun d u := by
    have hx : startExit d u = exitBegun d u := by
      rw [startExit_eq d u ((modeSet_tripped s d 2 d.isLt).trans ht) hd ((modeSet_booted s d 2 d.isLt).trans hb), exitCounted, hdom]
      rfl
    rw [← hx]
    have : (modeSet d 2 s).domState d = 0 ∨ (modeSet d 2 s).domState d = 1 := by rw [hsame]; exact hstate
    rcases this with e | e <;> simp only [wakeDom, e] <;> rfl
  refine ⟨exitBegun d u, ?_, ?_, exitBegun_domSt d u d.isLt, ?_, exitBegun_pllOn d u⟩
  · rw [domModeOn_wakes s iid d h hd (by rw [show s.fld _ _ = _ from hphase]; decide), hwake, attributeErr_quiet]
    rw [domCtrl_base]
    exact exitBegun_reg d u _ (domStatus_ne_header (by decide)).symm (by decide)
  · rw [domMode_of_reg (exitBegun_reg d u _ (domStatus_ne_ctrl d).symm (domCtrl_ne_clk d.isLt))]
    exact hmode
  · rw [exitBegun_exitFrom]
    exact hsame

/-- MODE 0b10 on a domain that enters is held until its entry ends (R24). -/
theorem domModeOn_held (s : State) (iid : Fin 24) (d : Fin 31) (h : s.Admits iid (R.PWR_DOM_CTRL d) .pwr 0)
    (hd : s.disabled d = false) (hst : s.domSt d = (3, 1)) :
    ∃ t, exec (.domModeOn iid d) s = .next t ∧ t.domMode d = 2 ∧ t.domSt d = (3, 1) ∧ (t.dom d).wakeHeld = true
      ∧ t.fld (R.PWR_DOM_STATUS d) F.PWR_DOM_STATUS_WAKE_HELD = 1 := by
  have hmode : (modeSet d 2 s).domMode d = 2 := modeSet_mode s d 2 (by decide)
  have hst' : (modeSet d 2 s).domSt d = (3, 1) := (modeSet_domSt s d 2).trans hst
  have hphase : s.fld (R.PWR_DOM_STATUS d) F.PWR_DOM_STATUS_PHASE ≠ 2 := by
    rw [show s.fld (R.PWR_DOM_STATUS d) F.PWR_DOM_STATUS_PHASE = 1 from congrArg Prod.snd hst]; decide
  let u := (modeSet d 2 s).setDom d { (modeSet d 2 s).dom d with wakeHeld := true }
  have hwake : wakeDom d false (modeSet d 2 s) = u.setFld (R.PWR_DOM_STATUS d) F.PWR_DOM_STATUS_WAKE_HELD 1 := by
    have h3 : (modeSet d 2 s).domState d = 3 := congrArg Prod.fst hst'
    have h1 : (modeSet d 2 s).fld (R.PWR_DOM_STATUS d) F.PWR_DOM_STATUS_PHASE = 1 := congrArg Prod.snd hst'
    simp only [wakeDom, h3, h1, if_true, Bool.or_false]
    rfl
  refine ⟨u.setFld (R.PWR_DOM_STATUS d) F.PWR_DOM_STATUS_WAKE_HELD 1, ?_, ?_, ?_, ?_, State.fld_setFld_same _ _ _ _ (by decide)⟩
  · rw [domModeOn_wakes s iid d h hd hphase, hwake, attributeErr_quiet]
    rw [domCtrl_base]
    exact State.reg_setFld_ne _ _ _ _ _ (domStatus_ne_header (by decide)).symm
  · rw [domMode_of_reg (State.reg_setFld_ne _ _ _ _ _ (domStatus_ne_ctrl d).symm)]
    exact hmode
  · rw [setFld_domSt _ _ _ _ (by decide) (by decide)]
    exact hst'
  · exact congrArg Dom.wakeHeld (State.dom_setDom_same _ _ _)

/-! ### Entry (R472, R473, R475 to R477) -/

section
variable (s : State) (d : Nat)

/-- A domain that is not at its wait, or that MODE keeps on, or that is off or in transition, does not begin an entry. -/
theorem domainEntry_stays (h : s.atWait d = false ∨ 2 ≤ s.domMode d ∨ s.domState d = 0 ∨ s.domState d = 3) :
    domainEntry d s = s := by
  unfold domainEntry
  dsimp only
  split
  · rfl
  · rename_i hn
    have h03 : s.domState d = 0 ∨ s.domState d = 3 := by
      rcases h with h | h | h
      · exact absurd (.inr (.inr (by simp [h]))) hn
      · exact absurd (.inr (.inl h)) hn
      · exact h
    rw [if_neg (by omega), if_neg (by omega)]

variable (ht : s.tripped = false) (hw : s.atWait d = true)
include ht hw

theorem domainEntry_on (h2 : s.domState d = 2) (hm : s.domMode d < 2) (hr : s.modeRefuse d 0 ≠ 1) :
    domainEntry d s = setDomState d 3 1 (s.setDom d { s.dom d with target := s.domMode d }) := by
  have hm : ¬ 2 ≤ s.domMode d := by omega
  simp [domainEntry, ht, hw, hm, h2, hr]

/-- A tier that holds owned pages keeps them: it goes to retention, and shows why (R475). -/
theorem domainEntry_owned (h2 : s.domState d = 2) (hm : s.domMode d = 0) (hr : s.modeRefuse d 0 = 1) :
    domainEntry d s
      = setDomState d 3 1 ((modeRefused d 1 s).setDom d { (modeRefused d 1 s).dom d with target := 1 }) := by
  simp [domainEntry, ht, hw, hm, h2, hr]

theorem domainEntry_retention (h1 : s.domState d = 1) (hm : s.domMode d = 0) (hr : s.modeRefuse d 0 ≠ 1) :
    domainEntry d s = setDomState d 3 1 (s.setDom d { s.dom d with target := 0 }) := by
  simp [domainEntry, ht, hw, hm, h1, hr]

end

theorem domainEntry_owned_shows (s : State) (d : Nat) (ht : s.tripped = false) (hw : s.atWait d = true)
    (h2 : s.domState d = 2) (hm : s.domMode d = 0) (hr : s.modeRefuse d 0 = 1) :
    let t := domainEntry d s
    t.domSt d = (3, 1) ∧ (t.dom d).target = 1 ∧ t.domMode d = 0
      ∧ t.fld (R.PWR_DOM_STATUS d) F.PWR_DOM_STATUS_REFUSE = 1 := by
  have hne := (domStatus_ne_ctrl d).symm
  dsimp only
  rw [domainEntry_owned s d ht hw h2 hm hr]
  refine ⟨setDomState_domSt _ _ _ _, congrArg Dom.target (State.dom_setDom_same _ _ _), ?_, ?_⟩
  · rw [domMode_of_reg (setDomState_reg_ne _ _ _ _ _ hne), ← hm]
    exact domMode_of_reg (modeRefused_reg _ _ _ _ (domCtrl_ne_header (by decide)) (domCtrl_ne_header (by decide)) hne)
  · rw [setDomState_fld _ _ _ _ _ (by decide)]
    exact modeRefused_refuse s d 1 (by decide)

/-! ### The end of an entry (R24, R466, R477) -/

section
variable (s : State) (d : Nat)

theorem pllIdle_reg (a : Nat) (h : a ≠ R.CLK_STATUS) : (pllIdle s).reg a = s.reg a := by
  unfold pllIdle
  split
  · rfl
  · rw [State.reg_setFld_ne _ _ _ _ _ h, State.reg_setFld_ne _ _ _ _ _ h]

theorem pllIdle_counter (k : Nat) : (pllIdle s).counter k = s.counter k := by unfold pllIdle; split <;> rfl

theorem pllIdle_dom (e : Nat) : (pllIdle s).dom e = s.dom e := by unfold pllIdle; split <;> rfl

theorem anyBelow_false (n : Nat) (p : Nat → Bool) (h : ∀ k, k < n → p k = false) : anyBelow n p = false := by
  induction n with
  | zero => rfl
  | succ n ih => rw [anyBelow, ih fun k hk => h k (by omega), h n (by omega)]; rfl

/-- The root PLL stops with the last domain (R466). -/
theorem pllIdle_stops (h : ∀ e, e < 30 → s.domState e < 2) : (pllIdle s).flag R.CLK_STATUS F.CLK_STATUS_PLL_ON = false := by
  have hn : anyBelow 30 (fun d => decide (2 ≤ s.domState d)) = false :=
    anyBelow_false _ _ fun e he => decide_eq_false (by have := h e he; omega)
  rw [pllIdle, hn, if_neg (by decide), State.flag, State.fld_setFld_other _ _ _ _ _ (by decide) (by decide),
    State.fld_setFld_same _ _ _ _ (by decide)]
  rfl

/-- The entry of domain `d` is complete: it is in its target state, and counted. -/
def entered (d : Nat) (s : State) : State :=
  (setDomState d (s.dom d).target 0 s).count Pg.pwr (if (s.dom d).target = 1 then 0 else 1) 1

theorem entered_domSt (h : (s.dom d).target ≤ 1) : (entered d s).domSt d = ((s.dom d).target, 0) := by
  refine (domSt_of_reg rfl).trans ((setDomState_domSt d _ _ s).trans ?_)
  rw [Nat.mod_eq_of_lt (by omega)]

theorem entered_reg (a : Nat) (h : a ≠ R.PWR_DOM_STATUS d) : (entered d s).reg a = s.reg a := setDomState_reg_ne _ _ _ _ _ h

theorem entered_counter : (entered d s).counter (cntKey Pg.pwr (if (s.dom d).target = 1 then 0 else 1))
    = (s.counter (cntKey Pg.pwr (if (s.dom d).target = 1 then 0 else 1)) + 1) % 2 ^ 64 := State.counter_count_same _ _ _ _

theorem entered_counter_wakes : (entered d s).counter (cntKey Pg.pwr 3) = s.counter (cntKey Pg.pwr 3) := by
  refine State.counter_count_ne _ _ _ _ _ ?_
  split <;> decide

theorem domainEntryDone_eq (hst : s.domSt d = (3, 1)) (ht : s.tripped = false) :
    domainEntryDone d s = pllIdle (if (s.dom d).wakeHeld then startExit d (entered d s) else entered d s) := by
  have h3 : s.domState d = 3 := congrArg Prod.fst hst
  have h1 : s.fld (R.PWR_DOM_STATUS d) F.PWR_DOM_STATUS_PHASE = 1 := congrArg Prod.snd hst
  simp [domainEntryDone, h3, h1, ht, entered]

theorem domainEntryDone_else (hst : s.domSt d ≠ (3, 1)) : domainEntryDone d s = s := by
  refine if_pos ?_
  by_contra hn
  push Not at hn
  exact hst (Prod.ext hn.1 hn.2.1)

end

end Sys2Proof.Machine
end

section
/-! PROOFS. Power domains, continued (R24, R62, R146, R466, R478, R484): the exit that ends an entry, and what a domain finds as
it leaves off or retention. -/

namespace Sys2Proof.Machine

/-! ### The end of an entry (R24) -/

section
variable (s : State) (d : Nat)

theorem startExit_counter_ne (k : Nat) (h3 : k ≠ cntKey Pg.pwr 3) (h4 : k ≠ cntKey Pg.pwr 4) :
    (startExit d s).counter k = s.counter k := by
  by_cases h : s.tripped = false ∧ s.disabled d = false ∧ s.booted = true
  · rw [startExit_eq d s h.1 h.2.1 h.2.2, exitCounted_counter_ne _ _ _ _ h3 h4]
    rfl
  · have hn : s.flag R.CLK_STATUS F.CLK_STATUS_TRIP ∨ s.disabled d ∨ !s.booted := by
      by_contra hc
      simp only [not_or, Bool.not_eq_true, Bool.not_eq_false'] at hc
      exact h hc
    rw [startExit, if_pos hn]

/-- Every end of an entry is counted by its target (R490). -/
theorem domainEntryDone_counter (hst : s.domSt d = (3, 1)) (ht : s.tripped = false) :
    (domainEntryDone d s).counter (cntKey Pg.pwr (if (s.dom d).target = 1 then 0 else 1))
      = (s.counter (cntKey Pg.pwr (if (s.dom d).target = 1 then 0 else 1)) + 1) % 2 ^ 64 := by
  rw [domainEntryDone_eq s d hst ht, pllIdle_counter]
  split
  · rw [startExit_counter_ne, entered_counter] <;> split <;> decide
  · exact entered_counter s d

/-- An entry without a wake ends in its target state, and the root PLL stops with the last domain (R466). -/
theorem domainEntryDone_rests (hd : d < 31) (hst : s.domSt d = (3, 1)) (ht : s.tripped = false) (htar : (s.dom d).target ≤ 1)
    (hw : (s.dom d).wakeHeld = false) :
    let t := domainEntryDone d s
    t.domSt d = ((s.dom d).target, 0)
      ∧ ((∀ e, e < 30 → e ≠ d → s.domState e < 2) → d < 30 → t.flag R.CLK_STATUS F.CLK_STATUS_PLL_ON = false) := by
  have hsame := entered_domSt s d htar
  dsimp only
  rw [domainEntryDone_eq s d hst ht, hw, if_neg (by decide)]
  refine ⟨(domSt_of_reg (pllIdle_reg _ _ (domStatus_ne_clk hd))).trans hsame, fun hall _ => pllIdle_stops _ fun e he => ?_⟩
  by_cases h : e = d
  · rw [h, show (entered d s).domState d = (s.dom d).target from congrArg Prod.fst hsame]
    omega
  · rw [show (entered d s).domState e = s.domState e from
      congrArg Prod.fst (domSt_of_reg (entered_reg s d _ (domStatus_ne h)))]
    exact hall e he h

/-- An entry that a wake waits for ends in the exit (R24). -/
theorem domainEntryDone_wakes (hd : d < 31) (hst : s.domSt d = (3, 1)) (ht : s.tripped = false) (htar : (s.dom d).target ≤ 1)
    (hw : (s.dom d).wakeHeld = true) (hb : s.booted = true) (hdis : s.disabled d = false) :
    let t := domainEntryDone d s
    t.domSt d = (3, 2) ∧ (t.dom d).exitFrom = (s.dom d).target
      ∧ t.counter (cntKey Pg.pwr 3) = (s.counter (cntKey Pg.pwr 3) + 1) % 2 ^ 64 := by
  have hne := domStatus_ne_clk hd
  have ht' : (entered d s).tripped = false := by
    rw [← ht]
    simp only [State.tripped, State.flag, State.fld, entered_reg s d _ hne.symm]
  have hb' : (entered d s).booted = true := by
    have h1 : R.SEC_BOOT ≠ R.PWR_DOM_STATUS d := by
      unfold R.SEC_BOOT R.PWR_DOM_STATUS Pg.secBoot Pg.pwr
      omega
    have h2 : R.TST_MODE ≠ R.PWR_DOM_STATUS d := by
      unfold R.TST_MODE R.PWR_DOM_STATUS Pg.tstMode Pg.pwr
      omega
    rw [← hb]
    simp only [State.booted, State.fld, entered_reg s d _ h1, entered_reg s d _ h2]
  have hfrom : (entered d s).domState d = (s.dom d).target := congrArg Prod.fst (entered_domSt s d htar)
  dsimp only
  have hw' : ((entered d s).dom d).wakeHeld = true := hw
  rw [domainEntryDone_eq s d hst ht, if_pos hw, startExit_eq d _ ht' hdis hb']
  refine ⟨?_, ?_, ?_⟩
  · rw [domSt_of_reg (pllIdle_reg _ _ hne), domSt_of_reg (exitCounted_reg d _ _ _ (domStatus_ne_header (by decide))
      (domStatus_ne_header (by decide)))]
    exact exitBegun_domSt d _ hd
  · rw [pllIdle_dom, exitCounted_dom, exitBegun_exitFrom, hfrom]
  · rw [pllIdle_counter, exitCounted_held d _ _ hw']
    exact congrArg (fun c => (c + 1) % 2 ^ 64) (entered_counter_wakes s d)

end

/-! ### Tables without a range of keys -/

theorem Tab.find_filter {β : Type} (t : List (Nat × β)) (p : Nat → Bool) (k : Nat) :
    Tab.find (t.filter (fun q => p q.1)) k = if p k then Tab.find t k else none := by
  induction t with
  | nil => simp [Tab.find]
  | cons q t ih =>
    obtain ⟨i, v⟩ := q
    rw [List.filter_cons]
    by_cases hik : i = k
    · subst hik
      by_cases hp : p i <;> simp [hp, Tab.find, ih]
    · by_cases hp : p i <;> simp [hp, Tab.find, ih, hik]

theorem Tab.get_filter {β : Type} (t : List (Nat × β)) (d : β) (p : Nat → Bool) (k : Nat) :
    Tab.get (t.filter (fun q => p q.1)) d k = if p k then Tab.get t d k else d := by
  unfold Tab.get
  rw [Tab.find_filter]
  split <;> rfl

theorem Tab.mem_set {β : Type} (t : List (Nat × β)) (k : Nat) (v : β) (q : Nat × β) (h : q ∈ Tab.set t k v) :
    q = (k, v) ∨ q ∈ t := by
  induction t with
  | nil => exact .inl (List.mem_singleton.mp h)
  | cons c t ih =>
    obtain ⟨i, w⟩ := c
    unfold Tab.set at h
    split at h
    · rcases List.mem_cons.mp h with rfl | h
      · exact .inl rfl
      · exact .inr (List.mem_cons_of_mem _ h)
    · rcases List.mem_cons.mp h with rfl | h
      · exact .inr (List.mem_cons_self ..)
      · exact (ih h).imp_right (List.mem_cons_of_mem _)

/-! ### Held commits (R25, R56): with none pending, none is applied -/

/-- No page has a pending commit. -/
def NoPend (s : State) : Prop := ∀ q ∈ s.txns, q.2.pend = []

theorem NoPend.txn {s : State} (h : NoPend s) (pg : Nat) : (s.txn pg).pend = [] := by
  unfold State.txn Tab.get
  cases hf : Tab.find s.txns pg with
  | none => rfl
  | some x => exact h _ (Tab.mem_of_find _ _ _ hf)

theorem NoPend.setTxn {s : State} (h : NoPend s) (pg : Nat) (x : PageTxn) (hx : x.pend = []) : NoPend (s.setTxn pg x) :=
  fun q hq => by
    rcases Tab.mem_set _ _ _ _ hq with rfl | hq
    · exact hx
    · exact h q hq

theorem applyReached_idle (pg n : Nat) (s : State) (h : (s.txn pg).pend = []) : applyReached pg n s = s := by
  cases n with
  | zero => rfl
  | succ n =>
    have hr : s.headReady pg = false := by simp [State.headReady, h]
    simp [applyReached, hr]

theorem applyHeld_idle (d : Nat) (s : State) (h : NoPend s) : ∃ x, applyHeld d s = { s with txns := x } := by
  have key := foldl_rel (fun s t : State => NoPend s → NoPend t ∧ t = { s with txns := t.txns }) (fun _ hs => ⟨hs, rfl⟩)
    (fun s t u h1 h2 hs => by
      obtain ⟨ht, e1⟩ := h1 hs
      obtain ⟨hu, e2⟩ := h2 ht
      exact ⟨hu, by rw [e2, e1]⟩)
    (fun (t : State) (q : Nat × PageTxn) =>
      match pageAt q.1 with
      | some (row, i) =>
        if pageDomain row.kind i = d ∧ d ≠ 30 then
          applyReached q.1 4 (t.setTxn q.1 { t.txn q.1 with
            pend := (t.txn q.1).pend.map (fun c => if c.reached then { c with late := true } else c) })
        else t
      | none => t)
    (fun t q ht => by
      have hx : ((t.txn q.1).pend.map fun c => if c.reached then { c with late := true } else c) = [] := by
        rw [ht.txn]; rfl
      have hn := ht.setTxn q.1 { t.txn q.1 with
        pend := (t.txn q.1).pend.map (fun c => if c.reached then { c with late := true } else c) } hx
      split
      · split
        · rw [applyReached_idle _ _ _ (hn.txn _)]
          exact ⟨hn, rfl⟩
        · exact ⟨ht, rfl⟩
      · exact ⟨ht, rfl⟩)
    s.txns s h
  exact ⟨_, key.2⟩

/-! ### What a reset of a domain's registers keeps (R478) -/

/-- Whether the page of a BAR0 offset lies in domain `d`. -/
def inDomain (d a : Nat) : Bool :=
  match pageAt (a / 4096) with
  | some (r, i) => pageDomain r.kind i == d
  | none => false

/-- Whether a register keeps its value through a reset of its domain. -/
def keptAt (a : Nat) : Bool :=
  match pageAt (a / 4096) with
  | some (r, _) => decide (a % 4096 < 0x100) || keptReg r.kind (a % 4096)
  | none => true

section
variable (s : State) (d : Nat)

theorem resetDomain_eq : resetDomain d s = { s with
    regs := s.regs.filter (fun q => !inDomain d q.1 || keptAt q.1)
    cnt := s.cnt.filter (fun q => !inDomain d q.1) } := rfl

theorem resetDomain_reg (a : Nat) :
    (resetDomain d s).reg a = if !inDomain d a || keptAt a then s.reg a else regReset a := by
  rw [resetDomain_eq]
  unfold State.reg
  dsimp only
  rw [Tab.find_filter _ (fun a => !inDomain d a || keptAt a)]
  cases !inDomain d a || keptAt a <;> rfl

theorem resetDomain_counter (k : Nat) : (resetDomain d s).counter k = if inDomain d k then 0 else s.counter k := by
  rw [resetDomain_eq]
  unfold State.counter
  dsimp only
  rw [Tab.get_filter _ _ (fun a => !inDomain d a)]
  cases inDomain d k <;> rfl

/-- The pages of the power controller lie in the Breeze domain, so no other domain's reset reaches them (R37). -/
theorem inDomain_pwr (a : Nat) (ha : a / 4096 = 0x10) (hd : d < 30) : inDomain d a = false := by
  have hp : pageAt 0x10 = some (⟨.pwr, 0x10, 1, 1, 0x3, .cycle, 6, 2⟩, 0) := by decide
  have h30 : ¬ 30 = d := by omega
  simp [inDomain, ha, hp, pageDomain, h30]

/-- A core's semaphores are reset with its domain. -/
theorem resetDomain_seqSem (d : Fin 18) (k : Fin 64) : (resetDomain d s).reg (R.SEQ_SEM d k) = 0 := by
  have hdiv : R.SEQ_SEM d k / 4096 = 0x102 + 16 * d.val := by
    unfold R.SEQ_SEM Pg.seq
    omega
  have hmod : R.SEQ_SEM d k % 4096 = 0x200 + 4 * k.val := by
    unfold R.SEQ_SEM Pg.seq
    omega
  have hpage : ∀ d : Fin 18, pageAt (0x102 + 16 * d.val)
      = some (⟨.seq, 0x102, 18, 16, 0x12, .operation, 0, 0⟩, d.val) := by decide
  have hreg : ∀ k : Fin 64, findReg (0x200 + 4 * k.val) (regsOf .seq)
      = some (⟨0x200, 64, 0x4, 1, 0x0, .any, [⟨15, 0, .rw, 0, 0, []⟩, ⟨16, 16, .w1c, 0, 0, []⟩]⟩, k.val, 0) := by decide
  have hblock : 0x100 ≤ 0x200 + 4 * k.val := by omega
  have hin : inDomain d (R.SEQ_SEM d k) = true := by simp [inDomain, hdiv, hpage, pageDomain]
  have hkept : keptAt (R.SEQ_SEM d k) = false := by
    simp [keptAt, hdiv, hpage, hmod, hblock, keptReg, hreg]
  have hreset : regReset (R.SEQ_SEM d k) = 0 := by
    simp [regReset, hdiv, hpage, hmod, Nat.not_lt.mpr hblock, hreg, fieldsReset]
  rw [resetDomain_reg, hin, hkept]
  exact hreset

end

/-! ### A core's memories as it comes back (R62, R146) -/

section
variable (s : State) (n : Nat)

theorem rowByte_zeroRows (lo hi r b : Nat) (h : b < 512) :
    (zeroRows n lo hi s).rowByte n r b = if lo ≤ r ∧ r < hi then 0 else s.rowByte n r b := by
  refine (Memory.read_zero _ _ _ _).trans ?_
  unfold State.rowByte rowAddr
  by_cases hr : lo ≤ r ∧ r < hi
  · rw [if_pos hr, if_pos (by omega)]
  · rw [if_neg hr, if_neg (by omega)]

theorem rowTag_zeroRows (lo hi r : Nat) (h : lo ≤ r ∧ r < hi) : (zeroRows n lo hi s).rowTag n r = 0 := by
  refine (Tab.get_filter _ _ (fun k => decide (k < 65536 * n + lo ∨ 65536 * n + hi ≤ k)) _).trans (if_neg ?_)
  simp only [decide_eq_true_eq]
  omega

/-- A core that comes back from retention has lost the rows of the groups that were not kept. -/
theorem rowByte_coreFromRetention (r b : Nat) (hr : r < 49152) (hb : b < 512) : (coreFromRetention n s).rowByte n r b
    = if (s.keptGroups n).contains (r / 2048) then s.rowByte n r b else 0 := by
  have key (l : List Nat) (u : State) :
      (l.foldl (fun t g => if (s.keptGroups n).contains g then t else zeroRows n (2048 * g) (2048 * g + 2048) t) u).rowByte n r b
        = if r / 2048 ∈ l ∧ (s.keptGroups n).contains (r / 2048) = false then 0 else u.rowByte n r b := by
    induction l generalizing u with
    | nil => simp
    | cons g l ih =>
      rw [List.foldl_cons, ih]
      by_cases hg : r / 2048 = g
      · subst hg
        have hin : 2048 * (r / 2048) ≤ r ∧ r < 2048 * (r / 2048) + 2048 := by omega
        cases hk : (s.keptGroups n).contains (r / 2048)
        · simp [rowByte_zeroRows _ _ _ _ _ _ hb, hin]
        · simp
      · have hz : (if (s.keptGroups n).contains g then u else zeroRows n (2048 * g) (2048 * g + 2048) u).rowByte n r b
            = u.rowByte n r b := by
          split
          · rfl
          · rw [rowByte_zeroRows _ _ _ _ _ _ hb, if_neg (by omega)]
        rw [hz]
        simp [hg]
  have hmem : r / 2048 ∈ List.range 24 := List.mem_range.mpr (by omega)
  rw [coreFromRetention, key]
  cases hk : (s.keptGroups n).contains (r / 2048) <;> simp [hmem]

theorem coreFromRetention_frame :
    coreFromRetention n s = { s with spad := (coreFromRetention n s).spad, rowPoison := (coreFromRetention n s).rowPoison } :=
  foldl_rel (fun s t : State => t = { s with spad := t.spad, rowPoison := t.rowPoison }) (fun _ => rfl)
    (fun s t u h k => by rw [k, h]) _ (fun t g => by split <;> rfl) _ _

theorem slot_coreFromOff (i : Nat) (h : i < 16384) : (coreFromOff n s).slot n i = 0 := by
  refine (Tab.get_filter _ _ (fun k => k / 16384 != n) _).trans (if_neg ?_)
  have hdiv : (n * 16384 + i) / 16384 = n := by omega
  simp [hdiv]

theorem coreFromOff_retireWhy : ((coreFromOff n s).core n).retireWhy = (s.core n).retireWhy := by
  show ((State.setCore _ n _).core n).retireWhy = _
  rw [State.core_setCore_same]

end

/-! ### What a domain finds as it leaves off or retention (R478, R484) -/

/-- What no exit below Breeze touches: the scheduler, the Breeze tier, transactions, and the power controller's registers and
counters. -/
def ExitKeeps (s t : State) : Prop :=
  t.ctl = s.ctl ∧ t.brz = s.brz ∧ t.txns = s.txns ∧ (∀ a, a / 4096 = 0x10 → t.reg a = s.reg a)
    ∧ ∀ k, k / 4096 = 0x10 → t.counter k = s.counter k

theorem ExitKeeps.refl (s : State) : ExitKeeps s s := ⟨rfl, rfl, rfl, fun _ _ => rfl, fun _ _ => rfl⟩

theorem ExitKeeps.trans {s t u : State} (h : ExitKeeps s t) (k : ExitKeeps t u) : ExitKeeps s u := by
  obtain ⟨h1, h2, h3, h4, h5⟩ := h
  obtain ⟨k1, k2, k3, k4, k5⟩ := k
  exact ⟨k1.trans h1, k2.trans h2, k3.trans h3, fun a ha => (k4 a ha).trans (h4 a ha), fun c hc => (k5 c hc).trans (h5 c hc)⟩

/-- A register outside the power controller's page. -/
theorem ExitKeeps.setFld (s : State) (a : Nat) (f : Fld) (v : Nat) (h : a / 4096 ≠ 0x10) : ExitKeeps s (s.setFld a f v) :=
  ⟨rfl, rfl, rfl, fun _ hb => State.reg_setFld_ne _ _ _ _ _ (fun e => h (e ▸ hb)), fun _ _ => rfl⟩

theorem ExitKeeps.modCore (s : State) (n : Nat) (f : Core → Core) : ExitKeeps s (s.modCore n f) :=
  ⟨rfl, rfl, rfl, fun _ _ => rfl, fun _ _ => rfl⟩

theorem exitKeeps_resetDomain (s : State) (d : Nat) (hd : d < 30) : ExitKeeps s (resetDomain d s) := by
  refine ⟨rfl, rfl, rfl, fun a ha => ?_, fun k hk => ?_⟩
  · rw [resetDomain_reg, inDomain_pwr d a ha hd]; rfl
  · rw [resetDomain_counter, inDomain_pwr d k hk hd]; rfl

theorem exitKeeps_coreFromOff (s : State) (d : Nat) (hd : d < 30) : ExitKeeps s (coreFromOff d s) :=
  (exitKeeps_resetDomain s d hd).trans ⟨rfl, rfl, rfl, fun _ _ => rfl, fun _ _ => rfl⟩

theorem exitKeeps_coreFromRetention (s : State) (d : Nat) : ExitKeeps s (coreFromRetention d s) := by
  rw [coreFromRetention_frame]
  exact ⟨rfl, rfl, rfl, fun _ _ => rfl, fun _ _ => rfl⟩

/-- A core that comes back waits for nothing and is halted; one that came from off and failed its test is due to retire (R484). -/
def coreRestored (d : Nat) (failed : Bool) (s : State) : State :=
  let u := (s.modCore d (fun c => { c with wait := .none })).setSeqState d Seq.halted
  if failed then u.modCore d (fun c => { c with retireWhy := 4 }) else u

section
variable (d : Nat) (failed : Bool) (s : State)

theorem coreRestored_spad : (coreRestored d failed s).spad = s.spad := by cases failed <;> rfl
theorem coreRestored_rowPoison : (coreRestored d failed s).rowPoison = s.rowPoison := by cases failed <;> rfl
theorem coreRestored_imem : (coreRestored d failed s).imem = s.imem := by cases failed <;> rfl

theorem coreRestored_reg (a : Nat) (h : a ≠ R.SEQ_STATUS d) : (coreRestored d failed s).reg a = s.reg a := by
  cases failed <;> exact State.reg_setFld_ne _ _ _ _ _ h

theorem coreRestored_seqState : (coreRestored d failed s).seqState d = Seq.halted := by
  cases failed <;> exact State.fld_setFld_same _ _ _ _ (by decide)

theorem coreRestored_retireWhy :
    ((coreRestored d failed s).core d).retireWhy = if failed then 4 else (s.core d).retireWhy := by
  have h : ((s.modCore d (fun c => { c with wait := .none })).core d).retireWhy = (s.core d).retireWhy := by
    rw [State.core_modCore_same]
  cases failed
  · exact h
  · unfold coreRestored
    rw [if_pos rfl, State.core_modCore_same]
    rfl

theorem exitKeeps_coreRestored : ExitKeeps s (coreRestored d failed s) := by
  have hpage : R.SEQ_STATUS d / 4096 ≠ 0x10 := by
    unfold R.SEQ_STATUS Pg.seq
    omega
  have h := (ExitKeeps.modCore s d fun c => { c with wait := .none }).trans
    (ExitKeeps.setFld _ (R.SEQ_STATUS d) F.SEQ_STATUS_STATE Seq.halted hpage)
  cases failed
  · exact h
  · exact h.trans (ExitKeeps.modCore _ d fun c => { c with retireWhy := 4 })

end

section
variable (s : State) (d : Nat) (ok : Bool)

theorem restoreDomain_core (hd : d < 18) : restoreDomain d ok s
    = coreRestored d ((s.dom d).exitFrom == 0 && !ok)
      (if (s.dom d).exitFrom = 0 then coreFromOff d s else coreFromRetention d s) := by
  unfold restoreDomain
  dsimp only
  rw [if_pos hd]
  by_cases h : (s.dom d).exitFrom = 0 <;> cases ok <;> simp [coreRestored, h]

theorem exitKeeps_restoreDomain (hd : d < 30) : ExitKeeps s (restoreDomain d ok s) := by
  by_cases hc : d < 18
  · rw [restoreDomain_core s d ok hc]
    refine ExitKeeps.trans ?_ (exitKeeps_coreRestored _ _ _)
    split
    · exact exitKeeps_coreFromOff s d hd
    · exact exitKeeps_coreFromRetention s d
  · have hr := exitKeeps_resetDomain s d hd
    unfold restoreDomain
    dsimp only
    rw [if_neg hc]
    split
    · split
      · exact hr
      · split
        · exact hr
        · split <;> exact hr
    · split
      · have hpage : R.PLM_PORT_STATUS (d - 21) / 4096 ≠ 0x10 := by
          unfold R.PLM_PORT_STATUS Pg.plmPort
          omega
        split
        · exact ExitKeeps.refl s
        · split <;> exact ExitKeeps.setFld _ _ _ _ hpage
      · exact ExitKeeps.refl s

end

/-! ### The end of an exit (R25, R478) -/

/-- Domain `d` is on again, with the root PLL locked. -/
def exitOn (d : Nat) (s : State) : State := setDomState d 2 0 (s.setFld R.CLK_STATUS F.CLK_STATUS_PLL_LOCK 1)

section
variable (s : State) (d : Nat) (ok : Bool)

theorem domainExitDone_else (hst : s.domSt d ≠ (3, 2)) : domainExitDone d ok s = s := by
  refine if_pos ?_
  by_contra hn
  push Not at hn
  exact hst (Prod.ext hn.1 hn.2.1)

/-- With no commit held, no job and no Gust start waiting, an exit ends with what the domain finds, and is counted. -/
theorem domainExitDone_eq (hst : s.domSt d = (3, 2)) (ht : s.tripped = false) (hd : d < 30) (hp : NoPend s)
    (hj : s.ctl.jobs = []) (hg : s.brz.gust = none) :
    ∃ x, domainExitDone d ok s = { (restoreDomain d ok (exitOn d s)).count Pg.pwr 2 1 with txns := x } := by
  have h3 : s.domState d = 3 := congrArg Prod.fst hst
  have h2 : s.fld (R.PWR_DOM_STATUS d) F.PWR_DOM_STATUS_PHASE = 2 := congrArg Prod.snd hst
  obtain ⟨hctl, hbrz, htxns, _⟩ := exitKeeps_restoreDomain (exitOn d s) d ok hd
  have hu : NoPend ((restoreDomain d ok (exitOn d s)).count Pg.pwr 2 1) := by
    intro q hq
    exact hp q (htxns ▸ hq)
  obtain ⟨x, hx⟩ := applyHeld_idle d _ hu
  have hgust : (restoreDomain d ok (exitOn d s)).brz.gust = none := by rw [hbrz]; exact hg
  have hjobs : (restoreDomain d ok (exitOn d s)).ctl.jobs = [] := by rw [hctl]; exact hj
  refine ⟨x, ?_⟩
  unfold domainExitDone
  rw [if_neg (by simp [h3, h2, ht])]
  rw [exitOn] at hx hgust hjobs ⊢
  dsimp only
  rw [hx]
  simp [hgust, pumpJobs, hjobs]

end

/-! ### What a core's exit leaves (R62, R146, R478, R484) -/

theorem rowByte_of_spad {s t : State} (h : t.spad = s.spad) (n r b : Nat) : t.rowByte n r b = s.rowByte n r b := by
  simp only [State.rowByte, h]

theorem slot_of_imem {s t : State} (h : t.imem = s.imem) (n i : Nat) : t.slot n i = s.slot n i := by simp only [State.slot, h]

theorem rowTag_of_rowPoison {s t : State} (h : t.rowPoison = s.rowPoison) (n r : Nat) : t.rowTag n r = s.rowTag n r := by
  simp only [State.rowTag, h]

section
variable (s : State) (d : Fin 18) (ok : Bool)

/-- A core from off has a zeroed scratchpad, an empty instruction memory and reset semaphores. -/
theorem restoreDomain_off (h : (s.dom d).exitFrom = 0) :
    let t := restoreDomain d ok s
    (∀ r b, r < 49152 → b < 512 → t.rowByte d r b = 0 ∧ t.rowTag d r = 0) ∧ (∀ i, i < 16384 → t.slot d i = 0)
      ∧ (∀ k, k < 64 → t.reg (R.SEQ_SEM d k) = 0) ∧ (t.core d).retireWhy = if ok then (s.core d).retireWhy else 4 := by
  dsimp only
  rw [restoreDomain_core s d ok d.isLt, if_pos h, h]
  refine ⟨fun r b hr hb => ⟨?_, ?_⟩, fun i hi => ?_, fun k hk => ?_, ?_⟩
  · refine (rowByte_of_spad (coreRestored_spad _ _ _) _ _ _).trans ((rowByte_zeroRows _ _ _ _ _ _ hb).trans (if_pos ?_))
    exact ⟨Nat.zero_le r, hr⟩
  · exact (rowTag_of_rowPoison (coreRestored_rowPoison _ _ _) _ _).trans (rowTag_zeroRows _ _ _ _ _ ⟨Nat.zero_le r, hr⟩)
  · exact (slot_of_imem (coreRestored_imem _ _ _) _ _).trans (slot_coreFromOff _ _ _ hi)
  · rw [coreRestored_reg _ _ _ _ (by unfold R.SEQ_SEM R.SEQ_STATUS; omega)]
    exact resetDomain_seqSem s d ⟨k, hk⟩
  · rw [coreRestored_retireWhy, coreFromOff_retireWhy]
    cases ok <;> rfl

/-- A core from retention has its instruction memory and the rows of the groups that were kept. -/
theorem restoreDomain_retention (h : (s.dom d).exitFrom ≠ 0) :
    let t := restoreDomain d ok s
    (∀ i, i < 16384 → t.slot d i = s.slot d i)
      ∧ ∀ r b, r < 49152 → b < 512 →
        t.rowByte d r b = if (s.keptGroups d).contains (r / 2048) then s.rowByte d r b else 0 := by
  dsimp only
  rw [restoreDomain_core s d ok d.isLt, if_neg h]
  refine ⟨fun i _ => ?_, fun r b hr hb => ?_⟩
  · refine slot_of_imem ((coreRestored_imem _ _ _).trans ?_) _ _
    rw [coreFromRetention_frame]
  · exact (rowByte_of_spad (coreRestored_spad _ _ _) _ _ _).trans (rowByte_coreFromRetention s d r b hr hb)

theorem restoreDomain_seqState : (restoreDomain d ok s).seqState d = Seq.halted := by
  rw [restoreDomain_core s d ok d.isLt, coreRestored_seqState]

end

section
variable (s : State) (d : Nat)

theorem exitOn_reg (a : Nat) (h1 : a ≠ R.PWR_DOM_STATUS d) (h2 : a ≠ R.CLK_STATUS) : (exitOn d s).reg a = s.reg a := by
  rw [exitOn, setDomState_reg_ne _ _ _ _ _ h1, State.reg_setFld_ne _ _ _ _ _ h2]

theorem exitOn_keptGroups (n : Fin 18) (hd : d < 31) : (exitOn d s).keptGroups n = s.keptGroups n := by
  have hg : (exitOn d s).reg R.BRZ_GUST = s.reg R.BRZ_GUST :=
    exitOn_reg s d _ (by unfold R.BRZ_GUST R.PWR_DOM_STATUS Pg.brz2 Pg.pwr; omega) (by decide)
  have hm : (exitOn d s).reg (R.SPD_RET_MASK n) = s.reg (R.SPD_RET_MASK n) :=
    exitOn_reg s d _ (by unfold R.SPD_RET_MASK R.PWR_DOM_STATUS Pg.spd3 Pg.pwr; omega)
      (by unfold R.SPD_RET_MASK R.CLK_STATUS Pg.spd3 Pg.clk; omega)
  simp only [State.keptGroups, State.fld, hg, hm]
  rfl

end

/-- A domain that has left off or retention is on, and a core is halted with what it finds. -/
theorem domainExitDone_on (s : State) (d : Nat) (ok : Bool) (hst : s.domSt d = (3, 2)) (ht : s.tripped = false) (hd : d < 30)
    (hp : NoPend s) (hj : s.ctl.jobs = []) (hg : s.brz.gust = none) :
    let t := domainExitDone d ok s
    t.domSt d = (2, 0) ∧ t.counter (cntKey Pg.pwr 2) = (s.counter (cntKey Pg.pwr 2) + 1) % 2 ^ 64 := by
  obtain ⟨x, hx⟩ := domainExitDone_eq s d ok hst ht hd hp hj hg
  obtain ⟨_, _, _, hreg, hcnt⟩ := exitKeeps_restoreDomain (exitOn d s) d ok hd
  dsimp only
  rw [hx]
  refine ⟨?_, ?_⟩
  · refine Eq.trans (domSt_of_reg (s := exitOn d s) (hreg _ ?_)) (setDomState_domSt d 2 0 _)
    unfold R.PWR_DOM_STATUS Pg.pwr
    omega
  · refine (State.counter_count_same _ _ _ _).trans ?_
    rw [hcnt _ (by decide)]
    rfl

theorem domainExitDone_core (s : State) (d : Fin 18) (ok : Bool) (hst : s.domSt d = (3, 2)) (ht : s.tripped = false)
    (hp : NoPend s) (hj : s.ctl.jobs = []) (hg : s.brz.gust = none) :
    let t := domainExitDone d ok s
    t.seqState d = Seq.halted
      ∧ ((s.dom d).exitFrom = 0 →
        (∀ r b, r < 49152 → b < 512 → t.rowByte d r b = 0 ∧ t.rowTag d r = 0) ∧ (∀ i, i < 16384 → t.slot d i = 0)
          ∧ (∀ k, k < 64 → t.reg (R.SEQ_SEM d k) = 0) ∧ (t.core d).retireWhy = if ok then (s.core d).retireWhy else 4)
      ∧ ((s.dom d).exitFrom ≠ 0 → (∀ i, i < 16384 → t.slot d i = s.slot d i)
        ∧ ∀ r b, r < 49152 → b < 512 →
          t.rowByte d r b = if (s.keptGroups d).contains (r / 2048) then s.rowByte d r b else 0) := by
  obtain ⟨x, hx⟩ := domainExitDone_eq s d ok hst ht (by omega) hp hj hg
  dsimp only
  rw [hx, ← exitOn_keptGroups s d d (by omega)]
  exact ⟨restoreDomain_seqState (exitOn d s) d ok, restoreDomain_off (exitOn d s) d ok,
    restoreDomain_retention (exitOn d s) d ok⟩

theorem exec_domainEntry (s : State) (d : Fin 31) : exec (.domainEntry d) s = .next (domainEntry d s) := rfl

theorem exec_domainEntryDone (s : State) (d : Fin 31) : exec (.domainEntryDone d) s = .next (domainEntryDone d s) := rfl

theorem exec_domainExitDone (s : State) (d : Fin 31) (ok : Bool) :
    exec (.domainExitDone d ok) s = .next (domainExitDone d ok s) := rfl

/-- Settles O48: MODE writes by what R475 finds, an entry by the domain's wait, its end by a held wake, an exit by what the
domain finds. -/
theorem domainsEnterAndLeaveLowPower : Obligations.DomainsEnterAndLeaveLowPower := by
  unfold Obligations.DomainsEnterAndLeaveLowPower
  intro s d
  refine ⟨fun iid h => ⟨fun hdis => ?_, fun hdis => ⟨fun h30 => ?_, fun h29 => ?_, fun htier ho => ?_, fun h30 => ?_,
    fun h29 ho => ?_, fun h2 => ?_, domModeOn_exit s iid d h hdis, domModeOn_held s iid d h hdis⟩⟩,
    fun ht => ⟨fun hw => ⟨fun h2 hm => ⟨fun hr => ?_, fun hdis htier ho hm0 => ?_⟩, fun h1 hm hr => ?_⟩, fun hn => ?_,
      fun hst htar => ?_, fun hst hd hp hj hg ok => ?_, fun hst => ?_, fun hst ok => ?_⟩⟩
  · have hr (m : Nat) (hm : m ≠ 0) : s.modeRefuse d m = 4 := by rw [modeRefuse_disabled s d m hdis, if_neg hm]
    exact ⟨modeCmd_sets s iid d 0 h (by rw [modeRefuse_disabled s d _ hdis]; rfl) (.inl (by decide)),
      modeCmd_refused s iid d 1 h 4 (hr 1 (by decide)) (by decide) (by decide),
      modeCmd_refused s iid d 2 h 4 (hr 2 (by decide)) (by decide) (by decide)⟩
  · have hr (m : Nat) (hm : m ≠ 2) : s.modeRefuse d m = 3 := by
      rw [h30] at hdis ⊢
      rw [modeRefuse_breeze s m hdis, if_neg hm]
    exact ⟨modeCmd_refused s iid d 0 h 3 (hr 0 (by decide)) (by decide) (by decide),
      modeCmd_refused s iid d 1 h 3 (hr 1 (by decide)) (by decide) (by decide)⟩
  · exact modeCmd_refused s iid d 0 h 2 (by rw [h29] at hdis ⊢; exact modeRefuse_control s hdis) (by decide) (by decide)
  · exact modeCmd_refused s iid d 0 h 1 (modeRefuse_owned s d hdis htier ho) (by decide) (by decide)
  · exact modeCmd_sets s iid d 1 h (modeRefuse_kept s d 1 hdis (by decide) (fun e => absurd e h30)) (.inl (by decide))
  · exact modeCmd_sets s iid d 0 h (modeRefuse_off s d hdis h29 ho) (.inl (by decide))
  · exact modeCmd_sets s iid d 2 h (modeRefuse_kept s d 2 hdis (by decide) (fun _ => rfl)) (.inr h2)
  · rw [exec_domainEntry, domainEntry_on s d ht hw h2 hm hr]
  · exact ⟨_, exec_domainEntry s d, domainEntry_owned_shows s d ht hw h2 hm0 (modeRefuse_owned s d hdis htier ho)⟩
  · rw [exec_domainEntry, domainEntry_retention s d ht hw h1 hm hr]
  · rw [exec_domainEntry, domainEntry_stays s d hn]
  · exact ⟨_, exec_domainEntryDone s d, domainEntryDone_counter s d hst ht,
      fun hh => domainEntryDone_rests s d d.isLt hst ht htar hh,
      fun hh hb hdis => domainEntryDone_wakes s d d.isLt hst ht htar hh hb hdis⟩
  · obtain ⟨hon, hcnt⟩ := domainExitDone_on s d ok hst ht hd hp hj hg
    exact ⟨_, exec_domainExitDone s d ok, hon, hcnt, fun hd => domainExitDone_core s ⟨d, hd⟩ ok hst ht hp hj hg⟩
  · rw [exec_domainEntryDone, domainEntryDone_else s d hst]
  · rw [exec_domainExitDone, domainExitDone_else s d ok hst]

end Sys2Proof.Machine
end

section
/-! PROOFS. Register pages (R35, R42, R43, R47, R50 to R57): accesses that the check refuses, the commands of TXN_CTRL, and the
error registers of a page header. -/

namespace Sys2Proof.Machine

/-! ### Refused accesses (R35, R47) -/

section
variable (iid a : Nat) (s : State)

theorem busWriteWith_unmapped (q : WriteOutcome) (bm v : Word) (hb : s.booted = true) (h29 : s.domOn 29 = true)
    (hg : s.gate iid a true = .unmapped) :
    busWriteWith q iid a bm v s = raiseErr Pg.mgt0 Err.unmapped iid (a % 4096) s := by
  unfold busWriteWith
  rw [withGate_open _ _ _ _ _ hb h29, hg]
  rfl

theorem busRead_denied (hb : s.booted = true) (h29 : s.domOn 29 = true) (hg : s.gate iid a false = .denied) :
    busRead iid a s = raiseErr (a - a % 4096) Err.accDeny iid (a % 4096) (s.answers 0) := by
  have hg' : (s.answers 0).gate iid a false = .denied := hg
  unfold busRead
  rw [withGate_open iid a false (s.answers 0) _ hb h29, hg']
  rfl

theorem busRead_unmapped (hb : s.booted = true) (h29 : s.domOn 29 = true) (hg : s.gate iid a false = .unmapped) :
    busRead iid a s = raiseErr Pg.mgt0 Err.unmapped iid (a % 4096) (s.answers 0) := by
  have hg' : (s.answers 0).gate iid a false = .unmapped := hg
  unfold busRead
  rw [withGate_open iid a false (s.answers 0) _ hb h29, hg']
  rfl

/-- The state that a write of `a` meets: the outcome of a write that needs one has been drawn (log entry 53). -/
def State.outcomeDrawn (s : State) (a : Nat) : State := if needsOutcome a then s.drew 3 else s

/-- Drawing an outcome changes no check of an access. -/
theorem outcomeDrawn_checks (w : Bool) : (s.outcomeDrawn a).booted = s.booted ∧ (s.outcomeDrawn a).domOn 29 = s.domOn 29
    ∧ (s.outcomeDrawn a).gate iid a w = s.gate iid a w := by
  unfold State.outcomeDrawn
  split <;> exact ⟨rfl, rfl, rfl⟩

theorem busWrite_eq (bm v : Word) : ∃ q, busWrite iid a bm v s = busWriteWith q iid a bm v (s.outcomeDrawn a) := by
  unfold busWrite State.outcomeDrawn
  split
  · exact ⟨_, rfl⟩
  · exact ⟨_, rfl⟩

theorem busWrite_denied (bm v : Word) (hb : s.booted = true) (h29 : s.domOn 29 = true) (hg : s.gate iid a true = .denied) :
    busWrite iid a bm v s = raiseErr (a - a % 4096) Err.accDeny iid (a % 4096) (s.outcomeDrawn a) := by
  obtain ⟨eb, e29, eg⟩ := outcomeDrawn_checks iid a s true
  obtain ⟨q, hq⟩ := busWrite_eq iid a s bm v
  rw [hq, busWriteWith_denied q iid a bm v _ (eb.trans hb) (e29.trans h29) (eg.trans hg)]

theorem busWrite_unmapped (bm v : Word) (hb : s.booted = true) (h29 : s.domOn 29 = true)
    (hg : s.gate iid a true = .unmapped) :
    busWrite iid a bm v s = raiseErr Pg.mgt0 Err.unmapped iid (a % 4096) (s.outcomeDrawn a) := by
  obtain ⟨eb, e29, eg⟩ := outcomeDrawn_checks iid a s true
  obtain ⟨q, hq⟩ := busWrite_eq iid a s bm v
  rw [hq, busWriteWith_unmapped iid a _ q bm v (eb.trans hb) (e29.trans h29) (eg.trans hg)]

end

/-- Settles O2: a write and a read through the gate's two refusals. -/
theorem refusedAccessesOnlyRaiseErrors : Obligations.RefusedAccessesOnlyRaiseErrors := by
  unfold Obligations.RefusedAccessesOnlyRaiseErrors
  intro s iid a be v hb h29
  rw [exec_regWrite, exec_regRead]
  refine ⟨fun hg => ?_, fun hg => ?_, fun hg => ?_, fun hg => ?_⟩
  · rw [busWrite_denied iid a s _ v hb h29 hg, State.outcomeDrawn]
  · rw [busWrite_unmapped iid a s _ v hb h29 hg, State.outcomeDrawn]
  · rw [busRead_denied iid a s hb h29 hg]
  · rw [busRead_unmapped iid a s hb h29 hg]

/-! ### Header registers -/

/-- A permitted whole-word write of header register `o` of page `p` (R36). -/
theorem wordWrite_pageHeader (iid p o : Nat) (v : Word) (s : State) (k : PageKind) (i : Nat)
    (h : s.Permits iid (4096 * p + o) true k i) (ho : o < 0x100) :
    wordWrite iid (4096 * p + o) v s = headerWrite iid (4096 * p) o 0xFFFFFFFF#32 v s := by
  have hmod : (4096 * p + o) % 4096 = o := by omega
  have hbase : 4096 * p + o - o = 4096 * p := by omega
  rw [wordWrite_header iid _ v s k i h (by omega), hmod, hbase]

theorem pageAt_of_permits (s : State) (iid p o : Nat) (w : Bool) (k : PageKind) (i : Nat)
    (h : s.Permits iid (4096 * p + o) w k i) (ho : o < 0x100) : ∃ r, pageAt p = some (r, i) := by
  obtain ⟨-, -, hg, -⟩ := h
  obtain ⟨r, hr, -⟩ := pageAt_of_gate s iid _ w k i hg
  have hdiv : (4096 * p + o) / 4096 = p := by omega
  exact ⟨r, hdiv ▸ hr⟩

theorem page_of_base (p : Nat) : 4096 * p / 4096 = p := by omega

/-! ### Commands of TXN_CTRL (R49 to R57) -/

/-- Nothing but register words and the error interrupts differs. -/
def ErrOnly (s t : State) : Prop := t = { s with regs := t.regs, errIrqs := t.errIrqs, hif := t.hif }

theorem ErrOnly.trans {s t u : State} (h : ErrOnly s t) (k : ErrOnly t u) : ErrOnly s u := by
  unfold ErrOnly at *; rw [k, h]

theorem ErrOnly.txn {s t : State} (h : ErrOnly s t) (p : Nat) : t.txn p = s.txn p := by rw [h]; rfl

theorem ErrOnly.dtime {s t : State} (h : ErrOnly s t) : t.dtime = s.dtime := by rw [h]

/-- A read-write field stores a listed encoding and refuses another (R6). -/
theorem fieldWrite_errOnly (iid a : Nat) (bm v : Word) (s : State) (f : FldDef) (hf : f.acc = .rw) :
    ErrOnly s (fieldWrite iid a bm v s f) := by
  unfold fieldWrite
  simp only [hf]
  split
  · rfl
  · split
    · rfl
    · exact raiseErr_frame _ _ _ _ _

theorem fieldsWrite_errOnly (iid a : Nat) (bm v : Word) (flds : List FldDef) (s : State)
    (h : ∀ f ∈ flds, f.acc = .rw) : ErrOnly s (fieldsWrite iid a bm v flds s) := by
  induction flds generalizing s with
  | nil => rfl
  | cons f fs ih =>
    exact (fieldWrite_errOnly iid a bm v s f (h f (List.mem_cons_self ..))).trans
      (ih _ fun g hg => h g (List.mem_cons_of_mem _ hg))

/-- The RW fields of TXN_CTRL change no transaction and no time (R49). -/
theorem txnCtrlFields_errOnly (iid base : Nat) (bm v : Word) (s : State) : ErrOnly s (txnCtrlFields iid base bm v s) :=
  fieldsWrite_errOnly _ _ _ _ _ _ (by simp)

/-- What command `cmd` of TXN_CTRL does to the page at `base` once the fields of the write are stored (R49). -/
def txnCommand (iid base cmd : Nat) (s : State) : State :=
  match cmd with
  | 1 => beginTxn iid base s
  | 2 => commitTxn iid base s
  | 3 => rollbackTxn iid base s
  | _ => s

theorem wordWrite_txnCtrl (iid p cmd : Nat) (val : Word) (s : State) (k : PageKind) (i : Nat)
    (h : s.Permits iid (4096 * p + Hdr.txnCtrl) true k i) (hc : cmd < 4) :
    wordWrite iid (4096 * p + Hdr.txnCtrl) (wordSet val ⟨1, 0⟩ cmd) s
      = txnCommand iid (4096 * p) cmd (txnCtrlFields iid (4096 * p) 0xFFFFFFFF#32 (wordSet val ⟨1, 0⟩ cmd) s) := by
  obtain ⟨r, hr⟩ := pageAt_of_permits s iid p _ true k i h (by decide)
  have hcmd : bitsOf (wordSet val ⟨1, 0⟩ cmd).toNat 1 0 = cmd := by
    have h1 := wordFld_wordSet val ⟨1, 0⟩ cmd (by decide)
    have h2 : cmd % 2 ^ (1 + 1 - 0) = cmd := Nat.mod_eq_of_lt hc
    exact h1.trans h2
  rw [wordWrite_pageHeader iid p _ _ s k i h (by decide)]
  simp only [headerWrite, page_of_base, hr, if_true, txnCtrlWrite, and_full, hcmd]
  rfl

section
variable (iid p : Nat) (s : State)

theorem beginTxn_opens (h : (s.txn p).openTxn = none) :
    beginTxn iid (4096 * p) s = s.setTxn p { s.txn p with
      openTxn := some ⟨iid, bitsOf (s.reg (4096 * p + Hdr.txnTag)).toNat 15 0, []⟩ } := by
  simp only [beginTxn, page_of_base, h]

theorem beginTxn_busy (h : (s.txn p).openTxn.isSome = true) :
    beginTxn iid (4096 * p) s = raiseErr (4096 * p) Err.txnBusy iid Hdr.txnCtrl s := by
  obtain ⟨x, hx⟩ := Option.isSome_iff_exists.mp h
  simp only [beginTxn, page_of_base, hx]

theorem commitTxn_closed (h : (s.txn p).openTxn = none) :
    commitTxn iid (4096 * p) s = raiseErr (4096 * p) Err.txnState iid Hdr.txnCtrl s := by
  simp only [commitTxn, page_of_base, h]

variable (x : Txn) (h : (s.txn p).openTxn = some x)
include h

theorem commitTxn_other (hx : x.owner ≠ iid) :
    commitTxn iid (4096 * p) s = raiseErr (4096 * p) Err.txnOwner iid Hdr.txnCtrl s := by
  simp only [commitTxn, page_of_base, h, if_pos hx]

theorem commitTxn_full (hx : x.owner = iid) (hl : (s.txn p).pend.length ≥ 4) :
    commitTxn iid (4096 * p) s = raiseErr (4096 * p) Err.txnFull iid Hdr.txnCtrl s := by
  have hx' : ¬ x.owner ≠ iid := not_not_intro hx
  simp only [commitTxn, page_of_base, h, if_neg hx', hl, true_or, if_true]

/-- A COMMIT outside groups queues the shadows (R52, R54); with APPLY 3 it is late where its DTIME has come (log entry 57). -/
theorem commitTxn_queues (hx : x.owner = iid) (hl : (s.txn p).pend.length < 4)
    (ha : s.fld (4096 * p + Hdr.txnCtrl) Hdr.apply ≠ 4)
    (hs : applySelOk (inCoreWindow (4096 * p)) (s.fld (4096 * p + Hdr.txnCtrl) Hdr.apply)
      (s.fld (4096 * p + Hdr.txnCtrl) Hdr.applySel) = true) :
    commitTxn iid (4096 * p) s = s.setTxn p { s.txn p with
      openTxn := none
      pend := (s.txn p).pend ++ [⟨iid, x.tag, x.shadow, s.fld (4096 * p + Hdr.txnCtrl) Hdr.apply,
        s.fld (4096 * p + Hdr.txnCtrl) Hdr.applySel, none, s.pair (4096 * p + Hdr.dtimeLo) (4096 * p + Hdr.dtimeHi), false,
        s.fld (4096 * p + Hdr.txnCtrl) Hdr.apply == 3
          && decide (s.pair (4096 * p + Hdr.dtimeLo) (4096 * p + Hdr.dtimeHi) ≤ s.dtime), false, false, none⟩] } := by
  have hx' : ¬ x.owner ≠ iid := not_not_intro hx
  have hl' : ¬ (s.txn p).pend.length ≥ 4 := Nat.not_le.mpr hl
  simp only [commitTxn, page_of_base, h, if_neg hx', hl', ha, false_and, or_self, if_false, hs, Bool.not_true,
    Bool.false_eq_true]

theorem rollbackTxn_discards (hx : x.owner = iid) :
    rollbackTxn iid (4096 * p) s = s.setTxn p { s.txn p with openTxn := none, lastResult := 3, lastTag := x.tag } := by
  have hx' : ¬ x.owner ≠ iid := not_not_intro hx
  simp only [rollbackTxn, page_of_base, h, if_neg hx']

end

/-- Settles O4: each command acts on the page's transaction as the fields of its own write leave it. -/
theorem transactionsOpenCommitAndRollBack : Obligations.TransactionsOpenCommitAndRollBack := by
  unfold Obligations.TransactionsOpenCommitAndRollBack
  intro s iid p val k i hp base s1 t
  have hw (cmd : Nat) (hc : cmd < 4) :
      wordWrite iid (base + Hdr.txnCtrl) (wordSet val ⟨1, 0⟩ cmd) s = txnCommand iid base cmd (s1 cmd) :=
    wordWrite_txnCtrl iid p cmd val s k i hp hc
  have hframe (cmd : Nat) : ErrOnly s (s1 cmd) := txnCtrlFields_errOnly iid base _ _ s
  have ht (cmd : Nat) : (s1 cmd).txn p = t := (hframe cmd).txn p
  have hbegin : exec (.txnBegin iid p val) s = .next (beginTxn iid base (s1 1)) := congrArg Host.Outcome.next (hw 1 (by decide))
  have hcommit : exec (.txnCommit iid p val) s = .next (commitTxn iid base (s1 2)) :=
    congrArg Host.Outcome.next (hw 2 (by decide))
  have hroll : exec (.txnRollback iid p val) s = .next (rollbackTxn iid base (s1 3)) :=
    congrArg Host.Outcome.next (hw 3 (by decide))
  rw [hbegin, hcommit, hroll]
  refine ⟨fun h => ?_, fun h => ?_, fun h => ?_, fun x h hx => ?_, fun x h hx hl => ?_, fun x h hx hl => ?_,
    fun x h hx => ?_⟩
  · rw [beginTxn_opens iid p (s1 1) (by rw [ht, h]), ht]
  · rw [beginTxn_busy iid p (s1 1) (by rw [ht, h])]
  · rw [commitTxn_closed iid p (s1 2) (by rw [ht, h])]
  · rw [commitTxn_other iid p (s1 2) x (by rw [ht, h]) hx]
  · rw [commitTxn_full iid p (s1 2) x (by rw [ht, h]) hx (by rw [ht]; exact hl)]
  · intro apply sel due ha hs
    refine ⟨apply == 3 && decide (due ≤ s.dtime), ?_, fun hn => ?_, fun h3 hd => ?_⟩
    · rw [commitTxn_queues iid p (s1 2) x (by rw [ht, h]) hx (by rw [ht]; exact hl) ha hs, ht, (hframe 2).dtime]
    · rcases hn with hn | hn
      · simp [hn]
      · simp [hn]
    · simp [h3, Nat.le_of_lt hd]
  · rw [rollbackTxn_discards iid p (s1 3) x (by rw [ht, h]) hx, ht]

/-! ### Error registers (R42, R43) -/

section
variable (iid p : Nat) (s : State) (row : PageRow) (i : Nat) (hrow : pageAt p = some (row, i)) (val : Word) (k : PageKind)
  (j : Nat)
include hrow

theorem wordWrite_errStat (h : s.Permits iid (4096 * p + Hdr.errStat) true k j) :
    wordWrite iid (4096 * p + Hdr.errStat) val s = errStatWrite (4096 * p) val s := by
  rw [wordWrite_pageHeader iid p _ val s k j h (by decide)]
  simp only [headerWrite, page_of_base, hrow, and_full]
  rfl

theorem wordWrite_errEn (h : s.Permits iid (4096 * p + Hdr.errEn) true k j) :
    wordWrite iid (4096 * p + Hdr.errEn) val s = errEnWrite (4096 * p) 0xFFFFFFFF#32 val s := by
  rw [wordWrite_pageHeader iid p _ val s k j h (by decide)]
  simp only [headerWrite, page_of_base, hrow]
  rfl

theorem wordWrite_errInj (h : s.Permits iid (4096 * p + Hdr.errInj) true k j) :
    wordWrite iid (4096 * p + Hdr.errInj) val s = errInjWrite iid row (4096 * p) val s := by
  rw [wordWrite_pageHeader iid p _ val s k j h (by decide)]
  simp only [headerWrite, page_of_base, hrow, and_full]
  rfl

end

theorem errStatWrite_eq (base : Nat) (v : Word) (s : State) :
    errStatWrite base v s =
      (let s1 := s.setReg (base + Hdr.errStat) (s.reg (base + Hdr.errStat) &&& ~~~v)
       if s.reg (base + Hdr.errStat) &&& ~~~v = 0 then
         s1.setReg (base + Hdr.errFirst) (s.reg (base + Hdr.errFirst) &&& ~~~(bit32 31))
       else s1) := by
  have hne : base + Hdr.errFirst ≠ base + Hdr.errStat := by simp [Hdr.errStat, Hdr.errFirst]
  simp only [errStatWrite, State.reg_setReg_same, State.reg_setReg_ne _ _ _ _ hne]

theorem errEnWrite_whole (base : Nat) (v : Word) (s : State) :
    errEnWrite base 0xFFFFFFFF#32 v s =
      (let s1 := s.setReg (base + Hdr.errEn) v
       if v &&& ~~~(s.reg (base + Hdr.errEn)) &&& s.reg (base + Hdr.errStat) = 0 then s1 else errIrq base s1) := by
  have hnv : (s.reg (base + Hdr.errEn) &&& ~~~(0xFFFFFFFF#32)) ||| (v &&& 0xFFFFFFFF#32) = v := by
    rw [and_full]
    have h0 : ~~~(0xFFFFFFFF#32) = 0#32 := by decide
    rw [h0, BitVec.and_zero, BitVec.zero_or]
  simp only [errEnWrite, hnv]

/-- FIRE of a bit that the page defines is the bit's event (R42, R43). -/
theorem errInjWrite_fires (iid : Nat) (row : PageRow) (base : Nat) (val : Word) (s : State)
    (h : bitOf (errMask row) (wordFld val ⟨4, 0⟩) = true) :
    errInjWrite iid row base (wordSet val ⟨5, 5⟩ 1) s = raiseErr base (wordFld val ⟨4, 0⟩) iid Hdr.errInj s := by
  have hbit : bitsOf (wordSet val ⟨5, 5⟩ 1).toNat 4 0 = wordFld val ⟨4, 0⟩ :=
    wordFld_wordSet_ne val ⟨5, 5⟩ ⟨4, 0⟩ 1 (by decide) (.inl (by decide))
  have hfire : bitOf (wordSet val ⟨5, 5⟩ 1).toNat 5 = true := by
    rw [bitOf_toNat, getLsbD_wordSet_one val 5 (by decide)]
  simp only [errInjWrite, hbit, hfire, h, Bool.and_self, if_true]

/-! ### Error events (R42, R43) -/

section
variable (base bit iid off : Nat) (s : State)

theorem errStat_ne_errFirst : base + Hdr.errStat ≠ base + Hdr.errFirst := by simp [Hdr.errStat, Hdr.errFirst]

/-- An event whose bit is set does nothing. -/
theorem raiseErr_set (h : (s.reg (base + Hdr.errStat)).getLsbD bit = true) : raiseErr base bit iid off s = s := by
  unfold raiseErr
  exact if_pos ((bitOf_toNat _ _).trans h)

/-- The first error of a page sets its bit alone and is captured. -/
theorem raiseErr_first_regs (h : s.reg (base + Hdr.errStat) = 0#32) :
    (raiseErr base bit iid off s).reg (base + Hdr.errStat) = bit32 bit
      ∧ (raiseErr base bit iid off s).reg (base + Hdr.errFirst) = BitVec.ofNat 32 (bit + 32 * iid + 1024 * off + 2 ^ 31) := by
  rw [raiseErr_first base bit iid off s h]
  split <;>
    simp only [errIrq_reg, id, State.reg_setReg_same, State.reg_setReg_ne _ _ _ _ (errStat_ne_errFirst base), and_self]

/-- A later error of a page adds its bit and leaves the capture. -/
theorem raiseErr_later_regs (h : s.reg (base + Hdr.errStat) ≠ 0#32) (hb : bit < 32) :
    (raiseErr base bit iid off s).reg (base + Hdr.errFirst) = s.reg (base + Hdr.errFirst)
      ∧ (raiseErr base bit iid off s).reg (base + Hdr.errStat) = s.reg (base + Hdr.errStat) ||| bit32 bit := by
  have hz : ¬ (s.reg (base + Hdr.errStat)).toNat = 0 := fun e => h (BitVec.eq_of_toNat_eq e)
  by_cases hset : (s.reg (base + Hdr.errStat)).getLsbD bit = true
  · rw [raiseErr_set base bit iid off s hset]
    refine ⟨rfl, BitVec.eq_of_getLsbD_eq fun j _ => ?_⟩
    rw [BitVec.getLsbD_or, getLsbD_bit32 bit j hb]
    by_cases hj : j = bit
    · simp [hj, hset]
    · simp [hj]
  · have hne := State.reg_setReg_ne s (base + Hdr.errStat) (s.reg (base + Hdr.errStat) ||| bit32 bit) _
      (errStat_ne_errFirst base).symm
    have hsame := State.reg_setReg_same s (base + Hdr.errStat) (s.reg (base + Hdr.errStat) ||| bit32 bit)
    unfold raiseErr
    simp only [bitOf_toNat, hset, hz, Bool.false_eq_true, if_false]
    split
    · exact ⟨(errIrq_reg _ _ _).trans hne, (errIrq_reg _ _ _).trans hsame⟩
    · exact ⟨hne, hsame⟩

end

/-- The fields of a captured error: BIT, IID, OFFSET and VALID (R43). -/
theorem capture_fields (bit iid off : Nat) (hb : bit < 32) (hi : iid < 32) (ho : off < 4096) :
    let w : Word := BitVec.ofNat 32 (bit + 32 * iid + 1024 * off + 2 ^ 31)
    wordFld w ⟨4, 0⟩ = bit ∧ wordFld w ⟨9, 5⟩ = iid ∧ wordFld w ⟨21, 10⟩ = off ∧ wordFld w ⟨31, 31⟩ = 1 := by
  simp only [wordFld, bitsOf, BitVec.toNat_ofNat]
  omega

/-- Settles O6: the three header writes by their equations, an event by whether ERR_STAT was clear. -/
theorem errorRegistersAndFirstError : Obligations.ErrorRegistersAndFirstError := by
  unfold Obligations.ErrorRegistersAndFirstError
  constructor
  · intro s iid p val row i hrow base st en
    refine ⟨fun h => ?_, fun h => ?_, fun h hm => ?_⟩
    · exact congrArg Host.Outcome.next ((wordWrite_errStat iid p s row i hrow val _ _ h).trans (errStatWrite_eq base val s))
    · exact congrArg Host.Outcome.next ((wordWrite_errEn iid p s row i hrow val _ _ h).trans (errEnWrite_whole base val s))
    · exact congrArg Host.Outcome.next
        ((wordWrite_errInj iid p s row i hrow _ _ _ h).trans (errInjWrite_fires iid row base val s hm))
  · intro s base bit iid off hb hi ho t st
    refine ⟨fun h0 => ?_, fun h0 => ?_, fun hset => ?_, ?_, fun a h1 h2 => ?_⟩
    · obtain ⟨hstat, hfirst⟩ := raiseErr_first_regs base bit iid off s h0
      exact ⟨hstat, by rw [hfirst]; exact capture_fields bit iid off hb hi ho⟩
    · exact raiseErr_later_regs base bit iid off s h0 hb
    · exact raiseErr_set base bit iid off s hset
    · exact raiseErr_frame base bit iid off s
    · exact raiseErr_reg_ne base bit iid off s a h1 h2

end Sys2Proof.Machine
end

section
/-! PROOFS. What the boot chain keeps on its way to service (R440, R485): once SEC_BOOT shows the image that was booted, no later
step of the chain touches it, a domain's state, the flash, the records in force or a memory. -/

namespace Sys2Proof.Machine

/-! ### Frames of shared effects -/

theorem msixSend_entries (f v : Nat) (s : State) : (msixSend f v s).hif.entries = s.hif.entries := by
  unfold msixSend; split <;> rfl

theorem errIrq_entries (base : Nat) (s : State) : (errIrq base s).hif.entries = s.hif.entries := by
  unfold errIrq
  refine foldl_keeps (fun t : State => t.hif.entries) _ (fun t f => ?_) _ _
  split
  · exact msixSend_entries _ _ _
  · rfl

/-- An error event sends interrupts and fetches nothing. -/
theorem errEvent_entries (base bit : Nat) (s : State) : (errEvent base bit s).hif.entries = s.hif.entries := by
  unfold errEvent raiseErr
  dsimp only
  split
  · rfl
  · split
    · rw [errIrq_entries]; split <;> rfl
    · split <;> rfl

theorem startFlush_hif (s : State) : (startFlush s).hif = s.hif := by rw [startFlush_frame]

theorem logEntry_entries (e : LogEntry) (s : State) : (logEntry e s).hif.entries = s.hif.entries := by
  have hstage (e : LogEntry) (s : State) : (stageEntry e s).hif = s.hif := rfl
  unfold logEntry
  dsimp only
  split
  · exact errEvent_entries _ _ _
  · simp only [apply_ite State.hif, startFlush_hif, hstage, ite_self]

/-! ### The relation -/

/-- What neither the boot chain nor a service request changes once an image is chosen: time, the queue, memories, contexts,
fetched entries, the flash and the records in force. -/
def State.bootKept (s : State) :=
  (s.dtime, s.pending, s.spad, s.da, s.ctxs, s.hif.entries, s.flash, s.recs)

theorem bootKept_iff (s t : State) : t.bootKept = s.bootKept ↔ t.dtime = s.dtime ∧ t.pending = s.pending ∧ t.spad = s.spad
    ∧ t.da = s.da ∧ t.ctxs = s.ctxs ∧ t.hif.entries = s.hif.entries ∧ t.flash = s.flash ∧ t.recs = s.recs := by
  simp only [State.bootKept, Prod.mk.injEq]

/-- Whether ERR_STAT of SEC page 0 shows that the other slot's image was booted (R441). -/
def State.fellBack (s : State) : Bool := bitOf (s.reg (Pg.secBoot + Hdr.errStat)).toNat E.secBoot_FALLBACK

/-- In `t` the boot's outcome stands as in `s`. -/
structure BootKeeps (s t : State) : Prop where
  boot : t.reg R.SEC_BOOT = s.reg R.SEC_BOOT
  prod : t.fld R.TST_MODE F.TST_MODE_PROD = s.fld R.TST_MODE F.TST_MODE_PROD
  dom : ∀ d, d < 31 → t.domState d = s.domState d
  fellBack : s.fellBack = true → t.fellBack = true
  kept : t.bootKept = s.bootKept

/-- The registers that hold the boot's outcome: SEC_BOOT, TST_MODE, ERR_STAT of SEC page 0, and the domains' states. -/
def isBootReg (a : Nat) : Bool :=
  a == R.SEC_BOOT || a == R.TST_MODE || a == Pg.secBoot + Hdr.errStat
    || (decide (R.PWR_DOM_STATUS 0 ≤ a) && decide (a < R.PWR_DOM_STATUS 31))

theorem isBootReg_of_gt (a : Nat) (h : R.SEC_BOOT < a) : isBootReg a = false := by
  have h1 : R.TST_MODE < R.SEC_BOOT := by decide
  have h2 : Pg.secBoot + Hdr.errStat < R.SEC_BOOT := by decide
  have h3 : R.PWR_DOM_STATUS 31 < R.SEC_BOOT := by decide
  have e1 : a ≠ R.SEC_BOOT := by omega
  have e2 : a ≠ R.TST_MODE := by omega
  have e3 : a ≠ Pg.secBoot + Hdr.errStat := by omega
  have e4 : ¬ a < R.PWR_DOM_STATUS 31 := by omega
  simp [isBootReg, e1, e2, e3, e4]

/-- The outcome of a boot lies in no access table. -/
theorem isBootReg_accTbl (a : Nat) (h : 0x80 ≤ a % 4096 ∧ a % 4096 < 0x90) : isBootReg a = false := by
  have e1 : a ≠ R.SEC_BOOT := by rintro rfl; revert h; decide
  have e2 : a ≠ R.TST_MODE := by rintro rfl; revert h; decide
  have e3 : a ≠ Pg.secBoot + Hdr.errStat := by rintro rfl; revert h; decide
  have e4 : ¬ (R.PWR_DOM_STATUS 0 ≤ a ∧ a < R.PWR_DOM_STATUS 31) := by
    unfold R.PWR_DOM_STATUS Pg.pwr; omega
  simp only [isBootReg, beq_eq_false_iff_ne.mpr e1, beq_eq_false_iff_ne.mpr e2, beq_eq_false_iff_ne.mpr e3, Bool.false_or,
    ← Bool.decide_and, decide_eq_false e4]

theorem isBootReg_domStatus (d : Nat) (h : d < 31) : isBootReg (R.PWR_DOM_STATUS d) = true := by
  have h1 : R.PWR_DOM_STATUS 0 ≤ R.PWR_DOM_STATUS d := by unfold R.PWR_DOM_STATUS; omega
  have h2 : R.PWR_DOM_STATUS d < R.PWR_DOM_STATUS 31 := by unfold R.PWR_DOM_STATUS; omega
  simp [isBootReg, h1, h2]

theorem isBootReg_domCtrl (d : Nat) (h : d < 31) : isBootReg (R.PWR_DOM_CTRL d) = false := by
  have e1 : R.PWR_DOM_CTRL d ≠ R.SEC_BOOT := by unfold R.PWR_DOM_CTRL R.SEC_BOOT Pg.pwr Pg.secBoot; omega
  have e2 : R.PWR_DOM_CTRL d ≠ R.TST_MODE := by unfold R.PWR_DOM_CTRL R.TST_MODE Pg.pwr Pg.tstMode; omega
  have e3 : R.PWR_DOM_CTRL d ≠ Pg.secBoot + Hdr.errStat := by unfold R.PWR_DOM_CTRL Pg.pwr Pg.secBoot; omega
  have e4 : ¬ R.PWR_DOM_STATUS 0 ≤ R.PWR_DOM_CTRL d := by unfold R.PWR_DOM_CTRL R.PWR_DOM_STATUS; omega
  simp [isBootReg, e1, e2, e3, e4]

theorem errEvent_bootKept (base bit : Nat) (s : State) : (errEvent base bit s).bootKept = s.bootKept := by
  rw [errEvent_frame, bootKept_iff]
  exact ⟨rfl, rfl, rfl, rfl, rfl, errEvent_entries _ _ _, rfl, rfl⟩

namespace BootKeeps

theorem refl (s : State) : BootKeeps s s := ⟨rfl, rfl, fun _ _ => rfl, id, rfl⟩

theorem trans {s t u : State} (h : BootKeeps s t) (k : BootKeeps t u) : BootKeeps s u :=
  ⟨k.boot.trans h.boot, k.prod.trans h.prod, fun d hd => (k.dom d hd).trans (h.dom d hd), k.fellBack ∘ h.fellBack,
    k.kept.trans h.kept⟩

/-- Registers that hold no outcome of a boot are free to change. -/
theorem of_regs {s t : State} (hr : ∀ a, isBootReg a = true → t.reg a = s.reg a) (hk : t.bootKept = s.bootKept) :
    BootKeeps s t where
  boot := hr _ (by decide)
  prod := by rw [State.fld, hr _ (by decide), State.fld]
  dom := fun d hd => by rw [State.domState, State.fld, hr _ (isBootReg_domStatus d hd)]; rfl
  fellBack := fun h => by rw [State.fellBack, hr _ (by decide)]; exact h
  kept := hk

theorem setReg (s : State) (a : Nat) (w : Word) (h : isBootReg a = false) : BootKeeps s (s.setReg a w) :=
  of_regs (fun b hb => State.reg_setReg_ne s a w b (by rintro rfl; simp [h] at hb)) rfl

theorem setFld (s : State) (a : Nat) (f : Fld) (v : Nat) (h : isBootReg a = false) : BootKeeps s (s.setFld a f v) :=
  setReg s a _ h

/-- Fields beyond the registers and beyond what is kept are free to change. -/
theorem of_same {s t : State} (hr : t.regs = s.regs) (hk : t.bootKept = s.bootKept) : BootKeeps s t :=
  of_regs (fun a _ => by rw [State.reg, hr]; rfl) hk

theorem modCore (s : State) (n : Nat) (f : Core → Core) : BootKeeps s (s.modCore n f) := of_same rfl rfl

theorem modMt (s : State) (f : Mt → Mt) : BootKeeps s (s.modMt f) := of_same rfl rfl

theorem count (s : State) (b i k : Nat) : BootKeeps s (s.count b i k) := of_same rfl rfl

theorem ite {s t u : State} (c : Prop) [Decidable c] (ht : BootKeeps s t) (hu : BootKeeps s u) :
    BootKeeps s (if c then t else u) := by
  split
  · exact ht
  · exact hu

theorem iter (n : Nat) (f : Nat → State → State) (h : ∀ k, k < n → ∀ s, BootKeeps s (f k s)) (s : State) :
    BootKeeps s (Machine.iter n f s) := by
  induction n with
  | zero => exact refl s
  | succ n ih => exact (ih fun k hk => h k (Nat.lt_succ_of_lt hk)).trans (h n (Nat.lt_succ_self n) _)

theorem foldl {β : Type} (f : State → β → State) (l : List β) (h : ∀ s, ∀ x ∈ l, BootKeeps s (f s x)) (s : State) :
    BootKeeps s (l.foldl f s) := by
  induction l generalizing s with
  | nil => exact refl s
  | cons x l ih => exact (h s x (List.mem_cons_self ..)).trans (ih (fun t y hy => h t y (List.mem_cons_of_mem _ hy)) _)

theorem errEvent (s : State) (bit : Nat) : BootKeeps s (errEvent Pg.secBoot bit s) where
  boot := errEvent_reg_ne _ _ _ _ (by decide) (by decide)
  prod := errEvent_fld_ne _ _ _ _ _ (by decide) (by decide)
  dom := fun d hd => errEvent_fld_ne _ _ _ _ _ (by unfold R.PWR_DOM_STATUS Pg.pwr Pg.secBoot; omega)
    (by unfold R.PWR_DOM_STATUS Pg.pwr Pg.secBoot; omega)
  fellBack := errEvent_keeps _ _ _ _
  kept := errEvent_bootKept _ _ _

theorem errEvent_high (s : State) (base bit : Nat) (h : R.SEC_BOOT < base) : BootKeeps s (Machine.errEvent base bit s) := by
  refine of_regs (fun a ha => ?_) (errEvent_bootKept _ _ _)
  have hle : a ≤ R.SEC_BOOT := Nat.le_of_not_lt fun hgt => by simp [isBootReg_of_gt a hgt] at ha
  exact errEvent_reg_ne base bit s a (by omega) (by omega)

theorem logEntry (s : State) (e : LogEntry) : BootKeeps s (logEntry e s) := by
  refine of_regs (fun a ha => logEntry_reg e s a fun hp => ?_) ?_
  · have hgt : R.SEC_BOOT < a := by
      have h1 : Pg.rel2 / 4096 = 50 := rfl
      have h2 : R.SEC_BOOT = 131328 := rfl
      omega
    simp [isBootReg_of_gt a hgt] at ha
  · have hent := logEntry_entries e s
    have hframe := logEntry_frame e s
    generalize Machine.logEntry e s = t at hent hframe ⊢
    unfold LogOnly at hframe
    rw [bootKept_iff, hframe]
    exact ⟨rfl, rfl, rfl, rfl, rfl, hent, rfl, rfl⟩

theorem sendIbi (s : State) (k : Nat) : BootKeeps s (sendIbi k s) := by
  unfold Machine.sendIbi
  split
  · exact of_same rfl rfl
  · exact refl s

theorem svcEvent (s : State) (bit : Nat) : BootKeeps s (svcEvent bit s) := by
  have hibi : BootKeeps s (svcIbi s) := by
    unfold svcIbi
    exact .ite _ (refl s) (sendIbi s 1)
  exact hibi.trans ((setReg _ _ _ (by decide)).trans ((errEvent_high _ _ _ (by decide)).trans
    ((count _ _ _ _).trans (logEntry _ _))))

end BootKeeps

/-! ### Steps of the chain (R440, R485) -/

theorem bootKeeps_linksUp (links : List (Nat × Nat)) (s : State) : BootKeeps s (linksUp links s) := by
  refine BootKeeps.iter 2 _ (fun l _ t => ?_) s
  dsimp only
  split
  · exact .refl t
  · exact .setReg t _ _ (isBootReg_of_gt _ (by unfold R.HIF_LINK_STATUS R.SEC_BOOT Pg.hif0 Pg.secBoot; omega))

theorem bootKeeps_setFnState (f v : Nat) (s : State) : BootKeeps s (setFnState f v s) :=
  .setFld s _ _ _ (isBootReg_of_gt _ (by unfold R.HIF_FN_STATE R.SEC_BOOT Pg.hifFn Pg.secBoot; omega))

theorem bootKeeps_arRegs (s : State) : BootKeeps s (arRegs s) := .setReg s _ _ (by decide)

theorem isBootReg_relCore (k : Nat) : isBootReg (R.REL_CORE k) = false :=
  isBootReg_of_gt _ (by unfold R.REL_CORE R.SEC_BOOT Pg.rel1 Pg.secBoot; omega)

theorem isBootReg_relCcore (k : Nat) : isBootReg (R.REL_CCORE k) = false :=
  isBootReg_of_gt _ (by unfold R.REL_CCORE R.SEC_BOOT Pg.rel1 Pg.secBoot; omega)

theorem isBootReg_secKey (k : Nat) : isBootReg (R.SEC_KEY k) = false :=
  isBootReg_of_gt _ (by unfold R.SEC_KEY R.SEC_BOOT Pg.secKey Pg.secBoot; omega)

theorem bootKeeps_bootKeys (s : State) : BootKeeps s (bootKeys s) :=
  BootKeeps.iter 16 _ (fun t _ u =>
    have hkey : BootKeeps u (fillKey (2 * t) (eraseKey (2 * t + 1) u)) := .of_same rfl rfl
    (hkey.trans (.setFld _ _ _ _ (isBootReg_secKey t))).trans (.setFld _ _ _ _ (isBootReg_secKey t))) s

theorem bootKeeps_ccoreCounts (k : Nat) (s : State) : BootKeeps s (ccoreCounts k s) :=
  (BootKeeps.setFld _ _ _ _ (isBootReg_relCcore k)).trans (.setFld _ _ _ _ (isBootReg_relCcore k))

/-! ### Access tables (R437, R438) -/

theorem bootKeeps_setRights (base iid v : Nat) (s : State) (hb : base % 4096 = 0) (hi : iid < 32) :
    BootKeeps s (setRights base iid v s) :=
  .setReg s _ _ (isBootReg_accTbl _ (by simp only [Hdr.accTbl]; omega))

theorem allPages_base (p : Nat × PageRow) (h : p ∈ allPages) : p.1 % 4096 = 0 := by
  obtain ⟨r, -, hr⟩ := List.mem_flatMap.mp h
  obtain ⟨i, -, rfl⟩ := List.mem_map.mp hr
  exact Nat.mul_mod_right _ _

theorem bootKeeps_grantPf (iid pf : Nat) (s : State) (hi : iid < 32) : BootKeeps s (grantPf iid pf s) := by
  refine BootKeeps.foldl _ allPages (fun t p hp => ?_) s
  have hgrant (g w : Nat) : BootKeeps t (if g &&& w = 0 then t else setRights p.1 iid (g &&& w) t) :=
    .ite _ (.refl t) (bootKeeps_setRights _ _ _ t (allPages_base p hp) hi)
  exact hgrant _ _

theorem bootKeeps_grantOperator (iid : Nat) (s : State) (hi : iid < 32) : BootKeeps s (grantOperator iid s) := by
  refine BootKeeps.foldl _ _ (fun t b hb => bootKeeps_setRights b iid _ t ?_ hi) s
  revert b
  decide

theorem bootKeeps_grantAll (s : State) : BootKeeps s (grantAll s) := by
  have hop (c : Prop) [Decidable c] (iid : Nat) (hi : iid < 32) (t : State) :
      BootKeeps t (if c then grantOperator iid t else t) := .ite c (bootKeeps_grantOperator iid t hi) (.refl t)
  have hpf (c : Prop) [Decidable c] (t : State) : BootKeeps t (if c then grantPf 8 s.flash.cfg.pf8 t else t) :=
    .ite c (bootKeeps_grantPf 8 _ t (by decide)) (.refl t)
  have hfn (t : State) : BootKeeps t (iter 16 (fun f u => setRights (Pg.hifFn f) f 7 u) t) :=
    .iter 16 _ (fun f hf u => bootKeeps_setRights _ _ _ u (by unfold Pg.hifFn; omega) (by omega)) t
  exact (bootKeeps_grantPf 0 _ s (by decide)).trans ((hpf _ _).trans ((hfn _).trans
    ((hop _ 0 (by decide) _).trans ((hop _ 20 (by decide) _).trans (hop _ 8 (by decide) _)))))

/-! ### The replay of the log (R422) -/

theorem isBootReg_arr7 (n o : Nat) : isBootReg (Pg.arr7 n + o) = false :=
  isBootReg_of_gt _ (by unfold Pg.arr7 R.SEC_BOOT Pg.secBoot; omega)

theorem isBootReg_spareMap (n : Nat) : isBootReg (R.ARR_SPARE_MAP n) = false := isBootReg_arr7 n _

theorem isBootReg_wearRow (n k : Nat) : isBootReg (R.ARR_WEAR_ROW n k) = false := by
  simp only [R.ARR_WEAR_ROW, Nat.add_assoc, isBootReg_arr7]

theorem isBootReg_wearCol (n k : Nat) : isBootReg (R.ARR_WEAR_COL n k) = false := by
  simp only [R.ARR_WEAR_COL, Nat.add_assoc, isBootReg_arr7]

theorem isBootReg_bankMap (n k : Nat) : isBootReg (R.SPD_BANK_MAP n k) = false :=
  isBootReg_of_gt _ (by unfold R.SPD_BANK_MAP R.SEC_BOOT Pg.spd3 Pg.secBoot; omega)

/-- A spare that was swapped in goes back to its place (R95, R121). -/
theorem bootKeeps_replaySpare (s : State) (e : LogEntry) (hu : ¬ 18 ≤ e.unit) (hc : e.cls = LogCls.spareSwap) :
    BootKeeps s (replayEntry s e) := by
  unfold replayEntry
  rw [if_neg hu, if_pos hc]
  split
  · exact (BootKeeps.setFld _ _ _ _ (isBootReg_spareMap _)).trans (.setFld _ _ _ _ (isBootReg_relCore _))
  · split
    · exact (BootKeeps.setFld _ _ _ _ (isBootReg_spareMap _)).trans (.setFld _ _ _ _ (isBootReg_relCore _))
    · split
      · split
        · next l _ =>
          dsimp only
          exact (BootKeeps.setFld s _ _ _ (isBootReg_bankMap e.unit l)).trans
            ((BootKeeps.modCore _ _ _).trans (.setFld _ _ _ _ (isBootReg_relCore _)))
        · exact .refl s
      · exact .ite _ (.setFld _ _ _ _ (isBootReg_relCore _)) (.refl s)

theorem bootKeeps_replayWear (s : State) (e : LogEntry) (hu : ¬ 18 ≤ e.unit) (hc : e.cls = LogCls.wear) :
    BootKeeps s (replayEntry s e) := by
  unfold replayEntry
  rw [if_neg hu, hc, if_neg (by decide), if_neg (by decide), if_neg (by decide), if_pos rfl]
  refine (BootKeeps.iter 18 _ (fun i _ t => (BootKeeps.setReg t _ _ (isBootReg_wearRow _ i)).trans
    (.setReg _ _ _ (isBootReg_wearCol _ i))) s).trans (BootKeeps.foldl _ e.arg (fun t w _ => ?_) _)
  dsimp only
  refine .ite _ (.refl t) (.setFld t _ _ _ ?_)
  split
  · exact isBootReg_wearRow _ _
  · exact isBootReg_wearCol _ _

theorem bootKeeps_replayEntry (s : State) (e : LogEntry) : BootKeeps s (replayEntry s e) := by
  by_cases hu : 18 ≤ e.unit
  · rw [replayEntry, if_pos hu]; exact .refl s
  by_cases hsp : e.cls = LogCls.spareSwap
  · exact bootKeeps_replaySpare s e hu hsp
  by_cases hw : e.cls = LogCls.wear
  · exact bootKeeps_replayWear s e hu hw
  unfold replayEntry
  rw [if_neg hu, if_neg hsp]
  split
  · split
    · exact (BootKeeps.setFld _ _ _ _ (isBootReg_relCore _)).trans (.setFld _ _ _ _ (isBootReg_relCore _))
    · exact (BootKeeps.modMt _ _).trans (.setFld _ _ _ _ (by decide))
  · split
    · exact .setReg _ _ _ (by decide)
    · exact .refl s

theorem bootKeeps_replayLog (s : State) : BootKeeps s (replayLog s) :=
  BootKeeps.foldl _ _ (fun t e _ => bootKeeps_replayEntry t e) s

/-! ### Service (R485) -/

theorem bootKeeps_bootService (s : State) : BootKeeps s (bootService s) := by
  have hfn : BootKeeps s (if s.flash.brd.split = 1 then setFnState 8 fnReady (setFnState 0 fnReady s)
      else setFnState 0 fnReady s) :=
    .ite _ ((bootKeeps_setFnState _ _ _).trans (bootKeeps_setFnState _ _ _)) (bootKeeps_setFnState _ _ _)
  have hcc (t : State) : BootKeeps t (iter 4 ccoreCounts t) := .iter 4 _ (fun k _ u => bootKeeps_ccoreCounts k u) t
  have hreplay := hfn.trans ((bootKeeps_arRegs _).trans ((bootKeeps_bootKeys _).trans ((bootKeeps_grantAll _).trans
    ((hcc _).trans (bootKeeps_replayLog _)))))
  unfold bootService
  dsimp only
  generalize replayLog _ = u at hreplay ⊢
  refine hreplay.trans (BootKeeps.trans ?_ (.sendIbi _ 6))
  cases railShort u with
  | some k => exact .logEntry _ _
  | none => exact .refl u

/-! ### The records take effect (R29, R437, R439) -/

theorem bootKeeps_setDebug (s : State) (v : Nat) : BootKeeps s (s.setFld R.TST_MODE F.TST_MODE_DEBUG_OPEN v) where
  boot := State.reg_setFld_ne _ _ _ _ _ (by decide)
  prod := State.fld_setFld_other _ _ _ _ _ (by decide) (by decide)
  dom := fun d hd => State.fld_setFld_ne _ _ _ _ _ _ (by unfold R.PWR_DOM_STATUS R.TST_MODE Pg.pwr Pg.tstMode; omega)
  fellBack := fun h => by rw [State.fellBack, State.reg_setFld_ne _ _ _ _ _ (by decide)]; exact h
  kept := rfl

theorem bootKeeps_cfgRegs (s : State) : BootKeeps s (cfgRegs s) := by
  have hcap (t : State) (v w : Word) : BootKeeps t ((t.setReg (Pg.mgt0 + 8) v).setReg (Pg.pwr + 8) w) :=
    (BootKeeps.setReg _ _ _ (by decide)).trans (.setReg _ _ _ (by decide))
  have hdom (t : State) : BootKeeps t
      (iter 20 (fun d u => if u.disabled d then u.setFld (R.PWR_DOM_CTRL d) F.PWR_DOM_CTRL_MODE 0 else u) t) :=
    .iter 20 _ (fun d hd u => .ite _ (.setFld _ _ _ _ (isBootReg_domCtrl d (by omega))) (.refl u)) t
  have hcores (l : List Nat) (t : State) : BootKeeps t (l.foldl (fun u n => u.setFld (R.REL_CORE n) F.REL_CORE_STATE 1) t) :=
    .foldl _ l (fun u n _ => .setFld _ _ _ _ (isBootReg_relCore n)) t
  have hcc (c : Prop) [Decidable c] (t : State) : BootKeeps t (if c then t.setFld (R.REL_CCORE 3) F.REL_CCORE_STATE 1 else t) :=
    .ite c (.setFld _ _ _ _ (isBootReg_relCcore 3)) (.refl t)
  have hcomm (t : State) : BootKeeps t (iter 64 (fun k u => u.setReg (R.PLM_COMM k) (s.flash.cfg.comm.getD k 0 &&& 0xFF#32)) t) :=
    .iter 64 _ (fun k _ u => .setReg _ _ _ (isBootReg_of_gt _ (by
      unfold R.PLM_COMM R.SEC_BOOT Pg.plmComm Pg.secBoot; omega))) t
  exact (hcap s _ _).trans ((hdom _).trans ((hcores _ _).trans ((hcc _ _).trans
    ((BootKeeps.setFld _ _ _ _ (by decide)).trans ((hcomm _).trans (bootKeeps_setDebug _ _))))))

theorem bootKeeps_brdRegs (s : State) : BootKeeps s (brdRegs s) := by
  have hmap (t : State) : BootKeeps t
      (iter 6 (fun p u => u.setFld (R.PLM_PORT_MAP p) F.PLM_PORT_MAP_DIR (s.flash.brd.dirs.getD p 7)) t) :=
    .iter 6 _ (fun p _ u => .setFld _ _ _ _ (isBootReg_of_gt _ (by
      unfold R.PLM_PORT_MAP R.SEC_BOOT Pg.plmPort Pg.secBoot; omega))) t
  exact (BootKeeps.setFld s _ _ _ (by decide)).trans ((BootKeeps.setReg _ _ _ (by decide)).trans
    ((BootKeeps.setReg _ _ _ (by decide)).trans (hmap _)))

theorem bootKeeps_trainRegs (o : BootOutcome) (s : State) : BootKeeps s (trainRegs o s) := by
  have hreg (t : Nat) : isBootReg (R.REL_MEM t) = false :=
    isBootReg_of_gt _ (by unfold R.REL_MEM R.SEC_BOOT Pg.rel1 Pg.secBoot; omega)
  have hmem : BootKeeps s (iter 3 (fun t u =>
      let q := o.mem.getD t (0, 0)
      (u.setFld (R.REL_MEM t) F.REL_MEM_LANES_LEFT q.1).setFld (R.REL_MEM t) F.REL_MEM_PPR_LEFT q.2) s) :=
    .iter 3 _ (fun t _ u => (BootKeeps.setFld _ _ _ _ (hreg t)).trans (.setFld _ _ _ _ (hreg t))) s
  exact hmem.trans ((BootKeeps.setFld _ _ _ _ (by decide)).trans ((BootKeeps.setFld _ _ _ _ (by decide)).trans
    ((BootKeeps.setFld _ _ _ _ (by decide)).trans (.of_same rfl rfl))))

end Sys2Proof.Machine
end

section
/-! PROOFS. The outcome of the boot chain (R440, R441): which RESULT it ends with, which slot it boots, what a chain that ran to
its end shows, and what a chain that halted shows. -/

namespace Sys2Proof.Machine

/-! ### RESULT and slot (R440, R441) -/

/-- An image boots: its checks pass and its SVN is not below the anti-rollback counter. -/
def ImageFits (f : Flash) (i : Option FwImg) (ok : Bool) : Prop := ok = true ∧ ∃ x, i = some x ∧ f.arFw ≤ x.svn

/-- The records before the image pass. -/
def RecordsPass (f : Flash) (o : BootOutcome) : Prop :=
  o.rollbackOk = true ∧ o.pointerOk = true ∧ o.cfgOk = true ∧ f.arCfg ≤ f.cfg.svn ∧ f.cfg.valid = true ∧ o.brdOk = true
    ∧ f.arBrd ≤ f.brd.svn

/-- `ImageFits` as the chain decides it. -/
def imageFits (f : Flash) (i : Option FwImg) (ok : Bool) : Bool :=
  match i with
  | some x => ok && decide (f.arFw ≤ x.svn)
  | none => false

theorem imageFits_iff (f : Flash) (i : Option FwImg) (ok : Bool) : imageFits f i ok = true ↔ ImageFits f i ok := by
  cases i <;> simp [imageFits, ImageFits]

theorem imageFits_eq_false_iff (f : Flash) (i : Option FwImg) (ok : Bool) : imageFits f i ok = false ↔ ¬ ImageFits f i ok := by
  rw [← imageFits_iff, Bool.not_eq_true]

/-- The image of slot `k`, and whether its checks pass. -/
def SlotFits (f : Flash) (o : BootOutcome) (k : Nat) : Prop :=
  ImageFits f (if k = 0 then f.img0 else f.img1) (if k = 0 then o.img0Ok else o.img1Ok)

theorem slotFits_zero (f : Flash) (o : BootOutcome) : SlotFits f o 0 = ImageFits f f.img0 o.img0Ok := rfl

theorem slotFits_one (f : Flash) (o : BootOutcome) : SlotFits f o 1 = ImageFits f f.img1 o.img1Ok := rfl

section
variable (o : BootOutcome) (s : State)

theorem bootResult_eq (idOk : Bool) : bootResult o idOk s =
    if !idOk || !o.rollbackOk then 1
    else if !o.pointerOk then 2
    else if !o.cfgOk || decide (s.flash.cfg.svn < s.flash.arCfg) || !s.flash.cfg.valid then 3 + Config.freeNat s.free % 2
    else if !o.brdOk || decide (s.flash.brd.svn < s.flash.arBrd) then 5
    else if !imageFits s.flash s.flash.img0 o.img0Ok && !imageFits s.flash s.flash.img1 o.img1Ok then 6
    else 0 := rfl

theorem bootResult_le (idOk : Bool) : bootResult o idOk s ≤ 6 := by
  rw [bootResult_eq]
  repeat' split
  all_goals omega

theorem bootResult_identity : bootResult o false s = 1 := rfl

theorem bootResult_rollback (idOk : Bool) (h : o.rollbackOk = false) : bootResult o idOk s = 1 := by
  simp [bootResult_eq, h]

theorem bootResult_pointer (h1 : o.rollbackOk = true) (h2 : o.pointerOk = false) : bootResult o true s = 2 := by
  simp [bootResult_eq, h1, h2]

theorem bootResult_config (h1 : o.rollbackOk = true) (h2 : o.pointerOk = true) (h3 : o.cfgOk = false) :
    bootResult o true s = 3 ∨ bootResult o true s = 4 := by
  have h : bootResult o true s = 3 + Config.freeNat s.free % 2 := by simp [bootResult_eq, h1, h2, h3]
  omega

theorem bootResult_board (h1 : o.rollbackOk = true) (h2 : o.pointerOk = true) (h3 : o.cfgOk = true)
    (h4 : s.flash.arCfg ≤ s.flash.cfg.svn) (h5 : s.flash.cfg.valid = true)
    (h6 : o.brdOk = false ∨ s.flash.brd.svn < s.flash.arBrd) : bootResult o true s = 5 := by
  rcases h6 with h6 | h6 <;> simp [bootResult_eq, h1, h2, h3, h4, h5, h6]

/-- With the records good the images decide. -/
theorem bootResult_images (h : RecordsPass s.flash o) : bootResult o true s =
    if !imageFits s.flash s.flash.img0 o.img0Ok && !imageFits s.flash s.flash.img1 o.img1Ok then 6 else 0 := by
  obtain ⟨h1, h2, h3, h4, h5, h6, h7⟩ := h
  have h4' : ¬ s.flash.cfg.svn < s.flash.arCfg := Nat.not_lt.mpr h4
  have h7' : ¬ s.flash.brd.svn < s.flash.arBrd := Nat.not_lt.mpr h7
  simp only [bootResult_eq, h1, h2, h3, h4', h5, h6, h7', Bool.not_true, Bool.or_self, decide_false, Bool.false_eq_true,
    if_false]

theorem bootResult_noImage (h : RecordsPass s.flash o) (h0 : ¬ SlotFits s.flash o 0) (h1 : ¬ SlotFits s.flash o 1) :
    bootResult o true s = 6 := by
  rw [slotFits_zero, ← imageFits_eq_false_iff] at h0
  rw [slotFits_one, ← imageFits_eq_false_iff] at h1
  simp [bootResult_images o s h, h0, h1]

theorem bootResult_pass (h : RecordsPass s.flash o) (k : Nat) (hk : SlotFits s.flash o k) : bootResult o true s = 0 := by
  rw [bootResult_images o s h]
  by_cases h0 : k = 0
  · subst h0
    rw [slotFits_zero, ← imageFits_iff] at hk
    simp [hk]
  · have h1 : imageFits s.flash s.flash.img1 o.img1Ok = true := by
      rw [imageFits_iff]; simpa [SlotFits, h0] using hk
    simp [h1]

theorem bootSlot_eq : bootSlot o s =
    if imageFits s.flash (if s.flash.slot = 0 then s.flash.img0 else s.flash.img1)
      (if s.flash.slot = 0 then o.img0Ok else o.img1Ok) then s.flash.slot else 1 - s.flash.slot := rfl

theorem bootSlot_pointer (h : SlotFits s.flash o s.flash.slot) : bootSlot o s = s.flash.slot := by
  rw [bootSlot_eq, if_pos ((imageFits_iff _ _ _).mpr h)]

theorem bootSlot_other (h : ¬ SlotFits s.flash o s.flash.slot) : bootSlot o s = 1 - s.flash.slot := by
  rw [bootSlot_eq, if_neg (mt (imageFits_iff _ _ _).mp h)]

end

/-! ### Register words alone -/

/-- Nothing but register words differs. -/
def RegsOnly (s t : State) : Prop := t = { s with regs := t.regs }

theorem RegsOnly.trans {s t u : State} (h : RegsOnly s t) (k : RegsOnly t u) : RegsOnly s u := by
  unfold RegsOnly at *; rw [k, h]

theorem RegsOnly.setReg (s : State) (a : Nat) (w : Word) : RegsOnly s (s.setReg a w) := rfl

theorem RegsOnly.iter (n : Nat) (f : Nat → State → State) (h : ∀ k s, RegsOnly s (f k s)) (s : State) :
    RegsOnly s (iter n f s) := by
  induction n with
  | zero => rfl
  | succ n ih => exact ih.trans (h n _)

/-! ### The identity registers (R445, R460) -/

section
variable (s : State)

theorem idRegs_regsOnly : RegsOnly s (idRegs s) := by
  unfold idRegs
  split
  · exact .setReg _ _ _
  · exact (RegsOnly.setReg _ _ _).trans (.iter _ _ (fun _ _ => .setReg _ _ _) _)

/-- A register that an iteration of register writes never addresses stands. -/
theorem iter_setReg_reg (n : Nat) (a : Nat → Nat) (w : Nat → Word) (s : State) (b : Nat) (h : ∀ k, k < n → b ≠ a k) :
    (iter n (fun k t => t.setReg (a k) (w k)) s).reg b = s.reg b := by
  induction n with
  | zero => rfl
  | succ n ih =>
    exact (State.reg_setReg_ne _ _ _ _ (h n (Nat.lt_succ_self n))).trans (ih fun k hk => h k (Nat.lt_succ_of_lt hk))

theorem idRegs_reg (a : Nat) (h1 : a ≠ R.SEC_BOOT) (h2 : ∀ k, k < 8 → a ≠ R.SEC_DEVID k) : (idRegs s).reg a = s.reg a := by
  unfold idRegs
  split
  · exact State.reg_setFld_ne _ _ _ _ _ h1
  · rw [iter_setReg_reg _ _ _ _ _ h2, State.reg_setFld_ne _ _ _ _ _ h1]

/-- Only ID_VALID of SEC_BOOT follows the identity record. -/
theorem idRegs_boot (g : Fld) (h : g.hi < 9 ∨ 9 < g.lo) : (idRegs s).fld R.SEC_BOOT g = s.fld R.SEC_BOOT g := by
  have hdev (k : Nat) (_ : k < 8) : R.SEC_BOOT ≠ R.SEC_DEVID k := by unfold R.SEC_BOOT R.SEC_DEVID; omega
  unfold idRegs
  split
  · exact State.fld_setFld_other _ _ _ _ _ (by decide) h
  · rw [State.fld, iter_setReg_reg _ _ _ _ _ hdev]
    exact State.fld_setFld_other _ _ _ _ _ (by decide) h

end

/-! ### The start of the chain (R440) -/

/-- The control complex is released and the identity is read. -/
def bootBegun (idOk : Bool) (s : State) : State :=
  let s0 := (setDomState 29 2 0 s).setReg R.CLK_STATUS (s.reg R.CLK_STATUS ||| 3#32)
  if idOk then idRegs s0 else s0.setFld R.SEC_BOOT F.SEC_BOOT_ID_VALID 0

section
variable (idOk : Bool) (s : State)

theorem bootBegun_regsOnly : RegsOnly s (bootBegun idOk s) := by
  unfold bootBegun
  dsimp only
  split
  · exact RegsOnly.trans (t := (setDomState 29 2 0 s).setReg _ _) rfl (idRegs_regsOnly _)
  · rfl

@[simp] theorem bootBegun_flash : (bootBegun idOk s).flash = s.flash := by rw [bootBegun_regsOnly]

theorem bootBegun_kept : (bootBegun idOk s).bootKept = s.bootKept := by rw [bootBegun_regsOnly]; rfl

/-- The start of the chain touches DOM_STATUS of the control complex, CLK_STATUS, SEC_BOOT and SEC_DEVID. -/
theorem bootBegun_reg (a : Nat) (h1 : a ≠ R.PWR_DOM_STATUS 29) (h2 : a ≠ R.CLK_STATUS) (h3 : a ≠ R.SEC_BOOT)
    (h4 : ∀ k, k < 8 → a ≠ R.SEC_DEVID k) : (bootBegun idOk s).reg a = s.reg a := by
  have h0 : ((setDomState 29 2 0 s).setReg R.CLK_STATUS (s.reg R.CLK_STATUS ||| 3#32)).reg a = s.reg a := by
    rw [State.reg_setReg_ne _ _ _ _ h2, setDomState_reg_ne _ _ _ _ _ h1]
  unfold bootBegun
  dsimp only
  split
  · rw [idRegs_reg _ _ h3 h4, h0]
  · rw [State.reg_setFld_ne _ _ _ _ _ h3, h0]

theorem bootBegun_domState (d : Nat) (hd : d < 31) (h : d ≠ 29) : (bootBegun idOk s).domState d = s.domState d := by
  have hreg := bootBegun_reg idOk s (R.PWR_DOM_STATUS d) (domStatus_ne h) (domStatus_ne_clk hd)
    (by unfold R.PWR_DOM_STATUS R.SEC_BOOT Pg.pwr Pg.secBoot; omega)
    (fun k _ => by unfold R.PWR_DOM_STATUS R.SEC_DEVID Pg.pwr Pg.secBoot; omega)
  simp only [State.domState, State.fld, hreg]

theorem bootBegun_prod : (bootBegun idOk s).fld R.TST_MODE F.TST_MODE_PROD = s.fld R.TST_MODE F.TST_MODE_PROD := by
  rw [State.fld, bootBegun_reg idOk s _ (by decide) (by decide) (by decide)
    (fun k _ => by unfold R.TST_MODE R.SEC_DEVID Pg.tstMode Pg.secBoot; omega), State.fld]

theorem bootBegun_linkStatus : (bootBegun idOk s).reg (R.HIF_LINK_STATUS 0) = s.reg (R.HIF_LINK_STATUS 0) :=
  bootBegun_reg idOk s (R.HIF_LINK_STATUS 0) (by decide) (by decide) (by decide)
    (fun k _ => by unfold R.HIF_LINK_STATUS R.SEC_DEVID Pg.hif0 Pg.secBoot; omega)

end

/-! ### A chain that halts (R441) -/

/-- The chain stopped with RESULT `r`: the part does not serve, asks for service, and no host link is up. -/
def BootHalted (t : State) (r : Nat) : Prop :=
  t.booted = false ∧ t.fld R.SEC_BOOT F.SEC_BOOT_RESULT = r ∧ bitOf (t.reg R.REL_SVC).toNat 6 = true
    ∧ t.flag (R.HIF_LINK_STATUS 0) F.HIF_LINK_STATUS_UP = false

theorem haltStage_lt (r : Nat) : haltStage r < 6 := by
  unfold haltStage
  split <;> decide

theorem not_booted_of_stage (s : State) (h : s.fld R.SEC_BOOT F.SEC_BOOT_STAGE ≠ 7) : s.booted = false := by
  simp [State.booted, h]

/-- STAGE and RESULT as the chain halts. -/
def haltShown (r : Nat) (s : State) : State :=
  ((s.drew 1).setFld R.SEC_BOOT F.SEC_BOOT_STAGE (haltStage r)).setFld R.SEC_BOOT F.SEC_BOOT_RESULT r

theorem bootKeeps_bootHalt (r : Nat) (s : State) : BootKeeps (haltShown r s) (bootHalt r s) :=
  (BootKeeps.svcEvent _ 6).trans (.sendIbi _ 5)

theorem bootHalt_kept (r : Nat) (s : State) : (bootHalt r s).bootKept = s.bootKept := (bootKeeps_bootHalt r s).kept

theorem bootHalt_domState (r : Nat) (s : State) (d : Nat) (hd : d < 31) : (bootHalt r s).domState d = s.domState d := by
  have hne : R.PWR_DOM_STATUS d ≠ R.SEC_BOOT := by unfold R.PWR_DOM_STATUS R.SEC_BOOT Pg.pwr Pg.secBoot; omega
  refine ((bootKeeps_bootHalt r s).dom d hd).trans ?_
  rw [State.domState, haltShown, State.fld_setFld_ne _ _ _ _ _ _ hne, State.fld_setFld_ne _ _ _ _ _ _ hne]
  rfl

theorem bootHalt_halted (r : Nat) (s : State) (hr : r < 16)
    (hl : s.flag (R.HIF_LINK_STATUS 0) F.HIF_LINK_STATUS_UP = false) : BootHalted (bootHalt r s) r := by
  have hboot (g : Fld) : (bootHalt r s).fld R.SEC_BOOT g = (haltShown r s).fld R.SEC_BOOT g := by
    rw [State.fld, (bootKeeps_bootHalt r s).boot, State.fld]
  have hlt := haltStage_lt r
  have hstage : (bootHalt r s).fld R.SEC_BOOT F.SEC_BOOT_STAGE = haltStage r := by
    rw [hboot, haltShown, State.fld_setFld_other _ _ _ _ _ (by decide) (by decide), State.fld_setFld_same _ _ _ _ (by decide)]
    exact Nat.mod_eq_of_lt (Nat.lt_trans hlt (by decide))
  have hresult : (bootHalt r s).fld R.SEC_BOOT F.SEC_BOOT_RESULT = r := by
    rw [hboot, haltShown, State.fld_setFld_same _ _ _ _ (by decide)]
    exact Nat.mod_eq_of_lt hr
  have hsvc : bitOf ((bootHalt r s).reg R.REL_SVC).toNat 6 = true := by
    have h := svcEvent_svc 6 (haltShown r s)
    have h' : (bootHalt r s).reg R.REL_SVC = (svcEvent 6 (haltShown r s)).reg R.REL_SVC := sendIbi_reg 5 _ _
    rw [bitOf_toNat, h', h]
    simp [getLsbD_bit32 6 6 (by decide)]
  have hlink : (bootHalt r s).reg (R.HIF_LINK_STATUS 0) = s.reg (R.HIF_LINK_STATUS 0) := by
    refine (sendIbi_reg 5 _ _).trans ((svcEvent_reg 6 _ _ (by decide) (by decide)).trans ?_)
    rw [State.reg_setFld_ne _ _ _ _ _ (by decide), State.reg_setFld_ne _ _ _ _ _ (by decide)]
    rfl
  refine ⟨not_booted_of_stage _ (by omega), hresult, hsvc, ?_⟩
  rw [State.flag, State.fld, hlink]
  exact hl

theorem bootChain_halts (o : BootOutcome) (idOk : Bool) (s : State) (h : bootResult o idOk (bootBegun idOk s) ≠ 0) :
    bootChain o idOk s = bootHalt (bootResult o idOk (bootBegun idOk s)) (bootBegun idOk s) := if_pos h

/-! ### A chain that runs to its end (R440, R441) -/

/-- The image that step 6 boots from `slot`. -/
def bootImage (s : State) (slot : Nat) : FwImg := (if slot = 0 then s.flash.img0 else s.flash.img1).getD ⟨0, 0, 0, 0⟩

/-- SEC_BOOT once an image is booted (R460). -/
def bootWord (f : Flash) (slot : Nat) : Word :=
  BitVec.ofNat 32 (7 + slot * 2 ^ 7 + (if slot ≠ f.slot then 2 ^ 8 else 0) + 2 ^ 9 + (f.boots + 1) % 65536 * 2 ^ 16)

/-- The records are in force and SEC_BOOT shows the boot. -/
def bootLoaded (slot : Nat) (s : State) : State :=
  (({ s with recs := recsOf s.flash (bootImage s slot) s.free, flash := { s.flash with boots := s.flash.boots + 1 } }).drew
    48).setReg R.SEC_BOOT (bootWord s.flash slot)

/-- The records, training and the image's version are in their registers. -/
def bootShown (o : BootOutcome) (slot : Nat) (img : FwImg) (s : State) : State :=
  (((trainRegs o (brdRegs (cfgRegs s))).setFld R.CTL_STATUS F.CTL_STATUS_BOOT_SLOT slot).setFld R.CTL_STATUS
    F.CTL_STATUS_FW_VER img.version).count Pg.secBoot 0 1

/-- A boot from the slot that the pointer does not name is reported. -/
def bootReported (slot : Nat) (img : FwImg) (s : State) : State :=
  logEntry { cls := LogCls.boot, arg0 := img.version % 65536 + slot * 2 ^ 32 }
    (errEvent Pg.secBoot E.secBoot_FALLBACK (s.count Pg.secBoot 1 1))

/-- The host links train unless PERST_N is low. -/
def bootLinked (o : BootOutcome) (s : State) : State := if s.pins.perstLow then s else linksUp o.links s

theorem bootChain_runs (o : BootOutcome) (idOk : Bool) (s : State) (h : bootResult o idOk (bootBegun idOk s) = 0) :
    let s1 := bootBegun idOk s
    let slot := bootSlot o s1
    let s5 := bootShown o slot (bootImage s1 slot) (bootLoaded slot s1)
    bootChain o idOk s
      = bootLinked o (bootService (if slot ≠ s1.flash.slot then bootReported slot (bootImage s1 slot) s5 else s5)) :=
  if_neg (not_not_intro h)

theorem bootKeeps_bootShown (o : BootOutcome) (slot : Nat) (img : FwImg) (s : State) :
    BootKeeps s (bootShown o slot img s) :=
  (bootKeeps_cfgRegs s).trans ((bootKeeps_brdRegs _).trans ((bootKeeps_trainRegs o _).trans
    ((BootKeeps.setFld _ _ _ _ (by decide)).trans ((BootKeeps.setFld _ _ _ _ (by decide)).trans (.count _ _ _ _)))))

theorem bootKeeps_bootReported (slot : Nat) (img : FwImg) (s : State) : BootKeeps s (bootReported slot img s) :=
  (BootKeeps.count _ _ _ _).trans ((BootKeeps.errEvent _ _).trans (.logEntry _ _))

theorem bootReported_fellBack (slot : Nat) (img : FwImg) (s : State) : (bootReported slot img s).fellBack = true :=
  (BootKeeps.logEntry _ _).fellBack (errEvent_sets _ _ _ (by decide))

theorem bootKeeps_bootLinked (o : BootOutcome) (s : State) : BootKeeps s (bootLinked o s) :=
  .ite _ (.refl s) (bootKeeps_linksUp _ _)

/-- Once the image is chosen the chain keeps what it shows of the boot. -/
theorem bootKeeps_bootChain (o : BootOutcome) (idOk : Bool) (s : State) (h : bootResult o idOk (bootBegun idOk s) = 0) :
    BootKeeps (bootLoaded (bootSlot o (bootBegun idOk s)) (bootBegun idOk s)) (bootChain o idOk s) := by
  rw [bootChain_runs o idOk s h]
  exact (bootKeeps_bootShown _ _ _ _).trans ((BootKeeps.ite _ (bootKeeps_bootReported _ _ _) (.refl _)).trans
    ((bootKeeps_bootService _).trans (bootKeeps_bootLinked _ _)))

theorem bootChain_fellBack (o : BootOutcome) (idOk : Bool) (s : State) (h : bootResult o idOk (bootBegun idOk s) = 0)
    (hs : bootSlot o (bootBegun idOk s) ≠ s.flash.slot) : (bootChain o idOk s).fellBack = true := by
  rw [bootChain_runs o idOk s h]
  rw [bootBegun_flash, if_pos hs]
  exact ((bootKeeps_bootService _).trans (bootKeeps_bootLinked _ _)).fellBack (bootReported_fellBack _ _ _)

theorem bootWord_fields (f : Flash) (slot : Nat) (h : slot < 2) :
    wordFld (bootWord f slot) F.SEC_BOOT_STAGE = 7 ∧ wordFld (bootWord f slot) F.SEC_BOOT_RESULT = 0
      ∧ wordFld (bootWord f slot) F.SEC_BOOT_SLOT = slot
      ∧ wordFld (bootWord f slot) F.SEC_BOOT_FALLBACK = (if slot ≠ f.slot then 1 else 0)
      ∧ wordFld (bootWord f slot) F.SEC_BOOT_ID_VALID = 1
      ∧ wordFld (bootWord f slot) F.SEC_BOOT_BOOTS = (f.boots + 1) % 65536 := by
  unfold wordFld bitsOf bootWord F.SEC_BOOT_STAGE F.SEC_BOOT_RESULT F.SEC_BOOT_SLOT F.SEC_BOOT_FALLBACK F.SEC_BOOT_ID_VALID
    F.SEC_BOOT_BOOTS
  simp only [BitVec.toNat_ofNat]
  split <;> omega

/-- The part serves from the image of slot `k`, of a flash that held `f` before. -/
structure BootUp (f : Flash) (k : Nat) (t : State) : Prop where
  booted : t.booted = true
  result : t.fld R.SEC_BOOT F.SEC_BOOT_RESULT = 0
  idValid : t.fld R.SEC_BOOT F.SEC_BOOT_ID_VALID = 1
  boots : t.fld R.SEC_BOOT F.SEC_BOOT_BOOTS = (f.boots + 1) % 65536
  variant : t.recs.variant = f.cfg.variant
  slot : t.fld R.SEC_BOOT F.SEC_BOOT_SLOT = k
  fallback : t.fld R.SEC_BOOT F.SEC_BOOT_FALLBACK = (if k ≠ f.slot then 1 else 0)
  flash : t.flash = { f with boots := f.boots + 1 }
  fellBack : k ≠ f.slot → t.fellBack = true

theorem bootChain_up (o : BootOutcome) (idOk : Bool) (s : State) (h : bootResult o idOk (bootBegun idOk s) = 0)
    (hp : s.fld R.TST_MODE F.TST_MODE_PROD = 0) (slot : Nat) (hs : bootSlot o (bootBegun idOk s) = slot) (hlt : slot < 2) :
    BootUp s.flash slot (bootChain o idOk s) := by
  have hk := bootKeeps_bootChain o idOk s h
  have hfell := bootChain_fellBack o idOk s h
  rw [hs] at hk hfell
  obtain ⟨-, -, -, -, -, -, hflash, hrecs⟩ := (bootKept_iff _ _).mp hk.kept
  have hword : (bootChain o idOk s).reg R.SEC_BOOT = bootWord s.flash slot := by
    rw [hk.boot, bootLoaded, State.reg_setReg_same, bootBegun_flash]
  have hfld (g : Fld) : (bootChain o idOk s).fld R.SEC_BOOT g = wordFld (bootWord s.flash slot) g := by
    rw [State.fld, hword]
  have hprod : (bootChain o idOk s).fld R.TST_MODE F.TST_MODE_PROD = 0 := by
    rw [hk.prod, bootLoaded, State.fld_setReg_ne _ _ _ _ _ (by decide)]
    exact (bootBegun_prod idOk s).trans hp
  obtain ⟨w1, w2, w3, w4, w5, w6⟩ := bootWord_fields s.flash slot hlt
  refine ⟨?_, (hfld _).trans w2, (hfld _).trans w5, (hfld _).trans w6, ?_, (hfld _).trans w3, (hfld _).trans w4, ?_, hfell⟩
  · simp [State.booted, hfld, w1, hprod]
  · rw [hrecs]
    show (bootBegun idOk s).flash.cfg.variant = _
    rw [bootBegun_flash]
  · rw [hflash]
    show { (bootBegun idOk s).flash with boots := (bootBegun idOk s).flash.boots + 1 } = _
    rw [bootBegun_flash]

/-- A boot loses nothing that a memory holds, and takes no domain but the control complex out of its state. -/
theorem bootChain_keeps (o : BootOutcome) (idOk : Bool) (s : State) :
    (bootChain o idOk s).dtime = s.dtime ∧ (bootChain o idOk s).pending = s.pending ∧ (bootChain o idOk s).spad = s.spad
      ∧ (bootChain o idOk s).da = s.da ∧ (bootChain o idOk s).ctxs = s.ctxs
      ∧ (bootChain o idOk s).hif.entries = s.hif.entries
      ∧ ∀ d, d < 31 → d ≠ 29 → (bootChain o idOk s).domState d = s.domState d := by
  obtain ⟨b1, b2, b3, b4, b5, b6, -⟩ := (bootKept_iff _ _).mp (bootBegun_kept idOk s)
  by_cases h : bootResult o idOk (bootBegun idOk s) = 0
  · have hk := bootKeeps_bootChain o idOk s h
    obtain ⟨k1, k2, k3, k4, k5, k6, -⟩ := (bootKept_iff _ _).mp hk.kept
    refine ⟨k1.trans b1, k2.trans b2, k3.trans b3, k4.trans b4, k5.trans b5, k6.trans b6, fun d hd h29 => ?_⟩
    have hne : R.PWR_DOM_STATUS d ≠ R.SEC_BOOT := by unfold R.PWR_DOM_STATUS R.SEC_BOOT Pg.pwr Pg.secBoot; omega
    refine (hk.dom d hd).trans ((State.fld_setReg_ne _ _ _ _ _ hne).trans (bootBegun_domState idOk s d hd h29))
  · rw [bootChain_halts o idOk s h]
    obtain ⟨k1, k2, k3, k4, k5, k6, -⟩ := (bootKept_iff _ _).mp (bootHalt_kept (bootResult o idOk (bootBegun idOk s))
      (bootBegun idOk s))
    exact ⟨k1.trans b1, k2.trans b2, k3.trans b3, k4.trans b4, k5.trans b5, k6.trans b6,
      fun d hd h29 => (bootHalt_domState _ _ d hd).trans (bootBegun_domState idOk s d hd h29)⟩

/-- A chain whose RESULT is not 0 halts with it. -/
theorem bootChain_halted (o : BootOutcome) (idOk : Bool) (s : State) (r : Nat)
    (h : bootResult o idOk (bootBegun idOk s) = r) (h0 : r ≠ 0)
    (hl : s.flag (R.HIF_LINK_STATUS 0) F.HIF_LINK_STATUS_UP = false) : BootHalted (bootChain o idOk s) r := by
  have hle := bootResult_le o (bootBegun idOk s) idOk
  have hl' : (bootBegun idOk s).flag (R.HIF_LINK_STATUS 0) F.HIF_LINK_STATUS_UP = false := by
    rw [State.flag, State.fld, bootBegun_linkStatus]; exact hl
  rw [bootChain_halts o idOk s (by rw [h]; exact h0), h]
  exact bootHalt_halted r _ (by omega) hl'

end Sys2Proof.Machine
end

section
/-! PROOFS. Resets (R62, R426, R485 to R487, R517): what a cold reset starts from and boots, what a warm reset takes and keeps,
PERST_N high, and a rail below its minimum. -/

namespace Sys2Proof.Machine

/-! ### The start of a cold reset (R426, R485) -/

/-- DTIME starts from zero with every memory lost, the commands that wait kept, every domain but Breeze and the control
complex off, and Breeze on. -/
def StartsFresh (s t : State) : Prop :=
  t.dtime = 0 ∧ t.spad = [] ∧ t.da = [] ∧ t.ctxs = [] ∧ t.hif.entries = [] ∧ t.pending = s.pending
    ∧ (∀ d, d < 29 → t.domState d = 0) ∧ t.domState 30 = 2

theorem reset_domState : (∀ d, d < 29 → State.reset.domState d = 0) ∧ State.reset.domState 30 = 2 := by decide

/-- What power-up leaves in a register, the SEQ of the log apart. -/
theorem powerUp_reg (s : State) (a : Nat) (h : a ≠ R.REL_LOG_SEQ) : (powerUp s).reg a = State.reset.reg a :=
  State.reg_setReg_ne State.reset _ _ a h

theorem powerUp_domState (s : State) (d : Nat) (h : d < 31) : (powerUp s).domState d = State.reset.domState d := by
  have hne : R.PWR_DOM_STATUS d ≠ R.REL_LOG_SEQ := by
    unfold R.PWR_DOM_STATUS R.REL_LOG_SEQ Pg.pwr Pg.rel2; omega
  rw [State.domState, State.fld, powerUp_reg s _ hne]
  rfl

theorem powerUp_fresh (s : State) : StartsFresh s (powerUp s) := by
  obtain ⟨hoff, hon⟩ := reset_domState
  exact ⟨rfl, rfl, rfl, rfl, rfl, rfl, fun d hd => (powerUp_domState s d (by omega)).trans (hoff d hd),
    (powerUp_domState s 30 (by decide)).trans hon⟩

theorem powerUp_not_booted (s : State) : (powerUp s).booted = false := by
  refine not_booted_of_stage _ ?_
  rw [State.fld, powerUp_reg s _ (by decide)]
  decide

/-- The flash as power-up finds it: a program that was not complete is torn (R425). -/
def tornFlash (s : State) : Flash := { s.flash with next := .none, retried := false }

/-- The part as the boot chain of a cold reset finds it, with the levels of the pins. -/
def coldStart (o : BootOutcome) (s : State) : State :=
  let s1 := { powerUp s with pins := { (powerUp s).pins with perstLow := o.perstLow } }
  if o.muteLow then s1.setReg R.BRZ_MUTE 1#32 else s1

section
variable (o : BootOutcome) (s : State)

theorem coldStart_reg (a : Nat) (h : a ≠ R.BRZ_MUTE) : (coldStart o s).reg a = (powerUp s).reg a := by
  unfold coldStart
  dsimp only
  split
  · exact State.reg_setReg_ne _ _ _ _ h
  · rfl

theorem coldStart_flash : (coldStart o s).flash = tornFlash s := by
  unfold coldStart
  dsimp only
  split <;> rfl

theorem coldStart_kept : (coldStart o s).bootKept = (powerUp s).bootKept := by
  unfold coldStart
  dsimp only
  split <;> rfl

theorem coldStart_domState (d : Nat) (h : d < 31) : (coldStart o s).domState d = (powerUp s).domState d := by
  rw [State.domState, State.fld, coldStart_reg o s _ (by unfold R.PWR_DOM_STATUS R.BRZ_MUTE Pg.pwr Pg.brz0; omega)]
  rfl

theorem coldStart_linkDown : (coldStart o s).flag (R.HIF_LINK_STATUS 0) F.HIF_LINK_STATUS_UP = false := by
  rw [State.flag, State.fld, coldStart_reg o s _ (by decide), powerUp_reg s _ (by decide)]
  decide

theorem coldStart_prod : (coldStart o s).fld R.TST_MODE F.TST_MODE_PROD = 0 := by
  rw [State.fld, coldStart_reg o s _ (by decide), powerUp_reg s _ (by decide)]
  decide

theorem coldReset_eq : coldReset o s = bootChain o (o.idOk && s.flash.ident.isSome) (coldStart o s) := by
  have h : (coldStart o s).flash.ident = s.flash.ident := by rw [coldStart_flash]; rfl
  rw [← h]
  rfl

/-! ### Cold reset (R426, R485) -/

theorem exec_coldReset : exec (.coldReset o) s = .next (coldReset o s) := rfl

theorem coldReset_fresh : StartsFresh s (coldReset o s) := by
  obtain ⟨b1, b2, b3, b4, b5, b6, bdom⟩ := bootChain_keeps o (o.idOk && s.flash.ident.isSome) (coldStart o s)
  obtain ⟨c1, c2, c3, c4, c5, c6, -⟩ := (bootKept_iff _ _).mp (coldStart_kept o s)
  obtain ⟨p1, p2, p3, p4, p5, p6, poff, pon⟩ := powerUp_fresh s
  rw [coldReset_eq]
  exact ⟨b1.trans (c1.trans p1), b3.trans (c3.trans p2), b4.trans (c4.trans p3), b5.trans (c5.trans p4),
    b6.trans (c6.trans p5), b2.trans (c2.trans p6),
    fun d hd => (bdom d (by omega) (by omega)).trans ((coldStart_domState o s d (by omega)).trans (poff d hd)),
    (bdom 30 (by decide) (by decide)).trans ((coldStart_domState o s 30 (by decide)).trans pon)⟩

/-- Without its identity the chain halts at once (R441). -/
theorem coldReset_noIdentity (h : o.idOk = false ∨ s.flash.ident = none) : BootHalted (coldReset o s) 1 := by
  have hid : (o.idOk && s.flash.ident.isSome) = false := by rcases h with h | h <;> simp [h]
  rw [coldReset_eq, hid]
  exact bootChain_halted o false _ 1 (bootResult_identity o _) (by decide) (coldStart_linkDown o s)

variable (hid : o.idOk = true) (hident : s.flash.ident.isSome = true)
include hid hident

theorem coldReset_identified : coldReset o s = bootChain o true (coldStart o s) := by rw [coldReset_eq, hid, hident]; rfl

theorem coldReset_halts (r : Nat) (h : bootResult o true (bootBegun true (coldStart o s)) = r) (h0 : r ≠ 0) :
    BootHalted (coldReset o s) r := by
  rw [coldReset_identified o s hid hident]
  exact bootChain_halted o true _ r h h0 (coldStart_linkDown o s)

omit hid hident in
theorem coldBegun_flash : (bootBegun true (coldStart o s)).flash = tornFlash s := by rw [bootBegun_flash, coldStart_flash]

theorem coldReset_board (h1 : o.rollbackOk = true) (h2 : o.pointerOk = true) (h3 : o.cfgOk = true)
    (h4 : s.flash.arCfg ≤ s.flash.cfg.svn) (h5 : s.flash.cfg.valid = true)
    (h6 : o.brdOk = false ∨ s.flash.brd.svn < s.flash.arBrd) : BootHalted (coldReset o s) 5 :=
  coldReset_halts o s hid hident 5 (bootResult_board o _ h1 h2 h3 (by rw [coldBegun_flash]; exact h4)
    (by rw [coldBegun_flash]; exact h5) (by rw [coldBegun_flash]; exact h6)) (by decide)

theorem coldReset_config (h1 : o.rollbackOk = true) (h2 : o.pointerOk = true) (h3 : o.cfgOk = false) :
    BootHalted (coldReset o s) 3 ∨ BootHalted (coldReset o s) 4 :=
  (bootResult_config o _ h1 h2 h3).imp (fun h => coldReset_halts o s hid hident 3 h (by decide))
    (fun h => coldReset_halts o s hid hident 4 h (by decide))

variable (hr : RecordsPass s.flash o)
include hr

omit hid hident in
theorem coldBegun_records : RecordsPass (bootBegun true (coldStart o s)).flash o := by rw [coldBegun_flash]; exact hr

omit hid hident hr in
theorem coldBegun_slotFits (k : Nat) : SlotFits (bootBegun true (coldStart o s)).flash o k ↔ SlotFits s.flash o k := by
  rw [coldBegun_flash]; exact Iff.rfl

theorem coldReset_noImage (h0 : ¬ SlotFits s.flash o 0) (h1 : ¬ SlotFits s.flash o 1) : BootHalted (coldReset o s) 6 :=
  coldReset_halts o s hid hident 6 (bootResult_noImage o _ (coldBegun_records o s hr)
    (mt (coldBegun_slotFits o s 0).mp h0) (mt (coldBegun_slotFits o s 1).mp h1)) (by decide)

theorem coldReset_boots (k : Nat) (hk : SlotFits s.flash o k) (hs : bootSlot o (bootBegun true (coldStart o s)) = k)
    (hlt : k < 2) : BootUp (tornFlash s) k (coldReset o s) := by
  have h0 := bootResult_pass o _ (coldBegun_records o s hr) k ((coldBegun_slotFits o s k).mpr hk)
  rw [coldReset_identified o s hid hident, ← coldStart_flash o s]
  exact bootChain_up o true _ h0 (coldStart_prod o s) k hs hlt

/-- The image of the pointer's slot is booted where it fits. -/
theorem coldReset_pointer (hlt : s.flash.slot < 2) (hk : SlotFits s.flash o s.flash.slot) :
    BootUp (tornFlash s) s.flash.slot (coldReset o s) := by
  have hs : (bootBegun true (coldStart o s)).flash.slot = s.flash.slot := by rw [coldBegun_flash]; rfl
  exact coldReset_boots o s hid hident hr _ hk
    ((bootSlot_pointer o _ ((coldBegun_slotFits o s _).mpr (hs.symm ▸ hk))).trans hs) hlt

/-- The other slot's image is booted where the pointer's does not fit. -/
theorem coldReset_other (hn : ¬ SlotFits s.flash o s.flash.slot) (hk : SlotFits s.flash o (1 - s.flash.slot)) :
    BootUp (tornFlash s) (1 - s.flash.slot) (coldReset o s) := by
  have hs : (bootBegun true (coldStart o s)).flash.slot = s.flash.slot := by rw [coldBegun_flash]; rfl
  have hother := bootSlot_other o (bootBegun true (coldStart o s)) fun h => hn (hs ▸ (coldBegun_slotFits o s _).mp h)
  exact coldReset_boots o s hid hident hr _ hk (hother.trans (by rw [hs])) (by omega)

end

/-! ### Warm reset (R62, R487) -/

/-- What a warm reset clears and what it keeps, before the domains' states and SEC_BOOT are set. -/
structure WarmCleared (s t : State) : Prop where
  perst : t.pins.perstLow = true
  ctxs : t.ctxs = []
  spad : t.spad = []
  entries : t.hif.entries = []
  flash : t.flash = s.flash
  da : t.da = s.da
  dtime : t.dtime = s.dtime
  ring : t.brz.ring = s.brz.ring
  svc : t.reg R.REL_SVC = s.reg R.REL_SVC
  staging : t.rel.staging = s.rel.staging
  aon : t.ctl.aon = s.ctl.aon

/-- Every domain but the control complex and Breeze off. -/
def domainsOff (s : State) : State := setDomState 29 2 0 (iter 29 (fun d t => setDomState d 0 0 t) s)

/-- SEC_BOOT, SEC_AR and the identity as a warm reset leaves them: K_P is held, and the boot count stands. -/
def warmShown (id boots : Nat) (s : State) : State :=
  let s1 := s.setReg R.SEC_BOOT (BitVec.ofNat 32 (1 + id * 2 ^ 9 + boots * 2 ^ 16))
  arRegs (if id = 1 then idRegs s1 else s1)

/-- A filtered table of registers reads a register that it keeps as before. -/
theorem reg_of_filter (s t : State) (p : Nat → Bool) (a : Nat) (h : t.regs = s.regs.filter (fun q => p q.1))
    (ha : p a = true) : t.reg a = s.reg a := by
  rw [State.reg, h, Tab.find_filter, if_pos ha]
  rfl

theorem warmReset_eq (s : State) (h : s.pins.perstLow = false) :
    ∃ s1 boots, warmReset s = warmShown (s.fld R.SEC_BOOT F.SEC_BOOT_ID_VALID) boots (domainsOff s1) ∧ WarmCleared s s1 := by
  refine ⟨_, _, if_neg (by simp [h]), rfl, rfl, rfl, rfl, rfl, rfl, rfl, rfl, ?_, rfl, rfl⟩
  exact reg_of_filter s _ (fun a => inBrz a || warmKept a) R.REL_SVC rfl (by decide)

theorem setDomState_regsOnly (d st ph : Nat) (s : State) : RegsOnly s (setDomState d st ph s) := rfl

theorem setDomState_domState (d st ph : Nat) (s : State) : (setDomState d st ph s).domState d = st % 4 :=
  congrArg Prod.fst (setDomState_domSt d st ph s)

theorem setDomState_domState_ne (d st ph e : Nat) (s : State) (h : e ≠ d) :
    (setDomState d st ph s).domState e = s.domState e := by
  rw [State.domState, State.fld, setDomState_reg_ne d st ph s _ (domStatus_ne h)]
  rfl

theorem domainsOff_regsOnly (s : State) : RegsOnly s (domainsOff s) :=
  (RegsOnly.iter 29 (fun d t => setDomState d 0 0 t) (fun d t => setDomState_regsOnly d 0 0 t) s).trans
    (setDomState_regsOnly 29 2 0 _)

theorem iter_setDomState_off (n d : Nat) (s : State) (h : d < n) :
    (iter n (fun d t => setDomState d 0 0 t) s).domState d = 0 := by
  induction n with
  | zero => omega
  | succ n ih =>
    rw [iter]
    by_cases hd : d = n
    · rw [hd, setDomState_domState]
    · rw [setDomState_domState_ne _ _ _ _ _ hd, ih (by omega)]

theorem domainsOff_domState (s : State) :
    (∀ d, d < 29 → (domainsOff s).domState d = 0) ∧ (domainsOff s).domState 29 = 2 := by
  unfold domainsOff
  refine ⟨fun d hd => ?_, setDomState_domState 29 2 0 _⟩
  rw [setDomState_domState_ne _ _ _ _ _ (by omega), iter_setDomState_off 29 d s hd]

theorem domainsOff_svc (s : State) : (domainsOff s).reg R.REL_SVC = s.reg R.REL_SVC := by
  have hstep (d : Nat) (hd : d < 30) (t : State) : (setDomState d 0 0 t).reg R.REL_SVC = t.reg R.REL_SVC :=
    setDomState_reg_ne _ _ _ _ _ (by unfold R.REL_SVC R.PWR_DOM_STATUS Pg.rel0 Pg.pwr; omega)
  have hiter (n : Nat) (hn : n < 30) : (iter n (fun d t => setDomState d 0 0 t) s).reg R.REL_SVC = s.reg R.REL_SVC := by
    induction n with
    | zero => rfl
    | succ n ih => rw [iter, hstep n (by omega), ih (by omega)]
  unfold domainsOff
  rw [setDomState_reg_ne _ _ _ _ _ (by decide), hiter 29 (by decide)]

section
variable (id boots : Nat) (s : State)

theorem warmShown_regsOnly : RegsOnly s (warmShown id boots s) := by
  unfold warmShown
  dsimp only
  split
  · exact (RegsOnly.setReg _ _ _).trans ((idRegs_regsOnly _).trans (.setReg _ _ _))
  · rfl

/-- A warm reset's SEC page shows in SEC_BOOT, SEC_AR and SEC_DEVID alone. -/
theorem warmShown_reg (a : Nat) (h1 : a ≠ R.SEC_BOOT) (h2 : a ≠ R.SEC_AR) (h3 : ∀ k, k < 8 → a ≠ R.SEC_DEVID k) :
    (warmShown id boots s).reg a = s.reg a := by
  unfold warmShown
  dsimp only
  refine (State.reg_setReg_ne _ _ _ _ h2).trans ?_
  split
  · rw [idRegs_reg _ _ h1 h3, State.reg_setReg_ne _ _ _ _ h1]
  · exact State.reg_setReg_ne _ _ _ _ h1

/-- The chain stands at its first step (R487). -/
theorem warmShown_stage : (warmShown id boots s).fld R.SEC_BOOT F.SEC_BOOT_STAGE = 1 := by
  have hword : wordFld (BitVec.ofNat 32 (1 + id * 2 ^ 9 + boots * 2 ^ 16)) F.SEC_BOOT_STAGE = 1 := by
    unfold wordFld bitsOf F.SEC_BOOT_STAGE
    simp only [BitVec.toNat_ofNat]
    omega
  unfold warmShown
  dsimp only
  refine (State.fld_setReg_ne _ _ _ _ _ (by decide)).trans ?_
  split
  · rw [idRegs_boot _ _ (by decide), State.fld_setReg_same, hword]
  · rw [State.fld_setReg_same, hword]

theorem warmShown_domState (d : Nat) (h : d < 31) : (warmShown id boots s).domState d = s.domState d := by
  rw [State.domState, State.fld, warmShown_reg id boots s _
    (by unfold R.PWR_DOM_STATUS R.SEC_BOOT Pg.pwr Pg.secBoot; omega)
    (by unfold R.PWR_DOM_STATUS R.SEC_AR Pg.pwr Pg.secBoot; omega)
    (fun k _ => by unfold R.PWR_DOM_STATUS R.SEC_DEVID Pg.pwr Pg.secBoot; omega)]
  rfl

theorem warmShown_svc : (warmShown id boots s).reg R.REL_SVC = s.reg R.REL_SVC :=
  warmShown_reg id boots s R.REL_SVC (by decide) (by decide)
    (fun k _ => by unfold R.REL_SVC R.SEC_DEVID Pg.rel0 Pg.secBoot; omega)

end

theorem exec_warmReset (s : State) : exec .warmReset s = .next (warmReset s) := rfl

theorem warmReset_held (s : State) (h : s.pins.perstLow = true) : warmReset s = s := if_pos h

/-- A warm reset takes the domains to off, holds the control complex in reset, and keeps Breeze and the flash (R62, R487). -/
theorem warmReset_result (s : State) (h : s.pins.perstLow = false) :
    WarmCleared s (warmReset s) ∧ (warmReset s).booted = false ∧ (∀ d, d < 29 → (warmReset s).domState d = 0)
      ∧ (warmReset s).domState 29 = 2 := by
  obtain ⟨s1, boots, heq, hc⟩ := warmReset_eq s h
  obtain ⟨hoff, hctl⟩ := domainsOff_domState s1
  have hframe := (domainsOff_regsOnly s1).trans (warmShown_regsOnly (s.fld R.SEC_BOOT F.SEC_BOOT_ID_VALID) boots _)
  have hsvc := (warmShown_svc (s.fld R.SEC_BOOT F.SEC_BOOT_ID_VALID) boots (domainsOff s1)).trans (domainsOff_svc s1)
  rw [heq]
  refine ⟨?_, not_booted_of_stage _ (by rw [warmShown_stage]; decide),
    fun d hd => (warmShown_domState _ _ _ d (by omega)).trans (hoff d hd), (warmShown_domState _ _ _ 29 (by decide)).trans hctl⟩
  generalize warmShown _ _ _ = t at hframe hsvc
  refine ⟨?_, ?_, ?_, ?_, ?_, ?_, ?_, ?_, hsvc.trans hc.svc, ?_, ?_⟩ <;> rw [hframe]
  exacts [hc.perst, hc.ctxs, hc.spad, hc.entries, hc.flash, hc.da, hc.dtime, hc.ring, hc.staging, hc.aon]

/-! ### PERST_N rises (R486, R487) -/

theorem linksUp_regsOnly (links : List (Nat × Nat)) (s : State) : RegsOnly s (linksUp links s) := by
  refine RegsOnly.iter 2 _ (fun l t => ?_) s
  dsimp only
  split <;> rfl

/-- Link 0 shows the speed and width that it trained at (R324). -/
theorem linksUp_status (q : Nat × Nat) (rest : List (Nat × Nat)) (s : State) (h : q.2 ≠ 0) :
    (linksUp (q :: rest) s).reg (R.HIF_LINK_STATUS 0) = BitVec.ofNat 32 (1 + 2 * (q.1 % 8) + 16 * (q.2 % 16)) := by
  have hne : R.HIF_LINK_STATUS 0 ≠ R.HIF_LINK_STATUS 1 := by decide
  have hzero : ¬ (q.2 = 0 ∨ (0 = 1 ∧ (!s.flag R.HIF_LINK_CFG F.HIF_LINK_CFG_SPLIT ∨ s.pins.pe1Low))) := by simp [h]
  simp only [linksUp, iter, List.getD_cons_zero]
  rw [if_neg hzero]
  split
  · exact State.reg_setReg_same _ _ _
  · rw [State.reg_setReg_ne _ _ _ _ hne, State.reg_setReg_same]

section
variable (o : BootOutcome) (s : State)

/-- PERST_N is high. -/
def perstHigh (s : State) : State := { s with pins := { s.pins with perstLow := false } }

theorem exec_perstNRise : exec (.perstNRise o) s = .next (perstRise o s) := rfl

theorem perstRise_high (h : s.pins.perstLow = false) : perstRise o s = s := if_pos (by simp [h])

/-- A part in service trains its links. -/
theorem perstRise_booted (h : s.pins.perstLow = true) (hb : s.booted = true) :
    perstRise o s = linksUp o.links (perstHigh s) := (if_neg (by simp [h])).trans (if_pos hb)

/-- A part that a warm reset stopped boots again. -/
theorem perstRise_boots (h : s.pins.perstLow = true) (hstage : s.fld R.SEC_BOOT F.SEC_BOOT_STAGE = 1)
    (hres : s.fld R.SEC_BOOT F.SEC_BOOT_RESULT = 0) (hid : s.fld R.SEC_BOOT F.SEC_BOOT_ID_VALID = 1)
    (hprod : s.fld R.TST_MODE F.TST_MODE_PROD = 0) : perstRise o s = bootChain o true (perstHigh s) := by
  have hstage' : (perstHigh s).fld R.SEC_BOOT F.SEC_BOOT_STAGE = 1 := hstage
  have hb : (perstHigh s).booted = false := not_booted_of_stage _ (by rw [hstage']; decide)
  have hflag : (perstHigh s).flag R.SEC_BOOT F.SEC_BOOT_ID_VALID = true := beq_iff_eq.mpr hid
  refine (if_neg (by simp [h])).trans ((if_neg (by rw [Bool.not_eq_true]; exact hb)).trans
    ((if_pos ⟨hstage, hres, hprod⟩).trans ?_))
  exact congrArg (bootChain o · (perstHigh s)) hflag

theorem perstRise_up (h : s.pins.perstLow = true) (hstage : s.fld R.SEC_BOOT F.SEC_BOOT_STAGE = 1)
    (hres : s.fld R.SEC_BOOT F.SEC_BOOT_RESULT = 0) (hid : s.fld R.SEC_BOOT F.SEC_BOOT_ID_VALID = 1)
    (hprod : s.fld R.TST_MODE F.TST_MODE_PROD = 0) (hr : RecordsPass s.flash o) (hslot : s.flash.slot = 0)
    (hk : SlotFits s.flash o 0) :
    BootUp s.flash 0 (perstRise o s) ∧ (perstRise o s).dtime = s.dtime ∧ (perstRise o s).da = s.da := by
  have hfl : (bootBegun true (perstHigh s)).flash = s.flash := bootBegun_flash _ _
  have h0 : bootResult o true (bootBegun true (perstHigh s)) = 0 :=
    bootResult_pass o _ (by rw [hfl]; exact hr) 0 (by rw [hfl]; exact hk)
  have hs : bootSlot o (bootBegun true (perstHigh s)) = 0 := by
    rw [bootSlot_pointer o _ (by rw [hfl, hslot]; exact hk), hfl, hslot]
  obtain ⟨hdt, -, -, hda, -⟩ := bootChain_keeps o true (perstHigh s)
  rw [perstRise_boots o s h hstage hres hid hprod]
  exact ⟨bootChain_up o true _ h0 hprod 0 hs (by decide), hdt, hda⟩

end

/-! ### Power failure by a rail (R423, R517) -/

theorem LogOnly.spad {s t : State} (h : LogOnly s t) : t.spad = s.spad := by rw [h]

/-- Whether REL_LOG_STATUS shows a power failure. -/
def State.pfShown (s : State) : Bool := s.flag R.REL_LOG_STATUS F.REL_LOG_STATUS_PF

theorem startFlush_staging (s : State) : (startFlush s).rel.staging = s.rel.staging := by
  unfold startFlush
  split <;> rfl

theorem startFlush_pfShown (s : State) : (startFlush s).pfShown = s.pfShown := by
  unfold startFlush
  split
  · rfl
  · dsimp only
    rw [State.pfShown, State.flag, State.fld_setFld_other _ _ _ _ _ (by decide) (by decide)]
    rfl

/-- With room and no loss to report an entry is staged behind the others (R418). -/
theorem logEntry_stages (e : LogEntry) (s : State) (hlost : s.rel.lost = 0) (hroom : s.rel.staging.length < 64) :
    ∃ e', (logEntry e s).rel.staging = s.rel.staging ++ [e'] ∧ e'.cls = e.cls ∧ e'.arg = e.arg
      ∧ (logEntry e s).pfShown = s.pfShown := by
  have hroom' : ¬ s.rel.staging.length ≥ stagingSize := Nat.not_le.mpr hroom
  have hseq : (stageEntry e s).pfShown = s.pfShown := by
    rw [State.pfShown, State.flag, State.fld]
    exact congrArg (wordFld · _ == 1) (State.reg_setReg_ne s _ _ R.REL_LOG_STATUS (by decide))
  have heq : logEntry e s = if (stageEntry e s).rel.staging.length ≥ stagingFull then startFlush (stageEntry e s)
      else stageEntry e s := by
    simp only [logEntry, hroom', hlost, if_false, if_true]
  rw [heq]
  split
  · exact ⟨_, startFlush_staging _, rfl, rfl, (startFlush_pfShown _).trans hseq⟩
  · exact ⟨_, rfl, rfl, rfl, hseq⟩

theorem updResult_rel (state result : Nat) (s : State) :
    (updResult state result s).rel = s.rel ∧ (updResult state result s).spad = s.spad := by
  unfold updResult
  dsimp only
  split
  · rw [errEvent_frame]; exact ⟨rfl, rfl⟩
  · exact ⟨rfl, rfl⟩

/-- A flash program that a power failure interrupts (R423): a staged image's fails. -/
def programStopped (s : State) : State :=
  match s.flash.next with
  | .none => s
  | .image _ | .badImage _ => recordFailed s
  | _ => s

theorem programStopped_rel (s : State) : (programStopped s).rel = s.rel ∧ (programStopped s).spad = s.spad := by
  have hfail := updResult_rel 5 4 (s.modFlash (fun f => { f with next := .none, retried := false }))
  cases hn : s.flash.next with
  | none | cfg _ | brd _ | pointer _ => simp only [programStopped, hn, and_self]
  | image _ | badImage _ =>
    simp only [programStopped, recordFailed, hn]
    exact hfail

/-- The power failure is shown and reported, before it is logged (R423). -/
def failShown (s : State) : State :=
  errEvent Pg.rel2 E.rel2_PWR_FAIL (((programStopped s).setFld R.REL_LOG_STATUS F.REL_LOG_STATUS_PF 1).count Pg.rel2 3 1)

theorem failShown_rel (s : State) : (failShown s).rel = s.rel ∧ (failShown s).spad = s.spad := by
  unfold failShown
  rw [errEvent_frame]
  exact programStopped_rel s

theorem failShown_pfShown (s : State) : (failShown s).pfShown = true := by
  have hset := State.fld_setFld_same (programStopped s) R.REL_LOG_STATUS F.REL_LOG_STATUS_PF 1 (by decide)
  unfold failShown
  rw [State.pfShown, State.flag, errEvent_fld_ne _ _ _ _ _ (by decide) (by decide)]
  exact beq_iff_eq.mpr hset

/-- The entry that a power failure logs; it names the rail where a monitor caused it (R517). -/
def failEntry (rail : Option Nat) (s : State) : LogEntry :=
  { cls := LogCls.powerFail, arg0 := (failShown s).rel.staging.length,
    arg := match rail with | some k => [BitVec.ofNat 32 (k + 1)] | none => [] }

theorem powerFail_eq (rail : Option Nat) (s : State) :
    powerFail rail s = startFlush (logEntry (failEntry rail s) (failShown s)) := rfl

theorem powerFail_logs (k : Nat) (s : State) (hlost : s.rel.lost = 0) (hroom : s.rel.staging.length < 64) :
    ∃ e, (powerFail (some k) s).pfShown = true ∧ (powerFail (some k) s).rel.staging = s.rel.staging ++ [e]
      ∧ e.cls = LogCls.powerFail ∧ e.arg = [BitVec.ofNat 32 (k + 1)] ∧ (powerFail (some k) s).spad = s.spad := by
  obtain ⟨hrel, hspad⟩ := failShown_rel s
  obtain ⟨e, hstaging, hcls, harg, hpf⟩ := logEntry_stages (failEntry (some k) s) (failShown s) (by rw [hrel, hlost])
    (by rw [hrel]; exact hroom)
  have hlog := (logEntry_frame (failEntry (some k) s) (failShown s)).trans (LogOnly.startFlush _)
  rw [powerFail_eq]
  exact ⟨e, (startFlush_pfShown _).trans (hpf.trans (failShown_pfShown s)), (startFlush_staging _).trans (hrel ▸ hstaging),
    hcls, harg, hlog.spad.trans hspad⟩

theorem exec_railUndervoltage (k : Fin 11) (s : State) : exec (.railUndervoltage k) s = .next (railLow k s) := rfl

theorem railLow_resets (k : Nat) (s : State) (h : k = 3 ∨ k = 4) : railLow k s = powerUp s := if_pos h

theorem railLow_failed (k : Nat) (s : State) (h3 : k ≠ 3) (h4 : k ≠ 4) (hpf : s.rel.pfSince.isSome = true) :
    railLow k s = s := (if_neg (by omega)).trans (if_pos hpf)

/-- The power failure begins (R423). -/
def failBegun (s : State) : State := s.modRel (fun r => { r with pfSince := some s.dtime })

theorem railLow_fails (k : Nat) (s : State) (h3 : k ≠ 3) (h4 : k ≠ 4) (hpf : s.rel.pfSince = none) :
    railLow k s = powerFail (some k) (failBegun s) :=
  (if_neg (by omega)).trans (if_neg (by simp [hpf]))

/-! ### The statement -/

theorem slotFits_iff (f : Flash) (o : BootOutcome) (k : Nat) :
    SlotFits f o k ↔ if k = 0 then ImageFits f f.img0 o.img0Ok else ImageFits f f.img1 o.img1Ok := by
  unfold SlotFits
  split <;> rfl

/-- The slot that the pointer does not name. -/
theorem slotFits_other_iff (f : Flash) (o : BootOutcome) (k : Nat) (h : k = 0 ∨ k = 1) :
    SlotFits f o (1 - k) ↔ if k = 0 then ImageFits f f.img1 o.img1Ok else ImageFits f f.img0 o.img0Ok := by
  rcases h with rfl | rfl <;> rfl

/-- Settles O50: the cold reset by the RESULT of the chain's first failing step and by the slot that fits, the warm reset by
what it clears and keeps, PERST_N by whether the part serves, a rail by whether it resets the part. -/
theorem resetsBootThePart : Obligations.ResetsBootThePart := by
  unfold Obligations.ResetsBootThePart
  intro s o f boot fits ok0 ok1 records up fresh halted
  refine ⟨⟨_, exec_coldReset o s, coldReset_fresh o s, fun hid hident => ⟨fun hr hslot => ⟨fun hk => ?_, fun hn hk => ?_,
      fun h0 h1 => ?_⟩, fun h1 => ?_, fun h1 h2 => ?_, fun h1 h2 h3 => ?_, fun h1 h2 h3 h4 h5 h6 => ?_⟩, fun h => ?_⟩,
    fun h => ?_, fun h => ?_, fun h => ?_, fun h => ⟨fun hb q rest hl hq => ?_, fun hst hres hiv hprod hr hslot hk => ?_⟩,
    fun k => ⟨fun hk => ?_, fun h3 h4 => ⟨fun hpf => ?_, fun hpf hlost hroom => ?_⟩⟩⟩
  · have hslot' : s.flash.slot < 2 := Nat.lt_succ_iff.mpr (Nat.le_one_iff_eq_zero_or_eq_one.mpr hslot)
    have hb := coldReset_pointer o s hid hident hr hslot' ((slotFits_iff _ _ _).mpr hk)
    exact ⟨⟨hb.booted, hb.result, hb.idValid, hb.boots, hb.variant⟩, hb.slot, hb.fallback.trans (if_neg (not_not_intro rfl)),
      hb.flash⟩
  · have hne : 1 - f.slot ≠ f.slot := by omega
    have hb := coldReset_other o s hid hident hr (mt (slotFits_iff _ _ _).mp hn) ((slotFits_other_iff _ _ _ hslot).mpr hk)
    exact ⟨⟨hb.booted, hb.result, hb.idValid, hb.boots, hb.variant⟩, hb.slot, hb.fallback.trans (if_pos hne),
      by rw [hb.flash]; rfl, hb.fellBack hne⟩
  · exact coldReset_noImage o s hid hident hr h0 h1
  · exact coldReset_halts o s hid hident 1 (bootResult_rollback o _ true h1) (by decide)
  · exact coldReset_halts o s hid hident 2 (bootResult_pointer o _ h1 h2) (by decide)
  · exact coldReset_config o s hid hident h1 h2 h3
  · exact coldReset_board o s hid hident h1 h2 h3 h4 h5 h6
  · exact coldReset_noIdentity o s h
  · rw [exec_warmReset, warmReset_held s h]
  · obtain ⟨hc, hb, hoff, hctl⟩ := warmReset_result s h
    exact ⟨_, exec_warmReset s, hb, hc.perst, hoff, hctl, hc.ctxs, hc.spad, hc.entries, hc.flash, hc.da, hc.dtime, hc.ring,
      hc.svc, hc.staging, hc.aon⟩
  · rw [exec_perstNRise, perstRise_high o s h]
  · have hlinks := linksUp_regsOnly (q :: rest) (perstHigh s)
    refine ⟨_, exec_perstNRise o s, ?_⟩
    rw [perstRise_booted o s h hb, hl]
    exact ⟨by rw [hlinks]; rfl, linksUp_status q rest _ hq, by rw [hlinks]; rfl, by rw [hlinks]; rfl⟩
  · obtain ⟨hb, hdt, hda⟩ := perstRise_up o s h hst hres hiv hprod hr hslot hk
    exact ⟨_, exec_perstNRise o s, ⟨hb.booted, hb.result, hb.idValid, hb.boots, hb.variant⟩, hb.slot, hdt, hda⟩
  · refine ⟨_, exec_railUndervoltage k s, ?_⟩
    rw [railLow_resets k s hk]
    exact ⟨powerUp_fresh s, powerUp_not_booted s, rfl⟩
  · rw [exec_railUndervoltage, railLow_failed k s h3 h4 hpf]
  · obtain ⟨e, hshown, hstaging, hcls, harg, hspad⟩ := powerFail_logs k (failBegun s) hlost hroom
    exact ⟨_, e, (exec_railUndervoltage k s).trans (congrArg Host.Outcome.next (railLow_fails k s h3 h4 hpf)), hshown,
      hstaging, hcls, harg, hspad⟩

end Sys2Proof.Machine
end

section
/-! PROOFS. Waits, SIGNAL, BRANCH and LOOP (R79): where a core's sequencer stands after its status words, its record and its
settling are brought up to date. -/

namespace Sys2Proof.Machine

/-! ### Addresses of a core's status words -/

theorem arrStatus_ne_seqStatus (m n : Nat) : R.ARR_STATUS m ≠ R.SEQ_STATUS n := by
  unfold R.ARR_STATUS R.SEQ_STATUS Pg.arr0 Pg.seq
  omega

theorem seqStatus_ne {m n : Nat} (h : m ≠ n) : R.SEQ_STATUS m ≠ R.SEQ_STATUS n := by
  unfold R.SEQ_STATUS Pg.seq
  omega

theorem seqCtrl_ne_status (m n : Nat) : R.SEQ_CTRL m ≠ R.ARR_STATUS n ∧ R.SEQ_CTRL m ≠ R.SEQ_STATUS n := by
  unfold R.SEQ_CTRL R.ARR_STATUS R.SEQ_STATUS Pg.arr0 Pg.seq
  omega

/-- A semaphore is no status word and no control word of its core. -/
theorem seqSem_ne (n k : Nat) (hk : k < 64) :
    R.SEQ_SEM n k ≠ R.ARR_STATUS n ∧ R.SEQ_SEM n k ≠ R.SEQ_STATUS n ∧ R.SEQ_SEM n k ≠ R.SEQ_CTRL n := by
  unfold R.SEQ_SEM R.SEQ_CTRL R.ARR_STATUS R.SEQ_STATUS Pg.arr0 Pg.seq
  omega

/-! ### Where a sequencer stands -/

theorem fld_of_reg {s t : State} {a : Nat} (h : t.reg a = s.reg a) (f : Fld) : t.fld a f = s.fld a f := by
  rw [State.fld, h, State.fld]

theorem flag_of_reg {s t : State} {a : Nat} (h : t.reg a = s.reg a) (f : Fld) : t.flag a f = s.flag a f := by
  rw [State.flag, fld_of_reg h, State.flag]

theorem SeqAt.trans {n p p' st st' : Nat} {l l' : List Nat} {s t u : State} (h : SeqAt n p st l s t)
    (k : SeqAt n p' st' l' t u) : SeqAt n p' st' (l ++ l') s u := by
  obtain ⟨-, -, hops, hscan, hcores, hregs, hframe⟩ := h
  obtain ⟨kpc, kst, kops, kscan, kcores, kregs, kframe⟩ := k
  refine ⟨kpc, kst, kops.trans hops, kscan.trans hscan, fun m hm => (kcores m hm).trans (hcores m hm), fun a h1 h2 h3 => ?_, ?_⟩
  · rw [List.mem_append, not_or] at h3
    exact (kregs a h1 h2 h3.2).trans (hregs a h1 h2 h3.1)
  · rw [kframe, hframe]

section
variable {n p st : Nat} {l : List Nat} {s t : State} (h : SeqAt n p st l s t)
include h

theorem SeqAt.pc_eq : t.pc n = p := h.1

theorem SeqAt.seqState_eq : t.seqState n = st := h.2.1

theorem SeqAt.core_ne {m : Nat} (hm : m ≠ n) : t.core m = s.core m := by
  obtain ⟨-, -, -, -, hcores, -, -⟩ := h
  exact hcores m hm

theorem SeqAt.reg_ne {a : Nat} (h1 : a ≠ R.ARR_STATUS n) (h2 : a ≠ R.SEQ_STATUS n) (h3 : a ∉ l) : t.reg a = s.reg a := by
  obtain ⟨-, -, -, -, -, hregs, -⟩ := h
  exact hregs a h1 h2 h3

theorem SeqAt.frame : t = { s with regs := t.regs, cores := t.cores } := by
  obtain ⟨-, -, -, -, -, -, hframe⟩ := h
  exact hframe

end

/-- A register word written before the sequencer moves is one that differs. -/
theorem SeqAt.of_setReg {n p st a : Nat} {w : Word} {s t : State} (h : SeqAt n p st [] (s.setReg a w) t) :
    SeqAt n p st [a] s t := by
  obtain ⟨hpc, hst, hops, hscan, hcores, hregs, hframe⟩ := h
  refine ⟨hpc, hst, hops, hscan, hcores, fun b h1 h2 h3 => ?_, by rw [hframe]; rfl⟩
  rw [List.mem_singleton] at h3
  rw [hregs b h1 h2 List.not_mem_nil, State.reg_setReg_ne _ _ _ _ h3]

/-! ### Status words, PC and state (R93, R96) -/

section
variable (n : Nat) (s : State)

theorem coreStatus_regsOnly : RegsOnly s (coreStatus n s) := rfl

@[simp] theorem coreStatus_core (m : Nat) : (coreStatus n s).core m = s.core m := rfl

@[simp] theorem setSeqState_core (v m : Nat) : (s.setSeqState n v).core m = s.core m := rfl

@[simp] theorem setPc_core (v m : Nat) : (s.setPc n v).core m = s.core m := rfl

theorem coreStatus_reg_ne {a : Nat} (h1 : a ≠ R.ARR_STATUS n) (h2 : a ≠ R.SEQ_STATUS n) :
    (coreStatus n s).reg a = s.reg a := by
  unfold coreStatus
  dsimp only
  rw [State.reg_setFld_ne _ _ _ _ _ h2, State.reg_setReg_ne _ _ _ _ h1]

/-- IDLE is the only field of SEQ_STATUS that the status words' update sets. -/
theorem coreStatus_seqStatus (f : Fld) (h : f.hi < 24) : (coreStatus n s).fld (R.SEQ_STATUS n) f = s.fld (R.SEQ_STATUS n) f := by
  unfold coreStatus
  dsimp only
  rw [State.fld_setFld_other _ _ _ _ _ (by decide) (.inl h), State.fld_setReg_ne _ _ _ _ _ (arrStatus_ne_seqStatus n n).symm]

theorem coreStatus_pc : (coreStatus n s).pc n = s.pc n := coreStatus_seqStatus n s _ (by decide)

theorem coreStatus_seqState : (coreStatus n s).seqState n = s.seqState n := coreStatus_seqStatus n s _ (by decide)

theorem pc_setSeqState (v : Nat) : (s.setSeqState n v).pc n = s.pc n :=
  State.fld_setFld_other _ _ _ _ _ (by decide) (by decide)

theorem seqState_setPc (v : Nat) : (s.setPc n v).seqState n = s.seqState n :=
  State.fld_setFld_other _ _ _ _ _ (by decide) (by decide)

theorem seqState_setSeqState {v : Nat} (h : v < 8) : (s.setSeqState n v).seqState n = v :=
  (State.fld_setFld_same _ _ _ _ (by decide)).trans (Nat.mod_eq_of_lt h)

theorem pc_setPc {v : Nat} (h : v ≤ 16383) : (s.setPc n v).pc n = v :=
  (State.fld_setFld_same _ _ _ _ (by decide)).trans (Nat.mod_eq_of_lt (Nat.lt_succ_of_le h))

end

/-- Bringing the status words up to date leaves the sequencer where it is. -/
theorem SeqAt.coreStatus {n p st : Nat} {l : List Nat} {s t : State} (h : SeqAt n p st l s t) :
    SeqAt n p st l s (coreStatus n t) := by
  obtain ⟨hpc, hst, hops, hscan, hcores, hregs, hframe⟩ := h
  refine ⟨(coreStatus_pc n t).trans hpc, (coreStatus_seqState n t).trans hst, hops, hscan, hcores, fun a h1 h2 h3 => ?_, ?_⟩
  · rw [coreStatus_reg_ne n t h1 h2, hregs a h1 h2 h3]
  · rw [coreStatus_regsOnly n t, hframe]

section
variable (n : Nat) (s : State)

/-- A change of a core's record that keeps its operations leaves its sequencer where it is. -/
theorem seqAt_modCore (f : Core → Core) (hops : (f (s.core n)).ops = (s.core n).ops)
    (hscan : (f (s.core n)).scanQ = (s.core n).scanQ) : SeqAt n (s.pc n) (s.seqState n) [] s (s.modCore n f) := by
  refine ⟨rfl, rfl, ?_, ?_, fun m hm => State.core_modCore_ne _ _ _ _ hm, fun _ _ _ _ => rfl, rfl⟩
  · rw [State.core_modCore_same, hops]
  · rw [State.core_modCore_same, hscan]

theorem seqAt_setPc {q : Nat} (hq : q ≤ 16383) : SeqAt n q (s.seqState n) [] s (s.setPc n q) :=
  ⟨pc_setPc n s hq, seqState_setPc n s q, rfl, rfl, fun _ _ => rfl, fun _ _ h2 _ => State.reg_setFld_ne _ _ _ _ _ h2, rfl⟩

theorem seqAt_setSeqState {v : Nat} (hv : v < 8) : SeqAt n (s.pc n) v [] s (s.setSeqState n v) :=
  ⟨pc_setSeqState n s v, seqState_setSeqState n s hv, rfl, rfl, fun _ _ => rfl,
    fun _ _ h2 _ => State.reg_setFld_ne _ _ _ _ _ h2, rfl⟩

end

/-! ### The instruction at the PC (R79) -/

/-- The command of an instruction finds it at the PC of a running sequencer and acts on it (R79). -/
theorem seqInstr_running {s : State} {n x op : Nat} (hrun : s.running n = some x) (hop : insOp (s.slot n (s.pc n)).toNat = op)
    (f : Nat → Nat → Nat → State → State) (h0 : 0 < op) (h12 : op ≤ 12) :
    seqInstr n op f s = f x (s.pc n) (s.slot n (s.pc n)).toNat s := by
  unfold seqInstr
  rw [hrun]
  dsimp only
  rw [hop, if_neg (by omega), if_pos rfl]

section
variable {s : State} {n x op : Nat} (h : s.AtInstr n x op)
include h

theorem State.AtInstr.ctx_eq : (s.core n).ctx = some x := by
  have hrun := h.1
  unfold State.running at hrun
  split at hrun
  · exact hrun
  · cases hrun

theorem State.AtInstr.seqState_eq : s.seqState n = Seq.running := by
  have hrun := h.1
  unfold State.running at hrun
  split at hrun
  · next hc =>
    rw [Bool.and_eq_true, beq_iff_eq] at hc
    exact hc.2
  · cases hrun

theorem State.AtInstr.noDrain : s.flag (R.SEQ_CTRL n) F.SEQ_CTRL_DRAIN_REQ = false := by
  obtain ⟨-, -, hd, -⟩ := h
  exact hd

theorem State.AtInstr.wait_eq : (s.core n).wait = .none := by
  obtain ⟨-, -, -, hw⟩ := h
  exact hw

theorem seqInstr_at (f : Nat → Nat → Nat → State → State) (h0 : 0 < op) (h12 : op ≤ 12) :
    seqInstr n op f s = f x (s.pc n) (s.slot n (s.pc n)).toNat s := seqInstr_running h.1 h.2.1 f h0 h12

end

/-! ### Going on, waiting and settling (R79, R81) -/

/-- A sequencer that no SWITCH and no SEQ_WAIT holds and that nothing asks to drain stays where it is (R81). -/
theorem settleCore_stays (n : Nat) (s : State) (hsw : ∀ m, (s.core n).wait ≠ .switch m) (hlp : (s.core n).wait ≠ .lowPower)
    (hd : s.flag (R.SEQ_CTRL n) F.SEQ_CTRL_DRAIN_REQ = false) : settleCore n s = coreStatus n s := by
  unfold settleCore
  split
  · rfl
  · dsimp only
    split
    · next m x hw _ => exact absurd hw (hsw m)
    · next hw => exact absurd hw hlp
    · rw [hd, Bool.false_and, if_neg Bool.false_ne_true]

theorem SeqAt.settled {n p st : Nat} {s t : State} (h : SeqAt n p st [] s t)
    (hd : s.flag (R.SEQ_CTRL n) F.SEQ_CTRL_DRAIN_REQ = false) (hsw : ∀ m, (t.core n).wait ≠ .switch m)
    (hlp : (t.core n).wait ≠ .lowPower) :
    SeqAt n p st [] s (settleCore n t) ∧ (settleCore n t).core n = t.core n := by
  have hd' := flag_of_reg (h.reg_ne (seqCtrl_ne_status n n).1 (seqCtrl_ne_status n n).2 List.not_mem_nil) F.SEQ_CTRL_DRAIN_REQ
  rw [settleCore_stays n t hsw hlp (hd'.trans hd), coreStatus_core]
  exact ⟨h.coreStatus, rfl⟩

/-- The sequencer runs on at slot `q` with the loops `fr`. -/
def seqAdvanced (n : Nat) (fr : List LoopFrame) (q : Nat) (s : State) : State :=
  ((s.modCore n (fun c => { c with loops := fr, wait := .none })).setPc n q).setSeqState n Seq.running

theorem seqNext_eq (n x p : Nat) (s : State) (q : List LoopFrame × Nat) (h : loopStep (s.core n).loops p = q)
    (hq : q.2 ≤ 16383) : seqNext n x p s = seqAdvanced n q.1 q.2 s := by
  unfold seqNext
  rw [h]
  exact if_neg (Nat.not_lt.mpr hq)

section
variable (n : Nat) (s : State)

theorem seqAdvanced_core (fr : List LoopFrame) (q : Nat) :
    (seqAdvanced n fr q s).core n = { s.core n with loops := fr, wait := .none } := by
  rw [seqAdvanced, setSeqState_core, setPc_core, State.core_modCore_same]

theorem seqAt_seqAdvanced (fr : List LoopFrame) {q : Nat} (hq : q ≤ 16383) :
    SeqAt n q Seq.running [] s (seqAdvanced n fr q s) := by
  have h := ((seqAt_modCore n s (fun c => { c with loops := fr, wait := .none }) rfl rfl).trans (seqAt_setPc n _ hq)).trans
    (seqAt_setSeqState n _ (v := Seq.running) (by decide))
  rw [pc_setPc _ _ hq] at h
  exact h

theorem seqAt_seqWait (w : SeqWait) : SeqAt n (s.pc n) Seq.waiting [] s (seqWait n w s) :=
  ((seqAt_modCore n s (fun c => { c with wait := w }) rfl rfl).trans
    (seqAt_setSeqState n _ (v := Seq.waiting) (by decide))).coreStatus

theorem seqWait_wait (w : SeqWait) : ((seqWait n w s).core n).wait = w := by
  rw [seqWait, coreStatus_core, setSeqState_core, State.core_modCore_same]

/-- A core that waits at its instruction, with nothing to drain for, stays there (R79). -/
theorem settleCore_seqWait (w : SeqWait) (hsw : ∀ m, w ≠ .switch m) (hlp : w ≠ .lowPower)
    (hd : s.flag (R.SEQ_CTRL n) F.SEQ_CTRL_DRAIN_REQ = false) :
    SeqAt n (s.pc n) Seq.waiting [] s (settleCore n (seqWait n w s)) ∧ ((settleCore n (seqWait n w s)).core n).wait = w := by
  have hw := seqWait_wait n s w
  obtain ⟨hat, hcore⟩ := (seqAt_seqWait n s w).settled hd (by rw [hw]; exact hsw) (by rw [hw]; exact hlp)
  exact ⟨hat, by rw [hcore, hw]⟩

/-- A core that goes on to slot `q`, with nothing to drain for, runs there (R79). -/
theorem settleCore_seqNext (x p : Nat) (q : List LoopFrame × Nat) (h : loopStep (s.core n).loops p = q) (hq : q.2 ≤ 16383)
    (hd : s.flag (R.SEQ_CTRL n) F.SEQ_CTRL_DRAIN_REQ = false) :
    SeqAt n q.2 Seq.running [] s (settleCore n (seqNext n x p s))
      ∧ (settleCore n (seqNext n x p s)).core n = { s.core n with loops := q.1, wait := .none } := by
  have hcore := seqAdvanced_core n s q.1 q.2
  rw [seqNext_eq n x p s q h hq, ← hcore]
  exact (seqAt_seqAdvanced n s q.1 hq).settled hd (by simp [hcore]) (by simp [hcore])

end

/-! ### Waits and their releases (R79) -/

/-- The instruction `c` of opcode `op` and its release `r`: where `ready` holds either moves the sequencer on from `s'`; where
it does not `c` waits for `w` and `r` changes nothing. -/
structure WaitsUntil (s : State) (n : Fin 18) (x : Nat) (c r : Instr) (op : Nat) (w : SeqWait) (ready : Bool) (s' : State) :
    Prop where
  passes : s.AtInstr n x op → ready = true → exec c s = .next (settleCore n (seqNext n x (s.pc n) s'))
  holds : s.AtInstr n x op → ready = false →
    ∃ t, exec c s = .next t ∧ SeqAt n (s.pc n) Seq.waiting [] s t ∧ (t.core n).wait = w
  releases : s.waitingFor n = some (x, w) → ready = true → exec r s = .next (settleCore n (seqNext n x (s.pc n) s'))
  stays : s.waitingFor n = some (x, w) → ready = false → exec r s = .next s

/-- The state with `v` subtracted from semaphore `k` of core `n`. -/
def semSpent (n k v : Nat) (s : State) : State :=
  s.setFld (R.SEQ_SEM n k) F.SEQ_SEM_COUNT (s.fld (R.SEQ_SEM n k) F.SEQ_SEM_COUNT - v)

section
variable (s : State) (n : Fin 18) (x : Nat)

theorem waitsem_waitsUntil :
    let k := bitsOf (s.slot n (s.pc n)).toNat 5 0
    let v := bitsOf (s.slot n (s.pc n)).toNat 31 16
    WaitsUntil s n x (.waitsem n) (.waitsemRelease n) 2 (.sem k v) (decide (v ≤ s.fld (R.SEQ_SEM n k) F.SEQ_SEM_COUNT))
      (semSpent n k v s) := by
  intro k v
  have hc : exec (.waitsem n) s = .next (waitSem n s) := rfl
  have hr : exec (.waitsemRelease n) s = .next (waitSemRelease n s) := rfl
  refine ⟨fun h hv => ?_, fun h hv => ?_, fun h hv => ?_, fun h hv => ?_⟩
  · rw [hc, waitSem, seqInstr_at h _ (by decide) (by decide)]
    exact congrArg _ (if_pos hv)
  · refine ⟨_, hc, ?_⟩
    rw [waitSem, seqInstr_at h _ (by decide) (by decide), if_neg (by simpa [semHas] using hv)]
    exact settleCore_seqWait n s _ (by simp) (by simp) h.noDrain
  · rw [hr, waitSemRelease, h]
    exact congrArg _ (if_pos hv)
  · rw [hr, waitSemRelease, h]
    exact congrArg _ (if_neg (by simpa [semHas] using hv))

theorem waitrows_waitsUntil :
    let k := bitsOf (s.slot n (s.pc n)).toNat 5 0
    let v := bitsOf (s.slot n (s.pc n)).toNat 31 16
    WaitsUntil s n x (.waitrows n) (.waitrowsRelease n) 4 (.rows k v) (decide (v ≤ (s.rgn n k).committed)) s := by
  intro k v
  have hc : exec (.waitrows n) s = .next (waitRows n s) := rfl
  have hr : exec (.waitrowsRelease n) s = .next (waitRowsRelease n s) := rfl
  refine ⟨fun h hv => ?_, fun h hv => ?_, fun h hv => ?_, fun h hv => ?_⟩
  · rw [hc, waitRows, seqInstr_at h _ (by decide) (by decide)]
    exact congrArg _ (if_pos (of_decide_eq_true hv))
  · refine ⟨_, hc, ?_⟩
    rw [waitRows, seqInstr_at h _ (by decide) (by decide), if_neg (of_decide_eq_false hv)]
    exact settleCore_seqWait n s _ (by simp) (by simp) h.noDrain
  · rw [hr, waitRowsRelease, h]
    exact congrArg _ (if_pos (of_decide_eq_true hv))
  · rw [hr, waitRowsRelease, h]
    exact congrArg _ (if_neg (of_decide_eq_false hv))

theorem waitroom_waitsUntil :
    let k := bitsOf (s.slot n (s.pc n)).toNat 5 0
    let v := bitsOf (s.slot n (s.pc n)).toNat 31 16
    WaitsUntil s n x (.waitroom n) (.waitroomRelease n) 5 (.room k v) (decide (v ≤ (s.rgn n k).free)) s := by
  intro k v
  have hc : exec (.waitroom n) s = .next (waitRoom n s) := rfl
  have hr : exec (.waitroomRelease n) s = .next (waitRoomRelease n s) := rfl
  refine ⟨fun h hv => ?_, fun h hv => ?_, fun h hv => ?_, fun h hv => ?_⟩
  · rw [hc, waitRoom, seqInstr_at h _ (by decide) (by decide)]
    exact congrArg _ (if_pos (of_decide_eq_true hv))
  · refine ⟨_, hc, ?_⟩
    rw [waitRoom, seqInstr_at h _ (by decide) (by decide), if_neg (of_decide_eq_false hv)]
    exact settleCore_seqWait n s _ (by simp) (by simp) h.noDrain
  · rw [hr, waitRoomRelease, h]
    exact congrArg _ (if_pos (of_decide_eq_true hv))
  · rw [hr, waitRoomRelease, h]
    exact congrArg _ (if_neg (of_decide_eq_false hv))

theorem drain_waitsUntil : WaitsUntil s n x (.drain n) (.drainRelease n) 9 .drain (!s.busy n) s := by
  have hc : exec (.drain n) s = .next (seqDrain n s) := rfl
  have hr : exec (.drainRelease n) s = .next (drainRelease n s) := rfl
  refine ⟨fun h hv => ?_, fun h hv => ?_, fun h hv => ?_, fun h hv => ?_⟩
  · rw [hc, seqDrain, seqInstr_at h _ (by decide) (by decide)]
    exact congrArg _ (if_neg (by simpa using hv))
  · refine ⟨_, hc, ?_⟩
    rw [seqDrain, seqInstr_at h _ (by decide) (by decide), if_pos (by simpa using hv)]
    exact ⟨seqAt_seqWait n s _, seqWait_wait n s _⟩
  · rw [hr, drainRelease, h]
    exact congrArg _ (if_neg (by simpa using hv))
  · rw [hr, drainRelease, h]
    exact congrArg _ (if_pos (by simpa using hv))

/-- The four outcomes of a wait and its release, with `past` what holds once the sequencer has gone on. -/
theorem WaitsUntil.outcomes {c r : Instr} {op : Nat} {w : SeqWait} {ready : Bool} {s' : State} {past : State → Prop}
    (h : WaitsUntil s n x c r op w ready s') (hp : past (settleCore n (seqNext n x (s.pc n) s'))) :
    (s.AtInstr n x op → ready = true → ∃ t, exec c s = .next t ∧ past t)
      ∧ (s.AtInstr n x op → ready = false →
        ∃ t, exec c s = .next t ∧ SeqAt n (s.pc n) Seq.waiting [] s t ∧ (t.core n).wait = w)
      ∧ (s.waitingFor n = some (x, w) → ready = true → ∃ t, exec r s = .next t ∧ past t)
      ∧ (s.waitingFor n = some (x, w) → ready = false → exec r s = .next s) :=
  ⟨fun ha hr => ⟨_, h.passes ha hr, hp⟩, h.holds, fun hw hr => ⟨_, h.releases hw hr, hp⟩, h.stays⟩

/-- Going on past a wait that takes nothing leaves every semaphore of the core. -/
theorem seqNext_past (q : List LoopFrame × Nat) (k : Nat) (hk : k < 64) (h : loopStep (s.core n).loops (s.pc n) = q)
    (hq : q.2 ≤ 16383) (hd : s.flag (R.SEQ_CTRL n) F.SEQ_CTRL_DRAIN_REQ = false) :
    let t := settleCore n (seqNext n x (s.pc n) s)
    SeqAt n q.2 Seq.running [] s t ∧ (t.core n).loops = q.1 ∧ (t.core n).wait = .none
      ∧ t.fld (R.SEQ_SEM n k) F.SEQ_SEM_COUNT = s.fld (R.SEQ_SEM n k) F.SEQ_SEM_COUNT := by
  obtain ⟨hat, hcore⟩ := settleCore_seqNext n s x (s.pc n) q h hq hd
  obtain ⟨h1, h2, -⟩ := seqSem_ne n k hk
  exact ⟨hat, by rw [hcore], by rw [hcore], fld_of_reg (hat.reg_ne h1 h2 List.not_mem_nil) _⟩

/-- A word of a semaphore written, then going on: the sequencer's drain request and loops are not touched by it. -/
theorem seqNext_past_sem (q : List LoopFrame × Nat) (k : Nat) (hk : k < 64) (w : Word)
    (h : loopStep (s.core n).loops (s.pc n) = q) (hq : q.2 ≤ 16383)
    (hd : s.flag (R.SEQ_CTRL n) F.SEQ_CTRL_DRAIN_REQ = false) :
    let t := settleCore n (seqNext n x (s.pc n) (s.setReg (R.SEQ_SEM n k) w))
    SeqAt n q.2 Seq.running [R.SEQ_SEM n k] s t ∧ (t.core n).loops = q.1 ∧ (t.core n).wait = .none
      ∧ t.reg (R.SEQ_SEM n k) = w := by
  obtain ⟨h1, h2, h3⟩ := seqSem_ne n k hk
  have hd' : (s.setReg (R.SEQ_SEM n k) w).flag (R.SEQ_CTRL n) F.SEQ_CTRL_DRAIN_REQ = false := by
    rw [flag_of_reg (State.reg_setReg_ne _ _ _ _ h3.symm), hd]
  obtain ⟨hat, hcore⟩ := settleCore_seqNext n (s.setReg (R.SEQ_SEM n k) w) x (s.pc n) q h hq hd'
  exact ⟨hat.of_setReg, by rw [hcore], by rw [hcore],
    (hat.reg_ne h1 h2 List.not_mem_nil).trans (State.reg_setReg_same _ _ _)⟩

/-! ### SIGNAL, BRANCH and LOOP (R79) -/

/-- The word of a semaphore once `v` is added to its count: saturating, with OVF where it did (R79). -/
def semRaised (w : Word) (v : Nat) : Word :=
  let w1 := wordSet w F.SEQ_SEM_COUNT (satAdd 16 (wordFld w F.SEQ_SEM_COUNT) v)
  if wordFld w F.SEQ_SEM_COUNT + v > 65535 then wordSet w1 F.SEQ_SEM_OVF 1 else w1

theorem semAdd_resident (n x k v : Nat) (s : State) (h : (s.core n).ctx = some x) :
    semAdd n x k v s = s.setReg (R.SEQ_SEM n k) (semRaised (s.reg (R.SEQ_SEM n k)) v) := by
  unfold semAdd semRaised
  rw [if_pos h]
  dsimp only
  unfold State.fld
  split
  · rw [State.setFld, State.setFld, State.reg_setReg_same, State.setReg_setReg]
  · rfl

theorem semRaised_count (w : Word) (v : Nat) :
    wordFld (semRaised w v) F.SEQ_SEM_COUNT = min (wordFld w F.SEQ_SEM_COUNT + v) 65535 := by
  have h1 : satAdd 16 (wordFld w F.SEQ_SEM_COUNT) v < 65536 := by unfold satAdd; omega
  have h2 : wordFld (wordSet w F.SEQ_SEM_COUNT (satAdd 16 (wordFld w F.SEQ_SEM_COUNT) v)) F.SEQ_SEM_COUNT
      = satAdd 16 (wordFld w F.SEQ_SEM_COUNT) v :=
    (wordFld_wordSet _ _ _ (by decide)).trans (Nat.mod_eq_of_lt h1)
  unfold semRaised
  dsimp only
  split
  · rw [wordFld_wordSet_ne _ _ _ _ (by decide) (by decide), h2]; rfl
  · exact h2

theorem semRaised_ovf (w : Word) (v : Nat) (h : 65535 < wordFld w F.SEQ_SEM_COUNT + v) :
    wordFld (semRaised w v) F.SEQ_SEM_OVF = 1 := by
  unfold semRaised
  dsimp only
  rw [if_pos h, wordFld_wordSet _ _ _ (by decide)]
  rfl

theorem bitsOf_lt (w hi lo : Nat) : bitsOf w hi lo < 2 ^ (hi + 1 - lo) := Nat.mod_lt _ (Nat.two_pow_pos _)

theorem signal_adds (q : List LoopFrame × Nat) (h : s.AtInstr n x 3) (hl : loopStep (s.core n).loops (s.pc n) = q)
    (hq : q.2 ≤ 16383) :
    let k := bitsOf (s.slot n (s.pc n)).toNat 5 0
    let v := bitsOf (s.slot n (s.pc n)).toNat 31 16
    let t := signal n s
    SeqAt n q.2 Seq.running [R.SEQ_SEM n k] s t ∧ (t.core n).loops = q.1
      ∧ t.reg (R.SEQ_SEM n k) = semRaised (s.reg (R.SEQ_SEM n k)) v := by
  intro k v t
  have ht : t = settleCore n (seqNext n x (s.pc n) (s.setReg (R.SEQ_SEM n k) (semRaised (s.reg (R.SEQ_SEM n k)) v))) := by
    rw [← semAdd_resident n x k v s h.ctx_eq]
    exact seqInstr_at h _ (by decide) (by decide)
  obtain ⟨hat, hloops, -, hreg⟩ := seqNext_past_sem s n x q k (bitsOf_lt _ 5 0)
    (semRaised (s.reg (R.SEQ_SEM n k)) v) hl hq h.noDrain
  rw [ht]
  exact ⟨hat, hloops, hreg⟩

/-- BRANCH goes to its target and keeps the loops in progress. -/
theorem seqBranch_jumps (h : s.AtInstr n x 7) :
    SeqAt n (bitsOf (s.slot n (s.pc n)).toNat 13 0) Seq.running [] s (seqBranch n s)
      ∧ ((seqBranch n s).core n).loops = (s.core n).loops := by
  have ht : seqBranch n s = settleCore n (s.setPc n (bitsOf (s.slot n (s.pc n)).toNat 13 0)) :=
    seqInstr_at h _ (by decide) (by decide)
  have hat := seqAt_setPc n s (Nat.le_of_lt_succ (bitsOf_lt (s.slot n (s.pc n)).toNat 13 0))
  rw [h.seqState_eq] at hat
  obtain ⟨hset, hcore⟩ := hat.settled h.noDrain (by simp [h.wait_eq]) (by simp [h.wait_eq])
  rw [ht]
  exact ⟨hset, by rw [hcore, setPc_core]⟩

section
variable (h : s.AtInstr n x 6)
include h

/-- LOOP opens a frame of its body and goes on with the body's first slot. -/
theorem seqLoop_opens (hp : s.pc n < bitsOf (s.slot n (s.pc n)).toNat 29 16) (hl : (s.core n).loops.length < 4)
    (hc : 0 < bitsOf (s.slot n (s.pc n)).toNat 15 0) :
    SeqAt n (s.pc n + 1) Seq.running [] s (seqLoop n s)
      ∧ ((seqLoop n s).core n).loops = ⟨s.pc n + 1, bitsOf (s.slot n (s.pc n)).toNat 29 16,
        bitsOf (s.slot n (s.pc n)).toNat 15 0⟩ :: (s.core n).loops := by
  have hlast : bitsOf (s.slot n (s.pc n)).toNat 29 16 < 16384 := bitsOf_lt _ 29 16
  generalize hfr : (⟨s.pc n + 1, bitsOf (s.slot n (s.pc n)).toNat 29 16, bitsOf (s.slot n (s.pc n)).toNat 15 0⟩ : LoopFrame) = fr
  have ht : seqLoop n s = settleCore n ((s.modCore n (fun c => { c with loops := fr :: c.loops })).setPc n (s.pc n + 1)) := by
    rw [seqLoop, seqInstr_at h _ (by decide) (by decide)]
    dsimp only
    rw [if_neg (by omega), if_neg (by omega), hfr]
  have hat := (seqAt_modCore n s (fun c => { c with loops := fr :: c.loops }) rfl rfl).trans
    (seqAt_setPc n _ (q := s.pc n + 1) (by omega))
  have hcore : (((s.modCore n (fun c => { c with loops := fr :: c.loops })).setPc n (s.pc n + 1)).core n)
      = { s.core n with loops := fr :: (s.core n).loops } := by rw [setPc_core, State.core_modCore_same]
  have hrun : (s.modCore n (fun c => { c with loops := fr :: c.loops })).seqState n = Seq.running := h.seqState_eq
  rw [hrun] at hat
  obtain ⟨hset, hkept⟩ := hat.settled h.noDrain (by simp [hcore, h.wait_eq]) (by simp [hcore, h.wait_eq])
  rw [ht]
  exact ⟨hset, by rw [hkept, hcore]⟩

/-- A count of zero goes past the body. -/
theorem seqLoop_skips (hp : s.pc n < bitsOf (s.slot n (s.pc n)).toNat 29 16) (hl : (s.core n).loops = [])
    (hc : bitsOf (s.slot n (s.pc n)).toNat 15 0 = 0) (hlast : bitsOf (s.slot n (s.pc n)).toNat 29 16 < 16383) :
    SeqAt n (bitsOf (s.slot n (s.pc n)).toNat 29 16 + 1) Seq.running [] s (seqLoop n s) := by
  have ht : seqLoop n s = settleCore n (seqNext n x (bitsOf (s.slot n (s.pc n)).toNat 29 16) s) := by
    rw [seqLoop, seqInstr_at h _ (by decide) (by decide)]
    dsimp only
    rw [if_neg (by simp [hl]; omega), if_pos hc]
  rw [ht]
  exact (settleCore_seqNext n s x _ ([], bitsOf (s.slot n (s.pc n)).toNat 29 16 + 1) (by rw [hl]; rfl) hlast h.noDrain).1

/-- A body that ends behind its LOOP and a fifth level are illegal. -/
theorem seqLoop_illegal (hi : bitsOf (s.slot n (s.pc n)).toNat 29 16 ≤ s.pc n ∨ 4 ≤ (s.core n).loops.length) :
    seqLoop n s = ctxFault x (some n.val) [] Flt.illegal 0 0 s := by
  rw [seqLoop, seqInstr_at h _ (by decide) (by decide)]
  exact if_pos hi

end

end

/-- Settles O14: the four waits by their outcomes, of which only the semaphore's takes something, then SIGNAL, BRANCH and the
three cases of LOOP. -/
theorem waitsSignalsBranchesAndLoops : Obligations.WaitsSignalsBranchesAndLoops := by
  unfold Obligations.WaitsSignalsBranchesAndLoops
  refine ⟨?_, fun s n x => ⟨fun q hl hq h => ?_, fun h => ⟨_, rfl, seqBranch_jumps s n x h⟩,
    fun h hp hl hc => ⟨_, rfl, seqLoop_opens s n x h hp hl hc⟩, fun h hp hl hc hlast => ⟨_, rfl, seqLoop_skips s n x h hp hl hc hlast⟩,
    fun h hi => congrArg Host.Outcome.next (seqLoop_illegal s n x h hi)⟩⟩
  · intro s n x q c r op w ready hl hq hd word k v sem hmem past
    have hk : k < 64 := bitsOf_lt word 5 0
    simp only [List.mem_cons, List.not_mem_nil, or_false, Prod.mk.injEq] at hmem
    obtain ⟨rfl, rfl, rfl, rfl, rfl⟩ | ⟨rfl, rfl, rfl, rfl, rfl⟩ | ⟨rfl, rfl, rfl, rfl, rfl⟩ | ⟨rfl, rfl, rfl, rfl, rfl⟩ := hmem
    · obtain ⟨hat, hloops, hwait, hreg⟩ := seqNext_past_sem s n x q k hk
        (wordSet (s.reg sem) F.SEQ_SEM_COUNT (s.fld sem F.SEQ_SEM_COUNT - v)) hl hq hd
      refine (waitsem_waitsUntil s n x).outcomes s n x ⟨hat, hloops, hwait, ?_⟩
      have hlt : s.fld sem F.SEQ_SEM_COUNT < 65536 := wordFld_lt (s.reg sem) F.SEQ_SEM_COUNT
      rw [State.fld, semSpent, State.setFld, hreg, wordFld_wordSet _ _ _ (by decide)]
      exact Nat.mod_eq_of_lt (Nat.lt_of_le_of_lt (Nat.sub_le _ _) hlt)
    · exact (waitrows_waitsUntil s n x).outcomes s n x (seqNext_past s n x q k hk hl hq hd)
    · exact (waitroom_waitsUntil s n x).outcomes s n x (seqNext_past s n x q k hk hl hq hd)
    · exact (drain_waitsUntil s n x).outcomes s n x (seqNext_past s n x q k hk hl hq hd)
  · obtain ⟨hat, hloops, hreg⟩ := signal_adds s n x q h hl hq
    refine ⟨_, rfl, hat, hloops, ?_, fun hov => ?_⟩
    · rw [State.fld, hreg, semRaised_count, State.fld]
    · rw [State.flag, State.fld, hreg, semRaised_ovf _ _ hov]
      rfl

end Sys2Proof.Machine
end

section
/-! PROOFS. The issue of an operation (R76, R78, R79, R84, R93): an ISSUE that finds its core free either puts the checked
operation in flight or faults its context. -/

namespace Sys2Proof.Machine

/-! ### Status of one operation in flight (R93) -/

theorem coreStatus_arrStatus (n : Nat) (s : State) (o : OpFlight) (hops : (s.core n).ops = [o]) (hrun : o.run = 1)
    (hsw : o.swapping = false) : (coreStatus n s).reg (R.ARR_STATUS n) = BitVec.ofNat 32 (1 + 8 * 1 + 65536 * o.tag) := by
  unfold coreStatus
  dsimp only
  rw [State.reg_setFld_ne _ _ _ _ _ (arrStatus_ne_seqStatus n n), State.reg_setReg_same, hops]
  simp [hrun, hsw]

/-! ### An operation put in flight (R84) -/

section
variable (t : Site) (d : List Word) (k : OpKind) (gang : List Nat) (s : State)

/-- The operation joins those in flight on its core. -/
def opPlaced : State :=
  disarm t.n (mkOp s t d k gang) (s.modCore t.n (fun c => { c with ops := c.ops ++ [mkOp s t d k gang] }))

theorem startOp_eq (p : Nat) : startOp t d k gang p s = coreStatus t.n (seqNext t.n t.x p (opPlaced t d k gang s)) := rfl

theorem opPlaced_frame : opPlaced t d k gang s = { s with cores := (opPlaced t d k gang s).cores } := by
  unfold opPlaced disarm
  split <;> rfl

theorem opPlaced_reg (a : Nat) : (opPlaced t d k gang s).reg a = s.reg a := by rw [opPlaced_frame]; rfl

theorem opPlaced_core_ne {m : Nat} (h : m ≠ t.n) : (opPlaced t d k gang s).core m = s.core m := by
  unfold opPlaced disarm
  split
  · rw [State.core_modCore_ne _ _ _ _ h, State.core_modCore_ne _ _ _ _ h]
  · rw [State.core_modCore_ne _ _ _ _ h]

theorem opPlaced_ops : ((opPlaced t d k gang s).core t.n).ops = (s.core t.n).ops ++ [mkOp s t d k gang] := by
  unfold opPlaced disarm
  split
  · rw [State.core_modCore_same, State.core_modCore_same]
  · rw [State.core_modCore_same]

theorem opPlaced_loops : ((opPlaced t d k gang s).core t.n).loops = (s.core t.n).loops := by
  unfold opPlaced disarm
  split
  · rw [State.core_modCore_same, State.core_modCore_same]
  · rw [State.core_modCore_same]

/-- Outside a loop the sequencer of the core goes on to the next slot. -/
theorem seqAt_startOp {p : Nat} (hl : (s.core t.n).loops = []) (hp : p < 16383) :
    SeqAt t.n (p + 1) Seq.running [] (opPlaced t d k gang s) (startOp t d k gang p s) := by
  have hstep : loopStep ((opPlaced t d k gang s).core t.n).loops p = ([], p + 1) := by rw [opPlaced_loops, hl]; rfl
  rw [startOp_eq, seqNext_eq _ _ _ _ _ hstep hp]
  exact (seqAt_seqAdvanced t.n _ [] hp).coreStatus

theorem startOp_ops {p : Nat} (hl : (s.core t.n).loops = []) (hp : p < 16383) :
    ((startOp t d k gang p s).core t.n).ops = (s.core t.n).ops ++ [mkOp s t d k gang] := by
  obtain ⟨-, -, hops, -⟩ := seqAt_startOp t d k gang s hl hp
  rw [hops, opPlaced_ops]

theorem startOp_core_ne {p m : Nat} (hl : (s.core t.n).loops = []) (hp : p < 16383) (hm : m ≠ t.n) :
    (startOp t d k gang p s).core m = s.core m :=
  ((seqAt_startOp t d k gang s hl hp).core_ne hm).trans (opPlaced_core_ne t d k gang s hm)

theorem startOp_reg_ne {p a : Nat} (hl : (s.core t.n).loops = []) (hp : p < 16383) (h1 : a ≠ R.ARR_STATUS t.n)
    (h2 : a ≠ R.SEQ_STATUS t.n) : (startOp t d k gang p s).reg a = s.reg a :=
  ((seqAt_startOp t d k gang s hl hp).reg_ne h1 h2 List.not_mem_nil).trans (opPlaced_reg t d k gang s a)

theorem startOp_frame {p : Nat} (hl : (s.core t.n).loops = []) (hp : p < 16383) :
    CoreOnly s (startOp t d k gang p s) := by
  have h := (seqAt_startOp t d k gang s hl hp).frame
  rw [opPlaced_frame] at h
  exact h

/-- The only operation in flight shows its run and its tag. -/
theorem startOp_arrStatus {p : Nat} (hl : (s.core t.n).loops = []) (hp : p < 16383) (hops : (s.core t.n).ops = []) :
    (startOp t d k gang p s).reg (R.ARR_STATUS t.n) = BitVec.ofNat 32 (1 + 8 * 1 + 65536 * Op.tag d) := by
  refine coreStatus_arrStatus t.n _ (mkOp s t d k gang) ?_ rfl rfl
  have h := startOp_ops t d k gang s hl hp
  rw [startOp_eq, coreStatus_core, hops] at h
  exact h

end

/-! ### ISSUE (R76, R78, R79) -/

/-- An operation's OPCODE and KIND are not reserved (R76, R192). -/
theorem opKind_listed {d : List Word} {k : OpKind} (h : opKind d = some k) :
    ¬ (Op.opcode d = 0 ∨ 10 < Op.opcode d) ∧ ¬ (Op.opcode d = 6 ∧ 5 ≤ Sq.kind d) := by
  unfold opKind at h
  split at h
  case h_6 =>
    split at h
    case h_4 => cases h
    all_goals omega
  case h_8 => cases h
  all_goals omega

section
variable (s : State) (n x : Nat) (k : OpKind)

theorem issueKind_at (cfgBad : Bool) (hrun : s.running n = some x) (hop : insOp (s.slot n (s.pc n)).toNat = 1)
    (hslot : bitsOf (s.slot n (s.pc n)).toNat 13 0 + 7 ≤ 16383)
    (hk : opKind (s.descAt n (bitsOf (s.slot n (s.pc n)).toNat 13 0)) = some k) :
    issueKind n k cfgBad s = issueOp n k cfgBad x (s.pc n) (s.descAt n (bitsOf (s.slot n (s.pc n)).toNat 13 0)) s := by
  obtain ⟨hcode, hsq⟩ := opKind_listed hk
  rw [issueKind, issueInstr, seqInstr_running hrun hop _ (by decide) (by decide)]
  dsimp only
  rw [if_neg (by omega), if_neg hcode, if_neg hsq, if_pos (by rw [hk, beq_self_eq_true])]

/-- A descriptor of no gang adds nothing to the checks of its operation. -/
theorem noGang_add (c : Chk) : Chk.add { fields := bad (0 != 0) 2 } c = c := by simp [Chk.add, bad]

/-- On a core that is free the checks alone decide whether the operation runs (R78). -/
theorem issueOp_free (p : Nat) (d : List Word) (hbank : (s.core n).bankSwap = none)
    (hd : s.flag (R.SEQ_CTRL n) F.SEQ_CTRL_DRAIN_REQ = false) (hscan : (s.core n).scanQ = []) (hops : (s.core n).ops = [])
    (hgang : Op.gangLog2 d = 0) :
    issueOp n k false x p d s =
      if (opChk s (s.siteOf n x d) d k).faults = [] then startOp (s.siteOf n x d) d k [n] p s
      else ctxFaults x (some n) [] (Op.tag d) (opChk s (s.siteOf n x d) d k).faults
        (countChk n (opChk s (s.siteOf n x d) d k) s) := by
  have hroom : ¬ 2 ≤ 0 := by decide
  unfold issueOp
  simp only [hbank, hd, hscan, hops, hgang, hroom, noGang_add, Option.isSome_none, List.isEmpty_nil, List.any_nil,
    List.length_nil, Bool.not_true, Bool.or_self, Bool.false_eq_true, ne_eq, not_true_eq_false, false_and, if_false]
  split
  · next he => rw [if_pos he]
  · next he => rw [if_neg he]

theorem siteOf_n (d : List Word) : (s.siteOf n x d).n = n := by
  unfold State.siteOf
  split <;> rfl

end

/-- Each of the nine commands issues its own kind of operation (R76). -/
theorem exec_issue (s : State) (n : Fin 18) (c : Instr) (k : OpKind)
    (h : (c, k) ∈ [(Instr.gemm n false, OpKind.gemm), (.conv2d n false, .conv2d), (.fftconv n false, .fftconv),
      (.pool n false, .pool), (.boxcrop n false, .boxcrop), (.eltwise n false, .eltwise),
      (.squallForward n false, .squallForward), (.squallMerge n false, .squallMerge),
      (.squallBackward n false, .squallBackward)]) : exec c s = .next (issueKind n k false s) := by
  simp only [List.mem_cons, List.not_mem_nil, or_false, Prod.mk.injEq] at h
  obtain ⟨rfl, rfl⟩ | ⟨rfl, rfl⟩ | ⟨rfl, rfl⟩ | ⟨rfl, rfl⟩ | ⟨rfl, rfl⟩ | ⟨rfl, rfl⟩ | ⟨rfl, rfl⟩ | ⟨rfl, rfl⟩ | ⟨rfl, rfl⟩ := h
    <;> rfl

/-- Settles O9: on a free core an ISSUE is decided by its checks, and a checked operation is the only one in flight. -/
theorem operationsIssueAfterTheirChecks : Obligations.OperationsIssueAfterTheirChecks := by
  unfold Obligations.OperationsIssueAfterTheirChecks
  intro s n c k x hc hrun hop hp slot d t hslot hk hgang hbank hd hscan hops
  have hexec : exec c s = .next (issueOp n k false x (s.pc n) d s) := by
    rw [exec_issue s n c k hc, issueKind_at s n x k false hrun hop hslot hk]
  have hn : t.n = n := siteOf_n s n x d
  rw [hexec, issueOp_free s n x k (s.pc n) d hbank hd hscan hops hgang]
  refine ⟨fun hf hl => ?_, fun hf => congrArg _ (if_neg hf)⟩
  have hl' : (s.core t.n).loops = [] := by rw [hn]; exact hl
  have hops' : (s.core t.n).ops = [] := by rw [hn]; exact hops
  have hat := seqAt_startOp t d k [n.val] s hl' hp
  have hput := startOp_ops t d k [n.val] s hl' hp
  have hstat := startOp_arrStatus t d k [n.val] s hl' hp hops'
  have hcores := fun m => startOp_core_ne t d k [n.val] s (m := m) hl' hp
  have hregs := fun a => startOp_reg_ne t d k [n.val] s (a := a) hl' hp
  have hframe := startOp_frame t d k [n.val] s hl' hp
  rw [hops', List.nil_append] at hput
  rw [hn] at hat hput hstat hcores hregs
  exact ⟨_, congrArg _ (if_pos hf), hput, hat.pc_eq, hat.seqState_eq, hstat, hcores, hregs, hframe⟩

end Sys2Proof.Machine
end

section
/-! PROOFS. The commit of an output region (R82, R127, R130): rows written from HEAD upwards, and HEAD moved over them. -/

namespace Sys2Proof.Machine

/-! ### Rows of the scratchpads (R120, R127) -/

/-- Bytes of rows of different places have different addresses. -/
theorem rowAddr_inj {m n q r b c : Nat} (hq : q < 65536) (hr : r < 65536) (hb : b < 512) (hc : c < 512) :
    rowAddr m q + b = rowAddr n r + c ↔ m = n ∧ q = r ∧ b = c := by
  unfold rowAddr
  omega

section
variable (s : State) (n r : Nat) (bs : List Byte) (src : Nat)

theorem wf_writeRow (hw : Memory.wf s.spad = true) : Memory.wf (s.writeRow n r bs src).spad = true :=
  Memory.wf_writeList _ _ _ hw

theorem rowByte_writeRow (hw : Memory.wf s.spad = true) (hr : r < 65536) (hlen : bs.length = 512) (m q b : Nat)
    (hq : q < 65536) (hb : b < 512) :
    (s.writeRow n r bs src).rowByte m q b = if m = n ∧ q = r then bs.getD b 0 else s.rowByte m q b := by
  have htake : bs.take 512 = bs := List.take_of_length_le (by omega)
  show Memory.read (Memory.writeList s.spad (rowAddr n r) (bs.take 512)) (rowAddr m q + b) = _
  rw [htake, Memory.read_writeList _ _ _ _ hw, hlen]
  by_cases h : m = n ∧ q = r
  · obtain ⟨rfl, rfl⟩ := h
    rw [if_pos (by omega), if_pos ⟨rfl, rfl⟩, Nat.add_sub_cancel_left]
  · rw [if_neg h, if_neg]
    · rfl
    · rintro ⟨h1, h2⟩
      have hc := (rowAddr_inj (m := m) (n := n) (c := rowAddr m q + b - rowAddr n r) hq hr hb (by omega)).mp (by omega)
      exact h ⟨hc.1, hc.2.1⟩

/-- A clean write clears the row's tag and no other. -/
theorem rowTag_writeRow_clean (q : Nat) : (s.writeRow n r bs 0).rowTag n q = if q = r then 0 else s.rowTag n q := by
  show Tab.get (Tab.del s.rowPoison (n * 65536 + r)) 0 (n * 65536 + q) = _
  rw [Tab.get, Tab.find_del]
  by_cases h : q = r
  · rw [if_pos (by rw [h]), if_pos h]; rfl
  · rw [if_neg (by omega), if_neg h]; rfl

end

/-! ### Several rows written -/

/-- The rows of a list written clean, row `w.1` of it at scratchpad row `f w.1`. -/
def rowsWritten (n : Nat) (f : Nat → Nat) (rows : List (Nat × List Byte)) (s : State) : State :=
  rows.foldl (fun t w => t.writeRow n (f w.1) w.2 0) s

section
variable (n : Nat) (f : Nat → Nat) (rows : List (Nat × List Byte)) (s : State)

theorem rowsWritten_regs : (rowsWritten n f rows s).regs = s.regs := by
  induction rows generalizing s with
  | nil => rfl
  | cons v rows ih => exact (ih (s.writeRow n (f v.1) v.2 0)).trans (State.writeRow_regs _ _ _ _ _)

theorem rowsWritten_tag (q : Nat) (h : s.rowTag n q = 0 ∨ ∃ w ∈ rows, f w.1 = q) : (rowsWritten n f rows s).rowTag n q = 0 := by
  induction rows generalizing s with
  | nil =>
    obtain h | ⟨w, hw, -⟩ := h
    · exact h
    · cases hw
  | cons v rows ih =>
    refine ih (s.writeRow n (f v.1) v.2 0) ?_
    rw [rowTag_writeRow_clean]
    split
    · exact .inl rfl
    · next hne =>
      obtain h | ⟨w, hw, hq⟩ := h
      · exact .inl h
      · rcases List.mem_cons.mp hw with rfl | hw
        · exact absurd hq.symm hne
        · exact .inr ⟨w, hw, hq⟩

section
variable (hw : Memory.wf s.spad = true) (hf : ∀ w ∈ rows, f w.1 < 65536 ∧ w.2.length = 512)
include hw hf

theorem rowsWritten_byte_ne (m q b : Nat) (hq : q < 65536) (hb : b < 512) (h : m ≠ n ∨ ∀ w ∈ rows, q ≠ f w.1) :
    (rowsWritten n f rows s).rowByte m q b = s.rowByte m q b := by
  induction rows generalizing s with
  | nil => rfl
  | cons v rows ih =>
    obtain ⟨hv, hlen⟩ := hf v (List.mem_cons_self ..)
    have hrest : m ≠ n ∨ ∀ w ∈ rows, q ≠ f w.1 := h.imp_right fun h w hw => h w (List.mem_cons_of_mem _ hw)
    have hne : ¬ (m = n ∧ q = f v.1) := fun e => h.elim (fun h => h e.1) fun h => h v (List.mem_cons_self ..) e.2
    have hind := ih (s.writeRow n (f v.1) v.2 0) (wf_writeRow s n _ _ _ hw) (fun w hw => hf w (List.mem_cons_of_mem _ hw)) hrest
    rw [rowByte_writeRow s n _ _ 0 hw hv hlen m q b hq hb, if_neg hne] at hind
    exact hind

/-- Rows written at distinct places hold their bytes. -/
theorem rowsWritten_byte (hd : (rows.map (fun w => f w.1)).Nodup) (w : Nat × List Byte) (hmem : w ∈ rows) (b : Nat)
    (hb : b < 512) : (rowsWritten n f rows s).rowByte n (f w.1) b = w.2.getD b 0 := by
  induction rows generalizing s with
  | nil => cases hmem
  | cons v rows ih =>
    obtain ⟨hv, hlen⟩ := hf v (List.mem_cons_self ..)
    have hwf := wf_writeRow s n (f v.1) v.2 0 hw
    have hf' : ∀ w ∈ rows, f w.1 < 65536 ∧ w.2.length = 512 := fun w hw => hf w (List.mem_cons_of_mem _ hw)
    rw [List.map_cons, List.nodup_cons] at hd
    rcases List.mem_cons.mp hmem with rfl | hmem
    · have hlast : ∀ u ∈ rows, f w.1 ≠ f u.1 := fun u hu e => hd.1 (e ▸ List.mem_map.mpr ⟨u, hu, rfl⟩)
      have hkept := rowsWritten_byte_ne n f rows _ hwf hf' n (f w.1) b hv hb (.inr hlast)
      rw [rowByte_writeRow s n _ _ 0 hw hv hlen n _ b hv hb, if_pos ⟨rfl, rfl⟩] at hkept
      exact hkept
    · exact ih (s.writeRow n (f v.1) v.2 0) hwf hf' hd.2 hmem

end

end

/-! ### HEAD of a ring region (R129, R130) -/

/-- The fields of a pointer word. -/
theorem ptrWord_fields (p : Nat × Bool) (h : p.1 < 65536) :
    wordFld (ptrWord p) F.SPD_REGION_HEAD_HEAD = p.1 ∧ (wordFld (ptrWord p) F.SPD_REGION_HEAD_HEAD_WRAP == 1) = p.2 := by
  obtain ⟨a, w⟩ := p
  have ha : a < 65536 := h
  simp only [wordFld, bitsOf, ptrWord, F.SPD_REGION_HEAD_HEAD, F.SPD_REGION_HEAD_HEAD_WRAP, BitVec.toNat_ofNat]
  cases w
  · refine ⟨by simp; omega, ?_⟩
    rw [beq_eq_false_iff_ne]
    simp
    omega
  · refine ⟨by simp; omega, ?_⟩
    rw [beq_iff_eq]
    simp
    omega

theorem rgn_of_regs {s t : State} (h : t.regs = s.regs) (n r : Nat) : t.rgn n r = s.rgn n r := by
  have hr : ∀ a, t.reg a = s.reg a := fun a => by rw [State.reg, h, State.reg]
  simp only [State.rgn, hr]

theorem rgn_size_lt (s : State) (n r : Nat) : (s.rgn n r).size < 65536 := wordFld_lt _ F.SPD_REGION_GEOM_SIZE

/-- The region with HEAD and its wrap bit replaced. -/
def Rgn.withHead (g : Rgn) (p : Nat × Bool) : Rgn := { g with head := p.1, headWrap := p.2 }

theorem rgn_setHead (s : State) (n r : Nat) (p : Nat × Bool) (h : p.1 < 65536) :
    (s.setReg (R.SPD_REGION_HEAD n r) (ptrWord p)).rgn n r = (s.rgn n r).withHead p := by
  obtain ⟨hhead, hwrap⟩ := ptrWord_fields p h
  have hg : R.SPD_REGION_GEOM n r ≠ R.SPD_REGION_HEAD n r := by unfold R.SPD_REGION_GEOM R.SPD_REGION_HEAD; omega
  have ho : R.SPD_REGION_OWNER n r ≠ R.SPD_REGION_HEAD n r := by unfold R.SPD_REGION_OWNER R.SPD_REGION_HEAD; omega
  have ht : R.SPD_REGION_TAIL n r ≠ R.SPD_REGION_HEAD n r := by unfold R.SPD_REGION_TAIL R.SPD_REGION_HEAD; omega
  simp only [State.rgn, State.reg_setReg_ne _ _ _ _ hg, State.reg_setReg_ne _ _ _ _ ho, State.reg_setReg_ne _ _ _ _ ht,
    State.reg_setReg_same, hhead, hwrap, Rgn.withHead]

theorem advanceHead_rgn (s : State) (n r k : Nat) (hraw : (s.rgn n r).raw = false) (hk : 0 < k)
    (hsize : 0 < (s.rgn n r).size) :
    (advanceHead n r k s).rgn n r
      = (s.rgn n r).withHead (movePtr (s.rgn n r).size (s.rgn n r).head (s.rgn n r).headWrap k) := by
  have hlt : (movePtr (s.rgn n r).size (s.rgn n r).head (s.rgn n r).headWrap k).1 < 65536 := by
    rw [movePtr, if_neg (by omega)]
    exact Nat.lt_trans (Nat.mod_lt _ hsize) (rgn_size_lt s n r)
  rw [← rgn_setHead s n r _ hlt, advanceHead, if_neg (by simp [hraw]; omega)]
  exact rgn_of_regs rfl n r

theorem movePtr_within (size p k : Nat) (w : Bool) (h : p + k < size) : movePtr size p w k = (p + k, w) := by
  rw [movePtr, if_neg (by omega), Nat.mod_eq_of_lt h, Nat.div_eq_of_lt h]
  rfl

theorem movePtr_turned (size p k : Nat) (w : Bool) (h : size ≤ p + k) (h2 : p + k < 2 * size) :
    movePtr size p w k = (p + k - size, !w) := by
  have hdiv : (p + k) / size = 1 := Nat.div_eq_of_lt_le (by omega) (by omega)
  have hmod : (p + k) % size = p + k - size := by rw [Nat.mod_eq_sub_mod h, Nat.mod_eq_of_lt (by omega)]
  rw [movePtr, if_neg (by omega), hdiv, hmod]
  rfl

section
variable (g : Rgn) (hraw : g.raw = false)
include hraw

/-- HEAD in the turn of TAIL lies at or after it. -/
theorem committed_sameTurn (hw : g.headWrap = g.tailWrap) (h : g.tail ≤ g.head) (hh : g.head < g.size) :
    g.committed = g.head - g.tail := by
  unfold Rgn.committed
  rw [hraw, if_neg Bool.false_ne_true]
  split
  · next he => rw [he, Nat.sub_self]
  · rw [Nat.mod_eq_sub_mod (by omega), Nat.mod_eq_of_lt (by omega)]
    omega

/-- HEAD in the turn after TAIL's lies at or before it. -/
theorem committed_nextTurn (hw : g.headWrap ≠ g.tailWrap) (h : g.head ≤ g.tail) (ht : g.tail < g.size) :
    g.committed = g.head + g.size - g.tail := by
  unfold Rgn.committed
  rw [hraw, if_neg Bool.false_ne_true]
  split
  · next he => rw [he, Nat.add_sub_cancel_left]
  · exact Nat.mod_eq_of_lt (by omega)

/-- HEAD moved over `k` free rows commits exactly those (R129, R130). -/
theorem committed_moved (k : Nat) (hh : g.head < g.size) (ht : g.tail < g.size)
    (hwrap : (g.headWrap == g.tailWrap) = decide (g.tail ≤ g.head)) (hfree : k ≤ g.free) :
    (g.withHead (movePtr g.size g.head g.headWrap k)).committed = g.committed + k := by
  unfold Rgn.free at hfree
  by_cases hle : g.tail ≤ g.head
  · have hw : g.headWrap = g.tailWrap := by simpa [hle] using hwrap
    have hc := committed_sameTurn g hraw hw hle hh
    by_cases hin : g.head + k < g.size
    · rw [movePtr_within _ _ _ _ hin, committed_sameTurn (g.withHead (g.head + k, g.headWrap)) hraw hw (Nat.le_add_right_of_le hle) hin, hc]
      simp only [Rgn.withHead]
      omega
    · have hw' : (!g.headWrap) ≠ g.tailWrap := by rw [hw]; exact Bool.not_ne_self _
      have hle' : g.head + k - g.size ≤ g.tail := by omega
      rw [movePtr_turned _ _ _ _ (by omega) (by omega), 
        committed_nextTurn (g.withHead (g.head + k - g.size, !g.headWrap)) hraw hw' hle' ht, hc]
      simp only [Rgn.withHead]
      omega
  · have hw : g.headWrap ≠ g.tailWrap := by simpa [hle] using hwrap
    have hc := committed_nextTurn g hraw hw (by omega) ht
    have hle' : g.head + k ≤ g.tail := by omega
    rw [movePtr_within _ _ _ _ (by omega), committed_nextTurn (g.withHead (g.head + k, g.headWrap)) hraw hw hle' ht, hc]
    simp only [Rgn.withHead]
    omega

end

/-- Rows at different offsets below the region's size are different rows. -/
theorem rowHead_inj (g : Rgn) {i j : Nat} (hi : i < g.size) (hj : j < g.size)
    (h : g.rowHead i = g.rowHead j) : i = j := by
  have hmod : (g.head + i) % g.size = (g.head + j) % g.size := by unfold Rgn.rowHead at h; omega
  have e : i % g.size = j % g.size := Nat.ModEq.add_left_cancel' g.head hmod
  rwa [Nat.mod_eq_of_lt hi, Nat.mod_eq_of_lt hj] at e

theorem commitOut_eq (n r k : Nat) (rows : List (Nat × List Byte)) (s : State) :
    commitOut n (r, k, rows) s = advanceHead n r k (rowsWritten n (s.rgn n r).rowHead rows s) := rfl

/-- Settles O11: the rows land at distinct places after HEAD, and HEAD then moves over as many. -/
theorem committedRowsAdvanceTheHead : Obligations.CommittedRowsAdvanceTheHead := by
  unfold Obligations.CommittedRowsAdvanceTheHead
  intro s n r k rows _ _ hwf g hraw hbase hh ht hwrap hk hfree hrows hd t
  have hpos : 0 < g.size := Nat.lt_of_le_of_lt (Nat.zero_le _) hh
  have hu : ∀ n r, (rowsWritten n g.rowHead rows s).rgn n r = s.rgn n r := fun n r => by
    rw [rgn_of_regs (rowsWritten_regs _ _ _ s)]
  have ht' : t = advanceHead n r k (rowsWritten n g.rowHead rows s) := commitOut_eq n r k rows s
  have hrgn : t.rgn n r = g.withHead (movePtr g.size g.head g.headWrap k) := by
    have h := advanceHead_rgn (rowsWritten n g.rowHead rows s) n r k (by rw [hu]; exact hraw) hk (by rw [hu]; exact hpos)
    rw [hu] at h
    exact h
  have hframe := advanceHead_frame n r k (rowsWritten n g.rowHead rows s)
  rw [← ht'] at hframe
  have hbyte : ∀ m q b, t.rowByte m q b = (rowsWritten n g.rowHead rows s).rowByte m q b := by rw [hframe]; exact fun _ _ _ => rfl
  have htag : ∀ q, t.rowTag n q = (rowsWritten n g.rowHead rows s).rowTag n q := by rw [hframe]; exact fun _ => rfl
  have hlt : ∀ i, g.rowHead i < 65536 := fun i => by
    have hmod := Nat.mod_lt (g.head + i) hpos
    unfold Rgn.rowHead
    omega
  have hksize : k ≤ g.size := Nat.le_trans hfree (Nat.sub_le _ _)
  have hf : ∀ w ∈ rows, g.rowHead w.1 < 65536 ∧ w.2.length = 512 := fun w hw => ⟨hlt _, (hrows w hw).2⟩
  have hnodup : (rows.map (fun w => g.rowHead w.1)).Nodup := by
    have hmap := List.Nodup.map_on (f := g.rowHead) (fun i hi j hj e => ?_) hd
    · rwa [List.map_map] at hmap
    · obtain ⟨v, hv, rfl⟩ := List.mem_map.mp hi
      obtain ⟨w, hw, rfl⟩ := List.mem_map.mp hj
      exact rowHead_inj g (Nat.lt_of_lt_of_le (hrows v hv).1 hksize) (Nat.lt_of_lt_of_le (hrows w hw).1 hksize) e
  refine ⟨?_, ?_, fun w hw => ⟨?_, fun b hb => ?_⟩, fun m q b hq hb h => ?_⟩
  · rw [hrgn]
    exact committed_moved g hraw k hh ht hwrap hfree
  · rw [hrgn]; rfl
  · rw [htag]
    exact rowsWritten_tag _ _ _ _ _ (.inr ⟨w, hw, rfl⟩)
  · rw [hbyte]
    exact rowsWritten_byte n g.rowHead rows s hwf hf hnodup w hw b hb
  · rw [hbyte]
    exact rowsWritten_byte_ne n g.rowHead rows s hwf hf m q b hq hb h

end Sys2Proof.Machine
end

section
/-! PROOFS. Spares, the watchdog, armed faults and statistics slots (R89, R90, R93, R95, R98, R118, R528). -/

namespace Sys2Proof.Machine

/-! ### Spares (R89, R90, R95) -/

/-- The field of ARR_SPARE_MAP and the flag of REL_CORE that a spare row (true) or column is shown in. -/
def spareMapFld (row : Bool) : Fld := if row then F.ARR_SPARE_MAP_ROW_REPLACED else F.ARR_SPARE_MAP_COL_REPLACED
def spareUsedFld (row : Bool) : Fld := if row then F.REL_CORE_ROW_USED else F.REL_CORE_COL_USED

theorem spareMap_ne (n : Nat) : R.ARR_SPARE_MAP n ≠ R.ARR_STATUS n ∧ R.ARR_SPARE_MAP n ≠ R.SEQ_STATUS n := by
  unfold R.ARR_SPARE_MAP R.ARR_STATUS R.SEQ_STATUS Pg.arr7 Pg.arr0 Pg.seq
  omega

theorem relCore_ne {n : Nat} (h : n < 18) : R.REL_CORE n ≠ R.ARR_STATUS n ∧ R.REL_CORE n ≠ R.SEQ_STATUS n := by
  unfold R.REL_CORE R.ARR_STATUS R.SEQ_STATUS Pg.rel1 Pg.arr0 Pg.seq
  omega

section
variable (n : Nat) (q : Nat × Bool) (s : State)

theorem relSpare_reg (kind sub arg a : Nat) (h0 : a / 4096 ≠ Pg.rel0 / 4096) (h2 : a / 4096 ≠ Pg.rel2 / 4096) :
    (relSpare kind n sub arg s).reg a = s.reg a := by
  rw [relSpare, logEntry_reg _ _ _ h2, (OnPage.errEvent _ Pg.rel0 _ (by decide)).1 a h0, State.count_reg]

theorem relSpare_logOnly (kind sub arg : Nat) : LogOnly s (relSpare kind n sub arg s) :=
  ((LogOnly.count s _ _ _).trans (LogOnly.errEvent _ _ _)).trans (logEntry_frame _ _)

theorem bringSpare_logOnly : LogOnly s (bringSpare n q s) :=
  ((((LogOnly.setReg s _ _).trans (LogOnly.count _ _ _ _)).trans (LogOnly.errEvent _ _ _)).trans (LogOnly.setReg _ _ _)).trans
    (relSpare_logOnly _ _ _ _ _)

theorem bringSpare_core (m : Nat) : (bringSpare n q s).core m = s.core m := by rw [bringSpare_logOnly n q s]; rfl

theorem spareMap_page : R.ARR_SPARE_MAP n / 4096 = 0x107 + 16 * n := by
  unfold R.ARR_SPARE_MAP Pg.arr7
  omega

theorem relCore_page (h : n < 18) : R.REL_CORE n / 4096 = 0x31 := by
  unfold R.REL_CORE Pg.rel1
  omega

/-- The spare's map names the index that it replaces (R95). -/
theorem bringSpare_map (hn : n < 18) (h : q.1 ≤ 16) :
    (bringSpare n q s).fld (R.ARR_SPARE_MAP n) (spareMapFld q.2) = q.1 := by
  have hpage := spareMap_page n
  have hcore : R.ARR_SPARE_MAP n ≠ R.REL_CORE n := fun e => by
    rw [e, relCore_page n hn] at hpage
    omega
  have hhdr : ∀ o, o < 0x100 → R.ARR_SPARE_MAP n ≠ Pg.arr0 n + o := fun o ho => by
    unfold R.ARR_SPARE_MAP Pg.arr7 Pg.arr0
    omega
  have hfld : (spareMapFld q.2).hi < 32 ∧ (spareMapFld q.2).hi + 1 - (spareMapFld q.2).lo = 5 := by cases q.2 <;> decide
  rw [State.fld, bringSpare, relSpare_reg _ _ _ _ _ _ (by rw [hpage]; unfold Pg.rel0; omega) (by rw [hpage]; unfold Pg.rel2; omega),
    State.reg_setFld_ne _ _ _ _ _ hcore, errEvent_reg_ne _ _ _ _ (hhdr _ (by decide)) (hhdr _ (by decide)), State.count_reg]
  refine (State.fld_setFld_same s _ (spareMapFld q.2) _ hfld.1).trans ?_
  rw [hfld.2]
  omega

/-- REL_CORE shows the spare as used (R428). -/
theorem bringSpare_used (hn : n < 18) : (bringSpare n q s).flag (R.REL_CORE n) (spareUsedFld q.2) = true := by
  have hpage := relCore_page n hn
  have hfld : (spareUsedFld q.2).hi < 32 ∧ (spareUsedFld q.2).hi + 1 - (spareUsedFld q.2).lo = 1 := by cases q.2 <;> decide
  rw [State.flag, State.fld, bringSpare, relSpare_reg _ _ _ _ _ _ (by rw [hpage]; decide) (by rw [hpage]; decide), beq_iff_eq]
  exact (State.fld_setFld_same _ _ (spareUsedFld q.2) _ hfld.1).trans (by rw [hfld.2]; rfl)

end

/-! ### The run after a swap (R89) -/

section
variable (n : Nat) (s : State)

theorem modHead_headOp (f : OpFlight → OpFlight) : (modHead n f s).headOp n = (s.headOp n).map f := by
  rw [State.headOp, modHead, State.core_modCore_same, State.headOp]
  cases (s.core n).ops <;> rfl

theorem headOp_disarm (o : OpFlight) (m : Nat) : (disarm n o s).headOp m = s.headOp m := by
  unfold disarm
  split
  · by_cases h : m = n
    · rw [h, State.headOp, State.core_modCore_same, State.headOp]
    · rw [State.headOp, State.core_modCore_ne _ _ _ _ h, State.headOp]
  · rfl

theorem coreStatus_spad : (coreStatus n s).spad = s.spad := rfl

theorem coreStatus_headOp (m : Nat) : (coreStatus n s).headOp m = s.headOp m := rfl

theorem spad_disarm (o : OpFlight) : (disarm n o s).spad = s.spad := by
  unfold disarm
  split
  · exact State.modCore_spad _ _ _
  · rfl

theorem reg_disarm (o : OpFlight) (a : Nat) : (disarm n o s).reg a = s.reg a := by
  unfold disarm
  split
  · exact State.modCore_reg _ _ _ _
  · rfl

/-- The next run of an operation that one core alone carries. -/
def runAgain (run : Nat) (o : OpFlight) : State :=
  let q := { o with run := run, swapping := false, forced := false, inj := armed s n o.desc o.kind }
  coreStatus n (disarm n q (modHead n (fun _ => q) s))

theorem rerunAll_alone (run : Nat) (o : OpFlight) (h : s.headOp n = some o) : rerunAll [n] run s = runAgain n s run o := by
  rw [rerunAll, List.foldl_cons, List.foldl_nil, h]
  rfl

theorem runAgain_headOp (run : Nat) (o : OpFlight) (h : s.headOp n = some o) :
    ((runAgain n s run o).headOp n).map (fun h => (h.run, h.swapping)) = some (run, false) := by
  rw [runAgain, coreStatus_headOp, headOp_disarm, modHead_headOp, h]
  rfl

theorem runAgain_reg_ne (run : Nat) (o : OpFlight) {a : Nat} (h1 : a ≠ R.ARR_STATUS n) (h2 : a ≠ R.SEQ_STATUS n) :
    (runAgain n s run o).reg a = s.reg a := by
  rw [runAgain, coreStatus_reg_ne n _ h1 h2, reg_disarm, modHead, State.modCore_reg]

theorem runAgain_spad (run : Nat) (o : OpFlight) : (runAgain n s run o).spad = s.spad := by
  rw [runAgain, coreStatus_spad, spad_disarm, modHead, State.modCore_spad]

end

/-- The end of a swap on a core alone: the spare is brought in, and the operation runs a fourth time. -/
theorem spareSwapDone_alone (n : Nat) (s : State) (o : OpFlight) (q : Nat × Bool) (ho : s.headOp n = some o)
    (hsw : o.swapping = true) (hg : o.gang = [n]) (hq : s.spareFor n o.loc = some q) :
    ∃ o', spareSwapDone n s
      = runAgain n (coreStatus n (modHead n (fun h => { h with swapping := false }) (bringSpare n q s))) 4 o'
      ∧ (coreStatus n (modHead n (fun h => { h with swapping := false }) (bringSpare n q s))).headOp n = some o' := by
  have hhead : (coreStatus n (modHead n (fun h => { h with swapping := false }) (bringSpare n q s))).headOp n
      = some { o with swapping := false } := by
    rw [coreStatus_headOp, modHead_headOp, State.headOp, bringSpare_core, ← State.headOp, ho]
    rfl
  refine ⟨_, ?_, hhead⟩
  rw [← rerunAll_alone n _ 4 _ hhead, spareSwapDone, ho]
  simp only [hsw, hq, hg, Bool.not_true, Bool.false_eq_true, if_false, List.any_cons, List.any_nil, hhead, Option.map_some,
    Option.getD_some, Bool.or_self]

/-- What the end of a swap leaves (R89). -/
theorem spareSwapDone_swapped (n : Fin 18) (s : State) (o : OpFlight) (q : Nat × Bool) (hq16 : q.1 ≤ 16)
    (ho : s.headOp n = some o) (hsw : o.swapping = true) (hg : o.gang = [n.val]) (hq : s.spareFor n o.loc = some q) :
    let t := spareSwapDone n s
    t.fld (R.ARR_SPARE_MAP n) (spareMapFld q.2) = q.1 ∧ t.flag (R.REL_CORE n) (spareUsedFld q.2) = true
      ∧ (t.headOp n).map (fun h => (h.run, h.swapping)) = some (4, false) ∧ t.spad = s.spad := by
  obtain ⟨o', ht, hhead⟩ := spareSwapDone_alone n s o q ho hsw hg hq
  have hreg : ∀ a, a ≠ R.ARR_STATUS n → a ≠ R.SEQ_STATUS n → (spareSwapDone n s).reg a = (bringSpare n q s).reg a :=
    fun a h1 h2 => by rw [ht, runAgain_reg_ne _ _ _ _ h1 h2, coreStatus_reg_ne _ _ h1 h2, modHead, State.modCore_reg]
  intro t
  refine ⟨?_, ?_, ?_, ?_⟩
  · rw [fld_of_reg (hreg _ (spareMap_ne n).1 (spareMap_ne n).2), bringSpare_map n q s n.isLt hq16]
  · rw [flag_of_reg (hreg _ (relCore_ne n.isLt).1 (relCore_ne n.isLt).2), bringSpare_used n q s n.isLt]
  · show ((spareSwapDone n s).headOp n).map _ = _
    rw [ht, runAgain_headOp _ _ _ _ hhead]
  · show (spareSwapDone n s).spad = s.spad
    rw [ht, runAgain_spad, coreStatus_spad, modHead, State.modCore_spad, bringSpare_logOnly]

/-- A spare that is due is brought in on a core with nothing in flight (R90). -/
theorem wearSwap_brings (n : Fin 18) (s : State) (q : Nat × Bool) (qs : List (Nat × Bool)) (hq16 : q.1 ≤ 16)
    (hb : s.busy n = false) (hon : s.domOn n = true) (hdue : (s.core n).spareDue = q :: qs)
    (hfree : (if q.2 then s.rowSpareFree n else s.colSpareFree n) = true) :
    let t := wearSwap n s
    t.fld (R.ARR_SPARE_MAP n) (spareMapFld q.2) = q.1 ∧ t.flag (R.REL_CORE n) (spareUsedFld q.2) = true
      ∧ (t.core n).spareDue = qs ∧ t.spad = s.spad := by
  have ht : wearSwap n s = bringSpare n q (s.modCore n (fun c => { c with spareDue := qs })) := by
    unfold wearSwap
    rw [if_neg (by simp [hb, hon]), hdue]
    exact if_pos ⟨hq16, hfree⟩
  rw [ht]
  refine ⟨bringSpare_map _ _ _ n.isLt hq16, bringSpare_used _ _ _ n.isLt, ?_, ?_⟩
  · rw [bringSpare_core, State.core_modCore_same]
  · rw [bringSpare_logOnly, State.modCore_spad]

/-! ### The watchdog and armed faults (R93, R98, R528) -/

theorem exec_arrWdogTimeout (s : State) (n : Fin 18) (o : OpFlight) (rest : List OpFlight) (hops : (s.core n).ops = o :: rest)
    (hrun : o.run ≠ 0) (hsw : o.swapping = false) (hl : s.fld (R.ARR_WDOG n) F.ARR_WDOG_LIMIT ≠ 0) :
    exec (.arrWdogTimeout n) s
      = .next (ctxFault o.ctx (some n) o.gang Flt.watchdog 0 o.tag (errEvent (Pg.arr0 n) E.arr0_WDOG s)) := by
  have hfind : (s.core n).ops.find? (fun o => o.run != 0 && !o.swapping) = some o := by
    rw [hops, List.find?_cons_of_pos (by simp [hrun, hsw])]
  show Host.Outcome.next (arrWatchdog n s) = _
  rw [arrWatchdog, hfind]
  exact congrArg _ (if_neg hl)

/-- The fields of ARR_FAULT_INJ (R93). -/
def faultInjReg : RegDef :=
  ⟨0x118, 1, 0x0, 1, 0x0, .debug, [⟨4, 0, .wo, 0, 0, [(0, 17)]⟩, ⟨9, 5, .wo, 0, 0, [(0, 17)]⟩, ⟨11, 10, .wo, 0, 0, [(0, 2)]⟩]⟩

/-- A word of listed encodings is taken by ARR_FAULT_INJ (R6). -/
theorem commandOk_faultInj (val : Word) (hr : wordFld val F.ARR_FAULT_INJ_ROW ≤ 17) (hc : wordFld val F.ARR_FAULT_INJ_COL ≤ 17)
    (hm : wordFld val F.ARR_FAULT_INJ_MODE ≤ 2) : commandOk faultInjReg.flds 0xFFFFFFFF#32 val = true := by
  have hr' : bitsOf val.toNat 4 0 ≤ 17 := hr
  have hc' : bitsOf val.toNat 9 5 ≤ 17 := hc
  have hm' : bitsOf val.toNat 11 10 ≤ 2 := hm
  simp [commandOk, faultInjReg, and_full, FldDef.ok, hr', hc', hm']

theorem exec_arrFaultInj (s : State) (iid : Fin 24) (n : Fin 18) (val : Word) (h : s.Admits iid (R.ARR_FAULT_INJ n) .arr0 n)
    (hr : wordFld val F.ARR_FAULT_INJ_ROW ≤ 17) (hc : wordFld val F.ARR_FAULT_INJ_COL ≤ 17)
    (hm : wordFld val F.ARR_FAULT_INJ_MODE ≤ 2) :
    exec (.arrFaultInj iid n val) s = .next (armInjection n val s) := by
  have hoff : R.ARR_FAULT_INJ n % 4096 = 0x118 := by unfold R.ARR_FAULT_INJ Pg.arr0; omega
  have hpage : R.ARR_FAULT_INJ n / 4096 = 0x100 + 16 * n := by unfold R.ARR_FAULT_INJ Pg.arr0; omega
  have hf : findReg (R.ARR_FAULT_INJ n % 4096) (regsOf .arr0) = some (faultInjReg, 0, 0) := by rw [hoff]; decide
  have hneeds : ∀ n : Fin 18, needsOutcome (R.ARR_FAULT_INJ n) = false := by decide
  have hplain : PlainFields (R.ARR_FAULT_INJ n) faultInjReg.flds :=
    plainFields_of _ _ (by decide) (by rw [hpage]; unfold Pg.brz1; omega) (by rw [hpage]; omega)
  show Host.Outcome.next (wordWrite iid (R.ARR_FAULT_INJ n) val s) = _
  rw [busWrite_command iid _ val s .arr0 n faultInjReg 0 0 h (hneeds n) (by rw [hoff]; decide) hf (by rw [hoff]; decide) hplain
    (by decide) (commandOk_faultInj val hr hc hm), hoff]
  exact congrArg _ (attributeErr_quiet _ _ _ _ rfl)

/-! ### Statistics slots (R118) -/

/-- The slots of the first `m` bits of a clear word are cleared. -/
def slotsCleared (n base : Nat) (v : Word) (m : Nat) (s : State) : State :=
  iter m (fun k t =>
    if v.getLsbD k then
      ((t.setReg (R.ARR_STAT_MAX n (base + k)) 0).setReg (R.ARR_STAT_INFO n (base + k)) 0).count (Pg.arr6 n) 3 1
    else t) s

section
variable (n base : Nat) (v : Word) (s : State)

theorem slotsCleared_succ (m : Nat) : slotsCleared n base v (m + 1) s =
    if v.getLsbD m then (((slotsCleared n base v m s).setReg (R.ARR_STAT_MAX n (base + m)) 0).setReg
      (R.ARR_STAT_INFO n (base + m)) 0).count (Pg.arr6 n) 3 1
    else slotsCleared n base v m s := rfl

theorem statClear_eq : statClear n base v s = slotsCleared n base v 32 s := rfl

theorem slotsCleared_frame (m : Nat) : ∃ r c, slotsCleared n base v m s = { s with regs := r, cnt := c } := by
  induction m with
  | zero => exact ⟨s.regs, s.cnt, rfl⟩
  | succ m ih =>
    obtain ⟨r, c, ih⟩ := ih
    rw [slotsCleared_succ, ih]
    split
    · exact ⟨_, _, rfl⟩
    · exact ⟨r, c, rfl⟩

/-- Registers of slots that no bit of the word selects keep their words. -/
theorem slotsCleared_reg_ne (m a : Nat)
    (h : ∀ k, k < m → v.getLsbD k = true → a ≠ R.ARR_STAT_MAX n (base + k) ∧ a ≠ R.ARR_STAT_INFO n (base + k)) :
    (slotsCleared n base v m s).reg a = s.reg a := by
  induction m with
  | zero => rfl
  | succ m ih =>
    have ih := ih fun k hk => h k (Nat.lt_succ_of_lt hk)
    rw [slotsCleared_succ]
    split
    · next hv =>
      obtain ⟨h1, h2⟩ := h m (Nat.lt_succ_self m) hv
      rw [State.count_reg, State.reg_setReg_ne _ _ _ _ h2, State.reg_setReg_ne _ _ _ _ h1, ih]
    · exact ih

theorem slotsCleared_reg (m k : Nat) (hk : k < m) (hv : v.getLsbD k = true) (a : Nat)
    (ha : a = R.ARR_STAT_MAX n (base + k) ∨ a = R.ARR_STAT_INFO n (base + k)) : (slotsCleared n base v m s).reg a = 0 := by
  induction m with
  | zero => cases hk
  | succ m ih =>
    rw [slotsCleared_succ]
    by_cases hkm : k = m
    · subst hkm
      rw [if_pos hv, State.count_reg, State.reg_setReg]
      split
      · rfl
      · next hne => rw [State.reg_setReg, if_pos (ha.resolve_right hne)]
    · have ih := ih (by omega)
      split
      · rw [State.count_reg, State.reg_setReg, State.reg_setReg, ih]
        simp
      · exact ih

end

/-- The first slot that a clear register's bits select. -/
def clearBase (hi : Bool) : Nat := if hi then 32 else 0

/-- A permitted write of ARR_STAT_CLR clears the slots that it selects (R118). -/
theorem exec_arrStatClr (s : State) (iid : Fin 24) (n : Fin 18) (hi : Bool) (val : Word)
    (h : s.Admits iid (if hi then R.ARR_STAT_CLR_HI n else R.ARR_STAT_CLR_LO n) .arr6 n) :
    exec (.arrStatClr iid n hi val) s = .next (slotsCleared n (clearBase hi) val 32 s) := by
  generalize ha : (if hi then R.ARR_STAT_CLR_HI n else R.ARR_STAT_CLR_LO n) = a at h
  have haddr : a = Pg.arr6 n + (if hi then 0x304 else 0x300) := by rw [← ha]; cases hi <;> rfl
  have hoff : a % 4096 = if hi then 0x304 else 0x300 := by rw [haddr]; unfold Pg.arr6; split <;> omega
  have hbase : a - a % 4096 = Pg.arr6 n := by rw [hoff, haddr]; omega
  have hpage : a / 4096 = 0x106 + 16 * n := by rw [haddr]; unfold Pg.arr6; split <;> omega
  have hf : findReg (a % 4096) (regsOf .arr6)
      = some (⟨if hi then 0x304 else 0x300, 1, 0x0, 1, 0x0, .any, [⟨31, 0, .wo, 0, 0, []⟩]⟩, 0, 0) := by
    rw [hoff]; cases hi <;> decide
  have hneeds : ∀ hi : Bool, ∀ n : Fin 18, needsOutcome (Pg.arr6 n + (if hi then 0x304 else 0x300)) = false := by decide
  have hplain : PlainFields a [⟨31, 0, .wo, 0, 0, []⟩] :=
    plainFields_of _ _ (by decide) (by rw [hpage]; unfold Pg.brz1; omega) (by rw [hpage]; omega)
  have heffect : writeEffect ⟨false, false, false⟩ iid .arr6 n (a % 4096) 0xFFFFFFFF#32 val s s
      = slotsCleared n (clearBase hi) val 32 s := by rw [hoff, ← statClear_eq]; cases hi <;> rfl
  have hquiet : (slotsCleared n (clearBase hi) val 32 s).reg (a - a % 4096 + Hdr.errStat)
      = s.reg (a - a % 4096 + Hdr.errStat) := by
    refine slotsCleared_reg_ne _ _ _ _ _ _ fun k _ _ => ?_
    rw [hbase]
    unfold R.ARR_STAT_MAX R.ARR_STAT_INFO Hdr.errStat
    omega
  show Host.Outcome.next (wordWrite iid (if hi then R.ARR_STAT_CLR_HI n else R.ARR_STAT_CLR_LO n) val s) = _
  rw [ha, busWrite_command iid a val s .arr6 n _ 0 0 h (by rw [haddr]; exact hneeds hi n) (by rw [hoff]; cases hi <;> decide) hf
    (by rw [hoff]; cases hi <;> decide) hplain rfl (by simp [commandOk, FldDef.ok]), heffect]
  exact congrArg _ (attributeErr_quiet _ _ _ _ hquiet)

/-- A slot's number by the half that selects it and its bit there. -/
theorem slot_of_half (k : Fin 64) (hi : Bool) (h : 32 ≤ k.val ↔ hi = true) : clearBase hi + k.val % 32 = k.val := by
  unfold clearBase
  cases hi
  · have hk : ¬ 32 ≤ k.val := fun e => absurd (h.mp e) Bool.false_ne_true
    rw [if_neg Bool.false_ne_true]
    omega
  · have hk : 32 ≤ k.val := h.mpr rfl
    rw [if_pos rfl]
    omega

/-- Settles O12: spares by what a swap's end and a wear swap leave, then the watchdog, an armed cell and the cleared slots. -/
theorem sparesWatchdogAndStatistics : Obligations.SparesWatchdogAndStatistics := by
  unfold Obligations.SparesWatchdogAndStatistics
  refine ⟨fun s n q hq16 => ⟨fun o ho hsw hg hq => ⟨_, rfl, spareSwapDone_swapped n s o q hq16 ho hsw hg hq⟩,
      fun qs hb hon hdue hfree => ⟨_, rfl, wearSwap_brings n s q qs hq16 hb hon hdue hfree⟩⟩,
    fun s n iid val => ⟨exec_arrWdogTimeout s n, exec_arrFaultInj s iid n val, fun hi h => ?_⟩⟩
  refine ⟨_, exec_arrStatClr s iid n hi val h, fun k hv hk => ?_, fun a ha => ?_, ?_⟩
  · have hslot := slot_of_half k hi hk
    have hlt : k.val % 32 < 32 := Nat.mod_lt _ (by decide)
    exact ⟨slotsCleared_reg _ _ _ _ 32 _ hlt hv _ (.inl (by rw [hslot])), slotsCleared_reg _ _ _ _ 32 _ hlt hv _ (.inr (by rw [hslot]))⟩
  · refine slotsCleared_reg_ne _ _ _ _ _ _ fun j hj hv => ?_
    have hbase : clearBase hi = if hi then 32 else 0 := rfl
    have hlt : clearBase hi + j < 64 := by rw [hbase]; split <;> omega
    have hmod : (clearBase hi + j) % 32 = j := by rw [hbase]; split <;> omega
    have hhalf : 32 ≤ clearBase hi + j ↔ hi = true := by
      cases hi
      · simp only [hbase, Bool.false_eq_true, if_false, iff_false]
        omega
      · simp [hbase]
    exact ha ⟨clearBase hi + j, hlt⟩ (by rw [hmod]; exact hv) hhalf
  · obtain ⟨r, c, hframe⟩ := slotsCleared_frame n (clearBase hi) val s 32
    rw [hframe]

end Sys2Proof.Machine
end

section
/-! PROOFS. The gang barrier (R73 to R75, R78): what a release and a joint start leave on each member, and what a fault that
stops a gang keeps. -/

namespace Sys2Proof.Machine

/-! ### The members of a gang (R15, R73) -/

theorem gangOf_nodup (s : State) (n : Nat) : (s.gangOf n).Nodup := List.nodup_range.filter _

section
variable (s : State) (g : List Nat) (hg : s.gangWrong g = false)
include hg

/-- In a well-formed gang every member presents one of the sixteen positions (R75). -/
theorem gangPos_lt {m : Nat} (hm : m ∈ g) : s.gangPos m < 16 := by
  have hpos : s.gangPos m ≠ 99 := by
    unfold State.gangWrong at hg
    rw [Bool.or_eq_false_iff, List.any_eq_false] at hg
    intro h99
    exact hg.1 m hm (by rw [h99]; rfl)
  have hdims : ∀ k, (gangDims k).1 * (gangDims k).2 ≤ 16 := fun k => by unfold gangDims; split <;> decide
  unfold State.gangPos at hpos ⊢
  dsimp only at hpos ⊢
  generalize s.fld (R.ARR_GANG m) F.ARR_GANG_POS_ROW = p at *
  generalize s.fld (R.ARR_GANG m) F.ARR_GANG_POS_COL = q at *
  have hle := hdims (s.fld (R.ARR_GANG m) F.ARR_GANG_SIZE_LOG2)
  generalize gangDims (s.fld (R.ARR_GANG m) F.ARR_GANG_SIZE_LOG2) = d at *
  split
  · next h =>
    have hmul : (p + 1) * d.2 ≤ d.1 * d.2 := Nat.mul_le_mul_right _ h.1
    rw [Nat.add_mul, Nat.one_mul] at hmul
    omega
  · next h => exact absurd (if_neg h) hpos

theorem mem_gangOrder (m : Nat) : m ∈ s.gangOrder g ↔ m ∈ g := by
  unfold State.gangOrder
  simp only [List.mem_flatMap, List.mem_range, List.mem_filter, beq_iff_eq]
  exact ⟨fun ⟨_, _, h, _⟩ => h, fun h => ⟨_, gangPos_lt s g hg h, h, rfl⟩⟩

end

theorem gangOrder_nodup (s : State) (g : List Nat) (hd : g.Nodup) : (s.gangOrder g).Nodup := by
  unfold State.gangOrder
  refine List.nodup_flatMap.mpr ⟨fun i _ => hd.filter _, List.nodup_range.imp fun {i j} hij m hi hj => hij ?_⟩
  rw [List.mem_filter, beq_iff_eq] at hi hj
  rw [← hi.2, hj.2]

/-! ### Steps of one core after another -/

/-- Nothing of another core, and no byte of the scratchpads, differs. -/
def OnCore (m : Nat) (s t : State) : Prop :=
  (∀ j, j ≠ m → t.core j = s.core j) ∧ (∀ a, a ≠ R.ARR_STATUS m → a ≠ R.SEQ_STATUS m → t.reg a = s.reg a) ∧ t.spad = s.spad

/-- The record of core `m`, its place and its control word are the same. -/
def SameCore (m : Nat) (s t : State) : Prop :=
  t.core m = s.core m ∧ t.reg (R.SEQ_STATUS m) = s.reg (R.SEQ_STATUS m) ∧ t.reg (R.SEQ_CTRL m) = s.reg (R.SEQ_CTRL m)

theorem SameCore.refl (m : Nat) (s : State) : SameCore m s s := ⟨rfl, rfl, rfl⟩

theorem SameCore.symm {m : Nat} {s t : State} (h : SameCore m s t) : SameCore m t s := ⟨h.1.symm, h.2.1.symm, h.2.2.symm⟩

theorem OnCore.sameCore {m j : Nat} {s t : State} (h : OnCore m s t) (hj : j ≠ m) : SameCore j s t :=
  ⟨h.1 j hj, h.2.1 _ (arrStatus_ne_seqStatus m j).symm (seqStatus_ne hj),
    h.2.1 _ (seqCtrl_ne_status j m).1 (seqCtrl_ne_status j m).2⟩

theorem SeqAt.onCore {n p st : Nat} {s t : State} (h : SeqAt n p st [] s t) : OnCore n s t :=
  ⟨fun _ hj => h.core_ne hj, fun _ h1 h2 => h.reg_ne h1 h2 List.not_mem_nil, by rw [h.frame]⟩

section
variable (step : State → Nat → State) (Pre : State → Nat → Prop) (Post : State → State → Nat → Prop)
  (hpre : ∀ s t m, SameCore m s t → Pre s m → Pre t m)
  (hpost : ∀ s s' t t' m, SameCore m s s' → SameCore m t t' → Post s t m → Post s' t' m)
  (hstep : ∀ s m, Pre s m → OnCore m s (step s m) ∧ Post s (step s m) m)
include hpre hpost hstep

/-- Steps that each act on their own core do so whatever the others did before and do after. -/
theorem foldl_eachCore (g : List Nat) (hd : g.Nodup) (s : State) (h : ∀ m ∈ g, Pre s m) :
    (g.foldl step s).spad = s.spad ∧ (∀ j, j ∉ g → SameCore j s (g.foldl step s))
      ∧ ∀ m ∈ g, Post s (g.foldl step s) m := by
  induction g generalizing s with
  | nil => exact ⟨rfl, fun j _ => SameCore.refl j s, fun m hm => by cases hm⟩
  | cons v g ih =>
    obtain ⟨hv, hd⟩ := List.nodup_cons.mp hd
    obtain ⟨hon, hp⟩ := hstep s v (h v (List.mem_cons_self ..))
    have hne : ∀ m ∈ g, m ≠ v := fun m hm e => hv (e ▸ hm)
    obtain ⟨hspad, hout, hin⟩ := ih hd (step s v) fun m hm =>
      hpre s _ m (hon.sameCore (hne m hm)) (h m (List.mem_cons_of_mem _ hm))
    refine ⟨hspad.trans hon.2.2, fun j hj => ?_, fun m hm => ?_⟩
    · rw [List.mem_cons, not_or] at hj
      obtain ⟨h1, h2, h3⟩ := hon.sameCore hj.1
      obtain ⟨k1, k2, k3⟩ := hout j hj.2
      exact ⟨k1.trans h1, k2.trans h2, k3.trans h3⟩
    · rcases List.mem_cons.mp hm with rfl | hm
      · exact hpost s s _ _ m (SameCore.refl m s) (hout m hv) hp
      · exact hpost _ _ _ _ m (hon.sameCore (hne m hm)).symm (SameCore.refl m _) (hin m hm)

end

/-! ### BARRIER (R74, R75) -/

section
variable (s : State) (n : Fin 18) (x : Nat)

theorem seqBarrier_passes (h : s.AtInstr n x 11) (hz : s.fld (R.ARR_GANG n) F.ARR_GANG_SIZE_LOG2 = 0)
    (hl : (s.core n).loops = []) (hp : s.pc n < 16383) : SeqAt n (s.pc n + 1) Seq.running [] s (seqBarrier n s) := by
  have ht : seqBarrier n s = settleCore n (seqNext n x (s.pc n) s) := by
    rw [seqBarrier, seqInstr_at h _ (by decide) (by decide), barrierArrive, if_pos hz]
  rw [ht]
  exact (settleCore_seqNext n s x _ ([], s.pc n + 1) (by rw [hl]; rfl) hp h.noDrain).1

theorem seqBarrier_waits (h : s.AtInstr n x 11) (hz : s.fld (R.ARR_GANG n) F.ARR_GANG_SIZE_LOG2 ≠ 0) :
    SeqAt n (s.pc n) Seq.waiting [] s (seqBarrier n s) ∧ ((seqBarrier n s).core n).wait = .barrier := by
  have ht : seqBarrier n s = settleCore n (seqWait n .barrier s) := by
    rw [seqBarrier, seqInstr_at h _ (by decide) (by decide), barrierArrive, if_neg hz]
  rw [ht]
  exact settleCore_seqWait n s _ (by simp) (by simp) h.noDrain

theorem barrierTimeout_faults (hc : (s.core n).ctx = some x) (hw : (s.core n).wait = .barrier) :
    barrierTimeout n s = ctxFault x (some n.val) (s.gangOf n) Flt.watchdog 0 0
      (errEvent (Pg.arr0 n) E.arr0_BARRIER_TIMEOUT s) := by
  unfold barrierTimeout
  rw [hc, hw]

end

/-- The barrier stalls of a gang's members counted (R93). -/
def stallsCounted (g : List Nat) (s : State) : State := g.foldl (fun t m => countFree (cntKey (Pg.arr0 m) 7) t) s

theorem stallsCounted_frame (g : List Nat) (s : State) : ∃ c f, stallsCounted g s = { s with cnt := c, free := f } := by
  induction g generalizing s with
  | nil => exact ⟨s.cnt, s.free, rfl⟩
  | cons m g ih =>
    obtain ⟨c, f, h⟩ := ih (countFree (cntKey (Pg.arr0 m) 7) s)
    exact ⟨c, f, h⟩

/-- A released member's sequencer goes on. -/
def memberReleased (x : Nat) (s : State) (m : Nat) : State := settleCore m (seqNext m x (s.pc m) s)

/-- A core that goes on outside its loops when it is released, with nothing to drain for. -/
def ReadyToGoOn (s : State) (m : Nat) : Prop :=
  (s.core m).loops = [] ∧ s.pc m < 16383 ∧ s.flag (R.SEQ_CTRL m) F.SEQ_CTRL_DRAIN_REQ = false

/-- Core `m` has gone on to its next slot and waits for nothing. -/
def WentOn (s t : State) (m : Nat) : Prop := t.pc m = s.pc m + 1 ∧ t.seqState m = Seq.running ∧ (t.core m).wait = .none

theorem memberReleased_goesOn (x : Nat) (s : State) (m : Nat) (h : ReadyToGoOn s m) :
    OnCore m s (memberReleased x s m) ∧ WentOn s (memberReleased x s m) m := by
  obtain ⟨hl, hp, hd⟩ := h
  obtain ⟨hat, hcore⟩ := settleCore_seqNext m s x (s.pc m) ([], s.pc m + 1) (by rw [hl]; rfl) hp hd
  exact ⟨hat.onCore, hat.pc_eq, hat.seqState_eq, by rw [memberReleased, hcore]⟩

theorem SameCore.pc {m : Nat} {s t : State} (h : SameCore m s t) : t.pc m = s.pc m := fld_of_reg h.2.1 _

theorem SameCore.seqState {m : Nat} {s t : State} (h : SameCore m s t) : t.seqState m = s.seqState m := fld_of_reg h.2.1 _

theorem membersReleased (x : Nat) (g : List Nat) (hd : g.Nodup) (s : State) (h : ∀ m ∈ g, ReadyToGoOn s m) :
    (g.foldl (memberReleased x) s).spad = s.spad ∧ ∀ m ∈ g, WentOn s (g.foldl (memberReleased x) s) m := by
  obtain ⟨hspad, -, hon⟩ := foldl_eachCore (memberReleased x) ReadyToGoOn WentOn
    (fun s t m h hr => by
      obtain ⟨hl, hp, hd⟩ := hr
      exact ⟨by rw [h.1, hl], by rw [h.pc]; exact hp, by rw [flag_of_reg h.2.2, hd]⟩)
    (fun s s' t t' m hs ht hw => by
      obtain ⟨hpc, hst, hwait⟩ := hw
      exact ⟨by rw [ht.pc, hs.pc, hpc], by rw [ht.seqState, hst], by rw [ht.1, hwait]⟩)
    (memberReleased_goesOn x) g hd s h
  exact ⟨hspad, hon⟩

theorem barrierRelease_eq (s : State) (n x : Nat) (hc : (s.core n).ctx = some x) (hw : (s.core n).wait = .barrier)
    (hg : s.gangWrong (s.gangOf n) = false) (hall : ∀ m ∈ s.gangOf n, (s.core m).wait = .barrier) :
    barrierRelease n s = (s.gangOf n).foldl (memberReleased x) (stallsCounted (s.gangOf n) s) := by
  have hall' : (s.gangOf n).all (fun m => (s.core m).wait == .barrier) = true :=
    List.all_eq_true.mpr fun m hm => by rw [hall m hm]; rfl
  unfold barrierRelease
  rw [hc]
  dsimp only
  rw [if_pos ⟨hw, hall'⟩, if_neg (by rw [hg]; exact Bool.false_ne_true)]
  rfl

/-- The release of a barrier sends every member on (R74). -/
theorem barrierRelease_sends (s : State) (n x : Nat) (hc : (s.core n).ctx = some x) (hw : (s.core n).wait = .barrier)
    (hg : s.gangWrong (s.gangOf n) = false)
    (hall : ∀ m ∈ s.gangOf n, (s.core m).wait = .barrier ∧ (s.core m).loops = [] ∧ s.pc m < 16383
      ∧ s.flag (R.SEQ_CTRL m) F.SEQ_CTRL_DRAIN_REQ = false) :
    (barrierRelease n s).spad = s.spad ∧ ∀ m ∈ s.gangOf n, WentOn s (barrierRelease n s) m := by
  obtain ⟨c, f, hcount⟩ := stallsCounted_frame (s.gangOf n) s
  rw [barrierRelease_eq s n x hc hw hg fun m hm => (hall m hm).1, hcount]
  exact membersReleased x (s.gangOf n) (gangOf_nodup s n) _ fun m hm => (hall m hm).2

/-! ### The joint start of an operation (R74, R78) -/

section
variable (G : List Nat) (x : Nat) (d : List Word) (k : OpKind)

/-- A member starts its share of a gang's operation. -/
def memberStarted (s : State) (m : Nat) : State := startOp (s.siteOf m x d) d k G (s.pc m) s

theorem startGang_eq (ms : List Nat) (s : State) : startGang G x d k ms s = ms.foldl (memberStarted G x d k) s := by
  induction ms generalizing s with
  | nil => rfl
  | cons m ms ih => exact ih (memberStarted G x d k s m)

/-- Core `m` runs its next slot with one more operation in flight, the gang's. -/
def StartedOne (s t : State) (m : Nat) : Prop :=
  t.seqState m = Seq.running ∧ t.pc m = s.pc m + 1 ∧ (t.core m).ops.length = (s.core m).ops.length + 1
    ∧ ((t.core m).ops.getLast?.map (fun o => (o.kind, o.desc, o.run, o.gang))) = some (k, d, 1, G)

theorem memberStarted_starts (s : State) (m : Nat) (h : (s.core m).loops = [] ∧ s.pc m < 16383) :
    OnCore m s (memberStarted G x d k s m) ∧ StartedOne G d k s (memberStarted G x d k s m) m := by
  have hn := siteOf_n s m x d
  obtain ⟨hl, hp⟩ := h
  have hl' : (s.core (s.siteOf m x d).n).loops = [] := by rw [hn, hl]
  have hat := seqAt_startOp (s.siteOf m x d) d k G s hl' hp
  have hops := startOp_ops (s.siteOf m x d) d k G s hl' hp
  have hcores := fun j => startOp_core_ne (s.siteOf m x d) d k G s (m := j) hl' hp
  have hregs := fun a => startOp_reg_ne (s.siteOf m x d) d k G s (a := a) hl' hp
  have hframe := startOp_frame (s.siteOf m x d) d k G s hl' hp
  rw [hn] at hat hops hcores hregs
  refine ⟨⟨hcores, hregs, ?_⟩, hat.seqState_eq, hat.pc_eq, ?_, ?_⟩
  · rw [memberStarted, hframe]
  · rw [memberStarted, hops, List.length_append]; rfl
  · rw [memberStarted, hops, List.getLast?_append]; rfl

theorem membersStarted (ms : List Nat) (hd : ms.Nodup) (s : State) (h : ∀ m ∈ ms, (s.core m).loops = [] ∧ s.pc m < 16383) :
    (startGang G x d k ms s).spad = s.spad ∧ ∀ m ∈ ms, StartedOne G d k s (startGang G x d k ms s) m := by
  rw [startGang_eq]
  obtain ⟨hspad, -, hon⟩ := foldl_eachCore (memberStarted G x d k) (fun s m => (s.core m).loops = [] ∧ s.pc m < 16383)
    (StartedOne G d k)
    (fun s t m h hr => ⟨by rw [h.1, hr.1], by rw [h.pc]; exact hr.2⟩)
    (fun s s' t t' m hs ht hw => by
      obtain ⟨hst, hpc, hlen, hlast⟩ := hw
      exact ⟨by rw [ht.seqState, hst], by rw [ht.pc, hs.pc, hpc], by rw [ht.1, hs.1, hlen], by rw [ht.1, hlast]⟩)
    (memberStarted_starts G x d k) ms hd s h
  exact ⟨hspad, hon⟩

end

/-- Counters and free values decide no check (R78). -/
theorem opChk_counted (s : State) (c : List (Nat × Nat)) (f m x : Nat) (d : List Word) (k : OpKind) :
    opChk { s with cnt := c, free := f } (State.siteOf { s with cnt := c, free := f } m x d) d k
      = opChk s (s.siteOf m x d) d k := by
  cases k <;> rfl

section
variable (s : State) (n x slot : Nat) (k : OpKind)

/-- All members have arrived with one operation: it starts on all, or its faults stop the gang (R74, R75, R78). -/
theorem issueBarrier_decides (hc : (s.core n).ctx = some x) (ha : (s.core n).arrival = some slot)
    (hg : s.gangWrong (s.gangOf n) = false) (hk : opKind (s.descAt n slot) = some k)
    (hall : ∀ m ∈ s.gangOf n, s.seqState m = Seq.waiting
      ∧ ∃ q, (s.core m).arrival = some q ∧ Op.tag (s.descAt m q) = Op.tag (s.descAt n slot)
        ∧ Op.opcode (s.descAt m q) = Op.opcode (s.descAt n slot)) :
    let g := s.gangOf n
    let d := s.descAt n slot
    let s0 := stallsCounted g s
    let fs := g.flatMap (fun m => (opChk s (s.siteOf m x d) d k).faults)
    issueBarrier n false s = if fs.isEmpty then startGang (s.gangOrder g) x d k (s.gangOrder g) s0
      else ctxFaults x (some n) g (Op.tag d) fs (countChks x d k g s0) := by
  intro g d s0 fs
  have hwait : g.all (fun m => (s.core m).arrival.isSome && s.seqState m == Seq.waiting) = true :=
    List.all_eq_true.mpr fun m hm => by
      obtain ⟨hst, q, hq, -⟩ := hall m hm
      rw [hq, hst]; rfl
  have hsame : (g.map (fun m => s.descAt m ((s.core m).arrival.getD 0))).any
      (fun e => Op.tag e != Op.tag d || Op.opcode e != Op.opcode d) = false := by
    rw [List.any_map, List.any_eq_false]
    intro m hm
    obtain ⟨-, q, hq, htag, hcode⟩ := hall m hm
    simp [hq, d, htag, hcode]
  obtain ⟨c, f, hs0⟩ := stallsCounted_frame g s
  have hchk : g.flatMap (fun m => (opChk s0 (s0.siteOf m x d) d k).faults) = fs := by
    show g.flatMap (fun m => (opChk (stallsCounted g s) ((stallsCounted g s).siteOf m x d) d k).faults) = _
    rw [hs0]
    simp only [opChk_counted]
    rfl
  have horder : s0.gangOrder g = s.gangOrder g := by
    show (stallsCounted g s).gangOrder g = _
    rw [hs0]; rfl
  have hd : opKind d = some k := hk
  unfold issueBarrier
  rw [hc, ha]
  dsimp only
  rw [if_pos hwait, hsame, hg]
  simp only [Bool.false_eq_true, if_false, List.append_nil, List.isEmpty_nil, Bool.not_true]
  rw [hd]
  dsimp only
  show (if (g.flatMap (fun m => (opChk s0 (s0.siteOf m x d) d k).faults)).isEmpty = true
    then startGang (s0.gangOrder g) x d k (s0.gangOrder g) s0
    else ctxFaults x (some n) g (Op.tag d) (g.flatMap (fun m => (opChk s0 (s0.siteOf m x d) d k).faults))
      (countChks x d k g s0)) = _
  rw [hchk, horder]

end

end Sys2Proof.Machine
end

section
/-! PROOFS. Context faults (R8, R9, R97, R144): what a fault that stops cores keeps, and that its context has then faulted; the
barrier's part of a gang's operation. -/

namespace Sys2Proof.Machine

/-! ### What a fault keeps (R97, R144) -/

/-- No byte of the scratchpads differs, and no core has more operations in flight. -/
def StopsOnly (s t : State) : Prop := t.spad = s.spad ∧ ∀ m, (t.core m).ops.length ≤ (s.core m).ops.length

theorem StopsOnly.trans {s t u : State} (h : StopsOnly s t) (k : StopsOnly t u) : StopsOnly s u :=
  ⟨k.1.trans h.1, fun m => (k.2 m).trans (h.2 m)⟩

theorem StopsOnly.of_same {s t : State} (hs : t.spad = s.spad) (hc : t.cores = s.cores) : StopsOnly s t :=
  ⟨hs, fun m => by rw [State.core, hc, State.core]⟩

theorem StopsOnly.refl (s : State) : StopsOnly s s := .of_same rfl rfl

theorem LogOnly.cores {s t : State} (h : LogOnly s t) : t.cores = s.cores := by rw [h]

theorem LogOnly.ctxs {s t : State} (h : LogOnly s t) : t.ctxs = s.ctxs := by rw [h]

theorem LogOnly.stopsOnly {s t : State} (h : LogOnly s t) : StopsOnly s t := .of_same h.spad h.cores

theorem StopsOnly.modCore (s : State) (n : Nat) (f : Core → Core) (h : (f (s.core n)).ops.length ≤ (s.core n).ops.length) :
    StopsOnly s (s.modCore n f) := by
  refine ⟨State.modCore_spad _ _ _, fun m => ?_⟩
  by_cases hm : m = n
  · rw [hm, State.core_modCore_same]; exact h
  · rw [State.core_modCore_ne _ _ _ _ hm]

theorem StopsOnly.setFld (s : State) (a : Nat) (f : Fld) (v : Nat) : StopsOnly s (s.setFld a f v) := .of_same rfl rfl

theorem setChan_ops (c : Core) (k : Nat) (h : Chan) : (c.setChan k h).ops = c.ops := by
  unfold Core.setChan
  split <;> rfl

section
variable (x : Nat)

theorem chanStatus_stopsOnly (n k cause : Nat) (s : State) : StopsOnly s (chanStatus n k cause s) := .of_same rfl rfl

theorem stopChan_stopsOnly (n k : Nat) (s : State) : StopsOnly s (stopChan x n k s) := by
  have hset : ∀ h : Chan, StopsOnly s (s.setChan n k h) := fun h => .modCore s n _ (by rw [setChan_ops])
  unfold stopChan
  dsimp only
  split <;> split
  · exact ((hset _).trans (.of_same rfl rfl)).trans (chanStatus_stopsOnly ..)
  · exact (hset _).trans (chanStatus_stopsOnly ..)
  · exact ((hset _).trans (.of_same rfl rfl)).trans (chanStatus_stopsOnly ..)
  · exact (hset _).trans (chanStatus_stopsOnly ..)

theorem stopChans_stopsOnly (l : List Nat) (s : State) : StopsOnly s (stopChans x l s) := by
  induction l generalizing s with
  | nil => exact .refl s
  | cons n l ih =>
    exact ((((stopChan_stopsOnly x n 0 s).trans (stopChan_stopsOnly x n 1 _)).trans (stopChan_stopsOnly x n 2 _)).trans
      (stopChan_stopsOnly x n 3 _)).trans (ih _)

theorem stopCore_stopsOnly (n : Nat) (s : State) : StopsOnly s (stopCore x n s) := by
  have hscan : StopsOnly s (s.setCore n { s.core n with
      scanQ := (s.core n).scanQ.filter (fun (q : ScanChunk) => q.ctx != x) }) :=
    .modCore s n (fun c => { c with scanQ := c.scanQ.filter (fun (q : ScanChunk) => q.ctx != x) }) (Nat.le_refl _)
  unfold stopCore
  dsimp only
  split
  · exact (((hscan.trans (.modCore _ n _ (Nat.zero_le _))).trans (.setFld _ _ _ _)).trans (.setFld _ _ _ _)).trans
      (.setFld _ _ _ _)
  · exact hscan

theorem stopCores_stopsOnly (l : List Nat) (s : State) : StopsOnly s (stopCores x l s) := by
  induction l generalizing s with
  | nil => exact .refl s
  | cons n l ih => exact (stopCore_stopsOnly x n s).trans (ih _)

theorem countFault_logOnly (code : Nat) (s : State) : LogOnly s (countFault code s) := by
  unfold countFault
  split <;> rfl

theorem stopCores_ctxs (l : List Nat) (s : State) : (stopCores x l s).ctxs = s.ctxs := by rw [stopCores_frame x l s]

theorem stopChans_ctxs (l : List Nat) (s : State) : (stopChans x l s).ctxs = s.ctxs := by
  induction l generalizing s with
  | nil => rfl
  | cons n l ih =>
    refine (ih _).trans ?_
    rw [stopChan_frame, stopChan_frame x n 2, stopChan_frame x n 1, stopChan_frame x n 0]

end

/-- A state whose context `x` has faulted. -/
def Faulted (x : Nat) (s : State) : Prop := (s.ctx x).fault.isSome = true

theorem Faulted.of_ctxs {x : Nat} {s t : State} (h : Faulted x s) (hc : t.ctxs = s.ctxs) : Faulted x t := by
  unfold Faulted State.ctx at *
  rw [hc]; exact h

/-- A context with its first fault, its cores, channels and collectives stopped and the fault logged (R8, R97, R144). -/
def faultTaken (x : Nat) (f : FaultRec) (stopped : List Nat) (e : LogEntry) (s : State) : State :=
  logEntry e (dropColl x (stopChans x (List.range 18) (stopCores x stopped (s.setCtx x { s.ctx x with fault := some f }))))

theorem faultTaken_stops (x : Nat) (f : FaultRec) (stopped : List Nat) (e : LogEntry) (s : State) :
    StopsOnly s (faultTaken x f stopped e s) ∧ Faulted x (faultTaken x f stopped e s) := by
  have hlog := logEntry_frame e (dropColl x (stopChans x (List.range 18)
    (stopCores x stopped (s.setCtx x { s.ctx x with fault := some f }))))
  have hf : Faulted x (s.setCtx x { s.ctx x with fault := some f }) := by
    unfold Faulted State.ctx State.setCtx
    rw [Tab.get_set_same]; rfl
  have hset : StopsOnly s (s.setCtx x { s.ctx x with fault := some f }) := .of_same rfl rfl
  have hdrop : ∀ t, StopsOnly t (dropColl x t) := fun _ => .of_same rfl rfl
  have hkept : ∀ t, (dropColl x t).ctxs = t.ctxs := fun _ => rfl
  exact ⟨((((hset.trans (stopCores_stopsOnly x stopped _)).trans (stopChans_stopsOnly x _ _)).trans (hdrop _)).trans
      hlog.stopsOnly),
    (((hf.of_ctxs (stopCores_ctxs x stopped _)).of_ctxs (stopChans_ctxs x _ _)).of_ctxs (hkept _)).of_ctxs hlog.ctxs⟩

/-- A fault stops what its context has in flight and starts nothing, and its context has then faulted (R9). -/
theorem ctxFault_stops (x : Nat) (n : Option Nat) (gang : List Nat) (code sub opTag : Nat) (s : State) :
    StopsOnly s (ctxFault x n gang code sub opTag s) ∧ Faulted x (ctxFault x n gang code sub opTag s) := by
  have hcount := (countFault_logOnly code s).stopsOnly
  unfold ctxFault
  dsimp only
  generalize countFault code s = s0 at *
  cases hf : (s0.ctx x).fault with
  | some f =>
    refine ⟨hcount.trans (LogOnly.count _ _ _ _).stopsOnly, ?_⟩
    show ((s0.ctx x).fault).isSome = true
    rw [hf]; rfl
  | none =>
    cases n with
    | none =>
      obtain ⟨hstop, hfault⟩ := faultTaken_stops x ⟨code, sub, 0xFF, 0, opTag, s0.dtime⟩ gang
        { cls := LogCls.contextFault, kind := 0, unit := 0, ctx := x, code := code, sub := sub, arg0 := opTag } s0
      exact ⟨hcount.trans hstop, hfault⟩
    | some k =>
      obtain ⟨hstop, hfault⟩ := faultTaken_stops x ⟨code, sub, s0.ctxCoreOf x k, 0, opTag, s0.dtime⟩ (k :: gang)
        { cls := LogCls.contextFault, kind := LogKind.core, unit := k, ctx := x, code := code, sub := sub, arg0 := opTag } s0
      have htest : ∀ t : State, StopsOnly t (t.modCore k (fun c => { c with laneTest := true })) := fun t =>
        .modCore t k _ (Nat.le_refl _)
      have hkept : ∀ t : State, (t.modCore k (fun c => { c with laneTest := true })).ctxs = t.ctxs := fun _ => rfl
      dsimp only
      split
      · exact ⟨(hcount.trans hstop).trans (htest _), hfault.of_ctxs (hkept _)⟩
      · exact ⟨hcount.trans hstop, hfault⟩

/-- Further conditions of a fault are only counted (R9, R431). -/
theorem otherCodes_logOnly (l : List Nat) (s : State) :
    LogOnly s (l.foldl (fun t c => (countFault c t).count Pg.rel3 3 1) s) := by
  induction l generalizing s with
  | nil => rfl
  | cons c l ih => exact ((countFault_logOnly c s).trans (LogOnly.count _ _ _ _)).trans (ih _)

theorem lowestFault_of_ne_nil (fs : List (Nat × Nat)) (h : fs ≠ []) : ∃ f, lowestFault fs = some f := by
  cases fs with
  | nil => exact absurd rfl h
  | cons f fs =>
    unfold lowestFault
    split
    · exact ⟨f, rfl⟩
    · split
      · exact ⟨_, rfl⟩
      · exact ⟨f, rfl⟩

theorem ctxFaults_stops (x : Nat) (n : Option Nat) (gang : List Nat) (tag : Nat) (fs : List (Nat × Nat)) (s : State)
    (h : fs ≠ []) : StopsOnly s (ctxFaults x n gang tag fs s) ∧ Faulted x (ctxFaults x n gang tag fs s) := by
  obtain ⟨⟨code, sub⟩, hf⟩ := lowestFault_of_ne_nil fs h
  obtain ⟨hstop, hfault⟩ := ctxFault_stops x n gang code sub tag s
  have hlog := otherCodes_logOnly (otherCodes code fs) (ctxFault x n gang code sub tag s)
  unfold ctxFaults
  rw [hf]
  exact ⟨hstop.trans hlog.stopsOnly, hfault.of_ctxs hlog.ctxs⟩

/-! ### What failing checks count (R78, R137, R152) -/

theorem countRange_logOnly (n : Nat) (s : State) : LogOnly s (countRange n s) :=
  (LogOnly.errEvent _ _ _).trans (LogOnly.count _ _ _ _)

theorem countOverrun_logOnly (n : Nat) (s : State) : LogOnly s (countOverrun n s) :=
  (LogOnly.errEvent _ _ _).trans (LogOnly.count _ _ _ _)

theorem countChk_logOnly (n : Nat) (c : Chk) (s : State) : LogOnly s (countChk n c s) := by
  have hden : LogOnly s (if c.denied then countRange n s else s) := by
    split
    · exact countRange_logOnly n s
    · rfl
  unfold countChk
  dsimp only
  split
  · split
    · exact hden.trans (countOverrun_logOnly n _)
    · exact hden
  · exact hden

theorem countChks_logOnly (x : Nat) (d : List Word) (k : OpKind) (ms : List Nat) (s : State) :
    LogOnly s (countChks x d k ms s) := by
  induction ms generalizing s with
  | nil => rfl
  | cons m ms ih => exact (countChk_logOnly _ _ s).trans (ih _)

/-! ### The gang's operation -/

section
variable (s : State) (n x slot : Nat) (k : OpKind)
  (hc : (s.core n).ctx = some x) (ha : (s.core n).arrival = some slot)
  (hg : s.gangWrong (s.gangOf n) = false) (hk : opKind (s.descAt n slot) = some k)
  (hall : ∀ m ∈ s.gangOf n, s.seqState m = Seq.waiting
    ∧ ∃ q, (s.core m).arrival = some q ∧ Op.tag (s.descAt m q) = Op.tag (s.descAt n slot)
      ∧ Op.opcode (s.descAt m q) = Op.opcode (s.descAt n slot))
include hc ha hg hk hall

/-- A gang whose members all pass their checks starts on each of them (R74). -/
theorem issueBarrier_starts (hready : ∀ m ∈ s.gangOf n, (s.core m).loops = [] ∧ s.pc m < 16383)
    (hpass : ∀ m ∈ s.gangOf n, (opChk s (s.siteOf m x (s.descAt n slot)) (s.descAt n slot) k).faults = []) :
    (issueBarrier n false s).spad = s.spad
      ∧ ∀ m ∈ s.gangOf n, StartedOne (s.gangOrder (s.gangOf n)) (s.descAt n slot) k s (issueBarrier n false s) m := by
  obtain ⟨c, f, hs0⟩ := stallsCounted_frame (s.gangOf n) s
  have hmem := mem_gangOrder s (s.gangOf n) hg
  rw [issueBarrier_decides s n x slot k hc ha hg hk hall,
    if_pos (List.isEmpty_iff.mpr (List.flatMap_eq_nil_iff.mpr hpass)), hs0]
  obtain ⟨hspad, hstart⟩ := membersStarted (s.gangOrder (s.gangOf n)) x (s.descAt n slot) k (s.gangOrder (s.gangOf n))
    (gangOrder_nodup s _ (gangOf_nodup s n)) { s with cnt := c, free := f } fun m hm => hready m ((hmem m).mp hm)
  exact ⟨hspad, fun m hm => hstart m ((hmem m).mpr hm)⟩

/-- One failing member keeps the operation from all (R78). -/
theorem issueBarrier_faults
    (hfail : ∃ m ∈ s.gangOf n, (opChk s (s.siteOf m x (s.descAt n slot)) (s.descAt n slot) k).faults ≠ []) :
    StopsOnly s (issueBarrier n false s) ∧ Faulted x (issueBarrier n false s) := by
  obtain ⟨c, f, hs0⟩ := stallsCounted_frame (s.gangOf n) s
  obtain ⟨m, hm, hf⟩ := hfail
  have hne : (s.gangOf n).flatMap (fun m => (opChk s (s.siteOf m x (s.descAt n slot)) (s.descAt n slot) k).faults) ≠ [] :=
    fun h => hf (List.flatMap_eq_nil_iff.mp h m hm)
  have hcount : StopsOnly s (stallsCounted (s.gangOf n) s) := by rw [hs0]; exact .of_same rfl rfl
  rw [issueBarrier_decides s n x slot k hc ha hg hk hall, if_neg (by rw [List.isEmpty_iff]; exact hne)]
  obtain ⟨hstop, hfault⟩ := ctxFaults_stops x (some n) (s.gangOf n) (Op.tag (s.descAt n slot)) _
    (countChks x (s.descAt n slot) k (s.gangOf n) (stallsCounted (s.gangOf n) s)) hne
  exact ⟨(hcount.trans (countChks_logOnly ..).stopsOnly).trans hstop, hfault⟩

end

/-- Settles O16: the release and the joint start act on each member in turn, and none of those steps touches what another
member's step reads; a fault only takes operations away. -/
theorem gangsReleaseAndStartTogether : Obligations.GangsReleaseAndStartTogether := by
  refine ⟨fun s n x => ⟨fun h hz hl hp => ⟨_, rfl, seqBarrier_passes s n x h hz hl hp⟩,
    fun h hz => ⟨_, rfl, seqBarrier_waits s n x h hz⟩,
    fun hc hw hg hall => ⟨_, rfl, barrierRelease_sends s n x hc hw hg hall⟩,
    fun hc hw => by rw [← barrierTimeout_faults s n x hc hw]; rfl⟩, ?_⟩
  intro s n x slot k hc ha hg d hk hall
  have harrived : ∀ m ∈ s.gangOf n, s.seqState m = Seq.waiting
      ∧ ∃ q, (s.core m).arrival = some q ∧ Op.tag (s.descAt m q) = Op.tag (s.descAt n slot)
        ∧ Op.opcode (s.descAt m q) = Op.opcode (s.descAt n slot) := fun m hm => by
    obtain ⟨hst, -, -, hq⟩ := hall m hm
    exact ⟨hst, hq⟩
  have hready : ∀ m ∈ s.gangOf n, (s.core m).loops = [] ∧ s.pc m < 16383 := fun m hm => by
    obtain ⟨-, hl, hp, -⟩ := hall m hm
    exact ⟨hl, hp⟩
  refine ⟨fun hpass => ⟨_, rfl, issueBarrier_starts s n x slot k hc ha hg hk harrived hready hpass⟩, fun hfail => ?_⟩
  obtain ⟨⟨hspad, hops⟩, hfault⟩ := issueBarrier_faults s n x slot k hc ha hg hk harrived hfail
  exact ⟨_, rfl, hspad, fun m _ => hops m, fun _ => hfault⟩

end Sys2Proof.Machine
end

section
/-! PROOFS. The float formats (R99, R100, R110): a code is its sign, exponent and fraction, and the value that they name is rounded
to itself. -/

namespace Sys2Proof.Machine

/-! ### Rounding to a number of significant bits (R99) -/

/-- A value that fits, a subnormal one at the least exponent or one with its leading bit, is rounded to itself. -/
theorem quantize_of_fits (md : RoundMode) (p : Nat) (emin : Int) (m : Nat) (e : Int) (hm : m < 2 ^ p)
    (he : e = emin - ((p : Int) - 1) ∨ (emin - ((p : Int) - 1) ≤ e ∧ 2 ^ (p - 1) ≤ m)) :
    quantize md p emin m e = (m, e) := by
  unfold quantize
  by_cases h0 : m = 0
  · obtain rfl | ⟨-, hlead⟩ := he
    · rw [if_pos h0, h0]
    · exact absurd hlead (by rw [h0]; exact Nat.not_le.mpr (Nat.two_pow_pos _))
  · have hlog : Nat.log2 m < p := (Nat.log2_lt h0).mpr hm
    have hq : max (e + Nat.log2 m - ((p : Int) - 1)) (emin - ((p : Int) - 1)) = e := by
      obtain rfl | ⟨hle, hlead⟩ := he
      · omega
      · have := (Nat.le_log2 h0).mpr hlead
        omega
    rw [if_neg h0]
    dsimp only
    rw [hq, if_pos le_rfl, Int.sub_self, Int.toNat_zero, Nat.pow_zero, Nat.mul_one]

/-! ### The fields of a code (R99) -/

/-- Exponent bits of a format. -/
def NumFmt.expBits (f : NumFmt) : Nat := f.shape.1
/-- Fraction bits of a format. -/
def NumFmt.fracBits (f : NumFmt) : Nat := f.shape.2.1
/-- Bias of a format's exponent. -/
def NumFmt.bias (f : NumFmt) : Nat := f.shape.2.2

/-- Fraction of a code, as `decode` reads it. -/
def NumFmt.fracOf (f : NumFmt) (w : Nat) : Nat := bitsOf w (f.fracBits - 1) 0
/-- Biased exponent of a code. -/
def NumFmt.expOf (f : NumFmt) (w : Nat) : Nat := bitsOf w (f.fracBits + f.expBits - 1) f.fracBits
/-- Sign of a code. -/
def NumFmt.negOf (f : NumFmt) (w : Nat) : Bool := bitOf w (f.fracBits + f.expBits)

/-- The code without its sign. -/
def NumFmt.magOf (f : NumFmt) (w : Nat) : Nat := f.expOf w * 2 ^ f.fracBits + f.fracOf w

theorem NumFmt.decode_eq (f : NumFmt) (w : Nat) :
    f.decode w =
      if f = .e4m3 ∧ f.expOf w = 15 ∧ f.fracOf w = 7 then .nan
      else if f ≠ .e4m3 ∧ f.expOf w = 2 ^ f.expBits - 1 then (if f.fracOf w = 0 then .inf (f.negOf w) else .nan)
      else if f.expOf w = 0 then .fin (f.negOf w && f.fracOf w != 0) (f.fracOf w) (1 - (f.bias : Int) - f.fracBits)
      else .fin (f.negOf w) (2 ^ f.fracBits + f.fracOf w) ((f.expOf w : Int) - f.bias - f.fracBits) := rfl

theorem NumFmt.magBits_eq (f : NumFmt) (n : Nat) (q : Int) :
    f.magBits n q =
      let b := if n < 2 ^ f.fracBits then n else (q + f.fracBits + f.bias).toNat * 2 ^ f.fracBits + (n - 2 ^ f.fracBits)
      if b ≤ f.maxBits then some b else none := rfl

/-- A value that fits keeps its significand and exponent. -/
theorem NumFmt.roundMag_of_fits (f : NumFmt) (md : RoundMode) (m : Nat) (e : Int) (hm : m < 2 ^ (f.fracBits + 1))
    (he : e = 1 - (f.bias : Int) - f.fracBits ∨ (1 - (f.bias : Int) - f.fracBits ≤ e ∧ 2 ^ f.fracBits ≤ m)) :
    f.roundMag md m e = f.magBits m e := by
  have h : quantize md (f.fracBits + 1) (1 - (f.bias : Int)) m e = (m, e) :=
    quantize_of_fits md (f.fracBits + 1) _ m e hm (by simpa using he)
  change f.magBits (quantize md (f.fracBits + 1) (1 - (f.bias : Int)) m e).1
    (quantize md (f.fracBits + 1) (1 - (f.bias : Int)) m e).2 = _
  rw [h]

theorem NumFmt.encode_fin (f : NumFmt) (neg : Bool) (m : Nat) (e : Int) (b : Nat)
    (h : f.roundMag .nearest m e = some b) :
    f.encode (.fin neg m e) = ⟨f.signBit (neg && m != 0) + b, false, false⟩ := by
  simp only [NumFmt.encode, h]

section
variable (f : NumFmt) (hf : f.isFloat = true) (w : Nat)
include hf

/-- Sign, exponent and fraction fill a code. -/
theorem NumFmt.widths : 0 < f.fracBits ∧ 0 < f.expBits ∧ f.bits = f.fracBits + f.expBits + 1 := by
  revert hf
  cases f <;> decide

theorem NumFmt.fracOf_eq : f.fracOf w = w % 2 ^ f.fracBits := by
  obtain ⟨hfrac, -, -⟩ := f.widths hf
  unfold NumFmt.fracOf bitsOf
  rw [Nat.pow_zero, Nat.div_one, Nat.sub_zero, Nat.sub_add_cancel hfrac]

theorem NumFmt.fracOf_lt : f.fracOf w < 2 ^ f.fracBits :=
  f.fracOf_eq hf w ▸ Nat.mod_lt _ (Nat.two_pow_pos _)

theorem NumFmt.expOf_width : f.fracBits + f.expBits - 1 + 1 - f.fracBits = f.expBits := by
  obtain ⟨-, hexp, -⟩ := f.widths hf
  omega

theorem NumFmt.expOf_lt : f.expOf w < 2 ^ f.expBits := by
  have h := bitsOf_lt w (f.fracBits + f.expBits - 1) f.fracBits
  rwa [f.expOf_width hf] at h

/-- A code is its sign, and below it exponent and fraction. -/
theorem NumFmt.signBit_add_magOf (hw : w < 2 ^ f.bits) : f.signBit (f.negOf w) + f.magOf w = w := by
  obtain ⟨-, -, hbits⟩ := f.widths hf
  have hcut := split_at_field w (f.fracBits + f.expBits - 1) f.fracBits
  rw [f.expOf_width hf, Nat.div_div_eq_div_mul, ← Nat.pow_add, ← f.fracOf_eq hf, Nat.mul_add, ← Nat.mul_assoc,
    ← Nat.pow_add, Nat.mul_comm _ (bitsOf _ _ _), Nat.add_assoc] at hcut
  have htop : w / 2 ^ (f.fracBits + f.expBits) < 2 := by
    rw [hbits, Nat.pow_succ] at hw
    exact Nat.div_lt_of_lt_mul hw
  have hsign : f.signBit (f.negOf w) = 2 ^ (f.fracBits + f.expBits) * (w / 2 ^ (f.fracBits + f.expBits)) := by
    unfold NumFmt.signBit NumFmt.negOf bitOf
    rw [Nat.mod_eq_of_lt htop, hbits, Nat.add_sub_cancel]
    interval_cases w / 2 ^ (f.fracBits + f.expBits) <;> simp
  rw [hsign]
  exact hcut.symm

/-- A code that is neither a NaN nor an infinity is at most the largest finite one. -/
theorem NumFmt.magOf_le_maxBits (hnan : ¬(f = .e4m3 ∧ f.expOf w = 15 ∧ f.fracOf w = 7))
    (hinf : ¬(f ≠ .e4m3 ∧ f.expOf w = 2 ^ f.expBits - 1)) : f.magOf w ≤ f.maxBits := by
  have hfrac := f.fracOf_lt hf w
  have hexp := f.expOf_lt hf w
  unfold NumFmt.magOf
  generalize f.fracOf w = m at *
  generalize f.expOf w = x at *
  cases f <;> simp [NumFmt.isFloat, NumFmt.fracBits, NumFmt.expBits, NumFmt.shape, NumFmt.maxBits] at * <;> omega

/-! ### A finite value is rounded to its own code (R99, R110) -/

/-- A subnormal significand, zero included, is its own magnitude code. -/
theorem NumFmt.roundMag_subnormal (md : RoundMode) (h0 : f.expOf w = 0) (hle : f.magOf w ≤ f.maxBits) :
    f.roundMag md (f.fracOf w) (1 - (f.bias : Int) - f.fracBits) = some (f.magOf w) := by
  have hlt := f.fracOf_lt hf w
  have hmag : f.magOf w = f.fracOf w := by rw [NumFmt.magOf, h0, Nat.zero_mul, Nat.zero_add]
  rw [f.roundMag_of_fits md _ _ (by rw [Nat.pow_succ]; omega) (.inl rfl), f.magBits_eq]
  dsimp only
  rw [if_pos hlt, ← hmag, if_pos hle]

/-- A normal significand goes under its exponent, without its leading bit. -/
theorem NumFmt.roundMag_normal (md : RoundMode) (h0 : f.expOf w ≠ 0) (hle : f.magOf w ≤ f.maxBits) :
    f.roundMag md (2 ^ f.fracBits + f.fracOf w) ((f.expOf w : Int) - f.bias - f.fracBits) = some (f.magOf w) := by
  have hlt := f.fracOf_lt hf w
  have hexp : ((f.expOf w : Int) - f.bias - f.fracBits + f.fracBits + f.bias).toNat = f.expOf w := by omega
  rw [f.roundMag_of_fits md _ _ (by rw [Nat.pow_succ]; omega) (.inr ⟨by omega, Nat.le_add_right _ _⟩), f.magBits_eq]
  dsimp only
  rw [if_neg (Nat.not_lt.mpr (Nat.le_add_right _ _)), hexp, Nat.add_sub_cancel_left, ← NumFmt.magOf, if_pos hle]

/-- A finite code is written back with its sign, which zero alone loses. -/
theorem NumFmt.encode_decode_finite (hnan : ¬(f = .e4m3 ∧ f.expOf w = 15 ∧ f.fracOf w = 7))
    (hinf : ¬(f ≠ .e4m3 ∧ f.expOf w = 2 ^ f.expBits - 1)) :
    f.encode (f.decode w) = ⟨f.signBit (f.negOf w && f.magOf w != 0) + f.magOf w, false, false⟩ := by
  have hle := f.magOf_le_maxBits hf w hnan hinf
  rw [f.decode_eq, if_neg hnan, if_neg hinf]
  by_cases h0 : f.expOf w = 0
  · have hmag : f.magOf w = f.fracOf w := by rw [NumFmt.magOf, h0, Nat.zero_mul, Nat.zero_add]
    rw [if_pos h0, f.encode_fin _ _ _ _ (f.roundMag_subnormal hf w .nearest h0 hle), Bool.and_assoc, Bool.and_self, hmag]
  · have hsig : 2 ^ f.fracBits + f.fracOf w ≠ 0 := by have := Nat.two_pow_pos f.fracBits; omega
    have hmag : f.magOf w ≠ 0 := by
      have := Nat.mul_pos (Nat.pos_of_ne_zero h0) (Nat.two_pow_pos f.fracBits)
      unfold NumFmt.magOf
      omega
    rw [if_neg h0, f.encode_fin _ _ _ _ (f.roundMag_normal hf w .nearest h0 hle), bne_iff_ne.mpr hsig,
      bne_iff_ne.mpr hmag]

/-- An infinity has the exponent past the largest finite one, and no fraction. -/
theorem NumFmt.infBits_eq (hne : f ≠ .e4m3) (hx : f.expOf w = 2 ^ f.expBits - 1) (h0 : f.fracOf w = 0) :
    f.infBits = some (f.magOf w) := by
  rw [NumFmt.magOf, hx, h0]
  revert hf hne
  cases f <;> decide

theorem NumFmt.negZero_fields : f.expOf (2 ^ (f.bits - 1)) = 0 ∧ f.fracOf (2 ^ (f.bits - 1)) = 0 := by
  revert hf
  cases f <;> decide

/-- −0 is written back as zero (R100). -/
theorem NumFmt.encode_decode_negZero : f.encode (f.decode (2 ^ (f.bits - 1))) = ⟨0, false, false⟩ := by
  obtain ⟨hx, hm⟩ := f.negZero_fields hf
  obtain ⟨-, hexp, -⟩ := f.widths hf
  have hmag : f.magOf (2 ^ (f.bits - 1)) = 0 := by rw [NumFmt.magOf, hx, hm, Nat.zero_mul]
  have hpow : 1 < 2 ^ f.expBits := Nat.one_lt_two_pow (Nat.ne_of_gt hexp)
  rw [f.encode_decode_finite hf _ (fun ⟨_, h, _⟩ => by omega) (fun ⟨_, h⟩ => by omega), hmag]
  simp [NumFmt.signBit]

/-- Every code but a NaN and −0 is written back as it was read. -/
theorem NumFmt.encode_decode_bits (hw : w < 2 ^ f.bits) (hnan : f.decode w ≠ .nan) (hzero : w ≠ 2 ^ (f.bits - 1)) :
    (f.encode (f.decode w)).bits = w := by
  have hcode := f.signBit_add_magOf hf w hw
  by_cases h : f = .e4m3 ∧ f.expOf w = 15 ∧ f.fracOf w = 7
  · exact absurd (by rw [f.decode_eq, if_pos h]) hnan
  by_cases hi : f ≠ .e4m3 ∧ f.expOf w = 2 ^ f.expBits - 1
  · have hdec := f.decode_eq w
    rw [if_neg h, if_pos hi] at hdec
    by_cases hm : f.fracOf w = 0
    · rw [hdec, if_pos hm]
      simp only [NumFmt.encode, f.infBits_eq hf w hi.1 hi.2 hm]
      exact hcode
    · exact absurd (by rw [hdec, if_neg hm]) hnan
  · rw [f.encode_decode_finite hf w h hi]
    by_cases hm : f.magOf w = 0
    · rw [hm, Nat.add_zero] at hcode
      rw [hm]
      cases hneg : f.negOf w with
      | true => exact absurd (by rw [← hcode, hneg]; rfl) hzero
      | false => exact (congrArg f.signBit hneg).symm.trans hcode
    · rw [bne_iff_ne.mpr hm, Bool.and_true]
      exact hcode

end

end Sys2Proof.Machine
end

section
/-! PROOFS. KR4 (R102, R105): rounding looks at a value alone and not at how it is written, so the quotient of a level times the
scale by the scale is the level. -/

namespace Sys2Proof.Machine

/-! ### Rounding by value (R99) -/

theorem log2_mul_two_pow (m j : Nat) (h : m ≠ 0) : Nat.log2 (m * 2 ^ j) = Nat.log2 m + j := by
  have hpos := Nat.two_pow_pos j
  have hlow := Nat.log2_self_le h
  have hhigh := Nat.lt_log2_self (n := m)
  rw [Nat.log2_eq_iff (Nat.mul_ne_zero h (Nat.ne_of_gt hpos)), Nat.add_right_comm, Nat.pow_add, Nat.pow_add]
  exact ⟨Nat.mul_le_mul_right _ hlow, Nat.mul_lt_mul_of_pos_right hhigh hpos⟩

theorem rneShr_mul_two_pow (m k j : Nat) : rneShr (m * 2 ^ j) (k + j) = rneShr m k := by
  have hpos := Nat.two_pow_pos j
  have hhalf : 2 * (m % 2 ^ k) = 2 ^ k → (k + j ≠ 0 ↔ k ≠ 0) := by
    intro h
    have : k ≠ 0 := by rintro rfl; simp [Nat.mod_one] at h
    omega
  unfold rneShr
  dsimp only
  rw [Nat.pow_add, Nat.mul_div_mul_right _ _ hpos, Nat.mul_mod_mul_right, ← Nat.mul_assoc]
  refine if_congr (or_congr (Nat.mul_lt_mul_right hpos) ?_) rfl rfl
  rw [Nat.mul_left_inj (Nat.ne_of_gt hpos)]
  exact and_congr_right fun h => and_congr_right fun _ => hhalf h

theorem rneShr_mul_self (m j : Nat) : rneShr (m * 2 ^ j) j = m := by
  have h := rneShr_mul_two_pow m 0 j
  rw [Nat.zero_add] at h
  rw [h]
  simp [rneShr, Nat.mod_one]

/-- A significand written longer, under an exponent as much smaller, is rounded to the same. -/
theorem quantize_mul_two_pow (p : Nat) (emin : Int) (m : Nat) (e : Int) (j : Nat) :
    quantize .nearest p emin (m * 2 ^ j) (e - j) = quantize .nearest p emin m e := by
  by_cases h0 : m = 0
  · simp [quantize, h0]
  have hne : m * 2 ^ j ≠ 0 := Nat.mul_ne_zero h0 (Nat.ne_of_gt (Nat.two_pow_pos j))
  have hq : e - j + (Nat.log2 m + j : Nat) - ((p : Int) - 1) = e + Nat.log2 m - ((p : Int) - 1) := by omega
  unfold quantize
  rw [if_neg hne, if_neg h0, log2_mul_two_pow m j h0]
  dsimp only
  rw [hq]
  have hle : e + Nat.log2 m - ((p : Int) - 1) ≤ max (e + Nat.log2 m - ((p : Int) - 1)) (emin - ((p : Int) - 1)) :=
    le_max_left _ _
  generalize max (e + Nat.log2 m - ((p : Int) - 1)) (emin - ((p : Int) - 1)) = q at hle ⊢
  by_cases hlong : q ≤ e - j
  · -- no bit is dropped from either
    have hd : (e - j - q).toNat + j = (e - q).toNat := by omega
    rw [if_pos hlong, if_pos (by omega), Nat.mul_assoc, ← Nat.pow_add, Nat.add_comm j, hd]
  by_cases hshort : q ≤ e
  · -- only zeros that the longer significand added are dropped
    have hd : (e - q).toNat + (q - (e - j)).toNat = j := by omega
    have hfits := calc m * 2 ^ (e - q).toNat
      _ < 2 ^ (Nat.log2 m + 1) * 2 ^ (e - q).toNat := Nat.mul_lt_mul_of_pos_right Nat.lt_log2_self (Nat.two_pow_pos _)
      _ = 2 ^ (Nat.log2 m + 1 + (e - q).toNat) := (Nat.pow_add ..).symm
      _ ≤ 2 ^ p := Nat.pow_le_pow_right (by decide) (by omega)
    have hcut : m * 2 ^ j = m * 2 ^ (e - q).toNat * 2 ^ (q - (e - j)).toNat := by rw [Nat.mul_assoc, ← Nat.pow_add, hd]
    rw [if_neg hlong, if_pos hshort, hcut, rneShr_mul_self, if_neg (Nat.ne_of_lt hfits)]
  · -- the same bits are dropped from both
    have hd : (q - (e - j)).toNat = (q - e).toNat + j := by omega
    rw [if_neg hlong, if_neg hshort, hd, rneShr_mul_two_pow]

/-- An FP32 value does not depend on how long its significand is written. -/
theorem toFp32Inf_mul_two_pow (neg : Bool) (m : Nat) (e : Int) (j : Nat) :
    toFp32Inf (.fin neg (m * 2 ^ j) (e - j)) = toFp32Inf (.fin neg m e) := by
  have h : NumFmt.fp32.roundMag .nearest (m * 2 ^ j) (e - j) = NumFmt.fp32.roundMag .nearest m e := by
    unfold NumFmt.roundMag
    dsimp only
    rw [quantize_mul_two_pow]
  unfold toFp32Inf
  dsimp only
  rw [h]

/-! ### Levels and codes (R102, R105) -/

/-- A multiple of the divisor has its factor as the quotient. -/
theorem divFp32_mul_self (i : Int) (m : Nat) (e : Int) (hm : 0 < m) :
    divFp32 ⟨i * m, e⟩ ⟨m, e⟩ = toFp32Inf (.fin (decide (i < 0)) i.natAbs 0) := by
  have hne : (m : Int) ≠ 0 := by omega
  have hsign : (decide (i * (m : Int) < 0) != decide ((m : Int) < 0)) = decide (i < 0) := by
    have hpos : decide ((m : Int) < 0) = false := decide_eq_false (by omega)
    rw [hpos, Bool.bne_false]
    exact decide_eq_decide.mpr (by rw [mul_neg_iff]; omega)
  have habs : (i * (m : Int)).natAbs * 2 ^ (30 + Nat.log2 m) = m * (i.natAbs * 2 ^ (30 + Nat.log2 m)) := by
    rw [Int.natAbs_mul, Int.natAbs_natCast]
    ring
  rw [← toFp32Inf_mul_two_pow (decide (i < 0)) i.natAbs 0 (30 + Nat.log2 m + 1)]
  unfold divFp32
  rw [if_neg hne]
  dsimp only
  rw [Int.natAbs_natCast, habs, Nat.mul_mod_right, if_pos rfl, Nat.mul_div_cancel_left _ hm, hsign, Nat.pow_succ]
  congr 2
  · ring
  · push_cast
    ring

/-- A level is encoded by its own code (R105): each lies between the boundaries of its code. -/
theorem kr4Encode_level (c : Nat) (hc : c < 16) (hne : c ≠ kr4Marker) :
    kr4Encode (Fv.ofDy ⟨kr4Level c, -8⟩) ⟨1, 0⟩ = ⟨c, false, false⟩ := by
  revert c
  decide

/-- What KR4 writes depends on the quotient of value and scale alone. -/
theorem kr4Encode_congr (x y s t : Dy) (hs : s.m ≠ 0) (ht : t.m ≠ 0)
    (h : divFp32 (x.scale 8) s = divFp32 (y.scale 8) t) :
    kr4Encode (Fv.ofDy x) s = kr4Encode (Fv.ofDy y) t := by
  have hsigned (i : Int) : (if decide (i < 0) = true then -(i.natAbs : Int) else i.natAbs) = i := by
    by_cases hi : i < 0
    · rw [if_pos (decide_eq_true hi)]
      omega
    · rw [if_neg (by simpa using hi)]
      omega
  have hquot : divFp32 ⟨x.m, x.e + 8⟩ s = divFp32 ⟨y.m, y.e + 8⟩ t := h
  unfold kr4Encode Fv.ofDy
  dsimp only
  rw [if_neg hs, if_neg ht, hsigned, hsigned, hquot]

/-- The factor of a value's scale is written as at scale one. -/
theorem kr4Encode_mul_scale (i : Int) (m : Nat) (e : Int) (hm : 0 < m) :
    kr4Encode (Fv.ofDy ⟨i * m, e - 8⟩) ⟨m, e⟩ = kr4Encode (Fv.ofDy ⟨i, -8⟩) ⟨1, 0⟩ := by
  have hone := divFp32_mul_self i 1 0 Nat.one_pos
  rw [Nat.cast_one, mul_one] at hone
  refine kr4Encode_congr _ _ _ _ (by simpa using Nat.ne_of_gt hm) one_ne_zero ?_
  simp only [Dy.scale, Int.sub_add_cancel]
  exact (divFp32_mul_self i m e hm).trans hone.symm

end Sys2Proof.Machine
end

section
/-! PROOFS. Packed elements (R101): formats of whole bytes lay their codes down one after another, four-bit formats two to a byte. -/

namespace Sys2Proof.Machine

/-! ### Elements of whole bytes -/

theorem ofLeBytes_leBytes (n v : Nat) (h : v < 256 ^ n) : ofLeBytes (leBytes n v) = v := by
  induction n generalizing v with
  | zero => simpa [leBytes, ofLeBytes] using (Nat.lt_one_iff.mp h).symm
  | succ n ih =>
    have hdiv : v / 256 < 256 ^ n := Nat.div_lt_of_lt_mul (by rwa [Nat.pow_succ, Nat.mul_comm] at h)
    rw [leBytes, ofLeBytes, ih _ hdiv, BitVec.toNat_ofNat]
    omega

/-- The `n` bytes from `a` on. -/
def bytesFrom (byteAt : Nat → Byte) (a n : Nat) : List Byte := (List.range n).map fun i => byteAt (a + i)

theorem bytesFrom_append_left (l r : List Byte) : bytesFrom (fun i => (l ++ r).getD i 0) 0 l.length = l := by
  refine List.ext_getElem (by simp [bytesFrom]) fun i _ hi => ?_
  simp [bytesFrom, List.getElem?_append_left hi, hi]

theorem bytesFrom_append_right (l r : List Byte) (a n : Nat) :
    bytesFrom (fun i => (l ++ r).getD i 0) (l.length + a) n = bytesFrom (fun i => r.getD i 0) a n := by
  refine List.map_congr_left fun i _ => ?_
  dsimp only
  rw [Nat.add_assoc, List.getD_append_right _ _ _ _ (Nat.le_add_right _ _), Nat.add_sub_cancel_left]

section
variable (f : NumFmt) (hf : f.bits ≠ 4)
include hf

theorem NumFmt.bits_of_bytes : f.bits = 8 ∨ f.bits = 16 ∨ f.bits = 32 := by
  revert hf
  cases f <;> decide

theorem NumFmt.bits_eq_bytes : f.bits = 8 * (f.bits / 8) := by
  have := f.bits_of_bytes hf
  omega

theorem packElems_cons_bytes (x : Nat) (xs : List Nat) :
    packElems f (x :: xs) = leBytes (f.bits / 8) x ++ packElems f xs := by
  rw [packElems.eq_def]
  dsimp only
  obtain h | h | h := f.bits_of_bytes hf <;> rw [h] <;> rfl

theorem NumFmt.elem_bytes (byteAt : Nat → Byte) (k : Nat) :
    f.elem byteAt k = ofLeBytes (bytesFrom byteAt (f.bits / 8 * k) (f.bits / 8)) := by
  unfold NumFmt.elem
  obtain h | h | h := f.bits_of_bytes hf <;> rw [h]
  · simp [bytesFrom, ofLeBytes]
  · simp [bytesFrom, List.range_succ, ofLeBytes]
  · simp [bytesFrom, List.range_succ, ofLeBytes]
    omega

theorem packElems_length_bytes (l : List Nat) : (packElems f l).length = f.bits / 8 * l.length := by
  induction l with
  | nil => rfl
  | cons x xs ih => rw [packElems_cons_bytes f hf, List.length_append, leBytes_length, ih, List.length_cons, Nat.mul_succ,
      Nat.add_comm]

theorem elem_packElems_bytes (l : List Nat) (hl : ∀ w ∈ l, w < 2 ^ f.bits) (k : Nat) (hk : k < l.length) :
    f.elem (fun i => (packElems f l).getD i 0) k = l.getD k 0 := by
  induction l generalizing k with
  | nil => cases hk
  | cons x xs ih =>
    obtain ⟨hx, hxs⟩ := List.forall_mem_cons.mp hl
    rw [f.elem_bytes hf, packElems_cons_bytes f hf]
    cases k with
    | zero =>
      have hfits : x < 256 ^ (f.bits / 8) := by rwa [f.bits_eq_bytes hf, Nat.pow_mul] at hx
      have hrun := bytesFrom_append_left (leBytes (f.bits / 8) x) (packElems f xs)
      rw [leBytes_length] at hrun
      rw [Nat.mul_zero, hrun, ofLeBytes_leBytes _ _ hfits, List.getD_cons_zero]
    | succ k =>
      have hrun := bytesFrom_append_right (leBytes (f.bits / 8) x) (packElems f xs) (f.bits / 8 * k) (f.bits / 8)
      rw [leBytes_length] at hrun
      rw [Nat.mul_succ, Nat.add_comm, hrun, ← f.elem_bytes hf, ih hxs k (Nat.lt_of_succ_lt_succ hk), List.getD_cons_succ]

end

/-! ### Elements of four bits, the low nibble first -/

section
variable (f : NumFmt) (hf : f.bits = 4)
include hf

theorem packElems_singleton_nibble (x : Nat) : packElems f [x] = [BitVec.ofNat 8 (x % 16)] := by
  simp only [packElems, hf]

theorem packElems_cons_nibbles (x y : Nat) (xs : List Nat) :
    packElems f (x :: y :: xs) = BitVec.ofNat 8 (x % 16 + 16 * (y % 16)) :: packElems f xs := by
  simp only [packElems, hf]

theorem NumFmt.elem_nibble (byteAt : Nat → Byte) (k : Nat) :
    f.elem byteAt k = if k % 2 = 0 then (byteAt (k / 2)).toNat % 16 else (byteAt (k / 2)).toNat / 16 := by
  simp only [NumFmt.elem, hf]

theorem packElems_length_nibbles (l : List Nat) : (packElems f l).length = (l.length + 1) / 2 := by
  induction l using List.twoStepInduction with
  | nil => rfl
  | singleton x => rw [packElems_singleton_nibble f hf]; simp
  | cons_cons x y xs ih =>
    rw [packElems_cons_nibbles f hf, List.length_cons, ih]
    simp only [List.length_cons]
    omega

theorem elem_packElems_nibbles (l : List Nat) (hl : ∀ w ∈ l, w < 16) (k : Nat) (hk : k < l.length) :
    f.elem (fun i => (packElems f l).getD i 0) k = l.getD k 0 := by
  induction l using List.twoStepInduction generalizing k with
  | nil => cases hk
  | singleton x =>
    obtain rfl : k = 0 := Nat.lt_one_iff.mp hk
    obtain ⟨hx, -⟩ := List.forall_mem_cons.mp hl
    rw [f.elem_nibble hf, packElems_singleton_nibble f hf, if_pos rfl, Nat.zero_div, List.getD_cons_zero,
      List.getD_cons_zero, BitVec.toNat_ofNat]
    omega
  | cons_cons x y xs ih =>
    obtain ⟨hx, hys⟩ := List.forall_mem_cons.mp hl
    obtain ⟨hy, hxs⟩ := List.forall_mem_cons.mp hys
    rw [f.elem_nibble hf, packElems_cons_nibbles f hf]
    match k with
    | 0 =>
      rw [if_pos rfl, Nat.zero_div, List.getD_cons_zero, List.getD_cons_zero, BitVec.toNat_ofNat]
      omega
    | 1 =>
      rw [if_neg (by decide), Nat.div_eq_of_lt Nat.one_lt_two, List.getD_cons_zero, List.getD_cons_succ, List.getD_cons_zero,
        BitVec.toNat_ofNat]
      omega
    | k + 2 =>
      have hrest := ih hxs k (by simpa using hk)
      rw [f.elem_nibble hf] at hrest
      simpa [Nat.add_div_right] using hrest

end

/-! ### Every format (R101) -/

theorem NumFmt.rowBytes_bytes (f : NumFmt) (hf : f.bits ≠ 4) (n : Nat) : f.rowBytes n = f.bits / 8 * n := by
  unfold NumFmt.rowBytes ceilDiv
  obtain h | h | h := f.bits_of_bytes hf <;> rw [h] <;> omega

theorem NumFmt.rowBytes_nibbles (f : NumFmt) (hf : f.bits = 4) (n : Nat) : f.rowBytes n = (n + 1) / 2 := by
  unfold NumFmt.rowBytes ceilDiv
  rw [hf]
  omega

theorem packElems_length (f : NumFmt) (l : List Nat) : (packElems f l).length = f.rowBytes l.length := by
  by_cases hf : f.bits = 4
  · rw [packElems_length_nibbles f hf, f.rowBytes_nibbles hf]
  · rw [packElems_length_bytes f hf, f.rowBytes_bytes hf]

/-- What was packed is read back, element by element. -/
theorem elem_packElems (f : NumFmt) (l : List Nat) (hl : ∀ w ∈ l, w < 2 ^ f.bits) (k : Nat) (hk : k < l.length) :
    f.elem (fun i => (packElems f l).getD i 0) k = l.getD k 0 := by
  by_cases hf : f.bits = 4
  · rw [hf] at hl
    exact elem_packElems_nibbles f hf l hl k hk
  · exact elem_packElems_bytes f hf l hl k hk

/-- Settles O13: a finite value rounds to the code it was read from, KR4 by the quotient with its scale, packing by bytes or
nibbles. -/
theorem numberFormatsKeepTheirCodes : Obligations.NumberFormatsKeepTheirCodes := by
  refine ⟨fun f w hf hw => ⟨fun hnan hzero => f.encode_decode_bits hf w hw hnan hzero, fun hnan => by rw [hnan]; rfl, ?_⟩,
    by decide, fun c m e hc hne hm => (kr4Encode_mul_scale _ m e hm).trans (kr4Encode_level c hc hne),
    fun f l hl => ⟨packElems_length f l, elem_packElems f l hl⟩⟩
  rintro rfl
  exact f.encode_decode_negZero hf

end Sys2Proof.Machine
end

section
/-! PROOFS. Releases of ring regions and bank swaps (R121, R128, R130, R147, R151): TAIL moved over committed rows, a swap's start
or refusal, and the bank map after it. -/

namespace Sys2Proof.Machine

@[simp] theorem errEvent_core (base bit : Nat) (s : State) (n : Nat) : (errEvent base bit s).core n = s.core n := by
  rw [errEvent_frame]
  rfl

/-! ### TAIL of a ring region (R129, R130) -/

/-- The region with TAIL and its wrap bit replaced. -/
def Rgn.withTail (g : Rgn) (p : Nat × Bool) : Rgn := { g with tail := p.1, tailWrap := p.2 }

theorem rgn_setTail (s : State) (n r : Nat) (p : Nat × Bool) (h : p.1 < 65536) :
    (s.setReg (R.SPD_REGION_TAIL n r) (ptrWord p)).rgn n r = (s.rgn n r).withTail p := by
  obtain ⟨htail, hwrap⟩ : wordFld (ptrWord p) F.SPD_REGION_TAIL_TAIL = p.1
      ∧ (wordFld (ptrWord p) F.SPD_REGION_TAIL_TAIL_WRAP == 1) = p.2 := ptrWord_fields p h
  have hg : R.SPD_REGION_GEOM n r ≠ R.SPD_REGION_TAIL n r := by unfold R.SPD_REGION_GEOM R.SPD_REGION_TAIL; omega
  have ho : R.SPD_REGION_OWNER n r ≠ R.SPD_REGION_TAIL n r := by unfold R.SPD_REGION_OWNER R.SPD_REGION_TAIL; omega
  have hh : R.SPD_REGION_HEAD n r ≠ R.SPD_REGION_TAIL n r := by unfold R.SPD_REGION_HEAD R.SPD_REGION_TAIL; omega
  simp only [State.rgn, State.reg_setReg_ne _ _ _ _ hg, State.reg_setReg_ne _ _ _ _ ho, State.reg_setReg_ne _ _ _ _ hh,
    State.reg_setReg_same, htail, hwrap, Rgn.withTail]

section
variable (g : Rgn) (hraw : g.raw = false) (hh : g.head < g.size) (ht : g.tail < g.size)
  (hwrap : g.head = g.tail ∨ (g.headWrap == g.tailWrap) = decide (g.tail ≤ g.head))
include hwrap

/-- HEAD is in the turn of TAIL, at or after it, or in the next one, at or before it (R129). -/
theorem Rgn.turns : (g.headWrap = g.tailWrap ∧ g.tail ≤ g.head) ∨ (g.headWrap ≠ g.tailWrap ∧ g.head ≤ g.tail) := by
  by_cases hw : g.headWrap = g.tailWrap
  · refine .inl ⟨hw, hwrap.elim (fun he => Nat.le_of_eq he.symm) fun hd => ?_⟩
    rw [beq_iff_eq.mpr hw] at hd
    exact of_decide_eq_true hd.symm
  · refine .inr ⟨hw, hwrap.elim Nat.le_of_eq fun hd => ?_⟩
    rw [beq_eq_false_iff_ne.mpr hw] at hd
    exact Nat.le_of_not_le (of_decide_eq_false hd.symm)

include hraw hh ht

/-- TAIL moved over `m` committed rows frees exactly those (R129, R130). -/
theorem committed_released (m : Nat) (hm : m ≤ g.committed) :
    (g.withTail (movePtr g.size g.tail g.tailWrap m)).committed = g.committed - m := by
  obtain ⟨hw, hle⟩ | ⟨hw, hle⟩ := g.turns hwrap
  · have hc := committed_sameTurn g hraw hw hle hh
    have hin : g.tail + m ≤ g.head := by omega
    rw [movePtr_within _ _ _ _ (by omega), committed_sameTurn (g.withTail (g.tail + m, g.tailWrap)) hraw hw hin hh, hc]
    exact (Nat.sub_sub _ _ _).symm
  · have hc := committed_nextTurn g hraw hw hle ht
    by_cases hin : g.tail + m < g.size
    · rw [movePtr_within _ _ _ _ hin,
        committed_nextTurn (g.withTail (g.tail + m, g.tailWrap)) hraw hw (Nat.le_add_right_of_le hle) hin, hc]
      exact (Nat.sub_sub _ _ _).symm
    · have hw' : g.headWrap = !g.tailWrap := Bool.eq_not.mpr hw
      have hle' : g.tail + m - g.size ≤ g.head := by omega
      rw [movePtr_turned _ _ _ _ (by omega) (by omega),
        committed_sameTurn (g.withTail (g.tail + m - g.size, !g.tailWrap)) hraw hw' hle' hh, hc]
      simp only [Rgn.withTail]
      omega

end

/-! ### SPD_RELEASE (R130, R151) -/

theorem releaseRows_none (n r k : Nat) (s : State) (h : min k (s.rgn n r).committed = 0) : releaseRows n r k s = s :=
  if_pos (.inr h)

theorem releaseRows_some (n r k : Nat) (s : State) (hraw : (s.rgn n r).raw = false) (h : min k (s.rgn n r).committed ≠ 0) :
    releaseRows n r k s = (s.setReg (R.SPD_REGION_TAIL n r) (ptrWord (movePtr (s.rgn n r).size (s.rgn n r).tail
      (s.rgn n r).tailWrap (min k (s.rgn n r).committed)))).count (Pg.spd5 n) 1 (min k (s.rgn n r).committed) :=
  if_neg (by simp only [hraw, h, Bool.false_eq_true, or_self, not_false_eq_true])

/-- No register but TAIL of the region and no counter but that of released rows differs. -/
theorem releaseRows_only (n r k : Nat) (s : State) :
    OnlyRegsCnt [R.SPD_REGION_TAIL n r] [cntKey (Pg.spd5 n) 1] s (releaseRows n r k s) := by
  unfold releaseRows
  dsimp only
  split
  · exact ⟨rfl, fun _ _ => rfl, fun _ _ => rfl⟩
  · exact ⟨rfl, fun a ha => State.reg_setReg_ne _ _ _ _ (by simpa using ha),
      fun c hc => State.counter_count_ne _ _ _ _ _ (by simpa using hc)⟩

/-- The registers of a release: region and rows (R151). -/
def releaseReg : RegDef := ⟨0x600, 1, 0x0, 1, 0x0, .ctl, [⟨5, 0, .wo, 0, 0, []⟩, ⟨31, 16, .wo, 0, 0, []⟩]⟩

/-- A permitted write of SPD_RELEASE releases the rows that it names (R151). -/
theorem exec_spdRelease (s : State) (iid : Fin 24) (n : Fin 18) (val : Word) (h : s.Admits iid (R.SPD_RELEASE n) .spd5 n) :
    exec (.spdRelease iid n val) s
      = .next (releaseRows n (wordFld val F.SPD_RELEASE_REGION) (wordFld val F.SPD_RELEASE_ROWS) s) := by
  have hoff : R.SPD_RELEASE n % 4096 = 0x600 := by unfold R.SPD_RELEASE Pg.spd5; omega
  have hpage : R.SPD_RELEASE n / 4096 = 0x105 + 16 * n := by unfold R.SPD_RELEASE Pg.spd5; omega
  have hbase : R.SPD_RELEASE n - R.SPD_RELEASE n % 4096 = Pg.spd5 n := by rw [hoff]; unfold R.SPD_RELEASE; omega
  have hf : findReg (R.SPD_RELEASE n % 4096) (regsOf .spd5) = some (releaseReg, 0, 0) := by rw [hoff]; decide
  have hneeds : ∀ n : Fin 18, needsOutcome (R.SPD_RELEASE n) = false := by decide
  have hplain : PlainFields (R.SPD_RELEASE n) releaseReg.flds :=
    plainFields_of _ _ (by decide) (by rw [hpage]; unfold Pg.brz1; omega) (by rw [hpage]; omega)
  have hr : wordFld val F.SPD_RELEASE_REGION < 64 := wordFld_lt val F.SPD_RELEASE_REGION
  obtain ⟨-, hreg, -⟩ := releaseRows_only n (wordFld val F.SPD_RELEASE_REGION) (wordFld val F.SPD_RELEASE_ROWS) s
  have hquiet := hreg (Pg.spd5 n + Hdr.errStat) (by
    rw [List.mem_singleton]
    unfold R.SPD_REGION_TAIL Hdr.errStat
    omega)
  show Host.Outcome.next (wordWrite iid (R.SPD_RELEASE n) val s) = _
  rw [busWrite_command iid _ val s .spd5 n releaseReg 0 0 h (hneeds n) (by rw [hoff]; decide) hf (by rw [hoff]; decide) hplain
    (by decide) (by simp [commandOk, releaseReg, FldDef.ok]), hoff]
  exact congrArg _ (attributeErr_quiet _ _ _ _ (by rw [hbase]; exact hquiet))

/-- What a release leaves of its region, and what it counts (R130, R151). -/
theorem releaseRows_frees (n r k : Nat) (s : State) (hraw : (s.rgn n r).raw = false) (hh : (s.rgn n r).head < (s.rgn n r).size)
    (ht : (s.rgn n r).tail < (s.rgn n r).size)
    (hwrap : (s.rgn n r).head = (s.rgn n r).tail
      ∨ ((s.rgn n r).headWrap == (s.rgn n r).tailWrap) = decide ((s.rgn n r).tail ≤ (s.rgn n r).head)) :
    let g := s.rgn n r
    let m := min k g.committed
    let t := releaseRows n r k s
    (t.rgn n r).committed = g.committed - m ∧ (t.rgn n r).head = g.head ∧ (t.rgn n r).headWrap = g.headWrap
      ∧ t.counter (cntKey (Pg.spd5 n) 1) = if m = 0 then s.counter (cntKey (Pg.spd5 n) 1)
          else (s.counter (cntKey (Pg.spd5 n) 1) + m) % 2 ^ 64 := by
  intro g m t
  by_cases hm : m = 0
  · have ht : t = s := releaseRows_none n r k s hm
    rw [ht, if_pos hm, hm]
    exact ⟨rfl, rfl, rfl, rfl⟩
  · have ht' : t = _ := releaseRows_some n r k s hraw hm
    have hlt : (movePtr g.size g.tail g.tailWrap m).1 < 65536 := by
      have hpos : 0 < g.size := Nat.lt_of_le_of_lt (Nat.zero_le _) hh
      rw [movePtr, if_neg (Nat.ne_of_gt hpos)]
      exact Nat.lt_trans (Nat.mod_lt _ hpos) (rgn_size_lt s n r)
    have hrgn : t.rgn n r = g.withTail (movePtr g.size g.tail g.tailWrap m) := by
      rw [ht', ← rgn_setTail s n r _ hlt]
      exact rgn_of_regs rfl n r
    rw [hrgn, if_neg hm, committed_released g hraw hh ht hwrap m (Nat.min_le_right _ _)]
    exact ⟨rfl, rfl, rfl, by rw [ht']; exact State.counter_count_same _ _ _ _⟩

/-! ### SPD_BANK_SWAP (R128, R147) -/

/-- The fields of SPD_BANK_SWAP (R147). -/
def bankSwapReg : RegDef := ⟨0x104, 1, 0x0, 1, 0x0, .any, [⟨6, 0, .wo, 0, 0, [(0, 95)]⟩, ⟨31, 31, .wo, 0, 0, []⟩]⟩

/-- A permitted write of SPD_BANK_SWAP with GO is the start of a swap of its logical bank (R147). -/
theorem wordWrite_spdBankSwap (s : State) (iid : Fin 24) (n : Fin 18) (val : Word) (h : s.Admits iid (R.SPD_BANK_SWAP n) .spd3 n)
    (hb : wordFld val F.SPD_BANK_SWAP_LOGICAL ≤ 95) :
    wordWrite iid (R.SPD_BANK_SWAP n) (wordSet val F.SPD_BANK_SWAP_GO 1) s
      = attributeErr iid (R.SPD_BANK_SWAP n) s (bankSwapGo n (wordFld val F.SPD_BANK_SWAP_LOGICAL) s) := by
  have hoff : R.SPD_BANK_SWAP n % 4096 = 0x104 := by unfold R.SPD_BANK_SWAP Pg.spd3; omega
  have hpage : R.SPD_BANK_SWAP n / 4096 = 0x103 + 16 * n := by unfold R.SPD_BANK_SWAP Pg.spd3; omega
  have hf : findReg (R.SPD_BANK_SWAP n % 4096) (regsOf .spd3) = some (bankSwapReg, 0, 0) := by rw [hoff]; decide
  have hneeds : ∀ n : Fin 18, needsOutcome (R.SPD_BANK_SWAP n) = false := by decide
  have hplain : PlainFields (R.SPD_BANK_SWAP n) bankSwapReg.flds :=
    plainFields_of _ _ (by decide) (by rw [hpage]; unfold Pg.brz1; omega) (by rw [hpage]; omega)
  have hgo : wordFld (wordSet val F.SPD_BANK_SWAP_GO 1) F.SPD_BANK_SWAP_GO = 1 := wordFld_wordSet _ _ _ (by decide)
  have hlogical : wordFld (wordSet val F.SPD_BANK_SWAP_GO 1) F.SPD_BANK_SWAP_LOGICAL = wordFld val F.SPD_BANK_SWAP_LOGICAL :=
    wordFld_wordSet_ne _ _ _ _ (by decide) (by decide)
  have hok : commandOk bankSwapReg.flds 0xFFFFFFFF#32 (wordSet val F.SPD_BANK_SWAP_GO 1) = true := by
    have hle : bitsOf (wordSet val F.SPD_BANK_SWAP_GO 1).toNat 6 0 ≤ 95 := hlogical.trans_le hb
    simp [commandOk, bankSwapReg, and_full, FldDef.ok, hle]
  have heffect : writeEffect ⟨false, false, false⟩ iid .spd3 n 0x104 0xFFFFFFFF#32 (wordSet val F.SPD_BANK_SWAP_GO 1) s s
      = bankSwapGo n (wordFld val F.SPD_BANK_SWAP_LOGICAL) s := by
    show (if (0x104 : Nat) = 0x104 then spdBankSwap n (wordSet val F.SPD_BANK_SWAP_GO 1) s else s) = _
    rw [if_pos rfl, spdBankSwap, if_pos hgo, hlogical]
  rw [busWrite_command iid _ _ s .spd3 n bankSwapReg 0 0 h (hneeds n) (by rw [hoff]; decide) hf (by rw [hoff]; decide) hplain
    (by decide) hok, hoff, heffect]

section
variable (n b : Nat) (s : State)

/-- Whether a swap can start on command: a drained core with no swap under way and a spare (R147). -/
def bankReady (n : Nat) (s : State) : Bool := s.drainedCore n && (s.core n).bankSwap.isNone && (s.freeBank n).isSome

theorem bankSwapGo_starts (h : bankReady n s = true) (q : Nat) (hq : s.freeBank n = some q) :
    bankSwapGo n b s = s.setCore n { s.core n with bankSwap := some ⟨b, q⟩ } := by
  obtain ⟨⟨hd, hs⟩, -⟩ : (s.drainedCore n = true ∧ (s.core n).bankSwap.isNone = true) ∧ (s.freeBank n).isSome = true := by
    simpa only [bankReady, Bool.and_eq_true] using h
  rw [bankSwapGo, if_neg (by simp [hd, Option.isNone_iff_eq_none.mp hs]), hq]
  rfl

theorem bankSwapGo_refused (h : bankReady n s = false) : bankSwapGo n b s = errEvent (Pg.spd3 n) E.spd3_SWAP_REFUSED s := by
  unfold bankSwapGo
  split
  · rfl
  · next hc =>
    cases hf : s.freeBank n with
    | none => rfl
    | some q =>
      refine absurd h ?_
      rw [not_or, Bool.not_eq_true, Bool.not_eq_true, Bool.not_eq_false'] at hc
      simp [bankReady, hc.1, hf, ← Option.not_isSome, hc.2]

end

/-! ### A bank that is due (R128) -/

section
variable (s : State) (n p : Nat) (ps : List Nat) (l : Nat) (hres : s.recs.reserve = true) (hb : s.busy n = false)
  (hon : s.domOn n = true) (hsw : (s.core n).bankSwap = none) (hdue : (s.core n).bankDue = p :: ps) (hl : s.logicalOf n p = some l)
include hres hb hon hsw hdue hl

theorem bankSwap_takes (q : Nat) (hq : s.freeBank n = some q) :
    bankSwap n s = s.setCore n { s.core n with bankDue := ps, bankSwap := some ⟨l, q⟩ } := by
  unfold bankSwap
  rw [if_neg (by simp [hres, hb, hon, hsw])]
  dsimp only
  rw [hdue]
  dsimp only
  rw [hl]
  dsimp only
  rw [hq]
  dsimp only
  rw [State.modCore, State.core_modCore_same]
  simp only [State.modCore, State.setCore, Tab.set_set]

theorem bankSwap_exhausted (hq : s.freeBank n = none) :
    bankSwap n s = (errEvent (Pg.spd3 n) E.spd3_BANK_SPARE_EXHAUSTED
      (s.modCore n (fun c => { c with bankDue := ps }))).modCore n (fun c => { c with retireWhy := 2 }) := by
  unfold bankSwap
  rw [if_neg (by simp [hres, hb, hon, hsw])]
  dsimp only
  rw [hdue]
  dsimp only
  rw [hl]
  dsimp only
  rw [hq]

end

/-- An event of a core's scratchpad page leaves its bank map. -/
theorem errEvent_bankMap (n k bit : Nat) (s : State) :
    (errEvent (Pg.spd3 n) bit s).reg (R.SPD_BANK_MAP n k) = s.reg (R.SPD_BANK_MAP n k) :=
  errEvent_reg_ne _ _ _ _ (by unfold R.SPD_BANK_MAP Hdr.errStat; omega) (by unfold R.SPD_BANK_MAP Hdr.errFirst; omega)

/-! ### The end of a swap (R121, R128) -/

/-- What settling can touch of a core that waits for nothing: its status words, and the drained boundary it may reach (R81). -/
theorem settleCore_idle (n : Nat) (s : State) (hw : (s.core n).wait = .none) :
    settleCore n s = coreStatus n s
      ∨ settleCore n s = coreStatus n ((s.modCore n (fun c => { c with wait := .none })).setSeqState n Seq.drained) := by
  unfold settleCore
  split
  · exact .inl rfl
  · dsimp only
    split
    · next m x hm _ => cases hw.symm.trans hm
    · next hm => cases hw.symm.trans hm
    · exact (ite_eq_or_eq _ _ _).symm

theorem settleCore_idle_keeps (n : Nat) (s : State) (hw : (s.core n).wait = .none) :
    (∀ a, a ≠ R.ARR_STATUS n → a ≠ R.SEQ_STATUS n → (settleCore n s).reg a = s.reg a)
      ∧ ((settleCore n s).core n).bankSwap = (s.core n).bankSwap ∧ (settleCore n s).spad = s.spad := by
  obtain h | h := settleCore_idle n s hw
  · rw [h]
    exact ⟨fun a h1 h2 => coreStatus_reg_ne n s h1 h2, rfl, rfl⟩
  · rw [h]
    refine ⟨fun a h1 h2 => ?_, ?_, rfl⟩
    · rw [coreStatus_reg_ne n _ h1 h2, State.setSeqState, State.reg_setFld_ne _ _ _ _ _ h2, State.modCore_reg]
    · rw [coreStatus_core, setSeqState_core, State.core_modCore_same]

/-- A swap's end shown in the bank map, the core's record and REL_CORE, before it is logged and the core settles (R128). -/
def bankMapped (n : Nat) (w : BankSwapRun) (s : State) : State :=
  let p := s.fld (R.SPD_BANK_MAP n w.logical) F.SPD_BANK_MAP_PHYS
  let s4 := errEvent (Pg.spd3 n) E.spd3_BANK_SWAP_DONE
    (((s.setFld (R.SPD_BANK_MAP n w.logical) F.SPD_BANK_MAP_PHYS w.phys).modCore n (fun c =>
      { c with bankSwap := none, bankGone := c.bankGone ++ [p], bankDue := c.bankDue.filter (fun q => q != p) })).count
      (Pg.spd3 n) 3 1)
  s4.setFld (R.REL_CORE n) F.REL_CORE_BANKS_FREE (s4.fld (R.REL_CORE n) F.REL_CORE_BANKS_FREE - 1)

section
variable (n : Nat) (w : BankSwapRun) (s : State)

theorem bankSwapDone_clean (h : (s.core n).bankSwap = some w) :
    bankSwapDone n [] s = settleCore n (relSpare LogKind.bank n (s.fld (R.SPD_BANK_MAP n w.logical) F.SPD_BANK_MAP_PHYS)
      (s.fld (R.SPD_BANK_MAP n w.logical) F.SPD_BANK_MAP_PHYS + w.phys * 2 ^ 32) (bankMapped n w s)) := by
  unfold bankSwapDone
  rw [h]
  rfl

theorem bankMap_page {k : Nat} (hk : k < 96) : R.SPD_BANK_MAP n k / 4096 = 0x103 + 16 * n := by
  unfold R.SPD_BANK_MAP Pg.spd3
  omega

theorem bankMap_ne_relCore {k : Nat} (hk : k < 96) (hn : n < 18) : R.SPD_BANK_MAP n k ≠ R.REL_CORE n := fun e => by
  have hpage := bankMap_page n hk
  rw [e, relCore_page n hn] at hpage
  omega

theorem bankMap_ne_status {k : Nat} (hk : k < 96) : R.SPD_BANK_MAP n k ≠ R.ARR_STATUS n ∧ R.SPD_BANK_MAP n k ≠ R.SEQ_STATUS n := by
  unfold R.SPD_BANK_MAP R.ARR_STATUS R.SEQ_STATUS Pg.spd3 Pg.arr0 Pg.seq
  omega

theorem bankMapped_map {k : Nat} (hk : k < 96) (hn : n < 18) : (bankMapped n w s).reg (R.SPD_BANK_MAP n k)
    = (s.setFld (R.SPD_BANK_MAP n w.logical) F.SPD_BANK_MAP_PHYS w.phys).reg (R.SPD_BANK_MAP n k) := by
  rw [bankMapped, State.reg_setFld_ne _ _ _ _ _ (bankMap_ne_relCore n hk hn), errEvent_bankMap, State.count_reg, State.modCore_reg]

theorem bankMapped_free (hn : n < 18) (hl : w.logical < 96) : (bankMapped n w s).fld (R.REL_CORE n) F.REL_CORE_BANKS_FREE
    = s.fld (R.REL_CORE n) F.REL_CORE_BANKS_FREE - 1 := by
  have hhdr : ∀ o, o < 0x100 → R.REL_CORE n ≠ Pg.spd3 n + o := fun o ho => by
    unfold R.REL_CORE Pg.rel1 Pg.spd3
    omega
  have hlt : s.fld (R.REL_CORE n) F.REL_CORE_BANKS_FREE < 8 := wordFld_lt _ F.REL_CORE_BANKS_FREE
  rw [bankMapped, State.fld_setFld_same _ _ _ _ (by decide), errEvent_fld_ne _ _ _ _ _ (hhdr _ (by decide)) (hhdr _ (by decide)),
    State.count_fld, State.modCore_fld, State.fld_setFld_ne _ _ _ _ _ _ (bankMap_ne_relCore n hl hn).symm]
  exact Nat.mod_eq_of_lt (Nat.lt_of_le_of_lt (Nat.sub_le _ _) hlt)

theorem bankMapped_core : ((bankMapped n w s).core n).bankSwap = none ∧ ((bankMapped n w s).core n).wait = (s.core n).wait := by
  rw [bankMapped, State.setFld_core, errEvent_core, State.count_core, State.core_modCore_same]
  exact ⟨rfl, rfl⟩

theorem bankMapped_spad : (bankMapped n w s).spad = s.spad := by
  rw [bankMapped, State.setFld_spad, errEvent_frame, State.count_spad, State.modCore_spad, State.setFld_spad]

end

/-- What the end of a swap leaves (R121, R128). -/
theorem bankSwapDone_maps (n : Fin 18) (w : BankSwapRun) (s : State) (h : (s.core n).bankSwap = some w) (hl : w.logical < 96)
    (hp : w.phys < 100) (hwait : (s.core n).wait = .none) :
    let t := bankSwapDone n [] s
    t.fld (R.SPD_BANK_MAP n w.logical) F.SPD_BANK_MAP_PHYS = w.phys
      ∧ (∀ k, k < 96 → k ≠ w.logical → t.reg (R.SPD_BANK_MAP n k) = s.reg (R.SPD_BANK_MAP n k))
      ∧ t.fld (R.REL_CORE n) F.REL_CORE_BANKS_FREE = s.fld (R.REL_CORE n) F.REL_CORE_BANKS_FREE - 1
      ∧ (t.core n).bankSwap = none ∧ t.spad = s.spad := by
  have ht := bankSwapDone_clean n w s h
  generalize hp0 : s.fld (R.SPD_BANK_MAP n w.logical) F.SPD_BANK_MAP_PHYS = p at ht
  have hlog := relSpare_logOnly n (bankMapped n w s) LogKind.bank p (p + w.phys * 2 ^ 32)
  have hrel := relSpare_reg n (bankMapped n w s) LogKind.bank p (p + w.phys * 2 ^ 32)
  generalize relSpare LogKind.bank n p (p + w.phys * 2 ^ 32) (bankMapped n w s) = u at ht hlog hrel
  obtain ⟨hnone, hkept⟩ := bankMapped_core n w s
  have hcore : u.core n = (bankMapped n w s).core n := by rw [State.core, hlog.cores, State.core]
  obtain ⟨hreg, hsw, hspad⟩ := settleCore_idle_keeps n u (by rw [hcore, hkept, hwait])
  have hmap : ∀ k, k < 96 → (bankSwapDone n [] s).reg (R.SPD_BANK_MAP n k)
      = (s.setFld (R.SPD_BANK_MAP n w.logical) F.SPD_BANK_MAP_PHYS w.phys).reg (R.SPD_BANK_MAP n k) := fun k hk => by
    have hpage := bankMap_page n hk
    rw [ht, hreg _ (bankMap_ne_status n hk).1 (bankMap_ne_status n hk).2,
      hrel _ (by rw [hpage]; unfold Pg.rel0; omega) (by rw [hpage]; unfold Pg.rel2; omega), bankMapped_map n w s hk n.isLt]
  have hfree : (bankSwapDone n [] s).reg (R.REL_CORE n) = (bankMapped n w s).reg (R.REL_CORE n) := by
    have hpage := relCore_page n n.isLt
    rw [ht, hreg _ (relCore_ne n.isLt).1 (relCore_ne n.isLt).2, hrel _ (by rw [hpage]; decide) (by rw [hpage]; decide)]
  intro t
  refine ⟨?_, fun k hk hne => ?_, ?_, ?_, ?_⟩
  · rw [fld_of_reg (hmap _ hl), State.fld_setFld_same _ _ _ _ (by decide)]
    exact Nat.mod_eq_of_lt (Nat.lt_trans hp (by decide))
  · exact (hmap k hk).trans (State.reg_setFld_ne _ _ _ _ _ (by unfold R.SPD_BANK_MAP; omega))
  · rw [fld_of_reg hfree, bankMapped_free n w s n.isLt hl]
  · show ((bankSwapDone n [] s).core n).bankSwap = none
    rw [ht, hsw, hcore, hnone]
  · show (bankSwapDone n [] s).spad = s.spad
    rw [ht, hspad, hlog.spad, bankMapped_spad]

/-- Settles O19: a release by the turn of HEAD, a bank swap by its command, its due bank and its end. -/
theorem releasesAndBankSwaps : Obligations.ReleasesAndBankSwaps := by
  unfold Obligations.ReleasesAndBankSwaps
  constructor
  · intro s iid n val h r g m hraw hh ht hwrap
    obtain ⟨hcom, hhead, hwr, hcnt⟩ := releaseRows_frees n r (wordFld val F.SPD_RELEASE_ROWS) s hraw hh ht hwrap
    exact ⟨_, exec_spdRelease s iid n val h, hcom, hhead, hwr, hcnt, releaseRows_only n r _ s⟩
  intro s iid n val b go
  refine ⟨fun h hb hgo q hq => ?_, fun h hb hgo => ?_,
    fun p ps l hres hbusy hon hsw hdue hl => ⟨fun q hq => ?_, fun hq => ?_⟩, fun w h hl hp _ hwait => ?_⟩
  · show Host.Outcome.next (wordWrite iid (R.SPD_BANK_SWAP n) _ s) = _
    rw [wordWrite_spdBankSwap s iid n val h hb, bankSwapGo_starts n _ s hgo q hq]
    exact congrArg _ (attributeErr_quiet _ _ _ _ rfl)
  · have hoff : R.SPD_BANK_SWAP n % 4096 = 0x104 := by unfold R.SPD_BANK_SWAP Pg.spd3; omega
    have hbase : R.SPD_BANK_SWAP n - R.SPD_BANK_SWAP n % 4096 = Pg.spd3 n := by rw [hoff]; unfold R.SPD_BANK_SWAP; omega
    have herr := attributeErr_errEvent iid (R.SPD_BANK_SWAP n) E.spd3_SWAP_REFUSED s (by decide) (by omega)
    rw [hbase, hoff] at herr
    show Host.Outcome.next (wordWrite iid (R.SPD_BANK_SWAP n) _ s) = _
    rw [wordWrite_spdBankSwap s iid n val h hb, bankSwapGo_refused n _ s hgo, herr]
  · exact congrArg Host.Outcome.next (bankSwap_takes s n p ps l hres hbusy hon hsw hdue hl q hq)
  · refine ⟨_, congrArg Host.Outcome.next (bankSwap_exhausted s n p ps l hres hbusy hon hsw hdue hl hq), ?_, fun k _ => ?_⟩
    · rw [State.modCore_reg]
      exact errEvent_sets _ _ _ (by decide)
    · rw [State.modCore_reg, errEvent_bankMap, State.modCore_reg]
  · exact ⟨_, rfl, bankSwapDone_maps n w s h hl hp hwait⟩

end Sys2Proof.Machine
end

section
/-! PROOFS. Core DMA channels (R138, R140, R149): a channel's record and its status word, and the start of the oldest descriptor,
whose tag the word loses where more than the queue's eight descriptors wait. -/

namespace Sys2Proof.Machine

/-! ### Channel records -/

section
variable (c : Core) (k : Nat) (h : Chan)

theorem Core.chan_setChan_same : (c.setChan k h).chan k = h := by
  match k with
  | 0 | 1 | 2 | _ + 3 => rfl

end

section
variable (s : State) (n k : Nat) (h : Chan)

theorem State.core_setChan : (s.setChan n k h).core n = (s.core n).setChan k h := State.core_modCore_same s n _

theorem State.chan_setChan_same : (s.setChan n k h).chan n k = h := by
  rw [State.chan, State.core_setChan, Core.chan_setChan_same]

end

theorem chan_of_core {s t : State} {n : Nat} (h : t.core n = s.core n) (k : Nat) : t.chan n k = s.chan n k := by
  rw [State.chan, h, State.chan]

/-! ### The status word of a channel (R149) -/

section
variable (s : State) (n k cause : Nat)

theorem dmaStatus_page (hk : k < 4) : R.SPD_DMA_STATUS n k / 4096 = Pg.spd4 n / 4096 := by
  unfold R.SPD_DMA_STATUS Pg.spd4
  omega

theorem dmaRows_page (hk : k < 4) : R.SPD_DMA_ROWS n k / 4096 = Pg.spd4 n / 4096 := by
  unfold R.SPD_DMA_ROWS Pg.spd4
  omega

theorem dmaStatus_ne_dmaRows : R.SPD_DMA_STATUS n k ≠ R.SPD_DMA_ROWS n k := by
  unfold R.SPD_DMA_STATUS R.SPD_DMA_ROWS
  omega

theorem chanStatus_reg_ne {a : Nat} (h1 : a ≠ R.SPD_DMA_STATUS n k) (h2 : a ≠ R.SPD_DMA_ROWS n k) :
    (chanStatus n k cause s).reg a = s.reg a := by
  rw [chanStatus, State.reg_setReg_ne _ _ _ _ h2, State.reg_setReg_ne _ _ _ _ h1]

/-- The status words of a channel lie on its core's DMA page. -/
theorem chanStatus_reg_page (hk : k < 4) {a : Nat} (h : a / 4096 ≠ Pg.spd4 n / 4096) :
    (chanStatus n k cause s).reg a = s.reg a :=
  chanStatus_reg_ne s n k cause (fun e => h (e ▸ dmaStatus_page n k hk)) (fun e => h (e ▸ dmaRows_page n k hk))

theorem chanStatus_chan (m j : Nat) : (chanStatus n k cause s).chan m j = s.chan m j := rfl

/-- The status word of a running channel that does not wait. -/
theorem chanStatus_running (t : DmaDesc) (hcur : (s.chan n k).cur = some t) :
    (chanStatus n k 0 s).reg (R.SPD_DMA_STATUS n k)
      = BitVec.ofNat 32 (1 + 4 * (s.chan n k).queue.length + 256 * 0 + 65536 * Op.tag t.desc) := by
  rw [chanStatus, State.reg_setReg_ne _ _ _ _ (dmaStatus_ne_dmaRows n k), State.reg_setReg_same, hcur]
  rfl

end

theorem pumpSwaps_none (s : State) (h : s.swapReqs = []) : pumpSwaps s = s := by
  rw [pumpSwaps, h]
  rfl

/-! ### Channel start (R138, R140) -/

/-- A channel whose oldest descriptor has left its queue (R138). -/
def dequeued (n c : Nat) (ts : List DmaDesc) (s : State) : State :=
  chanStatus n c 0 (s.setChan n c { s.chan n c with queue := ts })

/-- A channel on which a descriptor runs that has moved nothing yet (R138). -/
def started (n c : Nat) (t : DmaDesc) (ts : List DmaDesc) (s : State) : State :=
  chanStatus n c 0 ((dequeued n c ts s).setChan n c { queue := ts, cur := some t, src := startSrc (dequeued n c ts s) n t })

/-- Rows of a transfer that does not fill a region from this core's own data move by their DA accesses alone (R141). -/
theorem moveRows_da (n c k : Nat) (s : State) (t : DmaDesc) (hcur : (s.chan n c).cur = some t)
    (h : t.fills = false ∨ (Dma.dir t.desc = 0 ∧ t.kind = .dma)) : moveRows n c k s = s := by
  cases k with
  | zero => rfl
  | succ k =>
    rw [moveRows]
    dsimp only
    rw [hcur]
    refine if_pos ?_
    obtain h | h := h <;> simp [h]

section
variable (s : State) (n c : Nat) (t : DmaDesc) (ts : List DmaDesc)
  (hcur : (s.chan n c).cur = none) (hq : (s.chan n c).queue = t :: ts)

section
variable (hon : s.domOn n = true) (hheld : s.flag (R.SPD_DMA_CTRL n c) F.SPD_DMA_CTRL_HOLD = false)
include hcur hq hon hheld

/-- A DA transfer that passes its checks runs, with its rows still to be requested (R138, R141). -/
theorem channelStart_runs (h : (descChk (dequeued n c ts s) n c t).faults = []) (hk : t.kind = .dma)
    (hdir : Dma.dir t.desc = 0 ∨ Dma.dir t.desc = 1 ∨ Dma.dir t.desc = 3) :
    channelStart n c none false s = started n c t ts s := by
  have hrun : ((started n c t ts s).chan n c).cur = some t := by rw [started, chanStatus_chan, State.chan_setChan_same]
  have hfills : t.fills = false ∨ (Dma.dir t.desc = 0 ∧ t.kind = .dma) := by
    obtain h0 | h1 | h3 := hdir
    · exact .inr ⟨h0, hk⟩
    · exact .inl (by simp [DmaDesc.fills, hk, h1])
    · exact .inl (by simp [DmaDesc.fills, hk, h3])
  have hmove := moveRows_da n c (t.total + 1) _ t hrun hfills
  unfold dequeued at h
  unfold channelStart
  dsimp only
  split
  · next u us _ hu =>
    rw [hq, List.cons.injEq] at hu
    obtain ⟨rfl, rfl⟩ := hu
    rw [hheld, hon, if_neg (by decide), if_neg (by decide), h]
    dsimp only
    rw [if_neg (by simp [hk])]
    exact hmove
  · next hne => exact absurd hq (hne t ts hcur)

end

/-- The status word of a started channel. -/
theorem started_status : (started n c t ts s).reg (R.SPD_DMA_STATUS n c)
    = BitVec.ofNat 32 (1 + 4 * ts.length + 256 * 0 + 65536 * Op.tag t.desc) := by
  rw [started, chanStatus_running _ n c t (by rw [State.chan_setChan_same]), State.chan_setChan_same]

end

/-! ### A queue beyond its eight descriptors (R138) -/

/-- A transfer of one row from DA 0 to slot 0 of the instruction memory, with tag 0 (R139, R143). -/
def imemLoad : DmaDesc := ⟨.dma, [10, 0, 3, 0, 0, 0, 1, 0, 0, 0, 0, 0, 0, 0, 0, 0], 0, false, none⟩

/-- A part whose core 0 is on, with 16,385 transfers in the queue of its channel 0. -/
def overfull : State :=
  ((State.reset.setReg (R.PWR_DOM_STATUS 0) 2).setFld R.CLK_STATUS F.CLK_STATUS_PLL_LOCK 1).setChan 0 0
    { queue := imemLoad :: List.replicate 16384 imemLoad }

/-- The checks of a transfer to the instruction memory read its descriptor alone (R140). -/
theorem imemLoad_passes (s : State) : (descChk s 0 0 imemLoad).faults = [] := rfl

theorem overfull_chan : overfull.chan 0 0 = { queue := imemLoad :: List.replicate 16384 imemLoad } := State.chan_setChan_same _ _ _ _

theorem overfull_on : overfull.domOn 0 = true := by
  have h : ((State.reset.setReg (R.PWR_DOM_STATUS 0) 2).setFld R.CLK_STATUS F.CLK_STATUS_PLL_LOCK 1).domOn 0 = true := by decide
  exact h

theorem overfull_free : overfull.flag (R.SPD_DMA_CTRL 0 0) F.SPD_DMA_CTRL_HOLD = false := by
  have h : ((State.reset.setReg (R.PWR_DOM_STATUS 0) 2).setFld R.CLK_STATUS F.CLK_STATUS_PLL_LOCK 1).flag (R.SPD_DMA_CTRL 0 0)
      F.SPD_DMA_CTRL_HOLD = false := by decide
  exact h

theorem overfull_starts : exec (.channelStart 0 0 none false) overfull
    = .next (started 0 0 imemLoad (List.replicate 16384 imemLoad) overfull) := by
  have hrun := channelStart_runs overfull 0 0 imemLoad (List.replicate 16384 imemLoad) (by rw [overfull_chan]) (by rw [overfull_chan])
    overfull_on overfull_free (imemLoad_passes _) rfl (.inr (.inr rfl))
  show Host.Outcome.next (pumpSwaps (channelStart 0 0 none false (pumpSwaps overfull))) = _
  rw [pumpSwaps_none overfull rfl, hrun, pumpSwaps_none _ rfl]

/-- The count of 16,384 waiting descriptors carries into OP_TAG, which then shows 1 for a descriptor of tag 0. -/
theorem overfull_opTag : (started 0 0 imemLoad (List.replicate 16384 imemLoad) overfull).fld (R.SPD_DMA_STATUS 0 0)
    F.SPD_DMA_STATUS_OP_TAG = 1 := by
  rw [State.fld, started_status, List.length_replicate]
  decide

/-- Refutes O17: nothing bounds the queue that a channel starts from, and with 16,384 descriptors left in it the status word
shows another tag than that of the descriptor that runs. -/
theorem not_transfersPostAndStart : ¬ Obligations.TransfersPostAndStart := by
  unfold Obligations.TransfersPostAndStart
  rintro ⟨-, hstart⟩
  obtain ⟨-, -, hruns⟩ := hstart overfull 0 0 imemLoad (List.replicate 16384 imemLoad) rfl
    (congrArg Chan.cur overfull_chan) (congrArg Chan.queue overfull_chan) overfull_on
  obtain ⟨u, hu, -, -, -, -, htag, -⟩ := hruns overfull_free (imemLoad_passes _) rfl (.inr (.inr rfl))
  rw [overfull_starts] at hu
  cases hu
  exact absurd (overfull_opTag.symm.trans htag) (by decide)

end Sys2Proof.Machine
end

section
/-! PROOFS. Fills that waited for room, HOLD and SPD_DMA_SUBMIT (R130, R142, R143, R149): the last row of a fill lands and its
channel is free; firmware's descriptors join a channel's queue or are dropped. -/

namespace Sys2Proof.Machine

/-! ### What a DMA page does not touch (R129, R132) -/

/-- No register outside the DMA page of core `n` differs. -/
def DmaPageOnly (n : Nat) (s t : State) : Prop := ∀ a, a / 4096 ≠ Pg.spd4 n / 4096 → t.reg a = s.reg a

theorem anyBelow_congr (n : Nat) (p q : Nat → Bool) (h : ∀ k, k < n → p k = q k) : anyBelow n p = anyBelow n q := by
  induction n with
  | zero => rfl
  | succ n ih => rw [anyBelow, anyBelow, ih fun k hk => h k (Nat.lt_succ_of_lt hk), h n (Nat.lt_succ_self n)]

section
variable {n : Nat} {s t : State} (h : DmaPageOnly n s t)
include h

theorem DmaPageOnly.rgn_eq {r : Nat} (hr : r < 64) : t.rgn n r = s.rgn n r := by
  have hg : t.reg (R.SPD_REGION_GEOM n r) = s.reg _ := h _ (by unfold R.SPD_REGION_GEOM Pg.spd5 Pg.spd4; omega)
  have ho : t.reg (R.SPD_REGION_OWNER n r) = s.reg _ := h _ (by unfold R.SPD_REGION_OWNER Pg.spd5 Pg.spd4; omega)
  have hh : t.reg (R.SPD_REGION_HEAD n r) = s.reg _ := h _ (by unfold R.SPD_REGION_HEAD Pg.spd5 Pg.spd4; omega)
  have ht : t.reg (R.SPD_REGION_TAIL n r) = s.reg _ := h _ (by unfold R.SPD_REGION_TAIL Pg.spd5 Pg.spd4; omega)
  simp only [State.rgn, hg, ho, hh, ht]

/-- The checks of an access to a region read no DMA page. -/
theorem DmaPageOnly.accessOk_eq {r : Nat} (hr : r < 64) (x : Nat) (w : Option Writer) :
    t.accessOk n x r w = s.accessOk n x r w := by
  have hrange : ∀ lo hi, t.inRange n x lo hi = s.inRange n x lo hi := fun lo hi => by
    refine anyBelow_congr 16 _ _ fun k hk => ?_
    have hl : t.reg (R.SPD_RANGE_LO n k) = s.reg _ := h _ (by unfold R.SPD_RANGE_LO Pg.spd3 Pg.spd4; omega)
    have hh : t.reg (R.SPD_RANGE_HI n k) = s.reg _ := h _ (by unfold R.SPD_RANGE_HI Pg.spd3 Pg.spd4; omega)
    simp only [hl, hh]
  simp only [State.accessOk, h.rgn_eq hr, hrange]

theorem DmaPageOnly.domOn_eq {d : Nat} (hd : d < 31) : t.domOn d = s.domOn d := by
  have hs : t.reg (R.PWR_DOM_STATUS d) = s.reg _ := h _ (by unfold R.PWR_DOM_STATUS Pg.pwr Pg.spd4; omega)
  have hc : t.reg R.CLK_STATUS = s.reg _ := h _ (by unfold R.CLK_STATUS Pg.clk Pg.spd4; omega)
  simp only [State.domOn, State.domState, State.clocks, State.fld, hs, hc]

end

/-! ### The bytes of a fill (R143) -/

/-- The row that a fill writes: its pattern over and over. -/
def fillRow (d : List Word) : List Byte := (List.replicate 128 (leBytes 4 (Dma.fill d))).flatten

theorem fillRow_length (d : List Word) : (fillRow d).length = 512 := by
  simp [fillRow, leBytes_length]

theorem getD_flatten_replicate (l : List Byte) (m b : Nat) (hb : b < l.length * m) :
    (List.replicate m l).flatten.getD b 0 = l.getD (b % l.length) 0 := by
  induction m generalizing b with
  | zero => omega
  | succ m ih =>
    rw [Nat.mul_succ] at hb
    rw [List.replicate_succ, List.flatten_cons]
    by_cases h : b < l.length
    · rw [List.getD_append _ _ _ _ h, Nat.mod_eq_of_lt h]
    · have hmod : b % l.length = (b - l.length) % l.length := Nat.mod_eq_sub_mod (by omega)
      rw [List.getD_append_right _ _ _ _ (by omega), ih _ (by omega), hmod]

theorem getD_leBytes (n v k : Nat) (h : k < n) : (leBytes n v).getD k 0 = BitVec.ofNat 8 (v / 256 ^ k) := by
  induction n generalizing v k with
  | zero => omega
  | succ n ih =>
    cases k with
    | zero => rw [leBytes, List.getD_cons_zero, Nat.pow_zero, Nat.div_one]
    | succ k => rw [leBytes, List.getD_cons_succ, ih _ _ (by omega), Nat.div_div_eq_div_mul, Nat.pow_succ']

theorem fillRow_byte (d : List Word) (b : Nat) (hb : b < 512) :
    ((fillRow d).getD b 0).toNat = bitsOf (Dma.fill d) (8 * (b % 4) + 7) (8 * (b % 4)) := by
  have hpow : 256 ^ (b % 4) = 2 ^ (8 * (b % 4)) := by rw [Nat.pow_mul]
  have hwidth : 8 * (b % 4) + 7 + 1 - 8 * (b % 4) = 8 := by omega
  rw [fillRow, getD_flatten_replicate _ _ _ (by rw [leBytes_length]; omega), leBytes_length, getD_leBytes _ _ _ (by omega),
    BitVec.toNat_ofNat, hpow, bitsOf, hwidth]

/-! ### The last row of a fill (R130, R142, R143) -/

/-- A waiting channel takes the room that it waited for (R142). -/
def roomTaken (n c : Nat) (s : State) : State :=
  countFree (cntKey (Pg.spd4 n) 4) (chanStatus n c 0 (s.setChan n c { s.chan n c with room := false }))

/-- The next row of a fill in its place, counted (R143, R150). -/
def fillLanded (n c : Nat) (t : DmaDesc) (s : State) : State :=
  countRow n t.ctx true (landBytes n ((s.rgn n (Dma.regDst t.desc)).rowHead (s.chan n c).moved) (fillRow t.desc) 0 (roomTaken n c s))

/-- The channel shows one row more. -/
def fillMoved (n c : Nat) (t : DmaDesc) (s : State) : State :=
  chanStatus n c 0 ((fillLanded n c t s).setChan n c { s.chan n c with moved := (s.chan n c).moved + 1, room := false })

/-- HEAD has taken the rows of the fill, and its channel is free (R130, R138). -/
def fillEnded (n c : Nat) (t : DmaDesc) (s : State) : State :=
  (chanStatus n c 0 ((advanceHead n (Dma.regDst t.desc) ((s.chan n c).moved + 1) (fillMoved n c t s)).setChan n c
    { s.chan n c with cur := none, requested := 0, moved := 0, page := 0, refused := false, room := false, src := none })).count
    (Pg.spd4 n) 2 1

section
variable (n : Nat) (s : State)

theorem countRow_core (x : Nat) (into : Bool) (m : Nat) : (countRow n x into s).core m = s.core m := rfl
theorem countRow_reg (x : Nat) (into : Bool) (a : Nat) : (countRow n x into s).reg a = s.reg a := rfl
theorem countRow_spad (x : Nat) (into : Bool) : (countRow n x into s).spad = s.spad := rfl

variable (row : Nat) (bs : List Byte)

theorem landBytes_clean_core (m : Nat) : (landBytes n row bs 0 s).core m = s.core m := rfl
theorem landBytes_clean_reg (a : Nat) : (landBytes n row bs 0 s).reg a = s.reg a := rfl
theorem writeRow_spad (src : Nat) : (s.writeRow n row bs src).spad = Memory.writeList s.spad (rowAddr n row) (bs.take 512) := rfl
theorem landBytes_clean_spad : (landBytes n row bs 0 s).spad = (s.writeRow n row bs 0).spad := rfl

theorem advanceHead_spad (r k : Nat) : (advanceHead n r k s).spad = s.spad := by rw [advanceHead_frame]
theorem chanStatus_spad (k cause : Nat) : (chanStatus n k cause s).spad = s.spad := rfl
theorem roomTaken_spad (c : Nat) : (roomTaken n c s).spad = s.spad := rfl

end

section
variable (n c : Nat) (t : DmaDesc) (s : State)

theorem roomTaken_chan : (roomTaken n c s).chan n c = { s.chan n c with room := false } := State.chan_setChan_same s n c _

theorem fillLanded_chan : (fillLanded n c t s).chan n c = { s.chan n c with room := false } := by
  rw [fillLanded, chan_of_core (countRow_core _ _ _ _ _), chan_of_core (landBytes_clean_core _ _ _ _ _), roomTaken_chan]

theorem fillMoved_chan : (fillMoved n c t s).chan n c = { s.chan n c with moved := (s.chan n c).moved + 1, room := false } := by
  rw [fillMoved, chanStatus_chan, State.chan_setChan_same]

theorem fillEnded_chan : (fillEnded n c t s).chan n c
    = { s.chan n c with cur := none, requested := 0, moved := 0, page := 0, refused := false, room := false, src := none } := by
  rw [fillEnded, chan_of_core (State.count_core ..), chanStatus_chan, State.chan_setChan_same]

theorem roomTaken_page (hc : c < 4) : DmaPageOnly n s (roomTaken n c s) := fun a ha => by
  show (chanStatus n c 0 _).reg a = _
  rw [chanStatus_reg_page _ _ _ _ hc ha, State.setChan_reg]

theorem fillMoved_page (hc : c < 4) : DmaPageOnly n s (fillMoved n c t s) := fun a ha => by
  rw [fillMoved, chanStatus_reg_page _ _ _ _ hc ha, State.setChan_reg, fillLanded, countRow_reg, landBytes_clean_reg,
    roomTaken_page n c s hc a ha]

/-- The bytes of the scratchpads once the fill has ended are those of its row and those before it. -/
theorem fillEnded_spad : (fillEnded n c t s).spad
    = (s.writeRow n ((s.rgn n (Dma.regDst t.desc)).rowHead (s.chan n c).moved) (fillRow t.desc) 0).spad := by
  rw [fillEnded, State.count_spad, chanStatus_spad, State.setChan_spad, advanceHead_spad, fillMoved, chanStatus_spad,
    State.setChan_spad, fillLanded, countRow_spad, landBytes_clean_spad, writeRow_spad, writeRow_spad, roomTaken_spad]

/-- HEAD has moved over every row that it had not taken (R130). -/
theorem fillEnded_head (hc : c < 4) (hraw : (s.rgn n (Dma.regDst t.desc)).raw = false) :
    let g := s.rgn n (Dma.regDst t.desc)
    (fillEnded n c t s).reg (R.SPD_REGION_HEAD n (Dma.regDst t.desc))
      = ptrWord (movePtr g.size g.head g.headWrap ((s.chan n c).moved + 1)) := by
  have hr : Dma.regDst t.desc < 64 := bitsOf_lt _ 19 14
  have hpage : R.SPD_REGION_HEAD n (Dma.regDst t.desc) / 4096 ≠ Pg.spd4 n / 4096 := by
    unfold R.SPD_REGION_HEAD Pg.spd5 Pg.spd4
    omega
  rw [fillEnded, State.count_reg, chanStatus_reg_page _ _ _ _ hc hpage, State.setChan_reg, advanceHead]
  dsimp only
  rw [(fillMoved_page n c t s hc).rgn_eq hr, if_neg (by simp [hraw]), State.count_reg, State.reg_setReg_same]

end

/-- A channel on which nothing runs moves and lands nothing. -/
theorem moveRows_idle (n c k : Nat) (s : State) (h : (s.chan n c).cur = none) : moveRows n c k s = s := by
  cases k with
  | zero => rfl
  | succ k =>
    rw [moveRows]
    dsimp only
    rw [h]

theorem landReady_idle (n c k : Nat) (s : State) (h : (s.chan n c).cur = none) : landReady n c k s = s := by
  cases k with
  | zero => rfl
  | succ k =>
    rw [landReady]
    dsimp only
    rw [h]

section
variable (n c : Nat) (t : DmaDesc) (s : State) (hk : t.kind = .dma)
include hk

theorem fill_ahead (hcommit : Dma.commitRows t.desc = 0) (m : Nat) : t.ahead m = m := by
  simp [DmaDesc.ahead, DmaDesc.step, hk, hcommit]

variable (hdir : Dma.dir t.desc = 5)
include hdir

theorem fill_dst : t.dst n = (n, Dma.regDst t.desc) := by simp [DmaDesc.dst, hk, Dma.target, hdir]

theorem fill_fills : t.fills = true := by simp [DmaDesc.fills, hk, hdir]

theorem fill_stillOk : s.stillOk n c t = s.accessOk n t.ctx (Dma.regDst t.desc) (some ⟨1, c⟩) := by
  simp [State.stillOk, hk, hdir, fill_fills t hk hdir, fill_dst n t hk hdir, Dma.writer]

section
variable (hcommit : Dma.commitRows t.desc = 0) (hraw : (s.rgn n (Dma.regDst t.desc)).raw = false)
include hcommit hraw

theorem fill_hasRoom (m : Nat) : s.hasRoom n t m = (s.domOn n && decide (m < (s.rgn n (Dma.regDst t.desc)).free)) := by
  simp [State.hasRoom, hk, fill_dst n t hk hdir, fill_ahead t hk hcommit, hraw]

theorem fill_dstRow (m : Nat) : s.dstRow n t m = (s.rgn n (Dma.regDst t.desc)).rowHead m := by
  simp [State.dstRow, hk, fill_dst n t hk hdir, fill_ahead t hk hcommit, hraw]

end

/-- A fill that passes its checks and has room lands its next row (R133, R142, R143). -/
theorem moveRows_fill (k : Nat) (hcur : (s.chan n c).cur = some t) (hok : s.stillOk n c t = true)
    (hroom : s.hasRoom n t (s.chan n c).moved = true) :
    moveRows n c (k + 1) s = moveRows n c k (landRow n c (fillRow t.desc) 0 s) := by
  have hlocal : s.localRow n (s.chan n c) t = (fillRow t.desc, 0) := by
    rw [State.localRow, if_pos hdir]
    rfl
  rw [moveRows]
  dsimp only
  rw [hcur]
  dsimp only
  rw [if_neg (by simp [fill_fills t hk hdir, hk, hdir]), if_neg (by simp [hok]), if_pos hroom, hlocal]
  dsimp only
  rw [if_pos hdir]

/-- A row of a fill lands in its own core (R143). -/
theorem landRow_fill (bs : List Byte) (hcur : (s.chan n c).cur = some t) :
    landRow n c bs 0 s = rowMoved n c (countRow n t.ctx true (landBytes n (s.dstRow n t (s.chan n c).moved) bs 0 s)) := by
  rw [landRow]
  dsimp only
  rw [hcur]
  dsimp only
  rw [hk, fill_dst n t hk hdir]
  dsimp only
  rw [beq_self_eq_true, if_pos rfl]

/-- The last row of a fill without COMMIT_ROWS ends it. -/
theorem rowMoved_last (hcommit : Dma.commitRows t.desc = 0) (hcur : (s.chan n c).cur = some t)
    (hlast : (s.chan n c).moved + 1 = Dma.rows t.desc) :
    rowMoved n c s
      = finishXfer n c (chanStatus n c 0 (s.setChan n c { s.chan n c with moved := (s.chan n c).moved + 1, room := false })) := by
  have hstep : t.step = 0 := by simp [DmaDesc.step, hk, hcommit]
  have htotal : t.total = Dma.rows t.desc := by simp [DmaDesc.total, hk]
  rw [rowMoved]
  dsimp only
  split
  · next he => cases he.symm.trans hcur
  · next u hu =>
    obtain rfl : u = t := Option.some.inj (hu.symm.trans hcur)
    rw [if_neg (by simp [hstep]), hk]
    exact if_pos (hlast.trans htotal.symm)

/-- The end of a fill that neither releases nor signals. -/
theorem finishXfer_fill (hcommit : Dma.commitRows t.desc = 0) (hsig : Op.sigEn t.desc = false) (hrel : Dma.relSrc t.desc = false)
    (hhost : t.host = none) (hcur : (s.chan n c).cur = some t) :
    finishXfer n c s = (chanStatus n c 0 ((advanceHead n (Dma.regDst t.desc) (s.chan n c).moved s).setChan n c
      { s.chan n c with cur := none, requested := 0, moved := 0, page := 0, refused := false, room := false, src := none })).count
      (Pg.spd4 n) 2 1 := by
  rw [finishXfer]
  dsimp only
  split
  · next he => cases he.symm.trans hcur
  · next u hu =>
    obtain rfl : u = t := Option.some.inj (hu.symm.trans hcur)
    rw [hk, hhost, if_pos (fill_fills u hk hdir), fill_dst n u hk hdir, fill_ahead u hk hcommit, hsig, hrel]
    cases (s.chan n c).src <;> rfl

end

/-- The last row of a fill that waited for room (R130, R142, R143). -/
theorem dmaRoom_fill (n : Fin 18) (c : Fin 4) (t : DmaDesc) (s : State) (hcur : (s.chan n c).cur = some t)
    (hroom : (s.chan n c).room = true) (hk : t.kind = .dma) (hdir : Dma.dir t.desc = 5) (hcommit : Dma.commitRows t.desc = 0)
    (hsig : Op.sigEn t.desc = false) (hrel : Dma.relSrc t.desc = false) (hhost : t.host = none)
    (hraw : (s.rgn n (Dma.regDst t.desc)).raw = false) (hlast : (s.chan n c).moved + 1 = Dma.rows t.desc)
    (hfree : (s.chan n c).moved < (s.rgn n (Dma.regDst t.desc)).free) (hon : s.domOn n = true)
    (hok : s.accessOk n t.ctx (Dma.regDst t.desc) (some ⟨1, c⟩) = true) : dmaRoom n c s = fillEnded n c t s := by
  have hpage := roomTaken_page n c s c.isLt
  have hchan := roomTaken_chan n c s
  have hr : Dma.regDst t.desc < 64 := bitsOf_lt _ 19 14
  have hrgn := hpage.rgn_eq hr
  have hraw' : ((roomTaken n c s).rgn n (Dma.regDst t.desc)).raw = false := by rw [hrgn, hraw]
  have htaken : roomAvailable n c s = moveRows n c (t.total + 1) (roomTaken n c s) := by
    rw [roomAvailable]
    dsimp only
    split
    · next he => cases he.symm.trans hcur
    · next u hu =>
      obtain rfl : u = t := Option.some.inj (hu.symm.trans hcur)
      refine if_pos ?_
      rw [hroom, fill_hasRoom n u s hk hdir hcommit hraw, hon, decide_eq_true hfree]
      rfl
  have hmove := moveRows_fill n c t (roomTaken n c s) hk hdir t.total (by rw [hchan, hcur])
    (by rw [fill_stillOk n c t _ hk hdir, hpage.accessOk_eq hr, hok])
    (by rw [fill_hasRoom n t _ hk hdir hcommit hraw', hpage.domOn_eq (by omega), hrgn, hchan, hon, decide_eq_true hfree]; rfl)
  have hland : landRow n c (fillRow t.desc) 0 (roomTaken n c s) = rowMoved n c (fillLanded n c t s) := by
    rw [landRow_fill n c t _ hk hdir _ (by rw [hchan, hcur]), fill_dstRow n t _ hk hdir hcommit hraw', hrgn, hchan]
    rfl
  have hmoved : rowMoved n c (fillLanded n c t s) = finishXfer n c (fillMoved n c t s) := by
    rw [rowMoved_last n c t _ hk hdir hcommit (by rw [fillLanded_chan, hcur]) (by rw [fillLanded_chan]; exact hlast), fillLanded_chan]
    rfl
  have hend : finishXfer n c (fillMoved n c t s) = fillEnded n c t s := by
    rw [finishXfer_fill n c t _ hk hdir hcommit hsig hrel hhost (by rw [fillMoved_chan, hcur]), fillMoved_chan]
    rfl
  have hidle : ((fillEnded n c t s).chan n c).cur = none := by rw [fillEnded_chan]
  rw [dmaRoom, htaken, hmove, hland, hmoved, hend, moveRows_idle _ _ _ _ hidle, landReady_idle _ _ _ _ hidle]

/-- A wait beyond its limit faults the context of the transfer that runs (R142). -/
theorem dmaWaitTimeout_faults (n c : Nat) (t : DmaDesc) (s : State) (hcur : (s.chan n c).cur = some t)
    (hroom : (s.chan n c).room = true) (hlimit : s.reg (R.SPD_DMA_WAIT_LIMIT n) ≠ 0) :
    dmaWaitTimeout n c s
      = ctxFault t.ctx (some n) [] Flt.watchdog 0 (Op.tag t.desc) (errEvent (Pg.spd4 n) E.spd4_DMA_FAULT s) := by
  rw [dmaWaitTimeout, hcur]
  dsimp only
  rw [hroom, Bool.true_and, if_pos (by simpa using hlimit)]
  rfl

/-! ### HOLD (R149) -/

section
variable (n : Fin 18) (c : Fin 4)

/-- The one field of SPD_DMA_CTRL. -/
def holdField : FldDef := ⟨0, 0, .rw, 0, 0, []⟩

theorem dmaCtrl_offset : R.SPD_DMA_CTRL n c % 4096 = 0x100 + 0x80 * c.val := by
  unfold R.SPD_DMA_CTRL Pg.spd4
  omega

theorem findReg_dmaCtrl : findReg (R.SPD_DMA_CTRL n c % 4096) (regsOf .spd4)
    = some (⟨0x100, 4, 0x80, 1, 0x0, .any, [holdField]⟩, c.val, 0) := by
  have hfind : ∀ c : Fin 4, findReg (0x100 + 0x80 * c.val) (regsOf .spd4)
      = some (⟨0x100, 4, 0x80, 1, 0x0, .any, [holdField]⟩, c.val, 0) := by decide
  rw [dmaCtrl_offset, hfind]

variable (s : State) (iid : Fin 24) (val : Word)

/-- SPD_DMA_CTRL with HOLD written. -/
def holdStored : State := s.setReg (R.SPD_DMA_CTRL n c) (mergeWord (s.reg (R.SPD_DMA_CTRL n c)) (maskOf 0 0) val)

theorem fieldsWrite_dmaCtrl : fieldsWrite iid (R.SPD_DMA_CTRL n c) 0xFFFFFFFF#32 val [holdField] s = holdStored n c s val := by
  have hpage : R.SPD_DMA_CTRL n c / 4096 = 0x104 + 16 * n := by
    unfold R.SPD_DMA_CTRL Pg.spd4
    omega
  exact fieldWrite_store iid _ val holdField s (.inl rfl) (by decide) (by decide) rfl
    (extraOk_plain _ _ _ (by rw [hpage]; unfold Pg.brz1; omega) (by rw [hpage]; omega))

theorem writeEffect_dmaCtrl (q : WriteOutcome) (old t : State) :
    writeEffect q iid .spd4 n (R.SPD_DMA_CTRL n c % 4096) 0xFFFFFFFF#32 val old t = holdChanged n c t := by
  have hc : (0x100 + 0x80 * c.val) % 0x80 = 0 ∧ 0x100 + 0x80 * c.val < 0x300 := by omega
  have hdiv : (0x100 + 0x80 * c.val - 0x100) / 0x80 = c.val := by omega
  simp only [dmaCtrl_offset, writeEffect, if_pos hc, hdiv]

theorem holdStored_hold : (holdStored n c s val).fld (R.SPD_DMA_CTRL n c) F.SPD_DMA_CTRL_HOLD = wordFld val F.SPD_DMA_CTRL_HOLD := by
  rw [holdStored, State.fld_setReg_same]
  refine wordFld_mergeWord_in _ _ _ _ fun j h1 h2 => ?_
  rw [maskOf_getLsbD _ _ _ (by decide)]
  exact decide_eq_true ⟨h1, h2⟩

/-- A permitted write of SPD_DMA_CTRL stores HOLD, and the channel's status follows it (R149). -/
theorem exec_spdDmaHold (h : s.Admits iid (R.SPD_DMA_CTRL n c) .spd4 n) :
    exec (.spdDmaHold iid n c val) s = .next (holdChanged n c (holdStored n c s val)) := by
  have hneeds : ∀ n : Fin 18, ∀ c : Fin 4, needsOutcome (R.SPD_DMA_CTRL n c) = false := by decide
  have hquiet : (holdChanged n c (holdStored n c s val)).reg (R.SPD_DMA_CTRL n c - R.SPD_DMA_CTRL n c % 4096 + Hdr.errStat)
      = (holdStored n c s val).reg (R.SPD_DMA_CTRL n c - R.SPD_DMA_CTRL n c % 4096 + Hdr.errStat) := by
    refine chanStatus_reg_ne _ _ _ _ ?_ ?_
    · rw [dmaCtrl_offset]
      unfold R.SPD_DMA_CTRL R.SPD_DMA_STATUS Hdr.errStat
      omega
    · rw [dmaCtrl_offset]
      unfold R.SPD_DMA_CTRL R.SPD_DMA_ROWS Hdr.errStat
      omega
  show Host.Outcome.next (wordWrite iid (R.SPD_DMA_CTRL n c) val s) = _
  rw [wordWrite_block iid _ val s .spd4 n _ _ _ h (hneeds n c) (by rw [dmaCtrl_offset]; omega) (findReg_dmaCtrl n c) rfl rfl,
    fieldsWrite_dmaCtrl, writeEffect_dmaCtrl]
  exact congrArg _ (attributeErr_quiet _ _ _ _ hquiet)

/-- HOLD shows as it was written, and no register but the channel's three differs (R149). -/
theorem holdChanged_shows :
    (holdChanged n c (holdStored n c s val)).fld (R.SPD_DMA_CTRL n c) F.SPD_DMA_CTRL_HOLD = wordFld val F.SPD_DMA_CTRL_HOLD
      ∧ OnlyRegs [R.SPD_DMA_CTRL n c, R.SPD_DMA_STATUS n c, R.SPD_DMA_ROWS n c] s (holdChanged n c (holdStored n c s val)) := by
  have hne : R.SPD_DMA_CTRL n c ≠ R.SPD_DMA_STATUS n c ∧ R.SPD_DMA_CTRL n c ≠ R.SPD_DMA_ROWS n c := by
    unfold R.SPD_DMA_CTRL R.SPD_DMA_STATUS R.SPD_DMA_ROWS
    omega
  refine ⟨?_, rfl, fun a ha => ?_⟩
  · rw [holdChanged, fld_of_reg (chanStatus_reg_ne _ _ _ _ hne.1 hne.2), holdStored_hold]
  · simp only [List.mem_cons, List.not_mem_nil, or_false, not_or] at ha
    obtain ⟨h1, h2, h3⟩ := ha
    rw [holdChanged, chanStatus_reg_ne _ _ _ _ h2 h3, holdStored, State.reg_setReg_ne _ _ _ _ h1]

end

/-! ### SPD_DMA_SUBMIT (R149) -/

theorem enqueue_core (s : State) (n k : Nat) (t : DmaDesc) : (enqueue n k t s).core n
    = (s.core n).setChan k { s.chan n k with queue := (s.chan n k).queue ++ [t] } := State.core_setChan s n k _

/-- A posted descriptor is the youngest of its channel's queue. -/
theorem enqueue_chan (s : State) (n k : Nat) (t : DmaDesc) :
    (enqueue n k t s).chan n k = { s.chan n k with queue := (s.chan n k).queue ++ [t] } := by
  rw [State.chan, enqueue_core, Core.chan_setChan_same]

section
variable (n : Fin 18) (c : Fin 4)

theorem dmaSubmit_offset : R.SPD_DMA_SUBMIT n c 15 % 4096 = 0x17C + 0x80 * c.val := by
  unfold R.SPD_DMA_SUBMIT Pg.spd4
  omega

theorem findReg_dmaSubmit : findReg (R.SPD_DMA_SUBMIT n c 15 % 4096) (regsOf .spd4)
    = some (⟨0x140, 4, 0x80, 16, 0x4, .ctl, [⟨31, 0, .wo, 0, 0, []⟩]⟩, c.val, 15) := by
  have hfind : ∀ c : Fin 4, findReg (0x17C + 0x80 * c.val) (regsOf .spd4)
      = some (⟨0x140, 4, 0x80, 16, 0x4, .ctl, [⟨31, 0, .wo, 0, 0, []⟩]⟩, c.val, 15) := by decide
  rw [dmaSubmit_offset, hfind]

variable (s : State) (iid : Fin 24) (val : Word)

/-- The descriptor that the words written before and the last one spell. -/
def submitted : List Word := (List.range 15).map (fun i => Tab.get (s.core n).submit 0 (16 * c.val + i)) ++ [val]

/-- The last word is kept with the words written before. -/
def submitKept : State := s.modCore n (fun k => { k with submit := Tab.set k.submit (16 * c.val + 15) val })

theorem submitKept_chan (j : Nat) : (submitKept n c s val).chan n j = s.chan n j := by
  rw [State.chan, submitKept, State.core_modCore_same]
  rfl

theorem submitKept_words :
    (List.range 16).map (fun i => Tab.get ((submitKept n c s val).core n).submit 0 (16 * c.val + i)) = submitted n c s val := by
  rw [List.range_succ, List.map_append, submitted, submitKept, State.core_modCore_same]
  congr 1
  · refine List.map_congr_left fun i hi => ?_
    have hlt : i < 15 := List.mem_range.mp hi
    exact Tab.get_set_ne _ _ _ _ _ (by omega)
  · rw [List.map_singleton, Tab.get_set_same]

/-- A permitted write of word 15 posts the sixteen words for the chosen context (R149). -/
theorem wordWrite_dmaSubmit (h : s.Admits iid (R.SPD_DMA_SUBMIT n c 15) .spd4 n) :
    wordWrite iid (R.SPD_DMA_SUBMIT n c 15) val s = attributeErr iid (R.SPD_DMA_SUBMIT n c 15) s
      (fwPost n c (s.fld (R.SPD_DMA_SUBMIT_CTX n c) F.SPD_DMA_SUBMIT_CTX_CTX) (submitted n c s val) none (submitKept n c s val)) := by
  have hpage : R.SPD_DMA_SUBMIT n c 15 / 4096 = 0x104 + 16 * n := by
    unfold R.SPD_DMA_SUBMIT Pg.spd4
    omega
  have hneeds : ∀ n : Fin 18, ∀ c : Fin 4, needsOutcome (R.SPD_DMA_SUBMIT n c 15) = false := by decide
  have hplain : PlainFields (R.SPD_DMA_SUBMIT n c 15) [⟨31, 0, .wo, 0, 0, []⟩] :=
    plainFields_of _ _ (by decide) (by rw [hpage]; unfold Pg.brz1; omega) (by rw [hpage]; omega)
  have hhold : ¬ ((0x17C + 0x80 * c.val) % 0x80 = 0 ∧ 0x17C + 0x80 * c.val < 0x300) := by omega
  have hword : 0x40 ≤ (0x17C + 0x80 * c.val) % 0x80 := by omega
  have hchan : (0x17C + 0x80 * c.val - 0x100) / 0x80 = c.val := by omega
  have hlast : ((0x17C + 0x80 * c.val) % 0x80 - 0x40) / 4 = 15 := by omega
  have heffect : writeEffect ⟨false, false, false⟩ iid .spd4 n (0x17C + 0x80 * c.val) 0xFFFFFFFF#32 val s s
      = submitWord n c 15 val s := by
    simp only [writeEffect, if_neg hhold, if_pos hword, hchan, hlast]
  rw [busWrite_command iid _ val s .spd4 n _ _ _ h (hneeds n c) (by rw [dmaSubmit_offset]; omega) (findReg_dmaSubmit n c) rfl hplain
    rfl (by simp [commandOk, FldDef.ok]), dmaSubmit_offset, heffect, submitWord, if_pos rfl]
  dsimp only
  rw [← submitKept, submitKept_words]
  rfl

/-- A DMA descriptor that finds room in its queue joins it (R149). -/
theorem exec_spdDmaSubmit_posts (h : s.Admits iid (R.SPD_DMA_SUBMIT n c 15) .spd4 n) (hroom : (s.chan n c).queue.length < 8)
    (hop : Op.opcode (submitted n c s val) = 10) :
    exec (.spdDmaSubmit iid n c val) s = .next (enqueue n c
      ⟨.dma, submitted n c s val, s.fld (R.SPD_DMA_SUBMIT_CTX n c) F.SPD_DMA_SUBMIT_CTX_CTX, false, none⟩ (submitKept n c s val)) := by
  have hpost : fwPost n c (s.fld (R.SPD_DMA_SUBMIT_CTX n c) F.SPD_DMA_SUBMIT_CTX_CTX) (submitted n c s val) none (submitKept n c s val)
      = enqueue n c ⟨.dma, submitted n c s val, s.fld (R.SPD_DMA_SUBMIT_CTX n c) F.SPD_DMA_SUBMIT_CTX_CTX, false, none⟩
        (submitKept n c s val) := by
    rw [fwPost, submitKept_chan, if_neg (by simp [Chan.full, hroom]), if_neg (by omega), if_neg (by omega)]
  show Host.Outcome.next (wordWrite iid (R.SPD_DMA_SUBMIT n c 15) val s) = _
  rw [wordWrite_dmaSubmit n c s iid val h, hpost]
  refine congrArg _ (attributeErr_quiet _ _ _ _ ((chanStatus_reg_ne _ _ _ _ ?_ ?_).trans rfl))
  · rw [dmaSubmit_offset]
    unfold R.SPD_DMA_SUBMIT R.SPD_DMA_STATUS Hdr.errStat
    omega
  · rw [dmaSubmit_offset]
    unfold R.SPD_DMA_SUBMIT R.SPD_DMA_ROWS Hdr.errStat
    omega

/-- A full queue drops the descriptor with QUEUE_FULL (R149). -/
theorem wordWrite_dmaSubmit_full (h : s.Admits iid (R.SPD_DMA_SUBMIT n c 15) .spd4 n) (hfull : 8 ≤ (s.chan n c).queue.length) :
    let t := wordWrite iid (R.SPD_DMA_SUBMIT n c 15) val s
    t.chan n c = s.chan n c ∧ bitOf (t.reg (Pg.spd4 n + Hdr.errStat)).toNat E.spd4_QUEUE_FULL = true := by
  have hfw : fwPost n c (s.fld (R.SPD_DMA_SUBMIT_CTX n c) F.SPD_DMA_SUBMIT_CTX_CTX) (submitted n c s val) none (submitKept n c s val)
      = errEvent (Pg.spd4 n) E.spd4_QUEUE_FULL (submitKept n c s val) := by
    rw [fwPost, submitKept_chan, if_pos (by simp [Chan.full, hfull])]
  have hbase : R.SPD_DMA_SUBMIT n c 15 - R.SPD_DMA_SUBMIT n c 15 % 4096 = Pg.spd4 n := by
    rw [dmaSubmit_offset]
    unfold R.SPD_DMA_SUBMIT
    omega
  have hcore : ∀ u : State, (attributeErr iid (R.SPD_DMA_SUBMIT n c 15) s u).core n = u.core n := fun u => by
    unfold attributeErr
    dsimp only
    split <;> rfl
  intro t
  have ht : t = attributeErr iid (R.SPD_DMA_SUBMIT n c 15) s (errEvent (Pg.spd4 n) E.spd4_QUEUE_FULL (submitKept n c s val)) := by
    rw [← hfw]
    exact wordWrite_dmaSubmit n c s iid val h
  refine ⟨?_, ?_⟩
  · rw [ht, State.chan, hcore, errEvent_core, ← State.chan, submitKept_chan]
  · rw [ht, attributeErr_reg_ne _ _ _ _ _ (by rw [hbase]; unfold Hdr.errStat Hdr.errFirst; omega)]
    exact errEvent_sets _ _ _ (by decide)

end

/-- Settles O18: the fill by its last row, which finds room and ends it; the timeout, HOLD and SUBMIT by what each leaves. -/
theorem transfersFinishTimeOutAndAreHeld : Obligations.TransfersFinishTimeOutAndAreHeld := by
  unfold Obligations.TransfersFinishTimeOutAndAreHeld
  constructor
  · intro s n c t hcur hroom g m
    refine ⟨fun hk hdir hcommit hsig hrel hhost hwf hraw hbase hlast hfree hon hok => ?_,
      fun hlimit => congrArg Host.Outcome.next (dmaWaitTimeout_faults n c t s hcur hroom hlimit)⟩
    have hend := dmaRoom_fill n c t s hcur hroom hk hdir hcommit hsig hrel hhost hraw hlast hfree hon hok
    have hchan := fillEnded_chan n c t s
    have hpos : 0 < g.size := Nat.lt_of_lt_of_le (Nat.zero_lt_of_lt hfree) (Nat.sub_le _ _)
    have hrow : g.rowHead m < 65536 := by
      have hmod := Nat.mod_lt (g.head + m) hpos
      unfold Rgn.rowHead
      omega
    refine ⟨_, congrArg Host.Outcome.next hend, by rw [hchan], by rw [hchan], fillEnded_head n c t s c.isLt hraw, fun b hb => ?_⟩
    rw [rowByte_of_spad (fillEnded_spad n c t s),
      rowByte_writeRow s n _ _ 0 hwf hrow (fillRow_length _) n _ b hrow hb, if_pos ⟨rfl, rfl⟩, fillRow_byte _ _ hb]
  · intro s iid n c val x d
    refine ⟨fun h => ?_, fun h hroom hop => ?_, fun h hfull => ?_⟩
    · obtain ⟨hhold, honly⟩ := holdChanged_shows n c s val
      exact ⟨_, exec_spdDmaHold n c s iid val h, hhold, honly⟩
    · refine ⟨_, exec_spdDmaSubmit_posts n c s iid val h hroom hop, ?_, ?_, rfl⟩
      · rw [enqueue_chan, submitKept_chan]
        rfl
      · rw [enqueue_core, setChan_ops, submitKept, State.core_modCore_same]
    · obtain ⟨hchan, hbit⟩ := wordWrite_dmaSubmit_full n c s iid val h hfull
      exact ⟨_, rfl, hchan, hbit⟩

end Sys2Proof.Machine
end

section
/-! PROOFS. The sequence-stream table (R196, R204, R208, R211): its entries and staging words, what each command of STR_CMD
makes of the selected entry or why it is refused, and writes of STR_PART, which never make partitions overlap. -/

namespace Sys2Proof.Machine

/-! ### Words and fields of entries (R196) -/

section
variable (s : State) (e : Nat)

theorem State.str_setStr_same (w : Nat) (v : Word) : (s.setStr e w v).str e w = v := Tab.get_set_same _ _ _ _

theorem State.str_setStr_ne (w : Nat) (v : Word) {i j : Nat} (h : 4 * i + j ≠ 4 * e + w) :
    (s.setStr e w v).str i j = s.str i j :=
  Tab.get_set_ne _ _ _ _ _ h

@[simp] theorem State.setReg_str (a : Nat) (w : Word) (i : Nat) : (s.setReg a w).str e i = s.str e i := rfl

@[simp] theorem State.setReg_strFld (a : Nat) (w : Word) (hi lo : Nat) : (s.setReg a w).strFld e hi lo = s.strFld e hi lo := rfl

theorem State.str_setStrFld_ne (hi lo v : Nat) {i w : Nat} (hne : i ≠ e) (hw : w < 4) :
    (s.setStrFld e hi lo v).str i w = s.str i w :=
  State.str_setStr_ne s e 0 _ (by omega)

theorem State.strFld_setStrFld_same (hi lo v : Nat) (h : hi < 32) :
    (s.setStrFld e hi lo v).strFld e hi lo = v % 2 ^ (hi + 1 - lo) := by
  rw [State.strFld, State.setStrFld, State.str_setStr_same]
  exact wordFld_wordSet _ ⟨hi, lo⟩ v h

theorem State.strFld_setStrFld_other (hi lo v : Nat) {hi' lo' : Nat} (h : hi < 32) (hd : hi' < lo ∨ hi < lo') :
    (s.setStrFld e hi lo v).strFld e hi' lo' = s.strFld e hi' lo' := by
  rw [State.strFld, State.setStrFld, State.str_setStr_same]
  exact wordFld_wordSet_ne _ ⟨hi, lo⟩ ⟨hi', lo'⟩ v h hd

end

/-- Nothing but register words and the stream table differs. -/
def TableOnly (s t : State) : Prop := t = { s with regs := t.regs, streams := t.streams }

theorem TableOnly.setReg {s t : State} (h : TableOnly s t) (a : Nat) (w : Word) : TableOnly s (t.setReg a w) := by
  unfold TableOnly at *
  rw [h]
  rfl

theorem TableOnly.trans {s t u : State} (h : TableOnly s t) (k : TableOnly t u) : TableOnly s u := by
  unfold TableOnly at *
  rw [k, h]

theorem TableOnly.iter (n : Nat) (f : Nat → State → State) (h : ∀ k s, TableOnly s (f k s)) (s : State) :
    TableOnly s (iter n f s) := by
  induction n with
  | zero => rfl
  | succ n ih => exact ih.trans (h n _)

theorem RegsOnly.tableOnly {s t : State} (h : RegsOnly s t) : TableOnly s t := by
  unfold RegsOnly TableOnly at *
  rw [h]

theorem TableOnly.setStrFld (s : State) (e hi lo v : Nat) : TableOnly s (s.setStrFld e hi lo v) := rfl

/-- The table with the four words of an entry replaced. -/
def strStored (e : Nat) (ws : Nat → Word) (s : State) : State := iter 4 (fun w t => t.setStr e w (ws w)) s

/-- The state with the four staging words replaced. -/
def strStaged (ws : Nat → Word) (s : State) : State := iter 4 (fun w t => t.setReg (R.STR_STAGE w) (ws w)) s

theorem iter_setStr_str (e : Nat) (ws : Nat → Word) (s : State) (k w : Nat) :
    (iter k (fun w t => t.setStr e w (ws w)) s).str e w = if w < k then ws w else s.str e w := by
  induction k with
  | zero => rfl
  | succ k ih =>
    rw [iter]
    by_cases h : w = k
    · rw [h, State.str_setStr_same, if_pos (Nat.lt_succ_self k)]
    · rw [State.str_setStr_ne _ _ _ _ (by omega), ih]
      exact if_congr (by omega) rfl rfl

theorem iter_setStage_reg (ws : Nat → Word) (s : State) (k w : Nat) :
    (iter k (fun w t => t.setReg (R.STR_STAGE w) (ws w)) s).reg (R.STR_STAGE w)
      = if w < k then ws w else s.reg (R.STR_STAGE w) := by
  induction k with
  | zero => rfl
  | succ k ih =>
    rw [iter]
    by_cases h : w = k
    · rw [h, State.reg_setReg_same, if_pos (Nat.lt_succ_self k)]
    · rw [State.reg_setReg_ne _ _ _ _ (by unfold R.STR_STAGE; omega), ih]
      exact if_congr (by omega) rfl rfl

section
variable (ws : Nat → Word) (s : State)

theorem strStored_str (e : Nat) {w : Nat} (hw : w < 4) : (strStored e ws s).str e w = ws w :=
  (iter_setStr_str e ws s 4 w).trans (if_pos hw)

theorem strStored_str_ne (e : Nat) {i w : Nat} (hi : i ≠ e) (hw : w < 4) : (strStored e ws s).str i w = s.str i w := by
  simp only [strStored, iter]
  repeat rw [State.str_setStr_ne _ _ _ _ (by omega)]

theorem strStored_tableOnly (e : Nat) : TableOnly s (strStored e ws s) :=
  .iter 4 (fun w t => t.setStr e w (ws w)) (fun _ _ => rfl) s

theorem strStored_reg (e a : Nat) : (strStored e ws s).reg a = s.reg a :=
  iter_keeps (fun t : State => t.reg a) (fun w t => t.setStr e w (ws w)) (fun _ _ => rfl) 4 s

theorem strStaged_streams : (strStaged ws s).streams = s.streams :=
  iter_keeps State.streams (fun w t => t.setReg (R.STR_STAGE w) (ws w)) (fun _ _ => rfl) 4 s

theorem strStaged_regsOnly : RegsOnly s (strStaged ws s) :=
  .iter 4 (fun w t => t.setReg (R.STR_STAGE w) (ws w)) (fun _ _ => rfl) s

theorem strStaged_stage {w : Nat} (hw : w < 4) : (strStaged ws s).reg (R.STR_STAGE w) = ws w :=
  (iter_setStage_reg ws s 4 w).trans (if_pos hw)

theorem strStaged_reg_ne {a : Nat} (h : ∀ w, w < 4 → a ≠ R.STR_STAGE w) : (strStaged ws s).reg a = s.reg a := by
  simp only [strStaged, iter]
  rw [State.reg_setReg_ne _ _ _ _ (h 3 (by decide)), State.reg_setReg_ne _ _ _ _ (h 2 (by decide)),
    State.reg_setReg_ne _ _ _ _ (h 1 (by decide)), State.reg_setReg_ne _ _ _ _ (h 0 (by decide))]

/-- An entry of zero words is not valid. -/
theorem strStored_zero_invalid (e : Nat) : (strStored e (fun _ => 0) s).strValid e = false := by
  rw [State.strValid, State.strFld, strStored_str _ s e (by decide)]
  rfl

end

/-- The staging words stay as they are while they are copied into an entry. -/
theorem iter_setStr_stage (s : State) (e k : Nat) : iter k (fun w t => t.setStr e w (t.reg (R.STR_STAGE w))) s
    = iter k (fun w t => t.setStr e w (s.reg (R.STR_STAGE w))) s := by
  induction k with
  | zero => rfl
  | succ k ih =>
    have hreg := iter_keeps (fun t : State => t.reg (R.STR_STAGE k)) (fun w t => t.setStr e w (s.reg (R.STR_STAGE w)))
      (fun _ _ => rfl) k s
    rw [iter, iter, ih, hreg]

/-- An entry stays as it is while it is copied into the staging words. -/
theorem iter_setStage_str (s : State) (e k : Nat) : iter k (fun w t => t.setReg (R.STR_STAGE w) (t.str e w)) s
    = iter k (fun w t => t.setReg (R.STR_STAGE w) (s.str e w)) s := by
  induction k with
  | zero => rfl
  | succ k ih =>
    have hstr := iter_keeps (fun t : State => t.str e k) (fun w t => t.setReg (R.STR_STAGE w) (s.str e w)) (fun _ _ => rfl) k s
    rw [iter, iter, ih, hstr]

/-- Which entries lie in a partition follows from the partition words alone (R208). -/
theorem strOwned_of_parts {s t : State} (h : ∀ x, x < 128 → t.reg (R.STR_PART x) = s.reg (R.STR_PART x)) (e : Nat) :
    t.strOwned e = s.strOwned e := by
  unfold State.strOwned
  refine anyBelow_congr 128 _ _ fun x hx => ?_
  simp only [fld_of_reg (h x hx)]

/-! ### The result of a command (R208) -/

section
variable (s : State) (r : Nat)

theorem strResult_status : (strResult r s).reg R.STR_STATUS = BitVec.ofNat 32 (2 * r) := by
  unfold strResult
  split
  · exact State.reg_setReg_same _ _ _
  · rw [errEvent_reg_ne _ _ _ _ (by decide) (by decide), State.reg_setReg_same]

theorem strResult_streams : (strResult r s).streams = s.streams := by
  unfold strResult
  split
  · rfl
  · rw [errEvent_frame]
    rfl

theorem strResult_refuses (h : r ≠ 0) :
    bitOf ((strResult r s).reg (Pg.ctlStr + Hdr.errStat)).toNat E.ctlStr_STR_REFUSED = true := by
  unfold strResult
  rw [if_neg h]
  exact errEvent_sets _ _ _ (by decide)

end

/-! ### Commands on an entry (R204, R208, R211) -/

section
variable {s : State} {e : Nat}

theorem strCmd_unowned (cmd : Nat) (h : s.strOwned e = false) : strCmd cmd e s = strResult 2 s :=
  if_pos (by rw [h]; rfl)

section
variable (ho : s.strOwned e = true)
include ho

theorem strCmd_write (hh : s.strHeld e = false) :
    strCmd 1 e s = (strStored e (fun w => s.reg (R.STR_STAGE w)) s).setReg R.STR_STATUS 0 := by
  unfold strCmd strStored
  rw [ho, hh, ← iter_setStr_stage]
  rfl

theorem strCmd_read : strCmd 2 e s = (strStaged (s.str e) s).setReg R.STR_STATUS 0 := by
  unfold strCmd strStaged
  rw [ho, ← iter_setStage_str]
  rfl

theorem strCmd_setReset : strCmd 5 e s = (s.setStrFld e 15 15 1).setReg R.STR_STATUS 0 := by
  unfold strCmd
  rw [ho]
  rfl

theorem strCmd_invalidate (hh : s.strHeld e = false) : strCmd 6 e s = (strStored e (fun _ => 0) s).setReg R.STR_STATUS 0 := by
  unfold strCmd
  rw [ho, hh]
  rfl

theorem strCmd_held (cmd : Nat) (hc : cmd = 1 ∨ cmd = 6) (hh : s.strHeld e = true) : strCmd cmd e s = strResult 1 s := by
  unfold strCmd
  rw [ho, hh]
  obtain rfl | rfl := hc <;> rfl

/-- SWAP_OUT of a resident stream is accepted and waits (R204). -/
theorem strCmd_swapOut (hv : s.strValid e = true) (hl : s.strLoc e = 0)
    (hq : s.swapReqs.any (fun q => q.entry == e && q.out) = false) :
    strCmd 3 e s = State.setReg { s with swapReqs := s.swapReqs ++ [⟨e, true, false⟩] } R.STR_STATUS 0 := by
  unfold strCmd
  rw [ho, hv, hl, hq]
  rfl

/-- SWAP_IN of a swapped stream begins it (R203, R204). -/
theorem strCmd_swapIn (hv : s.strValid e = true) (hl : s.strLoc e = 2) :
    strCmd 4 e s = (startSwapIn e false s).setReg R.STR_STATUS 0 := by
  unfold strCmd
  rw [ho, hv, hl]
  rfl

end

end

/-! ### STR_CMD (R208) -/

/-- A permitted write of a listed command acts on the entry of STR_SEL. -/
theorem wordWrite_strCmd {s : State} {iid : Nat} (h : s.Admits iid R.STR_CMD .ctlStr 0) (cmd : Fin 8)
    (hc : 1 ≤ cmd.val ∧ cmd.val ≤ 6) :
    wordWrite iid R.STR_CMD (BitVec.ofNat 32 cmd) s
      = attributeErr iid R.STR_CMD s (strCmd cmd (s.fld R.STR_SEL F.STR_SEL_INDEX) s) := by
  have hf : findReg (R.STR_CMD % 4096) (regsOf .ctlStr)
      = some (⟨0x120, 1, 0x0, 1, 0x0, .any, [⟨2, 0, .wo, 0, 0, [(1, 6)]⟩]⟩, 0, 0) := by decide
  have hbits : bitsOf (BitVec.ofNat 32 cmd.val).toNat 2 0 = cmd.val := by
    revert cmd
    decide
  have hlisted : commandOk [⟨2, 0, .wo, 0, 0, [(1, 6)]⟩] 0xFFFFFFFF#32 (BitVec.ofNat 32 cmd.val) = true := by
    revert cmd
    decide
  rw [busWrite_command iid R.STR_CMD _ s .ctlStr 0 _ 0 0 h (by decide) (by decide) hf (by decide)
    (plainFields_of _ _ (by decide) (by decide) (by decide)) (by decide) hlisted]
  refine congrArg _ ?_
  show strCmdWrite iid _ s = _
  unfold strCmdWrite
  rw [hbits]
  exact if_neg (by omega)

/-- The commands of STR_CMD with the words that they write. -/
def strCmdInstr (iid : Fin 24) : Fin 6 → Instr
  | 0 => .strWrite iid
  | 1 => .strRead iid
  | 2 => .strSwapOut iid
  | 3 => .strSwapIn iid
  | 4 => .strSetReset iid
  | 5 => .strInvalidate iid

section
variable {s : State} {iid : Fin 24} (h : s.Admits iid R.STR_CMD .ctlStr 0)
include h

theorem exec_strCmdInstr (k : Fin 6) :
    exec (strCmdInstr iid k) s
      = .next (attributeErr iid R.STR_CMD s (strCmd (k.val + 1) (s.fld R.STR_SEL F.STR_SEL_INDEX) s)) := by
  have hexec : exec (strCmdInstr iid k) s = .next (wordWrite iid R.STR_CMD (BitVec.ofNat 32 (k.val + 1)) s) := by
    fin_cases k <;> rfl
  rw [hexec]
  exact congrArg _ (wordWrite_strCmd h ⟨k.val + 1, by omega⟩ (by simp only; omega))

/-- A command that is done is exactly what it makes of the table, with STR_STATUS at zero. -/
theorem exec_strCmdInstr_done (k : Fin 6) {u : State}
    (hu : strCmd (k.val + 1) (s.fld R.STR_SEL F.STR_SEL_INDEX) s = u.setReg R.STR_STATUS 0)
    (hquiet : u.reg (Pg.ctlStr + Hdr.errStat) = s.reg (Pg.ctlStr + Hdr.errStat)) :
    exec (strCmdInstr iid k) s = .next (u.setReg R.STR_STATUS 0) := by
  rw [exec_strCmdInstr h k, hu]
  refine congrArg _ (attributeErr_quiet _ _ _ _ ?_)
  rw [State.reg_setReg_ne _ _ _ _ (by decide)]
  exact hquiet

/-- A command that touches only registers and the table is done with nothing else changed. -/
theorem strCmdInstr_done (k : Fin 6) {u : State}
    (hu : strCmd (k.val + 1) (s.fld R.STR_SEL F.STR_SEL_INDEX) s = u.setReg R.STR_STATUS 0)
    (hquiet : u.reg (Pg.ctlStr + Hdr.errStat) = s.reg (Pg.ctlStr + Hdr.errStat)) (hframe : TableOnly s u) :
    exec (strCmdInstr iid k) s = .next (u.setReg R.STR_STATUS 0)
      ∧ (u.setReg R.STR_STATUS 0).reg R.STR_STATUS = 0 ∧ TableOnly s (u.setReg R.STR_STATUS 0) :=
  ⟨exec_strCmdInstr_done h k hu hquiet, State.reg_setReg_same _ _ _, hframe.setReg _ _⟩

/-- A refused command reports its result with STR_REFUSED and leaves the table (R208). -/
theorem exec_strCmdInstr_refused (k : Fin 6) {r : Nat} (hr : r ≠ 0) (hlt : r < 8)
    (ht : strCmd (k.val + 1) (s.fld R.STR_SEL F.STR_SEL_INDEX) s = strResult r s) :
    ∃ t, exec (strCmdInstr iid k) s = .next t ∧ t.fld R.STR_STATUS F.STR_STATUS_RESULT = r
      ∧ bitOf (t.reg (Pg.ctlStr + Hdr.errStat)).toNat E.ctlStr_STR_REFUSED = true ∧ t.streams = s.streams := by
  have hstreams : ∀ u : State, (attributeErr iid R.STR_CMD s u).streams = u.streams := fun u => by
    unfold attributeErr
    dsimp only
    split <;> rfl
  refine ⟨_, (exec_strCmdInstr h k).trans (by rw [ht]), ?_, ?_, ?_⟩
  · rw [State.fld, attributeErr_reg_ne _ _ _ _ _ (by decide), strResult_status]
    unfold wordFld bitsOf
    simp only [BitVec.toNat_ofNat, F.STR_STATUS_RESULT]
    omega
  · rw [attributeErr_reg_ne _ _ _ _ _ (by decide)]
    exact strResult_refuses s r hr
  · rw [hstreams, strResult_streams]

end

/-! ### Partitions (R208) -/

/-- STR_PART of a context: BASE, COUNT and SWAP_CHAN. -/
def partReg : RegDef :=
  ⟨0x400, 128, 0x4, 1, 0x0, .any, [⟨11, 0, .rw, 0, 0, []⟩, ⟨24, 12, .rw, 0, 0, [(0, 4096)]⟩, ⟨26, 25, .rw, 3, 0, []⟩]⟩

/-- The word of a partition with the three fields of `val`. -/
def partWord (old val : Word) : Word :=
  mergeWord (mergeWord (mergeWord old (maskOf 11 0) val) (maskOf 24 12) val) (maskOf 26 25) val

theorem partWord_fields (old val : Word) :
    wordFld (partWord old val) F.STR_PART_BASE = wordFld val F.STR_PART_BASE
      ∧ wordFld (partWord old val) F.STR_PART_COUNT = wordFld val F.STR_PART_COUNT
      ∧ wordFld (partWord old val) F.STR_PART_SWAP_CHAN = wordFld val F.STR_PART_SWAP_CHAN := by
  have hin : ∀ (o : Word) (f : Fld), f.hi < 32 → wordFld (mergeWord o (maskOf f.hi f.lo) val) f = wordFld val f :=
    fun o f h => wordFld_mergeWord_in _ _ _ _ fun j h1 h2 => by
      rw [maskOf_getLsbD _ _ _ h]
      exact decide_eq_true ⟨h1, h2⟩
  have hout : ∀ (o : Word) (f g : Fld), f.hi < 32 → g.hi < f.lo →
      wordFld (mergeWord o (maskOf f.hi f.lo) val) g = wordFld o g :=
    fun o f g h hd => wordFld_mergeWord_out _ _ _ _ fun j h1 h2 => by
      rw [maskOf_getLsbD _ _ _ h]
      exact decide_eq_false (by omega)
  refine ⟨?_, ?_, hin _ F.STR_PART_SWAP_CHAN (by decide)⟩
  · exact (hout _ F.STR_PART_SWAP_CHAN _ (by decide) (by decide)).trans
      ((hout _ F.STR_PART_COUNT _ (by decide) (by decide)).trans (hin _ F.STR_PART_BASE (by decide)))
  · exact (hout _ F.STR_PART_SWAP_CHAN _ (by decide) (by decide)).trans (hin _ F.STR_PART_COUNT (by decide))

section
variable (s : State) (k : Fin 128) (val : Word)

theorem strPart_offset : R.STR_PART k % 4096 = 0x400 + 4 * k.val := by
  unfold R.STR_PART Pg.ctlStr
  omega

/-- Whether a partition overlaps another depends on its own word only by BASE and COUNT, and never on its register. -/
theorem partOverlaps_setReg {v w : Word} (hb : wordFld v F.STR_PART_BASE = wordFld w F.STR_PART_BASE)
    (hc : wordFld v F.STR_PART_COUNT = wordFld w F.STR_PART_COUNT) (u : Word) :
    (s.setReg (R.STR_PART k) u).partOverlaps k v = s.partOverlaps k w := by
  unfold State.partOverlaps
  rw [hb, hc]
  refine anyBelow_congr 128 _ _ fun j _ => ?_
  by_cases hj : j = k.val
  · simp [hj]
  · have hne : R.STR_PART j ≠ R.STR_PART k := by
      unfold R.STR_PART
      omega
    simp only [State.fld_setReg_ne _ _ _ _ _ hne]

theorem fieldsWrite_strPart (iid : Nat) (hcount : wordFld val F.STR_PART_COUNT ≤ 4096) :
    fieldsWrite iid (R.STR_PART k) 0xFFFFFFFF#32 val partReg.flds s
      = s.setReg (R.STR_PART k) (partWord (s.reg (R.STR_PART k)) val) := by
  have hpage : R.STR_PART k / 4096 = 0x4F := by
    unfold R.STR_PART Pg.ctlStr
    omega
  have hx : ∀ f n, extraOk (R.STR_PART k) f n = true := fun f n =>
    extraOk_plain _ f n (by rw [hpage]; decide) (by rw [hpage]; decide)
  have hlisted : FldDef.ok ⟨24, 12, .rw, 0, 0, [(0, 4096)]⟩ (bitsOf val.toNat 24 12) = true := by
    have h : bitsOf val.toNat 24 12 ≤ 4096 := hcount
    simpa [FldDef.ok] using h
  simp only [partReg, fieldsWrite]
  rw [fieldWrite_store iid _ val ⟨11, 0, .rw, 0, 0, []⟩ s (.inl rfl) (by decide) (by decide) rfl (hx _ _),
    fieldWrite_store iid _ val ⟨24, 12, .rw, 0, 0, [(0, 4096)]⟩ _ (.inl rfl) (by decide) (by decide) hlisted (hx _ _),
    fieldWrite_store iid _ val ⟨26, 25, .rw, 3, 0, []⟩ _ (.inl rfl) (by decide) (by decide) rfl (hx _ _)]
  simp only [State.reg_setReg_same, State.setReg_setReg, partWord]

theorem writeEffect_strPart (q : WriteOutcome) (iid : Nat) (t : State) :
    writeEffect q iid .ctlStr 0 (R.STR_PART k % 4096) 0xFFFFFFFF#32 val s t = strPartCheck k (s.reg (R.STR_PART k)) t := by
  have hne : ¬ (0x400 + 4 * k.val = 0x120 ∧ (0xFFFFFFFF#32).getLsbD 0) := by omega
  have hge : 0x400 ≤ 0x400 + 4 * k.val := by omega
  have hdiv : (0x400 + 4 * k.val - 0x400) / 4 = k.val := by omega
  rw [strPart_offset]
  simp only [writeEffect, if_neg hne, if_pos hge, hdiv]

/-- The state with the fields of `val` stored in the word of partition `k`. -/
def partStored : State := s.setReg (R.STR_PART k) (partWord (s.reg (R.STR_PART k)) val)

theorem partOverlaps_stored : (partStored s k val).partOverlaps k ((partStored s k val).reg (R.STR_PART k)) = s.partOverlaps k val := by
  obtain ⟨hbase, hcount, -⟩ := partWord_fields (s.reg (R.STR_PART k)) val
  rw [partStored, State.reg_setReg_same, partOverlaps_setReg s k hbase hcount]

variable (iid : Fin 24) (h : s.Admits iid (R.STR_PART k) .ctlStr 0) (hcount : wordFld val F.STR_PART_COUNT ≤ 4096)
include h hcount

/-- A permitted write of STR_PART stores its fields and then meets the check of overlap (R208). -/
theorem exec_strPartWrite : exec (.strPartWrite iid k val) s = .next (attributeErr iid (R.STR_PART k) (partStored s k val)
    (strPartCheck k (s.reg (R.STR_PART k)) (partStored s k val))) := by
  have hneeds : ∀ k : Fin 128, needsOutcome (R.STR_PART k) = false := by decide
  have hport : ∀ k : Fin 128, isPort .ctlStr (0x400 + 4 * k.val) = false := by decide
  have hfind : ∀ k : Fin 128, findReg (0x400 + 4 * k.val) (regsOf .ctlStr) = some (partReg, k.val, 0) := by decide
  show Host.Outcome.next (wordWrite iid (R.STR_PART k) val s) = _
  rw [wordWrite_block iid _ val s .ctlStr 0 partReg k.val 0 h (hneeds k) (by rw [strPart_offset]; omega)
    (by rw [strPart_offset, hfind k]) (by rw [strPart_offset, hport k]) rfl, fieldsWrite_strPart s k val iid hcount,
    writeEffect_strPart, partStored]

theorem exec_strPartWrite_stores (ho : s.partOverlaps k val = false) :
    exec (.strPartWrite iid k val) s = .next (partStored s k val) := by
  have hcheck : strPartCheck k (s.reg (R.STR_PART k)) (partStored s k val) = partStored s k val := by
    unfold strPartCheck
    exact if_neg (by rw [partOverlaps_stored, ho]; decide)
  rw [exec_strPartWrite s k val iid h hcount, hcheck]
  exact congrArg _ (attributeErr_quiet _ _ _ _ rfl)

/-- A write that would make partitions overlap is dropped with STR_PART (R208). -/
theorem exec_strPartWrite_drops (ho : s.partOverlaps k val = true) : ∃ t, exec (.strPartWrite iid k val) s = .next t
    ∧ t.reg (R.STR_PART k) = s.reg (R.STR_PART k)
    ∧ bitOf (t.reg (Pg.ctlStr + Hdr.errStat)).toNat E.ctlStr_STR_PART = true := by
  have hcheck : strPartCheck k (s.reg (R.STR_PART k)) (partStored s k val)
      = errEvent Pg.ctlStr E.ctlStr_STR_PART ((partStored s k val).setReg (R.STR_PART k) (s.reg (R.STR_PART k))) := by
    unfold strPartCheck
    exact if_pos (by rw [partOverlaps_stored, ho])
  have hpage : R.STR_PART k - R.STR_PART k % 4096 = Pg.ctlStr := by
    rw [strPart_offset]
    unfold R.STR_PART
    omega
  have hne : R.STR_PART k ≠ Pg.ctlStr + Hdr.errStat ∧ R.STR_PART k ≠ Pg.ctlStr + Hdr.errFirst := by
    unfold R.STR_PART Hdr.errStat Hdr.errFirst
    omega
  refine ⟨_, (exec_strPartWrite s k val iid h hcount).trans (by rw [hcheck]), ?_, ?_⟩
  · rw [attributeErr_reg_ne _ _ _ _ _ (by rw [hpage]; exact hne.2), errEvent_reg_ne _ _ _ _ hne.1 hne.2, State.reg_setReg_same]
  · rw [attributeErr_reg_ne _ _ _ _ _ (by rw [hpage]; decide)]
    exact errEvent_sets _ _ _ (by decide)

end

/-- Settles O21: each command by what it makes of the entry of STR_SEL, with its frame; the refusals by their result; and the
partition word by the check that follows it. -/
theorem streamEntriesAndPartitions : Obligations.StreamEntriesAndPartitions := by
  unfold Obligations.StreamEntriesAndPartitions
  refine ⟨fun s iid h => ?_, fun s iid k val h hcount => ⟨fun ho => ?_, exec_strPartWrite_drops s k val iid h hcount⟩⟩
  · intro e done
    refine ⟨fun ho hh => ?_, fun ho => ?_, fun ho => ?_, fun ho hh => ?_, fun ho hh c hc => ?_, fun ho c hc => ?_⟩
    · obtain ⟨hexec, hdone⟩ := strCmdInstr_done h 0 (strCmd_write ho hh) (strStored_reg _ s e _) (strStored_tableOnly _ s e)
      refine ⟨_, hexec, hdone, fun w hw => ?_, fun i w hw hi => ?_⟩
      · rw [State.setReg_str, strStored_str _ s e hw]
      · rw [State.setReg_str, strStored_str_ne _ s e hi hw]
    · obtain ⟨hexec, hdone⟩ := strCmdInstr_done h 1 (strCmd_read ho) (strStaged_reg_ne _ s (by decide)) (strStaged_regsOnly _ s).tableOnly
      refine ⟨_, hexec, hdone, strStaged_streams _ s, fun w hw => ?_⟩
      rw [State.reg_setReg_ne _ _ _ _ (by unfold R.STR_STAGE R.STR_STATUS; omega)]
      exact strStaged_stage _ s hw
    · obtain ⟨hexec, hdone⟩ := strCmdInstr_done h 4 (strCmd_setReset ho) (State.setStr_reg ..) (.setStrFld s e 15 15 1)
      refine ⟨_, hexec, hdone, ?_, fun i w hw hi => ?_⟩
      · rw [State.strReset, State.setReg_strFld, State.strFld_setStrFld_same s e 15 15 1 (by decide)]
        rfl
      · rw [State.setReg_str, State.str_setStrFld_ne s e 15 15 1 hi hw]
    · obtain ⟨hexec, hdone⟩ := strCmdInstr_done h 5 (strCmd_invalidate ho hh) (strStored_reg _ s e _) (strStored_tableOnly _ s e)
      refine ⟨_, hexec, hdone, ?_, fun i w hw hi => ?_⟩
      · rw [State.strValid, State.setReg_strFld, ← State.strValid, strStored_zero_invalid]
      · rw [State.setReg_str, strStored_str_ne _ s e hi hw]
    · have hk : ∃ k : Fin 6, c = strCmdInstr iid k ∧ (k.val + 1 = 1 ∨ k.val + 1 = 6) := by
        simp only [List.mem_cons, List.not_mem_nil, or_false] at hc
        obtain rfl | rfl := hc
        · exact ⟨0, rfl, .inl rfl⟩
        · exact ⟨5, rfl, .inr rfl⟩
      obtain ⟨k, rfl, hk⟩ := hk
      obtain ⟨t, ht, hresult, -, hstreams⟩ := exec_strCmdInstr_refused h k (by decide) (by decide) (strCmd_held ho _ hk hh)
      exact ⟨t, ht, hresult, hstreams⟩
    · have hk : ∃ k : Fin 6, c = strCmdInstr iid k := by
        simp only [List.mem_cons, List.not_mem_nil, or_false] at hc
        obtain rfl | rfl | rfl | rfl | rfl | rfl := hc
        exacts [⟨0, rfl⟩, ⟨1, rfl⟩, ⟨2, rfl⟩, ⟨3, rfl⟩, ⟨4, rfl⟩, ⟨5, rfl⟩]
      obtain ⟨k, rfl⟩ := hk
      exact exec_strCmdInstr_refused h k (by decide) (by decide) (strCmd_unowned _ ho)
  · exact ⟨_, exec_strPartWrite_stores s k val iid h hcount ho, partWord_fields _ _⟩

end Sys2Proof.Machine
end

section
/-! PROOFS. Swaps of streams (R203, R204): the location of a stream, the descriptor that a swap posts to its channel, and the end
of the transfer that carries it. -/

namespace Sys2Proof.Machine

/-! ### The location of a stream (R196, R203) -/

section
variable (s : State) (e v : Nat)

theorem strLoc_setStrLoc (h : v < 4) : (s.setStrLoc e v).strLoc e = v :=
  (State.strFld_setStrFld_same s e 14 13 v (by decide)).trans (Nat.mod_eq_of_lt h)

theorem strCtx_setStrLoc : (s.setStrLoc e v).strCtx e = s.strCtx e :=
  State.strFld_setStrFld_other s e 14 13 v (by decide) (by decide)

theorem strCore_setStrLoc : (s.setStrLoc e v).strCore e = s.strCore e :=
  State.strFld_setStrFld_other s e 14 13 v (by decide) (by decide)

/-- A stream keeps its channel wherever its state is (R203). -/
theorem swapChan_setStrLoc : (s.setStrLoc e v).swapChan e = s.swapChan e := by
  rw [State.swapChan, strCore_setStrLoc, strCtx_setStrLoc]
  rfl

theorem swapChan_lt : (s.swapChan e).2 < 4 := wordFld_lt _ F.STR_PART_SWAP_CHAN

end

theorem strLoc_of_streams {s t : State} (h : t.streams = s.streams) (e : Nat) : t.strLoc e = s.strLoc e := by
  rw [State.strLoc, State.strFld, State.str, h]
  rfl

theorem strBusy_of_scanQ {s t : State} (h : ∀ m, (t.core m).scanQ = (s.core m).scanQ) (e : Nat) : t.strBusy e = s.strBusy e := by
  unfold State.strBusy
  simp only [h]

/-! ### A swap is posted (R203) -/

section
variable (c : Core) (k : Nat) (h : Chan)

theorem setChan_scanQ : (c.setChan k h).scanQ = c.scanQ := by
  unfold Core.setChan
  split <;> rfl

theorem setChan_loops : (c.setChan k h).loops = c.loops := by
  unfold Core.setChan
  split <;> rfl

end

section
variable (s : State) (n k : Nat)

/-- What a channel's record is no part of, no core loses by its update. -/
theorem setChan_core_keeps {α : Type} (p : Core → α) (hp : ∀ c k h, p (Core.setChan c k h) = p c) (h : Chan) (m : Nat) :
    p ((s.setChan n k h).core m) = p (s.core m) := by
  by_cases hm : m = n
  · rw [hm, State.core_setChan, hp]
  · exact congrArg p (State.core_modCore_ne s n _ m hm)

/-- A posted descriptor changes words of its core's DMA page alone. -/
theorem enqueue_reg_page (t : DmaDesc) (hk : k < 4) {a : Nat} (h : a / 4096 ≠ Pg.spd4 n / 4096) :
    (enqueue n k t s).reg a = s.reg a := by
  rw [enqueue, chanStatus_reg_page _ _ _ _ hk h, State.setChan_reg]

end

/-- The descriptor that a swap of stream `e` posts. -/
def swapXfer (s : State) (e : Nat) (out : Bool) : DmaDesc :=
  ⟨if out then .swapOut e else .swapIn e, swapDesc s e out, s.strCtx e, false, none⟩

theorem postSwap_room (s : State) (e : Nat) (out : Bool)
    (h : (s.chan (s.swapChan e).1 (s.swapChan e).2).queue.length < 8) :
    postSwap e out s = enqueue (s.swapChan e).1 (s.swapChan e).2 (swapXfer s e out) s := by
  have hfull : (s.chan (s.swapChan e).1 (s.swapChan e).2).full = false := decide_eq_false (Nat.not_le.mpr h)
  unfold postSwap
  exact if_neg (Bool.eq_false_iff.mp hfull)

/-- A stream whose state is to be brought in, counted. -/
def swapInBegun (e : Nat) (byChunk : Bool) (s : State) : State :=
  if byChunk then ((s.setStrLoc e 3).count Pg.ctlStr 0 1).count Pg.ctlStr 2 1 else (s.setStrLoc e 3).count Pg.ctlStr 0 1

/-- The descriptor of a swap-in. -/
def swapInXfer (s : State) (e : Nat) : DmaDesc := ⟨.swapIn e, swapDesc (s.setStrLoc e 3) e false, s.strCtx e, false, none⟩

/-- A stream whose swap-in waits in its channel's queue. -/
def swapInPosted (e : Nat) (byChunk : Bool) (s : State) : State :=
  enqueue (s.swapChan e).1 (s.swapChan e).2 (swapInXfer s e) (swapInBegun e byChunk s)

section
variable (s : State) (e : Nat) (byChunk : Bool)

theorem swapInBegun_frame : swapInBegun e byChunk s
    = { s with streams := (s.setStrLoc e 3).streams, cnt := (swapInBegun e byChunk s).cnt } := by
  cases byChunk <;> rfl

theorem swapInBegun_core (m : Nat) : (swapInBegun e byChunk s).core m = s.core m := by
  rw [swapInBegun_frame]
  rfl

theorem swapInBegun_reg (a : Nat) : (swapInBegun e byChunk s).reg a = s.reg a := by
  rw [swapInBegun_frame]
  rfl

theorem swapInBegun_swapChan : (swapInBegun e byChunk s).swapChan e = s.swapChan e := by
  rw [← swapChan_setStrLoc s e 3, swapInBegun_frame]
  rfl

theorem swapInBegun_xfer : swapXfer (swapInBegun e byChunk s) e false = swapInXfer s e := by
  rw [swapInXfer, ← strCtx_setStrLoc s e 3, swapInBegun_frame]
  rfl

/-- A swap-in that finds room in its channel's queue is posted there (R203). -/
theorem startSwapIn_posts (h : (s.chan (s.swapChan e).1 (s.swapChan e).2).queue.length < 8) :
    startSwapIn e byChunk s = swapInPosted e byChunk s := by
  have hstart : startSwapIn e byChunk s = postSwap e false (swapInBegun e byChunk s) := rfl
  rw [hstart, postSwap_room _ _ _ (by rw [swapInBegun_swapChan, chan_of_core (swapInBegun_core s e byChunk _)]; exact h),
    swapInBegun_swapChan, swapInBegun_xfer, swapInPosted]

theorem swapInPosted_frame : swapInPosted e byChunk s
    = { swapInBegun e byChunk s with cores := (swapInPosted e byChunk s).cores, regs := (swapInPosted e byChunk s).regs } := rfl

theorem swapInPosted_spad : (swapInPosted e byChunk s).spad = s.spad := by
  rw [swapInPosted_frame, swapInBegun_frame]

theorem swapInPosted_da : (swapInPosted e byChunk s).da = s.da := by
  rw [swapInPosted_frame, swapInBegun_frame]

theorem swapInPosted_strLoc : (swapInPosted e byChunk s).strLoc e = 3 := by
  have hs : (swapInPosted e byChunk s).streams = (s.setStrLoc e 3).streams := by
    rw [swapInPosted_frame, swapInBegun_frame]
  rw [strLoc_of_streams hs, strLoc_setStrLoc s e 3 (by decide)]

theorem swapInPosted_chan : (swapInPosted e byChunk s).chan (s.swapChan e).1 (s.swapChan e).2
    = { s.chan (s.swapChan e).1 (s.swapChan e).2 with
        queue := (s.chan (s.swapChan e).1 (s.swapChan e).2).queue ++ [swapInXfer s e] } := by
  rw [swapInPosted, enqueue_chan, chan_of_core (swapInBegun_core s e byChunk _)]

theorem swapInPosted_core_keeps {α : Type} (p : Core → α) (hp : ∀ c k h, p (Core.setChan c k h) = p c) (m : Nat) :
    p ((swapInPosted e byChunk s).core m) = p (s.core m) :=
  (setChan_core_keeps _ _ _ p hp _ m).trans (congrArg p (swapInBegun_core s e byChunk m))

theorem swapInPosted_reg {a : Nat} (h : a / 4096 ≠ Pg.spd4 (s.swapChan e).1 / 4096) :
    (swapInPosted e byChunk s).reg a = s.reg a := by
  rw [swapInPosted, enqueue_reg_page _ _ _ _ (swapChan_lt s e) h, swapInBegun_reg]

end

/-- A stream whose state is to be moved out, its request taken up. -/
def swapOutBegun (e : Nat) (s : State) : State :=
  State.setStrLoc { s with swapReqs := s.swapReqs.filter (fun (q : StreamReq) => q.entry != e) } e 1

section
variable (s : State) (e : Nat)

theorem swapOutBegun_swapChan : (swapOutBegun e s).swapChan e = s.swapChan e := swapChan_setStrLoc _ e 1

theorem swapOutBegun_xfer : swapXfer (swapOutBegun e s) e true
    = ⟨.swapOut e, swapDesc (s.setStrLoc e 1) e true, s.strCtx e, false, none⟩ := by
  rw [← strCtx_setStrLoc s e 1]
  rfl

/-- A pending swap-out of a resident stream with no chunk queued is posted where its channel's queue has room (R204). -/
theorem swapOutStart_posts (hl : s.strLoc e = 0) (hb : s.strBusy e = false)
    (hq : s.swapReqs.any (fun q => q.entry == e && q.out) = true)
    (h : (s.chan (s.swapChan e).1 (s.swapChan e).2).queue.length < 8) :
    swapOutStart e s = enqueue (s.swapChan e).1 (s.swapChan e).2
      ⟨.swapOut e, swapDesc (s.setStrLoc e 1) e true, s.strCtx e, false, none⟩ (swapOutBegun e s) := by
  have hbegin : swapOutStart e s = postSwap e true (swapOutBegun e s) := by
    unfold swapOutStart
    exact if_pos (by rw [hq, hl, hb]; rfl)
  rw [hbegin, postSwap_room _ _ _ (by rw [swapOutBegun_swapChan]; exact h), swapOutBegun_swapChan, swapOutBegun_xfer]

end

/-! ### The end of a swap's transfer (R203, R204) -/

theorem semAdd_frame (n x k v : Nat) (s : State) :
    semAdd n x k v s = { s with regs := (semAdd n x k v s).regs, ctxs := (semAdd n x k v s).ctxs } := by
  unfold semAdd
  split
  · dsimp only
    split <;> rfl
  · rfl

/-- A channel once its transfer has ended (R138). -/
def Chan.ended (h : Chan) : Chan :=
  { h with cur := none, requested := 0, moved := 0, page := 0, refused := false, room := false, src := none }

/-- Neither the stream table nor the record of a core differs, nor a counter other than that of the transfers that core `n` has
finished. -/
def TransferEndKeeps (n : Nat) (s t : State) : Prop :=
  t.streams = s.streams ∧ t.cores = s.cores ∧ ∀ k, k ≠ cntKey (Pg.spd4 n) 2 → t.counter k = s.counter k

theorem transferEndKeeps_semAdd (n m x k v : Nat) (s : State) : TransferEndKeeps n s (semAdd m x k v s) := by
  rw [semAdd_frame]
  exact ⟨rfl, rfl, fun _ _ => rfl⟩

/-- The end of a swap frees its channel and signals what its descriptor names; no region's HEAD or TAIL moves (R203). -/
theorem finishXfer_swap (s : State) (n c : Nat) (t : DmaDesc) (hcur : (s.chan n c).cur = some t)
    (hk : (∃ e, t.kind = .swapIn e) ∨ ∃ e, t.kind = .swapOut e) :
    TransferEndKeeps n (s.setChan n c (s.chan n c).ended) (finishXfer n c s) := by
  have hsem : TransferEndKeeps n (s.setChan n c (s.chan n c).ended)
      (if Op.sigEn t.desc then semAdd n t.ctx (Op.sigSem t.desc) 1 (s.setChan n c (s.chan n c).ended)
        else s.setChan n c (s.chan n c).ended) := by
    split
    · exact transferEndKeeps_semAdd ..
    · exact ⟨rfl, rfl, fun _ _ => rfl⟩
  have hcount : TransferEndKeeps n (s.setChan n c (s.chan n c).ended)
      ((chanStatus n c 0 (if Op.sigEn t.desc then semAdd n t.ctx (Op.sigSem t.desc) 1 (s.setChan n c (s.chan n c).ended)
        else s.setChan n c (s.chan n c).ended)).count (Pg.spd4 n) 2 1) := by
    obtain ⟨hstreams, hcores, hcnt⟩ := hsem
    exact ⟨hstreams, hcores, fun k hne => (State.counter_count_ne _ _ _ _ k hne).trans (hcnt k hne)⟩
  unfold finishXfer
  dsimp only
  split
  · next he => cases he.symm.trans hcur
  · next u hu =>
    obtain rfl : u = t := Option.some.inj (hu.symm.trans hcur)
    have hfills : (∃ e, u.kind = .swapOut e) → u.fills = false := fun ⟨e, he⟩ => by simp [DmaDesc.fills, he]
    obtain ⟨e, he⟩ | ⟨e, he⟩ := hk
    · rw [he]
      cases u.host <;> exact hcount
    · rw [he, hfills ⟨e, he⟩]
      cases u.host <;> exact hcount

section
variable {s : State} {e n c : Nat}

/-- A swap that ends runs on its channel. -/
theorem swapEnds_cur {k : DmaKind} (h : s.swapEnds e k = some (n, c)) : ∃ t, (s.chan n c).cur = some t ∧ t.kind = k := by
  unfold State.swapEnds at h
  dsimp only at h
  split at h
  · next t ht =>
    split at h
    · next hc =>
      rw [Option.some.injEq, Prod.mk.injEq] at h
      obtain ⟨rfl, rfl⟩ := h
      exact ⟨t, ht, hc.1⟩
    · cases h
  · cases h

variable (v : Nat)

/-- The stream in its new place, and its channel free, once the transfer of its swap has ended. -/
theorem swapEnd_keeps {k : DmaKind} (h : s.swapEnds e k = some (n, c)) (hk : k = .swapIn e ∨ k = .swapOut e) :
    TransferEndKeeps n ((s.setStrLoc e v).setChan n c (s.chan n c).ended) (finishXfer n c (s.setStrLoc e v)) := by
  obtain ⟨t, hcur, hkind⟩ := swapEnds_cur h
  refine finishXfer_swap (s.setStrLoc e v) n c t hcur ?_
  obtain rfl | rfl := hk
  · exact .inl ⟨e, hkind⟩
  · exact .inr ⟨e, hkind⟩

variable {t : State} (h : TransferEndKeeps n ((s.setStrLoc e v).setChan n c (s.chan n c).ended) t)
include h

theorem TransferEndKeeps.strLoc (hv : v < 4) : t.strLoc e = v := by
  obtain ⟨hstreams, -, -⟩ := h
  rw [strLoc_of_streams hstreams]
  exact strLoc_setStrLoc s e v hv

theorem TransferEndKeeps.cur : (t.chan n c).cur = none := by
  obtain ⟨-, hcores, -⟩ := h
  have hcore : t.core n = ((s.setStrLoc e v).setChan n c (s.chan n c).ended).core n := by rw [State.core, hcores, State.core]
  rw [chan_of_core hcore, State.chan_setChan_same]
  rfl

theorem TransferEndKeeps.strBusy : t.strBusy e = s.strBusy e := by
  obtain ⟨-, hcores, -⟩ := h
  refine strBusy_of_scanQ (fun m => ?_) e
  rw [State.core, hcores, ← State.core, setChan_core_keeps _ _ _ Core.scanQ setChan_scanQ]
  rfl

theorem TransferEndKeeps.counter {k : Nat} (hk : k ≠ cntKey (Pg.spd4 n) 2) : t.counter k = s.counter k := by
  obtain ⟨-, -, hcnt⟩ := h
  exact hcnt k hk

end

/-! ### The statement -/

section
variable (s : State) (iid : Fin 24) (e : Fin 4096)

theorem strSwapOut_requests (hv : s.strValid e = true) (h : s.Admits iid R.STR_CMD .ctlStr 0)
    (hsel : s.fld R.STR_SEL F.STR_SEL_INDEX = e.val) (ho : s.strOwned e = true) (hl : s.strLoc e = 0)
    (hq : s.swapReqs.any (fun q => q.entry == e.val && q.out) = false) :
    exec (.strSwapOut iid) s
      = .next (State.setReg { s with swapReqs := s.swapReqs ++ [⟨e, true, false⟩] } R.STR_STATUS 0) :=
  exec_strCmdInstr_done h 2 (by rw [hsel]; exact strCmd_swapOut ho hv hl hq) rfl

/-- SWAP_IN of a swapped stream posts its swap (R203, R204). -/
theorem strSwapIn_posts (hv : s.strValid e = true) (h : s.Admits iid R.STR_CMD .ctlStr 0)
    (hsel : s.fld R.STR_SEL F.STR_SEL_INDEX = e.val) (ho : s.strOwned e = true) (hl : s.strLoc e = 2)
    (hroom : (s.chan (s.swapChan e).1 (s.swapChan e).2).queue.length < 8) :
    exec (.strSwapIn iid) s = .next ((swapInPosted e false s).setReg R.STR_STATUS 0) := by
  have hpage : (Pg.ctlStr + Hdr.errStat) / 4096 ≠ Pg.spd4 (s.swapChan e).1 / 4096 := by
    unfold Pg.ctlStr Hdr.errStat Pg.spd4
    omega
  rw [← startSwapIn_posts s e false hroom]
  refine exec_strCmdInstr_done h 3 (by rw [hsel]; exact strCmd_swapIn ho hv hl) ?_
  rw [startSwapIn_posts s e false hroom, swapInPosted_reg _ _ _ hpage]

end

/-- Settles O22: the two commands by the request and the post that they leave, the start of a swap-out by its post, and the two
ends by what the end of their transfer keeps. -/
theorem streamsSwapOutAndIn : Obligations.StreamsSwapOutAndIn := by
  unfold Obligations.StreamsSwapOutAndIn
  intro s iid e hv hcore n ch
  refine ⟨fun h hsel ho hl hq => ?_, fun hl hb hq hroom => ?_, fun hl hb hend => ?_, fun h hsel ho hl hroom => ?_, fun hl hend => ?_⟩
  · exact ⟨_, strSwapOut_requests s iid e hv h hsel ho hl hq, rfl, rfl⟩
  · refine ⟨_, congrArg Host.Outcome.next (swapOutStart_posts s e hl hb hq hroom), strLoc_setStrLoc _ e 1 (by decide), ?_, rfl⟩
    rw [enqueue_chan]
    rfl
  · have hkeeps := swapEnd_keeps 2 hend (.inr rfl)
    have hexec : swapOutDone e s = (finishXfer n ch (s.setStrLoc e 2)).count Pg.ctlStr 1 1 := by
      unfold swapOutDone
      rw [hend]
      have hbusy : ((finishXfer n ch (s.setStrLoc e 2)).count Pg.ctlStr 1 1).strBusy e = false := (hkeeps.strBusy 2).trans hb
      exact if_neg (by rw [hbusy]; decide)
    have hkey : cntKey Pg.ctlStr 1 ≠ cntKey (Pg.spd4 n) 2 := by
      unfold cntKey Pg.ctlStr Pg.spd4
      omega
    refine ⟨_, congrArg Host.Outcome.next hexec, hkeeps.strLoc 2 (by decide), hkeeps.cur 2, ?_⟩
    rw [State.counter_count_same, hkeeps.counter 2 hkey]
  · refine ⟨_, strSwapIn_posts s iid e hv h hsel ho hl hroom, swapInPosted_strLoc s e false, ?_⟩
    rw [chan_of_core (State.setReg_core ..), swapInPosted_chan, List.getLast?_append]
    rfl
  · have hkeeps := swapEnd_keeps 0 hend (.inl rfl)
    refine ⟨swapInDone e s, rfl, ?_⟩
    unfold swapInDone
    rw [hend]
    dsimp only
    split
    · exact ⟨hkeeps.strLoc 0 (by decide), hkeeps.cur 0⟩
    · exact ⟨hkeeps.strLoc 0 (by decide), hkeeps.cur 0⟩

end Sys2Proof.Machine
end

section
/-! PROOFS. The scan queue (R202, R203, R205, R211): an ISSUE of SCAN posts its chunk, with a swap-in where its stream is swapped;
the oldest chunk of a queue starts, faults or waits too long. -/

namespace Sys2Proof.Machine

/-! ### SCAN (R202, R203) -/

/-- The chunk that an ISSUE of SCAN at the PC of core `n` posts for context `x` and table entry `e`. -/
def chunkAt (s : State) (n x e : Nat) : ScanChunk :=
  ⟨s.descAt n (bitsOf (s.slot n (s.pc n)).toNat 13 0), x, e, s.dtime, false⟩

/-- The chunk has joined its core's queue. -/
def chunkPosted (n : Nat) (c : ScanChunk) (s : State) : State := s.modCore n (fun k => { k with scanQ := k.scanQ ++ [c] })

section
variable (s : State) (n : Nat) (c : ScanChunk)

theorem chunkPosted_core : (chunkPosted n c s).core n = { s.core n with scanQ := (s.core n).scanQ ++ [c] } :=
  State.core_modCore_same _ _ _

theorem chunkPosted_chan (k : Nat) : (chunkPosted n c s).chan n k = s.chan n k := by
  rw [State.chan, chunkPosted_core]
  rfl

theorem chunkPosted_swapChan (e : Nat) (h : s.strCore e = n) : (chunkPosted n c s).swapChan e = (n, (s.swapChan e).2) :=
  Prod.ext h rfl

theorem chunkPosted_frame : chunkPosted n c s = { s with cores := (chunkPosted n c s).cores } := rfl

end

section
variable (s : State) (e : Nat)

theorem strLookup_resident (h : s.strLoc e = 0) : strLookup e s = s := by
  unfold strLookup
  exact if_neg (by rw [h]; simp)

/-- A posted chunk of a swapped stream, whose home is the chunk's core, starts the stream's swap-in where the channel's queue has
room (R203). -/
theorem strLookup_swapped (n : Nat) (c : ScanChunk) (hv : s.strValid e = true) (hloc : s.strLoc e = 2) (hcore : s.strCore e = n)
    (hn : n ≤ 17) (hqueue : (s.chan n (s.swapChan e).2).queue.length < 8) :
    strLookup e (chunkPosted n c s) = swapInPosted e true (chunkPosted n c s) := by
  have hvalid : (chunkPosted n c s).strValid e = true := hv
  have hcore' : (chunkPosted n c s).strCore e = n := hcore
  have hloc' : (chunkPosted n c s).strLoc e = 2 := hloc
  rw [← startSwapIn_posts _ e true (by rw [chunkPosted_swapChan s n c e hcore, chunkPosted_chan]; exact hqueue)]
  unfold strLookup
  exact if_pos (by rw [hvalid, hloc', hcore', decide_eq_true hn]; rfl)

end

section
variable {n p st : Nat} {l : List Nat} {s t : State} (h : SeqAt n p st l s t)
include h

theorem SeqAt.streams : t.streams = s.streams := by rw [h.frame]

theorem SeqAt.spad : t.spad = s.spad := by rw [h.frame]

theorem SeqAt.da : t.da = s.da := by rw [h.frame]

end

section
variable (s : State) (n : Nat)

/-- The sequencer goes on from a state whose loops lead to slot `q`. -/
theorem seqAt_coreStatus_seqNext (x p : Nat) (q : List LoopFrame × Nat) (h : loopStep (s.core n).loops p = q) (hq : q.2 ≤ 16383) :
    SeqAt n q.2 Seq.running [] s (coreStatus n (seqNext n x p s)) := by
  rw [seqNext_eq n x p s q h hq]
  exact (seqAt_seqAdvanced n s q.1 hq).coreStatus

/-- A sequencer that goes on leaves its core's channels alone. -/
theorem coreStatus_seqNext_chan (x p : Nat) (q : List LoopFrame × Nat) (h : loopStep (s.core n).loops p = q) (hq : q.2 ≤ 16383)
    (k : Nat) : (coreStatus n (seqNext n x p s)).chan n k = s.chan n k := by
  rw [seqNext_eq n x p s q h hq, State.chan, coreStatus_core, seqAdvanced_core]
  rfl

variable {x : Nat} (h : s.AtInstr n x 1) (hslot : bitsOf (s.slot n (s.pc n)).toNat 13 0 + 7 ≤ 16383)
  (hop : Op.opcode (s.descAt n (bitsOf (s.slot n (s.pc n)).toNat 13 0)) = 7)
include h hslot hop

/-- An ISSUE of SCAN finds room in its core's queue or is illegal (R202, R203). -/
theorem postScan_at {e : Nat}
    (he : s.strEntry x (Scan.stream (s.descAt n (bitsOf (s.slot n (s.pc n)).toNat 13 0))) = some e) :
    postScan n s = if 16 ≤ (s.core n).scanQ.length then seqIllegal n x s
      else coreStatus n (seqNext n x (s.pc n) (strLookup e (chunkPosted n (chunkAt s n x e) s))) := by
  rw [postScan, issueInstr, seqInstr_at h _ (by decide) (by decide)]
  dsimp only
  rw [if_neg (by omega), if_neg (by omega), if_neg (by omega), if_pos (by rw [hop]; rfl), h.noDrain, if_neg Bool.false_ne_true, he]
  rfl

end

/-! ### The start of a chunk (R202, R205, R211) -/

theorem leastBelow_zero (n : Nat) (p : Nat → Bool) (hn : 0 < n) (h : p 0 = true) : leastBelow n p = some 0 := by
  induction n with
  | zero => exact absurd hn (Nat.lt_irrefl 0)
  | succ n ih =>
    rw [leastBelow]
    by_cases hz : n = 0
    · rw [hz, leastBelow]
      exact if_pos h
    · rw [ih (Nat.pos_of_ne_zero hz)]

/-- The operation that a chunk becomes, with its stream's RESET latched. -/
def chunkOp (s : State) (n : Nat) (c : ScanChunk) : OpFlight :=
  { mkOp s ⟨n, c.ctx, 1, 1, 0, 0⟩ c.desc .scan [n] with
    shadow := true, entry := c.entry, resetMark := s.strReset c.entry
    rgns := ((scanReads c.desc).map (·.1) ++ [Op.regOut c.desc]).eraseDups.map (fun r => (r, s.rgn n r))
    outs := if Scan.outEn c.desc then [(Op.regOut c.desc, Scan.outRows c.desc)] else [] }

/-- The oldest chunk of a core's queue runs. -/
def chunkStarted (n : Nat) (c : ScanChunk) (s : State) : State :=
  coreStatus n ((disarm n (chunkOp s n c) s).modCore n (fun k => { k with
    ops := [chunkOp s n c], scanQ := modNth k.scanQ 0 (fun q => { q with running := true }) }))

section
variable (s : State) (n : Nat)

theorem disarm_frame (o : OpFlight) : disarm n o s = { s with cores := (disarm n o s).cores } := by
  unfold disarm
  split <;> rfl

theorem disarm_scanQ (o : OpFlight) : ((disarm n o s).core n).scanQ = (s.core n).scanQ := by
  unfold disarm
  split
  · rw [State.core_modCore_same]
  · rfl

theorem chunkStarted_frame (c : ScanChunk) : CoreOnly s (chunkStarted n c s) := by
  unfold CoreOnly chunkStarted
  rw [coreStatus_regsOnly, disarm_frame]
  rfl

theorem chunkStarted_core (c : ScanChunk) : (chunkStarted n c s).core n = { (disarm n (chunkOp s n c) s).core n with
    ops := [chunkOp s n c], scanQ := modNth (s.core n).scanQ 0 (fun q => { q with running := true }) } := by
  rw [chunkStarted, coreStatus_core, State.core_modCore_same, disarm_scanQ]

variable {c : ScanChunk} {rest : List ScanChunk} (hq : (s.core n).scanQ = c :: rest)
include hq

theorem dropChunk_front : dropChunk n 0 s = s.setCore n { s.core n with scanQ := rest } := by
  rw [dropChunk, State.modCore, hq]
  rfl

/-- No older chunk holds back the oldest one of a queue (R202). -/
theorem eligible_front : s.eligible n 0 = (!c.running && (!s.strValid c.entry || s.strLoc c.entry == 0)) := by
  unfold State.eligible
  rw [hq]
  simp

/-- The oldest chunk of a free core, whose stream is resident, is decided by its checks (R202, R205). -/
theorem scanStart_front (hon : s.domOn n = true) (hops : (s.core n).ops = []) (hrun : c.running = false)
    (hl : s.strLoc c.entry = 0) :
    scanStart n false s = if (scanFaults s n c.ctx c.desc).2 = [] then chunkStarted n c s
      else ctxFaults c.ctx (some n) [] (Op.tag c.desc) (scanFaults s n c.ctx c.desc).2
        (countChk n (scanFaults s n c.ctx c.desc).1 (s.setCore n { s.core n with scanQ := rest })) := by
  have hfirst : leastBelow (s.core n).scanQ.length (fun k => s.eligible n k) = some 0 :=
    leastBelow_zero _ _ (by rw [hq]; exact Nat.zero_lt_succ _) (by rw [eligible_front s n hq, hrun, hl]; simp)
  have hget : (s.core n).scanQ[0]? = some c := by rw [hq]; rfl
  unfold scanStart
  dsimp only
  rw [if_neg (by rw [hops, hon]; decide), hfirst]
  dsimp only
  rw [hget]
  dsimp only
  rw [if_neg Bool.false_ne_true, dropChunk_front s n hq]
  split
  · next he => rw [if_pos he]; rfl
  · next he => exact (if_neg he).symm

/-- The oldest chunk, whose stream is not resident, has waited too long (R203, R210). -/
theorem scanTimeout_front (hv : s.strValid c.entry = true) (hrun : c.running = false) (hl : s.strLoc c.entry ≠ 0)
    (hlimit : s.reg (R.VEC_SCAN_WAIT_LIMIT n) ≠ 0) :
    scanTimeout n 0 s
      = ctxFault c.ctx (some n) [] Flt.watchdog 0 (Op.tag c.desc) (errEvent (Pg.vec n) E.vec_SCAN_WAIT s) := by
  have hget : (s.core n).scanQ[0]? = some c := by rw [hq]; rfl
  unfold scanTimeout
  rw [hget]
  dsimp only
  exact if_neg (by rw [eligible_front s n hq, hrun, hv]; simpa [hl] using hlimit)

end

/-! ### The statement -/

section
variable (s : State) (n : Fin 18) (x : Nat) (q : List LoopFrame × Nat) (h : s.AtInstr n x 1)
  (hl : loopStep (s.core n).loops (s.pc n) = q) (hq : q.2 ≤ 16383)
  (hslot : bitsOf (s.slot n (s.pc n)).toNat 13 0 + 7 ≤ 16383)
  (hop : Op.opcode (s.descAt n (bitsOf (s.slot n (s.pc n)).toNat 13 0)) = 7) (e : Nat)
  (he : s.strEntry x (Scan.stream (s.descAt n (bitsOf (s.slot n (s.pc n)).toNat 13 0))) = some e)
include h hl hq hslot hop he

/-- A chunk that finds room lets the sequencer go on from what its stream's lookup leaves (R202). -/
theorem scan_goesOn (hroom : (s.core n).scanQ.length < 16) {u : State} (hu : strLookup e (chunkPosted n (chunkAt s n x e) s) = u)
    (hloops : (u.core n).loops = (s.core n).loops) :
    ∃ t, exec (.scan n) s = .next t ∧ SeqAt n q.2 Seq.running [] u t ∧ ∀ k, t.chan n k = u.chan n k := by
  have hpost := postScan_at s n h hslot hop he
  rw [if_neg (Nat.not_le.mpr hroom), hu] at hpost
  rw [← hloops] at hl
  exact ⟨_, congrArg Host.Outcome.next hpost, seqAt_coreStatus_seqNext u n x _ q hl hq, coreStatus_seqNext_chan u n x _ q hl hq⟩

/-- A chunk of a resident stream waits in its core's queue (R202). -/
theorem scan_resident (hroom : (s.core n).scanQ.length < 16) (hloc : s.strLoc e = 0) :
    ∃ t, exec (.scan n) s = .next t ∧ t.pc n = q.2 ∧ t.seqState n = Seq.running
      ∧ (t.core n).scanQ = (s.core n).scanQ ++ [chunkAt s n x e] ∧ t = { s with regs := t.regs, cores := t.cores } := by
  have hcore := chunkPosted_core s n (chunkAt s n x e)
  obtain ⟨t, hexec, hat, -⟩ := scan_goesOn s n x q h hl hq hslot hop e he hroom (strLookup_resident _ e hloc) (by rw [hcore])
  have ⟨_, _, _, hscan, _⟩ := hat
  exact ⟨t, hexec, hat.pc_eq, hat.seqState_eq, by rw [hscan, hcore], hat.frame⟩

/-- A chunk of a swapped stream starts its swap-in on the core's own channel (R203). -/
theorem scan_swapped (hroom : (s.core n).scanQ.length < 16) (hv : s.strValid e = true) (hloc : s.strLoc e = 2)
    (hcore : s.strCore e = n.val) (hqueue : (s.chan n (s.swapChan e).2).queue.length < 8) :
    ∃ t, exec (.scan n) s = .next t ∧ t.pc n = q.2 ∧ (t.core n).scanQ = (s.core n).scanQ ++ [chunkAt s n x e]
      ∧ t.strLoc e = 3 ∧ ((t.chan n (s.swapChan e).2).queue.getLast?.map (·.kind)) = some (.swapIn e)
      ∧ t.spad = s.spad ∧ t.da = s.da := by
  have hposted := chunkPosted_core s n (chunkAt s n x e)
  have hlookup := strLookup_swapped s e n (chunkAt s n x e) hv hloc hcore (by omega) hqueue
  have hchan := swapInPosted_chan (chunkPosted n (chunkAt s n x e) s) e true
  rw [chunkPosted_swapChan s n _ e hcore] at hchan
  obtain ⟨t, hexec, hat, hkept⟩ := scan_goesOn s n x q h hl hq hslot hop e he hroom hlookup
    (by rw [swapInPosted_core_keeps _ e true Core.loops setChan_loops, hposted])
  have ⟨_, _, _, hscan, _⟩ := hat
  refine ⟨t, hexec, hat.pc_eq, ?_, ?_, ?_, ?_, ?_⟩
  · rw [hscan, swapInPosted_core_keeps _ e true Core.scanQ setChan_scanQ, hposted]
  · rw [strLoc_of_streams hat.streams, swapInPosted_strLoc]
  · rw [hkept, hchan, List.getLast?_append]
    rfl
  · rw [hat.spad, swapInPosted_spad, chunkPosted_frame]
  · rw [hat.da, swapInPosted_da, chunkPosted_frame]

omit hl hq in
/-- A full scan queue is SEQ_ILLEGAL (R203). -/
theorem scan_full (hfull : 16 ≤ (s.core n).scanQ.length) :
    exec (.scan n) s = .next (ctxFault x (some n.val) [] Flt.illegal 0 0 s) :=
  congrArg Host.Outcome.next ((postScan_at s n h hslot hop he).trans (if_pos hfull))

end

/-- Settles O20: the post of a chunk by the outcome of its lookup, and the oldest chunk of a queue by the outcome of its checks. -/
theorem scansPostAndStart : Obligations.ScansPostAndStart := by
  unfold Obligations.ScansPostAndStart
  constructor
  · intro s n x q h hl hq slot d hslot hop e he chunk
    exact ⟨fun hroom _ hloc => scan_resident s n x q h hl hq hslot hop e he hroom hloc,
      fun hroom hv hloc hcore hqueue => scan_swapped s n x q h hl hq hslot hop e he hroom hv hloc hcore hqueue,
      fun hfull => scan_full s n x h hslot hop e he hfull⟩
  · intro s n c rest hq f
    refine ⟨fun hon hops hrun _ hloc hf => ?_, fun hon hops hrun _ hloc hf => ?_, fun hrun hv hloc hlimit => ?_⟩
    · have hstart := (scanStart_front s n hq hon hops hrun hloc).trans (if_pos hf)
      have hcore := chunkStarted_core s n c
      refine ⟨_, chunkOp s n c, congrArg Host.Outcome.next hstart, by rw [hcore], rfl, rfl, rfl, rfl, rfl, rfl, ?_, ?_⟩
      · rw [hcore, hq]
        rfl
      · exact chunkStarted_frame s n c
    · exact congrArg Host.Outcome.next ((scanStart_front s n hq hon hops hrun hloc).trans (if_neg hf))
    · exact congrArg Host.Outcome.next (scanTimeout_front s n hq hv hrun hloc hlimit)

end Sys2Proof.Machine
end

section
/-! PROOFS. CONTROL entries (R197, R353, R358, R362): the entry that a command of the control complex acts on, the commits that
REGION and MODEL leave to a core's operation boundary, and the stream entries that STREAM_OP and STREAM_WRITE change. -/

namespace Sys2Proof.Machine

/-! ### Entries (R333, R358) -/

section
variable {s : State} {id : Nat} {e : Entry}

theorem entry_id (h : s.entry id = some e) : e.id = id :=
  beq_iff_eq.mp (List.find?_some (p := fun b : Entry => b.id == id) h)

theorem entry_of_hif {t : State} (h : t.hif = s.hif) : t.entry id = s.entry id := by
  rw [State.entry, h, State.entry]

/-- A change of entries that keeps their numbers is seen at each of them. -/
theorem find_map_id (l : List Entry) (g : Entry → Entry) (hg : ∀ e, (g e).id = e.id) :
    (l.map g).find? (fun e => e.id == id) = (l.find? (fun e => e.id == id)).map g := by
  rw [List.find?_map]
  refine congrArg _ (congrArg (fun p => List.find? p l) (funext fun e => ?_))
  rw [Function.comp_apply, hg]

/-- An entry in progress that completes shows how and when (R336). -/
theorem entryDone_st (h : s.entry id = some e) (hst : ∀ a b c d, e.st ≠ .done a b c d) (a b c : Nat) :
    ((entryDone id a b c s).entry id).map (·.st) = some (.done a b c s.dtime) := by
  have hid := entry_id h
  unfold State.entry at h
  unfold entryDone State.entry
  rw [find_map_id, h]
  · rw [Option.map_some, Option.map_some, if_pos hid]
    split
    · next he => exact absurd he (hst _ _ _ _)
    · rfl
  · intro e
    split
    · split <;> rfl
    · rfl

theorem entryStart_st (h : s.entry id = some e) (hst : e.st = .fetched) :
    ((entryStart id s).entry id).map (·.st) = some .started := by
  have hid := entry_id h
  unfold State.entry at h
  unfold entryStart State.entry
  rw [find_map_id, h]
  · rw [Option.map_some, Option.map_some, if_pos ⟨hid, hst⟩]
  · intro e
    split <;> rfl

theorem canStart_st (h : s.canStart e = true) : e.st = .fetched := by
  unfold State.canStart at h
  simp only [Bool.and_eq_true, beq_iff_eq] at h
  obtain ⟨⟨⟨⟨⟨hst, -⟩, -⟩, -⟩, -⟩, -⟩ := h
  exact hst

theorem canStart_notDone (h : s.canStart e = true) (a b c d : Nat) : e.st ≠ .done a b c d := by
  rw [canStart_st h]
  exact EntSt.noConfusion

theorem entryDone_str (a b c i w : Nat) : (entryDone id a b c s).str i w = s.str i w := rfl

section
variable (he : s.entry id = some e) (hop : e.opcode = 4) (hs : s.canStart e = true)
include he hop hs

theorem withControl_at {cmd : Nat} (hc : Con.cmd e = cmd) (f : Entry → State → State) : withControl id cmd f s = f e s := by
  unfold withControl withEntry
  rw [he]
  dsimp only
  rw [if_pos ⟨hop, hs⟩, if_pos hc]

end

end

/-- The physical core of an entry's context core (R353). -/
theorem core_of_entry {s : State} {e : Entry} {n : Nat} (h : (s.ctx e.ctx).cores[Con.core e]? = some n) :
    (s.ctx e.ctx).cores.getD (Con.core e) 31 = n := by
  rw [List.getD_eq_getElem?_getD, h]
  rfl

/-! ### Commits for an entry (R358) -/

/-- A commit for an entry joins the pending commits of its page and waits for the core's operation boundary. -/
theorem hostCommit_joins {s : State} {id : Nat} {e : Entry} (he : s.entry id = some e) (hst : e.st = .fetched) (base : Nat)
    (ws : List RWrite) (hopen : (s.txn (base / 4096)).openTxn = none) (hroom : (s.txn (base / 4096)).pend.length < 4) :
    ∃ p, ((hostCommit e base ws s).txn (base / 4096)).pend = (s.txn (base / 4096)).pend ++ [p] ∧ p.writes = ws ∧ p.apply = 1
      ∧ p.host = some id ∧ ((hostCommit e base ws s).entry id).map (·.st) = some .started
      ∧ (hostCommit e base ws s).regs = s.regs ∧ (hostCommit e base ws s).spad = s.spad := by
  have hid := entry_id he
  have hstart := entryStart_st he hst
  unfold hostCommit
  dsimp only
  rw [hopen, if_neg (by simp; omega), hid]
  exact ⟨_, by rw [State.txn_setTxn_same], rfl, rfl, rfl, hstart, rfl, rfl⟩

section
variable {s : State} {id : Nat} {e : Entry} (he : s.entry id = some e) (hop : e.opcode = 4) (hs : s.canStart e = true)
  {n : Nat} (hn : (s.ctx e.ctx).cores[Con.core e]? = some n)
include he hop hs hn

/-- The words that REGION commits: the descriptor of its region, owned by the context (R358). -/
theorem region_commits (hc : Con.cmd e = 3) : exec (.region id) s = .next (hostCommit e (Pg.spd5 n)
    [⟨R.SPD_REGION_GEOM n (Con.index e), 0xFFFFFFFF#32, Con.data e 0⟩,
      ⟨R.SPD_REGION_OWNER n (Con.index e), 0x003FFFFF#32,
        wordSet (Con.data e 1) F.SPD_REGION_OWNER_CTX e.ctx &&& 0x003FFFFF#32⟩,
      ⟨R.SPD_REGION_HEAD n (Con.index e), 0x0001FFFF#32, Con.data e 2 &&& 0x0001FFFF#32⟩,
      ⟨R.SPD_REGION_TAIL n (Con.index e), 0x0001FFFF#32, Con.data e 3 &&& 0x0001FFFF#32⟩] s) := by
  show Host.Outcome.next (regionEntry id s) = _
  rw [regionEntry, withControl_at he hop hs hc, core_of_entry hn]
  rfl

/-- A model's entry word with the context's instruction memory added to its slots (R358). -/
def modelWord (s : State) (e : Entry) : Word :=
  BitVec.ofNat 32 (wordFld (Con.data e 0) F.SEQ_MODEL_ENTRY + (s.placeOf e.ctx (Con.core e)).imemBase
    + 65536 * (wordFld (Con.data e 0) F.SEQ_MODEL_IMAGE + (s.placeOf e.ctx (Con.core e)).imemBase)
    + 2 ^ 31 * wordFld (Con.data e 0) F.SEQ_MODEL_VALID)

/-- The saved images of a context with model `m` of core `n` replaced. -/
def modelSaved (l : List SavedCore) (n m : Nat) (v : Word) : List SavedCore :=
  l.map (fun j => if j.core = n then { j with models := modNth j.models m (fun _ => v) } else j)

theorem model_entry (hc : Con.cmd e = 4) : exec (.model id) s = .next (if (s.core n).ctx = some e.ctx then
      hostCommit e (Pg.seq n) [⟨R.SEQ_MODEL n (Con.index e), 0xBFFF3FFF#32, modelWord s e &&& 0xBFFF3FFF#32⟩] s
    else entryDone id 0 0 0
      (s.modCtx e.ctx (fun c => { c with saved := modelSaved c.saved n (Con.index e) (modelWord s e) }))) := by
  show Host.Outcome.next (modelEntry id s) = _
  rw [modelEntry, withControl_at he hop hs hc, core_of_entry hn]
  rfl

/-- A model of a context that is not resident goes into its saved image (R362). -/
theorem model_saved (hc : Con.cmd e = 4) (hctx : (s.core n).ctx ≠ some e.ctx) :
    ∃ t, exec (.model id) s = .next t
      ∧ (t.ctx e.ctx).saved = modelSaved (s.ctx e.ctx).saved n (Con.index e) (modelWord s e)
      ∧ (t.entry id).map (·.st) = some (.done 0 0 0 s.dtime) ∧ t.regs = s.regs ∧ t.cores = s.cores := by
  have hexec := model_entry he hop hs hn hc
  rw [if_neg hctx] at hexec
  refine ⟨_, hexec, ?_, entryDone_st (e := e) he (canStart_notDone hs) 0 0 0, rfl, rfl⟩
  exact congrArg CtxRec.saved (State.ctx_setCtx_same _ _ _)

end

/-! ### Streams of a context (R197, R208, R358) -/

section
variable (s : State) (k : Nat) (w : Word)

theorem strOwned_setSel (e : Nat) : (s.setReg R.STR_SEL w).strOwned e = s.strOwned e :=
  strOwned_of_parts (fun x _ => State.reg_setReg_ne _ _ _ _ (by unfold R.STR_PART R.STR_SEL; omega)) e

theorem strHeld_of_regsOnly {s t : State} (h : RegsOnly s t) (e : Nat) : t.strHeld e = s.strHeld e := by
  rw [h]
  rfl

end

section
variable {s : State} {id : Nat} {e : Entry} (he : s.entry id = some e) (hop : e.opcode = 4) (hs : s.canStart e = true)
include he hop hs

section
variable (hc : Con.cmd e = 2) {k : Nat} (hk : s.strEntry e.ctx (Con.index e) = some k)
include hc hk

/-- A stream operation that is done completes its entry (R358). -/
theorem streamOp_done {t : State}
    (ht : strCmd (bitsOf (Con.data e 0).toNat 7 0) k (s.setReg R.STR_SEL (BitVec.ofNat 32 k)) = t) (hr : t.reg R.STR_STATUS = 0) :
    streamOp id s = entryDone id 0 0 0 t := by
  rw [streamOp, withControl_at he hop hs hc, hk]
  dsimp only
  rw [ht, hr]
  rfl

/-- A stream operation that finds its entry held waits (R358; log entry 4). -/
theorem streamOp_waits (ht : strCmd (bitsOf (Con.data e 0).toNat 7 0) k (s.setReg R.STR_SEL (BitVec.ofNat 32 k))
    = strResult 1 (s.setReg R.STR_SEL (BitVec.ofNat 32 k))) : streamOp id s = s := by
  rw [streamOp, withControl_at he hop hs hc, hk]
  dsimp only
  rw [ht, strResult_status]
  rfl

variable (ho : s.strOwned k = true)
include ho

theorem streamOp_setReset (hcmd : bitsOf (Con.data e 0).toNat 7 0 = 5) :
    ∃ t, exec (.streamOp id) s = .next t ∧ t.strReset k = true ∧ (t.entry id).map (·.st) = some (.done 0 0 0 s.dtime)
      ∧ t.spad = s.spad := by
  have ho' : (s.setReg R.STR_SEL (BitVec.ofNat 32 k)).strOwned k = true := (strOwned_setSel s _ k).trans ho
  have hdone := streamOp_done he hop hs hc hk (t := _) (by rw [hcmd]; exact strCmd_setReset ho') (State.reg_setReg_same _ _ _)
  refine ⟨_, congrArg Host.Outcome.next hdone, ?_, entryDone_st (e := e) he (canStart_notDone hs) 0 0 0, rfl⟩
  exact beq_iff_eq.mpr (State.strFld_setStrFld_same (s.setReg R.STR_SEL (BitVec.ofNat 32 k)) k 15 15 1 (by decide))

theorem streamOp_held (hcmd : bitsOf (Con.data e 0).toNat 7 0 = 6) (hh : s.strHeld k = true) : streamOp id s = s := by
  have ho' : (s.setReg R.STR_SEL (BitVec.ofNat 32 k)).strOwned k = true := (strOwned_setSel s _ k).trans ho
  refine streamOp_waits he hop hs hc hk ?_
  rw [hcmd]
  exact strCmd_held ho' 6 (.inr rfl) ((strHeld_of_regsOnly (.setReg s _ _) k).trans hh)

end

end

/-! ### STREAM_WRITE (R197, R358) -/

section
variable {f g : Nat → Word} (h : ∀ w, w < 4 → f w = g w) (s : State)
include h

theorem strStored_congr (k : Nat) : strStored k f s = strStored k g s := by
  simp only [strStored, iter, h 0 (by decide), h 1 (by decide), h 2 (by decide), h 3 (by decide)]

theorem strStaged_congr : strStaged f s = strStaged g s := by
  simp only [strStaged, iter, h 0 (by decide), h 1 (by decide), h 2 (by decide), h 3 (by decide)]

end

/-- The words of an entry that STREAM_WRITE stores for core `n`: CTX and CORE are forced (R358). -/
def forcedWords (e : Entry) (n w : Nat) : Word :=
  if w = 0 then wordSet (wordSet (Con.data e 0) ⟨7, 1⟩ e.ctx) ⟨12, 8⟩ n else Con.data e w

theorem forcedWords_getD (e : Entry) (n : Nat) {w : Nat} (hw : w < 4) :
    [BitVec.ofNat 32 (putBits (putBits (Con.data e 0).toNat 7 1 e.ctx) 12 8 n), Con.data e 1, Con.data e 2, Con.data e 3].getD w 0
      = forcedWords e n w := by
  have h0 : BitVec.ofNat 32 (putBits (putBits (Con.data e 0).toNat 7 1 e.ctx) 12 8 n)
      = wordSet (wordSet (Con.data e 0) ⟨7, 1⟩ e.ctx) ⟨12, 8⟩ n :=
    congrArg (fun v => BitVec.ofNat 32 (putBits v 12 8 n)) (wordSet_toNat (Con.data e 0) ⟨7, 1⟩ e.ctx (by decide)).symm
  match w with
  | 0 => exact h0
  | 1 | 2 | 3 => rfl

section
variable {s : State} {id : Nat} {e : Entry} (he : s.entry id = some e) (hop : e.opcode = 4) (hs : s.canStart e = true)
  {n : Nat} (hn : (s.ctx e.ctx).cores[Con.core e]? = some n) (hc : Con.cmd e = 1) {k : Nat}
  (hk : s.strEntry e.ctx (Con.index e) = some k)
include he hop hs hk hc

theorem streamWrite_held (hh : s.strHeld k = true) : streamWrite id s = s := by
  rw [streamWrite, withControl_at he hop hs hc, hk]
  exact if_pos hh

include hn

/-- A free entry takes the forced words by way of the staging words and WRITE, where they are placed as R197 has it (R358). -/
theorem streamWrite_free (hh : s.strHeld k = false) :
    streamWrite id s = if (strStored k (forcedWords e n) s).strPlaced n e.ctx k = false then entryDone id 1 4 18 s
      else entryDone id 0 0 0 (strCmd 1 k (strStaged (forcedWords e n) (s.setReg R.STR_SEL (BitVec.ofNat 32 k)))) := by
  have hwords := fun w hw => forcedWords_getD e n (w := w) hw
  have hstored := strStored_congr hwords s k
  have hstaged := strStaged_congr hwords (s.setReg R.STR_SEL (BitVec.ofNat 32 k))
  unfold strStored at hstored
  unfold strStaged at hstaged
  rw [streamWrite, withControl_at he hop hs hc, hk]
  dsimp only
  rw [if_neg (Bool.eq_false_iff.mp hh), core_of_entry hn, hstored, hstaged]
  exact if_congr (by rw [Bool.not_eq_true']; rfl) rfl rfl

variable (ho : s.strOwned k = true) (hh : s.strHeld k = false)
include ho hh

theorem streamWrite_stores (hp : (strStored k (forcedWords e n) s).strPlaced n e.ctx k = true) :
    ∃ t, exec (.streamWrite id) s = .next t ∧ (∀ w, w < 4 → t.str k w = forcedWords e n w)
      ∧ (t.entry id).map (·.st) = some (.done 0 0 0 s.dtime) ∧ ∀ o w, o ≠ k → w < 4 → t.str o w = s.str o w := by
  generalize hu : strStaged (forcedWords e n) (s.setReg R.STR_SEL (BitVec.ofNat 32 k)) = u
  have hregs : RegsOnly s u := hu ▸ (RegsOnly.setReg s _ _).trans (strStaged_regsOnly _ _)
  have hstage : ∀ w, w < 4 → u.reg (R.STR_STAGE w) = forcedWords e n w := fun w hw => by
    rw [← hu, strStaged_stage _ _ hw]
  have howned : u.strOwned k = true := by
    rw [← ho]
    refine strOwned_of_parts (fun x _ => ?_) k
    rw [← hu, strStaged_reg_ne _ _ (fun w hw => by unfold R.STR_PART R.STR_STAGE; omega),
      State.reg_setReg_ne _ _ _ _ (by unfold R.STR_PART R.STR_SEL; omega)]
  have hwrite := strCmd_write howned ((strHeld_of_regsOnly hregs k).trans hh)
  rw [strStored_congr hstage] at hwrite
  have hdone := streamWrite_free he hop hs hn hc hk hh
  rw [if_neg (by rw [hp]; decide), hu, hwrite] at hdone
  have hframe := (strStored_tableOnly (forcedWords e n) u k).setReg R.STR_STATUS 0
  refine ⟨_, congrArg Host.Outcome.next hdone, fun w hw => ?_, ?_, fun o w hne hw => ?_⟩
  · rw [entryDone_str, State.setReg_str, strStored_str _ u k hw]
  · rw [entryDone_st (e := e) _ (canStart_notDone hs)]
    · rw [hframe, hregs]
    · rw [entry_of_hif (s := s) (by rw [hframe, hregs]), he]
  · rw [entryDone_str, State.setReg_str, strStored_str_ne _ u k hne hw, hregs]
    rfl

end

/-- Settles O39: each command by what it makes of its entry, and its wait or rejection by the condition that R358 gives. -/
theorem controlEntriesAct : Obligations.ControlEntriesAct := by
  unfold Obligations.ControlEntriesAct
  intro s id e n he hop hs hn i commits
  have hst := canStart_st hs
  refine ⟨fun hc => ?_, fun hc => ⟨fun howner => ?_, fun howner => ?_⟩, fun hc => ?_, fun hc => ?_, fun hc k hk ho => ?_,
    fun hc k hk ho => ?_⟩
  · exact congrArg Host.Outcome.next (withControl_at he hop hs hc _)
  · exact congrArg Host.Outcome.next ((withControl_at he hop hs hc _).trans (if_pos howner))
  · exact congrArg Host.Outcome.next ((withControl_at he hop hs hc _).trans (if_neg howner))
  · intro hopen hroom
    obtain ⟨p, hp⟩ := hostCommit_joins he hst (Pg.spd5 n) _ hopen hroom
    exact ⟨_, p, region_commits he hop hs hn hc, hp⟩
  · refine ⟨fun hctx hopen hroom => ?_, model_saved he hop hs hn hc⟩
    obtain ⟨p, hp⟩ := hostCommit_joins he hst (Pg.seq n) _ hopen hroom
    exact ⟨_, p, (model_entry he hop hs hn hc).trans (congrArg _ (if_pos hctx)), hp⟩
  · exact ⟨streamOp_setReset he hop hs hc hk ho,
      fun hcmd hh => congrArg Host.Outcome.next (streamOp_held he hop hs hc hk ho hcmd hh)⟩
  · intro w0 ws placed
    refine ⟨fun hh => congrArg Host.Outcome.next (streamWrite_held he hop hs hc hk hh), fun hh hp => ?_,
      fun hh hp => streamWrite_stores he hop hs hn hc hk ho hh hp⟩
    exact congrArg Host.Outcome.next ((streamWrite_free he hop hs hn hc hk hh).trans (if_pos hp))

end Sys2Proof.Machine
end

section
/-! PROOFS. Sectors (R217, R219, R221, R223): what a store and a read leave of the memories, what a read delivers by its tag, and
the sector that its own owner cannot read back. -/

namespace Sys2Proof.Machine

/-! ### What the accesses of a sector leave of the memories -/

/-- The bytes of DA and of the scratchpads are as before. -/
def SameBytes (s t : State) : Prop := t.da = s.da ∧ t.spad = s.spad

theorem SameBytes.trans {s t u : State} (h : SameBytes s t) (k : SameBytes t u) : SameBytes s u :=
  ⟨k.1.trans h.1, k.2.trans h.2⟩

theorem LogOnly.sameBytes {s t : State} (h : LogOnly s t) : SameBytes s t := by
  rw [h]
  exact ⟨rfl, rfl⟩

theorem touchPage_sameBytes (p : Nat) (s : State) : SameBytes s (touchPage p s) := by
  rw [touchPage_frame]
  exact ⟨rfl, rfl⟩

section
variable (owner da : Nat) (s : State)

/-- A read counts what it meets and logs the poison that it delivers. -/
theorem readSector_sameBytes : SameBytes s (readSector owner da .clean s).2.2 := by
  have hlog (base src : Nat) (t : State) (h : SameBytes s t) : SameBytes s (poisonMade base owner src t) :=
    h.trans (poisonMade_frame _ _ _ _).sameBytes
  have hcount (t : State) (h : SameBytes s t) : SameBytes s (t.count Pg.mt1 5 1) := h
  have hfree : SameBytes s ((countFree (cntKey Pg.mt1 3) s).drew 512) := ⟨rfl, rfl⟩
  unfold readSector
  dsimp only
  generalize s.tagAt (da / 512 * 512) = held
  cases held with
  | none => exact hlog _ _ _ (hcount _ hfree)
  | some tag =>
    dsimp only
    split
    · exact hlog _ _ _ (hcount _ hfree)
    · split
      · exact ⟨rfl, rfl⟩
      · exact hlog _ _ _ (hcount _ ⟨rfl, rfl⟩)

end

/-! ### Tags (R217, R219, R221) -/

section
variable {owner da : Nat} {s : State} {tag : SecTag} (htag : s.tagAt (da / 512 * 512) = some tag)
include htag

/-- A sector is delivered under the owner, epoch and key generation of its tag, with its bytes and its poison. -/
theorem readSector_matches (howner : tag.owner = owner) (hepoch : tag.epoch = s.granuleEpoch (da / 512 * 512))
    (hgen : tag.gen = s.keyGen (2 * owner + tag.epoch)) :
    (readSector owner da .clean s).1 = Memory.readList s.da (da / 512 * 512) 512 ∧ (readSector owner da .clean s).2.1 = tag.poison
      ∧ (tag.poison = 0 → (readSector owner da .clean s).2.2 = s) := by
  unfold readSector
  dsimp only
  rw [htag]
  by_cases hp : tag.poison = 0 <;> simp [howner, ← hepoch, ← hgen, hp]

/-- Any difference from the tag is an integrity failure. -/
theorem readSector_differs
    (h : tag.owner ≠ owner ∨ tag.epoch ≠ s.granuleEpoch (da / 512 * 512) ∨ tag.gen ≠ s.keyGen (2 * owner + tag.epoch)) :
    (readSector owner da .clean s).2.1 = 4 := by
  unfold readSector
  dsimp only
  rw [htag]
  obtain h | h | h := h <;> simp [h]

end

theorem Memory.readList_writeList (m : List Host.Cell) (a : Nat) (bs : List Byte) (h : Memory.wf m = true) :
    Memory.readList (Memory.writeList m a bs) a bs.length = bs := by
  refine List.ext_getElem (Memory.length_readList ..) fun k hk hk' => ?_
  have hread := Memory.getD_readList bs.length (Memory.writeList m a bs) a k hk'
  rw [Memory.read_writeList bs m a _ h, if_pos (by omega), Nat.add_sub_cancel_left] at hread
  rwa [List.getD_eq_getElem _ _ hk, List.getD_eq_getElem _ _ hk'] at hread

section
variable (owner da src : Nat) (bs : List Byte) (s : State)

/-- Beyond DA and the tag, a store touches what the log entry of a poisoned one does. -/
theorem storeSector_logOnly : LogOnly
    { s with da := Memory.writeList s.da (da / 512 * 512) (bs.take 512),
             mt := { s.mt with tags := Tab.set s.mt.tags (da / 512 * 512 / 512)
                                         { s.tagNow owner (da / 512 * 512) with poison := src } } }
    (storeSector owner da src bs s) := by
  unfold storeSector
  dsimp only
  split
  · rfl
  · exact poisonMade_frame _ _ _ _

theorem storeSector_da : (storeSector owner da src bs s).da = Memory.writeList s.da (da / 512 * 512) (bs.take 512) := by
  rw [storeSector_logOnly]

theorem storeSector_spad : (storeSector owner da src bs s).spad = s.spad := by rw [storeSector_logOnly]

theorem storeSector_reg (a : Nat) (h1 : a / 4096 ≠ Pg.mt1 / 4096) (h2 : a / 4096 ≠ Pg.rel2 / 4096) :
    (storeSector owner da src bs s).reg a = s.reg a := by
  unfold storeSector
  dsimp only
  split
  · rfl
  · exact (logEntry_reg _ _ a h2).trans ((OnPage.errEvent _ Pg.mt1 _ rfl).1 a h1)

end

section
variable {owner da src : Nat} {bs : List Byte} {s : State}

theorem storeSector_page (p : Nat) : (storeSector owner da src bs s).page p = s.page p := by
  rw [State.page, storeSector_logOnly]
  rfl

theorem storeSector_keyGen (slot : Nat) : (storeSector owner da src bs s).keyGen slot = s.keyGen slot := by
  rw [State.keyGen, storeSector_logOnly]
  rfl

theorem storeSector_tagAt :
    (storeSector owner da src bs s).tagAt (da / 512 * 512) = some { s.tagNow owner (da / 512 * 512) with poison := src } := by
  rw [State.tagAt, storeSector_logOnly]
  simp [Tab.find_set]

/-- A store leaves a granule's epoch where the page's owner is one of the 16 tenants: its key register is then one of SEC's. -/
theorem storeSector_granuleEpoch (a : Nat) (h16 : (s.page (pageOf a)).owner.getD 0 < 16) :
    (storeSector owner da src bs s).granuleEpoch a = s.granuleEpoch a := by
  have hcur : (storeSector owner da src bs s).curEpoch ((s.page (pageOf a)).owner.getD 0)
      = s.curEpoch ((s.page (pageOf a)).owner.getD 0) := by
    unfold State.curEpoch State.fld
    rw [storeSector_reg] <;> unfold R.SEC_KEY Pg.secKey <;> [unfold Pg.mt1; unfold Pg.rel2] <;> omega
  have hsec : (storeSector owner da src bs s).sec = s.sec := by rw [storeSector_logOnly]
  unfold State.granuleEpoch
  dsimp only
  rw [storeSector_page, hcur, hsec]

/-- For a page of one of the 16 tenants, a sector reads back whole under the owner that stored it, with its poison. -/
theorem readSector_stored (hwf : Memory.wf s.da = true) (hlen : bs.length = 512)
    (h16 : (s.page (pageOf (da / 512 * 512))).owner.getD 0 < 16) :
    let t := storeSector owner da src bs s
    (readSector owner da .clean t).1 = bs ∧ (readSector owner da .clean t).2.1 = src
      ∧ (src = 0 → (readSector owner da .clean t).2.2 = t) := by
  have hread := readSector_matches (storeSector_tagAt (owner := owner) (src := src) (bs := bs) (s := s)) rfl
    (storeSector_granuleEpoch _ h16).symm (storeSector_keyGen _).symm
  have hback := Memory.readList_writeList s.da (da / 512 * 512) bs hwf
  rw [hlen] at hback
  rwa [storeSector_da, List.take_of_length_le hlen.le, hback] at hread

/-- A store gives no other owner the sector. -/
theorem readSector_stored_other {other : Nat} (h : other ≠ owner) :
    (readSector other da .clean (storeSector owner da src bs s)).2.1 = 4 :=
  readSector_differs storeSector_tagAt (.inl h.symm)

/-- A key replaced since makes the sector of a tenant's page unreadable for its own owner. -/
theorem readSector_stored_rekeyed {g : Nat} (h : g ≠ s.keyGen (2 * owner + s.granuleEpoch (da / 512 * 512))) :
    let t := storeSector owner da src bs s
    let slot := 2 * owner + s.granuleEpoch (da / 512 * 512)
    (readSector owner da .clean { t with sec := { t.sec with gens := Tab.set t.sec.gens slot g } }).2.1 = 4 := by
  intro t slot
  have hnew : Tab.get (Tab.set t.sec.gens slot g) 0 slot = g := Tab.get_set_same ..
  exact readSector_differs storeSector_tagAt (.inr (.inr fun e => h (e.trans hnew).symm))

end

/-- A part whose page 0 a tenant with the number 17,408 owns, and in which a rotation's walk has passed granule 0 (R451). The key
register of that number lies at the offset of REL_LOG_SEQ, which holds 7. -/
def logSeqOwned : State where
  regs := [(R.REL_LOG_SEQ, 7)]
  mt := { pages := [(0, { owner := some 17408 })] }
  sec := { walkPage := some 0, walkGran := 1 }

/-- Sector 0 of that part, stored whole for its owner with poison source 1. -/
def logSeqStored : State := storeSector 17408 0 1 (List.replicate 512 0) logSeqOwned

theorem logSeqStored_tagAt : logSeqStored.tagAt 0 = some ⟨17408, 0, 0, 1⟩ := by decide +kernel

/-- The log entry of the poison raises REL_LOG_SEQ to 8, and with it bit 3, which is CUR of the owner's key. -/
theorem logSeqStored_granuleEpoch : logSeqStored.granuleEpoch 0 = 1 := by decide +kernel

/-- Refutes O24: nothing bounds the owner of a page by the 16 tenants (R449), and for an owner beyond them the log entry of a
poisoned store can change what the model takes for the owner's key register, so that the sector just stored fails its check. For
the page of a tenant `readSector_stored` has what the statement says. -/
theorem not_sectorsReadBackWhatTheirOwnerWrote : ¬ Obligations.SectorsReadBackWhatTheirOwnerWrote := by
  unfold Obligations.SectorsReadBackWhatTheirOwnerWrote
  intro h
  obtain ⟨⟨-, hsrc⟩, -⟩ := h logSeqOwned 17408 0 1 (List.replicate 512 0) rfl (List.length_replicate ..) (by decide) rfl
  have hfails : (readSector 17408 0 .clean logSeqStored).2.1 = 4 :=
    readSector_differs logSeqStored_tagAt (.inr (.inl (by rw [logSeqStored_granuleEpoch]; decide)))
  exact absurd (hfails.symm.trans hsrc) (by decide)

end Sys2Proof.Machine
end

section
/-! PROOFS. Host accesses through BAR2 (R223, R224, R327): the answer to a read by the outcome of stage 1 and of its sectors, and
what a write leaves in DA, sector by sector. -/

namespace Sys2Proof.Machine

theorem hostTlp_taken (f : State → State) (s : State) (hb : s.booted = true) (h29 : s.domOn 29 = true) : hostTlp f s = f s := by
  simp [hostTlp, hb, h29]

section
variable {s : State} (f : Fin 16) (o n : Nat) (bytes : List Byte) (hb : s.booted = true) (h29 : s.domOn 29 = true)
include hb h29

theorem exec_bar2Read (fails : Bool) : exec (.bar2Read f o n fails) s = .next (bar2Read f o n fails s) :=
  congrArg Host.Outcome.next (hostTlp_taken _ s hb h29)

theorem exec_bar2Write (ep fails : Bool) : exec (.bar2Write f o bytes ep fails) s = .next (bar2Write f o bytes ep fails s) :=
  congrArg Host.Outcome.next (hostTlp_taken _ s hb h29)

end

@[simp] theorem errEvent_da (base bit : Nat) (s : State) : (errEvent base bit s).da = s.da := by rw [errEvent_frame]

theorem logPartner_da (base bit kind unit : Nat) (s : State) : (logPartner base bit kind unit s).da = s.da := by
  unfold logPartner
  dsimp only
  split
  · rfl
  · exact (logEntry_frame _ s).sameBytes.1

/-! ### The sectors of a write -/

/-- What the host's write of one sector makes of the state: a whole sector takes the write's bytes, a part of one keeps its other
bytes and its poison (R223). -/
def hostSector (f da : Nat) (bs : List Byte) (base : Nat) (s : State) : State :=
  let t := touchPage (pageOf base) s
  let whole := decide (da ≤ base ∧ base + 512 ≤ da + bs.length)
  let old := if whole then ([], 0, t) else readSector f base .clean t
  storeSector f base (if whole then 0 else rowSrc old.2.1) (mergeSector old.1 base da bs) old.2.2

theorem bar2Sectors_succ (f da : Nat) (bs : List Byte) (k base : Nat) (s : State) :
    bar2Sectors f da bs (k + 1) base s = bar2Sectors f da bs k (base + 512) (hostSector f da bs base s) := rfl

theorem mergeSector_length (old : List Byte) (base da : Nat) (bs : List Byte) : (mergeSector old base da bs).length = 512 := by
  simp [mergeSector]

/-- Within a sector the bytes of the access stand over the old ones. -/
theorem mergeSector_getD (old : List Byte) (base da : Nat) (bs : List Byte) (b : Nat) (hb : b < 512)
    (h : da ≤ base + b ∧ base + b < da + bs.length) : (mergeSector old base da bs).getD b 0 = bs.getD (base + b - da) 0 := by
  simp [mergeSector, hb, h]

section
variable (f da : Nat) (bs : List Byte) (base : Nat) (s : State)

/-- One sector is written in place, from bytes that merge the access's with old ones. -/
theorem hostSector_writes (hbase : base % 512 = 0) :
    ∃ old, (hostSector f da bs base s).da = Memory.writeList s.da base (mergeSector old base da bs)
      ∧ (hostSector f da bs base s).spad = s.spad := by
  have hsame : base / 512 * 512 = base := by omega
  have htouch := touchPage_sameBytes (pageOf base) s
  have hread := readSector_sameBytes f base (touchPage (pageOf base) s)
  unfold hostSector
  dsimp only
  split
  · refine ⟨[], ?_, (storeSector_spad ..).trans htouch.2⟩
    rw [storeSector_da, htouch.1, hsame, List.take_of_length_le (mergeSector_length ..).le]
  · refine ⟨(readSector f base .clean (touchPage (pageOf base) s)).1, ?_, (storeSector_spad ..).trans (hread.2.trans htouch.2)⟩
    rw [storeSector_da, hread.1, htouch.1, hsame, List.take_of_length_le (mergeSector_length ..).le]

end

/-- In `t` the bytes from `lo` up to `hi` that `bs`, written at `da`, covers are those of `bs`, and outside that range DA is as in
`s`; no row of a scratchpad differs. -/
structure HostWrote (da : Nat) (bs : List Byte) (lo hi : Nat) (s t : State) : Prop where
  wf : Memory.wf t.da = true
  spad : t.spad = s.spad
  outside : ∀ a, a < lo ∨ hi ≤ a → Memory.read t.da a = Memory.read s.da a
  inside : ∀ a, lo ≤ a → a < hi → da ≤ a → a < da + bs.length → Memory.read t.da a = bs.getD (a - da) 0

theorem HostWrote.append {da : Nat} {bs : List Byte} {lo mid hi : Nat} {s t u : State} (h : HostWrote da bs lo mid s t)
    (k : HostWrote da bs mid hi t u) (hlo : lo ≤ mid) (hhi : mid ≤ hi) : HostWrote da bs lo hi s u where
  wf := k.wf
  spad := k.spad.trans h.spad
  outside := fun a ha => (k.outside a (by omega)).trans (h.outside a (by omega))
  inside := fun a h1 h2 h3 h4 => by
    by_cases hm : a < mid
    · exact (k.outside a (.inl hm)).trans (h.inside a h1 hm h3 h4)
    · exact k.inside a (by omega) h2 h3 h4

theorem hostSector_wrote (f da : Nat) (bs : List Byte) (base : Nat) (s : State) (hbase : base % 512 = 0)
    (hwf : Memory.wf s.da = true) : HostWrote da bs base (base + 512) s (hostSector f da bs base s) := by
  obtain ⟨old, hda, hspad⟩ := hostSector_writes f da bs base s hbase
  have hread (a : Nat) := Memory.read_writeList (mergeSector old base da bs) s.da base a hwf
  rw [mergeSector_length, ← hda] at hread
  refine ⟨hda ▸ Memory.wf_writeList _ _ _ hwf, hspad, fun a ha => ?_, fun a h1 h2 h3 h4 => ?_⟩
  · rw [hread, if_neg (by omega)]
  · have hb : base + (a - base) = a := by omega
    rw [hread, if_pos ⟨h1, h2⟩, mergeSector_getD _ _ _ _ _ (by omega) (by omega), hb]

theorem bar2Sectors_wrote (f da : Nat) (bs : List Byte) (k base : Nat) (s : State) (hbase : base % 512 = 0)
    (hwf : Memory.wf s.da = true) : HostWrote da bs base (base + 512 * k) s (bar2Sectors f da bs k base s) := by
  induction k generalizing base s with
  | zero => exact ⟨hwf, rfl, fun _ _ => rfl, fun a h1 h2 => absurd h2 (by omega)⟩
  | succ k ih =>
    have hone := hostSector_wrote f da bs base s hbase hwf
    have hrest := ih (base + 512) (hostSector f da bs base s) (by omega) hone.wf
    have hend : base + 512 + 512 * k = base + 512 * (k + 1) := by omega
    rw [hend] at hrest
    rw [bar2Sectors_succ]
    exact hone.append hrest (by omega) (by omega)

/-- The sectors of an access end where its last byte's sector does. -/
theorem sectors_end (da n : Nat) : da / 512 * 512 + 512 * ceilDiv (da % 512 + n) 512 = ceilDiv (da + n) 512 * 512 := by
  unfold ceilDiv
  omega

/-- The sectors of an access hold its bytes, and nothing beyond them differs. -/
theorem bar2Sectors_access (f da : Nat) (bs : List Byte) (s : State) (hwf : Memory.wf s.da = true) :
    let t := bar2Sectors f da bs (ceilDiv (da % 512 + bs.length) 512) (da / 512 * 512) s
    (∀ i, i < bs.length → Memory.read t.da (da + i) = bs.getD i 0)
      ∧ (∀ a, a < da / 512 * 512 ∨ ceilDiv (da + bs.length) 512 * 512 ≤ a → Memory.read t.da a = Memory.read s.da a)
      ∧ t.spad = s.spad := by
  have hwrote := bar2Sectors_wrote f da bs (ceilDiv (da % 512 + bs.length) 512) (da / 512 * 512) s (by omega) hwf
  rw [sectors_end] at hwrote
  refine ⟨fun i hi => ?_, hwrote.outside, hwrote.spad⟩
  have hend : da + i < ceilDiv (da + bs.length) 512 * 512 := by
    unfold ceilDiv
    omega
  have hin := hwrote.inside (da + i) (by omega) hend (by omega) (by omega)
  rwa [Nat.add_sub_cancel_left] at hin

/-! ### The access by the function's state (R327, R342) -/

section
variable {s : State} {f : Nat} (o n : Nat) (bs : List Byte)

theorem bar2Read_scrub (h : s.fnState f = fnScrub) (fails : Bool) :
    bar2Read f o n fails s = respond { data := List.replicate n 0xFF#8 } (s.count (Pg.hifFn f) 4 1) := by
  simp [bar2Read, h, fnScrub, fnDisabled]

theorem bar2Write_scrub (h : s.fnState f = fnScrub) (ep fails : Bool) :
    bar2Write f o bs ep fails s = s.count (Pg.hifFn f) 5 1 := by
  simp [bar2Write, h, fnScrub, fnDisabled]

section
variable (h : s.fnState f = fnReady ∨ s.fnState f = fnLost)
include h

theorem fnState_runs : s.fnState f ≠ fnDisabled ∧ s.fnState f ≠ fnScrub := by
  obtain h | h := h <;> rw [h] <;> decide

section
variable {da : Nat} {u : State} (hda : s.bar2Base f + o = da) (hu : s.count (Pg.hifFn f) 4 1 = u)
include hda hu

theorem bar2Read_refused (hk : u.bar2Refused f da n false ≠ 0) (fails : Bool) : bar2Read f o n fails s
    = respond { data := List.replicate n 0xFF#8 } (bar2Denied f (u.bar2Refused f da n false) u) := by
  obtain ⟨hon, hscrub⟩ := fnState_runs h
  subst hda hu
  rw [bar2Read, if_neg hon, if_neg hscrub, if_pos hk]

variable (hk : u.bar2Refused f da n false = 0)
include hk

theorem bar2Read_aborted : bar2Read f o n true s = respond { abort := true } (aerNonFatal u) := by
  obtain ⟨hon, hscrub⟩ := fnState_runs h
  subst hda hu
  rw [bar2Read, if_neg hon, if_neg hscrub, if_neg (not_not.mpr hk), if_pos rfl]

section
variable {r : List Byte × Nat × Bool × State}
  (hr : readRun (128 + f) f (ceilDiv (da % 512 + n) 512) (da / 512 * 512) u = r)
include hr

theorem bar2Read_clean (h0 : r.2.1 = 0) :
    bar2Read f o n false s = respond { data := (r.1.drop (da % 512)).take n } r.2.2.2 := by
  obtain ⟨hon, hscrub⟩ := fnState_runs h
  subst hda hu hr
  rw [bar2Read, if_neg hon, if_neg hscrub, if_neg (not_not.mpr hk), if_neg Bool.false_ne_true, if_neg (not_not.mpr h0)]

theorem bar2Read_poisoned (h0 : r.2.1 ≠ 0) :
    bar2Read f o n false s = respond { data := List.replicate n 0, ep := true } (r.2.2.2.count Pg.hif0 5 1) := by
  obtain ⟨hon, hscrub⟩ := fnState_runs h
  subst hda hu hr
  rw [bar2Read, if_neg hon, if_neg hscrub, if_neg (not_not.mpr hk), if_neg Bool.false_ne_true, if_pos h0]

end

end

section
variable {da : Nat} {u : State} (hda : s.bar2Base f + o = da) (hu : s.count (Pg.hifFn f) 5 1 = u)
include hda hu

theorem bar2Write_refused (hk : u.bar2Refused f da bs.length true ≠ 0) (fails : Bool) :
    bar2Write f o bs false fails s = bar2Denied f (u.bar2Refused f da bs.length true) u := by
  obtain ⟨hon, hscrub⟩ := fnState_runs h
  subst hda hu
  rw [bar2Write, if_neg hon, if_neg hscrub, if_neg Bool.false_ne_true, if_pos hk]

variable (hk : u.bar2Refused f da bs.length true = 0)
include hk

theorem bar2Write_fails : bar2Write f o bs false true s = aerNonFatal u := by
  obtain ⟨hon, hscrub⟩ := fnState_runs h
  subst hda hu
  rw [bar2Write, if_neg hon, if_neg hscrub, if_neg Bool.false_ne_true, if_neg (not_not.mpr hk), if_pos rfl]

theorem bar2Write_lands (hwf : Memory.wf s.da = true) :
    let t := bar2Write f o bs false false s
    (∀ i, i < bs.length → Memory.read t.da (da + i) = bs.getD i 0)
      ∧ (∀ a, a < da / 512 * 512 ∨ ceilDiv (da + bs.length) 512 * 512 ≤ a → Memory.read t.da a = Memory.read s.da a)
      ∧ t.spad = s.spad := by
  obtain ⟨hon, hscrub⟩ := fnState_runs h
  have hu' : u.da = s.da ∧ u.spad = s.spad := by
    rw [← hu, State.count_da, State.count_spad]
    exact ⟨rfl, rfl⟩
  obtain ⟨hda', hspad⟩ := hu'
  have hland := bar2Sectors_access f da bs u (hda'.symm ▸ hwf)
  rw [hda', hspad] at hland
  subst hda hu
  rw [bar2Write, if_neg hon, if_neg hscrub, if_neg Bool.false_ne_true, if_neg (not_not.mpr hk), if_neg Bool.false_ne_true]
  exact hland

end

/-- A request with EP is an error that AER logs, and nothing of DA differs (R327). -/
theorem bar2Write_ep (fails : Bool) :
    let t := bar2Write f o bs true fails s
    t.da = s.da ∧ bitOf (t.reg (Pg.hif0 + Hdr.errStat)).toNat E.hif0_AER_NONFATAL = true := by
  obtain ⟨hon, hscrub⟩ := fnState_runs h
  rw [bar2Write, if_neg hon, if_neg hscrub, if_pos rfl, pcieError]
  dsimp only
  rw [logPartner_reg _ _ _ _ _ _ (by decide)]
  refine ⟨?_, errEvent_sets _ _ _ (by decide)⟩
  rw [logPartner_da, errEvent_da, State.count_da, State.count_da]

end

end

/-- Settles O38: reads and writes by the branches that stage 1, the tier and EP leave, and the bytes of a write by its sectors. -/
theorem bar2AccessesPassStageOne : Obligations.Bar2AccessesPassStageOne := by
  unfold Obligations.Bar2AccessesPassStageOne
  intro s f o n bytes hb h29 da s4 s5 ones r
  have hread {fails : Bool} {t : State} (h : bar2Read f o n fails s = t) : exec (.bar2Read f o n fails) s = .next t :=
    (exec_bar2Read f o n hb h29 fails).trans (congrArg _ h)
  have hwrite {ep fails : Bool} {t : State} (h : bar2Write f o bytes ep fails s = t) :
      exec (.bar2Write f o bytes ep fails) s = .next t := (exec_bar2Write f o bytes hb h29 ep fails).trans (congrArg _ h)
  refine ⟨fun hrun => ?_, fun hscrub => ⟨hread (bar2Read_scrub o n hscrub _), hwrite (bar2Write_scrub o bytes hscrub _ _)⟩⟩
  refine ⟨fun hk => hread (bar2Read_refused o n hrun rfl rfl hk _), fun hk => ?_,
    ⟨_, hwrite rfl, bar2Write_ep o bytes hrun _⟩,
    fun hk => hwrite (bar2Write_refused o bytes hrun rfl rfl hk _), fun hk hwf => ?_⟩
  · exact ⟨hread (bar2Read_aborted o n hrun rfl rfl hk), fun hr => hread (bar2Read_clean o n hrun rfl rfl hk rfl hr),
      fun hr => hread (bar2Read_poisoned o n hrun rfl rfl hk rfl hr)⟩
  · exact ⟨hwrite (bar2Write_fails o bytes hrun rfl rfl hk), _, hwrite rfl, bar2Write_lands o bytes hrun rfl rfl hk hwf⟩

end Sys2Proof.Machine
end

section
/-! PROOFS. Pages (R215, R226, R230, R236, R408): the four commands of MT_PG_CMD on the page of MT_PG_SEL, the end of a FREE, the
fill of a page, the decay tick and the patrol's step; then the fill of page 0, at which a clause of O25 fails. -/

namespace Sys2Proof.Machine

/-! ### Page records -/

section
variable (s : State) (p : Nat)

theorem page_of_pages {s t : State} (h : t.mt.pages = s.mt.pages) (q : Nat) : t.page q = s.page q := by
  rw [State.page, h, State.page]

theorem State.page_setPage_same (r : PageRec) : (s.setPage p r).page p = r := Tab.get_set_same _ _ _ _

theorem State.page_setPage_ne (r : PageRec) {q : Nat} (h : q ≠ p) : (s.setPage p r).page q = s.page q := Tab.get_set_ne _ _ _ _ _ h

end

/-! ### The least number that satisfies a condition, and how many do -/

theorem leastBelow_some {n k : Nat} {p : Nat → Bool} (h : leastBelow n p = some k) : k < n ∧ p k = true := by
  induction n with
  | zero => cases h
  | succ n ih =>
    rw [leastBelow] at h
    split at h
    · next j hj =>
      obtain ⟨hlt, hp⟩ := ih (hj.trans h)
      exact ⟨Nat.lt_succ_of_lt hlt, hp⟩
    · split at h
      · next hp =>
        cases h
        exact ⟨Nat.lt_succ_self _, hp⟩
      · cases h

theorem leastBelow_isSome {n k : Nat} {p : Nat → Bool} (hk : k < n) (hp : p k = true) : ∃ j, leastBelow n p = some j := by
  induction n with
  | zero => omega
  | succ n ih =>
    rw [leastBelow]
    split
    · next j hj => exact ⟨j, rfl⟩
    · next hnone =>
      by_cases hkn : k = n
      · exact ⟨n, if_pos (hkn ▸ hp)⟩
      · obtain ⟨j, hj⟩ := ih (by omega)
        rw [hj] at hnone
        cases hnone

/-- A count that passes `k` meets a number that satisfies the condition as the `k`-th one. -/
theorem countBelow_meets {n k : Nat} {p : Nat → Bool} (h : k < countBelow n p) : ∃ f, f < n ∧ p f = true ∧ countBelow f p = k := by
  induction n with
  | zero => exact absurd h (Nat.not_lt_zero k)
  | succ n ih =>
    by_cases hk : k < countBelow n p
    · obtain ⟨f, hf, hp, hc⟩ := ih hk
      exact ⟨f, Nat.lt_succ_of_lt hf, hp, hc⟩
    · rw [countBelow] at h
      split at h
      · next hp => exact ⟨n, Nat.lt_succ_self n, hp, by omega⟩
      · omega

/-- A tier with free frames gives one of them (R214, R215). -/
theorem pickFrame_free (s : State) (tier : Nat) (h : s.freeCount tier ≠ 0) :
    ∃ f, s.pickFrame tier = some f ∧ f < s.frames tier ∧ s.frameUsed tier f = false := by
  have hk : Config.freeNat s.free % s.freeCount tier < s.freeCount tier := Nat.mod_lt _ (Nat.pos_of_ne_zero h)
  obtain ⟨g, hg, hfree, hcount⟩ := countBelow_meets hk
  have hpick : s.pickFrame tier = leastBelow (s.frames tier) (fun f => !s.frameUsed tier f && !s.frameTested tier f
      && countBelow f (fun g => !s.frameUsed tier g && !s.frameTested tier g) == Config.freeNat s.free % s.freeCount tier) :=
    if_neg h
  obtain ⟨f, hf⟩ := leastBelow_isSome (k := g) (p := fun f => !s.frameUsed tier f && !s.frameTested tier f
      && countBelow f (fun g => !s.frameUsed tier g && !s.frameTested tier g) == Config.freeNat s.free % s.freeCount tier) hg
    (by simp [hcount]; simpa using hfree)
  obtain ⟨hlt, hp⟩ := leastBelow_some hf
  simp only [Bool.and_eq_true, Bool.not_eq_true'] at hp
  exact ⟨f, hpick.trans hf, hlt, hp.1.1⟩

/-! ### MT_PG_CMD (R236) -/

/-- The fields of MT_PG_CMD. -/
def pgCmdFlds : List FldDef := [⟨2, 0, .wo, 0, 0, [(1, 4)]⟩, ⟨7, 4, .wo, 0, 0, []⟩, ⟨9, 8, .wo, 0, 0, [(0, 2)]⟩]

/-- The word of a page command. -/
def pgCmdWord (cmd : Fin 5) (owner : Fin 16) (place : Fin 3) : Word := BitVec.ofNat 32 (cmd.val + owner.val * 16 + place.val * 256)

theorem pgCmdWord_fields (cmd : Fin 5) (owner : Fin 16) (place : Fin 3) :
    wordFld (pgCmdWord cmd owner place) F.MT_PG_CMD_CMD = cmd ∧ wordFld (pgCmdWord cmd owner place) F.MT_PG_CMD_OWNER = owner
      ∧ wordFld (pgCmdWord cmd owner place) F.MT_PG_CMD_PLACE = place := by
  revert cmd owner place
  decide

theorem pgCmdWord_listed (cmd : Fin 5) (owner : Fin 16) (place : Fin 3) (h : cmd ≠ 0) :
    commandOk pgCmdFlds 0xFFFFFFFF#32 (pgCmdWord cmd owner place) = true := by
  revert cmd owner place
  decide

section
variable {s : State} (iid : Fin 24) (h : s.Admits iid R.MT_PG_CMD .mt2 0)
include h

/-- A permitted write of a listed page command is the command. -/
theorem wordWrite_pgCmd (cmd : Fin 5) (owner : Fin 16) (place : Fin 3) (hc : cmd ≠ 0) :
    wordWrite iid R.MT_PG_CMD (pgCmdWord cmd owner place) s
      = attributeErr iid R.MT_PG_CMD s (pgCmd iid (pgCmdWord cmd owner place) s) := by
  have hf : findReg (R.MT_PG_CMD % 4096) (regsOf .mt2) = some (⟨0x104, 1, 0x0, 1, 0x0, .any, pgCmdFlds⟩, 0, 0) := by decide
  exact busWrite_command iid R.MT_PG_CMD _ s .mt2 0 _ 0 0 h (by decide) (by decide) hf (by decide)
    (plainFields_of _ _ (by decide) (by decide) (by decide)) (by decide) (pgCmdWord_listed cmd owner place hc)

/-- A page command whose work raises no error of MT page 2 leaves exactly that work's state. -/
theorem wordWrite_pgWork (cmd : Fin 5) (owner : Fin 16) (place : Fin 3) (hc : cmd ≠ 0) {t : State}
    (ht : pgCmd iid (pgCmdWord cmd owner place) s = t) (hq : t.reg (Pg.mt2 + Hdr.errStat) = s.reg (Pg.mt2 + Hdr.errStat)) :
    wordWrite iid R.MT_PG_CMD (pgCmdWord cmd owner place) s = t := by
  rw [wordWrite_pgCmd iid h cmd owner place hc, ht]
  exact attributeErr_quiet _ _ _ _ hq

variable (hb : s.flag R.MT_PG_STATUS F.MT_PG_STATUS_BUSY = false)
include hb

section
variable {t : State}

theorem exec_alloc (owner : Fin 16) (place : Fin 3) (ht : pgAlloc (s.fld R.MT_PG_SEL F.MT_PG_SEL_PAGE) owner place s = t)
    (hq : t.reg (Pg.mt2 + Hdr.errStat) = s.reg (Pg.mt2 + Hdr.errStat)) : exec (.alloc iid owner place) s = .next t := by
  obtain ⟨hcmd, howner, hplace⟩ := pgCmdWord_fields 1 owner place
  refine congrArg Host.Outcome.next (wordWrite_pgWork iid h 1 owner place (by decide) ?_ hq)
  rw [pgCmd, hb, if_neg Bool.false_ne_true, hcmd, howner, hplace]
  exact ht

theorem exec_free (ht : pgFree (s.fld R.MT_PG_SEL F.MT_PG_SEL_PAGE) s = t)
    (hq : t.reg (Pg.mt2 + Hdr.errStat) = s.reg (Pg.mt2 + Hdr.errStat)) : exec (.free iid) s = .next t := by
  refine congrArg Host.Outcome.next (wordWrite_pgWork iid h 2 0 0 (by decide) ?_ hq)
  rw [pgCmd, hb, if_neg Bool.false_ne_true, (pgCmdWord_fields 2 0 0).1]
  exact ht

theorem exec_setPlace (place : Fin 3) (ht : pgPlace (s.fld R.MT_PG_SEL F.MT_PG_SEL_PAGE) place s = t)
    (hq : t.reg (Pg.mt2 + Hdr.errStat) = s.reg (Pg.mt2 + Hdr.errStat)) : exec (.setPlace iid place) s = .next t := by
  obtain ⟨hcmd, -, hplace⟩ := pgCmdWord_fields 3 0 place
  refine congrArg Host.Outcome.next (wordWrite_pgWork iid h 3 0 place (by decide) ?_ hq)
  rw [pgCmd, hb, if_neg Bool.false_ne_true, hcmd, hplace]
  exact ht

theorem exec_pageRead (ht : pgRead (s.fld R.MT_PG_SEL F.MT_PG_SEL_PAGE) s = t)
    (hq : t.reg (Pg.mt2 + Hdr.errStat) = s.reg (Pg.mt2 + Hdr.errStat)) : exec (.pageRead iid) s = .next t := by
  refine congrArg Host.Outcome.next (wordWrite_pgWork iid h 4 0 0 (by decide) ?_ hq)
  rw [pgCmd, hb, if_neg Bool.false_ne_true, (pgCmdWord_fields 4 0 0).1]
  exact ht

end

end

/-! ### What each command makes of the page (R215, R230, R236) -/

theorem pgResult_status (r : Nat) (s : State) : (pgResult r s).reg R.MT_PG_STATUS = BitVec.ofNat 32 (2 * r) :=
  State.reg_setReg_same _ _ _

theorem pgResult_errStat (r : Nat) (s : State) :
    (pgResult r s).reg (Pg.mt2 + Hdr.errStat) = s.reg (Pg.mt2 + Hdr.errStat) := State.reg_setReg_ne _ _ _ _ (by decide)

/-- A refused pin is an error of MT page 0. -/
theorem pinRefused_errStat (s : State) : (pinRefused s).reg (Pg.mt2 + Hdr.errStat) = s.reg (Pg.mt2 + Hdr.errStat) := by
  rw [pinRefused, pgResult_errStat, errEvent_reg_ne _ _ _ _ (by decide) (by decide), State.count_reg]

/-- Page `p` placed in frame `f` of a tier for its new owner, with its fill queued (R215). -/
def pageAllocated (p owner place tier f : Nat) (s : State) : State :=
  ((s.drew 1).setPage p { owner := some owner, tier := tier, frame := f, place := place, age := 0, epoch := s.curEpoch owner,
                          moving := true }).modMt (fun m => { m with fills := m.fills ++ [p] })

/-- Page `p` without an owner, its FREE waiting for its accesses (R215). -/
def pageFreeing (p : Nat) (s : State) : State :=
  ((s.setPage p { s.page p with owner := none, place := 0, queued := false }).modMt (fun m =>
    { m with frees := m.frees ++ [p], promo := m.promo.filter (fun q => q != p) })).setReg R.MT_PG_STATUS 1

section
variable {s : State} {p : Nat} (hp : s.backed p = true)
include hp

section
variable (howner : (s.page p).owner = none) (hfrees : s.mt.frees.contains p = false)
include howner hfrees

theorem pgAlloc_takes {owner place tier : Nat}
    (hspent : place = 1 → decide (s.fld (R.MT_PIN_QUOTA owner) F.MT_PIN_QUOTA_PAGES ≤ s.pinned owner) = false)
    (htier : (s.allocTiers place).find? (fun t => s.freeCount t != 0) = some tier) :
    pgAlloc p owner place s = pgResult 0 (pageAllocated p owner place tier ((s.pickFrame tier).getD 0) s) := by
  have hquota : ¬ (place = 1 ∧ s.fld (R.MT_PIN_QUOTA owner) F.MT_PIN_QUOTA_PAGES ≤ s.pinned owner) :=
    fun hq => of_decide_eq_false (hspent hq.1) hq.2
  rw [pgAlloc, if_neg (by rw [hp, howner, hfrees]; decide), if_neg hquota, htier]
  rfl

theorem pgAlloc_spent {owner : Nat}
    (hspent : decide (s.fld (R.MT_PIN_QUOTA owner) F.MT_PIN_QUOTA_PAGES ≤ s.pinned owner) = true) :
    pgAlloc p owner 1 s = pinRefused s := by
  rw [pgAlloc, if_neg (by rw [hp, howner, hfrees]; decide), if_pos ⟨rfl, of_decide_eq_true hspent⟩]

end

section
variable {t0 : Nat} (howner : (s.page p).owner = some t0) (hmoving : (s.page p).moving = false)
include howner hmoving

theorem pgFree_takes : pgFree p s = pageFreeing p s := by
  rw [pgFree, if_neg (by simp [hp, howner]), if_neg (by simp [hmoving])]
  rfl

theorem pgPlace_takes {place : Nat}
    (hspent : place = 1 → (s.page p).place ≠ 1 →
      decide (s.fld (R.MT_PIN_QUOTA t0) F.MT_PIN_QUOTA_PAGES ≤ s.pinned t0) = false) :
    pgPlace p place s = pgResult 0 (s.setPage p { s.page p with place := place }) := by
  have hquota : ¬ (place = 1 ∧ (s.page p).place ≠ 1 ∧ s.fld (R.MT_PIN_QUOTA t0) F.MT_PIN_QUOTA_PAGES ≤ s.pinned t0) :=
    fun hq => of_decide_eq_false (hspent hq.1 hq.2.1) hq.2.2
  unfold pgPlace
  dsimp only
  split
  · next hnone => exact absurd (hnone.symm.trans howner) (by simp)
  · next t ht =>
    cases ht.symm.trans howner
    rw [if_neg (by simp [hp]), if_neg (by simp [hmoving]), if_neg hquota]

end

end

section
variable (p owner place tier f : Nat) (s : State)

theorem pageAllocated_page : (pageAllocated p owner place tier f s).page p
    = { owner := some owner, tier := tier, frame := f, place := place, age := 0, epoch := s.curEpoch owner, moving := true } :=
  (page_of_pages rfl p).trans (State.page_setPage_same (s.drew 1) p _)

theorem pageAllocated_page_ne {o : Nat} (ho : o ≠ p) : (pageAllocated p owner place tier f s).page o = s.page o :=
  (page_of_pages rfl o).trans (State.page_setPage_ne (s.drew 1) p _ ho)

theorem pageFreeing_owner : ((pageFreeing p s).page p).owner = none :=
  congrArg PageRec.owner ((page_of_pages rfl p).trans (State.page_setPage_same s p _))

end

/-! ### The words of READ (R236) -/

/-- The number that MT_PG_INFO0 shows of a page. -/
def pageInfo (r : PageRec) : Nat :=
  r.owner.getD 0x1F + 32 * r.tier + 64 * r.place + 256 * r.age + (if r.moving then 65536 else 0) + (if r.queued then 131072 else 0)

theorem pgRead_eq (p : Nat) (s : State) : pgRead p s
    = pgResult 0 ((s.setReg R.MT_PG_INFO0 (BitVec.ofNat 32 (pageInfo (s.page p)))).setReg R.MT_PG_INFO1
        (BitVec.ofNat 32 (s.page p).frame)) := rfl

theorem pgRead_onlyRegs (p : Nat) (s : State) : OnlyRegs [R.MT_PG_STATUS, R.MT_PG_INFO0, R.MT_PG_INFO1] s (pgRead p s) := by
  refine ⟨rfl, fun a ha => ?_⟩
  simp only [List.mem_cons, List.not_mem_nil, or_false, not_or] at ha
  obtain ⟨hstatus, hinfo0, hinfo1⟩ := ha
  rw [pgRead_eq, pgResult, State.reg_setReg_ne _ _ _ _ hstatus, State.reg_setReg_ne _ _ _ _ hinfo1,
    State.reg_setReg_ne _ _ _ _ hinfo0]

theorem pgRead_info0 (p : Nat) (s : State) : (pgRead p s).reg R.MT_PG_INFO0 = BitVec.ofNat 32 (pageInfo (s.page p)) := by
  rw [pgRead_eq, pgResult, State.reg_setReg_ne _ _ _ _ (by decide), State.reg_setReg_ne _ _ _ _ (by decide),
    State.reg_setReg_same]

theorem pageInfo_fields (r : PageRec) (htier : r.tier < 2) (hplace : r.place < 4) (hage : r.age < 256)
    (howner : ∀ t, r.owner = some t → t < 16) :
    let w : Word := BitVec.ofNat 32 (pageInfo r)
    wordFld w F.MT_PG_INFO0_OWNER = r.owner.getD 31 ∧ wordFld w F.MT_PG_INFO0_TIER = r.tier
      ∧ wordFld w F.MT_PG_INFO0_AGE = r.age ∧ (wordFld w F.MT_PG_INFO0_MOVING == 1) = r.moving := by
  have ho : r.owner.getD 0x1F < 32 := by
    cases h : r.owner with
    | none => decide
    | some t => exact Nat.lt_trans (howner t h) (by decide)
  have hm := Bool.toNat_le r.moving
  have hq := Bool.toNat_le r.queued
  have hw : pageInfo r
      = r.owner.getD 0x1F + 32 * r.tier + 64 * r.place + 256 * r.age + 65536 * r.moving.toNat + 131072 * r.queued.toNat := by
    rw [pageInfo]
    cases r.moving <;> cases r.queued <;> rfl
  have hmod : pageInfo r % 2 ^ 32 = pageInfo r := Nat.mod_eq_of_lt (by omega)
  have hmoving : pageInfo r / 65536 % 2 = r.moving.toNat := by omega
  simp only [wordFld, bitsOf, BitVec.toNat_ofNat, hmod]
  refine ⟨?_, ?_, ?_, ?_⟩
  · show pageInfo r / 1 % 32 = _
    omega
  · show pageInfo r / 32 % 2 = _
    omega
  · show pageInfo r / 256 % 256 = _
    omega
  · show (pageInfo r / 65536 % 2 == 1) = _
    rw [hmoving]
    cases r.moving <;> rfl

theorem pgRead_fields (p : Nat) (s : State) (htier : (s.page p).tier < 2) (hplace : (s.page p).place < 4)
    (hage : (s.page p).age < 256) (howner : ∀ t, (s.page p).owner = some t → t < 16) :
    (pgRead p s).fld R.MT_PG_INFO0 F.MT_PG_INFO0_OWNER = (s.page p).owner.getD 31
      ∧ (pgRead p s).fld R.MT_PG_INFO0 F.MT_PG_INFO0_TIER = (s.page p).tier
      ∧ (pgRead p s).fld R.MT_PG_INFO0 F.MT_PG_INFO0_AGE = (s.page p).age
      ∧ (pgRead p s).flag R.MT_PG_INFO0 F.MT_PG_INFO0_MOVING = (s.page p).moving := by
  simp only [State.flag, State.fld, pgRead_info0]
  exact pageInfo_fields _ htier hplace hage howner

/-! ### The commands (R215, R230, R236) -/

section
variable {s : State} {p : Nat} (iid : Fin 24) (h : s.Admits iid R.MT_PG_CMD .mt2 0)
  (hb : s.flag R.MT_PG_STATUS F.MT_PG_STATUS_BUSY = false) (hsel : s.fld R.MT_PG_SEL F.MT_PG_SEL_PAGE = p)
include h hb hsel

/-- READ shows the page that MT_PG_SEL names. -/
theorem exec_pageRead_shows : exec (.pageRead iid) s = .next (pgRead p s) := by
  subst hsel
  exact exec_pageRead iid h hb rfl ((pgRead_onlyRegs _ s).2 _ (by decide))

variable (hp : s.backed p = true)
include hp

section
variable (howner : (s.page p).owner = none) (hfrees : s.mt.frees.contains p = false)
include howner hfrees

/-- ALLOC places an unowned page in a frame that nothing uses, of the first tier with free ones. -/
theorem exec_alloc_places (owner : Fin 16) (place : Fin 3) {tier : Nat}
    (hspent : place.val = 1 → decide (s.fld (R.MT_PIN_QUOTA owner) F.MT_PIN_QUOTA_PAGES ≤ s.pinned owner) = false)
    (htier : (s.allocTiers place).find? (fun t => s.freeCount t != 0) = some tier) :
    ∃ f, f < s.frames tier ∧ s.frameUsed tier f = false
      ∧ exec (.alloc iid owner place) s = .next (pgResult 0 (pageAllocated p owner place tier f s)) := by
  subst hsel
  have hfree : s.freeCount tier ≠ 0 := by simpa using List.find?_some htier
  obtain ⟨f, hf, hlt, hused⟩ := pickFrame_free s tier hfree
  have htakes := pgAlloc_takes hp howner hfrees hspent htier
  rw [hf] at htakes
  exact ⟨f, hlt, hused, exec_alloc iid h hb owner place htakes (pgResult_errStat _ _)⟩

/-- A pin beyond the tenant's quota is refused and counted. -/
theorem exec_alloc_refused (owner : Fin 16)
    (hspent : decide (s.fld (R.MT_PIN_QUOTA owner) F.MT_PIN_QUOTA_PAGES ≤ s.pinned owner) = true) :
    exec (.alloc iid owner 1) s = .next (pinRefused s) := by
  subst hsel
  exact exec_alloc iid h hb owner 1 (pgAlloc_spent hp howner hfrees hspent) (pinRefused_errStat s)

end

section
variable {t0 : Nat} (howner : (s.page p).owner = some t0) (hmoving : (s.page p).moving = false)
include howner hmoving

theorem exec_free_begins : exec (.free iid) s = .next (pageFreeing p s) := by
  subst hsel
  exact exec_free iid h hb (pgFree_takes hp howner hmoving) (State.reg_setReg_ne _ _ _ _ (by decide))

theorem exec_setPlace_stores (place : Fin 3) (hspent : place.val = 1 → (s.page p).place ≠ 1 →
      decide (s.fld (R.MT_PIN_QUOTA t0) F.MT_PIN_QUOTA_PAGES ≤ s.pinned t0) = false) :
    exec (.setPlace iid place) s = .next (pgResult 0 (s.setPage p { s.page p with place := place })) := by
  subst hsel
  exact exec_setPlace iid h hb place (pgPlace_takes hp howner hmoving hspent) (pgResult_errStat _ _)

end

end

/-! ### The end of a FREE (R215, R236) -/

section
variable {s : State} {p : Nat}

theorem freeComplete_last (hfrees : s.mt.frees = [p]) (haccs : ∀ a ∈ s.mt.accs, pageOf a.da ≠ p) : freeComplete p s
    = pgResult 0 (s.modMt (fun m => { m with frees := [], pages := Tab.del m.pages p,
                                             tags := m.tags.filter (fun t => t.1 / 4096 != p) })) := by
  have hidle : s.mt.accs.any (fun a => pageOf a.da == p) = false := by simpa using haccs
  have hfilter : s.mt.frees.filter (fun q => q != p) = [] := by simp [hfrees]
  rw [freeComplete, if_pos (by simp [hfrees, hidle])]
  dsimp only [State.modMt]
  rw [hfilter]
  rfl

theorem page_del (t : State) (h : t.mt.pages = Tab.del s.mt.pages p) :
    t.page p = {} ∧ ∀ o, o ≠ p → t.page o = s.page o := by
  refine ⟨?_, fun o ho => ?_⟩
  · rw [State.page, Tab.get, h, Tab.find_del, if_pos rfl]
    rfl
  · rw [State.page, Tab.get, h, Tab.find_del, if_neg ho]
    rfl

/-! ### The fill of a page (R215, R217) -/

/-- Page `p` all zeros under the key of its owner, in place for its accesses (R215). -/
def pageFilled (p : Nat) (s : State) : State :=
  (({ s with da := Memory.zero s.da (p * 2 ^ 21) ((p + 1) * 2 ^ 21) }).setPage p
    { s.page p with moving := false, fill := some (s.tagNow ((s.page p).owner.getD 0) (p * 2 ^ 21)) }).modMt
      (fun m => { m with job := none, tags := m.tags.filter (fun t => t.1 / 4096 != p) })

/-- The idle engine takes a waiting fill before anything that EN governs (R227). -/
theorem migrationChoice_fill {ps : List Nat} (hjob : s.mt.job = none) (hfills : s.mt.fills = p :: ps) :
    migrationChoice s = s.modMt (fun m => { m with fills := ps, job := some (.fill p) }) := by
  rw [migrationChoice, hjob, hfills]

theorem moveSwitch_fill (bad : List Nat) (hjob : s.mt.job = some (.fill p)) (hon : s.domOn (s.sectorDomain (p * 2 ^ 21)) = true) :
    ∃ c n, moveSwitch bad s = { pageFilled p s with cnt := c, free := n } := by
  unfold moveSwitch
  rw [hjob]
  dsimp only
  rw [hon, if_neg (by decide)]
  split
  · exact ⟨_, _, rfl⟩
  · exact ⟨_, _, rfl⟩

theorem pageFilled_read (a : Nat) : Memory.read (pageFilled p s).da a
    = if p * 2 ^ 21 ≤ a ∧ a < (p + 1) * 2 ^ 21 then 0 else Memory.read s.da a := Memory.read_zero ..

theorem pageFilled_inside (a : Nat) (h : a < 2 ^ 21) : Memory.read (pageFilled p s).da (p * 2 ^ 21 + a) = 0 := by
  rw [pageFilled_read, if_pos (by omega)]

theorem pageFilled_outside (a : Nat) (h : a < p * 2 ^ 21 ∨ (p + 1) * 2 ^ 21 ≤ a) :
    Memory.read (pageFilled p s).da a = Memory.read s.da a := by
  rw [pageFilled_read, if_neg (by omega)]

theorem pageFilled_page : (pageFilled p s).page p
    = { s.page p with moving := false, fill := some (s.tagNow ((s.page p).owner.getD 0) (p * 2 ^ 21)) } :=
  (page_of_pages rfl p).trans (State.page_setPage_same _ p _)

theorem pageFilled_tagAt : (pageFilled p s).tagAt (p * 2 ^ 21) = some (s.tagNow ((s.page p).owner.getD 0) (p * 2 ^ 21)) := by
  have hsector : p * 2 ^ 21 / 512 / 4096 = p := by omega
  have hpage : pageOf (p * 2 ^ 21) = p := Nat.mul_div_cancel _ (by decide)
  have hnone : Tab.find (pageFilled p s).mt.tags (p * 2 ^ 21 / 512) = none :=
    (Tab.find_filter s.mt.tags (fun k => k / 4096 != p) _).trans (if_neg (by rw [hsector]; simp))
  rw [State.tagAt, hnone, hpage, pageFilled_page]

end

/-! ### Age and patrol (R226, R408) -/

theorem Tab.find_map {β : Type} (f : β → β) (t : List (Nat × β)) (k : Nat) :
    Tab.find (t.map (fun q => (q.1, f q.2))) k = (Tab.find t k).map f := by
  induction t with
  | nil => rfl
  | cons q t ih =>
    obtain ⟨i, v⟩ := q
    by_cases hik : i = k
    · simp [Tab.find, hik]
    · simp [Tab.find, hik, ih]

/-- Every page's age halved at the next multiple of the decay period `k` (R226). -/
def agesHalved (k : Nat) (s : State) : State :=
  (s.at ((s.dtime / k + 1) * k)).modMt (fun m => { m with pages := m.pages.map (fun p => (p.1, { p.2 with age := p.2.age / 2 })) })

theorem decayTick_eq (s : State) (h : 0 < 4096 * s.fld R.MT_AGE_CFG F.MT_AGE_CFG_TICK) :
    decayTick s = agesHalved (4096 * s.fld R.MT_AGE_CFG F.MT_AGE_CFG_TICK) s := if_neg (by omega)

theorem agesHalved_dtime (k : Nat) (s : State) (h : 0 < k) : (agesHalved k s).dtime = (s.dtime / k + 1) * k := by
  have hle : s.dtime ≤ (s.dtime / k + 1) * k := by
    rw [Nat.mul_comm]
    exact (Nat.lt_mul_div_succ s.dtime h).le
  exact max_eq_right hle

theorem agesHalved_age (k : Nat) (s : State) (q : Nat) : ((agesHalved k s).page q).age = (s.page q).age / 2 := by
  have hfind : Tab.find (agesHalved k s).mt.pages q
      = (Tab.find s.mt.pages q).map (fun r : PageRec => { r with age := r.age / 2 }) :=
    Tab.find_map (fun r : PageRec => { r with age := r.age / 2 }) _ _
  rw [State.page, State.page, Tab.get, Tab.get, hfind]
  cases Tab.find s.mt.pages q <;> rfl

/-- The patrol at its next frame (R408). -/
def patrolMoved (s : State) : State :=
  { s with rel := { s.rel with patrolTier := s.patrolNext.1, patrolFrame := s.patrolNext.2 } }

/-- Whether the patrol leaves its frame out: its page moves, or it is under memory test. -/
def patrolSkips (s : State) : Bool :=
  (match s.mt.pages.find? (fun p => p.2.tier == s.rel.patrolTier && p.2.frame == s.rel.patrolFrame && p.2.owner.isSome) with
    | some p => p.2.moving
    | none => false) || s.frameTested s.rel.patrolTier s.rel.patrolFrame

/-- A patrol read that meets no errors goes on to the next frame, and counts the sectors of its own unless it left it out. -/
theorem patrolRead_clean (s : State) (h : s.fld R.REL_THR F.REL_THR_PATROL_H ≠ 0) : patrolRead [] s
    = if patrolSkips s then patrolMoved s else ((patrolMoved s).count Pg.rel1 0 4096).count Pg.rel1 1 0 := by
  unfold patrolRead
  exact (if_neg h).trans rfl

/-! ### The fill of page 0 -/

/-- A part whose byte 0 of DA is 1, and whose migration engine is about to end the fill of page 0 with that page's domain on. -/
def fillOfPageZero : State :=
  { (State.reset.setReg (R.PWR_DOM_STATUS 18) 2).setFld R.CLK_STATUS F.CLK_STATUS_PLL_LOCK 1 with
    da := [(0, 1)], mt := { job := some (.fill 0) } }

theorem fillOfPageZero_on : fillOfPageZero.domOn (fillOfPageZero.sectorDomain 0) = true := by decide

/-- Refutes O25: the clause on the bytes outside a filled page takes them and the page's bounds in `Fin 131072`, where both bounds
are 0. It so says of every byte below 131,072 that no fill changes it, and the fill of page 0 turns its bytes to zeros. With
addresses of DA for bounds it is `pageFilled_outside`. -/
theorem not_pagesAreAllocatedFilledMovedAndFreed : ¬ Obligations.PagesAreAllocatedFilledMovedAndFreed := by
  unfold Obligations.PagesAreAllocatedFilledMovedAndFreed
  rintro ⟨-, hpages⟩
  obtain ⟨-, -, hfill, -, -⟩ := hpages fillOfPageZero 0
  obtain ⟨t, -, -, -, hzero, hkept, -⟩ := hfill rfl fillOfPageZero_on rfl
  have hcleared : Memory.read t.da 0 = 0 := hzero 0 (by decide)
  have hbefore : Memory.read t.da 0 = 1 := hkept 0 (.inr (by decide))
  exact absurd (hcleared.symm.trans hbefore) (by decide)

end Sys2Proof.Machine
end

section
/-! PROOFS. Wide values that two registers show (R248, R269, R471): a read of the low half latches the high one. -/

namespace Sys2Proof.Machine

/-- The two halves of a value of at most 64 bits spell it. -/
theorem halves_join (v : Nat) (h : v < 2 ^ 64) :
    (BitVec.ofNat 32 v).toNat + 2 ^ 32 * (BitVec.ofNat 32 (v / 2 ^ 32)).toNat = v := by
  simp only [BitVec.toNat_ofNat]
  omega

section
variable (iid : Nat) (s : State)

theorem busRead_clkDtimeLo (h : s.Permits iid R.CLK_DTIME_LO false .clk 0) (hon : s.domOn 30 = true) :
    busRead iid R.CLK_DTIME_LO s
      = (s.setReg R.CLK_DTIME_HI (BitVec.ofNat 32 (s.dtime / 2 ^ 32))).answers (BitVec.ofNat 32 s.dtime) := by
  rw [busRead_block iid R.CLK_DTIME_LO s .clk 0 h hon (by decide)]
  exact attributeErr_quiet _ _ _ _ (State.reg_setReg_ne s _ _ _ (by decide))

theorem busRead_clkDtimeHi (h : s.Permits iid R.CLK_DTIME_HI false .clk 0) (hon : s.domOn 30 = true) :
    busRead iid R.CLK_DTIME_HI s = s.answers (s.reg R.CLK_DTIME_HI) := by
  rw [busRead_block iid R.CLK_DTIME_HI s .clk 0 h hon (by decide)]
  exact attributeErr_quiet _ _ _ _ rfl

theorem busRead_brzIdxLo (h : s.Permits iid R.BRZ_IDX_LO false .brz0 0) (hon : s.domOn 30 = true) :
    busRead iid R.BRZ_IDX_LO s
      = (s.setReg R.BRZ_IDX_HI (BitVec.ofNat 32 (s.newest / 2 ^ 32 % 65536))).answers (BitVec.ofNat 32 s.newest) := by
  rw [busRead_block iid R.BRZ_IDX_LO s .brz0 0 h hon (by decide)]
  exact attributeErr_quiet _ _ _ _ (State.reg_setReg_ne s _ _ _ (by decide))

theorem busRead_brzIdxHi (h : s.Permits iid R.BRZ_IDX_HI false .brz0 0) (hon : s.domOn 30 = true) :
    busRead iid R.BRZ_IDX_HI s = s.answers (s.reg R.BRZ_IDX_HI) := by
  rw [busRead_block iid R.BRZ_IDX_HI s .brz0 0 h hon (by decide)]
  exact attributeErr_quiet _ _ _ _ rfl

theorem busRead_agCurLo (g : Nat) (h : s.Permits iid (R.BRZ_AG_CUR_LO g) false .brzAg g) (hon : s.domOn 30 = true) :
    busRead iid (R.BRZ_AG_CUR_LO g) s
      = (s.setReg (R.BRZ_AG_CUR_HI g) (BitVec.ofNat 32 ((s.ag g).cursor / 2 ^ 32 % 65536))).answers
          (BitVec.ofNat 32 (s.ag g).cursor) := by
  have hoff : R.BRZ_AG_CUR_LO g % 4096 = 0x118 := by unfold R.BRZ_AG_CUR_LO Pg.brzAg; omega
  have hread : blockRead iid .brzAg g 0x118 (R.BRZ_AG_CUR_LO g) (s.answers 0) = agCurLoRead g (s.answers 0) := rfl
  rw [busRead_block iid (R.BRZ_AG_CUR_LO g) s .brzAg g h hon (by omega), hoff, hread]
  refine attributeErr_quiet _ _ _ _ (State.reg_setReg_ne s _ _ _ ?_)
  rw [hoff]
  unfold R.BRZ_AG_CUR_LO R.BRZ_AG_CUR_HI Hdr.errStat
  omega

end

/-- Settles O29: the read of LO latches HI, which is what the later read of HI returns. -/
theorem latchedHalvesReadAsOneValue : Obligations.LatchedHalvesReadAsOneValue := by
  unfold Obligations.LatchedHalvesReadAsOneValue
  intro s u iid hs hu
  refine ⟨fun hlo hhi hlt => ⟨_, congrArg Host.Outcome.next (busRead_clkDtimeLo iid s hlo hs), fun hlatch =>
      ⟨_, congrArg Host.Outcome.next (busRead_clkDtimeHi iid u hhi hu), ?_⟩⟩,
    fun hlo hhi hlt => ⟨_, congrArg Host.Outcome.next (busRead_brzIdxLo iid s hlo hs), fun hlatch =>
      ⟨_, congrArg Host.Outcome.next (busRead_brzIdxHi iid u hhi hu), ?_⟩⟩⟩
  · have hword : u.reg R.CLK_DTIME_HI = BitVec.ofNat 32 (s.dtime / 2 ^ 32) := hlatch.trans (State.reg_setReg_same s _ _)
    rw [hword]
    exact halves_join s.dtime hlt
  · have hword : u.reg R.BRZ_IDX_HI = BitVec.ofNat 32 (s.newest / 2 ^ 32 % 65536) := hlatch.trans (State.reg_setReg_same s _ _)
    rw [hword, Nat.mod_eq_of_lt (by omega)]
    exact halves_join s.newest (by omega)

end Sys2Proof.Machine
end

section
/-! PROOFS. The window onto the Breeze scratchpad (R253, R268) and audio groups (R249 to R252, R269): an access through the
window, the commands of a group, and the delivery of a whole block. -/

namespace Sys2Proof.Machine

/-! ### The Breeze scratchpad (R253, R268) -/

section
variable (s : State)

/-- The bytes of a word that a list of four is written over, and of every other word. -/
theorem readList_writeList_word (m : List Host.Cell) (a w : Nat) (bs : List Byte) (hw : Memory.wf m = true)
    (hlen : bs.length = 4) :
    Memory.readList (Memory.writeList m (4 * a) bs) (4 * w) 4 = if w = a then bs else Memory.readList m (4 * w) 4 := by
  have hbyte (k : Nat) (hk : k < 4) : Memory.read (Memory.writeList m (4 * a) bs) (4 * w + k)
      = if w = a then bs.getD k 0 else Memory.read m (4 * w + k) := by
    rw [Memory.read_writeList _ _ _ _ hw]
    by_cases h : w = a
    · rw [if_pos (by omega), if_pos h, h, Nat.add_sub_cancel_left]
    · rw [if_neg (by omega), if_neg h]
  refine List.ext_getElem ?_ fun k h1 h2 => ?_
  · split <;> simp [Memory.length_readList, hlen]
  · have hk : k < 4 := by rwa [Memory.length_readList] at h1
    have hl := Memory.getD_readList 4 (Memory.writeList m (4 * a) bs) (4 * w) k hk
    have hr := Memory.getD_readList 4 m (4 * w) k hk
    rw [List.getD_eq_getElem _ _ h1, hbyte k hk] at hl
    rw [hl]
    split
    · rw [List.getD_eq_getElem _ _ (by omega)]
    · rw [← hr, List.getD_eq_getElem _ _ (by rwa [Memory.length_readList])]

/-- A word of the Breeze scratchpad written. -/
def spmWritten (a : Nat) (v : Word) (s : State) : State :=
  s.modBrz (fun z => { z with spm := Memory.writeList z.spm (4 * a) (leBytes 4 v.toNat) })

theorem spmWritten_word (a : Nat) (v : Word) (w : Nat) (hw : Memory.wf s.brz.spm = true) :
    (spmWritten a v s).spmWord w = if w = a then v.toNat else s.spmWord w := by
  have h := readList_writeList_word s.brz.spm a w (leBytes 4 v.toNat) hw (leBytes_length 4 _)
  rw [State.spmWord, spmWritten, State.modBrz, h]
  split
  · exact ofLeBytes_leBytes 4 _ v.isLt
  · rfl

/-- Whether a word lies inside the extent of an armed model (R268). -/
def State.spmArmed (s : State) (a : Nat) : Bool :=
  anyBelow 16 (fun m => s.armedModel m && decide (s.fld (R.BRZ_MODEL_LOC m) F.BRZ_MODEL_LOC_BASE ≤ a / 128
    ∧ a / 128 < s.fld (R.BRZ_MODEL_LOC m) F.BRZ_MODEL_LOC_BASE + s.fld (R.BRZ_MODEL_LOC m) F.BRZ_MODEL_LOC_ROWS))

theorem anyBelow_iff (n : Nat) (p : Nat → Bool) : anyBelow n p = true ↔ ∃ k, k < n ∧ p k = true := by
  induction n with
  | zero => simp [anyBelow]
  | succ n ih =>
    rw [anyBelow, Bool.or_eq_true, ih]
    constructor
    · rintro (⟨k, hk, h⟩ | h)
      · exact ⟨k, Nat.lt_succ_of_lt hk, h⟩
      · exact ⟨n, Nat.lt_succ_self n, h⟩
    · rintro ⟨k, hk, h⟩
      rcases Nat.lt_succ_iff_lt_or_eq.mp hk with hlt | rfl
      · exact .inl ⟨k, hlt, h⟩
      · exact .inr h

theorem spmArmed_iff (a : Nat) : s.spmArmed a = true ↔ ∃ m, m < 16 ∧ s.armedModel m = true
    ∧ s.fld (R.BRZ_MODEL_LOC m) F.BRZ_MODEL_LOC_BASE ≤ a / 128
    ∧ a / 128 < s.fld (R.BRZ_MODEL_LOC m) F.BRZ_MODEL_LOC_BASE + s.fld (R.BRZ_MODEL_LOC m) F.BRZ_MODEL_LOC_ROWS := by
  simp only [State.spmArmed, anyBelow_iff, Bool.and_eq_true, decide_eq_true_eq]

theorem spmStep_addr : (spmStep s).reg R.BRZ_SPM_ADDR
    = BitVec.ofNat 32 ((s.fld R.BRZ_SPM_ADDR F.BRZ_SPM_ADDR_ADDR + 1) % 131072) := State.reg_setReg_same s _ _

theorem spmStep_reg_ne (a : Nat) (h : a ≠ R.BRZ_SPM_ADDR) : (spmStep s).reg a = s.reg a := State.reg_setReg_ne s _ _ _ h

theorem mergeWord_full (old v : Word) : mergeWord old 0xFFFFFFFF#32 v = v := by
  have hnone : (~~~0xFFFFFFFF#32 : Word) = 0#32 := by decide
  rw [mergeWord, and_full, hnone, BitVec.and_zero, BitVec.zero_or]

section
variable (iid : Nat)

/-- A write of BRZ_SPM_DATA is a write through the window. -/
theorem wordWrite_spmData (v : Word) (h : s.Admits iid R.BRZ_SPM_DATA .brz4 0) :
    wordWrite iid R.BRZ_SPM_DATA v s = attributeErr iid R.BRZ_SPM_DATA s (spmWrite v s) := by
  obtain ⟨⟨hb, h29, hg, hconf⟩, hon⟩ := h
  have hf : findReg (R.BRZ_SPM_DATA % 4096) (regsOf .brz4)
      = some (⟨0x104, 1, 0x0, 1, 0x0, .any, [⟨31, 0, .rw, 0, 0, []⟩]⟩, 0, 0) := by decide
  have hport : isPort .brz4 (R.BRZ_SPM_DATA % 4096) = true := by decide
  have hneeds : needsOutcome R.BRZ_SPM_DATA = false := by decide
  have hwindow : portAccess .brz4 0 (some (0xFFFFFFFF#32, v)) s = spmWrite v s :=
    congrArg (spmWrite · s) (mergeWord_full _ v)
  unfold wordWrite busWrite
  rw [hneeds]
  unfold busWriteWith
  rw [withGate_open _ _ _ _ _ hb h29, hg]
  simp only [hconf, Bool.false_eq_true, if_false]
  rw [if_neg (by decide), hf]
  simp only [hport, hon, if_true, hwindow]

theorem spmWrite_armed (v : Word) (h : s.spmArmed (s.fld R.BRZ_SPM_ADDR F.BRZ_SPM_ADDR_ADDR) = true) :
    spmWrite v s = spmStep (errEvent Pg.brz4 E.brz4_LOAD_ARMED s) := if_pos h

theorem spmWrite_free (v : Word) (h : ¬ s.spmArmed (s.fld R.BRZ_SPM_ADDR F.BRZ_SPM_ADDR_ADDR) = true) :
    spmWrite v s = spmStep (spmWritten (s.fld R.BRZ_SPM_ADDR F.BRZ_SPM_ADDR_ADDR) v s) := if_neg h

theorem busRead_spmData (h : s.Permits iid R.BRZ_SPM_DATA false .brz4 0) (hon : s.domOn 30 = true) :
    busRead iid R.BRZ_SPM_DATA s = spmRead s := by
  have hread : blockRead iid .brz4 0 (R.BRZ_SPM_DATA % 4096) R.BRZ_SPM_DATA (s.answers 0) = spmRead s := rfl
  rw [busRead_block iid R.BRZ_SPM_DATA s .brz4 0 h hon (by decide), hread]
  exact attributeErr_quiet _ _ _ _ (spmStep_reg_ne (s.answers _) _ (by decide))

end

/-- What an access's share of an error leaves alone (R43). -/
theorem attributeErr_brz (iid a : Nat) (old : State) : (attributeErr iid a old s).brz = s.brz := by
  unfold attributeErr
  dsimp only
  split <;> rfl

/-- A write through the window outside armed models reaches its word (R268). -/
theorem exec_spmData_write (iid : Fin 24) (v : Word) (h : s.Admits iid R.BRZ_SPM_DATA .brz4 0)
    (hfree : ¬ s.spmArmed (s.fld R.BRZ_SPM_ADDR F.BRZ_SPM_ADDR_ADDR) = true) :
    exec (.brzSpmData iid (some v)) s
      = .next (spmStep (spmWritten (s.fld R.BRZ_SPM_ADDR F.BRZ_SPM_ADDR_ADDR) v s)) := by
  show Host.Outcome.next (wordWrite iid R.BRZ_SPM_DATA v s) = _
  rw [wordWrite_spmData s iid v h, spmWrite_free s v hfree]
  exact congrArg _ (attributeErr_quiet _ _ _ _ (spmStep_reg_ne _ _ (by decide)))

/-- A write through the window inside an armed model is an error of the access (R43, R268). -/
theorem exec_spmData_armed (iid : Fin 24) (v : Word) (h : s.Admits iid R.BRZ_SPM_DATA .brz4 0)
    (harmed : s.spmArmed (s.fld R.BRZ_SPM_ADDR F.BRZ_SPM_ADDR_ADDR) = true) :
    exec (.brzSpmData iid (some v)) s
      = .next (attributeErr iid R.BRZ_SPM_DATA s (spmStep (errEvent Pg.brz4 E.brz4_LOAD_ARMED s))) := by
  show Host.Outcome.next (wordWrite iid R.BRZ_SPM_DATA v s) = _
  rw [wordWrite_spmData s iid v h, spmWrite_armed s v harmed]

end

/-! ### Commands of an audio group (R251, R269) -/

section
variable (g i : Nat) (below : Bool) (s : State)

theorem ag_setAg_same (x : AudioGroup) : (s.setAg g x).ag g = x := Tab.get_set_same _ _ _ _

theorem moveCursor_ag : (moveCursor g i s).ag g = { s.ag g with cursor := i % 2 ^ 48 } := ag_setAg_same g s _

theorem activate_ag : (activate g i below s).ag g = { s.ag g with cursor := i % 2 ^ 48, fresh := true, below := below } := by
  have h : (activate g i below s).ag g = { (moveCursor g i s).ag g with fresh := true, below := below } :=
    ag_setAg_same g (moveCursor g i s) _
  rw [h, moveCursor_ag]

theorem activate_active : (activate g i below s).agActive g = true := by
  rw [State.agActive, State.flag, activate, State.fld_setFld_same _ _ _ _ (by decide)]
  rfl

theorem activate_reg_ne (a : Nat) (h1 : a ≠ R.BRZ_AG_CUR_LO g) (h2 : a ≠ R.BRZ_AG_STATUS g) :
    (activate g i below s).reg a = s.reg a :=
  (State.reg_setFld_ne _ _ _ _ _ h2).trans (State.reg_setReg_ne (s.setAg g _) _ _ _ h1)

theorem stopGroup_idle : (stopGroup g s).agActive g = false := by
  rw [State.agActive, State.flag, stopGroup, State.fld_setFld_other _ _ _ _ _ (by decide) (by decide),
    State.fld_setFld_same _ _ _ _ (by decide)]
  rfl

theorem stopGroup_reg_ne (a : Nat) (h : a ≠ R.BRZ_AG_STATUS g) : (stopGroup g s).reg a = s.reg a :=
  (State.reg_setFld_ne _ _ _ _ _ h).trans (State.reg_setFld_ne _ _ _ _ _ h)

theorem agCmd_reg_ne (cmd a : Nat) (h1 : a ≠ R.BRZ_AG_CUR_LO g) (h2 : a ≠ R.BRZ_AG_STATUS g) :
    (agCmd g cmd s).reg a = s.reg a := by
  unfold agCmd
  split
  · exact activate_reg_ne g _ _ s a h1 h2
  · exact stopGroup_reg_ne g s a h2
  · exact activate_reg_ne g _ _ s a h1 h2
  · rfl

/-- A permitted write of BRZ_AG_CMD is its command. -/
theorem wordWrite_agCmd (iid : Nat) (g : Fin 16) (v : Word) (h : s.Admits iid (R.BRZ_AG_CMD g) .brzAg g) :
    wordWrite iid (R.BRZ_AG_CMD g) v s = agCmd g (bitsOf v.toNat 1 0) s := by
  have hneeds : ∀ g : Fin 16, needsOutcome (R.BRZ_AG_CMD g) = false := by decide
  have hoff : R.BRZ_AG_CMD g % 4096 = 0x108 := by unfold R.BRZ_AG_CMD Pg.brzAg; omega
  have hpage : R.BRZ_AG_CMD g / 4096 = 0x610 + g := by unfold R.BRZ_AG_CMD Pg.brzAg; omega
  have hf : findReg (R.BRZ_AG_CMD g % 4096) (regsOf .brzAg)
      = some (⟨0x108, 1, 0x0, 1, 0x0, .any, [⟨1, 0, .wo, 0, 0, []⟩]⟩, 0, 0) := by rw [hoff]; decide
  have hplain : PlainFields (R.BRZ_AG_CMD g) [⟨1, 0, .wo, 0, 0, []⟩] :=
    plainFields_of _ _ (by decide) (by rw [hpage]; unfold Pg.brz1; omega) (by omega)
  rw [busWrite_command iid (R.BRZ_AG_CMD g) v s .brzAg g _ 0 0 h (hneeds g) (by omega) hf (by rw [hoff]; decide) hplain
    (by decide) (by simp [commandOk, FldDef.ok]), hoff]
  refine attributeErr_quiet _ _ _ _ (agCmd_reg_ne g s _ _ ?_ ?_) <;>
    (simp only [R.BRZ_AG_CMD, R.BRZ_AG_CUR_LO, R.BRZ_AG_STATUS, Pg.brzAg, Hdr.errStat]
     omega)

end

theorem exec_agActivate (iid : Fin 24) (g : Fin 16) (s : State) (h : s.Admits iid (R.BRZ_AG_CMD g) .brzAg g) :
    exec (.agActivate iid g) s = .next (activate g s.brz.written false s) :=
  congrArg Host.Outcome.next (wordWrite_agCmd s iid g 1#32 h)

theorem exec_agSeek (iid : Fin 24) (g : Fin 16) (s : State) (h : s.Admits iid (R.BRZ_AG_CMD g) .brzAg g) :
    exec (.agSeek iid g) s
      = .next (activate g (s.pair (R.BRZ_AG_SEEK_LO g) (R.BRZ_AG_SEEK_HI g) % 2 ^ 48) false s) :=
  congrArg Host.Outcome.next (wordWrite_agCmd s iid g 3#32 h)

theorem exec_agStop (iid : Fin 24) (g : Fin 16) (s : State) (h : s.Admits iid (R.BRZ_AG_CMD g) .brzAg g) :
    exec (.agStop iid g) s = .next (stopGroup g s) :=
  congrArg Host.Outcome.next (wordWrite_agCmd s iid g 2#32 h)

/-! ### The delivery of a block (R249 to R252) -/

/-- The state but for the rows of the scratchpads and the free values drawn. -/
def State.sansRows (s : State) : State := { s with spad := [], rowPoison := [], free := 0 }

theorem writeRow_sansRows (s : State) (n r : Nat) (bs : List Byte) (src : Nat) :
    (s.writeRow n r bs src).sansRows = s.sansRows := rfl

/-- What states that differ by rows and free values share. -/
theorem shared_of_sansRows {u s : State} (h : u.sansRows = s.sansRows) :
    u.regs = s.regs ∧ u.cnt = s.cnt ∧ u.brz = s.brz ∧ u.da = s.da := by
  have hregs : u.sansRows.regs = s.sansRows.regs := congrArg State.regs h
  have hcnt : u.sansRows.cnt = s.sansRows.cnt := congrArg State.cnt h
  have hbrz : u.sansRows.brz = s.sansRows.brz := congrArg State.brz h
  have hda : u.sansRows.da = s.sansRows.da := congrArg State.da h
  exact ⟨hregs, hcnt, hbrz, hda⟩

theorem drew_sansRows (s : State) (k : Nat) : (s.drew k).sansRows = s.sansRows := rfl

/-- HEAD moved over `rows` rows of region `r` of core `n`, with their counts. -/
def blockCommitted (n r rows : Nat) (s : State) : State := (advanceHead n r rows s).count (Pg.spd3 n) 1 rows

/-- Group `g` past a delivered block, at index `i` and waiting no longer. -/
def groupMovedOn (g i : Nat) (s : State) : State :=
  ((moveCursor g i s).setAg g { (moveCursor g i s).ag g with fresh := false, below := false, desc := [] }).setFld
    (R.BRZ_AG_STATUS g) F.BRZ_AG_STATUS_WAITING 0

/-- The cycles that group `g` waited counted, where it did. -/
def waitEnded (g : Nat) (waited : Bool) (s : State) : State := if waited then countFree (cntKey (Pg.brzAg g) 2) s else s

/-- FEED_ERR and the count of a muted block. -/
def blockMuted (g feed : Nat) (muted : Bool) (s : State) : State :=
  if muted then (s.setFld (R.BRZ_AG_STATUS g) F.BRZ_AG_STATUS_FEED_ERR feed).count (Pg.brzAg g) 3 1 else s

/-- The error and the count of a clipped block. -/
def blockClipped (g : Nat) (clipped : Bool) (s : State) : State :=
  if clipped then errEvent (Pg.brzAg g) E.brzAg_CLIPPED (s.count Pg.brz0 4 1) else s

/-- The count of a block of group `g`, and the reports of its delivery. -/
def blockReported (g feed : Nat) (waited muted clipped : Bool) (s : State) : State :=
  blockClipped g clipped (blockMuted g feed muted (waitEnded g waited (s.count (Pg.brzAg g) 0 1)))

section
variable (g : Nat) (s : State)

/-- The core that group `g` delivers to. -/
def State.agCore (s : State) (g : Nat) : Nat := wordFld (s.reg (R.BRZ_AG_CFG g)) F.BRZ_AG_CFG_CORE

/-- The region of that core that takes its blocks. -/
def State.agRegion (s : State) (g : Nat) : Nat := wordFld (s.reg (R.BRZ_AG_CFG g)) F.BRZ_AG_CFG_REGION

/-- The samples of a block, of each channel. -/
def State.agSamples (s : State) (g : Nat) : Nat := 64 * wordFld (s.reg (R.BRZ_AG_CFG g)) F.BRZ_AG_CFG_BLOCK

/-- The rows of a block: its header, and each channel's plane. -/
def State.agRows (s : State) (g : Nat) : Nat := 1 + (maskBits (s.reg (R.BRZ_AG_CH g)).toNat).length
  * ceilDiv (s.agSamples g * agElemBytes (wordFld (s.reg (R.BRZ_AG_CFG g)) F.BRZ_AG_CFG_FMT)) 512

/-- The next block of group `g` is complete, all of it is retained, and its region takes it (R251, R252). -/
structure BlockDue (g : Nat) (s : State) : Prop where
  active : s.agActive g = true
  enabled : wordFld (s.reg (R.BRZ_AG_CFG g)) F.BRZ_AG_CFG_EN = 1
  retained : s.oldest ≤ (s.ag g).cursor
  complete : (s.ag g).cursor + s.agSamples g ≤ s.brz.written
  coreOn : s.domOn (s.agCore g) = true
  ring : (s.rgn (s.agCore g) (s.agRegion g)).raw = false
  access : s.accessOk (s.agCore g) (s.rgn (s.agCore g) (s.agRegion g)).ctx (s.agRegion g) (some ⟨5, g⟩) = true
  room : s.agRows g ≤ (s.rgn (s.agCore g) (s.agRegion g)).free

/-- A delivery writes rows, moves HEAD over them and the group past the block, and reports. -/
theorem deliverBlock_eq (hdue : BlockDue g s) :
    ∃ u feed muted clipped, u.sansRows = s.sansRows ∧ deliverBlock g s
      = blockReported g feed (s.flag (R.BRZ_AG_STATUS g) F.BRZ_AG_STATUS_WAITING) muted clipped
          (groupMovedOn g ((s.ag g).cursor + s.agSamples g) (blockCommitted (s.agCore g) (s.agRegion g) (s.agRows g) u)) := by
  obtain ⟨hact, hen, hold, hnew, hon, hraw, hacc, hfree⟩ := hdue
  generalize hd : deliverBlock g s = t
  unfold deliverBlock at hd
  extract_lets a cfg k first n r code x chans pr rows wait late clipped jump skipped fl muted flags feed head gr s1 s2 s3 s4 _
    s5 s6 s7 s8 s9 at hd
  have hfirst : first = a.cursor := max_eq_left hold
  have hlate : late = false := decide_eq_false (Nat.not_lt.mpr hold)
  have hready : ¬ (!s.agActive g || wordFld cfg F.BRZ_AG_CFG_EN == 0 || decide (s.brz.written < first + k)) = true := by
    have hwhole : ¬ s.brz.written < first + k := Nat.not_lt.mpr (hfirst ▸ hnew)
    simp [hact, cfg, hen, hwhole]
  have hpost : ¬ (!s.accessOk n x r (some ⟨5, g⟩) || (s.rgn n r).raw) = true := by
    have hraw' : (s.rgn n r).raw = false := hraw
    have hacc' : s.accessOk n x r (some ⟨5, g⟩) = true := hacc
    rw [hraw', hacc']
    decide
  have hrunning : ¬ (!s.domOn n) = true := by
    have hon' : s.domOn n = true := hon
    rw [hon']
    decide
  have hroom : ¬ (s.rgn n r).free < rows := Nat.not_lt.mpr hfree
  have hhere : ¬ jump = true := by simp [jump, hlate]
  rw [if_neg hready, if_neg hrunning, if_neg hpost, if_neg hroom, if_neg hhere] at hd
  have hhead : s1.sansRows = s.sansRows := writeRow_sansRows s n _ _ _
  have hplanes : s2.sansRows = s1.sansRows := foldl_keeps State.sansRows _
    (fun t q => iter_keeps State.sansRows _ (fun j u => writeRow_sansRows u n _ _ _) pr t) chans.zipIdx s1
  refine ⟨s2.drew (512 * pr * chans.length), feed, muted, clipped, (drew_sansRows s2 _).trans (hplanes.trans hhead), ?_⟩
  rw [← hd, ← hfirst]
  rfl

section
variable (n r rows : Nat)

theorem blockCommitted_frame : blockCommitted n r rows s
    = { s with regs := (blockCommitted n r rows s).regs, cnt := (blockCommitted n r rows s).cnt } := by
  rw [blockCommitted, advanceHead_frame]
  rfl

theorem blockCommitted_brz : (blockCommitted n r rows s).brz = s.brz := by rw [blockCommitted_frame]

theorem blockCommitted_da : (blockCommitted n r rows s).da = s.da := by rw [blockCommitted_frame]

theorem blockCommitted_head (hraw : (s.rgn n r).raw = false) (hrows : 0 < rows) :
    (blockCommitted n r rows s).reg (R.SPD_REGION_HEAD n r)
      = ptrWord (movePtr (s.rgn n r).size (s.rgn n r).head (s.rgn n r).headWrap rows) := by
  rw [blockCommitted, State.count_reg, advanceHead, if_neg (by simp [hraw]; omega)]
  exact State.reg_setReg_same s _ _

theorem blockCommitted_counter (c : Nat) (h3 : c ≠ cntKey (Pg.spd3 n) 1) (h5 : c ≠ cntKey (Pg.spd5 n) 0) :
    (blockCommitted n r rows s).counter c = s.counter c := by
  rw [blockCommitted, State.counter_count_ne _ _ _ _ _ h3, advanceHead]
  split
  · rfl
  · exact State.counter_count_ne _ _ _ _ _ h5

end

theorem groupMovedOn_cursor (i : Nat) : ((groupMovedOn g i s).ag g).cursor = i % 2 ^ 48 := by
  have h : (groupMovedOn g i s).ag g = { (moveCursor g i s).ag g with fresh := false, below := false, desc := [] } :=
    ag_setAg_same g (moveCursor g i s) _
  rw [h, moveCursor_ag]

theorem groupMovedOn_reg_ne (i a : Nat) (h1 : a ≠ R.BRZ_AG_CUR_LO g) (h2 : a ≠ R.BRZ_AG_STATUS g) :
    (groupMovedOn g i s).reg a = s.reg a :=
  (State.reg_setFld_ne _ _ _ _ _ h2).trans (State.reg_setReg_ne (s.setAg g _) _ _ _ h1)

theorem groupMovedOn_ring (i : Nat) : (groupMovedOn g i s).brz.ring = s.brz.ring := rfl
theorem groupMovedOn_da (i : Nat) : (groupMovedOn g i s).da = s.da := rfl
theorem groupMovedOn_counter (i c : Nat) : (groupMovedOn g i s).counter c = s.counter c := rfl

/-- The Breeze domain's own state, DA, the registers beyond the status and the errors of group `g`, and its count of blocks are
as before. -/
def ReportOnly (s t : State) : Prop :=
  t.brz = s.brz ∧ t.da = s.da
    ∧ (∀ a, a ≠ R.BRZ_AG_STATUS g → a ≠ Pg.brzAg g + Hdr.errStat → a ≠ Pg.brzAg g + Hdr.errFirst → t.reg a = s.reg a)
    ∧ t.counter (cntKey (Pg.brzAg g) 0) = s.counter (cntKey (Pg.brzAg g) 0)

theorem ReportOnly.trans {g : Nat} {s t u : State} (h : ReportOnly g s t) (k : ReportOnly g t u) : ReportOnly g s u := by
  obtain ⟨hb, hd, hr, hc⟩ := h
  obtain ⟨kb, kd, kr, kc⟩ := k
  exact ⟨kb.trans hb, kd.trans hd, fun a h1 h2 h3 => (kr a h1 h2 h3).trans (hr a h1 h2 h3), kc.trans hc⟩

theorem ReportOnly.refl : ReportOnly g s s := ⟨rfl, rfl, fun _ _ _ _ => rfl, rfl⟩

theorem reportOnly_waitEnded (waited : Bool) : ReportOnly g s (waitEnded g waited s) := by
  unfold waitEnded
  split
  · exact ⟨rfl, rfl, fun _ _ _ _ => rfl, State.counter_addCnt_ne s _ _ _ (by unfold cntKey; omega)⟩
  · exact ReportOnly.refl g s

theorem reportOnly_blockMuted (feed : Nat) (muted : Bool) : ReportOnly g s (blockMuted g feed muted s) := by
  unfold blockMuted
  split
  · exact ⟨rfl, rfl, fun _ hs _ _ => State.reg_setFld_ne s _ _ _ _ hs,
      State.counter_count_ne _ _ _ _ _ (by unfold cntKey; omega)⟩
  · exact ReportOnly.refl g s

theorem reportOnly_blockClipped (clipped : Bool) : ReportOnly g s (blockClipped g clipped s) := by
  unfold blockClipped
  split
  · refine ⟨errEvent_brz _ _ _, by rw [errEvent_frame]; rfl, fun _ _ h1 h2 => errEvent_reg_ne _ _ _ _ h1 h2, ?_⟩
    rw [errEvent_counter]
    exact State.counter_count_ne s _ _ _ _ (by unfold cntKey Pg.brzAg Pg.brz0; omega)
  · exact ReportOnly.refl g s

theorem reportOnly_blockReported (feed : Nat) (waited muted clipped : Bool) :
    ReportOnly g (s.count (Pg.brzAg g) 0 1) (blockReported g feed waited muted clipped s) :=
  ((reportOnly_waitEnded g _ waited).trans (reportOnly_blockMuted g _ feed muted)).trans (reportOnly_blockClipped g _ clipped)

/-- What a block that group `g` delivers to region `r` of core `n`, as `rows` rows, leaves of the part. -/
theorem blockDelivered (n r rows i feed : Nat) (waited muted clipped : Bool) (u : State) (hu : u.sansRows = s.sansRows)
    (hn : n ≤ 17) (hr : r < 64) (hraw : (s.rgn n r).raw = false) (hrows : 0 < rows) :
    let t := blockReported g feed waited muted clipped (groupMovedOn g i (blockCommitted n r rows u))
    (t.ag g).cursor = i % 2 ^ 48
      ∧ t.reg (R.SPD_REGION_HEAD n r) = ptrWord (movePtr (s.rgn n r).size (s.rgn n r).head (s.rgn n r).headWrap rows)
      ∧ t.counter (cntKey (Pg.brzAg g) 0) = (s.counter (cntKey (Pg.brzAg g) 0) + 1) % 2 ^ 64
      ∧ t.brz.ring = s.brz.ring ∧ t.da = s.da := by
  intro t
  obtain ⟨hbrz, hda, hreg, hcnt⟩ : ReportOnly g ((groupMovedOn g i (blockCommitted n r rows u)).count (Pg.brzAg g) 0 1) t :=
    reportOnly_blockReported g _ feed waited muted clipped
  obtain ⟨hregs, hcounts, hown, hmem⟩ := shared_of_sansRows hu
  have hrgn : u.rgn n r = s.rgn n r := rgn_of_regs hregs n r
  refine ⟨?_, ?_, ?_, ?_, ?_⟩
  · rw [State.ag, hbrz, State.count_brz, ← State.ag, groupMovedOn_cursor]
  · have hpage : R.SPD_REGION_HEAD n r < Pg.brzAg g := by
      unfold R.SPD_REGION_HEAD Pg.spd5 Pg.brzAg
      omega
    rw [hreg _ (by unfold R.BRZ_AG_STATUS; omega) (by omega) (by omega), State.count_reg,
      groupMovedOn_reg_ne g _ i _ (by unfold R.BRZ_AG_CUR_LO; omega) (by unfold R.BRZ_AG_STATUS; omega), ← hrgn]
    exact blockCommitted_head u n r rows (by rw [hrgn]; exact hraw) hrows
  · have hcommit := blockCommitted_counter u n r rows (cntKey (Pg.brzAg g) 0)
      (by unfold cntKey Pg.brzAg Pg.spd3; omega) (by unfold cntKey Pg.brzAg Pg.spd5; omega)
    rw [hcnt, State.counter_count_same, groupMovedOn_counter, hcommit, State.counter, hcounts, State.counter]
  · rw [hbrz, State.count_brz, groupMovedOn_ring, blockCommitted_brz, hown]
  · rw [hda, State.count_da, groupMovedOn_da, blockCommitted_da, hmem]

end

/-- Settles O28: the commands of a group by the bus, its block by what a delivery writes, counts and reports, the windows by
what an access through them does. -/
theorem audioGroupsAndBreezeWindows : Obligations.AudioGroupsAndBreezeWindows := by
  unfold Obligations.AudioGroupsAndBreezeWindows
  refine ⟨fun s iid g => ⟨fun h => ⟨⟨_, exec_agActivate iid g s h, ?_⟩, ⟨_, exec_agSeek iid g s h, ?_⟩, _,
      exec_agStop iid g s h, stopGroup_idle g s, rfl, fun a ha => ?_⟩, ?_⟩,
    fun s iid g val => ⟨fun h hfree hw => ?_, fun h harmed => ?_, fun h hon => ?_, fun h hon => ?_, fun h hon => ?_⟩⟩
  · exact ⟨activate_active g _ _ s, by rw [activate_ag], by rw [activate_ag], rfl, rfl⟩
  · exact ⟨activate_active g _ _ s, by rw [activate_ag]; exact Nat.mod_mod _ _, by rw [activate_ag], rfl, rfl⟩
  · exact stopGroup_reg_ne g s a (fun e => ha (List.mem_singleton.mpr e))
  · intro hact hen hold hnew hon hn hraw hacc hfree hk
    have hdue : BlockDue g s := ⟨hact, hen, hold, hnew, hon, hraw, hacc, hfree⟩
    have hr : s.agRegion g < 64 := wordFld_lt _ F.BRZ_AG_CFG_REGION
    have hrows : 0 < s.agRows g := Nat.lt_of_lt_of_le Nat.one_pos (Nat.le_add_right _ _)
    obtain ⟨u, feed, muted, clipped, hu, heq⟩ := deliverBlock_eq g s hdue
    exact ⟨_, congrArg Host.Outcome.next heq,
      blockDelivered g s _ _ _ _ feed _ muted clipped u hu hn hr hraw hrows⟩
  · have hopen := fun e => hfree ((spmArmed_iff s _).mp e)
    refine ⟨_, exec_spmData_write s iid val h hopen, ?_, spmStep_addr _, fun w hne => ?_, rfl⟩
    · exact (spmWritten_word s _ val _ hw).trans (if_pos rfl)
    · exact (spmWritten_word s _ val w hw).trans (if_neg hne)
  · refine ⟨_, exec_spmData_armed s iid val h ((spmArmed_iff s _).mpr harmed), ?_, ?_, ?_⟩
    · rw [attributeErr_brz]
      exact errEvent_brz _ _ s
    · rw [attributeErr_reg_ne _ _ _ _ _ (by decide), spmStep_addr, errEvent_fld_ne _ _ _ _ _ (by decide) (by decide)]
    · rw [attributeErr_reg_ne _ _ _ _ _ (by decide), spmStep_reg_ne _ _ (by decide)]
      exact errEvent_sets _ _ s (by decide)
  · exact congrArg Host.Outcome.next (busRead_spmData s iid h hon)
  · exact congrArg Host.Outcome.next (busRead_brzIdxLo iid s h hon)
  · exact congrArg Host.Outcome.next (busRead_agCurLo iid s g h hon)

end Sys2Proof.Machine
end

section
/-! PROOFS. Breeze models and wakes (R253, R256 to R259, R261, R262, R267): the run that the end of a hop starts, how a run
ends, a descriptor that enters the wake queue, posts of the Gust core, and RD of the queue. -/

namespace Sys2Proof.Machine

/-! ### The end of a hop (R256) -/

section
variable (l : Nat) (s : State)

theorem hopOf_idle (j : Nat) (h : s.armedModel j = false) : hopOf l s j = s := if_neg (by simp [h])

theorem hopsOf_idle (js : List Nat) (h : ∀ j ∈ js, s.armedModel j = false) : js.foldl (hopOf l) s = s := by
  induction js with
  | nil => rfl
  | cons j js ih =>
    rw [List.foldl_cons, hopOf_idle l s j (h j (List.mem_cons_self ..))]
    exact ih fun i hi => h i (List.mem_cons_of_mem _ hi)

/-- Model `m`'s hop waits for its run. -/
def hopWaits (m : Nat) (s : State) : State :=
  (s.setBrzModel m { s.brzModel m with hops := (s.brzModel m).hops + 1 }).modBrz (fun z => { z with hops := [(m, l)] })

theorem hopWaits_regs (m : Nat) : (hopWaits l m s).regs = s.regs := rfl

section
variable (m : Nat) (harm : s.armedModel m = true) (h0 : 0 < s.fld (R.BRZ_MODEL_CFG m) F.BRZ_MODEL_CFG_HOP)
  (hl : (l + 1) % s.fld (R.BRZ_MODEL_CFG m) F.BRZ_MODEL_CFG_HOP = 0) (hq : s.brz.hops = [])
include harm h0 hl hq

/-- The hop of an armed model ends, where no hop of any model waits. -/
theorem hopOf_armed : hopOf l s m = hopWaits l m s := by
  have hends : (s.armedModel m && s.fld (R.BRZ_MODEL_CFG m) F.BRZ_MODEL_CFG_HOP != 0
      && (l + 1) % s.fld (R.BRZ_MODEL_CFG m) F.BRZ_MODEL_CFG_HOP == 0) = true := by
    simp [harm, hl, Nat.ne_of_gt h0]
  have hnone : s.brz.hops.any (fun h => h.1 == m) = false := by rw [hq]; rfl
  unfold hopOf hopWaits
  simp only [hends, if_true, hnone, Bool.false_eq_true, if_false]
  simp only [State.modBrz, State.setBrzModel, hq]
  rfl

/-- The only armed model's hop is the only one that ends. -/
theorem hopsOf_single (hm : m < 16) (hothers : ∀ j, j < 16 → j ≠ m → s.armedModel j = false) :
    (List.range 16).foldl (hopOf l) s = hopWaits l m s := by
  obtain ⟨before, after, hsplit⟩ := List.append_of_mem (List.mem_range.mpr hm)
  have hnodup : (before ++ m :: after).Nodup := hsplit ▸ List.nodup_range
  have hlt (j : Nat) (hj : j ∈ before ∨ j ∈ after) : j < 16 :=
    List.mem_range.mp (hsplit ▸ List.mem_append.mpr (hj.imp_right (List.mem_cons_of_mem m)))
  obtain ⟨-, hafter, hapart⟩ := List.nodup_append.mp hnodup
  have hidle1 : ∀ j ∈ before, s.armedModel j = false := fun j hj =>
    hothers j (hlt j (.inl hj)) (hapart j hj m (List.mem_cons_self ..))
  have hidle2 : ∀ j ∈ after, (hopWaits l m s).armedModel j = false := fun j hj =>
    hothers j (hlt j (.inr hj)) fun e => (List.nodup_cons.mp hafter).1 (e ▸ hj)
  rw [hsplit, List.foldl_append, hopsOf_idle l s before hidle1, List.foldl_cons, hopOf_armed l s m harm h0 hl hq,
    hopsOf_idle l _ after hidle2]

end

/-- The start of a run touches no register. -/
theorem startRun_reg (a : Nat) : (startRun s).reg a = s.reg a := by
  unfold startRun
  split <;> rfl

theorem startRun_model (m : Nat) : (startRun s).brzModel m = s.brzModel m := by
  unfold startRun
  split <;> rfl

/-- The run of a hop that ended at index `l`, with the registers of model `m` latched. -/
def State.runOf (s : State) (m l : Nat) : BrzRun :=
  ⟨m, l, s.reg (R.BRZ_MODEL_LOC m), s.reg (R.BRZ_MODEL_CFG m), s.reg (R.BRZ_MODEL_THR m), s.reg (R.BRZ_MODEL_PRE m)⟩

/-- The run of a hop that waits alone starts. -/
theorem startRun_hopWaits (m : Nat) (h : s.brz.run = none) : startRun (hopWaits l m s)
    = ((hopWaits l m s).modBrz (fun z => { z with hops := [], run := some (s.runOf m l) })).count Pg.brz1 0 1 := by
  have hrun : (hopWaits l m s).brz.run = none := h
  have hhops : (hopWaits l m s).brz.hops = [(m, l)] := rfl
  rw [startRun, hrun, hhops]
  rfl

/-- The newest index taken for the end of hops. -/
def hopTaken (s : State) : State := s.modBrz (fun z => { z with hopAt := some s.newest })

theorem hopEnd_single (m : Nat) (hm : m < 16) (harm : s.armedModel m = true)
    (hothers : ∀ j, j < 16 → j ≠ m → s.armedModel j = false) (hw : s.brz.written ≠ 0) (hat : s.brz.hopAt ≠ some s.newest)
    (h0 : 0 < s.fld (R.BRZ_MODEL_CFG m) F.BRZ_MODEL_CFG_HOP)
    (hl : (s.newest + 1) % s.fld (R.BRZ_MODEL_CFG m) F.BRZ_MODEL_CFG_HOP = 0) (hq : s.brz.hops = []) :
    hopEnd s = startRun (hopWaits s.newest m (hopTaken s)) := by
  have hopen : ¬ (s.brz.written = 0 ∨ s.brz.hopAt = some s.newest) := not_or.mpr ⟨hw, hat⟩
  rw [hopEnd, if_neg hopen]
  exact congrArg startRun (hopsOf_single s.newest (hopTaken s) m harm h0 hl hq hm hothers)

end

/-! ### A wake of a domain (R474): registers outside the power and clock pages -/

/-- A domain that is asked to leave retention or off either stays or begins its exit (R441, R468, R473). -/
theorem startExit_cases (d : Nat) (s : State) : startExit d s = s ∨ startExit d s = exitCounted s d (exitBegun d s) := by
  unfold startExit
  split
  · exact .inl rfl
  · exact .inr rfl

theorem startExit_reg (d : Nat) (s : State) (a : Nat) (hd : a ≠ R.PWR_DOM_STATUS d) (hp : a / 4096 ≠ Pg.pwr / 4096)
    (hc : a / 4096 ≠ Pg.clk / 4096) : (startExit d s).reg a = s.reg a := by
  have h1 : a ≠ Pg.pwr + Hdr.errStat := fun e => hp (by rw [e]; decide)
  have h2 : a ≠ Pg.pwr + Hdr.errFirst := fun e => hp (by rw [e]; decide)
  have h3 : a ≠ R.CLK_STATUS := fun e => hc (by rw [e]; decide)
  rcases startExit_cases d s with h | h <;> rw [h]
  rw [exitCounted_reg d _ s a h1 h2, exitBegun_reg d s a hd h3]

theorem wakeDom_reg (d : Nat) (unplanned : Bool) (s : State) (hd : d < 31) (a : Nat) (hp : a / 4096 ≠ Pg.pwr / 4096)
    (hc : a / 4096 ≠ Pg.clk / 4096) : (wakeDom d unplanned s).reg a = s.reg a := by
  have hne : a ≠ R.PWR_DOM_STATUS d := fun e => hp (by rw [e]; unfold R.PWR_DOM_STATUS Pg.pwr; omega)
  unfold wakeDom
  split
  · rfl
  · split
    · exact State.reg_setFld_ne (s.setDom d _) _ _ _ _ hne
    · rfl
  · exact startExit_reg d (s.setDom d _) a hne hp hc

theorem wakeDom_brz (d : Nat) (unplanned : Bool) (s : State) : (wakeDom d unplanned s).brz = s.brz := by rw [wakeDom_frame]

/-! ### A descriptor enters the wake queue (R258, R262) -/

/-- The words of a descriptor written to slot `k` of the queue, from word `i` on. -/
def descriptorWritten (k i : Nat) (ws : List Word) (s : State) : State :=
  (ws.zipIdx i).foldl (fun t q => t.setReg (R.BRZ_WQ k q.2) q.1) s

section
variable (k i : Nat) (ws : List Word) (s : State)

theorem descriptorWritten_reg_ne (a : Nat) (h : ∀ j, i ≤ j → a ≠ R.BRZ_WQ k j) :
    (descriptorWritten k i ws s).reg a = s.reg a := by
  induction ws generalizing i s with
  | nil => rfl
  | cons w ws ih =>
    exact (ih (i + 1) (s.setReg (R.BRZ_WQ k i) w) fun j hj => h j (by omega)).trans
      (State.reg_setReg_ne s _ _ _ (h i (Nat.le_refl i)))

theorem descriptorWritten_brz : (descriptorWritten k i ws s).brz = s.brz :=
  foldl_keeps State.brz (fun (t : State) (q : Word × Nat) => t.setReg (R.BRZ_WQ k q.2) q.1) (fun _ _ => rfl) _ s

theorem descriptorWritten_word (j : Nat) (hj : j < ws.length) :
    (descriptorWritten k i ws s).reg (R.BRZ_WQ k (i + j)) = ws[j] := by
  induction ws generalizing i j s with
  | nil => exact absurd hj (Nat.not_lt_zero j)
  | cons w ws ih =>
    cases j with
    | zero =>
      have hlater := descriptorWritten_reg_ne k (i + 1) ws (s.setReg (R.BRZ_WQ k i) w) (R.BRZ_WQ k i)
        fun j hj => by unfold R.BRZ_WQ; omega
      exact hlater.trans (State.reg_setReg_same s _ _)
    | succ j =>
      have h := ih (i + 1) (s.setReg (R.BRZ_WQ k i) w) j (Nat.lt_of_succ_lt_succ hj)
      rw [Nat.add_right_comm] at h
      exact h

end

/-- A descriptor in the queue, with WR, the sequence number and its count moved on. -/
def wakeQueued (ctr : Nat) (ws : List Word) (s : State) : State :=
  ((descriptorWritten (s.fld R.BRZ_WQ_PTR F.BRZ_WQ_PTR_WR % 64) 0 ws
    (s.setFld R.BRZ_WQ_SEQ F.BRZ_WQ_SEQ_NEXT (s.fld R.BRZ_WQ_SEQ F.BRZ_WQ_SEQ_NEXT + 1))).setFld
      R.BRZ_WQ_PTR F.BRZ_WQ_PTR_WR (s.fld R.BRZ_WQ_PTR F.BRZ_WQ_PTR_WR + 1)).count Pg.brz2 ctr 1

section
variable (ctr : Nat) (ws : List Word) (s : State)

theorem queueWake_room (h : s.wqUsed < 64) :
    queueWake ctr ws s = wakeDom 29 false (errEvent Pg.brz2 E.brz2_WAKE (wakeQueued ctr ws s)) := by
  rw [queueWake, if_neg (Nat.not_le.mpr h)]
  rfl

/-- Of the registers below the slots of the queue, WR and the sequence number alone move. -/
theorem wakeQueued_reg_ne (a : Nat) (h : a < Pg.brz2 + 0x400) (hp : a ≠ R.BRZ_WQ_PTR) (hs : a ≠ R.BRZ_WQ_SEQ) :
    (wakeQueued ctr ws s).reg a = s.reg a := by
  rw [wakeQueued, State.count_reg, State.reg_setFld_ne _ _ _ _ _ hp,
    descriptorWritten_reg_ne _ _ _ _ _ fun j _ => by unfold R.BRZ_WQ; omega]
  exact State.reg_setFld_ne s _ _ _ _ hs

theorem wakeQueued_word (j : Nat) (hj : j < ws.length) :
    (wakeQueued ctr ws s).reg (R.BRZ_WQ (s.fld R.BRZ_WQ_PTR F.BRZ_WQ_PTR_WR % 64) j) = ws[j] := by
  have h := descriptorWritten_word (s.fld R.BRZ_WQ_PTR F.BRZ_WQ_PTR_WR % 64) 0 ws
    (s.setFld R.BRZ_WQ_SEQ F.BRZ_WQ_SEQ_NEXT (s.fld R.BRZ_WQ_SEQ F.BRZ_WQ_SEQ_NEXT + 1)) j hj
  rw [Nat.zero_add] at h
  rw [wakeQueued, State.count_reg, State.reg_setFld_ne _ _ _ _ _ (by unfold R.BRZ_WQ R.BRZ_WQ_PTR; omega), h]

theorem wakeQueued_ptr :
    (wakeQueued ctr ws s).reg R.BRZ_WQ_PTR
      = wordSet (s.reg R.BRZ_WQ_PTR) F.BRZ_WQ_PTR_WR (s.fld R.BRZ_WQ_PTR F.BRZ_WQ_PTR_WR + 1) := by
  rw [wakeQueued, State.count_reg, State.reg_setFld_same,
    descriptorWritten_reg_ne _ _ _ _ _ fun j _ => by unfold R.BRZ_WQ R.BRZ_WQ_PTR; omega,
    State.reg_setFld_ne _ _ _ _ _ (by decide)]

theorem wakeQueued_seq : (wakeQueued ctr ws s).reg R.BRZ_WQ_SEQ
    = wordSet (s.reg R.BRZ_WQ_SEQ) F.BRZ_WQ_SEQ_NEXT (s.fld R.BRZ_WQ_SEQ F.BRZ_WQ_SEQ_NEXT + 1) := by
  rw [wakeQueued, State.count_reg, State.reg_setFld_ne _ _ _ _ _ (by decide),
    descriptorWritten_reg_ne _ _ _ _ _ fun j _ => by unfold R.BRZ_WQ R.BRZ_WQ_SEQ; omega, State.reg_setFld_same]

section
variable (h : s.wqUsed < 64)
include h

/-- A descriptor that is queued touches, of a page other than those of power and clocks, only the words of the queue and the
error status of its own page. -/
theorem queueWake_reg (a : Nat) (hp : a / 4096 ≠ Pg.pwr / 4096) (hc : a / 4096 ≠ Pg.clk / 4096)
    (h1 : a ≠ Pg.brz2 + Hdr.errStat) (h2 : a ≠ Pg.brz2 + Hdr.errFirst) :
    (queueWake ctr ws s).reg a = (wakeQueued ctr ws s).reg a := by
  rw [queueWake_room ctr ws s h, wakeDom_reg 29 false _ (by decide) a hp hc, errEvent_reg_ne _ _ _ _ h1 h2]

theorem queueWake_fld_other (a : Nat) (f : Fld) (hp : a / 4096 ≠ Pg.pwr / 4096) (hc : a / 4096 ≠ Pg.clk / 4096)
    (hq : a < Pg.brz2) : (queueWake ctr ws s).fld a f = s.fld a f := by
  rw [State.fld, queueWake_reg ctr ws s h a hp hc (by omega) (by omega),
    wakeQueued_reg_ne ctr ws s a (Nat.lt_add_right _ hq) (by unfold R.BRZ_WQ_PTR; omega)
      (by unfold R.BRZ_WQ_SEQ; omega), State.fld]

theorem queueWake_word (j : Nat) (hj : j < ws.length) (h8 : j < 8) :
    (queueWake ctr ws s).reg (R.BRZ_WQ (s.fld R.BRZ_WQ_PTR F.BRZ_WQ_PTR_WR % 64) j) = ws[j] := by
  have hpage : R.BRZ_WQ (s.fld R.BRZ_WQ_PTR F.BRZ_WQ_PTR_WR % 64) j / 4096 = Pg.brz2 / 4096 := by
    unfold R.BRZ_WQ Pg.brz2
    omega
  rw [queueWake_reg ctr ws s h _ (by rw [hpage]; decide) (by rw [hpage]; decide) (by unfold R.BRZ_WQ Hdr.errStat; omega)
    (by unfold R.BRZ_WQ Hdr.errFirst; omega), wakeQueued_word ctr ws s j hj]

/-- One descriptor more waits. -/
theorem queueWake_used : (queueWake ctr ws s).wqUsed = s.wqUsed + 1 := by
  have hptr := (queueWake_reg ctr ws s h R.BRZ_WQ_PTR (by decide) (by decide) (by decide) (by decide)).trans
    (wakeQueued_ptr ctr ws s)
  have hwr : (queueWake ctr ws s).fld R.BRZ_WQ_PTR F.BRZ_WQ_PTR_WR = (s.fld R.BRZ_WQ_PTR F.BRZ_WQ_PTR_WR + 1) % 128 := by
    rw [State.fld, hptr]
    exact wordFld_wordSet _ _ _ (by decide)
  have hrd : (queueWake ctr ws s).fld R.BRZ_WQ_PTR F.BRZ_WQ_PTR_RD = s.fld R.BRZ_WQ_PTR F.BRZ_WQ_PTR_RD := by
    rw [State.fld, hptr, wordFld_wordSet_ne _ _ _ _ (by decide) (by decide), State.fld]
  have hlt : s.fld R.BRZ_WQ_PTR F.BRZ_WQ_PTR_RD < 128 := wordFld_lt _ F.BRZ_WQ_PTR_RD
  unfold State.wqUsed at h ⊢
  rw [hwr, hrd]
  omega

theorem queueWake_seq : (queueWake ctr ws s).fld R.BRZ_WQ_SEQ F.BRZ_WQ_SEQ_NEXT
    = (s.fld R.BRZ_WQ_SEQ F.BRZ_WQ_SEQ_NEXT + 1) % 65536 := by
  rw [State.fld, queueWake_reg ctr ws s h _ (by decide) (by decide) (by decide) (by decide), wakeQueued_seq]
  exact wordFld_wordSet _ _ _ (by decide)

theorem queueWake_wakes : bitOf ((queueWake ctr ws s).reg (Pg.brz2 + Hdr.errStat)).toNat E.brz2_WAKE = true := by
  rw [queueWake_room ctr ws s h, wakeDom_reg 29 false _ (by decide) _ (by decide) (by decide)]
  exact errEvent_sets _ _ _ (by decide)

theorem queueWake_brz : (queueWake ctr ws s).brz = s.brz := by
  rw [queueWake_room ctr ws s h, wakeDom_brz, errEvent_brz, wakeQueued, State.count_brz, State.setFld_brz,
    descriptorWritten_brz, State.setFld_brz]

end

end

theorem wakeWords_length (event model origin : Nat) (muted : Bool) (conf seq start stop dtime : Nat) :
    (wakeWords event model origin muted conf seq start stop dtime).length = 8 := rfl

/-- The first word of a descriptor names its event and the model that raised it. -/
theorem wakeWords_source (event model origin : Nat) (muted : Bool) (conf seq start stop dtime : Nat) (he : event < 256)
    (hm : model < 256) :
    bitsOf ((wakeWords event model origin muted conf seq start stop dtime)[0]'(by rw [wakeWords_length]; decide)).toNat 15 0
      = event + 256 * model := by
  simp only [wakeWords, List.getElem_cons_zero, BitVec.toNat_ofNat, bitsOf]
  omega

/-! ### The end of a run (R253, R257) -/

/-- A run that has ended, with its parity errors and a failed attempt counted. -/
def runClosed (fails parity : Nat) (s : State) : State :=
  let s0 := (s.modBrz (fun z => { z with run := none })).count Pg.brz1 6 parity
  if fails = 0 then s0 else s0.count Pg.brz1 3 1

/-- A model disarmed after two failed runs (R253). -/
def modelFaulted (m : Nat) (s : State) : State :=
  let t := (s.setFld (R.BRZ_MODEL_LOC m) F.BRZ_MODEL_LOC_ARM 0).setFld (R.BRZ_MODEL_STAT m) F.BRZ_MODEL_STAT_FAULTED 1
  let t1 := t.modBrz (fun z => { z with hops := z.hops.filter (fun h => h.1 != m) })
  errEvent Pg.brz1 E.brz1_MODEL_FAULT (sumLoads (t1.setFld (R.BRZ_MODEL_STAT m) F.BRZ_MODEL_STAT_LOAD 0))

theorem modBrz_setFld (f : Brz → Brz) (s : State) (a : Nat) (g : Fld) (v : Nat) :
    (s.modBrz f).setFld a g v = (s.setFld a g v).modBrz f := rfl

/-- A wake of model `m` counted, with the end index that later wakes must pass (R257). -/
def wakeCounted (m stop : Nat) (s : State) : State :=
  (((s.count Pg.brz1 1 1).drew 2).setBrzModel m ⟨some stop, 0⟩).count Pg.brz1 2 1

section
variable (s : State)

theorem runEnd_eq (conf a b fails parity : Nat) (q : BrzRun) (h : s.brz.run = some q) : runEnd conf a b fails parity s
    = startRun (if 2 ≤ fails then modelFaulted q.model (runClosed fails parity s)
        else modelOutput q conf a b (runClosed fails parity s)) := by
  rw [runEnd, h]
  rfl

/-- A run of an armed model at or above its threshold, the first that wakes, raises its wake. -/
theorem modelOutput_wakes (q : BrzRun) (conf a b : Nat) (harm : s.armedModel q.model = true)
    (hconf : confAtLeast conf (wordFld q.thr F.BRZ_MODEL_THR_THR) = true) (hb : b ≤ a) (ha : a ≤ 32767) (hlast : a ≤ q.last)
    (hfirst : (s.brzModel q.model).lastEnd = none) (hag : wordFld q.cfg F.BRZ_MODEL_CFG_AG_EN = 0)
    (hgust : wordFld q.cfg F.BRZ_MODEL_CFG_GUST_EN = 0) :
    ∃ muted seq dtime, modelOutput q conf a b s
      = queueWake 0 (wakeWords (wordFld q.cfg F.BRZ_MODEL_CFG_EVENT) q.model 0 muted conf seq (q.last - a) (q.last - b) dtime)
          (wakeCounted q.model (q.last - b) s) := by
  have hoff : decide (b ≤ a ∧ a ≤ 32767) = true := decide_eq_true ⟨hb, ha⟩
  unfold modelOutput raiseWake
  simp only [harm, hconf, hoff, Bool.and_self, if_true, Bool.not_true, Bool.false_eq_true, if_false, hlast,
    Nat.le_trans hb hlast, hfirst, Bool.or_self, hag, hgust, Nat.zero_ne_one]
  exact ⟨_, _, _, rfl⟩

section
variable (m : Nat) (hm : m < 16)
include hm

/-- Beside the error status and the load sum of its page, a model that faults changes ARM, FAULTED and LOAD of its own. -/
theorem modelFaulted_reg (a : Nat) (ha : a = R.BRZ_MODEL_LOC m ∨ a = R.BRZ_MODEL_STAT m) : (modelFaulted m s).reg a
    = (((s.setFld (R.BRZ_MODEL_LOC m) F.BRZ_MODEL_LOC_ARM 0).setFld (R.BRZ_MODEL_STAT m) F.BRZ_MODEL_STAT_FAULTED 1).setFld
        (R.BRZ_MODEL_STAT m) F.BRZ_MODEL_STAT_LOAD 0).reg a := by
  have hrange : Pg.brz1 + 0x100 ≤ a ∧ a < R.BRZ_LOAD := by
    unfold R.BRZ_MODEL_LOC R.BRZ_MODEL_STAT at ha
    unfold R.BRZ_LOAD
    omega
  rw [modelFaulted, errEvent_reg_ne _ _ _ _ (by unfold Hdr.errStat; omega) (by unfold Hdr.errFirst; omega), sumLoads,
    State.reg_setReg_ne _ _ _ _ (by omega), modBrz_setFld, State.modBrz_reg]

theorem modelFaulted_disarms : (modelFaulted m s).armedModel m = false := by
  have hne : R.BRZ_MODEL_LOC m ≠ R.BRZ_MODEL_STAT m := by unfold R.BRZ_MODEL_LOC R.BRZ_MODEL_STAT; omega
  rw [State.armedModel, State.flag, State.fld, modelFaulted_reg s m hm _ (.inl rfl), State.reg_setFld_ne _ _ _ _ _ hne,
    State.reg_setFld_ne _ _ _ _ _ hne, State.reg_setFld_same, wordFld_wordSet _ _ _ (by decide)]
  rfl

theorem modelFaulted_faulted : (modelFaulted m s).flag (R.BRZ_MODEL_STAT m) F.BRZ_MODEL_STAT_FAULTED = true := by
  rw [State.flag, State.fld, modelFaulted_reg s m hm _ (.inr rfl), State.reg_setFld_same,
    wordFld_wordSet_ne _ _ _ _ (by decide) (by decide), State.reg_setFld_same, wordFld_wordSet _ _ _ (by decide)]
  rfl

end

end

theorem modelFaulted_flags (m : Nat) (s : State) :
    bitOf ((modelFaulted m s).reg (Pg.brz1 + Hdr.errStat)).toNat E.brz1_MODEL_FAULT = true := errEvent_sets _ _ _ (by decide)

/-- A wake of model `m` that is raised with room in the queue: its descriptor, WR, the sequence number, WAKE and the end index
that later wakes must pass. -/
theorem wakeRaised (m stop : Nat) (ws : List Word) (s : State) (hroom : s.wqUsed < 64) :
    let t := startRun (queueWake 0 ws (wakeCounted m stop s))
    (∀ j (hj : j < ws.length), j < 8 → t.reg (R.BRZ_WQ (s.fld R.BRZ_WQ_PTR F.BRZ_WQ_PTR_WR % 64) j) = ws[j])
      ∧ t.wqUsed = s.wqUsed + 1
      ∧ t.fld R.BRZ_WQ_SEQ F.BRZ_WQ_SEQ_NEXT = (s.fld R.BRZ_WQ_SEQ F.BRZ_WQ_SEQ_NEXT + 1) % 65536
      ∧ bitOf (t.reg (Pg.brz2 + Hdr.errStat)).toNat E.brz2_WAKE = true
      ∧ (t.brzModel m).lastEnd = some stop := by
  intro t
  have hreg (a : Nat) : t.reg a = (queueWake 0 ws (wakeCounted m stop s)).reg a := startRun_reg _ a
  have hroom' : (wakeCounted m stop s).wqUsed < 64 := hroom
  refine ⟨fun j hj h8 => ?_, ?_, ?_, ?_, ?_⟩
  · rw [hreg]
    exact queueWake_word 0 ws _ hroom' j hj h8
  · rw [State.wqUsed, State.fld, State.fld, hreg]
    exact queueWake_used 0 ws _ hroom'
  · rw [State.fld, hreg]
    exact queueWake_seq 0 ws _ hroom'
  · rw [hreg]
    exact queueWake_wakes 0 ws _ hroom'
  · have hsame : t.brzModel m = (wakeCounted m stop s).brzModel m := by
      rw [State.brzModel, State.brzModel, ← queueWake_brz 0 ws _ hroom']
      exact startRun_model _ m
    have hlast : (wakeCounted m stop s).brzModel m = ⟨some stop, 0⟩ := Tab.get_set_same _ _ _ _
    rw [hsame, hlast]

/-! ### Posts of the Gust core (R261) -/

theorem word32_lt (f : Nat → Byte) (b : Nat) : word32 f b < 2 ^ 32 := by
  have h0 := (f b).isLt
  have h1 := (f (b + 1)).isLt
  have h2 := (f (b + 2)).isLt
  have h3 := (f (b + 3)).isLt
  unfold word32
  omega

section
variable (s : State)

/-- The semaphore that the Gust core signals its posts by. -/
def State.postSem (s : State) : Nat := R.SEQ_SEM (s.fld R.BRZ_GUST F.BRZ_GUST_CORE) (s.fld R.BRZ_GUST F.BRZ_GUST_POST_SEM)

/-- Word `i` of a post, in row 0 of its region. -/
def State.postWord (s : State) (i : Nat) : Nat :=
  word32 (fun b => s.rowByte (s.fld R.BRZ_GUST F.BRZ_GUST_CORE)
    ((s.rgn (s.fld R.BRZ_GUST F.BRZ_GUST_CORE) (s.fld R.BRZ_GUST F.BRZ_GUST_POST_REGION)).row 0) b) (4 * i)

/-- Whether a post names an event of the Gust core and a range of samples up to the newest. -/
def State.postGood (s : State) : Bool :=
  decide (0x41 ≤ bitsOf (s.postWord 0) 7 0 ∧ bitsOf (s.postWord 0) 7 0 ≤ 0x7F
    ∧ s.postWord 2 + 2 ^ 32 * bitsOf (s.postWord 3) 15 0 ≤ s.postWord 4 + 2 ^ 32 * bitsOf (s.postWord 5) 15 0
    ∧ s.postWord 4 + 2 ^ 32 * bitsOf (s.postWord 5) 15 0 ≤ s.newest)

/-- The descriptor that a post becomes: its origin, sequence number and DTIME are the part's own. -/
def State.postDescriptor (s : State) : List Word :=
  [BitVec.ofNat 32 (putBits (s.postWord 0) 17 16 2),
    BitVec.ofNat 32 (putBits (s.postWord 1) 31 16 (s.fld R.BRZ_WQ_SEQ F.BRZ_WQ_SEQ_NEXT)),
    BitVec.ofNat 32 (s.postWord 2), BitVec.ofNat 32 (s.postWord 3), BitVec.ofNat 32 (s.postWord 4),
    BitVec.ofNat 32 (s.postWord 5), BitVec.ofNat 32 s.dtime, BitVec.ofNat 32 (s.dtime / 2 ^ 32)]

/-- The state after a post has taken its count of the semaphore. -/
def postTaken (s : State) : State := s.setFld s.postSem F.SEQ_SEM_COUNT (s.fld s.postSem F.SEQ_SEM_COUNT - 1)

/-- The semaphore lies on a core's page, below the pages of the Breeze tier and above those of power and clocks. -/
theorem postSem_range (hn : s.fld R.BRZ_GUST F.BRZ_GUST_CORE ≤ 17) : Pg.seq 0 ≤ s.postSem ∧ s.postSem < Pg.mt0 := by
  have hk : s.fld R.BRZ_GUST F.BRZ_GUST_POST_SEM < 64 := wordFld_lt _ F.BRZ_GUST_POST_SEM
  unfold State.postSem R.SEQ_SEM Pg.seq Pg.mt0
  omega

theorem postTaken_count : (postTaken s).fld s.postSem F.SEQ_SEM_COUNT = s.fld s.postSem F.SEQ_SEM_COUNT - 1 := by
  have hlt : s.fld s.postSem F.SEQ_SEM_COUNT < 65536 := wordFld_lt _ F.SEQ_SEM_COUNT
  rw [postTaken, State.fld_setFld_same _ _ _ _ (by decide)]
  exact Nat.mod_eq_of_lt (Nat.lt_of_le_of_lt (Nat.sub_le _ _) hlt)

theorem postTaken_ptr (f : Fld) (hn : s.fld R.BRZ_GUST F.BRZ_GUST_CORE ≤ 17) :
    (postTaken s).fld R.BRZ_WQ_PTR f = s.fld R.BRZ_WQ_PTR f := by
  have hlt := (postSem_range s hn).2
  refine State.fld_setFld_ne s _ _ _ _ _ ?_
  unfold R.BRZ_WQ_PTR Pg.brz2
  unfold Pg.mt0 at hlt
  omega

theorem postTaken_used (hn : s.fld R.BRZ_GUST F.BRZ_GUST_CORE ≤ 17) : (postTaken s).wqUsed = s.wqUsed := by
  simp only [State.wqUsed, postTaken_ptr s _ hn]

/-- A post's descriptor names the Gust core as its origin. -/
theorem postDescriptor_origin : bitsOf (BitVec.ofNat 32 (putBits (s.postWord 0) 17 16 2)).toNat 17 16 = 2 := by
  have hfield := wordFld_wordSet (BitVec.ofNat 32 (s.postWord 0)) ⟨17, 16⟩ 2 (by decide)
  have hword : (BitVec.ofNat 32 (s.postWord 0)).toNat = s.postWord 0 := Nat.mod_eq_of_lt (word32_lt _ _)
  rwa [wordSet, hword] at hfield

/-- A signalled post of an enabled, running Gust core is queued or refused. -/
theorem gustPost_eq (hen : s.fld R.BRZ_GUST F.BRZ_GUST_POST_EN = 1) (hcnt : 0 < s.fld s.postSem F.SEQ_SEM_COUNT)
    (hon : s.domOn (s.fld R.BRZ_GUST F.BRZ_GUST_CORE) = true) : gustPost s
      = if s.postGood then queueWake 2 s.postDescriptor (postTaken s) else errEvent Pg.brz2 E.brz2_POST_BAD (postTaken s) := by
  generalize ht : gustPost s = t
  unfold gustPost at ht
  extract_lets g n k cnt row ws s1 w event start stop seq ws' at ht
  have hopen : ¬ (wordFld g F.BRZ_GUST_POST_EN = 0 ∨ cnt = 0 ∨ (!s.domOn n) = true) := by
    rintro (h | h | h)
    · exact absurd (hen.symm.trans h) (by decide)
    · exact absurd h (Nat.ne_of_gt hcnt)
    · have hon' : s.domOn n = true := hon
      rw [hon'] at h
      exact absurd h (by decide)
  have hword (i : Nat) (hi : i < 8) : ws.getD i 0 = BitVec.ofNat 32 (s.postWord i) := by
    rw [List.getD_eq_getElem _ _ (by simp [ws, hi]), List.getElem_map, List.getElem_range]
    rfl
  have hw (i : Nat) (hi : i < 8) : w i = s.postWord i := by
    show (ws.getD i 0).toNat = _
    rw [hword i hi]
    exact Nat.mod_eq_of_lt (word32_lt _ _)
  have hbad : (event < 0x41 ∨ 0x7F < event ∨ s.newest < start ∨ s.newest < stop ∨ stop < start) ↔ s.postGood = false := by
    simp only [event, start, stop, hw 0 (by decide), hw 2 (by decide), hw 3 (by decide), hw 4 (by decide), hw 5 (by decide),
      State.postGood, decide_eq_false_iff_not]
    omega
  have hdesc : ws' = s.postDescriptor := by
    simp only [ws', seq, hw 0 (by decide), hw 1 (by decide), hword 2 (by decide), hword 3 (by decide), hword 4 (by decide),
      hword 5 (by decide), State.postDescriptor]
  rw [if_neg hopen] at ht
  rw [← ht]
  by_cases h : s.postGood = true
  · rw [if_neg (fun e => absurd (h.symm.trans (hbad.mp e)) (by decide)), if_pos h, hdesc]
    rfl
  · rw [if_pos (hbad.mpr (Bool.eq_false_of_not_eq_true h)), if_neg h]
    rfl

/-- A post that is queued: one descriptor more, one count of the semaphore less. -/
theorem postQueued (hn : s.fld R.BRZ_GUST F.BRZ_GUST_CORE ≤ 17) (hroom : s.wqUsed < 64) :
    let t := queueWake 2 s.postDescriptor (postTaken s)
    t.wqUsed = s.wqUsed + 1 ∧ t.fld s.postSem F.SEQ_SEM_COUNT = s.fld s.postSem F.SEQ_SEM_COUNT - 1
      ∧ bitsOf (t.reg (R.BRZ_WQ (s.fld R.BRZ_WQ_PTR F.BRZ_WQ_PTR_WR % 64) 0)).toNat 17 16 = 2
      ∧ t.reg (R.BRZ_WQ (s.fld R.BRZ_WQ_PTR F.BRZ_WQ_PTR_WR % 64) 2) = BitVec.ofNat 32 (s.postWord 2) := by
  intro t
  have hused := postTaken_used s hn
  have hroom' : (postTaken s).wqUsed < 64 := hused ▸ hroom
  have hwords : s.postDescriptor.length = 8 := rfl
  have hword (j : Nat) (hj : j < 8) : t.reg (R.BRZ_WQ (s.fld R.BRZ_WQ_PTR F.BRZ_WQ_PTR_WR % 64) j) = s.postDescriptor[j] := by
    rw [← postTaken_ptr s F.BRZ_WQ_PTR_WR hn]
    exact queueWake_word 2 s.postDescriptor (postTaken s) hroom' j (by omega) hj
  obtain ⟨hlow, hhigh⟩ := postSem_range s hn
  unfold Pg.seq at hlow
  unfold Pg.mt0 at hhigh
  have hsem := queueWake_fld_other 2 s.postDescriptor (postTaken s) hroom' s.postSem F.SEQ_SEM_COUNT
    (by unfold Pg.pwr; omega) (by unfold Pg.clk; omega) (by unfold Pg.brz2; omega)
  refine ⟨?_, hsem.trans (postTaken_count s), ?_, hword 2 (by decide)⟩
  · rw [queueWake_used 2 _ _ hroom', hused]
  · rw [hword 0 (by decide)]
    exact postDescriptor_origin s

end

/-! ### RD of the wake queue (R267) -/

/-- A permitted write of BRZ_WQ_PTR moves RD, within the descriptors that wait. -/
theorem wordWrite_wqPtr (iid : Nat) (v : Word) (s : State) (h : s.Admits iid R.BRZ_WQ_PTR .brz2 0) :
    wordWrite iid R.BRZ_WQ_PTR v s
      = if (wordFld v F.BRZ_WQ_PTR_RD + 128 - s.fld R.BRZ_WQ_PTR F.BRZ_WQ_PTR_RD) % 128 ≤ s.wqUsed then
          s.setFld R.BRZ_WQ_PTR F.BRZ_WQ_PTR_RD (wordFld v F.BRZ_WQ_PTR_RD)
        else s := by
  have hf : findReg (R.BRZ_WQ_PTR % 4096) (regsOf .brz2)
      = some (⟨0x110, 1, 0x0, 1, 0x0, .ctl, [⟨6, 0, .ro, 0, 0, []⟩, ⟨14, 8, .rw, 0, 0, []⟩]⟩, 0, 0) := by decide
  have hplain : PlainFields R.BRZ_WQ_PTR [⟨6, 0, .ro, 0, 0, []⟩, ⟨14, 8, .rw, 0, 0, []⟩] :=
    plainFields_of _ _ (by decide) (by decide) (by decide)
  have hwr : fieldWrite iid R.BRZ_WQ_PTR 0xFFFFFFFF#32 v s ⟨6, 0, .ro, 0, 0, []⟩ = s := by
    unfold fieldWrite
    dsimp only
    split <;> rfl
  have hrd := fieldWrite_store iid R.BRZ_WQ_PTR v ⟨14, 8, .rw, 0, 0, []⟩ s (.inl rfl) (by decide) (by decide) rfl
    ((hplain _ (by simp)).2 _)
  have heffect (t : State) : writeEffect ⟨false, false, false⟩ iid .brz2 0 (R.BRZ_WQ_PTR % 4096) 0xFFFFFFFF#32 v s t
      = wqRdWrite v s := rfl
  have hquiet : (wqRdWrite v s).reg (Pg.brz2 + Hdr.errStat) = s.reg (Pg.brz2 + Hdr.errStat) := by
    unfold wqRdWrite
    dsimp only
    split
    · exact State.reg_setFld_ne s _ _ _ _ (by decide)
    · rfl
  rw [wordWrite_block iid R.BRZ_WQ_PTR v s .brz2 0 _ 0 0 h (by decide) (by decide) hf (by decide) rfl]
  simp only [fieldsWrite, hwr, hrd, heffect]
  rw [attributeErr_quiet _ _ _ _ (hquiet.trans (State.reg_setReg_ne s _ _ _ (by decide)).symm)]
  rfl

/-- Settles O27: the hop of the only armed model waits alone and so starts its run; a run's output is a descriptor in the
queue, and two failures disarm its model; a post is queued or refused by its words; RD moves within the descriptors that wait. -/
theorem breezeModelsWakeAndStartTheGust : Obligations.BreezeModelsWakeAndStartTheGust := by
  unfold Obligations.BreezeModelsWakeAndStartTheGust
  refine ⟨fun s m hm => ⟨fun harm hothers hw hat h0 hl hrun hq => ?_,
      fun q conf a b hrun hqm harm hconf hb ha hlast hfirst hroom hag hgust => ?_, fun q conf a b hrun hqm => ?_⟩,
    fun s iid val => ⟨fun hen hn hcnt hon hgood hroom => ?_, fun hen hn hcnt hon hbad => ?_, fun h hle => ?_, fun h hlt => ?_⟩⟩
  · have hexec : exec .hopEnd s = .next (startRun (hopWaits s.newest m (hopTaken s))) :=
      congrArg Host.Outcome.next (hopEnd_single s m hm harm hothers hw hat h0 hl hq)
    rw [startRun_hopWaits s.newest (hopTaken s) m hrun] at hexec
    exact ⟨_, hexec, rfl, rfl, rfl, by rw [State.count_regs, State.modBrz_regs, hopWaits_regs]; rfl, rfl⟩
  · subst hqm
    obtain ⟨muted, seq, dtime, hout⟩ := modelOutput_wakes (runClosed 0 0 s) q conf.toNat a b harm hconf hb ha hlast
      hfirst hag hgust
    have hexec : exec (.breezeRunEnd conf a b 0 0) s = .next (startRun (modelOutput q conf.toNat a b (runClosed 0 0 s))) :=
      congrArg Host.Outcome.next (runEnd_eq s _ a b 0 0 q hrun)
    rw [hout] at hexec
    obtain ⟨hword, hused, hseq, hwake, hend⟩ := wakeRaised q.model (q.last - b) (wakeWords _ q.model 0 muted _ seq _ _ dtime)
      (runClosed 0 0 s) hroom
    refine ⟨_, hexec, ?_, hword 2 (by rw [wakeWords_length]; decide) (by decide), hused, hseq, hwake, hend⟩
    exact (congrArg (fun w : Word => bitsOf w.toNat 15 0) (hword 0 (by rw [wakeWords_length]; decide) (by decide))).trans
      (wakeWords_source _ _ _ _ _ _ _ _ _ (wordFld_lt _ F.BRZ_MODEL_CFG_EVENT) (by omega))
  · subst hqm
    have hexec : exec (.breezeRunEnd conf a b 2 0) s = .next (startRun (modelFaulted q.model (runClosed 2 0 s))) :=
      congrArg Host.Outcome.next (runEnd_eq s _ a b 2 0 q hrun)
    refine ⟨_, hexec, ?_, ?_, ?_⟩
    · rw [State.armedModel, State.flag, State.fld, startRun_reg]
      exact modelFaulted_disarms (runClosed 2 0 s) q.model hm
    · rw [State.flag, State.fld, startRun_reg]
      exact modelFaulted_faulted (runClosed 2 0 s) q.model hm
    · rw [startRun_reg]
      exact modelFaulted_flags q.model (runClosed 2 0 s)
  · have heq : gustPost s = queueWake 2 s.postDescriptor (postTaken s) := (gustPost_eq s hen hcnt hon).trans (if_pos hgood)
    exact ⟨_, congrArg Host.Outcome.next heq, postQueued s hn hroom⟩
  · exact congrArg Host.Outcome.next ((gustPost_eq s hen hcnt hon).trans (if_neg (Bool.eq_false_iff.mp hbad)))
  · exact congrArg Host.Outcome.next ((wordWrite_wqPtr iid val s h).trans (if_pos hle))
  · exact congrArg Host.Outcome.next ((wordWrite_wqPtr iid val s h).trans (if_neg (Nat.not_le.mpr hlt)))

end Sys2Proof.Machine
end

section
/-! PROOFS. What leaves the image pipeline alone (R287, R260): a record written to DA and signalled, a context fault, and a vision
wake with the Gust core that it starts change neither the pipeline's state nor the count of its processed frames. -/

namespace Sys2Proof.Machine

/-- The image pipeline and its count of processed frames are as before. -/
def PipelineKept (s t : State) : Prop := t.isp = s.isp ∧ t.counter (cntKey Pg.isp0 0) = s.counter (cntKey Pg.isp0 0)

theorem PipelineKept.of_same {s t : State} (hi : t.isp = s.isp) (hc : t.cnt = s.cnt) : PipelineKept s t :=
  ⟨hi, by rw [State.counter, hc, State.counter]⟩

theorem PipelineKept.refl (s : State) : PipelineKept s s := ⟨rfl, rfl⟩

theorem PipelineKept.trans {s t u : State} (h : PipelineKept s t) (k : PipelineKept t u) : PipelineKept s u :=
  ⟨k.1.trans h.1, k.2.trans h.2⟩

theorem PipelineKept.addCnt (s : State) (key k : Nat) (h : cntKey Pg.isp0 0 ≠ key) : PipelineKept s (s.addCnt key k) :=
  ⟨rfl, State.counter_addCnt_ne s key k _ h⟩

theorem PipelineKept.setReg (s : State) (a : Nat) (w : Word) : PipelineKept s (s.setReg a w) := .of_same rfl rfl

theorem PipelineKept.setFld (s : State) (a : Nat) (f : Fld) (v : Nat) : PipelineKept s (s.setFld a f v) := .of_same rfl rfl

theorem LogOnly.isp {s t : State} (h : LogOnly s t) : t.isp = s.isp := by rw [h]

/-- A counter of any page but page 0 of the ISP window (R294). -/
theorem PipelineKept.count (s : State) (base i k : Nat) (h : cntKey base i / 4096 ≠ Pg.isp0 / 4096) :
    PipelineKept s (s.count base i k) :=
  .addCnt s _ k fun e => h (by rw [← e]; decide)

theorem PipelineKept.errEvent (base bit : Nat) (s : State) : PipelineKept s (errEvent base bit s) :=
  ⟨(LogOnly.errEvent base bit s).isp, errEvent_counter base bit s _⟩

theorem PipelineKept.logEntry (e : LogEntry) (s : State) : PipelineKept s (logEntry e s) :=
  ⟨(logEntry_frame e s).isp, logEntry_counter e s _ (by decide)⟩

/-! ### Bytes written to DA (R223, R231) -/

theorem touchPage_pipelineKept (p : Nat) (s : State) : PipelineKept s (touchPage p s) := by
  rw [touchPage_frame]
  exact .of_same rfl rfl

theorem poisonMade_pipelineKept (da owner src : Nat) (s : State) : PipelineKept s (poisonMade da owner src s) :=
  (PipelineKept.errEvent _ _ _).trans (.logEntry _ _)

theorem storeSector_pipelineKept (owner da src : Nat) (bs : List Byte) (s : State) :
    PipelineKept s (storeSector owner da src bs s) := by
  unfold storeSector
  dsimp only
  split
  · exact .of_same rfl rfl
  · refine PipelineKept.trans ?_ (poisonMade_pipelineKept _ _ _ _)
    exact .of_same rfl rfl

theorem writeRun_pipelineKept (set tenant da src : Nat) (bs : List Byte) (k base : Nat) (s : State) :
    PipelineKept s (writeRun set tenant da src bs k base s).2 := by
  induction k generalizing base s with
  | zero => exact .refl s
  | succ k ih =>
    rw [writeRun]
    split
    · exact .count s _ _ _ (by decide)
    · exact ((touchPage_pipelineKept _ s).trans (storeSector_pipelineKept _ _ _ _ _)).trans (ih _ _)

theorem daWrite_pipelineKept (x da src : Nat) (bs : List Byte) (s : State) : PipelineKept s (daWrite x da src bs s).2 :=
  writeRun_pipelineKept ..

/-! ### Frame records (R287, R331) -/

theorem msixSend_pipelineKept (f v : Nat) (s : State) : PipelineKept s (msixSend f v s) := by
  rw [msixSend_frame]
  exact .of_same rfl rfl

theorem feedSignal_pipelineKept (feed x : Nat) (s : State) : PipelineKept s (feedSignal feed x s) :=
  (PipelineKept.setReg s _ _).trans (msixSend_pipelineKept _ _ _)

theorem cntKey_ispCam_page (n i : Nat) : cntKey (Pg.ispCam n) i / 4096 ≠ Pg.isp0 / 4096 := by
  unfold cntKey Pg.ispCam Pg.isp0
  omega

theorem writeRecord_pipelineKept (n : Nat) (f : IspFrame) (bs : List Byte) (s : State) :
    PipelineKept s (writeRecord n f bs s) := by
  unfold writeRecord
  dsimp only
  split
  · exact (PipelineKept.count s _ _ _ (cntKey_ispCam_page n 7)).trans (.errEvent _ _ _)
  · split
    · exact ((daWrite_pipelineKept _ _ _ _ s).trans (.setFld _ _ _ _)).trans (feedSignal_pipelineKept _ _ _)
    · exact (daWrite_pipelineKept _ _ _ _ s).trans (.errEvent _ _ _)

/-! ### Context faults (R8, R97, R144) -/

theorem CoreOnly.pipelineKept {s t : State} (h : CoreOnly s t) : PipelineKept s t := by
  rw [h]
  exact .of_same rfl rfl

theorem stopChans_pipelineKept (x : Nat) (l : List Nat) (s : State) : PipelineKept s (stopChans x l s) := by
  have hstop (n k : Nat) (s : State) : PipelineKept s (stopChan x n k s) := by
    rw [stopChan_frame]
    exact .of_same rfl rfl
  induction l generalizing s with
  | nil => exact .refl s
  | cons n l ih => exact ((((hstop n 0 s).trans (hstop n 1 _)).trans (hstop n 2 _)).trans (hstop n 3 _)).trans (ih _)

theorem countFault_pipelineKept (code : Nat) (s : State) : PipelineKept s (countFault code s) := by
  unfold countFault
  split
  · refine .addCnt s _ 1 ?_
    unfold cntKey Pg.isp0 R.REL_FAULT_LO Pg.rel3
    omega
  · exact .refl s

theorem faultTaken_pipelineKept (x : Nat) (f : FaultRec) (stopped : List Nat) (e : LogEntry) (s : State) :
    PipelineKept s (faultTaken x f stopped e s) := by
  have hset : PipelineKept s (s.setCtx x { s.ctx x with fault := some f }) := .of_same rfl rfl
  have hdrop (t : State) : PipelineKept t (dropColl x t) := .of_same rfl rfl
  exact (((hset.trans (stopCores_frame x stopped _).pipelineKept).trans (stopChans_pipelineKept x _ _)).trans (hdrop _)).trans
    (.logEntry _ _)

theorem ctxFault_pipelineKept (x : Nat) (n : Option Nat) (gang : List Nat) (code sub opTag : Nat) (s : State) :
    PipelineKept s (ctxFault x n gang code sub opTag s) := by
  refine (countFault_pipelineKept code s).trans ?_
  unfold ctxFault
  dsimp only
  generalize countFault code s = s0
  split
  · exact .count s0 _ _ _ (by decide)
  · cases n with
    | none => exact faultTaken_pipelineKept ..
    | some k =>
      have htest (t : State) : PipelineKept t (t.modCore k (fun c => { c with laneTest := true })) := .of_same rfl rfl
      dsimp only
      split
      · exact (faultTaken_pipelineKept ..).trans (htest _)
      · exact faultTaken_pipelineKept ..

/-! ### Wakes (R258 to R260, R474) -/

theorem wakeDom_pipelineKept (d : Nat) (unplanned : Bool) (s : State) : PipelineKept s (wakeDom d unplanned s) := by
  refine ⟨by rw [wakeDom_frame], ?_⟩
  unfold wakeDom
  split
  · rfl
  · split
    · rfl
    · exact State.counter_count_ne _ _ _ _ _ (by decide)
  · exact startExit_counter_ne _ _ _ (by decide) (by decide)

theorem descriptorWritten_pipelineKept (k i : Nat) (ws : List Word) (s : State) :
    PipelineKept s (descriptorWritten k i ws s) :=
  foldl_rel PipelineKept .refl (fun _ _ _ => .trans) _ (fun t _ => .setReg t _ _) _ s

/-- A descriptor joins the wake queue or is counted as an overflow (R262), in the counter `ctr` of BRZ page 2. -/
theorem queueWake_pipelineKept (ctr : Nat) (ws : List Word) (s : State) (h : cntKey Pg.brz2 ctr / 4096 ≠ Pg.isp0 / 4096) :
    PipelineKept s (queueWake ctr ws s) := by
  have hseq := PipelineKept.setFld s R.BRZ_WQ_SEQ F.BRZ_WQ_SEQ_NEXT (s.fld R.BRZ_WQ_SEQ F.BRZ_WQ_SEQ_NEXT + 1)
  have hwake (t : State) : PipelineKept t (wakeDom 29 false (errEvent Pg.brz2 E.brz2_WAKE t)) :=
    (PipelineKept.errEvent _ _ _).trans (wakeDom_pipelineKept _ _ _)
  refine PipelineKept.trans ?_ (hwake _)
  split
  · exact (hseq.trans (.count _ _ _ _ (by decide))).trans (.errEvent _ _ _)
  · exact ((hseq.trans (descriptorWritten_pipelineKept _ 0 ws _)).trans (.setFld _ _ _ _)).trans (.count _ _ _ _ h)

/-- A wake bound to an audio group changes the group alone (R251, R259). -/
theorem bindGroup_pipelineKept (g start pre : Nat) (desc : List Word) (s : State) :
    PipelineKept s (bindGroup g start pre desc s) := by
  have hset (t : State) (a : AudioGroup) : PipelineKept t (t.setAg g a) := .of_same rfl rfl
  refine PipelineKept.trans ?_ (hset _ _)
  split
  · exact .refl s
  · exact .of_same rfl rfl

theorem loadImage_pipelineKept {n x slot k : Nat} {s t : State} (h : loadImage n x slot k s = some t) : PipelineKept s t := by
  induction k generalizing slot s with
  | zero =>
    cases h
    exact .refl _
  | succ k ih =>
    unfold loadImage at h
    dsimp only at h
    split at h
    · cases h
    · refine PipelineKept.trans ?_ (ih h)
      split <;> exact .of_same rfl rfl

theorem doSwitch_pipelineKept (n x m : Nat) (s : State) : PipelineKept s (doSwitch n x m s) := by
  unfold doSwitch
  dsimp only
  split
  · exact ctxFault_pipelineKept ..
  · split
    · exact ctxFault_pipelineKept ..
    · next h => exact (loadImage_pipelineKept h).trans (.of_same rfl rfl)

/-- A start of the Gust core runs its SWITCH, wakes its domain or is skipped (R259). -/
theorem gustStart_pipelineKept (m : Nat) (s : State) : PipelineKept s (gustStart m s) := by
  unfold gustStart enterModel
  dsimp only
  split
  · split
    · split
      · exact .errEvent _ _ _
      · exact (PipelineKept.of_same rfl rfl).trans (doSwitch_pipelineKept _ _ _ _)
    · exact .errEvent _ _ _
  · split
    · have hgust : PipelineKept s (s.modBrz (fun z => { z with gust := some (s.fld R.BRZ_GUST F.BRZ_GUST_CORE, m) })) :=
        .of_same rfl rfl
      exact ((hgust.trans (wakeDom_pipelineKept _ _ _)).trans (wakeDom_pipelineKept _ _ _)).trans (.count _ _ _ _ (by decide))
    · exact .errEvent _ _ _

theorem visionWake_pipelineKept (cam score idx : Nat) (s : State) : PipelineKept s (visionWake cam score idx s) := by
  have hbind (ag : Option (Nat × Nat)) (ws : List Word) (t : State) : PipelineKept t
      (match ag with | some (g, pre) => bindGroup g idx pre ws t | none => t) := by
    cases ag with
    | none => exact .refl t
    | some q => exact bindGroup_pipelineKept ..
  have hstart (gust : Option Nat) (t : State) : PipelineKept t (match gust with | some m => gustStart m t | none => t) := by
    cases gust with
    | none => exact .refl t
    | some m => exact gustStart_pipelineKept m t
  exact ((queueWake_pipelineKept 1 _ s (by decide)).trans (hbind _ _ _)).trans (hstart _ _)

end Sys2Proof.Machine
end

section
/-! PROOFS. Packets and frames of cameras (R272 to R277, R286, R291): a violation's counts, a frame start that opens a frame, and
the frame end that closes it. -/

namespace Sys2Proof.Machine

/-! ### Camera records -/

theorem cam_of_isp {s t : State} (h : t.isp = s.isp) (n : Nat) : t.cam n = s.cam n := by rw [State.cam, h, State.cam]

theorem cam_setCam_same (s : State) (n : Nat) (c : IspCam) : (s.setCam n c).cam n = c := Tab.get_set_same _ _ _ _

@[simp] theorem setCam_regs (s : State) (n : Nat) (c : IspCam) : (s.setCam n c).regs = s.regs := rfl
@[simp] theorem setCam_reg (s : State) (n : Nat) (c : IspCam) (a : Nat) : (s.setCam n c).reg a = s.reg a := rfl
@[simp] theorem setCam_counter (s : State) (n : Nat) (c : IspCam) (k : Nat) : (s.setCam n c).counter k = s.counter k := rfl

theorem receiving_some {c : IspCam} {f : IspFrame} (h : c.receiving = some f) : f.ended = false := by
  unfold IspCam.receiving at h
  split at h
  · split at h
    · cases h
    · next hend =>
      cases h
      exact Bool.eq_false_iff.mpr hend
  · cases h

/-- A camera whose last frame is `f` receives it until its end. -/
theorem receiving_append (c : IspCam) (fs : List IspFrame) (f : IspFrame) (h : c.frames = fs ++ [f]) :
    c.receiving = if f.ended then none else some f := by
  rw [IspCam.receiving, h, List.getLast?_append]
  rfl

theorem receiving_setLast (c : IspCam) (f : IspFrame) : (c.setLast f).receiving = if f.ended then none else some f :=
  receiving_append _ _ f rfl

theorem bound_lt {s : State} {p vc n : Nat} (h : s.bound p vc = some n) : n < 16 := (leastBelow_some h).1

/-! ### Violations by a CSI-2 partner (R274, R416) -/

section
variable (p bit ctr : Nat) (s : State)

theorem logPartner_isp (base kind unit : Nat) : (logPartner base bit kind unit s).isp = s.isp := by
  unfold logPartner
  dsimp only
  split
  · rfl
  · exact (logEntry_frame _ s).isp

theorem csiErr_isp : (csiErr p bit ctr s).isp = s.isp :=
  (logPartner_isp bit _ _ _ _).trans (LogOnly.errEvent _ _ _).isp

/-- A violation sets its bit of the port's ERR_STAT. -/
theorem csiErr_sets (h : bit < 32) : bitOf ((csiErr p bit ctr s).reg (Pg.ispPort p + Hdr.errStat)).toNat bit = true := by
  rw [csiErr, logPartner_reg _ _ _ _ _ _ (by unfold Pg.ispPort Hdr.errStat Pg.rel2; omega)]
  exact errEvent_sets _ _ _ h

/-- A violation is counted in the port's page. -/
theorem csiErr_counts : (csiErr p bit ctr s).counter (cntKey (Pg.ispPort p) ctr)
    = (s.counter (cntKey (Pg.ispPort p) ctr) + 1) % 2 ^ 64 := by
  rw [csiErr, logPartner_counter _ _ _ _ _ _ (by unfold cntKey Pg.ispPort Pg.rel2; omega)
    (by unfold cntKey Pg.ispPort Pg.rel3; omega), errEvent_counter, State.counter_count_same]

end

/-! ### The end of a frame (R273, R274) -/

section
variable {s : State} {n : Nat}

theorem closeFrame_none (p flag : Nat) (h : (s.cam n).receiving = none) : closeFrame n p flag s = s := by
  unfold closeFrame
  dsimp only
  rw [h]

/-- A frame whose lines are all there ends with none lost. -/
theorem closeFrame_whole (p : Nat) {f : IspFrame} (h : (s.cam n).receiving = some f) (hd : f.dropped = false)
    (hw : f.lines.length = (s.view n f).h) :
    closeFrame n p 0 s = countLost n p 0 (s.setCam n ((s.cam n).setLast { f with ended := true })) := by
  have hmiss : (s.view n f).h - f.lines.length = 0 := by omega
  unfold closeFrame
  dsimp only
  rw [h]
  simp only [hd, hmiss, Nat.or_zero, if_true, Bool.false_eq_true, if_false]

end

/-! ### Registers that a frame start reads (R277, R279, R291) -/

/-- The registers of the ISP pages before those of the camera-control buses, and of the pages below, are the same. -/
def SettingsKept (s t : State) : Prop := ∀ a, a / 4096 < Pg.ispBus 0 / 4096 → t.reg a = s.reg a

section
variable {s t : State} (h : SettingsKept s t)
include h

theorem SettingsKept.fld {a : Nat} (f : Fld) (ha : a / 4096 < Pg.ispBus 0 / 4096) : t.fld a f = s.fld a f := by
  rw [State.fld, h a ha, State.fld]

theorem SettingsKept.camFld {n : Nat} (hn : n < 16) (f : Fld) : t.camFld n f = s.camFld n f :=
  h.fld f (by unfold R.ISP_CAM_CFG Pg.ispCam Pg.ispBus; omega)

theorem SettingsKept.liveCam {m : Nat} (hm : m < 16) : t.liveCam m = s.liveCam m := by
  rw [State.liveCam, h.camFld hm, h.camFld hm, State.liveCam]

theorem SettingsKept.camLoad {m : Nat} (hm : m < 16) : t.camLoad m = s.camLoad m := by
  have ht : t.fld (R.ISP_CAM_TIMING m) F.ISP_CAM_TIMING_LINE_TIME = s.fld _ _ :=
    h.fld _ (by unfold R.ISP_CAM_TIMING Pg.ispCam Pg.ispBus; omega)
  have hg : t.fld (R.ISP_CAM_GEOM m) F.ISP_CAM_GEOM_WIDTH = s.fld _ _ :=
    h.fld _ (by unfold R.ISP_CAM_GEOM Pg.ispCam Pg.ispBus; omega)
  rw [State.camLoad, ht, hg, State.camLoad]

/-- The load in the order of R277 is a matter of the cameras' pages. -/
theorem SettingsKept.loadTo {n : Nat} (hn : n < 16) : t.loadTo n = s.loadTo n := by
  have hin : (List.range 16).filter (fun m => t.liveCam m && decide (t.camFld n F.ISP_CAM_CFG_PRIO < t.camFld m F.ISP_CAM_CFG_PRIO
        ∨ (t.camFld m F.ISP_CAM_CFG_PRIO = t.camFld n F.ISP_CAM_CFG_PRIO ∧ m ≤ n)))
      = (List.range 16).filter (fun m => s.liveCam m && decide (s.camFld n F.ISP_CAM_CFG_PRIO < s.camFld m F.ISP_CAM_CFG_PRIO
        ∨ (s.camFld m F.ISP_CAM_CFG_PRIO = s.camFld n F.ISP_CAM_CFG_PRIO ∧ m ≤ n))) := by
    refine List.filter_congr fun m hm => ?_
    rw [h.liveCam (List.mem_range.mp hm), h.camFld hn, h.camFld (List.mem_range.mp hm)]
  unfold State.loadTo
  dsimp only
  rw [hin, List.map_congr_left fun m hm => h.camLoad (List.mem_range.mp (List.mem_of_mem_filter hm))]

end

theorem frameReg_eq_getD (f : IspFrame) (a : Nat) : f.reg a = (Tab.find f.copy a).getD (regReset a) := by
  unfold IspFrame.reg
  cases Tab.find f.copy a <;> rfl

theorem reg_eq_getD (s : State) (a : Nat) : s.reg a = (Tab.find s.regs a).getD (regReset a) := by
  unfold State.reg
  cases Tab.find s.regs a <;> rfl

/-- The pages that a frame latches are read from its copy as the registers hold them (R279). -/
theorem frameReg_copy (f : IspFrame) (s : State) (n a : Nat) (ha : a / 4096 = 0x510 + n)
    (h : f.copy = s.regs.filter (fun r => r.1 / 4096 == 0x510 + n || r.1 / 4096 == 0x520 + n)) : f.reg a = s.reg a := by
  have hfind : Tab.find f.copy a = Tab.find s.regs a := by
    rw [h, Tab.find_filter s.regs (fun k => k / 4096 == 0x510 + n || k / 4096 == 0x520 + n) a]
    simp [ha]
  rw [frameReg_eq_getD, hfind, reg_eq_getD]

/-- A released packet moves within its bus, and the bus's status word follows (R291). -/
theorem releasePacket_frame (n frame : Nat) (s : State) :
    (releasePacket n frame s).isp.cams = s.isp.cams ∧ (releasePacket n frame s).cnt = s.cnt
      ∧ SettingsKept s (releasePacket n frame s) := by
  unfold releasePacket
  dsimp only
  split
  · exact ⟨rfl, rfl, fun _ _ => rfl⟩
  · refine ⟨rfl, rfl, fun a ha => State.reg_setReg_ne _ _ _ _ fun e => ?_⟩
    rw [e] at ha
    unfold R.ISP_CC_STATUS Pg.ispBus at ha
    omega

/-! ### Buffers taken (R286) -/

/-- The outputs of a starting frame of camera `n` take buffers or skip the frame: the frame's buffers and flags, the camera's
list of buffers and the count of skips are all that changes. -/
structure BuffersTaken (n : Nat) (q r : IspFrame × State) : Prop where
  frame : r.1 = { q.1 with flags := r.1.flags, buf0 := r.1.buf0, buf1 := r.1.buf1, buf2 := r.1.buf2 }
  frames : (r.2.cam n).frames = (q.2.cam n).frames
  count : (r.2.cam n).count = (q.2.cam n).count
  starts : r.2.counter (cntKey (Pg.ispCam n) 0) = q.2.counter (cntKey (Pg.ispCam n) 0)

theorem BuffersTaken.trans {n : Nat} {q r u : IspFrame × State} (h : BuffersTaken n q r) (k : BuffersTaken n r u) :
    BuffersTaken n q u where
  frame := by rw [k.frame, h.frame]
  frames := k.frames.trans h.frames
  count := k.count.trans h.count
  starts := k.starts.trans h.starts

theorem setBuf_frame (f : IspFrame) (o : Nat) (b : Option Nat) :
    f.setBuf o b = { f with buf0 := (f.setBuf o b).buf0, buf1 := (f.setBuf o b).buf1, buf2 := (f.setBuf o b).buf2 } := by
  unfold IspFrame.setBuf
  split <;> rfl

theorem takeBuf_buffersTaken (n o : Nat) (q : IspFrame × State) : BuffersTaken n q (takeBuf n o q) := by
  unfold takeBuf
  dsimp only
  split
  · exact ⟨rfl, rfl, rfl, rfl⟩
  · split
    · exact ⟨rfl, rfl, rfl, State.counter_count_ne _ _ _ _ _ (by unfold cntKey; omega)⟩
    · refine ⟨?_, by rw [cam_setCam_same], by rw [cam_setCam_same], rfl⟩
      dsimp only
      rw [setBuf_frame]

/-! ### The start of a frame (R275, R277) -/

/-- The frame that a frame start with number `num` opens on camera `n`, before its buffers are taken (R275, R279). -/
def frameOpened (n num : Nat) (s : State) : IspFrame :=
  { count := ((s.cam n).count + 1) % 2 ^ 32, num := num, dtime := s.dtime, sample := s.newest,
    copy := s.regs.filter (fun r => r.1 / 4096 == 0x510 + n || r.1 / 4096 == 0x520 + n),
    tag := (s.txn (0x520 + n)).lastTag, dropped := false, order := s.isp.starts, free0 := s.free }

/-- Camera `n` with its frame start counted and its due packet of sensor writes released (R275, R291). -/
def startCounted (n : Nat) (s : State) : State :=
  let k := ((s.cam n).count + 1) % 2 ^ 32
  releasePacket n k ((((s.setCam n { s.cam n with count := k }).drew (2 ^ 36)).count (Pg.ispCam n) 0 1).modIsp
    (fun z => { z with starts := z.starts + 1 }))

section
variable (n : Nat) (s : State)

theorem startCounted_cam : (startCounted n s).cam n = { s.cam n with count := ((s.cam n).count + 1) % 2 ^ 32 } := by
  unfold startCounted State.cam
  rw [(releasePacket_frame _ _ _).1]
  exact cam_setCam_same s n _

theorem startCounted_counter : (startCounted n s).counter (cntKey (Pg.ispCam n) 0)
    = (s.counter (cntKey (Pg.ispCam n) 0) + 1) % 2 ^ 64 := by
  unfold startCounted State.counter
  rw [(releasePacket_frame _ _ _).2.1]
  exact Tab.get_set_same _ _ _ _

theorem startCounted_settings : SettingsKept s (startCounted n s) := (releasePacket_frame _ _ _).2.2

/-- A live camera's frame without machine vision, within the load, is admitted whole (R277). -/
theorem camFrameStart_admits (p num : Nat) (hn : n < 16) (hrec : (s.cam n).receiving = none)
    (hlive : s.camFld n F.ISP_CAM_CFG_STORED = 0) (hmv : s.fld (R.ISP_OUT_CFG n 2) F.ISP_OUT_CFG_EN = 0)
    (hload : s.loadTo n ≤ s.fld R.ISP_SCHED F.ISP_SCHED_LOAD_MAX) :
    ∃ q, BuffersTaken n (frameOpened n num s, startCounted n s) q
      ∧ camFrameStart n p num s = q.2.setCam n { q.2.cam n with frames := (q.2.cam n).frames ++ [q.1] } := by
  have hkept := startCounted_settings n s
  have hlive' : (startCounted n s).camFld n F.ISP_CAM_CFG_STORED = 0 := (hkept.camFld hn _).trans hlive
  have hload' : ¬ (startCounted n s).fld R.ISP_SCHED F.ISP_SCHED_LOAD_MAX < (startCounted n s).loadTo n := by
    rw [hkept.fld _ (by decide), hkept.loadTo hn]
    omega
  have hpad : ((startCounted n s).view n (frameOpened n num s)).mvPad = false := by
    have hreg := frameReg_copy (frameOpened n num s) s n (R.ISP_OUT_CFG n 2)
      (by unfold R.ISP_OUT_CFG Pg.ispCam; omega) rfl
    have hen : ((startCounted n s).view n (frameOpened n num s)).outFld 2 F.ISP_OUT_CFG_EN = 0 := by
      show wordFld ((frameOpened n num s).reg (R.ISP_OUT_CFG n 2)) _ = 0
      rw [hreg]
      exact hmv
    simp [IspView.mvPad, hen]
  refine ⟨takeBuf n 2 (takeBuf n 1 (takeBuf n 0 (frameOpened n num s, startCounted n s))),
    ((takeBuf_buffersTaken n 0 _).trans (takeBuf_buffersTaken n 1 _)).trans (takeBuf_buffersTaken n 2 _), ?_⟩
  rw [camFrameStart, closeFrame_none p 4 hrec]
  show (if (startCounted n s).camFld n F.ISP_CAM_CFG_STORED = 1 then _ else if
    ((startCounted n s).view n (frameOpened n num s)).mvPad && _ then _ else if
    ((startCounted n s).view n (frameOpened n num s)).mvPad && _ then _ else if
    (startCounted n s).fld R.ISP_SCHED F.ISP_SCHED_LOAD_MAX < (startCounted n s).loadTo n then _ else _) = _
  rw [hlive', hpad, if_neg (by decide), if_neg (by simp), if_neg (by simp), if_neg hload']
  rfl

end

/-! ### Packets of a port that receives (R272, R273) -/

section
variable {s : State} {p vc : Nat} (hrx : s.receives p = true)
include hrx

theorem frameStart_unbound (num : Nat) (hon : s.domOn 27 = true) (h : s.bound p vc = none) :
    frameStart p vc num .good s = csiDiscard p s := by
  rw [frameStart, hrx, hon]
  simp [csiHeader, h]

theorem frameStart_bound (num : Nat) (hon : s.domOn 27 = true) {n : Nat} (h : s.bound p vc = some n) :
    frameStart p vc num .good s = camFrameStart n p num s := by
  rw [frameStart, hrx, hon]
  simp [csiHeader, h]

theorem frameEnd_unbound (h : s.bound p vc = none) : frameEnd p vc .good s = csiDiscard p s := by
  rw [frameEnd, hrx]
  simp [csiHeader, h]

theorem frameEnd_receiving {n : Nat} {f : IspFrame} (h : s.bound p vc = some n) (hrec : (s.cam n).receiving = some f) :
    frameEnd p vc .good s = closeFrame n p 0 s := by
  rw [frameEnd, hrx]
  simp [csiHeader, h, hrec]

end

/-! ### The statement -/

/-- A packet that no camera is bound to is a violation of the port's partner, counted in the port's page (R273). -/
theorem csiDiscard_reports (p : Nat) (s : State) :
    (csiDiscard p s).counter (cntKey (Pg.ispPort p) 5) = (s.counter (cntKey (Pg.ispPort p) 5) + 1) % 2 ^ 64
      ∧ bitOf ((csiDiscard p s).reg (Pg.ispPort p + Hdr.errStat)).toNat E.ispPort_DISCARD = true
      ∧ (csiDiscard p s).isp = s.isp :=
  ⟨csiErr_counts .., csiErr_sets _ _ _ _ (by decide), csiErr_isp ..⟩

/-- Settles O30: a frame start's counts and a released packet leave what R277 reads, so the frame is admitted; nothing is missing
at the end of a whole frame; a packet that is not bound is a violation of the partner. -/
theorem framesOpenAndClose : Obligations.FramesOpenAndClose := by
  unfold Obligations.FramesOpenAndClose
  intro s p vc num hrx hon
  refine ⟨fun hnone c hc => ?_, fun n hb => ⟨fun hrec hlive hmv hload => ?_, fun f hrec hd hw => ?_⟩⟩
  · refine ⟨csiDiscard p s, ?_, csiDiscard_reports p s⟩
    rcases List.mem_pair.mp hc with rfl | rfl
    · exact congrArg Host.Outcome.next (frameStart_unbound hrx _ hon hnone)
    · exact congrArg Host.Outcome.next (frameEnd_unbound hrx hnone)
  · obtain ⟨q, htaken, hstart⟩ := camFrameStart_admits n s p num.toNat (bound_lt hb) hrec hlive hmv hload
    have hcount : (q.2.cam n).count = ((s.cam n).count + 1) % 2 ^ 32 := by rw [htaken.count, startCounted_cam]
    refine ⟨_, q.1, congrArg Host.Outcome.next ((frameStart_bound hrx _ hon hb).trans hstart), ?_⟩
    rw [cam_setCam_same, htaken.frame]
    refine ⟨?_, hcount, hcount.symm, rfl, rfl, rfl, rfl, rfl, rfl, htaken.starts.trans (startCounted_counter n s)⟩
    rw [htaken.frames, startCounted_cam]
  · have hend := (frameEnd_receiving hrx hb hrec).trans (closeFrame_whole p hrec hd hw)
    have hcam := cam_setCam_same s n ((s.cam n).setLast { f with ended := true })
    refine ⟨_, congrArg Host.Outcome.next hend, ?_, congrArg IspCam.frames hcam, rfl⟩
    exact (congrArg IspCam.receiving hcam).trans (receiving_setLast _ _)

end Sys2Proof.Machine
end

section
/-! PROOFS. Lines of a frame (R273, R274, R276): a good line joins its frame, and one that the receiver cannot use is replaced and
counted as lost. -/

namespace Sys2Proof.Machine

/-! ### Lost lines (R274) -/

section
variable {s : State} {n p : Nat} {f : IspFrame} (hrec : (s.cam n).receiving = some f) (hd : f.dropped = false)
  (hlt : f.lines.length < (s.view n f).h)
include hrec hd hlt

theorem lineLost_eq : lineLost n p s
    = countLost n p 1 (s.setCam n ((s.cam n).setLast (loseLines n 1 1 { f with rx := f.rx + 1 }))) := by
  unfold lineLost
  dsimp only
  rw [hrec]
  simp only [hd, Bool.false_eq_true, if_false, if_neg (Nat.not_le.mpr hlt)]

/-- A replacement stands in the frame for the lost line, which the frame counts. -/
theorem lineLost_replaces : ((lineLost n p s).cam n).receiving.map (fun g => (g.lines.length, g.lost))
    = some (f.lines.length + 1, f.lost + 1) := by
  have hcam : (lineLost n p s).cam n = (s.cam n).setLast (loseLines n 1 1 { f with rx := f.rx + 1 }) := by
    rw [lineLost_eq hrec hd hlt]
    exact cam_setCam_same s n _
  have hopen : (loseLines n 1 1 { f with rx := f.rx + 1 }).ended = f.ended := rfl
  rw [hcam, receiving_setLast, hopen, receiving_some hrec]
  simp [loseLines, iter]

theorem lineLost_regs : (lineLost n p s).regs = s.regs := by rw [lineLost_eq hrec hd hlt]; rfl

/-- A lost line is counted in the pages of its port and its camera (R296, R297). -/
theorem lineLost_counter_ne (k : Nat) (hp : k ≠ cntKey (Pg.ispPort p) 4) (hc : k ≠ cntKey (Pg.ispCam n) 2) :
    (lineLost n p s).counter k = s.counter k := by
  rw [lineLost_eq hrec hd hlt, countLost, State.counter_count_ne _ _ _ _ _ hc, State.counter_count_ne _ _ _ _ _ hp,
    setCam_counter]

end

/-- A line lost to a violation by the partner is replaced, and the violation shows in the page of the port as it does alone. -/
theorem lineLost_csiErr {s : State} {n p : Nat} {f : IspFrame} (hp : p < 8) (bit ctr : Nat) (hbit : bit < 32) (hctr : ctr < 4)
    (hrec : (s.cam n).receiving = some f) (hd : f.dropped = false) (hlt : f.lines.length < (s.view n f).h) :
    ((lineLost n p (csiErr p bit ctr s)).cam n).receiving.map (fun g => (g.lines.length, g.lost))
        = some (f.lines.length + 1, f.lost + 1)
      ∧ bitOf ((lineLost n p (csiErr p bit ctr s)).reg (Pg.ispPort p + Hdr.errStat)).toNat bit = true
      ∧ (lineLost n p (csiErr p bit ctr s)).counter (cntKey (Pg.ispPort p) ctr)
        = (s.counter (cntKey (Pg.ispPort p) ctr) + 1) % 2 ^ 64 := by
  have hrec' : ((csiErr p bit ctr s).cam n).receiving = some f := by rw [cam_of_isp (csiErr_isp p bit ctr s) n, hrec]
  refine ⟨lineLost_replaces hrec' hd hlt, ?_, ?_⟩
  · rw [State.reg, lineLost_regs hrec' hd hlt]
    exact csiErr_sets p bit ctr s hbit
  · rw [lineLost_counter_ne hrec' hd hlt _ (by unfold cntKey; omega) (by unfold cntKey Pg.ispPort Pg.ispCam; omega)]
    exact csiErr_counts p bit ctr s

/-! ### Good lines (R273, R276) -/

/-- A line of a live camera that keeps to its frame takes a free slot of the line ring. -/
theorem lineArrive_joins {s : State} {n p : Nat} {f : IspFrame} {px : List Nat} {sclk : Nat}
    (hrec : (s.cam n).receiving = some f) (hd : f.dropped = false) (hlt : f.lines.length < (s.view n f).h)
    (hon : s.domOn 27 = true) (hlive : f.fld (R.ISP_CAM_CFG n) F.ISP_CAM_CFG_STORED = 0)
    (hpat : s.fld (R.TST_CSI_CFG n) F.TST_CSI_CFG_PATTERN = 0)
    (hroom : s.slots n < f.fld (R.ISP_CAM_LB n) F.ISP_CAM_LB_LB_LINES) :
    lineArrive n p px sclk s = s.setCam n
      { (s.cam n).setLast { f with rx := f.rx + 1, lines := f.lines ++ [⟨px, true⟩] } with tLast := sclk } := by
  have hcheck : csiCheck n f px s = s := by
    unfold csiCheck
    exact if_pos hpat
  unfold lineArrive
  rw [hrec]
  dsimp only
  rw [hcheck]
  simp only [hd, hon, hlive, Bool.false_eq_true, if_false, if_neg (Nat.not_le.mpr hlt), if_neg (Nat.not_le.mpr hroom),
    Bool.not_true, Nat.zero_ne_one]

/-! ### Long packets (R272 to R274) -/

/-- A long packet of port `p` that arrives in SCLK cycle `sclk`, counted. -/
def packetCounted (p sclk : Nat) (s : State) : State := (s.at (dtimeOfSclk sclk)).count (Pg.ispPort p) 0 1

section
variable {s : State} {p vc dt n : Nat} (hrx : s.receives p = true) (hb : s.bound p vc = some n)
  (hdt : s.camFld n F.ISP_CAM_CFG_DT = dt) (hlong : longType dt = true) (px : List Nat) (sclk : Nat)
include hrx hb hdt hlong

theorem lineReceive_badHeader (crcOk : Bool) : lineReceive p vc dt .bad crcOk px sclk s
    = lineLost n p (csiErr p E.ispPort_ECC_UNCORR 2 (packetCounted p sclk s)) := by
  have hb' : (packetCounted p sclk s).bound p vc = some n := hb
  have hdt' : (packetCounted p sclk s).camFld n F.ISP_CAM_CFG_DT = dt := hdt
  unfold packetCounted at *
  simp [lineReceive, csiHeader, hrx, hb', hdt', hlong]

theorem lineReceive_badCrc : lineReceive p vc dt .good false px sclk s
    = lineLost n p (csiErr p E.ispPort_CRC 3 (packetCounted p sclk s)) := by
  have hb' : (packetCounted p sclk s).bound p vc = some n := hb
  have hdt' : (packetCounted p sclk s).camFld n F.ISP_CAM_CFG_DT = dt := hdt
  unfold packetCounted at *
  simp [lineReceive, csiHeader, hrx, hb', hdt', hlong]

theorem lineReceive_good {f : IspFrame} (hrec : (s.cam n).receiving = some f) (hw : px.length = (s.view n f).w) :
    lineReceive p vc dt .good true px sclk s = lineArrive n p px sclk (packetCounted p sclk s) := by
  have hb' : (packetCounted p sclk s).bound p vc = some n := hb
  have hdt' : (packetCounted p sclk s).camFld n F.ISP_CAM_CFG_DT = dt := hdt
  have hrec' : ((packetCounted p sclk s).cam n).receiving = some f := hrec
  have hw' : px.length = ((packetCounted p sclk s).view n f).w := hw
  unfold packetCounted at *
  simp [lineReceive, csiHeader, hrx, hb', hdt', hlong, hrec', ← hw']

end

end Sys2Proof.Machine
end

section
/-! PROOFS. Stripes and the end of a frame's processing (R278, R283 to R287): the camera that is granted a stripe, the lines that
the stripe finishes, and the frame that leaves its camera. -/

namespace Sys2Proof.Machine

/-! ### The oldest frame of a camera (R278) -/

theorem head_dropped {c : IspCam} {f : IspFrame} (h : c.head = some f) : f.dropped = false := by
  have hmem := List.mem_of_head? h
  simpa using (List.mem_filter.mp hmem).2

/-- The oldest frame in processing is replaced by one of the same order of start. -/
theorem head_setHead {c : IspCam} {f g : IspFrame} (h : c.head = some f) (ho : g.order = f.order) (hd : g.dropped = false) :
    (c.setHead g).head = some g := by
  have hmap (fs : List IspFrame) (hf : (fs.filter (fun f => !f.dropped)).head? = some f) :
      ((fs.map (fun f => if f.order == g.order then g else f)).filter (fun f => !f.dropped)).head? = some g := by
    induction fs with
    | nil => cases hf
    | cons x fs ih =>
      by_cases hx : x.order = g.order
      · simp [hx, hd]
      · have hxd : x.dropped = true := by
          by_contra hx'
          have hxf : x = f := (by simpa [hx'] using hf : x.dropped = false ∧ x = f).2
          exact hx (hxf ▸ ho.symm)
        simp only [List.filter_cons, hxd, Bool.not_true, Bool.false_eq_true, if_false] at hf
        simpa [hx, hxd] using ih hf
  exact hmap c.frames h

/-! ### Grants (R278, R279) -/

/-- The switch of context counted, where camera `n` was not the one last served (R279). -/
def contextSwitched (n : Nat) (served : Option Nat) (s : State) : State :=
  if served = some n then s else s.count Pg.isp0 3 1

theorem contextSwitched_frame (n : Nat) (served : Option Nat) (s : State) :
    contextSwitched n served s = { s with cnt := (contextSwitched n served s).cnt } := by
  unfold contextSwitched
  split <;> rfl

theorem stripeGrant_eq {s : State} {n : Nat} {f : IspFrame} (hhead : (s.cam n).head = some f) (hfree : s.isp.stripe = none)
    (hon : s.domState 27 = 2) (hnext : s.nextCam = some n) (hfresh : s.stale n f.dtime = false) :
    stripeGrant s = (contextSwitched n s.isp.served (s.setCam n ((s.cam n).setHead { f with begun := true }))).modIsp
      (fun z => { z with stripe := some n, served := some n }) := by
  unfold stripeGrant
  simp only [hfree, hon, hnext, hhead, hfresh, Option.isSome_none, Bool.and_false, Bool.false_or, Bool.false_eq_true, if_false,
    Nat.reduceBEq]
  rfl

/-! ### Outputs of a stripe (R283 to R286) -/

/-- An output writes its lines: of frame and state before and after, only how far the frame's outputs have come and whether they
go on differ, and nothing of the image pipeline. -/
def OutputWritten (f : IspFrame) (s : State) (q : IspFrame × State) : Prop :=
  q.1 = { f with flags := q.1.flags, out0 := q.1.out0, out1 := q.1.out1, out2 := q.1.out2, mvOff := q.1.mvOff } ∧ q.2.isp = s.isp

theorem OutputWritten.trans {f : IspFrame} {s : State} {q r : IspFrame × State} (h : OutputWritten f s q)
    (k : OutputWritten q.1 q.2 r) : OutputWritten f s r :=
  ⟨by rw [k.1, h.1], k.2.trans h.2⟩

theorem writePieces_isp (x base : Nat) (qs : List (Nat × List Byte)) (s : State) : (writePieces x base qs s).2.isp = s.isp := by
  induction qs generalizing s with
  | nil => rfl
  | cons q qs ih =>
    have hw := (daWrite_pipelineKept x (base + q.1) 0 q.2 s).1
    rw [writePieces]
    split
    · exact (ih _).trans hw
    · exact hw

theorem setOut_frame (f : IspFrame) (o y : Nat) :
    f.setOut o y = { f with out0 := (f.setOut o y).out0, out1 := (f.setOut o y).out1, out2 := (f.setOut o y).out2 } := by
  unfold IspFrame.setOut
  split <;> rfl

/-- Lines of an output in DA (R286). -/
theorem daOutput_written (o : Nat) (v : IspView) (s : State) : OutputWritten v.f s (daOutput o v s) := by
  unfold daOutput
  split
  · exact ⟨rfl, rfl⟩
  · split
    · exact ⟨rfl, rfl⟩
    · extract_lets y0 y1 r s1
      have hr : r.2.isp = s.isp := writePieces_isp _ _ _ s
      have hs1 : s1.isp = s.isp := by
        unfold s1
        split <;> exact hr
      split
      · exact ⟨by dsimp only; rw [setOut_frame], hs1⟩
      · exact ⟨rfl, (LogOnly.errEvent _ _ _).isp.trans hs1⟩

/-- Rows of a machine-vision output in its regions (R285). -/
theorem padOutput_written (v : IspView) (s : State) : OutputWritten v.f s (padOutput v s) := by
  unfold padOutput
  extract_lets y0 done y1 r0 rows head n _ s1 s2 s3
  split
  · exact ⟨rfl, rfl⟩
  · split
    · exact ⟨rfl, (countOverrun_logOnly _ _).isp⟩
    · refine ⟨rfl, ?_⟩
      have hhead : s1.isp = s.isp := by
        unfold s1
        split
        · exact State.writeRow_isp _ _ _ _ _
        · rfl
      have hplanes : s2.isp = s1.isp := by
        refine foldl_keeps State.isp _ (fun t c => ?_) _ s1
        dsimp only
        rw [advanceHead_frame]
        exact iter_keeps State.isp _ (fun j u => State.writeRow_isp u _ _ _ _) _ t
      exact hplanes.trans hhead

/-- The outputs of camera `n` take what frame `g` has completed: display, coding, then machine vision. -/
def outputsWritten (n : Nat) (g : IspFrame) (s : State) : IspFrame × State :=
  let q0 := daOutput 0 (s.view n g) s
  let q1 := daOutput 1 (q0.2.view n q0.1) q0.2
  let q2 := daOutput 2 (q1.2.view n q1.1) q1.2
  padOutput (q2.2.view n q2.1) q2.2

theorem outputsWritten_written (n : Nat) (g : IspFrame) (s : State) : OutputWritten g s (outputsWritten n g s) :=
  have hda (o : Nat) (g : IspFrame) (s : State) : OutputWritten g s (daOutput o (s.view n g) s) :=
    daOutput_written o (s.view n g) s
  (((hda 0 g s).trans (hda 1 _ _)).trans (hda 2 _ _)).trans (padOutput_written (State.view _ n _) _)

/-- Up to 32 more lines of a frame finished. -/
def linesFinished (f : IspFrame) : IspFrame := { f with fin := f.fin + min 32 (f.lines.length - f.fin) }

/-- The stripe of a live frame, whose lines are those of its ring, finishes lines, lets the outputs take them and is over. -/
theorem stripeEnd_eq {s : State} {n : Nat} {f : IspFrame} (hhead : (s.cam n).head = some f) (hstripe : s.isp.stripe = some n)
    (hlive : f.fld (R.ISP_CAM_CFG n) F.ISP_CAM_CFG_STORED = 0) {q : IspFrame × State}
    (hq : outputsWritten n (linesFinished f) s = q) :
    stripeEnd s = countFree (cntKey Pg.isp0 4) ((q.2.setCam n ((q.2.cam n).setHead q.1)).modIsp
      (fun z => { z with stripe := none })) := by
  unfold stripeEnd
  rw [hstripe]
  dsimp only
  rw [hhead]
  dsimp only
  rw [hlive, if_neg Nat.zero_ne_one, ← hq]
  rfl

/-- The pipeline is free after a stripe, and the frame has up to 32 more lines finished. -/
theorem stripeEnd_finishes {s : State} {n : Nat} {f : IspFrame} (hhead : (s.cam n).head = some f)
    (hstripe : s.isp.stripe = some n) (hlive : f.fld (R.ISP_CAM_CFG n) F.ISP_CAM_CFG_STORED = 0) :
    (stripeEnd s).isp.stripe = none
      ∧ ((stripeEnd s).cam n).head.map (·.fin) = some (f.fin + min 32 (f.lines.length - f.fin)) := by
  have hdropped : f.dropped = false := head_dropped hhead
  obtain ⟨hout, hisp⟩ := outputsWritten_written n (linesFinished f) s
  generalize hq : outputsWritten n (linesFinished f) s = q at hout hisp
  have hcam : (q.2.cam n).head = some f := by rw [cam_of_isp hisp, hhead]
  have hnew : ((q.2.cam n).setHead q.1).head = some q.1 :=
    head_setHead hcam (by rw [hout]; rfl) (by rw [hout]; exact hdropped)
  have hset : ((stripeEnd s).cam n) = (q.2.cam n).setHead q.1 := by
    rw [stripeEnd_eq hhead hstripe hlive hq]
    exact cam_setCam_same q.2 n _
  refine ⟨by rw [stripeEnd_eq hhead hstripe hlive hq]; rfl, ?_⟩
  rw [hset, hnew, hout]
  rfl

/-! ### The end of a frame's processing (R287, R289) -/

theorem presence_frames (c : IspCam) (v : IspView) (grid : List (List Nat)) : (presence c v grid).2.1.frames = c.frames := by
  unfold presence
  dsimp only
  split <;> rfl

/-- A frame whose lines are all finished leaves its camera and is counted; what its record and a vision wake do besides leaves the
pipeline as it is. -/
theorem frameDone_leaves {s : State} {n : Nat} {f : IspFrame} (hhead : (s.cam n).head = some f) (hend : f.ended = true)
    (hfin : (s.view n f).h ≤ f.fin) (hidle : s.isp.stripe ≠ some n) :
    ∃ c : IspCam, c.frames = (s.cam n).frames
      ∧ PipelineKept ((s.setCam n (c.dropHead f)).count Pg.isp0 0 1) (frameDone n s) := by
  have hdone : ¬ (!f.ended || decide (f.fin < (s.view n f).h) || s.isp.stripe == some n) = true := by
    simp [hend, hidle, hfin]
  unfold frameDone
  rw [hhead]
  dsimp -zeta only
  extract_lets v grid p bs s1 s2 s3 s4
  rw [if_neg hdone]
  have hstored : PipelineKept s1 s2 := by
    unfold s2
    split
    · exact .addCnt s1 _ 1 (by decide)
    · exact .refl s1
  have hrecord : PipelineKept s2 s3 :=
    (PipelineKept.count s2 _ _ _ (cntKey_ispCam_page n 5)).trans (writeRecord_pipelineKept n f bs _)
  have hcross : PipelineKept s3 s4 := .count s3 _ _ _ (cntKey_ispCam_page n 6)
  refine ⟨p.2.1, presence_frames _ v grid, (hstored.trans hrecord).trans ?_⟩
  split
  · split
    · exact hcross.trans (visionWake_pipelineKept _ _ _ _)
    · exact hcross
  · exact .refl s3

/-! ### The statement -/

/-- Settles O31: a line's packet leaves the camera and its ring as they were, so a good line finds its slot and a damaged one is
replaced; a grant and a stripe's outputs touch no more of the frame than they say, and a record leaves the pipeline alone. -/
theorem linesAndStripesOfAFrame : Obligations.LinesAndStripesOfAFrame := by
  unfold Obligations.LinesAndStripesOfAFrame
  refine ⟨fun s p vc dt px sclk n f hrx hon hb hdt hlong hrec hd hlt => ⟨fun hlive hw hpat hroom => ?_, ?_, ?_⟩,
    fun s n f hhead => ⟨fun hfree hon hnext hfresh => ?_, fun hstripe hlive => ?_, fun hend hfin hidle => ?_⟩⟩
  · have hline := (lineReceive_good hrx hb hdt hlong px sclk hrec hw).trans
      (lineArrive_joins (s := packetCounted p sclk s) hrec hd hlt hon hlive hpat hroom)
    have hcam := cam_setCam_same (packetCounted p sclk s) n { ((packetCounted p sclk s).cam n).setLast
      { f with rx := f.rx + 1, lines := f.lines ++ [⟨px, true⟩] } with tLast := sclk }
    exact ⟨_, congrArg Host.Outcome.next hline, congrArg IspCam.tLast hcam, congrArg IspCam.frames hcam, rfl, rfl⟩
  · obtain ⟨hlost, hbit, hcount⟩ := lineLost_csiErr (s := packetCounted p sclk s) p.isLt E.ispPort_CRC 3
      (by decide) (by decide) hrec hd hlt
    have hpacket : (packetCounted p sclk s).counter (cntKey (Pg.ispPort p) 3) = s.counter (cntKey (Pg.ispPort p) 3) :=
      State.counter_count_ne _ _ _ _ _ (by unfold cntKey; omega)
    rw [hpacket] at hcount
    exact ⟨_, congrArg Host.Outcome.next (lineReceive_badCrc hrx hb hdt hlong px sclk), hlost, hbit, hcount⟩
  · obtain ⟨hlost, hbit, -⟩ := lineLost_csiErr (s := packetCounted p sclk s) p.isLt E.ispPort_ECC_UNCORR 2
      (by decide) (by decide) hrec hd hlt
    exact ⟨_, congrArg Host.Outcome.next (lineReceive_badHeader hrx hb hdt hlong px sclk true), hlost, hbit⟩
  · have hdropped : f.dropped = false := head_dropped hhead
    have hframe := contextSwitched_frame n s.isp.served (s.setCam n ((s.cam n).setHead { f with begun := true }))
    refine ⟨_, congrArg Host.Outcome.next (stripeGrant_eq hhead hfree hon hnext hfresh), ?_⟩
    rw [hframe]
    refine ⟨rfl, rfl, ?_, rfl, rfl, rfl⟩
    exact (congrArg IspCam.head (cam_setCam_same s n _)).trans (head_setHead hhead rfl hdropped)
  · exact ⟨_, rfl, stripeEnd_finishes hhead hstripe hlive⟩
  · obtain ⟨c, hframes, hisp, hcount⟩ := frameDone_leaves hhead hend hfin hidle
    refine ⟨frameDone n s, rfl, ?_, hcount.trans (State.counter_count_same _ _ _ _)⟩
    rw [cam_of_isp hisp, ← hframes]
    exact congrArg IspCam.frames (cam_setCam_same s n (c.dropHead f))

end Sys2Proof.Machine
end

section
/-! PROOFS. What leaves the decoder alone (R217, R223, R231, R302, R315): reads and writes of DA for an engine, and a picture
record, change neither the contexts and engines nor a counter of the decode pages beyond the record's own. -/

namespace Sys2Proof.Machine

/-- The contexts and engines of the decoder, and counter `key`, are as before. -/
def DecoderKept (key : Nat) (s t : State) : Prop := t.video = s.video ∧ t.counter key = s.counter key

namespace DecoderKept

variable {key : Nat}

theorem of_same {s t : State} (hv : t.video = s.video) (hc : t.cnt = s.cnt) : DecoderKept key s t :=
  ⟨hv, by rw [State.counter, hc, State.counter]⟩

theorem refl (s : State) : DecoderKept key s s := ⟨rfl, rfl⟩

theorem trans {s t u : State} (h : DecoderKept key s t) (k : DecoderKept key t u) : DecoderKept key s u :=
  ⟨k.1.trans h.1, k.2.trans h.2⟩

theorem count (s : State) (base i k : Nat) (h : key ≠ cntKey base i) : DecoderKept key s (s.count base i k) :=
  ⟨rfl, State.counter_count_ne s base i k key h⟩

theorem drew (s : State) (k : Nat) : DecoderKept key s (s.drew k) := .of_same rfl rfl

theorem countFree (s : State) (k : Nat) (h : key ≠ k) : DecoderKept key s (countFree k s) :=
  ⟨rfl, State.counter_addCnt_ne s k _ key h⟩

theorem setReg (s : State) (a : Nat) (w : Word) : DecoderKept key s (s.setReg a w) := .of_same rfl rfl

theorem setFld (s : State) (a : Nat) (f : Fld) (v : Nat) : DecoderKept key s (s.setFld a f v) := .of_same rfl rfl

theorem errEvent (base bit : Nat) (s : State) : DecoderKept key s (errEvent base bit s) :=
  ⟨by rw [errEvent_frame], errEvent_counter base bit s key⟩

theorem msixSend (f v : Nat) (s : State) : DecoderKept key s (msixSend f v s) := by
  rw [msixSend_frame]
  exact .of_same rfl rfl

theorem touchPage (p : Nat) (s : State) : DecoderKept key s (touchPage p s) := by
  rw [touchPage_frame]
  exact .of_same rfl rfl

theorem feedSignal (feed x : Nat) (s : State) : DecoderKept key s (feedSignal feed x s) :=
  (DecoderKept.setReg s _ _).trans (.msixSend _ _ _)

/-! ### Bytes of DA (R223, R231)

The pages of the memory tiers and of the error log, whose counters an access moves, lie below those of the decode group. -/

section
variable (hkey : Pg.dec0 ≤ key)
include hkey

theorem countMt (s : State) (i k : Nat) (hi : i < 8) : DecoderKept key s (s.count Pg.mt1 i k) :=
  .count s _ _ _ (by unfold cntKey Pg.mt1; unfold Pg.dec0 at hkey; omega)

theorem countFreeMt (s : State) (i : Nat) (hi : i < 8) : DecoderKept key s (Machine.countFree (cntKey Pg.mt1 i) s) :=
  .countFree s _ (by unfold cntKey Pg.mt1; unfold Pg.dec0 at hkey; omega)

theorem logEntry (e : LogEntry) (s : State) : DecoderKept key s (logEntry e s) := by
  have hpage : key / 4096 ≠ Pg.rel2 / 4096 := by
    unfold Pg.rel2
    unfold Pg.dec0 at hkey
    omega
  exact ⟨by rw [logEntry_frame e s], logEntry_counter e s key hpage⟩

theorem poisonMade (da owner src : Nat) (s : State) : DecoderKept key s (poisonMade da owner src s) :=
  (DecoderKept.errEvent _ _ _).trans (.logEntry hkey _ _)

theorem storeSector (owner da src : Nat) (bs : List Byte) (s : State) :
    DecoderKept key s (storeSector owner da src bs s) := by
  unfold Machine.storeSector
  dsimp only
  split
  · exact .of_same rfl rfl
  · exact DecoderKept.trans (.of_same rfl rfl) (.poisonMade hkey _ _ _ _)

theorem writeRun (set tenant da src : Nat) (bs : List Byte) (k base : Nat) (s : State) :
    DecoderKept key s (writeRun set tenant da src bs k base s).2 := by
  induction k generalizing base s with
  | zero => exact .refl s
  | succ k ih =>
    rw [Machine.writeRun]
    split
    · exact .countMt hkey s _ _ (by decide)
    · exact ((DecoderKept.touchPage _ s).trans (.storeSector hkey _ _ _ _ _)).trans (ih _ _)

theorem daWrite (x da src : Nat) (bs : List Byte) (s : State) : DecoderKept key s (daWrite x da src bs s).2 :=
  .writeRun hkey ..

/-- A read counts what it meets and logs the poison that it delivers. -/
theorem readSector (owner da : Nat) (s : State) : DecoderKept key s (readSector owner da .clean s).2.2 := by
  have hpoison (base src : Nat) (t : State) : DecoderKept key t (Machine.poisonMade base owner src (t.count Pg.mt1 5 1)) :=
    (DecoderKept.countMt hkey t 5 1 (by decide)).trans (.poisonMade hkey _ _ _ _)
  have hfails (base src : Nat) : DecoderKept key s (Machine.poisonMade base owner src
      (((Machine.countFree (cntKey Pg.mt1 3) s).drew 512).count Pg.mt1 5 1)) :=
    ((DecoderKept.countFreeMt hkey s 3 (by decide)).trans (.drew _ _)).trans (hpoison _ _ _)
  unfold Machine.readSector
  dsimp only
  generalize s.tagAt (da / 512 * 512) = held
  cases held with
  | none => exact hfails _ _
  | some tag =>
    dsimp only
    split
    · exact hfails _ _
    · split
      · exact .refl s
      · exact hpoison _ _ s

theorem readRun (set tenant k base : Nat) (s : State) : DecoderKept key s (readRun set tenant k base s).2.2.2 := by
  induction k generalizing base s with
  | zero => exact .refl s
  | succ k ih =>
    rw [Machine.readRun]
    split
    · exact .countMt hkey s _ _ (by decide)
    · exact ((DecoderKept.touchPage _ s).trans (.readSector hkey _ _ _)).trans (ih _ _)

theorem daRead (x da n : Nat) (s : State) : DecoderKept key s (daRead x da n s).2.2.2 := .readRun hkey ..

/-- A picture's samples in its slot of the pool (R303). -/
theorem fillSlot (c k : Nat) (p : DecPic) (s : State) : DecoderKept key s (fillSlot c k p s).2 :=
  (DecoderKept.drew s _).trans (.daWrite hkey _ _ _ _ _)

/-- A picture record reaches its ring or is counted as lost (R315). -/
theorem writePicRecord (c : Nat) (bs : List Byte) (s : State) (h : key ≠ cntKey (Pg.decCtx c) 7) :
    DecoderKept key s (writePicRecord c bs s) := by
  unfold Machine.writePicRecord
  dsimp only
  split
  · exact (DecoderKept.count s _ _ _ h).trans (.errEvent _ _ _)
  · split
    · exact ((DecoderKept.daWrite hkey _ _ _ _ s).trans (.setFld _ _ _ _)).trans (.feedSignal _ _ _)
    · exact .daWrite hkey _ _ _ _ s

end

end DecoderKept

end Sys2Proof.Machine
end

section
/-! PROOFS. Decode contexts and engines (R302, R304, R305, R308): their records, a write of DEC_AU_PTR, the fetch of an entry, and
the start of the picture longest in its engine's queue. -/

namespace Sys2Proof.Machine

/-! ### Records of contexts and engines -/

theorem dec_of_video {s t : State} (h : t.video = s.video) (c : Nat) : t.dec c = s.dec c := by rw [State.dec, h, State.dec]

theorem eng_of_video {s t : State} (h : t.video = s.video) (e : Nat) : t.eng e = s.eng e := by rw [State.eng, h, State.eng]

section
variable (s : State) (c e : Nat) (x : DecCtx) (g : DecEng)

theorem eng_setEng_same : (s.setEng e g).eng e = g := Tab.get_set_same _ _ _ _

@[simp] theorem dec_count (b i k : Nat) : (s.count b i k).dec c = s.dec c := rfl
@[simp] theorem eng_count (b i k : Nat) : (s.count b i k).eng e = s.eng e := rfl
@[simp] theorem dec_setEng : (s.setEng e g).dec c = s.dec c := rfl
@[simp] theorem da_setEng : (s.setEng e g).da = s.da := rfl
@[simp] theorem dec_engFree : (engFree e s).dec c = s.dec c := rfl
@[simp] theorem counter_engFree (k : Nat) : (engFree e s).counter k = s.counter k := rfl

theorem engFree_eng : (engFree e s).eng e = { s.eng e with run := none } := eng_setEng_same s e _

@[simp] theorem dec_decStatus (d : Nat) : (decStatus d s).dec c = s.dec c := rfl
@[simp] theorem eng_decStatus (d : Nat) : (decStatus d s).eng e = s.eng e := rfl
@[simp] theorem da_decStatus (d : Nat) : (decStatus d s).da = s.da := rfl
@[simp] theorem counter_decStatus (d k : Nat) : (decStatus d s).counter k = s.counter k := rfl

/-- Beside the context's record, its status word and the count of its paused cycles differ. -/
theorem setDec_frame : s.setDec c x = { s with
    video := { s.video with ctxs := Tab.set s.video.ctxs c x }
    regs := (decStatus c (s.modVid (fun z => { z with ctxs := Tab.set z.ctxs c x }))).regs
    cnt := (s.setDec c x).cnt
    free := (s.setDec c x).free } := by
  unfold State.setDec
  dsimp only
  split <;> rfl

theorem dec_setDec_same : (s.setDec c x).dec c = x := by
  rw [setDec_frame]
  exact Tab.get_set_same _ _ _ _

@[simp] theorem eng_setDec : (s.setDec c x).eng e = s.eng e := by
  rw [setDec_frame]
  rfl

@[simp] theorem da_setDec : (s.setDec c x).da = s.da := by rw [setDec_frame]

theorem reg_setDec_ne (a : Nat) (h : a ≠ R.DEC_CTX_STATUS c) : (s.setDec c x).reg a = s.reg a := by
  rw [setDec_frame]
  exact State.reg_setFld_ne _ _ _ _ _ h

theorem counter_setDec_ne (k : Nat) (h : k ≠ cntKey (Pg.decCtx c) 6) : (s.setDec c x).counter k = s.counter k := by
  unfold State.setDec
  dsimp only
  split
  · exact State.counter_addCnt_ne _ _ _ _ h
  · rfl

end

/-- Counter `i` of context `c` is another than counter `j`, where the numbers differ. -/
theorem cntKey_decCtx_ne (c : Nat) {i j : Nat} (h : i ≠ j) : cntKey (Pg.decCtx c) i ≠ cntKey (Pg.decCtx c) j := by
  unfold cntKey
  omega

/-- No header counter of a context is one of an engine or of DEC page 0. -/
theorem cntKey_decCtx_ne_decEng (c e : Nat) {i j : Nat} (he : e < 4) (hj : j < 8) :
    cntKey (Pg.decCtx c) i ≠ cntKey (Pg.decEng e) j := by
  unfold cntKey Pg.decCtx Pg.decEng
  omega

theorem cntKey_decCtx_ne_dec0 (c : Nat) {i j : Nat} (hj : j < 8) : cntKey (Pg.decCtx c) i ≠ cntKey Pg.dec0 j := by
  unfold cntKey Pg.decCtx Pg.dec0
  omega

theorem cntKey_decEng_ne_dec0 (e : Nat) {i j : Nat} (hj : j < 8) : cntKey (Pg.decEng e) i ≠ cntKey Pg.dec0 j := by
  unfold cntKey Pg.decEng Pg.dec0
  omega

theorem dec0_le_cntKey_decCtx (c i : Nat) : Pg.dec0 ≤ cntKey (Pg.decCtx c) i := by
  unfold cntKey Pg.dec0 Pg.decCtx
  omega

theorem dec0_le_cntKey_decEng (e i : Nat) : Pg.dec0 ≤ cntKey (Pg.decEng e) i := by
  unfold cntKey Pg.dec0 Pg.decEng
  omega

/-! ### DEC_AU_PTR (R302, R321) -/

/-- A permitted write of DEC_AU_PTR moves WR, and the context's status follows. -/
theorem wordWrite_auPtr (iid : Nat) (c : Fin 32) (v : Word) (s : State) (h : s.Admits iid (R.DEC_AU_PTR c) .decCtx c) :
    wordWrite iid (R.DEC_AU_PTR c) v s = decStatus c
      (s.setReg (R.DEC_AU_PTR c) (mergeWord (s.reg (R.DEC_AU_PTR c)) (maskOf 12 0) v)) := by
  have hneeds : ∀ c : Fin 32, needsOutcome (R.DEC_AU_PTR c) = false := by decide
  have hoff : R.DEC_AU_PTR c % 4096 = 0x120 := by unfold R.DEC_AU_PTR Pg.decCtx; omega
  have hpage : R.DEC_AU_PTR c / 4096 = 0x590 + c := by unfold R.DEC_AU_PTR Pg.decCtx; omega
  have hf : findReg (R.DEC_AU_PTR c % 4096) (regsOf .decCtx)
      = some (⟨0x120, 1, 0x0, 1, 0x0, .any, [⟨12, 0, .rw, 0, 0, []⟩, ⟨28, 16, .ro, 0, 0, []⟩]⟩, 0, 0) := by
    rw [hoff]
    decide
  have hextra : extraOk (R.DEC_AU_PTR c) ⟨12, 0, .rw, 0, 0, []⟩ (bitsOf v.toNat 12 0) = true := by
    unfold extraOk
    rw [if_neg (by rw [hpage]; unfold Pg.brz1; omega), if_neg (by omega), if_neg (by omega)]
  have hwr := fieldWrite_store iid (R.DEC_AU_PTR c) v ⟨12, 0, .rw, 0, 0, []⟩ s (.inl rfl) (by decide) (by decide) rfl hextra
  have hrd (t : State) : fieldWrite iid (R.DEC_AU_PTR c) 0xFFFFFFFF#32 v t ⟨28, 16, .ro, 0, 0, []⟩ = t := by
    unfold fieldWrite
    dsimp only
    split <;> rfl
  have heffect (t : State) : writeEffect ⟨false, false, false⟩ iid .decCtx c 0x120 0xFFFFFFFF#32 v s t = decStatus c t := rfl
  rw [wordWrite_block iid (R.DEC_AU_PTR c) v s .decCtx c _ 0 0 h (hneeds c) (by omega) hf (by rw [hoff]; decide) rfl]
  simp only [fieldsWrite, hwr, hrd, hoff, heffect]
  refine attributeErr_quiet _ _ _ _ (State.reg_setFld_ne _ _ _ _ _ ?_)
  rw [hoff]
  unfold R.DEC_AU_PTR R.DEC_CTX_STATUS Hdr.errStat
  omega

/-- WR takes the data's bits, RD keeps its own, and no other register than the pointer and the status word changes. -/
theorem auPtrWritten (c : Nat) (v : Word) (s : State) {t : State} (ht : t = decStatus c
      (s.setReg (R.DEC_AU_PTR c) (mergeWord (s.reg (R.DEC_AU_PTR c)) (maskOf 12 0) v))) :
    t.fld (R.DEC_AU_PTR c) F.DEC_AU_PTR_WR = wordFld v F.DEC_AU_PTR_WR
      ∧ t.fld (R.DEC_AU_PTR c) F.DEC_AU_PTR_RD = s.fld (R.DEC_AU_PTR c) F.DEC_AU_PTR_RD
      ∧ OnlyRegs [R.DEC_AU_PTR c, R.DEC_CTX_STATUS c] s t := by
  subst ht
  have hne : R.DEC_AU_PTR c ≠ R.DEC_CTX_STATUS c := by unfold R.DEC_AU_PTR R.DEC_CTX_STATUS; omega
  have hfld (f : Fld) : (decStatus c (s.setReg (R.DEC_AU_PTR c) (mergeWord (s.reg (R.DEC_AU_PTR c)) (maskOf 12 0) v))).fld
      (R.DEC_AU_PTR c) f = wordFld (mergeWord (s.reg (R.DEC_AU_PTR c)) (maskOf 12 0) v) f :=
    (State.fld_setFld_ne _ _ _ _ _ _ hne).trans (State.fld_setReg_same ..)
  have hmask (j : Nat) : (maskOf 12 0).getLsbD j = decide (j ≤ 12) := by simp [maskOf_getLsbD 12 0 j (by decide)]
  refine ⟨(hfld _).trans (wordFld_mergeWord_in _ _ v _ fun j _ hj => ?_),
    (hfld _).trans (wordFld_mergeWord_out _ _ v _ fun j hj _ => ?_), rfl, fun a ha => ?_⟩
  · rw [hmask]
    exact decide_eq_true hj
  · have hlo : 16 ≤ j := hj
    rw [hmask]
    exact decide_eq_false (by omega)
  · simp only [List.mem_cons, List.not_mem_nil, or_false, not_or] at ha
    exact (State.reg_setFld_ne _ _ _ _ _ ha.2).trans (State.reg_setReg_ne _ _ _ _ ha.1)

/-! ### The fetch of an entry (R302, R304) -/

/-- The picture that a ring entry's bytes describe, `id` being its number and `now` the time (R302). -/
def entryPic (id now : Nat) (bs : List Byte) : DecPic :=
  { id := id, da := leAt bs 0 6, auFlags := leAt bs 6 1, bytes := leAt bs 8 4, tag := leAt bs 12 4,
    capture := if bitOf (leAt bs 6 1) 0 then leAt bs 16 8 else now, source := leAt bs 24 4, frame := leAt bs 28 4 }

/-- The bytes, poison, grant and state of the read of the entry that RD names. -/
def auEntryRead (c : Nat) (s : State) : List Byte × Nat × Bool × State :=
  daRead (s.decCtx c) (s.pair (R.DEC_AU_LO c) (R.DEC_AU_HI c) + 32 * (s.fld (R.DEC_AU_PTR c) F.DEC_AU_PTR_RD % 4096)) 32 s

/-- RD past the entry that was read, and the entry counted. -/
def auEntryTaken (c : Nat) (s : State) : State :=
  ((auEntryRead c s).2.2.2.setFld (R.DEC_AU_PTR c) F.DEC_AU_PTR_RD
    (ringNext 12 (s.fld (R.DEC_AU_SLOTS c) F.DEC_AU_SLOTS_SLOTS) (s.fld (R.DEC_AU_PTR c) F.DEC_AU_PTR_RD))).count (Pg.decCtx c) 0 1

section
variable {s : State} {c : Nat}

/-- An entry that is read whole and asks for no cache lookup gives its picture to the context, which joins its engine's queue. -/
theorem auFetch_eq (hen : s.flag (R.DEC_CTX_CFG c) F.DEC_CTX_CFG_EN = true) (hgo : (s.dec c).paused = false)
    (hcur : (s.dec c).cur = none) (hwr : s.fld (R.DEC_AU_PTR c) F.DEC_AU_PTR_WR ≠ s.fld (R.DEC_AU_PTR c) F.DEC_AU_PTR_RD)
    (hon : s.domOn 28 = true) (hok : (auEntryRead c s).2.2.1 = true) (hclean : (auEntryRead c s).2.1 = 0)
    (hlook : bitOf (leAt (auEntryRead c s).1 6 1) 1 = false) :
    auFetch c s = joinReady c ((auEntryTaken c s).setDec c
      { s.dec c with cur := some (entryPic (s.dec c).nextId s.dtime (auEntryRead c s).1), nextId := (s.dec c).nextId + 1 }) := by
  have htakes : ¬ (!s.flag (R.DEC_CTX_CFG c) F.DEC_CTX_CFG_EN || (s.dec c).paused || (s.dec c).cur.isSome
      || s.fld (R.DEC_AU_PTR c) F.DEC_AU_PTR_WR == s.fld (R.DEC_AU_PTR c) F.DEC_AU_PTR_RD || !s.domOn 28) = true := by
    simp [hen, hgo, hcur, hwr, hon]
  have hfirst (sets : Nat) : (entryPic (s.dec c).nextId s.dtime (auEntryRead c s).1).lookFirst sets = false := by
    simp [DecPic.lookFirst, entryPic, hlook]
  unfold auEntryRead at hok hclean
  unfold auFetch
  dsimp only
  rw [if_neg htakes, hok, if_neg (by decide), if_neg (not_not_intro hclean)]
  exact if_neg (Bool.eq_false_iff.mp (hfirst _))

theorem auEntryTaken_eng (e : Nat) : (auEntryTaken c s).eng e = s.eng e :=
  eng_of_video (DecoderKept.daRead (key := Pg.dec0) (Nat.le_refl _) (s.decCtx c) _ 32 s).1 e

theorem auEntryTaken_rd : (auEntryTaken c s).fld (R.DEC_AU_PTR c) F.DEC_AU_PTR_RD
    = ringNext 12 (s.fld (R.DEC_AU_SLOTS c) F.DEC_AU_SLOTS_SLOTS) (s.fld (R.DEC_AU_PTR c) F.DEC_AU_PTR_RD) % 8192 :=
  State.fld_setFld_same (auEntryRead c s).2.2.2 _ _ _ (by decide)

theorem auEntryTaken_counts : (auEntryTaken c s).counter (cntKey (Pg.decCtx c) 0)
    = (s.counter (cntKey (Pg.decCtx c) 0) + 1) % 2 ^ 64 := by
  have hread : (auEntryRead c s).2.2.2.counter (cntKey (Pg.decCtx c) 0) = s.counter (cntKey (Pg.decCtx c) 0) :=
    (DecoderKept.daRead (dec0_le_cntKey_decCtx c 0) ..).2
  exact (State.counter_count_same ..).trans (congrArg (fun n => (n + 1) % 2 ^ 64) hread)

theorem joinReady_ready : ((joinReady c s).eng (c / 8)).ready = (s.eng (c / 8)).ready ++ [c] :=
  congrArg DecEng.ready (eng_setEng_same s (c / 8) _)

theorem joinReady_dec (d : Nat) : (joinReady c s).dec d = s.dec d := rfl

theorem joinReady_counter (k : Nat) : (joinReady c s).counter k = s.counter k := rfl

/-- A context that joins a queue changes its status word alone. -/
theorem joinReady_fld_ne {a : Nat} (f : Fld) (h : a ≠ R.DEC_CTX_STATUS c) : (joinReady c s).fld a f = s.fld a f :=
  State.fld_setFld_ne _ _ _ _ _ _ h

/-! ### The start of a picture (R305, R308) -/

/-- Context `c` has left the queue of engine `e`, whose other contexts are `rest`, and a switch of context is counted. -/
def queueLeft (e c : Nat) (rest : List Nat) (s : State) : State :=
  let t := s.setEng e { run := none, ready := rest, last := some c }
  if (s.eng e).last = some c ∨ (s.eng e).last = none then t else t.count (Pg.decEng e) 3 1

theorem queueLeft_frame (e : Nat) (rest : List Nat) : queueLeft e c rest s
    = { s.setEng e { run := none, ready := rest, last := some c } with cnt := (queueLeft e c rest s).cnt } := by
  unfold queueLeft
  dsimp only
  split <;> rfl

theorem queueLeft_counter_ne (e : Nat) (rest : List Nat) (k : Nat) (h : k ≠ cntKey (Pg.decEng e) 3) :
    (queueLeft e c rest s).counter k = s.counter k := by
  unfold queueLeft
  dsimp only
  split
  · rfl
  · exact State.counter_count_ne _ _ _ _ _ h

theorem queueLeft_dec (e : Nat) (rest : List Nat) (d : Nat) : (queueLeft e c rest s).dec d = s.dec d := by
  rw [queueLeft_frame]
  rfl

theorem queueLeft_eng (e : Nat) (rest : List Nat) :
    (queueLeft e c rest s).eng e = { run := none, ready := rest, last := some c } := by
  rw [queueLeft_frame]
  exact eng_setEng_same s e _

/-- The context decodes its picture, which has latched the registers of the context's page (R319). -/
def pictureLatched (c : Nat) (x : DecCtx) (p : DecPic) (s : State) : DecCtx :=
  { x with discard := false, cur := some { p with w := x.w, h := x.h, regs := s.regs.filter (fun r => r.1 / 4096 == 0x590 + c) } }

/-- A picture whose sequence header `h` fails is given up, and its context discards until a random-access point (R305). -/
def headerRefused (c : Nat) (h : SeqHdr) (p : DecPic) (now : Nat) (s : State) : State :=
  let q := { p with w := h.w, h := h.h, done := now, count := (s.dec c).count }
  writePicRecord c (picRecord q 0x20 q.flags 0 255)
    (((s.setDec c { s.dec c with cur := none, discard := true }).count (Pg.decCtx c) 2 1).count Pg.dec0 2 1)

section
variable {e : Nat} {rest : List Nat} {p : DecPic} (hfree : (s.eng e).run = none) (hready : (s.eng e).ready = c :: rest)
  (hcur : (s.dec c).cur = some p) (hon : s.domOn 28 = true) (hnew : p.used = 0)
include hfree hready hcur hon hnew

/-- The picture is refused where its first parse finds a sequence header that fails; where it finds none, and neither its context
discards nor its entry follows a discontinuity, it is decoded. -/
theorem decodeStart_head (info : AuInfo) :
    (∀ h, info.hdr = some h → s.hdrOk c h = false →
        decodeStart e info s = headerRefused c h p s.dtime (queueLeft e c rest s))
      ∧ (info.hdr = none → info.rap = false → (s.dec c).discard = false → bitOf p.auFlags 3 = false →
        decodeStart e info s = decStatus c
          (((queueLeft e c rest s).setDec c (pictureLatched c (s.dec c) p s)).setEng e ⟨rest, some c, some c⟩)) := by
  have hdec : (queueLeft e c rest s).dec c = s.dec c := queueLeft_dec e rest c
  have heng : (queueLeft e c rest s).eng e = _ := queueLeft_eng e rest
  unfold decodeStart
  extract_lets g
  rw [show g.run = none from hfree, show g.ready = c :: rest from hready]
  dsimp -zeta only
  rw [hcur]
  dsimp -zeta only
  rw [if_neg (by simp [hon])]
  extract_lets s0 s1 go pass x q s2 y w h y1
  rw [if_neg (not_not_intro hnew)]
  have hs1 : s1 = queueLeft e c rest s := rfl
  refine ⟨fun hdr hhdr hbad => ?_, fun hhdr hrap hdisc hcont => ?_⟩
  · rw [if_pos (by simp [pass, hhdr, hbad])]
    unfold q x
    rw [hs1, hhdr]
    rfl
  · have hs2 : s2 = queueLeft e c rest s := if_neg (Bool.eq_false_iff.mp hcont)
    have hy : y = s.dec c := by rw [← hdec, ← hs2]
    have hy1 : y1 = pictureLatched c (s.dec c) p s := by
      unfold y1 w h
      rw [hy, hcont, hrap, hhdr]
      rfl
    rw [if_neg (by simp [pass, hhdr]), if_neg (by simp [x, hs1, hdec, hdisc]), hy1, hs2]
    unfold go
    rw [eng_setDec, heng]

end

/-- The engine decodes for the context, whose record is `x`, and no byte of DA has changed. -/
theorem pictureStarted (e : Nat) (rest : List Nat) (x : DecCtx) {t : State}
    (ht : t = decStatus c (((queueLeft e c rest s).setDec c x).setEng e ⟨rest, some c, some c⟩)) :
    t.eng e = ⟨rest, some c, some c⟩ ∧ t.dec c = x ∧ t.da = s.da := by
  subst ht
  refine ⟨?_, ?_, ?_⟩
  · rw [eng_decStatus, eng_setEng_same]
  · rw [dec_decStatus, dec_setEng, dec_setDec_same]
  · rw [da_decStatus, da_setEng, da_setDec, queueLeft_frame]
    rfl

/-- A refused picture leaves its context, which discards and has counted it; the engine is as it was. -/
theorem headerRefused_leaves (h : SeqHdr) (p : DecPic) (now e : Nat) {t : State} (ht : t = headerRefused c h p now s) :
    t.eng e = s.eng e ∧ t.dec c = { s.dec c with cur := none, discard := true }
      ∧ t.counter (cntKey (Pg.decCtx c) 2) = (s.counter (cntKey (Pg.decCtx c) 2) + 1) % 2 ^ 64 := by
  unfold headerRefused at ht
  obtain ⟨hvideo, hcount⟩ := DecoderKept.writePicRecord (dec0_le_cntKey_decCtx c 2) c _ _ (cntKey_decCtx_ne c (by decide))
  rw [← ht] at hvideo hcount
  refine ⟨?_, ?_, hcount.trans ?_⟩
  · rw [eng_of_video hvideo, eng_count, eng_count, eng_setDec]
  · rw [dec_of_video hvideo, dec_count, dec_count, dec_setDec_same]
  · rw [State.counter_count_ne _ _ _ _ _ (cntKey_decCtx_ne_dec0 c (by decide)), State.counter_count_same,
      counter_setDec_ne _ _ _ _ (cntKey_decCtx_ne c (by decide))]

end

end Sys2Proof.Machine
end

section
/-! PROOFS. The end of a picture's time on its engine (R304, R308, R309): a slice boundary within or over the budget, a picture
that is abandoned, and one that is decoded. -/

namespace Sys2Proof.Machine

/-! ### Budgets (R309) -/

/-- In `t` the engine is free of picture `p`, which its context holds as damaged, does not output, and has counted. -/
def Abandoned (e c : Nat) (p : DecPic) (s t : State) : Prop :=
  (t.eng e).run = none ∧ (t.dec c).cur = none ∧ (t.dec c).damaged = (s.dec c).damaged ++ [p.id]
    ∧ (t.dec c).out = (s.dec c).out
    ∧ t.counter (cntKey (Pg.decCtx c) 4) = (s.counter (cntKey (Pg.decCtx c) 4) + 1) % 2 ^ 64

theorem abandon_abandons (e c unfilled : Nat) (keep : List Nat) (p : DecPic) (s : State) :
    Abandoned e c p s (abandon e c unfilled keep p s) := by
  have hkey := dec0_le_cntKey_decCtx c 4
  unfold abandon
  extract_lets x k q f y
  obtain ⟨hslot, hslotCount⟩ : DecoderKept (cntKey (Pg.decCtx c) 4) s f.2 := .fillSlot hkey ..
  have hrecord : DecoderKept (cntKey (Pg.decCtx c) 4) ((engFree e ((f.2.setDec c y).count (Pg.decCtx c) 4 1)).count Pg.dec0 4 1)
      (writePicRecord c (picRecord q 0x22 q.flags 0 255)
        ((engFree e ((f.2.setDec c y).count (Pg.decCtx c) 4 1)).count Pg.dec0 4 1)) :=
    .writePicRecord hkey c _ _ (cntKey_decCtx_ne c (by decide))
  generalize writePicRecord c _ _ = t at hrecord ⊢
  obtain ⟨hvideo, hcount⟩ := hrecord
  have hdec : t.dec c = y := by rw [dec_of_video hvideo, dec_count, dec_engFree, dec_count, dec_setDec_same]
  refine ⟨?_, congrArg DecCtx.cur hdec, congrArg DecCtx.damaged hdec, by rw [hdec], hcount.trans ?_⟩
  · rw [eng_of_video hvideo, eng_count, engFree_eng]
  · rw [State.counter_count_ne _ _ _ _ _ (cntKey_decCtx_ne_dec0 c (by decide)), counter_engFree, State.counter_count_same,
      counter_setDec_ne _ _ _ _ (cntKey_decCtx_ne c (by decide)), hslotCount]

/-- A picture is abandoned on its engine, whatever cycles the engine has counted. -/
theorem abandon_abandons_counted {e : Nat} (he : e < 4) (c unfilled : Nat) (keep : List Nat) (p : DecPic) (used n : Nat)
    (s : State) :
    Abandoned e c p s (abandon e c unfilled keep { p with used := used } (s.count (Pg.decEng e) 0 n)) := by
  have h := abandon_abandons e c unfilled keep { p with used := used } (s.count (Pg.decEng e) 0 n)
  unfold Abandoned at *
  rwa [dec_count, State.counter_count_ne _ _ _ _ _ (cntKey_decCtx_ne_decEng c e he (by decide))] at h

section
variable {s : State} {e c : Nat} {p : DecPic} (hrun : (s.eng e).run = some c) (hcur : (s.dec c).cur = some p)
  (hawake : s.decAwake = true)
include hrun hcur hawake

/-- The picture on an engine takes `cycles` more: at its limit it is abandoned, over its budget it gives way to one that waits,
and else it goes on. -/
theorem sliceBoundary_eq (cycles unfilled : Nat) (keep : List Nat) : sliceBoundary e cycles unfilled keep s
    = if p.budget c ≠ 0 ∧ 32 * p.budget c ≤ p.used + cycles then
        abandon e c unfilled keep { p with used := 32 * p.budget c } (s.count (Pg.decEng e) 0 cycles)
      else if p.budget c ≠ 0 ∧ p.budget c < p.used + cycles ∧ (s.eng e).ready ≠ [] then
        (((s.count (Pg.decEng e) 0 cycles).setEng e { s.eng e with run := none, ready := (s.eng e).ready ++ [c] }).setDec c
          { s.dec c with cur := some { p with used := p.used + cycles, flags := p.flags ||| 16 } }).count (Pg.decEng e) 2 1
      else (s.count (Pg.decEng e) 0 cycles).setDec c { s.dec c with cur := some { p with used := p.used + cycles } } := by
  unfold sliceBoundary
  dsimp only
  rw [hrun]
  dsimp only
  rw [hcur]
  exact if_neg (by simp [hawake])

theorem decodeAbandon_eq (unfilled : Nat) (keep : List Nat) (hb : 0 < p.budget c) : decodeAbandon e unfilled keep s
    = abandon e c unfilled keep { p with used := 32 * p.budget c } (s.count (Pg.decEng e) 0 (32 * p.budget c - p.used)) := by
  unfold decodeAbandon
  rw [hrun]
  dsimp only
  rw [hcur]
  exact if_neg (by simp [hawake, Nat.ne_of_gt hb])

end

/-! ### The end of decoding (R304, R306, R307) -/

theorem bumpOut_frame (c : Nat) (bump : List Nat) (s : State) : ∃ (n : Nat) (x : DecCtx),
    bumpOut c bump s = (s.modVid (fun z => { z with stamps := z.stamps + n })).setDec c x ∧ x.cur = (s.dec c).cur :=
  ⟨_, _, rfl, rfl⟩

/-- The counters of a decoded picture (R319): it and its cycles on the engine, and where it was cut off or a reference was damaged. -/
def pictureCounted (e c cycles : Nat) (trunc damaged : Bool) (s : State) : State :=
  let s1 := (s.count Pg.dec0 0 1).count (Pg.decEng e) 1 1
  let s2 := (countFree (cntKey (Pg.decEng e) 4) s1).count (Pg.decEng e) 0 cycles
  let s3 := if trunc then (s2.count (Pg.decCtx c) 3 1).count Pg.dec0 3 1 else s2
  if damaged then s3.count (Pg.decCtx c) 5 1 else s3

/-- After the two counts of the picture, those that follow leave every counter alone but their own. -/
theorem pictureCounted_kept (e c cycles : Nat) (trunc damaged : Bool) (s : State) {key : Nat}
    (heng : key ≠ cntKey (Pg.decEng e) 4 ∧ key ≠ cntKey (Pg.decEng e) 0)
    (hctx : key ≠ cntKey (Pg.decCtx c) 3 ∧ key ≠ cntKey (Pg.decCtx c) 5) (hdec : key ≠ cntKey Pg.dec0 3) :
    DecoderKept key ((s.count Pg.dec0 0 1).count (Pg.decEng e) 1 1) (pictureCounted e c cycles trunc damaged s) := by
  unfold pictureCounted
  extract_lets s1 s2 s3
  have hcycles : DecoderKept key s1 s2 := (DecoderKept.countFree s1 _ heng.1).trans (.count _ _ _ _ heng.2)
  have htrunc : DecoderKept key s2 s3 := by
    unfold s3
    split
    · exact (DecoderKept.count s2 _ _ _ hctx.1).trans (.count _ _ _ _ hdec)
    · exact .refl s2
  refine (hcycles.trans htrunc).trans ?_
  split
  · exact .count s3 _ _ _ hctx.2
  · exact .refl s3

theorem pictureCounted_video (e c cycles : Nat) (trunc damaged : Bool) (s : State) :
    (pictureCounted e c cycles trunc damaged s).video = s.video :=
  (pictureCounted_kept (key := 0) e c cycles trunc damaged s (by unfold cntKey; omega) (by unfold cntKey; omega)
    (by decide)).1

section
variable (s : State) (e k n : Nat)

theorem eng_stamps : (s.modVid (fun z => { z with stamps := z.stamps + n })).eng e = s.eng e := rfl
theorem counter_stamps : (s.modVid (fun z => { z with stamps := z.stamps + n })).counter k = s.counter k := rfl

end

section
variable {s : State} {e c : Nat}

/-- The counter of decoded pictures. -/
theorem pictureCounted_dec0 (cycles : Nat) (trunc damaged : Bool) :
    (pictureCounted e c cycles trunc damaged s).counter (cntKey Pg.dec0 0) = (s.counter (cntKey Pg.dec0 0) + 1) % 2 ^ 64 := by
  have hne (j : Nat) : cntKey Pg.dec0 0 ≠ cntKey (Pg.decEng e) j := (cntKey_decEng_ne_dec0 e (by decide)).symm
  have hctx (j : Nat) : cntKey Pg.dec0 0 ≠ cntKey (Pg.decCtx c) j := (cntKey_decCtx_ne_dec0 c (by decide)).symm
  rw [(pictureCounted_kept e c cycles trunc damaged s ⟨hne 4, hne 0⟩ ⟨hctx 3, hctx 5⟩ (by decide)).2,
    State.counter_count_ne _ _ _ _ _ (hne 1), State.counter_count_same]

/-- The counter of the pictures of an engine. -/
theorem pictureCounted_decEng (he : e < 4) (cycles : Nat) (trunc damaged : Bool) :
    (pictureCounted e c cycles trunc damaged s).counter (cntKey (Pg.decEng e) 1)
      = (s.counter (cntKey (Pg.decEng e) 1) + 1) % 2 ^ 64 := by
  have hne (j : Nat) (h : 1 ≠ j) : cntKey (Pg.decEng e) 1 ≠ cntKey (Pg.decEng e) j := by unfold cntKey; omega
  have hctx (j : Nat) : cntKey (Pg.decEng e) 1 ≠ cntKey (Pg.decCtx c) j := (cntKey_decCtx_ne_decEng c e he (by decide)).symm
  have hdec (j : Nat) (h : j < 8) : cntKey (Pg.decEng e) 1 ≠ cntKey Pg.dec0 j := cntKey_decEng_ne_dec0 e h
  rw [(pictureCounted_kept e c cycles trunc damaged s ⟨hne 4 (by decide), hne 0 (by decide)⟩ ⟨hctx 3, hctx 5⟩
    (hdec 3 (by decide))).2, State.counter_count_same, State.counter_count_ne _ _ _ _ _ (hdec 0 (by decide))]

/-- A picture that is decoded, its data and references read and its samples in their slot, leaves its context and its engine and
is counted; the pictures whose turn has come are then output. -/
theorem decodeDone_eq {p : DecPic} (hrun : (s.eng e).run = some c) (hcur : (s.dec c).cur = some p) (hawake : s.decAwake = true)
    (info : PicInfo) : ∃ (u : State) (trunc damaged : Bool) (y : DecCtx),
      (∀ key, Pg.dec0 ≤ key → DecoderKept key s u) ∧ y.cur = none
      ∧ decodeDone e info s
        = bumpOut c info.bump (engFree e ((pictureCounted e c info.cycles trunc damaged u).setDec c y)) := by
  unfold decodeDone
  extract_lets g
  rw [show g.run = some c from hrun]
  dsimp -zeta only
  extract_lets x pool k damaged
  rw [show x.cur = some p from hcur]
  dsimp -zeta only
  rw [if_neg (by simp [hawake])]
  extract_lets r t f denied trunc q s1 s2 s3 s4 y
  refine ⟨f.2.drew 1, trunc, damaged, y, fun key hkey => ?_, rfl, rfl⟩
  have hdata : DecoderKept key s r.2.2.2 := .daRead hkey ..
  have hrefs : DecoderKept key r.2.2.2 t.2.2 :=
    foldl_rel (fun a b : Bool × Bool × State => DecoderKept key a.2.2 b.2.2) (fun a => .refl a.2.2) (fun _ _ _ h k => h.trans k) _
      (fun _ _ => .daRead hkey ..) pool _
  exact ((hdata.trans hrefs).trans (.fillSlot hkey ..)).trans (.drew ..)

/-- What a decoded picture leaves behind. -/
theorem decodeDone_leaves {p : DecPic} (he : e < 4) (hrun : (s.eng e).run = some c) (hcur : (s.dec c).cur = some p)
    (hawake : s.decAwake = true) (info : PicInfo) : let t := decodeDone e info s
    (t.eng e).run = none ∧ (t.eng e).ready = (s.eng e).ready ∧ (t.dec c).cur = none
      ∧ t.counter (cntKey Pg.dec0 0) = (s.counter (cntKey Pg.dec0 0) + 1) % 2 ^ 64
      ∧ t.counter (cntKey (Pg.decEng e) 1) = (s.counter (cntKey (Pg.decEng e) 1) + 1) % 2 ^ 64 := by
  intro t
  obtain ⟨u, trunc, damaged, y, hread, hy, hdone⟩ := decodeDone_eq hrun hcur hawake info
  obtain ⟨n, x, hbump, hx⟩ := bumpOut_frame c info.bump (engFree e ((pictureCounted e c info.cycles trunc damaged u).setDec c y))
  have ht : t = _ := hdone.trans hbump
  have hvideo : (pictureCounted e c info.cycles trunc damaged u).video = s.video :=
    (pictureCounted_video ..).trans (hread Pg.dec0 (Nat.le_refl _)).1
  have heng : t.eng e = { s.eng e with run := none } := by
    rw [ht, eng_setDec, eng_stamps, engFree_eng, eng_setDec, eng_of_video hvideo]
  have hcount (k : Nat) (h : k ≠ cntKey (Pg.decCtx c) 6) :
      t.counter k = (pictureCounted e c info.cycles trunc damaged u).counter k := by
    rw [ht, counter_setDec_ne _ _ _ _ h, counter_stamps, counter_engFree, counter_setDec_ne _ _ _ _ h]
  refine ⟨by rw [heng], by rw [heng], ?_, ?_, ?_⟩
  · rw [ht, dec_setDec_same, hx, dec_engFree, dec_setDec_same, hy]
  · rw [hcount _ (cntKey_decCtx_ne_dec0 c (by decide)).symm, pictureCounted_dec0,
      (hread _ (by unfold cntKey; omega)).2]
  · rw [hcount _ (cntKey_decCtx_ne_decEng c e he (by decide)).symm, pictureCounted_decEng he,
      (hread _ (dec0_le_cntKey_decEng e 1)).2]

end

/-! ### The statement -/

/-- Settles O33: the accesses to DA and the records of a context's work leave contexts and engines alone, so what a fetch, a start,
a slice boundary and an end make of the context and its engine is what their own updates say. -/
theorem enginesDecodeAccessUnits : Obligations.EnginesDecodeAccessUnits := by
  unfold Obligations.EnginesDecodeAccessUnits
  refine fun s => ⟨fun iid c val h => ?_, fun c => ?_, fun e c rest p hfree hready hcur hon hnew => ⟨fun hdisc hcont => ?_,
    fun h hbad => ?_⟩, fun e c p hrun hcur hawake => ?_⟩
  · exact ⟨_, rfl, auPtrWritten c val s (wordWrite_auPtr iid c val s h)⟩
  · have hne : R.DEC_AU_PTR c ≠ R.DEC_CTX_STATUS c := by unfold R.DEC_AU_PTR R.DEC_CTX_STATUS; omega
    intro rd r hen hgo hcur hwr hon hok hclean hlook
    refine ⟨_, entryPic (s.dec c).nextId s.dtime r.1, congrArg Host.Outcome.next (auFetch_eq hen hgo hcur hwr hon hok hclean hlook),
      ?_, rfl, rfl, rfl, rfl, rfl, rfl, ?_, ?_, ?_⟩
    · rw [joinReady_dec, dec_setDec_same]
      rfl
    · rw [joinReady_ready, eng_setDec, auEntryTaken_eng]
    · rw [joinReady_fld_ne _ hne, State.fld, reg_setDec_ne _ _ _ _ hne]
      exact auEntryTaken_rd
    · rw [joinReady_counter, counter_setDec_ne _ _ _ _ (cntKey_decCtx_ne c (by decide)), auEntryTaken_counts]
  · obtain ⟨heng, hdec, hda⟩ := pictureStarted e rest (pictureLatched c (s.dec c) p s)
      ((decodeStart_head hfree hready hcur hon hnew ⟨none, false, []⟩).2 rfl rfl hdisc hcont)
    exact ⟨_, _, rfl, heng, congrArg DecCtx.cur hdec, rfl, hnew, rfl, rfl, by rw [hdec]; rfl, hda⟩
  · obtain ⟨heng, hdec, hcount⟩ := headerRefused_leaves h p s.dtime e
      ((decodeStart_head hfree hready hcur hon hnew ⟨some h, true, []⟩).1 h rfl hbad)
    refine ⟨_, rfl, heng.trans (queueLeft_eng ..), congrArg DecCtx.cur hdec, congrArg DecCtx.discard hdec, ?_, ?_⟩
    · rw [hdec, queueLeft_dec]
    · rw [hcount, queueLeft_counter_ne _ _ _ (cntKey_decCtx_ne_decEng c e e.isLt (by decide))]
  · intro b abandoned
    have hslice := sliceBoundary_eq hrun hcur hawake
    refine ⟨fun cycles unfilled keep => ⟨fun hwithin => ?_, fun hover hlimit hwaits => ?_, fun hb hlimit => ?_, fun hb => ?_⟩,
      fun info => ⟨_, rfl, decodeDone_leaves e.isLt hrun hcur hawake info⟩⟩
    · have hkeeps : ¬ (b ≠ 0 ∧ b < p.used + cycles ∧ (s.eng e).ready ≠ []) := by
        rintro ⟨hb, hover, hwaits⟩
        rcases hwithin with hnone | hle | ⟨halone, -⟩
        · exact hb hnone
        · exact Nat.not_lt.mpr hle hover
        · exact hwaits halone
      have hstays : sliceBoundary e cycles unfilled keep s = _ :=
        (hslice cycles unfilled keep).trans ((if_neg (by omega)).trans (if_neg hkeeps))
      exact ⟨_, congrArg Host.Outcome.next hstays, by rw [dec_setDec_same], by rw [eng_setDec, eng_count]⟩
    · have hyields : sliceBoundary e cycles unfilled keep s = _ :=
        (hslice cycles unfilled keep).trans ((if_neg (by omega)).trans (if_pos ⟨by omega, hover, hwaits⟩))
      exact ⟨_, congrArg Host.Outcome.next hyields, by rw [dec_count, dec_setDec_same],
        by rw [eng_count, eng_setDec, eng_setEng_same], by rw [eng_count, eng_setDec, eng_setEng_same]⟩
    · have hends : sliceBoundary e cycles unfilled keep s = _ :=
        (hslice cycles unfilled keep).trans (if_pos ⟨Nat.ne_of_gt hb, hlimit⟩)
      exact ⟨_, congrArg Host.Outcome.next hends, abandon_abandons_counted e.isLt ..⟩
    · exact ⟨_, congrArg Host.Outcome.next (decodeAbandon_eq hrun hcur hawake unfilled keep hb),
        abandon_abandons_counted e.isLt ..⟩

end Sys2Proof.Machine
end

section
/-! PROOFS. What the invariants of every step speak of. -/

namespace Sys2Proof.Machine

/-- The parts of the state that the invariants of a step speak of: the queue and DTIME, the root of trust in the flash, the
memories, and what contexts, jobs and the update name. -/
structure Anchors where
  queue : List Instr
  time : Nat
  ident : Option Nat
  arFw : Nat
  arCfg : Nat
  arBrd : Nat
  revoked : Nat
  spad : List Host.Cell
  da : List Host.Cell
  ring : List Host.Cell
  spm : List Host.Cell
  cores : Nat → List Nat
  place : Nat → List Place
  held : List (List Nat)
  loader : Option Nat
  holding : Option Nat
  retry : Option Nat

/-- The anchors of a state. -/
def State.anchors (s : State) : Anchors where
  queue := s.pending
  time := s.dtime
  ident := s.flash.ident
  arFw := s.flash.arFw
  arCfg := s.flash.arCfg
  arBrd := s.flash.arBrd
  revoked := s.flash.revoked
  spad := s.spad
  da := s.da
  ring := s.brz.ring
  spm := s.brz.spm
  cores x := (s.ctx x).cores
  place x := (s.ctx x).place
  held := s.ctl.jobs.map Job.held
  loader := s.ctl.upd.loader
  holding := s.ctl.upd.holding
  retry := s.ctl.upd.retry

/-- What is named lies on the chip, as `State.PlacesNamed` has it. -/
def Anchors.Placed (a : Anchors) : Prop :=
  (∀ x n, n ∈ a.cores x → n < 32)
    ∧ (∀ x p, p ∈ a.place x → p.range < 16 ∧ p.regBase + p.regCount ≤ 64)
    ∧ (∀ l ∈ a.held, ∀ n ∈ l, n < 32)
    ∧ ∀ k, a.loader = some k ∨ a.holding = some k ∨ a.retry = some k → k < 4

/-- What a step keeps, but for the clock. -/
structure Anchors.Holds (a b : Anchors) : Prop where
  queue : b.queue = a.queue
  ident : ∀ i, a.ident = some i → b.ident = some i
  arFw : a.arFw ≤ b.arFw
  arCfg : a.arCfg ≤ b.arCfg
  arBrd : a.arBrd ≤ b.arBrd
  revoked : a.revoked ||| b.revoked = b.revoked
  spad : Memory.wf a.spad = true → Memory.wf b.spad = true
  da : Memory.wf a.da = true → Memory.wf b.da = true
  ring : Memory.wf a.ring = true → Memory.wf b.ring = true
  spm : Memory.wf a.spm = true → Memory.wf b.spm = true
  placed : a.Placed → b.Placed

/-- What a step keeps where nothing resets the clock. -/
structure Anchors.Kept (a b : Anchors) : Prop extends Anchors.Holds a b where
  time : a.time ≤ b.time

theorem Anchors.Holds.refl (a : Anchors) : a.Holds a :=
  ⟨rfl, fun _ h => h, le_rfl, le_rfl, le_rfl, Nat.or_self _, id, id, id, id, id⟩

@[simp] theorem Anchors.Kept.refl (a : Anchors) : a.Kept a := ⟨.refl a, le_rfl⟩

theorem Anchors.Holds.trans {a b c : Anchors} (h : a.Holds b) (k : b.Holds c) : a.Holds c := by
  refine ⟨k.queue.trans h.queue, fun i e => k.ident i (h.ident i e), h.arFw.trans k.arFw, h.arCfg.trans k.arCfg,
    h.arBrd.trans k.arBrd, ?_, k.spad ∘ h.spad, k.da ∘ h.da, k.ring ∘ h.ring, k.spm ∘ h.spm, k.placed ∘ h.placed⟩
  rw [← k.revoked, ← Nat.or_assoc, h.revoked]

theorem Anchors.Kept.trans {a b c : Anchors} (h : a.Kept b) (k : b.Kept c) : a.Kept c :=
  ⟨h.toHolds.trans k.toHolds, h.time.trans k.time⟩

theorem Anchors.Kept.of_eq {a b : Anchors} (h : b = a) : a.Kept b := h ▸ .refl a

variable {g : Anchors} {s t : State}

/-- A fold keeps what each of its steps keeps. -/
@[simp] theorem foldl_kept {β : Type} (f : State → β → State) (hf : ∀ (t : State) x, t.anchors.Kept (f t x).anchors) (l : List β)
    (s : State) (h : g.Kept s.anchors) : g.Kept (l.foldl f s).anchors := by
  induction l generalizing s with
  | nil => exact h
  | cons x l ih => exact ih _ (h.trans (hf s x))

@[simp] theorem iter_kept (f : Nat → State → State) (hf : ∀ k (t : State), t.anchors.Kept (f k t).anchors) (n : Nat) (s : State)
    (h : g.Kept s.anchors) : g.Kept (iter n f s).anchors := by
  induction n generalizing s with
  | zero => exact h
  | succ n ih => exact (ih s h).trans (hf _ _)

@[simp] theorem ite_kept (c : Prop) [Decidable c] (a b : Anchors) (ha : g.Kept a) (hb : g.Kept b) :
    g.Kept (if c then a else b) := by split <;> assumption

@[simp] theorem foldl_anchors {β : Type} (f : State → β → State) (l : List β) (s : State)
    (hf : ∀ t x, (f t x).anchors = t.anchors) : (l.foldl f s).anchors = s.anchors := foldl_keeps State.anchors f hf l s

@[simp] theorem iter_anchors (f : Nat → State → State) (n : Nat) (s : State) (hf : ∀ k t, (f k t).anchors = t.anchors) :
    (iter n f s).anchors = s.anchors := iter_keeps State.anchors f hf n s

@[simp] theorem ite_anchors (c : Prop) [Decidable c] (s t : State) :
    (if c then s else t).anchors = if c then s.anchors else t.anchors := apply_ite ..

/-! ### Updates of the state -/

section
variable (s) (regs : List (Nat × Word)) (txns : List (Nat × PageTxn)) (groups : List (Nat × Group)) (cnt shadow : List (Nat × Nat))
  (snap : Snap) (errIrqs : List (Nat × Nat)) (rdata : Word) (free : Nat) (cores : List (Nat × Core)) (imem : List (Nat × BitVec 64))
  (rowPoison : List (Nat × Nat)) (streams : List (Nat × Word)) (swapReqs : List StreamReq) (mt : Mt) (doms : List (Nat × Dom))
  (hif : Hif) (sec : Sec) (rel : Rel) (isp : Isp) (video : Video) (plm : Ploem) (fabInj : List (Nat × Nat)) (recs : Recs)
  (pins : Pins) (clk : Clk)

/-- An update of other fields leaves the anchors alone. -/
@[simp] theorem State.anchors_update :
    ({ s with
        regs := regs, txns := txns, groups := groups, cnt := cnt, shadow := shadow, snap := snap, errIrqs := errIrqs,
        rdata := rdata, free := free, cores := cores, imem := imem, rowPoison := rowPoison, streams := streams,
        swapReqs := swapReqs, mt := mt, doms := doms, hif := hif, sec := sec, rel := rel, isp := isp, video := video,
        plm := plm, fabInj := fabInj, recs := recs, pins := pins, clk := clk } : State).anchors = s.anchors := by
  cases s; rfl

end

theorem Anchors.Kept.setSpad (h : g.Kept s.anchors) (m : List Host.Cell) (tags : List (Nat × Nat))
    (hm : Memory.wf s.spad = true → Memory.wf m = true) :
    g.Kept ({ s with spad := m, rowPoison := tags } : State).anchors :=
  h.trans ⟨⟨rfl, fun _ h => h, le_rfl, le_rfl, le_rfl, Nat.or_self _, hm, id, id, id, id⟩, le_rfl⟩

theorem Anchors.Kept.setDa (h : g.Kept s.anchors) (m : List Host.Cell) (hm : Memory.wf s.da = true → Memory.wf m = true) :
    g.Kept ({ s with da := m } : State).anchors :=
  h.trans ⟨⟨rfl, fun _ h => h, le_rfl, le_rfl, le_rfl, Nat.or_self _, id, hm, id, id, id⟩, le_rfl⟩

theorem Anchors.Kept.modBrz (h : g.Kept s.anchors) (f : Brz → Brz)
    (hr : Memory.wf s.brz.ring = true → Memory.wf (f s.brz).ring = true)
    (hm : Memory.wf s.brz.spm = true → Memory.wf (f s.brz).spm = true) : g.Kept (s.modBrz f).anchors :=
  h.trans ⟨⟨rfl, fun _ h => h, le_rfl, le_rfl, le_rfl, Nat.or_self _, id, id, hr, hm, id⟩, le_rfl⟩

@[simp] theorem State.modCtl_anchors (f : Ctl → Ctl) (hj : (f s.ctl).jobs.map Job.held = s.ctl.jobs.map Job.held)
    (hu : (f s.ctl).upd = s.ctl.upd) : (s.modCtl f).anchors = s.anchors := by
  simp [State.modCtl, State.anchors, State.ctx, hj, hu]

@[simp] theorem State.modFlash_anchors (f : Flash → Flash) (hi : (f s.flash).ident = s.flash.ident)
    (h1 : (f s.flash).arFw = s.flash.arFw) (h2 : (f s.flash).arCfg = s.flash.arCfg) (h3 : (f s.flash).arBrd = s.flash.arBrd)
    (h4 : (f s.flash).revoked = s.flash.revoked) : (s.modFlash f).anchors = s.anchors := by
  simp [State.modFlash, State.anchors, State.ctx, hi, h1, h2, h3, h4]

@[simp] theorem State.modFlash_flash (f : Flash → Flash) : (s.modFlash f).flash = f s.flash := by
  cases s; rfl

@[simp] theorem State.modBrz_anchors (f : Brz → Brz) (hr : (f s.brz).ring = s.brz.ring) (hm : (f s.brz).spm = s.brz.spm) :
    (s.modBrz f).anchors = s.anchors := by
  simp [State.modBrz, State.anchors, State.ctx, hr, hm]

theorem State.ctx_setCtx (s : State) (x y : Nat) (c : CtxRec) : (s.setCtx x c).ctx y = if y = x then c else s.ctx y := by
  simp only [State.ctx, State.setCtx, Tab.get, Tab.find_set]
  split <;> rfl

@[simp] theorem State.setCtx_anchors (x : Nat) (c : CtxRec) (hc : c.cores = (s.ctx x).cores) (hp : c.place = (s.ctx x).place) :
    (s.setCtx x c).anchors = s.anchors := by
  have h1 : ∀ y, ((s.setCtx x c).ctx y).cores = (s.ctx y).cores := fun y => by
    rw [State.ctx_setCtx]; split
    · subst y; exact hc
    · rfl
  have h2 : ∀ y, ((s.setCtx x c).ctx y).place = (s.ctx y).place := fun y => by
    rw [State.ctx_setCtx]; split
    · subst y; exact hp
    · rfl
  simp only [State.anchors, h1, h2]
  rfl

@[simp] theorem State.modCtx_anchors (x : Nat) (f : CtxRec → CtxRec) (hc : (f (s.ctx x)).cores = (s.ctx x).cores)
    (hp : (f (s.ctx x)).place = (s.ctx x).place) : (s.modCtx x f).anchors = s.anchors :=
  State.setCtx_anchors x _ hc hp

/-! ### What contexts, jobs and an update name -/

/-- A list of cores that lies on the chip wherever the anchors do. -/
def Anchors.Bounds (g : Anchors) (l : List Nat) : Prop := g.Placed → ∀ n ∈ l, n < 32

@[simp] theorem Anchors.Bounds.nil (g : Anchors) : g.Bounds [] := fun _ _ h => absurd h List.not_mem_nil

theorem Anchors.Bounds.filter {g : Anchors} {l : List Nat} (h : g.Bounds l) (p : Nat → Bool) : g.Bounds (l.filter p) :=
  fun k n hn => h k n (List.mem_of_mem_filter hn)

@[simp] theorem Anchors.Kept.jobCores {g : Anchors} {s : State} (h : g.Kept s.anchors) (j : Job) : g.Bounds
    (s.jobCores j) := by
  intro k n hn
  obtain ⟨hc, -⟩ := h.placed k
  obtain ⟨c, -, rfl⟩ := List.mem_map.1 hn
  rw [List.getD_eq_getElem?_getD]
  cases hi : (s.ctx j.ctx).cores[c]? with
  | none => simp
  | some m => exact hc j.ctx m (List.mem_of_getElem? hi)

theorem Anchors.Kept.job_held {g : Anchors} {s : State} (h : g.Kept s.anchors) {j : Job} (hj : j ∈ s.ctl.jobs) :
    g.Bounds j.held := by
  intro k
  obtain ⟨-, -, hh, -⟩ := h.placed k
  exact hh _ (List.mem_map_of_mem hj)

theorem Anchors.Kept.setJobs {g : Anchors} {s : State} (h : g.Kept s.anchors) (f : Ctl → Ctl)
    (hj : ∀ j ∈ (f s.ctl).jobs, g.Bounds j.held) (hu : (f s.ctl).upd = s.ctl.upd) : g.Kept (s.modCtl f).anchors := by
  refine ⟨⟨h.queue, h.ident, h.arFw, h.arCfg, h.arBrd, h.revoked, h.spad, h.da, h.ring, h.spm, fun k => ?_⟩, h.time⟩
  obtain ⟨hc, hp, -, hk⟩ := h.placed k
  refine ⟨hc, hp, fun l hl => ?_, ?_⟩
  · obtain ⟨j, hm, rfl⟩ := List.mem_map.1 hl
    exact hj j hm k
  · show ∀ k, (f s.ctl).upd.loader = some k ∨ (f s.ctl).upd.holding = some k ∨ (f s.ctl).upd.retry = some k → k < 4
    rw [hu]
    exact hk

theorem Anchors.Kept.mapJobs {g : Anchors} {s : State} (h : g.Kept s.anchors) (f : Job → Job)
    (hf : ∀ j, g.Bounds j.held → g.Bounds (f j).held) :
    g.Kept (s.modCtl (fun c => { c with jobs := c.jobs.map f })).anchors := by
  refine h.setJobs _ (fun j hj => ?_) rfl
  obtain ⟨b, hb, rfl⟩ := List.mem_map.1 hj
  exact hf b (h.job_held hb)

/-- A fold over the jobs keeps what its step keeps of a job that holds cores on the chip. -/
theorem foldl_jobs_kept {g : Anchors} (f : State → Job → State) (l : List Job)
    (hf : ∀ (t : State) (j : Job), g.Kept t.anchors → g.Bounds j.held → g.Kept (f t j).anchors) (s : State)
    (h : g.Kept s.anchors) (hl : ∀ j ∈ l, g.Bounds j.held) : g.Kept (l.foldl f s).anchors := by
  induction l generalizing s with
  | nil => exact h
  | cons j l ih =>
    exact ih _ (hf s j h (hl j List.mem_cons_self)) fun k hk => hl k (List.mem_cons_of_mem _ hk)

theorem State.job_mem {s : State} {id : Nat} {j : Job} (h : s.job id = some j) : j ∈ s.ctl.jobs :=
    List.mem_of_find?_eq_some h

/-- A list of places whose SPD_RANGE entries and regions lie on the chip wherever the anchors do. -/
def Anchors.Fits (g : Anchors) (l : List Place) : Prop :=
  g.Placed → ∀ p ∈ l, p.range < 16 ∧ p.regBase + p.regCount ≤ 64

theorem Anchors.Kept.ctx_cores {g : Anchors} {s : State} (h : g.Kept s.anchors) (x : Nat) : g.Bounds (s.ctx x).cores := by
  intro k
  obtain ⟨hc, -⟩ := h.placed k
  exact hc x

theorem Anchors.Kept.ctx_place {g : Anchors} {s : State} (h : g.Kept s.anchors) (x : Nat) : g.Fits (s.ctx x).place := by
  intro k
  obtain ⟨-, hp, -⟩ := h.placed k
  exact hp x

theorem Anchors.Kept.setCtxs {g : Anchors} {s : State} (h : g.Kept s.anchors) (l : List (Nat × CtxRec))
    (hc : ∀ x, g.Bounds (Tab.get l {} x).cores) (hp : ∀ x, g.Fits (Tab.get l {} x).place) :
    g.Kept ({ s with ctxs := l } : State).anchors := by
  refine ⟨⟨h.queue, h.ident, h.arFw, h.arCfg, h.arBrd, h.revoked, h.spad, h.da, h.ring, h.spm, fun k => ?_⟩, h.time⟩
  obtain ⟨-, -, hj, hk⟩ := h.placed k
  exact ⟨fun x => hc x k, fun x => hp x k, hj, hk⟩

theorem State.setCtx_kept {g : Anchors} (s : State) (x : Nat) (c : CtxRec) (h : g.Kept s.anchors) (hc : g.Bounds c.cores)
    (hp : g.Fits c.place) : g.Kept (s.setCtx x c).anchors := by
  refine h.setCtxs _ (fun y => ?_) (fun y => ?_) <;> rw [Tab.get, Tab.find_set] <;> split
  · exact hc
  · exact h.ctx_cores y
  · exact hp
  · exact h.ctx_place y

theorem mem_modNth {α : Type} {l : List α} {i : Nat} {f : α → α} {y : α} (h : y ∈ modNth l i f) :
    y ∈ l ∨ ∃ x ∈ l, y = f x := by
  induction l generalizing i with
  | nil => exact .inl h
  | cons x l ih =>
    cases i with
    | zero =>
      rcases List.mem_cons.1 h with e | e
      · exact .inr ⟨x, List.mem_cons_self, e⟩
      · exact .inl (List.mem_cons_of_mem _ e)
    | succ i =>
      rcases List.mem_cons.1 h with e | e
      · exact .inl (e ▸ List.mem_cons_self)
      · rcases ih e with e | ⟨z, hz, e⟩
        · exact .inl (List.mem_cons_of_mem _ e)
        · exact .inr ⟨z, List.mem_cons_of_mem _ hz, e⟩

/-- The control cores that an update names are on the chip. -/
def Upd.Within (u : Upd) : Prop := ∀ k, u.loader = some k ∨ u.holding = some k ∨ u.retry = some k → k < 4

theorem Upd.within_none : Upd.Within {} := fun _ h => by rcases h with h | h | h <;> cases h

theorem Anchors.Kept.upd {g : Anchors} {s : State} (h : g.Kept s.anchors) (k : g.Placed) : s.ctl.upd.Within := by
  obtain ⟨-, -, -, hu⟩ := h.placed k
  exact hu

end Sys2Proof.Machine
end

section
/-! PROOFS. What the functions of Machine/Ops.lean keep: operations. -/

namespace Sys2Proof.Machine

@[simp] theorem State.setReg_anchors (s : State) (a : Nat) (w : Word) : (State.setReg s a w).anchors = s.anchors := by
    simp [State.setReg]

@[simp] theorem State.setFld_anchors (s : State) (a : Nat) (f : Fld) (v : Nat) : (State.setFld s a f v).anchors =
    s.anchors := by simp [State.setFld]

@[simp] theorem State.setTxn_anchors (s : State) (pg : Nat) (t : PageTxn) : (State.setTxn s pg t).anchors = s.anchors := by
    simp [State.setTxn]

@[simp] theorem State.setGroup_anchors (s : State) (g : Nat) (x : Group) : (State.setGroup s g x).anchors = s.anchors := by
    simp [State.setGroup]

@[simp] theorem State.setCore_anchors (s : State) (n : Nat) (c : Core) : (State.setCore s n c).anchors = s.anchors := by
    simp [State.setCore]

@[simp] theorem State.modCore_anchors (s : State) (n : Nat) (f : Core → Core) : (State.modCore s n f).anchors =
    s.anchors := by simp [State.modCore]

@[simp] theorem State.setDom_anchors (s : State) (d : Nat) (x : Dom) : (State.setDom s d x).anchors = s.anchors := by
    simp [State.setDom]

@[simp] theorem State.draw_anchors (s : State) : (State.draw s).2.anchors = s.anchors := by simp [State.draw]

@[simp] theorem State.drew_anchors (s : State) (k : Nat) : (State.drew s k).anchors = s.anchors := by simp [State.drew]

@[simp] theorem State.answers_anchors (s : State) (w : Word) : (State.answers s w).anchors = s.anchors := by simp
    [State.answers]

@[simp] theorem State.at_kept {g : Anchors} (s : State) (t : Nat) (h : g.Kept s.anchors) : g.Kept (s.at t).anchors :=
  h.trans ⟨⟨rfl, fun _ h => h, le_rfl, le_rfl, le_rfl, Nat.or_self _, id, id, id, id, id⟩, le_max_left ..⟩

@[simp] theorem State.addCnt_anchors (s : State) (key k : Nat) : (State.addCnt s key k).anchors = s.anchors := by simp
    [State.addCnt]

@[simp] theorem State.count_anchors (s : State) (base i k : Nat) : (State.count s base i k).anchors = s.anchors := by
    simp [State.count]

@[simp] theorem State.satFld_anchors (s : State) (a : Nat) (f : Fld) (k : Nat) : (State.satFld s a f k).anchors =
    s.anchors := by simp [State.satFld]

@[simp] theorem State.setFn_anchors (s : State) (f : Nat) (x : Fn) : (State.setFn s f x).anchors = s.anchors := by
    simp [State.setFn]

@[simp] theorem State.modFn_anchors (s : State) (f : Nat) (g : Fn → Fn) : (State.modFn s f g).anchors = s.anchors := by
    simp [State.modFn]

@[simp] theorem msixSend_anchors (f v : Nat) (s : State) : (msixSend f v s).anchors = s.anchors := by simp [msixSend]

@[simp] theorem errIrq_anchors (base : Nat) (s : State) : (errIrq base s).anchors = s.anchors := by simp [errIrq]

@[simp] theorem raiseErr_anchors (base bit iid off : Nat) (s : State) : (raiseErr base bit iid off s).anchors =
    s.anchors := by simp [raiseErr]

@[simp] theorem errEvent_anchors (base bit : Nat) (s : State) : (errEvent base bit s).anchors = s.anchors := by simp
    [errEvent]

@[simp] theorem errIf_anchors (c : Bool) (base bit : Nat) (s : State) : (errIf c base bit s).anchors = s.anchors := by
    simp [errIf]

@[simp] theorem setDomState_anchors (d st ph : Nat) (s : State) : (setDomState d st ph s).anchors = s.anchors := by
    simp [setDomState]

@[simp] theorem startExit_anchors (d : Nat) (s : State) : (startExit d s).anchors = s.anchors := by simp [startExit]

@[simp] theorem wakeDom_anchors (d : Nat) (unplanned : Bool) (s : State) : (wakeDom d unplanned s).anchors = s.anchors := by
  unfold wakeDom
  split <;> simp

@[simp] theorem State.setRowTag_anchors (s : State) (n r src : Nat) : (State.setRowTag s n r src).anchors = s.anchors := by
    simp [State.setRowTag]

@[simp] theorem State.writeRow_kept {g : Anchors} (s : State) (n r : Nat) (bs : List Byte) (src : Nat)
    (h : g.Kept s.anchors) : g.Kept (s.writeRow n r bs src).anchors :=
  h.setSpad _ _ (Memory.wf_writeList _ _ _)

@[simp] theorem State.writeRow_keeps (s : State) (n r : Nat) (bs : List Byte) (src : Nat) :
    s.anchors.Kept (s.writeRow n r bs src).anchors := s.writeRow_kept n r bs src (.refl _)

@[simp] theorem State.setSlot_anchors (s : State) (n i : Nat) (w : BitVec 64) : (State.setSlot s n i w).anchors =
    s.anchors := by simp [State.setSlot]

end Sys2Proof.Machine
end

section
/-! PROOFS. What the functions of Machine/RegBus.lean keep: register pages and transactions. -/

namespace Sys2Proof.Machine

@[simp] theorem unmappedAccess_anchors (iid a : Nat) (s : State) : (unmappedAccess iid a s).anchors = s.anchors := by
    simp [unmappedAccess]

@[simp] theorem deniedAccess_anchors (iid a : Nat) (s : State) : (deniedAccess iid a s).anchors = s.anchors := by simp
    [deniedAccess]

@[simp] theorem withGate_kept {g : Anchors} (iid a : Nat) (write : Bool) (s : State) (f : PageKind → Nat → State → State)
    (hf : ∀ k i, g.Kept (f k i s).anchors) (h : g.Kept s.anchors) : g.Kept (withGate iid a write s f).anchors := by
  unfold withGate
  repeat' split
  all_goals simp [hf, h]

@[simp] theorem rwtWrite_anchors (iid a : Nat) (m v : Word) (s : State) : (rwtWrite iid a m v s).anchors = s.anchors := by
  unfold rwtWrite
  dsimp only
  repeat' split
  all_goals simp

@[simp] theorem fieldWrite_anchors (iid a : Nat) (bm v : Word) (s : State) (f : FldDef) :
    (fieldWrite iid a bm v s f).anchors = s.anchors := by
  unfold fieldWrite
  dsimp only
  repeat' split
  all_goals simp

@[simp] theorem fieldsWrite_anchors (iid a : Nat) (bm v : Word) (l : List FldDef) (s : State) :
    (fieldsWrite iid a bm v l s).anchors = s.anchors := by
  induction l generalizing s with
  | nil => rfl
  | cons f fs ih => exact (ih _).trans (by simp)

@[simp] theorem blockFields_anchors (iid a : Nat) (bm v : Word) (d : RegDef) (on : Bool) (s : State) :
    (blockFields iid a bm v d on s).anchors = s.anchors := by simp [blockFields]

@[simp] theorem txnCtrlFields_anchors (iid base : Nat) (bm v : Word) (s : State) :
    (txnCtrlFields iid base bm v s).anchors = s.anchors := by simp [txnCtrlFields]

@[simp] theorem beginTxn_anchors (iid base : Nat) (s : State) : (beginTxn iid base s).anchors = s.anchors := by
  unfold beginTxn
  dsimp only
  repeat' split
  all_goals simp

@[simp] theorem commitTxn_anchors (iid base : Nat) (s : State) : (commitTxn iid base s).anchors = s.anchors := by
  unfold commitTxn
  dsimp only
  repeat' split
  all_goals simp

@[simp] theorem rollbackTxn_anchors (iid base : Nat) (s : State) : (rollbackTxn iid base s).anchors = s.anchors := by
  unfold rollbackTxn
  dsimp only
  repeat' split
  all_goals simp

@[simp] theorem txnCtrlWrite_anchors (iid base : Nat) (bm v : Word) (s : State) :
    (txnCtrlWrite iid base bm v s).anchors = s.anchors := by
  unfold txnCtrlWrite
  split <;> simp

@[simp] theorem State.mapPend_anchors (s : State) (f : PendCommit → PendCommit) : (State.mapPend s f).anchors =
    s.anchors := by simp [State.mapPend]

@[simp] theorem State.dropPend_anchors (s : State) (p : PendCommit → Bool) (res : Nat) :
    (State.dropPend s p res).anchors = s.anchors := by simp [State.dropPend]

@[simp] theorem fireGroup_anchors (iid g : Nat) (s : State) : (fireGroup iid g s).anchors = s.anchors := by simp [fireGroup]

@[simp] theorem withdrawGroup_anchors (iid g : Nat) (s : State) : (withdrawGroup iid g s).anchors = s.anchors := by
    simp [withdrawGroup]

@[simp] theorem releaseGroup_kept {g : Anchors} (i : Nat) (s : State) (h : g.Kept s.anchors) :
    g.Kept (releaseGroup i s).anchors := by
  unfold releaseGroup
  dsimp only
  split <;> simp [h]

@[simp] theorem settleGroup_anchors (g : Nat) (late : Bool) (s : State) : (settleGroup g late s).anchors = s.anchors := by
    simp [settleGroup]

@[simp] theorem errStatWrite_anchors (base : Nat) (v : Word) (s : State) : (errStatWrite base v s).anchors = s.anchors := by
    simp [errStatWrite]

@[simp] theorem errEnWrite_anchors (base : Nat) (bm v : Word) (s : State) : (errEnWrite base bm v s).anchors =
    s.anchors := by simp [errEnWrite]

@[simp] theorem errInjWrite_anchors (iid : Nat) (r : PageRow) (base : Nat) (v : Word) (s : State) :
    (errInjWrite iid r base v s).anchors = s.anchors := by simp [errInjWrite]

@[simp] theorem headerWrite_anchors (iid base o : Nat) (bm v : Word) (s : State) :
    (headerWrite iid base o bm v s).anchors = s.anchors := by
  unfold headerWrite
  split <;> simp

@[simp] theorem snapRequest_anchors (iid : Nat) (s : State) : (snapRequest iid s).anchors = s.anchors := by
  unfold snapRequest
  dsimp only
  repeat' split
  all_goals simp

@[simp] theorem takeSnapshot_kept {g : Anchors} (s : State) (h : g.Kept s.anchors) : g.Kept (takeSnapshot s).anchors := by
  unfold takeSnapshot
  split
  · exact h
  · exact State.at_kept s _ h

end Sys2Proof.Machine
end

section
/-! PROOFS. What the functions of Machine/Fault.lean keep: faults and errors. -/

namespace Sys2Proof.Machine

@[simp] theorem startFlush_anchors (s : State) : (startFlush s).anchors = s.anchors := by simp [startFlush]

@[simp] theorem logEntry_anchors (e : LogEntry) (s : State) : (logEntry e s).anchors = s.anchors :=
  (congrArg State.anchors (logEntry_frame e s)).trans rfl

@[simp] theorem logPartner_anchors (base bit kind unit : Nat) (s : State) : (logPartner base bit kind unit s).anchors =
    s.anchors := by simp [logPartner]

@[simp] theorem sendIbi_anchors (k : Nat) (s : State) : (sendIbi k s).anchors = s.anchors := by simp [sendIbi]

@[simp] theorem svcEvent_anchors (bit : Nat) (s0 : State) : (svcEvent bit s0).anchors = s0.anchors := by simp [svcEvent]

@[simp] theorem State.setSeqState_anchors (s : State) (n v : Nat) : (State.setSeqState s n v).anchors = s.anchors := by
    simp [State.setSeqState]

@[simp] theorem State.setPc_anchors (s : State) (n v : Nat) : (State.setPc s n v).anchors = s.anchors := by simp
    [State.setPc]

@[simp] theorem State.arrState_anchors (s : State) (n v : Nat) : (State.arrState s n v).anchors = s.anchors := by simp
    [State.arrState]

@[simp] theorem State.setChan_anchors (s : State) (n k : Nat) (h : Chan) : (State.setChan s n k h).anchors = s.anchors := by
    simp [State.setChan]

@[simp] theorem chanStatus_anchors (n k cause : Nat) (s : State) : (chanStatus n k cause s).anchors = s.anchors := by
    simp [chanStatus]

@[simp] theorem stopChan_anchors (x n k : Nat) (s : State) : (stopChan x n k s).anchors = s.anchors := by simp [stopChan]

@[simp] theorem stopChans_anchors (x : Nat) (l : List Nat) (s : State) : (stopChans x l s).anchors = s.anchors := by
  induction l generalizing s with
  | nil => rfl
  | cons n ns ih => exact (ih _).trans (by simp)

@[simp] theorem stopCore_anchors (x n : Nat) (s : State) : (stopCore x n s).anchors = s.anchors := by simp [stopCore]

@[simp] theorem stopCores_anchors (x : Nat) (l : List Nat) (s : State) : (stopCores x l s).anchors = s.anchors := by
  induction l generalizing s with
  | nil => rfl
  | cons n ns ih => exact (ih _).trans (by simp)

@[simp] theorem collStatus_anchors (s : State) : (collStatus s).anchors = s.anchors := by simp [collStatus]

@[simp] theorem dropColl_anchors (x : Nat) (s : State) : (dropColl x s).anchors = s.anchors := by simp [dropColl]

@[simp] theorem countFault_anchors (code : Nat) (s : State) : (countFault code s).anchors = s.anchors := by simp [countFault]

@[simp] theorem ctxFault_anchors (x : Nat) (n : Option Nat) (gang : List Nat) (code sub opTag : Nat) (s : State) :
    (ctxFault x n gang code sub opTag s).anchors = s.anchors := by
  unfold ctxFault
  dsimp only
  repeat' split
  all_goals simp

@[simp] theorem ctxFaults_anchors (x : Nat) (n : Option Nat) (gang : List Nat) (opTag : Nat) (fs : List (Nat × Nat))
    (s : State) : (ctxFaults x n gang opTag fs s).anchors = s.anchors := by
  unfold ctxFaults
  split <;> simp

end Sys2Proof.Machine
end

section
/-! PROOFS. What the functions of Machine/Operands.lean keep: operands. -/

namespace Sys2Proof.Machine

@[simp] theorem advanceHead_anchors (n r k : Nat) (s : State) : (advanceHead n r k s).anchors = s.anchors := by simp
    [advanceHead]

@[simp] theorem releaseRows_anchors (n r k : Nat) (s : State) : (releaseRows n r k s).anchors = s.anchors := by simp
    [releaseRows]

@[simp] theorem releaseTo_anchors (n r : Nat) (g0 : Rgn) (k : Nat) (s : State) : (releaseTo n r g0 k s).anchors =
    s.anchors := by simp [releaseTo]

@[simp] theorem countRange_anchors (n : Nat) (s : State) : (countRange n s).anchors = s.anchors := by simp [countRange]

@[simp] theorem countOverrun_anchors (n : Nat) (s : State) : (countOverrun n s).anchors = s.anchors := by simp [countOverrun]

end Sys2Proof.Machine
end

section
/-! PROOFS. What the functions of Machine/Flags.lean keep: flags. -/

namespace Sys2Proof.Machine

@[simp] theorem statSlot_anchors (n k maxAbs : Nat) (nan : Bool) (s : State) : (statSlot n k maxAbs nan s).anchors =
    s.anchors := by simp [statSlot]

@[simp] theorem statCommit_anchors (n : Nat) (d : List Word) (inp out : Tally) (s : State) :
    (statCommit n d inp out s).anchors = s.anchors := by simp [statCommit]

@[simp] theorem countOutputs_anchors (n : Nat) (t : Tally) (s : State) : (countOutputs n t s).anchors = s.anchors := by
    simp [countOutputs]

@[simp] theorem statClear_anchors (n base : Nat) (v : Word) (s : State) : (statClear n base v s).anchors = s.anchors := by
    simp [statClear]

end Sys2Proof.Machine
end

section
/-! PROOFS. What the functions of Machine/Seq.lean keep: the sequencer. -/

namespace Sys2Proof.Machine

@[simp] theorem countFree_anchors (key : Nat) (s : State) : (countFree key s).anchors = s.anchors := by simp [countFree]

@[simp] theorem coreStatus_anchors (n : Nat) (s : State) : (coreStatus n s).anchors = s.anchors := by simp [coreStatus]

@[simp] theorem semAdd_anchors (n x k v : Nat) (s : State) : (semAdd n x k v s).anchors = s.anchors := by simp [semAdd]

@[simp] theorem seqIllegal_anchors (n x : Nat) (s : State) : (seqIllegal n x s).anchors = s.anchors := by simp [seqIllegal]

@[simp] theorem seqNext_anchors (n x p : Nat) (s : State) : (seqNext n x p s).anchors = s.anchors := by simp [seqNext]

@[simp] theorem seqWait_anchors (n : Nat) (w : SeqWait) (s : State) : (seqWait n w s).anchors = s.anchors := by simp
    [seqWait]

@[simp] theorem seqInstr_anchors (n op : Nat) (f : Nat → Nat → Nat → State → State) (s : State)
    (hf : ∀ x p w, (f x p w s).anchors = s.anchors) : (seqInstr n op f s).anchors = s.anchors := by
  unfold seqInstr
  dsimp only
  repeat' split
  all_goals simp [hf]

theorem loadImage_anchors (n x slot k : Nat) (s t : State) (h : loadImage n x slot k s = some t) :
    t.anchors = s.anchors := by
  induction k generalizing slot s with
  | zero => cases h; rfl
  | succ k ih =>
    unfold loadImage at h
    dsimp only at h
    split at h
    · cases h
    · refine (ih _ _ h).trans ?_
      split <;> simp

@[simp] theorem doSwitch_anchors (n x m : Nat) (s : State) : (doSwitch n x m s).anchors = s.anchors := by
  unfold doSwitch
  dsimp only
  split
  · simp
  · split
    · simp
    · rename_i t ht
      simpa using loadImage_anchors _ _ _ _ _ _ ht

@[simp] theorem settleCore_anchors (n : Nat) (s : State) : (settleCore n s).anchors = s.anchors := by
  unfold settleCore
  dsimp only
  repeat' split
  all_goals simp

@[simp] theorem disarm_anchors (n : Nat) (o : OpFlight) (s : State) : (disarm n o s).anchors = s.anchors := by simp [disarm]

@[simp] theorem startOp_anchors (t : Site) (d : List Word) (k : OpKind) (gang : List Nat) (p : Nat) (s : State) :
    (startOp t d k gang p s).anchors = s.anchors := by simp [startOp]

@[simp] theorem countChk_anchors (n : Nat) (k : Chk) (s : State) : (countChk n k s).anchors = s.anchors := by
  unfold countChk
  dsimp only
  repeat' split
  all_goals simp

@[simp] theorem cfgFault_anchors (n x tag : Nat) (s : State) : (cfgFault n x tag s).anchors = s.anchors := by simp [cfgFault]

@[simp] theorem issueOp_anchors (n : Nat) (k : OpKind) (cfgBad : Bool) (x p : Nat) (d : List Word) (s : State) :
    (issueOp n k cfgBad x p d s).anchors = s.anchors := by
  unfold issueOp
  dsimp only
  repeat' split
  all_goals simp

@[simp] theorem issueInstr_anchors (n : Nat) (sel : List Word → Bool) (f : Nat → Nat → List Word → State → State) (s : State)
    (hf : ∀ x p d, (f x p d s).anchors = s.anchors) : (issueInstr n sel f s).anchors = s.anchors := by
  refine seqInstr_anchors _ _ _ _ fun x p w => ?_
  dsimp only
  repeat' split
  all_goals simp [hf]

@[simp] theorem issueKind_anchors (n : Nat) (k : OpKind) (cfgBad : Bool) (s : State) :
    (issueKind n k cfgBad s).anchors = s.anchors := by
  simp [issueKind]

@[simp] theorem startGang_anchors (g : List Nat) (x : Nat) (d : List Word) (k : OpKind) (l : List Nat) (s : State) :
    (startGang g x d k l s).anchors = s.anchors := by
  induction l generalizing s with
  | nil => rfl
  | cons m ms ih => exact (ih _).trans (by simp)

@[simp] theorem countChks_anchors (x : Nat) (d : List Word) (k : OpKind) (l : List Nat) (s : State) :
    (countChks x d k l s).anchors = s.anchors := by
  induction l generalizing s with
  | nil => rfl
  | cons m ms ih => exact (ih _).trans (by simp)

@[simp] theorem issueBarrier_anchors (n : Nat) (cfgBad : Bool) (s : State) : (issueBarrier n cfgBad s).anchors =
    s.anchors := by
  unfold issueBarrier
  dsimp only
  repeat' split
  all_goals simp

@[simp] theorem barrierArrive_anchors (n x p : Nat) (s : State) : (barrierArrive n x p s).anchors = s.anchors := by
    simp [barrierArrive]

@[simp] theorem barrierRelease_anchors (n : Nat) (s : State) : (barrierRelease n s).anchors = s.anchors := by
  unfold barrierRelease
  split <;> simp

@[simp] theorem barrierTimeout_anchors (n : Nat) (s : State) : (barrierTimeout n s).anchors = s.anchors := by
  unfold barrierTimeout
  split <;> simp

@[simp] theorem semTake_anchors (n x p k v : Nat) (s : State) : (semTake n x p k v s).anchors = s.anchors := by simp
    [semTake]

@[simp] theorem waitSem_anchors (n : Nat) (s : State) : (waitSem n s).anchors = s.anchors := by simp [waitSem]

@[simp] theorem waitSemRelease_anchors (n : Nat) (s : State) : (waitSemRelease n s).anchors = s.anchors := by
  unfold waitSemRelease
  split <;> simp

@[simp] theorem signal_anchors (n : Nat) (s : State) : (signal n s).anchors = s.anchors := by simp [signal]

@[simp] theorem waitRows_anchors (n : Nat) (s : State) : (waitRows n s).anchors = s.anchors := by simp [waitRows]

@[simp] theorem waitRowsRelease_anchors (n : Nat) (s : State) : (waitRowsRelease n s).anchors = s.anchors := by
  unfold waitRowsRelease
  split <;> simp

@[simp] theorem waitRoom_anchors (n : Nat) (s : State) : (waitRoom n s).anchors = s.anchors := by simp [waitRoom]

@[simp] theorem waitRoomRelease_anchors (n : Nat) (s : State) : (waitRoomRelease n s).anchors = s.anchors := by
  unfold waitRoomRelease
  split <;> simp

@[simp] theorem seqLoop_anchors (n : Nat) (s : State) : (seqLoop n s).anchors = s.anchors := by simp [seqLoop]

@[simp] theorem seqBranch_anchors (n : Nat) (s : State) : (seqBranch n s).anchors = s.anchors := by simp [seqBranch]

@[simp] theorem seqSwitch_anchors (n : Nat) (s : State) : (seqSwitch n s).anchors = s.anchors := by simp [seqSwitch]

@[simp] theorem seqDrain_anchors (n : Nat) (s : State) : (seqDrain n s).anchors = s.anchors := by simp [seqDrain]

@[simp] theorem drainRelease_anchors (n : Nat) (s : State) : (drainRelease n s).anchors = s.anchors := by
  unfold drainRelease
  split <;> simp

@[simp] theorem seqLowPower_anchors (n : Nat) (s : State) : (seqLowPower n s).anchors = s.anchors := by simp [seqLowPower]

@[simp] theorem seqBarrier_anchors (n : Nat) (s : State) : (seqBarrier n s).anchors = s.anchors := by simp [seqBarrier]

@[simp] theorem seqStart_anchors (n : Nat) (s : State) : (seqStart n s).anchors = s.anchors := by simp [seqStart]

@[simp] theorem drainChanged_anchors (n : Nat) (s : State) : (drainChanged n s).anchors = s.anchors := by simp [drainChanged]

@[simp] theorem seqCtrlWrite_anchors (n : Nat) (v : Word) (s : State) : (seqCtrlWrite n v s).anchors = s.anchors := by
    simp [seqCtrlWrite]

end Sys2Proof.Machine
end

section
/-! PROOFS. What the functions of Machine/Dma.lean keep: DMA channels. -/

namespace Sys2Proof.Machine

@[simp] theorem enqueue_anchors (n c : Nat) (t : DmaDesc) (s : State) : (enqueue n c t s).anchors = s.anchors := by
    simp [enqueue]

@[simp] theorem postXfer_anchors (n : Nat) (k : DmaKind) (c : List Word → Nat) (x p : Nat) (d : List Word) (s : State) :
    (postXfer n k c x p d s).anchors = s.anchors := by simp [postXfer]

@[simp] theorem issueDma_anchors (n dir : Nat) (s : State) : (issueDma n dir s).anchors = s.anchors := by
  simp [issueDma]

@[simp] theorem issuePage_anchors (n kind : Nat) (s : State) : (issuePage n kind s).anchors = s.anchors := by
  simp [issuePage]

@[simp] theorem fwPost_anchors (n c x : Nat) (d : List Word) (host : Option Nat) (s : State) :
    (fwPost n c x d host s).anchors = s.anchors := by simp [fwPost]

@[simp] theorem submitWord_anchors (n c w : Nat) (v : Word) (s : State) : (submitWord n c w v s).anchors = s.anchors := by
    simp [submitWord]

@[simp] theorem parityError_anchors (n p : Nat) (s : State) : (parityError n p s).anchors = s.anchors := by
  unfold parityError
  dsimp only
  repeat' split
  all_goals simp

@[simp] theorem parityPersist_anchors (n x p tag : Nat) (gang : List Nat) (s : State) :
    (parityPersist n x p tag gang s).anchors = s.anchors := by simp [parityPersist]

@[simp] theorem dmaFault_anchors (n x code sub tag : Nat) (s : State) : (dmaFault n x code sub tag s).anchors =
    s.anchors := by simp [dmaFault]

@[simp] theorem chargeAcc_anchors (k x v : Nat) (s : State) : (chargeAcc k x v s).anchors = s.anchors := by simp [chargeAcc]

@[simp] theorem countRow_anchors (n x : Nat) (into : Bool) (s : State) : (countRow n x into s).anchors = s.anchors := by
    simp [countRow]

@[simp] theorem landBytes_kept {g : Anchors} (m row : Nat) (bs : List Byte) (src : Nat) (s : State)
    (h : g.Kept s.anchors) : g.Kept (landBytes m row bs src s).anchors := by simp [landBytes, h]

@[simp] theorem entryDone_anchors (id status code sub : Nat) (s : State) : (entryDone id status code sub s).anchors =
    s.anchors := by simp [entryDone]

@[simp] theorem finishXfer_anchors (n c : Nat) (s : State) : (finishXfer n c s).anchors = s.anchors := by
  unfold finishXfer
  dsimp only
  repeat' split
  all_goals simp

@[simp] theorem rowMoved_anchors (n c : Nat) (s : State) : (rowMoved n c s).anchors = s.anchors := by
  unfold rowMoved
  dsimp only
  repeat' split
  all_goals simp

@[simp] theorem landRow_kept {g : Anchors} (n c : Nat) (bs : List Byte) (src : Nat) (s : State) (h : g.Kept s.anchors) :
    g.Kept (landRow n c bs src s).anchors := by
  unfold landRow
  dsimp only
  repeat' split
  all_goals simp [h]

@[simp] theorem moveRows_kept {g : Anchors} (n c k : Nat) (s : State) (h : g.Kept s.anchors) :
    g.Kept (moveRows n c k s).anchors := by
  induction k generalizing s with
  | zero => exact h
  | succ k ih =>
    unfold moveRows
    dsimp only
    repeat' split
    all_goals first
      | exact h
      | exact ih _ (by simp [h])
      | simp [h]

@[simp] theorem dmaParity_kept {g : Anchors} (n x tag : Nat) (par : Option (Nat × Bool)) (go : State → State) (s : State)
    (hgo : ∀ t : State, t.anchors.Kept (go t).anchors) (h : g.Kept s.anchors) :
    g.Kept (dmaParity n x tag par go s).anchors := by
  unfold dmaParity
  split
  · exact h.trans (hgo _)
  · split
    · simpa using h
    · exact .trans (by simpa using h) (hgo _)

@[simp] theorem channelStart_kept {g : Anchors} (n c : Nat) (par : Option (Nat × Bool)) (cfgBad : Bool) (s : State)
    (h : g.Kept s.anchors) : g.Kept (channelStart n c par cfgBad s).anchors := by
  unfold channelStart
  dsimp only
  repeat' split
  all_goals simp [h]

@[simp] theorem holdChanged_anchors (n c : Nat) (s : State) : (holdChanged n c s).anchors = s.anchors := by simp
    [holdChanged]

@[simp] theorem dmaWaitTimeout_anchors (n c : Nat) (s : State) : (dmaWaitTimeout n c s).anchors = s.anchors := by
  unfold dmaWaitTimeout
  dsimp only
  repeat' split
  all_goals simp

@[simp] theorem seqHalt_anchors (n : Nat) (s : State) : (seqHalt n s).anchors = s.anchors := by simp [seqHalt]

@[simp] theorem seqDone_anchors (n : Nat) (s : State) : (seqDone n s).anchors = s.anchors := by simp [seqDone]

@[simp] theorem doneComplete_anchors (n : Nat) (s : State) : (doneComplete n s).anchors = s.anchors := by
  unfold doneComplete
  split <;> simp

end Sys2Proof.Machine
end

section
/-! PROOFS. What the functions of Machine/Streams.lean keep: streams. -/

namespace Sys2Proof.Machine

@[simp] theorem State.setStr_anchors (s : State) (e w : Nat) (v : Word) : (State.setStr s e w v).anchors = s.anchors := by
    simp [State.setStr]

@[simp] theorem State.setStrFld_anchors (s : State) (e hi lo v : Nat) : (State.setStrFld s e hi lo v).anchors =
    s.anchors := by simp [State.setStrFld]

@[simp] theorem State.setStrLoc_anchors (s : State) (e v : Nat) : (State.setStrLoc s e v).anchors = s.anchors := by
    simp [State.setStrLoc]

@[simp] theorem postSwap_anchors (e : Nat) (out : Bool) (s : State) : (postSwap e out s).anchors = s.anchors := by
    simp [postSwap]

@[simp] theorem pumpSwaps_anchors (s : State) : (pumpSwaps s).anchors = s.anchors := by simp [pumpSwaps]

@[simp] theorem startSwapIn_anchors (e : Nat) (byChunk : Bool) (s : State) : (startSwapIn e byChunk s).anchors =
    s.anchors := by simp [startSwapIn]

@[simp] theorem strLookup_anchors (e : Nat) (s : State) : (strLookup e s).anchors = s.anchors := by simp [strLookup]

@[simp] theorem postScan_anchors (n : Nat) (s : State) : (postScan n s).anchors = s.anchors := by
  refine issueInstr_anchors _ _ _ _ fun x p d => ?_
  dsimp only
  repeat' split
  all_goals simp

@[simp] theorem dropChunk_anchors (n k : Nat) (s : State) : (dropChunk n k s).anchors = s.anchors := by simp [dropChunk]

@[simp] theorem scanStart_anchors (n : Nat) (cfgBad : Bool) (s : State) : (scanStart n cfgBad s).anchors = s.anchors := by
  unfold scanStart
  dsimp only
  repeat' split
  all_goals simp

@[simp] theorem scanTimeout_anchors (n k : Nat) (s : State) : (scanTimeout n k s).anchors = s.anchors := by
  unfold scanTimeout
  split <;> simp

@[simp] theorem swapInDone_anchors (e : Nat) (s : State) : (swapInDone e s).anchors = s.anchors := by
  unfold swapInDone
  split <;> simp

@[simp] theorem swapOutStart_anchors (e : Nat) (s : State) : (swapOutStart e s).anchors = s.anchors := by simp [swapOutStart]

@[simp] theorem swapOutDone_anchors (e : Nat) (s : State) : (swapOutDone e s).anchors = s.anchors := by
  unfold swapOutDone
  split <;> simp

@[simp] theorem strResult_anchors (r : Nat) (s : State) : (strResult r s).anchors = s.anchors := by simp [strResult]

@[simp] theorem strCmd_anchors (cmd e : Nat) (s : State) : (strCmd cmd e s).anchors = s.anchors := by
  unfold strCmd
  dsimp only
  repeat' split
  all_goals simp

@[simp] theorem strCmdWrite_anchors (iid : Nat) (v : Word) (s : State) : (strCmdWrite iid v s).anchors = s.anchors := by
    simp [strCmdWrite]

@[simp] theorem strPartCheck_anchors (k : Nat) (old : Word) (s : State) : (strPartCheck k old s).anchors = s.anchors := by
    simp [strPartCheck]

@[simp] theorem scanCommit_kept {g : Anchors} (n : Nat) (o : OpFlight) (s : State) (h : g.Kept s.anchors) :
    g.Kept (scanCommit n o s).anchors := by
  simp [scanCommit, h]

end Sys2Proof.Machine
end

section
/-! PROOFS. What the functions of Machine/Verdict.lean keep: verdicts and commits of operations. -/

namespace Sys2Proof.Machine

@[simp] theorem relSpare_anchors (kind n sub arg : Nat) (s : State) : (relSpare kind n sub arg s).anchors = s.anchors := by
    simp [relSpare]

@[simp] theorem bringSpare_anchors (n : Nat) (q : Nat × Bool) (s : State) : (bringSpare n q s).anchors = s.anchors := by
    simp [bringSpare]

@[simp] theorem wearSnapshotEntry_anchors (n : Nat) (s : State) : (wearSnapshotEntry n s).anchors = s.anchors := by
    simp [wearSnapshotEntry]

@[simp] theorem wearOne_anchors (n : Nat) (q : Nat × Bool) (s : State) : (wearOne n q s).anchors = s.anchors := by
  unfold wearOne
  dsimp only
  repeat' split
  all_goals simp

@[simp] theorem wearSwap_anchors (n : Nat) (s : State) : (wearSwap n s).anchors = s.anchors := by
  unfold wearSwap
  dsimp only
  repeat' split
  all_goals simp

@[simp] theorem commitOut_kept {g : Anchors} (n : Nat) (q : Nat × Nat × List (Nat × List Byte)) (s : State)
    (h : g.Kept s.anchors) : g.Kept (commitOut n q s).anchors := by
  unfold commitOut
  rw [advanceHead_anchors]
  exact foldl_kept _ (fun t w => t.writeRow_keeps _ _ _ _) _ _ h

@[simp] theorem chargeFree_anchors (k x : Nat) (s : State) : (chargeFree k x s).anchors = s.anchors := by simp [chargeFree]

@[simp] theorem commitMember_kept {g : Anchors} (n : Nat) (s : State) (h : g.Kept s.anchors) :
    g.Kept (commitMember n s).anchors := by
  unfold commitMember
  split
  · exact h
  extract_lets _ _ s1 _ s2 s3 s4 s5 s6 s7 s8 s9 s10 s11
  have h1 : g.Kept s1.anchors := by
    simp only [s1, State.drew_anchors]
    exact foldl_kept _ (fun t q => commitOut_kept _ _ _ (.refl _)) _ _ h
  have h9 : s9.anchors = s1.anchors := by simp [s9, s8, s7, s6, s5, s4, s3, s2]
  have h10 : g.Kept s10.anchors := by
    simp only [s10]
    split
    · exact scanCommit_kept _ _ _ (h9 ▸ h1)
    · exact h9 ▸ h1
  have h11 : s11.anchors = s10.anchors := by simp [s11]
  clear_value s10 s11
  split <;> simpa [h11] using h10

@[simp] theorem modHead_anchors (n : Nat) (f : OpFlight → OpFlight) (s : State) : (modHead n f s).anchors = s.anchors := by
    simp [modHead]

@[simp] theorem reissue_anchors (n : Nat) (s : State) : (reissue n s).anchors = s.anchors := by
  unfold reissue
  dsimp only
  repeat' split
  all_goals simp

@[simp] theorem commitGang_kept {g : Anchors} (l : List Nat) (s : State) (h : g.Kept s.anchors) :
    g.Kept (commitGang l s).anchors := by
  simp [commitGang, h]

@[simp] theorem squashAfter_anchors (g : List Nat) (s : State) : (squashAfter g s).anchors = s.anchors := by
  refine foldl_anchors _ _ _ fun t m => ?_
  split
  · split
    · rfl
    · exact foldl_anchors _ _ _ fun u k => by split <;> simp
  · rfl

@[simp] theorem recordFail_anchors (n : Nat) (r : CheckResult) (s : State) : (recordFail n r s).anchors = s.anchors := by
  unfold recordFail
  dsimp only
  repeat' split
  all_goals simp

@[simp] theorem rerunAll_anchors (g : List Nat) (run : Nat) (s : State) : (rerunAll g run s).anchors = s.anchors :=
  foldl_anchors _ _ _ fun t m => by split <;> simp

@[simp] theorem checksumPersist_anchors (n : Nat) (o : OpFlight) (sub : Nat) (s : State) :
    (checksumPersist n o sub s).anchors = s.anchors := by simp [checksumPersist]

@[simp] theorem persist_anchors (n : Nat) (o : OpFlight) (r : CheckResult) (l : Loc) (s : State) :
    (persist n o r l s).anchors = s.anchors := by
  unfold persist
  dsimp only
  repeat' split
  all_goals simp

@[simp] theorem forcedRerun_anchors (o : OpFlight) (s : State) : (forcedRerun o s).anchors = s.anchors := by simp
    [forcedRerun]

@[simp] theorem failVerdict_anchors (o : OpFlight) (bads : List (Nat × CheckResult)) (s : State) :
    (failVerdict o bads s).anchors = s.anchors := by
  unfold failVerdict
  dsimp only
  repeat' split
  all_goals simp

@[simp] theorem verdict_kept {g : Anchors} (n : Nat) (res : List CheckResult) (s : State) (h : g.Kept s.anchors) :
    g.Kept (verdict n res s).anchors := by
  unfold verdict
  split
  · exact h
  split
  · exact h
  split
  · simp [h]
  split
  · simp [h]
  extract_lets bads
  cases bads with
  | nil => exact commitGang_kept _ _ h
  | cons b bs => simpa using h

@[simp] theorem spareSwapDone_anchors (n : Nat) (s : State) : (spareSwapDone n s).anchors = s.anchors := by
  unfold spareSwapDone
  dsimp only
  repeat' split
  all_goals simp

@[simp] theorem arrWatchdog_anchors (n : Nat) (s : State) : (arrWatchdog n s).anchors = s.anchors := by
  unfold arrWatchdog
  split <;> simp

@[simp] theorem bankSwap_anchors (n : Nat) (s : State) : (bankSwap n s).anchors = s.anchors := by
  unfold bankSwap
  dsimp only
  repeat' split
  all_goals simp

@[simp] theorem bankSwapGo_anchors (n b : Nat) (s : State) : (bankSwapGo n b s).anchors = s.anchors := by
  unfold bankSwapGo
  split
  · simp
  · split <;> simp

@[simp] theorem badLine_kept {g : Anchors} (n b p l : Nat) (s : State) (h : g.Kept s.anchors) :
    g.Kept (badLine n b p l s).anchors := by
  unfold badLine
  dsimp only
  split
  · simp [h]
  · exact State.writeRow_kept _ _ _ _ _ (by simp [h])

@[simp] theorem bankSwapDone_kept {g : Anchors} (n : Nat) (badLines : List Nat) (s : State) (h : g.Kept s.anchors) :
    g.Kept (bankSwapDone n badLines s).anchors := by
  unfold bankSwapDone
  split <;> simp [h]

@[simp] theorem armInjection_anchors (n : Nat) (v : Word) (s : State) : (armInjection n v s).anchors = s.anchors := by
    simp [armInjection]

@[simp] theorem spdRelease_anchors (n : Nat) (v : Word) (s : State) : (spdRelease n v s).anchors = s.anchors := by
    simp [spdRelease]

@[simp] theorem spdBankSwap_anchors (n : Nat) (v : Word) (s : State) : (spdBankSwap n v s).anchors = s.anchors := by
    simp [spdBankSwap]

@[simp] theorem roomAvailable_kept {g : Anchors} (n c : Nat) (s : State) (h : g.Kept s.anchors) : g.Kept
    (roomAvailable n c s).anchors := by
  unfold roomAvailable
  dsimp only
  repeat' split
  all_goals simp [h]

end Sys2Proof.Machine
end

section
/-! PROOFS. What the functions of Machine/Tiers.lean keep: the memory tiers. -/

namespace Sys2Proof.Machine

@[simp] theorem State.setPage_anchors (s : State) (p : Nat) (r : PageRec) : (State.setPage s p r).anchors = s.anchors := by
    simp [State.setPage]

@[simp] theorem State.modMt_anchors (s : State) (f : Mt → Mt) : (State.modMt s f).anchors = s.anchors := by simp
    [State.modMt]

@[simp] theorem countRefusal_anchors (s : State) : (countRefusal s).anchors = s.anchors := by simp [countRefusal]

@[simp] theorem touchPage_anchors (p : Nat) (s : State) : (touchPage p s).anchors = s.anchors := by simp [touchPage]

@[simp] theorem poisonMade_anchors (da owner src : Nat) (s : State) : (poisonMade da owner src s).anchors = s.anchors := by
    simp [poisonMade]

@[simp] theorem storeSector_kept {g : Anchors} (owner da src : Nat) (bs : List Byte) (s : State) (h : g.Kept s.anchors) :
    g.Kept (storeSector owner da src bs s).anchors := by
  have h1 : g.Kept ({ s with da := Memory.writeList s.da (da / 512 * 512) (bs.take 512) } : State).anchors :=
    h.setDa _ (Memory.wf_writeList _ _ _)
  unfold storeSector
  dsimp only
  split <;> simpa using h1

@[simp] theorem readSector_anchors (owner da : Nat) (o : SectorRead) (s : State) :
    (readSector owner da o s).2.2.anchors = s.anchors := by
  unfold readSector
  dsimp only
  repeat' split
  all_goals simp

@[simp] theorem writeRun_kept {g : Anchors} (set tenant da src : Nat) (bs : List Byte) (k base : Nat) (s : State)
    (h : g.Kept s.anchors) : g.Kept (writeRun set tenant da src bs k base s).2.anchors := by
  induction k generalizing base s with
  | zero => exact h
  | succ k ih =>
    unfold writeRun
    split
    · simpa using h
    · exact ih _ _ (by simp [h])

@[simp] theorem daWrite_kept {g : Anchors} (x da src : Nat) (bs : List Byte) (s : State) (h : g.Kept s.anchors) :
    g.Kept (daWrite x da src bs s).2.anchors := by simp [daWrite, h]

@[simp] theorem readRun_anchors (set tenant k base : Nat) (s : State) :
    (readRun set tenant k base s).2.2.2.anchors = s.anchors := by
  induction k generalizing base s with
  | zero => rfl
  | succ k ih =>
    unfold readRun
    split
    · simp
    · exact (ih _ _).trans (by simp)

@[simp] theorem daRead_anchors (x da n : Nat) (s : State) : (daRead x da n s).2.2.2.anchors = s.anchors := by simp [daRead]

@[simp] theorem fwWrite_kept {g : Anchors} (da : Nat) (bs : List Byte) (k : Nat) (s : State) (h : g.Kept s.anchors) :
    g.Kept (fwWrite da bs k s).2.anchors := by
  induction k generalizing da bs s with
  | zero => exact h
  | succ k ih =>
    unfold fwWrite
    dsimp only
    split
    · simpa using h
    · exact ih _ _ _ (by simp [h])

@[simp] theorem fwWords_kept {g : Anchors} (da : Nat) (ws : List Word) (s : State) (h : g.Kept s.anchors) : g.Kept
    (fwWords da ws s).2.anchors := by simp [fwWords, h]

@[simp] theorem fwReadRun_anchors (k base : Nat) (s : State) : (fwReadRun k base s).2.2.2.anchors = s.anchors := by
  induction k generalizing base s with
  | zero => rfl
  | succ k ih =>
    unfold fwReadRun
    split
    · simp
    · exact (ih _ _).trans (by simp)

@[simp] theorem fwRead_anchors (da n : Nat) (s : State) : (fwRead da n s).2.2.2.anchors = s.anchors := by simp [fwRead]

@[simp] theorem joinAcc_anchors (a : TierAcc) (s : State) : (joinAcc a s).anchors = s.anchors := by simp [joinAcc]

@[simp] theorem chanAccess_anchors (n c : Nat) (s : State) : (chanAccess n c s).anchors = s.anchors := by
  unfold chanAccess
  dsimp only
  repeat' split
  all_goals simp

@[simp] theorem tierAccess_anchors (r : DaReq) (s : State) : (tierAccess r s).anchors = s.anchors := by
  unfold tierAccess
  split
  · simp
  · split <;> simp
  · split <;> simp

@[simp] theorem tierCfgFault_anchors (r : DaReq) (s : State) : (tierCfgFault r s).anchors = s.anchors := by
  unfold tierCfgFault
  split
  · split <;> simp
  · simp
  · simp

@[simp] theorem landImem_anchors (n : Nat) (t : DmaDesc) (i : Nat) (bs : List Byte) (s : State) :
    (landImem n t i bs s).anchors = s.anchors := by simp [landImem]

@[simp] theorem landReady_kept {g : Anchors} (n c k : Nat) (s : State) (h : g.Kept s.anchors) :
    g.Kept (landReady n c k s).anchors := by
  induction k generalizing s with
  | zero => exact h
  | succ k ih =>
    unfold landReady
    dsimp only
    repeat' split
    all_goals first
      | exact h
      | exact ih _ (by simp [h])
      | simp [h]

@[simp] theorem countStall_anchors (cause owner : Nat) (s : State) : (countStall cause owner s).anchors = s.anchors := by
    simp [countStall]

@[simp] theorem readDeliver_kept {g : Anchors} (k : Nat) (o : SectorRead) (s : State) (h : g.Kept s.anchors) : g.Kept
    (readDeliver k o s).anchors := by
  unfold readDeliver
  dsimp only
  repeat' split
  all_goals simp [h]

@[simp] theorem writeDone_kept {g : Anchors} (k : Nat) (s : State) (h : g.Kept s.anchors) : g.Kept
    (writeDone k s).anchors := by
  unfold writeDone
  dsimp only
  repeat' split
  all_goals simp [h]

@[simp] theorem accTimeout_anchors (k : Nat) (s : State) : (accTimeout k s).anchors = s.anchors := by
  unfold accTimeout
  dsimp only
  repeat' split
  all_goals simp

@[simp] theorem dmaRoom_kept {g : Anchors} (n c : Nat) (s : State) (h : g.Kept s.anchors) : g.Kept
    (dmaRoom n c s).anchors := by simp [dmaRoom, h]

@[simp] theorem pgResult_anchors (r : Nat) (s : State) : (pgResult r s).anchors = s.anchors := by simp [pgResult]

@[simp] theorem pinRefused_anchors (s : State) : (pinRefused s).anchors = s.anchors := by simp [pinRefused]

@[simp] theorem pgAlloc_anchors (p owner place : Nat) (s : State) : (pgAlloc p owner place s).anchors = s.anchors := by
  unfold pgAlloc
  dsimp only
  repeat' split
  all_goals simp

@[simp] theorem pgFree_anchors (p : Nat) (s : State) : (pgFree p s).anchors = s.anchors := by simp [pgFree]

@[simp] theorem freeComplete_anchors (p : Nat) (s : State) : (freeComplete p s).anchors = s.anchors := by simp [freeComplete]

@[simp] theorem pgPlace_anchors (p place : Nat) (s : State) : (pgPlace p place s).anchors = s.anchors := by
  unfold pgPlace
  dsimp only
  repeat' split
  all_goals simp

@[simp] theorem pgRead_anchors (p : Nat) (s : State) : (pgRead p s).anchors = s.anchors := by simp [pgRead]

@[simp] theorem pgCmd_anchors (iid : Nat) (v : Word) (s : State) : (pgCmd iid v s).anchors = s.anchors := by
  unfold pgCmd
  dsimp only
  repeat' split
  all_goals simp

@[simp] theorem startMove_anchors (p : Nat) (s : State) : (startMove p s).anchors = s.anchors := by
  unfold startMove
  dsimp only
  repeat' split
  all_goals simp

@[simp] theorem unqueue_anchors (p : Nat) (s : State) : (unqueue p s).anchors = s.anchors := by simp [unqueue]

@[simp] theorem promoteTurn_anchors (s : State) : (promoteTurn s).anchors = s.anchors := by
  unfold promoteTurn
  split <;> simp

@[simp] theorem migrationChoice_anchors (s : State) : (migrationChoice s).anchors = s.anchors := by
  unfold migrationChoice
  dsimp only
  repeat' split
  all_goals simp

@[simp] theorem retireFrame_anchors (tier f : Nat) (s : State) : (retireFrame tier f s).anchors = s.anchors := by
  unfold retireFrame
  dsimp only
  repeat' split
  all_goals simp

@[simp] theorem retireEmpty_anchors (s : State) : (retireEmpty s).anchors = s.anchors := by simp [retireEmpty]

@[simp] theorem moveBad_kept {g : Anchors} (p : Nat) (s : State) (k : Nat) (h : g.Kept s.anchors) : g.Kept
    (moveBad p s k).anchors := by simp [moveBad, h]

@[simp] theorem moveSwitch_kept {g : Anchors} (bad : List Nat) (s : State) (h : g.Kept s.anchors) :
    g.Kept (moveSwitch bad s).anchors := by
  unfold moveSwitch
  split
  · exact h
  · rename_i p _
    dsimp only
    split
    · exact h
    · simp only [ite_anchors, countStall_anchors, State.count_anchors, State.modMt_anchors, State.setPage_anchors, ite_self]
      exact h.setDa _ (Memory.wf_zero _ _ _)
  · simp [h]

@[simp] theorem decayTick_kept {g : Anchors} (s : State) (h : g.Kept s.anchors) : g.Kept (decayTick s).anchors := by
  unfold decayTick
  dsimp only
  repeat' split
  all_goals simp [h]

@[simp] theorem patrolRead_anchors (rows : List Nat) (s : State) : (patrolRead rows s).anchors = s.anchors := by simp
    [patrolRead]

end Sys2Proof.Machine
end

section
/-! PROOFS. What the functions of Machine/Breeze.lean keep: the Breeze tier. -/

namespace Sys2Proof.Machine

@[simp] theorem sampleWrite_kept {g : Anchors} (vals : List (BitVec 16)) (sat : BitVec 32) (s : State)
    (h : g.Kept s.anchors) :
    g.Kept (sampleWrite vals sat s).anchors := by
  unfold sampleWrite
  extract_lets _ t _ _ _ _ _ _ _ _ _ _ s1 s2
  have h0 : g.Kept t.anchors := State.at_kept s _ h
  have h1 : g.Kept s1.anchors := by
    refine h0.modBrz _ ?_ id
    dsimp only
    exact Memory.wf_writeList _ _ _
  simpa [s2] using h1

@[simp] theorem tdmSync_anchors (p : Nat) (ok : Bool) (s : State) : (tdmSync p ok s).anchors = s.anchors := by simp [tdmSync]

@[simp] theorem muteFall_anchors (s : State) : (muteFall s).anchors = s.anchors := by simp [muteFall]

@[simp] theorem muteRise_anchors (s : State) : (muteRise s).anchors = s.anchors := by simp [muteRise]

@[simp] theorem muteRelease_kept {g : Anchors} (s : State) (h : g.Kept s.anchors) : g.Kept (muteRelease s).anchors := by
  unfold muteRelease
  split
  · exact h
  · rw [State.setReg_anchors, State.modBrz_anchors]
    · simp [h]
    · rfl
    · rfl

@[simp] theorem settleEnd_anchors (s : State) : (settleEnd s).anchors = s.anchors := by simp [settleEnd]

@[simp] theorem State.setAg_anchors (s : State) (g : Nat) (a : AudioGroup) : (State.setAg s g a).anchors = s.anchors := by
    simp [State.setAg]

@[simp] theorem moveCursor_anchors (g i : Nat) (s : State) : (moveCursor g i s).anchors = s.anchors := by simp [moveCursor]

@[simp] theorem activate_anchors (g i : Nat) (below : Bool) (s : State) : (activate g i below s).anchors = s.anchors := by
    simp [activate]

@[simp] theorem stopGroup_anchors (g : Nat) (s : State) : (stopGroup g s).anchors = s.anchors := by simp [stopGroup]

@[simp] theorem agCmd_anchors (g cmd : Nat) (s : State) : (agCmd g cmd s).anchors = s.anchors := by
  unfold agCmd
  split <;> simp

@[simp] theorem bindGroup_anchors (g start pre : Nat) (desc : List Word) (s : State) :
    (bindGroup g start pre desc s).anchors = s.anchors := by simp [bindGroup]

@[simp] theorem deliverBlock_kept {g : Anchors} (i : Nat) (s : State) (h : g.Kept s.anchors) :
    g.Kept (deliverBlock i s).anchors := by
  unfold deliverBlock
  extract_lets _ _ _ _ _ _ _ _ _ _ _ wait _ _ _ _ _ _ _ _ _ _ s1 s2 s3 s4 _ s5 s6 s7 s8 s9
  have hw : ∀ t, (wait t).anchors = t.anchors := fun t => by simp [wait]
  have h2 : g.Kept s2.anchors := by simp [s2, s1, h]
  have h7 : s7.anchors = s2.anchors := by simp [s7, s6, s5, s4, s3]
  have h9 : s9.anchors = s7.anchors := by simp [s9, s8]
  clear_value wait s9
  repeat' split
  · exact h
  · simp [h]
  · simp [hw, h]
  · simp [hw, h]
  · simpa [h9, h7] using h2
  · simpa [h9, h7] using h2

@[simp] theorem queueWake_anchors (ctr : Nat) (ws : List Word) (s : State) : (queueWake ctr ws s).anchors = s.anchors := by
    simp [queueWake]

@[simp] theorem enterModel_anchors (n m : Nat) (s : State) : (enterModel n m s).anchors = s.anchors := by simp [enterModel]

@[simp] theorem gustStart_anchors (m : Nat) (s : State) : (gustStart m s).anchors = s.anchors := by simp [gustStart]

@[simp] theorem raiseWake_anchors (ctr : Nat) (ws : List Word) (start : Nat) (ag : Option (Nat × Nat))
    (gust : Option Nat) (s : State) : (raiseWake ctr ws start ag gust s).anchors = s.anchors := by
  unfold raiseWake
  dsimp only
  repeat' split
  all_goals simp

@[simp] theorem visionWake_anchors (cam score idx : Nat) (s : State) : (visionWake cam score idx s).anchors =
    s.anchors := by simp [visionWake]

@[simp] theorem State.setBrzModel_anchors (s : State) (m : Nat) (x : BrzModel) : (State.setBrzModel s m x).anchors =
    s.anchors := by simp [State.setBrzModel]

@[simp] theorem sumLoads_anchors (s : State) : (sumLoads s).anchors = s.anchors := by simp [sumLoads]

@[simp] theorem startRun_anchors (s : State) : (startRun s).anchors = s.anchors := by
  unfold startRun
  split <;> simp

@[simp] theorem hopOf_anchors (l : Nat) (s : State) (m : Nat) : (hopOf l s m).anchors = s.anchors := by simp [hopOf]

@[simp] theorem hopEnd_anchors (s : State) : (hopEnd s).anchors = s.anchors := by simp [hopEnd]

@[simp] theorem modelOutput_anchors (q : BrzRun) (conf startOff endOff : Nat) (s : State) :
    (modelOutput q conf startOff endOff s).anchors = s.anchors := by simp [modelOutput]

@[simp] theorem runEnd_anchors (conf startOff endOff fails parity : Nat) (s : State) :
    (runEnd conf startOff endOff fails parity s).anchors = s.anchors := by
  unfold runEnd
  split
  · rfl
  extract_lets s0 s1 t t1 s2
  have h1 : s1.anchors = s.anchors := by simp [s1, s0]
  have ht : t1.anchors = s1.anchors := (State.modBrz_anchors _ rfl rfl).trans (by simp [t])
  have h2 : s2.anchors = s1.anchors := by simp [s2, ht]
  simp [h2, h1]

@[simp] theorem gustPost_anchors (s : State) : (gustPost s).anchors = s.anchors := by simp [gustPost]

@[simp] theorem wqRdWrite_anchors (v : Word) (s : State) : (wqRdWrite v s).anchors = s.anchors := by simp [wqRdWrite]

@[simp] theorem spmStep_anchors (s : State) : (spmStep s).anchors = s.anchors := by simp [spmStep]

@[simp] theorem spmRead_anchors (s : State) : (spmRead s).anchors = s.anchors := by simp [spmRead]

@[simp] theorem spmWrite_kept {g : Anchors} (v : Word) (s : State) (h : g.Kept s.anchors) : g.Kept
    (spmWrite v s).anchors := by
  unfold spmWrite
  dsimp only
  split
  · simpa using h
  · rw [spmStep_anchors]
    exact h.modBrz _ id (Memory.wf_writeList _ _ _)

@[simp] theorem idxLoRead_anchors (s : State) : (idxLoRead s).anchors = s.anchors := by simp [idxLoRead]

@[simp] theorem agCurLoRead_anchors (g : Nat) (s : State) : (agCurLoRead g s).anchors = s.anchors := by simp [agCurLoRead]

end Sys2Proof.Machine
end

section
/-! PROOFS. What the functions of Machine/Isp.lean keep: the camera pipeline. -/

namespace Sys2Proof.Machine

@[simp] theorem State.modIsp_anchors (s : State) (f : Isp → Isp) : (State.modIsp s f).anchors = s.anchors := by simp
    [State.modIsp]

@[simp] theorem State.setCam_anchors (s : State) (n : Nat) (c : IspCam) : (State.setCam s n c).anchors = s.anchors := by
    simp [State.setCam]

@[simp] theorem State.setCcBus_anchors (s : State) (b : Nat) (x : CcBus) : (State.setCcBus s b x).anchors = s.anchors := by
    simp [State.setCcBus]

@[simp] theorem feedSignal_anchors (feed x : Nat) (s : State) : (feedSignal feed x s).anchors = s.anchors := by simp
    [feedSignal]

@[simp] theorem countStale_anchors (feed : Nat) (s : State) : (countStale feed s).anchors = s.anchors := by simp [countStale]

@[simp] theorem writeRecord_kept {g : Anchors} (n : Nat) (f : IspFrame) (bs : List Byte) (s : State)
    (h : g.Kept s.anchors) : g.Kept (writeRecord n f bs s).anchors := by
  unfold writeRecord
  dsimp only
  repeat' split
  all_goals simp [h]

@[simp] theorem csiErr_anchors (p bit ctr : Nat) (s : State) : (csiErr p bit ctr s).anchors = s.anchors := by simp [csiErr]

@[simp] theorem csiDiscard_anchors (p : Nat) (s : State) : (csiDiscard p s).anchors = s.anchors := by simp [csiDiscard]

@[simp] theorem csiHeader_kept {g : Anchors} (p : Nat) (h : CsiHdr) (lost f : State → State) (s : State)
    (hl : ∀ t : State, t.anchors.Kept (lost t).anchors) (hf : ∀ t : State, t.anchors.Kept (f t).anchors)
    (hs : g.Kept s.anchors) : g.Kept (csiHeader p h lost f s).anchors := by
  cases h
  · exact hs.trans (hf _)
  · exact .trans (by simpa using hs) (hf _)
  · exact .trans (by simpa using hs) (hl _)

@[simp] theorem csiHeader_anchors (p : Nat) (h : CsiHdr) (lost f : State → State) (s : State)
    (hl : ∀ t : State, (lost t).anchors = t.anchors) (hf : ∀ t : State, (f t).anchors = t.anchors) :
    (csiHeader p h lost f s).anchors = s.anchors := by
  cases h
  · exact hf _
  · exact (hf _).trans (by simp)
  · exact (hl _).trans (by simp)

@[simp] theorem countLost_anchors (n p k : Nat) (s : State) : (countLost n p k s).anchors = s.anchors := by simp [countLost]

@[simp] theorem lineLost_anchors (n p : Nat) (s : State) : (lineLost n p s).anchors = s.anchors := by
  unfold lineLost
  dsimp only
  repeat' split
  all_goals simp

@[simp] theorem csiCheck_anchors (n : Nat) (f : IspFrame) (px : List Nat) (s : State) : (csiCheck n f px s).anchors =
    s.anchors := by simp [csiCheck]

@[simp] theorem lineArrive_kept {g : Anchors} (n p : Nat) (px : List Nat) (sclk : Nat) (s : State)
    (h : g.Kept s.anchors) : g.Kept (lineArrive n p px sclk s).anchors := by
  unfold lineArrive
  dsimp only
  repeat' split
  all_goals simp [h]

@[simp] theorem lineReceive_kept {g : Anchors} (p vc dt : Nat) (hd : CsiHdr) (crcOk : Bool) (px : List Nat) (sclk : Nat)
    (s : State) (h : g.Kept s.anchors) : g.Kept (lineReceive p vc dt hd crcOk px sclk s).anchors := by
  unfold lineReceive
  split
  · exact h
  extract_lets s0 cam
  have h0 : g.Kept s0.anchors := by simp [s0, h]
  clear_value cam
  refine csiHeader_kept p hd _ _ s0 (fun t => ?_) (fun t => ?_) h0
  · cases cam <;> simp
  · cases cam with
    | none => simp
    | some n =>
      dsimp only
      repeat' split
      all_goals simp

@[simp] theorem closeFrame_anchors (n p flag : Nat) (s : State) : (closeFrame n p flag s).anchors = s.anchors := by
  unfold closeFrame
  dsimp only
  repeat' split
  all_goals simp

@[simp] theorem frameEnd_anchors (p vc : Nat) (h : CsiHdr) (s : State) : (frameEnd p vc h s).anchors = s.anchors := by
  unfold frameEnd
  split
  · rfl
  · refine csiHeader_anchors _ _ _ _ _ (fun t => rfl) fun t => ?_
    split
    · simp
    · split <;> simp

@[simp] theorem takeBuf_anchors (n o : Nat) (q : IspFrame × State) : (takeBuf n o q).2.anchors = q.2.anchors := by
  unfold takeBuf
  dsimp only
  repeat' split
  all_goals simp

@[simp] theorem releasePacket_anchors (n frame : Nat) (s : State) : (releasePacket n frame s).anchors = s.anchors := by
  unfold releasePacket
  dsimp only
  repeat' split
  all_goals simp

@[simp] theorem dropAtStart_kept {g : Anchors} (n : Nat) (f : IspFrame) (s : State) (h : g.Kept s.anchors) : g.Kept
    (dropAtStart n f s).anchors := by simp [dropAtStart, h]

@[simp] theorem camFrameStart_kept {g : Anchors} (n p num : Nat) (s : State) (h : g.Kept s.anchors) : g.Kept
    (camFrameStart n p num s).anchors := by
  unfold camFrameStart
  dsimp only
  repeat' split
  all_goals simp [h]

@[simp] theorem frameStart_kept {g : Anchors} (p vc num : Nat) (hd : CsiHdr) (s : State) (h : g.Kept s.anchors) :
    g.Kept (frameStart p vc num hd s).anchors := by
  unfold frameStart
  split
  · exact h
  · refine csiHeader_kept _ _ _ _ _ (fun t => .refl _) (fun t => ?_) h
    split <;> simp

@[simp] theorem dropStale_kept {g : Anchors} (n : Nat) (f : IspFrame) (s : State) (h : g.Kept s.anchors) : g.Kept
    (dropStale n f s).anchors := by simp [dropStale, h]

@[simp] theorem stripeGrant_kept {g : Anchors} (s : State) (h : g.Kept s.anchors) : g.Kept (stripeGrant s).anchors := by
  unfold stripeGrant
  dsimp only
  repeat' split
  all_goals simp [h]

@[simp] theorem writePieces_kept {g : Anchors} (x base : Nat) (l : List (Nat × List Byte)) (s : State)
    (h : g.Kept s.anchors) :
    g.Kept (writePieces x base l s).2.anchors := by
  induction l generalizing s with
  | nil => exact h
  | cons q qs ih =>
    unfold writePieces
    dsimp only
    split
    · exact ih _ (by simp [h])
    · simp [h]

@[simp] theorem daOutput_kept {g : Anchors} (o : Nat) (v : IspView) (s : State) (h : g.Kept s.anchors) : g.Kept
    (daOutput o v s).2.anchors := by
  unfold daOutput
  dsimp only
  repeat' split
  all_goals simp [h]

@[simp] theorem padOutput_kept {g : Anchors} (v : IspView) (s : State) (h : g.Kept s.anchors) :
    g.Kept (padOutput v s).2.anchors := by
  unfold padOutput
  dsimp only
  repeat' split
  · exact h
  all_goals simp [h]

@[simp] theorem rawBack_anchors (y : Nat) (q : IspFrame × State) (n : Nat) : (rawBack y q n).2.anchors = q.2.anchors := by
  unfold rawBack
  dsimp only
  repeat' split
  all_goals simp

@[simp] theorem stripeEnd_kept {g : Anchors} (s : State) (h : g.Kept s.anchors) : g.Kept (stripeEnd s).anchors := by
  unfold stripeEnd
  split
  · exact h
  split
  · simp [h]
  extract_lets k q _ gr q0 q1 q2 q3 s1
  have hq : q.2.anchors = s.anchors := by
    simp only [q]
    split
    · exact iter_keeps (fun q : IspFrame × State => q.2.anchors) _ (fun k q => rawBack_anchors _ _ _) _ _
    · rfl
  have h0 : g.Kept q0.2.anchors := daOutput_kept _ _ _ (hq ▸ h)
  have h3 : g.Kept q3.2.anchors := padOutput_kept _ _ (daOutput_kept _ _ _ (daOutput_kept _ _ _ h0))
  simpa [s1] using h3

@[simp] theorem frameDone_kept {g : Anchors} (n : Nat) (s : State) (h : g.Kept s.anchors) : g.Kept
    (frameDone n s).anchors := by
  unfold frameDone
  split
  · exact h
  extract_lets v grid p bs s1 s2 s3 s4
  have h2 : s2.anchors = s.anchors := by simp [s2, s1]
  have h3 : g.Kept s3.anchors := writeRecord_kept _ _ _ _ (by rw [State.count_anchors, h2]; exact h)
  have h4 : s4.anchors = s3.anchors := State.count_anchors ..
  clear_value s3 s4
  repeat' split
  · exact h
  · simpa [h4] using h3
  · exact h4 ▸ h3
  · exact h3

@[simp] theorem ispOutRel_anchors (n o : Nat) (v : Word) (s : State) : (ispOutRel n o v s).anchors = s.anchors := by
    simp [ispOutRel]

@[simp] theorem lutData_anchors (w : Option Word) (s : State) : (lutData w s).anchors = s.anchors := by
  unfold lutData
  split <;> simp

@[simp] theorem ccPost_anchors (b : Nat) (v : Word) (s : State) : (ccPost b v s).anchors = s.anchors := by simp [ccPost]

@[simp] theorem ccMemData_anchors (b : Nat) (w : Option Word) (s : State) : (ccMemData b w s).anchors = s.anchors := by
  unfold ccMemData
  split <;> simp

@[simp] theorem addSens_anchors (n : Nat) (e : SensEvt) (s : State) : (addSens n e s).anchors = s.anchors := by simp
    [addSens]

@[simp] theorem packetOut_anchors (b : Nat) (q : CcPacket) (ok : Bool) (s : State) : (packetOut b q ok s).anchors =
    s.anchors := by simp [packetOut]

@[simp] theorem ccPacketDone_anchors (b writes retries : Nat) (ok : Bool) (s : State) :
    (ccPacketDone b writes retries ok s).anchors = s.anchors := by
  unfold ccPacketDone
  split <;> simp

@[simp] theorem ccBusTimeout_anchors (b : Nat) (s : State) : (ccBusTimeout b s).anchors = s.anchors := by
  unfold ccBusTimeout
  dsimp only
  repeat' split
  all_goals simp

end Sys2Proof.Machine
end

section
/-! PROOFS. What the functions of Machine/Video.lean keep: video. -/

namespace Sys2Proof.Machine

@[simp] theorem State.modVid_anchors (s : State) (f : Video → Video) : (State.modVid s f).anchors = s.anchors := by
    simp [State.modVid]

@[simp] theorem State.setEng_anchors (s : State) (e : Nat) (x : DecEng) : (State.setEng s e x).anchors = s.anchors := by
    simp [State.setEng]

@[simp] theorem decStatus_anchors (c : Nat) (s : State) : (decStatus c s).anchors = s.anchors := by simp [decStatus]

@[simp] theorem State.setDec_anchors (s : State) (c : Nat) (x : DecCtx) : (State.setDec s c x).anchors = s.anchors := by
    simp [State.setDec]

@[simp] theorem writePicRecord_kept {g : Anchors} (c : Nat) (bs : List Byte) (s : State) (h : g.Kept s.anchors) :
    g.Kept (writePicRecord c bs s).anchors := by
  unfold writePicRecord
  dsimp only
  repeat' split
  all_goals simp [h]

@[simp] theorem flushOut_anchors (c : Nat) (order : List Nat) (s : State) : (flushOut c order s).anchors = s.anchors := by
    simp [flushOut]

@[simp] theorem joinReady_anchors (c : Nat) (s : State) : (joinReady c s).anchors = s.anchors := by simp [joinReady]

@[simp] theorem auFetch_anchors (c : Nat) (s : State) : (auFetch c s).anchors = s.anchors := by simp [auFetch]

@[simp] theorem auPtrMoved_anchors (c : Nat) (s : State) : (auPtrMoved c s).anchors = s.anchors := by simp [auPtrMoved]

@[simp] theorem engFree_anchors (e : Nat) (s : State) : (engFree e s).anchors = s.anchors := by simp [engFree]

@[simp] theorem decodeStart_kept {g : Anchors} (e : Nat) (info : AuInfo) (s : State) (h : g.Kept s.anchors) : g.Kept
    (decodeStart e info s).anchors := by
  unfold decodeStart
  dsimp only
  repeat' split
  all_goals simp [h]

@[simp] theorem fillSlot_kept {g : Anchors} (c k : Nat) (p : DecPic) (s : State) (h : g.Kept s.anchors) : g.Kept
    (fillSlot c k p s).2.anchors := by simp [fillSlot, h]

@[simp] theorem bumpOut_anchors (c : Nat) (bump : List Nat) (s : State) : (bumpOut c bump s).anchors = s.anchors := by
    simp [bumpOut]

@[simp] theorem decodeDone_kept {g : Anchors} (e : Nat) (info : PicInfo) (s : State) (h : g.Kept s.anchors) :
    g.Kept (decodeDone e info s).anchors := by
  unfold decodeDone
  extract_lets
  split
  · exact h
  extract_lets
  split
  · simp [h]
  extract_lets r t f _ _ _ s1 s2 s3 s4 _
  have ht : t.2.2.anchors = s.anchors :=
    (foldl_keeps (fun a : Bool × Bool × State => a.2.2.anchors) _ (fun a q => by simp) _ _).trans (by simp [r])
  have hf : g.Kept f.2.anchors := fillSlot_kept _ _ _ _ (ht ▸ h)
  have h4 : s4.anchors = f.2.anchors := by simp [s4, s3, s2, s1]
  clear_value f s4
  split
  · exact h
  · simpa [h4] using hf

@[simp] theorem abandon_kept {g : Anchors} (e c unfilled : Nat) (keep : List Nat) (p : DecPic) (s : State)
    (h : g.Kept s.anchors) : g.Kept (abandon e c unfilled keep p s).anchors := by simp [abandon, h]

@[simp] theorem decodeAbandon_kept {g : Anchors} (e unfilled : Nat) (keep : List Nat) (s : State)
    (h : g.Kept s.anchors) : g.Kept (decodeAbandon e unfilled keep s).anchors := by
  unfold decodeAbandon
  dsimp only
  repeat' split
  all_goals simp [h]

@[simp] theorem sliceBoundary_kept {g : Anchors} (e cycles unfilled : Nat) (keep : List Nat) (s : State)
    (h : g.Kept s.anchors) : g.Kept (sliceBoundary e cycles unfilled keep s).anchors := by
  unfold sliceBoundary
  dsimp only
  repeat' split
  all_goals simp [h]

@[simp] theorem cacheLook_anchors (c : Nat) (p : DecPic) (s : State) : (cacheLook c p s).2.anchors = s.anchors :=
  foldl_keeps (fun q : Option (Nat × List Byte) × State => q.2.anchors) _ (fun q w => by simp) _ _

@[simp] theorem popOut_anchors (c : Nat) (s : State) : (popOut c s).anchors = s.anchors := by simp [popOut]

@[simp] theorem dropStalePic_kept {g : Anchors} (c : Nat) (p : DecPic) (s : State) (h : g.Kept s.anchors) : g.Kept
    (dropStalePic c p s).anchors := by simp [dropStalePic, h]

@[simp] theorem takeXfm_anchors (c : Nat) (p : DecPic) (hit : Option (Nat × List Byte)) (s : State) :
    (takeXfm c p hit s).anchors = s.anchors := by simp [takeXfm]

@[simp] theorem xfmStart_kept {g : Anchors} (s : State) (h : g.Kept s.anchors) : g.Kept (xfmStart s).anchors := by
  unfold xfmStart
  dsimp only
  repeat' split
  all_goals simp [h]

@[simp] theorem fillWay_anchors (c : Nat) (p : DecPic) (s : State) : (fillWay c p s).2.anchors = s.anchors :=
  foldl_keeps (fun q : Option (Nat × Nat) × State => q.2.anchors) _ (fun q w => by simp) _ _

@[simp] theorem cacheFill_kept {g : Anchors} (r : XfmRun) (rows : List (List Byte)) (kr4s : Nat) (s : State)
    (h : g.Kept s.anchors) : g.Kept (cacheFill r rows kr4s s).anchors := by
  unfold cacheFill
  extract_lets w s1 x da a b tag t
  have ht : g.Kept t.2.anchors :=
    daWrite_kept _ _ _ _ _ (by simpa using daWrite_kept _ _ _ _ _ (daWrite_kept _ _ _ _ _ (by simpa [s1, w] using h)))
  simpa using ht

@[simp] theorem landPad_kept {g : Anchors} (r : XfmRun) (head : List Byte) (rows : List (List Byte)) (src : Nat) (s : State)
    (h : g.Kept s.anchors) : g.Kept (landPad r head rows src s).anchors := by
  simp [landPad, h]

@[simp] theorem xfmDone_kept {g : Anchors} (s : State) (h : g.Kept s.anchors) : g.Kept (xfmDone s).anchors := by
  unfold xfmDone
  split
  · exact h
  extract_lets c i0 s0 n look hit s1 x t2 pic s2 f pool src s3 rows kr4s want bigger poison keep flags s4 s5 rec64 head landed
    s6 s7 s8
  have h1 : s1.anchors = s.anchors := by
    simp only [s1, look]
    split <;> simp [s0]
  have h2 : s2.anchors = s.anchors := by simp [s2, h1]
  have h3 : s3.anchors = s.anchors := by
    simp only [s3, pool]
    split
    · split <;> simp [h2]
    · exact h2
  have h5 : s5.anchors = s.anchors := by simp [s5, s4, h3]
  clear_value s1 s5
  have hl : g.Kept landed.2.anchors := by
    simp only [landed]
    split
    · exact landPad_kept _ _ _ _ _ (h5 ▸ h)
    · exact daWrite_kept _ _ _ _ _ (h5 ▸ h)
  have h8 : g.Kept s8.anchors := by
    have h7 : g.Kept s7.anchors := by simpa [s7, s6] using hl
    simp only [s8]
    split
    · exact cacheFill_kept _ _ _ _ h7
    · exact h7
  split
  · simp [t2, h1, h]
  · split
    · exact writePicRecord_kept _ _ _ (by simpa using hl)
    · exact writePicRecord_kept _ _ _ h8

@[simp] theorem xfmRel_anchors (c : Nat) (v : Word) (s : State) : (xfmRel c v s).anchors = s.anchors := by simp [xfmRel]

end Sys2Proof.Machine
end

section
/-! PROOFS. What the functions of Machine/Hif.lean keep: the host interface. -/

namespace Sys2Proof.Machine

@[simp] theorem setFnState_anchors (f v : Nat) (s : State) : (setFnState f v s).anchors = s.anchors := by simp [setFnState]

@[simp] theorem hostTlp_kept {g : Anchors} (f : State → State) (s : State) (hf : g.Kept (f s).anchors)
    (h : g.Kept s.anchors) :
    g.Kept (hostTlp f s).anchors := by
  unfold hostTlp
  repeat' split
  all_goals simp [hf, h]

@[simp] theorem badDoorbell_anchors (f : Nat) (s : State) : (badDoorbell f s).anchors = s.anchors := by simp [badDoorbell]

@[simp] theorem wakeContext_anchors (x : Nat) (s : State) : (wakeContext x s).anchors = s.anchors := by simp [wakeContext]

@[simp] theorem sqDoorbell_anchors (f k q : Nat) (v : Word) (s : State) : (sqDoorbell f k q v s).anchors = s.anchors := by
    simp [sqDoorbell]

@[simp] theorem cqDoorbell_anchors (f k : Nat) (v : Word) (s : State) : (cqDoorbell f k v s).anchors = s.anchors := by
    simp [cqDoorbell]

@[simp] theorem msixWrite_anchors (f w : Nat) (v : Word) (s : State) : (msixWrite f w v s).anchors = s.anchors := by
    simp [msixWrite]

@[simp] theorem pcieError_anchors (kind : PcieErr) (s : State) : (pcieError kind s).anchors = s.anchors := by
  unfold pcieError
  split <;> simp

@[simp] theorem aerNonFatal_anchors (s : State) : (aerNonFatal s).anchors = s.anchors := by simp [aerNonFatal]

@[simp] theorem bar2Denied_anchors (f k : Nat) (s : State) : (bar2Denied f k s).anchors = s.anchors := by simp [bar2Denied]

@[simp] theorem respond_anchors (r : Resp) (s : State) : (respond r s).anchors = s.anchors := by simp [respond]

@[simp] theorem bar2Read_anchors (f o n : Nat) (fails : Bool) (s : State) : (bar2Read f o n fails s).anchors =
    s.anchors := by simp [bar2Read]

@[simp] theorem bar2Sectors_kept {g : Anchors} (f da : Nat) (bs : List Byte) (k base : Nat) (s : State)
    (h : g.Kept s.anchors) :
    g.Kept (bar2Sectors f da bs k base s).anchors := by
  induction k generalizing base s with
  | zero => exact h
  | succ k ih =>
    refine ih _ _ (storeSector_kept _ _ _ _ _ ?_)
    split <;> simp [h]

@[simp] theorem bar2Write_kept {g : Anchors} (f o : Nat) (bs : List Byte) (ep fails : Bool) (s : State)
    (h : g.Kept s.anchors) : g.Kept (bar2Write f o bs ep fails s).anchors := by
  unfold bar2Write
  dsimp only
  repeat' split
  all_goals simp [h]

@[simp] theorem entryStart_anchors (id : Nat) (s : State) : (entryStart id s).anchors = s.anchors := by simp [entryStart]

@[simp] theorem withEntry_kept {g : Anchors} (id op : Nat) (f : Entry → State → State) (s : State)
    (hf : ∀ e, g.Kept (f e s).anchors) (h : g.Kept s.anchors) : g.Kept (withEntry id op f s).anchors := by
  unfold withEntry
  repeat' split
  all_goals simp [hf, h]

@[simp] theorem rejectEntry_anchors (e : Entry) (reason sub : Nat) (s : State) : (rejectEntry e reason sub s).anchors =
    s.anchors := by
  unfold rejectEntry
  dsimp only
  repeat' split
  all_goals simp

@[simp] theorem sqFetch_kept {g : Anchors} (cc : Nat) (s : State) (h : g.Kept s.anchors) : g.Kept
    (sqFetch cc s).anchors := by
  unfold sqFetch
  split
  · exact h
  extract_lets _ _ _ _ s0 _ _ r _ _ _ _ t _ s1 s2 s3 s4 c
  have h2 : s2.anchors = s.anchors := by simp [s2, s1, t, r, s0]
  have h3 : g.Kept s3.anchors := writeRun_kept _ _ _ _ _ _ _ _ (h2 ▸ h)
  have h4 : g.Kept s4.anchors := by simpa [s4] using h3
  have hr : r.2.2.2.anchors = s.anchors := by simp [r, s0]
  clear_value r s3 s4
  split
  · simpa [hr] using h
  split
  · simpa using h3
  split
  · simpa using h4
  · simpa [c] using h4

@[simp] theorem completionWrite_kept {g : Anchors} (x q : Nat) (s : State) (h : g.Kept s.anchors) :
    g.Kept (completionWrite x q s).anchors := by
  unfold completionWrite
  dsimp only
  repeat' split
  all_goals simp [h]

@[simp] theorem fence_kept {g : Anchors} (id : Nat) (s : State) (h : g.Kept s.anchors) : g.Kept (fence id s).anchors := by
    simp [fence, h]

@[simp] theorem dmaEntry_kept {g : Anchors} (id : Nat) (s : State) (h : g.Kept s.anchors) : g.Kept
    (dmaEntry id s).anchors := by simp [dmaEntry, h]

@[simp] theorem readBeat_anchors (f k : Nat) (s : State) : (readBeat f k s).2.anchors = s.anchors := by simp [readBeat]

section
variable (f k : Nat) (ks : List Nat) (s : State)

/-- A ring whose word is refused is passed over. (Through the recursor: Lean's own equation lemma evaluates the read.) -/
theorem sampleBeats_none (h : (readBeat f k s).1 = none) :
    sampleBeats f (k :: ks) s = sampleBeats f ks (readBeat f k s).2 := by
  delta sampleBeats
  dsimp only [List.brecOn, List.brecOn.go, List.rec]
  delta sampleBeats._f
  dsimp only
  rw [h]

theorem sampleBeats_some (w : Word) (h : (readBeat f k s).1 = some w) :
    sampleBeats f (k :: ks) s =
      ((sampleBeats f ks ((readBeat f k s).2.modFn f (fun x => { x with beats := Tab.set x.beats k w }))).1
          || Tab.find (s.fn f).beats k != some w,
        (sampleBeats f ks ((readBeat f k s).2.modFn f (fun x => { x with beats := Tab.set x.beats k w }))).2) := by
  delta sampleBeats
  dsimp only [List.brecOn, List.brecOn.go, List.rec]
  delta sampleBeats._f
  dsimp only
  rw [h]

end

@[simp] theorem sampleBeats_anchors (f : Nat) (l : List Nat) (s : State) : (sampleBeats f l s).2.anchors = s.anchors := by
  induction l generalizing s with
  | nil => rfl
  | cons k ks ih =>
    cases hb : (readBeat f k s).1 with
    | none => rw [sampleBeats_none _ _ _ _ hb, ih, readBeat_anchors]
    | some w => rw [sampleBeats_some _ _ _ _ w hb, ih, State.modFn_anchors, readBeat_anchors]

@[simp] theorem drainTenant_kept {g : Anchors} (f : Nat) (s : State) (h : g.Kept s.anchors) :
    g.Kept (drainTenant f s).anchors := by
  unfold drainTenant
  extract_lets held _ s1
  have h1 : g.Kept s1.anchors := by
    refine h.mapJobs _ fun j hj => ?_
    repeat' split
    all_goals exact hj
  clear_value s1
  simpa using h1

@[simp] theorem hostLost_kept {g : Anchors} (f : Nat) (s : State) (h : g.Kept s.anchors) :
    g.Kept (hostLost f s).anchors := by
  simp [hostLost, h]

@[simp] theorem heartbeatSample_kept {g : Anchors} (f : Nat) (s : State) (h : g.Kept s.anchors) :
    g.Kept (heartbeatSample f s).anchors := by
  unfold heartbeatSample
  extract_lets ks s0 r
  have hr : r.2.anchors = s.anchors := by simp [r, s0]
  clear_value r
  split
  · simp [h]
  split
  · split
    · simp [hr, h]
    split <;> simp [hr, h]
  · split <;> simp [hr, h]
  · exact h

end Sys2Proof.Machine
end

section
/-! PROOFS. What the functions of Machine/Ctl.lean keep: contexts and jobs. -/

namespace Sys2Proof.Machine

@[simp] theorem setRange_anchors (n k x lo hi : Nat) (s : State) : (setRange n k x lo hi s).anchors = s.anchors := by
    simp [setRange]

@[simp] theorem clearRange_anchors (n k : Nat) (s : State) : (clearRange n k s).anchors = s.anchors := by simp [clearRange]

@[simp] theorem writeStatus_kept {g : Anchors} (x state : Nat) (r : FaultRec) (clean : Bool) (s : State)
    (h : g.Kept s.anchors) : g.Kept (writeStatus x state r clean s).anchors := by simp [writeStatus, h]

@[simp] theorem mbResult_anchors (r : Nat) (s : State) : (mbResult r s).anchors = s.anchors := by simp [mbResult]

/-- A block that the first fit gives ends within the memory. -/
theorem firstFit_fits {used : List (Nat × Nat)} {unit len total b : Nat} (h : firstFit used unit len total = some b) :
    b + len ≤ total := by
  obtain ⟨i, hi, rfl⟩ := Option.map_eq_some_iff.1 h
  have hp := (leastBelow_some hi).2
  simp only [Bool.and_eq_true, decide_eq_true_eq] at hp
  exact hp.1

theorem State.findPlace_fits {s : State} {n rows regs imem : Nat} {p : Place} (h : s.findPlace n rows regs imem = some p) :
    p.range < 16 ∧ p.regBase + p.regCount ≤ 64 := by
  unfold State.findPlace at h
  dsimp only at h
  split at h
  · rename_i hg _ hk
    cases h
    exact ⟨(leastBelow_some hk).1, firstFit_fits hg⟩
  · cases h

@[simp] theorem cxCreate_kept {g : Anchors} (t k : Nat) (s : State) (h : g.Kept s.anchors) :
    g.Kept (cxCreate t k s).anchors := by
  unfold cxCreate
  extract_lets x a0 a1 n rows regs imem str share da room
  split
  · simp [h]
  split
  · simp [h]
  split
  · simp [h]
  split
  · rename_i ps sb hps _
    have hr : ∀ q ∈ ps, q.1 < 18 ∧ q.2.range < 16 ∧ q.2.regBase + q.2.regCount ≤ 64 := by
      intro q hq
      split at hps
      · cases hps
      cases hps
      obtain ⟨m, hm, hf⟩ := List.mem_filterMap.1 (List.mem_of_mem_take hq)
      split at hf
      · obtain ⟨p, hp, rfl⟩ := Option.map_eq_some_iff.1 hf
        exact ⟨List.mem_range.1 hm, State.findPlace_fits hp⟩
      · cases hf
    extract_lets c s1 s2 s3 s4 s5 s6
    have h1 : g.Kept s1.anchors := by
      refine State.setCtx_kept _ _ _ h (fun _ m hm => ?_) (fun _ p hp => ?_)
      · obtain ⟨q, hq, rfl⟩ := List.mem_map.1 hm
        exact (hr q hq).1.trans (by decide)
      · obtain ⟨q, hq, rfl⟩ := List.mem_map.1 hp
        exact (hr q hq).2
    have h5 : s5.anchors = s1.anchors := by simp [s5, s4, s3, s2]
    have h6 : g.Kept s6.anchors := writeStatus_kept _ _ _ _ _ (h5 ▸ h1)
    simpa using h6
  · simp [h]

@[simp] theorem switchOut_anchors (n : Nat) (s : State) : (switchOut n s).anchors = s.anchors := by
  unfold switchOut
  dsimp only
  repeat' split
  all_goals simp

@[simp] theorem switchIn_anchors (n x : Nat) (s : State) : (switchIn n x s).anchors = s.anchors := by simp [switchIn]

@[simp] theorem switchCore_anchors (n x : Nat) (s : State) : (switchCore n x s).anchors = s.anchors := by simp [switchCore]

@[simp] theorem State.setJob_kept {g : Anchors} (s : State) (j : Job) (h : g.Kept s.anchors) (hj : g.Bounds j.held) :
    g.Kept (s.setJob j).anchors := by
  refine h.mapJobs _ fun b hb => ?_
  split
  · exact hj
  · exact hb

@[simp] theorem setVtTen_anchors (t v : Nat) (s : State) : (setVtTen t v s).anchors = s.anchors := by simp [setVtTen]

@[simp] theorem setVtCtx_anchors (x v : Nat) (s : State) : (setVtCtx x v s).anchors = s.anchors := by simp [setVtCtx]

@[simp] theorem chargeJob_kept {g : Anchors} (aclk : Nat) (s : State) (j : Job) (h : g.Kept s.anchors)
    (hj : g.Bounds j.held) :
    g.Kept (chargeJob aclk s j).anchors := by
  unfold chargeJob
  split
  · exact h
  · exact State.setJob_kept _ _ (by simpa using h) hj

@[simp] theorem chargeAll_kept {g : Anchors} (aclk : Nat) (s : State) (h : g.Kept s.anchors) :
    g.Kept (chargeAll aclk s).anchors :=
  foldl_jobs_kept _ _ (chargeJob_kept aclk) _ (by simpa using h) fun _ hj => h.job_held hj

@[simp] theorem newSlice_kept {g : Anchors} (j : Job) (aclk : Nat) (s : State) (h : g.Kept s.anchors)
    (hj : g.Bounds j.held) :
    g.Kept (newSlice j aclk s).anchors :=
  State.setJob_kept _ _ h hj

@[simp] theorem preempt_kept {g : Anchors} (cs : List Nat) (s : State) (h : g.Kept s.anchors) :
    g.Kept (preempt cs s).anchors := by
  refine foldl_jobs_kept _ _ (fun t j ht hj => ?_) _ h fun _ hj => h.job_held hj
  split
  · simp [ht, hj]
  · exact ht

theorem State.choose_mem {s : State} {l : List Job} {j : Job} (h : s.choose l = some j) : j ∈ l := by
  induction l generalizing j with
  | nil => simp [State.choose] at h
  | cons b l ih =>
    unfold State.choose at h
    split at h
    · simp_all
    · rename_i k hk
      dsimp only at h
      rcases (h ▸ ite_eq_or_eq _ _ _ : some j = some b ∨ some j = some k) with e | e <;> cases e
      · exact List.mem_cons_self
      · exact List.mem_cons_of_mem _ (ih hk)

@[simp] theorem decideLoop_kept {g : Anchors} (aclk fuel : Nat) (cand : List Job) (reserved : List Nat) (s : State)
    (h : g.Kept s.anchors) (hc : ∀ j ∈ cand, g.Bounds j.held) : g.Kept (decideLoop aclk fuel cand reserved s).anchors := by
  induction fuel generalizing cand reserved s with
  | zero => exact h
  | succ fuel ih =>
    unfold decideLoop
    split
    · exact h
    · rename_i j hj
      extract_lets rest cs s1
      have hr : ∀ k ∈ rest, g.Bounds k.held := fun k hk => hc k (List.mem_of_mem_filter hk)
      have hb := hc j (State.choose_mem hj)
      have h1 : g.Kept s1.anchors := by
        simp only [s1]
        repeat' split
        · exact newSlice_kept _ _ _ h hb
        · exact State.setJob_kept _ _ (preempt_kept _ _ h) hb
        · exact h
      split
      · exact ih _ _ _ h hr
      · exact ih _ _ _ h1 hr

@[simp] theorem setGangs_anchors (g fuel : Nat) (cs : List Nat) (s : State) : (setGangs g fuel cs s).anchors =
    s.anchors := by
  induction fuel generalizing cs s with
  | zero => rfl
  | succ k ih =>
    unfold setGangs
    dsimp only
    split
    · rfl
    · exact (ih _ _).trans (by simp)

@[simp] theorem startCore_anchors (j : Job) (s : State) (n : Nat) : (startCore j s n).anchors = s.anchors := by simp
    [startCore]

@[simp] theorem runJob_kept {g : Anchors} (aclk : Nat) (j : Job) (s : State) (h : g.Kept s.anchors) :
    g.Kept (runJob aclk j s).anchors := by
  unfold runJob
  extract_lets cs s1 t0 s2 s3
  have h3 : s3.anchors = s.anchors := by simp [s3, s2, t0, s1]
  exact newSlice_kept _ _ _ (h3 ▸ h) (h.jobCores j)

@[simp] theorem pumpJobs_kept {g : Anchors} (aclk : Nat) (s : State) (h : g.Kept s.anchors) :
    g.Kept (pumpJobs aclk s).anchors := by
  refine foldl_jobs_kept _ _ (fun t j ht hj => ?_) _ h fun _ hj => h.job_held hj
  dsimp only
  repeat' split
  all_goals simp [ht]

@[simp] theorem schedule_kept {g : Anchors} (aclk : Nat) (s : State) (h : g.Kept s.anchors) :
    g.Kept (schedule aclk s).anchors := by
  have h1 := chargeAll_kept aclk s h
  exact pumpJobs_kept _ _ (decideLoop_kept _ _ _ _ _ h1 fun j hj => h1.job_held (List.mem_of_mem_filter hj))

@[simp] theorem wakeVt_anchors (x : Nat) (s : State) : (wakeVt x s).anchors = s.anchors := by simp [wakeVt]

@[simp] theorem jobEntry_kept {g : Anchors} (id aclk : Nat) (s : State) (h : g.Kept s.anchors) :
    g.Kept (jobEntry id aclk s).anchors := by
  refine withEntry_kept _ _ _ _ (fun e => ?_) h
  dsimp only
  split
  · exact h
  · have hw : g.Kept (wakeVt e.ctx (chargeAll aclk s)).anchors := by simp [h]
    refine schedule_kept _ _ (hw.setJobs _ (fun j hj => ?_) rfl)
    rcases List.mem_append.1 hj with hj | hj
    · exact hw.job_held hj
    · rw [List.mem_singleton.1 hj]
      exact .nil g

@[simp] theorem sliceEnd_kept {g : Anchors} (id aclk : Nat) (s : State) (h : g.Kept s.anchors) :
    g.Kept (sliceEnd id aclk s).anchors := by
  unfold sliceEnd
  repeat' split
  all_goals simp [h]

@[simp] theorem contextSwitch_kept {g : Anchors} (n aclk : Nat) (s : State) (h : g.Kept s.anchors) :
    g.Kept (contextSwitch n aclk s).anchors := by
  unfold contextSwitch
  split
  · simp [h]
  · rename_i j hj
    split
    · exact h
    · extract_lets s1 hd
      have h1 : g.Kept s1.anchors := chargeJob_kept _ _ _ (by simpa using h) (h.job_held (List.mem_of_find?_eq_some hj))
      clear_value s1
      split
      · exact h1
      · rename_i k hk
        exact pumpJobs_kept _ _ (State.setJob_kept _ _ h1 ((h1.job_held (State.job_mem hk)).filter _))

@[simp] theorem dropJob_kept {g : Anchors} (j : Job) (s : State) (h : g.Kept s.anchors) : g.Kept (dropJob j s).anchors := by
  unfold dropJob
  extract_lets s1
  have h1 : g.Kept s1.anchors := h.setJobs _ (fun j hj => h.job_held (List.mem_of_mem_filter hj)) rfl
  clear_value s1
  split <;> simp [h1]

@[simp] theorem jobDone_kept {g : Anchors} (id aclk : Nat) (s : State) (h : g.Kept s.anchors) :
    g.Kept (jobDone id aclk s).anchors := by
  unfold jobDone
  split
  · exact h
  · dsimp only
    split
    · refine schedule_kept _ _ ?_
      simpa using dropJob_kept _ _ (chargeAll_kept aclk s h)
    · exact h

@[simp] theorem jobLimit_kept {g : Anchors} (id aclk : Nat) (s : State) (h : g.Kept s.anchors) :
    g.Kept (jobLimit id aclk s).anchors := by
  unfold jobLimit
  split
  · exact h
  · split
    · rw [State.modCtx_anchors _ _ rfl rfl]
      simp [h]
    · exact h

@[simp] theorem withControl_kept {g : Anchors} (id cmd : Nat) (f : Entry → State → State) (s : State)
    (hf : ∀ e, g.Kept (f e s).anchors) (h : g.Kept s.anchors) : g.Kept (withControl id cmd f s).anchors :=
  withEntry_kept _ _ _ _ (fun e => by split <;> simp [hf, h]) h

@[simp] theorem streamWrite_kept {g : Anchors} (id : Nat) (s : State) (h : g.Kept s.anchors) :
    g.Kept (streamWrite id s).anchors := by
  refine withControl_kept _ _ _ _ (fun e => ?_) h
  dsimp only
  repeat' split
  all_goals simp [h]

@[simp] theorem streamOp_kept {g : Anchors} (id : Nat) (s : State) (h : g.Kept s.anchors) :
    g.Kept (streamOp id s).anchors := by
  refine withControl_kept _ _ _ _ (fun e => ?_) h
  dsimp only
  repeat' split
  all_goals simp [h]

@[simp] theorem hostCommit_anchors (e : Entry) (base : Nat) (ws : List RWrite) (s : State) :
    (hostCommit e base ws s).anchors = s.anchors := by simp [hostCommit]

@[simp] theorem regionEntry_kept {g : Anchors} (id : Nat) (s : State) (h : g.Kept s.anchors) : g.Kept
    (regionEntry id s).anchors := by simp [regionEntry, h]

@[simp] theorem modelEntry_kept {g : Anchors} (id : Nat) (s : State) (h : g.Kept s.anchors) : g.Kept
    (modelEntry id s).anchors := by simp [modelEntry, h]

@[simp] theorem shareEntry_kept {g : Anchors} (id : Nat) (s : State) (h : g.Kept s.anchors) : g.Kept
    (shareEntry id s).anchors := by simp [shareEntry, h]

@[simp] theorem accountEntry_kept {g : Anchors} (id : Nat) (s : State) (h : g.Kept s.anchors) :
    g.Kept (accountEntry id s).anchors := by
  refine withControl_kept _ _ _ _ (fun e => ?_) h
  dsimp only
  split <;> simp [h]

@[simp] theorem clearBlocks_kept {g : Anchors} (x : Nat) (s : State) (h : g.Kept s.anchors) :
    g.Kept (clearBlocks x s).anchors := by
  unfold clearBlocks
  extract_lets c s1 s2 mine
  have h1 : g.Kept s1.anchors := by
    refine foldl_kept _ (fun t i => ?_) _ _ h
    extract_lets n p t1 t2
    have ht : t.anchors.Kept t1.anchors := (Anchors.Kept.refl _).setSpad _ _ (Memory.wf_zero _ _ _)
    clear_value t1
    split <;> simpa [t2] using ht
  have h2 : s2.anchors = s1.anchors := State.modCtx_anchors _ _ rfl rfl
  clear_value s2
  simpa [h2] using h1

@[simp] theorem stopContext_kept {g : Anchors} (x : Nat) (s : State) (h : g.Kept s.anchors) :
    g.Kept (stopContext x s).anchors := by
  simp [stopContext, h]

@[simp] theorem disableQueues_anchors (x : Nat) (s : State) : (disableQueues x s).anchors = s.anchors := by simp
    [disableQueues]

@[simp] theorem failEntries_anchors (x code sub : Nat) (s : State) : (failEntries x code sub s).anchors = s.anchors := by
    simp [failEntries]

@[simp] theorem finishTeardown_kept {g : Anchors} (x : Nat) (signal : Bool) (s : State) (h : g.Kept s.anchors) :
    g.Kept (finishTeardown x signal s).anchors := by
  unfold finishTeardown
  extract_lets r s1 s2 s3 s4
  have h3 : g.Kept s3.anchors := by simp [s3, s2, s1, h]
  have h4 : s4.anchors = s3.anchors := State.modCtx_anchors _ _ rfl rfl
  clear_value s4
  split <;> simpa [h4] using h3

@[simp] theorem teardown_kept {g : Anchors} (x aclk : Nat) (s : State) (h : g.Kept s.anchors) :
    g.Kept (teardown x aclk s).anchors := by
  unfold teardown
  extract_lets c
  split
  · exact h
  extract_lets tag s0 s1
  have h0 : s0.anchors = (chargeAll aclk s).anchors := State.modCtx_anchors _ _ rfl rfl
  clear_value s0
  split
  · exact h
  split
  · split <;> simp [h]
  · refine schedule_kept _ _ ?_
    rw [State.count_anchors]
    exact stopContext_kept _ _ (by simp [s1, h0, h])

@[simp] theorem tearSilent_kept {g : Anchors} (x code : Nat) (s : State) (h : g.Kept s.anchors) :
    g.Kept (tearSilent x code s).anchors := by
  unfold tearSilent
  extract_lets c r s1 hf s2
  have h0 : (s.modCtx x (fun c => { c with fault := some r })).anchors = s.anchors := State.modCtx_anchors _ _ rfl rfl
  have h1 : g.Kept s1.anchors := stopContext_kept _ _ (h0 ▸ h)
  clear_value s1
  exact finishTeardown_kept _ _ _ (by simpa [s2] using h1)

@[simp] theorem freeContext_kept {g : Anchors} (x : Nat) (s : State) (h : g.Kept s.anchors) :
    g.Kept (freeContext x s).anchors := by
  unfold freeContext
  extract_lets c s1 s2 f s3
  have h1 : s1.anchors = s.anchors := by
    refine foldl_anchors _ _ _ fun t i => ?_
    split <;> simp
  have h3 : g.Kept s3.anchors := by simpa [s3, s2, h1] using h
  refine h3.setCtxs _ (fun y => ?_) (fun y => ?_) <;> rw [Tab.get, Tab.find_del] <;> split
  · exact .nil g
  · exact h3.ctx_cores y
  · exact fun _ p hp => absurd hp List.not_mem_nil
  · exact h3.ctx_place y

@[simp] theorem cxDestroy_kept {g : Anchors} (t k : Nat) (s : State) (h : g.Kept s.anchors) :
    g.Kept (cxDestroy t k s).anchors := by
  unfold cxDestroy
  extract_lets x
  split
  · simp [h]
  · rw [mbResult_anchors]
    exact schedule_kept _ _ (freeContext_kept _ _ (tearSilent_kept _ _ _ h))

@[simp] theorem resume_kept {g : Anchors} (f : Nat) (s : State) (h : g.Kept s.anchors) : g.Kept (resume f s).anchors := by
  unfold resume
  extract_lets now s1 taken s2
  have h1 : g.Kept s1.anchors := by simp [s1, h]
  have h2 : g.Kept s2.anchors := by
    refine foldl_jobs_kept _ _ (fun t j ht hj => ?_) _ h1 fun _ hj => h1.job_held hj
    split
    · simp [ht, hj]
    · exact ht
  split
  · exact schedule_kept _ _ h2
  · simp [h]

@[simp] theorem copySlots_anchors (a b first k : Nat) (s : State) : (copySlots a b first k s).anchors = s.anchors := by
    simp [copySlots]

@[simp] theorem xcopy_anchors (v : Word) (s : State) : (xcopy v s).anchors = s.anchors := by simp [xcopy]

@[simp] theorem copyRows_kept {g : Anchors} (a b first k : Nat) (s : State) (h : g.Kept s.anchors) :
    g.Kept (copyRows a b first k s).anchors := by
  simp [copyRows, h]

@[simp] theorem copyRegions_anchors (a b first k : Nat) (s : State) : (copyRegions a b first k s).anchors = s.anchors := by
    simp [copyRegions]

theorem moveContext_kept {g : Anchors} (x a b aclk : Nat) (s : State) (hb : b < 32) (h : g.Kept s.anchors) :
    g.Kept (moveContext x a b aclk s).anchors := by
  unfold moveContext
  extract_lets c s0
  split
  · exact h
  extract_lets p s1
  split
  · exact h
  rename_i k hk
  have hk16 : k < 16 := by
    unfold State.samePlace at hk
    dsimp only at hk
    split at hk
    · exact (leastBelow_some hk).1
    · cases hk
  extract_lets s2 s3 s4
  have h0 : s0.anchors = s.anchors := by
    simp only [s0]
    split <;> simp
  have h1 : g.Kept s1.anchors := copyRows_kept _ _ _ _ _ (by simpa [h0] using h)
  have h2 : g.Kept s2.anchors := by simpa [s2] using h1
  have h3 : g.Kept s3.anchors := by
    refine State.setCtx_kept _ _ _ h2 (fun q m hm => ?_) (fun q m hm => ?_)
    · rcases mem_modNth hm with e | ⟨y, -, rfl⟩
      · exact h2.ctx_cores x q m e
      · exact hb
    · rcases mem_modNth hm with e | ⟨y, hy, rfl⟩
      · exact h2.ctx_place x q m e
      · exact ⟨hk16, (h2.ctx_place x q y hy).2⟩
  have h4 : g.Kept s4.anchors := by
    refine h3.mapJobs _ fun j hj => ?_
    split
    · exact .nil g
    · exact hj
  exact pumpJobs_kept _ _ (by simpa using h4)

@[simp] theorem rotationExchange_kept {g : Anchors} (x a : Nat) (b : Fin 18) (aclk : Nat) (s : State)
    (h : g.Kept s.anchors) :
    g.Kept (rotationExchange x a b aclk s).anchors := by
  unfold rotationExchange
  split
  · exact moveContext_kept _ _ _ _ _ (by omega) (chargeAll_kept _ _ h)
  · exact h

end Sys2Proof.Machine
end

section
/-! PROOFS. What the functions of Machine/Rel.lean keep: reliability. -/

namespace Sys2Proof.Machine

@[simp] theorem State.modRel_anchors (s : State) (f : Rel → Rel) : (State.modRel s f).anchors = s.anchors := by simp
    [State.modRel]

@[simp] theorem programEntries_anchors (k : Nat) (s : State) : (programEntries k s).anchors = s.anchors := by simp
    [programEntries]

@[simp] theorem logPageDone_anchors (k : Nat) (s : State) : (logPageDone k s).anchors = s.anchors := by simp [logPageDone]

@[simp] theorem logFlush_anchors (s : State) : (logFlush s).anchors = s.anchors := by simp [logFlush]

@[simp] theorem eraseDone_anchors (s : State) : (eraseDone s).anchors = s.anchors := by simp [eraseDone]

@[simp] theorem recResult_anchors (state result : Nat) (s : State) : (recResult state result s).anchors = s.anchors := by
    simp [recResult]

@[simp] theorem updResult_anchors (state result : Nat) (s : State) : (updResult state result s).anchors = s.anchors := by
    simp [updResult]

@[simp] theorem updDone_anchors (s : State) : (updDone s).anchors = s.anchors := by simp [updDone]

@[simp] theorem recordWritten_anchors (s : State) : (recordWritten s).anchors = s.anchors := by
  unfold recordWritten
  dsimp only
  split
  · rfl
  · split <;> simp
  · simp
  · by_cases hs : s.idleSlot = 0 <;> simp [hs]
  · simp
  · simp

@[simp] theorem recordFailed_anchors (s : State) : (recordFailed s).anchors = s.anchors := by
  unfold recordFailed
  dsimp only
  split <;> simp

@[simp] theorem flashDone_anchors (log : Bool) (s : State) : (flashDone log s).anchors = s.anchors := by
  unfold flashDone
  split
  · split <;> simp
  · simp

@[simp] theorem flashTimeout_anchors (log : Bool) (s : State) : (flashTimeout log s).anchors = s.anchors := by
  unfold flashTimeout
  repeat' split
  all_goals simp

@[simp] theorem powerFail_anchors (rail : Option Nat) (s : State) : (powerFail rail s).anchors = s.anchors := by
  unfold powerFail
  split <;> simp

@[simp] theorem pwrFailFall_anchors (s : State) : (pwrFailFall s).anchors = s.anchors := by simp [pwrFailFall]

@[simp] theorem pwrFailRise_anchors (s : State) : (pwrFailRise s).anchors = s.anchors := by simp [pwrFailRise]

@[simp] theorem windowEnd_anchors (k : Nat) (s : State) : (windowEnd k s).anchors = s.anchors := by
  unfold windowEnd
  split <;> simp

@[simp] theorem wearSnapshot_anchors (n : Nat) (s : State) : (wearSnapshot n s).anchors = s.anchors := by simp [wearSnapshot]

@[simp] theorem svcWrite_anchors (v : Word) (s : State) : (svcWrite v s).anchors = s.anchors := by simp [svcWrite]

@[simp] theorem laneTest_anchors (n : Nat) (fails : Bool) (s : State) : (laneTest n fails s).anchors = s.anchors := by
    simp [laneTest]

@[simp] theorem markRetired_anchors (n why : Nat) (s : State) : (markRetired n why s).anchors = s.anchors := by simp
    [markRetired]

@[simp] theorem svcCores_anchors (s : State) : (svcCores s).anchors = s.anchors := by simp [svcCores]

@[simp] theorem spreadContexts_kept {g : Anchors} (n aclk : Nat) (s : State) (h : g.Kept s.anchors) :
    g.Kept (spreadContexts n aclk s).anchors := by
  refine foldl_kept _ (fun t x => ?_) _ _ h
  split
  · rename_i m hm
    have := (leastBelow_some hm).1
    exact moveContext_kept _ _ _ _ _ (by omega) (.refl _)
  · exact .refl _

@[simp] theorem coreRetire_kept {g : Anchors} (n : Nat) (pass : Bool) (aclk : Nat) (s : State) (h : g.Kept s.anchors) :
    g.Kept (coreRetire n pass aclk s).anchors := by
  unfold coreRetire
  extract_lets why
  split
  · exact h
  split
  · simp [h]
  split
  · exact h
  split
  · simp [h]
  split
  · simp [h]
  · rename_i k hk
    have := (leastBelow_some hk).1
    extract_lets s1 s2
    have h2 : s2.anchors = s.anchors := by simp [s2, s1]
    clear_value s2
    split
    · simp [h]
    split
    · simp [h]
    · exact foldl_kept _ (fun t x => moveContext_kept _ _ _ _ _ (by omega) (.refl _)) _ _ (h2 ▸ h)

@[simp] theorem maintDrain_kept {g : Anchors} (n : Nat) (pass : Bool) (aclk : Nat) (s : State) (h : g.Kept s.anchors) :
    g.Kept (maintDrain n pass aclk s).anchors := by
  unfold maintDrain
  dsimp only
  repeat' split
  all_goals simp [h]

@[simp] theorem policyChange_kept {g : Anchors} (aclk : Nat) (s : State) (h : g.Kept s.anchors) :
    g.Kept (policyChange aclk s).anchors := by
  unfold policyChange
  extract_lets reserve busy _ s1 out s2 s3
  have h1 : g.Kept s1.anchors := by simp [s1, h]
  have h2 : g.Kept s2.anchors := by
    simp only [s2]
    split
    · exact foldl_kept _ (fun t n => spreadContexts_kept _ _ _ (by simp)) _ _ h1
    · refine foldl_kept _ (fun t n => ?_) _ _ h1
      split <;> simp
  have h3 : s3.anchors = s2.anchors := by simp [s3]
  split
  · exact h
  · exact schedule_kept _ _ (by simpa [h3] using h2)

@[simp] theorem ccoreCounts_anchors (k : Nat) (s : State) : (ccoreCounts k s).anchors = s.anchors := by simp [ccoreCounts]

@[simp] theorem sramSingle_anchors (k : Nat) (s : State) : (sramSingle k s).anchors = s.anchors := by simp [sramSingle]

@[simp] theorem reassign_anchors (k : Nat) (f : State → Nat) (s : State) : (reassign k f s).anchors = s.anchors := by
    simp [reassign]

@[simp] theorem giveRoles_anchors (k m : Nat) (s : State) : (giveRoles k m s).anchors = s.anchors := by simp [giveRoles]

@[simp] theorem setActive_anchors (k : Nat) (on : Bool) (s : State) : (setActive k on s).anchors = s.anchors := by
    simp [setActive]

@[simp] theorem ccoreFail_anchors (k : Nat) (bist : Bool) (s : State) : (ccoreFail k bist s).anchors = s.anchors := by
  unfold ccoreFail
  dsimp only
  repeat' split
  all_goals simp

@[simp] theorem replayEntry_anchors (s : State) (e : LogEntry) : (replayEntry s e).anchors = s.anchors := by
  unfold replayEntry
  dsimp only
  repeat' split
  all_goals simp

@[simp] theorem replayLog_anchors (s : State) : (replayLog s).anchors = s.anchors := by simp [replayLog]

end Sys2Proof.Machine
end

section
/-! PROOFS. What the functions of Machine/Ploem.lean keep: the Ploem links. -/

namespace Sys2Proof.Machine

@[simp] theorem State.setPort_anchors (s : State) (p : Nat) (x : PlmPort) : (State.setPort s p x).anchors = s.anchors := by
    simp [State.setPort]

@[simp] theorem State.modPort_anchors (s : State) (p : Nat) (f : PlmPort → PlmPort) : (State.modPort s p f).anchors =
    s.anchors := by simp [State.modPort]

@[simp] theorem setPortState_anchors (p v : Nat) (s : State) : (setPortState p v s).anchors = s.anchors := by simp
    [setPortState]

@[simp] theorem sendFlits_anchors (p k : Nat) (s : State) : (sendFlits p k s).anchors = s.anchors := by simp [sendFlits]

@[simp] theorem sendOne_anchors (p v : Nat) (s : State) : (sendOne p v s).anchors = s.anchors := by simp [sendOne]

@[simp] theorem pumpFwd_anchors (p : Nat) (l : List (Nat × Nat × Nat)) (s : State) : (pumpFwd p l s).anchors =
    s.anchors := by
  induction l generalizing s with
  | nil => simp [pumpFwd]
  | cons f fs ih =>
    unfold pumpFwd
    split
    · exact (ih _).trans (by simp)
    · simp

@[simp] theorem pumpAll_anchors (s : State) : (pumpAll s).anchors = s.anchors := by simp [pumpAll]

@[simp] theorem failPort_anchors (p : Nat) (s : State) : (failPort p s).anchors = s.anchors := by simp [failPort]

@[simp] theorem retrain_anchors (p : Nat) (s : State) : (retrain p s).anchors = s.anchors := by simp [retrain]

@[simp] theorem replay_anchors (p : Nat) (s : State) : (replay p s).anchors = s.anchors := by simp [replay]

@[simp] theorem replayTimeout_anchors (p : Nat) (s : State) : (replayTimeout p s).anchors = s.anchors := by simp
    [replayTimeout]

@[simp] theorem laneFail_anchors (p l : Nat) (s : State) : (laneFail p l s).anchors = s.anchors := by simp [laneFail]

@[simp] theorem trainingDone_anchors (p : Nat) (l0 l1 : Bool) (partner : LinkInfo) (s : State) :
    (trainingDone p l0 l1 partner s).anchors = s.anchors := by
  unfold trainingDone
  dsimp only
  repeat' split
  all_goals simp

@[simp] theorem portCtrlChanged_anchors (p : Nat) (s : State) : (portCtrlChanged p s).anchors = s.anchors := by simp
    [portCtrlChanged]

@[simp] theorem testArrives_anchors (p seq : Nat) (differs : Bool) (s : State) : (testArrives p seq differs s).anchors =
    s.anchors := by simp [testArrives]

@[simp] theorem testFlitSend_anchors (p : Nat) (s : State) : (testFlitSend p s).anchors = s.anchors := by
  unfold testFlitSend
  dsimp only
  repeat' split
  all_goals simp

@[simp] theorem issueColl_anchors (n kind : Nat) (s : State) : (issueColl n kind s).anchors = s.anchors := by
  refine issueInstr_anchors _ _ _ _ fun x p d => ?_
  dsimp only
  split <;> simp

@[simp] theorem State.setRuns_anchors (s : State) (l : List CollRun) : (State.setRuns s l).anchors = s.anchors := by
    simp [State.setRuns]

@[simp] theorem digestFail_anchors (r : CollRun) (cnt attempts sub : Nat) (s : State) :
    (digestFail r cnt attempts sub s).anchors = s.anchors := by simp [digestFail]

@[simp] theorem dieAttempts_kept {g : Anchors} (r : CollRun) (k : Nat) (go : State → State) (s : State)
    (hgo : ∀ t : State, t.anchors.Kept (go t).anchors) (h : g.Kept s.anchors) :
    g.Kept (dieAttempts r k go s).anchors := by
  unfold dieAttempts
  dsimp only
  split
  · simp [h]
  · exact .trans (by simp [h]) (hgo _)

@[simp] theorem collStart_kept {g : Anchors} (n fails : Nat) (par : Option (Nat × Bool)) (s : State) (h : g.Kept s.anchors) :
    g.Kept (collStart n fails par s).anchors := by
  unfold collStart
  split
  · exact h
  split
  · exact h
  extract_lets k busy _ s0 members differ fs r
  have h0 : s0.anchors = s.anchors := by simp [s0]
  split
  · exact h
  split
  · simpa [h0] using h
  refine dmaParity_kept _ _ _ _ _ _ (fun u => dieAttempts_kept _ _ _ _ (fun t => ?_) (.refl _)) (by simpa [h0] using h)
  exact .of_eq (by simp)

@[simp] theorem State.setRun_anchors (s : State) (r : CollRun) : (State.setRun s r).anchors = s.anchors := by simp
    [State.setRun]

@[simp] theorem forgetChunk_anchors (p : Nat) (c : ChunkIn) (s : State) : (forgetChunk p c s).anchors = s.anchors := by
    simp [forgetChunk]

@[simp] theorem chunkReceive_anchors (p tenant ctag chunk row : Nat) (add last onward sumBad : Bool) (s : State) :
    (chunkReceive p tenant ctag chunk row add last onward sumBad s).anchors = s.anchors := by
  unfold chunkReceive
  dsimp only
  repeat' split
  all_goals simp

@[simp] theorem collOut_kept {g : Anchors} (r : CollRun) (s : State) (m : (CollPost × Rgn) × Nat) (h : g.Kept s.anchors) :
    g.Kept (collOut r s m).anchors := by
  unfold collOut
  extract_lets _ _ _ _ _ s1 s2 s3
  have h1 : g.Kept s1.anchors := by
    refine foldl_kept _ (fun t e => ?_) _ _ h
    split
    · rw [State.drew_anchors]
      exact t.writeRow_keeps _ _ _ _
    · exact .refl _
  have h3 : s3.anchors = s1.anchors := by simp [s3, s2]
  simpa [h3] using h1

@[simp] theorem collComplete_kept {g : Anchors} (n fails : Nat) (s : State) (h : g.Kept s.anchors) :
    g.Kept (collComplete n fails s).anchors := by
  unfold collComplete
  split
  · exact h
  refine dieAttempts_kept _ _ _ _ (fun t => ?_) h
  extract_lets t1
  have h1 : t.anchors.Kept t1.anchors := foldl_kept _ (fun u q => collOut_kept _ _ _ (.refl _)) _ _ (.refl _)
  clear_value t1
  simpa using h1

@[simp] theorem collTimeout_anchors (x : Nat) (s : State) : (collTimeout x s).anchors = s.anchors := by
  unfold collTimeout
  dsimp only
  repeat' split
  all_goals simp

@[simp] theorem nakFlit_anchors (p : Nat) (s : State) : (nakFlit p s).anchors = s.anchors := by simp [nakFlit]

@[simp] theorem flitLink_anchors (p : Nat) (f : Flit) (s : State) : (flitLink p f s).anchors = s.anchors := by simp
    [flitLink]

@[simp] theorem chunkFlit_anchors (p : Nat) (f : Flit) (s : State) : (chunkFlit p f s).anchors = s.anchors := by simp
    [chunkFlit]

@[simp] theorem flitAccept_anchors (p : Nat) (f : Flit) (testBad : Bool) (s : State) :
    (flitAccept p f testBad s).anchors = s.anchors := by
  unfold flitAccept
  dsimp only
  repeat' split
  all_goals simp

@[simp] theorem flitReceive_anchors (p : Nat) (f : Flit) (crcOk fecOk : Bool) (corr : Nat) (testBad : Bool)
    (s : State) : (flitReceive p f crcOk fecOk corr testBad s).anchors = s.anchors := by simp [flitReceive]

end Sys2Proof.Machine
end

section
/-! PROOFS. What the functions of Machine/Fabric.lean keep: the fabric. -/

namespace Sys2Proof.Machine

@[simp] theorem walkGo_anchors (v : Word) (s : State) : (walkGo v s).anchors = s.anchors := by simp [walkGo]

@[simp] theorem walkDone_anchors (pass : Bool) (s : State) : (walkDone pass s).anchors = s.anchors := by simp [walkDone]

@[simp] theorem crcInj_anchors (v : Word) (s : State) : (crcInj v s).anchors = s.anchors := by simp [crcInj]

@[simp] theorem fabricBeat_anchors (k dir bad : Nat) (row : Option (Nat × Nat)) (s : State) :
    (fabricBeat k dir bad row s).anchors = s.anchors := by
  unfold fabricBeat
  split <;> simp

@[simp] theorem d2dRetrain_anchors (v : Word) (s : State) : (d2dRetrain v s).anchors = s.anchors := by simp [d2dRetrain]

@[simp] theorem d2dDone_anchors (s : State) : (d2dDone s).anchors = s.anchors := by simp [d2dDone]

@[simp] theorem d2dLaneFail_anchors (training : Bool) (s : State) : (d2dLaneFail training s).anchors = s.anchors := by
    simp [d2dLaneFail]

end Sys2Proof.Machine
end

section
/-! PROOFS. What the functions of Machine/Sec.lean keep: security. -/

namespace Sys2Proof.Machine

@[simp] theorem State.modSec_anchors (s : State) (f : Sec → Sec) : (State.modSec s f).anchors = s.anchors := by simp
    [State.modSec]

@[simp] theorem refuseRecord_anchors (result : Nat) (s : State) : (refuseRecord result s).anchors = s.anchors := by
    simp [refuseRecord]

theorem recResult_setNext_anchors (k : FlashRec) (s : State) :
    (recResult 2 0 (s.modFlash (fun f => { f with next := k, retried := false }))).anchors = s.anchors := by
  simp

@[simp] theorem writeRecord'_anchors (t : Nat) (keyOk sigOk : Bool) (s : State) :
    (writeRecord' t keyOk sigOk s).anchors = s.anchors := by
  unfold writeRecord'
  extract_lets da n r s1
  have h1 : s1.anchors = s.anchors := fwRead_anchors _ _ _
  clear_value r s1
  split
  · rfl
  split
  · simp
  split
  · simp [h1]
  split
  · simp [h1]
  · exact (recResult_setNext_anchors _ _).trans h1

@[simp] theorem arRegs_anchors (s : State) : (arRegs s).anchors = s.anchors := by simp [arRegs]

@[simp] theorem arRaise_kept {g : Anchors} (revoke : Nat) (s : State) (h : g.Kept s.anchors) :
    g.Kept (arRaise revoke s).anchors := by
  unfold arRaise
  split
  · exact h
  · simp only [iter_anchors, logEntry_anchors, implies_true, State.count_anchors, arRegs_anchors]
    exact h.trans ⟨⟨rfl, fun _ h => h, le_max_left .., le_max_left .., le_max_left .., by
      simp only [State.anchors, ← Nat.or_assoc, Nat.or_self], id, id, id, id, id⟩, le_rfl⟩

@[simp] theorem idRegs_anchors (s : State) : (idRegs s).anchors = s.anchors := by
  unfold idRegs
  split <;> simp

@[simp] theorem provision_kept {g : Anchors} (s : State) (h : g.Kept s.anchors) : g.Kept (provision s).anchors := by
  unfold provision
  split
  · exact h
  · rename_i hn
    simp only [idRegs_anchors, State.drew_anchors]
    refine h.trans ⟨⟨rfl, fun i hi => absurd hi ?_, le_rfl, le_rfl, le_rfl, Nat.or_self _, id, id, id, id, id⟩, le_rfl⟩
    have hi : s.flash.ident = none := by simpa using hn
    simp [State.anchors, hi]

@[simp] theorem attGo_anchors (iid : Nat) (v : Word) (s : State) : (attGo iid v s).anchors = s.anchors := by simp [attGo]

@[simp] theorem attDone_anchors (s : State) : (attDone s).anchors = s.anchors := by simp [attDone]

@[simp] theorem attRead_anchors (s : State) : (attRead s).anchors = s.anchors := by simp [attRead]

@[simp] theorem idRead_anchors (s : State) : (idRead s).anchors = s.anchors := by simp [idRead]

@[simp] theorem setKeyState_anchors (t v : Nat) (s : State) : (setKeyState t v s).anchors = s.anchors := by simp
    [setKeyState]

@[simp] theorem fillKey_anchors (slot : Nat) (s : State) : (fillKey slot s).anchors = s.anchors := by simp [fillKey]

@[simp] theorem eraseKey_anchors (slot : Nat) (s : State) : (eraseKey slot s).anchors = s.anchors := by simp [eraseKey]

@[simp] theorem walkProg_anchors (p g : Nat) (s : State) : (walkProg p g s).anchors = s.anchors := by simp [walkProg]

@[simp] theorem walkFrom_anchors (t p fuel : Nat) (s : State) : (walkFrom t p fuel s).anchors = s.anchors := by
  induction fuel generalizing t p s with
  | zero => rfl
  | succ k ih =>
    unfold walkFrom
    dsimp only
    split
    · simp
    · split
      · simp
      · exact (ih _ _ _).trans (by simp)

@[simp] theorem walkStart_anchors (s : State) : (walkStart s).anchors = s.anchors := by
  unfold walkStart
  split <;> simp

@[simp] theorem rotateGo_anchors (v : Word) (s : State) : (rotateGo v s).anchors = s.anchors := by simp [rotateGo]

@[simp] theorem walkRead_anchors (t k da : Nat) (os : List SectorRead) (s : State) :
    (walkRead t k da os s).2.anchors = s.anchors := by
  induction k generalizing da os s with
  | zero => rfl
  | succ k ih => exact (ih _ _ _).trans (by simp)

@[simp] theorem walkStore_kept {g : Anchors} (t da : Nat) (q : List Byte × Nat) (s : State) (h : g.Kept s.anchors) :
    g.Kept (walkStore t da q s).anchors := by
  have h1 : g.Kept ({ s with da := Memory.writeList s.da da (q.1.take 512) } : State).anchors :=
    h.setDa _ (Memory.wf_writeList _ _ _)
  unfold walkStore
  dsimp only
  split <;> simpa using h1

@[simp] theorem walkStores_kept {g : Anchors} (t da : Nat) (l : List (List Byte × Nat)) (s : State) (h : g.Kept s.anchors) :
    g.Kept (walkStores t da l s).anchors := by
  induction l generalizing da s with
  | nil => exact h
  | cons q qs ih => exact ih _ _ (walkStore_kept _ _ _ _ h)

@[simp] theorem walkGranule_kept {g : Anchors} (late : Bool) (outs : List SectorRead) (s : State)
    (h : g.Kept s.anchors) : g.Kept (walkGranule late outs s).anchors := by
  unfold walkGranule
  dsimp only
  repeat' split
  all_goals simp [h]

@[simp] theorem rotationRetire_anchors (t : Nat) (s : State) : (rotationRetire t s).anchors = s.anchors := by simp
    [rotationRetire]

@[simp] theorem walkAbandon_anchors (t : Nat) (s : State) : (walkAbandon t s).anchors = s.anchors := by simp [walkAbandon]

@[simp] theorem dbgDeny_anchors (s : State) : (dbgDeny s).anchors = s.anchors := by simp [dbgDeny]

@[simp] theorem stopCamera_anchors (n : Nat) (s : State) : (stopCamera n s).anchors = s.anchors := by simp [stopCamera]

@[simp] theorem stopDecode_anchors (c : Nat) (s : State) : (stopDecode c s).anchors = s.anchors := by simp [stopDecode]

@[simp] theorem stopFeeds_anchors (f : Nat) (s : State) : (stopFeeds f s).anchors = s.anchors := by simp [stopFeeds]

@[simp] theorem clearSet_anchors (set : Nat) (s : State) : (clearSet set s).anchors = s.anchors := by simp [clearSet]

@[simp] theorem dropTxns_anchors (f : Nat) (s : State) : (dropTxns f s).anchors = s.anchors := by simp [dropTxns]

@[simp] theorem resetPage_anchors (base lo : Nat) (s : State) : (resetPage base lo s).anchors = s.anchors := by simp
    [resetPage]

@[simp] theorem functionReset_kept {g : Anchors} (f dest : Nat) (s : State) (h : g.Kept s.anchors) :
    g.Kept (functionReset f dest s).anchors := by
  unfold functionReset
  split
  · simp [h]
  · extract_lets code s1 s2 s3 xs s4 s5 s6 _ s7
    have h5 : s5.anchors = s.anchors := by simp [s5, s4, s3, s2, s1]
    have h6 : g.Kept s6.anchors := by
      refine foldl_kept _ (fun t x => ?_) _ _ (h5 ▸ h)
      split
      · exact freeContext_kept _ _ (tearSilent_kept _ _ _ (.refl _))
      · exact .refl _
    rw [dropTxns_anchors]
    exact schedule_kept _ _ h6

@[simp] theorem scrubErase_anchors (f : Nat) (s : State) : (scrubErase f s).anchors = s.anchors := by simp [scrubErase]

@[simp] theorem functionLevelReset_kept {g : Anchors} (f : Nat) (s : State) (h : g.Kept s.anchors) :
    g.Kept (functionLevelReset f s).anchors := by
  simp [functionLevelReset, h]

@[simp] theorem vfEnable_kept {g : Anchors} (f : Nat) (on : Bool) (s : State) (h : g.Kept s.anchors) :
    g.Kept (vfEnable f on s).anchors := by
  unfold vfEnable
  repeat' split
  all_goals simp [h]

@[simp] theorem linkDown_kept {g : Anchors} (l : Nat) (s : State) (h : g.Kept s.anchors) : g.Kept
    (linkDown l s).anchors := by
  unfold linkDown
  extract_lets split fs s1
  refine foldl_kept _ (fun t f => ?_) _ _ (by simpa [s1] using h)
  split <;> simp

@[simp] theorem pe1Fall_kept {g : Anchors} (s : State) (h : g.Kept s.anchors) : g.Kept (pe1Fall s).anchors := by
  simp [pe1Fall, h]

@[simp] theorem confSet_anchors (t : Nat) (s : State) : (confSet t s).anchors = s.anchors := by simp [confSet]

@[simp] theorem confClear_kept {g : Anchors} (t : Nat) (s : State) (h : g.Kept s.anchors) : g.Kept
    (confClear t s).anchors := by
  simp [confClear, h]

end Sys2Proof.Machine
end

section
/-! PROOFS. What the functions of Machine/CommitApply.lean keep: commits. -/

namespace Sys2Proof.Machine

@[simp] theorem applyWrites_anchors (ws : List RWrite) (s : State) : (applyWrites ws s).anchors = s.anchors := by simp
    [applyWrites]

@[simp] theorem revert_anchors (as : List Nat) (s t : State) : (revert as s t).anchors = t.anchors := by simp [revert]

@[simp] theorem revertFld_anchors (a : Nat) (f : Fld) (s t : State) : (revertFld a f s t).anchors = t.anchors := by
    simp [revertFld]

@[simp] theorem hookRegions_anchors (n : Nat) (s t : State) : (hookRegions n s t).1.anchors = t.anchors := by simp
    [hookRegions]

@[simp] theorem hookRetMask_anchors (n : Nat) (ws : List RWrite) (t : State) : (hookRetMask n ws t).anchors =
    t.anchors := by simp [hookRetMask]

@[simp] theorem hookQuota_anchors (s t : State) : (hookQuota s t).anchors = t.anchors := by simp [hookQuota]

@[simp] theorem hookRange_anchors (j : Nat) (s t : State) : (hookRange j s t).anchors = t.anchors := by simp [hookRange]

@[simp] theorem hookPort_anchors (p : Nat) (s t : State) : (hookPort p s t).anchors = t.anchors := by simp [hookPort]

@[simp] theorem hookCam_anchors (n : Nat) (s t : State) : (hookCam n s t).anchors = t.anchors := by simp [hookCam]

@[simp] theorem hookDec_anchors (c : Nat) (s t : State) : (hookDec c s t).anchors = t.anchors := by simp [hookDec]

@[simp] theorem hookXfm_anchors (c : Nat) (ws : List RWrite) (s t : State) : (hookXfm c ws s t).anchors = t.anchors := by
    simp [hookXfm]

@[simp] theorem hookQueues_anchors (f : Nat) (s t : State) : (hookQueues f s t).anchors = t.anchors := by simp [hookQueues]

@[simp] theorem hookModels_anchors (ws : List RWrite) (s t : State) : (hookModels ws s t).anchors = t.anchors := by
    simp [hookModels]

@[simp] theorem hookLanes_anchors (p : Nat) (s t : State) : (hookLanes p s t).anchors = t.anchors := by simp [hookLanes]

@[simp] theorem hookSeed_anchors (n : Nat) (ws : List RWrite) (t : State) : (hookSeed n ws t).anchors = t.anchors := by
    simp [hookSeed]

@[simp] theorem pageHook_anchors (k : PageKind) (i : Nat) (ws : List RWrite) (s t : State) :
    (pageHook k i ws s t).1.anchors = t.anchors := by
  unfold pageHook
  split <;> simp

@[simp] theorem applyHead_anchors (pg : Nat) (s : State) : (applyHead pg s).anchors = s.anchors := by
  unfold applyHead
  dsimp only
  repeat' split
  all_goals simp

@[simp] theorem applyReached_anchors (pg k : Nat) (s : State) : (applyReached pg k s).anchors = s.anchors := by
  induction k generalizing s with
  | zero => rfl
  | succ k ih =>
    unfold applyReached
    split
    · exact (ih _).trans (by simp)
    · rfl

@[simp] theorem commitApply_kept {g : Anchors} (pg k : Nat) (s : State) (h : g.Kept s.anchors) : g.Kept
    (commitApply pg k s).anchors := by
  unfold commitApply
  dsimp only
  repeat' split
  all_goals simp [h]

@[simp] theorem applyHeld_anchors (d : Nat) (s : State) : (applyHeld d s).anchors = s.anchors := by
  unfold applyHeld
  refine foldl_anchors _ _ _ fun t q => ?_
  split
  · split
    · simp
    · rfl
  · rfl

end Sys2Proof.Machine
end

section
/-! PROOFS. What the functions of Machine/Power.lean keep: clocks and power. -/

namespace Sys2Proof.Machine

@[simp] theorem State.modClk_anchors (s : State) (f : Clk → Clk) : (State.modClk s f).anchors = s.anchors := by simp
    [State.modClk]

@[simp] theorem modeRefused_anchors (d why : Nat) (s : State) : (modeRefused d why s).anchors = s.anchors := by simp
    [modeRefused]

@[simp] theorem modeWritten_anchors (d old : Nat) (s : State) : (modeWritten d old s).anchors = s.anchors := by simp
    [modeWritten]

@[simp] theorem domainEntry_anchors (d : Nat) (s : State) : (domainEntry d s).anchors = s.anchors := by simp [domainEntry]

@[simp] theorem pllIdle_anchors (s : State) : (pllIdle s).anchors = s.anchors := by simp [pllIdle]

@[simp] theorem domainEntryDone_anchors (d : Nat) (s : State) : (domainEntryDone d s).anchors = s.anchors := by simp
    [domainEntryDone]

@[simp] theorem resetDomain_anchors (d : Nat) (s : State) : (resetDomain d s).anchors = s.anchors := by simp [resetDomain]

@[simp] theorem zeroRows_kept {g : Anchors} (n lo hi : Nat) (s : State) (h : g.Kept s.anchors) :
    g.Kept (zeroRows n lo hi s).anchors :=
  h.setSpad _ _ (Memory.wf_zero _ _ _)

@[simp] theorem coreFromRetention_kept {g : Anchors} (n : Nat) (s : State) (h : g.Kept s.anchors) :
    g.Kept (coreFromRetention n s).anchors :=
  foldl_kept _ (fun t k => by split <;> simp) _ _ h

@[simp] theorem coreFromOff_kept {g : Anchors} (n : Nat) (s : State) (h : g.Kept s.anchors) : g.Kept
    (coreFromOff n s).anchors := by simp [coreFromOff, h]

@[simp] theorem restoreDomain_kept {g : Anchors} (d : Nat) (ok : Bool) (s : State) (h : g.Kept s.anchors) : g.Kept
    (restoreDomain d ok s).anchors := by
  unfold restoreDomain
  dsimp only
  repeat' split
  all_goals simp [h]

@[simp] theorem domainExitDone_kept {g : Anchors} (d : Nat) (ok : Bool) (s : State) (h : g.Kept s.anchors) :
    g.Kept (domainExitDone d ok s).anchors := by
  unfold domainExitDone
  extract_lets s1 s2 s3
  have h2 : g.Kept s2.anchors := by
    have h1 : g.Kept s1.anchors := restoreDomain_kept _ _ _ (by simpa using h)
    simpa [s2] using h1
  have h3 : g.Kept s3.anchors := by
    simp only [s3]
    split
    · split
      · rw [enterModel_anchors, State.modBrz_anchors _ rfl rfl]
        exact h2
      · exact h2
    · exact h2
  split
  · exact h
  split
  · exact pumpJobs_kept _ _ h3
  · exact h3

@[simp] theorem pllUnlock_anchors (s : State) : (pllUnlock s).anchors = s.anchors := by simp [pllUnlock]

@[simp] theorem pllRelock_anchors (s : State) : (pllRelock s).anchors = s.anchors := by simp [pllRelock]

@[simp] theorem senseReg_anchors (k : Nat) (v : Option (BitVec 8)) (s : State) : (senseReg k v s).anchors = s.anchors := by
  unfold senseReg
  split <;> simp

@[simp] theorem setThrottle_anchors (on : Bool) (s : State) : (setThrottle on s).anchors = s.anchors := by simp [setThrottle]

@[simp] theorem trip_anchors (s : State) : (trip s).anchors = s.anchors := by
  unfold trip
  dsimp only
  repeat' split
  all_goals simp

@[simp] theorem thermalSample_kept {g : Anchors} (temps : List (Option (BitVec 8))) (s : State) (h : g.Kept s.anchors) :
    g.Kept (thermalSample temps s).anchors := by
  unfold thermalSample
  extract_lets t at' cd iod hot valid s1 s2 s3 throttled s4 s5
  have h4 : s4.anchors = t.anchors := by simp [s4, s3, s2, s1]
  have h5 : s5.anchors = t.anchors := by
    rw [← h4]
    simp only [s5]
    repeat' split
    all_goals simp
  have ht : g.Kept t.anchors := State.at_kept s _ h
  clear_value s5
  split <;> simpa [h5] using ht

@[simp] theorem timerWake_kept {g : Anchors} (s : State) (h : g.Kept s.anchors) : g.Kept (timerWake s).anchors := by
  unfold timerWake
  split <;> simp [h]

@[simp] theorem dtimeLoRead_anchors (s : State) : (dtimeLoRead s).anchors = s.anchors := by simp [dtimeLoRead]

@[simp] theorem powerEstimate_kept {g : Anchors} (s : State) (h : g.Kept s.anchors) : g.Kept (powerEstimate s).anchors := by
    simp [powerEstimate, h]

@[simp] theorem telPowerRead_anchors (s : State) : (telPowerRead s).anchors = s.anchors := by simp [telPowerRead]

end Sys2Proof.Machine
end

section
/-! PROOFS. What the functions of Machine/Boot.lean keep: boot and resets. -/

namespace Sys2Proof.Machine

@[simp] theorem setRights_anchors (base iid v : Nat) (s : State) : (setRights base iid v s).anchors = s.anchors := by
    simp [setRights]

@[simp] theorem grantPf_anchors (iid pf : Nat) (s : State) : (grantPf iid pf s).anchors = s.anchors := by simp [grantPf]

@[simp] theorem grantOperator_anchors (iid : Nat) (s : State) : (grantOperator iid s).anchors = s.anchors := by simp
    [grantOperator]

@[simp] theorem grantAll_anchors (s : State) : (grantAll s).anchors = s.anchors := by simp [grantAll]

@[simp] theorem cfgRegs_anchors (s : State) : (cfgRegs s).anchors = s.anchors := by simp [cfgRegs]

@[simp] theorem brdRegs_anchors (s : State) : (brdRegs s).anchors = s.anchors := by simp [brdRegs]

@[simp] theorem trainRegs_anchors (o : BootOutcome) (s : State) : (trainRegs o s).anchors = s.anchors := by simp [trainRegs]

@[simp] theorem linksUp_anchors (links : List (Nat × Nat)) (s : State) : (linksUp links s).anchors = s.anchors := by
    simp [linksUp]

@[simp] theorem bootHalt_anchors (result : Nat) (s : State) : (bootHalt result s).anchors = s.anchors := by simp [bootHalt]

@[simp] theorem bootKeys_anchors (s : State) : (bootKeys s).anchors = s.anchors := by simp [bootKeys]

@[simp] theorem bootService_anchors (s : State) : (bootService s).anchors = s.anchors := by
  unfold bootService
  dsimp only
  repeat' split
  all_goals simp

@[simp] theorem bootChain_kept {g : Anchors} (o : BootOutcome) (idOk : Bool) (s : State) (h : g.Kept s.anchors) :
    g.Kept (bootChain o idOk s).anchors := by
  unfold bootChain
  extract_lets s0 s1 r slot img back n _ s2 s3 s4 s5 s6 s7
  have h1 : s1.anchors = s.anchors := by
    simp only [s1, s0]
    split <;> simp
  have h2 : s2.anchors = s1.anchors := by
    simp only [s2, State.drew_anchors]
    rfl
  have h7 : s7.anchors = s.anchors := by
    simp only [s7, bootService_anchors, s6]
    split <;> simp [s5, s4, s3, h2, h1]
  split
  · simp [h1, h]
  split
  · rw [h7]
    exact h
  · simp [h7, h]

/-- The part is powered up with everything empty but what its flash holds. -/
theorem powerUp_holds (s : State) : s.anchors.Holds (powerUp s).anchors :=
  ⟨rfl, fun _ h => h, le_rfl, le_rfl, le_rfl, Nat.or_self _, fun _ => rfl, fun _ => rfl, fun _ => rfl, fun _ => rfl, fun _ =>
    ⟨fun _ _ h => absurd h List.not_mem_nil, fun _ _ h => absurd h List.not_mem_nil, fun _ h => absurd h List.not_mem_nil,
      fun _ h => by rcases h with h | h | h <;> cases h⟩⟩

theorem coldReset_holds (o : BootOutcome) (s : State) : s.anchors.Holds (coldReset o s).anchors := by
  unfold coldReset
  have hp := powerUp_holds s
  generalize powerUp s = t at hp
  extract_lets s1 _ s2 s3
  have h3 : s3.anchors = t.anchors := by
    simp only [s3]
    split
    · exact State.setReg_anchors _ _ _
    · rfl
  exact hp.trans (h3 ▸ bootChain_kept _ _ s3 (.refl _)).toHolds

@[simp] theorem warmReset_kept {g : Anchors} (s : State) (h : g.Kept s.anchors) : g.Kept (warmReset s).anchors := by
  unfold warmReset
  split
  · exact h
  · extract_lets idv prev _ _ _ s1 s2 s3
    have h1 : g.Kept s1.anchors := h.trans
      ⟨⟨rfl, fun _ h => h, le_rfl, le_rfl, le_rfl, Nat.or_self _, fun _ => rfl, id, id, id, fun _ =>
        ⟨fun _ _ h => absurd h List.not_mem_nil, fun _ _ h => absurd h List.not_mem_nil, fun _ h => absurd h List.not_mem_nil,
          fun _ h => by rcases h with h | h | h <;> cases h⟩⟩, le_rfl⟩
    have h3 : s3.anchors = s1.anchors := by simp [s3, s2]
    rw [arRegs_anchors]
    clear_value s3
    split
    · rw [idRegs_anchors, h3]
      exact h1
    · rw [h3]
      exact h1

@[simp] theorem perstRise_kept {g : Anchors} (o : BootOutcome) (s : State) (h : g.Kept s.anchors) :
    g.Kept (perstRise o s).anchors := by
  unfold perstRise
  extract_lets _ s1
  have h1 : g.Kept s1.anchors := by simpa [s1] using h
  clear_value s1
  repeat' split
  · exact h
  · simp [h1]
  · simp [h1]
  · exact h1

theorem railLow_holds (k : Nat) (s : State) : s.anchors.Holds (railLow k s).anchors := by
  unfold railLow
  split
  · exact powerUp_holds s
  split
  · exact .refl _
  · simp [Anchors.Holds.refl]

end Sys2Proof.Machine
end

section
/-! PROOFS. What the functions of Machine/Update.lean keep: firmware updates. -/

namespace Sys2Proof.Machine

theorem Anchors.Kept.setUpd {g : Anchors} {s : State} (h : g.Kept s.anchors) (f : Upd → Upd)
    (hf : g.Placed → s.ctl.upd.Within → (f s.ctl.upd).Within) : g.Kept (s.modUpd f).anchors := by
  refine ⟨⟨h.queue, h.ident, h.arFw, h.arCfg, h.arBrd, h.revoked, h.spad, h.da, h.ring, h.spm, fun k => ?_⟩, h.time⟩
  obtain ⟨hc, hp, hj, hu⟩ := h.placed k
  exact ⟨hc, hp, hj, hf k hu⟩

@[simp] theorem State.clearUpd_kept {g : Anchors} (s : State) (h : g.Kept s.anchors) :
    g.Kept (s.modUpd (fun _ => {})).anchors := h.setUpd _ fun _ _ => Upd.within_none

theorem setNext_anchors (k : FlashRec) (b : Prop) [Decidable b] (s : State) :
    (s.modFlash (fun f =>
      let f1 := if b then { f with img0 := none } else { f with img1 := none }
      { f1 with next := k, retried := false })).anchors = s.anchors := by
  refine State.modFlash_anchors _ ?_ ?_ ?_ ?_ ?_ <;> dsimp only <;> split <;> rfl

@[simp] theorem stage_anchors (keyOk sigOk : Bool) (s : State) : (stage keyOk sigOk s).anchors = s.anchors := by
  unfold stage
  extract_lets da n alien r s1 k
  have h1 : s1.anchors = s.anchors := by
    simp only [s1, r]
    split
    · rfl
    · exact fwRead_anchors _ _ _
  clear_value s1 k r
  split
  · rfl
  split
  · simp
  · exact (setNext_anchors _ _ _).trans (by simp [h1])

@[simp] theorem drainCcore_anchors (k : Nat) (s : State) : (drainCcore k s).anchors = s.anchors := by simp [drainCcore]

@[simp] theorem takeLoader_kept {g : Anchors} (s : State) (h : g.Kept s.anchors) : g.Kept (takeLoader s).anchors := by
  have take (k : Nat) (hk : k < 4) (t : State) (ht : g.Kept t.anchors) :
      g.Kept (t.modUpd (fun u => { u with loader := some k, done := u.done ++ [k] })).anchors :=
    ht.setUpd _ fun _ w m hm => hm.elim (fun e => Option.some_inj.1 e ▸ hk) fun e => w m (.inr e)
  unfold takeLoader
  dsimp only
  split
  · rename_i k hk
    exact take k (leastBelow_some hk).1 s h
  · split
    · rename_i i hi
      exact take _ (by omega) _ (by simpa using h)
    · exact h.setUpd _ fun _ w m hm => hm.elim (fun e => nomatch e) fun e => w m (.inr e)

@[simp] theorem placeLeft_anchors (s : State) : (placeLeft s).anchors = s.anchors := by
  unfold placeLeft
  split <;> simp

@[simp] theorem pointerWrite_kept {g : Anchors} (s : State) (h : g.Kept s.anchors) : g.Kept (pointerWrite s).anchors := by
  unfold pointerWrite
  extract_lets s1
  have h1 : g.Kept s1.anchors := State.clearUpd_kept _ (by simpa using h)
  clear_value s1
  split <;> simp [h1]

@[simp] theorem holdNext_kept {g : Anchors} (s : State) (h : g.Kept s.anchors) : g.Kept (holdNext s).anchors := by
  unfold holdNext
  split
  · rename_i c hc
    refine h.setUpd _ fun _ w m hm => ?_
    rcases hm with e | e | e
    · exact w m (.inl e)
    · exact Option.some_inj.1 e ▸ (leastBelow_some hc).1
    · cases e
  · simp [h]

@[simp] theorem activate'_kept {g : Anchors} (s : State) (h : g.Kept s.anchors) : g.Kept (activate' s).anchors := by
  unfold activate'
  split
  · exact h
  · exact holdNext_kept _ (takeLoader_kept _ (State.clearUpd_kept _ (by simpa using h)))

@[simp] theorem cancel_kept {g : Anchors} (s : State) (h : g.Kept s.anchors) : g.Kept (cancel s).anchors := by
  unfold cancel
  split
  · extract_lets s1 s2
    have h1 : s1.anchors = s.anchors := by
      simp only [s1]
      split <;> simp
    have h2 : g.Kept s2.anchors := State.clearUpd_kept _ (by simpa [h1] using h)
    clear_value s2
    split
    · exact h
    · exact schedule_kept _ _ (by simpa using h2)
  · exact h

theorem handOver_kept {g : Anchors} (c m : Nat) (s : State) (hc : g.Placed → c < 4) (h : g.Kept s.anchors) :
    g.Kept (handOver c m s).anchors := by
  unfold handOver
  extract_lets s1 s2 s3 s4 s5
  have h4 : s4.anchors = s.anchors := by simp [s4, s3, s2, s1]
  clear_value s4
  refine schedule_kept _ _ (holdNext_kept _ ?_)
  refine Anchors.Kept.setUpd ?_ _ fun k w n hn => ?_
  · simpa [h4] using h
  · rcases hn with e | e | e
    · exact Option.some_inj.1 e ▸ hc k
    all_goals cases e

@[simp] theorem updHandover_kept {g : Anchors} (s : State) (h : g.Kept s.anchors) : g.Kept (updHandover s).anchors := by
  unfold updHandover
  split
  · exact h
  extract_lets s1 s2
  have h1 : g.Kept s1.anchors := by
    simp only [s1]
    repeat' split
    all_goals simp [h]
  have h2 : g.Kept s2.anchors := by
    simp only [s2]
    split
    · rename_i c hn hc
      refine (State.at_kept _ _ h1).setUpd _ fun k w m hm => ?_
      rcases hm with e | e | e
      · exact w m (.inl e)
      · exact Option.some_inj.1 e ▸ h1.upd k c (.inr (.inr hc))
      · cases e
    · exact h1
  split
  · rename_i c m hc hm
    split
    · exact holdNext_kept _ h2
    split
    · exact h2
    · exact handOver_kept _ _ _ (fun k => h2.upd k c (.inr (.inl hc))) h2
  · exact holdNext_kept _ h2

@[simp] theorem updWaitExpiry_kept {g : Anchors} (s : State) (h : g.Kept s.anchors) : g.Kept (updWaitExpiry s).anchors := by
  unfold updWaitExpiry
  split
  · rename_i c hc
    split
    · extract_lets s1 s2
      have h1 : g.Kept s1.anchors := State.at_kept _ _ h
      have h2 : g.Kept s2.anchors := by
        refine Anchors.Kept.setUpd (by simpa using h1) _ fun k w m hm => ?_
        rcases hm with e | e | e
        · exact w m (.inl e)
        · cases e
        · exact Option.some_inj.1 e ▸ h.upd k c (.inr (.inl hc))
      exact schedule_kept _ _ h2
    · exact h
  · split <;> simp [h]

@[simp] theorem dumpToDa_kept {g : Anchors} (ws : List Word) (s : State) (h : g.Kept s.anchors) : g.Kept
    (dumpToDa ws s).anchors := by
  unfold dumpToDa
  dsimp only
  repeat' split
  all_goals simp [h]

@[simp] theorem updRestart_kept {g : Anchors} (s : State) (h : g.Kept s.anchors) : g.Kept (updRestart s).anchors := by
  unfold updRestart
  extract_lets s1
  have h1 : s1.anchors = s.anchors := by
    simp only [s1]
    split <;> simp
  split
  · rw [updResult_anchors]
    exact State.clearUpd_kept _ (by rw [placeLeft_anchors, h1]; exact h)
  · exact h1 ▸ h

theorem setAon_anchors (l : List Word) (s : State) : (s.modCtl (fun c => { c with aon := l })).anchors = s.anchors :=
  s.modCtl_anchors _ rfl rfl

@[simp] theorem crash_kept {g : Anchors} (reason k : Nat) (s : State) (h : g.Kept s.anchors) :
    g.Kept (crash reason k s).anchors := by
  unfold crash
  split
  · exact h
  · extract_lets aon s1 s2 n s3 s4 s5 s6 live s7
    have h1 : g.Kept s1.anchors := dumpToDa_kept _ _ (by rw [State.drew_anchors]; exact h)
    have h2 : s2.anchors = s1.anchors := setAon_anchors _ _
    have h5 : s5.anchors = s2.anchors := by simp only [s5, s4, s3, logEntry_anchors, errEvent_anchors, State.setReg_anchors]
    clear_value s5
    have h7 : s7.anchors = s5.anchors := by simp [s7, s6]
    exact updRestart_kept _ (by rw [h7, h5, h2]; exact h1)

@[simp] theorem aonRead_anchors (s : State) : (aonRead s).anchors = s.anchors := by simp [aonRead]

end Sys2Proof.Machine
end

section
/-! PROOFS. What the functions of Machine/Test.lean keep: test. -/

namespace Sys2Proof.Machine

@[simp] theorem laneCount_anchors (p l err : Nat) (more : Bool) (s : State) : (laneCount p l err more s).anchors =
    s.anchors := by simp [laneCount]

@[simp] theorem checkerLock_anchors (p l : Nat) (s : State) : (checkerLock p l s).anchors = s.anchors := by simp
    [checkerLock]

@[simp] theorem checkerLoss_anchors (p l : Nat) (s : State) : (checkerLoss p l s).anchors = s.anchors := by simp
    [checkerLoss]

@[simp] theorem laneInject_anchors (p l : Nat) (back : Bool) (v : Word) (s : State) :
    (laneInject p l back v s).anchors = s.anchors := by simp [laneInject]

@[simp] theorem lanesCount_anchors (s : State) : (lanesCount s).anchors = s.anchors := by simp [lanesCount]

@[simp] theorem memTestGo_anchors (v : Word) (s : State) : (memTestGo v s).anchors = s.anchors := by simp [memTestGo]

@[simp] theorem memTestDone_anchors (fail : Option (Nat × Nat)) (s : State) : (memTestDone fail s).anchors = s.anchors := by
  unfold memTestDone
  dsimp only
  repeat' split
  all_goals simp

@[simp] theorem State.modPins_anchors (s : State) (f : Pins → Pins) : (State.modPins s f).anchors = s.anchors := by
    simp [State.modPins]

@[simp] theorem jtagSelect_anchors (ir : Nat) (s : State) : (jtagSelect ir s).anchors = s.anchors := by simp [jtagSelect]

@[simp] theorem jtagReset_anchors (ir : Nat) (s : State) : (jtagReset ir s).anchors = s.anchors := by simp [jtagReset]

@[simp] theorem bsrScan_anchors (pins load : Nat) (s : State) : (bsrScan pins load s).anchors = s.anchors := by simp
    [bsrScan]

@[simp] theorem jtagExtest_anchors (ir pins load : Nat) (s : State) : (jtagExtest ir pins load s).anchors = s.anchors := by
    simp [jtagExtest]

@[simp] theorem jtagSample_anchors (pins load : Nat) (s : State) : (jtagSample pins load s).anchors = s.anchors := by
    simp [jtagSample]

@[simp] theorem dropInFlight_anchors (s : State) : (dropInFlight s).anchors = s.anchors := by simp [dropInFlight]

@[simp] theorem testEnter_anchors (s : State) : (testEnter s).anchors = s.anchors := by simp [testEnter]

end Sys2Proof.Machine
end

section
/-! PROOFS. What the functions of Machine/Bus.lean keep: register accesses. -/

namespace Sys2Proof.Machine

@[simp] theorem confDenied_anchors (iid a : Nat) (s : State) : (confDenied iid a s).anchors = s.anchors := by simp
    [confDenied]

@[simp] theorem portAccess_kept {g : Anchors} (k : PageKind) (i : Nat) (w : Option (Word × Word)) (s : State)
    (h : g.Kept s.anchors) : g.Kept (portAccess k i w s).anchors := by
  cases k
  case brz4 => cases w with
    | none => exact .trans h (.of_eq (spmRead_anchors s))
    | some _ => exact spmWrite_kept _ _ h
  case isp0 => cases w <;> exact .trans h (.of_eq (lutData_anchors _ s))
  case ispBus => cases w <;> exact .trans h (.of_eq (ccMemData_anchors i _ s))
  all_goals exact h

@[simp] theorem mailbox_kept {g : Anchors} (v : Word) (s : State) (h : g.Kept s.anchors) : g.Kept (mailbox v s).anchors := by
  unfold mailbox
  dsimp only
  split <;> simp [h]

@[simp] theorem confCmd_kept {g : Anchors} (v : Word) (s : State) (h : g.Kept s.anchors) : g.Kept (confCmd v s).anchors := by
  unfold confCmd
  split <;> simp [h]

@[simp] theorem updCmd_kept {g : Anchors} (v : Word) (keyOk sigOk : Bool) (s : State) (h : g.Kept s.anchors) :
    g.Kept (updCmd v keyOk sigOk s).anchors := by
  unfold updCmd
  split <;> simp [h]

@[simp] theorem recCmd_anchors (v : Word) (keyOk sigOk : Bool) (s : State) : (recCmd v keyOk sigOk s).anchors =
    s.anchors := by
  unfold recCmd
  split <;> simp

@[simp] theorem groupCmd_anchors (iid g : Nat) (v : Word) (s : State) : (groupCmd iid g v s).anchors = s.anchors := by
  unfold groupCmd
  split <;> simp

@[simp] theorem writeEffect_kept {g : Anchors} (q : WriteOutcome) (iid : Nat) (k : PageKind) (i o : Nat) (bm v : Word)
    (old s : State) (h : g.Kept s.anchors) (ho : g.Kept old.anchors) :
    g.Kept (writeEffect q iid k i o bm v old s).anchors := by
  unfold writeEffect
  cases k <;> dsimp only <;> repeat' split
  all_goals simp [h, ho]

@[simp] theorem attributeErr_anchors (iid a : Nat) (old s : State) : (attributeErr iid a old s).anchors = s.anchors := by
    simp [attributeErr]

@[simp] theorem busWriteWith_kept {g : Anchors} (q : WriteOutcome) (iid a : Nat) (bm v : Word) (s : State)
    (h : g.Kept s.anchors) : g.Kept (busWriteWith q iid a bm v s).anchors := by
  refine withGate_kept _ _ _ _ _ (fun k i => ?_) h
  dsimp only
  repeat' split
  all_goals simp [h]

@[simp] theorem busWrite_kept {g : Anchors} (iid a : Nat) (bm v : Word) (s : State) (h : g.Kept s.anchors) :
    g.Kept (busWrite iid a bm v s).anchors := by
  unfold busWrite
  split <;> simp [h]

@[simp] theorem wordWrite_kept {g : Anchors} (iid a : Nat) (v : Word) (s : State) (h : g.Kept s.anchors) :
    g.Kept (wordWrite iid a v s).anchors := busWrite_kept _ _ _ _ _ h

@[simp] theorem blockRead_kept {g : Anchors} (iid : Nat) (k : PageKind) (i o a : Nat) (s : State)
    (h : g.Kept s.anchors) : g.Kept (blockRead iid k i o a s).anchors := by
  unfold blockRead
  split <;> simp [h]

@[simp] theorem busRead_kept {g : Anchors} (iid a : Nat) (s : State) (h : g.Kept s.anchors) :
    g.Kept (busRead iid a s).anchors := by
  refine withGate_kept _ _ _ _ _ (fun k i => ?_) (by simpa using h)
  dsimp only
  repeat' split
  all_goals simp [h]

end Sys2Proof.Machine
end

section
/-! PROOFS. What the functions of Machine/Debug.lean keep: debug and sideband ports. -/

namespace Sys2Proof.Machine

@[simp] theorem dbgAnswer_anchors (status : Nat) (data : Word) (s : State) : (dbgAnswer status data s).anchors =
    s.anchors := by simp [dbgAnswer]

@[simp] theorem dbgRefused_anchors (conf : Bool) (s : State) : (dbgRefused conf s).anchors = s.anchors := by simp
    [dbgRefused]

@[simp] theorem dbgAwake_kept {g : Anchors} (s : State) (f : State → State) (hf : g.Kept (f s).anchors)
    (h : g.Kept s.anchors) :
    g.Kept (dbgAwake s f).anchors := by
  unfold dbgAwake
  split <;> simp [hf, h]

@[simp] theorem dbgRegRead_kept {g : Anchors} (a : Nat) (s : State) (h : g.Kept s.anchors) :
    g.Kept (dbgRegRead a s).anchors := by
  unfold dbgRegRead
  dsimp only
  split <;> simp [h]

@[simp] theorem dbgRegWrite_kept {g : Anchors} (a : Nat) (v : Word) (s : State) (h : g.Kept s.anchors) :
    g.Kept (dbgRegWrite a v s).anchors := by
  unfold dbgRegWrite
  dsimp only
  split <;> simp [h]

@[simp] theorem dbgDaRead_anchors (da : Nat) (o : Option SectorRead) (s : State) : (dbgDaRead da o s).anchors =
    s.anchors := by
  unfold dbgDaRead
  split <;> simp

@[simp] theorem dbgDaWrite_kept {g : Anchors} (da : Nat) (v : Word) (o : Option SectorRead) (s : State)
    (h : g.Kept s.anchors) : g.Kept (dbgDaWrite da v o s).anchors := by
  unfold dbgDaWrite
  split <;> simp [h]

@[simp] theorem dbgSpdRead_anchors (addr : Nat) (parity : Bool) (s : State) : (dbgSpdRead addr parity s).anchors =
    s.anchors := by simp [dbgSpdRead]

@[simp] theorem dbgRead_kept {g : Anchors} (space addr : Nat) (o : Option SectorRead) (parity : Bool) (s : State)
    (h : g.Kept s.anchors) : g.Kept (dbgRead space addr o parity s).anchors := by
  unfold dbgRead
  dsimp only
  split <;> simp [h]

@[simp] theorem dbgWrite_kept {g : Anchors} (space addr : Nat) (v : Word) (o : Option SectorRead) (s : State)
    (h : g.Kept s.anchors) : g.Kept (dbgWrite space addr v o s).anchors := by
  unfold dbgWrite
  dsimp only
  split <;> simp [h]

@[simp] theorem sbAssign_anchors (addr : Nat) (s : State) : (sbAssign addr s).anchors = s.anchors := by simp [sbAssign]

@[simp] theorem sbNack_anchors (s : State) : (sbNack s).anchors = s.anchors := by simp [sbNack]

@[simp] theorem sbReadWords_kept {g : Anchors} (n : Nat) (s : State) (h : g.Kept s.anchors) :
    g.Kept (sbReadWords n s).anchors := by
  induction n generalizing s with
  | zero => exact h
  | succ n ih =>
    unfold sbReadWords
    dsimp only
    split
    · exact ih _ (by simpa using h)
    · split
      · simp [h]
      · exact ih _ (by simp [h])

@[simp] theorem sbWriteWords_kept {g : Anchors} (vs : List Word) (s : State) (h : g.Kept s.anchors) :
    g.Kept (sbWriteWords vs s).anchors := by
  induction vs generalizing s with
  | nil => exact h
  | cons v vs ih =>
    unfold sbWriteWords
    dsimp only
    split
    · exact ih _ (by simpa using h)
    · split
      · simp [h]
      · exact ih _ (by simp [h])

@[simp] theorem sbAwake_kept {g : Anchors} (s : State) (f : State → State) (hf : g.Kept (f s).anchors)
    (h : g.Kept s.anchors) :
    g.Kept (sbAwake s f).anchors := by
  unfold sbAwake
  split <;> simp [hf, h]

@[simp] theorem sbPointer_anchors (a : Nat) (s : State) : (sbPointer a s).anchors = s.anchors := by simp [sbPointer]

@[simp] theorem sbRead_kept {g : Anchors} (n : Nat) (s : State) (h : g.Kept s.anchors) : g.Kept (sbRead n s).anchors := by
  simp [sbRead, h]

@[simp] theorem sbWrite_kept {g : Anchors} (a : Nat) (vs : List Word) (s : State) (h : g.Kept s.anchors) :
    g.Kept (sbWrite a vs s).anchors := by
  simp [sbWrite, h]

end Sys2Proof.Machine
end

section
/-! PROOFS. Every step keeps the anchors (O1, O56 to O60). -/

namespace Sys2Proof.Machine

/-- The commands after which DTIME starts again. -/
def restartsClock : Instr → Prop
  | .coldReset _ | .railUndervoltage _ => True
  | _ => False

theorem exec_kept (i : Instr) (s t : State) (hi : ¬ restartsClock i) (h : exec i s = .next t) : s.anchors.Kept t.anchors := by
  cases i
  case coldReset => exact absurd trivial hi
  case railUndervoltage => exact absurd trivial hi
  case brzSpmData w | ccMemData w | lutData w =>
    obtain rfl := Host.Outcome.next.inj h
    cases w <;> simp
  all_goals
    obtain rfl := Host.Outcome.next.inj h
    simp

theorem exec_holds (i : Instr) (s t : State) (h : exec i s = .next t) : s.anchors.Holds t.anchors := by
  by_cases hi : restartsClock i
  · cases i
    case coldReset o => exact Host.Outcome.next.inj h ▸ coldReset_holds o s
    case railUndervoltage k => exact Host.Outcome.next.inj h ▸ railLow_holds k s
    all_goals exact absurd hi id
  · exact (exec_kept i s t hi h).toHolds

theorem anchors_placed_iff (s : State) : s.anchors.Placed ↔ s.PlacesNamed := by
  have hj : (∀ l ∈ s.ctl.jobs.map Job.held, ∀ n ∈ l, n < 32) ↔ ∀ j ∈ s.ctl.jobs, ∀ n ∈ j.held, n < 32 := List.forall_mem_map
  exact and_congr_right fun _ => and_congr_right fun _ => and_congr_left fun _ => hj

theorem memoriesWf_iff (s : State) : s.memoriesWf = true ↔
    Memory.wf s.spad = true ∧ Memory.wf s.da = true ∧ Memory.wf s.brz.ring = true ∧ Memory.wf s.brz.spm = true := by
  simp only [State.memoriesWf, Bool.and_eq_true, and_assoc]

/-- The state whose anchors a step keeps: the one that its front command runs on. -/
theorem step_holds (s t : State) (h : step s = .next t) : ({ s with pending := s.pending.tail } : State).anchors.Holds t.anchors := by
  unfold step at h
  split at h
  · rename_i hp
    cases h
    rw [hp]
    exact ⟨hp, fun _ h => h, le_rfl, le_rfl, le_rfl, Nat.or_self _, id, id, id, id, id⟩
  · rename_i c cs hp
    rw [hp]
    exact exec_holds c _ t h

/-- Settles O1. -/
theorem stepRunsTheFrontCommand : Obligations.StepRunsTheFrontCommand := by
  refine ⟨fun s c cs h => by rw [step, h], fun s h => ?_⟩
  unfold step
  split
  · rfl
  · rename_i hp
    exact nomatch hp.symm.trans h

/-- Settles O56: the queue is one of the anchors that every command keeps. -/
theorem commandsLeaveTheQueueInOrder : Obligations.CommandsLeaveTheQueueInOrder :=
  fun s t h => (step_holds s t h).queue

/-- Settles O57. -/
theorem noStepMovesTheRootOfTrustBack : Obligations.NoStepMovesTheRootOfTrustBack := fun s t h =>
  have k := step_holds s t h
  ⟨k.ident, k.arFw, k.arCfg, k.arBrd, k.revoked⟩

/-- Settles O58: every command but the two that power the part up keeps DTIME too. -/
theorem deviceTimeNeverGoesBack : Obligations.DeviceTimeNeverGoesBack := by
  intro s t h hc hr
  unfold step at h
  split at h
  · cases h
    exact Nat.le_succ _
  · rename_i c cs hp
    have hn : ¬ restartsClock c := by
      intro hk
      cases c
      case coldReset o => exact hc o (by rw [hp]; rfl)
      case railUndervoltage k => exact hr k (by rw [hp]; rfl)
      all_goals exact hk
    exact (exec_kept c _ t hn h).time

/-- Settles O59. -/
theorem everyStepKeepsMemoriesCanonical : Obligations.EveryStepKeepsMemoriesCanonical := by
  intro s t hs h
  have k := step_holds s t h
  obtain ⟨h1, h2, h3, h4⟩ := (memoriesWf_iff s).1 hs
  exact (memoriesWf_iff t).2 ⟨k.spad h1, k.da h2, k.ring h3, k.spm h4⟩

/-- Settles O60. -/
theorem everyStepKeepsPlacesOnTheChip : Obligations.EveryStepKeepsPlacesOnTheChip := fun s t hs h =>
  (anchors_placed_iff t).1 ((step_holds s t h).placed ((anchors_placed_iff s).2 hs))

end Sys2Proof.Machine
end

section
/-! PROOFS. Doorbells of contexts that name cores beyond the part (R330). -/

namespace Sys2Proof.Machine

/-- A part in service whose context 0 has an enabled submission queue of two slots and names the core 1,048,579. The domain
register of that number lies at the offset of the queue's own status. -/
def doorbellAliased : State where
  regs := [(R.SEC_BOOT, 7), (R.CLK_STATUS, 3), (R.PWR_DOM_STATUS 29, 2), (R.HIF_FN_STATE 0, 1),
    (R.HIF_SQ_CFG 0 0 0, BitVec.ofNat 32 (1 + 2 * 2 ^ 16))]
  ctxs := [(0, { cores := [1048579] })]

/-- The doorbell wakes the context's cores (R330), and waking that core writes its STATE and PHASE into FETCH. -/
theorem doorbellAliased_fetch : (sqDoorbell 0 0 0 1 doorbellAliased).sqFetch 0 0 = 11 := by decide +kernel

/-- Refutes O35: nothing bounds the cores that a context names by the part's 18, and a doorbell of a context that names another
can wake a domain whose number makes the model take the queue's status register for the domain's. -/
theorem not_doorbellsMessagesAndLinkErrors : ¬ Obligations.DoorbellsMessagesAndLinkErrors := by
  unfold Obligations.DoorbellsMessagesAndLinkErrors
  intro h
  have hb : doorbellAliased.booted = true := by decide +kernel
  have h29 : doorbellAliased.domOn 29 = true := by decide +kernel
  obtain ⟨hsq, -⟩ := h doorbellAliased 0 hb h29
  obtain ⟨t, ht, -, hfetch, -⟩ := (hsq 0 0 1).1 (by decide +kernel)
  have hrun : exec (.sqDoorbell 0 0 0 1) doorbellAliased = .next (sqDoorbell 0 0 0 1 doorbellAliased) :=
    congrArg Host.Outcome.next (hostTlp_taken _ _ hb h29)
  obtain rfl := Host.Outcome.next.inj (hrun.symm.trans ht)
  exact absurd (doorbellAliased_fetch.symm.trans hfetch) (by decide +kernel)

end Sys2Proof.Machine
end

section
/-! PROOFS. A function-level reset that abandons a walk (R342, R457). -/

namespace Sys2Proof.Machine

/-- A part in service whose key walk stands at tenant 0, with the number 1,032,192 next in the queue. The key register of that
number lies at the offset of HIF_FN_STATE of function 1. -/
def walkAliased : State where
  regs := [(R.SEC_BOOT, 7), (R.CLK_STATUS, 3), (R.PWR_DOM_STATUS 29, 2), (R.HIF_FN_STATE 0, 1), (R.SEC_ROT_STATUS, 8)]
  sec := { walkQ := [1032192] }

theorem walkAliased_placesNamed : walkAliased.PlacesNamed :=
  ⟨fun _ _ h => absurd h List.not_mem_nil, fun _ _ h => absurd h List.not_mem_nil, fun _ h => absurd h List.not_mem_nil,
    Upd.within_none⟩

/-- The reset of function 0 abandons its walk (R457), and the walk of the next number, which has no page, ends at once: that
number is RETIRING, and function 1 is taken to be in SCRUBBING. -/
theorem walkAliased_fnState : (functionLevelReset 0 walkAliased).fnState 1 = 3 := by decide +kernel

/-- Refutes O37: nothing bounds the tenants in the walk's queue by 16, and a reset that abandons a walk goes on to the next number
in the queue, whose key register the model may find among the states of the functions. -/
theorem not_functionsAreLostResumedAndScrubbed : ¬ Obligations.FunctionsAreLostResumedAndScrubbed := by
  unfold Obligations.FunctionsAreLostResumedAndScrubbed
  intro h
  have hb : walkAliased.booted = true := by decide +kernel
  have h29 : walkAliased.domOn 29 = true := by decide +kernel
  obtain ⟨-, -, -, ⟨hflr, -⟩, -⟩ := h walkAliased 0 walkAliased_placesNamed
  obtain ⟨t, ht, -, hother⟩ := (hflr hb h29 (by decide +kernel)).1 (by decide +kernel)
  have hrun : exec (.functionLevelReset 0) walkAliased = .next (functionLevelReset 0 walkAliased) :=
    congrArg Host.Outcome.next (hostTlp_taken _ _ hb h29)
  obtain rfl := Host.Outcome.next.inj (hrun.symm.trans ht)
  exact absurd (walkAliased_fnState.symm.trans (hother 1 (by decide))) (by decide +kernel)

end Sys2Proof.Machine
end

section
/-! PROOFS. The end of confidential mode by a scrub that abandons a walk (R455, R457). -/

namespace Sys2Proof.Machine

/-- A part in service whose key walk stands at tenant 0, with the number 2,048 next in the queue. The key register of that number
lies at the offset of SEC_CONF. -/
def confClearAliased : State where
  regs := [(R.SEC_BOOT, 7), (R.CLK_STATUS, 3), (R.PWR_DOM_STATUS 29, 2), (R.PWR_DOM_STATUS 30, 2), (R.HIF_FN_STATE 0, 1),
    (R.SEC_ROT_STATUS, 8)]
  sec := { walkQ := [2048] }

theorem confClearAliased_placesNamed : confClearAliased.PlacesNamed :=
  ⟨fun _ _ h => absurd h List.not_mem_nil, fun _ _ h => absurd h List.not_mem_nil, fun _ h => absurd h List.not_mem_nil,
    Upd.within_none⟩

theorem confClearAliased_admits : confClearAliased.Admits 16 R.SEC_CONF_CMD .secConf 0 := by
  unfold State.Admits State.Permits
  decide +kernel

/-- The scrub that CLEAR starts abandons the walk of tenant 0 (R457), and the walk of the next number, which has no page, ends
at once: that number is RETIRING, and tenant 1 is taken to be in confidential mode. -/
theorem confClearAliased_confidential :
    (wordWrite 16 R.SEC_CONF_CMD (BitVec.ofNat 32 32) confClearAliased).confidential 1 = true := by decide +kernel

/-- Refutes O52: nothing bounds the tenants in the walk's queue by 16, and a CLEAR whose scrub abandons a walk goes on to the next
number in the queue, whose key register the model may find in SEC_CONF: another tenant's mode changes. -/
theorem not_keysRotateAndModesClear : ¬ Obligations.KeysRotateAndModesClear := by
  unfold Obligations.KeysRotateAndModesClear
  intro h
  obtain ⟨-, -, -, -, -, hconf⟩ := h confClearAliased 0 16
  obtain ⟨-, hclear⟩ := hconf confClearAliased_admits
  obtain ⟨t, ht, hother, -⟩ := hclear confClearAliased_placesNamed
  have hrun : exec (.confClear 16 0) confClearAliased
      = .next (wordWrite 16 R.SEC_CONF_CMD (BitVec.ofNat 32 32) confClearAliased) := rfl
  obtain rfl := Host.Outcome.next.inj (hrun.symm.trans ht)
  exact absurd (confClearAliased_confidential.symm.trans (hother 1)) (by decide +kernel)

end Sys2Proof.Machine
end

section
/-! PROOFS. Service requests and sideband interrupts: counters and states outside REL (R415, R504). -/

namespace Sys2Proof.Machine

theorem LogOnly.clk {s t : State} (h : LogOnly s t) : t.clk = s.clk := by rw [h]
theorem LogOnly.dtime {s t : State} (h : LogOnly s t) : t.dtime = s.dtime := by rw [h]
theorem LogOnly.core {s t : State} (h : LogOnly s t) (n : Nat) : t.core n = s.core n := by rw [h]; rfl

theorem sendIbi_counter (k : Nat) (s : State) (c : Nat) (h : c ≠ cntKey Pg.mgtTel 0) : (sendIbi k s).counter c = s.counter c := by
  unfold sendIbi
  split
  · exact State.counter_count_ne _ _ _ _ _ h
  · rfl

theorem sendIbi_clk (k : Nat) (s : State) : (sendIbi k s).clk = s.clk := by rw [sendIbi_frame]
theorem sendIbi_dtime (k : Nat) (s : State) : (sendIbi k s).dtime = s.dtime := by rw [sendIbi_frame]

theorem svcEvent_counter (bit : Nat) (s : State) (c : Nat) (h : c ≠ cntKey Pg.mgtTel 0) (h0 : c / 4096 ≠ Pg.rel0 / 4096)
    (h2 : c / 4096 ≠ Pg.rel2 / 4096) : (svcEvent bit s).counter c = s.counter c := by
  have hibi : (svcIbi s).counter c = s.counter c := by
    unfold svcIbi
    split
    · rfl
    · exact sendIbi_counter 1 s c h
  refine (logEntry_counter _ _ c h2).trans ?_
  rw [State.counter_count_ne _ _ _ _ c (fun e => h0 (by rw [e]; decide)), errEvent_counter]
  exact hibi

theorem svcEvent_sets (bit : Nat) (s : State) (h : bit < 32) : bitOf ((svcEvent bit s).reg R.REL_SVC).toNat bit = true := by
  rw [svcEvent_svc, bitOf_toNat]
  simp [getLsbD_bit32 _ _ h]

end Sys2Proof.Machine
end

section
/-! PROOFS. The root PLL loses its lock (R469). -/

namespace Sys2Proof.Machine

/-- The losses of the last second, this one included. -/
def State.lossesNow (s : State) : List Nat := s.clk.losses.filter (fun l => decide (s.dtime < l + 1000 * msTicks)) ++ [s.dtime]

/-- Every operation of a core is forced to fail its verdict. -/
def forcedOps (c : Core) : Core := { c with ops := c.ops.map (fun o => { o with forced := true }) }

/-- A loss noted: the clocks stop, and every operation in flight is forced to fail its verdict. -/
def lockLost (s : State) : State :=
  { ((s.setFld R.CLK_STATUS F.CLK_STATUS_PLL_LOCK 0).count Pg.clk 0 1).modClk (fun c => { c with losses := s.lossesNow }) with
    cores := s.cores.map (fun q => (q.1, forcedOps q.2)) }

/-- A loss noted and logged. -/
def lockLossLogged (s : State) : State :=
  logEntry { cls := LogCls.threshold, arg0 := (lockLost s).counter (cntKey Pg.clk 0) } (errEvent Pg.clk E.clk_PLL_UNLOCK (lockLost s))

section
variable (s : State)

theorem pllUnlock_eq (h : s.clocks = true) : pllUnlock s =
    if 3 ≤ s.lossesNow.length then svcEvent 6 ((lockLossLogged s).modClk (fun c => { c with losses := [] }))
    else lockLossLogged s := by
  unfold pllUnlock
  rw [if_neg (by simp [h])]
  rfl

theorem lockLost_lock : (lockLost s).fld R.CLK_STATUS F.CLK_STATUS_PLL_LOCK = 0 :=
  State.fld_setFld_same s R.CLK_STATUS F.CLK_STATUS_PLL_LOCK 0 (by decide)

theorem lockLost_counter : (lockLost s).counter (cntKey Pg.clk 0) = (s.counter (cntKey Pg.clk 0) + 1) % 2 ^ 64 :=
  State.counter_count_same (s.setFld R.CLK_STATUS F.CLK_STATUS_PLL_LOCK 0) Pg.clk 0 1

theorem find_map_snd {α β : Type} (f : α → β) (l : List (Nat × α)) (n : Nat) :
    Tab.find (l.map (fun q => (q.1, f q.2))) n = (Tab.find l n).map f := by
  induction l with
  | nil => rfl
  | cons q l ih => simp only [List.map_cons, Tab.find]; split <;> simp [ih]

theorem lockLost_core (n : Nat) : (lockLost s).core n = ((Tab.find s.cores n).map forcedOps).getD {} :=
  congrArg (fun o : Option Core => o.getD {}) (find_map_snd forcedOps s.cores n)

theorem lockLost_ops (n : Nat) : ((lockLost s).core n).ops = (s.core n).ops.map (fun o => { o with forced := true }) := by
  rw [lockLost_core]
  show _ = ((Tab.find s.cores n).getD ({} : Core)).ops.map _
  cases Tab.find s.cores n <;> rfl

theorem lockLossLogged_frame : LogOnly (lockLost s) (lockLossLogged s) :=
  (LogOnly.errEvent _ _ _).trans (logEntry_frame _ _)

theorem lockLossLogged_lock : (lockLossLogged s).fld R.CLK_STATUS F.CLK_STATUS_PLL_LOCK = 0 := by
  rw [lockLossLogged, logEntry_fld _ _ _ _ (by decide), errEvent_fld_ne _ _ _ _ _ (by decide) (by decide), lockLost_lock]

theorem lockLossLogged_counter :
    (lockLossLogged s).counter (cntKey Pg.clk 0) = (s.counter (cntKey Pg.clk 0) + 1) % 2 ^ 64 := by
  rw [lockLossLogged, logEntry_counter _ _ _ (by decide), errEvent_counter, lockLost_counter]

theorem lockLossLogged_err : bitOf ((lockLossLogged s).reg (Pg.clk + Hdr.errStat)).toNat E.clk_PLL_UNLOCK = true := by
  rw [lockLossLogged, logEntry_reg _ _ _ (by decide)]
  exact errEvent_sets _ _ _ (by decide)

/-- What a lock loss does, whether or not it is the third in a second. -/
theorem pllUnlock_effects (h : s.clocks = true) : (pllUnlock s).fld R.CLK_STATUS F.CLK_STATUS_PLL_LOCK = 0
    ∧ (pllUnlock s).counter (cntKey Pg.clk 0) = (s.counter (cntKey Pg.clk 0) + 1) % 2 ^ 64
    ∧ bitOf ((pllUnlock s).reg (Pg.clk + Hdr.errStat)).toNat E.clk_PLL_UNLOCK = true
    ∧ (∀ n, ((pllUnlock s).core n).ops = (s.core n).ops.map (fun o => { o with forced := true })) ∧ (pllUnlock s).spad = s.spad := by
  have hlog := lockLossLogged_frame s
  rw [pllUnlock_eq s h]
  split
  · have hsvc := svcEvent_frame 6 ((lockLossLogged s).modClk (fun c => { c with losses := [] }))
    refine ⟨?_, ?_, ?_, fun n => ?_, hsvc.spad.trans hlog.spad⟩
    · rw [State.fld, svcEvent_reg _ _ _ (by decide) (by decide)]
      exact lockLossLogged_lock s
    · rw [svcEvent_counter _ _ _ (by decide) (by decide) (by decide)]
      exact lockLossLogged_counter s
    · rw [svcEvent_reg _ _ _ (by decide) (by decide)]
      exact lockLossLogged_err s
    · rw [hsvc.core, ← lockLost_ops]
      exact congrArg Core.ops (hlog.core n)
  · exact ⟨lockLossLogged_lock s, lockLossLogged_counter s, lockLossLogged_err s,
      fun n => (congrArg Core.ops (hlog.core n)).trans (lockLost_ops s n), hlog.spad⟩

/-- The third loss in a second asks for service. -/
theorem pllUnlock_service (h : s.clocks = true)
    (h2 : 2 ≤ (s.clk.losses.filter (fun l => decide (s.dtime < l + 1000 * msTicks))).length) :
    bitOf ((pllUnlock s).reg R.REL_SVC).toNat 6 = true := by
  rw [pllUnlock_eq s h, if_pos (by rw [State.lossesNow, List.length_append]; exact Nat.succ_le_succ h2)]
  exact svcEvent_sets 6 _ (by decide)

end

end Sys2Proof.Machine
end

section
/-! PROOFS. The thermal sensors (R467, R468). -/

namespace Sys2Proof.Machine

/-- The valid temperatures of a sample. -/
def validTemps (l : List (Option (BitVec 8))) : List (BitVec 8) :=
  ((List.range 6).map (fun k => l.getD k none) ++ [l.getD 6 none, l.getD 7 none]).filterMap id

/-- The hottest of the sensors of both dies. -/
def hottestOf (l : List (Option (BitVec 8))) : Int :=
  max (hottest ((List.range 6).map (fun k => l.getD k none))) (hottest [l.getD 6 none, l.getD 7 none])

/-- The sensors' registers and the telemetry follow a sample; an invalid sensor is reported. -/
def sampled (l : List (Option (BitVec 8))) (s : State) : State :=
  errIf (decide ((validTemps l).length < 8)) Pg.clk E.clk_SENSOR_FAULT
    (((iter 8 (fun k t => senseReg k (l.getD k none) t) (s.at (ceilDiv s.dtime 1024 * 1024))).setFld R.MGT_TEL_TEMP
      F.MGT_TEL_TEMP_MAX_CD (wrapInt 8 (hottest ((List.range 6).map (fun k => l.getD k none))))).setFld R.MGT_TEL_TEMP
      F.MGT_TEL_TEMP_MAX_ID (wrapInt 8 (hottest [l.getD 6 none, l.getD 7 none])))

/-- Throttled cycles are counted while the part throttles. -/
def throttledCounted (s : State) : State :=
  if s.flag R.CLK_STATUS F.CLK_STATUS_THROTTLE then countFree (cntKey Pg.clk 1) s else s

/-- Throttling enters, stays or ends with the hottest sensor at `hot`; `on`: it was on. -/
def throttleStep (hot : Int) (on : Bool) (s : State) : State :=
  if 100 ≤ hot then
    if on then s.modClk (fun c => { c with coolSince := none }) else setThrottle true s
  else if !on then s
  else if 95 < hot then s.modClk (fun c => { c with coolSince := none })
  else
    match s.clk.coolSince with
    | none => s.modClk (fun c => { c with coolSince := some s.dtime })
    | some t => if t + 24576 ≤ s.dtime then setThrottle false s else s

/-- A sensor at 110 °C trips the part. -/
def tripStep (l : List (BitVec 8)) (s : State) : State :=
  if l.any (fun v => decide (110 ≤ v.toInt)) ∧ !s.tripped then trip s else s

theorem thermalSample_eq (l : List (Option (BitVec 8))) (s : State) : thermalSample l s = tripStep (validTemps l)
    (throttleStep (hottestOf l) ((sampled l s).flag R.CLK_STATUS F.CLK_STATUS_THROTTLE) (throttledCounted (sampled l s))) := rfl

/-- The sensors' registers and DTIME stay, and a sensor fault stays reported. -/
def TempsKept (s t : State) : Prop :=
  (∀ k, k < 8 → t.reg (R.CLK_TSENSE k) = s.reg (R.CLK_TSENSE k)) ∧ t.dtime = s.dtime
    ∧ (bitOf (s.reg (Pg.clk + Hdr.errStat)).toNat E.clk_SENSOR_FAULT = true →
      bitOf (t.reg (Pg.clk + Hdr.errStat)).toNat E.clk_SENSOR_FAULT = true)

theorem TempsKept.refl (s : State) : TempsKept s s := ⟨fun _ _ => rfl, rfl, id⟩

theorem TempsKept.trans {s t u : State} (h : TempsKept s t) (k : TempsKept t u) : TempsKept s u :=
  ⟨fun i hi => (k.1 i hi).trans (h.1 i hi), k.2.1.trans h.2.1, fun x => k.2.2 (h.2.2 x)⟩

theorem TempsKept.of_regs {s t : State} (hr : ∀ a, a / 4096 = Pg.clk / 4096 → a ≠ R.CLK_STATUS → t.reg a = s.reg a)
    (hd : t.dtime = s.dtime) : TempsKept s t :=
  ⟨fun k hk => hr _ (by unfold R.CLK_TSENSE Pg.clk; omega) (by unfold R.CLK_TSENSE R.CLK_STATUS Pg.clk; omega), hd,
    fun h => by rwa [hr _ (by decide) (by decide)]⟩

theorem TempsKept.errEvent (s : State) (bit : Nat) : TempsKept s (errEvent Pg.clk bit s) where
  left k _ := errEvent_reg_ne _ _ _ _ (by unfold R.CLK_TSENSE Pg.clk Hdr.errStat; omega)
    (by unfold R.CLK_TSENSE Pg.clk Hdr.errFirst; omega)
  right := ⟨by rw [errEvent_frame], errEvent_keeps _ _ _ _⟩

theorem TempsKept.sendIbi (s : State) (k : Nat) : TempsKept s (sendIbi k s) :=
  .of_regs (fun a _ _ => sendIbi_reg k s a) (sendIbi_dtime k s)

theorem TempsKept.setFld (s : State) (a : Nat) (f : Fld) (v : Nat) (h : a / 4096 ≠ Pg.clk / 4096 ∨ a = R.CLK_STATUS) :
    TempsKept s (s.setFld a f v) :=
  .of_regs (fun b hb hne => State.reg_setFld_ne s a f v b fun e => by
    rcases h with h | h
    · exact h (e ▸ hb)
    · exact hne (e.trans h)) rfl

theorem throttledCounted_kept (s : State) : TempsKept s (throttledCounted s) := by
  unfold throttledCounted
  split
  · exact .of_regs (fun _ _ _ => rfl) rfl
  · exact .refl s

/-- The flags that show whether the part throttles. -/
def throttleShown (v : Nat) (s : State) : State :=
  (s.setFld R.CLK_STATUS F.CLK_STATUS_THROTTLE v).setFld R.MGT_TEL_TEMP F.MGT_TEL_TEMP_THROTTLE v

theorem setThrottle_on (s : State) :
    setThrottle true s = sendIbi 2 (errEvent Pg.clk E.clk_THROTTLE ((throttleShown 1 s).count Pg.clk 2 1)) := rfl

theorem setThrottle_off (s : State) :
    setThrottle false s = sendIbi 3 ((throttleShown 0 s).modClk (fun c => { c with coolSince := none })) := rfl

theorem throttleShown_kept (v : Nat) (s : State) : TempsKept s (throttleShown v s) :=
  (TempsKept.setFld s R.CLK_STATUS F.CLK_STATUS_THROTTLE v (.inr rfl)).trans
    (.setFld _ R.MGT_TEL_TEMP F.MGT_TEL_TEMP_THROTTLE v (.inl (by decide)))

theorem setThrottle_kept (on : Bool) (s : State) : TempsKept s (setThrottle on s) := by
  cases on
  · have h1 : TempsKept (throttleShown 0 s) ((throttleShown 0 s).modClk (fun c => { c with coolSince := none })) :=
      .of_regs (fun a _ _ => State.modClk_reg _ _ a) (State.modClk_dtime _ _)
    rw [setThrottle_off]
    exact ((throttleShown_kept 0 s).trans h1).trans (.sendIbi _ 3)
  · have h1 : TempsKept (throttleShown 1 s) ((throttleShown 1 s).count Pg.clk 2 1) :=
      .of_regs (fun a _ _ => State.count_reg _ _ _ _ a) (State.count_dtime _ _ _ _)
    rw [setThrottle_on]
    exact ((throttleShown_kept 1 s).trans h1).trans ((TempsKept.errEvent _ _).trans (.sendIbi _ 2))

theorem throttleStep_kept (hot : Int) (on : Bool) (s : State) : TempsKept s (throttleStep hot on s) := by
  have hclk (f : Clk → Clk) : TempsKept s (s.modClk f) := .of_regs (fun _ _ _ => rfl) rfl
  unfold throttleStep
  split
  · split
    · exact hclk _
    · exact setThrottle_kept true s
  split
  · exact .refl s
  split
  · exact hclk _
  split
  · exact hclk _
  split
  · exact setThrottle_kept false s
  · exact .refl s

/-- A walking test that ends leaves the registers below the fabric's window (R497). -/
theorem walkDone_reg (s : State) (a : Nat) (h : a < Pg.fab0) : (walkDone false s).reg a = s.reg a := by
  have hlink : a ≠ R.FAB_LINK_STAT (s.fld R.FAB_WALK_STATUS F.FAB_WALK_STATUS_LINK) := fun e => by
    rw [e] at h
    unfold R.FAB_LINK_STAT Pg.fab1 Pg.fab0 at h
    omega
  have hstat : a ≠ R.FAB_WALK_STATUS := fun e => absurd (e ▸ h) (by decide)
  unfold walkDone
  split
  · rfl
  · simp only [Bool.false_eq_true, if_false]
    rw [errEvent_reg_ne _ _ _ _ (fun e => absurd (e ▸ h) (by decide)) (fun e => absurd (e ▸ h) (by decide)), State.count_reg,
      State.reg_setFld_ne _ _ _ _ _ hlink, State.reg_setFld_ne _ _ _ _ _ hstat]

theorem walkDone_counter (s : State) (c : Nat) (h : c ≠ cntKey Pg.fab0 5) : (walkDone false s).counter c = s.counter c := by
  unfold walkDone
  split
  · rfl
  · simp only [Bool.false_eq_true, if_false]
    rw [errEvent_counter, State.counter_count_ne _ _ _ _ _ h]
    rfl

theorem walkDone_same (s : State) : (walkDone false s).dtime = s.dtime ∧ (walkDone false s).clk = s.clk := by
  unfold walkDone
  split
  · exact ⟨rfl, rfl⟩
  · simp only [Bool.false_eq_true, if_false]
    rw [errEvent_frame]
    exact ⟨rfl, rfl⟩

/-- The trip shown and a memory test in progress failed (R506). -/
def tripShown (s : State) : State :=
  let s1 := (s.setFld R.CLK_STATUS F.CLK_STATUS_TRIP 1).setFld R.MGT_TEL_TEMP F.MGT_TEL_TEMP_TRIP 1
  if s1.mt.testing.isSome then
    (s1.setFld R.TST_MEM_STATUS F.TST_MEM_STATUS_STATE 3).modMt (fun m => { m with testing := none })
  else s1

theorem trip_eq (s : State) : trip s = sendIbi 4
    (if (tripShown s).fld R.FAB_WALK_STATUS F.FAB_WALK_STATUS_STATE = 1 then walkDone false (tripShown s) else tripShown s) := rfl

theorem tripShown_reg (s : State) (a : Nat) (h : a / 4096 = Pg.clk / 4096) :
    (tripShown s).reg a = (s.setFld R.CLK_STATUS F.CLK_STATUS_TRIP 1).reg a := by
  have ht : a ≠ R.MGT_TEL_TEMP := fun e => absurd (e ▸ h) (by decide)
  have hm : a ≠ R.TST_MEM_STATUS := fun e => absurd (e ▸ h) (by decide)
  unfold tripShown
  dsimp only
  split
  · rw [State.modMt_reg, State.reg_setFld_ne _ _ _ _ a hm, State.reg_setFld_ne _ _ _ _ a ht]
  · exact State.reg_setFld_ne _ _ _ _ a ht

theorem tripShown_same (s : State) : (tripShown s).dtime = s.dtime ∧ (tripShown s).cnt = s.cnt ∧ (tripShown s).clk = s.clk := by
  unfold tripShown
  dsimp only
  split <;> exact ⟨rfl, rfl, rfl⟩

theorem trip_reg (s : State) (a : Nat) (h : a / 4096 = Pg.clk / 4096) :
    (trip s).reg a = (s.setFld R.CLK_STATUS F.CLK_STATUS_TRIP 1).reg a := by
  rw [trip_eq, sendIbi_reg, ← tripShown_reg s a h]
  split
  · exact walkDone_reg _ a (by unfold Pg.clk at h; unfold Pg.fab0; omega)
  · rfl

theorem trip_same (s : State) : (trip s).dtime = s.dtime ∧ (trip s).clk = s.clk
    ∧ (trip s).counter (cntKey Pg.clk 2) = s.counter (cntKey Pg.clk 2) := by
  obtain ⟨hd, hc, hk⟩ := tripShown_same s
  rw [trip_eq, sendIbi_dtime, sendIbi_clk, sendIbi_counter _ _ _ (by decide)]
  have hcnt : (tripShown s).counter (cntKey Pg.clk 2) = s.counter (cntKey Pg.clk 2) := by rw [State.counter, hc]; rfl
  split
  · exact ⟨(walkDone_same _).1.trans hd, (walkDone_same _).2.trans hk, (walkDone_counter _ _ (by decide)).trans hcnt⟩
  · exact ⟨hd, hk, hcnt⟩

theorem tripStep_kept (l : List (BitVec 8)) (s : State) : TempsKept s (tripStep l s) := by
  unfold tripStep
  split
  · exact .of_regs (fun a ha hne => (trip_reg s a ha).trans (State.reg_setFld_ne _ _ _ _ a hne)) (trip_same s).1
  · exact .refl s

theorem thermalSample_temps (l : List (Option (BitVec 8))) (s : State) : TempsKept (sampled l s) (thermalSample l s) :=
  (throttledCounted_kept _).trans ((throttleStep_kept _ _ _).trans (tripStep_kept _ _))

end Sys2Proof.Machine
end

section
/-! PROOFS. The limits of the thermal sensors (R467, R468). -/

namespace Sys2Proof.Machine

theorem throttleShown_fld (v : Nat) (s : State) (g : Fld) (h : g.hi < 2 ∨ 2 < g.lo) :
    (throttleShown v s).fld R.CLK_STATUS g = s.fld R.CLK_STATUS g := by
  rw [throttleShown, State.fld_setFld_ne _ _ _ _ _ _ (by decide), State.fld_setFld_other _ _ _ _ _ (by decide) h]

theorem throttleShown_throttle (v : Nat) (s : State) : (throttleShown v s).fld R.CLK_STATUS F.CLK_STATUS_THROTTLE = v % 2 := by
  rw [throttleShown, State.fld_setFld_ne _ _ _ _ _ _ (by decide), State.fld_setFld_same _ _ _ _ (by decide)]
  rfl

theorem setThrottle_status (on : Bool) (s : State) :
    (setThrottle on s).reg R.CLK_STATUS = (throttleShown (if on then 1 else 0) s).reg R.CLK_STATUS := by
  cases on
  · rw [setThrottle_off, sendIbi_reg, State.modClk_reg]
    rfl
  · rw [setThrottle_on, sendIbi_reg, errEvent_reg_ne _ _ _ _ (by decide) (by decide), State.count_reg]
    rfl

theorem setThrottle_flag (on : Bool) (s : State) : (setThrottle on s).flag R.CLK_STATUS F.CLK_STATUS_THROTTLE = on := by
  rw [State.flag, State.fld, setThrottle_status, ← State.fld, throttleShown_throttle]
  cases on <;> rfl

theorem setThrottle_tripped (on : Bool) (s : State) : (setThrottle on s).tripped = s.tripped := by
  rw [State.tripped, State.flag, State.fld, setThrottle_status, ← State.fld, throttleShown_fld _ _ _ (by decide)]
  rfl

theorem setThrottle_counter (s : State) :
    (setThrottle true s).counter (cntKey Pg.clk 2) = (s.counter (cntKey Pg.clk 2) + 1) % 2 ^ 64 := by
  rw [setThrottle_on, sendIbi_counter _ _ _ (by decide), errEvent_counter, State.counter_count_same]
  rfl

section
variable (l : List (Option (BitVec 8))) (s : State)

theorem senseReg_regsOnly (k : Nat) (v : Option (BitVec 8)) (s : State) : RegsOnly s (senseReg k v s) := by
  cases v <;> rfl

theorem senseReg_reg_ne (k : Nat) (v : Option (BitVec 8)) (s : State) (a : Nat) (h : a ≠ R.CLK_TSENSE k) :
    (senseReg k v s).reg a = s.reg a := by
  cases v
  · exact State.reg_setFld_ne _ _ _ _ _ h
  · exact State.reg_setReg_ne _ _ _ _ h

/-- The sensors' registers after a sample. -/
def sensed : State := iter 8 (fun k t => senseReg k (l.getD k none) t) (s.at (ceilDiv s.dtime 1024 * 1024))

theorem sensed_regsOnly : RegsOnly (s.at (ceilDiv s.dtime 1024 * 1024)) (sensed l s) :=
  RegsOnly.iter 8 _ (fun k s => senseReg_regsOnly k (l.getD k none) s) _

theorem sensed_sensor (k : Fin 8) : (sensed l s).reg (R.CLK_TSENSE k)
    = match l.getD k none with
      | some w => BitVec.ofNat 32 (w.toNat + 256)
      | none => wordSet (s.reg (R.CLK_TSENSE k)) F.CLK_TSENSE_VALID 0 := by
  have hne (i j : Nat) (h : i ≠ j) : R.CLK_TSENSE i ≠ R.CLK_TSENSE j := by unfold R.CLK_TSENSE; omega
  have hsame (v : Option (BitVec 8)) (t : State) : (senseReg k v t).reg (R.CLK_TSENSE k)
      = match v with
        | some w => BitVec.ofNat 32 (w.toNat + 256)
        | none => wordSet (t.reg (R.CLK_TSENSE k)) F.CLK_TSENSE_VALID 0 := by
    cases v
    · exact State.reg_setFld_same _ _ _ _
    · exact State.reg_setReg_same _ _ _
  have hiter : ∀ n, (iter n (fun k t => senseReg k (l.getD k none) t) (s.at (ceilDiv s.dtime 1024 * 1024))).reg (R.CLK_TSENSE k)
      = if k.val < n then (match l.getD k none with
          | some w => BitVec.ofNat 32 (w.toNat + 256)
          | none => wordSet (s.reg (R.CLK_TSENSE k)) F.CLK_TSENSE_VALID 0) else s.reg (R.CLK_TSENSE k) := by
    intro n
    induction n with
    | zero => rfl
    | succ n ih =>
      rw [iter]
      by_cases h : k.val = n
      · subst h
        rw [hsame, ih, if_neg (Nat.lt_irrefl _), if_pos (Nat.lt_succ_self _)]
      · rw [senseReg_reg_ne _ _ _ _ (hne _ _ h), ih]
        exact if_congr (by omega) rfl rfl
  exact (hiter 8).trans (if_pos k.isLt)

theorem sensed_status : (sensed l s).reg R.CLK_STATUS = s.reg R.CLK_STATUS :=
  iter_keeps (fun t => State.reg t R.CLK_STATUS) _ (fun k t => senseReg_reg_ne k _ t _ (by
    unfold R.CLK_STATUS R.CLK_TSENSE; omega)) 8 (s.at (ceilDiv s.dtime 1024 * 1024))

/-- The highest temperatures of both dies shown by the telemetry. -/
def summarised : State :=
  ((sensed l s).setFld R.MGT_TEL_TEMP F.MGT_TEL_TEMP_MAX_CD (wrapInt 8 (hottest ((List.range 6).map (fun k => l.getD k none))))).setFld
    R.MGT_TEL_TEMP F.MGT_TEL_TEMP_MAX_ID (wrapInt 8 (hottest [l.getD 6 none, l.getD 7 none]))

theorem sampled_eq : sampled l s
    = errIf (decide ((validTemps l).length < 8)) Pg.clk E.clk_SENSOR_FAULT (summarised l s) := rfl

theorem sampled_reg (a : Nat) (ht : a ≠ R.MGT_TEL_TEMP) (h1 : a ≠ Pg.clk + Hdr.errStat) (h2 : a ≠ Pg.clk + Hdr.errFirst) :
    (sampled l s).reg a = (sensed l s).reg a := by
  have hsum : (summarised l s).reg a = (sensed l s).reg a :=
    (State.reg_setFld_ne _ _ _ _ _ ht).trans (State.reg_setFld_ne _ _ _ _ _ ht)
  rw [sampled_eq, errIf]
  split
  · rw [errEvent_reg_ne _ _ _ _ h1 h2, hsum]
  · exact hsum

theorem sampled_status (g : Fld) : (sampled l s).fld R.CLK_STATUS g = s.fld R.CLK_STATUS g := by
  rw [State.fld, sampled_reg l s _ (by decide) (by decide) (by decide), sensed_status, State.fld]

theorem sampled_same : (sampled l s).dtime = max s.dtime ((s.dtime + 1023) / 1024 * 1024)
    ∧ (sampled l s).clk = s.clk ∧ (sampled l s).cnt = s.cnt := by
  have h : RegsOnly (s.at (ceilDiv s.dtime 1024 * 1024)) (summarised l s) :=
    (sensed_regsOnly l s).trans ((RegsOnly.setReg _ _ _).trans (RegsOnly.setReg _ _ _))
  rw [sampled_eq, errIf_frame]
  rw [h]
  exact ⟨rfl, rfl, rfl⟩

end

theorem throttledCounted_same (s : State) : (throttledCounted s).dtime = s.dtime ∧ (throttledCounted s).clk = s.clk
    ∧ (throttledCounted s).regs = s.regs ∧ (throttledCounted s).counter (cntKey Pg.clk 2) = s.counter (cntKey Pg.clk 2) := by
  unfold throttledCounted
  split
  · exact ⟨rfl, rfl, rfl, State.counter_addCnt_ne _ _ _ _ (by decide)⟩
  · exact ⟨rfl, rfl, rfl, rfl⟩

/-- Whether the part throttles. -/
def State.throttles (s : State) : Bool := s.flag R.CLK_STATUS F.CLK_STATUS_THROTTLE

theorem trip_throttles (s : State) : (trip s).throttles = s.throttles := by
  rw [State.throttles, State.flag, State.fld, trip_reg s _ (by decide)]
  exact congrArg (· == 1) (State.fld_setFld_other s R.CLK_STATUS F.CLK_STATUS_TRIP F.CLK_STATUS_THROTTLE 1 (by decide) (by decide))

theorem trip_tripped (s : State) : (trip s).tripped = true := by
  rw [State.tripped, State.flag, State.fld, trip_reg s _ (by decide)]
  exact congrArg (· == 1) (State.fld_setFld_same s R.CLK_STATUS F.CLK_STATUS_TRIP 1 (by decide))

theorem tripStep_same (w : List (BitVec 8)) (s : State) : (tripStep w s).throttles = s.throttles ∧ (tripStep w s).clk = s.clk
    ∧ (tripStep w s).dtime = s.dtime ∧ (tripStep w s).counter (cntKey Pg.clk 2) = s.counter (cntKey Pg.clk 2) := by
  obtain ⟨hd, hc, hk⟩ := trip_same s
  unfold tripStep
  split
  · exact ⟨trip_throttles s, hc, hd, hk⟩
  · exact ⟨rfl, rfl, rfl, rfl⟩

theorem tripStep_tripped (w : List (BitVec 8)) (s : State) :
    (tripStep w s).tripped = (w.any (fun v => decide (110 ≤ v.toInt)) || s.tripped) := by
  unfold tripStep
  split
  case isTrue h => rw [trip_tripped, h.1, Bool.true_or]
  case isFalse h =>
    cases hw : w.any (fun v => decide (110 ≤ v.toInt))
    · rfl
    · have ht : s.tripped = true := by simpa [hw] using h
      rw [ht, Bool.or_true]

theorem throttleStep_tripped (hot : Int) (on : Bool) (s : State) : (throttleStep hot on s).tripped = s.tripped := by
  unfold throttleStep
  split
  · split
    · rfl
    · exact setThrottle_tripped true s
  split
  · rfl
  split
  · rfl
  split
  · rfl
  split
  · exact setThrottle_tripped false s
  · rfl

section
variable (hot : Int) (s : State)

theorem throttleStep_hot (on : Bool) (h : 100 ≤ hot) (hs : s.throttles = on) : (throttleStep hot on s).throttles = true := by
  unfold throttleStep
  rw [if_pos h]
  cases on
  · exact setThrottle_flag true s
  · exact hs

theorem throttleStep_enters (h : 100 ≤ hot) :
    (throttleStep hot false s).counter (cntKey Pg.clk 2) = (s.counter (cntKey Pg.clk 2) + 1) % 2 ^ 64 := by
  unfold throttleStep
  rw [if_pos h]
  exact setThrottle_counter s

theorem throttleStep_cool (h : ¬ 100 ≤ hot) : throttleStep hot false s = s := by
  unfold throttleStep
  rw [if_neg h]
  rfl

theorem throttleStep_warm (h : ¬ 100 ≤ hot) (h5 : 95 < hot) :
    throttleStep hot true s = s.modClk (fun c => { c with coolSince := none }) := by
  unfold throttleStep
  rw [if_neg h, if_neg (by decide), if_pos h5]

theorem throttleStep_cools (h : ¬ 95 < hot) (hc : s.clk.coolSince = none) :
    throttleStep hot true s = s.modClk (fun c => { c with coolSince := some s.dtime }) := by
  unfold throttleStep
  rw [if_neg (by omega), if_neg (by decide), if_neg h]
  simp only [hc]

theorem throttleStep_cooled (h : ¬ 95 < hot) (c : Nat) (hc : s.clk.coolSince = some c) (hs : s.throttles = true) :
    (throttleStep hot true s).throttles = false ↔ c + 24576 ≤ s.dtime := by
  unfold throttleStep
  rw [if_neg (by omega), if_neg (by decide), if_neg h]
  simp only [hc]
  split
  case isTrue ht => exact iff_of_true (setThrottle_flag false s) ht
  case isFalse ht => exact iff_of_false (by rw [hs]; decide) ht

end

/-- A sample in which every sensor is valid. -/
def allValid (v : Fin 8 → BitVec 8) : List (Option (BitVec 8)) := (List.finRange 8).map (fun k => some (v k))

theorem allValid_getD (v : Fin 8 → BitVec 8) (k : Fin 8) : (allValid v).getD k none = some (v k) := by
  simp [allValid, List.getD]

theorem allValid_temps (v : Fin 8 → BitVec 8) : validTemps (allValid v) = [v 0, v 1, v 2, v 3, v 4, v 5, v 6, v 7] := rfl

theorem le_hottestOf (v : Fin 8 → BitVec 8) (x : Int) : x ≤ hottestOf (allValid v) ↔ ∃ k, x ≤ (v k).toInt := by
  have h : hottestOf (allValid v)
      = max (max (max (max (max (max (v 0).toInt (v 1).toInt) (v 2).toInt) (v 3).toInt) (v 4).toInt) (v 5).toInt)
        (max (v 6).toInt (v 7).toInt) := rfl
  rw [h]
  simp only [le_max_iff, Fin.exists_fin_succ, Fin.exists_fin_zero]
  simp [or_assoc]

end Sys2Proof.Machine
end

section
/-! PROOFS. Timer wakes, device time and the power estimate (R470, R471, R488, R504). -/

namespace Sys2Proof.Machine

section
variable (s : State)

theorem startExit_pwrReg (d a : Nat) (hd : a ≠ R.PWR_DOM_STATUS d) (h1 : a ≠ Pg.pwr + Hdr.errStat)
    (h2 : a ≠ Pg.pwr + Hdr.errFirst) (h3 : a ≠ R.CLK_STATUS) : (startExit d s).reg a = s.reg a := by
  rcases startExit_cases d s with h | h <;> rw [h]
  rw [exitCounted_reg d _ s a h1 h2, exitBegun_reg d s a hd h3]

/-- A wake leaves every register but the domain's status, the power page's errors and CLK_STATUS. -/
theorem wakeDom_pwrReg (d : Nat) (unplanned : Bool) (a : Nat) (hd : a ≠ R.PWR_DOM_STATUS d) (h1 : a ≠ Pg.pwr + Hdr.errStat)
    (h2 : a ≠ Pg.pwr + Hdr.errFirst) (h3 : a ≠ R.CLK_STATUS) : (wakeDom d unplanned s).reg a = s.reg a := by
  unfold wakeDom
  split
  · rfl
  · split
    · rw [State.reg_setFld_ne _ _ _ _ _ hd, State.setDom_reg]
    · rw [State.count_reg]
  · rw [startExit_pwrReg _ d a hd h1 h2 h3, State.setDom_reg]

/-- A wake of a domain in retention begins its exit (R474). -/
theorem wakeDom_exits (d : Nat) (unplanned : Bool) (hd : d < 31) (hst : s.domState d = 1) (ht : s.tripped = false)
    (hdis : s.disabled d = false) (hb : s.booted = true) : (wakeDom d unplanned s).domSt d = (3, 2) := by
  have hw : wakeDom d unplanned s = startExit d (s.setDom d { s.dom d with wakeHeld := false, unplanned := unplanned }) := by
    simp only [wakeDom, hst]
  rw [hw, startExit_eq d (s.setDom d _) ht hdis hb,
    domSt_of_reg (exitCounted_reg _ _ _ _ (domStatus_ne_header (by decide)) (domStatus_ne_header (by decide)))]
  exact exitBegun_domSt _ _ hd

/-- DTIME at the time of PWR_WAKE, the timer off and the device core interrupted. -/
def timerDue : State :=
  ((s.at (s.pair R.PWR_WAKE_LO R.PWR_WAKE_HI)).setFld R.PWR_WAKE_CTRL F.PWR_WAKE_CTRL_EN 0).modClk
    (fun c => { c with timerIrqs := c.timerIrqs + 1 })

theorem timerWake_eq (h : s.flag R.PWR_WAKE_CTRL F.PWR_WAKE_CTRL_EN = true) : timerWake s = wakeDom 29 false (timerDue s) := by
  unfold timerWake
  rw [if_pos h]
  rfl

theorem timerDue_reg (a : Nat) (h : a ≠ R.PWR_WAKE_CTRL) : (timerDue s).reg a = s.reg a := by
  rw [timerDue, State.modClk_reg, State.reg_setFld_ne _ _ _ _ _ h]
  rfl

theorem timerDue_fld (a : Nat) (g : Fld) (h : a ≠ R.PWR_WAKE_CTRL) : (timerDue s).fld a g = s.fld a g := by
  rw [State.fld, timerDue_reg s a h, State.fld]

theorem timerDue_off : (timerDue s).flag R.PWR_WAKE_CTRL F.PWR_WAKE_CTRL_EN = false := by
  rw [timerDue, State.flag, State.fld, State.modClk_reg, ← State.fld, State.fld_setFld_same _ _ _ _ (by decide)]
  rfl

theorem timerWake_effects (h : s.flag R.PWR_WAKE_CTRL F.PWR_WAKE_CTRL_EN = true) :
    (timerWake s).flag R.PWR_WAKE_CTRL F.PWR_WAKE_CTRL_EN = false ∧ (timerWake s).clk.timerIrqs = s.clk.timerIrqs + 1
      ∧ (timerWake s).dtime = max s.dtime (s.pair R.PWR_WAKE_LO R.PWR_WAKE_HI) := by
  rw [timerWake_eq s h]
  refine ⟨?_, ?_, ?_⟩
  · rw [State.flag, State.fld, wakeDom_pwrReg _ _ _ _ (by decide) (by decide) (by decide) (by decide)]
    exact timerDue_off s
  · rw [wakeDom_frame]
    rfl
  · rw [wakeDom_frame]
    rfl

theorem timerWake_wakes (h : s.flag R.PWR_WAKE_CTRL F.PWR_WAKE_CTRL_EN = true) (hst : s.domState 29 = 1) (hb : s.booted = true)
    (hdis : s.disabled 29 = false) (ht : s.tripped = false) : (timerWake s).domSt 29 = (3, 2) := by
  rw [timerWake_eq s h]
  refine wakeDom_exits _ _ _ (by decide) ?_ ?_ hdis ?_
  · rwa [State.domState, timerDue_fld _ _ _ (by decide)]
  · rwa [State.tripped, State.flag, timerDue_fld _ _ _ (by decide)]
  · rwa [State.booted, timerDue_fld _ _ _ (by decide), timerDue_fld _ _ _ (by decide)]

theorem busRead_telPower (iid : Nat) (h : s.Permits iid R.MGT_TEL_POWER false .mgtTel 0) (hon : s.domOn 30 = true) :
    busRead iid R.MGT_TEL_POWER s = (s.setFld R.MGT_TEL_POWER F.MGT_TEL_POWER_PEAK 0).answers (s.reg R.MGT_TEL_POWER) := by
  rw [busRead_block iid R.MGT_TEL_POWER s .mgtTel 0 h hon (by decide)]
  exact attributeErr_quiet _ _ _ _ (State.reg_setReg_ne s _ _ _ (by decide))

/-- The state at the next update of the power estimate, its free value drawn. -/
def estimateDue : State := (s.at (ceilDiv s.dtime msTicks * msTicks)).drew 1

theorem powerEstimate_eq : powerEstimate s
    = ((estimateDue s).setFld R.MGT_TEL_POWER F.MGT_TEL_POWER_EST (Config.freeNat s.free % 65536)).setFld R.MGT_TEL_POWER
      F.MGT_TEL_POWER_PEAK (max (Config.freeNat s.free % 65536) (s.fld R.MGT_TEL_POWER F.MGT_TEL_POWER_PEAK)) := rfl

theorem powerEstimate_dtime : s.dtime ≤ (powerEstimate s).dtime ∧ (powerEstimate s).dtime < s.dtime + msTicks := by
  have h : (powerEstimate s).dtime = max s.dtime ((s.dtime + 24575) / 24576 * 24576) := rfl
  rw [h, msTicks]
  omega

theorem powerEstimate_onlyRegs : OnlyRegs [R.MGT_TEL_POWER]
    { s with dtime := (powerEstimate s).dtime, free := (powerEstimate s).free } (powerEstimate s) := by
  refine ⟨rfl, fun a ha => ?_⟩
  have hne : a ≠ R.MGT_TEL_POWER := fun e => ha (e ▸ List.mem_singleton_self _)
  rw [powerEstimate_eq, State.reg_setFld_ne _ _ _ _ _ hne, State.reg_setFld_ne _ _ _ _ _ hne]
  rfl

theorem powerEstimate_peak : (powerEstimate s).fld R.MGT_TEL_POWER F.MGT_TEL_POWER_PEAK
    = max ((powerEstimate s).fld R.MGT_TEL_POWER F.MGT_TEL_POWER_EST) (s.fld R.MGT_TEL_POWER F.MGT_TEL_POWER_PEAK) := by
  have hp : s.fld R.MGT_TEL_POWER F.MGT_TEL_POWER_PEAK < 65536 := wordFld_lt _ _
  rw [powerEstimate_eq, State.fld_setFld_same _ _ _ _ (by decide), State.fld_setFld_other _ _ _ _ _ (by decide) (by decide),
    State.fld_setFld_same _ _ _ _ (by decide)]
  show max _ _ % 65536 = max (_ % 65536 % 65536) _
  omega

end

/-- A sample of eight valid temperatures (R467, R468). -/
theorem thermalSample_valid (s : State) (v : Fin 8 → BitVec 8) :
    let hot : Int → Prop := fun x => ∃ k, x ≤ (v k).toInt
    let t := thermalSample (allValid v) s
    (∀ k : Fin 8, t.reg (R.CLK_TSENSE k) = BitVec.ofNat 32 ((v k).toNat + 256))
      ∧ t.dtime = max s.dtime ((s.dtime + 1023) / 1024 * 1024)
      ∧ (hot 100 → t.throttles = true)
      ∧ (hot 100 → s.throttles = false → t.counter (cntKey Pg.clk 2) = (s.counter (cntKey Pg.clk 2) + 1) % 2 ^ 64)
      ∧ (¬ hot 100 → s.throttles = false → t.throttles = false)
      ∧ (¬ hot 100 → s.throttles = true →
        (hot 96 → t.throttles = true ∧ t.clk.coolSince = none)
          ∧ (¬ hot 96 → s.clk.coolSince = none → t.throttles = true ∧ t.clk.coolSince = some t.dtime)
          ∧ (¬ hot 96 → ∀ c, s.clk.coolSince = some c → (t.throttles = false ↔ c + 24576 ≤ t.dtime)))
      ∧ (hot 110 → t.tripped = true) ∧ (¬ hot 110 → t.tripped = s.tripped) := by
  intro hot t
  obtain ⟨hsd, hsc, hsn⟩ := sampled_same (allValid v) s
  obtain ⟨hud, huc, hur, hun⟩ := throttledCounted_same (sampled (allValid v) s)
  have hthr : (sampled (allValid v) s).throttles = s.throttles := congrArg (· == 1) (sampled_status _ _ _)
  have htrip : (sampled (allValid v) s).tripped = s.tripped := congrArg (· == 1) (sampled_status _ _ _)
  obtain ⟨htemps, hdtime, -⟩ := thermalSample_temps (allValid v) s
  have hus : (throttledCounted (sampled (allValid v) s)).throttles = s.throttles := by
    rw [← hthr, State.throttles, State.flag, State.fld, State.reg, hur]
    rfl
  have hut : (throttledCounted (sampled (allValid v) s)).tripped = s.tripped := by
    rw [← htrip, State.tripped, State.flag, State.fld, State.reg, hur]
    rfl
  have hhot (x : Int) : x ≤ hottestOf (allValid v) ↔ hot x := le_hottestOf v x
  have h95 : 95 < hottestOf (allValid v) ↔ hot 96 := hhot 96
  have ht : t = tripStep (validTemps (allValid v))
      (throttleStep (hottestOf (allValid v)) s.throttles (throttledCounted (sampled (allValid v) s))) :=
    (thermalSample_eq _ _).trans (by rw [← hthr]; rfl)
  have htd : t.dtime = (throttledCounted (sampled (allValid v) s)).dtime := hdtime.trans hud.symm
  have hcool : (throttledCounted (sampled (allValid v) s)).clk = s.clk := huc.trans hsc
  have hcnt : (throttledCounted (sampled (allValid v) s)).counter (cntKey Pg.clk 2) = s.counter (cntKey Pg.clk 2) :=
    hun.trans (by rw [State.counter, hsn]; rfl)
  generalize throttledCounted (sampled (allValid v) s) = u at *
  obtain ⟨hqt, hqc, -, hqn⟩ := tripStep_same (validTemps (allValid v)) (throttleStep (hottestOf (allValid v)) s.throttles u)
  have htr : t.tripped = ((validTemps (allValid v)).any (fun v => decide (110 ≤ v.toInt)) || s.tripped) := by
    rw [ht, tripStep_tripped, throttleStep_tripped, hut]
  have hany : (validTemps (allValid v)).any (fun v => decide (110 ≤ v.toInt)) = true ↔ hot 110 := by
    simp [allValid_temps, hot, Fin.exists_fin_succ]
  refine ⟨fun k => ?_, hdtime.trans hsd, fun h => ?_, fun h hs => ?_, fun h hs => ?_, fun h hs => ⟨fun h6 => ?_, fun h6 hc => ?_,
    fun h6 c hc => ?_⟩, fun h => ?_, fun h => ?_⟩
  · rw [htemps k k.isLt, sampled_reg _ _ _ (by unfold R.CLK_TSENSE R.MGT_TEL_TEMP Pg.clk Pg.mgtTel; omega)
      (by unfold R.CLK_TSENSE Hdr.errStat; omega) (by unfold R.CLK_TSENSE Hdr.errFirst; omega), sensed_sensor, allValid_getD]
  · rw [ht, hqt]
    exact throttleStep_hot _ _ _ ((hhot 100).mpr h) hus
  · rw [ht, hqn, hs, throttleStep_enters _ _ ((hhot 100).mpr h), hcnt]
  · rw [ht, hqt, hs, throttleStep_cool _ _ (mt (hhot 100).mp h), hus, hs]
  · rw [ht, hqt, hqc, hs, throttleStep_warm _ _ (mt (hhot 100).mp h) (h95.mpr h6)]
    exact ⟨hus.trans hs, rfl⟩
  · rw [htd, ht, hqt, hqc, hs, throttleStep_cools _ _ (mt h95.mp h6) (hcool ▸ hc)]
    exact ⟨hus.trans hs, rfl⟩
  · rw [htd, ht, hqt, hs]
    exact throttleStep_cooled _ _ (mt h95.mp h6) c (hcool ▸ hc) (hus.trans hs)
  · rw [htr, hany.mpr h, Bool.true_or]
  · rw [htr, Bool.eq_false_iff.mpr (mt hany.mp h), Bool.false_or]

/-- A sensor that gives no valid temperature keeps the last one, and is reported (R467). -/
theorem thermalSample_invalid (s : State) (l : List (Option (BitVec 8))) (k : Fin 8) (h : l.getD k none = none) :
    let t := thermalSample l s
    t.flag (R.CLK_TSENSE k) F.CLK_TSENSE_VALID = false
      ∧ t.fld (R.CLK_TSENSE k) F.CLK_TSENSE_TEMP = s.fld (R.CLK_TSENSE k) F.CLK_TSENSE_TEMP
      ∧ bitOf (t.reg (Pg.clk + Hdr.errStat)).toNat E.clk_SENSOR_FAULT = true := by
  intro t
  obtain ⟨htemps, -, herr⟩ := thermalSample_temps l s
  have hreg : t.reg (R.CLK_TSENSE k) = wordSet (s.reg (R.CLK_TSENSE k)) F.CLK_TSENSE_VALID 0 := by
    rw [htemps k k.isLt, sampled_reg _ _ _ (by unfold R.CLK_TSENSE R.MGT_TEL_TEMP Pg.clk Pg.mgtTel; omega)
      (by unfold R.CLK_TSENSE Hdr.errStat; omega) (by unfold R.CLK_TSENSE Hdr.errFirst; omega), sensed_sensor, h]
  have hshort : (validTemps l).length < 8 := by
    have hmem : l.getD k none ∈ (List.range 6).map (fun k => l.getD k none) ++ [l.getD 6 none, l.getD 7 none] := by
      fin_cases k <;> simp [List.range_succ]
    rw [h] at hmem
    have hlen : ((List.range 6).map (fun k => l.getD k none) ++ [l.getD 6 none, l.getD 7 none]).length = 8 := by simp
    exact (List.reduceOption_length_lt_iff.mpr hmem).trans_eq hlen
  refine ⟨?_, ?_, herr ?_⟩
  · rw [State.flag, State.fld, hreg, wordFld_wordSet _ _ _ (by decide)]
    rfl
  · rw [State.fld, hreg, wordFld_wordSet_ne _ _ _ _ (by decide) (by decide), State.fld]
  · rw [sampled_eq, errIf, if_pos (decide_eq_true hshort)]
    exact errEvent_sets _ _ _ (by decide)

/-- Settles O49, function by function: each of the seven commands is taken apart by the lemmas above. -/
theorem clocksThermalLimitsAndDeviceTime : Obligations.ClocksThermalLimitsAndDeviceTime := by
  unfold Obligations.ClocksThermalLimitsAndDeviceTime
  intro s lock
  refine ⟨fun h => ?_, fun h => ?_, fun h => ?_, fun h => ?_, fun v => ?_, fun l k h => ?_, fun h => ?_, fun h => ?_,
    fun iid hon => ⟨fun h => ?_, fun h => ?_⟩, ?_⟩
  · exact congrArg Host.Outcome.next (if_pos (by simp [h]))
  · obtain ⟨hlock, hcnt, herr, hops, hspad⟩ := pllUnlock_effects s h
    exact ⟨_, rfl, congrArg (· == 1) hlock, hcnt, herr, hops, hspad, pllUnlock_service s h⟩
  · exact congrArg Host.Outcome.next (if_pos h)
  · exact congrArg Host.Outcome.next (if_neg (by simp [h]))
  · exact ⟨_, rfl, thermalSample_valid s v⟩
  · exact ⟨_, rfl, thermalSample_invalid s l k h⟩
  · exact congrArg Host.Outcome.next (if_neg (by simp [h]))
  · obtain ⟨hoff, hirq, hd⟩ := timerWake_effects s h
    refine ⟨_, rfl, hoff, hirq, hd, fun hst hb hdis ht => ?_⟩
    have hexit := timerWake_wakes s h hst hb hdis ht
    exact ⟨congrArg Prod.fst hexit, congrArg Prod.snd hexit⟩
  · exact congrArg Host.Outcome.next (busRead_clkDtimeLo iid s h hon)
  · exact congrArg Host.Outcome.next (busRead_telPower s iid h hon)
  · exact ⟨_, rfl, (powerEstimate_dtime s).1, (powerEstimate_dtime s).2, powerEstimate_onlyRegs s, powerEstimate_peak s⟩

end Sys2Proof.Machine
end

section
/-! PROOFS. The error log in flash (R416, R418). -/

namespace Sys2Proof.Machine

/-- Whether REL_LOG_STATUS shows a flush. -/
def State.flushShown (s : State) : Bool := s.flag R.REL_LOG_STATUS F.REL_LOG_STATUS_FLUSHING

section
variable (s : State)

theorem startFlush_flash : (startFlush s).rel.flash = s.rel.flash := by unfold startFlush; split <;> rfl
theorem startFlush_windows : (startFlush s).rel.windows = s.rel.windows := by unfold startFlush; split <;> rfl
theorem startFlush_erasing : (startFlush s).rel.erasing = s.rel.erasing := by unfold startFlush; split <;> rfl
theorem startFlush_cnt : (startFlush s).cnt = s.cnt := by rw [startFlush_frame]

theorem startFlush_reg (a : Nat) (h : a ≠ R.REL_LOG_STATUS) : (startFlush s).reg a = s.reg a := by
  unfold startFlush
  split
  · rfl
  · exact State.reg_setFld_ne _ _ _ _ _ h

/-- A flush starts where something is staged and no page is being written. -/
theorem startFlush_idle (hs : s.rel.staging ≠ []) (hp : s.rel.program = none) :
    (startFlush s).flushShown = true ∧ (startFlush s).rel = { s.rel with
      program := some (.log (min 8 s.rel.staging.length)), retried := false, flushGoal := s.rel.staging.length,
      flushWaits := false, suspended := s.rel.erasing } := by
  have hne : s.rel.staging.isEmpty = false := by simp [hs]
  have h : ¬ (s.rel.staging.isEmpty = true ∨ s.rel.program.isSome = true) := by simp [hne, hp]
  unfold startFlush
  rw [if_neg h]
  refine ⟨?_, rfl⟩
  rw [State.flushShown, State.flag, State.fld_setFld_same _ _ _ _ (by decide)]
  rfl

theorem startFlush_program (hs : s.rel.staging ≠ []) : (startFlush s).rel.program.isSome = true := by
  cases hp : s.rel.program with
  | none => rw [(startFlush_idle s hs hp).2]; rfl
  | some p =>
    unfold startFlush
    rw [if_pos (by simp [hp])]
    simp [hp]

/-- A flush that is writing goes on as it is. -/
theorem startFlush_suspended (hp : s.rel.program.isSome = true) : (startFlush s).rel.suspended = s.rel.suspended := by
  unfold startFlush
  rw [if_pos (.inr hp)]

theorem logFlush_empty (h : s.rel.staging = []) : logFlush s = s := by
  unfold logFlush
  rw [if_pos (by simp [h])]

theorem logFlush_waits (h : s.rel.staging ≠ []) (he : s.rel.erasing = true) (hs : s.rel.suspended = false)
    (hpf : s.pfShown = false) : logFlush s = s.modRel (fun r => { r with flushWaits := true }) := by
  have hpf' : s.pfRefuses = false := hpf
  unfold logFlush
  rw [if_neg (by simp [h]), if_pos (by simp [he, hs, hpf'])]

theorem logFlush_starts (h : s.rel.staging ≠ []) (he : s.rel.erasing = false) : logFlush s = startFlush s := by
  unfold logFlush
  rw [if_neg (by simp [h]), if_neg (by simp [he])]

end

/-! ### Pages of a flush -/

/-- The slots of the log after the entries of `es` have been written to theirs. -/
def slotsWritten (l : List (Nat × LogEntry)) (es : List LogEntry) : List (Nat × LogEntry) :=
  es.foldl (fun t e => Tab.set t (e.seq % 4096) e) l

theorem slotsWritten_ne (es : List LogEntry) (l : List (Nat × LogEntry)) (i : Nat) (h : i ∉ es.map (fun e => e.seq % 4096)) :
    Tab.find (slotsWritten l es) i = Tab.find l i := by
  induction es generalizing l with
  | nil => rfl
  | cons e es ih =>
    rw [List.map_cons, List.mem_cons, not_or] at h
    refine (ih (Tab.set l (e.seq % 4096) e) h.2).trans ?_
    rw [Tab.find_set, if_neg h.1]

theorem slotsWritten_mem (es : List LogEntry) (l : List (Nat × LogEntry)) (hn : (es.map (fun e => e.seq % 4096)).Nodup)
    (e : LogEntry) (he : e ∈ es) : Tab.find (slotsWritten l es) (e.seq % 4096) = some e := by
  induction es generalizing l with
  | nil => exact absurd he List.not_mem_nil
  | cons f es ih =>
    rw [List.map_cons, List.nodup_cons] at hn
    rcases List.mem_cons.mp he with rfl | he
    · refine (slotsWritten_ne es _ _ hn.1).trans ?_
      rw [Tab.find_set, if_pos rfl]
    · exact ih _ hn.2 he

section
variable (k : Nat) (s : State)

theorem programEntries_same : (programEntries k s).rel.staging = s.rel.staging.drop k
    ∧ (programEntries k s).rel.flash = slotsWritten s.rel.flash (s.rel.staging.take k)
    ∧ (programEntries k s).counter (cntKey Pg.rel2 1) = (s.counter (cntKey Pg.rel2 1) + min k s.rel.staging.length) % 2 ^ 64 := by
  have hcnt (t : State) (h : t.counter (cntKey Pg.rel2 1) = s.counter (cntKey Pg.rel2 1)) :
      (t.count Pg.rel2 1 (s.rel.staging.take k).length).counter (cntKey Pg.rel2 1)
        = (s.counter (cntKey Pg.rel2 1) + min k s.rel.staging.length) % 2 ^ 64 := by
    rw [State.counter_count_same, h, List.length_take]
  unfold programEntries
  dsimp only
  split
  · exact ⟨rfl, rfl, hcnt _ rfl⟩
  · exact ⟨rfl, rfl, hcnt _ rfl⟩

/-- A flush that has written its goal, or all that is staged. -/
def flushEnded (s : State) : State :=
  (s.modRel (fun r => { r with program := none, retried := false, flushGoal := 0, suspended := false })).setFld R.REL_LOG_STATUS
    F.REL_LOG_STATUS_FLUSHING 0

theorem flushEnded_shown : (flushEnded s).flushShown = false := by
  rw [flushEnded, State.flushShown, State.flag, State.fld_setFld_same _ _ _ _ (by decide)]
  rfl

theorem logPageDone_cases : logPageDone k s
    = (programEntries k s).modRel (fun r => { r with
        program := some (.log (min logPage (min (s.rel.flushGoal - k) r.staging.length))), retried := false,
        flushGoal := s.rel.flushGoal - k })
      ∨ logPageDone k s = startFlush (flushEnded (programEntries k s))
      ∨ logPageDone k s = flushEnded (programEntries k s) := by
  unfold logPageDone
  dsimp only
  split
  · exact .inl rfl
  · split
    · exact .inr (.inl rfl)
    · exact .inr (.inr rfl)

theorem logPageDone_same : (logPageDone k s).rel.staging = s.rel.staging.drop k
    ∧ (logPageDone k s).rel.flash = slotsWritten s.rel.flash (s.rel.staging.take k)
    ∧ (logPageDone k s).counter (cntKey Pg.rel2 1) = (s.counter (cntKey Pg.rel2 1) + min k s.rel.staging.length) % 2 ^ 64 := by
  obtain ⟨hs, hf, hc⟩ := programEntries_same k s
  rcases logPageDone_cases k s with h | h | h
  · rw [h]
    exact ⟨hs, hf, hc⟩
  · rw [h, startFlush_staging, startFlush_flash, State.counter, startFlush_cnt]
    exact ⟨hs, hf, hc⟩
  · rw [h]
    exact ⟨hs, hf, hc⟩

/-- The page that empties the staging buffer ends the flush. -/
theorem logPageDone_last (h : s.rel.staging.length ≤ k) : logPageDone k s = flushEnded (programEntries k s) := by
  have hnil : (programEntries k s).rel.staging = [] := (programEntries_same k s).1.trans (List.drop_eq_nil_of_le h)
  have hshort : ¬ (flushEnded (programEntries k s)).rel.staging.length ≥ stagingFull := by
    show ¬ (programEntries k s).rel.staging.length ≥ stagingFull
    rw [hnil]
    decide
  unfold logPageDone
  dsimp only
  rw [if_neg (by rw [hnil]; simp)]
  exact if_neg hshort

theorem eraseDone_flash (he : s.rel.erasing = true) (hs : s.rel.suspended = false) (hpf : s.pfShown = false) :
    (eraseDone s).rel.erasing = false ∧ ∀ i, Tab.find (eraseDone s).rel.flash i
      = if i / 1024 = (s.logPoint / 1024 + 2) % 4 then none else Tab.find s.rel.flash i := by
  have hpf' : s.pfRefuses = false := hpf
  have hfilter (sec i : Nat) : Tab.find (s.rel.flash.filter (fun e => e.1 / logSector != sec)) i
      = if i / 1024 = sec then none else Tab.find s.rel.flash i := by
    rw [Tab.find_filter _ (fun i => i / logSector != sec)]
    by_cases h : i / 1024 = sec <;> simp [logSector, h]
  unfold eraseDone
  rw [if_neg (by simp [he, hs, hpf'])]
  dsimp only
  split
  · rw [startFlush_erasing, startFlush_flash]
    exact ⟨rfl, hfilter _⟩
  · exact ⟨rfl, hfilter _⟩

theorem eraseDone_idle (he : s.rel.erasing = false) : eraseDone s = s := by
  unfold eraseDone
  rw [if_pos (by simp [he])]

end

end Sys2Proof.Machine
end

section
/-! PROOFS. Records written to flash, power failure and the windows of a partner's violations (R416, R417, R423 to R425). -/

namespace Sys2Proof.Machine

theorem LogOnly.flash {s t : State} (h : LogOnly s t) : t.flash = s.flash := by rw [h]
theorem LogOnly.recs {s t : State} (h : LogOnly s t) : t.recs = s.recs := by rw [h]

theorem logPartner_frame (base bit kind unit : Nat) (s : State) : LogOnly s (logPartner base bit kind unit s) := by
  have hrel (t : State) (r : Rel) (k : Nat) : LogOnly t ({ t with rel := r }.count Pg.rel3 k 1) := rfl
  unfold logPartner
  dsimp only
  split
  · exact hrel s _ 5
  · exact (logEntry_frame _ s).trans (hrel _ _ 4)

section
variable (s : State)

theorem recResult_status (state result : Nat) : (recResult state result s).reg R.SEC_REC_STATUS = BitVec.ofNat 32 (state + 4 * result) := by
  unfold recResult
  dsimp only
  split
  · exact State.reg_setReg_same _ _ _
  · rw [errEvent_reg_ne _ _ _ _ (by decide) (by decide), State.reg_setReg_same]

theorem recResult_frame (state result : Nat) : ErrOnly s (recResult state result s) := by
  unfold recResult
  dsimp only
  split
  · exact rfl
  · unfold ErrOnly
    rw [errEvent_frame]
    rfl

theorem updResult_frame (state result : Nat) : ErrOnly s (updResult state result s) := by
  unfold updResult
  dsimp only
  split
  · unfold ErrOnly
    rw [errEvent_frame]
    rfl
  · exact rfl

theorem updResult_fld (state result : Nat) : (updResult state result s).fld R.CTL_UPD_STATUS F.CTL_UPD_STATUS_STATE = state % 8
    ∧ (updResult state result s).fld R.CTL_UPD_STATUS F.CTL_UPD_STATUS_RESULT = result % 16 := by
  have hstate : ((s.setFld R.CTL_UPD_STATUS F.CTL_UPD_STATUS_STATE state).setFld R.CTL_UPD_STATUS F.CTL_UPD_STATUS_RESULT result).fld
      R.CTL_UPD_STATUS F.CTL_UPD_STATUS_STATE = state % 8 := by
    rw [State.fld_setFld_other _ _ _ _ _ (by decide) (by decide), State.fld_setFld_same _ _ _ _ (by decide)]
    rfl
  have hresult : ((s.setFld R.CTL_UPD_STATUS F.CTL_UPD_STATUS_STATE state).setFld R.CTL_UPD_STATUS F.CTL_UPD_STATUS_RESULT result).fld
      R.CTL_UPD_STATUS F.CTL_UPD_STATUS_RESULT = result % 16 := by
    rw [State.fld_setFld_same _ _ _ _ (by decide)]
    rfl
  unfold updResult
  dsimp only
  split
  · rw [errEvent_fld_ne _ _ _ _ _ (by decide) (by decide), errEvent_fld_ne _ _ _ _ _ (by decide) (by decide)]
    exact ⟨hstate, hresult⟩
  · exact ⟨hstate, hresult⟩

theorem updResult_reg (state result a : Nat) (h : a / 4096 ≠ Pg.ctlUpd / 4096) : (updResult state result s).reg a = s.reg a := by
  have hne : a ≠ R.CTL_UPD_STATUS := fun e => absurd (congrArg (· / 4096) e) h
  have h1 : a ≠ Pg.ctlUpd + Hdr.errStat := fun e => absurd (congrArg (· / 4096) e) h
  have h2 : a ≠ Pg.ctlUpd + Hdr.errFirst := fun e => absurd (congrArg (· / 4096) e) h
  unfold updResult
  dsimp only
  split
  · rw [errEvent_reg_ne _ _ _ _ h1 h2, State.reg_setFld_ne _ _ _ _ _ hne, State.reg_setFld_ne _ _ _ _ _ hne]
  · rw [State.reg_setFld_ne _ _ _ _ _ hne, State.reg_setFld_ne _ _ _ _ _ hne]

/-- The state with the flash idle and `f` made of the rest of it. -/
def flashIdle (f : Flash → Flash) : State := (s.modFlash f).modFlash (fun f => { f with next := .none, retried := false })

theorem recordWritten_cfg (r : CfgRec) (h : s.flash.next = .cfg r) :
    (recordWritten s).flash = { s.flash with cfg := r, next := .none, retried := false }
      ∧ (recordWritten s).reg R.SEC_REC_STATUS = 3 ∧ (recordWritten s).recs = s.recs := by
  have hf := recResult_frame (flashIdle s (fun f => { f with cfg := r })) 3 0
  have hr := recResult_status (flashIdle s (fun f => { f with cfg := r })) 3 0
  have hw : recordWritten s = if (r.policy = 0) ≠ s.recs.reserve then
      (recResult 3 0 (flashIdle s (fun f => { f with cfg := r }))).modRel (fun x => { x with holdStarts := true })
      else recResult 3 0 (flashIdle s (fun f => { f with cfg := r })) := by
    unfold recordWritten
    simp only [h]
    rfl
  generalize recResult 3 0 (flashIdle s (fun f => { f with cfg := r })) = t at hf hr hw
  rw [hw, hf] at *
  split <;> exact ⟨rfl, hr, rfl⟩

theorem recordWritten_brd (r : BrdRec) (h : s.flash.next = .brd r) :
    (recordWritten s).flash = { s.flash with brd := r, next := .none, retried := false }
      ∧ (recordWritten s).reg R.SEC_REC_STATUS = 3 := by
  have hw : recordWritten s = recResult 3 0 (flashIdle s (fun f => { f with brd := r })) := by
    unfold recordWritten
    simp only [h]
    rfl
  rw [hw]
  refine ⟨?_, recResult_status _ 3 0⟩
  rw [recResult_frame (flashIdle s (fun f => { f with brd := r })) 3 0]
  rfl

/-- The inactive slot takes an image. -/
def imagePlaced (i : FwImg) (f : Flash) : Flash := if s.idleSlot = 0 then { f with img0 := some i } else { f with img1 := some i }

theorem recordWritten_image (i : FwImg) (h : s.flash.next = .image i) :
    (recordWritten s).flash = { imagePlaced s i s.flash with next := .none, retried := false } ∧ (recordWritten s).updState = 2 := by
  have hw : recordWritten s = updResult 2 0 (flashIdle s (imagePlaced s i)) := by
    unfold recordWritten
    simp only [h]
    rfl
  rw [hw]
  refine ⟨?_, (updResult_fld _ 2 0).1⟩
  rw [updResult_frame (flashIdle s (imagePlaced s i)) 2 0]
  rfl

theorem recordWritten_badImage (r : Nat) (h : s.flash.next = .badImage r) : (recordWritten s).flash.next = .none := by
  have hw : recordWritten s = updResult 5 r (flashIdle s id) := by
    unfold recordWritten
    simp only [h]
    rfl
  rw [hw, updResult_frame (flashIdle s id) 5 r]
  rfl

/-- The active slot and its image's version shown, and the records of that image in force (R367). -/
def updShown : State :=
  let img := (if s.flash.slot = 0 then s.flash.img0 else s.flash.img1).getD ⟨0, 0, 0, 0⟩
  let s1 := (s.setFld R.CTL_STATUS F.CTL_STATUS_BOOT_SLOT s.flash.slot).setFld R.CTL_STATUS F.CTL_STATUS_FW_VER img.version
  let r := s1.recs
  ({ s1 with recs := { r with svns := img.svn :: r.svns.drop 1, floors := img.floor :: r.floors.drop 1, measFw := s1.free } }).drew 16

theorem updDone_eq : updDone s = errEvent Pg.ctlUpd E.ctlUpd_UPD_DONE (updResult 4 0 (updShown s)) := rfl

theorem updShown_slot : (updShown s).fld R.CTL_STATUS F.CTL_STATUS_BOOT_SLOT = s.flash.slot % 2 := by
  unfold updShown
  dsimp only
  exact (State.fld_setFld_other _ _ _ _ _ (by decide) (by decide)).trans (State.fld_setFld_same _ _ _ _ (by decide))

theorem recordWritten_pointer (p : Nat) (h : s.flash.next = .pointer p) :
    (recordWritten s).flash = { s.flash with slot := p, next := .none, retried := false } ∧ (recordWritten s).updState = 4
      ∧ (recordWritten s).fld R.CTL_STATUS F.CTL_STATUS_BOOT_SLOT = p % 2 := by
  have hw : recordWritten s = updDone (flashIdle s (fun f => { f with slot := p })) := by
    unfold recordWritten
    simp only [h]
    rfl
  rw [hw, updDone_eq]
  refine ⟨?_, ?_, ?_⟩
  · rw [errEvent_frame, updResult_frame (updShown _) 4 0]
    rfl
  · rw [State.updState, errEvent_fld_ne _ _ _ _ _ (by decide) (by decide)]
    exact (updResult_fld _ 4 0).1
  · rw [errEvent_fld_ne _ _ _ _ _ (by decide) (by decide), State.fld, updResult_reg _ _ _ _ (by decide)]
    exact updShown_slot (flashIdle s (fun f => { f with slot := p }))

theorem recordWritten_none (h : s.flash.next = .none) : recordWritten s = s := by
  unfold recordWritten
  simp only [h]

theorem recordWritten_idle : (recordWritten s).flash.next = .none := by
  cases h : s.flash.next with
  | none => rw [recordWritten_none s h, h]
  | cfg r => rw [(recordWritten_cfg s r h).1]
  | brd r => rw [(recordWritten_brd s r h).1]
  | image i => rw [(recordWritten_image s i h).1]
  | badImage r => exact recordWritten_badImage s r h
  | pointer p => rw [(recordWritten_pointer s p h).1]

/-! ### A program that fails (R416) -/

theorem recordFailed_same (h : s.flash.next ≠ .none) :
    (recordFailed s).flash = { s.flash with next := .none, retried := false } ∧ (recordFailed s).recs = s.recs := by
  have hr := recResult_frame (flashIdle s id) 3 4
  have hu := updResult_frame (flashIdle s id) 5 4
  cases hn : s.flash.next with
  | none => exact absurd hn h
  | cfg _ | brd _ =>
    have hw : recordFailed s = recResult 3 4 (flashIdle s id) := by
      unfold recordFailed
      simp only [hn]
      rfl
    rw [hw, hr]
    exact ⟨rfl, rfl⟩
  | image _ | badImage _ | pointer _ =>
    have hw : recordFailed s = updResult 5 4 (flashIdle s id) := by
      unfold recordFailed
      simp only [hn]
      rfl
    rw [hw, hu]
    exact ⟨rfl, rfl⟩

theorem recordFailed_cfg (r : CfgRec) (h : s.flash.next = .cfg r) : (recordFailed s).reg R.SEC_REC_STATUS = 19 := by
  have hw : recordFailed s = recResult 3 4 (flashIdle s id) := by
    unfold recordFailed
    simp only [h]
    rfl
  rw [hw, recResult_status]
  rfl

theorem recordFailed_image (i : FwImg) (h : s.flash.next = .image i) :
    (recordFailed s).fld R.CTL_UPD_STATUS F.CTL_UPD_STATUS_RESULT = 4 := by
  have hw : recordFailed s = updResult 5 4 (flashIdle s id) := by
    unfold recordFailed
    simp only [h]
    rfl
  rw [hw, (updResult_fld _ 5 4).2]

/-- The second failure of a program is logged as a partner's violation, of the update or of the record. -/
theorem flashTimeout_failed (h : s.flash.next ≠ .none) (hr : s.flash.retried = true) :
    ∃ base bit, flashTimeout false s = logPartner base bit LogKind.flash 0 (recordFailed s) := by
  unfold flashTimeout
  rw [if_neg (by decide), if_neg h, if_neg (by simp [hr])]
  split
  · exact ⟨_, _, rfl⟩
  · exact ⟨_, _, rfl⟩
  · exact ⟨_, _, rfl⟩
  · exact ⟨_, _, rfl⟩

end

end Sys2Proof.Machine
end

section
/-! PROOFS. Power failure and the windows of a partner's violations (R417, R423, R424). -/

namespace Sys2Proof.Machine

/-- An entry as it is staged: with the next SEQ, the time and the boot count. -/
def stagedAs (e : LogEntry) (s : State) : LogEntry :=
  { e with seq := (s.reg R.REL_LOG_SEQ).toNat, dtime := if e.dtime = 0 then s.dtime else e.dtime,
           boot := s.fld R.SEC_BOOT F.SEC_BOOT_BOOTS }

section
variable (e : LogEntry) (s : State)

theorem stageEntry_rel : (stageEntry e s).rel = { s.rel with staging := s.rel.staging ++ [stagedAs e s] } := rfl

theorem stageEntry_reg (a : Nat) (h : a ≠ R.REL_LOG_SEQ) : (stageEntry e s).reg a = s.reg a := State.reg_setReg_ne s _ _ a h

theorem stageEntry_counter (c : Nat) (h : c ≠ cntKey Pg.rel2 0) : (stageEntry e s).counter c = s.counter c :=
  State.counter_count_ne (s.setReg R.REL_LOG_SEQ _) _ _ _ c h

/-- With room and no loss to report an entry is staged, and a buffer that is half full is flushed (R418). -/
theorem logEntry_room (hlost : s.rel.lost = 0) (hroom : s.rel.staging.length < 64) :
    logEntry e s = startFlush (stageEntry e s) ∨ logEntry e s = stageEntry e s := by
  have hroom' : ¬ s.rel.staging.length ≥ stagingSize := Nat.not_le.mpr hroom
  unfold logEntry
  simp only [hroom', hlost, if_false, if_true]
  split
  · exact .inl rfl
  · exact .inr rfl

theorem logEntry_staged (hlost : s.rel.lost = 0) (hroom : s.rel.staging.length < 64) :
    (logEntry e s).rel.staging = s.rel.staging ++ [stagedAs e s] ∧ (logEntry e s).rel.windows = s.rel.windows
      ∧ (logEntry e s).rel.wearAt = s.rel.wearAt := by
  have hwear (t : State) : (startFlush t).rel.wearAt = t.rel.wearAt := by unfold startFlush; split <;> rfl
  rcases logEntry_room e s hlost hroom with h | h <;> rw [h]
  · rw [startFlush_staging, startFlush_windows, hwear]
    exact ⟨rfl, rfl, rfl⟩
  · exact ⟨rfl, rfl, rfl⟩

theorem logEntry_room_reg (hlost : s.rel.lost = 0) (hroom : s.rel.staging.length < 64) (a : Nat) (h1 : a ≠ R.REL_LOG_SEQ)
    (h2 : a ≠ R.REL_LOG_STATUS) : (logEntry e s).reg a = s.reg a := by
  rcases logEntry_room e s hlost hroom with h | h <;> rw [h]
  · rw [startFlush_reg _ _ h2, stageEntry_reg _ _ _ h1]
  · rw [stageEntry_reg _ _ _ h1]

theorem logEntry_room_counter (hlost : s.rel.lost = 0) (hroom : s.rel.staging.length < 64) (c : Nat) (hc : c ≠ cntKey Pg.rel2 0) :
    (logEntry e s).counter c = s.counter c := by
  rcases logEntry_room e s hlost hroom with h | h <;> rw [h]
  · rw [State.counter, startFlush_cnt]
    exact stageEntry_counter e s c hc
  · exact stageEntry_counter e s c hc

/-- A flush begun for a new entry, at once or while it was logged, suspends an erase. -/
theorem startFlush_logEntry_suspends (hlost : s.rel.lost = 0) (hroom : s.rel.staging.length < 64) (hp : s.rel.program = none) :
    (startFlush (logEntry e s)).rel.suspended = s.rel.erasing := by
  have hne : (stageEntry e s).rel.staging ≠ [] := by rw [stageEntry_rel]; simp
  have hidle := (startFlush_idle (stageEntry e s) hne hp).2
  rcases logEntry_room e s hlost hroom with h | h <;> rw [h]
  · rw [startFlush_suspended _ (startFlush_program _ hne), hidle]
    rfl
  · rw [hidle]
    rfl

end

/-! ### PWR_FAIL_N (R423, R424) -/

section
variable (s : State)

/-- PWR_FAIL_N noted low. -/
def failNoted : State := s.modRel (fun r => { r with pfSince := some s.dtime })

theorem pwrFailFall_idle (h : s.rel.pfSince.isSome = true) : pwrFailFall s = s := if_pos h

theorem pwrFailFall_eq (h : s.rel.pfSince = none) : pwrFailFall s = powerFail none (failNoted s) := if_neg (by simp [h])

/-- The part that a power failure stops: the program of an image, which fails, or nothing. -/
theorem programStopped_cases : programStopped s = s
    ∨ programStopped s = updResult 5 4 (flashIdle s id) ∧ s.flash.next ≠ .none := by
  cases hn : s.flash.next with
  | none | cfg _ | brd _ | pointer _ => exact .inl (by simp only [programStopped, hn])
  | image _ | badImage _ => exact .inr ⟨by simp only [programStopped, recordFailed, hn]; rfl, by simp⟩

theorem programStopped_dtime : (programStopped s).dtime = s.dtime := by
  rcases programStopped_cases s with h | ⟨h, -⟩ <;> rw [h]
  rw [updResult_frame (flashIdle s id) 5 4]
  rfl

theorem programStopped_counter (c : Nat) : (programStopped s).counter c = s.counter c := by
  rcases programStopped_cases s with h | ⟨h, -⟩ <;> rw [h]
  rw [State.counter, updResult_frame (flashIdle s id) 5 4]
  rfl

theorem programStopped_image (i : FwImg) (h : s.flash.next = .image i) :
    (programStopped s).flash = { s.flash with next := .none, retried := false }
      ∧ (programStopped s).fld R.CTL_UPD_STATUS F.CTL_UPD_STATUS_RESULT = 4 := by
  have hw : programStopped s = recordFailed s := by simp only [programStopped, h]
  rw [hw]
  exact ⟨(recordFailed_same s (by rw [h]; simp)).1, recordFailed_image s i h⟩

theorem programStopped_cfg (r : CfgRec) (h : s.flash.next = .cfg r) : programStopped s = s := by
  simp only [programStopped, h]

theorem failShown_reg (a : Nat) (h : a / 4096 ≠ Pg.rel2 / 4096) : (failShown s).reg a = (programStopped s).reg a := by
  have h1 : a ≠ Pg.rel2 + Hdr.errStat := fun e => absurd (congrArg (· / 4096) e) h
  have h2 : a ≠ Pg.rel2 + Hdr.errFirst := fun e => absurd (congrArg (· / 4096) e) h
  have h3 : a ≠ R.REL_LOG_STATUS := fun e => absurd (congrArg (· / 4096) e) h
  unfold failShown
  rw [errEvent_reg_ne _ _ _ _ h1 h2, State.count_reg, State.reg_setFld_ne _ _ _ _ _ h3]

theorem failShown_flash : (failShown s).flash = (programStopped s).flash := by
  unfold failShown
  rw [errEvent_frame]
  rfl

theorem failShown_dtime : (failShown s).dtime = s.dtime := by
  unfold failShown
  rw [errEvent_frame]
  exact programStopped_dtime s

theorem failShown_counter : (failShown s).counter (cntKey Pg.rel2 3) = (s.counter (cntKey Pg.rel2 3) + 1) % 2 ^ 64 := by
  unfold failShown
  rw [errEvent_counter, State.counter_count_same, State.setFld_counter, programStopped_counter]

/-- A power failure that finds room in the staging buffer (R423). -/
theorem pwrFailFall_effects (hpf : s.rel.pfSince = none) (hlost : s.rel.lost = 0) (hroom : s.rel.staging.length < 64) :
    let t := pwrFailFall s
    ∃ e, t.pfShown = true ∧ t.counter (cntKey Pg.rel2 3) = (s.counter (cntKey Pg.rel2 3) + 1) % 2 ^ 64
      ∧ bitOf (t.reg (Pg.rel2 + Hdr.errStat)).toNat E.rel2_PWR_FAIL = true
      ∧ t.rel.staging = s.rel.staging ++ [e] ∧ e.cls = LogCls.powerFail ∧ e.arg0 = s.rel.staging.length ∧ e.dtime = s.dtime
      ∧ t.rel.program.isSome = true ∧ (s.rel.program = none → t.rel.suspended = s.rel.erasing)
      ∧ t.flash = (programStopped (failNoted s)).flash
      ∧ t.fld R.CTL_UPD_STATUS F.CTL_UPD_STATUS_RESULT
        = (programStopped (failNoted s)).fld R.CTL_UPD_STATUS F.CTL_UPD_STATUS_RESULT := by
  intro t
  have ht : t = startFlush (logEntry (failEntry none (failNoted s)) (failShown (failNoted s))) := pwrFailFall_eq s hpf
  have hrel : (failShown (failNoted s)).rel = (failNoted s).rel := (failShown_rel _).1
  have hl : (failShown (failNoted s)).rel.lost = 0 := by rw [hrel]; exact hlost
  have hr : (failShown (failNoted s)).rel.staging.length < 64 := by rw [hrel]; exact hroom
  have hstaged := (logEntry_staged (failEntry none (failNoted s)) _ hl hr).1
  have hshown : t.pfShown = true := by
    obtain ⟨-, -, -, -, hpf⟩ := logEntry_stages (failEntry none (failNoted s)) _ hl hr
    rw [ht, startFlush_pfShown, hpf, failShown_pfShown]
  have hlog := (logEntry_frame (failEntry none (failNoted s)) (failShown (failNoted s))).trans (LogOnly.startFlush _)
  refine ⟨stagedAs (failEntry none (failNoted s)) (failShown (failNoted s)), hshown, ?_, ?_, ?_, rfl, ?_, ?_, ?_, fun hp => ?_, ?_, ?_⟩
  · rw [ht, State.counter, startFlush_cnt]
    exact (logEntry_room_counter _ _ hl hr _ (by decide)).trans (failShown_counter (failNoted s))
  · rw [ht, startFlush_reg _ _ (by decide), logEntry_room_reg _ _ hl hr _ (by decide) (by decide)]
    exact errEvent_sets _ _ _ (by decide)
  · rw [ht, startFlush_staging, hstaged, hrel]
    rfl
  · show (failShown (failNoted s)).rel.staging.length = _
    rw [hrel]
    rfl
  · exact failShown_dtime (failNoted s)
  · rw [ht]
    exact startFlush_program _ (by rw [hstaged]; simp)
  · rw [ht, startFlush_logEntry_suspends _ _ hl hr (by rw [hrel]; exact hp), hrel]
    rfl
  · rw [ht, hlog.flash, failShown_flash]
  · rw [ht, State.fld, startFlush_reg _ _ (by decide), logEntry_reg _ _ _ (by decide), failShown_reg _ _ (by decide), State.fld]

theorem pwrFailRise_idle (h : s.pfShown = false) : pwrFailRise s = s := by
  have h' : s.pfRefuses = false := h
  unfold pwrFailRise
  rw [if_neg (by simp [h'])]

theorem pwrFailRise_eq (h : s.pfShown = true) : pwrFailRise s
    = (s.modRel (fun r => { r with pfSince := none })).setFld R.REL_LOG_STATUS F.REL_LOG_STATUS_PF 0 := if_pos h

/-! ### Windows (R417) -/

/-- The entry of the violations that a window merged. -/
def mergedEntry (w : PartnerWin) : LogEntry :=
  { cls := LogCls.partner, kind := w.kind, unit := w.unit, code := w.bit, count := min 255 w.merged, arg0 := w.since }

theorem windowEnd_none (k : Nat) (h : s.rel.windows[k]? = none) : windowEnd k s = s := by
  unfold windowEnd
  simp only [h]

variable (k : Nat) (w : PartnerWin) (h : s.rel.windows[k]? = some w)
include h

theorem windowEnd_early (ht : s.dtime < w.since + 1000 * msTicks) : windowEnd k s = s := by
  unfold windowEnd
  simp only [h, if_pos ht]

/-- The state without window `k`. -/
def windowClosed (s : State) (k : Nat) : State := s.modRel (fun r => { r with windows := dropNth r.windows k })

theorem windowEnd_quiet (ht : w.since + 1000 * msTicks ≤ s.dtime) (hm : w.merged = 0) : windowEnd k s = windowClosed s k := by
  unfold windowEnd
  simp only [h, if_neg (Nat.not_lt.mpr ht), if_pos hm]
  rfl

theorem windowEnd_logs (ht : w.since + 1000 * msTicks ≤ s.dtime) (hm : 0 < w.merged) : windowEnd k s
    = logEntry (mergedEntry w) (windowClosed s k) := by
  unfold windowEnd
  simp only [h, if_neg (Nat.not_lt.mpr ht), if_neg (Nat.pos_iff_ne_zero.mp hm)]
  rfl

end

theorem windowEnd_effects (s : State) (k : Nat) (w : PartnerWin) (h : s.rel.windows[k]? = some w)
    (ht : w.since + 1000 * msTicks ≤ s.dtime) (hlost : s.rel.lost = 0) (hroom : s.rel.staging.length < 64) :
    let t := windowEnd k s
    t.rel.windows = dropNth s.rel.windows k ∧ (w.merged = 0 → t.rel.staging = s.rel.staging)
      ∧ (0 < w.merged → ∃ e, t.rel.staging = s.rel.staging ++ [e] ∧ e.cls = LogCls.partner ∧ e.code = w.bit
        ∧ e.count = min 255 w.merged ∧ e.arg0 = w.since ∧ e.unit = w.unit) := by
  intro t
  rcases Nat.eq_zero_or_pos w.merged with hm | hm
  · have he : t = windowClosed s k := windowEnd_quiet s k w h ht hm
    rw [he]
    exact ⟨rfl, fun _ => rfl, fun hp => absurd hm (Nat.pos_iff_ne_zero.mp hp)⟩
  · have he := windowEnd_logs s k w h ht hm
    obtain ⟨hstaged, hwin, -⟩ := logEntry_staged (mergedEntry w) (windowClosed s k) hlost hroom
    exact ⟨(congrArg (fun t : State => t.rel.windows) he).trans hwin, fun hz => absurd hz (Nat.pos_iff_ne_zero.mp hm),
      fun _ => ⟨_, (congrArg (fun t : State => t.rel.staging) he).trans hstaged, rfl, rfl, rfl, rfl, rfl⟩⟩

/-! ### What a flash command does -/

section
variable (s : State)

theorem flashDone_log (k : Nat) (h : s.rel.program = some (.log k)) : flashDone true s = logPageDone k s := by
  unfold flashDone
  simp only [h, if_true]

theorem flashTimeout_log (k : Nat) (h : s.rel.program = some (.log k)) : flashTimeout true s
    = if !s.rel.retried then s.modRel (fun r => { r with retried := true }) else flushEnded s := by
  unfold flashTimeout
  simp only [h, if_true]
  rfl

end

/-- Settles O46: the flush, the record writes, the power failure and the windows each by the lemmas on their functions. -/
theorem theLogIsStagedFlushedAndErased : Obligations.TheLogIsStagedFlushedAndErased := by
  unfold Obligations.TheLogIsStagedFlushedAndErased
  intro s pending pf flushing
  refine ⟨fun h => ?_, fun h he hs hpf => ?_, fun h he hp => ?_, fun k hk => ⟨?_, fun hr => ?_, fun hr => ?_⟩, fun he => ?_,
    fun he hs hpf => ?_, fun hn => ?_, ?_, fun hn => ⟨fun hr => ?_, fun hr => ?_⟩, fun h => ?_, fun h hlost hroom => ?_, fun h => ?_,
    fun h => ?_, fun k => ⟨fun h => ?_, fun w h => ⟨fun ht => ?_, fun ht hlost hroom => ?_⟩⟩⟩
  · exact congrArg Host.Outcome.next (logFlush_empty s h)
  · exact congrArg Host.Outcome.next (logFlush_waits s h he hs hpf)
  · obtain ⟨hshown, hrel⟩ := startFlush_idle s h hp
    exact ⟨_, congrArg Host.Outcome.next (logFlush_starts s h he), hshown, hrel.trans (by rw [he])⟩
  · obtain ⟨hstaging, hflash, hcnt⟩ := logPageDone_same k s
    refine ⟨_, congrArg Host.Outcome.next (flashDone_log s k hk), hstaging, hcnt, fun hd e he => ?_, fun i hi => ?_, fun hlen => ?_⟩
    · rw [hflash]
      exact slotsWritten_mem _ _ hd e he
    · rw [hflash]
      exact slotsWritten_ne _ _ i hi
    · rw [logPageDone_last k s hlen]
      exact ⟨rfl, flushEnded_shown _⟩
  · refine congrArg Host.Outcome.next ((flashTimeout_log s k hk).trans ?_)
    rw [if_pos (by simp [hr])]
    rfl
  · refine ⟨flushEnded s, congrArg Host.Outcome.next ((flashTimeout_log s k hk).trans (if_neg (by simp [hr]))), rfl, rfl, rfl,
      flushEnded_shown s⟩
  · exact congrArg Host.Outcome.next (eraseDone_idle s he)
  · exact ⟨_, rfl, eraseDone_flash s he hs hpf⟩
  · exact congrArg Host.Outcome.next (recordWritten_none s hn)
  · refine ⟨recordWritten s, rfl, recordWritten_idle s, fun r h => ?_, fun r h => ?_, fun p h => ?_, fun i h => ?_⟩
    · obtain ⟨hf, hst, hrecs⟩ := recordWritten_cfg s r h
      exact ⟨by rw [hf], hst, hrecs⟩
    · obtain ⟨hf, hst⟩ := recordWritten_brd s r h
      exact ⟨by rw [hf], hst⟩
    · obtain ⟨hf, hst, hslot⟩ := recordWritten_pointer s p h
      exact ⟨by rw [hf], hst, hslot⟩
    · obtain ⟨hf, hst⟩ := recordWritten_image s i h
      refine ⟨hst, ?_, ?_⟩
      · rw [hf, imagePlaced]
        split <;> rfl
      · rw [hf, imagePlaced]
        split <;> rfl
  · refine congrArg Host.Outcome.next ?_
    unfold flashTimeout
    rw [if_neg (by decide), if_neg hn, if_pos (by simp [hr])]
    rfl
  · obtain ⟨base, bit, ht⟩ := flashTimeout_failed s hn hr
    obtain ⟨hf, hrecs⟩ := recordFailed_same s hn
    have hp := logPartner_frame base bit LogKind.flash 0 (recordFailed s)
    refine ⟨_, congrArg Host.Outcome.next ht, hp.flash.trans hf, hp.recs.trans hrecs, fun r h => ?_⟩
    rw [logPartner_reg _ _ _ _ _ _ (by decide), recordFailed_cfg s r h]
  · exact congrArg Host.Outcome.next (pwrFailFall_idle s h)
  · obtain ⟨e, hshown, hcnt, herr, hstaging, hcls, harg, hd, hprog, hsusp, hflash, hres⟩ := pwrFailFall_effects s h hlost hroom
    refine ⟨_, e, rfl, hshown, hcnt, herr, hstaging, hcls, harg, hd, hprog, hsusp, fun i hi => ?_, fun r hr => ?_⟩
    · obtain ⟨hf, hr⟩ := programStopped_image (failNoted s) i hi
      exact ⟨hflash.trans hf, hres.trans hr⟩
    · rw [hflash, programStopped_cfg (failNoted s) r hr]
      rfl
  · exact congrArg Host.Outcome.next (pwrFailRise_idle s h)
  · refine ⟨_, congrArg Host.Outcome.next (pwrFailRise_eq s h), ?_, rfl, rfl⟩
    rw [State.flag, State.fld_setFld_same _ _ _ _ (by decide)]
    rfl
  · exact congrArg Host.Outcome.next (windowEnd_none s k h)
  · exact congrArg Host.Outcome.next (windowEnd_early s k w h ht)
  · exact ⟨_, rfl, windowEnd_effects s k w h ht hlost hroom⟩

end Sys2Proof.Machine
end

section
/-! PROOFS. Runs of bytes read from DA or written to it by an agent whose accesses the model makes in one step (R219, R223, R231; log
entry 12): what they leave unchanged. -/

namespace Sys2Proof.Machine

/-! ### Errors and entries of the log: interrupts alone reach the host interface -/

/-- The host interface without the functions' own state. -/
def State.hostCore (s : State) : Hif := { s.hif with fns := [] }

theorem hif_of_hostCore {s t : State} (h : t.hostCore = s.hostCore) : t.hif = { s.hif with fns := t.hif.fns } := by
  unfold State.hostCore at h
  cases hs : s.hif
  cases ht : t.hif
  simp_all

theorem msixSend_hostCore (f v : Nat) (s : State) : (msixSend f v s).hostCore = s.hostCore := by
  unfold msixSend; split <;> rfl

theorem errIrq_hostCore (base : Nat) (s : State) : (errIrq base s).hostCore = s.hostCore := by
  unfold errIrq
  refine foldl_keeps State.hostCore _ (fun t f => ?_) _ _
  split
  · exact msixSend_hostCore _ _ _
  · rfl

theorem errEvent_hostCore (base bit : Nat) (s : State) : (errEvent base bit s).hostCore = s.hostCore := by
  unfold errEvent raiseErr
  dsimp only
  split
  · rfl
  · split
    · rw [errIrq_hostCore]; split <;> rfl
    · split <;> rfl

theorem logEntry_hostCore (e : LogEntry) (s : State) : (logEntry e s).hostCore = s.hostCore := by
  have hstage (e : LogEntry) (s : State) : (stageEntry e s).hif = s.hif := rfl
  unfold logEntry
  dsimp only
  split
  · exact errEvent_hostCore Pg.rel2 E.rel2_LOG_DROP ((s.satFld R.REL_LOG_STATUS F.REL_LOG_STATUS_DROPPED 1).count Pg.rel2 2 1)
  · simp only [State.hostCore, apply_ite State.hif, startFlush_hif, hstage, ite_self]

/-- An entry of the log leaves the power failure's flag as it is. -/
theorem logEntry_pfShown (e : LogEntry) (s : State) : (logEntry e s).pfShown = s.pfShown := by
  have hreg {s t : State} (h : t.reg R.REL_LOG_STATUS = s.reg R.REL_LOG_STATUS) : t.pfShown = s.pfShown :=
    congrArg (fun w => wordFld w F.REL_LOG_STATUS_PF == 1) h
  have hstage (e : LogEntry) (s : State) : (stageEntry e s).pfShown = s.pfShown := hreg (stageEntry_reg e s _ (by decide))
  have hdrop : ((s.satFld R.REL_LOG_STATUS F.REL_LOG_STATUS_DROPPED 1).count Pg.rel2 2 1).pfShown = s.pfShown :=
    congrArg (· == 1) (State.fld_setFld_other s R.REL_LOG_STATUS F.REL_LOG_STATUS_DROPPED F.REL_LOG_STATUS_PF _ (by decide) (by decide))
  unfold logEntry
  dsimp only
  split
  · refine Eq.trans ?_ hdrop
    exact hreg (errEvent_reg_ne Pg.rel2 E.rel2_LOG_DROP _ R.REL_LOG_STATUS (by decide) (by decide))
  · have h1 : (if s.rel.lost = 0 then s
        else { stageEntry { cls := LogCls.logDrop, arg0 := s.rel.lost } s with
                rel := { (stageEntry { cls := LogCls.logDrop, arg0 := s.rel.lost } s).rel with lost := 0 } }).pfShown
        = s.pfShown := by
      split
      · rfl
      · exact hstage { cls := LogCls.logDrop, arg0 := s.rel.lost } s
    generalize (if s.rel.lost = 0 then s
        else { stageEntry { cls := LogCls.logDrop, arg0 := s.rel.lost } s with
                rel := { (stageEntry { cls := LogCls.logDrop, arg0 := s.rel.lost } s).rel with lost := 0 } }) = u at *
    have h2 : (if u.rel.staging.length ≥ stagingSize then { u with rel := { u.rel with lost := 1 } }
        else stageEntry e u).pfShown = u.pfShown := by
      split
      · rfl
      · exact hstage e u
    generalize (if u.rel.staging.length ≥ stagingSize then { u with rel := { u.rel with lost := 1 } } else stageEntry e u) = v at *
    split
    · exact (startFlush_pfShown v).trans (h2.trans h1)
    · exact h2.trans h1

/-! ### Accesses to DA -/

/-- What an access to DA made in one step may change: DA, its pages, the error log, the counts of MT page 1, and free values. -/
structure DaKept (s t : State) : Prop where
  frame : t = { s with regs := t.regs, cnt := t.cnt, rel := t.rel, errIrqs := t.errIrqs, pins := t.pins, mt := t.mt, free := t.free,
                       da := t.da, hif := { s.hif with fns := t.hif.fns } }
  reg : ∀ a, a / 4096 ≠ Pg.mt1 / 4096 → a / 4096 ≠ Pg.rel2 / 4096 → t.reg a = s.reg a
  counter : ∀ c, c / 4096 ≠ Pg.mt1 / 4096 → c / 4096 ≠ Pg.rel2 / 4096 → t.counter c = s.counter c
  pf : t.pfShown = s.pfShown

theorem DaKept.refl (s : State) : DaKept s s := ⟨rfl, fun _ _ _ => rfl, fun _ _ _ => rfl, rfl⟩

theorem DaKept.trans {s t u : State} (h : DaKept s t) (k : DaKept t u) : DaKept s u where
  frame := by rw [k.frame, h.frame]
  reg a h1 h2 := (k.reg a h1 h2).trans (h.reg a h1 h2)
  counter c h1 h2 := (k.counter c h1 h2).trans (h.counter c h1 h2)
  pf := k.pf.trans h.pf

theorem DaKept.fld {s t : State} (h : DaKept s t) (a : Nat) (f : Fld) (h1 : a / 4096 ≠ Pg.mt1 / 4096) (h2 : a / 4096 ≠ Pg.rel2 / 4096) :
    t.fld a f = s.fld a f := by rw [State.fld, h.reg a h1 h2, State.fld]

theorem DaKept.flash {s t : State} (h : DaKept s t) : t.flash = s.flash := by rw [h.frame]

theorem DaKept.modMt (s : State) (f : Mt → Mt) : DaKept s (s.modMt f) := ⟨rfl, fun _ _ _ => rfl, fun _ _ _ => rfl, rfl⟩

theorem DaKept.drew (s : State) (k : Nat) : DaKept s (s.drew k) := ⟨rfl, fun _ _ _ => rfl, fun _ _ _ => rfl, rfl⟩

theorem DaKept.addCnt (s : State) (key k : Nat) (h : key / 4096 = Pg.mt1 / 4096) : DaKept s (s.addCnt key k) :=
  ⟨rfl, fun _ _ _ => rfl, fun c hc _ => State.counter_addCnt_ne s key k c (fun e => hc (e ▸ h)), rfl⟩

theorem DaKept.countFree (s : State) (key : Nat) (h : key / 4096 = Pg.mt1 / 4096) : DaKept s (countFree key s) :=
  (DaKept.addCnt s key (Config.freeNat s.free) h).trans (.drew _ 1)

theorem DaKept.errEvent (s : State) (bit : Nat) : DaKept s (errEvent Pg.mt1 bit s) where
  frame := by
    have hf := errEvent_frame Pg.mt1 bit s
    have hh := hif_of_hostCore (errEvent_hostCore Pg.mt1 bit s)
    generalize Machine.errEvent Pg.mt1 bit s = t at hf hh ⊢
    rw [← hh]
    rw [hf]
  reg a h1 _ := errEvent_reg_ne _ _ _ _ (fun e => h1 (by rw [e]; decide)) (fun e => h1 (by rw [e]; decide))
  counter c _ _ := errEvent_counter _ _ _ _
  pf := congrArg (fun w => wordFld w F.REL_LOG_STATUS_PF == 1)
    (errEvent_reg_ne Pg.mt1 bit s R.REL_LOG_STATUS (by decide) (by decide))

theorem DaKept.logEntry (s : State) (e : LogEntry) : DaKept s (logEntry e s) where
  frame := by
    have hf := logEntry_frame e s
    have hh := hif_of_hostCore (logEntry_hostCore e s)
    generalize Machine.logEntry e s = t at hf hh ⊢
    rw [← hh]
    unfold LogOnly at hf
    rw [hf]
  reg a _ h2 := logEntry_reg e s a h2
  counter c _ h2 := logEntry_counter e s c h2
  pf := logEntry_pfShown e s

theorem poisonMade_daKept (da owner src : Nat) (s : State) : DaKept s (poisonMade da owner src s) :=
  (DaKept.errEvent s E.mt1_POISON_MADE).trans (.logEntry _ _)

theorem touchPage_daKept (p : Nat) (s : State) : DaKept s (touchPage p s) := by
  rw [touchPage_frame]
  exact DaKept.modMt s (fun _ => (touchPage p s).mt)

theorem countRefusal_daKept (s : State) : DaKept s (countRefusal s) := .addCnt s _ _ (by decide)

theorem readSector_daKept (owner da : Nat) (s : State) : DaKept s (readSector owner da .clean s).2.2 := by
  have hcount (t : State) : DaKept t (t.count Pg.mt1 5 1) := .addCnt t _ _ (by decide)
  have hlog (base src : Nat) (t : State) : DaKept t (poisonMade base owner src (t.count Pg.mt1 5 1)) :=
    (hcount t).trans (poisonMade_daKept _ _ _ _)
  have hfails (base src : Nat) : DaKept s (poisonMade base owner src (((countFree (cntKey Pg.mt1 3) s).drew 512).count Pg.mt1 5 1)) :=
    (DaKept.countFree s _ (by decide)).trans ((DaKept.drew _ 512).trans (hlog _ _ _))
  unfold readSector
  dsimp only
  generalize s.tagAt (da / 512 * 512) = held
  cases held with
  | none => exact hfails _ _
  | some tag =>
    dsimp only
    split
    · exact hfails _ _
    · split
      · exact .refl s
      · exact hlog _ _ _

theorem fwReadRun_daKept (k base : Nat) (s : State) : DaKept s (fwReadRun k base s).2.2.2 := by
  induction k generalizing base s with
  | zero => exact .refl s
  | succ k ih =>
    unfold fwReadRun
    split
    · exact countRefusal_daKept s
    · exact ((touchPage_daKept _ s).trans (readSector_daKept _ _ _)).trans (ih _ _)

theorem fwRead_daKept (da n : Nat) (s : State) : DaKept s (fwRead da n s).2.2.2 := fwReadRun_daKept _ _ s

end Sys2Proof.Machine
end

section
/-! PROOFS. Record commands (R436, R443, R444, R463). -/

namespace Sys2Proof.Machine

/-! ### The command -/

theorem busWriteWith_recCmd (keyOk sigOk : Bool) (iid : Nat) (v : Word) (s : State) (h : s.Admits iid R.SEC_REC_CMD .secRec 0)
    (hc : commandOk [⟨1, 0, .wo, 0, 0, [(1, 2)]⟩] 0xFFFFFFFF#32 v = true) :
    busWriteWith ⟨keyOk, sigOk, false⟩ iid R.SEC_REC_CMD 0xFFFFFFFF#32 v s
      = attributeErr iid R.SEC_REC_CMD s (recCmd v keyOk sigOk s) := by
  have hf : findReg (R.SEC_REC_CMD % 4096) (regsOf .secRec)
      = some (⟨0x10c, 1, 0x0, 1, 0x0, .any, [⟨1, 0, .wo, 0, 0, [(1, 2)]⟩]⟩, 0, 0) := by decide
  rw [busWriteWith_command _ iid R.SEC_REC_CMD v s .secRec 0 _ 0 0 h (by decide) hf (by decide)
    (plainFields_of _ _ (by decide) (by decide) (by decide)) (by decide) hc]
  rfl

theorem exec_writeConfig (iid : Fin 24) (keyOk sigOk : Bool) (s : State) (h : s.Admits iid R.SEC_REC_CMD .secRec 0) :
    exec (.writeConfig iid keyOk sigOk) s = .next (attributeErr iid R.SEC_REC_CMD s (writeRecord' 2 keyOk sigOk s)) :=
  congrArg Host.Outcome.next (busWriteWith_recCmd keyOk sigOk iid 1#32 s h (by decide))

theorem exec_writeBoard (iid : Fin 24) (keyOk sigOk : Bool) (s : State) (h : s.Admits iid R.SEC_REC_CMD .secRec 0) :
    exec (.writeBoard iid keyOk sigOk) s = .next (attributeErr iid R.SEC_REC_CMD s (writeRecord' 3 keyOk sigOk s)) :=
  congrArg Host.Outcome.next (busWriteWith_recCmd keyOk sigOk iid 2#32 s h (by decide))

/-! ### What it does to the record -/

/-- The address and length that SEC_REC names. -/
def State.recDa (s : State) : Nat := s.fld R.SEC_REC_DA_LO F.SEC_REC_DA_LO_DA * 512 + s.fld R.SEC_REC_DA_HI F.SEC_REC_DA_HI_DA * 2 ^ 32
def State.recLen (s : State) : Nat := s.fld R.SEC_REC_LEN F.SEC_REC_LEN_BYTES

/-- Whether the pages of a run of bytes are T0's. -/
def State.firmwareOwns (s : State) (da n : Nat) : Prop :=
  ∀ p, da / 2 ^ 21 ≤ p → p ≤ (da + n - 1) / 2 ^ 21 → (s.page p).owner = some 0

/-- Whether a page of a run of bytes is not T0's. -/
def State.alien (s : State) (da n : Nat) : Bool :=
  (List.range ((da + n - 1) / 2 ^ 21 + 1 - da / 2 ^ 21)).any (fun k => (s.page (da / 2 ^ 21 + k)).owner != some 0)

theorem alien_iff (s : State) (da n : Nat) : s.alien da n = true ↔ ¬ s.firmwareOwns da n := by
  unfold State.alien State.firmwareOwns
  simp only [List.any_eq_true, List.mem_range, bne_iff_ne, ne_eq, not_forall]
  constructor
  · rintro ⟨k, hk, ho⟩
    exact ⟨_, Nat.le_add_right _ k, by omega, ho⟩
  · rintro ⟨p, h1, h2, ho⟩
    exact ⟨p - da / 2 ^ 21, by omega, by rwa [Nat.add_sub_cancel' h1]⟩

/-- A record refused with RESULT `k`. -/
def RecordRefused (s t : State) (k : Nat) : Prop :=
  t.flash = s.flash ∧ t.reg R.SEC_REC_STATUS = BitVec.ofNat 32 (3 + 4 * k)
    ∧ t.counter (cntKey Pg.secBoot 2) = (s.counter (cntKey Pg.secBoot 2) + 1) % 2 ^ 64
    ∧ bitOf (t.reg (Pg.secBoot + Hdr.errStat)).toNat E.secBoot_REC_REFUSED = true
    ∧ bitOf (t.reg (Pg.secRec + Hdr.errStat)).toNat E.secRec_REC_FAIL = true

theorem attributeErr_flash (iid a : Nat) (old s : State) : (attributeErr iid a old s).flash = s.flash := by
  unfold attributeErr
  dsimp only
  split <;> rfl

section
variable (iid : Nat) (s u : State) (h : DaKept s u)
include h

theorem refuseRecord_refused (k : Nat) (hk : k ≠ 0) :
    RecordRefused s (attributeErr iid R.SEC_REC_CMD s (refuseRecord k u)) k := by
  have he : refuseRecord k u = errEvent Pg.secRec E.secRec_REC_FAIL ((errEvent Pg.secBoot E.secBoot_REC_REFUSED
      (u.count Pg.secBoot 2 1)).setReg R.SEC_REC_STATUS (BitVec.ofNat 32 (3 + 4 * k))) := by
    unfold refuseRecord recResult
    rw [if_neg hk]
  rw [he]
  refine ⟨?_, ?_, ?_, ?_, ?_⟩
  · rw [attributeErr_flash, errEvent_frame]
    show (errEvent Pg.secBoot E.secBoot_REC_REFUSED (u.count Pg.secBoot 2 1)).flash = s.flash
    rw [errEvent_frame]
    exact h.flash
  · rw [attributeErr_reg_ne _ _ _ _ _ (by decide), errEvent_reg_ne _ _ _ _ (by decide) (by decide), State.reg_setReg_same]
  · rw [attributeErr_counter, errEvent_counter, State.setReg_counter, errEvent_counter, State.counter_count_same,
      h.counter _ (by decide) (by decide)]
  · rw [attributeErr_reg_ne _ _ _ _ _ (by decide), errEvent_reg_ne _ _ _ _ (by decide) (by decide),
      State.reg_setReg_ne _ _ _ _ (by decide)]
    exact errEvent_sets _ _ _ (by decide)
  · rw [attributeErr_reg_ne _ _ _ _ _ (by decide)]
    exact errEvent_sets _ _ _ (by decide)

/-- The checks of a record read the same registers after the bytes have been read. -/
theorem recordBad_kept (t : Nat) (b : List Byte) (n : Nat) (poison keyOk sigOk : Bool) :
    u.recordBad t b n poison keyOk sigOk = s.recordBad t b n poison keyOk sigOk := by
  have har (g : Fld) : u.fld R.SEC_AR g = s.fld R.SEC_AR g := h.fld _ _ (by decide) (by decide)
  have hdev : u.deviceOk b = s.deviceOk b := by
    unfold State.deviceOk
    refine congrArg (_ || ·) ?_
    rw [Bool.eq_iff_iff, List.all_eq_true, List.all_eq_true]
    refine forall₂_congr fun w hw => ?_
    have hw : w < 8 := List.mem_range.mp hw
    rw [h.reg _ (by unfold R.SEC_DEVID Pg.secBoot Pg.mt1; omega) (by unfold R.SEC_DEVID Pg.secBoot Pg.rel2; omega)]
  unfold State.recordBad
  simp only [har, hdev]

end

section
variable (keyOk sigOk : Bool) (s : State)

/-- The record in flash that a record command writes. -/
def recordTaken (t : Nat) (b : List Byte) (u : State) : State :=
  recResult 2 0 (u.modFlash (fun f => { f with
    next := if t = 2 then .cfg (parseCfg b) else .brd (parseBrd b), retried := false }))

/-- What the bytes of a record, as they were read, come to: refused by a check, blocked by a power failure, or written. -/
def recordChecked (t n : Nat) (r : List Byte × Nat × Bool × State) : State :=
  match r.2.2.2.recordBad t r.1 n (r.2.1 != 0 || !r.2.2.1) keyOk sigOk with
  | some k => refuseRecord k r.2.2.2
  | none => if r.2.2.2.pfRefuses then recResult 3 4 r.2.2.2 else recordTaken t r.1 r.2.2.2

/-- A record command on the bytes at an address. -/
def writeRecordAt (t da n : Nat) : State :=
  if s.flash.next ≠ .none then s
  else if s.alien da n then refuseRecord 1 s
  else recordChecked keyOk sigOk t n (fwRead da n s)

theorem writeRecord_at (t da n : Nat) (hda : s.recDa = da) (hn : s.recLen = n) :
    writeRecord' t keyOk sigOk s = writeRecordAt keyOk sigOk s t da n := by
  unfold State.recDa at hda
  unfold State.recLen at hn
  unfold writeRecord'
  rw [hda, hn]
  dsimp only
  cases hb : (fwRead da n s).2.2.2.recordBad t (fwRead da n s).1 n ((fwRead da n s).2.1 != 0 || !(fwRead da n s).2.2.1) keyOk sigOk with
  | none =>
    unfold writeRecordAt State.alien recordChecked recordTaken
    simp only [hb]
  | some k =>
    unfold writeRecordAt State.alien recordChecked
    simp only [hb]

theorem writeRecord_eq (t : Nat) : writeRecord' t keyOk sigOk s = if s.flash.next ≠ .none then s
    else if s.alien s.recDa s.recLen then refuseRecord 1 s
    else recordChecked keyOk sigOk t s.recLen (fwRead s.recDa s.recLen s) :=
  writeRecord_at keyOk sigOk s t _ _ rfl rfl

theorem writeRecord_alien (t : Nat) (hn : s.flash.next = .none) (h : ¬ s.firmwareOwns s.recDa s.recLen) :
    writeRecord' t keyOk sigOk s = refuseRecord 1 s := by
  rw [writeRecord_eq, if_neg (by simp [hn]), if_pos ((alien_iff s _ _).mpr h)]

/-- A record read from T0's pages without poison is refused by its checks, or is written unless power fails. -/
theorem writeRecord_owned (t : Nat) (hn : s.flash.next = .none) (h : s.firmwareOwns s.recDa s.recLen)
    (hp : (fwRead s.recDa s.recLen s).2.1 = 0) (hr : (fwRead s.recDa s.recLen s).2.2.1 = true) :
    ∃ u, DaKept s u ∧ writeRecord' t keyOk sigOk s
      = match s.recordBad t (fwRead s.recDa s.recLen s).1 s.recLen false keyOk sigOk with
        | some k => refuseRecord k u
        | none => if s.pfShown then recResult 3 4 u else recordTaken t (fwRead s.recDa s.recLen s).1 u := by
  have hk := fwRead_daKept s.recDa s.recLen s
  rw [writeRecord_eq, if_neg (by simp [hn]), if_neg (mt (alien_iff s _ _).mp (not_not.mpr h))]
  generalize fwRead s.recDa s.recLen s = r at *
  have hpf : r.2.2.2.pfRefuses = s.pfShown := hk.pf
  refine ⟨r.2.2.2, hk, ?_⟩
  rw [recordChecked, recordBad_kept s _ hk, hp, hr, hpf]
  rfl

theorem recordBad_cfg (b : List Byte) (n : Nat) (h1 : headerOk b 2 n = true) (h2 : (parseCfg b).valid = true)
    (h3 : recNum b 56 1 ≤ 3) : s.recordBad 2 b n false keyOk sigOk
      = if keyOk = false ∨ sigOk = false ∨ bitOf (s.fld R.SEC_AR F.SEC_AR_REVOKED) (recNum b 56 1) = true then some 1
        else if recNum b 16 32 = 0 ∨ s.deviceOk b = false then some 3
        else if recNum b 6 1 < s.fld R.SEC_AR F.SEC_AR_AR_CFG then some 2 else none := by
  have hm : recNum b 56 1 % 4 = recNum b 56 1 := Nat.mod_eq_of_lt (by omega)
  have h3' : ¬ 3 < recNum b 56 1 := by omega
  unfold State.recordBad
  simp only [h1, h2, hm, h3']
  cases keyOk
  · simp
  cases sigOk
  · simp
  cases bitOf (s.fld R.SEC_AR F.SEC_AR_REVOKED) (recNum b 56 1)
  · cases s.deviceOk b <;> simp
  · simp

theorem recordBad_brd (b : List Byte) (n : Nat) (h1 : headerOk b 3 n = true) : s.recordBad 3 b n false keyOk sigOk
      = if keyOk = false then some 5 else if sigOk = false then some 1
        else if s.deviceOk b = false then some 3
        else if recNum b 6 1 < s.fld R.SEC_AR F.SEC_AR_AR_BRD then some 2 else none := by
  unfold State.recordBad
  cases keyOk <;> cases sigOk <;> cases s.deviceOk b <;> simp [h1]

end

section
variable (iid : Nat) (s u : State) (h : DaKept s u)
include h

theorem recordTaken_taken (t : Nat) (b : List Byte) :
    (attributeErr iid R.SEC_REC_CMD s (recordTaken t b u)).flash
        = { s.flash with next := if t = 2 then .cfg (parseCfg b) else .brd (parseBrd b), retried := false }
      ∧ (attributeErr iid R.SEC_REC_CMD s (recordTaken t b u)).reg R.SEC_REC_STATUS = 2 := by
  refine ⟨?_, ?_⟩
  · rw [attributeErr_flash, recordTaken, recResult_frame]
    show ({ u.flash with next := _, retried := _ } : Flash) = _
    rw [h.flash]
  · rw [attributeErr_reg_ne _ _ _ _ _ (by decide), recordTaken, recResult_status]
    rfl

theorem recordBlocked_failed :
    (attributeErr iid R.SEC_REC_CMD s (recResult 3 4 u)).flash = s.flash
      ∧ (attributeErr iid R.SEC_REC_CMD s (recResult 3 4 u)).reg R.SEC_REC_STATUS = 19 := by
  refine ⟨?_, ?_⟩
  · rw [attributeErr_flash, recResult_frame]
    exact h.flash
  · rw [attributeErr_reg_ne _ _ _ _ _ (by decide), recResult_status]
    rfl

end

/-- WRITE_CONFIG (R436, R444). -/
theorem writeConfig_outcomes (iid : Nat) (keyOk sigOk : Bool) (s : State) (hn : s.flash.next = .none) :
    let r := fwRead s.recDa s.recLen s
    let t := attributeErr iid R.SEC_REC_CMD s (writeRecord' 2 keyOk sigOk s)
    (¬ s.firmwareOwns s.recDa s.recLen → RecordRefused s t 1)
      ∧ (s.firmwareOwns s.recDa s.recLen → r.2.1 = 0 → r.2.2.1 = true → headerOk r.1 2 s.recLen = true →
        (parseCfg r.1).valid = true → recNum r.1 56 1 ≤ 3 →
        ((keyOk = false ∨ sigOk = false ∨ bitOf (s.fld R.SEC_AR F.SEC_AR_REVOKED) (recNum r.1 56 1) = true) → RecordRefused s t 1)
          ∧ (keyOk = true → sigOk = true → bitOf (s.fld R.SEC_AR F.SEC_AR_REVOKED) (recNum r.1 56 1) = false →
            ((recNum r.1 16 32 = 0 ∨ s.deviceOk r.1 = false) → RecordRefused s t 3)
              ∧ (recNum r.1 16 32 ≠ 0 → s.deviceOk r.1 = true →
                (recNum r.1 6 1 < s.fld R.SEC_AR F.SEC_AR_AR_CFG → RecordRefused s t 2)
                  ∧ (s.fld R.SEC_AR F.SEC_AR_AR_CFG ≤ recNum r.1 6 1 →
                    (s.pfShown = true → t.flash = s.flash ∧ t.reg R.SEC_REC_STATUS = 19)
                      ∧ (s.pfShown = false → t.flash = { s.flash with next := .cfg (parseCfg r.1), retried := false }
                        ∧ t.reg R.SEC_REC_STATUS = 2))))) := by
  intro r t
  refine ⟨fun ha => ?_, fun ho hp hr hh hv h3 => ?_⟩
  · have ht : t = attributeErr iid R.SEC_REC_CMD s (refuseRecord 1 s) :=
      congrArg (attributeErr iid R.SEC_REC_CMD s) (writeRecord_alien keyOk sigOk s 2 hn ha)
    rw [ht]
    exact refuseRecord_refused iid s s (.refl s) 1 (by decide)
  · obtain ⟨u, hu, hw⟩ := writeRecord_owned keyOk sigOk s 2 hn ho hp hr
    rw [recordBad_cfg keyOk sigOk s r.1 s.recLen hh hv h3] at hw
    have ht := congrArg (attributeErr iid R.SEC_REC_CMD s) hw
    change t = _ at ht
    clear_value t
    refine ⟨fun hbad => ?_, fun hk hs hb => ?_⟩
    · rw [ht, if_pos hbad]
      exact refuseRecord_refused iid s u hu 1 (by decide)
    · rw [if_neg (by simp [hk, hs, hb])] at ht
      refine ⟨fun hd => ?_, fun hz hd => ?_⟩
      · rw [ht, if_pos hd]
        exact refuseRecord_refused iid s u hu 3 (by decide)
      · rw [if_neg (by simp [hz, hd])] at ht
        refine ⟨fun hl => ?_, fun hl => ?_⟩
        · rw [ht, if_pos hl]
          exact refuseRecord_refused iid s u hu 2 (by decide)
        · rw [if_neg (Nat.not_lt.mpr hl)] at ht
          refine ⟨fun hpf => ?_, fun hpf => ?_⟩
          · rw [ht]
            simp only [hpf, if_true]
            exact recordBlocked_failed iid s u hu
          · rw [ht]
            simp only [hpf]
            exact recordTaken_taken iid s u hu 2 r.1

/-- WRITE_BOARD (R436, R444). -/
theorem writeBoard_outcomes (iid : Nat) (keyOk sigOk : Bool) (s : State) (hn : s.flash.next = .none) :
    let r := fwRead s.recDa s.recLen s
    let t := attributeErr iid R.SEC_REC_CMD s (writeRecord' 3 keyOk sigOk s)
    (¬ s.firmwareOwns s.recDa s.recLen → RecordRefused s t 1)
      ∧ (s.firmwareOwns s.recDa s.recLen → r.2.1 = 0 → r.2.2.1 = true → headerOk r.1 3 s.recLen = true →
        (keyOk = false → RecordRefused s t 5) ∧ (keyOk = true → sigOk = false → RecordRefused s t 1)
          ∧ (keyOk = true → sigOk = true → s.deviceOk r.1 = true → s.fld R.SEC_AR F.SEC_AR_AR_BRD ≤ recNum r.1 6 1 →
            s.pfShown = false → t.flash = { s.flash with next := .brd (parseBrd r.1), retried := false }
              ∧ t.reg R.SEC_REC_STATUS = 2)) := by
  intro r t
  refine ⟨fun ha => ?_, fun ho hp hr hh => ?_⟩
  · have ht : t = attributeErr iid R.SEC_REC_CMD s (refuseRecord 1 s) :=
      congrArg (attributeErr iid R.SEC_REC_CMD s) (writeRecord_alien keyOk sigOk s 3 hn ha)
    rw [ht]
    exact refuseRecord_refused iid s s (.refl s) 1 (by decide)
  · obtain ⟨u, hu, hw⟩ := writeRecord_owned keyOk sigOk s 3 hn ho hp hr
    rw [recordBad_brd keyOk sigOk s r.1 s.recLen hh] at hw
    have ht := congrArg (attributeErr iid R.SEC_REC_CMD s) hw
    change t = _ at ht
    clear_value t
    refine ⟨fun hk => ?_, fun hk hs => ?_, fun hk hs hd hl hpf => ?_⟩
    · rw [ht, if_pos hk]
      exact refuseRecord_refused iid s u hu 5 (by decide)
    · rw [ht, if_neg (by simp [hk]), if_pos hs]
      exact refuseRecord_refused iid s u hu 1 (by decide)
    · rw [ht, if_neg (by simp [hk]), if_neg (by simp [hs]), if_neg (by simp [hd]), if_neg (Nat.not_lt.mpr hl)]
      simp only [hpf]
      exact recordTaken_taken iid s u hu 3 r.1

end Sys2Proof.Machine
end

section
/-! PROOFS. Anti-rollback counters, the identity and attestation (R442, R443, R445 to R447, R460, R462). -/

namespace Sys2Proof.Machine

theorem DaKept.iter (n : Nat) (f : Nat → State → State) (h : ∀ k s, DaKept s (f k s)) (s : State) : DaKept s (iter n f s) := by
  induction n with
  | zero => exact .refl s
  | succ n ih => exact ih.trans (h n _)

theorem DaKept.recs {s t : State} (h : DaKept s t) : t.recs = s.recs := by rw [h.frame]

/-! ### Anti-rollback -/

section
variable (revoke : Nat) (s : State)

theorem arRaise_refused (h : s.booted = false ∨ s.pfShown = true) : arRaise revoke s = s := by
  have hpf : s.pfRefuses = s.pfShown := rfl
  unfold arRaise
  rw [if_pos]
  rcases h with h | h
  · simp [h]
  · simp [hpf, h]

/-- The flash that a raise leaves: each counter at least at the FLOOR in force, and the REVOKED bits added. -/
def State.arRaised (s : State) (revoke : Nat) : Flash :=
  { s.flash with
    arFw := max s.flash.arFw (s.recs.floors.getD 0 0), arCfg := max s.flash.arCfg (s.recs.floors.getD 1 0)
    arBrd := max s.flash.arBrd (s.recs.floors.getD 2 0), revoked := s.flash.revoked ||| revoke % 16 }

theorem arRaise_raises (hb : s.booted = true) (hpf : s.pfShown = false) :
    ∃ k, DaKept ((arRegs { s with flash := s.arRaised revoke }).count Pg.secBoot 3 k) (arRaise revoke s) := by
  have hp : s.pfRefuses = false := hpf
  unfold arRaise
  rw [if_neg (by simp [hb, hp])]
  exact ⟨_, .iter _ _ (fun _ _ => .logEntry _ _) _⟩

theorem arRegs_fw : (arRegs s).fld R.SEC_AR F.SEC_AR_AR_FW = s.flash.arFw % 256 := by
  unfold arRegs
  rw [State.fld, State.reg_setReg_same]
  simp only [wordFld, bitsOf, F.SEC_AR_AR_FW, BitVec.toNat_ofNat]
  omega

theorem arRegs_revoked : (arRegs s).fld R.SEC_AR F.SEC_AR_REVOKED = s.flash.revoked % 16 := by
  unfold arRegs
  rw [State.fld, State.reg_setReg_same]
  simp only [wordFld, bitsOf, F.SEC_AR_REVOKED, BitVec.toNat_ofNat]
  omega

/-- An update of the anti-rollback counters (R442, R443). -/
theorem arRaise_outcome (hb : s.booted = true) (hpf : s.pfShown = false) : (arRaise revoke s).flash = s.arRaised revoke
    ∧ (arRaise revoke s).fld R.SEC_AR F.SEC_AR_AR_FW = (arRaise revoke s).flash.arFw % 256
    ∧ (arRaise revoke s).fld R.SEC_AR F.SEC_AR_REVOKED = (arRaise revoke s).flash.revoked % 16
    ∧ (arRaise revoke s).recs = s.recs := by
  obtain ⟨k, hk⟩ := arRaise_raises revoke s hb hpf
  have hfl : (arRaise revoke s).flash = s.arRaised revoke := hk.flash
  refine ⟨hfl, ?_, ?_, hk.recs⟩
  · rw [hk.fld _ _ (by decide) (by decide), State.count_fld, arRegs_fw, hfl]
  · rw [hk.fld _ _ (by decide) (by decide), State.count_fld, arRegs_revoked, hfl]

end

/-! ### The identity -/

section
variable (s : State)

theorem provision_once (h : s.flash.ident.isSome = true) : provision s = s := by
  unfold provision
  rw [if_pos h]

theorem idRegs_valid (b : Nat) (h : s.flash.ident = some b) : (idRegs s).flag R.SEC_BOOT F.SEC_BOOT_ID_VALID = true := by
  have hdev (k : Nat) (_ : k < 8) : R.SEC_BOOT ≠ R.SEC_DEVID k := by unfold R.SEC_BOOT R.SEC_DEVID; omega
  unfold idRegs State.flag State.fld
  rw [h]
  dsimp only
  rw [iter_setReg_reg _ _ _ _ _ hdev, ← State.fld, State.fld_setFld_same _ _ _ _ (by decide)]
  rfl

theorem provision_first (h : s.flash.ident = none) : (provision s).flash = { s.flash with ident := some s.free }
    ∧ (provision s).flag R.SEC_BOOT F.SEC_BOOT_ID_VALID = true ∧ s.free < (provision s).free := by
  unfold provision
  rw [if_neg (by simp [h])]
  have hr := idRegs_regsOnly ((s.modFlash (fun f => { f with ident := some s.free })).drew (8 + idWords))
  refine ⟨?_, idRegs_valid _ s.free rfl, ?_⟩
  · rw [hr]
    rfl
  · rw [hr]
    show s.free < s.free + (8 + idWords)
    unfold idWords
    omega

end

/-! ### Attestation -/

section
variable (iid : Fin 24) (s : State)

theorem wordWrite_attCmd (h : s.Admits iid R.SEC_ATT_CMD .secAtt 0) :
    wordWrite iid R.SEC_ATT_CMD 1#32 s = attributeErr iid R.SEC_ATT_CMD s (attGo iid 1#32 s) := by
  have hf : findReg (R.SEC_ATT_CMD % 4096) (regsOf .secAtt)
      = some (⟨0x120, 1, 0x0, 1, 0x0, .any, [⟨0, 0, .wo, 0, 0, []⟩]⟩, 0, 0) := by decide
  rw [busWrite_command iid R.SEC_ATT_CMD 1#32 s .secAtt 0 _ 0 0 h (by decide) (by decide) hf (by decide)
    (plainFields_of _ _ (by decide) (by decide) (by decide)) (by decide) (by decide)]
  rfl

/-- Whether a GO is refused: a signature is in progress, or the device has no identity. -/
def State.attRefused (s : State) : Prop :=
  (s.sec.reportSig = 0 ∧ s.sec.report ≠ []) ∨ s.flag R.SEC_BOOT F.SEC_BOOT_ID_VALID = false

theorem attGo_quiet : (attGo iid 1#32 s).reg (R.SEC_ATT_CMD - R.SEC_ATT_CMD % 4096 + Hdr.errStat)
    = s.reg (R.SEC_ATT_CMD - R.SEC_ATT_CMD % 4096 + Hdr.errStat) := by
  have h (k v : Nat) (g : Fld) : ((s.setFld R.SEC_ATT_STATUS F.SEC_ATT_STATUS_REQ_IID v).setFld R.SEC_ATT_STATUS g k).reg
      (R.SEC_ATT_CMD - R.SEC_ATT_CMD % 4096 + Hdr.errStat) = s.reg (R.SEC_ATT_CMD - R.SEC_ATT_CMD % 4096 + Hdr.errStat) := by
    rw [State.reg_setFld_ne _ _ _ _ _ (by decide), State.reg_setFld_ne _ _ _ _ _ (by decide)]
  unfold attGo
  rw [if_neg (by decide)]
  dsimp only
  split
  · exact h 3 _ _
  · exact h 1 _ _

/-- SEC_ATT_CMD.GO changes nothing but by its own effect. -/
theorem exec_attGo (h : s.Admits iid R.SEC_ATT_CMD .secAtt 0) : exec (.attGo iid) s = .next (attGo iid 1#32 s) := by
  refine congrArg Host.Outcome.next ((wordWrite_attCmd iid s h).trans ?_)
  exact attributeErr_quiet _ _ _ _ (attGo_quiet iid s)

theorem attGo_refused (h : s.attRefused) : attGo iid 1#32 s
    = ((s.setFld R.SEC_ATT_STATUS F.SEC_ATT_STATUS_REQ_IID iid).setFld R.SEC_ATT_STATUS F.SEC_ATT_STATUS_STATE 3).count
        Pg.secAtt 1 1 := by
  unfold attGo
  rw [if_neg (by decide)]
  refine if_pos ?_
  unfold State.attRefused at h
  simpa [← List.isEmpty_eq_false_iff] using h

theorem attGo_taken (h : ¬ s.attRefused) : attGo iid 1#32 s
    = ((s.setFld R.SEC_ATT_STATUS F.SEC_ATT_STATUS_REQ_IID iid).setFld R.SEC_ATT_STATUS F.SEC_ATT_STATUS_STATE 1).modSec
        (fun k => { k with report := reportWords iid s, reportSig := 0 }) := by
  unfold attGo
  rw [if_neg (by decide)]
  refine if_neg ?_
  unfold State.attRefused at h
  simpa [← List.isEmpty_eq_false_iff] using h

/-- The status that a GO leaves: its requester and its state. -/
theorem attStatus (k : Nat) (hk : k < 4) (t : State)
    (ht : t.reg R.SEC_ATT_STATUS = ((s.setFld R.SEC_ATT_STATUS F.SEC_ATT_STATUS_REQ_IID iid).setFld R.SEC_ATT_STATUS
      F.SEC_ATT_STATUS_STATE k).reg R.SEC_ATT_STATUS) :
    t.fld R.SEC_ATT_STATUS F.SEC_ATT_STATUS_REQ_IID = iid ∧ t.fld R.SEC_ATT_STATUS F.SEC_ATT_STATUS_STATE = k := by
  rw [State.fld, State.fld, ht, ← State.fld, ← State.fld, State.fld_setFld_other _ _ _ _ _ (by decide) (by decide),
    State.fld_setFld_same _ _ _ _ (by decide), State.fld_setFld_same _ _ _ _ (by decide)]
  exact ⟨Nat.mod_eq_of_lt (Nat.lt_of_lt_of_le iid.isLt (by decide)), Nat.mod_eq_of_lt hk⟩

/-! The words of a report. -/

theorem reportWords_length : (reportWords iid s).length = 128 := by
  unfold reportWords
  simp only [List.length_append, List.length_map, List.length_range, List.length_cons, List.length_nil, List.length_replicate]

theorem reportWords_head : (reportWords iid s).head? = some 0x1A7E5#32 := rfl

theorem reportWords_nonce (k : Nat) (hk : k < 8) : (reportWords iid s)[1 + k]? = some (s.reg (R.SEC_ATT_NONCE k)) := by
  unfold reportWords
  interval_cases k <;> rfl

theorem reportWords_devid (k : Nat) (hk : k < 8) : (reportWords iid s)[16 + k]? = some (s.reg (R.SEC_DEVID k)) := by
  unfold reportWords
  interval_cases k <;> rfl

theorem attDone_idle (h : s.sec.report = [] ∨ s.sec.reportSig ≠ 0) : attDone s = s := by
  unfold attDone
  refine if_pos ?_
  simpa using h

theorem attDone_signs (h : s.sec.report ≠ []) (hs : s.sec.reportSig = 0) :
    (attDone s).fld R.SEC_ATT_STATUS F.SEC_ATT_STATUS_STATE = 2 ∧ (attDone s).sec.report = s.sec.report
      ∧ (attDone s).sec.reportSig ≠ 0
      ∧ (attDone s).counter (cntKey Pg.secAtt 0) = (s.counter (cntKey Pg.secAtt 0) + 1) % 2 ^ 64 := by
  unfold attDone
  rw [if_neg (by simp [h, hs])]
  refine ⟨?_, rfl, Nat.succ_ne_zero _, ?_⟩
  · rw [State.count_fld]
    exact State.fld_setFld_same s _ F.SEC_ATT_STATUS_STATE 2 (by decide)
  · rw [State.counter_count_same]
    rfl

/-- A read of the report's data port (R462). -/
theorem busRead_attData (h : s.Permits iid R.SEC_ATT_DATA false .secAtt 0) : busRead iid R.SEC_ATT_DATA s = attRead s := by
  have h29 := h.2.1
  have hread : blockRead iid .secAtt 0 (R.SEC_ATT_DATA % 4096) R.SEC_ATT_DATA (s.answers 0) = attRead s := rfl
  rw [busRead_block iid R.SEC_ATT_DATA s .secAtt 0 h h29 (by decide), hread]
  exact attributeErr_quiet _ _ _ _ (State.reg_setFld_ne _ _ _ _ _ (by decide))

theorem attRead_signed (hs : s.sec.reportSig ≠ 0) (hk : s.fld R.SEC_ATT_ADDR F.SEC_ATT_ADDR_WORD < 128) :
    attRead s = (s.setFld R.SEC_ATT_ADDR F.SEC_ATT_ADDR_WORD ((s.fld R.SEC_ATT_ADDR F.SEC_ATT_ADDR_WORD + 1) % 1024)).answers
      (s.sec.report.getD (s.fld R.SEC_ATT_ADDR F.SEC_ATT_ADDR_WORD) 0) := by
  have hw : s.reportWord (s.fld R.SEC_ATT_ADDR F.SEC_ATT_ADDR_WORD) = s.sec.report.getD (s.fld R.SEC_ATT_ADDR F.SEC_ATT_ADDR_WORD) 0 := by
    unfold State.reportWord
    rw [if_neg hs, if_pos hk]
  unfold attRead
  dsimp only
  rw [hw, if_neg hs]
  rfl

/-- A read of the identity's data port (R460). -/
theorem busRead_idData (h : s.Permits iid R.SEC_ID_DATA false .secBoot 0) : busRead iid R.SEC_ID_DATA s = idRead s := by
  have h29 := h.2.1
  have hread : blockRead iid .secBoot 0 (R.SEC_ID_DATA % 4096) R.SEC_ID_DATA (s.answers 0) = idRead s := rfl
  rw [busRead_block iid R.SEC_ID_DATA s .secBoot 0 h h29 (by decide), hread]
  exact attributeErr_quiet _ _ _ _ (State.reg_setFld_ne _ _ _ _ _ (by decide))

theorem idRead_word (b : Nat) (hb : s.flash.ident = some b) (hk : s.fld R.SEC_ID_ADDR F.SEC_ID_ADDR_WORD < 1316) :
    (idRead s).rdata = BitVec.ofNat 32 (Config.freeNat (b + 8 + s.fld R.SEC_ID_ADDR F.SEC_ID_ADDR_WORD))
      ∧ (idRead s).fld R.SEC_ID_ADDR F.SEC_ID_ADDR_WORD = (s.fld R.SEC_ID_ADDR F.SEC_ID_ADDR_WORD + 1) % 2048
      ∧ (idRead s).flash = s.flash := by
  have hk' : s.fld R.SEC_ID_ADDR F.SEC_ID_ADDR_WORD < idWords := hk
  unfold idRead
  refine ⟨?_, ?_, rfl⟩
  · rw [hb]
    dsimp only
    rw [if_pos hk']
    rfl
  · refine (State.fld_setFld_same (s.answers _) _ F.SEC_ID_ADDR_WORD _ (by decide)).trans ?_
    exact Nat.mod_mod_of_dvd _ (by decide)

end

/-- Settles O51: a record command reads its bytes, checks them in the model's order and either refuses or writes them; the
counters of anti-rollback take the larger value; the identity, the report and their reads follow their own functions. -/
theorem recordsRollbackAndAttestation : Obligations.RecordsRollbackAndAttestation := by
  unfold Obligations.RecordsRollbackAndAttestation
  intro s iid
  refine ⟨fun h hn _ => ⟨fun keyOk sigOk => ?_, fun keyOk sigOk => ?_⟩, fun revoke => ⟨fun h => ?_, fun hb hpf => ?_⟩, fun h => ?_,
    fun h => ?_, fun h => ?_, fun h => ?_, fun h hs => ?_, fun h hs hk => ?_, fun h b hb hk => ?_⟩
  · exact ⟨_, exec_writeConfig iid keyOk sigOk s h, writeConfig_outcomes iid keyOk sigOk s hn⟩
  · exact ⟨_, exec_writeBoard iid keyOk sigOk s h, writeBoard_outcomes iid keyOk sigOk s hn⟩
  · exact congrArg Host.Outcome.next (arRaise_refused revoke s h)
  · have hr : s.arRaised revoke = { s.flash with
        arFw := max s.flash.arFw (s.recs.floors.getD 0 0), arCfg := max s.flash.arCfg (s.recs.floors.getD 1 0)
        arBrd := max s.flash.arBrd (s.recs.floors.getD 2 0), revoked := s.flash.revoked ||| revoke.val } := by
      unfold State.arRaised
      rw [Nat.mod_eq_of_lt revoke.isLt]
    exact ⟨_, rfl, hr ▸ arRaise_outcome revoke s hb hpf⟩
  · exact congrArg Host.Outcome.next (provision_once s h)
  · exact ⟨_, rfl, provision_first s h⟩
  · intro st
    refine ⟨_, exec_attGo iid s h, ?_⟩
    by_cases hr : s.attRefused
    · rw [attGo_refused iid s hr]
      obtain ⟨hi, hst⟩ := attStatus iid s 3 (by decide) _ (State.count_reg _ Pg.secAtt 1 1 R.SEC_ATT_STATUS)
      refine ⟨hi, fun _ => ⟨hst, rfl, ?_⟩, fun h1 h2 => ?_⟩
      · rw [State.counter_count_same]
        rfl
      · rcases hr with ⟨h3, h4⟩ | h3
        · exact absurd h1 (by simp [h3, h4])
        · rw [h2] at h3
          cases h3
    · rw [attGo_taken iid s hr]
      obtain ⟨hi, hst⟩ := attStatus iid s 1 (by decide) (((s.setFld R.SEC_ATT_STATUS F.SEC_ATT_STATUS_REQ_IID iid).setFld
        R.SEC_ATT_STATUS F.SEC_ATT_STATUS_STATE 1).modSec (fun k => { k with report := reportWords iid s, reportSig := 0 })) rfl
      exact ⟨hi, fun h1 => absurd h1 hr, fun _ _ => ⟨hst, rfl, reportWords_length iid s, reportWords_head iid s,
        reportWords_nonce iid s, reportWords_devid iid s⟩⟩
  · exact congrArg Host.Outcome.next (attDone_idle s h)
  · exact ⟨_, rfl, attDone_signs s h hs⟩
  · exact congrArg Host.Outcome.next ((busRead_attData iid s h).trans (attRead_signed s hs hk))
  · exact ⟨_, congrArg Host.Outcome.next (busRead_idData iid s h), idRead_word s b hb hk⟩

end Sys2Proof.Machine
end

section
/-! PROOFS. Lane checkers, test flits and the memory pattern engine (R493, R494, R496, R506). -/

namespace Sys2Proof.Machine

/-! ### A write of fields that stand in a transaction's shadow, and of a command (R50, R53) -/

/-- The page's error registers, the host's interrupts and the transactions differ, and nothing else. -/
structure StagedOnly (base : Nat) (s t : State) : Prop where
  frame : t = { s with regs := t.regs, errIrqs := t.errIrqs, hif := t.hif, txns := t.txns }
  reg : ∀ a, a ≠ base + Hdr.errStat → a ≠ base + Hdr.errFirst → t.reg a = s.reg a

namespace StagedOnly

theorem refl (base : Nat) (s : State) : StagedOnly base s s := ⟨rfl, fun _ _ _ => rfl⟩

theorem trans {base : Nat} {s t u : State} (h : StagedOnly base s t) (k : StagedOnly base t u) : StagedOnly base s u where
  frame := by rw [k.frame, h.frame]
  reg a h1 h2 := (k.reg a h1 h2).trans (h.reg a h1 h2)

theorem raise (base bit iid off : Nat) (s : State) : StagedOnly base s (raiseErr base bit iid off s) where
  frame := by
    have h := raiseErr_frame base bit iid off s
    generalize raiseErr base bit iid off s = t at h ⊢
    rw [h]
  reg a h1 h2 := raiseErr_reg_ne base bit iid off s a h1 h2

theorem rwtWrite (iid a : Nat) (m v : Word) (s : State) : StagedOnly (a - a % 4096) s (rwtWrite iid a m v s) := by
  unfold Machine.rwtWrite
  dsimp only
  split
  · exact raise _ _ _ _ _
  · split
    · exact ⟨rfl, fun _ _ _ => rfl⟩
    · exact raise _ _ _ _ _

theorem fieldWrite (iid a : Nat) (bm v : Word) (s : State) (f : FldDef) (h : f.acc = .rwt ∨ f.acc = .wo) :
    StagedOnly (a - a % 4096) s (fieldWrite iid a bm v s f) := by
  unfold Machine.fieldWrite
  rcases h with h | h
  · simp only [h]
    split
    · exact refl _ _
    · split
      · split
        · exact rwtWrite _ _ _ _ _
        · exact raise _ _ _ _ _
      · exact rwtWrite _ _ _ _ _
  · simp only [h]
    split
    · exact refl _ _
    · split
      · exact refl _ _
      · exact raise _ _ _ _ _

theorem fieldsWrite (iid a : Nat) (bm v : Word) (flds : List FldDef) (s : State) (h : ∀ f ∈ flds, f.acc = .rwt ∨ f.acc = .wo) :
    StagedOnly (a - a % 4096) s (fieldsWrite iid a bm v flds s) := by
  induction flds generalizing s with
  | nil => exact refl _ _
  | cons f fs ih =>
    exact (fieldWrite iid a bm v s f (h f (List.mem_cons_self ..))).trans (ih _ fun g hg => h g (List.mem_cons_of_mem _ hg))

theorem attributed (iid a : Nat) (old s : State) : StagedOnly (a - a % 4096) s (attributeErr iid a old s) where
  frame := by
    unfold attributeErr
    dsimp only
    split <;> rfl
  reg b _ h2 := attributeErr_reg_ne iid a old s b h2

theorem fld {base : Nat} {s t : State} (h : StagedOnly base s t) (a : Nat) (f : Fld) (h1 : a ≠ base + Hdr.errStat)
    (h2 : a ≠ base + Hdr.errFirst) : t.fld a f = s.fld a f := by rw [State.fld, h.reg a h1 h2, State.fld]

theorem counter {base : Nat} {s t : State} (h : StagedOnly base s t) (k : Nat) : t.counter k = s.counter k := by rw [h.frame]; rfl
theorem mt {base : Nat} {s t : State} (h : StagedOnly base s t) : t.mt = s.mt := by rw [h.frame]
theorem da {base : Nat} {s t : State} (h : StagedOnly base s t) : t.da = s.da := by rw [h.frame]
theorem cnt {base : Nat} {s t : State} (h : StagedOnly base s t) : t.cnt = s.cnt := by rw [h.frame]
theorem domOn {base : Nat} {s t : State} (h : StagedOnly base s t) (d : Nat) (hb : base + 0x100 ≤ Pg.pwr) : t.domOn d = s.domOn d := by
  have hd : t.fld (R.PWR_DOM_STATUS d) F.PWR_DOM_STATUS_STATE = s.fld (R.PWR_DOM_STATUS d) F.PWR_DOM_STATUS_STATE :=
    h.fld _ _ (by unfold R.PWR_DOM_STATUS Hdr.errStat; omega) (by unfold R.PWR_DOM_STATUS Hdr.errFirst; omega)
  have hc (f : Fld) : t.fld R.CLK_STATUS f = s.fld R.CLK_STATUS f :=
    h.fld _ _ (by unfold R.CLK_STATUS Pg.clk Hdr.errStat; unfold Pg.pwr at hb; omega)
      (by unfold R.CLK_STATUS Pg.clk Hdr.errFirst; unfold Pg.pwr at hb; omega)
  unfold State.domOn State.domState State.clocks
  rw [hd, hc, hc]

end StagedOnly

/-- A permitted write of a whole word to a register without a port: its fields meet the write, then its command acts. -/
theorem busWriteWith_fields (q : WriteOutcome) (iid a : Nat) (v : Word) (s : State) (k : PageKind) (i : Nat) (d : RegDef)
    (x y : Nat) (h : s.Admits iid a k i) (ho : 0x100 ≤ a % 4096) (hf : findReg (a % 4096) (regsOf k) = some (d, x, y))
    (hport : isPort k (a % 4096) = false) (hc : commandOk d.flds 0xFFFFFFFF#32 v = true) :
    busWriteWith q iid a 0xFFFFFFFF#32 v s = attributeErr iid a (fieldsWrite iid a 0xFFFFFFFF#32 v d.flds s)
      (writeEffect q iid k i (a % 4096) 0xFFFFFFFF#32 v s (fieldsWrite iid a 0xFFFFFFFF#32 v d.flds s)) := by
  obtain ⟨⟨hb, h29, hg, hconf⟩, hon⟩ := h
  unfold busWriteWith
  rw [withGate_open iid a true s _ hb h29, hg]
  simp only [hconf, Bool.false_eq_true, if_false]
  rw [if_neg (by omega), hf]
  simp only [hon, hport, Bool.false_eq_true, if_false, hc, Bool.and_self, if_true, blockFields, and_full]

/-! ### Lane checkers (R493) -/

section
variable (p : Fin 6) (l : Fin 2) (s : State)

theorem laneReg_ne (o k : Nat) (h : 0x100 ≤ o) (hk : k < 0x100) : Pg.tstLane p + o ≠ Pg.tstLane p + k := by omega

/-- The two counts of a lane. -/
def State.laneErrs (s : State) (p l : Nat) : Nat := s.counter (R.TST_LANE_ERR_LO p l)
def State.laneBits (s : State) (p l : Nat) : Nat := s.counter (R.TST_LANE_BITS_LO p l)

theorem laneCount_counts (e : Nat) (more : Bool) :
    (laneCount p l e more s).laneErrs p l = (s.laneErrs p l + (e + if more then Config.freeNat s.free else 0)) % 2 ^ 64
      ∧ (laneCount p l e more s).laneBits p l
        = (s.laneBits p l + (e + (if more then Config.freeNat s.free else 0) + Config.freeNat (s.free + 1))) % 2 ^ 64 := by
  have hne : R.TST_LANE_ERR_LO p l ≠ R.TST_LANE_BITS_LO p l := by
    have := l.isLt
    unfold R.TST_LANE_ERR_LO R.TST_LANE_BITS_LO
    omega
  have hd (t : State) (k j : Nat) : (t.drew k).counter j = t.counter j := rfl
  unfold laneCount State.laneErrs State.laneBits
  dsimp only
  rw [hd, hd]
  refine ⟨?_, ?_⟩
  · rw [State.counter_addCnt_ne _ _ _ _ hne, State.counter_addCnt_same]
  · rw [State.counter_addCnt_same, State.counter_addCnt_ne _ _ _ _ hne.symm]

theorem laneCount_reg (e : Nat) (more : Bool) (a : Nat) : (laneCount p l e more s).reg a = s.reg a := rfl

theorem checkerLock_locks (hc : s.checking p l = true) (hl : s.laneLocked p l = false) :
    checkerLock p l s = s.setFld (R.TST_LANE_STAT p l) F.TST_LANE_STAT_LOCK 1 := by
  unfold checkerLock
  rw [if_neg (by simp [hc, hl])]

theorem checkerLock_idle (hc : s.checking p l = false) : checkerLock p l s = s := by
  unfold checkerLock
  rw [if_pos (by simp [hc])]

theorem checkerLoss_idle (hc : s.checking p l = false) : checkerLoss p l s = s := by
  unfold checkerLoss
  rw [if_pos (by simp [hc])]

/-- A checker that loses lock (R493). -/
theorem checkerLoss_counts (hc : s.checking p l = true) (hl : s.laneLocked p l = true) :
    (checkerLoss p l s).laneLocked p l = false
      ∧ (checkerLoss p l s).laneErrs p l = (s.laneErrs p l + (16 + Config.freeNat s.free)) % 2 ^ 64
      ∧ (checkerLoss p l s).laneBits p l = (s.laneBits p l + (16 + Config.freeNat s.free + Config.freeNat (s.free + 1))) % 2 ^ 64
      ∧ (checkerLoss p l s).fld (R.TST_LANE_STAT p l) F.TST_LANE_STAT_LOSSES
        = min 255 (s.fld (R.TST_LANE_STAT p l) F.TST_LANE_STAT_LOSSES + 1)
      ∧ bitOf ((checkerLoss p l s).reg (Pg.tstLane p + Hdr.errStat)).toNat E.tstLane_LOCK_LOST = true := by
  have he : checkerLoss p l s = errEvent (Pg.tstLane p) E.tstLane_LOCK_LOST
      (((laneCount p l 16 true s).setFld (R.TST_LANE_STAT p l) F.TST_LANE_STAT_LOCK 0).satFld (R.TST_LANE_STAT p l)
        F.TST_LANE_STAT_LOSSES 1) := by
    unfold checkerLoss
    rw [if_neg (by simp [hc, hl])]
  have hcnt := laneCount_counts p l s 16 true
  simp only [if_true] at hcnt
  have h1 : R.TST_LANE_STAT p l ≠ Pg.tstLane p + Hdr.errStat := by unfold R.TST_LANE_STAT Hdr.errStat; omega
  have h2 : R.TST_LANE_STAT p l ≠ Pg.tstLane p + Hdr.errFirst := by unfold R.TST_LANE_STAT Hdr.errFirst; omega
  have hcount (k : Nat) : (checkerLoss p l s).counter k = (laneCount p l 16 true s).counter k := by
    rw [he, errEvent_counter]
    rfl
  refine ⟨?_, ?_, ?_, ?_, ?_⟩
  · rw [State.laneLocked, State.flag, he, errEvent_fld_ne _ _ _ _ _ h1 h2]
    unfold State.satFld
    rw [State.fld_setFld_other _ _ _ _ _ (by decide) (by decide), State.fld_setFld_same _ _ _ _ (by decide)]
    rfl
  · exact (hcount _).trans hcnt.1
  · exact (hcount _).trans hcnt.2
  · rw [he, errEvent_fld_ne _ _ _ _ _ h1 h2]
    unfold State.satFld
    rw [State.fld_setFld_same _ _ _ _ (by decide), State.fld_setFld_other _ _ _ _ _ (by decide) (by decide)]
    have : (laneCount p l 16 true s).fld (R.TST_LANE_STAT p l) F.TST_LANE_STAT_LOSSES
        = s.fld (R.TST_LANE_STAT p l) F.TST_LANE_STAT_LOSSES := rfl
    rw [this]
    simp only [F.TST_LANE_STAT_LOSSES, satAdd]
    omega
  · rw [he]
    exact errEvent_sets _ _ _ (by decide)

/-! ### TST_LANE_CFG.INJ -/

/-- What the lane's registers say of a check survives a write that leaves them alone. -/
theorem checking_kept {s t : State} (h : StagedOnly (Pg.tstLane p) s t) :
    t.checking p l = s.checking p l ∧ t.laneLocked p l = s.laneLocked p l
      ∧ ∀ f, t.fld (R.TST_LANE_CFG p l) f = s.fld (R.TST_LANE_CFG p l) f := by
  have hcfg (f : Fld) : t.fld (R.TST_LANE_CFG p l) f = s.fld (R.TST_LANE_CFG p l) f :=
    h.fld _ _ (by unfold R.TST_LANE_CFG Hdr.errStat; omega) (by unfold R.TST_LANE_CFG Hdr.errFirst; omega)
  have hstat (f : Fld) : t.fld (R.TST_LANE_STAT p l) f = s.fld (R.TST_LANE_STAT p l) f :=
    h.fld _ _ (by unfold R.TST_LANE_STAT Hdr.errStat; omega) (by unfold R.TST_LANE_STAT Hdr.errFirst; omega)
  have hport (f : Fld) : t.fld (R.PLM_PORT_STATUS p) f = s.fld (R.PLM_PORT_STATUS p) f :=
    h.fld _ _ (by have := p.isLt; unfold R.PLM_PORT_STATUS Pg.plmPort Pg.tstLane Hdr.errStat; omega)
      (by have := p.isLt; unfold R.PLM_PORT_STATUS Pg.plmPort Pg.tstLane Hdr.errFirst; omega)
  have hdom := h.domOn (21 + p) (by have := p.isLt; unfold Pg.tstLane Pg.pwr; omega)
  refine ⟨?_, ?_, hcfg⟩
  · unfold State.checking State.flag State.portState
    rw [hcfg, hdom, hport]
  · unfold State.laneLocked State.flag
    rw [hstat]

/-- Whether an inverted bit is met by a checker that is locked. -/
def State.injSeen (s : State) (p l : Nat) (back : Bool) : Prop :=
  s.flag (R.TST_LANE_CFG p l) F.TST_LANE_CFG_GEN = true ∧ s.checking p l = true ∧ s.laneLocked p l = true
    ∧ (back = true ∨ s.fld (R.TST_LANE_CFG p l) F.TST_LANE_CFG_LOOP = 1)

theorem laneInject_seen (back : Bool) (v : Word) (hv : wordFld v F.TST_LANE_CFG_INJ = 1) (h : s.injSeen p l back) :
    laneInject p l back v s = laneCount p l 1 false s := by
  unfold laneInject
  exact if_pos ⟨hv, h⟩

theorem laneInject_unseen (back : Bool) (v : Word) (h : ¬ s.injSeen p l back) : laneInject p l back v s = s := by
  unfold laneInject
  exact if_neg fun ⟨_, h1⟩ => h h1

/-- The register of a lane. -/
def laneCfg : RegDef := ⟨0x100, 2, 0x4, 1, 0x0, .any, [⟨1, 0, .rwt, 0, 0, []⟩, ⟨2, 2, .rwt, 0, 0, []⟩, ⟨3, 3, .rwt, 0, 0, []⟩,
  ⟨4, 4, .rwt, 0, 0, []⟩, ⟨6, 5, .rwt, 0, 0, [(0, 2)]⟩, ⟨7, 7, .wo, 0, 0, []⟩]⟩

theorem findReg_laneCfg : ∃ x y, findReg (R.TST_LANE_CFG p l % 4096) (regsOf .tstLane) = some (laneCfg, x, y) := by
  have ho : R.TST_LANE_CFG p l % 4096 = 0x100 + 4 * l := by
    have := l.isLt
    unfold R.TST_LANE_CFG Pg.tstLane
    omega
  rw [ho]
  have (k : Fin 2) : ∃ x y, findReg (0x100 + 4 * k) (regsOf .tstLane) = some (laneCfg, x, y) := by
    fin_cases k
    · exact ⟨0, 0, by decide⟩
    · exact ⟨1, 0, by decide⟩
  exact this l

end
end Sys2Proof.Machine
end

section
/-! PROOFS. The injection of a lane error, test flits and the memory pattern engine (R493, R494, R496). -/

namespace Sys2Proof.Machine

section
variable (p : Fin 6) (l : Fin 2) (s : State)

theorem laneCfg_page : R.TST_LANE_CFG p l - R.TST_LANE_CFG p l % 4096 = Pg.tstLane p := by
  have := l.isLt
  unfold R.TST_LANE_CFG Pg.tstLane
  omega

/-- LANE_INJ (R493): the fields of the write meet their transaction, and the inverted bit its checker. -/
theorem exec_laneInj (iid : Fin 24) (back : Bool) (val : Word) (h : s.Admits iid (R.TST_LANE_CFG p l) .tstLane p) :
    ∃ u, StagedOnly (Pg.tstLane p) s u
      ∧ exec (.laneInj iid p l back val) s
        = .next (attributeErr iid (R.TST_LANE_CFG p l) u (laneInject p l back (wordSet val F.TST_LANE_CFG_INJ 1) u)) := by
  obtain ⟨x, y, hf⟩ := findReg_laneCfg p l
  have ho : R.TST_LANE_CFG p l % 4096 = 0x100 + 4 * l := by
    have := l.isLt
    unfold R.TST_LANE_CFG Pg.tstLane
    omega
  have hl := l.isLt
  have hu := StagedOnly.fieldsWrite iid (R.TST_LANE_CFG p l) 0xFFFFFFFF#32 (wordSet val F.TST_LANE_CFG_INJ 1) laneCfg.flds s
    (by decide)
  rw [laneCfg_page] at hu
  refine ⟨_, hu, congrArg Host.Outcome.next ?_⟩
  have hc : commandOk laneCfg.flds 0xFFFFFFFF#32 (wordSet val F.TST_LANE_CFG_INJ 1) = true := by
    simp [commandOk, laneCfg, FldDef.ok]
  have hport : isPort .tstLane (R.TST_LANE_CFG p l % 4096) = false := rfl
  rw [busWriteWith_fields _ iid (R.TST_LANE_CFG p l) _ s .tstLane p laneCfg x y h (by omega) hf hport hc]
  generalize fieldsWrite iid (R.TST_LANE_CFG p l) 0xFFFFFFFF#32 (wordSet val F.TST_LANE_CFG_INJ 1) laneCfg.flds s = u
  have he : writeEffect ⟨false, false, back⟩ iid .tstLane p (R.TST_LANE_CFG p l % 4096) 0xFFFFFFFF#32 (wordSet val F.TST_LANE_CFG_INJ 1) s u
      = if 0x100 + 4 * l.val = 0x100 ∨ 0x100 + 4 * l.val = 0x104 then
          laneInject p ((0x100 + 4 * l - 0x100) / 4) back (wordSet val F.TST_LANE_CFG_INJ 1) u else u := by
    rw [ho]
    rfl
  have hk : (0x100 + 4 * l.val - 0x100) / 4 = l := by omega
  rw [he, if_pos (by omega), hk]

theorem laneInj_outcome (iid : Fin 24) (back : Bool) (val : Word) (h : s.Admits iid (R.TST_LANE_CFG p l) .tstLane p) :
    ∃ t, exec (.laneInj iid p l back val) s = .next t ∧ t.reg (R.TST_LANE_CFG p l) = s.reg (R.TST_LANE_CFG p l)
      ∧ (s.injSeen p l back → t.laneErrs p l = (s.laneErrs p l + 1) % 2 ^ 64) ∧ (¬ s.injSeen p l back → t.cnt = s.cnt) := by
  obtain ⟨u, hu, he⟩ := exec_laneInj p l s iid back val h
  obtain ⟨hc, hl, hcfg⟩ := checking_kept p l hu
  have hreg : u.reg (R.TST_LANE_CFG p l) = s.reg (R.TST_LANE_CFG p l) :=
    hu.reg _ (by unfold R.TST_LANE_CFG Hdr.errStat; omega) (by unfold R.TST_LANE_CFG Hdr.errFirst; omega)
  have hseen : u.injSeen p l back ↔ s.injSeen p l back := by
    unfold State.injSeen State.flag
    rw [hc, hl, hcfg, hcfg]
  have hinj : wordFld (wordSet val F.TST_LANE_CFG_INJ 1) F.TST_LANE_CFG_INJ = 1 := wordFld_wordSet _ _ _ (by decide)
  have hne : R.TST_LANE_CFG p l ≠ R.TST_LANE_CFG p l - R.TST_LANE_CFG p l % 4096 + Hdr.errFirst := by
    rw [laneCfg_page]
    unfold R.TST_LANE_CFG Hdr.errFirst
    omega
  refine ⟨_, he, ?_, fun hs => ?_, fun hs => ?_⟩
  · rw [attributeErr_reg_ne _ _ _ _ _ hne]
    by_cases hs : u.injSeen p l back
    · rw [laneInject_seen p l u back _ hinj hs, laneCount_reg, hreg]
    · rw [laneInject_unseen p l u back _ hs, hreg]
  · rw [State.laneErrs, attributeErr_counter, laneInject_seen p l u back _ hinj (hseen.mpr hs)]
    refine (laneCount_counts p l u 1 false).1.trans ?_
    rw [State.laneErrs, hu.counter]
    rfl
  · rw [laneInject_unseen p l u back _ (mt hseen.mp hs)]
    exact (StagedOnly.attributed iid _ u u).cnt.trans hu.cnt

/-! ### Test flits (R494) -/

theorem testFlitSend_idle (h : s.flag (R.TST_FLIT_CFG p) F.TST_FLIT_CFG_GEN = false ∨ s.portUp p = false) :
    testFlitSend p s = s := by
  unfold testFlitSend
  rw [if_pos]
  simpa using h

/-- The state in which a test flit leaves: it is numbered and counted. -/
def State.flitNumbered (s : State) (p : Nat) : State :=
  (s.modPort p (fun x => { x with testNext := ((s.port p).testNext + 1) % 2 ^ 32 })).count (Pg.tstLane p) 0 1

theorem testFlitSend_goes (hg : s.flag (R.TST_FLIT_CFG p) F.TST_FLIT_CFG_GEN = true) (hu : s.portUp p = true) :
    testFlitSend p s = match s.route (s.fld (R.TST_FLIT_CFG p) F.TST_FLIT_CFG_DEST) with
      | none => testArrives p (s.port p).testNext false (s.flitNumbered p)
      | some dir =>
        match s.portFor dir with
        | none => s.flitNumbered p
        | some o =>
          if (s.flitNumbered p).maySend o (s.leaveVc 1 dir none 0) then sendOne o (s.leaveVc 1 dir none 0) (s.flitNumbered p)
          else (s.flitNumbered p).modPort p (fun x => { x with fwd := x.fwd ++ [(s.leaveVc 1 dir none 0, o, s.leaveVc 1 dir none 0)] }) := by
  unfold testFlitSend
  rw [if_neg (by simp [hg, hu])]
  rfl

theorem port_modPort (p : Nat) (f : PlmPort → PlmPort) (s : State) : (s.modPort p f).port p = f (s.port p) :=
  Tab.get_set_same _ _ _ _

theorem port_modPort_ne (p k : Nat) (f : PlmPort → PlmPort) (s : State) (h : k ≠ p) : (s.modPort p f).port k = s.port k :=
  Tab.get_set_ne _ _ _ _ _ h

/-- What every port keeps of a change that touches neither its credits nor its replay buffer. -/
theorem maySend_modPort (p o v : Nat) (f : PlmPort → PlmPort) (s : State) (hc : ∀ x, (f x).cred = x.cred)
    (hn : ∀ x, (f x).unacked = x.unacked) : (s.modPort p f).maySend o v = s.maySend o v := by
  have hup : (s.modPort p f).portUp o = s.portUp o := rfl
  unfold State.maySend
  rw [hup]
  by_cases h : o = p
  · rw [h, port_modPort, hc, hn]
  · rw [port_modPort_ne p o f s h]

theorem flitNumbered_maySend (o v : Nat) : (s.flitNumbered p).maySend o v = s.maySend o v :=
  maySend_modPort p o v (fun x => { x with testNext := ((s.port p).testNext + 1) % 2 ^ 32 }) s (fun _ => rfl) (fun _ => rfl)

theorem flitNumbered_port : (s.flitNumbered p).port p = { s.port p with testNext := ((s.port p).testNext + 1) % 2 ^ 32 } :=
  port_modPort p (fun x => { x with testNext := ((s.port p).testNext + 1) % 2 ^ 32 }) s

theorem flitNumbered_counter (k : Nat) : (s.flitNumbered p).counter k
    = if k = cntKey (Pg.tstLane p) 0 then (s.counter k + 1) % 2 ^ 64 else s.counter k := by
  by_cases h : k = cntKey (Pg.tstLane p) 0
  · rw [if_pos h, h]
    exact State.counter_count_same _ _ _ _
  · rw [if_neg h]
    exact State.counter_addCnt_ne _ _ _ _ h

theorem sendOne_counter (o v k : Nat) : (sendOne o v s).counter k
    = if k = cntKey (Pg.plmPort o) 0 then (s.counter k + 1) % 2 ^ 64 else s.counter k := by
  by_cases h : k = cntKey (Pg.plmPort o) 0
  · rw [if_pos h, h]
    exact State.counter_count_same _ _ _ _
  · rw [if_neg h]
    exact State.counter_addCnt_ne _ _ _ _ h

/-- A flit that is sent leaves the numbers of the test flits as they are. -/
theorem sendOne_testNext (o v k : Nat) : ((sendOne o v s).port k).testNext = (s.port k).testNext := by
  have hmod (f : PlmPort → PlmPort) (hf : ∀ x, (f x).testNext = x.testNext) (t : State) :
      ((t.modPort o f).port k).testNext = (t.port k).testNext := by
    by_cases h : k = o
    · rw [h, port_modPort, hf]
    · rw [port_modPort_ne _ _ _ _ h]
  unfold sendOne sendFlits
  refine (hmod (fun x => { x with next := (x.next + 1) % 4096, unacked := min replaySize (x.unacked + 1) }) (fun _ => rfl) _).trans ?_
  exact hmod (fun x => { x with cred := Tab.set x.cred v (Tab.get x.cred 0 v - 1) }) (fun _ => rfl) s

/-- Whether a flit does not follow the one that came before it. -/
def State.flitGap (s : State) (p q : Nat) : Bool :=
  match (s.port p).testLast with
  | some k => (k + 1) % 2 ^ 32 != q
  | none => false

theorem testArrives_checked (q : Nat) (hc : s.flag (R.TST_FLIT_CFG p) F.TST_FLIT_CFG_CHK = true) :
    testArrives p q false s = (if s.flitGap p q then
      errEvent (Pg.tstLane p) E.tstLane_FLIT_ERR ((s.count (Pg.tstLane p) 1 1).count (Pg.tstLane p) 3 1)
      else s.count (Pg.tstLane p) 1 1).modPort p (fun x => { x with testLast := some q }) := by
  unfold testArrives
  rw [if_pos hc]
  rfl

theorem errEvent_plm (base bit : Nat) (s : State) : (errEvent base bit s).plm = s.plm := by rw [errEvent_frame]

/-- A test flit that arrives at its checker. -/
theorem testArrives_outcome (q : Nat) (hc : s.flag (R.TST_FLIT_CFG p) F.TST_FLIT_CFG_CHK = true) :
    (testArrives p q false s).port p = { s.port p with testLast := some q }
      ∧ (∀ k, k ≠ cntKey (Pg.tstLane p) 1 → k ≠ cntKey (Pg.tstLane p) 3 → (testArrives p q false s).counter k = s.counter k)
      ∧ (testArrives p q false s).counter (cntKey (Pg.tstLane p) 1) = (s.counter (cntKey (Pg.tstLane p) 1) + 1) % 2 ^ 64
      ∧ (s.flitGap p q = false → (testArrives p q false s).counter (cntKey (Pg.tstLane p) 3) = s.counter (cntKey (Pg.tstLane p) 3))
      ∧ (s.flitGap p q = true →
        (testArrives p q false s).counter (cntKey (Pg.tstLane p) 3) = (s.counter (cntKey (Pg.tstLane p) 3) + 1) % 2 ^ 64
          ∧ bitOf ((testArrives p q false s).reg (Pg.tstLane p + Hdr.errStat)).toNat E.tstLane_FLIT_ERR = true) := by
  have h13 : cntKey (Pg.tstLane p) 1 ≠ cntKey (Pg.tstLane p) 3 := by unfold cntKey; omega
  have hmod (f : PlmPort → PlmPort) (t : State) (k : Nat) : (t.modPort p f).counter k = t.counter k := rfl
  have hne (t : State) (i k : Nat) (h : k ≠ cntKey (Pg.tstLane p) i) : (t.count (Pg.tstLane p) i 1).counter k = t.counter k :=
    State.counter_addCnt_ne _ _ _ _ h
  rw [testArrives_checked p s q hc]
  simp only [hmod]
  cases hgap : s.flitGap p q
  · simp only [Bool.false_eq_true, if_false, false_implies, true_implies, and_true]
    refine ⟨?_, fun k h1 _ => hne s 1 k h1, ?_, ?_⟩
    · rw [port_modPort]
      rfl
    · exact State.counter_count_same _ _ _ _
    · exact hne s 1 _ h13.symm
  · simp only [if_true, true_implies, Bool.true_eq_false, false_implies, true_and, errEvent_counter]
    refine ⟨?_, fun k h1 h3 => ?_, ?_, ?_, ?_⟩
    · rw [port_modPort]
      unfold State.port
      rw [errEvent_plm]
      rfl
    · rw [hne _ 3 k h3, hne _ 1 k h1]
    · rw [hne _ 3 _ h13]
      exact State.counter_count_same _ _ _ _
    · rw [State.counter_count_same, hne _ 1 _ h13.symm]
    · exact errEvent_sets _ _ _ (by decide)

/-- What a flit that leaves or arrives shows. -/
theorem testFlitSend_outcome (hg : s.flag (R.TST_FLIT_CFG p) F.TST_FLIT_CFG_GEN = true) (hu : s.portUp p = true) :
    ((testFlitSend p s).port p).testNext = ((s.port p).testNext + 1) % 2 ^ 32
      ∧ (testFlitSend p s).counter (cntKey (Pg.tstLane p) 0) = (s.counter (cntKey (Pg.tstLane p) 0) + 1) % 2 ^ 64 := by
  have hnum : (s.flitNumbered p).counter (cntKey (Pg.tstLane p) 0) = (s.counter (cntKey (Pg.tstLane p) 0) + 1) % 2 ^ 64 := by
    rw [flitNumbered_counter, if_pos rfl]
  have hport : ((s.flitNumbered p).port p).testNext = ((s.port p).testNext + 1) % 2 ^ 32 := by rw [flitNumbered_port]
  have h01 : cntKey (Pg.tstLane p) 0 ≠ cntKey (Pg.tstLane p) 1 := by unfold cntKey; omega
  have h03 : cntKey (Pg.tstLane p) 0 ≠ cntKey (Pg.tstLane p) 3 := by unfold cntKey; omega
  rw [testFlitSend_goes p s hg hu]
  split
  · by_cases hc : (s.flitNumbered p).flag (R.TST_FLIT_CFG p) F.TST_FLIT_CFG_CHK = true
    · obtain ⟨hp, hk, -⟩ := testArrives_outcome p (s.flitNumbered p) (s.port p).testNext hc
      rw [hp, hk _ h01 h03]
      exact ⟨hport, hnum⟩
    · unfold testArrives
      rw [if_neg hc]
      refine ⟨hport, ?_⟩
      refine (State.counter_addCnt_ne _ _ _ _ ?_).trans hnum
      have := p.isLt
      unfold cntKey Pg.tstLane Pg.plm0
      omega
  · split
    · exact ⟨hport, hnum⟩
    · next d _ o _ =>
      split
      · rw [sendOne_testNext, sendOne_counter, if_neg (by have := p.isLt; unfold cntKey Pg.tstLane Pg.plmPort; omega)]
        exact ⟨hport, hnum⟩
      · refine ⟨?_, hnum⟩
        rw [port_modPort]
        exact hport

theorem testFlitSend_arrives (hg : s.flag (R.TST_FLIT_CFG p) F.TST_FLIT_CFG_GEN = true) (hu : s.portUp p = true)
    (hr : s.route (s.fld (R.TST_FLIT_CFG p) F.TST_FLIT_CFG_DEST) = none) (hc : s.flag (R.TST_FLIT_CFG p) F.TST_FLIT_CFG_CHK = true) :
    (testFlitSend p s).counter (cntKey (Pg.tstLane p) 1) = (s.counter (cntKey (Pg.tstLane p) 1) + 1) % 2 ^ 64
      ∧ ((testFlitSend p s).port p).testLast = some (s.port p).testNext
      ∧ ((s.port p).testLast = none → (testFlitSend p s).counter (cntKey (Pg.tstLane p) 3) = s.counter (cntKey (Pg.tstLane p) 3))
      ∧ ∀ k, (s.port p).testLast = some k → (k + 1) % 2 ^ 32 ≠ (s.port p).testNext →
        (testFlitSend p s).counter (cntKey (Pg.tstLane p) 3) = (s.counter (cntKey (Pg.tstLane p) 3) + 1) % 2 ^ 64
          ∧ bitOf ((testFlitSend p s).reg (Pg.tstLane p + Hdr.errStat)).toNat E.tstLane_FLIT_ERR = true := by
  have hnum (i : Nat) (h : i ≠ 0) : (s.flitNumbered p).counter (cntKey (Pg.tstLane p) i) = s.counter (cntKey (Pg.tstLane p) i) := by
    rw [flitNumbered_counter, if_neg (by unfold cntKey; omega)]
  have hlast : ((s.flitNumbered p).port p).testLast = (s.port p).testLast := by rw [flitNumbered_port]
  obtain ⟨hp, -, h1, h0, hgap⟩ := testArrives_outcome p (s.flitNumbered p) (s.port p).testNext hc
  rw [hnum 3 (by decide)] at h0 hgap
  rw [testFlitSend_goes p s hg hu, hr]
  refine ⟨?_, ?_, fun hn => h0 ?_, fun k hk hne => hgap ?_⟩
  · rw [h1, hnum 1 (by decide)]
  · exact congrArg PlmPort.testLast hp
  · unfold State.flitGap
    rw [hlast, hn]
  · unfold State.flitGap
    rw [hlast, hk]
    exact bne_iff_ne.mpr hne

theorem testFlitSend_sent (hg : s.flag (R.TST_FLIT_CFG p) F.TST_FLIT_CFG_GEN = true) (hu : s.portUp p = true) (d o : Nat)
    (hr : s.route (s.fld (R.TST_FLIT_CFG p) F.TST_FLIT_CFG_DEST) = some d) (ho : s.portFor d = some o)
    (hm : s.maySend o (s.leaveVc 1 d none 0) = true) :
    (testFlitSend p s).counter (cntKey (Pg.plmPort o) 0) = (s.counter (cntKey (Pg.plmPort o) 0) + 1) % 2 ^ 64 := by
  rw [testFlitSend_goes p s hg hu, hr]
  dsimp only
  rw [ho]
  dsimp only
  rw [flitNumbered_maySend, if_pos hm, sendOne_counter, if_pos rfl, flitNumbered_counter, if_neg]
  have := p.isLt
  unfold cntKey Pg.tstLane Pg.plmPort
  omega

end

/-! ### The memory pattern engine (R496) -/

section
variable (s : State)

/-- The register of the engine's command. -/
def memCfg : RegDef := ⟨0x100, 1, 0x0, 1, 0x0, .any, [⟨1, 0, .rwt, 0, 0, [(0, 2)]⟩, ⟨3, 2, .rwt, 0, 0, []⟩, ⟨4, 4, .wo, 0, 0, []⟩]⟩

/-- MEM_TEST_GO: the fields of the write meet their transaction, and GO starts a test. -/
theorem exec_memTestGo (iid : Fin 24) (val : Word) (h : s.Admits iid R.TST_MEM_CFG .tstMem 0) :
    ∃ u, StagedOnly Pg.tstMem s u ∧ exec (.memTestGo iid val) s
      = .next (attributeErr iid R.TST_MEM_CFG u (memTestGo (wordSet val F.TST_MEM_CFG_GO 1) u)) := by
  have hf : findReg (R.TST_MEM_CFG % 4096) (regsOf .tstMem) = some (memCfg, 0, 0) := by decide
  refine ⟨_, StagedOnly.fieldsWrite iid R.TST_MEM_CFG 0xFFFFFFFF#32 (wordSet val F.TST_MEM_CFG_GO 1) memCfg.flds s (by decide),
    congrArg Host.Outcome.next ?_⟩
  have hc : commandOk memCfg.flds 0xFFFFFFFF#32 (wordSet val F.TST_MEM_CFG_GO 1) = true := by
    simp [commandOk, memCfg, FldDef.ok]
  have hn : needsOutcome R.TST_MEM_CFG = false := by decide
  unfold wordWrite busWrite
  rw [hn]
  refine (if_neg (by decide)).trans ?_
  rw [busWriteWith_fields _ iid R.TST_MEM_CFG _ s .tstMem 0 memCfg 0 0 h (by decide) hf rfl hc]
  rfl

/-- What a GO comes to. -/
theorem memTestGo_eq (v : Word) (hv : wordFld v F.TST_MEM_CFG_GO = 1) : memTestGo v s =
    if s.mt.testing.isSome then s
    else if s.testOwned then s.setFld R.TST_MEM_STATUS F.TST_MEM_STATUS_RESULT 1
    else if s.testMoving then s.setFld R.TST_MEM_STATUS F.TST_MEM_STATUS_RESULT 2
    else if !s.domOn (18 + s.fld R.TST_MEM_CFG F.TST_MEM_CFG_TIER % 3) then s.setFld R.TST_MEM_STATUS F.TST_MEM_STATUS_RESULT 3
    else (s.setReg R.TST_MEM_STATUS 1#32).modMt
      (fun m => { m with testing := some (s.testRange.1, s.testRange.2.1, s.testRange.2.2 - 1) }) := by
  unfold memTestGo
  simp only [hv, Nat.one_ne_zero, false_or]

/-- What a write that leaves the engine's registers alone keeps of the engine's view. -/
theorem memView_kept {s t : State} (h : StagedOnly Pg.tstMem s t) : t.testOwned = s.testOwned ∧ t.testMoving = s.testMoving
    ∧ t.testRange = s.testRange ∧ t.domOn (18 + t.fld R.TST_MEM_CFG F.TST_MEM_CFG_TIER % 3)
      = s.domOn (18 + s.fld R.TST_MEM_CFG F.TST_MEM_CFG_TIER % 3) := by
  have hcfg (f : Fld) : t.fld R.TST_MEM_CFG f = s.fld R.TST_MEM_CFG f := h.fld _ _ (by decide) (by decide)
  have hfirst (f : Fld) : t.fld R.TST_MEM_FIRST f = s.fld R.TST_MEM_FIRST f := h.fld _ _ (by decide) (by decide)
  have hcount (f : Fld) : t.fld R.TST_MEM_COUNT f = s.fld R.TST_MEM_COUNT f := h.fld _ _ (by decide) (by decide)
  have hr : t.testRange = s.testRange := by
    unfold State.testRange
    rw [hcfg, hfirst, hcount]
  refine ⟨?_, ?_, hr, ?_⟩
  · unfold State.testOwned
    rw [hr, h.mt]
  · unfold State.testMoving
    rw [hr, h.mt]
  · rw [hcfg, h.domOn _ (by decide)]

theorem memTestDone_idle (r : Option (Nat × Nat)) (h : s.mt.testing = none) : memTestDone r s = s := by
  unfold memTestDone
  rw [if_pos (by simp [h])]

/-- The state in which a test's end is shown: no test runs, and the sectors tested are counted. -/
def State.tested (s : State) : State := countFree (cntKey Pg.tstMem 0) (s.modMt (fun m => { m with testing := none }))

theorem memTestDone_passed (h : s.mt.testing.isSome = true) :
    memTestDone none s = s.tested.setFld R.TST_MEM_STATUS F.TST_MEM_STATUS_STATE 2 := by
  unfold memTestDone
  rw [if_neg (by rw [Option.isNone_iff_eq_none]; rintro e; simp [e] at h)]
  rfl

theorem memTestDone_failed (h : s.mt.testing.isSome = true) (f k : Nat) :
    memTestDone (some (f, k)) s = errEvent Pg.tstMem E.tstMem_MEM_FAIL (((s.tested.setFld R.TST_MEM_STATUS
      F.TST_MEM_STATUS_STATE 3).setFld R.TST_MEM_STATUS F.TST_MEM_STATUS_FAIL_FRAME f).count Pg.tstMem 1 k) := by
  unfold memTestDone
  rw [if_neg (by rw [Option.isNone_iff_eq_none]; rintro e; simp [e] at h)]
  rfl

theorem tested_counter : s.tested.counter (cntKey Pg.tstMem 1) = s.counter (cntKey Pg.tstMem 1) := by
  refine (State.counter_addCnt_ne _ _ _ _ (by decide)).trans ?_
  exact State.modMt_counter _ _ _

/-- A failed test's status, count and error. -/
theorem memTestDone_failed_outcome (h : s.mt.testing.isSome = true) (f : Fin 131072) (k : Nat) :
    (memTestDone (some (f, k)) s).mt = { s.mt with testing := none }
      ∧ (memTestDone (some (f, k)) s).fld R.TST_MEM_STATUS F.TST_MEM_STATUS_STATE = 3
      ∧ (memTestDone (some (f, k)) s).fld R.TST_MEM_STATUS F.TST_MEM_STATUS_FAIL_FRAME = f.val
      ∧ (memTestDone (some (f, k)) s).counter (cntKey Pg.tstMem 1) = (s.counter (cntKey Pg.tstMem 1) + k) % 2 ^ 64
      ∧ bitOf ((memTestDone (some (f, k)) s).reg (Pg.tstMem + Hdr.errStat)).toNat E.tstMem_MEM_FAIL = true := by
  rw [memTestDone_failed s h]
  refine ⟨?_, ?_, ?_, ?_, errEvent_sets _ _ _ (by decide)⟩
  · rw [errEvent_frame]
    rfl
  · rw [errEvent_fld_ne _ _ _ _ _ (by decide) (by decide), State.count_fld,
      State.fld_setFld_other _ _ _ _ _ (by decide) (by decide), State.fld_setFld_same _ _ _ _ (by decide)]
    rfl
  · rw [errEvent_fld_ne _ _ _ _ _ (by decide) (by decide), State.count_fld, State.fld_setFld_same _ _ _ _ (by decide)]
    exact Nat.mod_eq_of_lt f.isLt
  · rw [errEvent_counter, State.counter_count_same, State.setFld_counter, State.setFld_counter, tested_counter]

theorem memTestGo_outcome (iid : Fin 24) (val : Word) (h : s.Admits iid R.TST_MEM_CFG .tstMem 0) :
    ∃ t, exec (.memTestGo iid val) s = .next t ∧ t.da = s.da
      ∧ (s.mt.testing.isSome = true → t.mt = s.mt ∧ t.reg R.TST_MEM_STATUS = s.reg R.TST_MEM_STATUS)
      ∧ (s.mt.testing = none →
        (s.testOwned = true → t.fld R.TST_MEM_STATUS F.TST_MEM_STATUS_RESULT = 1 ∧ t.mt = s.mt)
          ∧ (s.testOwned = false → s.testMoving = true → t.fld R.TST_MEM_STATUS F.TST_MEM_STATUS_RESULT = 2 ∧ t.mt = s.mt)
          ∧ (s.testOwned = false → s.testMoving = false → s.domOn (18 + s.fld R.TST_MEM_CFG F.TST_MEM_CFG_TIER % 3) = false →
            t.fld R.TST_MEM_STATUS F.TST_MEM_STATUS_RESULT = 3 ∧ t.mt = s.mt)
          ∧ (s.testOwned = false → s.testMoving = false → s.domOn (18 + s.fld R.TST_MEM_CFG F.TST_MEM_CFG_TIER % 3) = true →
            t.reg R.TST_MEM_STATUS = 1
              ∧ t.mt = { s.mt with testing := some (s.testRange.1, s.testRange.2.1, s.testRange.2.2 - 1) })) := by
  obtain ⟨u, hu, he⟩ := exec_memTestGo s iid val h
  obtain ⟨hown, hmov, hrng, hon⟩ := memView_kept hu
  have hgo : wordFld (wordSet val F.TST_MEM_CFG_GO 1) F.TST_MEM_CFG_GO = 1 := wordFld_wordSet _ _ _ (by decide)
  have heq := memTestGo_eq u _ hgo
  generalize memTestGo (wordSet val F.TST_MEM_CFG_GO 1) u = w at he heq
  have ha := StagedOnly.attributed iid R.TST_MEM_CFG u w
  refine ⟨_, he, ?_, fun ht => ?_, fun ht => ⟨fun ho => ?_, fun ho hm => ?_, fun ho hm hd => ?_, fun ho hm hd => ?_⟩⟩
  · rw [ha.da, ← hu.da, heq]
    split_ifs <;> rfl
  · rw [hu.mt, if_pos ht] at heq
    rw [ha.mt, ha.reg _ (by decide) (by decide), heq]
    exact ⟨hu.mt, hu.reg _ (by decide) (by decide)⟩
  all_goals rw [hu.mt, if_neg (by simp [ht]), hown] at heq
  · rw [if_pos ho] at heq
    rw [ha.mt, ha.fld _ _ (by decide) (by decide), heq, State.fld_setFld_same _ _ _ _ (by decide)]
    exact ⟨rfl, hu.mt⟩
  · rw [if_neg (by simp [ho]), hmov, if_pos hm] at heq
    rw [ha.mt, ha.fld _ _ (by decide) (by decide), heq, State.fld_setFld_same _ _ _ _ (by decide)]
    exact ⟨rfl, hu.mt⟩
  · rw [if_neg (by simp [ho]), hmov, if_neg (by simp [hm]), hon, if_pos (by simp [hd])] at heq
    rw [ha.mt, ha.fld _ _ (by decide) (by decide), heq, State.fld_setFld_same _ _ _ _ (by decide)]
    exact ⟨rfl, hu.mt⟩
  · rw [if_neg (by simp [ho]), hmov, if_neg (by simp [hm]), hon, if_neg (by simp [hd]), hrng] at heq
    rw [ha.mt, ha.reg _ (by decide) (by decide), heq]
    refine ⟨?_, ?_⟩
    · rw [State.modMt_reg]
      exact State.reg_setReg_same _ _ _
    · rw [← hu.mt]
      rfl

end

/-- Settles O53: the checkers, the injection, the generator and the pattern engine act as their functions' cases say; what a
write raises in its page touches none of the registers that they read. -/
theorem laneFlitAndMemoryTestsRun : Obligations.LaneFlitAndMemoryTestsRun := by
  unfold Obligations.LaneFlitAndMemoryTestsRun
  intro s p l
  refine ⟨fun hc hl => ?_, fun hc => ⟨?_, ?_⟩, fun hc hl => ?_, fun iid back val h => ?_, fun h => ?_, fun hg hu => ?_,
    fun iid val h => ?_, fun h r => ?_, fun h => ⟨?_, fun f k => ?_⟩⟩
  · exact congrArg Host.Outcome.next (checkerLock_locks p l s hc hl)
  · exact congrArg Host.Outcome.next (checkerLock_idle p l s hc)
  · exact congrArg Host.Outcome.next (checkerLoss_idle p l s hc)
  · obtain ⟨h1, h2, h3, h4, h5⟩ := checkerLoss_counts p l s hc hl
    exact ⟨_, _, _, rfl, h1, Nat.le_add_right _ _, Nat.le_add_right _ _, h2, h3, h4, h5⟩
  · exact laneInj_outcome p l s iid back val h
  · exact congrArg Host.Outcome.next (testFlitSend_idle p s h)
  · obtain ⟨h1, h2⟩ := testFlitSend_outcome p s hg hu
    exact ⟨_, rfl, h1, h2, testFlitSend_arrives p s hg hu, testFlitSend_sent p s hg hu⟩
  · exact memTestGo_outcome s iid val h
  · exact congrArg Host.Outcome.next (memTestDone_idle s _ h)
  · refine ⟨_, congrArg Host.Outcome.next (memTestDone_passed s h), rfl, ?_⟩
    exact State.fld_setFld_same _ _ _ _ (by decide)
  · exact ⟨_, rfl, memTestDone_failed_outcome s h f k⟩

end Sys2Proof.Machine
end

section
/-! PROOFS. What a fault of a context changes, and what it leaves (R8, R9, R97, R144). -/

namespace Sys2Proof.Machine

/-- A register address outside the window of core `n`. -/
def OffCore (a n : Nat) : Prop := a / 0x10000 ≠ 0x10 + n

/-- A register address outside the windows of the cores below `m`, the log's page and the collective engine's status. -/
def OffStops (a : Nat) : Prop := (a < 0x100000 ∨ 0x300000 ≤ a) ∧ a / 4096 ≠ Pg.rel2 / 4096 ∧ a ≠ R.PLM_COLL_STATUS

theorem OffStops.offCore {a n : Nat} (h : OffStops a) (hn : n < 32) : OffCore a n := by
  unfold OffStops OffCore at *
  omega

section
variable (x n : Nat) (s : State)

theorem stopCore_reg (a : Nat) (h : OffCore a n) : (stopCore x n s).reg a = s.reg a := by
  have h1 : a ≠ R.SEQ_STATUS n := fun e => h (by rw [e]; unfold R.SEQ_STATUS Pg.seq; omega)
  have h2 : a ≠ R.ARR_STATUS n := fun e => h (by rw [e]; unfold R.ARR_STATUS Pg.arr0; omega)
  unfold stopCore
  dsimp only
  split
  · rw [State.reg_setFld_ne _ _ _ _ _ h1]
    unfold State.arrState State.setSeqState
    rw [State.reg_setFld_ne _ _ _ _ _ h2, State.reg_setFld_ne _ _ _ _ _ h1]
    rfl
  · rfl

theorem stopCores_reg (l : List Nat) (a : Nat) (h : ∀ n ∈ l, OffCore a n) : (stopCores x l s).reg a = s.reg a := by
  induction l generalizing s with
  | nil => rfl
  | cons n l ih =>
    exact (ih _ fun m hm => h m (List.mem_cons_of_mem _ hm)).trans (stopCore_reg x n s a (h n (List.mem_cons_self ..)))

theorem stopChan_reg (k : Nat) (hk : k < 4) (a : Nat) (h : OffCore a n) : (stopChan x n k s).reg a = s.reg a := by
  have h1 : a ≠ R.SPD_DMA_STATUS n k := fun e => h (by rw [e]; unfold R.SPD_DMA_STATUS Pg.spd4; omega)
  have h2 : a ≠ R.SPD_DMA_ROWS n k := fun e => h (by rw [e]; unfold R.SPD_DMA_ROWS Pg.spd4; omega)
  have hst (cause : Nat) (u : State) : (chanStatus n k cause u).reg a = u.reg a := by
    unfold chanStatus
    exact (State.reg_setReg_ne _ _ _ _ h2).trans (State.reg_setReg_ne _ _ _ _ h1)
  unfold stopChan
  dsimp only
  rw [hst]
  split <;> split <;> rfl

theorem stopChans_reg (l : List Nat) (a : Nat) (h : ∀ n ∈ l, OffCore a n) : (stopChans x l s).reg a = s.reg a := by
  induction l generalizing s with
  | nil => rfl
  | cons n l ih =>
    have hn := h n (List.mem_cons_self ..)
    refine (ih _ fun m hm => h m (List.mem_cons_of_mem _ hm)).trans ?_
    rw [stopChan_reg x n _ 3 (by decide) a hn, stopChan_reg x n _ 2 (by decide) a hn, stopChan_reg x n _ 1 (by decide) a hn,
      stopChan_reg x n _ 0 (by decide) a hn]

/-- Nothing but what stopping a channel touches differs. -/
def ChansOnly (s t : State) : Prop := t = { s with cores := t.cores, mt := t.mt, regs := t.regs }

theorem ChansOnly.trans {s t u : State} (h : ChansOnly s t) (k : ChansOnly t u) : ChansOnly s u := by
  unfold ChansOnly at *; rw [k, h]

theorem stopChans_frame (l : List Nat) (s : State) : ChansOnly s (stopChans x l s) := by
  induction l generalizing s with
  | nil => rfl
  | cons n l ih =>
    have h (k : Nat) (u : State) : ChansOnly u (stopChan x n k u) := stopChan_frame x n k u
    exact ((((h 0 s).trans (h 1 _)).trans (h 2 _)).trans (h 3 _)).trans (ih _)

theorem dropColl_reg (a : Nat) (h : a ≠ R.PLM_COLL_STATUS) : (dropColl x s).reg a = s.reg a := by
  unfold dropColl collStatus
  rw [State.reg_setFld_ne _ _ _ _ _ h, State.reg_setFld_ne _ _ _ _ _ h]
  rfl

end

/-- What a fault of a context leaves alone: registers and counts outside what it stops and logs, and every fault taken. -/
structure FaultKept (s t : State) : Prop where
  frame : t = { s with regs := t.regs, cnt := t.cnt, cores := t.cores, mt := t.mt, plm := t.plm, ctxs := t.ctxs, rel := t.rel,
                       errIrqs := t.errIrqs, pins := t.pins, hif := t.hif }
  reg : ∀ a, OffStops a → t.reg a = s.reg a
  counter : ∀ k, k / 4096 ≠ Pg.rel2 / 4096 → k / 4096 ≠ Pg.rel3 / 4096 → t.counter k = s.counter k
  fault : ∀ y, Faulted y s → Faulted y t

namespace FaultKept

theorem refl (s : State) : FaultKept s s := ⟨rfl, fun _ _ => rfl, fun _ _ _ => rfl, fun _ h => h⟩

theorem trans {s t u : State} (h : FaultKept s t) (k : FaultKept t u) : FaultKept s u where
  frame := by rw [k.frame, h.frame]
  reg a ha := (k.reg a ha).trans (h.reg a ha)
  counter c h2 h3 := (k.counter c h2 h3).trans (h.counter c h2 h3)
  fault y hy := k.fault y (h.fault y hy)

theorem addCnt (s : State) (key k : Nat) (h : key / 4096 = Pg.rel3 / 4096) : FaultKept s (s.addCnt key k) where
  frame := rfl
  reg _ _ := rfl
  counter c _ h3 := State.counter_addCnt_ne s key k c fun e => h3 (e ▸ h)
  fault _ h := h

theorem countFault (code : Nat) (s : State) : FaultKept s (countFault code s) := by
  unfold Machine.countFault
  split
  · next h =>
    refine addCnt s _ 1 ?_
    unfold R.REL_FAULT_LO Pg.rel3
    omega
  · exact refl s

theorem logEntry (e : LogEntry) (s : State) : FaultKept s (logEntry e s) where
  frame := by
    have h := logEntry_frame e s
    generalize Machine.logEntry e s = t at h ⊢
    unfold LogOnly at h
    rw [h]
  reg a ha := logEntry_reg e s a ha.2.1
  counter k h2 _ := logEntry_counter e s k h2
  fault _ h := h.of_ctxs (logEntry_frame e s).ctxs

theorem stopCores (x : Nat) (l : List Nat) (h : ∀ n ∈ l, n < 32) (s : State) : FaultKept s (stopCores x l s) where
  frame := by
    have hf := stopCores_frame x l s
    generalize Machine.stopCores x l s = t at hf ⊢
    unfold CoreOnly at hf
    rw [hf]
  reg a ha := stopCores_reg x s l a fun n hn => ha.offCore (h n hn)
  counter k _ _ := by rw [stopCores_frame x l s]; rfl
  fault _ h := h.of_ctxs (stopCores_ctxs x l s)

theorem stopChans (x : Nat) (s : State) : FaultKept s (stopChans x (List.range 18) s) where
  frame := by
    have hf := stopChans_frame x (List.range 18) s
    generalize Machine.stopChans x (List.range 18) s = t at hf ⊢
    unfold ChansOnly at hf
    rw [hf]
  reg a ha := stopChans_reg x s _ a fun n hn => ha.offCore (by have := List.mem_range.mp hn; omega)
  counter k _ _ := by
    have hf := stopChans_frame x (List.range 18) s
    generalize Machine.stopChans x (List.range 18) s = t at hf ⊢
    rw [hf]
    rfl
  fault _ h := h.of_ctxs (stopChans_ctxs x _ s)

theorem dropColl (x : Nat) (s : State) : FaultKept s (dropColl x s) where
  frame := rfl
  reg a ha := dropColl_reg x s a ha.2.2
  counter _ _ _ := rfl
  fault _ h := h

theorem setFault (x : Nat) (f : FaultRec) (s : State) : FaultKept s (s.setCtx x { s.ctx x with fault := some f }) where
  frame := rfl
  reg _ _ := rfl
  counter _ _ _ := rfl
  fault y h := by
    unfold Faulted State.ctx State.setCtx
    by_cases e : y = x
    · rw [e, Tab.get_set_same]
      rfl
    · rw [Tab.get_set_ne _ _ _ _ _ e]
      exact h

theorem modCore (s : State) (n : Nat) (f : Core → Core) : FaultKept s (s.modCore n f) :=
  ⟨rfl, fun _ _ => rfl, fun _ _ _ => rfl, fun _ h => h⟩

theorem taken (x : Nat) (f : FaultRec) (stopped : List Nat) (h : ∀ n ∈ stopped, n < 32) (e : LogEntry) (s : State) :
    FaultKept s (faultTaken x f stopped e s) :=
  ((((setFault x f s).trans (stopCores x stopped h _)).trans (stopChans x _)).trans (dropColl x _)).trans (logEntry e _)

/-- A fault on cores of the part. -/
theorem ctxFault (x : Nat) (n : Option Nat) (gang : List Nat) (code sub opTag : Nat) (s : State) (hn : ∀ k, n = some k → k < 32)
    (hg : ∀ k ∈ gang, k < 32) : FaultKept s (ctxFault x n gang code sub opTag s) := by
  have hcount := countFault code s
  unfold Machine.ctxFault
  dsimp only
  generalize Machine.countFault code s = s0 at *
  cases hf : (s0.ctx x).fault with
  | some f => exact hcount.trans (addCnt s0 _ 1 (by decide))
  | none =>
    cases n with
    | none => exact hcount.trans (taken x _ gang hg _ s0)
    | some k =>
      have hk := taken x ⟨code, sub, s0.ctxCoreOf x k, 0, opTag, s0.dtime⟩ (k :: gang)
        (fun m hm => (List.mem_cons.mp hm).elim (fun e => e ▸ hn k rfl) (hg m))
        { cls := LogCls.contextFault, kind := LogKind.core, unit := k, ctx := x, code := code, sub := sub, arg0 := opTag } s0
      dsimp only
      split
      · exact (hcount.trans hk).trans (modCore _ k _)
      · exact hcount.trans hk

/-- A fault of each of a list of contexts. -/
theorem each (l : List Nat) (code sub opTag : Nat) (s : State) :
    FaultKept s (l.foldl (fun t x => Machine.ctxFault x none [] code sub opTag t) s)
      ∧ ∀ x ∈ l, Faulted x (l.foldl (fun t x => Machine.ctxFault x none [] code sub opTag t) s) := by
  induction l generalizing s with
  | nil => exact ⟨refl s, fun _ h => nomatch h⟩
  | cons x l ih =>
    obtain ⟨hk, hf⟩ := ih (Machine.ctxFault x none [] code sub opTag s)
    refine ⟨(ctxFault x none [] code sub opTag s (fun _ h => nomatch h) (fun _ h => nomatch h)).trans hk, fun y hy => ?_⟩
    rcases List.mem_cons.mp hy with rfl | hy
    · exact hk.fault _ (ctxFault_stops y none [] code sub opTag s).2
    · exact hf y hy

theorem fld {s t : State} (h : FaultKept s t) (a : Nat) (f : Fld) (ha : OffStops a) : t.fld a f = s.fld a f := by
  rw [State.fld, h.reg a ha, State.fld]

end FaultKept
end Sys2Proof.Machine
end

section
/-! PROOFS. Crashes of the control complex (R368, R369). -/

namespace Sys2Proof.Machine

/-! ### The dump in DA -/

theorem DaKept.ctl {s t : State} (h : DaKept s t) : t.ctl = s.ctl := by rw [h.frame]
theorem DaKept.brz {s t : State} (h : DaKept s t) : t.brz = s.brz := by rw [h.frame]
theorem DaKept.dtime {s t : State} (h : DaKept s t) : t.dtime = s.dtime := by rw [h.frame]

theorem DaKept.setDa (s : State) (d : List Host.Cell) : DaKept s { s with da := d } := ⟨rfl, fun _ _ _ => rfl, fun _ _ _ => rfl, rfl⟩

theorem storeSector_daKept (owner da src : Nat) (bs : List Byte) (s : State) : DaKept s (storeSector owner da src bs s) := by
  have h := (DaKept.setDa s (Memory.writeList s.da (da / 512 * 512) (bs.take 512))).trans (.modMt _ (fun m => { m with
    tags := Tab.set m.tags (da / 512 * 512 / 512) { s.tagNow owner (da / 512 * 512) with poison := src } }))
  unfold storeSector
  dsimp only
  split
  · exact h
  · exact h.trans (poisonMade_daKept _ _ _ _)

theorem fwWrite_daKept (da : Nat) (bs : List Byte) (k : Nat) (s : State) : DaKept s (fwWrite da bs k s).2 := by
  induction k generalizing da bs s with
  | zero => exact .refl s
  | succ k ih =>
    unfold fwWrite
    dsimp only
    split
    · exact countRefusal_daKept s
    · exact ((touchPage_daKept _ s).trans (storeSector_daKept _ _ _ _ _)).trans (ih _ _ _)

theorem dumpToDa_daKept (ws : List Word) (s : State) : DaKept s (dumpToDa ws s) := by
  unfold dumpToDa
  dsimp only
  split
  · exact .refl s
  · exact (fwWrite_daKept _ _ _ s).trans (.drew _ _)

/-! ### The always-on copy -/

theorem aonWords_head (reason k : Nat) (s : State) :
    (aonWords reason k s).take 2 = [0x1D0C7#32, BitVec.ofNat 32 (reason + 2 ^ 8 * k)] := rfl

theorem aonWords_length (reason k : Nat) (s : State) : (aonWords reason k s).length = 1024 := by
  have hlog (l : List Word) : ((l ++ List.replicate 704 (0#32)).take 704).length = 704 := by
    rw [List.length_take, List.length_append, List.length_replicate]
    omega
  unfold aonWords
  dsimp only
  simp only [List.length_append, hlog, List.length_replicate, List.length_flatMap, List.length_map, List.length_range]
  rfl

/-! ### What follows the dump -/

/-- What follows a crash's dump leaves the dump, its status, the contexts' words, what is not the control complex's, and
every fault. -/
structure DumpKept (s t : State) : Prop where
  brz : t.brz = s.brz
  dtime : t.dtime = s.dtime
  aon : t.ctl.aon = s.ctl.aon
  loader : ∀ k, t.ctl.upd.loader = some k → s.ctl.upd.loader = some k
  fault : ∀ y, Faulted y s → Faulted y t
  reg : ∀ a, a / 4096 = Pg.ctlDump / 4096 ∨ a / 4096 = Pg.ctlMb / 4096 ∨ a = Pg.ctl0 + Hdr.errStat → t.reg a = s.reg a

namespace DumpKept

theorem refl (s : State) : DumpKept s s := ⟨rfl, rfl, rfl, fun _ h => h, fun _ h => h, fun _ _ => rfl⟩

theorem trans {s t u : State} (h : DumpKept s t) (k : DumpKept t u) : DumpKept s u where
  brz := k.brz.trans h.brz
  dtime := k.dtime.trans h.dtime
  aon := k.aon.trans h.aon
  loader m hm := h.loader m (k.loader m hm)
  fault y hy := k.fault y (h.fault y hy)
  reg a ha := (k.reg a ha).trans (h.reg a ha)

theorem setFld (s : State) (a : Nat) (f : Fld) (v : Nat) (h1 : a / 4096 ≠ Pg.ctlDump / 4096) (h2 : a / 4096 ≠ Pg.ctlMb / 4096)
    (h3 : a ≠ Pg.ctl0 + Hdr.errStat) : DumpKept s (s.setFld a f v) where
  brz := rfl
  dtime := rfl
  aon := rfl
  loader _ h := h
  fault _ h := h
  reg b hb := by
    refine State.reg_setFld_ne _ _ _ _ _ ?_
    rintro rfl
    rcases hb with h | h | h
    · exact h1 h
    · exact h2 h
    · exact h3 h

theorem modRel (s : State) (f : Rel → Rel) : DumpKept s (s.modRel f) := ⟨rfl, rfl, rfl, fun _ h => h, fun _ h => h, fun _ _ => rfl⟩
theorem modFlash (s : State) (f : Flash → Flash) : DumpKept s (s.modFlash f) := ⟨rfl, rfl, rfl, fun _ h => h, fun _ h => h, fun _ _ => rfl⟩
theorem clearUpd (s : State) : DumpKept s (s.modUpd (fun _ => {})) := ⟨rfl, rfl, rfl, fun _ h => (nomatch h), fun _ h => h, fun _ _ => rfl⟩

theorem errEvent (base bit : Nat) (s : State) (h1 : base ≠ Pg.ctlDump) (h2 : base ≠ Pg.ctlMb) (h3 : base ≠ Pg.ctl0)
    (hb : base % 4096 = 0) : DumpKept s (errEvent base bit s) where
  brz := by rw [errEvent_frame]
  dtime := by rw [errEvent_frame]
  aon := by rw [errEvent_frame]
  loader k hk := by rwa [errEvent_frame] at hk
  fault _ h := h.of_ctxs (by rw [errEvent_frame])
  reg a ha := by
    unfold Pg.ctlDump at h1 ha
    unfold Pg.ctlMb at h2 ha
    unfold Pg.ctl0 Hdr.errStat at ha
    unfold Pg.ctl0 at h3
    exact errEvent_reg_ne _ _ _ _ (by unfold Hdr.errStat; omega) (by unfold Hdr.errFirst; omega)

theorem logEntry (e : LogEntry) (s : State) : DumpKept s (logEntry e s) where
  brz := logEntry_brz e s
  dtime := (logEntry_frame e s).dtime
  aon := by rw [logEntry_frame e s]
  loader k hk := by rwa [logEntry_frame e s] at hk
  fault _ h := h.of_ctxs (logEntry_frame e s).ctxs
  reg a ha := by
    unfold Pg.ctlDump Pg.ctlMb Pg.ctl0 Hdr.errStat at ha
    exact logEntry_reg e s a (by unfold Pg.rel2; omega)

theorem faults {s t : State} (h : FaultKept s t) : DumpKept s t where
  brz := by rw [h.frame]
  dtime := by rw [h.frame]
  aon := by rw [h.frame]
  loader k hk := by rwa [h.frame] at hk
  fault := h.fault
  reg a ha := by
    unfold Pg.ctlDump Pg.ctlMb Pg.ctl0 Hdr.errStat at ha
    refine h.reg a ⟨by omega, by unfold Pg.rel2; omega, ?_⟩
    unfold R.PLM_COLL_STATUS Pg.plm0
    omega

theorem ccoreCounts (k : Nat) (hk : k < 4) (s : State) : DumpKept s (ccoreCounts k s) := by
  have h (f : Fld) (v : Nat) (t : State) : DumpKept t (t.setFld (R.REL_CCORE k) f v) :=
    setFld t _ f v (by unfold R.REL_CCORE Pg.rel1 Pg.ctlDump; omega) (by unfold R.REL_CCORE Pg.rel1 Pg.ctlMb; omega)
      (by unfold R.REL_CCORE Pg.rel1 Pg.ctl0; omega)
  exact (h F.REL_CCORE_CRASHES _ s).trans (h F.REL_CCORE_CORR _ _)

theorem placeLeft (s : State) (hs : ∀ k, s.ctl.upd.loader = some k → k < 4) : DumpKept s (placeLeft s) := by
  unfold Machine.placeLeft
  split
  · exact refl s
  · next k hl =>
    split
    · exact refl s
    · have hk := hs k hl
      have h (v : Nat) (t : State) : DumpKept t (t.setFld (R.REL_CCORE k) F.REL_CCORE_STATE v) :=
        setFld t _ _ v (by unfold R.REL_CCORE Pg.rel1 Pg.ctlDump; omega) (by unfold R.REL_CCORE Pg.rel1 Pg.ctlMb; omega)
          (by unfold R.REL_CCORE Pg.rel1 Pg.ctl0; omega)
      split
      · exact h _ s
      · exact (h _ s).trans (setFld _ R.CTL_STATUS _ _ (by decide) (by decide) (by decide))

theorem updResult (state result : Nat) (s : State) : DumpKept s (updResult state result s) := by
  have h (f : Fld) (v : Nat) (t : State) : DumpKept t (t.setFld R.CTL_UPD_STATUS f v) :=
    setFld t _ f v (by decide) (by decide) (by decide)
  unfold Machine.updResult
  dsimp only
  split
  · exact ((h _ _ s).trans (h _ _ _)).trans (errEvent _ _ _ (by decide) (by decide) (by decide) (by decide))
  · exact (h _ _ s).trans (h _ _ _)

theorem updRestart (s : State) (hs : ∀ k, s.ctl.upd.loader = some k → k < 4) : DumpKept s (updRestart s) := by
  have hflash : ∀ u, u = s ∨ u = s.modFlash (fun f => { f with next := .none, retried := false }) → DumpKept s
      (if u.updState = 1 ∨ u.updState = 3 then Machine.updResult 5 0 ((Machine.placeLeft u).modUpd (fun _ => {})) else u) := by
    intro u hu
    have hu : DumpKept s u := by
      rcases hu with rfl | rfl
      · exact refl _
      · exact modFlash s _
    split
    · exact hu.trans (((placeLeft u fun k hk => hs k (hu.loader k hk)).trans (clearUpd _)).trans (updResult 5 0 _))
    · exact hu
  unfold Machine.updRestart
  refine hflash _ ?_
  split
  · exact Or.inr rfl
  · exact Or.inr rfl
  · exact Or.inr rfl
  · exact Or.inl rfl

end DumpKept

/-! ### The crash -/

section
variable (reason k : Nat) (s : State)

theorem crash_idle (h : bitOf (s.fld R.CTL_STATUS F.CTL_STATUS_ACTIVE) k = false) : crash reason k s = s := by
  unfold crash
  rw [if_pos (by simp [h])]

/-- The copy `aon` of a dump stands, with its status and errors. -/
def dumpShown (reason : Nat) (aon : List Word) (u : State) : State :=
  errEvent Pg.ctlDump E.ctlDump_DUMP_TAKEN (errEvent Pg.ctl0 E.ctl0_CRASH ((u.modCtl (fun c => { c with aon := aon })).setReg
    R.CTL_DUMP_STATUS (BitVec.ofNat 32 (1 + 2 * reason + 2 ^ 16 * ((u.fld R.CTL_DUMP_STATUS F.CTL_DUMP_STATUS_COUNT + 1) % 65536)))))

/-- The state in which a dump has been taken. -/
def State.dumped (s : State) (reason k : Nat) : State :=
  dumpShown reason (aonWords reason k s) (dumpToDa (aonWords reason k s) (s.drew 145))

/-- The state in which the crash is logged and counted. -/
def crashLogged (reason k : Nat) (s : State) : State :=
  let t := logEntry { cls := LogCls.crash, kind := LogKind.ccore, unit := k, arg0 := reason + k * 2 ^ 32 } s
  ccoreCounts k (t.modRel (fun r => { r with crashes := r.crashes ++ [(k, t.dtime)] }))

/-- The contexts that are not torn down. -/
def State.live (s : State) : List Nat := s.contexts.filter (fun x => !s.flag (R.CTL_CX_INFO x) F.CTL_CX_INFO_FAULTED)

theorem crash_eq (hb : s.booted = true) (hd : s.domOn 29 = true) (ha : bitOf (s.fld R.CTL_STATUS F.CTL_STATUS_ACTIVE) k = true) :
    crash reason k s = updRestart ((crashLogged reason k (s.dumped reason k)).live.foldl
      (fun t x => ctxFault x none [] Flt.watchdog 0 0 t) (crashLogged reason k (s.dumped reason k))) := by
  unfold crash State.dumped dumpShown
  rw [if_neg (by simp [hb, hd, ha])]
  dsimp only
  obtain ⟨u, hu⟩ : ∃ u, dumpToDa (aonWords reason k s) (s.drew 145) = u := ⟨_, rfl⟩
  simp only [hu]
  rfl

/-- What the dump shows, where writing it has changed no more than an access to DA may. -/
theorem dumpShown_shows (aon : List Word) (u : State) (hk : DaKept s u) :
    (dumpShown reason aon u).reg R.CTL_DUMP_STATUS = BitVec.ofNat 32 (1 + 2 * reason
      + 2 ^ 16 * ((s.fld R.CTL_DUMP_STATUS F.CTL_DUMP_STATUS_COUNT + 1) % 65536))
    ∧ (dumpShown reason aon u).ctl = { s.ctl with aon := aon }
    ∧ bitOf ((dumpShown reason aon u).reg (Pg.ctl0 + Hdr.errStat)).toNat E.ctl0_CRASH = true
    ∧ bitOf ((dumpShown reason aon u).reg (Pg.ctlDump + Hdr.errStat)).toNat E.ctlDump_DUMP_TAKEN = true
    ∧ (∀ x, x < 128 → (dumpShown reason aon u).reg (R.CTL_CX_INFO x) = s.reg (R.CTL_CX_INFO x))
    ∧ (dumpShown reason aon u).brz = s.brz ∧ (dumpShown reason aon u).dtime = s.dtime := by
  have hmod (f : Ctl → Ctl) (a : Nat) : (u.modCtl f).reg a = u.reg a := rfl
  unfold dumpShown
  refine ⟨?_, ?_, ?_, errEvent_sets _ _ _ (by decide), fun x hx => ?_, ?_, ?_⟩
  · rw [errEvent_reg_ne _ _ _ _ (by decide) (by decide), errEvent_reg_ne _ _ _ _ (by decide) (by decide), State.reg_setReg_same,
      hk.fld _ _ (by decide) (by decide)]
  · have hc : u.ctl = s.ctl := hk.ctl
    rw [errEvent_frame, errEvent_frame, ← hc]
    rfl
  · rw [errEvent_reg_ne _ _ _ _ (by decide) (by decide)]
    exact errEvent_sets _ _ _ (by decide)
  · rw [errEvent_reg_ne _ _ _ _ (by unfold R.CTL_CX_INFO Pg.ctlMb Pg.ctlDump Hdr.errStat; omega)
        (by unfold R.CTL_CX_INFO Pg.ctlMb Pg.ctlDump Hdr.errFirst; omega),
      errEvent_reg_ne _ _ _ _ (by unfold R.CTL_CX_INFO Pg.ctlMb Pg.ctl0 Hdr.errStat; omega)
        (by unfold R.CTL_CX_INFO Pg.ctlMb Pg.ctl0 Hdr.errFirst; omega),
      State.reg_setReg_ne _ _ _ _ (by unfold R.CTL_CX_INFO R.CTL_DUMP_STATUS Pg.ctlMb Pg.ctlDump; omega), hmod]
    exact hk.reg _ (by unfold R.CTL_CX_INFO Pg.ctlMb Pg.mt1; omega) (by unfold R.CTL_CX_INFO Pg.ctlMb Pg.rel2; omega)
  · have hb : u.brz = s.brz := hk.brz
    rw [errEvent_frame, errEvent_frame, ← hb]
    rfl
  · have hd : u.dtime = s.dtime := hk.dtime
    rw [errEvent_frame, errEvent_frame, ← hd]
    rfl

theorem crashLogged_kept (hk : k < 4) : DumpKept s (crashLogged reason k s) := by
  unfold crashLogged
  exact ((DumpKept.logEntry _ s).trans (.modRel _ _)).trans (.ccoreCounts k hk _)

theorem mem_live (x : Nat) (hx : x < 128) (he : s.exists' x = true) (hf : s.flag (R.CTL_CX_INFO x) F.CTL_CX_INFO_FAULTED = false) :
    x ∈ s.live := by
  unfold State.live State.contexts
  simp [hx, he, hf]

/-- A crash (R368, R369). -/
theorem crash_outcome (hk : k < 4) (hr : reason < 4) (hload : ∀ m, s.ctl.upd.loader = some m → m < 4) (hb : s.booted = true)
    (hd : s.domOn 29 = true) (ha : bitOf (s.fld R.CTL_STATUS F.CTL_STATUS_ACTIVE) k = true) :
    (crash reason k s).flag R.CTL_DUMP_STATUS F.CTL_DUMP_STATUS_VALID = true
      ∧ (crash reason k s).fld R.CTL_DUMP_STATUS F.CTL_DUMP_STATUS_REASON = reason
      ∧ (crash reason k s).fld R.CTL_DUMP_STATUS F.CTL_DUMP_STATUS_COUNT
        = (s.fld R.CTL_DUMP_STATUS F.CTL_DUMP_STATUS_COUNT + 1) % 65536
      ∧ (crash reason k s).ctl.aon.take 2 = [0x1D0C7#32, BitVec.ofNat 32 (reason + 256 * k)]
      ∧ (crash reason k s).ctl.aon.length = 1024
      ∧ bitOf ((crash reason k s).reg (Pg.ctl0 + Hdr.errStat)).toNat E.ctl0_CRASH = true
      ∧ bitOf ((crash reason k s).reg (Pg.ctlDump + Hdr.errStat)).toNat E.ctlDump_DUMP_TAKEN = true
      ∧ (∀ x, x < 128 → s.exists' x = true → s.flag (R.CTL_CX_INFO x) F.CTL_CX_INFO_FAULTED = false →
        Faulted x (crash reason k s))
      ∧ (crash reason k s).brz = s.brz ∧ (crash reason k s).dtime = s.dtime := by
  obtain ⟨hst, hctl, hcr, hdt, hcx, hbrz, hdtime⟩ := dumpShown_shows reason s (aonWords reason k s) _
    ((DaKept.drew s 145).trans (dumpToDa_daKept (aonWords reason k s) (s.drew 145)))
  rw [← State.dumped] at hst hctl hcr hdt hbrz hdtime
  have hcx (x : Nat) (hx : x < 128) : (s.dumped reason k).reg (R.CTL_CX_INFO x) = s.reg (R.CTL_CX_INFO x) := hcx x hx
  have hlog := crashLogged_kept reason k (s.dumped reason k) hk
  obtain ⟨hfk, hfs⟩ := FaultKept.each (crashLogged reason k (s.dumped reason k)).live Flt.watchdog 0 0
    (crashLogged reason k (s.dumped reason k))
  have hcxl (x : Nat) (hx : x < 128) (f : Fld) : (crashLogged reason k (s.dumped reason k)).fld (R.CTL_CX_INFO x) f
      = s.fld (R.CTL_CX_INFO x) f := by
    rw [State.fld, hlog.reg _ (Or.inr (Or.inl (by unfold R.CTL_CX_INFO Pg.ctlMb; omega))), hcx x hx, State.fld]
  rw [crash_eq reason k s hb hd ha]
  generalize (crashLogged reason k (s.dumped reason k)).live.foldl (fun t x => ctxFault x none [] Flt.watchdog 0 0 t)
    (crashLogged reason k (s.dumped reason k)) = u at *
  have hall : DumpKept (s.dumped reason k) u := hlog.trans (.faults hfk)
  have hre : DumpKept u (updRestart u) := .updRestart u fun m hm => hload m (by
    have := hall.loader m hm
    rwa [hctl] at this)
  have hend := hall.trans hre
  have hreg := (hend.reg R.CTL_DUMP_STATUS (Or.inl (by decide))).trans hst
  have haon : (updRestart u).ctl.aon = aonWords reason k s := hend.aon.trans (by rw [hctl])
  refine ⟨?_, ?_, ?_, ?_, ?_, ?_, ?_, fun x hx he hf => ?_, hend.brz.trans hbrz, hend.dtime.trans hdtime⟩
  · rw [State.flag, State.fld, hreg]
    simp only [wordFld, bitsOf, F.CTL_DUMP_STATUS_VALID, BitVec.toNat_ofNat, beq_iff_eq]
    omega
  · rw [State.fld, hreg]
    simp only [wordFld, bitsOf, F.CTL_DUMP_STATUS_REASON, BitVec.toNat_ofNat]
    omega
  · rw [State.fld, hreg]
    simp only [wordFld, bitsOf, F.CTL_DUMP_STATUS_COUNT, BitVec.toNat_ofNat]
    omega
  · rw [haon]
    exact aonWords_head reason k s
  · rw [haon]
    exact aonWords_length reason k s
  · rw [hend.reg _ (Or.inr (Or.inr rfl))]
    exact hcr
  · rw [hend.reg _ (Or.inl (by decide))]
    exact hdt
  · refine hre.fault x (hfs x (mem_live _ x hx ?_ ?_))
    · unfold State.exists' State.flag at *
      rw [hcxl x hx]
      exact he
    · unfold State.flag at *
      rw [hcxl x hx]
      exact hf

end
end Sys2Proof.Machine
end

section
/-! PROOFS. Corrected errors, failed control cores and the read of a dump's copy (R350, R369, R373, R412). -/

namespace Sys2Proof.Machine

/-! ### Corrected errors (R350, R412) -/

theorem LogOnly.setFld (s : State) (a : Nat) (f : Fld) (v : Nat) : LogOnly s (s.setFld a f v) := rfl
theorem LogOnly.modRel (s : State) (f : Rel → Rel) : LogOnly s (s.modRel f) := rfl
theorem LogOnly.ctl {s t : State} (h : LogOnly s t) : t.ctl = s.ctl := by rw [h]

theorem ccoreCounts_logOnly (k : Nat) (s : State) : LogOnly s (ccoreCounts k s) :=
  (LogOnly.setFld s (R.REL_CCORE k) F.REL_CCORE_CRASHES _).trans (.setFld _ (R.REL_CCORE k) F.REL_CCORE_CORR _)

section
variable (k : Fin 4) (s : State)

/-- The state in which a corrected error is counted. -/
def sramCounted (k : Nat) (s : State) : State :=
  ccoreCounts k ((errEvent Pg.ctl0 E.ctl0_SECDED_CORR (s.count Pg.ctl0 6 1)).modRel
    (fun r => { r with corr := r.corr ++ [(k, s.dtime)] }))

theorem sramSingle_eq : ∃ e, sramSingle k s = sramCounted k s ∨ sramSingle k s = logEntry e (sramCounted k s) := by
  unfold sramSingle
  dsimp only
  split
  · exact ⟨_, Or.inr rfl⟩
  · exact ⟨{ cls := 0 }, Or.inl rfl⟩

theorem sramCounted_shows : (sramCounted k s).counter (cntKey Pg.ctl0 6) = (s.counter (cntKey Pg.ctl0 6) + 1) % 2 ^ 64
    ∧ bitOf ((sramCounted k s).reg (Pg.ctl0 + Hdr.errStat)).toNat E.ctl0_SECDED_CORR = true ∧ LogOnly s (sramCounted k s) := by
  have hk := k.isLt
  have hreg (t : State) : (ccoreCounts k t).reg (Pg.ctl0 + Hdr.errStat) = t.reg (Pg.ctl0 + Hdr.errStat) :=
    (DumpKept.ccoreCounts k hk t).reg _ (Or.inr (Or.inr rfl))
  have hcnt (t : State) (c : Nat) : (ccoreCounts k t).counter c = t.counter c := rfl
  have hmod (t : State) (f : Rel → Rel) (c : Nat) : (t.modRel f).counter c = t.counter c := rfl
  have hmodr (t : State) (f : Rel → Rel) (a : Nat) : (t.modRel f).reg a = t.reg a := rfl
  unfold sramCounted
  refine ⟨?_, ?_, ?_⟩
  · rw [hcnt, hmod, errEvent_counter, State.counter_count_same]
  · rw [hreg, hmodr]
    exact errEvent_sets _ _ _ (by decide)
  · exact (((LogOnly.count s _ _ _).trans (LogOnly.errEvent _ _ _)).trans (.modRel _ _)).trans (ccoreCounts_logOnly k _)

theorem sramSingle_outcome : (sramSingle k s).counter (cntKey Pg.ctl0 6) = (s.counter (cntKey Pg.ctl0 6) + 1) % 2 ^ 64
    ∧ bitOf ((sramSingle k s).reg (Pg.ctl0 + Hdr.errStat)).toNat E.ctl0_SECDED_CORR = true
    ∧ (sramSingle k s).ctl = s.ctl ∧ (sramSingle k s).ctxs = s.ctxs := by
  obtain ⟨hc, he, hf⟩ := sramCounted_shows k s
  obtain ⟨e, h | h⟩ := sramSingle_eq k s
  · rw [h]
    exact ⟨hc, he, hf.ctl, hf.ctxs⟩
  · have hl := hf.trans (logEntry_frame e (sramCounted k s))
    rw [h]
    refine ⟨?_, ?_, hl.ctl, hl.ctxs⟩
    · rw [logEntry_counter _ _ _ (by decide), hc]
    · rw [logEntry_reg _ _ _ (by decide)]
      exact he

end

/-! ### A failed control core (R412) -/

theorem bitOf_putBits : ∀ (a : Fin 16) (k j : Fin 4) (on : Bool),
    bitOf (putBits a k k (if on then 1 else 0) % 16) j = if j = k then on else bitOf a j := by decide

theorem setActive_bits (k j : Fin 4) (on : Bool) (s : State) :
    bitOf ((setActive k on s).fld R.CTL_STATUS F.CTL_STATUS_ACTIVE) j
      = if j = k then on else bitOf (s.fld R.CTL_STATUS F.CTL_STATUS_ACTIVE) j := by
  have h := bitOf_putBits ⟨s.fld R.CTL_STATUS F.CTL_STATUS_ACTIVE, wordFld_lt _ _⟩ k j on
  unfold setActive
  rw [State.fld_setFld_same _ _ _ _ (by decide)]
  exact h

theorem giveRoles_fld (k m : Nat) (s : State) (a : Nat) (f : Fld) (h : a = R.CTL_STATUS → f = F.CTL_STATUS_ACTIVE) :
    (giveRoles k m s).fld a f = s.fld a f := by
  have hset (g : Fld) (hg : g = F.CTL_STATUS_SCHED ∨ g = F.CTL_STATUS_DEVICE) (t : State) :
      (t.setFld R.CTL_STATUS g m).fld a f = t.fld a f := by
    by_cases ha : a = R.CTL_STATUS
    · rw [ha, h ha]
      refine State.fld_setFld_other _ _ _ _ _ ?_ ?_ <;> rcases hg with rfl | rfl <;> decide
    · exact State.fld_setFld_ne _ _ _ _ _ _ ha
  unfold giveRoles
  dsimp only
  split_ifs
  · rw [hset _ (Or.inr rfl), hset _ (Or.inl rfl)]
  · rw [hset _ (Or.inr rfl)]
  · rw [hset _ (Or.inl rfl)]
  · rfl

/-- One step of a reassignment to core `m`. -/
def reassignOne (k m : Nat) (t : State) (x : Nat) : State :=
  if t.fld (R.CTL_CX_INFO x) F.CTL_CX_INFO_OWNER = k then t.setFld (R.CTL_CX_INFO x) F.CTL_CX_INFO_OWNER m else t

theorem reassignOne_ne (k m x a : Nat) (f : Fld) (h : a ≠ R.CTL_CX_INFO x) (t : State) :
    (reassignOne k m t x).fld a f = t.fld a f := by
  unfold reassignOne
  split
  · exact State.fld_setFld_ne _ _ _ _ _ _ h
  · rfl

theorem reassignOne_owner (k m x : Nat) (hm : m < 4) (t : State) : (reassignOne k m t x).fld (R.CTL_CX_INFO x) F.CTL_CX_INFO_OWNER
    = if t.fld (R.CTL_CX_INFO x) F.CTL_CX_INFO_OWNER = k then m else t.fld (R.CTL_CX_INFO x) F.CTL_CX_INFO_OWNER := by
  unfold reassignOne
  split
  · rw [State.fld_setFld_same _ _ _ _ (by decide)]
    exact Nat.mod_eq_of_lt hm
  · rfl

theorem reassign_fold_fld (k m : Nat) (l : List Nat) (s : State) (a : Nat) (f : Fld) (h : ∀ x ∈ l, a ≠ R.CTL_CX_INFO x) :
    (l.foldl (reassignOne k m) s).fld a f = s.fld a f := by
  induction l generalizing s with
  | nil => rfl
  | cons x l ih =>
    exact (ih _ fun y hy => h y (List.mem_cons_of_mem _ hy)).trans (reassignOne_ne k m x a f (h x (List.mem_cons_self ..)) s)

/-- A context whose owner is the one that takes over stays with it. -/
theorem reassign_fold_taken (k m : Nat) (hm : m < 4) (l : List Nat) (s : State) (x : Nat)
    (h : s.fld (R.CTL_CX_INFO x) F.CTL_CX_INFO_OWNER = m) :
    (l.foldl (reassignOne k m) s).fld (R.CTL_CX_INFO x) F.CTL_CX_INFO_OWNER = m := by
  induction l generalizing s with
  | nil => exact h
  | cons y l ih =>
    refine ih _ ?_
    by_cases e : x = y
    · rw [← e, reassignOne_owner k m x hm, h, ite_self]
    · rw [reassignOne_ne k m y _ _ (by unfold R.CTL_CX_INFO; omega), h]

theorem reassign_fold_owner (k m : Nat) (hm : m < 4) (l : List Nat) (s : State) (x : Nat) (hx : x ∈ l)
    (h : s.fld (R.CTL_CX_INFO x) F.CTL_CX_INFO_OWNER = k) :
    (l.foldl (reassignOne k m) s).fld (R.CTL_CX_INFO x) F.CTL_CX_INFO_OWNER = m := by
  induction l generalizing s with
  | nil => cases hx
  | cons y l ih =>
    by_cases e : x = y
    · refine reassign_fold_taken k m hm l _ x ?_
      rw [← e, reassignOne_owner k m x hm, h, if_pos rfl]
    · refine ih _ ((List.mem_cons.mp hx).resolve_left e) ?_
      rw [reassignOne_ne k m y _ _ (by unfold R.CTL_CX_INFO; omega), h]

theorem reassign_to (k m : Nat) (s : State) : reassign k (fun _ => m) s = s.contexts.foldl (reassignOne k m) s := rfl

section
variable (k m : Fin 4) (s : State)

/-- A failed core out of service and the spare in its place, before contexts and roles move. -/
def State.spareActive (s : State) (k m : Nat) : State :=
  setActive m true ((setActive k false (s.setFld (R.REL_CCORE k) F.REL_CCORE_STATE 3)).setFld (R.REL_CCORE m) F.REL_CCORE_STATE 0)

theorem ccoreFail_eq (hs : s.fld (R.REL_CCORE k) F.REL_CCORE_STATE ≠ 3)
    (hm : leastBelow 4 (fun m => m != k.val && s.fld (R.REL_CCORE m) F.REL_CCORE_STATE == 1) = some m.val) :
    ccoreFail k true s = relSpare LogKind.ccore k 0xFFFF (k + m * 2 ^ 32)
      (giveRoles k m (reassign k (fun _ => m.val) (s.spareActive k m))) := by
  unfold ccoreFail
  rw [if_neg (by simp [hs]), hm]
  rfl

theorem spareActive_fld (a : Nat) (f : Fld) (h1 : a ≠ R.CTL_STATUS) (h2 : ∀ j < 4, a ≠ R.REL_CCORE j) :
    (s.spareActive k m).fld a f = s.fld a f := by
  unfold State.spareActive setActive
  dsimp only
  rw [State.fld_setFld_ne _ _ _ _ _ _ h1, State.fld_setFld_ne _ _ _ _ _ _ (h2 m m.isLt), State.fld_setFld_ne _ _ _ _ _ _ h1,
    State.fld_setFld_ne _ _ _ _ _ _ (h2 k k.isLt)]

theorem spareActive_states (h : m ≠ k) : (s.spareActive k m).fld (R.REL_CCORE k) F.REL_CCORE_STATE = 3
    ∧ (s.spareActive k m).fld (R.REL_CCORE m) F.REL_CCORE_STATE = 0 := by
  have hst (j : Fin 4) : R.REL_CCORE j ≠ R.CTL_STATUS := by unfold R.REL_CCORE R.CTL_STATUS Pg.rel1 Pg.ctl0; omega
  have hne : R.REL_CCORE k ≠ R.REL_CCORE m := by
    have : k.val ≠ m.val := fun e => h (Fin.ext e.symm)
    unfold R.REL_CCORE
    omega
  unfold State.spareActive setActive
  dsimp only
  refine ⟨?_, ?_⟩
  · rw [State.fld_setFld_ne _ _ _ _ _ _ (hst k), State.fld_setFld_ne _ _ _ _ _ _ hne, State.fld_setFld_ne _ _ _ _ _ _ (hst k),
      State.fld_setFld_same _ _ _ _ (by decide)]
    rfl
  · rw [State.fld_setFld_ne _ _ _ _ _ _ (hst m), State.fld_setFld_same _ _ _ _ (by decide)]
    rfl

theorem spareActive_active (h : m ≠ k) : bitOf ((s.spareActive k m).fld R.CTL_STATUS F.CTL_STATUS_ACTIVE) k = false
    ∧ bitOf ((s.spareActive k m).fld R.CTL_STATUS F.CTL_STATUS_ACTIVE) m = true := by
  have hne : R.CTL_STATUS ≠ R.REL_CCORE m := by unfold R.REL_CCORE R.CTL_STATUS Pg.rel1 Pg.ctl0; omega
  unfold State.spareActive
  rw [setActive_bits, setActive_bits, if_neg h.symm, if_pos rfl, State.fld_setFld_ne _ _ _ _ _ _ hne, setActive_bits, if_pos rfl]
  exact ⟨rfl, rfl⟩

/-- The spare takes over (R412). -/
theorem ccoreFail_outcome (hs : s.fld (R.REL_CCORE k) F.REL_CCORE_STATE ≠ 3)
    (hm : leastBelow 4 (fun m => m != k.val && s.fld (R.REL_CCORE m) F.REL_CCORE_STATE == 1) = some m.val) :
    (ccoreFail k true s).fld (R.REL_CCORE k) F.REL_CCORE_STATE = 3 ∧ (ccoreFail k true s).fld (R.REL_CCORE m) F.REL_CCORE_STATE = 0
      ∧ bitOf ((ccoreFail k true s).fld R.CTL_STATUS F.CTL_STATUS_ACTIVE) k = false
      ∧ bitOf ((ccoreFail k true s).fld R.CTL_STATUS F.CTL_STATUS_ACTIVE) m = true
      ∧ ∀ x, x < 128 → s.exists' x = true → s.fld (R.CTL_CX_INFO x) F.CTL_CX_INFO_OWNER = k.val →
        (ccoreFail k true s).fld (R.CTL_CX_INFO x) F.CTL_CX_INFO_OWNER = m.val := by
  have hmk : m ≠ k := by
    have h := (leastBelow_some hm).2
    simp only [Bool.and_eq_true, bne_iff_ne, ne_eq] at h
    exact fun e => h.1 (congrArg Fin.val e)
  have hfld (a : Nat) (f : Fld) (h0 : a / 4096 ≠ Pg.rel0 / 4096) (h2 : a / 4096 ≠ Pg.rel2 / 4096)
      (h : a = R.CTL_STATUS → f = F.CTL_STATUS_ACTIVE) : (ccoreFail k true s).fld a f
        = ((s.spareActive k m).contexts.foldl (reassignOne k m) (s.spareActive k m)).fld a f := by
    rw [ccoreFail_eq k m s hs hm, State.fld, relSpare_reg _ _ _ _ _ _ h0 h2, ← State.fld, giveRoles_fld _ _ _ _ _ h, reassign_to]
  have hkept (a : Nat) (f : Fld) (h : a < Pg.ctlMb) :
      ((s.spareActive k m).contexts.foldl (reassignOne k m) (s.spareActive k m)).fld a f = (s.spareActive k m).fld a f :=
    reassign_fold_fld _ _ _ _ _ _ fun x _ => by unfold R.CTL_CX_INFO; omega
  have hcx (x : Nat) (f : Fld) : (s.spareActive k m).fld (R.CTL_CX_INFO x) f = s.fld (R.CTL_CX_INFO x) f :=
    spareActive_fld k m s _ _ (by unfold R.CTL_CX_INFO R.CTL_STATUS Pg.ctlMb Pg.ctl0; omega)
      fun j hj => by unfold R.CTL_CX_INFO R.REL_CCORE Pg.ctlMb Pg.rel1; omega
  have hrel (j : Fin 4) : (ccoreFail k true s).fld (R.REL_CCORE j) F.REL_CCORE_STATE
      = (s.spareActive k m).fld (R.REL_CCORE j) F.REL_CCORE_STATE := by
    rw [hfld _ _ (by unfold R.REL_CCORE Pg.rel1 Pg.rel0; omega) (by unfold R.REL_CCORE Pg.rel1 Pg.rel2; omega)
      (fun e => absurd e (by unfold R.REL_CCORE R.CTL_STATUS Pg.rel1 Pg.ctl0; omega))]
    exact hkept _ _ (by unfold R.REL_CCORE Pg.rel1 Pg.ctlMb; omega)
  have hact : (ccoreFail k true s).fld R.CTL_STATUS F.CTL_STATUS_ACTIVE = (s.spareActive k m).fld R.CTL_STATUS F.CTL_STATUS_ACTIVE := by
    rw [hfld _ _ (by decide) (by decide) fun _ => rfl]
    exact hkept _ _ (by decide)
  obtain ⟨h3, h0⟩ := spareActive_states k m s hmk
  obtain ⟨hoff, hon⟩ := spareActive_active k m s hmk
  refine ⟨(hrel k).trans h3, (hrel m).trans h0, ?_, ?_, fun x hx he ho => ?_⟩
  · rw [hact]
    exact hoff
  · rw [hact]
    exact hon
  · rw [hfld _ _ (by unfold R.CTL_CX_INFO Pg.ctlMb Pg.rel0; omega) (by unfold R.CTL_CX_INFO Pg.ctlMb Pg.rel2; omega)
      (fun e => absurd e (by unfold R.CTL_CX_INFO R.CTL_STATUS Pg.ctlMb Pg.ctl0; omega))]
    refine reassign_fold_owner k m m.isLt _ _ x ?_ ((hcx x _).trans ho)
    unfold State.contexts State.exists' State.flag at *
    simp only [List.mem_filter, List.mem_range, hcx]
    exact ⟨hx, he⟩

theorem ccoreFail_again (bist : Bool) (hs : s.fld (R.REL_CCORE k) F.REL_CCORE_STATE = 3) : ccoreFail k bist s = s := by
  unfold ccoreFail
  exact if_pos (Or.inl hs)

end

/-! ### Reading the copy (R373) -/

theorem busRead_aonData (iid : Fin 24) (s : State) (h : s.Permits iid R.CTL_DUMP_AON_DATA false .ctlDump 0) :
    busRead iid R.CTL_DUMP_AON_DATA s = aonRead s := by
  have h29 := h.2.1
  have hread : blockRead iid .ctlDump 0 (R.CTL_DUMP_AON_DATA % 4096) R.CTL_DUMP_AON_DATA (s.answers 0) = aonRead s := rfl
  rw [busRead_block iid R.CTL_DUMP_AON_DATA s .ctlDump 0 h h29 (by decide), hread]
  exact attributeErr_quiet _ _ _ _ (State.reg_setFld_ne _ _ _ _ _ (by decide))

theorem aonRead_word (s : State) (w : Word) (h : s.ctl.aon[s.fld R.CTL_DUMP_AON_ADDR F.CTL_DUMP_AON_ADDR_WORD]? = some w) :
    aonRead s = (s.setFld R.CTL_DUMP_AON_ADDR F.CTL_DUMP_AON_ADDR_WORD
      ((s.fld R.CTL_DUMP_AON_ADDR F.CTL_DUMP_AON_ADDR_WORD + 1) % 1024)).answers w := by
  have he : s.ctl.aon.isEmpty = false := by
    cases hl : s.ctl.aon with
    | nil => rw [hl] at h; cases h
    | cons => rfl
  unfold aonRead
  dsimp only
  rw [h, he]
  rfl

/-- Settles O43: a crash is the dump, its log and the faults of the live contexts, of which none touches what the dump left; a
failed core's roles, contexts and bit of ACTIVE go to the spare. -/
theorem controlCoresCrashAndFail : Obligations.ControlCoresCrashAndFail := by
  unfold Obligations.ControlCoresCrashAndFail
  intro s k hp
  have hload : ∀ m, s.ctl.upd.loader = some m → m < 4 := fun m hm => hp.2.2.2 m (Or.inl hm)
  refine ⟨fun c reason hc hb hd => ?_, ⟨_, rfl, sramSingle_outcome k s⟩, fun m hs hm => ⟨_, rfl, ccoreFail_outcome k m s hs hm⟩,
    fun hs bist => congrArg Host.Outcome.next (ccoreFail_again k s bist hs), fun iid w h hw => ?_⟩
  · have hex : exec c s = .next (crash reason k s) ∧ reason < 4 := by
      simp only [List.mem_cons, Prod.mk.injEq, List.not_mem_nil, or_false] at hc
      rcases hc with ⟨rfl, rfl⟩ | ⟨rfl, rfl⟩ | ⟨rfl, rfl⟩ <;> exact ⟨rfl, by decide⟩
    obtain ⟨hex, hr⟩ := hex
    refine ⟨fun ha => ⟨_, hex, crash_outcome reason k s k.isLt hr hload hb hd ha⟩, fun ha => ?_⟩
    rw [hex, crash_idle reason k s ha]
  · exact congrArg Host.Outcome.next ((busRead_aonData iid s h).trans (aonRead_word s w hw))

end Sys2Proof.Machine
end

section
/-! PROOFS. Ploem ports: what sending, receiving and training leave of a port (R376, R377, R379, R380, R382). -/

namespace Sys2Proof.Machine

/-! ### Sending -/

/-- A port without what sending changes. -/
def PlmPort.steady (x : PlmPort) : PlmPort := { x with next := 0, unacked := 0, cred := [], fwd := [] }

/-- A counter that no port's count of flits sent is. -/
def NotSent (c : Nat) : Prop := ∀ o, c ≠ cntKey (Pg.plmPort o) 0

/-- What sending flits leaves alone. -/
structure SentOnly (s t : State) : Prop where
  frame : t = { s with cnt := t.cnt, plm := { s.plm with ports := t.plm.ports } }
  port : ∀ k, (t.port k).steady = (s.port k).steady
  counter : ∀ c, NotSent c → t.counter c = s.counter c

namespace SentOnly

theorem refl (s : State) : SentOnly s s := ⟨rfl, fun _ => rfl, fun _ _ => rfl⟩

theorem trans {s t u : State} (h : SentOnly s t) (k : SentOnly t u) : SentOnly s u where
  frame := by
    have hk := k.frame
    rw [h.frame] at hk
    exact hk
  port p := (k.port p).trans (h.port p)
  counter c hc := (k.counter c hc).trans (h.counter c hc)

theorem modPort (p : Nat) (f : PlmPort → PlmPort) (s : State) (hf : (f (s.port p)).steady = (s.port p).steady) :
    SentOnly s (s.modPort p f) where
  frame := rfl
  port k := by
    by_cases h : k = p
    · rw [h, port_modPort, hf]
    · rw [port_modPort_ne _ _ _ _ h]
  counter _ _ := rfl

theorem count (o k : Nat) (s : State) : SentOnly s (s.count (Pg.plmPort o) 0 k) where
  frame := rfl
  port _ := rfl
  counter _ hc := State.counter_count_ne _ _ _ _ _ (hc o)

theorem sendFlits (p k : Nat) (s : State) : SentOnly s (sendFlits p k s) := by
  unfold Machine.sendFlits
  exact (modPort p (fun x => { x with next := (x.next + k) % 4096, unacked := min replaySize (x.unacked + k) }) s rfl).trans (count p k _)

theorem sendOne (p v : Nat) (s : State) : SentOnly s (sendOne p v s) := by
  unfold Machine.sendOne
  exact (modPort p (fun x => { x with cred := Tab.set x.cred v (Tab.get x.cred 0 v - 1) }) s rfl).trans (sendFlits p 1 _)

theorem pumpFwd (p : Nat) (fs : List (Nat × Nat × Nat)) (s : State) : SentOnly s (pumpFwd p fs s) := by
  induction fs generalizing s with
  | nil => exact modPort p (fun x => { x with fwd := [] }) s rfl
  | cons f fs ih =>
    unfold Machine.pumpFwd
    split
    · exact (sendOne _ _ s).trans (ih _)
    · exact modPort p (fun x => { x with fwd := f :: fs }) s rfl

theorem pumpAll (s : State) : SentOnly s (pumpAll s) := by
  have h (l : List Nat) (s : State) : SentOnly s (l.foldl (fun t p => Machine.pumpFwd p (t.port p).fwd t) s) := by
    induction l generalizing s with
    | nil => exact refl s
    | cons p l ih => exact (pumpFwd p _ s).trans (ih _)
  exact h _ s

theorem reg {s t : State} (h : SentOnly s t) (a : Nat) : t.reg a = s.reg a := by rw [h.frame]; rfl

theorem fld {s t : State} (h : SentOnly s t) (a : Nat) (f : Fld) : t.fld a f = s.fld a f := by rw [State.fld, h.reg a, State.fld]

end SentOnly

theorem notSent_port (p : Fin 6) (i : Nat) (h0 : i ≠ 0) (h : i < 8) : NotSent (cntKey (Pg.plmPort p) i) := by
  intro o
  unfold cntKey Pg.plmPort
  omega

theorem notSent_plm0 (i : Nat) (h : i < 8) : NotSent (cntKey Pg.plm0 i) := by
  intro o
  unfold cntKey Pg.plmPort Pg.plm0
  omega

/-! ### What a flit leaves of its port once it is taken or refused -/

/-- The sequence state of port `p` and its counts other than that of flits sent stand. -/
structure SeqKept (p : Nat) (s t : State) : Prop where
  nak : (t.port p).nakOut = (s.port p).nakOut
  expect : (t.port p).expect = (s.port p).expect
  counter : ∀ i, i ≠ 0 → i < 8 → t.counter (cntKey (Pg.plmPort p) i) = s.counter (cntKey (Pg.plmPort p) i)

namespace SeqKept

theorem refl (p : Nat) (s : State) : SeqKept p s s := ⟨rfl, rfl, fun _ _ _ => rfl⟩

theorem trans {p : Nat} {s t u : State} (h : SeqKept p s t) (k : SeqKept p t u) : SeqKept p s u where
  nak := k.nak.trans h.nak
  expect := k.expect.trans h.expect
  counter i h0 h8 := (k.counter i h0 h8).trans (h.counter i h0 h8)

theorem sent {p : Fin 6} {s t : State} (h : SentOnly s t) : SeqKept p s t where
  nak := by
    have hp := congrArg PlmPort.nakOut (h.port p)
    exact hp
  expect := by
    have hp := congrArg PlmPort.expect (h.port p)
    exact hp
  counter i h0 h8 := h.counter _ (notSent_port p i h0 h8)

theorem ofPlm {p : Nat} {s t : State} (h : t.plm = s.plm)
    (hc : ∀ i, i ≠ 0 → i < 8 → t.counter (cntKey (Pg.plmPort p) i) = s.counter (cntKey (Pg.plmPort p) i)) : SeqKept p s t := by
  have hp : t.port p = s.port p := by rw [State.port, h, State.port]
  exact ⟨by rw [hp], by rw [hp], hc⟩

theorem modPort (p : Nat) (f : PlmPort → PlmPort) (s : State) (h1 : (f (s.port p)).nakOut = (s.port p).nakOut)
    (h2 : (f (s.port p)).expect = (s.port p).expect) : SeqKept p s (s.modPort p f) where
  nak := by rw [port_modPort, h1]
  expect := by rw [port_modPort, h2]
  counter _ _ _ := rfl

section
variable (p : Fin 6) (s : State)

theorem count (base j k : Nat) (h : base + 0x100 ≤ Pg.plmPort 0) (hj : j < 8) : SeqKept p s (s.count base j k) :=
  ofPlm rfl fun i _ _ => State.counter_count_ne _ _ _ _ _ (by unfold cntKey Pg.plmPort at *; omega)

theorem errEvent (base bit : Nat) : SeqKept p s (errEvent base bit s) :=
  ofPlm (errEvent_plm _ _ _) fun _ _ _ => errEvent_counter _ _ _ _

theorem logPartner (base bit kind unit : Nat) : SeqKept p s (logPartner base bit kind unit s) :=
  ofPlm (by rw [logPartner_frame]) fun i _ h => logPartner_counter _ _ _ _ _ _
    (by have := p.isLt; unfold cntKey Pg.plmPort Pg.rel2; omega) (by have := p.isLt; unfold cntKey Pg.plmPort Pg.rel3; omega)

theorem svcEvent (bit : Nat) : SeqKept p s (svcEvent bit s) :=
  ofPlm (by rw [svcEvent_frame]) fun i _ h => svcEvent_counter _ _ _
    (by have := p.isLt; unfold cntKey Pg.plmPort Pg.mgtTel; omega) (by have := p.isLt; unfold cntKey Pg.plmPort Pg.rel0; omega)
    (by have := p.isLt; unfold cntKey Pg.plmPort Pg.rel2; omega)

theorem failPort (q : Nat) : SeqKept p s (failPort q s) := by
  unfold Machine.failPort
  exact ((ofPlm rfl fun _ _ _ => rfl : SeqKept p s (setPortState q Port.failed s)).trans (errEvent p _ _ _)).trans (svcEvent p _ _)

theorem testArrives (seq : Nat) (differs : Bool) : SeqKept p s (testArrives p seq differs s) := by
  have hc (i k : Nat) (hi : i < 8) (t : State) : SeqKept p t (t.count (Pg.tstLane p) i k) :=
    count p t _ i k (by have := p.isLt; unfold Pg.tstLane Pg.plmPort; omega) hi
  unfold Machine.testArrives
  split
  · have hdiff : SeqKept p s (if differs then Machine.errEvent (Pg.tstLane p) E.tstLane_FLIT_ERR
        ((s.count (Pg.tstLane p) 1 1).count (Pg.tstLane p) 2 1) else s.count (Pg.tstLane p) 1 1) := by
      split
      · exact ((hc 1 1 (by decide) s).trans (hc 2 1 (by decide) _)).trans (errEvent p _ _ _)
      · exact hc 1 1 (by decide) s
    have hgap (b : Bool) (u : State) : SeqKept p u (if b then
        Machine.errEvent (Pg.tstLane p) E.tstLane_FLIT_ERR (u.count (Pg.tstLane p) 3 1) else u) := by
      split
      · exact (hc 3 1 (by decide) u).trans (errEvent p _ _ _)
      · exact refl _ _
    exact (hdiff.trans (hgap _ _)).trans (modPort p _ _ rfl rfl)
  · exact count p s _ 7 1 (by decide) (by decide)

theorem chunkFlit (f : Flit) : SeqKept p s (chunkFlit p f s) := by
  unfold Machine.chunkFlit
  split
  · exact count p s _ 7 1 (by decide) (by decide)
  · split
    · exact ((count p s _ 7 1 (by decide) (by decide)).trans (errEvent p _ _ _)).trans (logPartner p _ _ _ _ _)
    · split
      · exact sent (SentOnly.sendFlits _ _ s)
      · exact modPort p _ s rfl rfl

/-- Whatever an accepted flit carries. -/
theorem flitAccept (f : Flit) (testBad : Bool) : SeqKept p s (flitAccept p f testBad s) := by
  unfold Machine.flitAccept
  split
  · split
    · exact refl _ _
    · exact ((failPort p s p).trans (errEvent p _ _ _)).trans (logPartner p _ _ _ _ _)
  · split
    · split
      · dsimp only
        split
        · exact sent (SentOnly.sendOne _ _ s)
        · exact modPort p _ s rfl rfl
      · exact count p s _ 7 1 (by decide) (by decide)
    · split
      · exact testArrives p s _ _
      · exact chunkFlit p s f

end
end SeqKept
end Sys2Proof.Machine
end

section
/-! PROOFS. Flits received, replays, failed lanes and the end of training (R376, R377, R379 to R382, R393). -/

namespace Sys2Proof.Machine

section
variable (p : Fin 6) (s : State)

/-! ### Refused flits -/

/-- The state in which a received flit and its corrected symbols are counted. -/
def State.flitCounted (s : State) (p corr : Nat) : State := (s.count (Pg.plmPort p) 1 1).count (Pg.plmPort p) 4 corr

theorem portKey_ne (i j : Nat) (h : i ≠ j) : cntKey (Pg.plmPort p) i ≠ cntKey (Pg.plmPort p) j := by unfold cntKey; omega

theorem flitCounted_counter (corr : Nat) :
    (s.flitCounted p corr).counter (cntKey (Pg.plmPort p) 1) = (s.counter (cntKey (Pg.plmPort p) 1) + 1) % 2 ^ 64
      ∧ (s.flitCounted p corr).counter (cntKey (Pg.plmPort p) 4) = (s.counter (cntKey (Pg.plmPort p) 4) + corr) % 2 ^ 64
      ∧ ∀ i, i ≠ 1 → i ≠ 4 → (s.flitCounted p corr).counter (cntKey (Pg.plmPort p) i) = s.counter (cntKey (Pg.plmPort p) i) := by
  unfold State.flitCounted
  refine ⟨?_, ?_, fun i h1 h4 => ?_⟩
  · rw [State.counter_count_ne _ _ _ _ _ (portKey_ne p 1 4 (by decide)), State.counter_count_same]
  · rw [State.counter_count_same, State.counter_count_ne _ _ _ _ _ (portKey_ne p 4 1 (by decide))]
  · rw [State.counter_count_ne _ _ _ _ _ (portKey_ne p i 4 h4), State.counter_count_ne _ _ _ _ _ (portKey_ne p i 1 h1)]

theorem flitReceive_up (f : Flit) (crcOk fecOk : Bool) (corr : Nat) (tb : Bool) (hu : s.portUp p = true) :
    flitReceive p f crcOk fecOk corr tb s =
      let s1 := s.flitCounted p corr
      if !fecOk then nakFlit p (errEvent (Pg.plmPort p) E.plmPort_FEC_UNCORR (s1.count (Pg.plmPort p) 5 1))
      else if !crcOk then nakFlit p (errEvent (Pg.plmPort p) E.plmPort_CRC (s1.count (Pg.plmPort p) 2 1))
      else if 3 < f.typ then nakFlit p s1
      else if f.typ = 0 then flitLink p f s1
      else if f.seq ≠ (s.port p).expect then
        (if (s.port p).nakOut then flitLink p f s1 else nakFlit p (flitLink p f s1))
      else if vcBuffers ≤ ((s.port p).fwd.filter (fun q => q.1 == f.vc)).length then
        retrain p (logPartner (Pg.plmPort p) E.plmPort_CREDIT_OVF LogKind.ploem p
          (errEvent (Pg.plmPort p) E.plmPort_CREDIT_OVF ((flitLink p f s1).count Pg.plm0 7 1)))
      else flitAccept p f tb ((flitLink p f s1).modPort p (fun y => { y with expect := (y.expect + 1) % 4096, nakOut := false })) := by
  unfold flitReceive
  rw [if_neg (by simp [hu])]
  rfl

theorem logPartner_plm (base bit kind unit : Nat) (s : State) : (logPartner base bit kind unit s).plm = s.plm := by
  rw [logPartner_frame]

/-- A NAK stands after a flit's refusal, which leaves the rest of its port. -/
theorem nakFlit_port : (nakFlit p s).port p = { s.port p with nakOut := true } := by
  unfold nakFlit
  rw [port_modPort]
  unfold State.port
  rw [logPartner_plm]

theorem nakFlit_counter (i : Nat) (h : i < 8) : (nakFlit p s).counter (cntKey (Pg.plmPort p) i) = s.counter (cntKey (Pg.plmPort p) i) := by
  have := p.isLt
  exact logPartner_counter _ _ _ _ _ _ (by unfold cntKey Pg.plmPort Pg.rel2; omega) (by unfold cntKey Pg.plmPort Pg.rel3; omega)

theorem nakFlit_reg (a : Nat) (h : a / 4096 ≠ Pg.rel2 / 4096) : (nakFlit p s).reg a = s.reg a := logPartner_reg _ _ _ _ _ _ h

/-- The state in which a check that failed is counted and raised, and the flit answered by NAK. -/
theorem flitRefused (i bit corr : Nat) (hi : i = 2 ∨ i = 5) (hb : bit < 32) :
    let t := nakFlit p (errEvent (Pg.plmPort p) bit ((s.flitCounted p corr).count (Pg.plmPort p) i 1))
    (t.port p).nakOut = true ∧ (t.port p).expect = (s.port p).expect
      ∧ t.counter (cntKey (Pg.plmPort p) 1) = (s.counter (cntKey (Pg.plmPort p) 1) + 1) % 2 ^ 64
      ∧ t.counter (cntKey (Pg.plmPort p) i) = (s.counter (cntKey (Pg.plmPort p) i) + 1) % 2 ^ 64
      ∧ bitOf (t.reg (Pg.plmPort p + Hdr.errStat)).toNat bit = true := by
  obtain ⟨h1, -, hk⟩ := flitCounted_counter p s corr
  have hp := p.isLt
  have hport : (errEvent (Pg.plmPort p) bit ((s.flitCounted p corr).count (Pg.plmPort p) i 1)).port p = s.port p := by
    unfold State.port
    rw [errEvent_plm]
    rfl
  refine ⟨?_, ?_, ?_, ?_, ?_⟩
  · rw [nakFlit_port]
  · rw [nakFlit_port, hport]
  · rw [nakFlit_counter p _ 1 (by decide), errEvent_counter, State.counter_count_ne _ _ _ _ _ (portKey_ne p 1 i (by omega)), h1]
  · rw [nakFlit_counter p _ i (by omega), errEvent_counter, State.counter_count_same, hk i (by omega) (by omega)]
  · rw [nakFlit_reg p _ _ (by unfold Pg.plmPort Hdr.errStat Pg.rel2; omega)]
    exact errEvent_sets _ _ _ hb

/-! ### Flits in and out of order -/

theorem flitLink_sent (f : Flit) (hn : f.nak = false) : SentOnly s (flitLink p f s) := by
  unfold flitLink
  dsimp only
  rw [hn]
  refine SentOnly.trans ?_ (.pumpAll _)
  refine SentOnly.modPort p (fun x => { x with
    unacked := if (x.next + 4096 - 1 - f.ack % 4096) % 4096 ≤ x.unacked then (x.next + 4096 - 1 - f.ack % 4096) % 4096 else x.unacked
    cred := Tab.set x.cred (f.creditVc % 4) (min vcBuffers (Tab.get x.cred 0 (f.creditVc % 4) + f.credit)) }) s rfl

/-- What the flit's own link words leave of its port, in the state that counted it. -/
theorem flitLinked (f : Flit) (corr : Nat) (hn : f.nak = false) :
    ((flitLink p f (s.flitCounted p corr)).port p).steady = (s.port p).steady
      ∧ ∀ i, i ≠ 0 → i < 8 → (flitLink p f (s.flitCounted p corr)).counter (cntKey (Pg.plmPort p) i)
        = (s.flitCounted p corr).counter (cntKey (Pg.plmPort p) i) := by
  have h := flitLink_sent p (s.flitCounted p corr) f hn
  exact ⟨h.port p, fun i h0 h8 => h.counter _ (notSent_port p i h0 h8)⟩

theorem steady_nak {x y : PlmPort} (h : x.steady = y.steady) : x.nakOut = y.nakOut := by
  have hp := congrArg PlmPort.nakOut h
  exact hp

theorem steady_expect {x y : PlmPort} (h : x.steady = y.steady) : x.expect = y.expect := by
  have hp := congrArg PlmPort.expect h
  exact hp

theorem steady_ins {x y : PlmPort} (h : x.steady = y.steady) : x.ins = y.ins := by
  have hp := congrArg PlmPort.ins h
  exact hp

theorem flitReceive_skipped (f : Flit) (corr : Nat) (tb : Bool) (hu : s.portUp p = true) (h1 : 1 ≤ f.typ) (h3 : f.typ ≤ 3)
    (hn : f.nak = false) (hq : f.seq ≠ (s.port p).expect) :
    ((flitReceive p f true true corr tb s).port p).nakOut = true
      ∧ ((flitReceive p f true true corr tb s).port p).expect = (s.port p).expect
      ∧ ((flitReceive p f true true corr tb s).port p).ins = (s.port p).ins
      ∧ (flitReceive p f true true corr tb s).counter (cntKey (Pg.plmPort p) 1) = (s.counter (cntKey (Pg.plmPort p) 1) + 1) % 2 ^ 64 := by
  obtain ⟨hst, hk⟩ := flitLinked p s f corr hn
  obtain ⟨hc, -, -⟩ := flitCounted_counter p s corr
  rw [flitReceive_up p s f true true corr tb hu]
  dsimp only
  rw [if_neg (by decide), if_neg (by decide), if_neg (by omega), if_neg (by omega), if_pos hq]
  split
  · next hnak =>
    exact ⟨(steady_nak hst).trans hnak, steady_expect hst, steady_ins hst, (hk 1 (by decide) (by decide)).trans hc⟩
  · have hexp := steady_expect hst
    have hins := steady_ins hst
    rw [nakFlit_port, nakFlit_counter p _ 1 (by decide), hk 1 (by decide) (by decide)]
    generalize (flitLink p f (s.flitCounted p corr)).port p = x at *
    exact ⟨rfl, hexp, hins, hc⟩

/-- The state in which the flit expected next is taken. -/
def State.flitTaken (s : State) (p : Nat) (f : Flit) (corr : Nat) : State :=
  (flitLink p f (s.flitCounted p corr)).modPort p (fun y => { y with expect := (y.expect + 1) % 4096, nakOut := false })

theorem flitReceive_taken (f : Flit) (corr : Nat) (tb : Bool) (hu : s.portUp p = true) (h1 : 1 ≤ f.typ) (h3 : f.typ ≤ 3)
    (hq : f.seq = (s.port p).expect) (hf : ((s.port p).fwd.filter (fun q => q.1 == f.vc)).length < 64) :
    flitReceive p f true true corr tb s = flitAccept p f tb (s.flitTaken p f corr) := by
  rw [flitReceive_up p s f true true corr tb hu]
  dsimp only
  rw [if_neg (by decide), if_neg (by decide), if_neg (by omega), if_neg (by omega), if_neg (by simp [hq]),
    if_neg (by unfold vcBuffers; omega)]
  rfl

theorem flitTaken_port (f : Flit) (corr : Nat) (hn : f.nak = false) :
    ((s.flitTaken p f corr).port p).nakOut = false ∧ ((s.flitTaken p f corr).port p).expect = ((s.port p).expect + 1) % 4096
      ∧ ((s.flitTaken p f corr).port p).ins = (s.port p).ins := by
  obtain ⟨hst, -⟩ := flitLinked p s f corr hn
  have hexp := steady_expect hst
  have hins := steady_ins hst
  unfold State.flitTaken
  rw [port_modPort]
  generalize (flitLink p f (s.flitCounted p corr)).port p = x at *
  refine ⟨rfl, ?_, hins⟩
  dsimp only
  rw [hexp]

theorem flitTaken_frame (f : Flit) (corr : Nat) (hn : f.nak = false) : s.flitTaken p f corr
    = { s with cnt := (s.flitTaken p f corr).cnt, plm := { s.plm with ports := (s.flitTaken p f corr).plm.ports } } := by
  have h := (flitLink_sent p (s.flitCounted p corr) f hn).frame
  unfold State.flitTaken
  generalize flitLink p f (s.flitCounted p corr) = u at h ⊢
  rw [h]
  rfl

theorem flitTaken_counter (f : Flit) (corr : Nat) (hn : f.nak = false) (c : Nat) (hc : NotSent c) :
    (s.flitTaken p f corr).counter c = (s.flitCounted p corr).counter c := by
  have hmod (g : PlmPort → PlmPort) (u : State) : (u.modPort p g).counter c = u.counter c := rfl
  unfold State.flitTaken
  rw [hmod, (flitLink_sent p (s.flitCounted p corr) f hn).counter c hc]

theorem reads_kept (f : Flit) {t : State} (h : t = { s with cnt := t.cnt, plm := { s.plm with ports := t.plm.ports } }) :
    t.route f.dest = s.route f.dest ∧ t.fnState f.tenant = s.fnState f.tenant
      ∧ t.expects p f.tenant f.ctag = s.expects p f.tenant f.ctag := by
  rw [h]
  exact ⟨rfl, rfl, rfl⟩

theorem flitAccept_chunk (f : Flit) (tb : Bool) (h1 : f.typ = 1) (hr : s.route f.dest = none) :
    flitAccept p f tb s = chunkFlit p f s := by
  unfold flitAccept
  rw [h1, hr]
  rfl

theorem chunkFlit_first (f : Flit) (h1 : f.typ = 1) (hs : s.fnState f.tenant ≠ fnScrub) (he : s.expects p f.tenant f.ctag = true)
    (hi : ∀ c ∈ (s.port p).ins, ¬ (c.tenant = f.tenant ∧ c.ctag = f.ctag ∧ c.chunk = f.chunk)) :
    ((chunkFlit p f s).port p).ins = (s.port p).ins ++ [⟨f.tenant, f.ctag, f.chunk, f.payload, []⟩] := by
  have hany : ((s.port p).ins.any fun c => c.tenant == f.tenant && c.ctag == f.ctag && c.chunk == f.chunk) = false := by
    rw [List.any_eq_false]
    intro c hc h
    simp only [Bool.and_eq_true, beq_iff_eq] at h
    exact hi c hc ⟨h.1.1, h.1.2, h.2⟩
  unfold chunkFlit
  rw [if_neg hs, if_neg (by simp [he]), if_neg (by simp [h1])]
  dsimp only
  rw [port_modPort]
  dsimp only
  rw [hany, if_neg (by decide), if_pos h1]
  rfl

theorem chunkFlit_foreign (f : Flit) (hs : s.fnState f.tenant ≠ fnScrub) (he : s.expects p f.tenant f.ctag = false) :
    ((chunkFlit p f s).port p).ins = (s.port p).ins
      ∧ (chunkFlit p f s).counter (cntKey Pg.plm0 7) = (s.counter (cntKey Pg.plm0 7) + 1) % 2 ^ 64
      ∧ bitOf ((chunkFlit p f s).reg (Pg.plm0 + Hdr.errStat)).toNat E.plm0_TENANT_MISMATCH = true := by
  unfold chunkFlit
  rw [if_neg hs, if_pos (by simp [he])]
  refine ⟨?_, ?_, ?_⟩
  · unfold State.port
    rw [logPartner_plm, errEvent_plm]
    rfl
  · rw [logPartner_counter _ _ _ _ _ _ (by decide) (by decide), errEvent_counter, State.counter_count_same]
  · rw [logPartner_reg _ _ _ _ _ _ (by decide)]
    exact errEvent_sets _ _ _ (by decide)

/-- The flit expected next (R379, R380, R393). -/
theorem flitReceive_next (f : Flit) (corr : Nat) (tb : Bool) (hu : s.portUp p = true) (h1 : 1 ≤ f.typ) (h3 : f.typ ≤ 3)
    (hn : f.nak = false) (hq : f.seq = (s.port p).expect) (hf : ((s.port p).fwd.filter (fun q => q.1 == f.vc)).length < 64) :
    let t := flitReceive p f true true corr tb s
    (t.port p).nakOut = false ∧ (t.port p).expect = ((s.port p).expect + 1) % 4096
      ∧ t.counter (cntKey (Pg.plmPort p) 1) = (s.counter (cntKey (Pg.plmPort p) 1) + 1) % 2 ^ 64
      ∧ t.counter (cntKey (Pg.plmPort p) 4) = (s.counter (cntKey (Pg.plmPort p) 4) + corr) % 2 ^ 64
      ∧ (f.typ = 1 → s.route f.dest = none → s.fnState f.tenant ≠ fnScrub →
        (s.expects p f.tenant f.ctag = true →
            (∀ c ∈ (s.port p).ins, ¬ (c.tenant = f.tenant ∧ c.ctag = f.ctag ∧ c.chunk = f.chunk)) →
            (t.port p).ins = (s.port p).ins ++ [⟨f.tenant, f.ctag, f.chunk, f.payload, []⟩])
          ∧ (s.expects p f.tenant f.ctag = false → (t.port p).ins = (s.port p).ins
            ∧ t.counter (cntKey Pg.plm0 7) = (s.counter (cntKey Pg.plm0 7) + 1) % 2 ^ 64
            ∧ bitOf (t.reg (Pg.plm0 + Hdr.errStat)).toNat E.plm0_TENANT_MISMATCH = true)) := by
  obtain ⟨hnak, hexp, hins⟩ := flitTaken_port p s f corr hn
  obtain ⟨hc1, hc4, -⟩ := flitCounted_counter p s corr
  obtain ⟨hroute, hfn, hexpects⟩ := reads_kept p s f (flitTaken_frame p s f corr hn)
  have hk := flitTaken_counter p s f corr hn
  have h7 : (s.flitTaken p f corr).counter (cntKey Pg.plm0 7) = s.counter (cntKey Pg.plm0 7) := by
    rw [hk _ (notSent_plm0 7 (by decide))]
    unfold State.flitCounted
    rw [State.counter_count_ne _ _ _ _ _ (by unfold cntKey Pg.plmPort Pg.plm0; omega),
      State.counter_count_ne _ _ _ _ _ (by unfold cntKey Pg.plmPort Pg.plm0; omega)]
  have ha := SeqKept.flitAccept p (s.flitTaken p f corr) f tb
  intro t
  have ht : t = flitAccept p f tb (s.flitTaken p f corr) := flitReceive_taken p s f corr tb hu h1 h3 hq hf
  clear_value t
  subst ht
  refine ⟨ha.nak.trans hnak, ha.expect.trans hexp, ?_, ?_, fun ht hr hs => ?_⟩
  · rw [ha.counter 1 (by decide) (by decide), hk _ (notSent_port p 1 (by decide) (by decide)), hc1]
  · rw [ha.counter 4 (by decide) (by decide), hk _ (notSent_port p 4 (by decide) (by decide)), hc4]
  · rw [flitAccept_chunk p _ f tb ht (hroute.trans hr)]
    refine ⟨fun he hi => ?_, fun he => ?_⟩
    · rw [chunkFlit_first p _ f ht (by rw [hfn]; exact hs) (hexpects.trans he) (by rw [hins]; exact hi), hins]
    · obtain ⟨h1, h2, h3⟩ := chunkFlit_foreign p (s.flitTaken p f corr) f (by rw [hfn]; exact hs) (hexpects.trans he)
      exact ⟨h1.trans hins, by rw [h2, h7], h3⟩

end
end Sys2Proof.Machine
end

section
/-! PROOFS. Replays, failed lanes and the end of training (R376, R377, R379, R381, R382). -/

namespace Sys2Proof.Machine

section
variable (p : Fin 6) (s : State)

/-! ### Replays (R379, R381) -/

theorem statusReg_ne (o : Nat) (h : o < 0x100) : R.PLM_PORT_STATUS p ≠ Pg.plmPort p + o := by
  unfold R.PLM_PORT_STATUS
  omega

theorem portState_set (v : Nat) (hv : v < 8) : (setPortState p v s).portState p = v := by
  unfold setPortState State.portState
  rw [State.fld_setFld_same _ _ _ _ (by decide)]
  exact Nat.mod_eq_of_lt hv

/-- Replays of port `p` in the last millisecond, and retrainings in the last second. -/
def State.recentReplays (s : State) (p : Nat) : List Nat := (s.port p).replays.filter (fun t => decide (s.dtime < t + msTicks))
def State.recentRetrains (s : State) (p : Nat) : List Nat :=
  (s.port p).retrains.filter (fun t => decide (s.dtime < t + 1000 * msTicks))

/-- A port that retrains within its bound trains again. -/
theorem retrain_trains (h : (s.recentRetrains p).length < s.fld (R.PLM_RETRY_CFG p) F.PLM_RETRY_CFG_RETRAIN_MAX) :
    (retrain p s).portState p = Port.training ∧ ((retrain p s).port p).badLanes = (s.port p).badLanes
      ∧ (retrain p s).counter (cntKey (Pg.plmPort p) 6) = (s.counter (cntKey (Pg.plmPort p) 6) + 1) % 2 ^ 64
      ∧ (retrain p s).counter (cntKey (Pg.plmPort p) 3) = s.counter (cntKey (Pg.plmPort p) 3)
      ∧ bitOf ((retrain p s).reg (Pg.plmPort p + Hdr.errStat)).toNat E.plmPort_RETRAIN = true := by
  have hport (f : PlmPort → PlmPort) : (errEvent (Pg.plmPort p) E.plmPort_RETRAIN ((s.count (Pg.plmPort p) 6 1).modPort p f)).port p
      = f (s.port p) := by
    rw [State.port, errEvent_plm]
    exact port_modPort p f _
  have heq : retrain p s = setPortState p Port.training (errEvent (Pg.plmPort p) E.plmPort_RETRAIN
      ((s.count (Pg.plmPort p) 6 1).modPort p (fun x => { x with
        nakOut := false, retrains := x.retrains.filter (fun t => decide (s.dtime < t + 1000 * msTicks)) ++ [s.dtime] }))) := by
    have hmany : decide (s.fld (R.PLM_RETRY_CFG p) F.PLM_RETRY_CFG_RETRAIN_MAX < (s.recentRetrains p ++ [s.dtime]).length) = false := by
      rw [List.length_append]
      exact decide_eq_false (by simp only [List.length_singleton]; omega)
    unfold State.recentRetrains at hmany
    unfold retrain
    dsimp only
    rw [hport, hmany]
    rfl
  have hcnt (v : Nat) (t : State) (c : Nat) : (setPortState p v t).counter c = t.counter c := rfl
  have hmod (f : PlmPort → PlmPort) (t : State) (c : Nat) : (t.modPort p f).counter c = t.counter c := rfl
  have hset (v : Nat) (t : State) : (setPortState p v t).port p = t.port p := rfl
  rw [heq]
  refine ⟨portState_set p _ _ (by decide), ?_, ?_, ?_, ?_⟩
  · rw [hset, hport]
  · rw [hcnt, errEvent_counter, hmod, State.counter_count_same]
  · rw [hcnt, errEvent_counter, hmod, State.counter_count_ne _ _ _ _ _ (portKey_ne p 3 6 (by decide))]
  · unfold setPortState
    rw [State.reg_setFld_ne _ _ _ _ _ (statusReg_ne p _ (by decide)).symm]
    exact errEvent_sets _ _ _ (by decide)

/-- The state in which a replay is counted. -/
def State.replayed (s : State) (p : Nat) : State :=
  (s.count (Pg.plmPort p) 3 1).modPort p (fun x => { x with
    replays := x.replays.filter (fun t => decide (s.dtime < t + msTicks)) ++ [s.dtime] })

theorem replayed_port : (s.replayed p).port p = { s.port p with replays := s.recentReplays p ++ [s.dtime] } :=
  port_modPort p (fun x => { x with replays := x.replays.filter (fun t => decide (s.dtime < t + msTicks)) ++ [s.dtime] })
    (s.count (Pg.plmPort p) 3 1)

theorem replayTimeout_up (hu : s.portUp p = true) (hn : (s.port p).unacked ≠ 0) : replayTimeout p s =
    if s.fld (R.PLM_RETRY_CFG p) F.PLM_RETRY_CFG_RETRY_THR < (s.recentReplays p).length + 1 then
      retrain p (logPartner (Pg.plmPort p) E.plmPort_RETRAIN LogKind.ploem p ((s.replayed p).modPort p (fun x => { x with replays := [] })))
    else s.replayed p := by
  have hlen : ((s.replayed p).port p).replays.length = (s.recentReplays p).length + 1 := by
    rw [replayed_port]
    exact List.length_append
  unfold replayTimeout replay
  rw [if_pos ⟨hu, hn⟩, ← hlen]
  rfl

theorem replayTimeout_none (hn : (s.port p).unacked = 0) : replayTimeout p s = s := by
  unfold replayTimeout
  exact if_neg fun h => h.2 hn

/-- Too many replays have the port train again. -/
theorem replayTimeout_retrains (hu : s.portUp p = true) (hn : (s.port p).unacked ≠ 0)
    (hr : s.fld (R.PLM_RETRY_CFG p) F.PLM_RETRY_CFG_RETRY_THR ≤ (s.recentReplays p).length)
    (hm : (s.recentRetrains p).length < s.fld (R.PLM_RETRY_CFG p) F.PLM_RETRY_CFG_RETRAIN_MAX) :
    (replayTimeout p s).portState p = Port.training
      ∧ (replayTimeout p s).counter (cntKey (Pg.plmPort p) 3) = (s.counter (cntKey (Pg.plmPort p) 3) + 1) % 2 ^ 64
      ∧ (replayTimeout p s).counter (cntKey (Pg.plmPort p) 6) = (s.counter (cntKey (Pg.plmPort p) 6) + 1) % 2 ^ 64
      ∧ bitOf ((replayTimeout p s).reg (Pg.plmPort p + Hdr.errStat)).toNat E.plmPort_RETRAIN = true
      ∧ ((replayTimeout p s).port p).badLanes = (s.port p).badLanes := by
  rw [replayTimeout_up p s hu hn, if_pos (by omega)]
  have hmod (f : PlmPort → PlmPort) (t : State) (c : Nat) : (t.modPort p f).counter c = t.counter c := rfl
  have hp := p.isLt
  have hport : (logPartner (Pg.plmPort p) E.plmPort_RETRAIN LogKind.ploem p
      ((s.replayed p).modPort p (fun x => { x with replays := [] }))).port p = { s.port p with replays := [] } := by
    rw [State.port, logPartner_plm, ← State.port, port_modPort, replayed_port]
  have hdt : (logPartner (Pg.plmPort p) E.plmPort_RETRAIN LogKind.ploem p
      ((s.replayed p).modPort p (fun x => { x with replays := [] }))).dtime = s.dtime := by
    rw [(logPartner_frame _ _ _ _ _).dtime]
    rfl
  have hcnt (i : Nat) (h : i < 8) : (logPartner (Pg.plmPort p) E.plmPort_RETRAIN LogKind.ploem p
      ((s.replayed p).modPort p (fun x => { x with replays := [] }))).counter (cntKey (Pg.plmPort p) i)
        = (s.count (Pg.plmPort p) 3 1).counter (cntKey (Pg.plmPort p) i) := by
    rw [logPartner_counter _ _ _ _ _ _ (by unfold cntKey Pg.plmPort Pg.rel2; omega) (by unfold cntKey Pg.plmPort Pg.rel3; omega)]
    rfl
  have hcfg : (logPartner (Pg.plmPort p) E.plmPort_RETRAIN LogKind.ploem p
      ((s.replayed p).modPort p (fun x => { x with replays := [] }))).fld (R.PLM_RETRY_CFG p) F.PLM_RETRY_CFG_RETRAIN_MAX
        = s.fld (R.PLM_RETRY_CFG p) F.PLM_RETRY_CFG_RETRAIN_MAX := by
    rw [State.fld, logPartner_reg _ _ _ _ _ _ (by unfold R.PLM_RETRY_CFG Pg.plmPort Pg.rel2; omega)]
    rfl
  generalize logPartner (Pg.plmPort p) E.plmPort_RETRAIN LogKind.ploem p
    ((s.replayed p).modPort p (fun x => { x with replays := [] })) = u at *
  have hrec : u.recentRetrains p = s.recentRetrains p := by
    unfold State.recentRetrains
    rw [hport, hdt]
  obtain ⟨h1, h2, h3, h4, h5⟩ := retrain_trains p u (by rw [hrec, hcfg]; exact hm)
  refine ⟨h1, ?_, ?_, h5, ?_⟩
  · rw [h4, hcnt 3 (by decide), State.counter_count_same]
  · rw [h3, hcnt 6 (by decide), State.counter_count_ne _ _ _ _ _ (portKey_ne p 6 3 (by decide))]
  · rw [h2, hport]

/-! ### Failed ports and lanes (R377, R415) -/

theorem failPort_fails : (failPort p s).portState p = Port.failed
    ∧ bitOf ((failPort p s).reg (Pg.plmPort p + Hdr.errStat)).toNat E.plmPort_FAILED = true
    ∧ bitOf ((failPort p s).reg R.REL_SVC).toNat 4 = true := by
  have hp := p.isLt
  have hreg (a : Nat) (h : Pg.plmPort 0 ≤ a) (u : State) : (svcEvent 4 u).reg a = u.reg a :=
    svcEvent_reg 4 u a (by unfold Pg.plmPort Pg.rel0 at *; omega) (by unfold Pg.plmPort Pg.rel2 at *; omega)
  unfold failPort
  refine ⟨?_, ?_, svcEvent_sets 4 _ (by decide)⟩
  · rw [State.portState, State.fld, hreg _ (by unfold R.PLM_PORT_STATUS Pg.plmPort; omega), errEvent_reg_ne _ _ _ _
      (statusReg_ne p _ (by decide)) (statusReg_ne p _ (by decide)), ← State.fld, ← State.portState]
    exact portState_set p s _ (by decide)
  · rw [hreg _ (by unfold Pg.plmPort; omega)]
    exact errEvent_sets _ _ _ (by decide)

section
variable (l : Fin 2) (hd : s.domOn (21 + p) = true)
include hd

theorem laneFail_active (ha : s.portState p = Port.active) (hb : (s.port p).badLanes = 0) : laneFail p l s
    = setPortState p (if s.recs.reserve then Port.training else Port.drained) (s.setPort p { s.port p with badLanes := 2 ^ l.val }) := by
  have hbits : putBits (s.port p).badLanes l l 1 = 2 ^ l.val := by
    rw [hb]
    have h : ∀ l : Fin 2, putBits 0 l l 1 = 2 ^ l.val := by decide
    exact h l
  have hbad : ((s.setPort p { s.port p with badLanes := 2 ^ l.val }).port p).badLanes = 2 ^ l.val :=
    congrArg PlmPort.badLanes (port_modPort p (fun x => { x with badLanes := 2 ^ l.val }) s)
  have h3 : 2 ^ l.val ≠ 3 := by
    have h : ∀ l : Fin 2, 2 ^ l.val ≠ 3 := by decide
    exact h l
  have h0 : bitOf 0 l.val = false := by unfold bitOf; simp
  unfold laneFail
  dsimp only
  rw [if_neg (by simp [hd, ha, hb, h0, Port.active, Port.down, Port.failed]), if_neg (by simp [ha, Port.active, Port.degraded]), hbits,
    hbad, if_neg (by simp [ha, h3, Port.active, Port.degraded]), if_neg (by simp [ha, Port.active, Port.training])]

theorem laneFail_last (hg : s.portState p = Port.degraded) (hb : bitOf (s.port p).badLanes l = false)
    (hl : s.fld (R.PLM_PORT_STATUS p) F.PLM_PORT_STATUS_LANE = l.val) :
    laneFail p l s = failPort p (s.setPort p { s.port p with badLanes := putBits (s.port p).badLanes l l 1 }) := by
  unfold laneFail
  dsimp only
  rw [if_neg (by simp [hd, hg, hb, Port.degraded, Port.down, Port.failed]), if_neg (by simp [hl]), if_pos (Or.inr hg)]

omit hd in
theorem laneFail_other (hg : s.portState p = Port.degraded) (hl : s.fld (R.PLM_PORT_STATUS p) F.PLM_PORT_STATUS_LANE ≠ l.val) :
    laneFail p l s = s := by
  unfold laneFail
  dsimp only
  rw [if_pos (c := s.portState p = Port.degraded ∧ _) ⟨hg, hl⟩, ite_self]

omit hd in
theorem laneFail_idle (h : s.portState p = Port.down ∨ s.portState p = Port.failed) : laneFail p l s = s := by
  unfold laneFail
  dsimp only
  refine if_pos (Or.inr ?_)
  rcases h with h | h
  · exact Or.inl h
  · exact Or.inr (Or.inl h)

end
end
end Sys2Proof.Machine
end

section
/-! PROOFS. The end of a port's training (R376, R377, R382). -/

namespace Sys2Proof.Machine

section
variable (p : Fin 6) (s : State)

/-- A port with full credits and no replays, once its training has ended. -/
def State.portTrained (s : State) (p : Nat) : State :=
  s.setPort p { s.port p with cred := [(0, vcBuffers), (1, vcBuffers), (2, vcBuffers), (3, vcBuffers)], replays := [] }

/-- The port that runs on lane `l` alone, and what reports it. -/
def oneLaneLeft (p l : Nat) (s : State) : State :=
  let t := errEvent (Pg.plmPort p) E.plmPort_DEGRADED (((setPortState p Port.degraded s).setFld (R.PLM_PORT_STATUS p)
    F.PLM_PORT_STATUS_LANE l).modPort p (fun y => { y with badLanes := 2 - l }))
  if s.recs.reserve then relSpare LogKind.ploem p (1 - l) ((1 - l) + l * 2 ^ 32) t else t

/-- The port that carries flits on the lanes that passed. -/
def trainedOn (p : Nat) (l0 l1 : Bool) (s : State) : State :=
  (oneLane l0 l1).elim (pumpAll ((setPortState p Port.active s).setFld (R.PLM_PORT_STATUS p) F.PLM_PORT_STATUS_LANE 0))
    (fun l => pumpAll (oneLaneLeft p l s))

/-- The end of a training on both lanes. -/
theorem trainingDone_both (l0 l1 : Bool) (w : LinkInfo) (hd : s.domOn (21 + p) = true)
    (he : s.flag (R.PLM_PORT_CTRL p) F.PLM_PORT_CTRL_EN = true) (ht : s.portState p = Port.training) (hb : (s.port p).badLanes = 0)
    (ho : s.flag (R.PLM_PORT_CTRL p) F.PLM_PORT_CTRL_ONE_LANE = false) : trainingDone p l0 l1 w s =
      if (!l0 && !l1) = true then failPort p (s.portTrained p)
      else if (!s.partnerOk p w) = true then errEvent (Pg.plmPort p) E.plmPort_TOPO_BAD (failPort p (s.portTrained p))
      else trainedOn p l0 l1 (s.portTrained p) := by
  have h0 (k : Nat) : bitOf 0 k = false := by unfold bitOf; simp
  have hx : (if s.portState p = Port.drained then
      (if (l0 && !(s.portState p == Port.training && bitOf (s.port p).badLanes 0)
        && !(s.flag (R.PLM_PORT_CTRL p) F.PLM_PORT_CTRL_ONE_LANE && s.fld (R.PLM_PORT_CTRL p) F.PLM_PORT_CTRL_LANE == 1)) = true then 0 else 1)
      + (if (l1 && !(s.portState p == Port.training && bitOf (s.port p).badLanes 1)
        && !(s.flag (R.PLM_PORT_CTRL p) F.PLM_PORT_CTRL_ONE_LANE && s.fld (R.PLM_PORT_CTRL p) F.PLM_PORT_CTRL_LANE == 0)) = true then 0 else 2)
      else (s.port p).badLanes) = (s.port p).badLanes := if_neg (by rw [ht]; decide)
  unfold trainingDone
  rw [if_neg (by simp [hd, he, ht])]
  dsimp only
  rw [hx]
  simp only [hb, h0, ho, Bool.and_false, Bool.false_and, Bool.not_false, Bool.and_true]
  unfold trainedOn
  cases oneLane l0 l1
  · unfold State.portTrained
    simp only [Option.elim, hb]
  · unfold State.portTrained oneLaneLeft
    simp only [Option.elim, hb, Bool.false_eq_true, if_false]
    rfl

theorem trainingDone_off (l0 l1 : Bool) (w : LinkInfo) (he : s.flag (R.PLM_PORT_CTRL p) F.PLM_PORT_CTRL_EN = false) :
    trainingDone p l0 l1 w s = s := by
  unfold trainingDone
  exact if_pos (Or.inr (Or.inl (by simp [he])))

theorem errEvent_port (base bit : Nat) (k : Nat) : (errEvent base bit s).port k = s.port k := by
  unfold State.port
  rw [errEvent_plm]

theorem failPort_topo : (errEvent (Pg.plmPort p) E.plmPort_TOPO_BAD (failPort p s)).portState p = Port.failed
    ∧ bitOf ((errEvent (Pg.plmPort p) E.plmPort_TOPO_BAD (failPort p s)).reg (Pg.plmPort p + Hdr.errStat)).toNat E.plmPort_TOPO_BAD
      = true := by
  refine ⟨?_, errEvent_sets _ _ _ (by decide)⟩
  rw [State.portState, errEvent_fld_ne _ _ _ _ _ (statusReg_ne p _ (by decide)) (statusReg_ne p _ (by decide))]
  exact (failPort_fails p s).1

/-- Nothing that waits to be forwarded: no credit is spent. -/
theorem pumpAll_cred (h : ∀ q, q < 6 → (s.port q).fwd = []) (k : Nat) : ((pumpAll s).port k).cred = (s.port k).cred := by
  have hl (l : List Nat) (s : State) (h : ∀ q ∈ l, (s.port q).fwd = []) :
      ((l.foldl (fun t p => pumpFwd p (t.port p).fwd t) s).port k).cred = (s.port k).cred := by
    induction l generalizing s with
    | nil => rfl
    | cons p l ih =>
      have hp : pumpFwd p (s.port p).fwd s = s.modPort p (fun x => { x with fwd := [] }) := by
        rw [h p (List.mem_cons_self ..)]
        rfl
      have hport (j : Nat) : (s.modPort p (fun x => { x with fwd := [] })).port j
          = if j = p then { s.port p with fwd := [] } else s.port j := by
        by_cases e : j = p
        · rw [if_pos e, e, port_modPort]
        · rw [if_neg e, port_modPort_ne _ _ _ _ e]
      rw [List.foldl_cons, hp, ih _ fun q hq => ?_]
      · rw [hport]
        split
        · next e => rw [e]
        · rfl
      · rw [hport]
        split
        · rfl
        · exact h q (List.mem_cons_of_mem _ hq)
  exact hl _ s fun q hq => h q (List.mem_range.mp hq)

theorem trainedOn_none (l0 l1 : Bool) (h : oneLane l0 l1 = none) : trainedOn p l0 l1 s
    = pumpAll ((setPortState p Port.active s).setFld (R.PLM_PORT_STATUS p) F.PLM_PORT_STATUS_LANE 0) := by
  unfold trainedOn
  rw [h, Option.elim_none]

theorem trainedOn_some (l0 l1 : Bool) (l : Nat) (h : oneLane l0 l1 = some l) :
    trainedOn p l0 l1 s = pumpAll (oneLaneLeft p l s) := by
  unfold trainedOn
  rw [h, Option.elim_some]

theorem trained_active : (trainedOn p true true s).portState p = Port.active
    ∧ ((∀ q, q < 6 → (s.port q).fwd = []) → ((trainedOn p true true s).port p).cred = (s.port p).cred) := by
  rw [trainedOn_none p s true true rfl]
  refine ⟨?_, fun hf => ?_⟩
  · have hset := State.fld_setFld_other (setPortState p Port.active s) (R.PLM_PORT_STATUS p) F.PLM_PORT_STATUS_LANE
      F.PLM_PORT_STATUS_STATE 0 (by decide) (by decide)
    exact ((SentOnly.pumpAll _).fld _ _).trans (hset.trans (portState_set p s Port.active (by decide)))
  · have hport (k : Nat) : ((setPortState p Port.active s).setFld (R.PLM_PORT_STATUS p) F.PLM_PORT_STATUS_LANE 0).port k = s.port k := rfl
    rw [pumpAll_cred _ (fun q hq => by rw [hport, hf q hq]) p, hport]

theorem oneLaneLeft_reg (l a : Nat) (h : Pg.plmPort 0 ≤ a) : (oneLaneLeft p l s).reg a
    = (errEvent (Pg.plmPort p) E.plmPort_DEGRADED (((setPortState p Port.degraded s).setFld (R.PLM_PORT_STATUS p)
        F.PLM_PORT_STATUS_LANE l).modPort p (fun y => { y with badLanes := 2 - l }))).reg a := by
  unfold oneLaneLeft
  generalize errEvent (Pg.plmPort p) E.plmPort_DEGRADED (((setPortState p Port.degraded s).setFld (R.PLM_PORT_STATUS p)
    F.PLM_PORT_STATUS_LANE l).modPort p (fun y => { y with badLanes := 2 - l })) = u
  dsimp only
  split
  · exact relSpare_reg _ _ _ _ _ _ (by unfold Pg.plmPort Pg.rel0 at *; omega) (by unfold Pg.plmPort Pg.rel2 at *; omega)
  · rfl

theorem trained_one (l : Fin 2) : (trainedOn p (l.val == 0) (l.val == 1) s).portState p = Port.degraded
    ∧ (trainedOn p (l.val == 0) (l.val == 1) s).fld (R.PLM_PORT_STATUS p) F.PLM_PORT_STATUS_LANE = l.val
    ∧ bitOf ((trainedOn p (l.val == 0) (l.val == 1) s).reg (Pg.plmPort p + Hdr.errStat)).toNat E.plmPort_DEGRADED = true := by
  have hp := p.isLt
  have ho : trainedOn p (l.val == 0) (l.val == 1) s = pumpAll (oneLaneLeft p l s) := by
    have h : ∀ l : Fin 2, oneLane (l.val == 0) (l.val == 1) = some l.val := by decide
    exact trainedOn_some p s _ _ l (h l)
  have hreg (a : Nat) (h : Pg.plmPort 0 ≤ a) : (trainedOn p (l.val == 0) (l.val == 1) s).reg a
      = (errEvent (Pg.plmPort p) E.plmPort_DEGRADED (((setPortState p Port.degraded s).setFld (R.PLM_PORT_STATUS p)
          F.PLM_PORT_STATUS_LANE l).modPort p (fun y => { y with badLanes := 2 - l }))).reg a := by
    rw [ho]
    refine ((SentOnly.pumpAll (oneLaneLeft p l s)).reg a).trans ?_
    exact oneLaneLeft_reg p s l a h
  have hmod (f : PlmPort → PlmPort) (t : State) (a : Nat) (g : Fld) : (t.modPort p f).fld a g = t.fld a g := rfl
  have hst (g : Fld) : (trainedOn p (l.val == 0) (l.val == 1) s).fld (R.PLM_PORT_STATUS p) g
      = ((setPortState p Port.degraded s).setFld (R.PLM_PORT_STATUS p) F.PLM_PORT_STATUS_LANE l).fld (R.PLM_PORT_STATUS p) g := by
    rw [State.fld, hreg _ (by unfold R.PLM_PORT_STATUS Pg.plmPort; omega), ← State.fld,
      errEvent_fld_ne _ _ _ _ _ (statusReg_ne p _ (by decide)) (statusReg_ne p _ (by decide)), hmod]
  refine ⟨?_, ?_, ?_⟩
  · rw [State.portState, hst, State.fld_setFld_other _ _ _ _ _ (by decide) (by decide)]
    exact portState_set p s _ (by decide)
  · rw [hst, State.fld_setFld_same _ _ _ _ (by decide)]
    exact Nat.mod_eq_of_lt l.isLt
  · rw [hreg _ (by unfold Pg.plmPort; omega)]
    exact errEvent_sets _ _ _ (by decide)

theorem portTrained_cred (v : Nat) (hv : v < 4) : Tab.get ((s.portTrained p).port p).cred 0 v = 64 := by
  have hport : (s.portTrained p).port p
      = { s.port p with cred := [(0, vcBuffers), (1, vcBuffers), (2, vcBuffers), (3, vcBuffers)], replays := [] } :=
    port_modPort p (fun x => { x with cred := [(0, vcBuffers), (1, vcBuffers), (2, vcBuffers), (3, vcBuffers)], replays := [] }) s
  rw [hport]
  have h : ∀ v : Fin 4, Tab.get [(0, vcBuffers), (1, vcBuffers), (2, vcBuffers), (3, vcBuffers)] 0 v.val = 64 := by decide
  exact h ⟨v, hv⟩

theorem portTrained_fwd (q : Nat) : ((s.portTrained p).port q).fwd = (s.port q).fwd := by
  by_cases h : q = p
  · have hp := port_modPort p
      (fun x => { x with cred := [(0, vcBuffers), (1, vcBuffers), (2, vcBuffers), (3, vcBuffers)], replays := [] }) s
    have hf := congrArg PlmPort.fwd hp
    rw [h]
    exact hf
  · have hp := port_modPort_ne p q
      (fun x => { x with cred := [(0, vcBuffers), (1, vcBuffers), (2, vcBuffers), (3, vcBuffers)], replays := [] }) s h
    exact congrArg PlmPort.fwd hp

end

/-- Settles O44: a flit's checks and sequence number decide its answer, sending changes neither, and replays, lanes and
training move the port's state as their functions' cases say. -/
theorem ploemPortsReplayRetrainAndDegrade : Obligations.PloemPortsReplayRetrainAndDegrade := by
  unfold Obligations.PloemPortsReplayRetrainAndDegrade
  intro s p
  refine ⟨fun f corr tb hu => ⟨?_, ?_, fun h1 h3 hn => ⟨fun hq => ?_, fun hq hf => ?_⟩⟩, fun hu hn => ⟨fun hr => ?_, fun hr hm => ?_⟩,
    fun hn => ?_, fun l hd => ⟨fun ha hb => ?_, fun hg hb => ⟨fun hl => ?_, fun hl => ?_⟩, fun h => ?_⟩,
    fun l0 l1 w hd => ⟨fun he ht hb ho => ?_, fun he => ?_⟩⟩
  · exact ⟨_, congrArg Host.Outcome.next (flitReceive_up p s f true false corr tb hu),
      flitRefused p s 5 E.plmPort_FEC_UNCORR corr (by decide) (by decide)⟩
  · exact ⟨_, congrArg Host.Outcome.next (flitReceive_up p s f false true corr tb hu),
      flitRefused p s 2 E.plmPort_CRC corr (by decide) (by decide)⟩
  · exact ⟨_, rfl, flitReceive_skipped p s f corr tb hu h1 h3 hn hq⟩
  · exact ⟨_, rfl, flitReceive_next p s f corr tb hu h1 h3 hn hq hf⟩
  · have h : replayTimeout p s = s.replayed p := (replayTimeout_up p s hu hn).trans (if_neg (Nat.not_lt.mpr hr))
    exact congrArg Host.Outcome.next h
  · exact ⟨_, rfl, replayTimeout_retrains p s hu hn hr hm⟩
  · exact congrArg Host.Outcome.next (replayTimeout_none p s hn)
  · exact congrArg Host.Outcome.next (laneFail_active p s l hd ha hb)
  · obtain ⟨h1, h2, h3⟩ := failPort_fails p (s.setPort p { s.port p with badLanes := putBits (s.port p).badLanes l l 1 })
    exact ⟨_, congrArg Host.Outcome.next (laneFail_last p s l hd hg hb hl), h1, h2, h3⟩
  · exact congrArg Host.Outcome.next (laneFail_other p s l hg hl)
  · exact congrArg Host.Outcome.next (laneFail_idle p s l h)
  · have heq := trainingDone_both p s l0 l1 w hd he ht hb ho
    refine ⟨_, rfl, fun h0 h1 => ?_, fun hl hw => ?_, fun h0 h1 hw => ?_, fun l h0 h1 hw => ?_⟩
    · rw [if_pos (by simp [h0, h1])] at heq
      rw [heq]
      obtain ⟨h2, h3, -⟩ := failPort_fails p (s.portTrained p)
      exact ⟨h2, h3⟩
    · rw [if_neg (by rcases hl with h | h <;> simp [h]), if_pos (by simp [hw])] at heq
      rw [heq]
      exact failPort_topo p _
    · rw [if_neg (by simp [h0]), if_neg (by simp [hw]), h0, h1] at heq
      obtain ⟨h2, h3⟩ := trained_active p (s.portTrained p)
      rw [h0, h1, heq]
      refine ⟨h2, fun hf v hv => ?_⟩
      rw [h3 fun q hq => (portTrained_fwd p s q).trans (hf q hq)]
      exact portTrained_cred p s v hv
    · have hne : ∀ l : Fin 2, (!(l.val == 0) && !(l.val == 1)) = false := by decide
      rw [h0, h1, if_neg (by simp [hne l]), if_neg (by simp [hw])] at heq
      rw [h0, h1, heq]
      exact trained_one p _ l
  · exact congrArg Host.Outcome.next (trainingDone_off p s l0 l1 w he)

end Sys2Proof.Machine
end

section
/-! PROOFS. Collectives: their posts, their start and what bounds their wait (R385 to R387, R392, R394). -/

namespace Sys2Proof.Machine

/-! ### A post (R386) -/

/-- The state with a collective posted to the engine. -/
def collPosted (q : CollPost) (s : State) : State := collStatus { s with plm := { s.plm with queue := s.plm.queue ++ [q] } }

theorem collStatus_frame (s : State) : collStatus s = { s with regs := (collStatus s).regs } := rfl

theorem collStatus_reg (s : State) (a : Nat) (h : a ≠ R.PLM_COLL_STATUS) : (collStatus s).reg a = s.reg a := by
  unfold collStatus
  rw [State.reg_setFld_ne _ _ _ _ _ h, State.reg_setFld_ne _ _ _ _ _ h]

theorem collStatus_queued (s : State) :
    (collStatus s).fld R.PLM_COLL_STATUS F.PLM_COLL_STATUS_QUEUED = s.plm.queue.length % 128 := by
  unfold collStatus
  rw [State.fld_setFld_other _ _ _ _ _ (by decide) (by decide), State.fld_setFld_same _ _ _ _ (by decide)]
  rfl

section
variable (s : State) (n : Fin 18) {x : Nat} (h : s.AtInstr n x 1)
include h

/-- An ISSUE of a collective of one kind, for a core of its own (R386). -/
theorem issueColl_at (k : Nat) (hslot : bitsOf (s.slot n (s.pc n)).toNat 13 0 + 7 ≤ 16383)
    (hop : Op.opcode (s.descAt n (bitsOf (s.slot n (s.pc n)).toNat 13 0)) = 9)
    (hkind : Coll.kind (s.descAt n (bitsOf (s.slot n (s.pc n)).toNat 13 0)) = k)
    (hgang : Op.gangLog2 (s.descAt n (bitsOf (s.slot n (s.pc n)).toNat 13 0)) = 0) :
    issueColl n k s = if s.plm.queue.length ≥ 64 then seqIllegal n x s
      else settleCore n (seqNext n x (s.pc n)
        (collPosted ⟨n, x, s.descAt n (bitsOf (s.slot n (s.pc n)).toNat 13 0), [n.val], 0⟩ s)) := by
  have hsel : (Op.opcode (s.descAt n (bitsOf (s.slot n (s.pc n)).toNat 13 0)) == OpCode.collective
      && (if k = 0 then decide (Coll.kind (s.descAt n (bitsOf (s.slot n (s.pc n)).toNat 13 0)) = 0
          ∨ 4 ≤ Coll.kind (s.descAt n (bitsOf (s.slot n (s.pc n)).toNat 13 0)))
        else Coll.kind (s.descAt n (bitsOf (s.slot n (s.pc n)).toNat 13 0)) == k)) = true := by
    rw [hop, hkind]
    by_cases h0 : k = 0
    · simp [h0, OpCode.collective]
    · simp [h0, OpCode.collective]
  have hpos : (([n.val].findIdx? (· == n.val)).getD 0) = 0 := by simp
  rw [issueColl, issueInstr, seqInstr_at h _ (by decide) (by decide)]
  dsimp only
  rw [if_neg (by omega), if_neg (by omega), if_neg (by omega), if_pos hsel, hgang, if_pos rfl, hpos]
  rfl

/-- A post with room in the engine's queue. -/
theorem collPosted_goes (k : Nat) (q : List LoopFrame × Nat) (hq : loopStep (s.core n).loops (s.pc n) = q)
    (hq2 : q.2 ≤ 16383) (hslot : bitsOf (s.slot n (s.pc n)).toNat 13 0 + 7 ≤ 16383)
    (hop : Op.opcode (s.descAt n (bitsOf (s.slot n (s.pc n)).toNat 13 0)) = 9)
    (hkind : Coll.kind (s.descAt n (bitsOf (s.slot n (s.pc n)).toNat 13 0)) = k)
    (hgang : Op.gangLog2 (s.descAt n (bitsOf (s.slot n (s.pc n)).toNat 13 0)) = 0) (hroom : s.plm.queue.length < 64) :
    (issueColl n k s).plm = { s.plm with queue := s.plm.queue
        ++ [⟨n, x, s.descAt n (bitsOf (s.slot n (s.pc n)).toNat 13 0), [n.val], 0⟩] }
      ∧ SeqAt n q.2 Seq.running [R.PLM_COLL_STATUS] { s with plm := (issueColl n k s).plm } (issueColl n k s)
      ∧ (issueColl n k s).fld R.PLM_COLL_STATUS F.PLM_COLL_STATUS_QUEUED = s.plm.queue.length + 1 := by
  have hn := n.isLt
  rw [issueColl_at s n h k hslot hop hkind hgang, if_neg (by omega)]
  generalize s.descAt n (bitsOf (s.slot n (s.pc n)).toNat 13 0) = d
  have hd : (collPosted ⟨n, x, d, [n.val], 0⟩ s).flag (R.SEQ_CTRL n) F.SEQ_CTRL_DRAIN_REQ = false := by
    rw [State.flag, State.fld, collPosted, collStatus_reg _ _ (by unfold R.SEQ_CTRL Pg.seq R.PLM_COLL_STATUS Pg.plm0; omega)]
    exact h.noDrain
  have hat := (settleCore_seqNext n (collPosted ⟨n, x, d, [n.val], 0⟩ s) x (s.pc n) q hq hq2 hd).1
  have hplm : (settleCore n (seqNext n x (s.pc n) (collPosted ⟨n, x, d, [n.val], 0⟩ s))).plm
      = { s.plm with queue := s.plm.queue ++ [⟨n, x, d, [n.val], 0⟩] } := by rw [hat.frame]; rfl
  have hcs : SeqAt n (s.pc n) (s.seqState n) [R.PLM_COLL_STATUS]
      { s with plm := { s.plm with queue := s.plm.queue ++ [⟨n, x, d, [n.val], 0⟩] } } (collPosted ⟨n, x, d, [n.val], 0⟩ s) := by
    refine ⟨?_, ?_, rfl, rfl, fun _ _ => rfl, fun a _ _ ha => collStatus_reg _ a fun e => ha (by simp [e]), rfl⟩
    · unfold State.pc
      rw [State.fld, collPosted, collStatus_reg _ _ (by unfold R.SEQ_STATUS Pg.seq R.PLM_COLL_STATUS Pg.plm0; omega)]
      rfl
    · unfold State.seqState
      rw [State.fld, collPosted, collStatus_reg _ _ (by unfold R.SEQ_STATUS Pg.seq R.PLM_COLL_STATUS Pg.plm0; omega)]
      rfl
  refine ⟨hplm, ?_, ?_⟩
  · rw [hplm]
    exact hcs.trans hat
  · rw [State.fld, hat.reg_ne (by unfold R.ARR_STATUS Pg.arr0 R.PLM_COLL_STATUS Pg.plm0; omega)
      (by unfold R.SEQ_STATUS Pg.seq R.PLM_COLL_STATUS Pg.plm0; omega) (List.not_mem_nil), ← State.fld, collPosted, collStatus_queued]
    dsimp only
    rw [List.length_append, List.length_singleton]
    omega

end

/-! ### The wait (R392) -/

section
variable (x : Nat) (s : State)

/-- A wait that runs out. -/
def collLate (x : Nat) (cs : List Nat) (tag : Nat) (s : State) : State :=
  ctxFault x cs.head? cs Flt.watchdog 0 tag (errEvent Pg.plm0 E.plm0_COLL_WAIT (s.count Pg.plm0 6 (s.reg R.PLM_COLL_WAIT).toNat))

theorem collTimeout_unbounded (h : (s.reg R.PLM_COLL_WAIT).toNat = 0) : collTimeout x s = s := by
  unfold collTimeout
  dsimp only
  rw [h]
  split <;> rfl

theorem collTimeout_running (r : CollRun) (hl : (s.reg R.PLM_COLL_WAIT).toNat ≠ 0)
    (hr : s.plm.runs.find? (fun r => r.ctx == x) = some r) : collTimeout x s = collLate x r.cores (Op.tag r.desc) s := by
  unfold collTimeout
  dsimp only
  rw [hr]
  cases s.plm.queue.find? (fun (p : CollPost) => p.ctx == x)
  · exact if_neg hl
  · exact if_neg hl

theorem collTimeout_posted (p : CollPost) (hl : (s.reg R.PLM_COLL_WAIT).toNat ≠ 0)
    (hr : s.plm.runs.find? (fun r => r.ctx == x) = none) (hp : s.plm.queue.find? (fun p => p.ctx == x) = some p) :
    collTimeout x s = collLate x p.gang (Op.tag p.desc) s := by
  unfold collTimeout
  dsimp only
  rw [hr, hp]
  exact if_neg hl

theorem collTimeout_none (hr : s.plm.runs.find? (fun r => r.ctx == x) = none)
    (hp : s.plm.queue.find? (fun p => p.ctx == x) = none) : collTimeout x s = s := by
  unfold collTimeout
  dsimp only
  rw [hr, hp]
  rfl

end

/-! ### The start (R386, R387) -/

section
variable (n : Fin 18) (s : State) (p : CollPost) (rest : List CollPost)

/-- The run that a post of a core of its own becomes, before its rows. -/
def soloRun (s : State) (p : CollPost) : CollRun :=
  { posts := [p], ins := [s.rgn p.core (Op.regA p.desc)], tenant := tenantOf p.ctx, rank0 := s.commRank (Coll.comm p.desc) * 1,
    members := s.commSize (Coll.comm p.desc) * 1, rows := [] }

/-- The engine's queue without its first post. -/
def collTaken (rest : List CollPost) (s : State) : State := collStatus { s with plm := { s.plm with queue := rest } }

/-- The workspace filled, and the first chunks sent. -/
def runStarted (r : CollRun) (p : CollPost) (t : State) : State :=
  let rows := r.startRows t
  let t1 := if Coll.sameSize p.desc then t else t.drew (512 * rows.length)
  let poisoned := (rows.filter (fun q => q.1 % 64 == 0
    && anyBelow 64 (fun i => (rows.find? (fun e => e.1 == q.1 + i)).any (fun e => e.2.poison)))).length
  let t2 := (t1.count Pg.plm0 5 poisoned).setRuns (t1.plm.runs ++ [{ r with rows := rows }])
  (t2.commPorts (Coll.comm p.desc)).foldl (fun u q => (sendFlits q (Config.freeNat u.free) u).drew 1) t2

variable (hq : s.plm.queue = p :: rest) (hc : p.core = n.val) (hg : p.gang = [n.val])
  (hb : ∀ r ∈ s.plm.runs, Coll.comm r.desc ≠ Coll.comm p.desc) (hr : s.plm.runs.length < 4)

theorem chk_add_none (k : Chk) : ([k].foldl Chk.add { fields := [] }).faults = k.faults := by
  simp [Chk.add]

theorem bad_false (i : Nat) (b : Bool) (h : b = false) : bad b i = [] := by
  unfold bad
  rw [h]
  rfl

include hq hc hg hb hr in
theorem collStart_solo : collStart n 0 none s =
    if !(Coll.chk s p (s.commSize (Coll.comm p.desc) * 1)).faults.isEmpty then
      ctxFaults p.ctx (some n) [n.val] (Op.tag p.desc) (Coll.chk s p (s.commSize (Coll.comm p.desc) * 1)).faults
        (countChk n (Coll.chk s p (s.commSize (Coll.comm p.desc) * 1)) (collTaken rest s))
    else runStarted (soloRun s p) p (collTaken rest s) := by
  have hfind : s.plm.queue.find? (fun (p : CollPost) => p.core == n.val) = some p := by
    rw [hq, List.find?_cons_of_pos (by simp [hc])]
  have hposts : s.gangPosts [n.val] = some [p] := by
    unfold State.gangPosts
    simp [hfind]
  have hbusy : ((s.plm.runs.any (fun r => Coll.comm r.desc == Coll.comm p.desc)
      || ((p :: rest).takeWhile (fun (q : CollPost) => !([p].contains q))).any (fun q => Coll.comm q.desc == Coll.comm p.desc))) = false := by
    rw [Bool.or_eq_false_iff]
    refine ⟨?_, ?_⟩
    · rw [List.any_eq_false]
      intro r hrm
      simpa using hb r hrm
    · rw [List.takeWhile_cons_of_neg (by simp)]
      rfl
  have herase : [p].foldl (fun l q => l.erase q) (p :: rest) = rest := by simp
  have hdiffer : bad ([p].any (fun q => q.shape != p.shape || q.ctx != p.ctx)) 14 = [] := bad_false _ _ (by simp)
  have hchk := chk_add_none (Coll.chk s p (s.commSize (Coll.comm p.desc) * 1))
  unfold collStart
  rw [hfind]
  dsimp only
  rw [hg, hposts]
  dsimp only
  rw [hq, hbusy, if_neg (by simp only [Bool.false_eq_true, false_or]; omega), hdiffer, herase, List.map_cons, List.map_nil, List.length_singleton, hchk]
  dsimp only [List.foldl]
  rw [hc]
  rfl

end
end Sys2Proof.Machine
end

section
/-! PROOFS. Collectives: their start, their chunks and their end (R386, R387, R389 to R391, R394). -/

namespace Sys2Proof.Machine

/-! ### The workspace at the start (R387) -/

section
variable (r : CollRun) (p : CollPost) (s : State)

/-- What sending the first chunks leaves. -/
def State.engine (s : State) : List CollRun × List CollPost × List Host.Cell × List (Nat × Core) :=
  (s.plm.runs, s.plm.queue, s.spad, s.cores)

theorem SentOnly.engine {s t : State} (h : SentOnly s t) : t.engine = s.engine := by
  unfold State.engine
  rw [h.frame]

theorem firstChunks_engine (l : List Nat) (s : State) :
    (l.foldl (fun u q => (sendFlits q (Config.freeNat u.free) u).drew 1) s).engine = s.engine :=
  foldl_keeps State.engine (fun u q => (sendFlits q (Config.freeNat u.free) u).drew 1) (fun u q => (SentOnly.sendFlits q (Config.freeNat u.free) u).engine) l s

theorem runStarted_engine : (runStarted r p s).engine
    = (s.plm.runs ++ [{ r with rows := r.startRows s }], s.plm.queue, s.spad, s.cores) := by
  unfold runStarted
  rw [firstChunks_engine]
  unfold State.engine
  split <;> rfl

theorem startRows_allReduce (h : Coll.kind r.desc = 0) : (r.startRows s).map (·.1) = List.range (Coll.rows r.desc) := by
  unfold CollRun.startRows
  dsimp only
  rw [h]
  exact (List.map_map ..).trans (List.map_id _)

end

/-- A start that passes its checks (R386, R387). -/
theorem runStarted_outcome (s : State) (p : CollPost) (rest : List CollPost) :
    let r := { soloRun s p with rows := (soloRun s p).startRows (collTaken rest s) }
    (runStarted (soloRun s p) p (collTaken rest s)).plm.runs = s.plm.runs ++ [r]
      ∧ (runStarted (soloRun s p) p (collTaken rest s)).plm.queue = rest
      ∧ (runStarted (soloRun s p) p (collTaken rest s)).spad = s.spad
      ∧ (runStarted (soloRun s p) p (collTaken rest s)).cores = s.cores
      ∧ (Coll.kind p.desc = 0 → r.rows.map (·.1) = List.range (Coll.rows p.desc)) := by
  have h := runStarted_engine (soloRun s p) p (collTaken rest s)
  unfold State.engine at h
  obtain ⟨h1, h2, h3, h4⟩ := Prod.mk.injEq .. ▸ Prod.mk.injEq .. ▸ Prod.mk.injEq .. ▸ h
  exact ⟨h1, h2, h3, h4, fun hk => startRows_allReduce (soloRun s p) (collTaken rest s) hk⟩

/-! ### Failed attempts (R391) -/

/-- A header word, or a word of a queue of the host interface or beyond, of a page other than the log's. -/
def FarWord (a : Nat) : Prop := (a % 4096 < 0x100 ∨ 0x410000 ≤ a ∧ 0x200 ≤ a % 4096) ∧ a / 4096 ≠ Pg.rel2 / 4096

/-- What stopping a context leaves alone, whatever cores it names: words far from the cores', counts outside the log, the
ports and the first fault of each context. -/
structure StopKept (s t : State) : Prop where
  reg : ∀ a, FarWord a → t.reg a = s.reg a
  counter : ∀ k, k / 4096 ≠ Pg.rel2 / 4096 → k / 4096 ≠ Pg.rel3 / 4096 → t.counter k = s.counter k
  ports : t.plm.ports = s.plm.ports
  fault : ∀ y f, (s.ctx y).fault = some f → (t.ctx y).fault = some f

namespace StopKept

theorem trans {s t u : State} (h : StopKept s t) (k : StopKept t u) : StopKept s u where
  reg a ha := (k.reg a ha).trans (h.reg a ha)
  counter c h2 h3 := (k.counter c h2 h3).trans (h.counter c h2 h3)
  ports := k.ports.trans h.ports
  fault y f hf := k.fault y f (h.fault y f hf)

theorem stopCore (x n : Nat) (s : State) : StopKept s (stopCore x n s) where
  reg a ha := by
    have ha := ha.1
    have h1 : a ≠ R.SEQ_STATUS n := fun e => by rw [e] at ha; unfold R.SEQ_STATUS Pg.seq at ha; omega
    have h2 : a ≠ R.ARR_STATUS n := fun e => by rw [e] at ha; unfold R.ARR_STATUS Pg.arr0 at ha; omega
    unfold Machine.stopCore
    dsimp only
    split
    · rw [State.reg_setFld_ne _ _ _ _ _ h1]
      unfold State.arrState State.setSeqState
      rw [State.reg_setFld_ne _ _ _ _ _ h2, State.reg_setFld_ne _ _ _ _ _ h1]
      rfl
    · rfl
  counter k _ _ := by rw [stopCore_frame x n s]; rfl
  ports := by rw [stopCore_frame x n s]
  fault y f hf := by rw [stopCore_frame x n s]; exact hf

theorem stopCores (x : Nat) (l : List Nat) (s : State) : StopKept s (stopCores x l s) := by
  induction l generalizing s with
  | nil => exact ⟨fun _ _ => rfl, fun _ _ _ => rfl, rfl, fun _ _ h => h⟩
  | cons n l ih => exact (stopCore x n s).trans (ih _)

theorem stopChans (x : Nat) (s : State) : StopKept s (stopChans x (List.range 18) s) where
  reg a ha := by
    have h (n k : Nat) (hn : n < 18) (hk : k < 4) (t : State) : (stopChan x n k t).reg a = t.reg a := by
      have hm := ha.1
      have h1 : a ≠ R.SPD_DMA_STATUS n k := fun e => by rw [e] at hm; unfold R.SPD_DMA_STATUS Pg.spd4 at hm; omega
      have h2 : a ≠ R.SPD_DMA_ROWS n k := fun e => by rw [e] at hm; unfold R.SPD_DMA_ROWS Pg.spd4 at hm; omega
      have hst (cause : Nat) (u : State) : (chanStatus n k cause u).reg a = u.reg a := by
        unfold chanStatus
        exact (State.reg_setReg_ne _ _ _ _ h2).trans (State.reg_setReg_ne _ _ _ _ h1)
      unfold stopChan
      dsimp only
      rw [hst]
      split <;> split <;> rfl
    have hl (l : List Nat) (hl : ∀ n ∈ l, n < 18) (t : State) : (Machine.stopChans x l t).reg a = t.reg a := by
      induction l generalizing t with
      | nil => rfl
      | cons n l ih =>
        have hn := hl n List.mem_cons_self
        refine (ih (fun m hm => hl m (List.mem_cons_of_mem _ hm)) _).trans ?_
        rw [h n 3 hn (by decide), h n 2 hn (by decide), h n 1 hn (by decide), h n 0 hn (by decide)]
    exact hl _ (fun n hn => List.mem_range.1 hn) s
  counter k h2 h3 := (FaultKept.stopChans x s).counter k h2 h3
  ports := by
    have hf := stopChans_frame x (List.range 18) s
    generalize Machine.stopChans x (List.range 18) s = t at hf ⊢
    rw [hf]
  fault y f hf := by
    have hc := stopChans_ctxs x (List.range 18) s
    generalize Machine.stopChans x (List.range 18) s = t at hc ⊢
    unfold State.ctx at *
    rw [hc]
    exact hf

theorem dropColl (x : Nat) (s : State) : StopKept s (dropColl x s) where
  reg a ha := dropColl_reg x s a fun e => by
    have hm := ha.1
    rw [e] at hm
    revert hm
    decide
  counter _ _ _ := rfl
  ports := rfl
  fault _ _ h := h

theorem logEntry (e : LogEntry) (s : State) : StopKept s (logEntry e s) where
  reg a ha := logEntry_reg e s a ha.2
  counter k h2 _ := logEntry_counter e s k h2
  ports := by rw [logEntry_frame e s]
  fault y f hf := by
    unfold State.ctx at *
    rw [(logEntry_frame e s).ctxs]
    exact hf

theorem setFault (x : Nat) (g : FaultRec) (s : State) (h : (s.ctx x).fault = none) :
    StopKept s (s.setCtx x { s.ctx x with fault := some g }) where
  reg _ _ := rfl
  counter _ _ _ := rfl
  ports := rfl
  fault y f hf := by
    by_cases e : y = x
    · rw [e, h] at hf
      cases hf
    · unfold State.ctx State.setCtx at *
      rw [Tab.get_set_ne _ _ _ _ _ e]
      exact hf

end StopKept

theorem faultTaken_kept (x : Nat) (g : FaultRec) (stopped : List Nat) (e : LogEntry) (s : State) (h : (s.ctx x).fault = none) :
    StopKept s (faultTaken x g stopped e s) ∧ ((faultTaken x g stopped e s).ctx x).fault = some g := by
  have hset : ((s.setCtx x { s.ctx x with fault := some g }).ctx x).fault = some g := by
    unfold State.ctx State.setCtx
    rw [Tab.get_set_same]
  have hk := (((StopKept.stopCores x stopped (s.setCtx x { s.ctx x with fault := some g })).trans (.stopChans x _)).trans
    (.dropColl x _)).trans (.logEntry e _)
  exact ⟨(StopKept.setFault x g s h).trans hk, hk.fault x g hset⟩

theorem countFault_kept (code : Nat) (s : State) : StopKept s (countFault code s) where
  reg a _ := by unfold countFault; split <;> rfl
  counter := (FaultKept.countFault code s).counter
  ports := by rw [(countFault_logOnly code s)]
  fault y f hf := by
    unfold State.ctx at *
    rw [(countFault_logOnly code s).ctxs]
    exact hf

/-- A fault of context `x`, on whatever core, is its first, or is only counted (R8, R9). -/
theorem ctxFault_kept (x : Nat) (n : Option Nat) (gang : List Nat) (code sub opTag : Nat) (s : State) (hc : code ≠ Flt.checksum) :
    StopKept s (ctxFault x n gang code sub opTag s) ∧ ((s.ctx x).fault = none →
      ((ctxFault x n gang code sub opTag s).ctx x).fault.map (fun f => (f.code, f.sub)) = some (code, sub)) := by
  have hcount := countFault_kept code s
  have hctx : (countFault code s).ctx x = s.ctx x := by
    unfold State.ctx
    rw [(countFault_logOnly code s).ctxs]
  have hfirst (s0 : State) (hf : (s0.ctx x).fault = none) (fcore : Nat) (stopped : List Nat) (e : LogEntry) :=
    faultTaken_kept x ⟨code, sub, fcore, 0, opTag, s0.dtime⟩ stopped e s0 hf
  unfold ctxFault
  dsimp only
  generalize countFault code s = s0 at *
  cases hf : (s0.ctx x).fault with
  | some f =>
    refine ⟨hcount.trans ⟨fun _ _ => rfl, fun c _ h3 => State.counter_addCnt_ne _ _ _ _ fun e => h3 (by rw [e]; decide), rfl,
      fun _ _ h => h⟩, fun hn => ?_⟩
    rw [← hctx, hf] at hn
    cases hn
  | none =>
    cases n with
    | none =>
      obtain ⟨hk, hg⟩ := hfirst s0 hf 0xFF gang
        { cls := LogCls.contextFault, kind := 0, unit := 0, ctx := x, code := code, sub := sub, arg0 := opTag }
      exact ⟨hcount.trans hk, fun _ => congrArg (Option.map fun f : FaultRec => (f.code, f.sub)) hg⟩
    | some k =>
      obtain ⟨hk, hg⟩ := hfirst s0 hf (s0.ctxCoreOf x k) (k :: gang)
        { cls := LogCls.contextFault, kind := LogKind.core, unit := k, ctx := x, code := code, sub := sub, arg0 := opTag }
      dsimp only
      rw [if_neg fun h => hc h.1]
      exact ⟨hcount.trans hk, fun _ => congrArg (Option.map fun f : FaultRec => (f.code, f.sub)) hg⟩

end Sys2Proof.Machine
end

section
/-! PROOFS. Collectives: arrived chunks (R389 to R392). -/

namespace Sys2Proof.Machine

/-! ### Failed attempts (R391) -/

/-- A failed attempt, reported. -/
def digestRetried (cnt : Nat) (s : State) : State := errEvent Pg.plm0 E.plm0_DIGEST_RETRY (s.count Pg.plm0 cnt 1)

/-- A third failed attempt, reported. -/
def digestLost (cnt : Nat) (s : State) : State := errEvent Pg.plm0 E.plm0_DIGEST_FAIL ((digestRetried cnt s).count Pg.plm0 4 1)

section
variable (r : CollRun) (cnt attempts sub : Nat) (s : State)

theorem digestFail_early (h : attempts < 3) : digestFail r cnt attempts sub s = digestRetried cnt s := if_pos h

theorem digestFail_final (h : 3 ≤ attempts) : digestFail r cnt attempts sub s
    = ctxFault r.ctx (some r.core) r.cores Flt.collective sub (Op.tag r.desc) (digestLost cnt s) := if_neg (Nat.not_lt.2 h)

theorem digestRetried_plm : (digestRetried cnt s).plm = s.plm := errEvent_plm ..

theorem digestRetried_ctxs : (digestRetried cnt s).ctxs = s.ctxs := by
  unfold digestRetried
  rw [errEvent_frame]
  rfl

theorem digestRetried_counter (k : Nat) : (digestRetried cnt s).counter k = (s.count Pg.plm0 cnt 1).counter k :=
  errEvent_counter ..

theorem digestRetried_bit : bitOf ((digestRetried cnt s).reg (Pg.plm0 + Hdr.errStat)).toNat E.plm0_DIGEST_RETRY = true :=
  errEvent_sets _ _ _ (by decide)

theorem digestLost_counter (k : Nat) : (digestLost cnt s).counter k = ((digestRetried cnt s).count Pg.plm0 4 1).counter k :=
  errEvent_counter ..

theorem digestLost_bit : bitOf ((digestLost cnt s).reg (Pg.plm0 + Hdr.errStat)).toNat E.plm0_DIGEST_RETRY = true :=
  errEvent_keeps _ _ _ _ (digestRetried_bit cnt s)

theorem digestLost_plm : (digestLost cnt s).plm = s.plm := by
  unfold digestLost
  rw [errEvent_plm]
  exact digestRetried_plm cnt s

theorem digestLost_ctxs : (digestLost cnt s).ctxs = s.ctxs := by
  unfold digestLost
  rw [errEvent_frame]
  exact digestRetried_ctxs cnt s

/-- What every failed attempt leaves (R391). -/
theorem digestFail_leaves (hc : cntKey Pg.plm0 cnt ≠ cntKey Pg.plm0 4) (h2 : cntKey Pg.plm0 cnt / 4096 = Pg.plm0 / 4096) :
    (digestFail r cnt attempts sub s).counter (cntKey Pg.plm0 cnt) = (s.counter (cntKey Pg.plm0 cnt) + 1) % 2 ^ 64
      ∧ (digestFail r cnt attempts sub s).plm.ports = s.plm.ports
      ∧ bitOf ((digestFail r cnt attempts sub s).reg (Pg.plm0 + Hdr.errStat)).toNat E.plm0_DIGEST_RETRY = true := by
  have hfirst : (digestRetried cnt s).counter (cntKey Pg.plm0 cnt) = (s.counter (cntKey Pg.plm0 cnt) + 1) % 2 ^ 64 := by
    rw [digestRetried_counter, State.counter_count_same]
  by_cases h : attempts < 3
  · rw [digestFail_early r cnt attempts sub s h]
    exact ⟨hfirst, congrArg _ (digestRetried_plm cnt s), digestRetried_bit cnt s⟩
  · rw [digestFail_final r cnt attempts sub s (by omega)]
    have hk := (ctxFault_kept r.ctx (some r.core) r.cores Flt.collective sub (Op.tag r.desc) (digestLost cnt s) (by decide)).1
    refine ⟨?_, hk.ports.trans (congrArg _ (digestLost_plm cnt s)), ?_⟩
    · rw [hk.counter _ (by rw [h2]; decide) (by rw [h2]; decide), digestLost_counter, State.counter_count_ne _ _ _ _ _ hc, hfirst]
    · rw [hk.reg _ ⟨.inl (by decide), by decide⟩]
      exact digestLost_bit cnt s

/-- The third failed attempt faults the context (R391). -/
theorem digestFail_third (h : 3 ≤ attempts) (hc : cntKey Pg.plm0 4 ≠ cntKey Pg.plm0 cnt) :
    (digestFail r cnt attempts sub s).counter (cntKey Pg.plm0 4) = (s.counter (cntKey Pg.plm0 4) + 1) % 2 ^ 64
      ∧ ((s.ctx r.ctx).fault = none → ((digestFail r cnt attempts sub s).ctx r.ctx).fault.map (fun f => (f.code, f.sub))
        = some (Flt.collective, sub)) := by
  rw [digestFail_final r cnt attempts sub s h]
  obtain ⟨hk, hf⟩ := ctxFault_kept r.ctx (some r.core) r.cores Flt.collective sub (Op.tag r.desc) (digestLost cnt s) (by decide)
  refine ⟨?_, fun hn => hf ?_⟩
  · rw [hk.counter _ (by decide) (by decide), digestLost_counter, State.counter_count_same, digestRetried_counter,
      State.counter_count_ne _ _ _ _ _ hc]
  · unfold State.ctx at *
    rw [digestLost_ctxs]
    exact hn

end

/-! ### The outcomes of a chunk (R389 to R392) -/

section
variable (p tenant ctag chunk row : Nat) (add last onward sumBad : Bool) (c : ChunkIn) (r : CollRun) (s : State)

/-- A chunk whose digest does not hold is asked for again, or was for the last time. -/
def chunkRetried (p row : Nat) (c : ChunkIn) (r : CollRun) (s : State) : State :=
  let k := Tab.get r.sentTries 0 (row * 8 + p) + 1
  let s1 := digestFail r 2 k p ((forgetChunk p c s).setRun { r with sentTries := Tab.set r.sentTries (row * 8 + p) k })
  if k < 3 then sendFlits p 1 s1 else s1

/-- An addition that failed its check is done again, or was for the last time. -/
def sumRetried (p row : Nat) (r : CollRun) (s : State) : State :=
  digestFail r 3 (Tab.get r.sumTries 0 (row * 8 + p) + 1) 0xFF
    (s.setRun { r with sumTries := Tab.set r.sumTries (row * 8 + p) (Tab.get r.sumTries 0 (row * 8 + p) + 1) })

/-- A run once a chunk has landed in its workspace. -/
def CollRun.landed (r : CollRun) (p row : Nat) (add last : Bool) (c : ChunkIn) : CollRun :=
  { r.land row add last (bitOf (c.byte 3) 0) c.rows with
    sentTries := Tab.del r.sentTries (row * 8 + p), sumTries := Tab.del r.sumTries (row * 8 + p) }

/-- A landed chunk, counted, before it goes on. -/
def chunkTaken (p row : Nat) (add last : Bool) (c : ChunkIn) (r : CollRun) (s : State) : State :=
  let r1 := r.landed p row add last c
  let s1 := ((forgetChunk p c s).setRun r1).count Pg.plm0 1 1
  if bitOf (c.byte 3) 0 || (List.range c.h).any (fun i => ((Tab.find r1.rows (row + i)).map (·.poison)).getD false)
    then s1.count Pg.plm0 5 1 else s1

/-- A chunk whose digest holds lands and goes on. -/
def chunkLanded (p row : Nat) (add last onward : Bool) (c : ChunkIn) (r : CollRun) (s : State) : State :=
  match if onward then s.portFor (if s.portDir p % 2 = 0 then s.portDir p + 1 else s.portDir p - 1) else none with
  | some o => sendFlits o (chunkFlits c.h) (chunkTaken p row add last c r s)
  | none => chunkTaken p row add last c r s

theorem chunkReceive_at
    (hc : (s.port p).ins.find? (fun c => c.tenant == tenant && c.ctag == ctag && c.chunk == chunk) = some c)
    (hr : s.collFor tenant ctag = some r) (hw : c.whole = true) (hd : c.differs r.desc = []) :
    chunkReceive p tenant ctag chunk row add last onward sumBad s =
      if c.h = 0 ∨ 64 < c.h ∨ Coll.need r.desc r.members < row + c.h ∨ digest (Coll.fmtWire r.desc) c.rows ≠ c.words
      then chunkRetried p row c r s
      else if add && sumBad then sumRetried p row r s else chunkLanded p row add last onward c r s := by
  unfold chunkReceive
  rw [hc, hr]
  dsimp only
  rw [hw, if_neg (by decide), hd]
  dsimp only
  unfold chunkRetried sumRetried chunkLanded chunkTaken CollRun.landed
  rfl

end
end Sys2Proof.Machine
end

section
/-! PROOFS. Collectives: what an arrived chunk leaves (R389 to R392). -/

namespace Sys2Proof.Machine

section
variable (p row : Nat) (c : ChunkIn) (r : CollRun) (s : State)

theorem forgotten_ins (u : CollRun) : (((forgetChunk p c s).setRun u).port p).ins = (s.port p).ins.erase c := by
  have h : ((forgetChunk p c s).setRun u).port p = (forgetChunk p c s).port p := rfl
  rw [h, forgetChunk, port_modPort]

theorem setRun_mem (u : CollRun) (h : r ∈ s.plm.runs) (hc : r.cores = u.cores) (hx : r.ctx = u.ctx) :
    u ∈ (s.setRun u).plm.runs :=
  List.mem_map.2 ⟨r, h, if_pos ⟨hc, hx⟩⟩

/-! ### A good chunk -/

/-- What a landed chunk leaves (R387, R390). -/
structure Landed (p : Nat) (c : ChunkIn) (u : CollRun) (s t : State) : Prop where
  counted : t.counter (cntKey Pg.plm0 1) = (s.counter (cntKey Pg.plm0 1) + 1) % 2 ^ 64
  ins : (t.port p).ins = (s.port p).ins.erase c
  ctxs : t.ctxs = s.ctxs
  run : u ∈ t.plm.runs

theorem Landed.sent {u : CollRun} {s t v : State} {p : Nat} {c : ChunkIn} (h : Landed p c u s t) (k : SentOnly t v) :
    Landed p c u s v where
  counted := (k.counter _ (notSent_plm0 1 (by decide))).trans h.counted
  ins := by
    have hs : (v.port p).steady.ins = (t.port p).steady.ins := congrArg PlmPort.ins (k.port p)
    exact Eq.trans hs h.ins
  ctxs := by
    have hc : v.ctxs = t.ctxs := by rw [k.frame]
    exact hc.trans h.ctxs
  run := by
    have hr : v.plm.runs = t.plm.runs := by rw [k.frame]
    rw [hr]
    exact h.run

theorem chunkTaken_landed (add last : Bool) (h : r ∈ s.plm.runs) :
    Landed p c (r.landed p row add last c) s (chunkTaken p row add last c r s) := by
  have hm := setRun_mem r (forgetChunk p c s) (r.landed p row add last c) h rfl rfl
  have hi := forgotten_ins p c s (r.landed p row add last c)
  have h1 : Landed p c (r.landed p row add last c) s
      (((forgetChunk p c s).setRun (r.landed p row add last c)).count Pg.plm0 1 1) :=
    ⟨State.counter_count_same _ _ _ _, hi, rfl, hm⟩
  unfold chunkTaken
  dsimp only
  generalize ((forgetChunk p c s).setRun (r.landed p row add last c)).count Pg.plm0 1 1 = t at h1 ⊢
  split
  · exact ⟨(State.counter_count_ne _ _ _ _ _ (by decide)).trans h1.counted, h1.ins, h1.ctxs, h1.run⟩
  · exact h1

theorem chunkLanded_landed (add last onward : Bool) (h : r ∈ s.plm.runs) :
    Landed p c (r.landed p row add last c) s (chunkLanded p row add last onward c r s) := by
  have h1 := chunkTaken_landed p row c r s add last h
  unfold chunkLanded
  split
  · exact h1.sent (SentOnly.sendFlits _ _ _)
  · exact h1

/-! ### A bad chunk, or a bad sum -/

theorem sumRetried_leaves :
    (sumRetried p row r s).counter (cntKey Pg.plm0 3) = (s.counter (cntKey Pg.plm0 3) + 1) % 2 ^ 64
      ∧ ((sumRetried p row r s).port p).ins = (s.port p).ins := by
  obtain ⟨hc, hp, -⟩ := digestFail_leaves r 3 (Tab.get r.sumTries 0 (row * 8 + p) + 1) 0xFF
    (s.setRun { r with sumTries := Tab.set r.sumTries (row * 8 + p) (Tab.get r.sumTries 0 (row * 8 + p) + 1) })
    (by decide) (by decide)
  unfold sumRetried
  refine ⟨hc, ?_⟩
  unfold State.port at *
  rw [hp]
  rfl

/-- What a bad chunk leaves, whatever its attempt (R389, R391). -/
structure Retried (p : Nat) (c : ChunkIn) (s t : State) : Prop where
  counted : t.counter (cntKey Pg.plm0 2) = (s.counter (cntKey Pg.plm0 2) + 1) % 2 ^ 64
  ins : (t.port p).ins = (s.port p).ins.erase c
  reported : bitOf (t.reg (Pg.plm0 + Hdr.errStat)).toNat E.plm0_DIGEST_RETRY = true

theorem digestFail_retried (u : CollRun) (k : Nat) :
    Retried p c s (digestFail r 2 k p ((forgetChunk p c s).setRun u)) := by
  obtain ⟨hc, hp, hb⟩ := digestFail_leaves r 2 k p ((forgetChunk p c s).setRun u) (by decide) (by decide)
  refine ⟨hc, ?_, hb⟩
  rw [← forgotten_ins p c s u]
  unfold State.port
  rw [hp]

theorem Retried.sent {s t v : State} {p : Nat} {c : ChunkIn} (h : Retried p c s t) (k : SentOnly t v) : Retried p c s v where
  counted := (k.counter _ (notSent_plm0 2 (by decide))).trans h.counted
  ins := by
    have hs : (v.port p).steady.ins = (t.port p).steady.ins := congrArg PlmPort.ins (k.port p)
    exact Eq.trans hs h.ins
  reported := by
    rw [k.reg]
    exact h.reported

theorem chunkRetried_retried : Retried p c s (chunkRetried p row c r s) := by
  have h := digestFail_retried p c r s
    { r with sentTries := Tab.set r.sentTries (row * 8 + p) (Tab.get r.sentTries 0 (row * 8 + p) + 1) }
    (Tab.get r.sentTries 0 (row * 8 + p) + 1)
  unfold chunkRetried
  dsimp only
  split
  · exact h.sent (SentOnly.sendFlits _ _ _)
  · exact h

/-- The first and the second bad chunk are asked for again (R391). -/
theorem chunkRetried_again (h : Tab.get r.sentTries 0 (row * 8 + p) < 2) :
    (chunkRetried p row c r s).ctxs = s.ctxs
      ∧ (chunkRetried p row c r s).counter (cntKey (Pg.plmPort p) 0) = (s.counter (cntKey (Pg.plmPort p) 0) + 1) % 2 ^ 64 := by
  have hk : Tab.get r.sentTries 0 (row * 8 + p) + 1 < 3 := by omega
  have hne : cntKey (Pg.plmPort p) 0 ≠ cntKey Pg.plm0 2 := (notSent_plm0 2 (by decide) p).symm
  unfold chunkRetried
  dsimp only
  rw [if_pos hk, digestFail_early _ _ _ _ _ hk]
  obtain ⟨u, hu⟩ : ∃ u : CollRun, u = { r with sentTries := Tab.set r.sentTries (row * 8 + p) (Tab.get r.sentTries 0 (row * 8 + p) + 1) } :=
    ⟨_, rfl⟩
  rw [← hu]
  have hc : (digestRetried 2 ((forgetChunk p c s).setRun u)).counter (cntKey (Pg.plmPort p) 0) = s.counter (cntKey (Pg.plmPort p) 0) := by
    rw [digestRetried_counter, State.counter_count_ne _ _ _ _ _ hne]
    rfl
  have hx := digestRetried_ctxs 2 ((forgetChunk p c s).setRun u)
  generalize digestRetried 2 ((forgetChunk p c s).setRun u) = t at hc hx ⊢
  refine ⟨hx, ?_⟩
  unfold sendFlits
  rw [State.counter_count_same, ← hc]
  rfl

/-- The third bad chunk faults the context (R391). -/
theorem chunkRetried_lost (h : 2 ≤ Tab.get r.sentTries 0 (row * 8 + p)) :
    (chunkRetried p row c r s).counter (cntKey Pg.plm0 4) = (s.counter (cntKey Pg.plm0 4) + 1) % 2 ^ 64
      ∧ ((s.ctx r.ctx).fault = none → ((chunkRetried p row c r s).ctx r.ctx).fault.map (fun f => (f.code, f.sub))
        = some (Flt.collective, p)) := by
  unfold chunkRetried
  dsimp only
  rw [if_neg (by omega)]
  exact digestFail_third r 2 _ p _ (by omega) (by decide)

end

/-- What an arrived chunk does (R389 to R392). -/
theorem chunkReceive_outcomes (s : State) (p : Fin 6) (tenant ctag chunk row : Nat) (add last onward sumBad : Bool) (c : ChunkIn)
    (r : CollRun)
    (hc : (s.port p).ins.find? (fun c => c.tenant == tenant && c.ctag == ctag && c.chunk == chunk) = some c)
    (hr : s.collFor tenant ctag = some r) (hw : c.whole = true) (hd : c.differs r.desc = [])
    (h1 : 1 ≤ c.h) (h64 : c.h ≤ 64) (hneed : row + c.h ≤ Coll.need r.desc r.members) :
    let t := chunkReceive p tenant ctag chunk row add last onward sumBad s
    let good := digest (Coll.fmtWire r.desc) c.rows = c.words
    (good → (add && sumBad) = false → Landed p c (r.landed p row add last c) s t)
      ∧ (good → (add && sumBad) = true → t = sumRetried p row r s)
      ∧ (¬ good → t = chunkRetried p row c r s) := by
  intro t good
  have ht : t = _ := chunkReceive_at p tenant ctag chunk row add last onward sumBad c r s hc hr hw hd
  have hgood (hg : good) : ¬ (c.h = 0 ∨ 64 < c.h ∨ Coll.need r.desc r.members < row + c.h
      ∨ digest (Coll.fmtWire r.desc) c.rows ≠ c.words) := by
    rintro (h | h | h | h)
    · omega
    · omega
    · omega
    · exact h hg
  refine ⟨fun hg hs => ?_, fun hg hs => ?_, fun hg => ?_⟩
  · rw [ht, if_neg (hgood hg), hs, if_neg (by decide)]
    exact chunkLanded_landed p row c r s add last onward (List.mem_of_find?_eq_some hr)
  · rw [ht, if_neg (hgood hg), hs, if_pos rfl]
  · rw [ht, if_pos (.inr (.inr (.inr hg)))]

end Sys2Proof.Machine
end

section
/-! PROOFS. Collectives: their end (R394), and the obligation. -/

namespace Sys2Proof.Machine

section
variable (s : State)

/-- What the rows of an output leave: registers, counts and the engine. -/
def State.besideRows (s : State) : List (Nat × Word) × List (Nat × Nat) × Ploem := (s.regs, s.cnt, s.plm)

/-- What an output leaves alone besides HEAD and TAIL of its regions and its semaphore. -/
structure OutKept (n o : Nat) (s t : State) : Prop where
  head : t.reg (R.SPD_REGION_HEAD n o) = s.reg (R.SPD_REGION_HEAD n o)
  counter : t.counter (cntKey Pg.plm0 0) = s.counter (cntKey Pg.plm0 0)
  plm : t.plm = s.plm

theorem OutKept.trans {n o : Nat} {s t u : State} (h : OutKept n o s t) (k : OutKept n o t u) : OutKept n o s u :=
  ⟨k.head.trans h.head, k.counter.trans h.counter, k.plm.trans h.plm⟩

theorem OutKept.releaseTo (n o r : Nat) (g0 : Rgn) (k : Nat) (s : State) : OutKept n o s (releaseTo n r g0 k s) := by
  unfold Machine.releaseTo
  dsimp only
  generalize k - _ = m
  obtain ⟨hf, hr, hc⟩ := releaseRows_only n r m s
  refine ⟨hr _ ?_, hc _ ?_, ?_⟩
  · unfold R.SPD_REGION_TAIL R.SPD_REGION_HEAD
    simp only [List.mem_singleton]
    omega
  · unfold cntKey Pg.spd5 Pg.plm0
    simp only [List.mem_singleton]
    omega
  · rw [hf]

theorem OutKept.semAdd (n o m x k v : Nat) (s : State) (ho : o < 64) (hk : k < 64) :
    OutKept n o s (semAdd m x k v s) where
  head := by
    have hne : R.SPD_REGION_HEAD n o ≠ R.SEQ_SEM m k := by
      unfold R.SPD_REGION_HEAD R.SEQ_SEM Pg.spd5 Pg.seq
      omega
    unfold Machine.semAdd
    split
    · dsimp only
      split
      · rw [State.reg_setFld_ne _ _ _ _ _ hne, State.reg_setFld_ne _ _ _ _ _ hne]
      · rw [State.reg_setFld_ne _ _ _ _ _ hne]
    · rfl
  counter := by
    rw [semAdd_frame]
    rfl
  plm := by rw [semAdd_frame]

/-- HEAD of the output's region advances over its rows (R394). -/
theorem collOut_leaves (r : CollRun) (p : CollPost) (g : Rgn) (n : Nat) (hn : n < 18) (hp : p.core = n) :
    let t := collOut r s ((p, g), 0)
    t.plm = s.plm ∧ t.counter (cntKey Pg.plm0 0) = s.counter (cntKey Pg.plm0 0)
      ∧ ((s.rgn n (Op.regOut p.desc)).raw = false → 0 < Coll.outRows p.desc r.members → r.posts = [p] →
        t.reg (R.SPD_REGION_HEAD n (Op.regOut p.desc)) = ptrWord (movePtr (s.rgn n (Op.regOut p.desc)).size
          (s.rgn n (Op.regOut p.desc)).head (s.rgn n (Op.regOut p.desc)).headWrap (Coll.outRows p.desc r.members))) := by
  have ho : Op.regOut p.desc < 64 := bitsOf_lt _ _ _
  have hk : Op.sigSem p.desc < 64 := bitsOf_lt _ _ _
  unfold collOut
  dsimp only
  rw [hp]
  generalize hs1 : List.foldl _ s (r.outs 0).zipIdx = s1
  have hrows : s1.besideRows = s.besideRows := by
    rw [← hs1]
    refine foldl_keeps State.besideRows _ (fun t e => ?_) _ _
    split <;> rfl
  obtain ⟨hregs, hcnt, hplm⟩ : s1.regs = s.regs ∧ s1.cnt = s.cnt ∧ s1.plm = s.plm :=
    ⟨congrArg (·.1) hrows, congrArg (·.2.1) hrows, congrArg (·.2.2) hrows⟩
  have hrgn : s1.rgn n (Op.regOut p.desc) = s.rgn n (Op.regOut p.desc) := rgn_of_regs hregs n _
  have hlast (u : State) : OutKept n (Op.regOut p.desc) u (semAdd n p.ctx (Op.sigSem p.desc) 1
      (if Op.relA p.desc = true then releaseTo n (Op.regA p.desc) g (Coll.offA p.desc + Coll.rows p.desc) u else u)) := by
    refine OutKept.trans ?_ (OutKept.semAdd n _ n p.ctx (Op.sigSem p.desc) 1 _ ho hk)
    split
    · exact OutKept.releaseTo ..
    · exact ⟨rfl, rfl, rfl⟩
  have hl := hlast (advanceHead n (Op.regOut p.desc) (r.outs 0).length s1)
  generalize semAdd n p.ctx (Op.sigSem p.desc) 1 _ = t at hl ⊢
  refine ⟨?_, ?_, fun hraw hpos hposts => ?_⟩
  · rw [hl.plm, advanceHead_frame, hplm]
  · rw [hl.counter]
    unfold advanceHead
    dsimp only
    split
    · unfold State.counter
      rw [hcnt]
    · rw [State.counter_count_ne _ _ _ _ _ (by unfold cntKey Pg.spd5 Pg.plm0; omega)]
      unfold State.counter
      show Tab.get s1.cnt 0 _ = _
      rw [hcnt]
  · have hlen : (r.outs 0).length = Coll.outRows p.desc r.members := by
      unfold CollRun.outs CollRun.desc
      rw [hposts]
      exact (List.length_map ..).trans List.length_range
    rw [hl.head, hlen]
    unfold advanceHead
    dsimp only
    rw [hrgn, hraw, if_neg (by simp only [Bool.false_eq_true, false_or]; omega)]
    exact State.reg_setReg_same _ _ _

/-- A run of one member ends (R394). -/
theorem collComplete_ends (n : Nat) (hn : n < 18) (r : CollRun) (p : CollPost) (g : Rgn)
    (hr : s.plm.runs.find? (fun r => r.cores.contains n && r.complete) = some r) (hposts : r.posts = [p]) (hins : r.ins = [g]) :
    let o := s.rgn n (Op.regOut p.desc)
    let k := Coll.outRows p.desc r.members
    let t := collComplete n 0 s
    t.plm.runs = s.plm.runs.filter (· != r) ∧ t.plm.queue = s.plm.queue
      ∧ t.counter (cntKey Pg.plm0 0) = (s.counter (cntKey Pg.plm0 0) + 1) % 2 ^ 64
      ∧ (o.raw = false → 0 < k →
        t.reg (R.SPD_REGION_HEAD n (Op.regOut p.desc)) = ptrWord (movePtr o.size o.head o.headWrap k)) := by
  have hcore : p.core = n := by
    have h := List.find?_some hr
    rw [CollRun.cores, hposts, Bool.and_eq_true] at h
    simpa [eq_comm] using h.1
  intro o k t
  have ht : t = ((collOut r s ((p, g), 0)).setRuns ((collOut r s ((p, g), 0)).plm.runs.filter (· != r))).count Pg.plm0 0 1 := by
    show collComplete n 0 s = _
    unfold collComplete
    rw [hr]
    dsimp only
    rw [hposts, hins]
    rfl
  obtain ⟨hplm, hcnt, hhead⟩ := collOut_leaves s r p g n hn hcore
  rw [ht]
  generalize collOut r s ((p, g), 0) = u at hplm hcnt hhead ⊢
  refine ⟨congrArg (fun q : Ploem => q.runs.filter (· != r)) hplm, (congrArg Ploem.queue hplm : u.plm.queue = s.plm.queue), ?_, fun hraw hk => ?_⟩
  · rw [State.counter_count_same, ← hcnt]
    rfl
  · rw [← hhead hraw hk hposts]
    exact collStatus_reg _ _ (by unfold R.SPD_REGION_HEAD R.PLM_COLL_STATUS Pg.spd5 Pg.plm0; omega)

end

/-- Settles O45: a posted collective keeps its core running, a start reads the workspace, each chunk lands, is asked for again
or faults, and the end advances HEAD. -/
theorem collectivesPostStartLandAndComplete : Obligations.CollectivesPostStartLandAndComplete := by
  unfold Obligations.CollectivesPostStartLandAndComplete
  intro s n
  refine ⟨?_, ?_, ?_, ?_, ?_⟩
  · intro x k q hat hq hq2 slot d c hslot hop hkind hgang
    have hc : exec c s = .next (issueColl n k.val s) := by
      fin_cases k <;> rfl
    refine ⟨fun hroom => ⟨_, hc, collPosted_goes s n hat k q hq hq2 hslot hop hkind hgang hroom⟩, fun hfull => ?_⟩
    rw [hc, issueColl_at s n hat k hslot hop hkind hgang, if_pos hfull]
    rfl
  · intro p rest hq hc hg hb hr m
    have hs := collStart_solo n s p rest hq hc hg hb hr
    have hm : s.commSize (Coll.comm p.desc) * 1 = m := Nat.mul_one _
    rw [hm] at hs
    refine ⟨fun hok => ?_, fun hbad => ?_⟩
    · rw [hok] at hs
      have he : exec (.collectiveStart n 0 none) s = .next (runStarted (soloRun s p) p (collTaken rest s)) := congrArg Host.Outcome.next hs
      obtain ⟨h1, h2, h3, h4, h5⟩ := runStarted_outcome s p rest
      refine ⟨_, _, he, h1, h2, rfl, ?_, rfl, hm, h3, h4, h5⟩
      show [s.rgn p.core (Op.regA p.desc)] = _
      rw [hc]
    · have he : (Coll.chk s p m).faults.isEmpty = false := by simpa using hbad
      rw [he] at hs
      exact congrArg Host.Outcome.next hs
  · intro p tenant tag chunk row add last onward sumBad c r hc hr hw hd h1 h64 hneed good tries cnt
    obtain ⟨hgood, hsum, hbad⟩ := chunkReceive_outcomes s p tenant tag.toNat chunk row add last onward sumBad c r hc hr hw hd h1 h64 hneed
    refine ⟨_, rfl, fun hg hns => ?_, fun hg hs => ?_, fun hg => ?_⟩
    · have h := hgood hg hns
      exact ⟨h.counted, h.ins, h.ctxs, _, h.run, rfl, rfl⟩
    · have h := sumRetried_leaves p row r s
      rw [← hsum hg hs] at h
      exact h
    · have h := chunkRetried_retried p row c r s
      have hagain := chunkRetried_again p row c r s
      have hlost := chunkRetried_lost p row c r s
      rw [← hbad hg] at h hagain hlost
      exact ⟨h.counted, h.ins, h.reported, hagain, hlost⟩
  · intro r p g hr hposts hins o k
    exact ⟨_, rfl, collComplete_ends s n n.isLt r p g hr hposts hins⟩
  · intro x lim late
    refine ⟨fun h0 => congrArg Host.Outcome.next (collTimeout_unbounded x s h0), fun hpos => ?_⟩
    have hl : (s.reg R.PLM_COLL_WAIT).toNat ≠ 0 := Nat.ne_of_gt hpos
    exact ⟨fun r hr => congrArg Host.Outcome.next (collTimeout_running x s r hl hr), fun hr =>
      ⟨fun p hp => congrArg Host.Outcome.next (collTimeout_posted x s p hl hr hp),
        fun hp => congrArg Host.Outcome.next (collTimeout_none x s hr hp)⟩⟩

end Sys2Proof.Machine
end

section
/-! PROOFS. Host entries: their fetch and their checks (R330, R332, R334, R337). -/

namespace Sys2Proof.Machine

/-! ### What stopping and logging leave of the host interface -/

theorem stopCores_hostCore (x : Nat) (l : List Nat) (s : State) : (stopCores x l s).hostCore = s.hostCore := by
  have h := stopCores_frame x l s
  generalize stopCores x l s = t at h ⊢
  unfold CoreOnly at h
  rw [h]
  rfl

theorem stopChans_hostCore (x : Nat) (l : List Nat) (s : State) : (stopChans x l s).hostCore = s.hostCore := by
  have h := stopChans_frame x l s
  generalize stopChans x l s = t at h ⊢
  unfold ChansOnly at h
  rw [h]
  rfl

theorem countFault_hostCore (code : Nat) (s : State) : (countFault code s).hostCore = s.hostCore := by
  unfold countFault
  split <;> rfl

theorem dropColl_hostCore (x : Nat) (s : State) : (dropColl x s).hostCore = s.hostCore := by
  unfold dropColl collStatus
  rfl

theorem modCore_hostCore (n : Nat) (f : Core → Core) (s : State) : (s.modCore n f).hostCore = s.hostCore := rfl

theorem ctxFault_hostCore (x : Nat) (n : Option Nat) (gang : List Nat) (code sub opTag : Nat) (s : State) :
    (ctxFault x n gang code sub opTag s).hostCore = s.hostCore := by
  have hset (r : CtxRec) (t : State) : (t.setCtx x r).hostCore = t.hostCore := rfl
  have hstop (stopped : List Nat) (e : LogEntry) (t : State) :
      (logEntry e (dropColl x (stopChans x (List.range 18) (stopCores x stopped t)))).hostCore = t.hostCore := by
    rw [logEntry_hostCore, dropColl_hostCore, stopChans_hostCore, stopCores_hostCore]
  rw [← countFault_hostCore code s]
  unfold ctxFault
  dsimp only
  generalize countFault code s = s0
  cases (s0.ctx x).fault with
  | some f => rfl
  | none =>
    cases n with
    | none =>
      dsimp only
      rw [hstop, hset]
    | some k =>
      dsimp only
      split
      · rw [modCore_hostCore, hstop, hset]
      · rw [hstop, hset]

theorem logPartner_hostCore (base bit kind unit : Nat) (s : State) : (logPartner base bit kind unit s).hostCore = s.hostCore := by
  unfold logPartner
  dsimp only
  split
  · rfl
  · exact logEntry_hostCore _ s

theorem entries_of_hostCore {s t : State} (h : t.hostCore = s.hostCore) : t.hif.entries = s.hif.entries :=
  (congrArg Hif.entries h : _)

theorem nextId_of_hostCore {s t : State} (h : t.hostCore = s.hostCore) : t.hif.nextId = s.hif.nextId :=
  (congrArg Hif.nextId h : _)

theorem DaKept.hostCore {s t : State} (h : DaKept s t) : t.hostCore = s.hostCore := by
  rw [h.frame]
  rfl

theorem readRun_daKept (set tenant k base : Nat) (s : State) : DaKept s (readRun set tenant k base s).2.2.2 := by
  induction k generalizing base s with
  | zero => exact .refl s
  | succ k ih =>
    unfold readRun
    split
    · exact countRefusal_daKept s
    · exact ((touchPage_daKept _ s).trans (readSector_daKept _ _ _)).trans (ih _ _)

theorem writeRun_daKept (set tenant da src : Nat) (bs : List Byte) (k base : Nat) (s : State) :
    DaKept s (writeRun set tenant da src bs k base s).2 := by
  induction k generalizing base s with
  | zero => exact .refl s
  | succ k ih =>
    unfold writeRun
    split
    · exact countRefusal_daKept s
    · exact ((touchPage_daKept _ s).trans (storeSector_daKept _ _ _ _ _)).trans (ih _ _)

/-! ### A queue whose entry is checked -/

/-- What the check of a fetched entry of queue `q` of context `x` leaves alone. -/
structure CheckKept (x q : Nat) (s t : State) : Prop where
  status : t.reg (R.HIF_SQ_STATUS (x / 8) (x % 8) q) = s.reg (R.HIF_SQ_STATUS (x / 8) (x % 8) q)
  counter : t.counter (cntKey (Pg.hifFn (x / 8)) 0) = s.counter (cntKey (Pg.hifFn (x / 8)) 0)
  nextId : t.hif.nextId = s.hif.nextId

namespace CheckKept

variable {x q : Nat}

theorem trans {s t u : State} (h : CheckKept x q s t) (k : CheckKept x q t u) : CheckKept x q s u :=
  ⟨k.status.trans h.status, k.counter.trans h.counter, k.nextId.trans h.nextId⟩

theorem daKept {s t : State} (hx : x < 128) (hq : q < 4) (h : DaKept s t) : CheckKept x q s t where
  status := h.reg _ (by unfold R.HIF_SQ_STATUS Pg.hifFn Pg.mt1; omega) (by unfold R.HIF_SQ_STATUS Pg.hifFn Pg.rel2; omega)
  counter := h.counter _ (by unfold cntKey Pg.hifFn Pg.mt1; omega) (by unfold cntKey Pg.hifFn Pg.rel2; omega)
  nextId := nextId_of_hostCore h.hostCore

theorem entryDone (id a b c : Nat) (s : State) : CheckKept x q s (entryDone id a b c s) := ⟨rfl, rfl, rfl⟩

theorem setCtx (y : Nat) (c : CtxRec) (s : State) : CheckKept x q s (s.setCtx y c) := ⟨rfl, rfl, rfl⟩

theorem info (f : Fld) (v : Nat) (s : State) (hx : x < 128) : CheckKept x q s (s.setFld (R.CTL_CX_INFO x) f v) where
  status := State.reg_setFld_ne _ _ _ _ _ (by unfold R.HIF_SQ_STATUS Pg.hifFn R.CTL_CX_INFO Pg.ctlMb; omega)
  counter := rfl
  nextId := rfl

theorem ctxFault (y : Nat) (gang : List Nat) (s : State) (hx : x < 128) (hq : q < 4) :
    CheckKept x q s (ctxFault y none gang Flt.malformed 0xFE 0 s) where
  status := (ctxFault_kept y none gang Flt.malformed 0xFE 0 s (by decide)).1.reg _
    ⟨.inr ⟨by unfold R.HIF_SQ_STATUS Pg.hifFn; omega, by unfold R.HIF_SQ_STATUS Pg.hifFn; omega⟩,
      by unfold R.HIF_SQ_STATUS Pg.hifFn Pg.rel2; omega⟩
  counter := (ctxFault_kept y none gang Flt.malformed 0xFE 0 s (by decide)).1.counter _
    (by unfold cntKey Pg.hifFn Pg.rel2; omega) (by unfold cntKey Pg.hifFn Pg.rel3; omega)
  nextId := nextId_of_hostCore (ctxFault_hostCore ..)

theorem logPartner (y bit kind unit : Nat) (s : State) (hx : x < 128) :
    CheckKept x q s (logPartner (Pg.hifFn y) bit kind unit s) where
  status := logPartner_reg _ _ _ _ _ _ (by unfold R.HIF_SQ_STATUS Pg.hifFn Pg.rel2; omega)
  counter := logPartner_counter _ _ _ _ _ _ (by unfold cntKey Pg.hifFn Pg.rel2; omega) (by unfold cntKey Pg.hifFn Pg.rel3; omega)
  nextId := nextId_of_hostCore (logPartner_hostCore ..)

theorem errEvent (y bit : Nat) (s : State) : CheckKept x q s (errEvent (Pg.hifFn y) bit s) where
  status := errEvent_reg_ne _ _ _ _ (by unfold R.HIF_SQ_STATUS Pg.hifFn Hdr.errStat; omega)
    (by unfold R.HIF_SQ_STATUS Pg.hifFn Hdr.errFirst; omega)
  counter := errEvent_counter ..
  nextId := nextId_of_hostCore (errEvent_hostCore ..)

theorem counted (y : Nat) (s : State) : CheckKept x q s (s.count (Pg.hifFn y) 2 1) where
  status := rfl
  counter := State.counter_count_ne _ _ _ _ _ (by unfold cntKey Pg.hifFn; omega)
  nextId := rfl

end CheckKept

end Sys2Proof.Machine
end

section
/-! PROOFS. Host entries: a fetch, and a DMA entry's post (R330, R333, R334, R337). -/

namespace Sys2Proof.Machine

/-! ### A fetch -/

section
variable (k : Nat) (s t : State)

/-- Where the entry that queue `k` fetches next stands in DA. -/
def State.entryDa (s : State) (k : Nat) : Nat :=
  s.sqBase (k / 4) (k % 4) + 64 + 64 * (s.sqFetch (k / 4) (k % 4) % 4096)

/-- The state after the arbiter of control core `cc` moved to queue `k`. -/
def State.turned (s : State) (cc k : Nat) : State := { s with hif := { s.hif with rotor := Tab.set s.hif.rotor cc k } }

/-- The read of that entry's sector. -/
def entryRead (cc k : Nat) (s : State) : List Byte × Nat × Bool × State :=
  readRun (128 + tenantOf (k / 4)) (tenantOf (k / 4)) 1 (s.entryDa k / 512 * 512) (s.turned cc k)

/-- A field of `n` bytes at byte `i` of an entry. -/
def entryNum (b : List Byte) (i n : Nat) : Nat := ofLeBytes ((b.drop i).take n)

/-- The entry that the bytes `b` spell. -/
def fetchedEntry (k : Nat) (b : List Byte) (s : State) : Entry :=
  { id := s.hif.nextId, ctx := k / 4, queue := k % 4, opcode := entryNum b 0 1, flags := entryNum b 1 1, seq := entryNum b 2 2,
    tag := entryNum b 4 4, core := entryNum b 8 1,
    body := (List.range 12).map (fun i => BitVec.ofNat 32 (entryNum b (16 + 4 * i) 4)), st := .fetched }

/-- The entry joins its queue, and FETCH and the fetch count advance; `t` is the state after the read. -/
def entryJoined (k : Nat) (e : Entry) (s t : State) : State :=
  let s1 := { t with hif := { t.hif with entries := t.hif.entries ++ [e], nextId := t.hif.nextId + 1,
                                         fetchCnt := Tab.set t.hif.fetchCnt k (Tab.get s.hif.fetchCnt 0 k + 1) } }
  let s2 := (s1.setFld (R.HIF_SQ_STATUS (tenantOf (k / 4)) (k / 4 % 8) (k % 4)) F.HIF_SQ_STATUS_FETCH
    (ringStep (s.sqSlots (k / 4) (k % 4)) (s.sqFetch (k / 4) (k % 4)))).count (Pg.hifFn (tenantOf (k / 4))) 0 1
  (writeRun (128 + tenantOf (k / 4)) (tenantOf (k / 4)) (s.sqBase (k / 4) (k % 4) + 4) 0
    (leBytes 4 (Tab.get s.hif.fetchCnt 0 k + 1)) 1 (s.sqBase (k / 4) (k % 4)) s2).2

/-- The check of the entry that joined. -/
def entryChecked (k : Nat) (e : Entry) (rest : Nat) (poisoned : Bool) (s t : State) : State :=
  if (s.ctx (k / 4)).tear then entryDone e.id 3 (s.faultOf (k / 4)).1 (s.faultOf (k / 4)).2 t
  else
    let t4 := t.setFld (R.CTL_CX_INFO (k / 4)) F.CTL_CX_INFO_FAULTED 0
    match t4.rejectWhy e rest (Tab.get s.hif.fetchCnt 0 k) poisoned with
    | some (reason, sub) => rejectEntry e reason sub t4
    | none => t4.setCtx (k / 4) { t4.ctx (k / 4) with viol := 0 }

theorem sqFetch_at (cc : Nat) (h : s.nextQueue cc = some k) :
    let b := ((entryRead cc k s).1.drop (s.entryDa k % 512)).take 64
    let e := fetchedEntry k b s
    sqFetch cc s = if (entryRead cc k s).2.2.1 = false then
      errEvent (Pg.hifFn (tenantOf (k / 4))) E.hifFn_Q_BAD ((entryRead cc k s).2.2.2.setFld
        (R.HIF_SQ_CFG (tenantOf (k / 4)) (k / 4 % 8) (k % 4)) F.HIF_SQ_CFG_EN 0)
    else entryChecked k e (entryNum b 9 7) ((entryRead cc k s).2.1 != 0) s (entryJoined k e s (entryRead cc k s).2.2.2) := by
  unfold sqFetch
  rw [h]
  dsimp only
  have hr : readRun (128 + tenantOf (k / 4)) (tenantOf (k / 4)) 1
      ((s.sqBase (k / 4) (k % 4) + 64 + 64 * (s.sqFetch (k / 4) (k % 4) % 4096)) / 512 * 512)
      { s with hif := { s.hif with rotor := Tab.set s.hif.rotor cc k } } = entryRead cc k s := rfl
  rw [hr]
  generalize entryRead cc k s = r
  cases hb : r.2.2.1
  · rfl
  · unfold entryChecked
    rfl

theorem nextQueue_lt (cc : Nat) (h : s.nextQueue cc = some k) : k < 512 := by
  unfold State.nextQueue at h
  dsimp only at h
  rw [Option.map_eq_some_iff] at h
  obtain ⟨i, -, hi⟩ := h
  omega

variable {k s t}

/-- What joining leaves (R334). -/
theorem entryJoined_leaves (cc : Nat) (e : Entry) (hk : k < 512) (hread : DaKept (s.turned cc k) t) :
    (entryJoined k e s t).hif.nextId = s.hif.nextId + 1 ∧ (entryJoined k e s t).hif.entries = s.hif.entries ++ [e]
      ∧ (entryJoined k e s t).sqFetch (k / 4) (k % 4) = ringStep (s.sqSlots (k / 4) (k % 4)) (s.sqFetch (k / 4) (k % 4)) % 8192
      ∧ (entryJoined k e s t).counter (cntKey (Pg.hifFn (tenantOf (k / 4))) 0)
        = (s.counter (cntKey (Pg.hifFn (tenantOf (k / 4))) 0) + 1) % 2 ^ 64
      ∧ (entryJoined k e s t).dtime = s.dtime := by
  unfold entryJoined
  dsimp only
  generalize hs2 : State.count _ (Pg.hifFn (tenantOf (k / 4))) 0 1 = s2
  have hw := writeRun_daKept (128 + tenantOf (k / 4)) (tenantOf (k / 4)) (s.sqBase (k / 4) (k % 4) + 4) 0
    (leBytes 4 (Tab.get s.hif.fetchCnt 0 k + 1)) 1 (s.sqBase (k / 4) (k % 4)) s2
  generalize (writeRun _ _ _ _ _ 1 _ s2).2 = u at hw ⊢
  have hcnt := (CheckKept.daKept (x := k / 4) (q := k % 4) (by omega) (by omega) hread).counter
  have hkept := CheckKept.daKept (x := k / 4) (q := k % 4) (by omega) (by omega) hw
  have hid : s2.hif.nextId = t.hif.nextId + 1 := by rw [← hs2]; rfl
  have hen : s2.hif.entries = t.hif.entries ++ [e] := by rw [← hs2]; rfl
  have hdt : s2.dtime = t.dtime := by rw [← hs2]; rfl
  refine ⟨?_, ?_, ?_, ?_, ?_⟩
  · rw [hkept.nextId, hid, nextId_of_hostCore hread.hostCore]
    rfl
  · rw [entries_of_hostCore hw.hostCore, hen, entries_of_hostCore hread.hostCore]
    rfl
  · rw [State.sqFetch, State.fld, hkept.status, ← State.fld, ← hs2]
    exact State.fld_setFld_same _ _ _ _ (by decide)
  · refine hkept.counter.trans ?_
    rw [← hs2]
    refine (State.counter_count_same _ _ _ _).trans ?_
    exact congrArg (fun c => (c + 1) % 2 ^ 64) hcnt
  · rw [hw.dtime, hdt, hread.dtime]
    rfl

/-- A queue whose entry could not be read is disabled (R334). -/
theorem queueOff_leaves (f x q : Nat) (u : State) (hf : f = x / 8) (hq : q < 4) :
    (errEvent (Pg.hifFn f) E.hifFn_Q_BAD (u.setFld (R.HIF_SQ_CFG f (x % 8) q) F.HIF_SQ_CFG_EN 0)).sqEn x q = false
      ∧ (errEvent (Pg.hifFn f) E.hifFn_Q_BAD (u.setFld (R.HIF_SQ_CFG f (x % 8) q) F.HIF_SQ_CFG_EN 0)).hif.entries = u.hif.entries := by
  refine ⟨?_, errEvent_entries ..⟩
  unfold State.sqEn State.flag
  rw [hf, errEvent_fld_ne _ _ _ _ _ (by unfold R.HIF_SQ_CFG Hdr.errStat; omega) (by unfold R.HIF_SQ_CFG Hdr.errFirst; omega)]
  exact congrArg (· == 1) (State.fld_setFld_same _ _ _ _ (by decide))

theorem CheckKept.sqFetch {x q : Nat} {s t : State} (h : CheckKept x q s t) : t.sqFetch x q = s.sqFetch x q := by
  rw [State.sqFetch, State.fld, h.status]
  rfl

/-! ### The check -/

theorem rejectEntry_kept (e : Entry) (reason sub x q : Nat) (hx : x < 128) (hq : q < 4) (s : State) :
    CheckKept x q s (rejectEntry e reason sub s) := by
  have hlog := ((CheckKept.counted (x := x) (q := q) (tenantOf e.ctx) s).trans (.errEvent (tenantOf e.ctx) E.hifFn_REJECT _)).trans
    ((CheckKept.entryDone e.id 1 reason sub _).trans (.logPartner (tenantOf e.ctx) E.hifFn_REJECT LogKind.pcie (tenantOf e.ctx) _ hx))
  unfold rejectEntry
  dsimp only
  generalize logPartner (Pg.hifFn (tenantOf e.ctx)) _ _ _ _ = t at hlog ⊢
  split
  · exact hlog.trans ((CheckKept.setCtx _ _ _).trans (.ctxFault _ _ _ hx hq))
  · exact hlog.trans (.setCtx _ _ _)

/-- An entry rejected completes, whatever else its rejection does (R337). -/
theorem rejectEntry_entries (e : Entry) (reason sub : Nat) (s : State) :
    (rejectEntry e reason sub s).hif.entries = (entryDone e.id 1 reason sub s).hif.entries := by
  have hlog : (logPartner (Pg.hifFn (tenantOf e.ctx)) E.hifFn_REJECT LogKind.pcie (tenantOf e.ctx) (entryDone e.id 1 reason sub
      (errEvent (Pg.hifFn (tenantOf e.ctx)) E.hifFn_REJECT (s.count (Pg.hifFn (tenantOf e.ctx)) 2 1)))).hif.entries
      = (entryDone e.id 1 reason sub s).hif.entries := by
    rw [entries_of_hostCore (logPartner_hostCore ..)]
    have he := entries_of_hostCore (errEvent_hostCore (Pg.hifFn (tenantOf e.ctx)) E.hifFn_REJECT (s.count (Pg.hifFn (tenantOf e.ctx)) 2 1))
    have hd : (errEvent (Pg.hifFn (tenantOf e.ctx)) E.hifFn_REJECT (s.count (Pg.hifFn (tenantOf e.ctx)) 2 1)).dtime = s.dtime := by
      rw [errEvent_frame]
      rfl
    unfold entryDone
    dsimp only
    rw [hd, he]
    rfl
  unfold rejectEntry
  dsimp only
  generalize logPartner (Pg.hifFn (tenantOf e.ctx)) _ _ _ _ = t at hlog ⊢
  split
  · rw [entries_of_hostCore (ctxFault_hostCore ..)]
    exact hlog
  · exact hlog

theorem entryDone_mem (e : Entry) (a b c : Nat) (s : State) (h : e ∈ s.hif.entries) (hst : e.st = .fetched) :
    { e with st := .done a b c s.dtime } ∈ (entryDone e.id a b c s).hif.entries := by
  refine List.mem_map.2 ⟨e, h, ?_⟩
  rw [if_pos rfl, hst]

theorem rejectWhy_reserved (e : Entry) (rest cnt : Nat) (s : State) (h : e.opcode = 0 ∨ 4 < e.opcode) :
    s.rejectWhy e rest cnt false = some (1, 0) := by
  unfold State.rejectWhy
  rw [if_neg (by decide), if_pos h]

/-- What the check leaves of the entry that joined (R337). -/
theorem entryChecked_leaves (k : Nat) (e : Entry) (rest : Nat) (poisoned : Bool) (s t : State) (hk : k < 512) (he : e ∈ t.hif.entries)
    (hst : e.st = .fetched) :
    CheckKept (k / 4) (k % 4) t (entryChecked k e rest poisoned s t) ∧ ∃ st, { e with st := st } ∈ (entryChecked k e rest poisoned s t).hif.entries
      ∧ ((s.ctx (k / 4)).tear = false → poisoned = false → e.opcode = 0 ∨ 4 < e.opcode → st = .done 1 1 0 t.dtime) := by
  have hx : k / 4 < 128 := by omega
  have hq : k % 4 < 4 := by omega
  have hinfo := CheckKept.info (q := k % 4) F.CTL_CX_INFO_FAULTED 0 t hx
  have he4 : e ∈ (t.setFld (R.CTL_CX_INFO (k / 4)) F.CTL_CX_INFO_FAULTED 0).hif.entries := he
  have hd4 : (t.setFld (R.CTL_CX_INFO (k / 4)) F.CTL_CX_INFO_FAULTED 0).dtime = t.dtime := rfl
  unfold entryChecked
  by_cases htear : (s.ctx (k / 4)).tear = true
  · rw [if_pos htear]
    exact ⟨.entryDone _ _ _ _ _, _, entryDone_mem e _ _ _ t he hst, fun h => by rw [htear] at h; cases h⟩
  · rw [if_neg htear]
    dsimp only
    generalize t.setFld (R.CTL_CX_INFO (k / 4)) F.CTL_CX_INFO_FAULTED 0 = t4 at *
    cases hwhy : t4.rejectWhy e rest (Tab.get s.hif.fetchCnt 0 k) poisoned with
    | none =>
      refine ⟨hinfo.trans (.setCtx _ _ _), e.st, he4, fun _ hp hop => ?_⟩
      rw [hp, rejectWhy_reserved e rest _ t4 hop] at hwhy
      cases hwhy
    | some why =>
      obtain ⟨reason, sub⟩ := why
      refine ⟨hinfo.trans (rejectEntry_kept e reason sub _ _ hx hq t4), .done 1 reason sub t4.dtime, ?_, fun _ hp hop => ?_⟩
      · show _ ∈ (rejectEntry e reason sub t4).hif.entries
        rw [rejectEntry_entries]
        exact entryDone_mem e _ _ _ t4 he4 hst
      · rw [hp, rejectWhy_reserved e rest _ t4 hop] at hwhy
        cases hwhy
        rw [hd4]

end

end Sys2Proof.Machine
end

section
/-! PROOFS. Host entries: DMA entries, completions, and the obligation (R333, R335, R336). -/

namespace Sys2Proof.Machine

/-! ### A DMA entry's post (R333) -/

theorem dmaWords_opcode (s : State) (e : Entry) : Op.opcode (dmaWords s e) = 10 := by
  unfold dmaWords
  dsimp only
  have h10 : bitsOf (10#32).toNat 3 0 = 10 := by decide
  split
  · exact h10
  · exact h10

/-- A DMA entry with room in its channel is posted to it. -/
theorem dmaEntry_posted (s : State) (id n : Nat) (e : Entry) (he : s.entry id = some e) (hstart : s.canStart e = true)
    (hop : e.opcode = 2) (hn : (s.ctx e.ctx).cores[e.core]? = some n) (hdom : s.domOn n = true)
    (hroom : (s.chan n (Dma.chan (dmaWords s e))).queue.length < 8) :
    dmaEntry id s = enqueue n (Dma.chan (dmaWords s e)) ⟨.dma, dmaWords s e, e.ctx, false, some id⟩ (entryStart id s) := by
  have hcore : (s.ctx e.ctx).cores.getD e.core 31 = n := by rw [List.getD_eq_getElem?_getD, hn]; rfl
  have hfull : (s.chan n (Dma.chan (dmaWords s e))).full = false := decide_eq_false (by omega)
  have hchan : (entryStart id s).chan n (Dma.chan (dmaWords s e)) = s.chan n (Dma.chan (dmaWords s e)) := rfl
  unfold dmaEntry withEntry
  rw [he]
  dsimp only
  rw [if_pos ⟨hop, hstart⟩, hcore, hdom, hfull, if_neg (by decide), fwPost, hchan, hfull, if_neg (by decide),
    dmaWords_opcode, if_neg fun h => absurd h.1 (by decide), if_neg (by decide)]

theorem enqueue_entry (n k : Nat) (t : DmaDesc) (s : State) (id : Nat) : (enqueue n k t s).entry id = s.entry id := rfl

theorem enqueue_memories (n k : Nat) (t : DmaDesc) (s : State) : (enqueue n k t s).spad = s.spad ∧ (enqueue n k t s).da = s.da :=
  ⟨rfl, rfl⟩

/-! ### Completions (R335, R336) -/

section
variable (x : Fin 128) (q : Nat) (e : Entry) (status code sub dt : Nat) (s : State)

/-- The state without the entry that completes. -/
def State.without (s : State) (e : Entry) : State :=
  { s with hif := { s.hif with entries := s.hif.entries.filter (fun b => b.id != e.id) } }

/-- The completion written to the ring of its context, and counted. -/
def completionPosted (x : Nat) (e : Entry) (status code sub dt : Nat) (s : State) : State :=
  let s2 := (writeRun (128 + tenantOf x) (tenantOf x) (s.cqBase x + 16 * (s.cqWr x % 4096)) 0
    (completionBytes e (1 - s.cqWr x / 4096 % 2) status code sub dt) 1 ((s.cqBase x + 16 * (s.cqWr x % 4096)) / 512 * 512)
    (s.without e)).2
  (s2.setFld (R.HIF_CQ_STATUS (tenantOf x) (x % 8)) F.HIF_CQ_STATUS_WR (ringStep (s.cqSlots x) (s.cqWr x))).count
    (Pg.hifFn (tenantOf x)) 1 1

theorem completionWrite_at (x : Nat) (hf : s.fnState (tenantOf x) = fnReady) (he : s.oldestEntry x q = some e)
    (hst : e.st = .done status code sub dt) :
    completionWrite x q s = if bitOf e.flags 2 = true ∧ status = 0 then s.without e
      else if bitOf e.flags 0 = true ∨ status ≠ 0 then
        msixSend (tenantOf x) ((completionPosted x e status code sub dt s).fld (R.HIF_CQ_CFG (tenantOf x) (x % 8)) F.HIF_CQ_CFG_VEC)
          (completionPosted x e status code sub dt s)
      else completionPosted x e status code sub dt s := by
  unfold completionWrite
  dsimp only
  rw [if_neg (not_not.2 hf), he]
  dsimp only
  rw [hst]
  rfl

/-- What a message leaves alone. -/
theorem msixSend_leaves (f v : Nat) (t : State) : (msixSend f v t).regs = t.regs ∧ (msixSend f v t).cnt = t.cnt
    ∧ (msixSend f v t).da = t.da ∧ (msixSend f v t).hif.entries = t.hif.entries := by
  unfold msixSend
  split
  · exact ⟨rfl, rfl, rfl, rfl⟩
  · exact ⟨rfl, rfl, rfl, rfl⟩

theorem completionPosted_leaves :
    (completionPosted x e status code sub dt s).hif.entries = (s.without e).hif.entries
      ∧ (completionPosted x e status code sub dt s).cqWr x = ringStep (s.cqSlots x) (s.cqWr x) % 8192
      ∧ (completionPosted x e status code sub dt s).counter (cntKey (Pg.hifFn (tenantOf x)) 1)
        = (s.counter (cntKey (Pg.hifFn (tenantOf x)) 1) + 1) % 2 ^ 64
      ∧ (completionPosted x e status code sub dt s).da = (writeRun (128 + tenantOf x) (tenantOf x)
        (s.cqBase x + 16 * (s.cqWr x % 4096)) 0 (completionBytes e (1 - s.cqWr x / 4096 % 2) status code sub dt) 1
        ((s.cqBase x + 16 * (s.cqWr x % 4096)) / 512 * 512) (s.without e)).2.da := by
  have hx := x.isLt
  unfold completionPosted
  dsimp only
  have hw := writeRun_daKept (128 + tenantOf x) (tenantOf x) (s.cqBase x + 16 * (s.cqWr x % 4096)) 0
    (completionBytes e (1 - s.cqWr x / 4096 % 2) status code sub dt) 1 ((s.cqBase x + 16 * (s.cqWr x % 4096)) / 512 * 512)
    (s.without e)
  generalize (writeRun _ _ _ _ _ 1 _ (s.without e)).2 = u at hw ⊢
  refine ⟨entries_of_hostCore hw.hostCore, State.fld_setFld_same _ _ _ _ (by decide), ?_, rfl⟩
  refine (State.counter_count_same _ _ _ _).trans (congrArg (fun c => (c + 1) % 2 ^ 64) ?_)
  exact hw.counter _ (by unfold cntKey Pg.hifFn Pg.mt1 tenantOf; omega) (by unfold cntKey Pg.hifFn Pg.rel2 tenantOf; omega)

end

/-- Settles O36: a fetched entry joins its queue or its queue is disabled, a DMA entry is posted, a fence ends, and each
completion is written once. -/
theorem entriesAreFetchedAndCompleted : Obligations.EntriesAreFetchedAndCompleted := by
  unfold Obligations.EntriesAreFetchedAndCompleted
  intro s
  refine ⟨?_, ?_, ?_⟩
  · intro cc k hk x q f da r op
    have hlt := nextQueue_lt k s cc hk
    have hat := sqFetch_at k s cc hk
    have hrr : entryRead cc k s = r := rfl
    have hread : DaKept (s.turned cc k) r.2.2.2 := readRun_daKept ..
    rw [hrr] at hat
    dsimp only at hat
    refine ⟨fun hno => ?_, fun hok => ?_⟩
    · rw [if_pos hno] at hat
      obtain ⟨hen, hent⟩ := queueOff_leaves f x q r.2.2.2 rfl (Nat.mod_lt _ (by decide))
      exact ⟨_, congrArg Host.Outcome.next hat, hen, hent.trans ((entries_of_hostCore hread.hostCore : _) : r.2.2.2.hif.entries = (s.turned cc k).hif.entries), errEvent_sets _ _ _ (by decide)⟩
    · rw [if_neg (by rw [hok]; decide)] at hat
      obtain ⟨hid, hent, hfetch, hcnt, hdt⟩ := entryJoined_leaves cc (fetchedEntry k ((r.1.drop (da % 512)).take 64) s) hlt hread
      have hmem : fetchedEntry k ((r.1.drop (da % 512)).take 64) s
          ∈ (entryJoined k (fetchedEntry k ((r.1.drop (da % 512)).take 64) s) s r.2.2.2).hif.entries := by
        rw [hent]
        exact List.mem_append_right _ List.mem_cons_self
      obtain ⟨hk2, st, hst, hrej⟩ := entryChecked_leaves k _ (entryNum ((r.1.drop (da % 512)).take 64) 9 7) (r.2.1 != 0) s _ hlt hmem rfl
      refine ⟨_, congrArg Host.Outcome.next hat, hk2.nextId.trans hid, ⟨_, hst, rfl, rfl, rfl, rfl, fun ht hp hop => ?_⟩,
        hk2.sqFetch.trans hfetch, hk2.counter.trans hcnt⟩
      rw [← hdt]
      exact hrej ht (by rw [hp]; rfl) hop
  · intro id e he hstart
    refine ⟨fun n hop hn _ hdom => ?_, fun hop hall => ?_⟩
    · intro ch hroom
      have hpost := dmaEntry_posted s id n e he hstart hop hn hdom hroom
      obtain ⟨hspad, hda⟩ := enqueue_memories n ch ⟨.dma, dmaWords s e, e.ctx, false, some id⟩ (entryStart id s)
      refine ⟨_, congrArg Host.Outcome.next hpost, ?_, ?_, hspad, hda⟩
      · rw [enqueue_chan]
        rfl
      · rw [enqueue_entry]
        exact entryStart_st he (canStart_st hstart)
    · refine congrArg Host.Outcome.next (?_ : fence id s = _)
      unfold fence withEntry
      rw [he]
      dsimp only
      rw [if_pos ⟨hop, hstart⟩, if_pos hall]
  · intro x q e status code sub dt hf he hst s1 p da
    have hat := completionWrite_at q e status code sub dt s x hf he hst
    refine ⟨fun h2 h0 => ?_, fun h => ?_⟩
    · rw [if_pos ⟨h2, h0⟩] at hat
      exact congrArg Host.Outcome.next hat
    · have hno : ¬ (bitOf e.flags 2 = true ∧ status = 0) := by
        rintro ⟨h2, h0⟩
        rcases h with h | h
        · rw [h] at h2; cases h2
        · exact h h0
      rw [if_neg hno] at hat
      have hp := completionPosted_leaves x e status code sub dt s
      refine ⟨_, congrArg Host.Outcome.next hat, ?_⟩
      generalize completionPosted x e status code sub dt s = u at hp ⊢
      obtain ⟨he1, hwr, hcnt, hda⟩ := hp
      split
      · obtain ⟨hregs, hc, hd, hent⟩ := msixSend_leaves (tenantOf x) (u.fld (R.HIF_CQ_CFG (tenantOf x) (x % 8)) F.HIF_CQ_CFG_VEC) u
        generalize msixSend (tenantOf x) _ u = v at hregs hc hd hent ⊢
        refine ⟨hent.trans he1, ?_, ?_, hd.trans hda⟩
        · rw [← hwr]
          unfold State.cqWr State.fld State.reg
          rw [hregs]
        · rw [← hcnt]
          unfold State.counter
          rw [hc]
      · exact ⟨he1, hwr, hcnt, hda⟩

end Sys2Proof.Machine
end

section
/-! PROOFS. The scheduler: charges, and a queue of no or one job (R359 to R361). -/

namespace Sys2Proof.Machine

/-! ### Charges (R361) -/

/-- Beside the scheduler's record, only virtual times of contexts differ. -/
structure VtOnly (s t : State) : Prop where
  frame : t = { s with ctl := t.ctl, ctxs := t.ctxs }
  upd : t.ctl.upd = s.ctl.upd
  ctx : ∀ y, t.ctx y = { s.ctx y with vt := (t.ctx y).vt }

namespace VtOnly

theorem refl (s : State) : VtOnly s s := ⟨rfl, rfl, fun _ => rfl⟩

theorem trans {s t u : State} (h : VtOnly s t) (k : VtOnly t u) : VtOnly s u where
  frame := by rw [k.frame, h.frame]
  upd := k.upd.trans h.upd
  ctx y := by rw [k.ctx y, h.ctx y]

theorem modCtl (f : Ctl → Ctl) (s : State) (h : (f s.ctl).upd = s.ctl.upd) : VtOnly s (s.modCtl f) := ⟨rfl, h, fun _ => rfl⟩

theorem setVtCtx (x v : Nat) (s : State) : VtOnly s (setVtCtx x v s) where
  frame := rfl
  upd := rfl
  ctx y := by
    unfold Machine.setVtCtx State.modCtx State.setCtx State.ctx
    by_cases e : y = x
    · rw [e, Tab.get_set_same]
    · rw [Tab.get_set_ne _ _ _ _ _ e]

theorem setVtTen (k v : Nat) (s : State) : VtOnly s (setVtTen k v s) := ⟨rfl, rfl, fun _ => rfl⟩

theorem setJob (j : Job) (s : State) : VtOnly s (s.setJob j) := ⟨rfl, rfl, fun _ => rfl⟩

theorem newSlice (j : Job) (aclk : Nat) (s : State) : VtOnly s (newSlice j aclk s) := .setJob _ s

theorem chargeJob (aclk : Nat) (s : State) (j : Job) : VtOnly s (chargeJob aclk s j) := by
  unfold Machine.chargeJob
  split
  · exact refl s
  · exact ((VtOnly.setVtCtx _ _ s).trans (.setVtTen _ _ _)).trans (.setJob _ _)

theorem wakeVt (x : Nat) (s : State) : VtOnly s (wakeVt x s) := by
  unfold Machine.wakeVt
  split
  · exact refl s
  · exact (VtOnly.setVtTen _ _ s).trans (.setVtCtx _ _ _)

section
variable {s t : State} (h : VtOnly s t)
include h

theorem reg (a : Nat) : t.reg a = s.reg a := by rw [h.frame]; rfl
theorem fld (a : Nat) (f : Fld) : t.fld a f = s.fld a f := by rw [State.fld, h.reg a, State.fld]
theorem counter (k : Nat) : t.counter k = s.counter k := by rw [h.frame]; rfl
theorem hif : t.hif = s.hif := by rw [h.frame]
theorem rel : t.rel = s.rel := by rw [h.frame]
theorem cores : t.cores = s.cores := by rw [h.frame]
theorem dtime : t.dtime = s.dtime := by rw [h.frame]
theorem dom (d : Nat) : t.domOn d = s.domOn d := by rw [h.frame]; rfl
theorem ctxCores (y : Nat) : (t.ctx y).cores = (s.ctx y).cores := by rw [h.ctx y]
theorem ctxFault (y : Nat) : (t.ctx y).fault = (s.ctx y).fault := by rw [h.ctx y]
theorem ctxTear (y : Nat) : (t.ctx y).tear = (s.ctx y).tear := by rw [h.ctx y]
theorem jobCores (j : Job) : t.jobCores j = s.jobCores j := by
  unfold State.jobCores
  rw [h.ctxCores]
theorem inService (n : Nat) : t.inService n = s.inService n := by rw [h.frame]; rfl
theorem fnState (f : Nat) : t.fnState f = s.fnState f := by rw [h.frame]; rfl
end

end VtOnly

/-- A job charged up to ACLK cycle `aclk`. -/
def Job.charged (j : Job) (aclk : Nat) : Job := { j with mark := max j.mark aclk, ran := j.ran + (aclk - j.mark) }

section
variable (aclk : Nat) (s : State)

/-- What the charge of a job that holds cores costs its tenant and its context (R361). -/
structure ChargedFor (aclk : Nat) (j : Job) (s t : State) : Prop where
  only : VtOnly s t
  ten : t.vtTen (tenantOf j.ctx) = (s.vtTen (tenantOf j.ctx) + (aclk - j.mark) * j.held.length * 1000
    / s.fld (R.CTL_TEN_SHARE (tenantOf j.ctx)) F.CTL_TEN_SHARE_SHARE) % 2 ^ 64
  vt : (t.ctx j.ctx).vt = ((s.ctx j.ctx).vt + (aclk - j.mark) * j.held.length * 1000
    / s.fld (R.CTL_CX_SHARE j.ctx) F.CTL_CX_SHARE_SHARE) % 2 ^ 64

theorem chargeJob_charges (j : Job) (hj : s.ctl.jobs = [j]) (hheld : j.held ≠ []) :
    ChargedFor aclk j s (chargeJob aclk s j) ∧ (chargeJob aclk s j).ctl.jobs = [j.charged aclk] := by
  have hempty : ¬ j.held.isEmpty = true := by simpa using hheld
  have hx : ((chargeJob aclk s j).ctx j.ctx).vt = ((s.ctx j.ctx).vt + (aclk - j.mark) * j.held.length * 1000
      / s.fld (R.CTL_CX_SHARE j.ctx) F.CTL_CX_SHARE_SHARE) % 2 ^ 64 := by
    unfold chargeJob
    rw [if_neg hempty]
    show ((setVtCtx j.ctx _ s).ctx j.ctx).vt = _
    unfold setVtCtx State.modCtx State.setCtx State.ctx
    rw [Tab.get_set_same]
  have ht : (chargeJob aclk s j).vtTen (tenantOf j.ctx) = (s.vtTen (tenantOf j.ctx) + (aclk - j.mark) * j.held.length * 1000
      / s.fld (R.CTL_TEN_SHARE (tenantOf j.ctx)) F.CTL_TEN_SHARE_SHARE) % 2 ^ 64 := by
    unfold chargeJob
    rw [if_neg hempty]
    exact Tab.get_set_same ..
  have hjobs : (chargeJob aclk s j).ctl.jobs = [j.charged aclk] := by
    unfold chargeJob
    rw [if_neg hempty]
    show List.map _ s.ctl.jobs = _
    rw [hj, List.map_singleton]
    exact congrArg (fun b => [b]) (if_pos rfl)
  exact ⟨⟨.chargeJob aclk s j, ht, hx⟩, hjobs⟩

/-- ACLK has reached `aclk`. -/
def State.clocked (s : State) (aclk : Nat) : State := s.modCtl (fun c => { c with aclk := max c.aclk aclk })

theorem chargeAll_none (h : s.ctl.jobs = []) : chargeAll aclk s = s.clocked aclk := by
  unfold chargeAll
  rw [h]
  rfl

theorem chargeAll_one (j : Job) (h : s.ctl.jobs = [j]) : chargeAll aclk s = chargeJob aclk (s.clocked aclk) j := by
  unfold chargeAll
  rw [h]
  rfl

theorem clocked_only : VtOnly s (s.clocked aclk) := .modCtl _ s rfl

/-! ### A scheduling point (R360, R361) -/

/-- The last two steps of a scheduling point. -/
def decided (aclk : Nat) (s : State) : State :=
  pumpJobs aclk (decideLoop aclk (s.ctl.jobs.length + 1) (s.candidates aclk)
    ((s.ctl.jobs.filter (fun j => j.st == .starting)).flatMap s.jobCores) s)

theorem schedule_decides : schedule aclk s = decided aclk (chargeAll aclk s) := rfl

theorem decided_none (h : s.ctl.jobs = []) : decided aclk s = s := by
  have hc : s.candidates aclk = [] := by
    unfold State.candidates
    rw [h]
    rfl
  unfold decided
  rw [hc, h]
  show pumpJobs aclk s = s
  unfold pumpJobs
  rw [h]
  rfl

/-- The jobs that were chosen start. -/
theorem pumpJobs_idle (h : ∀ j ∈ s.ctl.jobs, j.st ≠ .starting) : pumpJobs aclk s = s := by
  unfold pumpJobs
  generalize s.ctl.jobs = l at h
  induction l generalizing s with
  | nil => rfl
  | cons j l ih =>
    rw [List.foldl_cons, if_neg (h j List.mem_cons_self)]
    exact ih s fun k hk => h k (List.mem_cons_of_mem _ hk)

/-- The only job runs on where its slice ended. -/
theorem decided_runs_on (j : Job) (hj : s.ctl.jobs = [j]) (hst : j.st = .running) (hover : j.sliceOver aclk = true)
    (hf : s.fnState (tenantOf j.ctx) = fnReady) : decided aclk s = newSlice j aclk s := by
  have hc : s.candidates aclk = [j] := by
    unfold State.candidates
    rw [hj, List.filter_cons_of_pos (by rw [hst]; simp [hover, hf]), List.filter_nil]
  have hr : (s.ctl.jobs.filter (fun j => j.st == .starting)).flatMap s.jobCores = [] := by
    rw [hj, List.filter_cons_of_neg (by rw [hst]; decide), List.filter_nil, List.flatMap_nil]
  have hrest : [j].filter (fun k : Job => k.id != j.id) = [] := by simp
  have hloop : decideLoop aclk (s.ctl.jobs.length + 1) [j] [] s = newSlice j aclk s := by
    rw [hj]
    show decideLoop aclk 2 [j] [] s = _
    unfold decideLoop
    have hchoose : s.choose [j] = some j := rfl
    rw [hchoose]
    dsimp only
    rw [if_neg (by simp), if_pos hst, hrest]
    rfl
  unfold decided
  rw [hc, hr, hloop]
  refine pumpJobs_idle aclk _ fun k hk => ?_
  obtain ⟨b, hb, hk⟩ := List.mem_map.1 hk
  rw [hj, List.mem_singleton] at hb
  rw [hb, if_pos rfl] at hk
  rw [← hk, hst]
  decide

/-- The only job, which is new, is chosen and started on its cores. -/
theorem decided_starts (j : Job) (hj : s.ctl.jobs = [j]) (hst : j.st = .runnable) (hheld : j.held = []) (hready : s.jobReady j = true)
    (hon : ∀ n ∈ s.jobCores j, s.domOn n = true) :
    decided aclk s = runJob aclk { j with st := .starting } (s.setJob { j with st := .starting }) := by
  have hc : s.candidates aclk = [j] := by
    unfold State.candidates
    rw [hj, List.filter_cons_of_pos (by rw [hst]; exact hready), List.filter_nil]
  have hr : (s.ctl.jobs.filter (fun j => j.st == .starting)).flatMap s.jobCores = [] := by
    rw [hj, List.filter_cons_of_neg (by rw [hst]; decide), List.filter_nil, List.flatMap_nil]
  have hrest : [j].filter (fun k : Job => k.id != j.id) = [] := by simp
  have hfree : (s.jobCores j).all (s.coreFree aclk) = true := by
    rw [List.all_eq_true]
    intro n _
    unfold State.coreFree
    rw [hj, List.all_cons, hheld]
    rfl
  have hpre : preempt (s.jobCores j) s = s := by
    unfold preempt
    rw [hj, List.foldl_cons, if_neg fun h => by rw [hst] at h; exact absurd h.1 (by decide)]
    rfl
  have hloop : decideLoop aclk (s.ctl.jobs.length + 1) [j] [] s = s.setJob { j with st := .starting } := by
    rw [hj]
    show decideLoop aclk 2 [j] [] s = _
    unfold decideLoop
    have hchoose : s.choose [j] = some j := rfl
    rw [hchoose]
    dsimp only
    rw [if_neg (by simp), if_neg (by rw [hst]; decide), if_pos hfree, hpre, hrest]
    rfl
  have hjobs : (s.setJob { j with st := .starting }).ctl.jobs = [{ j with st := .starting }] := by
    show List.map _ s.ctl.jobs = _
    rw [hj, List.map_singleton]
    exact congrArg (fun b => [b]) (if_pos rfl)
  have hcores : (s.setJob { j with st := .starting }).jobCores { j with st := .starting } = s.jobCores j := rfl
  unfold decided
  rw [hc, hr, hloop]
  have hdom (n : Nat) : (s.setJob { j with st := .starting }).domOn n = s.domOn n := rfl
  generalize s.setJob { j with st := .starting } = u at hjobs hcores hdom ⊢
  unfold pumpJobs
  rw [hjobs, List.foldl_cons, if_pos rfl, hjobs, List.foldl_nil]
  dsimp only
  rw [hcores, if_neg (by simp [hheld]), if_pos]
  rw [List.all_eq_true]
  intro n hn
  rw [hdom]
  exact hon n hn

end
end Sys2Proof.Machine
end

section
/-! PROOFS. The start of a job on its cores (R356, R362). -/

namespace Sys2Proof.Machine

/-! ### What a core's switch and start leave alone -/

/-- A word of the register pages of a core below 32. -/
def CoreWord (a : Nat) : Prop := 0x100000 ≤ a ∧ a < 0x300000

/-- Beside the cores, only their registers, saved images and the count of switches differ. -/
structure CoreSide (s t : State) : Prop where
  frame : t = { s with regs := t.regs, cores := t.cores, ctxs := t.ctxs, cnt := t.cnt }
  reg : ∀ a, ¬ CoreWord a → t.reg a = s.reg a
  ctx : ∀ y, t.ctx y = { s.ctx y with saved := (t.ctx y).saved }
  counter : ∀ k, k ≠ cntKey Pg.ctl0 2 → t.counter k = s.counter k

/-- The word of semaphore `k` on a core of a job that has just started. -/
def Job.semWord (j : Job) (k : Nat) : Word := if k = j.sem then BitVec.ofNat 32 j.batch else 0

/-- The semaphores of core `n` set for a job that starts. -/
def semsSet (j : Job) (n : Nat) (s : State) : State := iter 64 (fun k t => t.setReg (R.SEQ_SEM n k) (j.semWord k)) s

theorem startCore_eq (j : Job) (s : State) (n : Nat) : startCore j s n = seqStart n (((semsSet j n s).setFld (R.SEQ_ENTRY n)
    F.SEQ_ENTRY_SLOT ((s.placeOf j.ctx (((s.ctx j.ctx).cores.findIdx? (· == n)).getD 0)).imemBase + j.slot)).setSeqState n
    Seq.halted) := rfl

namespace CoreSide

theorem refl (s : State) : CoreSide s s := ⟨rfl, fun _ _ => rfl, fun _ => rfl, fun _ _ => rfl⟩

theorem trans {s t u : State} (h : CoreSide s t) (k : CoreSide t u) : CoreSide s u where
  frame := by rw [k.frame, h.frame]
  reg a ha := (k.reg a ha).trans (h.reg a ha)
  ctx y := by rw [k.ctx y, h.ctx y]
  counter c hc := (k.counter c hc).trans (h.counter c hc)

theorem setFld (a : Nat) (f : Fld) (v : Nat) (s : State) (ha : CoreWord a) : CoreSide s (s.setFld a f v) where
  frame := rfl
  reg _ hb := State.reg_setFld_ne _ _ _ _ _ fun e => hb (e ▸ ha)
  ctx _ := rfl
  counter _ _ := rfl

theorem setReg (a : Nat) (v : Word) (s : State) (ha : CoreWord a) : CoreSide s (s.setReg a v) where
  frame := rfl
  reg _ hb := State.reg_setReg_ne _ _ _ _ fun e => hb (e ▸ ha)
  ctx _ := rfl
  counter _ _ := rfl

theorem modCore (n : Nat) (f : Core → Core) (s : State) : CoreSide s (s.modCore n f) :=
  ⟨rfl, fun _ _ => rfl, fun _ => rfl, fun _ _ => rfl⟩

theorem modCtx (x : Nat) (f : CtxRec → CtxRec) (s : State) (hf : ∀ c, f c = { c with saved := (f c).saved }) :
    CoreSide s (s.modCtx x f) where
  frame := rfl
  reg _ _ := rfl
  ctx y := by
    by_cases e : y = x
    · have h : (s.modCtx x f).ctx x = f (s.ctx x) := Tab.get_set_same ..
      rw [e, h]
      exact hf _
    · have h : (s.modCtx x f).ctx y = s.ctx y := Tab.get_set_ne _ _ _ _ _ e
      rw [h]
  counter _ _ := rfl

theorem seqStatus_word {n : Nat} (hn : n < 32) : CoreWord (R.SEQ_STATUS n) := by
  unfold CoreWord R.SEQ_STATUS Pg.seq
  omega

theorem arrStatus_word {n : Nat} (hn : n < 32) : CoreWord (R.ARR_STATUS n) := by
  unfold CoreWord R.ARR_STATUS Pg.arr0
  omega

theorem setSeqState (n v : Nat) (s : State) (hn : n < 32) : CoreSide s (s.setSeqState n v) := setFld _ _ v s (seqStatus_word hn)

theorem setPc (n v : Nat) (s : State) (hn : n < 32) : CoreSide s (s.setPc n v) := setFld _ _ v s (seqStatus_word hn)

theorem coreStatus (n : Nat) (s : State) (hn : n < 32) : CoreSide s (coreStatus n s) := by
  have hf := coreStatus_regsOnly n s
  have hr := fun a (ha : ¬ CoreWord a) => coreStatus_reg_ne n s (a := a) (fun e => ha (e ▸ arrStatus_word hn))
    (fun e => ha (e ▸ seqStatus_word hn))
  generalize Machine.coreStatus n s = t at hf hr ⊢
  unfold RegsOnly at hf
  refine ⟨?_, hr, fun y => ?_, fun c _ => ?_⟩
  · rw [hf]
  · rw [hf]
    rfl
  · rw [hf]
    rfl

theorem counted (s : State) : CoreSide s (s.count Pg.ctl0 2 1) :=
  ⟨rfl, fun _ _ => rfl, fun _ => rfl, fun _ hc => State.counter_count_ne _ _ _ _ _ hc⟩

theorem iter (k : Nat) (f : Nat → State → State) (hf : ∀ i, i < k → ∀ t, CoreSide t (f i t)) (s : State) :
    CoreSide s (iter k f s) := by
  induction k with
  | zero => exact refl s
  | succ k ih => exact (ih fun i hi => hf i (Nat.lt_succ_of_lt hi)).trans (hf k (Nat.lt_succ_self k) _)

theorem foldl {β : Type} (f : State → β → State) (l : List β) (hf : ∀ b ∈ l, ∀ t, CoreSide t (f t b)) (s : State) :
    CoreSide s (l.foldl f s) := by
  induction l generalizing s with
  | nil => exact refl s
  | cons b l ih => exact (hf b List.mem_cons_self s).trans (ih (fun c hc => hf c (List.mem_cons_of_mem _ hc)) _)

theorem settleCore (n : Nat) (s : State) (hw : (s.core n).wait = .none) (hn : n < 32) : CoreSide s (settleCore n s) := by
  obtain h | h := settleCore_idle n s hw
  · rw [h]
    exact coreStatus n s hn
  · rw [h]
    exact ((modCore n _ s).trans (setSeqState n _ _ hn)).trans (coreStatus n _ hn)

theorem switchOut (n : Nat) (s : State) : CoreSide s (switchOut n s) := by
  unfold Machine.switchOut
  dsimp only
  cases (s.core n).ctx with
  | none => exact refl s
  | some x => exact (modCtx x _ s fun _ => rfl).trans (modCore n _ _)

/-- A context's image restored on core `n`. -/
theorem restored (n pc st : Nat) (w : Nat → Word) (m : Nat → Word) (g o : Word) (s : State) (hn : n < 32) :
    CoreSide s (Machine.coreStatus n (((Machine.iter 32 (fun k t => t.setReg (R.SEQ_MODEL n k) (m k))
      (Machine.iter 64 (fun k t => t.setReg (R.SEQ_SEM n k) (w k)) ((s.setPc n pc).setSeqState n st))).setReg (R.ARR_GANG n) g).setReg
      (R.ARR_OUT_CFG n) o)) := by
  have h1 := ((setPc n pc s hn).trans (setSeqState n st _ hn)).trans (iter 64 _ (fun k hk t => setReg (R.SEQ_SEM n k) (w k) t
    (by unfold CoreWord R.SEQ_SEM Pg.seq; omega)) _)
  have h2 := h1.trans (iter 32 _ (fun k hk t => setReg (R.SEQ_MODEL n k) (m k) t (by unfold CoreWord R.SEQ_MODEL Pg.seq; omega)) _)
  generalize Machine.iter 32 _ _ = t at h2 ⊢
  exact ((h2.trans (setReg _ g t (by unfold CoreWord R.ARR_GANG Pg.arr0; omega))).trans
    (setReg _ o _ (by unfold CoreWord R.ARR_OUT_CFG Pg.arr0; omega))).trans (coreStatus n _ hn)

theorem switchIn (n x : Nat) (s : State) (hn : n < 32) : CoreSide s (switchIn n x s) :=
  ((modCtx x _ s fun _ => rfl).trans (modCore n _ _)).trans (restored n _ _ _ _ _ _ _ hn)

theorem switchCore (n x : Nat) (s : State) (hn : n < 32) : CoreSide s (switchCore n x s) := by
  have hdrain := setFld (R.SEQ_CTRL n) F.SEQ_CTRL_DRAIN_REQ 0 s (by unfold CoreWord R.SEQ_CTRL Pg.seq; omega)
  unfold Machine.switchCore
  dsimp only
  split
  · split
    · exact (hdrain.trans (setSeqState n _ _ hn)).trans (coreStatus n _ hn)
    · exact hdrain
  · exact ((hdrain.trans (switchOut n _)).trans (switchIn n x _ hn)).trans (counted _)

theorem seqStart (n : Nat) (s : State) (hn : n < 32) : CoreSide s (seqStart n s) := by
  unfold Machine.seqStart
  split
  · refine CoreSide.trans (((modCore n _ s).trans (setPc n _ _ hn)).trans (setSeqState n _ _ hn)) (settleCore n _ ?_ hn)
    rw [setSeqState_core, setPc_core, State.core_modCore_same]
  · exact refl s

theorem startCore (j : Job) (s : State) (n : Nat) (hn : n < 32) : CoreSide s (startCore j s n) := by
  have h := iter 64 _ (fun k hk t => setReg (R.SEQ_SEM n k) (j.semWord k) t (by unfold CoreWord R.SEQ_SEM Pg.seq; omega)) s
  rw [startCore_eq]
  unfold semsSet
  generalize Machine.iter 64 (fun k t => t.setReg (R.SEQ_SEM n k) (j.semWord k)) s = t at h ⊢
  exact ((h.trans (setFld _ _ _ t (by unfold CoreWord R.SEQ_ENTRY Pg.seq; omega))).trans (setSeqState n _ _ hn)).trans (seqStart n _ hn)

theorem setGang (n : Nat) (w : Word) (s : State) (hn : n < 32) : CoreSide s (s.setReg (R.ARR_GANG n) w) :=
  setReg _ w s (by unfold CoreWord R.ARR_GANG Pg.arr0; omega)

theorem setGangs (g fuel : Nat) (cs : List Nat) (s : State) (hcs : ∀ n ∈ cs, n < 32) : CoreSide s (setGangs g fuel cs s) := by
  induction fuel generalizing cs s with
  | zero => exact refl s
  | succ fuel ih =>
    unfold Machine.setGangs
    cases cs with
    | nil => exact refl s
    | cons c cs =>
      have hmem (i : Nat) : ((c :: cs).take (2 ^ g)).getD i 31 < 32 := by
        rw [List.getD_eq_getElem?_getD]
        cases hi : ((c :: cs).take (2 ^ g))[i]? with
        | none => decide
        | some n => exact hcs n (List.mem_of_mem_take (List.mem_of_getElem? hi))
      exact (foldl _ _ (fun i _ t => setGang _ _ t (hmem i)) s).trans (ih _ _ fun n hn => hcs n (List.mem_of_mem_drop hn))

/-- The cores of a job switched to its context (R362). -/
theorem switched (x : Nat) (cs : List Nat) (s : State) (hcs : ∀ n ∈ cs, n < 32) :
    CoreSide s (cs.foldl (fun t n => Machine.switchCore n x t) s) := foldl _ _ (fun n hn t => switchCore n x t (hcs n hn)) s

/-- The cores of a new job started (R356). -/
theorem started (j : Job) (cs : List Nat) (s : State) (hcs : ∀ n ∈ cs, n < 32) :
    CoreSide s (cs.foldl (Machine.startCore j) (Machine.setGangs j.gang 16 cs (cs.foldl (fun t n => t.setReg (R.ARR_GANG n) 0) s))) :=
  ((foldl _ _ (fun n hn t => setGang n 0 t (hcs n hn)) s).trans (setGangs _ _ _ _ hcs)).trans
    (foldl _ _ (fun n hn t => startCore j t n (hcs n hn)) _)

end CoreSide

/-! ### The semaphores of a job's cores (R356) -/

section
variable (j : Job)

theorem iter_sems (n : Nat) (w : Nat → Word) (K : Nat) (s : State) (k : Nat) :
    (iter K (fun k t => t.setReg (R.SEQ_SEM n k) (w k)) s).reg (R.SEQ_SEM n k) = if k < K then w k else s.reg (R.SEQ_SEM n k) := by
  induction K with
  | zero => rfl
  | succ K ih =>
    show (State.setReg _ (R.SEQ_SEM n K) (w K)).reg _ = _
    by_cases h : k = K
    · rw [h, State.reg_setReg_same, if_pos (Nat.lt_succ_self K)]
    · have hne : R.SEQ_SEM n k ≠ R.SEQ_SEM n K := by unfold R.SEQ_SEM; omega
      rw [State.reg_setReg_ne _ _ _ _ hne, ih]
      by_cases hk : k < K
      · rw [if_pos hk, if_pos (by omega)]
      · rw [if_neg hk, if_neg (by omega)]

theorem seqStart_sem (n m k : Nat) (hk : k < 64) (s : State) : (seqStart n s).reg (R.SEQ_SEM m k) = s.reg (R.SEQ_SEM m k) := by
  have h1 : R.SEQ_SEM m k ≠ R.SEQ_STATUS n := by unfold R.SEQ_SEM R.SEQ_STATUS Pg.seq; omega
  have h2 : R.SEQ_SEM m k ≠ R.ARR_STATUS n := by unfold R.SEQ_SEM R.ARR_STATUS Pg.seq Pg.arr0; omega
  unfold seqStart
  split
  · have hw : ((((s.modCore n (fun c => { c with ctx := some (c.ctx.getD 0), wait := .none, loops := [], doneSig := false })).setPc n
        (s.fld (R.SEQ_ENTRY n) F.SEQ_ENTRY_SLOT)).setSeqState n Seq.running).core n).wait = .none := by
      rw [setSeqState_core, setPc_core, State.core_modCore_same]
    rw [(settleCore_idle_keeps n _ hw).1 _ h2 h1, State.setSeqState, State.reg_setFld_ne _ _ _ _ _ h1, State.setPc,
      State.reg_setFld_ne _ _ _ _ _ h1]
    rfl
  · rfl

/-- A core's start sets its own semaphores and keeps those of every other core. -/
theorem startCore_sem (s : State) (n m k : Nat) (hk : k < 64) : (startCore j s n).reg (R.SEQ_SEM m k)
    = if m = n then j.semWord k else s.reg (R.SEQ_SEM m k) := by
  have h1 : R.SEQ_SEM m k ≠ R.SEQ_STATUS n := by unfold R.SEQ_SEM R.SEQ_STATUS Pg.seq; omega
  have h3 : R.SEQ_SEM m k ≠ R.SEQ_ENTRY n := by unfold R.SEQ_SEM R.SEQ_ENTRY Pg.seq; omega
  rw [startCore_eq, seqStart_sem n m k hk, State.setSeqState, State.reg_setFld_ne _ _ _ _ _ h1, State.reg_setFld_ne _ _ _ _ _ h3]
  by_cases h : m = n
  · rw [h, if_pos rfl, semsSet, iter_sems n j.semWord, if_pos hk]
  · rw [if_neg h]
    exact iter_setReg_reg 64 (fun k => R.SEQ_SEM n k) _ s _ fun i hi => by unfold R.SEQ_SEM Pg.seq; omega

theorem startCores_sem (cs : List Nat) (s : State) (m k : Nat) (hk : k < 64) :
    (cs.foldl (startCore j) s).reg (R.SEQ_SEM m k) = if m ∈ cs then j.semWord k else s.reg (R.SEQ_SEM m k) := by
  induction cs generalizing s with
  | nil => rfl
  | cons n cs ih =>
    rw [List.foldl_cons, ih, startCore_sem j s n m k hk]
    by_cases hm : m ∈ cs
    · rw [if_pos hm, if_pos (List.mem_cons_of_mem _ hm)]
    · by_cases hn : m = n
      · rw [if_neg hm, if_pos hn, if_pos (by rw [hn]; exact List.mem_cons_self)]
      · rw [if_neg hm, if_neg hn, if_neg (by simp [hm, hn])]

/-- What the start of a new job leaves (R356). -/
theorem runJob_starts (aclk : Nat) (s : State) (j : Job) (hj : s.ctl.jobs = [j]) (hb : j.begun = false)
    (hcs : ∀ n ∈ s.jobCores j, n < 32) :
    let t := runJob aclk j s
    t.ctl.jobs.map (fun j => (j.id, j.ctx, j.st, j.held)) = [(j.id, j.ctx, .running, s.jobCores j)]
      ∧ t.hif.entries = (entryStart j.id s).hif.entries
      ∧ t.counter (cntKey Pg.ctl0 0) = (s.counter (cntKey Pg.ctl0 0) + 1) % 2 ^ 64
      ∧ ∀ n ∈ s.jobCores j, ∀ k, k < 64 → t.reg (R.SEQ_SEM n k) = j.semWord k := by
  have hstarted := (CoreSide.switched j.ctx (s.jobCores j) s hcs).trans (.started j (s.jobCores j) _ hcs)
  have hsem := fun n k hk => startCores_sem j (s.jobCores j) (setGangs j.gang 16 (s.jobCores j) ((s.jobCores j).foldl
    (fun t n => t.setReg (R.ARR_GANG n) 0) ((s.jobCores j).foldl (fun t n => switchCore n j.ctx t) s))) n k hk
  unfold runJob
  dsimp only
  rw [hb, if_neg (by decide)]
  generalize (s.jobCores j).foldl (startCore j) _ = t2 at hstarted hsem ⊢
  have hjobs : t2.ctl.jobs = [j] := by rw [hstarted.frame, hj]
  have hent : t2.hif = s.hif := by rw [hstarted.frame]
  refine ⟨?_, ?_, ?_, fun n hn k hk => ?_⟩
  · show List.map _ (List.map _ t2.ctl.jobs) = _
    rw [hjobs, List.map_singleton, List.map_singleton, if_pos rfl]
  · show List.map _ t2.hif.entries = _
    rw [hent]
    rfl
  · show State.counter (t2.count Pg.ctl0 0 1) _ = _
    rw [State.counter_count_same, hstarted.counter _ (by decide)]
  · show t2.reg _ = _
    rw [hsem n k hk, if_pos hn]

end
end Sys2Proof.Machine
end

section
/-! PROOFS. Jobs: their entry, slices, switches, end and limit, and the obligation (R355 to R357, R360 to R362). -/

namespace Sys2Proof.Machine

section
variable (aclk : Nat) (s : State)

/-! ### A JOB entry (R355, R359) -/

/-- The job that an entry asks for. -/
def Entry.asJob (e : Entry) (id : Nat) : Job :=
  { id := id, ctx := e.ctx, cores := maskCores (Job'.mask e), gang := Job'.gang e, slot := Job'.slot e, batch := Job'.batch e,
    sem := Job'.sem e, limit := Job'.limit e }

/-- The scheduler once the first job has joined its empty queue. -/
def jobJoined (id : Nat) (e : Entry) (aclk : Nat) (s : State) : State :=
  (wakeVt e.ctx (chargeAll aclk s)).modCtl (fun c => { c with jobs := c.jobs ++ [e.asJob id] })

theorem jobEntry_at (id : Nat) (e : Entry) (he : s.entry id = some e) (hop : e.opcode = 1) (hstart : s.canStart e = true)
    (hjobs : s.ctl.jobs = []) : jobEntry id aclk s = schedule aclk (jobJoined id e aclk s) := by
  have hnone : s.job id = none := by
    unfold State.job
    rw [hjobs]
    rfl
  unfold jobEntry withEntry
  rw [he]
  dsimp only
  rw [if_pos ⟨hop, hstart⟩, hnone, if_neg (by decide)]
  rfl

theorem wakeVt_jobs (x : Nat) (t : State) : (wakeVt x t).ctl.jobs = t.ctl.jobs := by
  unfold wakeVt
  split
  · rfl
  · rfl

theorem jobJoined_jobs (id : Nat) (e : Entry) (hjobs : s.ctl.jobs = []) : (jobJoined id e aclk s).ctl.jobs = [e.asJob id] := by
  show (wakeVt e.ctx (chargeAll aclk s)).ctl.jobs ++ [e.asJob id] = _
  rw [wakeVt_jobs, chargeAll_none aclk s hjobs]
  show s.ctl.jobs ++ _ = _
  rw [hjobs, List.nil_append]

theorem jobJoined_only (id : Nat) (e : Entry) (hjobs : s.ctl.jobs = []) : VtOnly s (jobJoined id e aclk s) := by
  have h : VtOnly s (chargeAll aclk s) := by
    rw [chargeAll_none aclk s hjobs]
    exact clocked_only aclk s
  exact (h.trans (.wakeVt e.ctx _)).trans (.modCtl _ _ rfl)

/-- The first job of an idle block starts (R355, R361). -/
theorem jobEntry_starts (id : Nat) (e : Entry) (he : s.entry id = some e) (hop : e.opcode = 1) (hstart : s.canStart e = true)
    (hjobs : s.ctl.jobs = []) (hhold : s.rel.holdStarts = false) (hupd : s.ctl.upd.holding = none)
    (hcores : ∀ n ∈ s.jobCores (e.asJob id), s.inService n = true ∧ s.domOn n = true) :
    ∃ u, VtOnly s u ∧ u.ctl.jobs = [{ e.asJob id with st := .starting }]
      ∧ jobEntry id aclk s = runJob aclk { e.asJob id with st := .starting } u := by
  have hv := jobJoined_only aclk s id e hjobs
  have hj := jobJoined_jobs aclk s id e hjobs
  rw [jobEntry_at aclk s id e he hop hstart hjobs, schedule_decides, chargeAll_one aclk _ _ hj]
  have hc : chargeJob aclk ((jobJoined id e aclk s).clocked aclk) (e.asJob id) = (jobJoined id e aclk s).clocked aclk := if_pos rfl
  rw [hc]
  have hv1 : VtOnly s ((jobJoined id e aclk s).clocked aclk) := hv.trans (clocked_only aclk _)
  have hj1 : ((jobJoined id e aclk s).clocked aclk).ctl.jobs = [e.asJob id] := hj
  generalize (jobJoined id e aclk s).clocked aclk = v at hv1 hj1 ⊢
  have hready : v.jobReady (e.asJob id) = true := by
    unfold State.canStart at hstart
    simp only [Bool.and_eq_true, Bool.not_eq_true', Option.isNone_iff_eq_none, beq_iff_eq] at hstart
    obtain ⟨⟨⟨-, hfn⟩, hfault⟩, htear⟩ := hstart
    unfold State.jobReady
    dsimp only
    have hserve : (v.jobCores (e.asJob id)).all v.inService = true := by
      rw [List.all_eq_true, hv1.jobCores]
      intro n hn
      rw [hv1.inService]
      exact (hcores n hn).1
    have hfn' : v.fnState (tenantOf (e.asJob id).ctx) = fnReady := (hv1.fnState _).trans hfn
    have hfault' : (v.ctx (e.asJob id).ctx).fault = none := (hv1.ctxFault _).trans hfault
    have htear' : (v.ctx (e.asJob id).ctx).tear = false := (hv1.ctxTear _).trans htear
    rw [hserve, hj1, hfn', hfault', htear', hv1.rel, hv1.upd, hhold, hupd]
    simp
  refine ⟨v.setJob { e.asJob id with st := .starting }, hv1.trans (.setJob _ v), ?_, ?_⟩
  · show List.map _ v.ctl.jobs = _
    rw [hj1, List.map_singleton]
    exact congrArg (fun b => [b]) (if_pos rfl)
  · refine decided_starts aclk v (e.asJob id) hj1 rfl rfl hready fun n hn => ?_
    rw [hv1.jobCores] at hn
    rw [hv1.dom]
    exact (hcores n hn).2

/-! ### One job on the block (R357, R360 to R362) -/

section
variable (id : Nat) (j : Job) (hj : s.ctl.jobs = [j]) (hid : j.id = id)
include hj

theorem charged_one (hheld : j.held ≠ []) :
    ChargedFor aclk j s (chargeJob aclk (s.clocked aclk) j) ∧ (chargeJob aclk (s.clocked aclk) j).ctl.jobs = [j.charged aclk] := by
  obtain ⟨⟨hv, ht, hx⟩, hjobs⟩ := chargeJob_charges aclk (s.clocked aclk) j hj hheld
  exact ⟨⟨(clocked_only aclk s).trans hv, ht, hx⟩, hjobs⟩

theorem setJob_one (k : Job) (hk : j.id = k.id) : (s.setJob k).ctl.jobs = [k] := by
  show List.map _ s.ctl.jobs = _
  rw [hj, List.map_singleton]
  exact congrArg (fun b => [b]) (if_pos hk)

omit hj in
theorem ChargedFor.later {t u : State} (h : ChargedFor aclk j s t) (hu : VtOnly t u) (hv : u.ctl.vtT = t.ctl.vtT)
    (hc : u.ctxs = t.ctxs) : ChargedFor aclk j s u where
  only := h.only.trans hu
  ten := by
    rw [← h.ten]
    unfold State.vtTen
    rw [hv]
  vt := by
    rw [← h.vt]
    unfold State.ctx
    rw [hc]

include hid

theorem job_one : s.job id = some j := by
  unfold State.job
  rw [hj]
  exact List.find?_cons_of_pos (by simp [hid])

theorem sliceEnd_early (hover : j.sliceOver aclk = false) : sliceEnd id aclk s = s := by
  unfold sliceEnd
  rw [job_one s id j hj hid]
  exact if_neg fun h => by rw [hover] at h; cases h.2

/-- The end of the only job's slice (R360, R361). -/
theorem sliceEnd_charges (hst : j.st = .running) (hheld : j.held ≠ []) (hover : j.sliceOver aclk = true)
    (hf : s.fnState (tenantOf j.ctx) = fnReady) :
    ChargedFor aclk j s (sliceEnd id aclk s)
      ∧ (sliceEnd id aclk s).ctl.jobs = [{ j.charged aclk with slice := aclk, len := s.fld R.CTL_TSLICE F.CTL_TSLICE_SLICE * 2048 }] := by
  obtain ⟨hc, hjobs⟩ := charged_one aclk s j hj hheld
  have hend : sliceEnd id aclk s = decided aclk (chargeJob aclk (s.clocked aclk) j) := by
    unfold sliceEnd
    rw [job_one s id j hj hid]
    dsimp only
    rw [if_pos ⟨hst, hover⟩, schedule_decides, chargeAll_one aclk s j hj]
  rw [hend]
  generalize chargeJob aclk (s.clocked aclk) j = t at hc hjobs ⊢
  rw [decided_runs_on aclk t (j.charged aclk) hjobs hst hover ((hc.only.fnState _).trans hf), ← hc.only.fld]
  exact ⟨hc.later aclk s j (.newSlice _ aclk t) rfl rfl, setJob_one t (j.charged aclk) hjobs _ rfl⟩

omit hid in
/-- A core that drains ends its switch at its boundary (R360, R362). -/
theorem contextSwitch_frees (n : Nat) (hst : j.st = .draining) (hheld : j.held = [n]) (hrest : s.atRest n = true) :
    ChargedFor aclk j s (contextSwitch n aclk s) ∧ (contextSwitch n aclk s).ctl.jobs = [{ j.charged aclk with held := [], st := .runnable }] := by
  obtain ⟨hc, hjobs⟩ := charged_one aclk s j hj (by rw [hheld]; exact List.cons_ne_nil _ _)
  have hfind : s.ctl.jobs.find? (fun j => j.st == .draining && j.held.contains n) = some j := by
    rw [hj]
    exact List.find?_cons_of_pos (by rw [hst, hheld]; simp)
  have hend : contextSwitch n aclk s = pumpJobs aclk ((chargeJob aclk (s.clocked aclk) j).setJob
      { j.charged aclk with held := [], st := .runnable }) := by
    unfold contextSwitch
    rw [hfind]
    dsimp only
    have hclk : s.modCtl (fun c => { c with aclk := max c.aclk aclk }) = s.clocked aclk := rfl
    have hgone : (j.charged aclk).held.filter (· != n) = [] := by
      show j.held.filter (· != n) = []
      rw [hheld]
      simp
    rw [hrest, if_neg (by decide), hclk, job_one _ j.id (j.charged aclk) hjobs rfl]
    dsimp only
    rw [hgone]
    rfl
  rw [hend]
  generalize chargeJob aclk (s.clocked aclk) j = t at hc hjobs ⊢
  have hset := setJob_one t (j.charged aclk) hjobs { j.charged aclk with held := [], st := .runnable } rfl
  rw [pumpJobs_idle aclk _ fun k hk => by
    rw [hset, List.mem_singleton] at hk
    rw [hk]
    exact fun h => by cases h]
  exact ⟨hc.later aclk s j (.setJob _ t) rfl rfl, hset⟩

omit hid in
theorem contextSwitch_waits (n : Nat) (hst : j.st = .draining) (hheld : j.held = [n]) (hrest : s.atRest n = false) :
    contextSwitch n aclk s = s := by
  have hfind : s.ctl.jobs.find? (fun j => j.st == .draining && j.held.contains n) = some j := by
    rw [hj]
    exact List.find?_cons_of_pos (by rw [hst, hheld]; simp)
  unfold contextSwitch
  rw [hfind]
  dsimp only
  rw [hrest]
  exact if_pos rfl

omit hid in
theorem chargeAll_only : VtOnly s (chargeAll aclk s) := by
  rw [chargeAll_one aclk s j hj]
  exact (clocked_only aclk s).trans (.chargeJob aclk _ j)

omit hid in
theorem chargeAll_jobs : ∃ k : Job, (chargeAll aclk s).ctl.jobs = [k] ∧ k.id = j.id := by
  rw [chargeAll_one aclk s j hj]
  by_cases h : j.held = []
  · refine ⟨j, ?_, rfl⟩
    rw [chargeJob, if_pos (by rw [h]; rfl)]
    exact hj
  · exact ⟨_, (charged_one aclk s j hj h).2, rfl⟩

/-- The only job, done on every core, leaves the block idle (R357). -/
theorem jobDone_completes (e : Entry) (he : s.entry id = some e) (hest : e.st = .started) (hst : j.st = .running)
    (hdone : ∀ n ∈ s.jobCores j, n ∈ j.held ∧ s.seqState n = Seq.halted ∧ (s.core n).doneSig = true ∧ s.quiet n j.ctx = true) :
    (jobDone id aclk s).ctl.jobs = [] ∧ ((jobDone id aclk s).entry id).map (·.st) = some (.done 0 0 0 s.dtime)
      ∧ (jobDone id aclk s).counter (cntKey Pg.ctl0 1) = (s.counter (cntKey Pg.ctl0 1) + 1) % 2 ^ 64 := by
  have hv := chargeAll_only aclk s j hj
  obtain ⟨k, hk, hkid⟩ := chargeAll_jobs aclk s j hj
  have hall : (s.jobCores j).all (fun n => j.held.contains n && s.seqState n == Seq.halted && (s.core n).doneSig
      && s.quiet n j.ctx) = true := by
    rw [List.all_eq_true]
    intro n hn
    obtain ⟨h1, h2, h3, h4⟩ := hdone n hn
    simp [h1, h2, h3, h4]
  have hend : jobDone id aclk s = schedule aclk ((entryDone id 0 0 0 ((chargeAll aclk s).modCtl (fun c =>
      { c with jobs := c.jobs.filter (fun (b : Job) => b.id != j.id) }))).count Pg.ctl0 1 1) := by
    unfold jobDone
    rw [job_one s id j hj hid]
    dsimp only
    rw [if_pos ⟨.inl hst, hall⟩, dropJob, if_neg (by rw [hst]; decide)]
  have hjobs : (chargeAll aclk s).ctl.jobs.filter (fun (b : Job) => b.id != j.id) = [] := by
    rw [hk, List.filter_cons_of_neg (by simp [hkid]), List.filter_nil]
  rw [hend]
  generalize chargeAll aclk s = t at hv hjobs ⊢
  generalize hu : (entryDone id 0 0 0 (t.modCtl (fun c => { c with jobs := c.jobs.filter (fun (b : Job) => b.id != j.id) }))).count
    Pg.ctl0 1 1 = u
  have hempty : u.ctl.jobs = [] := by rw [← hu]; exact hjobs
  have hclk : VtOnly u (u.clocked aclk) := clocked_only aclk u
  rw [schedule_decides, chargeAll_none aclk u hempty, decided_none aclk (u.clocked aclk) hempty]
  refine ⟨hempty, ?_, ?_⟩
  · show (u.entry id).map (·.st) = _
    rw [← hu, ← hv.dtime]
    have het : t.entry id = some e := by
      unfold State.entry
      rw [hv.hif]
      exact he
    exact entryDone_st (s := t) het (fun a b c d h => by rw [hest] at h; cases h) 0 0 0
  · rw [hclk.counter, ← hu, State.counter_count_same, ← hv.counter]
    rfl

/-- A job that reached its LIMIT faults its context with its entry's tag (R357). -/
theorem jobLimit_faults (hheld : j.held ≠ []) (hlim : 0 < j.limit) (hran : j.limit * 2048000 ≤ j.ran + (aclk - j.mark))
    (hnone : (s.ctx j.ctx).fault = none) :
    ((jobLimit id aclk s).ctx j.ctx).fault.map (fun r => (r.code, r.tag)) = some (Flt.watchdog, ((s.entry id).map (·.tag)).getD 0) := by
  have hv := chargeAll_only aclk s j hj
  have hf := (ctxFault_kept j.ctx none (s.ctx j.ctx).cores Flt.watchdog 0 0 (chargeAll aclk s) (by decide)).2
    ((hv.ctxFault _).trans hnone)
  unfold jobLimit
  rw [job_one s id j hj hid]
  dsimp only
  rw [if_pos ⟨by simpa using hheld, by omega, hran, by rw [hnone]; rfl⟩]
  generalize ctxFault j.ctx none (s.ctx j.ctx).cores Flt.watchdog 0 0 (chargeAll aclk s) = t at hf ⊢
  have hctx (g : CtxRec → CtxRec) : (t.modCtx j.ctx g).ctx j.ctx = g (t.ctx j.ctx) := Tab.get_set_same ..
  rw [hctx]
  cases hfault : (t.ctx j.ctx).fault with
  | none =>
    rw [hfault] at hf
    cases hf
  | some f =>
    rw [hfault] at hf
    rw [Option.map_some, Option.map_some]
    exact congrArg some (Prod.ext (congrArg (·.1) (Option.some.inj hf)) rfl)

end

end

/-- Settles O40: the first job of an idle block starts on its cores, and the only job's slice, switch, end and limit act as R357
and R360 to R362 have them. -/
theorem jobsRunUnderTheScheduler : Obligations.JobsRunUnderTheScheduler := by
  unfold Obligations.JobsRunUnderTheScheduler
  intro s id aclk
  refine ⟨?_, ?_⟩
  · intro e he hop hstart hjobs hhold hupd cs hcs
    obtain ⟨u, hu, hj, hrun⟩ := jobEntry_starts aclk s id e he hop hstart hjobs hhold hupd fun n hn => (hcs n hn).2
    have hcores : u.jobCores { e.asJob id with st := .starting } = cs := hu.jobCores _
    obtain ⟨h1, h2, h3, h4⟩ := runJob_starts aclk u { e.asJob id with st := .starting } hj rfl fun n hn =>
      Nat.lt_trans (hcs n (hcores ▸ hn)).1 (by decide)
    rw [hcores] at h1 h4
    refine ⟨_, congrArg Host.Outcome.next hrun, h1, ?_, ?_, h4⟩
    · have hent : (entryStart id u).hif.entries = (entryStart id s).hif.entries := by
        unfold entryStart
        rw [hu.hif]
      unfold State.entry
      rw [h2]
      show ((entryStart id u).hif.entries.find? _).map _ = _
      rw [hent]
      exact entryStart_st he (canStart_st hstart)
    · rw [h3, hu.counter]
  · intro j hj hid t0 used charged vts
    have hvts {t : State} (h : ChargedFor aclk j s t) : vts t := ⟨h.ten, h.vt⟩
    refine ⟨fun hst hheld hover hf => ?_, fun hst hover => ?_, fun n hst hheld => ⟨fun hrest => ?_, fun hrest => ?_⟩,
      fun e he hest hst hdone => ?_, fun hheld hlim hran hnone => ?_⟩
    · obtain ⟨hc, hjobs⟩ := sliceEnd_charges aclk s id j hj hid hst hheld hover hf
      exact ⟨_, rfl, hjobs, hvts hc, hc.only.cores⟩
    · exact congrArg Host.Outcome.next (sliceEnd_early aclk s id j hj hid hover)
    · obtain ⟨hc, hjobs⟩ := contextSwitch_frees aclk s j hj n hst hheld hrest
      exact ⟨_, rfl, hjobs, hvts hc, hc.only.cores⟩
    · exact congrArg Host.Outcome.next (contextSwitch_waits aclk s j hj n hst hheld hrest)
    · exact ⟨_, rfl, jobDone_completes aclk s id j hj hid e he hest hst hdone⟩
    · exact ⟨_, rfl, jobLimit_faults aclk s id j hj hid hheld hlim hran hnone⟩

end Sys2Proof.Machine
end

section
/-! PROOFS. What a scheduling point leaves alone (R360 to R362). -/

namespace Sys2Proof.Machine

/-- A register word of the control complex or of REL, other than the log's, or of a function's pages of the host interface. -/
def CtlWord (a : Nat) : Prop :=
  0x30000 ≤ a ∧ a < 0x100000 ∧ a / 4096 ≠ Pg.rel2 / 4096 ∨ 0x410000 ≤ a ∧ a < 0x420000

theorem CtlWord.low {a : Nat} (h : CtlWord a) : 0x30000 ≤ a := by unfold CtlWord at h; omega

theorem CtlWord.not_core {a : Nat} (h : CtlWord a) : ¬ CoreWord a := by
  unfold CtlWord at h
  unfold CoreWord
  omega

theorem CtlWord.not_log {a : Nat} (h : CtlWord a) : a / 4096 ≠ Pg.rel2 / 4096 := by
  unfold CtlWord at h
  have h2 : Pg.rel2 / 4096 = 50 := rfl
  omega

/-- A count of REL page 0, of teardowns or of exchanges. -/
def CtlCount (k : Nat) : Prop := k / 4096 = Pg.rel0 / 4096 ∨ k = cntKey Pg.ctl0 4 ∨ k = cntKey Pg.ctl0 5

theorem CtlCount.off {k p : Nat} (h : CtlCount k) (h1 : p ≠ Pg.rel0 / 4096) (h2 : p ≠ Pg.ctl0 / 4096) : k / 4096 ≠ p := by
  rcases h with h | h | h
  · rw [h]
    exact h1.symm
  · rw [h]
    exact h2.symm
  · rw [h]
    exact h2.symm

/-- What REL holds for the scheduler. -/
def State.relHeld (s : State) : Bool × List (Nat × Nat) := (s.rel.holdStarts, s.rel.rotated)

/-- A job that comes of one of `s`: with its context, and with its cores or others of the part. -/
def JobFrom (s : State) (j : Job) : Prop := ∃ k ∈ s.ctl.jobs, j.ctx = k.ctx ∧ (j.held = k.held ∨ ∀ n ∈ j.held, n < 32)

theorem JobFrom.self {s : State} {j : Job} (h : j ∈ s.ctl.jobs) : JobFrom s j := ⟨j, h, rfl, .inl rfl⟩

theorem JobFrom.trans {s t : State} {j : Job} (h : ∀ k ∈ t.ctl.jobs, JobFrom s k) (hj : JobFrom t j) : JobFrom s j := by
  obtain ⟨k, hk, hctx, hheld⟩ := hj
  obtain ⟨i, hi, hictx, hiheld⟩ := h k hk
  refine ⟨i, hi, hctx.trans hictx, ?_⟩
  rcases hheld with e | e
  · rw [e]
    exact hiheld
  · exact .inr e

/-- An entry that comes of one of `s` and is done where that one is. -/
def EntryFrom (s : State) (e : Entry) : Prop := ∃ b ∈ s.hif.entries, e.ctx = b.ctx ∧ (b.isDone = true → e.isDone = true)

theorem EntryFrom.self {s : State} {e : Entry} (h : e ∈ s.hif.entries) : EntryFrom s e := ⟨e, h, rfl, id⟩

/-- What a scheduling point leaves alone. -/
structure SchedKept (s t : State) : Prop where
  flash : t.flash = s.flash
  recs : t.recs = s.recs
  dtime : t.dtime = s.dtime
  spad : t.spad = s.spad
  rel : t.relHeld = s.relHeld
  upd : t.ctl.upd = s.ctl.upd
  jobs : ∀ j ∈ t.ctl.jobs, JobFrom s j
  entries : ∀ e ∈ t.hif.entries, EntryFrom s e
  ctx : ∀ y, t.ctx y = { s.ctx y with fault := (t.ctx y).fault, saved := (t.ctx y).saved, vt := (t.ctx y).vt }
  reg : ∀ a, CtlWord a → t.reg a = s.reg a
  counter : ∀ k, CtlCount k → t.counter k = s.counter k

namespace SchedKept

theorem trans {s t u : State} (h : SchedKept s t) (k : SchedKept t u) : SchedKept s u where
  flash := k.flash.trans h.flash
  recs := k.recs.trans h.recs
  dtime := k.dtime.trans h.dtime
  spad := k.spad.trans h.spad
  rel := k.rel.trans h.rel
  upd := k.upd.trans h.upd
  jobs j hj := (k.jobs j hj).trans h.jobs
  entries e he := by
    obtain ⟨b, hb, hctx, hdone⟩ := k.entries e he
    obtain ⟨c, hc, hcctx, hcdone⟩ := h.entries b hb
    exact ⟨c, hc, hctx.trans hcctx, fun hd => hdone (hcdone hd)⟩
  ctx y := by rw [k.ctx y, h.ctx y]
  reg a ha := (k.reg a ha).trans (h.reg a ha)
  counter c hc := (k.counter c hc).trans (h.counter c hc)

theorem ofFrame {s t : State}
    (h : t = { s with regs := t.regs, cores := t.cores, cnt := t.cnt, ctxs := t.ctxs, doms := t.doms, mt := t.mt, plm := t.plm })
    (hctx : ∀ y, t.ctx y = { s.ctx y with fault := (t.ctx y).fault, saved := (t.ctx y).saved, vt := (t.ctx y).vt })
    (hreg : ∀ a, CtlWord a → t.reg a = s.reg a) (hcnt : ∀ k, CtlCount k → t.counter k = s.counter k) : SchedKept s t where
  flash := by rw [h]
  recs := by rw [h]
  dtime := by rw [h]
  spad := by rw [h]
  rel := by rw [h]; rfl
  upd := by rw [h]
  jobs j hj := .self (by rw [h] at hj; exact hj)
  entries e he := .self (by rw [h] at he; exact he)
  ctx := hctx
  reg := hreg
  counter := hcnt

theorem refl (s : State) : SchedKept s s := ofFrame rfl (fun _ => rfl) (fun _ _ => rfl) fun _ _ => rfl

theorem vtOnly {s t : State} (h : VtOnly s t) (hj : ∀ j ∈ t.ctl.jobs, JobFrom s j) : SchedKept s t where
  flash := by rw [h.frame]
  recs := by rw [h.frame]
  dtime := h.dtime
  spad := by rw [h.frame]
  rel := by rw [h.frame]; rfl
  upd := h.upd
  jobs := hj
  entries e he := .self (by rw [h.frame] at he; exact he)
  ctx y := by rw [h.ctx y]
  reg a _ := h.reg a
  counter k _ := h.counter k

/-- A job of `s` written back. -/
theorem setJob {s t : State} (j : Job) (h : SchedKept s t) (hj : JobFrom s j) : SchedKept s (t.setJob j) where
  flash := h.flash
  recs := h.recs
  dtime := h.dtime
  spad := h.spad
  rel := h.rel
  upd := h.upd
  jobs i hi := by
    obtain ⟨b, hb, rfl⟩ := List.mem_map.1 (show i ∈ t.ctl.jobs.map _ from hi)
    split
    · exact hj
    · exact h.jobs b hb
  entries := h.entries
  ctx := h.ctx
  reg := h.reg
  counter := h.counter

theorem coreSide {s t : State} (h : CoreSide s t) : SchedKept s t := by
  refine ofFrame ?_ (fun y => ?_) (fun a ha => h.reg a ha.not_core) fun k hk => h.counter k fun e => ?_
  · rw [h.frame]
  · rw [h.ctx y]
  · rw [e] at hk
    revert hk
    unfold CtlCount
    decide

theorem count (base i k : Nat) (s : State) (h : ¬ CtlCount (cntKey base i)) : SchedKept s (s.count base i k) :=
  ofFrame rfl (fun _ => rfl) (fun _ _ => rfl) fun _ hc => State.counter_count_ne _ _ _ _ _ fun e => h (e ▸ hc)

theorem setFld (a : Nat) (f : Fld) (v : Nat) (s : State) (h : ¬ CtlWord a) : SchedKept s (s.setFld a f v) :=
  ofFrame rfl (fun _ => rfl) (fun _ hb => State.reg_setFld_ne _ _ _ _ _ fun e => h (e ▸ hb)) fun _ _ => rfl

theorem setDom (d : Nat) (x : Dom) (s : State) : SchedKept s (s.setDom d x) := ofFrame rfl (fun _ => rfl) (fun _ _ => rfl) fun _ _ => rfl

theorem setCore (n : Nat) (c : Core) (s : State) : SchedKept s (s.setCore n c) := ofFrame rfl (fun _ => rfl) (fun _ _ => rfl) fun _ _ => rfl

theorem entryStart (id : Nat) (s : State) : SchedKept s (entryStart id s) where
  flash := rfl
  recs := rfl
  dtime := rfl
  spad := rfl
  rel := rfl
  upd := rfl
  jobs _ hj := .self hj
  entries e he := by
    obtain ⟨b, hb, rfl⟩ := List.mem_map.1 (show e ∈ s.hif.entries.map _ from he)
    refine ⟨b, hb, ?_⟩
    split
    · next h => exact ⟨rfl, fun hd => by rw [Entry.isDone, h.2] at hd; cases hd⟩
    · exact ⟨rfl, fun h => h⟩
  ctx _ := rfl
  reg _ _ := rfl
  counter _ _ := rfl

theorem foldl {β : Type} (f : State → β → State) (l : List β) (hf : ∀ b ∈ l, ∀ t, SchedKept t (f t b)) (s : State) :
    SchedKept s (l.foldl f s) := by
  induction l generalizing s with
  | nil => exact refl s
  | cons b l ih => exact (hf b List.mem_cons_self s).trans (ih (fun c hc => hf c (List.mem_cons_of_mem _ hc)) _)

/-- A fold whose steps are followed from its first state. -/
theorem foldlFrom {β : Type} (f : State → β → State) (s : State) (l : List β) (hf : ∀ b ∈ l, ∀ t, SchedKept s t → SchedKept s (f t b))
    (t : State) (ht : SchedKept s t) : SchedKept s (l.foldl f t) := by
  induction l generalizing t with
  | nil => exact ht
  | cons b l ih => exact ih (fun c hc => hf c (List.mem_cons_of_mem _ hc)) _ (hf b List.mem_cons_self t ht)

/-! ### A fault of a context -/

theorem errEvent (base bit : Nat) (s : State) (h1 : ¬ CtlWord (base + Hdr.errStat)) (h2 : ¬ CtlWord (base + Hdr.errFirst)) :
    SchedKept s (errEvent base bit s) where
  flash := by rw [errEvent_frame]
  recs := by rw [errEvent_frame]
  dtime := by rw [errEvent_frame]
  spad := by rw [errEvent_frame]
  rel := by rw [errEvent_frame]; rfl
  upd := by rw [errEvent_frame]
  jobs j hj := .self (by rw [errEvent_frame] at hj; exact hj)
  entries e he := .self (by rw [errEvent_entries] at he; exact he)
  ctx y := by rw [errEvent_frame]; rfl
  reg a ha := errEvent_reg_ne _ _ _ _ (fun e => h1 (e ▸ ha)) (fun e => h2 (e ▸ ha))
  counter k _ := errEvent_counter ..

theorem logEntry_relHeld (e : LogEntry) (s : State) : (logEntry e s).relHeld = s.relHeld := by
  have hstage (e : LogEntry) (t : State) : (stageEntry e t).relHeld = t.relHeld := rfl
  have hflush (t : State) : (startFlush t).relHeld = t.relHeld := by
    unfold startFlush
    split
    · rfl
    · rfl
  have hdrop : (Machine.errEvent Pg.rel2 E.rel2_LOG_DROP ((s.satFld R.REL_LOG_STATUS F.REL_LOG_STATUS_DROPPED 1).count Pg.rel2 2 1)).relHeld
      = s.relHeld := by
    rw [errEvent_frame]
    rfl
  unfold logEntry
  dsimp only
  split
  · exact hdrop
  · generalize hs1 : (if s.rel.lost = 0 then s else _) = s1
    have h1 : s1.relHeld = s.relHeld := by
      rw [← hs1]
      split <;> rfl
    generalize hs2 : (if s1.rel.staging.length ≥ stagingSize then _ else _) = s2
    have h2 : s2.relHeld = s1.relHeld := by
      rw [← hs2]
      split <;> rfl
    rw [apply_ite State.relHeld, hflush, ite_self, h2, h1]

theorem logEntry (e : LogEntry) (s : State) : SchedKept s (logEntry e s) where
  flash := by rw [logEntry_frame e s]
  recs := by rw [logEntry_frame e s]
  dtime := by rw [logEntry_frame e s]
  spad := by rw [logEntry_frame e s]
  rel := logEntry_relHeld e s
  upd := by rw [logEntry_frame e s]
  jobs j hj := .self (by rw [logEntry_frame e s] at hj; exact hj)
  entries b hb := .self (by rw [logEntry_entries] at hb; exact hb)
  ctx y := by
    unfold State.ctx
    rw [(logEntry_frame e s).ctxs]
  reg a ha := logEntry_reg e s a ha.not_log
  counter k hk := logEntry_counter e s k (hk.off (by decide) (by decide))

theorem stopCore (x n : Nat) (s : State) (hn : n < 32) : SchedKept s (stopCore x n s) := by
  unfold Machine.stopCore
  dsimp only
  split
  · exact (setCore n _ s).trans (coreSide ((((CoreSide.modCore n _ _).trans (.setSeqState n _ _ hn)).trans
      (.setFld _ _ 6 _ (CoreSide.arrStatus_word hn))).trans (.setFld _ _ 1 _ (CoreSide.seqStatus_word hn))))
  · exact setCore n _ s

theorem stopCores (x : Nat) (l : List Nat) (s : State) (hl : ∀ n ∈ l, n < 32) : SchedKept s (stopCores x l s) := by
  induction l generalizing s with
  | nil => exact refl s
  | cons n l ih => exact (stopCore x n s (hl n List.mem_cons_self)).trans (ih _ fun m hm => hl m (List.mem_cons_of_mem _ hm))

theorem stopChan (x n k : Nat) (s : State) (hn : n < 32) (hk : k < 4) : SchedKept s (stopChan x n k s) := by
  have hst (cause : Nat) (t : State) : SchedKept t (chanStatus n k cause t) := by
    unfold chanStatus
    exact coreSide ((CoreSide.setReg _ _ t (by unfold CoreWord R.SPD_DMA_STATUS Pg.spd4; omega)).trans
      (.setReg _ _ _ (by unfold CoreWord R.SPD_DMA_ROWS Pg.spd4; omega)))
  have hset (h : Chan) (t : State) : SchedKept t (t.setChan n k h) := ofFrame rfl (fun _ => rfl) (fun _ _ => rfl) fun _ _ => rfl
  have hmt (m : Mt) (t : State) : SchedKept t { t with mt := m } := ofFrame rfl (fun _ => rfl) (fun _ _ => rfl) fun _ _ => rfl
  unfold Machine.stopChan
  dsimp only
  cases (s.chan n k).cur with
  | none => exact (hset _ s).trans (hst _ _)
  | some d =>
    dsimp only
    refine SchedKept.trans ?_ (hst _ _)
    split
    · exact (hset _ s).trans (hmt _ _)
    · exact hset _ s

theorem stopChans (x : Nat) (l : List Nat) (s : State) (hl : ∀ n ∈ l, n < 32) : SchedKept s (stopChans x l s) := by
  induction l generalizing s with
  | nil => exact refl s
  | cons n l ih =>
    have hn := hl n List.mem_cons_self
    exact ((((stopChan x n 0 s hn (by decide)).trans (stopChan x n 1 _ hn (by decide))).trans (stopChan x n 2 _ hn (by decide))).trans
      (stopChan x n 3 _ hn (by decide))).trans (ih _ fun m hm => hl m (List.mem_cons_of_mem _ hm))

theorem range_lt {n : Nat} (h : n ∈ List.range 18) : n < 32 := Nat.lt_trans (List.mem_range.1 h) (by decide)

theorem dropColl (x : Nat) (s : State) : SchedKept s (dropColl x s) :=
  ofFrame rfl (fun _ => rfl) (fun a ha => dropColl_reg x s a fun e => by
    rw [e] at ha
    revert ha
    unfold CtlWord
    decide) fun _ _ => rfl

theorem setFault (x : Nat) (f : FaultRec) (s : State) : SchedKept s (s.setCtx x { s.ctx x with fault := some f }) := by
  refine ofFrame rfl (fun y => ?_) (fun _ _ => rfl) fun _ _ => rfl
  by_cases e : y = x
  · have h : (s.setCtx x { s.ctx x with fault := some f }).ctx x = { s.ctx x with fault := some f } := Tab.get_set_same ..
    rw [e, h]
  · have h : (s.setCtx x { s.ctx x with fault := some f }).ctx y = s.ctx y := Tab.get_set_ne _ _ _ _ _ e
    rw [h]

theorem taken (x : Nat) (f : FaultRec) (stopped : List Nat) (e : LogEntry) (s : State) (hl : ∀ n ∈ stopped, n < 32) :
    SchedKept s (faultTaken x f stopped e s) :=
  ((((setFault x f s).trans (stopCores x stopped _ hl)).trans (stopChans x _ _ fun _ => range_lt)).trans (dropColl x _)).trans (logEntry e _)

theorem countFault (code : Nat) (s : State) : SchedKept s (countFault code s) where
  flash := by rw [countFault_logOnly code s]
  recs := by rw [countFault_logOnly code s]
  dtime := by rw [countFault_logOnly code s]
  spad := by rw [countFault_logOnly code s]
  rel := by unfold Machine.countFault; split <;> rfl
  upd := by rw [countFault_logOnly code s]
  jobs j hj := .self (by rw [countFault_logOnly code s] at hj; exact hj)
  entries e he := .self (by unfold Machine.countFault at he; split at he <;> exact he)
  ctx y := by
    unfold State.ctx
    rw [(countFault_logOnly code s).ctxs]
  reg a _ := by unfold Machine.countFault; split <;> rfl
  counter k hk := (FaultKept.countFault code s).counter k (hk.off (by decide) (by decide)) (hk.off (by decide) (by decide))

/-- A fault of a context on core `k` (R8, R9). -/
theorem ctxFault (x k : Nat) (gang : List Nat) (code sub opTag : Nat) (s : State) (hl : ∀ n ∈ k :: gang, n < 32) :
    SchedKept s (ctxFault x (some k) gang code sub opTag s) := by
  have hcount := countFault code s
  unfold Machine.ctxFault
  dsimp only
  generalize Machine.countFault code s = s0 at *
  cases hf : (s0.ctx x).fault with
  | some f => exact hcount.trans (count Pg.rel3 3 1 s0 (by unfold CtlCount; decide))
  | none =>
    have hk := taken x ⟨code, sub, s0.ctxCoreOf x k, 0, opTag, s0.dtime⟩ (k :: gang)
      { cls := LogCls.contextFault, kind := LogKind.core, unit := k, ctx := x, code := code, sub := sub, arg0 := opTag } s0 hl
    dsimp only
    split
    · exact (hcount.trans hk).trans (coreSide (.modCore k _ _))
    · exact hcount.trans hk

end SchedKept
end Sys2Proof.Machine
end

section
/-! PROOFS. A scheduling point leaves the control complex's registers alone (R360 to R362). -/

namespace Sys2Proof.Machine

/-- Contexts name cores of the part, and jobs hold such cores (R351). -/
structure State.CoresPlaced (s : State) : Prop where
  ctx : ∀ x n, n ∈ (s.ctx x).cores → n < 32
  job : ∀ j ∈ s.ctl.jobs, ∀ n ∈ j.held, n < 32

theorem State.PlacesNamed.cores {s : State} (h : s.PlacesNamed) : s.CoresPlaced := ⟨h.1, h.2.2.1⟩

theorem State.CoresPlaced.of_eq {s t : State} (h : s.CoresPlaced) (hc : t.ctxs = s.ctxs) (hj : t.ctl.jobs = s.ctl.jobs) : t.CoresPlaced where
  ctx x n hn := h.ctx x n (by
    unfold State.ctx at *
    rwa [hc] at hn)
  job j hjm := h.job j (hj ▸ hjm)

theorem State.CoresPlaced.jobFrom {s : State} (h : s.CoresPlaced) {j : Job} (hj : JobFrom s j) : ∀ n ∈ j.held, n < 32 := by
  obtain ⟨k, hk, -, hheld | hheld⟩ := hj
  · rw [hheld]
    exact h.job k hk
  · exact hheld

theorem State.CoresPlaced.jobCores {s : State} (h : s.CoresPlaced) (j : Job) : ∀ n ∈ s.jobCores j, n < 32 := by
  intro n hn
  obtain ⟨c, -, rfl⟩ := List.mem_map.1 hn
  rw [List.getD_eq_getElem?_getD]
  cases hc : (s.ctx j.ctx).cores[c]? with
  | none => decide
  | some m => exact h.ctx j.ctx m (List.mem_of_getElem? hc)

namespace SchedKept

theorem placed {s t : State} (h : SchedKept s t) (hs : s.CoresPlaced) : t.CoresPlaced where
  ctx x n hn := by
    rw [h.ctx x] at hn
    exact hs.ctx x n hn
  job j hj := hs.jobFrom (h.jobs j hj)

/-! ### Settling and pre-emption (R81, R360) -/

theorem loadImage (n x slot k : Nat) (s t : State) (hn : n < 32) (h : loadImage n x slot k s = some t) : SchedKept s t := by
  induction k generalizing slot s with
  | zero =>
    rw [← Option.some.inj h]
    exact refl s
  | succ k ih =>
    unfold Machine.loadImage at h
    dsimp only at h
    split at h
    · cases h
    · refine SchedKept.trans ?_ (ih _ _ h)
      have hr : bitsOf (s.imageEntry n slot).2.toNat 27 22 < 64 := Nat.mod_lt _ (by decide)
      generalize bitsOf (s.imageEntry n slot).2.toNat 27 22 = r at hr ⊢
      have hset (v w : Word) := (CoreSide.setReg (R.SPD_REGION_GEOM n r) v s (by unfold CoreWord R.SPD_REGION_GEOM Pg.spd5; omega)).trans
        (.setReg (R.SPD_REGION_OWNER n r) w _ (by unfold CoreWord R.SPD_REGION_OWNER Pg.spd5; omega))
      split
      · exact coreSide (((hset _ _).trans (.setReg (R.SPD_REGION_HEAD n r) 0 _
          (by unfold CoreWord R.SPD_REGION_HEAD Pg.spd5; omega))).trans
          (.setReg (R.SPD_REGION_TAIL n r) 0 _ (by unfold CoreWord R.SPD_REGION_TAIL Pg.spd5; omega)))
      · exact coreSide (hset _ _)

section
variable (n : Nat) (s : State) (hn : n < 32)
include hn

theorem doSwitch (x m : Nat) : SchedKept s (doSwitch n x m s) := by
  have hbad : SchedKept s (seqIllegal n x s) := ctxFault x n [] _ _ _ s fun m hm => by
    rw [List.mem_singleton.1 hm]
    exact hn
  unfold Machine.doSwitch
  dsimp only
  split
  · exact hbad
  · cases h : Machine.loadImage n x (s.fld (R.SEQ_MODEL n m) F.SEQ_MODEL_IMAGE) 16 s with
    | none => exact hbad
    | some t =>
      exact (loadImage _ _ _ _ s t hn h).trans (coreSide ((((CoreSide.modCore n _ t).trans (.setPc n _ _ hn)).trans
        (.setSeqState n _ _ hn)).trans (.coreStatus n _ hn)))

theorem settleCore : SchedKept s (settleCore n s) := by
  have hdrain (b : Bool) : SchedKept s (if b = true then
      coreStatus n ((s.modCore n (fun c => { c with wait := .none })).setSeqState n Seq.drained) else coreStatus n s) := by
    split
    · exact coreSide (((CoreSide.modCore n _ s).trans (.setSeqState n _ _ hn)).trans (.coreStatus n _ hn))
    · exact coreSide (.coreStatus n s hn)
  unfold Machine.settleCore
  split
  · exact coreSide (.coreStatus n s hn)
  · dsimp only
    split
    · exact doSwitch n s hn _ _
    · exact coreSide ((CoreSide.setSeqState n _ s hn).trans (.coreStatus n _ hn))
    · exact hdrain _

theorem drainAsked : SchedKept s (Machine.settleCore n (s.setFld (R.SEQ_CTRL n) F.SEQ_CTRL_DRAIN_REQ 1)) :=
  (coreSide (.setFld _ _ 1 s (by unfold CoreWord R.SEQ_CTRL Pg.seq; omega))).trans (settleCore n _ hn)

end

theorem preempt (cs : List Nat) (s : State) (hs : s.CoresPlaced) : SchedKept s (preempt cs s) := by
  unfold Machine.preempt
  refine foldlFrom _ s _ (fun j hj t ht => ?_) s (refl s)
  split
  · exact ((setJob { j with st := .draining } ht ⟨j, hj, rfl, .inl rfl⟩).trans (count Pg.ctl0 3 1 _ (by unfold CtlCount; decide))).trans
      (foldl _ _ (fun n hn u => drainAsked n u (hs.job j hj n hn)) _)
  · exact ht

theorem chargeJob {s t : State} (aclk : Nat) (j : Job) (h : SchedKept s t) (hj : j ∈ s.ctl.jobs) :
    SchedKept s (chargeJob aclk t j) := by
  unfold Machine.chargeJob
  split
  · exact h
  · exact setJob _ ((h.trans (vtOnly (.setVtCtx _ _ t) fun _ => .self)).trans (vtOnly (.setVtTen _ _ _) fun _ => .self))
      ⟨j, hj, rfl, .inl rfl⟩

theorem chargeAll (aclk : Nat) (s : State) : SchedKept s (chargeAll aclk s) :=
  foldlFrom _ s _ (fun j hj _ ht => chargeJob aclk j ht hj) _ (vtOnly (clocked_only aclk s) fun _ => .self)

theorem choose_mem (s : State) (cand : List Job) (j : Job) (h : s.choose cand = some j) : j ∈ cand := by
  induction cand generalizing j with
  | nil => cases h
  | cons i is ih =>
    unfold State.choose at h
    cases hc : s.choose is with
    | none =>
      rw [hc] at h
      rw [← Option.some.inj h]
      exact List.mem_cons_self
    | some k =>
      rw [hc] at h
      dsimp only at h
      obtain ⟨-, e⟩ | ⟨-, e⟩ := ite_eq_iff.1 h
      · rw [← Option.some.inj e]
        exact List.mem_cons_self
      · rw [← Option.some.inj e]
        exact List.mem_cons_of_mem _ (ih k hc)

theorem decideLoop (aclk fuel : Nat) (cand : List Job) (reserved : List Nat) (s t : State) (hs : s.CoresPlaced)
    (hc : ∀ j ∈ cand, j ∈ s.ctl.jobs) (h : SchedKept s t) : SchedKept s (decideLoop aclk fuel cand reserved t) := by
  induction fuel generalizing cand reserved t with
  | zero => exact h
  | succ fuel ih =>
    unfold Machine.decideLoop
    cases hj : t.choose cand with
    | none => exact h
    | some j =>
      have hjs := hc j (choose_mem t cand j hj)
      have hrest := fun i (hi : i ∈ cand.filter fun k => k.id != j.id) => hc i (List.mem_of_mem_filter hi)
      dsimp only
      split
      · exact ih _ _ t hrest h
      · refine ih _ _ _ hrest ?_
        split
        · exact setJob _ h ⟨j, hjs, rfl, .inl rfl⟩
        · split
          · exact setJob _ (h.trans (preempt _ t (h.placed hs))) ⟨j, hjs, rfl, .inl rfl⟩
          · exact h

/-! ### Waking and starting (R356, R474) -/

theorem startExit (d : Nat) (s : State) (hd : d < 32) : SchedKept s (startExit d s) := by
  have hpwr (a : Nat) (f : Fld) (v : Nat) (t : State) (ha : a < 0x30000) : SchedKept t (t.setFld a f v) :=
    setFld a f v t fun h => absurd h.low (by omega)
  have hstat : R.PWR_DOM_STATUS d < 0x30000 := by unfold R.PWR_DOM_STATUS Pg.pwr; omega
  have hbegun (x : Dom) : SchedKept s (((setDomState d 3 2 (s.setDom d x)).setFld (R.PWR_DOM_STATUS d) F.PWR_DOM_STATUS_WAKE_HELD 0).setFld
      R.CLK_STATUS F.CLK_STATUS_PLL_ON 1) :=
    ((((setDom d x s).trans (hpwr _ _ 3 _ hstat)).trans (hpwr _ _ 2 _ hstat)).trans (hpwr _ _ 0 _ hstat)).trans
      (hpwr _ _ 1 _ (by decide))
  have hcount (i : Nat) (t : State) (h : ¬ CtlCount (cntKey Pg.pwr i)) : SchedKept t (t.count Pg.pwr i 1) := count _ _ _ t h
  unfold Machine.startExit
  dsimp only
  split
  · exact refl s
  · have hx := hbegun { s.dom d with exitFrom := s.domState d, wakeHeld := false, unplanned := false }
    generalize State.setFld _ R.CLK_STATUS F.CLK_STATUS_PLL_ON 1 = u at hx ⊢
    have hheld : SchedKept s (if (s.dom d).wakeHeld = true then u.count Pg.pwr 3 1 else u) := by
      split
      · exact hx.trans (hcount 3 u (by unfold CtlCount; decide))
      · exact hx
    generalize (if (s.dom d).wakeHeld = true then u.count Pg.pwr 3 1 else u) = v at hheld ⊢
    split
    · exact (hheld.trans (hcount 4 v (by unfold CtlCount; decide))).trans (errEvent _ _ _ (by unfold CtlWord; decide) (by unfold CtlWord; decide))
    · exact hheld

theorem wakeDom (d : Nat) (b : Bool) (s : State) (hd : d < 32) : SchedKept s (wakeDom d b s) := by
  have hheld (x : Dom) : SchedKept s ((s.setDom d x).setFld (R.PWR_DOM_STATUS d) F.PWR_DOM_STATUS_WAKE_HELD 1) :=
    (setDom d x s).trans (setFld _ _ 1 _ fun h => absurd h.low (by unfold R.PWR_DOM_STATUS Pg.pwr; omega))
  unfold Machine.wakeDom
  split
  · exact refl s
  · split
    · exact hheld _
    · exact count _ _ _ s (by unfold CtlCount; decide)
  · exact (setDom d _ s).trans (startExit d _ hd)

theorem runJob {s t : State} (aclk : Nat) (j : Job) (hs : s.CoresPlaced) (h : SchedKept s t) (hj : j ∈ s.ctl.jobs) :
    SchedKept s (runJob aclk j t) := by
  have hcs := (h.placed hs).jobCores j
  have hswitch := CoreSide.switched j.ctx (t.jobCores j) t hcs
  unfold Machine.runJob
  dsimp only
  generalize (t.jobCores j).foldl (fun t n => Machine.switchCore n j.ctx t) t = u at hswitch ⊢
  refine setJob _ (SchedKept.trans ?_ (entryStart j.id _)) ⟨j, hj, rfl, .inr hcs⟩
  split
  · exact h.trans (coreSide hswitch)
  · exact (h.trans (coreSide (hswitch.trans (.started j _ _ hcs)))).trans (count _ _ _ _ (by unfold CtlCount; decide))

theorem pumpJobs (aclk : Nat) (s : State) (hs : s.CoresPlaced) : SchedKept s (pumpJobs aclk s) := by
  unfold Machine.pumpJobs
  refine foldlFrom _ s _ (fun j hj t ht => ?_) s (refl s)
  dsimp only
  split
  · split
    · exact ht
    · split
      · exact runJob aclk j hs ht hj
      · exact ht.trans (foldl _ _ (fun n hn u => wakeDom n false u ((ht.placed hs).jobCores j n hn)) t)
  · exact ht

/-- A scheduling point (R360, R361). -/
theorem schedule (aclk : Nat) (s : State) (hs : s.CoresPlaced) : SchedKept s (schedule aclk s) := by
  have h1 := chargeAll aclk s
  have h2 := h1.trans (decideLoop aclk ((Machine.chargeAll aclk s).ctl.jobs.length + 1) ((Machine.chargeAll aclk s).candidates aclk)
    (((Machine.chargeAll aclk s).ctl.jobs.filter (fun j => j.st == .starting)).flatMap (Machine.chargeAll aclk s).jobCores) _ _
    (h1.placed hs) (fun _ => List.mem_of_mem_filter) (refl _))
  exact h2.trans (pumpJobs aclk _ (h2.placed hs))

end SchedKept
end Sys2Proof.Machine
end

section
/-! PROOFS. Firmware updates: staging, activation and cancelling (R366, R367, R373). -/

namespace Sys2Proof.Machine

/-! ### The command -/

theorem busWriteWith_updCmd (keyOk sigOk : Bool) (iid : Nat) (v : Word) (s : State) (h : s.Admits iid R.CTL_UPD_CMD .ctlUpd 0)
    (hc : commandOk [⟨1, 0, .wo, 0, 0, [(1, 3)]⟩] 0xFFFFFFFF#32 v = true) :
    busWriteWith ⟨keyOk, sigOk, false⟩ iid R.CTL_UPD_CMD 0xFFFFFFFF#32 v s
      = attributeErr iid R.CTL_UPD_CMD s (updCmd v keyOk sigOk s) := by
  have hf : findReg (R.CTL_UPD_CMD % 4096) (regsOf .ctlUpd)
      = some (⟨0x10c, 1, 0x0, 1, 0x0, .any, [⟨1, 0, .wo, 0, 0, [(1, 3)]⟩]⟩, 0, 0) := by decide
  rw [busWriteWith_command _ iid R.CTL_UPD_CMD v s .ctlUpd 0 _ 0 0 h (by decide) hf (by decide)
    (plainFields_of _ _ (by decide) (by decide) (by decide)) (by decide) hc]
  rfl

section
variable (iid : Fin 24) (s : State) (h : s.Admits iid R.CTL_UPD_CMD .ctlUpd 0)

/-- A command of the update that reports no error of its page ends as its own function leaves it. -/
theorem updCmd_quiet (t : State) (ht : t.reg (Pg.ctlUpd + Hdr.errStat) = s.reg (Pg.ctlUpd + Hdr.errStat)) :
    attributeErr iid R.CTL_UPD_CMD s t = t := attributeErr_quiet _ _ _ _ ht

include h

theorem exec_stage (keyOk sigOk : Bool) : exec (.stage iid keyOk sigOk) s
    = .next (attributeErr iid R.CTL_UPD_CMD s (stage keyOk sigOk s)) :=
  congrArg Host.Outcome.next (busWriteWith_updCmd keyOk sigOk iid 1#32 s h (by decide))

theorem exec_activate : exec (.activate iid) s = .next (attributeErr iid R.CTL_UPD_CMD s (activate' s)) :=
  congrArg Host.Outcome.next (busWriteWith_updCmd false false iid 2#32 s h (by decide))

theorem exec_cancel : exec (.cancel iid) s = .next (attributeErr iid R.CTL_UPD_CMD s (cancel s)) :=
  congrArg Host.Outcome.next (busWriteWith_updCmd false false iid 3#32 s h (by decide))

end

/-! ### The status word (R373) -/

section
variable (s : State)

/-- STATE and RESULT set. -/
def updWritten (state result : Nat) (s : State) : State :=
  (s.setFld R.CTL_UPD_STATUS F.CTL_UPD_STATUS_STATE state).setFld R.CTL_UPD_STATUS F.CTL_UPD_STATUS_RESULT result

theorem updResult_shown (state result : Nat) (h : state ≠ 5) : updResult state result s = updWritten state result s := if_neg h

theorem updWritten_state (state result : Nat) : (updWritten state result s).updState = state % 8 := by
  unfold updWritten State.updState
  rw [State.fld_setFld_other _ _ _ _ _ (by decide) (by decide), State.fld_setFld_same _ _ _ _ (by decide)]
  rfl

theorem updWritten_handed (state result : Nat) : (updWritten state result s).fld R.CTL_UPD_STATUS F.CTL_UPD_STATUS_HANDED
    = s.fld R.CTL_UPD_STATUS F.CTL_UPD_STATUS_HANDED := by
  unfold updWritten
  rw [State.fld_setFld_other _ _ _ _ _ (by decide) (by decide), State.fld_setFld_other _ _ _ _ _ (by decide) (by decide)]

theorem updWritten_reg (state result a : Nat) (h : a ≠ R.CTL_UPD_STATUS) : (updWritten state result s).reg a = s.reg a := by
  unfold updWritten
  rw [State.reg_setFld_ne _ _ _ _ _ h, State.reg_setFld_ne _ _ _ _ _ h]

/-! ### Staging (R366) -/

/-- The address and length of the image that STAGE reads. -/
def State.updDa (s : State) : Nat := s.fld R.CTL_UPD_DA_LO F.CTL_UPD_DA_LO_DA * 512 + s.fld R.CTL_UPD_DA_HI F.CTL_UPD_DA_HI_DA * 2 ^ 32
def State.updLen (s : State) : Nat := s.fld R.CTL_UPD_LEN F.CTL_UPD_LEN_BYTES

/-- The inactive slot without an image, and what its write will hold. -/
def Flash.staged (f : Flash) (idle : Nat) (next : FlashRec) : Flash :=
  let f1 := if idle = 0 then { f with img0 := none } else { f with img1 := none }
  { f1 with next := next, retried := false }

theorem imageBad_unsigned (b : List Byte) (n : Nat) (bad keyOk : Bool) : s.imageBad b n bad keyOk false = 1 := by
  unfold State.imageBad
  rw [if_pos (by simp)]

/-- The state once the image was read. -/
def State.imageRead (s : State) : State := if s.alien s.updDa s.updLen then s else (fwRead s.updDa s.updLen s).2.2.2

/-- What the write of the staged image will hold. -/
def State.imageOutcome (s : State) (keyOk sigOk : Bool) : FlashRec :=
  let r := fwRead s.updDa s.updLen s
  let k := s.imageRead.imageBad r.1 s.updLen (s.alien s.updDa s.updLen || r.2.1 != 0 || !r.2.2.1) keyOk sigOk
  if k = 0 then .image (parseImg r.1) else .badImage k

theorem imageRead_daKept : DaKept s s.imageRead := by
  unfold State.imageRead
  split
  · exact .refl s
  · exact fwRead_daKept _ _ s

theorem imageOutcome_kind (keyOk sigOk : Bool) :
    (∃ img, s.imageOutcome keyOk sigOk = .image img) ∨ ∃ k, s.imageOutcome keyOk sigOk = .badImage k := by
  unfold State.imageOutcome
  dsimp only
  split
  · exact .inl ⟨_, rfl⟩
  · exact .inr ⟨_, rfl⟩

theorem imageOutcome_unsigned (keyOk : Bool) : s.imageOutcome keyOk false = .badImage 1 := by
  unfold State.imageOutcome
  dsimp only
  rw [imageBad_unsigned]
  rfl

/-- A staging reads the image and starts the write of what it verified to (R366). -/
theorem stage_starts (keyOk sigOk : Bool) (h1 : s.updState ≠ 1) (h3 : s.updState ≠ 3) (hn : s.flash.next = .none)
    (hpf : s.pfRefuses = false) : stage keyOk sigOk s
      = (updWritten 1 0 (s.imageRead.setFld R.CTL_UPD_STATUS F.CTL_UPD_STATUS_HANDED 0)).modFlash
        (fun f => f.staged s.idleSlot (s.imageOutcome keyOk sigOk)) := by
  unfold stage
  dsimp only
  rw [if_neg (by simp [h1, h3, hn]), if_neg (by rw [hpf]; decide), updResult_shown _ _ _ (by decide)]
  rfl

theorem stage_idle (keyOk sigOk : Bool) (h : s.updState = 1 ∨ s.updState = 3 ∨ s.flash.next ≠ .none) : stage keyOk sigOk s = s :=
  if_pos h

/-! ### Activation (R367) -/

/-- The state of an activation whose loader is not yet taken. -/
def activating (s : State) : State :=
  (updWritten 3 0 (s.setFld R.CTL_UPD_STATUS F.CTL_UPD_STATUS_HANDED 0)).modUpd (fun _ => {})

theorem leastBelow_congr (n : Nat) {p q : Nat → Bool} (h : ∀ m, m < n → p m = q m) : leastBelow n p = leastBelow n q := by
  induction n with
  | zero => rfl
  | succ n ih =>
    unfold leastBelow
    rw [ih fun m hm => h m (Nat.lt_succ_of_lt hm), h n (Nat.lt_succ_self n)]

theorem activate_idle (h : s.updState ≠ 2) : activate' s = s := if_pos (.inl h)

/-- An activation with a spare takes it as loader and holds the first core's starts (R367). -/
theorem activate_starts (k c : Nat) (h2 : s.updState = 2) (hn : s.flash.next = .none)
    (hk : leastBelow 4 (fun m => s.fld (R.REL_CCORE m) F.REL_CCORE_STATE == 1) = some k)
    (hc : leastBelow 4 (fun m => bitOf (s.fld R.CTL_STATUS F.CTL_STATUS_ACTIVE) m && m != k) = some c) :
    activate' s = (activating s).modUpd (fun _ => { loader := some k, done := [k], holding := some c, since := s.dtime }) := by
  have hreg (a : Nat) (ha : a ≠ R.CTL_UPD_STATUS) : (activating s).reg a = s.reg a := by
    show (updWritten 3 0 (s.setFld R.CTL_UPD_STATUS F.CTL_UPD_STATUS_HANDED 0)).reg a = _
    rw [updWritten_reg _ _ _ _ ha, State.reg_setFld_ne _ _ _ _ _ ha]
  have hspare : leastBelow 4 (fun m => (activating s).fld (R.REL_CCORE m) F.REL_CCORE_STATE == 1) = some k := by
    rw [← hk]
    refine leastBelow_congr 4 fun m hm => ?_
    rw [State.fld, hreg _ (by unfold R.REL_CCORE R.CTL_UPD_STATUS Pg.rel1 Pg.ctlUpd; omega), State.fld]
  have hnext : ((activating s).modUpd (fun u => { u with loader := some k, done := u.done ++ [k] })).updNext = some c := by
    rw [← hc]
    refine congrArg (leastBelow 4) (funext fun m => ?_)
    have hact : ((activating s).modUpd (fun u => { u with loader := some k, done := u.done ++ [k] })).fld R.CTL_STATUS F.CTL_STATUS_ACTIVE
        = s.fld R.CTL_STATUS F.CTL_STATUS_ACTIVE := congrArg (wordFld · F.CTL_STATUS_ACTIVE) (hreg _ (by decide))
    rw [hact]
    show (_ && !([k].contains m)) = _
    simp only [List.contains_cons, List.contains_nil, Bool.or_false]
    rfl
  have htake : takeLoader (activating s) = (activating s).modUpd (fun u => { u with loader := some k, done := u.done ++ [k] }) := by
    unfold takeLoader
    dsimp only
    rw [hspare]
  unfold activate'
  rw [if_neg (by simp [h2, hn]), updResult_shown _ _ _ (by decide)]
  show holdNext (takeLoader (activating s)) = _
  rw [htake, holdNext, hnext]
  rfl

/-! ### Cancelling (R373) -/

theorem cancel_idle (h : s.updState = 0) : cancel s = s := by
  refine if_neg fun hc => ?_
  rw [h] at hc
  rcases hc.1 with h | h | h <;> cases h

theorem cancel_ends (h2 : s.updState = 2) (hh : s.fld R.CTL_UPD_STATUS F.CTL_UPD_STATUS_HANDED = 0) (hn : s.flash.next = .none) :
    cancel s = schedule ((placeLeft s).modUpd (fun _ => {})).ctl.aclk (updWritten 0 0 ((placeLeft s).modUpd (fun _ => {}))) := by
  unfold cancel
  rw [if_pos ⟨.inr (.inl h2), hh⟩, hn]
  dsimp only
  rw [updResult_shown _ _ _ (by decide)]

end
end Sys2Proof.Machine
end

section
/-! PROOFS. Firmware updates: the handover, its wait, and the obligation (R367, R374). -/

namespace Sys2Proof.Machine

/-! ### What hardly concerns the core that takes over -/

/-- What a handover shows of the control core `m` that takes over, the count and the owners, left alone. -/
structure HandKept (m : Nat) (s t : State) : Prop where
  active : bitOf (t.fld R.CTL_STATUS F.CTL_STATUS_ACTIVE) m = bitOf (s.fld R.CTL_STATUS F.CTL_STATUS_ACTIVE) m
  state : t.fld (R.REL_CCORE m) F.REL_CCORE_STATE = s.fld (R.REL_CCORE m) F.REL_CCORE_STATE
  handed : t.fld R.CTL_UPD_STATUS F.CTL_UPD_STATUS_HANDED = s.fld R.CTL_UPD_STATUS F.CTL_UPD_STATUS_HANDED
  owner : ∀ x, x < 128 → t.fld (R.CTL_CX_INFO x) F.CTL_CX_INFO_OWNER = s.fld (R.CTL_CX_INFO x) F.CTL_CX_INFO_OWNER
  placed : s.CoresPlaced → t.CoresPlaced

theorem ccore_low (m : Fin 4) : R.REL_CCORE m / 4096 = 0x31 := by
  unfold R.REL_CCORE Pg.rel1
  omega

theorem info_low (x : Nat) (hx : x < 128) : R.CTL_CX_INFO x / 4096 = 0x41 := by
  unfold R.CTL_CX_INFO Pg.ctlMb
  omega

namespace HandKept

variable {m : Fin 4} {s t u : State}

theorem refl (m : Nat) (s : State) : HandKept m s s := ⟨rfl, rfl, rfl, fun _ _ => rfl, fun h => h⟩

theorem trans (h : HandKept m s t) (k : HandKept m t u) : HandKept m s u where
  active := k.active.trans h.active
  state := k.state.trans h.state
  handed := k.handed.trans h.handed
  owner x hx := (k.owner x hx).trans (h.owner x hx)
  placed hs := k.placed (h.placed hs)

/-- Words of the four pages concerned stand. -/
theorem of_regs (h : ∀ a, a = R.CTL_STATUS ∨ a = R.REL_CCORE m ∨ a = R.CTL_UPD_STATUS ∨ a / 4096 = 0x41 → t.reg a = s.reg a)
    (hc : t.ctxs = s.ctxs) (hj : t.ctl.jobs = s.ctl.jobs) : HandKept m s t where
  active := by rw [State.fld, h _ (.inl rfl), State.fld]
  state := by rw [State.fld, h _ (.inr (.inl rfl)), State.fld]
  handed := by rw [State.fld, h _ (.inr (.inr (.inl rfl))), State.fld]
  owner x hx := by rw [State.fld, h _ (.inr (.inr (.inr (info_low x hx)))), State.fld]
  placed hs := hs.of_eq hc hj

theorem ctlWord_of {a : Nat} (h : a = R.CTL_STATUS ∨ a = R.REL_CCORE m ∨ a = R.CTL_UPD_STATUS ∨ a / 4096 = 0x41) : CtlWord a := by
  have hm := ccore_low m
  refine .inl ?_
  rcases h with rfl | h | rfl | h
  · decide
  · rw [← h] at hm
    unfold Pg.rel2
    omega
  · decide
  · unfold Pg.rel2
    omega

theorem schedule (aclk : Nat) (s : State) (hs : s.CoresPlaced) : HandKept m s (schedule aclk s) where
  active := by rw [State.fld, (SchedKept.schedule aclk s hs).reg _ (ctlWord_of (m := m) (.inl rfl)), State.fld]
  state := by rw [State.fld, (SchedKept.schedule aclk s hs).reg _ (ctlWord_of (m := m) (.inr (.inl rfl))), State.fld]
  handed := by rw [State.fld, (SchedKept.schedule aclk s hs).reg _ (ctlWord_of (m := m) (.inr (.inr (.inl rfl)))), State.fld]
  owner x hx := by
    rw [State.fld, (SchedKept.schedule aclk s hs).reg _ (ctlWord_of (m := m) (.inr (.inr (.inr (info_low x hx))))), State.fld]
  placed hs := (SchedKept.schedule aclk s hs).placed hs

theorem modUpd (f : Upd → Upd) (s : State) : HandKept m s (s.modUpd f) := of_regs (fun _ _ => rfl) rfl rfl

theorem modFlash (f : Flash → Flash) (s : State) : HandKept m s (s.modFlash f) := of_regs (fun _ _ => rfl) rfl rfl

/-- The state of another control core. -/
theorem setCcore (c : Fin 4) (v : Nat) (s : State) (h : c ≠ m) : HandKept m s (s.setFld (R.REL_CCORE c) F.REL_CCORE_STATE v) := by
  refine of_regs (fun a ha => State.reg_setFld_ne _ _ _ _ _ fun e => ?_) rfl rfl
  have hc := ccore_low c
  rw [← e] at hc
  rcases ha with rfl | ha | rfl | ha
  · exact absurd hc (by decide)
  · have : c.val ≠ m.val := fun e => h (Fin.ext e)
    rw [ha] at e
    unfold R.REL_CCORE at e
    omega
  · exact absurd hc (by decide)
  · omega

theorem ctlStatus_ne (m : Fin 4) : R.REL_CCORE m ≠ R.CTL_STATUS := by unfold R.REL_CCORE R.CTL_STATUS Pg.rel1 Pg.ctl0; omega

theorem info_ne (x : Nat) : R.CTL_CX_INFO x ≠ R.CTL_STATUS := by unfold R.CTL_CX_INFO R.CTL_STATUS Pg.ctlMb Pg.ctl0; omega

/-- The bit of ACTIVE of another control core. -/
theorem setActive (c : Fin 4) (on : Bool) (s : State) (h : c ≠ m) : HandKept m s (setActive c on s) where
  active := by rw [setActive_bits, if_neg h.symm]
  state := State.fld_setFld_ne _ _ _ _ _ _ (ctlStatus_ne m)
  handed := State.fld_setFld_ne _ _ _ _ _ _ (by decide)
  owner x _ := State.fld_setFld_ne _ _ _ _ _ _ (info_ne x)
  placed hs := hs.of_eq rfl rfl

theorem giveRoles (k j : Nat) (s : State) : HandKept m s (giveRoles k j s) where
  active := by rw [giveRoles_fld _ _ _ _ _ fun _ => rfl]
  state := giveRoles_fld _ _ _ _ _ fun e => absurd e (ctlStatus_ne m)
  handed := giveRoles_fld _ _ _ _ _ fun e => absurd e (by decide)
  owner x _ := giveRoles_fld _ _ _ _ _ fun e => absurd e (info_ne x)
  placed hs := by
    have hc : (Machine.giveRoles k j s).ctxs = s.ctxs ∧ (Machine.giveRoles k j s).ctl.jobs = s.ctl.jobs := by
      unfold Machine.giveRoles
      split <;> split <;> exact ⟨rfl, rfl⟩
    exact hs.of_eq hc.1 hc.2

theorem updFailed (s : State) : HandKept m s (updResult 5 4 s) := by
  have h : HandKept m s (updWritten 5 4 s) :=
    { active := by rw [State.fld, updWritten_reg _ _ _ _ (by decide), State.fld]
      state := by rw [State.fld, updWritten_reg _ _ _ _ (by unfold R.REL_CCORE R.CTL_UPD_STATUS Pg.rel1 Pg.ctlUpd; omega), State.fld]
      handed := updWritten_handed ..
      owner := fun x hx => by
        rw [State.fld, updWritten_reg _ _ _ _ (by unfold R.CTL_CX_INFO R.CTL_UPD_STATUS Pg.ctlMb Pg.ctlUpd; omega), State.fld]
      placed := fun hs => hs.of_eq rfl rfl }
  have hsame : (updResult 5 4 s).ctxs = (updWritten 5 4 s).ctxs ∧ (updResult 5 4 s).ctl.jobs = (updWritten 5 4 s).ctl.jobs := by
    show (errEvent Pg.ctlUpd E.ctlUpd_UPD_FAIL (updWritten 5 4 s)).ctxs = _ ∧ (errEvent Pg.ctlUpd E.ctlUpd_UPD_FAIL (updWritten 5 4 s)).ctl.jobs = _
    rw [errEvent_frame]
    exact ⟨rfl, rfl⟩
  refine h.trans (of_regs (fun a ha => errEvent_reg_ne _ _ _ _ (fun e => ?_) (fun e => ?_)) hsame.1 hsame.2)
  · rw [e] at ha
    have hm := ccore_low m
    rcases ha with ha | ha | ha | ha
    · exact absurd ha (by decide)
    · rw [← ha] at hm
      exact absurd hm (by decide)
    · exact absurd ha (by decide)
    · exact absurd ha (by decide)
  · rw [e] at ha
    have hm := ccore_low m
    rcases ha with ha | ha | ha | ha
    · exact absurd ha (by decide)
    · rw [← ha] at hm
      exact absurd hm (by decide)
    · exact absurd ha (by decide)
    · exact absurd ha (by decide)

/-- The core left over is another one. -/
theorem placeLeft (c : Fin 4) (s : State) (hl : s.ctl.upd.loader = some c.val) (h : c ≠ m) : HandKept m s (placeLeft s) := by
  unfold Machine.placeLeft
  rw [hl]
  dsimp only
  split
  · exact refl m s
  · split
    · exact setCcore c 1 s h
    · exact (setCcore c 0 s h).trans (setActive c true _ h)

theorem holdNext (c : Fin 4) (s : State) (hl : s.ctl.upd.loader = some c.val) (h : c ≠ m) : HandKept m s (holdNext s) := by
  have hleft := (placeLeft c s hl h).trans (modUpd (fun _ => {}) _)
  unfold Machine.holdNext
  cases s.updNext with
  | some k => exact modUpd _ s
  | none =>
    dsimp only
    unfold pointerWrite
    dsimp only
    split
    · exact hleft.trans (updFailed _)
    · exact hleft.trans (modFlash _ _)

end HandKept

/-! ### The handover (R367) -/

section
variable (c m : Fin 4) (s : State)

/-- A context that neither leaves the core nor comes to it stays with its owner. -/
theorem reassign_fold_other (k j : Nat) (l : List Nat) (t : State) (x : Nat)
    (h : t.fld (R.CTL_CX_INFO x) F.CTL_CX_INFO_OWNER ≠ k) (hj : j < 4) :
    (l.foldl (reassignOne k j) t).fld (R.CTL_CX_INFO x) F.CTL_CX_INFO_OWNER = t.fld (R.CTL_CX_INFO x) F.CTL_CX_INFO_OWNER := by
  induction l generalizing t with
  | nil => rfl
  | cons y l ih =>
    have hone : (reassignOne k j t y).fld (R.CTL_CX_INFO x) F.CTL_CX_INFO_OWNER = t.fld (R.CTL_CX_INFO x) F.CTL_CX_INFO_OWNER := by
      by_cases e : x = y
      · rw [← e, reassignOne_owner k j x hj, if_neg h]
      · exact reassignOne_ne k j y _ _ (by unfold R.CTL_CX_INFO; omega) t
    exact (ih _ (by rw [hone]; exact h)).trans hone

theorem reassign_fold_placed (k j : Nat) (l : List Nat) (t : State) :
    ((l.foldl (reassignOne k j) t).ctxs, (l.foldl (reassignOne k j) t).ctl.jobs) = (t.ctxs, t.ctl.jobs) :=
  foldl_keeps (fun t : State => (t.ctxs, t.ctl.jobs)) (reassignOne k j) (fun t x => by unfold reassignOne; split <;> rfl) l t

/-- The contexts of core `c` given to core `m`, which is in service. -/
def taken (c m : Nat) (s : State) : State :=
  reassign c (fun _ => m) (setActive m true (s.setFld (R.REL_CCORE m) F.REL_CCORE_STATE 0))

/-- What a core that takes over shows of itself and of the contexts it took (R367). -/
theorem taken_shows : bitOf ((taken c m s).fld R.CTL_STATUS F.CTL_STATUS_ACTIVE) m = true
    ∧ (taken c m s).fld (R.REL_CCORE m) F.REL_CCORE_STATE = 0
    ∧ (taken c m s).fld R.CTL_UPD_STATUS F.CTL_UPD_STATUS_HANDED = s.fld R.CTL_UPD_STATUS F.CTL_UPD_STATUS_HANDED
    ∧ (∀ x, x < 128 → s.exists' x = true → (taken c m s).fld (R.CTL_CX_INFO x) F.CTL_CX_INFO_OWNER
      = if s.fld (R.CTL_CX_INFO x) F.CTL_CX_INFO_OWNER = c.val then m.val else s.fld (R.CTL_CX_INFO x) F.CTL_CX_INFO_OWNER)
    ∧ ((taken c m s).ctxs, (taken c m s).ctl.jobs) = (s.ctxs, s.ctl.jobs) := by
  have hst := HandKept.ctlStatus_ne m
  have hx (x : Nat) (f : Fld) : (setActive m true (s.setFld (R.REL_CCORE m) F.REL_CCORE_STATE 0)).fld (R.CTL_CX_INFO x) f
      = s.fld (R.CTL_CX_INFO x) f := by
    unfold setActive
    dsimp only
    rw [State.fld_setFld_ne _ _ _ _ _ _ (HandKept.info_ne x),
      State.fld_setFld_ne _ _ _ _ _ _ (by unfold R.CTL_CX_INFO R.REL_CCORE Pg.ctlMb Pg.rel1; omega)]
  have hact : bitOf ((setActive m true (s.setFld (R.REL_CCORE m) F.REL_CCORE_STATE 0)).fld R.CTL_STATUS F.CTL_STATUS_ACTIVE) m = true := by
    rw [setActive_bits, if_pos rfl]
  have hstate : (setActive m true (s.setFld (R.REL_CCORE m) F.REL_CCORE_STATE 0)).fld (R.REL_CCORE m) F.REL_CCORE_STATE = 0 := by
    unfold setActive
    dsimp only
    rw [State.fld_setFld_ne _ _ _ _ _ _ hst, State.fld_setFld_same _ _ _ _ (by decide)]
    rfl
  have hupd : (setActive m true (s.setFld (R.REL_CCORE m) F.REL_CCORE_STATE 0)).fld R.CTL_UPD_STATUS F.CTL_UPD_STATUS_HANDED
      = s.fld R.CTL_UPD_STATUS F.CTL_UPD_STATUS_HANDED := by
    unfold setActive
    dsimp only
    rw [State.fld_setFld_ne _ _ _ _ _ _ (by decide),
      State.fld_setFld_ne _ _ _ _ _ _ (by unfold R.REL_CCORE R.CTL_UPD_STATUS Pg.rel1 Pg.ctlUpd; omega)]
  have hctx : ((setActive m true (s.setFld (R.REL_CCORE m) F.REL_CCORE_STATE 0)).ctxs,
      (setActive m true (s.setFld (R.REL_CCORE m) F.REL_CCORE_STATE 0)).ctl.jobs) = (s.ctxs, s.ctl.jobs) := rfl
  unfold taken
  rw [reassign_to]
  generalize setActive m true (s.setFld (R.REL_CCORE m) F.REL_CCORE_STATE 0) = t at hx hact hstate hupd hctx ⊢
  have hkept (a : Nat) (f : Fld) (h : ∀ x, x < 128 → a ≠ R.CTL_CX_INFO x) : (t.contexts.foldl (reassignOne c m) t).fld a f = t.fld a f :=
    reassign_fold_fld _ _ _ _ _ _ fun x hm => h x (List.mem_range.1 (List.mem_of_mem_filter hm))
  refine ⟨?_, ?_, ?_, fun x hlt he => ?_, (reassign_fold_placed _ _ _ _).trans hctx⟩
  · rw [hkept _ _ fun x _ => (HandKept.info_ne x).symm]
    exact hact
  · rw [hkept _ _ fun x _ => by unfold R.CTL_CX_INFO R.REL_CCORE Pg.ctlMb Pg.rel1; omega]
    exact hstate
  · rw [hkept _ _ fun x hx => by unfold R.CTL_CX_INFO R.CTL_UPD_STATUS Pg.ctlMb Pg.ctlUpd; omega]
    exact hupd
  · rw [← hx]
    by_cases ho : t.fld (R.CTL_CX_INFO x) F.CTL_CX_INFO_OWNER = c
    · rw [if_pos ho]
      refine reassign_fold_owner c m m.isLt _ _ x ?_ ho
      unfold State.contexts State.exists' State.flag at *
      simp only [List.mem_filter, List.mem_range, hx]
      exact ⟨hlt, he⟩
    · rw [if_neg ho]
      exact reassign_fold_other c m _ t x ho m.isLt

/-- A handover counted, with the core that handed over as the next loader. -/
def handCounted (c : Nat) (s : State) : State :=
  ((s.setFld R.CTL_UPD_STATUS F.CTL_UPD_STATUS_HANDED (s.fld R.CTL_UPD_STATUS F.CTL_UPD_STATUS_HANDED + 1)).setFld
    R.CTL_UPD_STATUS F.CTL_UPD_STATUS_RESULT 0).modUpd
      (fun u => { u with loader := some c, done := u.done ++ [c], holding := none, retry := none })

/-- A handover's outcome (R367). -/
theorem handOver_outcome (h : c ≠ m) (hs : s.CoresPlaced) :
    let t := handOver c m s
    bitOf (t.fld R.CTL_STATUS F.CTL_STATUS_ACTIVE) m = true ∧ t.fld (R.REL_CCORE m) F.REL_CCORE_STATE = 0
      ∧ t.fld R.CTL_UPD_STATUS F.CTL_UPD_STATUS_HANDED = (s.fld R.CTL_UPD_STATUS F.CTL_UPD_STATUS_HANDED + 1) % 8
      ∧ (∀ x, x < 128 → s.exists' x = true → t.fld (R.CTL_CX_INFO x) F.CTL_CX_INFO_OWNER
        = if s.fld (R.CTL_CX_INFO x) F.CTL_CX_INFO_OWNER = c.val then m.val else s.fld (R.CTL_CX_INFO x) F.CTL_CX_INFO_OWNER) := by
  obtain ⟨hact, hstate, hhand, howner, hctx⟩ := taken_shows c m s
  have hplaced : (taken c m s).CoresPlaced := hs.of_eq (Prod.ext_iff.1 hctx).1 (Prod.ext_iff.1 hctx).2
  have h3 : HandKept m (taken c m s) ((setActive c false (giveRoles c m (taken c m s))).setFld (R.REL_CCORE c) F.REL_CCORE_STATE 2) :=
    ((HandKept.giveRoles c m _).trans (.setActive c false _ h)).trans (.setCcore c 2 _ h)
  have ht (s3 : State) (e : (setActive c false (giveRoles c m (taken c m s))).setFld (R.REL_CCORE c) F.REL_CCORE_STATE 2 = s3) :
      handOver c m s = schedule (holdNext (handCounted c s3)).ctl.aclk (holdNext (handCounted c s3)) := by
    rw [← e]
    rfl
  generalize hs3 : (setActive c false (giveRoles c m (taken c m s))).setFld (R.REL_CCORE c) F.REL_CCORE_STATE 2 = s3 at h3
  rw [ht s3 hs3]
  generalize hs4 : handCounted c s3 = s4
  have hne (a : Nat) (f : Fld) (ha : a ≠ R.CTL_UPD_STATUS) : s4.fld a f = s3.fld a f := by
    rw [← hs4]
    show ((s3.setFld _ _ _).setFld _ _ _).fld a f = _
    rw [State.fld_setFld_ne _ _ _ _ _ _ ha, State.fld_setFld_ne _ _ _ _ _ _ ha]
  have hcount : s4.fld R.CTL_UPD_STATUS F.CTL_UPD_STATUS_HANDED = (s3.fld R.CTL_UPD_STATUS F.CTL_UPD_STATUS_HANDED + 1) % 8 := by
    rw [← hs4]
    show ((s3.setFld _ _ _).setFld _ _ _).fld _ _ = _
    rw [State.fld_setFld_other _ _ _ _ _ (by decide) (by decide), State.fld_setFld_same _ _ _ _ (by decide)]
    rfl
  have hload : s4.ctl.upd.loader = some c.val := by rw [← hs4]; rfl
  have hp4 : s4.CoresPlaced := by rw [← hs4]; exact (h3.placed hplaced).of_eq rfl rfl
  have h5 := (HandKept.holdNext (m := m) c s4 hload h).trans (.schedule (holdNext s4).ctl.aclk _ ((HandKept.holdNext (m := m) c s4 hload h).placed hp4))
  refine ⟨?_, ?_, ?_, fun x hx he => ?_⟩
  · rw [h5.active, hne _ _ (by decide), h3.active]
    exact hact
  · rw [h5.state, hne _ _ (by unfold R.REL_CCORE R.CTL_UPD_STATUS Pg.rel1 Pg.ctlUpd; omega), h3.state]
    exact hstate
  · rw [h5.handed, hcount, h3.handed, hhand]
  · rw [h5.owner x hx, hne _ _ (by unfold R.CTL_CX_INFO R.CTL_UPD_STATUS Pg.ctlMb Pg.ctlUpd; omega), h3.owner x hx]
    exact howner x hx he

end
end Sys2Proof.Machine
end

section
/-! PROOFS. Firmware updates: the waits, and the obligation (R366, R367, R373). -/

namespace Sys2Proof.Machine

section
variable (c m : Fin 4) (s : State) (h3 : s.updState = 3) (hhold : s.ctl.upd.holding = some c.val)
include h3 hhold

/-- The handover under way is waited for, or made (R367). -/
theorem updHandover_at (hn : s.flash.next = .none) (hl : s.ctl.upd.loader = some m.val) (hcan : s.canLoad m = true)
    (hact : bitOf (s.fld R.CTL_STATUS F.CTL_STATUS_ACTIVE) c = true) (hne : c ≠ m) :
    updHandover s = if s.handoverWaits c = true then s else handOver c m s := by
  have hcm : (c.val == m.val) = false := by simpa using fun e => hne (Fin.ext e)
  unfold updHandover
  rw [if_neg (by simp [h3, hn]), hl]
  dsimp only
  rw [if_pos hcan, hhold]
  dsimp only
  rw [hhold, hl]
  dsimp only
  rw [hact, hcm]
  rfl

/-- The starts released once the wait expired. -/
def waitExpired (c : Nat) (s : State) : State :=
  ((s.at (s.ctl.upd.since + s.updWait)).setFld R.CTL_UPD_STATUS F.CTL_UPD_STATUS_RESULT 5).modUpd (fun u =>
    { u with holding := none, retry := some c,
             again := (s.at (s.ctl.upd.since + s.updWait)).dtime + (s.at (s.ctl.upd.since + s.updWait)).updWait })

/-- An expired wait releases the starts and is tried again (R367). -/
theorem updWaitExpiry_releases (hw : s.handoverWaits c = true) (hp : s.CoresPlaced) :
    let t := updWaitExpiry s
    t.fld R.CTL_UPD_STATUS F.CTL_UPD_STATUS_RESULT = 5 ∧ t.ctl.upd.holding = none ∧ t.ctl.upd.retry = some c.val ∧ t.updState = 3
      ∧ t.dtime = max s.dtime (s.ctl.upd.since + s.updWait) := by
  have hat : updWaitExpiry s = schedule (waitExpired c s).ctl.aclk (waitExpired c s) := by
    unfold updWaitExpiry
    rw [hhold]
    exact if_pos ⟨h3, hw⟩
  have hk := SchedKept.schedule (waitExpired c s).ctl.aclk (waitExpired c s) (hp.of_eq rfl rfl)
  have hword : CtlWord R.CTL_UPD_STATUS := .inl (by decide)
  intro t
  have ht : t = schedule (waitExpired c s).ctl.aclk (waitExpired c s) := hat
  rw [ht]
  refine ⟨?_, by rw [hk.upd]; rfl, by rw [hk.upd]; rfl, ?_, hk.dtime⟩
  · rw [State.fld, hk.reg _ hword, ← State.fld]
    exact State.fld_setFld_same _ _ _ _ (by decide)
  · rw [State.updState, State.fld, hk.reg _ hword, ← State.fld]
    exact (State.fld_setFld_other _ _ _ _ _ (by decide) (by decide)).trans h3

end

section
variable (s : State)

theorem placeLeft_regsOnly : RegsOnly s (placeLeft s) := by
  unfold placeLeft
  cases s.ctl.upd.loader with
  | none => rfl
  | some k =>
    dsimp only
    split
    · rfl
    · split <;> rfl

/-- The core left over is one of the part's. -/
theorem placeLeft_reg (hl : ∀ k, s.ctl.upd.loader = some k → k < 4) (a : Nat) (h1 : a ≠ R.CTL_STATUS) (h2 : a / 4096 ≠ 0x31) :
    (placeLeft s).reg a = s.reg a := by
  unfold placeLeft
  cases hk : s.ctl.upd.loader with
  | none => rfl
  | some k =>
    have hne : a ≠ R.REL_CCORE k := fun e => h2 (e ▸ ccore_low ⟨k, hl k hk⟩)
    dsimp only
    split
    · rfl
    · split
      · exact State.reg_setFld_ne _ _ _ _ _ hne
      · unfold setActive
        rw [State.reg_setFld_ne _ _ _ _ _ h1, State.reg_setFld_ne _ _ _ _ _ hne]

/-- A cancelled update leaves nothing of itself (R373). -/
theorem cancel_outcome (hp : s.PlacesNamed) (h2 : s.updState = 2)
    (hh : s.fld R.CTL_UPD_STATUS F.CTL_UPD_STATUS_HANDED = 0) (hn : s.flash.next = .none) :
    (cancel s).updState = 0 ∧ (cancel s).ctl.upd = {} ∧ (cancel s).flash = s.flash
      ∧ (cancel s).reg (Pg.ctlUpd + Hdr.errStat) = s.reg (Pg.ctlUpd + Hdr.errStat) := by
  have hreg := placeLeft_regsOnly s
  have herr := placeLeft_reg s (fun k hk => hp.2.2.2 k (.inl hk)) (Pg.ctlUpd + Hdr.errStat) (by decide) (by decide)
  rw [cancel_ends s h2 hh hn]
  generalize placeLeft s = u at hreg herr ⊢
  unfold RegsOnly at hreg
  have hplaced : (updWritten 0 0 (u.modUpd (fun _ => {}))).CoresPlaced := by
    rw [hreg]
    exact hp.cores.of_eq rfl rfl
  have hk := SchedKept.schedule (u.modUpd (fun _ => {})).ctl.aclk _ hplaced
  refine ⟨?_, hk.upd, ?_, ?_⟩
  · rw [State.updState, State.fld, hk.reg _ (.inl (by decide)), ← State.fld]
    exact updWritten_state _ 0 0
  · rw [hk.flash, hreg]
    rfl
  · rw [hk.reg _ (.inl (by decide)), updWritten_reg _ _ _ _ (by decide)]
    exact herr

/-- What a staging leaves of the update and of the flash (R366). -/
theorem staged_outcome (u : State) (next : FlashRec) (h : DaKept s u) :
    let t := (updWritten 1 0 (u.setFld R.CTL_UPD_STATUS F.CTL_UPD_STATUS_HANDED 0)).modFlash (fun f => f.staged s.idleSlot next)
    t.updState = 1 ∧ t.flash.next = next
      ∧ (if s.idleSlot = 0 then t.flash.img1 = s.flash.img1 else t.flash.img0 = s.flash.img0) ∧ t.flash.slot = s.flash.slot
      ∧ t.reg (Pg.ctlUpd + Hdr.errStat) = s.reg (Pg.ctlUpd + Hdr.errStat) := by
  have hf : (updWritten 1 0 (u.setFld R.CTL_UPD_STATUS F.CTL_UPD_STATUS_HANDED 0)).flash = s.flash := h.flash
  have hslots : ((s.flash.staged s.idleSlot next).next = next)
      ∧ (if s.idleSlot = 0 then (s.flash.staged s.idleSlot next).img1 = s.flash.img1
          else (s.flash.staged s.idleSlot next).img0 = s.flash.img0)
      ∧ (s.flash.staged s.idleSlot next).slot = s.flash.slot := by
    unfold Flash.staged
    split
    · exact ⟨rfl, rfl, rfl⟩
    · exact ⟨rfl, rfl, rfl⟩
  intro t
  have htf : t.flash = s.flash.staged s.idleSlot next := congrArg (fun f : Flash => f.staged s.idleSlot next) hf
  rw [htf]
  obtain ⟨hnext, himg, hslot⟩ := hslots
  refine ⟨updWritten_state _ 1 0, hnext, himg, hslot, ?_⟩
  show (updWritten 1 0 (u.setFld R.CTL_UPD_STATUS F.CTL_UPD_STATUS_HANDED 0)).reg _ = _
  rw [updWritten_reg _ _ _ _ (by decide), State.reg_setFld_ne _ _ _ _ _ (by decide)]
  exact h.reg _ (by decide) (by decide)

/-- What an activation shows (R367). -/
theorem activating_shows (f : Upd → Upd) : ((activating s).modUpd f).updState = 3
    ∧ ((activating s).modUpd f).fld R.CTL_UPD_STATUS F.CTL_UPD_STATUS_HANDED = 0
    ∧ ((activating s).modUpd f).reg (Pg.ctlUpd + Hdr.errStat) = s.reg (Pg.ctlUpd + Hdr.errStat) := by
  refine ⟨updWritten_state _ 3 0, ?_, ?_⟩
  · exact (updWritten_handed _ 3 0).trans (State.fld_setFld_same _ _ _ _ (by decide))
  · show (updWritten 3 0 (s.setFld R.CTL_UPD_STATUS F.CTL_UPD_STATUS_HANDED 0)).reg _ = _
    rw [updWritten_reg _ _ _ _ (by decide), State.reg_setFld_ne _ _ _ _ _ (by decide)]

end

/-- Settles O42: a staging starts the write of what verified, an activation takes the spare, a handover moves one core's roles and
contexts, and a wait or a cancel ends as R367 and R373 have it. -/
theorem firmwareUpdatesByHandover : Obligations.FirmwareUpdatesByHandover := by
  unfold Obligations.FirmwareUpdatesByHandover
  intro s iid hp
  refine ⟨fun h => ⟨fun keyOk sigOk => ⟨fun h1 h3 hn hpf => ?_, fun hidle => ?_⟩, ?_, fun hne => ?_, fun h2 hh hn => ?_, fun h0 => ?_⟩, ?_⟩
  · obtain ⟨hst, hnext, himg, hslot, herr⟩ := staged_outcome s s.imageRead (s.imageOutcome keyOk sigOk) (imageRead_daKept s)
    rw [exec_stage iid s h, stage_starts s keyOk sigOk h1 h3 hn hpf]
    refine ⟨_, congrArg Host.Outcome.next (updCmd_quiet iid s _ herr), hst, fun hs => ?_, ?_, himg, hslot⟩
    · rw [hnext, hs]
      exact imageOutcome_unsigned s keyOk
    · rw [hnext]
      exact imageOutcome_kind s keyOk sigOk
  · rw [exec_stage iid s h, stage_idle s keyOk sigOk hidle]
    exact congrArg Host.Outcome.next (updCmd_quiet iid s s rfl)
  · intro k c h2 hn hk hc
    obtain ⟨hst, hhand, herr⟩ := activating_shows s (fun _ => { loader := some k, done := [k], holding := some c, since := s.dtime })
    rw [exec_activate iid s h, activate_starts s k c h2 hn hk hc]
    exact ⟨_, congrArg Host.Outcome.next (updCmd_quiet iid s _ herr), hst, rfl, rfl, hhand, rfl⟩
  · rw [exec_activate iid s h, activate_idle s hne]
    exact congrArg Host.Outcome.next (updCmd_quiet iid s s rfl)
  · obtain ⟨hst, hupd, hflash, herr⟩ := cancel_outcome s hp h2 hh hn
    rw [exec_cancel iid s h]
    exact ⟨_, congrArg Host.Outcome.next (updCmd_quiet iid s _ herr), hst, hupd, hflash⟩
  · rw [exec_cancel iid s h, cancel_idle s h0]
    exact congrArg Host.Outcome.next (updCmd_quiet iid s s rfl)
  · intro m c h3 hn hl hcan hhold hact hne
    have hat := updHandover_at c m s h3 hhold hn hl hcan hact hne
    refine ⟨fun hgo => ?_, fun hw => ⟨?_, _, rfl, updWaitExpiry_releases c s h3 hhold hw hp.cores⟩⟩
    · rw [if_neg (by rw [hgo]; decide)] at hat
      exact ⟨_, congrArg Host.Outcome.next hat, handOver_outcome c m s hne hp.cores⟩
    · rw [if_pos hw] at hat
      exact congrArg Host.Outcome.next hat

end Sys2Proof.Machine
end

section
/-! PROOFS. A context's move to another core (R364, R411). -/

namespace Sys2Proof.Machine

/-- The blocks of context `x` carried from core `a` to core `b`, its image with them (R364). -/
def blocksMoved (x a b k : Nat) (p : Place) (s : State) : State :=
  let s0 := if (s.core a).ctx = some x then switchOut a s else s
  let s1 := copyRows a b p.rowBase p.rows (copyRegions a b p.regBase p.regCount (copySlots a b p.imemBase p.imemCount s0))
  setRange b k x p.rowBase (p.rowBase + p.rows - 1) (clearRange a p.range s1)

/-- The core map of context `x` with core `b` in the place of core `a`, the `i`-th, and its jobs free to start there (R364). -/
def mapMoved (x a b i k aclk : Nat) (s : State) : State :=
  (s.modCtx x (fun c => { c with
    cores := modNth c.cores i (fun _ => b)
    place := modNth c.place i (fun p => { p with range := k })
    saved := c.saved.map (fun (j : SavedCore) => if j.core = a then { j with core := b } else j) })).modCtl
      (fun z => { z with jobs := z.jobs.map (fun (j : Job) =>
        if j.ctx = x ∧ j.held.contains a then { j with held := [], st := .starting, mark := aclk } else j) })

/-- Context `x` on core `b` in the place of core `a`, before the jobs that wait for cores start. -/
def contextMoved (x a b i k aclk : Nat) (s : State) : State :=
  (mapMoved x a b i k aclk (blocksMoved x a b k ((s.ctx x).place.getD i ⟨0, 0, 0, 0, 0, 0, 0⟩) s)).count Pg.ctl0 5 1

theorem moveContext_at (x a b i k aclk : Nat) (s : State) (hi : (s.ctx x).cores.findIdx? (· == a) = some i)
    (hk : s.samePlace b ((s.ctx x).place.getD i ⟨0, 0, 0, 0, 0, 0, 0⟩) = some k) :
    moveContext x a b aclk s = pumpJobs aclk (contextMoved x a b i k aclk s) := by
  unfold moveContext
  dsimp only
  rw [hi]
  dsimp only
  rw [hk]
  rfl

theorem moveContext_cases (x a b aclk : Nat) (s : State) :
    moveContext x a b aclk s = s ∨ ∃ i k, moveContext x a b aclk s = pumpJobs aclk (contextMoved x a b i k aclk s) := by
  cases hi : (s.ctx x).cores.findIdx? (· == a) with
  | none =>
    left
    unfold moveContext
    dsimp only
    rw [hi]
  | some i =>
    cases hk : s.samePlace b ((s.ctx x).place.getD i ⟨0, 0, 0, 0, 0, 0, 0⟩) with
    | none =>
      left
      unfold moveContext
      dsimp only
      rw [hi]
      dsimp only
      rw [hk]
    | some k => exact .inr ⟨i, k, moveContext_at x a b i k aclk s hi hk⟩

/-- What the carrying of a context's blocks leaves alone. -/
structure MoveSide (s t : State) : Prop where
  frame : t = { s with regs := t.regs, cores := t.cores, ctxs := t.ctxs, cnt := t.cnt, imem := t.imem, spad := t.spad, rowPoison := t.rowPoison }
  reg : ∀ a, a < 0x100000 → t.reg a = s.reg a
  ctx : ∀ y, t.ctx y = { s.ctx y with saved := (t.ctx y).saved }
  counter : ∀ k, k ≠ cntKey Pg.ctl0 2 → t.counter k = s.counter k

namespace MoveSide

theorem refl (s : State) : MoveSide s s := ⟨rfl, fun _ _ => rfl, fun _ => rfl, fun _ _ => rfl⟩

theorem trans {s t u : State} (h : MoveSide s t) (k : MoveSide t u) : MoveSide s u where
  frame := by rw [k.frame, h.frame]
  reg a ha := (k.reg a ha).trans (h.reg a ha)
  ctx y := by rw [k.ctx y, h.ctx y]
  counter c hc := (k.counter c hc).trans (h.counter c hc)

theorem setReg (a : Nat) (v : Word) (s : State) (ha : 0x100000 ≤ a) : MoveSide s (s.setReg a v) :=
  ⟨rfl, fun _ hb => State.reg_setReg_ne _ _ _ _ (by omega), fun _ => rfl, fun _ _ => rfl⟩

theorem switchOut (n : Nat) (s : State) : MoveSide s (switchOut n s) := by
  have h := CoreSide.switchOut n s
  refine ⟨?_, fun a ha => h.reg a fun hc => absurd hc.1 (by omega), h.ctx, h.counter⟩
  rw [h.frame]

theorem iter (k : Nat) (f : Nat → State → State) (hf : ∀ i t, MoveSide t (f i t)) (s : State) : MoveSide s (iter k f s) := by
  induction k with
  | zero => exact refl s
  | succ k ih => exact ih.trans (hf k _)

theorem copySlots (a b first k : Nat) (s : State) : MoveSide s (copySlots a b first k s) :=
  iter k (fun i t => t.setSlot b (first + i) (s.slot a (first + i)))
    (fun _ _ => ⟨rfl, fun _ _ => rfl, fun _ => rfl, fun _ _ => rfl⟩) s

theorem copyRegions (a b first k : Nat) (s : State) : MoveSide s (copyRegions a b first k s) :=
  iter _ _ (fun i t => (((setReg _ _ t (by unfold R.SPD_REGION_GEOM Pg.spd5; omega)).trans
    (setReg _ _ _ (by unfold R.SPD_REGION_OWNER Pg.spd5; omega))).trans
    (setReg _ _ _ (by unfold R.SPD_REGION_HEAD Pg.spd5; omega))).trans
    (setReg _ _ _ (by unfold R.SPD_REGION_TAIL Pg.spd5; omega))) s

theorem writeRow (n r : Nat) (bs : List Byte) (p : Nat) (s : State) : MoveSide s (s.writeRow n r bs p) :=
  ⟨rfl, fun _ _ => rfl, fun _ => rfl, fun _ _ => rfl⟩

theorem copyRows (a b first k : Nat) (s : State) : MoveSide s (copyRows a b first k s) :=
  iter k (fun i t => t.writeRow b (first + i) (s.rowBytes a (first + i)) (s.rowTag a (first + i))) (fun _ _ => writeRow ..) s

theorem rangeWords (n k : Nat) (v w : Word) (s : State) :
    MoveSide s ((s.setReg (R.SPD_RANGE_LO n k) v).setReg (R.SPD_RANGE_HI n k) w) :=
  (setReg _ v s (by unfold R.SPD_RANGE_LO Pg.spd3; omega)).trans (setReg _ w _ (by unfold R.SPD_RANGE_HI Pg.spd3; omega))

theorem blocks (x a b k : Nat) (p : Place) (s : State) : MoveSide s (blocksMoved x a b k p s) := by
  have h0 : MoveSide s (if (s.core a).ctx = some x then Machine.switchOut a s else s) := by
    split
    · exact switchOut a s
    · exact refl s
  exact ((((h0.trans (copySlots ..)).trans (copyRegions ..)).trans (copyRows ..)).trans (rangeWords ..)).trans (rangeWords ..)

end MoveSide

section
variable (x a b i k aclk : Nat) (s : State)

theorem mapMoved_ctx_same : ((mapMoved x a b i k aclk s).ctx x).cores = modNth (s.ctx x).cores i (fun _ => b) :=
  congrArg CtxRec.cores (Tab.get_set_same ..)

/-- The core map of a context that has moved. -/
theorem contextMoved_cores : ((contextMoved x a b i k aclk s).ctx x).cores = modNth (s.ctx x).cores i (fun _ => b) :=
  (mapMoved_ctx_same x a b i k aclk (blocksMoved x a b k ((s.ctx x).place.getD i ⟨0, 0, 0, 0, 0, 0, 0⟩) s)).trans
    (by rw [(MoveSide.blocks x a b k ((s.ctx x).place.getD i ⟨0, 0, 0, 0, 0, 0, 0⟩) s).ctx x])

theorem mapMoved_ctx_ne (y : Nat) (h : y ≠ x) : (mapMoved x a b i k aclk s).ctx y = s.ctx y := Tab.get_set_ne _ _ _ _ _ h

theorem mapMoved_placed (hb : b < 32) (hs : s.CoresPlaced) : (mapMoved x a b i k aclk s).CoresPlaced where
  ctx y n hn := by
    by_cases e : y = x
    · rw [e, mapMoved_ctx_same] at hn
      rcases mem_modNth hn with h | ⟨_, _, h⟩
      · exact hs.ctx x n h
      · rw [h]
        exact hb
    · rw [mapMoved_ctx_ne _ _ _ _ _ _ _ y e] at hn
      exact hs.ctx y n hn
  job j hj n hn := by
    obtain ⟨c, hc, rfl⟩ := List.mem_map.1 (show j ∈ s.ctl.jobs.map _ from hj)
    split at hn
    · cases hn
    · exact hs.job c hc n hn

end

/-- What moves of contexts leave alone of the records, of REL and of the control complex. -/
structure RelKept (s t : State) : Prop where
  recs : t.recs = s.recs
  rel : t.relHeld = s.relHeld
  dtime : t.dtime = s.dtime
  placed : s.CoresPlaced → t.CoresPlaced
  reg : ∀ a, 0x30000 ≤ a → a < 0x100000 → a / 4096 ≠ Pg.rel2 / 4096 → t.reg a = s.reg a
  counter : ∀ k, k / 4096 = Pg.rel0 / 4096 → t.counter k = s.counter k

namespace RelKept

theorem refl (s : State) : RelKept s s := ⟨rfl, rfl, rfl, fun h => h, fun _ _ _ _ => rfl, fun _ _ => rfl⟩

theorem trans {s t u : State} (h : RelKept s t) (k : RelKept t u) : RelKept s u where
  recs := k.recs.trans h.recs
  rel := k.rel.trans h.rel
  dtime := k.dtime.trans h.dtime
  placed hs := k.placed (h.placed hs)
  reg a h1 h2 h3 := (k.reg a h1 h2 h3).trans (h.reg a h1 h2 h3)
  counter c hc := (k.counter c hc).trans (h.counter c hc)

theorem sched {s t : State} (h : SchedKept s t) : RelKept s t where
  recs := h.recs
  rel := h.rel
  dtime := h.dtime
  placed := h.placed
  reg a h1 h2 h3 := h.reg a (.inl ⟨h1, h2, h3⟩)
  counter k hk := h.counter k (.inl hk)

theorem contextMoved (x a b i k aclk : Nat) (s : State) (hb : b < 32) : RelKept s (contextMoved x a b i k aclk s) := by
  have h := MoveSide.blocks x a b k ((s.ctx x).place.getD i ⟨0, 0, 0, 0, 0, 0, 0⟩) s
  unfold Machine.contextMoved
  generalize blocksMoved x a b k ((s.ctx x).place.getD i ⟨0, 0, 0, 0, 0, 0, 0⟩) s = t at h ⊢
  have hplaced (hs : s.CoresPlaced) : t.CoresPlaced :=
    ⟨fun y n hn => hs.ctx y n (by rwa [h.ctx y] at hn), fun j hj => hs.job j (by rwa [h.frame] at hj)⟩
  refine ⟨?_, ?_, ?_, fun hs => (mapMoved_placed x a b i k aclk t hb (hplaced hs)).of_eq rfl rfl, fun c _ h2 _ => h.reg c h2, fun c hc => ?_⟩
  · show t.recs = _
    rw [h.frame]
  · show t.relHeld = _
    rw [h.frame]
    rfl
  · show t.dtime = _
    rw [h.frame]
  · rw [State.counter_count_ne _ _ _ _ _ fun e => absurd (e ▸ hc) (by decide)]
    exact h.counter c fun e => absurd (e ▸ hc) (by decide)

theorem moveContext (x a b aclk : Nat) (s : State) (hb : b < 32) (hs : s.CoresPlaced) : RelKept s (moveContext x a b aclk s) := by
  obtain h | ⟨i, k, h⟩ := moveContext_cases x a b aclk s
  · rw [h]
    exact refl s
  · have hm := contextMoved x a b i k aclk s hb
    rw [h]
    exact hm.trans (sched (.pumpJobs aclk _ (hm.placed hs)))

theorem foldl {β : Type} (f : State → β → State) (l : List β) (hf : ∀ b ∈ l, ∀ t, t.CoresPlaced → RelKept t (f t b)) (s : State)
    (hs : s.CoresPlaced) : RelKept s (l.foldl f s) := by
  induction l generalizing s with
  | nil => exact refl s
  | cons b l ih =>
    have h := hf b List.mem_cons_self s hs
    exact h.trans (ih (fun c hc => hf c (List.mem_cons_of_mem _ hc)) _ (h.placed hs))

theorem spreadContexts (n aclk : Nat) (s : State) (hs : s.CoresPlaced) : RelKept s (spreadContexts n aclk s) := by
  unfold Machine.spreadContexts
  refine foldl _ _ (fun x _ t ht => ?_) s hs
  split
  · next m hm => exact moveContext x n m aclk t (Nat.lt_trans (leastBelow_some hm).1 (by decide)) ht
  · exact refl t

end RelKept
end Sys2Proof.Machine
end

section
/-! PROOFS. The lane test, the wear counts and service requests (R405, R415, R422, R428). -/

namespace Sys2Proof.Machine

/-! ### Events of REL page 0 -/

/-- An event of REL page 0: counted, shown and logged (R428). -/
def relNoted (e : LogEntry) (bit i : Nat) (s : State) : State := logEntry e (errEvent Pg.rel0 bit (s.count Pg.rel0 i 1))

section
variable (e : LogEntry) (bit i : Nat) (s : State)

theorem relNoted_logOnly : LogOnly s (relNoted e bit i s) :=
  ((LogOnly.count s _ _ _).trans (LogOnly.errEvent _ _ _)).trans (logEntry_frame _ _)

theorem relNoted_core (m : Nat) : (relNoted e bit i s).core m = s.core m := by rw [relNoted_logOnly e bit i s]; rfl

theorem relNoted_relHeld : (relNoted e bit i s).relHeld = s.relHeld := by
  rw [relNoted, SchedKept.logEntry_relHeld, errEvent_frame]
  rfl

theorem relNoted_reg (a : Nat) (h0 : a / 4096 ≠ Pg.rel0 / 4096) (h2 : a / 4096 ≠ Pg.rel2 / 4096) : (relNoted e bit i s).reg a = s.reg a := by
  rw [relNoted, logEntry_reg _ _ _ h2, (OnPage.errEvent _ Pg.rel0 _ (by decide)).1 a h0, State.count_reg]

theorem relNoted_fld (a : Nat) (f : Fld) (h0 : a / 4096 ≠ Pg.rel0 / 4096) (h2 : a / 4096 ≠ Pg.rel2 / 4096) :
    (relNoted e bit i s).fld a f = s.fld a f := by rw [State.fld, relNoted_reg _ _ _ _ a h0 h2, State.fld]

theorem relNoted_shows (h : bit < 32) : bitOf ((relNoted e bit i s).reg (Pg.rel0 + Hdr.errStat)).toNat bit = true := by
  rw [relNoted, logEntry_reg _ _ _ (by decide)]
  exact errEvent_sets _ _ _ h

theorem relNoted_keeps (b : Nat) (h : bitOf (s.reg (Pg.rel0 + Hdr.errStat)).toNat b = true) :
    bitOf ((relNoted e bit i s).reg (Pg.rel0 + Hdr.errStat)).toNat b = true := by
  rw [relNoted, logEntry_reg _ _ _ (by decide)]
  exact errEvent_keeps _ _ _ _ h

theorem relNoted_counter_same (h : cntKey Pg.rel0 i / 4096 ≠ Pg.rel2 / 4096) :
    (relNoted e bit i s).counter (cntKey Pg.rel0 i) = (s.counter (cntKey Pg.rel0 i) + 1) % 2 ^ 64 := by
  rw [relNoted, logEntry_counter _ _ _ h, errEvent_counter, State.counter_count_same]

theorem relNoted_counter_ne (k : Nat) (hk : k ≠ cntKey Pg.rel0 i) (h : k / 4096 ≠ Pg.rel2 / 4096) :
    (relNoted e bit i s).counter k = s.counter k := by
  rw [relNoted, logEntry_counter _ _ _ h, errEvent_counter, State.counter_count_ne _ _ _ _ _ hk]

end

/-! ### The lane test (R405) -/

section
variable (n : Nat) (s : State)

/-- A suspect operation noted. -/
def suspectNoted (n : Nat) (t : State) (o : Nat × Nat) : State :=
  relNoted { cls := LogCls.suspect, kind := LogKind.core, unit := n, ctx := o.1, arg0 := o.2 } E.rel0_SUSPECT 3 t

theorem suspectNoted_counter (o : Nat × Nat) :
    (suspectNoted n s o).counter (cntKey Pg.rel0 3) = (s.counter (cntKey Pg.rel0 3) + 1) % 2 ^ 64 :=
  relNoted_counter_same _ _ 3 s (by decide)

theorem suspects_core (l : List (Nat × Nat)) (m : Nat) : (l.foldl (suspectNoted n) s).core m = s.core m :=
  foldl_keeps (fun t : State => t.core m) (suspectNoted n) (fun t _ => relNoted_core _ _ _ t m) l s

/-- Every suspect operation is counted, and one is enough for SUSPECT. -/
theorem suspects_counted (o : Nat × Nat) (l : List (Nat × Nat)) :
    let t := (o :: l).foldl (suspectNoted n) s
    bitOf (t.reg (Pg.rel0 + Hdr.errStat)).toNat E.rel0_SUSPECT = true
      ∧ t.counter (cntKey Pg.rel0 3) = (s.counter (cntKey Pg.rel0 3) + (o :: l).length) % 2 ^ 64 := by
  induction l generalizing o s with
  | nil => exact ⟨relNoted_shows _ _ _ s (by decide), suspectNoted_counter n s o⟩
  | cons p l ih =>
    obtain ⟨hbit, hcnt⟩ := ih (suspectNoted n s o) p
    refine ⟨hbit, hcnt.trans ?_⟩
    rw [suspectNoted_counter]
    simp only [List.length_cons]
    omega

theorem laneTest_runs (fails : Bool) (hon : s.domOn n = true) (hb : s.busy n = false) (ht : (s.core n).laneTest = true) :
    laneTest n fails s = if fails then (s.core n).vecOps.foldl (suspectNoted n) (s.setCore n { s.core n with laneTest := false, retireWhy := 3 })
      else s.setCore n { s.core n with laneTest := false } := by
  unfold laneTest
  dsimp only
  rw [if_neg (by simp [hon, hb, ht])]
  cases fails <;> rfl

/-- A lane test that fails makes the core due for retirement and its operations suspect (R405). -/
theorem laneTest_fails :
    let t := (s.core n).vecOps.foldl (suspectNoted n) (s.setCore n { s.core n with laneTest := false, retireWhy := 3 })
    (t.core n).laneTest = false ∧ (t.core n).retireWhy = 3
      ∧ ((s.core n).vecOps ≠ [] → bitOf (t.reg (Pg.rel0 + Hdr.errStat)).toNat E.rel0_SUSPECT = true
        ∧ t.counter (cntKey Pg.rel0 3) = (s.counter (cntKey Pg.rel0 3) + (s.core n).vecOps.length) % 2 ^ 64) := by
  have hcore : (s.setCore n { s.core n with laneTest := false, retireWhy := 3 }).core n = { s.core n with laneTest := false, retireWhy := 3 } :=
    Tab.get_set_same ..
  refine ⟨?_, ?_, fun hne => ?_⟩
  · rw [suspects_core, hcore]
  · rw [suspects_core, hcore]
  · cases hl : (s.core n).vecOps with
    | nil => exact absurd hl hne
    | cons o l => exact suspects_counted n _ o l

end

/-! ### Wear counts (R422) -/

theorem wearSnapshot_logs (n : Nat) (s : State) (h : Tab.get s.rel.wearAt 0 n + 24 * hourTicks ≤ s.dtime) (hlost : s.rel.lost = 0)
    (hroom : s.rel.staging.length < 64) :
    ∃ e, Tab.get (wearSnapshot n s).rel.wearAt 0 n = s.dtime ∧ (wearSnapshot n s).rel.staging = s.rel.staging ++ [e]
      ∧ e.cls = LogCls.wear ∧ e.unit = n ∧ e.arg = s.wearWords n := by
  have hat : wearSnapshot n s = logEntry { cls := LogCls.wear, kind := LogKind.core, unit := n, arg := s.wearWords n }
      (s.modRel (fun r => { r with wearAt := Tab.set r.wearAt n s.dtime })) := by
    unfold wearSnapshot
    rw [if_neg (Nat.not_lt.mpr h)]
    rfl
  obtain ⟨hstaged, -, hwear⟩ := logEntry_staged { cls := LogCls.wear, kind := LogKind.core, unit := n, arg := s.wearWords n }
    (s.modRel (fun r => { r with wearAt := Tab.set r.wearAt n s.dtime })) hlost hroom
  rw [hat]
  refine ⟨_, ?_, hstaged, rfl, rfl, rfl⟩
  rw [hwear]
  exact Tab.get_set_same ..

/-! ### REL_SVC (R415, R428) -/

/-- The bits of a register that a write of 1 sets. -/
def setMask (flds : List FldDef) : Word := flds.foldr (fun f m => (if f.acc = .w1s then maskOf f.hi f.lo else 0) ||| m) 0

/-- A write to a register of read-only bits and of bits that a 1 sets (R6). -/
theorem fieldsWrite_w1s (iid a : Nat) (v : Word) (flds : List FldDef) (h : ∀ f ∈ flds, f.acc = .w1s ∨ f.acc = .ro) (s : State) :
    let t := fieldsWrite iid a 0xFFFFFFFF#32 v flds s
    t.reg a = s.reg a ||| (v &&& setMask flds) ∧ OnlyRegs [a] s t := by
  induction flds generalizing s with
  | nil => exact ⟨by simp [setMask, fieldsWrite], rfl, fun _ _ => rfl⟩
  | cons f fs ih =>
    obtain ⟨hreg, hframe, hne⟩ := ih (fun g hg => h g (List.mem_cons_of_mem _ hg)) (fieldWrite iid a 0xFFFFFFFF#32 v s f)
    have hone : (fieldWrite iid a 0xFFFFFFFF#32 v s f).reg a = s.reg a ||| (v &&& if f.acc = .w1s then maskOf f.hi f.lo else 0)
        ∧ OnlyRegs [a] s (fieldWrite iid a 0xFFFFFFFF#32 v s f) := by
      unfold fieldWrite
      dsimp only
      rw [and_full]
      split
      · next hm => exact ⟨by simp [hm], rfl, fun _ _ => rfl⟩
      · rcases h f List.mem_cons_self with e | e
        · rw [e]
          exact ⟨State.reg_setReg_same .., rfl, fun b hb => State.reg_setReg_ne _ _ _ _ (by simpa using hb)⟩
        · rw [e]
          exact ⟨by simp, rfl, fun _ _ => rfl⟩
    obtain ⟨hone, hframe1, hne1⟩ := hone
    refine ⟨hreg.trans ?_, RegsOnly.trans hframe1 hframe, fun b hb => (hne b hb).trans (hne1 b hb)⟩
    rw [hone]
    show _ = s.reg a ||| (v &&& (_ ||| setMask fs))
    rw [BitVec.and_or_distrib_left, BitVec.or_assoc]

/-- An event for reason `k` where the data has its bit. -/
def reasonSet (v : Word) (t : State) (k : Nat) : State := if bitOf v.toNat k then svcEvent k t else t

theorem svcEvent_shows (k : Nat) (s : State) : bitOf ((svcEvent k s).reg (Pg.rel0 + Hdr.errStat)).toNat E.rel0_SVC = true := by
  show bitOf ((logEntry _ _).reg _).toNat _ = true
  rw [logEntry_reg _ _ _ (by decide), State.count_reg]
  exact errEvent_sets _ _ _ (by decide)

theorem or_bit32_of_set (w : Word) (k : Nat) (hk : k < 32) (h : w.getLsbD k = true) : w ||| bit32 k = w := by
  refine BitVec.eq_of_getLsbD_eq fun i _ => ?_
  rw [BitVec.getLsbD_or, getLsbD_bit32 _ _ hk]
  by_cases e : i = k
  · rw [e, h, Bool.true_or]
  · simp [e]

/-- The events of a write whose reasons the register shows: ASSERTED where there is one. -/
theorem reasons_asserted (v : Word) (l : List Nat) (hl : ∀ k ∈ l, k < 32) (s : State)
    (h : ∀ k ∈ l, bitOf v.toNat k = true → (s.reg R.REL_SVC).getLsbD k = true) :
    let t := l.foldl (reasonSet v) s
    (l.any (bitOf v.toNat) = false → t = s)
      ∧ (l.any (bitOf v.toNat) = true → t.reg R.REL_SVC = s.reg R.REL_SVC ||| bit32 31
        ∧ bitOf (t.reg (Pg.rel0 + Hdr.errStat)).toNat E.rel0_SVC = true) := by
  induction l generalizing s with
  | nil => exact ⟨fun _ => rfl, fun h => by cases h⟩
  | cons k l ih =>
    have hl' := fun j hj => hl j (List.mem_cons_of_mem _ hj)
    by_cases hk : bitOf v.toNat k = true
    · have hstep : reasonSet v s k = svcEvent k s := if_pos hk
      have hreg : (svcEvent k s).reg R.REL_SVC = s.reg R.REL_SVC ||| bit32 31 := by
        rw [svcEvent_svc, or_bit32_of_set _ _ (hl k List.mem_cons_self) (h k List.mem_cons_self hk)]
      obtain ⟨hnone, hsome⟩ := ih hl' (svcEvent k s) fun j hj hb => by
        rw [hreg, BitVec.getLsbD_or, h j (List.mem_cons_of_mem _ hj) hb, Bool.true_or]
      have hany : (k :: l).any (bitOf v.toNat) = true := by rw [List.any_cons, hk, Bool.true_or]
      rw [hany, List.foldl_cons, hstep]
      refine ⟨fun e => (by cases e), fun _ => ?_⟩
      cases ha : l.any (bitOf v.toNat) with
      | false =>
        rw [hnone ha]
        exact ⟨hreg, svcEvent_shows k s⟩
      | true =>
        obtain ⟨h1, h2⟩ := hsome ha
        exact ⟨h1.trans (by rw [hreg, BitVec.or_assoc, BitVec.or_self]), h2⟩
    · have hstep : reasonSet v s k = s := if_neg hk
      obtain hih := ih hl' s fun j hj => h j (List.mem_cons_of_mem _ hj)
      simp only [Bool.not_eq_true] at hk
      simpa only [List.any_cons, hk, Bool.false_or, List.foldl_cons, hstep] using hih

theorem reasons_any (v : Word) : (List.range 7).any (bitOf v.toNat) = true ↔ v &&& 0x7F#32 ≠ 0 := by
  constructor
  · intro h e
    obtain ⟨k, hk, hb⟩ := List.any_eq_true.1 h
    have hm : (v &&& 0x7F#32).getLsbD k = true := by
      rw [bitOf_toNat] at hb
      have hk7 := List.mem_range.1 hk
      rw [BitVec.getLsbD_and, hb]
      interval_cases k <;> decide
    rw [e] at hm
    simp at hm
  · intro h
    by_contra hn
    refine h (BitVec.eq_of_getLsbD_eq fun i hi => ?_)
    rw [BitVec.getLsbD_and]
    show _ = (0#32).getLsbD i
    rw [BitVec.getLsbD_zero]
    by_cases h7 : i < 7
    · have : v.getLsbD i = false := by
        by_contra hb
        exact hn (List.any_eq_true.2 ⟨i, List.mem_range.2 h7, by rw [bitOf_toNat]; simpa using hb⟩)
      rw [this, Bool.false_and]
    · have : (0x7F#32).getLsbD i = false := by
        rw [not_lt] at h7
        interval_cases i <;> rfl
      rw [this, Bool.and_false]

/-- The register of the service reasons. -/
def svcReg : RegDef := ⟨0x100, 1, 0x0, 1, 0x0, .any, [⟨0, 0, .w1s, 0, 0, []⟩, ⟨1, 1, .w1s, 0, 0, []⟩, ⟨2, 2, .w1s, 0, 0, []⟩,
  ⟨3, 3, .w1s, 0, 0, []⟩, ⟨4, 4, .w1s, 0, 0, []⟩, ⟨5, 5, .w1s, 0, 0, []⟩, ⟨6, 6, .w1s, 0, 0, []⟩, ⟨31, 31, .ro, 0, 0, []⟩]⟩

theorem exec_relSvcWrite (iid : Fin 24) (val : Word) (s : State) (h : s.Admits iid R.REL_SVC .rel0 0) :
    exec (.relSvcWrite iid val) s = .next (attributeErr iid R.REL_SVC (fieldsWrite iid R.REL_SVC 0xFFFFFFFF#32 val svcReg.flds s)
      ((List.range 7).foldl (reasonSet val) (fieldsWrite iid R.REL_SVC 0xFFFFFFFF#32 val svcReg.flds s))) := by
  have hf : findReg (R.REL_SVC % 4096) (regsOf .rel0) = some (svcReg, 0, 0) := by decide
  refine congrArg Host.Outcome.next ?_
  have hn : needsOutcome R.REL_SVC = false := by decide
  unfold wordWrite busWrite
  rw [hn]
  refine (if_neg (by decide)).trans ?_
  rw [busWriteWith_fields _ iid R.REL_SVC val s .rel0 0 svcReg 0 0 h (by decide) hf rfl rfl]
  rfl

/-- A write to REL_SVC keeps each reason, and asserts SVC_REQ_N where it names one (R428). -/
theorem relSvcWrite_outcome (iid : Fin 24) (val : Word) (s : State) (h : s.Admits iid R.REL_SVC .rel0 0) :
    ∃ t, exec (.relSvcWrite iid val) s = .next t
      ∧ t.reg R.REL_SVC = (s.reg R.REL_SVC ||| (val &&& 0x7F#32) ||| if val &&& 0x7F#32 = 0 then 0 else 0x80000000#32)
      ∧ (val &&& 0x7F#32 ≠ 0 → bitOf (t.reg (Pg.rel0 + Hdr.errStat)).toNat E.rel0_SVC = true)
      ∧ (val &&& 0x7F#32 = 0 → OnlyRegs [] s t) := by
  refine ⟨_, exec_relSvcWrite iid val s h, ?_⟩
  obtain ⟨hreg, hframe, hne⟩ := fieldsWrite_w1s iid R.REL_SVC val svcReg.flds (by decide) s
  have hmask : setMask svcReg.flds = 0x7F#32 := by decide
  rw [hmask] at hreg
  generalize fieldsWrite iid R.REL_SVC 0xFFFFFFFF#32 val svcReg.flds s = u at hreg hframe hne ⊢
  have hshown (k : Nat) (hk : k ∈ List.range 7) (hb : bitOf val.toNat k = true) : (u.reg R.REL_SVC).getLsbD k = true := by
    rw [bitOf_toNat] at hb
    have hk7 := List.mem_range.1 hk
    have hm : (0x7F#32).getLsbD k = true := by interval_cases k <;> decide
    rw [hreg, BitVec.getLsbD_or, BitVec.getLsbD_and, hb, hm, Bool.and_self, Bool.or_true]
  obtain ⟨hnone, hsome⟩ := reasons_asserted val (List.range 7) (fun k hk => by have := List.mem_range.1 hk; omega) u hshown
  by_cases h0 : val &&& 0x7F#32 = 0
  · have hany : (List.range 7).any (bitOf val.toNat) = false := by
      rw [← Bool.not_eq_true, reasons_any]
      exact fun hn => hn h0
    rw [hnone hany, attributeErr_quiet _ _ _ _ rfl, hreg, if_pos h0]
    refine ⟨BitVec.or_zero.symm, fun hn => absurd h0 hn, fun _ => ⟨hframe, fun a _ => ?_⟩⟩
    by_cases ha : a = R.REL_SVC
    · rw [ha, hreg, h0]
      exact BitVec.or_zero
    · exact hne a (by simpa using ha)
  · obtain ⟨h1, h2⟩ := hsome ((reasons_any val).2 h0)
    refine ⟨?_, fun _ => ?_, fun e => absurd e h0⟩
    · rw [attributeErr_reg_ne _ _ _ _ _ (by decide), h1, hreg, if_neg h0]
      rfl
    · rw [attributeErr_reg_ne _ _ _ _ _ (by decide)]
      exact h2

end Sys2Proof.Machine
end

section
/-! PROOFS. Retirement of cores (R409 to R411, R432). -/

namespace Sys2Proof.Machine

/-- STATE of core `m` as REL shows it (R429). -/
def State.relState (s : State) (m : Nat) : Nat := s.fld (R.REL_CORE m) F.REL_CORE_STATE

theorem relCore_ne_of {n m : Nat} (h : m ≠ n) : R.REL_CORE m ≠ R.REL_CORE n := by
  unfold R.REL_CORE
  omega

/-- A place for a context's blocks rests on the contexts and on the core's SPD_RANGE entries. -/
theorem samePlace_congr (s t : State) (m : Nat) (p : Place)
    (hc : ∀ x, (t.ctx x).cores = (s.ctx x).cores ∧ (t.ctx x).place = (s.ctx x).place)
    (hi : ∀ x, t.reg (R.CTL_CX_INFO x) = s.reg (R.CTL_CX_INFO x)) (hr : ∀ k, t.reg (R.SPD_RANGE_HI m k) = s.reg (R.SPD_RANGE_HI m k)) :
    t.samePlace m p = s.samePlace m p := by
  have hcs : t.contexts = s.contexts := by
    unfold State.contexts
    congr 1
    funext x
    rw [State.exists', State.flag, State.fld, hi, ← State.fld, ← State.flag, ← State.exists']
  have hp : t.placesOn m = s.placesOn m := by
    unfold State.placesOn
    rw [hcs]
    simp only [fun x => (hc x).1, fun x => (hc x).2]
  have hf (k : Nat) (f : Fld) : t.fld (R.SPD_RANGE_HI m k) f = s.fld (R.SPD_RANGE_HI m k) f := by rw [State.fld, hr, State.fld]
  unfold State.samePlace
  rw [hp]
  simp only [hf]

section
variable (n why : Nat) (s : State)

/-- The words that retire core `n`. -/
def retiredWords (n why : Nat) (s : State) : State :=
  ((s.setFld (R.REL_CORE n) F.REL_CORE_STATE 3).setFld (R.REL_CORE n) F.REL_CORE_REASON why).modCore n (fun c => { c with retireWhy := 0 })

theorem markRetired_eq : markRetired n why s =
    relNoted { cls := LogCls.retire, kind := LogKind.core, unit := n, arg0 := why } E.rel0_RETIRE 1 (retiredWords n why s) := rfl

theorem retiredWords_reg (a : Nat) (h : a ≠ R.REL_CORE n) : (retiredWords n why s).reg a = s.reg a :=
  (State.reg_setFld_ne _ _ _ _ _ h).trans (State.reg_setFld_ne _ _ _ _ _ h)

theorem markRetired_ctxs : (markRetired n why s).ctxs = s.ctxs := by
  rw [markRetired_eq, relNoted_logOnly]
  rfl

theorem markRetired_reg (a : Nat) (h : a ≠ R.REL_CORE n) (h0 : a / 4096 ≠ Pg.rel0 / 4096) (h2 : a / 4096 ≠ Pg.rel2 / 4096) :
    (markRetired n why s).reg a = s.reg a := by
  rw [markRetired_eq, relNoted_reg _ _ _ _ _ h0 h2, retiredWords_reg n why s a h]

section
variable (hn : n < 18)
include hn

theorem markRetired_state : (markRetired n why s).relState n = 3 := by
  have hp := relCore_page n hn
  rw [markRetired_eq, State.relState, relNoted_fld _ _ _ _ _ _ (by rw [hp]; decide) (by rw [hp]; decide)]
  exact (State.fld_setFld_other _ _ _ _ _ (by decide) (by decide)).trans (State.fld_setFld_same _ _ _ _ (by decide))

theorem markRetired_reason : (markRetired n why s).fld (R.REL_CORE n) F.REL_CORE_REASON = why % 8 := by
  have hp := relCore_page n hn
  rw [markRetired_eq, relNoted_fld _ _ _ _ _ _ (by rw [hp]; decide) (by rw [hp]; decide)]
  exact State.fld_setFld_same _ _ _ _ (by decide)

end

theorem markRetired_state_ne (m : Nat) (hm : m < 18) (h : m ≠ n) : (markRetired n why s).relState m = s.relState m := by
  have hp := relCore_page m hm
  rw [State.relState, State.fld, markRetired_reg n why s _ (relCore_ne_of h) (by rw [hp]; decide) (by rw [hp]; decide), ← State.fld,
    ← State.relState]

end

section
variable (n k why : Nat) (s : State)

/-- Core `k`, a cold spare, in the place of core `n`, which retires (R411). -/
def spareTaken (n k why : Nat) (s : State) : State :=
  relSpare LogKind.core n 0xFFFF (n + k * 2 ^ 32) ((markRetired n why s).setFld (R.REL_CORE k) F.REL_CORE_STATE 0)

theorem spareTaken_eq : spareTaken n k why s = relNoted
    { cls := LogCls.spareSwap, kind := LogKind.core, unit := n, subunit := 0xFFFF, arg0 := n + k * 2 ^ 32 } E.rel0_SPARE_USED 0
    ((markRetired n why s).setFld (R.REL_CORE k) F.REL_CORE_STATE 0) := rfl

/-- Contexts and jobs stand where a spare takes over. -/
theorem spareTaken_ctxs : (spareTaken n k why s).ctxs = s.ctxs ∧ (spareTaken n k why s).ctl.jobs = s.ctl.jobs := by
  rw [spareTaken_eq, relNoted_logOnly]
  show (markRetired n why s).ctxs = _ ∧ (markRetired n why s).ctl.jobs = _
  rw [markRetired_eq, relNoted_logOnly]
  exact ⟨rfl, rfl⟩

theorem spareTaken_reg (a : Nat) (hn : a ≠ R.REL_CORE n) (hk : a ≠ R.REL_CORE k) (h0 : a / 4096 ≠ Pg.rel0 / 4096)
    (h2 : a / 4096 ≠ Pg.rel2 / 4096) : (spareTaken n k why s).reg a = s.reg a := by
  rw [spareTaken_eq, relNoted_reg _ _ _ _ _ h0 h2, State.reg_setFld_ne _ _ _ _ _ hk, markRetired_reg n why s a hn h0 h2]

theorem spareTaken_shows : bitOf ((spareTaken n k why s).reg (Pg.rel0 + Hdr.errStat)).toNat E.rel0_RETIRE = true := by
  rw [spareTaken_eq]
  refine relNoted_keeps _ _ _ _ _ ?_
  rw [State.reg_setFld_ne _ _ _ _ _ (by unfold R.REL_CORE Pg.rel1 Pg.rel0 Hdr.errStat; omega), markRetired_eq]
  exact relNoted_shows _ _ _ _ (by decide)

theorem spareTaken_counts :
    (spareTaken n k why s).counter (cntKey Pg.rel0 1) = (s.counter (cntKey Pg.rel0 1) + 1) % 2 ^ 64
      ∧ (spareTaken n k why s).counter (cntKey Pg.rel0 0) = (s.counter (cntKey Pg.rel0 0) + 1) % 2 ^ 64 := by
  have h (c : Nat) : ((markRetired n why s).setFld (R.REL_CORE k) F.REL_CORE_STATE 0).counter c = (markRetired n why s).counter c := rfl
  constructor
  · rw [spareTaken_eq, relNoted_counter_ne _ _ _ _ _ (by decide) (by decide), h, markRetired_eq, relNoted_counter_same _ _ _ _ (by decide)]
    rfl
  · rw [spareTaken_eq, relNoted_counter_same _ _ _ _ (by decide), h, markRetired_eq, relNoted_counter_ne _ _ _ _ _ (by decide) (by decide)]
    rfl

/-- What REL shows of the two cores (R411). -/
theorem spareTaken_states (hn : n < 18) (hk : k < 18) (hne : k ≠ n) :
    (spareTaken n k why s).relState n = 3 ∧ (spareTaken n k why s).relState k = 0
      ∧ (spareTaken n k why s).fld (R.REL_CORE n) F.REL_CORE_REASON = why % 8 := by
  have hp := relCore_page n hn
  have hpk := relCore_page k hk
  rw [spareTaken_eq, State.relState, State.relState, relNoted_fld _ _ _ _ _ _ (by rw [hp]; decide) (by rw [hp]; decide),
    relNoted_fld _ _ _ _ _ _ (by rw [hpk]; decide) (by rw [hpk]; decide), relNoted_fld _ _ _ _ _ _ (by rw [hp]; decide) (by rw [hp]; decide),
    State.fld_setFld_ne _ _ _ _ _ _ (relCore_ne_of hne.symm), State.fld_setFld_ne _ _ _ _ _ _ (relCore_ne_of hne.symm)]
  exact ⟨markRetired_state n why s hn, State.fld_setFld_same _ _ _ _ (by decide), markRetired_reason n why s hn⟩

theorem spareTaken_reg_high (a : Nat) (hn : n < 18) (hk : k < 18) (h : 0x33000 ≤ a) : (spareTaken n k why s).reg a = s.reg a := by
  have hpn := relCore_page n hn
  have hpk := relCore_page k hk
  refine spareTaken_reg n k why s a (fun e => ?_) (fun e => ?_) ?_ ?_
  · rw [← e] at hpn
    omega
  · rw [← e] at hpk
    omega
  · unfold Pg.rel0
    omega
  · unfold Pg.rel2
    omega

theorem spareTaken_samePlace (p : Place) (hn : n < 18) (hk : k < 18) :
    (spareTaken n k why s).samePlace k p = s.samePlace k p :=
  samePlace_congr s _ k p (fun x => by unfold State.ctx; rw [(spareTaken_ctxs n k why s).1]; exact ⟨rfl, rfl⟩)
    (fun _ => spareTaken_reg_high n k why s _ hn hk (by unfold R.CTL_CX_INFO Pg.ctlMb; omega))
    fun _ => spareTaken_reg_high n k why s _ hn hk (by unfold R.SPD_RANGE_HI Pg.spd3; omega)

/-- A core at its drained boundary retires for a spare that passes its test (R411). -/
theorem spare_moves (aclk : Nat) (hp : s.CoresPlaced) (hn : n < 18) (hk : k < 18) (hne : k ≠ n) :
    let t := (s.ctxsOn n).foldl (fun t x => moveContext x n k aclk t) (spareTaken n k why s)
    t.relState n = 3 ∧ t.relState k = 0
      ∧ t.fld (R.REL_CORE n) F.REL_CORE_REASON = why % 8
      ∧ t.counter (cntKey Pg.rel0 1) = (s.counter (cntKey Pg.rel0 1) + 1) % 2 ^ 64
      ∧ t.counter (cntKey Pg.rel0 0) = (s.counter (cntKey Pg.rel0 0) + 1) % 2 ^ 64
      ∧ bitOf (t.reg (Pg.rel0 + Hdr.errStat)).toNat E.rel0_RETIRE = true
      ∧ ∀ x i p, s.ctxsOn n = [x] → (s.ctx x).cores.findIdx? (· == n) = some i → (s.ctx x).place[i]? = some p →
        (s.samePlace k p).isSome = true → (t.ctx x).cores = modNth (s.ctx x).cores i (fun _ => k) := by
  obtain ⟨hsn, hsk, hwhy⟩ := spareTaken_states n k why s hn hk hne
  obtain ⟨hc1, hc0⟩ := spareTaken_counts n k why s
  obtain ⟨hctxs, hjobs⟩ := spareTaken_ctxs n k why s
  have hctx (x : Nat) : (spareTaken n k why s).ctx x = s.ctx x := by unfold State.ctx; rw [hctxs]
  have hshow := spareTaken_shows n k why s
  have hplace := fun p => spareTaken_samePlace n k why s p hn hk
  have hplaced : (spareTaken n k why s).CoresPlaced := hp.of_eq hctxs hjobs
  generalize spareTaken n k why s = u at *
  have hm : RelKept u ((s.ctxsOn n).foldl (fun t x => moveContext x n k aclk t) u) :=
    .foldl _ _ (fun x _ t ht => .moveContext x n k aclk t (by omega) ht) u hplaced
  have hfld (m : Nat) (hm18 : m < 18) (f : Fld) : ((s.ctxsOn n).foldl (fun t x => moveContext x n k aclk t) u).fld (R.REL_CORE m) f
      = u.fld (R.REL_CORE m) f := by
    have hpage := relCore_page m hm18
    rw [State.fld, hm.reg _ (by omega) (by omega) (by rw [hpage]; decide), State.fld]
  refine ⟨(hfld n hn _).trans hsn, (hfld k hk _).trans hsk, (hfld n hn _).trans hwhy, (hm.counter _ (by decide)).trans hc1,
    (hm.counter _ (by decide)).trans hc0, ?_, fun x i p hone hi hpl hsp => ?_⟩
  · rw [hm.reg _ (by decide) (by decide) (by decide)]
    exact hshow
  · obtain ⟨j, hj⟩ := Option.isSome_iff_exists.1 hsp
    have hat := moveContext_at x n k i j aclk u (by rw [hctx]; exact hi)
      (by rw [hctx, List.getD_eq_getElem?_getD, hpl, hplace]; exact hj)
    have hmoved := RelKept.contextMoved x n k i j aclk u (by omega)
    rw [hone, List.foldl_cons, List.foldl_nil, hat, (SchedKept.pumpJobs aclk _ (hmoved.placed hplaced)).ctx x]
    exact (contextMoved_cores x n k i j aclk u).trans (by rw [hctx])

theorem coreRetire_at (aclk : Nat) (pass : Bool) (hwhy : (s.core n).retireWhy ≠ 0) (hst : s.relState n ≠ 3) (hr : s.retirable n = true)
    (hfirst : ∀ m, m < n → (s.core m).retireWhy = 0) (hres : s.recs.reserve = true) (hk : leastBelow 18 s.coldSpare = some k)
    (hon : s.domOn k = true) :
    coreRetire n pass aclk s = if pass then (s.ctxsOn n).foldl (fun t x => moveContext x n k aclk t) (spareTaken n k (s.core n).retireWhy s)
      else markRetired k 4 s := by
  have hany : anyBelow n (fun m => (s.core m).retireWhy != 0 && s.fld (R.REL_CORE m) F.REL_CORE_STATE != 3 && s.retirable m) = false :=
    anyBelow_false _ _ fun m hm => by simp [hfirst m hm]
  unfold State.relState at hst
  unfold coreRetire
  dsimp only
  rw [if_neg (by simp [hwhy, hst]), hr, if_neg (by decide), hany, if_neg (by decide), hres, if_neg (by decide), hk]
  dsimp only
  rw [hon, if_neg (by decide)]
  cases pass <;> rfl

end
end Sys2Proof.Machine
end

section
/-! PROOFS. Maintenance drains, the spare policy, and the obligation (R405, R409 to R411, R414, R415, R422, R428, R432). -/

namespace Sys2Proof.Machine

/-! ### Maintenance drains (R414) -/

section
variable (n aclk : Nat) (s : State)

theorem maintDrain_reserve (pass : Bool) (h : s.recs.reserve = true) : maintDrain n pass aclk s = s := by
  unfold maintDrain
  dsimp only
  rw [if_pos (.inl h)]

section
variable (hres : s.recs.reserve = false) (hdis : s.disabled n = false)
include hres hdis

theorem maintDrain_waits (pass : Bool) (h0 : s.relState n = 0) (h : ∃ m, m < 18 ∧ s.relState m = 2) : maintDrain n pass aclk s = s := by
  obtain ⟨m, hm, h2⟩ := h
  unfold State.relState at h0 h2
  have hany : anyBelow 18 (fun m => s.fld (R.REL_CORE m) F.REL_CORE_STATE == 2) = true := (anyBelow_iff _ _).2 ⟨m, hm, by simp [h2]⟩
  unfold maintDrain
  dsimp only
  rw [if_neg (by simp [hres, hdis]), if_pos h0, if_pos (.inr (.inr hany))]

theorem maintDrain_drains (pass : Bool) (h0 : s.relState n = 0) (hpos : 0 < s.fld R.REL_THR F.REL_THR_ROTATE_H)
    (hdue : Tab.get s.rel.rotated 0 n + s.fld R.REL_THR F.REL_THR_ROTATE_H * hourTicks ≤ s.dtime)
    (hfree : ∀ m, m < 18 → s.relState m ≠ 2) :
    maintDrain n pass aclk s = preempt [n] ((chargeAll aclk s).setFld (R.REL_CORE n) F.REL_CORE_STATE 2) := by
  have hany : anyBelow 18 (fun m => s.fld (R.REL_CORE m) F.REL_CORE_STATE == 2) = false :=
    anyBelow_false _ _ fun m hm => by
      have := hfree m hm
      unfold State.relState at this
      simp [this]
  have hno : ¬ (s.fld R.REL_THR F.REL_THR_ROTATE_H = 0
      ∨ s.dtime < Tab.get s.rel.rotated 0 n + s.fld R.REL_THR F.REL_THR_ROTATE_H * hourTicks ∨ false = true) := by
    rintro (h | h | h)
    · exact absurd h hpos.ne'
    · exact absurd hdue (Nat.not_le.mpr h)
    · cases h
  unfold State.relState at h0
  unfold maintDrain
  dsimp only
  rw [if_neg (by simp [hres, hdis]), if_pos h0, hany, if_neg hno]

/-- A core that is due drains (R414). -/
theorem maintDrain_states (pass : Bool) (hn : n < 18) (hp : s.CoresPlaced) (h0 : s.relState n = 0)
    (hpos : 0 < s.fld R.REL_THR F.REL_THR_ROTATE_H)
    (hdue : Tab.get s.rel.rotated 0 n + s.fld R.REL_THR F.REL_THR_ROTATE_H * hourTicks ≤ s.dtime)
    (hfree : ∀ m, m < 18 → s.relState m ≠ 2) :
    (maintDrain n pass aclk s).relState n = 2 ∧ ∀ m, m < 18 → m ≠ n → (maintDrain n pass aclk s).relState m = s.relState m := by
  rw [maintDrain_drains n aclk s hres hdis pass h0 hpos hdue hfree]
  have hc := SchedKept.chargeAll aclk s
  generalize chargeAll aclk s = u at hc ⊢
  have hk := RelKept.sched (.preempt [n] (u.setFld (R.REL_CORE n) F.REL_CORE_STATE 2) ((hc.placed hp).of_eq rfl rfl))
  generalize preempt [n] (u.setFld (R.REL_CORE n) F.REL_CORE_STATE 2) = t at hk ⊢
  have hfld (m : Nat) (hm : m < 18) : t.relState m = (u.setFld (R.REL_CORE n) F.REL_CORE_STATE 2).relState m := by
    have hpage := relCore_page m hm
    rw [State.relState, State.fld, hk.reg _ (by omega) (by omega) (by rw [hpage]; decide), ← State.fld, ← State.relState]
  refine ⟨(hfld n hn).trans (State.fld_setFld_same _ _ _ _ (by decide)), fun m hm hne => (hfld m hm).trans ?_⟩
  have hpage := relCore_page m hm
  rw [State.relState, State.fld_setFld_ne _ _ _ _ _ _ (relCore_ne_of hne), State.fld,
    (RelKept.sched hc).reg _ (by omega) (by omega) (by rw [hpage]; decide), ← State.fld, ← State.relState]

/-- Core `n` noted as tested now. -/
def testNoted (n : Nat) (s : State) : State := { s with rel := { s.rel with rotated := Tab.set s.rel.rotated n s.dtime } }

theorem maintDrain_tested (pass : Bool) (h2 : s.relState n = 2) (hc : s.ctxsOn n = []) (hr : s.atRest n = true) :
    maintDrain n pass aclk s = if pass then (((s.core n).spareDue.foldl (fun t q => bringSpare n q t) (testNoted n s)).modCore n
        (fun c => { c with spareDue := [] })).setFld (R.REL_CORE n) F.REL_CORE_STATE 0
      else (testNoted n s).modCore n (fun c => { c with retireWhy := 5 }) := by
  unfold State.relState at h2
  unfold maintDrain
  dsimp only
  rw [if_neg (by simp [hres, hdis]), h2, if_neg (by decide), if_pos rfl, hc, hr, if_neg (by decide)]
  cases pass <;> rfl

end

theorem bringSpare_relHeld (q : Nat × Bool) : (bringSpare n q s).relHeld = s.relHeld := by
  have h (kind sub arg : Nat) (t : State) : (relSpare kind n sub arg t).relHeld = t.relHeld :=
    relNoted_relHeld { cls := LogCls.spareSwap, kind := kind, unit := n, subunit := sub, arg0 := arg } E.rel0_SPARE_USED 0 t
  have he (b i : Nat) (t : State) : (errEvent b i t).relHeld = t.relHeld := by rw [errEvent_frame]; rfl
  unfold bringSpare
  dsimp only
  rw [h]
  exact he _ _ _

/-- A core that passes its test returns to service with its spares (R414). -/
theorem maintDrain_returns :
    let t := (((s.core n).spareDue.foldl (fun t q => bringSpare n q t) (testNoted n s)).modCore n
        (fun c => { c with spareDue := [] })).setFld (R.REL_CORE n) F.REL_CORE_STATE 0
    t.relState n = 0 ∧ (t.core n).spareDue = [] ∧ Tab.get t.rel.rotated 0 n = s.dtime := by
  have h := foldl_keeps State.relHeld (fun t q => bringSpare n q t) (fun t q => bringSpare_relHeld n t q) (s.core n).spareDue (testNoted n s)
  generalize (s.core n).spareDue.foldl (fun t q => bringSpare n q t) (testNoted n s) = u at h ⊢
  refine ⟨State.fld_setFld_same _ _ _ _ (by decide), ?_, ?_⟩
  · show ((u.modCore n (fun c => { c with spareDue := [] })).core n).spareDue = []
    rw [State.core_modCore_same]
  · have hrot : u.rel.rotated = (testNoted n s).rel.rotated := (Prod.ext_iff.1 h).2
    show Tab.get u.rel.rotated 0 n = _
    rw [hrot]
    exact Tab.get_set_same ..

end

/-! ### The spare policy (R409) -/

section
variable (aclk : Nat) (s : State)

/-- A change of policy before the cores change. -/
def policySet (s : State) : State := { s with recs := { s.recs with reserve := s.flash.cfg.policy == 0 } }

/-- Cores that become cold spares, their contexts moved, or cold spares that return to service (R409). -/
def policyCores (aclk : Nat) (s : State) : State :=
  if s.flash.cfg.policy == 0 then
    ((highCores (policySet s).inService).take 2).foldl (fun t n => spreadContexts n aclk (t.setFld (R.REL_CORE n) F.REL_CORE_STATE 1))
      (policySet s)
  else (List.range 18).foldl (fun t n => if s.coldSpare n then t.setFld (R.REL_CORE n) F.REL_CORE_STATE 0 else t) (policySet s)

/-- The policy in force counted and shown. -/
def policyShown (s : State) : State := errEvent Pg.rel0 E.rel0_POLICY (s.count Pg.rel0 4 1)

theorem policyChange_same (h : (s.flash.cfg.policy == 0) = s.recs.reserve) : policyChange aclk s = s := by
  unfold policyChange
  dsimp only
  rw [h, if_pos (by simp)]

theorem policyChange_held (h : ∃ j ∈ s.ctl.jobs, j.held ≠ []) : policyChange aclk s = s := by
  obtain ⟨j, hj, hne⟩ := h
  have hany : s.ctl.jobs.any (fun j => !j.held.isEmpty) = true := List.any_eq_true.2 ⟨j, hj, by simpa using hne⟩
  unfold policyChange
  dsimp only
  rw [hany, if_pos (by simp)]

theorem policyChange_at (h : (s.flash.cfg.policy == 0) ≠ s.recs.reserve) (hheld : ∀ j ∈ s.ctl.jobs, j.held = [])
    (hidle : ∀ m, m < 18 → (s.core m).retireWhy = 0 ∧ (s.core m).bankSwap = none ∧ ∀ o ∈ (s.core m).ops, o.swapping = false) :
    policyChange aclk s = schedule aclk (((policyShown (policyCores aclk s)).setReg (Pg.mgt0 + 8)
      (capWord (policyShown (policyCores aclk s)))).modRel (fun r => { r with holdStarts := false })) := by
  have hjobs : s.ctl.jobs.any (fun j => !j.held.isEmpty) = false := by
    rw [List.any_eq_false]
    intro j hj
    simp [hheld j hj]
  have hcores : anyBelow 18 (fun n => (s.core n).retireWhy != 0 || (s.core n).bankSwap.isSome || (s.core n).ops.any (·.swapping)) = false := by
    refine anyBelow_false _ _ fun m hm => ?_
    obtain ⟨h1, h2, h3⟩ := hidle m hm
    rw [h1, h2, List.any_eq_false.2 fun o ho => by simp [h3 o ho]]
    rfl
  unfold policyChange
  dsimp only
  rw [hjobs, hcores, if_neg (by simpa using h)]
  rfl

/-- The state of a core after a list of cores is set aside. -/
theorem setAside_states (l : List Nat) (hl : ∀ n ∈ l, n < 18) (hp : s.CoresPlaced) :
    let t := l.foldl (fun t n => spreadContexts n aclk (t.setFld (R.REL_CORE n) F.REL_CORE_STATE 1)) s
    t.CoresPlaced ∧ t.recs = s.recs ∧ t.counter (cntKey Pg.rel0 4) = s.counter (cntKey Pg.rel0 4)
      ∧ ∀ m, m < 18 → t.relState m = if m ∈ l then 1 else s.relState m := by
  induction l generalizing s with
  | nil => exact ⟨hp, rfl, rfl, fun _ _ => rfl⟩
  | cons n l ih =>
    have hset : (s.setFld (R.REL_CORE n) F.REL_CORE_STATE 1).CoresPlaced := hp.of_eq rfl rfl
    have hk := RelKept.spreadContexts n aclk _ hset
    obtain ⟨h1, h2, h3, h4⟩ := ih (spreadContexts n aclk (s.setFld (R.REL_CORE n) F.REL_CORE_STATE 1))
      (fun m hm => hl m (List.mem_cons_of_mem _ hm)) (hk.placed hset)
    refine ⟨h1, h2.trans hk.recs, h3.trans (hk.counter _ (by decide)), fun m hm => (h4 m hm).trans ?_⟩
    have hpage := relCore_page m hm
    have hstep : (spreadContexts n aclk (s.setFld (R.REL_CORE n) F.REL_CORE_STATE 1)).relState m
        = (s.setFld (R.REL_CORE n) F.REL_CORE_STATE 1).relState m := by
      rw [State.relState, State.fld, hk.reg _ (by omega) (by omega) (by rw [hpage]; decide), ← State.fld, ← State.relState]
    by_cases hmem : m ∈ l
    · rw [if_pos hmem, if_pos (List.mem_cons_of_mem _ hmem)]
    · rw [if_neg hmem, hstep]
      by_cases e : m = n
      · rw [e, if_pos List.mem_cons_self]
        exact State.fld_setFld_same _ _ _ _ (by decide)
      · rw [if_neg (by simp [e, hmem])]
        exact State.fld_setFld_ne _ _ _ _ _ _ (relCore_ne_of e)

/-- The state of a core after the cold spares of a list return to service. -/
theorem spares_return (p : Nat → Bool) (l : List Nat) :
    let t := l.foldl (fun t n => if p n then t.setFld (R.REL_CORE n) F.REL_CORE_STATE 0 else t) s
    RegsOnly s t ∧ ∀ m, t.relState m = if m ∈ l ∧ p m = true then 0 else s.relState m := by
  induction l generalizing s with
  | nil => exact ⟨rfl, fun m => by simp⟩
  | cons n l ih =>
    obtain ⟨h1, h2⟩ := ih (if p n then s.setFld (R.REL_CORE n) F.REL_CORE_STATE 0 else s)
    refine ⟨RegsOnly.trans (by split <;> rfl) h1, fun m => (h2 m).trans ?_⟩
    have hstep : (if p n then s.setFld (R.REL_CORE n) F.REL_CORE_STATE 0 else s).relState m
        = if m = n ∧ p m = true then 0 else s.relState m := by
      by_cases e : m = n
      · subst e
        by_cases hp : p m = true
        · rw [if_pos hp, if_pos ⟨rfl, hp⟩]
          exact State.fld_setFld_same _ _ _ _ (by decide)
        · rw [if_neg hp, if_neg (by simp [hp])]
      · rw [if_neg (c := m = n ∧ p m = true) fun h => e h.1]
        by_cases hp : p n = true
        · rw [if_pos hp]
          exact State.fld_setFld_ne _ _ _ _ _ _ (relCore_ne_of e)
        · rw [if_neg hp]
    rw [hstep]
    by_cases hp : p m = true
    · by_cases hm : m ∈ l
      · simp [hm, hp]
      · simp [hm, hp]
    · simp [hp]

/-- The cores after a change of policy (R409, R410). -/
theorem policyCores_states (hp : s.CoresPlaced) (h : (s.flash.cfg.policy == 0) ≠ s.recs.reserve) :
    (policyCores aclk s).CoresPlaced ∧ (policyCores aclk s).recs.reserve = (s.flash.cfg.policy == 0)
      ∧ (policyCores aclk s).counter (cntKey Pg.rel0 4) = s.counter (cntKey Pg.rel0 4)
      ∧ ∀ m, m < 18 → (policyCores aclk s).relState m = if s.recs.reserve then (if s.coldSpare m then 0 else s.relState m)
        else if m ∈ ((List.range 18).filter s.inService).reverse.take 2 then 1 else s.relState m := by
  have hset : (policySet s).CoresPlaced := hp.of_eq rfl rfl
  unfold policyCores
  cases hpol : (s.flash.cfg.policy == 0) with
  | true =>
    have hres : s.recs.reserve = false := by
      rw [hpol] at h
      simpa using h
    rw [if_pos rfl, hres]
    obtain ⟨h1, h2, h3, h4⟩ := setAside_states aclk (policySet s) ((highCores (policySet s).inService).take 2)
      (fun n hn => List.mem_range.1 (List.mem_of_mem_filter (List.mem_reverse.1 (List.mem_of_mem_take hn)))) hset
    exact ⟨h1, by rw [h2]; exact hpol, h3, h4⟩
  | false =>
    have hres : s.recs.reserve = true := by
      rw [hpol] at h
      simpa using h
    rw [if_neg (by decide), hres]
    obtain ⟨h1, h2⟩ := spares_return (policySet s) s.coldSpare (List.range 18)
    generalize (List.range 18).foldl (fun t n => if s.coldSpare n then t.setFld (R.REL_CORE n) F.REL_CORE_STATE 0 else t) (policySet s) = t
      at h1 h2 ⊢
    unfold RegsOnly at h1
    refine ⟨?_, ?_, ?_, fun m hm => (h2 m).trans ?_⟩
    · rw [h1]
      exact hset.of_eq rfl rfl
    · rw [h1]
      exact hpol
    · rw [h1]
      rfl
    · simp only [List.mem_range, hm, true_and, if_true]
      rfl

/-- A change of policy at an idle instant (R409, R432). -/
theorem policyChange_outcome (hp : s.CoresPlaced) (h : (s.flash.cfg.policy == 0) ≠ s.recs.reserve)
    (hheld : ∀ j ∈ s.ctl.jobs, j.held = [])
    (hidle : ∀ m, m < 18 → (s.core m).retireWhy = 0 ∧ (s.core m).bankSwap = none ∧ ∀ o ∈ (s.core m).ops, o.swapping = false) :
    let t := policyChange aclk s
    t.recs.reserve = (s.flash.cfg.policy == 0) ∧ t.rel.holdStarts = false
      ∧ t.counter (cntKey Pg.rel0 4) = (s.counter (cntKey Pg.rel0 4) + 1) % 2 ^ 64
      ∧ bitOf (t.reg (Pg.rel0 + Hdr.errStat)).toNat E.rel0_POLICY = true
      ∧ ∀ m, m < 18 → t.relState m = if s.recs.reserve then (if s.coldSpare m then 0 else s.relState m)
        else if m ∈ ((List.range 18).filter s.inService).reverse.take 2 then 1 else s.relState m := by
  obtain ⟨hplaced, hres, hcnt, hstate⟩ := policyCores_states aclk s hp h
  rw [policyChange_at aclk s h hheld hidle]
  generalize policyCores aclk s = u at hplaced hres hcnt hstate ⊢
  have hshown := errEvent_sets Pg.rel0 E.rel0_POLICY (u.count Pg.rel0 4 1) (by decide)
  have hframe := errEvent_frame Pg.rel0 E.rel0_POLICY (u.count Pg.rel0 4 1)
  have hreg := (OnPage.errEvent (u.count Pg.rel0 4 1) Pg.rel0 E.rel0_POLICY (by decide)).1
  have hcount := (errEvent_counter Pg.rel0 E.rel0_POLICY (u.count Pg.rel0 4 1) (cntKey Pg.rel0 4)).trans (State.counter_count_same ..)
  unfold policyShown
  generalize errEvent Pg.rel0 E.rel0_POLICY (u.count Pg.rel0 4 1) = v at hshown hframe hreg hcount ⊢
  have hv : v.ctxs = u.ctxs ∧ v.ctl.jobs = u.ctl.jobs := by rw [hframe]; exact ⟨rfl, rfl⟩
  have hk := SchedKept.schedule aclk ((v.setReg (Pg.mgt0 + 8) (capWord v)).modRel (fun r => { r with holdStarts := false }))
    (hplaced.of_eq hv.1 hv.2)
  refine ⟨?_, (Prod.ext_iff.1 hk.rel).1, ?_, ?_, fun m hm => ?_⟩
  · rw [hk.recs]
    show v.recs.reserve = _
    rw [hframe]
    exact hres
  · rw [hk.counter _ (.inl (by decide)), ← hcnt]
    exact hcount
  · rw [hk.reg _ (.inl (by decide))]
    refine (congrArg (fun w : Word => bitOf w.toNat E.rel0_POLICY) (State.reg_setReg_ne _ _ _ _ (by decide))).trans hshown
  · have hpage := relCore_page m hm
    rw [State.relState, State.fld, (RelKept.sched hk).reg _ (by omega) (by omega) (by rw [hpage]; decide)]
    show wordFld ((v.setReg (Pg.mgt0 + 8) (capWord v)).reg _) _ = _
    rw [State.reg_setReg_ne _ _ _ _ (by unfold R.REL_CORE Pg.rel1 Pg.mgt0; omega), hreg _ (by rw [hpage]; decide)]
    exact hstate m hm

end

/-- Settles O47: each event by its own rule; a move of contexts and a scheduling point leave REL's words as they are. -/
theorem coresRetireAndPolicyChanges : Obligations.CoresRetireAndPolicyChanges := by
  unfold Obligations.CoresRetireAndPolicyChanges
  intro s n aclk hp state
  have hcs := hp.cores
  refine ⟨fun hon hb ht => ⟨congrArg Host.Outcome.next (laneTest_runs n s false hon hb ht), _,
      congrArg Host.Outcome.next (laneTest_runs n s true hon hb ht), laneTest_fails n s⟩,
    fun h b => congrArg Host.Outcome.next (if_pos (.inl (by rw [h]; rfl))), fun h b => congrArg Host.Outcome.next (if_pos (.inl h)),
    fun k hne hwhy hst hr hfirst hres hk hon => ?_, fun h b => congrArg Host.Outcome.next (maintDrain_reserve n aclk s b h),
    fun hres hdis => ⟨fun h0 hpos hdue hfree b => ⟨_, rfl, maintDrain_states n aclk s hres hdis b n.isLt hcs h0 hpos hdue hfree⟩,
      fun h0 h2 b => congrArg Host.Outcome.next (maintDrain_waits n aclk s hres hdis b h0 h2), fun h2 hc hr => ?_⟩,
    fun h => congrArg Host.Outcome.next (policyChange_same aclk s h),
    fun h hheld hidle => ⟨_, rfl, policyChange_outcome aclk s hcs h hheld hidle⟩,
    fun h => congrArg Host.Outcome.next (policyChange_held aclk s h), fun h => congrArg Host.Outcome.next (if_pos h),
    fun h hlost hroom => ?_, fun iid val h => relSvcWrite_outcome iid val s h⟩
  · have hkn : k.val ≠ n.val := fun e => hne (Fin.ext e)
    have hat := fun b => coreRetire_at n k s aclk b hwhy hst hr hfirst hres hk hon
    refine ⟨⟨_, congrArg Host.Outcome.next (hat true), spare_moves n k _ s aclk hcs n.isLt k.isLt hkn⟩, _,
      congrArg Host.Outcome.next (hat false), markRetired_state k 4 s k.isLt, markRetired_state_ne k 4 s n n.isLt hkn.symm,
      markRetired_reason k 4 s k.isLt, markRetired_ctxs k 4 s⟩
  · have hat := fun b => maintDrain_tested n aclk s hres hdis b h2 hc hr
    exact ⟨⟨_, congrArg Host.Outcome.next (hat true), maintDrain_returns n s⟩, congrArg Host.Outcome.next (hat false)⟩
  · obtain ⟨e, h1⟩ := wearSnapshot_logs n s h hlost hroom
    exact ⟨_, e, rfl, h1⟩

end Sys2Proof.Machine
end

section
/-! PROOFS. Mailbox commands: the creation of contexts (R351, R371). -/

namespace Sys2Proof.Machine

/-! ### The mailbox's register -/

/-- The register of mailbox commands. -/
def mbReg : RegDef :=
  ⟨0x100, 1, 0x0, 1, 0x0, .any, [⟨1, 0, .wo, 0, 0, [(1, 2)]⟩, ⟨5, 2, .wo, 0, 0, []⟩, ⟨8, 6, .wo, 0, 0, []⟩]⟩

/-- The word of command `c` for slot `k` of tenant `t`. -/
def mbWord (c : Nat) (t : Fin 16) (k : Fin 8) : Word := BitVec.ofNat 32 (c + t.val * 4 + k.val * 64)

section
variable (c : Nat) (t : Fin 16) (k : Fin 8) (hc : c < 4)
include hc

theorem mbWord_cmd : wordFld (mbWord c t k) F.CTL_MB_CMD_CMD = c := by
  show (BitVec.ofNat 32 (c + t.val * 4 + k.val * 64)).toNat / 2 ^ 0 % 2 ^ 2 = c
  rw [BitVec.toNat_ofNat]
  omega

theorem mbWord_tenant : wordFld (mbWord c t k) F.CTL_MB_CMD_TENANT = t := by
  show (BitVec.ofNat 32 (c + t.val * 4 + k.val * 64)).toNat / 2 ^ 2 % 2 ^ 4 = t
  rw [BitVec.toNat_ofNat]
  omega

theorem mbWord_slot : wordFld (mbWord c t k) F.CTL_MB_CMD_SLOT = k := by
  show (BitVec.ofNat 32 (c + t.val * 4 + k.val * 64)).toNat / 2 ^ 6 % 2 ^ 3 = k
  rw [BitVec.toNat_ofNat]
  omega

end

section
variable (iid : Fin 24) (t : Fin 16) (k : Fin 8) (s : State)

theorem plainFields_of_page (a : Nat) (flds : List FldDef) (h32 : ∀ f ∈ flds, f.hi < 32) (ha : a / 4096 < 0x100) : PlainFields a flds := by
  intro f hf
  refine ⟨h32 f hf, fun n => ?_⟩
  unfold extraOk Pg.brz1
  rw [if_neg (by omega), if_neg (by omega), if_neg (by omega)]

theorem mailbox_write (h : s.Admits iid R.CTL_MB_CMD .ctlMb 0) (c : Nat) (hc : c = 1 ∨ c = 2) :
    wordWrite iid R.CTL_MB_CMD (mbWord c t k) s = attributeErr iid R.CTL_MB_CMD s (mailbox (mbWord c t k) s) := by
  have hf : findReg (R.CTL_MB_CMD % 4096) (regsOf .ctlMb) = some (mbReg, 0, 0) := by decide
  have hcmd : bitsOf (mbWord c t k).toNat 1 0 = c := mbWord_cmd c t k (by omega)
  have hok : commandOk mbReg.flds 0xFFFFFFFF#32 (mbWord c t k) = true := by
    unfold commandOk mbReg
    simp only [List.all_cons, List.all_nil, and_full, hcmd]
    rcases hc with rfl | rfl <;> rfl
  exact busWrite_command iid R.CTL_MB_CMD (mbWord c t k) s .ctlMb 0 mbReg 0 0 h (by decide) (by decide) hf rfl
    (plainFields_of_page _ _ (by decide) (by decide)) rfl hok

theorem exec_create (h : s.Admits iid R.CTL_MB_CMD .ctlMb 0) :
    exec (.create iid t k) s = .next (attributeErr iid R.CTL_MB_CMD s (cxCreate t k s)) := by
  refine congrArg Host.Outcome.next ((mailbox_write iid t k s h 1 (.inl rfl)).trans ?_)
  unfold mailbox
  dsimp only
  rw [mbWord_cmd 1 t k (by decide), mbWord_tenant 1 t k (by decide), mbWord_slot 1 t k (by decide)]
  rfl

theorem exec_destroy (h : s.Admits iid R.CTL_MB_CMD .ctlMb 0) :
    exec (.destroy iid t k) s = .next (attributeErr iid R.CTL_MB_CMD s (cxDestroy t k s)) := by
  refine congrArg Host.Outcome.next ((mailbox_write iid t k s h 2 (.inr rfl)).trans ?_)
  unfold mailbox
  dsimp only
  rw [mbWord_cmd 2 t k (by decide), mbWord_tenant 2 t k (by decide), mbWord_slot 2 t k (by decide)]
  rfl

/-- The state before an access tells only by ERR_STAT of the page whether its error is the first (R43). -/
theorem attributeErr_old (iid a : Nat) (old old' s : State)
    (h : old.reg (a - a % 4096 + Hdr.errStat) = old'.reg (a - a % 4096 + Hdr.errStat)) :
    attributeErr iid a old s = attributeErr iid a old' s := by
  unfold attributeErr
  simp only [h]

/-- A refused mailbox command (R371). -/
theorem mailbox_refused (r : Nat) (hr : r ≠ 0) : attributeErr iid R.CTL_MB_CMD s (mbResult r s)
    = raiseErr Pg.ctlMb E.ctlMb_MB_REFUSED iid 0x100 (s.setFld R.CTL_MB_STATUS F.CTL_MB_STATUS_RESULT r) := by
  have hi := iid.isLt
  unfold mbResult
  dsimp only
  rw [if_neg hr, attributeErr_old iid R.CTL_MB_CMD s (s.setFld R.CTL_MB_STATUS F.CTL_MB_STATUS_RESULT r) _
    (State.reg_setFld_ne _ _ _ _ _ (by decide)).symm]
  exact attributeErr_errEvent iid R.CTL_MB_CMD E.ctlMb_MB_REFUSED _ (by decide) (by omega)

end

/-! ### CREATE (R351, R371) -/

section
variable (s : State)

/-- The cores that have room for a context of the mailbox's arguments, with its place there (R351). -/
def State.mbRoom (s : State) : List (Nat × Place) :=
  (List.range 18).filterMap (fun m =>
    if s.inService m then
      (s.findPlace m (wordFld (s.reg R.CTL_MB_ARG0) F.CTL_MB_ARG0_ROWS * 1024) (wordFld (s.reg R.CTL_MB_ARG0) F.CTL_MB_ARG0_REGIONS)
        (wordFld (s.reg R.CTL_MB_ARG0) F.CTL_MB_ARG0_IMEM * 256)).map (fun p => (m, p))
    else none)

/-- The DA of the status block that the mailbox names. -/
def State.mbDa (s : State) : Nat :=
  s.fld R.CTL_MB_DA_LO F.CTL_MB_DA_LO_STATUS_DA * 512 + s.fld R.CTL_MB_DA_HI F.CTL_MB_DA_HI_STATUS_DA * 2 ^ 32

/-- The number of cores that the mailbox asks for. -/
def State.mbCores (s : State) : Nat := wordFld (s.reg R.CTL_MB_ARG0) F.CTL_MB_ARG0_CORES

/-- A CREATE without streams whose arguments are in their bounds, for an empty slot of a READY function (R371). -/
structure CreateOk (t k : Nat) (s : State) : Prop where
  free : s.exists' (8 * t + k) = false
  cores : 1 ≤ s.mbCores ∧ s.mbCores ≤ 16
  rows : 1 ≤ wordFld (s.reg R.CTL_MB_ARG0) F.CTL_MB_ARG0_ROWS ∧ wordFld (s.reg R.CTL_MB_ARG0) F.CTL_MB_ARG0_ROWS ≤ 48
  regions : 1 ≤ wordFld (s.reg R.CTL_MB_ARG0) F.CTL_MB_ARG0_REGIONS ∧ wordFld (s.reg R.CTL_MB_ARG0) F.CTL_MB_ARG0_REGIONS ≤ 64
  imem : 1 ≤ wordFld (s.reg R.CTL_MB_ARG0) F.CTL_MB_ARG0_IMEM ∧ wordFld (s.reg R.CTL_MB_ARG0) F.CTL_MB_ARG0_IMEM ≤ 64
  streams : wordFld (s.reg R.CTL_MB_ARG1) F.CTL_MB_ARG1_STREAMS = 0
  share : 1 ≤ wordFld (s.reg R.CTL_MB_ARG1) F.CTL_MB_ARG1_SHARE ∧ wordFld (s.reg R.CTL_MB_ARG1) F.CTL_MB_ARG1_SHARE ≤ 1000
  status : (s.page (pageOf s.mbDa)).owner = some t
  ready : s.fnState t = fnReady

/-- The context that CREATE places. -/
def placedCtx (ps : List (Nat × Place)) (s : State) : CtxRec :=
  { cores := ps.map (·.1), place := ps.map (·.2), strBase := 0, strCount := wordFld (s.reg R.CTL_MB_ARG1) F.CTL_MB_ARG1_STREAMS, statusDa := s.mbDa,
    saved := ps.map (fun p => freshImage p.1) }

/-- Context `x` placed with its words, before its status block is written (R351). -/
def cxPlaced (x : Nat) (ps : List (Nat × Place)) (s : State) : State :=
  let s1 := s.setCtx x (placedCtx ps s)
  let s2 := ps.foldl (fun t p => setRange p.1 p.2.range x p.2.rowBase (p.2.rowBase + p.2.rows - 1) t) s1
  let s3 := (s2.setFld (R.STR_PART x) F.STR_PART_BASE 0).setFld (R.STR_PART x) F.STR_PART_COUNT
    (wordFld (s.reg R.CTL_MB_ARG1) F.CTL_MB_ARG1_STREAMS)
  let s4 := s3.setReg (R.CTL_CX_INFO x) (BitVec.ofNat 32 (1 + 4 * s.newOwner + 16 * s.mbCores))
  s4.setFld (R.CTL_CX_SHARE x) F.CTL_CX_SHARE_SHARE (wordFld (s.reg R.CTL_MB_ARG1) F.CTL_MB_ARG1_SHARE)

/-- The state that a good CREATE leaves. -/
def cxCreated (t k : Nat) (s : State) : State :=
  let s6 := writeStatus (8 * t + k) 1 noFault true (cxPlaced (8 * t + k) (s.mbRoom.take s.mbCores) s)
  mbResult 0 (s6.setReg (R.HIF_FN_STATE t) (s6.reg (R.HIF_FN_STATE t) ||| bit32 (8 + k)))

theorem cxCreate_at (t k : Nat) (h : CreateOk t k s) :
    cxCreate t k s = if s.mbRoom.length < s.mbCores then mbResult 2 s else cxCreated t k s := by
  have hin (v lo hi : Nat) (hv : lo ≤ v ∧ v ≤ hi) : outside v lo hi = false := by
    unfold outside
    simp only [decide_eq_false_iff_not]
    omega
  have hargs : ¬ ((outside (wordFld (s.reg R.CTL_MB_ARG0) F.CTL_MB_ARG0_CORES) 1 16
      || outside (wordFld (s.reg R.CTL_MB_ARG0) F.CTL_MB_ARG0_ROWS) 1 48
      || outside (wordFld (s.reg R.CTL_MB_ARG0) F.CTL_MB_ARG0_REGIONS) 1 64
      || outside (wordFld (s.reg R.CTL_MB_ARG0) F.CTL_MB_ARG0_IMEM) 1 64
      || decide (4096 < wordFld (s.reg R.CTL_MB_ARG1) F.CTL_MB_ARG1_STREAMS)
      || outside (wordFld (s.reg R.CTL_MB_ARG1) F.CTL_MB_ARG1_SHARE) 1 1000 || (s.page (pageOf s.mbDa)).owner != some t) = true) := by
    rw [hin (wordFld (s.reg R.CTL_MB_ARG0) F.CTL_MB_ARG0_CORES) _ _ h.cores, hin _ _ _ h.rows, hin _ _ _ h.regions, hin _ _ _ h.imem, hin _ _ _ h.share, h.streams, h.status]
    simp
  unfold cxCreate
  dsimp only
  rw [h.free, if_neg (by decide)]
  refine (if_neg hargs).trans ?_
  rw [if_neg (fun hn => hn h.ready), if_pos h.streams]
  by_cases hr : s.mbRoom.length < s.mbCores
  · rw [if_pos hr]
    unfold State.mbRoom State.mbCores at hr
    rw [if_pos hr]
  · rw [if_neg hr]
    unfold State.mbRoom State.mbCores at hr
    rw [if_neg hr]
    rfl

theorem newOwner_lt : s.newOwner < 4 := by
  have hact : ∀ k ∈ (List.range 4).filter (fun k => bitOf (s.fld R.CTL_STATUS F.CTL_STATUS_ACTIVE) k), k < 4 :=
    fun k hk => List.mem_range.1 (List.mem_of_mem_filter hk)
  have hfold (load : Nat → Nat) (l : List Nat) (b : Nat) (hl : ∀ k ∈ l, k < 4) (hb : b < 4) :
      l.foldl (fun b k => if load k < load b then k else b) b < 4 := by
    induction l generalizing b with
    | nil => exact hb
    | cons k l ih =>
      refine ih _ (fun j hj => hl j (List.mem_cons_of_mem _ hj)) ?_
      dsimp only
      split
      · exact hl k List.mem_cons_self
      · exact hb
  refine hfold _ _ _ hact ?_
  cases h : (List.range 4).filter (fun k => bitOf (s.fld R.CTL_STATUS F.CTL_STATUS_ACTIVE) k) with
  | nil => exact (by decide : (0 : Nat) < 4)
  | cons k l => exact hact k (h ▸ List.mem_cons_self)

theorem writeStatus_daKept (x state : Nat) (r : FaultRec) (clean : Bool) : DaKept s (writeStatus x state r clean s) := by
  unfold writeStatus
  dsimp only
  split
  · exact fwWrite_daKept _ _ _ _
  · exact .refl s

/-- The contexts once context `x` is placed. -/
theorem cxPlaced_ctxs (x : Nat) (ps : List (Nat × Place)) : (cxPlaced x ps s).ctxs = Tab.set s.ctxs x (placedCtx ps s) :=
  foldl_keeps State.ctxs (fun t (p : Nat × Place) => setRange p.1 p.2.range x p.2.rowBase (p.2.rowBase + p.2.rows - 1) t)
    (fun _ _ => rfl) ps (s.setCtx x (placedCtx ps s))

theorem cxPlaced_info (x : Nat) (ps : List (Nat × Place)) :
    (cxPlaced x ps s).reg (R.CTL_CX_INFO x) = BitVec.ofNat 32 (1 + 4 * s.newOwner + 16 * s.mbCores) :=
  (State.reg_setFld_ne _ _ _ _ _ (by unfold R.CTL_CX_INFO R.CTL_CX_SHARE Pg.ctlMb Pg.ctlShare; omega)).trans (State.reg_setReg_same ..)

/-- What a good CREATE leaves (R351, R352, R371). -/
theorem cxCreated_outcome (iid : Nat) (t : Fin 16) (k : Fin 8) (hn : s.mbCores ≤ 16) :
    let x := 8 * t.val + k.val
    let u := attributeErr iid R.CTL_MB_CMD s (cxCreated t k s)
    u.exists' x = true ∧ (u.ctx x).cores = (s.mbRoom.take s.mbCores).map (·.1) ∧ (u.ctx x).place = (s.mbRoom.take s.mbCores).map (·.2)
      ∧ u.fld (R.CTL_CX_INFO x) F.CTL_CX_INFO_CORES = s.mbCores ∧ u.fld R.CTL_MB_STATUS F.CTL_MB_STATUS_RESULT = 0
      ∧ bitOf (u.reg (R.HIF_FN_STATE t)).toNat (8 + k.val) = true ∧ ∀ o, o ≠ x → u.ctx o = s.ctx o := by
  have ht := t.isLt
  have hk := k.isLt
  have hown := newOwner_lt s
  have hinfo := cxPlaced_info s (8 * t.val + k.val) (s.mbRoom.take s.mbCores)
  have hctxs := cxPlaced_ctxs s (8 * t.val + k.val) (s.mbRoom.take s.mbCores)
  have hda := writeStatus_daKept (cxPlaced (8 * t.val + k.val) (s.mbRoom.take s.mbCores) s) (8 * t.val + k.val) 1 noFault true
  unfold cxCreated
  dsimp only
  generalize writeStatus (8 * t.val + k.val) 1 noFault true (cxPlaced (8 * t.val + k.val) (s.mbRoom.take s.mbCores) s) = v at hda ⊢
  generalize hw : v.setReg (R.HIF_FN_STATE t) (v.reg (R.HIF_FN_STATE t) ||| bit32 (8 + k)) = w
  have hres : mbResult 0 w = w.setFld R.CTL_MB_STATUS F.CTL_MB_STATUS_RESULT 0 := rfl
  have hactx (a : State) : (attributeErr iid R.CTL_MB_CMD s a).ctxs = a.ctxs := by
    unfold attributeErr
    dsimp only
    split <;> rfl
  have hareg (a : Nat) (ha : a ≠ R.CTL_MB_CMD - R.CTL_MB_CMD % 4096 + Hdr.errFirst) (hs : a ≠ R.CTL_MB_STATUS) :
      (attributeErr iid R.CTL_MB_CMD s (mbResult 0 w)).reg a = w.reg a := by
    rw [attributeErr_reg_ne _ _ _ _ _ ha, hres, State.reg_setFld_ne _ _ _ _ _ hs]
  have hall : (attributeErr iid R.CTL_MB_CMD s (mbResult 0 w)).ctxs
      = Tab.set s.ctxs (8 * t.val + k.val) (placedCtx (s.mbRoom.take s.mbCores) s) := by
    rw [hactx, hres, ← hctxs]
    show w.ctxs = _
    rw [← hw]
    show v.ctxs = _
    rw [hda.frame]
  have hreg : (attributeErr iid R.CTL_MB_CMD s (mbResult 0 w)).reg (R.CTL_CX_INFO (8 * t.val + k.val))
      = BitVec.ofNat 32 (1 + 4 * s.newOwner + 16 * s.mbCores) := by
    rw [hareg _ (by unfold R.CTL_CX_INFO R.CTL_MB_CMD Pg.ctlMb Hdr.errFirst; omega) (by unfold R.CTL_CX_INFO R.CTL_MB_STATUS; omega), ← hw,
      State.reg_setReg_ne _ _ _ _ (by unfold R.CTL_CX_INFO R.HIF_FN_STATE Pg.ctlMb Pg.hifFn; omega),
      hda.reg _ (by unfold R.CTL_CX_INFO Pg.ctlMb Pg.mt1; omega) (by unfold R.CTL_CX_INFO Pg.ctlMb Pg.rel2; omega)]
    exact hinfo
  have hctx (y : Nat) : (attributeErr iid R.CTL_MB_CMD s (mbResult 0 w)).ctx y
      = Tab.get (Tab.set s.ctxs (8 * t.val + k.val) (placedCtx (s.mbRoom.take s.mbCores) s)) {} y := by
    unfold State.ctx
    rw [hall]
  generalize hu : attributeErr iid R.CTL_MB_CMD s (mbResult 0 w) = u at *
  refine ⟨?_, ?_, ?_, ?_, ?_, ?_, fun o ho => ?_⟩
  · rw [State.exists', State.flag, State.fld, hreg]
    show ((BitVec.ofNat 32 (1 + 4 * s.newOwner + 16 * s.mbCores)).toNat / 2 ^ 0 % 2 ^ 1 == 1) = true
    rw [BitVec.toNat_ofNat, beq_iff_eq]
    omega
  · rw [hctx, Tab.get_set_same]
    rfl
  · rw [hctx, Tab.get_set_same]
    rfl
  · rw [State.fld, hreg]
    show (BitVec.ofNat 32 (1 + 4 * s.newOwner + 16 * s.mbCores)).toNat / 2 ^ 4 % 2 ^ 5 = _
    rw [BitVec.toNat_ofNat]
    omega
  · rw [← hu, State.fld, attributeErr_reg_ne _ _ _ _ _ (by decide), hres, ← State.fld]
    exact State.fld_setFld_same _ _ _ _ (by decide)
  · rw [hareg _ (by unfold R.HIF_FN_STATE R.CTL_MB_CMD Pg.ctlMb Pg.hifFn Hdr.errFirst; omega)
      (by unfold R.HIF_FN_STATE R.CTL_MB_STATUS Pg.hifFn Pg.ctlMb; omega), ← hw, State.reg_setReg_same, bitOf_toNat, BitVec.getLsbD_or,
      getLsbD_bit32 _ _ (by omega)]
    simp
  · rw [hctx, Tab.get_set_ne _ _ _ _ _ ho]
    rfl

end
end Sys2Proof.Machine
end

section
/-! PROOFS. Destruction and teardown of contexts, and CTL_XCOPY (R364, R365, R371). -/

namespace Sys2Proof.Machine

/-! ### DESTROY (R371, R374) -/

section
variable (s : State)

theorem freeContext_reg (x : Nat) (hx : x < 128) : (freeContext x s).reg (R.CTL_CX_INFO x) = 0
    ∧ ∃ w, (freeContext x s).reg (R.HIF_FN_STATE (tenantOf x)) = w &&& ~~~(bit32 (8 + x % 8)) := by
  constructor
  · exact (State.reg_setReg_ne _ _ _ _ (by
      unfold R.CTL_CX_INFO R.HIF_FN_STATE Pg.ctlMb Pg.hifFn
      omega)).trans (State.reg_setReg_same ..)
  · exact ⟨_, State.reg_setReg_same ..⟩

theorem freed_placed (x : Nat) (hp : s.PlacesNamed) : (freeContext x (tearSilent x 0 s)).CoresPlaced := by
  have h : s.anchors.Kept (freeContext x (tearSilent x 0 s)).anchors := by simp
  exact ((anchors_placed_iff _).1 (h.placed ((anchors_placed_iff s).2 hp))).cores

/-- What a good DESTROY leaves (R371). -/
theorem cxDestroy_outcome (iid : Nat) (t : Fin 16) (k : Fin 8) (hp : s.PlacesNamed) (he : s.exists' (8 * t.val + k.val) = true) :
    let u := attributeErr iid R.CTL_MB_CMD s (cxDestroy t k s)
    u.exists' (8 * t.val + k.val) = false ∧ u.fld R.CTL_MB_STATUS F.CTL_MB_STATUS_RESULT = 0
      ∧ bitOf (u.reg (R.HIF_FN_STATE t)).toNat (8 + k.val) = false := by
  have hx : tenantOf (8 * t.val + k.val) = t.val := by unfold tenantOf; omega
  have hk : (8 * t.val + k.val) % 8 = k.val := by omega
  have hat : cxDestroy t k s = mbResult 0 (schedule s.ctl.aclk (freeContext (8 * t.val + k.val) (tearSilent (8 * t.val + k.val) 0 s))) := by
    unfold cxDestroy
    dsimp only
    rw [he, if_neg (by decide)]
  obtain ⟨hinfo, w, hw⟩ := freeContext_reg (tearSilent (8 * t.val + k.val) 0 s) (8 * t.val + k.val) (by omega)
  rw [hx, hk] at hw
  have hs := SchedKept.schedule s.ctl.aclk _ (freed_placed s (8 * t.val + k.val) hp)
  rw [hat]
  generalize freeContext (8 * t.val + k.val) (tearSilent (8 * t.val + k.val) 0 s) = v at hinfo hw hs ⊢
  generalize schedule s.ctl.aclk v = z at hs ⊢
  have hres : mbResult 0 z = z.setFld R.CTL_MB_STATUS F.CTL_MB_STATUS_RESULT 0 := rfl
  have hreg (a : Nat) (ha : a ≠ R.CTL_MB_CMD - R.CTL_MB_CMD % 4096 + Hdr.errFirst) (hm : a ≠ R.CTL_MB_STATUS) (hc : CtlWord a) :
      (attributeErr iid R.CTL_MB_CMD s (mbResult 0 z)).reg a = v.reg a := by
    rw [attributeErr_reg_ne _ _ _ _ _ ha, hres, State.reg_setFld_ne _ _ _ _ _ hm, hs.reg a hc]
  have ht := t.isLt
  have hk8 := k.isLt
  refine ⟨?_, ?_, ?_⟩
  · rw [State.exists', State.flag, State.fld, hreg _ (by unfold R.CTL_CX_INFO R.CTL_MB_CMD Pg.ctlMb Hdr.errFirst; omega)
      (by unfold R.CTL_CX_INFO R.CTL_MB_STATUS; omega) (.inl (by unfold R.CTL_CX_INFO Pg.ctlMb Pg.rel2; omega)), hinfo]
    rfl
  · rw [State.fld, attributeErr_reg_ne _ _ _ _ _ (by decide), hres, ← State.fld]
    exact State.fld_setFld_same _ _ _ _ (by decide)
  · rw [hreg _ (by unfold R.HIF_FN_STATE R.CTL_MB_CMD Pg.ctlMb Pg.hifFn Hdr.errFirst; omega)
      (by unfold R.HIF_FN_STATE R.CTL_MB_STATUS Pg.hifFn Pg.ctlMb; omega) (.inr (by unfold R.HIF_FN_STATE Pg.hifFn; omega)), hw, bitOf_toNat,
      BitVec.getLsbD_and, BitVec.getLsbD_not, getLsbD_bit32 _ _ (by omega)]
    simp

end

/-! ### Teardown (R365) -/

section
variable (x aclk : Nat) (s : State)

theorem SchedKept.dropJob (j : Job) (s : State) (hj : ∀ n ∈ j.held, n < 32) : SchedKept s (dropJob j s) := by
  have h1 : SchedKept s (s.modCtl (fun c => { c with jobs := c.jobs.filter (fun (b : Job) => b.id != j.id) })) :=
    .vtOnly (.modCtl _ s rfl) fun _ hi => .self (List.mem_of_mem_filter hi)
  unfold Machine.dropJob
  dsimp only
  split
  · exact h1.trans (coreSide (.foldl _ _ (fun n hn t => .setFld _ _ 0 t (by have := hj n hn; unfold CoreWord R.SEQ_CTRL Pg.seq; omega)) _))
  · exact h1

theorem mem_dropJob_jobs (j i : Job) (t : State) (h : i ∈ (dropJob j t).ctl.jobs) : i ∈ t.ctl.jobs ∧ i.id ≠ j.id := by
  have hf (u : State) : (j.held.foldl (fun t n => t.setFld (R.SEQ_CTRL n) F.SEQ_CTRL_DRAIN_REQ 0) u).ctl = u.ctl :=
    foldl_keeps State.ctl (fun t n => t.setFld (R.SEQ_CTRL n) F.SEQ_CTRL_DRAIN_REQ 0) (fun _ _ => rfl) _ _
  have hm : i ∈ t.ctl.jobs.filter (fun (b : Job) => b.id != j.id) := by
    unfold Machine.dropJob at h
    dsimp only at h
    split at h
    · rw [hf] at h
      exact h
    · exact h
  obtain ⟨h1, h2⟩ := List.mem_filter.1 hm
  exact ⟨h1, by simpa using h2⟩

theorem dropJobs_jobs (l : List Job) (t : State) (i : Job) (h : i ∈ (l.foldl (fun t j => dropJob j t) t).ctl.jobs) :
    i ∈ t.ctl.jobs ∧ ∀ j ∈ l, i.id ≠ j.id := by
  induction l generalizing t with
  | nil => exact ⟨h, fun _ hj => absurd hj List.not_mem_nil⟩
  | cons j l ih =>
    obtain ⟨h1, h2⟩ := ih (dropJob j t) h
    obtain ⟨h3, h4⟩ := mem_dropJob_jobs j i t h1
    refine ⟨h3, fun k hk => ?_⟩
    rcases List.mem_cons.1 hk with e | e
    · rw [e]
      exact h4
    · exact h2 k e

/-- Every core, channel and scan queue of a context stopped, its jobs dropped. -/
theorem stopContext_sched (hp : s.CoresPlaced) :
    SchedKept s (stopContext x s) ∧ ∀ i ∈ (stopContext x s).ctl.jobs, i.ctx ≠ x := by
  have h1 : SchedKept s (dropColl x (stopChans x (List.range 18) (stopCores x (s.ctx x).cores s))) :=
    ((SchedKept.stopCores x _ s (hp.ctx x)).trans (.stopChans x _ _ fun _ => SchedKept.range_lt)).trans (.dropColl x _)
  unfold stopContext
  dsimp only
  generalize dropColl x (stopChans x (List.range 18) (stopCores x (s.ctx x).cores s)) = u at h1 ⊢
  have hpu := h1.placed hp
  have h2 : SchedKept u ((u.ctl.jobs.filter (fun j => j.ctx == x)).foldl (fun t j => dropJob j t) u) :=
    .foldl _ _ (fun j hj t => .dropJob j t (hpu.job j (List.mem_of_mem_filter hj))) u
  have hj := dropJobs_jobs (u.ctl.jobs.filter (fun j => j.ctx == x)) u
  generalize (u.ctl.jobs.filter (fun j => j.ctx == x)).foldl (fun t j => dropJob j t) u = v at h2 hj ⊢
  have h := h1.trans h2
  refine ⟨⟨h.flash, h.recs, h.dtime, h.spad, h.rel, h.upd, h.jobs, h.entries, h.ctx, h.reg, h.counter⟩, fun i hi e => ?_⟩
  obtain ⟨him, hne⟩ := hj i hi
  exact hne i (List.mem_filter.2 ⟨him, by simpa using e⟩) rfl

theorem entryDone_entries (id status code sub : Nat) (t : State) (e : Entry) (h : e ∈ (entryDone id status code sub t).hif.entries) :
    ∃ b ∈ t.hif.entries, e.ctx = b.ctx ∧ e.id = b.id ∧ (b.isDone = true ∨ b.id = id → e.isDone = true) := by
  obtain ⟨b, hb, rfl⟩ := List.mem_map.1 (show e ∈ t.hif.entries.map _ from h)
  refine ⟨b, hb, ?_⟩
  split
  · split
    · next hd => exact ⟨rfl, rfl, fun _ => by rw [Entry.isDone, hd]⟩
    · exact ⟨rfl, rfl, fun _ => rfl⟩
  · next hid => exact ⟨rfl, rfl, fun h => h.resolve_right hid⟩

/-- Entries that a fold of completions leaves: those it names are done. -/
theorem entriesDone_entries (st : Entry → Nat) (code sub : Nat) (l : List Entry) (t : State) (e : Entry)
    (h : e ∈ (l.foldl (fun t e => entryDone e.id (st e) code sub t) t).hif.entries) :
    ∃ b ∈ t.hif.entries, e.ctx = b.ctx ∧ e.id = b.id ∧ ((b.isDone = true ∨ ∃ c ∈ l, b.id = c.id) → e.isDone = true) := by
  induction l generalizing t with
  | nil => exact ⟨e, h, rfl, rfl, fun hd => hd.elim id fun ⟨_, hc, _⟩ => absurd hc List.not_mem_nil⟩
  | cons c l ih =>
    obtain ⟨b, hb, hctx, hid, hdone⟩ := ih (entryDone c.id (st c) code sub t) h
    obtain ⟨a, ha, hctx1, hid1, hdone1⟩ := entryDone_entries c.id (st c) code sub t b hb
    refine ⟨a, ha, hctx.trans hctx1, hid.trans hid1, fun hd => hdone ?_⟩
    rcases hd with hd | ⟨d, hd, e⟩
    · exact .inl (hdone1 (.inl hd))
    · rcases List.mem_cons.1 hd with rfl | hd
      · exact .inl (hdone1 (.inr e))
      · exact .inr ⟨d, hd, hid1.trans e⟩

theorem failEntries_done (code sub : Nat) (e : Entry) (h : e ∈ (failEntries x code sub s).hif.entries) (hx : e.ctx = x) :
    e.isDone = true := by
  obtain ⟨b, hb, hctx, -, hdone⟩ := entriesDone_entries (fun e => if e.st = .started then 2 else 3) code sub
    (s.hif.entries.filter (fun e => e.ctx == x)) s e h
  exact hdone (.inr ⟨b, List.mem_filter.2 ⟨hb, by rw [← hctx, hx]; exact beq_self_eq_true x⟩, rfl⟩)

/-- Completions change the entries alone. -/
theorem failEntries_frame (code sub : Nat) : failEntries x code sub s = { s with hif := (failEntries x code sub s).hif } := by
  unfold failEntries
  generalize s.hif.entries.filter (fun e => e.ctx == x) = l
  induction l generalizing s with
  | nil => rfl
  | cons e l ih =>
    rw [List.foldl_cons, ih]
    rfl

/-- A context marked for its teardown, its fault with the tag of the entry that ran. -/
def tearMark (r : FaultRec) (tag : Nat) (c : CtxRec) : CtxRec := { c with tear := true, fault := some { r with tag := tag } }

/-- Context `x` marked at ACLK cycle `aclk`. -/
def tearMarked (x aclk : Nat) (r : FaultRec) (s : State) : State :=
  (chargeAll aclk s).modCtx x (tearMark r (if r.tag = 0 then s.runningTag x r.core else r.tag))

/-- The first stage of a teardown before its scheduling point: the context marked, its entries ended. -/
def tearBegun (x aclk : Nat) (r : FaultRec) (s : State) : State := failEntries x r.code r.sub (tearMarked x aclk r s)

theorem teardown_begins (r : FaultRec) (hf : (s.ctx x).fault = some r) (he : s.exists' x = true) (ht : (s.ctx x).tear = false) :
    teardown x aclk s = schedule aclk ((stopContext x (tearBegun x aclk r s)).count Pg.ctl0 4 1) := by
  unfold teardown
  dsimp only
  rw [hf]
  dsimp only
  rw [he, if_neg (by decide), ht, if_neg (by decide)]
  rfl

theorem tearBegun_shows (r : FaultRec) (hp : s.CoresPlaced) :
    let t := tearBegun x aclk r s
    t.CoresPlaced ∧ (t.ctx x).tear = true ∧ t.counter (cntKey Pg.ctl0 4) = s.counter (cntKey Pg.ctl0 4)
      ∧ ∀ e ∈ t.hif.entries, e.ctx = x → e.isDone = true := by
  have hc := SchedKept.chargeAll aclk s
  have hsame : ((tearMarked x aclk r s).ctx x).tear = true ∧ ((tearMarked x aclk r s).ctx x).cores = ((chargeAll aclk s).ctx x).cores := by
    have h : (tearMarked x aclk r s).ctx x = tearMark r (if r.tag = 0 then s.runningTag x r.core else r.tag) ((chargeAll aclk s).ctx x) :=
      Tab.get_set_same ..
    rw [h]
    exact ⟨rfl, rfl⟩
  have hother (y : Nat) (hy : y ≠ x) : (tearMarked x aclk r s).ctx y = (chargeAll aclk s).ctx y := Tab.get_set_ne _ _ _ _ _ hy
  have hctl : (tearMarked x aclk r s).ctl = (chargeAll aclk s).ctl := rfl
  have hcnt : (tearMarked x aclk r s).counter (cntKey Pg.ctl0 4) = (chargeAll aclk s).counter (cntKey Pg.ctl0 4) := rfl
  unfold tearBegun
  generalize tearMarked x aclk r s = u at hsame hother hctl hcnt ⊢
  have hframe := failEntries_frame x u r.code r.sub
  have hup : u.CoresPlaced := by
    refine ⟨fun y n hn => ?_, fun j hj => (hc.placed hp).job j (by rw [hctl] at hj; exact hj)⟩
    by_cases e : y = x
    · rw [e, hsame.2] at hn
      exact (hc.placed hp).ctx x n hn
    · rw [hother y e] at hn
      exact (hc.placed hp).ctx y n hn
  refine ⟨hup.of_eq (by rw [hframe]) (by rw [hframe]), ?_, ?_, fun e he hx => failEntries_done x u r.code r.sub e he hx⟩
  · rw [hframe]
    exact hsame.1
  · rw [hframe]
    exact hcnt.trans (hc.counter _ (.inr (.inl rfl)))

/-- The first stage of a teardown (R365). -/
theorem teardown_first (r : FaultRec) (hp : s.CoresPlaced) (hf : (s.ctx x).fault = some r) (he : s.exists' x = true)
    (ht : (s.ctx x).tear = false) :
    let t := teardown x aclk s
    (t.ctx x).tear = true ∧ (∀ e ∈ t.hif.entries, e.ctx = x → e.isDone = true) ∧ (∀ j ∈ t.ctl.jobs, j.ctx ≠ x)
      ∧ t.counter (cntKey Pg.ctl0 4) = (s.counter (cntKey Pg.ctl0 4) + 1) % 2 ^ 64 := by
  obtain ⟨hup, htear, hcnt, hdone⟩ := tearBegun_shows x aclk s r hp
  rw [teardown_begins x aclk s r hf he ht]
  generalize tearBegun x aclk r s = u at hup htear hcnt hdone ⊢
  obtain ⟨hstop, hjobs⟩ := stopContext_sched x u hup
  generalize stopContext x u = v at hstop hjobs ⊢
  have hs := SchedKept.schedule aclk (v.count Pg.ctl0 4 1) ((hstop.placed hup).of_eq rfl rfl)
  refine ⟨?_, fun e he hx => ?_, fun j hj => ?_, ?_⟩
  · rw [hs.ctx x]
    show (v.ctx x).tear = true
    rw [hstop.ctx x]
    exact htear
  · obtain ⟨b, hb, hctx, hd⟩ := hs.entries e he
    obtain ⟨c, hc, hcctx, hcd⟩ := hstop.entries b hb
    exact hd (hcd (hdone c hc (by rw [← hcctx, ← hctx, hx])))
  · obtain ⟨i, hi, hctx, -⟩ := hs.jobs j hj
    rw [hctx]
    exact hjobs i hi
  · rw [hs.counter _ (.inr (.inl rfl)), State.counter_count_same, hstop.counter _ (.inr (.inl rfl)), hcnt]

end
end Sys2Proof.Machine
end

section
/-! PROOFS. The end of a teardown, instruction copies and rotation exchanges, and the obligation (R351, R364, R365, R371). -/

namespace Sys2Proof.Machine

/-! ### The end of a teardown (R365) -/

section
variable (x : Nat) (s : State)

/-- What the zeroing of a context's blocks leaves alone. -/
structure BlockKept (s t : State) : Prop where
  reg : ∀ a, ¬ CoreWord a → t.reg a = s.reg a
  ctx : ∀ y, t.ctx y = { s.ctx y with saved := (t.ctx y).saved }
  zero : ∀ m r b, s.rowByte m r b = 0 → t.rowByte m r b = 0

theorem BlockKept.refl (s : State) : BlockKept s s := ⟨fun _ _ => rfl, fun _ => rfl, fun _ _ _ h => h⟩

theorem BlockKept.trans {s t u : State} (h : BlockKept s t) (k : BlockKept t u) : BlockKept s u where
  reg a ha := (k.reg a ha).trans (h.reg a ha)
  ctx y := by rw [k.ctx y, h.ctx y]
  zero m r b hz := k.zero m r b (h.zero m r b hz)

/-- The `i`-th block of context `x`, whose record is `c`, zeroed (R365). -/
def clearBlock (x : Nat) (c : CtxRec) (t : State) (i : Nat) : State :=
  let n := c.cores.getD i 31
  let p := c.place.getD i ⟨0, 0, 0, 0, 0, 0, 0⟩
  let t1 := { t with
    spad := Memory.zero t.spad (rowAddr n p.rowBase) (rowAddr n (p.rowBase + p.rows))
    rowPoison := t.rowPoison.filter (fun r => decide (r.1 < n * 65536 + p.rowBase ∨ n * 65536 + p.rowBase + p.rows ≤ r.1)) }
  if (t.core n).ctx = some x then
    let t2 := iter 64 (fun k u => u.setReg (R.SEQ_SEM n k) 0) t1
    coreStatus n ((t2.modCore n (fun c => { c with ctx := none, wait := .none, loops := [], doneSig := false })).setSeqState
      n Seq.halted)
  else t1

theorem clearBlock_kept (c : CtxRec) (t : State) (i : Nat) (hn : c.cores.getD i 31 < 32) :
    BlockKept t (clearBlock x c t i)
      ∧ ∀ r b, b < 512 → (c.place.getD i ⟨0, 0, 0, 0, 0, 0, 0⟩).rowBase ≤ r →
        r < (c.place.getD i ⟨0, 0, 0, 0, 0, 0, 0⟩).rowBase + (c.place.getD i ⟨0, 0, 0, 0, 0, 0, 0⟩).rows →
        (clearBlock x c t i).rowByte (c.cores.getD i 31) r b = 0 := by
  unfold clearBlock
  dsimp only
  generalize c.cores.getD i 31 = n at hn ⊢
  generalize c.place.getD i ⟨0, 0, 0, 0, 0, 0, 0⟩ = p
  generalize ht1 : ({ t with
    spad := Memory.zero t.spad (rowAddr n p.rowBase) (rowAddr n (p.rowBase + p.rows))
    rowPoison := t.rowPoison.filter (fun r => decide (r.1 < n * 65536 + p.rowBase ∨ n * 65536 + p.rowBase + p.rows ≤ r.1)) } : State) = t1
  have hz (m r b : Nat) : t1.rowByte m r b = if rowAddr n p.rowBase ≤ rowAddr m r + b ∧ rowAddr m r + b < rowAddr n (p.rowBase + p.rows)
      then 0 else t.rowByte m r b := by
    rw [← ht1]
    exact Memory.read_zero ..
  have hk : BlockKept t t1 := by
    refine ⟨fun _ _ => by rw [← ht1]; rfl, fun _ => by rw [← ht1]; rfl, fun m r b h0 => ?_⟩
    rw [hz, h0, ite_self]
  have hside (u : State) (h : CoreSide t1 u) : BlockKept t u ∧ ∀ r b, b < 512 → p.rowBase ≤ r → r < p.rowBase + p.rows →
      u.rowByte n r b = 0 := by
    have hs : u.spad = t1.spad := by rw [h.frame]
    refine ⟨hk.trans ⟨h.reg, h.ctx, fun m r b h0 => (rowByte_of_spad hs m r b).trans h0⟩, fun r b hb h1 h2 => ?_⟩
    rw [rowByte_of_spad hs, hz, if_pos (by unfold rowAddr; omega)]
  split
  · have h1 := CoreSide.iter 64 (fun k u => u.setReg (R.SEQ_SEM n k) 0)
      (fun k hk u => .setReg _ 0 u (by unfold CoreWord R.SEQ_SEM Pg.seq; omega)) t1
    exact hside _ (((h1.trans (.modCore n _ _)).trans (.setSeqState n _ _ hn)).trans (.coreStatus n _ hn))
  · exact hside _ (.refl _)

theorem clearBlock_fold (c : CtxRec) (hc : ∀ i, c.cores.getD i 31 < 32) (l : List Nat) (t : State) :
    BlockKept t (l.foldl (clearBlock x c) t)
      ∧ ∀ i ∈ l, ∀ r b, b < 512 → (c.place.getD i ⟨0, 0, 0, 0, 0, 0, 0⟩).rowBase ≤ r →
        r < (c.place.getD i ⟨0, 0, 0, 0, 0, 0, 0⟩).rowBase + (c.place.getD i ⟨0, 0, 0, 0, 0, 0, 0⟩).rows →
        (l.foldl (clearBlock x c) t).rowByte (c.cores.getD i 31) r b = 0 := by
  induction l generalizing t with
  | nil => exact ⟨.refl t, fun _ hi => absurd hi List.not_mem_nil⟩
  | cons j l ih =>
    obtain ⟨hk, hzero⟩ := clearBlock_kept x c t j (hc j)
    obtain ⟨hl, hlz⟩ := ih (clearBlock x c t j)
    refine ⟨hk.trans hl, fun i hi r b hb h1 h2 => ?_⟩
    rcases List.mem_cons.1 hi with rfl | hi
    · exact hl.zero _ _ _ (hzero r b hb h1 h2)
    · exact hlz i hi r b hb h1 h2

/-- The blocks of a context, zeroed. -/
theorem clearBlocks_zero (hp : s.CoresPlaced) :
    BlockKept s (clearBlocks x s)
      ∧ ∀ (i n : Nat) (p : Place) (w b : Nat), (s.ctx x).cores[i]? = some n → (s.ctx x).place[i]? = some p → w < p.rows → b < 512 →
        (clearBlocks x s).rowByte n (p.rowBase + w) b = 0 := by
  have hc (i : Nat) : (s.ctx x).cores.getD i 31 < 32 := by
    rw [List.getD_eq_getElem?_getD]
    cases hi : (s.ctx x).cores[i]? with
    | none => decide
    | some m => exact hp.ctx x m (List.mem_of_getElem? hi)
  obtain ⟨hk, hz⟩ := clearBlock_fold x (s.ctx x) hc (List.range (s.ctx x).cores.length) s
  have hrow (m r b : Nat) : (clearBlocks x s).rowByte m r b
      = ((List.range (s.ctx x).cores.length).foldl (clearBlock x (s.ctx x)) s).rowByte m r b := rfl
  have hreg (a : Nat) : (clearBlocks x s).reg a = ((List.range (s.ctx x).cores.length).foldl (clearBlock x (s.ctx x)) s).reg a := rfl
  have hctx (y : Nat) : (clearBlocks x s).ctx y = (((List.range (s.ctx x).cores.length).foldl (clearBlock x (s.ctx x)) s).modCtx x
    (fun c => { c with saved := c.cores.map freshImage })).ctx y := rfl
  generalize clearBlocks x s = t at hrow hreg hctx ⊢
  generalize (List.range (s.ctx x).cores.length).foldl (clearBlock x (s.ctx x)) s = u at *
  refine ⟨⟨fun a ha => (hreg a).trans (hk.reg a ha), fun y => ?_, fun m r b h0 => (hrow m r b).trans (hk.zero m r b h0)⟩,
    fun i n p w b hi hpl hw hb => ?_⟩
  · rw [hctx, (CoreSide.modCtx x (fun c => { c with saved := c.cores.map freshImage }) u fun _ => rfl).ctx y, hk.ctx y]
  · have h := hz i (List.mem_range.2 (List.getElem?_eq_some_iff.1 hi).1) (p.rowBase + w) b hb
    rw [List.getD_eq_getElem?_getD, List.getD_eq_getElem?_getD, hi, hpl] at h
    exact (hrow _ _ _).trans (h (Nat.le_add_right _ _) (by show p.rowBase + w < p.rowBase + p.rows; omega))

theorem disableQueues_sqEn (q : Nat) (hq : q < 4) : (disableQueues x s).sqEn x q = false := by
  have h (K : Nat) : q < K → (iter K (fun q t => t.setFld (R.HIF_SQ_CFG (x / 8) (x % 8) q) F.HIF_SQ_CFG_EN 0) s).fld
      (R.HIF_SQ_CFG (x / 8) (x % 8) q) F.HIF_SQ_CFG_EN = 0 := by
    induction K with
    | zero => exact fun h => absurd h (Nat.not_lt_zero q)
    | succ K ih =>
      intro hK
      by_cases e : q = K
      · rw [e]
        exact State.fld_setFld_same _ _ _ _ (by decide)
      · exact (State.fld_setFld_ne _ _ _ _ _ _ (by unfold R.HIF_SQ_CFG; omega)).trans (ih (by omega))
  rw [State.sqEn, State.flag, disableQueues, h 4 hq]
  rfl

theorem disableQueues_ctx (y : Nat) : (disableQueues x s).ctx y = s.ctx y := rfl

/-- The end of a teardown before its signal. -/
def tornDown (x : Nat) (s : State) : State :=
  ((writeStatus x 2 ((s.ctx x).fault.getD noFault) false (clearBlocks x (disableQueues x s))).setFld (R.CTL_CX_INFO x)
    F.CTL_CX_INFO_FAULTED 1).modCtx x (fun c => { c with fault := none, tear := false, ends := false, viol := 0 })

theorem finishTeardown_frame : finishTeardown x true s = { tornDown x s with hif := (finishTeardown x true s).hif } :=
  msixSend_frame (tenantOf x) ((tornDown x s).fld (R.HIF_VEC (tenantOf x)) F.HIF_VEC_FAULT) (tornDown x s)

/-- The last stage of a teardown (R365). -/
theorem finishTeardown_outcome (hx : x < 128) (hp : s.CoresPlaced) :
    let t := finishTeardown x true s
    (t.ctx x).fault = none ∧ (t.ctx x).tear = false ∧ (t.ctx x).cores = (s.ctx x).cores ∧ (t.ctx x).place = (s.ctx x).place
      ∧ t.flag (R.CTL_CX_INFO x) F.CTL_CX_INFO_FAULTED = true ∧ (∀ q, q < 4 → t.sqEn x q = false)
      ∧ ∀ (i n : Nat) (p : Place) (w b : Nat), (s.ctx x).cores[i]? = some n → (s.ctx x).place[i]? = some p → w < p.rows → b < 512 →
        t.rowByte n (p.rowBase + w) b = 0 := by
  have hdq : (disableQueues x s).CoresPlaced := hp.of_eq rfl rfl
  obtain ⟨hk, hz⟩ := clearBlocks_zero x (disableQueues x s) hdq
  have hen := disableQueues_sqEn x s
  have hw := writeStatus_daKept (clearBlocks x (disableQueues x s)) x 2 ((s.ctx x).fault.getD noFault) false
  rw [finishTeardown_frame]
  generalize (finishTeardown x true s).hif = h
  unfold tornDown
  generalize clearBlocks x (disableQueues x s) = u at hk hz hw ⊢
  generalize writeStatus x 2 ((s.ctx x).fault.getD noFault) false u = v at hw ⊢
  have hctx : v.ctx x = u.ctx x := by unfold State.ctx; rw [hw.frame]
  have htctx : ({ ((v.setFld (R.CTL_CX_INFO x) F.CTL_CX_INFO_FAULTED 1).modCtx x
      (fun c => { c with fault := none, tear := false, ends := false, viol := 0 })) with hif := h } : State).ctx x
      = { v.ctx x with fault := none, tear := false, ends := false, viol := 0 } := Tab.get_set_same ..
  refine ⟨?_, ?_, ?_, ?_, ?_, fun q hq => ?_, fun i n p w b hi hpl hwr hb => ?_⟩
  · rw [htctx]
  · rw [htctx]
  · rw [htctx, hctx, hk.ctx x]
    rfl
  · rw [htctx, hctx, hk.ctx x]
    rfl
  · show (v.setFld (R.CTL_CX_INFO x) F.CTL_CX_INFO_FAULTED 1).flag _ _ = true
    rw [State.flag, State.fld_setFld_same _ _ _ _ (by decide)]
    rfl
  · rw [← hen q hq]
    show (wordFld ((v.setFld (R.CTL_CX_INFO x) F.CTL_CX_INFO_FAULTED 1).reg (R.HIF_SQ_CFG (x / 8) (x % 8) q)) F.HIF_SQ_CFG_EN == 1) = _
    rw [State.reg_setFld_ne _ _ _ _ _ (by unfold R.HIF_SQ_CFG R.CTL_CX_INFO Pg.hifFn Pg.ctlMb; omega),
      hw.reg _ (by unfold R.HIF_SQ_CFG Pg.hifFn Pg.mt1; omega) (by unfold R.HIF_SQ_CFG Pg.hifFn Pg.rel2; omega),
      hk.reg _ (by unfold CoreWord R.HIF_SQ_CFG Pg.hifFn; omega)]
    rfl
  · have hs : ({ ((v.setFld (R.CTL_CX_INFO x) F.CTL_CX_INFO_FAULTED 1).modCtx x
        (fun c => { c with fault := none, tear := false, ends := false, viol := 0 })) with hif := h } : State).spad = u.spad := by
      show v.spad = _
      rw [hw.frame]
    rw [rowByte_of_spad hs]
    exact hz i n p w b hi hpl hwr hb

theorem teardown_ends (aclk : Nat) (r : FaultRec) (hf : (s.ctx x).fault = some r) (he : s.exists' x = true) (ht : (s.ctx x).tear = true)
    (hfl : s.flushed x = true) : teardown x aclk s = finishTeardown x true s := by
  unfold teardown
  dsimp only
  rw [hf]
  dsimp only
  rw [he, if_neg (by decide), if_pos ht, if_pos hfl]

end
end Sys2Proof.Machine
end

section
/-! PROOFS. Instruction copies and rotation exchanges, and the obligation (R351, R364, R365, R371). -/

namespace Sys2Proof.Machine

/-! ### CTL_XCOPY (R364) -/

section
variable (a b first : Nat) (s : State)

theorem copySlots_frame (K : Nat) : copySlots a b first K s = { s with imem := (copySlots a b first K s).imem } := by
  induction K with
  | zero => rfl
  | succ K ih =>
    have hstep : copySlots a b first (K + 1) s = (copySlots a b first K s).setSlot b (first + K) (s.slot a (first + K)) := rfl
    rw [hstep]
    generalize copySlots a b first K s = t at ih ⊢
    rw [ih]
    rfl

theorem slot_setSlot (n m i j : Nat) (w : BitVec 64) (t : State) (hi : i < 16384) (hj : j < 16384) :
    (t.setSlot n i w).slot m j = if m = n ∧ j = i then w else t.slot m j := by
  unfold State.setSlot State.slot
  by_cases h : m = n ∧ j = i
  · rw [if_pos h, h.1, h.2, Tab.get_set_same]
  · rw [if_neg h, Tab.get_set_ne _ _ _ _ _ (by omega)]

/-- What a copy of slots leaves in every slot. -/
theorem copySlots_slot (K : Nat) (hK : first + K ≤ 16384) (m j : Nat) (hj : j < 16384) :
    (copySlots a b first K s).slot m j = if m = b ∧ first ≤ j ∧ j < first + K then s.slot a j else s.slot m j := by
  induction K with
  | zero => rw [if_neg (by omega)]; rfl
  | succ K ih =>
    show (State.setSlot (copySlots a b first K s) b (first + K) (s.slot a (first + K))).slot m j = _
    rw [slot_setSlot _ _ _ _ _ _ (by omega) hj, ih (by omega)]
    by_cases h : m = b ∧ j = first + K
    · rw [if_pos h, if_pos (by omega), h.2]
    · rw [if_neg h]
      by_cases h' : m = b ∧ first ≤ j ∧ j < first + K
      · rw [if_pos h', if_pos (by omega)]
      · rw [if_neg h', if_neg (by omega)]

end

/-- The register of instruction copies. -/
def xcopyReg : RegDef := ⟨0x104, 1, 0x0, 1, 0x0, .ctl,
  [⟨4, 0, .wo, 0, 0, [(0, 17)]⟩, ⟨9, 5, .wo, 0, 0, [(0, 17)]⟩, ⟨23, 10, .wo, 0, 0, []⟩, ⟨31, 24, .wo, 0, 0, []⟩]⟩

section
variable (iid : Fin 24) (val : Word) (s : State) (h : s.Admits iid R.CTL_XCOPY .ctl0 0)
  (ha : wordFld val F.CTL_XCOPY_SRC_CORE ≤ 17) (hb : wordFld val F.CTL_XCOPY_DST_CORE ≤ 17)
include h ha hb

theorem exec_ctlXcopy : exec (.ctlXcopy iid val) s = .next (attributeErr iid R.CTL_XCOPY s (xcopy val s)) := by
  have hf : findReg (R.CTL_XCOPY % 4096) (regsOf .ctl0) = some (xcopyReg, 0, 0) := by decide
  have ha' : bitsOf val.toNat 4 0 ≤ 17 := ha
  have hb' : bitsOf val.toNat 9 5 ≤ 17 := hb
  have hok : commandOk xcopyReg.flds 0xFFFFFFFF#32 val = true := by
    unfold commandOk xcopyReg
    simp [and_full, FldDef.ok, ha', hb']
  exact congrArg Host.Outcome.next (busWrite_command iid R.CTL_XCOPY val s .ctl0 0 xcopyReg 0 0 h (by decide) (by decide) hf rfl
    (plainFields_of_page _ _ (by decide) (by decide)) rfl hok)

/-- A copy of instruction slots (R364). -/
theorem ctlXcopy_copies (hfit : wordFld val F.CTL_XCOPY_FIRST + 64 * wordFld val F.CTL_XCOPY_COUNT ≤ 16384)
    (hda : s.domOn (wordFld val F.CTL_XCOPY_SRC_CORE) = true) (hdb : s.domOn (wordFld val F.CTL_XCOPY_DST_CORE) = true) :
    exec (.ctlXcopy iid val) s = .next (copySlots (wordFld val F.CTL_XCOPY_SRC_CORE) (wordFld val F.CTL_XCOPY_DST_CORE)
      (wordFld val F.CTL_XCOPY_FIRST) (64 * wordFld val F.CTL_XCOPY_COUNT) s) := by
  have hx : xcopy val s = copySlots (wordFld val F.CTL_XCOPY_SRC_CORE) (wordFld val F.CTL_XCOPY_DST_CORE)
      (wordFld val F.CTL_XCOPY_FIRST) (64 * wordFld val F.CTL_XCOPY_COUNT) s := by
    unfold xcopy
    dsimp only
    rw [if_neg]
    rw [hda, hdb]
    rintro (e | e | e | e | e)
    · omega
    · omega
    · omega
    · cases e
    · cases e
  rw [exec_ctlXcopy iid val s h ha hb, hx, attributeErr_quiet]
  rw [copySlots_frame]
  rfl

/-- A copy that runs past the last slot is refused (R364). -/
theorem ctlXcopy_refused (hfit : 16384 < wordFld val F.CTL_XCOPY_FIRST + 64 * wordFld val F.CTL_XCOPY_COUNT) :
    exec (.ctlXcopy iid val) s = .next (raiseErr Pg.ctl0 E.ctl0_XCOPY_BAD iid 0x104 s) := by
  have hi := iid.isLt
  have hx : xcopy val s = errEvent Pg.ctl0 E.ctl0_XCOPY_BAD s := by
    unfold xcopy
    dsimp only
    rw [if_pos (.inr (.inr (.inl hfit)))]
  rw [exec_ctlXcopy iid val s h ha hb, hx]
  exact congrArg Host.Outcome.next (attributeErr_errEvent iid R.CTL_XCOPY E.ctl0_XCOPY_BAD s (by decide) (by omega))

end

/-! ### Rotation exchanges (R364) -/

section
variable (x a b i k aclk : Nat) (s : State)

/-- The rows of a block, copied to another core. -/
theorem copyRows_row (first K : Nat) (hw : Memory.wf s.spad = true) (hfit : first + K ≤ 65536) (w c : Nat) (hwK : w < K) (hc : c < 512) :
    (copyRows a b first K s).rowByte b (first + w) c = s.rowByte a (first + w) c := by
  have hwf (K : Nat) : Memory.wf (copyRows a b first K s).spad = true := by
    induction K with
    | zero => exact hw
    | succ K ih => exact wf_writeRow (copyRows a b first K s) b _ _ _ ih
  induction K with
  | zero => exact absurd hwK (Nat.not_lt_zero w)
  | succ K ih =>
    have hlen : (s.rowBytes a (first + K)).length = 512 := Memory.length_readList ..
    show (State.writeRow (copyRows a b first K s) b (first + K) (s.rowBytes a (first + K)) (s.rowTag a (first + K))).rowByte _ _ _ = _
    rw [rowByte_writeRow _ _ _ _ _ (hwf K) (by omega) hlen _ _ _ (by omega) hc]
    by_cases e : w = K
    · rw [if_pos ⟨rfl, by omega⟩, e]
      exact Memory.getD_readList _ _ _ _ hc
    · rw [if_neg (by omega), ih (by omega) (by omega)]

theorem switchOut_spad (n : Nat) (s : State) : (switchOut n s).spad = s.spad := by rw [(CoreSide.switchOut n s).frame]

theorem copyRegions_spad (first K : Nat) (s : State) : (copyRegions a b first K s).spad = s.spad := by
  induction K with
  | zero => rfl
  | succ K ih => exact ih

theorem copySlots_spad (first K : Nat) (s : State) : (copySlots a b first K s).spad = s.spad := by rw [copySlots_frame]

/-- The rows of context `x` on the replacement. -/
theorem blocksMoved_row (p : Place) (hw : Memory.wf s.spad = true) (hfit : p.rowBase + p.rows ≤ 65536) (w c : Nat) (hwr : w < p.rows)
    (hc : c < 512) : (blocksMoved x a b k p s).rowByte b (p.rowBase + w) c = s.rowByte a (p.rowBase + w) c := by
  have hs0 : (if (s.core a).ctx = some x then switchOut a s else s).spad = s.spad := by
    split
    · exact switchOut_spad a s
    · rfl
  have hs1 : (copyRegions a b p.regBase p.regCount (copySlots a b p.imemBase p.imemCount
      (if (s.core a).ctx = some x then switchOut a s else s))).spad = s.spad := by
    rw [copyRegions_spad, copySlots_spad, hs0]
  have hrow : (blocksMoved x a b k p s).rowByte b (p.rowBase + w) c = (copyRows a b p.rowBase p.rows
      (copyRegions a b p.regBase p.regCount (copySlots a b p.imemBase p.imemCount
        (if (s.core a).ctx = some x then switchOut a s else s)))).rowByte b (p.rowBase + w) c := rfl
  rw [hrow]
  generalize copyRegions a b p.regBase p.regCount (copySlots a b p.imemBase p.imemCount
    (if (s.core a).ctx = some x then switchOut a s else s)) = u at hs1 ⊢
  rw [copyRows_row a b u p.rowBase p.rows (by rw [hs1]; exact hw) hfit w c hwr hc, rowByte_of_spad hs1]

/-- What a move of a context leaves (R364). -/
theorem moveContext_outcome (p : Place) (hb : b < 32) (hp : s.CoresPlaced) (hi : (s.ctx x).cores.findIdx? (· == a) = some i)
    (hpl : (s.ctx x).place[i]? = some p) (hk : s.samePlace b p = some k) (hw : Memory.wf s.spad = true)
    (hfit : p.rowBase + p.rows ≤ 65536) :
    let t := moveContext x a b aclk s
    (t.ctx x).cores = modNth (s.ctx x).cores i (fun _ => b)
      ∧ (∀ w c, w < p.rows → c < 512 → t.rowByte b (p.rowBase + w) c = s.rowByte a (p.rowBase + w) c)
      ∧ t.counter (cntKey Pg.ctl0 5) = (s.counter (cntKey Pg.ctl0 5) + 1) % 2 ^ 64 := by
  have hget : (s.ctx x).place.getD i ⟨0, 0, 0, 0, 0, 0, 0⟩ = p := by rw [List.getD_eq_getElem?_getD, hpl]; rfl
  rw [moveContext_at x a b i k aclk s hi (by rw [hget]; exact hk)]
  have hs := SchedKept.pumpJobs aclk (contextMoved x a b i k aclk s) ((RelKept.contextMoved x a b i k aclk s hb).placed hp)
  have hm := MoveSide.blocks x a b k p s
  have hrow := blocksMoved_row x a b k s p hw hfit
  have hcores := contextMoved_cores x a b i k aclk s
  have hrows (w c : Nat) : (contextMoved x a b i k aclk s).rowByte b (p.rowBase + w) c = (blocksMoved x a b k p s).rowByte b (p.rowBase + w) c := by
    unfold contextMoved
    rw [hget]
    rfl
  have hcnt : (contextMoved x a b i k aclk s).counter (cntKey Pg.ctl0 5) = (s.counter (cntKey Pg.ctl0 5) + 1) % 2 ^ 64 := by
    unfold contextMoved
    rw [hget, State.counter_count_same]
    exact congrArg (fun c => (c + 1) % 2 ^ 64) (hm.counter (cntKey Pg.ctl0 5) (by decide))
  generalize contextMoved x a b i k aclk s = u at hs hcores hrows hcnt ⊢
  exact ⟨(by rw [hs.ctx x]; exact hcores), fun w c hwr hc => (rowByte_of_spad hs.spad _ _ _).trans ((hrows w c).trans (hrow w c hwr hc)),
    (hs.counter _ (.inr (.inr rfl))).trans hcnt⟩

theorem rotationExchange_at (he : s.exists' x = true) (hin : s.inService b = true) (hon : s.domOn b = true) (hne : a ≠ b)
    (hex : s.exchangeable x a = true) (hb : b ∉ (s.ctx x).cores) (hf : (s.ctx x).fault = none)
    (hi : (s.ctx x).cores.findIdx? (· == a) = some i) :
    rotationExchange x a b aclk s = moveContext x a b aclk (chargeAll aclk s) := by
  have ha : a ∈ (s.ctx x).cores := by
    obtain ⟨hlt, hpa, -⟩ := List.findIdx?_eq_some_iff_getElem.1 hi
    rw [← eq_of_beq hpa]
    exact List.getElem_mem hlt
  unfold rotationExchange
  rw [if_pos]
  simp [he, hin, hon, hne, hex, ha, hb, hf]

theorem chargeAll_reg (r : Nat) : (chargeAll aclk s).reg r = s.reg r := by
  have h : (chargeAll aclk s).regs = s.regs := foldl_keeps State.regs (chargeJob aclk)
    (fun t j => by unfold chargeJob; split <;> rfl) s.ctl.jobs (s.modCtl (fun c => { c with aclk := max c.aclk aclk }))
  unfold State.reg
  rw [h]

/-- A rotation exchange (R364). -/
theorem rotationExchange_outcome (p : Place) (hb : b < 32) (hp : s.CoresPlaced) (hi : (s.ctx x).cores.findIdx? (· == a) = some i)
    (hpl : (s.ctx x).place[i]? = some p) (hk : s.samePlace b p = some k) (hw : Memory.wf s.spad = true)
    (hfit : p.rowBase + p.rows ≤ 65536) :
    let t := moveContext x a b aclk (chargeAll aclk s)
    (t.ctx x).cores = modNth (s.ctx x).cores i (fun _ => b)
      ∧ (∀ w c, w < p.rows → c < 512 → t.rowByte b (p.rowBase + w) c = s.rowByte a (p.rowBase + w) c)
      ∧ t.counter (cntKey Pg.ctl0 5) = (s.counter (cntKey Pg.ctl0 5) + 1) % 2 ^ 64 := by
  have hc := SchedKept.chargeAll aclk s
  have hv := chargeAll_reg aclk s
  generalize chargeAll aclk s = u at hc hv ⊢
  have hctx (y : Nat) : (u.ctx y).cores = (s.ctx y).cores ∧ (u.ctx y).place = (s.ctx y).place := by
    rw [hc.ctx y]
    exact ⟨rfl, rfl⟩
  obtain ⟨h1, h2, h3⟩ := moveContext_outcome x a b i k aclk u p hb (hc.placed hp) (by rw [(hctx x).1]; exact hi)
    (by rw [(hctx x).2]; exact hpl) ((samePlace_congr s u b p hctx (fun _ => hv _) fun _ => hv _).trans hk) (by rw [hc.spad]; exact hw) hfit
  exact ⟨h1.trans (by rw [(hctx x).1]), fun w c hwr hcb => (h2 w c hwr hcb).trans (rowByte_of_spad hc.spad _ _ _),
    h3.trans (by rw [hc.counter _ (.inr (.inr rfl))])⟩

end

/-- Settles O41: each command by its own rule; a scheduling point leaves the contexts' cores, the words of the control complex
and of the host's functions, the entries that are done and the rows as they are. -/
theorem contextsAreCreatedTornDownAndMoved : Obligations.ContextsAreCreatedTornDownAndMoved := by
  unfold Obligations.ContextsAreCreatedTornDownAndMoved
  intro s hp
  refine ⟨fun iid t0 k h => ?_, fun x aclk r hf he => ⟨fun ht => ⟨_, rfl, teardown_first x aclk s r hp.cores hf he ht⟩,
      fun ht hfl => ⟨_, congrArg Host.Outcome.next (teardown_ends x s aclk r hf he ht hfl), finishTeardown_outcome x s x.isLt hp.cores⟩⟩,
    fun x a b aclk i k p he hin hon hne hex hb hf hi hpl hk hw hfit => ⟨_, congrArg Host.Outcome.next
      (rotationExchange_at x a b i aclk s he hin hon (fun e => hne (Fin.ext e)) hex hb hf hi),
      rotationExchange_outcome x a b i k aclk s p (by omega) hp.cores hi hpl hk hw hfit⟩, fun iid val h => ?_⟩
  · intro x a0 a1 n rows regs imem share da room
    refine ⟨fun hfree h1 h2 h3 h4 h5 h6 h7 h8 hstr h9 h10 hown hready => ?_, fun he => ?_, fun he => ?_, fun he => ?_⟩
    · have hok : CreateOk t0 k s := ⟨hfree, ⟨h1, h2⟩, ⟨h3, h4⟩, ⟨h5, h6⟩, ⟨h7, h8⟩, hstr, ⟨h9, h10⟩, hown, hready⟩
      have hat := cxCreate_at s t0 k hok
      constructor
      · intro hroom
        have hr : ¬ s.mbRoom.length < s.mbCores := Nat.not_lt.mpr hroom
        rw [if_neg hr] at hat
        exact ⟨_, (exec_create iid t0 k s h).trans (by rw [hat]), cxCreated_outcome s iid t0 k h2⟩
      · intro hroom
        have hr : s.mbRoom.length < s.mbCores := hroom
        rw [if_pos hr] at hat
        rw [exec_create iid t0 k s h, hat, mailbox_refused iid s 2 (by decide)]
    · have hat : cxCreate t0 k s = mbResult 1 s := if_pos he
      rw [exec_create iid t0 k s h, hat, mailbox_refused iid s 1 (by decide)]
    · have hat : cxDestroy t0 k s = mbResult 1 s := if_pos (by rw [he]; rfl)
      rw [exec_destroy iid t0 k s h, hat, mailbox_refused iid s 1 (by decide)]
    · exact ⟨_, exec_destroy iid t0 k s h, cxDestroy_outcome s iid t0 k hp he⟩
  · intro a b first n ha hb
    refine ⟨fun hfit hda hdb => ⟨_, ctlXcopy_copies iid val s h ha hb hfit hda hdb, fun i hi => ?_, fun m i _ hi hno => ?_, copySlots_frame ..⟩,
      fun hfit => ctlXcopy_refused iid val s h ha hb hfit⟩
    · rw [copySlots_slot _ _ _ _ _ hfit _ _ (by omega), if_pos ⟨rfl, by omega, by omega⟩]
    · rw [copySlots_slot _ _ _ _ _ hfit _ _ hi, if_neg (by omega)]

end Sys2Proof.Machine
end
